-- ==== Sys2Proof/Word.lean ====
section
/-! DEFINITION. The word types of the part: bytes, the 32-bit words of its registers and the
64-bit pieces of its memory (R113, R126 of spec/04_address_space_memory.md). -/

namespace Sys2Proof

/-- One byte of memory. -/
abbrev Byte := BitVec 8

/-- One register word (every register access is 32 bits wide, R113). -/
abbrev Word := BitVec 32

/-- One aligned 8-byte piece of memory (R126). -/
abbrev DWord := BitVec 64

end Sys2Proof
end

