-- ==== Sys2Proof/Syntax.lean ====
section
/-! DEFINITION. The commands the part takes: one constructor per row of spec/opcode_table.json, with
the operands of the row (a requester, an address, a value, a level of a pin, what an outside party
answered). The types of those operands stand first. -/

namespace Sys2Proof

/-- The status codes of R523 (spec/16_host_rings.md). -/
inductive Status where
  | ok | retry | nackAbsent | poison | timeout | firewall | epochStale | extrapolated | dropped
  deriving DecidableEq, Repr

/-- Who makes a request: the 6-bit initiator ID and the 2-bit class it carries (R690; class 0 S, 1 C,
2 P, 3 B), whether it arrived over Windway (R690, remote), whether it came through a BAR of the function of
that client (R520). -/
structure Who where
  ini : Fin 64
  cls : Fin 4
  remote : Bool
  bar : Bool := false
  deriving DecidableEq, Repr

/-- What a party outside the part answers to one request that leaves the part (a host memory read,
a request over Windway): the status and, for a read, the bytes. -/
structure Reply where
  st : Status
  data : List Byte
  deriving DecidableEq, Repr

/-- The atomic operations of the management cores (R133). -/
inductive AmoOp where
  | swap | add | xor | and | or | min | max | minu | maxu | lr | sc
  deriving DecidableEq, Repr


/-- A Windway message (R561): its header fields and its data bytes (SIZE of them for WR and RDRSP). -/
structure WwMsg where
  mtype : Nat
  cls : Nat := 1
  init : Nat := 0
  src : Nat := 0
  dst : Nat := 0
  bcast : Bool := false
  hops : Nat := 15
  tag : Nat := 0
  host : Bool := false
  epoch : Nat := 0
  status : Nat := 0
  size : Nat := 0
  addr : Nat := 0
  data : List Byte := []
  deriving DecidableEq, Repr

/-- A Windway frame or tunnel frame (R557, R578): its number, the last number received in order, NAK,
KEEPALIVE, credits returned on VC0 to VC2, its messages. -/
structure WwFrame where
  seq : Nat
  ack : Nat := 0
  nak : Bool := false
  keepalive : Bool := false
  credits : List Nat := [0, 0, 0]
  msgs : List WwMsg := []
  deriving DecidableEq, Repr

/-- A field ring (R602): transmit and receive rings of an Ethernet port by traffic class, the receive ring of a CAN
controller. -/
inductive RingId where
  | ethTx (p : Fin 4) (t : Fin 8)
  | ethRx (p : Fin 4) (t : Fin 8)
  | can (c : Fin 4)
  deriving DecidableEq, Repr

/-- A CAN frame on the bus (R616, R617). -/
structure CanFrame where
  id : BitVec 29
  ide : Bool
  rtr : Bool
  fdf : Bool
  brs : Bool
  esi : Bool
  dlc : Fin 16
  data : List Byte
  deriving DecidableEq, Repr

/-- What completes on a serial interface (R626, R788): an SPI word with the word received; an I2C transfer with its end
(0 done, 1 no acknowledge, 2 arbitration lost) and the bytes received; a byte that reached the I2C target; a UART
character sent, or received with parity error, framing error and break; an xSPI transfer with the bytes read. -/
inductive SerialEvent where
  | spi (s : Fin 6) (rx : BitVec 32)
  | i2c (i : Fin 4) (res : Fin 3) (rx : List Byte)
  | i2cTarget (i : Fin 4) (rx : Byte)
  | uartTx (u : Fin 4)
  | uartRx (u : Fin 4) (ch : Byte) (par frm brk : Bool)
  | xspi (rx : List Byte)
  deriving DecidableEq, Repr

/-- A serial receive register (R788). -/
inductive SerialRx where
  | spi (s : Fin 6)
  | i2c (i : Fin 4)
  | uart (u : Fin 4)
  | xspi
  deriving DecidableEq, Repr

/-- A JTAG access (R748, R772): identification, BOOT_STAT, debug, boundary scan, programming of a fuse word (its place in
the order of R747, its value; the programming supply is on). -/
inductive JtagReq where
  | identify
  | bootStat
  | debug
  | scan
  | program (field : Fin 11) (value : Nat) (vpp : Bool)
  deriving DecidableEq, Repr

/-- A pure operation of the coprocessor port, with its operands (R238): SEL.QMAX, REED.TEST, REED.RDEST. -/
inductive PurePort where
  | qmax (rs1 : BitVec 64)
  | test (rs1 rs2 : BitVec 64)
  | rdest (rs1 rs2 : BitVec 64)
  deriving DecidableEq, Repr

/-- The commands, in the order of spec/opcode_table.json; each docstring names the rule the table gives. -/
inductive Instr where
  /-- REGISTER_WRITE (R776) -/
  | registerWrite (w : Who) (a : BitVec 24) (v : BitVec 32) (rs : List Reply)
  /-- SETUP_LOCK (R782) -/
  | setupLock (w : Who)
  /-- ISL_LOCK (R782) -/
  | islLock (w : Who)
  /-- PORST_N_ASSERT (R741) -/
  | porstNAssert
  /-- PORST_N_RELEASE (R743) -/
  | porstNRelease (mode : Fin 4)
  /-- SYSRST_N_ASSERT (R826) -/
  | sysrstNAssert
  /-- SYSRST_N_RELEASE (R764) -/
  | sysrstNRelease
  /-- REFERENCE_ACCEPTANCE (R744) -/
  | referenceAcceptance (n1 n2 n3 n4 : Fin 256)
  /-- PLL_LOCK_LIMIT (R744) -/
  | pllLockLimit (ctrl fab tile serdes : Bool)
  /-- DIVIDER_ALIGNMENT (R745) -/
  | dividerAlignment
  /-- FUSE_READOUT (R747) -/
  | fuseReadout
  /-- INIT_COMPLETE (R750) -/
  | initComplete (fails : List (Fin 128))
  /-- IMAGE_LOAD (R754) -/
  | imageLoad (img : Option (List Byte))
  /-- IMAGE_VERIFY (R756) -/
  | imageVerify
  /-- ISLAND_SRAM_ZEROED (R757) -/
  | islandSramZeroed (ok : Bool)
  /-- ISLAND_SEGMENT_COPY (R757) -/
  | islandSegmentCopy
  /-- ISLAND_FIRMWARE_START (R757) -/
  | islandFirmwareStart
  /-- BOOT_DATA (R758) -/
  | bootData (w : Who) (v : BitVec 32)
  /-- HOST_GO (R758) -/
  | hostGo (w : Who)
  /-- MGMT_GO (R759) -/
  | mgmtGo (w : Who)
  /-- HOST_READY (R763) -/
  | hostReady (w : Who)
  /-- DBG_UNLOCK (R772) -/
  | dbgUnlock (w : Who)
  /-- PCIE_LINK_TRAINING (R762) -/
  | pcieLinkTraining
  /-- BANK_SUPPLY_LOSS (R804) -/
  | bankSupplyLoss (b : Fin 6)
  /-- BANK_SUPPLY_RETURN (R803) -/
  | bankSupplyReturn (b : Fin 6)
  /-- GRANT_WINDOW_START (R486) -/
  | grantWindowStart (xs : List (Option (BitVec 12)))
  /-- ROW_ELIGIBLE (R87) -/
  | rowEligible (u : Fin 128) (c : Fin 16)
  /-- GRANT_DECISION (R491) -/
  | grantDecision
  /-- ITERATION_COMPLETE (R90) -/
  | iterationComplete (u : Fin 128) (c : Fin 16)
  /-- POST_ANSWER (R96) -/
  | postAnswer (ix : Nat)
  /-- TOKEN_ARRIVAL (R95) -/
  | tokenArrival (ix : Nat)
  /-- CREDIT_ARRIVAL (R98) -/
  | creditArrival (ix : Nat)
  /-- TOKCNT_WRITE (R95) -/
  | tokcntWrite (w : Who) (u : Fin 128) (c k : Fin 16) (v : BitVec 32) (taken arrived : BitVec 16)
  /-- POOL_CNT_WRITE (R98) -/
  | poolCntWrite (w : Who) (u : Fin 128) (p : Fin 32) (v : BitVec 32) (taken returned : BitVec 16)
  /-- TOKTAKE (R97) -/
  | toktake (w : Who) (u : Fin 128) (c k : Fin 16) (n : BitVec 16)
  /-- CTX_START (R77) -/
  | ctxStart (w : Who) (u : Fin 128) (c : Fin 16) (v : BitVec 32)
  /-- CTX_HALT (R77) -/
  | ctxHalt (w : Who) (u : Fin 128) (c : Fin 16) (v : BitVec 32)
  /-- CTX_STEP (R77) -/
  | ctxStep (w : Who) (u : Fin 128) (c : Fin 16) (v : BitVec 32)
  /-- CTX_CLEAR (R77) -/
  | ctxClear (w : Who) (u : Fin 128) (c : Fin 16) (v : BitVec 32)
  /-- CTX_PC_WRITE (R825) -/
  | ctxPcWrite (w : Who) (u : Fin 128) (c : Fin 16) (v : BitVec 32)
  /-- ROW_COMMIT (R103) -/
  | rowCommit (w : Who) (u : Fin 128) (r : Fin 512) (v : BitVec 32)
  /-- CTX_STALL (R101) -/
  | ctxStall (u : Fin 128) (c : Fin 16)
  /-- SEQ_ERR_READ (R102) -/
  | seqErrRead (w : Who) (u : Fin 128)
  /-- SYNC (R78) -/
  | sync (u : Fin 128) (c : Fin 16)
  /-- MEMORY_READ (R114) -/
  | memoryRead (w : Who) (unit : Fin 256) (ep : Option (Fin 256)) (ga : BitVec 64) (n : Nat) (rs : List Reply)
  /-- MEMORY_WRITE (R137) -/
  | memoryWrite (w : Who) (unit : Fin 256) (ep : Option (Fin 256)) (ga : BitVec 64) (data : List Byte)
  /-- WRITE_ACKNOWLEDGEMENT (R128) -/
  | writeAcknowledgement (ini : Fin 64)
  /-- ZERO_LENGTH_READ_COMPLETE (R131) -/
  | zeroLengthReadComplete (fn : Fin 32)
  /-- ECC_WRITE_BACK (R135) -/
  | eccWriteBack (wa : BitVec 48)
  /-- SCRUB_READ (R138) -/
  | scrubRead (skip : List (Fin 128))
  /-- AMO (R133) -/
  | amo (core : Fin 4) (op : AmoOp) (ga : BitVec 64) (wide : Bool) (v : BitVec 64)
  /-- MEM_ZERO_GO (R140) -/
  | memZeroGo (w : Who) (v : BitVec 32)
  /-- ZEROING_DONE (R140) -/
  | zeroingDone
  /-- MEM_CNT_CLR (R149) -/
  | memCntClr (w : Who) (v : BitVec 32)
  /-- COPY (R123) -/
  | copy (u : Fin 128) (c : Fin 16) (rs : List Reply)
  /-- FILL (R122) -/
  | fill (u : Fin 128) (c : Fin 16) (rs : List Reply)
  /-- MMA (R161) -/
  | mma (t : Fin 64) (c : Fin 16)
  /-- ADD (R170) -/
  | add (t : Fin 64) (c : Fin 16)
  /-- SUB (R170) -/
  | sub (t : Fin 64) (c : Fin 16)
  /-- MUL (R170) -/
  | mul (t : Fin 64) (c : Fin 16)
  /-- FMA (R170) -/
  | fma (t : Fin 64) (c : Fin 16)
  /-- MAX (R170) -/
  | max (t : Fin 64) (c : Fin 16)
  /-- MIN (R170) -/
  | min (t : Fin 64) (c : Fin 16)
  /-- ABS (R170) -/
  | abs (t : Fin 64) (c : Fin 16)
  /-- NEG (R170) -/
  | neg (t : Fin 64) (c : Fin 16)
  /-- CVT (R170) -/
  | cvt (t : Fin 64) (c : Fin 16)
  /-- REQUANT (R173) -/
  | requant (t : Fin 64) (c : Fin 16)
  /-- CMPGT (R170) -/
  | cmpgt (t : Fin 64) (c : Fin 16)
  /-- CMPEQ (R170) -/
  | cmpeq (t : Fin 64) (c : Fin 16)
  /-- SELECT (R166) -/
  | select (t : Fin 64) (c : Fin 16)
  /-- RECIP (R170) -/
  | recip (t : Fin 64) (c : Fin 16)
  /-- RSQRT (R170) -/
  | rsqrt (t : Fin 64) (c : Fin 16)
  /-- EXP2 (R170) -/
  | exp2 (t : Fin 64) (c : Fin 16)
  /-- LOG2 (R170) -/
  | log2 (t : Fin 64) (c : Fin 16)
  /-- RSUM (R172) -/
  | rsum (t : Fin 64) (c : Fin 16)
  /-- RMAX (R172) -/
  | rmax (t : Fin 64) (c : Fin 16)
  /-- SHIFT (R166) -/
  | shift (t : Fin 64) (c : Fin 16)
  /-- AND (R166) -/
  | and (t : Fin 64) (c : Fin 16)
  /-- OR (R166) -/
  | or (t : Fin 64) (c : Fin 16)
  /-- XOR (R166) -/
  | xor (t : Fin 64) (c : Fin 16)
  /-- TILE_CNT_CLR (R187) -/
  | tileCntClr (w : Who) (t : Fin 64) (v : BitVec 32)
  /-- TOPK (R196) -/
  | topk (t : Fin 64) (c : Fin 16)
  /-- MERGE (R197) -/
  | merge (t : Fin 64) (c : Fin 16)
  /-- ARGIDX (R198) -/
  | argidx (t : Fin 64) (c : Fin 16)
  /-- SEL_CNT_CLR (R194) -/
  | selCntClr (w : Who) (t : Fin 64) (v : BitVec 32)
  /-- SEL_QMAX (R203) -/
  | selQmax (core : Fin 4) (rs1 : BitVec 64)
  /-- SEL_QTOPK (R203) -/
  | selQtopk (core : Fin 4) (rs1 : BitVec 64)
  /-- REED_TEST (R238) -/
  | reedTest (core : Fin 4) (rs1 rs2 : BitVec 64)
  /-- REED_RDEST (R238) -/
  | reedRdest (core : Fin 4) (rs1 rs2 : BitVec 64)
  /-- REED_WPUT (R238) -/
  | reedWput (core : Fin 4) (rs1 rs2 : BitVec 64)
  /-- REED_FALLBK (R238) -/
  | reedFallbk (core : Fin 4) (rs1 : BitVec 64)
  /-- TOK_POST (R238) -/
  | tokPost (core : Fin 4) (rs1 : BitVec 64)
  /-- PORT_SQUASH (R240) -/
  | portSquash (core : Fin 4) (op : PurePort) (ran : Bool)
  /-- EVAL (R219) -/
  | eval (e : Fin 4) (c : Fin 16)
  /-- SEAL (R234) -/
  | seal (e : Fin 4) (c : Fin 16)
  /-- SWAP (R236) -/
  | swap (e : Fin 4) (c : Fin 16)
  /-- FREE (R237) -/
  | free (e : Fin 4) (c : Fin 16)
  /-- REED_INSTANCE_ENABLE (R233) -/
  | reedInstanceEnable (w : Who) (ix : Fin 48) (v : BitVec 32)
  /-- SWAP_NOW (R236) -/
  | swapNow (w : Who) (ix : Fin 48) (v : BitVec 32)
  /-- REED_APPROVE (R235) -/
  | reedApprove (w : Who) (ix : Fin 48) (v : BitVec 32)
  /-- RUN (R254) -/
  | run (ln : Fin 2) (c : Fin 16)
  /-- SLOT_START (R250) -/
  | slotStart (ln : Fin 2)
  /-- SLOT_PUBLISH (R268) -/
  | slotPublish (ln : Fin 2) (agree : Bool)
  /-- CWQ_ENQUEUE (R273) -/
  | cwqEnqueue (w : Who) (v : BitVec 32)
  /-- CWQ_FLUSH (R275) -/
  | cwqFlush (w : Who) (v : BitVec 32)
  /-- CHN_SLOT_ENABLE (R272) -/
  | chnSlotEnable (w : Who) (x : Fin 128) (v : BitVec 32)
  /-- LANE_ENABLE (R279) -/
  | laneEnable (w : Who) (v : BitVec 32)
  /-- LANE_LIST_WRITE (R251) -/
  | laneListWrite (w : Who) (ln : Fin 2) (j : Fin 32) (v : BitVec 32)
  /-- CHN_CNT_CLR (R282) -/
  | chnCntClr (w : Who) (v : BitVec 32)
  /-- SETPOINT_UPDATE (R296) -/
  | setpointUpdate (c : Fin 64)
  /-- SP_ENABLE (R296) -/
  | spEnable (w : Who) (c : Fin 64) (v : BitVec 32)
  /-- SP_HOST (R297) -/
  | spHost (w : Who) (c : Fin 64) (v : BitVec 32)
  /-- INJECTION_GO (R299) -/
  | injectionGo (w : Who) (g : Fin 8) (v : BitVec 32)
  /-- INJECTION_STOP (R301) -/
  | injectionStop (w : Who) (g : Fin 8) (v : BitVec 32)
  /-- INJECTION_ABORT (R301) -/
  | injectionAbort (w : Who) (g : Fin 8) (v : BitVec 32)
  /-- PERMIT_WRITE (R298) -/
  | permitWrite (w : Who) (v : BitVec 32)
  /-- CAPTURE_ENABLE (R304) -/
  | captureEnable (w : Who) (c : Fin 8) (v : BitVec 32)
  /-- CAPTURE_WRITE_COMPLETE (R305) -/
  | captureWriteComplete (c : Fin 8)
  /-- DRONE_CYCLE (R39) -/
  | droneCycle
  /-- LATCH_RECORD_WRITTEN (R65) -/
  | latchRecordWritten (rs : List Reply)
  /-- DRONE_CAPTURE_TICK (R41) -/
  | droneCaptureTick (d : Fin 16)
  /-- DRONE_MEASUREMENT (R47) -/
  | droneMeasurement (ix : Nat)
  /-- DRONE_MISS_TEST (R49) -/
  | droneMissTest (d : Fin 16)
  /-- HOLD_MAX_EXPIRY (R49) -/
  | holdMaxExpiry (d : Fin 16)
  /-- DRN_ENABLE (R49) -/
  | drnEnable (w : Who) (d : Fin 16) (v : BitVec 32)
  /-- REACQ (R49) -/
  | reacq (w : Who) (d : Fin 16) (v : BitVec 32)
  /-- PRESET_GO (R67) -/
  | presetGo (w : Who) (d : Fin 16) (v : BitVec 32)
  /-- DRN_CNT_CLR (R824) -/
  | drnCntClr (w : Who) (d : Fin 16) (v : BitVec 32)
  /-- ALT_ACTIVE_RETURN (R56) -/
  | altActiveReturn (w : Who) (d : Fin 16) (v : BitVec 32)
  /-- EV_PHASE_WRITE (R69) -/
  | evPhaseWrite (w : Who) (d e : Fin 16) (v : BitVec 32)
  /-- EV_CTRL_WRITE (R60) -/
  | evCtrlWrite (w : Who) (d e : Fin 16) (v : BitVec 32)
  /-- DRN_SNAP_READ (R74) -/
  | drnSnapRead (w : Who) (d : Fin 16)
  /-- LATCH_BANK_READ (R787) -/
  | latchBankRead (w : Who)
  /-- AXIS_START (R340) -/
  | axisStart (w : Who) (n : Fin 12) (v : BitVec 32)
  /-- AXIS_STOP (R340) -/
  | axisStop (w : Who) (n : Fin 12) (v : BitVec 32)
  /-- AXIS_CLEAR (R340) -/
  | axisClear (w : Who) (n : Fin 12) (v : BitVec 32)
  /-- PWM_EN (R319) -/
  | pwmEn (w : Who) (n : Fin 12) (v : BitVec 32)
  /-- AX_SYNC_GO (R319) -/
  | axSyncGo (w : Who) (v : BitVec 32)
  /-- RELOAD_POINT (R323) -/
  | reloadPoint (n : Fin 12)
  /-- SAMPLING_POINT (R324) -/
  | samplingPoint (n : Fin 12)
  /-- SIGMA_DELTA_WORD (R330) -/
  | sigmaDeltaWord (m : Fin 40) (l : List Bool)
  /-- DUTY_STAGE (R338) -/
  | dutyStage (n : Fin 12)
  /-- AX_CMP_WRITE (R325) -/
  | axCmpWrite (w : Who) (n : Fin 12) (x : Fin 3) (v : BitVec 32)
  /-- FAST_OVERCURRENT_TRIP (R332) -/
  | fastOvercurrentTrip (m : Fin 40) (l : List Bool)
  /-- ACTIVITY_FAULT (R331) -/
  | activityFault (m : Fin 40)
  /-- DENSITY_BLOCK_END (R331) -/
  | densityBlockEnd (m : Fin 40) (ones : Fin 1025)
  /-- ENCODER_EDGE (R333) -/
  | encoderEdge (n : Fin 12) (a b : Bool)
  /-- ENCODER_INDEX (R333) -/
  | encoderIndex (n : Fin 12)
  /-- ENC_CNT_WRITE (R333) -/
  | encCntWrite (w : Who) (n : Fin 12) (v : BitVec 32) (e : Option (Bool × Bool))
  /-- IDX_ARM (R333) -/
  | idxArm (w : Who) (n : Fin 12) (v : BitVec 32)
  /-- CATCH_TIMEOUT (R340) -/
  | catchTimeout (n : Fin 12)
  /-- PROBE_PULSE (R341) -/
  | probePulse (n : Fin 12)
  /-- PROBE_PULSE_END (R341) -/
  | probePulseEnd (n : Fin 12)
  /-- SUB_TIMEOUT (R344) -/
  | subTimeout (n : Fin 12)
  /-- BRAKE_DELAY_EXPIRY (R345) -/
  | brakeDelayExpiry (n : Fin 12)
  /-- CHOPPER_MIN_INTERVAL (R346) -/
  | chopperMinInterval (n : Fin 12)
  /-- ZERO_CROSS_EDGE (R360) -/
  | zeroCrossEdge (r : Fin 2) (rise : Bool)
  /-- REFERENCE_ENABLE (R362) -/
  | referenceEnable (w : Who) (r : Fin 2) (v : BitVec 32)
  /-- PC_ENABLE (R375) -/
  | pcEnable (w : Who) (n : Fin 8) (v : BitVec 32)
  /-- RESTART (R375) -/
  | restart (w : Who) (n : Fin 8) (v : BitVec 32)
  /-- PC_CLEAR (R375) -/
  | pcClear (w : Who) (n : Fin 8) (v : BitVec 32)
  /-- PULSE_END (R368) -/
  | pulseEnd (n : Fin 8)
  /-- CONDUCTION_WINDOW_END (R368) -/
  | conductionWindowEnd (n : Fin 8)
  /-- RETRIGGER (R368) -/
  | retrigger (n : Fin 8)
  /-- CURRENT_SIGN_CHANGE (R369) -/
  | currentSignChange (n : Fin 8) (ipos ineg : Bool)
  /-- ISGN_BAD_FAULT (R377) -/
  | isgnBadFault (n : Fin 8)
  /-- LL_ENABLE (R397) -/
  | llEnable (w : Who) (l : Fin 4) (v : BitVec 32)
  /-- START_IDLE_END (R397) -/
  | startIdleEnd (l : Fin 4)
  /-- READ_RESPONSE (R408) -/
  | readResponse (l : Fin 4) (words : List (Fin 65536)) (crc : Fin 256)
  /-- UPDATE_INSTANT (R400) -/
  | updateInstant (l : Fin 4)
  /-- REFRESH_COMPLETE (R401) -/
  | refreshComplete (l : Fin 4)
  /-- SCAN_SLOT_START (R410) -/
  | scanSlotStart (l : Fin 4)
  /-- SCAN_BLANK_END (R410) -/
  | scanBlankEnd (l : Fin 4)
  /-- LL_CNT_CLR (R787) -/
  | llCntClr (w : Who) (v : BitVec 32)
  /-- NOP (R423) -/
  | nop (e : Fin 32)
  /-- BR (R424) -/
  | br (e : Fin 32) (fio : BitVec 128)
  /-- LOOP (R424) -/
  | loop (e : Fin 32)
  /-- WAIT (R425) -/
  | wait (e : Fin 32) (fio : BitVec 128)
  /-- WAIT_END (R425) -/
  | waitEnd (e : Fin 32) (fio : BitVec 128)
  /-- WAIT_TIMEOUT (R425) -/
  | waitTimeout (e : Fin 32)
  /-- SHIN (R426) -/
  | shin (e : Fin 32) (fio : BitVec 128)
  /-- SHOUT (R426) -/
  | shout (e : Fin 32)
  /-- PUSH_RX (R429) -/
  | pushRx (e : Fin 32)
  /-- PUSH_DRONE (R430) -/
  | pushDrone (e : Fin 32)
  /-- PUSH_PCNT (R430) -/
  | pushPcnt (e : Fin 32)
  /-- PULL (R429) -/
  | pull (e : Fin 32)
  /-- FIFO_STALL_END (R429) -/
  | fifoStallEnd (e : Fin 32)
  /-- XFER (R427) -/
  | xfer (e : Fin 32)
  /-- LOAD (R428) -/
  | load (e : Fin 32)
  /-- PIN (R428) -/
  | pin (e : Fin 32)
  /-- TGT (R428) -/
  | tgt (e : Fin 32)
  /-- SIG_ERR (R428) -/
  | sigErr (e : Fin 32)
  /-- SIG_IRQ (R428) -/
  | sigIrq (e : Fin 32)
  /-- SIG_TOKEN (R439) -/
  | sigToken (e : Fin 32)
  /-- SIG_HALT (R428) -/
  | sigHalt (e : Fin 32)
  /-- SIG_CLRSTALE (R428) -/
  | sigClrstale (e : Fin 32)
  /-- SIG_CRCRST (R428) -/
  | sigCrcrst (e : Fin 32)
  /-- FETCH_ILLEGAL (R434) -/
  | fetchIllegal (e : Fin 32)
  /-- FETCH_PARITY_ERROR (R434) -/
  | fetchParityError (e : Fin 32)
  /-- FE_EN (R434) -/
  | feEn (w : Who) (e : Fin 32) (v : BitVec 32)
  /-- FE_HALT (R434) -/
  | feHalt (w : Who) (e : Fin 32) (v : BitVec 32)
  /-- FE_STEP (R434) -/
  | feStep (w : Who) (e : Fin 32) (v : BitVec 32) (fio : BitVec 128)
  /-- FIFE_GO (R435) -/
  | fifeGo (w : Who) (v : BitVec 32)
  /-- FIFE_CLKRST (R435) -/
  | fifeClkrst (w : Who) (v : BitVec 32)
  /-- FE_INJ (R436) -/
  | feInj (w : Who) (e : Fin 32) (v : BitVec 32) (fio : BitVec 128)
  /-- FE_TX (R438) -/
  | feTx (w : Who) (e : Fin 32) (v : BitVec 32)
  /-- FE_RX_READ (R438) -/
  | feRxRead (w : Who) (e : Fin 32)
  /-- INSTRUCTION_MEMORY_WRITE (R437) -/
  | instructionMemoryWrite (w : Who) (e : Fin 32) (ix : Fin 32) (v : BitVec 32)
  /-- FIFE_NOW_READ (R448) -/
  | fifeNowRead (w : Who)
  /-- FRAME (R452) -/
  | frame (c : Fin 16) (rs : List Reply)
  /-- DECOMP (R474) -/
  | decomp (c : Fin 16) (rs : List Reply)
  /-- RAS_GROW (R460) -/
  | rasGrow (w : Who) (v : BitVec 32) (rs : List Reply)
  /-- GROW_TIMEOUT (R460) -/
  | growTimeout (rs : List Reply)
  /-- SHADE_RETURN (R469) -/
  | shadeReturn (rs : List Reply)
  /-- SHADE_TIMEOUT (R470) -/
  | shadeTimeout (rs : List Reply)
  /-- RAS_CNT_CLR (R484) -/
  | rasCntClr (w : Who) (v : BitVec 32)
  /-- OP_TGT_WRITE (R501) -/
  | opTgtWrite (w : Who) (v : BitVec 32)
  /-- SUPPLY_SETTLED (R501) -/
  | supplySettled
  /-- TILE_PLL_LOCK (R502) -/
  | tilePllLock
  /-- RELOCK_SWITCH_BACK (R502) -/
  | relockSwitchBack
  /-- TILE_LOCK_TIMEOUT (R511) -/
  | tileLockTimeout
  /-- BEL_PWR_DN (R505) -/
  | belPwrDn (w : Who) (ix : Fin 2) (v : BitVec 32)
  /-- RAS_DN (R505) -/
  | rasDn (w : Who) (dn : Bool)
  /-- POWER_RETURN (R506) -/
  | powerReturn (t : Option (Fin 64))
  /-- MOTION_ONLY (R507) -/
  | motionOnly (w : Who) (v : BitVec 32)
  /-- BELLOWS_VOK_FALL (R515) -/
  | bellowsVokFall
  /-- PLL_LOCK_LOSS (R499) -/
  | pllLockLoss (pll : Fin 4)
  /-- PCIE_RESET (R518) -/
  | pcieReset
  /-- FLR (R547) -/
  | flr (n : Fin 32)
  /-- D3HOT_ENTRY (R519) -/
  | d3hotEntry (n : Fin 32)
  /-- D0_RETURN (R519) -/
  | d0Return (n : Fin 32)
  /-- SQ_TAIL_DB (R527) -/
  | sqTailDb (w : Who) (n : Fin 32) (q : Fin 8) (v : BitVec 32)
  /-- CQ_HEAD_DB (R528) -/
  | cqHeadDb (w : Who) (n : Fin 32) (c : Fin 8) (v : BitVec 32)
  /-- SQ_ENABLE (R525) -/
  | sqEnable (w : Who) (n : Fin 32) (q : Fin 8) (v : BitVec 32)
  /-- SQ_STOP (R525) -/
  | sqStop (w : Who) (n : Fin 32) (q : Fin 8) (v : BitVec 32)
  /-- SQ_RESUME (R525) -/
  | sqResume (w : Who) (n : Fin 32) (q : Fin 8) (v : BitVec 32)
  /-- CQ_ENABLE (R539) -/
  | cqEnable (w : Who) (n : Fin 32) (c : Fin 8) (v : BitVec 32)
  /-- DESCRIPTOR_FETCH (R526) -/
  | descriptorFetch (n : Fin 32) (q : Fin 8) (k : Nat) (rs : List Reply)
  /-- DESCRIPTOR_NOP (R531) -/
  | descriptorNop (n : Fin 32) (q : Fin 8)
  /-- DESCRIPTOR_COPY (R531) -/
  | descriptorCopy (n : Fin 32) (q : Fin 8) (rs : List Reply)
  /-- DESCRIPTOR_FILL (R531) -/
  | descriptorFill (n : Fin 32) (q : Fin 8) (rs : List Reply)
  /-- DESCRIPTOR_POST (R536) -/
  | descriptorPost (n : Fin 32) (q : Fin 8)
  /-- DESCRIPTOR_WAIT (R537) -/
  | descriptorWait (n : Fin 32) (q : Fin 8) (rs : List Reply)
  /-- WAIT_POLL (R537) -/
  | waitPoll (n : Fin 32) (q : Fin 8) (rs : List Reply)
  /-- DESCRIPTOR_WAIT_TIMEOUT (R537) -/
  | descriptorWaitTimeout (n : Fin 32) (q : Fin 8)
  /-- DESCRIPTOR_SIGNAL (R531) -/
  | descriptorSignal (n : Fin 32) (q : Fin 8) (rs : List Reply)
  /-- REGWR (R531) -/
  | regwr (n : Fin 32) (q : Fin 8) (rs : List Reply)
  /-- REGRD (R531) -/
  | regrd (n : Fin 32) (q : Fin 8) (rs : List Reply)
  /-- TSTAMP (R531) -/
  | tstamp (n : Fin 32) (q : Fin 8)
  /-- DESCRIPTOR_COMPLETE (R538) -/
  | descriptorComplete (n : Fin 32) (q : Fin 8) (slot : Fin 65536)
  /-- CQ_TIMER_EXPIRY (R544) -/
  | cqTimerExpiry (n : Fin 32) (c : Fin 8)
  /-- WL_ENABLE (R555) -/
  | wlEnable (n : Fin 8) (w : Who) (v : BitVec 32)
  /-- TRAINING_COMPLETE (R555) -/
  | trainingComplete (n : Fin 8) (width : Fin 3) (gen2 : Bool) (f : WwFrame) (rs : List Reply)
  /-- TRAINING_TIMEOUT (R555) -/
  | trainingTimeout (p : Fin 12)
  /-- FRAME_RECEIVE (R558) -/
  | frameReceive (n : Fin 8) (f : Option WwFrame) (rs : List Reply)
  /-- REPLAY_TIMEOUT (R558) -/
  | replayTimeout (n : Fin 8)
  /-- LINK_LOSS (R560) -/
  | linkLoss (p : Fin 12) (lock : Bool)
  /-- WR (R570) -/
  | wr (p : Fin 12) (m : WwMsg) (rs : List Reply)
  /-- RD (R570) -/
  | rd (p : Fin 12) (m : WwMsg) (rs : List Reply)
  /-- RDRSP (R571) -/
  | rdrsp (p : Fin 12) (m : WwMsg)
  /-- WRACK (R570) -/
  | wrack (p : Fin 12) (m : WwMsg)
  /-- TOK (R572) -/
  | tok (p : Fin 12) (m : WwMsg)
  /-- TOKACK (R572) -/
  | tokack (p : Fin 12) (m : WwMsg)
  /-- SYNC_MESSAGE (R577) -/
  | syncMessage (p : Fin 12) (m : WwMsg)
  /-- JOIN_INFO (R581) -/
  | joinInfo (p : Fin 12) (m : WwMsg)
  /-- TIME_REQ (R574) -/
  | timeReq (p : Fin 12) (m : WwMsg)
  /-- TIME_RSP (R574) -/
  | timeRsp (p : Fin 12) (m : WwMsg)
  /-- LEADER (R583) -/
  | leader (p : Fin 12) (m : WwMsg)
  /-- LOSS_NOTICE (R568) -/
  | lossNotice (p : Fin 12) (m : WwMsg)
  /-- SAFE_NOTICE (R585) -/
  | safeNotice (p : Fin 12) (m : WwMsg)
  /-- GFAULT (R586) -/
  | gfault (p : Fin 12) (m : WwMsg)
  /-- ADMIT_NOTICE (R730) -/
  | admitNotice (p : Fin 12) (m : WwMsg)
  /-- FWMSG (R562) -/
  | fwmsg (p : Fin 12) (m : WwMsg)
  /-- FWMSG_READ (R562) -/
  | fwmsgRead (w : Who)
  /-- LSSIG (R652) -/
  | lssig (p : Fin 12) (m : WwMsg)
  /-- LSROWS (R653) -/
  | lsrows (p : Fin 12) (m : WwMsg)
  /-- REMOTE_REQUEST_TIMEOUT (R571) -/
  | remoteRequestTimeout (tag : Fin 2048)
  /-- TIME_EXCHANGE_TIMER (R574) -/
  | timeExchangeTimer (p : Fin 12)
  /-- SYNC_SEND (R576) -/
  | syncSend (n : Fin 8)
  /-- LEADER_BROADCAST (R583) -/
  | leaderBroadcast
  /-- LEADER_TIMEOUT (R584) -/
  | leaderTimeout
  /-- GF_CLEAR (R586) -/
  | gfClear (w : Who) (v : BitVec 32)
  /-- NR_CLEAR (R582) -/
  | nrClear (w : Who) (v : BitVec 32)
  /-- ROUTE_TABLE_WRITE (R593) -/
  | routeTableWrite (ix : Fin 8192) (w : Who) (v : BitVec 32)
  /-- TUNNEL_ENABLE (R578) -/
  | tunnelEnable (k : Fin 4) (w : Who) (v : BitVec 32)
  /-- TUNNEL_FRAME_RECEIVE (R580) -/
  | tunnelFrameReceive (k : Fin 4) (f : WwFrame) (rs : List Reply)
  /-- KEEPALIVE (R580) -/
  | keepalive (k : Fin 4)
  /-- TUNNEL_RETRANSMIT (R580) -/
  | tunnelRetransmit (k : Fin 4)
  /-- SWEEP_GO (R587) -/
  | sweepGo (w : Who) (v : BitVec 32)
  /-- SWEEP_START (R587) -/
  | sweepStart (p : Fin 12) (m : WwMsg)
  /-- SWEEP_REFUSAL (R587) -/
  | sweepRefusal (p : Fin 12) (m : WwMsg)
  /-- SWEEP_S0 (R587) -/
  | sweepS0
  /-- SWEEP_SYNC_SEND (R588) -/
  | sweepSyncSend (p : Fin 12)
  /-- SWEEP_SYNC (R589) -/
  | sweepSync (p : Fin 12) (m : WwMsg)
  /-- SWEEP_ACK_SEND (R588) -/
  | sweepAckSend
  /-- SWEEP_ACK (R588) -/
  | sweepAck (p : Fin 12) (m : WwMsg)
  /-- SWEEP_CUT (R589) -/
  | sweepCut
  /-- SWEEP_ACK_MISSING (R590) -/
  | sweepAckMissing (m : Fin 16)
  /-- SWEEP_STOP (R590) -/
  | sweepStop (p : Fin 12) (m : WwMsg)
  /-- SWEEP_END (R591) -/
  | sweepEnd (p : Fin 12) (m : WwMsg)
  /-- SWEEP_ABORT (R591) -/
  | sweepAbort (w : Who) (v : BitVec 32)
  /-- FR_TAIL_WRITE (R602) -/
  | frTailWrite (r : RingId) (w : Who) (v : BitVec 32)
  /-- FIELD_ENTRY_DONE (R604) -/
  | fieldEntryDone (r : RingId) (rs : List Reply)
  /-- ETH_FRAME_RECEIVE (R607) -/
  | ethFrameReceive (p : Fin 4) (speed : Fin 4) (f : List Byte) (fcsOk : Bool) (rs : List Reply)
  /-- ETH_FRAME_TRANSMIT (R608) -/
  | ethFrameTransmit (p : Fin 4) (speed : Fin 4) (rs : List Reply)
  /-- GATE_ENTRY_END (R612) -/
  | gateEntryEnd (p : Fin 4)
  /-- QBV_CHANGE (R790) -/
  | qbvChange (p : Fin 4) (w : Who) (v : BitVec 32)
  /-- ADMIN_LIST_ACTIVATION (R612) -/
  | adminListActivation (p : Fin 4)
  /-- RATE_ADJ_WRITE (R609) -/
  | rateAdjWrite (w : Who) (v : BitVec 32)
  /-- TIME_STEP (R609) -/
  | timeStep (w : Who) (v : BitVec 32)
  /-- CAN_TXREQ (R616) -/
  | canTxreq (c : Fin 4) (w : Who) (v : BitVec 32)
  /-- CAN_TRANSMIT_DONE (R616) -/
  | canTransmitDone (c : Fin 4)
  /-- CAN_FRAME_RECEIVE (R617) -/
  | canFrameReceive (c : Fin 4) (ts : BitVec 48) (f : CanFrame) (rs : List Reply)
  /-- CAN_BUS_OFF (R618) -/
  | canBusOff (c : Fin 4)
  /-- CAN_RECOVER (R618) -/
  | canRecover (c : Fin 4) (w : Who) (v : BitVec 32)
  /-- BUS_OFF_RECOVERY (R618) -/
  | busOffRecovery (c : Fin 4)
  /-- CSI_FRAME_START (R621) -/
  | csiFrameStart (r : Fin 2) (hdr : Fin 3) (vc : Fin 4) (num : BitVec 16) (rs : List Reply)
  /-- CSI_LINE (R624) -/
  | csiLine (r : Fin 2) (hdr : Fin 3) (vc : Fin 4) (dt : Fin 64) (vals : List Nat) (crcOk : Bool) (rs : List Reply)
  /-- CSI_BAND_COMPLETE (R622) -/
  | csiBandComplete (r x : Fin 2)
  /-- CSI_FRAME_END (R622) -/
  | csiFrameEnd (r : Fin 2) (hdr : Fin 3) (vc : Fin 4) (rs : List Reply)
  /-- CSI_FRAME_TIMEOUT (R629) -/
  | csiFrameTimeout (r x : Fin 2) (rs : List Reply)
  /-- CS_BUF_RET (R621) -/
  | csBufRet (r x : Fin 2) (w : Who) (v : BitVec 32)
  /-- SPI_TX (R626) -/
  | spiTx (k : Fin 6) (w : Who) (v : BitVec 32)
  /-- I2C_CMD (R788) -/
  | i2cCmd (k : Fin 4) (w : Who) (v : BitVec 32)
  /-- UART_TX (R626) -/
  | uartTx (k : Fin 4) (w : Who) (v : BitVec 32)
  /-- XSPI_CMD (R788) -/
  | xspiCmd (w : Who) (v : BitVec 32)
  /-- SERIAL_TRANSFER_DONE (R626) -/
  | serialTransferDone (e : SerialEvent)
  /-- SERIAL_RX_READ (R626) -/
  | serialRxRead (r : SerialRx) (w : Who)
  /-- XSPI_WDATA_READ (R788) -/
  | xspiWdataRead (w : Who) (rs : List Reply)
  /-- REPRO_WRITE (R633) -/
  | reproWrite (w : Who) (v : BitVec 32)
  /-- RP_STEP_WRITE (R645) -/
  | rpStepWrite (w : Who) (v : BitVec 32)
  /-- RP_STEP_ADV (R645) -/
  | rpStepAdv (w : Who) (v : BitVec 32)
  /-- GENERATOR_DRAW (R646) -/
  | generatorDraw (w : Who) (v : BitVec 32)
  /-- GENERATOR_DRAW_DONE (R646) -/
  | generatorDrawDone
  /-- LS_ENABLE (R649) -/
  | lsEnable (w : Who) (v : BitVec 32)
  /-- STEP_CLOSE (R651) -/
  | stepClose (t : Fin 64) (step : Fin (2 ^ 64))
  /-- LS_TIMEOUT (R654) -/
  | lsTimeout (t : Fin 64) (step : Fin (2 ^ 64))
  /-- FAULT_ASSERTION (R666) -/
  | faultAssertion (src : Fin 128) (detail : Fin 256)
  /-- SF_ENTER (R669) -/
  | sfEnter (w : Who) (v : BitVec 32)
  /-- SF_EXIT (R673) -/
  | sfExit (w : Who) (v : BitVec 32)
  /-- SF_SWFAULT (R667) -/
  | sfSwfault (w : Who) (v : BitVec 32)
  /-- WATCHDOG_KICK (R668) -/
  | watchdogKick (w : Who) (v : BitVec 32)
  /-- WATCHDOG_EXPIRY (R668) -/
  | watchdogExpiry
  /-- CLOCK_MONITOR_WINDOW (R676) -/
  | clockMonitorWindow (n : Fin 4096)
  /-- STO_READBACK_MISMATCH (R679) -/
  | stoReadbackMismatch (pin : Fin 2) (level : Bool)
  /-- STO_TEST_PULSE (R679) -/
  | stoTestPulse (pin : Fin 2) (low : Bool)
  /-- SAFE_IN_LOW (R680) -/
  | safeInLow (high : Bool) (n : Nat)
  /-- SAFETY_FRAME_PERIOD (R686) -/
  | safetyFramePeriod (c : Fin 8)
  /-- SAFETY_PDU_RECEIVE (R687) -/
  | safetyPduReceive (c : Fin 8) (pdu : List Byte)
  /-- SAFETY_RX_TIMEOUT (R687) -/
  | safetyRxTimeout (c : Fin 8)
  /-- FIREWALL_WRITE (R695) -/
  | firewallWrite (w : Who) (v : BitVec 32)
  /-- FIREWALL_READ (R695) -/
  | firewallRead (w : Who) (v : BitVec 32)
  /-- FIREWALL_ARM (R695) -/
  | firewallArm (w : Who) (v : BitVec 32)
  /-- FIREWALL_LOCK (R695) -/
  | firewallLock (w : Who) (v : BitVec 32)
  /-- FIREWALL_PARITY_SWEEP (R697) -/
  | firewallParitySweep (bad : Bool)
  /-- DRAIN (R718) -/
  | drain (w : Who) (v : BitVec 32)
  /-- DRAIN_RETRY_WINDOW_END (R719) -/
  | drainRetryWindowEnd (u : Fin 128)
  /-- DRAIN_COMPLETE (R718) -/
  | drainComplete (u : Fin 128)
  /-- DRAIN_TIMEOUT (R722) -/
  | drainTimeout (u : Fin 128)
  /-- BIST (R725) -/
  | bist (w : Who) (v : BitVec 32)
  /-- BIST_COMPLETE (R725) -/
  | bistComplete (u : Fin 128) (ok : Bool)
  /-- ADMIT (R729) -/
  | admitUnit (w : Who) (v : BitVec 32)
  /-- ADMITTING_END (R729) -/
  | admittingEnd (u : Fin 128)
  /-- PWM_COMPARE_EDGE (R320) -/
  | pwmCompareEdge (n : Fin 12) (x : Fin 3)
  /-- CAPTURING_READ (R779) -/
  | capturingRead (w : Who) (a : BitVec 24) (rs : List Reply)
  /-- PORT_TIMEOUT (R239) -/
  | portTimeout (core : Fin 4) (isPure : Bool)
  /-- COMPLETION_TIMEOUT (R523) -/
  | completionTimeout (w : Who) (a : BitVec 48) (n : Nat)
  /-- CONFIGURATION_REQUEST (R762) -/
  | configurationRequest (fn : Fin 32)
  /-- JTAG_REQUEST (R772) -/
  | jtagRequest (r : JtagReq)
  /-- STO_TEST_PULSE_END (R679) -/
  | stoTestPulseEnd (pin : Fin 2) (high : Bool)
  deriving DecidableEq, Repr

end Sys2Proof
end

