-- ==== Sys2Proof/Decode.lean ====
section
/-! DEFINITION. Commands from words. The part is a block without an instruction decoder: the rows of its command table give
no bits, so no word spells a command. -/

namespace Sys2Proof

/-- The command that a word spells: no row of the command table gives bits, so none. -/
def decodeTableWord (_nbits _w : Nat) : Option Instr := none

end Sys2Proof
end

