-- ==== Sys2Proof/Machine/Bits.lean ====
section
/-! DEFINITION. Bit fields, two's complement, saturation, rounding and byte order: the notation of
R15 (spec/00_scope.md), on naturals and integers. Every value a field or register holds is a natural
below 2^width; signed readings go through `sx` and back through `ux`. -/

namespace Sys2Proof.Machine

/-- Bits [lo + w − 1 : lo] of a natural. -/
def bits (x lo w : Nat) : Nat := (x >>> lo) % 2 ^ w

/-- Bit b of a natural. -/
def bit (x b : Nat) : Bool := x.testBit b

/-- A flag as the value of its one-bit field. -/
def b2n (b : Bool) : Nat := if b then 1 else 0

/-- The two's complement reading of the low w bits. -/
def sx (w x : Nat) : Int :=
  if 2 ^ w ≤ 2 * (x % 2 ^ w) then ((x % 2 ^ w : Nat) : Int) - ((2 ^ w : Nat) : Int) else ((x % 2 ^ w : Nat) : Int)

/-- An integer as w bits of two's complement, wrapping. -/
def ux (w : Nat) (i : Int) : Nat := (i % ((2 ^ w : Nat) : Int)).toNat

/-- Clamp to a range. -/
def clampI (lo hi i : Int) : Int := if i < lo then lo else if hi < i then hi else i

/-- Saturate to a signed width. -/
def satS (w : Nat) (i : Int) : Int := clampI (-((2 ^ (w - 1) : Nat) : Int)) (((2 ^ (w - 1) : Nat) : Int) - 1) i

/-- Saturating sum of an unsigned counter of w bits (counters saturate, R95, R149 and others). -/
def satAdd (w a b : Nat) : Nat := min (a + b) (2 ^ w - 1)

/-- Floor of i / 2^n, the arithmetic right shift. -/
def asr (i : Int) (n : Nat) : Int := i / ((2 ^ n : Nat) : Int)

/-- i × 2^n rounded to the nearest, ties to even, for a right shift of n. -/
def rneShift (i : Int) (n : Nat) : Int :=
  if n = 0 then i else
    let q := asr i n
    let r := i - q * ((2 ^ n : Nat) : Int)
    let h := ((2 ^ (n - 1) : Nat) : Int)
    if r < h then q else if h < r then q + 1 else if q % 2 = 0 then q else q + 1

/-- Quotient of integers rounded to nearest, ties to even, for a positive divisor. -/
def rneDiv (i d : Int) : Int :=
  let q := i / d
  let r := i - q * d
  if 2 * r < d then q else if d < 2 * r then q + 1 else if q % 2 = 0 then q else q + 1

/-- Quotient of integers truncated toward zero. -/
def truncDiv (i d : Int) : Int := if i < 0 then -((-i) / d) else i / d

/-- Bytes of a natural, lowest first (R15: memory is little-endian). -/
def leBytes : Nat → Nat → List Byte
  | 0, _ => []
  | n + 1, x => BitVec.ofNat 8 x :: leBytes n (x / 256)

/-- The natural a little-endian byte list spells. -/
def leNat : List Byte → Nat
  | [] => 0
  | b :: bs => b.toNat + 256 * leNat bs

/-- Field of a byte string: n bytes at offset o. -/
def pb (l : List Byte) (o n : Nat) : Nat := leNat ((l.drop o).take n)

/-- Signed field of a byte string. -/
def pbS (l : List Byte) (o n : Nat) : Int := sx (8 * n) (pb l o n)

/-- Bytes of a natural, highest first (wire formats that keep their standard's order). -/
def beBytes (n x : Nat) : List Byte := (leBytes n x).reverse

/-- The natural a big-endian byte list spells. -/
def beNat (l : List Byte) : Nat := leNat l.reverse

/-- Replace bits [lo + w − 1 : lo] of x by v. -/
def setBits (x lo w v : Nat) : Nat :=
  x - bits x lo w * 2 ^ lo + (v % 2 ^ w) * 2 ^ lo

/-- Replace the element at place i of a list. -/
def modAt {α : Type} (l : List α) (i : Nat) (f : α → α) : List α :=
  match l, i with
  | [], _ => []
  | a :: as, 0 => f a :: as
  | a :: as, n + 1 => a :: modAt as n f

/-- Number of bits set among the low n bits. -/
def popcount : Nat → Nat → Nat
  | 0, _ => 0
  | n + 1, x => x % 2 + popcount n (x / 2)

/-- Lowest set bit number below n, if any. -/
def lowestBit (n x : Nat) : Option Nat := (List.range n).find? fun b => x.testBit b

/-! ### Sparse tables: association lists in one canonical form -/

/-- The value a sparse table holds at key k (d where it lists none). -/
def tget {α : Type} (d : α) : List (Nat × α) → Nat → α
  | [], _ => d
  | (j, v) :: t, k => if j = k then v else tget d t k

/-- Put an entry before the first one with a higher key. -/
def tput {α : Type} (k : Nat) (v : α) : List (Nat × α) → List (Nat × α)
  | [] => [(k, v)]
  | (j, w) :: t => if k < j then (k, v) :: (j, w) :: t else (j, w) :: tput k v t

/-- The table without key k. -/
def terase {α : Type} (k : Nat) : List (Nat × α) → List (Nat × α)
  | [] => []
  | (j, w) :: t => if j = k then terase k t else (j, w) :: terase k t

/-- Put v at key k of a table whose keys rise; nothing is listed that equals the default d. -/
def tset {α : Type} [DecidableEq α] (d : α) (l : List (Nat × α)) (k : Nat) (v : α) : List (Nat × α) :=
  if v = d then terase k l else tput k v (terase k l)

/-- The keys of a sparse table rise strictly. -/
def tsorted {α : Type} : List (Nat × α) → Bool
  | [] => true
  | [_] => true
  | (a, _) :: (b, v) :: t => decide (a < b) && tsorted ((b, v) :: t)

/-- Keep the entries whose key is in a range or not. -/
def tdrop {α : Type} (t : List (Nat × α)) (lo n : Nat) : List (Nat × α) :=
  t.filter fun p => p.1 < lo || lo + n ≤ p.1

end Sys2Proof.Machine
end

