-- ==== Sys2Proof/Machine/ChanterMath.lean ====
section
/-! DEFINITION. The arithmetic of one slot evaluation in both modes (spec/08_chanter_law.md R262 to
R269), of the repetitive controller (spec/09_chanter_loops.md R294), of the non-integral sum and the
tracked value (R287, R290), and of the injected waveforms (R300). -/

namespace Sys2Proof.Machine

/-- Field of a record: n bytes at offset o, as a natural. -/
def fb (l : List Byte) (o n : Nat) : Nat := leNat ((l.drop o).take n)

/-- Saturate an integer to a width, and whether that changed it. -/
def satF (w : Nat) (i : Int) : Int × Bool := (satS w i, satS w i != i)

/-- rnd15 of R263. -/
def rnd15 (a : Int) : Int := asr (a + 16384) 15

/-- The signal a 32-bit word is: Q1.15 from [31:16] in F16, the whole word in X32 (R258, R260). -/
def sigOf (x32 : Bool) (w : Nat) : Int := if x32 then sx 32 w else sx 16 (w / 2 ^ 16)

/-- The 32-bit word a signal is held as. -/
def wordOf (x32 : Bool) (i : Int) : Nat := if x32 then ux 32 i else ux 16 i * 2 ^ 16

/-- Signal width of a mode. -/
def sigW (x32 : Bool) : Nat := if x32 then 32 else 16

/-! ### Fields of a slot record (R258) -/

def rcCfg (l : List Byte) : Nat := fb l 0 4
def rcX32 (l : List Byte) : Bool := bit (rcCfg l) 0
def rcDual (l : List Byte) : Bool := bit (rcCfg l) 1
def rcAw (l : List Byte) : Nat := bits (rcCfg l) 2 2
def rcDSrc (l : List Byte) : Bool := bit (rcCfg l) 4
def rcEn (l : List Byte) : Bool := bit (rcCfg l) 5
def rcNotches (l : List Byte) : Nat := bits (rcCfg l) 6 2
/-- DIV. -/
def rcDiv (l : List Byte) : Nat := bits (rcCfg l) 8 8 + 1
def rcLane (l : List Byte) : Nat := bits (rcCfg l) 16 1
def rcWrap (l : List Byte) : Bool := bit (rcCfg l) 17
/-- Input selector k: 0 IN_R, 1 IN_Y, 2 IN_FF. -/
def rcSel (l : List Byte) (k : Nat) : Nat := fb l (4 + 4 * k) 4
/-- A signal word at an offset of the record. -/
def rcSig (l : List Byte) (o : Nat) : Int := sigOf (rcX32 l) (fb l o 4)
/-- Coefficient word C[j] as a signal value. -/
def rcC (l : List Byte) (j : Nat) : Int := rcSig l (32 + 4 * j)
/-- Shift S[j]. -/
def rcS (l : List Byte) (j : Nat) : Nat := bits (fb l (128 + j) 1) 0 6
/-- ROLE: 0 none, 1 MEMBER, 2 RESOLVER (R285). -/
def rcRole (l : List Byte) : Nat := bits (fb l 288 1) 0 2
/-- SENSE −1. -/
def rcSense (l : List Byte) : Bool := bit (fb l 288 1) 2
def rcTrack (l : List Byte) : Bool := bit (fb l 288 1) 3
/-- The members a resolver names: number and slot. -/
def rcMembers (l : List Byte) : List (Nat × Nat) :=
  (List.range 8).filterMap fun m => if bit (fb l (290 + m) 1) 7 then some (m, bits (fb l (290 + m) 1) 0 7) else none
/-- Cells of the repetitive controller: first cell, count (R292). -/
def rcBase (l : List Byte) : Nat := bits (fb l 224 4) 0 18
def rcN (l : List Byte) : Nat := bits (fb l 228 2) 0 12 + 1
def rcDrone (l : List Byte) : Nat := bits (fb l 230 1) 0 4
def rcLearn (l : List Byte) : Bool := bit (fb l 230 1) 4
def rcHoldLim (l : List Byte) : Bool := bit (fb l 230 1) 5
/-- The integrator as the part reads it (R263, R264). -/
def rcI (l : List Byte) : Int := if rcX32 l then sx 64 (fb l 160 8) else sx 40 (fb l 160 8)

/-- SLOT_CFG and the selectors' form are valid (R258, R260, R285): AW, N_NOTCH, ROLE, reserved bits. -/
def selOk (x : Nat) : Bool :=
  let i := bits x 4 12
  bits x 16 16 == 0 &&
    match bits x 0 4 with
    | 0 => i == 0
    | 1 => i < 128
    | 2 => i < 192
    | 3 => i < 384
    | 4 => i < 64
    | 5 => i < 256
    | 6 => i < 16
    | _ => false

def cfgOk (l : List Byte) : Bool :=
  rcAw l != 3 && rcNotches l != 3 && bits (rcCfg l) 18 14 == 0 && rcRole l != 3 &&
    selOk (rcSel l 0) && selOk (rcSel l 1) && selOk (rcSel l 2)

/-! ### Clamps -/

/-- clamp of R262: min(max(a, lo), hi). -/
def clampR (a lo hi : Int) : Int := min (max a lo) hi

/-- Integrator limits in units of I (R263, R264). -/
def limI (l : List Byte) : Int × Int :=
  let k : Int := if rcX32 l then 1 else 32768
  (rcSig l 24 * k, rcSig l 28 * k)

/-- mul_j(x): exact in F16, shifted and rounded in X32 (R263, R264). -/
def mulC (l : List Byte) (j : Nat) (x : Int) : Int :=
  let p := x * rcC l j
  if rcX32 l then (if rcS l j = 0 then p else asr (p + ((2 ^ (rcS l j - 1) : Nat) : Int)) (rcS l j)) else p

/-- An addition in the accumulator: sat64 in X32, exact in F16. -/
def accAdd (x32 : Bool) (a b : Int) : Int × Bool := if x32 then satF 64 (a + b) else (a + b, false)

/-- A sum in order, with sat64 after each addition in X32. -/
def accSum (x32 : Bool) : List Int → Int × Bool → Int × Bool
  | [], a => a
  | x :: t, a => let r := accAdd x32 a.1 x; accSum x32 t (r.1, a.2 || r.2)

/-- A difference reduced to the signal width: saturated, or wrapped under E_WRAP. -/
def diffR (l : List Byte) (i : Int) : Int × Bool :=
  let w := sigW (rcX32 l)
  if rcWrap l then (sx w (ux w i), false) else satF w i

/-- One notch: coefficients from C[base], states x1, x2, y1, y2 at an offset; output, whether it
saturated, new states (R265). -/
def notch (l : List Byte) (base ofs : Nat) (x0 : Int) : Int × Bool × List Int :=
  let x1 := rcSig l ofs
  let x2 := rcSig l (ofs + 4)
  let y1 := rcSig l (ofs + 8)
  let y2 := rcSig l (ofs + 12)
  let m (j : Nat) (x : Int) := mulC l (base + j) x
  let y : Int × Bool :=
    if rcX32 l then
      let a := accSum true [m 1 x1, m 2 x2, -(m 3 y1), -(m 4 y2)] (m 0 x0, false)
      let b := satF 32 a.1
      (b.1, a.2 || b.2)
    else satF 16 (asr (m 0 x0 + m 1 x1 + m 2 x2 - m 3 y1 - m 4 y2 + 8192) 14)
  (y.1, y.2, [x0, x1, y.1, y1])

/-- The results of an evaluation (R262, R268): the new state words of bytes 160 to 215, the signals a
capture record shows (R303), the flags LIMIT_HI, LIMIT_LO, I_LIM, SAT, the non-integral sum. -/
structure EvalOut where
  i : Int
  dOut : Int
  xPrev : Int
  n1 : List Int
  n2 : List Int
  e : Int
  v0 : Int
  v : Int
  u : Int
  flags : Nat
  nTerm : Int
  deriving DecidableEq, Repr

/-- Add the injected words of a point in injector order, with saturation after each (R299). -/
def inject (x32 : Bool) (point : Nat) : List (Nat × Nat) → Int × Bool → Int × Bool
  | [], a => a
  | (p, d) :: t, a =>
    if p = point then
      let r := satF (sigW x32) (a.1 + sigOf x32 d)
      inject x32 point t (r.1, a.2 || r.2)
    else inject x32 point t a

/-- The update of the integrator before its clamp (R263, R264, R267): value, whether it saturated. -/
def integ (l : List Byte) (prevFl : Nat) (e : Int) : Int × Bool :=
  let x32 := rcX32 l
  let ki := mulC l 1 e
  if rcAw l = 1 ∧ ((bit prevFl 0 ∧ 0 < ki) ∨ (bit prevFl 1 ∧ ki < 0)) then (rcI l, false)
  else
    let a := accAdd x32 (rcI l) ki
    if rcAw l = 2 then
      let w := satF (sigW x32) (rcSig l 212 - rcSig l 208)
      let b := accAdd x32 a.1 (mulC l 5 w.1)
      (b.1, a.2 || w.2 || b.2)
    else a

/-- One evaluation from the latched record, inputs and injected words (R262 to R267, R299). `prevFl` are
the flags of the previous evaluation; `rc` the word of the repetitive controller's cell; `iLim` that a
tracked value was clamped (R290). -/
def evaluate (l : List Byte) (prevFl : Nat) (iLim : Bool) (r y ff rc : Nat) (inj : List (Nat × Nat)) : EvalOut :=
  let x32 := rcX32 l
  let rr := inject x32 0 inj (sigOf x32 r, false)
  let yy := inject x32 1 inj (sigOf x32 y, false)
  let fw := inject x32 2 inj (sigOf x32 ff, false)
  let e := diffR l (rr.1 - yy.1)
  let p := mulC l 0 e.1
  let ii := integ l prevFl e.1
  let lim := limI l
  let i1 := clampR ii.1 lim.1 lim.2
  let x := if rcDSrc l then diffR l (-yy.1) else (e.1, false)
  let dl := diffR l (x.1 - rcSig l 172)
  let da := accAdd x32 (mulC l 3 (rcSig l 168)) (mulC l 2 dl.1)
  let dOut := if x32 then satF 32 da.1 else satF 16 (rnd15 da.1)
  let ffT := mulC l 4 fw.1
  let rcT := if rcEn l then mulC l 6 (sigOf x32 rc) else 0
  let dT := if x32 then dOut.1 else dOut.1 * 32768
  let sm := accSum x32 [i1, dT, ffT, rcT] (p, false)
  let nn := accSum x32 [dT, ffT, rcT] (p, false)
  let v0 := if x32 then satF 32 sm.1 else satF 16 (rnd15 sm.1)
  let a1 : Int × Bool × List Int := if 1 ≤ rcNotches l then notch l 7 176 v0.1 else (v0.1, false, (List.range 4).map fun k => rcSig l (176 + 4 * k))
  let a2 : Int × Bool × List Int := if 2 ≤ rcNotches l then notch l 12 192 a1.1 else (a1.1, false, (List.range 4).map fun k => rcSig l (192 + 4 * k))
  let v := inject x32 3 inj (a2.1, false)
  let lo := rcSig l 16
  let hi := rcSig l 20
  let u := clampR v.1 lo hi
  let sat := rr.2 || yy.2 || fw.2 || e.2 || ii.2 || x.2 || dl.2 || da.2 || dOut.2 || sm.2 || v0.2 || a1.2.1 || a2.2.1 || v.2
  { i := i1, dOut := dOut.1, xPrev := x.1, n1 := a1.2.2, n2 := a2.2.2, e := e.1, v0 := v0.1, v := v.1, u := u,
    flags :=
      b2n (decide (hi < lo) || decide (hi < v.1)) + 2 * b2n (decide (lo ≤ hi) && decide (v.1 < lo)) +
        4 * b2n (i1 != ii.1 || iLim) + 8 * b2n sat,
    nTerm := nn.1 }

/-- Bytes 160 to 215 of the record after an evaluation. -/
def EvalOut.stateBytes (o : EvalOut) (x32 : Bool) : List Byte :=
  leBytes 8 (ux 64 o.i) ++ leBytes 4 (wordOf x32 o.dOut) ++ leBytes 4 (wordOf x32 o.xPrev) ++
    (o.n1 ++ o.n2 ++ [o.v, o.u]).flatMap fun w => leBytes 4 (wordOf x32 w)

/-! ### The repetitive controller (R294) -/

/-- Cell numbers j_r and j_w for a phase. -/
def rcRead (l : List Byte) (theta : Nat) : Nat :=
  let lead := if rcX32 l then fb l (32 + 4 * 23) 4 else fb l (32 + 4 * 23) 4 / 2 ^ 16 * 2 ^ 16
  (theta + lead) % 2 ^ 32 * rcN l / 2 ^ 32
def rcWrite (l : List Byte) (theta : Nat) : Nat := theta * rcN l / 2 ^ 32

/-- Learning happens. STEP_MIN and ERR_GATE are unsigned; in F16 they use [31:16] as every coefficient
word does, the phase step compared against the word with [15:0] zero. -/
def rcLearns (l : List Byte) (prevFl quality theta prev : Nat) (e : Int) : Bool :=
  let m (j : Nat) := if rcX32 l then fb l (32 + 4 * j) 4 else fb l (32 + 4 * j) 4 / 2 ^ 16 * 2 ^ 16
  let gate := if rcX32 l then m 22 else m 22 / 2 ^ 16
  rcLearn l && quality == 2 && decide (m 21 ≤ (sx 32 (theta + 2 ^ 32 - prev)).natAbs) && decide (e.natAbs ≤ gate) &&
    !(rcHoldLim l && (bit prevFl 0 || bit prevFl 1))

/-- The new value of the cell j_w, as a signal, and whether a saturation changed a value. -/
def rcNew (l : List Byte) (cell : Int) (e : Int) : Int × Bool :=
  let w := sigW (rcX32 l)
  let a := satF w (if rcX32 l then mulC l 17 e else rnd15 (mulC l 17 e))
  let t := satF w (cell + a.1)
  let n := satF w (if rcX32 l then mulC l 18 t.1 else rnd15 (mulC l 18 t.1))
  (clampR n.1 (rcC l 19) (rcC l 20), a.2 || t.2 || n.2)

/-! ### Tracking (R290) -/

/-- The tracked integrator of a loser, for the winner's value: value, and whether the clamp changed it. -/
def trackedI (l : List Byte) (uw : Int) : Int × Bool :=
  let n := sx 64 (fb l 304 8)
  let t := if rcX32 l then satS 64 (uw - n) else uw * 32768 - n
  let lim := limI l
  (clampR t lim.1 lim.2, clampR t lim.1 lim.2 != t)

/-! ### Waveforms (R300) -/

/-- π / 2048 × 2^200, by Machin's series. -/
def atanInv (q : Nat) : Nat → Nat → Nat → Bool → Int
  | 0, _, _, _ => 0
  | n + 1, k, p, neg =>
    let t : Int := ((p / k : Nat) : Int)
    (if neg then -t else t) + atanInv q n (k + 2) (p / (q * q)) (!neg)

def piFix : Int := 16 * atanInv 5 60 1 (2 ^ 200 / 5) false - 4 * atanInv 239 20 1 (2 ^ 200 / 239) false

/-- sin x × 2^200 for x × 2^200, by its series. -/
def sinFix (x : Int) : Nat → Nat → Int → Int
  | 0, _, _ => 0
  | n + 1, k, t => t + sinFix x n (k + 2) (-(t * x / 2 ^ 200 * x / 2 ^ 200) / ((k + 1) * (k + 2)))

/-- s(φ): roundTiesToEven(32767 × sin(2π × i / 4096)), by octant symmetry of the first quadrant. -/
def sineS (phi : Nat) : Int :=
  let i := bits phi 20 12
  let q := i / 1024
  let k := i % 1024
  let j := if q % 2 = 0 then k else 1024 - k
  let x := piFix * (j : Int) / 2048
  let m := rneShift (32767 * sinFix x 30 1 x) 200
  if q < 2 then m else -m

/-- sine(φ) of an amplitude, in Q1.31 (R300). -/
def sineAt (amp : Int) (phi : Nat) : Int := asr (amp * sineS phi + 16384) 15

end Sys2Proof.Machine
end

