-- ==== Sys2Proof/Config.lean ====
section
/-! DEFINITION. What the spec leaves open: constants with no body, so that no proof can see a value of
them. Each is named in the assumption log. -/

namespace Sys2Proof.Config

/-- A value the spec leaves open, by the number of open values drawn before it and an index: nothing
constrains it. -/
opaque freeValue : Nat → Nat → Nat

/-- What a byte of a memory that nothing has written since it lost its content holds (R141), by
address. -/
opaque unknownByte : Nat → Byte

/-- Whether a read of such a word ends with POISON (R141: it may). -/
opaque unknownPoison : Nat → Bool

end Sys2Proof.Config
end

