-- ==== Sys2Proof/Machine/Regs.lean ====
section
/-! DEFINITION. The register map: every register of every block, its address, its fields with their
bits, access code and reset value, as spec/23_register_map.md (R774, R785) and the set-up register
tables of the other chapters state them. -/

namespace Sys2Proof.Machine

/-- The access codes of R16 (spec/00_scope.md). -/
inductive Acc where
  | rw | ro | wo | w1c | w1s | rwl
  deriving DecidableEq, Repr

/-- One register field as its home in the state: the number of its lowest bit counted over the whole
register space, its width, its reset value. -/
structure Fld where
  key : Nat
  w : Nat
  rst : Nat
  deriving DecidableEq, Repr

/-- One field of a register table: lowest bit, width, access code, reset values (one value for every
copy, or one per copy; none: 0). -/
structure FieldDesc where
  lo : Nat
  w : Nat
  acc : Acc
  rst : List Nat
  deriving DecidableEq, Repr

/-- One register: its name, its address (of copy 0), the count and stride of each array it is in, its
fields. -/
structure RegDesc where
  name : String
  base : Nat
  dims : List (Nat × Nat)
  fields : List FieldDesc
  deriving DecidableEq, Repr

namespace R

/-! ### 02_drones_external_time.md (R73) -/

def DRN_CTRL_ENABLE (i : Nat) : Fld := ⟨(0x30000 + 0x400 * i) * 8 + 0, 1, 0⟩
def DRN_CTRL_REACQ (i : Nat) : Fld := ⟨(0x30000 + 0x400 * i) * 8 + 1, 1, 0⟩
def DRN_CTRL_PRESET_GO (i : Nat) : Fld := ⟨(0x30000 + 0x400 * i) * 8 + 2, 1, 0⟩
def DRN_CTRL_ALT_EN (i : Nat) : Fld := ⟨(0x30000 + 0x400 * i) * 8 + 3, 1, 0⟩
def DRN_CTRL_NOTIFY_EN (i : Nat) : Fld := ⟨(0x30000 + 0x400 * i) * 8 + 4, 1, 0⟩
def DRN_CTRL_CNT_CLR (i : Nat) : Fld := ⟨(0x30000 + 0x400 * i) * 8 + 5, 1, 0⟩
def DRN_CTRL_LOCK_CNT (i : Nat) : Fld := ⟨(0x30000 + 0x400 * i) * 8 + 8, 8, 8⟩
def DRN_SRC_KIND (i : Nat) : Fld := ⟨(0x30004 + 0x400 * i) * 8 + 0, 4, 0⟩
def DRN_SRC_INDEX (i : Nat) : Fld := ⟨(0x30004 + 0x400 * i) * 8 + 4, 6, 0⟩
def DRN_SRC_ALT_KIND (i : Nat) : Fld := ⟨(0x30004 + 0x400 * i) * 8 + 10, 4, 0⟩
def DRN_SRC_ALT_INDEX (i : Nat) : Fld := ⟨(0x30004 + 0x400 * i) * 8 + 14, 6, 0⟩
def DRN_SRC_BITS (i : Nat) : Fld := ⟨(0x30004 + 0x400 * i) * 8 + 20, 6, 0⟩
def DRN_SCALE_LO_SCALE_LO (i : Nat) : Fld := ⟨(0x30008 + 0x400 * i) * 8 + 0, 32, 0⟩
def DRN_SCALE_HI_SCALE_HI (i : Nat) : Fld := ⟨(0x3000c + 0x400 * i) * 8 + 0, 16, 0⟩
def DRN_MOD_MOD (i : Nat) : Fld := ⟨(0x30010 + 0x400 * i) * 8 + 0, 32, 0⟩
def DRN_GAIN_L_KP (i : Nat) : Fld := ⟨(0x30014 + 0x400 * i) * 8 + 0, 16, 0⟩
def DRN_GAIN_L_KI (i : Nat) : Fld := ⟨(0x30014 + 0x400 * i) * 8 + 16, 16, 0⟩
def DRN_GAIN_A_KP (i : Nat) : Fld := ⟨(0x30018 + 0x400 * i) * 8 + 0, 16, 0⟩
def DRN_GAIN_A_KI (i : Nat) : Fld := ⟨(0x30018 + 0x400 * i) * 8 + 16, 16, 0⟩
def DRN_SHIFT_SP_L (i : Nat) : Fld := ⟨(0x3001c + 0x400 * i) * 8 + 0, 5, 0⟩
def DRN_SHIFT_SI_L (i : Nat) : Fld := ⟨(0x3001c + 0x400 * i) * 8 + 8, 5, 0⟩
def DRN_SHIFT_SP_A (i : Nat) : Fld := ⟨(0x3001c + 0x400 * i) * 8 + 16, 5, 0⟩
def DRN_SHIFT_SI_A (i : Nat) : Fld := ⟨(0x3001c + 0x400 * i) * 8 + 24, 5, 0⟩
def DRN_LOCK_THR_LOCK_THR (i : Nat) : Fld := ⟨(0x30020 + 0x400 * i) * 8 + 0, 32, 0⟩
def DRN_FINIT_LO_FINIT_LO (i : Nat) : Fld := ⟨(0x30024 + 0x400 * i) * 8 + 0, 32, 0⟩
def DRN_FINIT_HI_FINIT_HI (i : Nat) : Fld := ⟨(0x30028 + 0x400 * i) * 8 + 0, 16, 0⟩
def DRN_FMIN_F_MIN (i : Nat) : Fld := ⟨(0x3002c + 0x400 * i) * 8 + 0, 32, 0⟩
def DRN_FMAX_F_MAX (i : Nat) : Fld := ⟨(0x30030 + 0x400 * i) * 8 + 0, 32, 0x7FFFFFFF⟩
def DRN_EXP_N_EXP (i : Nat) : Fld := ⟨(0x30034 + 0x400 * i) * 8 + 0, 24, 0⟩
def DRN_EXP_MISS_MAX (i : Nat) : Fld := ⟨(0x30034 + 0x400 * i) * 8 + 24, 8, 0⟩
def DRN_ERRMAX_ERR_MAX (i : Nat) : Fld := ⟨(0x30038 + 0x400 * i) * 8 + 0, 32, 0⟩
def DRN_OUTL_OUTLIER_MAX (i : Nat) : Fld := ⟨(0x3003c + 0x400 * i) * 8 + 0, 8, 0⟩
def DRN_HOLD_MAX_HOLD_MAX (i : Nat) : Fld := ⟨(0x30040 + 0x400 * i) * 8 + 0, 32, 0⟩
def DRN_SLEW_SLEW_MAX (i : Nat) : Fld := ⟨(0x30044 + 0x400 * i) * 8 + 0, 16, 0⟩
def DRN_HYST_HYST (i : Nat) : Fld := ⟨(0x30048 + 0x400 * i) * 8 + 0, 32, 0⟩
def DRN_DELAY_DELAY (i : Nat) : Fld := ⟨(0x3004c + 0x400 * i) * 8 + 0, 12, 0⟩
def DRN_PRESET_PH_PRESET_PH (i : Nat) : Fld := ⟨(0x30050 + 0x400 * i) * 8 + 0, 32, 0⟩
def DRN_PRESET_CC_PRESET_CC (i : Nat) : Fld := ⟨(0x30054 + 0x400 * i) * 8 + 0, 16, 0⟩
def DRN_NOTIFY_TYPE (i : Nat) : Fld := ⟨(0x30058 + 0x400 * i) * 8 + 0, 2, 0⟩
def DRN_NOTIFY_UNIT (i : Nat) : Fld := ⟨(0x30058 + 0x400 * i) * 8 + 2, 8, 0⟩
def DRN_NOTIFY_CONTEXT (i : Nat) : Fld := ⟨(0x30058 + 0x400 * i) * 8 + 10, 4, 0⟩
def DRN_NOTIFY_COUNTER (i : Nat) : Fld := ⟨(0x30058 + 0x400 * i) * 8 + 14, 4, 0⟩
def DRN_NOTIFY_POST (i : Nat) : Fld := ⟨(0x30058 + 0x400 * i) * 8 + 18, 1, 0⟩
def DRN_NOTIFY_WRITE (i : Nat) : Fld := ⟨(0x30058 + 0x400 * i) * 8 + 19, 1, 0⟩
def DRN_SNAP_LO_PHASE (i : Nat) : Fld := ⟨(0x30060 + 0x400 * i) * 8 + 0, 32, 0⟩
def DRN_SNAP_HI_CYCLE (i : Nat) : Fld := ⟨(0x30064 + 0x400 * i) * 8 + 0, 16, 0⟩
def DRN_SNAP_HI_STATE (i : Nat) : Fld := ⟨(0x30064 + 0x400 * i) * 8 + 16, 3, 0⟩
def DRN_SNAP_HI_QUALITY (i : Nat) : Fld := ⟨(0x30064 + 0x400 * i) * 8 + 19, 2, 0⟩
def DRN_SNAP_HI_DIR (i : Nat) : Fld := ⟨(0x30064 + 0x400 * i) * 8 + 21, 1, 0⟩
def DRN_FREQ_LO_F_LO (i : Nat) : Fld := ⟨(0x30068 + 0x400 * i) * 8 + 0, 32, 0⟩
def DRN_FREQ_HI_F_HI (i : Nat) : Fld := ⟨(0x3006c + 0x400 * i) * 8 + 0, 16, 0⟩
def DRN_ERR_E (i : Nat) : Fld := ⟨(0x30070 + 0x400 * i) * 8 + 0, 32, 0⟩
def DRN_STAT_STATE (i : Nat) : Fld := ⟨(0x30074 + 0x400 * i) * 8 + 0, 3, 0⟩
def DRN_STAT_QUALITY (i : Nat) : Fld := ⟨(0x30074 + 0x400 * i) * 8 + 3, 2, 0⟩
def DRN_STAT_DIR (i : Nat) : Fld := ⟨(0x30074 + 0x400 * i) * 8 + 5, 1, 0⟩
def DRN_STAT_ALT_ACTIVE (i : Nat) : Fld := ⟨(0x30074 + 0x400 * i) * 8 + 6, 1, 0⟩
def DRN_STAT_FSAT (i : Nat) : Fld := ⟨(0x30074 + 0x400 * i) * 8 + 7, 1, 0⟩
def DRN_STAT_SOURCE_LOST (i : Nat) : Fld := ⟨(0x30074 + 0x400 * i) * 8 + 8, 1, 0⟩
def DRN_STAT_LOVF (i : Nat) : Fld := ⟨(0x30074 + 0x400 * i) * 8 + 9, 1, 0⟩
def DRN_STAT_CFG_REJ (i : Nat) : Fld := ⟨(0x30074 + 0x400 * i) * 8 + 10, 1, 0⟩
def DRN_STAT_LWERR (i : Nat) : Fld := ⟨(0x30074 + 0x400 * i) * 8 + 11, 1, 0⟩
def DRN_STAT_REVERSALS (i : Nat) : Fld := ⟨(0x30074 + 0x400 * i) * 8 + 16, 16, 0⟩
def DRN_CNT1_OUTLIERS (i : Nat) : Fld := ⟨(0x30078 + 0x400 * i) * 8 + 0, 16, 0⟩
def DRN_CNT1_LATE (i : Nat) : Fld := ⟨(0x30078 + 0x400 * i) * 8 + 16, 16, 0⟩
def DRN_CNT2_MISSED (i : Nat) : Fld := ⟨(0x3007c + 0x400 * i) * 8 + 0, 16, 0⟩
def DRN_CNT2_SUPPRESSED (i : Nat) : Fld := ⟨(0x3007c + 0x400 * i) * 8 + 16, 16, 0⟩
def DRN_CNT3_LOST_MEAS (i : Nat) : Fld := ⟨(0x30080 + 0x400 * i) * 8 + 0, 16, 0⟩
def EV_PHASE_PHASE (i : Nat) (j : Nat) : Fld := ⟨(0x30200 + 0x400 * i + 0x10 * j) * 8 + 0, 32, 0⟩
def EV_CTRL_MODE (i : Nat) (j : Nat) : Fld := ⟨(0x30204 + 0x400 * i + 0x10 * j) * 8 + 0, 2, 0⟩
def EV_CTRL_DIR (i : Nat) (j : Nat) : Fld := ⟨(0x30204 + 0x400 * i + 0x10 * j) * 8 + 2, 2, 0⟩
def EV_CTRL_QUAL (i : Nat) (j : Nat) : Fld := ⟨(0x30204 + 0x400 * i + 0x10 * j) * 8 + 4, 1, 0⟩
def EV_CTRL_CQ (i : Nat) (j : Nat) : Fld := ⟨(0x30204 + 0x400 * i + 0x10 * j) * 8 + 5, 1, 0⟩
def EV_CTRL_FIRED (i : Nat) (j : Nat) : Fld := ⟨(0x30204 + 0x400 * i + 0x10 * j) * 8 + 6, 1, 0⟩
def EV_CTRL_N (i : Nat) (j : Nat) : Fld := ⟨(0x30204 + 0x400 * i + 0x10 * j) * 8 + 16, 16, 0⟩
def EV_TARGET_TYPE (i : Nat) (j : Nat) : Fld := ⟨(0x30208 + 0x400 * i + 0x10 * j) * 8 + 0, 2, 0⟩
def EV_TARGET_UNIT (i : Nat) (j : Nat) : Fld := ⟨(0x30208 + 0x400 * i + 0x10 * j) * 8 + 2, 8, 0⟩
def EV_TARGET_CONTEXT (i : Nat) (j : Nat) : Fld := ⟨(0x30208 + 0x400 * i + 0x10 * j) * 8 + 10, 4, 0⟩
def EV_TARGET_COUNTER (i : Nat) (j : Nat) : Fld := ⟨(0x30208 + 0x400 * i + 0x10 * j) * 8 + 14, 4, 0⟩
def EV_TARGET_POST (i : Nat) (j : Nat) : Fld := ⟨(0x30208 + 0x400 * i + 0x10 * j) * 8 + 18, 1, 0⟩
def EV_TARGET_WRITE (i : Nat) (j : Nat) : Fld := ⟨(0x30208 + 0x400 * i + 0x10 * j) * 8 + 19, 1, 0⟩
def EV_CC_CC (i : Nat) (j : Nat) : Fld := ⟨(0x3020c + 0x400 * i + 0x10 * j) * 8 + 0, 16, 0⟩
def EV_CC_MASK (i : Nat) (j : Nat) : Fld := ⟨(0x3020c + 0x400 * i + 0x10 * j) * 8 + 16, 16, 0⟩
def DRN_LADDR_LO_LADDR_LO : Fld := ⟨(0x34000) * 8 + 0, 32, 0⟩
def DRN_LADDR_HI_LADDR_HI : Fld := ⟨(0x34004) * 8 + 0, 32, 0⟩
def LATCH_WORD (i : Nat) : Fld := ⟨(0x35000 + 0x4 * i) * 8 + 0, 32, 0⟩

/-! ### 03_tables_tokens_threads.md (R108) -/

def SEQ_CTRL_ENABLE (b : Nat) : Fld := ⟨(b + 0x0) * 8 + 0, 1, 0⟩
def SEQ_CTRL_IRQ_EN (b : Nat) : Fld := ⟨(b + 0x0) * 8 + 1, 1, 0⟩
def SEQ_CTRL_ABI (b : Nat) : Fld := ⟨(b + 0x0) * 8 + 8, 8, 0⟩
def SEQ_STAT_ERR_MASK (b : Nat) : Fld := ⟨(b + 0x4) * 8 + 0, 16, 0⟩
def SEQ_STAT_CREDIT_OVF (b : Nat) : Fld := ⟨(b + 0x4) * 8 + 16, 1, 0⟩
def SEQ_STAT_CREDIT_UNF (b : Nat) : Fld := ⟨(b + 0x4) * 8 + 17, 1, 0⟩
def SEQ_STAT_CREDIT_LOST (b : Nat) : Fld := ⟨(b + 0x4) * 8 + 18, 1, 0⟩
def SEQ_STAT_EPOCH (b : Nat) : Fld := ⟨(b + 0x4) * 8 + 24, 8, 0⟩
def SEQ_ERR_CONTEXT (b : Nat) : Fld := ⟨(b + 0x8) * 8 + 0, 4, 0⟩
def SEQ_ERR_ROW (b : Nat) : Fld := ⟨(b + 0x8) * 8 + 4, 9, 0⟩
def SEQ_ERR_ITER (b : Nat) : Fld := ⟨(b + 0x8) * 8 + 13, 12, 0⟩
def SEQ_ERR_STATUS (b : Nat) : Fld := ⟨(b + 0x8) * 8 + 28, 4, 0⟩
def CTX_CTRL_START (b : Nat) (i : Nat) : Fld := ⟨(b + 0x100 + 0x10 * i) * 8 + 0, 1, 0⟩
def CTX_CTRL_HALT (b : Nat) (i : Nat) : Fld := ⟨(b + 0x100 + 0x10 * i) * 8 + 1, 1, 0⟩
def CTX_CTRL_STEP (b : Nat) (i : Nat) : Fld := ⟨(b + 0x100 + 0x10 * i) * 8 + 2, 1, 0⟩
def CTX_CTRL_CLEAR (b : Nat) (i : Nat) : Fld := ⟨(b + 0x100 + 0x10 * i) * 8 + 3, 1, 0⟩
def CTX_CTRL_CEILING (b : Nat) (i : Nat) : Fld := ⟨(b + 0x100 + 0x10 * i) * 8 + 4, 2, 0⟩
def CTX_PC_PC (b : Nat) (i : Nat) : Fld := ⟨(b + 0x104 + 0x10 * i) * 8 + 0, 9, 0⟩
def CTX_PC_ITER (b : Nat) (i : Nat) : Fld := ⟨(b + 0x104 + 0x10 * i) * 8 + 12, 12, 0⟩
def CTX_STAT_STATE (b : Nat) (i : Nat) : Fld := ⟨(b + 0x108 + 0x10 * i) * 8 + 0, 3, 0⟩
def CTX_STAT_CAUSE (b : Nat) (i : Nat) : Fld := ⟨(b + 0x108 + 0x10 * i) * 8 + 4, 3, 0⟩
def CTX_STAT_CODE (b : Nat) (i : Nat) : Fld := ⟨(b + 0x108 + 0x10 * i) * 8 + 8, 8, 0⟩
def CTX_STAT_STALL (b : Nat) (i : Nat) : Fld := ⟨(b + 0x108 + 0x10 * i) * 8 + 16, 1, 0⟩
def CTX_TIMEOUT_TIMEOUT (b : Nat) (i : Nat) : Fld := ⟨(b + 0x10c + 0x10 * i) * 8 + 0, 16, 0⟩
def TOKCNT_COUNT (b : Nat) (i : Nat) (j : Nat) : Fld := ⟨(b + 0x200 + 0x40 * i + 0x4 * j) * 8 + 0, 16, 0⟩
def TOKCNT_OVF (b : Nat) (i : Nat) (j : Nat) : Fld := ⟨(b + 0x200 + 0x40 * i + 0x4 * j) * 8 + 16, 1, 0⟩
def TOKCNT_UNF (b : Nat) (i : Nat) (j : Nat) : Fld := ⟨(b + 0x200 + 0x40 * i + 0x4 * j) * 8 + 17, 1, 0⟩
def TOKBIND_EN (b : Nat) (i : Nat) (j : Nat) : Fld := ⟨(b + 0x600 + 0x40 * i + 0x4 * j) * 8 + 0, 1, 0⟩
def TOKBIND_DESC (b : Nat) (i : Nat) (j : Nat) : Fld := ⟨(b + 0x600 + 0x40 * i + 0x4 * j) * 8 + 1, 6, 0⟩
def POOL_CNT_COUNT (b : Nat) (i : Nat) : Fld := ⟨(b + 0xa00 + 0x8 * i) * 8 + 0, 16, 0⟩
def POOL_INIT_INIT (b : Nat) (i : Nat) : Fld := ⟨(b + 0xa04 + 0x8 * i) * 8 + 0, 16, 0⟩
def DESC_LO_CHIP (b : Nat) (i : Nat) : Fld := ⟨(b + 0xc00 + 0x8 * i) * 8 + 0, 15, 0⟩
def DESC_LO_LOCAL (b : Nat) (i : Nat) : Fld := ⟨(b + 0xc00 + 0x8 * i) * 8 + 15, 1, 0⟩
def DESC_LO_UNIT (b : Nat) (i : Nat) : Fld := ⟨(b + 0xc00 + 0x8 * i) * 8 + 16, 8, 0⟩
def DESC_LO_CONTEXT (b : Nat) (i : Nat) : Fld := ⟨(b + 0xc00 + 0x8 * i) * 8 + 24, 4, 0⟩
def DESC_LO_COUNTER (b : Nat) (i : Nat) : Fld := ⟨(b + 0xc00 + 0x8 * i) * 8 + 28, 4, 0⟩
def DESC_HI_POOL (b : Nat) (i : Nat) : Fld := ⟨(b + 0xc04 + 0x8 * i) * 8 + 0, 5, 0⟩
def DESC_HI_TYPE (b : Nat) (i : Nat) : Fld := ⟨(b + 0xc04 + 0x8 * i) * 8 + 5, 1, 0⟩
def DESC_HI_EPOCH (b : Nat) (i : Nat) : Fld := ⟨(b + 0xc04 + 0x8 * i) * 8 + 8, 8, 0⟩
def DESC_HI_VALID (b : Nat) (i : Nat) : Fld := ⟨(b + 0xc04 + 0x8 * i) * 8 + 16, 1, 0⟩
def SEQ_FIRED_FIRED (b : Nat) : Fld := ⟨(b + 0xe00) * 8 + 0, 32, 0⟩
def SEQ_DROPS_EPOCH_DROPS (b : Nat) : Fld := ⟨(b + 0xe04) * 8 + 0, 16, 0⟩
def SEQ_DROPS_TRIG_SKIPPED (b : Nat) : Fld := ⟨(b + 0xe04) * 8 + 16, 16, 0⟩
def TOKTAKE_N (b : Nat) (i : Nat) (j : Nat) : Fld := ⟨(b + 0x1000 + 0x40 * i + 0x4 * j) * 8 + 0, 16, 0⟩
def ROWS_WORD (b : Nat) (i : Nat) (j : Nat) : Fld := ⟨(b + 0x2000 + 0x20 * i + 0x4 * j) * 8 + 0, 32, 0⟩

/-! ### 04_address_space_memory.md (R149) -/

def MEM_CHIP_ID_CHIP_ID : Fld := ⟨(0x4000) * 8 + 0, 15, 0⟩
def MEM_ECC_CTRL_CE_IRQ_EN : Fld := ⟨(0x4004) * 8 + 0, 1, 0⟩
def MEM_ECC_CTRL_UE_IRQ_EN : Fld := ⟨(0x4004) * 8 + 1, 1, 0⟩
def MEM_ECC_CTRL_WB_EN : Fld := ⟨(0x4004) * 8 + 2, 1, 1⟩
def MEM_SCRUB_EN : Fld := ⟨(0x4008) * 8 + 0, 1, 0⟩
def MEM_SCRUB_INTERVAL : Fld := ⟨(0x4008) * 8 + 8, 24, 0⟩
def MEM_CE_ADDR_LO_ADDR : Fld := ⟨(0x4010) * 8 + 0, 32, 0⟩
def MEM_CE_ADDR_HI_ADDR_HI : Fld := ⟨(0x4014) * 8 + 0, 16, 0⟩
def MEM_CE_ADDR_HI_INITIATOR : Fld := ⟨(0x4014) * 8 + 16, 6, 0⟩
def MEM_CE_ADDR_HI_CLASS : Fld := ⟨(0x4014) * 8 + 22, 2, 0⟩
def MEM_CE_ADDR_HI_WRITE : Fld := ⟨(0x4014) * 8 + 24, 1, 0⟩
def MEM_CE_ADDR_HI_VALID : Fld := ⟨(0x4014) * 8 + 31, 1, 0⟩
def MEM_UE_ADDR_LO_ADDR : Fld := ⟨(0x4018) * 8 + 0, 32, 0⟩
def MEM_UE_ADDR_HI_ADDR_HI : Fld := ⟨(0x401c) * 8 + 0, 16, 0⟩
def MEM_UE_ADDR_HI_INITIATOR : Fld := ⟨(0x401c) * 8 + 16, 6, 0⟩
def MEM_UE_ADDR_HI_CLASS : Fld := ⟨(0x401c) * 8 + 22, 2, 0⟩
def MEM_UE_ADDR_HI_WRITE : Fld := ⟨(0x401c) * 8 + 24, 1, 0⟩
def MEM_UE_ADDR_HI_VALID : Fld := ⟨(0x401c) * 8 + 31, 1, 0⟩
def MEM_MAP_ADDR_LO_ADDR : Fld := ⟨(0x4020) * 8 + 0, 32, 0⟩
def MEM_MAP_ADDR_HI_ADDR_HI : Fld := ⟨(0x4024) * 8 + 0, 16, 0⟩
def MEM_MAP_ADDR_HI_INITIATOR : Fld := ⟨(0x4024) * 8 + 16, 6, 0⟩
def MEM_MAP_ADDR_HI_CLASS : Fld := ⟨(0x4024) * 8 + 22, 2, 0⟩
def MEM_MAP_ADDR_HI_WRITE : Fld := ⟨(0x4024) * 8 + 24, 1, 0⟩
def MEM_MAP_ADDR_HI_VALID : Fld := ⟨(0x4024) * 8 + 31, 1, 0⟩
def MEM_CNT1_CE_CNT : Fld := ⟨(0x4028) * 8 + 0, 16, 0⟩
def MEM_CNT1_UE_CNT : Fld := ⟨(0x4028) * 8 + 16, 16, 0⟩
def MEM_CNT2_POISON_CNT : Fld := ⟨(0x402c) * 8 + 0, 16, 0⟩
def MEM_CNT2_MAP_CNT : Fld := ⟨(0x402c) * 8 + 16, 16, 0⟩
def MEM_CNT_CLR_CLR : Fld := ⟨(0x4030) * 8 + 0, 1, 0⟩
def MEM_INJ_ADDR_LO_ADDR : Fld := ⟨(0x4040) * 8 + 3, 29, 0⟩
def MEM_INJ_CTRL_ADDR_HI : Fld := ⟨(0x4044) * 8 + 0, 16, 0⟩
def MEM_INJ_CTRL_MODE : Fld := ⟨(0x4044) * 8 + 16, 2, 0⟩
def MEM_INJ_CTRL_BIT : Fld := ⟨(0x4044) * 8 + 18, 6, 0⟩
def MEM_INJ_CTRL_ARM : Fld := ⟨(0x4044) * 8 + 31, 1, 0⟩
def MEM_ZERO_UNIT : Fld := ⟨(0x4050) * 8 + 0, 8, 0⟩
def MEM_ZERO_GO : Fld := ⟨(0x4050) * 8 + 8, 1, 0⟩
def MEM_ZERO_BUSY : Fld := ⟨(0x4050) * 8 + 9, 1, 0⟩
def MEM_ZERO_DONE : Fld := ⟨(0x4050) * 8 + 10, 1, 0⟩
def MEM_ZERO_REJ : Fld := ⟨(0x4050) * 8 + 11, 1, 0⟩
def MEM_ZERO_IRQ_EN : Fld := ⟨(0x4050) * 8 + 12, 1, 0⟩

/-! ### 23_register_map.md (R781) -/

def GLOBAL_ID_PART : Fld := ⟨(0x0) * 8 + 0, 16, 0x7640⟩
def GLOBAL_ID_GEN : Fld := ⟨(0x0) * 8 + 16, 4, 2⟩
def GLOBAL_ID_STEPPING : Fld := ⟨(0x0) * 8 + 20, 4, 0⟩
def ID_FUSE_GRADE : Fld := ⟨(0x4) * 8 + 0, 2, 0⟩
def ID_FUSE_TEMP : Fld := ⟨(0x4) * 8 + 2, 1, 0⟩
def ID_FUSE_ENABLED : Fld := ⟨(0x4) * 8 + 3, 7, 0⟩
def ID_FUSE_SECURE : Fld := ⟨(0x4) * 8 + 10, 1, 0⟩
def ID_FUSE_DEBUG_LOCK : Fld := ⟨(0x4) * 8 + 11, 1, 0⟩
def ID_FUSE_STARTUP_BIST : Fld := ⟨(0x4) * 8 + 12, 1, 0⟩
def ID_FUSE_HOST_RECOVERY : Fld := ⟨(0x4) * 8 + 13, 1, 0⟩
def ID_TILE_MAP_LO_TILE_MAP : Fld := ⟨(0x8) * 8 + 0, 32, 0⟩
def ID_TILE_MAP_HI_TILE_MAP : Fld := ⟨(0xc) * 8 + 0, 32, 0⟩
def ID_SERIAL_LO_SERIAL : Fld := ⟨(0x10) * 8 + 0, 32, 0⟩
def ID_SERIAL_HI_SERIAL : Fld := ⟨(0x14) * 8 + 0, 32, 0⟩
def ID_KEY_HASH_KEY_HASH (i : Nat) : Fld := ⟨(0x20 + 0x4 * i) * 8 + 0, 32, 0⟩
def ID_ROLLBACK_LO_ROLLBACK : Fld := ⟨(0x40) * 8 + 0, 32, 0⟩
def ID_ROLLBACK_HI_ROLLBACK : Fld := ⟨(0x44) * 8 + 0, 32, 0⟩
def GLOBAL_MODE_REPRO : Fld := ⟨(0x50) * 8 + 0, 1, 0⟩
def SETUP_LOCK_LOCK : Fld := ⟨(0x54) * 8 + 0, 1, 0⟩
def SETUP_LOCK_ISL_LOCK : Fld := ⟨(0x54) * 8 + 1, 1, 0⟩
def GLOBAL_IRQ_STAT_PEND : Fld := ⟨(0x60) * 8 + 0, 19, 0⟩
def GLOBAL_IRQ_CORE_MASK (i : Nat) : Fld := ⟨(0x70 + 0x4 * i) * 8 + 0, 19, 0x7FFFF⟩
def SPI_CTRL_EN (i : Nat) : Fld := ⟨(0x340000 + 0x100 * i) * 8 + 0, 1, 0⟩
def SPI_CTRL_MODE (i : Nat) : Fld := ⟨(0x340000 + 0x100 * i) * 8 + 1, 2, 0⟩
def SPI_CTRL_LSB_FIRST (i : Nat) : Fld := ⟨(0x340000 + 0x100 * i) * 8 + 3, 1, 0⟩
def SPI_CTRL_BITS (i : Nat) : Fld := ⟨(0x340000 + 0x100 * i) * 8 + 4, 5, 0⟩
def SPI_CTRL_CS (i : Nat) : Fld := ⟨(0x340000 + 0x100 * i) * 8 + 9, 2, 0⟩
def SPI_CTRL_CS_HOLD (i : Nat) : Fld := ⟨(0x340000 + 0x100 * i) * 8 + 11, 1, 0⟩
def SPI_CTRL_IRQ_EN (i : Nat) : Fld := ⟨(0x340000 + 0x100 * i) * 8 + 12, 1, 0⟩
def SPI_CTRL_DIV (i : Nat) : Fld := ⟨(0x340000 + 0x100 * i) * 8 + 16, 8, 0⟩
def SPI_STAT_TX_LVL (i : Nat) : Fld := ⟨(0x340004 + 0x100 * i) * 8 + 0, 5, 0⟩
def SPI_STAT_RX_LVL (i : Nat) : Fld := ⟨(0x340004 + 0x100 * i) * 8 + 5, 5, 0⟩
def SPI_STAT_BUSY (i : Nat) : Fld := ⟨(0x340004 + 0x100 * i) * 8 + 10, 1, 0⟩
def SPI_STAT_TX_OVF (i : Nat) : Fld := ⟨(0x340004 + 0x100 * i) * 8 + 11, 1, 0⟩
def SPI_STAT_RX_UF (i : Nat) : Fld := ⟨(0x340004 + 0x100 * i) * 8 + 12, 1, 0⟩
def SPI_TX_DATA (i : Nat) : Fld := ⟨(0x340008 + 0x100 * i) * 8 + 0, 32, 0⟩
def SPI_RX_DATA (i : Nat) : Fld := ⟨(0x34000c + 0x100 * i) * 8 + 0, 32, 0⟩
def I2C_CTRL_EN (i : Nat) : Fld := ⟨(0x341000 + 0x100 * i) * 8 + 0, 1, 0⟩
def I2C_CTRL_SPEED (i : Nat) : Fld := ⟨(0x341000 + 0x100 * i) * 8 + 1, 2, 0⟩
def I2C_CTRL_TGT_EN (i : Nat) : Fld := ⟨(0x341000 + 0x100 * i) * 8 + 3, 1, 0⟩
def I2C_CTRL_IRQ_EN (i : Nat) : Fld := ⟨(0x341000 + 0x100 * i) * 8 + 4, 1, 0⟩
def I2C_OWN_OWN (i : Nat) : Fld := ⟨(0x341004 + 0x100 * i) * 8 + 0, 10, 0⟩
def I2C_OWN_TEN (i : Nat) : Fld := ⟨(0x341004 + 0x100 * i) * 8 + 10, 1, 0⟩
def I2C_CMD_ADDR (i : Nat) : Fld := ⟨(0x341008 + 0x100 * i) * 8 + 0, 10, 0⟩
def I2C_CMD_TEN (i : Nat) : Fld := ⟨(0x341008 + 0x100 * i) * 8 + 10, 1, 0⟩
def I2C_CMD_READ (i : Nat) : Fld := ⟨(0x341008 + 0x100 * i) * 8 + 11, 1, 0⟩
def I2C_CMD_BYTES (i : Nat) : Fld := ⟨(0x341008 + 0x100 * i) * 8 + 12, 8, 0⟩
def I2C_CMD_STOP (i : Nat) : Fld := ⟨(0x341008 + 0x100 * i) * 8 + 20, 1, 0⟩
def I2C_CMD_GO (i : Nat) : Fld := ⟨(0x341008 + 0x100 * i) * 8 + 21, 1, 0⟩
def I2C_STAT_TX_LVL (i : Nat) : Fld := ⟨(0x34100c + 0x100 * i) * 8 + 0, 5, 0⟩
def I2C_STAT_RX_LVL (i : Nat) : Fld := ⟨(0x34100c + 0x100 * i) * 8 + 5, 5, 0⟩
def I2C_STAT_BUSY (i : Nat) : Fld := ⟨(0x34100c + 0x100 * i) * 8 + 10, 1, 0⟩
def I2C_STAT_DONE (i : Nat) : Fld := ⟨(0x34100c + 0x100 * i) * 8 + 11, 1, 0⟩
def I2C_STAT_NACK (i : Nat) : Fld := ⟨(0x34100c + 0x100 * i) * 8 + 12, 1, 0⟩
def I2C_STAT_ARB_LOST (i : Nat) : Fld := ⟨(0x34100c + 0x100 * i) * 8 + 13, 1, 0⟩
def I2C_STAT_TGT_SEL (i : Nat) : Fld := ⟨(0x34100c + 0x100 * i) * 8 + 14, 1, 0⟩
def I2C_STAT_TX_OVF (i : Nat) : Fld := ⟨(0x34100c + 0x100 * i) * 8 + 15, 1, 0⟩
def I2C_STAT_RX_UF (i : Nat) : Fld := ⟨(0x34100c + 0x100 * i) * 8 + 16, 1, 0⟩
def I2C_TX_DATA (i : Nat) : Fld := ⟨(0x341010 + 0x100 * i) * 8 + 0, 8, 0⟩
def I2C_RX_DATA (i : Nat) : Fld := ⟨(0x341014 + 0x100 * i) * 8 + 0, 8, 0⟩
def UART_CTRL_EN (i : Nat) : Fld := ⟨(0x342000 + 0x100 * i) * 8 + 0, 1, 0⟩
def UART_CTRL_DATA_BITS (i : Nat) : Fld := ⟨(0x342000 + 0x100 * i) * 8 + 1, 2, 0⟩
def UART_CTRL_PARITY (i : Nat) : Fld := ⟨(0x342000 + 0x100 * i) * 8 + 3, 2, 0⟩
def UART_CTRL_STOP2 (i : Nat) : Fld := ⟨(0x342000 + 0x100 * i) * 8 + 5, 1, 0⟩
def UART_CTRL_RTSCTS (i : Nat) : Fld := ⟨(0x342000 + 0x100 * i) * 8 + 6, 1, 0⟩
def UART_CTRL_BREAK (i : Nat) : Fld := ⟨(0x342000 + 0x100 * i) * 8 + 7, 1, 0⟩
def UART_CTRL_IRQ_EN (i : Nat) : Fld := ⟨(0x342000 + 0x100 * i) * 8 + 8, 1, 0⟩
def UART_DIV_DIV (i : Nat) : Fld := ⟨(0x342004 + 0x100 * i) * 8 + 0, 17, 0⟩
def UART_STAT_TX_LVL (i : Nat) : Fld := ⟨(0x342008 + 0x100 * i) * 8 + 0, 5, 0⟩
def UART_STAT_RX_LVL (i : Nat) : Fld := ⟨(0x342008 + 0x100 * i) * 8 + 5, 5, 0⟩
def UART_STAT_BUSY (i : Nat) : Fld := ⟨(0x342008 + 0x100 * i) * 8 + 10, 1, 0⟩
def UART_STAT_PAR_ERR (i : Nat) : Fld := ⟨(0x342008 + 0x100 * i) * 8 + 11, 1, 0⟩
def UART_STAT_FRM_ERR (i : Nat) : Fld := ⟨(0x342008 + 0x100 * i) * 8 + 12, 1, 0⟩
def UART_STAT_BRK_SEEN (i : Nat) : Fld := ⟨(0x342008 + 0x100 * i) * 8 + 13, 1, 0⟩
def UART_STAT_RX_OVR (i : Nat) : Fld := ⟨(0x342008 + 0x100 * i) * 8 + 14, 1, 0⟩
def UART_STAT_TX_OVF (i : Nat) : Fld := ⟨(0x342008 + 0x100 * i) * 8 + 15, 1, 0⟩
def UART_STAT_RX_UF (i : Nat) : Fld := ⟨(0x342008 + 0x100 * i) * 8 + 16, 1, 0⟩
def UART_TX_DATA (i : Nat) : Fld := ⟨(0x34200c + 0x100 * i) * 8 + 0, 8, 0⟩
def UART_RX_DATA (i : Nat) : Fld := ⟨(0x342010 + 0x100 * i) * 8 + 0, 8, 0⟩
def XSPI_CTRL_EN : Fld := ⟨(0x343000) * 8 + 0, 1, 0⟩
def XSPI_CTRL_OCTAL : Fld := ⟨(0x343000) * 8 + 1, 1, 0⟩
def XSPI_CTRL_DIV : Fld := ⟨(0x343000) * 8 + 2, 8, 0⟩
def XSPI_CTRL_IRQ_EN : Fld := ⟨(0x343000) * 8 + 10, 1, 0⟩
def XSPI_CMD_OPCODE : Fld := ⟨(0x343004) * 8 + 0, 16, 0⟩
def XSPI_CMD_DUMMY : Fld := ⟨(0x343004) * 8 + 16, 5, 0⟩
def XSPI_CMD_ADDR_PH : Fld := ⟨(0x343004) * 8 + 21, 1, 0⟩
def XSPI_CMD_WRITE : Fld := ⟨(0x343004) * 8 + 22, 1, 0⟩
def XSPI_CMD_GO : Fld := ⟨(0x343004) * 8 + 23, 1, 0⟩
def XSPI_ADDR_ADDR : Fld := ⟨(0x343008) * 8 + 0, 32, 0⟩
def XSPI_LEN_LEN : Fld := ⟨(0x34300c) * 8 + 0, 7, 0⟩
def XSPI_DATA_DATA : Fld := ⟨(0x343010) * 8 + 0, 32, 0⟩
def XSPI_WADDR_WADDR : Fld := ⟨(0x343014) * 8 + 0, 32, 0⟩
def XSPI_WDATA_WDATA : Fld := ⟨(0x343018) * 8 + 0, 32, 0⟩
def XSPI_STAT_TX_LVL : Fld := ⟨(0x34301c) * 8 + 0, 5, 0⟩
def XSPI_STAT_RX_LVL : Fld := ⟨(0x34301c) * 8 + 5, 5, 0⟩
def XSPI_STAT_BUSY : Fld := ⟨(0x34301c) * 8 + 10, 1, 0⟩
def XSPI_STAT_TX_OVF : Fld := ⟨(0x34301c) * 8 + 11, 1, 0⟩
def XSPI_STAT_RX_UF : Fld := ⟨(0x34301c) * 8 + 12, 1, 0⟩
def CAN_NBT_PRESC (i : Nat) : Fld := ⟨(0x320008 + 0x1000 * i) * 8 + 0, 5, 0⟩
def CAN_NBT_TSEG1 (i : Nat) : Fld := ⟨(0x320008 + 0x1000 * i) * 8 + 5, 8, 0⟩
def CAN_NBT_TSEG2 (i : Nat) : Fld := ⟨(0x320008 + 0x1000 * i) * 8 + 13, 7, 0⟩
def CAN_NBT_SJW (i : Nat) : Fld := ⟨(0x320008 + 0x1000 * i) * 8 + 20, 7, 0⟩
def CAN_DBT_PRESC (i : Nat) : Fld := ⟨(0x32000c + 0x1000 * i) * 8 + 0, 5, 0⟩
def CAN_DBT_TSEG1 (i : Nat) : Fld := ⟨(0x32000c + 0x1000 * i) * 8 + 5, 5, 0⟩
def CAN_DBT_TSEG2 (i : Nat) : Fld := ⟨(0x32000c + 0x1000 * i) * 8 + 10, 5, 0⟩
def CAN_DBT_SJW (i : Nat) : Fld := ⟨(0x32000c + 0x1000 * i) * 8 + 15, 4, 0⟩
def CAN_DBT_TDC_EN (i : Nat) : Fld := ⟨(0x32000c + 0x1000 * i) * 8 + 19, 1, 0⟩
def CAN_DBT_TDC_OFS (i : Nat) : Fld := ⟨(0x32000c + 0x1000 * i) * 8 + 20, 7, 0⟩
def CAN_STAT_TXB_BUSY (i : Nat) : Fld := ⟨(0x320004 + 0x1000 * i) * 8 + 0, 1, 0⟩
def CAN_STAT_BUSOFF (i : Nat) : Fld := ⟨(0x320004 + 0x1000 * i) * 8 + 1, 1, 0⟩
def CAN_STAT_RX_DROP (i : Nat) : Fld := ⟨(0x320004 + 0x1000 * i) * 8 + 16, 16, 0⟩
def CAN_ERR_TEC (i : Nat) : Fld := ⟨(0x320010 + 0x1000 * i) * 8 + 0, 8, 0⟩
def CAN_ERR_REC (i : Nat) : Fld := ⟨(0x320010 + 0x1000 * i) * 8 + 8, 8, 0⟩
def CAN_ERR_MODE (i : Nat) : Fld := ⟨(0x320010 + 0x1000 * i) * 8 + 16, 2, 0⟩
def CAN_FILT_ID_ID (i : Nat) (j : Nat) : Fld := ⟨(0x320100 + 0x1000 * i + 0x8 * j) * 8 + 0, 29, 0⟩
def CAN_FILT_ID_IDE (i : Nat) (j : Nat) : Fld := ⟨(0x320100 + 0x1000 * i + 0x8 * j) * 8 + 29, 1, 0⟩
def CAN_FILT_ID_EN (i : Nat) (j : Nat) : Fld := ⟨(0x320100 + 0x1000 * i + 0x8 * j) * 8 + 30, 1, 0⟩
def CAN_FILT_MASK_MASK (i : Nat) (j : Nat) : Fld := ⟨(0x320104 + 0x1000 * i + 0x8 * j) * 8 + 0, 29, 0⟩
def CAN_TXB_ID_ID (i : Nat) (j : Nat) : Fld := ⟨(0x320400 + 0x1000 * i + 0x50 * j) * 8 + 0, 29, 0⟩
def CAN_TXB_ID_IDE (i : Nat) (j : Nat) : Fld := ⟨(0x320400 + 0x1000 * i + 0x50 * j) * 8 + 29, 1, 0⟩
def CAN_TXB_ID_RTR (i : Nat) (j : Nat) : Fld := ⟨(0x320400 + 0x1000 * i + 0x50 * j) * 8 + 30, 1, 0⟩
def CAN_TXB_CTL_DLC (i : Nat) (j : Nat) : Fld := ⟨(0x320404 + 0x1000 * i + 0x50 * j) * 8 + 0, 4, 0⟩
def CAN_TXB_CTL_FDF (i : Nat) (j : Nat) : Fld := ⟨(0x320404 + 0x1000 * i + 0x50 * j) * 8 + 4, 1, 0⟩
def CAN_TXB_CTL_BRS (i : Nat) (j : Nat) : Fld := ⟨(0x320404 + 0x1000 * i + 0x50 * j) * 8 + 5, 1, 0⟩
def CAN_TXB_DATA_DATA (i : Nat) (j : Nat) (k : Nat) : Fld := ⟨(0x320410 + 0x1000 * i + 0x50 * j + 0x4 * k) * 8 + 0, 32, 0⟩
def QBV_CTRL_EN (i : Nat) : Fld := ⟨(0x310600 + 0x1000 * i) * 8 + 0, 1, 0⟩
def QBV_CTRL_CHANGE (i : Nat) : Fld := ⟨(0x310600 + 0x1000 * i) * 8 + 1, 1, 0⟩
def QBV_BASE_LO_BASE (i : Nat) : Fld := ⟨(0x310604 + 0x1000 * i) * 8 + 0, 32, 0⟩
def QBV_BASE_HI_BASE (i : Nat) : Fld := ⟨(0x310608 + 0x1000 * i) * 8 + 0, 16, 0⟩
def QBV_CYCLE_CYCLE (i : Nat) : Fld := ⟨(0x31060c + 0x1000 * i) * 8 + 0, 30, 0⟩
def QBV_LEN_LEN (i : Nat) : Fld := ⟨(0x310610 + 0x1000 * i) * 8 + 0, 9, 0⟩
def EXPRESS_EXPRESS (i : Nat) : Fld := ⟨(0x310614 + 0x1000 * i) * 8 + 0, 8, 0⟩
def FP_CFG_ON (i : Nat) : Fld := ⟨(0x310618 + 0x1000 * i) * 8 + 0, 1, 0⟩
def FP_CFG_ADDFRAG (i : Nat) : Fld := ⟨(0x310618 + 0x1000 * i) * 8 + 1, 2, 0⟩
def FP_CFG_VDIS (i : Nat) : Fld := ⟨(0x310618 + 0x1000 * i) * 8 + 3, 1, 0⟩
def FP_CFG_VTIME (i : Nat) : Fld := ⟨(0x310618 + 0x1000 * i) * 8 + 8, 8, 0⟩
def QBV_STAT_OPER (i : Nat) : Fld := ⟨(0x31061c + 0x1000 * i) * 8 + 0, 1, 0⟩
def QBV_STAT_PENDING (i : Nat) : Fld := ⟨(0x31061c + 0x1000 * i) * 8 + 1, 1, 0⟩
def QBV_STAT_ENTRY (i : Nat) : Fld := ⟨(0x31061c + 0x1000 * i) * 8 + 3, 8, 0⟩
def QBV_STAT_CFG_ERR (i : Nat) : Fld := ⟨(0x31061c + 0x1000 * i) * 8 + 11, 1, 0⟩
def ETH_STAT_LINK (i : Nat) : Fld := ⟨(0x310004 + 0x1000 * i) * 8 + 0, 1, 0⟩
def ETH_STAT_SPEED (i : Nat) : Fld := ⟨(0x310004 + 0x1000 * i) * 8 + 1, 2, 0⟩
def ETH_STAT_REJ (i : Nat) : Fld := ⟨(0x310004 + 0x1000 * i) * 8 + 3, 1, 0⟩
def ETH_STAT_RX_BAD (i : Nat) : Fld := ⟨(0x310004 + 0x1000 * i) * 8 + 16, 16, 0⟩
def CSI_STAT_HS (i : Nat) : Fld := ⟨(0x330004 + 0x1000 * i) * 8 + 0, 1, 0⟩
def CSI_STAT_ECC_CORR (i : Nat) : Fld := ⟨(0x330004 + 0x1000 * i) * 8 + 1, 1, 0⟩
def CSI_STAT_ECC_DROP (i : Nat) : Fld := ⟨(0x330004 + 0x1000 * i) * 8 + 2, 1, 0⟩
def CSI_CNT_CORR (i : Nat) : Fld := ⟨(0x330008 + 0x1000 * i) * 8 + 0, 16, 0⟩
def CSI_CNT_DISC (i : Nat) : Fld := ⟨(0x330008 + 0x1000 * i) * 8 + 16, 16, 0⟩

/-! ### 05_tensor_tiles.md (R187) -/

def TILE_ID_PHYS (i : Nat) : Fld := ⟨(0x800000 + 0x10000 * i) * 8 + 0, 6, i⟩
def TILE_ID_ENABLED (i : Nat) : Fld := ⟨(0x800000 + 0x10000 * i) * 8 + 6, 1, 0⟩
def TILE_LOGICAL_LOGICAL (i : Nat) : Fld := ⟨(0x800004 + 0x10000 * i) * 8 + 0, 6, i⟩
def TILE_CTRL_FLAG_IRQ_EN (i : Nat) : Fld := ⟨(0x800008 + 0x10000 * i) * 8 + 0, 1, 0⟩
def TILE_CTRL_POISON_IRQ_EN (i : Nat) : Fld := ⟨(0x800008 + 0x10000 * i) * 8 + 1, 1, 0⟩
def TILE_FLAGS_INVALID (i : Nat) : Fld := ⟨(0x80000c + 0x10000 * i) * 8 + 0, 1, 0⟩
def TILE_FLAGS_DIVZERO (i : Nat) : Fld := ⟨(0x80000c + 0x10000 * i) * 8 + 1, 1, 0⟩
def TILE_FLAGS_OVERFLOW (i : Nat) : Fld := ⟨(0x80000c + 0x10000 * i) * 8 + 2, 1, 0⟩
def TILE_FLAGS_UNDERFLOW (i : Nat) : Fld := ⟨(0x80000c + 0x10000 * i) * 8 + 3, 1, 0⟩
def TILE_FLAGS_SAT_INT (i : Nat) : Fld := ⟨(0x80000c + 0x10000 * i) * 8 + 4, 1, 0⟩
def TILE_FLAG_LOG_CONTEXT (i : Nat) : Fld := ⟨(0x800010 + 0x10000 * i) * 8 + 0, 4, 0⟩
def TILE_FLAG_LOG_ROW (i : Nat) : Fld := ⟨(0x800010 + 0x10000 * i) * 8 + 4, 9, 0⟩
def TILE_FLAG_LOG_ENGINE (i : Nat) : Fld := ⟨(0x800010 + 0x10000 * i) * 8 + 13, 1, 0⟩
def TILE_FLAG_LOG_ITER (i : Nat) : Fld := ⟨(0x800010 + 0x10000 * i) * 8 + 14, 12, 0⟩
def TILE_FLAG_LOG_VALID (i : Nat) : Fld := ⟨(0x800010 + 0x10000 * i) * 8 + 31, 1, 0⟩
def TILE_MAC_BUSY_LO_CYCLES (i : Nat) : Fld := ⟨(0x800020 + 0x10000 * i) * 8 + 0, 32, 0⟩
def TILE_MAC_BUSY_HI_CYCLES (i : Nat) : Fld := ⟨(0x800024 + 0x10000 * i) * 8 + 0, 32, 0⟩
def TILE_VEC_BUSY_LO_CYCLES (i : Nat) : Fld := ⟨(0x800028 + 0x10000 * i) * 8 + 0, 32, 0⟩
def TILE_VEC_BUSY_HI_CYCLES (i : Nat) : Fld := ⟨(0x80002c + 0x10000 * i) * 8 + 0, 32, 0⟩
def TILE_CNT_CLR_CLR (i : Nat) : Fld := ⟨(0x800030 + 0x10000 * i) * 8 + 0, 1, 0⟩

/-! ### 06_selector.md (R203) -/

def SEL_CTRL_FLAG_IRQ_EN (i : Nat) : Fld := ⟨(0x800040 + 0x10000 * i) * 8 + 0, 1, 0⟩
def SEL_CTRL_CNT_CLR (i : Nat) : Fld := ⟨(0x800040 + 0x10000 * i) * 8 + 1, 1, 0⟩
def SEL_STAT_CHAIN_HELD (i : Nat) : Fld := ⟨(0x800044 + 0x10000 * i) * 8 + 0, 1, 0⟩
def SEL_STAT_HELD_CTX (i : Nat) : Fld := ⟨(0x800044 + 0x10000 * i) * 8 + 1, 4, 0⟩
def SEL_STAT_PORT_BUSY (i : Nat) : Fld := ⟨(0x800044 + 0x10000 * i) * 8 + 5, 1, 0⟩
def SEL_FLAGS_INVALID (i : Nat) : Fld := ⟨(0x800048 + 0x10000 * i) * 8 + 0, 1, 0⟩
def SEL_FLAGS_OVERFLOW (i : Nat) : Fld := ⟨(0x800048 + 0x10000 * i) * 8 + 1, 1, 0⟩
def SEL_FLAGS_NAN_SEEN (i : Nat) : Fld := ⟨(0x800048 + 0x10000 * i) * 8 + 2, 1, 0⟩
def SEL_PASSES_PASSES (i : Nat) : Fld := ⟨(0x80004c + 0x10000 * i) * 8 + 0, 32, 0⟩

/-! ### 07_reed_observers.md (R248) -/

def REED_CTRL_SEAL_GATE : Fld := ⟨(0x140000) * 8 + 0, 1, 0⟩
def REED_CTRL_IRQ_EN : Fld := ⟨(0x140000) * 8 + 1, 1, 0⟩
def REED_BUDGET_USED (i : Nat) : Fld := ⟨(0x140010 + 0x4 * i) * 8 + 0, 10, 0⟩
def REED_INST_CTRL_ENABLE (i : Nat) : Fld := ⟨(0x140100 + 0x40 * i) * 8 + 0, 1, 0⟩
def REED_INST_CTRL_AXIS (i : Nat) : Fld := ⟨(0x140100 + 0x40 * i) * 8 + 1, 4, 0⟩
def REED_INST_CTRL_SWAP_NOW (i : Nat) : Fld := ⟨(0x140100 + 0x40 * i) * 8 + 5, 1, 0⟩
def REED_INST_STAT_STATE (i : Nat) : Fld := ⟨(0x140104 + 0x40 * i) * 8 + 0, 2, 0⟩
def REED_INST_STAT_ACTIVE_BUF (i : Nat) : Fld := ⟨(0x140104 + 0x40 * i) * 8 + 2, 1, 0⟩
def REED_INST_STAT_STANDBY (i : Nat) : Fld := ⟨(0x140104 + 0x40 * i) * 8 + 3, 2, 0⟩
def REED_INST_STAT_SEAL_ERR (i : Nat) : Fld := ⟨(0x140104 + 0x40 * i) * 8 + 5, 4, 0⟩
def REED_INST_STAT_REJ (i : Nat) : Fld := ⟨(0x140104 + 0x40 * i) * 8 + 9, 1, 0⟩
def REED_INST_STAT_EVAL_CYCLES (i : Nat) : Fld := ⟨(0x140104 + 0x40 * i) * 8 + 10, 10, 0⟩
def REED_INST_STAT_SWAPS (i : Nat) : Fld := ⟨(0x140104 + 0x40 * i) * 8 + 20, 12, 0⟩
def REED_BUF_A_OFFSET (i : Nat) : Fld := ⟨(0x140108 + 0x40 * i) * 8 + 0, 19, 0⟩
def REED_BUF_B_OFFSET (i : Nat) : Fld := ⟨(0x14010c + 0x40 * i) * 8 + 0, 19, 0⟩
def REED_SEQ_SAMPLE (i : Nat) : Fld := ⟨(0x140110 + 0x40 * i) * 8 + 0, 16, 0⟩
def REED_SEQ_EXTRAP_CNT (i : Nat) : Fld := ⟨(0x140110 + 0x40 * i) * 8 + 16, 16, 0⟩
def REED_CNT_LIP_CNT (i : Nat) : Fld := ⟨(0x140114 + 0x40 * i) * 8 + 0, 16, 0⟩
def REED_CNT_SKIPPED (i : Nat) : Fld := ⟨(0x140114 + 0x40 * i) * 8 + 16, 16, 0⟩
def REED_APPROVE_CRC (i : Nat) : Fld := ⟨(0x140118 + 0x40 * i) * 8 + 0, 32, 0⟩
def REED_FLAGS_FLAGS0 (i : Nat) : Fld := ⟨(0x14011c + 0x40 * i) * 8 + 0, 4, 0⟩
def REED_FLAGS_FLAGS1 (i : Nat) : Fld := ⟨(0x14011c + 0x40 * i) * 8 + 4, 4, 0⟩
def REED_FLAGS_FLAGS2 (i : Nat) : Fld := ⟨(0x14011c + 0x40 * i) * 8 + 8, 4, 0⟩
def REED_FLAGS_FLAGS3 (i : Nat) : Fld := ⟨(0x14011c + 0x40 * i) * 8 + 12, 4, 0⟩
def REED_FLAGS_FLAGS4 (i : Nat) : Fld := ⟨(0x14011c + 0x40 * i) * 8 + 16, 4, 0⟩
def REED_FLAGS_FLAGS5 (i : Nat) : Fld := ⟨(0x14011c + 0x40 * i) * 8 + 20, 4, 0⟩
def REED_FLAGS_FLAGS6 (i : Nat) : Fld := ⟨(0x14011c + 0x40 * i) * 8 + 24, 4, 0⟩
def REED_FLAGS_FLAGS7 (i : Nat) : Fld := ⟨(0x14011c + 0x40 * i) * 8 + 28, 4, 0⟩
def REED_EST_VALUE (i : Nat) (j : Nat) : Fld := ⟨(0x140120 + 0x40 * i + 0x4 * j) * 8 + 0, 32, 0⟩
def REED_RAW_RAW (i : Nat) (j : Nat) : Fld := ⟨(0x144000 + 0x20 * i + 0x4 * j) * 8 + 0, 32, 0⟩

/-! ### 08_chanter_law.md (R282) -/

def CHN_CTRL_LANE0_EN : Fld := ⟨(0x120000) * 8 + 0, 1, 0⟩
def CHN_CTRL_LANE1_EN : Fld := ⟨(0x120000) * 8 + 1, 1, 0⟩
def CHN_CTRL_IRQ_EN : Fld := ⟨(0x120000) * 8 + 2, 1, 0⟩
def CHN_CTRL_CNT_CLR : Fld := ⟨(0x120000) * 8 + 3, 1, 0⟩
def CHN_STAT_LIST_REJ : Fld := ⟨(0x120004) * 8 + 0, 1, 0⟩
def CHN_STAT_DUAL_FAIL : Fld := ⟨(0x120004) * 8 + 1, 1, 0⟩
def CHN_STAT_SLOT_FAULT : Fld := ⟨(0x120004) * 8 + 2, 1, 0⟩
def CHN_CWQ_SEL_SLOT : Fld := ⟨(0x120010) * 8 + 0, 7, 0⟩
def CHN_CWQ_SEL_INDEX : Fld := ⟨(0x120010) * 8 + 7, 5, 0⟩
def CHN_CWQ_SEL_SHIFT : Fld := ⟨(0x120010) * 8 + 12, 6, 0⟩
def CHN_CWQ_VAL_VALUE : Fld := ⟨(0x120014) * 8 + 0, 32, 0⟩
def CHN_CWQ_CTRL_SLOT : Fld := ⟨(0x120018) * 8 + 0, 7, 0⟩
def CHN_CWQ_CTRL_FLUSH : Fld := ⟨(0x120018) * 8 + 7, 1, 0⟩
def CHN_CNT1_CW_REJ : Fld := ⟨(0x12001c) * 8 + 0, 16, 0⟩
def CHN_CNT1_FLUSHED : Fld := ⟨(0x12001c) * 8 + 16, 16, 0⟩
def CHN_CNT2_MERGED : Fld := ⟨(0x120020) * 8 + 0, 16, 0⟩
def CHN_CNT2_MBOX_REJ : Fld := ⟨(0x120020) * 8 + 16, 16, 0⟩
def CHN_DUAL_LOG_SLOT : Fld := ⟨(0x120024) * 8 + 0, 7, 0⟩
def CHN_DUAL_LOG_SAMPLE : Fld := ⟨(0x120024) * 8 + 7, 16, 0⟩
def CHN_DUAL_LOG_VALID : Fld := ⟨(0x120024) * 8 + 31, 1, 0⟩
def LANE0_LIST_ENTRIES (i : Nat) : Fld := ⟨(0x120100 + 0x4 * i) * 8 + 0, 32, 0⟩
def LANE1_LIST_ENTRIES (i : Nat) : Fld := ⟨(0x120180 + 0x4 * i) * 8 + 0, 32, 0⟩
def CHN_SLOT_CTRL_ENABLE (i : Nat) : Fld := ⟨(0x120400 + 0x4 * i) * 8 + 0, 1, 0⟩
def CHN_SLOT_STAT_STATE (i : Nat) : Fld := ⟨(0x120600 + 0x4 * i) * 8 + 0, 2, 0⟩
def CHN_SLOT_STAT_QLEVEL (i : Nat) : Fld := ⟨(0x120600 + 0x4 * i) * 8 + 2, 3, 0⟩
def CHN_SLOT_STAT_REJ (i : Nat) : Fld := ⟨(0x120600 + 0x4 * i) * 8 + 5, 1, 0⟩
def CHN_SLOT_STAT_CW_FULL (i : Nat) : Fld := ⟨(0x120600 + 0x4 * i) * 8 + 6, 1, 0⟩
def CHN_SLOT_STAT_CSEQ (i : Nat) : Fld := ⟨(0x120600 + 0x4 * i) * 8 + 16, 16, 0⟩

/-! ### 09_chanter_loops.md (R315) -/

def SP_CFG_ENABLE (i : Nat) : Fld := ⟨(0x120800 + 0x40 * i) * 8 + 0, 1, 0⟩
def SP_CFG_KIND (i : Nat) : Fld := ⟨(0x120800 + 0x40 * i) * 8 + 1, 2, 0⟩
def SP_CFG_INDEX (i : Nat) : Fld := ⟨(0x120800 + 0x40 * i) * 8 + 3, 7, 0⟩
def SP_CFG_DELTA (i : Nat) : Fld := ⟨(0x120800 + 0x40 * i) * 8 + 10, 1, 0⟩
def SP_CFG_LOSS (i : Nat) : Fld := ⟨(0x120800 + 0x40 * i) * 8 + 11, 1, 0⟩
def SP_CFG_SHIFT (i : Nat) : Fld := ⟨(0x120800 + 0x40 * i) * 8 + 12, 6, 0⟩
def SP_OFFSET_OFFSET (i : Nat) : Fld := ⟨(0x120804 + 0x40 * i) * 8 + 0, 32, 0⟩
def SP_MULT_MULT (i : Nat) : Fld := ⟨(0x120808 + 0x40 * i) * 8 + 0, 32, 0⟩
def SP_DB_DB (i : Nat) : Fld := ⟨(0x12080c + 0x40 * i) * 8 + 0, 31, 0⟩
def SP_MIN_MIN (i : Nat) : Fld := ⟨(0x120810 + 0x40 * i) * 8 + 0, 32, 0⟩
def SP_MAX_MAX (i : Nat) : Fld := ⟨(0x120814 + 0x40 * i) * 8 + 0, 32, 0⟩
def SP_RATE_RATE (i : Nat) : Fld := ⟨(0x120818 + 0x40 * i) * 8 + 0, 31, 0⟩
def SP_PERIOD_PERIOD (i : Nat) : Fld := ⟨(0x12081c + 0x40 * i) * 8 + 0, 24, 0⟩
def SP_PERIOD_HOST_TMO (i : Nat) : Fld := ⟨(0x12081c + 0x40 * i) * 8 + 24, 8, 0⟩
def SP_FAILVAL_FAILVAL (i : Nat) : Fld := ⟨(0x120820 + 0x40 * i) * 8 + 0, 32, 0⟩
def SP_HOST_VALUE (i : Nat) : Fld := ⟨(0x120824 + 0x40 * i) * 8 + 0, 32, 0⟩
def SP_OUT_OUT (i : Nat) : Fld := ⟨(0x120828 + 0x40 * i) * 8 + 0, 32, 0⟩
def SP_STAT_QUALITY (i : Nat) : Fld := ⟨(0x12082c + 0x40 * i) * 8 + 0, 2, 0⟩
def SP_STAT_LOST (i : Nat) : Fld := ⟨(0x12082c + 0x40 * i) * 8 + 2, 1, 0⟩
def SP_STAT_REJ (i : Nat) : Fld := ⟨(0x12082c + 0x40 * i) * 8 + 3, 1, 0⟩
def SP_STAT_IGN (i : Nat) : Fld := ⟨(0x12082c + 0x40 * i) * 8 + 16, 16, 0⟩
def INJ_GRP_CTRL_GO (i : Nat) : Fld := ⟨(0x121800 + 0x4 * i) * 8 + 0, 1, 0⟩
def INJ_GRP_CTRL_STOP (i : Nat) : Fld := ⟨(0x121800 + 0x4 * i) * 8 + 1, 1, 0⟩
def INJ_GRP_CTRL_ABORT (i : Nat) : Fld := ⟨(0x121800 + 0x4 * i) * 8 + 2, 1, 0⟩
def INJ_GRP_CTRL_ACTIVE (i : Nat) : Fld := ⟨(0x121800 + 0x4 * i) * 8 + 3, 1, 0⟩
def INJ_GRP_CTRL_SWEEP (i : Nat) : Fld := ⟨(0x121800 + 0x4 * i) * 8 + 4, 1, 0⟩
def INJ_GRP_CTRL_RESTART_IGN (i : Nat) : Fld := ⟨(0x121800 + 0x4 * i) * 8 + 16, 16, 0⟩
def CHN_INJ_PERMIT_PERMIT : Fld := ⟨(0x121840) * 8 + 0, 1, 0⟩
def INJ_CFG_SLOT (i : Nat) : Fld := ⟨(0x122000 + 0x20 * i) * 8 + 0, 7, 0⟩
def INJ_CFG_POINT (i : Nat) : Fld := ⟨(0x122000 + 0x20 * i) * 8 + 7, 2, 0⟩
def INJ_CFG_WAVE (i : Nat) : Fld := ⟨(0x122000 + 0x20 * i) * 8 + 9, 3, 0⟩
def INJ_CFG_GROUP (i : Nat) : Fld := ⟨(0x122000 + 0x20 * i) * 8 + 12, 3, 0⟩
def INJ_CFG_HOLD (i : Nat) : Fld := ⟨(0x122000 + 0x20 * i) * 8 + 16, 8, 0⟩
def INJ_AMP_AMP (i : Nat) : Fld := ⟨(0x122004 + 0x20 * i) * 8 + 0, 32, 0⟩
def INJ_DPHI_DPHI (i : Nat) : Fld := ⟨(0x122008 + 0x20 * i) * 8 + 0, 32, 0⟩
def INJ_DDPHI_DDPHI (i : Nat) : Fld := ⟨(0x12200c + 0x20 * i) * 8 + 0, 32, 0⟩
def INJ_LEN_LEN (i : Nat) : Fld := ⟨(0x122010 + 0x20 * i) * 8 + 0, 24, 0⟩
def INJ_DWELL_DWELL (i : Nat) : Fld := ⟨(0x122014 + 0x20 * i) * 8 + 0, 24, 0⟩
def INJ_STAT_ACTIVE (i : Nat) : Fld := ⟨(0x122018 + 0x20 * i) * 8 + 0, 1, 0⟩
def INJ_STAT_DONE (i : Nat) : Fld := ⟨(0x122018 + 0x20 * i) * 8 + 1, 1, 0⟩
def INJ_STAT_ABORTED (i : Nat) : Fld := ⟨(0x122018 + 0x20 * i) * 8 + 2, 1, 0⟩
def INJ_STAT_K (i : Nat) : Fld := ⟨(0x122018 + 0x20 * i) * 8 + 8, 24, 0⟩
def INJ_OUT_OUT (i : Nat) : Fld := ⟨(0x12201c + 0x20 * i) * 8 + 0, 32, 0⟩
def CAP_CFG_ENABLE (i : Nat) : Fld := ⟨(0x122400 + 0x40 * i) * 8 + 0, 1, 0⟩
def CAP_CFG_SLOT (i : Nat) : Fld := ⟨(0x122400 + 0x40 * i) * 8 + 1, 7, 0⟩
def CAP_CFG_DRONE (i : Nat) : Fld := ⟨(0x122400 + 0x40 * i) * 8 + 8, 4, 0⟩
def CAP_CFG_WRAP (i : Nat) : Fld := ⟨(0x122400 + 0x40 * i) * 8 + 12, 1, 0⟩
def CAP_CFG_INJ_GROUP (i : Nat) : Fld := ⟨(0x122400 + 0x40 * i) * 8 + 13, 3, 0⟩
def CAP_CFG_DEC (i : Nat) : Fld := ⟨(0x122400 + 0x40 * i) * 8 + 16, 8, 0⟩
def CAP_SIG_CODES (i : Nat) : Fld := ⟨(0x122404 + 0x40 * i) * 8 + 0, 32, 0⟩
def CAP_BASE_LO_BASE (i : Nat) : Fld := ⟨(0x122408 + 0x40 * i) * 8 + 6, 26, 0⟩
def CAP_BASE_HI_BASE (i : Nat) : Fld := ⟨(0x12240c + 0x40 * i) * 8 + 0, 16, 0⟩
def CAP_SIZE_SIZE (i : Nat) : Fld := ⟨(0x122410 + 0x40 * i) * 8 + 0, 21, 0⟩
def CAP_WR_WR (i : Nat) : Fld := ⟨(0x122414 + 0x40 * i) * 8 + 0, 20, 0⟩
def CAP_RD_RD (i : Nat) : Fld := ⟨(0x122418 + 0x40 * i) * 8 + 0, 20, 0⟩
def CAP_TOKEN_UNIT (i : Nat) : Fld := ⟨(0x12241c + 0x40 * i) * 8 + 0, 8, 0⟩
def CAP_TOKEN_CONTEXT (i : Nat) : Fld := ⟨(0x12241c + 0x40 * i) * 8 + 8, 4, 0⟩
def CAP_TOKEN_COUNTER (i : Nat) : Fld := ⟨(0x12241c + 0x40 * i) * 8 + 12, 4, 0⟩
def CAP_TOKEN_TOK_EN (i : Nat) : Fld := ⟨(0x12241c + 0x40 * i) * 8 + 16, 1, 0⟩
def CAP_TOKEN_EVERY (i : Nat) : Fld := ⟨(0x12241c + 0x40 * i) * 8 + 17, 11, 0⟩
def CAP_STAT_ACTIVE (i : Nat) : Fld := ⟨(0x122420 + 0x40 * i) * 8 + 0, 1, 0⟩
def CAP_STAT_FULL (i : Nat) : Fld := ⟨(0x122420 + 0x40 * i) * 8 + 1, 1, 0⟩
def CAP_STAT_WERR (i : Nat) : Fld := ⟨(0x122420 + 0x40 * i) * 8 + 2, 1, 0⟩
def CAP_STAT_REJ (i : Nat) : Fld := ⟨(0x122420 + 0x40 * i) * 8 + 3, 1, 0⟩
def CAP_STAT_LOST (i : Nat) : Fld := ⟨(0x122420 + 0x40 * i) * 8 + 16, 16, 0⟩
def CAP_SEQ_SEQ (i : Nat) : Fld := ⟨(0x122424 + 0x40 * i) * 8 + 0, 32, 0⟩

/-! ### 10_motor_axes.md (R355) -/

def AX_CTRL_AXIS_START (i : Nat) : Fld := ⟨(0x100000 + 0x1000 * i) * 8 + 0, 1, 0⟩
def AX_CTRL_STOP (i : Nat) : Fld := ⟨(0x100000 + 0x1000 * i) * 8 + 1, 1, 0⟩
def AX_CTRL_CLEAR (i : Nat) : Fld := ⟨(0x100000 + 0x1000 * i) * 8 + 2, 1, 0⟩
def AX_CTRL_PWM_EN (i : Nat) : Fld := ⟨(0x100000 + 0x1000 * i) * 8 + 3, 1, 0⟩
def AX_CTRL_DUTY_SRC (i : Nat) : Fld := ⟨(0x100000 + 0x1000 * i) * 8 + 4, 1, 0⟩
def AX_CTRL_HOIST (i : Nat) : Fld := ⟨(0x100000 + 0x1000 * i) * 8 + 5, 1, 0⟩
def AX_CTRL_DOWN_NEG (i : Nat) : Fld := ⟨(0x100000 + 0x1000 * i) * 8 + 6, 1, 0⟩
def AX_CTRL_HBRK_EN (i : Nat) : Fld := ⟨(0x100000 + 0x1000 * i) * 8 + 7, 1, 0⟩
def AX_CTRL_BCH_EN (i : Nat) : Fld := ⟨(0x100000 + 0x1000 * i) * 8 + 8, 1, 0⟩
def AX_CTRL_IRQ_EN (i : Nat) : Fld := ⟨(0x100000 + 0x1000 * i) * 8 + 9, 1, 0⟩
def AX_STAT_STATE (i : Nat) : Fld := ⟨(0x100004 + 0x1000 * i) * 8 + 0, 3, 0⟩
def AX_STAT_PHASE (i : Nat) : Fld := ⟨(0x100004 + 0x1000 * i) * 8 + 3, 3, 0⟩
def AX_STAT_CAUSE (i : Nat) : Fld := ⟨(0x100004 + 0x1000 * i) * 8 + 6, 4, 0⟩
def AX_STAT_SUBST (i : Nat) : Fld := ⟨(0x100004 + 0x1000 * i) * 8 + 10, 1, 0⟩
def AX_STAT_REJ (i : Nat) : Fld := ⟨(0x100004 + 0x1000 * i) * 8 + 11, 1, 0⟩
def AX_STAT_CATCH_FAIL (i : Nat) : Fld := ⟨(0x100004 + 0x1000 * i) * 8 + 12, 1, 0⟩
def AX_STAT_DUTY_SAT (i : Nat) : Fld := ⟨(0x100004 + 0x1000 * i) * 8 + 13, 1, 0⟩
def AX_STAT_DUTY_IGN (i : Nat) : Fld := ⟨(0x100004 + 0x1000 * i) * 8 + 14, 1, 0⟩
def AX_STAT_TORQUE_OK (i : Nat) : Fld := ⟨(0x100004 + 0x1000 * i) * 8 + 15, 1, 0⟩
def AX_PWM_HALF (i : Nat) : Fld := ⟨(0x100008 + 0x1000 * i) * 8 + 0, 16, 0⟩
def AX_PWM_UPDATE (i : Nat) : Fld := ⟨(0x100008 + 0x1000 * i) * 8 + 16, 1, 0⟩
def AX_DT_DT (i : Nat) : Fld := ⟨(0x10000c + 0x1000 * i) * 8 + 0, 12, 0⟩
def AX_DT_MINP (i : Nat) : Fld := ⟨(0x10000c + 0x1000 * i) * 8 + 16, 12, 0⟩
def AX_POL_POL (i : Nat) : Fld := ⟨(0x100010 + 0x1000 * i) * 8 + 0, 11, 0⟩
def AX_RESYNC_RESYNC (i : Nat) : Fld := ⟨(0x100014 + 0x1000 * i) * 8 + 0, 1, 0⟩
def AX_RESYNC_RS_POS (i : Nat) : Fld := ⟨(0x100014 + 0x1000 * i) * 8 + 4, 21, 0⟩
def AX_RESYNC2_RS_MAX (i : Nat) : Fld := ⟨(0x100018 + 0x1000 * i) * 8 + 0, 12, 0⟩
def AX_CMP_CMP (i : Nat) (j : Nat) : Fld := ⟨(0x100020 + 0x1000 * i + 0x4 * j) * 8 + 0, 20, 0⟩
def AX_SLOTS_D_SLOT (i : Nat) : Fld := ⟨(0x100030 + 0x1000 * i) * 8 + 0, 7, 0⟩
def AX_SLOTS_Q_SLOT (i : Nat) : Fld := ⟨(0x100030 + 0x1000 * i) * 8 + 8, 7, 0⟩
def AX_SLOTS_VEL_SLOT (i : Nat) : Fld := ⟨(0x100030 + 0x1000 * i) * 8 + 16, 7, 0⟩
def AX_SLOTS_VEL_EN (i : Nat) : Fld := ⟨(0x100030 + 0x1000 * i) * 8 + 23, 1, 0⟩
def AX_FB_DRONE (i : Nat) : Fld := ⟨(0x100034 + 0x1000 * i) * 8 + 0, 4, 0⟩
def AX_FB_SUB_DRONE (i : Nat) : Fld := ⟨(0x100034 + 0x1000 * i) * 8 + 4, 4, 0⟩
def AX_FB_PP (i : Nat) : Fld := ⟨(0x100034 + 0x1000 * i) * 8 + 8, 8, 0⟩
def AX_FB_SPD_SH (i : Nat) : Fld := ⟨(0x100034 + 0x1000 * i) * 8 + 16, 6, 0⟩
def AX_FB_SUB_EN (i : Nat) : Fld := ⟨(0x100034 + 0x1000 * i) * 8 + 22, 1, 0⟩
def AX_FB_ENC_FIFE (i : Nat) : Fld := ⟨(0x100034 + 0x1000 * i) * 8 + 23, 5, 0⟩
def AX_FB_FIFE_EN (i : Nat) : Fld := ⟨(0x100034 + 0x1000 * i) * 8 + 28, 1, 0⟩
def AX_FB_QERR_EN (i : Nat) : Fld := ⟨(0x100034 + 0x1000 * i) * 8 + 29, 1, 0⟩
def AX_ELEC_OFS_OFS (i : Nat) : Fld := ⟨(0x100038 + 0x1000 * i) * 8 + 0, 32, 0⟩
def AX_SREF_SRC_SRC (i : Nat) : Fld := ⟨(0x10003c + 0x1000 * i) * 8 + 0, 32, 0⟩
def AX_START_RATE_RATE (i : Nat) : Fld := ⟨(0x100040 + 0x1000 * i) * 8 + 0, 31, 0⟩
def AX_BRAKE_RATE_RATE (i : Nat) : Fld := ⟨(0x100044 + 0x1000 * i) * 8 + 0, 31, 0⟩
def AX_STOP_RATE_RATE (i : Nat) : Fld := ⟨(0x100048 + 0x1000 * i) * 8 + 0, 31, 0⟩
def AX_CATCH_THR_THR (i : Nat) : Fld := ⟨(0x10004c + 0x1000 * i) * 8 + 0, 32, 0⟩
def AX_CATCH_T_CATCH (i : Nat) : Fld := ⟨(0x100050 + 0x1000 * i) * 8 + 0, 8, 20⟩
def AX_CATCH_PROBE_W (i : Nat) : Fld := ⟨(0x100050 + 0x1000 * i) * 8 + 8, 11, 1600⟩
def AX_CATCH_CATCH_MODE (i : Nat) : Fld := ⟨(0x100050 + 0x1000 * i) * 8 + 19, 1, 0⟩
def AX_CATCH_LOAD_EN (i : Nat) : Fld := ⟨(0x100050 + 0x1000 * i) * 8 + 20, 1, 0⟩
def AX_CATCH_KE_SH (i : Nat) : Fld := ⟨(0x100050 + 0x1000 * i) * 8 + 21, 6, 0⟩
def AX_OBS_CATCH_INST (i : Nat) : Fld := ⟨(0x100054 + 0x1000 * i) * 8 + 0, 6, 0⟩
def AX_OBS_OBS_OUT (i : Nat) : Fld := ⟨(0x100054 + 0x1000 * i) * 8 + 6, 3, 0⟩
def AX_OBS_LOAD_INST (i : Nat) : Fld := ⟨(0x100054 + 0x1000 * i) * 8 + 9, 6, 0⟩
def AX_OBS_LOAD_OUT (i : Nat) : Fld := ⟨(0x100054 + 0x1000 * i) * 8 + 15, 3, 0⟩
def AX_OBS_SPD_INST (i : Nat) : Fld := ⟨(0x100054 + 0x1000 * i) * 8 + 18, 6, 0⟩
def AX_OBS_SPD_OUT (i : Nat) : Fld := ⟨(0x100054 + 0x1000 * i) * 8 + 24, 3, 0⟩
def AX_DET_N_FREEZE (i : Nat) : Fld := ⟨(0x100058 + 0x1000 * i) * 8 + 0, 8, 16⟩
def AX_DET_TSUB (i : Nat) : Fld := ⟨(0x100058 + 0x1000 * i) * 8 + 8, 10, 200⟩
def AX_DET_LATE_MAX (i : Nat) : Fld := ⟨(0x100058 + 0x1000 * i) * 8 + 18, 8, 4⟩
def AX_KE_KE (i : Nat) : Fld := ⟨(0x100060 + 0x1000 * i) * 8 + 0, 32, 0⟩
def AX_ILIM_I_MAX (i : Nat) : Fld := ⟨(0x100064 + 0x1000 * i) * 8 + 0, 32, 0⟩
def AX_IBRAKE_I_BRAKE (i : Nat) : Fld := ⟨(0x100068 + 0x1000 * i) * 8 + 0, 32, 0⟩
def AX_IMOVE_I_MOVE (i : Nat) : Fld := ⟨(0x10006c + 0x1000 * i) * 8 + 0, 32, 0⟩
def AX_WMOVE_W_MOVE (i : Nat) : Fld := ⟨(0x100070 + 0x1000 * i) * 8 + 0, 32, 0⟩
def AX_TQ_TOL_TQ_TOL (i : Nat) : Fld := ⟨(0x100074 + 0x1000 * i) * 8 + 0, 32, 0⟩
def AX_VBUS_MAX_VBUS_MAX (i : Nat) : Fld := ⟨(0x100078 + 0x1000 * i) * 8 + 0, 32, 0⟩
def AX_CH_ON_CH_ON (i : Nat) : Fld := ⟨(0x10007c + 0x1000 * i) * 8 + 0, 32, 0⟩
def AX_CH_OFF_CH_OFF (i : Nat) : Fld := ⟨(0x100080 + 0x1000 * i) * 8 + 0, 32, 0⟩
def AX_BRK_BRK_DELAY (i : Nat) : Fld := ⟨(0x100084 + 0x1000 * i) * 8 + 0, 24, 0⟩
def AX_BRK_TQ_N (i : Nat) : Fld := ⟨(0x100084 + 0x1000 * i) * 8 + 24, 8, 0⟩
def AX_ENC_ENC_MODE (i : Nat) : Fld := ⟨(0x100088 + 0x1000 * i) * 8 + 0, 2, 0⟩
def AX_ENC_FILT (i : Nat) : Fld := ⟨(0x100088 + 0x1000 * i) * 8 + 2, 8, 0⟩
def AX_ENC_IDX_CLR (i : Nat) : Fld := ⟨(0x100088 + 0x1000 * i) * 8 + 10, 2, 0⟩
def AX_ENC_IDX_ARM (i : Nat) : Fld := ⟨(0x100088 + 0x1000 * i) * 8 + 12, 1, 0⟩
def AX_ENC_IDX_VALID (i : Nat) : Fld := ⟨(0x100088 + 0x1000 * i) * 8 + 13, 1, 0⟩
def AX_ENC_VBUS_SEL (i : Nat) : Fld := ⟨(0x100088 + 0x1000 * i) * 8 + 14, 3, 0⟩
def AX_ENC_CNT_CNT (i : Nat) : Fld := ⟨(0x10008c + 0x1000 * i) * 8 + 0, 32, 0⟩
def AX_ENC_IDX_IDX (i : Nat) : Fld := ⟨(0x100090 + 0x1000 * i) * 8 + 0, 32, 0⟩
def AX_CNT1_LATE_WRITE (i : Nat) : Fld := ⟨(0x100094 + 0x1000 * i) * 8 + 0, 16, 0⟩
def AX_CNT1_LATE_UPDATE (i : Nat) : Fld := ⟨(0x100094 + 0x1000 * i) * 8 + 16, 16, 0⟩
def AX_CNT2_OC_TRIPS (i : Nat) : Fld := ⟨(0x100098 + 0x1000 * i) * 8 + 0, 16, 0⟩
def AX_CNT2_QERR (i : Nat) : Fld := ⟨(0x100098 + 0x1000 * i) * 8 + 16, 16, 0⟩
def AX_TOK_UNIT (i : Nat) (j : Nat) : Fld := ⟨(0x1000a0 + 0x1000 * i + 0x4 * j) * 8 + 0, 8, 0⟩
def AX_TOK_CONTEXT (i : Nat) (j : Nat) : Fld := ⟨(0x1000a0 + 0x1000 * i + 0x4 * j) * 8 + 8, 4, 0⟩
def AX_TOK_COUNTER (i : Nat) (j : Nat) : Fld := ⟨(0x1000a0 + 0x1000 * i + 0x4 * j) * 8 + 12, 4, 0⟩
def AX_TOK_EN (i : Nat) (j : Nat) : Fld := ⟨(0x1000a0 + 0x1000 * i + 0x4 * j) * 8 + 16, 1, 0⟩
def AX_FRAME_ITEM (i : Nat) (j : Nat) : Fld := ⟨(0x100100 + 0x1000 * i + 0x4 * j) * 8 + 0, 32, 0⟩
def SD_CFG_MODE (i : Nat) : Fld := ⟨(0x10c000 + 0x20 * i) * 8 + 0, 2, 0⟩
def SD_CFG_OSR (i : Nat) : Fld := ⟨(0x10c000 + 0x20 * i) * 8 + 2, 3, 0⟩
def SD_CFG_WSH (i : Nat) : Fld := ⟨(0x10c000 + 0x20 * i) * 8 + 5, 5, 0⟩
def SD_CFG_DIV (i : Nat) : Fld := ⟨(0x10c000 + 0x20 * i) * 8 + 10, 9, 0⟩
def SD_CFG_SDLY (i : Nat) : Fld := ⟨(0x10c000 + 0x20 * i) * 8 + 19, 4, 0⟩
def SD_CFG_AXIS (i : Nat) : Fld := ⟨(0x10c000 + 0x20 * i) * 8 + 23, 4, 0⟩
def SD_CFG_OSR_F (i : Nat) : Fld := ⟨(0x10c000 + 0x20 * i) * 8 + 27, 3, 0⟩
def SD_MON_DENS_LIM (i : Nat) : Fld := ⟨(0x10c004 + 0x20 * i) * 8 + 0, 10, 16⟩
def SD_MON_OC_THR (i : Nat) : Fld := ⟨(0x10c004 + 0x20 * i) * 8 + 10, 11, 0⟩
def SD_MON_OC_CNT (i : Nat) : Fld := ⟨(0x10c004 + 0x20 * i) * 8 + 21, 4, 0⟩
def SD_WORD_WORD (i : Nat) : Fld := ⟨(0x10c008 + 0x20 * i) * 8 + 0, 32, 0⟩
def SD_STAT_ACT_FAULT (i : Nat) : Fld := ⟨(0x10c00c + 0x20 * i) * 8 + 0, 1, 0⟩
def SD_STAT_DENS_FAULT (i : Nat) : Fld := ⟨(0x10c00c + 0x20 * i) * 8 + 1, 1, 0⟩
def SD_STAT_FAULTED (i : Nat) : Fld := ⟨(0x10c00c + 0x20 * i) * 8 + 2, 1, 0⟩
def AX_SYNC_GO_GO : Fld := ⟨(0x10f000) * 8 + 0, 12, 0⟩

/-! ### 11_phase_cut.md (R386) -/

def PCM_CTRL_EN (i : Nat) : Fld := ⟨(0x160000 + 0x40 * i) * 8 + 0, 1, 0⟩
def PCM_CTRL_DRONE (i : Nat) : Fld := ⟨(0x160000 + 0x40 * i) * 8 + 1, 4, 0⟩
def PCM_CTRL_IRQ_EN (i : Nat) : Fld := ⟨(0x160000 + 0x40 * i) * 8 + 5, 1, 0⟩
def PCM_ZC_FILT (i : Nat) : Fld := ⟨(0x160004 + 0x40 * i) * 8 + 0, 12, 0⟩
def PCM_ZC_SKEW (i : Nat) : Fld := ⟨(0x160004 + 0x40 * i) * 8 + 16, 12, 0⟩
def PCM_WIN_WIN (i : Nat) : Fld := ⟨(0x160008 + 0x40 * i) * 8 + 0, 16, 0⟩
def PCM_WIN_FLY_MAX (i : Nat) : Fld := ⟨(0x160008 + 0x40 * i) * 8 + 16, 3, 4⟩
def PCM_STAT_STATE (i : Nat) : Fld := ⟨(0x16000c + 0x40 * i) * 8 + 0, 2, 0⟩
def PCM_STAT_FREQ_OK (i : Nat) : Fld := ⟨(0x16000c + 0x40 * i) * 8 + 2, 1, 0⟩
def PCM_STAT_MISS (i : Nat) : Fld := ⟨(0x16000c + 0x40 * i) * 8 + 3, 3, 0⟩
def PCM_STAT_ZC_LOST (i : Nat) : Fld := ⟨(0x16000c + 0x40 * i) * 8 + 6, 1, 0⟩
def PCM_STAT_REJ (i : Nat) : Fld := ⟨(0x16000c + 0x40 * i) * 8 + 7, 1, 0⟩
def PCM_CNT_ZC_REJ (i : Nat) : Fld := ⟨(0x160010 + 0x40 * i) * 8 + 0, 16, 0⟩
def PCM_CNT_ZC_MISSED (i : Nat) : Fld := ⟨(0x160010 + 0x40 * i) * 8 + 16, 16, 0⟩
def PCM_PERIOD_PERIOD (i : Nat) : Fld := ⟨(0x160014 + 0x40 * i) * 8 + 0, 24, 0⟩
def PC_CTRL_ENABLE (i : Nat) : Fld := ⟨(0x160100 + 0x80 * i) * 8 + 0, 1, 0⟩
def PC_CTRL_RESTART (i : Nat) : Fld := ⟨(0x160100 + 0x80 * i) * 8 + 1, 1, 0⟩
def PC_CTRL_CLEAR (i : Nat) : Fld := ⟨(0x160100 + 0x80 * i) * 8 + 2, 1, 0⟩
def PC_CTRL_IRQ_EN (i : Nat) : Fld := ⟨(0x160100 + 0x80 * i) * 8 + 3, 1, 0⟩
def PC_CTRL_REF (i : Nat) : Fld := ⟨(0x160100 + 0x80 * i) * 8 + 4, 1, 0⟩
def PC_CTRL_MODE (i : Nat) : Fld := ⟨(0x160100 + 0x80 * i) * 8 + 5, 3, 0⟩
def PC_CTRL_DRV (i : Nat) : Fld := ⟨(0x160100 + 0x80 * i) * 8 + 8, 1, 0⟩
def PC_CTRL_LOAD (i : Nat) : Fld := ⟨(0x160100 + 0x80 * i) * 8 + 9, 2, 0⟩
def PC_CTRL_QUIET (i : Nat) : Fld := ⟨(0x160100 + 0x80 * i) * 8 + 11, 1, 0⟩
def PC_CTRL_DITHER (i : Nat) : Fld := ⟨(0x160100 + 0x80 * i) * 8 + 12, 1, 0⟩
def PC_CTRL_STROBE (i : Nat) : Fld := ⟨(0x160100 + 0x80 * i) * 8 + 13, 1, 0⟩
def PC_CTRL_AUTO_RESUME (i : Nat) : Fld := ⟨(0x160100 + 0x80 * i) * 8 + 14, 1, 0⟩
def PC_CTRL_POL (i : Nat) : Fld := ⟨(0x160100 + 0x80 * i) * 8 + 15, 1, 0⟩
def PC_SRC_SEL (i : Nat) : Fld := ⟨(0x160104 + 0x80 * i) * 8 + 0, 16, 0⟩
def PC_SRC_REG (i : Nat) : Fld := ⟨(0x160104 + 0x80 * i) * 8 + 16, 1, 0⟩
def PC_CMD_CMD (i : Nat) : Fld := ⟨(0x160108 + 0x80 * i) * 8 + 0, 16, 0⟩
def PC_LIM_C_MIN (i : Nat) : Fld := ⟨(0x16010c + 0x80 * i) * 8 + 0, 16, 0⟩
def PC_LIM_C_MAX (i : Nat) : Fld := ⟨(0x16010c + 0x80 * i) * 8 + 16, 16, 0⟩
def PC_GUARD_ON_MIN (i : Nat) : Fld := ⟨(0x160110 + 0x80 * i) * 8 + 0, 16, 0⟩
def PC_GUARD_END_GUARD (i : Nat) : Fld := ⟨(0x160110 + 0x80 * i) * 8 + 16, 16, 0⟩
def PC_RATE_SLEW (i : Nat) : Fld := ⟨(0x160114 + 0x80 * i) * 8 + 0, 16, 0⟩
def PC_RATE_SOFT (i : Nat) : Fld := ⟨(0x160114 + 0x80 * i) * 8 + 16, 16, 0⟩
def PC_QUIET_QW (i : Nat) : Fld := ⟨(0x160118 + 0x80 * i) * 8 + 0, 16, 0⟩
def PC_QUIET_SLOPE (i : Nat) : Fld := ⟨(0x160118 + 0x80 * i) * 8 + 16, 3, 0⟩
def PC_QUIET_SLOPE_Q (i : Nat) : Fld := ⟨(0x160118 + 0x80 * i) * 8 + 20, 3, 0⟩
def PC_PULSE_PW (i : Nat) : Fld := ⟨(0x16011c + 0x80 * i) * 8 + 0, 16, 0⟩
def PC_PULSE_RT_PER (i : Nat) : Fld := ⟨(0x16011c + 0x80 * i) * 8 + 16, 16, 0⟩
def PC_TRAIN_LATCH_T (i : Nat) : Fld := ⟨(0x160120 + 0x80 * i) * 8 + 0, 16, 0⟩
def PC_TRAIN_RT_MAX (i : Nat) : Fld := ⟨(0x160120 + 0x80 * i) * 8 + 16, 8, 0⟩
def PC_DIAG_C_DIAG (i : Nat) : Fld := ⟨(0x160124 + 0x80 * i) * 8 + 0, 16, 0⟩
def PC_DIAG_OPEN_N (i : Nat) : Fld := ⟨(0x160124 + 0x80 * i) * 8 + 16, 4, 0⟩
def PC_DIAG_SHORT_N (i : Nat) : Fld := ⟨(0x160124 + 0x80 * i) * 8 + 20, 4, 0⟩
def PC_DIAG_ISGN_T (i : Nat) : Fld := ⟨(0x160124 + 0x80 * i) * 8 + 24, 8, 0⟩
def PC_SYM_SYM_TOL (i : Nat) : Fld := ⟨(0x160128 + 0x80 * i) * 8 + 0, 16, 0⟩
def PC_SYM_SYM_N (i : Nat) : Fld := ⟨(0x160128 + 0x80 * i) * 8 + 16, 4, 0⟩
def PC_LOAD_LAG_THR (i : Nat) : Fld := ⟨(0x16012c + 0x80 * i) * 8 + 0, 16, 0⟩
def PC_STAT_STATE (i : Nat) : Fld := ⟨(0x160130 + 0x80 * i) * 8 + 0, 3, 0⟩
def PC_STAT_CAUSE (i : Nat) : Fld := ⟨(0x160130 + 0x80 * i) * 8 + 3, 4, 0⟩
def PC_STAT_IND_DET (i : Nat) : Fld := ⟨(0x160130 + 0x80 * i) * 8 + 7, 1, 0⟩
def PC_STAT_SOFT_ACT (i : Nat) : Fld := ⟨(0x160130 + 0x80 * i) * 8 + 8, 1, 0⟩
def PC_STAT_REJ (i : Nat) : Fld := ⟨(0x160130 + 0x80 * i) * 8 + 9, 1, 0⟩
def PC_STAT_C_NOW (i : Nat) : Fld := ⟨(0x160130 + 0x80 * i) * 8 + 16, 16, 0⟩
def PC_MEAS_LAG_POS (i : Nat) : Fld := ⟨(0x160134 + 0x80 * i) * 8 + 0, 16, 0⟩
def PC_MEAS_LAG_NEG (i : Nat) : Fld := ⟨(0x160134 + 0x80 * i) * 8 + 16, 16, 0⟩
def PC_CNT1_RETRIG (i : Nat) : Fld := ⟨(0x160138 + 0x80 * i) * 8 + 0, 16, 0⟩
def PC_CNT1_NOCOND (i : Nat) : Fld := ⟨(0x160138 + 0x80 * i) * 8 + 16, 16, 0⟩
def PC_CNT2_QUIET_ACT (i : Nat) : Fld := ⟨(0x16013c + 0x80 * i) * 8 + 0, 16, 0⟩
def PC_CNT2_LATE_CMD (i : Nat) : Fld := ⟨(0x16013c + 0x80 * i) * 8 + 16, 16, 0⟩
def PC_CNT3_EV_REJ (i : Nat) : Fld := ⟨(0x160140 + 0x80 * i) * 8 + 0, 16, 0⟩

/-! ### 12_light_links.md (R417) -/

def LL_GCTRL_CNT_CLR : Fld := ⟨(0x170000) * 8 + 0, 1, 0⟩
def LC_T0_T0 (i : Nat) : Fld := ⟨(0x170100 + 0x40 * i) * 8 + 0, 9, 0⟩
def LC_T0_STEP (i : Nat) : Fld := ⟨(0x170100 + 0x40 * i) * 8 + 16, 6, 0⟩
def LC_GAIN_G (i : Nat) (j : Nat) : Fld := ⟨(0x170104 + 0x40 * i + 0x4 * j) * 8 + 0, 16, 0⟩
def LL_CTRL_EN (i : Nat) : Fld := ⟨(0x171000 + 0x3000 * i) * 8 + 0, 1, 0⟩
def LL_CTRL_D (i : Nat) : Fld := ⟨(0x171000 + 0x3000 * i) * 8 + 1, 7, 0⟩
def LL_CTRL_LATCH_SRC (i : Nat) : Fld := ⟨(0x171000 + 0x3000 * i) * 8 + 8, 2, 0⟩
def LL_CTRL_SCAN (i : Nat) : Fld := ⟨(0x171000 + 0x3000 * i) * 8 + 10, 1, 0⟩
def LL_CTRL_POLL (i : Nat) : Fld := ⟨(0x171000 + 0x3000 * i) * 8 + 11, 1, 0⟩
def LL_CTRL_IRQ_EN (i : Nat) : Fld := ⟨(0x171000 + 0x3000 * i) * 8 + 12, 1, 0⟩
def LL_CTRL_SAFE_REP (i : Nat) : Fld := ⟨(0x171000 + 0x3000 * i) * 8 + 13, 1, 0⟩
def LL_CTRL_NDRV (i : Nat) : Fld := ⟨(0x171000 + 0x3000 * i) * 8 + 16, 4, 0⟩
def LL_CTRL_LINES (i : Nat) : Fld := ⟨(0x171000 + 0x3000 * i) * 8 + 20, 4, 0⟩
def LL_PERIOD_PERIOD (i : Nat) : Fld := ⟨(0x171004 + 0x3000 * i) * 8 + 0, 24, 0⟩
def LL_BLANK_T_BLANK (i : Nat) : Fld := ⟨(0x171008 + 0x3000 * i) * 8 + 0, 16, 0⟩
def LL_THERM_TEMP_SRC (i : Nat) : Fld := ⟨(0x17100c + 0x3000 * i) * 8 + 0, 16, 0⟩
def LL_DERATE_DR_SLOPE (i : Nat) : Fld := ⟨(0x171010 + 0x3000 * i) * 8 + 0, 16, 0⟩
def LL_DERATE_DR_MIN (i : Nat) : Fld := ⟨(0x171010 + 0x3000 * i) * 8 + 16, 16, 0⟩
def LL_KNEE_KNEE (i : Nat) : Fld := ⟨(0x171014 + 0x3000 * i) * 8 + 0, 9, 0⟩
def LL_DIAG_DIAG_THR (i : Nat) : Fld := ⟨(0x171018 + 0x3000 * i) * 8 + 0, 16, 0⟩
def LL_DIAG_DIAG_MIN (i : Nat) : Fld := ⟨(0x171018 + 0x3000 * i) * 8 + 16, 16, 0⟩
def LL_DIAG2_DIAG_PER (i : Nat) : Fld := ⟨(0x17101c + 0x3000 * i) * 8 + 0, 8, 0⟩
def LL_STAT_STATE (i : Nat) : Fld := ⟨(0x171020 + 0x3000 * i) * 8 + 0, 2, 0⟩
def LL_STAT_REJ (i : Nat) : Fld := ⟨(0x171020 + 0x3000 * i) * 8 + 2, 1, 0⟩
def LL_STAT_FLT (i : Nat) : Fld := ⟨(0x171020 + 0x3000 * i) * 8 + 3, 1, 0⟩
def LL_STAT_CLASS_ERR (i : Nat) : Fld := ⟨(0x171020 + 0x3000 * i) * 8 + 4, 1, 0⟩
def LL_CNT1_LATE_REFRESH (i : Nat) : Fld := ⟨(0x171024 + 0x3000 * i) * 8 + 0, 16, 0⟩
def LL_CNT1_RSP_CRC (i : Nat) : Fld := ⟨(0x171024 + 0x3000 * i) * 8 + 16, 16, 0⟩
def LL_CNT2_EV_EARLY (i : Nat) : Fld := ⟨(0x171028 + 0x3000 * i) * 8 + 0, 16, 0⟩
def LL_CNT2_UPDATES (i : Nat) : Fld := ⟨(0x171028 + 0x3000 * i) * 8 + 16, 16, 0⟩
def LD_CFG_EN (i : Nat) (j : Nat) : Fld := ⟨(0x171100 + 0x3000 * i + 0x10 * j) * 8 + 0, 1, 0⟩
def LD_CFG_CLASS (i : Nat) (j : Nat) : Fld := ⟨(0x171100 + 0x3000 * i + 0x10 * j) * 8 + 1, 1, 0⟩
def LD_CFG_PB (i : Nat) (j : Nat) : Fld := ⟨(0x171100 + 0x3000 * i + 0x10 * j) * 8 + 2, 4, 0⟩
def LD_CFG_WD (i : Nat) (j : Nat) : Fld := ⟨(0x171100 + 0x3000 * i + 0x10 * j) * 8 + 8, 8, 0⟩
def LD_CFG_GCUR_BASE (i : Nat) (j : Nat) : Fld := ⟨(0x171100 + 0x3000 * i + 0x10 * j) * 8 + 16, 8, 0⟩
def LD_STAT_NO_RESP (i : Nat) (j : Nat) : Fld := ⟨(0x171104 + 0x3000 * i + 0x10 * j) * 8 + 0, 1, 0⟩
def LD_STAT_DRV_HOT (i : Nat) (j : Nat) : Fld := ⟨(0x171104 + 0x3000 * i + 0x10 * j) * 8 + 1, 1, 0⟩
def LD_STAT_WD (i : Nat) (j : Nat) : Fld := ⟨(0x171104 + 0x3000 * i + 0x10 * j) * 8 + 2, 1, 0⟩
def LD_STAT_ID (i : Nat) (j : Nat) : Fld := ⟨(0x171104 + 0x3000 * i + 0x10 * j) * 8 + 16, 16, 0⟩
def LD_CNT_FAILED_FR (i : Nat) (j : Nat) : Fld := ⟨(0x171108 + 0x3000 * i + 0x10 * j) * 8 + 0, 16, 0⟩
def LC_CFG_EN (i : Nat) (j : Nat) : Fld := ⟨(0x172000 + 0x3000 * i + 0x20 * j) * 8 + 0, 1, 0⟩
def LC_CFG_GROUP (i : Nat) (j : Nat) : Fld := ⟨(0x172000 + 0x3000 * i + 0x20 * j) * 8 + 1, 3, 0⟩
def LC_CFG_PERCEPTUAL (i : Nat) (j : Nat) : Fld := ⟨(0x172000 + 0x3000 * i + 0x20 * j) * 8 + 4, 1, 0⟩
def LC_CFG_REG (i : Nat) (j : Nat) : Fld := ⟨(0x172000 + 0x3000 * i + 0x20 * j) * 8 + 5, 1, 0⟩
def LC_CFG_DIAG_ZERO (i : Nat) (j : Nat) : Fld := ⟨(0x172000 + 0x3000 * i + 0x20 * j) * 8 + 6, 1, 0⟩
def LC_CFG_FLT_OFF (i : Nat) (j : Nat) : Fld := ⟨(0x172000 + 0x3000 * i + 0x20 * j) * 8 + 7, 1, 0⟩
def LC_CFG_DOT (i : Nat) (j : Nat) : Fld := ⟨(0x172000 + 0x3000 * i + 0x20 * j) * 8 + 16, 12, 0⟩
def LC_SRC_SEL (i : Nat) (j : Nat) : Fld := ⟨(0x172004 + 0x3000 * i + 0x20 * j) * 8 + 0, 16, 0⟩
def LC_LEVEL_LEVEL (i : Nat) (j : Nat) : Fld := ⟨(0x172008 + 0x3000 * i + 0x20 * j) * 8 + 0, 16, 0⟩
def LC_LEVEL_FADE_N (i : Nat) (j : Nat) : Fld := ⟨(0x172008 + 0x3000 * i + 0x20 * j) * 8 + 16, 16, 0⟩
def LC_SAFE_SAFE_L (i : Nat) (j : Nat) : Fld := ⟨(0x17200c + 0x3000 * i + 0x20 * j) * 8 + 0, 16, 0⟩
def LC_STAT_OUT (i : Nat) (j : Nat) : Fld := ⟨(0x172010 + 0x3000 * i + 0x20 * j) * 8 + 0, 16, 0⟩
def LC_STAT_OPEN (i : Nat) (j : Nat) : Fld := ⟨(0x172010 + 0x3000 * i + 0x20 * j) * 8 + 16, 1, 0⟩
def LC_STAT_SHORT (i : Nat) (j : Nat) : Fld := ⟨(0x172010 + 0x3000 * i + 0x20 * j) * 8 + 17, 1, 0⟩
def LC_STAT_FADING (i : Nat) (j : Nat) : Fld := ⟨(0x172010 + 0x3000 * i + 0x20 * j) * 8 + 18, 1, 0⟩
def LC_STAT_DIAG_PEND (i : Nat) (j : Nat) : Fld := ⟨(0x172010 + 0x3000 * i + 0x20 * j) * 8 + 19, 1, 0⟩
def LC_STAT_UNTESTED (i : Nat) (j : Nat) : Fld := ⟨(0x172010 + 0x3000 * i + 0x20 * j) * 8 + 20, 1, 0⟩

/-! ### 13_fife_engines.md (R448) -/

def FE_CTRL_EN (i : Nat) : Fld := ⟨(0x180000 + 0x200 * i) * 8 + 0, 1, 0⟩
def FE_CTRL_HALT (i : Nat) : Fld := ⟨(0x180000 + 0x200 * i) * 8 + 1, 1, 0⟩
def FE_CTRL_STEP (i : Nat) : Fld := ⟨(0x180000 + 0x200 * i) * 8 + 2, 1, 0⟩
def FE_CTRL_IRQ_EN (i : Nat) : Fld := ⟨(0x180000 + 0x200 * i) * 8 + 3, 1, 0⟩
def FE_CTRL_SAFE_HALT (i : Nat) : Fld := ⟨(0x180000 + 0x200 * i) * 8 + 4, 1, 0⟩
def FE_CTRL_INJ_FORCE (i : Nat) : Fld := ⟨(0x180000 + 0x200 * i) * 8 + 5, 1, 0⟩
def FE_CLK_DIV (i : Nat) : Fld := ⟨(0x180004 + 0x200 * i) * 8 + 0, 16, 2⟩
def FE_WIN_WBASE (i : Nat) : Fld := ⟨(0x180008 + 0x200 * i) * 8 + 0, 7, 0⟩
def FE_SHAPE_CAP_ORDER (i : Nat) : Fld := ⟨(0x18000c + 0x200 * i) * 8 + 0, 1, 0⟩
def FE_SHAPE_EMT_ORDER (i : Nat) : Fld := ⟨(0x18000c + 0x200 * i) * 8 + 1, 1, 0⟩
def FE_SHAPE_CAP_LIM (i : Nat) : Fld := ⟨(0x18000c + 0x200 * i) * 8 + 8, 5, 0⟩
def FE_SHAPE_EMT_LIM (i : Nat) : Fld := ⟨(0x18000c + 0x200 * i) * 8 + 16, 5, 0⟩
def FE_CRC_CRC_POLY (i : Nat) : Fld := ⟨(0x180010 + 0x200 * i) * 8 + 0, 16, 0⟩
def FE_CRC_CRC_W (i : Nat) : Fld := ⟨(0x180010 + 0x200 * i) * 8 + 16, 4, 0⟩
def FE_CRC2_CRC_INIT (i : Nat) : Fld := ⟨(0x180014 + 0x200 * i) * 8 + 0, 16, 0⟩
def FE_CRC2_CRC_CHK (i : Nat) : Fld := ⟨(0x180014 + 0x200 * i) * 8 + 16, 16, 0⟩
def FE_PC_PC (i : Nat) : Fld := ⟨(0x180018 + 0x200 * i) * 8 + 0, 5, 0⟩
def FE_STAT_STATE (i : Nat) : Fld := ⟨(0x18001c + 0x200 * i) * 8 + 0, 2, 0⟩
def FE_STAT_STALL (i : Nat) : Fld := ⟨(0x18001c + 0x200 * i) * 8 + 2, 2, 0⟩
def FE_STAT_CAUSE (i : Nat) : Fld := ⟨(0x18001c + 0x200 * i) * 8 + 4, 3, 0⟩
def FE_STAT_STALE (i : Nat) : Fld := ⟨(0x18001c + 0x200 * i) * 8 + 7, 1, 0⟩
def FE_STAT_ENC_ERR (i : Nat) : Fld := ⟨(0x18001c + 0x200 * i) * 8 + 8, 1, 0⟩
def FE_STAT_ERR_SEEN (i : Nat) : Fld := ⟨(0x18001c + 0x200 * i) * 8 + 9, 1, 0⟩
def FE_STAT_IRQ (i : Nat) : Fld := ⟨(0x18001c + 0x200 * i) * 8 + 10, 1, 0⟩
def FE_STAT_TMO (i : Nat) : Fld := ⟨(0x18001c + 0x200 * i) * 8 + 11, 1, 0⟩
def FE_STAT_INJ_PEND (i : Nat) : Fld := ⟨(0x18001c + 0x200 * i) * 8 + 12, 1, 0⟩
def FE_STAT_INJ_OVF (i : Nat) : Fld := ⟨(0x18001c + 0x200 * i) * 8 + 13, 1, 0⟩
def FE_STAT_TX_OVF (i : Nat) : Fld := ⟨(0x18001c + 0x200 * i) * 8 + 14, 1, 0⟩
def FE_STAT_RX_UF (i : Nat) : Fld := ⟨(0x18001c + 0x200 * i) * 8 + 15, 1, 0⟩
def FE_STAT_TX_LVL (i : Nat) : Fld := ⟨(0x18001c + 0x200 * i) * 8 + 16, 4, 0⟩
def FE_STAT_RX_LVL (i : Nat) : Fld := ⟨(0x18001c + 0x200 * i) * 8 + 20, 4, 0⟩
def FE_STAT_TLATE (i : Nat) : Fld := ⟨(0x18001c + 0x200 * i) * 8 + 24, 1, 0⟩
def FE_TX_DATA (i : Nat) : Fld := ⟨(0x180020 + 0x200 * i) * 8 + 0, 32, 0⟩
def FE_RX_DATA (i : Nat) : Fld := ⟨(0x180024 + 0x200 * i) * 8 + 0, 32, 0⟩
def FE_INJ_WORD (i : Nat) : Fld := ⟨(0x180028 + 0x200 * i) * 8 + 0, 32, 0⟩
def FE_TOK_UNIT (i : Nat) : Fld := ⟨(0x18002c + 0x200 * i) * 8 + 0, 8, 0⟩
def FE_TOK_CONTEXT (i : Nat) : Fld := ⟨(0x18002c + 0x200 * i) * 8 + 8, 4, 0⟩
def FE_TOK_COUNTER (i : Nat) : Fld := ⟨(0x18002c + 0x200 * i) * 8 + 12, 4, 0⟩
def FE_TOK_EN (i : Nat) : Fld := ⟨(0x18002c + 0x200 * i) * 8 + 16, 1, 0⟩
def FE_K0_K0 (i : Nat) : Fld := ⟨(0x180030 + 0x200 * i) * 8 + 0, 32, 0⟩
def FE_K1_K1 (i : Nat) : Fld := ⟨(0x180034 + 0x200 * i) * 8 + 0, 32, 0⟩
def FE_CAP_CAP (i : Nat) : Fld := ⟨(0x180038 + 0x200 * i) * 8 + 0, 32, 0⟩
def FE_EMT_EMT (i : Nat) : Fld := ⟨(0x18003c + 0x200 * i) * 8 + 0, 32, 0⟩
def FE_PCNT_PCNT (i : Nat) : Fld := ⟨(0x180040 + 0x200 * i) * 8 + 0, 32, 0⟩
def FE_STAMP_LO_STAMP (i : Nat) : Fld := ⟨(0x180044 + 0x200 * i) * 8 + 0, 32, 0⟩
def FE_STAMP_HI_STAMP (i : Nat) : Fld := ⟨(0x180048 + 0x200 * i) * 8 + 0, 16, 0⟩
def FE_TGT_LO_TGT (i : Nat) : Fld := ⟨(0x18004c + 0x200 * i) * 8 + 0, 32, 0⟩
def FE_TGT_HI_TGT (i : Nat) : Fld := ⟨(0x180050 + 0x200 * i) * 8 + 0, 16, 0⟩
def FE_PH_PH (i : Nat) : Fld := ⟨(0x180054 + 0x200 * i) * 8 + 0, 32, 0⟩
def FE_CNT_RX_DROP (i : Nat) : Fld := ⟨(0x180058 + 0x200 * i) * 8 + 0, 16, 0⟩
def FE_CNT_ERR_CNT (i : Nat) : Fld := ⟨(0x180058 + 0x200 * i) * 8 + 16, 16, 0⟩
def FE_IMEM_WORD (i : Nat) (j : Nat) : Fld := ⟨(0x180100 + 0x200 * i + 0x4 * j) * 8 + 0, 32, 0⟩
def FIFE_GO_GO : Fld := ⟨(0x184000) * 8 + 0, 32, 0⟩
def FIFE_CLKRST_RST : Fld := ⟨(0x184004) * 8 + 0, 32, 0⟩
def FIFE_NOW_LO_NOW : Fld := ⟨(0x184008) * 8 + 0, 32, 0⟩
def FIFE_NOW_HI_NOW : Fld := ⟨(0x18400c) * 8 + 0, 16, 0⟩
def FIO_IN_IN (i : Nat) : Fld := ⟨(0x184010 + 0x4 * i) * 8 + 0, 32, 0⟩
def FIO_CFG_OWNER (i : Nat) : Fld := ⟨(0x185000 + 0x4 * i) * 8 + 0, 5, 0⟩
def FIO_CFG_OWNED (i : Nat) : Fld := ⟨(0x185000 + 0x4 * i) * 8 + 5, 1, 0⟩
def FIO_CFG_INV_IN (i : Nat) : Fld := ⟨(0x185000 + 0x4 * i) * 8 + 6, 1, 0⟩
def FIO_CFG_INV_OUT (i : Nat) : Fld := ⟨(0x185000 + 0x4 * i) * 8 + 7, 1, 0⟩
def FIO_CFG_SAFE (i : Nat) : Fld := ⟨(0x185000 + 0x4 * i) * 8 + 8, 2, 0⟩
def FIO_CFG_OUT (i : Nat) : Fld := ⟨(0x185000 + 0x4 * i) * 8 + 10, 1, 0⟩
def FIO_CFG_OE (i : Nat) : Fld := ⟨(0x185000 + 0x4 * i) * 8 + 11, 1, 0⟩

/-! ### 14_raster.md (R484) -/

def RAS_CTRL_IRQ_EN : Fld := ⟨(0x200000) * 8 + 0, 1, 0⟩
def RAS_CTRL_HOST_IRQ_EN : Fld := ⟨(0x200000) * 8 + 1, 1, 0⟩
def RAS_CTRL_HOST_CLIENT : Fld := ⟨(0x200000) * 8 + 2, 5, 0⟩
def RAS_STAT_STATE : Fld := ⟨(0x200004) * 8 + 0, 2, 0⟩
def RAS_STAT_BIN_FAULT : Fld := ⟨(0x200004) * 8 + 2, 1, 0⟩
def RAS_STAT_GROW_IGN : Fld := ⟨(0x200004) * 8 + 3, 1, 0⟩
def RAS_STAT_STREAM : Fld := ⟨(0x200004) * 8 + 4, 4, 0⟩
def RAS_STAT_PAGES_USED : Fld := ⟨(0x200004) * 8 + 16, 10, 0⟩
def RAS_GROW_ADD : Fld := ⟨(0x200008) * 8 + 0, 10, 0⟩
def RAS_GROW_TMO_GROW_TMO : Fld := ⟨(0x20000c) * 8 + 0, 16, 1000⟩
def RAS_LINE_TGT_CONTEXT : Fld := ⟨(0x200010) * 8 + 0, 4, 0⟩
def RAS_LINE_TGT_COUNTER : Fld := ⟨(0x200010) * 8 + 4, 4, 0⟩
def RAS_LINE_TGT_EN : Fld := ⟨(0x200010) * 8 + 8, 1, 0⟩
def RAS_CNT1_FRAMES : Fld := ⟨(0x200014) * 8 + 0, 16, 0⟩
def RAS_CNT1_DROPS : Fld := ⟨(0x200014) * 8 + 16, 16, 0⟩
def RAS_CNT2_BINS_SKIPPED : Fld := ⟨(0x200018) * 8 + 0, 16, 0⟩
def RAS_CNT2_NAN_PRIM : Fld := ⟨(0x200018) * 8 + 16, 16, 0⟩
def RAS_CNT_CLR_CLR : Fld := ⟨(0x20001c) * 8 + 0, 1, 0⟩
def RAS_DROPS_DROPS (i : Nat) : Fld := ⟨(0x200100 + 0x4 * i) * 8 + 0, 16, 0⟩

/-! ### 15_bellows_clocks.md (R516) -/

def CLK_STAT_CTRL_LOCK : Fld := ⟨(0x10000) * 8 + 0, 1, 0⟩
def CLK_STAT_FAB_LOCK : Fld := ⟨(0x10000) * 8 + 1, 1, 0⟩
def CLK_STAT_TILE_LOCK : Fld := ⟨(0x10000) * 8 + 2, 1, 0⟩
def CLK_STAT_SERDES_LOCK : Fld := ⟨(0x10000) * 8 + 3, 1, 0⟩
def CLK_STAT_ON_SAFE : Fld := ⟨(0x10000) * 8 + 4, 1, 0⟩
def CLK_STAT_LOCK_FAIL : Fld := ⟨(0x10000) * 8 + 5, 1, 0⟩
def CLK_STAT_VOK_LOST : Fld := ⟨(0x10000) * 8 + 6, 1, 0⟩
def CLK_OP_OP_TGT : Fld := ⟨(0x10004) * 8 + 0, 3, 7⟩
def CLK_OP_OP_CUR : Fld := ⟨(0x10004) * 8 + 4, 3, 0⟩
def CLK_OP_BUSY : Fld := ⟨(0x10004) * 8 + 8, 1, 0⟩
def CLK_DVFS_VID_SETTLE : Fld := ⟨(0x10008) * 8 + 0, 16, 0⟩
def CLK_DVFS_LOCK_MAX : Fld := ⟨(0x10008) * 8 + 16, 8, 100⟩
def CLK_CNT_RELOCKS : Fld := ⟨(0x1000c) * 8 + 0, 16, 0⟩
def CLK_CNT_LOCK_FAILS : Fld := ⟨(0x1000c) * 8 + 16, 16, 0⟩
def BEL_CTRL_AUTO_OP : Fld := ⟨(0x20000) * 8 + 0, 1, 0⟩
def BEL_CTRL_SPILL : Fld := ⟨(0x20000) * 8 + 1, 1, 0⟩
def BEL_CTRL_IRQ_EN : Fld := ⟨(0x20000) * 8 + 2, 1, 0⟩
def BEL_CTRL_MOTION_ONLY : Fld := ⟨(0x20000) * 8 + 3, 1, 0⟩
def BEL_STAT_FORCED : Fld := ⟨(0x20004) * 8 + 0, 1, 0⟩
def BEL_STAT_MOTION : Fld := ⟨(0x20004) * 8 + 1, 1, 0⟩
def BEL_STAT_PWR_REJ : Fld := ⟨(0x20004) * 8 + 2, 1, 0⟩
def BEL_STAT_SENSOR_FAULT : Fld := ⟨(0x20004) * 8 + 3, 1, 0⟩
def BEL_STAT_SENS_INVALID : Fld := ⟨(0x20004) * 8 + 16, 16, 0⟩
def BEL_BUDGET_BUDGET : Fld := ⟨(0x20008) * 8 + 0, 9, 350⟩
def BEL_RES_RES_CTRL : Fld := ⟨(0x2000c) * 8 + 0, 8, 0⟩
def BEL_RES_RES_REED : Fld := ⟨(0x2000c) * 8 + 8, 8, 0⟩
def BEL_RES_STATIC : Fld := ⟨(0x2000c) * 8 + 16, 10, 0⟩
def BEL_SHARE_FLOOR_C : Fld := ⟨(0x20010) * 8 + 0, 9, 0⟩
def BEL_SHARE_PSHARE : Fld := ⟨(0x20010) * 8 + 16, 8, 192⟩
def BEL_THERM_KNEE : Fld := ⟨(0x20014) * 8 + 0, 8, 95⟩
def BEL_THERM_SLOPE : Fld := ⟨(0x20014) * 8 + 8, 8, 0⟩
def BEL_THERM_OPDN : Fld := ⟨(0x20014) * 8 + 16, 8, 100⟩
def BEL_THERM_SHUT : Fld := ⟨(0x20014) * 8 + 24, 8, 105⟩
def BEL_THERM2_OP_HYST : Fld := ⟨(0x20018) * 8 + 0, 4, 5⟩
def BEL_THERM2_OP_DWELL : Fld := ⟨(0x20018) * 8 + 4, 12, 100⟩
def BEL_THERM2_OP_MIN : Fld := ⟨(0x20018) * 8 + 16, 3, 0⟩
def BEL_THERM2_OP_MAX : Fld := ⟨(0x20018) * 8 + 20, 3, 7⟩
def BEL_THERM2_SHUT_N : Fld := ⟨(0x20018) * 8 + 24, 8, 4⟩
def BEL_WIN_W : Fld := ⟨(0x2001c) * 8 + 0, 9, 0⟩
def BEL_WIN_T_HOT : Fld := ⟨(0x2001c) * 8 + 16, 12, 0⟩
def BEL_WIN_TRIP : Fld := ⟨(0x2001c) * 8 + 28, 4, 0⟩
def BEL_BAL_C_BAL : Fld := ⟨(0x20020) * 8 + 0, 32, 0⟩
def BEL_BAL_P_BAL : Fld := ⟨(0x20024) * 8 + 0, 32, 0⟩
def BEL_BAL_B_BAL : Fld := ⟨(0x20028) * 8 + 0, 32, 0⟩
def BEL_PWR_DN_DN (i : Nat) : Fld := ⟨(0x20030 + 0x4 * i) * 8 + 0, 32, 0⟩
def BEL_PWR_ON_ON (i : Nat) : Fld := ⟨(0x20038 + 0x4 * i) * 8 + 0, 32, 0xFFFFFFFF⟩
def BEL_PWR_MISC_RAS_DN : Fld := ⟨(0x20040) * 8 + 0, 1, 0⟩
def BEL_PWR_MISC_RAS_ON : Fld := ⟨(0x20040) * 8 + 1, 1, 1⟩
def BEL_USED_LO_USED (i : Nat) : Fld := ⟨(0x20080 + 0x8 * i) * 8 + 0, 32, 0⟩
def BEL_USED_HI_USED (i : Nat) : Fld := ⟨(0x20084 + 0x8 * i) * 8 + 0, 32, 0⟩
def BEL_TEMP_TEMP (i : Nat) : Fld := ⟨(0x20100 + 0x4 * i) * 8 + 0, 12, 0⟩
def BEL_TEMP_VALID (i : Nat) : Fld := ⟨(0x20100 + 0x4 * i) * 8 + 31, 1, 0⟩

/-! ### 16_host_rings.md (R553) -/

def HQ_MODE_STANDALONE : Fld := ⟨(0x440000) * 8 + 0, 1, 0⟩
def HQ_CEIL0_CEIL : Fld := ⟨(0x440004) * 8 + 0, 32, 0xFFFFFFFF⟩
def HQ_CEIL1_CEIL : Fld := ⟨(0x440008) * 8 + 0, 32, 0xFFFFFFFF⟩
def HQ_CTRL_EVT_EN (i : Nat) : Fld := ⟨(0x400000 + 0x1000 * i) * 8 + 0, 1, 0⟩
def HQ_STAT_MMIO_ERR (i : Nat) : Fld := ⟨(0x400004 + 0x1000 * i) * 8 + 0, 1, 0⟩
def HQ_STAT_MMIO_STATUS (i : Nat) : Fld := ⟨(0x400004 + 0x1000 * i) * 8 + 4, 4, 0⟩
def HQ_STAT_LOST_CPL (i : Nat) : Fld := ⟨(0x400004 + 0x1000 * i) * 8 + 8, 8, 0⟩
def HQ_STAT_DB_IGN (i : Nat) : Fld := ⟨(0x400004 + 0x1000 * i) * 8 + 16, 16, 0⟩
def HQ_EVT_RING_STOP (i : Nat) : Fld := ⟨(0x400008 + 0x1000 * i) * 8 + 0, 8, 0⟩
def HQ_EVT_CQ_DBERR (i : Nat) : Fld := ⟨(0x400008 + 0x1000 * i) * 8 + 8, 8, 0⟩
def SQ_BASE_LO_BASE (i : Nat) (j : Nat) : Fld := ⟨(0x400100 + 0x1000 * i + 0x20 * j) * 8 + 12, 20, 0⟩
def SQ_BASE_HI_BASE (i : Nat) (j : Nat) : Fld := ⟨(0x400104 + 0x1000 * i + 0x20 * j) * 8 + 0, 32, 0⟩
def SQ_CFG_SIZE (i : Nat) (j : Nat) : Fld := ⟨(0x400108 + 0x1000 * i + 0x20 * j) * 8 + 0, 4, 0⟩
def SQ_CFG_FMT (i : Nat) (j : Nat) : Fld := ⟨(0x400108 + 0x1000 * i + 0x20 * j) * 8 + 4, 1, 0⟩
def SQ_CFG_CQ (i : Nat) (j : Nat) : Fld := ⟨(0x400108 + 0x1000 * i + 0x20 * j) * 8 + 5, 3, 0⟩
def SQ_CFG_CLASS (i : Nat) (j : Nat) : Fld := ⟨(0x400108 + 0x1000 * i + 0x20 * j) * 8 + 8, 2, 0⟩
def SQ_CFG_STOP_ON_ERR (i : Nat) (j : Nat) : Fld := ⟨(0x400108 + 0x1000 * i + 0x20 * j) * 8 + 10, 1, 0⟩
def SQ_CTRL_ENABLE (i : Nat) (j : Nat) : Fld := ⟨(0x40010c + 0x1000 * i + 0x20 * j) * 8 + 0, 1, 0⟩
def SQ_CTRL_STOP (i : Nat) (j : Nat) : Fld := ⟨(0x40010c + 0x1000 * i + 0x20 * j) * 8 + 1, 1, 0⟩
def SQ_CTRL_RESUME (i : Nat) (j : Nat) : Fld := ⟨(0x40010c + 0x1000 * i + 0x20 * j) * 8 + 2, 1, 0⟩
def SQ_STAT_HEAD (i : Nat) (j : Nat) : Fld := ⟨(0x400110 + 0x1000 * i + 0x20 * j) * 8 + 0, 16, 0⟩
def SQ_STAT_STATE (i : Nat) (j : Nat) : Fld := ⟨(0x400110 + 0x1000 * i + 0x20 * j) * 8 + 16, 2, 0⟩
def SQ_STAT_LAST_ERR (i : Nat) (j : Nat) : Fld := ⟨(0x400110 + 0x1000 * i + 0x20 * j) * 8 + 18, 4, 0⟩
def SQ_STAT_REJ (i : Nat) (j : Nat) : Fld := ⟨(0x400110 + 0x1000 * i + 0x20 * j) * 8 + 22, 1, 0⟩
def SQ_STAT_DB_ERR (i : Nat) (j : Nat) : Fld := ⟨(0x400110 + 0x1000 * i + 0x20 * j) * 8 + 23, 1, 0⟩
def SQ_STAT_INFLIGHT (i : Nat) (j : Nat) : Fld := ⟨(0x400110 + 0x1000 * i + 0x20 * j) * 8 + 24, 4, 0⟩
def SQ_WAIT_TMO_WAIT_TMO (i : Nat) (j : Nat) : Fld := ⟨(0x400114 + 0x1000 * i + 0x20 * j) * 8 + 0, 32, 0⟩
def CQ_BASE_LO_BASE (i : Nat) (j : Nat) : Fld := ⟨(0x400200 + 0x1000 * i + 0x20 * j) * 8 + 12, 20, 0⟩
def CQ_BASE_HI_BASE (i : Nat) (j : Nat) : Fld := ⟨(0x400204 + 0x1000 * i + 0x20 * j) * 8 + 0, 32, 0⟩
def CQ_CFG_ENABLE (i : Nat) (j : Nat) : Fld := ⟨(0x400208 + 0x1000 * i + 0x20 * j) * 8 + 0, 1, 0⟩
def CQ_CFG_SIZE (i : Nat) (j : Nat) : Fld := ⟨(0x400208 + 0x1000 * i + 0x20 * j) * 8 + 1, 4, 0⟩
def CQ_CFG_VECTOR (i : Nat) (j : Nat) : Fld := ⟨(0x400208 + 0x1000 * i + 0x20 * j) * 8 + 5, 3, 0⟩
def CQ_CFG_IRQ_EN (i : Nat) (j : Nat) : Fld := ⟨(0x400208 + 0x1000 * i + 0x20 * j) * 8 + 8, 1, 0⟩
def CQ_MOD_CNT (i : Nat) (j : Nat) : Fld := ⟨(0x40020c + 0x1000 * i + 0x20 * j) * 8 + 0, 16, 0⟩
def CQ_MOD_TIME (i : Nat) (j : Nat) : Fld := ⟨(0x40020c + 0x1000 * i + 0x20 * j) * 8 + 16, 16, 0⟩
def CQ_STAT_TAIL (i : Nat) (j : Nat) : Fld := ⟨(0x400210 + 0x1000 * i + 0x20 * j) * 8 + 0, 16, 0⟩
def CQ_STAT_FULL_SEEN (i : Nat) (j : Nat) : Fld := ⟨(0x400210 + 0x1000 * i + 0x20 * j) * 8 + 16, 1, 0⟩
def CQ_STAT_DB_ERR (i : Nat) (j : Nat) : Fld := ⟨(0x400210 + 0x1000 * i + 0x20 * j) * 8 + 17, 1, 0⟩
def CQ_STAT_REJ (i : Nat) (j : Nat) : Fld := ⟨(0x400210 + 0x1000 * i + 0x20 * j) * 8 + 18, 1, 0⟩

/-! ### 17_windway.md (R599) -/

def WW_CTRL_ADAPT : Fld := ⟨(0x300000) * 8 + 0, 1, 0⟩
def WW_CTRL_IRQ_EN : Fld := ⟨(0x300000) * 8 + 1, 1, 0⟩
def WW_CTRL_HOP_MAX : Fld := ⟨(0x300000) * 8 + 2, 4, 15⟩
def WW_CTRL_GF_CLEAR : Fld := ⟨(0x300000) * 8 + 6, 1, 0⟩
def WW_CTRL_NR_CLEAR : Fld := ⟨(0x300000) * 8 + 7, 1, 0⟩
def WW_GROUP_GROUP_ID : Fld := ⟨(0x300004) * 8 + 0, 16, 0⟩
def WW_FWVER_FWVER : Fld := ⟨(0x300008) * 8 + 0, 32, 0⟩
def WW_TMO_REQ_TMO : Fld := ⟨(0x30000c) * 8 + 0, 20, 1000⟩
def WW_TSYNC_TSYNC_PER : Fld := ⟨(0x300010) * 8 + 0, 16, 100⟩
def WW_GSTAT_GEPOCH : Fld := ⟨(0x300014) * 8 + 0, 16, 0⟩
def WW_GSTAT_LEADER : Fld := ⟨(0x300014) * 8 + 16, 15, 0⟩
def WW_GSTAT_IS_LEADER : Fld := ⟨(0x300014) * 8 + 31, 1, 1⟩
def WW_GFLAGS_NON_REPRO : Fld := ⟨(0x300018) * 8 + 0, 1, 0⟩
def WW_GFLAGS_GROUP_FAULT : Fld := ⟨(0x300018) * 8 + 1, 1, 0⟩
def WW_OFFSET_OFFSET : Fld := ⟨(0x30001c) * 8 + 0, 32, 0⟩
def WW_CNT_LATE_RSP : Fld := ⟨(0x300020) * 8 + 0, 16, 0⟩
def WW_CNT_HOP_DROP : Fld := ⟨(0x300020) * 8 + 16, 16, 0⟩
def WW_ETYPE_ETYPE : Fld := ⟨(0x300024) * 8 + 0, 16, 0x88B5⟩
def WW_FWMSG_MSG : Fld := ⟨(0x300030) * 8 + 0, 32, 0⟩
def WL_CTRL_EN (i : Nat) : Fld := ⟨(0x300040 + 0x40 * i) * 8 + 0, 1, 0⟩
def WL_CTRL_GEN1_ONLY (i : Nat) : Fld := ⟨(0x300040 + 0x40 * i) * 8 + 1, 1, 0⟩
def WL_STAT_STATE (i : Nat) : Fld := ⟨(0x300044 + 0x40 * i) * 8 + 0, 2, 0⟩
def WL_STAT_WIDTH (i : Nat) : Fld := ⟨(0x300044 + 0x40 * i) * 8 + 2, 2, 0⟩
def WL_STAT_GEN (i : Nat) : Fld := ⟨(0x300044 + 0x40 * i) * 8 + 4, 1, 0⟩
def WL_STAT_FAILED (i : Nat) : Fld := ⟨(0x300044 + 0x40 * i) * 8 + 5, 1, 0⟩
def WL_STAT_JOIN_RES (i : Nat) : Fld := ⟨(0x300044 + 0x40 * i) * 8 + 6, 4, 0⟩
def WL_STAT_PEER (i : Nat) : Fld := ⟨(0x300044 + 0x40 * i) * 8 + 16, 15, 0⟩
def WL_SYNC_DRONE (i : Nat) : Fld := ⟨(0x300048 + 0x40 * i) * 8 + 0, 4, 0⟩
def WL_SYNC_SYNC_EN (i : Nat) : Fld := ⟨(0x300048 + 0x40 * i) * 8 + 4, 1, 0⟩
def WL_SYNC_SYNC_PER (i : Nat) : Fld := ⟨(0x300048 + 0x40 * i) * 8 + 8, 8, 0⟩
def WL_DELAY_LINK_DELAY (i : Nat) : Fld := ⟨(0x30004c + 0x40 * i) * 8 + 0, 16, 0⟩
def WL_CNT1_REPLAYS (i : Nat) : Fld := ⟨(0x300050 + 0x40 * i) * 8 + 0, 16, 0⟩
def WL_CNT1_LOSSES (i : Nat) : Fld := ⟨(0x300050 + 0x40 * i) * 8 + 16, 16, 0⟩
def WL_CNT2_CRC_ERR (i : Nat) : Fld := ⟨(0x300054 + 0x40 * i) * 8 + 0, 16, 0⟩
def WL_CNT2_TRAIN_FAIL (i : Nat) : Fld := ⟨(0x300054 + 0x40 * i) * 8 + 16, 16, 0⟩
def WT_CTRL_EN (i : Nat) : Fld := ⟨(0x300400 + 0x40 * i) * 8 + 0, 1, 0⟩
def WT_CTRL_ETH_PORT (i : Nat) : Fld := ⟨(0x300400 + 0x40 * i) * 8 + 1, 2, 0⟩
def WT_CTRL_VLAN_EN (i : Nat) : Fld := ⟨(0x300400 + 0x40 * i) * 8 + 3, 1, 0⟩
def WT_CTRL_VID (i : Nat) : Fld := ⟨(0x300400 + 0x40 * i) * 8 + 4, 12, 0⟩
def WT_CTRL_PCP_MAP (i : Nat) : Fld := ⟨(0x300400 + 0x40 * i) * 8 + 16, 12, 0⟩
def WT_MAC_LO_MAC (i : Nat) : Fld := ⟨(0x300404 + 0x40 * i) * 8 + 0, 32, 0⟩
def WT_MAC_HI_MAC (i : Nat) : Fld := ⟨(0x300408 + 0x40 * i) * 8 + 0, 16, 0⟩
def WT_TIME_TK (i : Nat) : Fld := ⟨(0x30040c + 0x40 * i) * 8 + 0, 16, 100⟩
def WT_TIME_T_RTX (i : Nat) : Fld := ⟨(0x30040c + 0x40 * i) * 8 + 16, 16, 50⟩
def WT_STAT_STATE (i : Nat) : Fld := ⟨(0x300410 + 0x40 * i) * 8 + 0, 2, 0⟩
def WT_STAT_FAILED (i : Nat) : Fld := ⟨(0x300410 + 0x40 * i) * 8 + 5, 1, 0⟩
def WT_STAT_JOIN_RES (i : Nat) : Fld := ⟨(0x300410 + 0x40 * i) * 8 + 6, 4, 0⟩
def WT_STAT_PEER (i : Nat) : Fld := ⟨(0x300410 + 0x40 * i) * 8 + 16, 15, 0⟩
def WT_CNT_RETX (i : Nat) : Fld := ⟨(0x300414 + 0x40 * i) * 8 + 0, 16, 0⟩
def WT_CNT_LOSSES (i : Nat) : Fld := ⟨(0x300414 + 0x40 * i) * 8 + 16, 16, 0⟩
def BC_FWD_MASK (i : Nat) : Fld := ⟨(0x300700 + 0x4 * i) * 8 + 0, 12, 0⟩
def WS_CTRL_GO : Fld := ⟨(0x300800) * 8 + 0, 1, 0⟩
def WS_CTRL_ABORT : Fld := ⟨(0x300800) * 8 + 1, 1, 0⟩
def WS_CTRL_INJ_GROUP : Fld := ⟨(0x300800) * 8 + 2, 3, 0⟩
def WS_CTRL_ACK_FR : Fld := ⟨(0x300800) * 8 + 8, 4, 3⟩
def WS_ID_SWEEP_ID : Fld := ⟨(0x300804) * 8 + 0, 16, 0⟩
def WS_START_LO_S0 : Fld := ⟨(0x300808) * 8 + 0, 32, 0⟩
def WS_START_HI_S0 : Fld := ⟨(0x30080c) * 8 + 0, 16, 0⟩
def WS_SEQ0_SEQ0 : Fld := ⟨(0x300810) * 8 + 0, 32, 0⟩
def WS_STAT_STATE : Fld := ⟨(0x300814) * 8 + 0, 3, 0⟩
def WS_STAT_MASTER : Fld := ⟨(0x300814) * 8 + 3, 1, 0⟩
def WS_STAT_CAUSE : Fld := ⟨(0x300814) * 8 + 4, 3, 0⟩
def WS_LAST_LAST_COMMON : Fld := ⟨(0x300818) * 8 + 0, 32, 0⟩
def WS_MISC_SYNC_RX : Fld := ⟨(0x30081c) * 8 + 0, 16, 0⟩
def WS_MISC_ACK_RX : Fld := ⟨(0x30081c) * 8 + 16, 16, 0⟩
def WS_MEMBER_CHIP (i : Nat) : Fld := ⟨(0x300840 + 0x4 * i) * 8 + 0, 15, 0⟩
def WS_MEMBER_VALID (i : Nat) : Fld := ⟨(0x300840 + 0x4 * i) * 8 + 15, 1, 0⟩
def WS_MSEQ_SEQ (i : Nat) : Fld := ⟨(0x300880 + 0x4 * i) * 8 + 0, 32, 0⟩
def ROUTE_ENTRIES (i : Nat) : Fld := ⟨(0x308000 + 0x4 * i) * 8 + 0, 32, 0xFFFFFFFF⟩

/-! ### 18_field_interfaces.md (R632) -/

def ETH_CTRL_EN (i : Nat) : Fld := ⟨(0x310000 + 0x1000 * i) * 8 + 0, 1, 0⟩
def ETH_CTRL_PROMISC (i : Nat) : Fld := ⟨(0x310000 + 0x1000 * i) * 8 + 1, 1, 0⟩
def ETH_CTRL_SAFETY (i : Nat) : Fld := ⟨(0x310000 + 0x1000 * i) * 8 + 2, 1, 0⟩
def ETH_CTRL_MODE (i : Nat) : Fld := ⟨(0x310000 + 0x1000 * i) * 8 + 3, 2, 0⟩
def ETH_MAC_LO_MAC (i : Nat) : Fld := ⟨(0x310008 + 0x1000 * i) * 8 + 0, 32, 0⟩
def ETH_MAC_HI_MAC (i : Nat) : Fld := ⟨(0x31000c + 0x1000 * i) * 8 + 0, 16, 0⟩
def ETH_MAXLEN_MAXLEN (i : Nat) : Fld := ⟨(0x310010 + 0x1000 * i) * 8 + 0, 32, 1518⟩
def ETH_LAT_ING_LAT (i : Nat) : Fld := ⟨(0x310014 + 0x1000 * i) * 8 + 0, 16, 0⟩
def ETH_LAT_EGR_LAT (i : Nat) : Fld := ⟨(0x310014 + 0x1000 * i) * 8 + 16, 16, 0⟩
def ETH_PCPMAP_PCP_MAP (i : Nat) : Fld := ⟨(0x310018 + 0x1000 * i) * 8 + 0, 24, 0⟩
def EF_ETYPE_ETYPE (i : Nat) (j : Nat) : Fld := ⟨(0x310040 + 0x1000 * i + 0x10 * j) * 8 + 0, 16, 0⟩
def EF_MAC_LO_MAC (i : Nat) (j : Nat) : Fld := ⟨(0x310044 + 0x1000 * i + 0x10 * j) * 8 + 0, 32, 0⟩
def EF_MAC_HI_MAC (i : Nat) (j : Nat) : Fld := ⟨(0x310048 + 0x1000 * i + 0x10 * j) * 8 + 0, 16, 0⟩
def EF_CTL_EN_ET (i : Nat) (j : Nat) : Fld := ⟨(0x31004c + 0x1000 * i + 0x10 * j) * 8 + 0, 1, 0⟩
def EF_CTL_EN_MAC (i : Nat) (j : Nat) : Fld := ⟨(0x31004c + 0x1000 * i + 0x10 * j) * 8 + 1, 1, 0⟩
def EF_CTL_RING (i : Nat) (j : Nat) : Fld := ⟨(0x31004c + 0x1000 * i + 0x10 * j) * 8 + 2, 4, 0⟩
def EF_CTL_TO_SAFETY (i : Nat) (j : Nat) : Fld := ⟨(0x31004c + 0x1000 * i + 0x10 * j) * 8 + 6, 1, 0⟩
def FRT_BASE_LO_BASE (i : Nat) (j : Nat) : Fld := ⟨(0x310400 + 0x1000 * i + 0x20 * j) * 8 + 6, 26, 0⟩
def FRT_BASE_HI_BASE (i : Nat) (j : Nat) : Fld := ⟨(0x310404 + 0x1000 * i + 0x20 * j) * 8 + 0, 32, 0⟩
def FRT_CFG_SIZE (i : Nat) (j : Nat) : Fld := ⟨(0x310408 + 0x1000 * i + 0x20 * j) * 8 + 0, 4, 0⟩
def FRT_CFG_ENABLE (i : Nat) (j : Nat) : Fld := ⟨(0x310408 + 0x1000 * i + 0x20 * j) * 8 + 4, 1, 0⟩
def FRT_CFG_CLASS (i : Nat) (j : Nat) : Fld := ⟨(0x310408 + 0x1000 * i + 0x20 * j) * 8 + 5, 2, 0⟩
def FRT_CFG_TOK_EN (i : Nat) (j : Nat) : Fld := ⟨(0x310408 + 0x1000 * i + 0x20 * j) * 8 + 7, 1, 0⟩
def FRT_CFG_UNIT (i : Nat) (j : Nat) : Fld := ⟨(0x310408 + 0x1000 * i + 0x20 * j) * 8 + 8, 8, 0⟩
def FRT_CFG_CONTEXT (i : Nat) (j : Nat) : Fld := ⟨(0x310408 + 0x1000 * i + 0x20 * j) * 8 + 16, 4, 0⟩
def FRT_CFG_COUNTER (i : Nat) (j : Nat) : Fld := ⟨(0x310408 + 0x1000 * i + 0x20 * j) * 8 + 20, 4, 0⟩
def FRT_TAIL_TAIL (i : Nat) (j : Nat) : Fld := ⟨(0x31040c + 0x1000 * i + 0x20 * j) * 8 + 0, 12, 0⟩
def FRT_HEAD_HEAD (i : Nat) (j : Nat) : Fld := ⟨(0x310410 + 0x1000 * i + 0x20 * j) * 8 + 0, 12, 0⟩
def FRT_STAT_TAIL_ERR (i : Nat) (j : Nat) : Fld := ⟨(0x310414 + 0x1000 * i + 0x20 * j) * 8 + 0, 1, 0⟩
def FRT_STAT_REJ (i : Nat) (j : Nat) : Fld := ⟨(0x310414 + 0x1000 * i + 0x20 * j) * 8 + 1, 1, 0⟩
def FRT_STAT_NOBUF (i : Nat) (j : Nat) : Fld := ⟨(0x310414 + 0x1000 * i + 0x20 * j) * 8 + 16, 16, 0⟩
def FRR_BASE_LO_BASE (i : Nat) (j : Nat) : Fld := ⟨(0x310500 + 0x1000 * i + 0x20 * j) * 8 + 6, 26, 0⟩
def FRR_BASE_HI_BASE (i : Nat) (j : Nat) : Fld := ⟨(0x310504 + 0x1000 * i + 0x20 * j) * 8 + 0, 32, 0⟩
def FRR_CFG_SIZE (i : Nat) (j : Nat) : Fld := ⟨(0x310508 + 0x1000 * i + 0x20 * j) * 8 + 0, 4, 0⟩
def FRR_CFG_ENABLE (i : Nat) (j : Nat) : Fld := ⟨(0x310508 + 0x1000 * i + 0x20 * j) * 8 + 4, 1, 0⟩
def FRR_CFG_CLASS (i : Nat) (j : Nat) : Fld := ⟨(0x310508 + 0x1000 * i + 0x20 * j) * 8 + 5, 2, 0⟩
def FRR_CFG_TOK_EN (i : Nat) (j : Nat) : Fld := ⟨(0x310508 + 0x1000 * i + 0x20 * j) * 8 + 7, 1, 0⟩
def FRR_CFG_UNIT (i : Nat) (j : Nat) : Fld := ⟨(0x310508 + 0x1000 * i + 0x20 * j) * 8 + 8, 8, 0⟩
def FRR_CFG_CONTEXT (i : Nat) (j : Nat) : Fld := ⟨(0x310508 + 0x1000 * i + 0x20 * j) * 8 + 16, 4, 0⟩
def FRR_CFG_COUNTER (i : Nat) (j : Nat) : Fld := ⟨(0x310508 + 0x1000 * i + 0x20 * j) * 8 + 20, 4, 0⟩
def FRR_TAIL_TAIL (i : Nat) (j : Nat) : Fld := ⟨(0x31050c + 0x1000 * i + 0x20 * j) * 8 + 0, 12, 0⟩
def FRR_HEAD_HEAD (i : Nat) (j : Nat) : Fld := ⟨(0x310510 + 0x1000 * i + 0x20 * j) * 8 + 0, 12, 0⟩
def FRR_STAT_TAIL_ERR (i : Nat) (j : Nat) : Fld := ⟨(0x310514 + 0x1000 * i + 0x20 * j) * 8 + 0, 1, 0⟩
def FRR_STAT_REJ (i : Nat) (j : Nat) : Fld := ⟨(0x310514 + 0x1000 * i + 0x20 * j) * 8 + 1, 1, 0⟩
def FRR_STAT_NOBUF (i : Nat) (j : Nat) : Fld := ⟨(0x310514 + 0x1000 * i + 0x20 * j) * 8 + 16, 16, 0⟩
def QBV_ENT_LO_INTERVAL (i : Nat) (j : Nat) : Fld := ⟨(0x310800 + 0x1000 * i + 0x8 * j) * 8 + 0, 32, 0⟩
def QBV_ENT_HI_GATES (i : Nat) (j : Nat) : Fld := ⟨(0x310804 + 0x1000 * i + 0x8 * j) * 8 + 0, 8, 0⟩
def QBV_ENT_HI_OP (i : Nat) (j : Nat) : Fld := ⟨(0x310804 + 0x1000 * i + 0x8 * j) * 8 + 8, 2, 0⟩
def ST_NOW_LO_NOW : Fld := ⟨(0x314000) * 8 + 0, 32, 0⟩
def ST_NOW_HI_NOW : Fld := ⟨(0x314004) * 8 + 0, 16, 0⟩
def ST_RATE_RATE_ADJ : Fld := ⟨(0x314008) * 8 + 0, 32, 0⟩
def ST_STEP_LO_STEP : Fld := ⟨(0x31400c) * 8 + 0, 32, 0⟩
def ST_STEP_HI_STEP : Fld := ⟨(0x314010) * 8 + 0, 16, 0⟩
def ST_CNT_STEPS : Fld := ⟨(0x314014) * 8 + 0, 32, 0⟩
def CAN_CTRL_EN (i : Nat) : Fld := ⟨(0x320000 + 0x1000 * i) * 8 + 0, 1, 0⟩
def CAN_CTRL_FD (i : Nat) : Fld := ⟨(0x320000 + 0x1000 * i) * 8 + 1, 1, 0⟩
def CAN_CTRL_SAFETY (i : Nat) : Fld := ⟨(0x320000 + 0x1000 * i) * 8 + 2, 1, 0⟩
def CAN_CTRL_AUTO_REC (i : Nat) : Fld := ⟨(0x320000 + 0x1000 * i) * 8 + 3, 1, 0⟩
def CAN_CTRL_RECOVER (i : Nat) : Fld := ⟨(0x320000 + 0x1000 * i) * 8 + 4, 1, 0⟩
def FRC_BASE_LO_BASE (i : Nat) : Fld := ⟨(0x320020 + 0x1000 * i) * 8 + 6, 26, 0⟩
def FRC_BASE_HI_BASE (i : Nat) : Fld := ⟨(0x320024 + 0x1000 * i) * 8 + 0, 32, 0⟩
def FRC_CFG_SIZE (i : Nat) : Fld := ⟨(0x320028 + 0x1000 * i) * 8 + 0, 4, 0⟩
def FRC_CFG_ENABLE (i : Nat) : Fld := ⟨(0x320028 + 0x1000 * i) * 8 + 4, 1, 0⟩
def FRC_CFG_CLASS (i : Nat) : Fld := ⟨(0x320028 + 0x1000 * i) * 8 + 5, 2, 0⟩
def FRC_CFG_TOK_EN (i : Nat) : Fld := ⟨(0x320028 + 0x1000 * i) * 8 + 7, 1, 0⟩
def FRC_CFG_UNIT (i : Nat) : Fld := ⟨(0x320028 + 0x1000 * i) * 8 + 8, 8, 0⟩
def FRC_CFG_CONTEXT (i : Nat) : Fld := ⟨(0x320028 + 0x1000 * i) * 8 + 16, 4, 0⟩
def FRC_CFG_COUNTER (i : Nat) : Fld := ⟨(0x320028 + 0x1000 * i) * 8 + 20, 4, 0⟩
def FRC_TAIL_TAIL (i : Nat) : Fld := ⟨(0x32002c + 0x1000 * i) * 8 + 0, 12, 0⟩
def FRC_HEAD_HEAD (i : Nat) : Fld := ⟨(0x320030 + 0x1000 * i) * 8 + 0, 12, 0⟩
def FRC_STAT_TAIL_ERR (i : Nat) : Fld := ⟨(0x320034 + 0x1000 * i) * 8 + 0, 1, 0⟩
def FRC_STAT_REJ (i : Nat) : Fld := ⟨(0x320034 + 0x1000 * i) * 8 + 1, 1, 0⟩
def FRC_STAT_NOBUF (i : Nat) : Fld := ⟨(0x320034 + 0x1000 * i) * 8 + 16, 16, 0⟩
def CAN_TXREQ_REQ (i : Nat) : Fld := ⟨(0x320040 + 0x1000 * i) * 8 + 0, 16, 0⟩
def CAN_TXDONE_DONE (i : Nat) : Fld := ⟨(0x320044 + 0x1000 * i) * 8 + 0, 16, 0⟩
def CSI_CTRL_EN (i : Nat) : Fld := ⟨(0x330000 + 0x1000 * i) * 8 + 0, 1, 0⟩
def CSI_CTRL_LANES (i : Nat) : Fld := ⟨(0x330000 + 0x1000 * i) * 8 + 1, 2, 0⟩
def CS_MATCH_EN (i : Nat) (j : Nat) : Fld := ⟨(0x330100 + 0x1000 * i + 0x40 * j) * 8 + 0, 1, 0⟩
def CS_MATCH_VC (i : Nat) (j : Nat) : Fld := ⟨(0x330100 + 0x1000 * i + 0x40 * j) * 8 + 1, 2, 0⟩
def CS_MATCH_DT (i : Nat) (j : Nat) : Fld := ⟨(0x330100 + 0x1000 * i + 0x40 * j) * 8 + 3, 6, 0⟩
def CS_MATCH_DRN_SRC (i : Nat) (j : Nat) : Fld := ⟨(0x330100 + 0x1000 * i + 0x40 * j) * 8 + 9, 1, 0⟩
def CS_MATCH_DRONE (i : Nat) (j : Nat) : Fld := ⟨(0x330100 + 0x1000 * i + 0x40 * j) * 8 + 10, 4, 0⟩
def CS_GEOM_WIDTH (i : Nat) (j : Nat) : Fld := ⟨(0x330104 + 0x1000 * i + 0x40 * j) * 8 + 0, 13, 0⟩
def CS_GEOM_LINES (i : Nat) (j : Nat) : Fld := ⟨(0x330104 + 0x1000 * i + 0x40 * j) * 8 + 16, 13, 0⟩
def CS_PITCH_PITCH (i : Nat) (j : Nat) : Fld := ⟨(0x330108 + 0x1000 * i + 0x40 * j) * 8 + 6, 14, 0⟩
def CS_PITCH_BAND (i : Nat) (j : Nat) : Fld := ⟨(0x330108 + 0x1000 * i + 0x40 * j) * 8 + 20, 8, 0⟩
def CS_BUF_LO_BUF (i : Nat) (j : Nat) : Fld := ⟨(0x33010c + 0x1000 * i + 0x40 * j) * 8 + 16, 16, 0⟩
def CS_BUF_HI_BUF (i : Nat) (j : Nat) : Fld := ⟨(0x330110 + 0x1000 * i + 0x40 * j) * 8 + 0, 16, 0⟩
def CS_BUF_STRIDE_NBUF (i : Nat) (j : Nat) : Fld := ⟨(0x330114 + 0x1000 * i + 0x40 * j) * 8 + 0, 3, 0⟩
def CS_BUF_STRIDE_STRIDE (i : Nat) (j : Nat) : Fld := ⟨(0x330114 + 0x1000 * i + 0x40 * j) * 8 + 16, 10, 0⟩
def CS_STAT_LO_STAT (i : Nat) (j : Nat) : Fld := ⟨(0x330118 + 0x1000 * i + 0x40 * j) * 8 + 8, 24, 0⟩
def CS_STAT_HI_STAT (i : Nat) (j : Nat) : Fld := ⟨(0x33011c + 0x1000 * i + 0x40 * j) * 8 + 0, 16, 0⟩
def CS_TOK_BAND_UNIT (i : Nat) (j : Nat) : Fld := ⟨(0x330120 + 0x1000 * i + 0x40 * j) * 8 + 0, 8, 0⟩
def CS_TOK_BAND_CONTEXT (i : Nat) (j : Nat) : Fld := ⟨(0x330120 + 0x1000 * i + 0x40 * j) * 8 + 8, 4, 0⟩
def CS_TOK_BAND_COUNTER (i : Nat) (j : Nat) : Fld := ⟨(0x330120 + 0x1000 * i + 0x40 * j) * 8 + 12, 4, 0⟩
def CS_TOK_FRAME_UNIT (i : Nat) (j : Nat) : Fld := ⟨(0x330124 + 0x1000 * i + 0x40 * j) * 8 + 0, 8, 0⟩
def CS_TOK_FRAME_CONTEXT (i : Nat) (j : Nat) : Fld := ⟨(0x330124 + 0x1000 * i + 0x40 * j) * 8 + 8, 4, 0⟩
def CS_TOK_FRAME_COUNTER (i : Nat) (j : Nat) : Fld := ⟨(0x330124 + 0x1000 * i + 0x40 * j) * 8 + 12, 4, 0⟩
def CS_BUF_RET_RET (i : Nat) (j : Nat) : Fld := ⟨(0x330128 + 0x1000 * i + 0x40 * j) * 8 + 0, 1, 0⟩
def CS_STATUS_FREE (i : Nat) (j : Nat) : Fld := ⟨(0x33012c + 0x1000 * i + 0x40 * j) * 8 + 0, 4, 0⟩
def CS_STATUS_RET_ERR (i : Nat) (j : Nat) : Fld := ⟨(0x33012c + 0x1000 * i + 0x40 * j) * 8 + 4, 1, 0⟩
def CS_CNT_DROPS (i : Nat) (j : Nat) : Fld := ⟨(0x330130 + 0x1000 * i + 0x40 * j) * 8 + 0, 16, 0⟩
def CS_CNT_FRAMES (i : Nat) (j : Nat) : Fld := ⟨(0x330130 + 0x1000 * i + 0x40 * j) * 8 + 16, 16, 0⟩
def CS_TMO_FRAME_TMO (i : Nat) (j : Nat) : Fld := ⟨(0x330134 + 0x1000 * i + 0x40 * j) * 8 + 0, 16, 0⟩

/-! ### 19_reproducibility.md (R660) -/

def RP_CTRL_MESH_ADAPT : Fld := ⟨(0x5000) * 8 + 0, 1, 0⟩
def RP_CTRL_DECL : Fld := ⟨(0x5000) * 8 + 1, 7, 0⟩
def RP_STAT_REPRO_REJ : Fld := ⟨(0x5004) * 8 + 0, 1, 0⟩
def RP_STAT_GEN_BUSY : Fld := ⟨(0x5004) * 8 + 1, 1, 0⟩
def RP_STAT_GEN_REJ : Fld := ⟨(0x5004) * 8 + 2, 1, 0⟩
def RP_FP_LO_FP : Fld := ⟨(0x5008) * 8 + 0, 32, 0⟩
def RP_FP_HI_FP : Fld := ⟨(0x500c) * 8 + 0, 32, 0⟩
def RP_PLACE_HASH_HASH : Fld := ⟨(0x5010) * 8 + 0, 32, 0⟩
def RP_SEED_SEED (i : Nat) : Fld := ⟨(0x5020 + 0x4 * i) * 8 + 0, 32, 0⟩
def RP_STEP_LO_STEP : Fld := ⟨(0x5030) * 8 + 0, 32, 0⟩
def RP_STEP_HI_STEP : Fld := ⟨(0x5034) * 8 + 0, 32, 0⟩
def RP_STEP_ADV_ADV : Fld := ⟨(0x5038) * 8 + 0, 1, 0⟩
def RP_GEN_STEP_LO_STEP : Fld := ⟨(0x5040) * 8 + 0, 32, 0⟩
def RP_GEN_STEP_HI_STEP : Fld := ⟨(0x5044) * 8 + 0, 32, 0⟩
def RP_GEN_IDX_LO_IDX : Fld := ⟨(0x5048) * 8 + 0, 32, 0⟩
def RP_GEN_IDX_HI_IDX : Fld := ⟨(0x504c) * 8 + 0, 32, 0⟩
def RP_GEN_OUT_OUT (i : Nat) : Fld := ⟨(0x5050 + 0x4 * i) * 8 + 0, 32, 0⟩
def LS_CTRL_EN : Fld := ⟨(0x5080) * 8 + 0, 1, 0⟩
def LS_CTRL_LINK : Fld := ⟨(0x5080) * 8 + 1, 3, 0⟩
def LS_CTRL_SAFE_REP : Fld := ⟨(0x5080) * 8 + 4, 1, 0⟩
def LS_CTRL_IRQ_EN : Fld := ⟨(0x5080) * 8 + 5, 1, 0⟩
def LS_STAT_DIVERGED : Fld := ⟨(0x5084) * 8 + 0, 1, 0⟩
def LS_STAT_MISSING : Fld := ⟨(0x5084) * 8 + 1, 1, 0⟩
def LS_STAT_LS_REJ : Fld := ⟨(0x5084) * 8 + 2, 1, 0⟩
def LS_STAT_ADV_REJ : Fld := ⟨(0x5084) * 8 + 3, 1, 0⟩
def LS_STAT_LS_DIVS : Fld := ⟨(0x5084) * 8 + 16, 16, 0⟩
def LS_STEP_LO_STEP : Fld := ⟨(0x5088) * 8 + 0, 32, 0⟩
def LS_STEP_HI_STEP : Fld := ⟨(0x508c) * 8 + 0, 32, 0⟩
def LS_WHERE_LOGICAL : Fld := ⟨(0x5090) * 8 + 0, 6, 0⟩
def LS_WHERE_PHYS : Fld := ⟨(0x5090) * 8 + 6, 6, 0⟩
def LS_WHERE_ROW : Fld := ⟨(0x5090) * 8 + 12, 9, 0⟩
def LS_WHERE_DIFF_ROWS : Fld := ⟨(0x5090) * 8 + 21, 9, 0⟩
def LS_WHERE_VALID : Fld := ⟨(0x5090) * 8 + 31, 1, 0⟩
def LS_CNT_CNT : Fld := ⟨(0x5094) * 8 + 0, 32, 0⟩
def LS_TMO_TMO : Fld := ⟨(0x5098) * 8 + 0, 20, 1000⟩

/-! ### 20_safety.md (R711) -/

def SF_CTRL_IRQ_EN : Fld := ⟨(0x40000) * 8 + 0, 1, 0⟩
def SF_CTRL_SAFE_IRQ : Fld := ⟨(0x40000) * 8 + 1, 1, 0⟩
def SF_CTRL_HOST_EVT : Fld := ⟨(0x40000) * 8 + 2, 1, 0⟩
def SF_CTRL_BCH_HOLD : Fld := ⟨(0x40000) * 8 + 3, 1, 0⟩
def SF_CTRL_FW_IRQ_EN : Fld := ⟨(0x40000) * 8 + 4, 1, 0⟩
def SF_STAT_SAFE : Fld := ⟨(0x40004) * 8 + 0, 1, 1⟩
def SF_STAT_SAFE_IN : Fld := ⟨(0x40004) * 8 + 1, 1, 0⟩
def SF_STAT_FORCED : Fld := ⟨(0x40004) * 8 + 2, 1, 0⟩
def SF_STAT_EXIT_REJ : Fld := ⟨(0x40004) * 8 + 3, 1, 0⟩
def SF_STAT_SW_REJ : Fld := ⟨(0x40004) * 8 + 4, 1, 0⟩
def SF_STAT_SINK_REJ : Fld := ⟨(0x40004) * 8 + 8, 8, 0⟩
def SF_STAT_ENTRIES : Fld := ⟨(0x40004) * 8 + 16, 16, 0⟩
def SF_ENTER_GO : Fld := ⟨(0x40008) * 8 + 0, 1, 0⟩
def SF_EXIT_KEY : Fld := ⟨(0x4000c) * 8 + 0, 16, 0⟩
def SF_CAUSE_SOURCE : Fld := ⟨(0x40010) * 8 + 0, 7, 0x7E⟩
def SF_CAUSE_DETAIL : Fld := ⟨(0x40010) * 8 + 8, 8, 0⟩
def SF_CAUSE_VALID : Fld := ⟨(0x40010) * 8 + 31, 1, 1⟩
def SF_TIME_LO_TIME : Fld := ⟨(0x40014) * 8 + 0, 32, 0⟩
def SF_TIME_HI_TIME : Fld := ⟨(0x40018) * 8 + 0, 16, 0⟩
def SF_SWFAULT_SOURCE : Fld := ⟨(0x4001c) * 8 + 0, 7, 0⟩
def SF_STO_STO_EN_A : Fld := ⟨(0x40020) * 8 + 0, 1, 0⟩
def SF_STO_STO_EN_B : Fld := ⟨(0x40020) * 8 + 1, 1, 0⟩
def SF_STO_TP_EN : Fld := ⟨(0x40020) * 8 + 2, 1, 0⟩
def SF_STO_TP_W : Fld := ⟨(0x40020) * 8 + 8, 8, 0⟩
def SF_STO_TP_PER : Fld := ⟨(0x40020) * 8 + 16, 8, 0⟩
def SF_IN_FILT : Fld := ⟨(0x40024) * 8 + 0, 8, 25⟩
def SF_WDT_WD_MIN : Fld := ⟨(0x40028) * 8 + 0, 16, 0⟩
def SF_WDT_WD_MAX : Fld := ⟨(0x40028) * 8 + 16, 16, 0⟩
def SF_WDT_KICK_KEY : Fld := ⟨(0x4002c) * 8 + 0, 8, 0⟩
def SF_PEND_PEND (i : Nat) : Fld := ⟨(0x40040 + 0x4 * i) * 8 + 0, 32, 0⟩
def SF_REACT_REACT (i : Nat) : Fld := ⟨(0x40080 + 0x4 * i) * 8 + 0, 32, ([0xA95AAAAA, 0x16AAAAAA, 0xAA555555, 0x55555555, 0x55555555, 0x55555555, 0xAAAAAAAA, 0x0000AAAA]).getD i 0⟩
def FW_SEL_TARGET : Fld := ⟨(0x40100) * 8 + 0, 7, 0⟩
def FW_SEL_REGION : Fld := ⟨(0x40100) * 8 + 8, 6, 0⟩
def FW_BASE_LO_BASE : Fld := ⟨(0x40104) * 8 + 6, 26, 0⟩
def FW_BASE_HI_BASE : Fld := ⟨(0x40108) * 8 + 0, 16, 0⟩
def FW_LIMIT_LO_LIMIT : Fld := ⟨(0x4010c) * 8 + 6, 26, 0⟩
def FW_LIMIT_HI_LIMIT : Fld := ⟨(0x40110) * 8 + 0, 16, 0⟩
def FW_INIT_LO_INIT : Fld := ⟨(0x40114) * 8 + 0, 32, 0⟩
def FW_INIT_HI_INIT : Fld := ⟨(0x40118) * 8 + 0, 32, 0⟩
def FW_ATTR_EN : Fld := ⟨(0x4011c) * 8 + 0, 1, 0⟩
def FW_ATTR_RD_CLASS : Fld := ⟨(0x4011c) * 8 + 1, 4, 0⟩
def FW_ATTR_WR_CLASS : Fld := ⟨(0x4011c) * 8 + 5, 4, 0⟩
def FW_ATTR_REMOTE_OK : Fld := ⟨(0x4011c) * 8 + 9, 1, 0⟩
def FW_CMD_WRITE : Fld := ⟨(0x40120) * 8 + 0, 1, 0⟩
def FW_CMD_READ : Fld := ⟨(0x40120) * 8 + 1, 1, 0⟩
def FW_CMD_ARM : Fld := ⟨(0x40120) * 8 + 2, 1, 0⟩
def FW_CMD_LOCK : Fld := ⟨(0x40120) * 8 + 3, 1, 0⟩
def FW_STAT_ARMED : Fld := ⟨(0x40124) * 8 + 0, 1, 0⟩
def FW_STAT_LOCKED : Fld := ⟨(0x40124) * 8 + 1, 1, 0⟩
def FW_STAT_CMD_REJ : Fld := ⟨(0x40124) * 8 + 2, 1, 0⟩
def FW_LOG_LO_ADDR : Fld := ⟨(0x40130) * 8 + 0, 32, 0⟩
def FW_LOG_HI_ADDR : Fld := ⟨(0x40134) * 8 + 0, 16, 0⟩
def FW_LOG_HI_INIT : Fld := ⟨(0x40134) * 8 + 16, 6, 0⟩
def FW_LOG_HI_CLASS : Fld := ⟨(0x40134) * 8 + 22, 2, 0⟩
def FW_LOG_HI_WRITE : Fld := ⟨(0x40134) * 8 + 24, 1, 0⟩
def FW_LOG_HI_REMOTE : Fld := ⟨(0x40134) * 8 + 25, 1, 0⟩
def FW_LOG_HI_TARGET : Fld := ⟨(0x40134) * 8 + 26, 5, 0⟩
def FW_LOG_HI_VALID : Fld := ⟨(0x40134) * 8 + 31, 1, 0⟩
def FW_CNT_COUNT : Fld := ⟨(0x40138) * 8 + 0, 30, 0⟩
def FW_CNT_TARGET_HI : Fld := ⟨(0x40138) * 8 + 30, 2, 0⟩
def CM_CFG_EN (i : Nat) : Fld := ⟨(0x40200 + 0x10 * i) * 8 + 0, 1, 0⟩
def CM_CFG_INST (i : Nat) : Fld := ⟨(0x40200 + 0x10 * i) * 8 + 1, 6, 0⟩
def CM_CFG_OUT (i : Nat) : Fld := ⟨(0x40200 + 0x10 * i) * 8 + 7, 3, 0⟩
def CM_CFG_ABS (i : Nat) : Fld := ⟨(0x40200 + 0x10 * i) * 8 + 10, 1, 0⟩
def CM_CFG_INV_COUNTS (i : Nat) : Fld := ⟨(0x40200 + 0x10 * i) * 8 + 11, 1, 0⟩
def CM_CFG_N (i : Nat) : Fld := ⟨(0x40200 + 0x10 * i) * 8 + 12, 4, 0⟩
def CM_THR_THR (i : Nat) : Fld := ⟨(0x40204 + 0x10 * i) * 8 + 0, 32, 0⟩
def CM_AXES_AXES (i : Nat) : Fld := ⟨(0x40208 + 0x10 * i) * 8 + 0, 12, 0⟩
def CM_STAT_COUNT (i : Nat) : Fld := ⟨(0x4020c + 0x10 * i) * 8 + 0, 4, 0⟩
def CM_STAT_TRIPPED (i : Nat) : Fld := ⟨(0x4020c + 0x10 * i) * 8 + 4, 1, 0⟩
def CM_STAT_TRIPS (i : Nat) : Fld := ⟨(0x4020c + 0x10 * i) * 8 + 16, 16, 0⟩
def SC_CFG_EN (i : Nat) : Fld := ⟨(0x40400 + 0x40 * i) * 8 + 0, 1, 0⟩
def SC_CFG_TRANSPORT (i : Nat) : Fld := ⟨(0x40400 + 0x40 * i) * 8 + 1, 1, 0⟩
def SC_CFG_INDEX (i : Nat) : Fld := ⟨(0x40400 + 0x40 * i) * 8 + 2, 2, 0⟩
def SC_CFG_LEN (i : Nat) : Fld := ⟨(0x40400 + 0x40 * i) * 8 + 4, 2, 0⟩
def SC_CFG_BRS (i : Nat) : Fld := ⟨(0x40400 + 0x40 * i) * 8 + 6, 1, 0⟩
def SC_CFG_VLAN (i : Nat) : Fld := ⟨(0x40400 + 0x40 * i) * 8 + 7, 1, 0⟩
def SC_CFG_VALID_EN (i : Nat) : Fld := ⟨(0x40400 + 0x40 * i) * 8 + 8, 1, 0⟩
def SC_CONN_TX_CONN (i : Nat) : Fld := ⟨(0x40404 + 0x40 * i) * 8 + 0, 16, 0⟩
def SC_CONN_RX_CONN (i : Nat) : Fld := ⟨(0x40404 + 0x40 * i) * 8 + 16, 16, 0⟩
def SC_TX_SEED_SEED (i : Nat) : Fld := ⟨(0x40408 + 0x40 * i) * 8 + 0, 32, 0⟩
def SC_RX_SEED_SEED (i : Nat) : Fld := ⟨(0x4040c + 0x40 * i) * 8 + 0, 32, 0⟩
def SC_BUF_OFFSET (i : Nat) : Fld := ⟨(0x40410 + 0x40 * i) * 8 + 8, 12, 0⟩
def SC_PERIOD_PERIOD (i : Nat) : Fld := ⟨(0x40414 + 0x40 * i) * 8 + 0, 16, 0⟩
def SC_RXTMO_RXTMO (i : Nat) : Fld := ⟨(0x40418 + 0x40 * i) * 8 + 0, 16, 0⟩
def SC_ID_ID (i : Nat) : Fld := ⟨(0x4041c + 0x40 * i) * 8 + 0, 29, 0⟩
def SC_ID_IDE (i : Nat) : Fld := ⟨(0x4041c + 0x40 * i) * 8 + 29, 1, 0⟩
def SC_STAT_TX_SEQ (i : Nat) : Fld := ⟨(0x40420 + 0x40 * i) * 8 + 0, 16, 0⟩
def SC_STAT_REJ (i : Nat) : Fld := ⟨(0x40420 + 0x40 * i) * 8 + 16, 1, 0⟩
def SC_CNT_RX_BAD (i : Nat) : Fld := ⟨(0x40424 + 0x40 * i) * 8 + 0, 16, 0⟩
def SC_CNT_TX_LATE (i : Nat) : Fld := ⟨(0x40424 + 0x40 * i) * 8 + 16, 16, 0⟩
def VM_CFG_EN (i : Nat) : Fld := ⟨(0x40800 + 0x8 * i) * 8 + 0, 1, 0⟩
def VM_CFG_TRANSPORT (i : Nat) : Fld := ⟨(0x40800 + 0x8 * i) * 8 + 1, 1, 0⟩
def VM_CFG_INDEX (i : Nat) : Fld := ⟨(0x40800 + 0x8 * i) * 8 + 2, 2, 0⟩
def VM_CFG_RING (i : Nat) : Fld := ⟨(0x40800 + 0x8 * i) * 8 + 4, 3, 0⟩
def VM_CFG_OFFSET (i : Nat) : Fld := ⟨(0x40800 + 0x8 * i) * 8 + 8, 8, 0⟩
def VM_MASK_MASK (i : Nat) : Fld := ⟨(0x40804 + 0x8 * i) * 8 + 0, 8, 0⟩
def SF_CTX_INIT_INIT (i : Nat) (j : Nat) : Fld := ⟨(0x42000 + 0x40 * i + 0x4 * j) * 8 + 0, 6, 0⟩

/-! ### 21_unit_lifecycle.md (R739) -/

def UL_CTRL_IRQ_EN : Fld := ⟨(0x6000) * 8 + 0, 1, 0⟩
def UL_CTRL_GROUP_ADMIT : Fld := ⟨(0x6000) * 8 + 1, 1, 0⟩
def UL_CTRL_ADMIT_SEEN : Fld := ⟨(0x6000) * 8 + 2, 1, 0⟩
def UL_CMD_UNIT : Fld := ⟨(0x6004) * 8 + 0, 7, 0⟩
def UL_CMD_CMD : Fld := ⟨(0x6004) * 8 + 8, 3, 0⟩
def UL_SEL_UNIT : Fld := ⟨(0x6008) * 8 + 0, 7, 0⟩
def UL_STAT_STATE : Fld := ⟨(0x600c) * 8 + 0, 2, 0⟩
def UL_STAT_EPOCH : Fld := ⟨(0x600c) * 8 + 2, 8, 0⟩
def UL_STAT_BIST_RUN : Fld := ⟨(0x600c) * 8 + 10, 1, 0⟩
def UL_STAT_BIST_PASS : Fld := ⟨(0x600c) * 8 + 11, 1, 0⟩
def UL_STAT_BIST_FAIL : Fld := ⟨(0x600c) * 8 + 12, 1, 0⟩
def UL_STAT_ZEROED : Fld := ⟨(0x600c) * 8 + 13, 1, 0⟩
def UL_STAT_CMD_REJ : Fld := ⟨(0x600c) * 8 + 14, 1, 0⟩
def UL_STAT_CAUSE : Fld := ⟨(0x600c) * 8 + 15, 3, 0⟩
def UL_STAT_POWERED : Fld := ⟨(0x600c) * 8 + 18, 1, 1⟩
def UL_STAT_ORPHANS : Fld := ⟨(0x600c) * 8 + 20, 12, 0⟩
def UL_TIME_TDRAIN : Fld := ⟨(0x6010) * 8 + 0, 10, 50⟩
def UL_TIME_LOSS_Q : Fld := ⟨(0x6010) * 8 + 16, 8, 0⟩
def UL_CNT1_LATE_RSP : Fld := ⟨(0x6014) * 8 + 0, 16, 0⟩
def UL_CNT1_STALE_REQ : Fld := ⟨(0x6014) * 8 + 16, 16, 0⟩
def UL_CNT2_STALE_POSTS : Fld := ⟨(0x6018) * 8 + 0, 16, 0⟩
def UL_CNT2_POISONED : Fld := ⟨(0x6018) * 8 + 16, 16, 0⟩
def UL_AUTO_AUTO (i : Nat) : Fld := ⟨(0x6020 + 0x4 * i) * 8 + 0, 32, 0⟩
def UL_STATE_STATE (i : Nat) : Fld := ⟨(0x6040 + 0x4 * i) * 8 + 0, 32, 0⟩
def UL_EPOCH_EPOCH (i : Nat) : Fld := ⟨(0x6080 + 0x4 * i) * 8 + 0, 32, 0⟩

/-! ### 22_startup.md (R773) -/

def BOOT_STAT_STAGE : Fld := ⟨(0x7000) * 8 + 0, 4, 1⟩
def BOOT_STAT_CAUSE : Fld := ⟨(0x7000) * 8 + 4, 4, 0⟩
def BOOT_STAT_SRC : Fld := ⟨(0x7000) * 8 + 8, 2, 0⟩
def BOOT_STAT_MODE : Fld := ⟨(0x7000) * 8 + 10, 2, 0⟩
def BOOT_STAT_VERIFIED : Fld := ⟨(0x7000) * 8 + 12, 1, 0⟩
def BOOT_STAT_HOST_READY : Fld := ⟨(0x7000) * 8 + 13, 1, 0⟩
def BOOT_STAT_GO_REJ : Fld := ⟨(0x7000) * 8 + 14, 1, 0⟩
def BOOT_STAT_DBG_OPEN : Fld := ⟨(0x7000) * 8 + 15, 1, 0⟩
def BOOT_STAT_DATA_IGN : Fld := ⟨(0x7000) * 8 + 16, 16, 0⟩
def BOOT_CTRL_MGMT_GO : Fld := ⟨(0x7004) * 8 + 0, 1, 0⟩
def BOOT_CTRL_HOST_READY : Fld := ⟨(0x7004) * 8 + 1, 1, 0⟩
def BOOT_CTRL_HOST_GO : Fld := ⟨(0x7004) * 8 + 2, 1, 0⟩
def BOOT_CTRL_DBG_UNLOCK : Fld := ⟨(0x7004) * 8 + 3, 1, 0⟩
def BOOT_DATA_DATA : Fld := ⟨(0x7008) * 8 + 0, 32, 0⟩
def BOOT_WORDS_WORDS : Fld := ⟨(0x700c) * 8 + 0, 22, 0⟩
def BOOT_IMG_ROLLBACK : Fld := ⟨(0x7010) * 8 + 0, 7, 0⟩
def BOOT_IMG_COUNT : Fld := ⟨(0x7010) * 8 + 8, 7, 0⟩
def BOOT_DIGEST_DIGEST (i : Nat) : Fld := ⟨(0x7020 + 0x4 * i) * 8 + 0, 32, 0⟩

end R

def regs00_0 : List RegDesc := [
  ⟨"MEM_CHIP_ID", 0x4000, [], [⟨0, 15, .rwl, []⟩]⟩,
  ⟨"MEM_ECC_CTRL", 0x4004, [], [⟨0, 1, .rw, []⟩, ⟨1, 1, .rw, []⟩, ⟨2, 1, .rw, [1]⟩]⟩,
  ⟨"MEM_SCRUB", 0x4008, [], [⟨0, 1, .rw, []⟩, ⟨8, 24, .rw, []⟩]⟩,
  ⟨"MEM_CE_ADDR_LO", 0x4010, [], [⟨0, 32, .ro, []⟩]⟩,
  ⟨"MEM_CE_ADDR_HI", 0x4014, [], [⟨0, 16, .ro, []⟩, ⟨16, 6, .ro, []⟩, ⟨22, 2, .ro, []⟩, ⟨24, 1, .ro, []⟩, ⟨31, 1, .w1c, []⟩]⟩,
  ⟨"MEM_UE_ADDR_LO", 0x4018, [], [⟨0, 32, .ro, []⟩]⟩,
  ⟨"MEM_UE_ADDR_HI", 0x401c, [], [⟨0, 16, .ro, []⟩, ⟨16, 6, .ro, []⟩, ⟨22, 2, .ro, []⟩, ⟨24, 1, .ro, []⟩, ⟨31, 1, .w1c, []⟩]⟩,
  ⟨"MEM_MAP_ADDR_LO", 0x4020, [], [⟨0, 32, .ro, []⟩]⟩,
  ⟨"MEM_MAP_ADDR_HI", 0x4024, [], [⟨0, 16, .ro, []⟩, ⟨16, 6, .ro, []⟩, ⟨22, 2, .ro, []⟩, ⟨24, 1, .ro, []⟩, ⟨31, 1, .w1c, []⟩]⟩,
  ⟨"MEM_CNT1", 0x4028, [], [⟨0, 16, .ro, []⟩, ⟨16, 16, .ro, []⟩]⟩,
  ⟨"MEM_CNT2", 0x402c, [], [⟨0, 16, .ro, []⟩, ⟨16, 16, .ro, []⟩]⟩,
  ⟨"MEM_CNT_CLR", 0x4030, [], [⟨0, 1, .wo, []⟩]⟩,
  ⟨"MEM_INJ_ADDR_LO", 0x4040, [], [⟨3, 29, .rw, []⟩]⟩,
  ⟨"MEM_INJ_CTRL", 0x4044, [], [⟨0, 16, .rw, []⟩, ⟨16, 2, .rw, []⟩, ⟨18, 6, .rw, []⟩, ⟨31, 1, .rw, []⟩]⟩,
  ⟨"MEM_ZERO", 0x4050, [], [⟨0, 8, .rw, []⟩, ⟨8, 1, .wo, []⟩, ⟨9, 1, .ro, []⟩, ⟨10, 1, .w1c, []⟩, ⟨11, 1, .w1c, []⟩, ⟨12, 1, .rw, []⟩]⟩,
  ⟨"GLOBAL_ID", 0x0, [], [⟨0, 16, .ro, [0x7640]⟩, ⟨16, 4, .ro, [2]⟩, ⟨20, 4, .ro, []⟩]⟩,
  ⟨"ID_FUSE", 0x4, [], [⟨0, 2, .ro, []⟩, ⟨2, 1, .ro, []⟩, ⟨3, 7, .ro, []⟩, ⟨10, 1, .ro, []⟩, ⟨11, 1, .ro, []⟩, ⟨12, 1, .ro, []⟩, ⟨13, 1, .ro, []⟩]⟩,
  ⟨"ID_TILE_MAP_LO", 0x8, [], [⟨0, 32, .ro, []⟩]⟩,
  ⟨"ID_TILE_MAP_HI", 0xc, [], [⟨0, 32, .ro, []⟩]⟩,
  ⟨"ID_SERIAL_LO", 0x10, [], [⟨0, 32, .ro, []⟩]⟩,
  ⟨"ID_SERIAL_HI", 0x14, [], [⟨0, 32, .ro, []⟩]⟩,
  ⟨"ID_KEY_HASH", 0x20, [(8, 0x4)], [⟨0, 32, .ro, []⟩]⟩,
  ⟨"ID_ROLLBACK_LO", 0x40, [], [⟨0, 32, .ro, []⟩]⟩,
  ⟨"ID_ROLLBACK_HI", 0x44, [], [⟨0, 32, .ro, []⟩]⟩,
  ⟨"GLOBAL_MODE", 0x50, [], [⟨0, 1, .rwl, []⟩]⟩,
  ⟨"SETUP_LOCK", 0x54, [], [⟨0, 1, .w1s, []⟩, ⟨1, 1, .w1s, []⟩]⟩,
  ⟨"GLOBAL_IRQ_STAT", 0x60, [], [⟨0, 19, .ro, []⟩]⟩,
  ⟨"GLOBAL_IRQ_CORE", 0x70, [(4, 0x4)], [⟨0, 19, .rw, [0x7FFFF]⟩]⟩,
  ⟨"RP_CTRL", 0x5000, [], [⟨0, 1, .rw, []⟩, ⟨1, 7, .rwl, []⟩]⟩,
  ⟨"RP_STAT", 0x5004, [], [⟨0, 1, .w1c, []⟩, ⟨1, 1, .ro, []⟩, ⟨2, 1, .w1c, []⟩]⟩,
  ⟨"RP_FP_LO", 0x5008, [], [⟨0, 32, .ro, []⟩]⟩,
  ⟨"RP_FP_HI", 0x500c, [], [⟨0, 32, .ro, []⟩]⟩,
  ⟨"RP_PLACE_HASH", 0x5010, [], [⟨0, 32, .ro, []⟩]⟩,
  ⟨"RP_SEED", 0x5020, [(4, 0x4)], [⟨0, 32, .rw, []⟩]⟩,
  ⟨"RP_STEP_LO", 0x5030, [], [⟨0, 32, .rw, []⟩]⟩,
  ⟨"RP_STEP_HI", 0x5034, [], [⟨0, 32, .rw, []⟩]⟩,
  ⟨"RP_STEP_ADV", 0x5038, [], [⟨0, 1, .wo, []⟩]⟩,
  ⟨"RP_GEN_STEP_LO", 0x5040, [], [⟨0, 32, .rw, []⟩]⟩,
  ⟨"RP_GEN_STEP_HI", 0x5044, [], [⟨0, 32, .rw, []⟩]⟩,
  ⟨"RP_GEN_IDX_LO", 0x5048, [], [⟨0, 32, .rw, []⟩]⟩]

def regs00_1 : List RegDesc := [
  ⟨"RP_GEN_IDX_HI", 0x504c, [], [⟨0, 32, .rw, []⟩]⟩,
  ⟨"RP_GEN_OUT", 0x5050, [(4, 0x4)], [⟨0, 32, .ro, []⟩]⟩,
  ⟨"LS_CTRL", 0x5080, [], [⟨0, 1, .rw, []⟩, ⟨1, 3, .rwl, []⟩, ⟨4, 1, .rwl, []⟩, ⟨5, 1, .rw, []⟩]⟩,
  ⟨"LS_STAT", 0x5084, [], [⟨0, 1, .w1c, []⟩, ⟨1, 1, .w1c, []⟩, ⟨2, 1, .w1c, []⟩, ⟨3, 1, .w1c, []⟩, ⟨16, 16, .ro, []⟩]⟩,
  ⟨"LS_STEP_LO", 0x5088, [], [⟨0, 32, .ro, []⟩]⟩,
  ⟨"LS_STEP_HI", 0x508c, [], [⟨0, 32, .ro, []⟩]⟩,
  ⟨"LS_WHERE", 0x5090, [], [⟨0, 6, .ro, []⟩, ⟨6, 6, .ro, []⟩, ⟨12, 9, .ro, []⟩, ⟨21, 9, .ro, []⟩, ⟨31, 1, .ro, []⟩]⟩,
  ⟨"LS_CNT", 0x5094, [], [⟨0, 32, .ro, []⟩]⟩,
  ⟨"LS_TMO", 0x5098, [], [⟨0, 20, .rw, [1000]⟩]⟩,
  ⟨"UL_CTRL", 0x6000, [], [⟨0, 1, .rw, []⟩, ⟨1, 1, .rw, []⟩, ⟨2, 1, .w1c, []⟩]⟩,
  ⟨"UL_CMD", 0x6004, [], [⟨0, 7, .wo, []⟩, ⟨8, 3, .wo, []⟩]⟩,
  ⟨"UL_SEL", 0x6008, [], [⟨0, 7, .rw, []⟩]⟩,
  ⟨"UL_STAT", 0x600c, [], [⟨0, 2, .ro, []⟩, ⟨2, 8, .ro, []⟩, ⟨10, 1, .ro, []⟩, ⟨11, 1, .ro, []⟩, ⟨12, 1, .ro, []⟩, ⟨13, 1, .ro, []⟩, ⟨14, 1, .w1c, []⟩, ⟨15, 3, .ro, []⟩, ⟨18, 1, .ro, [1]⟩, ⟨20, 12, .ro, []⟩]⟩,
  ⟨"UL_TIME", 0x6010, [], [⟨0, 10, .rw, [50]⟩, ⟨16, 8, .rw, []⟩]⟩,
  ⟨"UL_CNT1", 0x6014, [], [⟨0, 16, .ro, []⟩, ⟨16, 16, .ro, []⟩]⟩,
  ⟨"UL_CNT2", 0x6018, [], [⟨0, 16, .ro, []⟩, ⟨16, 16, .ro, []⟩]⟩,
  ⟨"UL_AUTO", 0x6020, [(4, 0x4)], [⟨0, 32, .rwl, []⟩]⟩,
  ⟨"UL_STATE", 0x6040, [(8, 0x4)], [⟨0, 32, .ro, []⟩]⟩,
  ⟨"UL_EPOCH", 0x6080, [(32, 0x4)], [⟨0, 32, .ro, []⟩]⟩,
  ⟨"BOOT_STAT", 0x7000, [], [⟨0, 4, .ro, [1]⟩, ⟨4, 4, .ro, []⟩, ⟨8, 2, .ro, []⟩, ⟨10, 2, .ro, []⟩, ⟨12, 1, .ro, []⟩, ⟨13, 1, .ro, []⟩, ⟨14, 1, .w1c, []⟩, ⟨15, 1, .ro, []⟩, ⟨16, 16, .ro, []⟩]⟩,
  ⟨"BOOT_CTRL", 0x7004, [], [⟨0, 1, .wo, []⟩, ⟨1, 1, .wo, []⟩, ⟨2, 1, .wo, []⟩, ⟨3, 1, .wo, []⟩]⟩,
  ⟨"BOOT_DATA", 0x7008, [], [⟨0, 32, .wo, []⟩]⟩,
  ⟨"BOOT_WORDS", 0x700c, [], [⟨0, 22, .ro, []⟩]⟩,
  ⟨"BOOT_IMG", 0x7010, [], [⟨0, 7, .ro, []⟩, ⟨8, 7, .ro, []⟩]⟩,
  ⟨"BOOT_DIGEST", 0x7020, [(8, 0x4)], [⟨0, 32, .ro, []⟩]⟩]

/-- The registers from 0x00_0000 on, by address in the register space (R774). -/
def regs00_ : List RegDesc :=
  regs00_0 ++ regs00_1

def regs01_0 : List RegDesc := [
  ⟨"CLK_STAT", 0x10000, [], [⟨0, 1, .ro, []⟩, ⟨1, 1, .ro, []⟩, ⟨2, 1, .ro, []⟩, ⟨3, 1, .ro, []⟩, ⟨4, 1, .ro, []⟩, ⟨5, 1, .w1c, []⟩, ⟨6, 1, .w1c, []⟩]⟩,
  ⟨"CLK_OP", 0x10004, [], [⟨0, 3, .rw, [7]⟩, ⟨4, 3, .ro, []⟩, ⟨8, 1, .ro, []⟩]⟩,
  ⟨"CLK_DVFS", 0x10008, [], [⟨0, 16, .rwl, []⟩, ⟨16, 8, .rwl, [100]⟩]⟩,
  ⟨"CLK_CNT", 0x1000c, [], [⟨0, 16, .ro, []⟩, ⟨16, 16, .ro, []⟩]⟩]

/-- The registers from 0x01_0000 on, by address in the register space (R774). -/
def regs01_ : List RegDesc :=
  regs01_0

def regs02_0 : List RegDesc := [
  ⟨"BEL_CTRL", 0x20000, [], [⟨0, 1, .rw, []⟩, ⟨1, 1, .rw, []⟩, ⟨2, 1, .rw, []⟩, ⟨3, 1, .rw, []⟩]⟩,
  ⟨"BEL_STAT", 0x20004, [], [⟨0, 1, .ro, []⟩, ⟨1, 1, .ro, []⟩, ⟨2, 1, .w1c, []⟩, ⟨3, 1, .w1c, []⟩, ⟨16, 16, .ro, []⟩]⟩,
  ⟨"BEL_BUDGET", 0x20008, [], [⟨0, 9, .rwl, [350]⟩]⟩,
  ⟨"BEL_RES", 0x2000c, [], [⟨0, 8, .rwl, []⟩, ⟨8, 8, .rwl, []⟩, ⟨16, 10, .rw, []⟩]⟩,
  ⟨"BEL_SHARE", 0x20010, [], [⟨0, 9, .rw, []⟩, ⟨16, 8, .rw, [192]⟩]⟩,
  ⟨"BEL_THERM", 0x20014, [], [⟨0, 8, .rwl, [95]⟩, ⟨8, 8, .rw, []⟩, ⟨16, 8, .rwl, [100]⟩, ⟨24, 8, .rwl, [105]⟩]⟩,
  ⟨"BEL_THERM2", 0x20018, [], [⟨0, 4, .rw, [5]⟩, ⟨4, 12, .rw, [100]⟩, ⟨16, 3, .rw, []⟩, ⟨20, 3, .rw, [7]⟩, ⟨24, 8, .rw, [4]⟩]⟩,
  ⟨"BEL_WIN", 0x2001c, [], [⟨0, 9, .ro, []⟩, ⟨16, 12, .ro, []⟩, ⟨28, 4, .ro, [0]⟩]⟩,
  ⟨"BEL_BAL_C", 0x20020, [], [⟨0, 32, .ro, []⟩]⟩,
  ⟨"BEL_BAL_P", 0x20024, [], [⟨0, 32, .ro, []⟩]⟩,
  ⟨"BEL_BAL_B", 0x20028, [], [⟨0, 32, .ro, []⟩]⟩,
  ⟨"BEL_PWR_DN", 0x20030, [(2, 0x4)], [⟨0, 32, .rw, []⟩]⟩,
  ⟨"BEL_PWR_ON", 0x20038, [(2, 0x4)], [⟨0, 32, .ro, [0xFFFFFFFF]⟩]⟩,
  ⟨"BEL_PWR_MISC", 0x20040, [], [⟨0, 1, .rw, []⟩, ⟨1, 1, .ro, [1]⟩]⟩,
  ⟨"BEL_USED_LO", 0x20080, [(4, 0x8)], [⟨0, 32, .ro, []⟩]⟩,
  ⟨"BEL_USED_HI", 0x20084, [(4, 0x8)], [⟨0, 32, .ro, []⟩]⟩,
  ⟨"BEL_TEMP", 0x20100, [(16, 0x4)], [⟨0, 12, .ro, []⟩, ⟨31, 1, .ro, []⟩]⟩]

/-- The registers from 0x02_0000 on, by address in the register space (R774). -/
def regs02_ : List RegDesc :=
  regs02_0

def regs03_0 : List RegDesc := [
  ⟨"DRN_CTRL", 0x30000, [(16, 0x400)], [⟨0, 1, .rw, []⟩, ⟨1, 1, .wo, []⟩, ⟨2, 1, .wo, []⟩, ⟨3, 1, .rwl, []⟩, ⟨4, 1, .rw, []⟩, ⟨5, 1, .wo, []⟩, ⟨8, 8, .rw, [8]⟩]⟩,
  ⟨"DRN_SRC", 0x30004, [(16, 0x400)], [⟨0, 4, .rwl, []⟩, ⟨4, 6, .rwl, []⟩, ⟨10, 4, .rwl, []⟩, ⟨14, 6, .rwl, []⟩, ⟨20, 6, .rwl, []⟩]⟩,
  ⟨"DRN_SCALE_LO", 0x30008, [(16, 0x400)], [⟨0, 32, .rwl, []⟩]⟩,
  ⟨"DRN_SCALE_HI", 0x3000c, [(16, 0x400)], [⟨0, 16, .rwl, []⟩]⟩,
  ⟨"DRN_MOD", 0x30010, [(16, 0x400)], [⟨0, 32, .rwl, []⟩]⟩,
  ⟨"DRN_GAIN_L", 0x30014, [(16, 0x400)], [⟨0, 16, .rw, []⟩, ⟨16, 16, .rw, []⟩]⟩,
  ⟨"DRN_GAIN_A", 0x30018, [(16, 0x400)], [⟨0, 16, .rw, []⟩, ⟨16, 16, .rw, []⟩]⟩,
  ⟨"DRN_SHIFT", 0x3001c, [(16, 0x400)], [⟨0, 5, .rw, []⟩, ⟨8, 5, .rw, []⟩, ⟨16, 5, .rw, []⟩, ⟨24, 5, .rw, []⟩]⟩,
  ⟨"DRN_LOCK_THR", 0x30020, [(16, 0x400)], [⟨0, 32, .rw, []⟩]⟩,
  ⟨"DRN_FINIT_LO", 0x30024, [(16, 0x400)], [⟨0, 32, .rw, []⟩]⟩,
  ⟨"DRN_FINIT_HI", 0x30028, [(16, 0x400)], [⟨0, 16, .rw, []⟩]⟩,
  ⟨"DRN_FMIN", 0x3002c, [(16, 0x400)], [⟨0, 32, .rw, []⟩]⟩,
  ⟨"DRN_FMAX", 0x30030, [(16, 0x400)], [⟨0, 32, .rw, [0x7FFFFFFF]⟩]⟩,
  ⟨"DRN_EXP", 0x30034, [(16, 0x400)], [⟨0, 24, .rw, []⟩, ⟨24, 8, .rw, []⟩]⟩,
  ⟨"DRN_ERRMAX", 0x30038, [(16, 0x400)], [⟨0, 32, .rw, []⟩]⟩,
  ⟨"DRN_OUTL", 0x3003c, [(16, 0x400)], [⟨0, 8, .rw, []⟩]⟩,
  ⟨"DRN_HOLD_MAX", 0x30040, [(16, 0x400)], [⟨0, 32, .rw, []⟩]⟩,
  ⟨"DRN_SLEW", 0x30044, [(16, 0x400)], [⟨0, 16, .rw, []⟩]⟩,
  ⟨"DRN_HYST", 0x30048, [(16, 0x400)], [⟨0, 32, .rw, []⟩]⟩,
  ⟨"DRN_DELAY", 0x3004c, [(16, 0x400)], [⟨0, 12, .rwl, []⟩]⟩,
  ⟨"DRN_PRESET_PH", 0x30050, [(16, 0x400)], [⟨0, 32, .rw, []⟩]⟩,
  ⟨"DRN_PRESET_CC", 0x30054, [(16, 0x400)], [⟨0, 16, .rw, []⟩]⟩,
  ⟨"DRN_NOTIFY", 0x30058, [(16, 0x400)], [⟨0, 2, .rw, []⟩, ⟨2, 8, .rw, []⟩, ⟨10, 4, .rw, []⟩, ⟨14, 4, .rw, []⟩, ⟨18, 1, .rw, []⟩, ⟨19, 1, .rw, []⟩]⟩,
  ⟨"DRN_SNAP_LO", 0x30060, [(16, 0x400)], [⟨0, 32, .ro, []⟩]⟩,
  ⟨"DRN_SNAP_HI", 0x30064, [(16, 0x400)], [⟨0, 16, .ro, []⟩, ⟨16, 3, .ro, []⟩, ⟨19, 2, .ro, []⟩, ⟨21, 1, .ro, []⟩]⟩,
  ⟨"DRN_FREQ_LO", 0x30068, [(16, 0x400)], [⟨0, 32, .ro, []⟩]⟩,
  ⟨"DRN_FREQ_HI", 0x3006c, [(16, 0x400)], [⟨0, 16, .ro, []⟩]⟩,
  ⟨"DRN_ERR", 0x30070, [(16, 0x400)], [⟨0, 32, .ro, []⟩]⟩,
  ⟨"DRN_STAT", 0x30074, [(16, 0x400)], [⟨0, 3, .ro, []⟩, ⟨3, 2, .ro, []⟩, ⟨5, 1, .ro, []⟩, ⟨6, 1, .w1c, []⟩, ⟨7, 1, .ro, []⟩, ⟨8, 1, .w1c, []⟩, ⟨9, 1, .w1c, []⟩, ⟨10, 1, .w1c, []⟩, ⟨11, 1, .w1c, []⟩, ⟨16, 16, .ro, []⟩]⟩,
  ⟨"DRN_CNT1", 0x30078, [(16, 0x400)], [⟨0, 16, .ro, []⟩, ⟨16, 16, .ro, []⟩]⟩,
  ⟨"DRN_CNT2", 0x3007c, [(16, 0x400)], [⟨0, 16, .ro, []⟩, ⟨16, 16, .ro, []⟩]⟩,
  ⟨"DRN_CNT3", 0x30080, [(16, 0x400)], [⟨0, 16, .ro, []⟩]⟩,
  ⟨"EV_PHASE", 0x30200, [(16, 0x400), (16, 0x10)], [⟨0, 32, .rw, []⟩]⟩,
  ⟨"EV_CTRL", 0x30204, [(16, 0x400), (16, 0x10)], [⟨0, 2, .rw, []⟩, ⟨2, 2, .rw, []⟩, ⟨4, 1, .rw, []⟩, ⟨5, 1, .rw, []⟩, ⟨6, 1, .w1c, []⟩, ⟨16, 16, .rw, []⟩]⟩,
  ⟨"EV_TARGET", 0x30208, [(16, 0x400), (16, 0x10)], [⟨0, 2, .rw, []⟩, ⟨2, 8, .rw, []⟩, ⟨10, 4, .rw, []⟩, ⟨14, 4, .rw, []⟩, ⟨18, 1, .rw, []⟩, ⟨19, 1, .rw, []⟩]⟩,
  ⟨"EV_CC", 0x3020c, [(16, 0x400), (16, 0x10)], [⟨0, 16, .rw, []⟩, ⟨16, 16, .rw, []⟩]⟩,
  ⟨"DRN_LADDR_LO", 0x34000, [], [⟨0, 32, .rw, []⟩]⟩,
  ⟨"DRN_LADDR_HI", 0x34004, [], [⟨0, 32, .rw, []⟩]⟩,
  ⟨"LATCH", 0x35000, [(36, 0x4)], [⟨0, 32, .ro, []⟩]⟩]

/-- The registers from 0x03_0000 on, by address in the register space (R774). -/
def regs03_ : List RegDesc :=
  regs03_0

def regs04_0 : List RegDesc := [
  ⟨"SF_CTRL", 0x40000, [], [⟨0, 1, .rw, []⟩, ⟨1, 1, .rw, []⟩, ⟨2, 1, .rw, []⟩, ⟨3, 1, .rwl, []⟩, ⟨4, 1, .rw, []⟩]⟩,
  ⟨"SF_STAT", 0x40004, [], [⟨0, 1, .ro, [1]⟩, ⟨1, 1, .ro, []⟩, ⟨2, 1, .ro, []⟩, ⟨3, 1, .w1c, []⟩, ⟨4, 1, .w1c, []⟩, ⟨8, 8, .ro, []⟩, ⟨16, 16, .ro, []⟩]⟩,
  ⟨"SF_ENTER", 0x40008, [], [⟨0, 1, .wo, []⟩]⟩,
  ⟨"SF_EXIT", 0x4000c, [], [⟨0, 16, .wo, []⟩]⟩,
  ⟨"SF_CAUSE", 0x40010, [], [⟨0, 7, .ro, [0x7E]⟩, ⟨8, 8, .ro, []⟩, ⟨31, 1, .ro, [1]⟩]⟩,
  ⟨"SF_TIME_LO", 0x40014, [], [⟨0, 32, .ro, []⟩]⟩,
  ⟨"SF_TIME_HI", 0x40018, [], [⟨0, 16, .ro, []⟩]⟩,
  ⟨"SF_SWFAULT", 0x4001c, [], [⟨0, 7, .wo, []⟩]⟩,
  ⟨"SF_STO", 0x40020, [], [⟨0, 1, .rw, []⟩, ⟨1, 1, .rw, []⟩, ⟨2, 1, .rw, []⟩, ⟨8, 8, .rw, []⟩, ⟨16, 8, .rw, []⟩]⟩,
  ⟨"SF_IN", 0x40024, [], [⟨0, 8, .rwl, [25]⟩]⟩,
  ⟨"SF_WDT", 0x40028, [], [⟨0, 16, .rw, []⟩, ⟨16, 16, .rw, []⟩]⟩,
  ⟨"SF_WDT_KICK", 0x4002c, [], [⟨0, 8, .wo, []⟩]⟩,
  ⟨"SF_PEND", 0x40040, [(4, 0x4)], [⟨0, 32, .w1c, []⟩]⟩,
  ⟨"SF_REACT", 0x40080, [(8, 0x4)], [⟨0, 32, .rw, [0xA95AAAAA, 0x16AAAAAA, 0xAA555555, 0x55555555, 0x55555555, 0x55555555, 0xAAAAAAAA, 0x0000AAAA]⟩]⟩,
  ⟨"FW_SEL", 0x40100, [], [⟨0, 7, .rw, []⟩, ⟨8, 6, .rw, []⟩]⟩,
  ⟨"FW_BASE_LO", 0x40104, [], [⟨6, 26, .rw, []⟩]⟩,
  ⟨"FW_BASE_HI", 0x40108, [], [⟨0, 16, .rw, []⟩]⟩,
  ⟨"FW_LIMIT_LO", 0x4010c, [], [⟨6, 26, .rw, []⟩]⟩,
  ⟨"FW_LIMIT_HI", 0x40110, [], [⟨0, 16, .rw, []⟩]⟩,
  ⟨"FW_INIT_LO", 0x40114, [], [⟨0, 32, .rw, []⟩]⟩,
  ⟨"FW_INIT_HI", 0x40118, [], [⟨0, 32, .rw, []⟩]⟩,
  ⟨"FW_ATTR", 0x4011c, [], [⟨0, 1, .rw, []⟩, ⟨1, 4, .rw, []⟩, ⟨5, 4, .rw, []⟩, ⟨9, 1, .rw, []⟩]⟩,
  ⟨"FW_CMD", 0x40120, [], [⟨0, 1, .wo, []⟩, ⟨1, 1, .wo, []⟩, ⟨2, 1, .wo, []⟩, ⟨3, 1, .wo, []⟩]⟩,
  ⟨"FW_STAT", 0x40124, [], [⟨0, 1, .ro, []⟩, ⟨1, 1, .ro, []⟩, ⟨2, 1, .w1c, []⟩]⟩,
  ⟨"FW_LOG_LO", 0x40130, [], [⟨0, 32, .ro, []⟩]⟩,
  ⟨"FW_LOG_HI", 0x40134, [], [⟨0, 16, .ro, []⟩, ⟨16, 6, .ro, []⟩, ⟨22, 2, .ro, []⟩, ⟨24, 1, .ro, []⟩, ⟨25, 1, .ro, []⟩, ⟨26, 5, .ro, []⟩, ⟨31, 1, .w1c, []⟩]⟩,
  ⟨"FW_CNT", 0x40138, [], [⟨0, 30, .ro, []⟩, ⟨30, 2, .ro, []⟩]⟩,
  ⟨"CM_CFG", 0x40200, [(16, 0x10)], [⟨0, 1, .rw, []⟩, ⟨1, 6, .rw, []⟩, ⟨7, 3, .rw, []⟩, ⟨10, 1, .rw, []⟩, ⟨11, 1, .rw, []⟩, ⟨12, 4, .rw, []⟩]⟩,
  ⟨"CM_THR", 0x40204, [(16, 0x10)], [⟨0, 32, .rw, []⟩]⟩,
  ⟨"CM_AXES", 0x40208, [(16, 0x10)], [⟨0, 12, .rw, []⟩]⟩,
  ⟨"CM_STAT", 0x4020c, [(16, 0x10)], [⟨0, 4, .ro, []⟩, ⟨4, 1, .w1c, []⟩, ⟨16, 16, .ro, []⟩]⟩,
  ⟨"SC_CFG", 0x40400, [(8, 0x40)], [⟨0, 1, .rw, []⟩, ⟨1, 1, .rwl, []⟩, ⟨2, 2, .rwl, []⟩, ⟨4, 2, .rwl, []⟩, ⟨6, 1, .rwl, []⟩, ⟨7, 1, .rwl, []⟩, ⟨8, 1, .rw, []⟩]⟩,
  ⟨"SC_CONN", 0x40404, [(8, 0x40)], [⟨0, 16, .rwl, []⟩, ⟨16, 16, .rwl, []⟩]⟩,
  ⟨"SC_TX_SEED", 0x40408, [(8, 0x40)], [⟨0, 32, .rwl, []⟩]⟩,
  ⟨"SC_RX_SEED", 0x4040c, [(8, 0x40)], [⟨0, 32, .rwl, []⟩]⟩,
  ⟨"SC_BUF", 0x40410, [(8, 0x40)], [⟨8, 12, .rwl, []⟩]⟩,
  ⟨"SC_PERIOD", 0x40414, [(8, 0x40)], [⟨0, 16, .rw, []⟩]⟩,
  ⟨"SC_RXTMO", 0x40418, [(8, 0x40)], [⟨0, 16, .rw, []⟩]⟩,
  ⟨"SC_ID", 0x4041c, [(8, 0x40)], [⟨0, 29, .rwl, []⟩, ⟨29, 1, .rwl, []⟩]⟩,
  ⟨"SC_STAT", 0x40420, [(8, 0x40)], [⟨0, 16, .ro, []⟩, ⟨16, 1, .w1c, []⟩]⟩]

def regs04_1 : List RegDesc := [
  ⟨"SC_CNT", 0x40424, [(8, 0x40)], [⟨0, 16, .ro, []⟩, ⟨16, 16, .ro, []⟩]⟩,
  ⟨"VM_CFG", 0x40800, [(16, 0x8)], [⟨0, 1, .rw, []⟩, ⟨1, 1, .rw, []⟩, ⟨2, 2, .rw, []⟩, ⟨4, 3, .rw, []⟩, ⟨8, 8, .rw, []⟩]⟩,
  ⟨"VM_MASK", 0x40804, [(16, 0x8)], [⟨0, 8, .rw, []⟩]⟩,
  ⟨"SF_CTX_INIT", 0x42000, [(128, 0x40), (16, 0x4)], [⟨0, 6, .rw, []⟩]⟩]

/-- The registers from 0x04_0000 on, by address in the register space (R774). -/
def regs04_ : List RegDesc :=
  regs04_0 ++ regs04_1

def regs10_0 : List RegDesc := [
  ⟨"AX_CTRL", 0x100000, [(12, 0x1000)], [⟨0, 1, .wo, []⟩, ⟨1, 1, .wo, []⟩, ⟨2, 1, .wo, []⟩, ⟨3, 1, .rw, []⟩, ⟨4, 1, .rwl, []⟩, ⟨5, 1, .rwl, []⟩, ⟨6, 1, .rwl, []⟩, ⟨7, 1, .rwl, []⟩, ⟨8, 1, .rw, []⟩, ⟨9, 1, .rw, []⟩]⟩,
  ⟨"AX_STAT", 0x100004, [(12, 0x1000)], [⟨0, 3, .ro, []⟩, ⟨3, 3, .ro, []⟩, ⟨6, 4, .ro, []⟩, ⟨10, 1, .w1c, []⟩, ⟨11, 1, .w1c, []⟩, ⟨12, 1, .w1c, []⟩, ⟨13, 1, .w1c, []⟩, ⟨14, 1, .w1c, []⟩, ⟨15, 1, .ro, []⟩]⟩,
  ⟨"AX_PWM", 0x100008, [(12, 0x1000)], [⟨0, 16, .rw, []⟩, ⟨16, 1, .rwl, []⟩]⟩,
  ⟨"AX_DT", 0x10000c, [(12, 0x1000)], [⟨0, 12, .rw, []⟩, ⟨16, 12, .rw, []⟩]⟩,
  ⟨"AX_POL", 0x100010, [(12, 0x1000)], [⟨0, 11, .rwl, []⟩]⟩,
  ⟨"AX_RESYNC", 0x100014, [(12, 0x1000)], [⟨0, 1, .rwl, []⟩, ⟨4, 21, .rw, []⟩]⟩,
  ⟨"AX_RESYNC2", 0x100018, [(12, 0x1000)], [⟨0, 12, .rw, []⟩]⟩,
  ⟨"AX_CMP", 0x100020, [(12, 0x1000), (3, 0x4)], [⟨0, 20, .rw, []⟩]⟩,
  ⟨"AX_SLOTS", 0x100030, [(12, 0x1000)], [⟨0, 7, .rwl, []⟩, ⟨8, 7, .rwl, []⟩, ⟨16, 7, .rwl, []⟩, ⟨23, 1, .rwl, []⟩]⟩,
  ⟨"AX_FB", 0x100034, [(12, 0x1000)], [⟨0, 4, .rwl, []⟩, ⟨4, 4, .rwl, []⟩, ⟨8, 8, .rwl, []⟩, ⟨16, 6, .rwl, []⟩, ⟨22, 1, .rwl, []⟩, ⟨23, 5, .rwl, []⟩, ⟨28, 1, .rwl, []⟩, ⟨29, 1, .rwl, []⟩]⟩,
  ⟨"AX_ELEC_OFS", 0x100038, [(12, 0x1000)], [⟨0, 32, .rw, []⟩]⟩,
  ⟨"AX_SREF_SRC", 0x10003c, [(12, 0x1000)], [⟨0, 32, .rwl, []⟩]⟩,
  ⟨"AX_START_RATE", 0x100040, [(12, 0x1000)], [⟨0, 31, .rw, []⟩]⟩,
  ⟨"AX_BRAKE_RATE", 0x100044, [(12, 0x1000)], [⟨0, 31, .rw, []⟩]⟩,
  ⟨"AX_STOP_RATE", 0x100048, [(12, 0x1000)], [⟨0, 31, .rw, []⟩]⟩,
  ⟨"AX_CATCH_THR", 0x10004c, [(12, 0x1000)], [⟨0, 32, .rw, []⟩]⟩,
  ⟨"AX_CATCH", 0x100050, [(12, 0x1000)], [⟨0, 8, .rw, [20]⟩, ⟨8, 11, .rw, [1600]⟩, ⟨19, 1, .rw, []⟩, ⟨20, 1, .rw, []⟩, ⟨21, 6, .rw, []⟩]⟩,
  ⟨"AX_OBS", 0x100054, [(12, 0x1000)], [⟨0, 6, .rw, []⟩, ⟨6, 3, .rw, []⟩, ⟨9, 6, .rw, []⟩, ⟨15, 3, .rw, []⟩, ⟨18, 6, .rw, []⟩, ⟨24, 3, .rw, []⟩]⟩,
  ⟨"AX_DET", 0x100058, [(12, 0x1000)], [⟨0, 8, .rw, [16]⟩, ⟨8, 10, .rw, [200]⟩, ⟨18, 8, .rw, [4]⟩]⟩,
  ⟨"AX_KE", 0x100060, [(12, 0x1000)], [⟨0, 32, .rw, []⟩]⟩,
  ⟨"AX_ILIM", 0x100064, [(12, 0x1000)], [⟨0, 32, .rw, []⟩]⟩,
  ⟨"AX_IBRAKE", 0x100068, [(12, 0x1000)], [⟨0, 32, .rw, []⟩]⟩,
  ⟨"AX_IMOVE", 0x10006c, [(12, 0x1000)], [⟨0, 32, .rw, []⟩]⟩,
  ⟨"AX_WMOVE", 0x100070, [(12, 0x1000)], [⟨0, 32, .rw, []⟩]⟩,
  ⟨"AX_TQ_TOL", 0x100074, [(12, 0x1000)], [⟨0, 32, .rw, []⟩]⟩,
  ⟨"AX_VBUS_MAX", 0x100078, [(12, 0x1000)], [⟨0, 32, .rw, []⟩]⟩,
  ⟨"AX_CH_ON", 0x10007c, [(12, 0x1000)], [⟨0, 32, .rw, []⟩]⟩,
  ⟨"AX_CH_OFF", 0x100080, [(12, 0x1000)], [⟨0, 32, .rw, []⟩]⟩,
  ⟨"AX_BRK", 0x100084, [(12, 0x1000)], [⟨0, 24, .rw, []⟩, ⟨24, 8, .rw, []⟩]⟩,
  ⟨"AX_ENC", 0x100088, [(12, 0x1000)], [⟨0, 2, .rwl, []⟩, ⟨2, 8, .rwl, []⟩, ⟨10, 2, .rw, []⟩, ⟨12, 1, .wo, []⟩, ⟨13, 1, .w1c, []⟩, ⟨14, 3, .rwl, []⟩]⟩,
  ⟨"AX_ENC_CNT", 0x10008c, [(12, 0x1000)], [⟨0, 32, .rw, []⟩]⟩,
  ⟨"AX_ENC_IDX", 0x100090, [(12, 0x1000)], [⟨0, 32, .ro, []⟩]⟩,
  ⟨"AX_CNT1", 0x100094, [(12, 0x1000)], [⟨0, 16, .ro, []⟩, ⟨16, 16, .ro, []⟩]⟩,
  ⟨"AX_CNT2", 0x100098, [(12, 0x1000)], [⟨0, 16, .ro, []⟩, ⟨16, 16, .ro, []⟩]⟩,
  ⟨"AX_TOK", 0x1000a0, [(12, 0x1000), (6, 0x4)], [⟨0, 8, .rwl, []⟩, ⟨8, 4, .rwl, []⟩, ⟨12, 4, .rwl, []⟩, ⟨16, 1, .rwl, []⟩]⟩,
  ⟨"AX_FRAME", 0x100100, [(12, 0x1000), (16, 0x4)], [⟨0, 32, .ro, []⟩]⟩,
  ⟨"SD_CFG", 0x10c000, [(40, 0x20)], [⟨0, 2, .rwl, []⟩, ⟨2, 3, .rwl, []⟩, ⟨5, 5, .rwl, []⟩, ⟨10, 9, .rwl, []⟩, ⟨19, 4, .rwl, []⟩, ⟨23, 4, .rwl, []⟩, ⟨27, 3, .rwl, []⟩]⟩,
  ⟨"SD_MON", 0x10c004, [(40, 0x20)], [⟨0, 10, .rw, [16]⟩, ⟨10, 11, .rw, []⟩, ⟨21, 4, .rw, []⟩]⟩,
  ⟨"SD_WORD", 0x10c008, [(40, 0x20)], [⟨0, 32, .ro, []⟩]⟩,
  ⟨"SD_STAT", 0x10c00c, [(40, 0x20)], [⟨0, 1, .w1c, []⟩, ⟨1, 1, .w1c, []⟩, ⟨2, 1, .ro, []⟩]⟩]

def regs10_1 : List RegDesc := [
  ⟨"AX_SYNC_GO", 0x10f000, [], [⟨0, 12, .wo, []⟩]⟩]

/-- The registers from 0x10_0000 on, by address in the register space (R774). -/
def regs10_ : List RegDesc :=
  regs10_0 ++ regs10_1

def regs12_0 : List RegDesc := [
  ⟨"CHN_CTRL", 0x120000, [], [⟨0, 1, .rw, []⟩, ⟨1, 1, .rw, []⟩, ⟨2, 1, .rw, []⟩, ⟨3, 1, .wo, []⟩]⟩,
  ⟨"CHN_STAT", 0x120004, [], [⟨0, 1, .w1c, []⟩, ⟨1, 1, .w1c, []⟩, ⟨2, 1, .w1c, []⟩]⟩,
  ⟨"CHN_CWQ_SEL", 0x120010, [], [⟨0, 7, .rw, []⟩, ⟨7, 5, .rw, []⟩, ⟨12, 6, .rw, []⟩]⟩,
  ⟨"CHN_CWQ_VAL", 0x120014, [], [⟨0, 32, .wo, []⟩]⟩,
  ⟨"CHN_CWQ_CTRL", 0x120018, [], [⟨0, 7, .rw, []⟩, ⟨7, 1, .wo, []⟩]⟩,
  ⟨"CHN_CNT1", 0x12001c, [], [⟨0, 16, .ro, []⟩, ⟨16, 16, .ro, []⟩]⟩,
  ⟨"CHN_CNT2", 0x120020, [], [⟨0, 16, .ro, []⟩, ⟨16, 16, .ro, []⟩]⟩,
  ⟨"CHN_DUAL_LOG", 0x120024, [], [⟨0, 7, .ro, []⟩, ⟨7, 16, .ro, []⟩, ⟨31, 1, .w1c, []⟩]⟩,
  ⟨"LANE0_LIST", 0x120100, [(32, 0x4)], [⟨0, 32, .rw, []⟩]⟩,
  ⟨"LANE1_LIST", 0x120180, [(32, 0x4)], [⟨0, 32, .rw, []⟩]⟩,
  ⟨"CHN_SLOT_CTRL", 0x120400, [(128, 0x4)], [⟨0, 1, .rw, []⟩]⟩,
  ⟨"CHN_SLOT_STAT", 0x120600, [(128, 0x4)], [⟨0, 2, .ro, []⟩, ⟨2, 3, .ro, []⟩, ⟨5, 1, .w1c, []⟩, ⟨6, 1, .w1c, []⟩, ⟨16, 16, .ro, []⟩]⟩,
  ⟨"SP_CFG", 0x120800, [(64, 0x40)], [⟨0, 1, .rw, []⟩, ⟨1, 2, .rwl, []⟩, ⟨3, 7, .rwl, []⟩, ⟨10, 1, .rwl, []⟩, ⟨11, 1, .rw, []⟩, ⟨12, 6, .rw, []⟩]⟩,
  ⟨"SP_OFFSET", 0x120804, [(64, 0x40)], [⟨0, 32, .rw, []⟩]⟩,
  ⟨"SP_MULT", 0x120808, [(64, 0x40)], [⟨0, 32, .rw, []⟩]⟩,
  ⟨"SP_DB", 0x12080c, [(64, 0x40)], [⟨0, 31, .rw, []⟩]⟩,
  ⟨"SP_MIN", 0x120810, [(64, 0x40)], [⟨0, 32, .rw, []⟩]⟩,
  ⟨"SP_MAX", 0x120814, [(64, 0x40)], [⟨0, 32, .rw, []⟩]⟩,
  ⟨"SP_RATE", 0x120818, [(64, 0x40)], [⟨0, 31, .rw, []⟩]⟩,
  ⟨"SP_PERIOD", 0x12081c, [(64, 0x40)], [⟨0, 24, .rwl, []⟩, ⟨24, 8, .rw, []⟩]⟩,
  ⟨"SP_FAILVAL", 0x120820, [(64, 0x40)], [⟨0, 32, .rw, []⟩]⟩,
  ⟨"SP_HOST", 0x120824, [(64, 0x40)], [⟨0, 32, .wo, []⟩]⟩,
  ⟨"SP_OUT", 0x120828, [(64, 0x40)], [⟨0, 32, .ro, []⟩]⟩,
  ⟨"SP_STAT", 0x12082c, [(64, 0x40)], [⟨0, 2, .ro, []⟩, ⟨2, 1, .ro, []⟩, ⟨3, 1, .w1c, []⟩, ⟨16, 16, .ro, []⟩]⟩,
  ⟨"INJ_GRP_CTRL", 0x121800, [(8, 0x4)], [⟨0, 1, .wo, []⟩, ⟨1, 1, .wo, []⟩, ⟨2, 1, .wo, []⟩, ⟨3, 1, .ro, []⟩, ⟨4, 1, .rwl, []⟩, ⟨16, 16, .ro, []⟩]⟩,
  ⟨"CHN_INJ_PERMIT", 0x121840, [], [⟨0, 1, .rw, []⟩]⟩,
  ⟨"INJ_CFG", 0x122000, [(32, 0x20)], [⟨0, 7, .rwl, []⟩, ⟨7, 2, .rwl, []⟩, ⟨9, 3, .rwl, []⟩, ⟨12, 3, .rwl, []⟩, ⟨16, 8, .rwl, []⟩]⟩,
  ⟨"INJ_AMP", 0x122004, [(32, 0x20)], [⟨0, 32, .rw, []⟩]⟩,
  ⟨"INJ_DPHI", 0x122008, [(32, 0x20)], [⟨0, 32, .rw, []⟩]⟩,
  ⟨"INJ_DDPHI", 0x12200c, [(32, 0x20)], [⟨0, 32, .rw, []⟩]⟩,
  ⟨"INJ_LEN", 0x122010, [(32, 0x20)], [⟨0, 24, .rwl, []⟩]⟩,
  ⟨"INJ_DWELL", 0x122014, [(32, 0x20)], [⟨0, 24, .rwl, []⟩]⟩,
  ⟨"INJ_STAT", 0x122018, [(32, 0x20)], [⟨0, 1, .ro, []⟩, ⟨1, 1, .w1c, []⟩, ⟨2, 1, .w1c, []⟩, ⟨8, 24, .ro, []⟩]⟩,
  ⟨"INJ_OUT", 0x12201c, [(32, 0x20)], [⟨0, 32, .ro, []⟩]⟩,
  ⟨"CAP_CFG", 0x122400, [(8, 0x40)], [⟨0, 1, .rw, []⟩, ⟨1, 7, .rwl, []⟩, ⟨8, 4, .rwl, []⟩, ⟨12, 1, .rwl, []⟩, ⟨13, 3, .rwl, []⟩, ⟨16, 8, .rwl, []⟩]⟩,
  ⟨"CAP_SIG", 0x122404, [(8, 0x40)], [⟨0, 32, .rwl, []⟩]⟩,
  ⟨"CAP_BASE_LO", 0x122408, [(8, 0x40)], [⟨6, 26, .rwl, []⟩]⟩,
  ⟨"CAP_BASE_HI", 0x12240c, [(8, 0x40)], [⟨0, 16, .rwl, []⟩]⟩,
  ⟨"CAP_SIZE", 0x122410, [(8, 0x40)], [⟨0, 21, .rwl, []⟩]⟩,
  ⟨"CAP_WR", 0x122414, [(8, 0x40)], [⟨0, 20, .ro, []⟩]⟩]

def regs12_1 : List RegDesc := [
  ⟨"CAP_RD", 0x122418, [(8, 0x40)], [⟨0, 20, .rw, []⟩]⟩,
  ⟨"CAP_TOKEN", 0x12241c, [(8, 0x40)], [⟨0, 8, .rwl, []⟩, ⟨8, 4, .rwl, []⟩, ⟨12, 4, .rwl, []⟩, ⟨16, 1, .rwl, []⟩, ⟨17, 11, .rwl, []⟩]⟩,
  ⟨"CAP_STAT", 0x122420, [(8, 0x40)], [⟨0, 1, .ro, []⟩, ⟨1, 1, .w1c, []⟩, ⟨2, 1, .w1c, []⟩, ⟨3, 1, .w1c, []⟩, ⟨16, 16, .ro, []⟩]⟩,
  ⟨"CAP_SEQ", 0x122424, [(8, 0x40)], [⟨0, 32, .rw, []⟩]⟩]

/-- The registers from 0x12_0000 on, by address in the register space (R774). -/
def regs12_ : List RegDesc :=
  regs12_0 ++ regs12_1

def regs14_0 : List RegDesc := [
  ⟨"REED_CTRL", 0x140000, [], [⟨0, 1, .rwl, []⟩, ⟨1, 1, .rw, []⟩]⟩,
  ⟨"REED_BUDGET", 0x140010, [(4, 0x4)], [⟨0, 10, .ro, []⟩]⟩,
  ⟨"REED_INST_CTRL", 0x140100, [(48, 0x40)], [⟨0, 1, .rw, []⟩, ⟨1, 4, .rwl, []⟩, ⟨5, 1, .wo, []⟩]⟩,
  ⟨"REED_INST_STAT", 0x140104, [(48, 0x40)], [⟨0, 2, .ro, []⟩, ⟨2, 1, .ro, []⟩, ⟨3, 2, .ro, []⟩, ⟨5, 4, .ro, []⟩, ⟨9, 1, .w1c, []⟩, ⟨10, 10, .ro, []⟩, ⟨20, 12, .ro, []⟩]⟩,
  ⟨"REED_BUF_A", 0x140108, [(48, 0x40)], [⟨0, 19, .rw, []⟩]⟩,
  ⟨"REED_BUF_B", 0x14010c, [(48, 0x40)], [⟨0, 19, .rw, []⟩]⟩,
  ⟨"REED_SEQ", 0x140110, [(48, 0x40)], [⟨0, 16, .ro, []⟩, ⟨16, 16, .ro, []⟩]⟩,
  ⟨"REED_CNT", 0x140114, [(48, 0x40)], [⟨0, 16, .ro, []⟩, ⟨16, 16, .ro, []⟩]⟩,
  ⟨"REED_APPROVE", 0x140118, [(48, 0x40)], [⟨0, 32, .wo, []⟩]⟩,
  ⟨"REED_FLAGS", 0x14011c, [(48, 0x40)], [⟨0, 4, .ro, []⟩, ⟨4, 4, .ro, []⟩, ⟨8, 4, .ro, []⟩, ⟨12, 4, .ro, []⟩, ⟨16, 4, .ro, []⟩, ⟨20, 4, .ro, []⟩, ⟨24, 4, .ro, []⟩, ⟨28, 4, .ro, []⟩]⟩,
  ⟨"REED_EST", 0x140120, [(48, 0x40), (8, 0x4)], [⟨0, 32, .ro, []⟩]⟩,
  ⟨"REED_RAW", 0x144000, [(48, 0x20), (8, 0x4)], [⟨0, 32, .ro, []⟩]⟩]

/-- The registers from 0x14_0000 on, by address in the register space (R774). -/
def regs14_ : List RegDesc :=
  regs14_0

def regs16_0 : List RegDesc := [
  ⟨"PCM_CTRL", 0x160000, [(2, 0x40)], [⟨0, 1, .rw, []⟩, ⟨1, 4, .rwl, []⟩, ⟨5, 1, .rw, []⟩]⟩,
  ⟨"PCM_ZC", 0x160004, [(2, 0x40)], [⟨0, 12, .rwl, []⟩, ⟨16, 12, .rwl, []⟩]⟩,
  ⟨"PCM_WIN", 0x160008, [(2, 0x40)], [⟨0, 16, .rw, []⟩, ⟨16, 3, .rw, [4]⟩]⟩,
  ⟨"PCM_STAT", 0x16000c, [(2, 0x40)], [⟨0, 2, .ro, []⟩, ⟨2, 1, .ro, []⟩, ⟨3, 3, .ro, []⟩, ⟨6, 1, .w1c, []⟩, ⟨7, 1, .w1c, []⟩]⟩,
  ⟨"PCM_CNT", 0x160010, [(2, 0x40)], [⟨0, 16, .ro, []⟩, ⟨16, 16, .ro, []⟩]⟩,
  ⟨"PCM_PERIOD", 0x160014, [(2, 0x40)], [⟨0, 24, .ro, []⟩]⟩,
  ⟨"PC_CTRL", 0x160100, [(8, 0x80)], [⟨0, 1, .rw, []⟩, ⟨1, 1, .wo, []⟩, ⟨2, 1, .wo, []⟩, ⟨3, 1, .rw, []⟩, ⟨4, 1, .rwl, []⟩, ⟨5, 3, .rwl, []⟩, ⟨8, 1, .rwl, []⟩, ⟨9, 2, .rwl, []⟩, ⟨11, 1, .rw, []⟩, ⟨12, 1, .rw, []⟩, ⟨13, 1, .rw, []⟩, ⟨14, 1, .rw, []⟩, ⟨15, 1, .rwl, []⟩]⟩,
  ⟨"PC_SRC", 0x160104, [(8, 0x80)], [⟨0, 16, .rwl, []⟩, ⟨16, 1, .rwl, []⟩]⟩,
  ⟨"PC_CMD", 0x160108, [(8, 0x80)], [⟨0, 16, .rw, []⟩]⟩,
  ⟨"PC_LIM", 0x16010c, [(8, 0x80)], [⟨0, 16, .rw, []⟩, ⟨16, 16, .rw, []⟩]⟩,
  ⟨"PC_GUARD", 0x160110, [(8, 0x80)], [⟨0, 16, .rw, []⟩, ⟨16, 16, .rw, []⟩]⟩,
  ⟨"PC_RATE", 0x160114, [(8, 0x80)], [⟨0, 16, .rw, []⟩, ⟨16, 16, .rw, []⟩]⟩,
  ⟨"PC_QUIET", 0x160118, [(8, 0x80)], [⟨0, 16, .rw, []⟩, ⟨16, 3, .rw, []⟩, ⟨20, 3, .rw, []⟩]⟩,
  ⟨"PC_PULSE", 0x16011c, [(8, 0x80)], [⟨0, 16, .rw, []⟩, ⟨16, 16, .rw, []⟩]⟩,
  ⟨"PC_TRAIN", 0x160120, [(8, 0x80)], [⟨0, 16, .rw, []⟩, ⟨16, 8, .rw, []⟩]⟩,
  ⟨"PC_DIAG", 0x160124, [(8, 0x80)], [⟨0, 16, .rw, []⟩, ⟨16, 4, .rw, []⟩, ⟨20, 4, .rw, []⟩, ⟨24, 8, .rw, []⟩]⟩,
  ⟨"PC_SYM", 0x160128, [(8, 0x80)], [⟨0, 16, .rw, []⟩, ⟨16, 4, .rw, []⟩]⟩,
  ⟨"PC_LOAD", 0x16012c, [(8, 0x80)], [⟨0, 16, .rw, []⟩]⟩,
  ⟨"PC_STAT", 0x160130, [(8, 0x80)], [⟨0, 3, .ro, []⟩, ⟨3, 4, .ro, []⟩, ⟨7, 1, .ro, []⟩, ⟨8, 1, .ro, []⟩, ⟨9, 1, .w1c, []⟩, ⟨16, 16, .ro, []⟩]⟩,
  ⟨"PC_MEAS", 0x160134, [(8, 0x80)], [⟨0, 16, .ro, []⟩, ⟨16, 16, .ro, []⟩]⟩,
  ⟨"PC_CNT1", 0x160138, [(8, 0x80)], [⟨0, 16, .ro, []⟩, ⟨16, 16, .ro, []⟩]⟩,
  ⟨"PC_CNT2", 0x16013c, [(8, 0x80)], [⟨0, 16, .ro, []⟩, ⟨16, 16, .ro, []⟩]⟩,
  ⟨"PC_CNT3", 0x160140, [(8, 0x80)], [⟨0, 16, .ro, []⟩]⟩]

/-- The registers from 0x16_0000 on, by address in the register space (R774). -/
def regs16_ : List RegDesc :=
  regs16_0

def regs17_0 : List RegDesc := [
  ⟨"LL_GCTRL", 0x170000, [], [⟨0, 1, .wo, []⟩]⟩,
  ⟨"LC_T0", 0x170100, [(8, 0x40)], [⟨0, 9, .rw, []⟩, ⟨16, 6, .rw, []⟩]⟩,
  ⟨"LC_GAIN", 0x170104, [(8, 0x40), (8, 0x4)], [⟨0, 16, .rw, []⟩]⟩,
  ⟨"LL_CTRL", 0x171000, [(4, 0x3000)], [⟨0, 1, .rw, []⟩, ⟨1, 7, .rwl, []⟩, ⟨8, 2, .rwl, []⟩, ⟨10, 1, .rwl, []⟩, ⟨11, 1, .rw, []⟩, ⟨12, 1, .rw, []⟩, ⟨13, 1, .rwl, []⟩, ⟨16, 4, .rwl, []⟩, ⟨20, 4, .rwl, []⟩]⟩,
  ⟨"LL_PERIOD", 0x171004, [(4, 0x3000)], [⟨0, 24, .rwl, []⟩]⟩,
  ⟨"LL_BLANK", 0x171008, [(4, 0x3000)], [⟨0, 16, .rw, []⟩]⟩,
  ⟨"LL_THERM", 0x17100c, [(4, 0x3000)], [⟨0, 16, .rwl, []⟩]⟩,
  ⟨"LL_DERATE", 0x171010, [(4, 0x3000)], [⟨0, 16, .rw, []⟩, ⟨16, 16, .rw, []⟩]⟩,
  ⟨"LL_KNEE", 0x171014, [(4, 0x3000)], [⟨0, 9, .rw, []⟩]⟩,
  ⟨"LL_DIAG", 0x171018, [(4, 0x3000)], [⟨0, 16, .rw, []⟩, ⟨16, 16, .rw, []⟩]⟩,
  ⟨"LL_DIAG2", 0x17101c, [(4, 0x3000)], [⟨0, 8, .rw, []⟩]⟩,
  ⟨"LL_STAT", 0x171020, [(4, 0x3000)], [⟨0, 2, .ro, []⟩, ⟨2, 1, .w1c, []⟩, ⟨3, 1, .w1c, []⟩, ⟨4, 1, .w1c, []⟩]⟩,
  ⟨"LL_CNT1", 0x171024, [(4, 0x3000)], [⟨0, 16, .ro, []⟩, ⟨16, 16, .ro, []⟩]⟩,
  ⟨"LL_CNT2", 0x171028, [(4, 0x3000)], [⟨0, 16, .ro, []⟩, ⟨16, 16, .ro, []⟩]⟩,
  ⟨"LD_CFG", 0x171100, [(4, 0x3000), (16, 0x10)], [⟨0, 1, .rwl, []⟩, ⟨1, 1, .rwl, []⟩, ⟨2, 4, .rwl, []⟩, ⟨8, 8, .rwl, []⟩, ⟨16, 8, .rw, []⟩]⟩,
  ⟨"LD_STAT", 0x171104, [(4, 0x3000), (16, 0x10)], [⟨0, 1, .w1c, []⟩, ⟨1, 1, .w1c, []⟩, ⟨2, 1, .w1c, []⟩, ⟨16, 16, .ro, []⟩]⟩,
  ⟨"LD_CNT", 0x171108, [(4, 0x3000), (16, 0x10)], [⟨0, 16, .ro, []⟩]⟩,
  ⟨"LC_CFG", 0x172000, [(4, 0x3000), (256, 0x20)], [⟨0, 1, .rw, []⟩, ⟨1, 3, .rw, []⟩, ⟨4, 1, .rw, []⟩, ⟨5, 1, .rw, []⟩, ⟨6, 1, .rw, []⟩, ⟨7, 1, .rw, []⟩, ⟨16, 12, .rw, []⟩]⟩,
  ⟨"LC_SRC", 0x172004, [(4, 0x3000), (256, 0x20)], [⟨0, 16, .rw, []⟩]⟩,
  ⟨"LC_LEVEL", 0x172008, [(4, 0x3000), (256, 0x20)], [⟨0, 16, .rw, []⟩, ⟨16, 16, .rw, []⟩]⟩,
  ⟨"LC_SAFE", 0x17200c, [(4, 0x3000), (256, 0x20)], [⟨0, 16, .rw, []⟩]⟩,
  ⟨"LC_STAT", 0x172010, [(4, 0x3000), (256, 0x20)], [⟨0, 16, .ro, []⟩, ⟨16, 1, .w1c, []⟩, ⟨17, 1, .w1c, []⟩, ⟨18, 1, .ro, []⟩, ⟨19, 1, .ro, []⟩, ⟨20, 1, .ro, []⟩]⟩]

/-- The registers from 0x17_0000 on, by address in the register space (R774). -/
def regs17_ : List RegDesc :=
  regs17_0

def regs18_0 : List RegDesc := [
  ⟨"FE_CTRL", 0x180000, [(32, 0x200)], [⟨0, 1, .rw, []⟩, ⟨1, 1, .wo, []⟩, ⟨2, 1, .wo, []⟩, ⟨3, 1, .rw, []⟩, ⟨4, 1, .rwl, []⟩, ⟨5, 1, .rw, []⟩]⟩,
  ⟨"FE_CLK", 0x180004, [(32, 0x200)], [⟨0, 16, .rw, [2]⟩]⟩,
  ⟨"FE_WIN", 0x180008, [(32, 0x200)], [⟨0, 7, .rw, []⟩]⟩,
  ⟨"FE_SHAPE", 0x18000c, [(32, 0x200)], [⟨0, 1, .rw, []⟩, ⟨1, 1, .rw, []⟩, ⟨8, 5, .rw, []⟩, ⟨16, 5, .rw, []⟩]⟩,
  ⟨"FE_CRC", 0x180010, [(32, 0x200)], [⟨0, 16, .rw, []⟩, ⟨16, 4, .rw, []⟩]⟩,
  ⟨"FE_CRC2", 0x180014, [(32, 0x200)], [⟨0, 16, .rw, []⟩, ⟨16, 16, .rw, []⟩]⟩,
  ⟨"FE_PC", 0x180018, [(32, 0x200)], [⟨0, 5, .rw, []⟩]⟩,
  ⟨"FE_STAT", 0x18001c, [(32, 0x200)], [⟨0, 2, .ro, []⟩, ⟨2, 2, .ro, []⟩, ⟨4, 3, .ro, []⟩, ⟨7, 1, .w1c, []⟩, ⟨8, 1, .ro, []⟩, ⟨9, 1, .w1c, []⟩, ⟨10, 1, .w1c, []⟩, ⟨11, 1, .ro, []⟩, ⟨12, 1, .ro, []⟩, ⟨13, 1, .w1c, []⟩, ⟨14, 1, .w1c, []⟩, ⟨15, 1, .w1c, []⟩, ⟨16, 4, .ro, []⟩, ⟨20, 4, .ro, []⟩, ⟨24, 1, .w1c, []⟩]⟩,
  ⟨"FE_TX", 0x180020, [(32, 0x200)], [⟨0, 32, .wo, []⟩]⟩,
  ⟨"FE_RX", 0x180024, [(32, 0x200)], [⟨0, 32, .ro, []⟩]⟩,
  ⟨"FE_INJ", 0x180028, [(32, 0x200)], [⟨0, 32, .wo, []⟩]⟩,
  ⟨"FE_TOK", 0x18002c, [(32, 0x200)], [⟨0, 8, .rw, []⟩, ⟨8, 4, .rw, []⟩, ⟨12, 4, .rw, []⟩, ⟨16, 1, .rw, []⟩]⟩,
  ⟨"FE_K0", 0x180030, [(32, 0x200)], [⟨0, 32, .rw, []⟩]⟩,
  ⟨"FE_K1", 0x180034, [(32, 0x200)], [⟨0, 32, .rw, []⟩]⟩,
  ⟨"FE_CAP", 0x180038, [(32, 0x200)], [⟨0, 32, .rw, []⟩]⟩,
  ⟨"FE_EMT", 0x18003c, [(32, 0x200)], [⟨0, 32, .rw, []⟩]⟩,
  ⟨"FE_PCNT", 0x180040, [(32, 0x200)], [⟨0, 32, .ro, []⟩]⟩,
  ⟨"FE_STAMP_LO", 0x180044, [(32, 0x200)], [⟨0, 32, .ro, []⟩]⟩,
  ⟨"FE_STAMP_HI", 0x180048, [(32, 0x200)], [⟨0, 16, .ro, []⟩]⟩,
  ⟨"FE_TGT_LO", 0x18004c, [(32, 0x200)], [⟨0, 32, .rw, []⟩]⟩,
  ⟨"FE_TGT_HI", 0x180050, [(32, 0x200)], [⟨0, 16, .rw, []⟩]⟩,
  ⟨"FE_PH", 0x180054, [(32, 0x200)], [⟨0, 32, .rw, []⟩]⟩,
  ⟨"FE_CNT", 0x180058, [(32, 0x200)], [⟨0, 16, .ro, []⟩, ⟨16, 16, .ro, []⟩]⟩,
  ⟨"FE_IMEM", 0x180100, [(32, 0x200), (32, 0x4)], [⟨0, 32, .rw, []⟩]⟩,
  ⟨"FIFE_GO", 0x184000, [], [⟨0, 32, .wo, []⟩]⟩,
  ⟨"FIFE_CLKRST", 0x184004, [], [⟨0, 32, .wo, []⟩]⟩,
  ⟨"FIFE_NOW_LO", 0x184008, [], [⟨0, 32, .ro, []⟩]⟩,
  ⟨"FIFE_NOW_HI", 0x18400c, [], [⟨0, 16, .ro, []⟩]⟩,
  ⟨"FIO_IN", 0x184010, [(4, 0x4)], [⟨0, 32, .ro, []⟩]⟩,
  ⟨"FIO_CFG", 0x185000, [(128, 0x4)], [⟨0, 5, .rwl, []⟩, ⟨5, 1, .rwl, []⟩, ⟨6, 1, .rwl, []⟩, ⟨7, 1, .rwl, []⟩, ⟨8, 2, .rwl, []⟩, ⟨10, 1, .ro, []⟩, ⟨11, 1, .ro, []⟩]⟩]

/-- The registers from 0x18_0000 on, by address in the register space (R774). -/
def regs18_ : List RegDesc :=
  regs18_0

def regs20_0 : List RegDesc := [
  ⟨"RAS_CTRL", 0x200000, [], [⟨0, 1, .rw, []⟩, ⟨1, 1, .rw, []⟩, ⟨2, 5, .rw, []⟩]⟩,
  ⟨"RAS_STAT", 0x200004, [], [⟨0, 2, .ro, []⟩, ⟨2, 1, .w1c, []⟩, ⟨3, 1, .w1c, []⟩, ⟨4, 4, .ro, []⟩, ⟨16, 10, .ro, []⟩]⟩,
  ⟨"RAS_GROW", 0x200008, [], [⟨0, 10, .wo, []⟩]⟩,
  ⟨"RAS_GROW_TMO", 0x20000c, [], [⟨0, 16, .rw, [1000]⟩]⟩,
  ⟨"RAS_LINE_TGT", 0x200010, [], [⟨0, 4, .rwl, []⟩, ⟨4, 4, .rwl, []⟩, ⟨8, 1, .rw, []⟩]⟩,
  ⟨"RAS_CNT1", 0x200014, [], [⟨0, 16, .ro, []⟩, ⟨16, 16, .ro, []⟩]⟩,
  ⟨"RAS_CNT2", 0x200018, [], [⟨0, 16, .ro, []⟩, ⟨16, 16, .ro, []⟩]⟩,
  ⟨"RAS_CNT_CLR", 0x20001c, [], [⟨0, 1, .wo, []⟩]⟩,
  ⟨"RAS_DROPS", 0x200100, [(16, 0x4)], [⟨0, 16, .ro, []⟩]⟩]

/-- The registers from 0x20_0000 on, by address in the register space (R774). -/
def regs20_ : List RegDesc :=
  regs20_0

def regs30_0 : List RegDesc := [
  ⟨"WW_CTRL", 0x300000, [], [⟨0, 1, .rw, []⟩, ⟨1, 1, .rw, []⟩, ⟨2, 4, .rw, [15]⟩, ⟨6, 1, .wo, []⟩, ⟨7, 1, .wo, []⟩]⟩,
  ⟨"WW_GROUP", 0x300004, [], [⟨0, 16, .rwl, []⟩]⟩,
  ⟨"WW_FWVER", 0x300008, [], [⟨0, 32, .rwl, []⟩]⟩,
  ⟨"WW_TMO", 0x30000c, [], [⟨0, 20, .rw, [1000]⟩]⟩,
  ⟨"WW_TSYNC", 0x300010, [], [⟨0, 16, .rw, [100]⟩]⟩,
  ⟨"WW_GSTAT", 0x300014, [], [⟨0, 16, .ro, []⟩, ⟨16, 15, .ro, []⟩, ⟨31, 1, .ro, [1]⟩]⟩,
  ⟨"WW_GFLAGS", 0x300018, [], [⟨0, 1, .ro, []⟩, ⟨1, 1, .ro, []⟩]⟩,
  ⟨"WW_OFFSET", 0x30001c, [], [⟨0, 32, .ro, []⟩]⟩,
  ⟨"WW_CNT", 0x300020, [], [⟨0, 16, .ro, []⟩, ⟨16, 16, .ro, []⟩]⟩,
  ⟨"WW_ETYPE", 0x300024, [], [⟨0, 16, .rwl, [0x88B5]⟩]⟩,
  ⟨"WW_FWMSG", 0x300030, [], [⟨0, 32, .ro, []⟩]⟩,
  ⟨"WL_CTRL", 0x300040, [(8, 0x40)], [⟨0, 1, .rw, []⟩, ⟨1, 1, .rwl, []⟩]⟩,
  ⟨"WL_STAT", 0x300044, [(8, 0x40)], [⟨0, 2, .ro, []⟩, ⟨2, 2, .ro, []⟩, ⟨4, 1, .ro, []⟩, ⟨5, 1, .w1c, []⟩, ⟨6, 4, .ro, []⟩, ⟨16, 15, .ro, []⟩]⟩,
  ⟨"WL_SYNC", 0x300048, [(8, 0x40)], [⟨0, 4, .rw, []⟩, ⟨4, 1, .rw, []⟩, ⟨8, 8, .rw, []⟩]⟩,
  ⟨"WL_DELAY", 0x30004c, [(8, 0x40)], [⟨0, 16, .ro, []⟩]⟩,
  ⟨"WL_CNT1", 0x300050, [(8, 0x40)], [⟨0, 16, .ro, []⟩, ⟨16, 16, .ro, []⟩]⟩,
  ⟨"WL_CNT2", 0x300054, [(8, 0x40)], [⟨0, 16, .ro, []⟩, ⟨16, 16, .ro, []⟩]⟩,
  ⟨"WT_CTRL", 0x300400, [(4, 0x40)], [⟨0, 1, .rw, []⟩, ⟨1, 2, .rwl, []⟩, ⟨3, 1, .rwl, []⟩, ⟨4, 12, .rwl, []⟩, ⟨16, 12, .rwl, []⟩]⟩,
  ⟨"WT_MAC_LO", 0x300404, [(4, 0x40)], [⟨0, 32, .rwl, []⟩]⟩,
  ⟨"WT_MAC_HI", 0x300408, [(4, 0x40)], [⟨0, 16, .rwl, []⟩]⟩,
  ⟨"WT_TIME", 0x30040c, [(4, 0x40)], [⟨0, 16, .rw, [100]⟩, ⟨16, 16, .rw, [50]⟩]⟩,
  ⟨"WT_STAT", 0x300410, [(4, 0x40)], [⟨0, 2, .ro, []⟩, ⟨5, 1, .w1c, []⟩, ⟨6, 4, .ro, []⟩, ⟨16, 15, .ro, []⟩]⟩,
  ⟨"WT_CNT", 0x300414, [(4, 0x40)], [⟨0, 16, .ro, []⟩, ⟨16, 16, .ro, []⟩]⟩,
  ⟨"BC_FWD", 0x300700, [(13, 0x4)], [⟨0, 12, .rw, []⟩]⟩,
  ⟨"WS_CTRL", 0x300800, [], [⟨0, 1, .wo, []⟩, ⟨1, 1, .wo, []⟩, ⟨2, 3, .rw, []⟩, ⟨8, 4, .rw, [3]⟩]⟩,
  ⟨"WS_ID", 0x300804, [], [⟨0, 16, .rw, []⟩]⟩,
  ⟨"WS_START_LO", 0x300808, [], [⟨0, 32, .rw, []⟩]⟩,
  ⟨"WS_START_HI", 0x30080c, [], [⟨0, 16, .rw, []⟩]⟩,
  ⟨"WS_SEQ0", 0x300810, [], [⟨0, 32, .rw, []⟩]⟩,
  ⟨"WS_STAT", 0x300814, [], [⟨0, 3, .ro, []⟩, ⟨3, 1, .ro, []⟩, ⟨4, 3, .ro, []⟩]⟩,
  ⟨"WS_LAST", 0x300818, [], [⟨0, 32, .ro, []⟩]⟩,
  ⟨"WS_MISC", 0x30081c, [], [⟨0, 16, .ro, []⟩, ⟨16, 16, .ro, []⟩]⟩,
  ⟨"WS_MEMBER", 0x300840, [(16, 0x4)], [⟨0, 15, .rw, []⟩, ⟨15, 1, .rw, []⟩]⟩,
  ⟨"WS_MSEQ", 0x300880, [(16, 0x4)], [⟨0, 32, .ro, []⟩]⟩,
  ⟨"ROUTE", 0x308000, [(8192, 0x4)], [⟨0, 32, .rw, [0xFFFFFFFF]⟩]⟩]

/-- The registers from 0x30_0000 on, by address in the register space (R774). -/
def regs30_ : List RegDesc :=
  regs30_0

def regs31_0 : List RegDesc := [
  ⟨"QBV_CTRL", 0x310600, [(4, 0x1000)], [⟨0, 1, .rw, []⟩, ⟨1, 1, .wo, []⟩]⟩,
  ⟨"QBV_BASE_LO", 0x310604, [(4, 0x1000)], [⟨0, 32, .rw, []⟩]⟩,
  ⟨"QBV_BASE_HI", 0x310608, [(4, 0x1000)], [⟨0, 16, .rw, []⟩]⟩,
  ⟨"QBV_CYCLE", 0x31060c, [(4, 0x1000)], [⟨0, 30, .rw, []⟩]⟩,
  ⟨"QBV_LEN", 0x310610, [(4, 0x1000)], [⟨0, 9, .rw, []⟩]⟩,
  ⟨"EXPRESS", 0x310614, [(4, 0x1000)], [⟨0, 8, .rw, []⟩]⟩,
  ⟨"FP_CFG", 0x310618, [(4, 0x1000)], [⟨0, 1, .rw, []⟩, ⟨1, 2, .rw, []⟩, ⟨3, 1, .rw, []⟩, ⟨8, 8, .rw, []⟩]⟩,
  ⟨"QBV_STAT", 0x31061c, [(4, 0x1000)], [⟨0, 1, .ro, []⟩, ⟨1, 1, .ro, []⟩, ⟨3, 8, .ro, []⟩, ⟨11, 1, .w1c, []⟩]⟩,
  ⟨"ETH_STAT", 0x310004, [(4, 0x1000)], [⟨0, 1, .ro, []⟩, ⟨1, 2, .ro, []⟩, ⟨3, 1, .w1c, []⟩, ⟨16, 16, .ro, []⟩]⟩,
  ⟨"ETH_CTRL", 0x310000, [(4, 0x1000)], [⟨0, 1, .rw, []⟩, ⟨1, 1, .rw, []⟩, ⟨2, 1, .rwl, []⟩, ⟨3, 2, .rw, []⟩]⟩,
  ⟨"ETH_MAC_LO", 0x310008, [(4, 0x1000)], [⟨0, 32, .rwl, []⟩]⟩,
  ⟨"ETH_MAC_HI", 0x31000c, [(4, 0x1000)], [⟨0, 16, .rwl, []⟩]⟩,
  ⟨"ETH_MAXLEN", 0x310010, [(4, 0x1000)], [⟨0, 32, .rw, [1518]⟩]⟩,
  ⟨"ETH_LAT", 0x310014, [(4, 0x1000)], [⟨0, 16, .rw, []⟩, ⟨16, 16, .rw, []⟩]⟩,
  ⟨"ETH_PCPMAP", 0x310018, [(4, 0x1000)], [⟨0, 24, .rw, []⟩]⟩,
  ⟨"EF_ETYPE", 0x310040, [(4, 0x1000), (16, 0x10)], [⟨0, 16, .rw, []⟩]⟩,
  ⟨"EF_MAC_LO", 0x310044, [(4, 0x1000), (16, 0x10)], [⟨0, 32, .rw, []⟩]⟩,
  ⟨"EF_MAC_HI", 0x310048, [(4, 0x1000), (16, 0x10)], [⟨0, 16, .rw, []⟩]⟩,
  ⟨"EF_CTL", 0x31004c, [(4, 0x1000), (16, 0x10)], [⟨0, 1, .rw, []⟩, ⟨1, 1, .rw, []⟩, ⟨2, 4, .rw, []⟩, ⟨6, 1, .rw, []⟩]⟩,
  ⟨"FRT_BASE_LO", 0x310400, [(4, 0x1000), (8, 0x20)], [⟨6, 26, .rw, []⟩]⟩,
  ⟨"FRT_BASE_HI", 0x310404, [(4, 0x1000), (8, 0x20)], [⟨0, 32, .rw, []⟩]⟩,
  ⟨"FRT_CFG", 0x310408, [(4, 0x1000), (8, 0x20)], [⟨0, 4, .rw, []⟩, ⟨4, 1, .rw, []⟩, ⟨5, 2, .rw, []⟩, ⟨7, 1, .rw, []⟩, ⟨8, 8, .rw, []⟩, ⟨16, 4, .rw, []⟩, ⟨20, 4, .rw, []⟩]⟩,
  ⟨"FRT_TAIL", 0x31040c, [(4, 0x1000), (8, 0x20)], [⟨0, 12, .rw, []⟩]⟩,
  ⟨"FRT_HEAD", 0x310410, [(4, 0x1000), (8, 0x20)], [⟨0, 12, .ro, []⟩]⟩,
  ⟨"FRT_STAT", 0x310414, [(4, 0x1000), (8, 0x20)], [⟨0, 1, .w1c, []⟩, ⟨1, 1, .w1c, []⟩, ⟨16, 16, .ro, []⟩]⟩,
  ⟨"FRR_BASE_LO", 0x310500, [(4, 0x1000), (8, 0x20)], [⟨6, 26, .rw, []⟩]⟩,
  ⟨"FRR_BASE_HI", 0x310504, [(4, 0x1000), (8, 0x20)], [⟨0, 32, .rw, []⟩]⟩,
  ⟨"FRR_CFG", 0x310508, [(4, 0x1000), (8, 0x20)], [⟨0, 4, .rw, []⟩, ⟨4, 1, .rw, []⟩, ⟨5, 2, .rw, []⟩, ⟨7, 1, .rw, []⟩, ⟨8, 8, .rw, []⟩, ⟨16, 4, .rw, []⟩, ⟨20, 4, .rw, []⟩]⟩,
  ⟨"FRR_TAIL", 0x31050c, [(4, 0x1000), (8, 0x20)], [⟨0, 12, .rw, []⟩]⟩,
  ⟨"FRR_HEAD", 0x310510, [(4, 0x1000), (8, 0x20)], [⟨0, 12, .ro, []⟩]⟩,
  ⟨"FRR_STAT", 0x310514, [(4, 0x1000), (8, 0x20)], [⟨0, 1, .w1c, []⟩, ⟨1, 1, .w1c, []⟩, ⟨16, 16, .ro, []⟩]⟩,
  ⟨"QBV_ENT_LO", 0x310800, [(4, 0x1000), (256, 0x8)], [⟨0, 32, .rw, []⟩]⟩,
  ⟨"QBV_ENT_HI", 0x310804, [(4, 0x1000), (256, 0x8)], [⟨0, 8, .rw, []⟩, ⟨8, 2, .rw, []⟩]⟩,
  ⟨"ST_NOW_LO", 0x314000, [], [⟨0, 32, .ro, []⟩]⟩,
  ⟨"ST_NOW_HI", 0x314004, [], [⟨0, 16, .ro, []⟩]⟩,
  ⟨"ST_RATE", 0x314008, [], [⟨0, 32, .rw, []⟩]⟩,
  ⟨"ST_STEP_LO", 0x31400c, [], [⟨0, 32, .rw, []⟩]⟩,
  ⟨"ST_STEP_HI", 0x314010, [], [⟨0, 16, .wo, []⟩]⟩,
  ⟨"ST_CNT", 0x314014, [], [⟨0, 32, .ro, []⟩]⟩]

/-- The registers from 0x31_0000 on, by address in the register space (R774). -/
def regs31_ : List RegDesc :=
  regs31_0

def regs32_0 : List RegDesc := [
  ⟨"CAN_NBT", 0x320008, [(4, 0x1000)], [⟨0, 5, .rwl, []⟩, ⟨5, 8, .rwl, []⟩, ⟨13, 7, .rwl, []⟩, ⟨20, 7, .rwl, []⟩]⟩,
  ⟨"CAN_DBT", 0x32000c, [(4, 0x1000)], [⟨0, 5, .rwl, []⟩, ⟨5, 5, .rwl, []⟩, ⟨10, 5, .rwl, []⟩, ⟨15, 4, .rwl, []⟩, ⟨19, 1, .rwl, []⟩, ⟨20, 7, .rwl, []⟩]⟩,
  ⟨"CAN_STAT", 0x320004, [(4, 0x1000)], [⟨0, 1, .w1c, []⟩, ⟨1, 1, .ro, []⟩, ⟨16, 16, .ro, []⟩]⟩,
  ⟨"CAN_ERR", 0x320010, [(4, 0x1000)], [⟨0, 8, .ro, []⟩, ⟨8, 8, .ro, []⟩, ⟨16, 2, .ro, []⟩]⟩,
  ⟨"CAN_FILT_ID", 0x320100, [(4, 0x1000), (32, 0x8)], [⟨0, 29, .rw, []⟩, ⟨29, 1, .rw, []⟩, ⟨30, 1, .rw, []⟩]⟩,
  ⟨"CAN_FILT_MASK", 0x320104, [(4, 0x1000), (32, 0x8)], [⟨0, 29, .rw, []⟩]⟩,
  ⟨"CAN_TXB_ID", 0x320400, [(4, 0x1000), (16, 0x50)], [⟨0, 29, .rw, []⟩, ⟨29, 1, .rw, []⟩, ⟨30, 1, .rw, []⟩]⟩,
  ⟨"CAN_TXB_CTL", 0x320404, [(4, 0x1000), (16, 0x50)], [⟨0, 4, .rw, []⟩, ⟨4, 1, .rw, []⟩, ⟨5, 1, .rw, []⟩]⟩,
  ⟨"CAN_TXB_DATA", 0x320410, [(4, 0x1000), (16, 0x50), (16, 0x4)], [⟨0, 32, .rw, []⟩]⟩,
  ⟨"CAN_CTRL", 0x320000, [(4, 0x1000)], [⟨0, 1, .rw, []⟩, ⟨1, 1, .rw, []⟩, ⟨2, 1, .rwl, []⟩, ⟨3, 1, .rw, []⟩, ⟨4, 1, .wo, []⟩]⟩,
  ⟨"FRC_BASE_LO", 0x320020, [(4, 0x1000)], [⟨6, 26, .rw, []⟩]⟩,
  ⟨"FRC_BASE_HI", 0x320024, [(4, 0x1000)], [⟨0, 32, .rw, []⟩]⟩,
  ⟨"FRC_CFG", 0x320028, [(4, 0x1000)], [⟨0, 4, .rw, []⟩, ⟨4, 1, .rw, []⟩, ⟨5, 2, .rw, []⟩, ⟨7, 1, .rw, []⟩, ⟨8, 8, .rw, []⟩, ⟨16, 4, .rw, []⟩, ⟨20, 4, .rw, []⟩]⟩,
  ⟨"FRC_TAIL", 0x32002c, [(4, 0x1000)], [⟨0, 12, .rw, []⟩]⟩,
  ⟨"FRC_HEAD", 0x320030, [(4, 0x1000)], [⟨0, 12, .ro, []⟩]⟩,
  ⟨"FRC_STAT", 0x320034, [(4, 0x1000)], [⟨0, 1, .w1c, []⟩, ⟨1, 1, .w1c, []⟩, ⟨16, 16, .ro, []⟩]⟩,
  ⟨"CAN_TXREQ", 0x320040, [(4, 0x1000)], [⟨0, 16, .w1s, []⟩]⟩,
  ⟨"CAN_TXDONE", 0x320044, [(4, 0x1000)], [⟨0, 16, .w1c, []⟩]⟩]

/-- The registers from 0x32_0000 on, by address in the register space (R774). -/
def regs32_ : List RegDesc :=
  regs32_0

def regs33_0 : List RegDesc := [
  ⟨"CSI_STAT", 0x330004, [(2, 0x1000)], [⟨0, 1, .ro, []⟩, ⟨1, 1, .w1c, []⟩, ⟨2, 1, .w1c, []⟩]⟩,
  ⟨"CSI_CNT", 0x330008, [(2, 0x1000)], [⟨0, 16, .ro, []⟩, ⟨16, 16, .ro, []⟩]⟩,
  ⟨"CSI_CTRL", 0x330000, [(2, 0x1000)], [⟨0, 1, .rw, []⟩, ⟨1, 2, .rw, []⟩]⟩,
  ⟨"CS_MATCH", 0x330100, [(2, 0x1000), (2, 0x40)], [⟨0, 1, .rw, []⟩, ⟨1, 2, .rwl, []⟩, ⟨3, 6, .rwl, []⟩, ⟨9, 1, .rwl, []⟩, ⟨10, 4, .rwl, []⟩]⟩,
  ⟨"CS_GEOM", 0x330104, [(2, 0x1000), (2, 0x40)], [⟨0, 13, .rwl, []⟩, ⟨16, 13, .rwl, []⟩]⟩,
  ⟨"CS_PITCH", 0x330108, [(2, 0x1000), (2, 0x40)], [⟨6, 14, .rwl, []⟩, ⟨20, 8, .rwl, []⟩]⟩,
  ⟨"CS_BUF_LO", 0x33010c, [(2, 0x1000), (2, 0x40)], [⟨16, 16, .rwl, []⟩]⟩,
  ⟨"CS_BUF_HI", 0x330110, [(2, 0x1000), (2, 0x40)], [⟨0, 16, .rwl, []⟩]⟩,
  ⟨"CS_BUF_STRIDE", 0x330114, [(2, 0x1000), (2, 0x40)], [⟨0, 3, .rwl, []⟩, ⟨16, 10, .rwl, []⟩]⟩,
  ⟨"CS_STAT_LO", 0x330118, [(2, 0x1000), (2, 0x40)], [⟨8, 24, .rwl, []⟩]⟩,
  ⟨"CS_STAT_HI", 0x33011c, [(2, 0x1000), (2, 0x40)], [⟨0, 16, .rwl, []⟩]⟩,
  ⟨"CS_TOK_BAND", 0x330120, [(2, 0x1000), (2, 0x40)], [⟨0, 8, .rwl, []⟩, ⟨8, 4, .rwl, []⟩, ⟨12, 4, .rwl, []⟩]⟩,
  ⟨"CS_TOK_FRAME", 0x330124, [(2, 0x1000), (2, 0x40)], [⟨0, 8, .rwl, []⟩, ⟨8, 4, .rwl, []⟩, ⟨12, 4, .rwl, []⟩]⟩,
  ⟨"CS_BUF_RET", 0x330128, [(2, 0x1000), (2, 0x40)], [⟨0, 1, .wo, []⟩]⟩,
  ⟨"CS_STATUS", 0x33012c, [(2, 0x1000), (2, 0x40)], [⟨0, 4, .ro, []⟩, ⟨4, 1, .w1c, []⟩]⟩,
  ⟨"CS_CNT", 0x330130, [(2, 0x1000), (2, 0x40)], [⟨0, 16, .ro, []⟩, ⟨16, 16, .ro, []⟩]⟩,
  ⟨"CS_TMO", 0x330134, [(2, 0x1000), (2, 0x40)], [⟨0, 16, .rw, []⟩]⟩]

/-- The registers from 0x33_0000 on, by address in the register space (R774). -/
def regs33_ : List RegDesc :=
  regs33_0

def regs34_0 : List RegDesc := [
  ⟨"SPI_CTRL", 0x340000, [(6, 0x100)], [⟨0, 1, .rw, []⟩, ⟨1, 2, .rw, []⟩, ⟨3, 1, .rw, []⟩, ⟨4, 5, .rw, []⟩, ⟨9, 2, .rw, []⟩, ⟨11, 1, .rw, []⟩, ⟨12, 1, .rw, []⟩, ⟨16, 8, .rw, []⟩]⟩,
  ⟨"SPI_STAT", 0x340004, [(6, 0x100)], [⟨0, 5, .ro, []⟩, ⟨5, 5, .ro, []⟩, ⟨10, 1, .ro, []⟩, ⟨11, 1, .w1c, []⟩, ⟨12, 1, .w1c, []⟩]⟩,
  ⟨"SPI_TX", 0x340008, [(6, 0x100)], [⟨0, 32, .wo, []⟩]⟩,
  ⟨"SPI_RX", 0x34000c, [(6, 0x100)], [⟨0, 32, .ro, []⟩]⟩,
  ⟨"I2C_CTRL", 0x341000, [(4, 0x100)], [⟨0, 1, .rw, []⟩, ⟨1, 2, .rw, []⟩, ⟨3, 1, .rw, []⟩, ⟨4, 1, .rw, []⟩]⟩,
  ⟨"I2C_OWN", 0x341004, [(4, 0x100)], [⟨0, 10, .rw, []⟩, ⟨10, 1, .rw, []⟩]⟩,
  ⟨"I2C_CMD", 0x341008, [(4, 0x100)], [⟨0, 10, .wo, []⟩, ⟨10, 1, .wo, []⟩, ⟨11, 1, .wo, []⟩, ⟨12, 8, .wo, []⟩, ⟨20, 1, .wo, []⟩, ⟨21, 1, .wo, []⟩]⟩,
  ⟨"I2C_STAT", 0x34100c, [(4, 0x100)], [⟨0, 5, .ro, []⟩, ⟨5, 5, .ro, []⟩, ⟨10, 1, .ro, []⟩, ⟨11, 1, .w1c, []⟩, ⟨12, 1, .w1c, []⟩, ⟨13, 1, .w1c, []⟩, ⟨14, 1, .w1c, []⟩, ⟨15, 1, .w1c, []⟩, ⟨16, 1, .w1c, []⟩]⟩,
  ⟨"I2C_TX", 0x341010, [(4, 0x100)], [⟨0, 8, .wo, []⟩]⟩,
  ⟨"I2C_RX", 0x341014, [(4, 0x100)], [⟨0, 8, .ro, []⟩]⟩,
  ⟨"UART_CTRL", 0x342000, [(4, 0x100)], [⟨0, 1, .rw, []⟩, ⟨1, 2, .rw, []⟩, ⟨3, 2, .rw, []⟩, ⟨5, 1, .rw, []⟩, ⟨6, 1, .rw, []⟩, ⟨7, 1, .rw, []⟩, ⟨8, 1, .rw, []⟩]⟩,
  ⟨"UART_DIV", 0x342004, [(4, 0x100)], [⟨0, 17, .rw, []⟩]⟩,
  ⟨"UART_STAT", 0x342008, [(4, 0x100)], [⟨0, 5, .ro, []⟩, ⟨5, 5, .ro, []⟩, ⟨10, 1, .ro, []⟩, ⟨11, 1, .w1c, []⟩, ⟨12, 1, .w1c, []⟩, ⟨13, 1, .w1c, []⟩, ⟨14, 1, .w1c, []⟩, ⟨15, 1, .w1c, []⟩, ⟨16, 1, .w1c, []⟩]⟩,
  ⟨"UART_TX", 0x34200c, [(4, 0x100)], [⟨0, 8, .wo, []⟩]⟩,
  ⟨"UART_RX", 0x342010, [(4, 0x100)], [⟨0, 8, .ro, []⟩]⟩,
  ⟨"XSPI_CTRL", 0x343000, [], [⟨0, 1, .rw, []⟩, ⟨1, 1, .rw, []⟩, ⟨2, 8, .rw, []⟩, ⟨10, 1, .rw, []⟩]⟩,
  ⟨"XSPI_CMD", 0x343004, [], [⟨0, 16, .wo, []⟩, ⟨16, 5, .wo, []⟩, ⟨21, 1, .wo, []⟩, ⟨22, 1, .wo, []⟩, ⟨23, 1, .wo, []⟩]⟩,
  ⟨"XSPI_ADDR", 0x343008, [], [⟨0, 32, .rw, []⟩]⟩,
  ⟨"XSPI_LEN", 0x34300c, [], [⟨0, 7, .rw, []⟩]⟩,
  ⟨"XSPI_DATA", 0x343010, [], [⟨0, 32, .wo, []⟩]⟩,
  ⟨"XSPI_WADDR", 0x343014, [], [⟨0, 32, .rw, []⟩]⟩,
  ⟨"XSPI_WDATA", 0x343018, [], [⟨0, 32, .ro, []⟩]⟩,
  ⟨"XSPI_STAT", 0x34301c, [], [⟨0, 5, .ro, []⟩, ⟨5, 5, .ro, []⟩, ⟨10, 1, .ro, []⟩, ⟨11, 1, .w1c, []⟩, ⟨12, 1, .w1c, []⟩]⟩]

/-- The registers from 0x34_0000 on, by address in the register space (R774). -/
def regs34_ : List RegDesc :=
  regs34_0

def regs40_0 : List RegDesc := [
  ⟨"HQ_CTRL", 0x400000, [(32, 0x1000)], [⟨0, 1, .rw, []⟩]⟩,
  ⟨"HQ_STAT", 0x400004, [(32, 0x1000)], [⟨0, 1, .w1c, []⟩, ⟨4, 4, .ro, []⟩, ⟨8, 8, .ro, []⟩, ⟨16, 16, .ro, []⟩]⟩,
  ⟨"HQ_EVT", 0x400008, [(32, 0x1000)], [⟨0, 8, .w1c, []⟩, ⟨8, 8, .w1c, []⟩]⟩,
  ⟨"SQ_BASE_LO", 0x400100, [(32, 0x1000), (8, 0x20)], [⟨12, 20, .rw, []⟩]⟩,
  ⟨"SQ_BASE_HI", 0x400104, [(32, 0x1000), (8, 0x20)], [⟨0, 32, .rw, []⟩]⟩,
  ⟨"SQ_CFG", 0x400108, [(32, 0x1000), (8, 0x20)], [⟨0, 4, .rw, []⟩, ⟨4, 1, .rw, []⟩, ⟨5, 3, .rw, []⟩, ⟨8, 2, .rw, []⟩, ⟨10, 1, .rw, []⟩]⟩,
  ⟨"SQ_CTRL", 0x40010c, [(32, 0x1000), (8, 0x20)], [⟨0, 1, .rw, []⟩, ⟨1, 1, .wo, []⟩, ⟨2, 1, .wo, []⟩]⟩,
  ⟨"SQ_STAT", 0x400110, [(32, 0x1000), (8, 0x20)], [⟨0, 16, .ro, []⟩, ⟨16, 2, .ro, []⟩, ⟨18, 4, .ro, []⟩, ⟨22, 1, .w1c, []⟩, ⟨23, 1, .w1c, []⟩, ⟨24, 4, .ro, []⟩]⟩,
  ⟨"SQ_WAIT_TMO", 0x400114, [(32, 0x1000), (8, 0x20)], [⟨0, 32, .rw, []⟩]⟩,
  ⟨"CQ_BASE_LO", 0x400200, [(32, 0x1000), (8, 0x20)], [⟨12, 20, .rw, []⟩]⟩,
  ⟨"CQ_BASE_HI", 0x400204, [(32, 0x1000), (8, 0x20)], [⟨0, 32, .rw, []⟩]⟩,
  ⟨"CQ_CFG", 0x400208, [(32, 0x1000), (8, 0x20)], [⟨0, 1, .rw, []⟩, ⟨1, 4, .rw, []⟩, ⟨5, 3, .rw, []⟩, ⟨8, 1, .rw, []⟩]⟩,
  ⟨"CQ_MOD", 0x40020c, [(32, 0x1000), (8, 0x20)], [⟨0, 16, .rw, []⟩, ⟨16, 16, .rw, []⟩]⟩,
  ⟨"CQ_STAT", 0x400210, [(32, 0x1000), (8, 0x20)], [⟨0, 16, .ro, []⟩, ⟨16, 1, .w1c, []⟩, ⟨17, 1, .w1c, []⟩, ⟨18, 1, .w1c, []⟩]⟩]

/-- The registers from 0x40_0000 on, by address in the register space (R774). -/
def regs40_ : List RegDesc :=
  regs40_0

def regs44_0 : List RegDesc := [
  ⟨"HQ_MODE", 0x440000, [], [⟨0, 1, .rwl, []⟩]⟩,
  ⟨"HQ_CEIL0", 0x440004, [], [⟨0, 32, .rwl, [0xFFFFFFFF]⟩]⟩,
  ⟨"HQ_CEIL1", 0x440008, [], [⟨0, 32, .rwl, [0xFFFFFFFF]⟩]⟩]

/-- The registers from 0x44_0000 on, by address in the register space (R774). -/
def regs44_ : List RegDesc :=
  regs44_0

def regs80_0 : List RegDesc := [
  ⟨"TILE_ID", 0x800000, [(64, 0x10000)], [⟨0, 6, .ro, List.range 64⟩, ⟨6, 1, .ro, []⟩]⟩,
  ⟨"TILE_LOGICAL", 0x800004, [(64, 0x10000)], [⟨0, 6, .rwl, List.range 64⟩]⟩,
  ⟨"TILE_CTRL", 0x800008, [(64, 0x10000)], [⟨0, 1, .rw, []⟩, ⟨1, 1, .rw, []⟩]⟩,
  ⟨"TILE_FLAGS", 0x80000c, [(64, 0x10000)], [⟨0, 1, .w1c, []⟩, ⟨1, 1, .w1c, []⟩, ⟨2, 1, .w1c, []⟩, ⟨3, 1, .w1c, []⟩, ⟨4, 1, .w1c, []⟩]⟩,
  ⟨"TILE_FLAG_LOG", 0x800010, [(64, 0x10000)], [⟨0, 4, .ro, []⟩, ⟨4, 9, .ro, []⟩, ⟨13, 1, .ro, []⟩, ⟨14, 12, .ro, []⟩, ⟨31, 1, .w1c, []⟩]⟩,
  ⟨"TILE_MAC_BUSY_LO", 0x800020, [(64, 0x10000)], [⟨0, 32, .ro, []⟩]⟩,
  ⟨"TILE_MAC_BUSY_HI", 0x800024, [(64, 0x10000)], [⟨0, 32, .ro, []⟩]⟩,
  ⟨"TILE_VEC_BUSY_LO", 0x800028, [(64, 0x10000)], [⟨0, 32, .ro, []⟩]⟩,
  ⟨"TILE_VEC_BUSY_HI", 0x80002c, [(64, 0x10000)], [⟨0, 32, .ro, []⟩]⟩,
  ⟨"TILE_CNT_CLR", 0x800030, [(64, 0x10000)], [⟨0, 1, .wo, []⟩]⟩,
  ⟨"SEL_CTRL", 0x800040, [(64, 0x10000)], [⟨0, 1, .rw, []⟩, ⟨1, 1, .wo, []⟩]⟩,
  ⟨"SEL_STAT", 0x800044, [(64, 0x10000)], [⟨0, 1, .ro, []⟩, ⟨1, 4, .ro, []⟩, ⟨5, 1, .ro, []⟩]⟩,
  ⟨"SEL_FLAGS", 0x800048, [(64, 0x10000)], [⟨0, 1, .w1c, []⟩, ⟨1, 1, .w1c, []⟩, ⟨2, 1, .w1c, []⟩]⟩,
  ⟨"SEL_PASSES", 0x80004c, [(64, 0x10000)], [⟨0, 32, .ro, []⟩]⟩]

/-- The registers from 0x80_0000 on, by address in the register space (R774). -/
def regs80_ : List RegDesc :=
  regs80_0

/-- The registers among which an address of the register space is found. -/
def regBlock (a : Nat) : List RegDesc :=
  if 0x800000 ≤ a then regs80_
  else if 0x400000 ≤ a ∧ a < 0x420000 then regs40_
  else if a / 0x10000 = 0x00 then regs00_
  else if a / 0x10000 = 0x01 then regs01_
  else if a / 0x10000 = 0x02 then regs02_
  else if a / 0x10000 = 0x03 then regs03_
  else if a / 0x10000 = 0x04 then regs04_
  else if a / 0x10000 = 0x10 then regs10_
  else if a / 0x10000 = 0x12 then regs12_
  else if a / 0x10000 = 0x14 then regs14_
  else if a / 0x10000 = 0x16 then regs16_
  else if a / 0x10000 = 0x17 then regs17_
  else if a / 0x10000 = 0x18 then regs18_
  else if a / 0x10000 = 0x20 then regs20_
  else if a / 0x10000 = 0x30 then regs30_
  else if a / 0x10000 = 0x31 then regs31_
  else if a / 0x10000 = 0x32 then regs32_
  else if a / 0x10000 = 0x33 then regs33_
  else if a / 0x10000 = 0x34 then regs34_
  else if a / 0x10000 = 0x44 then regs44_
  else []

def seqRegs0 : List RegDesc := [
  ⟨"SEQ_CTRL", 0x0, [], [⟨0, 1, .rw, []⟩, ⟨1, 1, .rw, []⟩, ⟨8, 8, .rwl, []⟩]⟩,
  ⟨"SEQ_STAT", 0x4, [], [⟨0, 16, .ro, []⟩, ⟨16, 1, .w1c, []⟩, ⟨17, 1, .w1c, []⟩, ⟨18, 1, .w1c, []⟩, ⟨24, 8, .ro, []⟩]⟩,
  ⟨"SEQ_ERR", 0x8, [], [⟨0, 4, .ro, []⟩, ⟨4, 9, .ro, []⟩, ⟨13, 12, .ro, []⟩, ⟨28, 4, .ro, []⟩]⟩,
  ⟨"CTX_CTRL", 0x100, [(16, 0x10)], [⟨0, 1, .wo, []⟩, ⟨1, 1, .wo, []⟩, ⟨2, 1, .wo, []⟩, ⟨3, 1, .wo, []⟩, ⟨4, 2, .rwl, []⟩]⟩,
  ⟨"CTX_PC", 0x104, [(16, 0x10)], [⟨0, 9, .rw, []⟩, ⟨12, 12, .ro, []⟩]⟩,
  ⟨"CTX_STAT", 0x108, [(16, 0x10)], [⟨0, 3, .ro, []⟩, ⟨4, 3, .ro, []⟩, ⟨8, 8, .ro, []⟩, ⟨16, 1, .w1c, []⟩]⟩,
  ⟨"CTX_TIMEOUT", 0x10c, [(16, 0x10)], [⟨0, 16, .rw, []⟩]⟩,
  ⟨"SEQ_FIRED", 0xe00, [], [⟨0, 32, .ro, []⟩]⟩,
  ⟨"SEQ_DROPS", 0xe04, [], [⟨0, 16, .ro, []⟩, ⟨16, 16, .ro, []⟩]⟩]

/-- The registers of a sequencer window alone, by offset (R108). -/
def seqRegs : List RegDesc :=
  seqRegs0

def tokRegs0 : List RegDesc := [
  ⟨"TOKCNT", 0x200, [(16, 0x40), (16, 0x4)], [⟨0, 16, .rw, []⟩, ⟨16, 1, .w1c, []⟩, ⟨17, 1, .w1c, []⟩]⟩,
  ⟨"TOKBIND", 0x600, [(16, 0x40), (16, 0x4)], [⟨0, 1, .rw, []⟩, ⟨1, 6, .rw, []⟩]⟩,
  ⟨"POOL_CNT", 0xa00, [(32, 0x8)], [⟨0, 16, .rw, []⟩]⟩,
  ⟨"POOL_INIT", 0xa04, [(32, 0x8)], [⟨0, 16, .rwl, []⟩]⟩,
  ⟨"DESC_LO", 0xc00, [(64, 0x8)], [⟨0, 15, .rw, []⟩, ⟨15, 1, .rw, []⟩, ⟨16, 8, .rw, []⟩, ⟨24, 4, .rw, []⟩, ⟨28, 4, .rw, []⟩]⟩,
  ⟨"DESC_HI", 0xc04, [(64, 0x8)], [⟨0, 5, .rw, []⟩, ⟨5, 1, .rw, []⟩, ⟨8, 8, .rw, []⟩, ⟨16, 1, .rw, []⟩]⟩]

/-- The registers that sequencer windows and token sinks share, by offset (R108). -/
def tokRegs : List RegDesc :=
  tokRegs0

def sinkRegs0 : List RegDesc := [
  ⟨"TOKTAKE", 0x1000, [(16, 0x40), (16, 0x4)], [⟨0, 16, .wo, []⟩]⟩]

/-- The registers of a token sink alone, by offset (R108). -/
def sinkRegs : List RegDesc :=
  sinkRegs0

def rowRegs0 : List RegDesc := [
  ⟨"ROWS", 0x2000, [(512, 0x20), (8, 0x4)], [⟨0, 32, .rw, []⟩]⟩]

/-- The table buffer of a sequencer window, by offset (R108). -/
def rowRegs : List RegDesc :=
  rowRegs0

end Sys2Proof.Machine
end

