-- ==== Sys2Proof/Machine/State.lean ====
section
/-! DEFINITION. The state of the part as plain data: every register of every block (one sparse table
of register fields, whose unlisted fields hold their reset values), the memories, and the state that
the chapters of spec/ give the units beside their registers; and the queue of waiting commands. -/

namespace Sys2Proof.Machine

/-- What stops the machine. No rule of the spec stops the part, so no meaning raises a fault. -/
inductive Fault where
  /-- A command names state that no part has. No meaning raises it: the operands' types leave such a command out. Safe. -/
  | noSuchState
  deriving DecidableEq, Repr

/-- What the model does not take. -/
inductive Refusal where
  /-- The command of that mnemonic has no meaning in this model (raised by Dispatch only; safe). -/
  | notModelled (mnemonic : String)
  deriving DecidableEq, Repr

/-- The answer the requester of the last request got: its status, the value of a register read, the
bytes of a memory read, and whether the core took an access-fault exception instead (R133). -/
structure Answer where
  st : Status := .ok
  value : Nat := 0
  data : List Byte := []
  coreFault : Bool := false
  deriving DecidableEq, Repr

/-- Where a unit of R712 stands in its life (R714, R718, R725, R728, R739). -/
structure UnitSt where
  state : Nat := 0
  epoch : Nat := 0
  bistRun : Bool := false
  bistPass : Bool := false
  bistFail : Bool := false
  zeroed : Bool := false
  /-- A zeroing that started after the last BIST is running (R727). -/
  zeroing : Bool := false
  /-- A write has reached the unit's memory since ZEROED was set (R728). -/
  dirty : Bool := false
  cmdRej : Bool := false
  cause : Nat := 0
  powered : Bool := true
  /-- The RETRY window of R719 is over; system and Fife time of entry to DRAINING or ADMITTING. -/
  retryOver : Bool := false
  drainAt : Nat := 0
  drainCyc : Nat := 0
  deriving DecidableEq, Repr

/-- A firewall region (R693, R694). -/
structure FwRegion where
  base : Nat := 0
  limit : Nat := 0
  init : Nat := 0
  en : Bool := false
  rdClass : Nat := 0
  wrClass : Nat := 0
  remoteOk : Bool := false
  deriving DecidableEq, Repr

/-- A request that has left the part over Windway and is not yet answered (R128, R571, R722): its tag,
the initiator, the unit that issued it (0xFF none), whether it writes, its global address, its length,
the port it left by, the system time in ns, whether it is an orphan. -/
structure Outstanding where
  tag : Nat
  ini : Nat
  unit : Nat := 0xFF
  write : Bool := false
  addr : Nat := 0
  len : Nat := 0
  port : Nat := 0
  at_ : Nat := 0
  orphan : Bool := false
  deriving DecidableEq, Repr

/-- What a thread context holds beside its registers (R77, R88, R90, R93, R825). -/
structure CtxInt where
  /-- The row latched at firing. -/
  row : Nat := 0
  /-- An iteration is in execution. -/
  exec : Bool := false
  /-- What the engine reported for it: status and outcome. -/
  result : Option (Status × Nat) := none
  /-- Counters the iteration consumed from, with the counts. -/
  consumed : List (Nat × Nat) := []
  /-- The successor chosen in the firing cycle (R92). -/
  succ : Nat := 0
  pendHalt : Bool := false
  pendStep : Bool := false
  /-- Halted by BRK with no write of CTX_PC since (R825). -/
  brkPass : Bool := false
  /-- Started again by START or STEP: the next BRK test is passed. -/
  passing : Bool := false
  /-- Waits for a grant; holds a grant. -/
  asked : Bool := false
  granted : Bool := false
  /-- Fife time of arrival at the row (R79, R101). -/
  arrived : Nat := 0
  /-- The parameter block read at iteration 0 (R121). -/
  param : List Byte := []
  /-- Function of posted host writes of the iteration (R131), as client + 1; 0 none. -/
  hostFn : Nat := 0
  /-- Step counter and run seed latched when iteration 0 fired (R644). -/
  step : Nat := 0
  seed : Nat := 0
  deriving DecidableEq, Repr

/-- A correction or a jump a measurement left for the next control cycle (R47, R49). -/
inductive DrnOp where
  | corr (dA dF : Int)
  | jump (theta : Nat)
  deriving DecidableEq, Repr

/-- What an event slot holds beside its registers: whether a ONCE slot is disarmed (R60), and the
numbers j of the phases that have fired and are not yet re-armed (R62). -/
structure EvSlot where
  disarmed : Bool := true
  unarmed : List Nat := []
  deriving DecidableEq, Repr

/-- A Drone (R39, R45, R49). -/
structure Drone where
  acc : Nat := 0
  cyc : Nat := 0
  f : Int := 0
  ops : List DrnOp := []
  /-- A preset was written in this control cycle (R67). -/
  preset : Bool := false
  nExp : Nat := 0
  missMax : Nat := 0
  mod : Nat := 0
  scale : Nat := 0
  bitsW : Nat := 0
  /-- Control cycles since ENABLE or REACQ. -/
  age : Nat := 0
  /-- The age at which the last capture tick was formed. -/
  capAge : Nat := 0
  /-- The age of the last test of missed measurements. -/
  missAge : Nat := 0
  first : Bool := false
  lockRun : Nat := 0
  outRun : Nat := 0
  missRun : Nat := 0
  gotMeas : Bool := false
  /-- Control cycles since the last measurement of the alternate (none arrived: none). -/
  altAge : Option Nat := none
  hold : Nat := 0
  /-- The last measured phase (R343). -/
  lastTheta : Nat := 0
  slots : List EvSlot := List.replicate 16 {}
  deriving DecidableEq, Repr

/-- A fired event on its way to its target (R59, R68): the cycle in which it acts, the Drone, the
slot (16 for DRN_NOTIFY), the fields of EV_TARGET, the fine fraction, the latch record it writes. -/
structure FiredEvent where
  due : Nat
  drone : Nat
  slot : Nat
  target : Nat
  fine : Nat
  record : List Byte
  deriving DecidableEq, Repr

/-- A latch record being written, with the token it orders (R65). -/
structure LatchJob where
  drone : Nat
  msg : Option Nat
  addr : Nat
  data : List Byte
  deriving DecidableEq, Repr


/-- A measurement on its way from its source to a Drone (R41, R43). -/
structure Meas where
  drone : Nat
  kind : Nat
  index : Nat
  theta : Nat
  cap : Nat
  deriving DecidableEq, Repr

/-- One of the two buffers of a Reed instance (R211, R234): 0 FREE, 1 SEALING, 2 SEALED; the offset,
the length and the EVAL_CYCLES it was sealed with. -/
structure ReedBuf where
  st : Nat := 0
  ofs : Nat := 0
  len : Nat := 0
  cycles : Nat := 0
  deriving DecidableEq, Repr


/-- One output of a Reed instance: value and flags published (R226; the flags as the bits of
REED_FLAGS), both as of the last sampling point of the axis (R227), the last p, q and raw_out (R222,
R225). -/
structure ReedOut where
  value : Nat := 0
  flags : Nat := 8
  smpValue : Nat := 0
  smpFlags : Nat := 8
  p : Int := 0
  q : Int := 0
  raw : Int := 0
  deriving DecidableEq, Repr

/-- A Reed instance beside its registers (R211, R224 to R226, R233 to R235). -/
structure ReedInst where
  bufA : ReedBuf := {}
  bufB : ReedBuf := {}
  outs : List ReedOut := List.replicate 8 {}
  /-- No evaluation since ENABLE (R224, R244). -/
  fresh : Bool := true
  /-- Normalised and clamped inputs of the previous evaluation, when it was in the box with the model of
  this swap count (R225). -/
  prevX : Option (Nat × List Int) := none
  lipRun : Nat := 0
  /-- Sampling points of the axis since the last completed evaluation (R226). -/
  points : Nat := 0
  /-- The sample number of the last evaluation as of the last sampling point of the axis (R227). -/
  smpSeq : Option Nat := none
  /-- The value in REED_APPROVE; a seal that waits for it: context and package CRC (R235). -/
  approve : Option Nat := none
  waits : Option (Nat × Nat) := none
  deriving DecidableEq, Repr


/-- An operating-point change (R501, R502): phase 0 none, 1 waiting for the supply, 2 relocking, 3
locked and waiting for the switch-back; the point it goes to. -/
structure OpChange where
  phase : Nat := 0
  target : Nat := 0
  deriving DecidableEq, Repr


/-- The signature of one tile for one step (R650 to R654): the sum of all terms, the sums of the table
rows, whether the step has closed on the tile and since when it waits, the rows of the partner received
(64 messages of 8 entries) once the signatures were found different. -/
structure StepSig where
  tile : Nat
  step : Nat
  sum : Nat := 0
  rows : List (Nat × Nat) := []
  closed : Bool := false
  since : Nat := 0
  differs : Bool := false
  theirs : List (Nat × Nat) := []
  got : Nat := 0
  deriving DecidableEq, Repr


/-- A candidate of the Selector: its key as FP32 bits or INT32 bits, its logical index, the position of
the tile that loaded it (R188, R190). -/
structure Cand where
  key : Nat
  idx : Nat
  phys : Nat
  deriving DecidableEq, Repr

/-- What a selection keeps: the best candidates best first, the sum of the others and its infinities,
the counts (R190, R191, R202). -/
structure Selection where
  kept : List Cand := []
  left : Int := 0
  leftP : Bool := false
  leftN : Bool := false
  nCand : Nat := 0
  nNan : Nat := 0
  deriving DecidableEq, Repr

/-- A tile beside its registers: the live busy counters (R187), the context that holds the Selector
with its kept state (R202). -/
structure TileSt where
  macBusy : Nat := 0
  vecBusy : Nat := 0
  chain : Option (Nat × Selection) := none
  deriving DecidableEq, Repr


/-- The gates of one phase of an axis (R320 to R322): the command; the times in sixteenths of a control
cycle from which the high-side and the low-side gate are on (none: off); the time of the last edge of
the command. A gate edge reaches its pin two control cycles later (R318). -/
structure PhaseG where
  cmd : Bool := false
  hi : Option Nat := none
  lo : Option Nat := none
  edge : Nat := 0
  deriving DecidableEq, Repr

/-- An axis beside its registers (R319 to R346). -/
structure AxisSt where
  /-- Active values of the shadowed registers (R323): HALF, SP_OFS, DT, MINP, the compare values. -/
  half : Nat := 0
  spA : Int := 0
  dt : Nat := 0
  minp : Nat := 0
  cmp : List Nat := [0, 0, 0]
  /-- SP_OFS as set up; CH_MIN (no register field holds them). -/
  spOfs : Int := 0
  chMin : Nat := 0
  /-- The counter runs; Fife time of its last valley; the half-period of this period; the reloads of the
  valley and the peak of this period are done, and when the last one was (R319, R323, R327). -/
  run : Bool := false
  valley : Nat := 0
  halfP : Nat := 0
  vDone : Bool := false
  pDone : Bool := false
  reloadAt : Option Nat := none
  /-- Adjustment for the next period, and the cycle in which it was formed (R327). -/
  adj : Int := 0
  adjAt : Option Nat := none
  /-- The compare shadows hold: 0 nothing new, 1 an accepted atomic update, 2 one held for the reload
  after the next (R325); v_d and v_q of the shadows and of the active values. -/
  upd : Nat := 0
  vS : Int × Int := (0, 0)
  vA : Int × Int := (0, 0)
  /-- Reload points in a row without a newly accepted update (R326). -/
  noUpd : Nat := 0
  /-- Gate pattern: 0 OFF, 1 PWM, 2 ZV_LOW, 3 ZV_HIGH (R322); the phases; RUN has had its first accepted
  update (R339). -/
  pat : Nat := 0
  ph : List PhaseG := [{}, {}, {}]
  pwmOn : Bool := false
  /-- GATE_EN; HBRK and when it last went off; BCH and when it last changed (R339, R345, R346). -/
  gateEn : Bool := false
  hbrk : Bool := false
  hbrkOff : Nat := 0
  bch : Bool := false
  bchAt : Option Nat := none
  /-- The last sampling point: its Fife time; phase word and frequency word of DRONE and of SUB_DRONE;
  v_d and v_q in force; it ends a probe pulse; the current inputs whose words are still to come; the
  frame is not yet formed (R324, R330, R334, R341). -/
  smpAt : Nat := 0
  smpTheta : Nat := 0
  smpF : Int := 0
  smpSub : Nat := 0
  smpSubF : Int := 0
  smpV : Int × Int := (0, 0)
  smpProbe : Bool := false
  need : List Nat := []
  openF : Bool := false
  /-- A frame has been formed; the sampling point it belongs to; whether its current items, its VBUS item
  are invalid; the quality of its angle items (R335, R41). -/
  framed : Bool := false
  frameAt : Nat := 0
  badCur : Bool := true
  badBus : Bool := true
  qAng : Nat := 0
  nFrame : Nat := 0
  /-- The duty stage waits for the slots: v_d and v_q as published since the frame's token (R338). -/
  awaits : Bool := false
  pubD : Option Int := none
  pubQ : Option Int := none
  encLast : Nat := 0
  qerrLast : Nat := 0
  /-- Fife time of entry to the state. -/
  since : Nat := 0
  /-- Probe pulses of the batch given; the batch's start; a pulse is on, since when; the sample number of
  the third probe frame; the speed its estimate gave (R341). -/
  probes : Nat := 0
  batchAt : Nat := 0
  probeOn : Bool := false
  probeAt : Nat := 0
  probe3 : Option Nat := none
  probeW : Option Int := none
  /-- The velocity preset of the start, while IQ_REF stands at it; I_HOLD (R337, R345). -/
  iqPreset : Option Int := none
  iHold : Int := 0
  /-- Frames in a row: below CATCH_THR, torque within TQ_TOL, feedback good, measurement unchanged; the
  Drone's last measurement as of the last frame. -/
  lowRun : Nat := 0
  tqRun : Nat := 0
  okRun : Nat := 0
  frozen : Nat := 0
  lastTheta : Option Nat := none
  /-- Filtered levels of A and B; IDX_ARM waits (R333). -/
  encA : Bool := false
  encB : Bool := false
  armed : Bool := false
  deriving DecidableEq, Repr

/-- A sigma-delta input beside its registers: the density block running began with both fault bits clear
and no monitor has raised in it (R331); the word of the last window has been formed (R330). -/
structure SdSt where
  quiet : Bool := false
  worded : Bool := true
  deriving DecidableEq, Repr

/-- What an evaluation latched at its sample boundary (R262, R270, R288, R299, R302): the record, the
input words and the flags of their qualities, the injected words by point, the phase and quality of the
RC Drone with the cells read, the members of a resolver (number, slot, OUT, FLAGS, SAMPLE, excluded), the
system time, the Drone of each capture stream (phase word, cycle count, quality, state), the injection
groups active; an uncorrectable error was found. -/
structure ChnLatch where
  rcd : List Byte := []
  r : Nat := 0
  y : Nat := 0
  ff : Nat := 0
  qual : Nat := 0
  inj : List (Nat × Nat) := []
  injs : List Nat := []
  theta : Nat := 0
  thetaQ : Nat := 0
  cellR : Nat := 0
  cellW : Nat := 0
  members : List (Nat × Nat × Nat × Nat × Nat × Bool) := []
  time : Nat := 0
  drn : List (Nat × Nat × Nat × Nat) := []
  groups : List Bool := []
  bad : Bool := false
  deriving DecidableEq, Repr

/-- A loop slot beside its record and registers (R250 to R256, R270, R273, R288, R290). -/
structure SlotSt where
  /-- Queued coefficient writes, oldest first: INDEX, SHIFT, VALUE. -/
  queue : List (Nat × Nat × Nat) := []
  /-- Markings since ENABLE, modulo DIV. -/
  div : Nat := 0
  /-- Pending on lane 0, on lane 1; contexts (16 × unit + context) that wait for the pending marking. -/
  pend0 : Bool := false
  pend1 : Bool := false
  wait : List Nat := []
  /-- Of a dual slot one lane has started and the other has not: 1 it evaluates, 2 it passes over. -/
  half : Nat := 0
  /-- The evaluation running: lanes still to end, its latch (none when it is void), who waits for it. -/
  todo : Nat := 0
  latch : Option ChnLatch := none
  evWait : List Nat := []
  /-- No evaluation since ENABLE; SAMPLE of each member at the resolver's last evaluation. -/
  fresh : Bool := true
  smp : List (Option Nat) := List.replicate 8 none
  /-- A tracked value was clamped: I_LIM in the next FLAGS (R290). -/
  iLim : Bool := false
  deriving DecidableEq, Repr

/-- A set-point channel beside its registers (R295, R296): when its next update is due, the value last
written by the host, whether it is new, the updates since; the count and the error count at the last
update. -/
structure SpSt where
  due : Nat := 0
  host : Nat := 0
  hostNew : Bool := false
  hostAge : Nat := 0
  last : Nat := 0
  errLast : Nat := 0
  deriving DecidableEq, Repr

/-- An injector beside its registers (R299 to R301): evaluations counted, phase, step counter and run
seed latched at the start, the start cycle, STOP written. -/
structure InjSt where
  k : Nat := 0
  phi : Nat := 0
  step : Nat := 0
  seed : Nat := 0
  startAt : Nat := 0
  stopping : Bool := false
  deriving DecidableEq, Repr

/-- A capture stream beside its registers (R302 to R305): publications since the last record due, the
next SEQ, records lost since the last one written, records since the last token, HOLDOVER set by the
sweep rules, records on their way to memory. -/
structure CapSt where
  dec : Nat := 0
  seq : Nat := 0
  gap : Bool := false
  sinceTok : Nat := 0
  hold : Bool := false
  jobs : List (Nat × List Byte) := []
  deriving DecidableEq, Repr

/-- A mains reference beside its registers (R359 to R361): the polarity and capture time of the last
accepted edge; an edge of each polarity (rising, falling) accepted since the phase passed its point minus
WIN. -/
structure PcmSt where
  lastPol : Option Bool := none
  lastCap : Nat := 0
  seenR : Bool := false
  seenF : Bool := false
  deriving DecidableEq, Repr

/-- The settings a phase-cut channel took at its last cycle start (R385). -/
structure PcSet where
  onMin : Nat := 0
  endGuard : Nat := 0
  pw : Nat := 0
  rtPer : Nat := 0
  latchT : Nat := 0
  rtMax : Nat := 0
  cDiag : Nat := 0
  openN : Nat := 0
  shortN : Nat := 0
  isgnT : Nat := 0
  symTol : Nat := 0
  symN : Nat := 0
  deriving DecidableEq, Repr

/-- A phase-cut channel beside its registers (R364 to R377). -/
structure PcSt where
  cPrev : Nat := 0
  ramp : Nat := 0
  acc : Nat := 0
  /-- Cycle starts since ENABLE; step counter and run seed latched at ENABLE (R367, R644). -/
  starts : Nat := 0
  step : Nat := 0
  seed : Nat := 0
  /-- The line has fired since the previous latch (R366). -/
  strobe : Bool := false
  /-- PC_CMD before the write made in a control cycle (R379). -/
  cmdOld : Nat := 0
  cmdAt : Option Nat := none
  set : PcSet := {}
  /-- The half-cycle: 0 positive, 1 negative (none before the first cycle start); turn-on and turn-off
  half-phases of the cycle (none: not fired, no turn-off); a first cycle since RUN. -/
  half : Option Nat := none
  on : Option Nat := none
  off : Option Nat := none
  first : Bool := false
  /-- FIRE and the time of its last edge at the pin, in sixteenths; the slope code on the pins. -/
  fire : Bool := false
  fireEdge : Nat := 0
  fireAt : Nat := 0
  slope : Nat := 0
  /-- In this half: fired, pulses sent, start of the last pulse, end of the last pulse's conduction window
  (none while the pulse is on), conduction start, the lag measured, a SHORT event seen. -/
  fired : Bool := false
  pulses : Nat := 0
  pulseAt : Nat := 0
  winEnd : Option Nat := none
  judged : Bool := true
  cond : Option Nat := none
  lagged : Bool := false
  shorted : Bool := false
  /-- Conduction start of the positive half; lags measured since RUN: positive, negative. -/
  condPos : Option Nat := none
  lagP : Bool := false
  lagN : Bool := false
  openRun : Nat := 0
  shortRun : Nat := 0
  asymRun : Nat := 0
  /-- Levels of IPOS and INEG, since when both are high. -/
  ipos : Bool := false
  ineg : Bool := false
  bothAt : Nat := 0
  deriving DecidableEq, Repr

/-- A frame of a light link (R390): address, command, payload words. -/
structure LlFrame where
  addr : Nat
  cmd : Nat
  words : List Nat
  deriving DecidableEq, Repr

/-- A light channel beside its registers (R404, R407): the level, the fade from l0 to l1 at step k of n, the
surplus, the current setting last computed. -/
structure LchSt where
  level : Nat := 0
  l0 : Nat := 0
  l1 : Nat := 0
  k : Nat := 0
  n : Nat := 0
  s : Nat := 0
  dot : Nat := 0
  deriving DecidableEq, Repr

/-- A light link beside its registers (R397 to R411): entry to the state, the next timer tick, LATCH SYNC
falls that an event has ordered; updates since RUN; the refresh of the last update is complete, frames
of the refresh still to be sent and when it began; the last command frame sent; drivers disabled at
START; in START the drivers still to answer and the tries of the first; drivers whose status read is
awaited and the failures in a row of each driver; the last gains of the groups; the derating factor;
drivers whose SAFE_PWM is to be written; the scan slot running, the next slot boundary, an event held,
whether the slot's blanking has ended. -/
structure LlSt where
  since : Nat := 0
  tick : Nat := 0
  falls : List Nat := []
  upd : Nat := 0
  complete : Bool := false
  txq : List LlFrame := []
  refAt : Nat := 0
  last : Option LlFrame := none
  dead : List Nat := []
  starting : List Nat := []
  begun : Bool := false
  tries : Nat := 0
  polls : List Nat := []
  fails : List Nat := List.replicate 16 0
  gain : List (Option Nat) := List.replicate 8 none
  derate : Nat := 65536
  safeDirty : List Nat := []
  slot : Option Nat := none
  slotAt : Option Nat := none
  slotStart : Nat := 0
  held : Bool := false
  blanked : Bool := true
  deriving DecidableEq, Repr

/-- A Fife engine beside its registers (R418, R422, R425, R429, R436): fill and drain counts, the CRC, the two
FIFOs (a TX word with the control cycle of its write), the word last pulled, the divider taken at the
last start, the control cycle at which the next engine cycle begins, the stalled word and whether it
was injected, when it began and the level its pin last showed, the t_c of a Drone crossing it waited
for, when RX was last read, the pending injected word, a STEP in progress, the instruction-memory
words written since power-up. -/
structure FeSt where
  capn : Nat := 0
  emtn : Nat := 0
  crc : Nat := 0
  tx : List (Nat × Nat) := []
  rx : List Nat := []
  lastPull : Nat := 0
  div : Nat := 2
  nextAt : Nat := 0
  stalled : Option (Nat × Bool) := none
  began : Nat := 0
  seen : Bool := false
  hit : Option Nat := none
  rxRead : Nat := 0
  inj : Option Nat := none
  stepping : Bool := false
  known : List Nat := []
  deriving DecidableEq, Repr

/-- What one DRAW of a frame uses (R454): its draw parameters and the VIEW, STATE, TEXTURE and SHADE that stand
before it. FP32 values are held as their bits. -/
structure RasDraw where
  strip : Bool := false
  indexed : Bool := false
  idx32 : Bool := false
  count : Nat := 0
  vb : Nat := 0
  ib : Nat := 0
  stride : Nat := 0
  sx : Nat := 0
  ox : Nat := 0
  sy : Nat := 0
  oy : Nat := 0
  scX0 : Nat := 0
  scY0 : Nat := 0
  scX1 : Nat := 0
  scY1 : Nat := 0
  dfunc : Nat := 0
  dwrite : Bool := false
  blend : Bool := false
  srcf : Nat := 0
  dstf : Nat := 0
  cwrite : Bool := false
  cull : Nat := 0
  shade : Bool := false
  tex : Bool := false
  na : Nat := 0
  dscale : Nat := 0
  logW : Nat := 0
  logH : Nat := 0
  mono : Bool := false
  bilinear : Bool := false
  clamp : Bool := false
  texAddr : Nat := 0
  exp : Nat := 0
  ret : Nat := 0
  desc : Nat := 0
  retCtx : Nat := 0
  retCnt : Nat := 0
  tmo : Nat := 0
  deriving DecidableEq, Repr

/-- A filed triangle (R458, R463): its draw, whether it is the first piece of an assembled triangle, the snapped
vertices, 1/w and z/w of each vertex and the products of its attributes with 1/w, as FP32 bits. -/
structure RasPrim where
  draw : Nat
  first : Bool
  xs : List Int
  ys : List Int
  inv : List Nat
  zn : List Nat
  at_ : List (List Nat)
  deriving DecidableEq, Repr

/-- A surface (R455). -/
structure RasSurf where
  addr : Nat
  metaA : Nat
  sig : Nat
  w : Nat
  h : Nat
  pitch : Nat
  fmt : Nat
  load : Bool
  comp : Bool
  sign : Bool
  clear : Nat
  deriving DecidableEq, Repr

/-- The frame that the raster unit runs (R449, R452, R460, R469): its context, its descriptor, the firing time,
pages and grows, what it waits for (0 nothing, 1 a grow, 2 a shader) and since when, the draws and
triangles fetched and how the fetch ended, the surfaces, the bin and draw being rendered, the bin buffer
(colour and depth, then the pixels that passed in the draw with their attributes and texel), the counts
of the record. -/
structure RasRun where
  ctx : Nat := 0
  desc : List Byte := []
  tStart : Nat := 0
  nPages : Nat := 0
  grows : Nat := 0
  wait : Nat := 0
  since : Nat := 0
  draws : List RasDraw := []
  prims : List RasPrim := []
  fetchEnd : Status := .ok
  cs : Option RasSurf := none
  ds : Option RasSurf := none
  bin : Nat := 0
  draw : Nat := 0
  colour : List Nat := []
  depth : List Nat := []
  passed : List (Option (List Nat × List Nat)) := []
  nPrims : Nat := 0
  drawn : Nat := 0
  pagesUsed : Nat := 0
  written : Nat := 0
  skipped : Nat := 0
  nanPrim : Nat := 0
  deriving DecidableEq, Repr


/-- A descriptor in flight (R531, R535): its slot, its bytes, whether it still waits, when it started
and when a WAIT was last read (system time in ns), its status and RESULT once it has ended. -/
structure DescRun where
  slot : Nat
  bytes : List Byte
  started : Nat := 0
  polled : Nat := 0
  ended : Option (Status × Nat) := none
  deriving DecidableEq, Repr

/-- A submission ring beside its registers (R524, R526, R535, R536): its tail, descriptors fetched and not
started (slot, bytes), descriptors in flight, whether a descriptor has written host memory since the
last zero-length read. -/
structure SqSt where
  tail : Nat := 0
  fetched : List (Nat × List Byte) := []
  flight : List DescRun := []
  hostWrote : Bool := false
  deriving DecidableEq, Repr

/-- A completion ring beside its registers (R528, R539 to R544): its head, the phase written, entries that wait
for a slot (bytes, IRQ), entries since the last message and the system time of the first. -/
structure CqSt where
  head : Nat := 0
  phase : Nat := 1
  held : List (List Byte × Bool) := []
  count : Nat := 0
  first : Nat := 0
  deriving DecidableEq, Repr


/-- A Windway link (ports 0 to 7) or tunnel port (8 to 11) beside its registers (R555 to R560, R571, R580, R581):
messages waiting to be sent; the next frame number and the frames not yet acknowledged (number, time sent,
replays, messages); the number expected next; credits held and credits owed, in flits per channel; NAK to
be sent; the channel whose turn it is; the last frame sent; Fife time of the last good frame, of the entry
to the state, of the last frame sent; the last JOIN_INFO received; the measured offset; losses by system
time; Fife times of the last SYNC, TIME_REQ and SWEEP_SYNC sent; numbers of the frames to be replayed; a KEEPALIVE
frame is to be sent. -/
structure PortSt where
  txq : List WwMsg := []
  txSeq : Nat := 0
  unacked : List (Nat × Nat × Nat × List WwMsg) := []
  rxNext : Nat := 0
  cred : List Nat := [256, 256, 256]
  owed : List Nat := [0, 0, 0]
  nak : Bool := false
  turn : Nat := 0
  sent : Option WwFrame := none
  lastGood : Nat := 0
  since : Nat := 0
  lastSent : Nat := 0
  info : List Byte := []
  offset : Option Int := none
  losses : List Nat := []
  syncAt : Nat := 0
  timeAt : Nat := 0
  sweepAt : Nat := 0
  resend : List Nat := []
  keep : Bool := false
  deriving DecidableEq, Repr

/-- A sweep as a member or its master sees it (R587 to R591): the sweep ID, the master, the group, S0, SEQ0,
the port START arrived by, Fife time of the last SWEEP_SYNC sent or received and of the last SWEEP_ACK
sent; on the master the time of each member's last SWEEP_ACK; END has arrived. -/
structure SweepSt where
  id : Nat := 0
  master : Nat := 0
  group : Nat := 0
  s0 : Nat := 0
  seq0 : Nat := 0
  port : Nat := 12
  syncAt : Nat := 0
  ackAt : Nat := 0
  acks : List Nat := List.replicate 16 0
  ending : Bool := false
  deriving DecidableEq, Repr


/-- A TOK message sent and not answered (R572): its tag, the port it left by, the system time in ns, the token or credit
message with its sender. -/
structure TokOut where
  tag : Nat
  port : Nat
  at_ : Nat
  msg : Nat × Nat
  deriving DecidableEq, Repr

/-- A gate control list in operation (R612): its entries (interval in ns, gate states, operation), its base and cycle,
the entry running, the system times at which the entry and the cycle end, the time at which a pending
change is due, the control cycle in which the gates last changed. -/
structure QbvSt where
  entries : List (Nat × Nat × Nat) := []
  base : Nat := 0
  cycle : Nat := 0
  idx : Nat := 0
  entryEnd : Nat := 0
  cycleEnd : Nat := 0
  changeAt : Nat := 0
  gateAt : Option Nat := none
  deriving DecidableEq, Repr

/-- A CSI-2 stream context beside its registers (R621 to R623): frames accepted, whether one is being received, its
buffer, number, start, Drone cycle count, lines received, bands posted, the flags of the record (1 SHORT,
2 CRC_ERR, 4 LEN_ERR, 8 TIMEOUT), whether a write failed, system time of the last packet. -/
structure CsiSt where
  accepted : Nat := 0
  active : Bool := false
  buf : Nat := 0
  num : Nat := 0
  start : Nat := 0
  cc : Nat := 0
  lines : Nat := 0
  bands : Nat := 0
  flags : Nat := 0
  failed : Bool := false
  last : Nat := 0
  deriving DecidableEq, Repr

/-- A serial interface beside its registers (R626): its FIFOs, the command under way. -/
structure SerSt where
  tx : List Nat := []
  rx : List Nat := []
  cmd : Option Nat := none
  deriving DecidableEq, Repr


/-- A safety-frame channel beside its registers (R686, R687): Fife times at which the next frame is due and of the last
good PDU (of ENABLE, before one), SEQ of the last good PDU. -/
structure ScSt where
  due : Nat := 0
  good : Nat := 0
  seq : Option Nat := none
  deriving DecidableEq, Repr


/-- The one-time-programmable fuses (R747): GRADE, TEMP, STEPPING, TILE_MAP, SERIAL, KEY_HASH (byte 0 lowest),
SECURE, ROLLBACK, DEBUG_LOCK, STARTUP_BIST, HOST_RECOVERY. The defaults are the model's part: an A64 of
code I, stepping B1, with no key, lock or recovery. -/
structure Fuses where
  grade : Nat := 0
  temp : Bool := false
  stepping : Nat := 2
  tileMap : Nat := 0
  serial : Nat := 0
  keyHash : Nat := 0
  secure : Bool := false
  rollback : Nat := 0
  debugLock : Bool := false
  startupBist : Bool := false
  hostRecovery : Bool := false
  deriving DecidableEq, Repr

/-- The boot sequencer and the reset pins beside BOOT_STAT (R741 to R772). -/
structure BootSt where
  /-- PORST_N is low. -/
  porst : Bool := false
  /-- The reference has been accepted; the fuse shadows are filled (R744, R747). -/
  refOk : Bool := false
  fusesRead : Bool := false
  /-- The fuses, stored twice (R747). -/
  fuseA : Fuses := {}
  fuseB : Fuses := {}
  /-- The header of the copy being loaded or verified (R755). -/
  header : List Byte := []
  /-- The copy being loaded: 0 primary, 1 backup, 2 host; the image comes from the host, so that the endpoint shows the PF
  alone (R754, R758, R762). -/
  copy : Nat := 0
  hostBoot : Bool := false
  /-- HOST_GO has started a load of the staged image (R758). -/
  hostGo : Bool := false
  /-- The island's boot ROM (R757): 0 held, 1 zeroing, 2 waits for VERIFIED, 3 copied, 4 firmware started; the
  firmware's entry. -/
  rom : Nat := 0
  islandEntry : Nat := 0
  /-- The management cores run from M_ENTRY (R759). -/
  coresRun : Bool := false
  mgmtEntry : Nat := 0
  /-- The debug port has been opened by DBG_UNLOCK (R772). -/
  dbgOpened : Bool := false
  /-- Pin banks out of their range (R802, R804): 0 MOTOR, 1 FIELD, 2 GP, 3 SYS, 4 ETH, 5 SER. -/
  banksLost : List Nat := []
  deriving DecidableEq, Repr


/-- The state of the part. -/
structure State where
  /-- The commands that wait, first in first out. -/
  pending : List Instr := []
  /-- Every register field whose value is not its reset value, by the bit address of its lowest bit. -/
  regs : List (Nat × Nat) := []
  /-- The bytes of the memories of R113, by local address (Windchests by the direct view); an unlisted
  byte reads 0, or is unknown where `unknown` lists its memory (R141). -/
  mem : List Host.Cell := []
  /-- Codes of the memories whose unlisted bytes are unknown (R141, R506, R752). -/
  unknown : List Nat := []
  /-- Windchest pages whose bytes binning has taken: what an unlisted byte of them holds is the part's own
  (R459). -/
  lostPages : List Nat := []
  /-- ECC words with a stored error: 1 a single-bit error, 2 an uncorrectable one, 3 stored poison
  (R134 to R139), by word address. -/
  ecc : List (Nat × Nat) := []
  /-- Corrected words waiting for their write-back (R135). -/
  wb : List Nat := []
  /-- The LR reservation of each management core: 64-byte granule + 1, 0 none (R133). -/
  resv : List Nat := [0, 0, 0, 0]
  /-- The scrubber's next line of each memory (R138), by memory code. -/
  scrub : List (Nat × Nat) := []
  /-- The answer to the last request. -/
  answer : Answer := {}
  /-- Answers still to come, in this step, for the requests that leave the part. -/
  replies : List Reply := []
  /-- Requests that have left the part and are not answered; tags that ended without a reply, with the
  system time until which they are not used again (R571). -/
  outst : List Outstanding := []
  tagHold : List (Nat × Nat) := []
  /-- Writes performed whose acknowledgment has not reached its requester: initiator, status (R128). -/
  acks : List (Nat × Status) := []
  nextTag : Nat := 0
  /-- Posted host writes, oldest first: function, address, bytes (R128). -/
  hostOut : List (Nat × Nat × List Byte) := []
  /-- Token and credit messages sent and not yet delivered, oldest first (R94). -/
  msgs : List (Nat × Nat) := []
  /-- Answers other than OK to the posts of contexts (16 × unit + context), on their way to them (R96). -/
  postAns : List (Nat × Status) := []
  /-- Messages that wait for the zero-length read of a PCIe function (R131): function, message. -/
  zlr : List (Nat × Nat × Nat) := []
  /-- Faults reported to the fault collection and not yet asserted: source, detail (R664). -/
  reports : List (Nat × Nat) := []
  /-- The safety-island firmware has been interrupted by this source (R665, R696), oldest first. -/
  islandIrq : List Nat := []
  /-- The control clock runs: the divider alignment has passed (R745). -/
  aligned : Bool := false
  /-- SYSRST_N is low. -/
  sysrst : Bool := false
  /-- Fife time: control cycles since the alignment edge, modulo 2^48 (R15). -/
  now : Nat := 0
  /-- System time in units of 2^-32 ns, modulo 2^80 (R609). -/
  sysAcc : Nat := 0
  /-- Units of R712, by code. -/
  units : List (Nat × UnitSt) := []
  /-- Firewall regions by 64 × target + region; targets armed; targets locked (R693, R695). -/
  fw : List (Nat × FwRegion) := []
  fwArmed : List Nat := []
  fwLocked : List Nat := []
  /-- Thread contexts by 16 × unit number + context. -/
  ctxs : List (Nat × CtxInt) := []
  /-- Sequencers that hold an unread error in SEQ_ERR (R102). -/
  errHeld : List Nat := []
  /-- Row words written and not yet committed, by register address (R103). -/
  rowStage : List (Nat × Nat) := []
  drones : List Drone := List.replicate 16 {}
  /-- Events on their way to their targets (R59). -/
  events : List FiredEvent := []
  /-- The latch bank has not been read since the last latch; latch records being written (R65). -/
  latchUnread : Bool := false
  latchJobs : List LatchJob := []
  /-- How many free values have been drawn; the model's own field. -/
  freeCtr : Nat := 0
  /-- Measurements their sources have formed and no Drone has taken (R41). -/
  meas : List Meas := []
  /-- The Reed instances beside their registers (R211). -/
  reed : List ReedInst := List.replicate 48 {}
  /-- QSTAT of each management core (R239). -/
  qstat : List Nat := [0, 0, 0, 0]
  /-- The TOK.POST of each core that waits for the core's earlier writes: the message and the system time of its issue
  (R238, R239). -/
  tokWait : List (Option (Nat × Nat)) := [none, none, none, none]
  /-- The operating-point change in progress (R501). -/
  opChange : OpChange := {}
  /-- The code on BELLOWS_VID2 to BELLOWS_VID0 (R742, R799). -/
  vid : Nat := 0
  /-- BELLOWS_VOK is high; the code has changed since it last rose (R801). -/
  vok : Bool := false
  vidChanged : Bool := true
  /-- Windows since each sensor's last new reading, at most 10 (R494). -/
  sensAge : List Nat := List.replicate 16 0
  /-- Consecutive windows at or above SHUT (R495); windows since the last change ended (R504). -/
  shutRun : Nat := 0
  opSince : Nat := 4096
  /-- BEL_USED of the classes S, C, P, B (R492). -/
  used : List Nat := [0, 0, 0, 0]
  /-- The live step counter (R645); the low word written and not yet committed. -/
  step : Nat := 0
  stepStage : Nat := 0
  /-- The draw of the generator port in progress: seed and block X (R646). -/
  genJob : Option (Nat × Nat) := none
  /-- Signatures of the tiles (R650 to R654). -/
  sigs : List StepSig := []
  /-- Signatures received: step, logical tile, signature (R652). -/
  sigsIn : List (Nat × Nat × Nat) := []
  /-- The live LS_STEP_HI (R660). -/
  lsStepHi : Nat := 0
  /-- Lock-step comparison has ended with the loss of its link and waits for EN = 0 (R654). -/
  lsDead : Bool := false
  /-- The fingerprint word and map hash of the JOIN_INFO last received on each port (R581, R649). -/
  joinFp : List (Option (Nat × Nat)) := List.replicate 12 none
  /-- The tiles beside their registers, by position. -/
  tiles : List (Nat × TileSt) := []
  /-- The axes and the sigma-delta inputs beside their registers. -/
  axes : List AxisSt := List.replicate 12 {}
  sds : List SdSt := List.replicate 40 {}
  /-- The slots, set-point channels, injectors and capture streams beside their registers. -/
  slots : List SlotSt := List.replicate 128 {}
  sps : List SpSt := List.replicate 64 {}
  injs : List InjSt := List.replicate 32 {}
  caps : List CapSt := List.replicate 8 {}
  /-- The slot each evaluator runs. -/
  lanes : List (Option Nat) := [none, none]
  /-- CHANTER iterations that wait for their slots: context, a limit was met, POISON (R254). -/
  chnRuns : List (Nat × Bool × Bool) := []
  /-- The CHN_CWQ_SEL value of each initiator (R273). -/
  cwqSel : List (Nat × Nat) := []
  /-- Mains references and phase-cut channels beside their registers. -/
  pcms : List PcmSt := List.replicate 2 {}
  pcs : List PcSt := List.replicate 8 {}
  /-- Light links beside their registers; their channels by 256 × link + 16 × driver + channel. -/
  lls : List LlSt := List.replicate 4 {}
  lchs : List (Nat × LchSt) := []
  /-- Fife engines beside their registers; the synchronised levels of FIO0 to FIO127 last read (R421). -/
  fes : List FeSt := List.replicate 32 {}
  fioLv : Nat := 0
  /-- The frame the raster unit runs, if any. -/
  ras : Option RasRun := none
  /-- Submission and completion rings by 8 × client + ring; the doorbell pages as last written (R520); MSI-X
  messages sent (function, vector), pending bits of the PBA, masked vectors. -/
  sqs : List (Nat × SqSt) := []
  cqs : List (Nat × CqSt) := []
  dbVals : List (Nat × Nat) := []
  msix : List (Nat × Nat) := []
  msixPend : List (Nat × Nat) := []
  /-- Interrupts to the management cores in place of MSI-X (R545). -/
  coreIrq : List Nat := []
  /-- The PCIe link is up; functions in D3hot (R518, R519). -/
  pcieUp : Bool := false
  d3hot : List Nat := []
  /-- Windway links and tunnel ports beside their registers. -/
  ports : List PortSt := List.replicate 12 {}
  /-- TOK messages sent and not answered (R572). -/
  tokOut : List TokOut := []
  /-- FWMSG words received and not read (R562). -/
  fwmsgs : List Nat := []
  /-- Messages and tunnel frames discarded and counted in BAD_MSG (R562, R578), which no register shows. -/
  badMsg : Nat := 0
  /-- Fife time of the last LEADER received or sent (R583, R584). -/
  leaderAt : Nat := 0
  sweep : SweepSt := {}
  /-- Finished entries of each field ring that wait for their write-back, by the ring's register address
  (R604). -/
  frDone : List (Nat × List (List Byte)) := []
  /-- Gate control lists by Ethernet port; whose turn it is in each class (R608), by 8 × port + class. -/
  qbv : List QbvSt := List.replicate 4 {}
  ethTurn : List Nat := []
  /-- Frames sent: Ethernet port and bytes without FCS; CAN controller and frame. -/
  ethOut : List (Nat × List Byte) := []
  canOut : List (Nat × CanFrame) := []
  /-- CAN controllers whose bus-off recovery has been permitted by RECOVER (R618). -/
  canRecover : List Nat := []
  /-- CSI-2 stream contexts by 2 × receiver + context. -/
  csis : List CsiSt := List.replicate 4 {}
  /-- SPI 0 to 5, I2C 0 to 3, UART 0 to 3, xSPI. -/
  sers : List SerSt := List.replicate 15 {}
  /-- Bytes and commands that the serial interfaces sent: interface, value. -/
  serOut : List (Nat × Nat) := []
  /-- Safety frames that wait for their Ethernet port: channel, bytes (R686). -/
  scTx : List (Nat × List Byte) := []
  /-- System time of the last entry to the safe state (R666); Fife time of the first exit key (R673). -/
  sfTime : Nat := 0
  exitKey : Option Nat := none
  /-- The island cores are halted (R662). -/
  islandHalted : Bool := false
  /-- Oscillator cycles that SAFE_IN_N has been high (R673). -/
  safeInHigh : Nat := 0
  /-- The island watchdog is enabled; whether it has been kicked; Fife time of the last kick or of the enabling; the value
  it expects (R668). -/
  wdOn : Bool := false
  wdKicked : Bool := false
  wdAt : Nat := 0
  wdNext : Nat := 0x5A
  /-- The STO pin (0 A, 1 B) under a test pulse and its start; Fife times of the last pulse of each (R679). -/
  stoPulse : Option (Nat × Nat) := none
  stoLast : List Nat := [0, 0]
  /-- Safety-frame channels beside their registers. -/
  scs : List ScSt := List.replicate 8 {}
  /-- Boot and the reset pins (R741 to R772). -/
  boot : BootSt := {}
  /-- The memory that MEM_ZERO is zeroing, by code + 1; 0 none (R140). -/
  zeroing : Nat := 0
  deriving DecidableEq, Repr

/-- The part right after PORST_N is released (R743, R773, R778): every register at its reset value, no
clock aligned, every memory unknown, no command waiting. -/
def State.reset : State :=
  { unknown := List.range 0x66 }

end Sys2Proof.Machine
end

