-- ==== Sys2Proof/Machine/Ops.lean ====
section
/-! DEFINITION. The named operations on the state that every block shares: reading and writing a
register field, counters, status bits, reporting a fault, sending a token or credit message, drawing
a free value, the two clocks. -/

namespace Sys2Proof.Machine

/-! ### Register fields -/

/-- The value a register field holds. -/
def State.rd (s : State) (f : Fld) : Nat := tget f.rst s.regs f.key

/-- Whether a one-bit field is 1. -/
def State.on (s : State) (f : Fld) : Bool := s.rd f != 0

/-- Put a value, cut to the field's width, into a register field. -/
def State.wr (s : State) (f : Fld) (v : Nat) : State :=
  { s with regs := tset f.rst s.regs f.key (v % 2 ^ f.w) }

/-- The field read as two's complement. -/
def State.rdS (s : State) (f : Fld) : Int := sx f.w (s.rd f)

/-- Put a signed value into a field. -/
def State.wrS (s : State) (f : Fld) (v : Int) : State := s.wr f (ux f.w v)

/-- Set a one-bit field when the condition holds. -/
def State.flag (s : State) (c : Bool) (f : Fld) : State := if c then s.wr f 1 else s

/-- Add to a saturating counter field (R95, R149 and others). -/
def State.count (s : State) (f : Fld) (n : Nat) : State := s.wr f (satAdd f.w (s.rd f) n)

/-- Add to a counter field that wraps. -/
def State.countWrap (s : State) (f : Fld) (n : Nat) : State := s.wr f (s.rd f + n)

/-- Put a value into each of several fields. -/
def State.wrAll (s : State) : List (Fld × Nat) → State
  | [] => s
  | (f, v) :: t => (s.wr f v).wrAll t

/-- Two 32-bit fields as one 64-bit value. -/
def State.rd64 (s : State) (lo hi : Fld) : Nat := s.rd lo + s.rd hi * 2 ^ 32

/-- Fields of a table of the map at their reset values over an address range. -/
def State.clearRegs (s : State) (lo n : Nat) : State :=
  { s with regs := tdrop s.regs (lo * 8) (n * 8) }

/-! ### Faults, free values, messages -/

/-- A unit reports a fault to the fault collection (R664); FAULT_ASSERTION then asserts it. -/
def State.report (s : State) (src detail : Nat) : State :=
  { s with reports := s.reports ++ [(src, detail)] }

/-- Report when a condition holds. -/
def State.reportIf (s : State) (c : Bool) (src detail : Nat) : State :=
  if c then s.report src detail else s

/-- The free value number i of this step. -/
def State.free (s : State) (i : Nat) : Nat := Config.freeValue s.freeCtr i

/-- The free values of this step are spent. -/
def State.drawn (s : State) : State := { s with freeCtr := s.freeCtr + 1 }

/-- A message of a context (its number + 1) or of another source (0) on its way (R94). -/
def State.sendFrom (s : State) (m src : Nat) : State := { s with msgs := s.msgs ++ [(m, src)] }

/-- A message of a source that is no context on its way. -/
def State.send (s : State) (m : Nat) : State := s.sendFrom m 0

/-- The answer of a request. -/
def State.answered (s : State) (st : Status) (v : Nat) : State := { s with answer := { st := st, value := v } }

/-- The token message of R94. -/
def tokenMsg (chip unit ctx counter count epoch cls : Nat) : Nat :=
  chip % 2 ^ 15 + (unit % 256) * 2 ^ 16 + (ctx % 16) * 2 ^ 24 + (counter % 16) * 2 ^ 28 +
    (count % 256) * 2 ^ 32 + (epoch % 256) * 2 ^ 40 + (cls % 4) * 2 ^ 48

/-- The credit message of R94. -/
def creditMsg (chip unit pool count epoch cls : Nat) : Nat :=
  chip % 2 ^ 15 + 2 ^ 15 + (unit % 256) * 2 ^ 16 + (pool % 32) * 2 ^ 24 +
    (count % 256) * 2 ^ 32 + (epoch % 256) * 2 ^ 40 + (cls % 4) * 2 ^ 48

/-- A message the part never sends (R94). -/
def msgMalformed (m : Nat) : Bool :=
  bits m 50 14 != 0 ||
    (if bit m 15 then bits m 32 8 == 0 || bits m 29 3 != 0
     else bits m 32 8 == 0 || 31 < bits m 32 8)

/-- The code by which the lifecycle names a sequencer unit (R712): tiles by position, Reed engines
from 0x60; the other sequencers and the sinks have no gate. -/
def gateOfUnit (u : Nat) : Option Nat :=
  if u < 0x40 then some u else if 0x40 ≤ u ∧ u ≤ 0x43 then some (u - 0x40 + 0x60) else none

/-- A unit of R712. -/
def State.unitSt (s : State) (code : Nat) : UnitSt := tget {} s.units code

/-- Put a unit of R712. -/
def State.setUnit (s : State) (code : Nat) (v : UnitSt) : State :=
  { s with units := tset {} s.units code v }

/-- The current epoch of a sequencer unit as broadcast (R714); 0 where the unit has no epoch. -/
def State.epochOf (s : State) (u : Nat) : Nat :=
  match gateOfUnit u with
  | some c => (s.unitSt c).epoch
  | none => 0

/-- This chip (R110). -/
def State.chip (s : State) : Nat := s.rd R.MEM_CHIP_ID_CHIP_ID

/-- One token of class C to a context of a unit of this chip, from a source with no epoch field
(R715): the epoch is the unit's current one. -/
def State.token (s : State) (unit ctx counter : Nat) : State :=
  s.send (tokenMsg s.chip unit ctx counter 1 (s.epochOf unit) 1)

/-- A tile position is enabled (R6, R747). -/
def State.tileOn (s : State) (t : Nat) : Bool :=
  !(if t < 32 then bit (s.rd R.ID_TILE_MAP_LO_TILE_MAP) t else bit (s.rd R.ID_TILE_MAP_HI_TILE_MAP) (t - 32))

/-- A code of R712 that names a unit of this part. -/
def State.isUnit (s : State) (code : Nat) : Bool :=
  if code < 0x40 then s.tileOn code
  else code < 0x64 || (0x68 ≤ code && code < 0x74)

/-- RWL fields outside SAFETY still take writes (R782). -/
def State.unlocked (s : State) : Bool := !s.on R.SETUP_LOCK_LOCK

/-- RWL fields of the SAFETY block still take writes (R782). -/
def State.islUnlocked (s : State) : Bool := !s.on R.SETUP_LOCK_ISL_LOCK

/-! ### Writing one register by the access codes of R16 -/

/-- The field that a register table describes, at the address of the register. -/
def fieldOf (addr idx : Nat) (d : FieldDesc) : Fld :=
  ⟨addr * 8 + d.lo, d.w, d.rst.getD idx (d.rst.headD 0)⟩

/-- A write of `word` acts on one field by its access code; `open_` says that an RWL field takes it. -/
def State.writeField (s : State) (addr idx word : Nat) (open_ : Bool) (d : FieldDesc) : State :=
  let f := fieldOf addr idx d
  let v := bits word d.lo d.w
  match d.acc with
  | .rw => s.wr f v
  | .rwl => if open_ then s.wr f v else s
  | .w1c => s.wr f (s.rd f &&& (2 ^ d.w - 1 - v))
  | .w1s => s.wr f (s.rd f ||| v)
  | .ro => s
  | .wo => s

/-- A write of a register changes all its writable fields in one cycle (R776). -/
def State.writeFields (s : State) (addr idx word : Nat) (open_ : Bool) : List FieldDesc → State
  | [] => s
  | d :: t => (s.writeField addr idx word open_ d).writeFields addr idx word open_ t

/-- A read returns every field as it stands; WO fields read 0 (R16, R776). -/
def State.readFields (s : State) (addr idx : Nat) : List FieldDesc → Nat
  | [] => 0
  | d :: t =>
    (if d.acc = .wo then 0 else s.rd (fieldOf addr idx d) * 2 ^ d.lo) + s.readFields addr idx t

/-! ### Finding a register -/

/-- The copy numbers of an address offset over the arrays a register is in. -/
def splitDims : List (Nat × Nat) → Nat → Option (List Nat)
  | [], 0 => some []
  | [], _ + 1 => none
  | (n, st) :: t, o =>
    if o / st < n then (splitDims t (o % st)).map (fun l => o / st :: l) else none

/-- The register of a table that lies at an offset, with its copy numbers. -/
def findReg : List RegDesc → Nat → Option (RegDesc × List Nat)
  | [], _ => none
  | d :: t, a =>
    if d.base ≤ a then
      match splitDims d.dims (a - d.base) with
      | some l => some (d, l)
      | none => findReg t a
    else findReg t a

/-! ### Windows of sequencers and sinks (R76, R108) -/

/-- The window of a sequencer unit or sink. -/
def windowOf (u : Nat) : Option Nat :=
  if u < 0x40 then some (0x808000 + 0x10000 * u)
  else if 0x40 ≤ u ∧ u ≤ 0x43 then some (0x150000 + 0x4000 * (u - 0x40))
  else if 0x44 ≤ u ∧ u ≤ 0x45 then some (0x130000 + 0x4000 * (u - 0x44))
  else if u = 0x48 then some 0x210000
  else if 0x50 ≤ u ∧ u ≤ 0x57 then some (0x420000 + 0x4000 * (u - 0x50))
  else if 0x60 ≤ u ∧ u ≤ 0x63 then some (0x8000 + 0x2000 * (u - 0x60))
  else if u = 0x68 then some 0x48000
  else none

/-- Table rows of a sequencer (R76); sinks have none. -/
def rowsOf (u : Nat) : Nat :=
  if u < 0x40 then 512 else if u ≤ 0x43 then 128 else if u ≤ 0x45 then 256 else if u = 0x48 then 256
  else if 0x50 ≤ u ∧ u ≤ 0x57 then 128 else 0

/-- Sequencers hold rows; sinks do not (R76). -/
def isSeq (u : Nat) : Bool := rowsOf u != 0

/-- Token sinks (R76). -/
def isSink (u : Nat) : Bool := (0x60 ≤ u && u ≤ 0x63) || u == 0x68

/-- The window of a unit, 0 where it has none. -/
def win (u : Nat) : Nat := (windowOf u).getD 0

/-- The sequencer or sink whose window holds a register address, with the window's base. -/
def unitOfAddr (a : Nat) : Option Nat :=
  if 0x800000 ≤ a then
    (if (a - 0x800000) % 0x10000 < 0x8000 then none else some ((a - 0x800000) / 0x10000))
  else if 0x150000 ≤ a ∧ a < 0x160000 then some (0x40 + (a - 0x150000) / 0x4000)
  else if 0x130000 ≤ a ∧ a < 0x138000 then some (0x44 + (a - 0x130000) / 0x4000)
  else if 0x210000 ≤ a ∧ a < 0x214000 then some 0x48
  else if 0x420000 ≤ a ∧ a < 0x440000 then some (0x50 + (a - 0x420000) / 0x4000)
  else if 0x8000 ≤ a ∧ a < 0x10000 then some (0x60 + (a - 0x8000) / 0x2000)
  else if 0x48000 ≤ a ∧ a < 0x4A000 then some 0x68
  else none

/-- A thread context beside its registers. -/
def State.ctx (s : State) (u c : Nat) : CtxInt := tget {} s.ctxs (16 * u + c)

/-- Put a thread context. -/
def State.setCtx (s : State) (u c : Nat) (v : CtxInt) : State :=
  { s with ctxs := tset {} s.ctxs (16 * u + c) v }

/-- A tile beside its registers. -/
def State.tile (s : State) (t : Nat) : TileSt := tget {} s.tiles t

/-- Put a tile. -/
def State.setTile (s : State) (t : Nat) (v : TileSt) : State := { s with tiles := tset {} s.tiles t v }

/-- An axis beside its registers. -/
def State.axis (s : State) (n : Nat) : AxisSt := s.axes.getD n {}

/-- Put an axis. -/
def State.setAxis (s : State) (n : Nat) (v : AxisSt) : State := { s with axes := s.axes.set n v }

/-- Who the requests of a row are from: the ID in SF_CTX_INIT of its context, its class (R691). -/
def State.rowWho (s : State) (u c cls : Nat) : Who :=
  { ini := Fin.ofNat 64 (s.rd (R.SF_CTX_INIT_INIT u c)), cls := Fin.ofNat 4 cls, remote := false }

/-! ### Time -/

/-- System time in ns, 48 bits (R15). -/
def State.sysTime (s : State) : Nat := s.sysAcc / 2 ^ 32 % 2 ^ 48

/-- Nanoseconds of system time from a time to now (R15). -/
def State.sysSince (s : State) (t : Nat) : Nat := (s.sysTime + 2 ^ 48 - t % 2 ^ 48) % 2 ^ 48

/-- Control cycles from a 48-bit Fife time to now (R15). -/
def State.since (s : State) (t : Nat) : Nat := (s.now + 2 ^ 48 - t % 2 ^ 48) % 2 ^ 48

/-- The present is at or after a Fife time (within half the wrap, R15). -/
def State.reached (s : State) (t : Nat) : Bool := decide (s.since t < 2 ^ 47)

/-- The part is in the safe state (R670). -/
def State.inSafe (s : State) : Bool := s.on R.SF_STAT_SAFE

end Sys2Proof.Machine
end

