-- ==== Sys2Proof/Machine/MemCells.lean ====
section
/-! DEFINITION. The memories of the part: the local map, the two views of the Windchests, the bytes themselves
(spec/04_address_space_memory.md). -/

namespace Sys2Proof.Machine

/-! ### The local map (R113, R118) -/

/-- Where a local address lies. Codes of memories: 0x00 to 0x3F tile stores, 0x40 to 0x5F Windchest
banks, 0x60 to 0x63 Reed weight SRAMs, 0x64 the Chanter state, 0x65 the safety-island SRAM. -/
inductive Place where
  | registers
  | doorbell
  | memory (code phys : Nat)
  | nowhere
  deriving DecidableEq, Repr

/-- Direct-view offset of an interleaved-view offset (R118). -/
def deinterleave (o : Nat) : Nat :=
  (bits o 12 5 ^^^ bits o 17 5) * 2 ^ 20 + bits o 17 8 * 2 ^ 12 + bits o 0 12

/-- The place of a local address (R113); Windchest bytes are named by their direct view. -/
def placeOf (a : Nat) : Place :=
  if a < 0x1000000 then .registers
  else if a < 0x1020000 then .doorbell
  else if 0x4000000 ≤ a ∧ a < 0x4100000 then .memory 0x64 a
  else if 0x5000000 ≤ a ∧ a < 0x5200000 then .memory (0x60 + (a - 0x5000000) / 0x80000) a
  else if 0x6000000 ≤ a ∧ a < 0x6100000 then .memory 0x65 a
  else if 0x10000000 ≤ a ∧ a < 0x12000000 then
    let d := deinterleave (a - 0x10000000)
    .memory (0x40 + d / 0x100000) (0x12000000 + d)
  else if 0x12000000 ≤ a ∧ a < 0x14000000 then .memory (0x40 + (a - 0x12000000) / 0x100000) a
  else if 0x20000000 ≤ a ∧ a < 0x28000000 then .memory ((a - 0x20000000) / 0x200000) a
  else .nowhere

/-- First byte and size of a memory. -/
def memRange (code : Nat) : Nat × Nat :=
  if code < 0x40 then (0x20000000 + 0x200000 * code, 0x200000)
  else if code < 0x60 then (0x12000000 + 0x100000 * (code - 0x40), 0x100000)
  else if code < 0x64 then (0x5000000 + 0x80000 * (code - 0x60), 0x80000)
  else if code = 0x64 then (0x4000000, 0x100000) else (0x6000000, 0x100000)

/-- The unit of R712 that holds a memory; the Chanter state and the island SRAM lie in none (R715). -/
def unitOfMem (code : Nat) : Option Nat := if code < 0x64 then some code else none

/-- The firewall target of a memory (R693). -/
def fwTarget (code : Nat) : Nat :=
  if code < 0x40 then code
  else if code < 0x60 then 0x40 + (code - 0x40) / 8
  else if code < 0x64 then 0x44 + (code - 0x60)
  else if code = 0x64 then 0x48 else 0x49

/-- Bytes of an ECC word (R134). -/
def eccWord (code : Nat) : Nat := if code = 0x65 then 4 else 8

/-! ### Bytes -/

/-- A Windchest byte lies in a page that binning has taken (R459). -/
def State.pageLost (s : State) (a : Nat) : Bool :=
  decide (0x12000000 ≤ a) && decide (a < 0x14000000) && s.lostPages.contains ((a - 0x12000000) / 0x10000)

/-- An unlisted byte is unknown: its memory lost its content (R141), or its page holds bin memory. -/
def State.isLost (s : State) (code a : Nat) : Bool := s.unknown.contains code || s.pageLost a

/-- What a byte that nothing has written reads as: 0, or an unknown value. -/
def State.unlisted (s : State) (code a : Nat) : Byte :=
  if s.isLost code a then Config.unknownByte a else 0

/-- One byte of a memory. -/
def memGet : List Host.Cell → Nat → Option Byte
  | [], _ => none
  | (j, v) :: t, a => if j = a then some v else memGet t a

/-- Put one byte; `dflt` is what an unlisted byte reads as, none where that is not known. -/
def memPut (dflt : Option Byte) (l : List Host.Cell) (a : Nat) (v : Byte) : List Host.Cell :=
  if dflt = some v then terase a l else tput a v (terase a l)

/-- The code of the memory a byte address lies in (R113); a Windchest byte has its direct-view address. 0x66: none. -/
def memCode (a : Nat) : Nat :=
  if 0x20000000 ≤ a ∧ a < 0x28000000 then (a - 0x20000000) / 0x200000
  else if 0x12000000 ≤ a ∧ a < 0x14000000 then 0x40 + (a - 0x12000000) / 0x100000
  else if 0x5000000 ≤ a ∧ a < 0x5200000 then 0x60 + (a - 0x5000000) / 0x80000
  else if 0x4000000 ≤ a ∧ a < 0x4100000 then 0x64
  else if 0x6000000 ≤ a ∧ a < 0x6100000 then 0x65
  else 0x66

/-- The canonical form of the memory: addresses rise, and no entry equals what an unlisted address
reads as. -/
def Memory.wf (s : State) : Bool :=
  tsorted s.mem && s.mem.all fun p => p.2 != 0 || s.isLost (memCode p.1) p.1

/-- Read one byte. -/
def State.getByte (s : State) (a : Nat) : Byte := (memGet s.mem a).getD (s.unlisted (memCode a) a)

/-- Write one byte. -/
def State.putByte (s : State) (a : Nat) (v : Byte) : State :=
  { s with mem := memPut (if s.isLost (memCode a) a then none else some 0) s.mem a v }

/-- Read n bytes. -/
def State.getBytes (s : State) (a : Nat) : Nat → List Byte
  | 0 => []
  | n + 1 => s.getByte a :: s.getBytes (a + 1) n

/-- Write bytes. -/
def State.putBytes (s : State) (a : Nat) : List Byte → State
  | [] => s
  | b :: t => (s.putByte a b).putBytes (a + 1) t

/-- Zero a memory, with correct check bits, clearing stored poison (R140); a code of no memory names nothing. -/
def State.zeroMem (s : State) (code : Nat) : State :=
  if 0x65 < code then s else
  let (b, n) := memRange code
  { s with
    mem := s.mem.filter fun p => p.1 < b || b + n ≤ p.1
    ecc := tdrop s.ecc b n
    unknown := s.unknown.filter (· != code)
    lostPages := s.lostPages.filter fun p => !(decide (b ≤ 0x12000000 + 0x10000 * p) && decide (0x12000000 + 0x10000 * p < b + n)) }

/-- A Windchest page is taken for bin memory: what it holds is the part's own (R459). -/
def State.takePage (s : State) (p : Nat) : State :=
  let b := 0x12000000 + 0x10000 * p
  { s with
    mem := s.mem.filter fun c => c.1 < b || b + 0x10000 ≤ c.1
    ecc := tdrop s.ecc b 0x10000
    lostPages := if s.lostPages.contains p then s.lostPages else p :: s.lostPages }

/-- A memory loses its content (R141, R506). -/
def State.forgetMem (s : State) (code : Nat) : State :=
  let s1 := s.zeroMem code
  { s1 with unknown := s1.unknown ++ [code] }

end Sys2Proof.Machine
end

