-- ==== Sys2Proof/Machine/ReedOut.lean ====
section
/-! DEFINITION. The Reed instances and their buffers; publication as INVALID (R226); entry of a unit to DRAINING
(R718, R720), which every block can cause. -/

namespace Sys2Proof.Machine

/-! ### Instances and buffers -/

/-- One Reed instance. -/
def State.reedI (s : State) (i : Nat) : ReedInst := s.reed.getD i {}

/-- Put one Reed instance. -/
def State.setReed (s : State) (i : Nat) (v : ReedInst) : State := { s with reed := s.reed.set i v }

/-- First address of an engine's weight SRAM (R210). -/
def reedBase (i : Nat) : Nat := 0x5000000 + 0x80000 * (i / 12)

/-- Memory code of an instance's SRAM. -/
def reedMem (i : Nat) : Nat := 0x60 + i / 12

/-- The active buffer is B. -/
def State.reedActB (s : State) (i : Nat) : Bool := s.on (R.REED_INST_STAT_ACTIVE_BUF i)

def State.reedActive (s : State) (i : Nat) : ReedBuf := if s.reedActB i then (s.reedI i).bufB else (s.reedI i).bufA
def State.reedStandby (s : State) (i : Nat) : ReedBuf := if s.reedActB i then (s.reedI i).bufA else (s.reedI i).bufB

/-- Put the standby buffer. -/
def State.setStandby (s : State) (i : Nat) (b : ReedBuf) : State :=
  s.setReed i (if s.reedActB i then { s.reedI i with bufA := b } else { s.reedI i with bufB := b })

/-- Offset that REED_BUF_A or B gives the standby buffer. -/
def State.standbyOfs (s : State) (i : Nat) : Nat :=
  (if s.reedActB i then s.rd (R.REED_BUF_A_OFFSET i) else s.rd (R.REED_BUF_B_OFFSET i)) / 64 * 64

/-- STATE of an instance: 0 OFF, 1 RUN, 2 FAULTED. -/
def State.reedState (s : State) (i : Nat) : Nat := s.rd (R.REED_INST_STAT_STATE i)

/-- The engine of an instance is ACTIVE (R226, R246). -/
def State.reedEngineOn (s : State) (i : Nat) : Bool := (s.unitSt (reedMem i)).state == 0

/-! ### Publication as INVALID -/

def pkgIn (l : List Byte) : Nat := pb l 6 1
def pkgOut (l : List Byte) : Nat := pb l 7 1
def pkgLayers (l : List Byte) : Nat := pb l 8 1
def pkgAct16 (l : List Byte) : Bool := bit (pb l 9 1) 0
def pkgLen (l : List Byte) : Nat := pb l 12 4
def inOfs (i : Nat) : Nat := 64 + 16 * i
def outOfs (l : List Byte) (o : Nat) : Nat := 64 + 16 * pkgIn l + 32 * o
/-- The outputs of an instance are published as INVALID: FALLBACK, or the last angle (R226). -/
def State.reedInvalid (s : State) (i : Nat) : State :=
  let x := s.reedI i
  let b := s.reedActive i
  let l := if b.st = 2 then s.getBytes (reedBase i + b.ofs) (min b.len 1024) else []
  let one (o : Nat) (y : ReedOut) : ReedOut :=
    if o < pkgOut l ∧ pb l (outOfs l o) 1 = 0 then { y with value := pb l (outOfs l o + 16) 4, flags := y.flags ||| 8 }
    else { y with flags := y.flags ||| 8 }
  s.setReed i { x with outs := x.outs.zipIdx.map fun p => one p.2 p.1 }

/-! ### Entry to DRAINING -/

/-- A unit enters DRAINING with a cause: 1 CMD, 2 UE, 3 LOSS; the instances of a Reed engine publish INVALID (R718,
R720, R226). -/
def State.drainEnter (s : State) (u cause : Nat) : State :=
  let s1 := s.setUnit u { s.unitSt u with state := 1, cause := cause, retryOver := false, drainAt := s.sysTime, drainCyc := s.now }
  if 0x60 ≤ u ∧ u < 0x64 then (List.range 12).foldl (fun s k => s.reedInvalid (12 * (u - 0x60) + k)) s1 else s1

end Sys2Proof.Machine
end

