-- ==== Sys2Proof/Machine/MemCore.lean ====
section
/-! DEFINITION. Access to the memories: the answers of unit gates, the fixed access rules and the firewalls, ECC with
stored poison (spec/04_address_space_memory.md, spec/20_safety.md R690 to R697, spec/21_unit_lifecycle.md R715 to
R719). -/

namespace Sys2Proof.Machine

/-! ### Logs and counters of the memory block (R114, R135, R136, R149) -/

/-- The first event goes into a log; VALID holds it until cleared (R149). -/
def State.logAccess (s : State) (lo hi ini cls write valid : Fld) (a : Nat) (w : Who) (isWrite : Bool) : State :=
  if s.on valid then s
  else s.wrAll [(lo, a % 2 ^ 32), (hi, bits a 32 16), (ini, w.ini), (cls, w.cls), (write, b2n isWrite), (valid, 1)]

/-- A refusal under R114; neither counted nor logged while SYSRST_N is low. -/
def State.mapError (s : State) (a : Nat) (w : Who) (isWrite : Bool) : State :=
  if s.sysrst then s
  else (s.count R.MEM_CNT2_MAP_CNT 1).logAccess R.MEM_MAP_ADDR_LO_ADDR R.MEM_MAP_ADDR_HI_ADDR_HI R.MEM_MAP_ADDR_HI_INITIATOR
    R.MEM_MAP_ADDR_HI_CLASS R.MEM_MAP_ADDR_HI_WRITE R.MEM_MAP_ADDR_HI_VALID a w isWrite

/-- Enter DRAINING by an uncorrectable error, where AUTO is set (R718). -/
def State.autoDrain (s : State) (code : Nat) : State :=
  match unitOfMem code with
  | none => s
  | some u =>
    if (s.unitSt u).state = 0 ∧ bit (s.rd (R.UL_AUTO_AUTO (u / 32))) (u % 32) ∧ s.isUnit u then s.drainEnter u 2 else s

/-- A single-bit error found on an access to the word at `wa` (R135). In the island SRAM errors go to
the safety island only (R134). -/
def State.eccCorrected (s : State) (code wa : Nat) (w : Who) (isWrite : Bool) : State :=
  if code = 0x65 then s
  else (s.count R.MEM_CNT1_CE_CNT 1).logAccess R.MEM_CE_ADDR_LO_ADDR R.MEM_CE_ADDR_HI_ADDR_HI R.MEM_CE_ADDR_HI_INITIATOR
    R.MEM_CE_ADDR_HI_CLASS R.MEM_CE_ADDR_HI_WRITE R.MEM_CE_ADDR_HI_VALID wa w isWrite

/-- An uncorrectable error found at `wa`: counted, logged, reported, rewritten as stored poison; AUTO
may drain the unit (R136, R718). -/
def State.eccFailed (s : State) (code wa : Nat) (w : Who) (isWrite : Bool) : State :=
  let s1 := { s with ecc := tset 0 s.ecc wa 3 }
  if code = 0x65 then s1.report 0x05 0
  else
    ((((s1.count R.MEM_CNT1_UE_CNT 1).logAccess R.MEM_UE_ADDR_LO_ADDR R.MEM_UE_ADDR_HI_ADDR_HI R.MEM_UE_ADDR_HI_INITIATOR
      R.MEM_UE_ADDR_HI_CLASS R.MEM_UE_ADDR_HI_WRITE R.MEM_UE_ADDR_HI_VALID wa w isWrite).report 0x0C 0)).autoDrain code

/-- One ECC word is read: whether it is poisoned (R135, R136). -/
def State.readWord (s : State) (code wa : Nat) (w : Who) : State × Bool :=
  match tget 0 s.ecc wa with
  | 0 => (s, false)
  | 1 =>
    let s1 := s.eccCorrected code wa w false
    (if s.on R.MEM_ECC_CTRL_WB_EN ∧ wa ∉ s.wb then { s1 with wb := s1.wb ++ [wa] } else s1, false)
  | 2 => (s.eccFailed code wa w false, true)
  | _ => (if code = 0x65 then s else s.count R.MEM_CNT2_POISON_CNT 1, true)

/-- Word addresses that a span of bytes touches. -/
def wordsOf (k a n : Nat) : List Nat :=
  if n = 0 then [] else (List.range ((a + n - 1) / k - a / k + 1)).map fun i => (a / k + i) * k

/-- The words of a read, in address order. -/
def State.readWords (s : State) (code : Nat) (w : Who) : List Nat → State × Bool
  | [] => (s, false)
  | wa :: t =>
    let r := s.readWord code wa w
    let q := r.1.readWords code w t
    (q.1, r.2 || q.2)

/-- Some byte of the span is unknown (R141). -/
def State.spanUnknown (s : State) (code a n : Nat) : Bool :=
  s.unknown.contains code && (List.range n).any fun i => (memGet s.mem (a + i)).isNone

/-- Read n bytes of a memory at a physical address: POISON, or the bytes (R135, R136, R141). -/
def State.readMem (s : State) (code a n : Nat) (w : Who) : State × Status × List Byte :=
  let r := s.readWords code w (wordsOf (eccWord code) a n)
  if r.2 then (r.1, .poison, [])
  else if s.spanUnknown code a n && Config.unknownPoison s.freeCtr then (r.1.drawn, .poison, [])
  else (r.1, .ok, s.getBytes a n)

/-- The reservations of other writes to a granule are cleared (R133). -/
def State.clearResv (s : State) (a : Nat) : State :=
  { s with resv := s.resv.map fun g => if g = a / 64 + 1 then 0 else g }

/-- The kind of error an armed injection stores with a whole-word write (R139), and the state with ARM
cleared. -/
def State.inject (s : State) (wa : Nat) : State × Nat :=
  if s.on R.MEM_INJ_CTRL_ARM ∧ s.rd R.MEM_INJ_ADDR_LO_ADDR * 8 + s.rd R.MEM_INJ_CTRL_ADDR_HI * 2 ^ 32 = wa then
    (s.wr R.MEM_INJ_CTRL_ARM 0, if s.rd R.MEM_INJ_CTRL_MODE = 1 then 1 else if s.rd R.MEM_INJ_CTRL_MODE = 2 then 2 else 0)
  else (s, 0)

/-- Write the bytes of a span that fall in one ECC word: whole, or by read and merge; whether the word
stayed poisoned (R137, R139). `fires` says that the write is a requester's and may fire an injection. -/
def State.writeWord (s : State) (code wa a : Nat) (data : List Byte) (w : Who) (fires : Bool) : State × Bool :=
  let k := eccWord code
  let lo := max a wa
  let hi := min (a + data.length) (wa + k)
  let part := (data.drop (lo - a)).take (hi - lo)
  if lo = wa ∧ hi = wa + k then
    let (s1, e) := if fires && code != 0x65 then s.inject wa else (s, 0)
    ({ (s1.putBytes lo part) with ecc := tset 0 s1.ecc wa e, wb := s1.wb.filter (· != wa) }, false)
  else
    match tget 0 s.ecc wa with
    | 0 => (s.putBytes lo part, false)
    | 1 =>
      let s1 := s.eccCorrected code wa w true
      ({ (s1.putBytes lo part) with ecc := tset 0 s1.ecc wa 0, wb := s1.wb.filter (· != wa) }, false)
    | 2 => (s.eccFailed code wa w true, true)
    | _ => (if code = 0x65 then s else s.count R.MEM_CNT2_POISON_CNT 1, true)

/-- The words of a write, in address order. -/
def State.writeWords (s : State) (code a : Nat) (data : List Byte) (w : Who) (fires : Bool) : List Nat → State × Bool
  | [] => (s, false)
  | wa :: t =>
    let r := s.writeWord code wa a data w fires
    let q := r.1.writeWords code a data w fires t
    (q.1, r.2 || q.2)

/-- Write bytes to a memory at a physical address (R137): reservations fall, and a unit that was
zeroed no longer counts as zeroed (R133, R728). -/
def State.writeMem (s : State) (code a : Nat) (data : List Byte) (w : Who) : State × Status :=
  let r := s.writeWords code a data w true (wordsOf (eccWord code) a data.length)
  let s1 := r.1.clearResv a
  let s2 := match unitOfMem code with
    | some u => if (s1.unitSt u).zeroed then s1.setUnit u { s1.unitSt u with dirty := true } else s1
    | none => s1
  (s2, if r.2 then .poison else .ok)

/-- Write stored poison over each whole word of a span, as a copy of poisoned words does (R125, R136). -/
def State.poisonMem (s : State) (code a n : Nat) : State :=
  { s with ecc := (wordsOf (eccWord code) a n).foldl (fun e wa => tset 0 e wa 3) s.ecc }

/-! ### Gates, fixed rules, firewalls -/

/-- The answer of a unit's gate to a new request that carries an epoch (R716, R719); power and fuse
refusals stand before it (R6, R505), as do zeroing and SYSRST_N (R140, R826). -/
def State.gate (s : State) (code epoch : Nat) : State × Status :=
  if (code < 0x40 ∧ ¬ s.tileOn code) ∨ s.zeroing = code + 1 ∨ (s.sysrst ∧ code ≠ 0x65) then (s, .nackAbsent)
  else
    match unitOfMem code with
    | none => (s, .ok)
    | some u =>
      let us := s.unitSt u
      if ¬ us.powered then (s, .nackAbsent)
      else match us.state with
        | 0 => if us.epoch = epoch % 256 then (s, .ok) else (s.count R.UL_CNT1_STALE_REQ 1, .epochStale)
        | 1 => (s, if us.retryOver then .nackAbsent else .retry)
        | 2 => (s, .nackAbsent)
        | _ => (s, .retry)

/-- Initiators of this part's own safety island (R116, R661, R688). -/
def islandIni (w : Who) : Bool := ((w.ini : Nat) == 0x24 || (w.ini : Nat) == 0x27) && !w.remote

/-- A request has reached a memory span that a sealed or sealing Reed buffer covers (R212). -/
def State.reedSealed (s : State) (code a n : Nat) : Bool :=
  (0x60 ≤ code && code < 0x64) &&
    ((List.range 12).any fun k =>
      let r := s.reed.getD (12 * (code - 0x60) + k) {}
      [r.bufA, r.bufB].any fun b =>
        (b.st == 1 || b.st == 2) &&
          (decide (a < (memRange code).1 + b.ofs + b.len) && decide ((memRange code).1 + b.ofs < a + n)))

/-- The members that the record of a slot names as a resolver (R285); none for another role. -/
def State.chnMembers (s : State) (x : Nat) : List (Nat × Nat) :=
  let l := s.getBytes (0x4000000 + 0x200 * x) 512
  if rcRole l = 2 then rcMembers l else []

/-- The fixed rules on writes to memories: R116, R212, R259, R286. -/
def State.memRuleRefuses (s : State) (code a n : Nat) (w : Who) : Bool :=
  if code = 0x65 then !(islandIni w)
  else if code = 0x64 then
    let o := a - 0x4000000
    let x := o / 0x200
    o < 0x10000 &&
      (s.rd (R.CHN_SLOT_STAT_STATE x) != 0 ||
        (decide (288 < o % 0x200 + n) && (List.range 128).any fun y =>
          s.rd (R.CHN_SLOT_STAT_STATE y) == 1 && (s.chnMembers y).any fun m => m.2 == x))
  else s.reedSealed code a n

/-- One region allows a request (R694). -/
def FwRegion.allows (r : FwRegion) (a n : Nat) (w : Who) (write : Bool) : Bool :=
  r.en && decide (r.base ≤ a) && decide (a + n - 1 ≤ r.limit + 63) && bit r.init w.ini &&
    bit (if write then r.wrClass else r.rdClass) w.cls && (!w.remote || r.remoteOk)

/-- The firewall of a target allows a request (R694). -/
def State.fwAllows (s : State) (target a n : Nat) (w : Who) (write : Bool) : Bool :=
  !s.fwArmed.contains target ||
    (s.fw.any fun p => 64 * target ≤ p.1 && p.1 < 64 * target + 64 && p.2.allows a n w write)

/-- A refusal by a firewall or fixed rule (R696). -/
def State.fwRefuse (s : State) (target a : Nat) (w : Who) (write : Bool) : State :=
  let s1 := s.count R.FW_CNT_COUNT 1
  let s2 := if s1.on R.FW_LOG_HI_VALID then s1
    else s1.wrAll [(R.FW_LOG_LO_ADDR, a % 2 ^ 32), (R.FW_LOG_HI_ADDR, bits a 32 16), (R.FW_LOG_HI_INIT, w.ini),
      (R.FW_LOG_HI_CLASS, w.cls), (R.FW_LOG_HI_WRITE, b2n write), (R.FW_LOG_HI_REMOTE, b2n w.remote),
      (R.FW_LOG_HI_TARGET, target % 32), (R.FW_CNT_TARGET_HI, target / 32), (R.FW_LOG_HI_VALID, 1)]
  if s2.on R.SF_CTRL_FW_IRQ_EN then { s2 with islandIrq := s2.islandIrq ++ [0x80] } else s2

/-- The size rule of R115 for memories. -/
def sizeOk (a n : Nat) : Bool := decide (1 ≤ n) && decide (n ≤ 64) && a / 64 == (a + n - 1) / 64

/-- A memory request of n bytes at a local address passes map, gate, fixed rules and firewall (R112 to
R116, R694, R716, R719): the status it meets, and the code and physical address it reaches. -/
def State.memAdmit (s : State) (w : Who) (epoch a n : Nat) (write : Bool) : State × Status × Nat × Nat :=
  match placeOf a with
  | .memory code p =>
    if !sizeOk a n then (s.mapError a w write, .nackAbsent, code, p)
    else if code = 0x64 && write && 0x12000 ≤ p - 0x4000000 && p - 0x4000000 < 0x20000 then (s, .nackAbsent, code, p)
    else if s.sysrst && code != 0x65 then (s, .nackAbsent, code, p)
    else
      let g := s.gate code epoch
      if g.2 ≠ .ok then (g.1, g.2, code, p)
      else if write && s.memRuleRefuses code p n w then (s.fwRefuse (fwTarget code) a w write, .firewall, code, p)
      else if code = 0x65 && write then (s, .ok, code, p)
      else if s.fwAllows (fwTarget code) a n w write then (s, .ok, code, p)
      else (s.fwRefuse (fwTarget code) a w write, .firewall, code, p)
  | _ => (s.mapError a w write, .nackAbsent, 0x66, 0)

/-- A read request reaches a memory. -/
def State.localRead (s : State) (w : Who) (epoch a n : Nat) : State × Status × List Byte :=
  let r := s.memAdmit w epoch a n false
  if r.2.1 ≠ .ok then (r.1, r.2.1, [])
  else if r.2.2.1 = 0x64 ∧ 0x12000 ≤ r.2.2.2 - 0x4000000 ∧ r.2.2.2 - 0x4000000 < 0x20000 then (r.1, .ok, List.replicate n 0)
  else r.1.readMem r.2.2.1 r.2.2.2 n w

/-- A write request reaches a memory. -/
def State.localWrite (s : State) (w : Who) (epoch a : Nat) (data : List Byte) : State × Status :=
  let r := s.memAdmit w epoch a data.length true
  if r.2.1 ≠ .ok then (r.1, r.2.1) else r.1.writeMem r.2.2.1 r.2.2.2 data w

/-- The epoch a request to a local address carries when it is issued on this chip (R715). -/
def State.stamp (s : State) (a : Nat) : Nat :=
  match placeOf a with
  | .memory code _ => (match unitOfMem code with | some u => (s.unitSt u).epoch | none => 0)
  | _ => 0

end Sys2Proof.Machine
end

