-- ==== Sys2Proof/Machine/WwBase.lean ====
section
/-! DEFINITION. Windway ports, routes and messages on their way out (spec/17_windway.md R555 to R573). -/

namespace Sys2Proof.Machine

def State.port (s : State) (p : Nat) : PortSt := s.ports.getD p {}
def State.setPort (s : State) (p : Nat) (v : PortSt) : State := { s with ports := s.ports.set p v }
def State.portMod (s : State) (p : Nat) (f : PortSt → PortSt) : State := s.setPort p (f (s.port p))

/-- STATE of a port: 0 DOWN, 1 TRAIN, 2 MGMT, 3 UP (R555). -/
def portStateF (p : Nat) : Fld := if p < 8 then R.WL_STAT_STATE p else R.WT_STAT_STATE (p - 8)
def portFailedF (p : Nat) : Fld := if p < 8 then R.WL_STAT_FAILED p else R.WT_STAT_FAILED (p - 8)
def portJoinF (p : Nat) : Fld := if p < 8 then R.WL_STAT_JOIN_RES p else R.WT_STAT_JOIN_RES (p - 8)
def portPeerF (p : Nat) : Fld := if p < 8 then R.WL_STAT_PEER p else R.WT_STAT_PEER (p - 8)
def portLossF (p : Nat) : Fld := if p < 8 then R.WL_CNT1_LOSSES p else R.WT_CNT_LOSSES (p - 8)
def State.portState (s : State) (p : Nat) : Nat := s.rd (portStateF p)

/-- The code by which R712 names a port. -/
def portUnit (p : Nat) : Nat := if p < 8 then 0x68 + p else 0x70 + (p - 8)

/-- A port is usable: UP, ACTIVE and FAILED clear (R564). -/
def State.portUsable (s : State) (p : Nat) : Bool :=
  p < 12 && s.portState p == 3 && (s.unitSt (portUnit p)).state == 0 && !s.on (portFailedF p)

/-- Frame time of a port in control cycles (R556). -/
def State.frameTime (s : State) (p : Nat) : Nat :=
  if p < 8 then
    26 * (if s.on (R.WL_STAT_GEN p) then 1 else 2) * (match s.rd (R.WL_STAT_WIDTH p) with | 2 => 1 | 1 => 2 | _ => 4)
  else 400 * s.rd (R.WT_TIME_TK (p - 8))

/-- The route entry of a chip: PRI and ALT (R563). -/
def State.routeOf (s : State) (chip : Nat) : Nat × Nat :=
  let e := bits (s.rd (R.ROUTE_ENTRIES (chip / 4))) (8 * (chip % 4)) 8
  (bits e 0 4, bits e 4 4)

/-- The port by which a message for a chip leaves (R564, R566): under ADAPT a flow with a request outstanding
keeps its path, and else takes the usable port with more free VC0 credits. -/
def State.routePort (s : State) (chip ini : Nat) : Option Nat :=
  let (pri, alt) := s.routeOf chip
  if s.on R.WW_CTRL_ADAPT && !s.on R.GLOBAL_MODE_REPRO then
    match s.outst.find? fun o => o.ini == ini && bits o.addr 48 15 == chip with
    | some o => if s.portUsable o.port then some o.port else none
    | none =>
      if s.portUsable pri then
        if s.portUsable alt ∧ (s.port pri).cred.getD 0 0 < (s.port alt).cred.getD 0 0 then some alt else some pri
      else if s.portUsable alt then some alt else none
  else if s.portUsable pri then some pri
  else if s.portUsable alt then some alt
  else none

/-- The virtual channel of a message type (R562): VC0 requests, VC1 replies, VC2 control. -/
def msgVc (t : Nat) : Nat := if t = 1 ∨ t = 2 ∨ t = 5 then 0 else if t = 3 ∨ t = 4 ∨ t = 6 then 1 else 2

/-- Data flits of a message (R562). -/
def msgDlen (m : WwMsg) : Nat :=
  match m.mtype with
  | 1 => (m.size + 16) / 16
  | 3 => if m.status = 0 ∨ m.status = 3 then (m.size + 16) / 16 else 0
  | 5 => 1
  | 7 => 1
  | 8 => (m.data.length + 15) / 16
  | 9 => (m.data.length + 15) / 16
  | _ => 0

/-- Flits of a message. -/
def msgFlits (m : WwMsg) : Nat := 1 + msgDlen m

/-- A message waits to be sent on a port. -/
def State.wwPut (s : State) (p : Nat) (m : WwMsg) : State := s.portMod p fun x => { x with txq := x.txq ++ [m] }

/-- A port carries a message: UP, or MGMT for MGMT messages, and ACTIVE (R555). -/
def State.portCarries (s : State) (p : Nat) (m : WwMsg) : Bool :=
  decide ((if m.mtype = 8 then 2 else 3) ≤ s.portState p) && (s.unitSt (portUnit p)).state == 0

/-- A broadcast leaves by every port of BC_FWD of the port it came by (12 where it starts here) that carries it
(R567). -/
def State.wwBcast (s : State) (from_ : Nat) (m : WwMsg) : State :=
  (List.range 12).foldl (fun (s : State) p =>
    if bit (s.rd (R.BC_FWD_MASK from_)) p && p != from_ && s.portCarries p m then s.wwPut p m else s) s

/-- A message of this chip to another, by its route; whether it left. -/
def State.wwSend (s : State) (m : WwMsg) : State × Bool :=
  match s.routePort m.dst m.init with
  | some p => (s.wwPut p { m with src := s.chip, hops := s.rd R.WW_CTRL_HOP_MAX }, true)
  | none => (s, false)

/-- The worse of two statuses, in the order of R523 (R562). -/
def statusNat : Status → Nat
  | .ok => 0 | .retry => 1 | .nackAbsent => 2 | .poison => 3 | .timeout => 4 | .firewall => 5
  | .epochStale => 6 | .extrapolated => 7 | .dropped => 8

/-- The status of a code of R523; codes never produced count as DROPPED. -/
def statusOf (n : Nat) : Status :=
  match n with
  | 0 => .ok | 1 => .retry | 2 => .nackAbsent | 3 => .poison | 4 => .timeout | 5 => .firewall
  | 6 => .epochStale | 7 => .extrapolated | _ => .dropped

/-- A free tag, if any (R571: 2,048 per chip, and none that ended without a reply within REQ_TMO). -/
def State.freeTag (s : State) : Option Nat :=
  ((List.range 2048).map fun i => (s.nextTag + i) % 2048).find? fun t =>
    !(s.outst.any fun o => o.tag == t) && !(s.tokOut.any fun o => o.tag == t) &&
      !(s.tagHold.any fun h => h.1 == t && decide (s.sysTime < h.2))

/-- A memory request leaves for another chip: the message is sent and its tag taken; none where no route is usable
(NACK_ABSENT, R112) or no tag is free (TIMEOUT, R571). `poison` marks the words of a write as stored poison (R136). -/
def State.remoteSend (s : State) (w : Who) (unit ga : Nat) (write : Bool) (n : Nat) (data : List Byte) (poison : Bool := false) :
    State × Except Status Outstanding :=
  let chip := bits ga 48 15
  match s.routePort chip w.ini, s.freeTag with
  | none, _ => (s, .error .nackAbsent)
  | some _, none => (s, .error .timeout)
  | some p, some t =>
    let m : WwMsg :=
      { mtype := if write then 1 else 2, cls := w.cls, init := w.ini, src := s.chip, dst := chip, hops := s.rd R.WW_CTRL_HOP_MAX,
        tag := t, host := bit ga 63, status := if poison then 3 else 0, size := n - 1, addr := bits ga 0 48, data := data }
    ({ s.wwPut p m with nextTag := (t + 1) % 2048 }, .ok ⟨t, w.ini, unit, write, ga, n, p, s.sysTime, false⟩)

/-! ### Token posts of the coprocessor port (R132, R238) -/

/-- Writes of a core whose acknowledgment has not reached it. -/
def State.coreWrites (s : State) (core : Nat) : Bool :=
  (s.acks.any fun a => a.1 == 0x20 + core) || (s.outst.any fun o => o.write && o.ini == 0x20 + core)

/-- QSTAT of a core (R239). -/
def State.setQstat (s : State) (core v : Nat) : State := { s with qstat := s.qstat.set core v }

/-- Who posted a message: 0 no context, k + 1 context k, 0x8000 + c core c. -/
def postCore (src : Nat) : Bool := 0x8000 ≤ src

/-- A core's TOK.POST sends its message, after a zero-length read where the core's host writes have gone out (R131). -/
def State.tokPostSend (s : State) (core m : Nat) : State :=
  let s1 := if s.hostOut.any fun h => h.1 == 0 then { s with zlr := s.zlr ++ [(0, m, 0x8000 + core)] } else s.sendFrom m (0x8000 + core)
  let s2 := s1.setQstat core 0
  { s2 with tokWait := s2.tokWait.set core none }

/-- Posts that waited for the last acknowledgment of their core are sent (R132). -/
def State.tokFlush (s : State) : State :=
  (List.range 4).foldl (fun (s : State) k =>
    match s.tokWait.getD k none with
    | some (m, _) => if s.coreWrites k then s else s.tokPostSend k m
    | none => s) s

end Sys2Proof.Machine
end

