-- ==== Sys2Proof/Machine/MemBus.lean ====
section
/-! DEFINITION. Requests by global address to memories: on this chip, to host memory, over Windway
(spec/04_address_space_memory.md R109 to R115, spec/16_host_rings.md R523, spec/17_windway.md R570, R571). -/

namespace Sys2Proof.Machine

def gaHost (ga : Nat) : Bool := bit ga 63
def gaChip (ga : Nat) : Nat := bits ga 48 15
def gaLocal (ga : Nat) : Nat := bits ga 0 48

/-- A global address with its local part moved (R123): HOST and CHIP unchanged. -/
def gaAdd (ga : Nat) (d : Int) : Nat := ux 48 ((gaLocal ga : Int) + d) + bits ga 48 16 * 2 ^ 48

/-- A global address on this chip. -/
def State.gaHere (s : State) (ga : Nat) : Bool := gaChip ga == s.chip

/-- The PCIe function of a HOST = 1 request: the client's own, client 0's for other initiators (R111, R691). -/
def hostFn (w : Who) : Nat := if (w.ini : Nat) < 32 ∧ w.remote = false then w.ini else 0

/-- A host request passes the size rule, the egress firewall and the link (R112, R115, R519, R693). -/
def State.hostAdmit (s : State) (w : Who) (a n : Nat) (write : Bool) : State × Status :=
  if !sizeOk a n then (s.mapError a w write, .nackAbsent)
  else if !s.fwAllows 0x4C a n w write then (s.fwRefuse 0x4C a w write, .firewall)
  else if !s.pcieUp ∨ s.d3hot.contains (hostFn w) then (s, .nackAbsent)
  else (s, .ok)

/-- The outcome of a request that the host answers: a PCIe status (R523); none within the Completion Timeout range is
TIMEOUT. -/
def hostStatus : Status → Status
  | .ok => .ok
  | .nackAbsent => .nackAbsent
  | .poison => .poison
  | _ => .timeout

/-- The next answer of a party outside, if the command carries one. -/
def State.reply (s : State) : State × Option Reply :=
  match s.replies with
  | r :: t => ({ s with replies := t }, some r)
  | [] => (s, none)

/-- Exactly n bytes. -/
def fitBytes (n : Nat) (l : List Byte) : List Byte := (l ++ List.replicate n 0).take n

/-- A read of host memory. -/
def State.hostRead (s : State) (w : Who) (a n : Nat) : State × Status × List Byte :=
  let g := s.hostAdmit w a n false
  if g.2 ≠ .ok then (g.1, g.2, [])
  else match g.1.reply with
    | (s1, some r) => if hostStatus r.st = .ok then (s1, .ok, fitBytes n r.data) else (s1, hostStatus r.st, [])
    | (s1, none) => (s1, .timeout, [])

/-- A posted write to host memory: complete when sent (R128). -/
def State.hostWrite (s : State) (w : Who) (a : Nat) (data : List Byte) : State × Status :=
  let g := s.hostAdmit w a data.length true
  if g.2 ≠ .ok then g else ({ g.1 with hostOut := g.1.hostOut ++ [(hostFn w, a, data)] }, .ok)

/-- A request over Windway whose answer the command carries; without one the request ends with POISON (R571), and
its tag rests. -/
def State.remoteCall (s : State) (w : Who) (unit ga : Nat) (write : Bool) (n : Nat) (data : List Byte) (poison : Bool := false) :
    State × Status × List Byte :=
  match s.remoteSend w unit ga write n data poison with
  | (s1, .error st) => (s1, st, [])
  | (s1, .ok o) =>
    match s1.reply with
    | (s2, some r) => (s2, r.st, if r.st = .ok ∧ !write then fitBytes n r.data else [])
    | (s2, none) => ({ s2 with tagHold := (o.tag, s2.sysTime + 2000 * s.rd R.WW_TMO_REQ_TMO) :: s2.tagHold }, .poison, [])

/-- A read of memory by global address, of 1 to 64 bytes. -/
def State.gmRead (s : State) (w : Who) (ga n : Nat) : State × Status × List Byte :=
  if !s.gaHere ga then s.remoteCall w 0xFF ga false n []
  else if gaHost ga then s.hostRead w (gaLocal ga) n
  else s.localRead w (s.stamp (gaLocal ga)) (gaLocal ga) n

/-- A write of memory by global address, of 1 to 64 bytes. -/
def State.gmWrite (s : State) (w : Who) (ga : Nat) (data : List Byte) : State × Status :=
  if !s.gaHere ga then
    let r := s.remoteCall w 0xFF ga true data.length data
    (r.1, r.2.1)
  else if gaHost ga then s.hostWrite w (gaLocal ga) data
  else s.localWrite w (s.stamp (gaLocal ga)) (gaLocal ga) data

/-- A span of memory cut into pieces that lie within one 64-byte line each: offset from the start, length. -/
def lineCuts (a n : Nat) : List (Nat × Nat) :=
  if n = 0 then []
  else (List.range ((a + n - 1) / 64 - a / 64 + 1)).map fun i =>
    let lo := max a ((a / 64 + i) * 64)
    let hi := min (a + n) ((a / 64 + i) * 64 + 64)
    (lo - a, hi - lo)

/-- A longer read, piece by piece, stopping at the first that fails. -/
def State.gmReadCuts (s : State) (w : Who) (ga : Nat) (cuts : List (Nat × Nat)) : State × Status × List Byte :=
  cuts.foldl (fun (a : State × Status × List Byte) c =>
    if a.2.1 ≠ .ok then a
    else match a.1.gmRead w (gaAdd ga c.1) c.2 with
      | (s1, st, l) => (s1, st, if st = .ok then a.2.2 ++ l else [])) (s, .ok, [])

/-- A read of any length. -/
def State.gmReads (s : State) (w : Who) (ga n : Nat) : State × Status × List Byte := s.gmReadCuts w ga (lineCuts (gaLocal ga) n)

/-- A longer write, piece by piece, stopping at the first that fails. -/
def State.gmWriteCuts (s : State) (w : Who) (ga : Nat) (data : List Byte) : List (Nat × Nat) → State × Status
  | [] => (s, .ok)
  | (o, n) :: t =>
    let r := s.gmWrite w (gaAdd ga o) ((data.drop o).take n)
    if r.2 ≠ .ok then r else r.1.gmWriteCuts w ga data t

/-- A write of any length. -/
def State.gmWrites (s : State) (w : Who) (ga : Nat) (data : List Byte) : State × Status :=
  s.gmWriteCuts w ga data (lineCuts (gaLocal ga) data.length)

end Sys2Proof.Machine
end

