-- ==== Sys2Proof/Machine/DroneCore.lean ====
section
/-! DEFINITION. The Drones: the accumulator, the tracking loop, the states, the event slots and the
latch bank (spec/02_drones_external_time.md). -/

namespace Sys2Proof.Machine

/-- One Drone. -/
def State.drone (s : State) (d : Nat) : Drone := s.drones.getD d {}

/-- Put one Drone. -/
def State.setDrone (s : State) (d : Nat) (v : Drone) : State := { s with drones := s.drones.set d v }

/-- The phase word A[63:32]. -/
def State.phase (s : State) (d : Nat) : Nat := bits (s.drone d).acc 32 32

/-- DRN_STAT STATE: 0 OFF, 1 ACQUIRE, 2 LOCKED, 3 HOLDOVER, 4 LOST. -/
def State.drnState (s : State) (d : Nat) : Nat := s.rd (R.DRN_STAT_STATE d)

/-- The phase quality of a state (R53): 0 INVALID, 1 HELD, 2 VALID. -/
def qualityOf (st : Nat) : Nat := if st = 2 then 2 else if st = 1 ∨ st = 3 then 1 else 0

/-- Phase quality of a Drone (R53). -/
def State.drnQual (s : State) (d : Nat) : Nat := s.rd (R.DRN_STAT_QUALITY d)

/-- The fields of EV_TARGET, or of DRN_NOTIFY for slot 16 (R787), as one word. -/
def State.evTarget (s : State) (d e : Nat) : Nat :=
  if e < 16 then
    s.rd (R.EV_TARGET_TYPE d e) + s.rd (R.EV_TARGET_UNIT d e) * 2 ^ 2 + s.rd (R.EV_TARGET_CONTEXT d e) * 2 ^ 10 +
      s.rd (R.EV_TARGET_COUNTER d e) * 2 ^ 14 + s.rd (R.EV_TARGET_POST d e) * 2 ^ 18 + s.rd (R.EV_TARGET_WRITE d e) * 2 ^ 19
  else
    s.rd (R.DRN_NOTIFY_TYPE d) + s.rd (R.DRN_NOTIFY_UNIT d) * 2 ^ 2 + s.rd (R.DRN_NOTIFY_CONTEXT d) * 2 ^ 10 +
      s.rd (R.DRN_NOTIFY_COUNTER d) * 2 ^ 14 + s.rd (R.DRN_NOTIFY_POST d) * 2 ^ 18 + s.rd (R.DRN_NOTIFY_WRITE d) * 2 ^ 19

/-- Schedule a target to act n control cycles from now (R59). -/
def State.fireAt (s : State) (n d e fine : Nat) (rcd : List Byte) : State :=
  { s with events := s.events ++ [⟨(s.now + n) % 2 ^ 48, d, e, s.evTarget d e, fine, rcd⟩] }

/-- A change of state writes DRN_STAT in its cycle and fires DRN_NOTIFY, which acts two cycles later
(R53, R54). -/
def State.drnTo (s : State) (d st : Nat) : State :=
  if s.drnState d = st then s else
    let s1 := (s.wr (R.DRN_STAT_STATE d) st).wr (R.DRN_STAT_QUALITY d) (qualityOf st)
    let s2 := if st = 4 then s1.wr (R.DRN_STAT_SOURCE_LOST d) 1 else s1
    let s3 := s2.setDrone d { s2.drone d with hold := 0, missRun := 0, outRun := 0, gotMeas := true }
    if s.on (R.DRN_CTRL_NOTIFY_EN d) && s.rd (R.DRN_NOTIFY_TYPE d) != 3 then s3.fireAt 2 d 16 0 [] else s3

/-- Clamp F to [F_MIN, F_MAX], in Q16.32 (R44). -/
def State.clampF (s : State) (d : Nat) (f : Int) : Int :=
  clampI (s.rdS (R.DRN_FMIN_F_MIN d) * 2 ^ 16) (s.rdS (R.DRN_FMAX_F_MAX d) * 2 ^ 16) f

/-- Load F: clamped, FSAT while the clamp holds, DIR its sign, REVERSALS at each change of DIR (R44,
R66). -/
def State.loadF (s : State) (d : Nat) (f : Int) : State :=
  let g := s.clampF d f
  let s1 := (s.wr (R.DRN_STAT_FSAT d) (b2n (g != f))).setDrone d { s.drone d with f := g }
  let dir := b2n (g < 0)
  if s1.rd (R.DRN_STAT_DIR d) = dir then s1
  else (s1.wr (R.DRN_STAT_DIR d) dir).countWrap (R.DRN_STAT_REVERSALS d) 1

/-- One kind fails the checks of R45. -/
def State.kindBad (s : State) (d kind : Nat) : Bool :=
  let p := s.rd (R.DRN_SCALE_LO_SCALE_LO d)
  8 ≤ kind || ((kind == 1 || kind == 6) && s.rd (R.DRN_EXP_N_EXP d) == 0) ||
    (kind == 1 && s.rd (R.DRN_MOD_MOD d) == 0) || (kind == 6 && (p < 1000 || 4000000000 < p)) ||
    (kind == 2 && (s.rd (R.DRN_SRC_BITS d) < 8 || 32 < s.rd (R.DRN_SRC_BITS d)))

/-- ENABLE or REACQ is refused (R45). -/
def State.drnBad (s : State) (d : Nat) : Bool :=
  s.kindBad d (s.rd (R.DRN_SRC_KIND d)) ||
    (s.on (R.DRN_CTRL_ALT_EN d) && s.kindBad d (s.rd (R.DRN_SRC_ALT_KIND d)))

/-- The part takes N_EXP, MISS_MAX, MOD, SCALE and BITS, and starts on the primary (R45, R49). -/
def State.drnTake (s : State) (d : Nat) : State :=
  let s1 := s.wr (R.DRN_STAT_ALT_ACTIVE d) 0
  s1.setDrone d
    { s1.drone d with
      nExp := s.rd (R.DRN_EXP_N_EXP d), missMax := s.rd (R.DRN_EXP_MISS_MAX d), mod := s.rd (R.DRN_MOD_MOD d),
      scale := s.rd (R.DRN_SCALE_LO_SCALE_LO d) + s.rd (R.DRN_SCALE_HI_SCALE_HI d) * 2 ^ 32,
      bitsW := s.rd (R.DRN_SRC_BITS d), age := 0, capAge := 0, missAge := 0, first := true, lockRun := 0,
      outRun := 0, missRun := 0, gotMeas := true, ops := [] }

/-- ENABLE written 1 to a Drone that is OFF (R44, R45, R49). -/
def State.drnStart (s : State) (d : Nat) : State :=
  if s.drnBad d then (s.wr (R.DRN_CTRL_ENABLE d) 0).wr (R.DRN_STAT_CFG_REJ d) 1 else
    let s1 := s.drnTake d
    let s2 := s1.loadF d (sx 48 (s.rd (R.DRN_FINIT_LO_FINIT_LO d) + s.rd (R.DRN_FINIT_HI_FINIT_HI d) * 2 ^ 32))
    s2.drnTo d (if s.rd (R.DRN_SRC_KIND d) = 0 then 2 else 1)

/-- ENABLE written 0 (R49): phase word, cycle count and F hold. -/
def State.drnStop (s : State) (d : Nat) : State :=
  (s.setDrone d { s.drone d with ops := [] }).drnTo d 0

/-- REACQ written 1 (R45, R49): from LOCKED, HOLDOVER and LOST; F is kept; measurements not yet taken
are discarded. -/
def State.drnReacq (s : State) (d : Nat) : State :=
  if s.drnState d < 2 then s
  else if s.drnBad d then s.wr (R.DRN_STAT_CFG_REJ d) 1
  else (s.drnTake d).drnTo d 1

/-- Every slot is re-armed under R62 (R67). -/
def rearmAll (l : List EvSlot) : List EvSlot := l.map fun e => { e with unarmed := [] }

/-- PRESET_GO (R67). -/
def State.drnPreset (s : State) (d : Nat) : State :=
  s.setDrone d
    { s.drone d with
      acc := s.rd (R.DRN_PRESET_PH_PRESET_PH d) * 2 ^ 32, cyc := s.rd (R.DRN_PRESET_CC_PRESET_CC d),
      ops := [], preset := true, slots := rearmAll (s.drone d).slots }

/-- CNT_CLR (R824). -/
def State.drnCntClr (s : State) (d : Nat) : State :=
  s.wrAll [(R.DRN_CNT1_OUTLIERS d, 0), (R.DRN_CNT1_LATE d, 0), (R.DRN_CNT2_MISSED d, 0),
    (R.DRN_CNT2_SUPPRESSED d, 0), (R.DRN_CNT3_LOST_MEAS d, 0)]

/-- A write of DRN_CTRL: CNT_CLR, then the change of ENABLE, then REACQ, then PRESET_GO (R824). -/
def State.writeDrnCtrl (s : State) (d w : Nat) (openRwl : Bool) : State :=
  let was := s.on (R.DRN_CTRL_ENABLE d)
  let s0 := ((s.wr (R.DRN_CTRL_ENABLE d) (bits w 0 1)).wr (R.DRN_CTRL_NOTIFY_EN d) (bits w 4 1)).wr (R.DRN_CTRL_LOCK_CNT d) (bits w 8 8)
  let s1 := if openRwl then s0.wr (R.DRN_CTRL_ALT_EN d) (bits w 3 1) else s0
  let s2 := if bit w 5 then s1.drnCntClr d else s1
  let s3 := if bit w 0 && !was then s2.drnStart d else if !bit w 0 && was then s2.drnStop d else s2
  let s4 := if bit w 1 then s3.drnReacq d else s3
  if bit w 2 then s4.drnPreset d else s4

/-- A write of DRN_STAT: the W1C bits; ALT_ACTIVE written 1 returns to the primary (R56). -/
def State.writeDrnStat (s : State) (d w : Nat) : State :=
  let clr (s : State) (b : Nat) (f : Fld) : State := if bit w b then s.wr f 0 else s
  clr (clr (clr (clr (clr s 6 (R.DRN_STAT_ALT_ACTIVE d)) 8 (R.DRN_STAT_SOURCE_LOST d)) 9 (R.DRN_STAT_LOVF d))
    10 (R.DRN_STAT_CFG_REJ d)) 11 (R.DRN_STAT_LWERR d)

/-- A write of EV_PHASE re-arms every phase of the slot (R69). -/
def State.writeEvPhase (s : State) (d e w : Nat) : State :=
  let s1 := s.wr (R.EV_PHASE_PHASE d e) w
  s1.setDrone d { s1.drone d with slots := modAt (s1.drone d).slots e fun x => { x with unarmed := [] } }

/-- A write of EV_CTRL sets the mode and re-arms; MODE 1 arms a ONCE slot (R60, R69). -/
def State.writeEvCtrl (s : State) (d e w : Nat) : State :=
  let s1 := s.wrAll [(R.EV_CTRL_MODE d e, bits w 0 2), (R.EV_CTRL_DIR d e, bits w 2 2), (R.EV_CTRL_QUAL d e, bits w 4 1),
    (R.EV_CTRL_CQ d e, bits w 5 1), (R.EV_CTRL_N d e, bits w 16 16)]
  let s2 := if bit w 6 then s1.wr (R.EV_CTRL_FIRED d e) 0 else s1
  s2.setDrone d
    { s2.drone d with
      slots := modAt (s2.drone d).slots e fun x =>
        { disarmed := if bits w 0 2 = 1 then false else x.disarmed, unarmed := [] } }

/-! ### The tracking loop -/

/-- A HOLDOVER condition of a LOCKED Drone: the alternate is checked first (R55). -/
def State.holdCond (s : State) (d : Nat) : State :=
  let dr := s.drone d
  let n := if dr.nExp = 0 then 4095 else dr.nExp
  let fresh : Bool := match dr.altAge with | some a => decide (a ≤ n) | none => false
  if s.on (R.DRN_CTRL_ALT_EN d) && !s.on (R.DRN_STAT_ALT_ACTIVE d) && fresh then
    (s.wr (R.DRN_STAT_ALT_ACTIVE d) 1).setDrone d { dr with outRun := 0, missRun := 0, gotMeas := true }
  else s.drnTo d 3

/-- The corrections dA and dF of R47 for an error e with gains k_p, k_i and shifts s_p, s_i. -/
def loopCorr (e : Int) (kp ki sp si slew : Nat) : DrnOp :=
  let m : Int := ((min slew 0x8000 : Nat) : Int) * 2 ^ 32
  .corr (clampI (-m) m (asr (e * (kp : Int) * 2 ^ 16) sp)) (asr (e * (ki : Int) * 2 ^ 16) si)

/-- The corrections under the acquisition gains or the lock gains. -/
def State.drnCorr (s : State) (d : Nat) (acq : Bool) (e : Int) : DrnOp :=
  if acq then
    loopCorr e (s.rd (R.DRN_GAIN_A_KP d)) (s.rd (R.DRN_GAIN_A_KI d)) (s.rd (R.DRN_SHIFT_SP_A d)) (s.rd (R.DRN_SHIFT_SI_A d))
      (s.rd (R.DRN_SLEW_SLEW_MAX d))
  else
    loopCorr e (s.rd (R.DRN_GAIN_L_KP d)) (s.rd (R.DRN_GAIN_L_KI d)) (s.rd (R.DRN_SHIFT_SP_L d)) (s.rd (R.DRN_SHIFT_SI_L d))
      (s.rd (R.DRN_SLEW_SLEW_MAX d))

/-- Leave a correction or jump for the next control cycle. -/
def State.drnOp (s : State) (d : Nat) (o : DrnOp) : State :=
  s.setDrone d { s.drone d with ops := (s.drone d).ops ++ [o] }

/-- A measurement in ACQUIRE (R49, R50): the first sets the phase; |e| ≤ LOCK_THR for LOCK_CNT in a
row locks. -/
def State.measAcquire (s : State) (d theta : Nat) (e : Int) : State :=
  let dr := s.drone d
  let cnt := s.rd (R.DRN_CTRL_LOCK_CNT d)
  if dr.first then
    let s1 := (s.setDrone d { dr with first := false, lockRun := 0 }).drnOp d (.jump theta)
    if cnt = 0 then s1.drnTo d 2 else s1
  else
    let run := if e.natAbs ≤ s.rd (R.DRN_LOCK_THR_LOCK_THR d) then dr.lockRun + 1 else 0
    let s1 := (s.setDrone d { dr with lockRun := run }).drnOp d (s.drnCorr d true e)
    if cnt ≤ run then s1.drnTo d 2 else s1

/-- A measurement in LOCKED or HOLDOVER (R47, R49, R50). -/
def State.measTrack (s : State) (d : Nat) (e : Int) : State :=
  let dr := s.drone d
  let locked := s.drnState d = 2
  if s.rd (R.DRN_ERRMAX_ERR_MAX d) < e.natAbs then
    let s1 := s.count (R.DRN_CNT1_OUTLIERS d) 1
    if locked then
      let s2 := s1.setDrone d { dr with outRun := dr.outRun + 1 }
      if s.rd (R.DRN_OUTL_OUTLIER_MAX d) ≠ 0 ∧ s.rd (R.DRN_OUTL_OUTLIER_MAX d) ≤ dr.outRun + 1 then s2.holdCond d else s2
    else s1
  else
    let s1 := s.setDrone d { dr with outRun := 0 }
    (if locked then s1 else s1.drnTo d 2).drnOp d (s.drnCorr d false e)

/-- The age d of R46 of a capture time: cycles from it, less DELAY (R42). -/
def State.measAge (s : State) (d cap : Nat) : Nat := s.since cap + s.rd (R.DRN_DELAY_DELAY d)

/-- θ̂ at an age (R46). -/
def State.phaseAt (s : State) (d age : Nat) : Nat :=
  ux 32 ((s.phase d : Int) - asr ((s.drone d).f * (age : Int)) 32)

/-- A measurement of the source followed is taken (R46 to R52, R67). -/
def State.measTaken (s : State) (d theta cap : Nat) : State :=
  let age := s.measAge d cap
  let late := 4095 < age
  let s0 := s.setDrone d
    { s.drone d with gotMeas := (s.drone d).gotMeas || !decide late, lastTheta := theta % 2 ^ 32 }
  if (s.drone d).preset then s0
  else if s.drnState d = 4 then s0.count (R.DRN_CNT3_LOST_MEAS d) 1
  else if late then s0.count (R.DRN_CNT1_LATE d) 1
  else
    let e := sx 32 (ux 32 ((theta : Int) - (s.phaseAt d age : Int)))
    let s1 := s0.wrS (R.DRN_ERR_E d) e
    if s.drnState d = 1 then s1.measAcquire d (theta % 2 ^ 32) e else s1.measTrack d e

/-- A measurement of a source of a kind and index reaches a Drone (R43, R55, R56). -/
def State.measure (s : State) (d kind index theta cap : Nat) : State :=
  let prim := s.rd (R.DRN_SRC_KIND d) = kind ∧ s.rd (R.DRN_SRC_INDEX d) = index
  let alt := s.on (R.DRN_CTRL_ALT_EN d) ∧ s.rd (R.DRN_SRC_ALT_KIND d) = kind ∧ s.rd (R.DRN_SRC_ALT_INDEX d) = index
  if s.drnState d = 0 ∨ kind = 0 then s else
    let s1 := if alt then s.setDrone d { s.drone d with altAge := some 0 } else s
    if (s.on (R.DRN_STAT_ALT_ACTIVE d) ∧ alt) ∨ (¬ s.on (R.DRN_STAT_ALT_ACTIVE d) ∧ prim) then s1.measTaken d theta cap
    else s1

/-- A measurement of a source on its way to a Drone, formed by the source (R41). -/
def State.offer (s : State) (kind index theta cap : Nat) : State :=
  let follows (d : Nat) : Bool :=
    (s.rd (R.DRN_SRC_KIND d) == kind && s.rd (R.DRN_SRC_INDEX d) == index) ||
      (s.on (R.DRN_CTRL_ALT_EN d) && s.rd (R.DRN_SRC_ALT_KIND d) == kind && s.rd (R.DRN_SRC_ALT_INDEX d) == index)
  { s with meas := s.meas ++ ((List.range 16).filter follows).map fun d => ⟨d, kind, index, theta % 2 ^ 32, cap⟩ }

/-- One measurement on its way to one Drone. -/
def State.offerTo (s : State) (d kind index theta cap : Nat) : State :=
  { s with meas := s.meas ++ [⟨d, kind, index, theta % 2 ^ 32, cap⟩] }

/-! ### One control cycle -/

/-- What the corrections and jumps of a cycle make of the accumulator and F (R39, R47, R49): the
accumulator before wrapping, F, whether a jump was made. -/
def applyOps (f : Int) : List DrnOp → Int × Int × Option Nat → Int × Int × Option Nat
  | [], r => r
  | .corr dA dF :: t, (a, g, j) => applyOps f t (a + dA, g + dF, j)
  | .jump th :: t, (a, g, _) => applyOps f t (a, g, some th)

/-- The accumulator, cycle count and F of a Drone one control cycle on (R39, R49, R51). -/
def State.drnAdvance (s : State) (d : Nat) : State :=
  let dr := s.drone d
  if s.drnState d = 0 then s.setDrone d { dr with preset := false } else
    let r := applyOps dr.f dr.ops ((dr.acc : Int) + dr.f, dr.f, none)
    let acc := ux 64 r.1
    let cyc := ux 16 ((dr.cyc : Int) + r.1 / 2 ^ 64)
    let acc' := match r.2.2 with | some th => acc % 2 ^ 32 + th * 2 ^ 32 | none => acc
    let s1 := s.setDrone d
      { dr with
        acc := acc', cyc := cyc, ops := [], preset := false, age := dr.age + 1,
        altAge := dr.altAge.map (· + 1), hold := if s.drnState d = 3 then dr.hold + 1 else dr.hold,
        slots := if r.2.2.isSome then rearmAll dr.slots else dr.slots }
    if dr.ops.any (fun o => match o with | .corr _ _ => true | .jump _ => false) then s1.loadF d r.2.1 else s1

/-- The j-th phase of a slot of count n (R60). -/
def phiJ (phi n j : Nat) : Nat := (phi + j * 2 ^ 32 / n) % 2 ^ 32

/-- The crossing of a phase of the slot in a cycle from θ0 by Δ (R57, R58, R60): the number of the
phase and the fine fraction. -/
def crossing (phi n dir t0 : Nat) (dl : Int) : Option (Nat × Nat) :=
  if 0 < dl then
    if dir = 1 then none else
      let m := dl.toNat
      let t1 := (t0 + m) % 2 ^ 32
      let j := (((t1 + 2 ^ 32 - phi) % 2 ^ 32 + 1) * n - 1) / 2 ^ 32
      let x := (phiJ phi n j + 2 ^ 32 - t0) % 2 ^ 32
      if 0 < x ∧ x ≤ m then some (j, min 15 (16 * x / m)) else none
  else if dl < 0 then
    if dir = 0 then none else
      let m := (-dl).toNat
      let j := (((t0 + 2 ^ 32 - phi) % 2 ^ 32 + 1) * n - 1) / 2 ^ 32
      let x := (t0 + 2 ^ 32 - phiJ phi n j) % 2 ^ 32
      if x < m then some (j, min 15 (16 * (x + 1) / m)) else none
  else none

/-- Some phase of the path from θ0 by Δ lies at least h from φ (R62). -/
def pathClears (phi h t0 : Nat) (dl : Int) : Bool :=
  let h := min h (2 ^ 31)
  let m := dl.natAbs
  let a := (t0 + 2 ^ 32 + 2 ^ 32 - phi - (if dl < 0 then m else 0)) % 2 ^ 32
  let z := a + m
  (h ≤ z && a ≤ 2 ^ 32 - h) || 2 ^ 32 + h ≤ z

/-- A slot never fires (R60). -/
def State.evInert (s : State) (d e : Nat) : Bool :=
  let m := s.rd (R.EV_CTRL_MODE d e)
  m == 0 || m == 3 || (m == 2 && s.rd (R.EV_CTRL_N d e) == 0) || s.rd (R.EV_CTRL_DIR d e) == 3 ||
    s.rd (R.EV_TARGET_TYPE d e) == 3

/-- How many phases a slot has. -/
def State.evN (s : State) (d e : Nat) : Nat := if s.rd (R.EV_CTRL_MODE d e) = 2 then s.rd (R.EV_CTRL_N d e) else 1

/-- The bytes a latch record gives a captured Drone (R65). -/
def State.latchEntry (s : State) (mask d : Nat) : List Byte :=
  if bit mask d then
    leBytes 8 (s.phase d + (s.drone d).cyc * 2 ^ 32 + s.drnQual d * 2 ^ 48 + s.rd (R.DRN_STAT_DIR d) * 2 ^ 50)
  else leBytes 8 0

/-- The latch record of an event of Drone d (R64, R65), at a system time. -/
def State.latchRecord (s : State) (time d mask : Nat) : List Byte :=
  leBytes 6 time ++ leBytes 2 d ++ leBytes 2 mask ++ leBytes 6 0 ++
    ((List.range 16).map (s.latchEntry mask)).flatten

/-- The latch bank takes a record (R65, R787). -/
def State.latchBank (s : State) (d : Nat) (rcd : List Byte) : State :=
  let s1 := s.flag s.latchUnread (R.DRN_STAT_LOVF d)
  let s2 := s1.wrAll ((List.range 36).map fun i => (R.LATCH_WORD i, leNat ((rcd.drop (4 * i)).take 4)))
  { s2 with latchUnread := true }

/-- A slot fires (R59, R60, R62, R64). -/
def State.evFire (s : State) (time d e j fine : Nat) : State :=
  let once := s.rd (R.EV_CTRL_MODE d e) = 1
  let s1 := s.setDrone d
    { s.drone d with slots := modAt (s.drone d).slots e fun x => { disarmed := x.disarmed || once, unarmed := j :: x.unarmed } }
  let s2 := s1.flag once (R.EV_CTRL_FIRED d e)
  if s.rd (R.EV_TARGET_TYPE d e) = 2 then
    let rcd := s2.latchRecord time d (s.rd (R.EV_CC_MASK d e))
    (s2.latchBank d rcd).fireAt 2 d e fine rcd
  else s2.fireAt 2 d e fine []

/-- One slot in one cycle: re-arming, crossing, qualification, suppression, firing (R57 to R63). -/
def State.evSlot (s : State) (time d t0 : Nat) (dl : Int) (e : Nat) : State :=
  let phi := s.rd (R.EV_PHASE_PHASE d e)
  let n := s.evN d e
  let h := s.rd (R.DRN_HYST_HYST d)
  let s1 := s.setDrone d
    { s.drone d with slots := modAt (s.drone d).slots e fun x =>
        { x with unarmed := x.unarmed.filter fun j => !pathClears (phiJ phi n j) h t0 dl } }
  if s1.evInert d e then s1 else
    match crossing phi n (s1.rd (R.EV_CTRL_DIR d e)) t0 dl with
    | none => s1
    | some (j, fine) =>
      let sl := (s1.drone d).slots.getD e {}
      if (s1.rd (R.EV_CTRL_MODE d e) = 1 ∧ sl.disarmed) ∨ j ∈ sl.unarmed then s1
      else if s1.on (R.EV_CTRL_CQ d e) ∧ (s1.drone d).cyc ≠ s1.rd (R.EV_CC_CC d e) then s1
      else if s1.on (R.EV_CTRL_QUAL d e) ∧ s1.drnState d ≠ 2 then s1.count (R.DRN_CNT2_SUPPRESSED d) 1
      else s1.evFire time d e j fine

/-- All slots of a Drone in a cycle; a jump fires none (R49, R68). -/
def State.evDrone (s : State) (time d t0 : Nat) (jumped : Bool) : State :=
  if s.drnState d = 0 ∨ jumped then s else
    let dl := sx 32 (ux 32 ((s.phase d : Int) - (t0 : Int)))
    (List.range 16).foldl (fun s e => s.evSlot time d t0 dl e) s

/-- A jump waits for the next cycle. -/
def Drone.jumps (dr : Drone) : Bool := dr.ops.any fun o => match o with | .jump _ => true | .corr _ _ => false

/-- Every Drone one control cycle on, then every event slot of every Drone, lower Drone and lower slot
first (R39, R57, R68). The time of the cycle goes into latch records. -/
def State.dronesCycle (s : State) (time : Nat) : State :=
  let before := (List.range 16).map fun d => (s.phase d, (s.drone d).jumps)
  let s1 := (List.range 16).foldl (fun s d => s.drnAdvance d) s
  (List.range 16).foldl (fun s d => s.evDrone time d (before.getD d (0, false)).1 (before.getD d (0, false)).2) s1

end Sys2Proof.Machine
end

