-- ==== Sys2Proof/Machine/AxisBase.lean ====
section
/-! DEFINITION. The motor axes (spec/10_motor_axes.md): the PWM counter and its gates, shadows and
reloads, the sigma-delta inputs and their monitors, the encoder counter, entry to the axis states, the
brake chopper, the duty stage. The frame stage stands in AxisCore. -/

namespace Sys2Proof.Machine

/-- STATE of an axis: 0 OFF, 1 CATCH, 2 RUN, 3 STOPPING, 4 SUBSTITUTED, 5 INVALID. -/
def State.axState (s : State) (n : Nat) : Nat := s.rd (R.AX_STAT_STATE n)

/-- Put changed fields of an axis. -/
def State.axMod (s : State) (n : Nat) (f : AxisSt → AxisSt) : State := s.setAxis n (f (s.axis n))

/-- RWL fields of an axis take writes: OFF or INVALID, before SETUP_LOCK (R355). -/
def State.axOpen (s : State) (n : Nat) : Bool := (s.axState n == 0 || s.axState n == 5) && s.unlocked

/-- CATCH, RUN, STOPPING, SUBSTITUTED. -/
def State.axActive (s : State) (n : Nat) : Bool := 1 ≤ s.axState n && s.axState n ≤ 4

/-- RUN, STOPPING, SUBSTITUTED. -/
def State.axDriven (s : State) (n : Nat) : Bool := 2 ≤ s.axState n && s.axState n ≤ 4

/-! ### Gates and patterns (R320 to R322) -/

/-- The gates of a phase under a pattern that begins at a time in sixteenths. -/
def PhaseG.take (g : PhaseG) (pat t dt : Nat) : PhaseG :=
  if pat = 1 then (if g.cmd then { g with hi := some (t + dt), lo := none } else { g with hi := none, lo := some (t + dt) })
  else if pat = 2 then { g with hi := none, lo := some (t + dt) }
  else if pat = 3 then { g with hi := some (t + dt), lo := none }
  else { g with hi := none, lo := none }

/-- A change of pattern (R322). -/
def State.setPat (s : State) (n p : Nat) : State :=
  s.axMod n fun a => if a.pat = p then a else { a with pat := p, ph := a.ph.map fun g => g.take p (16 * s.now) a.dt }

/-- Whether a gate that is on from a time is on at a pin at a time in sixteenths, two control cycles
later (R318). -/
def gateOn (x : Option Nat) (t : Nat) : Bool := match x with | some a => decide (a + 32 ≤ t) | none => false

/-- The levels of the six gate pins, UH, UL, VH, VL, WH, WL, at the present (R316, R317). -/
def State.gatePins (s : State) (n : Nat) : List Bool :=
  let pol := s.rd (R.AX_POL_POL n)
  (if s.on R.SF_STAT_FORCED then List.replicate 6 false
   else (s.axis n).ph.flatMap fun g => [gateOn g.hi (16 * s.now), gateOn g.lo (16 * s.now)]).zipIdx.map fun p => p.1 != bit pol p.2

/-- The levels of the pins GATE_EN, BCH, HBRK (R316, R317). -/
def State.auxPins (s : State) (n : Nat) : List Bool :=
  let a := s.axis n
  let pol := s.rd (R.AX_POL_POL n)
  let free := !s.on R.SF_STAT_FORCED
  [(free && a.gateEn) != bit pol 6, (free && a.bch) != bit pol 7, (free && a.hbrk) != bit pol 8]

/-- Control cycles since the last valley. -/
def State.axPos (s : State) (n : Nat) : Nat := s.since (s.axis n).valley

/-- The command of a phase at a position in sixteenths since the valley (R320). -/
def cmdAt (half cmp p : Nat) : Bool :=
  if cmp = 0 then false else if 16 * half ≤ cmp then true
  else decide (16 * half - cmp ≤ p) && decide (p < 16 * half + cmp)

/-- The command of a phase changes: the gates follow with dead time, intervals below MINP removed (R321).
`on`, `off` are the lengths in sixteenths of the command's on and off intervals. -/
def PhaseG.toggle (g : PhaseG) (a : AxisSt) (c : Bool) (t on off : Nat) : PhaseG :=
  let g1 := { g with cmd := c, edge := t }
  if a.pat ≠ 1 then g1
  else
    let len := if c then on else off
    let keep := decide (a.dt < len) && decide (a.minp ≤ len - a.dt)
    let x := if keep then some (t + a.dt) else none
    if c then { g1 with hi := x, lo := none } else { g1 with hi := none, lo := x }

/-- The ramp crosses the compare value of a phase in this cycle (R320). -/
def State.compareEdge (s : State) (n x : Nat) : State :=
  let a := s.axis n
  let g := a.ph.getD x {}
  let cmp := a.cmp.getD x 0
  let e := 16 * s.axPos n
  let c := cmdAt a.halfP cmp (e + 15)
  if !a.run || !s.reached a.valley || 2 * a.halfP ≤ s.axPos n || c = g.cmd then s
  else
    let tau := if c then 16 * a.halfP - cmp else 16 * a.halfP + cmp
    let f := if e ≤ tau ∧ tau < e + 16 ∧ cmp < 16 * a.halfP then tau - e else 0
    s.setAxis n { a with ph := a.ph.set x (g.toggle a c (16 * s.now + f) (2 * cmp) (32 * a.halfP - 2 * cmp)) }

/-! ### Holding brake, states, INVALID (R339, R340, R345) -/

/-- HBRK goes on (released) or off. -/
def State.setHbrk (s : State) (n : Nat) (on : Bool) : State :=
  let v := on && s.on (R.AX_CTRL_HBRK_EN n)
  s.axMod n fun a => if a.hbrk = v then a else { a with hbrk := v, hbrkOff := if v then a.hbrkOff else s.now }

/-- Entry to a state: pattern, GATE_EN, HBRK and the counts that begin with it (R339). -/
def State.axTo (s : State) (n st : Nat) : State :=
  let s1 := (s.wr (R.AX_STAT_STATE n) st).axMod n fun a => { a with since := s.now, probeOn := false }
  if st = 0 ∨ st = 5 then
    (((s1.setPat n 0).setHbrk n false).axMod n fun a =>
      { a with gateEn := false, pwmOn := false, awaits := false, pubD := none, pubQ := none, upd := 0, iqPreset := none })
      |> (fun x => (x.wr (R.AX_STAT_TORQUE_OK n) 0).wr (R.AX_STAT_PHASE n) (if st = 0 then 0 else x.rd (R.AX_STAT_PHASE n)))
  else if st = 1 then
    ((s1.setPat n 0).setHbrk n false).axMod n fun a => { a with gateEn := true, hbrkOff := s.now, probes := 0, batchAt := s.now, probe3 := none, probeW := none }
  else if st = 2 then
    ((s1.setPat n 0).axMod n fun a => { a with gateEn := true, pwmOn := false, noUpd := 0, tqRun := 0 }).wr (R.AX_STAT_TORQUE_OK n) 0
  else (s1.setPat n 1).axMod n fun a => { a with gateEn := true, pwmOn := true, lowRun := 0, okRun := 0 }

/-- Entry to INVALID with a cause: 1 OVERCURRENT, 2 CURRENT, 3 FEEDBACK, 4 SUB_TIMEOUT, 5 OVERVOLT, 6 VBUS,
7 NO_UPDATE, 8 SLOT, 9 SAFE_STATE. Any state goes there for SAFE_STATE, the active ones for the others;
every cause but SAFE_STATE is reported, FEEDBACK and SUB_TIMEOUT as safety events too (R340, R665). -/
def State.axInvalid (s : State) (n cause : Nat) : State :=
  if s.axState n = 5 then s
  else if cause ≠ 9 ∧ !s.axActive n then s
  else ((s.wr (R.AX_STAT_CAUSE n) cause).axTo n 5).reportIf (cause != 9) (0x10 + n) cause

/-! ### The counter and its reloads (R319, R323 to R326, R348, R349, R354) -/

def halfOk (h : Nat) : Bool := 2000 ≤ h && h ≤ 50000

/-- PWM_EN written (R319, R349). -/
def State.pwmEn (s : State) (n : Nat) (one : Bool) : State :=
  if !(s.axState n == 0 || s.axState n == 5) || one == (s.axis n).run then s
  else if one then
    let h := s.rd (R.AX_PWM_HALF n)
    if !halfOk h then s.wr (R.AX_STAT_REJ n) 1
    else (s.wr (R.AX_CTRL_PWM_EN n) 1).axMod n fun a =>
      { a with run := true, valley := (s.now + 1) % 2 ^ 48, half := h, halfP := h, vDone := false, pDone := false, adj := 0, adjAt := none }
  else (s.wr (R.AX_CTRL_PWM_EN n) 0).axMod n fun a =>
    { a with run := false, ph := a.ph.map fun g => { g with cmd := false, hi := none, lo := none } }

/-- Compare values held to the half-period; whether that clamped one (R348). -/
def clampCmps (half : Nat) (l : List Nat) : List Nat × Bool := (l.map fun c => min c (16 * half), l.any fun c => decide (16 * half < c))

/-- The compare shadows. -/
def State.cmpShadow (s : State) (n : Nat) : List Nat := (List.range 3).map fun x => s.rd (R.AX_CMP_CMP n x)

/-- The transfer of a reload point (R323, R325, R326). `valley` says which; `adj` is the resync adjustment
that this period takes. -/
def State.transfer (s : State) (n : Nat) (valley : Bool) (adj : Int) : State :=
  let a := s.axis n
  let h := s.rd (R.AX_PWM_HALF n)
  let reg := s.on (R.AX_CTRL_DUTY_SRC n)
  let half := if valley && halfOk h then h else a.half
  let keep := !reg && a.upd == 2
  let c := clampCmps half (if keep then a.cmp else s.cmpShadow n)
  let news := reg || a.upd == 1
  let a1 := { a with
    half := half, cmp := c.1, reloadAt := some s.now,
    vA := if keep then a.vA else a.vS, upd := if keep then 1 else 0, noUpd := if news then 0 else a.noUpd + 1 }
  let a2 := if valley then
      { a1 with spA := clampI (1 - (half : Int)) ((half : Int) - 1) a.spOfs, dt := s.rd (R.AX_DT_DT n), minp := s.rd (R.AX_DT_MINP n),
                halfP := ((half : Int) + adj).toNat, vDone := true, pDone := false }
    else { a1 with pDone := true }
  let s1 := ((s.setAxis n a2).flag (valley && !halfOk h) (R.AX_STAT_REJ n)).flag c.2 (R.AX_STAT_DUTY_SAT n)
  let s2 := if s1.axState n = 2 ∧ !a2.pwmOn ∧ news then (s1.setPat n 1).axMod n fun b => { b with pwmOn := true } else s1
  let late := s2.rd (R.AX_DET_LATE_MAX n)
  if s2.axDriven n ∧ !reg ∧ late ≠ 0 ∧ late ≤ (s2.axis n).noUpd then s2.axInvalid n 7 else s2

/-- A reload point: the counter has reached its valley, or in double update its peak (R323). -/
def State.reloadPoint (s : State) (n : Nat) : State :=
  let a := s.axis n
  let e := s.axPos n
  if !a.run || !s.reached a.valley then s
  else if !a.vDone then s.transfer n true 0
  else if 2 * a.halfP ≤ e then
    let use := a.adjAt != some s.now
    let s1 := s.setAxis n
      { a with valley := (a.valley + 2 * a.halfP) % 2 ^ 48, adj := if use then 0 else a.adj, adjAt := if use then none else a.adjAt }
    s1.transfer n true (if use then a.adj else 0)
  else if s.on (R.AX_PWM_UPDATE n) && a.halfP ≤ e && !a.pDone then s.transfer n false 0
  else s

/-- A reload point of the axis stands in this cycle and is not yet taken. -/
def State.reloadDue (s : State) (n : Nat) : Bool :=
  let a := s.axis n
  a.run && s.reached a.valley && (!a.vDone || 2 * a.halfP ≤ s.axPos n || (s.on (R.AX_PWM_UPDATE n) && a.halfP ≤ s.axPos n && !a.pDone))

/-- Control cycles to the next reload point; none while the counter stands. -/
def State.toReload (s : State) (n : Nat) : Option Nat :=
  let a := s.axis n
  if !a.run || !a.vDone then none
  else
    let e := s.axPos n
    some (if s.on (R.AX_PWM_UPDATE n) && !a.pDone then a.halfP - e else 2 * a.halfP - e)

/-- A register write of a compare shadow (R325, R347). -/
def State.writeCmp (s : State) (n x v : Nat) : State :=
  if !s.on (R.AX_CTRL_DUTY_SRC n) then s.wr (R.AX_STAT_DUTY_IGN n) 1
  else
    let s1 := if s.reloadDue n then s.reloadPoint n else s
    (s1.wr (R.AX_CMP_CMP n x) v).count (R.AX_CNT1_LATE_WRITE n) (b2n ((s1.axis n).reloadAt == some s1.now))

/-- A LINE event of the axis is measured against the counter (R327). -/
def State.axisResync (s : State) (n fine : Nat) : State :=
  let a := s.axis n
  if !a.run || !s.on (R.AX_RESYNC_RESYNC n) || !s.reached a.valley then s
  else
    let h : Int := a.half
    let p : Int := ((16 * s.axPos n + fine : Nat) : Int)
    let d := (p - s.rd (R.AX_RESYNC_RS_POS n) + 16 * h) % (32 * h) - 16 * h
    let m : Int := ((min (s.rd (R.AX_RESYNC2_RS_MAX n)) (a.half / 16) : Nat) : Int)
    s.setAxis n { a with adj := clampI (-m) m (d / 32), adjAt := some s.now }

/-! ### The duty stage (R338) -/

/-- The sine table of R334: nearest entry. -/
def tabR (phi : Nat) : Int := sineS ((phi + 2 ^ 19) % 2 ^ 32)

/-- The compare values of v_d and v_q at an electrical angle and a half-period, and whether one was
clamped (R338). -/
def dutyOf (vd vq : Int) (thetaE half : Nat) : List Nat × Bool :=
  let sn := tabR thetaE
  let cs := tabR (thetaE + 0x40000000)
  let al := satS 32 (asr (vd * cs - vq * sn + 16384) 15)
  let be := satS 32 (asr (vd * sn + vq * cs + 16384) 15)
  let b := asr (-al * 2 ^ 31 + be * 3719550787 + 2 ^ 31) 32
  let c := asr (-al * 2 ^ 31 - be * 3719550787 + 2 ^ 31) 32
  let m := asr (max al (max b c) + min al (min b c)) 1
  let one (v : Int) : Nat × Bool :=
    let d := 2 ^ 30 + asr ((v - m) * 1239850262 + 2 ^ 30) 31
    let x := asr (d * 16 * half + 2 ^ 30) 31
    ((clampI 0 (16 * half) x).toNat, clampI 0 (16 * half) x != x)
  ([(one al).1, (one b).1, (one c).1], (one al).2 || (one b).2 || (one c).2)

/-- A slot has published: the duty stage of the axes it serves takes it, or the axis becomes INVALID; the
velocity preset ends (R337, R338). -/
def State.axisPublished (s : State) (slot word flags : Nat) : State :=
  (List.range 12).foldl (fun s n =>
    let a := s.axis n
    let d := s.rd (R.AX_SLOTS_D_SLOT n) == slot
    let q := s.rd (R.AX_SLOTS_Q_SLOT n) == slot
    let s1 := if s.on (R.AX_SLOTS_VEL_EN n) && s.rd (R.AX_SLOTS_VEL_SLOT n) == slot then s.axMod n fun a => { a with iqPreset := none } else s
    if !a.awaits || !(d || q) then s1
    else if bit flags 8 && s1.axDriven n then s1.axInvalid n 8
    else s1.axMod n fun b =>
      { b with pubD := if d && b.pubD.isNone then some (sx 32 word) else b.pubD,
               pubQ := if q && b.pubQ.isNone then some (sx 32 word) else b.pubQ }) s

/-- The atomic update lands in the shadows (R325). -/
def State.landUpdate (s : State) (n : Nat) (c : List Nat) (v : Int × Int) : State :=
  if !s.axDriven n then s
  else if s.on (R.AX_CTRL_DUTY_SRC n) then s.wr (R.AX_STAT_DUTY_IGN n) 1
  else
    let late := match s.toReload n with | some k => decide (k < 8) | none => false
    let s1 := s.wrAll (c.zipIdx.map fun p => (R.AX_CMP_CMP n p.2, p.1))
    (s1.axMod n fun a => { a with upd := if late then 2 else 1, vS := v }).count (R.AX_CNT1_LATE_UPDATE n) (b2n late)

/-- The duty stage: both slots have published (R338). -/
def State.dutyStage (s : State) (n : Nat) : State :=
  let a := s.axis n
  match a.awaits, a.pubD, a.pubQ with
  | true, some vd, some vq =>
    let c := dutyOf vd vq (s.rd (R.AX_FRAME_ITEM n 10)) a.half
    let s1 := s.axMod n fun b => { b with awaits := false, pubD := none, pubQ := none }
    ((if s.axDriven n then s1.flag c.2 (R.AX_STAT_DUTY_SAT n) else s1)).landUpdate n c.1 (vd, vq)
  | _, _, _ => s

/-! ### Brake chopper (R346) -/

/-- The input named by VBUS_SEL. -/
def State.vbusIn (s : State) (n : Nat) : Option Nat :=
  let v := s.rd (R.AX_ENC_VBUS_SEL n)
  if 4 ≤ v then some (v + 32) else none

def State.sdFaulted (s : State) (m : Nat) : Bool := s.on (R.SD_STAT_FAULTED m)

/-- BCH by the last VBUS word; intervals last at least CH_MIN, a forced off apart (R346, R670). -/
def State.bchEval (s : State) (n : Nat) : State :=
  let a := s.axis n
  let off := fun (s : State) => if a.bch then s.setAxis n { a with bch := false, bchAt := some s.now } else s
  match s.vbusIn n with
  | none => off s
  | some m =>
    if !s.on (R.AX_CTRL_BCH_EN n) || s.sdFaulted m || (s.inSafe && s.on R.SF_CTRL_BCH_HOLD) || s.on R.SF_STAT_FORCED then off s
    else
      let w := s.rdS (R.SD_WORD_WORD m)
      let want := if s.rdS (R.AX_CH_ON_CH_ON n) < w then true else if w < s.rdS (R.AX_CH_OFF_CH_OFF n) then false else a.bch
      let may := match a.bchAt with | some t => decide (a.chMin ≤ s.since t) | none => true
      if want != a.bch && may then s.setAxis n { a with bch := want, bchAt := some s.now } else s

/-- Axes whose VBUS_SEL names an input. -/
def State.vbusAxes (s : State) (m : Nat) : List Nat := (List.range 12).filter fun n => s.vbusIn n == some m

/-! ### Sigma-delta inputs (R328 to R332) -/

/-- The axis whose current input m is. -/
def currentAxis (m : Nat) : Option Nat := if m < 36 then some (m / 3) else none

/-- The mode an input runs in: 0 off, 1 AXIS, 2 FREE (R330). -/
def State.sdMode (s : State) (m : Nat) : Nat :=
  let v := s.rd (R.SD_CFG_MODE m)
  if m < 36 then (if v = 0 then 0 else 1) else if v = 3 then 0 else v

/-- The axis of an input in AXIS mode. -/
def State.sdAxis (s : State) (m : Nat) : Nat := if m < 36 then m / 3 else s.rd (R.SD_CFG_AXIS m)

/-- Moving sums over n samples. -/
def movSum (n : Nat) (l : List Int) : List Int :=
  (List.range (l.length + 1 - n)).map fun i => ((l.drop i).take n).foldl (· + ·) 0

/-- Samples as ±1. -/
def pmOne (l : List Bool) : List Int := l.map fun b => if b then 1 else -1

/-- The filtered word of a window of 3 × OSR − 2 samples (R329). -/
def sinc3 (osr wsh : Nat) (l : List Bool) : Nat :=
  let x := (movSum osr (movSum osr (movSum osr (pmOne l)))).headD 0
  ux 32 (satS 32 (x * ((2 ^ wsh : Nat) : Int)))

/-- OSR of an input: codes 6 and 7 act as 5. -/
def State.sdOsr (s : State) (m : Nat) : Nat := 2 ^ (min (s.rd (R.SD_CFG_OSR m)) 5 + 3)

/-- OSR_F of an input: codes above 3 act as 3. -/
def State.sdOsrF (s : State) (m : Nat) : Nat := 2 ^ (min (s.rd (R.SD_CFG_OSR_F m)) 3 + 2)

def State.sd (s : State) (m : Nat) : SdSt := s.sds.getD m {}
def State.setSd (s : State) (m : Nat) (v : SdSt) : State := { s with sds := s.sds.set m v }

/-- A monitor of an input raises: the input is faulted, and with it the axes it serves (R331, R340, R346). -/
def State.sdFault (s : State) (m : Nat) : State :=
  let s1 := (s.wr (R.SD_STAT_FAULTED m) 1).setSd m { s.sd m with quiet := false }
  let s2 := match currentAxis m with | some n => s1.axInvalid n 2 | none => s1
  (s2.vbusAxes m).foldl (fun s n => (s.bchEval n).axInvalid n 6) s2

/-- The activity monitor raises (R331). -/
def State.activityFault (s : State) (m : Nat) : State :=
  if s.sdMode m = 0 then s else (s.wr (R.SD_STAT_ACT_FAULT m) 1).sdFault m

/-- A block of 1,024 samples ends with its count of ones (R331). -/
def State.densityEnd (s : State) (m ones : Nat) : State :=
  let lim := s.rd (R.SD_MON_DENS_LIM m)
  if s.sdMode m = 0 then s
  else
    let raises := decide (ones < lim) || decide (1024 - lim < ones) || decide (1024 < lim)
    let s1 := if raises then (s.wr (R.SD_STAT_DENS_FAULT m) 1).sdFault m
      else if (s.sd m).quiet then s.wr (R.SD_STAT_FAULTED m) 0 else s
    s1.setSd m { s1.sd m with quiet := !s1.on (R.SD_STAT_ACT_FAULT m) && !s1.on (R.SD_STAT_DENS_FAULT m) }

/-- The sinc2 sums over the last samples complete a trip: OC_CNT consecutive sums above OC_THR (R332). -/
def State.ocTrips (s : State) (m : Nat) (l : List Bool) : Bool :=
  let n := s.sdOsrF m
  let k := s.rd (R.SD_MON_OC_CNT m)
  s.sdMode m != 0 && m < 36 && k != 0 && l.length == 2 * n + k - 2 &&
    (movSum n (movSum n (pmOne l))).all fun x => decide (s.rd (R.SD_MON_OC_THR m) < x.natAbs)

/-- A fast-overcurrent trip (R332, R350). -/
def State.ocTrip (s : State) (m : Nat) (l : List Bool) : State :=
  if !s.ocTrips m l then s
  else
    let n := m / 3
    let s1 := s.count (R.AX_CNT2_OC_TRIPS n) 1
    let s2 := if s1.axActive n then s1.axInvalid n 1 else s1.report (0x10 + n) 1
    let s3 := (s2.setPat n 0).axMod n fun a => { a with gateEn := false, upd := 0, awaits := false, pubD := none, pubQ := none }
    s3.wrAll ((List.range 3).map fun x => (R.AX_CMP_CMP n x, 0))

/-! ### Encoder counter (R333) -/

/-- Count change of QUAD between two pairs of levels, and a quadrature error. -/
def quadStep (a b a2 b2 : Bool) : Int × Bool :=
  if a ≠ a2 ∧ b ≠ b2 then (0, true)
  else if a = a2 ∧ b = b2 then (0, false)
  else
    let pos (a b : Bool) : Int := if b then (if a then 2 else 1) else (if a then 3 else 0)
    (if (pos a2 b2 - pos a b) % 4 = 1 then 1 else -1, false)

/-- Change of count for new filtered levels, and a quadrature error. -/
def State.encDelta (s : State) (n : Nat) (a2 b2 : Bool) : Int × Bool :=
  let x := s.axis n
  match s.rd (R.AX_ENC_ENC_MODE n) with
  | 0 => quadStep x.encA x.encB a2 b2
  | 1 => (if !x.encA && a2 then (if b2 then -1 else 1) else 0, false)
  | 2 => ((if !x.encA && a2 then 1 else 0) - (if !x.encB && b2 then 1 else 0), false)
  | _ => (0, false)

/-- Filtered levels of A and B change (R333). -/
def State.encEdge (s : State) (n : Nat) (a2 b2 : Bool) : State :=
  let d := s.encDelta n a2 b2
  ((s.wr (R.AX_ENC_CNT_CNT n) (ux 32 ((s.rd (R.AX_ENC_CNT_CNT n) : Int) + d.1))).count (R.AX_CNT2_QERR n) (b2n d.2)).axMod n fun a =>
    { a with encA := a2, encB := b2 }

/-- A rising edge of Z (R333). -/
def State.encIndex (s : State) (n : Nat) : State :=
  let s1 := (s.wr (R.AX_ENC_IDX_IDX n) (s.rd (R.AX_ENC_CNT_CNT n))).wr (R.AX_ENC_IDX_VALID n) 1
  let mode := s.rd (R.AX_ENC_IDX_CLR n)
  let clear := mode == 2 || (mode == 1 && (s.axis n).armed)
  (if clear then s1.wr (R.AX_ENC_CNT_CNT n) 0 else s1).axMod n fun a => { a with armed := if mode = 1 then false else a.armed }

/-! ### Commands of AX_CTRL (R340) -/

/-- A cause of INVALID persists: a current input faulted, the VBUS input faulted or above VBUS_MAX. -/
def State.axPersists (s : State) (n : Nat) : Bool :=
  (List.range 3).any (fun k => s.sdFaulted (3 * n + k)) ||
    match s.vbusIn n with
    | some m => s.sdFaulted m || decide (s.rdS (R.AX_VBUS_MAX_VBUS_MAX n) < s.rdS (R.SD_WORD_WORD m))
    | none => false

/-- CLEAR. -/
def State.axClear (s : State) (n : Nat) : State :=
  if s.axState n = 5 ∧ !s.axPersists n ∧ !s.inSafe then s.axTo n 0 else s

/-- SREF sources allowed: ZERO, SLOT, SETPT, MBOX (R337). -/
def srefOk (x : Nat) : Bool := selOk x && (bits x 0 4 == 0 || bits x 0 4 == 1 || bits x 0 4 == 4 || bits x 0 4 == 5)

/-- A slot is RUN. -/
def State.slotRun (s : State) (x : Nat) : Bool := s.rd (R.CHN_SLOT_STAT_STATE x) == 1

/-- The conditions of AXIS_START (R319, R340, R349, R355). -/
def State.axStartOk (s : State) (n : Nat) : Bool :=
  let run (m : Nat) := s.sdMode m != 0 && !s.sdFaulted m
  !s.inSafe && (s.axis n).run && halfOk (s.rd (R.AX_PWM_HALF n)) && s.rd (R.AX_FB_PP n) != 0 &&
    !(s.on (R.AX_CTRL_HBRK_EN n) && s.rd (R.AX_BRK_TQ_N n) == 0) &&
    (List.range 3).all (fun k => run (3 * n + k)) &&
    (match s.vbusIn n with | some m => run m | none => true) &&
    srefOk (s.rd (R.AX_SREF_SRC_SRC n)) &&
    s.slotRun (s.rd (R.AX_SLOTS_D_SLOT n)) && s.slotRun (s.rd (R.AX_SLOTS_Q_SLOT n)) &&
    (!s.on (R.AX_SLOTS_VEL_EN n) || s.slotRun (s.rd (R.AX_SLOTS_VEL_SLOT n)))

/-- AXIS_START. -/
def State.axStart (s : State) (n : Nat) : State :=
  if s.axState n ≠ 0 ∨ !s.axStartOk n then s.wr (R.AX_STAT_REJ n) 1
  else ((s.wr (R.AX_STAT_CAUSE n) 0).wr (R.AX_STAT_PHASE n) 0).axTo n 1

/-- STOP; `reg` says that it comes from a register write (R340, R682). -/
def State.axStop (s : State) (n : Nat) (reg : Bool) : State :=
  if s.axState n = 1 then s.axTo n 0
  else if s.axState n = 2 then (s.wr (R.AX_STAT_PHASE n) 4).axTo n 3
  else if s.axState n = 3 then s
  else if reg then s.wr (R.AX_STAT_REJ n) 1 else s

/-- A write of AX_CTRL: its fields, then PWM_EN, CLEAR, AXIS_START, STOP. -/
def State.writeAxCtrl (s : State) (n w : Nat) : State :=
  let s0 := if s.axOpen n then s.wrAll [(R.AX_CTRL_DUTY_SRC n, bits w 4 1), (R.AX_CTRL_HOIST n, bits w 5 1), (R.AX_CTRL_DOWN_NEG n, bits w 6 1),
      (R.AX_CTRL_HBRK_EN n, bits w 7 1)] else s
  let s1 := s0.wrAll [(R.AX_CTRL_BCH_EN n, bits w 8 1), (R.AX_CTRL_IRQ_EN n, bits w 9 1)]
  let s2 := s1.pwmEn n (bit w 3)
  let s3 := if bit w 2 then s2.axClear n else s2
  let s4 := if bit w 0 then s3.axStart n else s3
  let s5 := if bit w 1 then s4.axStop n true else s4
  s5.bchEval n

/-- t_catch has elapsed with no decision (R340, R341). -/
def State.catchTimeout (s : State) (n : Nat) : State :=
  if s.axState n = 1 ∧ (min (max (s.rd (R.AX_CATCH_T_CATCH n)) 1) 100) * 400000 ≤ s.since (s.axis n).since then
    (s.wr (R.AX_STAT_CATCH_FAIL n) 1).axTo n 0
  else s

/-- t_sub has elapsed (R344). -/
def State.subTimeout (s : State) (n : Nat) : State :=
  if s.axState n = 4 ∧ (min (max (s.rd (R.AX_DET_TSUB n)) 1) 1000) * 4000 ≤ s.since (s.axis n).since then s.axInvalid n 4 else s

/-- A stopping axis may go OFF (R340, R345). -/
def State.standstill (s : State) (n : Nat) : State :=
  let a := s.axis n
  if s.axState n = 3 ∧ 8 ≤ a.lowRun ∧ (!s.on (R.AX_CTRL_HBRK_EN n) ∨ (!a.hbrk ∧ s.rd (R.AX_BRK_BRK_DELAY n) ≤ s.since a.hbrkOff)) then s.axTo n 0
  else s

end Sys2Proof.Machine
end

