-- ==== Sys2Proof/Machine/FloatCore.lean ====
section
/-! DEFINITION. The number formats of the tiles and their exact arithmetic: values as sign, natural
mantissa and power of two, rounded once into a format (spec/05_tensor_tiles.md R153, R154, R161 to
R163, R170). -/

namespace Sys2Proof.Machine

/-! ### Values and formats -/

/-- A floating-point value: NaN, an infinity, or m × 2^e with a sign. -/
inductive Fp where
  | nan
  | inf (neg : Bool)
  | fin (neg : Bool) (m : Nat) (e : Int)
  deriving DecidableEq, Repr

/-- A floating-point format: exponent and fraction widths, bias, no infinities (E4M3). -/
structure FpFmt where
  ew : Nat
  fw : Nat
  bias : Int
  noInf : Bool := false
  deriving DecidableEq, Repr

def fp32 : FpFmt := ⟨8, 23, 127, false⟩
def fp16 : FpFmt := ⟨5, 10, 15, false⟩
def bf16 : FpFmt := ⟨8, 7, 127, false⟩
def e5m2 : FpFmt := ⟨5, 2, 15, false⟩
def e4m3 : FpFmt := ⟨4, 3, 7, true⟩

/-- The format of a code of R153 where it is floating point. -/
def fmtOf (code : Nat) : Option FpFmt :=
  if code = 6 then some e4m3 else if code = 7 then some e5m2 else if code = 8 then some fp16
  else if code = 9 then some bf16 else if code = 10 then some fp32 else none

/-- Signedness and width of an integer format of R153. -/
def intFmt (code : Nat) : Option (Bool × Nat) :=
  if code = 0 then some (true, 8) else if code = 1 then some (false, 8) else if code = 2 then some (true, 4)
  else if code = 3 then some (true, 16) else if code = 4 then some (false, 16) else if code = 5 then some (true, 32) else none

/-- Bits of an element of a format. -/
def fmtBits (code : Nat) : Nat :=
  if code = 2 then 4 else if code = 0 ∨ code = 1 ∨ code = 6 ∨ code = 7 then 8
  else if code = 5 ∨ code = 10 then 32 else 16

/-- Exponent of the unit in the last place of subnormals. -/
def FpFmt.qmin (f : FpFmt) : Int := 1 - f.bias - f.fw

/-- The canonical NaN of a format (R154). -/
def FpFmt.canon (f : FpFmt) : Nat :=
  if f.noInf then 2 ^ (f.ew + f.fw) - 1 else (2 ^ f.ew - 1) * 2 ^ f.fw + 2 ^ (f.fw - 1)

/-- The value of an encoding (R153, R154). -/
def FpFmt.decode (f : FpFmt) (x : Nat) : Fp :=
  let neg := bit x (f.ew + f.fw)
  let ex := bits x f.fw f.ew
  let fr := bits x 0 f.fw
  if f.noInf ∧ ex = 2 ^ f.ew - 1 ∧ fr = 2 ^ f.fw - 1 then .nan
  else if ¬ f.noInf ∧ ex = 2 ^ f.ew - 1 then (if fr = 0 then .inf neg else .nan)
  else if ex = 0 then .fin neg fr f.qmin
  else .fin neg (fr + 2 ^ f.fw) ((ex : Int) - 1 + f.qmin)

/-- A magnitude m × 2^e rounded to p bits on a grid not finer than 2^qmin, to nearest even, or by the
draw u of R163: mantissa, exponent, whether inexact. -/
def roundMag (p : Nat) (qmin : Int) (m : Nat) (e : Int) (u : Option Nat) : Nat × Int × Bool :=
  if m = 0 then (0, qmin, false) else
    let q := max (e + (Nat.log2 m + 1 : Nat) - p) qmin
    if q ≤ e then (m * 2 ^ (e - q).toNat, q, false)
    else
      let k := (q - e).toNat
      let t := m >>> k
      let r := m % 2 ^ k
      let up := match u with
        | none => decide (2 ^ k < 2 * r) || (2 * r == 2 ^ k && t % 2 == 1)
        | some u => decide (2 ^ 16 ≤ (if 16 ≤ k then r >>> (k - 16) else r * 2 ^ (16 - k)) + u)
      (if up then t + 1 else t, q, r != 0)

/-- Encoding of n × 2^q of a format whose grid holds it, with the exponent range unbounded above. -/
def FpFmt.pack (f : FpFmt) (n : Nat) (q : Int) : Nat :=
  if n < 2 ^ f.fw then n
  else if n < 2 ^ (f.fw + 1) then ((q - f.qmin + 1).toNat) * 2 ^ f.fw + (n - 2 ^ f.fw)
  else ((q - f.qmin + 2).toNat) * 2 ^ f.fw

/-- The largest finite encoding. -/
def FpFmt.maxFin (f : FpFmt) : Nat :=
  if f.noInf then 2 ^ (f.ew + f.fw) - 2 else (2 ^ f.ew - 1) * 2 ^ f.fw - 1

/-- The infinity of a format, the canonical NaN where it has none. -/
def FpFmt.infCode (f : FpFmt) : Nat := if f.noInf then f.canon else (2 ^ f.ew - 1) * 2 ^ f.fw

/-- The sign bit. -/
def FpFmt.sgn (f : FpFmt) (neg : Bool) : Nat := if neg then 2 ^ (f.ew + f.fw) else 0

/-! Flags of R177, as the bits of TILE_FLAGS. -/

def flInvalid : Nat := 1
def flDivZero : Nat := 2
def flOverflow : Nat := 4
def flUnderflow : Nat := 8
def flSatInt : Nat := 16

/-- Conversion of a value to a format (R162, R163); `u` is the draw of SR. -/
def FpFmt.convert (f : FpFmt) (sat : Bool) (u : Option Nat) (x : Fp) : Nat × Nat :=
  match x with
  | .nan => (f.canon, 0)
  | .inf neg =>
    if f.noInf then (if sat then f.sgn neg + f.maxFin else f.canon, 0) else (f.sgn neg + f.infCode, 0)
  | .fin neg m e =>
    let r := roundMag (f.fw + 1) f.qmin m e u
    let c := f.pack r.1 r.2.1
    if f.maxFin < c then
      (if sat then f.sgn neg + f.maxFin else if f.noInf then f.canon else f.sgn neg + f.infCode, flOverflow)
    else (f.sgn neg + c, if r.1 < 2 ^ f.fw ∧ r.2.2 ∧ m ≠ 0 then flUnderflow else 0)

/-- A magnitude rounded to FP32 to nearest even, with OVERFLOW (R161). -/
def round32 (neg : Bool) (m : Nat) (e : Int) : Fp × Nat :=
  let r := roundMag 24 fp32.qmin m e none
  if fp32.maxFin < fp32.pack r.1 r.2.1 then (.inf neg, flOverflow) else (.fin neg r.1 r.2.1, 0)

/-- The FP32 encoding of a value that FP32 holds. -/
def to32 (x : Fp) : Nat := (fp32.convert false none x).1

/-! ### Operations (R161, R170) -/

/-- Signed mantissa. -/
def sm (neg : Bool) (m : Nat) : Int := if neg then -(m : Int) else m

/-- fusedMultiplyAdd of binary32. -/
def fma32 (a b c : Fp) : Fp × Nat :=
  match a, b with
  | .inf _, .fin _ 0 _ => (.nan, flInvalid)
  | .fin _ 0 _, .inf _ => (.nan, flInvalid)
  | .nan, _ => (.nan, 0)
  | _, .nan => (.nan, 0)
  | .inf x, .inf y => infPlus (x != y) c
  | .inf x, .fin y _ _ => infPlus (x != y) c
  | .fin x _ _, .inf y => infPlus (x != y) c
  | .fin x m e, .fin y n f =>
    match c with
    | .nan => (.nan, 0)
    | .inf z => (.inf z, 0)
    | .fin z k g =>
      let pneg := x != y
      let q := min (e + f) g
      let sum := sm pneg (m * n) * ((2 ^ (e + f - q).toNat : Nat) : Int) + sm z k * ((2 ^ (g - q).toNat : Nat) : Int)
      if sum = 0 then (.fin (m * n == 0 && k == 0 && pneg && z) 0 0, 0)
      else round32 (decide (sum < 0)) sum.natAbs q
where
  /-- An infinite product plus c. -/
  infPlus (neg : Bool) (c : Fp) : Fp × Nat :=
    match c with
    | .nan => (.nan, 0)
    | .inf z => if z = neg then (.inf neg, 0) else (.nan, flInvalid)
    | .fin _ _ _ => (.inf neg, 0)

/-- The value 1. -/
def fpOne : Fp := .fin false 1 0

/-- The sign flipped; NaN stays (R170). -/
def fpNeg : Fp → Fp
  | .nan => .nan
  | .inf n => .inf (!n)
  | .fin n m e => .fin (!n) m e

/-- The sign cleared (R170). -/
def fpAbs : Fp → Fp
  | .nan => .nan
  | .inf _ => .inf false
  | .fin _ m e => .fin false m e

def fpAdd (a b : Fp) : Fp × Nat := fma32 a fpOne b
def fpSub (a b : Fp) : Fp × Nat := fma32 a fpOne (fpNeg b)
def fpMul (a b : Fp) : Fp × Nat := fma32 a b (.fin true 0 0)

/-- Compare two values that are no NaN: −1, 0 or 1; −0 and +0 are equal. -/
def fpCmp (a b : Fp) : Int :=
  match a, b with
  | .inf x, .inf y => if x = y then 0 else if x then -1 else 1
  | .inf x, _ => if x then -1 else 1
  | _, .inf y => if y then 1 else -1
  | .fin x m e, .fin y n f =>
    let q := min e f
    let d := sm x m * ((2 ^ (e - q).toNat : Nat) : Int) - sm y n * ((2 ^ (f - q).toNat : Nat) : Int)
    if d < 0 then -1 else if d = 0 then 0 else 1
  | _, _ => 0

/-- The sign of a value. -/
def fpSign : Fp → Bool
  | .nan => false
  | .inf n => n
  | .fin n _ _ => n

/-- MAX and MIN (R170). -/
def fpMax (a b : Fp) : Fp :=
  if a = .nan ∨ b = .nan then .nan
  else if fpCmp a b = 0 then (if fpSign a then b else a) else if fpCmp a b < 0 then b else a

def fpMin (a b : Fp) : Fp :=
  if a = .nan ∨ b = .nan then .nan
  else if fpCmp a b = 0 then (if fpSign a then a else b) else if fpCmp a b < 0 then a else b

/-- RECIP (R170). -/
def fpRecip : Fp → Fp × Nat
  | .nan => (.nan, 0)
  | .inf n => (.fin n 0 0, 0)
  | .fin n m e =>
    if m = 0 then (.inf n, flDivZero) else
      let k := Nat.log2 m + 32
      let q := 2 ^ k / m
      round32 n (2 * q + b2n (2 ^ k % m != 0)) (-(k : Int) - e - 1)

/-- Integer square root by bits: the largest r below 2^n with r² ≤ x. -/
def isqrt (x : Nat) : Nat → Nat → Nat
  | 0, r => r
  | n + 1, r => if (r + 2 ^ n) * (r + 2 ^ n) ≤ x then isqrt x n (r + 2 ^ n) else isqrt x n r

/-- RSQRT (R170). -/
def fpRsqrt : Fp → Fp × Nat
  | .nan => (.nan, 0)
  | .inf false => (.fin false 0 0, 0)
  | .inf true => (.nan, flInvalid)
  | .fin n m e =>
    if m = 0 then (.inf n, flDivZero)
    else if n then (.nan, flInvalid)
    else
      let m' := if e % 2 = 0 then m else 2 * m
      let e' := if e % 2 = 0 then e else e - 1
      let k := Nat.log2 m' + 40
      let r := isqrt (2 ^ (2 * k) / m') (k + 1) 0
      round32 false (2 * r + b2n (r * r * m' != 2 ^ (2 * k))) (-(k : Int) - e' / 2 - 1)

/-- Fixed point of 2^256: ln 2 as the sum of 2^−k / k. -/
def ln2Fix : Nat := (List.range 260).foldl (fun a k => a + 2 ^ 256 / ((k + 1) * 2 ^ (k + 1))) 0

/-- The exponential series of a fixed-point x, n terms from number k on with the term t. -/
def expFix (x : Nat) : Nat → Nat → Nat → Nat
  | 0, _, _ => 0
  | n + 1, k, t => t + expFix x n (k + 1) (t * x / 2 ^ 256 / (k + 1))

/-- The series of the inverse hyperbolic tangent of a fixed-point z. -/
def atanhFix (z2 : Nat) : Nat → Nat → Nat → Nat
  | 0, _, _ => 0
  | n + 1, k, t => t / (2 * k + 1) + atanhFix z2 n (k + 1) (t * z2 / 2 ^ 256)

/-- EXP2 (R170): correctly rounded; a power of a non-integer is irrational, so 256 bits decide it. -/
def fpExp2 : Fp → Fp × Nat
  | .nan => (.nan, 0)
  | .inf n => (if n then .fin false 0 0 else .inf false, 0)
  | .fin n m e =>
    let k := max 0 (-e)
    let a := sm n (m * 2 ^ (max 0 e).toNat)
    let i := asr a k.toNat
    let fr := (a - i * ((2 ^ k.toNat : Nat) : Int)).toNat
    if 200 ≤ i then (.inf false, flOverflow)
    else if i < -400 then (.fin false 0 0, 0)
    else if fr = 0 then round32 false 1 i
    else
      let f := fr * 2 ^ 256 / 2 ^ k.toNat
      let y := expFix (f * ln2Fix / 2 ^ 256) 70 0 (2 ^ 256)
      round32 false (2 * y + 1) (i - 257)

/-- LOG2 (R170). -/
def fpLog2 : Fp → Fp × Nat
  | .nan => (.nan, 0)
  | .inf n => if n then (.nan, flInvalid) else (.inf false, 0)
  | .fin n m e =>
    if m = 0 then (.inf true, flDivZero)
    else if n then (.nan, flInvalid)
    else
      let l := Nat.log2 m
      let ex := e + (l : Int)
      if m = 2 ^ l then round32 (decide (ex < 0)) ex.natAbs 0
      else
        let z := (m - 2 ^ l) * 2 ^ 256 / (m + 2 ^ l)
        let y : Nat := 2 * atanhFix (z * z / 2 ^ 256) 90 0 z * 2 ^ 256 / ln2Fix
        let t : Int := ex * ((2 ^ 256 : Nat) : Int) + (y : Int)
        round32 (decide (t < 0)) (2 * t.natAbs + 1) (-257)

/-- A value rounded to the nearest integer, ties to even; none for NaN, the clamp bound for infinities
(R174). -/
def fpToInt (bound : Int) : Fp → Option Int
  | .nan => none
  | .inf n => some (if n then -bound else bound)
  | .fin n m e =>
    if 0 ≤ e then some (sm n (m * 2 ^ e.toNat))
    else some (let r := rneShift (m : Int) (-e).toNat; if n then -r else r)

/-- An integer as a value. -/
def fpOfInt (i : Int) : Fp := .fin (decide (i < 0)) i.natAbs 0

/-- An integer rounded to FP32 (R169). -/
def intTo32 (i : Int) : Fp := if i = 0 then .fin false 0 0 else (round32 (decide (i < 0)) i.natAbs 0).1

end Sys2Proof.Machine
end

