-- ==== Sys2Proof/Machine/SeqCore.lean ====
section
/-! DEFINITION. Sequencers and token sinks without their engines: rows, descriptors, token counters,
credit pools, the states of a thread context (spec/03_tables_tokens_threads.md). Units are named by
the unit numbers of R76. -/

namespace Sys2Proof.Machine

/-! ### Rows (R80) -/

/-- A committed row, 256 bits. -/
def State.rowAt (s : State) (u r : Nat) : Nat :=
  (List.range 8).foldl (fun a k => a + s.rd (R.ROWS_WORD (win u) r k) * 2 ^ (32 * k)) 0

def rowEngine (r : Nat) : Nat := bits r 0 4
def rowOp (r : Nat) : Nat := bits r 4 8
def rowClass (r : Nat) : Nat := bits r 12 2
def rowEnd (r : Nat) : Bool := bit r 14
def rowBrk (r : Nat) : Bool := bit r 15
def rowCost (r : Nat) : Nat := bits r 16 16
/-- Wait term i: EN, counter, count (R82). -/
def rowWait (r i : Nat) : Bool × Nat × Nat :=
  let t := bits r (32 + 12 * i) 12
  (bit t 11, bits t 7 4, bits t 0 7)
/-- Credit term i: EN, pool, count (R83). -/
def rowCred (r i : Nat) : Bool × Nat × Nat :=
  let t := bits r (88 + 12 * i) 12
  (bit t 11, bits t 6 5, bits t 0 6)
/-- Post term i: EN, descriptor, count (R84). -/
def rowPost (r i : Nat) : Bool × Nat × Nat :=
  let t := bits r (112 + 12 * i) 12
  (bit t 11, bits t 5 6, bits t 0 5)
def rowTrigCounter (r : Nat) : Nat := bits r 80 4
def rowTrigEn (r : Nat) : Bool := bit r 84
def rowTrigLatest (r : Nat) : Bool := bit r 85
def rowAny (r : Nat) : Bool := bit r 86
def rowSucc (r i : Nat) : Nat := bits r (136 + 9 * i) 9
def rowRepeat (r : Nat) : Nat := bits r 172 12
def rowPostSel (r : Nat) : Bool := bit r 184
def rowPayload (r : Nat) : Nat := bits r 192 64

/-- A write of a table word: held in staging until word 7 commits the row (R103). -/
def State.writeRowWord (s : State) (u r k w : Nat) : State :=
  let a := win u + 0x2000 + 32 * r
  if k < 7 then { s with rowStage := tset (2 ^ 32) s.rowStage (a + 4 * k) (w % 2 ^ 32) }
  else
    let s1 := (List.range 7).foldl (fun s k =>
      match s.rowStage.find? (fun p => p.1 == a + 4 * k) with
      | some p => s.wr (R.ROWS_WORD (win u) r k) p.2
      | none => s) s
    let s2 := s1.wr (R.ROWS_WORD (win u) r 7) w
    { s2 with rowStage := tdrop s2.rowStage a 32 }

/-- A table word reads as written (R108). -/
def State.readRowWord (s : State) (u r k : Nat) : Nat :=
  match s.rowStage.find? (fun p => p.1 == win u + 0x2000 + 32 * r + 4 * k) with
  | some p => p.2
  | none => s.rd (R.ROWS_WORD (win u) r k)

/-! ### Engine codes (R76, R81) -/

/-- An engine code is allowed on a sequencer unit. -/
def engineOn (u e : Nat) : Bool :=
  e == 0xF ||
    (if u < 0x40 then 1 ≤ e && e ≤ 4
     else if u ≤ 0x43 then e == 5
     else if u ≤ 0x45 then e == 6
     else if u = 0x48 then e == 7
     else e == 8)

/-! ### Descriptors (R94, R97) -/

/-- A valid token descriptor. -/
def State.tokenDesc (s : State) (u d : Nat) : Bool := s.on (R.DESC_HI_VALID (win u) d) && !s.on (R.DESC_HI_TYPE (win u) d)

/-- A valid credit descriptor. -/
def State.creditDesc (s : State) (u d : Nat) : Bool := s.on (R.DESC_HI_VALID (win u) d) && s.on (R.DESC_HI_TYPE (win u) d)

/-- The chip a descriptor names. -/
def State.descChip (s : State) (u d : Nat) : Nat :=
  if s.on (R.DESC_LO_LOCAL (win u) d) then s.chip else s.rd (R.DESC_LO_CHIP (win u) d)

/-- The token message of a post through a descriptor (R94). -/
def State.descToken (s : State) (u d count cls : Nat) : Nat :=
  tokenMsg (s.descChip u d) (s.rd (R.DESC_LO_UNIT (win u) d)) (s.rd (R.DESC_LO_CONTEXT (win u) d))
    (s.rd (R.DESC_LO_COUNTER (win u) d)) count (s.rd (R.DESC_HI_EPOCH (win u) d)) cls

/-- The credit messages of a return of n credits through a descriptor, at most 255 each (R94). -/
def State.descCredits (s : State) (u d cls : Nat) : Nat → Nat → List Nat
  | 0, _ => []
  | fuel + 1, n =>
    if n = 0 then [] else
      creditMsg (s.descChip u d) (s.rd (R.DESC_LO_UNIT (win u) d)) (s.rd (R.DESC_HI_POOL (win u) d)) (min n 255)
        (s.rd (R.DESC_HI_EPOCH (win u) d)) cls :: s.descCredits u d cls fuel (n - 255)

/-- Tokens were consumed from a counter: its binding returns as many credits, or loses them (R97). -/
def State.returnCredits (s : State) (u c k n cls : Nat) : State :=
  if n = 0 ∨ ¬ s.on (R.TOKBIND_EN (win u) c k) then s else
    let d := s.rd (R.TOKBIND_DESC (win u) c k)
    if s.creditDesc u d then { s with msgs := s.msgs ++ (s.descCredits u d cls 258 n).map fun m => (m, 0) }
    else s.wr (R.SEQ_STAT_CREDIT_LOST (win u)) 1

/-! ### Counters and pools (R95, R98) -/

/-- A counter takes arrivals (R95). -/
def State.addTokens (s : State) (u c k p : Nat) : State :=
  let v := s.rd (R.TOKCNT_COUNT (win u) c k) + p
  (s.flag (65535 < v) (R.TOKCNT_OVF (win u) c k)).wr (R.TOKCNT_COUNT (win u) c k) (min v 65535)

/-- A firmware write w of a counter in a cycle with consumption c and arrivals p (R95). -/
def State.writeTokCnt (s : State) (u x k word taken arrived : Nat) : State :=
  let b := win u
  let s1 := if bit word 16 then s.wr (R.TOKCNT_OVF b x k) 0 else s
  let s2 := if bit word 17 then s1.wr (R.TOKCNT_UNF b x k) 0 else s1
  let v : Int := (bits word 0 16 : Int) - taken + arrived
  ((s2.flag (v < 0) (R.TOKCNT_UNF b x k)).flag (65535 < v) (R.TOKCNT_OVF b x k)).wr (R.TOKCNT_COUNT b x k)
    (clampI 0 65535 v).toNat

/-- A pool that became v: capped at POOL_INIT, held at 0 (R98). -/
def State.setPool (s : State) (u p : Nat) (v : Int) : State :=
  let b := win u
  let init := s.rd (R.POOL_INIT_INIT b p)
  ((s.flag ((init : Int) < v) (R.SEQ_STAT_CREDIT_OVF b)).flag (v < 0) (R.SEQ_STAT_CREDIT_UNF b)).wr (R.POOL_CNT_COUNT b p)
    (clampI 0 init v).toNat

/-- A credit message adds to its pool (R98). -/
def State.addCredits (s : State) (u p n : Nat) : State :=
  s.setPool u p ((s.rd (R.POOL_CNT_COUNT (win u) p) : Int) + n)

/-- A sink write of TOKTAKE (R97): takes min(N, COUNT) and returns bound credits. -/
def State.tokTake (s : State) (u c k n cls : Nat) : State :=
  let have_ := s.rd (R.TOKCNT_COUNT (win u) c k)
  let m := min n have_
  (s.wr (R.TOKCNT_COUNT (win u) c k) (have_ - m)).returnCredits u c k m cls

/-! ### Thread contexts (R77, R825) -/

/-- CTX_STAT STATE: 0 IDLE, 1 WAIT, 2 BUSY, 3 HALTED, 4 ERROR. -/
def State.ctxState (s : State) (u c : Nat) : Nat := s.rd (R.CTX_STAT_STATE (win u) c)

/-- A context arrives at its row: the wait of R79 and R101 begins. -/
def State.ctxArrive (s : State) (u c : Nat) : State :=
  s.setCtx u c { s.ctx u c with arrived := s.now, asked := false, granted := false }

/-- A context enters ERROR with a code (R102). -/
def State.ctxError (s : State) (u c code row iter status : Nat) : State :=
  let b := win u
  let s1 := (s.wrAll [(R.CTX_STAT_STATE b c, 4), (R.CTX_STAT_CODE b c, code)]).wr (R.SEQ_STAT_ERR_MASK b)
    (s.rd (R.SEQ_STAT_ERR_MASK b) ||| 2 ^ c)
  let s2 := s1.setCtx u c { s1.ctx u c with exec := false, result := none, consumed := [], asked := false, granted := false, pendHalt := false, pendStep := false, passing := false, brkPass := false }
  if s2.errHeld.contains u then s2 else
    let s3 := s2.wrAll [(R.SEQ_ERR_CONTEXT b, c), (R.SEQ_ERR_ROW b, row), (R.SEQ_ERR_ITER b, iter), (R.SEQ_ERR_STATUS b, status)]
    { s3 with errHeld := s3.errHeld ++ [u] }

/-- A context halts with a cause: 1 END, 2 HALT, 3 BRK, 4 STEP (R77, R825). -/
def State.ctxHalt (s : State) (u c cause : Nat) : State :=
  let s1 := s.wrAll [(R.CTX_STAT_STATE (win u) c, 3), (R.CTX_STAT_CAUSE (win u) c, cause)]
  s1.setCtx u c { s1.ctx u c with exec := false, result := none, asked := false, granted := false, pendHalt := false, pendStep := false, passing := false, brkPass := cause == 3 }

/-- START, or STEP in IDLE or HALTED (R77, R825). -/
def State.ctxStart (s : State) (u c : Nat) (step : Bool) : State :=
  let b := win u
  if s.rd (R.SEQ_CTRL_ABI b) ≠ 2 then s.ctxError u c 9 (s.rd (R.CTX_PC_PC b c)) (s.rd (R.CTX_PC_ITER b c)) 0
  else
    let s1 := s.wrAll [(R.CTX_STAT_STATE b c, 1), (R.CTX_STAT_CAUSE b c, 0)]
    (s1.setCtx u c { s1.ctx u c with passing := (s.ctx u c).brkPass, brkPass := false, pendStep := step, pendHalt := false, exec := false, result := none }).ctxArrive u c

/-- HALT (R77): at once in WAIT and between iterations, else pending. -/
def State.ctxHaltCmd (s : State) (u c : Nat) : State :=
  if s.ctxState u c = 1 then s.ctxHalt u c 2
  else if s.ctxState u c = 2 then
    if (s.ctx u c).exec then s.setCtx u c { s.ctx u c with pendHalt := true } else s.ctxHalt u c 2
  else s

/-- STEP (R77): START with STEP pending, or pending; nothing in ERROR. -/
def State.ctxStepCmd (s : State) (u c : Nat) : State :=
  if s.ctxState u c = 0 ∨ s.ctxState u c = 3 then s.ctxStart u c true
  else if s.ctxState u c = 1 ∨ s.ctxState u c = 2 then s.setCtx u c { s.ctx u c with pendStep := true }
  else s

/-- START (R77): no effect in WAIT, BUSY and ERROR. -/
def State.ctxStartCmd (s : State) (u c : Nat) : State :=
  if s.ctxState u c = 0 ∨ s.ctxState u c = 3 then s.ctxStart u c false else s

/-- The kept state of a CHAIN row of a context is discarded (R202). -/
def State.dropChain (s : State) (u c : Nat) : State :=
  match (s.tile u).chain with
  | some (k, _) =>
    if u < 0x40 ∧ k = c then
      (s.setTile u { s.tile u with chain := none }).wrAll [(R.SEL_STAT_CHAIN_HELD u, 0), (R.SEL_STAT_HELD_CTX u, 0)]
    else s
  | none => s

/-- CLEAR (R77): HALTED and ERROR go to IDLE with CTX_ITER 0. -/
def State.ctxClearCmd (s : State) (u c : Nat) : State :=
  if s.ctxState u c = 3 ∨ s.ctxState u c = 4 then
    let b := win u
    ((s.wrAll [(R.CTX_STAT_STATE b c, 0), (R.CTX_STAT_CAUSE b c, 0), (R.CTX_STAT_CODE b c, 0), (R.CTX_PC_ITER b c, 0),
      (R.SEQ_STAT_ERR_MASK b, s.rd (R.SEQ_STAT_ERR_MASK b) &&& (2 ^ 16 - 1 - 2 ^ c))]).setCtx u c {}).dropChain u c
  else s

/-- A write of CTX_CTRL: CEILING, then CLEAR, START, STEP, HALT. -/
def State.writeCtxCtrl (s : State) (u c w : Nat) (openRwl : Bool) : State :=
  let s0 := if openRwl then s.wr (R.CTX_CTRL_CEILING (win u) c) (bits w 4 2) else s
  let s1 := if bit w 3 then s0.ctxClearCmd u c else s0
  let s2 := if bit w 2 then s1.ctxStepCmd u c else if bit w 0 then s1.ctxStartCmd u c else s1
  if bit w 1 then s2.ctxHaltCmd u c else s2

/-- A write of CTX_PC: in IDLE or HALTED; it cancels a BRK pass (R825). -/
def State.writeCtxPc (s : State) (u c w : Nat) : State :=
  if s.ctxState u c = 0 ∨ s.ctxState u c = 3 then
    (s.wr (R.CTX_PC_PC (win u) c) (bits w 0 9)).setCtx u c { s.ctx u c with brkPass := false }
  else s

/-- A read of SEQ_ERR releases it (R102). -/
def State.readSeqErr (s : State) (u : Nat) : State := { s with errHeld := s.errHeld.filter (· != u) }

/-! ### Evaluating a row (R82 to R85, R97, R102) -/

/-- Enabled wait terms: number, counter, count. -/
def rowWaits (r : Nat) : List (Nat × Nat × Nat) :=
  (List.range 4).filterMap fun i => let t := rowWait r i; if t.1 then some (i, t.2.1, t.2.2) else none

/-- Enabled credit terms: pool, count. -/
def rowCreds (r : Nat) : List (Nat × Nat) :=
  (List.range 2).filterMap fun i => let t := rowCred r i; if t.1 then some t.2 else none

/-- Counters the row can consume from (R97). -/
def rowCounters (r : Nat) : List Nat :=
  (rowWaits r).map (fun t => t.2.1) ++ (if rowTrigEn r then [rowTrigCounter r] else [])

/-- Successors that can be taken (R85). -/
def rowTakes (r i : Nat) : Bool := if rowAny r then (rowWait r i).1 else i == 0

/-- The list holds one value twice. -/
def hasTwice : List Nat → Bool
  | [] => false
  | a :: t => t.contains a || hasTwice t

/-- FIELD_INVALID by the rules common to all engines (R82 to R85). -/
def rowFieldsBad (r : Nat) : Bool :=
  let ws := rowWaits r
  ws.any (fun t => t.2.2 == 0) || (rowCreds r).any (fun t => t.2 == 0) ||
    (List.range 2).any (fun i => (rowPost r i).1 && (rowPost r i).2.2 == 0) ||
    bit r 87 || bits r 185 7 != 0 || (rowEngine r == 0xF && rowPayload r != 0) ||
    (rowAny r && (rowRepeat r != 0 || ws.isEmpty)) ||
    (rowTrigEn r && ws.any fun t => t.2.1 == rowTrigCounter r) ||
    hasTwice (ws.map fun t => t.2.1) ||
    (List.range 4).any fun i => !rowTakes r i && rowSucc r i != 0

/-- The row names an invalid descriptor (R84, R97). -/
def State.rowDescBad (s : State) (u c r : Nat) : Bool :=
  (List.range 2).any (fun i => (rowPost r i).1 && !s.tokenDesc u (rowPost r i).2.1) ||
    (rowCounters r).any fun k => s.on (R.TOKBIND_EN (win u) c k) && !s.creditDesc u (s.rd (R.TOKBIND_DESC (win u) c k))

/-- The error code a row meets when it is evaluated, 0 for none (R102); `engineBad` is the engine's
own field rule. -/
def State.rowCode (s : State) (u c pc : Nat) (engineBad : Nat → Bool) : Nat :=
  let r := s.rowAt u pc
  let b := win u
  if rowsOf u ≤ pc then 6
  else if (List.range 4).any (fun k => tget 0 s.ecc (b + 0x2000 + 32 * pc + 8 * k) == 2) then 1
  else if !engineOn u (rowEngine r) then 3
  else if rowClass r < s.rd (R.CTX_CTRL_CEILING b c) then 4
  else if s.rowDescBad u c r then 5
  else if (List.range 4).any (fun i => rowTakes r i && decide (rowsOf u ≤ rowSucc r i)) then 6
  else if rowFieldsBad r || engineBad r then 2
  else 0

/-! ### Arrival of a message (R95, R96, R98, R692, R716, R719) -/

/-- The lifecycle state of a sequencer or sink; those without a gate stay ACTIVE at epoch 0 (R712). -/
def State.seqUnit (s : State) (u : Nat) : UnitSt :=
  match gateOfUnit u with
  | some g => s.unitSt g
  | none => {}

/-- A sequencer or sink exists on this part and is powered (R6, R76, R505). -/
def State.seqPresent (s : State) (u : Nat) : Bool :=
  (windowOf u).isSome && (decide (0x40 ≤ u) || s.tileOn u) && (s.seqUnit u).powered

/-- A message with a stale epoch is dropped (R96, R716); sinks have no counter for it. -/
def State.epochDrop (s : State) (u : Nat) : State :=
  if isSeq u then s.count (R.SEQ_DROPS_EPOCH_DROPS (win u)) 1 else s

/-- The answer of a unit to a message, before it is counted. -/
def State.msgGate (s : State) (m : Nat) : State × Status :=
  let u := bits m 16 8
  if !s.seqPresent u || (s.sysrst && u != 0x68) then (s, .nackAbsent)
  else if (s.seqUnit u).state == 1 then (s, if (s.seqUnit u).retryOver then .nackAbsent else .retry)
  else if (s.seqUnit u).state == 2 then (s, .nackAbsent)
  else if (s.seqUnit u).state == 3 then (s, .retry)
  else if (s.seqUnit u).epoch != bits m 40 8 then (s.epochDrop u, .epochStale)
  else if u == 0x68 && decide (2 ≤ bits m 48 2) then (s.count R.SF_STAT_SINK_REJ 1, .firewall)
  else (s, .ok)

/-- A token message arrives (R95). -/
def State.arriveToken (s : State) (m : Nat) : State × Status :=
  let g := s.msgGate m
  if g.2 ≠ .ok then g
  else (g.1.addTokens (bits m 16 8) (bits m 24 4) (bits m 28 4) (bits m 32 8), .ok)

/-- A credit message arrives (R98). -/
def State.arriveCredit (s : State) (m : Nat) : State × Status :=
  let g := s.msgGate m
  if g.2 ≠ .ok then g else (g.1.addCredits (bits m 16 8) (bits m 24 5) (bits m 32 8), .ok)

/-- A token or credit message arrives. -/
def State.arrive (s : State) (m : Nat) : State × Status := if bit m 15 then s.arriveCredit m else s.arriveToken m

end Sys2Proof.Machine
end

