-- ==== Sys2Proof/Machine/ReproCore.lean ====
section
/-! DEFINITION. Reproducibility: the fingerprint, the generator (AES-128), the step counter, the
signatures of the lock-step comparison (spec/19_reproducibility.md). -/

namespace Sys2Proof.Machine

/-! ### AES-128 (R642, FIPS 197) -/

/-- Product in GF(2^8) modulo x^8 + x^4 + x^3 + x + 1, over the low n bits of b. -/
def gfMul : Nat → Nat → Nat → Nat
  | 0, _, _ => 0
  | n + 1, a, b =>
    let a2 := if 128 ≤ a then (2 * a) ^^^ 0x11B else 2 * a
    (if b % 2 = 1 then a else 0) ^^^ gfMul n a2 (b / 2)

/-- x^254, the inverse in GF(2^8) (0 for 0). -/
def gfInv (x : Nat) : Nat :=
  let sq (y : Nat) := gfMul 8 y y
  let x2 := sq x; let x4 := sq x2; let x8 := sq x4; let x16 := sq x8; let x32 := sq x16
  let x64 := sq x32; let x128 := sq x64
  gfMul 8 x2 (gfMul 8 x4 (gfMul 8 x8 (gfMul 8 x16 (gfMul 8 x32 (gfMul 8 x64 x128)))))

/-- The AES S-box. -/
def sbox (x : Nat) : Nat :=
  let b := gfInv x
  let rot (k : Nat) := (b * 2 ^ k + b / 2 ^ (8 - k)) % 256
  (b ^^^ rot 1) ^^^ (rot 2 ^^^ rot 3) ^^^ (rot 4 ^^^ 0x63)

/-- Bytewise exclusive or. -/
def xorL (a b : List Nat) : List Nat := List.zipWith (· ^^^ ·) a b

/-- The next round key of a 16-byte key. -/
def nextKey (rcon : Nat) (k : List Nat) : List Nat :=
  let w (i : Nat) := (k.drop (4 * i)).take 4
  let t := ((w 3).drop 1 ++ (w 3).take 1).map sbox
  let w0 := xorL (w 0) (xorL t [rcon, 0, 0, 0])
  let w1 := xorL (w 1) w0
  let w2 := xorL (w 2) w1
  w0 ++ w1 ++ w2 ++ xorL (w 3) w2

/-- ShiftRows: byte r + 4c comes from column c + r. -/
def shiftRows (b : List Nat) : List Nat := (List.range 16).map fun i => b.getD (i % 4 + 4 * ((i / 4 + i % 4) % 4)) 0

/-- MixColumns. -/
def mixColumns (b : List Nat) : List Nat :=
  (List.range 16).map fun i =>
    let x (r : Nat) := b.getD (4 * (i / 4) + (i % 4 + r) % 4) 0
    gfMul 2 (x 0) 2 ^^^ gfMul 2 (x 1) 3 ^^^ x 2 ^^^ x 3

/-- Rounds n to 10 of the cipher. -/
def aesRounds : Nat → Nat → List Nat → List Nat → List Nat
  | 0, _, _, b => b
  | n + 1, rcon, k, b =>
    let k' := nextKey rcon k
    let sub := shiftRows (b.map sbox)
    aesRounds n (if 128 ≤ rcon then (2 * rcon) ^^^ 0x11B else 2 * rcon) k' (xorL (if n = 0 then sub else mixColumns sub) k')

/-- Bytes of a 128-bit value, lowest first. -/
def nat16 (x : Nat) : List Nat := (List.range 16).map fun i => bits x (8 * i) 8

/-- The generator: AES-128 of the block X under the seed (R642). -/
def gen (seed x : Nat) : Nat :=
  let k := nat16 seed
  (aesRounds 10 1 k (xorL (nat16 x) k)).reverse.foldl (fun a b => 256 * a + b) 0

/-- The block X of a step, a domain and an index (R642). -/
def genBlock (step domain idx : Nat) : Nat := step % 2 ^ 64 + (domain % 16) * 2 ^ 64 + (idx % 2 ^ 60) * 2 ^ 68

/-- The draw of 16 bits of domains 0x1 and 0x2 (R164, R643). -/
def drawRound (seed step domain logical stream iter e : Nat) : Nat :=
  let idx := logical % 64 + (stream % 2 ^ 16) * 2 ^ 6 + (iter % 2 ^ 12) * 2 ^ 22 + (e / 8) * 2 ^ 34
  bits (gen seed (genBlock step domain idx)) (16 * (e % 8)) 16

/-- The draw of domain 0x3: bit of block b of an injector (R300, R643). -/
def drawPrbs (seed step inj b : Nat) : Nat :=
  bits (gen seed (genBlock step 3 (inj % 32 + (b / 128) * 2 ^ 5))) (b % 128) 1

/-- The draw of domain 0x4: the dither of a phase-cut channel (R367, R643). -/
def drawDither (seed step ch c : Nat) : Nat :=
  bits (gen seed (genBlock step 4 (ch % 8 + (c / 8) * 2 ^ 3))) (16 * (c % 8)) 16

/-- The run seed (R642). -/
def State.runSeed (s : State) : Nat :=
  s.rd (R.RP_SEED_SEED 0) + s.rd (R.RP_SEED_SEED 1) * 2 ^ 32 + s.rd (R.RP_SEED_SEED 2) * 2 ^ 64 + s.rd (R.RP_SEED_SEED 3) * 2 ^ 96

/-! ### CRCs -/

/-- One byte into a CRC of width w that shifts left, with its polynomial. -/
def crcLeftByte (w poly crc byte : Nat) : Nat :=
  (List.range 8).foldl (fun c _ => if c.testBit (w - 1) then ((c * 2) % 2 ^ w) ^^^ poly else (c * 2) % 2 ^ w)
    (crc ^^^ byte * 2 ^ (w - 8))

/-- A left-shifting CRC of bytes. -/
def crcLeft (w poly init : Nat) (l : List Nat) : Nat := l.foldl (crcLeftByte w poly) init

/-- One byte into a reflected CRC. -/
def crcRightByte (poly crc byte : Nat) : Nat :=
  (List.range 8).foldl (fun c _ => if c % 2 = 1 then (c / 2) ^^^ poly else c / 2) (crc ^^^ byte)

/-- The CRC-32 of IEEE 802.3. -/
def crc32 (l : List Nat) : Nat := (l.foldl (crcRightByte 0xEDB88320) 0xFFFFFFFF) ^^^ 0xFFFFFFFF

/-- The CRC-64 of R650. -/
def crc64 (l : List Nat) : Nat := crcLeft 64 0x42F0E1EBA9EA3693 0 l

/-! ### Fingerprint (R639 to R641) -/

/-- Enabled tile positions. -/
def State.tilesOn (s : State) : List Nat := (List.range 64).filter s.tileOn

/-- Logical index of a position. -/
def State.logical (s : State) (t : Nat) : Nat := s.rd (R.TILE_LOGICAL_LOGICAL t)

/-- The fingerprint word (R639). -/
def State.fpWord (s : State) : Nat :=
  s.rd R.GLOBAL_ID_STEPPING + s.rd R.RP_CTRL_DECL * 2 ^ 4 + s.rd R.GLOBAL_MODE_REPRO * 2 ^ 11 + 2 * 2 ^ 12 +
    s.rd R.WW_FWVER_FWVER * 2 ^ 20

/-- The placement hash (R640). -/
def State.placeHash (s : State) : Nat :=
  if s.on R.GLOBAL_MODE_REPRO then
    crc32 ((List.range (s.rd R.RP_CTRL_DECL)).map fun i => (s.tilesOn.find? fun t => s.logical t == i).getD 0xFF)
  else crc32 ((leBytes 8 (s.rd R.ID_TILE_MAP_LO_TILE_MAP + s.rd R.ID_TILE_MAP_HI_TILE_MAP * 2 ^ 32)).map fun b => b.toNat)

/-- A write of GLOBAL_MODE (R633). -/
def State.writeRepro (s : State) (v : Nat) : State :=
  if v = 1 ∧ (s.rd R.RP_CTRL_DECL = 0 ∨ s.tilesOn.length < s.rd R.RP_CTRL_DECL) then s.wr R.RP_STAT_REPRO_REJ 1
  else s.wr R.GLOBAL_MODE_REPRO v

/-! ### Signatures (R650) -/

/-- Cut a run of bytes at its aligned 8-byte pieces: address of the piece, mask, bytes. -/
def pieces : Nat → Nat → List Byte → List (Nat × Nat × List Byte)
  | 0, _, _ => []
  | _, _, [] => []
  | fuel + 1, a, b :: t =>
    let k := min (8 - a % 8) (t.length + 1)
    let l := (b :: t).take k
    (a - a % 8, (2 ^ k - 1) * 2 ^ (a % 8), List.replicate (a % 8) 0 ++ l ++ List.replicate (8 - a % 8 - k) 0) ::
      pieces fuel (a + k) ((b :: t).drop k)

/-- The term of one piece (R650). -/
def sigTerm (p : Nat × Nat × List Byte) : Nat :=
  crc64 ((leBytes 6 (p.1 % 2 ^ 48)).map (·.toNat) ++ [p.2.1, 0] ++ p.2.2.map (·.toNat))

/-- Change the signature of a tile and step, made if it is not there. -/
def sigUpd (tile step : Nat) (f : StepSig → StepSig) : List StepSig → List StepSig
  | [] => [f { tile := tile, step := step }]
  | x :: t => if x.tile = tile ∧ x.step = step then f x :: t else x :: sigUpd tile step f t

/-- One request of a tile engine writes bytes: its pieces enter the signature of the row's step. -/
def State.sign (s : State) (tile step row a : Nat) (data : List Byte) : State :=
  if s.rd R.RP_CTRL_DECL ≤ s.logical tile then s else
    let n := (pieces 64 a data).foldl (fun x p => (x + sigTerm p) % 2 ^ 64) 0
    { s with sigs := sigUpd tile step (fun x =>
        { x with sum := (x.sum + n) % 2 ^ 64, rows := tset 0 x.rows row ((tget 0 x.rows row + n) % 2 ^ 64) }) s.sigs }

/-- An iteration attributed to a step is in flight on a tile (R651). -/
def State.inFlight (s : State) (tile step : Nat) : Bool :=
  (List.range 16).any fun c =>
    s.ctxState tile c == 2 && (s.ctx tile c).step == step && ((s.ctx tile c).exec || s.rd (R.CTX_PC_ITER (win tile) c) != 0)

/-- A divergence or a missing signature is recorded (R653, R654). -/
def State.lsRecord (s : State) (missing : Bool) (step logical phys row diff : Nat) : State :=
  let rep := s.on R.LS_CTRL_SAFE_REP
  let s1 := s.reportIf rep (if missing then 0x0E else 0x0D) 0
  if s1.on R.LS_WHERE_VALID then (if missing then s1.wr R.LS_STAT_MISSING 1 else s1.count R.LS_STAT_LS_DIVS 1)
  else
    { (s1.wrAll [(if missing then R.LS_STAT_MISSING else R.LS_STAT_DIVERGED, 1), (R.LS_STEP_LO_STEP, step), (R.LS_WHERE_LOGICAL, logical),
        (R.LS_WHERE_PHYS, phys), (R.LS_WHERE_ROW, row), (R.LS_WHERE_DIFF_ROWS, min diff 511), (R.LS_WHERE_VALID, 1)]) with
      lsStepHi := step / 2 ^ 32 }

/-- Drop a signature. -/
def State.sigDrop (s : State) (tile step : Nat) : State :=
  { s with sigs := s.sigs.filter fun x => !(x.tile == tile && x.step == step) }

end Sys2Proof.Machine
end

