-- ==== Sys2Proof/Machine/TileCore.lean ====
section
/-! DEFINITION. The multiply-accumulate array and the vector unit of a tile: parameter blocks, operand
addresses, arithmetic, conversion, flags, poison (spec/05_tensor_tiles.md). -/

namespace Sys2Proof.Machine

/-! ### Requests of a tile engine to its own store -/

/-- First address of a tile store. -/
def storeBase (t : Nat) : Nat := 0x20000000 + 0x200000 * t

/-- Cut a run at its 64-byte lines (R115). -/
def lines64 : Nat → Nat → Nat → List (Nat × Nat)
  | 0, _, _ => []
  | fuel + 1, a, n => if n = 0 then [] else let k := min n (64 - a % 64); (a, k) :: lines64 fuel (a + k) (n - k)

/-- The worse of two ends of requests: the earlier refusal, else POISON, else OK. -/
def worse (a b : Status) : Status := if a = .ok then b else if a = .poison ∧ b ≠ .ok then b else a

/-- Read pieces of the store, in order. -/
def State.engReads (s : State) (t : Nat) (w : Who) : List (Nat × Nat) → State × Status × List Byte
  | [] => (s, .ok, [])
  | (a, n) :: rest =>
    let r := if s.fwAllows t a n w false then s.readMem t a n w else (s.fwRefuse t a w false, .firewall, [])
    let l := if r.2.1 = .ok then r.2.2 else List.replicate n 0
    let q := r.1.engReads t w rest
    (q.1, worse r.2.1 q.2.1, l ++ q.2.2)

/-- Read a run of the store at an offset. -/
def State.engRead (s : State) (t : Nat) (w : Who) (ofs n : Nat) : State × Status × List Byte :=
  s.engReads t w (lines64 (n / 64 + 2) (storeBase t + ofs) n)

/-- Read several runs. -/
def State.engReadRows (s : State) (t : Nat) (w : Who) : List (Nat × Nat) → State × Status × List (List Byte)
  | [] => (s, .ok, [])
  | (o, n) :: rest =>
    let r := s.engRead t w o n
    let q := r.1.engReadRows t w rest
    (q.1, worse r.2.1 q.2.1, r.2.2 :: q.2.2)

/-- Write pieces of the store, each signed for the row's step (R650). -/
def State.engWrites (s : State) (t : Nat) (w : Who) (step row : Nat) : List (Nat × Nat) → List Byte → State × Status
  | [], _ => (s, .ok)
  | (a, n) :: rest, l =>
    let r :=
      if s.fwAllows t a n w true then
        let q := s.writeMem t a (l.take n) w
        (q.1.sign t step row a (l.take n), q.2)
      else (s.fwRefuse t a w true, .firewall)
    let q := r.1.engWrites t w step row rest (l.drop n)
    (q.1, worse r.2 q.2)

/-- Write runs of the store. -/
def State.engWriteRows (s : State) (t : Nat) (w : Who) (step row : Nat) : List (Nat × List Byte) → State × Status
  | [] => (s, .ok)
  | (o, l) :: rest =>
    let r := s.engWrites t w step row (lines64 (l.length / 64 + 2) (storeBase t + o) l.length) l
    let q := r.1.engWriteRows t w step row rest
    (q.1, worse r.2 q.2)

/-- Stored poison over every word of the runs (R178). -/
def State.poisonRows (s : State) (t : Nat) (rows : List (Nat × Nat)) : State :=
  rows.foldl (fun s r => s.poisonMem t (storeBase t + r.1) r.2) s

/-! ### Elements -/

/-- Bytes of n elements of a code that start on a byte boundary. -/
def elemBytes (code n : Nat) : Nat := (n * fmtBits code + 7) / 8

/-- Element l of a run (R155). -/
def elemAt (code : Nat) (l : List Byte) (i : Nat) : Nat :=
  if code = 2 then bits ((l.getD (i / 2) 0).toNat) (4 * (i % 2)) 4
  else let k := fmtBits code / 8; leNat ((l.drop (k * i)).take k)

/-- Bytes of a run of elements (R155). -/
def packElems (code : Nat) : List Nat → List Byte
  | [] => []
  | [a] => if code = 2 then [BitVec.ofNat 8 (a % 16)] else leBytes (fmtBits code / 8) a
  | a :: b :: t =>
    if code = 2 then BitVec.ofNat 8 (a % 16 + 16 * (b % 16)) :: packElems code t
    else leBytes (fmtBits code / 8) a ++ packElems code (b :: t)

/-- The integer an element of an integer format is. -/
def intElem (code x : Nat) : Int :=
  match intFmt code with
  | some (true, w) => sx w x
  | _ => (x : Int)

/-- The value an element of a floating-point format is. -/
def fpElem (code x : Nat) : Fp :=
  match fmtOf code with
  | some f => f.decode x
  | none => .nan

/-- Lowest and highest value of an integer format. -/
def intRange (code : Nat) : Int × Int :=
  match intFmt code with
  | some (true, w) => (-((2 ^ (w - 1) : Nat) : Int), ((2 ^ (w - 1) : Nat) : Int) - 1)
  | some (false, w) => (0, ((2 ^ w : Nat) : Int) - 1)
  | none => (0, 0)

/-- Clamp to an integer format, with SAT_INT. -/
def clampTo (code : Nat) (i : Int) : Nat × Nat :=
  let r := intRange code
  let c := clampI r.1 r.2 i
  (ux (fmtBits code) c, if c = i then 0 else flSatInt)

/-! ### Parameter blocks -/

/-- Base of an operand in an iteration (R158). -/
def baseOf (addr : Nat) (istride : Int) (i : Nat) : Int := (addr : Int) + (i : Int) * istride

/-- A run of n bytes at an integer offset lies in the store. -/
def inStore (o : Int) (n : Nat) : Bool := decide (0 ≤ o) && decide (o + n ≤ 0x200000)

/-- Offsets of rows at a base and a stride. -/
def rowOffsets (base : Int) (stride n : Nat) : List Int := (List.range n).map fun r => base + ((r * stride : Nat) : Int)

/-- The parameter block of the row, read at iteration 0 (R156): the state, its end, the block. -/
def State.paramBlock (s : State) (t c : Nat) (w : Who) : State × Status × List Byte :=
  let x := s.ctx t c
  if x.param ≠ [] then (s, .ok, x.param)
  else
    let r := s.engRead t w (bits (rowPayload x.row) 6 15 * 64) 64
    (if r.2.1 = .ok then r.1.setCtx t c { r.1.ctx t c with param := r.2.2 } else r.1, r.2)

/-- The engine of a unit reports an iteration done, with a status and an outcome (R90). -/
def State.report_ (s : State) (u c : Nat) (st : Status) (outcome : Nat) : State :=
  s.setCtx u c { s.ctx u c with result := some (st, outcome) }

/-- Flags raised by a row: sticky, the first row logged (R177). -/
def State.raise (s : State) (t c : Nat) (vec : Bool) (fl : Nat) : State :=
  if fl = 0 then s else
    let s1 := ((((s.flag (bit fl 0) (R.TILE_FLAGS_INVALID t)).flag (bit fl 1) (R.TILE_FLAGS_DIVZERO t)).flag (bit fl 2) (R.TILE_FLAGS_OVERFLOW t)).flag
      (bit fl 3) (R.TILE_FLAGS_UNDERFLOW t)).flag (bit fl 4) (R.TILE_FLAGS_SAT_INT t)
    if s1.on (R.TILE_FLAG_LOG_VALID t) then s1
    else s1.wrAll [(R.TILE_FLAG_LOG_CONTEXT t, c), (R.TILE_FLAG_LOG_ROW t, s.rd (R.CTX_PC_PC (win t) c)), (R.TILE_FLAG_LOG_ENGINE t, b2n vec),
      (R.TILE_FLAG_LOG_ITER t, s.rd (R.CTX_PC_ITER (win t) c)), (R.TILE_FLAG_LOG_VALID t, 1)]

/-- A context whose latched row of engine e and operation op is in execution and not yet done. -/
def State.runs (s : State) (u c e op : Nat) : Bool :=
  let x := s.ctx u c
  s.ctxState u c == 2 && x.exec && x.result.isNone && rowEngine x.row == e && rowOp x.row == op

/-! ### MMA (R156 to R165) -/

/-- The fields of an MMA block. -/
structure MmaBlk where
  m : Nat
  n : Nat
  k : Nat
  fa : Nat
  fb : Nat
  fd : Nat
  acc : Bool
  transB : Bool
  sat : Bool
  sr : Bool
  stream : Nat
  a : Int
  b : Int
  c : Int
  d : Int
  sa : Nat
  sb : Nat
  sc : Nat
  sd : Nat
  deriving DecidableEq, Repr

/-- The block of an iteration (R157, R158). -/
def mmaBlk (l : List Byte) (i : Nat) : MmaBlk :=
  let dims := pb l 32 4
  let mode := pb l 36 4
  { m := bits dims 0 5 + 1, n := bits dims 5 6 + 1, k := bits dims 16 16 + 1, fa := bits mode 0 4, fb := bits mode 4 4, fd := bits mode 8 4,
    acc := bit mode 12, transB := bit mode 13, sat := bit mode 14, sr := bit mode 15, stream := bits mode 16 16,
    a := baseOf (pb l 0 4) (pbS l 40 4) i, b := baseOf (pb l 4 4) (pbS l 44 4) i, c := baseOf (pb l 8 4) (pbS l 48 4) i,
    d := baseOf (pb l 12 4) (pbS l 52 4) i, sa := pb l 16 4, sb := pb l 20 4, sc := pb l 24 4, sd := pb l 28 4 }

/-- The pair of source formats is integer. -/
def MmaBlk.isInt (b : MmaBlk) : Bool := b.fa ≤ 2

/-- A block is valid (R159). C_ADDR is ignored when ACC is 0. -/
def mmaValid (l : List Byte) : Bool :=
  let b := mmaBlk l 0
  let pair := (b.fa ≤ 1 && b.fb ≤ 1) || (b.fa == 2 && b.fb == 2) || ((b.fa == 6 || b.fa == 7) && (b.fb == 6 || b.fb == 7)) ||
    (b.fa == 8 && b.fb == 8) || (b.fa == 9 && b.fb == 9)
  let dOk := if b.isInt then b.fd == 5 else 6 ≤ b.fd && b.fd ≤ 10
  pair && dOk && (b.fa != 2 || b.k % 2 == 0) &&
    ([0, 4, 12, 16, 20, 24, 28, 40, 44, 48, 52].all fun o => pb l o 4 % 64 == 0) && (!b.acc || pb l 8 4 % 64 == 0) &&
    decide (b.n * (fmtBits b.fd / 8) ≤ b.sd) && bits (pb l 32 4) 11 5 == 0 && pb l 56 8 == 0

/-- Runs of the operands: A, B, C, D as offsets and lengths. -/
def MmaBlk.runsA (b : MmaBlk) : List (Int × Nat) := (rowOffsets b.a b.sa b.m).map fun o => (o, elemBytes b.fa b.k)
def MmaBlk.runsB (b : MmaBlk) : List (Int × Nat) :=
  if b.transB then (rowOffsets b.b b.sb b.n).map fun o => (o, elemBytes b.fb b.k)
  else (rowOffsets b.b b.sb b.k).map fun o => (o, elemBytes b.fb b.n)
def MmaBlk.runsC (b : MmaBlk) : List (Int × Nat) := if b.acc then (rowOffsets b.c b.sc b.m).map fun o => (o, 4 * b.n) else []
def MmaBlk.runsD (b : MmaBlk) : List (Int × Nat) := (rowOffsets b.d b.sd b.m).map fun o => (o, elemBytes b.fd b.n)

/-- Runs as offsets in the store. -/
def natRuns (l : List (Int × Nat)) : List (Nat × Nat) := l.map fun r => (r.1.toNat, r.2)

/-- All runs lie in the store. -/
def runsOk (l : List (Int × Nat)) : Bool := l.all fun r => inStore r.1 r.2

/-- The integer chain of one cell (R160). -/
def macInt (a b : List Int) (acc : Int) : Int := (List.zipWith (· * ·) a b).foldl (· + ·) acc

/-- The floating-point chain of one cell, strictly in increasing k (R161). -/
def macFp : List Fp → List Fp → Fp × Nat → Fp × Nat
  | a :: as, b :: bs, (c, fl) => let r := fma32 a b c; macFp as bs (r.1, fl ||| r.2)
  | _, _, r => r

/-- Element B[k][n] of the rows read. -/
def MmaBlk.bElem (b : MmaBlk) (rows : List (List Byte)) (k n : Nat) : Nat :=
  if b.transB then elemAt b.fb (rows.getD n []) k else elemAt b.fb (rows.getD k []) n

/-- One element of D (R160 to R164). -/
def MmaBlk.cell (b : MmaBlk) (ra rb rc : List (List Byte)) (draw : Nat → Nat) (m n : Nat) : Nat × Nat :=
  let ks := List.range b.k
  let av := ks.map fun k => elemAt b.fa (ra.getD m []) k
  let bv := ks.map fun k => b.bElem rb k n
  let cv := elemAt 10 (rc.getD m []) n
  if b.isInt then
    clampTo 5 (macInt (av.map (intElem b.fa)) (bv.map (intElem b.fb)) (if b.acc then sx 32 cv else 0))
  else
    let r := macFp (av.map (fpElem b.fa)) (bv.map (fpElem b.fb)) (if b.acc then fp32.decode cv else .fin false 0 0, 0)
    match fmtOf b.fd with
    | some f =>
      let q := if b.fd = 10 then (to32 r.1, 0) else f.convert b.sat (if b.sr then some (draw (m * b.n + n)) else none) r.1
      (q.1, r.2 ||| q.2)
    | none => (0, r.2)

/-- The tile cycles of an MMA iteration (R165). -/
def MmaBlk.cycles (b : MmaBlk) : Nat :=
  24 + (if b.fa = 2 then b.k / 2 else if b.fa = 8 ∨ b.fa = 9 then 2 * b.k else b.k)

/-- One MMA iteration (R156 to R165, R177, R178). -/
def State.mma (s : State) (t c : Nat) : State :=
  let row := (s.ctx t c).row
  let w := s.rowWho t c (rowClass row)
  let it := s.rd (R.CTX_PC_ITER (win t) c)
  let p := s.paramBlock t c w
  if p.2.1 ≠ .ok then p.1.report_ t c p.2.1 0
  else
    let b := mmaBlk p.2.2 it
    if !mmaValid p.2.2 || !runsOk b.runsA || !runsOk b.runsB || !runsOk b.runsC || !runsOk b.runsD then p.1.report_ t c .nackAbsent 0
    else
      let ra := p.1.engReadRows t w (natRuns b.runsA)
      let rb := ra.1.engReadRows t w (natRuns b.runsB)
      let rc := rb.1.engReadRows t w (natRuns b.runsC)
      let st := worse ra.2.1 (worse rb.2.1 rc.2.1)
      let busy := rc.1.setTile t { rc.1.tile t with macBusy := satAdd 64 (rc.1.tile t).macBusy b.cycles }
      if st = .poison then (busy.poisonRows t (natRuns b.runsD)).report_ t c .poison 0
      else if st ≠ .ok then busy.report_ t c st 0
      else
        let x := s.ctx t c
        let draw := drawRound x.seed x.step 1 (s.logical t) b.stream it
        let cells := (List.range b.m).map fun m => (List.range b.n).map fun n => b.cell ra.2.2 rb.2.2 rc.2.2 draw m n
        let fl := cells.foldl (fun a r => r.foldl (fun a e => a ||| e.2) a) 0
        let d := List.zipWith (fun r e => (r.1, packElems b.fd (e.map fun q => q.1))) (natRuns b.runsD) cells
        let wr := (busy.raise t c false fl).engWriteRows t w x.step (s.rd (R.CTX_PC_PC (win t) c)) d
        wr.1.report_ t c wr.2 0

/-! ### VEC (R166 to R176) -/

/-- The fields of a VEC block. -/
structure VecBlk where
  l : Nat
  rows : Nat
  fa : Nat
  fb : Nat
  fc : Nat
  fd : Nat
  int : Bool
  bmode : Nat
  sat : Bool
  sr : Bool
  outEn : Bool
  stream : Nat
  thr : Nat
  imm : Nat
  rqMult : Int
  rqShift : Nat
  rqZp : Int
  a : Int
  b : Int
  c : Int
  d : Int
  sa : Nat
  sb : Nat
  sc : Nat
  sd : Nat
  deriving DecidableEq, Repr

/-- The block of an iteration (R167). -/
def vecBlk (l : List Byte) (i : Nat) : VecBlk :=
  let dims := pb l 32 4
  let mode := pb l 36 4
  let bm := bits mode 17 2
  { l := bits dims 0 12 + 1, rows := bits dims 12 16 + 1, fa := bits mode 0 4, fb := bits mode 4 4, fc := bits mode 8 4,
    fd := bits mode 12 4, int := bit mode 16, bmode := bm, sat := bit mode 19, sr := bit mode 20, outEn := bit mode 21,
    stream := pb l 40 2, thr := pb l 42 2, imm := pb l 44 4, rqMult := pbS l 48 4, rqShift := pb l 52 1, rqZp := pbS l 54 2,
    a := baseOf (pb l 0 4) (pbS l 56 4) i, b := baseOf (pb l 4 4) (if bm = 0 then pbS l 56 4 else 0) i,
    c := baseOf (pb l 8 4) (pbS l 56 4) i, d := baseOf (pb l 12 4) (pbS l 60 4) i,
    sa := pb l 16 4, sb := pb l 20 4, sc := pb l 24 4, sd := pb l 28 4 }

/-- The operation uses b from memory, under the block's BMODE. -/
def VecBlk.usesB (b : VecBlk) (op : Nat) : Bool :=
  if op = 0xA then b.bmode == 2
  else (op ≤ 6 || op == 0xB || op == 0xC || op == 0xD || 0x14 ≤ op) && b.bmode != 1

/-- The operation uses c. -/
def vecUsesC (op : Nat) : Bool := op == 4 || op == 0xD

/-- NUM values an operation accepts (R166). -/
def vecNumOk (op : Nat) (int : Bool) : Bool :=
  if op = 4 ∨ (0xE ≤ op ∧ op ≤ 0x11) then !int
  else if op = 0xA ∨ 0x14 ≤ op then int else true

/-- A reserved format code (R153). -/
def fmtReserved (f : Nat) : Bool := 10 < f

/-- A floating-point format code. -/
def fmtIsFp (f : Nat) : Bool := 6 ≤ f && f ≤ 10

/-- An address or stride is a multiple of the element size of a format. -/
def aligned (f v : Nat) : Bool := f == 2 || v % (fmtBits f / 8) == 0

/-- A block is valid for an operation (R168). -/
def vecValid (op : Nat) (l : List Byte) : Bool :=
  let b := vecBlk l 0
  let ub := b.usesB op
  let uc := vecUsesC op
  let si := pb l 56 4
  !fmtReserved b.fa && !fmtReserved b.fd && (!ub || !fmtReserved b.fb) && (!uc || !fmtReserved b.fc) && vecNumOk op b.int &&
    (!b.int || (!fmtIsFp b.fa && (!ub || !fmtIsFp b.fb) && (!uc || !fmtIsFp b.fc))) &&
    (op != 0xA || (!fmtIsFp b.fa && !fmtIsFp b.fd && b.rqShift != 0 && b.rqShift ≤ 63)) &&
    (b.fd != 2 || b.l % 2 == 0) &&
    aligned b.fa (pb l 0 4) && aligned b.fa b.sa && aligned b.fa si && aligned b.fd (pb l 12 4) && aligned b.fd b.sd &&
    aligned b.fd (pb l 60 4) && (!ub || (aligned b.fb (pb l 4 4) && (b.bmode == 2 || aligned b.fb b.sb) && (b.bmode != 0 || aligned b.fb si))) &&
    (!uc || (aligned b.fc (pb l 8 4) && aligned b.fc b.sc && aligned b.fc si)) &&
    bits (pb l 32 4) 28 4 == 0 && bits (pb l 36 4) 22 10 == 0 && pb l 53 1 == 0

/-- An operation reduces rows. -/
def vecReduces (op : Nat) : Bool := op == 0x12 || op == 0x13

def VecBlk.runsA (b : VecBlk) : List (Int × Nat) := (rowOffsets b.a b.sa b.rows).map fun o => (o, elemBytes b.fa b.l)
def VecBlk.runsB (b : VecBlk) (op : Nat) : List (Int × Nat) :=
  if !b.usesB op then []
  else if b.bmode = 2 then [(b.b, elemBytes b.fb b.l)]
  else if b.bmode = 3 then (rowOffsets b.b b.sb b.rows).map fun o => (o, elemBytes b.fb 1)
  else (rowOffsets b.b b.sb b.rows).map fun o => (o, elemBytes b.fb b.l)
def VecBlk.runsC (b : VecBlk) (op : Nat) : List (Int × Nat) :=
  if vecUsesC op then (rowOffsets b.c b.sc b.rows).map fun o => (o, elemBytes b.fc b.l) else []
def VecBlk.runsD (b : VecBlk) (op : Nat) : List (Int × Nat) :=
  (rowOffsets b.d b.sd b.rows).map fun o => (o, elemBytes b.fd (if vecReduces op then 1 else b.l))

/-- A value of the row's numeric type. -/
inductive VNum where
  | fp (x : Fp)
  | int (i : Int)
  deriving DecidableEq, Repr

/-- An element converted to NUM (R169). -/
def loadNum (int : Bool) (code x : Nat) : VNum :=
  if fmtIsFp code then .fp (fpElem code x)
  else if int then .int (sx 32 (ux 32 (intElem code x))) else .fp (intTo32 (intElem code x))

/-- Wrap to INT32, or clamp under SAT with SAT_INT (R171). -/
def wrapI (sat : Bool) (i : Int) : Int × Nat :=
  if sat then let c := satS 32 i; (c, if c = i then 0 else flSatInt) else (sx 32 (ux 32 i), 0)

/-- Logical and shift operations on INT32 (R166). -/
def bitOp (op : Nat) (a b : Int) : Int :=
  if op = 0x14 then
    (if 32 ≤ b then 0 else if 0 ≤ b then sx 32 (ux 32 (a * ((2 ^ b.toNat : Nat) : Int)))
     else if b ≤ -32 then (if a < 0 then -1 else 0) else asr a (-b).toNat)
  else if op = 0x15 then sx 32 (ux 32 a &&& ux 32 b)
  else if op = 0x16 then sx 32 (ux 32 a ||| ux 32 b)
  else sx 32 (ux 32 a ^^^ ux 32 b)

/-- One element operation with NUM = FP32 (R170). -/
def opFp (op : Nat) (a b c : Fp) : VNum × Nat :=
  let f (r : Fp × Nat) : VNum × Nat := (.fp r.1, r.2)
  if op = 1 then f (fpAdd a b) else if op = 2 then f (fpSub a b) else if op = 3 then f (fpMul a b)
  else if op = 4 then f (fma32 a b c)
  else if op = 5 then (.fp (fpMax a b), 0) else if op = 6 then (.fp (fpMin a b), 0)
  else if op = 7 then (.fp (fpAbs a), 0) else if op = 8 then (.fp (fpNeg a), 0)
  else if op = 0xB then (.int (if a ≠ .nan ∧ b ≠ .nan ∧ 0 < fpCmp a b then 1 else 0), 0)
  else if op = 0xC then (.int (if a ≠ .nan ∧ b ≠ .nan ∧ fpCmp a b = 0 then 1 else 0), 0)
  else if op = 0xE then f (fpRecip a) else if op = 0xF then f (fpRsqrt a)
  else if op = 0x10 then f (fpExp2 a) else if op = 0x11 then f (fpLog2 a)
  else (.fp a, 0)

/-- One element operation with NUM = INT32 (R171). -/
def opInt (op : Nat) (sat : Bool) (a b : Int) : VNum × Nat :=
  let f (r : Int × Nat) : VNum × Nat := (.int r.1, r.2)
  if op = 1 then f (wrapI sat (a + b)) else if op = 2 then f (wrapI sat (a - b)) else if op = 3 then f (wrapI sat (a * b))
  else if op = 5 then (.int (max a b), 0) else if op = 6 then (.int (min a b), 0)
  else if op = 7 then f (wrapI sat (if a < 0 then -a else a)) else if op = 8 then f (wrapI sat (-a))
  else if op = 0xB then (.int (if b < a then 1 else 0), 0)
  else if op = 0xC then (.int (if a = b then 1 else 0), 0)
  else if 0x14 ≤ op then (.int (bitOp op a b), 0)
  else (.int a, 0)

/-- One element operation. -/
def opNum (op : Nat) (sat : Bool) (a b c : VNum) : VNum × Nat :=
  match a, b, c with
  | .fp x, .fp y, .fp z => opFp op x y z
  | .int x, .int y, _ => opInt op sat x y
  | .fp x, .fp y, .int _ => opFp op x y .nan
  | x, _, _ => (x, 0)

/-- REQUANT of one element (R173). -/
def requant (code : Nat) (a mult : Int) (shift : Nat) (zp : Int) : Nat × Nat :=
  clampTo code (asr (a * mult + ((2 ^ (shift - 1) : Nat) : Int)) shift + zp)

/-- A result converted to D (R174). -/
def storeNum (code : Nat) (sat : Bool) (u : Option Nat) (x : VNum) : Nat × Nat :=
  match fmtOf code, x with
  | some f, .fp v => if code = 10 then (to32 v, 0) else f.convert sat u v
  | some f, .int i => f.convert sat u (fpOfInt i)
  | none, .int i => if sat then clampTo code i else (ux (fmtBits code) i, 0)
  | none, .fp v =>
    match fpToInt (2 ^ 40) v with
    | some i => clampTo code i
    | none => (0, flInvalid)

/-- Whether a conversion to D draws under SR (R163, R174). -/
def drawsSr (code : Nat) : Bool := fmtIsFp code

/-- One level of a reduction tree (R172). -/
def reduceLevel (f : VNum → VNum → VNum × Nat) : List VNum → List VNum × Nat
  | a :: b :: t => let r := f a b; let q := reduceLevel f t; (r.1 :: q.1, r.2 ||| q.2)
  | l => (l, 0)

/-- A reduction by levels (R172). -/
def reduceTree (f : VNum → VNum → VNum × Nat) : Nat → List VNum → Nat → VNum × Nat
  | 0, l, fl => (l.headD (.int 0), fl)
  | n + 1, l, fl =>
    if l.length ≤ 1 then (l.headD (.int 0), fl) else let r := reduceLevel f l; reduceTree f n r.1 (fl ||| r.2)

/-- The smallest power of two not below n. -/
def pow2Up (n : Nat) : Nat := if n ≤ 1 then 1 else 2 ^ (Nat.log2 (n - 1) + 1)

/-- RSUM or RMAX of one row (R172). -/
def reduceRow (op : Nat) (int sat : Bool) (l : List VNum) : VNum × Nat :=
  let pad : VNum :=
    if int then .int (if op = 0x12 then 0 else -2147483648)
    else .fp (if op = 0x12 then .fin false 0 0 else .inf true)
  let row := l ++ List.replicate (pow2Up l.length - l.length) pad
  reduceTree (fun a b => opNum (if op = 0x12 then 1 else 5) sat a b a) 13 row 0

/-- b of element (r, l) (R167). -/
def VecBlk.bNum (b : VecBlk) (op : Nat) (rb : List (List Byte)) (r l : Nat) : VNum :=
  if !b.usesB op then (if b.int then .int (sx 32 b.imm) else .fp (fp32.decode b.imm))
  else if b.bmode = 2 then loadNum b.int b.fb (elemAt b.fb (rb.getD 0 []) l)
  else if b.bmode = 3 then loadNum b.int b.fb (elemAt b.fb (rb.getD r []) 0)
  else loadNum b.int b.fb (elemAt b.fb (rb.getD r []) l)

/-- c of element (r, l) as NUM. -/
def VecBlk.cNum (b : VecBlk) (rc : List (List Byte)) (r l : Nat) : VNum :=
  if rc = [] then (if b.int then .int 0 else .fp .nan) else loadNum b.int b.fc (elemAt b.fc (rc.getD r []) l)

/-- The INT32 that an integer VNum is. -/
def VNum.toI : VNum → Int
  | .int i => i
  | .fp _ => 0

/-- One element of D of an operation that does not reduce. -/
def VecBlk.elem (b : VecBlk) (op : Nat) (ra rb rc : List (List Byte)) (draw : Nat → Nat) (r l : Nat) : Nat × Nat :=
  let a := loadNum b.int b.fa (elemAt b.fa (ra.getD r []) l)
  let u := if b.sr ∧ drawsSr b.fd then some (draw (r * b.l + l)) else none
  if op = 0xA then
    requant b.fd a.toI (if b.bmode = 2 then (b.bNum op rb r l).toI else b.rqMult) b.rqShift b.rqZp
  else if op = 0xD then
    storeNum b.fd b.sat u (if elemAt b.fc (rc.getD r []) l ≠ 0 then
      (match a with | .fp .nan => .fp .nan | x => x) else b.bNum op rb r l)
  else
    let x := opNum op b.sat a (b.bNum op rb r l) (b.cNum rc r l)
    let y := storeNum b.fd b.sat u x.1
    (y.1, x.2 ||| y.2)

/-- One result of a reduction. -/
def VecBlk.reduced (b : VecBlk) (op : Nat) (ra : List (List Byte)) (draw : Nat → Nat) (r : Nat) : Nat × Nat :=
  let x := reduceRow op b.int b.sat ((List.range b.l).map fun l => loadNum b.int b.fa (elemAt b.fa (ra.getD r []) l))
  let y := storeNum b.fd b.sat (if b.sr ∧ drawsSr b.fd then some (draw (r * b.l)) else none) x.1
  (y.1, x.2 ||| y.2)

/-- An element written is nonzero (R175): both zeros count as zero. -/
def nonZeroElem (code x : Nat) : Bool :=
  if fmtIsFp code then x % 2 ^ (fmtBits code - 1) != 0 else x != 0

/-- The tile cycles of a VEC iteration (R176). -/
def VecBlk.cycles (b : VecBlk) (op : Nat) : Nat :=
  let k := if 0xE ≤ op ∧ op ≤ 0x11 then 16 else 64
  12 + (b.rows * b.l + k - 1) / k

/-- The bytes of the results of a row; an INT4 result of a reduction keeps the other half of its byte. -/
def VecBlk.packRow (b : VecBlk) (op : Nat) (old : Byte) (l : List Nat) : List Byte :=
  if vecReduces op ∧ b.fd = 2 then [BitVec.ofNat 8 (l.headD 0 % 16 + old.toNat / 16 * 16)] else packElems b.fd l

/-- One VEC iteration of an operation (R166 to R178). -/
def State.vec (s : State) (op t c : Nat) : State :=
  let row := (s.ctx t c).row
  let w := s.rowWho t c (rowClass row)
  let it := s.rd (R.CTX_PC_ITER (win t) c)
  let p := s.paramBlock t c w
  if p.2.1 ≠ .ok then p.1.report_ t c p.2.1 0
  else
    let b := vecBlk p.2.2 it
    if !vecValid op p.2.2 || !runsOk b.runsA || !runsOk (b.runsB op) || !runsOk (b.runsC op) || !runsOk (b.runsD op) then
      p.1.report_ t c .nackAbsent 0
    else
      let ra := p.1.engReadRows t w (natRuns b.runsA)
      let rb := ra.1.engReadRows t w (natRuns (b.runsB op))
      let rc := rb.1.engReadRows t w (natRuns (b.runsC op))
      let st := worse ra.2.1 (worse rb.2.1 rc.2.1)
      let busy := rc.1.setTile t { rc.1.tile t with vecBusy := satAdd 64 (rc.1.tile t).vecBusy (b.cycles op) }
      if st = .poison then (busy.poisonRows t (natRuns (b.runsD op))).report_ t c .poison 0
      else if st ≠ .ok then busy.report_ t c st 0
      else
        let x := s.ctx t c
        let draw := drawRound x.seed x.step 2 (s.logical t) b.stream it
        let elems := (List.range b.rows).map fun r =>
          if vecReduces op then [b.reduced op ra.2.2 draw r]
          else (List.range b.l).map fun l => b.elem op ra.2.2 rb.2.2 rc.2.2 draw r l
        let fl := elems.foldl (fun a r => r.foldl (fun a e => a ||| e.2) a) 0
        let d := List.zipWith (fun r e => (r.1, b.packRow op (busy.getByte (storeBase t + r.1)) (e.map fun q => q.1))) (natRuns (b.runsD op)) elems
        let nz := elems.foldl (fun a r => r.foldl (fun a e => if nonZeroElem b.fd e.1 then a + 1 else a) a) 0
        let out := if b.outEn ∧ max 1 b.thr ≤ nz then 1 else 0
        let wr := (busy.raise t c true fl).engWriteRows t w x.step (s.rd (R.CTX_PC_PC (win t) c)) d
        wr.1.report_ t c wr.2 out

end Sys2Proof.Machine
end

