-- ==== Sys2Proof/Machine/ReedCore.lean ====
section
/-! DEFINITION. Reed engines: the model package and its seal, evaluation, the bounds of the outputs,
publication, swap, the port operations on instances (spec/07_reed_observers.md), and the collision
monitors that watch publications (spec/20_safety.md R681). -/

namespace Sys2Proof.Machine

/-- EVAL_CYCLES an instance counts for in the budget (R231). -/
def State.reedCost (s : State) (i : Nat) : Nat :=
  let c (b : ReedBuf) := if b.st = 2 then b.cycles else 0
  max (c (s.reedActive i)) (c (s.reedStandby i))

/-- The budget sum of an engine, without one instance (R231). -/
def State.reedBudget (s : State) (e : Nat) (skip : Option Nat) : Nat :=
  (List.range 12).foldl (fun a k =>
    let i := 12 * e + k
    if s.on (R.REED_INST_CTRL_ENABLE i) && skip != some i then a + s.reedCost i else a) 0

/-! ### The package (R213 to R217, R221) -/

def layOfs (l : List Byte) (k : Nat) : Nat := 64 + 16 * pkgIn l + 32 * pkgOut l + 16 * k
/-- Bytes of header and entries. -/
def tableEnd (l : List Byte) : Nat := layOfs l (pkgLayers l)
def layInW (l : List Byte) (k : Nat) : Nat := pb l (layOfs l k) 1 + 1
def layOutW (l : List Byte) (k : Nat) : Nat := pb l (layOfs l k + 1) 1 + 1
def layWOff (l : List Byte) (k : Nat) : Nat := pb l (layOfs l k + 12) 4
/-- Offset of the biases of a layer (R217). -/
def layBias (l : List Byte) (k : Nat) : Nat := layWOff l k + 64 * ((layOutW l k * layInW l k + 63) / 64)

/-- The activation range (R219). -/
def actRange (l : List Byte) : Int × Int := if pkgAct16 l then (-32768, 32767) else (-128, 127)

/-- EVAL_CYCLES (R221). -/
def evalCycles (l : List Byte) : Nat :=
  14 + (List.range (pkgLayers l)).foldl (fun a k =>
    a + 6 + ((layOutW l k + 15) / 16) * ((layInW l k + 63) / 64) * (if pkgAct16 l then 2 else 1)) 0

/-- Zero bytes at an offset. -/
def zeros (l : List Byte) (o n : Nat) : Bool := pb l o n == 0

/-- The header part of check 0x1 FORMAT. -/
def headFormatOk (l : List Byte) : Bool :=
  pb l 0 4 == 0x44454552 && pb l 4 2 == 1 && 1 ≤ pkgIn l && pkgIn l ≤ 32 && 1 ≤ pkgOut l && pkgOut l ≤ 8 &&
    1 ≤ pkgLayers l && pkgLayers l ≤ 4 && bits (pb l 9 1) 1 7 == 0 && zeros l 10 2 && zeros l 29 35

/-- The entries part of check 0x1 FORMAT: reserved bytes, codes, widths and their chain (R214, R216, R217). -/
def entriesFormatOk (l : List Byte) : Bool :=
  ((List.range (pkgIn l)).all fun i => zeros l (inOfs i + 3) 1) &&
    ((List.range (pkgOut l)).all fun o =>
      pb l (outOfs l o) 1 ≤ 1 && pb l (outOfs l o + 1) 1 ≤ 1 && zeros l (outOfs l o + 2) 2 && zeros l (outOfs l o + 24) 8) &&
    ((List.range (pkgLayers l)).all fun k =>
      layInW l k ≤ 128 && layOutW l k ≤ 128 && zeros l (layOfs l k + 10) 2 &&
        layInW l k == (if k = 0 then pkgIn l else layOutW l (k - 1)) && (k + 1 != pkgLayers l || layOutW l k == pkgOut l))

/-- The sizes part of check 0x2 RANGE. -/
def sizesOk (l : List Byte) : Bool :=
  pkgLen l % 64 == 0 && 128 ≤ pkgLen l && pkgLen l ≤ 262144

/-- The regions part of check 0x2 RANGE. -/
def regionsOk (l : List Byte) : Bool :=
  decide (tableEnd l ≤ pkgLen l) &&
    (List.range (pkgLayers l)).all fun k => layWOff l k % 64 == 0 && decide (layBias l k + 4 * layOutW l k ≤ pkgLen l)

/-- Two spans share a byte. -/
def spansMeet (a n b m : Nat) : Bool := decide (a < b + m) && decide (b < a + n)

/-- The package does not overlap another buffer of the engine sealed or being sealed (R234). -/
def State.sealRoom (s : State) (i ofs len : Nat) : Bool :=
  decide (ofs + len ≤ 0x80000) &&
    (List.range 12).all fun k =>
      let j := 12 * (i / 12) + k
      let free (b : ReedBuf) := b.st == 0 || !spansMeet ofs len b.ofs b.len
      free (s.reedActive j) && (j == i || free (s.reedStandby j))

/-- The CRC of a package (R213). -/
def pkgCrc (l : List Byte) : Nat :=
  crc32 (((l.take 16) ++ List.replicate 4 0 ++ (l.take (pkgLen l)).drop 20).map fun (b : Byte) => b.toNat)

/-- Check 0x4 BOUNDS. -/
def boundsOk (l : List Byte) : Bool :=
  let r := actRange l
  decide (0 ≤ pbS l 24 4) &&
    ((List.range (pkgIn l)).all fun i =>
      let lo := pbS l (inOfs i + 12) 2
      let hi := pbS l (inOfs i + 14) 2
      pb l (inOfs i + 2) 1 ≤ 47 && decide (lo ≤ hi) && decide (r.1 ≤ lo) && decide (hi ≤ r.2)) &&
    ((List.range (pkgOut l)).all fun o =>
      let b := outOfs l o
      decide (pbS l (b + 4) 4 ≤ pbS l (b + 8) 4) && decide (0 ≤ pbS l (b + 12) 4) &&
        (pb l b 1 == 1 || (decide (pbS l (b + 4) 4 ≤ pbS l (b + 16) 4) && decide (pbS l (b + 16) 4 ≤ pbS l (b + 8) 4)))) &&
    (List.range (pkgLayers l)).all fun k =>
      let b := layOfs l k
      pb l (b + 2) 1 ≤ 2 && (k + 1 != pkgLayers l || pb l (b + 2) 1 == 0) && (pb l (b + 2) 1 != 2 || decide (0 < pbS l (b + 8) 2)) &&
        1 ≤ pb l (b + 3) 1 && pb l (b + 3) 1 ≤ 63

/-- Check 0x5 SOURCE (R215). -/
def sourcesOk (l : List Byte) : Bool :=
  (List.range (pkgIn l)).all fun i =>
    let src := pb l (inOfs i) 1
    let arg := pb l (inOfs i + 1) 1
    if src = 0x10 then bits arg 3 4 ≤ 11 && !bit arg 7 else src ≤ 9 && arg == 0

/-- The seven checks of a seal on the bytes read, in order; 0 when all pass (R234). -/
def State.sealCode (s : State) (i ofs : Nat) (l : List Byte) : Nat :=
  if !headFormatOk l then 1
  else if l.length < tableEnd l then 2
  else if !entriesFormatOk l then 1
  else if !sizesOk l || l.length < pkgLen l || !regionsOk l || !s.sealRoom i ofs (pkgLen l) then 2
  else if pkgCrc l ≠ pb l 16 4 then 3
  else if !boundsOk l then 4
  else if !sourcesOk l then 5
  else
    let act := if (s.reedActive i).st = 2 then (s.reedActive i).cycles else 0
    if s.on (R.REED_INST_CTRL_ENABLE i) ∧ 700 < s.reedBudget (i / 12) (some i) + max act (evalCycles l) then 6 else 0

/-! ### Evaluation (R219, R220) -/

/-- The normalised value of an input (R219). -/
def normalise (raw ofs mult : Int) (shift : Nat) : Int :=
  if shift = 0 then (raw - ofs) * mult else asr ((raw - ofs) * mult + ((2 ^ (shift - 1) : Nat) : Int)) shift

/-- One layer (R220). -/
def layer (l : List Byte) (k : Nat) (x : List Int) : List Int :=
  let b := layOfs l k
  let inW := layInW l k
  let last := k + 1 = pkgLayers l
  let act := pb l (b + 2) 1
  let sh := pb l (b + 3) 1
  let r := actRange l
  (List.range (layOutW l k)).map fun o =>
    let w := (List.range inW).map fun i => pbS l (layWOff l k + o * inW + i) 1
    let acc := satS 32 ((List.zipWith (· * ·) w x).foldl (· + ·) (pbS l (layBias l k + 4 * o) 4))
    let y := asr (acc * pbS l (b + 4) 4 + ((2 ^ (sh - 1) : Nat) : Int)) sh
    if last then satS 32 y
    else
      let y := clampI r.1 r.2 y
      if act = 1 then max 0 y else if act = 2 then min (max 0 y) (pbS l (b + 8) 2) else y

/-- raw_out of the outputs for clamped inputs (R220). -/
def network (l : List Byte) (x : List Int) : List Int := (List.range (pkgLayers l)).foldl (fun x k => layer l k x) x

/-- The raw value of an input, and whether its source is fit (R215, R245). -/
def State.rawInput (s : State) (i : Nat) (l : List Byte) (k : Nat) : Int × Bool :=
  let ax := s.rd (R.REED_INST_CTRL_AXIS i)
  let src := pb l (inOfs k) 1
  let arg := pb l (inOfs k + 1) 1
  if src = 0x10 then
    let o := (s.reedI (12 * (i / 12) + bits arg 3 4)).outs.getD (bits arg 0 3) {}
    (sx 32 o.smpValue, !bit o.smpFlags 0 && !bit o.smpFlags 3)
  else if src = 8 then (sx 32 (ux 32 ((s.rd (R.AX_FRAME_ITEM ax 8) : Int) - pbS l (inOfs k + 4) 4)), true)
  else (sx 32 (s.rd (R.AX_FRAME_ITEM ax src)), true)

/-- The normalised values of all inputs, and whether every source is fit (R219). -/
def State.inputs (s : State) (i : Nat) (l : List Byte) : List Int × Bool :=
  let rs := (List.range (pkgIn l)).map fun k =>
    let r := s.rawInput i l k
    let ofs := if pb l (inOfs k) 1 = 8 then 0 else pbS l (inOfs k + 4) 4
    (normalise r.1 ofs (pbS l (inOfs k + 8) 4) (pb l (inOfs k + 2) 1), r.2)
  (rs.map (·.1), rs.all (·.2))

/-- Every value lies in the certified box (R219). -/
def inBox (l : List Byte) (vs : List Int) : Bool :=
  (List.range (pkgIn l)).all fun k =>
    let v := vs.getD k 0
    decide (pbS l (inOfs k + 12) 2 ≤ v) && decide (v ≤ pbS l (inOfs k + 14) 2)

/-- Clamp to the activation range (R219). -/
def clampAct (l : List Byte) (vs : List Int) : List Int := vs.map fun v => clampI (actRange l).1 (actRange l).2 v

/-! ### Bounding (R222 to R225) -/

/-- An output published in the box (R222, R224). -/
def boundOut (l : List Byte) (o : Nat) (x : ReedOut) (raw : Int) (first : Bool) (theta : Nat) : ReedOut :=
  let b := outOfs l o
  let lo := pbS l (b + 4) 4
  let hi := pbS l (b + 8) 4
  let rate := pbS l (b + 12) 4
  let c := clampI lo hi raw
  if pb l b 1 = 0 then
    let p := if first then c else x.p
    let d := clampI (-rate) rate (c - p)
    { x with value := ux 32 (p + d), p := p + d, raw := raw, flags := if c ≠ raw ∨ d ≠ c - p then 2 else 0 }
  else
    let p : Int := if first then (theta : Int) else x.p
    let q := if first then 0 else x.q
    let q' := q + clampI (-rate) rate (c - q)
    { x with value := ux 32 (p + q'), p := (ux 32 (p + q') : Nat), q := q', raw := raw,
             flags := if c ≠ raw ∨ q' ≠ c then 2 else 0 }

/-- An output published outside the box (R223, R224). -/
def extrapOut (l : List Byte) (o : Nat) (x : ReedOut) (first : Bool) (theta : Nat) : ReedOut :=
  let b := outOfs l o
  let fb := pbS l (b + 16) 4
  if pb l b 1 = 0 then
    let v := if pb l (b + 1) 1 = 0 ∨ first then fb else x.p
    { x with value := ux 32 v, p := v, flags := 1 }
  else
    let p : Int := if first then (theta : Int) else x.p
    let q := if first then 0 else x.q
    { x with value := ux 32 (p + q), p := (ux 32 (p + q) : Nat), q := q, flags := 1 }

/-- The guard finds a violation (R225). -/
def guardFails (l : List Byte) (prev x : List Int) (outs : List ReedOut) (raws : List Int) : Bool :=
  let dx := (List.zipWith (fun a b => (a - b).natAbs) x prev).foldl max 0
  (List.range (pkgOut l)).any fun o =>
    let bound : Int := ((pb l (outOfs l o + 20) 4 * dx / 2 ^ 16 : Nat) : Int) + pbS l 24 4
    decide (bound < ((raws.getD o 0 - (outs.getD o {}).raw).natAbs : Int))

/-! ### Publication (R226 to R228, R681) -/

/-- A collision monitor sees a publication of its output (R681). -/
def State.monitor (s : State) (m : Nat) (x : ReedOut) : State :=
  let v := sx 32 x.value
  let exceeds := decide (s.rdS (R.CM_THR_THR m) ≤ (if s.on (R.CM_CFG_ABS m) then (v.natAbs : Int) else v)) ||
    (s.on (R.CM_CFG_INV_COUNTS m) && (bit x.flags 3 || bit x.flags 2))
  if !exceeds then s.wr (R.CM_STAT_COUNT m) 0
  else
    let n := max 1 (s.rd (R.CM_CFG_N m))
    let c := s.rd (R.CM_STAT_COUNT m) + 1
    let s1 := s.wr (R.CM_STAT_COUNT m) (min c n)
    if n ≤ c then
      let s2 := s1.report (0x60 + m) 0
      if s.rd (R.CM_STAT_COUNT m) < n then (s2.wr (R.CM_STAT_TRIPPED m) 1).count (R.CM_STAT_TRIPS m) 1 else s2
    else s1

/-- Every monitor of an instance sees a publication. -/
def State.monitors (s : State) (i : Nat) : State :=
  (List.range 16).foldl (fun s m =>
    if s.on (R.CM_CFG_EN m) ∧ s.rd (R.CM_CFG_INST m) = i then s.monitor m ((s.reedI i).outs.getD (s.rd (R.CM_CFG_OUT m)) {}) else s) s

/-- An instance moves to FAULTED (R233). -/
def State.reedFault (s : State) (i : Nat) : State :=
  ((s.wr (R.REED_INST_STAT_STATE i) 2).reedInvalid i).report (0x30 + i) 0

/-- ANGLE outputs without EXTRAPOLATED or INVALID go to the Drones of kind OBS (R228, R41): the lowest
numbered one is the observer's angle. -/
def State.reedAngles (s : State) (i : Nat) (l : List Byte) (cap : Nat) : State :=
  match (List.range (pkgOut l)).find? fun o => pb l (outOfs l o) 1 == 1 with
  | some o =>
    let x := (s.reedI i).outs.getD o {}
    if bit x.flags 0 || bit x.flags 3 then s else s.offer 3 i x.value cap
  | none => s

/-- An evaluation publishes (R222 to R229): outcome 1 when an output is EXTRAPOLATED or INVALID. `raws`
are the model's own outputs, `ok` says that every input was in the box, `viol` a guard violation. -/
def State.reedPublish (s : State) (i : Nat) (l : List Byte) (x raws : List Int) (ok viol : Bool) (sample cap : Nat) : State × Nat :=
  let r := s.reedI i
  let ax := s.rd (R.REED_INST_CTRL_AXIS i)
  let theta := s.rd (R.AX_FRAME_ITEM ax 8)
  let good := ok && !viol
  let outs := r.outs.zipIdx.map fun p =>
    if pkgOut l ≤ p.2 then { p.1 with value := 0, flags := 8 }
    else if good then boundOut l p.2 p.1 (raws.getD p.2 0) r.fresh theta
    else { extrapOut l p.2 p.1 r.fresh theta with raw := raws.getD p.2 0 }
  let run := if viol then r.lipRun + 1 else 0
  let s1 := s.setReed i
    { r with
      outs := outs, fresh := false, points := 0, lipRun := run,
      prevX := if ok then some (s.rd (R.REED_INST_STAT_SWAPS i), x) else none }
  let s2 := ((s1.wr (R.REED_SEQ_SAMPLE i) sample).count (R.REED_SEQ_EXTRAP_CNT i) (b2n (!good))).count (R.REED_CNT_LIP_CNT i) (b2n viol)
  let s3 := s2.wrAll ((List.range 8).map fun o => (R.REED_RAW_RAW i o, ux 32 (raws.getD o 0)))
  let s4 := if viol ∧ pb l 28 1 ≤ run then s3.reedFault i else s3
  let s5 := (s4.reedAngles i l cap).monitors i
  (s5, b2n ((List.range (pkgOut l)).any fun o => let f := ((s5.reedI i).outs.getD o {}).flags; bit f 0 || bit f 3))

/-- An EVAL iteration of instance i by context c of its engine's sequencer (R218 to R229, R244, R247). -/
def State.evalRow (s : State) (u c i : Nat) : State :=
  let ax := s.rd (R.REED_INST_CTRL_AXIS i)
  let sample := s.rd (R.AX_FRAME_ITEM ax 15)
  let r := s.reedI i
  if s.reedState i ≠ 1 then s.report_ u c .ok 1
  else if !(s.axis ax).framed then s.report_ u c .ok 0
  else if !r.fresh ∧ s.rd (R.REED_SEQ_SAMPLE i) = sample then (s.count (R.REED_CNT_SKIPPED i) 1).report_ u c .ok 0
  else
    let b := s.reedActive i
    let w := s.rowWho u c (rowClass (s.ctx u c).row)
    let q := s.readMem (reedMem i) (reedBase i + b.ofs) b.len w
    if q.2.1 ≠ .ok then (q.1.reedFault i).report_ u c .ok 1
    else if !q.1.reedEngineOn i then (q.1.reedInvalid i).report_ u c .ok 1
    else
      let l := q.2.2
      let v := q.1.inputs i l
      let ok := v.2 && inBox l v.1
      let x := clampAct l v.1
      let raws := network l x
      let prevOk := match r.prevX with
        | some (n, px) => decide (n = s.rd (R.REED_INST_STAT_SWAPS i)) && decide ((s.rd (R.REED_SEQ_SAMPLE i) + 1) % 2 ^ 16 = sample) &&
            guardFails l px x r.outs raws
        | none => false
      let viol := pb l 28 1 != 0 && ok && !r.fresh && prevOk
      let p := q.1.reedPublish i l x raws ok viol sample (s.axis ax).frameAt
      p.1.report_ u c .ok p.2

/-- A sampling point of an axis: its observers' estimates become visible, STALE counts (R226, R227). -/
def State.reedSample (s : State) (ax : Nat) : State :=
  (List.range 48).foldl (fun s i =>
    if s.rd (R.REED_INST_CTRL_AXIS i) ≠ ax then s else
      let r := s.reedI i
      let n := min 2 (r.points + 1)
      let seq := if r.fresh then none else some (s.rd (R.REED_SEQ_SAMPLE i))
      let outs := r.outs.map fun o =>
        let f := if n = 2 ∧ s.reedState i = 1 then o.flags ||| 4 else o.flags
        { o with flags := f, smpValue := o.value, smpFlags := f }
      s.setReed i { r with points := n, outs := outs, smpSeq := seq }) s

/-! ### SEAL, SWAP, FREE (R234 to R237) -/

/-- A seal ends: SEALED with its length and cycles, or FREE with its code. -/
def State.sealEnd (s : State) (i code len cycles : Nat) : State :=
  let b := s.reedStandby i
  if code = 0 then (s.setStandby i { b with st := 2, len := len, cycles := cycles }).wr (R.REED_INST_STAT_SEAL_ERR i) 0
  else (s.setStandby i {}).wr (R.REED_INST_STAT_SEAL_ERR i) code

/-- A SEAL iteration (R234, R235, R247). -/
def State.sealRow (s : State) (u c i : Nat) : State :=
  if (s.reedStandby i).st ≠ 0 then s.report_ u c .ok 0
  else
    let ofs := s.standbyOfs i
    let w := s.rowWho u c (rowClass (s.ctx u c).row)
    let room := 0x80000 - ofs
    let h := s.readMem (reedMem i) (reedBase i + ofs) (min 64 room) w
    let n := min room (max 64 (max (pkgLen h.2.2) (tableEnd h.2.2)))
    let q := if n ≤ 64 ∨ 262144 < n then (h.1, h.2.1, h.2.2) else h.1.readMem (reedMem i) (reedBase i + ofs) n w
    if h.2.1 ≠ .ok ∨ q.2.1 ≠ .ok then (q.1.sealEnd i 7 0 0).report_ u c .ok 0
    else
      let l := q.2.2
      let code := q.1.sealCode i ofs l
      let s1 := q.1.setStandby i { st := 1, ofs := ofs, len := pkgLen l, cycles := evalCycles l }
      if code ≠ 0 then (s1.sealEnd i code 0 0).report_ u c .ok 0
      else if s1.on R.REED_CTRL_SEAL_GATE then
        match (s1.reedI i).approve with
        | some v =>
          let s2 := s1.setReed i { s1.reedI i with approve := none }
          if v = pb l 16 4 then (s2.sealEnd i 0 (pkgLen l) (evalCycles l)).report_ u c .ok 1
          else (s2.sealEnd i 8 0 0).report_ u c .ok 0
        | none => s1.setReed i { s1.reedI i with waits := some (c, pb l 16 4) }
      else (s1.sealEnd i 0 (pkgLen l) (evalCycles l)).report_ u c .ok 1

/-- A write of REED_APPROVE (R235): a seal that waits compares and clears it. -/
def State.writeApprove (s : State) (i v : Nat) : State :=
  match (s.reedI i).waits with
  | none => s.setReed i { s.reedI i with approve := some (v % 2 ^ 32) }
  | some (c, crc) =>
    let b := s.reedStandby i
    let s1 := s.setReed i { s.reedI i with waits := none, approve := none }
    let ok := v % 2 ^ 32 = crc
    (s1.sealEnd i (if ok then 0 else 8) b.len b.cycles).report_ (0x40 + i / 12) c .ok (b2n ok)

/-- The exchange of R236. -/
def State.exchange (s : State) (i : Nat) : State :=
  let b := s.reedActB i
  let s1 := (s.wr (R.REED_INST_STAT_ACTIVE_BUF i) (b2n (!b))).countWrap (R.REED_INST_STAT_SWAPS i) 1
  s1.setReed i (if b then { s1.reedI i with bufB := {} } else { s1.reedI i with bufA := {} })

/-- A SWAP iteration (R236). -/
def State.swapRow (s : State) (u c i : Nat) : State :=
  if (s.reedStandby i).st = 2 then (s.exchange i).report_ u c .ok 1 else s.report_ u c .ok 0

/-- SWAP_NOW (R236). -/
def State.swapNow (s : State) (i : Nat) : State :=
  if s.reedState i = 0 ∧ (s.reedStandby i).st = 2 then s.exchange i else s.wr (R.REED_INST_STAT_REJ i) 1

/-- A FREE iteration (R237). -/
def State.freeRow (s : State) (u c i : Nat) : State :=
  if (s.reedStandby i).st = 2 then (s.setStandby i {}).report_ u c .ok 1 else s.report_ u c .ok 0

/-! ### Registers (R210, R231, R233, R236) -/

/-- Enabled instances bound to an axis, without one. -/
def State.boundTo (s : State) (ax skip : Nat) : Nat :=
  ((List.range 48).filter fun j => j != skip && s.on (R.REED_INST_CTRL_ENABLE j) && s.rd (R.REED_INST_CTRL_AXIS j) == ax).length

/-- ENABLE written 1 to an instance in OFF (R210, R231, R233, R823). -/
def State.reedEnable (s : State) (i : Nat) : State :=
  let ax := s.rd (R.REED_INST_CTRL_AXIS i)
  if (s.reedActive i).st = 2 ∧ ax < 12 ∧ s.boundTo ax i < 4 ∧ s.reedBudget (i / 12) (some i) + s.reedCost i ≤ 700 then
    (s.wrAll [(R.REED_INST_CTRL_ENABLE i, 1), (R.REED_INST_STAT_STATE i, 1)]).setReed i
      { s.reedI i with fresh := true, prevX := none, lipRun := 0, points := 0, smpSeq := none }
  else s.wrAll [(R.REED_INST_CTRL_ENABLE i, 0), (R.REED_INST_STAT_REJ i, 1)]

/-- ENABLE written 0 (R233). -/
def State.reedDisable (s : State) (i : Nat) : State :=
  if s.reedState i = 0 then s else
    (s.wrAll [(R.REED_INST_CTRL_ENABLE i, 0), (R.REED_INST_STAT_STATE i, 0)]).reedInvalid i

/-- A write of REED_INST_CTRL: AXIS, SWAP_NOW, then ENABLE. -/
def State.writeReedCtrl (s : State) (i w : Nat) (openRwl : Bool) : State :=
  let s1 := if openRwl then s.wr (R.REED_INST_CTRL_AXIS i) (bits w 1 4) else s
  let s2 := if bit w 5 then s1.swapNow i else s1
  if bit w 0 then (if s2.reedState i = 0 then s2.reedEnable i else s2) else s2.reedDisable i

/-- A write of REED_BUF_A or B: only while that buffer is FREE and standby (R248). -/
def State.writeReedBuf (s : State) (i w : Nat) (b : Bool) : State :=
  if s.reedActB i ≠ b ∧ (s.reedStandby i).st = 0 then
    s.wr (if b then R.REED_BUF_B_OFFSET i else R.REED_BUF_A_OFFSET i) (w / 64 * 64)
  else s

/-- The word REED_FLAGS shows. -/
def State.reedFlags (s : State) (i : Nat) : Nat :=
  (List.range 8).foldl (fun a j => a + (((s.reedI i).outs.getD j {}).flags % 16) * 2 ^ (4 * j)) 0

/-- A read of REED_FLAGS captures the eight REED_EST (R248). -/
def State.captureEst (s : State) (i : Nat) : State :=
  s.wrAll ((List.range 8).map fun j => (R.REED_EST_VALUE i j, ((s.reedI i).outs.getD j {}).value))

/-! ### Port operations (R238 to R242) -/

/-- Reads of a core, cut at lines of 64 bytes (R115, R240). -/
def State.coreReads (s : State) (w : Who) : List (Nat × Nat) → State × Status × List Byte
  | [] => (s, .ok, [])
  | (a, n) :: t =>
    let r := s.localRead w (s.stamp a) a n
    if r.2.1 ≠ .ok then r else
      let q := r.1.coreReads w t
      (q.1, q.2.1, r.2.2 ++ q.2.2)

/-- REED.TEST: status and raw_out (R238). -/
def State.reedTest (s : State) (w : Who) (a rs2 : Nat) : State × Status × Nat :=
  let i := bits rs2 0 6
  let b := if bit rs2 6 then s.reedStandby i else s.reedActive i
  if 48 ≤ i ∨ b.st ≠ 2 ∨ ¬ s.reedEngineOn i ∨ s.reedState i = 0 then (s, .nackAbsent, 2 ^ 64 - 1)
  else
    let q := s.readMem (reedMem i) (reedBase i + b.ofs) b.len w
    if q.2.1 ≠ .ok then (q.1, q.2.1, 2 ^ 64 - 1)
    else
      let l := q.2.2
      let r := q.1.coreReads w (lines64 3 a (2 * pkgIn l))
      if r.2.1 ≠ .ok then (r.1, r.2.1, 2 ^ 64 - 1)
      else
        let vs := (List.range (pkgIn l)).map fun k => pbS r.2.2 (2 * k) 2
        (r.1, if inBox l vs then .ok else .extrapolated, ux 64 ((network l (clampAct l vs)).getD (bits rs2 7 3) 0))

/-- REED.RDEST: status and the word of R238. -/
def State.reedRdest (s : State) (i o : Nat) : Status × Nat :=
  if 48 ≤ i ∨ 8 ≤ o ∨ s.reedState i = 0 ∨ ¬ s.reedEngineOn i then (.nackAbsent, 2 ^ 64 - 1)
  else
    let x := (s.reedI i).outs.getD o {}
    (.ok, x.value + x.flags * 2 ^ 32 + s.rd (R.REED_SEQ_SAMPLE i) * 2 ^ 36)

/-- REED.WPUT: status (R238, R239). -/
def State.reedWput (s : State) (w : Who) (a v : Nat) : State × Status :=
  match placeOf a with
  | .memory code _ =>
    if 0x60 ≤ code ∧ code < 0x64 ∧ a % 8 = 0 then s.localWrite w (s.stamp a) a (leBytes 8 v) else (s, .nackAbsent)
  | _ => (s, .nackAbsent)

/-- REED.FALLBK: every output published as under R223, until the next evaluation in the box (R238). -/
def State.reedFallbk (s : State) (i : Nat) : State × Status :=
  if 48 ≤ i ∨ s.reedState i ≠ 1 ∨ ¬ s.reedEngineOn i then (s, .nackAbsent)
  else
    let x := s.reedI i
    let b := s.reedActive i
    let l := s.getBytes (reedBase i + b.ofs) (min b.len 1024)
    let th := s.rd (R.AX_FRAME_ITEM (s.rd (R.REED_INST_CTRL_AXIS i)) 8)
    let outs := x.outs.zipIdx.map fun p => if pkgOut l ≤ p.2 then p.1 else extrapOut l p.2 p.1 x.fresh th
    (s.setReed i { x with outs := outs }, .ok)

end Sys2Proof.Machine
end

