-- ==== Sys2Proof/Machine/ChanterCore.lean ====
section
/-! DEFINITION. The Chanter (spec/08_chanter_law.md, spec/09_chanter_loops.md): lanes and slots, marking,
the sample boundary, publication, resolvers, the repetitive controller, coefficient writes, set-point
channels, injection, capture. -/

namespace Sys2Proof.Machine

/-- First byte of a slot record (R257). -/
def recBase (x : Nat) : Nat := 0x4000000 + 0x200 * x

/-- The evaluator's own accesses: the Chanter's ID, class C (R690 lists none for it). -/
def chnWho : Who := { ini := 0x25, cls := 1, remote := false }

def State.slot (s : State) (x : Nat) : SlotSt := s.slots.getD x {}
def State.setSlot (s : State) (x : Nat) (v : SlotSt) : State := { s with slots := s.slots.set x v }
def State.slotMod (s : State) (x : Nat) (f : SlotSt → SlotSt) : State := s.setSlot x (f (s.slot x))
/-- STATE of a slot: 0 OFF, 1 RUN, 2 FAULT. -/
def State.slotState (s : State) (x : Nat) : Nat := s.rd (R.CHN_SLOT_STAT_STATE x)
/-- The record as it stands. -/
def State.recOf (s : State) (x : Nat) : List Byte := s.getBytes (recBase x) 512
/-- Write bytes of a record. -/
def State.putRec (s : State) (x o : Nat) (l : List Byte) : State := (s.writeMem 0x64 (recBase x + o) l chnWho).1
/-- Or bits into the record's FLAGS. -/
def State.orFlags (s : State) (x f : Nat) : State := s.putRec x 260 (leBytes 2 (fb (s.recOf x) 260 2 ||| f))

/-- LANE_EN of a lane. -/
def State.laneOn (s : State) (ln : Nat) : Bool := if ln = 0 then s.on R.CHN_CTRL_LANE0_EN else s.on R.CHN_CTRL_LANE1_EN

/-- The slots of a lane list in order (R251). -/
def State.laneList (s : State) (ln : Nat) : List Nat :=
  (List.range 128).filterMap fun i =>
    let w := s.rd (if ln = 0 then R.LANE0_LIST_ENTRIES (i / 4) else R.LANE1_LIST_ENTRIES (i / 4))
    let b := bits w (8 * (i % 4)) 8
    if bit b 7 then some (b % 128) else none

/-- Put a capture stream. -/
def State.setCap (s : State) (c : Nat) (v : CapSt) : State := { s with caps := s.caps.set c v }

/-- The place of a slot in a lane list: its first occurrence (R251). -/
def State.lanePos (s : State) (ln x : Nat) : Option Nat := (s.laneList ln).findIdx? (· == x)

/-! ### Injection (R298 to R301, R311, R312) -/

def State.inj (s : State) (i : Nat) : InjSt := s.injs.getD i {}
def State.setInj (s : State) (i : Nat) (v : InjSt) : State := { s with injs := s.injs.set i v }

/-- An injector of a group runs. -/
def State.injActive (s : State) (g : Nat) : Bool :=
  (List.range 32).any fun i => s.on (R.INJ_STAT_ACTIVE i) && s.rd (R.INJ_CFG_GROUP i) == g

/-- ACTIVE of the groups follows their injectors. -/
def State.injShow (s : State) : State := s.wrAll ((List.range 8).map fun g => (R.INJ_GRP_CTRL_ACTIVE g, b2n (s.injActive g)))

/-- An injector ends: DONE, or ABORTED. -/
def State.injEnd (s : State) (i : Nat) (aborted : Bool) : State :=
  if !s.on (R.INJ_STAT_ACTIVE i) then s
  else ((s.wr (R.INJ_STAT_ACTIVE i) 0).wr (R.INJ_OUT_OUT i) 0).wr (if aborted then R.INJ_STAT_ABORTED i else R.INJ_STAT_DONE i) 1

/-- End the injectors that a condition picks. -/
def State.injEndAll (s : State) (aborted : Bool) (p : Nat → Bool) : State :=
  (((List.range 32).filter p).foldl (fun s i => s.injEnd i aborted) s).injShow

/-- Evaluations an injector runs for (R300). -/
def State.injTotal (s : State) (i : Nat) : Nat :=
  let len := s.rd (R.INJ_LEN_LEN i)
  if s.rd (R.INJ_CFG_WAVE i) = 3 then s.rd (R.INJ_DWELL_DWELL i) * len else len

/-- A group starts (R299, R311): from its LINE event, a GO, or a sweep. -/
def State.injGo (s : State) (g : Nat) : State :=
  if s.injActive g then s.count (R.INJ_GRP_CTRL_RESTART_IGN g) 1
  else if !s.on R.CHN_INJ_PERMIT_PERMIT then s
  else
    let go := (List.range 32).filter fun i =>
      s.rd (R.INJ_CFG_GROUP i) == g && 1 ≤ s.rd (R.INJ_CFG_WAVE i) && s.rd (R.INJ_CFG_WAVE i) ≤ 4
    (go.foldl (fun s i =>
      let s1 := (s.setInj i { k := 0, phi := 0, step := s.step, seed := s.runSeed, startAt := s.now, stopping := false }).wr (R.INJ_STAT_K i) 0
      if s.injTotal i = 0 then s1.wr (R.INJ_STAT_DONE i) 1 else s1.wr (R.INJ_STAT_ACTIVE i) 1) s).injShow

/-- STOP of a group: each injector at the end of its period (R301). -/
def State.injStop (s : State) (g : Nat) : State :=
  ((List.range 32).foldl (fun s i =>
    if !s.on (R.INJ_STAT_ACTIVE i) || s.rd (R.INJ_CFG_GROUP i) != g then s
    else
      let w := s.rd (R.INJ_CFG_WAVE i)
      if w = 1 ∨ (w = 2 ∧ (s.inj i).k % (s.rd (R.INJ_CFG_HOLD i) + 1) = 0) then s.injEnd i false
      else s.setInj i { s.inj i with stopping := true }) s).injShow

/-- ABORT of a group (R301). -/
def State.injAbort (s : State) (g : Nat) : State := s.injEndAll true fun i => s.rd (R.INJ_CFG_GROUP i) == g

/-- DPHI_k (R300). -/
def State.dphiK (s : State) (i : Nat) : Nat :=
  let k := (s.inj i).k
  let m := if s.rd (R.INJ_CFG_WAVE i) = 3 then k / s.rd (R.INJ_DWELL_DWELL i) else k
  (s.rd (R.INJ_DPHI_DPHI i) + m * s.rd (R.INJ_DDPHI_DDPHI i)) % 2 ^ 32

/-- d_k of an injector in Q1.31 (R300). -/
def State.injD (s : State) (i : Nat) : Nat :=
  let x := s.inj i
  let amp := s.rdS (R.INJ_AMP_AMP i)
  match s.rd (R.INJ_CFG_WAVE i) with
  | 1 => ux 32 amp
  | 2 => ux 32 (if drawPrbs x.seed x.step i (x.k / (s.rd (R.INJ_CFG_HOLD i) + 1)) = 1 then amp else -amp)
  | _ => ux 32 (sineAt amp x.phi)

/-- The injectors that a sample boundary of a slot counts, in order (R299). -/
def State.injOn (s : State) (x : Nat) : List Nat :=
  (List.range 32).filter fun i => s.on (R.INJ_STAT_ACTIVE i) && s.rd (R.INJ_CFG_SLOT i) == x && (s.inj i).startAt != s.now

/-- An injector has been counted through an evaluation: k, φ, the end of its run or period. -/
def State.injStep (s : State) (i : Nat) : State :=
  if !s.on (R.INJ_STAT_ACTIVE i) then s
  else
    let x := s.inj i
    let w := s.rd (R.INJ_CFG_WAVE i)
    let k := x.k + 1
    let phi := x.phi + s.dphiK i
    let s1 := (s.setInj i { x with k := k, phi := phi % 2 ^ 32 }).wr (R.INJ_STAT_K i) k
    let period := if w = 2 then k % (s.rd (R.INJ_CFG_HOLD i) + 1) == 0 else w == 1 || decide (2 ^ 32 ≤ phi)
    if s.injTotal i ≤ k ∨ (x.stopping ∧ period = true) then s1.injEnd i false else s1

/-- A write of PERMIT by the safety island (R298). -/
def State.writePermit (s : State) (v : Bool) : State :=
  let s1 := s.wr R.CHN_INJ_PERMIT_PERMIT (b2n v)
  if v then s1 else s1.injEndAll true fun _ => true

/-! ### Slot states and coefficient writes (R272 to R275) -/

/-- The slot leaves RUN: its injectors abort, its evaluation is void (R278, R312). -/
def State.slotLeaves (s : State) (x : Nat) : State :=
  (s.slotMod x fun t => { t with latch := t.latch.bind fun l => if l.bad then some l else none }).injEndAll true fun i => s.rd (R.INJ_CFG_SLOT i) == x

/-- A slot moves to FAULT, reported by a source (R271, R272). -/
def State.slotFault (s : State) (x src flags : Nat) : State :=
  if s.slotState x ≠ 1 then s
  else
    let s1 := ((s.wr (R.CHN_SLOT_STAT_STATE x) 2).wr R.CHN_STAT_SLOT_FAULT 1).orFlags x (256 ||| flags)
    (s1.slotLeaves x).report src x

/-- The register shows the record's CSEQ (R274). -/
def State.showCseq (s : State) (x : Nat) : State := s.wr (R.CHN_SLOT_STAT_CSEQ x) (fb (s.recOf x) 264 2)

/-- One coefficient write lands (R273, R274). -/
def State.applyEntry (s : State) (x : Nat) (e : Nat × Nat × Nat) : State :=
  let i := e.1
  let x32 := rcX32 (s.recOf x)
  let bump (s : State) := (s.putRec x 264 (leBytes 2 (fb (s.recOf x) 264 2 + 1))).showCseq x
  if i < 24 then bump ((s.putRec x (32 + 4 * i) (leBytes 4 e.2.2)).putRec x (128 + i) (leBytes 1 (e.2.1 % 64)))
  else if i < 28 then bump (s.putRec x (16 + 4 * (i - 24)) (leBytes 4 e.2.2))
  else if i = 28 then
    s.putRec x 160 (leBytes 8 (ux 64 (if x32 then sx 32 e.2.2 else sx 16 (e.2.2 / 2 ^ 16) * 32768)))
  else if i = 29 then s.putRec x 168 (List.replicate 48 0)
  else s.count R.CHN_CNT1_CW_REJ 1

/-- QLEVEL follows the queue. -/
def State.showQ (s : State) (x : Nat) : State := s.wr (R.CHN_SLOT_STAT_QLEVEL x) (s.slot x).queue.length

/-- CHN_CWQ_VAL written by an initiator: applied to an OFF slot, queued, or refused with RETRY (R273, R275). -/
def State.cwqWrite (s : State) (ini v : Nat) : State × Status :=
  let sel := tget 0 s.cwqSel ini
  let x := bits sel 0 7
  let e := (bits sel 7 5, bits sel 12 6, v)
  if s.slotState x = 0 then (s.applyEntry x e, .ok)
  else if 4 ≤ (s.slot x).queue.length then ((s.wr (R.CHN_SLOT_STAT_CW_FULL x) 1).count R.CHN_CNT1_CW_REJ 1, .retry)
  else ((s.slotMod x fun t => { t with queue := t.queue ++ [e] }).showQ x, .ok)

/-- A preset of INDEX 28 by the part itself (R342); the queue has room. -/
def State.enqPreset (s : State) (x v : Nat) : State :=
  if s.slotState x = 0 then s.applyEntry x (28, 0, v) else (s.slotMod x fun t => { t with queue := t.queue ++ [(28, 0, v)] }).showQ x

/-- FLUSH (R275). -/
def State.cwqFlush (s : State) (x : Nat) : State :=
  ((s.count R.CHN_CNT1_FLUSHED (s.slot x).queue.length).slotMod x fun t => { t with queue := [] }).showQ x

/-- The oldest entry lands at a sample boundary (R273). -/
def State.applyOldest (s : State) (x : Nat) : State :=
  match (s.slot x).queue with
  | [] => s
  | e :: t => ((s.applyEntry x e).slotMod x fun v => { v with queue := t }).showQ x

/-- The conditions of R272, R286 and R292 for ENABLE, on the record read. -/
def State.slotOk (s : State) (x : Nat) (l : List Byte) : Bool :=
  let ln := rcLane l
  let mem := rcMembers l
  cfgOk l && (s.lanePos ln x).isSome &&
    (!rcDual l || ((s.lanePos (1 - ln) x).isSome && s.laneOn 0 && s.laneOn 1)) &&
    (!rcEn l || rcBase l + rcN l ≤ 229376) &&
    (rcRole l != 2 ||
      (mem != [] && (mem.map (·.1)) == List.range mem.length && (mem.map (·.2)).eraseDups.length == mem.length &&
        mem.all fun m =>
          let k := s.recOf m.2
          s.slotState m.2 == 1 && rcRole k == 1 && rcX32 k == rcX32 l && rcLane k == ln && rcDual k == rcDual l &&
            decide ((s.lanePos ln m.2).getD 128 < (s.lanePos ln x).getD 0) &&
            !((List.range 128).any fun y => y != x && s.slotState y == 1 && (s.chnMembers y).any fun q => q.2 == m.2)))

/-- ENABLE written (R272, R823). -/
def State.slotEnable (s : State) (x : Nat) (one : Bool) : State :=
  let st := s.slotState x
  if one then
    if st ≠ 0 then s
    else
      let q := s.readMem 0x64 (recBase x) 512 chnWho
      if q.2.1 ≠ .ok ∨ !q.1.slotOk x q.2.2 then q.1.wr (R.CHN_SLOT_STAT_REJ x) 1
      else
        ((q.1.wr (R.CHN_SLOT_CTRL_ENABLE x) 1).wr (R.CHN_SLOT_STAT_STATE x) 1).showCseq x
          |> fun s => s.slotMod x fun t => { t with div := 0, fresh := true, smp := List.replicate 8 none, iLim := false }
  else
    let s0 := s.wr (R.CHN_SLOT_CTRL_ENABLE x) 0
    if st = 0 then s0
    else
      let s1 := (s0.wr (R.CHN_SLOT_STAT_STATE x) 0).orFlags x 256
      let s2 := ((s.slot x).queue.foldl (fun s e => s.applyEntry x e) s1).slotMod x fun t => { t with queue := [] }
      (s2.showQ x).slotLeaves x

/-- LANE_EN written: a lane turned off faults every dual slot (R272, R279). -/
def State.laneEnable (s : State) (ln : Nat) (one : Bool) : State :=
  let s1 := s.wr (if ln = 0 then R.CHN_CTRL_LANE0_EN else R.CHN_CTRL_LANE1_EN) (b2n one)
  if one then s1
  else (List.range 128).foldl (fun s x => if s.slotState x == 1 && rcDual (s.recOf x) then s.slotFault x 0x1D 0 else s) s1

/-- A write of CHN_CTRL. -/
def State.writeChnCtrl (s : State) (w : Nat) : State :=
  let s1 := ((s.laneEnable 0 (bit w 0)).laneEnable 1 (bit w 1)).wr R.CHN_CTRL_IRQ_EN (bits w 2 1)
  if bit w 3 then s1.wrAll [(R.CHN_CNT1_CW_REJ, 0), (R.CHN_CNT1_FLUSHED, 0), (R.CHN_CNT2_MERGED, 0), (R.CHN_CNT2_MBOX_REJ, 0)] else s1

/-- A write of a word of a lane list (R251). -/
def State.writeLaneList (s : State) (ln j w : Nat) : State :=
  if s.laneOn ln then s.wr R.CHN_STAT_LIST_REJ 1
  else s.wr (if ln = 0 then R.LANE0_LIST_ENTRIES j else R.LANE1_LIST_ENTRIES j) w

/-! ### The CHANTER row (R253 to R256) -/

/-- Valid entries of a payload. -/
def chnSlots (p : Nat) : List Nat := (List.range 8).filterMap fun b => if bit (bits p (8 * b) 8) 7 then some (bits p (8 * b) 7) else none

/-- The checks of R253 for one slot. -/
def State.chnNamed (s : State) (ln x : Nat) : Bool :=
  let l := s.recOf x
  rcLane l == ln && (s.lanePos ln x).isSome && (!rcDual l || (s.lanePos (1 - ln) x).isSome)

/-- A slot is marked by a context (R254, R256). -/
def State.markSlot (s : State) (key x : Nat) : State :=
  let t := s.slot x
  let l := s.recOf x
  if t.pend0 || t.pend1 then
    let s1 := s.count R.CHN_CNT2_MERGED 1
    if t.half ≠ 0 then s1.setSlot x { t with evWait := key :: t.evWait } else s1.setSlot x { t with wait := key :: t.wait }
  else s.setSlot x { t with pend0 := rcDual l || rcLane l == 0, pend1 := rcDual l || rcLane l == 1, wait := [key] }

/-- A context still waits for a slot. -/
def State.chnWaits (s : State) (key : Nat) : Bool := s.slots.any fun t => t.wait.contains key || t.evWait.contains key

/-- An iteration whose slots have all published or been passed over is done (R254). -/
def State.chnDone (s : State) (key : Nat) : State :=
  match s.chnRuns.find? fun p => p.1 == key with
  | none => s
  | some p =>
    if s.chnWaits key then s
    else
      let s1 := { s with chnRuns := s.chnRuns.filter fun q => q.1 != key }
      s1.setCtx (key / 16) (key % 16) { s1.ctx (key / 16) (key % 16) with result := some (if p.2.2 then .poison else .ok, b2n p.2.1) }

/-- What a slot's end tells the contexts that waited for it. -/
def State.chnTell (s : State) (keys : List Nat) (lim bad : Bool) : State :=
  let s1 := { s with chnRuns := s.chnRuns.map fun p => if keys.contains p.1 then (p.1, p.2.1 || lim, p.2.2 || bad) else p }
  keys.foldl (fun s k => s.chnDone k) s1

/-- RUN: iteration of context c of lane sequencer u marks its slots (R253, R254). -/
def State.chnRun (s : State) (u c : Nat) : State :=
  let x := s.ctx u c
  let key := 16 * u + c
  if !(x.exec && x.result.isNone && rowEngine x.row == 6) || s.chnRuns.any (fun p => p.1 == key) then s
  else
    let l := chnSlots (rowPayload x.row)
    if !l.all (s.chnNamed (u - 0x44)) then s.setCtx u c { x with result := some (.nackAbsent, 0) }
    else (l.foldl (fun (s : State) y => s.markSlot key y) { s with chnRuns := s.chnRuns ++ [(key, false, false)] }).chnDone key

/-! ### Inputs (R260, R261, R283) -/

/-- Quality of a slot's publication by its FLAGS: 0 good, 1 degraded, 2 invalid (R283). -/
def slotQual (f : Nat) : Nat :=
  if bit f 8 || bit f 7 then 2 else if bit f 4 || bit f 5 || bit f 6 then 1 else 0

/-- Quality of an item of an axis frame (R335). -/
def State.itemQual (s : State) (n i : Nat) : Nat :=
  let a := s.axis n
  if !a.framed then 2
  else if i ≤ 4 then (if a.badCur then 2 else 0)
  else if i = 7 then (if a.badBus then 2 else 0)
  else if i = 8 ∨ i = 10 ∨ i = 11 then 2 - a.qAng
  else 0

/-- A mailbox read at the start of an evaluation (R261): state, word, quality, rejected. -/
def State.mailbox (s : State) (m k : Nat) : State × Nat × Nat × Bool :=
  let a := 0x4010000 + 0x20 * m
  let q := s.readMem 0x64 a 32 chnWho
  let l := q.2.2
  if q.2.1 ≠ .ok then (q.1.drawn, q.1.free k % 2 ^ 32, 2, false)
  else
    let d := fb l 12 1
    let ok := !bit d 4 || (fb l 4 2 == (q.1.drone (d % 16)).cyc % 2 ^ 16 && decide (q.1.phase (d % 16) < fb l 8 4))
    if ok then ((q.1.writeMem 0x64 (a + 20) (l.take 6) chnWho).1, fb l 0 4, 0, false)
    else (q.1.count R.CHN_CNT2_MBOX_REJ 1, if bit d 5 then fb l 16 4 else fb l 20 4, 1, true)

/-- An input selector delivers its word (R260): state, word, quality, mailbox rejected. `k` numbers the
free value that a poisoned source delivers. -/
def State.chnInput (s : State) (sel k : Nat) : State × Nat × Nat × Bool :=
  let i := bits sel 4 12
  match bits sel 0 4 with
  | 1 =>
    let q := s.readMem 0x64 (recBase (i % 128) + 256) 8 chnWho
    if q.2.1 ≠ .ok then (q.1.drawn, q.1.free k % 2 ^ 32, 2, false)
    else (q.1, fb q.2.2 0 4, slotQual (fb q.2.2 4 2), false)
  | 2 => (s, s.rd (R.AX_FRAME_ITEM (i / 16) (i % 16)), s.itemQual (i / 16) (i % 16), false)
  | 3 =>
    let o := (s.reedI (i / 8)).outs.getD (i % 8) {}
    (s, o.smpValue, if bit o.smpFlags 3 then 2 else if bit o.smpFlags 0 || bit o.smpFlags 2 then 1 else 0, false)
  | 4 => (s, s.rd (R.SP_OUT_OUT i), 2 - s.rd (R.SP_STAT_QUALITY i), false)
  | 5 => s.mailbox (i % 256) k
  | 6 => (s, s.phase (i % 16), 2 - s.drnQual (i % 16), false)
  | _ => (s, 0, 0, false)

/-! ### The sample boundary (R250, R255, R262, R270, R288) -/

/-- Address of a cell of the pool (R292). -/
def cellAddr (c : Nat) : Nat := 0x4020000 + 4 * c

/-- Read a cell: state, word, whether it failed. -/
def State.readCell (s : State) (c : Nat) : State × Nat × Bool :=
  let q := s.readMem 0x64 (cellAddr c) 4 chnWho
  (q.1, if q.2.1 = .ok then fb q.2.2 0 4 else 0, q.2.1 != .ok)

/-- The members a resolver latches (R288). -/
def State.latchMember (s : State) (x : Nat) (m : Nat × Nat) : State × (Nat × Nat × Nat × Nat × Nat × Bool) :=
  let q := s.readMem 0x64 (recBase m.2 + 256) 8 chnWho
  let f := fb q.2.2 4 2
  let sm := fb q.2.2 6 2
  let bad := q.2.1 != .ok
  (q.1, m.1, m.2, fb q.2.2 0 4, f, sm, bad || q.1.slotState m.2 != 1 || bit f 8 || bit f 4 || (s.slot x).smp.getD m.1 none == some sm)

def State.latchMembers (s : State) (x : Nat) : List (Nat × Nat) → State × List (Nat × Nat × Nat × Nat × Nat × Bool)
  | [] => (s, [])
  | m :: t => let r := s.latchMember x m; let q := r.1.latchMembers x t; (q.1, r.2 :: q.2)

/-- The latch of an evaluation (R262 step 2, R270): record, inputs, injected words. -/
def State.latchSlot (s : State) (x : Nat) : State × ChnLatch :=
  let q := s.readMem 0x64 (recBase x) 512 chnWho
  let l := q.2.2
  if q.2.1 ≠ .ok then (q.1, { bad := true })
  else if rcRole l = 2 then
    let m := q.1.latchMembers x (rcMembers l)
    (m.1, { rcd := l, members := m.2, time := m.1.sysTime, injs := m.1.injOn x,
            drn := (List.range 8).map fun c => let d := m.1.rd (R.CAP_CFG_DRONE c); (m.1.phase d, (m.1.drone d).cyc, m.1.drnQual d, m.1.drnState d),
            groups := (List.range 8).map m.1.injActive })
  else
    let a := q.1.chnInput (rcSel l 0) 0
    let b := a.1.chnInput (rcSel l 1) 1
    let c := b.1.chnInput (rcSel l 2) 2
    let s1 := c.1
    let d := rcDrone l
    let th := s1.phase d
    let r1 := if rcEn l then s1.readCell (rcBase l + rcRead l th) else (s1, 0, false)
    let r2 := if rcEn l then r1.1.readCell (rcBase l + rcWrite l th) else (r1.1, 0, false)
    let qs := [a.2.2.1, b.2.2.1, c.2.2.1]
    let is := r2.1.injOn x
    (r2.1,
      { rcd := l, r := a.2.1, y := b.2.1, ff := c.2.1,
        qual := 16 * b2n (qs.contains 2) + 32 * b2n (qs.contains 1) + 64 * b2n (a.2.2.2 || b.2.2.2 || c.2.2.2),
        inj := is.map fun i => (r2.1.rd (R.INJ_CFG_POINT i), r2.1.injD i), injs := is,
        theta := th, thetaQ := s1.drnQual d, cellR := r1.2.1, cellW := r2.2.1, time := s1.sysTime,
        drn := (List.range 8).map fun c => let d := s1.rd (R.CAP_CFG_DRONE c); (s1.phase d, (s1.drone d).cyc, s1.drnQual d, s1.drnState d),
        groups := (List.range 8).map s1.injActive, bad := r1.2.2 || r2.2.2 })

/-- The pending slot that stands earliest in a lane's list (R250). -/
def State.nextSlot (s : State) (ln : Nat) : Option Nat :=
  (s.laneList ln).find? fun x => if ln = 0 then (s.slot x).pend0 else (s.slot x).pend1

/-- An evaluator takes up a slot or is idle. -/
def State.setLane (s : State) (ln : Nat) (x : Option Nat) : State := { s with lanes := s.lanes.set ln x }

/-- A slot is passed over on a lane (R255, R271, R278); `more`: the other lane of a dual slot is still to
come. -/
def State.passOver (s : State) (x : Nat) (more : Bool) : State :=
  let t := s.slot x
  if more then s.setSlot x { t with half := 2, evWait := t.wait ++ t.evWait, wait := [] }
  else
    let keys := t.wait ++ t.evWait
    (s.setSlot x { t with half := 0, wait := [], evWait := [], todo := 0, latch := none }).chnTell keys false false

/-- An idle evaluator starts its next slot (R250, R255, R262, R270). -/
def State.slotStart (s : State) (ln : Nat) : State :=
  if !s.laneOn ln || (s.lanes.getD ln none).isSome || s.sysrst then s
  else
    match s.nextSlot ln with
    | none => s
    | some x =>
      let s0 := s.slotMod x fun t => if ln = 0 then { t with pend0 := false } else { t with pend1 := false }
      let t := s0.slot x
      let more := t.pend0 || t.pend1
      if t.half = 1 then
        if s0.slotState x = 1 ∨ t.latch.any (·.bad) then (s0.setSlot x { t with half := 0, todo := t.todo + 1 }).setLane ln (some x)
        else if t.todo = 0 then s0.passOver x false
        else s0.setSlot x { t with half := 0 }
      else if t.half = 2 then s0.passOver x false
      else if s0.slotState x ≠ 1 then s0.passOver x more
      else
        let n := rcDiv (s0.recOf x)
        if t.div + 1 < n then (s0.setSlot x { t with div := t.div + 1 }).passOver x more
        else
          let s1 := s0.applyOldest x
          let q := s1.latchSlot x
          let s2 := (q.1.slotMod x fun t =>
            { t with div := 0, half := b2n more, todo := t.todo + 1, latch := some q.2, evWait := t.wait ++ t.evWait, wait := [] }).setLane ln (some x)
          let s3 := s2.wrAll ((q.2.injs.zip q.2.inj).map fun p => (R.INJ_OUT_OUT p.1, p.2.2))
          if q.2.bad then s3.slotFault x 0x1D 0 else s3

/-! ### Publication (R268 to R271, R287 to R291, R294) -/

/-- What a capture record shows of an evaluation (R303): r, y, ff, e, v0, v, u, I, D_OUT, rc, new cell, as
words. -/
def sigWords (l : List Byte) (k : ChnLatch) (o : EvalOut) (cell : Nat) : List Nat :=
  let x32 := rcX32 l
  let w (i : Int) := wordOf x32 i
  [0, w (inject x32 0 k.inj (sigOf x32 k.r, false)).1, w (inject x32 1 k.inj (sigOf x32 k.y, false)).1,
   w (inject x32 2 k.inj (sigOf x32 k.ff, false)).1, w o.e, w o.v0, w o.v, w o.u,
   (if x32 then ux 32 (satS 32 o.i) else wordOf false (satS 16 (asr o.i 15))), w o.dOut,
   (if rcEn l && k.thetaQ != 0 then k.cellR else 0), cell]

/-- One capture stream sees a publication of its slot (R302 to R305, R313). -/
def State.captureOne (s : State) (c x sample flags : Nat) (k : ChnLatch) (sigs : List Nat) : State :=
  let t := s.caps.getD c {}
  if !s.on (R.CAP_STAT_ACTIVE c) || s.rd (R.CAP_CFG_SLOT c) != x then s
  else if t.dec < s.rd (R.CAP_CFG_DEC c) then s.setCap c { t with dec := t.dec + 1 }
  else
    let size := s.rd (R.CAP_SIZE_SIZE c)
    let w := s.rd (R.CAP_WR_WR c)
    if !s.on (R.CAP_CFG_WRAP c) && (w + 1) % size == s.rd (R.CAP_RD_RD c) then
      ((s.setCap c { t with dec := 0, seq := (t.seq + 1) % 2 ^ 32, gap := true }).count (R.CAP_STAT_LOST c) 1).wr (R.CAP_STAT_FULL c) 1
    else
      let d := k.drn.getD c (0, 0, 0, 0)
      let hold := t.hold || d.2.2.2 == 3 || d.2.2.2 == 4
      let sum := (k.inj.map fun p => sx 32 p.2).foldl (· + ·) 0
      let fits := satS 32 sum == sum
      let rf := b2n (k.groups.getD (s.rd (R.CAP_CFG_INJ_GROUP c)) false) + 2 * b2n hold + 4 * b2n t.gap
      let code (j : Nat) := bits (s.rd (R.CAP_SIG_CODES c)) (4 * j) 4
      let rcd := leBytes 6 k.time ++ leBytes 2 sample ++ leBytes 2 (fb k.rcd 264 2) ++ leBytes 2 flags ++ leBytes 1 x ++ leBytes 1 rf ++ leBytes 2 0 ++
        leBytes 4 t.seq ++ leBytes 4 (if fits then ux 32 sum else s.free (64 + c)) ++ leBytes 4 d.1 ++ leBytes 2 d.2.1 ++ leBytes 1 d.2.2.1 ++ leBytes 1 0 ++
        ((List.range 8).map fun j => leBytes 4 (sigs.getD (code j) 0)).flatten
      let base := s.rd (R.CAP_BASE_LO_BASE c) * 64 + s.rd (R.CAP_BASE_HI_BASE c) * 2 ^ 32
      let s1 := s.setCap c { t with dec := 0, seq := (t.seq + 1) % 2 ^ 32, gap := false, jobs := t.jobs ++ [(base + 64 * w, rcd)] }
      (if fits then s1 else s1.drawn).wr (R.CAP_WR_WR c) ((w + 1) % size)

/-- Every capture stream sees a publication. -/
def State.captures (s : State) (x sample flags : Nat) (k : ChnLatch) (sigs : List Nat) : State :=
  (List.range 8).foldl (fun s c => s.captureOne c x sample flags k sigs) s

/-- OUT, FLAGS and SAMPLE are published (R268). -/
def State.putOut (s : State) (x out flags sample : Nat) : State := s.putRec x 256 (leBytes 4 out ++ leBytes 2 flags ++ leBytes 2 sample)

/-- A slot publishes its evaluation (R262, R268, R287, R294). -/
def State.publishLaw (s : State) (x : Nat) (k : ChnLatch) : State × Bool :=
  let l := k.rcd
  let t := s.slot x
  let x32 := rcX32 l
  let prevFl := fb l 260 2
  let rc := if rcEn l && k.thetaQ != 0 then k.cellR else 0
  let o := evaluate l prevFl t.iLim k.r k.y k.ff rc k.inj
  let prev := if t.fresh then k.theta else fb l 232 4
  let learn := rcEn l && rcLearns l prevFl k.thetaQ k.theta prev o.e
  let nw := rcNew l (sigOf x32 k.cellW) o.e
  let jw := rcWrite l k.theta
  let sample := (fb l 262 2 + 1) % 2 ^ 16
  let flags := (o.flags ||| k.qual) ||| (if learn && nw.2 then 8 else 0)
  let s1 := s.putRec x 160 (o.stateBytes x32)
  let s2 := if learn then (s1.writeMem 0x64 (cellAddr (rcBase l + jw)) (leBytes 4 (wordOf x32 nw.1)) chnWho).1 else s1
  let s3 := if rcEn l then
      s2.putRec x 232 (leBytes 4 k.theta ++ (if learn then leBytes 2 jw else (l.drop 236).take 2) ++ (l.drop 238).take 2 ++
        leBytes 4 (fb l 240 4 + b2n learn) ++ leBytes 2 (satAdd 16 (fb l 244 2) (b2n (!learn))))
    else s2
  let s4 := if rcRole l = 1 then s3.putRec x 304 (leBytes 8 (ux 64 o.nTerm)) else s3
  let s5 := (s4.putOut x (wordOf x32 o.u) flags sample).slotMod x fun t => { t with fresh := false, iLim := false }
  let s6 := (s5.captures x sample flags k (sigWords l k o (if learn then wordOf x32 nw.1 else 0))).axisPublished x (wordOf x32 o.u) flags
  (s6, bit flags 0 || bit flags 1)

/-- The winner among the members that are not excluded: the lowest sensed value, the lower number on a
tie (R288). -/
def winner (l : List Byte) (ms : List (Nat × Nat × Nat × Nat × Nat × Bool)) : Option (Nat × Nat × Nat × Nat × Nat × Bool) :=
  let sense (w : Nat) : Int := let v := sigOf (rcX32 l) w; if rcSense l then -v else v
  (ms.filter fun m => !m.2.2.2.2.2).foldl (fun b m =>
    match b with
    | none => some m
    | some y => if sense m.2.2.1 < sense y.2.2.1 then some m else b) none

/-- A loser is tracked (R290). -/
def State.trackOne (s : State) (uw : Nat) (y : Nat) : State :=
  let q := s.readMem 0x64 (recBase y) 512 chnWho
  let l := q.2.2
  if q.2.1 ≠ .ok ∨ !rcTrack l ∨ q.1.slotState y ≠ 1 then q.1
  else
    let v := trackedI l (sigOf (rcX32 l) uw)
    (q.1.putRec y 160 (leBytes 8 (ux 64 v.1))).slotMod y fun t => { t with iLim := t.iLim || v.2 }

/-- A resolver publishes (R289 to R291). -/
def State.publishGroup (s : State) (x : Nat) (k : ChnLatch) : State × Bool :=
  let l := k.rcd
  let sample := (fb l 262 2 + 1) % 2 ^ 16
  let ex := (k.members.filter fun m => m.2.2.2.2.2).length
  let smp := (List.range 8).map fun m => (k.members.find? fun p => p.1 == m).map fun p => p.2.2.2.2.1
  let s1 := ((s.slotMod x fun t => { t with fresh := false, smp := smp }).putRec x 302 (leBytes 2 (satAdd 16 (fb l 302 2) ex))).putRec x 312
    (leBytes 2 ((smp.getD 0 none).getD 0) ++ leBytes 2 ((smp.getD 1 none).getD 0))
  match winner l k.members with
  | none =>
    let out := fb l 256 4
    let flags := fb l 260 2 ||| 256
    (((s1.putOut x out flags sample).captures x sample flags k (List.replicate 7 0 ++ [out])).axisPublished x out flags, bit flags 0 || bit flags 1)
  | some w =>
    let out := w.2.2.1
    let flags := w.2.2.2.1 % 256
    let old := fb l 298 1
    let change := bit old 7 && old % 8 != w.1
    let s2 := (s1.putRec x 298 (leBytes 1 (128 + w.1))).putRec x 300 (leBytes 2 (fb l 300 2 + b2n change))
    let losers := (k.members.filter fun m => !m.2.2.2.2.2 && m.1 != w.1).map fun m => m.2.1
    let s3 := losers.foldl (fun s y => s.trackOne out y) (s2.putOut x out flags sample)
    ((s3.captures x sample flags k (List.replicate 7 0 ++ [out])).axisPublished x out flags, bit flags 0 || bit flags 1)

/-- A dual mismatch (R271). -/
def State.dualMismatch (s : State) (x : Nat) (k : ChnLatch) : State :=
  let s1 := s.wr R.CHN_STAT_DUAL_FAIL 1
  let s2 := if s1.on R.CHN_DUAL_LOG_VALID then s1
    else s1.wrAll [(R.CHN_DUAL_LOG_SLOT, x), (R.CHN_DUAL_LOG_SAMPLE, fb k.rcd 262 2), (R.CHN_DUAL_LOG_VALID, 1)]
  s2.slotFault x 0x1C 128

/-- A lane ends the sixteenth cycle of its slot; the later lane of a dual slot publishes (R268, R270).
`agree`: the results of the two lanes of a dual slot are equal. -/
def State.slotPublish (s : State) (ln : Nat) (agree : Bool) : State :=
  match s.lanes.getD ln none with
  | none => s
  | some x =>
    let s0 := (s.setLane ln none).slotMod x fun t => { t with todo := t.todo - 1 }
    let t := s0.slot x
    if t.todo ≠ 0 ∨ t.half = 1 then s0
    else
      let s1 := s0.setSlot x { t with latch := none, evWait := [] }
      match t.latch with
      | none => s1.chnTell t.evWait false false
      | some k =>
        if k.bad then s1.chnTell t.evWait false true
        else if s1.slotState x ≠ 1 then s1.chnTell t.evWait false false
        else if rcDual k.rcd && !agree then (s1.dualMismatch x k).chnTell t.evWait false true
        else
          let r := if rcRole k.rcd = 2 then s1.publishGroup x k else s1.publishLaw x k
          let s2 := (k.injs.foldl (fun s i => s.injStep i) r.1).injShow
          s2.chnTell t.evWait r.2 false

/-! ### Set-point channels (R295 to R297, R314) -/

def State.sp (s : State) (c : Nat) : SpSt := s.sps.getD c {}
def State.setSp (s : State) (c : Nat) (v : SpSt) : State := { s with sps := s.sps.set c v }

/-- A count that a PULSE channel follows, with the count of its errors. -/
def State.pulseOf (s : State) (i : Nat) : Nat × Nat :=
  if i < 12 then (s.rd (R.AX_ENC_CNT_CNT i), s.rd (R.AX_CNT2_QERR i))
  else (s.rd (R.FE_PCNT_PCNT (i - 16)), s.rd (R.FE_STAT_ENC_ERR (i - 16)))

/-- INDEX is in the range of its KIND (R295). -/
def spIndexOk (kind i : Nat) : Bool :=
  match kind with
  | 0 => i == 0
  | 1 => decide (i < 40)
  | 2 => decide (i < 12) || (decide (16 ≤ i) && decide (i < 48))
  | _ => decide (i < 128)

/-- A write of SP_CFG: RWL fields while the channel is off, then ENABLE (R296, R315, R823). -/
def State.writeSpCfg (s : State) (c w : Nat) : State :=
  let off := !s.on (R.SP_CFG_ENABLE c)
  let s1 := if off && s.unlocked then s.wrAll [(R.SP_CFG_KIND c, bits w 1 2), (R.SP_CFG_INDEX c, bits w 3 7), (R.SP_CFG_DELTA c, bits w 10 1)] else s
  let s2 := s1.wrAll [(R.SP_CFG_LOSS c, bits w 11 1), (R.SP_CFG_SHIFT c, bits w 12 6)]
  if !bit w 0 then ((s2.wr (R.SP_CFG_ENABLE c) 0).wr (R.SP_OUT_OUT c) 0).wrAll [(R.SP_STAT_QUALITY c, 0), (R.SP_STAT_LOST c, 0)]
  else if !off then s2
  else
    let p := s2.rd (R.SP_PERIOD_PERIOD c)
    let i := s2.rd (R.SP_CFG_INDEX c)
    if p = 0 ∨ !spIndexOk (s2.rd (R.SP_CFG_KIND c)) i then s2.wr (R.SP_STAT_REJ c) 1
    else
      let n := s2.pulseOf i
      (s2.wrAll [(R.SP_CFG_ENABLE c, 1), (R.SP_OUT_OUT c, 0), (R.SP_STAT_QUALITY c, 1), (R.SP_STAT_LOST c, 0)]).setSp c
        { s2.sp c with due := (s2.now + p) % 2 ^ 48, hostAge := 0, hostNew := false, last := n.1, errLast := n.2 }

/-- A write of SP_HOST (R297). -/
def State.writeSpHost (s : State) (c v : Nat) : State :=
  if s.rd (R.SP_CFG_KIND c) ≠ 0 then s.count (R.SP_STAT_IGN c) 1
  else s.setSp c { s.sp c with host := v, hostNew := true }

/-- The raw value of a channel and whether its source is lost (R295); the channel's memory of it. -/
def State.spRaw (s : State) (c : Nat) : Int × Bool × SpSt :=
  let x := s.sp c
  let i := s.rd (R.SP_CFG_INDEX c)
  match s.rd (R.SP_CFG_KIND c) with
  | 0 =>
    let age := if x.hostNew then 0 else x.hostAge + 1
    let tmo := s.rd (R.SP_PERIOD_HOST_TMO c)
    (sx 32 x.host, tmo != 0 && decide (tmo ≤ age), { x with hostAge := age, hostNew := false })
  | 1 => (s.rdS (R.SD_WORD_WORD i), s.sdFaulted i, x)
  | 2 =>
    let n := s.pulseOf i
    let lost := if i < 12 then n.2 != x.errLast else n.2 != 0
    (if s.on (R.SP_CFG_DELTA c) then sx 32 (n.1 + 2 ^ 32 - x.last) else sx 32 n.1, lost, { x with last := n.1, errLast := n.2 })
  | _ => let l := s.getBytes (recBase i + 256) 8; (sx 32 (fb l 0 4), slotQual (fb l 4 2) == 2, x)

/-- The computation of R296: new out, and y. -/
def spStep (raw ofs mult : Int) (shift : Nat) (db lo hi : Int) (lost hold : Bool) (fail out rate : Int) : Int × Int :=
  let p := (raw - ofs) * mult
  let y0 := satS 32 (if shift = 0 then p else asr (p + ((2 ^ (shift - 1) : Nat) : Int)) shift)
  let y1 := if y0.natAbs ≤ db then 0 else if y0 < 0 then y0 + db else y0 - db
  let y2 := clampR y1 lo hi
  let y := if lost then (if hold then out else fail) else y2
  (out + clampI (-rate) rate (y - out), y)

/-- An update of a channel (R296). -/
def State.spUpdate (s : State) (c : Nat) : State :=
  if !s.on (R.SP_CFG_ENABLE c) || !s.reached (s.sp c).due then s
  else
    let q := s.spRaw c
    let r := spStep q.1 (s.rdS (R.SP_OFFSET_OFFSET c)) (s.rdS (R.SP_MULT_MULT c)) (s.rd (R.SP_CFG_SHIFT c)) (s.rd (R.SP_DB_DB c))
      (s.rdS (R.SP_MIN_MIN c)) (s.rdS (R.SP_MAX_MAX c)) q.2.1 (!s.on (R.SP_CFG_LOSS c)) (s.rdS (R.SP_FAILVAL_FAILVAL c)) (s.rdS (R.SP_OUT_OUT c))
      (s.rd (R.SP_RATE_RATE c))
    (s.setSp c { q.2.2 with due := (q.2.2.due + s.rd (R.SP_PERIOD_PERIOD c)) % 2 ^ 48 }).wrAll
      [(R.SP_OUT_OUT c, ux 32 r.1), (R.SP_STAT_LOST c, b2n q.2.1), (R.SP_STAT_QUALITY c, if !q.2.1 && r.1 == r.2 then 2 else 1)]

/-! ### Capture streams (R304, R305) -/

/-- The ring lies in this chip's Windchests, in one view (R304). -/
def capRingOk (base size : Nat) : Bool :=
  decide (2 ≤ size) && decide (size ≤ 1048576) &&
    ((decide (0x10000000 ≤ base) && decide (base + 64 * size ≤ 0x12000000)) || (decide (0x12000000 ≤ base) && decide (base + 64 * size ≤ 0x14000000)))

/-- A stream is enabled with its first SEQ (R304, R305, R587). -/
def State.capStart (s : State) (c seq : Nat) : State :=
  let base := s.rd (R.CAP_BASE_LO_BASE c) * 64 + s.rd (R.CAP_BASE_HI_BASE c) * 2 ^ 32
  if !capRingOk base (s.rd (R.CAP_SIZE_SIZE c)) then s.wr (R.CAP_STAT_REJ c) 1
  else (s.setCap c { seq := seq }).wrAll [(R.CAP_CFG_ENABLE c, 1), (R.CAP_STAT_ACTIVE c, 1), (R.CAP_WR_WR c, 0)]

/-- A write of CAP_CFG: RWL fields while the stream is off, then ENABLE (R304, R823). -/
def State.writeCapCfg (s : State) (c w : Nat) : State :=
  let off := !s.on (R.CAP_CFG_ENABLE c)
  let s1 := if off && s.unlocked then s.wrAll [(R.CAP_CFG_SLOT c, bits w 1 7), (R.CAP_CFG_DRONE c, bits w 8 4), (R.CAP_CFG_WRAP c, bits w 12 1),
      (R.CAP_CFG_INJ_GROUP c, bits w 13 3), (R.CAP_CFG_DEC c, bits w 16 8)] else s
  if !bit w 0 then s1.wrAll [(R.CAP_CFG_ENABLE c, 0), (R.CAP_STAT_ACTIVE c, 0)]
  else if !off then s1
  else s1.capStart c (s1.rd (R.CAP_SEQ_SEQ c))

/-- The oldest record of a stream on its way to memory is written and complete (R129, R305). -/
def State.capComplete (s : State) (c : Nat) : State :=
  let t := s.caps.getD c {}
  match t.jobs with
  | [] => s
  | j :: rest =>
    let q := s.localWrite chnWho (s.stamp j.1) j.1 j.2
    if q.2 ≠ .ok then
      (q.1.setCap c { t with jobs := [] }).wrAll [(R.CAP_STAT_ACTIVE c, 0), (R.CAP_STAT_WERR c, 1)]
    else
      let n := t.sinceTok + 1
      let post := s.on (R.CAP_TOKEN_TOK_EN c) && decide (s.rd (R.CAP_TOKEN_EVERY c) < n)
      let s1 := q.1.setCap c { t with jobs := rest, sinceTok := if s.rd (R.CAP_TOKEN_EVERY c) < n then 0 else n }
      if post then s1.token (s.rd (R.CAP_TOKEN_UNIT c)) (s.rd (R.CAP_TOKEN_CONTEXT c)) (s.rd (R.CAP_TOKEN_COUNTER c)) else s1

end Sys2Proof.Machine
end

