-- ==== Sys2Proof/Machine/AxisCore.lean ====
section
/-! DEFINITION. Sampling points and the frame stage of the motor axes (spec/10_motor_axes.md R324, R330,
R334 to R337, R341 to R345): what a frame forms, feedback loss, flying start, the reference stage, the
holding brake. -/

namespace Sys2Proof.Machine

/-- The Drone whose angle an axis uses (R344). -/
def State.axDrone (s : State) (n : Nat) : Nat := if s.axState n = 4 then s.rd (R.AX_FB_SUB_DRONE n) else s.rd (R.AX_FB_DRONE n)

/-- The items of a frame by R334: theta_e, i_u, i_v, i_w, i_d, i_q. -/
def parkItems (theta pp ofs : Nat) (iu iv iw : Int) : Nat × Int × Int :=
  let te := (theta * pp + ofs) % 2 ^ 32
  let sn := tabR te
  let cs := tabR (te + 0x40000000)
  let ia := satS 32 (asr ((2 * iu - iv - iw) * 715827883 + 2 ^ 30) 31)
  let ib := satS 32 (asr ((iv - iw) * 1239850262 + 2 ^ 30) 31)
  (te, satS 32 (asr (ia * cs + ib * sn + 16384) 15), satS 32 (asr (ib * cs - ia * sn + 16384) 15))

/-- The source of SREF (R337); a mailbox it reads is treated as any selector's. -/
def State.srefSource (s : State) (n : Nat) : State × Int :=
  let x := s.rd (R.AX_SREF_SRC_SRC n)
  if !srefOk x then (s, 0) else let q := s.chnInput x 3; (q.1, sx 32 q.2.1)

/-- A reference moves toward a value by at most a rate. -/
def toward (a b rate : Int) : Int := a + clampI (-rate) rate (b - a)

/-- Feedback lost by R343 in a frame with quadrature current i_q: state (with the freeze count), lost. -/
def State.fbLost (s : State) (n : Nat) (iq : Int) : State × Bool :=
  let a := s.axis n
  let d := s.rd (R.AX_FB_DRONE n)
  let last := (s.drone d).lastTheta
  let nf := s.rd (R.AX_DET_N_FREEZE n)
  let o := (s.reedI (s.rd (R.AX_OBS_SPD_INST n))).outs.getD (s.rd (R.AX_OBS_SPD_OUT n)) {}
  let still := nf != 0 && a.lastTheta == some last && decide (s.rdS (R.AX_IMOVE_I_MOVE n) < iq.natAbs) &&
    decide (s.rdS (R.AX_WMOVE_W_MOVE n) < (sx 32 o.smpValue).natAbs) && !bit o.smpFlags 0
  let frozen := if still then a.frozen + 1 else 0
  let q := s.rd (R.AX_CNT2_QERR n)
  let lost := s.drnQual d != 2 || s.on (R.DRN_STAT_ALT_ACTIVE d) ||
    (s.on (R.AX_FB_FIFE_EN n) && s.on (R.FE_STAT_ENC_ERR (s.rd (R.AX_FB_ENC_FIFE n)))) ||
    (s.on (R.AX_FB_QERR_EN n) && q != a.qerrLast) || (nf != 0 && decide (nf ≤ frozen))
  (s.setAxis n { a with frozen := frozen, lastTheta := some last, qerrLast := q }, lost)

/-- Loss or return of feedback moves the axis (R340, R344). -/
def State.fbMove (s : State) (n : Nat) (lost : Bool) : State :=
  let st := s.axState n
  if st = 2 ∨ st = 3 then
    if !lost then s
    else if s.on (R.AX_FB_SUB_EN n) ∧ s.drnQual (s.rd (R.AX_FB_SUB_DRONE n)) = 2 then
      ((s.wr (R.AX_STAT_PHASE n) 4).axTo n 4).wr (R.AX_STAT_SUBST n) 1
    else s.axInvalid n 3
  else if st = 4 then
    let k := if lost then 0 else (s.axis n).okRun + 1
    let s1 := s.axMod n fun a => { a with okRun := k }
    if 8 ≤ k then s1.axTo n 3 else s1
  else s

/-- The phase, presets of a decision for a speed w and a source value r (R342): phase, velocity preset,
q preset. -/
def State.decision (s : State) (n : Nat) (w r : Int) : Nat × Int × Int :=
  let thr := s.rdS (R.AX_CATCH_THR_THR n)
  let hoist := s.on (R.AX_CTRL_HOIST n)
  let down := if s.on (R.AX_CTRL_DOWN_NEG n) then decide (w < 0) else decide (0 < w)
  let vq0 := satS 32 (asr (w * s.rdS (R.AX_KE_KE n)) (s.rd (R.AX_CATCH_KE_SH n)))
  let load := sx 32 ((s.reedI (s.rd (R.AX_OBS_LOAD_INST n))).outs.getD (s.rd (R.AX_OBS_LOAD_OUT n)) {}).smpValue
  let est := if s.on (R.AX_CATCH_LOAD_EN n) then load else 0
  if hoist && decide (thr ≤ w.natAbs) && down then (3, load, vq0)
  else if (w.natAbs : Int) < thr then (0, if hoist then load else 0, 0)
  else if (0 < w ∧ 0 < r) ∨ (w < 0 ∧ r < 0) ∨ r = 0 then (1, est, vq0)
  else (2, est, vq0)

/-- The flying start decides, when every queue has room (R342): state, decided. -/
def State.decide_ (s : State) (n : Nat) (w r : Int) : State × Bool :=
  let d := s.decision n w r
  let vel := s.on (R.AX_SLOTS_VEL_EN n)
  let plan := (if vel then [(s.rd (R.AX_SLOTS_VEL_SLOT n), d.2.1)] else []) ++
    [(s.rd (R.AX_SLOTS_D_SLOT n), 0), (s.rd (R.AX_SLOTS_Q_SLOT n), d.2.2)]
  if plan.any fun p => s.slotState p.1 != 0 && decide (4 ≤ (s.slot p.1).queue.length) then (s, false)
  else
    let s1 := plan.foldl (fun (s : State) p => s.enqPreset p.1 (ux 32 p.2)) s
    let s2 := s1.axMod n fun a =>
      { a with iHold := if vel then d.2.1 else 0, iqPreset := if vel then some d.2.1 else none, probeW := none }
    let s3 := s2.wr (R.AX_STAT_PHASE n) d.1
    ((if d.1 = 0 then s3 else s3.wr (R.AX_FRAME_ITEM n 12) (ux 32 w)).axTo n 2, true)

/-- The reference stage (R337); `preset`: SREF stands at the preset of this frame's decision. -/
def State.refStage (s : State) (n : Nat) (src speed : Int) (preset : Bool) : State :=
  let ph := s.rd (R.AX_STAT_PHASE n)
  let cur := s.rdS (R.AX_FRAME_ITEM n 12)
  let slow := decide ((speed.natAbs : Int) < s.rdS (R.AX_CATCH_THR_THR n))
  let r : Int × Nat :=
    if preset && ph != 0 then (cur, ph)
    else match ph with
      | 0 => (src, 0)
      | 1 => let v := toward cur src (s.rd (R.AX_START_RATE_RATE n)); (v, if v = src then 0 else 1)
      | 2 => if slow then (src, 0) else (toward cur 0 (s.rd (R.AX_BRAKE_RATE_RATE n)), 2)
      | 3 => let v := toward cur 0 (s.rd (R.AX_BRAKE_RATE_RATE n)); (v, if v = 0 then 0 else 3)
      | _ => (toward cur 0 (s.rd (R.AX_STOP_RATE_RATE n)), ph)
  let lim := if r.2 = 2 then s.rdS (R.AX_IBRAKE_I_BRAKE n) else s.rdS (R.AX_ILIM_I_MAX n)
  let out := sx 32 (leNat (s.getBytes (recBase (s.rd (R.AX_SLOTS_VEL_SLOT n)) + 256) 4))
  let iq := if !s.on (R.AX_SLOTS_VEL_EN n) then 0
    else match (s.axis n).iqPreset with | some p => p | none => clampI (-lim) lim out
  s.wrAll [(R.AX_STAT_PHASE n, r.2), (R.AX_FRAME_ITEM n 12, ux 32 r.1), (R.AX_FRAME_ITEM n 13, ux 32 iq)]

/-- Holding brake and standstill of a frame (R345, R340); the deciding frame is not counted. -/
def State.brakeStage (s : State) (n : Nat) (iq speed : Int) (decided : Bool) : State :=
  let st := s.axState n
  let a := s.axis n
  let slow := decide ((speed.natAbs : Int) < s.rdS (R.AX_CATCH_THR_THR n))
  if st = 2 then
    if !s.on (R.AX_CTRL_HBRK_EN n) || s.on (R.AX_STAT_TORQUE_OK n) || decided then s
    else
      let k := if ((iq - a.iHold).natAbs : Int) ≤ s.rdS (R.AX_TQ_TOL_TQ_TOL n) then a.tqRun + 1 else 0
      let s1 := s.axMod n fun a => { a with tqRun := k }
      if s.rd (R.AX_BRK_TQ_N n) ≤ k then (s1.wr (R.AX_STAT_TORQUE_OK n) 1).setHbrk n true else s1
  else if st = 3 ∨ st = 4 then
    let s1 := if a.hbrk && slow then s.setHbrk n false else s
    if st = 3 then (s1.axMod n fun a => { a with lowRun := if slow then a.lowRun + 1 else 0 }).standstill n else s1
  else s

/-- The estimate of the third probe frame has been evaluated by the instance of the axis (R341). -/
def State.probeEstimates (s : State) (i : Nat) : State :=
  (List.range 12).foldl (fun (s : State) n =>
    let a := s.axis n
    if s.axState n != 1 || !s.on (R.AX_CATCH_CATCH_MODE n) || s.rd (R.AX_OBS_CATCH_INST n) != i || a.probe3 != some (s.rd (R.REED_SEQ_SAMPLE i)) then s
    else
      let o := (s.reedI i).outs.getD (s.rd (R.AX_OBS_OBS_OUT n)) {}
      if bit o.flags 0 || bit o.flags 3 then
        let next := (a.batchAt + 120000) % 2 ^ 48
        s.setAxis n { a with probe3 := none, probes := 0, batchAt := if s.reached next then s.now else next }
      else s.setAxis n { a with probe3 := none, probeW := some (sx 32 o.value) }) s

/-- The speed found by a catching axis in a frame of SPEED (R341). -/
def State.catchSpeed (s : State) (n : Nat) (speed : Int) : Option Int :=
  if s.on (R.AX_CATCH_CATCH_MODE n) then (s.axis n).probeW
  else if s.drnQual (s.rd (R.AX_FB_DRONE n)) = 2 then some speed else none

/-- Store the sixteen items and post the tokens (R335, R336). -/
def State.storeFrame (s : State) (n : Nat) (w : List Nat) (te : Nat) (id iq speed : Int) (theta : Nat) (bad : Bool) : State :=
  let a := s.axis n
  let cnt := s.rd (R.AX_ENC_CNT_CNT n)
  let st := s.axState n
  let status := st + 8 * s.rd (R.AX_STAT_PHASE n) + 64 * b2n (st == 4) + 128 * b2n a.smpProbe
  let bus := match s.vbusIn n with | some m => s.rd (R.SD_WORD_WORD m) | none => 0
  let busBad := match s.vbusIn n with | some m => s.sdFaulted m | none => true
  let f (i v : Nat) := (R.AX_FRAME_ITEM n i, v)
  let s1 := s.wrAll [f 0 (w.getD 0 0), f 1 (w.getD 1 0), f 2 (w.getD 2 0), f 3 (ux 32 id), f 4 (ux 32 iq), f 5 (ux 32 a.smpV.1), f 6 (ux 32 a.smpV.2),
    f 7 bus, f 8 theta, f 9 ((cnt + 2 ^ 32 - a.encLast) % 2 ^ 32), f 10 te, f 11 (ux 32 speed), f 14 status, f 15 (a.nFrame % 2 ^ 16)]
  let s2 := s1.setAxis n
    { a with encLast := cnt, framed := true, frameAt := a.smpAt, badCur := bad, badBus := busBad, qAng := s.drnQual (s.axDrone n), openF := false,
             awaits := true, pubD := none, pubQ := none, probe3 := if a.smpProbe && a.probes == 3 && st == 1 then some (a.nFrame % 2 ^ 16) else a.probe3,
             nFrame := (a.nFrame + 1) % 2 ^ 16 }
  (List.range 6).foldl (fun (s : State) k =>
    if s.on (R.AX_TOK_EN n k) then s.token (s.rd (R.AX_TOK_UNIT n k)) (s.rd (R.AX_TOK_CONTEXT n k)) (s.rd (R.AX_TOK_COUNTER n k)) else s) s2

/-- The frame stage (R334 to R337, R341 to R345). -/
def State.frameStage (s : State) (n : Nat) : State :=
  let a := s.axis n
  let cur := [3 * n, 3 * n + 1, 3 * n + 2]
  let bad := cur.any fun m => s.sdFaulted m || s.sdMode m == 0
  let w := cur.map fun m => s.rd (R.SD_WORD_WORD m)
  let iu := sx 32 (w.getD 0 0)
  let iv := sx 32 (w.getD 1 0)
  let iw := sx 32 (w.getD 2 0)
  let s1 := if bad then s.axInvalid n 2 else s
  let items (s : State) : Nat × (Nat × Int × Int) × Int :=
    let sub := s.axState n == 4
    let th := if sub then a.smpSub else a.smpTheta
    (th, parkItems th (s.rd (R.AX_FB_PP n)) (s.rd (R.AX_ELEC_OFS_OFS n)) iu iv iw,
      satS 32 (asr (if sub then a.smpSubF else a.smpF) (s.rd (R.AX_FB_SPD_SH n))))
  let l := s1.fbLost n (items s1).2.1.2.2
  let s2 := l.1.fbMove n l.2
  let it := items s2
  let src := s2.srefSource n
  let dec : State × Bool :=
    if s2.axState n = 1 then (match src.1.catchSpeed n it.2.2 with | some v => src.1.decide_ n v src.2 | none => (src.1, false)) else (src.1, false)
  let s3 := dec.1.refStage n src.2 it.2.2 dec.2
  let s4 := s3.brakeStage n it.2.1.2.2 it.2.2 dec.2
  s4.storeFrame n w it.2.1.1 it.2.1.2.1 it.2.1.2.2 it.2.2 it.1 bad

/-- A sampling point: the angle is taken, the windows of the inputs open, the observers' estimates become
visible (R226, R227, R324, R330). With no current input running the frame forms at once. -/
def State.sampleAt (s : State) (n : Nat) (probe : Bool) : State :=
  let d := s.rd (R.AX_FB_DRONE n)
  let e := s.rd (R.AX_FB_SUB_DRONE n)
  let need := [3 * n, 3 * n + 1, 3 * n + 2].filter fun m => s.sdMode m != 0
  let s1 := s.axMod n fun a =>
    { a with smpAt := s.now, smpTheta := s.phase d, smpF := (s.drone d).f, smpSub := s.phase e, smpSubF := (s.drone e).f, smpV := a.vA, smpProbe := probe,
             need := need, openF := true }
  let s2 := { s1 with sds := s1.sds.zipIdx.map fun (p : SdSt × Nat) => if s1.sdMode p.2 == 1 && s1.sdAxis p.2 == n then { p.1 with worded := false } else p.1 }
  let s3 := s2.reedSample n
  if need = [] then s3.frameStage n else s3

/-- The cycle is a sampling point of the counter (R324). -/
def State.samplingDue (s : State) (n : Nat) : Bool :=
  let a := s.axis n
  let per : Int := 2 * (a.halfP : Int)
  let e : Int := s.axPos n
  a.run && a.vDone && a.halfP != 0 && s.reached a.valley &&
    (e % per == ((a.halfP : Int) + a.spA) % per || (s.on (R.AX_PWM_UPDATE n) && e % per == a.spA % per))

/-- SAMPLING_POINT; once in a cycle. -/
def State.samplingPoint (s : State) (n : Nat) : State :=
  if s.samplingDue n && !((s.axis n).smpAt == s.now && (s.axis n).openF) then s.sampleAt n false else s

/-- A VBUS word reaches an axis (R340, R346). -/
def State.vbusWord (s : State) (m n : Nat) : State :=
  let s1 := if s.axActive n && decide (s.rdS (R.AX_VBUS_MAX_VBUS_MAX n) < s.rdS (R.SD_WORD_WORD m)) then s.axInvalid n 5 else s
  s1.bchEval n

/-- A sinc3 window of an input ends with its samples, oldest first (R329, R330, R336). -/
def State.sdWord (s : State) (m : Nat) (l : List Bool) : State :=
  let osr := s.sdOsr m
  if s.sdMode m = 0 ∨ l.length ≠ 3 * osr - 2 ∨ (s.sdMode m = 1 ∧ (s.sd m).worded) then s
  else
    let s1 := (s.wr (R.SD_WORD_WORD m) (sinc3 osr (min (s.rd (R.SD_CFG_WSH m)) 24) l)).setSd m { s.sd m with worded := true }
    let s2 := (s1.vbusAxes m).foldl (fun (s : State) n => s.vbusWord m n) s1
    match currentAxis m with
    | none => s2
    | some n =>
      let need := (s2.axis n).need.filter (· != m)
      let s3 := s2.axMod n fun a => { a with need := need }
      if (s3.axis n).openF && need == [] then s3.frameStage n else s3

/-- A probe pulse begins (R341). -/
def State.probePulse (s : State) (n : Nat) : State :=
  let a := s.axis n
  if s.axState n = 1 ∧ s.on (R.AX_CATCH_CATCH_MODE n) ∧ a.probes < 3 ∧ !a.probeOn ∧ s.reached ((a.batchAt + 40000 * a.probes) % 2 ^ 48) then
    (s.setPat n 2).axMod n fun b => { b with probeOn := true, probeAt := s.now, probes := b.probes + 1 }
  else s

/-- A probe pulse ends with a sampling point (R341). -/
def State.probeEnd (s : State) (n : Nat) : State :=
  let a := s.axis n
  if s.axState n = 1 ∧ a.probeOn ∧ min (max (s.rd (R.AX_CATCH_PROBE_W n)) 1) 1600 ≤ s.since a.probeAt then
    ((s.setPat n 0).axMod n fun b => { b with probeOn := false }).sampleAt n true
  else s

end Sys2Proof.Machine
end

