-- ==== Sys2Proof/Machine/FifeCore.lean ====
section
/-! DEFINITION. Fife engines (spec/13_fife_engines.md): the words and their legality, pins, shifters and CRC,
what each instruction does, waits and stalls, injection, the engine states, the safe levels. -/

namespace Sys2Proof.Machine

def State.fe (s : State) (e : Nat) : FeSt := s.fes.getD e {}
def State.setFe (s : State) (e : Nat) (v : FeSt) : State := { s with fes := s.fes.set e v }
def State.feMod (s : State) (e : Nat) (f : FeSt → FeSt) : State := s.setFe e (f (s.fe e))
/-- STATE of an engine: 0 OFF, 1 HALTED, 2 RUN. -/
def State.feState (s : State) (e : Nat) : Nat := s.rd (R.FE_STAT_STATE e)

/-! ### Instruction words (R423) -/

/-- OP of a word. -/
def feOp (w : Nat) : Nat := bits w 28 4

/-- The bits of [26:6] that an opcode does not name. -/
def feReserved (w : Nat) : Nat :=
  let z (l : List (Nat × Nat)) : Nat := (l.map fun p => bits w p.1 p.2).sum
  match feOp w with
  | 0x0 => z [(6, 21)]
  | 0x1 => z [(6, 7)]
  | 0x2 => z [(6, 12)]
  | 0x3 => z [(6, 5)]
  | 0x4 => z [(6, 7)]
  | 0x5 => z [(23, 1), (6, 7)]
  | 0x6 => z [(6, 17)]
  | 0x7 => z [(6, 19)]
  | 0x8 => z [(6, 11)]
  | 0x9 => z [(22, 2)]
  | 0xA => z [(23, 1), (6, 12)]
  | 0xB => 0
  | 0xC => z [(6, 18)]
  | _ => 1

/-- A code in a field is one the spec defines (R424 to R430). -/
def feCodes (w : Nat) : Bool :=
  match feOp w with
  | 0x1 => bits w 23 4 < 0xE && (bits w 23 4 == 5 || bits w 23 4 == 6 || bits w 13 5 == 0)
  | 0x3 => bits w 24 3 < 4 && bits w 12 2 < 3
  | 0x4 => bits w 24 3 < 5 && (bits w 24 3 == 0 || bits w 13 5 == 0)
  | 0x5 => bits w 24 3 < 6 && (bits w 24 3 == 0 || bits w 24 3 == 4 || bits w 13 5 == 0)
  | 0x6 => bits w 23 2 < 3
  | 0x8 => bits w 19 4 < 10 && (bits w 23 4 < 6 || bits w 23 4 == 8 || bits w 23 4 == 10)
  | 0x9 => bits w 24 3 < 7
  | 0xA => bits w 25 2 < 3
  | 0xB => bits w 25 2 < 3
  | 0xC => bits w 24 3 < 6
  | _ => true

/-- A word that is not illegal (R423). -/
def feLegal (w : Nat) : Bool := feReserved w == 0 && feCodes w

/-- MARK and PAUSE. -/
def feMark (w : Nat) : Bool := bit w 27
def fePause (w : Nat) : Nat := bits w 0 6

/-! ### Pins (R418, R420, R421, R440) -/

/-- The pin that window pin j is. -/
def State.fePin (s : State) (e j : Nat) : Nat := (s.rd (R.FE_WIN_WBASE e) + j) % 128

/-- The level a reader of a pin sees. -/
def State.fioRead (s : State) (p : Nat) : Bool := bit s.fioLv p != s.on (R.FIO_CFG_INV_IN p)

/-- The levels of n window pins from FIRST. -/
def State.feLevels (s : State) (e first n : Nat) : Nat :=
  ((List.range n).map fun i => b2n (s.fioRead (s.fePin e ((first + i) % 32))) * 2 ^ i).sum

/-- An engine writes the output latch or the direction latch of a window pin: only of a pin it owns, and
not of a pin with a safe level in the safe state. -/
def State.feLatch (s : State) (e : Nat) (drive : Bool) (j : Nat) (v : Bool) : State :=
  let p := s.fePin e j
  if !s.on (R.FIO_CFG_OWNED p) || s.rd (R.FIO_CFG_OWNER p) != e || ((s.inSafe || s.on R.SF_STAT_FORCED) && s.rd (R.FIO_CFG_SAFE p) != 0) then s
  else s.wr (if drive then R.FIO_CFG_OE p else R.FIO_CFG_OUT p) (b2n v)

/-- n latches of window pins from FIRST take the bits of v. -/
def State.feLatches (s : State) (e : Nat) (drive : Bool) (first n v : Nat) : State :=
  (List.range n).foldl (fun (s : State) i => s.feLatch e drive ((first + i) % 32) (bit v i)) s

/-- The safe level of every pin, and the engines with SAFE_HALT halted (R434, R440). -/
def State.fifeSafe (s : State) : State :=
  let s1 := (List.range 128).foldl (fun (s : State) p =>
    match s.rd (R.FIO_CFG_SAFE p) with
    | 1 => s.wrAll [(R.FIO_CFG_OUT p, s.rd (R.FIO_CFG_INV_OUT p)), (R.FIO_CFG_OE p, 1)]
    | 2 => s.wrAll [(R.FIO_CFG_OUT p, 1 - s.rd (R.FIO_CFG_INV_OUT p)), (R.FIO_CFG_OE p, 1)]
    | 3 => s.wr (R.FIO_CFG_OE p) 0
    | _ => s) s
  (List.range 32).foldl (fun (s : State) e =>
    if s.feState e = 2 ∧ s.on (R.FE_CTRL_SAFE_HALT e) then
      (s.wrAll [(R.FE_STAT_STATE e, 1), (R.FE_STAT_CAUSE e, 5), (R.FE_STAT_STALL e, 0)]).feMod e fun x => { x with stalled := none, stepping := false }
    else s) s1

/-! ### Completing an instruction -/

/-- The engine goes to HALTED with a cause; a cause other than HALT and SAFE is an encoder error (R431). -/
def State.feHaltWith (s : State) (e cause : Nat) : State :=
  let s1 := s.wrAll [(R.FE_STAT_STATE e, 1), (R.FE_STAT_STALL e, 0), (R.FE_STAT_CAUSE e, cause)]
  let s2 := if 2 ≤ cause ∧ cause ≤ 4 then s1.wrAll [(R.FE_STAT_ENC_ERR e, 1), (R.FE_STAT_ERR_SEEN e, 1)] else s1
  s2.feMod e fun x => { x with stalled := none, stepping := false }

/-- 48-bit Fife times n control cycles apart. -/
def fifeAdd (t n : Nat) : Nat := (t + n) % 2 ^ 48

/-- STAMP takes a time under MARK (R433). -/
def State.feStamp (s : State) (e w t : Nat) : State :=
  if feMark w then s.wrAll [(R.FE_STAMP_LO_STAMP e, t), (R.FE_STAMP_HI_STAMP e, t / 2 ^ 32)] else s

/-- The 48-bit STAMP and TGT. -/
def State.feStampVal (s : State) (e : Nat) : Nat := s.rd64 (R.FE_STAMP_LO_STAMP e) (R.FE_STAMP_HI_STAMP e)
def State.feTgtVal (s : State) (e : Nat) : Nat := s.rd64 (R.FE_TGT_LO_TGT e) (R.FE_TGT_HI_TGT e)

/-- An instruction completes: PC takes the target or advances (an injected word does not advance it), the next
engine cycle that fetches begins at `next`; a STEP ends in HALTED (R422, R434, R436). -/
def State.feDone (s : State) (e : Nat) (inj : Bool) (target : Option Nat) (next : Nat) : State :=
  let s1 := match target, inj with
    | some a, _ => s.wr (R.FE_PC_PC e) a
    | none, true => s
    | none, false => s.wr (R.FE_PC_PC e) (s.rd (R.FE_PC_PC e) + 1)
  let s2 := (s1.wr (R.FE_STAT_STALL e) 0).feMod e fun x => { x with nextAt := next, stalled := none, hit := none }
  if (s.fe e).stepping then s2.feHaltWith e 1 else s2

/-- An instruction that does not stall completes: its engine cycle starts at t. -/
def State.feEnd (s : State) (e w : Nat) (inj : Bool) (target : Option Nat) (t : Nat) : State :=
  s.feDone e inj target (fifeAdd t ((1 + fePause w) * (s.fe e).div))

/-- An instruction stalls: 1 WAIT, 2 PULL, 3 PUSH. -/
def State.feStall (s : State) (e w kind : Nat) (inj : Bool) (t : Nat) : State :=
  (s.wr (R.FE_STAT_STALL e) kind).feMod e fun x =>
    { x with stalled := some (w, inj), began := t, hit := none, nextAt := fifeAdd t x.div }

/-- The first boundary of the engine's cycles that lies after a time (R419). -/
def State.feBoundary (s : State) (e after : Nat) : Nat :=
  let x := s.fe e
  let d := (after + 2 ^ 48 - x.nextAt) % 2 ^ 48
  if d < 2 ^ 47 then fifeAdd x.nextAt ((d / x.div + 1) * x.div) else x.nextAt

/-! ### The instructions: word w, injected or not, engine cycle from t -/

/-- NOP. -/
def State.feNop (s : State) (e w : Nat) (inj : Bool) (t : Nat) : State := (s.feStamp e w (fifeAdd t 2)).feEnd e w inj none t

/-- The condition of a BR (R424). -/
def State.feCond (s : State) (e c j : Nat) : Bool :=
  match c with
  | 0x0 => true
  | 0x1 => s.rd (R.FE_K0_K0 e) == 0
  | 0x2 => s.rd (R.FE_K1_K1 e) == 0
  | 0x3 => s.rd (R.FE_K0_K0 e) != 0
  | 0x4 => s.rd (R.FE_K1_K1 e) != 0
  | 0x5 => s.fioRead (s.fePin e j)
  | 0x6 => !s.fioRead (s.fePin e j)
  | 0x7 => decide (s.rd (R.FE_SHAPE_EMT_LIM e) + 1 ≤ (s.fe e).emtn)
  | 0x8 => decide (s.rd (R.FE_SHAPE_CAP_LIM e) + 1 ≤ (s.fe e).capn)
  | 0x9 => (s.fe e).crc == s.rd (R.FE_CRC2_CRC_CHK e)
  | 0xA => s.on (R.FE_STAT_TMO e)
  | 0xB => (s.fe e).tx == []
  | 0xC => decide (8 ≤ (s.fe e).rx.length)
  | _ => s.on (R.FE_STAT_STALE e)

/-- BR. -/
def State.feBr (s : State) (e w : Nat) (inj : Bool) (t : Nat) : State :=
  let taken := s.feCond e (bits w 23 4) (bits w 13 5)
  (s.feStamp e w (fifeAdd t 2)).feEnd e w inj (if taken then some (bits w 18 5) else none) t

/-- LOOP. -/
def State.feLoop (s : State) (e w : Nat) (inj : Bool) (t : Nat) : State :=
  let f := if bit w 26 then R.FE_K1_K1 e else R.FE_K0_K0 e
  let k := s.rd f
  ((s.wr f (k - 1)).feStamp e w (fifeAdd t 2)).feEnd e w inj (if 2 ≤ k then some (bits w 18 5) else none) t

/-- A WAIT ends with the next engine cycle at tc; PAUSE counts from there (R422, R425). -/
def State.feWaitDone (s : State) (e w : Nat) (inj : Bool) (stamp tc : Nat) : State :=
  (s.feStamp e w stamp).feDone e inj none (fifeAdd tc (fePause w * (s.fe e).div))

/-- WAIT begins at t: a level already there, or a target already passed, ends it at once (R425, R442). -/
def State.feWait (s : State) (e w : Nat) (inj : Bool) (t : Nat) : State :=
  let s1 := s.wr (R.FE_STAT_TMO e) 0
  let lv := s1.fioRead (s1.fePin e (bits w 18 5))
  match bits w 24 3 with
  | 0 => if lv = bit w 23 then s1.feWaitDone e w inj (fifeAdd t (2 ^ 48 - 3)) (fifeAdd t 1) else s1.feStall e w 1 inj t
  | 1 => (s1.feMod e fun x => { x with seen := lv }).feStall e w 1 inj t
  | 2 =>
    if (t + 2 ^ 48 - s1.feTgtVal e) % 2 ^ 48 < 2 ^ 47 then (s1.wr (R.FE_STAT_TLATE e) 1).feWaitDone e w inj (fifeAdd t 1) (fifeAdd t 1)
    else s1.feStall e w 1 inj t
  | _ => s1.feStall e w 1 inj t

/-- WAIT_END: the condition of a stalled WAIT is tested in this control cycle (R425). -/
def State.feWaitTest (s : State) (e : Nat) : State :=
  match (s.fe e).stalled with
  | none => s
  | some (w, inj) =>
    let lv := s.fioRead (s.fePin e (bits w 18 5))
    let back := fifeAdd s.now (2 ^ 48 - 3)
    if feOp w ≠ 3 then s
    else match bits w 24 3 with
      | 0 => if lv = bit w 23 then s.feWaitDone e w inj back (fifeAdd s.now 1) else s
      | 1 =>
        if lv = bit w 23 ∧ (s.fe e).seen ≠ lv then s.feWaitDone e w inj back (fifeAdd s.now 1)
        else s.feMod e fun x => { x with seen := lv }
      | 2 => if s.reached (s.feTgtVal e) then s.feWaitDone e w inj (s.feTgtVal e) (s.feTgtVal e) else s
      | _ => match (s.fe e).hit with | some tc => if s.reached tc then s.feWaitDone e w inj tc tc else s | none => s

/-- WAIT_TIMEOUT: with TMOEN, TGT ends a WAIT that is no TIME wait (R425). A target passed when the WAIT began
ends it one control cycle later. -/
def State.feTimeout (s : State) (e : Nat) : State :=
  match (s.fe e).stalled with
  | none => s
  | some (w, inj) =>
    let tgt := s.feTgtVal e
    if feOp w ≠ 3 ∨ bits w 24 3 = 2 ∨ !bit w 11 ∨ !s.reached tgt then s
    else
      let b := (s.fe e).began
      let tc := if (b + 2 ^ 48 - tgt) % 2 ^ 48 < 2 ^ 47 then fifeAdd b 1 else tgt
      (s.wr (R.FE_STAT_TMO e) 1).feWaitDone e w inj tc tc

/-- A Drone moved from phase t0 in a control cycle: a PHASE wait on it may have its crossing (R57, R59, R425). -/
def State.fePhase (s : State) (d t0 : Nat) (jumped : Bool) : State :=
  if s.drnState d = 0 ∨ jumped then s
  else
    let dl := sx 32 (ux 32 ((s.phase d : Int) - (t0 : Int)))
    (List.range 32).foldl (fun (s : State) e =>
      match (s.fe e).stalled with
      | some (w, _) =>
        if feOp w = 3 ∧ bits w 24 3 = 3 ∧ bits w 14 4 = d ∧ (s.fe e).hit.isNone ∧ (crossing (s.rd (R.FE_PH_PH e)) 1 (bits w 12 2) t0 dl).isSome then
          s.feMod e fun x => { x with hit := some (fifeAdd s.now 2) }
        else s
      | none => s) s

/-- One bit enters the CRC (R432). -/
def crcBit (wd poly crc b : Nat) : Nat :=
  let fb := (b + bits crc (wd - 1) 1) % 2
  ((crc * 2) % 2 ^ wd) ^^^ (if fb = 1 then poly % 2 ^ wd else 0)

/-- Bits in order enter the CRC of an engine. -/
def State.feCrc (s : State) (e : Nat) (l : List Nat) : State :=
  let wd := s.rd (R.FE_CRC_CRC_W e) + 1
  s.feMod e fun x => { x with crc := l.foldl (crcBit wd (s.rd (R.FE_CRC_CRC_POLY e))) x.crc }

/-- SHIN (R426). -/
def State.feShin (s : State) (e w : Nat) (inj : Bool) (t : Nat) : State :=
  let n := bits w 18 5 + 1
  let v := match bits w 24 3 with
    | 0 => s.feLevels e (bits w 13 5) n
    | 1 => s.rd (R.FE_K0_K0 e) % 2 ^ n
    | 2 => s.rd (R.FE_K1_K1 e) % 2 ^ n
    | 3 => 0
    | _ => s.rd (R.FE_EMT_EMT e) % 2 ^ n
  let low := s.on (R.FE_SHAPE_CAP_ORDER e)
  let cap := s.rd (R.FE_CAP_CAP e)
  let cap' := if low then cap / 2 ^ n + v * 2 ^ (32 - n) else cap * 2 ^ n + v
  let inBits := (List.range n).map fun i => bits v (if low then i else n - 1 - i) 1
  let s1 := (s.wr (R.FE_CAP_CAP e) cap').feMod e fun x => { x with capn := min 32 (x.capn + n) }
  let s2 := if bit w 23 then s1.feCrc e inBits else s1
  (s2.feStamp e w (fifeAdd t 2)).feEnd e w inj none t

/-- SHOUT (R426). -/
def State.feShout (s : State) (e w : Nat) (inj : Bool) (t : Nat) : State :=
  let n := bits w 18 5 + 1
  let emt := s.rd (R.FE_EMT_EMT e)
  let low := s.on (R.FE_SHAPE_EMT_ORDER e)
  let v := if low then emt % 2 ^ n else emt / 2 ^ (32 - n)
  let s1 := (s.wr (R.FE_EMT_EMT e) (if low then emt / 2 ^ n else emt * 2 ^ n)).feMod e fun x => { x with emtn := min 32 (x.emtn + n) }
  let first := bits w 13 5
  let s2 := match bits w 24 3 with
    | 0 => s1.feLatches e false first n v
    | 1 => s1.wr (R.FE_K0_K0 e) v
    | 2 => s1.wr (R.FE_K1_K1 e) v
    | 3 => s1
    | 4 => s1.feLatches e true first n v
    | _ => (s1.wr (R.FE_CAP_CAP e) v).feMod e fun x => { x with capn := n }
  (s2.feStamp e w (fifeAdd t 2)).feEnd e w inj none t

/-- CAP and CAPN are cleared. -/
def State.feCapClear (s : State) (e : Nat) : State := (s.wr (R.FE_CAP_CAP e) 0).feMod e fun x => { x with capn := 0 }

/-- WHENFULL makes the PUSH a no-op (R429). -/
def State.fePushSkip (s : State) (e w : Nat) : Bool := bit w 25 && decide ((s.fe e).capn < s.rd (R.FE_SHAPE_CAP_LIM e) + 1)

/-- CAP goes to RX. -/
def State.feRxPut (s : State) (e : Nat) : State :=
  let rx := (s.fe e).rx ++ [s.rd (R.FE_CAP_CAP e)]
  ((s.feMod e fun x => { x with rx := rx }).wr (R.FE_STAT_RX_LVL e) rx.length).feCapClear e

/-- PUSH to RX (R429). -/
def State.fePushRx (s : State) (e w : Nat) (inj : Bool) (t : Nat) : State :=
  if s.fePushSkip e w then (s.feStamp e w (fifeAdd t 2)).feEnd e w inj none t
  else if (s.fe e).rx.length < 8 then ((s.feRxPut e).feStamp e w (fifeAdd t 2)).feEnd e w inj none t
  else if bit w 26 then s.feStall e w 3 inj t
  else
    ((((s.feCapClear e).wr (R.FE_STAT_STALE e) 1).count (R.FE_CNT_RX_DROP e) 1).feStamp e w (fifeAdd t 2)).feEnd e w inj none t

/-- PUSH to the DRONE port: CAP with STAMP goes to every Drone that follows ENC_SER of this engine; the position
word is scaled by the BITS the Drone took (R41, R430). -/
def State.fePushDrone (s : State) (e w : Nat) (inj : Bool) (t : Nat) : State :=
  let s1 := s.feStamp e w (fifeAdd t 2)
  if s.fePushSkip e w then s1.feEnd e w inj none t
  else
    let cap := s1.rd (R.FE_CAP_CAP e)
    let follows (d : Nat) : Bool :=
      (s1.rd (R.DRN_SRC_KIND d) == 2 && s1.rd (R.DRN_SRC_INDEX d) == e) ||
        (s1.on (R.DRN_CTRL_ALT_EN d) && s1.rd (R.DRN_SRC_ALT_KIND d) == 2 && s1.rd (R.DRN_SRC_ALT_INDEX d) == e)
    let s2 := ((List.range 16).filter follows).foldl (fun (s : State) d =>
      s.offerTo d 2 e (cap * 2 ^ (32 - (s.drone d).bitsW)) (s.feStampVal e)) s1
    ((s2.wr (R.FE_STAT_ENC_ERR e) 0).feCapClear e).feEnd e w inj none t

/-- PUSH to the PCNT port (R430). -/
def State.fePushPcnt (s : State) (e w : Nat) (inj : Bool) (t : Nat) : State :=
  let s1 := s.feStamp e w (fifeAdd t 2)
  if s.fePushSkip e w then s1.feEnd e w inj none t
  else (((s1.wr (R.FE_PCNT_PCNT e) (s1.rd (R.FE_CAP_CAP e))).wr (R.FE_STAT_ENC_ERR e) 0).feCapClear e).feEnd e w inj none t

/-- A TX word is there for an engine cycle that starts at t: it was written before (R429, R444). -/
def feTxReady (x : FeSt) (t : Nat) : Bool :=
  match x.tx with | (_, a) :: _ => decide ((t + 2 ^ 48 - 1 - a) % 2 ^ 48 < 2 ^ 47) | [] => false

/-- EMT takes a word. -/
def State.feEmt (s : State) (e v : Nat) : State := (s.wr (R.FE_EMT_EMT e) v).feMod e fun x => { x with emtn := 0 }

/-- The head of TX goes to EMT. -/
def State.feTxTake (s : State) (e : Nat) : State :=
  match (s.fe e).tx with
  | (v, _) :: rest =>
    (((s.feMod e fun x => { x with tx := rest, lastPull := v }).wr (R.FE_STAT_TX_LVL e) rest.length)).feEmt e v
  | [] => s

/-- PULL (R429). -/
def State.fePull (s : State) (e w : Nat) (inj : Bool) (t : Nat) : State :=
  let x := s.fe e
  if bit w 25 && decide (x.emtn < s.rd (R.FE_SHAPE_EMT_LIM e) + 1) then (s.feStamp e w (fifeAdd t 2)).feEnd e w inj none t
  else if feTxReady x t then ((s.feTxTake e).feStamp e w (fifeAdd t 2)).feEnd e w inj none t
  else if bit w 26 then s.feStall e w 2 inj t
  else (((s.feEmt e x.lastPull).wr (R.FE_STAT_STALE e) 1).feStamp e w (fifeAdd t 2)).feEnd e w inj none t

/-- FIFO_STALL_END: a stalled PUSH or PULL completes in the first engine cycle after its FIFO allows (R422,
R429). -/
def State.feFifoEnd (s : State) (e : Nat) : State :=
  let x := s.fe e
  match x.stalled with
  | none => s
  | some (w, inj) =>
    if feOp w = 6 then
      let b := s.feBoundary e (if x.rx.length < 8 then x.rxRead else s.now)
      if x.rx.length < 8 ∧ s.reached b then ((s.feRxPut e).feStamp e w (fifeAdd b 2)).feEnd e w inj none b else s
    else if feOp w = 7 then
      match x.tx with
      | (_, a) :: _ =>
        let b := s.feBoundary e a
        if s.reached b then ((s.feTxTake e).feStamp e w (fifeAdd b 2)).feEnd e w inj none b else s
      | [] => s
    else s

/-- The order of the n low bits of a value reversed. -/
def revBits (n v : Nat) : Nat := ((List.range n).map fun i => bits v i 1 * 2 ^ (n - 1 - i)).sum

/-- XOP of R427. -/
def feXop (op v : Nat) : Nat :=
  match op with
  | 0 => v
  | 1 => 2 ^ 32 - 1 - v % 2 ^ 32
  | 2 => revBits 32 v
  | _ => beNat (leBytes 4 v)

/-- XFER (R427). -/
def State.feXfer (s : State) (e w : Nat) (inj : Bool) (t : Nat) : State :=
  let src := match bits w 19 4 with
    | 0 => s.feLevels e 0 32
    | 1 => s.rd (R.FE_K0_K0 e)
    | 2 => s.rd (R.FE_K1_K1 e)
    | 3 => s.rd (R.FE_CAP_CAP e)
    | 4 => s.rd (R.FE_EMT_EMT e)
    | 5 => s.rd (R.FE_PH_PH e)
    | 6 => s.rd (R.FE_STAMP_LO_STAMP e)
    | 7 => t % 2 ^ 32
    | 8 => (s.fe e).crc
    | _ => 0
  let v := feXop (bits w 17 2) src
  let s1 := match bits w 23 4 with
    | 0 => s.feLatches e false 0 32 v
    | 1 => s.wr (R.FE_K0_K0 e) v
    | 2 => s.wr (R.FE_K1_K1 e) v
    | 3 => (s.wr (R.FE_CAP_CAP e) v).feMod e fun x => { x with capn := 0 }
    | 4 => s.feEmt e v
    | 5 => s.wr (R.FE_PH_PH e) v
    | 8 => s.feMod e fun x => { x with crc := v % 2 ^ 16 }
    | _ => s.feLatches e true 0 32 v
  (s1.feStamp e w (fifeAdd t 2)).feEnd e w inj none t

/-- LOAD (R428). -/
def State.feLoad (s : State) (e w : Nat) (inj : Bool) (t : Nat) : State :=
  let imm := bits w 6 16
  let s1 := match bits w 24 3 with
    | 0 => s.wr (R.FE_K0_K0 e) imm
    | 1 => s.wr (R.FE_K1_K1 e) imm
    | 2 => s.feLatches e false 0 16 imm
    | 3 => s.feLatches e false 16 16 imm
    | 4 => s.feLatches e true 0 16 imm
    | 5 => s.feLatches e true 16 16 imm
    | _ => s.wr (R.FE_PH_PH e) (imm * 2 ^ 16)
  (s1.feStamp e w (fifeAdd t 2)).feEnd e w inj none t

/-- PIN (R428). -/
def State.fePinOp (s : State) (e w : Nat) (inj : Bool) (t : Nat) : State :=
  let j := bits w 18 5
  let drv := bit w 24
  let cur := s.on (if drv then R.FIO_CFG_OE (s.fePin e j) else R.FIO_CFG_OUT (s.fePin e j))
  let v := match bits w 25 2 with | 0 => false | 1 => true | _ => !cur
  ((s.feLatch e drv j v).feStamp e w (fifeAdd t 2)).feEnd e w inj none t

/-- TGT takes a time. -/
def State.feSetTgt (s : State) (e t : Nat) : State := s.wrAll [(R.FE_TGT_LO_TGT e, t), (R.FE_TGT_HI_TGT e, t / 2 ^ 32)]

/-- TGT (R428). -/
def State.feTgt (s : State) (e w : Nat) (inj : Bool) (t : Nat) : State :=
  let base := match bits w 25 2 with | 0 => t | 1 => s.feStampVal e | _ => s.feTgtVal e
  ((s.feSetTgt e (fifeAdd base (bits w 6 19))).feStamp e w (fifeAdd t 2)).feEnd e w inj none t

/-- SIG ERR. -/
def State.feSigErr (s : State) (e w : Nat) (inj : Bool) (t : Nat) : State :=
  ((((s.wrAll [(R.FE_STAT_ENC_ERR e, 1), (R.FE_STAT_ERR_SEEN e, 1)]).count (R.FE_CNT_ERR_CNT e) 1)).feStamp e w (fifeAdd t 2)).feEnd e w inj none t

/-- SIG IRQ. -/
def State.feSigIrq (s : State) (e w : Nat) (inj : Bool) (t : Nat) : State :=
  ((s.wr (R.FE_STAT_IRQ e) 1).feStamp e w (fifeAdd t 2)).feEnd e w inj none t

/-- SIG TOKEN: posted when EN of FE_TOK is set; every earlier PUSH has been performed (R428, R439). -/
def State.feSigToken (s : State) (e w : Nat) (inj : Bool) (t : Nat) : State :=
  let s1 := if s.on (R.FE_TOK_EN e) then s.token (s.rd (R.FE_TOK_UNIT e)) (s.rd (R.FE_TOK_CONTEXT e)) (s.rd (R.FE_TOK_COUNTER e)) else s
  (s1.feStamp e w (fifeAdd t 2)).feEnd e w inj none t

/-- SIG HALT: PC at the next word; a STEP ends with cause HALT. -/
def State.feSigHalt (s : State) (e w : Nat) (inj : Bool) (t : Nat) : State :=
  let s1 := (s.feStamp e w (fifeAdd t 2)).feEnd e w inj none t
  if (s.fe e).stepping then s1 else s1.feHaltWith e 2

/-- SIG CLRSTALE. -/
def State.feSigClrstale (s : State) (e w : Nat) (inj : Bool) (t : Nat) : State :=
  ((s.wr (R.FE_STAT_STALE e) 0).feStamp e w (fifeAdd t 2)).feEnd e w inj none t

/-- SIG CRCRST. -/
def State.feSigCrcrst (s : State) (e w : Nat) (inj : Bool) (t : Nat) : State :=
  ((s.feMod e fun x => { x with crc := s.rd (R.FE_CRC2_CRC_INIT e) }).feStamp e w (fifeAdd t 2)).feEnd e w inj none t

/-- A legal word executes. -/
def State.feExec (s : State) (e w : Nat) (inj : Bool) (t : Nat) : State :=
  match feOp w with
  | 0x0 => s.feNop e w inj t
  | 0x1 => s.feBr e w inj t
  | 0x2 => s.feLoop e w inj t
  | 0x3 => s.feWait e w inj t
  | 0x4 => s.feShin e w inj t
  | 0x5 => s.feShout e w inj t
  | 0x6 => (match bits w 23 2 with | 0 => s.fePushRx e w inj t | 1 => s.fePushDrone e w inj t | _ => s.fePushPcnt e w inj t)
  | 0x7 => s.fePull e w inj t
  | 0x8 => s.feXfer e w inj t
  | 0x9 => s.feLoad e w inj t
  | 0xA => s.fePinOp e w inj t
  | 0xB => s.feTgt e w inj t
  | _ => (match bits w 24 3 with
    | 0 => s.feSigErr e w inj t
    | 1 => s.feSigIrq e w inj t
    | 2 => s.feSigToken e w inj t
    | 3 => s.feSigHalt e w inj t
    | 4 => s.feSigClrstale e w inj t
    | _ => s.feSigCrcrst e w inj t)

/-! ### Fetching (R422, R434, R436, R437) -/

/-- A word of instruction memory; unknown until it is first written after power-up. -/
def State.feImem (s : State) (e i : Nat) : Nat :=
  if (s.fe e).known.contains i then s.rd (R.FE_IMEM_WORD e i)
  else leNat ((List.range 4).map fun b => Config.unknownByte (0x180100 + 0x200 * e + 4 * i + b))

/-- The word that the engine executes in an engine cycle that begins now: in RUN, not stalled, at an
instruction boundary, the pending injected word or the word at PC. -/
def State.feNext (s : State) (e : Nat) : Option (Nat × Bool) :=
  if s.feState e ≠ 2 ∨ (s.fe e).stalled.isSome ∨ (s.fe e).stepping ∨ !s.reached (s.fe e).nextAt then none
  else match (s.fe e).inj with
    | some w => some (w, true)
    | none => some (s.feImem e (s.rd (R.FE_PC_PC e)), false)

/-- The pending injected word is taken. -/
def State.feInjTake (s : State) (e : Nat) (inj : Bool) : State :=
  if inj then (s.wr (R.FE_STAT_INJ_PEND e) 0).feMod e fun x => { x with inj := none } else s

/-- The engine executes the word it fetches, if it is a legal word of the instruction named. -/
def State.feIssue (s : State) (e : Nat) (isOp : Nat → Bool) (body : State → Nat → Nat → Bool → Nat → State) : State :=
  match s.feNext e with
  | some (w, inj) => if feLegal w && isOp w then body (s.feInjTake e inj) e w inj (s.fe e).nextAt else s
  | none => s

/-- FETCH_ILLEGAL (R434, R436). -/
def State.feIllegal (s : State) (e : Nat) : State :=
  match s.feNext e with
  | some (w, inj) => if feLegal w then s else (s.feInjTake e inj).feHaltWith e 3
  | none => s

/-- FETCH_PARITY_ERROR: of a word fetched from the instruction memory (R434, R436). -/
def State.feParity (s : State) (e : Nat) : State :=
  match s.feNext e with
  | some (_, false) => (s.feHaltWith e 4).report 0x1E e
  | _ => s

/-! ### Commands to engines (R434 to R438) -/

/-- EN written (R434). -/
def State.feEnable (s : State) (e : Nat) (one : Bool) : State :=
  if one then
    if s.feState e ≠ 0 then s
    else
      (s.wrAll [(R.FE_CTRL_EN e, 1), (R.FE_STAT_STATE e, 1), (R.FE_STAT_STALL e, 0), (R.FE_STAT_CAUSE e, 0), (R.FE_STAT_STALE e, 0),
        (R.FE_STAT_ENC_ERR e, 0), (R.FE_STAT_ERR_SEEN e, 0), (R.FE_STAT_IRQ e, 0), (R.FE_STAT_TMO e, 0), (R.FE_STAT_INJ_PEND e, 0),
        (R.FE_STAT_INJ_OVF e, 0), (R.FE_STAT_TX_OVF e, 0), (R.FE_STAT_RX_UF e, 0), (R.FE_STAT_TX_LVL e, 0), (R.FE_STAT_RX_LVL e, 0),
        (R.FE_STAT_TLATE e, 0), (R.FE_PC_PC e, 0), (R.FE_K0_K0 e, 0), (R.FE_K1_K1 e, 0), (R.FE_CAP_CAP e, 0), (R.FE_EMT_EMT e, 0),
        (R.FE_PH_PH e, 0), (R.FE_STAMP_LO_STAMP e, 0), (R.FE_STAMP_HI_STAMP e, 0), (R.FE_TGT_LO_TGT e, 0), (R.FE_TGT_HI_TGT e, 0),
        (R.FE_PCNT_PCNT e, 0)]).setFe e { known := (s.fe e).known }
  else
    (s.wrAll [(R.FE_CTRL_EN e, 0), (R.FE_STAT_STATE e, 0), (R.FE_STAT_STALL e, 0), (R.FE_STAT_ENC_ERR e, 0), (R.FE_STAT_INJ_PEND e, 0)]).feMod e
      fun x => { x with stalled := none, inj := none, stepping := false }

/-- HALT written 1 (R434). -/
def State.feHalt (s : State) (e : Nat) : State := if s.feState e = 2 then s.feHaltWith e 1 else s

/-- STEP written 1: the word at PC executes in an engine cycle that begins in the next control cycle (R434). -/
def State.feStep (s : State) (e : Nat) : State :=
  if s.feState e ≠ 1 ∨ (s.fe e).stalled.isSome then s
  else
    let w := s.feImem e (s.rd (R.FE_PC_PC e))
    if feLegal w then ((s.wr (R.FE_STAT_STATE e) 2).feMod e fun x => { x with stepping := true }).feExec e w false (fifeAdd s.now 1)
    else s.feHaltWith e 3

/-- A write of FE_CTRL. -/
def State.writeFeCtrl (s : State) (e w : Nat) : State :=
  let st := s.feState e
  let s0 := s.wrAll [(R.FE_CTRL_IRQ_EN e, bits w 3 1), (R.FE_CTRL_INJ_FORCE e, bits w 5 1)]
  let s1 := if s.unlocked then s0.wr (R.FE_CTRL_SAFE_HALT e) (bits w 4 1) else s0
  let s2 := if bit w 0 = (st != 0) then s1 else s1.feEnable e (bit w 0)
  let s3 := if bit w 1 && st == 2 then s2.feHalt e else s2
  if bit w 2 && st == 1 then s3.feStep e else s3

/-- FIFE_GO (R435): the named HALTED engines go to RUN together. -/
def State.feGo (s : State) (mask : Nat) : State :=
  (List.range 32).foldl (fun (s : State) e =>
    if bit mask e && s.feState e == 1 then
      (s.wr (R.FE_STAT_STATE e) 2).feMod e fun x => { x with div := max 2 (s.rd (R.FE_CLK_DIV e)), nextAt := fifeAdd s.now 1, stepping := false }
    else s) s

/-- FIFE_CLKRST (R435): the current engine cycle of each named engine in RUN is cut short; a PAUSE keeps its
remaining count. -/
def State.feClkrst (s : State) (mask : Nat) : State :=
  (List.range 32).foldl (fun (s : State) e =>
    if bit mask e && s.feState e == 2 then
      s.feMod e fun x =>
        let r := (x.nextAt + 2 ^ 48 - s.now) % 2 ^ 48
        { x with nextAt := fifeAdd s.now (1 + (if 0 < r ∧ r < 2 ^ 47 then (r - 1) / x.div * x.div else 0)) }
    else s) s

/-- The stalled instruction is abandoned with no effect and PC moves past it (R436). -/
def State.feAbandon (s : State) (e : Nat) : State :=
  match (s.fe e).stalled with
  | none => s
  | some (_, inj) =>
    let b := s.feBoundary e s.now
    let s1 := if inj then s else s.wr (R.FE_PC_PC e) (s.rd (R.FE_PC_PC e) + 1)
    (s1.wr (R.FE_STAT_STALL e) 0).feMod e fun x => { x with stalled := none, hit := none, nextAt := b }

/-- A write of FE_INJ (R436): into a HALTED engine the word runs once. -/
def State.feInject (s : State) (e w : Nat) : State :=
  if (s.fe e).inj.isSome then s.wr (R.FE_STAT_INJ_OVF e) 1
  else if s.feState e = 0 then s
  else
    let s1 := if s.on (R.FE_CTRL_INJ_FORCE e) then s.feAbandon e else s
    if s1.feState e = 1 ∧ (s1.fe e).stalled.isNone then
      if feLegal w then s1.feExec e w true (fifeAdd s.now 1) else s1.feHaltWith e 3
    else (s1.wr (R.FE_STAT_INJ_PEND e) 1).feMod e fun x => { x with inj := some w }

/-- A pending word of a HALTED engine whose stall has ended runs (R436). -/
def State.feInjHalted (s : State) (e : Nat) : State :=
  match (s.fe e).inj with
  | some w =>
    if s.feState e = 1 ∧ (s.fe e).stalled.isNone then
      let s1 := s.feInjTake e true
      if feLegal w then s1.feExec e w true (s.fe e).nextAt else s1.feHaltWith e 3
    else s
  | none => s

/-- A write of FE_TX (R438). -/
def State.feTxWrite (s : State) (e v : Nat) : State :=
  let x := s.fe e
  if 8 ≤ x.tx.length then s.wr (R.FE_STAT_TX_OVF e) 1
  else (s.setFe e { x with tx := x.tx ++ [(v % 2 ^ 32, s.now)] }).wr (R.FE_STAT_TX_LVL e) (x.tx.length + 1)

/-- A read of FE_RX: the word and what the read leaves (R438). -/
def State.feRxRead (s : State) (e : Nat) : Nat × State :=
  let x := s.fe e
  match x.rx with
  | v :: rest =>
    (v, (s.setFe e { x with rx := rest, rxRead := if x.rx.length = 8 then s.now else x.rxRead }).wr (R.FE_STAT_RX_LVL e) rest.length)
  | [] => (0, s.wr (R.FE_STAT_RX_UF e) 1)

/-- A write of an instruction-memory word (R437). -/
def State.writeFeImem (s : State) (e i w : Nat) : State :=
  (s.wr (R.FE_IMEM_WORD e i) w).feMod e fun x => { x with known := if x.known.contains i then x.known else i :: x.known }

/-- FIFE_NOW_LO is read: FIFE_NOW_HI is captured (R448). -/
def State.feNowRead (s : State) : Nat × State :=
  (s.now % 2 ^ 32, s.wrAll [(R.FIFE_NOW_LO_NOW, s.now), (R.FIFE_NOW_HI_NOW, s.now / 2 ^ 32)])

/-- FIO_IN j (R448): the synchronised levels of 32 pins as a reader sees them. -/
def State.fioIn (s : State) (j : Nat) : Nat := ((List.range 32).map fun i => b2n (s.fioRead (32 * j + i)) * 2 ^ i).sum

/-- Writes of FE_PC, FE_K0, FE_K1, FE_CAP, FE_EMT, FE_PH and FE_TGT take effect in HALTED only (R434, R448). -/
def State.feRegWrite (s : State) (e : Nat) (f : Fld) (w : Nat) : State :=
  if s.feState e ≠ 1 then s
  else
    let s1 := s.wr f w
    if f.key = (R.FE_CAP_CAP e).key then s1.feMod e fun x => { x with capn := 0 }
    else if f.key = (R.FE_EMT_EMT e).key then s1.feMod e fun x => { x with emtn := 0 }
    else s1

/-- CNT_CLR (R787). -/
def State.feCntClr (s : State) : State :=
  (List.range 32).foldl (fun (s : State) e => s.wrAll [(R.FE_CNT_RX_DROP e, 0), (R.FE_CNT_ERR_CNT e, 0)]) s

end Sys2Proof.Machine
end

