-- ==== Sys2Proof/Machine/LightCore.lean ====
section
/-! DEFINITION. Light links (spec/12_light_links.md): frames and their CRC, link states, update instants,
refreshes, the computation of an update, diagnostic pulses, status reads, line scanning, the safe
pattern. -/

namespace Sys2Proof.Machine

def State.ll (s : State) (l : Nat) : LlSt := s.lls.getD l {}
def State.setLl (s : State) (l : Nat) (v : LlSt) : State := { s with lls := s.lls.set l v }
def State.llMod (s : State) (l : Nat) (f : LlSt → LlSt) : State := s.setLl l (f (s.ll l))
/-- STATE of a link: 0 OFF, 1 START, 2 RUN, 3 SAFE. -/
def State.llState (s : State) (l : Nat) : Nat := s.rd (R.LL_STAT_STATE l)

/-! ### Frames (R390 to R393) -/

/-- CRC-8 of R391 over 16-bit words, most significant bit first. -/
def crc8Words (l : List Nat) : Nat := crcLeft 8 0x07 0xFF (l.flatMap fun w => [bits w 8 8, bits w 0 8])

/-- Header of a frame. -/
def LlFrame.header (f : LlFrame) : Nat := f.addr * 2 ^ 11 + f.cmd * 2 ^ 7 + f.words.length

/-- The words of a frame as sent, with the CRC that follows them. -/
def LlFrame.image (f : LlFrame) : List Nat × Nat := (f.header :: f.words, crc8Words (f.header :: f.words))

/-- Broadcast commands: 3 LATCH, 4 BLANK, 5 SAFE. -/
def bcast (cmd : Nat) : LlFrame := ⟨0x1F, cmd, []⟩

/-- WRITE of values from a start register. -/
def writeFrame (d start : Nat) (vals : List Nat) : LlFrame := ⟨d, 1, start :: vals⟩

/-- READ of n registers. -/
def readFrame (d start n : Nat) : LlFrame := ⟨d, 2, [start, n]⟩

/-- A command frame goes out. -/
def State.llSend (s : State) (l : Nat) (f : LlFrame) : State := s.llMod l fun x => { x with last := some f }

/-! ### Channels (R403 to R407) -/

def State.lch (s : State) (i : Nat) : LchSt := tget {} s.lchs i
def State.setLch (s : State) (i : Nat) (v : LchSt) : State := { s with lchs := tset {} s.lchs i v }

/-- Physical drivers of a link that are enabled and not disabled at START. -/
def State.llDrivers (s : State) (l : Nat) : List Nat :=
  let n := if s.on (R.LL_CTRL_SCAN l) then s.rd (R.LL_CTRL_NDRV l) + 1 else 16
  (List.range n).filter fun d => s.on (R.LD_CFG_EN l d) && !(s.ll l).dead.contains d

/-- Interpolation of a fade (R404). -/
def fadeStep (a b k n : Nat) : Nat := ((a : Int) + (2 * ((b : Int) - a) * k + n) / (2 * n)).toNat

/-- The level of a fade (R404). -/
def fadeLevel (perceptual : Bool) (x : LchSt) : Nat :=
  if x.n ≤ x.k then x.l1
  else if perceptual then
    let p := fadeStep (isqrt (x.l0 * 2 ^ 16) 16 0) (isqrt (x.l1 * 2 ^ 16) 16 0) x.k x.n
    (p * p + 2 ^ 15) / 2 ^ 16
  else fadeStep x.l0 x.l1 x.k x.n

/-- One update of the fade toward a target over n updates (R404). -/
def LchSt.fade (x : LchSt) (perceptual : Bool) (target n : Nat) : LchSt :=
  let y := if target ≠ x.l1 then { x with l0 := x.level, l1 := target, k := 0, n := n } else x
  let z := { y with k := min (y.k + 1) y.n }
  { z with level := fadeLevel perceptual z }

/-- The compensation gain of a colour group at a temperature (R405); a STEP of 0 gives a free value. -/
def State.compGain (s : State) (g : Nat) (t : Int) : Nat :=
  let st := s.rd (R.LC_T0_STEP g)
  if st = 0 then s.free (256 + g) % 2 ^ 16
  else
    let pos := (t - s.rdS (R.LC_T0_T0 g) * 2 ^ 23) / (st : Int)
    let gn (j : Nat) : Int := s.rd (R.LC_GAIN_G g j)
    if pos < 0 then (gn 0).toNat
    else
      let p := pos.toNat
      let j := p / 2 ^ 23
      let fr : Int := bits p 7 16
      if 7 ≤ j then (gn 7).toNat else (gn j + (gn (j + 1) - gn j) * fr / 2 ^ 16).toNat

/-- The derating factor (R406). -/
def State.derateOf (s : State) (l : Nat) (t : Int) : Nat :=
  let knee := s.rdS (R.LL_KNEE_KNEE l) * 2 ^ 23
  if t ≤ knee then 65536
  else (max (s.rd (R.LL_DERATE_DR_MIN l) : Int) (65536 - (s.rd (R.LL_DERATE_DR_SLOPE l)) * (t - knee) / 2 ^ 23)).toNat

/-- The diagnostic rule (R407): duty out, surplus. -/
def diagRule (thr dmin per upd : Nat) (zero : Bool) (sur d : Nat) : Nat × Nat :=
  if sur = 0 ∧ d < thr ∧ (0 < d ∨ zero) ∧ per ≠ 0 ∧ upd % per = 0 then (dmin, dmin - d)
  else (d - sur, sur - (d - (d - sur)))

/-- One enabled channel of an update (R403, R415): link, driver, channel. -/
def State.channelUpdate (s : State) (l d c : Nat) : State :=
  let i := 16 * d + c
  let key := 256 * l + i
  let x := s.lch key
  if !s.on (R.LC_CFG_EN l i) then ((s.setLch key { x with dot := 0 }).wr (R.LC_STAT_OUT l i) 0)
  else
    let sel := s.rd (R.LC_SRC_SEL l i)
    let q := if s.on (R.LC_CFG_REG l i) || !srefOk sel then (s, 0, 0, false) else s.chnInput sel (320 + i)
    let t0 := if s.on (R.LC_CFG_REG l i) then s.rd (R.LC_LEVEL_LEVEL l i) else (clampI 0 65535 (asr (sx 32 q.2.1) 15)).toNat
    let target := if q.2.2.1 = 2 then s.rd (R.LC_SAFE_SAFE_L l i) else t0
    let y := x.fade (s.on (R.LC_CFG_PERCEPTUAL l i)) target (s.rd (R.LC_LEVEL_FADE_N l i))
    let g := ((s.ll l).gain.getD (s.rd (R.LC_CFG_GROUP l i)) none).getD 0
    let d0 := min 65535 ((y.level * g + 2 ^ 13) / 2 ^ 14)
    let zero := s.on (R.LC_CFG_DIAG_ZERO l i)
    let r := diagRule (s.rd (R.LL_DIAG_DIAG_THR l)) (s.rd (R.LL_DIAG_DIAG_MIN l)) (s.rd (R.LL_DIAG2_DIAG_PER l)) (s.ll l).upd zero y.s d0
    let off := s.on (R.LC_CFG_FLT_OFF l i) && (s.on (R.LC_STAT_OPEN l i) || s.on (R.LC_STAT_SHORT l i))
    let dot := if s.on (R.LD_CFG_CLASS l d) then 0 else (s.rd (R.LC_CFG_DOT l i) * (s.ll l).derate + 2 ^ 15) / 2 ^ 16
    (q.1.setLch key { y with s := r.2, dot := dot }).wrAll
      [(R.LC_STAT_OUT l i, if off then 0 else r.1), (R.LC_STAT_FADING l i, b2n (decide (y.k < y.n))), (R.LC_STAT_DIAG_PEND l i, b2n (r.2 != 0)),
       (R.LC_STAT_UNTESTED l i, b2n (d0 == 0 && !zero))]

/-- An update of a link is computed (R401, R405, R406). -/
def State.llUpdate (s : State) (l : Nat) : State :=
  let q := s.chnInput (s.rd (R.LL_THERM_TEMP_SRC l)) 319
  let t := sx 32 q.2.1
  let bad := q.2.2.1 == 2
  let old := (s.ll l).gain
  let gain := (List.range 8).map fun g => if bad then some ((old.getD g none).getD (s.free (256 + g) % 2 ^ 16)) else some (s.compGain g t)
  let s1 := (q.1.drawn.llMod l fun x => { x with upd := x.upd + 1, gain := gain, derate := if bad then s.rd (R.LL_DERATE_DR_MIN l) else s.derateOf l t })
  let s2 := s1.count (R.LL_CNT2_UPDATES l) 1
  (List.range 256).foldl (fun (s : State) i => s.channelUpdate l (i / 16) (i % 16)) s2

/-- The WRITE of registers 0x01 to 0x23 of a driver from the channels of record driver v: GCUR, LINE, DOT,
PWM (R401, R403). -/
def State.refreshFrame (s : State) (l p v line : Nat) : LlFrame :=
  let gcur := (s.rd (R.LD_CFG_GCUR_BASE l p) * (s.ll l).derate + 2 ^ 15) / 2 ^ 16
  writeFrame p 1 ([gcur, line, 0] ++ ((List.range 16).map fun c => (s.lch (256 * l + 16 * v + c)).dot) ++
    (List.range 16).map fun c => s.rd (R.LC_STAT_OUT l (16 * v + c)))

/-- WRITE of CONF and of SAFE_PWM of a driver (R397, R411). -/
def State.confFrame (s : State) (l d : Nat) : LlFrame := writeFrame d 0 [s.rd (R.LD_CFG_PB l d) + 16 * s.rd (R.LD_CFG_WD l d)]
def State.safeFrame (s : State) (l d : Nat) : LlFrame := writeFrame d 0x28 ((List.range 16).map fun c => s.rd (R.LC_SAFE_SAFE_L l (16 * d + c)))

/-- The refresh of the update starts (R401), with any SAFE_PWM that is to be written (R411). -/
def State.startRefresh (s : State) (l : Nat) : State :=
  let ds := s.llDrivers l
  s.llMod l fun x =>
    { x with complete := false, refAt := s.now, polls := [], safeDirty := [],
             txq := ((ds.filter fun d => x.safeDirty.contains d).map (s.safeFrame l)) ++ ds.map fun d => s.refreshFrame l d d 0 }

/-! ### Link states (R397 to R399) -/

/-- The link enters RUN; while the part is in the safe state it goes on to SAFE. -/
def State.llRun (s : State) (l : Nat) : State :=
  let p := s.rd (R.LL_PERIOD_PERIOD l)
  let scan := s.on (R.LL_CTRL_SCAN l)
  let timer := s.rd (R.LL_CTRL_LATCH_SRC l) == 0
  let s1 := (s.wr (R.LL_STAT_STATE l) 2).llMod l fun x =>
    { x with since := s.now, tick := (s.now + p) % 2 ^ 48, falls := [], upd := 0, complete := false, txq := [], polls := [], starting := [],
             slot := none, held := false, blanked := true, slotAt := if scan && timer then some s.now else none }
  if s.inSafe then (s1.wr (R.LL_STAT_STATE l) 3).llSend l (bcast 5) else s1

/-- EN written 1 is refused (R397, R399, R403, R407, R410). -/
def State.llBad (s : State) (l : Nat) : Bool :=
  let d := s.rd (R.LL_CTRL_D l)
  let p := s.rd (R.LL_PERIOD_PERIOD l)
  let src := s.rd (R.LL_CTRL_LATCH_SRC l)
  let scan := s.on (R.LL_CTRL_SCAN l)
  d < 25 || 100 < d || src == 3 || (src == 0 && p == 0) || (scan && (p == 0 || decide (p ≤ s.rd (R.LL_BLANK_T_BLANK l)))) ||
    (scan && decide (16 < (s.rd (R.LL_CTRL_NDRV l) + 1) * (s.rd (R.LL_CTRL_LINES l) + 1))) ||
    decide (s.rd (R.LL_DIAG_DIAG_MIN l) < s.rd (R.LL_DIAG_DIAG_THR l)) ||
    (List.range 256).any fun i => s.on (R.LC_CFG_EN l i) && !srefOk (s.rd (R.LC_SRC_SEL l i))

/-- EN written (R397). -/
def State.llEnable (s : State) (l : Nat) (one : Bool) : State :=
  if one then
    if s.llState l ≠ 0 then s
    else if s.llBad l then s.wr (R.LL_STAT_REJ l) 1
    else
      let s1 := (s.wrAll [(R.LL_CTRL_EN l, 1), (R.LL_STAT_STATE l, 1)]).setLl l { since := s.now }
      { s1 with lchs := tdrop s1.lchs (256 * l) 256 }
  else (s.wrAll [(R.LL_CTRL_EN l, 0), (R.LL_STAT_STATE l, 0)]).setLl l {}

/-- A write of LL_CTRL. -/
def State.writeLlCtrl (s : State) (l w : Nat) : State :=
  let s1 := if s.llState l = 0 ∧ s.unlocked then
      s.wrAll [(R.LL_CTRL_D l, bits w 1 7), (R.LL_CTRL_LATCH_SRC l, bits w 8 2), (R.LL_CTRL_SCAN l, bits w 10 1), (R.LL_CTRL_SAFE_REP l, bits w 13 1),
        (R.LL_CTRL_NDRV l, bits w 16 4), (R.LL_CTRL_LINES l, bits w 20 4)]
    else s
  (s1.wrAll [(R.LL_CTRL_POLL l, bits w 11 1), (R.LL_CTRL_IRQ_EN l, bits w 12 1)]).llEnable l (bit w 0)

/-- A fault of a link is raised (R409). -/
def State.llFault (s : State) (l : Nat) : State := (s.wr (R.LL_STAT_FLT l) 1).reportIf (s.on (R.LL_CTRL_SAFE_REP l)) (0x28 + l) 0

/-- 64 idle bit periods have passed: CONF and SAFE_PWM go to each enabled driver, and a READ of ID (R397). -/
def State.startIdleEnd (s : State) (l : Nat) : State :=
  let x := s.ll l
  if s.llState l ≠ 1 ∨ x.begun ∨ s.since x.since < 32 * s.rd (R.LL_CTRL_D l) then s
  else
    let ds := s.llDrivers l
    let s1 := s.setLl l { x with begun := true, starting := ds, tries := 0,
                                 txq := ds.flatMap fun d => [s.confFrame l d, s.safeFrame l d, readFrame d 0x27 1] }
    if ds = [] then s1.llRun l else s1

/-- The next driver of START, or RUN. -/
def State.startNext (s : State) (l : Nat) : State :=
  let rest := (s.ll l).starting.tail
  let s1 := s.llMod l fun x => { x with starting := rest, tries := 0 }
  if rest = [] then s1.llRun l else s1

/-- The response to a READ of ID in START (R397, R398). -/
def State.startResponse (s : State) (l d : Nat) (ok : Bool) (id : Nat) : State :=
  if !ok then
    let s1 := s.count (R.LL_CNT1_RSP_CRC l) 1
    if (s.ll l).tries + 1 < 3 then s1.llMod l fun x => { x with tries := x.tries + 1 }
    else (((s1.wr (R.LD_STAT_NO_RESP l d) 1).llFault l).llMod l fun x => { x with dead := d :: x.dead }).startNext l
  else
    let s1 := s.wr (R.LD_STAT_ID l d) id
    let cls := if s.on (R.LD_CFG_CLASS l d) then 2 else 1
    (if bits id 12 4 = cls then s1 else (s1.wr (R.LL_STAT_CLASS_ERR l) 1).llMod l fun x => { x with dead := d :: x.dead }).startNext l

/-- The record driver whose channels a physical driver shows: its own, or under SCAN the line's. -/
def State.llRecord (s : State) (l d : Nat) : Nat :=
  if s.on (R.LL_CTRL_SCAN l) then ((s.ll l).slot.getD 0) * (s.rd (R.LL_CTRL_NDRV l) + 1) + d else d

/-- The findings of a status read (R408). -/
def State.findings (s : State) (l d status op sh : Nat) : State :=
  let v := s.llRecord l d
  let s1 := (List.range 16).foldl (fun (s : State) c =>
    (s.flag (bit op c) (R.LC_STAT_OPEN l (16 * v + c))).flag (bit sh c) (R.LC_STAT_SHORT l (16 * v + c))) s
  let s2 := if bit status 0 then s1.count (R.LD_CNT_FAILED_FR l d) (bits status 8 8) else s1
  let s3 := (s2.flag (bit status 1) (R.LD_STAT_DRV_HOT l d)).flag (bit status 3) (R.LD_STAT_WD l d)
  if op % 2 ^ 16 ≠ 0 ∨ sh % 2 ^ 16 ≠ 0 ∨ bit status 1 ∨ bit status 3 then s3.llFault l else s3

/-- The response to the READ in progress (R393, R398, R408): its words and its CRC. -/
def State.readResponse (s : State) (l : Nat) (words : List Nat) (crc : Nat) : State :=
  let x := s.ll l
  let ok (n : Nat) := words.length == n && crc == crc8Words words
  match s.llState l, x.starting, x.polls with
  | 1, d :: _, _ => if x.begun then s.startResponse l d (ok 1) (words.headD 0) else s
  | 0, _, _ => s
  | 1, [], _ => s
  | _, _, d :: rest =>
    let s1 := s.llMod l fun x => { x with polls := rest, fails := x.fails.set d (if ok 3 then 0 else x.fails.getD d 0 + 1) }
    if ok 3 then s1.findings l d (words.getD 0 0) (words.getD 1 0) (words.getD 2 0)
    else
      let s2 := s1.count (R.LL_CNT1_RSP_CRC l) 1
      if 3 ≤ x.fails.getD d 0 + 1 then (s2.wr (R.LD_STAT_NO_RESP l d) 1).llFault l else s2
  | _, _, [] => s

/-! ### Update instants (R400 to R402, R411, R412, R414) -/

/-- The LATCH SYNC fall that is due on a link, if any. -/
def State.llDue (s : State) (l : Nat) : Bool :=
  let x := s.ll l
  2 ≤ s.llState l && !s.on (R.LL_CTRL_SCAN l) &&
    (if s.rd (R.LL_CTRL_LATCH_SRC l) = 0 then s.reached ((x.tick + 1300) % 2 ^ 48)
     else match x.falls with | t :: _ => s.reached t | [] => false)

/-- The instant is spent. -/
def State.llPop (s : State) (l : Nat) : State :=
  s.llMod l fun x =>
    if s.rd (R.LL_CTRL_LATCH_SRC l) = 0 then { x with tick := (x.tick + s.rd (R.LL_PERIOD_PERIOD l)) % 2 ^ 48 } else { x with falls := x.falls.tail }

/-- The SYNC fall on one link: LATCH or LATE_REFRESH, then update and refresh; in SAFE only polling goes on,
and a changed SAFE_PWM with a further SAFE frame. -/
def State.llFall (s : State) (l : Nat) (latch : Bool) : State :=
  if s.llState l = 3 then
    let dirty := (s.llDrivers l).filter fun d => (s.ll l).safeDirty.contains d
    let s1 := s.llMod l fun x => { x with safeDirty := [], txq := dirty.map (s.safeFrame l), polls := if s.on (R.LL_CTRL_POLL l) then s.llDrivers l else [] }
    if dirty = [] then s1 else s1.llSend l (bcast 5)
  else
    let s1 := if latch then s.llSend l (bcast 3) else s.count (R.LL_CNT1_LATE_REFRESH l) (b2n (!(s.ll l).complete))
    (s1.llUpdate l).startRefresh l

/-- UPDATE_INSTANT of a link; the links of BCAST fall together (R400, R402). -/
def State.updateInstant (s : State) (l : Nat) : State :=
  if !s.llDue l then s
  else if s.rd (R.LL_CTRL_LATCH_SRC l) = 2 then
    let ls := (List.range 4).filter fun k => s.rd (R.LL_CTRL_LATCH_SRC k) == 2 && s.llDue k
    let all := ls.all fun k => s.llState k == 3 || (s.ll k).complete
    ls.foldl (fun (s : State) k => (s.llPop k).llFall k all) s
  else (s.llPop l).llFall l (s.ll l).complete

/-- The last WRITE of a refresh ends: status reads may start (R401, R408). -/
def State.refreshComplete (s : State) (l : Nat) : State :=
  let x := s.ll l
  if s.llState l ≠ 2 ∨ x.complete ∨ (x.upd = 0) ∨ 2 * s.since x.refAt < 602 * x.txq.length * s.rd (R.LL_CTRL_D l) then s
  else s.setLl l { x with complete := true, txq := [], polls := if s.on (R.LL_CTRL_POLL l) then s.llDrivers l else [] }

/-- A LINE event orders a LATCH SYNC fall, or a scan cycle (R400, R410). -/
def State.llLine (s : State) (l : Nat) : State :=
  let x := s.ll l
  if s.llState l < 2 then s
  else if s.on (R.LL_CTRL_SCAN l) then
    if x.slot.isNone && x.slotAt.isNone then s.setLl l { x with slotAt := some ((s.now + 1300) % 2 ^ 48) }
    else (s.setLl l { x with held := true }).count (R.LL_CNT2_EV_EARLY l) 1
  else s.setLl l { x with falls := x.falls ++ [(s.now + 1300) % 2 ^ 48] }

/-- LINE events 0x20 to 0x24 of R75. -/
def State.lightLine (s : State) (line : Nat) : State :=
  if line = 0x24 then (List.range 4).foldl (fun (s : State) l => if s.rd (R.LL_CTRL_LATCH_SRC l) = 2 then s.llLine l else s) s
  else if s.rd (R.LL_CTRL_LATCH_SRC (line - 0x20)) = 1 then s.llLine (line - 0x20) else s

/-! ### Line scanning (R410) -/

/-- A scan slot starts: BLANK; at slot 0 the update is computed. -/
def State.scanSlot (s : State) (l : Nat) : State :=
  let x := s.ll l
  let lines := s.rd (R.LL_CTRL_LINES l) + 1
  match x.slotAt with
  | none => s
  | some t =>
    if s.llState l ≠ 2 ∨ !s.on (R.LL_CTRL_SCAN l) ∨ !s.reached t then s
    else
      let timer := s.rd (R.LL_CTRL_LATCH_SRC l) == 0
      let next := match x.slot with | none => 0 | some j => j + 1
      if !x.held ∧ next = lines ∧ !timer then s.setLl l { x with slot := none, slotAt := none }
      else
        let j := if x.held ∨ lines ≤ next then 0 else next
        let s1 := (s.setLl l { x with slot := some j, slotStart := s.now, slotAt := some ((t + s.rd (R.LL_PERIOD_PERIOD l)) % 2 ^ 48), held := false, blanked := false }).llSend l (bcast 4)
        if j = 0 then s1.llUpdate l else s1

/-- T_BLANK after the slot start: LATCH if the line was fully written; then the WRITE of the next line. -/
def State.scanBlankEnd (s : State) (l : Nat) : State :=
  let x := s.ll l
  match x.slot with
  | none => s
  | some j =>
    if s.llState l ≠ 2 ∨ x.blanked ∨ s.since x.slotStart < s.rd (R.LL_BLANK_T_BLANK l) then s
    else
      let s1 := if x.complete then s.llSend l (bcast 3) else s.count (R.LL_CNT1_LATE_REFRESH l) 1
      let n := s.rd (R.LL_CTRL_NDRV l) + 1
      let k := (j + 1) % (s.rd (R.LL_CTRL_LINES l) + 1)
      s1.llMod l fun x =>
        { x with blanked := true, complete := false, refAt := s.now, polls := [], txq := (s.llDrivers l).map fun p => s.refreshFrame l p (k * n + p) k }

/-! ### Safe pattern, level writes (R411 to R413) -/

/-- The part enters the safe state. -/
def State.lightSafe (s : State) : State :=
  (List.range 4).foldl (fun (s : State) l =>
    if s.llState l = 2 then
      ((s.wr (R.LL_STAT_STATE l) 3).llMod l fun x => { x with txq := [], polls := [], complete := false, slot := none }).llSend l (bcast 5)
    else s) s

/-- The part leaves the safe state. -/
def State.lightExit (s : State) : State := (List.range 4).foldl (fun (s : State) l => if s.llState l = 3 then s.llRun l else s) s

/-- A write of LC_LEVEL: an update due in this cycle takes the value before it (R412). -/
def State.writeLevel (s : State) (l i w : Nat) : State :=
  let s1 := if s.llDue l then s.updateInstant l else s
  s1.wrAll [(R.LC_LEVEL_LEVEL l i, bits w 0 16), (R.LC_LEVEL_FADE_N l i, bits w 16 16)]

/-- A write of LC_SAFE: the driver's SAFE_PWM is to be written (R411). -/
def State.writeSafeL (s : State) (l i w : Nat) : State :=
  let s1 := s.wr (R.LC_SAFE_SAFE_L l i) (bits w 0 16)
  if 2 ≤ s.llState l then s1.llMod l fun x => { x with safeDirty := if x.safeDirty.contains (i / 16) then x.safeDirty else (i / 16) :: x.safeDirty } else s1

/-- CNT_CLR (R787). -/
def State.llCntClr (s : State) : State :=
  (List.range 4).foldl (fun (s : State) l =>
    s.wrAll [(R.LL_CNT1_LATE_REFRESH l, 0), (R.LL_CNT1_RSP_CRC l, 0), (R.LL_CNT2_EV_EARLY l, 0), (R.LL_CNT2_UPDATES l, 0)]) s

end Sys2Proof.Machine
end

