-- ==== Sys2Proof/Machine/LsCore.lean ====
section
/-! DEFINITION. The step counter, the generator port and lock-step comparison (spec/19_reproducibility.md R644 to R660). -/

namespace Sys2Proof.Machine

/-- A MGMT message of this part (R561, R562). -/
def State.mgmtMsg (s : State) (sub cls dst : Nat) (bcast : Bool) (data : List Byte) : WwMsg :=
  { mtype := 8, cls := cls, init := 0x20, src := s.chip, dst := dst, bcast := bcast, hops := s.rd R.WW_CTRL_HOP_MAX, addr := sub, data := data }

/-! ### Step counter (R645, R651) -/

/-- The enabled tiles that keep signatures: logical index below DECL. -/
def State.sigTiles (s : State) : List Nat := s.tilesOn.filter fun t => s.logical t < s.rd R.RP_CTRL_DECL

/-- Some tile holds an open or uncompared step below the current one (R651). -/
def State.stepsOpen (s : State) : Bool := s.sigs.any fun x => decide (x.step < s.step)

/-- The step counter takes a value; the step it leaves is open on every tile that keeps signatures while lock-step is
enabled, and is dropped else. -/
def State.stepTo (s : State) (v : Nat) : State :=
  let l := if s.on R.LS_CTRL_EN then s.sigTiles.foldl (fun l t => sigUpd t s.step id l) s.sigs
    else s.sigs.filter fun x => decide (v % 2 ^ 64 ≤ x.step)
  { s with step := v % 2 ^ 64, sigs := l }

/-- A write of RP_STEP_HI (R645, R651). -/
def State.writeStepHi (s : State) (w : Nat) : State :=
  if s.on R.LS_CTRL_EN && s.stepsOpen then s.wr R.LS_STAT_ADV_REJ 1 else s.stepTo (s.stepStage + w % 2 ^ 32 * 2 ^ 32)

/-- ADV (R645, R651). -/
def State.stepAdv (s : State) : State :=
  if s.on R.LS_CTRL_EN && s.stepsOpen then s.wr R.LS_STAT_ADV_REJ 1 else s.stepTo (s.step + 1)

/-! ### The generator port (R646) -/

/-- A write of one of the port's registers; one of RP_GEN_IDX_HI starts a draw. During a draw it is ignored. -/
def State.genWrite (s : State) (f : Fld) (w : Nat) (go : Bool) : State :=
  if s.on R.RP_STAT_GEN_BUSY then s.wr R.RP_STAT_GEN_REJ 1
  else
    let s1 := s.wr f w
    if !go then s1
    else
      let x := s1.rd64 R.RP_GEN_STEP_LO_STEP R.RP_GEN_STEP_HI_STEP + s1.rd64 R.RP_GEN_IDX_LO_IDX R.RP_GEN_IDX_HI_IDX * 2 ^ 64
      { (s1.wr R.RP_STAT_GEN_BUSY 1) with genJob := some (s1.runSeed, x) }

/-- The output stands in RP_GEN_OUT. -/
def State.genDone (s : State) : State :=
  match s.genJob with
  | none => s
  | some (seed, x) =>
    let o := gen seed x
    { ((List.range 4).foldl (fun s i => s.wr (R.RP_GEN_OUT_OUT i) (bits o (32 * i) 32)) (s.wr R.RP_STAT_GEN_BUSY 0)) with genJob := none }

/-! ### Lock-step comparison (R649 to R654) -/

/-- Comparison is on and has not ended with the loss of its link. -/
def State.lsLive (s : State) : Bool := s.on R.LS_CTRL_EN && !s.lsDead

/-- A write of LS_CTRL (R649, R654). -/
def State.writeLsCtrl (s : State) (w : Nat) (open_ : Bool) : State :=
  let was := s.on R.LS_CTRL_EN
  let s0 := s.wr R.LS_CTRL_IRQ_EN (bits w 5 1)
  let s1 := if open_ then s0.wrAll [(R.LS_CTRL_LINK, bits w 1 3), (R.LS_CTRL_SAFE_REP, bits w 4 1)] else s0
  if bit w 0 && !was then
    let l := s1.rd R.LS_CTRL_LINK
    if 2 ≤ s1.portState l ∧ s1.joinFp.getD l none = some (s1.fpWord, s1.placeHash) ∧ s1.on R.GLOBAL_MODE_REPRO then
      { s1.wr R.LS_CTRL_EN 1 with lsDead := false }
    else s1.wr R.LS_STAT_LS_REJ 1
  else if !bit w 0 && was then
    { s1.wr R.LS_CTRL_EN 0 with lsDead := false, sigs := s1.sigs.filter (fun x => !x.closed && decide (s1.step ≤ x.step)), sigsIn := [] }
  else s1

/-- The enabled tile that carries a logical index, the lowest position first. -/
def State.tileOf (s : State) (i : Nat) : Option Nat := s.tilesOn.find? fun t => s.logical t == i

/-- Block k of 8 entries of a row table (R652). -/
def State.lsRowsMsg (s : State) (x : StepSig) (k : Nat) : WwMsg :=
  { s.mgmtMsg (0x12 + k * 2 ^ 8 + s.logical x.tile * 2 ^ 14 + x.step % 2 ^ 28 * 2 ^ 20) 1 0 false
      (((List.range 8).map fun j => leBytes 8 (tget 0 x.rows (8 * k + j))).flatten) with mtype := 8 }

/-- Both signatures of a step and tile are held (R652). -/
def State.lsCompare (s : State) (x : StepSig) (theirs : Nat) : State :=
  if x.sum = theirs then (s.sigDrop x.tile x.step).count R.LS_CNT_CNT 1
  else
    let s1 := { s with sigs := sigUpd x.tile x.step (fun y => { y with differs := true }) s.sigs }
    (List.range 64).foldl (fun s k => s.wwPut (s.rd R.LS_CTRL_LINK) (s.lsRowsMsg x k)) s1

/-- A step closes on a tile: its signature is sent, and compared where the partner's is there (R651, R652). -/
def State.stepClose (s : State) (tile step : Nat) : State :=
  match s.sigs.find? fun x => x.tile == tile && x.step == step with
  | none => s
  | some x =>
    if x.closed ∨ s.step ≤ step ∨ s.inFlight tile step ∨ ¬ s.lsLive then s
    else
      let i := s.logical tile
      let y := { x with closed := true, since := s.now }
      let s1 := { s with sigs := sigUpd tile step (fun _ => y) s.sigs }
      let s2 := s1.wwPut (s.rd R.LS_CTRL_LINK) (s1.mgmtMsg 0x11 1 0 false (leBytes 8 step ++ leBytes 8 x.sum ++ leBytes 1 i))
      match s2.sigsIn.find? fun p => p.1 == step && p.2.1 == i with
      | some p => { s2 with sigsIn := s2.sigsIn.filter fun q => !(q.1 == step && q.2.1 == i) }.lsCompare y p.2.2
      | none => s2

/-- LSSIG arrives on a port (R652). -/
def State.lsSig (s : State) (p : Nat) (data : List Byte) : State :=
  let step := leNat (data.take 8)
  let sum := leNat ((data.drop 8).take 8)
  let i := (data.getD 16 0).toNat
  if ¬ s.lsLive ∨ s.rd R.LS_CTRL_LINK ≠ p then s
  else
    match s.sigs.find? fun x => x.closed && x.step == step && s.logical x.tile == i with
    | some x => s.lsCompare x sum
    | none => { s with sigsIn := s.sigsIn ++ [(step, i, sum)] }

/-- Rows of two tables that differ. -/
def rowsDiffer (a b : List (Nat × Nat)) : List Nat := (List.range 512).filter fun r => tget 0 a r != tget 0 b r

/-- A block of the partner's row table arrives; with the last one the divergence is recorded (R652, R653). -/
def State.lsRows (s : State) (p addr : Nat) (data : List Byte) : State :=
  let k := bits addr 8 6
  let i := bits addr 14 6
  if ¬ s.lsLive ∨ s.rd R.LS_CTRL_LINK ≠ p then s
  else
    match s.sigs.find? fun x => x.differs && x.step % 2 ^ 28 == bits addr 20 28 && s.logical x.tile == i with
    | none => s
    | some x =>
      let rows := (List.range 8).foldl (fun t j => tset 0 t (8 * k + j) (leNat ((data.drop (8 * j)).take 8))) x.theirs
      let y := { x with theirs := rows, got := x.got ||| 2 ^ k }
      if y.got = 2 ^ 64 - 1 then
        let d := rowsDiffer y.rows y.theirs
        (s.sigDrop x.tile x.step).lsRecord false x.step i x.tile (d.headD 0) d.length
      else { s with sigs := sigUpd x.tile x.step (fun _ => y) s.sigs }

/-- A signature has waited LS_TMO µs for the partner's (R654). -/
def State.lsTimeout (s : State) (tile step : Nat) : State :=
  match s.sigs.find? fun x => x.tile == tile && x.step == step with
  | none => s
  | some x =>
    if x.closed ∧ ¬ x.differs ∧ 400 * s.rd R.LS_TMO_TMO ≤ s.since x.since then
      (s.sigDrop tile step).lsRecord true step (s.logical tile) tile 0 0
    else s

/-- The link of the pair is lost: every comparison in progress ends with MISSING, and none resumes (R654). -/
def State.lsLost (s : State) (p : Nat) : State :=
  if ¬ s.lsLive ∨ s.rd R.LS_CTRL_LINK ≠ p then s
  else
    let l := s.sigs.filter (·.closed)
    let s1 := { s with sigs := s.sigs.filter (fun x => !x.closed), sigsIn := [], lsDead := true }
    l.foldl (fun s x => s.lsRecord true x.step (s.logical x.tile) x.tile 0 0) s1

end Sys2Proof.Machine
end

