-- ==== Sys2Proof/Machine/PhaseCutCore.lean ====
section
/-! DEFINITION. Phase-cut mains channels (spec/11_phase_cut.md): mains references and the acceptance of
zero crossings, the command of a cycle, firing by mode, retrigger trains, slope codes, channel states,
diagnostics. -/

namespace Sys2Proof.Machine

def State.pcm (s : State) (r : Nat) : PcmSt := s.pcms.getD r {}
def State.setPcm (s : State) (r : Nat) (v : PcmSt) : State := { s with pcms := s.pcms.set r v }
def State.pc (s : State) (n : Nat) : PcSt := s.pcs.getD n {}
def State.setPc (s : State) (n : Nat) (v : PcSt) : State := { s with pcs := s.pcs.set n v }
def State.pcMod (s : State) (n : Nat) (f : PcSt → PcSt) : State := s.setPc n (f (s.pc n))
/-- STATE of a reference: 0 OFF, 1 ACQUIRE, 2 RUN, 3 LOST. -/
def State.pcmState (s : State) (r : Nat) : Nat := s.rd (R.PCM_STAT_STATE r)
/-- STATE of a channel: 0 OFF, 1 ARMED, 2 RUN, 3 FLYWHEEL, 4 STOPPED, 5 FAULT. -/
def State.pcState (s : State) (n : Nat) : Nat := s.rd (R.PC_STAT_STATE n)
/-- RUN or FLYWHEEL. -/
def State.pcRuns (s : State) (n : Nat) : Bool := s.pcState n == 2 || s.pcState n == 3

/-! ### Channel states (R357, R374, R375, R377) -/

/-- FIRE changes at its pin at a time in sixteenths. -/
def State.pcFire (s : State) (n : Nat) (v : Bool) (t : Nat) : State :=
  s.pcMod n fun c => if c.fire = v then c else { c with fire := v, fireEdge := t, fireAt := s.now }

/-- Level of the pin PCn_FIRE (R357). -/
def State.pcPin (s : State) (n : Nat) : Bool := ((s.pc n).fire && !s.on R.SF_STAT_FORCED) != s.on (R.PC_CTRL_POL n)

/-- A channel leaves RUN and FLYWHEEL: FIRE inactive, nothing more fired. -/
def State.pcHalt (s : State) (n st : Nat) : State :=
  ((s.wr (R.PC_STAT_STATE n) st).pcFire n false (16 * s.now)).pcMod n fun c =>
    { c with half := none, on := none, off := none, fired := false, pulses := 0, winEnd := none, judged := true }

/-- STOPPED with a cause: 1 ZC_LOST, 2 FREQ, 3 SAFE_STATE. -/
def State.pcStop (s : State) (n cause : Nat) : State := (s.wr (R.PC_STAT_CAUSE n) cause).pcHalt n 4

/-- FAULT with a cause: 4 OPEN, 5 SHORT, 6 ISGN_BAD, 7 ASYM, 8 LOAD_MISMATCH; reported (R377). -/
def State.pcFault (s : State) (n cause : Nat) : State :=
  if s.pcRuns n then ((s.wr (R.PC_STAT_CAUSE n) cause).pcHalt n 5).report (0x20 + n) cause else s

/-- The combinations that ENABLE refuses (R365, R374); reserved modes too. -/
def State.pcBad (s : State) (n : Nat) : Bool :=
  let mode := s.rd (R.PC_CTRL_MODE n)
  let sw := s.on (R.PC_CTRL_DRV n)
  let load := s.rd (R.PC_CTRL_LOAD n)
  let pw := s.rd (R.PC_PULSE_PW n)
  ((mode == 1 || mode == 4) && sw) || (mode == 2 && !sw) || 5 ≤ mode ||
    (load == 3 && mode != 2 && !(mode == 3 && sw)) || (load == 2 && mode == 2) ||
    decide (s.rd (R.PC_LIM_C_MAX n) < s.rd (R.PC_LIM_C_MIN n)) ||
    (!sw && (pw == 0 || decide (s.rd (R.PC_PULSE_RT_PER n) < pw + s.rd (R.PC_TRAIN_LATCH_T n)))) ||
    !srefOk (s.rd (R.PC_SRC_SEL n)) || !s.on (R.PCM_CTRL_EN (s.rd (R.PC_CTRL_REF n))) || s.inSafe

/-- ENABLE written (R375). -/
def State.pcEnable (s : State) (n : Nat) (one : Bool) : State :=
  if one then
    if s.pcState n ≠ 0 then s
    else if s.pcBad n then s.wr (R.PC_STAT_REJ n) 1
    else
      ((s.wrAll [(R.PC_CTRL_ENABLE n, 1), (R.PC_STAT_STATE n, 1), (R.PC_STAT_CAUSE n, 0)])).pcMod n fun c =>
        { c with starts := 0, step := s.step, seed := s.runSeed, strobe := false }
  else (s.wr (R.PC_CTRL_ENABLE n) 0).pcHalt n 0

/-- RESTART written (R375). -/
def State.pcRestart (s : State) (n : Nat) : State :=
  if s.pcState n = 4 ∧ !(s.rd (R.PC_STAT_CAUSE n) = 3 ∧ s.inSafe) then s.wrAll [(R.PC_STAT_STATE n, 1), (R.PC_STAT_CAUSE n, 0)] else s

/-- CLEAR written (R375). -/
def State.pcClear (s : State) (n : Nat) : State := if s.pcState n = 5 then s.wr (R.PC_STAT_STATE n) 4 else s

/-- A write of PC_CTRL: fields, then ENABLE, CLEAR, RESTART. -/
def State.writePcCtrl (s : State) (n w : Nat) : State :=
  let s1 := if s.pcState n = 0 ∧ s.unlocked then
      s.wrAll [(R.PC_CTRL_REF n, bits w 4 1), (R.PC_CTRL_MODE n, bits w 5 3), (R.PC_CTRL_DRV n, bits w 8 1), (R.PC_CTRL_LOAD n, bits w 9 2), (R.PC_CTRL_POL n, bits w 15 1)]
    else s
  let s2 := s1.wrAll [(R.PC_CTRL_IRQ_EN n, bits w 3 1), (R.PC_CTRL_QUIET n, bits w 11 1), (R.PC_CTRL_DITHER n, bits w 12 1), (R.PC_CTRL_STROBE n, bits w 13 1),
    (R.PC_CTRL_AUTO_RESUME n, bits w 14 1)]
  let s3 := s2.pcEnable n (bit w 0)
  let s4 := if bit w 2 then s3.pcClear n else s3
  if bit w 1 then s4.pcRestart n else s4

/-- A write of PC_CMD; the value before it serves a cycle start of this cycle (R379). -/
def State.writePcCmd (s : State) (n v : Nat) : State :=
  let old := s.rd (R.PC_CMD_CMD n)
  (s.wr (R.PC_CMD_CMD n) v).pcMod n fun c => { c with cmdOld := if c.cmdAt = some s.now then c.cmdOld else old, cmdAt := some s.now }

/-- The part enters the safe state (R375, R378, R384). -/
def State.pcSafe (s : State) : State :=
  (List.range 8).foldl (fun (s : State) n =>
    if 1 ≤ s.pcState n ∧ s.pcState n ≤ 3 then s.pcStop n 3 else s.pcFire n false (16 * s.now)) s

/-! ### Mains references (R358 to R362) -/

/-- FREQ_OK at full precision (R361). -/
def freqOk (f : Int) : Bool := decide (45 * 2 ^ 64 ≤ f * 400000000) && decide (f * 400000000 ≤ 66 * 2 ^ 64)

/-- The window half-width in phase units. -/
def State.pcWin (s : State) (r : Nat) : Nat := s.rd (R.PCM_WIN_WIN r) * 2 ^ 16

/-- FLY_MAX: values outside 1 to 4 act as 4. -/
def State.flyMax (s : State) (r : Nat) : Nat :=
  let v := s.rd (R.PCM_WIN_FLY_MAX r)
  if 1 ≤ v ∧ v ≤ 4 then v else 4

/-- Channels that follow a reference. -/
def State.pcOf (s : State) (r : Nat) : List Nat := (List.range 8).filter fun n => s.rd (R.PC_CTRL_REF n) == r

/-- EN written (R358, R362). -/
def State.pcmEnable (s : State) (r : Nat) (one : Bool) : State :=
  if one then
    let d := s.rd (R.PCM_CTRL_DRONE r)
    if s.pcmState r ≠ 0 then s
    else if s.rd (R.DRN_SRC_KIND d) ≠ 4 ∨ s.rd (R.DRN_SRC_INDEX d) ≠ r then s.wr (R.PCM_STAT_REJ r) 1
    else (s.wrAll [(R.PCM_CTRL_EN r, 1), (R.PCM_STAT_STATE r, 1), (R.PCM_STAT_MISS r, 0)]).setPcm r {}
  else s.wrAll [(R.PCM_CTRL_EN r, 0), (R.PCM_STAT_STATE r, 0)]

/-- A write of PCM_CTRL. -/
def State.writePcmCtrl (s : State) (r w : Nat) : State :=
  let s1 := if s.pcmState r = 0 ∧ s.unlocked then s.wr (R.PCM_CTRL_DRONE r) (bits w 1 4) else s
  (s1.wr (R.PCM_CTRL_IRQ_EN r) (bits w 5 1)).pcmEnable r (bit w 0)

/-- The channels of a reference go from FLYWHEEL to RUN at an accepted crossing with MISS = 0 (R375). -/
def State.pcCrossed (s : State) (r : Nat) : State :=
  (s.pcOf r).foldl (fun (s : State) n => if s.pcState n = 3 then s.wr (R.PC_STAT_STATE n) 2 else s) s

/-- A filtered edge on ZCr (R359, R360, R362): `rise` its direction, taken FILT + 1 cycles after the first
cycle of the new level. -/
def State.zcEdge (s : State) (r : Nat) (rise : Bool) : State :=
  let d := s.rd (R.PCM_CTRL_DRONE r)
  let st := s.pcmState r
  if st = 0 then s
  else
    let p := s.pcm r
    let cap := ux 48 ((s.now : Int) - (s.rd (R.PCM_ZC_FILT r) + 1) + (if rise then 0 else s.rdS (R.PCM_ZC_SKEW r)))
    let theta := if rise then 0 else 2 ^ 31
    let gap := (cap + 2 ^ 48 - p.lastCap) % 2 ^ 48
    let e := sx 32 (theta + 2 ^ 32 - s.phaseAt d (s.measAge d cap))
    let ok := match p.lastPol with
      | none => true
      | some q =>
        if st = 2 then decide (e.natAbs ≤ s.pcWin r) else q != rise && decide (2900000 ≤ gap) && decide (gap ≤ 4600000)
    if !ok then s.count (R.PCM_CNT_ZC_REJ r) 1
    else
      let s1 := (s.offerTo d 4 r theta cap).setPcm r
        { lastPol := some rise, lastCap := cap, seenR := p.seenR || rise, seenF := p.seenF || !rise }
      let s2 := if p.lastPol.isSome then s1.wr (R.PCM_PERIOD_PERIOD r) (min gap (2 ^ 24 - 1)) else s1
      if st = 2 then (s2.wr (R.PCM_STAT_MISS r) 0).pcCrossed r
      else if s2.drnState d = 2 ∧ freqOk (s2.drone d).f then s2.wrAll [(R.PCM_STAT_STATE r, 2), (R.PCM_STAT_MISS r, 0)]
      else s2

/-- Forward passing of a phase in a cycle from θ0 by Δ, with the fine fraction. -/
def passes (phi t0 : Nat) (dl : Int) : Option Nat := (crossing (phi % 2 ^ 32) 1 0 t0 dl).map fun x => x.2

/-- One polarity of the test of missed crossings (R361). -/
def State.missOne (s : State) (r : Nat) (rise : Bool) (t0 : Nat) (dl : Int) : State :=
  let phi := if rise then 0 else 2 ^ 31
  let w := s.pcWin r
  let p := s.pcm r
  let seen := if rise then p.seenR else p.seenF
  let s1 := if (passes (phi + w) t0 dl).isSome ∧ s.pcmState r = 2 ∧ !seen then
      let m := min (s.rd (R.PCM_STAT_MISS r) + 1) 7
      (s.wr (R.PCM_STAT_MISS r) m).count (R.PCM_CNT_ZC_MISSED r) 1
    else s
  if (passes (phi + 2 ^ 32 - w) t0 dl).isSome then
    s1.setPcm r (if rise then { s1.pcm r with seenR := false } else { s1.pcm r with seenF := false })
  else s1

/-- A reference in a control cycle (R361, R362, R375). -/
def State.pcmCycle (s : State) (r t0 : Nat) (dl : Int) : State :=
  let d := s.rd (R.PCM_CTRL_DRONE r)
  if s.pcmState r = 0 then s
  else
    let ok := freqOk (s.drone d).f
    let s1 := ((s.wr (R.PCM_STAT_FREQ_OK r) (b2n ok)).missOne r true t0 dl).missOne r false t0 dl
    if s1.pcmState r ≠ 2 then s1
    else if s1.flyMax r < s1.rd (R.PCM_STAT_MISS r) ∨ s1.drnQual d = 0 ∨ !ok then
      let s2 := (s1.wr (R.PCM_STAT_STATE r) 3).wr (R.PCM_STAT_ZC_LOST r) 1
      (s2.pcOf r).foldl (fun (s : State) n => if s.pcRuns n then s.pcStop n (if ok then 1 else 2) else s) s2
    else if 1 ≤ s1.rd (R.PCM_STAT_MISS r) then
      (s1.pcOf r).foldl (fun (s : State) n => if s.pcState n = 2 then s.wr (R.PC_STAT_STATE n) 3 else s) s1
    else s1

/-! ### Half-cycles, conduction, diagnostics (R363, R368, R369, R377) -/

/-- Half-phase of the reference's Drone now. -/
def State.halfPhase (s : State) (n : Nat) : Nat := s.phase (s.rd (R.PCM_CTRL_DRONE (s.rd (R.PC_CTRL_REF n)))) % 2 ^ 31 / 2 ^ 15

/-- The indicator of a half's polarity. -/
def PcSt.ind (c : PcSt) (half : Nat) : Bool := if half = 0 then c.ipos else c.ineg

/-- The load counts as inductive (R369). -/
def State.pcInductive (s : State) (n : Nat) : Bool :=
  match s.rd (R.PC_CTRL_LOAD n) with
  | 2 => true
  | 0 => (s.pc n).first || s.on (R.PC_STAT_IND_DET n)
  | _ => false

/-- The indicators are looked at: conduction within a window, lag, a SHORT event (R368, R369, R377). -/
def State.pcLook (s : State) (n : Nat) : State :=
  let c := s.pc n
  match c.half with
  | none => s
  | some h =>
    if !s.pcRuns n then s
    else
      let hp := s.halfPhase n
      let conducts := c.fired && c.cond.isNone && !c.judged && c.ind h
      let lag := !c.lagged && !c.ind (1 - h)
      let short := !c.fired && !c.shorted && c.ind h
      let s1 := s.setPc n
        { c with cond := if conducts then some hp else c.cond, lagged := c.lagged || lag, lagP := c.lagP || (lag && h == 0), lagN := c.lagN || (lag && h == 1),
                 shorted := c.shorted || short, shortRun := if short then c.shortRun + 1 else c.shortRun }
      let s2 := if lag then s1.wr (if h = 0 then R.PC_MEAS_LAG_POS n else R.PC_MEAS_LAG_NEG n) hp else s1
      if short ∧ c.set.shortN ≠ 0 ∧ c.set.shortN ≤ c.shortRun + 1 then s2.pcFault n 5 else s2

/-- A change of the current-sign indicators (R369, R377). -/
def State.pcSign (s : State) (n : Nat) (ipos ineg : Bool) : State :=
  (s.pcMod n fun c => { c with ipos := ipos, ineg := ineg, bothAt := if ipos && ineg && !(c.ipos && c.ineg) then s.now else c.bothAt }).pcLook n

/-- IPOS and INEG have been high together for ISGN_T + 1 control cycles; a count of 0 disables the check
(R377). -/
def State.isgnBad (s : State) (n : Nat) : State :=
  let c := s.pc n
  if c.ipos ∧ c.ineg ∧ c.set.isgnT ≠ 0 ∧ c.set.isgnT + 1 ≤ s.since c.bothAt then s.pcFault n 6 else s

/-! ### Firing (R367, R368, R370, R372, R373) -/

/-- A pulse begins, or FIRE goes to its level: the conduction window opens. `t` is the time of the edge at
the pin. -/
def State.pcPulse (s : State) (n t : Nat) : State :=
  let s1 := (s.pcFire n true t).pcMod n fun c => { c with fired := true, pulses := c.pulses + 1, pulseAt := s.now, winEnd := none, judged := false }
  (s1.count (R.PC_CNT1_RETRIG n) (b2n (decide (2 ≤ (s1.pc n).pulses)))).pcLook n

/-- A pulse ends, or FIRE leaves its level: the window runs LATCH_T cycles on. -/
def State.pcPulseEnd (s : State) (n t : Nat) : State :=
  if (s.pc n).fire then (s.pcFire n false t).pcMod n fun c => { c with winEnd := some ((s.now + c.set.latchT) % 2 ^ 48) } else s

/-- PULSE_END: PW control cycles after the start of a triac pulse (R368). -/
def State.pulseEnd (s : State) (n : Nat) : State :=
  let c := s.pc n
  if c.fire ∧ !s.on (R.PC_CTRL_DRV n) ∧ c.set.pw ≤ s.since c.pulseAt then s.pcPulseEnd n (c.fireEdge + 16 * c.set.pw) else s

/-- CONDUCTION_WINDOW_END (R368). -/
def State.windowEnd (s : State) (n : Nat) : State :=
  let c := s.pc n
  match c.winEnd with
  | some t => if s.reached t then (s.pcLook n).pcMod n fun c => { c with judged := true, winEnd := none } else s
  | none => s

/-- RETRIGGER: RT_PER cycles after the start of the last pulse of an inductive half that has not conducted
(R368). -/
def State.retrigger (s : State) (n : Nat) : State :=
  let c := s.pc n
  let d := s.rd (R.PC_CTRL_MODE n)
  if s.pcRuns n ∧ c.fired ∧ !s.on (R.PC_CTRL_DRV n) ∧ d ≠ 2 ∧ !c.fire ∧ s.pcInductive n ∧ c.cond = none ∧ c.pulses < max c.set.rtMax 1 ∧
      s.halfPhase n < 65536 - c.set.endGuard ∧ c.set.rtPer ≤ s.since c.pulseAt then
    s.pcPulse n (c.fireEdge - 16 * c.set.pw + 16 * c.set.rtPer)
  else s

/-- A LINE event of the firing reference (R366, R373, R383). -/
def State.pcLine (s : State) (n fine : Nat) : State :=
  if s.rd (R.PC_CTRL_MODE n) = 4 then
    if !s.pcRuns n then s
    else
      let c := s.pc n
      let h := s.halfPhase n
      if c.half.isSome ∧ c.set.onMin ≤ h ∧ h ≤ 65535 - c.set.endGuard ∧ !c.fired then s.pcPulse n (16 * s.now + fine)
      else s.count (R.PC_CNT3_EV_REJ n) 1
  else s.pcMod n fun c => { c with strobe := true }

/-- The settings a cycle start takes (R385). -/
def State.pcSettings (s : State) (n : Nat) : PcSet :=
  { onMin := s.rd (R.PC_GUARD_ON_MIN n), endGuard := s.rd (R.PC_GUARD_END_GUARD n), pw := s.rd (R.PC_PULSE_PW n), rtPer := s.rd (R.PC_PULSE_RT_PER n),
    latchT := s.rd (R.PC_TRAIN_LATCH_T n), rtMax := s.rd (R.PC_TRAIN_RT_MAX n), cDiag := s.rd (R.PC_DIAG_C_DIAG n), openN := s.rd (R.PC_DIAG_OPEN_N n),
    shortN := s.rd (R.PC_DIAG_SHORT_N n), isgnT := s.rd (R.PC_DIAG_ISGN_T n), symTol := s.rd (R.PC_SYM_SYM_TOL n), symN := s.rd (R.PC_SYM_SYM_N n) }

/-- The command latched at a cycle start (R365, R366, R379). -/
def State.pcLatch (s : State) (n : Nat) : State :=
  let c := s.pc n
  if s.on (R.PC_CTRL_STROBE n) ∧ !c.strobe ∧ s.rd (R.PC_CTRL_MODE n) ≠ 4 then s.wr (R.PC_STAT_C_NOW n) c.cPrev
  else
    let reg := s.on (R.PC_SRC_REG n)
    let late := reg && c.cmdAt == some s.now
    let q := if reg then (s, if late then c.cmdOld else s.rd (R.PC_CMD_CMD n), 0, false) else s.chnInput (s.rd (R.PC_SRC_SEL n)) (4 + n)
    let t0 : Int := if reg then q.2.1 else clampI 0 65535 (asr (sx 32 q.2.1) 15)
    let t1 := if q.2.2.1 = 2 then 0 else t0
    let t2 := if t1 < s.rd (R.PC_LIM_C_MIN n) then 0 else t1
    let t3 : Int := min t2 (s.rd (R.PC_LIM_C_MAX n))
    let slew : Int := s.rd (R.PC_RATE_SLEW n)
    let c1 : Int := if slew = 0 then t3 else (c.cPrev : Int) + clampI (-slew) slew (t3 - c.cPrev)
    let soft := s.rd (R.PC_RATE_SOFT n) != 0 && s.on (R.PC_STAT_SOFT_ACT n)
    let ramp := if soft then min (c.ramp + s.rd (R.PC_RATE_SOFT n)) 65535 else c.ramp
    let c2 := (if soft then min c1 ramp else c1).toNat
    let s1 := (q.1.pcMod n fun x => { x with cPrev := c2, ramp := ramp, strobe := false }).wr (R.PC_STAT_C_NOW n) c2
    let s2 := if soft ∧ s.rd (R.PC_LIM_C_MAX n) ≤ ramp then s1.wr (R.PC_STAT_SOFT_ACT n) 0 else s1
    s2.count (R.PC_CNT2_LATE_CMD n) (b2n late)

/-- The turn-on point of LEADING mode (R367): state, half-phase or none. -/
def State.leadOn (s : State) (n : Nat) : State × Option Nat :=
  let c := s.pc n
  let o := max (65536 - s.rd (R.PC_STAT_C_NOW n)) c.set.onMin
  if 65535 - c.set.endGuard < o then (s, none)
  else
    let qw := s.rd (R.PC_QUIET_QW n)
    let lo := 32768 - qw
    let hi := 32768 + qw
    if s.on (R.PC_CTRL_QUIET n) ∧ lo < o ∧ o < hi then
      let up := if s.on (R.PC_CTRL_DITHER n) then decide (drawDither c.seed c.step n c.starts < 65536 * (o - lo) / (hi - lo)) else decide (hi - o ≤ o - lo)
      (s.count (R.PC_CNT2_QUIET_ACT n) 1, some (if up then hi else lo))
    else (s, some o)

/-- Turn-on and turn-off points of the cycle by mode (R367, R370, R372). -/
def State.pcPlan (s : State) (n : Nat) : State :=
  let c := s.pc n
  let cn := s.rd (R.PC_STAT_C_NOW n)
  match s.rd (R.PC_CTRL_MODE n) with
  | 1 => let r := s.leadOn n; r.1.pcMod n fun c => { c with on := r.2, off := none }
  | 2 =>
    let off := min cn (65535 - c.set.endGuard)
    s.pcMod n fun c => if off ≤ c.set.onMin then { c with on := none, off := none } else { c with on := some c.set.onMin, off := some off }
  | 3 =>
    let a := c.acc + cn
    s.pcMod n fun c => if 65536 ≤ a then { c with acc := a - 65536, on := some c.set.onMin, off := none } else { c with acc := a, on := none, off := none }
  | _ => s.pcMod n fun c => { c with on := none, off := none }

/-- The slope code at a cycle start (R371): kept while FIRE is active, within 400 cycles after a FIRE edge,
or where the next edge comes within 400 cycles. -/
def State.pcSlope (s : State) (n : Nat) (dl : Int) : State :=
  let c := s.pc n
  let code := if s.on (R.PC_CTRL_QUIET n) then s.rd (R.PC_QUIET_SLOPE_Q n) else s.rd (R.PC_QUIET_SLOPE n)
  let soon : Bool := match c.on with | some h => decide (((h * 2 ^ 15 : Nat) : Int) < 400 * dl) | none => false
  if c.fire = true ∨ soon = true ∨ (c.fireEdge ≠ 0 ∧ s.since c.fireAt < 400) then s else s.setPc n { c with slope := code }

/-- A half that ends is judged (R368, R369, R377). -/
def State.pcHalfEnd (s : State) (n : Nat) : State :=
  let c := s.pc n
  match c.half with
  | none => s
  | some h =>
    let mode := s.rd (R.PC_CTRL_MODE n)
    let counts := c.fired && c.cond.isNone && (mode == 3 || mode == 4 || decide (c.set.cDiag ≤ s.rd (R.PC_STAT_C_NOW n)))
    let openRun := if counts then c.openRun + 1 else if c.fired && c.cond.isSome then 0 else c.openRun
    let both := (mode == 1 || mode == 4) && h == 1
    let asym : Bool := match c.condPos, c.cond with
      | some a, some b => both && decide (c.set.symTol < (if a < b then b - a else a - b))
      | _, _ => false
    let asymRun := if asym then c.asymRun + 1 else if both then 0 else c.asymRun
    let s1 := (s.setPc n
        { c with openRun := openRun, asymRun := asymRun, shortRun := if c.shorted then c.shortRun else 0, condPos := if h = 0 then c.cond else none,
                 lagP := c.lagP || h == 0, lagN := c.lagN || h == 1 }).count (R.PC_CNT1_NOCOND n) (b2n counts)
    let s2 := if c.lagged then s1 else s1.wr (if h = 0 then R.PC_MEAS_LAG_POS n else R.PC_MEAS_LAG_NEG n) 65535
    if c.set.openN ≠ 0 ∧ counts ∧ c.set.openN ≤ openRun then s2.pcFault n 4
    else if c.set.symN ≠ 0 ∧ asym = true ∧ c.set.symN ≤ asymRun then s2.pcFault n 7
    else s2

/-- The load is found inductive or resistive from the lags of the last full cycle (R369, R377). -/
def State.pcDetect (s : State) (n : Nat) : State :=
  let c := s.pc n
  if s.rd (R.PC_CTRL_LOAD n) ≠ 0 ∨ !c.lagP ∨ !c.lagN then s
  else
    let thr := s.rd (R.PC_LOAD_LAG_THR n)
    let p := s.rd (R.PC_MEAS_LAG_POS n)
    let m := s.rd (R.PC_MEAS_LAG_NEG n)
    let s1 := s.pcMod n fun c => { c with first := false }
    if thr ≤ p ∧ thr ≤ m then (if s.rd (R.PC_CTRL_MODE n) = 2 then s1.pcFault n 8 else s1.wr (R.PC_STAT_IND_DET n) 1)
    else if p < thr ∧ m < thr then s1.wr (R.PC_STAT_IND_DET n) 0
    else s1

/-- A half begins. -/
def State.pcHalfStart (s : State) (n h : Nat) : State :=
  let burst := s.rd (R.PC_CTRL_MODE n) == 3 && s.on (R.PC_CTRL_DRV n) && h == 1 && (s.pc n).fire
  (s.pcMod n fun c =>
    { c with half := some h, fired := burst, pulses := 0, winEnd := none, judged := !burst, cond := none, lagged := false, shorted := false }).pcLook n

/-- A cycle start (R364 to R372, R375, R385). -/
def State.cycleStart (s : State) (n : Nat) (dl : Int) : State :=
  let r := s.rd (R.PC_CTRL_REF n)
  let s0 := if s.pcState n = 1 ∧ s.pcmState r = 2 then
      (s.wrAll [(R.PC_STAT_STATE n, 2), (R.PC_STAT_SOFT_ACT n, 1), (R.PC_STAT_IND_DET n, 0)]).pcMod n fun c =>
        { c with cPrev := 0, ramp := 0, acc := 0, first := true, lagP := false, lagN := false, openRun := 0, shortRun := 0, asymRun := 0, condPos := none }
    else s
  if !s0.pcRuns n then s0
  else
    let s1 := s0.pcDetect n
    if !s1.pcRuns n then s1
    else
      let s2 := s1.pcMod n fun c => { c with set := s1.pcSettings n, starts := c.starts + 1 }
      (((s2.pcLatch n).pcPlan n).pcSlope n dl).pcHalfStart n 0

/-- A channel in a control cycle in which its reference's Drone goes from θ0 by Δ: cut-offs, half starts,
turn-on and turn-off (R363, R368, R370, R372, R381). The pin follows two cycles later with the fine
fraction (R59). -/
def State.pcCycle (s : State) (n t0 : Nat) (dl : Int) : State :=
  let c := s.pc n
  let pin (f : Nat) := 16 * (s.now + 2) + f
  let at_ (h x : Nat) := passes (h * 2 ^ 31 + x * 2 ^ 15) t0 dl
  let sw := s.on (R.PC_CTRL_DRV n)
  let burst := s.rd (R.PC_CTRL_MODE n) == 3 && sw
  -- cut-off of the half running
  let s1 := match c.half with
    | some h =>
      (match at_ h (65536 - c.set.endGuard) with
       | some f => if burst && h == 0 then s else s.pcPulseEnd n (pin f)
       | none => s)
    | none => s
  -- half starts
  let s2 := match passes 0 t0 dl, passes (2 ^ 31) t0 dl with
    | some _, _ => (s1.pcHalfEnd n).cycleStart n dl
    | none, some _ => if s1.pcRuns n && (s1.pc n).half.isSome then (s1.pcHalfEnd n).pcHalfStart n 1 else s1
    | none, none => s1
  -- turn-on and turn-off of the half that now runs
  let c2 := s2.pc n
  if !s2.pcRuns n then s2
  else
    match c2.half with
    | none => s2
    | some h =>
      let s3 := match c2.on with
        | some x =>
          (match at_ h x with
           | some f => if burst && h == 1 then s2 else if c2.fired then s2 else s2.pcPulse n (pin f)
           | none => s2)
        | none => s2
      match c2.off with
      | some x => (match at_ h x with | some f => s3.pcPulseEnd n (pin f) | none => s3)
      | none => s3

/-- AUTO_RESUME (R375). -/
def State.pcResume (s : State) (n : Nat) : State :=
  if s.pcState n = 4 ∧ s.on (R.PC_CTRL_AUTO_RESUME n) ∧ s.pcmState (s.rd (R.PC_CTRL_REF n)) = 2 ∧ s.rd (R.PC_STAT_CAUSE n) ≠ 3 then
    s.wrAll [(R.PC_STAT_STATE n, 1), (R.PC_STAT_CAUSE n, 0)]
  else s

/-- All references and channels in a control cycle; `t0` gives each Drone's phase before it. -/
def State.phaseCutCycle (s : State) (t0 : List Nat) : State :=
  let step (s : State) (d : Nat) : Nat × Int := let a := t0.getD d 0; (a, sx 32 (s.phase d + 2 ^ 32 - a))
  let s1 := (List.range 2).foldl (fun (s : State) r => let x := step s (s.rd (R.PCM_CTRL_DRONE r)); s.pcmCycle r x.1 x.2) s
  (List.range 8).foldl (fun (s : State) n =>
    let x := step s (s.rd (R.PCM_CTRL_DRONE (s.rd (R.PC_CTRL_REF n))))
    (s.pcResume n).pcCycle n x.1 x.2) s1

end Sys2Proof.Machine
end

