-- ==== Sys2Proof/Machine/RasterCore.lean ====
section
/-! DEFINITION. The raster unit (spec/14_raster.md): the command list, clipping and setup, binning, the
rendering of bins, textures, shading on the tiles, blending, compression, signatures, frame records. -/

namespace Sys2Proof.Machine

/-! ### FP32 on bit patterns -/

def fv (x : Nat) : Fp := fp32.decode x
def mulB (a b : Nat) : Nat := to32 (fpMul (fv a) (fv b)).1
def fmaB (a b c : Nat) : Nat := to32 (fma32 (fv a) (fv b) (fv c)).1
def subB (a b : Nat) : Nat := to32 (fpSub (fv a) (fv b)).1
def negB (a : Nat) : Nat := to32 (fpNeg (fv a))
def recipB (a : Nat) : Nat := to32 (fpRecip (fv a)).1

/-- The quotient of two values, rounded once to FP32. -/
def fpDiv (a b : Fp) : Fp :=
  match a, b with
  | .nan, _ => .nan
  | _, .nan => .nan
  | .inf _, .inf _ => .nan
  | .inf n, .fin k _ _ => .inf (n != k)
  | .fin n _ _, .inf k => .fin (n != k) 0 0
  | .fin n m e, .fin k d f =>
    if d = 0 then (if m = 0 then .nan else .inf (n != k))
    else
      let g := Nat.log2 d + 40
      (round32 (n != k) (2 * (m * 2 ^ g / d) + b2n (m * 2 ^ g % d != 0)) (e - f - g - 1)).1

def divB (a b : Nat) : Nat := to32 (fpDiv (fv a) (fv b))
/-- An integer as FP32 bits. -/
def intB (i : Int) : Nat := to32 (intTo32 i)
/-- FP32 bits that are neither NaN nor infinite. -/
def finB (x : Nat) : Bool := bits x 23 8 != 255
/-- x ≥ 0; false for NaN. -/
def geZero (x : Nat) : Bool := fv x != .nan && decide (0 ≤ fpCmp (fv x) (.fin false 0 0))

/-- The floor of a value that is finite. -/
def fpFloor : Fp → Option Int
  | .fin n m e => some (let v := sm n m; if 0 ≤ e then v * ((2 ^ e.toNat : Nat) : Int) else asr v (-e).toNat)
  | _ => none

/-- The value moved by a power of two. -/
def fpScale (x : Fp) (k : Nat) : Fp := match x with | .fin n m e => .fin n m (e + k) | y => y

/-! ### Command records (R454) -/

/-- The command list as it is checked: the values that stand, what has been seen. -/
structure RasList where
  cur : RasDraw := {}
  cAddr : Nat := 0
  dAddr : Nat := 0
  target : Bool := false
  view : Bool := false
  shade : Bool := false
  tex : Bool := false
  ended : Bool := false
  bad : Bool := false
  draws : List RasDraw := []

/-- Bytes of a record that its command does not name are 0. -/
def onlyBytes (l : List Byte) (named : List (Nat × Nat)) : Bool :=
  (List.range 32).all fun i => i == 0 || named.any (fun p => p.1 ≤ i && i < p.1 + p.2) || l.getD i 0 == 0

/-- An address in a tile store of this part, 64-byte aligned. -/
def tileAligned (a : Nat) : Bool := 0x20000000 ≤ a && a < 0x28000000 && a % 64 == 0

/-- One command record. -/
def rasRecord (x : RasList) (l : List Byte) : RasList :=
  let b (i : Nat) := pb l i 1
  let die : RasList := { x with bad := true }
  if x.bad then x
  else if x.ended then die
  else match b 0 with
    | 1 =>
      if x.target || !x.draws.isEmpty || !onlyBytes l [(8, 16)] then die else { x with target := true, cAddr := pb l 8 8, dAddr := pb l 16 8 }
    | 2 =>
      if !onlyBytes l [(4, 24)] then die
      else { x with view := true, cur := { x.cur with sx := pb l 4 4, ox := pb l 8 4, sy := pb l 12 4, oy := pb l 16 4, scX0 := pb l 20 2, scY0 := pb l 22 2, scX1 := pb l 24 2, scY1 := pb l 26 2 } }
    | 3 =>
      if bits (b 3) 0 2 == 3 || decide (8 < b 5) || !onlyBytes l [(1, 5), (8, 4)] then die
      else
        { x with cur := { x.cur with
            dfunc := bits (b 1) 0 3, dwrite := bit (b 1) 3, blend := bit (b 2) 0, srcf := bits (b 2) 1 2, dstf := bits (b 2) 3 2, cwrite := bit (b 2) 5,
            cull := bits (b 3) 0 2, shade := bit (b 4) 0, tex := bit (b 4) 1, na := b 5, dscale := pb l 8 4 } }
    | 4 =>
      if decide (12 < bits (b 1) 0 4) || decide (12 < bits (b 1) 4 4) || pb l 8 8 % 64 != 0 || !onlyBytes l [(1, 2), (8, 8)] then die
      else { x with tex := true, cur := { x.cur with logW := bits (b 1) 0 4, logH := bits (b 1) 4 4, mono := bit (b 2) 0, bilinear := bit (b 2) 1, clamp := bit (b 2) 2, texAddr := pb l 8 8 } }
    | 5 =>
      if !tileAligned (pb l 8 8) || !tileAligned (pb l 16 8) || !onlyBytes l [(8, 18), (28, 4)] then die
      else { x with shade := true, cur := { x.cur with exp := pb l 8 8, ret := pb l 16 8, desc := bits (b 24) 0 6, retCtx := bits (b 25) 0 4, retCnt := bits (b 25) 4 4, tmo := pb l 28 4 } }
    | 6 =>
      let n := pb l 4 4
      let st := pb l 24 2
      let d : RasDraw := { x.cur with strip := bit (b 1) 0, indexed := bit (b 1) 1, idx32 := bit (b 1) 2, count := n, vb := pb l 8 8, ib := pb l 16 8, stride := st }
      if decide (n < 3) || decide (2 ^ 24 < n) || st % 4 != 0 || decide (st < 16 + 4 * d.na) || !x.target || !x.view || (d.shade && !x.shade) ||
          (d.tex && (!x.tex || decide (d.na < 6))) || !onlyBytes l [(1, 1), (4, 22)] then die
      else { x with draws := x.draws ++ [d] }
    | 7 => if onlyBytes l [] then { x with ended := true } else die
    | _ => die

/-- Bytes per pixel of a format. -/
def surfSize (fmt : Nat) : Nat := if fmt = 3 then 2 else 4

/-- A surface descriptor; none where it is invalid (R455). -/
def surfOf (l : List Byte) (colour : Bool) : Option RasSurf :=
  let fmt := pb l 32 1
  let fl := pb l 33 1
  let x : RasSurf := ⟨pb l 0 8, pb l 8 8, pb l 16 8, pb l 24 2 + 1, pb l 26 2 + 1, pb l 28 4, fmt, bit fl 0, bit fl 1, bit fl 2, pb l 40 4⟩
  let ok := (if colour then fmt == 0 else fmt == 2 || fmt == 3) && fl < 8 && x.w ≤ 4096 && x.h ≤ 4096 && x.addr % 64 == 0 &&
    (x.comp || (x.pitch % 64 == 0 && decide (x.w * surfSize fmt ≤ x.pitch))) && (!x.sign || x.sig % 8 == 0) &&
    pb l 34 6 == 0 && pb l 48 16 == 0
  if ok then some x else none

/-! ### Vertices, clipping, setup (R456 to R458) -/

/-- The number of vertex k of a draw, read from IB where it is indexed. -/
def State.rasIndex (s : State) (w : Who) (d : RasDraw) (k : Nat) : State × Status × Nat :=
  if !d.indexed then (s, .ok, k)
  else
    let n : Nat := if d.idx32 then 4 else 2
    let r := s.gmReads w (gaAdd d.ib (n * k : Nat)) n
    (r.1, r.2.1, leNat r.2.2)

/-- A vertex: x, y, z, w and the attributes, as FP32 bits. -/
def State.rasVertex (s : State) (w : Who) (d : RasDraw) (k : Nat) : State × Status × List Nat :=
  let i := s.rasIndex w d k
  if i.2.1 ≠ .ok then (i.1, i.2.1, [])
  else
    let r := i.1.gmReads w (gaAdd d.vb (d.stride * i.2.2 : Nat)) (16 + 4 * d.na)
    (r.1, r.2.1, (List.range (4 + d.na)).map fun c => pb r.2.2 (4 * c) 4)

/-- The corners of triangle k of a draw. -/
def rasCorners (d : RasDraw) (k : Nat) : List Nat :=
  if !d.strip then [3 * k, 3 * k + 1, 3 * k + 2] else if k % 2 = 0 then [k, k + 1, k + 2] else [k + 1, k, k + 2]

/-- Triangles that a draw forms. -/
def rasCount (d : RasDraw) : Nat := if d.strip then d.count - 2 else d.count / 3

/-- The guard-band factors of one axis, ascending (R457). -/
def guardOf (s o : Nat) : Nat × Nat :=
  let a := divB (subB (intB (-16384)) o) s
  let b := divB (subB (intB 16384) o) s
  if fpCmp (fv b) (fv a) < 0 then (b, a) else (a, b)

/-- The signed distances of a vertex to the six planes. -/
def planeDist (d : RasDraw) (p : Nat) (v : List Nat) : Nat :=
  let x := v.getD 0 0
  let y := v.getD 1 0
  let z := v.getD 2 0
  let w := v.getD 3 0
  let one := intB 1
  match p with
  | 0 => fmaB one z 0
  | 1 => fmaB one w (negB z)
  | 2 => fmaB (negB (guardOf d.sx d.ox).1) w x
  | 3 => fmaB (guardOf d.sx d.ox).2 w (negB x)
  | 4 => fmaB (negB (guardOf d.sy d.oy).1) w y
  | _ => fmaB (guardOf d.sy d.oy).2 w (negB y)

/-- The intersection on an edge, from the inside vertex. -/
def clipPoint (dI dO : Nat) (i o : List Nat) : List Nat :=
  let t := divB dI (subB dI dO)
  List.zipWith (fun a b => fmaB t (subB b a) a) i o

/-- A polygon through one plane. -/
def clipPlane (d : RasDraw) (p : Nat) (poly : List (List Nat)) : List (List Nat) :=
  let n := poly.length
  (List.range n).flatMap fun k =>
    let u := poly.getD k []
    let v := poly.getD ((k + 1) % n) []
    let du := planeDist d p u
    let dv := planeDist d p v
    (if geZero du then [u] else []) ++
      (if geZero du = geZero dv then [] else if geZero du then [clipPoint du dv u v] else [clipPoint dv du v u])

/-- The clipped polygon of a triangle. -/
def clipAll (d : RasDraw) (tri : List (List Nat)) : List (List Nat) := (List.range 6).foldl (fun poly p => clipPlane d p poly) tri

/-- E_ij at a point. -/
def edgeFn (xi yi xj yj px py : Int) : Int := (xj - xi) * (py - yi) - (yj - yi) * (px - xi)

/-- A vertex in the window: snapped X and Y, 1/w; none where it is not finite or w ≤ 0. -/
def rasSnap (d : RasDraw) (v : List Nat) : Option (Int × Int × Nat) :=
  let w := v.getD 3 0
  if !(v.all finB) || !(decide (0 < fpCmp (fv w) (.fin false 0 0))) then none
  else
    let inv := recipB w
    let xw := fmaB (mulB (v.getD 0 0) inv) d.sx d.ox
    let yw := fmaB (mulB (v.getD 1 0) inv) d.sy d.oy
    if !finB inv || !finB xw || !finB yw then none
    else some ((fpToInt 0 (fpScale (fv xw) 8)).getD 0, (fpToInt 0 (fpScale (fv yw) 8)).getD 0, inv)

/-- Setup of one triangle: the filed form, nothing where it is culled or empty, or a discard under R458. -/
def rasSetup (n : Nat) (d : RasDraw) (first : Bool) (v : List (List Nat)) : Except Unit (Option RasPrim) :=
  match rasSnap d (v.getD 0 []), rasSnap d (v.getD 1 []), rasSnap d (v.getD 2 []) with
  | some p0, some p1, some p2 =>
    let a := edgeFn p0.1 p0.2.1 p1.1 p1.2.1 p2.1 p2.2.1
    if a = 0 ∨ (d.cull = 1 ∧ a < 0) ∨ (d.cull = 2 ∧ 0 < a) then .ok none
    else
      let ps := if a < 0 then [p1, p0, p2] else [p0, p1, p2]
      let vs := if a < 0 then [v.getD 1 [], v.getD 0 [], v.getD 2 []] else v
      .ok (some
        { draw := n, first := first, xs := ps.map fun p => p.1, ys := ps.map fun p => p.2.1, inv := ps.map fun p => p.2.2,
          zn := List.zipWith (fun (p : Int × Int × Nat) (u : List Nat) => mulB (u.getD 2 0) p.2.2) ps vs,
          at_ := List.zipWith (fun (p : Int × Int × Nat) (u : List Nat) => (u.drop 4).map fun c => mulB c p.2.2) ps vs })
  | _, _, _ => .error ()

/-- The pieces of a clipped triangle, in fan order. -/
def rasFan (n : Nat) (d : RasDraw) (poly : List (List Nat)) : List RasPrim × Nat :=
  (List.range (poly.length - 2)).foldl (fun (r : List RasPrim × Nat) k =>
    match rasSetup n d (r.1 == []) [poly.getD 0 [], poly.getD (k + 1) [], poly.getD (k + 2) []] with
    | .ok (some p) => (r.1 ++ [p], r.2)
    | .ok none => r
    | .error _ => (r.1, r.2 + 1)) ([], 0)

/-- One assembled triangle: its pieces and the discards. -/
def rasTriangle (n : Nat) (d : RasDraw) (tri : List (List Nat)) : List RasPrim × Nat :=
  if !(tri.all fun v => v.all finB) then ([], 1) else rasFan n d (clipAll d tri)

/-- The triangles of a draw from number k on: what was filed so far, the discards, the count. -/
def State.rasDrawTris (s : State) (w : Who) (n : Nat) (d : RasDraw) : List Nat → List RasPrim × Nat × Nat → State × Status × List RasPrim × Nat × Nat
  | [], r => (s, .ok, r)
  | k :: t, r =>
    let c := rasCorners d k
    let v0 := s.rasVertex w d (c.getD 0 0)
    let v1 := v0.1.rasVertex w d (c.getD 1 0)
    let v2 := v1.1.rasVertex w d (c.getD 2 0)
    let st := worse (worse v0.2.1 v1.2.1) v2.2.1
    if st ≠ .ok then (v2.1, st, r)
    else
      let q := rasTriangle n d [v0.2.2, v1.2.2, v2.2.2]
      v2.1.rasDrawTris w n d t (r.1 ++ q.1, r.2.1 + q.2, r.2.2 + 1)

/-- The triangles of every draw, in command order. -/
def State.rasFetch (s : State) (w : Who) : Nat → List RasDraw → List RasPrim × Nat × Nat → State × Status × List RasPrim × Nat × Nat
  | _, [], r => (s, .ok, r)
  | n, d :: t, r =>
    let q := s.rasDrawTris w n d (List.range (rasCount d)) r
    if q.2.1 ≠ .ok then q else q.1.rasFetch w (n + 1) t q.2.2

/-! ### Binning (R459) -/

/-- The target: its width and height in pixels. -/
def RasRun.size (r : RasRun) : Nat × Nat :=
  match r.cs, r.ds with
  | some c, _ => (c.w, c.h)
  | none, some d => (d.w, d.h)
  | none, none => (0, 0)

/-- Bins across and down. -/
def RasRun.bins (r : RasRun) : Nat × Nat := ((r.size.1 + 31) / 32, (r.size.2 + 31) / 32)

def minL (l : List Int) : Int := l.foldl min (l.headD 0)
def maxL (l : List Int) : Int := l.foldl max (l.headD 0)

/-- The bins a triangle touches, in row-major order: those its bounding box overlaps within scissor and target. -/
def RasRun.touched (r : RasRun) (p : RasPrim) : List Nat :=
  let d := r.draws.getD p.draw {}
  let x0 := max (minL p.xs / 256) (d.scX0 : Int)
  let x1 := min (min ((maxL p.xs + 255) / 256 - 1) (d.scX1 : Int)) ((r.size.1 : Int) - 1)
  let y0 := max (minL p.ys / 256) (d.scY0 : Int)
  let y1 := min (min ((maxL p.ys + 255) / 256 - 1) (d.scY1 : Int)) ((r.size.2 : Int) - 1)
  if x1 < x0 ∨ y1 < y0 then []
  else
    (List.range r.bins.2).flatMap fun (j : Nat) =>
      if decide (y0 / 32 ≤ (j : Int)) && decide ((j : Int) ≤ y1 / 32) then
        ((List.range r.bins.1).filter fun (i : Nat) => decide (x0 / 32 ≤ (i : Int)) && decide ((i : Int) ≤ x1 / 32)).map fun i => j * r.bins.1 + i
      else []

/-- Bin memory as it is taken: pages begun, bytes used of the last, entries of each bin. -/
structure BinMem where
  pages : Nat := 0
  used : Nat := 65536
  entries : List (Nat × Nat) := []

/-- One allocation; none where the listed pages do not hold it. -/
def BinMem.take (b : BinMem) (n size : Nat) : Option BinMem :=
  if b.used + size ≤ 65536 then some { b with used := b.used + size }
  else if b.pages < n then some { b with pages := b.pages + 1, used := size }
  else none

/-- A list entry in a bin: a new chunk where the last is full or absent. -/
def BinMem.entry (b : BinMem) (n bin : Nat) : Option BinMem :=
  let k := tget 0 b.entries bin
  match (if k % 63 = 0 then b.take n 256 else some b) with
  | some c => some { c with entries := tset 0 c.entries bin (k + 1) }
  | none => none

/-- A triangle is filed: its record, then the entries. -/
def BinMem.file (b : BinMem) (n size : Nat) : List Nat → Option BinMem
  | l => l.foldl (fun r bin => r.bind fun c => c.entry n bin) (b.take n size)

/-- All triangles are filed in n pages: the memory taken, whether they fit, the triangles that reached a bin. -/
def RasRun.fileAll (r : RasRun) (n : Nat) : List RasPrim → BinMem × Nat → Bool → BinMem × Nat × Bool
  | [], (b, k), _ => (b, k, true)
  | p :: t, (b, k), counted =>
    let l := r.touched p
    let fresh := p.first || !counted
    if l = [] then r.fileAll n t (b, k) (counted && !p.first)
    else match b.file n (64 + 16 * (r.draws.getD p.draw {}).na) l with
      | some c => r.fileAll n t (c, if fresh then k + 1 else k) true
      | none => ({ b with pages := n }, k, false)

/-! ### Textures (R466, R467) -/

/-- The order of texels: bits of x and y interleaved, the rest of the larger above. -/
def texOrder (a b x y : Nat) : Nat :=
  let m := min a b
  ((List.range m).map fun i => bits x i 1 * 2 ^ (2 * i) + bits y i 1 * 2 ^ (2 * i + 1)).sum + (if b < a then x / 2 ^ m else y / 2 ^ m) * 2 ^ (2 * m)

/-- A coordinate within 2^a texels. -/
def texWrap (clamp : Bool) (a : Nat) (x : Int) : Nat :=
  if clamp then (clampI 0 (((2 ^ a : Nat) : Int) - 1) x).toNat else (x % ((2 ^ a : Nat) : Int)).toNat

/-- One texel: its four channels. -/
def State.texel (s : State) (w : Who) (d : RasDraw) (x y : Nat) : State × Status × List Nat :=
  let k := texOrder d.logW d.logH x y
  let n : Nat := if d.mono then 1 else 4
  let r := s.gmReads w (gaAdd d.texAddr (n * k : Nat)) n
  (r.1, r.2.1, if d.mono then [pb r.2.2 0 1, 0, 0, 255] else (List.range 4).map fun c => pb r.2.2 c 1)

/-- Floor of a coordinate; where it is infinite (or NaN in the bilinear filter) the spec gives no texel: a free value. -/
def State.texFloor (s : State) (x : Fp) (i : Nat) : Int := (fpFloor x).getD (s.free i : Int)

/-- The four texel channels at attributes u and v, as FP32 bits. -/
def State.texSample (s : State) (w : Who) (d : RasDraw) (u v : Nat) : State × Status × List Nat :=
  let s0 := s.drawn
  let out (l : List Nat) : List Nat := l.map fun (c : Nat) => divB (intB c) (intB 255)
  let nearest (c a i : Nat) : Nat := if fv c = .nan then 0 else texWrap d.clamp a (s.texFloor (fv (mulB c (intB (2 ^ a)))) i)
  if !d.bilinear then
    let r := s0.texel w d (nearest u d.logW 0) (nearest v d.logH 1)
    (r.1, r.2.1, out r.2.2)
  else
    let half := divB (intB (-1)) (intB 2)
    let su := fv (fmaB u (intB (2 ^ d.logW)) half)
    let sv := fv (fmaB v (intB (2 ^ d.logH)) half)
    let x0 := s.texFloor su 0
    let y0 := s.texFloor sv 1
    let f := (s.texFloor (fpScale su 8) 2 - 256 * x0) % 256
    let g := (s.texFloor (fpScale sv 8) 3 - 256 * y0) % 256
    let wx (x : Int) := texWrap d.clamp d.logW x
    let wy (y : Int) := texWrap d.clamp d.logH y
    let a := s0.texel w d (wx x0) (wy y0)
    let b := a.1.texel w d (wx (x0 + 1)) (wy y0)
    let c := b.1.texel w d (wx x0) (wy (y0 + 1))
    let e := c.1.texel w d (wx (x0 + 1)) (wy (y0 + 1))
    let mix (i : Nat) : Nat :=
      (((a.2.2.getD i 0 : Int) * (256 - f) * (256 - g) + (b.2.2.getD i 0 : Int) * f * (256 - g) + (c.2.2.getD i 0 : Int) * (256 - f) * g +
        (e.2.2.getD i 0 : Int) * f * g + 2 ^ 15) / 2 ^ 16).toNat
    (e.1, worse (worse a.2.1 b.2.1) (worse c.2.1 e.2.1), out ((List.range 4).map mix))

/-! ### Fragments (R462 to R465, R471) -/

/-- An edge owns its boundary. -/
def ownsEdge (dx dy : Int) : Bool := decide (0 < dy) || (dy == 0 && decide (0 < dx))

/-- The edge functions E12, E20, E01 at a pixel that the triangle covers. -/
def RasRun.covers (r : RasRun) (p : RasPrim) (px py : Nat) : Option (Int × Int × Int) :=
  let d := r.draws.getD p.draw {}
  let x (i : Nat) := p.xs.getD i 0
  let y (i : Nat) := p.ys.getD i 0
  let cx : Int := 256 * px + 128
  let cy : Int := 256 * py + 128
  let e (i j : Nat) := edgeFn (x i) (y i) (x j) (y j) cx cy
  let ok (i j : Nat) : Bool := decide (0 < e i j) || (e i j == 0 && ownsEdge (x j - x i) (y j - y i))
  if d.scX0 ≤ px ∧ px ≤ d.scX1 ∧ d.scY0 ≤ py ∧ py ≤ d.scY1 ∧ px < r.size.1 ∧ py < r.size.2 ∧ ok 1 2 ∧ ok 2 0 ∧ ok 0 1 then some (e 1 2, e 2 0, e 0 1)
  else none

/-- The area of a filed triangle. -/
def RasPrim.area (p : RasPrim) : Int := edgeFn (p.xs.getD 0 0) (p.ys.getD 0 0) (p.xs.getD 1 0) (p.ys.getD 1 0) (p.xs.getD 2 0) (p.ys.getD 2 0)

/-- fma(l0, v0, fma(l1, v1, l2 × v2)). -/
def interp3 (l : Nat × Nat × Nat) (v0 v1 v2 : Nat) : Nat := fmaB l.1 v0 (fmaB l.2.1 v1 (mulB l.2.2 v2))

/-- Interpolation at a covered pixel: RECIP(q), the clamped depth, the attributes (R463). -/
def RasPrim.interp (p : RasPrim) (e : Int × Int × Int) : Nat × Nat × List Nat :=
  let ra := recipB (intB p.area)
  let l := (mulB (intB e.1) ra, mulB (intB e.2.1) ra, mulB (intB e.2.2) ra)
  let rq := recipB (interp3 l (p.inv.getD 0 0) (p.inv.getD 1 0) (p.inv.getD 2 0))
  let zd := interp3 l (p.zn.getD 0 0) (p.zn.getD 1 0) (p.zn.getD 2 0)
  let cl := to32 (fpMin (fpMax (fv zd) (.fin false 0 0)) fpOne)
  let n := (p.at_.headD []).length
  (rq, cl, (List.range n).map fun i =>
    mulB (interp3 l ((p.at_.getD 0 []).getD i 0) ((p.at_.getD 1 []).getD i 0) ((p.at_.getD 2 []).getD i 0)) rq)

/-- The depth value of a pixel (R464); a D16L value that is no number or negative is unstated: a free value. -/
def State.depthVal (s : State) (fmt dscale rq zd : Nat) : Nat :=
  if fmt = 2 then zd
  else match fpToInt 65535 (fv (mulB dscale rq)) with
    | some i => if 0 ≤ i then min 65535 i.toNat else s.free 0 % 65536
    | none => s.free 0 % 65536

/-- The depth test. -/
def depthTest (fmt func n st : Nat) : Bool :=
  let un := fmt == 2 && (fv n == .nan || fv st == .nan)
  let c : Int := if fmt = 2 then fpCmp (fv n) (fv st) else (n : Int) - st
  match func with
  | 0 => true
  | 1 => !un && decide (c < 0)
  | 2 => !un && decide (c ≤ 0)
  | 3 => !un && c == 0
  | 4 => !un && decide (0 ≤ c)
  | 5 => !un && decide (0 < c)
  | 6 => un || c != 0
  | _ => false

/-- A colour channel stored as a byte (R471). -/
def colourByte (r : Nat) : Nat :=
  match fv r with
  | .nan => 0
  | x => (fpToInt 255 (fv (mulB (to32 (fpMin (fpMax x (.fin false 0 0)) fpOne)) (intB 255)))).getD 0 |>.toNat

/-- The source colour blended into a stored RGBA8 pixel. -/
def blendPixel (d : RasDraw) (src : List Nat) (dst : Nat) : Nat :=
  let one := intB 1
  let sA := src.getD 3 0
  let fac (k : Nat) : Nat := match k with | 0 => intB 0 | 1 => one | 2 => sA | _ => subB one sA
  let ch (c : Nat) : Nat :=
    let dc := divB (intB (bits dst (8 * c) 8)) (intB 255)
    colourByte (if d.blend then fmaB (src.getD c 0) (fac d.srcf) (mulB dc (fac d.dstf)) else src.getD c 0)
  ((List.range 4).map fun c => ch c * 2 ^ (8 * c)).sum

/-- Attributes 0 to 3 as a colour; missing channels are 0, and 1 for A. -/
def attrColour (a : List Nat) : List Nat := [a.getD 0 0, a.getD 1 0, a.getD 2 0, a.getD 3 (intB 1)]

/-- Pixel p of the bin: its column and row on the target. -/
def RasRun.pixel (r : RasRun) (p : Nat) : Nat × Nat := ((r.bin % r.bins.1) * 32 + p % 32, (r.bin / r.bins.1) * 32 + p / 32)

/-- One pixel of the bin under one triangle: depth test and write, then colour, or the fragment kept for shading. -/
def State.fragment (s : State) (w : Who) (r : RasRun) (p : RasPrim) (k : Nat) : State × Status × RasRun :=
  let d := r.draws.getD p.draw {}
  let xy := r.pixel k
  match r.covers p xy.1 xy.2 with
  | none => (s, .ok, r)
  | some e =>
    let v := p.interp e
    let fmt := match r.ds with | some x => x.fmt | none => 0
    let n := s.depthVal fmt d.dscale v.1 v.2.1
    let pass := match r.ds with | some _ => depthTest fmt d.dfunc n (r.depth.getD k 0) | none => true
    if !pass then (s, .ok, r)
    else
      let r1 := if d.dwrite then { r with depth := r.depth.set k n } else r
      let tx := if d.tex then s.drawn.texSample w d (v.2.2.getD 4 0) (v.2.2.getD 5 0) else (s.drawn, .ok, [])
      if tx.2.1 ≠ .ok then (tx.1, tx.2.1, r1)
      else if d.shade then (tx.1, .ok, { r1 with passed := r1.passed.set k (some (v.2.2, tx.2.2)) })
      else
        let base := attrColour v.2.2
        let src := if d.tex then List.zipWith mulB base tx.2.2 else base
        (tx.1, .ok, if d.cwrite && r1.cs.isSome then { r1 with colour := r1.colour.set k (blendPixel d src (r1.colour.getD k 0)) } else r1)

/-- Every pixel of the bin under one triangle. -/
def State.fragments (s : State) (w : Who) (p : RasPrim) : List Nat → RasRun → State × Status × RasRun
  | [], r => (s, .ok, r)
  | k :: t, r =>
    let q := s.fragment w r p k
    if q.2.1 ≠ .ok then q else q.1.fragments w p t q.2.2

/-- The triangles of one draw in the bin. -/
def State.rasPrims (s : State) (w : Who) : List RasPrim → RasRun → State × Status × RasRun
  | [], r => (s, .ok, r)
  | p :: t, r =>
    let q := if (r.touched p).contains r.bin then s.fragments w p (List.range 1024) r else (s, .ok, r)
    if q.2.1 ≠ .ok then q else q.1.rasPrims w t q.2.2

/-! ### Compression (R473) -/

/-- Channels of a format: number and width. -/
def surfChans (fmt : Nat) : Nat × Nat := if fmt = 0 then (4, 8) else if fmt = 3 then (1, 16) else (1, 32)

/-- Bit length. -/
def bitLen (n : Nat) : Nat := if n = 0 then 0 else Nat.log2 n + 1

/-- Values packed from bit 0 of byte 0 upward: width and value. -/
def packBits (l : List (Nat × Nat)) : Nat × Nat := l.foldl (fun a p => (a.1 + p.1, a.2 + p.2 * 2 ^ a.1)) (0, 0)

/-- The encoding of a block of 64 pixels: bits and their value. -/
def encodeBlock (fmt : Nat) (px : List Nat) : Nat × Nat :=
  let cw := surfChans fmt
  packBits ((List.range cw.1).flatMap fun c =>
    let v := px.map fun p => bits p (cw.2 * c) cw.2
    let lo := v.foldl min (v.headD 0)
    let b := bitLen (v.foldl max 0 - lo)
    (cw.2, lo) :: (6, b) :: v.map fun x => (b, x - lo))

/-- A block as it is written: its bytes and its metadata byte. -/
def compressBlock (fmt : Nat) (px : List Nat) : List Byte × Nat :=
  let size := surfSize fmt
  let e := encodeBlock fmt px
  let units := (e.1 + 255) / 256
  if 32 * units < 64 * size then (leBytes (32 * units) e.2, units) else ((px.map fun p => leBytes size p).flatten, 0)

/-- The channels of an encoded block, from channel c on at bit position o. -/
def decodeChans (w v : Nat) : Nat → Nat → List (List Nat)
  | 0, _ => []
  | n + 1, o =>
    let lo := bits v o w
    let b := bits v (o + w) 6
    ((List.range 64).map fun i => lo + bits v (o + w + 6 + b * i) b) :: decodeChans w v n (o + w + 6 + 64 * b)

/-- The 64 pixels of a block with its metadata byte. -/
def decodeBlock (fmt units : Nat) (l : List Byte) : List Nat :=
  let size := surfSize fmt
  if units = 0 then (List.range 64).map fun i => pb l (size * i) size
  else
    let cw := surfChans fmt
    let cs := decodeChans cw.2 (leNat l) cw.1 0
    (List.range 64).map fun i => ((List.range cw.1).map fun c => ((cs.getD c []).getD i 0 % 2 ^ cw.2) * 2 ^ (cw.2 * c)).sum

/-- Blocks across a surface. -/
def RasSurf.blocksX (x : RasSurf) : Nat := (x.w + 7) / 8

/-- The pixels of a block from its bytes as read. -/
def blockOf (fmt units : Nat) (r : State × Status × List Byte) : State × Status × List Nat := (r.1, r.2.1, decodeBlock fmt units r.2.2)

/-- The bytes of a block, its metadata byte read: a byte above the raw length is NACK_ABSENT (R474). -/
def RasSurf.readBlock (x : RasSurf) (w : Who) (b : Nat) (m : State × Status × List Byte) : State × Status × List Nat :=
  if m.2.1 ≠ .ok then (m.1, m.2.1, [])
  else if 64 * surfSize x.fmt < 32 * leNat m.2.2 then (m.1, .nackAbsent, [])
  else blockOf x.fmt (leNat m.2.2) (m.1.gmReads w (gaAdd x.addr (b * (64 * surfSize x.fmt) : Nat))
    (if leNat m.2.2 = 0 then 64 * surfSize x.fmt else 32 * leNat m.2.2))

/-- A compressed block is read (R474). -/
def State.readBlock (s : State) (w : Who) (x : RasSurf) (b : Nat) : State × Status × List Nat :=
  x.readBlock w b (s.gmReads w (gaAdd x.metaA (b : Nat)) 1)

/-- A block is written with its metadata byte. -/
def State.writeBlock (s : State) (w : Who) (x : RasSurf) (b : Nat) (px : List Nat) : State × Status :=
  let c := compressBlock x.fmt px
  let r := s.gmWrites w (gaAdd x.addr (b * (64 * surfSize x.fmt) : Nat)) c.1
  if r.2 ≠ .ok then r else r.1.gmWrites w (gaAdd x.metaA (b : Nat)) (leBytes 1 c.2)

/-! ### Bins and surfaces (R472, R475) -/

/-- The stored content of the pixels of a bin, blocks or rows, from a list of pieces: pixel number of the first and
the pieces' pixels. -/
def State.loadRows (s : State) (w : Who) (x : RasSurf) (bx by_ : Nat) : List Nat → List Nat → State × Status × List Nat
  | [], acc => (s, .ok, acc)
  | row :: t, acc =>
    let y := by_ * 32 + row
    let n := min 32 (x.w - bx * 32)
    if x.h ≤ y then (s, .ok, acc)
    else
      let size := surfSize x.fmt
      let r := s.gmReads w (gaAdd x.addr (y * x.pitch + bx * 32 * size : Nat)) (n * size)
      if r.2.1 ≠ .ok then (r.1, r.2.1, acc)
      else r.1.loadRows w x bx by_ t ((List.range n).foldl (fun a i => a.set (32 * row + i) (pb r.2.2 (size * i) size)) acc)

/-- The blocks of a bin that lie on the surface. -/
def RasSurf.binBlocks (x : RasSurf) (bx by_ : Nat) : List (Nat × Nat) :=
  (List.range 16).filterMap fun k =>
    let cx := bx * 4 + k % 4
    let cy := by_ * 4 + k / 4
    if cx * 8 < x.w ∧ cy * 8 < x.h then some (k, cy * x.blocksX + cx) else none

/-- Pixel numbers in the bin of block k of the bin. -/
def blockPixels (k : Nat) : List Nat := (List.range 64).map fun i => 32 * (8 * (k / 4) + i / 8) + 8 * (k % 4) + i % 8

/-- The pixels of one block in their places, the block read. -/
def blockInto (k : Nat) (acc : List Nat) (r : State × Status × List Nat) : State × Status × List Nat :=
  if r.2.1 ≠ .ok then (r.1, r.2.1, acc) else (r.1, .ok, (List.zip (blockPixels k) r.2.2).foldl (fun a p => a.set p.1 p.2) acc)

/-- The blocks of a bin, one after the other. -/
def State.loadBlocks (s : State) (w : Who) (x : RasSurf) (l : List (Nat × Nat)) (acc : List Nat) : State × Status × List Nat :=
  l.foldl (fun (a : State × Status × List Nat) p =>
    if a.2.1 ≠ .ok then a else blockInto p.1 a.2.2 (a.1.readBlock w x p.2)) (s, .ok, acc)

/-- What a bin of a surface starts from. -/
def State.loadBin (s : State) (w : Who) (x : RasSurf) (bx by_ : Nat) : State × Status × List Nat :=
  let clear := List.replicate 1024 (x.clear % 2 ^ (8 * surfSize x.fmt))
  if !x.load then (s, .ok, clear)
  else if x.comp then s.loadBlocks w x (x.binBlocks bx by_) clear
  else s.loadRows w x bx by_ (List.range 32) clear

/-- The rows of a bin that lie on the surface: row, pixels. -/
def RasSurf.binRows (x : RasSurf) (bx by_ : Nat) : List (Nat × List Nat) :=
  (List.range 32).filterMap fun row =>
    if by_ * 32 + row < x.h then some (row, (List.range (min 32 (x.w - bx * 32))).map fun i => 32 * row + i) else none

/-- The bytes of some pixels. -/
def pixelBytes (size : Nat) (px l : List Nat) : List Byte := (l.map fun i => leBytes size (px.getD i 0)).flatten

def State.storeRows (s : State) (w : Who) (x : RasSurf) (bx by_ : Nat) (px : List Nat) : List (Nat × List Nat) → State × Status
  | [] => (s, .ok)
  | (row, l) :: t =>
    let size := surfSize x.fmt
    let r := s.gmWrites w (gaAdd x.addr ((by_ * 32 + row) * x.pitch + bx * 32 * size : Nat)) (pixelBytes size px l)
    if r.2 ≠ .ok then r else r.1.storeRows w x bx by_ px t

/-- Pixels beyond the surface are encoded as 0. -/
def RasSurf.inside (x : RasSurf) (bx by_ i : Nat) : Bool := decide (bx * 32 + i % 32 < x.w) && decide (by_ * 32 + i / 32 < x.h)

def State.storeBlocks (s : State) (w : Who) (x : RasSurf) (bx by_ : Nat) (px : List Nat) : List (Nat × Nat) → State × Status
  | [] => (s, .ok)
  | (k, b) :: t =>
    let r := s.writeBlock w x b ((blockPixels k).map fun i => if x.inside bx by_ i then px.getD i 0 else 0)
    if r.2 ≠ .ok then r else r.1.storeBlocks w x bx by_ px t

/-- The signature of a bin's pixels (R475). -/
def RasSurf.binCrc (x : RasSurf) (bx by_ : Nat) (px : List Nat) : Nat :=
  crc32 ((pixelBytes (surfSize x.fmt) px ((x.binRows bx by_).map fun p => p.2).flatten).map fun b => b.toNat)

/-- A bin goes to a surface, subject to its signature: whether it was written or skipped. -/
def State.storeBin (s : State) (w : Who) (x : RasSurf) (bx by_ : Nat) (px : List Nat) : State × Status × Bool :=
  let crc := x.binCrc bx by_ px
  let entry := gaAdd x.sig (8 * (by_ * ((x.w + 31) / 32) + bx))
  match (if x.sign then s.gmReads w entry 8 else (s, .ok, [])) with
  | (s1, st, old) =>
    if st ≠ .ok then (s1, st, false)
    else if x.sign ∧ bit (leNat old) 32 ∧ bits (leNat old) 0 32 = crc then (s1, .ok, false)
    else match (if x.comp then s1.storeBlocks w x bx by_ px (x.binBlocks bx by_) else s1.storeRows w x bx by_ px (x.binRows bx by_)) with
      | (s2, st2) =>
        if st2 ≠ .ok then (s2, st2, true)
        else if x.sign then
          match s2.gmWrites w entry (leBytes 8 (crc + 2 ^ 32)) with
          | (s3, st3) => (s3, st3, true)
        else (s2, .ok, true)

/-- Stored poison over the target region of a bin (R481). -/
def State.poisonBin (s : State) (x : RasSurf) (bx by_ : Nat) : State :=
  let size := surfSize x.fmt
  let spans := if x.comp then (x.binBlocks bx by_).map fun p => (p.2 * 64 * size, 64 * size)
    else (x.binRows bx by_).map fun p => ((by_ * 32 + p.1) * x.pitch + bx * 32 * size, p.2.length * size)
  spans.foldl (fun (s : State) p =>
    let ga := gaAdd x.addr p.1
    if gaHost ga ∨ !s.gaHere ga then s
    else match placeOf (gaLocal ga) with
      | .memory code phys => s.poisonMem code phys p.2
      | _ => s) s

/-! ### Shading on the tiles (R469, R470) -/

/-- The export block. -/
def RasRun.export (r : RasRun) : List Byte :=
  let d := r.draws.getD r.draw {}
  let mask := ((List.range 1024).map fun k => if (r.passed.getD k none).isSome then 2 ^ k else 0).sum
  let plane (f : List Nat × List Nat → Nat) : List Byte :=
    ((List.range 1024).map fun k => leBytes 4 (match r.passed.getD k none with | some p => f p | none => 0)).flatten
  leBytes 128 mask ++ leBytes 2 (r.bin % r.bins.1) ++ leBytes 2 (r.bin / r.bins.1) ++ leBytes 4 r.draw ++ (r.desc.drop 32).take 4 ++
    List.replicate 116 0 ++ ((List.range d.na).map fun a => plane fun p => p.1.getD a 0).flatten ++
    (if d.tex then ((List.range 4).map fun c => plane fun p => p.2.getD c 0).flatten else [])

/-- The values of the return block blended in. -/
def RasRun.shaded (r : RasRun) (l : List Byte) : RasRun :=
  let d := r.draws.getD r.draw {}
  if !d.cwrite || r.cs.isNone then r
  else
    { r with colour := (List.range 1024).map fun k =>
        match r.passed.getD k none with
        | some _ => blendPixel d ((List.range 4).map fun c => pb l (4096 * c + 4 * k) 4) (r.colour.getD k 0)
        | none => r.colour.getD k 0 }

/-! ### The frame -/

/-- The requester of a frame's requests. -/
def State.rasWho (s : State) (c : Nat) : Who := s.rowWho 0x48 c (rowClass (s.ctx 0x48 c).row)

/-- Counters of an ended frame, and IDLE. -/
def State.rasIdle (s : State) (r : RasRun) : State :=
  { ((s.wrAll [(R.RAS_STAT_STATE, 0), (R.RAS_STAT_PAGES_USED, r.pagesUsed)]).count R.RAS_CNT1_FRAMES 1).count R.RAS_CNT2_NAN_PRIM r.nanPrim with ras := none }

/-- The frame record is written and the iteration ends (R452): cause 1 OVERFLOW, 2 GROW_TMO with status DROPPED. -/
def State.rasEnd (s : State) (r : RasRun) (st : Status) (cause : Nat) : State :=
  let s1 := (s.rasIdle r)
  let dropped := st == .dropped
  let s2 := if dropped then ((s1.count R.RAS_CNT1_DROPS 1).count (R.RAS_DROPS_DROPS (pb r.desc 12 1 % 16)) 1) else s1
  let rec_ := leBytes 1 (statusNat st) ++ leBytes 1 cause ++ leBytes 1 (pb r.desc 12 1) ++ leBytes 1 0 ++ (r.desc.drop 32).take 4 ++ leBytes 8 r.tStart ++
    leBytes 8 s2.sysTime ++ leBytes 4 r.nPrims ++ leBytes 4 r.drawn ++ leBytes 4 r.pagesUsed ++ leBytes 2 r.grows ++ leBytes 2 r.written ++ leBytes 2 r.skipped ++
    leBytes 2 r.nanPrim ++ leBytes 20 0
  let q := s2.gmWrites (s.rasWho r.ctx) (pb r.desc 24 8) rec_
  let s3 := if dropped ∧ s.on R.RAS_CTRL_HOST_IRQ_EN then { q.1 with msix := q.1.msix ++ [(s.rd R.RAS_CTRL_HOST_CLIENT, 8)] } else q.1
  if st = .ok ∨ dropped then s3.report_ 0x48 r.ctx q.2 (b2n dropped) else s3.report_ 0x48 r.ctx st 0

/-- A bin is finished: each surface takes it; then the next bin. Poisoned inputs spoil the bin (R481). -/
def State.finishBin (s : State) (r : RasRun) : State × Status × RasRun :=
  let w := s.rasWho r.ctx
  let bx := r.bin % r.bins.1
  let by_ := r.bin / r.bins.1
  let one (q : State × Status × RasRun) (x : Option RasSurf) (px : List Nat) : State × Status × RasRun :=
    match x with
    | none => q
    | some x =>
      if q.2.1 ≠ .ok then q
      else
        let a := q.1.storeBin w x bx by_ px
        if a.2.1 ≠ .ok then (a.1, a.2.1, q.2.2)
        else if a.2.2 then (a.1, .ok, { q.2.2 with written := q.2.2.written + 1 })
        else (a.1.count R.RAS_CNT2_BINS_SKIPPED 1, .ok, { q.2.2 with skipped := q.2.2.skipped + 1 })
  one (one (s, .ok, r) r.cs r.colour) r.ds r.depth

/-- Whether the frame goes on, waits for a shader, or has failed. -/
inductive RasNext where
  | done
  | waits
  | failed (st : Status)

/-- The token of a draw that is shaded, its fragments exported (R477). -/
def rasExported (d : RasDraw) (r : RasRun) (cls now : Nat) (e : State × Status) : State × RasRun × RasNext :=
  if e.2 ≠ .ok then (e.1, r, .failed e.2)
  else if !e.1.tokenDesc 0x48 d.desc then (e.1, r, .failed .nackAbsent)
  else (e.1.send (e.1.descToken 0x48 d.desc 1 cls), { r with wait := 2, since := now }, .waits)

/-- A draw whose primitives have run. -/
def rasDrawn (d : RasDraw) (w : Who) (now : Nat) (q : State × Status × RasRun) : State × RasRun × RasNext :=
  if q.2.1 ≠ .ok then (q.1, q.2.2, .failed q.2.1)
  else if !d.shade ∨ !(q.2.2.passed.any fun p => p.isSome) then (q.1, q.2.2, .done)
  else rasExported d q.2.2 w.cls now (q.1.gmWrites w (d.exp + q.1.chip * 2 ^ 48) q.2.2.export)

/-- One draw of a bin. -/
def State.rasDraw (s : State) (n : Nat) (r : RasRun) : State × RasRun × RasNext :=
  rasDrawn (r.draws.getD n {}) (s.rasWho r.ctx) s.sysTime
    (s.rasPrims (s.rasWho r.ctx) (r.prims.filter fun p => p.draw == n) { r with draw := n, passed := List.replicate 1024 none })

/-- The draws of the bin from one on: a SHADE = TILE draw with a visible fragment exports and waits. -/
def State.rasDraws (s : State) (l : List Nat) (r : RasRun) : State × RasRun × RasNext :=
  l.foldl (fun (a : State × RasRun × RasNext) n => match a.2.2 with | .done => a.1.rasDraw n a.2.1 | _ => a) (s, r, .done)

/-- A bin starts from CLEAR or from what is stored. -/
def State.startBin (s : State) (r : RasRun) : State × Status × RasRun :=
  let w := s.rasWho r.ctx
  let bx := r.bin % r.bins.1
  let by_ := r.bin / r.bins.1
  let c := match r.cs with | some x => s.loadBin w x bx by_ | none => (s, .ok, [])
  if c.2.1 ≠ .ok then (c.1, c.2.1, r)
  else
    let d := match r.ds with | some x => c.1.loadBin w x bx by_ | none => (c.1, .ok, [])
    (d.1, d.2.1, { r with colour := c.2.2, depth := d.2.2 })

/-- The frame fails in a bin (R470, R481). -/
def State.rasFail (s : State) (r : RasRun) (st : Status) : State :=
  let bx := r.bin % r.bins.1
  let by_ := r.bin / r.bins.1
  let one (s : State) (x : Option RasSurf) : State := match x with | some x => if st = .poison then s.poisonBin x bx by_ else s | none => s
  (one (one s r.cs) r.ds).rasEnd r st 0

/-- The bins that remain, in row-major order. -/
def State.rasBins (s : State) : List Nat → RasRun → State
  | [], r => s.rasEnd r .ok 0
  | b :: t, r =>
    let a := s.startBin { r with bin := b, draw := 0 }
    if a.2.1 ≠ .ok then a.1.rasFail a.2.2 a.2.1
    else match a.1.rasDraws (List.range a.2.2.draws.length) a.2.2 with
      | (s1, r1, .waits) => { s1 with ras := some r1 }
      | (s1, r1, .failed st) => s1.rasFail r1 st
      | (s1, r1, .done) =>
        let f := s1.finishBin r1
        if f.2.1 ≠ .ok then f.1.rasFail f.2.2 f.2.1 else f.1.rasBins t f.2.2

/-- The bin being rendered goes on after its draw n. -/
def State.rasResume (s : State) (r : RasRun) : State :=
  let n := r.draws.length
  match s.rasDraws ((List.range n).drop (r.draw + 1)) { r with wait := 0 } with
  | (s1, r1, .waits) => { s1 with ras := some r1 }
  | (s1, r1, .failed st) => s1.rasFail r1 st
  | (s1, r1, .done) =>
    let f := s1.finishBin r1
    if f.2.1 ≠ .ok then f.1.rasFail f.2.2 f.2.1
    else f.1.rasBins ((List.range (r.bins.1 * r.bins.2)).drop (r.bin + 1)) f.2.2

/-- The page list: n entries; none where one is invalid or stands twice (R451). -/
def State.rasPages (s : State) (r : RasRun) : State × Status × List Nat :=
  let q := s.gmReads (s.rasWho r.ctx) (pb r.desc 16 8 % 2 ^ 48 + s.chip * 2 ^ 48) (2 * r.nPages)
  if q.2.1 ≠ .ok then (q.1, q.2.1, [])
  else
    let l := (List.range r.nPages).map fun i => pb q.2.2 (2 * i) 2
    if l.any (fun p => 512 ≤ p) || hasTwice l || r.nPages = 0 || 512 < r.nPages then (q.1, .nackAbsent, []) else (q.1, .ok, l)

/-- A page that binning takes must be reachable for the unit. -/
def State.pagesStatus (s : State) (w : Who) (l : List Nat) : Status :=
  l.foldl (fun st p =>
    if st ≠ .ok then st
    else
      let a := 0x12000000 + 0x10000 * p
      let r := (s.memAdmit w (s.stamp a) a 64 true).2.1
      if r = .retry then .ok else r) .ok

/-- Binning of what was fetched, in the pages listed now: rendering, a grow fault, a drop, or an end (R459 to R461). -/
def State.rasBinning (s : State) (r : RasRun) : State :=
  let pg := s.rasPages r
  if pg.2.1 ≠ .ok then pg.1.rasEnd r pg.2.1 0
  else
    let f := r.fileAll r.nPages r.prims ({}, 0) false
    let taken := pg.2.2.take f.1.pages
    let r1 := { r with pagesUsed := f.1.pages, drawn := f.2.1, wait := 0 }
    let st := pg.1.pagesStatus (s.rasWho r.ctx) taken
    if st ≠ .ok then pg.1.rasEnd r1 st 0
    else
      let s1 := (taken.foldl (fun (s : State) p => s.takePage p) pg.1).wr R.RAS_STAT_PAGES_USED f.1.pages
      if !f.2.2 then
        if bit (pb r.desc 13 1) 0 then s1.rasEnd r1 .dropped 1
        else
          let s2 := { s1.wrAll [(R.RAS_STAT_STATE, 3), (R.RAS_STAT_BIN_FAULT, 1)] with ras := some { r1 with wait := 1, since := s.sysTime } }
          if s.on R.RAS_CTRL_HOST_IRQ_EN then { s2 with msix := s2.msix ++ [(s.rd R.RAS_CTRL_HOST_CLIENT, 8)] } else s2
      else if r.fetchEnd ≠ .ok then s1.rasEnd r1 r.fetchEnd 0
      else (s1.wr R.RAS_STAT_STATE 2).rasBins (List.range (r.bins.1 * r.bins.2)) r1

/-- The surfaces of a list. -/
def State.rasSurfs (s : State) (w : Who) (x : RasList) : State × Status × Option RasSurf × Option RasSurf :=
  let one (s : State) (a : Nat) (colour : Bool) : State × Status × Option RasSurf :=
    if a = 0 then (s, .ok, none)
    else
      let q := s.gmReads w a 64
      if q.2.1 ≠ .ok then (q.1, q.2.1, none)
      else match surfOf q.2.2 colour with
        | some f => (q.1, .ok, some f)
        | none => (q.1, .nackAbsent, none)
  let c := one s x.cAddr true
  if c.2.1 ≠ .ok then (c.1, c.2.1, none, none)
  else
    let d := one c.1 x.dAddr false
    match c.2.2, d.2.2 with
    | some a, some b => if a.w = b.w ∧ a.h = b.h then (d.1, d.2.1, some a, some b) else (d.1, .nackAbsent, none, none)
    | a, b => (d.1, d.2.1, a, b)

/-- A FRAME fires: descriptor, command list, surfaces, triangles; then binning. -/
def State.rasFrame (s : State) (c : Nat) (desc : List Byte) : State :=
  let w := s.rasWho c
  let r0 : RasRun := { ctx := c, desc := desc, tStart := s.sysTime, nPages := pb desc 14 2 }
  let n := pb desc 8 4
  let s0 := s.wrAll [(R.RAS_STAT_STATE, 1), (R.RAS_STAT_STREAM, pb desc 12 1 % 16), (R.RAS_STAT_PAGES_USED, 0)]
  if n = 0 ∨ 65536 < n ∨ pb desc 0 8 % 32 ≠ 0 then s0.rasEnd r0 .nackAbsent 0
  else
    let q := s0.gmReads w (pb desc 0 8) (32 * n)
    if q.2.1 ≠ .ok then q.1.rasEnd r0 q.2.1 0
    else
      let x := (List.range n).foldl (fun x i => rasRecord x ((q.2.2.drop (32 * i)).take 32)) {}
      let sf := if x.target then q.1.rasSurfs w x else (q.1, .ok, none, none)
      if sf.2.1 ≠ .ok then sf.1.rasEnd r0 sf.2.1 0
      else
        let f := sf.1.rasFetch w 0 x.draws ([], 0, 0)
        let st := if f.2.1 ≠ .ok then f.2.1 else if x.bad ∨ !x.ended then .nackAbsent else .ok
        f.1.rasBinning
          { r0 with draws := x.draws, prims := f.2.2.1, nanPrim := f.2.2.2.1, nPrims := f.2.2.2.2, fetchEnd := st, cs := sf.2.2.1, ds := sf.2.2.2 }

/-- The descriptor of the row, read at iteration 0 (R450). -/
def State.rasDesc (s : State) (c : Nat) : State × Status × List Byte :=
  let x := s.ctx 0x48 c
  if x.param ≠ [] then (s, .ok, x.param)
  else
    let q := s.gmReads (s.rasWho c) (bits (rowPayload x.row) 0 48 + s.chip * 2 ^ 48) 64
    (if q.2.1 = .ok then q.1.setCtx 0x48 c { q.1.ctx 0x48 c with param := q.2.2 } else q.1, q.2)

/-- A FRAME row runs its iteration. -/
def State.rasFrameRow (s : State) (c : Nat) : State :=
  if !s.runs 0x48 c 7 1 ∨ s.ras.isSome then s
  else
    let d := s.rasDesc c
    if d.2.1 ≠ .ok then d.1.report_ 0x48 c d.2.1 0 else d.1.rasFrame c d.2.2

/-- RAS_GROW (R460, R479). -/
def State.rasGrow (s : State) (k : Nat) : State :=
  match s.ras with
  | some r =>
    if r.wait = 1 then (s.wr R.RAS_STAT_STATE 1).rasBinning { r with nPages := r.nPages + k, grows := r.grows + 1 }
    else s.wr R.RAS_STAT_GROW_IGN 1
  | none => s.wr R.RAS_STAT_GROW_IGN 1

/-- GROW_TIMEOUT (R460). -/
def State.rasGrowTimeout (s : State) : State :=
  match s.ras with
  | some r =>
    let t := s.rd R.RAS_GROW_TMO_GROW_TMO
    if r.wait = 1 ∧ t ≠ 0 ∧ 1000 * t ≤ s.sysSince r.since then s.rasEnd r .dropped 2 else s
  | none => s

/-- SHADE_RETURN (R469): the token is taken, the return block read and blended, the frame goes on. -/
def State.rasShadeReturn (s : State) : State :=
  match s.ras with
  | some r =>
    let d := r.draws.getD r.draw {}
    let f := R.TOKCNT_COUNT (win 0x48) d.retCtx d.retCnt
    if r.wait ≠ 2 ∨ s.rd f = 0 then s
    else
      let w := s.rasWho r.ctx
      let s1 := (s.wr f (s.rd f - 1)).returnCredits 0x48 d.retCtx d.retCnt 1 w.cls
      let q := s1.gmReads w (d.ret + s.chip * 2 ^ 48) 16384
      if q.2.1 ≠ .ok then q.1.rasFail r q.2.1 else q.1.rasResume (r.shaded q.2.2)
  | none => s

/-- SHADE_TIMEOUT (R470). -/
def State.rasShadeTimeout (s : State) : State :=
  match s.ras with
  | some r =>
    let t := (r.draws.getD r.draw {}).tmo
    if r.wait = 2 ∧ t ≠ 0 ∧ 1000 * t ≤ s.sysSince r.since then s.rasEnd r .timeout 0 else s
  | none => s

/-- The rows of one block written raw, the block read. -/
def blockOut (w : Who) (a b : RasSurf) (k : Nat) (q : State × Status × List Nat) : State × Status :=
  if q.2.1 ≠ .ok then (q.1, q.2.1)
  else
    let size := surfSize a.fmt
    let bx := k % a.blocksX
    let by_ := k / a.blocksX
    let rows := (List.range 8).filter fun j => by_ * 8 + j < a.h
    let n := min 8 (a.w - bx * 8)
    rows.foldl (fun (r : State × Status) (j : Nat) =>
      if r.2 ≠ .ok then r
      else r.1.gmWrites w (gaAdd b.addr ((by_ * 8 + j) * b.pitch + bx * 8 * size : Nat))
        (((List.range n).map fun (i : Nat) => leBytes size (q.2.2.getD (8 * j + i) 0)).flatten)) (q.1, .ok)

/-- The frame of a context that the unit no longer runs (its iteration was ended from outside) is dropped. -/
def State.rasAbandon (s : State) : State := { s.wr R.RAS_STAT_STATE 0 with ras := none }

/-! ### DECOMP (R474) -/

/-- The blocks of a surface, one after the other. -/
def State.decompBlocks (s : State) (w : Who) (a b : RasSurf) (l : List Nat) : State × Status :=
  l.foldl (fun (r : State × Status) k => if r.2 ≠ .ok then r else blockOut w a b k (r.1.readBlock w a k)) (s, .ok)

/-- A DECOMP row runs its iteration. -/
def State.rasDecompRow (s : State) (c : Nat) : State :=
  if !s.runs 0x48 c 7 2 ∨ s.ras.isSome then s
  else
    let w := s.rasWho c
    let d := s.rasDesc c
    if d.2.1 ≠ .ok then d.1.report_ 0x48 c d.2.1 0
    else
      let a := d.1.gmReads w (pb d.2.2 0 8) 64
      let b := a.1.gmReads w (pb d.2.2 8 8) 64
      let st := worse a.2.1 b.2.1
      let any_ (l : List Byte) : Option RasSurf := match surfOf l true with | some x => some x | none => surfOf l false
      if st ≠ .ok then b.1.report_ 0x48 c st 0
      else match any_ a.2.2, any_ b.2.2 with
        | some x, some y =>
          if x.comp ∧ !y.comp ∧ x.fmt = y.fmt ∧ x.w = y.w ∧ x.h = y.h then
            let r := b.1.decompBlocks w x y (List.range (x.blocksX * ((x.h + 7) / 8)))
            r.1.report_ 0x48 c r.2 0
          else b.1.report_ 0x48 c .nackAbsent 0
        | _, _ => b.1.report_ 0x48 c .nackAbsent 0

/-- LINE 0x30 of R75: a token to the counter and context of RAS_LINE_TGT (R453). -/
def State.rasLine (s : State) : State :=
  if s.on R.RAS_LINE_TGT_EN then s.token 0x48 (s.rd R.RAS_LINE_TGT_CONTEXT) (s.rd R.RAS_LINE_TGT_COUNTER) else s

/-- CNT_CLR (R484). -/
def State.rasCntClr (s : State) : State :=
  s.wrAll ([(R.RAS_CNT1_FRAMES, 0), (R.RAS_CNT1_DROPS, 0), (R.RAS_CNT2_BINS_SKIPPED, 0), (R.RAS_CNT2_NAN_PRIM, 0)] ++
    (List.range 16).map fun i => (R.RAS_DROPS_DROPS i, 0))

end Sys2Proof.Machine
end

