-- ==== Sys2Proof/Machine/BellowsCore.lean ====
section
/-! DEFINITION. The Bellows: window budget, allotments, balances, grants; heat; the tile clock and its
relock; power (spec/15_bellows_clocks.md). -/

namespace Sys2Proof.Machine

/-! ### Operating points (R500 to R503, R511) -/

/-- The relock begins: the tile clock goes to the safe clock (R502). -/
def State.relock (s : State) (target : Nat) : State :=
  { (s.wrAll [(R.CLK_STAT_ON_SAFE, 1), (R.CLK_STAT_TILE_LOCK, 0), (R.CLK_OP_BUSY, 1)]) with opChange := ⟨2, target⟩ }

/-- A change toward a point starts: to a higher point the supply code is driven first (R501). -/
def State.startChange (s : State) (target : Nat) : State :=
  let cur := s.rd R.CLK_OP_OP_CUR
  if s.opChange.phase ≠ 0 ∨ s.on R.BEL_STAT_MOTION then s
  else if target = cur ∧ ¬ s.on R.CLK_STAT_ON_SAFE then s
  else if cur < target then
    { (s.wr R.CLK_OP_BUSY 1) with opChange := ⟨1, target⟩, vid := target, vidChanged := true }
  else s.relock target

/-- A target for the tile clock, from a write, AUTO_OP or a forced action. -/
def State.opTarget (s : State) (target : Nat) : State := (s.wr R.CLK_OP_OP_TGT target).startChange target

/-- A write of CLK_OP: OP_TGT clamped into [OP_MIN, OP_MAX] (R504). -/
def State.writeClkOp (s : State) (w : Nat) : State :=
  s.opTarget (max (s.rd R.BEL_THERM2_OP_MIN) (min (bits w 0 3) (s.rd R.BEL_THERM2_OP_MAX)))

/-- BELLOWS_VOK has been high for VID_SETTLE after the raised code (R501). -/
def State.supplySettled (s : State) : State :=
  let s1 := { s with vok := true, vidChanged := false }
  if s1.opChange.phase = 1 then s1.relock s1.opChange.target else s1

/-- The tile PLL locks (R502 step 4). -/
def State.tileLock (s : State) : State :=
  if s.opChange.phase = 2 then { (s.wr R.CLK_STAT_TILE_LOCK 1) with opChange := { s.opChange with phase := 3 } } else s

/-- The switch-back (R502 steps 5 and 6): the change ends; a lower point now drives its code; a target
written meanwhile is taken (R501). -/
def State.switchBack (s : State) : State :=
  if s.opChange.phase = 3 then
    let t := s.opChange.target
    let lower := t < s.vid
    let s1 := (s.wrAll [(R.CLK_OP_OP_CUR, t), (R.CLK_STAT_ON_SAFE, 0), (R.CLK_OP_BUSY, 0)]).count R.CLK_CNT_RELOCKS 1
    let s2 := { s1 with opChange := {}, opSince := 0, vid := t, vidChanged := s.vidChanged || lower }
    s2.startChange (s2.rd R.CLK_OP_OP_TGT)
  else s

/-- The tile PLL does not lock, or loses lock (R499, R511): the tiles resume on the safe clock. -/
def State.lockFail (s : State) : State :=
  let high := max s.vid (max (s.rd R.CLK_OP_OP_CUR) s.opChange.target)
  let s1 := (s.wrAll [(R.CLK_STAT_LOCK_FAIL, 1), (R.CLK_STAT_TILE_LOCK, 0), (R.CLK_STAT_ON_SAFE, 1), (R.CLK_OP_BUSY, 0),
    (R.CLK_OP_OP_CUR, 0)]).count R.CLK_CNT_LOCK_FAILS 1
  { s1 with opChange := {}, vid := high, vidChanged := s.vidChanged || high != s.vid, opSince := 0 }

/-- Tile sequencers do not fire and tile engines pause during a relock (R502). -/
def State.tilesPaused (s : State) : Bool := 2 ≤ s.opChange.phase

/-- BELLOWS_VOK falls: not counted while the code has changed since it last rose (R515, R801). -/
def State.vokFall (s : State) : State :=
  let s1 := { s with vok := false }
  if s.vidChanged then s1 else ((s1.wr R.CLK_STAT_VOK_LOST 1).report 0x0B 0).opTarget 0

/-! ### Power (R505 to R507) -/

/-- One bit of BEL_PWR_DN: power-down only from QUARANTINE; a written 0 asks for power again. -/
def State.powerTile (s : State) (t : Nat) (dn : Bool) : State :=
  let f := R.BEL_PWR_DN_DN (t / 32)
  let was := bit (s.rd f) (t % 32)
  if dn = was then s
  else if dn then
    let us := s.unitSt t
    if us.state = 2 ∧ s.tileOn t then
      ((s.setUnit t { us with powered := false, bistPass := false, bistRun := false, zeroed := false, dirty := false }).forgetMem t).wr f
        (s.rd f ||| 2 ^ (t % 32))
    else s.wr R.BEL_STAT_PWR_REJ 1
  else s.wr f (s.rd f - 2 ^ (t % 32))

/-- A write of BEL_PWR_DN half i. -/
def State.writePwrDn (s : State) (i w : Nat) : State :=
  (List.range 32).foldl (fun s b => s.powerTile (32 * i + b) (bit w b)) s

/-- A write of BEL_PWR_MISC: the raster unit powers down only when idle and disabled (R505). -/
def State.writePwrMisc (s : State) (w : Nat) : State :=
  if bit w 0 then
    if s.on R.BEL_PWR_MISC_RAS_DN then s
    else if s.rd R.RAS_STAT_STATE = 0 ∧ ¬ s.on (R.SEQ_CTRL_ENABLE 0x210000) then
      s.wrAll [(R.BEL_PWR_MISC_RAS_DN, 1), (R.BEL_PWR_MISC_RAS_ON, 0)]
    else s.wr R.BEL_STAT_PWR_REJ 1
  else s.wr R.BEL_PWR_MISC_RAS_DN 0

/-- Power has returned to a tile (R506). -/
def State.powerReturnTile (s : State) (t : Nat) : State :=
  if (s.unitSt t).powered ∨ bit (s.rd (R.BEL_PWR_DN_DN (t / 32))) (t % 32) then s
  else (s.setUnit t { s.unitSt t with powered := true }).forgetMem t

/-- Power has returned to the raster unit (R506). -/
def State.powerReturnRaster (s : State) : State :=
  if s.on R.BEL_PWR_MISC_RAS_DN then s else s.wr R.BEL_PWR_MISC_RAS_ON 1

/-- Every enabled tile and the raster unit are powered down (R507, R514). -/
def State.allDown (s : State) : Bool :=
  !s.on R.BEL_PWR_MISC_RAS_ON && (List.range 64).all fun t => !s.tileOn t || !(s.unitSt t).powered

/-- MOTION_ONLY written (R507): entry stops the tile PLL at the code of OP0; leaving starts it at
OP_TGT. -/
def State.writeMotion (s : State) (one : Bool) : State :=
  if one then
    if s.on R.BEL_STAT_MOTION then s
    else if s.allDown then
      { (s.wrAll [(R.BEL_CTRL_MOTION_ONLY, 1), (R.BEL_STAT_MOTION, 1), (R.CLK_STAT_TILE_LOCK, 0), (R.CLK_OP_OP_CUR, 0),
          (R.CLK_OP_BUSY, 0), (R.CLK_STAT_ON_SAFE, 1)]) with
        opChange := {}, vid := 0, vidChanged := true }
    else (s.wr R.BEL_CTRL_MOTION_ONLY 0).wr R.BEL_STAT_PWR_REJ 1
  else
    let s1 := s.wrAll [(R.BEL_CTRL_MOTION_ONLY, 0), (R.BEL_STAT_MOTION, 0)]
    if s.on R.BEL_STAT_MOTION then s1.startChange (s1.rd R.CLK_OP_OP_TGT) else s1

/-- A write of BEL_CTRL. -/
def State.writeBelCtrl (s : State) (w : Nat) : State :=
  (s.wrAll [(R.BEL_CTRL_AUTO_OP, bits w 0 1), (R.BEL_CTRL_SPILL, bits w 1 1), (R.BEL_CTRL_IRQ_EN, bits w 2 1)]).writeMotion (bit w 3)

/-! ### The window (R486, R489, R494 to R496, R504) -/

/-- A reading of a sensor in eighths of a degree is in range (R494). -/
def tempOk (t : Int) : Bool := decide (-440 ≤ t) && decide (t ≤ 1200)

/-- One sensor takes its sample, if it has produced a new one (R494). -/
def State.sample (s : State) (j : Nat) (x : Option (BitVec 12)) : State :=
  match x with
  | some v =>
    let ok := tempOk v.toInt
    let s1 := s.wrAll [(R.BEL_TEMP_TEMP j, v.toNat), (R.BEL_TEMP_VALID j, b2n ok)]
    { s1 with sensAge := s1.sensAge.set j 0 }
  | none =>
    let n := min 10 (s.sensAge.getD j 0 + 1)
    { (if n = 10 then s.wr (R.BEL_TEMP_VALID j) 0 else s) with sensAge := s.sensAge.set j n }

/-- Every sensor (R494). -/
def State.sampleAll (s : State) (xs : List (Option (BitVec 12))) : State :=
  (List.range 16).foldl (fun s j => s.sample j (xs.getD j none)) s

/-- The sensors that are invalid, as a mask (R494). -/
def State.sensBad (s : State) : Nat :=
  (List.range 16).foldl (fun m j => if s.on (R.BEL_TEMP_VALID j) then m else m + 2 ^ j) 0

/-- T_hot (R494), in eighths of a degree. -/
def State.tHot (s : State) : Int :=
  let shut : Int := s.rd R.BEL_THERM_SHUT
  let n := popcount 16 s.sensBad
  let v := (List.range 16).foldl (fun (m : Option Int) j =>
    if s.on (R.BEL_TEMP_VALID j) then
      (match m with | some x => some (max x (s.rdS (R.BEL_TEMP_TEMP j))) | none => some (s.rdS (R.BEL_TEMP_TEMP j)))
    else m) none
  let t := match v with
    | some x => if n = 0 then x else max x (8 * (shut - 1))
    | none => 8 * (shut - 1)
  if 4 ≤ n then max t (8 * shut) else t

/-- The window budget W (R486). -/
def State.windowBudget (s : State) (t8 : Int) : Int :=
  let knee : Int := s.rd R.BEL_THERM_KNEE
  let budget : Int := clampI 100 480 (s.rd R.BEL_BUDGET_BUDGET)
  let red := if 8 * knee < t8 then asr ((s.rd R.BEL_THERM_SLOPE : Int) * (t8 - 8 * knee)) 3 else 0
  max 0 (budget - red)

/-- Enabled Reed instances (R486). -/
def State.nInst (s : State) : Nat := ((List.range 48).filter fun i => s.on (R.REED_INST_CTRL_ENABLE i)).length

/-- The allotments C, P and B of a window budget (R486), before forced actions. -/
def State.allot (s : State) (w : Int) : Int × Int × Int :=
  let a := max 0 (w - s.rd R.BEL_RES_RES_CTRL - s.rd R.BEL_RES_RES_REED * s.nInst - s.rd R.BEL_RES_STATIC)
  let c := min (s.rd R.BEL_SHARE_FLOOR_C : Int) a
  let p := (a - c) * s.rd R.BEL_SHARE_PSHARE / 256
  (c, p, a - c - p)

/-- The balances of C, P and B at a window start (R489). -/
def windowBalances (spill : Bool) (bc bp bb c p b : Int) : Int × Int × Int :=
  let c1 := bc + c
  let exC := max 0 (c1 - c)
  let p1 := bp + p + (if spill then exC else 0)
  let exP := max 0 (p1 - p)
  let b1 := bb + b + (if spill then exP else 0)
  let exB := max 0 (b1 - b)
  let p2 := min p1 p
  (min c1 c, if spill then min p (p2 + exB) else p2, min b1 b)

/-- The thermal actions of a window start: forced throttle (R496), TRIP (R495), sensor fault (R494). -/
def State.heat (s : State) (t : Int) : State :=
  let shut : Int := s.rd R.BEL_THERM_SHUT
  let trip : Int := 115 + 5 * (s.rd R.BEL_WIN_TRIP : Int)
  let run := if 8 * shut ≤ t then s.shutRun + 1 else 0
  let s1 := { s with shutRun := run }
  let bad := s1.sensBad
  let s2 := (s1.wr R.BEL_STAT_SENS_INVALID bad).flag (bad != 0) R.BEL_STAT_SENSOR_FAULT
  let s3 := (s2.reportIf (bad != 0) 0x0A 0).reportIf (decide (8 * trip ≤ t)) 0x07 0
  if s3.rd R.BEL_THERM2_SHUT_N ≤ run ∧ 0 < run then (s3.wr R.BEL_STAT_FORCED 1).opTarget 0
  else if t < 8 * (shut - s3.rd R.BEL_THERM2_OP_HYST) then s3.wr R.BEL_STAT_FORCED 0
  else s3

/-- AUTO_OP's step at a window start (R493, R504). -/
def State.autoOp (s : State) (t : Int) : State :=
  let opdn : Int := s.rd R.BEL_THERM_OPDN
  let tgt := s.rd R.CLK_OP_OP_TGT
  if !s.on R.BEL_CTRL_AUTO_OP || s.on R.GLOBAL_MODE_REPRO || decide (s.opSince < s.rd R.BEL_THERM2_OP_DWELL) then s
  else if 8 * opdn ≤ t ∧ s.rd R.BEL_THERM2_OP_MIN < tgt then s.opTarget (tgt - 1)
  else if t < 8 * (opdn - s.rd R.BEL_THERM2_OP_HYST) ∧ tgt < s.rd R.BEL_THERM2_OP_MAX then s.opTarget (tgt + 1)
  else s

/-- A grant window starts, with the new readings of the sensors. -/
def State.windowStart (s : State) (xs : List (Option (BitVec 12))) : State :=
  let s0 := s.sampleAll xs
  let t := s0.tHot
  let s1 := s0.heat t
  let w := s1.windowBudget t
  let a := s1.allot w
  let none_ : Bool := s1.on R.BEL_STAT_MOTION || (s1.on R.BEL_STAT_FORCED && decide (8 * (s1.rd R.BEL_THERM_SHUT : Int) ≤ t))
  let p := if none_ then 0 else a.2.1
  let b := if none_ then 0 else a.2.2
  let spill := s1.on R.BEL_CTRL_SPILL && !s1.on R.GLOBAL_MODE_REPRO
  let bal := windowBalances spill (s1.rdS R.BEL_BAL_C_BAL) (s1.rdS R.BEL_BAL_P_BAL) (s1.rdS R.BEL_BAL_B_BAL) a.1 p b
  let s2 := (((s1.wrS R.BEL_BAL_C_BAL bal.1).wrS R.BEL_BAL_P_BAL bal.2.1).wrS R.BEL_BAL_B_BAL bal.2.2)
  let s3 := (s2.wr R.BEL_WIN_W w.toNat).wrS R.BEL_WIN_T_HOT t
  let s4 := s3.autoOp t
  { s4 with opSince := min 4096 (s4.opSince + 1) }

/-! ### Grants (R490, R492) -/

/-- The balance a class is charged to. -/
def balOf (cls : Nat) : Fld := if cls = 1 then R.BEL_BAL_C_BAL else if cls = 2 then R.BEL_BAL_P_BAL else R.BEL_BAL_B_BAL

/-- A request of a class and COST is granted now (R490). -/
def State.grants (s : State) (cls cost : Nat) : Bool := cls == 0 || cost == 0 || decide (0 < s.rdS (balOf cls))

/-- The quanta of a grant are charged and counted (R490, R492). -/
def State.charge (s : State) (cls cost : Nat) : State :=
  if cost = 0 then s else
    let s1 := s.wrS (balOf cls) (s.rdS (balOf cls) - cost)
    { s1 with used := modAt s1.used cls fun u => satAdd 64 u cost }

end Sys2Proof.Machine
end

