-- ==== Sys2Proof/Machine/Crypto.lean ====
section
/-! DEFINITION. The checks of secure boot (spec/22_startup.md R756): SHA-256 of FIPS 180-4 and the verification of
an ECDSA signature on P-256 of FIPS 186-5, on naturals. -/

namespace Sys2Proof.Machine

/-! ### SHA-256 -/

/-- Rotate a 32-bit word right. -/
def rotr32 (n x : Nat) : Nat := (x >>> n ||| x <<< (32 - n)) % 2 ^ 32

/-- The round constants. -/
def shaK : List Nat :=
  [0x428a2f98, 0x71374491, 0xb5c0fbcf, 0xe9b5dba5, 0x3956c25b, 0x59f111f1, 0x923f82a4, 0xab1c5ed5,
   0xd807aa98, 0x12835b01, 0x243185be, 0x550c7dc3, 0x72be5d74, 0x80deb1fe, 0x9bdc06a7, 0xc19bf174,
   0xe49b69c1, 0xefbe4786, 0x0fc19dc6, 0x240ca1cc, 0x2de92c6f, 0x4a7484aa, 0x5cb0a9dc, 0x76f988da,
   0x983e5152, 0xa831c66d, 0xb00327c8, 0xbf597fc7, 0xc6e00bf3, 0xd5a79147, 0x06ca6351, 0x14292967,
   0x27b70a85, 0x2e1b2138, 0x4d2c6dfc, 0x53380d13, 0x650a7354, 0x766a0abb, 0x81c2c92e, 0x92722c85,
   0xa2bfe8a1, 0xa81a664b, 0xc24b8b70, 0xc76c51a3, 0xd192e819, 0xd6990624, 0xf40e3585, 0x106aa070,
   0x19a4c116, 0x1e376c08, 0x2748774c, 0x34b0bcb5, 0x391c0cb3, 0x4ed8aa4a, 0x5b9cca4f, 0x682e6ff3,
   0x748f82ee, 0x78a5636f, 0x84c87814, 0x8cc70208, 0x90befffa, 0xa4506ceb, 0xbef9a3f7, 0xc67178f2]

/-- The initial hash value. -/
def shaH0 : List Nat :=
  [0x6a09e667, 0xbb67ae85, 0x3c6ef372, 0xa54ff53a, 0x510e527f, 0x9b05688c, 0x1f83d9ab, 0x5be0cd19]

/-- The message schedule, newest word first, extended by n words. -/
def shaExtend : Nat → List Nat → List Nat
  | 0, w => w
  | n + 1, w =>
    let a := w.getD 14 0
    let b := w.getD 1 0
    let s0 := rotr32 7 a ^^^ rotr32 18 a ^^^ (a >>> 3)
    let s1 := rotr32 17 b ^^^ rotr32 19 b ^^^ (b >>> 10)
    shaExtend n (((w.getD 15 0 + s0 + w.getD 6 0 + s1) % 2 ^ 32) :: w)

/-- One round on the eight working variables. -/
def shaRound (v : List Nat) (kw : Nat × Nat) : List Nat :=
  match v with
  | [a, b, c, d, e, f, g, h] =>
    let t1 := h + (rotr32 6 e ^^^ rotr32 11 e ^^^ rotr32 25 e) + ((e &&& f) ^^^ ((2 ^ 32 - 1 - e) &&& g)) + kw.1 + kw.2
    let t2 := (rotr32 2 a ^^^ rotr32 13 a ^^^ rotr32 22 a) + ((a &&& b) ^^^ (a &&& c) ^^^ (b &&& c))
    [(t1 + t2) % 2 ^ 32, a, b, c, (d + t1) % 2 ^ 32, e, f, g]
  | v => v

/-- One block of 64 bytes. -/
def shaBlock (h : List Nat) (l : List Byte) : List Nat :=
  let w := (shaExtend 48 ((List.range 16).map fun i => beNat ((l.drop (4 * i)).take 4)).reverse).reverse
  ((shaK.zip w).foldl shaRound h).zip h |>.map fun p => (p.1 + p.2) % 2 ^ 32

/-- The padded message. -/
def shaPad (l : List Byte) : List Byte :=
  l ++ [0x80] ++ List.replicate ((119 - l.length % 64) % 64) 0 ++ beBytes 8 (8 * l.length)

/-- Blocks of a message, n of them. -/
def shaBlocks : Nat → List Nat → List Byte → List Nat
  | 0, h, _ => h
  | n + 1, h, l => shaBlocks n (shaBlock h (l.take 64)) (l.drop 64)

/-- The digest as 32 bytes. -/
def sha256 (l : List Byte) : List Byte :=
  let m := shaPad l
  ((shaBlocks (m.length / 64) shaH0 m).map (beBytes 4)).flatten

/-! ### ECDSA on P-256 -/

def p256P : Nat := 2 ^ 256 - 2 ^ 224 + 2 ^ 192 + 2 ^ 96 - 1
def p256N : Nat := 0xffffffff00000000ffffffffffffffffbce6faada7179e84f3b9cac2fc632551
def p256B : Nat := 0x5ac635d8aa3a93e7b3ebbd55769886bc651d06b0cc53b0f63bce3c3e27d2604b
def p256G : Nat × Nat :=
  (0x6b17d1f2e12c4247f8bce6e563a440f277037d812deb33a0f4a13945d898c296,
   0x4fe342e2fe1a7f9b8ee7eb4a7c0f9e162bce33576b315ececbb6406837bf51f5)

/-- x^e modulo m, over the low n bits of e. -/
def powMod (m x : Nat) : Nat → Nat → Nat
  | 0, _ => 1 % m
  | n + 1, e =>
    let r := powMod m (x * x % m) n (e / 2)
    if e % 2 = 1 then r * x % m else r

/-- Inverse modulo a prime. -/
def invMod (m x : Nat) : Nat := powMod m x 256 (m - 2)

/-- A point of the curve; none is the point at infinity. -/
abbrev P256 := Option (Nat × Nat)

/-- Sum of two points. -/
def p256Add : P256 → P256 → P256
  | none, q => q
  | p, none => p
  | some (x1, y1), some (x2, y2) =>
    let P := p256P
    if x1 = x2 ∧ (y1 + y2) % P = 0 then none
    else
      let l := if x1 = x2 then (3 * x1 * x1 + (P - 3)) * invMod P (2 * y1) % P
        else (y2 + P - y1) * invMod P ((x2 + P - x1) % P) % P
      let x := (l * l + 2 * P - x1 - x2) % P
      some (x, (l * (x1 + P - x) + P - y1) % P)

/-- k times a point, over the low n bits of k. -/
def p256Mul : Nat → Nat → P256 → P256
  | 0, _, _ => none
  | n + 1, k, q =>
    let r := p256Mul n (k / 2) (p256Add q q)
    if k % 2 = 1 then p256Add q r else r

/-- A public key is a point of the curve. -/
def p256Valid (q : Nat × Nat) : Bool :=
  decide (q.1 < p256P) && decide (q.2 < p256P) &&
    (q.2 * q.2) % p256P == (q.1 * q.1 * q.1 + (p256P - 3) * q.1 + p256B) % p256P

/-- The signature (r, s) of a digest by a public key verifies. -/
def ecdsaVerify (q : Nat × Nat) (digest : List Byte) (r s : Nat) : Bool :=
  p256Valid q && decide (0 < r) && decide (r < p256N) && decide (0 < s) && decide (s < p256N) &&
    (let w := invMod p256N s
     let e := beNat digest
     match p256Add (p256Mul 256 (e * w % p256N) (some p256G)) (p256Mul 256 (r * w % p256N) (some q)) with
     | some (x, _) => x % p256N == r
     | none => false)

end Sys2Proof.Machine
end

