-- ==== Sys2Proof/Machine/HostCore.lean ====
section
/-! DEFINITION. Clients and their rings (spec/16_host_rings.md): ring states, doorbells, descriptors and when they may
start, completion entries, MSI-X messages, resets of functions. -/

namespace Sys2Proof.Machine

def State.sq (s : State) (n q : Nat) : SqSt := tget {} s.sqs (8 * n + q)
def State.setSq (s : State) (n q : Nat) (v : SqSt) : State := { s with sqs := tset {} s.sqs (8 * n + q) v }
def State.cq (s : State) (n c : Nat) : CqSt := tget {} s.cqs (8 * n + c)
def State.setCq (s : State) (n c : Nat) (v : CqSt) : State := { s with cqs := tset {} s.cqs (8 * n + c) v }
/-- STATE of a submission ring: 0 DISABLED, 1 RUN, 2 STOPPED, 3 DRAINING. -/
def State.sqState (s : State) (n q : Nat) : Nat := s.rd (R.SQ_STAT_STATE n q)
def State.sqSize (s : State) (n q : Nat) : Nat := 2 ^ (s.rd (R.SQ_CFG_SIZE n q) + 4)
def State.cqSize (s : State) (n c : Nat) : Nat := 2 ^ (s.rd (R.CQ_CFG_SIZE n c) + 4)
def State.sqBase (s : State) (n q : Nat) : Nat := s.rd (R.SQ_BASE_LO_BASE n q) * 2 ^ 12 + s.rd (R.SQ_BASE_HI_BASE n q) * 2 ^ 32
def State.cqBase (s : State) (n c : Nat) : Nat := s.rd (R.CQ_BASE_LO_BASE n c) * 2 ^ 12 + s.rd (R.CQ_BASE_HI_BASE n c) * 2 ^ 32

/-- The requester of a ring (R534). -/
def State.sqWho (s : State) (n q : Nat) : Who := ⟨Fin.ofNat 64 n, Fin.ofNat 4 (s.rd (R.SQ_CFG_CLASS n q)), false, false⟩

/-- The class ceiling of a client; 0 acts as 1 (R553). -/
def State.hqCeil (s : State) (n : Nat) : Nat :=
  max 1 (bits (if n < 16 then s.rd R.HQ_CEIL0_CEIL else s.rd R.HQ_CEIL1_CEIL) (2 * (n % 16)) 2)

/-! ### Messages (R543 to R545) -/

/-- One MSI-X message of a function; in D3hot its pending bit is set instead (R519). -/
def State.msixSend (s : State) (fn v : Nat) : State :=
  if s.d3hot.contains fn then { s with msixPend := if s.msixPend.contains (fn, v) then s.msixPend else (fn, v) :: s.msixPend }
  else { s with msix := s.msix ++ [(fn, v)] }

/-- The event vector of a client (R543). -/
def State.hqEvent (s : State) (n : Nat) : State := if s.on (R.HQ_CTRL_EVT_EN n) then s.msixSend n 8 else s

/-- The message of a completion ring: MSI-X, or in standalone mode an interrupt of a management core. -/
def State.cqMessage (s : State) (n c : Nat) : State :=
  let v := s.rd (R.CQ_CFG_VECTOR n c)
  let s1 := s.setCq n c { s.cq n c with count := 0 }
  if s.on R.HQ_MODE_STANDALONE then { s1 with coreIrq := s1.coreIrq ++ [v % 4] } else s1.msixSend n v

/-- A doorbell write is ignored and counted (R520, R527, R545). -/
def State.dbIgn (s : State) (n : Nat) : State := (s.count (R.HQ_STAT_DB_IGN n) 1).hqEvent n

/-! ### Completion rings (R538 to R541) -/

/-- A completion ring has no free slot. -/
def State.cqFull (s : State) (n c : Nat) : Bool := (s.rd (R.CQ_STAT_TAIL n c) + 1) % s.cqSize n c == (s.cq n c).head

/-- A write to a ring: a Windchest in standalone mode, host memory else. -/
def State.ringWrite (s : State) (w : Who) (base ofs : Nat) (l : List Byte) : State × Status :=
  if s.on R.HQ_MODE_STANDALONE then s.gmWrites w (base + ofs) l
  else if 2 ^ 48 ≤ base + ofs then (s, .nackAbsent)
  else s.gmWrites w (base + ofs + 2 ^ 63 + s.chip * 2 ^ 48) l

/-- A read of a ring. -/
def State.ringRead (s : State) (w : Who) (base ofs n : Nat) : State × Status × List Byte :=
  if s.on R.HQ_MODE_STANDALONE then s.gmReads w (base + ofs) n
  else if 2 ^ 48 ≤ base + ofs then (s, .nackAbsent, [])
  else s.gmReads w (base + ofs + 2 ^ 63 + s.chip * 2 ^ 48) n

/-- An entry is written at the tail: SQ_HEAD and PHASE as they stand, the message if one is due (R538 to R540, R544). -/
def State.cqWrite (s : State) (n c : Nat) (e : List Byte) (irq : Bool) : State :=
  let q := pb e 16 1 % 8
  let x := s.cq n c
  let tail := s.rd (R.CQ_STAT_TAIL n c)
  let bytes := e.take 14 ++ leBytes 2 (s.rd (R.SQ_STAT_HEAD n q)) ++ (e.drop 16).take 15 ++ leBytes 1 x.phase
  if !s.on R.HQ_MODE_STANDALONE ∧ s.d3hot.contains n then (s.count (R.HQ_STAT_LOST_CPL n) 1).hqEvent n
  else
    let s1 := (s.ringWrite (s.sqWho n q) (s.cqBase n c) (32 * tail) bytes).1
    let wrap := tail + 1 == s.cqSize n c
    let s2 := (s1.wr (R.CQ_STAT_TAIL n c) (if wrap then 0 else tail + 1)).setCq n c
      { x with phase := if wrap then 1 - x.phase else x.phase, count := x.count + 1, first := if x.count = 0 then s.sysTime else x.first }
    if s.on (R.CQ_CFG_IRQ_EN n c) && (irq || decide (max 1 (s.rd (R.CQ_MOD_CNT n c)) ≤ x.count + 1)) then s2.cqMessage n c else s2

/-- An entry for a ring: it waits while the ring is full or others wait (R541). -/
def State.cqEntry (s : State) (n c : Nat) (e : List Byte) (irq : Bool) : State :=
  if s.cqFull n c ∨ (s.cq n c).held ≠ [] then
    (s.setCq n c { s.cq n c with held := (s.cq n c).held ++ [(e, irq)] }).wr (R.CQ_STAT_FULL_SEEN n c) 1
  else s.cqWrite n c e irq

/-- Entries that waited go out into freed slots. -/
def State.cqFlush (s : State) (n c : Nat) : List (List Byte × Bool) → State
  | [] => s.setCq n c { s.cq n c with held := [] }
  | (e, irq) :: t =>
    if s.cqFull n c then s.setCq n c { s.cq n c with held := (e, irq) :: t } else (s.cqWrite n c e irq).cqFlush n c t

/-- CQ_TIMER_EXPIRY (R544): TIME µs after the first unsignalled entry. -/
def State.cqTimer (s : State) (n c : Nat) : State :=
  let x := s.cq n c
  let t := s.rd (R.CQ_MOD_TIME n c)
  if s.on (R.CQ_CFG_IRQ_EN n c) ∧ t ≠ 0 ∧ 0 < x.count ∧ 1000 * t ≤ s.sysSince x.first then s.cqMessage n c else s

/-! ### Descriptors (R529 to R533) -/

/-- A descriptor as it is read. -/
structure Desc where
  type : Nat
  fence : Bool
  cmpl : Bool
  irq : Bool
  tag : Nat
  len : Nat
  lines : Nat := 1
  a : Nat
  b : Nat
  aStride : Int := 0
  bStride : Int := 0
  func : Nat := 1
  value : Nat
  mask : Nat := 2 ^ 64 - 1
  tmo : Nat := 0
  bad : Bool := false

/-- An address of a v1 descriptor: this chip's ID in place of CHIP (R533). -/
def State.v1Addr (s : State) (a : Nat) : Nat := bits a 0 48 + s.chip * 2 ^ 48 + bits a 63 1 * 2 ^ 63

/-- Rules on fields common to both formats (R532). -/
def descBad (t a b v : Nat) : Bool :=
  (t == 4 && a % 8 != 0) || (t == 5 && b % 8 != 0) ||
    (t == 6 && (b % 4 != 0 || decide (0x1000000 ≤ bits b 0 48) || bit b 63)) ||
    (t == 7 && (a % 4 != 0 || decide (0x1000000 ≤ bits a 0 48) || bit a 63)) || (t == 3 && msgMalformed v)

/-- A descriptor from its slot. -/
def State.descOf (s : State) (v2 : Bool) (l : List Byte) : Desc :=
  if v2 then
    let t := pb l 0 1
    let fl := pb l 1 1
    let fu := pb l 2 1
    let a := pb l 8 8
    let b := pb l 16 8
    let v := pb l 40 8
    { type := t % 16, fence := bit fl 0, cmpl := bit fl 1, irq := bit fl 2, tag := pb l 4 4, len := pb l 24 3 + 1, lines := pb l 28 2 + 1, a := a, b := b,
      aStride := pbS l 32 4, bStride := pbS l 36 4, func := fu % 4, value := v, mask := pb l 48 8, tmo := pb l 56 4,
      bad := decide (8 < t) || decide (7 < fl) || decide (2 < fu) || pb l 3 1 != 0 || pb l 27 1 != 0 || pb l 30 2 != 0 || pb l 60 4 != 0 || descBad t a b v }
  else
    let c := pb l 0 1
    let t := c % 16
    let a := s.v1Addr (pb l 8 8)
    let b := s.v1Addr (pb l 16 8)
    { type := t, fence := bit c 4, cmpl := bit c 5, irq := bit c 6, tag := pb l 2 2, len := pb l 4 3 + 1, a := a, b := b,
      value := if t = 2 then pb l 8 8 else pb l 24 8,
      bad := bit c 7 || decide (8 < t) || t == 3 || t == 6 || t == 7 || pb l 1 1 != 0 || pb l 7 1 != 0 || descBad t a b 0 }

/-- The descriptor of a ring's slot. -/
def State.ringDesc (s : State) (n q : Nat) (l : List Byte) : Desc := s.descOf (s.on (R.SQ_CFG_FMT n q)) l

/-! ### Starting and ending (R525, R535 to R538) -/

/-- A WAIT of the ring is outstanding. -/
def State.sqWaiting (s : State) (n q : Nat) : Bool :=
  (s.sq n q).flight.any fun d => d.ended.isNone && (s.ringDesc n q d.bytes).type == 4

/-- The next descriptor of a ring, if it may start now (R535, R536). -/
def State.descReady (s : State) (n q : Nat) : Option (Nat × List Byte × Desc) :=
  let x := s.sq n q
  match x.fetched with
  | [] => none
  | (slot, l) :: _ =>
    let d := s.ringDesc n q l
    let c := s.rd (R.SQ_CFG_CQ n q)
    let alone := d.fence || (!d.bad && (d.type == 3 || d.type == 5 || d.type == 6))
    if s.sqState n q = 1 ∧ x.flight.length < 8 ∧ !s.sqWaiting n q ∧ (!alone ∨ x.flight = []) ∧ !s.cqFull n c ∧ (s.cq n c).held = [] ∧
        !((d.type == 3 || d.type == 5) && !d.bad && x.hostWrote) then some (slot, l, d)
    else none

/-- The row by which a descriptor starts: its type; an unknown type starts as NOP does. -/
def descRow (d : Desc) : Nat := if 8 < d.type then 0 else d.type

/-- A descriptor starts: it leaves the fetched ones and is in flight. -/
def State.descStart (s : State) (n q slot : Nat) (l : List Byte) (ended : Option (Status × Nat)) : State :=
  let x := s.sq n q
  let fl := x.flight ++ [⟨slot, l, s.sysTime, s.sysTime, ended⟩]
  (s.setSq n q { x with fetched := x.fetched.tail, flight := fl }).wr (R.SQ_STAT_INFLIGHT n q) fl.length

/-- The descriptor of a slot has ended with a status and a RESULT. -/
def State.descEnd (s : State) (n q slot : Nat) (st : Status) (v : Nat) : State :=
  let x := s.sq n q
  s.setSq n q { x with flight := x.flight.map fun d => if d.slot = slot ∧ d.ended.isNone then { d with ended := some (st, v) } else d }

/-- A ring goes to STOPPED (R525). -/
def State.sqStopped (s : State) (n q : Nat) : State :=
  if s.sqState n q ≠ 1 then s
  else ((s.wr (R.SQ_STAT_STATE n q) 2).wr (R.HQ_EVT_RING_STOP n) (s.rd (R.HQ_EVT_RING_STOP n) ||| 2 ^ q)).hqEvent n

/-- The completion entry of a descriptor (R538). -/
def State.entryOf (s : State) (q slot : Nat) (d : Desc) (st : Status) (v : Nat) : List Byte :=
  leBytes 8 v ++ leBytes 4 d.tag ++ leBytes 2 slot ++ leBytes 2 0 ++ leBytes 1 q ++ leBytes 1 (statusNat st) ++ leBytes 6 s.sysTime ++ leBytes 8 0

/-- A descriptor completes with its entry (R538, R542). -/
def State.descFinish (s : State) (n q slot : Nat) (l : List Byte) (st : Status) (v : Nat) : State :=
  let d := s.ringDesc n q l
  let s1 := if st ≠ .ok then s.wr (R.SQ_STAT_LAST_ERR n q) (statusNat st) else s
  let s2 := if st ≠ .ok ∨ d.cmpl ∨ d.irq then s1.cqEntry n (s.rd (R.SQ_CFG_CQ n q)) (s.entryOf q slot d st v) d.irq else s1
  if st ≠ .ok ∧ s.on (R.SQ_CFG_STOP_ON_ERR n q) then s2.sqStopped n q else s2

/-- DRAINING ends when nothing is in flight. -/
def State.sqDrained (s : State) (n q : Nat) : State :=
  if s.sqState n q = 3 ∧ (s.sq n q).flight = [] then
    let s1 := s.wr (R.SQ_STAT_STATE n q) 0
    if s1.d3hot.contains n ∧ (List.range 8).all (fun k => s1.sqState n k == 0) then
      (List.range 8).foldl (fun (s : State) c => s.wr (R.CQ_CFG_ENABLE n c) 0) s1
    else s1
  else s

/-- DESCRIPTOR_COMPLETE: an ended descriptor leaves flight and completes. -/
def State.descComplete (s : State) (n q slot : Nat) : State :=
  let x := s.sq n q
  match x.flight.find? fun d => d.slot == slot && d.ended.isSome with
  | none => s
  | some d =>
    let fl := x.flight.filter fun e => e.slot != slot
    let s1 := (s.setSq n q { x with flight := fl }).wr (R.SQ_STAT_INFLIGHT n q) fl.length
    match d.ended with
    | some (st, v) => (s1.descFinish n q slot d.bytes st v).sqDrained n q
    | none => s

/-- An outstanding WAIT ends with DROPPED and writes its entry (R546). -/
def State.dropWaits (s : State) (n q : Nat) : State :=
  ((s.sq n q).flight.filter fun d => d.ended.isNone && (s.ringDesc n q d.bytes).type == 4).foldl
    (fun (s : State) d => (s.descEnd n q d.slot .dropped 0).descComplete n q d.slot) s

/-- The ring's descriptors that have not started end with DROPPED, with entries. -/
def State.dropFetched (s : State) (n q : Nat) : State :=
  let l := (s.sq n q).fetched
  l.foldl (fun (s : State) p => s.descFinish n q p.1 p.2 .dropped 0) (s.setSq n q { s.sq n q with fetched := [] })

/-- ENABLE written to a submission ring (R525). -/
def State.sqEnable (s : State) (n q : Nat) (one : Bool) : State :=
  let st := s.sqState n q
  if one then
    if st ≠ 0 then s
    else
      let c := s.rd (R.SQ_CFG_CQ n q)
      let base := s.sqBase n q
      let local_ := !bit base 63 && bits base 48 15 == s.chip && decide (0x10000000 ≤ bits base 0 48) && decide (bits base 0 48 < 0x14000000)
      let cls := s.rd (R.SQ_CFG_CLASS n q)
      if !s.on (R.CQ_CFG_ENABLE n c) || cls == 0 || decide (cls < s.hqCeil n) || (s.on R.HQ_MODE_STANDALONE && !local_) then s.wr (R.SQ_STAT_REJ n q) 1
      else
        (s.wrAll [(R.SQ_CTRL_ENABLE n q, 1), (R.SQ_STAT_STATE n q, 1), (R.SQ_STAT_HEAD n q, 0), (R.SQ_STAT_INFLIGHT n q, 0)]).setSq n q {}
  else if st = 1 ∨ st = 2 then
    let s1 := s.wrAll [(R.SQ_CTRL_ENABLE n q, 0), (R.SQ_STAT_STATE n q, 3)]
    ((s1.dropWaits n q).dropFetched n q).sqDrained n q
  else s.wr (R.SQ_CTRL_ENABLE n q) 0

/-- STOP written 1 (R525, R546). -/
def State.sqStop (s : State) (n q : Nat) : State := if s.sqState n q = 1 then (s.sqStopped n q).dropWaits n q else s

/-- RESUME written 1. -/
def State.sqResume (s : State) (n q : Nat) : State := if s.sqState n q = 2 then s.wr (R.SQ_STAT_STATE n q) 1 else s

/-- A write of SQ_CTRL: the change of ENABLE, then STOP, then RESUME. -/
def State.writeSqCtrl (s : State) (n q w : Nat) : State :=
  let s1 := if bit w 0 = s.on (R.SQ_CTRL_ENABLE n q) then s else s.sqEnable n q (bit w 0)
  let s2 := if bit w 1 then s1.sqStop n q else s1
  if bit w 2 then s2.sqResume n q else s2

/-- A write of CQ_CFG (R525, R539, R545, R553). -/
def State.writeCqCfg (s : State) (n c w : Nat) : State :=
  let was := s.on (R.CQ_CFG_ENABLE n c)
  let s0 := s.wr (R.CQ_CFG_IRQ_EN n c) (bits w 8 1)
  let s1 := if was then s0 else s0.wrAll [(R.CQ_CFG_SIZE n c, bits w 1 4), (R.CQ_CFG_VECTOR n c, bits w 5 3)]
  let base := s.cqBase n c
  let local_ := !bit base 63 && bits base 48 15 == s.chip && decide (0x10000000 ≤ bits base 0 48) && decide (bits base 0 48 < 0x14000000)
  if bit w 0 && !was then
    if s.on R.HQ_MODE_STANDALONE && !local_ then s1.wr (R.CQ_STAT_REJ n c) 1
    else (s1.wrAll [(R.CQ_CFG_ENABLE n c, 1), (R.CQ_STAT_TAIL n c, 0)]).setCq n c {}
  else if !bit w 0 && was then
    if (List.range 8).any fun q => s.rd (R.SQ_CFG_CQ n q) == c && s.sqState n q != 0 then s1.wr (R.CQ_STAT_REJ n c) 1
    else s1.wr (R.CQ_CFG_ENABLE n c) 0
  else s1

/-- DESCRIPTOR_FETCH (R526): up to k slots from the head to the tail; a slot that cannot be read ends with the status of
its read. -/
def State.descFetch (s : State) (n q : Nat) : Nat → State
  | 0 => s
  | k + 1 =>
    let h := s.rd (R.SQ_STAT_HEAD n q)
    let x := s.sq n q
    if s.sqState n q ≠ 1 ∨ h = x.tail then s
    else
      let v2 := s.on (R.SQ_CFG_FMT n q)
      let size := if v2 then 64 else 32
      let r := s.ringRead (s.sqWho n q) (s.sqBase n q) (size * h) size
      let s1 := r.1.wr (R.SQ_STAT_HEAD n q) ((h + 1) % s.sqSize n q)
      if r.2.1 = .ok then (s1.setSq n q { x with fetched := x.fetched ++ [(h, r.2.2)] }).descFetch n q k
      else
        let fl := x.flight ++ [⟨h, List.replicate size 0, s.sysTime, s.sysTime, some (r.2.1, 0)⟩]
        ((s1.setSq n q { x with flight := fl }).wr (R.SQ_STAT_INFLIGHT n q) fl.length).descFetch n q k

/-- A descriptor of one of the rows starts; an invalid one ends with NACK_ABSENT. -/
def State.descRun (s : State) (n q row : Nat) (body : State → Nat → Desc → State) : State :=
  match s.descReady n q with
  | some (slot, l, d) =>
    if descRow d ≠ row then s
    else if d.bad then s.descStart n q slot l (some (.nackAbsent, 0))
    else body (s.descStart n q slot l none) slot d
  | none =>
    let c := s.rd (R.SQ_CFG_CQ n q)
    if (s.sq n q).fetched ≠ [] ∧ s.sqState n q = 1 ∧ s.cqFull n c then s.wr (R.CQ_STAT_FULL_SEEN n c) 1 else s

/-- The ring has written host memory (R536). -/
def State.sqHostWrote (s : State) (n q ga : Nat) : State := if gaHost ga then s.setSq n q { s.sq n q with hostWrote := true } else s

/-- The comparison of a WAIT (R537). -/
def waitHolds (d : Desc) (v : Nat) : Bool :=
  match d.func with | 0 => v &&& d.mask == d.value | 1 => decide (d.value ≤ v &&& d.mask) | _ => v &&& d.mask != d.value

/-- A WAIT reads its word. -/
def State.waitRead (s : State) (n q slot : Nat) (d : Desc) : State :=
  let r := s.gmReads (s.sqWho n q) d.a 8
  let v := leNat r.2.2
  if r.2.1 = .retry then s
  else if r.2.1 ≠ .ok then r.1.descEnd n q slot r.2.1 0
  else if waitHolds d v then r.1.descEnd n q slot .ok v
  else
    let x := r.1.sq n q
    r.1.setSq n q { x with flight := x.flight.map fun e => if e.slot = slot then { e with polled := s.sysTime } else e }

/-- WAIT_POLL and DESCRIPTOR_WAIT_TIMEOUT act on the WAIT outstanding. -/
def State.onWait (s : State) (n q : Nat) (f : State → DescRun → Desc → State) : State :=
  match (s.sq n q).flight.find? fun d => d.ended.isNone && (s.ringDesc n q d.bytes).type == 4 with
  | some e => f s e (s.ringDesc n q e.bytes)
  | none => s

/-- WAIT_POLL (R537). -/
def State.waitPoll (s : State) (n q : Nat) : State :=
  s.onWait n q fun s e d => if 1000 ≤ s.sysSince e.polled then s.waitRead n q e.slot d else s

/-- The limit of a WAIT expires (R537). -/
def State.waitTimeout (s : State) (n q : Nat) : State :=
  s.onWait n q fun s e d =>
    let t := if d.tmo = 0 then s.rd (R.SQ_WAIT_TMO_WAIT_TMO n q) else d.tmo
    if t ≠ 0 ∧ 1000 * t ≤ s.sysSince e.started then s.descEnd n q e.slot .timeout 0 else s

/-- POST (R531, R536): the message goes out in the ring's CLASS. -/
def State.descPost (s : State) (n q slot : Nat) (d : Desc) : State :=
  (s.send (setBits d.value 48 2 (s.rd (R.SQ_CFG_CLASS n q)))).descEnd n q slot .ok 0

/-! ### Doorbells (R527, R528, R545) -/

/-- A tail doorbell. -/
def State.sqTail (s : State) (n q v : Nat) : State :=
  let st := s.sqState n q
  let x := s.sq n q
  let z := s.sqSize n q
  let h := s.rd (R.SQ_STAT_HEAD n q)
  if st = 0 ∨ st = 3 then s.dbIgn n
  else if v < z ∧ (x.tail + z - h) % z ≤ (v + z - h) % z then s.setSq n q { x with tail := v }
  else (s.wr (R.SQ_STAT_DB_ERR n q) 1).sqStopped n q

/-- A head doorbell. -/
def State.cqHead (s : State) (n c v : Nat) : State :=
  let x := s.cq n c
  let z := s.cqSize n c
  if v < z ∧ (v + z - x.head) % z ≤ (s.rd (R.CQ_STAT_TAIL n c) + z - x.head) % z then
    (s.setCq n c { x with head := v }).cqFlush n c x.held
  else ((s.wr (R.CQ_STAT_DB_ERR n c) 1).wr (R.HQ_EVT_CQ_DBERR n) (s.rd (R.HQ_EVT_CQ_DBERR n) ||| 2 ^ c)).hqEvent n

/-- A 4-byte aligned write to an offset of a doorbell page. -/
def State.dbPage (s : State) (n o v : Nat) : State :=
  let s1 := { s with dbVals := tset 0 s.dbVals (0x1000 * n + o) (v % 2 ^ 32) }
  if o < 0x20 then s1.sqTail n (o / 4) v
  else if 0x40 ≤ o ∧ o < 0x60 then s1.cqHead n ((o - 0x40) / 4) v
  else s1.dbIgn n

/-- A write to the doorbell image: by a function of the host, or locally (R520, R527, R545, R519). -/
def State.doorbell (s : State) (host : Option Nat) (o : Nat) (data : List Byte) : State :=
  let n := o / 0x1000
  match host with
  | some fn =>
    if fn = 0 ∧ n ≠ 0 then s.dbIgn 0
    else if s.on R.HQ_MODE_STANDALONE ∨ s.d3hot.contains n ∨ data.length ≠ 4 ∨ o % 4 ≠ 0 then s.dbIgn n
    else s.dbPage n (o % 0x1000) (leNat data)
  | none =>
    if !s.on R.HQ_MODE_STANDALONE ∨ data.length ≠ 4 ∨ o % 4 ≠ 0 then s.dbIgn n else s.dbPage n (o % 0x1000) (leNat data)

/-! ### Resets and power states (R518, R519, R547) -/

/-- Every ring of a client goes to DISABLED; nothing is written. -/
def State.ringsOff (s : State) (n : Nat) : State :=
  let s1 := { s with sqs := tdrop s.sqs (8 * n) 8, cqs := tdrop s.cqs (8 * n) 8 }
  (List.range 8).foldl (fun (s : State) q =>
    s.wrAll [(R.SQ_STAT_STATE n q, 0), (R.SQ_CTRL_ENABLE n q, 0), (R.SQ_STAT_INFLIGHT n q, 0), (R.CQ_CFG_ENABLE n q, 0)]) s1

/-- The client page and the doorbell page at their reset values (R547). -/
def State.clientReset (s : State) (n : Nat) : State :=
  let s1 := (s.ringsOff n).clearRegs (0x400000 + 0x1000 * n) 0x1000
  { s1 with dbVals := tdrop s1.dbVals (0x1000 * n) 0x1000, d3hot := s1.d3hot.filter (· != n), msixPend := s1.msixPend.filter fun p => p.1 != n }

/-- FLR of a function, or its removal. -/
def State.flr (s : State) (n : Nat) : State := if s.on R.HQ_MODE_STANDALONE then s else s.clientReset n

/-- PE_PERST_N, hot reset or link-down (R518). -/
def State.pcieReset (s : State) : State :=
  let s1 := { s with pcieUp := false, d3hot := [], msixPend := [], zlr := [] }
  if s.on R.HQ_MODE_STANDALONE then s1 else (List.range 32).foldl (fun (s : State) n => s.clientReset n) s1

/-- A function enters D3hot (R519): descriptors not started end with DROPPED, those in flight end, entries for host
memory are discarded, every ring ends DISABLED. -/
def State.d3Enter (s : State) (n : Nat) : State :=
  if s.d3hot.contains n then s
  else
    let s0 := { s with d3hot := n :: s.d3hot }
    if s.on R.HQ_MODE_STANDALONE then s0
    else
      (List.range 8).foldl (fun (s : State) q =>
        if s.sqState n q = 0 then s
        else
          let s1 := ((s.wrAll [(R.SQ_STAT_STATE n q, 3), (R.SQ_CTRL_ENABLE n q, 0)]).dropWaits n q).dropFetched n q
          s1.sqDrained n q) s0

/-- Return to D0 (R519). -/
def State.d0Return (s : State) (n : Nat) : State := { s with d3hot := s.d3hot.filter (· != n) }

/-- The zero-length read of a function completes (R131, R536). -/
def State.zeroReadDone (s : State) (fn : Nat) : State :=
  let go := s.zlr.filter fun p => p.1 == fn
  let s1 := { s with zlr := s.zlr.filter (fun p => p.1 != fn), msgs := s.msgs ++ go.map fun p => p.2 }
  (List.range 8).foldl (fun (s : State) q => if (s.sq fn q).hostWrote && (s.sq fn q).flight == [] then s.setSq fn q { s.sq fn q with hostWrote := false } else s) s1

/-- An access of a function through BAR0 that ended badly (R521). -/
def State.mmioErr (s : State) (n : Nat) (st : Status) : State :=
  if st = .ok then s
  else
    let s1 := if s.on (R.HQ_STAT_MMIO_ERR n) then s else s.wr (R.HQ_STAT_MMIO_STATUS n) (statusNat st)
    (s1.wr (R.HQ_STAT_MMIO_ERR n) 1).hqEvent n

end Sys2Proof.Machine
end

