-- ==== Sys2Proof/Machine/SelCore.lean ====
section
/-! DEFINITION. The Selector: candidates, their order, exact sums, result records, the SEL rows and the
port operations (spec/06_selector.md). -/

namespace Sys2Proof.Machine

/-! ### The parameter block (R194, R199) -/

structure SelBlk where
  src : Int
  dst : Int
  index : Nat
  count : Nat
  k : Nat
  fmt : Nat
  min : Bool
  chain : Bool
  recStride : Nat
  deriving DecidableEq, Repr

/-- The block of an iteration on a tile (R194, R195). -/
def selBlk (l : List Byte) (logical i : Nat) : SelBlk :=
  let mode := pb l 31 1
  let chain := bit mode 5
  { src := baseOf (pb l 0 4) (pbS l 8 4) i, dst := baseOf (pb l 4 4) (if chain then 0 else pbS l 12 4) i,
    index := (bits (pb l 16 4) 0 26 + logical * bits (pb l 24 4) 0 26 + i * bits (pb l 20 4) 0 26) % 2 ^ 26,
    count := bits (pb l 28 2) 0 10 + 1, k := bits (pb l 30 1) 0 6 + 1, fmt := bits mode 0 4, min := bit mode 4,
    chain := chain, recStride := pb l 32 4 }

/-- The key type is FP32 (R188). -/
def SelBlk.fp (b : SelBlk) : Bool := fmtIsFp b.fmt

/-- A block is valid for an operation (R199), apart from what each iteration touches. -/
def selValid (op : Nat) (l : List Byte) : Bool :=
  let b := selBlk l 0 0
  let esz := fmtBits b.fmt / 8
  !fmtReserved b.fmt && b.fmt != 2 && (op != 2 || b.fmt == 5 || b.fmt == 10) &&
    (if op = 2 then pb l 0 4 % 64 == 0 && pb l 8 4 % 64 == 0 && b.recStride % 64 == 0
     else pb l 0 4 % esz == 0 && pb l 8 4 % esz == 0) &&
    (let a := if op = 3 then 4 else 64; pb l 4 4 % a == 0 && pb l 12 4 % a == 0) &&
    bits (pb l 16 4) 26 6 == 0 && bits (pb l 20 4) 26 6 == 0 && bits (pb l 24 4) 26 6 == 0 &&
    (if op = 2 then bits (pb l 28 2) 6 10 == 0 else bits (pb l 28 2) 10 6 == 0) && bits (pb l 30 1) 6 2 == 0 &&
    bits (pb l 31 1) 6 2 == 0 && (l.drop 36).all (· == 0)

/-! ### Candidates (R188 to R191) -/

/-- The key of an element, 32 bits; none for NaN (R188, R189). -/
def keyOf (code x : Nat) : Option Nat :=
  if fmtIsFp code then (match fpElem code x with | .nan => none | v => some (to32 v))
  else some (ux 32 (intElem code x))

/-- Compare two keys. -/
def keyCmp (fp : Bool) (a b : Nat) : Int :=
  if fp then fpCmp (fp32.decode a) (fp32.decode b) else sx 32 a - sx 32 b

/-- Candidate a beats candidate b by tests 1 to 3 of R190. -/
def Cand.beats (fp min : Bool) (a b : Cand) : Bool :=
  let c := if min then keyCmp fp b.key a.key else keyCmp fp a.key b.key
  decide (0 < c) || (c == 0 && (decide (a.idx < b.idx) || (a.idx == b.idx && decide (a.phys < b.phys))))

/-- Put a candidate among the kept ones, behind those it does not beat (test 4 of R190). -/
def insertCand (fp min : Bool) (c : Cand) : List Cand → List Cand
  | [] => [c]
  | x :: t => if c.beats fp min x then c :: x :: t else x :: insertCand fp min c t

/-- The integer a key is, times the scale of R191; 0 for an infinity. -/
def keyInt (fp : Bool) (k : Nat) : Int :=
  if fp then (match fp32.decode k with | .fin n m e => sm n (m * 2 ^ (e + 149).toNat) | _ => 0) else sx 32 k

/-- Whether a key is +∞, −∞. -/
def keyInf (fp : Bool) (k : Nat) : Bool × Bool :=
  if fp then (match fp32.decode k with | .inf n => (!n, n) | _ => (false, false)) else (false, false)

/-- A candidate left out (R191). -/
def Selection.leave (s : Selection) (fp : Bool) (c : Cand) : Selection :=
  let i := keyInf fp c.key
  { s with left := s.left + keyInt fp c.key, leftP := s.leftP || i.1, leftN := s.leftN || i.2 }

/-- A candidate competes against those kept, at most k (R190, R196). -/
def Selection.compete (s : Selection) (fp min : Bool) (k : Nat) (c : Cand) : Selection :=
  let l := insertCand fp min c s.kept
  let s1 := { s with kept := l.take k }
  match l.drop k with
  | x :: _ => s1.leave fp x
  | [] => s1

/-- A value of a pass enters (R189, R195). -/
def Selection.enter (s : Selection) (b : SelBlk) (phys l x : Nat) : Selection :=
  match keyOf b.fmt x with
  | none => { s with nNan := s.nNan + 1 }
  | some key => ({ s with nCand := s.nCand + 1 }).compete b.fp b.min b.k ⟨key, (b.index + l) % 2 ^ 26, phys⟩

/-- A pass over the values read. -/
def Selection.pass (s : Selection) (b : SelBlk) (phys : Nat) (data : List Byte) (n : Nat) : Selection :=
  (List.range n).foldl (fun s l => s.enter b phys l (elemAt b.fmt data l)) s

/-- Sum of the kept keys, and their infinities. -/
def Selection.selSum (s : Selection) (fp : Bool) : Int × Bool × Bool :=
  s.kept.foldl (fun a c => let i := keyInf fp c.key; (a.1 + keyInt fp c.key, a.2.1 || i.1, a.2.2 || i.2)) (0, false, false)

/-- The rounded sum of an accumulator: value and the flags INVALID (bit 0), OVERFLOW (bit 1) (R192). -/
def roundSum (fp : Bool) (x : Int) (p n : Bool) : Nat × Nat :=
  if !fp then (ux 64 x, 0)
  else if p && n then (fp32.canon, 1)
  else if p || n then (fp32.sgn n + fp32.infCode, 0)
  else
    let r := round32 (decide (x < 0)) x.natAbs (-149)
    (to32 r.1, if r.2 = 0 then 0 else 2)

/-! ### Result records (R193) -/

/-- The record of a selection, with the flags its sums raise. -/
def Selection.record (s : Selection) (b : SelBlk) (phys : Nat) : List Byte × Nat :=
  let q := s.selSum b.fp
  let rs := roundSum b.fp q.1 q.2.1 q.2.2
  let rl := roundSum b.fp s.left s.leftP s.leftN
  let entry (j : Nat) : List Byte :=
    match s.kept[j]? with
    | some c => leBytes 8 (c.key + c.idx * 2 ^ 32 + c.phys * 2 ^ 58)
    | none => leBytes 8 0
  (leBytes 1 s.kept.length ++ leBytes 1 (b2n b.fp + 2 * b2n b.min) ++ leBytes 1 phys ++
    leBytes 1 (b2n q.2.1 + 2 * b2n q.2.2 + 4 * b2n s.leftP + 8 * b2n s.leftN) ++ leBytes 4 s.nCand ++ leBytes 4 s.nNan ++
    leBytes 4 0 ++ leBytes 8 rs.1 ++ leBytes 8 rl.1 ++ leBytes 40 (ux 320 q.1) ++ leBytes 40 (ux 320 s.left) ++ leBytes 16 0 ++
    ((List.range b.k).map entry).flatten, rs.2 ||| rl.2)

/-- An input record of a MERGE meets R199. -/
def recordOk (b : SelBlk) (l : List Byte) : Bool :=
  decide (pb l 0 1 ≤ 64) && pb l 1 1 == b2n b.fp + 2 * b2n b.min && pb l 3 1 < 16 && pb l 12 4 == 0 && pb l 112 16 == 0

/-- The entries of an input record (R197). -/
def recordCands (l : List Byte) : List Cand :=
  (List.range (pb l 0 1)).map fun j => let e := pb l (128 + 8 * j) 8; ⟨bits e 0 32, bits e 32 26, bits e 58 6⟩

/-- A record enters a merge (R197). -/
def Selection.mergeRecord (s : Selection) (b : SelBlk) (l : List Byte) : Selection :=
  let s1 := { s with
    nCand := (s.nCand + pb l 4 4) % 2 ^ 32, nNan := (s.nNan + pb l 8 4) % 2 ^ 32, left := s.left + sx 320 (pb l 72 40),
    leftP := s.leftP || bit (pb l 3 1) 2, leftN := s.leftN || bit (pb l 3 1) 3 }
  (recordCands l).foldl (fun s c => s.compete b.fp b.min b.k c) s1

/-! ### Rows (R196 to R202) -/

/-- Flags of the Selector (R189, R192) and one pass counted. -/
def State.selDone (s : State) (t fl : Nat) (nan : Bool) : State :=
  (((s.flag (bit fl 0) (R.SEL_FLAGS_INVALID t)).flag (bit fl 1) (R.SEL_FLAGS_OVERFLOW t)).flag nan (R.SEL_FLAGS_NAN_SEEN t)).count
    (R.SEL_PASSES_PASSES t) 1

/-- The record of a selection is written at its destination. -/
def State.selWrite (s : State) (t : Nat) (w : Who) (step row : Nat) (b : SelBlk) (x : Selection) : State × Status :=
  let r := x.record b t
  let q := s.engWriteRows t w step row [(b.dst.toNat, r.1)]
  (q.1.selDone t r.2 (x.nNan != 0), q.2)

/-- One pass over the candidates of a block: state, end, selection. -/
def State.selPass (s : State) (t : Nat) (w : Who) (b : SelBlk) (x : Selection) : State × Status × Selection :=
  let r := s.engRead t w b.src.toNat (b.count * (fmtBits b.fmt / 8))
  (r.1, r.2.1, x.pass b t r.2.2 b.count)

/-- The whole source of a pass lies in the store. -/
def SelBlk.srcOk (b : SelBlk) : Bool := inStore b.src (b.count * (fmtBits b.fmt / 8))

/-- TOPK, one iteration; `last` says that it is the row's last (R196, R199 to R202). -/
def State.topk (s : State) (t c : Nat) (w : Who) (l : List Byte) (it : Nat) (last : Bool) (step row : Nat) : State × Status :=
  let b := selBlk l (s.logical t) it
  if !selValid 1 l || !b.srcOk || !inStore b.dst (128 + 8 * b.k) then (s, .nackAbsent)
  else
    let kept := match (s.tile t).chain with
      | some (k, x) => if b.chain ∧ k = c ∧ it ≠ 0 then x else {}
      | none => {}
    let r := s.selPass t w b kept
    let s1 := if b.chain then
        (r.1.setTile t { r.1.tile t with chain := some (c, r.2.2) }).wrAll [(R.SEL_STAT_CHAIN_HELD t, 1), (R.SEL_STAT_HELD_CTX t, c)]
      else r.1
    if r.2.1 = .poison then (s1.poisonRows t [(b.dst.toNat, 128 + 8 * b.k)], .poison)
    else if r.2.1 ≠ .ok then (s1, r.2.1)
    else if b.chain && !last then (s1.selDone t 0 (r.2.2.nNan != 0), .ok)
    else
      let q := s1.selWrite t w step row b r.2.2
      (if b.chain then q.1.dropChain t c else q.1, q.2)

/-- Read the records of a MERGE: whether all are in order, and what they merge to. -/
def State.mergeReads (s : State) (t : Nat) (w : Who) (b : SelBlk) : List Nat → Selection → State × Status × Bool × Selection
  | [], x => (s, .ok, true, x)
  | r :: rest, x =>
    let o := b.src + ((r * b.recStride : Nat) : Int)
    if !inStore o 128 then (s, .ok, false, x)
    else
      let h := s.engRead t w o.toNat 128
      if h.2.1 ≠ .ok then
        let q := h.1.mergeReads t w b rest x
        (q.1, worse h.2.1 q.2.1, q.2.2)
      else if !recordOk b h.2.2 || !inStore o (128 + 8 * pb h.2.2 0 1) then (h.1, .ok, false, x)
      else
        let e := h.1.engRead t w (o.toNat + 128) (8 * pb h.2.2 0 1)
        let q := e.1.mergeReads t w b rest (x.mergeRecord b (h.2.2 ++ e.2.2))
        (q.1, worse e.2.1 q.2.1, q.2.2)

/-- MERGE, one iteration (R197, R199, R200). -/
def State.mergeRow (s : State) (t : Nat) (w : Who) (l : List Byte) (it step row : Nat) : State × Status :=
  let b := selBlk l (s.logical t) it
  let b := { b with dst := baseOf (pb l 4 4) (pbS l 12 4) it }
  if !selValid 2 l || !inStore b.dst (128 + 8 * b.k) then (s, .nackAbsent)
  else
    let r := s.mergeReads t w b (List.range b.count) {}
    if !r.2.2.1 then (r.1, .nackAbsent)
    else if r.2.1 = .poison then (r.1.poisonRows t [(b.dst.toNat, 128 + 8 * b.k)], .poison)
    else if r.2.1 ≠ .ok then (r.1, r.2.1)
    else r.1.selWrite t w step row b r.2.2.2

/-- The pass of ARGIDX and QMAX: one winner (R198). -/
def State.argPass (s : State) (t : Nat) (w : Who) (l : List Byte) (it : Nat) : State × Status × Selection :=
  let b := { selBlk l (s.logical t) it with k := 1 }
  s.selPass t w b {}

/-- ARGIDX, one iteration (R198 to R200). -/
def State.argidxRow (s : State) (t : Nat) (w : Who) (l : List Byte) (it step row : Nat) : State × Status :=
  let b := { selBlk l (s.logical t) it with dst := baseOf (pb l 4 4) (pbS l 12 4) it }
  if !selValid 3 l || !b.srcOk || !inStore b.dst 4 then (s, .nackAbsent)
  else
    let r := s.argPass t w l it
    if r.2.1 = .poison then (r.1.poisonRows t [(b.dst.toNat, 4)], .poison)
    else if r.2.1 ≠ .ok then (r.1, r.2.1)
    else
      let v := match r.2.2.kept with | x :: _ => x.idx | [] => 0xFFFFFFFF
      let q := r.1.engWriteRows t w step row [(b.dst.toNat, leBytes 4 v)]
      (q.1.selDone t 0 (r.2.2.nNan != 0), q.2)

/-- A SEL iteration of an operation: block, then the operation (R194, R200). -/
def State.selRow (s : State) (op t c : Nat) : State :=
  let x := s.ctx t c
  let w := s.rowWho t c (rowClass x.row)
  let it := s.rd (R.CTX_PC_ITER (win t) c)
  let row := s.rd (R.CTX_PC_PC (win t) c)
  let p := s.paramBlock t c w
  if p.2.1 ≠ .ok then p.1.report_ t c p.2.1 0
  else
    let r :=
      if op = 1 then p.1.topk t c w p.2.2 it (it == rowRepeat x.row) x.step row
      else if op = 2 then p.1.mergeRow t w p.2.2 it x.step row
      else p.1.argidxRow t w p.2.2 it x.step row
    r.1.report_ t c r.2 0

/-! ### Port operations (R203, R204) -/

/-- The tile whose store a block address names. -/
def tileOfAddr (a : Nat) : Option Nat :=
  match placeOf a with
  | .memory code _ => if code < 0x40 then some code else none
  | _ => none

/-- SEL.QMAX on the block at a local address: status and result (R203, R205). -/
def State.qmax (s : State) (w : Who) (a : Nat) : State × Status × Nat :=
  match tileOfAddr a with
  | none => (s, .nackAbsent, 0)
  | some t =>
    let g := s.gate t (s.stamp a)
    if g.2 ≠ .ok then (g.1, .nackAbsent, 0)
    else
      let ofs := (a - storeBase t) / 64 * 64
      let p := g.1.engRead t w ofs 64
      if p.2.1 ≠ .ok then (p.1, p.2.1, 0)
      else
        let b := selBlk p.2.2 (s.logical t) 0
        if !selValid 3 p.2.2 || !b.srcOk then (p.1, .nackAbsent, 0)
        else
          let r := p.1.argPass t w p.2.2 0
          if r.2.1 ≠ .ok then (r.1, r.2.1, 0)
          else
            let v := match r.2.2.kept with
              | x :: _ => x.idx + x.phys * 2 ^ 26 + x.key * 2 ^ 32
              | [] => 2 ^ 64 - 1
            (r.1.selDone t 0 (r.2.2.nNan != 0), .ok, v)

/-- SEL.QTOPK: status and K_OUT (R203). -/
def State.qtopk (s : State) (w : Who) (a : Nat) : State × Status × Nat :=
  match tileOfAddr a with
  | none => (s, .nackAbsent, 0)
  | some t =>
    let g := s.gate t (s.stamp a)
    if g.2 ≠ .ok then (g.1, .nackAbsent, 0)
    else
      let ofs := (a - storeBase t) / 64 * 64
      let p := g.1.engRead t w ofs 64
      if p.2.1 ≠ .ok then (p.1, p.2.1, 0)
      else
        let b := { selBlk p.2.2 (s.logical t) 0 with chain := false }
        if !selValid 1 p.2.2 || !b.srcOk || !inStore b.dst (128 + 8 * b.k) then (p.1, .nackAbsent, 0)
        else
          let r := p.1.selPass t w b {}
          if r.2.1 = .poison then (r.1.poisonRows t [(b.dst.toNat, 128 + 8 * b.k)], .poison, 0)
          else if r.2.1 ≠ .ok then (r.1, r.2.1, 0)
          else
            let x := r.2.2.record b t
            let q := r.1.engWriteRows t w 0 0 [(b.dst.toNat, x.1)]
            ({ q.1 with sigs := r.1.sigs }.selDone t x.2 (r.2.2.nNan != 0), q.2, r.2.2.kept.length)

end Sys2Proof.Machine
end

