-- ==== Sys2Proof/Machine/EngineRules.lean ====
section
/-! DEFINITION. What each engine adds to the rules of a row: the fields it accepts, which else give FIELD_INVALID, and
when it can take the row (spec/04_address_space_memory.md R120, R121; spec/05_tensor_tiles.md R156, R166; spec/06_selector.md
R194, R202; spec/07_reed_observers.md R218; spec/08_chanter_law.md R252, R253; spec/09_chanter_loops.md R279;
spec/14_raster.md R450, R476). -/

namespace Sys2Proof.Machine

/-- PAYLOAD of a row whose block lies in the tile's own store (R156, R194). -/
def tilePayloadBad (p : Nat) : Bool := bits p 0 6 != 0 || bits p 21 43 != 0

/-- PAYLOAD of a CHANTER row: valid entries from byte 0 without a gap, then zeros (R253). -/
def slotPayloadBad (p : Nat) : Bool :=
  !bit p 7 || (List.range 8).any fun b => !bit p (8 * b + 7) && bits p (8 * (b + 1)) 8 != 0 || (!bit p (8 * b + 7) && bits p (8 * b) 8 != 0)

/-- A row's engine rejects its fields: the row is FIELD_INVALID. -/
def State.engineBad (_ : State) (u r : Nat) : Bool :=
  let op := rowOp r
  let p := rowPayload r
  match rowEngine r with
  | 1 => op != 1 || tilePayloadBad p
  | 2 => !(1 ≤ op && op ≤ 0x17) || tilePayloadBad p
  | 3 => !(1 ≤ op && op ≤ 3) || tilePayloadBad p
  | 4 => !(op == 1 || op == 2) || bits p 48 16 != 0
  | 5 => !(1 ≤ op && op ≤ 4) || bits p 6 58 != 0 || 48 ≤ bits p 0 6 || bits p 0 6 / 12 != u - 0x40 || (op == 1 && 1 < rowClass r)
  | 6 => op != 1 || 1 < rowClass r || rowCost r != 0 || slotPayloadBad p
  | 7 => !(op == 1 || op == 2) || rowClass r < 2 || bits p 48 16 != 0 || bits p 0 6 != 0
  | 8 => !(op == 1 || op == 2) || bits p 48 16 != 0
  | _ => false

/-- Under REPRO a class B row waits for the perception contexts of its sequencer (R476). -/
def State.backgroundWaits (s : State) (u c r : Nat) : Bool :=
  s.on R.GLOBAL_MODE_REPRO && rowClass r == 3 && (u < 0x40 || u == 0x48) &&
    (List.range 16).any fun k => k != c && decide (s.rd (R.CTX_CTRL_CEILING (win u) k) ≤ 2) && s.ctxState u k != 0 && s.ctxState u k != 3

/-- The engine takes the row now: a Selector that a CHAIN row holds takes no other SEL row, a Chanter lane takes rows while
it is enabled (R202, R279, R476). -/
def State.engineAccepts (s : State) (u c r : Nat) : Bool :=
  !s.backgroundWaits u c r &&
    (match rowEngine r with
     | 3 => (match (s.tile u).chain with
       | some (k, _) => k == c
       | none => true)
     | 6 => s.on (if u = 0x44 then R.CHN_CTRL_LANE0_EN else R.CHN_CTRL_LANE1_EN)
     | _ => true)

end Sys2Proof.Machine
end

