-- ==== Sys2Proof/Machine/SeqFire.lean ====
section
/-! DEFINITION. How rows fire and complete: eligibility, the firing cycle, returns, posts, successors,
halts (spec/03_tables_tokens_threads.md R86 to R99), and grants between them
(spec/15_bellows_clocks.md R487, R490, R491). -/

namespace Sys2Proof.Machine

/-! ### Eligibility (R86) -/

/-- A wait term is satisfied. -/
def State.waitMet (s : State) (u c : Nat) (t : Nat × Nat × Nat) : Bool :=
  decide (t.2.2 ≤ s.rd (R.TOKCNT_COUNT (win u) c t.2.1))

/-- Tokens of R86: all enabled terms in ALL mode, one in ANY mode. -/
def State.tokensMet (s : State) (u c r : Nat) : Bool :=
  if rowAny r then (rowWaits r).any (s.waitMet u c) else (rowWaits r).all (s.waitMet u c)

/-- Credits of R86; two terms on one pool are taken together. -/
def State.creditsMet (s : State) (u r : Nat) : Bool :=
  (rowCreds r).all fun t =>
    decide (((rowCreds r).filter (fun x => x.1 == t.1)).foldl (fun a x => a + x.2) 0 ≤ s.rd (R.POOL_CNT_COUNT (win u) t.1))

/-- Trigger of R86. -/
def State.triggerMet (s : State) (u c r iter : Nat) : Bool :=
  !rowTrigEn r || iter != 0 || decide (1 ≤ s.rd (R.TOKCNT_COUNT (win u) c (rowTrigCounter r)))

/-- The row's engine can accept the row (R78, R86): no other context runs an iteration on it. SYNC
occupies no engine; CHANTER rows only mark slots, and SEAL, SWAP and FREE do not use the Reed array. -/
def State.engineFree (s : State) (u c r : Nat) : Bool :=
  rowEngine r == 0xF || rowEngine r == 6 || (rowEngine r == 5 && rowOp r != 1) ||
    (List.range 16).all fun k =>
      k == c || !(s.ctx u k).exec || rowEngine (s.ctx u k).row != rowEngine r ||
        (rowEngine r == 5 && rowOp (s.ctx u k).row != 1)

/-- The sequencer of a unit fires rows: enabled, its unit ACTIVE and powered, no relock under way, no
CHAIN of another context held where the row needs the Selector (R108, R502, R505, R720). -/
def State.seqRuns (s : State) (u : Nat) : Bool :=
  isSeq u && s.on (R.SEQ_CTRL_ENABLE (win u)) && s.seqPresent u && (s.seqUnit u).state == 0 && !s.sysrst &&
    !(decide (u < 0x40) && s.tilesPaused) && (u != 0x48 || s.on R.BEL_PWR_MISC_RAS_ON)

/-- The row a context would run: the latched one between iterations, else the committed one at CTX_PC. -/
def State.ctxRow (s : State) (u c : Nat) : Nat :=
  if s.ctxState u c = 2 then (s.ctx u c).row else s.rowAt u (s.rd (R.CTX_PC_PC (win u) c))

/-- The row at a context is eligible (R86). -/
def State.eligible (s : State) (u c : Nat) : Bool :=
  let r := s.ctxRow u c
  let it := s.rd (R.CTX_PC_ITER (win u) c)
  (s.ctxState u c == 1 || (s.ctxState u c == 2 && !(s.ctx u c).exec)) && s.seqRuns u && s.tokensMet u c r && s.creditsMet u r &&
    s.triggerMet u c r it && s.engineFree u c r && s.engineAccepts u c r

/-! ### Firing (R88, R92) -/

/-- The term chosen in the firing cycle: the lowest-numbered one satisfied (R92). -/
def State.chosen (s : State) (u c r : Nat) : Nat :=
  if rowAny r then (match (rowWaits r).find? (s.waitMet u c) with | some t => t.1 | none => 0) else 0

/-- What the firing consumes: counter and count; the trigger last. -/
def State.consumes (s : State) (u c r iter : Nat) : List (Nat × Nat) :=
  let k := s.chosen u c r
  ((rowWaits r).filter (fun t => !rowAny r || t.1 == k)).map (fun t => t.2) ++
    (if rowTrigEn r && iter == 0 then
      [(rowTrigCounter r, if rowTrigLatest r then s.rd (R.TOKCNT_COUNT (win u) c (rowTrigCounter r)) else 1)] else [])

/-- Deduct tokens. -/
def State.deductTokens (s : State) (u c : Nat) : List (Nat × Nat) → State
  | [] => s
  | (k, n) :: t => (s.wr (R.TOKCNT_COUNT (win u) c k) (s.rd (R.TOKCNT_COUNT (win u) c k) - n)).deductTokens u c t

/-- Deduct credits. -/
def State.deductCredits (s : State) (u : Nat) : List (Nat × Nat) → State
  | [] => s
  | (p, n) :: t => (s.wr (R.POOL_CNT_COUNT (win u) p) (s.rd (R.POOL_CNT_COUNT (win u) p) - n)).deductCredits u t

/-- A row fires (R88): in one cycle the tokens and credits go, the row is latched, the context is BUSY
with an iteration in execution. -/
def State.fire (s : State) (u c : Nat) : State :=
  let r := s.ctxRow u c
  let it := s.rd (R.CTX_PC_ITER (win u) c)
  let used := s.consumes u c r it
  let skipped := if rowTrigEn r && rowTrigLatest r && it == 0 then s.rd (R.TOKCNT_COUNT (win u) c (rowTrigCounter r)) - 1 else 0
  let s1 := (s.deductTokens u c used).deductCredits u (rowCreds r)
  let s2 := (((s1.count (R.SEQ_DROPS_TRIG_SKIPPED (win u)) skipped).count (R.SEQ_FIRED_FIRED (win u)) 1)).wr
    (R.CTX_STAT_STATE (win u) c) 2
  s2.setCtx u c
    { s2.ctx u c with
      row := r, exec := true, result := none, consumed := used, succ := rowSucc r (s.chosen u c r), passing := false,
      asked := false, granted := false, hostFn := 0, param := if it = 0 then [] else (s.ctx u c).param,
      step := if it = 0 then s.step else (s.ctx u c).step, seed := if it = 0 then s.runSeed else (s.ctx u c).seed }

/-! ### Completion (R90, R91, R93) -/

/-- Return credits for what an iteration consumed (R97). -/
def State.returnAll (s : State) (u c cls : Nat) : List (Nat × Nat) → State
  | [] => s
  | (k, n) :: t => (s.returnCredits u c k n cls).returnAll u c cls t

/-- Send a message that orders posted host writes only after a zero-length read (R131). -/
def State.sendOrdered (s : State) (hostFn m src : Nat) : State :=
  if hostFn = 0 then s.sendFrom m src else { s with zlr := s.zlr ++ [(hostFn - 1, m, src)] }

/-- One post term (R96): the descriptor is read again; whether it had become invalid. -/
def State.sendPost (s : State) (u c r i hostFn : Nat) : State × Bool :=
  let p := rowPost r i
  if !p.1 then (s, false)
  else if s.tokenDesc u p.2.1 then (s.sendOrdered hostFn (s.descToken u p.2.1 p.2.2 (rowClass r)) (16 * u + c + 1), false)
  else (s, true)

/-- The posts of a completed iteration (R90 step 3). -/
def State.sendPosts (s : State) (u c r outcome hostFn : Nat) : State × Bool :=
  if rowPostSel r then s.sendPost u c r (if outcome = 0 then 0 else 1) hostFn
  else
    let a := s.sendPost u c r 0 hostFn
    let b := a.1.sendPost u c r 1 hostFn
    (b.1, a.2 || b.2)

/-- After an iteration: the next iteration, the successor, or a halt (R77, R93). -/
def State.advance (s : State) (u c : Nat) : State :=
  let x := s.ctx u c
  let r := x.row
  let it := s.rd (R.CTX_PC_ITER (win u) c)
  let s1 := s.setCtx u c { x with exec := false, result := none, consumed := [] }
  if it < rowRepeat r then
    let s2 := s1.wr (R.CTX_PC_ITER (win u) c) (it + 1)
    if x.pendHalt then s2.ctxHalt u c 2 else if x.pendStep then s2.ctxHalt u c 4 else s2.ctxArrive u c
  else
    let s2 := s1.wrAll [(R.CTX_PC_ITER (win u) c, 0), (R.CTX_PC_PC (win u) c, x.succ)]
    if rowEnd r then s2.ctxHalt u c 1
    else if x.pendHalt then s2.ctxHalt u c 2
    else if x.pendStep then s2.ctxHalt u c 4
    else (s2.wr (R.CTX_STAT_STATE (win u) c) 1).ctxArrive u c

/-- The code of a status in 4 bits (R523). -/
def statusCode : Status → Nat
  | .ok => 0 | .retry => 1 | .nackAbsent => 2 | .poison => 3 | .timeout => 4 | .firewall => 5
  | .epochStale => 6 | .extrapolated => 7 | .dropped => 8

/-- The iteration in execution completes with a status and an outcome (R90, R91). -/
def State.complete (s : State) (u c : Nat) (st : Status) (outcome : Nat) : State :=
  let x := s.ctx u c
  let r := x.row
  let pc := s.rd (R.CTX_PC_PC (win u) c)
  let it := s.rd (R.CTX_PC_ITER (win u) c)
  let s1 := s.returnAll u c (rowClass r) x.consumed
  if st ≠ .ok then s1.ctxError u c 7 pc it (statusCode st)
  else
    let p := s1.sendPosts u c r outcome x.hostFn
    if p.2 then p.1.ctxError u c 5 pc it 0 else p.1.advance u c

/-- A row that holds its grant, or needs none, fires, halts on its BRK, or waits on (R77, R78, R87,
R825). A SYNC iteration completes in its firing cycle. -/
def State.fireOrBreak (s : State) (u c : Nat) : State :=
  let r := s.ctxRow u c
  if s.ctxState u c = 1 ∧ s.rd (R.CTX_PC_ITER (win u) c) = 0 ∧ rowBrk r ∧ ¬ (s.ctx u c).passing then s.ctxHalt u c 3
  else
    let s1 := s.fire u c
    if rowEngine r = 0xF then s1.complete u c .ok 0 else s1

/-- A row asks for its quanta in the cycle it becomes eligible (R87, R487, R490): granted at once for
COST 0, CHANTER rows, REED EVAL rows and class S; else the request stands. -/
def State.askGrant (s : State) (u c : Nat) : State :=
  let r := s.ctxRow u c
  let free := rowCost r == 0 || rowEngine r == 6 || (rowEngine r == 5 && rowOp r == 1)
  if free || (s.ctx u c).granted then s.fireOrBreak u c
  else if rowClass r = 0 then (s.charge 0 (rowCost r)).fireOrBreak u c
  else s.setCtx u c { s.ctx u c with asked := true }

/-- A context's row is evaluated, and asks when it is eligible (R87, R102). -/
def State.rowEligible (s : State) (u c : Nat) : State :=
  let pc := s.rd (R.CTX_PC_PC (win u) c)
  let it := s.rd (R.CTX_PC_ITER (win u) c)
  let code := if s.ctxState u c = 1 ∧ s.seqRuns u then s.rowCode u c pc (fun r => s.engineBad u r) else 0
  if code ≠ 0 then s.ctxError u c code pc it 0
  else if s.eligible u c then s.askGrant u c
  else s

/-- The contexts with a request outstanding, as 16 × unit + context. -/
def State.asking (s : State) : List Nat := (s.ctxs.filter fun p => p.2.asked).map fun p => p.1

/-- The order of R491 and R79 between two requests: class, unit, longest wait, context. -/
def State.before (s : State) (a b : Nat) : Bool :=
  let ka := rowClass (s.ctxRow (a / 16) (a % 16))
  let kb := rowClass (s.ctxRow (b / 16) (b % 16))
  let wa := (s.ctx (a / 16) (a % 16)).arrived
  let wb := (s.ctx (b / 16) (b % 16)).arrived
  ka < kb || (ka == kb && (a / 16 < b / 16 || (a / 16 == b / 16 && (wa < wb || (wa == wb && a < b)))))

/-- Put a request in its place. -/
def State.place (s : State) (a : Nat) : List Nat → List Nat
  | [] => [a]
  | b :: t => if s.before a b then a :: b :: t else b :: s.place a t

/-- The requests in the order in which they are decided (R491). -/
def State.ordered (s : State) : List Nat := s.asking.foldl (fun l a => s.place a l) []

/-- One request is decided (R490): charged when granted; the row fires, or fires later without a second
request when it is no longer eligible (R87). -/
def State.decide1 (s : State) (a : Nat) : State :=
  let u := a / 16
  let c := a % 16
  let r := s.ctxRow u c
  if s.grants (rowClass r) (rowCost r) then
    let s1 := s.charge (rowClass r) (rowCost r)
    let s2 := s1.setCtx u c { s1.ctx u c with asked := false, granted := true }
    if s2.eligible u c then s2.fireOrBreak u c else s2
  else s

/-- One fabric cycle of the Bellows (R491). -/
def State.grantCycle (s : State) : State := s.ordered.foldl (fun s a => s.decide1 a) s

end Sys2Proof.Machine
end

