-- ==== Sys2Proof/Machine/FieldCore.lean ====
section
/-! DEFINITION. Field rings, system time and gate control lists, CAN FD controllers, CSI-2 receivers and the serial
interfaces (spec/18_field_interfaces.md, R787 to R790 of spec/23_register_map.md). -/

namespace Sys2Proof.Machine

/-! ### Field rings (R602 to R605) -/

/-- A field of the ring whose registers start at b. -/
def frF (b off lo w : Nat) : Fld := ⟨(b + off) * 8 + lo, w, 0⟩

def frBaseLo (b : Nat) : Fld := frF b 0x00 6 26
def frBaseHi (b : Nat) : Fld := frF b 0x04 0 32
def frSizeF (b : Nat) : Fld := frF b 0x08 0 4
def frEnable (b : Nat) : Fld := frF b 0x08 4 1
def frClass (b : Nat) : Fld := frF b 0x08 5 2
def frTokEn (b : Nat) : Fld := frF b 0x08 7 1
def frUnit (b : Nat) : Fld := frF b 0x08 8 8
def frContext (b : Nat) : Fld := frF b 0x08 16 4
def frCounter (b : Nat) : Fld := frF b 0x08 20 4
def frTail (b : Nat) : Fld := frF b 0x0C 0 12
def frHead (b : Nat) : Fld := frF b 0x10 0 12
def frTailErr (b : Nat) : Fld := frF b 0x14 0 1
def frRej (b : Nat) : Fld := frF b 0x14 1 1
def frNobuf (b : Nat) : Fld := frF b 0x14 16 16

/-- Where the registers of a ring start. -/
def ethTxRing (p t : Nat) : Nat := 0x310400 + 0x1000 * p + 0x20 * t
def ethRxRing (p t : Nat) : Nat := 0x310500 + 0x1000 * p + 0x20 * t
def canRing (c : Nat) : Nat := 0x320020 + 0x1000 * c
def ringBase : Sys2Proof.RingId → Nat
  | .ethTx p t => ethTxRing p t
  | .ethRx p t => ethRxRing p t
  | .can c => canRing c

/-- A ring of a CAN controller. -/
def frIsCan (b : Nat) : Bool := 0x320000 ≤ b

/-- Its port or controller. -/
def frIndex (b : Nat) : Nat := if frIsCan b then (b - 0x320000) / 0x1000 else (b - 0x310000) / 0x1000

/-- Bytes of an entry (R602). -/
def frEntry (b : Nat) : Nat := if frIsCan b then 96 else 32

/-- Entries of the ring (R602). -/
def State.frSize (s : State) (b : Nat) : Nat := 2 ^ (s.rd (frSizeF b) + 4)

/-- The ring belongs to the safety island (R613, R614). -/
def State.frSafety (s : State) (b : Nat) : Bool :=
  let p := frIndex b
  if frIsCan b then s.on (R.CAN_CTRL_SAFETY p)
  else s.on (R.ETH_CTRL_SAFETY p) &&
    (b == ethTxRing p 7 || (List.range 2).any fun i => b == ethRxRing p (s.rd (R.EF_CTL_RING p (14 + i)) % 8))

/-- Who the ring's requests are from (R603, R688, R690). -/
def State.frWho (s : State) (b : Nat) : Who :=
  if s.frSafety b then { ini := 0x27, cls := 0, remote := false }
  else
    { ini := Fin.ofNat 64 ((if frIsCan b then 0x2C else 0x28) + frIndex b), cls := Fin.ofNat 4 (s.rd (frClass b)), remote := false }

/-- Address of the ring. -/
def State.frBase (s : State) (b : Nat) : Nat := s.rd (frBaseLo b) * 64 + s.rd (frBaseHi b) * 2 ^ 32

/-- A global address on this chip lies in the safety-island SRAM. -/
def State.inIslandSram (s : State) (ga : Nat) : Bool :=
  s.gaHere ga && !gaHost ga && decide (0x6000000 ≤ gaLocal ga) && decide (gaLocal ga < 0x6100000)

/-- Finished entries that wait for their write-back. -/
def State.frDoneOf (s : State) (b : Nat) : List (List Byte) := tget [] s.frDone b

def State.setFrDone (s : State) (b : Nat) (l : List (List Byte)) : State := { s with frDone := tset [] s.frDone b l }

/-- FR_BASE is writable only while the ring is disabled. -/
def State.writeFrBase (s : State) (b off w : Nat) : State :=
  if s.on (frEnable b) then s else if off = 0 then s.wr (frBaseLo b) (w / 64) else s.wr (frBaseHi b) w

/-- A write of FR_CFG: ENABLE is refused for CLASS 0, a size out of range, or a safety ring whose base lies outside the
island SRAM; head and tail are 0 at enable (R602, R613). -/
def State.writeFrCfg (s : State) (b w : Nat) : State :=
  let was := s.on (frEnable b)
  let s1 := s.wrAll [(frSizeF b, bits w 0 4), (frClass b, bits w 5 2), (frTokEn b, bits w 7 1), (frUnit b, bits w 8 8),
    (frContext b, bits w 16 4), (frCounter b, bits w 20 4), (frEnable b, bits w 4 1)]
  if bit w 4 && !was then
    if bits w 5 2 = 0 ∨ 8 < bits w 0 4 ∨ (s1.frSafety b ∧ ¬ s1.inIslandSram (s1.frBase b)) then
      s1.wrAll [(frEnable b, 0), (frRej b, 1)]
    else (s1.wrAll [(frHead b, 0), (frTail b, 0)]).setFrDone b []
  else if !bit w 4 && was then s1.setFrDone b []
  else s1

/-- A write of FR_TAIL gives entries to the part; one past the head or outside the ring is ignored (R602). -/
def State.writeFrTail (s : State) (b w : Nat) : State :=
  let n := s.frSize b
  let h := s.rd (frHead b)
  let old := (s.rd (frTail b) + n - h % n) % n
  if n ≤ w ∨ (w + n - h % n) % n < old then s.wr (frTailErr b) 1 else s.wr (frTail b) w

/-- The next entry that the part may use. -/
def State.frNext (s : State) (b : Nat) : Option Nat :=
  let n := s.frSize b
  let i := (s.rd (frHead b) + (s.frDoneOf b).length) % n
  if s.on (frEnable b) ∧ i ≠ s.rd (frTail b) % n then some i else none

/-- Global address of entry i. -/
def State.frEntryAt (s : State) (b i : Nat) : Nat := gaAdd (s.frBase b) ((frEntry b * i : Nat) : Int)

/-- Read the entry. -/
def State.frRead (s : State) (b i : Nat) : State × Status × List Byte := s.gmReads (s.frWho b) (s.frEntryAt b i) (frEntry b)

/-- An entry is finished. -/
def State.frFinish (s : State) (b : Nat) (l : List Byte) : State := s.setFrDone b (s.frDoneOf b ++ [l])

/-- The oldest finished entry is written back whole, the head advances, and the token is posted (R604, R613, R614). -/
def State.frEntryDone (s : State) (b : Nat) : State :=
  match s.frDoneOf b with
  | [] => s
  | e :: t =>
    let h := s.rd (frHead b)
    let s1 := (s.gmWrites (s.frWho b) (s.frEntryAt b h) e).1
    let s2 := (s1.setFrDone b t).wr (frHead b) ((h + 1) % s.frSize b)
    let ctl := (e.getD (if frIsCan b then 6 else 10) 0).toNat
    let rx := frIsCan b || (0x100 ≤ (b - 0x310000) % 0x1000 - 0x400)
    let k := (e.getD 20 0).toNat
    let toSafety := s.frSafety b || (!frIsCan b && decide (k < 16) && s.on (R.EF_CTL_TO_SAFETY (frIndex b) k))
    if toSafety && rx then s2.token 0x68 (s.rd (frContext b)) (s.rd (frCounter b))
    else if bit ctl 1 || s.on (frTokEn b) then s2.token (s.rd (frUnit b)) (s.rd (frContext b)) (s.rd (frCounter b))
    else s2

/-! ### System time (R609, R627) -/

/-- INC: the increment of system time per control cycle. -/
def State.timeInc (s : State) : Nat := (10737418240 + clampI (-10737418) 10737418 (s.rdS R.ST_RATE_RATE_ADJ)).toNat

/-- a − b of 48-bit times. -/
def tsub (a b : Nat) : Nat := (a + 2 ^ 48 - b % 2 ^ 48) % 2 ^ 48

/-- System time a is at or after b. -/
def tAfter (a b : Nat) : Bool := decide (tsub a b < 2 ^ 47)

def State.qbvOf (s : State) (p : Nat) : QbvSt := s.qbv.getD p {}
def State.setQbv (s : State) (p : Nat) (v : QbvSt) : State := { s with qbv := s.qbv.set p v }

/-- The next boundary of a cycle at or after a time, from its base. -/
def nextBoundary (base cycle now : Nat) : Nat :=
  if cycle = 0 then now
  else if tAfter base now then base
  else (base + (tsub now base + cycle - 1) / cycle * cycle) % 2 ^ 48

/-- The gates of entry i apply until its interval or the cycle ends; the last entry lasts to the end of the cycle. -/
def QbvSt.enter (q : QbvSt) (i start : Nat) : QbvSt :=
  let iv := (q.entries.getD i (0, 0, 0)).1
  let e := (start + iv) % 2 ^ 48
  { q with idx := i, entryEnd := if q.entries.length ≤ i + 1 ∨ tAfter e q.cycleEnd then q.cycleEnd else e }

/-- Gates change in this control cycle. -/
def State.gateChange (s : State) (p : Nat) (q : QbvSt) : State :=
  (s.setQbv p { q with gateAt := some s.now }).wr (R.QBV_STAT_ENTRY p) q.idx

/-- An interval ends: the next entry, or the first of the next cycle (R612). -/
def State.gateEntryEnd (s : State) (p : Nat) : State :=
  let q := s.qbvOf p
  if ¬ s.on (R.QBV_STAT_OPER p) ∨ ¬ tAfter s.sysTime q.entryEnd ∨ q.gateAt = some s.now then s
  else if q.entryEnd = q.cycleEnd then
    let c := q.cycleEnd
    s.gateChange p ({ q with cycleEnd := (c + q.cycle) % 2 ^ 48 }.enter 0 c)
  else s.gateChange p (q.enter (q.idx + 1) q.entryEnd)

/-- An admin list that CHANGE refuses (R790). -/
def State.qbvBad (s : State) (p : Nat) : Bool :=
  let n := s.rd (R.QBV_LEN_LEN p)
  let c := s.rd (R.QBV_CYCLE_CYCLE p)
  n == 0 || decide (256 < n) || decide (c < 1000) || decide (1000000000 < c) ||
    (List.range n).any fun i => s.rd (R.QBV_ENT_LO_INTERVAL p i) == 0 || s.rd (R.QBV_ENT_HI_OP p i) == 3

/-- CHANGE starts the config change (R612, R790). -/
def State.qbvChange (s : State) (p : Nat) : State :=
  if s.qbvBad p then s.wr (R.QBV_STAT_CFG_ERR p) 1
  else
    let base := s.rd (R.QBV_BASE_LO_BASE p) + s.rd (R.QBV_BASE_HI_BASE p) * 2 ^ 32
    (s.setQbv p { s.qbvOf p with changeAt := nextBoundary base (s.rd (R.QBV_CYCLE_CYCLE p)) s.sysTime }).wr
      (R.QBV_STAT_PENDING p) 1

/-- The entries of the admin list. -/
def State.adminList (s : State) (p : Nat) : List (Nat × Nat × Nat) :=
  (List.range (s.rd (R.QBV_LEN_LEN p))).map fun i =>
    (s.rd (R.QBV_ENT_LO_INTERVAL p i), s.rd (R.QBV_ENT_HI_GATES p i), s.rd (R.QBV_ENT_HI_OP p i))

/-- The admin list becomes operational (R612). -/
def State.qbvActivate (s : State) (p : Nat) : State :=
  let q := s.qbvOf p
  if ¬ s.on (R.QBV_STAT_PENDING p) ∨ ¬ tAfter s.sysTime q.changeAt ∨ q.gateAt = some s.now then s
  else
    let c := s.rd (R.QBV_CYCLE_CYCLE p)
    let q1 : QbvSt := { q with entries := s.adminList p, base := q.changeAt, cycle := c, cycleEnd := (q.changeAt + c) % 2 ^ 48 }
    (s.wrAll [(R.QBV_STAT_PENDING p, 0), (R.QBV_STAT_OPER p, 1)]).gateChange p (q1.enter 0 q.changeAt)

/-- A list keeps its position in the cycle through a step; its next boundary follows the stepped time, and one that the
step jumped over is taken at once (R627). -/
def QbvSt.stepped (q : QbvSt) (old new : Nat) : QbvSt :=
  let left := tsub q.entryEnd old
  let b := nextBoundary q.base q.cycle (new + 1)
  if tAfter new q.cycleEnd then { q with cycleEnd := b, entryEnd := new, idx := q.entries.length }
  else
    let e := (new + left) % 2 ^ 48
    { q with cycleEnd := b, entryEnd := if tAfter e b then b else e }

/-- Gates of one port after a step of system time. -/
def State.gateStep (s : State) (old new p : Nat) : State :=
  let q := s.qbvOf p
  if ¬ s.on (R.QBV_STAT_OPER p) then s
  else
    let q1 := q.stepped old new
    if q1.idx = q1.entries.length then
      let q2 := q1.enter 0 new
      if q.gateAt = some s.now then s.setQbv p q2 else s.gateChange p q2
    else s.setQbv p q1

/-- A write of ST_STEP_HI adds the signed 48-bit value to system time (R609). -/
def State.timeStep (s : State) (hi : Nat) : State :=
  let d := sx 48 (s.rd R.ST_STEP_LO_STEP + hi % 2 ^ 16 * 2 ^ 32)
  let old := s.sysTime
  let s1 := { s with sysAcc := ux 80 ((s.sysAcc : Int) + d * (2 ^ 32 : Nat)) }
  let s2 := s1.countWrap R.ST_CNT_STEPS 1
  (List.range 4).foldl (fun s p => s.gateStep old s2.sysTime p) s2

/-- Stretches of gate states up to the end of a cycle: duration, gates. -/
def gateSegs : List (Nat × Nat × Nat) → Nat → List (Nat × Nat)
  | [], _ => []
  | [(_, g, _)], left => [(left, g)]
  | (iv, g, _) :: t, left => if left ≤ iv then [(left, g)] else (iv, g) :: gateSegs t (left - iv)

/-- The gate of class c stays open for a time in ns from now (R612). -/
def State.gateOpenFor (s : State) (p c ns : Nat) : Bool :=
  if ¬ s.on (R.QBV_CTRL_EN p) ∨ ¬ s.on (R.QBV_STAT_OPER p) then true
  else
    let q := s.qbvOf p
    let cur := (tsub q.entryEnd s.sysTime, (q.entries.getD q.idx (0, 0, 0)).2.1) ::
      (if q.entryEnd = q.cycleEnd then [] else gateSegs (q.entries.drop (q.idx + 1)) (tsub q.cycleEnd q.entryEnd))
    let next :=
      if s.on (R.QBV_STAT_PENDING p) ∧ tAfter q.cycleEnd q.changeAt then gateSegs (s.adminList p) (s.rd (R.QBV_CYCLE_CYCLE p))
      else gateSegs q.entries q.cycle
    let all := cur ++ next
    if all.all fun x => bit x.2 c then true
    else decide (ns ≤ ((all.takeWhile fun x => bit x.2 c).map (·.1)).sum) && bit (cur.headD (0, 0)).2 c

/-- Time of a frame on the medium in ns, rounded up: preamble, frame, FCS, by the speed code of R790. -/
def ethTime (speed len : Nat) : Nat :=
  let n := (8 + len + 4) * 8
  match speed with
  | 0 => n * 100
  | 1 => n * 10
  | 2 => n
  | _ => (n + 9) / 10

/-! ### Valid marks (R689) -/

/-- Clear the masked bits of one byte. -/
def clearMark (l : List Byte) (ofs mask : Nat) : List Byte := modAt l ofs fun b => b &&& ~~~ (BitVec.ofNat 8 mask)

/-- The copy of a frame that is sent: in the safe state the marks of its transport are cleared. -/
def State.marked (s : State) (eth : Bool) (index ring : Nat) (l : List Byte) : List Byte :=
  if !s.inSafe then l
  else (List.range 16).foldl (fun l k =>
    if s.on (R.VM_CFG_EN k) && s.on (R.VM_CFG_TRANSPORT k) == eth && s.rd (R.VM_CFG_INDEX k) == index &&
        (!eth || s.rd (R.VM_CFG_RING k) == ring && decide (ring < 7)) then
      clearMark l (s.rd (R.VM_CFG_OFFSET k)) (s.rd (R.VM_MASK_MASK k))
    else l) l

/-! ### Ethernet frames -/

/-- A MAC address as a number, the first byte on the wire highest. -/
def macOf (l : List Byte) : Nat := beNat (l.take 6)

/-- A frame carries an IEEE 802.1Q tag. -/
def ethTagged (f : List Byte) : Bool := beNat ((f.drop 12).take 2) == 0x8100

/-- EtherType of a frame, behind its tag. -/
def ethType (f : List Byte) : Nat := beNat ((f.drop (if ethTagged f then 16 else 12)).take 2)

/-- Tag control information, 0 if untagged. -/
def ethTci (f : List Byte) : Nat := if ethTagged f then beNat ((f.drop 14).take 2) else 0

/-- An enabled filter matches (R607). -/
def State.efMatches (s : State) (p k : Nat) (f : List Byte) : Bool :=
  let et := s.on (R.EF_CTL_EN_ET p k)
  let mac := s.on (R.EF_CTL_EN_MAC p k)
  (et || mac) && (!et || s.rd (R.EF_ETYPE_ETYPE p k) == ethType f) &&
    (!mac || s.rd (R.EF_MAC_LO_MAC p k) + s.rd (R.EF_MAC_HI_MAC p k) * 2 ^ 32 == macOf f)

/-- A destination that the port accepts (R607). -/
def State.ethAccepts (s : State) (p : Nat) (f : List Byte) : Bool :=
  s.on (R.ETH_CTRL_PROMISC p) || macOf f == 2 ^ 48 - 1 ||
    macOf f == s.rd (R.ETH_MAC_LO_MAC p) + s.rd (R.ETH_MAC_HI_MAC p) * 2 ^ 32 ||
    (List.range 16).any fun k => s.on (R.EF_CTL_EN_MAC p k) &&
      s.rd (R.EF_MAC_LO_MAC p k) + s.rd (R.EF_MAC_HI_MAC p k) * 2 ^ 32 == macOf f

/-- System time of a frame's SFD with the latency that 802.1AS frames get (R610). -/
def State.ethStamp (s : State) (f : List Byte) (lat : Nat) : Nat :=
  if ethType f = 0x88F7 then (s.sysTime + lat) % 2 ^ 48 else s.sysTime

/-- A frame goes to a receive ring: the buffer, then the entry (R605, R607, R628). -/
def State.ethToRing (s : State) (p t fl : Nat) (f : List Byte) : State :=
  let b := ethRxRing p t
  match s.frNext b with
  | none => s.count (frNobuf b) 1
  | some i =>
    let e := s.frRead b i
    let ent := fitBytes 32 e.2.2
    let cap := leNat ((ent.drop 8).take 2)
    let n := min cap f.length
    let ctl := ent.getD 10 0
    let w := if e.2.1 = .ok then e.1.gmWrites (s.frWho b) (leNat (ent.take 8)) (f.take n) else (e.1, e.2.1)
    let ts := s.ethStamp f (s.rd (R.ETH_LAT_ING_LAT p))
    w.1.frFinish b
      (ent.take 8 ++ leBytes 2 n ++ [ctl] ++ leBytes 1 (statusNat w.2 + b2n (decide (cap < f.length)) * 16 + t % 8 * 32) ++
        leBytes 6 ts ++ leBytes 2 (ethTci f) ++ leBytes 1 fl ++ List.replicate 11 0)

/-- Rules 4 and 5 of R607. -/
def State.ethSteer (s : State) (p : Nat) (f : List Byte) : State :=
  match (List.range 16).find? fun k => s.efMatches p k f with
  | some k => s.ethToRing p (s.rd (R.EF_CTL_RING p k) % 8) k f
  | none => s.ethToRing p (bits (s.rd (R.ETH_PCPMAP_PCP_MAP p)) (3 * bits (ethTci f) 13 3) 3) 0xFF f

/-- The next frame of the transmit ring of class c that its gate lets start: none, or the frame (R605, R608, R612). An
entry that cannot be sent is finished with its status. -/
def State.ethRingFrame (s : State) (p c speed : Nat) : State × Option (List Byte) :=
  let b := ethTxRing p c
  match s.frNext b with
  | none => (s, none)
  | some i =>
    let e := s.frRead b i
    let ent := fitBytes 32 e.2.2
    let len := leNat ((ent.drop 8).take 2)
    let fin (s : State) (st : Status) (ts : Nat) : State :=
      s.frFinish b (ent.take 11 ++ leBytes 1 (statusNat st + c * 32) ++ leBytes 6 ts ++ List.replicate 14 0)
    if e.2.1 ≠ .ok then (fin e.1 e.2.1 0, none)
    else if len < 60 ∨ s.rd (R.ETH_MAXLEN_MAXLEN p) < len then (fin e.1 .nackAbsent 0, none)
    else if !s.gateOpenFor p c (ethTime speed len) then (s, none)
    else
      let d := e.1.gmReads (s.frWho b) (leNat (ent.take 8)) len
      if d.2.1 ≠ .ok then (fin d.1 d.2.1 0, none)
      else
        let ts := if bit ((ent.getD 10 0).toNat) 0 then s.ethStamp d.2.2 (s.rd (R.ETH_LAT_EGR_LAT p)) else 0
        (fin d.1 .ok ts, some (s.marked true p c d.2.2))

/-! ### CAN FD (R615 to R618) -/

/-- Data bytes of a DLC code. -/
def dlcLen (fdf : Bool) (dlc : Nat) : Nat :=
  if dlc ≤ 8 then dlc
  else if !fdf then 8
  else match dlc with | 9 => 12 | 10 => 16 | 11 => 20 | 12 => 24 | 13 => 32 | 14 => 48 | _ => 64

/-- What a write of CAN_TXREQ queues (R616). -/
def State.canQueue (s : State) (c w : Nat) : State := s.wr (R.CAN_TXREQ_REQ c) (s.rd (R.CAN_TXREQ_REQ c) ||| w % 2 ^ 16)

/-- A write to a transmit buffer's registers is ignored while it is queued (R616). -/
def State.writeTxb (s : State) (c b off w : Nat) : State :=
  if bit (s.rd (R.CAN_TXREQ_REQ c)) b then s.wr (R.CAN_STAT_TXB_BUSY c) 1
  else if off = 0 then s.wrAll [(R.CAN_TXB_ID_ID c b, bits w 0 29), (R.CAN_TXB_ID_IDE c b, bits w 29 1), (R.CAN_TXB_ID_RTR c b, bits w 30 1)]
  else if off = 4 then s.wrAll [(R.CAN_TXB_CTL_DLC c b, bits w 0 4), (R.CAN_TXB_CTL_FDF c b, bits w 4 1), (R.CAN_TXB_CTL_BRS c b, bits w 5 1)]
  else if 0x10 ≤ off then s.wr (R.CAN_TXB_DATA_DATA c b ((off - 0x10) / 4)) w
  else s

/-- The arbitration field as a number: the lowest wins. An 11-bit identifier stands in ID [10:0]; after the first eleven
bits come RTR or SRR, IDE, and for 29 bits the rest. -/
def State.canKey (s : State) (c b : Nat) : Nat :=
  let id := s.rd (R.CAN_TXB_ID_ID c b)
  let rtr := if s.on (R.CAN_TXB_CTL_FDF c b) then 0 else s.rd (R.CAN_TXB_ID_RTR c b)
  if s.on (R.CAN_TXB_ID_IDE c b) then bits id 18 11 * 2 ^ 21 + 2 ^ 20 + 2 ^ 19 + bits id 0 18 * 2 + rtr
  else bits id 0 11 * 2 ^ 21 + rtr * 2 ^ 20

/-- The buffer that the controller offers (R616). -/
def State.canOffer (s : State) (c : Nat) : Option Nat :=
  (List.range 16).foldl (fun o b =>
    if bit (s.rd (R.CAN_TXREQ_REQ c)) b then
      match o with
      | some a => if s.canKey c b < s.canKey c a then some b else some a
      | none => some b
    else o) none

/-- The frame of a buffer. -/
def State.canFrameOf (s : State) (c b : Nat) : CanFrame :=
  let fdf := s.on (R.CAN_TXB_CTL_FDF c b) && s.on (R.CAN_CTRL_FD c)
  let rtr := s.on (R.CAN_TXB_ID_RTR c b) && !fdf
  let n := dlcLen fdf (s.rd (R.CAN_TXB_CTL_DLC c b))
  let data := ((List.range 16).map fun k => leBytes 4 (s.rd (R.CAN_TXB_DATA_DATA c b k))).flatten
  { id := BitVec.ofNat 29 (s.rd (R.CAN_TXB_ID_ID c b)), ide := s.on (R.CAN_TXB_ID_IDE c b), rtr := rtr, fdf := fdf,
    brs := s.on (R.CAN_TXB_CTL_BRS c b) && fdf, esi := s.rd (R.CAN_ERR_MODE c) == 1 && fdf, dlc := Fin.ofNat 16 (s.rd (R.CAN_TXB_CTL_DLC c b)),
    data := if rtr then [] else s.marked false c 0 (data.take n) }

/-- Error state by the counters (ISO 11898-1, R618). -/
def State.canMode (s : State) (c : Nat) : State :=
  if s.on (R.CAN_STAT_BUSOFF c) then s
  else s.wr (R.CAN_ERR_MODE c) (b2n (decide (128 ≤ s.rd (R.CAN_ERR_TEC c)) || decide (128 ≤ s.rd (R.CAN_ERR_REC c))))

/-- The offered buffer has been sent (R616). -/
def State.canSent (s : State) (c : Nat) : State :=
  if ¬ s.on (R.CAN_CTRL_EN c) ∨ s.on (R.CAN_STAT_BUSOFF c) then s
  else match s.canOffer c with
  | none => s
  | some b =>
    let s1 := { s with canOut := s.canOut ++ [(c, s.canFrameOf c b)] }
    let s2 := s1.wrAll [(R.CAN_TXREQ_REQ c, s.rd (R.CAN_TXREQ_REQ c) - 2 ^ b), (R.CAN_TXDONE_DONE c, s.rd (R.CAN_TXDONE_DONE c) ||| 2 ^ b),
      (R.CAN_ERR_TEC c, s.rd (R.CAN_ERR_TEC c) - 1)]
    s2.canMode c

/-- Filter k accepts a frame (R617, R789). -/
def State.canAccepts (s : State) (c k : Nat) (f : CanFrame) : Bool :=
  s.on (R.CAN_FILT_ID_EN c k) && s.on (R.CAN_FILT_ID_IDE c k) == f.ide &&
    (let m := s.rd (R.CAN_FILT_MASK_MASK c k)
     (if f.ide then m else m % 2 ^ 11) &&& f.id.toNat == (if f.ide then m else m % 2 ^ 11) &&& s.rd (R.CAN_FILT_ID_ID c k))

/-- The entry of a received frame (R617); TOK of the entry given stands. -/
def canEntry (tok ts fl : Nat) (f : CanFrame) : List Byte :=
  let n := if f.rtr then 0 else dlcLen f.fdf f.dlc
  leBytes 4 ((if f.ide then f.id.toNat else f.id.toNat % 2 ^ 11) + b2n f.ide * 2 ^ 29 + b2n f.rtr * 2 ^ 30) ++ leBytes 1 f.dlc ++
    leBytes 1 (b2n f.fdf + b2n f.brs * 2 + b2n f.esi * 4) ++ leBytes 1 (tok * 2) ++ leBytes 1 0 ++ leBytes 6 ts ++ leBytes 1 fl ++ [0] ++
    fitBytes 64 (f.data.take n) ++ List.replicate 16 0

/-- A frame arrives (R617); ts is the system time at the sample point of its SOF. -/
def State.canReceive (s : State) (c ts : Nat) (f : CanFrame) : State :=
  if ¬ s.on (R.CAN_CTRL_EN c) ∨ s.on (R.CAN_STAT_BUSOFF c) ∨ (f.fdf ∧ ¬ s.on (R.CAN_CTRL_FD c)) then s
  else
    let s0 := (s.wr (R.CAN_ERR_REC c) (s.rd (R.CAN_ERR_REC c) - 1)).canMode c
    match (List.range 32).find? fun k => s0.canAccepts c k f with
    | none => s0.count (R.CAN_STAT_RX_DROP c) 1
    | some k =>
      match s0.frNext (canRing c) with
      | none => (s0.count (R.CAN_STAT_RX_DROP c) 1).count (frNobuf (canRing c)) 1
      | some i =>
        let e := s0.frRead (canRing c) i
        e.1.frFinish (canRing c) (canEntry (b2n (bit ((e.2.2.getD 6 0).toNat) 1)) ts k f)

/-- The controller reaches bus-off (R618); what TEC then shows is open. -/
def State.canBusOff (s : State) (c : Nat) : State :=
  if ¬ s.on (R.CAN_CTRL_EN c) ∨ s.on (R.CAN_STAT_BUSOFF c) then s
  else
    let s1 := (s.wrAll [(R.CAN_STAT_BUSOFF c, 1), (R.CAN_ERR_MODE c, 2), (R.CAN_ERR_TEC c, s.free 0)]).drawn
    let s2 := { s1 with canRecover := s1.canRecover.filter (· != c) }
    s2.reportIf (s.on (R.CAN_CTRL_SAFETY c)) (0x2C + c) 0

/-- RECOVER permits the recovery of a controller in bus-off (R618). -/
def State.canPermit (s : State) (c : Nat) : State :=
  if s.on (R.CAN_STAT_BUSOFF c) ∧ ¬ s.canRecover.contains c then { s with canRecover := c :: s.canRecover } else s

/-- 128 occurrences of 11 recessive bits have passed (R618). -/
def State.canRecovered (s : State) (c : Nat) : State :=
  if s.on (R.CAN_STAT_BUSOFF c) ∧ (s.on (R.CAN_CTRL_AUTO_REC c) ∨ s.canRecover.contains c) then
    { (s.wrAll [(R.CAN_STAT_BUSOFF c, 0), (R.CAN_ERR_MODE c, 0), (R.CAN_ERR_TEC c, 0), (R.CAN_ERR_REC c, 0)]) with
      canRecover := s.canRecover.filter (· != c) }
  else s

/-! ### CSI-2 receivers (R619 to R624, R629) -/

def State.csi (s : State) (r x : Nat) : CsiSt := s.csis.getD (2 * r + x) {}
def State.setCsi (s : State) (r x : Nat) (v : CsiSt) : State := { s with csis := s.csis.set (2 * r + x) v }

/-- A packet header: 0 clean, 1 corrected, 2 dropped (R619); whether the packet goes on. -/
def State.csiHeader (s : State) (r hdr : Nat) : State × Bool :=
  if ¬ s.on (R.CSI_CTRL_EN r) then (s, false)
  else match hdr with
  | 0 => (s, true)
  | 1 => ((s.count (R.CSI_CNT_CORR r) 1).wr (R.CSI_STAT_ECC_CORR r) 1, true)
  | _ => ((s.count (R.CSI_CNT_DISC r) 1).wr (R.CSI_STAT_ECC_DROP r) 1, false)

/-- Bytes of a pixel in memory (R620); YUV422 takes two bytes a pixel. -/
def csiSize (dt : Nat) : Nat := if dt = 0x2B ∨ dt = 0x2C ∨ dt = 0x2E ∨ dt = 0x1E then 2 else 1

/-- Requests of receiver r (R603, R690). -/
def csiWho (r : Nat) : Who := { ini := Fin.ofNat 64 (0x30 + r), cls := 2, remote := false }

/-- First byte of a buffer of a context (R620). -/
def State.csiBufAt (s : State) (r x b : Nat) : Nat :=
  s.rd (R.CS_BUF_LO_BUF r x) * 2 ^ 16 + s.rd (R.CS_BUF_HI_BUF r x) * 2 ^ 32 + b * (s.rd (R.CS_BUF_STRIDE_STRIDE r x) * 2 ^ 16)

/-- Buffers of a context. -/
def State.csiNbuf (s : State) (r x : Nat) : Nat := s.rd (R.CS_BUF_STRIDE_NBUF r x) + 1

/-- A write of CS_MATCH; EN starts the context with all buffers free (R621). -/
def State.writeCsMatch (s : State) (r x w : Nat) (open_ : Bool) : State :=
  let was := s.on (R.CS_MATCH_EN r x)
  let s1 := if open_ then s.wrAll [(R.CS_MATCH_VC r x, bits w 1 2), (R.CS_MATCH_DT r x, bits w 3 6),
    (R.CS_MATCH_DRN_SRC r x, bits w 9 1), (R.CS_MATCH_DRONE r x, bits w 10 4)] else s
  let s2 := s1.wr (R.CS_MATCH_EN r x) (bits w 0 1)
  if bit w 0 && !was then (s2.wr (R.CS_STATUS_FREE r x) (s2.csiNbuf r x)).setCsi r x {}
  else if !bit w 0 && was then s2.setCsi r x {} else s2

/-- CS_BUF_RET (R621). -/
def State.csiReturn (s : State) (r x : Nat) : State :=
  if s.csiNbuf r x ≤ s.rd (R.CS_STATUS_FREE r x) then s.wr (R.CS_STATUS_RET_ERR r x) 1 else s.countWrap (R.CS_STATUS_FREE r x) 1

/-- Bands of a frame (R622). -/
def State.csiBands (s : State) (r x : Nat) : Nat :=
  (s.rd (R.CS_GEOM_LINES r x) + s.rd (R.CS_PITCH_BAND r x)) / (s.rd (R.CS_PITCH_BAND r x) + 1)

/-- Post one band token. -/
def State.csiBandToken (s : State) (r x : Nat) : State :=
  (s.token (s.rd (R.CS_TOK_BAND_UNIT r x)) (s.rd (R.CS_TOK_BAND_CONTEXT r x)) (s.rd (R.CS_TOK_BAND_COUNTER r x))).setCsi r x
    { s.csi r x with bands := (s.csi r x).bands + 1 }

/-- The next band is complete (R622). -/
def State.csiBandDone (s : State) (r x : Nat) : State :=
  let c := s.csi r x
  let band := s.rd (R.CS_PITCH_BAND r x) + 1
  if c.active ∧ c.bands < s.csiBands r x ∧ min (band * (c.bands + 1)) (s.rd (R.CS_GEOM_LINES r x)) ≤ c.lines then s.csiBandToken r x else s

/-- The remaining band tokens. -/
def State.csiBandRest (s : State) (r x : Nat) : Nat → State
  | 0 => s
  | n + 1 => (s.csiBandToken r x).csiBandRest r x n

/-- The frame of a context ends: remaining band tokens, the record, the frame token (R622, R623, R629). -/
def State.csiEnd (s : State) (r x fl : Nat) : State :=
  let c := s.csi r x
  if ¬ c.active then s
  else
    let s1 := s.csiBandRest r x (s.csiBands r x - c.bands)
    let rcd := leBytes 2 c.num ++ leBytes 2 c.accepted ++ leBytes 1 (if c.failed then 3 else 0) ++ leBytes 1 (c.flags ||| fl) ++
      leBytes 2 c.lines ++ leBytes 6 c.start ++ leBytes 2 c.cc ++ List.replicate 16 0
    let a := s.rd (R.CS_STAT_LO_STAT r x) * 256 + s.rd (R.CS_STAT_HI_STAT r x) * 2 ^ 32 + 32 * c.buf
    let s2 := (s1.gmWrites (csiWho r) (a + s.chip * 2 ^ 48) rcd).1
    (s2.token (s.rd (R.CS_TOK_FRAME_UNIT r x)) (s.rd (R.CS_TOK_FRAME_CONTEXT r x)) (s.rd (R.CS_TOK_FRAME_COUNTER r x))).setCsi r x
      { s1.csi r x with active := false, lines := 0 }

/-- A measurement of the receiver reaches the Drones of kind CSI that follow it (R624): f of SCALE. -/
def State.csiMeasure (s : State) (r : Nat) (f : Nat → Nat) : State :=
  (List.range 16).foldl (fun s d =>
    if (s.rd (R.DRN_SRC_KIND d) == 5 && s.rd (R.DRN_SRC_INDEX d) == r) ||
        (s.on (R.DRN_CTRL_ALT_EN d) && s.rd (R.DRN_SRC_ALT_KIND d) == 5 && s.rd (R.DRN_SRC_ALT_INDEX d) == r) then
      s.offerTo d 5 r (f (s.drone d).scale) s.now
    else s) s

/-- A Frame Start reaches a context (R621, R624, R629). -/
def State.csiStart (s : State) (r x num : Nat) : State :=
  let s0 := s.csiEnd r x 1
  let s1 := if s0.on (R.CS_MATCH_DRN_SRC r x) then s0.csiMeasure r fun _ => 0 else s0
  let c := s1.csi r x
  if s1.rd (R.CS_STATUS_FREE r x) = 0 then
    (s1.count (R.CS_CNT_DROPS r x) 1).setCsi r x { c with active := false, lines := 0, last := s.sysTime }
  else
    let s2 := (s1.wr (R.CS_STATUS_FREE r x) (s1.rd (R.CS_STATUS_FREE r x) - 1)).count (R.CS_CNT_FRAMES r x) 1
    s2.setCsi r x
      { c with accepted := (c.accepted + 1) % 2 ^ 16, active := true, buf := c.accepted % s1.csiNbuf r x, num := num, start := s.sysTime,
               cc := (s.drone (s.rd (R.CS_MATCH_DRONE r x))).cyc, lines := 0, bands := 0, flags := 0, failed := false, last := s.sysTime }

/-- Contexts that a packet of a virtual channel, and of a data type where it carries one, matches. -/
def State.csiMatch (s : State) (r vc : Nat) (dt : Option Nat) : List Nat :=
  (List.range 2).filter fun x => s.on (R.CS_MATCH_EN r x) && s.rd (R.CS_MATCH_VC r x) == vc &&
    (match dt with | some t => s.rd (R.CS_MATCH_DT r x) == t | none => true)

/-- The packet matches no enabled context: counted and discarded (R620). -/
def State.csiEach (s : State) (r vc : Nat) (dt : Option Nat) (f : State → Nat → State) : State :=
  match s.csiMatch r vc dt with
  | [] => s.count (R.CSI_CNT_DISC r) 1
  | l => l.foldl f s

/-- A line packet reaches a context (R620, R622, R624). -/
def State.csiLine (s : State) (r x dt : Nat) (vals : List Nat) (crcOk : Bool) : State :=
  let c := s.csi r x
  let line := c.lines
  let s1 := if s.on (R.CS_MATCH_DRN_SRC r x) then s.csiMeasure r fun sc => line * sc / 2 ^ 16 else s
  let c1 := { c with lines := line + 1, last := s.sysTime }
  if ¬ c.active then s1.setCsi r x c1
  else
    let wide := s.rd (R.CS_GEOM_WIDTH r x) * (if dt = 0x1E then 2 else 1)
    let sz := if dt = 0x1E then 1 else csiSize dt
    let fl := c.flags ||| (if crcOk then 0 else 2) ||| (if vals.length ≠ wide then 4 else 0)
    if s.rd (R.CS_GEOM_LINES r x) ≤ line then s1.setCsi r x c1
    else
      let data := fitBytes (wide * sz) ((vals.map (leBytes sz)).flatten)
      let a := s.csiBufAt r x c.buf + line * (s.rd (R.CS_PITCH_PITCH r x) * 64)
      let w := s1.gmWrites (csiWho r) (a + s.chip * 2 ^ 48) data
      w.1.setCsi r x { c1 with flags := fl, failed := c.failed || decide (w.2 ≠ .ok) }

/-- FRAME_TMO µs without a packet ends the frame (R629). -/
def State.csiTimeout (s : State) (r x : Nat) : State :=
  let t := s.rd (R.CS_TMO_FRAME_TMO r x)
  if t ≠ 0 ∧ (s.csi r x).active ∧ 1000 * t ≤ tsub s.sysTime (s.csi r x).last then s.csiEnd r x 9 else s

/-! ### Serial interfaces (R626, R788) -/

def State.ser (s : State) (i : Nat) : SerSt := s.sers.getD i {}

/-- EN, TX_LVL, RX_LVL, BUSY, TX_OVF and RX_UF of a serial interface: SPI 0 to 5, I2C 6 to 9, UART 10 to 13, xSPI 14. -/
def serEn (i : Nat) : Fld :=
  if i < 6 then R.SPI_CTRL_EN i else if i < 10 then R.I2C_CTRL_EN (i - 6) else if i < 14 then R.UART_CTRL_EN (i - 10) else R.XSPI_CTRL_EN
def serTxLvl (i : Nat) : Fld :=
  if i < 6 then R.SPI_STAT_TX_LVL i else if i < 10 then R.I2C_STAT_TX_LVL (i - 6) else if i < 14 then R.UART_STAT_TX_LVL (i - 10)
  else R.XSPI_STAT_TX_LVL
def serRxLvl (i : Nat) : Fld :=
  if i < 6 then R.SPI_STAT_RX_LVL i else if i < 10 then R.I2C_STAT_RX_LVL (i - 6) else if i < 14 then R.UART_STAT_RX_LVL (i - 10)
  else R.XSPI_STAT_RX_LVL
def serBusy (i : Nat) : Fld :=
  if i < 6 then R.SPI_STAT_BUSY i else if i < 10 then R.I2C_STAT_BUSY (i - 6) else if i < 14 then R.UART_STAT_BUSY (i - 10)
  else R.XSPI_STAT_BUSY
def serOvf (i : Nat) : Fld :=
  if i < 6 then R.SPI_STAT_TX_OVF i else if i < 10 then R.I2C_STAT_TX_OVF (i - 6) else if i < 14 then R.UART_STAT_TX_OVF (i - 10)
  else R.XSPI_STAT_TX_OVF
def serUf (i : Nat) : Fld :=
  if i < 6 then R.SPI_STAT_RX_UF i else if i < 10 then R.I2C_STAT_RX_UF (i - 6) else if i < 14 then R.UART_STAT_RX_UF (i - 10)
  else R.XSPI_STAT_RX_UF

/-- Put a serial interface; its status shows the levels and whether a transfer is under way. -/
def State.setSer (s : State) (i : Nat) (v : SerSt) : State :=
  let busy := if i < 6 ∨ (10 ≤ i ∧ i < 14) then s.on (serEn i) && v.tx != [] else v.cmd.isSome
  let s1 := s.wrAll [(serTxLvl i, v.tx.length), (serRxLvl i, v.rx.length), (serBusy i, b2n busy)]
  { s1 with sers := s1.sers.set i v }

/-- A write of a transmit register (R626). -/
def State.serTx (s : State) (i w : Nat) : State :=
  let v := s.ser i
  if 16 ≤ v.tx.length then s.wr (serOvf i) 1 else s.setSer i { v with tx := v.tx ++ [w] }

/-- A read of a receive register (R626). -/
def State.serRx (s : State) (i : Nat) : Nat × State :=
  let v := s.ser i
  match v.rx with
  | [] => (0, s.wr (serUf i) 1)
  | w :: t => (w, s.setSer i { v with rx := t })

/-- A received word enters the FIFO where there is room. -/
def SerSt.push (v : SerSt) (w : Nat) : SerSt := if 16 ≤ v.rx.length then v else { v with rx := v.rx ++ [w] }

/-- A write of I2C_CMD or XSPI_CMD with GO starts a transfer (R788). -/
def State.serGo (s : State) (i w : Nat) : State :=
  if s.on (serEn i) ∧ (s.ser i).cmd = none then s.setSer i { s.ser i with cmd := some w } else s

/-- Words of up to four bytes each, the first byte lowest. -/
def serWords : Nat → List Byte → List Nat
  | 0, _ => []
  | _, [] => []
  | n + 1, l => leNat (l.take 4) :: serWords n (l.drop 4)

/-- A word, character or transfer completes (R626, R788). -/
def State.serDone (s : State) (e : SerialEvent) : State :=
  match e with
  | .spi k rx =>
    let v := s.ser k
    let m := 2 ^ (max (s.rd (R.SPI_CTRL_BITS k)) 3 + 1)
    match v.tx with
    | [] => s
    | w :: t =>
      if !s.on (serEn k) then s
      else { (s.setSer k ({ v with tx := t }.push (rx.toNat % m))) with serOut := s.serOut ++ [((k : Nat), w % m)] }
  | .uartTx u =>
    let i := 10 + (u : Nat)
    let v := s.ser i
    match v.tx with
    | [] => s
    | w :: t =>
      if !s.on (serEn i) then s
      else { (s.setSer i { v with tx := t }) with serOut := s.serOut ++ [(i, w % 2 ^ (5 + s.rd (R.UART_CTRL_DATA_BITS u)))] }
  | .uartRx u ch par frm brk =>
    let i := 10 + (u : Nat)
    if !s.on (serEn i) then s
    else
      let s1 := ((s.flag par (R.UART_STAT_PAR_ERR u)).flag frm (R.UART_STAT_FRM_ERR u)).flag brk (R.UART_STAT_BRK_SEEN u)
      if brk then s1
      else if 16 ≤ (s1.ser i).rx.length then s1.wr (R.UART_STAT_RX_OVR u) 1
      else s1.setSer i ((s1.ser i).push (ch.toNat % 2 ^ (5 + s.rd (R.UART_CTRL_DATA_BITS u))))
  | .i2c k res rx =>
    let i := 6 + (k : Nat)
    let v := s.ser i
    match v.cmd with
    | none => s
    | some w =>
      let n := bits w 12 8 + 1
      let s1 := ((s.wr (R.I2C_STAT_DONE k) 1).flag (res == 1) (R.I2C_STAT_NACK k)).flag (res == 2) (R.I2C_STAT_ARB_LOST k)
      if res ≠ 0 then s1.setSer i { v with cmd := none }
      else if bit w 11 then
        s1.setSer i ((fitBytes n rx).foldl (fun v b => v.push b.toNat) { v with cmd := none })
      else { (s1.setSer i { v with cmd := none, tx := v.tx.drop n }) with serOut := s1.serOut ++ (v.tx.take n).map fun x => (i, x % 256) }
  | .i2cTarget k rx =>
    let i := 6 + (k : Nat)
    if s.on (R.I2C_CTRL_TGT_EN k) && s.on (serEn i) then (s.wr (R.I2C_STAT_TGT_SEL k) 1).setSer i ((s.ser i).push rx.toNat) else s
  | .xspi rx =>
    let v := s.ser 14
    match v.cmd with
    | none => s
    | some w =>
      let n := min (s.rd R.XSPI_LEN_LEN) 64
      if bit w 22 then
        { (s.setSer 14 { v with cmd := none, tx := v.tx.drop ((n + 3) / 4) }) with
          serOut := s.serOut ++ (14, w) :: (v.tx.take ((n + 3) / 4)).map fun x => (14, x) }
      else
        { (s.setSer 14 ((serWords 16 (fitBytes n rx)).foldl (fun v x => v.push x) { v with cmd := none })) with
          serOut := s.serOut ++ [(14, w)] }

/-- The number of a receive register's interface. -/
def serRxIndex : SerialRx → Nat
  | .spi s => s
  | .i2c i => 6 + i
  | .uart u => 10 + u
  | .xspi => 14

/-- A read of XSPI_WDATA: four bytes at XSPI_WADDR, which then advances by 4 (R788); what a flash that is not there gives
is open. -/
def State.xspiWindow (s : State) : Nat × State :=
  match s.reply with
  | (s1, some x) => (leNat (fitBytes 4 x.data), s1.countWrap R.XSPI_WADDR_WADDR 4)
  | (s1, none) => (s1.free 0 % 2 ^ 32, s1.drawn.countWrap R.XSPI_WADDR_WADDR 4)

end Sys2Proof.Machine
end

