-- ==== Sys2Proof/Machine/WindwayCore.lean ====
section
/-! DEFINITION. Windway ports, frames out, joins, the leader, time exchanges, notices and sweeps
(spec/17_windway.md). -/

namespace Sys2Proof.Machine

/-! ### Group state -/

def State.gepoch (s : State) : Nat := s.rd R.WW_GSTAT_GEPOCH
def State.isLeader (s : State) : Bool := s.on R.WW_GSTAT_IS_LEADER
def State.groupFault (s : State) : Bool := s.on R.WW_GFLAGS_GROUP_FAULT

/-- The flags of JOIN_INFO byte 13 and of LEADER: NON_REPRO, GROUP_FAULT, in the safe state. -/
def State.groupFlags (s : State) : Nat := s.rd R.WW_GFLAGS_NON_REPRO + s.rd R.WW_GFLAGS_GROUP_FAULT * 2 + b2n s.inSafe * 4

/-- A notice of this part to every member (R567, R568). -/
def State.notice (s : State) (sub : Nat) (data : List Byte) : State := s.wwBcast 12 (s.mgmtMsg sub 0 0 true data)

/-- JOIN_INFO (R581). No register gives a time source: 0, free. -/
def State.joinInfo (s : State) : List Byte :=
  leBytes 2 s.chip ++ leBytes 2 (s.rd R.WW_GROUP_GROUP_ID) ++ leBytes 2 s.gepoch ++ leBytes 2 (s.rd R.WW_GSTAT_LEADER) ++
    leBytes 4 (s.rd R.WW_FWVER_FWVER) ++ [2] ++ leBytes 1 s.groupFlags ++ [0, 0] ++ leBytes 8 s.fpWord ++ leBytes 4 s.placeHash

/-- The group epoch and the leader. -/
def State.setLeader (s : State) (epoch leader : Nat) : State :=
  s.wrAll [(R.WW_GSTAT_GEPOCH, epoch), (R.WW_GSTAT_LEADER, leader), (R.WW_GSTAT_IS_LEADER, b2n (leader == s.chip))]

/-- The leader broadcasts LEADER (R583). -/
def State.sendLeader (s : State) : State :=
  { s.notice 4 (leBytes 2 s.gepoch ++ leBytes 2 s.chip ++ leBytes 1 s.groupFlags) with leaderAt := s.now }

/-- The leader's epoch advances at a join or a loss it learns of (R583). -/
def State.leaderStep (s : State) : State := if s.isLeader then s.setLeader (s.gepoch + 1) s.chip else s

/-! ### Sweeps (R587 to R591) -/

def State.sweepState (s : State) : Nat := s.rd R.WS_STAT_STATE
def State.sweepMaster (s : State) : Bool := s.on R.WS_STAT_MASTER
def State.sweepTo (s : State) (st : Nat) : State := s.wr R.WS_STAT_STATE st

/-- Members of the list: number and chip. -/
def State.sweepMembers (s : State) : List (Nat × Nat) :=
  ((List.range 16).filter fun m => s.on (R.WS_MEMBER_VALID m)).map fun m => (m, s.rd (R.WS_MEMBER_CHIP m))

/-- A SWEEP message of this part: 1 START, 2 SWEEP_SYNC, 3 SWEEP_ACK, 4 STOP, 5 END, 6 ABORT, 7 refusal. -/
def State.sweepMsg (s : State) (sub dst : Nat) (bcast : Bool) (data : List Byte) : WwMsg :=
  { s.mgmtMsg sub 0 dst bcast data with mtype := 9 }

/-- The data flit of START and of the messages that name a sweep: ID, group, S0, SEQ0. -/
def SweepSt.data (x : SweepSt) : List Byte := leBytes 2 x.id ++ leBytes 1 x.group ++ leBytes 6 x.s0 ++ leBytes 4 x.seq0

/-- A SWEEP message to each member that can be reached, this part apart. -/
def State.toMembers (s : State) (sub : Nat) : State :=
  s.sweepMembers.foldl (fun s m => if m.2 = s.chip then s else (s.wwSend (s.sweepMsg sub m.2 false s.sweep.data)).1) s

/-- Sweep streams: capture streams on whose INJ_GROUP is the sweep's. -/
def State.sweepStreams (s : State) : List Nat :=
  (List.range 8).filter fun c => s.on (R.CAP_CFG_ENABLE c) && s.rd (R.CAP_CFG_INJ_GROUP c) == s.sweep.group

/-- SEQ of the last record that all sweep streams have completed (R588). -/
def State.sweepSeq (s : State) : Nat :=
  let done (c : Nat) : Nat := let x := s.caps.getD c {}; (x.seq + 2 ^ 33 - s.sweep.seq0 - x.jobs.length) % 2 ^ 32
  match s.sweepStreams with
  | [] => (s.sweep.seq0 + 2 ^ 32 - 1) % 2 ^ 32
  | c :: t => (s.sweep.seq0 + 2 ^ 32 - 1 + (t.foldl (fun n d => min n (done d)) (done c))) % 2 ^ 32

/-- The SEQ a member reports; its own for this part. -/
def State.sweepReport (s : State) (chip seq : Nat) : State :=
  s.sweepMembers.foldl (fun s m => if m.2 = chip then
    { s.wr (R.WS_MSEQ_SEQ m.1) seq with sweep := { s.sweep with acks := s.sweep.acks.set m.1 s.now } } else s) s

/-- The master's sweep breaks: 1 LOSS, 2 NO_ACK, 3 TIME (R590). -/
def State.sweepBreak (s : State) (cause : Nat) : State :=
  if ¬ s.sweepMaster ∨ s.sweepState ≠ 2 then s
  else
    let s1 := s.sweepReport s.chip s.sweepSeq
    let l := s1.sweepMembers.map fun m => s1.rd (R.WS_MSEQ_SEQ m.1)
    let s2 := s1.wrAll [(R.WS_STAT_STATE, 3), (R.WS_STAT_CAUSE, cause), (R.WS_LAST_LAST_COMMON, l.foldl min (l.headD 0))]
    (s2.toMembers 4).injStop s2.sweep.group

/-- A member enters CUT (R589). -/
def State.sweepCutNow (s : State) : State :=
  let s1 := (s.sweepTo 4).injStop s.sweep.group
  s1.sweepStreams.foldl (fun s c => s.setCap c { s.caps.getD c {} with hold := true }) s1

/-- A port that the sweep relies on is lost, or enters DRAINING (R589, R590, R737). -/
def State.sweepPortLost (s : State) (p : Nat) : State :=
  if s.sweepMaster then s.sweepBreak 1
  else if s.sweepState = 2 ∧ s.sweep.port = p then s.sweepCutNow
  else s

/-- START reaches a member, or the master itself (R587). -/
def State.sweepStart (s : State) (master p : Nat) (data : List Byte) : State × Bool :=
  let x : SweepSt := { id := leNat (data.take 2), master := master, group := (data.getD 2 0).toNat % 8, s0 := leNat ((data.drop 3).take 6),
                       seq0 := leNat ((data.drop 9).take 4), port := p, syncAt := s.now, ackAt := s.now,
                       acks := List.replicate 16 s.now }
  if s.on (R.INJ_GRP_CTRL_SWEEP x.group) ∧ ¬ s.injActive x.group ∧ ¬ tAfter s.sysTime x.s0 ∧ ¬ (s.sweepState = 1 ∨ s.sweepState = 2 ∨ s.sweepState = 4) then
    ({ (s.wrAll [(R.WS_STAT_STATE, 1), (R.WS_STAT_MASTER, b2n (master == s.chip)), (R.WS_STAT_CAUSE, 0), (R.WS_MISC_SYNC_RX, 0)]) with sweep := x }, true)
  else (s, false)

/-- START from another chip: accepted, or refused by a message. -/
def State.sweepArm (s : State) (master p : Nat) (data : List Byte) : State :=
  let r := s.sweepStart master p data
  if r.2 then r.1 else (r.1.wwSend (r.1.sweepMsg 7 master false data)).1

/-- GO (R587). -/
def State.sweepGo (s : State) : State :=
  if s.sweepState = 1 ∨ s.sweepState = 2 ∨ s.sweepState = 4 then s
  else
    let x : SweepSt := { id := s.rd R.WS_ID_SWEEP_ID, master := s.chip, group := s.rd R.WS_CTRL_INJ_GROUP,
                         s0 := s.rd R.WS_START_LO_S0 + s.rd R.WS_START_HI_S0 * 2 ^ 32, seq0 := s.rd R.WS_SEQ0_SEQ0 }
    let s1 := { (s.wrAll [(R.WS_MISC_SYNC_RX, 0), (R.WS_MISC_ACK_RX, 0)]) with sweep := x }
    let s2 := s1.sweepMembers.foldl (fun s m => s.wr (R.WS_MSEQ_SEQ m.1) (x.seq0 + 2 ^ 32 - 1)) s1
    let r := (s2.toMembers 1).sweepStart s.chip 12 x.data
    if r.2 then r.1 else r.1.wrAll [(R.WS_STAT_STATE, 0), (R.WS_STAT_MASTER, 1), (R.WS_STAT_CAUSE, 4)]

/-- A refusal reaches the master (R587). -/
def State.sweepRefused (s : State) : State :=
  if s.sweepMaster ∧ s.sweepState = 1 then s.wrAll [(R.WS_STAT_STATE, 0), (R.WS_STAT_CAUSE, 4)] else s

/-- S0 has come for an ARMED member (R587). -/
def State.sweepS0 (s : State) : State :=
  if s.sweepState ≠ 1 ∨ ¬ tAfter s.sysTime s.sweep.s0 then s
  else
    let s1 := s.injGo s.sweep.group
    let go := (List.range 8).filter fun c => !s1.on (R.CAP_CFG_ENABLE c) && s1.rd (R.CAP_CFG_INJ_GROUP c) == s.sweep.group
    let s2 := go.foldl (fun s c => s.capStart c s.sweep.seq0) s1
    { s2.sweepTo 2 with sweep := { s2.sweep with syncAt := s.now, ackAt := s.now, acks := List.replicate 16 s.now } }

/-- The master sends SWEEP_SYNC by one of its ports, once in each of its frame times (R588). -/
def State.sweepSyncSend (s : State) (p : Nat) : State :=
  if s.sweepMaster ∧ s.sweepState = 2 ∧ bit (s.rd (R.BC_FWD_MASK 12)) p ∧ s.portCarries p { mtype := 9 } ∧ s.frameTime p ≤ s.since (s.port p).sweepAt then
    (s.wwPut p (s.sweepMsg 2 0 true s.sweep.data)).portMod p fun x => { x with sweepAt := s.now }
  else s

/-- SWEEP_SYNC arrives (R589). -/
def State.sweepSync (s : State) (p : Nat) (data : List Byte) : State :=
  let s1 := s.countWrap R.WS_MISC_SYNC_RX 1
  if s1.sweep.port = p ∧ leNat (data.take 2) = s1.sweep.id then { s1 with sweep := { s1.sweep with syncAt := s.now } } else s1

/-- ACK_FR frame times of a port. -/
def State.ackTime (s : State) (p : Nat) : Nat := (s.rd R.WS_CTRL_ACK_FR + 1) * s.frameTime p

/-- A member sends SWEEP_ACK; the master notes its own SEQ (R588). -/
def State.sweepAckSend (s : State) : State :=
  if s.sweepState ≠ 2 then s
  else if s.sweepMaster then s.sweepReport s.chip s.sweepSeq
  else if s.ackTime s.sweep.port ≤ s.since s.sweep.ackAt then
    let s1 := (s.wwSend (s.sweepMsg 3 s.sweep.master false (leBytes 2 s.sweep.id ++ leBytes 4 s.sweepSeq))).1
    { s1 with sweep := { s1.sweep with ackAt := s.now } }
  else s

/-- SWEEP_ACK reaches the master (R588). -/
def State.sweepAck (s : State) (chip : Nat) (data : List Byte) : State :=
  if ¬ s.sweepMaster ∨ leNat (data.take 2) ≠ s.sweep.id then s
  else (s.countWrap R.WS_MISC_ACK_RX 1).sweepReport chip (leNat ((data.drop 2).take 4))

/-- A RUNNING member without SWEEP_SYNC for 3 frame times of its port, or whose port is gone (R589). -/
def State.sweepCut (s : State) : State :=
  if ¬ s.sweepMaster ∧ s.sweepState = 2 ∧
      (s.portState s.sweep.port < 2 ∨ (s.unitSt (portUnit s.sweep.port)).state ≠ 0 ∨ 3 * s.frameTime s.sweep.port ≤ s.since s.sweep.syncAt) then
    s.sweepCutNow
  else s

/-- A member's SWEEP_ACK has been missing for 3 ACK_FR intervals (R590). -/
def State.sweepAckMissing (s : State) (m : Nat) : State :=
  let chip := s.rd (R.WS_MEMBER_CHIP m)
  let p := (s.routePort chip 0).getD (s.routeOf chip).1
  if s.on (R.WS_MEMBER_VALID m) ∧ chip ≠ s.chip ∧ 3 * s.ackTime p ≤ s.since (s.sweep.acks.getD m 0) then s.sweepBreak 2 else s

/-- STOP reaches a member (R590, R596). -/
def State.sweepStop (s : State) : State :=
  if s.sweepMaster ∨ ¬ (s.sweepState = 1 ∨ s.sweepState = 2) then s else (s.sweepTo 5).injStop s.sweep.group

/-- END reaches a member: DONE once its group has ended (R591, R596). -/
def State.sweepEnd (s : State) : State :=
  if s.sweepMaster ∨ s.sweepState ≠ 2 then s
  else if s.injActive s.sweep.group then { s with sweep := { s.sweep with ending := true } }
  else s.sweepTo 5

/-- ABORT acts on this part (R591). -/
def State.sweepAborted (s : State) : State :=
  if s.sweepState = 1 ∨ s.sweepState = 2 ∨ s.sweepState = 4 then (s.sweepTo 0).injAbort s.sweep.group else s

/-- ABORT on the master (R591). -/
def State.sweepAbort (s : State) : State :=
  if s.sweepMaster ∧ (s.sweepState = 1 ∨ s.sweepState = 2) then (s.toMembers 6).sweepAborted else s

/-- The sweep follows its group in each control cycle: the master sends END when its group has ended with DONE; a member
told so is DONE; CUT ends when its streams are off (R589, R591). -/
def State.sweepPoll (s : State) : State :=
  let g := s.sweep.group
  if s.sweepState = 2 ∧ s.injActive g = false then
    if s.sweepMaster then
      if (List.range 32).any fun i => s.rd (R.INJ_CFG_GROUP i) == g && s.on (R.INJ_STAT_ABORTED i) then s else (s.toMembers 5).sweepTo 5
    else if s.sweep.ending then s.sweepTo 5
    else s
  else if s.sweepState = 4 ∧ s.sweepStreams = [] then s.sweepTo 0
  else s

/-! ### Group fault (R586) -/

/-- GROUP_FAULT is set. -/
def State.setGroupFault (s : State) : State := (s.wr R.WW_GFLAGS_GROUP_FAULT 1).sweepBreak 3

/-- The group offset is judged (R586). -/
def State.judgeOffset (s : State) : State :=
  if 5000 < (s.rdS R.WW_OFFSET_OFFSET).natAbs ∧ ¬ s.groupFault then (s.notice 7 []).setGroupFault else s

/-- GF_CLEAR (R586). -/
def State.gfClear (s : State) : State := if (s.rdS R.WW_OFFSET_OFFSET).natAbs ≤ 1000 then s.wr R.WW_GFLAGS_GROUP_FAULT 0 else s

/-- NR_CLEAR (R582): the leader announces the cleared flag. -/
def State.nrClear (s : State) : State := if s.isLeader then (s.wr R.WW_GFLAGS_NON_REPRO 0).sendLeader else s

/-! ### Requests and posts that end without their reply (R571, R572) -/

/-- A tag that ended without its reply rests for REQ_TMO µs. -/
def State.restTag (s : State) (t : Nat) : State :=
  { s with tagHold := (t, s.sysTime + 1000 * s.rd R.WW_TMO_REQ_TMO) :: s.tagHold.filter fun h => decide (s.sysTime < h.2) }

/-- A remote request ends; an orphan's requester has its end already (R722). -/
def State.outstEnd (s : State) (o : Outstanding) (st : Status) (data : List Byte) : State :=
  let s1 := { s with outst := s.outst.filter fun x => x.tag != o.tag }
  if o.orphan then s1 else ({ s1 with answer := { st := st, value := leNat data, data := data } }).tokFlush

/-- What the answer to a post makes of it (R96, R572, R716). -/
def State.postResult (s : State) (m : Nat × Nat) (st : Status) : State :=
  match st with
  | .ok => s
  | .retry => { s with msgs := s.msgs ++ [m] }
  | .epochStale => if m.2 = 0 then s else s.count R.UL_CNT2_STALE_POSTS 1
  | .poison => if m.2 = 0 ∨ postCore m.2 then s else { s with postAns := s.postAns ++ [(m.2 - 1, .timeout)] }
  | x => if m.2 = 0 ∨ postCore m.2 then s else { s with postAns := s.postAns ++ [(m.2 - 1, x)] }

/-- A TOK message ends. -/
def State.tokEnd (s : State) (t : TokOut) (st : Status) : State :=
  ({ s with tokOut := s.tokOut.filter fun x => x.tag != t.tag }).postResult t.msg st

/-- The message of a tag still waits to be sent on a port. -/
def State.notLeft (s : State) (p tag : Nat) : Bool :=
  (s.port p).txq.any fun m => m.src == s.chip && m.tag == tag && (m.mtype == 1 || m.mtype == 2 || m.mtype == 5)

/-- Drop it from there. -/
def State.unqueue (s : State) (p tag : Nat) : State :=
  s.portMod p fun x => { x with txq := x.txq.filter fun m => !(m.src == s.chip && m.tag == tag && (m.mtype == 1 || m.mtype == 2 || m.mtype == 5)) }

/-- A request not sent within REQ_TMO µs ends with TIMEOUT, one not answered within it with POISON (R571). -/
def State.requestTimeout (s : State) (tag : Nat) : State :=
  let due (at_ : Nat) : Bool := decide (1000 * s.rd R.WW_TMO_REQ_TMO ≤ tsub s.sysTime at_)
  match s.outst.find? fun o => o.tag == tag with
  | some o =>
    if !due o.at_ then s
    else if s.notLeft o.port tag then (s.unqueue o.port tag).outstEnd o .timeout []
    else (s.restTag tag).outstEnd o .poison []
  | none =>
    match s.tokOut.find? fun t => t.tag == tag with
    | some t =>
      if !due t.at_ then s
      else if s.notLeft t.port tag then (s.unqueue t.port tag).tokEnd t .timeout
      else (s.restTag tag).tokEnd t .poison
    | none => s

/-! ### Loss (R555, R560, R598) -/

/-- What a lost port carried ends (R560, R571, R597). -/
def State.portDrop (s : State) (p : Nat) : State :=
  let s1 := s.portMod p fun x => { x with txq := [], unacked := [], resend := [], keep := false, nak := false, owed := [0, 0, 0] }
  let s2 := (s1.outst.filter fun o => o.port == p).foldl (fun s o => (s.restTag o.tag).outstEnd o .poison []) s1
  (s2.tokOut.filter fun t => t.port == p).foldl (fun s t => (s.restTag t.tag).tokEnd t .poison) s2

/-- LOSSES within one second of system time reach LOSS_Q: the port drains (R718). -/
def State.lossDrain (s : State) (p : Nat) : State :=
  let u := portUnit p
  let q := s.rd R.UL_TIME_LOSS_Q
  if q ≠ 0 ∧ q ≤ (s.port p).losses.length ∧ (s.unitSt u).state = 0 then
    (s.drainEnter u 3).sweepPortLost p
  else s

/-- A port in MGMT or UP is lost: its frames end, it is counted and FAILED, a LOSS notice goes out; then TRAIN, or DOWN. -/
def State.portLost (s : State) (p st : Nat) : State :=
  let s1 := (s.portDrop p).portMod p fun x =>
    { x with since := s.now, losses := s.sysTime :: x.losses.filter fun t => decide (tsub s.sysTime t ≤ 1000000000) }
  let s2 := ((s1.wrAll [(portStateF p, st), (portFailedF p, 1)]).count (portLossF p) 1).lsLost p
  let s3 := (s2.notice 5 (leBytes 2 s.chip ++ leBytes 1 p)).leaderStep
  (s3.sweepPortLost p).lossDrain p

/-- Time without a good frame after which a port is lost (R560, R580). -/
def State.lossTime (s : State) (p : Nat) : Nat := 3 * s.frameTime p

/-- LINK_LOSS: a lane lost lock, no good frame for 3 frame times, or a frame replayed 8 times (R560). -/
def State.linkLoss (s : State) (p : Nat) (lock : Bool) : State :=
  if s.portState p < 2 then s
  else if (lock ∧ p < 8) ∨ s.lossTime p ≤ s.since (s.port p).lastGood ∨ (s.port p).unacked.any (fun f => decide (8 ≤ f.2.2.1)) then
    s.portLost p 1
  else s

/-- A write of EN of a port (R555, R598). -/
def State.portEnable (s : State) (p : Nat) (one : Bool) : State :=
  if one then
    if s.portState p = 0 then (s.wr (portStateF p) 1).portMod p fun x => { x with since := s.now, lastSent := s.now } else s
  else if 2 ≤ s.portState p then s.portLost p 0
  else (s.wr (portStateF p) 0).portDrop p

/-- No valid frame within 200 µs: training is retried (R555). -/
def State.trainTimeout (s : State) (p : Nat) : State :=
  if s.portState p = 1 ∧ 80000 ≤ s.since (s.port p).since then
    (if p < 8 then s.count (R.WL_CNT2_TRAIN_FAIL p) 1 else s).portMod p fun x => { x with since := s.now }
  else s

/-! ### Joining (R581, R582) -/

/-- The neighbour of a port. -/
def State.peer (s : State) (p : Nat) : Nat := s.rd (portPeerF p)

/-- A TIME_REQ to a chip by a port; t1 enters when its header leaves (R574, R575). -/
def State.timeReq (s : State) (p dst : Nat) : State := s.wwPut p (s.mgmtMsg 2 1 dst false (List.replicate 10 0))

/-- A port reaches MGMT: channels start anew and JOIN_INFO goes out (R555, R559, R581). -/
def State.toMgmt (s : State) (p rxNext : Nat) : State :=
  let n := if p < 8 then 256 else 1024
  let s1 := (s.wrAll [(portStateF p, 2), (portJoinF p, 0)]).portMod p fun x =>
    { x with cred := [n, n, n], owed := [0, 0, 0], rxNext := rxNext % 2 ^ 16, since := s.now, lastGood := s.now, info := [], offset := none }
  s1.wwPut p (s1.mgmtMsg 1 1 0 false s1.joinInfo)

/-- The outcome by the first row that applies (R581). -/
def State.joinCode (s : State) (info : List Byte) (offset : Int) : Nat :=
  let f (o n : Nat) : Nat := leNat ((info.drop o).take n)
  if f 2 2 ≠ s.rd R.WW_GROUP_GROUP_ID then 6
  else if f 0 2 = s.chip then 7
  else if f 8 4 ≠ s.rd R.WW_FWVER_FWVER then 3
  else if f 12 1 ≠ 2 then 4
  else if 1000 < offset.natAbs then 5
  else if f 16 8 ≠ s.fpWord ∨ f 24 4 ≠ s.placeHash ∨ bit (f 13 1) 0 ∨ s.on R.WW_GFLAGS_NON_REPRO then 2
  else 1

/-- The decision, once JOIN_INFO and an exchange are there; a join merges the groups (R581 to R583). -/
def State.joinDecide (s : State) (p : Nat) : State :=
  match (s.port p).offset with
  | some o =>
    let info := (s.port p).info
    if s.portState p ≠ 2 ∨ info = [] then s
    else
      let code := s.joinCode info o
      let s1 := s.wr (portJoinF p) code
      if 2 < code then s1
      else
        let fl := leNat ((info.drop 13).take 1)
        let s2 := (s1.wr (portStateF p) 3).flag (code == 2) R.WW_GFLAGS_NON_REPRO
        let s3 := if bit fl 1 && !s2.groupFault then s2.setGroupFault else s2
        let s4 := if bit fl 2 && !s3.inSafe then (s3.notice 6 []).report 0x08 0 else s3
        s4.leaderStep
  | none => s

/-- JOIN_INFO arrives (R581): it is held, and the exchange of R574 runs. -/
def State.joinGot (s : State) (p : Nat) (data : List Byte) : State :=
  let info := fitBytes 28 data
  let fp := (leNat ((info.drop 16).take 8), leNat ((info.drop 24).take 4))
  let s0 := (s.wr (portPeerF p) (leNat (info.take 2))).portMod p fun x => { x with info := info }
  let s1 : State := { s0 with joinFp := s0.joinFp.set p (some fp) }
  if s1.portState p = 2 then s1.timeReq p (leNat (info.take 2)) else s1

/-! ### Time (R574 to R577) -/

/-- A span of 48-bit times as a signed number. -/
def tdiff (a b : Nat) : Int := sx 48 (ux 48 ((a : Int) - (b : Int)))

/-- A field of a message's data. -/
def dataAt (m : WwMsg) (o n : Nat) : Nat := leNat ((m.data.drop o).take n)

/-- Put a field into a message's data. -/
def dataPut (m : WwMsg) (o n v : Nat) : WwMsg := { m with data := m.data.take o ++ leBytes n v ++ m.data.drop (o + n) }

/-- TIME_REQ arrives: TIME_RSP goes back, t3 entering when its header leaves (R574, R575). -/
def State.timeGot (s : State) (p : Nat) (m : WwMsg) : State :=
  let rsp := s.mgmtMsg 3 1 m.src false (leBytes 6 (dataAt m 0 6) ++ leBytes 6 s.sysTime ++ leBytes 6 0 ++ leBytes 4 (dataAt m 6 4) ++ leBytes 4 0)
  if m.src = s.peer p then s.wwPut p rsp else (s.wwSend rsp).1

/-- TIME_RSP arrives: delay and offset of the neighbour; the group offset where the leader answered (R574, R575, R581,
R586). -/
def State.timeDone (s : State) (p : Nat) (m : WwMsg) : State :=
  let d1 := tdiff (dataAt m 6 6) (dataAt m 0 6) - (dataAt m 18 4 : Int)
  let d2 := tdiff s.sysTime (dataAt m 12 6) - (dataAt m 22 4 : Int)
  let delay := truncDiv (d1 + d2) 2
  let offset := truncDiv (d1 - d2) 2
  let s1 := if m.src = s.peer p then
      ((if p < 8 then s.wr (R.WL_DELAY_LINK_DELAY p) (clampI 0 65535 delay).toNat else s).portMod p fun x => { x with offset := some offset }).joinDecide p
    else s
  if m.src = s1.rd R.WW_GSTAT_LEADER ∧ ¬ s1.isLeader then (s1.wrS R.WW_OFFSET_OFFSET offset).judgeOffset else s1

/-- Every TSYNC_PER µs a port in MGMT or UP sends a TIME_REQ; the port towards the leader also one to the leader. -/
def State.timeTimer (s : State) (p : Nat) : State :=
  if s.portState p < 2 ∨ s.since (s.port p).timeAt < 400 * s.rd R.WW_TSYNC_TSYNC_PER then s
  else
    let s1 := (s.timeReq p (s.peer p)).portMod p fun x => { x with timeAt := s.now }
    let l := s1.rd R.WW_GSTAT_LEADER
    if ¬ s1.isLeader ∧ l ≠ s1.peer p ∧ s1.routePort l 0x20 = some p then s1.timeReq p l else s1

/-- Every SYNC_PER frame times a link sends SYNC; the phase enters when its header leaves (R576). -/
def State.syncSend (s : State) (n : Nat) : State :=
  if s.portState n = 3 ∧ s.on (R.WL_SYNC_SYNC_EN n) ∧ s.rd (R.WL_SYNC_SYNC_PER n) ≠ 0 ∧
      s.rd (R.WL_SYNC_SYNC_PER n) * s.frameTime n ≤ s.since (s.port n).syncAt then
    (s.wwPut n { mtype := 7, cls := 0, src := s.chip, dst := s.peer n, data := List.replicate 16 0 }).portMod n fun x => { x with syncAt := s.now }
  else s

/-- SYNC arrives on a link (R577, R586). -/
def State.syncGot (s : State) (n : Nat) (m : WwMsg) : State :=
  let q := bits (dataAt m 6 1) 4 2
  if 8 ≤ n ∨ q = 0 ∨ s.groupFault then s
  else s.offer 7 n (dataAt m 0 4) ((s.now + 2 ^ 48 - (4 * s.rd (R.WL_DELAY_LINK_DELAY n) + 5) / 10) % 2 ^ 48)

/-! ### Leader (R583, R584) -/

/-- LEADER arrives. -/
def State.leaderGot (s : State) (m : WwMsg) : State :=
  let e := dataAt m 0 2
  let c := dataAt m 2 2
  let fl := dataAt m 4 1
  let s1 := { s with leaderAt := s.now }
  let cur := s1.rd R.WW_GSTAT_LEADER
  if s1.gepoch < e ∨ (e = s1.gepoch ∧ c ≤ cur) then
    let s2 := (s1.setLeader e c).wr R.WW_GFLAGS_NON_REPRO (b2n (bit fl 0))
    if bit fl 1 && !s2.groupFault then s2.setGroupFault else s2
  else s1

/-- Every TSYNC_PER µs the leader broadcasts LEADER (R583). -/
def State.leaderTimer (s : State) : State :=
  if s.isLeader ∧ 400 * s.rd R.WW_TSYNC_TSYNC_PER ≤ s.since s.leaderAt then s.sendLeader else s

/-- No LEADER for 3 × TSYNC_PER µs (R584). -/
def State.leaderTimeout (s : State) : State :=
  if ¬ s.isLeader ∧ 1200 * s.rd R.WW_TSYNC_TSYNC_PER ≤ s.since s.leaderAt then (s.setLeader (s.gepoch + 1) s.chip).sendLeader else s

/-- A LOSS notice arrives (R583, R590, R595). -/
def State.lossNotice (s : State) : State := s.leaderStep.sweepBreak 1

/-- A SAFE notice arrives (R585). -/
def State.safeNotice (s : State) : State := if s.inSafe then s else s.report 0x08 0

/-- FWMSG lands in the queue (R562). -/
def State.fwmsgGot (s : State) (data : List Byte) : State := { s with fwmsgs := s.fwmsgs ++ serWords 16 (data.take 64) }

/-- A read of WW_FWMSG pops. -/
def State.fwmsgRead (s : State) : Nat × State :=
  match s.fwmsgs with
  | [] => (0, s)
  | w :: t => (w, { s with fwmsgs := t })

/-! ### Frames out (R557 to R559, R572, R578 to R580) -/

/-- The initiator ID of a message's sender: a core's, or its context's; 0 for other sources, which have none. -/
def State.postIni (s : State) (src : Nat) : Nat :=
  if postCore src then 0x20 + (src - 0x8000) else if src = 0 then 0 else s.rd (R.SF_CTX_INIT_INIT ((src - 1) / 16) ((src - 1) % 16))

/-- Token and credit messages for chips that a port leads to become TOK messages (R572); while GROUP_FAULT is set they
are answered RETRY, so they wait (R586). -/
def State.tokPack (s : State) (p : Nat) : State :=
  if s.groupFault then s
  else s.msgs.foldl (fun (s : State) m =>
    let c := bits m.1 0 15
    if c = s.chip ∨ s.routePort c (s.postIni m.2) ≠ some p then s
    else match s.freeTag with
    | none => s
    | some t =>
      let s1 := s.wwPut p { mtype := 5, cls := bits m.1 48 2, init := s.postIni m.2, src := s.chip, dst := c, hops := s.rd R.WW_CTRL_HOP_MAX, tag := t,
                            data := leBytes 16 m.1 }
      { s1 with msgs := s1.msgs.erase m, nextTag := (t + 1) % 2048, tokOut := s1.tokOut ++ [⟨t, p, s.sysTime, m⟩] }) s

/-- What enters a message as its header leaves: t1, t3, residence times, the phase of a SYNC (R574 to R577). -/
def State.departing (s : State) (p : Nat) (m : WwMsg) : WwMsg :=
  if m.mtype = 7 then
    let d := s.rd (R.WL_SYNC_DRONE p)
    { m with data := leBytes 4 (s.phase d) ++ leBytes 2 (s.drone d).cyc ++ leBytes 1 (d + s.drnQual d * 16) ++ List.replicate 9 0 }
  else if m.mtype = 8 ∧ m.addr % 256 = 2 then
    if m.src = s.chip then dataPut m 0 6 s.sysTime else dataPut m 6 4 (dataAt m 6 4 + s.sysTime)
  else if m.mtype = 8 ∧ m.addr % 256 = 3 then
    if m.src = s.chip then dataPut m 12 6 s.sysTime else dataPut m 22 4 (dataAt m 22 4 + s.sysTime)
  else m

/-- Place in a port's queue of the message that goes next: class S first, within a class the channels in turn, for which
the credits are held (R559); in MGMT only MGMT messages (R555). -/
def pickMsg (x : PortSt) (mgmt : Bool) : Option (Nat × WwMsg) :=
  let idx := (List.range x.txq.length).zip x.txq
  let ok := if mgmt then idx.filter fun e => e.2.mtype == 8 else idx
  let head (v : Nat) : Option (Nat × WwMsg) :=
    (ok.filter fun e => msgVc e.2.mtype == v).foldl (fun o e =>
      match o with
      | none => some e
      | some b => if e.2.cls < b.2.cls then some e else o) none
  ([x.turn, (x.turn + 1) % 3, (x.turn + 2) % 3].filterMap fun v =>
    match head v with
    | some e => if msgFlits e.2 ≤ x.cred.getD v 0 then some e else none
    | none => none).foldl (fun o e =>
      match o with
      | none => some e
      | some b => if e.2.cls < b.2.cls then some e else o) none

/-- Fill a frame with the messages that fit: the port after it, the messages. -/
def fillFrame (mgmt : Bool) : Nat → Nat → PortSt → List WwMsg → PortSt × List WwMsg
  | 0, _, x, acc => (x, acc)
  | fuel + 1, room, x, acc =>
    match pickMsg x mgmt with
    | none => (x, acc)
    | some (i, m) =>
      if room < msgFlits m then (x, acc)
      else
        let v := msgVc m.mtype
        fillFrame mgmt fuel (room - msgFlits m)
          { x with txq := x.txq.eraseIdx i, cred := x.cred.set v (x.cred.getD v 0 - msgFlits m), turn := (v + 1) % 3 } (acc ++ [m])

/-- The next frame of a port: a replayed one, or a new one; none while the replay buffer is full. -/
def State.nextFrame (s : State) (p : Nat) : State × Option WwFrame :=
  let link := decide (p < 8)
  let x := s.port p
  let dress (x : PortSt) (seq : Nat) (ms : List WwMsg) (keep : Bool) : WwFrame :=
    { seq := seq, ack := (x.rxNext + 2 ^ 16 - 1) % 2 ^ 16, nak := x.nak, keepalive := keep, credits := x.owed, msgs := ms }
  match x.resend with
  | q :: t =>
    match x.unacked.find? fun f => f.1 == q with
    | none => (s.setPort p { x with resend := t }, none)
    | some f =>
      let fr := dress x q f.2.2.2 false
      let y := { x with
        resend := t, unacked := x.unacked.map (fun g => if g.1 = q then (g.1, s.now, g.2.2.1 + 1, g.2.2.2) else g), nak := false,
        owed := [0, 0, 0], sent := some fr, lastSent := s.now }
      ((s.setPort p y).count (if link then R.WL_CNT1_REPLAYS p else R.WT_CNT_RETX (p - 8)) 1, some fr)
  | [] =>
    if (if link then 32 else 64) ≤ x.unacked.length then (s, none)
    else
      let s1 := if s.portState p = 3 then s.tokPack p else s
      let y := s1.port p
      let r := if s.portState p < 2 then (y, []) else fillFrame (s.portState p == 2) 64 (if link then 62 else 92) y []
      let ms := r.2.map (s1.departing p)
      let fr := dress r.1 y.txSeq ms (!link && ms.isEmpty)
      (s1.setPort p { r.1 with
        txSeq := (y.txSeq + 1) % 2 ^ 16, unacked := y.unacked ++ [(y.txSeq, s.now, 0, ms)], nak := false, owed := [0, 0, 0], sent := some fr,
        lastSent := s.now, keep := false }, some fr)

/-- Every frame not acknowledged is to be replayed, in order (R558, R580). -/
def PortSt.replayAll (x : PortSt) : PortSt := { x with resend := x.unacked.map (·.1) }

/-- A frame has gone unacknowledged for 32 frame times, or T_RTX µs (R558, R580). -/
def State.replayTimeout (s : State) (p : Nat) : State :=
  let lim := if p < 8 then 32 * s.frameTime p else 400 * s.rd (R.WT_TIME_T_RTX (p - 8))
  let x := s.port p
  if x.resend = [] ∧ x.unacked.any (fun f => decide (lim ≤ s.since f.2.1)) ∧ 2 ≤ s.portState p then s.setPort p x.replayAll else s

/-- A tunnel port idle for TK µs is to send a KEEPALIVE frame (R580). -/
def State.keepalive (s : State) (p : Nat) : State :=
  if 1 ≤ s.portState p ∧ s.frameTime p ≤ s.since (s.port p).lastSent then s.portMod p fun x => { x with keep := true } else s

end Sys2Proof.Machine
end

