-- ==== Sys2Proof/Machine/LifecycleCore.lean ====
section
/-! DEFINITION. Units leaving and rejoining service: DRAIN, BIST, ADMIT, the reset of a unit's logic
(spec/21_unit_lifecycle.md R718 to R731), and zeroing (R140). -/

namespace Sys2Proof.Machine

/-- The sequencer of a unit (R712). -/
def seqOfUnit (u : Nat) : Option Nat :=
  if u < 0x40 then some u else if 0x60 ≤ u ∧ u < 0x64 then some (u - 0x60 + 0x40) else none

/-- The port a unit is (R712). -/
def portOfUnit (u : Nat) : Option Nat :=
  if 0x68 ≤ u ∧ u < 0x74 then some (u - 0x68) else none

/-- The contexts of a sequencer with an iteration in execution. -/
def State.itersOf (s : State) (q : Nat) : List Nat := (List.range 16).filter fun c => (s.ctx q c).exec

/-- Nothing that a unit has admitted is unanswered, and no iteration of it runs (R713, R718). A port has admitted what
it has to send, has sent and has not seen answered (R735). -/
def State.ledgerEmpty (s : State) (u : Nat) : Bool :=
  match seqOfUnit u, portOfUnit u with
  | some q, _ => (s.itersOf q).isEmpty
  | none, some p =>
    (s.port p).txq.isEmpty && (s.port p).unacked.isEmpty && (s.outst.all fun o => o.port != p) && (s.tokOut.all fun t => t.port != p)
  | none, none => true

/-- Contexts, counters and pools of a sequencer at entry to QUARANTINE (R723). -/
def State.seqReset (s : State) (q : Nat) : State :=
  let b := win q
  let s1 := (List.range 16).foldl (fun s c =>
    let s1 := (s.setCtx q c {}).wrAll [(R.CTX_STAT_STATE b c, 0), (R.CTX_PC_PC b c, 0), (R.CTX_PC_ITER b c, 0)]
    (List.range 16).foldl (fun s k => s.wrAll [(R.TOKCNT_COUNT b c k, 0), (R.TOKCNT_OVF b c k, 0)]) s1) s
  (List.range 32).foldl (fun s p => s.wr (R.POOL_CNT_COUNT b p) 0) s1

/-- A Reed instance goes to OFF with both buffers FREE (R723). -/
def State.reedOff (s : State) (i : Nat) : State :=
  let s1 := (s.reedInvalid i).wrAll [(R.REED_INST_STAT_STATE i, 0), (R.REED_INST_STAT_STANDBY i, 0), (R.REED_INST_CTRL_ENABLE i, 0)]
  s1.setReed i { outs := (s1.reedI i).outs }

/-- The logic of a unit is reset (R723). -/
def State.unitReset (s : State) (u : Nat) : State :=
  let s1 := match seqOfUnit u with
    | some q => s.seqReset q
    | none => s
  let s2 := if u < 0x40 then
      (s1.setTile u { s1.tile u with chain := none }).wrAll [(R.SEL_STAT_CHAIN_HELD u, 0), (R.SEL_STAT_HELD_CTX u, 0)]
    else if 0x60 ≤ u ∧ u < 0x64 then (List.range 12).foldl (fun s k => s.reedOff (12 * (u - 0x60) + k)) s1
    else s1
  match portOfUnit u with
  | some p => s2.portMod p fun x => { x with txq := [], unacked := [], resend := [], keep := false, nak := false, owed := [0, 0, 0] }
  | none => s2

/-- Entry to QUARANTINE. -/
def State.quarantine (s : State) (u : Nat) : State := (s.unitReset u).setUnit u { s.unitSt u with state := 2 }

/-- A command of UL_CMD is refused (R726, R728, R732). -/
def State.ulRej (s : State) (u : Nat) : State := s.setUnit u { s.unitSt u with cmdRej := true }

/-- DRAIN (R718, R732, R737). -/
def State.drain (s : State) (u : Nat) : State :=
  if (s.unitSt u).state ≠ 0 then s.ulRej u
  else match portOfUnit u with
    | some p => (s.drainEnter u 1).sweepPortLost p
    | none => s.drainEnter u 1

/-- BIST (R725, R726). A test that runs cannot be interrupted: a second command is refused. -/
def State.bist (s : State) (u : Nat) : State :=
  let x := s.unitSt u
  if x.state = 2 ∧ x.powered ∧ ¬ x.zeroing ∧ ¬ x.bistRun then
    s.setUnit u { x with bistRun := true, bistPass := false, bistFail := false, zeroed := false, dirty := false }
  else s.ulRej u

/-- The table buffer of a sequencer is zeroed. -/
def State.zeroRows (s : State) (q : Nat) : State :=
  let s1 := s.clearRegs (win q + 0x2000) (rowsOf q * 32)
  { s1 with rowStage := tdrop s1.rowStage (win q + 0x2000) (rowsOf q * 32) }

/-- What a self-test leaves zeroed or empty (R725). -/
def State.bistLeaves (s : State) (u : Nat) : State :=
  let s1 := if u < 0x64 then s.zeroMem u else s
  match seqOfUnit u with
  | some q => s1.zeroRows q
  | none => s1

/-- A self-test of a unit ends, with or without an error (R725, R727). No source of R664 is a unit's own: a failure is
reported as MEM_UE with the unit's code. -/
def State.bistResult (s : State) (u : Nat) (ok : Bool) : State :=
  let s1 := s.bistLeaves u
  let x := s1.unitSt u
  let s2 := s1.setUnit u { x with bistRun := false, bistPass := ok, bistFail := !ok, zeroed := ok && (portOfUnit u).isSome, dirty := false }
  s2.reportIf (!ok) 0x0C u

/-- The requests of a unit that its DRAINING left unanswered. -/
def State.orphans (s : State) (u : Nat) : Nat := (s.outst.filter fun o => o.orphan && o.unit == u).length

/-- ADMIT (R728, R729). -/
def State.admitUnit (s : State) (u : Nat) : State :=
  let x := s.unitSt u
  if x.state = 2 ∧ x.bistPass ∧ x.zeroed ∧ ¬ x.dirty ∧ s.orphans u = 0 ∧ x.powered then
    let e := (x.epoch + 1) % 256
    let s1 := s.setUnit u { x with state := 3, epoch := e, drainCyc := s.now }
    let s2 := match seqOfUnit u with
      | some q => (List.range 32).foldl (fun s p => s.wr (R.POOL_CNT_COUNT (win q) p) (s.rd (R.POOL_INIT_INIT (win q) p))) s1
      | none => s1
    if s.on R.UL_CTRL_GROUP_ADMIT then s2.notice 8 (leBytes 2 s.chip ++ leBytes 1 u ++ leBytes 1 e) else s2
  else s.ulRej u

/-- A write of UL_CMD: CMD 1 DRAIN, 2 BIST, 3 ADMIT; other values and codes that name no unit are ignored (R712, R739). -/
def State.writeUlCmd (s : State) (w : Nat) : State :=
  let u := bits w 0 7
  if !s.isUnit u then s
  else match bits w 8 3 with
    | 1 => s.drain u
    | 2 => s.bist u
    | 3 => s.admitUnit u
    | _ => s

/-- The RETRY window ends 1,024 fabric cycles after entry to DRAINING (R719). -/
def State.retryWindowEnd (s : State) (u : Nat) : State :=
  let x := s.unitSt u
  if x.state = 1 ∧ 409 ≤ s.since x.drainCyc then s.setUnit u { x with retryOver := true } else s

/-- DRAINING ends by an empty ledger (R718). -/
def State.drainComplete (s : State) (u : Nat) : State :=
  if (s.unitSt u).state = 1 ∧ s.ledgerEmpty u then s.quarantine u else s

/-- t_drain in ns (R721). -/
def State.tDrain (s : State) : Nat := 1000 * min 1000 (max 1 (s.rd R.UL_TIME_TDRAIN))

/-- An iteration still in flight ends with POISON (R722 step 1). -/
def State.drainIters (s : State) (q : Nat) : State :=
  (s.itersOf q).foldl (fun s c => (s.complete q c .poison 0).count R.UL_CNT2_POISONED 1) s

/-- What a port has not seen answered ends with POISON (R722 step 2). -/
def State.drainPort (s : State) (p : Nat) : State :=
  let n := (s.outst.filter fun o => o.port == p).length + (s.tokOut.filter fun t => t.port == p).length
  (s.portDrop p).count R.UL_CNT2_POISONED n

/-- t_drain elapses (R722). -/
def State.drainTimeout (s : State) (u : Nat) : State :=
  let x := s.unitSt u
  if x.state = 1 ∧ s.tDrain ≤ tsub s.sysTime x.drainAt then
    let s1 := match seqOfUnit u, portOfUnit u with
      | some q, _ => s.drainIters q
      | none, some p => s.drainPort p
      | none, none => s
    let s2 := { s1 with outst := s1.outst.map fun (o : Outstanding) => if o.unit == u then { o with orphan := true } else o }
    s2.quarantine u
  else s

/-- A self-test that runs ends (R725). -/
def State.bistComplete (s : State) (u : Nat) (ok : Bool) : State :=
  if (s.unitSt u).bistRun then s.bistResult u ok else s

/-- 16 fabric cycles after ADMIT (R729). -/
def State.admittingEnd (s : State) (u : Nat) : State :=
  let x := s.unitSt u
  if x.state = 3 ∧ 6 ≤ s.since x.drainCyc then s.setUnit u { x with state := 0 } else s

/-! ### MEM_ZERO (R140) -/

/-- GO is accepted for a code. -/
def State.zeroAllowed (s : State) (code : Nat) : Bool :=
  if code = 0x64 then !s.on (R.SEQ_CTRL_ENABLE (win 0x44)) && !s.on (R.SEQ_CTRL_ENABLE (win 0x45))
  else decide (code < 0x64) && s.isUnit code && (s.unitSt code).state == 2 && !(s.unitSt code).bistRun && (s.unitSt code).powered

/-- A write of MEM_ZERO with GO set. -/
def State.memZeroGo (s : State) (code : Nat) : State :=
  if s.zeroing ≠ 0 ∨ !s.zeroAllowed code then s.wr R.MEM_ZERO_REJ 1
  else
    let s1 := { (s.wr R.MEM_ZERO_BUSY 1) with zeroing := code + 1 }
    if code = 0x64 then s1
    else s1.setUnit code { s1.unitSt code with zeroing := true }

/-- Zeroing ends: DONE, and ZEROED of a unit (R140, R727). -/
def State.zeroingDone (s : State) : State :=
  match s.zeroing with
  | 0 => s
  | code + 1 =>
    let s1 := { ((s.zeroMem code).wrAll [(R.MEM_ZERO_BUSY, 0), (R.MEM_ZERO_DONE, 1)]) with zeroing := 0 }
    if code = 0x64 then s1
    else
      let x := s1.unitSt code
      s1.setUnit code { x with zeroing := false, zeroed := true, dirty := false }

/-- A write of MEM_ZERO: UNIT, IRQ_EN, DONE and REJ cleared by 1, GO. -/
def State.writeMemZero (s : State) (w : Nat) : State :=
  let s1 := s.wrAll [(R.MEM_ZERO_UNIT, bits w 0 8), (R.MEM_ZERO_IRQ_EN, b2n (bit w 12))]
  let s2 := if bit w 10 then s1.wr R.MEM_ZERO_DONE 0 else s1
  let s3 := if bit w 11 then s2.wr R.MEM_ZERO_REJ 0 else s2
  if bit w 8 then s3.memZeroGo (bits w 0 8) else s3

end Sys2Proof.Machine
end

