-- ==== Sys2Proof/Machine/SafetyCore.lean ====
section
/-! DEFINITION. The safety island: fault collection, the safe state, its pins, safety frames, firewall registers
(spec/20_safety.md). -/

namespace Sys2Proof.Machine

/-! ### Reactions (R664, R665) -/

/-- The lowest reaction of a source. -/
def lowestReaction (src : Nat) : Nat :=
  if src ≤ 0x08 then 2 else if src = 0x09 ∨ (0x2C ≤ src ∧ src ≤ 0x2F) ∨ (0x70 ≤ src ∧ src ≤ 0x77) then 1 else 0

/-- Numbers that name no source. -/
def reservedSource (src : Nat) : Bool := src == 0x1F || 0x78 ≤ src

/-- The reaction by which a source acts: 0 LOG, 1 IRQ, 2 SAFE, 3 STOP. -/
def State.reaction (s : State) (src : Nat) : Nat :=
  let r := bits (s.rd (R.SF_REACT_REACT (src / 16))) (2 * (src % 16)) 2
  if r = 3 then (if 0x60 ≤ src ∧ src ≤ 0x6F then 3 else 2) else max r (lowestReaction src)

/-- The reaction of an assertion with its detail: FEEDBACK and SUB_TIMEOUT of an axis at least IRQ (R665). -/
def State.reactionTo (s : State) (src detail : Nat) : Nat :=
  if 0x10 ≤ src ∧ src ≤ 0x1B ∧ (detail = 3 ∨ detail = 4) then max (s.reaction src) 1 else s.reaction src

/-! ### Pins (R677 to R680) -/

/-- The level of SAFE_N: low in the safe state and once the forcing path has acted. -/
def State.safeN (s : State) : Bool := !s.inSafe && !s.on R.SF_STAT_FORCED

/-- The enable of an STO pin: 0 A, 1 B. -/
def State.stoEn (s : State) (pin : Nat) : Bool := if pin = 0 then s.on R.SF_STO_STO_EN_A else s.on R.SF_STO_STO_EN_B

/-- The level of an STO pin (R678, R679). -/
def State.stoPin (s : State) (pin : Nat) : Bool :=
  s.safeN && s.stoEn pin && (match s.stoPulse with | some q => q.1 != pin | none => true)

/-! ### Safety frames (R683 to R688) -/

def State.sc (s : State) (c : Nat) : ScSt := s.scs.getD c {}
def State.setSc (s : State) (c : Nat) (v : ScSt) : State := { s with scs := s.scs.set c v }

/-- Requests of the safety-frame engine (R661, R690). -/
def scWho : Who := { ini := 0x27, cls := 0, remote := false }

/-- Length of the PDU. -/
def State.scLen (s : State) (c : Nat) : Nat :=
  match s.rd (R.SC_CFG_LEN c) with | 0 => 24 | 1 => 32 | 2 => 48 | _ => 64

/-- First byte of the channel's buffer in the island SRAM. -/
def State.scBuf (s : State) (c : Nat) : Nat := 0x6000000 + 256 * s.rd (R.SC_BUF_OFFSET c)

/-- CRC-32C of a PDU (R685). -/
def scCrc (seed : Nat) (l : List Byte) : Nat := crcLeft 32 0x1EDC6F41 seed (l.map (·.toNat))

/-- The transport lacks SAFETY (R683). -/
def State.scBad (s : State) (c : Nat) : Bool :=
  let i := s.rd (R.SC_CFG_INDEX c)
  !(if s.on (R.SC_CFG_TRANSPORT c) then s.on (R.ETH_CTRL_SAFETY i) else s.on (R.CAN_CTRL_SAFETY i)) ||
    s.rd (R.SC_PERIOD_PERIOD c) == 0 || s.rd (R.SC_RXTMO_RXTMO c) == 0

/-- A write of SC_CFG: RWL fields while the channel is off; EN takes the channel up or is refused (R683). -/
def State.writeScCfg (s : State) (c w : Nat) (open_ : Bool) : State :=
  let was := s.on (R.SC_CFG_EN c)
  let s1 := if open_ && !was then s.wrAll [(R.SC_CFG_TRANSPORT c, bits w 1 1), (R.SC_CFG_INDEX c, bits w 2 2), (R.SC_CFG_LEN c, bits w 4 2),
    (R.SC_CFG_BRS c, bits w 6 1), (R.SC_CFG_VLAN c, bits w 7 1)] else s
  let s2 := s1.wr (R.SC_CFG_VALID_EN c) (bits w 8 1)
  if bit w 0 && !was then
    if s2.scBad c then s2.wr (R.SC_STAT_REJ c) 1
    else (s2.wr (R.SC_CFG_EN c) 1).setSc c { due := (s.now + 400 * s2.rd (R.SC_PERIOD_PERIOD c)) % 2 ^ 48, good := s.now, seq := none }
  else s2.wr (R.SC_CFG_EN c) (bits w 0 1)

/-- The PDU that the engine builds: header, the template's process data, CRC (R684, R685); SEQ advances by one. -/
def State.scPdu (s : State) (c hdr : Nat) (tpl : List Byte) : State × List Byte :=
  let l := s.scLen c
  let seq := (s.rd (R.SC_STAT_TX_SEQ c) + 1) % 2 ^ 16
  let st := b2n s.inSafe + b2n (s.on (R.SC_CFG_VALID_EN c) && !s.inSafe) * 2 + b2n (s.on R.SF_STAT_SAFE_IN) * 4 +
    b2n (s.stoPin 0 && s.stoPin 1) * 8
  let fault := if s.inSafe then s.rd R.SF_CAUSE_SOURCE + s.rd R.SF_CAUSE_DETAIL * 2 ^ 8 else 0
  let body := leBytes 1 (1 + 16 * hdr) ++ leBytes 1 st ++ leBytes 2 (s.rd (R.SC_CONN_TX_CONN c)) ++ leBytes 2 seq ++ leBytes 2 fault ++
    leBytes 6 s.sysTime ++ [0, 0] ++ (tpl.drop 16).take (l - 20)
  (s.wr (R.SC_STAT_TX_SEQ c) seq, body ++ leBytes 4 (scCrc (s.rd (R.SC_TX_SEED_SEED c)) body))

/-- DLC code of a PDU length. -/
def scDlc (l : Nat) : Nat := if l = 24 then 12 else if l = 32 then 13 else if l = 48 then 14 else 15

/-- The frame is queued on CAN, in transmit buffer c mod 2; one still queued is replaced (R686). -/
def State.scCan (s : State) (c : Nat) (pdu : List Byte) : State :=
  let k := s.rd (R.SC_CFG_INDEX c)
  let b := c % 2
  let s1 := if bit (s.rd (R.CAN_TXREQ_REQ k)) b then s.count (R.SC_CNT_TX_LATE c) 1 else s
  let s2 := s1.wrAll [(R.CAN_TXB_ID_ID k b, s.rd (R.SC_ID_ID c)), (R.CAN_TXB_ID_IDE k b, s.rd (R.SC_ID_IDE c)), (R.CAN_TXB_ID_RTR k b, 0),
    (R.CAN_TXB_CTL_DLC k b, scDlc pdu.length), (R.CAN_TXB_CTL_FDF k b, 1), (R.CAN_TXB_CTL_BRS k b, s.rd (R.SC_CFG_BRS c))]
  ((List.range 16).foldl (fun s i => s.wr (R.CAN_TXB_DATA_DATA k b i) (leNat ((pdu.drop (4 * i)).take 4))) s2).canQueue k (2 ^ b)

/-- The frame waits for its Ethernet port; one still waiting is replaced (R686). -/
def State.scEth (s : State) (c : Nat) (hdr pdu : List Byte) : State :=
  let f := hdr ++ pdu
  let f := f ++ List.replicate (60 - f.length) 0
  let s1 := if s.scTx.any fun x => x.1 == c then s.count (R.SC_CNT_TX_LATE c) 1 else s
  { s1 with scTx := (s1.scTx.filter fun x => x.1 != c) ++ [(c, f)] }

/-- The engine builds and queues a frame: 0 cyclic, 1 out of cycle; PERIOD runs from it (R686). A template that cannot be
read gives none. -/
def State.scFrame (s : State) (c hdr : Nat) : State :=
  let s0 := s.setSc c { s.sc c with due := (s.now + 400 * s.rd (R.SC_PERIOD_PERIOD c)) % 2 ^ 48 }
  let n := if s.on (R.SC_CFG_VLAN c) then 18 else 14
  let h := s0.readMem 0x65 (s.scBuf c) n scWho
  let t := h.1.readMem 0x65 (s.scBuf c + 32) (s.scLen c) scWho
  if h.2.1 ≠ .ok ∨ t.2.1 ≠ .ok then t.1
  else
    let p := t.1.scPdu c hdr t.2.2
    if s.on (R.SC_CFG_TRANSPORT c) then p.1.scEth c h.2.2 p.2 else p.1.scCan c p.2

/-- PERIOD has elapsed. -/
def State.scPeriod (s : State) (c : Nat) : State :=
  if s.on (R.SC_CFG_EN c) ∧ s.reached (s.sc c).due then s.scFrame c 0 else s

/-- Out-of-cycle frames of every channel (R686). -/
def State.scNow (s : State) : State :=
  (List.range 8).foldl (fun s c => if s.on (R.SC_CFG_EN c) then s.scFrame c 1 else s) s

/-- A received PDU (R687). -/
def State.scReceive (s : State) (c : Nat) (l : List Byte) : State :=
  if !s.on (R.SC_CFG_EN c) then s
  else
    let n := s.scLen c
    let seq := leNat ((l.drop 4).take 2)
    let good := l.length == n && (l.getD 0 0).toNat % 16 == 1 && leNat ((l.drop 2).take 2) == s.rd (R.SC_CONN_RX_CONN c) &&
      leNat (l.drop (n - 4)) == scCrc (s.rd (R.SC_RX_SEED_SEED c)) (l.take (n - 4)) &&
      (match (s.sc c).seq with | some q => seq == (q + 1) % 2 ^ 16 | none => true)
    if !good then s.count (R.SC_CNT_RX_BAD c) 1
    else
      let s1 := (s.writeMem 0x65 (s.scBuf c + 128) l scWho).1
      let s2 := (s1.writeMem 0x65 (s.scBuf c + 192) (leBytes 6 s.sysTime) scWho).1
      (s2.setSc c { s2.sc c with good := s.now, seq := some seq }).reportIf (bit ((l.getD 1 0).toNat) 0) (0x70 + c) 2

/-- No good PDU for RX_TMO µs (R687). -/
def State.scTimeout (s : State) (c : Nat) : State :=
  if s.on (R.SC_CFG_EN c) ∧ 400 * s.rd (R.SC_RXTMO_RXTMO c) ≤ s.since (s.sc c).good then s.report (0x70 + c) 1 else s

/-! ### The safe state (R669 to R674) -/

/-- Entry to and exit from the safe state interrupt whom SF_CTRL names (R670); SAFE_IRQ shows in GLOBAL_IRQ_STAT. -/
def State.safeEvent (s : State) : State := if s.on R.SF_CTRL_HOST_EVT then s.hqEvent 0 else s

/-- The outputs take their safe levels (R670). -/
def State.safeOutputs (s : State) : State :=
  let s1 := (List.range 12).foldl (fun (s : State) n => (s.axInvalid n 9).bchEval n) s
  ((s1.pcSafe.lightSafe).fifeSafe).writePermit false

/-- The part enters the safe state with a cause (R666, R669, R670, R678); in it already, nothing changes (R703). -/
def State.enterSafe (s : State) (src detail : Nat) : State :=
  if s.inSafe then s
  else
    let s1 := (s.wrAll [(R.SF_STAT_SAFE, 1), (R.SF_CAUSE_SOURCE, src), (R.SF_CAUSE_DETAIL, detail), (R.SF_CAUSE_VALID, 1),
      (R.SF_TIME_LO_TIME, s.sysTime), (R.SF_STO_STO_EN_A, 0), (R.SF_STO_STO_EN_B, 0)]).count R.SF_STAT_ENTRIES 1
    let s2 : State := { s1 with sfTime := s.sysTime, stoPulse := none }
    let s3 := s2.safeOutputs.scNow
    (if src = 0x08 then s3 else s3.notice 6 []).safeEvent

/-- A source of a source with reaction SAFE or STOP is pending (R673). -/
def State.safePending (s : State) : Bool :=
  (List.range 128).any fun j => bit (s.rd (R.SF_PEND_PEND (j / 32))) (j % 32) && decide (2 ≤ s.reaction j)

/-- The part leaves the safe state (R673, R674). -/
def State.exitSafe (s : State) : State :=
  if s.safePending ∨ s.islandHalted ∨ s.sysrst ∨ s.safeInHigh < s.rd R.SF_IN_FILT then s.wr R.SF_STAT_EXIT_REJ 1
  else (((s.wr R.SF_STAT_SAFE 0).lightExit).scNow).safeEvent

/-- A write of SF_EXIT (R673). -/
def State.writeExit (s : State) (w : Nat) : State :=
  let k := w % 2 ^ 16
  let s1 : State := { s with exitKey := if k = 0x5AFE then some s.now else none }
  match s.exitKey with
  | some t => if k = 0xE517 ∧ s.since t ≤ 64 ∧ s.inSafe then s1.exitSafe else s1
  | none => s1

/-! ### Assertions (R662, R666, R667, R682) -/

/-- STOP of a collision source is written to the axes of its monitor (R682). -/
def State.collisionStop (s : State) (m : Nat) : State :=
  (List.range 12).foldl (fun s n => if bit (s.rd (R.CM_AXES_AXES m)) n then s.axStop n true else s) s

/-- A source asserts: its pending bit, and its reaction (R665, R666). -/
def State.assertFault (s : State) (src detail : Nat) : State :=
  let f := R.SF_PEND_PEND (src / 32)
  let s1 := s.wr f (s.rd f ||| 2 ^ (src % 32))
  let r := s1.reactionTo src detail
  let s2 : State := if 1 ≤ r ∧ s1.on R.SF_CTRL_IRQ_EN then { s1 with islandIrq := s1.islandIrq ++ [src] } else s1
  if r = 2 then s2.enterSafe src detail else if r = 3 then s2.collisionStop (src - 0x60) else s2

/-- A reported fault reaches the fault collection. The comparison of the island cores is outside the model: its source
0x00 asserts when the command says so, and halts both cores (R662). -/
def State.faultArrives (s : State) (src detail : Nat) : State :=
  if reservedSource src then s
  else if src = 0 then { s.assertFault 0 detail with islandHalted := true }
  else if s.reports.contains (src, detail) then ({ s with reports := s.reports.erase (src, detail) }).assertFault src detail
  else s

/-- SF_SWFAULT (R667). -/
def State.swFault (s : State) (src : Nat) : State :=
  if src = 0x0F ∨ (0x28 ≤ src ∧ src ≤ 0x2B) then s.report src 0 else s.wr R.SF_STAT_SW_REJ 1

/-! ### Watchdog, clock monitor, STO, SAFE_IN (R668, R676, R679, R680) -/

/-- A write of SF_WDT; the first nonzero WD_MAX enables the watchdog. -/
def State.writeWdt (s : State) (w : Nat) : State :=
  let s1 := s.wrAll [(R.SF_WDT_WD_MIN, bits w 0 16), (R.SF_WDT_WD_MAX, bits w 16 16)]
  if bits w 16 16 ≠ 0 ∧ ¬ s.wdOn then { s1 with wdOn := true, wdKicked := false, wdAt := s.now, wdNext := 0x5A } else s1

/-- A kick (R668). -/
def State.kick (s : State) (v : Nat) : State :=
  if !s.wdOn then s
  else if v ≠ s.wdNext then s.report 0x02 0
  else
    let early := s.wdKicked && decide (s.since s.wdAt < 400 * s.rd R.SF_WDT_WD_MIN)
    ({ s with wdKicked := true, wdAt := s.now, wdNext := 0xFF - s.wdNext } : State).reportIf early 0x02 0

/-- No kick within WD_MAX µs (R668). -/
def State.wdExpiry (s : State) : State :=
  if s.wdOn ∧ 400 * s.rd R.SF_WDT_WD_MAX ≤ s.since s.wdAt then s.report 0x02 0 else s

/-- The forcing path acts (R676): the pins are held until PORST_N. -/
def State.force (s : State) : State :=
  let s1 := ((s.wr R.SF_STAT_FORCED 1).fifeSafe)
  let s2 := (List.range 12).foldl (fun (s : State) n => s.bchEval n) s1
  let s3 := (List.range 4).foldl (fun (s : State) l => if s.on (R.LL_CTRL_EN l) then s.llSend l (bcast 5) else s) s2
  { s3 with stoPulse := none }

/-- A window of 64 oscillator cycles held n control cycles (R676). -/
def State.clockWindow (s : State) (n : Nat) : State :=
  if n < 819 ∨ 1229 < n then (s.report 0x01 0).force else s

/-- An STO pad has read another level than commanded for more than 2 µs (R679). -/
def State.stoMismatch (s : State) (pin : Nat) (level : Bool) : State :=
  if level ≠ s.stoPin pin ∧ s.stoPulse = none then s.report 0x04 0 else s

/-- A test pulse begins: never on both pins (R679); whether the readback showed low within 2 µs. -/
def State.stoTest (s : State) (pin : Nat) (low : Bool) : State :=
  if s.on R.SF_STO_TP_EN ∧ s.stoPin pin ∧ s.stoPulse = none ∧ 400000 * s.rd R.SF_STO_TP_PER ≤ s.since (s.stoLast.getD pin 0) then
    ({ s with stoPulse := some (pin, s.now), stoLast := s.stoLast.set pin s.now } : State).reportIf (!low) 0x04 0
  else s

/-- A test pulse ends after TP_W µs; whether the readback showed high within 2 µs (R679). -/
def State.stoTestEnd (s : State) (pin : Nat) (high : Bool) : State :=
  match s.stoPulse with
  | some (q, t) =>
    if q = pin ∧ 400 * s.rd R.SF_STO_TP_W ≤ s.since t then ({ s with stoPulse := none } : State).reportIf (!high) 0x04 0 else s
  | none => s

/-- A write of SF_STO; the enables stay 0 in the safe state (R678, R706). -/
def State.writeSto (s : State) (w : Nat) : State :=
  let s1 := s.wrAll [(R.SF_STO_TP_EN, bits w 2 1), (R.SF_STO_TP_W, bits w 8 8), (R.SF_STO_TP_PER, bits w 16 8)]
  if s.inSafe then s1 else s1.wrAll [(R.SF_STO_STO_EN_A, bits w 0 1), (R.SF_STO_STO_EN_B, bits w 1 1)]

/-- SAFE_IN_N has had one level for n oscillator cycles (R680). -/
def State.safeIn (s : State) (high : Bool) (n : Nat) : State :=
  let t := s.rd R.SF_IN_FILT
  if high then { (if t ≤ n then s.wr R.SF_STAT_SAFE_IN 0 else s) with safeInHigh := n }
  else
    let s1 : State := { s with safeInHigh := 0 }
    if t ≤ n then (s1.wr R.SF_STAT_SAFE_IN 1).report 0x03 0 else s1

/-! ### Firewall registers (R693 to R697) -/

def State.fwTargetSel (s : State) : Nat := s.rd R.FW_SEL_TARGET
def fwKey (target region : Nat) : Nat := 64 * target + region % 64

/-- The staged region. -/
def State.fwStaged (s : State) : FwRegion :=
  { base := s.rd R.FW_BASE_LO_BASE * 64 + s.rd R.FW_BASE_HI_BASE * 2 ^ 32, limit := s.rd R.FW_LIMIT_LO_LIMIT * 64 + s.rd R.FW_LIMIT_HI_LIMIT * 2 ^ 32,
    init := s.rd64 R.FW_INIT_LO_INIT R.FW_INIT_HI_INIT, en := s.on R.FW_ATTR_EN, rdClass := s.rd R.FW_ATTR_RD_CLASS,
    wrClass := s.rd R.FW_ATTR_WR_CLASS, remoteOk := s.on R.FW_ATTR_REMOTE_OK }

/-- WRITE: the staged region takes effect at once, unless the target is locked. -/
def State.fwWrite (s : State) : State :=
  let t := s.fwTargetSel
  if 0x4C < t ∨ s.fwLocked.contains t then s.wr R.FW_STAT_CMD_REJ 1
  else { s with fw := tset {} s.fw (fwKey t (s.rd R.FW_SEL_REGION)) s.fwStaged }

/-- READ: the selected region goes to the FW_ registers. -/
def State.fwRead (s : State) : State :=
  let t := s.fwTargetSel
  if 0x4C < t then s.wr R.FW_STAT_CMD_REJ 1
  else
    let r := tget {} s.fw (fwKey t (s.rd R.FW_SEL_REGION))
    s.wrAll [(R.FW_BASE_LO_BASE, r.base / 64), (R.FW_BASE_HI_BASE, r.base / 2 ^ 32), (R.FW_LIMIT_LO_LIMIT, r.limit / 64),
      (R.FW_LIMIT_HI_LIMIT, r.limit / 2 ^ 32), (R.FW_INIT_LO_INIT, r.init), (R.FW_INIT_HI_INIT, r.init / 2 ^ 32), (R.FW_ATTR_EN, b2n r.en),
      (R.FW_ATTR_RD_CLASS, r.rdClass), (R.FW_ATTR_WR_CLASS, r.wrClass), (R.FW_ATTR_REMOTE_OK, b2n r.remoteOk)]

/-- ARM: the firewall of the target acts until PORST_N. -/
def State.fwArm (s : State) : State :=
  let t := s.fwTargetSel
  if 0x4C < t ∨ s.fwLocked.contains t then s.wr R.FW_STAT_CMD_REJ 1
  else if s.fwArmed.contains t then s else { s with fwArmed := t :: s.fwArmed }

/-- LOCK: later WRITE and ARM of the target are refused until PORST_N. -/
def State.fwLock (s : State) : State :=
  let t := s.fwTargetSel
  if 0x4C < t then s.wr R.FW_STAT_CMD_REJ 1
  else if s.fwLocked.contains t then s else { s with fwLocked := t :: s.fwLocked }

/-- A write of FW_CMD. -/
def State.writeFwCmd (s : State) (w : Nat) : State :=
  let s1 := if bit w 0 then s.fwWrite else s
  let s2 := if bit w 1 then s1.fwRead else s1
  let s3 := if bit w 2 then s2.fwArm else s2
  if bit w 3 then s3.fwLock else s3

end Sys2Proof.Machine
end

