-- ==== Sys2Proof/Machine/BootCore.lean ====
section
/-! DEFINITION. Power-up, reset and boot (spec/22_startup.md R740 to R773, R826) and the pin banks (spec/24_electrical_package.md
R802 to R804). -/

namespace Sys2Proof.Machine

/-- STAGE (R773). -/
def State.stage (s : State) : Nat := s.rd R.BOOT_STAT_STAGE

/-- A stage is entered. -/
def State.toStage (s : State) (n : Nat) : State := s.wr R.BOOT_STAT_STAGE n

/-- Boot stops with a cause (R743, R773). -/
def State.bootFail (s : State) (cause : Nat) : State := (s.wr R.BOOT_STAT_CAUSE cause).toStage 0xF

/-- CAUSE as BOOT_STAT shows it: NO_REFCLK while CLOCKS waits for the reference (R744). -/
def State.bootCause (s : State) : Nat := if s.stage = 1 ∧ ¬ s.boot.refOk then 1 else s.rd R.BOOT_STAT_CAUSE

/-- The debug port is open (R772). -/
def State.dbgOpen (s : State) : Bool := !s.boot.porst && (!s.boot.fuseA.debugLock || s.boot.dbgOpened)

/-! ### PORST_N and SYSRST_N (R741, R743, R764, R826) -/

/-- The thermal thresholds of temperature code E (R766, R785). -/
def State.thermE (s : State) : State :=
  s.wrAll [(R.BEL_THERM_KNEE, 0x6E), (R.BEL_THERM_OPDN, 0x73), (R.BEL_THERM_SHUT, 0x78)]

/-- What no reset reaches: the queue, the fuses, the levels outside the part, the count of free values. -/
def State.outside (s t : State) : State :=
  { t with
    pending := s.pending
    freeCtr := s.freeCtr
    vok := s.vok
    safeInHigh := s.safeInHigh
    boot := { t.boot with fuseA := s.boot.fuseA, fuseB := s.boot.fuseB, banksLost := s.boot.banksLost } }

/-- PORST_N low resets every block (R741). -/
def State.porstLow (s : State) : State :=
  let t := s.outside State.reset
  ({ t with boot := { t.boot with porst := true } }).wrAll [(R.BOOT_STAT_STAGE, 0), (R.SF_STAT_SAFE_IN, s.rd R.SF_STAT_SAFE_IN)]

/-- PORST_N is released: the mode pins are sampled, CLOCKS starts; the safe state with cause POWERUP is the reset value of
the SAFETY registers (R663, R743, R753, R786). -/
def State.porstHigh (s : State) (mode : Nat) : State :=
  if s.boot.porst then
    ({ s with boot := { s.boot with porst := false } }).wrAll [(R.BOOT_STAT_STAGE, 1), (R.BOOT_STAT_MODE, mode)]
  else s

/-- A register field that SYSRST_N leaves (R778), by its bit address. -/
def keptField (key : Nat) : Bool :=
  let a := key / 8
  (0x40000 ≤ a && a < 0x50000) || (0x10000 ≤ a && a < 0x20000) || a < 0x50 || (0x7000 ≤ a && a < 0x8000) ||
    key == R.SETUP_LOCK_ISL_LOCK.key || (0x800000 ≤ a && (a - 0x800000) % 0x10000 == 0 && key % 8 == 6)

/-- The blocks that SYSRST_N resets take their reset state; the others run on (R764, R778, R826). -/
def State.sysReset (s : State) : State :=
  let t := s.outside State.reset
  { t with
    regs := s.regs.filter fun p => keptField p.1
    mem := s.mem, unknown := s.unknown, lostPages := s.lostPages, ecc := s.ecc
    reports := s.reports, islandIrq := s.islandIrq, aligned := s.aligned, now := s.now, sysAcc := s.sysAcc
    fw := s.fw, fwArmed := s.fwArmed, fwLocked := s.fwLocked
    opChange := s.opChange, vid := s.vid, vidChanged := s.vidChanged
    ctxs := s.ctxs.filter fun p => p.1 / 16 == 0x68
    sfTime := s.sfTime, exitKey := s.exitKey, islandHalted := s.islandHalted
    wdOn := s.wdOn, wdKicked := s.wdKicked, wdAt := s.wdAt, wdNext := s.wdNext, stoPulse := s.stoPulse, stoLast := s.stoLast, scs := s.scs
    boot := { s.boot with header := [], hostGo := false, coresRun := false, mgmtEntry := 0 } }

/-- Requests of the safety island that a reset block had admitted end with POISON (R826). -/
def State.islandPoison (s : State) (os : List Outstanding) : State :=
  if os.any fun o => o.ini == 0x24 || o.ini == 0x27 then { s with answer := { st := .poison } } else s

/-- SYSRST_N low (R764, R826, R663). STAGE returns to INIT where the sequence had come so far (R773). -/
def State.sysrstLow (s : State) : State :=
  if s.boot.porst ∨ s.sysrst then s
  else
    let t := if s.on R.ID_FUSE_TEMP then s.sysReset.thermE else s.sysReset
    let t1 := if s.aligned ∧ s.boot.fusesRead ∧ 3 ≤ s.stage then t.toStage 3 else t
    let t2 := t1.wrAll [(R.BOOT_STAT_VERIFIED, 0), (R.BOOT_STAT_HOST_READY, 0)]
    ({ t2 with sysrst := true }.islandPoison s.outst).enterSafe 0x7D 0

/-- SYSRST_N is released: boot goes on at INIT (R764). -/
def State.sysrstHigh (s : State) : State := { s with sysrst := false }

/-! ### Clocks and fuses (R744 to R749) -/

/-- Four windows in a row have counted reference edges (R744): all PLLs start when each count lies in 96 to 160. -/
def State.refWindows (s : State) (ns : List Nat) : State :=
  if s.stage = 1 ∧ ¬ s.boot.refOk ∧ ¬ s.boot.porst ∧ ns.all (fun n => decide (96 ≤ n ∧ n ≤ 160)) then
    { s with boot := { s.boot with refOk := true } }
  else s

/-- 200 µs after the start of the PLLs: which of the control, fabric, tile and SerDes PLLs have locked (R744, R769). -/
def State.pllLimit (s : State) (locked : List Bool) : State :=
  if s.stage = 1 ∧ s.boot.refOk ∧ ¬ s.aligned then
    let s1 := s.wrAll [(R.CLK_STAT_CTRL_LOCK, b2n (locked.getD 0 false)), (R.CLK_STAT_FAB_LOCK, b2n (locked.getD 1 false)),
      (R.CLK_STAT_TILE_LOCK, b2n (locked.getD 2 false)), (R.CLK_STAT_SERDES_LOCK, b2n (locked.getD 3 false))]
    if locked.all id then s1 else s1.bootFail 2
  else s

/-- The alignment edge (R745, R757): every PLL has locked, time starts, the island's boot ROM starts. -/
def State.align (s : State) : State :=
  if s.stage = 1 ∧ s.boot.refOk ∧ ¬ s.aligned ∧ ¬ s.boot.porst then
    ({ s with aligned := true, now := 0, sysAcc := 0, boot := { s.boot with rom := 1 } }.wrAll
      [(R.CLK_STAT_CTRL_LOCK, 1), (R.CLK_STAT_FAB_LOCK, 1), (R.CLK_STAT_TILE_LOCK, 1), (R.CLK_STAT_SERDES_LOCK, 1)]).toStage 2
  else s

/-- The fuses are bad (R747). -/
def State.fusesBad (s : State) : Bool :=
  let f := s.boot.fuseA
  f != s.boot.fuseB || 3 ≤ f.grade || popcount 64 f.tileMap != 8 * f.grade

/-- The shadow registers of the fuses (R747, R766, R781). -/
def State.shadows (s : State) (f : Fuses) : State :=
  let s1 := s.wrAll [(R.GLOBAL_ID_STEPPING, f.stepping), (R.ID_FUSE_GRADE, f.grade), (R.ID_FUSE_TEMP, b2n f.temp),
    (R.ID_FUSE_ENABLED, 64 - popcount 64 f.tileMap), (R.ID_FUSE_SECURE, b2n f.secure), (R.ID_FUSE_DEBUG_LOCK, b2n f.debugLock),
    (R.ID_FUSE_STARTUP_BIST, b2n f.startupBist), (R.ID_FUSE_HOST_RECOVERY, b2n f.hostRecovery),
    (R.ID_TILE_MAP_LO_TILE_MAP, f.tileMap), (R.ID_TILE_MAP_HI_TILE_MAP, f.tileMap / 2 ^ 32),
    (R.ID_SERIAL_LO_SERIAL, f.serial), (R.ID_SERIAL_HI_SERIAL, f.serial / 2 ^ 32),
    (R.ID_ROLLBACK_LO_ROLLBACK, f.rollback), (R.ID_ROLLBACK_HI_ROLLBACK, f.rollback / 2 ^ 32),
    (R.BOOT_IMG_COUNT, popcount 64 f.rollback)]
  let s2 := (List.range 8).foldl (fun s j => s.wr (R.ID_KEY_HASH_KEY_HASH j) (f.keyHash / 2 ^ (32 * j))) s1
  (List.range 64).foldl (fun s t => s.wr (R.TILE_ID_ENABLED t) (b2n (!bit f.tileMap t))) s2

/-- The fuses are read and checked (R747). -/
def State.readFuses (s : State) : State :=
  if s.stage = 2 then
    if s.fusesBad then s.bootFail 3
    else
      let f := s.boot.fuseA
      let s1 := (s.shadows f).toStage 3
      let s2 := { s1 with boot := { s1.boot with fusesRead := true } }
      if f.temp then s2.thermE else s2
  else s

/-! ### INIT (R750 to R752) -/

/-- The memories that INIT zeroes. -/
def State.initMems (s : State) : List Nat :=
  ((List.range 64).filter fun t => s.tileOn t) ++ (List.range 0x25).map (· + 0x40)

/-- Sequencers, whose table buffers and descriptor stores INIT zeroes. -/
def State.initSeqs (s : State) : List Nat :=
  ((List.range 64).filter fun t => s.tileOn t) ++ [0x40, 0x41, 0x42, 0x43, 0x44, 0x45, 0x48] ++ (List.range 8).map (· + 0x50)

/-- The descriptor store of a sequencer is zeroed. -/
def State.zeroDescs (s : State) (q : Nat) : State := s.clearRegs (win q + 0xC00) 0x200

/-- Zeroing of R750. -/
def State.initZero (s : State) : State :=
  let s1 := s.initMems.foldl (fun s c => s.zeroMem c) s
  s1.initSeqs.foldl (fun s q => (s.zeroRows q).zeroDescs q) s1

/-- The self-test of R751: a unit that fails stays in QUARANTINE. -/
def State.initBist (s : State) (fails : List Nat) : State :=
  let us := (List.range 0x74).filter fun u => s.isUnit u
  let s1 := us.foldl (fun s u =>
    let bad := fails.contains u
    let s1 := s.bistResult u (!bad)
    if bad then s1.setUnit u { s1.unitSt u with state := 2 } else s1) s
  let s2 := s1.zeroMem 0x64
  s2.initSeqs.foldl (fun s q => (s.zeroRows q).zeroDescs q) s2

/-- INIT is over: LOAD by the mode of the pins (R750, R751, R753). -/
def State.initDone (s : State) (fails : List Nat) : State :=
  if s.stage = 3 ∧ ¬ s.sysrst then
    let s1 := if s.on R.ID_FUSE_STARTUP_BIST then s.initBist fails else s.initZero
    match s.rd R.BOOT_STAT_MODE with
    | 0 => { (s1.toStage 4) with boot := { s1.boot with copy := 0, hostBoot := false } }
    | 1 => { (s1.toStage 4) with boot := { s1.boot with copy := 2, hostBoot := true } }
    | _ => s1.bootFail 4
  else s

/-! ### The boot image (R754 to R756, R758) -/

/-- First byte of the Windchests in the direct view. -/
def wcBase : Nat := 0x12000000

/-- First byte and size of the staging area (R758). -/
def stageBase : Nat := 0x1800000
def stageSize : Nat := 0x800000

/-- A segment (R755): OFS, LEN, DEST, ISL_DEST, KIND. -/
structure Segment where
  ofs : Nat
  len : Nat
  dest : Nat
  isl : Nat
  kind : Nat
  deriving DecidableEq, Repr

/-- Segment i of a header. -/
def segAt (h : List Byte) (i : Nat) : Segment :=
  { ofs := pb h (128 + 16 * i) 4, len := pb h (132 + 16 * i) 4, dest := pb h (136 + 16 * i) 4,
    isl := pb h (140 + 16 * i) 3, kind := pb h (143 + 16 * i) 1 }

/-- The segments of a header. -/
def segsOf (h : List Byte) : List Segment := (List.range (pb h 6 1)).map (segAt h)

/-- A segment's fields lie in their ranges, within 32 MB, and an ISLAND segment in the island SRAM. -/
def segOk (g : Segment) : Bool :=
  g.ofs % 64 == 0 && 512 ≤ g.ofs && g.len % 64 == 0 && 64 ≤ g.len && g.len ≤ 0x1000000 && g.dest % 64 == 0 &&
    1 ≤ g.kind && g.kind ≤ 3 && g.dest + g.len ≤ 0x2000000 && g.ofs + g.len ≤ 0x2000000 &&
    (g.kind != 2 || (g.isl % 4 == 0 && g.isl + g.len ≤ 0x100000))

/-- Two spans share a byte. -/
def overlaps (a n b m : Nat) : Bool := decide (a < b + m) && decide (b < a + n)

/-- No two segments of a list overlap at their destinations. -/
def segsApart : List Segment → Bool
  | [] => true
  | g :: t => t.all (fun k => !overlaps g.dest g.len k.dest k.len) && segsApart t

/-- An entry of the management cores lies in a MGMT segment, by either view of the Windchests. -/
def mgmtEntryOk (gs : List Segment) (e : Nat) : Bool :=
  match placeOf e with
  | .memory _ p => gs.any fun g => g.kind == 1 && decide (wcBase + g.dest ≤ p) && decide (p < wcBase + g.dest + g.len)
  | _ => false

/-- The header passes the checks of CAUSE FORMAT (R755). -/
def headerOk (h : List Byte) : Bool :=
  let gs := segsOf h
  h.length == 512 && pb h 0 4 == 0x4C45564D && pb h 4 2 == 1 && 1 ≤ pb h 6 1 && pb h 6 1 ≤ 8 && zeros h 7 1 && pb h 8 4 ≤ 64 &&
    zeros h 12 4 && zeros h 28 36 && zeros h 320 192 && zeros h (128 + 16 * pb h 6 1) (128 - 16 * pb h 6 1) &&
    gs.all segOk && segsApart gs && (gs.filter fun g => g.kind == 2).length == 1 && gs.any (fun g => g.kind == 1) &&
    mgmtEntryOk gs (pb h 16 8) &&
    gs.any fun g => g.kind == 2 && g.isl ≤ pb h 24 4 && decide (pb h 24 4 < g.isl + g.len)

/-- A bank that a segment's destination touches is in QUARANTINE, or the staging area that the image is loaded from is
touched (R755, R758). -/
def State.segBank (s : State) (host : Bool) (g : Segment) : Bool :=
  ((List.range 32).any fun b => overlaps g.dest g.len (0x100000 * b) 0x100000 && (s.unitSt (0x40 + b)).state == 2) ||
    (host && overlaps g.dest g.len stageBase stageSize)

/-- The copy fails with a cause: the backup is tried, or the host, or boot stops (R754, R758). -/
def State.copyFail (s : State) (cause : Nat) : State :=
  let s1 := s.wr R.BOOT_STAT_CAUSE cause
  match s.boot.copy with
  | 0 => { (s1.toStage 4) with boot := { s1.boot with copy := 1, header := [] } }
  | 1 =>
    if s.on R.ID_FUSE_HOST_RECOVERY then
      { (s1.toStage 8) with boot := { s1.boot with copy := 2, header := [], hostBoot := true, hostGo := false } }
    else s1.toStage 0xF
  | _ => { (s1.toStage 8) with boot := { s1.boot with header := [], hostGo := false } }

/-- The boot sequencer's requests (R690). -/
def bootWho : Who := { ini := 0x3E, cls := 1, remote := false }

/-- Put bytes of a multiple of 64 into a Windchest, line by line, n lines. -/
def State.bootPut : Nat → State → Nat → List Byte → State
  | 0, s, _, _ => s
  | n + 1, s, o, l => State.bootPut n (s.writeMem (0x40 + o / 0x100000) (wcBase + o) (l.take 64) bootWho).1 (o + 64) (l.drop 64)

/-- The segments go to their destinations (R754). -/
def State.loadSegs (s : State) (img : List Byte) : List Segment → State
  | [] => s
  | g :: t => (State.bootPut (g.len / 64) s g.dest ((img.drop g.ofs).take g.len)).loadSegs img t

/-- LOAD of one copy: what the flash gave (none for a read error or a missing SFDP table), or the staged image
(R754, R755, R758). -/
def State.loadImage (s : State) (flash : Option (List Byte)) : State :=
  let host := s.boot.copy == 2
  if s.stage = 4 ∧ ¬ s.sysrst ∧ (host → s.boot.hostGo) then
    match (if host then some (s.getBytes (wcBase + stageBase) stageSize) else flash) with
    | none => s.copyFail 5
    | some img =>
      let h := img.take 512
      let gs := segsOf h
      if h.length < 512 then s.copyFail 5
      else if !headerOk h then s.copyFail 6
      else if gs.any (s.segBank host) then s.copyFail 10
      else if gs.any fun g => decide (img.length < g.ofs + g.len) then s.copyFail 5
      else { ((s.loadSegs img gs).toStage 5) with boot := { s.boot with header := h } }
  else s

/-- The bytes that the digest covers (R756). -/
def State.bootBytes (s : State) : List Byte :=
  s.boot.header.take 256 ++ (segsOf s.boot.header).foldl (fun l g => l ++ s.getBytes (wcBase + g.dest) g.len) []

/-- The first check of VERIFY that fails (R756), 0 for none. -/
def State.verifyCode (s : State) (digest : List Byte) : Nat :=
  let h := s.boot.header
  let key := (h.drop 64).take 64
  let keyHash := (List.range 8).foldl (fun a j => a + s.rd (R.ID_KEY_HASH_KEY_HASH j) * 2 ^ (32 * j)) 0
  if s.on R.ID_FUSE_SECURE ∧ leNat (sha256 key) ≠ keyHash then 7
  else if s.on R.ID_FUSE_SECURE ∧ !ecdsaVerify (beNat (key.take 32), beNat (key.drop 32)) digest (beNat ((h.drop 256).take 32))
      (beNat ((h.drop 288).take 32)) then 8
  else if pb h 8 4 < s.rd R.BOOT_IMG_COUNT then 9
  else 0

/-- VERIFY of the loaded copy (R756). -/
def State.verifyImage (s : State) : State :=
  if s.stage = 5 ∧ ¬ s.sysrst then
    let d := sha256 s.bootBytes
    let s1 := (List.range 8).foldl (fun s j => s.wr (R.BOOT_DIGEST_DIGEST j) (pb d (4 * j) 4)) s
    match s.verifyCode d with
    | 0 => (s1.wrAll [(R.BOOT_STAT_VERIFIED, 1), (R.BOOT_STAT_SRC, s.boot.copy), (R.BOOT_IMG_ROLLBACK, pb s.boot.header 8 4)]).toStage 6
    | c => s1.copyFail c
  else s

/-- BOOT_DATA takes words of the image: HOSTWAIT, or LOAD of HOST mode before HOST_GO (R758, R770). -/
def State.staging (s : State) : Bool := s.stage == 8 || (s.stage == 4 && s.boot.copy == 2 && !s.boot.hostGo)

/-- A write of BOOT_DATA (R758, R770); words past the staging area are ignored too. -/
def State.bootWord (s : State) (w : Nat) : State :=
  let n := s.rd R.BOOT_WORDS_WORDS
  if s.staging ∧ n < stageSize / 4 then
    let a := stageBase + 4 * n
    ((s.writeMem (0x40 + a / 0x100000) (wcBase + a) (leBytes 4 w) bootWho).1).wr R.BOOT_WORDS_WORDS (n + 1)
  else s.count R.BOOT_STAT_DATA_IGN 1

/-- HOST_GO (R758, R770). -/
def State.hostGoCmd (s : State) : State :=
  if s.staging then { (s.toStage 4) with boot := { s.boot with copy := 2, hostGo := true } } else s.wr R.BOOT_STAT_GO_REJ 1

/-! ### The safety island's start (R757) -/

/-- The boot ROM has zeroed the island SRAM; whether every word passed its check. -/
def State.islandZeroed (s : State) (ok : Bool) : State :=
  if s.boot.rom = 1 then
    if ok then { (s.zeroMem 0x65) with boot := { s.boot with rom := 2 } } else s.bootFail 11
  else s

/-- The ISLAND segment of the verified image. -/
def State.islandSeg (s : State) : Option Segment := (segsOf s.boot.header).find? fun g => g.kind == 2

/-- The ISLAND segment is copied once the image is verified. -/
def State.islandCopy (s : State) : State :=
  match s.islandSeg with
  | some g =>
    if s.boot.rom = 2 ∧ s.on R.BOOT_STAT_VERIFIED then
      let s1 := s.putBytes ((memRange 0x65).1 + g.isl) (s.getBytes (wcBase + g.dest) g.len)
      { s1 with boot := { s.boot with rom := 3 } }
    else s
  | none => s

/-- The island firmware starts at I_ENTRY. -/
def State.islandStart (s : State) : State :=
  if s.boot.rom = 3 then { s with boot := { s.boot with rom := 4, islandEntry := pb s.boot.header 24 4 } } else s

/-! ### BOOT_CTRL (R759, R762, R772) -/

/-- MGMT_GO: the four cores start, and the Bellows begins its first change (R759). -/
def State.mgmtGoCmd (s : State) : State :=
  if !s.on R.BOOT_STAT_VERIFIED then s.wr R.BOOT_STAT_GO_REJ 1
  else if s.stage = 6 then
    let s1 := { (s.toStage 7) with boot := { s.boot with coresRun := true, mgmtEntry := pb s.boot.header 16 8 } }
    s1.opTarget (s1.rd R.CLK_OP_OP_TGT)
  else s

/-- A write of BOOT_CTRL that passed the fixed rule on MGMT_GO (R759): HOST_READY is the management cores', DBG_UNLOCK the
island's, others' are ignored (R763, R772, R773). -/
def State.writeBootCtrl (s : State) (ini w : Nat) : State :=
  let s1 := if bit w 0 ∧ ini = 0x24 then s.mgmtGoCmd else s
  let s2 := if bit w 1 ∧ 0x20 ≤ ini ∧ ini ≤ 0x23 then s1.wr R.BOOT_STAT_HOST_READY 1 else s1
  let s3 := if bit w 2 then s2.hostGoCmd else s2
  if bit w 3 ∧ ini = 0x24 then { s3 with boot := { s3.boot with dbgOpened := true } } else s3

/-! ### The endpoint at start, the debug port, the pin banks (R762, R772, R803, R804) -/

/-- The endpoint may train (R762). -/
def State.pcieMay (s : State) : Bool :=
  !s.sysrst && !s.boot.porst && s.on R.CLK_STAT_SERDES_LOCK &&
    (s.stage == 7 || s.stage == 8 || (s.stage == 4 && s.boot.copy == 2))

/-- The link has trained (R762). -/
def State.pcieTrain (s : State) : State := if s.pcieMay then { s with pcieUp := true } else s

/-- The endpoint shows the PF alone, and BAR0 only the BOOT registers (R758, R762). -/
def State.pfAlone (s : State) : Bool := s.boot.hostBoot && !s.on R.BOOT_STAT_HOST_READY

/-- A configuration request to a function: Configuration Request Retry Status as RETRY, Unsupported Request as
NACK_ABSENT (R762). -/
def State.configRequest (s : State) (fn : Nat) : State :=
  if !s.pcieUp then s
  else s.answered
    (if s.on R.BOOT_STAT_HOST_READY then .ok
     else if s.boot.hostBoot then (if fn = 0 then .ok else .nackAbsent)
     else .retry) 0

/-- Program one fuse word of one of the two copies: a fuse only goes from 0 to 1 (R747, R748). -/
def Fuses.program (f : Fuses) (field v : Nat) : Fuses :=
  match field with
  | 0 => { f with grade := f.grade ||| v % 4 }
  | 1 => { f with temp := f.temp || bit v 0 }
  | 2 => { f with stepping := f.stepping ||| v % 16 }
  | 3 => { f with tileMap := f.tileMap ||| v % 2 ^ 64 }
  | 4 => { f with serial := f.serial ||| v % 2 ^ 64 }
  | 5 => { f with keyHash := f.keyHash ||| v % 2 ^ 256 }
  | 6 => { f with secure := f.secure || bit v 0 }
  | 7 => { f with rollback := f.rollback ||| v % 2 ^ 64 }
  | 8 => { f with debugLock := f.debugLock || bit v 0 }
  | 9 => { f with startupBist := f.startupBist || bit v 0 }
  | _ => { f with hostRecovery := f.hostRecovery || bit v 0 }

/-- A bank leaves its range (R804): its inputs read 0. -/
def State.bankLoss (s : State) (b : Nat) : State :=
  let s1 := { s with boot := { s.boot with banksLost := b :: s.boot.banksLost.filter (· != b) } }
  match b with
  | 2 => { s1 with fioLv := 0 }
  | 3 => s1.safeIn false (s1.rd R.SF_IN_FILT)
  | _ => s1

/-- A bank is back in its range (R803). -/
def State.bankReturn (s : State) (b : Nat) : State :=
  { s with boot := { s.boot with banksLost := s.boot.banksLost.filter (· != b) } }

end Sys2Proof.Machine
end

