-- ==== Sys2Proof/Machine/RegRules.lean ====
section
/-! DEFINITION. The rules that every register access meets: which register lies at an address, when an RWL field takes a
write, which registers answer while SYSRST_N is low, the fixed rules on writers (spec/23_register_map.md R774 to R778,
R782, R794; spec/20_safety.md R691, R694, R695; the chapters named). -/

namespace Sys2Proof.Machine

/-- A register found by its address: its description, its copy numbers, the sequencer or sink whose window it lies in. -/
structure RegHit where
  d : RegDesc
  ix : List Nat
  unit : Option Nat
  deriving Repr

/-- The register tables of a sequencer window or of a sink window (R108). -/
def windowRegs (u : Nat) : List RegDesc := if isSeq u then seqRegs ++ tokRegs ++ rowRegs else tokRegs ++ sinkRegs

/-- The register at an address of the register space (R774, R775). -/
def regFind (a : Nat) : Option RegHit :=
  match unitOfAddr a with
  | some u =>
    if !(isSeq u || isSink u) || decide (a < win u) then none
    else match findReg (windowRegs u) (a - win u) with
      | some (d, l) => if d.base = 0x2000 ∧ rowsOf u ≤ l.headD 0 then none else some { d := d, ix := l, unit := some u }
      | none => none
  | none => (findReg (regBlock a) a).map fun p => { d := p.1, ix := p.2, unit := none }

def RegHit.i (h : RegHit) : Nat := h.ix.getD 0 0
def RegHit.j (h : RegHit) : Nat := h.ix.getD 1 0
def RegHit.k (h : RegHit) : Nat := h.ix.getD 2 0

/-- The tile whose register block an address lies in. -/
def tileOfReg (a : Nat) : Option Nat := if 0x800000 ≤ a ∧ a < 0xC00000 then some ((a - 0x800000) / 0x10000) else none

/-- An address of the SAFETY block (R782). -/
def inSafety (a : Nat) : Bool := 0x40000 ≤ a && a < 0x50000

/-- RWL fields of the register at an address take a write (R776, R782, and the conditions of the chapters: R683, R355,
R315, R358, R385, R417, R599, R632). -/
def State.rwlOpen (s : State) (a : Nat) (h : RegHit) : Bool :=
  if inSafety a then s.islUnlocked && (!(0x40400 ≤ a && a < 0x40600) || !s.on (R.SC_CFG_EN h.i))
  else s.unlocked && (
    if 0x100000 ≤ a && a < 0x10C000 then s.axOpen h.i
    else if 0x10C000 ≤ a && a < 0x10F000 then s.sdMode h.i != 1 || s.axOpen (s.sdAxis h.i)
    else if 0x120800 ≤ a && a < 0x121800 then !s.on (R.SP_CFG_ENABLE h.i)
    else if 0x121800 ≤ a && a < 0x121840 then !s.on (R.INJ_GRP_CTRL_ACTIVE h.i)
    else if 0x122000 ≤ a && a < 0x122400 then !s.on (R.INJ_STAT_ACTIVE h.i)
    else if 0x122400 ≤ a && a < 0x122600 then !s.on (R.CAP_CFG_ENABLE h.i)
    else if 0x160000 ≤ a && a < 0x160100 then s.pcmState h.i == 0
    else if 0x160100 ≤ a && a < 0x160500 then s.pcState h.i == 0
    else if 0x171000 ≤ a && a < 0x180000 then s.llState h.i == 0
    else if 0x300040 ≤ a && a < 0x300400 then s.portState h.i == 0
    else if 0x300400 ≤ a && a < 0x300700 then s.portState (8 + h.i) == 0
    else if 0x310000 ≤ a && a < 0x314000 then !s.on (R.ETH_CTRL_EN h.i)
    else if 0x320000 ≤ a && a < 0x324000 then !s.on (R.CAN_CTRL_EN h.i)
    else if 0x330000 ≤ a && a < 0x332000 then !s.on (R.CSI_CTRL_EN h.i)
    else true)

/-- Registers that R778 keeps answer while SYSRST_N is low (R794). -/
def keptReg (a : Nat) : Bool :=
  inSafety a || (0x10000 ≤ a && a < 0x20000) || a < 0x50 || a == 0x54 || (0x7000 ≤ a && a < 0x8000) ||
    (0x314000 ≤ a && a < 0x314008) || (0x184008 ≤ a && a < 0x184010)

/-- A write of SAFETY that every core may make: SF_SWFAULT (R667, R695). -/
def swFaultMay (w : Who) : Bool := 0x20 ≤ (w.ini : Nat) && (w.ini : Nat) ≤ 0x24

/-- The registers of a field ring or filter that the safety island owns (R613, R614). -/
def State.fieldOwned (s : State) (a : Nat) : Bool :=
  if 0x310000 ≤ a ∧ a < 0x314000 then
    let p := (a - 0x310000) / 0x1000
    let o := a % 0x1000
    s.on (R.ETH_CTRL_SAFETY p) && ((0x120 ≤ o && o < 0x140) || (0x4E0 ≤ o && o < 0x500) ||
      (0x500 ≤ o && o < 0x600 && s.frSafety (ethRxRing p ((o - 0x500) / 0x20))))
  else if 0x320000 ≤ a ∧ a < 0x324000 then
    let c := (a - 0x320000) / 0x1000
    let o := a % 0x1000
    s.on (R.CAN_CTRL_SAFETY c) && ((0x20 ≤ o && o < 0x38) || (0x100 ≤ o && o < 0x110) || (0x400 ≤ o && o < 0x4A0))
  else false

/-- The fixed rules refuse a register write (R235, R298, R613, R614, R695, R759). -/
def State.regRuleRefuses (s : State) (a word : Nat) (w : Who) : Bool :=
  if a = 0x4001C then !(swFaultMay w) || w.remote
  else if inSafety a then !(islandIni w)
  else if a = 0x121840 ∨ (0x140100 ≤ a ∧ a < 0x140D00 ∧ (a - 0x140100) % 0x40 = 0x18) then !(islandIni w)
  else if a = 0x7004 then bit word 0 && ((w.ini : Nat) != 0x24 || w.remote)
  else s.fieldOwned a && !(islandIni w)

end Sys2Proof.Machine
end

