-- ==== Sys2Proof/Machine/RegWrite.lean ====
section
/-! DEFINITION. What a register write does once the rules of access let it through: the access codes of R16 for a register
whose fields only hold values, and the actions of the chapters for the others (spec/23_register_map.md R776, R785). -/

namespace Sys2Proof.Machine

/-- A write of a register whose fields act by their access codes alone (R16, R776). -/
def State.plainWrite (s : State) (a : Nat) (h : RegHit) (word : Nat) : State :=
  s.writeFields a h.i word (s.rwlOpen a h) h.d.fields

/-- Do something when a written bit is 1. -/
def State.when (s : State) (c : Bool) (f : State → State) : State := if c then f s else s

/-- MEM_CNT_CLR (R149). -/
def State.memCntClr (s : State) : State :=
  s.wrAll [(R.MEM_CNT1_CE_CNT, 0), (R.MEM_CNT1_UE_CNT, 0), (R.MEM_CNT2_POISON_CNT, 0), (R.MEM_CNT2_MAP_CNT, 0)]

/-- TILE_CNT_CLR (R187). -/
def State.tileCntClr (s : State) (t : Nat) : State := s.setTile t { s.tile t with macBusy := 0, vecBusy := 0 }

/-- CNT_CLR of SEL_CTRL (R203). -/
def State.selCntClr (s : State) (t : Nat) : State := s.wr (R.SEL_PASSES_PASSES t) 0

/-- A write of SETUP_LOCK: LOCK, and ISL_LOCK from initiator 0x24 (R782). -/
def State.writeSetupLock (s : State) (w : Who) (word : Nat) : State :=
  (s.flag (bit word 0) R.SETUP_LOCK_LOCK).flag (bit word 1 && (w.ini : Nat) == 0x24 && !w.remote) R.SETUP_LOCK_ISL_LOCK

/-- GLOBAL (R780 to R782; R149, R660, R739, R773). -/
def State.writeGlobal (s : State) (w : Who) (a : Nat) (h : RegHit) (word : Nat) : State :=
  match a with
  | 0x50 => if s.unlocked then s.writeRepro (bits word 0 1) else s
  | 0x54 => s.writeSetupLock w word
  | 0x4030 => s.when (bit word 0) State.memCntClr
  | 0x4050 => s.writeMemZero word
  | 0x5030 => { s with stepStage := word % 2 ^ 32 }
  | 0x5034 => s.writeStepHi word
  | 0x5038 => s.when (bit word 0) State.stepAdv
  | 0x5040 => s.genWrite R.RP_GEN_STEP_LO_STEP word false
  | 0x5044 => s.genWrite R.RP_GEN_STEP_HI_STEP word false
  | 0x5048 => s.genWrite R.RP_GEN_IDX_LO_IDX word false
  | 0x504C => s.genWrite R.RP_GEN_IDX_HI_IDX word true
  | 0x5080 => s.writeLsCtrl word s.unlocked
  | 0x6004 => s.writeUlCmd word
  | 0x600C =>
    let u := s.rd R.UL_SEL_UNIT
    if bit word 14 && (s.unitSt u).cmdRej then s.setUnit u { s.unitSt u with cmdRej := false } else s
  | 0x7004 => s.writeBootCtrl (if w.remote then 0x3F else w.ini) word
  | 0x7008 => s.bootWord word
  | _ => s.plainWrite a h word

/-- CLOCKS and BELLOWS (R504, R505, R507, R516). -/
def State.writeBellows (s : State) (a : Nat) (h : RegHit) (word : Nat) : State :=
  match h.d.base with
  | 0x10004 => s.writeClkOp word
  | 0x20000 => s.writeBelCtrl word
  | 0x20030 => s.writePwrDn h.i word
  | 0x20040 => s.writePwrMisc word
  | _ => s.plainWrite a h word

/-- DRONES (R60, R69, R73, R824). -/
def State.writeDrones (s : State) (a : Nat) (h : RegHit) (word : Nat) : State :=
  match h.d.base with
  | 0x30000 => s.writeDrnCtrl h.i word s.unlocked
  | 0x30074 => s.writeDrnStat h.i word
  | 0x30200 => s.writeEvPhase h.i h.j word
  | 0x30204 => s.writeEvCtrl h.i h.j word
  | _ => s.plainWrite a h word

/-- Pending bits written 1 clear; SAFE_IN_N still low keeps its bit (R665, R680). -/
def State.writePend (s : State) (a : Nat) (h : RegHit) (word : Nat) : State :=
  let s1 := s.plainWrite a h word
  if h.i = 0 ∧ s.on R.SF_STAT_SAFE_IN ∧ bit (s.rd (R.SF_PEND_PEND 0)) 3 then s1.wr (R.SF_PEND_PEND 0) (s1.rd (R.SF_PEND_PEND 0) ||| 8) else s1

/-- A write of SF_CTX_INIT: the IDs of the island, the Chanter's and latch bank's writers and the scrubber are ignored
(R691). -/
def State.writeCtxInit (s : State) (u c word : Nat) : State :=
  let v := bits word 0 6
  if (0x24 ≤ v ∧ v ≤ 0x27) ∨ v = 0x3F then s else s.wr (R.SF_CTX_INIT_INIT u c) v

/-- SAFETY (R666 to R668, R673, R678, R683, R691, R695, R711). -/
def State.writeSafety (s : State) (a : Nat) (h : RegHit) (word : Nat) : State :=
  match h.d.base with
  | 0x40008 => s.when (bit word 0) fun s => s.enterSafe 0x7C 0
  | 0x4000C => s.writeExit (bits word 0 16)
  | 0x4001C => s.swFault (bits word 0 7)
  | 0x40020 => s.writeSto word
  | 0x40028 => s.writeWdt word
  | 0x4002C => s.kick (bits word 0 8)
  | 0x40040 => s.writePend a h word
  | 0x40120 => s.writeFwCmd word
  | 0x40400 => s.writeScCfg h.i word s.islUnlocked
  | 0x42000 => s.writeCtxInit h.i h.j word
  | _ => s.plainWrite a h word

/-- A write of AX_SYNC_GO sets PWM_EN of every axis named (R319). -/
def State.syncGo (s : State) (mask : Nat) : State :=
  (List.range 12).foldl (fun s n => if bit mask n then s.pwmEn n true else s) s

/-- AXES (R319, R325, R333, R355). -/
def State.writeAxes (s : State) (a : Nat) (h : RegHit) (word : Nat) : State :=
  match h.d.base with
  | 0x100000 => s.writeAxCtrl h.i word
  | 0x100020 => s.writeCmp h.i h.j (bits word 0 20)
  | 0x100088 => (s.plainWrite a h word).when (bit word 12) fun s => s.axMod h.i fun x => { x with armed := true }
  | 0x10F000 => s.syncGo word
  | _ => s.plainWrite a h word

/-- A write of INJ_GRP_CTRL: SWEEP, then GO, STOP, ABORT (R299, R301). -/
def State.writeInjGrp (s : State) (a : Nat) (h : RegHit) (word : Nat) : State :=
  (((s.plainWrite a h word).when (bit word 0) fun s => s.injGo h.i).when (bit word 1) fun s => s.injStop h.i).when (bit word 2) fun s => s.injAbort h.i

/-- CHANTER (R251, R272 to R275, R282, R296 to R304). -/
def State.writeChanter (s : State) (w : Who) (a : Nat) (h : RegHit) (word : Nat) : State × Status :=
  match h.d.base with
  | 0x120000 => (s.writeChnCtrl word, .ok)
  | 0x120010 => ({ s with cwqSel := tset 0 s.cwqSel w.ini (word % 2 ^ 18) }, .ok)
  | 0x120014 => s.cwqWrite w.ini word
  | 0x120018 => let s1 := s.wr R.CHN_CWQ_CTRL_SLOT word; (s1.when (bit word 7) fun s => s.cwqFlush (bits word 0 7), .ok)
  | 0x120100 => (s.writeLaneList 0 h.i word, .ok)
  | 0x120180 => (s.writeLaneList 1 h.i word, .ok)
  | 0x120400 => (s.slotEnable h.i (bit word 0), .ok)
  | 0x120800 => (s.writeSpCfg h.i word, .ok)
  | 0x120824 => (s.writeSpHost h.i word, .ok)
  | 0x121800 => (s.writeInjGrp a h word, .ok)
  | 0x121840 => (s.writePermit (bit word 0), .ok)
  | 0x122400 => (s.writeCapCfg h.i word, .ok)
  | _ => (s.plainWrite a h word, .ok)

/-- REED (R233, R235, R236, R248). -/
def State.writeReed (s : State) (a : Nat) (h : RegHit) (word : Nat) : State :=
  match h.d.base with
  | 0x140100 => s.writeReedCtrl h.i word s.unlocked
  | 0x140108 => s.writeReedBuf h.i word false
  | 0x14010C => s.writeReedBuf h.i word true
  | 0x140118 => s.writeApprove h.i word
  | _ => s.plainWrite a h word

/-- PHASECUT (R358, R375, R379, R386). -/
def State.writePhaseCut (s : State) (a : Nat) (h : RegHit) (word : Nat) : State :=
  match h.d.base with
  | 0x160000 => s.writePcmCtrl h.i word
  | 0x160100 => s.writePcCtrl h.i word
  | 0x160108 => s.writePcCmd h.i (bits word 0 16)
  | _ => s.plainWrite a h word

/-- LIGHT (R397, R411, R412, R787). -/
def State.writeLight (s : State) (a : Nat) (h : RegHit) (word : Nat) : State :=
  match h.d.base with
  | 0x170000 => s.when (bit word 0) State.llCntClr
  | 0x171000 => s.writeLlCtrl h.i word
  | 0x172008 => s.writeLevel h.i h.j word
  | 0x17200C => s.writeSafeL h.i h.j word
  | _ => s.plainWrite a h word

/-- FIFE (R434 to R438, R448). -/
def State.writeFife (s : State) (a : Nat) (h : RegHit) (word : Nat) : State :=
  match h.d.base with
  | 0x180000 => s.writeFeCtrl h.i word
  | 0x180018 => s.feRegWrite h.i (R.FE_PC_PC h.i) word
  | 0x180020 => s.feTxWrite h.i word
  | 0x180028 => s.feInject h.i word
  | 0x180030 => s.feRegWrite h.i (R.FE_K0_K0 h.i) word
  | 0x180034 => s.feRegWrite h.i (R.FE_K1_K1 h.i) word
  | 0x180038 => s.feRegWrite h.i (R.FE_CAP_CAP h.i) word
  | 0x18003C => s.feRegWrite h.i (R.FE_EMT_EMT h.i) word
  | 0x18004C => s.feRegWrite h.i (R.FE_TGT_LO_TGT h.i) word
  | 0x180050 => s.feRegWrite h.i (R.FE_TGT_HI_TGT h.i) word
  | 0x180054 => s.feRegWrite h.i (R.FE_PH_PH h.i) word
  | 0x180100 => s.writeFeImem h.i h.j word
  | 0x184000 => s.feGo word
  | 0x184004 => s.feClkrst word
  | _ => s.plainWrite a h word

/-- RASTER (R460, R484). -/
def State.writeRaster (s : State) (a : Nat) (h : RegHit) (word : Nat) : State :=
  match h.d.base with
  | 0x200008 => s.rasGrow (bits word 0 10)
  | 0x20001C => s.when (bit word 0) State.rasCntClr
  | _ => s.plainWrite a h word

/-- EN of a port written: a change acts (R555). -/
def State.writePortEn (s : State) (p : Nat) (was one : Bool) : State := if was = one then s else s.portEnable p one

/-- WINDWAY (R555, R582, R586, R587, R591, R599). -/
def State.writeWindway (s : State) (a : Nat) (h : RegHit) (word : Nat) : State :=
  match h.d.base with
  | 0x300000 => ((s.plainWrite a h word).when (bit word 6) State.gfClear).when (bit word 7) State.nrClear
  | 0x300040 => (s.plainWrite a h word).writePortEn h.i (s.on (R.WL_CTRL_EN h.i)) (bit word 0)
  | 0x300400 => (s.plainWrite a h word).writePortEn (8 + h.i) (s.on (R.WT_CTRL_EN h.i)) (bit word 0)
  | 0x300800 => ((s.plainWrite a h word).when (bit word 0) State.sweepGo).when (bit word 1) State.sweepAbort
  | _ => s.plainWrite a h word

/-- The registers of a field ring that starts at b, by offset (R602, R632). -/
def State.writeRing (s : State) (a b : Nat) (h : RegHit) (word : Nat) : State :=
  match a - b with
  | 0 => s.writeFrBase b 0 word
  | 4 => s.writeFrBase b 4 word
  | 8 => s.writeFrCfg b word
  | 0xC => s.writeFrTail b (bits word 0 12)
  | _ => s.plainWrite a h word

/-- ETH (R609, R612, R632). -/
def State.writeEth (s : State) (a : Nat) (h : RegHit) (word : Nat) : State :=
  let o := a % 0x1000
  if 0x314000 ≤ a then (if a = 0x314010 then s.timeStep (bits word 0 16) else s.plainWrite a h word)
  else if 0x400 ≤ o ∧ o < 0x600 then s.writeRing a (a / 0x20 * 0x20) h word
  else if o = 0x600 then (s.plainWrite a h word).when (bit word 1) fun s => s.qbvChange h.i
  else s.plainWrite a h word

/-- CAN (R616, R618, R632). -/
def State.writeCan (s : State) (a : Nat) (h : RegHit) (word : Nat) : State :=
  let o := a % 0x1000
  if 0x20 ≤ o ∧ o < 0x38 then s.writeRing a (canRing h.i) h word
  else if o = 0 then (s.plainWrite a h word).when (bit word 4) fun s => s.canPermit h.i
  else if o = 0x40 then s.canQueue h.i word
  else if 0x400 ≤ o ∧ o < 0x900 then s.writeTxb h.i h.j ((o - 0x400) % 0x50) word
  else s.plainWrite a h word

/-- CSI (R621, R632). -/
def State.writeCsi (s : State) (a : Nat) (h : RegHit) (word : Nat) : State :=
  match h.d.base with
  | 0x330100 => s.writeCsMatch h.i h.j word (s.rwlOpen a h)
  | 0x330128 => s.when (bit word 0) fun s => s.csiReturn h.i h.j
  | _ => s.plainWrite a h word

/-- SERIAL (R626, R788): below STAGE RUN the xSPI registers take writes of the boot sequencer only. -/
def State.writeSerial (s : State) (w : Who) (a : Nat) (h : RegHit) (word : Nat) : State :=
  if 0x343000 ≤ a ∧ s.stage ≠ 7 ∧ (w.ini : Nat) ≠ 0x3E then s
  else match h.d.base with
    | 0x340008 => s.serTx h.i word
    | 0x341008 => s.serGo (6 + h.i) word
    | 0x341010 => s.serTx (6 + h.i) word
    | 0x34200C => s.serTx (10 + h.i) word
    | 0x343004 => s.serGo 14 word
    | 0x343010 => s.serTx 14 word
    | _ => s.plainWrite a h word

/-- HOSTQ (R525, R553): base and configuration of a ring only while it is DISABLED. -/
def State.writeHostq (s : State) (a : Nat) (h : RegHit) (word : Nat) : State :=
  match h.d.base with
  | 0x400100 => if s.sqState h.i h.j = 0 then s.plainWrite a h word else s
  | 0x400104 => if s.sqState h.i h.j = 0 then s.plainWrite a h word else s
  | 0x400108 => if s.sqState h.i h.j = 0 then s.plainWrite a h word else s
  | 0x40010C => s.writeSqCtrl h.i h.j word
  | 0x400200 => if s.on (R.CQ_CFG_ENABLE h.i h.j) then s else s.plainWrite a h word
  | 0x400204 => if s.on (R.CQ_CFG_ENABLE h.i h.j) then s else s.plainWrite a h word
  | 0x400208 => s.writeCqCfg h.i h.j word
  | _ => s.plainWrite a h word

/-- TILE (R187, R203). -/
def State.writeTile (s : State) (a : Nat) (h : RegHit) (word : Nat) : State :=
  match h.d.base with
  | 0x800030 => s.when (bit word 0) fun s => s.tileCntClr h.i
  | 0x800040 => (s.plainWrite a h word).when (bit word 1) fun s => s.selCntClr h.i
  | _ => s.plainWrite a h word

/-- Windows of sequencers and sinks (R77, R95, R97, R98, R103, R108, R825). -/
def State.writeWindow (s : State) (w : Who) (u a : Nat) (h : RegHit) (word : Nat) : State :=
  match h.d.base with
  | 0x100 => s.writeCtxCtrl u h.i word (s.rwlOpen a h)
  | 0x104 => s.writeCtxPc u h.i word
  | 0x200 => s.writeTokCnt u h.i h.j word 0 0
  | 0xA00 => s.setPool u h.i (bits word 0 16 : Nat)
  | 0x1000 => s.tokTake u h.i h.j (bits word 0 16) w.cls
  | 0x2000 => s.writeRowWord u h.i h.j word
  | _ => s.plainWrite a h word

/-- A write acts on the block it lies in. -/
def State.regEffect (s : State) (w : Who) (a : Nat) (h : RegHit) (word : Nat) : State × Status :=
  match h.unit with
  | some u => (s.writeWindow w u a h word, .ok)
  | none =>
    if a < 0x10000 then (s.writeGlobal w a h word, .ok)
    else if a < 0x30000 then (s.writeBellows a h word, .ok)
    else if a < 0x40000 then (s.writeDrones a h word, .ok)
    else if a < 0x50000 then (s.writeSafety a h word, .ok)
    else if a < 0x120000 then (s.writeAxes a h word, .ok)
    else if a < 0x140000 then s.writeChanter w a h word
    else if a < 0x160000 then (s.writeReed a h word, .ok)
    else if a < 0x170000 then (s.writePhaseCut a h word, .ok)
    else if a < 0x180000 then (s.writeLight a h word, .ok)
    else if a < 0x200000 then (s.writeFife a h word, .ok)
    else if a < 0x300000 then (s.writeRaster a h word, .ok)
    else if a < 0x310000 then (s.writeWindway a h word, .ok)
    else if a < 0x320000 then (s.writeEth a h word, .ok)
    else if a < 0x330000 then (s.writeCan a h word, .ok)
    else if a < 0x340000 then (s.writeCsi a h word, .ok)
    else if a < 0x400000 then (s.writeSerial w a h word, .ok)
    else if a < 0x800000 then (s.writeHostq a h word, .ok)
    else (s.writeTile a h word, .ok)

end Sys2Proof.Machine
end

