-- ==== Sys2Proof/Machine/RegRead.lean ====
section
/-! DEFINITION. What a register read returns and does: fields as they stand, values the part forms when they are read, the
captures of R779, reads with an effect (spec/23_register_map.md R776, R779, R783, R784; the chapters named). -/

namespace Sys2Proof.Machine

/-! ### The interrupt summary (R783) -/

/-- A sequencer or sink holds an event (R108). -/
def State.irqSeq (s : State) (u : Nat) : Bool :=
  isSeq u && s.on (R.SEQ_CTRL_IRQ_EN (win u)) &&
    (s.on (R.SEQ_STAT_ERR_MASK (win u)) || s.on (R.SEQ_STAT_CREDIT_OVF (win u)) || s.on (R.SEQ_STAT_CREDIT_UNF (win u)) || s.on (R.SEQ_STAT_CREDIT_LOST (win u)) ||
      (List.range 16).any fun c => s.on (R.CTX_STAT_STALL (win u) c))

/-- The sequencers. -/
def seqUnits : List Nat := List.range 0x40 ++ [0x40, 0x41, 0x42, 0x43, 0x44, 0x45, 0x48, 0x50, 0x51, 0x52, 0x53, 0x54, 0x55, 0x56, 0x57]

/-- A tile or its Selector holds an event (R187, R203); an iteration that ended POISON shows in SEQ_ERR. -/
def State.irqTile (s : State) (t : Nat) : Bool :=
  (s.on (R.TILE_CTRL_FLAG_IRQ_EN t) && s.on (R.TILE_FLAG_LOG_VALID t)) ||
    (s.on (R.TILE_CTRL_POISON_IRQ_EN t) && s.errHeld.contains t && s.rd (R.SEQ_ERR_STATUS (win t)) == statusNat .poison) ||
    (s.on (R.SEL_CTRL_FLAG_IRQ_EN t) && (s.on (R.SEL_FLAGS_INVALID t) || s.on (R.SEL_FLAGS_OVERFLOW t) || s.on (R.SEL_FLAGS_NAN_SEEN t)))

/-- An axis holds an event on AX_STAT (R355). -/
def State.irqAxis (s : State) (n : Nat) : Bool :=
  s.on (R.AX_CTRL_IRQ_EN n) && (s.on (R.AX_STAT_SUBST n) || s.on (R.AX_STAT_REJ n) || s.on (R.AX_STAT_CATCH_FAIL n) ||
    s.on (R.AX_STAT_DUTY_SAT n) || s.on (R.AX_STAT_DUTY_IGN n) || s.axState n == 5)

/-- A Fife engine holds an event: IRQ, or a halt with a cause other than HALT (R448). -/
def State.irqFife (s : State) (e : Nat) : Bool :=
  s.on (R.FE_CTRL_IRQ_EN e) && (s.on (R.FE_STAT_IRQ e) || (s.feState e == 1 && 1 < s.rd (R.FE_STAT_CAUSE e)))

/-- A serial interface holds an event: a W1C flag of its status, or a received word (R788). -/
def State.irqSerial (s : State) : Bool :=
  ((List.range 6).any fun i => s.on (R.SPI_CTRL_IRQ_EN i) &&
    (s.on (R.SPI_STAT_TX_OVF i) || s.on (R.SPI_STAT_RX_UF i) || s.on (R.SPI_STAT_RX_LVL i))) ||
  ((List.range 4).any fun i => s.on (R.I2C_CTRL_IRQ_EN i) &&
    (s.on (R.I2C_STAT_DONE i) || s.on (R.I2C_STAT_NACK i) || s.on (R.I2C_STAT_ARB_LOST i) || s.on (R.I2C_STAT_TGT_SEL i) ||
      s.on (R.I2C_STAT_TX_OVF i) || s.on (R.I2C_STAT_RX_UF i) || s.on (R.I2C_STAT_RX_LVL i))) ||
  ((List.range 4).any fun i => s.on (R.UART_CTRL_IRQ_EN i) &&
    (s.on (R.UART_STAT_PAR_ERR i) || s.on (R.UART_STAT_FRM_ERR i) || s.on (R.UART_STAT_BRK_SEEN i) || s.on (R.UART_STAT_RX_OVR i) ||
      s.on (R.UART_STAT_TX_OVF i) || s.on (R.UART_STAT_RX_UF i) || s.on (R.UART_STAT_RX_LVL i))) ||
  (s.on R.XSPI_CTRL_IRQ_EN && (s.on R.XSPI_STAT_TX_OVF || s.on R.XSPI_STAT_RX_UF || s.on R.XSPI_STAT_RX_LVL))

/-- The Windway block holds an event (R599): a port that failed or joined, GROUP_FAULT, an FWMSG word, a sweep that is not
IDLE. -/
def State.irqWindway (s : State) : Bool :=
  s.on R.WW_CTRL_IRQ_EN && (s.on R.WW_GFLAGS_GROUP_FAULT || !s.fwmsgs.isEmpty || s.sweepState != 0 ||
    (List.range 12).any fun p => s.on (portFailedF p) || s.on (portJoinF p))

/-- Bit b of GLOBAL_IRQ_STAT (R783). No register of ETH, CAN and CSI enables an interrupt to the management cores. -/
def State.irqBit (s : State) (b : Nat) : Bool :=
  match b with
  | 0 => (s.on R.MEM_ECC_CTRL_CE_IRQ_EN && s.on R.MEM_CE_ADDR_HI_VALID) || (s.on R.MEM_ECC_CTRL_UE_IRQ_EN && s.on R.MEM_UE_ADDR_HI_VALID) ||
      (s.on R.MEM_ZERO_IRQ_EN && (s.on R.MEM_ZERO_DONE || s.on R.MEM_ZERO_REJ))
  | 1 => seqUnits.any s.irqSeq
  | 2 => (List.range 64).any s.irqTile
  | 3 => s.on R.REED_CTRL_IRQ_EN && (List.range 48).any fun i => s.reedState i == 2 || s.on (R.REED_INST_STAT_SEAL_ERR i)
  | 4 => s.on R.CHN_CTRL_IRQ_EN && (s.on R.CHN_STAT_LIST_REJ || s.on R.CHN_STAT_DUAL_FAIL || s.on R.CHN_STAT_SLOT_FAULT)
  | 5 => (List.range 12).any s.irqAxis
  | 6 => ((List.range 2).any fun r => s.on (R.PCM_CTRL_IRQ_EN r) && s.on (R.PCM_STAT_ZC_LOST r)) ||
      (List.range 8).any fun n => s.on (R.PC_CTRL_IRQ_EN n) && (s.pcState n == 4 || s.pcState n == 5)
  | 7 => (List.range 4).any fun l => s.on (R.LL_CTRL_IRQ_EN l) && s.on (R.LL_STAT_FLT l)
  | 8 => (List.range 32).any s.irqFife
  | 9 => s.on R.RAS_CTRL_IRQ_EN && (s.on R.RAS_STAT_BIN_FAULT || s.on R.RAS_CNT1_DROPS)
  | 10 => s.on R.BEL_CTRL_IRQ_EN && (s.on R.BEL_STAT_FORCED || s.on R.CLK_STAT_LOCK_FAIL || s.on R.BEL_STAT_PWR_REJ || s.on R.BEL_STAT_SENSOR_FAULT)
  | 11 => s.irqWindway
  | 15 => s.irqSerial
  | 16 => s.on R.UL_CTRL_IRQ_EN && (s.on R.UL_CTRL_ADMIT_SEEN || s.units.any fun p => p.2.cmdRej)
  | 17 => s.on R.LS_CTRL_IRQ_EN && (s.on R.LS_STAT_DIVERGED || s.on R.LS_STAT_MISSING)
  | 18 => s.on R.SF_CTRL_SAFE_IRQ && s.inSafe
  | _ => false

/-- GLOBAL_IRQ_STAT. -/
def State.irqStat (s : State) : Nat := ((List.range 19).map fun b => b2n (s.irqBit b) * 2 ^ b).sum

/-- The interrupt line of management core k (R783). -/
def State.coreIrqLine (s : State) (k : Nat) : Bool := s.irqStat &&& s.rd (R.GLOBAL_IRQ_CORE_MASK k) != 0

/-! ### Values formed at the read -/

/-- UL_STAT of the selected unit (R712, R739); a code that names no unit reads 0. -/
def State.ulStat (s : State) : Nat :=
  let u := s.rd R.UL_SEL_UNIT
  let x := s.unitSt u
  if !s.isUnit u then 0
  else x.state % 4 + x.epoch % 256 * 4 + b2n x.bistRun * 2 ^ 10 + b2n x.bistPass * 2 ^ 11 + b2n x.bistFail * 2 ^ 12 + b2n x.zeroed * 2 ^ 13 +
    b2n x.cmdRej * 2 ^ 14 + x.cause % 8 * 2 ^ 15 + b2n x.powered * 2 ^ 18 + min (s.orphans u) 4095 * 2 ^ 20

/-- UL_STATE k and UL_EPOCH k. -/
def State.ulState (s : State) (k : Nat) : Nat :=
  ((List.range 16).map fun j => if s.isUnit (16 * k + j) then (s.unitSt (16 * k + j)).state % 4 * 4 ^ j else 0).sum
def State.ulEpoch (s : State) (k : Nat) : Nat :=
  ((List.range 4).map fun j => if s.isUnit (4 * k + j) then (s.unitSt (4 * k + j)).epoch % 256 * 256 ^ j else 0).sum

/-- BEL_PWR_ON half i: enabled tiles with power (R506). -/
def State.pwrOn (s : State) (i : Nat) : Nat :=
  ((List.range 32).map fun j => b2n (s.tileOn (32 * i + j) && (s.unitSt (32 * i + j)).powered) * 2 ^ j).sum

/-- The computed value that a register shows in place of stored fields, if it does. `stored` is the word of its fields as
they stand. -/
def State.liveWord (s : State) (w : Who) (h : RegHit) (stored : Nat) : Nat :=
  match h.unit with
  | some u =>
    if h.d.base = 4 ∧ isSeq u then setBits stored 24 8 (s.epochOf u)
    else if h.d.base = 0x2000 then s.readRowWord u h.i h.j
    else stored
  | none =>
    match h.d.base with
    | 0x60 => s.irqStat
    | 0x5008 => s.fpWord % 2 ^ 32
    | 0x500C => s.fpWord / 2 ^ 32 % 2 ^ 32
    | 0x5010 => s.placeHash
    | 0x5030 => s.step % 2 ^ 32
    | 0x600C => s.ulStat
    | 0x6040 => s.ulState h.i
    | 0x6080 => s.ulEpoch h.i
    | 0x7000 => setBits (setBits stored 4 4 s.bootCause) 15 1 (b2n s.dbgOpen)
    | 0x20038 => s.pwrOn h.i
    | 0x20080 => s.used.getD h.i 0 % 2 ^ 32
    | 0x30060 => s.phase h.i
    | 0x30068 => ux 48 (s.drone h.i).f % 2 ^ 32
    | 0x3006C => ux 48 (s.drone h.i).f / 2 ^ 32
    | 0x40124 => setBits (setBits stored 0 1 (b2n (s.fwArmed.contains s.fwTargetSel))) 1 1 (b2n (s.fwLocked.contains s.fwTargetSel))
    | 0x40014 => s.sfTime % 2 ^ 32
    | 0x120010 => tget 0 s.cwqSel w.ini
    | 0x140010 => s.reedBudget h.i none
    | 0x140104 =>
      let act := s.reedActive h.i
      setBits (setBits stored 3 2 (s.reedStandby h.i).st) 10 10 (if act.st = 2 then act.cycles else 0)
    | 0x14011C => s.reedFlags h.i
    | 0x184010 => s.fioIn h.i
    | 0x310614 => if s.on (R.ETH_CTRL_SAFETY h.i) then stored ||| 128 else stored
    | 0x314000 => s.sysTime % 2 ^ 32
    | 0x314004 => s.sysTime / 2 ^ 32
    | 0x800020 => (s.tile h.i).macBusy % 2 ^ 32
    | 0x800028 => (s.tile h.i).vecBusy % 2 ^ 32
    | _ => stored

/-! ### Reads with an effect -/

/-- DRN_SNAP_HI takes the present state of its Drone (R74). -/
def State.drnSnap (s : State) (d : Nat) : State :=
  s.wrAll [(R.DRN_SNAP_HI_CYCLE d, (s.drone d).cyc), (R.DRN_SNAP_HI_STATE d, s.drnState d), (R.DRN_SNAP_HI_QUALITY d, s.drnQual d),
    (R.DRN_SNAP_HI_DIR d, s.rd (R.DRN_STAT_DIR d))]

/-- The captures of R779 and the reads that mark or release something. -/
def State.readEffect (s : State) (a : Nat) (h : RegHit) : State :=
  match h.unit with
  | some u => if h.d.base = 8 ∧ isSeq u then s.readSeqErr u else s
  | none =>
    match h.d.base with
    | 0x5030 => s.wr R.RP_STEP_HI_STEP (s.step / 2 ^ 32)
    | 0x5088 => s.wr R.LS_STEP_HI_STEP s.lsStepHi
    | 0x20080 => s.wr (R.BEL_USED_HI_USED h.i) (s.used.getD h.i 0 / 2 ^ 32)
    | 0x30060 => s.drnSnap h.i
    | 0x35000 => if a = 0x3508C then { s with latchUnread := false } else s
    | 0x40014 => s.wr R.SF_TIME_HI_TIME (s.sfTime / 2 ^ 32)
    | 0x14011C => s.captureEst h.i
    | 0x800020 => s.wr (R.TILE_MAC_BUSY_HI_CYCLES h.i) ((s.tile h.i).macBusy / 2 ^ 32)
    | 0x800028 => s.wr (R.TILE_VEC_BUSY_HI_CYCLES h.i) ((s.tile h.i).vecBusy / 2 ^ 32)
    | _ => s

/-- Registers that are windows on a queue: what a read takes from it. -/
def State.popRead (s : State) (h : RegHit) : Option (Nat × State) :=
  match h.unit with
  | some _ => none
  | none =>
    match h.d.base with
    | 0x180024 => some (s.feRxRead h.i)
    | 0x184008 => some s.feNowRead
    | 0x300030 => some s.fwmsgRead
    | 0x34000C => some (s.serRx h.i)
    | 0x341014 => some (s.serRx (6 + h.i))
    | 0x342010 => some (s.serRx (10 + h.i))
    | 0x343010 => some (s.serRx 14)
    | 0x343018 => some s.xspiWindow
    | _ => none

/-- A register read (R776, R779): the value, and the state it leaves. -/
def State.regTake (s : State) (w : Who) (a : Nat) (h : RegHit) : Nat × State :=
  match s.popRead h with
  | some r => r
  | none => (s.liveWord w h (s.readFields a h.i h.d.fields), s.readEffect a h)

end Sys2Proof.Machine
end

