-- ==== Sys2Proof/Machine/Bus.lean ====
section
/-! DEFINITION. Requests to a local or global address of any kind: registers, the doorbell image, memories
(spec/04_address_space_memory.md R113 to R117, spec/16_host_rings.md R520, R521, spec/20_safety.md R694, R696,
spec/23_register_map.md R775 to R777, R784, R794). -/

namespace Sys2Proof.Machine

/-! ### Registers -/

/-- A register request passes R6, R777, R114, R794, the fixed rules and the firewall of the register space. -/
def State.regAdmit (s : State) (w : Who) (a word : Nat) (write : Bool) : State × Except Status RegHit :=
  if s.boot.porst then (s, .error .nackAbsent)
  else if (tileOfReg a).any fun t => !s.tileOn t || !(s.unitSt t).powered then (s, .error .nackAbsent)
  else
    match (if a % 4 = 0 then regFind a else none) with
    | none => (s.mapError a w write, .error .nackAbsent)
    | some h =>
      if s.sysrst && !keptReg a then (s, .error .nackAbsent)
      else if (write && s.regRuleRefuses a word w) || !s.fwAllows 0x4A a 4 w write then (s.fwRefuse 0x4A a w write, .error .firewall)
      else (s, .ok h)

/-- A register write by an initiator on this chip or over Windway: what it does stands in `eff`. -/
def State.regPut (s : State) (w : Who) (a word : Nat) (eff : State → RegHit → State × Status) : State × Status :=
  match s.regAdmit w a word true with
  | (s1, .error st) => (s1, st)
  | (s1, .ok h) => eff s1 h

/-- A register read. -/
def State.regGet (s : State) (w : Who) (a : Nat) : State × Status × Nat :=
  match s.regAdmit w a 0 false with
  | (s1, .error st) => (s1, st, 0)
  | (s1, .ok h) =>
    let r := s1.regTake w a h
    (r.2, .ok, r.1 % 2 ^ 32)

/-- A request can reach BAR0 of its function: the link is up, the function in D0; while the endpoint shows the PF alone,
only the PF exists, and only its BOOT registers (R518, R519, R758, R762). -/
def State.barUp (s : State) (w : Who) (a : Nat) : Bool :=
  s.pcieUp && !s.d3hot.contains (w.ini : Nat) && (!s.pfAlone || ((w.ini : Nat) == 0 && 0x7000 ≤ a && a < 0x8000))

/-- The addresses that BAR0 of a function holds (R520). -/
def inBar0 (w : Who) (a : Nat) : Bool :=
  (w.ini : Nat) == 0 || (0x400000 + 0x1000 * (w.ini : Nat) ≤ a && a < 0x401000 + 0x1000 * (w.ini : Nat))

/-- A register write with its effect given, of a requester or through BAR0 (R521). -/
def State.regWriteAs (s : State) (w : Who) (a word : Nat) (eff : State → RegHit → State × Status) : State × Status :=
  if !w.bar then s.regPut w a word eff
  else if !s.barUp w a || !inBar0 w a || a % 4 != 0 then (s, .nackAbsent)
  else
    let r := s.regPut w a word eff
    (r.1.mmioErr w.ini r.2, r.2)

/-- A register write. -/
def State.regWrite (s : State) (w : Who) (a word : Nat) : State × Status :=
  s.regWriteAs w a word fun s h => s.regEffect w a h (word % 2 ^ 32)

/-- A register read; a read through BAR0 that fails completes with all ones. -/
def State.regRead (s : State) (w : Who) (a : Nat) : State × Status × Nat :=
  if !w.bar then s.regGet w a
  else if !s.barUp w a || !inBar0 w a || a % 4 != 0 then (s, .nackAbsent, 0)
  else
    let r := s.regGet w a
    (r.1.mmioErr w.ini r.2.1, .ok, if r.2.1 = .ok then r.2.2 else 2 ^ 32 - 1)

/-! ### The doorbell image (R520, R527, R784) -/

/-- What a read of a doorbell page returns: the ring's tail, the queue's head, 0 elsewhere; the PF sees in pages 1 to 31
the value last written. -/
def State.doorbellValue (s : State) (pf : Bool) (o : Nat) : Nat :=
  let n := o / 0x1000
  let x := o % 0x1000
  if pf && n != 0 then tget 0 s.dbVals o
  else if x < 0x20 then (s.sq n (x / 4)).tail
  else if 0x40 ≤ x ∧ x < 0x60 then (s.cq n ((x - 0x40) / 4)).head
  else 0

/-- A write to the local doorbell image. -/
def State.doorbellPut (s : State) (w : Who) (a : Nat) (data : List Byte) : State × Status :=
  if s.boot.porst ∨ s.sysrst then (s, .nackAbsent)
  else if !s.fwAllows 0x4B a data.length w true then (s.fwRefuse 0x4B a w true, .firewall)
  else (s.doorbell none (a - 0x1000000) data, .ok)

/-- A read of the local doorbell image. -/
def State.doorbellGet (s : State) (w : Who) (a n : Nat) : State × Status × List Byte :=
  if s.boot.porst ∨ s.sysrst ∨ n ≠ 4 ∨ a % 4 ≠ 0 then (s, .nackAbsent, [])
  else if !s.fwAllows 0x4B a n w false then (s.fwRefuse 0x4B a w false, .firewall, [])
  else (s, .ok, leBytes 4 (s.doorbellValue false (a - 0x1000000)))

/-! ### Any local address -/

/-- A write request to a local address. -/
def State.busWrite (s : State) (w : Who) (epoch a : Nat) (data : List Byte) : State × Status :=
  match placeOf a with
  | .registers => if data.length = 4 then s.regWrite w a (leNat data) else (s.mapError a w true, .nackAbsent)
  | .doorbell => s.doorbellPut w a data
  | _ => s.localWrite w epoch a data

/-- A read request to a local address. -/
def State.busRead (s : State) (w : Who) (epoch a n : Nat) : State × Status × List Byte :=
  match placeOf a with
  | .registers =>
    if n = 4 then
      let r := s.regRead w a
      (r.1, r.2.1, if r.2.1 = .ok then leBytes 4 r.2.2 else [])
    else (s.mapError a w false, .nackAbsent, [])
  | .doorbell => s.doorbellGet w a n
  | _ => s.localRead w epoch a n

/-! ### Any global address -/

/-- A read by global address of 1 to 64 bytes (R109 to R112). -/
def State.gaRead (s : State) (w : Who) (ga n : Nat) : State × Status × List Byte :=
  if s.gaHere ga && !gaHost ga then s.busRead w (s.stamp (gaLocal ga)) (gaLocal ga) n else s.gmRead w ga n

/-- A write by global address of 1 to 64 bytes. -/
def State.gaWrite (s : State) (w : Who) (ga : Nat) (data : List Byte) : State × Status :=
  if s.gaHere ga && !gaHost ga then s.busWrite w (s.stamp (gaLocal ga)) (gaLocal ga) data else s.gmWrite w ga data

/-! ### Register commands -/

/-- The answer of the requester of a request. -/
def State.answers (s : State) (st : Status) (v : Nat) (l : List Byte) : State :=
  { s with answer := { st := st, value := v, data := l } }

/-- A register write whose requester gets its status. -/
def State.writeReg (s : State) (w : Who) (a word : Nat) : State :=
  let r := s.regWrite w a word
  r.1.answers r.2 0 []

/-- A register read whose requester gets status and value. -/
def State.readReg (s : State) (w : Who) (a : Nat) : State :=
  let r := s.regRead w a
  r.1.answers r.2.1 r.2.2 []

/-- A write at an offset of the window of a sequencer or sink; a unit without one has no such register. -/
def State.writeWin (s : State) (w : Who) (u off word : Nat) : State :=
  match windowOf u with
  | some b => s.writeReg w (b + off) word
  | none => s.answers .nackAbsent 0 []

/-- A write at an offset of a window with its effect given. -/
def State.writeWinAs (s : State) (w : Who) (u off word : Nat) (f : State → State) : State :=
  match windowOf u with
  | some b =>
    let r := s.regWriteAs w (b + off) word fun s _ => (f s, .ok)
    r.1.answers r.2 0 []
  | none => s.answers .nackAbsent 0 []

/-- A read at an offset of a window. -/
def State.readWin (s : State) (w : Who) (u off : Nat) : State :=
  match windowOf u with
  | some b => s.readReg w (b + off)
  | none => s.answers .nackAbsent 0 []

/-- A command brings the answers of parties outside the part, for its own requests only. -/
def State.withReplies (s : State) (rs : List Reply) (f : State → State) : State := { f { s with replies := rs } with replies := [] }

end Sys2Proof.Machine
end

