-- ==== Sys2Proof/Machine/Axes.lean ====
section
/-! DEFINITION. Commands of the motor axes (spec/10_motor_axes.md). -/

namespace Sys2Proof.Machine

/-! ### Registers -/

/-- AXIS_START (R340): a write of AX_CTRL with AXIS_START. -/
def execAxisStart (w : Who) (n : Fin 12) (v : BitVec 32) (s : State) : Host.Outcome State Fault Refusal :=
  .next (s.writeReg w (0x100000 + 0x1000 * n) (v ||| 1).toNat)

/-- AXIS_STOP (R340). -/
def execAxisStop (w : Who) (n : Fin 12) (v : BitVec 32) (s : State) : Host.Outcome State Fault Refusal :=
  .next (s.writeReg w (0x100000 + 0x1000 * n) (v ||| 2).toNat)

/-- AXIS_CLEAR (R340). -/
def execAxisClear (w : Who) (n : Fin 12) (v : BitVec 32) (s : State) : Host.Outcome State Fault Refusal :=
  .next (s.writeReg w (0x100000 + 0x1000 * n) (v ||| 4).toNat)

/-- PWM_EN (R319): a write of AX_CTRL that gives PWM_EN its value. -/
def execPwmEn (w : Who) (n : Fin 12) (v : BitVec 32) (s : State) : Host.Outcome State Fault Refusal :=
  .next (s.writeReg w (0x100000 + 0x1000 * n) v.toNat)

/-- AX_SYNC_GO (R319). -/
def execAxSyncGo (w : Who) (v : BitVec 32) (s : State) : Host.Outcome State Fault Refusal := .next (s.writeReg w 0x10F000 v.toNat)

/-- AX_CMP_WRITE (R325): of phase x. -/
def execAxCmpWrite (w : Who) (n : Fin 12) (x : Fin 3) (v : BitVec 32) (s : State) : Host.Outcome State Fault Refusal :=
  .next (s.writeReg w (0x100020 + 0x1000 * n + 4 * x) v.toNat)

/-- ENC_CNT_WRITE (R333): with the filtered levels of A and B that change in the same cycle, if any. -/
def execEncCntWrite (w : Who) (n : Fin 12) (v : BitVec 32) (e : Option (Bool × Bool)) (s : State) : Host.Outcome State Fault Refusal :=
  .next (let t := s.writeReg w (0x10008C + 0x1000 * n) v.toNat
         match e with
         | some (a, b) => t.encEdge n a b
         | none => t)

/-- IDX_ARM (R333): a write of AX_ENC with IDX_ARM. -/
def execIdxArm (w : Who) (n : Fin 12) (v : BitVec 32) (s : State) : Host.Outcome State Fault Refusal :=
  .next (s.writeReg w (0x100088 + 0x1000 * n) (v ||| 0x1000).toNat)

/-! ### The PWM period -/

/-- RELOAD_POINT (R323). -/
def execReloadPoint (n : Fin 12) (s : State) : Host.Outcome State Fault Refusal := .next (s.reloadPoint n)

/-- SAMPLING_POINT (R324). -/
def execSamplingPoint (n : Fin 12) (s : State) : Host.Outcome State Fault Refusal := .next (s.samplingPoint n)

/-- DUTY_STAGE (R338). -/
def execDutyStage (n : Fin 12) (s : State) : Host.Outcome State Fault Refusal := .next (s.dutyStage n)

/-- PWM_COMPARE_EDGE (R320): of phase x. -/
def execPwmCompareEdge (n : Fin 12) (x : Fin 3) (s : State) : Host.Outcome State Fault Refusal := .next (s.compareEdge n x)

/-! ### Inputs -/

/-- SIGMA_DELTA_WORD (R330): a window of input m ends with its samples, oldest first. -/
def execSigmaDeltaWord (m : Fin 40) (l : List Bool) (s : State) : Host.Outcome State Fault Refusal := .next (s.sdWord m l)

/-- FAST_OVERCURRENT_TRIP (R332): the last samples of input m. -/
def execFastOvercurrentTrip (m : Fin 40) (l : List Bool) (s : State) : Host.Outcome State Fault Refusal := .next (s.ocTrip m l)

/-- ACTIVITY_FAULT (R331). -/
def execActivityFault (m : Fin 40) (s : State) : Host.Outcome State Fault Refusal := .next (s.activityFault m)

/-- DENSITY_BLOCK_END (R331): a block of 1,024 samples of input m, of which so many are ones. -/
def execDensityBlockEnd (m : Fin 40) (ones : Fin 1025) (s : State) : Host.Outcome State Fault Refusal := .next (s.densityEnd m ones)

/-- ENCODER_EDGE (R333): the filtered levels of A and B. -/
def execEncoderEdge (n : Fin 12) (a b : Bool) (s : State) : Host.Outcome State Fault Refusal := .next (s.encEdge n a b)

/-- ENCODER_INDEX (R333). -/
def execEncoderIndex (n : Fin 12) (s : State) : Host.Outcome State Fault Refusal := .next (s.encIndex n)

/-! ### States -/

/-- CATCH_TIMEOUT (R340). -/
def execCatchTimeout (n : Fin 12) (s : State) : Host.Outcome State Fault Refusal := .next (s.catchTimeout n)

/-- PROBE_PULSE (R341). -/
def execProbePulse (n : Fin 12) (s : State) : Host.Outcome State Fault Refusal := .next (s.probePulse n)

/-- PROBE_PULSE_END (R341). -/
def execProbePulseEnd (n : Fin 12) (s : State) : Host.Outcome State Fault Refusal := .next (s.probeEnd n)

/-- SUB_TIMEOUT (R344). -/
def execSubTimeout (n : Fin 12) (s : State) : Host.Outcome State Fault Refusal := .next (s.subTimeout n)

/-- BRAKE_DELAY_EXPIRY (R345). -/
def execBrakeDelayExpiry (n : Fin 12) (s : State) : Host.Outcome State Fault Refusal := .next (s.standstill n)

/-- CHOPPER_MIN_INTERVAL (R346): CH_MIN has passed since BCH last changed. -/
def execChopperMinInterval (n : Fin 12) (s : State) : Host.Outcome State Fault Refusal :=
  .next (match (s.axis n).bchAt with
    | some t => if (s.axis n).chMin ≤ s.since t then s.bchEval n else s
    | none => s)

end Sys2Proof.Machine
end

