-- ==== Sys2Proof/Machine/Bellows.lean ====
section
/-! DEFINITION. Commands of the Bellows: grants, operating points of the tile clock, power (spec/15_bellows_clocks.md). -/

namespace Sys2Proof.Machine

/-- GRANT_WINDOW_START (R486): what each sensor has produced since the last window, in eighths of a degree. -/
def execGrantWindowStart (xs : List (Option (BitVec 12))) (s : State) : Host.Outcome State Fault Refusal := .next (s.windowStart xs)

/-- OP_TGT_WRITE (R501, R504). -/
def execOpTgtWrite (w : Who) (v : BitVec 32) (s : State) : Host.Outcome State Fault Refusal := .next (s.writeReg w 0x10004 v.toNat)

/-- SUPPLY_SETTLED (R501). -/
def execSupplySettled (s : State) : Host.Outcome State Fault Refusal := .next s.supplySettled

/-- TILE_PLL_LOCK (R502). -/
def execTilePllLock (s : State) : Host.Outcome State Fault Refusal := .next s.tileLock

/-- RELOCK_SWITCH_BACK (R502). -/
def execRelockSwitchBack (s : State) : Host.Outcome State Fault Refusal := .next s.switchBack

/-- TILE_LOCK_TIMEOUT (R511): LOCK_MAX is over in a relock that waits for lock. -/
def execTileLockTimeout (s : State) : Host.Outcome State Fault Refusal :=
  .next (if s.opChange.phase = 2 then s.lockFail else s)

/-- BEL_PWR_DN (R505): half i of the register. -/
def execBelPwrDn (w : Who) (i : Fin 2) (v : BitVec 32) (s : State) : Host.Outcome State Fault Refusal :=
  .next (s.writeReg w (0x20030 + 4 * i) v.toNat)

/-- RAS_DN (R505). -/
def execRasDn (w : Who) (dn : Bool) (s : State) : Host.Outcome State Fault Refusal := .next (s.writeReg w 0x20040 (b2n dn))

/-- POWER_RETURN (R506): to a tile, or to the raster unit. -/
def execPowerReturn (t : Option (Fin 64)) (s : State) : Host.Outcome State Fault Refusal :=
  .next (match t with
    | some t => s.powerReturnTile t
    | none => s.powerReturnRaster)

/-- MOTION_ONLY (R507): BEL_CTRL is written. -/
def execMotionOnly (w : Who) (v : BitVec 32) (s : State) : Host.Outcome State Fault Refusal := .next (s.writeReg w 0x20000 v.toNat)

/-- BELLOWS_VOK_FALL (R515). -/
def execBellowsVokFall (s : State) : Host.Outcome State Fault Refusal := .next s.vokFall

/-- Ports on the SerDes lanes lose their link: PCIe, the Windway links, Ethernet 0 and 1, and 2 and 3 in mode 0,
taken as SGMII (R499, R518, R560, R601). -/
def State.serdesLost (s : State) : State :=
  let s1 := (List.range 8).foldl (fun (s : State) p => s.linkLoss p true) s.pcieReset
  (List.range 4).foldl (fun (s : State) p => if p < 2 || s.rd (R.ETH_CTRL_MODE p) == 0 then s.wr (R.ETH_STAT_LINK p) 0 else s) s1

/-- PLL_LOCK_LOSS (R499): 0 control, 1 fabric, 2 tile, 3 SerDes. -/
def State.pllLoss (s : State) (pll : Nat) : State :=
  match pll with
  | 0 => (s.wr R.CLK_STAT_CTRL_LOCK 0).report 0x01 0
  | 1 => (s.wr R.CLK_STAT_FAB_LOCK 0).report 0x09 0
  | 2 => if s.on R.CLK_STAT_TILE_LOCK then s.lockFail else s
  | _ => (s.wr R.CLK_STAT_SERDES_LOCK 0).serdesLost

/-- PLL_LOCK_LOSS (R499). -/
def execPllLockLoss (pll : Fin 4) (s : State) : Host.Outcome State Fault Refusal := .next (s.pllLoss pll)

end Sys2Proof.Machine
end

