-- ==== Sys2Proof/Machine/Boot.lean ====
section
/-! DEFINITION. Commands of power-up, reset and boot (spec/22_startup.md, spec/24_electrical_package.md). -/

namespace Sys2Proof.Machine

/-- PORST_N_ASSERT (R741). -/
def execPorstNAssert (s : State) : Host.Outcome State Fault Refusal := .next s.porstLow

/-- PORST_N_RELEASE (R743, R753): the level of the boot mode pins is sampled. -/
def execPorstNRelease (mode : Fin 4) (s : State) : Host.Outcome State Fault Refusal := .next (s.porstHigh mode)

/-- SYSRST_N_ASSERT (R764, R826). -/
def execSysrstNAssert (s : State) : Host.Outcome State Fault Refusal := .next s.sysrstLow

/-- SYSRST_N_RELEASE (R764). -/
def execSysrstNRelease (s : State) : Host.Outcome State Fault Refusal := .next s.sysrstHigh

/-- REFERENCE_ACCEPTANCE (R744): four windows in a row have counted reference edges. -/
def execReferenceAcceptance (n1 n2 n3 n4 : Fin 256) (s : State) : Host.Outcome State Fault Refusal :=
  .next (s.refWindows [n1, n2, n3, n4])

/-- PLL_LOCK_LIMIT (R744): 200 µs are over; which PLLs have locked. -/
def execPllLockLimit (ctrl fab tile serdes : Bool) (s : State) : Host.Outcome State Fault Refusal :=
  .next (s.pllLimit [ctrl, fab, tile, serdes])

/-- DIVIDER_ALIGNMENT (R745). -/
def execDividerAlignment (s : State) : Host.Outcome State Fault Refusal := .next s.align

/-- FUSE_READOUT (R747). -/
def execFuseReadout (s : State) : Host.Outcome State Fault Refusal := .next s.readFuses

/-- INIT_COMPLETE (R750, R751): the units whose start-up self-test failed. -/
def execInitComplete (fails : List (Fin 128)) (s : State) : Host.Outcome State Fault Refusal :=
  .next (s.initDone (fails.map Fin.val))

/-- IMAGE_LOAD (R754, R758): what the flash gave of the copy, none for a read error. -/
def execImageLoad (img : Option (List Byte)) (s : State) : Host.Outcome State Fault Refusal := .next (s.loadImage img)

/-- IMAGE_VERIFY (R756). -/
def execImageVerify (s : State) : Host.Outcome State Fault Refusal := .next s.verifyImage

/-- ISLAND_SRAM_ZEROED (R757): whether every word passed its check. -/
def execIslandSramZeroed (ok : Bool) (s : State) : Host.Outcome State Fault Refusal := .next (s.islandZeroed ok)

/-- ISLAND_SEGMENT_COPY (R757). -/
def execIslandSegmentCopy (s : State) : Host.Outcome State Fault Refusal := .next s.islandCopy

/-- ISLAND_FIRMWARE_START (R757). -/
def execIslandFirmwareStart (s : State) : Host.Outcome State Fault Refusal := .next s.islandStart

/-- BOOT_DATA (R758). -/
def execBootData (w : Who) (v : BitVec 32) (s : State) : Host.Outcome State Fault Refusal := .next (s.writeReg w 0x7008 v.toNat)

/-- HOST_GO (R758, R770). -/
def execHostGo (w : Who) (s : State) : Host.Outcome State Fault Refusal := .next (s.writeReg w 0x7004 4)

/-- MGMT_GO (R759). -/
def execMgmtGo (w : Who) (s : State) : Host.Outcome State Fault Refusal := .next (s.writeReg w 0x7004 1)

/-- HOST_READY (R763). -/
def execHostReady (w : Who) (s : State) : Host.Outcome State Fault Refusal := .next (s.writeReg w 0x7004 2)

/-- DBG_UNLOCK (R772). -/
def execDbgUnlock (w : Who) (s : State) : Host.Outcome State Fault Refusal := .next (s.writeReg w 0x7004 8)

/-- PCIE_LINK_TRAINING (R762). -/
def execPcieLinkTraining (s : State) : Host.Outcome State Fault Refusal := .next s.pcieTrain

/-- BANK_SUPPLY_LOSS (R804). -/
def execBankSupplyLoss (b : Fin 6) (s : State) : Host.Outcome State Fault Refusal := .next (s.bankLoss b)

/-- BANK_SUPPLY_RETURN (R803). -/
def execBankSupplyReturn (b : Fin 6) (s : State) : Host.Outcome State Fault Refusal := .next (s.bankReturn b)

/-- CONFIGURATION_REQUEST (R762). -/
def execConfigurationRequest (fn : Fin 32) (s : State) : Host.Outcome State Fault Refusal := .next (s.configRequest fn)

/-- A fuse word is programmed through JTAG in both of its copies (R747, R748). -/
def State.programFuse (s : State) (field v : Nat) : State :=
  { s with boot := { s.boot with fuseA := s.boot.fuseA.program field v, fuseB := s.boot.fuseB.program field v } }

/-- JTAG_REQUEST (R748, R772): identification and BOOT_STAT are always read; the rest needs the open port, fuse
programming also DEBUG_LOCK clear and VPP_FUSE on. -/
def State.jtag (s : State) (r : JtagReq) : State :=
  if s.boot.porst then s.answers .nackAbsent 0 []
  else match r with
    | .identify => s.answers .ok (s.rd R.GLOBAL_ID_PART + s.rd R.GLOBAL_ID_GEN * 2 ^ 16 + s.rd R.GLOBAL_ID_STEPPING * 2 ^ 20) []
    | .bootStat =>
      let a := 0x7000
      match regFind a with
      | some h => s.answers .ok (s.liveWord ⟨0, 0, false, false⟩ h (s.readFields a h.i h.d.fields)) []
      | none => s
    | .debug => s.answers (if s.dbgOpen then .ok else .nackAbsent) 0 []
    | .scan => s.answers (if s.dbgOpen then .ok else .nackAbsent) 0 []
    | .program field v vpp =>
      if s.dbgOpen && !s.boot.fuseA.debugLock && vpp then (s.programFuse field v).answers .ok 0 [] else s.answers .nackAbsent 0 []

/-- JTAG_REQUEST (R748, R772). -/
def execJtagRequest (r : JtagReq) (s : State) : Host.Outcome State Fault Refusal := .next (s.jtag r)

end Sys2Proof.Machine
end

