-- ==== Sys2Proof/Machine/Chanter.lean ====
section
/-! DEFINITION. Commands of the Chanter: its rows, its evaluators, its coefficient queues and registers
(spec/08_chanter_law.md). -/

namespace Sys2Proof.Machine

/-- RUN (R254): the iteration in execution of a context of lane sequencer 0x44 or 0x45. -/
def execRun (ln : Fin 2) (c : Fin 16) (s : State) : Host.Outcome State Fault Refusal :=
  .next (if s.runs (0x44 + ln) c 6 1 then s.chnRun (0x44 + ln) c else s)

/-- SLOT_START (R250): an idle evaluator takes up its next slot. -/
def execSlotStart (ln : Fin 2) (s : State) : Host.Outcome State Fault Refusal := .next (s.slotStart ln)

/-- SLOT_PUBLISH (R268): a lane ends the sixteenth cycle of its slot; whether the lanes of a dual slot agree (R270, R271). -/
def execSlotPublish (ln : Fin 2) (agree : Bool) (s : State) : Host.Outcome State Fault Refusal := .next (s.slotPublish ln agree)

/-- CWQ_ENQUEUE (R273): a write of CHN_CWQ_VAL. -/
def execCwqEnqueue (w : Who) (v : BitVec 32) (s : State) : Host.Outcome State Fault Refusal := .next (s.writeReg w 0x120014 v.toNat)

/-- CWQ_FLUSH (R275): a write of CHN_CWQ_CTRL with FLUSH. -/
def execCwqFlush (w : Who) (v : BitVec 32) (s : State) : Host.Outcome State Fault Refusal :=
  .next (s.writeReg w 0x120018 (v ||| 0x80).toNat)

/-- CHN_SLOT_ENABLE (R272): a write of CHN_SLOT_CTRL. -/
def execChnSlotEnable (w : Who) (x : Fin 128) (v : BitVec 32) (s : State) : Host.Outcome State Fault Refusal :=
  .next (s.writeReg w (0x120400 + 4 * x) v.toNat)

/-- LANE_ENABLE (R279): a write of CHN_CTRL. -/
def execLaneEnable (w : Who) (v : BitVec 32) (s : State) : Host.Outcome State Fault Refusal := .next (s.writeReg w 0x120000 v.toNat)

/-- LANE_LIST_WRITE (R251): a write of word j of a lane list. -/
def execLaneListWrite (w : Who) (ln : Fin 2) (j : Fin 32) (v : BitVec 32) (s : State) : Host.Outcome State Fault Refusal :=
  .next (s.writeReg w (0x120100 + 0x80 * ln + 4 * j) v.toNat)

/-- CHN_CNT_CLR (R282): a write of CHN_CTRL with CNT_CLR. -/
def execChnCntClr (w : Who) (v : BitVec 32) (s : State) : Host.Outcome State Fault Refusal :=
  .next (s.writeReg w 0x120000 (v ||| 8).toNat)

end Sys2Proof.Machine
end

