-- ==== Sys2Proof/Machine/Drones.lean ====
section
/-! DEFINITION. The control cycle and the commands of the Drones (spec/02_drones_external_time.md). -/

namespace Sys2Proof.Machine

/-! ### Targets of events (R59, R65, R68, R75) -/

/-- A LINE drives its consumer; any other number drives nothing (R75). -/
def State.driveLine (s : State) (line fine : Nat) : State :=
  if line < 0x0C then s.axisResync line fine
  else if 0x10 ≤ line ∧ line < 0x18 then s.pcLine (line - 0x10) fine
  else if 0x20 ≤ line ∧ line ≤ 0x24 then s.lightLine line
  else if line = 0x30 then s.rasLine
  else if 0x38 ≤ line ∧ line < 0x40 then s.injGo (line - 0x38)
  else s

/-- The token of a target, with epoch 0. -/
def targetToken (chip t : Nat) : Nat := tokenMsg chip (bits t 2 8) (bits t 10 4) (bits t 14 4) 1 0 1

/-- The token of a target is sent: with the unit's current epoch (R715), after a zero-length read where it orders a
write to host memory (R131). -/
def State.targetSend (s : State) (m : Nat) (host : Bool) : State :=
  let m1 := m + s.epochOf (bits m 16 8) % 256 * 2 ^ 40
  if host then { s with zlr := s.zlr ++ [(0, m1, 0)] } else s.send m1

/-- A fired event acts at its target. TYPE LATCH of DRN_NOTIFY acts as TOKEN. -/
def State.eventAct (s : State) (e : FiredEvent) : State :=
  let t := e.target
  let m := targetToken s.chip t
  let typ := bits t 0 2
  if typ = 0 then s.driveLine (bits t 2 8) e.fine
  else if typ = 1 ∨ (typ = 2 ∧ e.slot = 16) then s.targetSend m false
  else if typ = 2 then
    if bit t 19 then
      let a := s.rd R.DRN_LADDR_LO_LADDR_LO / 256 * 256 + s.rd R.DRN_LADDR_HI_LADDR_HI * 2 ^ 32
      { s with latchJobs := s.latchJobs ++ [⟨e.drone, if bit t 18 then some m else none, a, e.record⟩] }
    else if bit t 18 then s.targetSend m false
    else s
  else s

/-- Events of one cycle in the order of R68: Drone, then slot. -/
def eventOrder (l : List FiredEvent) : List FiredEvent :=
  (List.range (16 * 17)).flatMap fun k => l.filter fun e => e.drone * 17 + e.slot == k

/-- The events due in this cycle act (R59). -/
def State.eventsAct (s : State) : State :=
  match s.events.filter fun e => e.due == s.now with
  | [] => s
  | l => (eventOrder l).foldl (fun s e => s.eventAct e) { s with events := s.events.filter fun e => e.due != s.now }

/-! ### One control cycle -/

/-- The Fifes that wait for a crossing of a Drone see its step. -/
def State.fifesSee (s : State) (before : List (Nat × Bool)) : State :=
  (List.range 16).foldl (fun (s : State) d => s.fePhase d (before.getD d (0, false)).1 (before.getD d (0, false)).2) s

/-- One cycle of the control clock: due events act; every Drone advances, its crossings are tested; references,
phase-cut channels and Fifes follow; both clocks count on (R15, R39, R57, R59, R609). -/
def State.controlCycle (s : State) : State :=
  if !s.aligned || s.boot.porst then s
  else
    let before := (List.range 16).map fun d => (s.phase d, (s.drone d).jumps)
    let s1 := s.eventsAct.dronesCycle s.sysTime
    let s2 := ((s1.phaseCutCycle (before.map fun b => b.1)).fifesSee before).sweepPoll
    { s2 with now := (s2.now + 1) % 2 ^ 48, sysAcc := (s2.sysAcc + s2.timeInc) % 2 ^ 80 }

/-- DRONE_CYCLE (R39). -/
def execDroneCycle (s : State) : Host.Outcome State Fault Refusal := .next s.controlCycle

/-! ### Latch records (R65) -/

/-- The oldest latch record has been written, or its write has failed. -/
def State.latchWritten (s : State) : State :=
  match s.latchJobs with
  | [] => s
  | j :: rest =>
    let q := s.gmWrites { ini := 0x26, cls := 1, remote := false } j.addr j.data
    if q.2 = .retry then s
    else
      let s1 : State := { q.1 with latchJobs := rest }
      if q.2 ≠ .ok then s1.wr (R.DRN_STAT_LWERR j.drone) 1
      else match j.msg with
        | some m => s1.targetSend m (s.gaHere j.addr && gaHost j.addr)
        | none => s1

/-- LATCH_RECORD_WRITTEN (R65): with what parties outside answered. -/
def execLatchRecordWritten (rs : List Reply) (s : State) : Host.Outcome State Fault Refusal :=
  .next (s.withReplies rs fun s => s.latchWritten)

/-! ### Measurements (R41, R47) -/

/-- θ_m of a kind that the part captures on its own: ENC_INC of an axis, PTP (R41). -/
def State.captured (s : State) (d kind index : Nat) : Option Nat :=
  let dr := s.drone d
  if kind = 1 ∧ index < 12 ∧ dr.mod ≠ 0 then
    some (s.rd (R.AX_ENC_CNT_CNT index) % dr.mod * ((2 ^ 49 + dr.mod) / (2 * dr.mod)) / 2 ^ 16 % 2 ^ 32)
  else if kind = 6 ∧ dr.scale % 2 ^ 32 ≠ 0 then
    let p := dr.scale % 2 ^ 32
    some (s.sysTime % p * 2 ^ 32 / p)
  else none

/-- The measurement of one source of a Drone is formed. -/
def State.capture1 (s : State) (d kind index : Nat) : State :=
  match s.captured d kind index with
  | some th => s.offerTo d kind index th s.now
  | none => s

/-- N_EXP control cycles since ENABLE, REACQ or the last tick: the sources that the part captures itself give their
measurements. -/
def State.captureTick (s : State) (d : Nat) : State :=
  let dr := s.drone d
  if s.drnState d = 0 ∨ dr.nExp = 0 ∨ dr.age < dr.capAge + dr.nExp then s
  else
    let s1 := s.setDrone d { dr with capAge := dr.capAge + dr.nExp }
    let s2 := s1.capture1 d (s.rd (R.DRN_SRC_KIND d)) (s.rd (R.DRN_SRC_INDEX d))
    if s.on (R.DRN_CTRL_ALT_EN d) then s2.capture1 d (s.rd (R.DRN_SRC_ALT_KIND d)) (s.rd (R.DRN_SRC_ALT_INDEX d)) else s2

/-- DRONE_CAPTURE_TICK (R41). -/
def execDroneCaptureTick (d : Fin 16) (s : State) : Host.Outcome State Fault Refusal := .next (s.captureTick d)

/-- The i-th measurement on its way reaches its Drone. -/
def State.measArrives (s : State) (i : Nat) : State :=
  match s.meas[i]? with
  | some m => ({ s with meas := s.meas.eraseIdx i }).measure m.drone m.kind m.index m.theta m.cap
  | none => s

/-- DRONE_MEASUREMENT (R47). -/
def execDroneMeasurement (i : Nat) (s : State) : Host.Outcome State Fault Refusal := .next (s.measArrives i)

/-- The kind of source a Drone follows. -/
def State.followed (s : State) (d : Nat) : Nat :=
  if s.on (R.DRN_STAT_ALT_ACTIVE d) then s.rd (R.DRN_SRC_ALT_KIND d) else s.rd (R.DRN_SRC_KIND d)

/-- The end of an interval of N_EXP cycles: without a measurement in it, a LOCKED Drone counts it (R49, R45). -/
def State.missTest (s : State) (d : Nat) : State :=
  let dr := s.drone d
  if s.drnState d = 0 ∨ s.followed d = 0 ∨ dr.nExp = 0 ∨ dr.missMax = 0 ∨ dr.age < dr.missAge + dr.nExp then s
  else
    let s1 := s.setDrone d { dr with missAge := dr.missAge + dr.nExp, gotMeas := false, missRun := if dr.gotMeas then 0 else dr.missRun + 1 }
    if dr.gotMeas ∨ s.drnState d ≠ 2 then s1
    else
      let s2 := s1.count (R.DRN_CNT2_MISSED d) 1
      if dr.missMax ≤ dr.missRun + 1 then s2.holdCond d else s2

/-- DRONE_MISS_TEST (R49). -/
def execDroneMissTest (d : Fin 16) (s : State) : Host.Outcome State Fault Refusal := .next (s.missTest d)

/-- HOLD_MAX_EXPIRY (R49): the cycles in HOLDOVER have reached HOLD_MAX. -/
def execHoldMaxExpiry (d : Fin 16) (s : State) : Host.Outcome State Fault Refusal :=
  .next (if s.drnState d = 3 ∧ s.rd (R.DRN_HOLD_MAX_HOLD_MAX d) ≤ (s.drone d).hold then s.drnTo d 4 else s)

/-! ### Registers -/

/-- DRN_ENABLE (R49): a write of DRN_CTRL that gives ENABLE its value. -/
def execDrnEnable (w : Who) (d : Fin 16) (v : BitVec 32) (s : State) : Host.Outcome State Fault Refusal :=
  .next (s.writeReg w (0x30000 + 0x400 * d) v.toNat)

/-- REACQ (R49). -/
def execReacq (w : Who) (d : Fin 16) (v : BitVec 32) (s : State) : Host.Outcome State Fault Refusal :=
  .next (s.writeReg w (0x30000 + 0x400 * d) (v ||| 2).toNat)

/-- PRESET_GO (R67). -/
def execPresetGo (w : Who) (d : Fin 16) (v : BitVec 32) (s : State) : Host.Outcome State Fault Refusal :=
  .next (s.writeReg w (0x30000 + 0x400 * d) (v ||| 4).toNat)

/-- DRN_CNT_CLR (R824). -/
def execDrnCntClr (w : Who) (d : Fin 16) (v : BitVec 32) (s : State) : Host.Outcome State Fault Refusal :=
  .next (s.writeReg w (0x30000 + 0x400 * d) (v ||| 0x20).toNat)

/-- ALT_ACTIVE_RETURN (R56): a write of DRN_STAT with ALT_ACTIVE. -/
def execAltActiveReturn (w : Who) (d : Fin 16) (v : BitVec 32) (s : State) : Host.Outcome State Fault Refusal :=
  .next (s.writeReg w (0x30074 + 0x400 * d) (v ||| 0x40).toNat)

/-- EV_PHASE_WRITE (R69). -/
def execEvPhaseWrite (w : Who) (d e : Fin 16) (v : BitVec 32) (s : State) : Host.Outcome State Fault Refusal :=
  .next (s.writeReg w (0x30200 + 0x400 * d + 0x10 * e) v.toNat)

/-- EV_CTRL_WRITE (R60). -/
def execEvCtrlWrite (w : Who) (d e : Fin 16) (v : BitVec 32) (s : State) : Host.Outcome State Fault Refusal :=
  .next (s.writeReg w (0x30204 + 0x400 * d + 0x10 * e) v.toNat)

/-- DRN_SNAP_READ (R74): a read of DRN_SNAP_LO. -/
def execDrnSnapRead (w : Who) (d : Fin 16) (s : State) : Host.Outcome State Fault Refusal :=
  .next (s.readReg w (0x30060 + 0x400 * d))

/-- LATCH_BANK_READ (R787): a read of the last word of the latch bank. -/
def execLatchBankRead (w : Who) (s : State) : Host.Outcome State Fault Refusal := .next (s.readReg w 0x3508C)

end Sys2Proof.Machine
end

