-- ==== Sys2Proof/Machine/CopyCore.lean ====
section
/-! DEFINITION. The block transfers of TDMA and DMA rows (spec/04_address_space_memory.md R120 to R125). -/

namespace Sys2Proof.Machine

/-- A parameter block (R122). -/
structure CopyBlk where
  src : Nat
  dst : Nat
  len : Nat
  lines : Nat
  srcHere : Bool
  dstHere : Bool
  srcStride : Int
  dstStride : Int
  srcIter : Int
  dstIter : Int
  pattern : List Byte

/-- Read a parameter block; both bases stand for an iteration (R122, R123). -/
def copyBlk (l : List Byte) : CopyBlk :=
  { src := pb l 0 8, dst := pb l 8 8, len := pb l 16 3 + 1, lines := pb l 20 2 + 1,
    srcHere := bit (pb l 22 1) 0, dstHere := bit (pb l 22 1) 1,
    srcStride := sx 32 (pb l 24 4), dstStride := sx 32 (pb l 28 4),
    srcIter := sx 32 (pb l 32 4), dstIter := sx 32 (pb l 36 4), pattern := (l.drop 40).take 8 }

/-- A base with CHIP taken as this chip where the block says so (R122). -/
def State.copyGa (s : State) (ga : Nat) (here : Bool) : Nat :=
  if here then bits ga 0 48 + s.chip * 2 ^ 48 + bits ga 63 1 * 2 ^ 63 else ga

/-- The parameter block, read when iteration 0 fires: from the tile's own store, or from the engine's chip (R121). -/
def State.copyParam (s : State) (u c : Nat) (w : Who) : State × Status × List Byte :=
  if u < 0x40 then s.paramBlock u c w
  else
    let x := s.ctx u c
    if x.param ≠ [] then (s, .ok, x.param)
    else
      let a := bits (rowPayload x.row) 6 42 * 64
      let r := s.busRead w (s.stamp a) a 64
      (if r.2.1 = .ok then r.1.setCtx u c { r.1.ctx u c with param := r.2.2 } else r.1, r.2)

/-- The words of a read, each with whether it is poisoned. -/
def State.wordFlags (s : State) (code : Nat) (w : Who) : List Nat → State × List (Nat × Bool)
  | [] => (s, [])
  | wa :: t =>
    let r := s.readWord code wa w
    let q := r.1.wordFlags code w t
    (q.1, (wa, r.2) :: q.2)

/-- A byte of an iteration whose ranges overlap is the source byte as it was when the iteration fired, or as it is now;
which of the two is left open (R124). -/
def mixBytes (pick : Nat → Nat) (k : Nat) : List Byte → List Byte → List Byte
  | a :: s, b :: t => (if pick k % 2 = 0 then a else b) :: mixBytes pick (k + 1) s t
  | _, _ => []

/-- One request of a copy's source: the bytes, each with whether it comes from a poisoned word (R125). `s0` is the
state in which the iteration fired, k counts the bytes of the iteration. -/
def State.copyRead (s0 s : State) (w : Who) (ga n k : Nat) : State × Status × List (Byte × Bool) :=
  let a := gaLocal ga
  match s.gaHere ga && !gaHost ga, placeOf a with
  | true, .memory _ _ =>
    let r := s.memAdmit w (s.stamp a) a n false
    if r.2.1 ≠ .ok then (r.1, r.2.1, [])
    else if r.2.2.1 = 0x64 ∧ 0x12000 ≤ r.2.2.2 - 0x4000000 ∧ r.2.2.2 - 0x4000000 < 0x20000 then
      (r.1, .ok, List.replicate n (0, false))
    else
      let ew := eccWord r.2.2.1
      let q := r.1.wordFlags r.2.2.1 w (wordsOf ew r.2.2.2 n)
      let data := mixBytes (Config.freeValue s0.freeCtr) k (s0.getBytes r.2.2.2 n) (q.1.getBytes r.2.2.2 n)
      let all := q.1.spanUnknown r.2.2.1 r.2.2.2 n && Config.unknownPoison q.1.freeCtr
      (if q.1.spanUnknown r.2.2.1 r.2.2.2 n then q.1.drawn else q.1, .ok,
        (data.zip (List.range n)).map fun b =>
          (b.1, all || q.2.any fun f => f.2 && decide (f.1 ≤ r.2.2.2 + b.2) && decide (r.2.2.2 + b.2 < f.1 + ew)))
  | _, _ =>
    let r := s.gaRead w ga n
    if r.2.1 = .poison then (r.1, .ok, List.replicate n (0, true))
    else (r.1, r.2.1, r.2.2.map fun b => (b, false))

/-- One request of a copy's destination: every word that takes a poisoned byte becomes stored poison (R125, R136). A
poisoned word is not written into registers or the doorbell image. -/
def State.copyWrite (s : State) (w : Who) (ga : Nat) (l : List (Byte × Bool)) : State × Status :=
  let a := gaLocal ga
  let data := l.map fun b => b.1
  if l.all fun b => !b.2 then s.gaWrite w ga data
  else if !s.gaHere ga then
    let r := s.remoteCall w 0xFF ga true data.length data true
    (r.1, r.2.1)
  else if gaHost ga then
    let g := s.hostAdmit w a data.length true
    if g.2 ≠ .ok then g else ({ g.1 with hostOut := g.1.hostOut ++ [(hostFn w, a, [])] }, .poison)
  else match placeOf a with
    | .memory _ _ =>
      let r := s.memAdmit w (s.stamp a) a data.length true
      if r.2.1 ≠ .ok then (r.1, r.2.1)
      else
        let q := r.1.writeMem r.2.2.1 r.2.2.2 data w
        let bad := (l.zip (List.range l.length)).filter fun b => b.1.2
        (bad.foldl (fun (s : State) b => s.poisonMem r.2.2.1 (r.2.2.2 + b.2) 1) q.1, .poison)
    | _ => (s, .poison)

/-- How far a transfer has come: the state, its end so far, the bytes written. -/
structure CopyRun where
  st : State
  fin : Status := .ok
  done : Nat := 0

/-- A request has ended; POISON does not stop a transfer (R125). -/
def CopyRun.take (r : CopyRun) (q : State × Status) (n : Nat) : CopyRun :=
  if q.2 = .ok ∨ q.2 = .poison then ⟨q.1, worse r.fin q.2, r.done + n⟩ else ⟨q.1, q.2, r.done⟩

/-- No further requests are issued (R125). -/
def CopyRun.stops (r : CopyRun) : Bool := r.fin != .ok && r.fin != .poison

/-- The requests of one piece of a line's destination. -/
def copyOut (w : Who) (ga : Nat) (l : List (Byte × Bool)) : List (Nat × Nat) → CopyRun → CopyRun
  | [], r => r
  | (o, n) :: t, r =>
    if r.stops then r else copyOut w ga l t (r.take (r.st.copyWrite w (gaAdd ga o) ((l.drop o).take n)) n)

/-- The destination requests of one source request that has been answered. -/
def copyPiece (w : Who) (ga n : Nat) (r : CopyRun) (q : State × Status × List (Byte × Bool)) : CopyRun :=
  let r1 := r.take (q.1, if q.2.1 = .ok ∧ (q.2.2.any fun b => b.2) then .poison else q.2.1) 0
  if r1.stops then r1 else copyOut w ga q.2.2 (lineCuts (gaLocal ga) n) r1

/-- One line of a copy: each request of the source, then those of the destination that its bytes go to. `s0` is the
state in which the iteration fired, k the number of the line's first byte. -/
def copyLine (s0 : State) (w : Who) (sga dga k : Nat) (l : List (Nat × Nat)) (r : CopyRun) : CopyRun :=
  l.foldl (fun (r : CopyRun) p =>
    if r.stops then r else copyPiece w (gaAdd dga p.1) p.2 r (State.copyRead s0 r.st w (gaAdd sga p.1) p.2 (k + p.1))) r

/-- Lines j to the end of a copy: `n` are left. -/
def copyLines (s0 : State) (w : Who) (b : CopyBlk) (sga dga j : Nat) : Nat → CopyRun → CopyRun
  | 0, r => r
  | n + 1, r =>
    let sl := gaAdd sga (j * b.srcStride)
    copyLines s0 w b sga dga (j + 1) n (copyLine s0 w sl (gaAdd dga (j * b.dstStride)) (j * b.len) (lineCuts (gaLocal sl) b.len) r)

/-- The pattern bytes of a span (R122). -/
def fillBytes (pattern : List Byte) (a n : Nat) : List Byte := (List.range n).map fun i => pattern.getD ((a + i) % 8) 0

/-- One line of a fill. -/
def fillLine (w : Who) (p : List Byte) (ga : Nat) : List (Nat × Nat) → CopyRun → CopyRun
  | [], r => r
  | (o, n) :: t, r =>
    let g := gaAdd ga o
    if r.stops then r else fillLine w p ga t (r.take (r.st.gaWrite w g (fillBytes p (gaLocal g) n)) n)

/-- Lines j to the end of a fill: `n` are left. -/
def fillLines (w : Who) (b : CopyBlk) (dga j : Nat) : Nat → CopyRun → CopyRun
  | 0, r => r
  | n + 1, r =>
    let dl := gaAdd dga (j * b.dstStride)
    fillLines w b dga (j + 1) n (fillLine w b.pattern dl (lineCuts (gaLocal dl) b.len) r)

/-- Which of two bytes stood is spent by a copy (R124). -/
def CopyRun.close (r : CopyRun) : CopyRun := { r with st := r.st.drawn }

/-- A block transfer from its bases: a copy (op 1) or a fill (op 2). -/
def transferBlk (s : State) (op : Nat) (w : Who) (b : CopyBlk) (sga dga : Nat) : CopyRun :=
  if op = 1 then (copyLines s w b sga dga 0 b.lines ⟨s, .ok, 0⟩).close else fillLines w b dga 0 b.lines ⟨s, .ok, 0⟩

/-- One iteration of a COPY (op 1) or FILL (op 2) row (R120 to R125). A request answered RETRY is issued again by the
engine itself (R719): the iteration has then not ended. -/
def State.copyFill (s : State) (op u c : Nat) : State :=
  let row := (s.ctx u c).row
  let w := s.rowWho u c (rowClass row)
  let it := s.rd (R.CTX_PC_ITER (win u) c)
  let p := s.copyParam u c w
  if p.2.1 = .retry then s
  else if p.2.1 ≠ .ok then p.1.report_ u c p.2.1 0
  else
    let b := copyBlk p.2.2
    let sga := gaAdd (s.copyGa b.src b.srcHere) (it * b.srcIter)
    let dga := gaAdd (s.copyGa b.dst b.dstHere) (it * b.dstIter)
    let r := transferBlk p.1 op w b sga dga
    if r.fin = .retry then s
    else
      let s1 := if s.gaHere dga && gaHost dga then r.st.setCtx u c { r.st.ctx u c with hostFn := hostFn w + 1 } else r.st
      s1.report_ u c r.fin 0

end Sys2Proof.Machine
end

