-- ==== Sys2Proof/Machine/WwDeliver.lean ====
section
/-! DEFINITION. Windway messages and frames on their way in (spec/17_windway.md R558, R559, R561 to R564, R567, R570 to
R572, R580). -/

namespace Sys2Proof.Machine

/-! ### Forwarding (R564) -/

/-- A message that a part answers: WR, RD, TOK. -/
def isRequest (m : WwMsg) : Bool := m.mtype == 1 || m.mtype == 2 || m.mtype == 5

/-- The answer to a request goes back by the route of its requester's chip (R570); without one it is discarded and counted
(R564). -/
def State.wwAnswer (s : State) (m : WwMsg) (st : Status) (data : List Byte) : State :=
  let ty := if m.mtype = 1 then 4 else if m.mtype = 2 then 3 else 6
  let r := s.wwSend { m with mtype := ty, dst := m.src, epoch := 0, status := statusNat st, data := data }
  if r.2 then r.1 else r.1.count R.WW_CNT_HOP_DROP 1

/-- A message that cannot go on: a request is answered NACK_ABSENT, another is discarded and counted. -/
def State.wwStuck (s : State) (m : WwMsg) : State :=
  if isRequest m then s.wwAnswer m .nackAbsent [] else s.count R.WW_CNT_HOP_DROP 1

/-- The residence time of a time exchange starts: the system time leaves CORR here and enters it as the header leaves
(R575). -/
def State.residence (s : State) (m : WwMsg) : WwMsg :=
  let sub (o : Nat) : WwMsg := dataPut m o 4 (dataAt m o 4 + 2 ^ 48 - s.sysTime)
  if m.mtype = 8 ∧ m.addr % 256 = 2 then sub 6 else if m.mtype = 8 ∧ m.addr % 256 = 3 then sub 22 else m

/-- A message for another chip is forwarded, or ends here (R564). -/
def State.wwForward (s : State) (m : WwMsg) : State :=
  if m.hops = 0 then (if isRequest m then (s.count R.WW_CNT_HOP_DROP 1).wwAnswer m .nackAbsent [] else s.count R.WW_CNT_HOP_DROP 1)
  else
    let r := s.routeOf m.dst
    let go (p : Nat) : State := s.wwPut p (s.residence { m with hops := m.hops - 1 })
    if s.portUsable r.1 then go r.1 else if s.portUsable r.2 then go r.2 else s.wwStuck m

/-! ### Local delivery -/

/-- Who a request over Windway is from (R570). -/
def msgWho (m : WwMsg) : Who := { ini := Fin.ofNat 64 m.init, cls := Fin.ofNat 4 m.cls, remote := true }

/-- The global address of a WR or RD, on this chip. -/
def State.msgGa (s : State) (m : WwMsg) : Nat := m.addr % 2 ^ 48 + s.chip * 2 ^ 48 + b2n m.host * 2 ^ 63

/-- WR performs as a local access would and is answered by WRACK (R570); one marked POISON writes stored poison (R136). -/
def State.wwWrite (s : State) (m : WwMsg) : State :=
  let data := fitBytes (m.size + 1) m.data
  let r := if m.status = 3 then s.copyWrite (msgWho m) (s.msgGa m) (data.map fun b => (b, true)) else s.gaWrite (msgWho m) (s.msgGa m) data
  r.1.wwAnswer m r.2 []

/-- RD performs as a local access would and is answered by RDRSP (R570). -/
def State.wwRead (s : State) (m : WwMsg) : State :=
  let r := s.gaRead (msgWho m) (s.msgGa m) (m.size + 1)
  r.1.wwAnswer m r.2.1 (if r.2.1 = .ok ∨ r.2.1 = .poison then fitBytes (m.size + 1) r.2.2 else [])

/-- RDRSP or WRACK ends its request; one that finds none is late, and so is an orphan's (R571, R717, R722). -/
def State.wwReply (s : State) (m : WwMsg) : State :=
  match s.outst.find? fun o => o.tag == m.tag && o.write == (m.mtype == 4) with
  | none => s.count R.WW_CNT_LATE_RSP 1
  | some o =>
    if o.orphan then (s.count R.UL_CNT1_LATE_RSP 1).outstEnd o (statusOf m.status) []
    else s.outstEnd o (statusOf m.status) (if o.write then [] else m.data)

/-- One token or credit message of a TOK (R572). A malformed one has no effect and ends with NACK_ABSENT. One of a core
that carries epoch 0 takes the unit's present epoch (R715). -/
def State.tokIn (s : State) (core : Bool) (m : Nat) : State × Status :=
  if msgMalformed m then (s, .nackAbsent)
  else s.arrive (if core && bits m 40 8 == 0 then m + s.epochOf (bits m 16 8) * 2 ^ 40 else m)

/-- TOK delivers its messages and is answered by TOKACK with the worse result (R572); while GROUP_FAULT is set it is
answered RETRY (R586). -/
def State.wwTok (s : State) (m : WwMsg) : State :=
  if s.groupFault then s.wwAnswer m .retry []
  else
    let core := decide (0x20 ≤ m.init) && decide (m.init < 0x24)
    let a := s.tokIn core (dataAt m 0 8)
    if dataAt m 8 8 = 0 then a.1.wwAnswer m a.2 []
    else
      let b := a.1.tokIn core (dataAt m 8 8)
      b.1.wwAnswer m (worse a.2 b.2) []

/-- TOKACK ends its post (R572). -/
def State.wwTokAck (s : State) (m : WwMsg) : State :=
  match s.tokOut.find? fun t => t.tag == m.tag with
  | none => s.count R.WW_CNT_LATE_RSP 1
  | some t => s.tokEnd t (statusOf m.status)

/-- A MGMT message, by its subtype (R562, R652, R653, R730). -/
def State.wwMgmt (s : State) (p : Nat) (m : WwMsg) : State :=
  match m.addr % 256 with
  | 0x01 => s.joinGot p m.data
  | 0x02 => s.timeGot p m
  | 0x03 => s.timeDone p m
  | 0x04 => s.leaderGot m
  | 0x05 => s.lossNotice
  | 0x06 => s.safeNotice
  | 0x07 => s.setGroupFault
  | 0x08 => s.wr R.UL_CTRL_ADMIT_SEEN 1
  | 0x10 => s.fwmsgGot m.data
  | 0x11 => s.lsSig p m.data
  | 0x12 => s.lsRows p m.addr m.data
  | _ => s

/-- A SWEEP message, by its subtype (R587 to R591). -/
def State.wwSweep (s : State) (p : Nat) (m : WwMsg) : State :=
  match m.addr % 256 with
  | 1 => s.sweepArm m.src p m.data
  | 2 => s.sweepSync p m.data
  | 3 => s.sweepAck m.src m.data
  | 4 => s.sweepStop
  | 5 => s.sweepEnd
  | 6 => s.sweepAborted
  | 7 => s.sweepRefused
  | _ => s

/-- A message for this chip acts (R562); a reserved type is discarded and counted. -/
def State.wwLocal (s : State) (p : Nat) (m : WwMsg) : State :=
  match m.mtype with
  | 0 => s
  | 1 => s.wwWrite m
  | 2 => s.wwRead m
  | 3 => s.wwReply m
  | 4 => s.wwReply m
  | 5 => s.wwTok m
  | 6 => s.wwTokAck m
  | 7 => s.syncGot p m
  | 8 => s.wwMgmt p m
  | 9 => s.wwSweep p m
  | _ => { s with badMsg := s.badMsg + 1 }

/-- Messages between neighbours alone: SYNC, JOIN_INFO, FWMSG, LSSIG, LSROWS. -/
def neighbourOnly (m : WwMsg) : Bool :=
  m.mtype == 7 || (m.mtype == 8 && (m.addr % 256 == 1 || decide (0x10 ≤ m.addr % 256)))

/-- A message arrives on a port: in MGMT only a MGMT one (R555); at a port that is not ACTIVE requests get the answers of
R719. A broadcast acts here and goes on (R567), a message for another chip is forwarded. -/
def State.wwIn (s : State) (p : Nat) (m : WwMsg) : State :=
  let u := s.unitSt (portUnit p)
  if s.portState p < (if m.mtype = 8 then 2 else 3) ∨ u.state = 2 then s
  else if isRequest m ∧ (u.state = 3 ∨ u.state = 1) then
    s.wwAnswer m (if u.state = 1 ∧ u.retryOver then .nackAbsent else .retry) []
  else if 10 ≤ m.mtype then s.wwLocal p m
  else if m.bcast then
    if m.hops = 0 then (s.wwLocal p m).count R.WW_CNT_HOP_DROP 1 else (s.wwLocal p m).wwBcast p { m with hops := m.hops - 1 }
  else if m.dst = s.chip ∨ neighbourOnly m then s.wwLocal p m
  else s.wwForward m

/-! ### Frames (R558, R559, R580) -/

/-- Sequence number a is b or comes before it. -/
def seqBy (a b : Nat) : Bool := decide ((b + 2 ^ 16 - a % 2 ^ 16) % 2 ^ 16 < 2 ^ 15)

/-- The trailer of an accepted frame: frames acknowledged leave the replay buffer, NAK replays the rest, credits return up
to `cap` flits per channel. -/
def PortSt.trailer (x : PortSt) (cap : Nat) (f : WwFrame) : PortSt :=
  let un := x.unacked.filter fun g => !seqBy g.1 f.ack
  let y : PortSt := { x with unacked := un, resend := x.resend.filter fun q => un.any fun g => g.1 == q,
                             cred := (x.cred.zip f.credits).map fun c => min cap (c.1 + c.2) }
  if f.nak then y.replayAll else y

/-- Flits that an accepted frame frees again on a channel, once its messages have been taken from the input buffer. -/
def flitsOn (f : WwFrame) (v : Nat) : Nat := ((f.msgs.filter fun m => m.mtype != 0 && msgVc m.mtype == v).map msgFlits).sum

/-- A frame is accepted: its trailer acts, and its messages arrive in order. -/
def State.wwAccept (s : State) (p : Nat) (f : WwFrame) : State :=
  let s1 := s.portMod p fun x =>
    let y := x.trailer (if p < 8 then 256 else 1024) f
    { y with rxNext := (f.seq + 1) % 2 ^ 16, lastGood := s.now,
             owed := (y.owed.zip [0, 1, 2]).map fun o => o.1 + flitsOn f o.2 }
  f.msgs.foldl (fun s m => s.wwIn p m) s1

/-- A frame with a correct CRC reaches a port in MGMT or UP: the next in order is accepted, another is discarded and, on a
link, answered by NAK; a tunnel port answers a gap by NAK. -/
def State.wwOrder (s : State) (p : Nat) (f : WwFrame) : State :=
  let x := s.port p
  if f.seq % 2 ^ 16 = x.rxNext then s.wwAccept p f
  else s.setPort p { x with lastGood := s.now, nak := x.nak || p < 8 || !seqBy f.seq x.rxNext }

/-- FRAME_RECEIVE: a frame of a link, none for a CRC failure; the link's own next frame goes out, one for each frame time
(R557, R558). -/
def State.frameReceive (s : State) (n : Nat) (fr : Option WwFrame) : State :=
  if s.portState n < 2 then s
  else
    let s1 := match fr with
      | none => (s.count (R.WL_CNT2_CRC_ERR n) 1).portMod n fun x => { x with nak := true }
      | some f => s.wwOrder n f
    if s1.portState n < 2 then s1 else (s1.nextFrame n).1

/-- TRAINING_COMPLETE: lanes locked at a width and generation, and the first valid frame (R554, R555). -/
def State.trainDone (s : State) (n width : Nat) (gen2 : Bool) (f : WwFrame) : State :=
  if s.portState n ≠ 1 then s
  else
    let s1 := s.wrAll [(R.WL_STAT_WIDTH n, width), (R.WL_STAT_GEN n, b2n (gen2 && !s.on (R.WL_CTRL_GEN1_ONLY n)))]
    (s1.toMgmt n f.seq).wwAccept n f

/-- TUNNEL_FRAME_RECEIVE: the first valid frame takes the port to MGMT, later ones are taken in order (R580). -/
def State.tunnelFrame (s : State) (k : Nat) (f : WwFrame) : State :=
  let p := 8 + k
  if s.portState p = 0 then s
  else if s.portState p = 1 then (s.toMgmt p f.seq).wwAccept p f
  else s.wwOrder p f

end Sys2Proof.Machine
end

