-- ==== Sys2Proof/Machine/EthCore.lean ====
section
/-! DEFINITION. Ethernet frames in and out, tunnel frames in Ethernet frames (spec/17_windway.md R561, R578, R579;
spec/18_field_interfaces.md R607, R608, R612). -/

namespace Sys2Proof.Machine

/-! ### Messages as flits (R561, R562) -/

/-- The header flit of a message. -/
def msgHeader (m : WwMsg) : List Byte :=
  leBytes 16 (m.mtype % 16 + msgDlen m % 8 * 2 ^ 4 + b2n m.bcast * 2 ^ 7 + m.cls % 4 * 2 ^ 8 + m.init % 64 * 2 ^ 10 + m.src % 2 ^ 15 * 2 ^ 16 +
    m.dst % 2 ^ 15 * 2 ^ 31 + m.hops % 16 * 2 ^ 46 + m.tag % 2 ^ 11 * 2 ^ 50 + b2n m.host * 2 ^ 61 + m.epoch % 2 ^ 8 * 2 ^ 62 +
    m.status % 16 * 2 ^ 70 + m.size % 64 * 2 ^ 74 + m.addr % 2 ^ 48 * 2 ^ 80)

/-- WR and RDRSP carry their data from byte ADDR mod 16 of the first flit onward. -/
def msgPlaced (mtype : Nat) : Bool := mtype == 1 || mtype == 3

/-- The data flits of a message. Bytes that would pass the last flit stand at the start of the first. -/
def msgFlitData (m : WwMsg) : List Byte :=
  let n := 16 * msgDlen m
  if msgPlaced m.mtype ∧ n ≠ 0 then
    let l := fitBytes n (fitBytes (min n (m.size + 1)) m.data)
    (List.range n).map fun i => l.getD ((i + n - m.addr % 16) % n) 0
  else fitBytes n m.data

/-- A message of a header flit and its data flits. -/
def msgOf (h data : List Byte) : WwMsg :=
  let x := leNat h
  let t := bits x 0 4
  let a := bits x 80 48
  let n := data.length
  { mtype := t, bcast := bit x 7, cls := bits x 8 2, init := bits x 10 6, src := bits x 16 15, dst := bits x 31 15, hops := bits x 46 4,
    tag := bits x 50 11, host := bit x 61, epoch := bits x 62 8, status := bits x 70 4, size := bits x 74 6, addr := a,
    data := if msgPlaced t then (List.range (min n (bits x 74 6 + 1))).map fun i => data.getD ((i + a % 16) % n) 0 else data }

/-- Messages of a run of flits: whole ones only. -/
def msgsOf : Nat → List Byte → List WwMsg
  | 0, _ => []
  | n + 1, l =>
    let d := bits (leNat (l.take 16)) 4 3
    if l.length < 16 + 16 * d then []
    else
      let m := msgOf (l.take 16) ((l.drop 16).take (16 * d))
      (if m.mtype = 0 then [] else [m]) ++ msgsOf n (l.drop (16 + 16 * d))

/-! ### Tunnel frames (R578 to R580) -/

/-- A MAC address as bytes on the wire. -/
def macBytes (a : Nat) : List Byte := beBytes 6 a

/-- The class of a tunnel frame: the highest among its messages; class S where it has none. -/
def frameClass (f : WwFrame) : Nat := f.msgs.foldl (fun c m => min c m.cls) (if f.msgs = [] then 0 else 3)

/-- The PCP of a tunnel frame, and the traffic class it takes (R579). -/
def State.tunnelPcp (s : State) (k : Nat) (f : WwFrame) : Nat := bits (s.rd (R.WT_CTRL_PCP_MAP k)) (3 * frameClass f) 3

def State.peerMac (s : State) (k : Nat) : Nat := s.rd (R.WT_MAC_LO_MAC k) + s.rd (R.WT_MAC_HI_MAC k) * 2 ^ 32
def State.ownMac (s : State) (p : Nat) : Nat := s.rd (R.ETH_MAC_LO_MAC p) + s.rd (R.ETH_MAC_HI_MAC p) * 2 ^ 32

/-- A tunnel frame as an Ethernet frame without FCS, padded to the least length. -/
def State.tunnelBytes (s : State) (k : Nat) (f : WwFrame) : List Byte :=
  let flits := (f.msgs.map fun m => msgHeader m ++ msgFlitData m).flatten
  let tag := if s.on (R.WT_CTRL_VLAN_EN k) then beBytes 2 0x8100 ++ beBytes 2 (s.tunnelPcp k f * 2 ^ 13 + s.rd (R.WT_CTRL_VID k)) else []
  let l := macBytes (s.peerMac k) ++ macBytes (s.ownMac (s.rd (R.WT_CTRL_ETH_PORT k))) ++ tag ++ beBytes 2 (s.rd R.WW_ETYPE_ETYPE) ++
    [1, 0] ++ leBytes 2 f.seq ++ leBytes 2 f.ack ++ leBytes 1 (b2n f.nak + b2n f.keepalive * 2) ++ [0] ++
    leBytes 2 (f.credits.getD 0 0) ++ leBytes 2 (f.credits.getD 1 0) ++ leBytes 2 (f.credits.getD 2 0) ++ leBytes 2 (flits.length / 16) ++ flits
  l ++ List.replicate (60 - l.length) 0

/-- The tunnel frame of an Ethernet frame's tunnel header and flits. -/
def tunnelOf (l : List Byte) : WwFrame :=
  let f (o : Nat) : Nat := pb l o 2
  { seq := f 2, ack := f 4, nak := bit (pb l 6 1) 0, keepalive := bit (pb l 6 1) 1, credits := [f 8, f 10, f 12],
    msgs := msgsOf 92 ((l.drop 16).take (16 * min 92 (f 14))) }

/-- A frame of EtherType ETYPE goes to the tunnel port of its Ethernet port and source; one with a wrong version or source
is dropped and counted (R578). -/
def State.ethTunnel (s : State) (p : Nat) (f : List Byte) : State :=
  let l := f.drop (if ethTagged f then 18 else 14)
  let k := (List.range 4).find? fun k => s.on (R.WT_CTRL_EN k) && s.rd (R.WT_CTRL_ETH_PORT k) == p && s.peerMac k == macOf (f.drop 6)
  match k with
  | some k => if pb l 0 1 = 1 then s.tunnelFrame k (tunnelOf l) else { s with badMsg := s.badMsg + 1 }
  | none => { s with badMsg := s.badMsg + 1 }

/-- ETH_FRAME_RECEIVE: a frame without its FCS, whether that was right, by the first rule of R607; the port's link is up
at a speed. -/
def State.ethReceive (s : State) (p speed : Nat) (f : List Byte) (fcsOk : Bool) : State :=
  if !s.on (R.ETH_CTRL_EN p) then s
  else
    let s1 := s.wrAll [(R.ETH_STAT_LINK p, 1), (R.ETH_STAT_SPEED p, speed)]
    if !fcsOk ∨ f.length < 60 ∨ s.rd (R.ETH_MAXLEN_MAXLEN p) < f.length then s1.count (R.ETH_STAT_RX_BAD p) 1
    else if !s1.ethAccepts p f then s1
    else if ethType f = s1.rd R.WW_ETYPE_ETYPE then s1.ethTunnel p f
    else s1.ethSteer p f

/-! ### Transmission selection (R608) -/

/-- A tunnel port has a frame to send. -/
def State.tunnelDue (s : State) (k : Nat) : Bool :=
  let p := 8 + k
  let x := s.port p
  s.on (R.WT_CTRL_EN k) && decide (1 ≤ s.portState p) &&
    (x.resend != [] || x.nak || x.keep || x.owed.any (· != 0) ||
      (decide (2 ≤ s.portState p) && (pickMsg x (s.portState p == 2)).isSome) ||
      (s.portState p == 3 && !s.groupFault &&
        s.msgs.any fun m => bits m.1 0 15 != s.chip && s.routePort (bits m.1 0 15) (s.postIni m.2) == some p))

/-- The tunnel frame of traffic class c that starts now on an Ethernet port, if one may. -/
def State.tunnelNext (s : State) (p c speed : Nat) : Option (State × List Byte) :=
  (List.range 4).findSome? fun k =>
    if s.rd (R.WT_CTRL_ETH_PORT k) = p ∧ s.tunnelDue k then
      match s.nextFrame (8 + k) with
      | (s1, some f) =>
        let l := s.tunnelBytes k f
        if s.tunnelPcp k f = c ∧ s.gateOpenFor p c (ethTime speed l.length) then some (s1, l) else none
      | (_, none) => none
    else none

/-- The safety frame that starts now on an Ethernet port, in class 7 (R686). -/
def State.safetyNext (s : State) (p c speed : Nat) : Option (State × List Byte) :=
  match s.scTx.find? fun x => s.rd (R.SC_CFG_INDEX x.1) == p with
  | some x => if c = 7 ∧ s.gateOpenFor p 7 (ethTime speed x.2.length) then some ({ s with scTx := s.scTx.erase x }, x.2) else none
  | none => none

/-- The ring frame of a class that starts now; the tunnels have the next turn. -/
def State.ringTurn (s : State) (p c speed : Nat) : State × Option (List Byte) :=
  match s.ethRingFrame p c speed with
  | (s1, some f) => ({ s1 with ethTurn := (8 * p + c) :: s1.ethTurn.filter (· != 8 * p + c) }, some f)
  | r => r

/-- The tunnel frame of a class that starts now; the ring has the next turn. -/
def State.tunnelTurn (s : State) (p c speed : Nat) : State × Option (List Byte) :=
  match s.tunnelNext p c speed with
  | some (s1, f) => ({ s1 with ethTurn := s1.ethTurn.filter (· != 8 * p + c) }, some f)
  | none => (s, none)

/-- One class of a port: its ring and tunnel frames alternate. -/
def State.classNext (s : State) (p c speed : Nat) : State × Option (List Byte) :=
  match s.safetyNext p c speed with
  | some (s1, f) => (s1, some f)
  | none =>
    let a := if s.ethTurn.contains (8 * p + c) then s.tunnelTurn p c speed else s.ringTurn p c speed
    match a.2 with
    | some _ => a
    | none => if s.ethTurn.contains (8 * p + c) then a.1.ringTurn p c speed else a.1.tunnelTurn p c speed

/-- The classes in turn, until a frame starts. -/
def State.classesNext (p speed : Nat) : List Nat → State → State
  | [], s => s
  | c :: t, s =>
    match s.classNext p c speed with
    | (s1, some f) => { s1 with ethOut := s1.ethOut ++ [(p, f)] }
    | (s1, none) => s1.classesNext p speed t

/-- ETH_FRAME_TRANSMIT: the highest class with a frame that may start sends it (R608). -/
def State.ethTransmit (s : State) (p speed : Nat) : State :=
  if !s.on (R.ETH_CTRL_EN p) then s
  else (s.wrAll [(R.ETH_STAT_LINK p, 1), (R.ETH_STAT_SPEED p, speed)]).classesNext p speed [7, 6, 5, 4, 3, 2, 1, 0]

end Sys2Proof.Machine
end

