-- ==== Sys2Proof/Machine/Field.lean ====
section
/-! DEFINITION. Commands of the field interfaces (spec/18_field_interfaces.md, R787 to R790 of spec/23_register_map.md). -/

namespace Sys2Proof.Machine

/-- A packet of a receiver: its header is judged, and it reaches the contexts that it matches (R619, R620). -/
def State.csiPacket (s : State) (r hdr vc : Nat) (dt : Option Nat) (f : State → Nat → State) : State :=
  match s.csiHeader r hdr with
  | (s1, true) => s1.csiEach r vc dt f
  | (s1, false) => s1

/-- The address of a receive register. -/
def serRxAddr : SerialRx → Nat
  | .spi k => 0x34000C + 0x100 * k
  | .i2c k => 0x341014 + 0x100 * k
  | .uart k => 0x342010 + 0x100 * k
  | .xspi => 0x343010

/-- FR_TAIL_WRITE (R602): a write of FR_TAIL. -/
def execFrTailWrite (r : RingId) (w : Who) (v : BitVec 32) (s : State) : Host.Outcome State Fault Refusal :=
  .next (s.writeReg w (ringBase r + 0x0C) v.toNat)

/-- FIELD_ENTRY_DONE (R604): the oldest finished entry of a ring is written back; what parties outside answer. -/
def execFieldEntryDone (r : RingId) (rs : List Reply) (s : State) : Host.Outcome State Fault Refusal :=
  .next (s.withReplies rs fun s => s.frEntryDone (ringBase r))

/-- ETH_FRAME_RECEIVE (R607): a frame without FCS, at the speed of the port's link; whether its FCS is right; what parties outside answer. -/
def execEthFrameReceive (p : Fin 4) (speed : Fin 4) (f : List Byte) (fcsOk : Bool) (rs : List Reply) (s : State) : Host.Outcome State Fault Refusal :=
  .next (s.withReplies rs fun s => s.ethReceive p speed f fcsOk)

/-- ETH_FRAME_TRANSMIT (R608): the port is free to start a frame. -/
def execEthFrameTransmit (p : Fin 4) (speed : Fin 4) (rs : List Reply) (s : State) : Host.Outcome State Fault Refusal :=
  .next (s.withReplies rs fun s => s.ethTransmit p speed)

/-- GATE_ENTRY_END (R612). -/
def execGateEntryEnd (p : Fin 4) (s : State) : Host.Outcome State Fault Refusal := .next (s.gateEntryEnd p)

/-- QBV_CHANGE (R790): a write of QBV_CTRL with CHANGE. -/
def execQbvChange (p : Fin 4) (w : Who) (v : BitVec 32) (s : State) : Host.Outcome State Fault Refusal :=
  .next (s.writeReg w (0x310600 + 0x1000 * p) (v ||| 2).toNat)

/-- ADMIN_LIST_ACTIVATION (R612). -/
def execAdminListActivation (p : Fin 4) (s : State) : Host.Outcome State Fault Refusal := .next (s.qbvActivate p)

/-- RATE_ADJ_WRITE (R609): a write of RATE_ADJ. -/
def execRateAdjWrite (w : Who) (v : BitVec 32) (s : State) : Host.Outcome State Fault Refusal :=
  .next (s.writeReg w 0x314008 v.toNat)

/-- TIME_STEP (R609): a write of ST_STEP_HI. -/
def execTimeStep (w : Who) (v : BitVec 32) (s : State) : Host.Outcome State Fault Refusal :=
  .next (s.writeReg w 0x314010 v.toNat)

/-- CAN_TXREQ (R616): a write of CAN_TXREQ. -/
def execCanTxreq (c : Fin 4) (w : Who) (v : BitVec 32) (s : State) : Host.Outcome State Fault Refusal :=
  .next (s.writeReg w (0x320040 + 0x1000 * c) v.toNat)

/-- CAN_TRANSMIT_DONE (R616). -/
def execCanTransmitDone (c : Fin 4) (s : State) : Host.Outcome State Fault Refusal := .next (s.canSent c)

/-- CAN_FRAME_RECEIVE (R617): a frame, and the system time at the sample point of its SOF. -/
def execCanFrameReceive (c : Fin 4) (ts : BitVec 48) (f : CanFrame) (rs : List Reply) (s : State) : Host.Outcome State Fault Refusal :=
  .next (s.withReplies rs fun s => s.canReceive c ts.toNat f)

/-- CAN_BUS_OFF (R618). -/
def execCanBusOff (c : Fin 4) (s : State) : Host.Outcome State Fault Refusal := .next (s.canBusOff c)

/-- CAN_RECOVER (R618): a write of CAN_CTRL with RECOVER. -/
def execCanRecover (c : Fin 4) (w : Who) (v : BitVec 32) (s : State) : Host.Outcome State Fault Refusal :=
  .next (s.writeReg w (0x320000 + 0x1000 * c) (v ||| 16).toNat)

/-- BUS_OFF_RECOVERY (R618). -/
def execBusOffRecovery (c : Fin 4) (s : State) : Host.Outcome State Fault Refusal := .next (s.canRecovered c)

/-- CSI_FRAME_START (R621): a Frame Start packet; its header was clean, corrected or dropped. -/
def execCsiFrameStart (r : Fin 2) (hdr : Fin 3) (vc : Fin 4) (num : BitVec 16) (rs : List Reply) (s : State) : Host.Outcome State Fault Refusal :=
  .next (s.withReplies rs fun s => s.csiPacket r hdr vc none fun s x => s.csiStart r x num.toNat)

/-- CSI_LINE (R624): a line packet, its values unpacked, and whether its CRC is right. -/
def execCsiLine (r : Fin 2) (hdr : Fin 3) (vc : Fin 4) (dt : Fin 64) (vals : List Nat) (crcOk : Bool) (rs : List Reply) (s : State) : Host.Outcome State Fault Refusal :=
  .next (s.withReplies rs fun s => s.csiPacket r hdr vc (some dt) fun s x => s.csiLine r x dt vals crcOk)

/-- CSI_BAND_COMPLETE (R622): the writes of a context's next band are complete. -/
def execCsiBandComplete (r x : Fin 2) (s : State) : Host.Outcome State Fault Refusal := .next (s.csiBandDone r x)

/-- CSI_FRAME_END (R622): a Frame End packet. -/
def execCsiFrameEnd (r : Fin 2) (hdr : Fin 3) (vc : Fin 4) (rs : List Reply) (s : State) : Host.Outcome State Fault Refusal :=
  .next (s.withReplies rs fun s => s.csiPacket r hdr vc none fun s x => s.csiEnd r x 0)

/-- CSI_FRAME_TIMEOUT (R629). -/
def execCsiFrameTimeout (r x : Fin 2) (rs : List Reply) (s : State) : Host.Outcome State Fault Refusal :=
  .next (s.withReplies rs fun s => s.csiTimeout r x)

/-- CS_BUF_RET (R621): a write of CS_BUF_RET. -/
def execCsBufRet (r x : Fin 2) (w : Who) (v : BitVec 32) (s : State) : Host.Outcome State Fault Refusal :=
  .next (s.writeReg w (0x330128 + 0x1000 * r + 0x40 * x) v.toNat)

/-- SPI_TX (R626): a write of SPI_TX. -/
def execSpiTx (k : Fin 6) (w : Who) (v : BitVec 32) (s : State) : Host.Outcome State Fault Refusal :=
  .next (s.writeReg w (0x340008 + 0x100 * k) v.toNat)

/-- I2C_CMD (R788): a write of I2C_CMD with GO. -/
def execI2cCmd (k : Fin 4) (w : Who) (v : BitVec 32) (s : State) : Host.Outcome State Fault Refusal :=
  .next (s.writeReg w (0x341008 + 0x100 * k) (v ||| 0x200000).toNat)

/-- UART_TX (R626): a write of UART_TX. -/
def execUartTx (k : Fin 4) (w : Who) (v : BitVec 32) (s : State) : Host.Outcome State Fault Refusal :=
  .next (s.writeReg w (0x34200C + 0x100 * k) v.toNat)

/-- XSPI_CMD (R788): a write of XSPI_CMD with GO. -/
def execXspiCmd (w : Who) (v : BitVec 32) (s : State) : Host.Outcome State Fault Refusal :=
  .next (s.writeReg w 0x343004 (v ||| 0x800000).toNat)

/-- SERIAL_TRANSFER_DONE (R626). -/
def execSerialTransferDone (e : SerialEvent) (s : State) : Host.Outcome State Fault Refusal := .next (s.serDone e)

/-- SERIAL_RX_READ (R626): a read of a receive register. -/
def execSerialRxRead (r : SerialRx) (w : Who) (s : State) : Host.Outcome State Fault Refusal :=
  .next (s.readReg w (serRxAddr r))

/-- XSPI_WDATA_READ (R788): a read of XSPI_WDATA, and what the flash gives. -/
def execXspiWdataRead (w : Who) (rs : List Reply) (s : State) : Host.Outcome State Fault Refusal :=
  .next (s.withReplies rs fun s => s.readReg w 0x343018)

end Sys2Proof.Machine
end

