-- ==== Sys2Proof/Machine/Fife.lean ====
section
/-! DEFINITION. The instructions of the Fife engines, each as the word that an engine executes in an engine cycle that begins now, and the commands to the engines (spec/13_fife_engines.md). -/

namespace Sys2Proof.Machine

/-- The synchronised levels of FIO0 to FIO127 in this control cycle (R421). -/
def State.setFio (s : State) (fio : BitVec 128) : State := { s with fioLv := fio.toNat }

/-- A word of an opcode. -/
def isFe (op : Nat) (w : Nat) : Bool := feOp w == op

/-- A PUSH to a port. -/
def isPush (port : Nat) (w : Nat) : Bool := feOp w == 6 && bits w 23 2 == port

/-- A SIG of a code. -/
def isSig (code : Nat) (w : Nat) : Bool := feOp w == 0xC && bits w 24 3 == code

/-! ### Instructions (R422 to R433) -/

/-- NOP (R423). -/
def execNop (e : Fin 32) (s : State) : Host.Outcome State Fault Refusal := .next (s.feIssue e (isFe 0) State.feNop)

/-- BR (R424). -/
def execBr (e : Fin 32) (fio : BitVec 128) (s : State) : Host.Outcome State Fault Refusal :=
  .next ((s.setFio fio).feIssue e (isFe 1) State.feBr)

/-- LOOP (R424). -/
def execLoop (e : Fin 32) (s : State) : Host.Outcome State Fault Refusal := .next (s.feIssue e (isFe 2) State.feLoop)

/-- WAIT (R425). -/
def execWait (e : Fin 32) (fio : BitVec 128) (s : State) : Host.Outcome State Fault Refusal :=
  .next ((s.setFio fio).feIssue e (isFe 3) State.feWait)

/-- WAIT_END (R425): the condition of a stalled WAIT is tested. -/
def execWaitEnd (e : Fin 32) (fio : BitVec 128) (s : State) : Host.Outcome State Fault Refusal :=
  .next ((s.setFio fio).feWaitTest e)

/-- WAIT_TIMEOUT (R425). -/
def execWaitTimeout (e : Fin 32) (s : State) : Host.Outcome State Fault Refusal := .next (s.feTimeout e)

/-- SHIN (R426). -/
def execShin (e : Fin 32) (fio : BitVec 128) (s : State) : Host.Outcome State Fault Refusal :=
  .next ((s.setFio fio).feIssue e (isFe 4) State.feShin)

/-- SHOUT (R426). -/
def execShout (e : Fin 32) (s : State) : Host.Outcome State Fault Refusal := .next (s.feIssue e (isFe 5) State.feShout)

/-- PUSH_RX (R429). -/
def execPushRx (e : Fin 32) (s : State) : Host.Outcome State Fault Refusal := .next (s.feIssue e (isPush 0) State.fePushRx)

/-- PUSH_DRONE (R430). -/
def execPushDrone (e : Fin 32) (s : State) : Host.Outcome State Fault Refusal := .next (s.feIssue e (isPush 1) State.fePushDrone)

/-- PUSH_PCNT (R430). -/
def execPushPcnt (e : Fin 32) (s : State) : Host.Outcome State Fault Refusal := .next (s.feIssue e (isPush 2) State.fePushPcnt)

/-- PULL (R429). -/
def execPull (e : Fin 32) (s : State) : Host.Outcome State Fault Refusal := .next (s.feIssue e (isFe 7) State.fePull)

/-- FIFO_STALL_END (R429). -/
def execFifoStallEnd (e : Fin 32) (s : State) : Host.Outcome State Fault Refusal := .next (s.feFifoEnd e)

/-- XFER (R427). -/
def execXfer (e : Fin 32) (s : State) : Host.Outcome State Fault Refusal := .next (s.feIssue e (isFe 8) State.feXfer)

/-- LOAD (R428). -/
def execLoad (e : Fin 32) (s : State) : Host.Outcome State Fault Refusal := .next (s.feIssue e (isFe 9) State.feLoad)

/-- PIN (R428). -/
def execPin (e : Fin 32) (s : State) : Host.Outcome State Fault Refusal := .next (s.feIssue e (isFe 0xA) State.fePinOp)

/-- TGT (R428). -/
def execTgt (e : Fin 32) (s : State) : Host.Outcome State Fault Refusal := .next (s.feIssue e (isFe 0xB) State.feTgt)

/-- SIG_ERR (R428). -/
def execSigErr (e : Fin 32) (s : State) : Host.Outcome State Fault Refusal := .next (s.feIssue e (isSig 0) State.feSigErr)

/-- SIG_IRQ (R428). -/
def execSigIrq (e : Fin 32) (s : State) : Host.Outcome State Fault Refusal := .next (s.feIssue e (isSig 1) State.feSigIrq)

/-- SIG_TOKEN (R439). -/
def execSigToken (e : Fin 32) (s : State) : Host.Outcome State Fault Refusal := .next (s.feIssue e (isSig 2) State.feSigToken)

/-- SIG_HALT (R428). -/
def execSigHalt (e : Fin 32) (s : State) : Host.Outcome State Fault Refusal := .next (s.feIssue e (isSig 3) State.feSigHalt)

/-- SIG_CLRSTALE (R428). -/
def execSigClrstale (e : Fin 32) (s : State) : Host.Outcome State Fault Refusal :=
  .next (s.feIssue e (isSig 4) State.feSigClrstale)

/-- SIG_CRCRST (R428). -/
def execSigCrcrst (e : Fin 32) (s : State) : Host.Outcome State Fault Refusal := .next (s.feIssue e (isSig 5) State.feSigCrcrst)

/-- FETCH_ILLEGAL (R434). -/
def execFetchIllegal (e : Fin 32) (s : State) : Host.Outcome State Fault Refusal := .next (s.feIllegal e)

/-- FETCH_PARITY_ERROR (R434). -/
def execFetchParityError (e : Fin 32) (s : State) : Host.Outcome State Fault Refusal := .next (s.feParity e)

/-! ### Registers (R434 to R438, R448) -/

/-- FE_EN (R434): a write of FE_CTRL that gives EN its value. -/
def execFeEn (w : Who) (e : Fin 32) (v : BitVec 32) (s : State) : Host.Outcome State Fault Refusal :=
  .next (s.writeReg w (0x180000 + 0x200 * e) v.toNat)

/-- FE_HALT (R434): a write of FE_CTRL with HALT. -/
def execFeHalt (w : Who) (e : Fin 32) (v : BitVec 32) (s : State) : Host.Outcome State Fault Refusal :=
  .next (s.writeReg w (0x180000 + 0x200 * e) (v ||| 2).toNat)

/-- FE_STEP (R434): a write of FE_CTRL with STEP, and the levels of the engine cycle it starts. -/
def execFeStep (w : Who) (e : Fin 32) (v : BitVec 32) (fio : BitVec 128) (s : State) : Host.Outcome State Fault Refusal :=
  .next ((s.setFio fio).writeReg w (0x180000 + 0x200 * e) (v ||| 4).toNat)

/-- FIFE_GO (R435). -/
def execFifeGo (w : Who) (v : BitVec 32) (s : State) : Host.Outcome State Fault Refusal := .next (s.writeReg w (0x184000) v.toNat)

/-- FIFE_CLKRST (R435). -/
def execFifeClkrst (w : Who) (v : BitVec 32) (s : State) : Host.Outcome State Fault Refusal :=
  .next (s.writeReg w (0x184004) v.toNat)

/-- FE_INJ (R436): a write of FE_INJ, and the levels where the word runs at once. -/
def execFeInj (w : Who) (e : Fin 32) (v : BitVec 32) (fio : BitVec 128) (s : State) : Host.Outcome State Fault Refusal :=
  .next ((s.setFio fio).writeReg w (0x180028 + 0x200 * e) v.toNat)

/-- FE_TX (R438). -/
def execFeTx (w : Who) (e : Fin 32) (v : BitVec 32) (s : State) : Host.Outcome State Fault Refusal :=
  .next (s.writeReg w (0x180020 + 0x200 * e) v.toNat)

/-- FE_RX_READ (R438): a read of FE_RX. -/
def execFeRxRead (w : Who) (e : Fin 32) (s : State) : Host.Outcome State Fault Refusal :=
  .next (s.readReg w (0x180024 + 0x200 * e))

/-- INSTRUCTION_MEMORY_WRITE (R437): of word i. -/
def execInstructionMemoryWrite (w : Who) (e : Fin 32) (i : Fin 32) (v : BitVec 32) (s : State) : Host.Outcome State Fault Refusal :=
  .next (s.writeReg w (0x180100 + 0x200 * e + 4 * i) v.toNat)

/-- FIFE_NOW_READ (R448): a read of FIFE_NOW_LO. -/
def execFifeNowRead (w : Who) (s : State) : Host.Outcome State Fault Refusal := .next (s.readReg w 0x184008)

end Sys2Proof.Machine
end

