-- ==== Sys2Proof/Machine/HostRings.lean ====
section
/-! DEFINITION. Commands of the host interface: PCIe events, doorbells, rings and descriptors (spec/16_host_rings.md). -/

namespace Sys2Proof.Machine

/-! ### PCIe -/

/-- PCIE_RESET (R518): PE_PERST_N, a hot reset or link-down. -/
def execPcieReset (s : State) : Host.Outcome State Fault Refusal := .next s.pcieReset

/-- FLR (R547): of a function, or the removal of a VF. -/
def execFlr (n : Fin 32) (s : State) : Host.Outcome State Fault Refusal := .next (s.flr n)

/-- D3HOT_ENTRY (R519). -/
def execD3hotEntry (n : Fin 32) (s : State) : Host.Outcome State Fault Refusal := .next (s.d3Enter n)

/-- D0_RETURN (R519). -/
def execD0Return (n : Fin 32) (s : State) : Host.Outcome State Fault Refusal := .next (s.d0Return n)

/-- COMPLETION_TIMEOUT (R523): a read of n bytes of host memory that no completion answers. -/
def execCompletionTimeout (w : Who) (a : BitVec 48) (n : Nat) (s : State) : Host.Outcome State Fault Refusal :=
  .next (s.withReplies [] fun s =>
    let r := s.hostRead w a.toNat n
    r.1.answers r.2.1 0 [])

/-! ### Doorbells -/

/-- A write of a doorbell page: through BAR2, or of the local image. -/
def State.ringBell (s : State) (w : Who) (n o v : Nat) : State :=
  let data := leBytes 4 v
  if w.bar then
    if !s.barUp w (0x1000000 + 0x1000 * n + o) ∨ ((w.ini : Nat) ≠ 0 ∧ n ≠ w.ini) then s.answers .nackAbsent 0 []
    else (s.doorbell (some w.ini) (0x1000 * n + o) data).answers .ok 0 []
  else
    let r := s.doorbellPut w (0x1000000 + 0x1000 * n + o) data
    r.1.answers r.2 0 []

/-- SQ_TAIL_DB (R527). -/
def execSqTailDb (w : Who) (n : Fin 32) (q : Fin 8) (v : BitVec 32) (s : State) : Host.Outcome State Fault Refusal :=
  .next (s.ringBell w n (4 * q) v.toNat)

/-- CQ_HEAD_DB (R528). -/
def execCqHeadDb (w : Who) (n : Fin 32) (c : Fin 8) (v : BitVec 32) (s : State) : Host.Outcome State Fault Refusal :=
  .next (s.ringBell w n (0x40 + 4 * c) v.toNat)

/-! ### Registers -/

/-- SQ_ENABLE (R525): a write of SQ_CTRL that gives ENABLE its value. -/
def execSqEnable (w : Who) (n : Fin 32) (q : Fin 8) (v : BitVec 32) (s : State) : Host.Outcome State Fault Refusal :=
  .next (s.writeReg w (0x40010C + 0x1000 * n + 0x20 * q) v.toNat)

/-- SQ_STOP (R525). -/
def execSqStop (w : Who) (n : Fin 32) (q : Fin 8) (v : BitVec 32) (s : State) : Host.Outcome State Fault Refusal :=
  .next (s.writeReg w (0x40010C + 0x1000 * n + 0x20 * q) (v ||| 2).toNat)

/-- SQ_RESUME (R525). -/
def execSqResume (w : Who) (n : Fin 32) (q : Fin 8) (v : BitVec 32) (s : State) : Host.Outcome State Fault Refusal :=
  .next (s.writeReg w (0x40010C + 0x1000 * n + 0x20 * q) (v ||| 4).toNat)

/-- CQ_ENABLE (R539): a write of CQ_CFG that gives ENABLE its value. -/
def execCqEnable (w : Who) (n : Fin 32) (c : Fin 8) (v : BitVec 32) (s : State) : Host.Outcome State Fault Refusal :=
  .next (s.writeReg w (0x400208 + 0x1000 * n + 0x20 * c) v.toNat)

/-! ### Descriptors (R526 to R538) -/

/-- DESCRIPTOR_FETCH (R526): up to k slots, with what the host answers. -/
def execDescriptorFetch (n : Fin 32) (q : Fin 8) (k : Nat) (rs : List Reply) (s : State) : Host.Outcome State Fault Refusal :=
  .next (s.withReplies rs fun s => s.descFetch n q k)

/-- A descriptor starts and is carried out: end and RESULT. A request answered RETRY is issued again (R719): the
descriptor has then not started. -/
def State.descDo (s : State) (n q row : Nat) (body : State → Desc → State × Status × Nat) : State :=
  let r := fun (s : State) (d : Desc) => body s d
  match s.descReady n q with
  | some (_, _, d) =>
    if descRow d = row ∧ !d.bad ∧ (r s d).2.1 = .retry then s
    else s.descRun n q row fun t slot d =>
      let x := r t d
      x.1.descEnd n q slot x.2.1 x.2.2
  | none => s.descRun n q row fun t _ _ => t

/-- DESCRIPTOR_NOP (R531): an unknown type starts, and ends, here too. -/
def execDescriptorNop (n : Fin 32) (q : Fin 8) (s : State) : Host.Outcome State Fault Refusal :=
  .next (s.descDo n q 0 fun s _ => (s, .ok, 0))

/-- The lines of a COPY or FILL descriptor. -/
def Desc.blk (d : Desc) : CopyBlk :=
  { src := d.a, dst := d.b, len := d.len, lines := d.lines, srcHere := false, dstHere := false,
    srcStride := d.aStride, dstStride := d.bStride, srcIter := 0, dstIter := 0, pattern := leBytes 8 d.value }

/-- A COPY (op 1) or FILL (op 2) descriptor. -/
def State.descTransfer (s : State) (n q op : Nat) (d : Desc) : State × Status × Nat :=
  let r := transferBlk s op (s.sqWho n q) d.blk d.a d.b
  (r.st.sqHostWrote n q d.b, r.fin, r.done)

/-- DESCRIPTOR_COPY (R531). -/
def execDescriptorCopy (n : Fin 32) (q : Fin 8) (rs : List Reply) (s : State) : Host.Outcome State Fault Refusal :=
  .next (s.withReplies rs fun s => s.descDo n q 1 fun s d => s.descTransfer n q 1 d)

/-- DESCRIPTOR_FILL (R531). -/
def execDescriptorFill (n : Fin 32) (q : Fin 8) (rs : List Reply) (s : State) : Host.Outcome State Fault Refusal :=
  .next (s.withReplies rs fun s => s.descDo n q 2 fun s d => s.descTransfer n q 2 d)

/-- DESCRIPTOR_POST (R536). -/
def execDescriptorPost (n : Fin 32) (q : Fin 8) (s : State) : Host.Outcome State Fault Refusal :=
  .next (s.descRun n q 3 fun s slot d => s.descPost n q slot d)

/-- DESCRIPTOR_WAIT (R537). -/
def execDescriptorWait (n : Fin 32) (q : Fin 8) (rs : List Reply) (s : State) : Host.Outcome State Fault Refusal :=
  .next (s.withReplies rs fun s => s.descRun n q 4 fun s slot d => s.waitRead n q slot d)

/-- WAIT_POLL (R537). -/
def execWaitPoll (n : Fin 32) (q : Fin 8) (rs : List Reply) (s : State) : Host.Outcome State Fault Refusal :=
  .next (s.withReplies rs fun s => s.waitPoll n q)

/-- DESCRIPTOR_WAIT_TIMEOUT (R537). -/
def execDescriptorWaitTimeout (n : Fin 32) (q : Fin 8) (s : State) : Host.Outcome State Fault Refusal := .next (s.waitTimeout n q)

/-- SIGNAL: one aligned 8-byte write. -/
def State.descSignal (s : State) (n q : Nat) (d : Desc) : State × Status × Nat :=
  let r := s.gaWrite (s.sqWho n q) d.b (leBytes 8 d.value)
  (r.1.sqHostWrote n q d.b, r.2, 0)

/-- DESCRIPTOR_SIGNAL (R531). -/
def execDescriptorSignal (n : Fin 32) (q : Fin 8) (rs : List Reply) (s : State) : Host.Outcome State Fault Refusal :=
  .next (s.withReplies rs fun s => s.descDo n q 5 fun s d => s.descSignal n q d)

/-- REGWR (R531): of a register of the chip that B names. -/
def execRegwr (n : Fin 32) (q : Fin 8) (rs : List Reply) (s : State) : Host.Outcome State Fault Refusal :=
  .next (s.withReplies rs fun s => s.descDo n q 6 fun s d =>
    let r := s.gaWrite (s.sqWho n q) d.b (leBytes 4 d.value)
    (r.1, r.2, 0))

/-- REGRD (R531). -/
def execRegrd (n : Fin 32) (q : Fin 8) (rs : List Reply) (s : State) : Host.Outcome State Fault Refusal :=
  .next (s.withReplies rs fun s => s.descDo n q 7 fun s d =>
    let r := s.gaRead (s.sqWho n q) d.a 4
    (r.1, r.2.1, leNat r.2.2))

/-- TSTAMP (R531): system time when the descriptor starts. -/
def execTstamp (n : Fin 32) (q : Fin 8) (s : State) : Host.Outcome State Fault Refusal :=
  .next (s.descDo n q 8 fun s _ => (s, .ok, s.sysTime))

/-- DESCRIPTOR_COMPLETE (R538): of the descriptor of a slot that has ended. -/
def execDescriptorComplete (n : Fin 32) (q : Fin 8) (slot : Fin 65536) (s : State) : Host.Outcome State Fault Refusal :=
  .next (s.descComplete n q slot)

/-- CQ_TIMER_EXPIRY (R544). -/
def execCqTimerExpiry (n : Fin 32) (c : Fin 8) (s : State) : Host.Outcome State Fault Refusal := .next (s.cqTimer n c)

end Sys2Proof.Machine
end

