-- ==== Sys2Proof/Machine/Lifecycle.lean ====
section
/-! DEFINITION. Commands of the unit lifecycle (spec/21_unit_lifecycle.md). -/

namespace Sys2Proof.Machine

/-- A write of UL_CMD with the command of its row (R732, R739): UNIT is that of the word. -/
def State.ulWrite (s : State) (w : Who) (cmd : Nat) (v : BitVec 32) : State :=
  s.writeReg w 0x6004 (bits v.toNat 0 8 + 256 * cmd)

/-- DRAIN (R718). -/
def execDrain (w : Who) (v : BitVec 32) (s : State) : Host.Outcome State Fault Refusal := .next (s.ulWrite w 1 v)

/-- DRAIN_RETRY_WINDOW_END (R719). -/
def execDrainRetryWindowEnd (u : Fin 128) (s : State) : Host.Outcome State Fault Refusal := .next (s.retryWindowEnd u)

/-- DRAIN_COMPLETE (R718). -/
def execDrainComplete (u : Fin 128) (s : State) : Host.Outcome State Fault Refusal := .next (s.drainComplete u)

/-- DRAIN_TIMEOUT (R722). -/
def execDrainTimeout (u : Fin 128) (s : State) : Host.Outcome State Fault Refusal := .next (s.drainTimeout u)

/-- BIST (R725). -/
def execBist (w : Who) (v : BitVec 32) (s : State) : Host.Outcome State Fault Refusal := .next (s.ulWrite w 2 v)

/-- BIST_COMPLETE (R725): whether the test found no error. -/
def execBistComplete (u : Fin 128) (ok : Bool) (s : State) : Host.Outcome State Fault Refusal := .next (s.bistComplete u ok)

/-- ADMIT (R729). -/
def execAdmitUnit (w : Who) (v : BitVec 32) (s : State) : Host.Outcome State Fault Refusal := .next (s.ulWrite w 3 v)

/-- ADMITTING_END (R729). -/
def execAdmittingEnd (u : Fin 128) (s : State) : Host.Outcome State Fault Refusal := .next (s.admittingEnd u)

end Sys2Proof.Machine
end

