-- ==== Sys2Proof/Machine/Light.lean ====
section
/-! DEFINITION. Commands of the light links (spec/12_light_links.md). -/

namespace Sys2Proof.Machine

/-- LL_ENABLE (R397): a write of LL_CTRL. -/
def execLlEnable (w : Who) (l : Fin 4) (v : BitVec 32) (s : State) : Host.Outcome State Fault Refusal :=
  .next (s.writeReg w (0x171000 + 0x3000 * l) v.toNat)

/-- START_IDLE_END (R397): 64 idle bit periods have passed. -/
def execStartIdleEnd (l : Fin 4) (s : State) : Host.Outcome State Fault Refusal := .next (s.startIdleEnd l)

/-- READ_RESPONSE (R408): the words and the CRC of the answer to the READ in progress. -/
def execReadResponse (l : Fin 4) (words : List (Fin 65536)) (crc : Fin 256) (s : State) : Host.Outcome State Fault Refusal :=
  .next (s.readResponse l (words.map Fin.val) crc)

/-- UPDATE_INSTANT (R400): the LATCH SYNC fall that is due. -/
def execUpdateInstant (l : Fin 4) (s : State) : Host.Outcome State Fault Refusal := .next (s.updateInstant l)

/-- REFRESH_COMPLETE (R401): the last WRITE of a refresh ends. -/
def execRefreshComplete (l : Fin 4) (s : State) : Host.Outcome State Fault Refusal := .next (s.refreshComplete l)

/-- SCAN_SLOT_START (R410). -/
def execScanSlotStart (l : Fin 4) (s : State) : Host.Outcome State Fault Refusal := .next (s.scanSlot l)

/-- SCAN_BLANK_END (R410): T_BLANK after a slot start. -/
def execScanBlankEnd (l : Fin 4) (s : State) : Host.Outcome State Fault Refusal := .next (s.scanBlankEnd l)

/-- LL_CNT_CLR (R787): a write of LL_GCTRL with CNT_CLR. -/
def execLlCntClr (w : Who) (v : BitVec 32) (s : State) : Host.Outcome State Fault Refusal :=
  .next (s.writeReg w (0x170000) (v ||| 1).toNat)

end Sys2Proof.Machine
end

