-- ==== Sys2Proof/Machine/Loops.lean ====
section
/-! DEFINITION. Commands of the set-point channels, the injectors and the capture streams (spec/09_chanter_loops.md). -/

namespace Sys2Proof.Machine

/-- SETPOINT_UPDATE (R296): the update of a channel that is due. -/
def execSetpointUpdate (c : Fin 64) (s : State) : Host.Outcome State Fault Refusal := .next (s.spUpdate c)

/-- SP_ENABLE (R296): a write of SP_CFG. -/
def execSpEnable (w : Who) (c : Fin 64) (v : BitVec 32) (s : State) : Host.Outcome State Fault Refusal :=
  .next (s.writeReg w (0x120800 + 0x40 * c) v.toNat)

/-- SP_HOST (R297). -/
def execSpHost (w : Who) (c : Fin 64) (v : BitVec 32) (s : State) : Host.Outcome State Fault Refusal :=
  .next (s.writeReg w (0x120824 + 0x40 * c) v.toNat)

/-- INJECTION_GO (R299): a write of INJ_GRP_CTRL with GO. -/
def execInjectionGo (w : Who) (g : Fin 8) (v : BitVec 32) (s : State) : Host.Outcome State Fault Refusal :=
  .next (s.writeReg w (0x121800 + 4 * g) (v ||| 1).toNat)

/-- INJECTION_STOP (R301). -/
def execInjectionStop (w : Who) (g : Fin 8) (v : BitVec 32) (s : State) : Host.Outcome State Fault Refusal :=
  .next (s.writeReg w (0x121800 + 4 * g) (v ||| 2).toNat)

/-- INJECTION_ABORT (R301). -/
def execInjectionAbort (w : Who) (g : Fin 8) (v : BitVec 32) (s : State) : Host.Outcome State Fault Refusal :=
  .next (s.writeReg w (0x121800 + 4 * g) (v ||| 4).toNat)

/-- PERMIT_WRITE (R298). -/
def execPermitWrite (w : Who) (v : BitVec 32) (s : State) : Host.Outcome State Fault Refusal := .next (s.writeReg w 0x121840 v.toNat)

/-- CAPTURE_ENABLE (R304): a write of CAP_CFG. -/
def execCaptureEnable (w : Who) (c : Fin 8) (v : BitVec 32) (s : State) : Host.Outcome State Fault Refusal :=
  .next (s.writeReg w (0x122400 + 0x40 * c) v.toNat)

/-- CAPTURE_WRITE_COMPLETE (R305): the oldest record of a stream on its way to memory. -/
def execCaptureWriteComplete (c : Fin 8) (s : State) : Host.Outcome State Fault Refusal := .next (s.capComplete c)

end Sys2Proof.Machine
end

