-- ==== Sys2Proof/Machine/Memory.lean ====
section
/-! DEFINITION. Commands of the memories and of the block transfers (spec/04_address_space_memory.md). -/

namespace Sys2Proof.Machine

/-- The epoch a request to a local address carries: the present one, or an older one with which it was issued (R715). -/
def State.stampAs (s : State) (ep : Option (Fin 256)) (a : Nat) : Nat :=
  match ep with
  | some e => if (match placeOf a with | .memory code _ => unitOfMem code | _ => none).isSome then e else 0
  | none => s.stamp a

/-- A request leaves over Windway, to be answered by RDRSP or WRACK, or ended by its timeout (R571). -/
def State.sendOut (s : State) (w : Who) (unit ga : Nat) (write : Bool) (n : Nat) (data : List Byte) : State :=
  match s.remoteSend w unit ga write n data with
  | (s1, .error st) => s1.answers st 0 []
  | (s1, .ok o) => { s1 with outst := s1.outst ++ [o] }

/-- A read request of n bytes reaches its target: on this chip, in host memory, or leaves for another chip. -/
def State.memoryRead (s : State) (w : Who) (unit : Nat) (ep : Option (Fin 256)) (ga n : Nat) : State :=
  let a := gaLocal ga
  if w.bar then
    let o := a - 0x1000000
    if a < 0x1000000 then
      let r := s.busRead w 0 a n
      r.1.answers r.2.1 (leNat r.2.2) r.2.2
    else if n ≠ 4 ∨ a % 4 ≠ 0 ∨ 0x20000 ≤ o ∨ !s.barUp w a ∨ ((w.ini : Nat) ≠ 0 ∧ o / 0x1000 ≠ w.ini) then s.answers .nackAbsent 0 []
    else
      let v := s.doorbellValue (w.ini == 0) o
      s.answers .ok v (leBytes 4 v)
  else if n = 0 ∨ 64 < n then (s.mapError a w false).answers .nackAbsent 0 []
  else if s.gaHere ga then
    let r := if gaHost ga then s.hostRead w a n else s.busRead w (s.stampAs ep a) a n
    r.1.answers r.2.1 (leNat r.2.2) r.2.2
  else s.sendOut w unit ga false n []

/-- MEMORY_READ (R114): by a requester of unit `unit` (0xFF none), with the epoch it was issued with if that is an older
one, and what the host answers. -/
def execMemoryRead (w : Who) (unit : Fin 256) (ep : Option (Fin 256)) (ga : BitVec 64) (n : Nat) (rs : List Reply) (s : State) :
    Host.Outcome State Fault Refusal :=
  .next (s.withReplies rs fun s => s.memoryRead w unit ep ga.toNat n)

/-- A write request reaches its target. On this chip its acknowledgment is then on its way to the requester; a posted
host write is complete when sent (R128). -/
def State.memoryWrite (s : State) (w : Who) (unit : Nat) (ep : Option (Fin 256)) (ga : Nat) (data : List Byte) : State :=
  let a := gaLocal ga
  if w.bar then
    if a < 0x1000000 then
      let r := s.busWrite w 0 a data
      r.1.answers r.2 0 []
    else if 0x1020000 ≤ a ∨ !s.barUp w a ∨ ((w.ini : Nat) ≠ 0 ∧ (a - 0x1000000) / 0x1000 ≠ w.ini) then s.answers .nackAbsent 0 []
    else (s.doorbell (some w.ini) (a - 0x1000000) data).answers .ok 0 []
  else if data = [] ∨ 64 < data.length then (s.mapError a w true).answers .nackAbsent 0 []
  else if s.gaHere ga then
    if gaHost ga then
      let r := s.hostWrite w a data
      r.1.answers r.2 0 []
    else
      let r := s.busWrite w (s.stampAs ep a) a data
      { r.1 with acks := r.1.acks ++ [((w.ini : Nat), r.2)] }
  else s.sendOut w unit ga true data.length data

/-- MEMORY_WRITE (R137). -/
def execMemoryWrite (w : Who) (unit : Fin 256) (ep : Option (Fin 256)) (ga : BitVec 64) (data : List Byte) (s : State) :
    Host.Outcome State Fault Refusal :=
  .next (s.memoryWrite w unit ep ga.toNat data)

/-- The oldest acknowledgment of a requester reaches it: the write is complete (R128). -/
def State.writeAck (s : State) (ini : Nat) : State :=
  match s.acks.find? fun a => a.1 == ini with
  | none => s
  | some a => (({ s with acks := s.acks.erase a }).answers a.2 0 []).tokFlush

/-- WRITE_ACKNOWLEDGEMENT (R128). -/
def execWriteAcknowledgement (ini : Fin 64) (s : State) : Host.Outcome State Fault Refusal := .next (s.writeAck ini)

/-- ZERO_LENGTH_READ_COMPLETE (R131). -/
def execZeroLengthReadComplete (fn : Fin 32) (s : State) : Host.Outcome State Fault Refusal := .next (s.zeroReadDone fn)

/-- The corrected word is written back, unless a write has cancelled it (R135). -/
def State.writeBack (s : State) (wa : Nat) : State :=
  if wa ∈ s.wb then
    { s with wb := s.wb.filter (· != wa), ecc := if tget 0 s.ecc wa = 1 then tset 0 s.ecc wa 0 else s.ecc }
  else s

/-- ECC_WRITE_BACK (R135): the word at an address, in a cycle in which its bank is idle. -/
def execEccWriteBack (wa : BitVec 48) (s : State) : Host.Outcome State Fault Refusal := .next (s.writeBack wa.toNat)

/-- A memory is there to be scrubbed: its unit is present and powered, and it is not being zeroed. -/
def State.scrubbed (s : State) (code : Nat) : Bool :=
  (code == 0x64 || (s.isUnit code && (s.unitSt code).powered)) && s.zeroing != code + 1

/-- The scrubber reads the next line of one memory, or skips it (R138). -/
def State.scrubLine (s : State) (code : Nat) (skip : Bool) : State :=
  let (b, n) := memRange code
  let k := tget 0 s.scrub code
  let s1 := { s with scrub := tset 0 s.scrub code ((k + 1) % (n / 64)) }
  if skip || !s.scrubbed code then s1
  else (s1.readWords code { ini := 0x3F, cls := 3, remote := false } (wordsOf 8 (b + 64 * k) 64)).1

/-- One scrub of every memory (R138). -/
def State.scrubAll (s : State) (skip : List Nat) : State :=
  if s.on R.MEM_SCRUB_EN && s.rd R.MEM_SCRUB_INTERVAL != 0 then
    (List.range 0x65).foldl (fun s code => s.scrubLine code (skip.contains code)) s
  else s

/-- SCRUB_READ (R138): the memories whose read found no idle cycle within INTERVAL. -/
def execScrubRead (skip : List (Fin 128)) (s : State) : Host.Outcome State Fault Refusal := .next (s.scrubAll (skip.map Fin.val))

/-- What an AMO leaves in memory, for an operand width of 8 × n bits: the old value x, the operand v. -/
def amoValue (op : AmoOp) (n x v : Nat) : Nat :=
  match op with
  | .swap | .lr | .sc => v
  | .add => x + v
  | .xor => x ^^^ v
  | .and => x &&& v
  | .or => x ||| v
  | .min => if sx (8 * n) x ≤ sx (8 * n) v then x else v
  | .max => if sx (8 * n) v ≤ sx (8 * n) x then x else v
  | .minu => min x v
  | .maxu => max x v

/-- The access-fault exception of a core (R133): no request leaves it. -/
def State.accessFault (s : State) : State := { s with answer := { coreFault := true } }

/-- Put the reservation of a core: a granule + 1, or 0 (R133). -/
def State.setResv (s : State) (core g : Nat) : State := { s with resv := s.resv.set core g }

/-- The bank performs an atomic operation of core `core` on n bytes at a physical address (R133). -/
def State.amoBank (s : State) (core : Nat) (w : Who) (op : AmoOp) (code p n v : Nat) : State :=
  let held := s.resv.getD core 0 == p / 64 + 1
  let free := s.setResv core 0
  if op = .sc then
    if held then
      let q := free.writeMem code p (leBytes n v) w
      q.1.answers q.2 0 []
    else free.answers .ok 1 []
  else
    let r := s.readMem code p n w
    if r.2.1 ≠ .ok then r.1.answers r.2.1 0 []
    else
      let x := leNat r.2.2
      if op = .lr then (r.1.setResv core (p / 64 + 1)).answers .ok x r.2.2
      else
        let q := r.1.writeMem code p (leBytes n (amoValue op n x (v % 2 ^ (8 * n)))) w
        q.1.answers q.2 x r.2.2

/-- An AMO or LR/SC of a management core (R133): only on an aligned Windchest address of its own chip. -/
def State.amo (s : State) (core : Nat) (op : AmoOp) (ga n v : Nat) : State :=
  let a := gaLocal ga
  let w : Who := { ini := Fin.ofNat 64 (0x20 + core), cls := 1, remote := false }
  match placeOf a with
  | .memory code p =>
    if !s.gaHere ga || gaHost ga || code < 0x40 || 0x60 ≤ code || a % n != 0 then s.accessFault
    else
      let r := if op = .sc then (s, Status.ok, code, p) else s.memAdmit w (s.stamp a) a n false
      if r.2.1 ≠ .ok then r.1.answers r.2.1 0 []
      else
        let q := if op = .lr then r else r.1.memAdmit w (r.1.stamp a) a n true
        if q.2.1 ≠ .ok then q.1.answers q.2.1 0 [] else q.1.amoBank core w op code p n v
  | _ => s.accessFault

/-- AMO (R133): of 8 bytes, else of 4. -/
def execAmo (core : Fin 4) (op : AmoOp) (ga : BitVec 64) (wide : Bool) (v : BitVec 64) (s : State) : Host.Outcome State Fault Refusal :=
  .next (s.amo core op ga.toNat (if wide then 8 else 4) v.toNat)

/-- MEM_ZERO_GO (R140): a write of MEM_ZERO with GO. -/
def execMemZeroGo (w : Who) (v : BitVec 32) (s : State) : Host.Outcome State Fault Refusal := .next (s.writeReg w 0x4050 (v ||| 0x100).toNat)

/-- ZEROING_DONE (R140). -/
def execZeroingDone (s : State) : Host.Outcome State Fault Refusal := .next s.zeroingDone

/-- MEM_CNT_CLR (R149). -/
def execMemCntClr (w : Who) (v : BitVec 32) (s : State) : Host.Outcome State Fault Refusal := .next (s.writeReg w 0x4030 (v ||| 1).toNat)

/-- An iteration of a TDMA or DMA row in execution (R78, R120). -/
def State.copyRuns (s : State) (op u c : Nat) : Bool :=
  (decide (u < 0x40) && s.runs u c 4 op && !s.tilesPaused) || (decide (0x50 ≤ u) && decide (u < 0x58) && s.runs u c 8 op)

/-- COPY (R123): the iteration in execution of a context, with what parties outside answer. -/
def execCopy (u : Fin 128) (c : Fin 16) (rs : List Reply) (s : State) : Host.Outcome State Fault Refusal :=
  .next (if s.copyRuns 1 u c then s.withReplies rs fun s => s.copyFill 1 u c else s)

/-- FILL (R122). -/
def execFill (u : Fin 128) (c : Fin 16) (rs : List Reply) (s : State) : Host.Outcome State Fault Refusal :=
  .next (if s.copyRuns 2 u c then s.withReplies rs fun s => s.copyFill 2 u c else s)

end Sys2Proof.Machine
end

