-- ==== Sys2Proof/Machine/PhaseCut.lean ====
section
/-! DEFINITION. Commands of the phase-cut mains channels (spec/11_phase_cut.md). -/

namespace Sys2Proof.Machine

/-- ZERO_CROSS_EDGE (R360): a filtered edge on ZCr. -/
def execZeroCrossEdge (r : Fin 2) (rise : Bool) (s : State) : Host.Outcome State Fault Refusal := .next (s.zcEdge r rise)

/-- REFERENCE_ENABLE (R362): a write of PCM_CTRL. -/
def execReferenceEnable (w : Who) (r : Fin 2) (v : BitVec 32) (s : State) : Host.Outcome State Fault Refusal :=
  .next (s.writeReg w (0x160000 + 0x40 * r) v.toNat)

/-- PC_ENABLE (R375): a write of PC_CTRL that gives ENABLE its value. -/
def execPcEnable (w : Who) (n : Fin 8) (v : BitVec 32) (s : State) : Host.Outcome State Fault Refusal :=
  .next (s.writeReg w (0x160100 + 0x80 * n) v.toNat)

/-- RESTART (R375): a write of PC_CTRL with RESTART. -/
def execRestart (w : Who) (n : Fin 8) (v : BitVec 32) (s : State) : Host.Outcome State Fault Refusal :=
  .next (s.writeReg w (0x160100 + 0x80 * n) (v ||| 2).toNat)

/-- PC_CLEAR (R375): a write of PC_CTRL with CLEAR. -/
def execPcClear (w : Who) (n : Fin 8) (v : BitVec 32) (s : State) : Host.Outcome State Fault Refusal :=
  .next (s.writeReg w (0x160100 + 0x80 * n) (v ||| 4).toNat)

/-- PULSE_END (R368): PW cycles after the start of a pulse. -/
def execPulseEnd (n : Fin 8) (s : State) : Host.Outcome State Fault Refusal := .next (s.pulseEnd n)

/-- CONDUCTION_WINDOW_END (R368): LATCH_T after a pulse. -/
def execConductionWindowEnd (n : Fin 8) (s : State) : Host.Outcome State Fault Refusal := .next (s.windowEnd n)

/-- RETRIGGER (R368): RT_PER after the start of the last pulse. -/
def execRetrigger (n : Fin 8) (s : State) : Host.Outcome State Fault Refusal := .next (s.retrigger n)

/-- CURRENT_SIGN_CHANGE (R369): the levels of IPOS and INEG. -/
def execCurrentSignChange (n : Fin 8) (ipos ineg : Bool) (s : State) : Host.Outcome State Fault Refusal :=
  .next (s.pcSign n ipos ineg)

/-- ISGN_BAD_FAULT (R377). -/
def execIsgnBadFault (n : Fin 8) (s : State) : Host.Outcome State Fault Refusal := .next (s.isgnBad n)

end Sys2Proof.Machine
end

