-- ==== Sys2Proof/Machine/Raster.lean ====
section
/-! DEFINITION. Commands of the raster unit, with what parties outside answer to its requests (spec/14_raster.md). -/

namespace Sys2Proof.Machine

/-- FRAME (R452): the iteration in execution of a context. -/
def execFrame (c : Fin 16) (rs : List Reply) (s : State) : Host.Outcome State Fault Refusal :=
  .next (s.withReplies rs fun s => s.rasFrameRow c)

/-- DECOMP (R474). -/
def execDecomp (c : Fin 16) (rs : List Reply) (s : State) : Host.Outcome State Fault Refusal :=
  .next (s.withReplies rs fun s => s.rasDecompRow c)

/-- RAS_GROW (R460). -/
def execRasGrow (w : Who) (v : BitVec 32) (rs : List Reply) (s : State) : Host.Outcome State Fault Refusal :=
  .next (s.withReplies rs fun s => s.writeReg w 0x200008 v.toNat)

/-- GROW_TIMEOUT (R460). -/
def execGrowTimeout (rs : List Reply) (s : State) : Host.Outcome State Fault Refusal :=
  .next (s.withReplies rs fun s => s.rasGrowTimeout)

/-- SHADE_RETURN (R469). -/
def execShadeReturn (rs : List Reply) (s : State) : Host.Outcome State Fault Refusal :=
  .next (s.withReplies rs fun s => s.rasShadeReturn)

/-- SHADE_TIMEOUT (R470). -/
def execShadeTimeout (rs : List Reply) (s : State) : Host.Outcome State Fault Refusal :=
  .next (s.withReplies rs fun s => s.rasShadeTimeout)

/-- RAS_CNT_CLR (R484): a write of RAS_CNT_CLR with CLR. -/
def execRasCntClr (w : Who) (v : BitVec 32) (s : State) : Host.Outcome State Fault Refusal :=
  .next (s.writeReg w (0x20001C) (v ||| 1).toNat)

end Sys2Proof.Machine
end

