-- ==== Sys2Proof/Machine/Tile.lean ====
section
/-! DEFINITION. Commands of the tensor tiles: each row command is the iteration in execution of a context of the tile
(spec/05_tensor_tiles.md). -/

namespace Sys2Proof.Machine

/-- An iteration of a tile's row in execution; a relock of the tiles pauses it (R502). -/
def State.tileRuns (s : State) (t c e op : Nat) : Bool := s.runs t c e op && !s.tilesPaused

/-- A VEC iteration of one operation. -/
def State.vecRow (s : State) (op : Nat) (t : Fin 64) (c : Fin 16) : State := if s.tileRuns t c 2 op then s.vec op t c else s

/-- MMA (R161). -/
def execMma (t : Fin 64) (c : Fin 16) (s : State) : Host.Outcome State Fault Refusal :=
  .next (if s.tileRuns t c 1 1 then s.mma t c else s)

/-- ADD (R166, R170). -/
def execAdd (t : Fin 64) (c : Fin 16) (s : State) : Host.Outcome State Fault Refusal := .next (s.vecRow 0x1 t c)

/-- SUB (R166, R170). -/
def execSub (t : Fin 64) (c : Fin 16) (s : State) : Host.Outcome State Fault Refusal := .next (s.vecRow 0x2 t c)

/-- MUL (R166, R170). -/
def execMul (t : Fin 64) (c : Fin 16) (s : State) : Host.Outcome State Fault Refusal := .next (s.vecRow 0x3 t c)

/-- FMA (R166, R170). -/
def execFma (t : Fin 64) (c : Fin 16) (s : State) : Host.Outcome State Fault Refusal := .next (s.vecRow 0x4 t c)

/-- MAX (R166, R170). -/
def execMax (t : Fin 64) (c : Fin 16) (s : State) : Host.Outcome State Fault Refusal := .next (s.vecRow 0x5 t c)

/-- MIN (R166, R170). -/
def execMin (t : Fin 64) (c : Fin 16) (s : State) : Host.Outcome State Fault Refusal := .next (s.vecRow 0x6 t c)

/-- ABS (R166, R170). -/
def execAbs (t : Fin 64) (c : Fin 16) (s : State) : Host.Outcome State Fault Refusal := .next (s.vecRow 0x7 t c)

/-- NEG (R166, R170). -/
def execNeg (t : Fin 64) (c : Fin 16) (s : State) : Host.Outcome State Fault Refusal := .next (s.vecRow 0x8 t c)

/-- CVT (R166, R170). -/
def execCvt (t : Fin 64) (c : Fin 16) (s : State) : Host.Outcome State Fault Refusal := .next (s.vecRow 0x9 t c)

/-- REQUANT (R173). -/
def execRequant (t : Fin 64) (c : Fin 16) (s : State) : Host.Outcome State Fault Refusal := .next (s.vecRow 0xa t c)

/-- CMPGT (R166, R170). -/
def execCmpgt (t : Fin 64) (c : Fin 16) (s : State) : Host.Outcome State Fault Refusal := .next (s.vecRow 0xb t c)

/-- CMPEQ (R166, R170). -/
def execCmpeq (t : Fin 64) (c : Fin 16) (s : State) : Host.Outcome State Fault Refusal := .next (s.vecRow 0xc t c)

/-- SELECT (R166). -/
def execSelect (t : Fin 64) (c : Fin 16) (s : State) : Host.Outcome State Fault Refusal := .next (s.vecRow 0xd t c)

/-- RECIP (R166, R170). -/
def execRecip (t : Fin 64) (c : Fin 16) (s : State) : Host.Outcome State Fault Refusal := .next (s.vecRow 0xe t c)

/-- RSQRT (R166, R170). -/
def execRsqrt (t : Fin 64) (c : Fin 16) (s : State) : Host.Outcome State Fault Refusal := .next (s.vecRow 0xf t c)

/-- EXP2 (R166, R170). -/
def execExp2 (t : Fin 64) (c : Fin 16) (s : State) : Host.Outcome State Fault Refusal := .next (s.vecRow 0x10 t c)

/-- LOG2 (R166, R170). -/
def execLog2 (t : Fin 64) (c : Fin 16) (s : State) : Host.Outcome State Fault Refusal := .next (s.vecRow 0x11 t c)

/-- RSUM (R172). -/
def execRsum (t : Fin 64) (c : Fin 16) (s : State) : Host.Outcome State Fault Refusal := .next (s.vecRow 0x12 t c)

/-- RMAX (R172). -/
def execRmax (t : Fin 64) (c : Fin 16) (s : State) : Host.Outcome State Fault Refusal := .next (s.vecRow 0x13 t c)

/-- SHIFT (R166). -/
def execShift (t : Fin 64) (c : Fin 16) (s : State) : Host.Outcome State Fault Refusal := .next (s.vecRow 0x14 t c)

/-- AND (R166). -/
def execAnd (t : Fin 64) (c : Fin 16) (s : State) : Host.Outcome State Fault Refusal := .next (s.vecRow 0x15 t c)

/-- OR (R166). -/
def execOr (t : Fin 64) (c : Fin 16) (s : State) : Host.Outcome State Fault Refusal := .next (s.vecRow 0x16 t c)

/-- XOR (R166). -/
def execXor (t : Fin 64) (c : Fin 16) (s : State) : Host.Outcome State Fault Refusal := .next (s.vecRow 0x17 t c)

/-- TILE_CNT_CLR (R187): a write of the tile's counter-clear register with CLR. -/
def execTileCntClr (w : Who) (t : Fin 64) (v : BitVec 32) (s : State) : Host.Outcome State Fault Refusal :=
  .next (s.writeReg w (0x800030 + 0x10000 * t) (v ||| 1).toNat)

end Sys2Proof.Machine
end

