-- ==== Sys2Proof/Machine/Selector.lean ====
section
/-! DEFINITION. Commands of the Selectors, and the coprocessor port that reaches them (spec/06_selector.md,
spec/07_reed_observers.md R238 to R242). -/

namespace Sys2Proof.Machine

/-- A SEL iteration of one operation. -/
def State.selOp (s : State) (op : Nat) (t : Fin 64) (c : Fin 16) : State := if s.tileRuns t c 3 op then s.selRow op t c else s

/-- TOPK (R196). -/
def execTopk (t : Fin 64) (c : Fin 16) (s : State) : Host.Outcome State Fault Refusal := .next (s.selOp 1 t c)

/-- MERGE (R197). -/
def execMerge (t : Fin 64) (c : Fin 16) (s : State) : Host.Outcome State Fault Refusal := .next (s.selOp 2 t c)

/-- ARGIDX (R198). -/
def execArgidx (t : Fin 64) (c : Fin 16) (s : State) : Host.Outcome State Fault Refusal := .next (s.selOp 3 t c)

/-- SEL_CNT_CLR (R203): a write of SEL_CTRL with CNT_CLR. -/
def execSelCntClr (w : Who) (t : Fin 64) (v : BitVec 32) (s : State) : Host.Outcome State Fault Refusal :=
  .next (s.writeReg w (0x800040 + 0x10000 * t) (v ||| 2).toNat)

/-! ### The coprocessor port -/

/-- Requests of a management core (R690). -/
def coreWho (core : Nat) : Who := { ini := Fin.ofNat 64 (0x20 + core), cls := 1, remote := false }

/-- The offset of a block on this chip: rs1 is a local address (R203). -/
def portAddr (rs1 : BitVec 64) : Nat := rs1.toNat

/-- A pure operation runs: status and result, before it commits (R238, R240). -/
def State.pureOp (s : State) (core : Nat) (op : PurePort) : State × Status × Nat :=
  match op with
  | .qmax a => s.qmax (coreWho core) (portAddr a)
  | .test a b => s.reedTest (coreWho core) (portAddr a) b.toNat
  | .rdest i o =>
    let r := s.reedRdest i.toNat o.toNat
    (s, r.1, r.2)

/-- A port operation commits: rd and QSTAT; rd is all ones for a pure operation that ends neither OK nor EXTRAPOLATED
(R239). -/
def State.portCommit (s : State) (core : Nat) (isPure : Bool) (st : Status) (v : Nat) : State :=
  let rd := if isPure ∧ st ≠ .ok ∧ st ≠ .extrapolated then 2 ^ 64 - 1 else v
  (s.setQstat core (statusCode st)).answers st rd []

/-- A pure operation runs and commits. -/
def State.purePort (s : State) (core : Nat) (op : PurePort) : State :=
  let r := s.pureOp core op
  r.1.portCommit core true r.2.1 r.2.2

/-- SEL.QTOPK runs and commits; rd is open where it does not end OK. -/
def State.qtopkPort (s : State) (core a : Nat) : State :=
  let r := s.qtopk (coreWho core) a
  if r.2.1 = .ok then r.1.portCommit core false .ok r.2.2
  else r.1.drawn.portCommit core false r.2.1 (r.1.free 0 % 2 ^ 64)

/-- SEL_QMAX (R203). -/
def execSelQmax (core : Fin 4) (rs1 : BitVec 64) (s : State) : Host.Outcome State Fault Refusal := .next (s.purePort core (.qmax rs1))

/-- SEL_QTOPK (R203). -/
def execSelQtopk (core : Fin 4) (rs1 : BitVec 64) (s : State) : Host.Outcome State Fault Refusal :=
  .next (s.qtopkPort core (portAddr rs1))

end Sys2Proof.Machine
end

