-- ==== Sys2Proof/Machine/Reed.lean ====
section
/-! DEFINITION. Commands of the Reed engines and of the coprocessor port that reaches them
(spec/07_reed_observers.md). -/

namespace Sys2Proof.Machine

/-! ### The coprocessor port (R238 to R241) -/

/-- REED_TEST (R238). -/
def execReedTest (core : Fin 4) (rs1 rs2 : BitVec 64) (s : State) : Host.Outcome State Fault Refusal :=
  .next (s.purePort core (.test rs1 rs2))

/-- REED_RDEST (R238). -/
def execReedRdest (core : Fin 4) (rs1 rs2 : BitVec 64) (s : State) : Host.Outcome State Fault Refusal :=
  .next (s.purePort core (.rdest rs1 rs2))

/-- REED_WPUT (R238). -/
def execReedWput (core : Fin 4) (rs1 rs2 : BitVec 64) (s : State) : Host.Outcome State Fault Refusal :=
  .next (let r := s.reedWput (coreWho core) (portAddr rs1) rs2.toNat
         r.1.portCommit core false r.2 0)

/-- REED_FALLBK (R238). -/
def execReedFallbk (core : Fin 4) (rs1 : BitVec 64) (s : State) : Host.Outcome State Fault Refusal :=
  .next (let r := s.reedFallbk rs1.toNat
         r.1.portCommit core false r.2 0)

/-- TOK.POST: at once, or once the core's earlier writes are acknowledged; a message with epoch 0 for this chip takes
the unit's current epoch (R132, R238, R715). -/
def State.tokPost (s : State) (core m : Nat) : State :=
  if msgMalformed m then s.portCommit core false .nackAbsent 0
  else
    let m1 := if bits m 0 15 = s.chip ∧ bits m 40 8 = 0 then m + s.epochOf (bits m 16 8) % 256 * 2 ^ 40 else m
    if s.coreWrites core then { s with tokWait := s.tokWait.set core (some (m1, s.sysTime)) }
    else (s.tokPostSend core m1).answers .ok 0 []

/-- TOK_POST (R238). -/
def execTokPost (core : Fin 4) (rs1 : BitVec 64) (s : State) : Host.Outcome State Fault Refusal := .next (s.tokPost core rs1.toNat)

/-- PORT_SQUASH (R240, R208): the core squashes a pure operation, which had or had not run. Only the
result is discarded. -/
def execPortSquash (core : Fin 4) (op : PurePort) (ran : Bool) (s : State) : Host.Outcome State Fault Refusal :=
  .next (if ran then { (s.pureOp core op).1 with answer := s.answer } else s)

/-- An operation that is not complete within 100 µs ends with TIMEOUT: the TOK.POST that waits, which then sends
nothing, or one that no engine has taken up. -/
def State.portTimeout (s : State) (core : Nat) (isPure : Bool) : State :=
  match s.tokWait.getD core none with
  | some (_, t) =>
    if 100000 ≤ tsub s.sysTime t then ({ s with tokWait := s.tokWait.set core none }).portCommit core false .timeout 0 else s
  | none => s.portCommit core isPure .timeout 0

/-- PORT_TIMEOUT (R239). -/
def execPortTimeout (core : Fin 4) (isPure : Bool) (s : State) : Host.Outcome State Fault Refusal := .next (s.portTimeout core isPure)

/-! ### Rows (R218 to R237) -/

/-- An iteration of a Reed row in execution, and the instance its row names. -/
def State.reedRuns (s : State) (e : Fin 4) (c : Fin 16) (op : Nat) : Bool := s.runs (0x40 + e) c 5 op
def State.reedTarget (s : State) (e : Fin 4) (c : Fin 16) : Nat := bits (rowPayload (s.ctx (0x40 + e) c).row) 0 6

/-- EVAL (R219). -/
def execEval (e : Fin 4) (c : Fin 16) (s : State) : Host.Outcome State Fault Refusal :=
  .next (if s.reedRuns e c 1 then s.evalRow (0x40 + e) c (s.reedTarget e c) else s)

/-- SEAL (R234). -/
def execSeal (e : Fin 4) (c : Fin 16) (s : State) : Host.Outcome State Fault Refusal :=
  .next (if s.reedRuns e c 2 then s.sealRow (0x40 + e) c (s.reedTarget e c) else s)

/-- SWAP (R236). -/
def execSwap (e : Fin 4) (c : Fin 16) (s : State) : Host.Outcome State Fault Refusal :=
  .next (if s.reedRuns e c 3 then s.swapRow (0x40 + e) c (s.reedTarget e c) else s)

/-- FREE (R237). -/
def execFree (e : Fin 4) (c : Fin 16) (s : State) : Host.Outcome State Fault Refusal :=
  .next (if s.reedRuns e c 4 then s.freeRow (0x40 + e) c (s.reedTarget e c) else s)

/-! ### Registers (R233 to R236) -/

/-- REED_INSTANCE_ENABLE (R233): a write of REED_INST_CTRL that gives ENABLE its value. -/
def execReedInstanceEnable (w : Who) (i : Fin 48) (v : BitVec 32) (s : State) : Host.Outcome State Fault Refusal :=
  .next (s.writeReg w (0x140100 + 0x40 * i) v.toNat)

/-- SWAP_NOW (R236): a write of REED_INST_CTRL with SWAP_NOW. -/
def execSwapNow (w : Who) (i : Fin 48) (v : BitVec 32) (s : State) : Host.Outcome State Fault Refusal :=
  .next (s.writeReg w (0x140100 + 0x40 * i) (v ||| 0x20).toNat)

/-- REED_APPROVE (R235). -/
def execReedApprove (w : Who) (i : Fin 48) (v : BitVec 32) (s : State) : Host.Outcome State Fault Refusal :=
  .next (s.writeReg w (0x140118 + 0x40 * i) v.toNat)

end Sys2Proof.Machine
end

