-- ==== Sys2Proof/Machine/Registers.lean ====
section
/-! DEFINITION. Commands on registers without a row of their own, SETUP_LOCK, captured pairs (spec/23_register_map.md). -/

namespace Sys2Proof.Machine

/-- REGISTER_WRITE (R776): a requester writes a word to a register; the answers serve a raster grow that reads outside. -/
def execRegisterWrite (w : Who) (a : BitVec 24) (v : BitVec 32) (rs : List Reply) (s : State) : Host.Outcome State Fault Refusal :=
  .next (s.withReplies rs fun s => s.writeReg w a.toNat v.toNat)

/-- SETUP_LOCK (R782): LOCK is set. -/
def execSetupLock (w : Who) (s : State) : Host.Outcome State Fault Refusal := .next (s.writeReg w 0x54 1)

/-- ISL_LOCK (R782): a 1 is written to ISL_LOCK. -/
def execIslLock (w : Who) (s : State) : Host.Outcome State Fault Refusal := .next (s.writeReg w 0x54 2)

/-- CAPTURING_READ (R779): a register read; that of a low word captures the high word. -/
def execCapturingRead (w : Who) (a : BitVec 24) (rs : List Reply) (s : State) : Host.Outcome State Fault Refusal :=
  .next (s.withReplies rs fun s => s.readReg w a.toNat)

end Sys2Proof.Machine
end

