-- ==== Sys2Proof/Machine/Repro.lean ====
section
/-! DEFINITION. Commands of reproducibility and lock-step (spec/19_reproducibility.md). -/

namespace Sys2Proof.Machine

/-- REPRO_WRITE (R633): a write of GLOBAL_MODE with REPRO set. -/
def execReproWrite (w : Who) (v : BitVec 32) (s : State) : Host.Outcome State Fault Refusal :=
  .next (s.writeReg w 0x50 (v ||| 1).toNat)

/-- RP_STEP_WRITE (R645): a write of RP_STEP_HI. -/
def execRpStepWrite (w : Who) (v : BitVec 32) (s : State) : Host.Outcome State Fault Refusal :=
  .next (s.writeReg w 0x5034 v.toNat)

/-- RP_STEP_ADV (R645): a write of RP_STEP_ADV with ADV. -/
def execRpStepAdv (w : Who) (v : BitVec 32) (s : State) : Host.Outcome State Fault Refusal :=
  .next (s.writeReg w 0x5038 (v ||| 1).toNat)

/-- GENERATOR_DRAW (R646): a write of RP_GEN_IDX_HI. -/
def execGeneratorDraw (w : Who) (v : BitVec 32) (s : State) : Host.Outcome State Fault Refusal :=
  .next (s.writeReg w 0x504C v.toNat)

/-- GENERATOR_DRAW_DONE (R646). -/
def execGeneratorDrawDone (s : State) : Host.Outcome State Fault Refusal := .next s.genDone

/-- LS_ENABLE (R649): a write of LS_CTRL with EN. -/
def execLsEnable (w : Who) (v : BitVec 32) (s : State) : Host.Outcome State Fault Refusal :=
  .next (s.writeReg w 0x5080 (v ||| 1).toNat)

/-- STEP_CLOSE (R651): a step closes on a tile. -/
def execStepClose (t : Fin 64) (step : Fin (2 ^ 64)) (s : State) : Host.Outcome State Fault Refusal := .next (s.stepClose t step)

/-- LS_TIMEOUT (R654): a signature of a tile and step has waited. -/
def execLsTimeout (t : Fin 64) (step : Fin (2 ^ 64)) (s : State) : Host.Outcome State Fault Refusal := .next (s.lsTimeout t step)

end Sys2Proof.Machine
end

