-- ==== Sys2Proof/Machine/SafetyCmds.lean ====
section
/-! DEFINITION. Commands of safety, the safety island's watchdog, safety frames and firewalls (spec/20_safety.md). -/

namespace Sys2Proof.Machine

/-- FAULT_ASSERTION (R666): a reported source reaches the fault collection. -/
def execFaultAssertion (src : Fin 128) (detail : Fin 256) (s : State) : Host.Outcome State Fault Refusal :=
  .next (s.faultArrives src detail)

/-- SF_ENTER (R669): a write of SF_ENTER with GO. -/
def execSfEnter (w : Who) (v : BitVec 32) (s : State) : Host.Outcome State Fault Refusal :=
  .next (s.writeReg w 0x40008 (v ||| 1).toNat)

/-- SF_EXIT (R673): a write of SF_EXIT. -/
def execSfExit (w : Who) (v : BitVec 32) (s : State) : Host.Outcome State Fault Refusal := .next (s.writeReg w 0x4000C v.toNat)

/-- SF_SWFAULT (R667): a write of SF_SWFAULT. -/
def execSfSwfault (w : Who) (v : BitVec 32) (s : State) : Host.Outcome State Fault Refusal := .next (s.writeReg w 0x4001C v.toNat)

/-- WATCHDOG_KICK (R668): a write of SF_WDT_KICK. -/
def execWatchdogKick (w : Who) (v : BitVec 32) (s : State) : Host.Outcome State Fault Refusal :=
  .next (s.writeReg w 0x4002C v.toNat)

/-- WATCHDOG_EXPIRY (R668). -/
def execWatchdogExpiry (s : State) : Host.Outcome State Fault Refusal := .next s.wdExpiry

/-- CLOCK_MONITOR_WINDOW (R676): the control cycles that the window held. -/
def execClockMonitorWindow (n : Fin 4096) (s : State) : Host.Outcome State Fault Refusal := .next (s.clockWindow n)

/-- STO_READBACK_MISMATCH (R679): the level that the pad of a pin has shown for more than 2 µs. -/
def execStoReadbackMismatch (pin : Fin 2) (level : Bool) (s : State) : Host.Outcome State Fault Refusal :=
  .next (s.stoMismatch pin level)

/-- STO_TEST_PULSE (R679): whether the readback showed low. -/
def execStoTestPulse (pin : Fin 2) (low : Bool) (s : State) : Host.Outcome State Fault Refusal := .next (s.stoTest pin low)

/-- STO_TEST_PULSE_END (R679): whether the readback showed high. -/
def execStoTestPulseEnd (pin : Fin 2) (high : Bool) (s : State) : Host.Outcome State Fault Refusal :=
  .next (s.stoTestEnd pin high)

/-- SAFE_IN_LOW (R680): the level that SAFE_IN_N has had, and for how many oscillator cycles. -/
def execSafeInLow (high : Bool) (n : Nat) (s : State) : Host.Outcome State Fault Refusal := .next (s.safeIn high n)

/-- SAFETY_FRAME_PERIOD (R686). -/
def execSafetyFramePeriod (c : Fin 8) (s : State) : Host.Outcome State Fault Refusal := .next (s.scPeriod c)

/-- SAFETY_PDU_RECEIVE (R687). -/
def execSafetyPduReceive (c : Fin 8) (pdu : List Byte) (s : State) : Host.Outcome State Fault Refusal := .next (s.scReceive c pdu)

/-- SAFETY_RX_TIMEOUT (R687). -/
def execSafetyRxTimeout (c : Fin 8) (s : State) : Host.Outcome State Fault Refusal := .next (s.scTimeout c)

/-- FIREWALL_WRITE (R695): a write of FW_CMD with WRITE. -/
def execFirewallWrite (w : Who) (v : BitVec 32) (s : State) : Host.Outcome State Fault Refusal :=
  .next (s.writeReg w 0x40120 (v ||| 1).toNat)

/-- FIREWALL_READ (R695): a write of FW_CMD with READ. -/
def execFirewallRead (w : Who) (v : BitVec 32) (s : State) : Host.Outcome State Fault Refusal :=
  .next (s.writeReg w 0x40120 (v ||| 2).toNat)

/-- FIREWALL_ARM (R695): a write of FW_CMD with ARM. -/
def execFirewallArm (w : Who) (v : BitVec 32) (s : State) : Host.Outcome State Fault Refusal :=
  .next (s.writeReg w 0x40120 (v ||| 4).toNat)

/-- FIREWALL_LOCK (R695): a write of FW_CMD with LOCK. -/
def execFirewallLock (w : Who) (v : BitVec 32) (s : State) : Host.Outcome State Fault Refusal :=
  .next (s.writeReg w 0x40120 (v ||| 8).toNat)

/-- FIREWALL_PARITY_SWEEP (R697): whether the sweep found a region whose parity is wrong. -/
def execFirewallParitySweep (bad : Bool) (s : State) : Host.Outcome State Fault Refusal := .next (s.reportIf bad 0x06 0)

end Sys2Proof.Machine
end

