-- ==== Sys2Proof/Machine/Sequencer.lean ====
section
/-! DEFINITION. Commands of the sequencers and token sinks (spec/03_tables_tokens_threads.md). -/

namespace Sys2Proof.Machine

/-- ROW_ELIGIBLE (R87): the row at a context is evaluated, and asks for its quanta when it is eligible. -/
def execRowEligible (u : Fin 128) (c : Fin 16) (s : State) : Host.Outcome State Fault Refusal := .next (s.rowEligible u c)

/-- GRANT_DECISION (R491). -/
def execGrantDecision (s : State) : Host.Outcome State Fault Refusal := .next s.grantCycle

/-- ITERATION_COMPLETE (R90): the engine has reported the iteration done. -/
def execIterationComplete (u : Fin 128) (c : Fin 16) (s : State) : Host.Outcome State Fault Refusal :=
  .next (match (s.ctx u c).exec, (s.ctx u c).result with
    | true, some (st, oc) => s.complete u c st oc
    | _, _ => s)

/-- The answer to a post of a context reaches it, between its iterations: the context enters ERROR (R96). -/
def State.postAnswer (s : State) (i : Nat) : State :=
  match s.postAns[i]? with
  | none => s
  | some (k, st) =>
    let u := k / 16
    let c := k % 16
    if (s.ctx u c).exec then s
    else
      let s1 := { s with postAns := s.postAns.eraseIdx i }
      if s1.ctxState u c = 1 ∨ s1.ctxState u c = 2 then
        s1.ctxError u c 8 (s1.rd (R.CTX_PC_PC (win u) c)) (s1.rd (R.CTX_PC_ITER (win u) c)) (statusCode st)
      else s1

/-- POST_ANSWER (R96): the i-th answer on its way arrives. -/
def execPostAnswer (i : Nat) (s : State) : Host.Outcome State Fault Refusal := .next (s.postAnswer i)

/-- The i-th message on its way reaches its unit, where that lies on this chip; its sender gets the answer (R94 to R98). -/
def State.deliver (s : State) (i : Nat) (credit : Bool) : State :=
  match s.msgs[i]? with
  | none => s
  | some m =>
    if bit m.1 15 != credit || bits m.1 0 15 != s.chip then s
    else
      let r := ({ s with msgs := s.msgs.eraseIdx i }).arrive m.1
      r.1.postResult m r.2

/-- TOKEN_ARRIVAL (R95). -/
def execTokenArrival (i : Nat) (s : State) : Host.Outcome State Fault Refusal := .next (s.deliver i false)

/-- CREDIT_ARRIVAL (R98). -/
def execCreditArrival (i : Nat) (s : State) : Host.Outcome State Fault Refusal := .next (s.deliver i true)

/-- TOKCNT_WRITE (R95): a write of counter k of context c in a cycle in which `taken` tokens are consumed from it and
`arrived` arrive. -/
def execTokcntWrite (w : Who) (u : Fin 128) (c k : Fin 16) (v : BitVec 32) (taken arrived : BitVec 16) (s : State) :
    Host.Outcome State Fault Refusal :=
  .next (s.writeWinAs w u (0x200 + 0x40 * c + 4 * k) v.toNat fun s => s.writeTokCnt u c k v.toNat taken.toNat arrived.toNat)

/-- POOL_CNT_WRITE (R98): a write of a pool in a cycle in which `taken` credits are taken and `returned` return. -/
def execPoolCntWrite (w : Who) (u : Fin 128) (p : Fin 32) (v : BitVec 32) (taken returned : BitVec 16) (s : State) :
    Host.Outcome State Fault Refusal :=
  .next (s.writeWinAs w u (0xA00 + 8 * p) v.toNat fun s =>
    s.setPool u p ((bits v.toNat 0 16 : Int) - taken.toNat + returned.toNat))

/-- TOKTAKE (R97). -/
def execToktake (w : Who) (u : Fin 128) (c k : Fin 16) (n : BitVec 16) (s : State) : Host.Outcome State Fault Refusal :=
  .next (s.writeWin w u (0x1000 + 0x40 * c + 4 * k) n.toNat)

/-- CTX_START (R77): a write of CTX_CTRL with START. -/
def execCtxStart (w : Who) (u : Fin 128) (c : Fin 16) (v : BitVec 32) (s : State) : Host.Outcome State Fault Refusal :=
  .next (s.writeWin w u (0x100 + 0x10 * c) (v ||| 1).toNat)

/-- CTX_HALT (R77). -/
def execCtxHalt (w : Who) (u : Fin 128) (c : Fin 16) (v : BitVec 32) (s : State) : Host.Outcome State Fault Refusal :=
  .next (s.writeWin w u (0x100 + 0x10 * c) (v ||| 2).toNat)

/-- CTX_STEP (R77). -/
def execCtxStep (w : Who) (u : Fin 128) (c : Fin 16) (v : BitVec 32) (s : State) : Host.Outcome State Fault Refusal :=
  .next (s.writeWin w u (0x100 + 0x10 * c) (v ||| 4).toNat)

/-- CTX_CLEAR (R77). -/
def execCtxClear (w : Who) (u : Fin 128) (c : Fin 16) (v : BitVec 32) (s : State) : Host.Outcome State Fault Refusal :=
  .next (s.writeWin w u (0x100 + 0x10 * c) (v ||| 8).toNat)

/-- CTX_PC_WRITE (R825). -/
def execCtxPcWrite (w : Who) (u : Fin 128) (c : Fin 16) (v : BitVec 32) (s : State) : Host.Outcome State Fault Refusal :=
  .next (s.writeWin w u (0x104 + 0x10 * c) v.toNat)

/-- ROW_COMMIT (R103): word 7 of a row is written. -/
def execRowCommit (w : Who) (u : Fin 128) (r : Fin 512) (v : BitVec 32) (s : State) : Host.Outcome State Fault Refusal :=
  .next (s.writeWin w u (0x2000 + 0x20 * r + 0x1C) v.toNat)

/-- A context has waited at one row for CTX_TIMEOUT µs of the control clock (R101). -/
def State.ctxStall (s : State) (u c : Nat) : State :=
  let t := s.rd (R.CTX_TIMEOUT_TIMEOUT (win u) c)
  if isSeq u && s.ctxState u c == 1 && t != 0 && decide (400 * t ≤ s.since (s.ctx u c).arrived) then
    s.wr (R.CTX_STAT_STALL (win u) c) 1
  else s

/-- CTX_STALL (R101). -/
def execCtxStall (u : Fin 128) (c : Fin 16) (s : State) : Host.Outcome State Fault Refusal := .next (s.ctxStall u c)

/-- SEQ_ERR_READ (R102). -/
def execSeqErrRead (w : Who) (u : Fin 128) (s : State) : Host.Outcome State Fault Refusal := .next (s.readWin w u 8)

/-- SYNC (R78): the row at a context is evaluated where it is a SYNC row. -/
def execSync (u : Fin 128) (c : Fin 16) (s : State) : Host.Outcome State Fault Refusal :=
  .next (if rowEngine (s.ctxRow u c) = 0xF then s.rowEligible u c else s)

end Sys2Proof.Machine
end

