-- ==== Sys2Proof/Machine/Windway.lean ====
section
/-! DEFINITION. Commands of Windway (spec/17_windway.md). -/

namespace Sys2Proof.Machine

/-- WL_ENABLE (R555): a write of WL_CTRL. -/
def execWlEnable (n : Fin 8) (w : Who) (v : BitVec 32) (s : State) : Host.Outcome State Fault Refusal :=
  .next (s.writeReg w (0x300040 + 0x40 * n) v.toNat)

/-- TRAINING_COMPLETE (R555): the width and generation at which the lanes lock, and the first valid frame. -/
def execTrainingComplete (n : Fin 8) (width : Fin 3) (gen2 : Bool) (f : WwFrame) (rs : List Reply) (s : State) : Host.Outcome State Fault Refusal :=
  .next (s.withReplies rs fun s => s.trainDone n width gen2 f)

/-- TRAINING_TIMEOUT (R555). -/
def execTrainingTimeout (p : Fin 12) (s : State) : Host.Outcome State Fault Refusal := .next (s.trainTimeout p)

/-- FRAME_RECEIVE (R558): what the frame time brought, none for a CRC failure; what the host answers to requests in it. -/
def execFrameReceive (n : Fin 8) (f : Option WwFrame) (rs : List Reply) (s : State) : Host.Outcome State Fault Refusal :=
  .next (s.withReplies rs fun s => s.frameReceive n f)

/-- REPLAY_TIMEOUT (R558). -/
def execReplayTimeout (n : Fin 8) (s : State) : Host.Outcome State Fault Refusal := .next (s.replayTimeout n)

/-- LINK_LOSS (R560): whether a lane has lost lock. -/
def execLinkLoss (p : Fin 12) (lock : Bool) (s : State) : Host.Outcome State Fault Refusal := .next (s.linkLoss p lock)

/-- WR (R570): the message arrives on a port; what the host answers. -/
def execWr (p : Fin 12) (m : WwMsg) (rs : List Reply) (s : State) : Host.Outcome State Fault Refusal :=
  .next (s.withReplies rs fun s => s.wwIn p { m with mtype := 1 })

/-- RD (R570). -/
def execRd (p : Fin 12) (m : WwMsg) (rs : List Reply) (s : State) : Host.Outcome State Fault Refusal :=
  .next (s.withReplies rs fun s => s.wwIn p { m with mtype := 2 })

/-- RDRSP (R571). -/
def execRdrsp (p : Fin 12) (m : WwMsg) (s : State) : Host.Outcome State Fault Refusal := .next (s.wwIn p { m with mtype := 3 })

/-- WRACK (R571). -/
def execWrack (p : Fin 12) (m : WwMsg) (s : State) : Host.Outcome State Fault Refusal := .next (s.wwIn p { m with mtype := 4 })

/-- TOK (R572). -/
def execTok (p : Fin 12) (m : WwMsg) (s : State) : Host.Outcome State Fault Refusal := .next (s.wwIn p { m with mtype := 5 })

/-- TOKACK (R572). -/
def execTokack (p : Fin 12) (m : WwMsg) (s : State) : Host.Outcome State Fault Refusal := .next (s.wwIn p { m with mtype := 6 })

/-- SYNC_MESSAGE (R577). -/
def execSyncMessage (p : Fin 12) (m : WwMsg) (s : State) : Host.Outcome State Fault Refusal :=
  .next (s.wwIn p { m with mtype := 7 })

/-- JOIN_INFO (R581). -/
def execJoinInfo (p : Fin 12) (m : WwMsg) (s : State) : Host.Outcome State Fault Refusal :=
  .next (s.wwIn p { m with mtype := 8, addr := 1 })

/-- TIME_REQ (R574). -/
def execTimeReq (p : Fin 12) (m : WwMsg) (s : State) : Host.Outcome State Fault Refusal :=
  .next (s.wwIn p { m with mtype := 8, addr := 2 })

/-- TIME_RSP (R574). -/
def execTimeRsp (p : Fin 12) (m : WwMsg) (s : State) : Host.Outcome State Fault Refusal :=
  .next (s.wwIn p { m with mtype := 8, addr := 3 })

/-- LEADER (R583). -/
def execLeader (p : Fin 12) (m : WwMsg) (s : State) : Host.Outcome State Fault Refusal :=
  .next (s.wwIn p { m with mtype := 8, addr := 4 })

/-- LOSS_NOTICE (R568). -/
def execLossNotice (p : Fin 12) (m : WwMsg) (s : State) : Host.Outcome State Fault Refusal :=
  .next (s.wwIn p { m with mtype := 8, addr := 5 })

/-- SAFE_NOTICE (R585). -/
def execSafeNotice (p : Fin 12) (m : WwMsg) (s : State) : Host.Outcome State Fault Refusal :=
  .next (s.wwIn p { m with mtype := 8, addr := 6 })

/-- GFAULT (R586). -/
def execGfault (p : Fin 12) (m : WwMsg) (s : State) : Host.Outcome State Fault Refusal :=
  .next (s.wwIn p { m with mtype := 8, addr := 7 })

/-- ADMIT_NOTICE (R730). -/
def execAdmitNotice (p : Fin 12) (m : WwMsg) (s : State) : Host.Outcome State Fault Refusal :=
  .next (s.wwIn p { m with mtype := 8, addr := 8 })

/-- FWMSG (R562). -/
def execFwmsg (p : Fin 12) (m : WwMsg) (s : State) : Host.Outcome State Fault Refusal :=
  .next (s.wwIn p { m with mtype := 8, addr := 0x10 })

/-- FWMSG_READ (R562): a read of WW_FWMSG. -/
def execFwmsgRead (w : Who) (s : State) : Host.Outcome State Fault Refusal := .next (s.readReg w 0x300030)

/-- LSSIG (R652). -/
def execLssig (p : Fin 12) (m : WwMsg) (s : State) : Host.Outcome State Fault Refusal :=
  .next (s.wwIn p { m with mtype := 8, addr := 0x11 })

/-- LSROWS (R653): one block of the row table; ADDR carries block, tile and step. -/
def execLsrows (p : Fin 12) (m : WwMsg) (s : State) : Host.Outcome State Fault Refusal :=
  .next (s.wwIn p { m with mtype := 8, addr := 0x12 + m.addr / 256 * 256 })

/-- REMOTE_REQUEST_TIMEOUT (R571). -/
def execRemoteRequestTimeout (tag : Fin 2048) (s : State) : Host.Outcome State Fault Refusal := .next (s.requestTimeout tag)

/-- TIME_EXCHANGE_TIMER (R574). -/
def execTimeExchangeTimer (p : Fin 12) (s : State) : Host.Outcome State Fault Refusal := .next (s.timeTimer p)

/-- SYNC_SEND (R576). -/
def execSyncSend (n : Fin 8) (s : State) : Host.Outcome State Fault Refusal := .next (s.syncSend n)

/-- LEADER_BROADCAST (R583). -/
def execLeaderBroadcast (s : State) : Host.Outcome State Fault Refusal := .next s.leaderTimer

/-- LEADER_TIMEOUT (R584). -/
def execLeaderTimeout (s : State) : Host.Outcome State Fault Refusal := .next s.leaderTimeout

/-- GF_CLEAR (R586): a write of WW_CTRL with GF_CLEAR. -/
def execGfClear (w : Who) (v : BitVec 32) (s : State) : Host.Outcome State Fault Refusal :=
  .next (s.writeReg w 0x300000 (v ||| 0x40).toNat)

/-- NR_CLEAR (R582): a write of WW_CTRL with NR_CLEAR. -/
def execNrClear (w : Who) (v : BitVec 32) (s : State) : Host.Outcome State Fault Refusal :=
  .next (s.writeReg w 0x300000 (v ||| 0x80).toNat)

/-- ROUTE_TABLE_WRITE (R563): a write of four route entries. -/
def execRouteTableWrite (i : Fin 8192) (w : Who) (v : BitVec 32) (s : State) : Host.Outcome State Fault Refusal :=
  .next (s.writeReg w (0x308000 + 4 * i) v.toNat)

/-- TUNNEL_ENABLE (R578): a write of WT_CTRL. -/
def execTunnelEnable (k : Fin 4) (w : Who) (v : BitVec 32) (s : State) : Host.Outcome State Fault Refusal :=
  .next (s.writeReg w (0x300400 + 0x40 * k) v.toNat)

/-- TUNNEL_FRAME_RECEIVE (R580). -/
def execTunnelFrameReceive (k : Fin 4) (f : WwFrame) (rs : List Reply) (s : State) : Host.Outcome State Fault Refusal :=
  .next (s.withReplies rs fun s => s.tunnelFrame k f)

/-- KEEPALIVE (R580). -/
def execKeepalive (k : Fin 4) (s : State) : Host.Outcome State Fault Refusal := .next (s.keepalive (8 + k))

/-- TUNNEL_RETRANSMIT (R580). -/
def execTunnelRetransmit (k : Fin 4) (s : State) : Host.Outcome State Fault Refusal := .next (s.replayTimeout (8 + k))

/-- SWEEP_GO (R587): a write of WS_CTRL with GO. -/
def execSweepGo (w : Who) (v : BitVec 32) (s : State) : Host.Outcome State Fault Refusal :=
  .next (s.writeReg w 0x300800 (v ||| 1).toNat)

/-- SWEEP_START (R587). -/
def execSweepStart (p : Fin 12) (m : WwMsg) (s : State) : Host.Outcome State Fault Refusal :=
  .next (s.wwIn p { m with mtype := 9, addr := 1 })

/-- SWEEP_REFUSAL (R587). -/
def execSweepRefusal (p : Fin 12) (m : WwMsg) (s : State) : Host.Outcome State Fault Refusal :=
  .next (s.wwIn p { m with mtype := 9, addr := 7 })

/-- SWEEP_S0 (R587). -/
def execSweepS0 (s : State) : Host.Outcome State Fault Refusal := .next s.sweepS0

/-- SWEEP_SYNC_SEND (R588). -/
def execSweepSyncSend (p : Fin 12) (s : State) : Host.Outcome State Fault Refusal := .next (s.sweepSyncSend p)

/-- SWEEP_SYNC (R589). -/
def execSweepSync (p : Fin 12) (m : WwMsg) (s : State) : Host.Outcome State Fault Refusal :=
  .next (s.wwIn p { m with mtype := 9, addr := 2 })

/-- SWEEP_ACK_SEND (R588). -/
def execSweepAckSend (s : State) : Host.Outcome State Fault Refusal := .next s.sweepAckSend

/-- SWEEP_ACK (R588). -/
def execSweepAck (p : Fin 12) (m : WwMsg) (s : State) : Host.Outcome State Fault Refusal :=
  .next (s.wwIn p { m with mtype := 9, addr := 3 })

/-- SWEEP_CUT (R589). -/
def execSweepCut (s : State) : Host.Outcome State Fault Refusal := .next s.sweepCut

/-- SWEEP_ACK_MISSING (R590). -/
def execSweepAckMissing (m : Fin 16) (s : State) : Host.Outcome State Fault Refusal := .next (s.sweepAckMissing m)

/-- SWEEP_STOP (R590). -/
def execSweepStop (p : Fin 12) (m : WwMsg) (s : State) : Host.Outcome State Fault Refusal :=
  .next (s.wwIn p { m with mtype := 9, addr := 4 })

/-- SWEEP_END (R591). -/
def execSweepEnd (p : Fin 12) (m : WwMsg) (s : State) : Host.Outcome State Fault Refusal :=
  .next (s.wwIn p { m with mtype := 9, addr := 5 })

/-- SWEEP_ABORT (R591): a write of WS_CTRL with ABORT. A member takes it as a message (State.wwSweep). -/
def execSweepAbort (w : Who) (v : BitVec 32) (s : State) : Host.Outcome State Fault Refusal :=
  .next (s.writeReg w 0x300800 (v ||| 2).toNat)

end Sys2Proof.Machine
end

