-- ==== Sys2Proof/Machine/Dispatch.lean ====
section
/-! DEFINITION. One arm per command of the table: which meaning each command has. -/

namespace Sys2Proof.Machine

def exec (i : Instr) (s : State) : Host.Outcome State Fault Refusal :=
  match i with
  | .registerWrite w a v rs => Sys2Proof.Machine.execRegisterWrite w a v rs s
  | .setupLock w => Sys2Proof.Machine.execSetupLock w s
  | .islLock w => Sys2Proof.Machine.execIslLock w s
  | .porstNAssert => Sys2Proof.Machine.execPorstNAssert s
  | .porstNRelease mode => Sys2Proof.Machine.execPorstNRelease mode s
  | .sysrstNAssert => Sys2Proof.Machine.execSysrstNAssert s
  | .sysrstNRelease => Sys2Proof.Machine.execSysrstNRelease s
  | .referenceAcceptance n1 n2 n3 n4 => Sys2Proof.Machine.execReferenceAcceptance n1 n2 n3 n4 s
  | .pllLockLimit ctrl fab tile serdes => Sys2Proof.Machine.execPllLockLimit ctrl fab tile serdes s
  | .dividerAlignment => Sys2Proof.Machine.execDividerAlignment s
  | .fuseReadout => Sys2Proof.Machine.execFuseReadout s
  | .initComplete fails => Sys2Proof.Machine.execInitComplete fails s
  | .imageLoad img => Sys2Proof.Machine.execImageLoad img s
  | .imageVerify => Sys2Proof.Machine.execImageVerify s
  | .islandSramZeroed ok => Sys2Proof.Machine.execIslandSramZeroed ok s
  | .islandSegmentCopy => Sys2Proof.Machine.execIslandSegmentCopy s
  | .islandFirmwareStart => Sys2Proof.Machine.execIslandFirmwareStart s
  | .bootData w v => Sys2Proof.Machine.execBootData w v s
  | .hostGo w => Sys2Proof.Machine.execHostGo w s
  | .mgmtGo w => Sys2Proof.Machine.execMgmtGo w s
  | .hostReady w => Sys2Proof.Machine.execHostReady w s
  | .dbgUnlock w => Sys2Proof.Machine.execDbgUnlock w s
  | .pcieLinkTraining => Sys2Proof.Machine.execPcieLinkTraining s
  | .bankSupplyLoss b => Sys2Proof.Machine.execBankSupplyLoss b s
  | .bankSupplyReturn b => Sys2Proof.Machine.execBankSupplyReturn b s
  | .grantWindowStart xs => Sys2Proof.Machine.execGrantWindowStart xs s
  | .rowEligible u c => Sys2Proof.Machine.execRowEligible u c s
  | .grantDecision => Sys2Proof.Machine.execGrantDecision s
  | .iterationComplete u c => Sys2Proof.Machine.execIterationComplete u c s
  | .postAnswer ix => Sys2Proof.Machine.execPostAnswer ix s
  | .tokenArrival ix => Sys2Proof.Machine.execTokenArrival ix s
  | .creditArrival ix => Sys2Proof.Machine.execCreditArrival ix s
  | .tokcntWrite w u c k v taken arrived => Sys2Proof.Machine.execTokcntWrite w u c k v taken arrived s
  | .poolCntWrite w u p v taken returned => Sys2Proof.Machine.execPoolCntWrite w u p v taken returned s
  | .toktake w u c k n => Sys2Proof.Machine.execToktake w u c k n s
  | .ctxStart w u c v => Sys2Proof.Machine.execCtxStart w u c v s
  | .ctxHalt w u c v => Sys2Proof.Machine.execCtxHalt w u c v s
  | .ctxStep w u c v => Sys2Proof.Machine.execCtxStep w u c v s
  | .ctxClear w u c v => Sys2Proof.Machine.execCtxClear w u c v s
  | .ctxPcWrite w u c v => Sys2Proof.Machine.execCtxPcWrite w u c v s
  | .rowCommit w u r v => Sys2Proof.Machine.execRowCommit w u r v s
  | .ctxStall u c => Sys2Proof.Machine.execCtxStall u c s
  | .seqErrRead w u => Sys2Proof.Machine.execSeqErrRead w u s
  | .sync u c => Sys2Proof.Machine.execSync u c s
  | .memoryRead w unit ep ga n rs => Sys2Proof.Machine.execMemoryRead w unit ep ga n rs s
  | .memoryWrite w unit ep ga data => Sys2Proof.Machine.execMemoryWrite w unit ep ga data s
  | .writeAcknowledgement ini => Sys2Proof.Machine.execWriteAcknowledgement ini s
  | .zeroLengthReadComplete fn => Sys2Proof.Machine.execZeroLengthReadComplete fn s
  | .eccWriteBack wa => Sys2Proof.Machine.execEccWriteBack wa s
  | .scrubRead skip => Sys2Proof.Machine.execScrubRead skip s
  | .amo core op ga wide v => Sys2Proof.Machine.execAmo core op ga wide v s
  | .memZeroGo w v => Sys2Proof.Machine.execMemZeroGo w v s
  | .zeroingDone => Sys2Proof.Machine.execZeroingDone s
  | .memCntClr w v => Sys2Proof.Machine.execMemCntClr w v s
  | .copy u c rs => Sys2Proof.Machine.execCopy u c rs s
  | .fill u c rs => Sys2Proof.Machine.execFill u c rs s
  | .mma t c => Sys2Proof.Machine.execMma t c s
  | .add t c => Sys2Proof.Machine.execAdd t c s
  | .sub t c => Sys2Proof.Machine.execSub t c s
  | .mul t c => Sys2Proof.Machine.execMul t c s
  | .fma t c => Sys2Proof.Machine.execFma t c s
  | .max t c => Sys2Proof.Machine.execMax t c s
  | .min t c => Sys2Proof.Machine.execMin t c s
  | .abs t c => Sys2Proof.Machine.execAbs t c s
  | .neg t c => Sys2Proof.Machine.execNeg t c s
  | .cvt t c => Sys2Proof.Machine.execCvt t c s
  | .requant t c => Sys2Proof.Machine.execRequant t c s
  | .cmpgt t c => Sys2Proof.Machine.execCmpgt t c s
  | .cmpeq t c => Sys2Proof.Machine.execCmpeq t c s
  | .select t c => Sys2Proof.Machine.execSelect t c s
  | .recip t c => Sys2Proof.Machine.execRecip t c s
  | .rsqrt t c => Sys2Proof.Machine.execRsqrt t c s
  | .exp2 t c => Sys2Proof.Machine.execExp2 t c s
  | .log2 t c => Sys2Proof.Machine.execLog2 t c s
  | .rsum t c => Sys2Proof.Machine.execRsum t c s
  | .rmax t c => Sys2Proof.Machine.execRmax t c s
  | .shift t c => Sys2Proof.Machine.execShift t c s
  | .and t c => Sys2Proof.Machine.execAnd t c s
  | .or t c => Sys2Proof.Machine.execOr t c s
  | .xor t c => Sys2Proof.Machine.execXor t c s
  | .tileCntClr w t v => Sys2Proof.Machine.execTileCntClr w t v s
  | .topk t c => Sys2Proof.Machine.execTopk t c s
  | .merge t c => Sys2Proof.Machine.execMerge t c s
  | .argidx t c => Sys2Proof.Machine.execArgidx t c s
  | .selCntClr w t v => Sys2Proof.Machine.execSelCntClr w t v s
  | .selQmax core rs1 => Sys2Proof.Machine.execSelQmax core rs1 s
  | .selQtopk core rs1 => Sys2Proof.Machine.execSelQtopk core rs1 s
  | .reedTest core rs1 rs2 => Sys2Proof.Machine.execReedTest core rs1 rs2 s
  | .reedRdest core rs1 rs2 => Sys2Proof.Machine.execReedRdest core rs1 rs2 s
  | .reedWput core rs1 rs2 => Sys2Proof.Machine.execReedWput core rs1 rs2 s
  | .reedFallbk core rs1 => Sys2Proof.Machine.execReedFallbk core rs1 s
  | .tokPost core rs1 => Sys2Proof.Machine.execTokPost core rs1 s
  | .portSquash core op ran => Sys2Proof.Machine.execPortSquash core op ran s
  | .eval e c => Sys2Proof.Machine.execEval e c s
  | .seal e c => Sys2Proof.Machine.execSeal e c s
  | .swap e c => Sys2Proof.Machine.execSwap e c s
  | .free e c => Sys2Proof.Machine.execFree e c s
  | .reedInstanceEnable w ix v => Sys2Proof.Machine.execReedInstanceEnable w ix v s
  | .swapNow w ix v => Sys2Proof.Machine.execSwapNow w ix v s
  | .reedApprove w ix v => Sys2Proof.Machine.execReedApprove w ix v s
  | .run ln c => Sys2Proof.Machine.execRun ln c s
  | .slotStart ln => Sys2Proof.Machine.execSlotStart ln s
  | .slotPublish ln agree => Sys2Proof.Machine.execSlotPublish ln agree s
  | .cwqEnqueue w v => Sys2Proof.Machine.execCwqEnqueue w v s
  | .cwqFlush w v => Sys2Proof.Machine.execCwqFlush w v s
  | .chnSlotEnable w x v => Sys2Proof.Machine.execChnSlotEnable w x v s
  | .laneEnable w v => Sys2Proof.Machine.execLaneEnable w v s
  | .laneListWrite w ln j v => Sys2Proof.Machine.execLaneListWrite w ln j v s
  | .chnCntClr w v => Sys2Proof.Machine.execChnCntClr w v s
  | .setpointUpdate c => Sys2Proof.Machine.execSetpointUpdate c s
  | .spEnable w c v => Sys2Proof.Machine.execSpEnable w c v s
  | .spHost w c v => Sys2Proof.Machine.execSpHost w c v s
  | .injectionGo w g v => Sys2Proof.Machine.execInjectionGo w g v s
  | .injectionStop w g v => Sys2Proof.Machine.execInjectionStop w g v s
  | .injectionAbort w g v => Sys2Proof.Machine.execInjectionAbort w g v s
  | .permitWrite w v => Sys2Proof.Machine.execPermitWrite w v s
  | .captureEnable w c v => Sys2Proof.Machine.execCaptureEnable w c v s
  | .captureWriteComplete c => Sys2Proof.Machine.execCaptureWriteComplete c s
  | .droneCycle => Sys2Proof.Machine.execDroneCycle s
  | .latchRecordWritten rs => Sys2Proof.Machine.execLatchRecordWritten rs s
  | .droneCaptureTick d => Sys2Proof.Machine.execDroneCaptureTick d s
  | .droneMeasurement ix => Sys2Proof.Machine.execDroneMeasurement ix s
  | .droneMissTest d => Sys2Proof.Machine.execDroneMissTest d s
  | .holdMaxExpiry d => Sys2Proof.Machine.execHoldMaxExpiry d s
  | .drnEnable w d v => Sys2Proof.Machine.execDrnEnable w d v s
  | .reacq w d v => Sys2Proof.Machine.execReacq w d v s
  | .presetGo w d v => Sys2Proof.Machine.execPresetGo w d v s
  | .drnCntClr w d v => Sys2Proof.Machine.execDrnCntClr w d v s
  | .altActiveReturn w d v => Sys2Proof.Machine.execAltActiveReturn w d v s
  | .evPhaseWrite w d e v => Sys2Proof.Machine.execEvPhaseWrite w d e v s
  | .evCtrlWrite w d e v => Sys2Proof.Machine.execEvCtrlWrite w d e v s
  | .drnSnapRead w d => Sys2Proof.Machine.execDrnSnapRead w d s
  | .latchBankRead w => Sys2Proof.Machine.execLatchBankRead w s
  | .axisStart w n v => Sys2Proof.Machine.execAxisStart w n v s
  | .axisStop w n v => Sys2Proof.Machine.execAxisStop w n v s
  | .axisClear w n v => Sys2Proof.Machine.execAxisClear w n v s
  | .pwmEn w n v => Sys2Proof.Machine.execPwmEn w n v s
  | .axSyncGo w v => Sys2Proof.Machine.execAxSyncGo w v s
  | .reloadPoint n => Sys2Proof.Machine.execReloadPoint n s
  | .samplingPoint n => Sys2Proof.Machine.execSamplingPoint n s
  | .sigmaDeltaWord m l => Sys2Proof.Machine.execSigmaDeltaWord m l s
  | .dutyStage n => Sys2Proof.Machine.execDutyStage n s
  | .axCmpWrite w n x v => Sys2Proof.Machine.execAxCmpWrite w n x v s
  | .fastOvercurrentTrip m l => Sys2Proof.Machine.execFastOvercurrentTrip m l s
  | .activityFault m => Sys2Proof.Machine.execActivityFault m s
  | .densityBlockEnd m ones => Sys2Proof.Machine.execDensityBlockEnd m ones s
  | .encoderEdge n a b => Sys2Proof.Machine.execEncoderEdge n a b s
  | .encoderIndex n => Sys2Proof.Machine.execEncoderIndex n s
  | .encCntWrite w n v e => Sys2Proof.Machine.execEncCntWrite w n v e s
  | .idxArm w n v => Sys2Proof.Machine.execIdxArm w n v s
  | .catchTimeout n => Sys2Proof.Machine.execCatchTimeout n s
  | .probePulse n => Sys2Proof.Machine.execProbePulse n s
  | .probePulseEnd n => Sys2Proof.Machine.execProbePulseEnd n s
  | .subTimeout n => Sys2Proof.Machine.execSubTimeout n s
  | .brakeDelayExpiry n => Sys2Proof.Machine.execBrakeDelayExpiry n s
  | .chopperMinInterval n => Sys2Proof.Machine.execChopperMinInterval n s
  | .zeroCrossEdge r rise => Sys2Proof.Machine.execZeroCrossEdge r rise s
  | .referenceEnable w r v => Sys2Proof.Machine.execReferenceEnable w r v s
  | .pcEnable w n v => Sys2Proof.Machine.execPcEnable w n v s
  | .restart w n v => Sys2Proof.Machine.execRestart w n v s
  | .pcClear w n v => Sys2Proof.Machine.execPcClear w n v s
  | .pulseEnd n => Sys2Proof.Machine.execPulseEnd n s
  | .conductionWindowEnd n => Sys2Proof.Machine.execConductionWindowEnd n s
  | .retrigger n => Sys2Proof.Machine.execRetrigger n s
  | .currentSignChange n ipos ineg => Sys2Proof.Machine.execCurrentSignChange n ipos ineg s
  | .isgnBadFault n => Sys2Proof.Machine.execIsgnBadFault n s
  | .llEnable w l v => Sys2Proof.Machine.execLlEnable w l v s
  | .startIdleEnd l => Sys2Proof.Machine.execStartIdleEnd l s
  | .readResponse l words crc => Sys2Proof.Machine.execReadResponse l words crc s
  | .updateInstant l => Sys2Proof.Machine.execUpdateInstant l s
  | .refreshComplete l => Sys2Proof.Machine.execRefreshComplete l s
  | .scanSlotStart l => Sys2Proof.Machine.execScanSlotStart l s
  | .scanBlankEnd l => Sys2Proof.Machine.execScanBlankEnd l s
  | .llCntClr w v => Sys2Proof.Machine.execLlCntClr w v s
  | .nop e => Sys2Proof.Machine.execNop e s
  | .br e fio => Sys2Proof.Machine.execBr e fio s
  | .loop e => Sys2Proof.Machine.execLoop e s
  | .wait e fio => Sys2Proof.Machine.execWait e fio s
  | .waitEnd e fio => Sys2Proof.Machine.execWaitEnd e fio s
  | .waitTimeout e => Sys2Proof.Machine.execWaitTimeout e s
  | .shin e fio => Sys2Proof.Machine.execShin e fio s
  | .shout e => Sys2Proof.Machine.execShout e s
  | .pushRx e => Sys2Proof.Machine.execPushRx e s
  | .pushDrone e => Sys2Proof.Machine.execPushDrone e s
  | .pushPcnt e => Sys2Proof.Machine.execPushPcnt e s
  | .pull e => Sys2Proof.Machine.execPull e s
  | .fifoStallEnd e => Sys2Proof.Machine.execFifoStallEnd e s
  | .xfer e => Sys2Proof.Machine.execXfer e s
  | .load e => Sys2Proof.Machine.execLoad e s
  | .pin e => Sys2Proof.Machine.execPin e s
  | .tgt e => Sys2Proof.Machine.execTgt e s
  | .sigErr e => Sys2Proof.Machine.execSigErr e s
  | .sigIrq e => Sys2Proof.Machine.execSigIrq e s
  | .sigToken e => Sys2Proof.Machine.execSigToken e s
  | .sigHalt e => Sys2Proof.Machine.execSigHalt e s
  | .sigClrstale e => Sys2Proof.Machine.execSigClrstale e s
  | .sigCrcrst e => Sys2Proof.Machine.execSigCrcrst e s
  | .fetchIllegal e => Sys2Proof.Machine.execFetchIllegal e s
  | .fetchParityError e => Sys2Proof.Machine.execFetchParityError e s
  | .feEn w e v => Sys2Proof.Machine.execFeEn w e v s
  | .feHalt w e v => Sys2Proof.Machine.execFeHalt w e v s
  | .feStep w e v fio => Sys2Proof.Machine.execFeStep w e v fio s
  | .fifeGo w v => Sys2Proof.Machine.execFifeGo w v s
  | .fifeClkrst w v => Sys2Proof.Machine.execFifeClkrst w v s
  | .feInj w e v fio => Sys2Proof.Machine.execFeInj w e v fio s
  | .feTx w e v => Sys2Proof.Machine.execFeTx w e v s
  | .feRxRead w e => Sys2Proof.Machine.execFeRxRead w e s
  | .instructionMemoryWrite w e ix v => Sys2Proof.Machine.execInstructionMemoryWrite w e ix v s
  | .fifeNowRead w => Sys2Proof.Machine.execFifeNowRead w s
  | .frame c rs => Sys2Proof.Machine.execFrame c rs s
  | .decomp c rs => Sys2Proof.Machine.execDecomp c rs s
  | .rasGrow w v rs => Sys2Proof.Machine.execRasGrow w v rs s
  | .growTimeout rs => Sys2Proof.Machine.execGrowTimeout rs s
  | .shadeReturn rs => Sys2Proof.Machine.execShadeReturn rs s
  | .shadeTimeout rs => Sys2Proof.Machine.execShadeTimeout rs s
  | .rasCntClr w v => Sys2Proof.Machine.execRasCntClr w v s
  | .opTgtWrite w v => Sys2Proof.Machine.execOpTgtWrite w v s
  | .supplySettled => Sys2Proof.Machine.execSupplySettled s
  | .tilePllLock => Sys2Proof.Machine.execTilePllLock s
  | .relockSwitchBack => Sys2Proof.Machine.execRelockSwitchBack s
  | .tileLockTimeout => Sys2Proof.Machine.execTileLockTimeout s
  | .belPwrDn w ix v => Sys2Proof.Machine.execBelPwrDn w ix v s
  | .rasDn w dn => Sys2Proof.Machine.execRasDn w dn s
  | .powerReturn t => Sys2Proof.Machine.execPowerReturn t s
  | .motionOnly w v => Sys2Proof.Machine.execMotionOnly w v s
  | .bellowsVokFall => Sys2Proof.Machine.execBellowsVokFall s
  | .pllLockLoss pll => Sys2Proof.Machine.execPllLockLoss pll s
  | .pcieReset => Sys2Proof.Machine.execPcieReset s
  | .flr n => Sys2Proof.Machine.execFlr n s
  | .d3hotEntry n => Sys2Proof.Machine.execD3hotEntry n s
  | .d0Return n => Sys2Proof.Machine.execD0Return n s
  | .sqTailDb w n q v => Sys2Proof.Machine.execSqTailDb w n q v s
  | .cqHeadDb w n c v => Sys2Proof.Machine.execCqHeadDb w n c v s
  | .sqEnable w n q v => Sys2Proof.Machine.execSqEnable w n q v s
  | .sqStop w n q v => Sys2Proof.Machine.execSqStop w n q v s
  | .sqResume w n q v => Sys2Proof.Machine.execSqResume w n q v s
  | .cqEnable w n c v => Sys2Proof.Machine.execCqEnable w n c v s
  | .descriptorFetch n q k rs => Sys2Proof.Machine.execDescriptorFetch n q k rs s
  | .descriptorNop n q => Sys2Proof.Machine.execDescriptorNop n q s
  | .descriptorCopy n q rs => Sys2Proof.Machine.execDescriptorCopy n q rs s
  | .descriptorFill n q rs => Sys2Proof.Machine.execDescriptorFill n q rs s
  | .descriptorPost n q => Sys2Proof.Machine.execDescriptorPost n q s
  | .descriptorWait n q rs => Sys2Proof.Machine.execDescriptorWait n q rs s
  | .waitPoll n q rs => Sys2Proof.Machine.execWaitPoll n q rs s
  | .descriptorWaitTimeout n q => Sys2Proof.Machine.execDescriptorWaitTimeout n q s
  | .descriptorSignal n q rs => Sys2Proof.Machine.execDescriptorSignal n q rs s
  | .regwr n q rs => Sys2Proof.Machine.execRegwr n q rs s
  | .regrd n q rs => Sys2Proof.Machine.execRegrd n q rs s
  | .tstamp n q => Sys2Proof.Machine.execTstamp n q s
  | .descriptorComplete n q slot => Sys2Proof.Machine.execDescriptorComplete n q slot s
  | .cqTimerExpiry n c => Sys2Proof.Machine.execCqTimerExpiry n c s
  | .wlEnable n w v => Sys2Proof.Machine.execWlEnable n w v s
  | .trainingComplete n width gen2 f rs => Sys2Proof.Machine.execTrainingComplete n width gen2 f rs s
  | .trainingTimeout p => Sys2Proof.Machine.execTrainingTimeout p s
  | .frameReceive n f rs => Sys2Proof.Machine.execFrameReceive n f rs s
  | .replayTimeout n => Sys2Proof.Machine.execReplayTimeout n s
  | .linkLoss p lock => Sys2Proof.Machine.execLinkLoss p lock s
  | .wr p m rs => Sys2Proof.Machine.execWr p m rs s
  | .rd p m rs => Sys2Proof.Machine.execRd p m rs s
  | .rdrsp p m => Sys2Proof.Machine.execRdrsp p m s
  | .wrack p m => Sys2Proof.Machine.execWrack p m s
  | .tok p m => Sys2Proof.Machine.execTok p m s
  | .tokack p m => Sys2Proof.Machine.execTokack p m s
  | .syncMessage p m => Sys2Proof.Machine.execSyncMessage p m s
  | .joinInfo p m => Sys2Proof.Machine.execJoinInfo p m s
  | .timeReq p m => Sys2Proof.Machine.execTimeReq p m s
  | .timeRsp p m => Sys2Proof.Machine.execTimeRsp p m s
  | .leader p m => Sys2Proof.Machine.execLeader p m s
  | .lossNotice p m => Sys2Proof.Machine.execLossNotice p m s
  | .safeNotice p m => Sys2Proof.Machine.execSafeNotice p m s
  | .gfault p m => Sys2Proof.Machine.execGfault p m s
  | .admitNotice p m => Sys2Proof.Machine.execAdmitNotice p m s
  | .fwmsg p m => Sys2Proof.Machine.execFwmsg p m s
  | .fwmsgRead w => Sys2Proof.Machine.execFwmsgRead w s
  | .lssig p m => Sys2Proof.Machine.execLssig p m s
  | .lsrows p m => Sys2Proof.Machine.execLsrows p m s
  | .remoteRequestTimeout tag => Sys2Proof.Machine.execRemoteRequestTimeout tag s
  | .timeExchangeTimer p => Sys2Proof.Machine.execTimeExchangeTimer p s
  | .syncSend n => Sys2Proof.Machine.execSyncSend n s
  | .leaderBroadcast => Sys2Proof.Machine.execLeaderBroadcast s
  | .leaderTimeout => Sys2Proof.Machine.execLeaderTimeout s
  | .gfClear w v => Sys2Proof.Machine.execGfClear w v s
  | .nrClear w v => Sys2Proof.Machine.execNrClear w v s
  | .routeTableWrite ix w v => Sys2Proof.Machine.execRouteTableWrite ix w v s
  | .tunnelEnable k w v => Sys2Proof.Machine.execTunnelEnable k w v s
  | .tunnelFrameReceive k f rs => Sys2Proof.Machine.execTunnelFrameReceive k f rs s
  | .keepalive k => Sys2Proof.Machine.execKeepalive k s
  | .tunnelRetransmit k => Sys2Proof.Machine.execTunnelRetransmit k s
  | .sweepGo w v => Sys2Proof.Machine.execSweepGo w v s
  | .sweepStart p m => Sys2Proof.Machine.execSweepStart p m s
  | .sweepRefusal p m => Sys2Proof.Machine.execSweepRefusal p m s
  | .sweepS0 => Sys2Proof.Machine.execSweepS0 s
  | .sweepSyncSend p => Sys2Proof.Machine.execSweepSyncSend p s
  | .sweepSync p m => Sys2Proof.Machine.execSweepSync p m s
  | .sweepAckSend => Sys2Proof.Machine.execSweepAckSend s
  | .sweepAck p m => Sys2Proof.Machine.execSweepAck p m s
  | .sweepCut => Sys2Proof.Machine.execSweepCut s
  | .sweepAckMissing m => Sys2Proof.Machine.execSweepAckMissing m s
  | .sweepStop p m => Sys2Proof.Machine.execSweepStop p m s
  | .sweepEnd p m => Sys2Proof.Machine.execSweepEnd p m s
  | .sweepAbort w v => Sys2Proof.Machine.execSweepAbort w v s
  | .frTailWrite r w v => Sys2Proof.Machine.execFrTailWrite r w v s
  | .fieldEntryDone r rs => Sys2Proof.Machine.execFieldEntryDone r rs s
  | .ethFrameReceive p speed f fcsOk rs => Sys2Proof.Machine.execEthFrameReceive p speed f fcsOk rs s
  | .ethFrameTransmit p speed rs => Sys2Proof.Machine.execEthFrameTransmit p speed rs s
  | .gateEntryEnd p => Sys2Proof.Machine.execGateEntryEnd p s
  | .qbvChange p w v => Sys2Proof.Machine.execQbvChange p w v s
  | .adminListActivation p => Sys2Proof.Machine.execAdminListActivation p s
  | .rateAdjWrite w v => Sys2Proof.Machine.execRateAdjWrite w v s
  | .timeStep w v => Sys2Proof.Machine.execTimeStep w v s
  | .canTxreq c w v => Sys2Proof.Machine.execCanTxreq c w v s
  | .canTransmitDone c => Sys2Proof.Machine.execCanTransmitDone c s
  | .canFrameReceive c ts f rs => Sys2Proof.Machine.execCanFrameReceive c ts f rs s
  | .canBusOff c => Sys2Proof.Machine.execCanBusOff c s
  | .canRecover c w v => Sys2Proof.Machine.execCanRecover c w v s
  | .busOffRecovery c => Sys2Proof.Machine.execBusOffRecovery c s
  | .csiFrameStart r hdr vc num rs => Sys2Proof.Machine.execCsiFrameStart r hdr vc num rs s
  | .csiLine r hdr vc dt vals crcOk rs => Sys2Proof.Machine.execCsiLine r hdr vc dt vals crcOk rs s
  | .csiBandComplete r x => Sys2Proof.Machine.execCsiBandComplete r x s
  | .csiFrameEnd r hdr vc rs => Sys2Proof.Machine.execCsiFrameEnd r hdr vc rs s
  | .csiFrameTimeout r x rs => Sys2Proof.Machine.execCsiFrameTimeout r x rs s
  | .csBufRet r x w v => Sys2Proof.Machine.execCsBufRet r x w v s
  | .spiTx k w v => Sys2Proof.Machine.execSpiTx k w v s
  | .i2cCmd k w v => Sys2Proof.Machine.execI2cCmd k w v s
  | .uartTx k w v => Sys2Proof.Machine.execUartTx k w v s
  | .xspiCmd w v => Sys2Proof.Machine.execXspiCmd w v s
  | .serialTransferDone e => Sys2Proof.Machine.execSerialTransferDone e s
  | .serialRxRead r w => Sys2Proof.Machine.execSerialRxRead r w s
  | .xspiWdataRead w rs => Sys2Proof.Machine.execXspiWdataRead w rs s
  | .reproWrite w v => Sys2Proof.Machine.execReproWrite w v s
  | .rpStepWrite w v => Sys2Proof.Machine.execRpStepWrite w v s
  | .rpStepAdv w v => Sys2Proof.Machine.execRpStepAdv w v s
  | .generatorDraw w v => Sys2Proof.Machine.execGeneratorDraw w v s
  | .generatorDrawDone => Sys2Proof.Machine.execGeneratorDrawDone s
  | .lsEnable w v => Sys2Proof.Machine.execLsEnable w v s
  | .stepClose t step => Sys2Proof.Machine.execStepClose t step s
  | .lsTimeout t step => Sys2Proof.Machine.execLsTimeout t step s
  | .faultAssertion src detail => Sys2Proof.Machine.execFaultAssertion src detail s
  | .sfEnter w v => Sys2Proof.Machine.execSfEnter w v s
  | .sfExit w v => Sys2Proof.Machine.execSfExit w v s
  | .sfSwfault w v => Sys2Proof.Machine.execSfSwfault w v s
  | .watchdogKick w v => Sys2Proof.Machine.execWatchdogKick w v s
  | .watchdogExpiry => Sys2Proof.Machine.execWatchdogExpiry s
  | .clockMonitorWindow n => Sys2Proof.Machine.execClockMonitorWindow n s
  | .stoReadbackMismatch pin level => Sys2Proof.Machine.execStoReadbackMismatch pin level s
  | .stoTestPulse pin low => Sys2Proof.Machine.execStoTestPulse pin low s
  | .safeInLow high n => Sys2Proof.Machine.execSafeInLow high n s
  | .safetyFramePeriod c => Sys2Proof.Machine.execSafetyFramePeriod c s
  | .safetyPduReceive c pdu => Sys2Proof.Machine.execSafetyPduReceive c pdu s
  | .safetyRxTimeout c => Sys2Proof.Machine.execSafetyRxTimeout c s
  | .firewallWrite w v => Sys2Proof.Machine.execFirewallWrite w v s
  | .firewallRead w v => Sys2Proof.Machine.execFirewallRead w v s
  | .firewallArm w v => Sys2Proof.Machine.execFirewallArm w v s
  | .firewallLock w v => Sys2Proof.Machine.execFirewallLock w v s
  | .firewallParitySweep bad => Sys2Proof.Machine.execFirewallParitySweep bad s
  | .drain w v => Sys2Proof.Machine.execDrain w v s
  | .drainRetryWindowEnd u => Sys2Proof.Machine.execDrainRetryWindowEnd u s
  | .drainComplete u => Sys2Proof.Machine.execDrainComplete u s
  | .drainTimeout u => Sys2Proof.Machine.execDrainTimeout u s
  | .bist w v => Sys2Proof.Machine.execBist w v s
  | .bistComplete u ok => Sys2Proof.Machine.execBistComplete u ok s
  | .admitUnit w v => Sys2Proof.Machine.execAdmitUnit w v s
  | .admittingEnd u => Sys2Proof.Machine.execAdmittingEnd u s
  | .pwmCompareEdge n x => Sys2Proof.Machine.execPwmCompareEdge n x s
  | .capturingRead w a rs => Sys2Proof.Machine.execCapturingRead w a rs s
  | .portTimeout core isPure => Sys2Proof.Machine.execPortTimeout core isPure s
  | .completionTimeout w a n => Sys2Proof.Machine.execCompletionTimeout w a n s
  | .configurationRequest fn => Sys2Proof.Machine.execConfigurationRequest fn s
  | .jtagRequest r => Sys2Proof.Machine.execJtagRequest r s
  | .stoTestPulseEnd pin high => Sys2Proof.Machine.execStoTestPulseEnd pin high s

end Sys2Proof.Machine
end

