-- ==== Sys2Proof/Safety.lean ====
section
/-! DEFINITION. The terms in which claims about runs are stated: what a command leads to, when a register write is taken,
what stays as it was, the invariants of a run. -/

namespace Sys2Proof.Machine

/-- The command answers a next state, and that state has a property. -/
def Leads (s : State) (c : Instr) (P : State → Prop) : Prop := ∃ t, exec c s = .next t ∧ P t

/-- The register space takes a requester's write of a word at an address: it is not in reset, the tile it belongs to is
there, the address is mapped, and neither the fixed rules nor the firewall refuse it (R6, R114, R694, R777, R794); a write
through BAR0 is one that BAR0 of its function holds (R518 to R520). -/
def State.takes (s : State) (w : Who) (a word : Nat) : Bool :=
  (!w.bar || (s.barUp w a && inBar0 w a)) && !s.boot.porst && !((tileOfReg a).any fun t => !s.tileOn t || !(s.unitSt t).powered) && (a % 4 == 0) && (regFind a).isSome &&
    !(s.sysrst && !keptReg a) && !s.regRuleRefuses a word w && s.fwAllows 0x4A a 4 w true

/-- The register space answers a requester's read of an address: as `takes`, of a read. -/
def State.gives (s : State) (w : Who) (a : Nat) : Bool :=
  (!w.bar || (s.barUp w a && inBar0 w a)) && !s.boot.porst && !((tileOfReg a).any fun t => !s.tileOn t || !(s.unitSt t).powered) && (a % 4 == 0) && (regFind a).isSome &&
    !(s.sysrst && !keptReg a) && s.fwAllows 0x4A a 4 w false

/-- No register field changed but the listed ones. -/
def RegsBut (fs : List Fld) (s t : State) : Prop := ∀ f : Fld, f.key ∉ fs.map Fld.key → t.rd f = s.rd f

/-- No byte of any memory changed, nor what is known of it. -/
def MemSame (s t : State) : Prop := ∀ a, t.getByte a = s.getByte a

/-- No ECC word of a span of a memory holds an error. -/
def State.clean (s : State) (code a n : Nat) : Prop := ∀ wa ∈ wordsOf (eccWord code) a n, tget 0 s.ecc wa = 0

/-- Commands that store nothing in any memory. -/
def Instr.storesNothing : Sys2Proof.Instr → Bool
  | .porstNRelease .. => true
  | .sysrstNAssert .. => true
  | .sysrstNRelease .. => true
  | .referenceAcceptance .. => true
  | .pllLockLimit .. => true
  | .dividerAlignment .. => true
  | .fuseReadout .. => true
  | .imageVerify .. => true
  | .islandFirmwareStart .. => true
  | .pcieLinkTraining .. => true
  | .bankSupplyLoss .. => true
  | .bankSupplyReturn .. => true
  | .grantWindowStart .. => true
  | .rowEligible .. => true
  | .grantDecision .. => true
  | .iterationComplete .. => true
  | .postAnswer .. => true
  | .tokenArrival .. => true
  | .creditArrival .. => true
  | .tokcntWrite .. => true
  | .poolCntWrite .. => true
  | .ctxStall .. => true
  | .seqErrRead .. => true
  | .sync .. => true
  | .memoryRead .. => true
  | .writeAcknowledgement .. => true
  | .zeroLengthReadComplete .. => true
  | .eccWriteBack .. => true
  | .scrubRead .. => true
  | .selQmax .. => true
  | .reedTest .. => true
  | .reedRdest .. => true
  | .reedFallbk .. => true
  | .tokPost .. => true
  | .portSquash .. => true
  | .eval .. => true
  | .seal .. => true
  | .swap .. => true
  | .free .. => true
  | .run .. => true
  | .setpointUpdate .. => true
  | .droneCaptureTick .. => true
  | .droneMeasurement .. => true
  | .droneMissTest .. => true
  | .holdMaxExpiry .. => true
  | .drnSnapRead .. => true
  | .latchBankRead .. => true
  | .reloadPoint .. => true
  | .dutyStage .. => true
  | .fastOvercurrentTrip .. => true
  | .activityFault .. => true
  | .densityBlockEnd .. => true
  | .encoderEdge .. => true
  | .encoderIndex .. => true
  | .catchTimeout .. => true
  | .probePulse .. => true
  | .subTimeout .. => true
  | .brakeDelayExpiry .. => true
  | .chopperMinInterval .. => true
  | .zeroCrossEdge .. => true
  | .pulseEnd .. => true
  | .conductionWindowEnd .. => true
  | .retrigger .. => true
  | .currentSignChange .. => true
  | .isgnBadFault .. => true
  | .startIdleEnd .. => true
  | .readResponse .. => true
  | .refreshComplete .. => true
  | .scanBlankEnd .. => true
  | .nop .. => true
  | .br .. => true
  | .loop .. => true
  | .wait .. => true
  | .waitEnd .. => true
  | .waitTimeout .. => true
  | .shin .. => true
  | .shout .. => true
  | .pushRx .. => true
  | .pushDrone .. => true
  | .pushPcnt .. => true
  | .pull .. => true
  | .fifoStallEnd .. => true
  | .xfer .. => true
  | .load .. => true
  | .pin .. => true
  | .tgt .. => true
  | .sigErr .. => true
  | .sigIrq .. => true
  | .sigToken .. => true
  | .sigHalt .. => true
  | .sigClrstale .. => true
  | .sigCrcrst .. => true
  | .fetchIllegal .. => true
  | .fetchParityError .. => true
  | .feRxRead .. => true
  | .fifeNowRead .. => true
  | .supplySettled .. => true
  | .tilePllLock .. => true
  | .relockSwitchBack .. => true
  | .tileLockTimeout .. => true
  | .bellowsVokFall .. => true
  | .pllLockLoss .. => true
  | .pcieReset .. => true
  | .flr .. => true
  | .d0Return .. => true
  | .descriptorFetch .. => true
  | .descriptorNop .. => true
  | .descriptorPost .. => true
  | .descriptorWait .. => true
  | .waitPoll .. => true
  | .descriptorWaitTimeout .. => true
  | .regrd .. => true
  | .tstamp .. => true
  | .cqTimerExpiry .. => true
  | .trainingTimeout .. => true
  | .replayTimeout .. => true
  | .linkLoss .. => true
  | .fwmsgRead .. => true
  | .remoteRequestTimeout .. => true
  | .timeExchangeTimer .. => true
  | .syncSend .. => true
  | .leaderBroadcast .. => true
  | .leaderTimeout .. => true
  | .keepalive .. => true
  | .tunnelRetransmit .. => true
  | .sweepS0 .. => true
  | .sweepSyncSend .. => true
  | .sweepAckSend .. => true
  | .sweepCut .. => true
  | .sweepAckMissing .. => true
  | .ethFrameTransmit .. => true
  | .gateEntryEnd .. => true
  | .adminListActivation .. => true
  | .canTransmitDone .. => true
  | .canFrameReceive .. => true
  | .canBusOff .. => true
  | .busOffRecovery .. => true
  | .csiBandComplete .. => true
  | .serialTransferDone .. => true
  | .serialRxRead .. => true
  | .xspiWdataRead .. => true
  | .generatorDrawDone .. => true
  | .stepClose .. => true
  | .lsTimeout .. => true
  | .faultAssertion .. => true
  | .watchdogExpiry .. => true
  | .clockMonitorWindow .. => true
  | .stoReadbackMismatch .. => true
  | .stoTestPulse .. => true
  | .safeInLow .. => true
  | .safetyFramePeriod .. => true
  | .safetyRxTimeout .. => true
  | .firewallParitySweep .. => true
  | .drainRetryWindowEnd .. => true
  | .drainComplete .. => true
  | .drainTimeout .. => true
  | .admittingEnd .. => true
  | .pwmCompareEdge .. => true
  | .capturingRead .. => true
  | .portTimeout .. => true
  | .completionTimeout .. => true
  | .configurationRequest .. => true
  | .jtagRequest .. => true
  | .stoTestPulseEnd .. => true
  | _ => false

/-- The numbers of copies of the blocks that State lists. -/
def State.copies (s : State) : List Nat :=
  [s.drones.length, s.reed.length, s.sds.length, s.axes.length, s.slots.length, s.sps.length, s.injs.length, s.caps.length, s.pcms.length, s.pcs.length, s.lls.length, s.fes.length, s.ports.length, s.qbv.length, s.csis.length, s.sers.length, s.scs.length, s.joinFp.length, s.tokWait.length, s.qstat.length, s.resv.length]

/-- The invariant of the model: memory in its canonical form, the register table in strictly rising order, every list of blocks with its number of copies. -/
def State.Inv (s : State) : Prop := Memory.wf s = true ∧ tsorted s.regs = true ∧ s.copies = State.reset.copies

/-- A tile's store answers its own engines: it holds no stored error and no unknown byte, no firewall stands before it, no injection is armed. -/
def State.storeOpen (s : State) (u : Nat) : Bool :=
  (s.ecc.all fun x => decide (x.1 < storeBase u) || decide (storeBase u + 0x200000 ≤ x.1)) && !s.unknown.contains u && !s.fwArmed.contains u && !s.on R.MEM_INJ_CTRL_ARM

/-- The parameter block a row of a tile works on: the one read at iteration 0, else the bytes in its store. -/
def State.blockOf (s : State) (u c : Nat) : List Byte :=
  if (s.ctx u c).param ≠ [] then (s.ctx u c).param else s.getBytes (storeBase u + bits (rowPayload (s.ctx u c).row) 6 15 * 64) 64

/-- The bytes of runs of a tile's store. -/
def State.rowsOfStore (s : State) (u : Nat) (l : List (Int × Nat)) : List (List Byte) := (natRuns l).map fun r => s.getBytes (storeBase u + r.1) r.2

/-- The block of a VEC row may run: it is valid for the operation, its operands lie in the store, rows of D do not overlap. -/
def vecRunnable (op : Nat) (l : List Byte) (it : Nat) : Bool :=
  let b := vecBlk l it
  vecValid op l && runsOk b.runsA && runsOk (b.runsB op) && runsOk (b.runsC op) && runsOk (b.runsD op) &&
    (decide (elemBytes b.fd (if vecReduces op then 1 else b.l) ≤ b.sd) || b.rows == 1)

/-- The results of a VEC row, by rows: element and flags. -/
def State.vecElems (s : State) (op u c it : Nat) : List (List (Nat × Nat)) :=
  let b := vecBlk (s.blockOf u c) it
  let draw := drawRound (s.ctx u c).seed (s.ctx u c).step 2 (s.logical u) b.stream it
  (List.range b.rows).map fun r =>
    if vecReduces op then [b.reduced op (s.rowsOfStore u b.runsA) draw r]
    else (List.range b.l).map fun l => b.elem op (s.rowsOfStore u b.runsA) (s.rowsOfStore u (b.runsB op)) (s.rowsOfStore u (b.runsC op)) draw r l

/-- The registers a row of a tile may change: its flags and their log. -/
def tileFlagFlds (u : Nat) : List Fld :=
  [R.TILE_FLAGS_INVALID u, R.TILE_FLAGS_DIVZERO u, R.TILE_FLAGS_OVERFLOW u, R.TILE_FLAGS_UNDERFLOW u, R.TILE_FLAGS_SAT_INT u, R.TILE_FLAG_LOG_CONTEXT u,
    R.TILE_FLAG_LOG_ROW u, R.TILE_FLAG_LOG_ENGINE u, R.TILE_FLAG_LOG_ITER u, R.TILE_FLAG_LOG_VALID u]

/-- What the stores of a row of D leave: each row holds its bytes, every other byte is as it was. -/
def RowsStored (s t : State) (u : Nat) (d : List (Nat × List Byte)) : Prop :=
  (∀ r ∈ d, ∀ j < r.2.length, t.getByte (storeBase u + r.1 + j) = r.2.getD j 0) ∧
    ∀ x, (∀ r ∈ d, x < storeBase u + r.1 ∨ storeBase u + r.1 + r.2.length ≤ x) → t.getByte x = s.getByte x

/-- A VEC iteration of an operation is done: its results in the store, its outcome and its flags reported, nothing else changed. -/
def VecDone (op : Nat) (s : State) (u c : Nat) (t : State) : Prop :=
  let it := s.rd (R.CTX_PC_ITER (win u) c)
  let b := vecBlk (s.blockOf u c) it
  let e := s.vecElems op u c it
  let nz := e.foldl (fun a r => r.foldl (fun a e => if nonZeroElem b.fd e.1 then a + 1 else a) a) 0
  let fl := e.foldl (fun a r => r.foldl (fun a e => a ||| e.2) a) 0
  t.ctx u c = { s.ctx u c with param := s.blockOf u c, result := some (.ok, if b.outEn ∧ max 1 b.thr ≤ nz then 1 else 0) } ∧
    RowsStored s t u (List.zipWith (fun r e => (r.1, b.packRow op (s.getByte (storeBase u + r.1)) (e.map fun q => q.1))) (natRuns (b.runsD op)) e) ∧
    t.tile u = { s.tile u with vecBusy := satAdd 64 (s.tile u).vecBusy (b.cycles op) } ∧ (∀ x, x ≠ u → t.tile x = s.tile x) ∧
    (fl = 0 → RegsBut [] s t) ∧ RegsBut (tileFlagFlds u) s t ∧
    t = { s with regs := t.regs, mem := t.mem, ecc := t.ecc, wb := t.wb, resv := t.resv, units := t.units, sigs := t.sigs, tiles := t.tiles, ctxs := t.ctxs }

/-- The block of an MMA row may run: it is valid, its operands lie in the store. -/
def mmaRunnable (l : List Byte) (it : Nat) : Bool :=
  let b := mmaBlk l it
  mmaValid l && runsOk b.runsA && runsOk b.runsB && runsOk b.runsC && runsOk b.runsD

/-- The results of an MMA row, by rows: element and flags. -/
def State.mmaCells (s : State) (u c it : Nat) : List (List (Nat × Nat)) :=
  let b := mmaBlk (s.blockOf u c) it
  let draw := drawRound (s.ctx u c).seed (s.ctx u c).step 1 (s.logical u) b.stream it
  (List.range b.m).map fun m => (List.range b.n).map fun n => b.cell (s.rowsOfStore u b.runsA) (s.rowsOfStore u b.runsB) (s.rowsOfStore u b.runsC) draw m n

/-- An MMA iteration is done: its results in the store, its flags reported, nothing else changed. -/
def MmaDone (s : State) (u c : Nat) (t : State) : Prop :=
  let it := s.rd (R.CTX_PC_ITER (win u) c)
  let b := mmaBlk (s.blockOf u c) it
  let e := s.mmaCells u c it
  let fl := e.foldl (fun a r => r.foldl (fun a e => a ||| e.2) a) 0
  t.ctx u c = { s.ctx u c with param := s.blockOf u c, result := some (.ok, 0) } ∧
    RowsStored s t u (List.zipWith (fun r e => (r.1, packElems b.fd (e.map fun q => q.1))) (natRuns b.runsD) e) ∧
    t.tile u = { s.tile u with macBusy := satAdd 64 (s.tile u).macBusy b.cycles } ∧ (∀ x, x ≠ u → t.tile x = s.tile x) ∧
    (fl = 0 → RegsBut [] s t) ∧ RegsBut (tileFlagFlds u) s t ∧
    t = { s with regs := t.regs, mem := t.mem, ecc := t.ecc, wb := t.wb, resv := t.resv, units := t.units, sigs := t.sigs, tiles := t.tiles, ctxs := t.ctxs }

/-- The registers a pass of a Selector may change. -/
def selFlds (u : Nat) : List Fld := [R.SEL_FLAGS_INVALID u, R.SEL_FLAGS_OVERFLOW u, R.SEL_FLAGS_NAN_SEEN u, R.SEL_PASSES_PASSES u]

/-- The selection of one pass over a block's source in the store. -/
def State.selOver (s : State) (u : Nat) (b : SelBlk) : Selection :=
  Selection.pass {} b u (s.getBytes (storeBase u + b.src.toNat) (b.count * (fmtBits b.fmt / 8))) b.count

/-- Of the axes only one changed, and beside the axes only registers. -/
def AxisOnly (n : Nat) (s t : State) : Prop := (∀ x, x ≠ n → t.axis x = s.axis x) ∧ t = { s with regs := t.regs, axes := t.axes }

/-- The same, by a register write that was answered OK. -/
def AxisWritten (n : Nat) (s t : State) : Prop :=
  (∀ x, x ≠ n → t.axis x = s.axis x) ∧ t.answer.st = .ok ∧ t = { s with regs := t.regs, axes := t.axes, answer := t.answer }

/-- An axis as entry to OFF or INVALID leaves it: gates off, GATE_EN and the holding brake low, no duty stage awaited. -/
def axisLeft (a : AxisSt) (now : Nat) : AxisSt :=
  let a1 : AxisSt := { a with since := now, probeOn := false }
  let a2 := if a1.pat = 0 then a1 else { a1 with pat := 0, ph := a1.ph.map fun g => g.take 0 (16 * now) a1.dt }
  let a3 := if a2.hbrk = false then a2 else { a2 with hbrk := false, hbrkOff := now }
  { a3 with gateEn := false, pwmOn := false, awaits := false, pubD := none, pubQ := none, upd := 0, iqPreset := none }

/-- An axis with a gate pattern begun at a time. -/
def AxisSt.patted (a : AxisSt) (p now : Nat) : AxisSt := if a.pat = p then a else { a with pat := p, ph := a.ph.map fun g => g.take p (16 * now) a.dt }

/-- What a write of AX_CTRL sets before its commands: the locked fields where they are open, BCH_EN, IRQ_EN. -/
def State.axCtrlFields (s : State) (n w : Nat) : State :=
  (if s.axOpen n then s.wrAll [(R.AX_CTRL_DUTY_SRC n, bits w 4 1), (R.AX_CTRL_HOIST n, bits w 5 1), (R.AX_CTRL_DOWN_NEG n, bits w 6 1), (R.AX_CTRL_HBRK_EN n, bits w 7 1)]
   else s).wrAll [(R.AX_CTRL_BCH_EN n, bits w 8 1), (R.AX_CTRL_IRQ_EN n, bits w 9 1)]

/-- The brake chopper of an axis alone may differ. -/
def AxisButChopper (a b : AxisSt) : Prop := b = { a with bch := b.bch, bchAt := b.bchAt }

/-- What the failure of the tile PLL leaves (R511). -/
def TileLockFailed (s t : State) : Prop :=
  let high := max s.vid (max (s.rd R.CLK_OP_OP_CUR) s.opChange.target)
  t.on R.CLK_STAT_LOCK_FAIL = true ∧ t.on R.CLK_STAT_TILE_LOCK = false ∧ t.on R.CLK_STAT_ON_SAFE = true ∧ t.on R.CLK_OP_BUSY = false ∧ t.rd R.CLK_OP_OP_CUR = 0 ∧
    t.rd R.CLK_CNT_LOCK_FAILS = satAdd 16 (s.rd R.CLK_CNT_LOCK_FAILS) 1 ∧ t.opChange = {} ∧ t.vid = high ∧ t.vidChanged = (s.vidChanged || high != s.vid) ∧
    RegsBut [R.CLK_STAT_LOCK_FAIL, R.CLK_STAT_TILE_LOCK, R.CLK_STAT_ON_SAFE, R.CLK_OP_BUSY, R.CLK_OP_OP_CUR, R.CLK_CNT_LOCK_FAILS] s t ∧
    t = { s with regs := t.regs, opChange := t.opChange, vid := t.vid, vidChanged := t.vidChanged, opSince := 0 }

/-- A loaded or verified copy failed with a cause: the backup is tried, then the host where the fuse allows it, else boot stops; a host image waits for another one. -/
def CopyFailed (s t : State) (cause : Nat) : Prop :=
  t.rd R.BOOT_STAT_CAUSE = cause % 16 ∧
    t.stage = (if s.boot.copy = 0 then 4 else if s.boot.copy = 1 ∧ s.on R.ID_FUSE_HOST_RECOVERY = false then 0xF else 8) ∧
    t.boot = (if s.boot.copy = 0 then { s.boot with copy := 1, header := [] }
      else if s.boot.copy = 1 then (if s.on R.ID_FUSE_HOST_RECOVERY then { s.boot with copy := 2, header := [], hostBoot := true, hostGo := false } else s.boot)
      else { s.boot with header := [], hostGo := false }) ∧ RegsBut [R.BOOT_STAT_CAUSE, R.BOOT_STAT_STAGE] s t ∧ t = { s with regs := t.regs, boot := t.boot }

/-- The record of a slot holds no stored error, no unknown byte, and no injection is armed. -/
def State.recOpen (s : State) (x : Nat) : Bool :=
  ((wordsOf (eccWord 0x64) (recBase x) 512).all fun wa => tget 0 s.ecc wa == 0) && !s.unknown.contains 0x64 && !s.fwArmed.contains 0x64 && !s.on R.MEM_INJ_CTRL_ARM

/-- A GO of a group starts the injector: it is of the group and has a wave of R300. -/
def State.injPicked (s : State) (g i : Nat) : Bool := s.rd (R.INJ_CFG_GROUP i) == g && decide (1 ≤ s.rd (R.INJ_CFG_WAVE i)) && decide (s.rd (R.INJ_CFG_WAVE i) ≤ 4)

/-- The registers that the commands of a group of injectors may change. -/
def injFlds (g : Nat) : List Fld :=
  [R.INJ_GRP_CTRL_SWEEP g] ++ (List.range 8).map R.INJ_GRP_CTRL_ACTIVE ++ (List.range 32).map R.INJ_STAT_ACTIVE ++ (List.range 32).map R.INJ_STAT_DONE ++
    (List.range 32).map R.INJ_STAT_ABORTED ++ (List.range 32).map R.INJ_STAT_K ++ (List.range 32).map R.INJ_OUT_OUT

/-- The fields of SP_CFG that a write sets: the locked ones while the channel is off, LOSS and SHIFT. -/
def State.spFields (s : State) (c w : Nat) : State :=
  (if !s.on (R.SP_CFG_ENABLE c) && s.unlocked then s.wrAll [(R.SP_CFG_KIND c, bits w 1 2), (R.SP_CFG_INDEX c, bits w 3 7), (R.SP_CFG_DELTA c, bits w 10 1)] else s).wrAll
    [(R.SP_CFG_LOSS c, bits w 11 1), (R.SP_CFG_SHIFT c, bits w 12 6)]

/-- The fields of CAP_CFG that a write sets while the stream is off. -/
def State.capFields (s : State) (c w : Nat) : State :=
  if !s.on (R.CAP_CFG_ENABLE c) && s.unlocked then s.wrAll [(R.CAP_CFG_SLOT c, bits w 1 7), (R.CAP_CFG_DRONE c, bits w 8 4), (R.CAP_CFG_WRAP c, bits w 12 1),
    (R.CAP_CFG_INJ_GROUP c, bits w 13 3), (R.CAP_CFG_DEC c, bits w 16 8)] else s

/-- Of the Drones only one changed, and beside them only registers. -/
def DroneOnly (d : Nat) (s t : State) : Prop := (∀ x, x ≠ d → t.drone x = s.drone x) ∧ t = { s with regs := t.regs, drones := t.drones }

/-- The same, by a register write that was answered OK. -/
def DroneWritten (d : Nat) (s t : State) : Prop :=
  (∀ x, x ≠ d → t.drone x = s.drone x) ∧ t.answer.st = .ok ∧ t = { s with regs := t.regs, drones := t.drones, answer := t.answer }

/-- The fields of DRN_CTRL that a write sets. -/
def State.drnFields (s : State) (d w : Nat) : State :=
  let s0 := s.wrAll [(R.DRN_CTRL_ENABLE d, bits w 0 1), (R.DRN_CTRL_NOTIFY_EN d, bits w 4 1), (R.DRN_CTRL_LOCK_CNT d, bits w 8 8)]
  if s.unlocked then s0.wr (R.DRN_CTRL_ALT_EN d) (bits w 3 1) else s0

/-- A Drone as the part takes its setup: on the primary source, with its counts begun anew (R45, R49). -/
def State.drnTaken (s : State) (d : Nat) : Drone :=
  { s.drone d with nExp := s.rd (R.DRN_EXP_N_EXP d), missMax := s.rd (R.DRN_EXP_MISS_MAX d), mod := s.rd (R.DRN_MOD_MOD d), scale := s.rd (R.DRN_SCALE_LO_SCALE_LO d) + s.rd (R.DRN_SCALE_HI_SCALE_HI d) * 2 ^ 32, bitsW := s.rd (R.DRN_SRC_BITS d), age := 0, capAge := 0, missAge := 0, first := true, lockRun := 0, outRun := 0, missRun := 0, gotMeas := true, ops := [] }

/-- Of a serial interface's state the FIFOs and the command became v, and its levels and BUSY show it. -/
def SerPut (i : Nat) (v : SerSt) (s t : State) : Prop :=
  t.ser i = v ∧ (∀ x, x ≠ i → t.ser x = s.ser x) ∧ t.rd (serTxLvl i) = v.tx.length % 32 ∧ t.rd (serRxLvl i) = v.rx.length % 32 ∧
    t.on (serBusy i) = (if i < 6 ∨ (10 ≤ i ∧ i < 14) then s.on (serEn i) && v.tx != [] else v.cmd.isSome)

/-- Of the gate control lists only one port's changed, and its entry shows in QBV_STAT. -/
def GatesPut (p : Nat) (q : QbvSt) (s t : State) : Prop :=
  t.qbvOf p = q ∧ t.rd (R.QBV_STAT_ENTRY p) = q.idx % 256 ∧ (∀ x, x ≠ p → t.qbvOf x = s.qbvOf x)

/-- The ring that an Ethernet frame goes to, and its FILTER (rules 4 and 5 of R607). -/
def State.ethTarget (s : State) (p : Nat) (f : List Byte) : Nat × Nat :=
  match (List.range 16).find? fun k => s.efMatches p k f with
  | some k => (s.rd (R.EF_CTL_RING p k) % 8, k)
  | none => (bits (s.rd (R.ETH_PCPMAP_PCP_MAP p)) (3 * bits (ethTci f) 13 3) 3, 0xFF)

/-- A port's link is up at a speed. -/
def State.linkUp (s : State) (p speed : Nat) : State := s.wrAll [(R.ETH_STAT_LINK p, 1), (R.ETH_STAT_SPEED p, speed)]

/-- An Ethernet entry on its return: BUF, LEN, CTL, STATUS and TRUNC and class, TS, TCI, FILTER (R605). -/
def ethEntry (buf : List Byte) (len ctl status ts tci filter : Nat) : List Byte :=
  buf ++ leBytes 2 len ++ leBytes 1 ctl ++ leBytes 1 status ++ leBytes 6 ts ++ leBytes 2 tci ++ leBytes 1 filter ++ List.replicate 11 0

/-- The fields of CAN_CTRL that a write sets. -/
def State.canFields (s : State) (c w : Nat) : State :=
  let s0 := s.wrAll [(R.CAN_CTRL_EN c, bits w 0 1), (R.CAN_CTRL_FD c, bits w 1 1), (R.CAN_CTRL_AUTO_REC c, bits w 3 1)]
  if s.unlocked && !s.on (R.CAN_CTRL_EN c) then s0.wr (R.CAN_CTRL_SAFETY c) (bits w 2 1) else s0

/-- Register fields that every instruction of an engine may change. -/
def feFlds (e : Nat) : List Fld := [R.FE_PC_PC e, R.FE_STAMP_LO_STAMP e, R.FE_STAMP_HI_STAMP e, R.FE_STAT_STALL e, R.FE_STAT_INJ_PEND e]

/-- The engine with the pending injected word taken, where that is the word. -/
def State.feTaken (s : State) (e : Nat) (inj : Bool) : FeSt := if inj then { s.fe e with inj := none } else s.fe e

/-- An instruction completed: PC is at the target, or past the word unless it was injected; the next engine cycle begins at a time; STAMP took another under MARK. -/
def FeDone (e w : Nat) (inj : Bool) (pc : Option Nat) (next stamp : Nat) (x : FeSt) (s t : State) : Prop :=
  t.rd (R.FE_PC_PC e) = (match pc with | some a => a | none => if inj then s.rd (R.FE_PC_PC e) else (s.rd (R.FE_PC_PC e) + 1) % 32) ∧
    t.fe e = { x with nextAt := next % 2 ^ 48, stalled := none, hit := none } ∧ (∀ y, y ≠ e → t.fe y = s.fe y) ∧
    t.feStampVal e = (if feMark w then stamp % 2 ^ 48 else s.feStampVal e) ∧ t.rd (R.FE_STAT_STALL e) = 0

/-- An instruction completed in its engine cycle: PAUSE cycles more pass before the next, and STAMP is the cycle's start plus 2. -/
def FeCycle (e w : Nat) (inj : Bool) (pc : Option Nat) (x : FeSt) (s t : State) : Prop :=
  FeDone e w inj pc ((s.fe e).nextAt + (1 + fePause w) * (s.fe e).div) ((s.fe e).nextAt + 2) x s t ∧ t.rd (R.FE_STAT_INJ_PEND e) = (if inj then 0 else s.rd (R.FE_STAT_INJ_PEND e))

/-- An instruction stalls, of a kind: 1 WAIT, 2 PULL, 3 PUSH. -/
def FeStalls (e w kind : Nat) (inj : Bool) (x : FeSt) (s t : State) : Prop :=
  t.rd (R.FE_STAT_STALL e) = kind ∧ t.fe e = { x with stalled := some (w, inj), began := x.nextAt, hit := none, nextAt := (x.nextAt + x.div) % 2 ^ 48 } ∧
    (∀ y, y ≠ e → t.fe y = s.fe y) ∧ t.rd (R.FE_STAT_INJ_PEND e) = (if inj then 0 else s.rd (R.FE_STAT_INJ_PEND e))

/-- The n bits that a SHIN takes, by its source (R426). -/
def State.feShinVal (s : State) (e w : Nat) : Nat :=
  let n := bits w 18 5 + 1
  match bits w 24 3 with
  | 0 => s.feLevels e (bits w 13 5) n
  | 1 => s.rd (R.FE_K0_K0 e) % 2 ^ n
  | 2 => s.rd (R.FE_K1_K1 e) % 2 ^ n
  | 3 => 0
  | _ => s.rd (R.FE_EMT_EMT e) % 2 ^ n

/-- The source of an XFER whose engine cycle starts at t (R427). -/
def State.feXferSrc (s : State) (e w t : Nat) : Nat :=
  match bits w 19 4 with
  | 0 => s.feLevels e 0 32
  | 1 => s.rd (R.FE_K0_K0 e)
  | 2 => s.rd (R.FE_K1_K1 e)
  | 3 => s.rd (R.FE_CAP_CAP e)
  | 4 => s.rd (R.FE_EMT_EMT e)
  | 5 => s.rd (R.FE_PH_PH e)
  | 6 => s.rd (R.FE_STAMP_LO_STAMP e)
  | 7 => t % 2 ^ 32
  | 8 => (s.fe e).crc
  | _ => 0

/-- The fields of FE_CTRL that a write sets whatever the engine's state. -/
def State.feFields (s : State) (e w : Nat) : State :=
  let s0 := s.wrAll [(R.FE_CTRL_IRQ_EN e, bits w 3 1), (R.FE_CTRL_INJ_FORCE e, bits w 5 1)]
  if s.unlocked then s0.wr (R.FE_CTRL_SAFE_HALT e) (bits w 4 1) else s0

end Sys2Proof.Machine
end

