-- ==== Sys2Proof/Certificates/Slice0/Obligations.lean ====
section
/-! DEFINITION. The statements for the provers. In the statements of a family each clause is about one command: its conditions, then the next state
it leads to. `RegsBut fs s t`: no register field but those of fs differs; an equation `t = { s with f := t.f, … }`: no other part of the state differs. -/

open Sys2Proof Sys2Proof.Machine

/-- A step runs the command at the front of the queue. For every state and every command c at the front of its queue, step answers what exec of c answers on the state with the rest of the queue. -/
def Obligations.StepRunsFrontCommand : Prop :=
  ∀ (s : State) (c : Instr) (rest : List Instr), s.pending = c :: rest → step s = exec c { s with pending := rest }

/-- An empty queue leaves the part as it is (the model's choice, log 1). With no command waiting a step answers the state unchanged. That the part idles is the model's own choice (assumption log 1), not a rule of the spec. -/
def Obligations.IdleStep : Prop :=
  ∀ s : State, s.pending = [] → step s = .next s

/-- No command touches the queue of the commands that wait. Whatever command is run on whatever state, the next state has the queue that the state had. -/
def Obligations.QueueKept : Prop :=
  ∀ (c : Instr) (s t : State), exec c s = .next t → t.pending = s.pending

/-- Every command answers a next state in every state. For every command with every operand and every state, exec answers a next state: no command ends in a fault or a refusal. -/
def Obligations.NoCommandStops : Prop :=
  ∀ (c : Instr) (s : State), ∃ t, exec c s = .next t

/-- The invariant of the model holds at reset. At reset the memory is in its canonical form, the register table is in order, and every list of blocks has its number of copies. -/
def Obligations.InvariantAtReset : Prop :=
  State.reset.Inv

/-- Every step keeps the invariant of the model. From every state whose memory is in canonical form, whose register table is in strictly rising order and whose lists of blocks have the numbers of copies that the part has, a step that answers a next state answers one of which the same holds. -/
def Obligations.InvariantKept : Prop :=
  ∀ s t : State, s.Inv → step s = .next t → t.Inv

/-- A locked firewall target keeps its regions until PORST_N. Whatever command other than PORST_N_ASSERT is at the front of the queue, by whichever initiator it is sent, after the step every firewall target that was locked is still locked and each of its regions is as it was. -/
def Obligations.FirewallLockKept : Prop :=
  ∀ (s t : State) (c : Instr) (rest : List Instr), s.pending = c :: rest → c ≠ .porstNAssert → step s = .next t →
    ∀ x ∈ s.fwLocked, x ∈ t.fwLocked ∧ ∀ r, tget ({} : FwRegion) t.fw (fwKey x r) = tget {} s.fw (fwKey x r)

/-- A command that is not one of the storing ones leaves every byte of every memory. For the 164 commands that Instr.storesNothing names, with every operand and in every state, every byte of memory reads after the command as it read before. -/
def Obligations.NothingStored : Prop :=
  ∀ (c : Instr) (s t : State), Instr.storesNothing c = true → exec c s = .next t → MemSame s t

/-- A memory that holds no error gives back what was written. In a memory whose words of the span hold no stored error, with no error injection armed, a write of bytes that are known afterwards ends OK, a read of the same span after it ends OK with the bytes written, and every byte outside the span is as before. -/
def Obligations.MemoryReadAfterWrite : Prop :=
  ∀ (s : State) (code a : Nat) (data : List Byte) (w w' : Who), s.clean code a data.length → s.on R.MEM_INJ_CTRL_ARM = false → code ∉ s.unknown →
    ((s.writeMem code a data w).2 = .ok ∧ ((s.writeMem code a data w).1.readMem code a data.length w').2 = (.ok, data) ∧
      ∀ b, b < a ∨ a + data.length ≤ b → (s.writeMem code a data w).1.getByte b = s.getByte b)

/-- An iteration that its engine reports with another status than OK returns its credits, posts nothing and stops the context. For every sequencer context whose engine reported its iteration done with a status other than OK, ITERATION_COMPLETE answers a next state in which the messages sent are exactly those of the credit returns of what the iteration consumed (no post), and the context is in ERROR with code 0x07 ENGINE_FAULT. Cites R91. -/
def Obligations.EngineFaultKeepsCreditsAndPostsNothing : Prop :=
  ∀ (s : State) (u : Fin 128) (c : Fin 16) (st : Status) (oc : Nat), (s.ctx u c).exec = true → (s.ctx u c).result = some (st, oc) → st ≠ .ok →
    Leads s (.iterationComplete u c) fun t => t.msgs = (s.returnAll u c (rowClass (s.ctx u c).row) (s.ctx u c).consumed).msgs ∧ t.ctxState u c = 4 ∧ t.rd (R.CTX_STAT_CODE (win u) c) = 7

/-- How a token counter is updated in one cycle. A counter written w in a cycle with consumption c and arrivals p becomes min(65535, max(0, w - c + p)), with OVF set when the minimum takes effect and UNF set, the counter 0, when the maximum does; without a write a firing takes c from it and arrivals add p up to 65535, OVF set when more would stand; all this in every context state. Cites R95. -/
def Obligations.TokenCounterUpdate : Prop :=
  (∀ (s : State) (u x k word c p : Nat), ((s.writeTokCnt u x k word c p).rd (R.TOKCNT_COUNT (win u) x k) : Int) = min 65535 (max 0 ((bits word 0 16 : Int) - c + p)) ∧
      (65535 < (bits word 0 16 : Int) - c + p → (s.writeTokCnt u x k word c p).on (R.TOKCNT_OVF (win u) x k) = true) ∧
      ((bits word 0 16 : Int) - c + p < 0 → (s.writeTokCnt u x k word c p).on (R.TOKCNT_UNF (win u) x k) = true ∧ (s.writeTokCnt u x k word c p).rd (R.TOKCNT_COUNT (win u) x k) = 0)) ∧
    (∀ (s : State) (u x k p : Nat), (s.addTokens u x k p).rd (R.TOKCNT_COUNT (win u) x k) = min (s.rd (R.TOKCNT_COUNT (win u) x k) + p) 65535 ∧
      (65535 < s.rd (R.TOKCNT_COUNT (win u) x k) + p → (s.addTokens u x k p).on (R.TOKCNT_OVF (win u) x k) = true)) ∧
    (∀ (s : State) (u : Nat) (x k : Fin 16), s.rd (R.TOKCNT_COUNT (win u) x k) < 65536 → (s.fire u x).rd (R.TOKCNT_COUNT (win u) x k) =
      (s.consumes u x (s.ctxRow u x) (s.rd (R.CTX_PC_ITER (win u) x))).foldl (fun a y => if y.1 = k.val then a - y.2 else a) (s.rd (R.TOKCNT_COUNT (win u) x k)))

/-- How a credit pool is updated in one cycle. A pool that would become v, whether old - t + r or a firmware write in place of old, becomes v held between 0 and POOL_INIT; CREDIT_OVF is set where v exceeds POOL_INIT and CREDIT_UNF, with the pool 0, where v is below zero; POOL_CNT_WRITE takes and returns t and r on the written value, a credit message adds to the old one. Cites R98. -/
def Obligations.CreditPoolUpdate : Prop :=
  (∀ (s : State) (u p : Nat) (v : Int), s.rd (R.POOL_INIT_INIT (win u) p) < 65536 →
      ((s.setPool u p v).rd (R.POOL_CNT_COUNT (win u) p) : Int) = min (s.rd (R.POOL_INIT_INIT (win u) p) : Int) (max 0 v) ∧
      ((s.rd (R.POOL_INIT_INIT (win u) p) : Int) < v → (s.setPool u p v).on (R.SEQ_STAT_CREDIT_OVF (win u)) = true) ∧
      (v < 0 → (s.setPool u p v).on (R.SEQ_STAT_CREDIT_UNF (win u)) = true)) ∧
    (∀ (s : State) (u p n : Nat), s.addCredits u p n = s.setPool u p ((s.rd (R.POOL_CNT_COUNT (win u) p) : Int) + n)) ∧
    (∀ (s : State) (w : Who) (u : Fin 128) (b : Nat) (p : Fin 32) (v : BitVec 32) (t r : BitVec 16), windowOf u = some b → s.takes w (b + (0xA00 + 8 * p)) v.toNat = true →
      exec (.poolCntWrite w u p v t r) s = .next ((s.setPool u p ((bits v.toNat 0 16 : Int) - t.toNat + r.toNat)).answers .ok 0 [])) ∧
    (∀ (s : State) (u : Nat) (x : Fin 16) (k : Fin 32), s.rd (R.POOL_CNT_COUNT (win u) k) < 65536 → (s.fire u x).rd (R.POOL_CNT_COUNT (win u) k) =
      (rowCreds (s.ctxRow u x)).foldl (fun a y => if y.1 = k.val then a - y.2 else a) (s.rd (R.POOL_CNT_COUNT (win u) k)))

/-- What the commands of registers do: SETUP_LOCK, ISL_LOCK, REGISTER_WRITE, CAPTURING_READ. For each of the commands SETUP_LOCK, ISL_LOCK, REGISTER_WRITE, CAPTURING_READ: in every state and with all operands that meet the conditions of its clause, exec answers a next state, of which the clause gives the values that the rules of the command put there and which equals the state before in everything that the clause does not list. -/
def Obligations.RegistersComplete : Prop :=
  -- SETUP_LOCK (R782): setupLock
  (∀ (s : State) (w : Who), s.takes w 0x54 1 → 
    Leads s (.setupLock w) fun t => t.unlocked = false ∧ t.answer.st = .ok ∧ RegsBut [R.SETUP_LOCK_LOCK] s t ∧ t = { s with regs := t.regs, answer := t.answer }) ∧
  -- ISL_LOCK (R782): islLock
  (∀ (s : State) (w : Who), s.takes w 0x54 2 → w.ini = 0x24 → w.remote = false → 
    Leads s (.islLock w) fun t => t.islUnlocked = false ∧ t.answer.st = .ok ∧ RegsBut [R.SETUP_LOCK_ISL_LOCK] s t ∧ t = { s with regs := t.regs, answer := t.answer }) ∧
  -- REGISTER_WRITE (R776): registerWrite
  (∀ (s : State) (w : Who) (k : Fin 4) (v : BitVec 32) (rs : List Reply), s.takes w (0x70 + 4 * k) v.toNat → 
    Leads s (.registerWrite w (BitVec.ofNat 24 (0x70 + 4 * k)) v rs) fun t => t.rd (R.GLOBAL_IRQ_CORE_MASK k) = v.toNat % 2 ^ 19 ∧ t.answer.st = .ok ∧ RegsBut [R.GLOBAL_IRQ_CORE_MASK k] s t ∧ t = { s with regs := t.regs, answer := t.answer, replies := [] }) ∧
  -- CAPTURING_READ (R779): capturingRead
  (∀ (s : State) (w : Who) (rs : List Reply), s.gives w 0x5030 → 
    Leads s (.capturingRead w 0x5030 rs) fun t => t.answer.st = .ok ∧ t.answer.value = s.step % 2 ^ 32 ∧ t.rd R.RP_STEP_HI_STEP = s.step / 2 ^ 32 % 2 ^ 32 ∧ RegsBut [R.RP_STEP_HI_STEP] s t ∧ t = { s with regs := t.regs, answer := t.answer, replies := [] })

/-- What the commands of unit lifecycle do: DRAIN, DRAIN_RETRY_WINDOW_END, DRAIN_COMPLETE, DRAIN_TIMEOUT, BIST, BIST_COMPLETE, ADMIT, ADMITTING_END. For each of the commands DRAIN, DRAIN_RETRY_WINDOW_END, DRAIN_COMPLETE, DRAIN_TIMEOUT, BIST, BIST_COMPLETE, ADMIT, ADMITTING_END: in every state and with all operands that meet the conditions of its clause, exec answers a next state, of which the clause gives the values that the rules of the command put there and which equals the state before in everything that the clause does not list. -/
def Obligations.LifecycleCompletes : Prop :=
  -- DRAIN (R718): drain
  (∀ (s : State) (w : Who) (v : BitVec 32), s.takes w 0x6004 (bits v.toNat 0 8 + 256) → s.isUnit (v.toNat % 128) = true → v.toNat % 128 < 0x68 → (s.unitSt (v.toNat % 128)).state = 0 → 
    Leads s (.drain w v) fun t => t.unitSt (v.toNat % 128) = { s.unitSt (v.toNat % 128) with state := 1, cause := 1, retryOver := false, drainAt := s.sysTime, drainCyc := s.now } ∧
    (∀ x, x ≠ v.toNat % 128 → t.unitSt x = s.unitSt x) ∧ t.answer.st = .ok ∧ t = { s with units := t.units, reed := t.reed, answer := t.answer }) ∧
  -- DRAIN (R718): drain, port
  (∀ (s : State) (w : Who) (v : BitVec 32), s.takes w 0x6004 (bits v.toNat 0 8 + 256) → s.isUnit (v.toNat % 128) = true → 0x68 ≤ v.toNat % 128 → (s.unitSt (v.toNat % 128)).state = 0 → s.sweepMaster = false → s.sweepState ≠ 2 → 
    Leads s (.drain w v) fun t => t.unitSt (v.toNat % 128) = { s.unitSt (v.toNat % 128) with state := 1, cause := 1, retryOver := false, drainAt := s.sysTime, drainCyc := s.now } ∧
    (∀ x, x ≠ v.toNat % 128 → t.unitSt x = s.unitSt x) ∧ t.answer.st = .ok ∧ t = { s with units := t.units, answer := t.answer }) ∧
  -- DRAIN_RETRY_WINDOW_END (R719): drainRetryWindowEnd
  (∀ (s : State) (u : Fin 128), (s.unitSt u).state = 1 → 409 ≤ s.since (s.unitSt u).drainCyc → 
    Leads s (.drainRetryWindowEnd u) fun t => t.unitSt u = { s.unitSt u with retryOver := true } ∧ (∀ x, x ≠ u.val → t.unitSt x = s.unitSt x) ∧ t = { s with units := t.units }) ∧
  -- DRAIN_COMPLETE (R718): drainComplete
  (∀ (s : State) (u : Fin 128), (s.unitSt u).state = 1 → s.ledgerEmpty u = true → 
    Leads s (.drainComplete u) fun t => t.unitSt u = { s.unitSt u with state := 2 } ∧ ((seqOfUnit u = none ∧ portOfUnit u = none) → t = { s with units := t.units })) ∧
  -- DRAIN_TIMEOUT (R722): drainTimeout
  (∀ (s : State) (u : Fin 128), (s.unitSt u).state = 1 → s.tDrain ≤ tsub s.sysTime (s.unitSt u).drainAt → 
    Leads s (.drainTimeout u) fun t => (t.unitSt u).state = 2 ∧ ((seqOfUnit u = none ∧ portOfUnit u = none) →
    t.unitSt u = { s.unitSt u with state := 2 } ∧ t.outst = s.outst.map (fun o => if o.unit == u.val then { o with orphan := true } else o) ∧ t = { s with units := t.units, outst := t.outst })) ∧
  -- BIST (R725): bist
  (∀ (s : State) (w : Who) (v : BitVec 32), s.takes w 0x6004 (bits v.toNat 0 8 + 256 * 2) → s.isUnit (v.toNat % 128) = true → (s.unitSt (v.toNat % 128)).state = 2 → (s.unitSt (v.toNat % 128)).powered = true → (s.unitSt (v.toNat % 128)).zeroing = false → (s.unitSt (v.toNat % 128)).bistRun = false → 
    Leads s (.bist w v) fun t => t.unitSt (v.toNat % 128) = { s.unitSt (v.toNat % 128) with bistRun := true, bistPass := false, bistFail := false, zeroed := false, dirty := false } ∧
    (∀ x, x ≠ v.toNat % 128 → t.unitSt x = s.unitSt x) ∧ t.answer.st = .ok ∧ t = { s with units := t.units, answer := t.answer }) ∧
  -- BIST_COMPLETE (R725): bistComplete
  (∀ (s : State) (u : Fin 128) (ok : Bool), (s.unitSt u).bistRun = true → 
    Leads s (.bistComplete u ok) fun t => (t.unitSt u).bistRun = false ∧ (t.unitSt u).bistPass = ok ∧ (t.unitSt u).bistFail = !ok ∧ (t.unitSt u).dirty = false ∧
    (t.unitSt u).zeroed = (ok && (portOfUnit u).isSome) ∧ t.reports = s.reports ++ (if ok then [] else [(0x0C, u.val)])) ∧
  -- ADMIT (R729): admitUnit
  (∀ (s : State) (w : Who) (v : BitVec 32), s.takes w 0x6004 (bits v.toNat 0 8 + 256 * 3) → s.isUnit (v.toNat % 128) = true → (s.unitSt (v.toNat % 128)).state = 2 → (s.unitSt (v.toNat % 128)).bistPass = true → (s.unitSt (v.toNat % 128)).zeroed = true → (s.unitSt (v.toNat % 128)).dirty = false → s.orphans (v.toNat % 128) = 0 → (s.unitSt (v.toNat % 128)).powered = true → s.on R.UL_CTRL_GROUP_ADMIT = false → 
    Leads s (.admitUnit w v) fun t => t.unitSt (v.toNat % 128) = { s.unitSt (v.toNat % 128) with state := 3, epoch := ((s.unitSt (v.toNat % 128)).epoch + 1) % 256, drainCyc := s.now } ∧
    (∀ q, seqOfUnit (v.toNat % 128) = some q → ∀ p : Fin 32, t.rd (R.POOL_CNT_COUNT (win q) p) = s.rd (R.POOL_INIT_INIT (win q) p) % 2 ^ 16) ∧
    t.answer.st = .ok ∧ t = { s with units := t.units, regs := t.regs, answer := t.answer }) ∧
  -- ADMITTING_END (R729): admittingEnd
  (∀ (s : State) (u : Fin 128), (s.unitSt u).state = 3 → 6 ≤ s.since (s.unitSt u).drainCyc → 
    Leads s (.admittingEnd u) fun t => t.unitSt u = { s.unitSt u with state := 0 } ∧ (∀ x, x ≠ u.val → t.unitSt x = s.unitSt x) ∧ t = { s with units := t.units })

/-- What 12 commands of memory, copies and atomics do, from MEMORY_READ to FILL. For each of the commands MEMORY_READ, MEMORY_WRITE, WRITE_ACKNOWLEDGEMENT, ZERO_LENGTH_READ_COMPLETE, ECC_WRITE_BACK, SCRUB_READ, AMO, MEM_ZERO_GO, ZEROING_DONE, MEM_CNT_CLR, COPY, FILL: in every state and with all operands that meet the conditions of its clause, exec answers a next state, of which the clause gives the values that the rules of the command put there and which equals the state before in everything that the clause does not list. -/
def Obligations.MemoryCompletes : Prop :=
  -- MEMORY_READ (R114): memoryRead
  (∀ (s s1 : State) (w : Who) (unit : Fin 256) (ep : Option (Fin 256)) (ga : BitVec 64) (n code p : Nat) (rs : List Reply), s1 = { s with replies := rs } → w.bar = false → (0 < n ∧ n ≤ 64) → s.gaHere ga.toNat = true → gaHost ga.toNat = false → s1.memAdmit w (s1.stampAs ep (gaLocal ga.toNat)) (gaLocal ga.toNat) n false = (s1, .ok, code, p) → (¬ (code = 0x64 ∧ 0x12000 ≤ p - 0x4000000 ∧ p - 0x4000000 < 0x20000)) → (∀ wa ∈ wordsOf (eccWord code) p n, tget 0 s.ecc wa = 0) → s.spanUnknown code p n = false → 
    Leads s (.memoryRead w unit ep ga n rs) fun t => t.answer.st = .ok ∧ t.answer.data = s.getBytes p n ∧ t.answer.value = leNat (s.getBytes p n) ∧ t = { s with answer := t.answer, replies := [] }) ∧
  -- MEMORY_WRITE (R137): memoryWrite
  (∀ (s : State) (w : Who) (unit : Fin 256) (ep : Option (Fin 256)) (ga : BitVec 64) (data : List Byte) (code p : Nat), w.bar = false → (0 < data.length ∧ data.length ≤ 64) → s.gaHere ga.toNat = true → gaHost ga.toNat = false → s.memAdmit w (s.stampAs ep (gaLocal ga.toNat)) (gaLocal ga.toNat) data.length true = (s, .ok, code, p) → (∀ wa ∈ wordsOf (eccWord code) p data.length, tget 0 s.ecc wa = 0) → s.on R.MEM_INJ_CTRL_ARM = false → 
    Leads s (.memoryWrite w unit ep ga data) fun t => (∀ b, t.getByte b = if p ≤ b ∧ b < p + data.length then data.getD (b - p) 0 else s.getByte b) ∧
    t.acks = s.acks ++ [((w.ini : Nat), .ok)] ∧ t.resv = s.resv.map (fun g => if g = p / 64 + 1 then 0 else g) ∧
    t = { s with mem := t.mem, ecc := t.ecc, wb := t.wb, resv := t.resv, units := t.units, acks := t.acks }) ∧
  -- WRITE_ACKNOWLEDGEMENT (R128): writeAcknowledgement
  (∀ (s : State) (ini : Fin 64) (st : Status) (l : List (Nat × Status)), s.acks = (ini.val, st) :: l → s.tokWait = [none, none, none, none] → 
    Leads s (.writeAcknowledgement ini) fun t => t.acks = l ∧ t.answer.st = st ∧ t = { s with acks := t.acks, answer := t.answer }) ∧
  -- ZERO_LENGTH_READ_COMPLETE (R131): zeroLengthReadComplete
  (∀ (s : State) (fn : Fin 32), 
    Leads s (.zeroLengthReadComplete fn) fun t => t.zlr = s.zlr.filter (fun p => p.1 != fn.val) ∧ t.msgs = s.msgs ++ (s.zlr.filter fun p => p.1 == fn.val).map (fun p => p.2) ∧
    t = { s with zlr := t.zlr, msgs := t.msgs, sqs := t.sqs }) ∧
  -- ECC_WRITE_BACK (R135): eccWriteBack
  (∀ (s : State) (wa : BitVec 48), wa.toNat ∈ s.wb → tget 0 s.ecc wa.toNat = 1 → 
    Leads s (.eccWriteBack wa) fun t => tget 0 t.ecc wa.toNat = 0 ∧ t.wb = s.wb.filter (· != wa.toNat) ∧ (∀ x, x ≠ wa.toNat → tget 0 t.ecc x = tget 0 s.ecc x) ∧ t = { s with ecc := t.ecc, wb := t.wb }) ∧
  -- SCRUB_READ (R138): scrubRead
  (∀ (s : State) (skip : List (Fin 128)), s.on R.MEM_SCRUB_EN = true → s.rd R.MEM_SCRUB_INTERVAL ≠ 0 → s.ecc = [] → 
    Leads s (.scrubRead skip) fun t => (∀ code < 0x65, tget 0 t.scrub code = (tget 0 s.scrub code + 1) % ((memRange code).2 / 64)) ∧ t = { s with scrub := t.scrub }) ∧
  -- AMO (R133): amo
  (∀ (s : State) (core : Fin 4) (op : AmoOp) (ga : BitVec 64) (wide : Bool) (v : BitVec 64) (code p n : Nat), (n = if wide then 8 else 4) → (op ≠ .lr ∧ op ≠ .sc) → (0x40 ≤ code ∧ code < 0x60) → s.gaHere ga.toNat = true → gaHost ga.toNat = false → gaLocal ga.toNat % n = 0 → s.memAdmit { ini := Fin.ofNat 64 (0x20 + core), cls := 1, remote := false } (s.stamp (gaLocal ga.toNat)) (gaLocal ga.toNat) n false = (s, .ok, code, p) → s.memAdmit { ini := Fin.ofNat 64 (0x20 + core), cls := 1, remote := false } (s.stamp (gaLocal ga.toNat)) (gaLocal ga.toNat) n true = (s, .ok, code, p) → (∀ wa ∈ wordsOf 8 p n, tget 0 s.ecc wa = 0) → s.spanUnknown code p n = false → s.on R.MEM_INJ_CTRL_ARM = false → 
    Leads s (.amo core op ga wide v) fun t => t.answer.st = .ok ∧ t.answer.value = leNat (s.getBytes p n) ∧
    (∀ b, t.getByte b = if p ≤ b ∧ b < p + n then (leBytes n (amoValue op n (leNat (s.getBytes p n)) (v.toNat % 2 ^ (8 * n)))).getD (b - p) 0 else s.getByte b) ∧
    t = { s with mem := t.mem, ecc := t.ecc, wb := t.wb, resv := t.resv, units := t.units, answer := t.answer }) ∧
  -- AMO (R133): amo, lr
  (∀ (s : State) (core : Fin 4) (ga : BitVec 64) (wide : Bool) (v : BitVec 64) (code p n : Nat), (n = if wide then 8 else 4) → (0x40 ≤ code ∧ code < 0x60) → s.gaHere ga.toNat = true → gaHost ga.toNat = false → gaLocal ga.toNat % n = 0 → s.memAdmit { ini := Fin.ofNat 64 (0x20 + core), cls := 1, remote := false } (s.stamp (gaLocal ga.toNat)) (gaLocal ga.toNat) n false = (s, .ok, code, p) → (∀ wa ∈ wordsOf 8 p n, tget 0 s.ecc wa = 0) → s.spanUnknown code p n = false → 
    Leads s (.amo core .lr ga wide v) fun t => t.answer.st = .ok ∧ t.answer.value = leNat (s.getBytes p n) ∧ t = { s with resv := s.resv.set core (p / 64 + 1), answer := t.answer }) ∧
  -- AMO (R133): amo, sc
  (∀ (s : State) (core : Fin 4) (ga : BitVec 64) (wide : Bool) (v : BitVec 64) (code p n : Nat), (n = if wide then 8 else 4) → (0x40 ≤ code ∧ code < 0x60) → s.gaHere ga.toNat = true → gaHost ga.toNat = false → gaLocal ga.toNat % n = 0 → s.memAdmit { ini := Fin.ofNat 64 (0x20 + core), cls := 1, remote := false } (s.stamp (gaLocal ga.toNat)) (gaLocal ga.toNat) n true = (s, .ok, code, p) → s.resv.getD core 0 ≠ p / 64 + 1 → 
    Leads s (.amo core .sc ga wide v) fun t => t.answer.st = .ok ∧ t.answer.value = 1 ∧ t = { s with resv := s.resv.set core 0, answer := t.answer }) ∧
  -- MEM_ZERO_GO (R140): memZeroGo
  (∀ (s : State) (w : Who) (v : BitVec 32), s.takes w 0x4050 (v ||| 0x100).toNat → s.zeroing = 0 → s.zeroAllowed (bits v.toNat 0 8) = true → 
    Leads s (.memZeroGo w v) fun t => t.on R.MEM_ZERO_BUSY ∧ t.rd R.MEM_ZERO_UNIT = bits v.toNat 0 8 ∧ t.zeroing = bits v.toNat 0 8 + 1 ∧ t.answer.st = .ok ∧
    RegsBut [R.MEM_ZERO_UNIT, R.MEM_ZERO_IRQ_EN, R.MEM_ZERO_DONE, R.MEM_ZERO_REJ, R.MEM_ZERO_BUSY] s t ∧ t = { s with regs := t.regs, zeroing := t.zeroing, units := t.units, answer := t.answer }) ∧
  -- ZEROING_DONE (R140): zeroingDone
  (∀ (s : State) (code : Nat), s.zeroing = code + 1 → code < 0x65 → 
    Leads s .zeroingDone fun t => t.zeroing = 0 ∧ t.on R.MEM_ZERO_BUSY = false ∧ t.on R.MEM_ZERO_DONE ∧ (code ≠ 0x64 → (t.unitSt code).zeroed ∧ (t.unitSt code).zeroing = false ∧ (t.unitSt code).dirty = false) ∧
    (∀ b, memCode b = code → t.getByte b = 0) ∧ (∀ b, memCode b ≠ code → memCode b ≠ 0x66 → t.getByte b = s.getByte b) ∧ RegsBut [R.MEM_ZERO_BUSY, R.MEM_ZERO_DONE] s t) ∧
  -- MEM_CNT_CLR (R149): memCntClr
  (∀ (s : State) (w : Who) (v : BitVec 32), s.takes w 0x4030 (v ||| 1).toNat → 
    Leads s (.memCntClr w v) fun t => t.rd R.MEM_CNT1_CE_CNT = 0 ∧ t.rd R.MEM_CNT1_UE_CNT = 0 ∧ t.rd R.MEM_CNT2_POISON_CNT = 0 ∧ t.rd R.MEM_CNT2_MAP_CNT = 0 ∧ t.answer.st = .ok ∧
    RegsBut [R.MEM_CNT1_CE_CNT, R.MEM_CNT1_UE_CNT, R.MEM_CNT2_POISON_CNT, R.MEM_CNT2_MAP_CNT] s t ∧ t = { s with regs := t.regs, answer := t.answer }) ∧
  -- COPY (R123): copy
  (∀ (s s1 : State) (u : Fin 128) (c : Fin 16) (rs : List Reply) (w : Who) (l : List Byte) (sga dga code p code' p' : Nat), s1 = { s with replies := rs } → s.copyRuns 1 u c = true → w = s.rowWho u c (rowClass (s.ctx u c).row) → s1.copyParam u c w = (s1, .ok, l) → ((copyBlk l).lines = 1 ∧ (copyBlk l).len ≤ 64) → sga = gaAdd (s.copyGa (copyBlk l).src (copyBlk l).srcHere) (s.rd (R.CTX_PC_ITER (win u) c) * (copyBlk l).srcIter) → dga = gaAdd (s.copyGa (copyBlk l).dst (copyBlk l).dstHere) (s.rd (R.CTX_PC_ITER (win u) c) * (copyBlk l).dstIter) → (gaLocal sga % 64 + (copyBlk l).len ≤ 64 ∧ gaLocal dga % 64 + (copyBlk l).len ≤ 64) → (s.gaHere sga = true ∧ gaHost sga = false ∧ s.gaHere dga = true ∧ gaHost dga = false) → s1.memAdmit w (s1.stamp (gaLocal sga)) (gaLocal sga) (copyBlk l).len false = (s1, .ok, code, p) → s1.memAdmit w (s1.stamp (gaLocal dga)) (gaLocal dga) (copyBlk l).len true = (s1, .ok, code', p') → (¬ (code = 0x64 ∧ 0x12000 ≤ p - 0x4000000 ∧ p - 0x4000000 < 0x20000)) → (∀ wa ∈ wordsOf (eccWord code) p (copyBlk l).len, tget 0 s.ecc wa = 0) → (∀ wa ∈ wordsOf (eccWord code') p' (copyBlk l).len, tget 0 s.ecc wa = 0) → s.spanUnknown code p (copyBlk l).len = false → s.on R.MEM_INJ_CTRL_ARM = false → 
    Leads s (.copy u c rs) fun t => (t.ctx u c).result = some (.ok, 0) ∧ (∀ b, t.getByte b = if p' ≤ b ∧ b < p' + (copyBlk l).len then s.getByte (p + (b - p')) else s.getByte b) ∧
    t = { s with mem := t.mem, ecc := t.ecc, wb := t.wb, resv := t.resv, units := t.units, ctxs := t.ctxs, freeCtr := s.freeCtr + 1, replies := [] }) ∧
  -- FILL (R122): fill
  (∀ (s s1 : State) (u : Fin 128) (c : Fin 16) (rs : List Reply) (w : Who) (l : List Byte) (dga code' p' : Nat), s1 = { s with replies := rs } → s.copyRuns 2 u c = true → w = s.rowWho u c (rowClass (s.ctx u c).row) → s1.copyParam u c w = (s1, .ok, l) → ((copyBlk l).lines = 1 ∧ (copyBlk l).len ≤ 64) → dga = gaAdd (s.copyGa (copyBlk l).dst (copyBlk l).dstHere) (s.rd (R.CTX_PC_ITER (win u) c) * (copyBlk l).dstIter) → gaLocal dga % 64 + (copyBlk l).len ≤ 64 → (s.gaHere dga = true ∧ gaHost dga = false) → s1.memAdmit w (s1.stamp (gaLocal dga)) (gaLocal dga) (copyBlk l).len true = (s1, .ok, code', p') → (∀ wa ∈ wordsOf (eccWord code') p' (copyBlk l).len, tget 0 s.ecc wa = 0) → s.on R.MEM_INJ_CTRL_ARM = false → 
    Leads s (.fill u c rs) fun t => (t.ctx u c).result = some (.ok, 0) ∧
    (∀ b, t.getByte b = if p' ≤ b ∧ b < p' + (copyBlk l).len then (copyBlk l).pattern.getD ((gaLocal dga + (b - p')) % 8) 0 else s.getByte b) ∧
    t = { s with mem := t.mem, ecc := t.ecc, wb := t.wb, resv := t.resv, units := t.units, ctxs := t.ctxs, replies := [] })

/-- What the commands of sequencers and token sinks do: CTX_START, CTX_STEP, CTX_HALT, CTX_CLEAR, CTX_PC_WRITE, ROW_COMMIT, CTX_STALL, SEQ_ERR_READ. For each of the commands CTX_START, CTX_STEP, CTX_HALT, CTX_CLEAR, CTX_PC_WRITE, ROW_COMMIT, CTX_STALL, SEQ_ERR_READ: in every state and with all operands that meet the conditions of its clause, exec answers a next state, of which the clause gives the values that the rules of the command put there and which equals the state before in everything that the clause does not list. -/
def Obligations.SequencerContexts : Prop :=
  -- CTX_START (R77): ctxStart
  (∀ (s : State) (w : Who) (u : Fin 128) (b : Nat) (c : Fin 16) (v : BitVec 32), windowOf u = some b → isSeq u = true → s.takes w (b + (0x100 + 0x10 * c)) (v ||| 1).toNat → bits v.toNat 1 3 = 0 → (s.ctxState u c = 0 ∨ s.ctxState u c = 3) → s.rd (R.SEQ_CTRL_ABI b) = 2 → 
    Leads s (.ctxStart w u c v) fun t => t.ctxState u c = 1 ∧ t.rd (R.CTX_STAT_CAUSE b c) = 0 ∧
    t.ctx u c = { s.ctx u c with passing := (s.ctx u c).brkPass, brkPass := false, pendStep := false, pendHalt := false, exec := false, result := none, arrived := s.now, asked := false, granted := false } ∧
    t.answer.st = .ok ∧ RegsBut [R.CTX_CTRL_CEILING b c, R.CTX_STAT_STATE b c, R.CTX_STAT_CAUSE b c] s t ∧ t = { s with regs := t.regs, ctxs := t.ctxs, answer := t.answer }) ∧
  -- CTX_STEP (R77): ctxStep
  (∀ (s : State) (w : Who) (u : Fin 128) (b : Nat) (c : Fin 16) (v : BitVec 32), windowOf u = some b → isSeq u = true → s.takes w (b + (0x100 + 0x10 * c)) (v ||| 4).toNat → (bit v.toNat 1 = false ∧ bit v.toNat 3 = false) → (s.ctxState u c = 0 ∨ s.ctxState u c = 3) → s.rd (R.SEQ_CTRL_ABI b) = 2 → 
    Leads s (.ctxStep w u c v) fun t => t.ctxState u c = 1 ∧ t.rd (R.CTX_STAT_CAUSE b c) = 0 ∧ (t.ctx u c).pendStep = true ∧
    t.answer.st = .ok ∧ RegsBut [R.CTX_CTRL_CEILING b c, R.CTX_STAT_STATE b c, R.CTX_STAT_CAUSE b c] s t ∧ t = { s with regs := t.regs, ctxs := t.ctxs, answer := t.answer }) ∧
  -- CTX_HALT (R77): ctxHalt
  (∀ (s : State) (w : Who) (u : Fin 128) (b : Nat) (c : Fin 16) (v : BitVec 32), windowOf u = some b → isSeq u = true → s.takes w (b + (0x100 + 0x10 * c)) (v ||| 2).toNat → (bit v.toNat 0 = false ∧ bit v.toNat 2 = false ∧ bit v.toNat 3 = false) → (s.ctxState u c = 1 ∨ (s.ctxState u c = 2 ∧ (s.ctx u c).exec = false)) → 
    Leads s (.ctxHalt w u c v) fun t => t.ctxState u c = 3 ∧ t.rd (R.CTX_STAT_CAUSE b c) = 2 ∧ (t.ctx u c).exec = false ∧ (t.ctx u c).asked = false ∧
    t.answer.st = .ok ∧ RegsBut [R.CTX_CTRL_CEILING b c, R.CTX_STAT_STATE b c, R.CTX_STAT_CAUSE b c] s t ∧ t = { s with regs := t.regs, ctxs := t.ctxs, answer := t.answer }) ∧
  -- CTX_HALT (R77): ctxHalt, pending
  (∀ (s : State) (w : Who) (u : Fin 128) (b : Nat) (c : Fin 16) (v : BitVec 32), windowOf u = some b → isSeq u = true → s.takes w (b + (0x100 + 0x10 * c)) (v ||| 2).toNat → (bit v.toNat 0 = false ∧ bit v.toNat 2 = false ∧ bit v.toNat 3 = false) → s.ctxState u c = 2 → (s.ctx u c).exec = true → 
    Leads s (.ctxHalt w u c v) fun t => t.ctxState u c = 2 ∧ t.ctx u c = { s.ctx u c with pendHalt := true } ∧
    t.answer.st = .ok ∧ RegsBut [R.CTX_CTRL_CEILING b c] s t ∧ t = { s with regs := t.regs, ctxs := t.ctxs, answer := t.answer }) ∧
  -- CTX_CLEAR (R77): ctxClear
  (∀ (s : State) (w : Who) (u : Fin 128) (b : Nat) (c : Fin 16) (v : BitVec 32), windowOf u = some b → isSeq u = true → s.takes w (b + (0x100 + 0x10 * c)) (v ||| 8).toNat → bits v.toNat 0 3 = 0 → (s.ctxState u c = 3 ∨ s.ctxState u c = 4) → 
    Leads s (.ctxClear w u c v) fun t => t.ctxState u c = 0 ∧ t.rd (R.CTX_PC_ITER b c) = 0 ∧ t.rd (R.CTX_STAT_CODE b c) = 0 ∧ t.rd (R.CTX_STAT_CAUSE b c) = 0 ∧ t.ctx u c = {} ∧ t.answer.st = .ok ∧
    (∀ x, x ≠ u.val → t.tile x = s.tile x) ∧ t = { s with regs := t.regs, ctxs := t.ctxs, tiles := t.tiles, answer := t.answer }) ∧
  -- CTX_PC_WRITE (R825): ctxPcWrite
  (∀ (s : State) (w : Who) (u : Fin 128) (b : Nat) (c : Fin 16) (v : BitVec 32), windowOf u = some b → isSeq u = true → s.takes w (b + (0x104 + 0x10 * c)) v.toNat → (s.ctxState u c = 0 ∨ s.ctxState u c = 3) → 
    Leads s (.ctxPcWrite w u c v) fun t => t.rd (R.CTX_PC_PC b c) = v.toNat % 2 ^ 9 ∧ t.ctx u c = { s.ctx u c with brkPass := false } ∧ t.answer.st = .ok ∧
    RegsBut [R.CTX_PC_PC b c] s t ∧ t = { s with regs := t.regs, ctxs := t.ctxs, answer := t.answer }) ∧
  -- ROW_COMMIT (R103): rowCommit
  (∀ (s : State) (w : Who) (u : Fin 128) (b : Nat) (r : Fin 512) (v : BitVec 32), windowOf u = some b → isSeq u = true → r.val < rowsOf u → s.takes w (b + (0x2000 + 0x20 * r + 0x1C)) v.toNat → 
    Leads s (.rowCommit w u r v) fun t => t.rd (R.ROWS_WORD b r 7) = v.toNat ∧ (∀ k < 7, ∀ p, s.rowStage.find? (fun p => p.1 == b + 0x2000 + 32 * r + 4 * k) = some p → t.rd (R.ROWS_WORD b r k) = p.2 % 2 ^ 32) ∧
    t.answer.st = .ok ∧ RegsBut ((List.range 8).map (R.ROWS_WORD b r)) s t ∧ t = { s with regs := t.regs, rowStage := t.rowStage, answer := t.answer }) ∧
  -- CTX_STALL (R101): ctxStall
  (∀ (s : State) (u : Fin 128) (c : Fin 16), isSeq u = true → s.ctxState u c = 1 → s.rd (R.CTX_TIMEOUT_TIMEOUT (win u) c) ≠ 0 → 400 * s.rd (R.CTX_TIMEOUT_TIMEOUT (win u) c) ≤ s.since (s.ctx u c).arrived → 
    Leads s (.ctxStall u c) fun t => t.on (R.CTX_STAT_STALL (win u) c) ∧ t.ctxState u c = 1 ∧ RegsBut [R.CTX_STAT_STALL (win u) c] s t ∧ t = { s with regs := t.regs }) ∧
  -- SEQ_ERR_READ (R102): seqErrRead
  (∀ (s : State) (w : Who) (u : Fin 128) (b : Nat), windowOf u = some b → isSeq u = true → s.gives w (b + 8) → 
    Leads s (.seqErrRead w u) fun t => t.answer.st = .ok ∧ t.errHeld = s.errHeld.filter (· != u.val) ∧ t = { s with errHeld := t.errHeld, answer := t.answer })

/-- What the commands of sequencers and token sinks do: TOKEN_ARRIVAL, CREDIT_ARRIVAL, TOKCNT_WRITE, POOL_CNT_WRITE, TOKTAKE, POST_ANSWER. For each of the commands TOKEN_ARRIVAL, CREDIT_ARRIVAL, TOKCNT_WRITE, POOL_CNT_WRITE, TOKTAKE, POST_ANSWER: in every state and with all operands that meet the conditions of its clause, exec answers a next state, of which the clause gives the values that the rules of the command put there and which equals the state before in everything that the clause does not list. -/
def Obligations.SequencerTokens : Prop :=
  -- TOKEN_ARRIVAL (R95): tokenArrival
  (∀ (s : State) (ix m src : Nat), s.msgs[ix]? = some (m, src) → bit m 15 = false → bits m 0 15 = s.chip → State.msgGate { s with msgs := s.msgs.eraseIdx ix } m = ({ s with msgs := s.msgs.eraseIdx ix }, .ok) → 
    Leads s (.tokenArrival ix) fun t => t.rd (R.TOKCNT_COUNT (win (bits m 16 8)) (bits m 24 4) (bits m 28 4)) =
      min (s.rd (R.TOKCNT_COUNT (win (bits m 16 8)) (bits m 24 4) (bits m 28 4)) + bits m 32 8) 65535 ∧ t.msgs = s.msgs.eraseIdx ix ∧
    RegsBut [R.TOKCNT_COUNT (win (bits m 16 8)) (bits m 24 4) (bits m 28 4), R.TOKCNT_OVF (win (bits m 16 8)) (bits m 24 4) (bits m 28 4)] s t ∧ t = { s with regs := t.regs, msgs := t.msgs }) ∧
  -- CREDIT_ARRIVAL (R98): creditArrival
  (∀ (s : State) (ix m src : Nat), s.msgs[ix]? = some (m, src) → bit m 15 = true → bits m 0 15 = s.chip → State.msgGate { s with msgs := s.msgs.eraseIdx ix } m = ({ s with msgs := s.msgs.eraseIdx ix }, .ok) → s.rd (R.POOL_INIT_INIT (win (bits m 16 8)) (bits m 24 5)) < 65536 → 
    Leads s (.creditArrival ix) fun t => (t.rd (R.POOL_CNT_COUNT (win (bits m 16 8)) (bits m 24 5)) : Int) =
      clampI 0 (s.rd (R.POOL_INIT_INIT (win (bits m 16 8)) (bits m 24 5))) (s.rd (R.POOL_CNT_COUNT (win (bits m 16 8)) (bits m 24 5)) + bits m 32 8 : Nat) ∧ t.msgs = s.msgs.eraseIdx ix ∧
    RegsBut [R.SEQ_STAT_CREDIT_OVF (win (bits m 16 8)), R.SEQ_STAT_CREDIT_UNF (win (bits m 16 8)), R.POOL_CNT_COUNT (win (bits m 16 8)) (bits m 24 5)] s t ∧ t = { s with regs := t.regs, msgs := t.msgs }) ∧
  -- TOKCNT_WRITE (R95): tokcntWrite
  (∀ (s : State) (w : Who) (u : Fin 128) (b : Nat) (c k : Fin 16) (v : BitVec 32) (taken arrived : BitVec 16), windowOf u = some b → s.takes w (b + (0x200 + 0x40 * c + 4 * k)) v.toNat → 
    Leads s (.tokcntWrite w u c k v taken arrived) fun t => (t.rd (R.TOKCNT_COUNT b c k) : Int) = clampI 0 65535 ((bits v.toNat 0 16 : Int) - taken.toNat + arrived.toNat) ∧ t.answer.st = .ok ∧
    RegsBut [R.TOKCNT_COUNT b c k, R.TOKCNT_OVF b c k, R.TOKCNT_UNF b c k] s t ∧ t = { s with regs := t.regs, answer := t.answer }) ∧
  -- POOL_CNT_WRITE (R98): poolCntWrite
  (∀ (s : State) (w : Who) (u : Fin 128) (b : Nat) (p : Fin 32) (v : BitVec 32) (taken returned : BitVec 16), windowOf u = some b → s.takes w (b + (0xA00 + 8 * p)) v.toNat → s.rd (R.POOL_INIT_INIT b p) < 65536 → 
    Leads s (.poolCntWrite w u p v taken returned) fun t => (t.rd (R.POOL_CNT_COUNT b p) : Int) = clampI 0 (s.rd (R.POOL_INIT_INIT b p)) ((bits v.toNat 0 16 : Int) - taken.toNat + returned.toNat) ∧ t.answer.st = .ok ∧
    RegsBut [R.SEQ_STAT_CREDIT_OVF b, R.SEQ_STAT_CREDIT_UNF b, R.POOL_CNT_COUNT b p] s t ∧ t = { s with regs := t.regs, answer := t.answer }) ∧
  -- TOKTAKE (R97): toktake
  (∀ (s : State) (w : Who) (u : Fin 128) (b : Nat) (c k : Fin 16) (n : BitVec 16), windowOf u = some b → isSink u = true → s.takes w (b + (0x1000 + 0x40 * c + 4 * k)) n.toNat → s.on (R.TOKBIND_EN b c k) = false → s.rd (R.TOKCNT_COUNT b c k) < 65536 → 
    Leads s (.toktake w u c k n) fun t => t.rd (R.TOKCNT_COUNT b c k) = s.rd (R.TOKCNT_COUNT b c k) - n.toNat ∧ t.answer.st = .ok ∧ RegsBut [R.TOKCNT_COUNT b c k] s t ∧ t = { s with regs := t.regs, answer := t.answer }) ∧
  -- POST_ANSWER (R96): postAnswer
  (∀ (s : State) (ix k : Nat) (st : Status), s.postAns[ix]? = some (k, st) → (s.ctx (k / 16) (k % 16)).exec = false → (s.ctxState (k / 16) (k % 16) = 1 ∨ s.ctxState (k / 16) (k % 16) = 2) → 
    Leads s (.postAnswer ix) fun t => t.ctxState (k / 16) (k % 16) = 4 ∧ t.rd (R.CTX_STAT_CODE (win (k / 16)) (k % 16)) = 8 ∧ t.postAns = s.postAns.eraseIdx ix ∧ k / 16 ∈ t.errHeld ∧
    t = { s with regs := t.regs, ctxs := t.ctxs, errHeld := t.errHeld, postAns := t.postAns })

/-- What the commands of sequencers and token sinks do: ROW_ELIGIBLE, SYNC, ITERATION_COMPLETE, GRANT_DECISION. For each of the commands ROW_ELIGIBLE, SYNC, ITERATION_COMPLETE, GRANT_DECISION: in every state and with all operands that meet the conditions of its clause, exec answers a next state, of which the clause gives the values that the rules of the command put there and which equals the state before in everything that the clause does not list. -/
def Obligations.SequencerRows : Prop :=
  -- ROW_ELIGIBLE (R87): rowEligible
  (∀ (s : State) (u : Fin 128) (c : Fin 16), s.ctxState u c = 1 → s.rowCode u c (s.rd (R.CTX_PC_PC (win u) c)) (fun r => s.engineBad u r) = 0 → s.eligible u c = true → (rowCost (s.ctxRow u c) = 0 ∨ (s.ctx u c).granted = true) → (rowBrk (s.ctxRow u c) = false ∨ (s.ctx u c).passing = true) → rowEngine (s.ctxRow u c) ≠ 0xF → 
    Leads s (.rowEligible u c) fun t => t.ctxState u c = 2 ∧ (t.ctx u c).exec = true ∧ (t.ctx u c).row = s.ctxRow u c ∧
    (∀ k < 16, s.rd (R.TOKCNT_COUNT (win u) c k) < 65536 → t.rd (R.TOKCNT_COUNT (win u) c k) =
      (s.consumes u c (s.ctxRow u c) (s.rd (R.CTX_PC_ITER (win u) c))).foldl (fun a x => if x.1 = k then a - x.2 else a) (s.rd (R.TOKCNT_COUNT (win u) c k))) ∧
    (∀ k < 32, s.rd (R.POOL_CNT_COUNT (win u) k) < 65536 → t.rd (R.POOL_CNT_COUNT (win u) k) =
      (rowCreds (s.ctxRow u c)).foldl (fun a x => if x.1 = k then a - x.2 else a) (s.rd (R.POOL_CNT_COUNT (win u) k))) ∧
    t = { s with regs := t.regs, ctxs := t.ctxs }) ∧
  -- ROW_ELIGIBLE (R87): rowEligible, ask
  (∀ (s : State) (u : Fin 128) (c : Fin 16), s.ctxState u c = 1 → s.rowCode u c (s.rd (R.CTX_PC_PC (win u) c)) (fun r => s.engineBad u r) = 0 → s.eligible u c = true → (rowCost (s.ctxRow u c) ≠ 0 ∧ rowClass (s.ctxRow u c) ≠ 0) → (rowEngine (s.ctxRow u c) ≠ 5 ∧ rowEngine (s.ctxRow u c) ≠ 6) → (s.ctx u c).granted = false → 
    Leads s (.rowEligible u c) fun t => t.ctx u c = { s.ctx u c with asked := true } ∧ t = { s with ctxs := t.ctxs }) ∧
  -- ROW_ELIGIBLE (R87): rowEligible, break
  (∀ (s : State) (u : Fin 128) (c : Fin 16), s.ctxState u c = 1 → s.rowCode u c (s.rd (R.CTX_PC_PC (win u) c)) (fun r => s.engineBad u r) = 0 → s.eligible u c = true → (rowCost (s.ctxRow u c) = 0 ∨ (s.ctx u c).granted = true) → (rowBrk (s.ctxRow u c) = true ∧ (s.ctx u c).passing = false) → s.rd (R.CTX_PC_ITER (win u) c) = 0 → 
    Leads s (.rowEligible u c) fun t => t.ctxState u c = 3 ∧ t.rd (R.CTX_STAT_CAUSE (win u) c) = 3 ∧ (t.ctx u c).brkPass = true ∧
    RegsBut [R.CTX_STAT_STATE (win u) c, R.CTX_STAT_CAUSE (win u) c] s t ∧ t = { s with regs := t.regs, ctxs := t.ctxs }) ∧
  -- ROW_ELIGIBLE (R87): rowEligible, error
  (∀ (s : State) (u : Fin 128) (c : Fin 16) (e : Nat), s.ctxState u c = 1 → s.seqRuns u = true → s.rowCode u c (s.rd (R.CTX_PC_PC (win u) c)) (fun r => s.engineBad u r) = e → e ≠ 0 → 
    Leads s (.rowEligible u c) fun t => t.ctxState u c = 4 ∧ t.rd (R.CTX_STAT_CODE (win u) c) = e % 2 ^ 8 ∧ u.val ∈ t.errHeld ∧ t = { s with regs := t.regs, ctxs := t.ctxs, errHeld := t.errHeld }) ∧
  -- SYNC (R78): sync
  (∀ (s : State) (u : Fin 128) (c : Fin 16), s.ctxState u c = 1 → s.rowCode u c (s.rd (R.CTX_PC_PC (win u) c)) (fun r => s.engineBad u r) = 0 → s.eligible u c = true → rowEngine (s.ctxRow u c) = 0xF → rowCost (s.ctxRow u c) = 0 → rowBrk (s.ctxRow u c) = false → (rowEnd (s.ctxRow u c) = true ∧ rowRepeat (s.ctxRow u c) ≤ s.rd (R.CTX_PC_ITER (win u) c)) → ((rowPost (s.ctxRow u c) 0).1 = false ∧ (rowPost (s.ctxRow u c) 1).1 = false) → (∀ k < 16, s.on (R.TOKBIND_EN (win u) c k) = false) → 
    Leads s (.sync u c) fun t => t.ctxState u c = 3 ∧ t.rd (R.CTX_STAT_CAUSE (win u) c) = 1 ∧ t.rd (R.CTX_PC_ITER (win u) c) = 0 ∧ (t.ctx u c).exec = false ∧
    (∀ k < 16, s.rd (R.TOKCNT_COUNT (win u) c k) < 65536 → t.rd (R.TOKCNT_COUNT (win u) c k) =
      (s.consumes u c (s.ctxRow u c) (s.rd (R.CTX_PC_ITER (win u) c))).foldl (fun a x => if x.1 = k then a - x.2 else a) (s.rd (R.TOKCNT_COUNT (win u) c k))) ∧
    t = { s with regs := t.regs, ctxs := t.ctxs }) ∧
  -- ITERATION_COMPLETE (R90): iterationComplete, next
  (∀ (s : State) (u : Fin 128) (c : Fin 16) (oc : Nat), ((s.ctx u c).exec = true ∧ (s.ctx u c).result = some (.ok, oc)) → (∀ x ∈ (s.ctx u c).consumed, s.on (R.TOKBIND_EN (win u) c x.1) = false) → ((rowPost (s.ctx u c).row 0).1 = false ∧ (rowPost (s.ctx u c).row 1).1 = false) → s.rd (R.CTX_PC_ITER (win u) c) < rowRepeat (s.ctx u c).row → ((s.ctx u c).pendHalt = false ∧ (s.ctx u c).pendStep = false) → 
    Leads s (.iterationComplete u c) fun t => t.rd (R.CTX_PC_ITER (win u) c) = (s.rd (R.CTX_PC_ITER (win u) c) + 1) % 2 ^ 12 ∧
    t.ctx u c = { s.ctx u c with exec := false, result := none, consumed := [], arrived := s.now, asked := false, granted := false } ∧
    RegsBut [R.CTX_PC_ITER (win u) c] s t ∧ t = { s with regs := t.regs, ctxs := t.ctxs }) ∧
  -- ITERATION_COMPLETE (R90): iterationComplete
  (∀ (s : State) (u : Fin 128) (c : Fin 16) (oc : Nat), ((s.ctx u c).exec = true ∧ (s.ctx u c).result = some (.ok, oc)) → (∀ x ∈ (s.ctx u c).consumed, s.on (R.TOKBIND_EN (win u) c x.1) = false) → ((rowPost (s.ctx u c).row 0).1 = false ∧ (rowPost (s.ctx u c).row 1).1 = false) → rowRepeat (s.ctx u c).row ≤ s.rd (R.CTX_PC_ITER (win u) c) → ((s.ctx u c).pendHalt = false ∧ (s.ctx u c).pendStep = false) → rowEnd (s.ctx u c).row = false → 
    Leads s (.iterationComplete u c) fun t => t.rd (R.CTX_PC_ITER (win u) c) = 0 ∧ t.rd (R.CTX_PC_PC (win u) c) = (s.ctx u c).succ % 2 ^ 9 ∧ t.ctxState u c = 1 ∧
    t.ctx u c = { s.ctx u c with exec := false, result := none, consumed := [], arrived := s.now, asked := false, granted := false } ∧
    RegsBut [R.CTX_PC_ITER (win u) c, R.CTX_PC_PC (win u) c, R.CTX_STAT_STATE (win u) c] s t ∧ t = { s with regs := t.regs, ctxs := t.ctxs }) ∧
  -- ITERATION_COMPLETE (R90): iterationComplete, end
  (∀ (s : State) (u : Fin 128) (c : Fin 16) (oc : Nat), ((s.ctx u c).exec = true ∧ (s.ctx u c).result = some (.ok, oc)) → (∀ x ∈ (s.ctx u c).consumed, s.on (R.TOKBIND_EN (win u) c x.1) = false) → ((rowPost (s.ctx u c).row 0).1 = false ∧ (rowPost (s.ctx u c).row 1).1 = false) → rowRepeat (s.ctx u c).row ≤ s.rd (R.CTX_PC_ITER (win u) c) → rowEnd (s.ctx u c).row = true → 
    Leads s (.iterationComplete u c) fun t => t.rd (R.CTX_PC_ITER (win u) c) = 0 ∧ t.ctxState u c = 3 ∧ t.rd (R.CTX_STAT_CAUSE (win u) c) = 1 ∧ (t.ctx u c).exec = false ∧
    t = { s with regs := t.regs, ctxs := t.ctxs }) ∧
  -- ITERATION_COMPLETE (R90): iterationComplete, error
  (∀ (s : State) (u : Fin 128) (c : Fin 16) (st : Status) (oc : Nat), ((s.ctx u c).exec = true ∧ (s.ctx u c).result = some (st, oc)) → st ≠ .ok → (∀ x ∈ (s.ctx u c).consumed, s.on (R.TOKBIND_EN (win u) c x.1) = false) → 
    Leads s (.iterationComplete u c) fun t => t.ctxState u c = 4 ∧ t.rd (R.CTX_STAT_CODE (win u) c) = 7 ∧ u.val ∈ t.errHeld ∧ t = { s with regs := t.regs, ctxs := t.ctxs, errHeld := t.errHeld }) ∧
  -- GRANT_DECISION (R491): grantDecision
  (∀ (s s1 : State) (u : Fin 128) (c : Fin 16), s.ordered = [16 * u.val + c.val] → s.grants (rowClass (s.ctxRow u c)) (rowCost (s.ctxRow u c)) = true → s1 = (s.charge (rowClass (s.ctxRow u c)) (rowCost (s.ctxRow u c))).setCtx u c { s.ctx u c with asked := false, granted := true } → s1.eligible u c = true → (rowBrk (s1.ctxRow u c) = false ∨ (s.ctx u c).passing = true) → rowEngine (s1.ctxRow u c) ≠ 0xF → 
    Leads s .grantDecision fun t => t.ctxState u c = 2 ∧ (t.ctx u c).exec = true ∧ (t.ctx u c).row = s1.ctxRow u c ∧ t.used = s1.used ∧
    (∀ k < 16, s1.rd (R.TOKCNT_COUNT (win u) c k) < 65536 → t.rd (R.TOKCNT_COUNT (win u) c k) =
      (s1.consumes u c (s1.ctxRow u c) (s1.rd (R.CTX_PC_ITER (win u) c))).foldl (fun a x => if x.1 = k then a - x.2 else a) (s1.rd (R.TOKCNT_COUNT (win u) c k))) ∧
    t = { s with regs := t.regs, ctxs := t.ctxs, used := t.used }) ∧
  -- GRANT_DECISION (R491): grantDecision, late
  (∀ (s s1 : State) (u : Fin 128) (c : Fin 16), s.ordered = [16 * u.val + c.val] → s.grants (rowClass (s.ctxRow u c)) (rowCost (s.ctxRow u c)) = true → (rowClass (s.ctxRow u c) = 1 ∨ rowClass (s.ctxRow u c) = 2 ∨ rowClass (s.ctxRow u c) = 3) → rowCost (s.ctxRow u c) ≠ 0 → s1 = (s.charge (rowClass (s.ctxRow u c)) (rowCost (s.ctxRow u c))).setCtx u c { s.ctx u c with asked := false, granted := true } → s1.eligible u c = false → 
    Leads s .grantDecision fun t => t.rdS (balOf (rowClass (s.ctxRow u c))) = s.rdS (balOf (rowClass (s.ctxRow u c))) - (rowCost (s.ctxRow u c) : Int) ∧
    t.ctx u c = { s.ctx u c with asked := false, granted := true } ∧ RegsBut [balOf (rowClass (s.ctxRow u c))] s t ∧ t = { s with regs := t.regs, ctxs := t.ctxs, used := t.used }) ∧
  -- GRANT_DECISION (R491): grantDecision, refused
  (∀ (s : State) (u : Fin 128) (c : Fin 16), s.ordered = [16 * u.val + c.val] → s.grants (rowClass (s.ctxRow u c)) (rowCost (s.ctxRow u c)) = false → 
    Leads s .grantDecision fun t => t = s)

/-- What the commands of tensor tiles do: MMA, TILE_CNT_CLR. For each of the commands MMA, TILE_CNT_CLR: in every state and with all operands that meet the conditions of its clause, exec answers a next state, of which the clause gives the values that the rules of the command put there and which equals the state before in everything that the clause does not list. -/
def Obligations.TileMma : Prop :=
  -- MMA (R161): mma
  (∀ (s : State) (u : Fin 64) (c : Fin 16), s.tileRuns u c 1 1 = true → s.storeOpen u = true → mmaRunnable (s.blockOf u c) (s.rd (R.CTX_PC_ITER (win u) c)) = true → 
    Leads s (.mma u c) (MmaDone s u c)) ∧
  -- MMA (R161): mma, invalid
  (∀ (s : State) (u : Fin 64) (c : Fin 16), s.tileRuns u c 1 1 = true → (s.ctx u c).param ≠ [] → mmaValid (s.ctx u c).param = false → 
    Leads s (.mma u c) fun t => t.ctx u c = { s.ctx u c with result := some (.nackAbsent, 0) } ∧ t = { s with ctxs := t.ctxs }) ∧
  -- TILE_CNT_CLR (R187): tileCntClr
  (∀ (s : State) (w : Who) (u : Fin 64) (v : BitVec 32), s.takes w (0x800030 + 0x10000 * u) (v ||| 1).toNat → 
    Leads s (.tileCntClr w u v) fun t => t.answer.st = .ok ∧ t.tile u = { s.tile u with macBusy := 0, vecBusy := 0 } ∧ (∀ x, x ≠ u.val → t.tile x = s.tile x) ∧ t = { s with tiles := t.tiles, answer := t.answer })

/-- What 23 commands of tensor tiles do, from ADD to XOR. For each of the commands ADD, SUB, MUL, FMA, MAX, MIN, ABS, NEG, CVT, REQUANT, CMPGT, CMPEQ, SELECT, RECIP, RSQRT, EXP2, LOG2, RSUM, RMAX, SHIFT, AND, OR, XOR: in every state and with all operands that meet the conditions of its clause, exec answers a next state, of which the clause gives the values that the rules of the command put there and which equals the state before in everything that the clause does not list. -/
def Obligations.TileVec : Prop :=
  -- ADD (R166, R170): add
  (∀ (s : State) (u : Fin 64) (c : Fin 16), s.tileRuns u c 2 1 = true → s.storeOpen u = true → vecRunnable 1 (s.blockOf u c) (s.rd (R.CTX_PC_ITER (win u) c)) = true → 
    Leads s (.add u c) (VecDone 1 s u c)) ∧
  -- SUB (R166, R170): sub
  (∀ (s : State) (u : Fin 64) (c : Fin 16), s.tileRuns u c 2 2 = true → s.storeOpen u = true → vecRunnable 2 (s.blockOf u c) (s.rd (R.CTX_PC_ITER (win u) c)) = true → 
    Leads s (.sub u c) (VecDone 2 s u c)) ∧
  -- MUL (R166, R170): mul
  (∀ (s : State) (u : Fin 64) (c : Fin 16), s.tileRuns u c 2 3 = true → s.storeOpen u = true → vecRunnable 3 (s.blockOf u c) (s.rd (R.CTX_PC_ITER (win u) c)) = true → 
    Leads s (.mul u c) (VecDone 3 s u c)) ∧
  -- FMA (R166, R170): fma
  (∀ (s : State) (u : Fin 64) (c : Fin 16), s.tileRuns u c 2 4 = true → s.storeOpen u = true → vecRunnable 4 (s.blockOf u c) (s.rd (R.CTX_PC_ITER (win u) c)) = true → 
    Leads s (.fma u c) (VecDone 4 s u c)) ∧
  -- MAX (R166, R170): max
  (∀ (s : State) (u : Fin 64) (c : Fin 16), s.tileRuns u c 2 5 = true → s.storeOpen u = true → vecRunnable 5 (s.blockOf u c) (s.rd (R.CTX_PC_ITER (win u) c)) = true → 
    Leads s (.max u c) (VecDone 5 s u c)) ∧
  -- MIN (R166, R170): min
  (∀ (s : State) (u : Fin 64) (c : Fin 16), s.tileRuns u c 2 6 = true → s.storeOpen u = true → vecRunnable 6 (s.blockOf u c) (s.rd (R.CTX_PC_ITER (win u) c)) = true → 
    Leads s (.min u c) (VecDone 6 s u c)) ∧
  -- ABS (R166, R170): abs
  (∀ (s : State) (u : Fin 64) (c : Fin 16), s.tileRuns u c 2 7 = true → s.storeOpen u = true → vecRunnable 7 (s.blockOf u c) (s.rd (R.CTX_PC_ITER (win u) c)) = true → 
    Leads s (.abs u c) (VecDone 7 s u c)) ∧
  -- NEG (R166, R170): neg
  (∀ (s : State) (u : Fin 64) (c : Fin 16), s.tileRuns u c 2 8 = true → s.storeOpen u = true → vecRunnable 8 (s.blockOf u c) (s.rd (R.CTX_PC_ITER (win u) c)) = true → 
    Leads s (.neg u c) (VecDone 8 s u c)) ∧
  -- CVT (R166, R170): cvt
  (∀ (s : State) (u : Fin 64) (c : Fin 16), s.tileRuns u c 2 9 = true → s.storeOpen u = true → vecRunnable 9 (s.blockOf u c) (s.rd (R.CTX_PC_ITER (win u) c)) = true → 
    Leads s (.cvt u c) (VecDone 9 s u c)) ∧
  -- REQUANT (R173): requant
  (∀ (s : State) (u : Fin 64) (c : Fin 16), s.tileRuns u c 2 10 = true → s.storeOpen u = true → vecRunnable 10 (s.blockOf u c) (s.rd (R.CTX_PC_ITER (win u) c)) = true → 
    Leads s (.requant u c) (VecDone 10 s u c)) ∧
  -- CMPGT (R166, R170): cmpgt
  (∀ (s : State) (u : Fin 64) (c : Fin 16), s.tileRuns u c 2 11 = true → s.storeOpen u = true → vecRunnable 11 (s.blockOf u c) (s.rd (R.CTX_PC_ITER (win u) c)) = true → 
    Leads s (.cmpgt u c) (VecDone 11 s u c)) ∧
  -- CMPEQ (R166, R170): cmpeq
  (∀ (s : State) (u : Fin 64) (c : Fin 16), s.tileRuns u c 2 12 = true → s.storeOpen u = true → vecRunnable 12 (s.blockOf u c) (s.rd (R.CTX_PC_ITER (win u) c)) = true → 
    Leads s (.cmpeq u c) (VecDone 12 s u c)) ∧
  -- SELECT (R166): select
  (∀ (s : State) (u : Fin 64) (c : Fin 16), s.tileRuns u c 2 13 = true → s.storeOpen u = true → vecRunnable 13 (s.blockOf u c) (s.rd (R.CTX_PC_ITER (win u) c)) = true → 
    Leads s (.select u c) (VecDone 13 s u c)) ∧
  -- RECIP (R166, R170): recip
  (∀ (s : State) (u : Fin 64) (c : Fin 16), s.tileRuns u c 2 14 = true → s.storeOpen u = true → vecRunnable 14 (s.blockOf u c) (s.rd (R.CTX_PC_ITER (win u) c)) = true → 
    Leads s (.recip u c) (VecDone 14 s u c)) ∧
  -- RSQRT (R166, R170): rsqrt
  (∀ (s : State) (u : Fin 64) (c : Fin 16), s.tileRuns u c 2 15 = true → s.storeOpen u = true → vecRunnable 15 (s.blockOf u c) (s.rd (R.CTX_PC_ITER (win u) c)) = true → 
    Leads s (.rsqrt u c) (VecDone 15 s u c)) ∧
  -- EXP2 (R166, R170): exp2
  (∀ (s : State) (u : Fin 64) (c : Fin 16), s.tileRuns u c 2 16 = true → s.storeOpen u = true → vecRunnable 16 (s.blockOf u c) (s.rd (R.CTX_PC_ITER (win u) c)) = true → 
    Leads s (.exp2 u c) (VecDone 16 s u c)) ∧
  -- LOG2 (R166, R170): log2
  (∀ (s : State) (u : Fin 64) (c : Fin 16), s.tileRuns u c 2 17 = true → s.storeOpen u = true → vecRunnable 17 (s.blockOf u c) (s.rd (R.CTX_PC_ITER (win u) c)) = true → 
    Leads s (.log2 u c) (VecDone 17 s u c)) ∧
  -- RSUM (R172): rsum
  (∀ (s : State) (u : Fin 64) (c : Fin 16), s.tileRuns u c 2 18 = true → s.storeOpen u = true → vecRunnable 18 (s.blockOf u c) (s.rd (R.CTX_PC_ITER (win u) c)) = true → 
    Leads s (.rsum u c) (VecDone 18 s u c)) ∧
  -- RMAX (R172): rmax
  (∀ (s : State) (u : Fin 64) (c : Fin 16), s.tileRuns u c 2 19 = true → s.storeOpen u = true → vecRunnable 19 (s.blockOf u c) (s.rd (R.CTX_PC_ITER (win u) c)) = true → 
    Leads s (.rmax u c) (VecDone 19 s u c)) ∧
  -- SHIFT (R166): shift
  (∀ (s : State) (u : Fin 64) (c : Fin 16), s.tileRuns u c 2 20 = true → s.storeOpen u = true → vecRunnable 20 (s.blockOf u c) (s.rd (R.CTX_PC_ITER (win u) c)) = true → 
    Leads s (.shift u c) (VecDone 20 s u c)) ∧
  -- AND (R166): and
  (∀ (s : State) (u : Fin 64) (c : Fin 16), s.tileRuns u c 2 21 = true → s.storeOpen u = true → vecRunnable 21 (s.blockOf u c) (s.rd (R.CTX_PC_ITER (win u) c)) = true → 
    Leads s (.and u c) (VecDone 21 s u c)) ∧
  -- OR (R166): or
  (∀ (s : State) (u : Fin 64) (c : Fin 16), s.tileRuns u c 2 22 = true → s.storeOpen u = true → vecRunnable 22 (s.blockOf u c) (s.rd (R.CTX_PC_ITER (win u) c)) = true → 
    Leads s (.or u c) (VecDone 22 s u c)) ∧
  -- XOR (R166): xor
  (∀ (s : State) (u : Fin 64) (c : Fin 16), s.tileRuns u c 2 23 = true → s.storeOpen u = true → vecRunnable 23 (s.blockOf u c) (s.rd (R.CTX_PC_ITER (win u) c)) = true → 
    Leads s (.xor u c) (VecDone 23 s u c)) ∧
  -- ADD (R166, R170): add, invalid
  (∀ (s : State) (u : Fin 64) (c : Fin 16), s.tileRuns u c 2 1 = true → (s.ctx u c).param ≠ [] → vecValid 1 (s.ctx u c).param = false → 
    Leads s (.add u c) fun t => t.ctx u c = { s.ctx u c with result := some (.nackAbsent, 0) } ∧ t = { s with ctxs := t.ctxs })

/-- What the commands of Selectors do: TOPK, MERGE, ARGIDX, SEL_CNT_CLR, SEL_QMAX, SEL_QTOPK. For each of the commands TOPK, MERGE, ARGIDX, SEL_CNT_CLR, SEL_QMAX, SEL_QTOPK: in every state and with all operands that meet the conditions of its clause, exec answers a next state, of which the clause gives the values that the rules of the command put there and which equals the state before in everything that the clause does not list. -/
def Obligations.SelectorRows : Prop :=
  -- TOPK (R196): without CHAIN, the record of the pass over the source is written at the destination
  (∀ (s : State) (u : Fin 64) (c : Fin 16) (b : SelBlk), s.tileRuns u c 3 1 = true → s.storeOpen u = true → b = selBlk (s.blockOf u c) (s.logical u) (s.rd (R.CTX_PC_ITER (win u) c)) → (selValid 1 (s.blockOf u c) = true ∧ b.srcOk = true ∧ inStore b.dst (128 + 8 * b.k) = true) → b.chain = false → 
    Leads s (.topk u c) fun t => t.ctx u c = { s.ctx u c with param := s.blockOf u c, result := some (.ok, 0) } ∧ RowsStored s t u [(b.dst.toNat, ((s.selOver u b).record b u).1)] ∧
    t.rd (R.SEL_PASSES_PASSES u) = satAdd 32 (s.rd (R.SEL_PASSES_PASSES u)) 1 ∧ RegsBut (selFlds u) s t ∧
    t = { s with regs := t.regs, mem := t.mem, ecc := t.ecc, wb := t.wb, resv := t.resv, units := t.units, sigs := t.sigs, ctxs := t.ctxs }) ∧
  -- MERGE (R197): the records of its parameter block merge into one record
  (∀ (s : State) (u : Fin 64) (c : Fin 16) (b : SelBlk) (x : Selection) (w : Who), s.tileRuns u c 3 2 = true → s.storeOpen u = true → (s.ctx u c).param ≠ [] → b = { selBlk (s.ctx u c).param (s.logical u) (s.rd (R.CTX_PC_ITER (win u) c)) with dst := baseOf (pb (s.ctx u c).param 4 4) (pbS (s.ctx u c).param 12 4) (s.rd (R.CTX_PC_ITER (win u) c)) } → (selValid 2 (s.ctx u c).param = true ∧ inStore b.dst (128 + 8 * b.k) = true) → w = s.rowWho u c (rowClass (s.ctx u c).row) → s.mergeReads u w b (List.range b.count) {} = (s, .ok, true, x) → 
    Leads s (.merge u c) fun t => t.ctx u c = { s.ctx u c with result := some (.ok, 0) } ∧ RowsStored s t u [(b.dst.toNat, (x.record b u).1)] ∧
    t.rd (R.SEL_PASSES_PASSES u) = satAdd 32 (s.rd (R.SEL_PASSES_PASSES u)) 1 ∧ RegsBut (selFlds u) s t ∧
    t = { s with regs := t.regs, mem := t.mem, ecc := t.ecc, wb := t.wb, resv := t.resv, units := t.units, sigs := t.sigs, ctxs := t.ctxs }) ∧
  -- ARGIDX (R198): the index of the one winner of the pass is written at the destination
  (∀ (s : State) (u : Fin 64) (c : Fin 16) (b b1 : SelBlk), s.tileRuns u c 3 3 = true → s.storeOpen u = true → b = { selBlk (s.blockOf u c) (s.logical u) (s.rd (R.CTX_PC_ITER (win u) c)) with dst := baseOf (pb (s.blockOf u c) 4 4) (pbS (s.blockOf u c) 12 4) (s.rd (R.CTX_PC_ITER (win u) c)) } → b1 = { selBlk (s.blockOf u c) (s.logical u) (s.rd (R.CTX_PC_ITER (win u) c)) with k := 1 } → (selValid 3 (s.blockOf u c) = true ∧ b.srcOk = true ∧ inStore b.dst 4 = true) → 
    Leads s (.argidx u c) fun t => t.ctx u c = { s.ctx u c with param := s.blockOf u c, result := some (.ok, 0) } ∧
    RowsStored s t u [(b.dst.toNat, leBytes 4 (((s.selOver u b1).kept.head?.map (·.idx)).getD 0xFFFFFFFF))] ∧
    t.rd (R.SEL_PASSES_PASSES u) = satAdd 32 (s.rd (R.SEL_PASSES_PASSES u)) 1 ∧ RegsBut (selFlds u) s t ∧
    t = { s with regs := t.regs, mem := t.mem, ecc := t.ecc, wb := t.wb, resv := t.resv, units := t.units, sigs := t.sigs, ctxs := t.ctxs }) ∧
  -- SEL_CNT_CLR (R203): selCntClr
  (∀ (s : State) (w : Who) (u : Fin 64) (v : BitVec 32), s.takes w (0x800040 + 0x10000 * u) (v ||| 2).toNat → 
    Leads s (.selCntClr w u v) fun t => t.rd (R.SEL_PASSES_PASSES u) = 0 ∧ t.rd (R.SEL_CTRL_FLAG_IRQ_EN u) = v.toNat % 2 ∧ t.answer.st = .ok ∧
    RegsBut [R.SEL_PASSES_PASSES u, R.SEL_CTRL_FLAG_IRQ_EN u] s t ∧ t = { s with regs := t.regs, answer := t.answer }) ∧
  -- SEL_QMAX (R203): the operation runs on an open store and commits its winner
  (∀ (s : State) (core : Fin 4) (rs1 : BitVec 64) (u : Nat) (l : List Byte) (b : SelBlk), tileOfAddr rs1.toNat = some u → s.gate u (s.stamp rs1.toNat) = (s, .ok) → (s.storeOpen u = true ∧ rs1.toNat - storeBase u < 0x200000) → l = s.getBytes (storeBase u + (rs1.toNat - storeBase u) / 64 * 64) 64 → b = { selBlk l (s.logical u) 0 with k := 1 } → (selValid 3 l = true ∧ b.srcOk = true) → 
    Leads s (.selQmax core rs1) fun t => t.answer.st = .ok ∧ t.answer.value = (match (s.selOver u b).kept with | x :: _ => x.idx + x.phys * 2 ^ 26 + x.key * 2 ^ 32 | [] => 2 ^ 64 - 1) ∧
    t.qstat = s.qstat.set core 0 ∧ t.rd (R.SEL_PASSES_PASSES u) = satAdd 32 (s.rd (R.SEL_PASSES_PASSES u)) 1 ∧ RegsBut (selFlds u) s t ∧ t = { s with regs := t.regs, qstat := t.qstat, answer := t.answer }) ∧
  -- SEL_QTOPK (R203): the operation runs on an open store and commits K_OUT
  (∀ (s : State) (core : Fin 4) (rs1 : BitVec 64) (u : Nat) (l : List Byte) (b : SelBlk), tileOfAddr rs1.toNat = some u → s.gate u (s.stamp rs1.toNat) = (s, .ok) → (s.storeOpen u = true ∧ rs1.toNat - storeBase u < 0x200000) → l = s.getBytes (storeBase u + (rs1.toNat - storeBase u) / 64 * 64) 64 → b = { selBlk l (s.logical u) 0 with chain := false } → (selValid 1 l = true ∧ b.srcOk = true ∧ inStore b.dst (128 + 8 * b.k) = true) → 
    Leads s (.selQtopk core rs1) fun t => t.answer.st = .ok ∧ t.answer.value = (s.selOver u b).kept.length ∧ RowsStored s t u [(b.dst.toNat, ((s.selOver u b).record b u).1)] ∧
    t.qstat = s.qstat.set core 0 ∧ t.rd (R.SEL_PASSES_PASSES u) = satAdd 32 (s.rd (R.SEL_PASSES_PASSES u)) 1 ∧ RegsBut (selFlds u) s t ∧
    t = { s with regs := t.regs, mem := t.mem, ecc := t.ecc, wb := t.wb, resv := t.resv, units := t.units, qstat := t.qstat, answer := t.answer })

/-- What 9 commands of motor axes do, from AXIS_START to PROBE_PULSE_END. For each of the commands AXIS_START, AXIS_STOP, AXIS_CLEAR, CATCH_TIMEOUT, SUB_TIMEOUT, BRAKE_DELAY_EXPIRY, CHOPPER_MIN_INTERVAL, PROBE_PULSE, PROBE_PULSE_END: in every state and with all operands that meet the conditions of its clause, exec answers a next state, of which the clause gives the values that the rules of the command put there and which equals the state before in everything that the clause does not list. -/
def Obligations.AxisStates : Prop :=
  -- AXIS_START (R340): axisStart
  (∀ (s s1 : State) (w : Who) (n : Fin 12) (v : BitVec 32), n < s.axes.length → s.takes w (0x100000 + 0x1000 * n) (v ||| 1).toNat = true → s1 = s.axCtrlFields n v.toNat → (bit v.toNat 1 = false ∧ bit v.toNat 2 = false) → s.axState n = 0 → bit v.toNat 3 = (s.axis n).run → s1.axStartOk n = true → 
    Leads s (.axisStart w n v) fun t => t.axState n = 1 ∧ t.rd (R.AX_STAT_CAUSE n) = 0 ∧ t.rd (R.AX_STAT_PHASE n) = 0 ∧ (t.axis n).gateEn = true ∧ (t.axis n).pat = 0 ∧
    (t.axis n).hbrk = false ∧ (t.axis n).since = s.now ∧ (t.axis n).probes = 0 ∧ RegsBut [R.AX_STAT_STATE n, R.AX_STAT_CAUSE n, R.AX_STAT_PHASE n] s1 t ∧ AxisWritten n s t) ∧
  -- AXIS_START (R340): AXIS_START outside OFF, or where a condition of R340 fails, sets REJ and starts nothing.
  (∀ (s s1 : State) (w : Who) (n : Fin 12) (v : BitVec 32), n < s.axes.length → s.takes w (0x100000 + 0x1000 * n) (v ||| 1).toNat = true → s1 = s.axCtrlFields n v.toNat → (bit v.toNat 1 = false ∧ bit v.toNat 2 = false) → bit v.toNat 3 = (s.axis n).run → (s.axState n ≠ 0 ∨ s1.axStartOk n = false) → 
    Leads s (.axisStart w n v) fun t => t.on (R.AX_STAT_REJ n) = true ∧ t.axState n = s.axState n ∧ RegsBut [R.AX_STAT_REJ n] s1 t ∧
    AxisButChopper (s.axis n) (t.axis n) ∧ AxisWritten n s t) ∧
  -- AXIS_STOP (R340): STOP in RUN leads to STOPPING with PHASE 4 and the pattern PWM.
  (∀ (s : State) (w : Who) (n : Fin 12) (v : BitVec 32), n < s.axes.length → s.takes w (0x100000 + 0x1000 * n) (v ||| 2).toNat = true → (bit v.toNat 0 = false ∧ bit v.toNat 2 = false) → s.axState n = 2 → 
    Leads s (.axisStop w n v) fun t => t.axState n = 3 ∧ t.rd (R.AX_STAT_PHASE n) = 4 ∧ (t.axis n).pat = 1 ∧ (t.axis n).gateEn = true ∧ (t.axis n).since = s.now ∧
    t.rd (R.AX_CTRL_BCH_EN n) = bits v.toNat 8 1 ∧ t.rd (R.AX_CTRL_IRQ_EN n) = bits v.toNat 9 1 ∧
    RegsBut [R.AX_STAT_STATE n, R.AX_STAT_PHASE n, R.AX_CTRL_BCH_EN n, R.AX_CTRL_IRQ_EN n] s t ∧ AxisWritten n s t) ∧
  -- AXIS_STOP (R340): STOP in CATCH leads to OFF.
  (∀ (s : State) (w : Who) (n : Fin 12) (v : BitVec 32), n < s.axes.length → s.takes w (0x100000 + 0x1000 * n) (v ||| 2).toNat = true → (bit v.toNat 0 = false ∧ bit v.toNat 2 = false) → s.axState n = 1 → 
    Leads s (.axisStop w n v) fun t => t.axState n = 0 ∧ t.rd (R.AX_STAT_PHASE n) = 0 ∧ t.on (R.AX_STAT_TORQUE_OK n) = false ∧ AxisButChopper (axisLeft (s.axis n) s.now) (t.axis n) ∧
    RegsBut [R.AX_STAT_STATE n, R.AX_STAT_PHASE n, R.AX_STAT_TORQUE_OK n, R.AX_CTRL_BCH_EN n, R.AX_CTRL_IRQ_EN n] s t ∧ AxisWritten n s t) ∧
  -- AXIS_CLEAR (R340): axisClear
  (∀ (s s1 : State) (w : Who) (n : Fin 12) (v : BitVec 32), n < s.axes.length → s.takes w (0x100000 + 0x1000 * n) (v ||| 4).toNat = true → s1 = s.axCtrlFields n v.toNat → (bit v.toNat 0 = false ∧ bit v.toNat 1 = false) → bit v.toNat 3 = (s.axis n).run → s.axState n = 5 → (s.axPersists n = false ∧ s.inSafe = false) → 
    Leads s (.axisClear w n v) fun t => t.axState n = 0 ∧ t.rd (R.AX_STAT_PHASE n) = 0 ∧ t.on (R.AX_STAT_TORQUE_OK n) = false ∧ AxisButChopper (axisLeft (s.axis n) s.now) (t.axis n) ∧
    RegsBut [R.AX_STAT_STATE n, R.AX_STAT_PHASE n, R.AX_STAT_TORQUE_OK n] s1 t ∧ AxisWritten n s t) ∧
  -- AXIS_CLEAR (R340): CLEAR is ignored while a cause of INVALID persists or the part is in its safe state.
  (∀ (s s1 : State) (w : Who) (n : Fin 12) (v : BitVec 32), n < s.axes.length → s.takes w (0x100000 + 0x1000 * n) (v ||| 4).toNat = true → s1 = s.axCtrlFields n v.toNat → (bit v.toNat 0 = false ∧ bit v.toNat 1 = false) → bit v.toNat 3 = (s.axis n).run → s.axState n = 5 → (s.axPersists n = true ∨ s.inSafe = true) → 
    Leads s (.axisClear w n v) fun t => t.axState n = 5 ∧ RegsBut [] s1 t ∧ AxisButChopper (s.axis n) (t.axis n) ∧ AxisWritten n s t) ∧
  -- CATCH_TIMEOUT (R340): catchTimeout
  (∀ (s : State) (n : Fin 12), n < s.axes.length → s.axState n = 1 → (min (max (s.rd (R.AX_CATCH_T_CATCH n)) 1) 100) * 400000 ≤ s.since (s.axis n).since → 
    Leads s (.catchTimeout n) fun t => t.axState n = 0 ∧ t.on (R.AX_STAT_CATCH_FAIL n) = true ∧ t.rd (R.AX_STAT_PHASE n) = 0 ∧ t.on (R.AX_STAT_TORQUE_OK n) = false ∧
    t.axis n = axisLeft (s.axis n) s.now ∧ RegsBut [R.AX_STAT_STATE n, R.AX_STAT_CATCH_FAIL n, R.AX_STAT_PHASE n, R.AX_STAT_TORQUE_OK n] s t ∧ AxisOnly n s t) ∧
  -- SUB_TIMEOUT (R344): t_sub elapsed: INVALID with cause SUB_TIMEOUT, reported.
  (∀ (s : State) (n : Fin 12), n < s.axes.length → s.axState n = 4 → (min (max (s.rd (R.AX_DET_TSUB n)) 1) 1000) * 4000 ≤ s.since (s.axis n).since → 
    Leads s (.subTimeout n) fun t => t.axState n = 5 ∧ t.rd (R.AX_STAT_CAUSE n) = 4 ∧ t.rd (R.AX_STAT_PHASE n) = s.rd (R.AX_STAT_PHASE n) % 8 ∧ t.on (R.AX_STAT_TORQUE_OK n) = false ∧
    t.axis n = axisLeft (s.axis n) s.now ∧ (∀ x, x ≠ n.val → t.axis x = s.axis x) ∧ t.reports = s.reports ++ [(0x10 + n.val, 4)] ∧
    RegsBut [R.AX_STAT_STATE n, R.AX_STAT_CAUSE n, R.AX_STAT_PHASE n, R.AX_STAT_TORQUE_OK n] s t ∧ t = { s with regs := t.regs, axes := t.axes, reports := t.reports }) ∧
  -- BRAKE_DELAY_EXPIRY (R345): brakeDelayExpiry
  (∀ (s : State) (n : Fin 12), n < s.axes.length → s.axState n = 3 → 8 ≤ (s.axis n).lowRun → (s.on (R.AX_CTRL_HBRK_EN n) = false ∨ ((s.axis n).hbrk = false ∧ s.rd (R.AX_BRK_BRK_DELAY n) ≤ s.since (s.axis n).hbrkOff)) → 
    Leads s (.brakeDelayExpiry n) fun t => t.axState n = 0 ∧ t.rd (R.AX_STAT_PHASE n) = 0 ∧ t.on (R.AX_STAT_TORQUE_OK n) = false ∧ t.axis n = axisLeft (s.axis n) s.now ∧
    RegsBut [R.AX_STAT_STATE n, R.AX_STAT_PHASE n, R.AX_STAT_TORQUE_OK n] s t ∧ AxisOnly n s t) ∧
  -- CHOPPER_MIN_INTERVAL (R346): CH_MIN after the last change, BCH follows the VBUS word: on above CH_ON, off below CH_OFF, else as it was.
  (∀ (s : State) (n : Fin 12) (m t0 : Nat) (want : Bool), n < s.axes.length → ((s.axis n).bchAt = some t0 ∧ (s.axis n).chMin ≤ s.since t0) → s.vbusIn n = some m → (s.on (R.AX_CTRL_BCH_EN n) = true ∧ s.sdFaulted m = false ∧ s.inSafe = false ∧ s.on R.SF_STAT_FORCED = false) → (want = if s.rdS (R.AX_CH_ON_CH_ON n) < s.rdS (R.SD_WORD_WORD m) then true else if s.rdS (R.SD_WORD_WORD m) < s.rdS (R.AX_CH_OFF_CH_OFF n) then false else (s.axis n).bch) → 
    Leads s (.chopperMinInterval n) fun t => t.axis n = (if want = (s.axis n).bch then s.axis n else { s.axis n with bch := want, bchAt := some s.now }) ∧ RegsBut [] s t ∧ AxisOnly n s t) ∧
  -- CHOPPER_MIN_INTERVAL (R346): Before CH_MIN nothing changes.
  (∀ (s : State) (n : Fin 12) (t0 : Nat), ((s.axis n).bchAt = some t0 ∧ s.since t0 < (s.axis n).chMin) → 
    Leads s (.chopperMinInterval n) fun t => t = s) ∧
  -- PROBE_PULSE (R341): A probe pulse: the three low gates, for a catching axis whose estimate comes from the Reed.
  (∀ (s : State) (n : Fin 12), n < s.axes.length → (s.axState n = 1 ∧ s.on (R.AX_CATCH_CATCH_MODE n) = true) → ((s.axis n).probes < 3 ∧ (s.axis n).probeOn = false) → s.reached (((s.axis n).batchAt + 40000 * (s.axis n).probes) % 2 ^ 48) = true → 
    Leads s (.probePulse n) fun t => t.axis n = { (s.axis n).patted 2 s.now with probeOn := true, probeAt := s.now, probes := (s.axis n).probes + 1 } ∧ RegsBut [] s t ∧ AxisOnly n s t) ∧
  -- PROBE_PULSE_END (R341): The pulse ends with a sampling point: the pattern goes off, the angle is taken, the windows of the inputs open.
  (∀ (s : State) (n : Fin 12), n < s.axes.length → (s.axState n = 1 ∧ (s.axis n).probeOn = true) → min (max (s.rd (R.AX_CATCH_PROBE_W n)) 1) 1600 ≤ s.since (s.axis n).probeAt → ([3 * n.val, 3 * n.val + 1, 3 * n.val + 2].filter fun m => s.sdMode m != 0) ≠ [] → 
    Leads s (.probePulseEnd n) fun t => (t.axis n).probeOn = false ∧ (t.axis n).pat = 0 ∧ (t.axis n).smpAt = s.now ∧ (t.axis n).smpProbe = true ∧ (t.axis n).openF = true ∧
    (t.axis n).smpTheta = s.phase (s.rd (R.AX_FB_DRONE n)) ∧ (t.axis n).need = ([3 * n.val, 3 * n.val + 1, 3 * n.val + 2].filter fun m => s.sdMode m != 0) ∧
    (∀ x, x ≠ n.val → t.axis x = s.axis x) ∧ RegsBut [] s t ∧ t = { s with axes := t.axes, sds := t.sds, reed := t.reed })

/-- What the commands of motor axes do: PWM_EN, AX_SYNC_GO, RELOAD_POINT, SAMPLING_POINT, DUTY_STAGE, PWM_COMPARE_EDGE, AX_CMP_WRITE. For each of the commands PWM_EN, AX_SYNC_GO, RELOAD_POINT, SAMPLING_POINT, DUTY_STAGE, PWM_COMPARE_EDGE, AX_CMP_WRITE: in every state and with all operands that meet the conditions of its clause, exec answers a next state, of which the clause gives the values that the rules of the command put there and which equals the state before in everything that the clause does not list. -/
def Obligations.AxisPeriod : Prop :=
  -- PWM_EN (R319): The counter starts in the next cycle with the half-period of PWM_HALF.
  (∀ (s s1 : State) (w : Who) (n : Fin 12) (v : BitVec 32), n < s.axes.length → s.takes w (0x100000 + 0x1000 * n) v.toNat = true → s1 = s.axCtrlFields n v.toNat → bits v.toNat 0 4 = 8 → (s.axState n = 0 ∨ s.axState n = 5) → (s.axis n).run = false → halfOk (s.rd (R.AX_PWM_HALF n)) = true → 
    Leads s (.pwmEn w n v) fun t => t.on (R.AX_CTRL_PWM_EN n) = true ∧ RegsBut [R.AX_CTRL_PWM_EN n] s1 t ∧ AxisWritten n s t ∧
    AxisButChopper { s.axis n with run := true, valley := (s.now + 1) % 2 ^ 48, half := s.rd (R.AX_PWM_HALF n), halfP := s.rd (R.AX_PWM_HALF n), vDone := false, pDone := false, adj := 0, adjAt := none } (t.axis n)) ∧
  -- PWM_EN (R319): PWM_EN written 0 in OFF or INVALID stops the counter and its gates.
  (∀ (s s1 : State) (w : Who) (n : Fin 12) (v : BitVec 32), n < s.axes.length → s.takes w (0x100000 + 0x1000 * n) v.toNat = true → s1 = s.axCtrlFields n v.toNat → bits v.toNat 0 4 = 0 → (s.axState n = 0 ∨ s.axState n = 5) → (s.axis n).run = true → 
    Leads s (.pwmEn w n v) fun t => t.on (R.AX_CTRL_PWM_EN n) = false ∧ RegsBut [R.AX_CTRL_PWM_EN n] s1 t ∧ AxisWritten n s t ∧
    AxisButChopper { s.axis n with run := false, ph := (s.axis n).ph.map fun g => { g with cmd := false, hi := none, lo := none } } (t.axis n)) ∧
  -- AX_SYNC_GO (R319): The counters of the axes of the mask start together; this states it of a mask of one axis, in OFF or INVALID with its counter at rest.
  (∀ (s : State) (w : Who) (n : Fin 12) (v : BitVec 32), n < s.axes.length → s.takes w 0x10F000 v.toNat = true → v.toNat = 2 ^ n.val → (s.axState n = 0 ∨ s.axState n = 5) → (s.axis n).run = false → halfOk (s.rd (R.AX_PWM_HALF n)) = true → 
    Leads s (.axSyncGo w v) fun t => t.on (R.AX_CTRL_PWM_EN n) = true ∧ RegsBut [R.AX_CTRL_PWM_EN n] s t ∧ AxisWritten n s t ∧
    t.axis n = { s.axis n with run := true, valley := (s.now + 1) % 2 ^ 48, half := s.rd (R.AX_PWM_HALF n), halfP := s.rd (R.AX_PWM_HALF n), vDone := false, pDone := false, adj := 0, adjAt := none }) ∧
  -- RELOAD_POINT (R323): The first reload point of a running counter, with the compare values from the registers: shadows are taken, held to the half-period.
  (∀ (s : State) (n : Fin 12) (half : Nat) (c : List Nat × Bool), n < s.axes.length → ((s.axis n).run = true ∧ s.reached (s.axis n).valley = true ∧ (s.axis n).vDone = false) → s.on (R.AX_CTRL_DUTY_SRC n) = true → s.axState n ≠ 2 → (half = if halfOk (s.rd (R.AX_PWM_HALF n)) then s.rd (R.AX_PWM_HALF n) else (s.axis n).half) → c = clampCmps half (s.cmpShadow n) → 
    Leads s (.reloadPoint n) fun t => t.axis n = { s.axis n with half := half, cmp := c.1, reloadAt := some s.now, vA := (s.axis n).vS, upd := 0, noUpd := 0, spA := clampI (1 - (half : Int)) ((half : Int) - 1) (s.axis n).spOfs, dt := s.rd (R.AX_DT_DT n), minp := s.rd (R.AX_DT_MINP n), halfP := half, vDone := true, pDone := false } ∧
    t.on (R.AX_STAT_DUTY_SAT n) = (s.on (R.AX_STAT_DUTY_SAT n) || c.2) ∧ t.on (R.AX_STAT_REJ n) = (s.on (R.AX_STAT_REJ n) || !halfOk (s.rd (R.AX_PWM_HALF n))) ∧
    RegsBut [R.AX_STAT_REJ n, R.AX_STAT_DUTY_SAT n] s t ∧ AxisOnly n s t) ∧
  -- SAMPLING_POINT (R324): A sampling point with a current input that runs: the angle of the feedback Drone is taken and the windows open.
  (∀ (s : State) (n : Fin 12), n < s.axes.length → s.samplingDue n = true → (¬ ((s.axis n).smpAt = s.now ∧ (s.axis n).openF = true)) → ([3 * n.val, 3 * n.val + 1, 3 * n.val + 2].filter fun m => s.sdMode m != 0) ≠ [] → 
    Leads s (.samplingPoint n) fun t => t.axis n = { s.axis n with smpAt := s.now, smpTheta := s.phase (s.rd (R.AX_FB_DRONE n)), smpF := (s.drone (s.rd (R.AX_FB_DRONE n))).f, smpSub := s.phase (s.rd (R.AX_FB_SUB_DRONE n)), smpSubF := (s.drone (s.rd (R.AX_FB_SUB_DRONE n))).f, smpV := (s.axis n).vA, smpProbe := false, need := [3 * n.val, 3 * n.val + 1, 3 * n.val + 2].filter (fun m => s.sdMode m != 0), openF := true } ∧
    (∀ x, x ≠ n.val → t.axis x = s.axis x) ∧ RegsBut [] s t ∧ t = { s with axes := t.axes, sds := t.sds, reed := t.reed }) ∧
  -- SAMPLING_POINT (R324): Where no sampling point is due nothing changes.
  (∀ (s : State) (n : Fin 12), s.samplingDue n = false → 
    Leads s (.samplingPoint n) fun t => t = s) ∧
  -- DUTY_STAGE (R338): Both slots have published: the compare values of v_d and v_q go to the shadows at once.
  (∀ (s : State) (n : Fin 12) (vd vq : Int) (c : List Nat × Bool), n < s.axes.length → ((s.axis n).awaits = true ∧ (s.axis n).pubD = some vd ∧ (s.axis n).pubQ = some vq) → s.axDriven n = true → s.on (R.AX_CTRL_DUTY_SRC n) = false → (∀ k, s.toReload n = some k → 8 ≤ k) → c = dutyOf vd vq (s.rd (R.AX_FRAME_ITEM n 10)) (s.axis n).half → 
    Leads s (.dutyStage n) fun t => t.axis n = { s.axis n with awaits := false, pubD := none, pubQ := none, upd := 1, vS := (vd, vq) } ∧
    (∀ x < 3, t.rd (R.AX_CMP_CMP n x) = c.1.getD x 0 % 2 ^ 20) ∧ t.on (R.AX_STAT_DUTY_SAT n) = (s.on (R.AX_STAT_DUTY_SAT n) || c.2) ∧
    RegsBut [R.AX_STAT_DUTY_SAT n, R.AX_CMP_CMP n 0, R.AX_CMP_CMP n 1, R.AX_CMP_CMP n 2, R.AX_CNT1_LATE_UPDATE n] s t ∧ AxisOnly n s t) ∧
  -- PWM_COMPARE_EDGE (R320): The command of a phase changes where the ramp crosses the compare value; the gates follow.
  (∀ (s : State) (n : Fin 12) (x : Fin 3) (g : PhaseG) (c : Bool) (tau f e : Nat), n < s.axes.length → ((s.axis n).run = true ∧ s.reached (s.axis n).valley = true ∧ s.axPos n < 2 * (s.axis n).halfP) → ((s.axis n).ph.getD x {} = g ∧ e = 16 * s.axPos n) → (c = cmdAt (s.axis n).halfP ((s.axis n).cmp.getD x 0) (e + 15) ∧ c ≠ g.cmd) → (tau = if c then 16 * (s.axis n).halfP - (s.axis n).cmp.getD x 0 else 16 * (s.axis n).halfP + (s.axis n).cmp.getD x 0) → (f = if e ≤ tau ∧ tau < e + 16 ∧ (s.axis n).cmp.getD x 0 < 16 * (s.axis n).halfP then tau - e else 0) → 
    Leads s (.pwmCompareEdge n x) fun t => t.axis n = { s.axis n with ph := (s.axis n).ph.set x (g.toggle (s.axis n) c (16 * s.now + f) (2 * (s.axis n).cmp.getD x 0) (32 * (s.axis n).halfP - 2 * (s.axis n).cmp.getD x 0)) } ∧
    RegsBut [] s t ∧ AxisOnly n s t) ∧
  -- AX_CMP_WRITE (R325): Where the registers give the duty, the write sets the compare shadow; one in the cycle of a reload counts as late.
  (∀ (s : State) (w : Who) (n : Fin 12) (x : Fin 3) (v : BitVec 32), s.takes w (0x100020 + 0x1000 * n + 4 * x) v.toNat = true → s.on (R.AX_CTRL_DUTY_SRC n) = true → s.reloadDue n = false → 
    Leads s (.axCmpWrite w n x v) fun t => t.rd (R.AX_CMP_CMP n x) = bits v.toNat 0 20 ∧
    t.rd (R.AX_CNT1_LATE_WRITE n) = satAdd 16 (s.rd (R.AX_CNT1_LATE_WRITE n)) (b2n ((s.axis n).reloadAt == some s.now)) ∧
    RegsBut [R.AX_CMP_CMP n x, R.AX_CNT1_LATE_WRITE n] s t ∧ t = { s with regs := t.regs, answer := t.answer }) ∧
  -- AX_CMP_WRITE (R325): Where the duty stage gives the duty, the write sets DUTY_IGN and nothing else.
  (∀ (s : State) (w : Who) (n : Fin 12) (x : Fin 3) (v : BitVec 32), s.takes w (0x100020 + 0x1000 * n + 4 * x) v.toNat = true → s.on (R.AX_CTRL_DUTY_SRC n) = false → 
    Leads s (.axCmpWrite w n x v) fun t => t.on (R.AX_STAT_DUTY_IGN n) = true ∧ RegsBut [R.AX_STAT_DUTY_IGN n] s t ∧ t = { s with regs := t.regs, answer := t.answer })

/-- What 8 commands of motor axes do, from SIGMA_DELTA_WORD to IDX_ARM. For each of the commands SIGMA_DELTA_WORD, FAST_OVERCURRENT_TRIP, ACTIVITY_FAULT, DENSITY_BLOCK_END, ENCODER_EDGE, ENCODER_INDEX, ENC_CNT_WRITE, IDX_ARM: in every state and with all operands that meet the conditions of its clause, exec answers a next state, of which the clause gives the values that the rules of the command put there and which equals the state before in everything that the clause does not list. -/
def Obligations.AxisInputs : Prop :=
  -- SIGMA_DELTA_WORD (R330): A window of a free input that serves no axis: its word is the sinc3 sum of its samples.
  (∀ (s : State) (m : Fin 40) (l : List Bool), 36 ≤ m.val → s.sdMode m = 2 → l.length = 3 * s.sdOsr m - 2 → s.vbusAxes m = [] → 
    Leads s (.sigmaDeltaWord m l) fun t => t.rd (R.SD_WORD_WORD m) = sinc3 (s.sdOsr m) (min (s.rd (R.SD_CFG_WSH m)) 24) l ∧ RegsBut [R.SD_WORD_WORD m] s t ∧
    (∀ x, x ≠ m.val → t.sd x = s.sd x) ∧ t = { s with regs := t.regs, sds := t.sds }) ∧
  -- SIGMA_DELTA_WORD (R330): A word of a current input whose axis waits for other inputs yet.
  (∀ (s : State) (m : Fin 40) (l : List Bool) (n : Nat), (m.val < 36 ∧ n = m.val / 3 ∧ n < s.axes.length) → s.sdMode m = 1 → l.length = 3 * s.sdOsr m - 2 → (s.sd m).worded = false → s.vbusAxes m = [] → (s.axis n).need.filter (· != m.val) ≠ [] → 
    Leads s (.sigmaDeltaWord m l) fun t => t.rd (R.SD_WORD_WORD m) = sinc3 (s.sdOsr m) (min (s.rd (R.SD_CFG_WSH m)) 24) l ∧
    t.axis n = { s.axis n with need := (s.axis n).need.filter (· != m.val) } ∧ (∀ x, x ≠ n → t.axis x = s.axis x) ∧ RegsBut [R.SD_WORD_WORD m] s t ∧ t = { s with regs := t.regs, sds := t.sds, axes := t.axes }) ∧
  -- FAST_OVERCURRENT_TRIP (R332): A trip of an active axis: it is counted, the axis goes INVALID with cause OVERCURRENT, its gates go off and its compare shadows to 0.
  (∀ (s : State) (m : Fin 40) (l : List Bool) (n : Nat), (n = m.val / 3 ∧ n < s.axes.length) → s.ocTrips m l = true → s.axActive n = true → 
    Leads s (.fastOvercurrentTrip m l) fun t => t.axState n = 5 ∧ t.rd (R.AX_STAT_CAUSE n) = 1 ∧ t.rd (R.AX_CNT2_OC_TRIPS n) = satAdd 16 (s.rd (R.AX_CNT2_OC_TRIPS n)) 1 ∧
    (∀ x < 3, t.rd (R.AX_CMP_CMP n x) = 0) ∧ t.axis n = axisLeft (s.axis n) s.now ∧ (∀ x, x ≠ n → t.axis x = s.axis x) ∧ t.reports = s.reports ++ [(0x10 + n, 1)] ∧
    RegsBut [R.AX_STAT_STATE n, R.AX_STAT_CAUSE n, R.AX_STAT_PHASE n, R.AX_STAT_TORQUE_OK n, R.AX_CNT2_OC_TRIPS n, R.AX_CMP_CMP n 0, R.AX_CMP_CMP n 1, R.AX_CMP_CMP n 2] s t ∧
    t = { s with regs := t.regs, axes := t.axes, reports := t.reports }) ∧
  -- ACTIVITY_FAULT (R331): The activity monitor of a current input raises: the input is faulted and its axis, if active, goes INVALID with cause CURRENT.
  (∀ (s : State) (m : Fin 40) (n : Nat), (m.val < 36 ∧ n = m.val / 3 ∧ n < s.axes.length) → s.sdMode m = 1 → s.axActive n = true → s.vbusAxes m = [] → 
    Leads s (.activityFault m) fun t => t.on (R.SD_STAT_ACT_FAULT m) = true ∧ t.on (R.SD_STAT_FAULTED m) = true ∧ t.axState n = 5 ∧ t.rd (R.AX_STAT_CAUSE n) = 2 ∧
    t.axis n = axisLeft (s.axis n) s.now ∧ (∀ x, x ≠ n → t.axis x = s.axis x) ∧ t.reports = s.reports ++ [(0x10 + n, 2)] ∧
    RegsBut [R.SD_STAT_ACT_FAULT m, R.SD_STAT_FAULTED m, R.AX_STAT_STATE n, R.AX_STAT_CAUSE n, R.AX_STAT_PHASE n, R.AX_STAT_TORQUE_OK n] s t ∧
    t = { s with regs := t.regs, axes := t.axes, reports := t.reports, sds := t.sds }) ∧
  -- DENSITY_BLOCK_END (R331): A block within the limits, after one that was not quiet: the input is quiet from here, nothing is raised.
  (∀ (s : State) (m : Fin 40) (ones : Fin 1025) (lim : Nat), m.val < s.sds.length → s.sdMode m ≠ 0 → lim = s.rd (R.SD_MON_DENS_LIM m) → (lim ≤ ones.val ∧ ones.val ≤ 1024 - lim ∧ lim ≤ 1024) → (s.sd m).quiet = false → 
    Leads s (.densityBlockEnd m ones) fun t => t.sd m = { s.sd m with quiet := !s.on (R.SD_STAT_ACT_FAULT m) && !s.on (R.SD_STAT_DENS_FAULT m) } ∧ (∀ x, x ≠ m.val → t.sd x = s.sd x) ∧ RegsBut [] s t ∧ t = { s with sds := t.sds }) ∧
  -- DENSITY_BLOCK_END (R331): A second quiet block in a row takes the fault away.
  (∀ (s : State) (m : Fin 40) (ones : Fin 1025) (lim : Nat), m.val < s.sds.length → s.sdMode m ≠ 0 → lim = s.rd (R.SD_MON_DENS_LIM m) → (lim ≤ ones.val ∧ ones.val ≤ 1024 - lim ∧ lim ≤ 1024) → (s.sd m).quiet = true → 
    Leads s (.densityBlockEnd m ones) fun t => t.on (R.SD_STAT_FAULTED m) = false ∧ RegsBut [R.SD_STAT_FAULTED m] s t ∧ (∀ x, x ≠ m.val → t.sd x = s.sd x) ∧ t = { s with regs := t.regs, sds := t.sds }) ∧
  -- ENCODER_EDGE (R333): encoderEdge
  (∀ (s : State) (n : Fin 12) (a b : Bool), n < s.axes.length → 
    Leads s (.encoderEdge n a b) fun t => t.rd (R.AX_ENC_CNT_CNT n) = ux 32 ((s.rd (R.AX_ENC_CNT_CNT n) : Int) + (s.encDelta n a b).1) ∧
    t.rd (R.AX_CNT2_QERR n) = satAdd 16 (s.rd (R.AX_CNT2_QERR n)) (b2n (s.encDelta n a b).2) ∧ t.axis n = { s.axis n with encA := a, encB := b } ∧
    RegsBut [R.AX_ENC_CNT_CNT n, R.AX_CNT2_QERR n] s t ∧ AxisOnly n s t) ∧
  -- ENCODER_INDEX (R333): encoderIndex
  (∀ (s : State) (n : Fin 12), n < s.axes.length → 
    Leads s (.encoderIndex n) fun t => t.rd (R.AX_ENC_IDX_IDX n) = s.rd (R.AX_ENC_CNT_CNT n) % 2 ^ 32 ∧ t.on (R.AX_ENC_IDX_VALID n) = true ∧
    t.rd (R.AX_ENC_CNT_CNT n) = (if s.rd (R.AX_ENC_IDX_CLR n) = 2 ∨ (s.rd (R.AX_ENC_IDX_CLR n) = 1 ∧ (s.axis n).armed = true) then 0 else s.rd (R.AX_ENC_CNT_CNT n)) ∧
    t.axis n = { s.axis n with armed := if s.rd (R.AX_ENC_IDX_CLR n) = 1 then false else (s.axis n).armed } ∧
    RegsBut [R.AX_ENC_IDX_IDX n, R.AX_ENC_IDX_VALID n, R.AX_ENC_CNT_CNT n] s t ∧ AxisOnly n s t) ∧
  -- ENC_CNT_WRITE (R333): A write of the count; a change of the levels in the same cycle counts from the written value.
  (∀ (s : State) (w : Who) (n : Fin 12) (v : BitVec 32) (e : Option (Bool × Bool)), s.takes w (0x10008C + 0x1000 * n) v.toNat = true → 
    Leads s (.encCntWrite w n v e) fun t => t.rd (R.AX_ENC_CNT_CNT n) = (match e with | some (a, b) => ux 32 ((v.toNat : Int) + (s.encDelta n a b).1) | none => v.toNat) ∧
    RegsBut [R.AX_ENC_CNT_CNT n, R.AX_CNT2_QERR n] s t ∧ (∀ x, x ≠ n.val → t.axis x = s.axis x) ∧ t = { s with regs := t.regs, axes := t.axes, answer := t.answer }) ∧
  -- IDX_ARM (R333): idxArm
  (∀ (s : State) (w : Who) (n : Fin 12) (v : BitVec 32), n < s.axes.length → s.takes w (0x100088 + 0x1000 * n) (v ||| 0x1000).toNat = true → 
    Leads s (.idxArm w n v) fun t => t.axis n = { s.axis n with armed := true } ∧ t.rd (R.AX_ENC_IDX_CLR n) = bits v.toNat 10 2 ∧
    RegsBut [R.AX_ENC_ENC_MODE n, R.AX_ENC_FILT n, R.AX_ENC_IDX_CLR n, R.AX_ENC_IDX_VALID n, R.AX_ENC_VBUS_SEL n] s t ∧ AxisWritten n s t)

/-- What 8 commands of the Bellows and the clocks do, from GRANT_WINDOW_START to BELLOWS_VOK_FALL. For each of the commands GRANT_WINDOW_START, OP_TGT_WRITE, SUPPLY_SETTLED, TILE_PLL_LOCK, RELOCK_SWITCH_BACK, TILE_LOCK_TIMEOUT, PLL_LOCK_LOSS, BELLOWS_VOK_FALL: in every state and with all operands that meet the conditions of its clause, exec answers a next state, of which the clause gives the values that the rules of the command put there and which equals the state before in everything that the clause does not list. -/
def Obligations.BellowsGrants : Prop :=
  -- GRANT_WINDOW_START (R486): A window start without a forced action, MOTION_ONLY or AUTO_OP: the sensors are sampled, the budget is allotted, the balances and BEL_WIN follow.
  (∀ (s s0 s1 : State) (xs : List (Option (BitVec 12))) (hot w : Int) (a bal : Int × Int × Int), s0 = s.sampleAll xs → hot = s0.tHot → s1 = s0.heat hot → w = s1.windowBudget hot → a = s1.allot w → (s1.on R.BEL_STAT_MOTION = false ∧ s1.on R.BEL_STAT_FORCED = false ∧ s1.on R.BEL_CTRL_AUTO_OP = false) → bal = windowBalances (s1.on R.BEL_CTRL_SPILL && !s1.on R.GLOBAL_MODE_REPRO) (s1.rdS R.BEL_BAL_C_BAL) (s1.rdS R.BEL_BAL_P_BAL) (s1.rdS R.BEL_BAL_B_BAL) a.1 a.2.1 a.2.2 → 
    Leads s (.grantWindowStart xs) fun t => t.rd R.BEL_BAL_C_BAL = ux 32 bal.1 ∧ t.rd R.BEL_BAL_P_BAL = ux 32 bal.2.1 ∧ t.rd R.BEL_BAL_B_BAL = ux 32 bal.2.2 ∧
    t.rd R.BEL_WIN_W = w.toNat % 2 ^ 9 ∧ t.rd R.BEL_WIN_T_HOT = ux 12 hot ∧ (∀ j < 16, ∀ x ∈ xs.getD j none, t.rd (R.BEL_TEMP_TEMP j) = x.toNat ∧ t.on (R.BEL_TEMP_VALID j) = tempOk x.toInt) ∧
    RegsBut [R.BEL_BAL_C_BAL, R.BEL_BAL_P_BAL, R.BEL_BAL_B_BAL, R.BEL_WIN_W, R.BEL_WIN_T_HOT] s1 t ∧ t = { s1 with regs := t.regs, opSince := min 4096 (s1.opSince + 1) }) ∧
  -- GRANT_WINDOW_START (R486): Under MOTION_ONLY the classes P and B get no allotment.
  (∀ (s s0 s1 : State) (xs : List (Option (BitVec 12))) (hot w : Int) (a bal : Int × Int × Int), s0 = s.sampleAll xs → hot = s0.tHot → s1 = s0.heat hot → w = s1.windowBudget hot → a = s1.allot w → (s1.on R.BEL_STAT_MOTION = true ∧ s1.on R.BEL_CTRL_AUTO_OP = false) → bal = windowBalances (s1.on R.BEL_CTRL_SPILL && !s1.on R.GLOBAL_MODE_REPRO) (s1.rdS R.BEL_BAL_C_BAL) (s1.rdS R.BEL_BAL_P_BAL) (s1.rdS R.BEL_BAL_B_BAL) a.1 0 0 → 
    Leads s (.grantWindowStart xs) fun t => t.rd R.BEL_BAL_C_BAL = ux 32 bal.1 ∧ t.rd R.BEL_BAL_P_BAL = ux 32 bal.2.1 ∧ t.rd R.BEL_BAL_B_BAL = ux 32 bal.2.2 ∧
    t.rd R.BEL_WIN_W = w.toNat % 2 ^ 9 ∧ t.rd R.BEL_WIN_T_HOT = ux 12 hot ∧ RegsBut [R.BEL_BAL_C_BAL, R.BEL_BAL_P_BAL, R.BEL_BAL_B_BAL, R.BEL_WIN_W, R.BEL_WIN_T_HOT] s1 t ∧
    t = { s1 with regs := t.regs, opSince := min 4096 (s1.opSince + 1) }) ∧
  -- OP_TGT_WRITE (R501, R504): A target above the current point, clamped into OP_MIN to OP_MAX: its supply code is driven first.
  (∀ (s : State) (w : Who) (v : BitVec 32) (tgt : Nat), s.takes w 0x10004 v.toNat = true → tgt = max (s.rd R.BEL_THERM2_OP_MIN) (min (bits v.toNat 0 3) (s.rd R.BEL_THERM2_OP_MAX)) → (s.opChange.phase = 0 ∧ s.on R.BEL_STAT_MOTION = false) → s.rd R.CLK_OP_OP_CUR < tgt → 
    Leads s (.opTgtWrite w v) fun t => t.rd R.CLK_OP_OP_TGT = tgt % 8 ∧ t.on R.CLK_OP_BUSY = true ∧ t.opChange = ⟨1, tgt⟩ ∧ t.vid = tgt ∧ t.vidChanged = true ∧
    RegsBut [R.CLK_OP_OP_TGT, R.CLK_OP_BUSY] s t ∧ t = { s with regs := t.regs, opChange := t.opChange, vid := t.vid, vidChanged := t.vidChanged, answer := t.answer }) ∧
  -- OP_TGT_WRITE (R501, R504): A target below the current point, or a return from the safe clock: the relock begins at once.
  (∀ (s : State) (w : Who) (v : BitVec 32) (tgt : Nat), s.takes w 0x10004 v.toNat = true → tgt = max (s.rd R.BEL_THERM2_OP_MIN) (min (bits v.toNat 0 3) (s.rd R.BEL_THERM2_OP_MAX)) → (s.opChange.phase = 0 ∧ s.on R.BEL_STAT_MOTION = false) → (tgt < s.rd R.CLK_OP_OP_CUR ∨ (tgt = s.rd R.CLK_OP_OP_CUR ∧ s.on R.CLK_STAT_ON_SAFE = true)) → 
    Leads s (.opTgtWrite w v) fun t => t.rd R.CLK_OP_OP_TGT = tgt % 8 ∧ t.on R.CLK_OP_BUSY = true ∧ t.on R.CLK_STAT_ON_SAFE = true ∧ t.on R.CLK_STAT_TILE_LOCK = false ∧ t.opChange = ⟨2, tgt⟩ ∧
    RegsBut [R.CLK_OP_OP_TGT, R.CLK_OP_BUSY, R.CLK_STAT_ON_SAFE, R.CLK_STAT_TILE_LOCK] s t ∧ t = { s with regs := t.regs, opChange := t.opChange, answer := t.answer }) ∧
  -- OP_TGT_WRITE (R501, R504): During a change or in MOTION_ONLY the target is kept for later.
  (∀ (s : State) (w : Who) (v : BitVec 32) (tgt : Nat), s.takes w 0x10004 v.toNat = true → tgt = max (s.rd R.BEL_THERM2_OP_MIN) (min (bits v.toNat 0 3) (s.rd R.BEL_THERM2_OP_MAX)) → (s.opChange.phase ≠ 0 ∨ s.on R.BEL_STAT_MOTION = true) → 
    Leads s (.opTgtWrite w v) fun t => t.rd R.CLK_OP_OP_TGT = tgt % 8 ∧ RegsBut [R.CLK_OP_OP_TGT] s t ∧ t = { s with regs := t.regs, answer := t.answer }) ∧
  -- SUPPLY_SETTLED (R501): The supply has settled on a raised code: the relock begins.
  (∀ (s : State), s.opChange.phase = 1 → 
    Leads s .supplySettled fun t => t.vok = true ∧ t.vidChanged = false ∧ t.opChange = ⟨2, s.opChange.target⟩ ∧ t.on R.CLK_STAT_ON_SAFE = true ∧ t.on R.CLK_STAT_TILE_LOCK = false ∧ t.on R.CLK_OP_BUSY = true ∧
    RegsBut [R.CLK_STAT_ON_SAFE, R.CLK_STAT_TILE_LOCK, R.CLK_OP_BUSY] s t ∧ t = { s with regs := t.regs, opChange := t.opChange, vok := true, vidChanged := false }) ∧
  -- SUPPLY_SETTLED (R501): With no raised point waiting only the supply's state changes.
  (∀ (s : State), s.opChange.phase ≠ 1 → 
    Leads s .supplySettled fun t => t = { s with vok := true, vidChanged := false }) ∧
  -- TILE_PLL_LOCK (R502): tilePllLock
  (∀ (s : State), s.opChange.phase = 2 → 
    Leads s .tilePllLock fun t => t.on R.CLK_STAT_TILE_LOCK = true ∧ t.opChange = { s.opChange with phase := 3 } ∧ RegsBut [R.CLK_STAT_TILE_LOCK] s t ∧ t = { s with regs := t.regs, opChange := t.opChange }) ∧
  -- RELOCK_SWITCH_BACK (R502): The switch-back with no other target written meanwhile: the change has ended.
  (∀ (s : State), s.opChange.phase = 3 → s.rd R.CLK_OP_OP_TGT = s.opChange.target % 8 → 
    Leads s .relockSwitchBack fun t => t.rd R.CLK_OP_OP_CUR = s.opChange.target % 8 ∧ t.on R.CLK_STAT_ON_SAFE = false ∧ t.on R.CLK_OP_BUSY = false ∧ t.rd R.CLK_CNT_RELOCKS = satAdd 16 (s.rd R.CLK_CNT_RELOCKS) 1 ∧
    t.opChange = {} ∧ t.opSince = 0 ∧ t.vid = s.opChange.target ∧ t.vidChanged = (s.vidChanged || decide (s.opChange.target < s.vid)) ∧
    RegsBut [R.CLK_OP_OP_CUR, R.CLK_STAT_ON_SAFE, R.CLK_OP_BUSY, R.CLK_CNT_RELOCKS] s t ∧ t = { s with regs := t.regs, opChange := t.opChange, opSince := 0, vid := t.vid, vidChanged := t.vidChanged }) ∧
  -- TILE_LOCK_TIMEOUT (R511): LOCK_MAX passed in a relock: the lock has failed.
  (∀ (s : State), s.opChange.phase = 2 → 
    Leads s .tileLockTimeout fun t => TileLockFailed s t) ∧
  -- PLL_LOCK_LOSS (R499): A loss of lock of the tile PLL while it is locked.
  (∀ (s : State), s.on R.CLK_STAT_TILE_LOCK = true → 
    Leads s (.pllLockLoss 2) fun t => TileLockFailed s t) ∧
  -- PLL_LOCK_LOSS (R499): A loss of lock of the control or the fabric PLL is reported to the island.
  (∀ (s : State) (pll : Fin 4), pll.val < 2 → 
    Leads s (.pllLockLoss pll) fun t => t.on (if pll.val = 0 then R.CLK_STAT_CTRL_LOCK else R.CLK_STAT_FAB_LOCK) = false ∧ t.reports = s.reports ++ [(if pll.val = 0 then 0x01 else 0x09, 0)] ∧
    RegsBut [if pll.val = 0 then R.CLK_STAT_CTRL_LOCK else R.CLK_STAT_FAB_LOCK] s t ∧ t = { s with regs := t.regs, reports := t.reports }) ∧
  -- BELLOWS_VOK_FALL (R515): A fall of BELLOWS_VOK not due to a change of the code: it is reported and the tile clock goes to OP0.
  (∀ (s : State), s.vidChanged = false → (s.opChange.phase = 0 ∧ s.on R.BEL_STAT_MOTION = false) → 0 < s.rd R.CLK_OP_OP_CUR → 
    Leads s .bellowsVokFall fun t => t.vok = false ∧ t.on R.CLK_STAT_VOK_LOST = true ∧ t.reports = s.reports ++ [(0x0B, 0)] ∧ t.rd R.CLK_OP_OP_TGT = 0 ∧ t.opChange = ⟨2, 0⟩ ∧
    t.on R.CLK_STAT_ON_SAFE = true ∧ t.on R.CLK_STAT_TILE_LOCK = false ∧ t.on R.CLK_OP_BUSY = true ∧
    RegsBut [R.CLK_STAT_VOK_LOST, R.CLK_OP_OP_TGT, R.CLK_STAT_ON_SAFE, R.CLK_STAT_TILE_LOCK, R.CLK_OP_BUSY] s t ∧ t = { s with regs := t.regs, reports := t.reports, vok := false, opChange := t.opChange }) ∧
  -- BELLOWS_VOK_FALL (R515): A fall while the code has changed is not counted.
  (∀ (s : State), s.vidChanged = true → 
    Leads s .bellowsVokFall fun t => t = { s with vok := false })

/-- What the commands of the Bellows and the clocks do: BEL_PWR_DN, RAS_DN, POWER_RETURN, MOTION_ONLY. For each of the commands BEL_PWR_DN, RAS_DN, POWER_RETURN, MOTION_ONLY: in every state and with all operands that meet the conditions of its clause, exec answers a next state, of which the clause gives the values that the rules of the command put there and which equals the state before in everything that the clause does not list. -/
def Obligations.BellowsPower : Prop :=
  -- BEL_PWR_DN (R505): A tile in QUARANTINE is powered down by its bit: its unit state says so and its stores lose their contents.
  (∀ (s : State) (w : Who) (i : Fin 2) (b : Fin 32) (v : BitVec 32) (u : Nat), s.takes w (0x20030 + 4 * i) v.toNat = true → u = 32 * i + b → bit (s.rd (R.BEL_PWR_DN_DN i)) b = false → v.toNat = s.rd (R.BEL_PWR_DN_DN i) + 2 ^ b.val → ((s.unitSt u).state = 2 ∧ s.tileOn u = true) → 
    Leads s (.belPwrDn w i v) fun t => t.rd (R.BEL_PWR_DN_DN i) = v.toNat ∧ t.unitSt u = { s.unitSt u with powered := false, bistPass := false, bistRun := false, zeroed := false, dirty := false } ∧
    (∀ x, x ≠ u → t.unitSt x = s.unitSt x) ∧ t.unknown.contains u = true ∧ RegsBut [R.BEL_PWR_DN_DN i] s t ∧
    t = { s with regs := t.regs, units := t.units, mem := t.mem, unknown := t.unknown, lostPages := t.lostPages, ecc := t.ecc, answer := t.answer }) ∧
  -- BEL_PWR_DN (R505): A power-down of a tile that is not in QUARANTINE is rejected.
  (∀ (s : State) (w : Who) (i : Fin 2) (b : Fin 32) (v : BitVec 32) (u : Nat), s.takes w (0x20030 + 4 * i) v.toNat = true → u = 32 * i + b → bit (s.rd (R.BEL_PWR_DN_DN i)) b = false → v.toNat = s.rd (R.BEL_PWR_DN_DN i) + 2 ^ b.val → ((s.unitSt u).state ≠ 2 ∨ s.tileOn u = false) → 
    Leads s (.belPwrDn w i v) fun t => t.on R.BEL_STAT_PWR_REJ = true ∧ RegsBut [R.BEL_STAT_PWR_REJ] s t ∧ t = { s with regs := t.regs, answer := t.answer }) ∧
  -- RAS_DN (R505): The raster unit, idle and disabled, is powered down.
  (∀ (s : State) (w : Who), s.takes w 0x20040 1 = true → s.on R.BEL_PWR_MISC_RAS_DN = false → (s.rd R.RAS_STAT_STATE = 0 ∧ s.on (R.SEQ_CTRL_ENABLE 0x210000) = false) → 
    Leads s (.rasDn w true) fun t => t.on R.BEL_PWR_MISC_RAS_DN = true ∧ t.on R.BEL_PWR_MISC_RAS_ON = false ∧ RegsBut [R.BEL_PWR_MISC_RAS_DN, R.BEL_PWR_MISC_RAS_ON] s t ∧ t = { s with regs := t.regs, answer := t.answer }) ∧
  -- RAS_DN (R505): A raster unit at work or enabled stays on.
  (∀ (s : State) (w : Who), s.takes w 0x20040 1 = true → s.on R.BEL_PWR_MISC_RAS_DN = false → (s.rd R.RAS_STAT_STATE ≠ 0 ∨ s.on (R.SEQ_CTRL_ENABLE 0x210000) = true) → 
    Leads s (.rasDn w true) fun t => t.on R.BEL_STAT_PWR_REJ = true ∧ RegsBut [R.BEL_STAT_PWR_REJ] s t ∧ t = { s with regs := t.regs, answer := t.answer }) ∧
  -- RAS_DN (R505): A written 0 asks for the power again.
  (∀ (s : State) (w : Who), s.takes w 0x20040 0 = true → 
    Leads s (.rasDn w false) fun t => t.on R.BEL_PWR_MISC_RAS_DN = false ∧ RegsBut [R.BEL_PWR_MISC_RAS_DN] s t ∧ t = { s with regs := t.regs, answer := t.answer }) ∧
  -- POWER_RETURN (R506): Power has returned to a tile that was asked back: it is powered, its stores hold nothing known.
  (∀ (s : State) (u : Fin 64), (s.unitSt u).powered = false → bit (s.rd (R.BEL_PWR_DN_DN (u / 32))) (u % 32) = false → 
    Leads s (.powerReturn (some u)) fun t => t.unitSt u = { s.unitSt u with powered := true } ∧ (∀ x, x ≠ u.val → t.unitSt x = s.unitSt x) ∧ t.unknown.contains u.val = true ∧
    t = { s with units := t.units, mem := t.mem, unknown := t.unknown, lostPages := t.lostPages, ecc := t.ecc }) ∧
  -- POWER_RETURN (R506): Power has returned to the raster unit.
  (∀ (s : State), s.on R.BEL_PWR_MISC_RAS_DN = false → 
    Leads s (.powerReturn none) fun t => t.on R.BEL_PWR_MISC_RAS_ON = true ∧ RegsBut [R.BEL_PWR_MISC_RAS_ON] s t ∧ t = { s with regs := t.regs }) ∧
  -- MOTION_ONLY (R507): MOTION_ONLY with every tile and the raster unit down: the tile PLL stops at the code of OP0.
  (∀ (s : State) (w : Who) (v : BitVec 32), s.takes w 0x20000 v.toNat = true → bit v.toNat 3 = true → (s.on R.BEL_STAT_MOTION = false ∧ s.allDown = true) → 
    Leads s (.motionOnly w v) fun t => t.on R.BEL_CTRL_MOTION_ONLY = true ∧ t.on R.BEL_STAT_MOTION = true ∧ t.on R.CLK_STAT_TILE_LOCK = false ∧ t.rd R.CLK_OP_OP_CUR = 0 ∧ t.on R.CLK_OP_BUSY = false ∧ t.on R.CLK_STAT_ON_SAFE = true ∧
    t.rd R.BEL_CTRL_AUTO_OP = bits v.toNat 0 1 ∧ t.rd R.BEL_CTRL_SPILL = bits v.toNat 1 1 ∧ t.rd R.BEL_CTRL_IRQ_EN = bits v.toNat 2 1 ∧ t.opChange = {} ∧ t.vid = 0 ∧ t.vidChanged = true ∧
    RegsBut [R.BEL_CTRL_MOTION_ONLY, R.BEL_STAT_MOTION, R.CLK_STAT_TILE_LOCK, R.CLK_OP_OP_CUR, R.CLK_OP_BUSY, R.CLK_STAT_ON_SAFE, R.BEL_CTRL_AUTO_OP, R.BEL_CTRL_SPILL, R.BEL_CTRL_IRQ_EN] s t ∧
    t = { s with regs := t.regs, opChange := {}, vid := 0, vidChanged := true, answer := t.answer }) ∧
  -- MOTION_ONLY (R507): MOTION_ONLY while a tile or the raster unit has power is rejected.
  (∀ (s : State) (w : Who) (v : BitVec 32), s.takes w 0x20000 v.toNat = true → bit v.toNat 3 = true → (s.on R.BEL_STAT_MOTION = false ∧ s.allDown = false) → 
    Leads s (.motionOnly w v) fun t => t.on R.BEL_CTRL_MOTION_ONLY = false ∧ t.on R.BEL_STAT_PWR_REJ = true ∧ t.on R.BEL_STAT_MOTION = false ∧
    t.rd R.BEL_CTRL_AUTO_OP = bits v.toNat 0 1 ∧ t.rd R.BEL_CTRL_SPILL = bits v.toNat 1 1 ∧ t.rd R.BEL_CTRL_IRQ_EN = bits v.toNat 2 1 ∧
    RegsBut [R.BEL_CTRL_MOTION_ONLY, R.BEL_STAT_PWR_REJ, R.BEL_CTRL_AUTO_OP, R.BEL_CTRL_SPILL, R.BEL_CTRL_IRQ_EN] s t ∧ t = { s with regs := t.regs, answer := t.answer })

/-- What 14 commands of start-up do, from PORST_N_ASSERT to ISLAND_FIRMWARE_START. For each of the commands PORST_N_ASSERT, PORST_N_RELEASE, SYSRST_N_ASSERT, SYSRST_N_RELEASE, REFERENCE_ACCEPTANCE, PLL_LOCK_LIMIT, DIVIDER_ALIGNMENT, FUSE_READOUT, INIT_COMPLETE, IMAGE_LOAD, IMAGE_VERIFY, ISLAND_SRAM_ZEROED, ISLAND_SEGMENT_COPY, ISLAND_FIRMWARE_START: in every state and with all operands that meet the conditions of its clause, exec answers a next state, of which the clause gives the values that the rules of the command put there and which equals the state before in everything that the clause does not list. -/
def Obligations.StartUp : Prop :=
  -- PORST_N_ASSERT (R741): porstNAssert
  (∀ (s : State), 
    Leads s .porstNAssert fun t => t.boot = { State.reset.boot with porst := true, fuseA := s.boot.fuseA, fuseB := s.boot.fuseB, banksLost := s.boot.banksLost } ∧ t.stage = 0 ∧
    t.rd R.SF_STAT_SAFE_IN = s.rd R.SF_STAT_SAFE_IN % 2 ∧ RegsBut [R.BOOT_STAT_STAGE, R.SF_STAT_SAFE_IN] State.reset t ∧
    t = { State.reset with pending := s.pending, freeCtr := s.freeCtr, vok := s.vok, safeInHigh := s.safeInHigh, regs := t.regs, boot := t.boot }) ∧
  -- PORST_N_RELEASE (R743, R753): porstNRelease
  (∀ (s : State) (mode : Fin 4), s.boot.porst = true → 
    Leads s (.porstNRelease mode) fun t => t.stage = 1 ∧ t.rd R.BOOT_STAT_MODE = mode.val ∧ t.boot = { s.boot with porst := false } ∧ RegsBut [R.BOOT_STAT_STAGE, R.BOOT_STAT_MODE] s t ∧ t = { s with regs := t.regs, boot := t.boot }) ∧
  -- SYSRST_N_ASSERT (R764, R826): In the safe state, with no island request under way and no temperature code E: the blocks of R778 keep their registers, the others take their reset values.
  (∀ (s : State), (s.boot.porst = false ∧ s.sysrst = false) → (s.inSafe = true ∧ s.on R.ID_FUSE_TEMP = false) → (s.outst.any fun o => o.ini == 0x24 || o.ini == 0x27) = false → 
    Leads s .sysrstNAssert fun t => t.sysrst = true ∧ t.on R.BOOT_STAT_VERIFIED = false ∧ t.on R.BOOT_STAT_HOST_READY = false ∧
    t.stage = (if s.aligned = true ∧ s.boot.fusesRead = true ∧ 3 ≤ s.stage then 3 else s.stage) ∧
    (∀ f : Fld, keptField f.key = true → f.key ∉ [R.BOOT_STAT_STAGE.key, R.BOOT_STAT_VERIFIED.key, R.BOOT_STAT_HOST_READY.key] → t.rd f = s.rd f) ∧
    (∀ f : Fld, keptField f.key = false → t.rd f = f.rst) ∧ t.mem = s.mem ∧ t.ecc = s.ecc ∧ t.unknown = s.unknown ∧ t.now = s.now ∧ t.fw = s.fw ∧ t.fwLocked = s.fwLocked ∧
    t.pending = s.pending ∧ t.boot = { s.boot with header := [], hostGo := false, coresRun := false, mgmtEntry := 0 } ∧ t.axes = State.reset.axes ∧ t.units = State.reset.units ∧ t.drones = State.reset.drones) ∧
  -- SYSRST_N_ASSERT (R764, R826): Outside the safe state the assertion brings the part into it.
  (∀ (s : State), (s.boot.porst = false ∧ s.sysrst = false) → s.inSafe = false → 
    Leads s .sysrstNAssert fun t => t.sysrst = true ∧ t.inSafe = true ∧ t.rd R.SF_CAUSE_SOURCE = 0x7D ∧ t.on R.SF_CAUSE_VALID = true ∧ t.sfTime = s.sysTime ∧ t.pending = s.pending ∧ t.mem = s.mem) ∧
  -- SYSRST_N_RELEASE (R764): sysrstNRelease
  (∀ (s : State), 
    Leads s .sysrstNRelease fun t => t = { s with sysrst := false }) ∧
  -- REFERENCE_ACCEPTANCE (R744): Each of the four counts lies in 96 to 160: the reference is accepted.
  (∀ (s : State) (n1 n2 n3 n4 : Fin 256), (s.stage = 1 ∧ s.boot.refOk = false ∧ s.boot.porst = false) → ((96 ≤ n1.val ∧ n1.val ≤ 160) ∧ (96 ≤ n2.val ∧ n2.val ≤ 160) ∧ (96 ≤ n3.val ∧ n3.val ≤ 160) ∧ 96 ≤ n4.val ∧ n4.val ≤ 160) → 
    Leads s (.referenceAcceptance n1 n2 n3 n4) fun t => t = { s with boot := { s.boot with refOk := true } }) ∧
  -- REFERENCE_ACCEPTANCE (R744): A count outside keeps CLOCKS waiting.
  (∀ (s : State) (n1 n2 n3 n4 : Fin 256), ((n1.val < 96 ∨ 160 < n1.val) ∨ (n2.val < 96 ∨ 160 < n2.val) ∨ (n3.val < 96 ∨ 160 < n3.val) ∨ n4.val < 96 ∨ 160 < n4.val) → 
    Leads s (.referenceAcceptance n1 n2 n3 n4) fun t => t = s) ∧
  -- PLL_LOCK_LIMIT (R744): A PLL has not locked: boot stops with cause 2.
  (∀ (s : State) (ctrl fab tile serdes : Bool), (s.stage = 1 ∧ s.boot.refOk = true ∧ s.aligned = false) → (ctrl && fab && tile && serdes) = false → 
    Leads s (.pllLockLimit ctrl fab tile serdes) fun t => t.stage = 0xF ∧ t.rd R.BOOT_STAT_CAUSE = 2 ∧ t.on R.CLK_STAT_CTRL_LOCK = ctrl ∧ t.on R.CLK_STAT_FAB_LOCK = fab ∧ t.on R.CLK_STAT_TILE_LOCK = tile ∧
    t.on R.CLK_STAT_SERDES_LOCK = serdes ∧ RegsBut [R.BOOT_STAT_STAGE, R.BOOT_STAT_CAUSE, R.CLK_STAT_CTRL_LOCK, R.CLK_STAT_FAB_LOCK, R.CLK_STAT_TILE_LOCK, R.CLK_STAT_SERDES_LOCK] s t ∧ t = { s with regs := t.regs }) ∧
  -- PLL_LOCK_LIMIT (R744): All have locked: CLOCKS waits for the alignment edge.
  (∀ (s : State), (s.stage = 1 ∧ s.boot.refOk = true ∧ s.aligned = false) → 
    Leads s (.pllLockLimit true true true true) fun t => t.stage = 1 ∧ t.on R.CLK_STAT_CTRL_LOCK = true ∧ t.on R.CLK_STAT_FAB_LOCK = true ∧ t.on R.CLK_STAT_TILE_LOCK = true ∧ t.on R.CLK_STAT_SERDES_LOCK = true ∧
    RegsBut [R.CLK_STAT_CTRL_LOCK, R.CLK_STAT_FAB_LOCK, R.CLK_STAT_TILE_LOCK, R.CLK_STAT_SERDES_LOCK] s t ∧ t = { s with regs := t.regs }) ∧
  -- DIVIDER_ALIGNMENT (R745): dividerAlignment
  (∀ (s : State), (s.stage = 1 ∧ s.boot.refOk = true ∧ s.aligned = false ∧ s.boot.porst = false) → 
    Leads s .dividerAlignment fun t => t.stage = 2 ∧ t.aligned = true ∧ t.now = 0 ∧ t.sysAcc = 0 ∧ t.boot = { s.boot with rom := 1 } ∧
    t.on R.CLK_STAT_CTRL_LOCK = true ∧ t.on R.CLK_STAT_FAB_LOCK = true ∧ t.on R.CLK_STAT_TILE_LOCK = true ∧ t.on R.CLK_STAT_SERDES_LOCK = true ∧
    RegsBut [R.BOOT_STAT_STAGE, R.CLK_STAT_CTRL_LOCK, R.CLK_STAT_FAB_LOCK, R.CLK_STAT_TILE_LOCK, R.CLK_STAT_SERDES_LOCK] s t ∧ t = { s with regs := t.regs, aligned := true, now := 0, sysAcc := 0, boot := t.boot }) ∧
  -- FUSE_READOUT (R747): Good fuses without the temperature code: the shadow registers hold them and INIT follows.
  (∀ (s : State), (s.stage = 2 ∧ s.fusesBad = false ∧ s.boot.fuseA.temp = false) → 
    Leads s .fuseReadout fun t => t.stage = 3 ∧ t.boot = { s.boot with fusesRead := true } ∧ t.rd R.ID_FUSE_GRADE = s.boot.fuseA.grade ∧ t.on R.ID_FUSE_SECURE = s.boot.fuseA.secure ∧ t.on R.ID_FUSE_DEBUG_LOCK = s.boot.fuseA.debugLock ∧
    t.rd R.ID_TILE_MAP_LO_TILE_MAP = s.boot.fuseA.tileMap % 2 ^ 32 ∧ t.rd R.ID_TILE_MAP_HI_TILE_MAP = s.boot.fuseA.tileMap / 2 ^ 32 % 2 ^ 32 ∧ t.rd R.ID_SERIAL_LO_SERIAL = s.boot.fuseA.serial % 2 ^ 32 ∧
    t.rd R.ID_ROLLBACK_LO_ROLLBACK = s.boot.fuseA.rollback % 2 ^ 32 ∧ (∀ j < 8, t.rd (R.ID_KEY_HASH_KEY_HASH j) = s.boot.fuseA.keyHash / 2 ^ (32 * j) % 2 ^ 32) ∧
    (∀ k < 64, t.on (R.TILE_ID_ENABLED k) = !bit s.boot.fuseA.tileMap k) ∧
    RegsBut ([R.BOOT_STAT_STAGE, R.GLOBAL_ID_STEPPING, R.ID_FUSE_GRADE, R.ID_FUSE_TEMP, R.ID_FUSE_ENABLED, R.ID_FUSE_SECURE, R.ID_FUSE_DEBUG_LOCK, R.ID_FUSE_STARTUP_BIST, R.ID_FUSE_HOST_RECOVERY, R.ID_TILE_MAP_LO_TILE_MAP, R.ID_TILE_MAP_HI_TILE_MAP,
      R.ID_SERIAL_LO_SERIAL, R.ID_SERIAL_HI_SERIAL, R.ID_ROLLBACK_LO_ROLLBACK, R.ID_ROLLBACK_HI_ROLLBACK, R.BOOT_IMG_COUNT] ++ (List.range 8).map R.ID_KEY_HASH_KEY_HASH ++ (List.range 64).map R.TILE_ID_ENABLED) s t ∧ t = { s with regs := t.regs, boot := t.boot }) ∧
  -- FUSE_READOUT (R747): Fuses whose copies differ, or of no grade of R747, stop boot with cause 3.
  (∀ (s : State), (s.stage = 2 ∧ s.fusesBad = true) → 
    Leads s .fuseReadout fun t => t.stage = 0xF ∧ t.rd R.BOOT_STAT_CAUSE = 3 ∧ RegsBut [R.BOOT_STAT_STAGE, R.BOOT_STAT_CAUSE] s t ∧ t = { s with regs := t.regs }) ∧
  -- INIT_COMPLETE (R750, R751): INIT without the start-up self-test in flash mode: the memories are zeroed and LOAD takes the primary copy.
  (∀ (s : State) (fails : List (Fin 128)), (s.stage = 3 ∧ s.sysrst = false ∧ s.on R.ID_FUSE_STARTUP_BIST = false) → s.initZero.rd R.BOOT_STAT_MODE = 0 → 
    Leads s (.initComplete fails) fun t => t.stage = 4 ∧ t.boot = { s.initZero.boot with copy := 0, hostBoot := false } ∧ (∀ b, s.initMems.contains (memCode b) = true → t.getByte b = 0) ∧
    RegsBut [R.BOOT_STAT_STAGE] s.initZero t ∧ t = { s.initZero with regs := t.regs, boot := t.boot }) ∧
  -- INIT_COMPLETE (R750, R751): A boot mode that R753 does not give stops boot with cause 4.
  (∀ (s : State) (fails : List (Fin 128)), (s.stage = 3 ∧ s.sysrst = false ∧ s.on R.ID_FUSE_STARTUP_BIST = false) → 2 ≤ s.initZero.rd R.BOOT_STAT_MODE → 
    Leads s (.initComplete fails) fun t => t.stage = 0xF ∧ t.rd R.BOOT_STAT_CAUSE = 4 ∧ RegsBut [R.BOOT_STAT_STAGE, R.BOOT_STAT_CAUSE] s.initZero t ∧ t = { s.initZero with regs := t.regs }) ∧
  -- IMAGE_LOAD (R754, R758): A copy from flash with a good header whose segments lie in it and in banks that serve: the segments are at their destinations and VERIFY follows.
  (∀ (s : State) (img : List Byte), (s.stage = 4 ∧ s.sysrst = false ∧ s.boot.copy ≠ 2) → headerOk (img.take 512) = true → ((segsOf (img.take 512)).any (s.segBank false)) = false → (segsOf (img.take 512)).all (fun g => decide (g.ofs + g.len ≤ img.length)) = true → 
    Leads s (.imageLoad (some img)) fun t => t.stage = 5 ∧ t.boot = { s.boot with header := img.take 512 } ∧ RegsBut [R.BOOT_STAT_STAGE] (s.loadSegs img (segsOf (img.take 512))) t ∧
    t = { s.loadSegs img (segsOf (img.take 512)) with regs := t.regs, boot := t.boot }) ∧
  -- IMAGE_LOAD (R754, R758): A read error, a short or bad header, a bank in QUARANTINE or a segment past the end: the copy fails with its cause.
  (∀ (s : State) (img : Option (List Byte)) (cause : Nat), (s.stage = 4 ∧ s.sysrst = false ∧ s.boot.copy ≠ 2) → ((img = none ∧ cause = 5) ∨ (∃ l ∈ img, (l.length < 512 ∧ cause = 5) ∨ (512 ≤ l.length ∧ headerOk (l.take 512) = false ∧ cause = 6) ∨ (512 ≤ l.length ∧ headerOk (l.take 512) = true ∧ (segsOf (l.take 512)).any (s.segBank false) = true ∧ cause = 10))) → 
    Leads s (.imageLoad img) fun t => CopyFailed s t cause) ∧
  -- IMAGE_VERIFY (R756): The checks of R756 pass: the digest and the copy are shown and READY follows.
  (∀ (s : State) (d : List Byte), (s.stage = 5 ∧ s.sysrst = false) → d = sha256 s.bootBytes → s.verifyCode d = 0 → 
    Leads s .imageVerify fun t => t.stage = 6 ∧ t.on R.BOOT_STAT_VERIFIED = true ∧ t.rd R.BOOT_STAT_SRC = s.boot.copy % 4 ∧ t.rd R.BOOT_IMG_ROLLBACK = pb s.boot.header 8 4 % 128 ∧
    (∀ j < 8, t.rd (R.BOOT_DIGEST_DIGEST j) = pb d (4 * j) 4 % 2 ^ 32) ∧
    RegsBut ([R.BOOT_STAT_STAGE, R.BOOT_STAT_VERIFIED, R.BOOT_STAT_SRC, R.BOOT_IMG_ROLLBACK] ++ (List.range 8).map R.BOOT_DIGEST_DIGEST) s t ∧ t = { s with regs := t.regs }) ∧
  -- ISLAND_SRAM_ZEROED (R757): Every word passed its check: the island SRAM is zero and the ROM waits for the image.
  (∀ (s : State), s.boot.rom = 1 → 
    Leads s (.islandSramZeroed true) fun t => (∀ b, memCode b = 0x65 → t.getByte b = 0) ∧ t.boot = { s.boot with rom := 2 } ∧ RegsBut [] s t ∧ t = { s with mem := t.mem, unknown := t.unknown, lostPages := t.lostPages, ecc := t.ecc, boot := t.boot }) ∧
  -- ISLAND_SRAM_ZEROED (R757): A word failed its check: boot stops with cause 11.
  (∀ (s : State), s.boot.rom = 1 → 
    Leads s (.islandSramZeroed false) fun t => t.stage = 0xF ∧ t.rd R.BOOT_STAT_CAUSE = 11 ∧ RegsBut [R.BOOT_STAT_STAGE, R.BOOT_STAT_CAUSE] s t ∧ t = { s with regs := t.regs }) ∧
  -- ISLAND_SEGMENT_COPY (R757): The ISLAND segment of the verified image is copied into the island SRAM.
  (∀ (s : State) (g : Segment), (s.boot.rom = 2 ∧ s.on R.BOOT_STAT_VERIFIED = true) → s.islandSeg = some g → 
    Leads s .islandSegmentCopy fun t => (∀ i < g.len, t.getByte ((memRange 0x65).1 + g.isl + i) = s.getByte (wcBase + g.dest + i)) ∧
    (∀ b, b < (memRange 0x65).1 + g.isl ∨ (memRange 0x65).1 + g.isl + g.len ≤ b → t.getByte b = s.getByte b) ∧ t.boot = { s.boot with rom := 3 } ∧ RegsBut [] s t ∧ t = { s with mem := t.mem, boot := t.boot }) ∧
  -- ISLAND_FIRMWARE_START (R757): islandFirmwareStart
  (∀ (s : State), s.boot.rom = 3 → 
    Leads s .islandFirmwareStart fun t => t = { s with boot := { s.boot with rom := 4, islandEntry := pb s.boot.header 24 4 } })

/-- What 10 commands of start-up do, from BOOT_DATA to BANK_SUPPLY_RETURN. For each of the commands BOOT_DATA, HOST_GO, MGMT_GO, HOST_READY, DBG_UNLOCK, PCIE_LINK_TRAINING, CONFIGURATION_REQUEST, JTAG_REQUEST, BANK_SUPPLY_LOSS, BANK_SUPPLY_RETURN: in every state and with all operands that meet the conditions of its clause, exec answers a next state, of which the clause gives the values that the rules of the command put there and which equals the state before in everything that the clause does not list. -/
def Obligations.BootCommands : Prop :=
  -- BOOT_DATA (R758): A word of a host image while one is staged goes to the next place of the staging area.
  (∀ (s : State) (w : Who) (v : BitVec 32) (n p code : Nat), s.takes w 0x7008 v.toNat = true → n = s.rd R.BOOT_WORDS_WORDS → p = wcBase + stageBase + 4 * n → code = 0x40 + (stageBase + 4 * n) / 0x100000 → (s.staging = true ∧ n < stageSize / 4) → (∀ wa ∈ wordsOf (eccWord code) p 4, tget 0 s.ecc wa = 0) → s.on R.MEM_INJ_CTRL_ARM = false → 
    Leads s (.bootData w v) fun t => (∀ b, t.getByte b = if p ≤ b ∧ b < p + 4 then (leBytes 4 v.toNat).getD (b - p) 0 else s.getByte b) ∧ t.rd R.BOOT_WORDS_WORDS = n + 1 ∧ RegsBut [R.BOOT_WORDS_WORDS] s t ∧
    t = { s with regs := t.regs, mem := t.mem, ecc := t.ecc, wb := t.wb, resv := t.resv, units := t.units, answer := t.answer }) ∧
  -- BOOT_DATA (R758): Otherwise, and past the staging area, the word is ignored and counted.
  (∀ (s : State) (w : Who) (v : BitVec 32), s.takes w 0x7008 v.toNat = true → (s.staging = false ∨ stageSize / 4 ≤ s.rd R.BOOT_WORDS_WORDS) → 
    Leads s (.bootData w v) fun t => t.rd R.BOOT_STAT_DATA_IGN = satAdd 16 (s.rd R.BOOT_STAT_DATA_IGN) 1 ∧ RegsBut [R.BOOT_STAT_DATA_IGN] s t ∧ t = { s with regs := t.regs, answer := t.answer }) ∧
  -- HOST_GO (R758, R770): hostGo
  (∀ (s : State) (w : Who), s.takes w 0x7004 4 = true → s.staging = true → 
    Leads s (.hostGo w) fun t => t.stage = 4 ∧ t.boot = { s.boot with copy := 2, hostGo := true } ∧ RegsBut [R.BOOT_STAT_STAGE] s t ∧ t = { s with regs := t.regs, boot := t.boot, answer := t.answer }) ∧
  -- HOST_GO (R758, R770): hostGo, rejected
  (∀ (s : State) (w : Who), s.takes w 0x7004 4 = true → s.staging = false → 
    Leads s (.hostGo w) fun t => t.on R.BOOT_STAT_GO_REJ = true ∧ RegsBut [R.BOOT_STAT_GO_REJ] s t ∧ t = { s with regs := t.regs, answer := t.answer }) ∧
  -- MGMT_GO (R759): In READY the island starts the management cores, and the Bellows its first change.
  (∀ (s : State) (w : Who), s.takes w 0x7004 1 = true → w.ini = 0x24 → (s.on R.BOOT_STAT_VERIFIED = true ∧ s.stage = 6) → (s.opChange.phase = 0 ∧ s.on R.BEL_STAT_MOTION = false ∧ s.rd R.CLK_OP_OP_CUR < s.rd R.CLK_OP_OP_TGT) → 
    Leads s (.mgmtGo w) fun t => t.stage = 7 ∧ t.boot = { s.boot with coresRun := true, mgmtEntry := pb s.boot.header 16 8 } ∧ t.on R.CLK_OP_BUSY = true ∧ t.opChange = ⟨1, s.rd R.CLK_OP_OP_TGT⟩ ∧
    t.vid = s.rd R.CLK_OP_OP_TGT ∧ RegsBut [R.BOOT_STAT_STAGE, R.CLK_OP_BUSY, R.CLK_OP_OP_TGT] s t ∧
    t = { s with regs := t.regs, boot := t.boot, opChange := t.opChange, vid := t.vid, vidChanged := true, answer := t.answer }) ∧
  -- MGMT_GO (R759): Without a verified image MGMT_GO is rejected.
  (∀ (s : State) (w : Who), s.takes w 0x7004 1 = true → w.ini = 0x24 → s.on R.BOOT_STAT_VERIFIED = false → 
    Leads s (.mgmtGo w) fun t => t.on R.BOOT_STAT_GO_REJ = true ∧ RegsBut [R.BOOT_STAT_GO_REJ] s t ∧ t = { s with regs := t.regs, answer := t.answer }) ∧
  -- HOST_READY (R763): From a management core; from others it is ignored.
  (∀ (s : State) (w : Who), s.takes w 0x7004 2 = true → 
    Leads s (.hostReady w) fun t => t.on R.BOOT_STAT_HOST_READY = (s.on R.BOOT_STAT_HOST_READY || (decide (0x20 ≤ w.ini) && decide (w.ini ≤ 0x23))) ∧ RegsBut [R.BOOT_STAT_HOST_READY] s t ∧ t = { s with regs := t.regs, answer := t.answer }) ∧
  -- DBG_UNLOCK (R772): From the island; from others it is ignored.
  (∀ (s : State) (w : Who), s.takes w 0x7004 8 = true → 
    Leads s (.dbgUnlock w) fun t => t.boot = (if w.ini = 0x24 then { s.boot with dbgOpened := true } else s.boot) ∧ RegsBut [] s t ∧ t = { s with boot := t.boot, answer := t.answer }) ∧
  -- PCIE_LINK_TRAINING (R762): The endpoint trains where R762 lets it, else not.
  (∀ (s : State), 
    Leads s .pcieLinkTraining fun t => t = { s with pcieUp := s.pcieUp || s.pcieMay }) ∧
  -- CONFIGURATION_REQUEST (R762): configurationRequest
  (∀ (s : State) (fn : Fin 32), s.pcieUp = true → 
    Leads s (.configurationRequest fn) fun t => t.answer.st = (if s.on R.BOOT_STAT_HOST_READY = true then .ok else if s.boot.hostBoot = true then (if fn.val = 0 then .ok else .nackAbsent) else .retry) ∧ t = { s with answer := t.answer }) ∧
  -- JTAG_REQUEST (R748, R772): Identification is always read; debug and scan are answered by an open port only.
  (∀ (s : State), s.boot.porst = false → 
    Leads s (.jtagRequest .identify) fun t => t.answer.st = .ok ∧ t.answer.value = s.rd R.GLOBAL_ID_PART + s.rd R.GLOBAL_ID_GEN * 2 ^ 16 + s.rd R.GLOBAL_ID_STEPPING * 2 ^ 20 ∧ t = { s with answer := t.answer }) ∧
  -- JTAG_REQUEST (R748, R772): jtagRequest, debug
  (∀ (s : State), s.boot.porst = false → 
    Leads s (.jtagRequest .debug) fun t => t.answer.st = (if s.boot.fuseA.debugLock = true ∧ s.boot.dbgOpened = false then .nackAbsent else .ok) ∧ t = { s with answer := t.answer }) ∧
  -- JTAG_REQUEST (R748, R772): A fuse word is programmed with the programming supply on, on a part whose DEBUG_LOCK is clear.
  (∀ (s : State) (field : Fin 11) (v : Nat), (s.boot.porst = false ∧ s.boot.fuseA.debugLock = false) → 
    Leads s (.jtagRequest (.program field v true)) fun t => t.answer.st = .ok ∧ t.boot = { s.boot with fuseA := s.boot.fuseA.program field v, fuseB := s.boot.fuseB.program field v } ∧ t = { s with boot := t.boot, answer := t.answer }) ∧
  -- BANK_SUPPLY_LOSS (R804): A bank other than that of SAFE_IN leaves its range; the inputs of bank 2 read 0.
  (∀ (s : State) (b : Fin 6), b.val ≠ 3 → 
    Leads s (.bankSupplyLoss b) fun t => t.boot = { s.boot with banksLost := b.val :: s.boot.banksLost.filter (· != b.val) } ∧ t.fioLv = (if b.val = 2 then 0 else s.fioLv) ∧ t = { s with boot := t.boot, fioLv := t.fioLv }) ∧
  -- BANK_SUPPLY_LOSS (R804): The loss of bank SYS reads as SAFE_IN low past its filter.
  (∀ (s : State), 
    Leads s (.bankSupplyLoss 3) fun t => t.boot.banksLost = 3 :: s.boot.banksLost.filter (· != 3) ∧ t.on R.SF_STAT_SAFE_IN = true ∧ t.reports = s.reports ++ [(0x03, 0)] ∧ t.safeInHigh = 0 ∧ RegsBut [R.SF_STAT_SAFE_IN] s t ∧
    t = { s with regs := t.regs, boot := t.boot, safeInHigh := 0, reports := t.reports }) ∧
  -- BANK_SUPPLY_RETURN (R803): bankSupplyReturn
  (∀ (s : State) (b : Fin 6), 
    Leads s (.bankSupplyReturn b) fun t => t = { s with boot := { s.boot with banksLost := s.boot.banksLost.filter (· != b.val) } })

/-- What the commands of the Chanter do: RUN, SLOT_START, SLOT_PUBLISH, CWQ_ENQUEUE, CWQ_FLUSH, CHN_SLOT_ENABLE, LANE_ENABLE, LANE_LIST_WRITE, CHN_CNT_CLR. For each of the commands RUN, SLOT_START, SLOT_PUBLISH, CWQ_ENQUEUE, CWQ_FLUSH, CHN_SLOT_ENABLE, LANE_ENABLE, LANE_LIST_WRITE, CHN_CNT_CLR: in every state and with all operands that meet the conditions of its clause, exec answers a next state, of which the clause gives the values that the rules of the command put there and which equals the state before in everything that the clause does not list. -/
def Obligations.ChanterLaw : Prop :=
  -- RUN (R254): A row that names one slot marks it on its lanes, and its context waits for it.
  (∀ (s : State) (ln : Fin 2) (c : Fin 16) (u x key : Nat) (l : List Byte), (u = 0x44 + ln.val ∧ key = 16 * u + c.val ∧ x < s.slots.length) → s.runs u c 6 1 = true → s.chnRuns.any (fun p => p.1 == key) = false → chnSlots (rowPayload (s.ctx u c).row) = [x] → s.chnNamed ln x = true → l = s.recOf x → ((s.slot x).pend0 = false ∧ (s.slot x).pend1 = false) → 
    Leads s (.run ln c) fun t => t.slot x = { s.slot x with pend0 := rcDual l || rcLane l == 0, pend1 := rcDual l || rcLane l == 1, wait := [key] } ∧ (∀ y, y ≠ x → t.slot y = s.slot y) ∧
    t.chnRuns = s.chnRuns ++ [(key, false, false)] ∧ t = { s with slots := t.slots, chnRuns := t.chnRuns }) ∧
  -- RUN (R254): A row that names a slot of another lane is answered NACK_ABSENT.
  (∀ (s : State) (ln : Fin 2) (c : Fin 16) (u : Nat), u = 0x44 + ln.val → s.runs u c 6 1 = true → s.chnRuns.any (fun p => p.1 == 16 * u + c.val) = false → (chnSlots (rowPayload (s.ctx u c).row)).all (s.chnNamed ln) = false → 
    Leads s (.run ln c) fun t => t.ctx u c = { s.ctx u c with result := some (.nackAbsent, 0) } ∧ t = { s with ctxs := t.ctxs }) ∧
  -- SLOT_START (R250): An idle lane takes up the next pending slot in RUN whose DIV is due: the oldest coefficient write lands, the record and its inputs are latched.
  (∀ (s s0 s1 : State) (ln : Fin 2) (x : Nat) (q : State × ChnLatch), (s.laneOn ln = true ∧ s.lanes.getD ln none = none ∧ ln.val < s.lanes.length ∧ s.sysrst = false) → s.nextSlot ln = some x → (s0 = s.slotMod x fun t => if ln.val = 0 then { t with pend0 := false } else { t with pend1 := false }) → ((s.slot x).half = 0 ∧ s.slotState x = 1 ∧ rcDiv (s0.recOf x) ≤ (s.slot x).div + 1) → s1 = s0.applyOldest x → q = s1.latchSlot x → q.2.bad = false → (x < q.1.slots.length ∧ ln.val < q.1.lanes.length) → 
    Leads s (.slotStart ln) fun t => t.lanes = q.1.lanes.set ln (some x) ∧
    t.slot x = { q.1.slot x with div := 0, half := b2n ((s0.slot x).pend0 || (s0.slot x).pend1), todo := (q.1.slot x).todo + 1, latch := some q.2, evWait := (q.1.slot x).wait ++ (q.1.slot x).evWait, wait := [] } ∧
    (∀ y, y ≠ x → t.slot y = q.1.slot y) ∧ RegsBut (q.2.injs.map R.INJ_OUT_OUT) q.1 t ∧ t = { q.1 with regs := t.regs, slots := t.slots, lanes := t.lanes }) ∧
  -- SLOT_START (R250): Before its DIV is due a slot of one lane is passed over and counted.
  (∀ (s : State) (ln : Fin 2) (x : Nat), (s.laneOn ln = true ∧ s.lanes.getD ln none = none ∧ s.sysrst = false) → (s.nextSlot ln = some x ∧ x < s.slots.length) → ((if ln.val = 0 then (s.slot x).pend1 else (s.slot x).pend0) = false) → ((s.slot x).half = 0 ∧ s.slotState x = 1 ∧ (s.slot x).div + 1 < rcDiv (s.recOf x)) → ((s.slot x).wait = [] ∧ (s.slot x).evWait = []) → 
    Leads s (.slotStart ln) fun t => t.slot x = { s.slot x with pend0 := false, pend1 := false, div := (s.slot x).div + 1, half := 0, wait := [], evWait := [], todo := 0, latch := none } ∧
    (∀ y, y ≠ x → t.slot y = s.slot y) ∧ t = { s with slots := t.slots }) ∧
  -- SLOT_PUBLISH (R268, R270, R271): A slot of one lane with role CONTROL ends its evaluation: OUT, FLAGS and SAMPLE of its record are those of the control law over what was latched.
  (∀ (s : State) (ln : Fin 2) (agree : Bool) (x sample : Nat) (k : ChnLatch) (o : EvalOut), (s.lanes.getD ln none = some x ∧ x < s.slots.length ∧ x < 128) → ((s.slot x).todo = 1 ∧ (s.slot x).half = 0 ∧ (s.slot x).latch = some k ∧ (s.slot x).evWait = []) → (s.slotState x = 1 ∧ k.bad = false ∧ rcDual k.rcd = false ∧ rcRole k.rcd = 0 ∧ rcEn k.rcd = false) → s.recOpen x = true → o = evaluate k.rcd (fb k.rcd 260 2) (s.slot x).iLim k.r k.y k.ff 0 k.inj → sample = (fb k.rcd 262 2 + 1) % 2 ^ 16 → 
    Leads s (.slotPublish ln agree) fun t => t.getBytes (recBase x + 256) 8 = leBytes 4 (wordOf (rcX32 k.rcd) o.u) ++ leBytes 2 (o.flags ||| k.qual) ++ leBytes 2 sample ∧
    t.getBytes (recBase x + 160) 56 = o.stateBytes (rcX32 k.rcd) ∧ t.lanes = s.lanes.set ln none ∧
    t.slot x = { s.slot x with todo := 0, latch := none, evWait := [], fresh := false, iLim := false } ∧ (∀ y, y ≠ x → t.slot y = s.slot y) ∧
    (∀ b, b < recBase x + 160 ∨ recBase x + 264 ≤ b → t.getByte b = s.getByte b) ∧
    t = { s with regs := t.regs, mem := t.mem, ecc := t.ecc, wb := t.wb, resv := t.resv, units := t.units, slots := t.slots, lanes := t.lanes, axes := t.axes, caps := t.caps, injs := t.injs, freeCtr := t.freeCtr, reports := t.reports, chnRuns := t.chnRuns }) ∧
  -- CWQ_ENQUEUE (R273): A coefficient write to a slot that runs waits in its queue of 4.
  (∀ (s : State) (w : Who) (v : BitVec 32) (sel x : Nat), s.takes w 0x120014 v.toNat = true → sel = tget 0 s.cwqSel w.ini → x = bits sel 0 7 → (s.slotState x ≠ 0 ∧ (s.slot x).queue.length < 4 ∧ x < s.slots.length) → 
    Leads s (.cwqEnqueue w v) fun t => t.slot x = { s.slot x with queue := (s.slot x).queue ++ [(bits sel 7 5, bits sel 12 6, v.toNat)] } ∧ t.rd (R.CHN_SLOT_STAT_QLEVEL x) = (s.slot x).queue.length + 1 ∧
    (∀ y, y ≠ x → t.slot y = s.slot y) ∧ RegsBut [R.CHN_SLOT_STAT_QLEVEL x] s t ∧ t.answer.st = .ok ∧ t = { s with regs := t.regs, slots := t.slots, answer := t.answer }) ∧
  -- CWQ_FLUSH (R275): cwqFlush
  (∀ (s : State) (w : Who) (v : BitVec 32) (x : Nat), s.takes w 0x120018 (v ||| 0x80).toNat = true → (x = bits v.toNat 0 7 ∧ x < s.slots.length) → 
    Leads s (.cwqFlush w v) fun t => t.slot x = { s.slot x with queue := [] } ∧ t.rd (R.CHN_CNT1_FLUSHED) = satAdd 16 (s.rd R.CHN_CNT1_FLUSHED) (s.slot x).queue.length ∧ t.rd (R.CHN_SLOT_STAT_QLEVEL x) = 0 ∧
    t.rd R.CHN_CWQ_CTRL_SLOT = x ∧ (∀ y, y ≠ x → t.slot y = s.slot y) ∧ RegsBut [R.CHN_CNT1_FLUSHED, R.CHN_SLOT_STAT_QLEVEL x, R.CHN_CWQ_CTRL_SLOT] s t ∧ t = { s with regs := t.regs, slots := t.slots, answer := t.answer }) ∧
  -- CHN_SLOT_ENABLE (R272): A slot in OFF whose record meets R272 goes to RUN.
  (∀ (s : State) (w : Who) (x : Fin 128) (v : BitVec 32), s.takes w (0x120400 + 4 * x) v.toNat = true → (bit v.toNat 0 = true ∧ x.val < s.slots.length) → (s.slotState x = 0 ∧ s.slotOk x (s.recOf x) = true ∧ s.recOpen x = true) → 
    Leads s (.chnSlotEnable w x v) fun t => t.slotState x = 1 ∧ t.on (R.CHN_SLOT_CTRL_ENABLE x) = true ∧ t.rd (R.CHN_SLOT_STAT_CSEQ x) = fb (s.recOf x) 264 2 ∧
    t.slot x = { s.slot x with div := 0, fresh := true, smp := List.replicate 8 none, iLim := false } ∧ (∀ y, y ≠ x.val → t.slot y = s.slot y) ∧
    RegsBut [R.CHN_SLOT_STAT_STATE x, R.CHN_SLOT_CTRL_ENABLE x, R.CHN_SLOT_STAT_CSEQ x] s t ∧ t = { s with regs := t.regs, slots := t.slots, answer := t.answer }) ∧
  -- CHN_SLOT_ENABLE (R272): A record that does not meet R272 is rejected.
  (∀ (s : State) (w : Who) (x : Fin 128) (v : BitVec 32), s.takes w (0x120400 + 4 * x) v.toNat = true → bit v.toNat 0 = true → (s.slotState x = 0 ∧ s.slotOk x (s.recOf x) = false ∧ s.recOpen x = true) → 
    Leads s (.chnSlotEnable w x v) fun t => t.on (R.CHN_SLOT_STAT_REJ x) = true ∧ RegsBut [R.CHN_SLOT_STAT_REJ x] s t ∧ t = { s with regs := t.regs, answer := t.answer }) ∧
  -- LANE_ENABLE (R279): Both lanes turned on.
  (∀ (s : State) (w : Who) (v : BitVec 32), s.takes w 0x120000 v.toNat = true → (bits v.toNat 0 2 = 3 ∧ bit v.toNat 3 = false) → 
    Leads s (.laneEnable w v) fun t => t.laneOn 0 = true ∧ t.laneOn 1 = true ∧ t.on R.CHN_CTRL_IRQ_EN = bit v.toNat 2 ∧ RegsBut [R.CHN_CTRL_LANE0_EN, R.CHN_CTRL_LANE1_EN, R.CHN_CTRL_IRQ_EN] s t ∧ t = { s with regs := t.regs, answer := t.answer }) ∧
  -- LANE_ENABLE (R279): Lanes turned off while no dual slot runs.
  (∀ (s : State) (w : Who) (v : BitVec 32), s.takes w 0x120000 v.toNat = true → bit v.toNat 3 = false → (List.range 128).all (fun x => !(s.slotState x == 1 && rcDual (s.recOf x))) = true → 
    Leads s (.laneEnable w v) fun t => t.laneOn 0 = bit v.toNat 0 ∧ t.laneOn 1 = bit v.toNat 1 ∧ t.on R.CHN_CTRL_IRQ_EN = bit v.toNat 2 ∧ RegsBut [R.CHN_CTRL_LANE0_EN, R.CHN_CTRL_LANE1_EN, R.CHN_CTRL_IRQ_EN] s t ∧ t = { s with regs := t.regs, answer := t.answer }) ∧
  -- LANE_LIST_WRITE (R251): While the lane is off the word is set.
  (∀ (s : State) (w : Who) (ln : Fin 2) (j : Fin 32) (v : BitVec 32), s.takes w (0x120100 + 0x80 * ln + 4 * j) v.toNat = true → s.laneOn ln = false → 
    Leads s (.laneListWrite w ln j v) fun t => t.rd (if ln.val = 0 then R.LANE0_LIST_ENTRIES j else R.LANE1_LIST_ENTRIES j) = v.toNat ∧ RegsBut [if ln.val = 0 then R.LANE0_LIST_ENTRIES j else R.LANE1_LIST_ENTRIES j] s t ∧ t = { s with regs := t.regs, answer := t.answer }) ∧
  -- LANE_LIST_WRITE (R251): While the lane is on the write is rejected.
  (∀ (s : State) (w : Who) (ln : Fin 2) (j : Fin 32) (v : BitVec 32), s.takes w (0x120100 + 0x80 * ln + 4 * j) v.toNat = true → s.laneOn ln = true → 
    Leads s (.laneListWrite w ln j v) fun t => t.on R.CHN_STAT_LIST_REJ = true ∧ RegsBut [R.CHN_STAT_LIST_REJ] s t ∧ t = { s with regs := t.regs, answer := t.answer }) ∧
  -- CHN_CNT_CLR (R282): chnCntClr
  (∀ (s : State) (w : Who) (v : BitVec 32), s.takes w 0x120000 (v ||| 8).toNat = true → bits v.toNat 0 2 = 3 → 
    Leads s (.chnCntClr w v) fun t => t.rd R.CHN_CNT1_CW_REJ = 0 ∧ t.rd R.CHN_CNT1_FLUSHED = 0 ∧ t.rd R.CHN_CNT2_MERGED = 0 ∧ t.rd R.CHN_CNT2_MBOX_REJ = 0 ∧ t.laneOn 0 = true ∧ t.laneOn 1 = true ∧
    t.on R.CHN_CTRL_IRQ_EN = bit v.toNat 2 ∧
    RegsBut [R.CHN_CTRL_LANE0_EN, R.CHN_CTRL_LANE1_EN, R.CHN_CTRL_IRQ_EN, R.CHN_CNT1_CW_REJ, R.CHN_CNT1_FLUSHED, R.CHN_CNT2_MERGED, R.CHN_CNT2_MBOX_REJ] s t ∧ t = { s with regs := t.regs, answer := t.answer })

/-- What the commands of Chanter loops do: SETPOINT_UPDATE, SP_ENABLE, SP_HOST. For each of the commands SETPOINT_UPDATE, SP_ENABLE, SP_HOST: in every state and with all operands that meet the conditions of its clause, exec answers a next state, of which the clause gives the values that the rules of the command put there and which equals the state before in everything that the clause does not list. -/
def Obligations.SetPoints : Prop :=
  -- SETPOINT_UPDATE (R296): setpointUpdate
  (∀ (s : State) (c : Fin 64) (q : Int × Bool × SpSt) (r : Int × Int), c.val < s.sps.length → (s.on (R.SP_CFG_ENABLE c) = true ∧ s.reached (s.sp c).due = true) → q = s.spRaw c → r = spStep q.1 (s.rdS (R.SP_OFFSET_OFFSET c)) (s.rdS (R.SP_MULT_MULT c)) (s.rd (R.SP_CFG_SHIFT c)) (s.rd (R.SP_DB_DB c)) (s.rdS (R.SP_MIN_MIN c)) (s.rdS (R.SP_MAX_MAX c)) q.2.1 (!s.on (R.SP_CFG_LOSS c)) (s.rdS (R.SP_FAILVAL_FAILVAL c)) (s.rdS (R.SP_OUT_OUT c)) (s.rd (R.SP_RATE_RATE c)) → 
    Leads s (.setpointUpdate c) fun t => t.rd (R.SP_OUT_OUT c) = ux 32 r.1 ∧ t.on (R.SP_STAT_LOST c) = q.2.1 ∧ t.rd (R.SP_STAT_QUALITY c) = (if q.2.1 = false ∧ r.1 = r.2 then 2 else 1) ∧
    t.sp c = { q.2.2 with due := (q.2.2.due + s.rd (R.SP_PERIOD_PERIOD c)) % 2 ^ 48 } ∧ (∀ x, x ≠ c.val → t.sp x = s.sp x) ∧
    RegsBut [R.SP_OUT_OUT c, R.SP_STAT_LOST c, R.SP_STAT_QUALITY c] s t ∧ t = { s with regs := t.regs, sps := t.sps }) ∧
  -- SP_ENABLE (R296): A channel that is off, with a period and an INDEX in the range of its KIND, is enabled.
  (∀ (s s1 : State) (w : Who) (c : Fin 64) (v : BitVec 32), s.takes w (0x120800 + 0x40 * c) v.toNat = true → s1 = s.spFields c v.toNat → c.val < s.sps.length → (bit v.toNat 0 = true ∧ s.on (R.SP_CFG_ENABLE c) = false) → (s.rd (R.SP_PERIOD_PERIOD c) ≠ 0 ∧ spIndexOk (s1.rd (R.SP_CFG_KIND c)) (s1.rd (R.SP_CFG_INDEX c)) = true) → 
    Leads s (.spEnable w c v) fun t => t.on (R.SP_CFG_ENABLE c) = true ∧ t.rd (R.SP_OUT_OUT c) = 0 ∧ t.rd (R.SP_STAT_QUALITY c) = 1 ∧ t.on (R.SP_STAT_LOST c) = false ∧
    t.sp c = { s.sp c with due := (s.now + s.rd (R.SP_PERIOD_PERIOD c)) % 2 ^ 48, hostAge := 0, hostNew := false, last := (s.pulseOf (s1.rd (R.SP_CFG_INDEX c))).1, errLast := (s.pulseOf (s1.rd (R.SP_CFG_INDEX c))).2 } ∧
    (∀ x, x ≠ c.val → t.sp x = s.sp x) ∧ RegsBut [R.SP_CFG_ENABLE c, R.SP_OUT_OUT c, R.SP_STAT_QUALITY c, R.SP_STAT_LOST c] s1 t ∧ t = { s with regs := t.regs, sps := t.sps, answer := t.answer }) ∧
  -- SP_ENABLE (R296): Without a period, or with an INDEX out of range, ENABLE is rejected.
  (∀ (s s1 : State) (w : Who) (c : Fin 64) (v : BitVec 32), s.takes w (0x120800 + 0x40 * c) v.toNat = true → s1 = s.spFields c v.toNat → (bit v.toNat 0 = true ∧ s.on (R.SP_CFG_ENABLE c) = false) → (s.rd (R.SP_PERIOD_PERIOD c) = 0 ∨ spIndexOk (s1.rd (R.SP_CFG_KIND c)) (s1.rd (R.SP_CFG_INDEX c)) = false) → 
    Leads s (.spEnable w c v) fun t => t.on (R.SP_STAT_REJ c) = true ∧ RegsBut [R.SP_STAT_REJ c] s1 t ∧ t = { s with regs := t.regs, answer := t.answer }) ∧
  -- SP_ENABLE (R296): ENABLE written 0 turns the channel off: OUT 0, invalid quality.
  (∀ (s s1 : State) (w : Who) (c : Fin 64) (v : BitVec 32), s.takes w (0x120800 + 0x40 * c) v.toNat = true → s1 = s.spFields c v.toNat → bit v.toNat 0 = false → 
    Leads s (.spEnable w c v) fun t => t.on (R.SP_CFG_ENABLE c) = false ∧ t.rd (R.SP_OUT_OUT c) = 0 ∧ t.rd (R.SP_STAT_QUALITY c) = 0 ∧ t.on (R.SP_STAT_LOST c) = false ∧
    RegsBut [R.SP_CFG_ENABLE c, R.SP_OUT_OUT c, R.SP_STAT_QUALITY c, R.SP_STAT_LOST c] s1 t ∧ t = { s with regs := t.regs, answer := t.answer }) ∧
  -- SP_HOST (R297): A channel of KIND HOST takes the value for its next update.
  (∀ (s : State) (w : Who) (c : Fin 64) (v : BitVec 32), s.takes w (0x120824 + 0x40 * c) v.toNat = true → (c.val < s.sps.length ∧ s.rd (R.SP_CFG_KIND c) = 0) → 
    Leads s (.spHost w c v) fun t => t.sp c = { s.sp c with host := v.toNat, hostNew := true } ∧ (∀ x, x ≠ c.val → t.sp x = s.sp x) ∧ RegsBut [] s t ∧ t = { s with sps := t.sps, answer := t.answer }) ∧
  -- SP_HOST (R297): A channel of another KIND ignores it, counted.
  (∀ (s : State) (w : Who) (c : Fin 64) (v : BitVec 32), s.takes w (0x120824 + 0x40 * c) v.toNat = true → s.rd (R.SP_CFG_KIND c) ≠ 0 → 
    Leads s (.spHost w c v) fun t => t.rd (R.SP_STAT_IGN c) = satAdd 16 (s.rd (R.SP_STAT_IGN c)) 1 ∧ RegsBut [R.SP_STAT_IGN c] s t ∧ t = { s with regs := t.regs, answer := t.answer })

/-- What the commands of Chanter loops do: INJECTION_GO, INJECTION_STOP, INJECTION_ABORT, PERMIT_WRITE, CAPTURE_ENABLE, CAPTURE_WRITE_COMPLETE. For each of the commands INJECTION_GO, INJECTION_STOP, INJECTION_ABORT, PERMIT_WRITE, CAPTURE_ENABLE, CAPTURE_WRITE_COMPLETE: in every state and with all operands that meet the conditions of its clause, exec answers a next state, of which the clause gives the values that the rules of the command put there and which equals the state before in everything that the clause does not list. -/
def Obligations.InjectionCapture : Prop :=
  -- INJECTION_GO (R299): With PERMIT, a group none of whose injectors runs starts those with a wave; one of length 0 is done at once.
  (∀ (s : State) (w : Who) (g : Fin 8) (v : BitVec 32), s.takes w (0x121800 + 4 * g) (v ||| 1).toNat = true → (bit v.toNat 1 = false ∧ bit v.toNat 2 = false) → (s.injActive g = false ∧ s.on R.CHN_INJ_PERMIT_PERMIT = true) → s.injs.length = 32 → 
    Leads s (.injectionGo w g v) fun t => (∀ i < 32, t.inj i = if s.injPicked g i then { k := 0, phi := 0, step := s.step, seed := s.runSeed, startAt := s.now, stopping := false } else s.inj i) ∧
    (∀ i < 32, t.on (R.INJ_STAT_ACTIVE i) = (s.on (R.INJ_STAT_ACTIVE i) || (s.injPicked g i && s.injTotal i != 0))) ∧
    (∀ i < 32, t.on (R.INJ_STAT_DONE i) = (s.on (R.INJ_STAT_DONE i) || (s.injPicked g i && s.injTotal i == 0))) ∧
    (∀ i < 32, s.injPicked g i = true → t.rd (R.INJ_STAT_K i) = 0) ∧ RegsBut (injFlds g) s t ∧ t = { s with regs := t.regs, injs := t.injs, answer := t.answer }) ∧
  -- INJECTION_GO (R299): A GO while the group runs is ignored and counted.
  (∀ (s : State) (w : Who) (g : Fin 8) (v : BitVec 32), s.takes w (0x121800 + 4 * g) (v ||| 1).toNat = true → (bit v.toNat 1 = false ∧ bit v.toNat 2 = false) → s.injActive g = true → 
    Leads s (.injectionGo w g v) fun t => t.rd (R.INJ_GRP_CTRL_RESTART_IGN g) = satAdd 16 (s.rd (R.INJ_GRP_CTRL_RESTART_IGN g)) 1 ∧ RegsBut [R.INJ_GRP_CTRL_SWEEP g, R.INJ_GRP_CTRL_RESTART_IGN g] s t ∧ t = { s with regs := t.regs, answer := t.answer }) ∧
  -- INJECTION_STOP (R301): A constant wave, and a PRBS at the end of its hold, end at once; the others of the group run to the end of their period.
  (∀ (s : State) (w : Who) (g : Fin 8) (v : BitVec 32), s.takes w (0x121800 + 4 * g) (v ||| 2).toNat = true → (bit v.toNat 0 = false ∧ bit v.toNat 2 = false) → s.injs.length = 32 → 
    Leads s (.injectionStop w g v) fun t => (∀ i < 32, s.on (R.INJ_STAT_ACTIVE i) = true → s.rd (R.INJ_CFG_GROUP i) = g.val →
      (if s.rd (R.INJ_CFG_WAVE i) = 1 ∨ (s.rd (R.INJ_CFG_WAVE i) = 2 ∧ (s.inj i).k % (s.rd (R.INJ_CFG_HOLD i) + 1) = 0) then
        t.on (R.INJ_STAT_ACTIVE i) = false ∧ t.on (R.INJ_STAT_DONE i) = true ∧ t.rd (R.INJ_OUT_OUT i) = 0
       else t.on (R.INJ_STAT_ACTIVE i) = true ∧ t.inj i = { s.inj i with stopping := true })) ∧
    (∀ i < 32, s.on (R.INJ_STAT_ACTIVE i) = false ∨ s.rd (R.INJ_CFG_GROUP i) ≠ g.val → t.inj i = s.inj i ∧ t.on (R.INJ_STAT_ACTIVE i) = s.on (R.INJ_STAT_ACTIVE i)) ∧
    RegsBut (injFlds g) s t ∧ t = { s with regs := t.regs, injs := t.injs, answer := t.answer }) ∧
  -- INJECTION_ABORT (R301): injectionAbort
  (∀ (s : State) (w : Who) (g : Fin 8) (v : BitVec 32), s.takes w (0x121800 + 4 * g) (v ||| 4).toNat = true → (bit v.toNat 0 = false ∧ bit v.toNat 1 = false) → 
    Leads s (.injectionAbort w g v) fun t => (∀ i < 32, s.on (R.INJ_STAT_ACTIVE i) = true → s.rd (R.INJ_CFG_GROUP i) = g.val → t.on (R.INJ_STAT_ACTIVE i) = false ∧ t.on (R.INJ_STAT_ABORTED i) = true ∧ t.rd (R.INJ_OUT_OUT i) = 0) ∧
    (∀ i < 32, s.rd (R.INJ_CFG_GROUP i) ≠ g.val → t.on (R.INJ_STAT_ACTIVE i) = s.on (R.INJ_STAT_ACTIVE i)) ∧ t.on (R.INJ_GRP_CTRL_ACTIVE g) = false ∧
    RegsBut (injFlds g) s t ∧ t = { s with regs := t.regs, answer := t.answer }) ∧
  -- PERMIT_WRITE (R298): PERMIT taken away aborts every injector that runs.
  (∀ (s : State) (w : Who) (v : BitVec 32), s.takes w 0x121840 v.toNat = true → bit v.toNat 0 = false → 
    Leads s (.permitWrite w v) fun t => t.on R.CHN_INJ_PERMIT_PERMIT = false ∧ (∀ i < 32, t.on (R.INJ_STAT_ACTIVE i) = false) ∧ (∀ i < 32, s.on (R.INJ_STAT_ACTIVE i) = true → t.on (R.INJ_STAT_ABORTED i) = true ∧ t.rd (R.INJ_OUT_OUT i) = 0) ∧
    RegsBut ([R.CHN_INJ_PERMIT_PERMIT] ++ injFlds 0) s t ∧ t = { s with regs := t.regs, answer := t.answer }) ∧
  -- PERMIT_WRITE (R298): permitWrite, given
  (∀ (s : State) (w : Who) (v : BitVec 32), s.takes w 0x121840 v.toNat = true → bit v.toNat 0 = true → 
    Leads s (.permitWrite w v) fun t => t.on R.CHN_INJ_PERMIT_PERMIT = true ∧ RegsBut [R.CHN_INJ_PERMIT_PERMIT] s t ∧ t = { s with regs := t.regs, answer := t.answer }) ∧
  -- CAPTURE_ENABLE (R304): A stream that is off, with a ring of R304, starts at its first place and the SEQ of CAP_SEQ.
  (∀ (s s1 : State) (w : Who) (c : Fin 8) (v : BitVec 32), s.takes w (0x122400 + 0x40 * c) v.toNat = true → s1 = s.capFields c v.toNat → (bit v.toNat 0 = true ∧ s.on (R.CAP_CFG_ENABLE c) = false ∧ c.val < s.caps.length) → capRingOk (s.rd (R.CAP_BASE_LO_BASE c) * 64 + s.rd (R.CAP_BASE_HI_BASE c) * 2 ^ 32) (s.rd (R.CAP_SIZE_SIZE c)) = true → 
    Leads s (.captureEnable w c v) fun t => t.on (R.CAP_CFG_ENABLE c) = true ∧ t.on (R.CAP_STAT_ACTIVE c) = true ∧ t.rd (R.CAP_WR_WR c) = 0 ∧ t.caps.getD c {} = { seq := s.rd (R.CAP_SEQ_SEQ c) } ∧
    (∀ x, x ≠ c.val → t.caps.getD x {} = s.caps.getD x {}) ∧ RegsBut [R.CAP_CFG_ENABLE c, R.CAP_STAT_ACTIVE c, R.CAP_WR_WR c] s1 t ∧ t = { s with regs := t.regs, caps := t.caps, answer := t.answer }) ∧
  -- CAPTURE_ENABLE (R304): captureEnable, rejected
  (∀ (s s1 : State) (w : Who) (c : Fin 8) (v : BitVec 32), s.takes w (0x122400 + 0x40 * c) v.toNat = true → s1 = s.capFields c v.toNat → (bit v.toNat 0 = true ∧ s.on (R.CAP_CFG_ENABLE c) = false) → capRingOk (s.rd (R.CAP_BASE_LO_BASE c) * 64 + s.rd (R.CAP_BASE_HI_BASE c) * 2 ^ 32) (s.rd (R.CAP_SIZE_SIZE c)) = false → 
    Leads s (.captureEnable w c v) fun t => t.on (R.CAP_STAT_REJ c) = true ∧ RegsBut [R.CAP_STAT_REJ c] s1 t ∧ t = { s with regs := t.regs, answer := t.answer }) ∧
  -- CAPTURE_WRITE_COMPLETE (R305): The oldest record on its way goes to a memory that takes it and holds no error there; no token is due.
  (∀ (s : State) (c : Fin 8) (a : Nat) (l : List Byte) (rest : List (Nat × List Byte)) (code p : Nat), ((s.caps.getD c {}).jobs = (a, l) :: rest ∧ c.val < s.caps.length) → s.memAdmit chnWho (s.stamp a) a l.length true = (s, .ok, code, p) → (∀ wa ∈ wordsOf (eccWord code) p l.length, tget 0 s.ecc wa = 0) → (s.on R.MEM_INJ_CTRL_ARM = false ∧ s.on (R.CAP_TOKEN_TOK_EN c) = false) → 
    Leads s (.captureWriteComplete c) fun t => (∀ b, t.getByte b = if p ≤ b ∧ b < p + l.length then l.getD (b - p) 0 else s.getByte b) ∧
    t.caps.getD c {} = { s.caps.getD c {} with jobs := rest, sinceTok := if s.rd (R.CAP_TOKEN_EVERY c) < (s.caps.getD c {}).sinceTok + 1 then 0 else (s.caps.getD c {}).sinceTok + 1 } ∧
    (∀ x, x ≠ c.val → t.caps.getD x {} = s.caps.getD x {}) ∧ RegsBut [] s t ∧ t = { s with caps := t.caps, mem := t.mem, ecc := t.ecc, wb := t.wb, resv := t.resv, units := t.units })

/-- What the commands of Drones and external time do: DRONE_CYCLE, LATCH_RECORD_WRITTEN, DRONE_CAPTURE_TICK, DRONE_MEASUREMENT, DRONE_MISS_TEST, HOLD_MAX_EXPIRY. For each of the commands DRONE_CYCLE, LATCH_RECORD_WRITTEN, DRONE_CAPTURE_TICK, DRONE_MEASUREMENT, DRONE_MISS_TEST, HOLD_MAX_EXPIRY: in every state and with all operands that meet the conditions of its clause, exec answers a next state, of which the clause gives the values that the rules of the command put there and which equals the state before in everything that the clause does not list. -/
def Obligations.DroneCycle : Prop :=
  -- DRONE_CYCLE (R39): One control cycle of a Drone that is not OFF and has no correction to take: the accumulator goes on by F, its carry counts the cycles; both clocks count on.
  (∀ (s : State) (d : Nat), (s.aligned = true ∧ s.boot.porst = false) → (d < 16 ∧ d < s.drones.length) → (s.drnState d ≠ 0 ∧ (s.drone d).ops = []) → 
    Leads s .droneCycle fun t => (t.drone d).acc = ux 64 (((s.drone d).acc : Int) + (s.drone d).f) ∧ (t.drone d).cyc = ux 16 (((s.drone d).cyc : Int) + (((s.drone d).acc : Int) + (s.drone d).f) / 2 ^ 64) ∧
    (t.drone d).f = (s.drone d).f ∧ (t.drone d).age = (s.drone d).age + 1 ∧ (t.drone d).ops = [] ∧ (t.drone d).preset = false ∧ t.drnState d = s.drnState d ∧
    t.now = (s.now + 1) % 2 ^ 48 ∧ t.sysAcc = (s.sysAcc + s.timeInc) % 2 ^ 80 ∧ t.mem = s.mem ∧ t.pending = s.pending) ∧
  -- DRONE_CYCLE (R39): A correction of the tracking loop changes accumulator and F in the cycle, F held within F_MIN and F_MAX.
  (∀ (s : State) (d : Nat) (dA dF : Int), (s.aligned = true ∧ s.boot.porst = false) → (d < 16 ∧ d < s.drones.length) → (s.drnState d ≠ 0 ∧ (s.drone d).ops = [.corr dA dF]) → 
    Leads s .droneCycle fun t => (t.drone d).acc = ux 64 (((s.drone d).acc : Int) + (s.drone d).f + dA) ∧ (t.drone d).f = s.clampF d ((s.drone d).f + dF) ∧
    t.on (R.DRN_STAT_FSAT d) = (s.clampF d ((s.drone d).f + dF) != (s.drone d).f + dF) ∧ (t.drone d).ops = [] ∧ t.now = (s.now + 1) % 2 ^ 48) ∧
  -- DRONE_CYCLE (R39): A Drone that is OFF holds.
  (∀ (s : State) (d : Nat), (s.aligned = true ∧ s.boot.porst = false) → (d < 16 ∧ d < s.drones.length) → s.drnState d = 0 → 
    Leads s .droneCycle fun t => t.drone d = { s.drone d with preset := false } ∧ t.now = (s.now + 1) % 2 ^ 48 ∧ t.sysAcc = (s.sysAcc + s.timeInc) % 2 ^ 80) ∧
  -- LATCH_RECORD_WRITTEN (R65): The oldest latch record has been written and orders no token.
  (∀ (s : State) (rs : List Reply) (j : LatchJob) (rest : List LatchJob) (q : State × Status), s.latchJobs = j :: rest → q = State.gmWrites { s with replies := rs } { ini := 0x26, cls := 1, remote := false } j.addr j.data → (q.2 = .ok ∧ j.msg = none) → 
    Leads s (.latchRecordWritten rs) fun t => t = { q.1 with latchJobs := rest, replies := [] }) ∧
  -- LATCH_RECORD_WRITTEN (R65): A write that fails sets LWERR of the Drone and sends no token.
  (∀ (s : State) (rs : List Reply) (j : LatchJob) (rest : List LatchJob) (q : State × Status), s.latchJobs = j :: rest → q = State.gmWrites { s with replies := rs } { ini := 0x26, cls := 1, remote := false } j.addr j.data → (q.2 ≠ .ok ∧ q.2 ≠ .retry) → 
    Leads s (.latchRecordWritten rs) fun t => t.on (R.DRN_STAT_LWERR j.drone) = true ∧ RegsBut [R.DRN_STAT_LWERR j.drone] q.1 t ∧ t = { q.1 with regs := t.regs, latchJobs := rest, replies := [] }) ∧
  -- DRONE_CAPTURE_TICK (R41): N_EXP cycles after the last tick a Drone that follows an encoder count forms its measurement.
  (∀ (s : State) (d : Fin 16) (ix th : Nat), d.val < s.drones.length → (s.drnState d ≠ 0 ∧ (s.drone d).nExp ≠ 0 ∧ (s.drone d).capAge + (s.drone d).nExp ≤ (s.drone d).age) → (s.rd (R.DRN_SRC_KIND d) = 1 ∧ s.rd (R.DRN_SRC_INDEX d) = ix ∧ ix < 12 ∧ (s.drone d).mod ≠ 0 ∧ s.on (R.DRN_CTRL_ALT_EN d) = false) → th = s.rd (R.AX_ENC_CNT_CNT ix) % (s.drone d).mod * ((2 ^ 49 + (s.drone d).mod) / (2 * (s.drone d).mod)) / 2 ^ 16 % 2 ^ 32 → 
    Leads s (.droneCaptureTick d) fun t => t.meas = s.meas ++ [⟨d, 1, ix, th, s.now⟩] ∧ t.drone d = { s.drone d with capAge := (s.drone d).capAge + (s.drone d).nExp } ∧ (∀ x, x ≠ d.val → t.drone x = s.drone x) ∧
    RegsBut [] s t ∧ t = { s with meas := t.meas, drones := t.drones }) ∧
  -- DRONE_CAPTURE_TICK (R41): droneCaptureTick, early
  (∀ (s : State) (d : Fin 16), (s.drnState d = 0 ∨ (s.drone d).nExp = 0 ∨ (s.drone d).age < (s.drone d).capAge + (s.drone d).nExp) → 
    Leads s (.droneCaptureTick d) fun t => t = s) ∧
  -- DRONE_MEASUREMENT (R47): A measurement of the source that a LOCKED Drone follows, not late, within ERR_MAX: its error is shown and the correction under the lock gains is left for the next cycle.
  (∀ (s : State) (i d : Nat) (m : Meas) (e : Int), s.meas[i]? = some m → (d = m.drone ∧ d < s.drones.length ∧ m.kind ≠ 0) → (s.rd (R.DRN_SRC_KIND d) = m.kind ∧ s.rd (R.DRN_SRC_INDEX d) = m.index ∧ s.on (R.DRN_STAT_ALT_ACTIVE d) = false ∧ s.on (R.DRN_CTRL_ALT_EN d) = false) → (s.drnState d = 2 ∧ (s.drone d).preset = false ∧ s.measAge d m.cap ≤ 4095) → e = sx 32 (ux 32 ((m.theta : Int) - (s.phaseAt d (s.measAge d m.cap) : Int))) → e.natAbs ≤ s.rd (R.DRN_ERRMAX_ERR_MAX d) → 
    Leads s (.droneMeasurement i) fun t => t.drone d = { s.drone d with gotMeas := true, lastTheta := m.theta % 2 ^ 32, outRun := 0, ops := (s.drone d).ops ++ [s.drnCorr d false e] } ∧
    t.rdS (R.DRN_ERR_E d) = e ∧ (∀ x, x ≠ d → t.drone x = s.drone x) ∧ RegsBut [R.DRN_ERR_E d] s t ∧ t.meas = s.meas.eraseIdx i ∧ t = { s with regs := t.regs, drones := t.drones, meas := t.meas }) ∧
  -- DRONE_MEASUREMENT (R47): The first measurement in ACQUIRE sets the phase in the next cycle.
  (∀ (s : State) (i d : Nat) (m : Meas), s.meas[i]? = some m → (d = m.drone ∧ d < s.drones.length ∧ m.kind ≠ 0) → (s.rd (R.DRN_SRC_KIND d) = m.kind ∧ s.rd (R.DRN_SRC_INDEX d) = m.index ∧ s.on (R.DRN_STAT_ALT_ACTIVE d) = false ∧ s.on (R.DRN_CTRL_ALT_EN d) = false) → (s.drnState d = 1 ∧ (s.drone d).preset = false ∧ s.measAge d m.cap ≤ 4095 ∧ (s.drone d).first = true ∧ s.rd (R.DRN_CTRL_LOCK_CNT d) ≠ 0) → 
    Leads s (.droneMeasurement i) fun t => t.drone d = { s.drone d with gotMeas := true, lastTheta := m.theta % 2 ^ 32, first := false, lockRun := 0, ops := (s.drone d).ops ++ [.jump (m.theta % 2 ^ 32)] } ∧
    (∀ x, x ≠ d → t.drone x = s.drone x) ∧ RegsBut [R.DRN_ERR_E d] s t ∧ t.meas = s.meas.eraseIdx i ∧ t = { s with regs := t.regs, drones := t.drones, meas := t.meas }) ∧
  -- DRONE_MISS_TEST (R49): An interval with a measurement begins the count of missed ones anew.
  (∀ (s : State) (d : Fin 16), d.val < s.drones.length → (s.drnState d ≠ 0 ∧ s.followed d ≠ 0 ∧ (s.drone d).nExp ≠ 0 ∧ (s.drone d).missMax ≠ 0 ∧ (s.drone d).missAge + (s.drone d).nExp ≤ (s.drone d).age) → (s.drone d).gotMeas = true → 
    Leads s (.droneMissTest d) fun t => t.drone d = { s.drone d with missAge := (s.drone d).missAge + (s.drone d).nExp, gotMeas := false, missRun := 0 } ∧ RegsBut [] s t ∧ DroneOnly d s t) ∧
  -- DRONE_MISS_TEST (R49): An interval of a LOCKED Drone without one is counted; fewer than MISS_MAX in a row change no state.
  (∀ (s : State) (d : Fin 16), d.val < s.drones.length → (s.drnState d = 2 ∧ s.followed d ≠ 0 ∧ (s.drone d).nExp ≠ 0 ∧ (s.drone d).missRun + 1 < (s.drone d).missMax ∧ (s.drone d).missAge + (s.drone d).nExp ≤ (s.drone d).age) → (s.drone d).gotMeas = false → 
    Leads s (.droneMissTest d) fun t => t.drone d = { s.drone d with missAge := (s.drone d).missAge + (s.drone d).nExp, gotMeas := false, missRun := (s.drone d).missRun + 1 } ∧
    t.rd (R.DRN_CNT2_MISSED d) = satAdd 16 (s.rd (R.DRN_CNT2_MISSED d)) 1 ∧ RegsBut [R.DRN_CNT2_MISSED d] s t ∧ DroneOnly d s t) ∧
  -- HOLD_MAX_EXPIRY (R49): A Drone in HOLDOVER for HOLD_MAX cycles is LOST: quality INVALID, SOURCE_LOST.
  (∀ (s : State) (d : Fin 16), d.val < s.drones.length → (s.drnState d = 3 ∧ s.rd (R.DRN_HOLD_MAX_HOLD_MAX d) ≤ (s.drone d).hold ∧ s.on (R.DRN_CTRL_NOTIFY_EN d) = false) → 
    Leads s (.holdMaxExpiry d) fun t => t.drnState d = 4 ∧ t.drnQual d = 0 ∧ t.on (R.DRN_STAT_SOURCE_LOST d) = true ∧ t.drone d = { s.drone d with hold := 0, missRun := 0, outRun := 0, gotMeas := true } ∧
    RegsBut [R.DRN_STAT_STATE d, R.DRN_STAT_QUALITY d, R.DRN_STAT_SOURCE_LOST d] s t ∧ DroneOnly d s t)

/-- What 9 commands of Drones and external time do, from DRN_ENABLE to LATCH_BANK_READ. For each of the commands DRN_ENABLE, REACQ, PRESET_GO, DRN_CNT_CLR, ALT_ACTIVE_RETURN, EV_PHASE_WRITE, EV_CTRL_WRITE, DRN_SNAP_READ, LATCH_BANK_READ: in every state and with all operands that meet the conditions of its clause, exec answers a next state, of which the clause gives the values that the rules of the command put there and which equals the state before in everything that the clause does not list. -/
def Obligations.DroneCommands : Prop :=
  -- DRN_ENABLE (R49): ENABLE of a Drone that is OFF and passes the checks of R45: without a source it is LOCKED, else in ACQUIRE; F starts at F_INIT within its limits.
  (∀ (s s1 : State) (w : Who) (d : Fin 16) (v : BitVec 32) (g : Int), s.takes w (0x30000 + 0x400 * d) v.toNat = true → s1 = s.drnFields d v.toNat → d.val < s.drones.length → (s.on (R.DRN_CTRL_ENABLE d) = false ∧ s.drnState d = 0) → (bit v.toNat 0 = true ∧ bits v.toNat 1 2 = 0 ∧ bits v.toNat 4 2 = 0) → s1.drnBad d = false → g = s.clampF d (sx 48 (s.rd (R.DRN_FINIT_LO_FINIT_LO d) + s.rd (R.DRN_FINIT_HI_FINIT_HI d) * 2 ^ 32)) → 
    Leads s (.drnEnable w d v) fun t => t.drnState d = (if s.rd (R.DRN_SRC_KIND d) = 0 then 2 else 1) ∧ t.drnQual d = (if s.rd (R.DRN_SRC_KIND d) = 0 then 2 else 1) ∧ t.on (R.DRN_CTRL_ENABLE d) = true ∧
    t.on (R.DRN_STAT_ALT_ACTIVE d) = false ∧ t.drone d = { s.drnTaken d with f := g, hold := 0 } ∧
    RegsBut [R.DRN_STAT_STATE d, R.DRN_STAT_QUALITY d, R.DRN_STAT_ALT_ACTIVE d, R.DRN_STAT_FSAT d, R.DRN_STAT_DIR d, R.DRN_STAT_REVERSALS d] s1 t ∧ DroneWritten d s t) ∧
  -- DRN_ENABLE (R49): A setup that fails the checks of R45 is refused: ENABLE stays 0 and CFG_REJ is set.
  (∀ (s s1 : State) (w : Who) (d : Fin 16) (v : BitVec 32), s.takes w (0x30000 + 0x400 * d) v.toNat = true → s1 = s.drnFields d v.toNat → s.on (R.DRN_CTRL_ENABLE d) = false → (bit v.toNat 0 = true ∧ bits v.toNat 1 2 = 0 ∧ bit v.toNat 5 = false) → s1.drnBad d = true → 
    Leads s (.drnEnable w d v) fun t => t.on (R.DRN_CTRL_ENABLE d) = false ∧ t.on (R.DRN_STAT_CFG_REJ d) = true ∧ RegsBut [R.DRN_CTRL_ENABLE d, R.DRN_STAT_CFG_REJ d] s1 t ∧ t = { s with regs := t.regs, answer := t.answer }) ∧
  -- DRN_ENABLE (R49): ENABLE written 0: the Drone is OFF, its phase word, cycle count and F hold.
  (∀ (s s1 : State) (w : Who) (d : Fin 16) (v : BitVec 32), s.takes w (0x30000 + 0x400 * d) v.toNat = true → s1 = s.drnFields d v.toNat → d.val < s.drones.length → (s.on (R.DRN_CTRL_ENABLE d) = true ∧ s.drnState d ≠ 0) → (bits v.toNat 0 3 = 0 ∧ bits v.toNat 4 2 = 0) → 
    Leads s (.drnEnable w d v) fun t => t.drnState d = 0 ∧ t.drnQual d = 0 ∧ t.on (R.DRN_CTRL_ENABLE d) = false ∧ t.drone d = { s.drone d with ops := [], hold := 0, missRun := 0, outRun := 0, gotMeas := true } ∧
    RegsBut [R.DRN_STAT_STATE d, R.DRN_STAT_QUALITY d] s1 t ∧ DroneWritten d s t) ∧
  -- REACQ (R49): REACQ from LOCKED, HOLDOVER or LOST: ACQUIRE anew with F kept.
  (∀ (s s1 : State) (w : Who) (d : Fin 16) (v : BitVec 32), s.takes w (0x30000 + 0x400 * d) (v ||| 2).toNat = true → s1 = s.drnFields d v.toNat → d.val < s.drones.length → (2 ≤ s.drnState d ∧ s.on (R.DRN_CTRL_ENABLE d) = bit v.toNat 0) → (bit v.toNat 2 = false ∧ bits v.toNat 4 2 = 0) → s1.drnBad d = false → 
    Leads s (.reacq w d v) fun t => t.drnState d = 1 ∧ t.drnQual d = 1 ∧ t.on (R.DRN_STAT_ALT_ACTIVE d) = false ∧ t.drone d = { s.drnTaken d with hold := 0 } ∧
    RegsBut [R.DRN_STAT_STATE d, R.DRN_STAT_QUALITY d, R.DRN_STAT_ALT_ACTIVE d] s1 t ∧ DroneWritten d s t) ∧
  -- PRESET_GO (R67): PRESET_GO: phase and cycle count take the preset, every event slot is armed.
  (∀ (s s1 : State) (w : Who) (d : Fin 16) (v : BitVec 32), s.takes w (0x30000 + 0x400 * d) (v ||| 4).toNat = true → s1 = s.drnFields d v.toNat → d.val < s.drones.length → s.on (R.DRN_CTRL_ENABLE d) = bit v.toNat 0 → (bit v.toNat 1 = false ∧ bit v.toNat 5 = false) → 
    Leads s (.presetGo w d v) fun t => t.drone d = { s.drone d with acc := s.rd (R.DRN_PRESET_PH_PRESET_PH d) * 2 ^ 32, cyc := s.rd (R.DRN_PRESET_CC_PRESET_CC d), ops := [], preset := true, slots := rearmAll (s.drone d).slots } ∧
    RegsBut [] s1 t ∧ DroneWritten d s t) ∧
  -- DRN_CNT_CLR (R824): drnCntClr
  (∀ (s s1 : State) (w : Who) (d : Fin 16) (v : BitVec 32), s.takes w (0x30000 + 0x400 * d) (v ||| 0x20).toNat = true → s1 = s.drnFields d v.toNat → s.on (R.DRN_CTRL_ENABLE d) = bit v.toNat 0 → bits v.toNat 1 2 = 0 → 
    Leads s (.drnCntClr w d v) fun t => t.rd (R.DRN_CNT1_OUTLIERS d) = 0 ∧ t.rd (R.DRN_CNT1_LATE d) = 0 ∧ t.rd (R.DRN_CNT2_MISSED d) = 0 ∧ t.rd (R.DRN_CNT2_SUPPRESSED d) = 0 ∧ t.rd (R.DRN_CNT3_LOST_MEAS d) = 0 ∧
    RegsBut [R.DRN_CNT1_OUTLIERS d, R.DRN_CNT1_LATE d, R.DRN_CNT2_MISSED d, R.DRN_CNT2_SUPPRESSED d, R.DRN_CNT3_LOST_MEAS d] s1 t ∧ t = { s with regs := t.regs, answer := t.answer }) ∧
  -- ALT_ACTIVE_RETURN (R56): ALT_ACTIVE written 1: the Drone is back on its primary source.
  (∀ (s : State) (w : Who) (d : Fin 16) (v : BitVec 32), s.takes w (0x30074 + 0x400 * d) (v ||| 0x40).toNat = true → 
    Leads s (.altActiveReturn w d v) fun t => t.on (R.DRN_STAT_ALT_ACTIVE d) = false ∧ t.on (R.DRN_STAT_SOURCE_LOST d) = (s.on (R.DRN_STAT_SOURCE_LOST d) && !bit v.toNat 8) ∧
    t.on (R.DRN_STAT_LOVF d) = (s.on (R.DRN_STAT_LOVF d) && !bit v.toNat 9) ∧ t.on (R.DRN_STAT_CFG_REJ d) = (s.on (R.DRN_STAT_CFG_REJ d) && !bit v.toNat 10) ∧ t.on (R.DRN_STAT_LWERR d) = (s.on (R.DRN_STAT_LWERR d) && !bit v.toNat 11) ∧
    RegsBut [R.DRN_STAT_ALT_ACTIVE d, R.DRN_STAT_SOURCE_LOST d, R.DRN_STAT_LOVF d, R.DRN_STAT_CFG_REJ d, R.DRN_STAT_LWERR d] s t ∧ t = { s with regs := t.regs, answer := t.answer }) ∧
  -- EV_PHASE_WRITE (R69): A write of EV_PHASE arms every phase of the slot again.
  (∀ (s : State) (w : Who) (d e : Fin 16) (v : BitVec 32), s.takes w (0x30200 + 0x400 * d + 0x10 * e) v.toNat = true → (d.val < s.drones.length ∧ e.val < (s.drone d).slots.length) → 
    Leads s (.evPhaseWrite w d e v) fun t => t.rd (R.EV_PHASE_PHASE d e) = v.toNat ∧ t.drone d = { s.drone d with slots := (s.drone d).slots.set e { (s.drone d).slots.getD e {} with unarmed := [] } } ∧
    RegsBut [R.EV_PHASE_PHASE d e] s t ∧ DroneWritten d s t) ∧
  -- EV_CTRL_WRITE (R60): A write of EV_CTRL sets the mode and arms the slot again; MODE 1 arms a slot that fires once.
  (∀ (s : State) (w : Who) (d e : Fin 16) (v : BitVec 32), s.takes w (0x30204 + 0x400 * d + 0x10 * e) v.toNat = true → (d.val < s.drones.length ∧ e.val < (s.drone d).slots.length) → 
    Leads s (.evCtrlWrite w d e v) fun t => t.rd (R.EV_CTRL_MODE d e) = bits v.toNat 0 2 ∧ t.rd (R.EV_CTRL_DIR d e) = bits v.toNat 2 2 ∧ t.rd (R.EV_CTRL_QUAL d e) = bits v.toNat 4 1 ∧ t.rd (R.EV_CTRL_CQ d e) = bits v.toNat 5 1 ∧
    t.rd (R.EV_CTRL_N d e) = bits v.toNat 16 16 ∧ t.on (R.EV_CTRL_FIRED d e) = (s.on (R.EV_CTRL_FIRED d e) && !bit v.toNat 6) ∧
    t.drone d = { s.drone d with slots := (s.drone d).slots.set e { disarmed := if bits v.toNat 0 2 = 1 then false else ((s.drone d).slots.getD e {}).disarmed, unarmed := [] } } ∧
    RegsBut [R.EV_CTRL_MODE d e, R.EV_CTRL_DIR d e, R.EV_CTRL_QUAL d e, R.EV_CTRL_CQ d e, R.EV_CTRL_N d e, R.EV_CTRL_FIRED d e] s t ∧ DroneWritten d s t) ∧
  -- DRN_SNAP_READ (R74): A read of DRN_SNAP_LO answers the phase word and DRN_SNAP_HI takes the rest of the Drone's state.
  (∀ (s : State) (w : Who) (d : Fin 16), s.gives w (0x30060 + 0x400 * d) = true → 
    Leads s (.drnSnapRead w d) fun t => t.answer.st = .ok ∧ t.answer.value = s.phase d ∧ t.rd (R.DRN_SNAP_HI_CYCLE d) = (s.drone d).cyc % 2 ^ 16 ∧ t.rd (R.DRN_SNAP_HI_STATE d) = s.drnState d % 8 ∧
    t.rd (R.DRN_SNAP_HI_QUALITY d) = s.drnQual d % 4 ∧ t.rd (R.DRN_SNAP_HI_DIR d) = s.rd (R.DRN_STAT_DIR d) % 2 ∧
    RegsBut [R.DRN_SNAP_HI_CYCLE d, R.DRN_SNAP_HI_STATE d, R.DRN_SNAP_HI_QUALITY d, R.DRN_SNAP_HI_DIR d] s t ∧ t = { s with regs := t.regs, answer := t.answer }) ∧
  -- LATCH_BANK_READ (R787): A read of the last word of the latch bank frees it.
  (∀ (s : State) (w : Who), s.gives w 0x3508C = true → 
    Leads s (.latchBankRead w) fun t => t.answer.st = .ok ∧ t.answer.value = s.rd (R.LATCH_WORD 35) % 2 ^ 32 ∧ t = { s with latchUnread := false, answer := t.answer })

/-- What the commands of field interfaces do: FR_TAIL_WRITE, FIELD_ENTRY_DONE, ETH_FRAME_RECEIVE, ETH_FRAME_TRANSMIT. For each of the commands FR_TAIL_WRITE, FIELD_ENTRY_DONE, ETH_FRAME_RECEIVE, ETH_FRAME_TRANSMIT: in every state and with all operands that meet the conditions of its clause, exec answers a next state, of which the clause gives the values that the rules of the command put there and which equals the state before in everything that the clause does not list. -/
def Obligations.FieldRings : Prop :=
  -- FR_TAIL_WRITE (R602): A tail within the ring that does not pass the head gives entries to the part.
  (∀ (s : State) (r : RingId) (w : Who) (v : BitVec 32) (b n x : Nat), (b = ringBase r ∧ n = s.frSize b ∧ x = bits v.toNat 0 12) → s.takes w (b + 0xC) v.toNat = true → (x < n ∧ (s.rd (frTail b) + n - s.rd (frHead b) % n) % n ≤ (x + n - s.rd (frHead b) % n) % n) → 
    Leads s (.frTailWrite r w v) fun t => t.rd (frTail b) = x ∧ RegsBut [frTail b] s t ∧ t = { s with regs := t.regs, answer := t.answer } ∧ t.answer.st = .ok) ∧
  -- FR_TAIL_WRITE (R602): A tail past the head, or outside the ring, is ignored and sets TAIL_ERR.
  (∀ (s : State) (r : RingId) (w : Who) (v : BitVec 32) (b n x : Nat), (b = ringBase r ∧ n = s.frSize b ∧ x = bits v.toNat 0 12) → s.takes w (b + 0xC) v.toNat = true → (n ≤ x ∨ (x + n - s.rd (frHead b) % n) % n < (s.rd (frTail b) + n - s.rd (frHead b) % n) % n) → 
    Leads s (.frTailWrite r w v) fun t => t.on (frTailErr b) = true ∧ RegsBut [frTailErr b] s t ∧ t = { s with regs := t.regs, answer := t.answer } ∧ t.answer.st = .ok) ∧
  -- FIELD_ENTRY_DONE (R604): The oldest finished entry is written back whole; without TOK and TOK_EN no token follows.
  (∀ (s : State) (r : RingId) (rs : List Reply) (b : Nat) (e : List Byte) (l : List (List Byte)) (q : State × Status), (b = ringBase r ∧ s.frDoneOf b = e :: l) → q = State.gmWrites { s with replies := rs } (s.frWho b) (s.frEntryAt b (s.rd (frHead b))) e → (bit (e.getD (if frIsCan b then 6 else 10) 0).toNat 1 = false ∧ s.on (frTokEn b) = false) → (s.frSafety b = false ∧ ∀ k < 16, s.on (R.EF_CTL_TO_SAFETY (frIndex b) k) = false) → 
    Leads s (.fieldEntryDone r rs) fun t => t.frDoneOf b = l ∧ t.rd (frHead b) = (s.rd (frHead b) + 1) % s.frSize b % 2 ^ 12 ∧ (∀ x, x ≠ b → t.frDoneOf x = q.1.frDoneOf x) ∧
    RegsBut [frHead b] q.1 t ∧ t = { q.1 with regs := t.regs, frDone := t.frDone, replies := [] }) ∧
  -- FIELD_ENTRY_DONE (R604): With TOK in the entry or TOK_EN one token goes to the target in FR_CFG.
  (∀ (s : State) (r : RingId) (rs : List Reply) (b : Nat) (e : List Byte) (l : List (List Byte)) (q : State × Status), (b = ringBase r ∧ s.frDoneOf b = e :: l) → q = State.gmWrites { s with replies := rs } (s.frWho b) (s.frEntryAt b (s.rd (frHead b))) e → (bit (e.getD (if frIsCan b then 6 else 10) 0).toNat 1 = true ∨ s.on (frTokEn b) = true) → (s.frSafety b = false ∧ ∀ k < 16, s.on (R.EF_CTL_TO_SAFETY (frIndex b) k) = false) → 
    Leads s (.fieldEntryDone r rs) fun t => t.frDoneOf b = l ∧ t.rd (frHead b) = (s.rd (frHead b) + 1) % s.frSize b % 2 ^ 12 ∧
    t.msgs = q.1.msgs ++ [(tokenMsg q.1.chip (s.rd (frUnit b)) (s.rd (frContext b)) (s.rd (frCounter b)) 1 (q.1.epochOf (s.rd (frUnit b))) 1, 0)] ∧
    RegsBut [frHead b] q.1 t ∧ t = { q.1 with regs := t.regs, frDone := t.frDone, msgs := t.msgs, replies := [] }) ∧
  -- FIELD_ENTRY_DONE (R604): An entry of a CAN ring under SAFETY tells the token sink of the safety island.
  (∀ (s : State) (c : Fin 4) (rs : List Reply) (b : Nat) (e : List Byte) (l : List (List Byte)) (q : State × Status), (b = canRing c ∧ s.frDoneOf b = e :: l) → q = State.gmWrites { s with replies := rs } { ini := 0x27, cls := 0, remote := false } (s.frEntryAt b (s.rd (frHead b))) e → s.on (R.CAN_CTRL_SAFETY c) = true → 
    Leads s (.fieldEntryDone (.can c) rs) fun t => t.frDoneOf b = l ∧ t.rd (frHead b) = (s.rd (frHead b) + 1) % s.frSize b % 2 ^ 12 ∧
    t.msgs = q.1.msgs ++ [(tokenMsg q.1.chip 0x68 (s.rd (frContext b)) (s.rd (frCounter b)) 1 (q.1.epochOf 0x68) 1, 0)] ∧
    RegsBut [frHead b] q.1 t ∧ t = { q.1 with regs := t.regs, frDone := t.frDone, msgs := t.msgs, replies := [] }) ∧
  -- ETH_FRAME_RECEIVE (R607): A good frame with an entry in its ring: its bytes go to the buffer as far as they fit, and the entry is finished with its status, time stamp, tag and filter.
  (∀ (s : State) (p speed : Fin 4) (f : List Byte) (rs : List Reply) (s1 : State) (b i k : Nat) (e : State × Status × List Byte) (n : Nat) (q : State × Status), (s.on (R.ETH_CTRL_EN p) = true ∧ 60 ≤ f.length ∧ f.length ≤ s.rd (R.ETH_MAXLEN_MAXLEN p)) → (s.ethAccepts p f = true ∧ ethType f ≠ s.rd R.WW_ETYPE_ETYPE) → s1 = State.linkUp { s with replies := rs } p speed → (b = ethRxRing p (s.ethTarget p f).1 ∧ k = (s.ethTarget p f).2 ∧ s.frNext b = some i) → e = s1.frRead b i → (e.2.1 = .ok ∧ e.2.2.length = 32) → n = min (leNat ((e.2.2.drop 8).take 2)) f.length → q = e.1.gmWrites (s.frWho b) (leNat (e.2.2.take 8)) (f.take n) → 
    Leads s (.ethFrameReceive p speed f true rs) fun t => t.frDoneOf b = q.1.frDoneOf b ++ [ethEntry (e.2.2.take 8) n (e.2.2.getD 10 0).toNat
      (statusNat q.2 + b2n (decide (n < f.length)) * 16 + (s.ethTarget p f).1 % 8 * 32) (s.ethStamp f (s.rd (R.ETH_LAT_ING_LAT p))) (ethTci f) k] ∧
    (∀ x, x ≠ b → t.frDoneOf x = q.1.frDoneOf x) ∧ RegsBut [] q.1 t ∧ t = { q.1 with frDone := t.frDone, replies := [] }) ∧
  -- ETH_FRAME_RECEIVE (R607): A frame with a bad FCS, a short or a long one is dropped and counted in RX_BAD.
  (∀ (s : State) (p speed : Fin 4) (f : List Byte) (fcsOk : Bool) (rs : List Reply), s.on (R.ETH_CTRL_EN p) = true → (fcsOk = false ∨ f.length < 60 ∨ s.rd (R.ETH_MAXLEN_MAXLEN p) < f.length) → 
    Leads s (.ethFrameReceive p speed f fcsOk rs) fun t => t.rd (R.ETH_STAT_RX_BAD p) = satAdd 16 (s.rd (R.ETH_STAT_RX_BAD p)) 1 ∧
    RegsBut [R.ETH_STAT_RX_BAD p] (s.linkUp p speed) t ∧ t = { s with regs := t.regs, replies := [] }) ∧
  -- ETH_FRAME_RECEIVE (R607): A frame to a destination that the port does not accept is dropped.
  (∀ (s : State) (p speed : Fin 4) (f : List Byte) (rs : List Reply), (s.on (R.ETH_CTRL_EN p) = true ∧ 60 ≤ f.length ∧ f.length ≤ s.rd (R.ETH_MAXLEN_MAXLEN p)) → s.ethAccepts p f = false → 
    Leads s (.ethFrameReceive p speed f true rs) fun t => t = { s.linkUp p speed with replies := [] }) ∧
  -- ETH_FRAME_RECEIVE (R607): A frame whose ring has no entry is dropped and counted in RX_NOBUF.
  (∀ (s : State) (p speed : Fin 4) (f : List Byte) (rs : List Reply) (b : Nat), (s.on (R.ETH_CTRL_EN p) = true ∧ 60 ≤ f.length ∧ f.length ≤ s.rd (R.ETH_MAXLEN_MAXLEN p)) → (s.ethAccepts p f = true ∧ ethType f ≠ s.rd R.WW_ETYPE_ETYPE) → (b = ethRxRing p (s.ethTarget p f).1 ∧ s.frNext b = none) → 
    Leads s (.ethFrameReceive p speed f true rs) fun t => t.rd (frNobuf b) = satAdd 16 (s.rd (frNobuf b)) 1 ∧ RegsBut [frNobuf b] (s.linkUp p speed) t ∧ t = { s with regs := t.regs, replies := [] }) ∧
  -- ETH_FRAME_TRANSMIT (R608): The frame of the highest class that may start, here a ring frame: it is sent, its entry is finished, and a tunnel frame has the class's next turn.
  (∀ (s : State) (p speed : Fin 4) (rs : List Reply) (s1 : State) (c b i n : Nat) (e d : State × Status × List Byte) (ts : Nat), (s.on (R.ETH_CTRL_EN p) = true ∧ c < 8) → s1 = State.linkUp { s with replies := rs } p speed → (List.range 8).all (fun k => decide (k ≤ c) || decide (s1.classNext p k speed = (s1, none))) = true → (s1.safetyNext p c speed = none ∧ s.ethTurn.contains (8 * p + c) = false) → (b = ethTxRing p c ∧ s.frNext b = some i) → e = s1.frRead b i → (e.2.1 = .ok ∧ e.2.2.length = 32) → n = leNat ((e.2.2.drop 8).take 2) → (60 ≤ n ∧ n ≤ s.rd (R.ETH_MAXLEN_MAXLEN p) ∧ s.gateOpenFor p c (ethTime speed n) = true) → d = e.1.gmReads (s.frWho b) (leNat (e.2.2.take 8)) n → d.2.1 = .ok → (ts = (if bit (e.2.2.getD 10 0).toNat 0 = true then s.ethStamp d.2.2 (s.rd (R.ETH_LAT_EGR_LAT p)) else 0)) → 
    Leads s (.ethFrameTransmit p speed rs) fun t => t.ethOut = d.1.ethOut ++ [((p : Nat), s.marked true p c d.2.2)] ∧
    t.frDoneOf b = d.1.frDoneOf b ++ [e.2.2.take 11 ++ leBytes 1 (c * 32) ++ leBytes 6 ts ++ List.replicate 14 0] ∧ t.ethTurn = (8 * p + c) :: d.1.ethTurn.filter (· != 8 * p + c) ∧
    (∀ x, x ≠ b → t.frDoneOf x = d.1.frDoneOf x) ∧ RegsBut [] d.1 t ∧ t = { d.1 with ethOut := t.ethOut, frDone := t.frDone, ethTurn := t.ethTurn, replies := [] }) ∧
  -- ETH_FRAME_TRANSMIT (R608): No class has a frame that may start: the port idles.
  (∀ (s : State) (p speed : Fin 4) (rs : List Reply) (s1 : State), s.on (R.ETH_CTRL_EN p) = true → s1 = State.linkUp { s with replies := rs } p speed → (List.range 8).all (fun k => decide (s1.classNext p k speed = (s1, none))) = true → 
    Leads s (.ethFrameTransmit p speed rs) fun t => t = { s1 with replies := [] })

/-- What the commands of field interfaces do: GATE_ENTRY_END, QBV_CHANGE, ADMIN_LIST_ACTIVATION, RATE_ADJ_WRITE, TIME_STEP. For each of the commands GATE_ENTRY_END, QBV_CHANGE, ADMIN_LIST_ACTIVATION, RATE_ADJ_WRITE, TIME_STEP: in every state and with all operands that meet the conditions of its clause, exec answers a next state, of which the clause gives the values that the rules of the command put there and which equals the state before in everything that the clause does not list. -/
def Obligations.TimeAndGates : Prop :=
  -- GATE_ENTRY_END (R612): An interval that ends within the cycle: the next entry's gates apply until its interval or the cycle ends; the last entry lasts to the end of the cycle.
  (∀ (s : State) (p : Fin 4) (q : QbvSt) (e : Nat), p.val < s.qbv.length → q = s.qbvOf p → (s.on (R.QBV_STAT_OPER p) = true ∧ tAfter s.sysTime q.entryEnd = true ∧ q.gateAt ≠ some s.now) → q.entryEnd ≠ q.cycleEnd → e = (q.entryEnd + (q.entries.getD (q.idx + 1) (0, 0, 0)).1) % 2 ^ 48 → 
    Leads s (.gateEntryEnd p) fun t => GatesPut p { q with idx := q.idx + 1, entryEnd := if q.entries.length ≤ q.idx + 2 ∨ tAfter e q.cycleEnd then q.cycleEnd else e, gateAt := some s.now } s t ∧
    RegsBut [R.QBV_STAT_ENTRY p] s t ∧ t = { s with regs := t.regs, qbv := t.qbv }) ∧
  -- GATE_ENTRY_END (R612): The cycle ends: the first entry's gates apply and the next cycle begins.
  (∀ (s : State) (p : Fin 4) (q : QbvSt) (e : Nat), p.val < s.qbv.length → q = s.qbvOf p → (s.on (R.QBV_STAT_OPER p) = true ∧ tAfter s.sysTime q.entryEnd = true ∧ q.gateAt ≠ some s.now) → q.entryEnd = q.cycleEnd → e = (q.cycleEnd + (q.entries.getD 0 (0, 0, 0)).1) % 2 ^ 48 → 
    Leads s (.gateEntryEnd p) fun t => GatesPut p { q with idx := 0, cycleEnd := (q.cycleEnd + q.cycle) % 2 ^ 48, entryEnd := if q.entries.length ≤ 1 ∨ tAfter e ((q.cycleEnd + q.cycle) % 2 ^ 48) then (q.cycleEnd + q.cycle) % 2 ^ 48 else e, gateAt := some s.now } s t ∧
    RegsBut [R.QBV_STAT_ENTRY p] s t ∧ t = { s with regs := t.regs, qbv := t.qbv }) ∧
  -- GATE_ENTRY_END (R612): gateEntryEnd, early
  (∀ (s : State) (p : Fin 4), (s.on (R.QBV_STAT_OPER p) = false ∨ tAfter s.sysTime (s.qbvOf p).entryEnd = false) → 
    Leads s (.gateEntryEnd p) fun t => t = s) ∧
  -- QBV_CHANGE (R790): CHANGE with a good admin list: it is PENDING until the first boundary of its cycle at or after the base time.
  (∀ (s : State) (p : Fin 4) (w : Who) (v : BitVec 32), (p.val < s.qbv.length ∧ s.takes w (0x310600 + 0x1000 * p) (v ||| 2).toNat = true) → s.qbvBad p = false → 
    Leads s (.qbvChange p w v) fun t => t.on (R.QBV_STAT_PENDING p) = true ∧ t.on (R.QBV_CTRL_EN p) = bit v.toNat 0 ∧
    t.qbvOf p = { s.qbvOf p with changeAt := nextBoundary (s.rd (R.QBV_BASE_LO_BASE p) + s.rd (R.QBV_BASE_HI_BASE p) * 2 ^ 32) (s.rd (R.QBV_CYCLE_CYCLE p)) s.sysTime } ∧ (∀ x, x ≠ p.val → t.qbvOf x = s.qbvOf x) ∧
    RegsBut [R.QBV_STAT_PENDING p, R.QBV_CTRL_EN p] s t ∧ t = { s with regs := t.regs, qbv := t.qbv, answer := t.answer }) ∧
  -- QBV_CHANGE (R790): A list with no entry, too many, a cycle outside 1 µs to 1 s or an entry without an interval sets CFG_ERR.
  (∀ (s : State) (p : Fin 4) (w : Who) (v : BitVec 32), s.takes w (0x310600 + 0x1000 * p) (v ||| 2).toNat = true → (s.rd (R.QBV_LEN_LEN p) = 0 ∨ 256 < s.rd (R.QBV_LEN_LEN p) ∨ s.rd (R.QBV_CYCLE_CYCLE p) < 1000 ∨ 1000000000 < s.rd (R.QBV_CYCLE_CYCLE p) ∨ s.rd (R.QBV_ENT_LO_INTERVAL p 0) = 0) → 
    Leads s (.qbvChange p w v) fun t => t.on (R.QBV_STAT_CFG_ERR p) = true ∧ t.on (R.QBV_CTRL_EN p) = bit v.toNat 0 ∧ RegsBut [R.QBV_STAT_CFG_ERR p, R.QBV_CTRL_EN p] s t ∧ t = { s with regs := t.regs, answer := t.answer }) ∧
  -- ADMIN_LIST_ACTIVATION (R612): At the boundary the admin list becomes operational and its first entry's gates apply.
  (∀ (s : State) (p : Fin 4) (q : QbvSt) (c e : Nat), p.val < s.qbv.length → q = s.qbvOf p → (s.on (R.QBV_STAT_PENDING p) = true ∧ tAfter s.sysTime q.changeAt = true ∧ q.gateAt ≠ some s.now) → (c = s.rd (R.QBV_CYCLE_CYCLE p) ∧ e = (q.changeAt + ((s.adminList p).getD 0 (0, 0, 0)).1) % 2 ^ 48) → 
    Leads s (.adminListActivation p) fun t => t.on (R.QBV_STAT_PENDING p) = false ∧ t.on (R.QBV_STAT_OPER p) = true ∧
    GatesPut p { q with entries := s.adminList p, base := q.changeAt, cycle := c, idx := 0, cycleEnd := (q.changeAt + c) % 2 ^ 48, entryEnd := if (s.adminList p).length ≤ 1 ∨ tAfter e ((q.changeAt + c) % 2 ^ 48) then (q.changeAt + c) % 2 ^ 48 else e, gateAt := some s.now } s t ∧
    RegsBut [R.QBV_STAT_ENTRY p, R.QBV_STAT_PENDING p, R.QBV_STAT_OPER p] s t ∧ t = { s with regs := t.regs, qbv := t.qbv }) ∧
  -- ADMIN_LIST_ACTIVATION (R612): adminListActivation, early
  (∀ (s : State) (p : Fin 4), (s.on (R.QBV_STAT_PENDING p) = false ∨ tAfter s.sysTime (s.qbvOf p).changeAt = false) → 
    Leads s (.adminListActivation p) fun t => t = s) ∧
  -- RATE_ADJ_WRITE (R609): RATE_ADJ takes the value; from the next control cycle on system time advances by 10,737,418,240 plus RATE_ADJ held within ±10,737,418.
  (∀ (s : State) (w : Who) (v : BitVec 32), s.takes w 0x314008 v.toNat = true → 
    Leads s (.rateAdjWrite w v) fun t => t.rd R.ST_RATE_RATE_ADJ = v.toNat ∧ (t.timeInc : Int) = 10737418240 + max (-10737418) (min 10737418 v.toInt) ∧ RegsBut [R.ST_RATE_RATE_ADJ] s t ∧ t = { s with regs := t.regs, answer := t.answer }) ∧
  -- TIME_STEP (R609): A step adds its signed 48 bits to system time, which keeps its fraction, and counts in STEPS; the gates of a port with no operational list stay.
  (∀ (s : State) (w : Who) (v : BitVec 32) (d : Int), s.takes w 0x314010 v.toNat = true → d = sx 48 (s.rd R.ST_STEP_LO_STEP + bits v.toNat 0 16 * 2 ^ 32) → s.sysAcc < 2 ^ 80 → 
    Leads s (.timeStep w v) fun t => (t.sysTime : Int) = (s.sysTime + d) % 2 ^ 48 ∧ t.sysAcc % 2 ^ 32 = s.sysAcc % 2 ^ 32 ∧ t.rd R.ST_CNT_STEPS = (s.rd R.ST_CNT_STEPS + 1) % 2 ^ 32 ∧
    (∀ p < 4, s.on (R.QBV_STAT_OPER p) = false → t.qbvOf p = s.qbvOf p) ∧ RegsBut [R.ST_CNT_STEPS, R.QBV_STAT_ENTRY 0, R.QBV_STAT_ENTRY 1, R.QBV_STAT_ENTRY 2, R.QBV_STAT_ENTRY 3] s t ∧
    t = { s with regs := t.regs, sysAcc := t.sysAcc, qbv := t.qbv, answer := t.answer })

/-- What the commands of field interfaces do: CAN_TXREQ, CAN_TRANSMIT_DONE, CAN_FRAME_RECEIVE, CAN_BUS_OFF, CAN_RECOVER, BUS_OFF_RECOVERY. For each of the commands CAN_TXREQ, CAN_TRANSMIT_DONE, CAN_FRAME_RECEIVE, CAN_BUS_OFF, CAN_RECOVER, BUS_OFF_RECOVERY: in every state and with all operands that meet the conditions of its clause, exec answers a next state, of which the clause gives the values that the rules of the command put there and which equals the state before in everything that the clause does not list. -/
def Obligations.CanControllers : Prop :=
  -- CAN_TXREQ (R616): A 1 in bit b of CAN_TXREQ queues buffer b; the others stay.
  (∀ (s : State) (c : Fin 4) (w : Who) (v : BitVec 32), (s.takes w (0x320040 + 0x1000 * c) v.toNat = true ∧ s.rd (R.CAN_TXREQ_REQ c) < 2 ^ 16) → 
    Leads s (.canTxreq c w v) fun t => (∀ b < 16, bit (t.rd (R.CAN_TXREQ_REQ c)) b = (bit (s.rd (R.CAN_TXREQ_REQ c)) b || bit v.toNat b)) ∧ RegsBut [R.CAN_TXREQ_REQ c] s t ∧ t = { s with regs := t.regs, answer := t.answer }) ∧
  -- CAN_TRANSMIT_DONE (R616): The queued buffer with the lowest arbitration field, the lower number on a tie, has been sent: its bit moves from CAN_TXREQ to CAN_TXDONE and TEC goes down.
  (∀ (s : State) (c : Fin 4) (b : Nat), (s.on (R.CAN_CTRL_EN c) = true ∧ s.on (R.CAN_STAT_BUSOFF c) = false) → (b < 16 ∧ bit (s.rd (R.CAN_TXREQ_REQ c)) b = true ∧ s.rd (R.CAN_TXREQ_REQ c) < 2 ^ 16 ∧ s.rd (R.CAN_TXDONE_DONE c) < 2 ^ 16 ∧ s.rd (R.CAN_ERR_TEC c) < 256) → (∀ a < 16, bit (s.rd (R.CAN_TXREQ_REQ c)) a = true → s.canKey c b < s.canKey c a ∨ (s.canKey c b = s.canKey c a ∧ b ≤ a)) → 
    Leads s (.canTransmitDone c) fun t => t.canOut = s.canOut ++ [((c : Nat), s.canFrameOf c b)] ∧ (∀ a < 16, bit (t.rd (R.CAN_TXREQ_REQ c)) a = (bit (s.rd (R.CAN_TXREQ_REQ c)) a && a != b)) ∧
    (∀ a < 16, bit (t.rd (R.CAN_TXDONE_DONE c)) a = (bit (s.rd (R.CAN_TXDONE_DONE c)) a || a == b)) ∧ t.rd (R.CAN_ERR_TEC c) = s.rd (R.CAN_ERR_TEC c) - 1 ∧
    t.rd (R.CAN_ERR_MODE c) = b2n (decide (129 ≤ s.rd (R.CAN_ERR_TEC c)) || decide (128 ≤ s.rd (R.CAN_ERR_REC c))) ∧
    RegsBut [R.CAN_TXREQ_REQ c, R.CAN_TXDONE_DONE c, R.CAN_ERR_TEC c, R.CAN_ERR_MODE c] s t ∧ t = { s with regs := t.regs, canOut := t.canOut }) ∧
  -- CAN_TRANSMIT_DONE (R616): A controller that is off, in bus-off or has nothing queued sends nothing.
  (∀ (s : State) (c : Fin 4), (s.on (R.CAN_CTRL_EN c) = false ∨ s.on (R.CAN_STAT_BUSOFF c) = true ∨ s.rd (R.CAN_TXREQ_REQ c) = 0) → 
    Leads s (.canTransmitDone c) fun t => t = s) ∧
  -- CAN_FRAME_RECEIVE (R617): The first filter that accepts a frame, with an entry in the ring: the entry is finished as R617 lays it out.
  (∀ (s : State) (c : Fin 4) (ts : BitVec 48) (f : CanFrame) (rs : List Reply) (s0 : State) (k i : Nat) (e : State × Status × List Byte), (s.on (R.CAN_CTRL_EN c) = true ∧ s.on (R.CAN_STAT_BUSOFF c) = false ∧ (f.fdf = false ∨ s.on (R.CAN_CTRL_FD c) = true)) → s.rd (R.CAN_ERR_REC c) < 256 → s0 = State.wrAll { s with replies := rs } [(R.CAN_ERR_REC c, s.rd (R.CAN_ERR_REC c) - 1), (R.CAN_ERR_MODE c, b2n (decide (128 ≤ s.rd (R.CAN_ERR_TEC c)) || decide (129 ≤ s.rd (R.CAN_ERR_REC c))))] → (k < 32 ∧ s.canAccepts c k f = true) → (∀ j < k, s.canAccepts c j f = false) → s.frNext (canRing c) = some i → e = s0.frRead (canRing c) i → 
    Leads s (.canFrameReceive c ts f rs) fun t => t.frDoneOf (canRing c) = e.1.frDoneOf (canRing c) ++ [canEntry (b2n (bit (e.2.2.getD 6 0).toNat 1)) ts.toNat k f] ∧ (∀ x, x ≠ canRing c → t.frDoneOf x = e.1.frDoneOf x) ∧
    RegsBut [] e.1 t ∧ t = { e.1 with frDone := t.frDone, replies := [] }) ∧
  -- CAN_FRAME_RECEIVE (R617): A frame that no filter accepts is dropped and counted.
  (∀ (s : State) (c : Fin 4) (ts : BitVec 48) (f : CanFrame) (rs : List Reply), (s.on (R.CAN_CTRL_EN c) = true ∧ s.on (R.CAN_STAT_BUSOFF c) = false ∧ (f.fdf = false ∨ s.on (R.CAN_CTRL_FD c) = true)) → (s.rd (R.CAN_ERR_REC c) < 256 ∧ ∀ j < 32, s.canAccepts c j f = false) → 
    Leads s (.canFrameReceive c ts f rs) fun t => t.rd (R.CAN_STAT_RX_DROP c) = satAdd 16 (s.rd (R.CAN_STAT_RX_DROP c)) 1 ∧ t.rd (R.CAN_ERR_REC c) = s.rd (R.CAN_ERR_REC c) - 1 ∧
    RegsBut [R.CAN_STAT_RX_DROP c, R.CAN_ERR_REC c, R.CAN_ERR_MODE c] s t ∧ t = { s with regs := t.regs, replies := [] }) ∧
  -- CAN_BUS_OFF (R618): Bus-off: BUSOFF and the mode show it; on a controller with SAFETY it is reported; what TEC then shows is open.
  (∀ (s : State) (c : Fin 4), (s.on (R.CAN_CTRL_EN c) = true ∧ s.on (R.CAN_STAT_BUSOFF c) = false) → 
    Leads s (.canBusOff c) fun t => t.on (R.CAN_STAT_BUSOFF c) = true ∧ t.rd (R.CAN_ERR_MODE c) = 2 ∧ t.canRecover.contains c.val = false ∧
    t.reports = s.reports ++ (if s.on (R.CAN_CTRL_SAFETY c) = true then [(0x2C + c.val, 0)] else []) ∧
    RegsBut [R.CAN_STAT_BUSOFF c, R.CAN_ERR_MODE c, R.CAN_ERR_TEC c] s t ∧ t = { s with regs := t.regs, canRecover := t.canRecover, reports := t.reports, freeCtr := s.freeCtr + 1 }) ∧
  -- CAN_RECOVER (R618): RECOVER permits the recovery of a controller in bus-off.
  (∀ (s s1 : State) (c : Fin 4) (w : Who) (v : BitVec 32), s.takes w (0x320000 + 0x1000 * c) (v ||| 16).toNat = true → s1 = s.canFields c v.toNat → s.on (R.CAN_STAT_BUSOFF c) = true → 
    Leads s (.canRecover c w v) fun t => t.canRecover.contains c.val = true ∧ (∀ x, x ≠ c.val → t.canRecover.contains x = s.canRecover.contains x) ∧ RegsBut [] s1 t ∧ t = { s with regs := s1.regs, canRecover := t.canRecover, answer := t.answer }) ∧
  -- BUS_OFF_RECOVERY (R618): With AUTO_REC or RECOVER written, 128 times 11 recessive bits end bus-off.
  (∀ (s : State) (c : Fin 4), (s.on (R.CAN_STAT_BUSOFF c) = true ∧ (s.on (R.CAN_CTRL_AUTO_REC c) = true ∨ s.canRecover.contains c.val = true)) → 
    Leads s (.busOffRecovery c) fun t => t.on (R.CAN_STAT_BUSOFF c) = false ∧ t.rd (R.CAN_ERR_MODE c) = 0 ∧ t.rd (R.CAN_ERR_TEC c) = 0 ∧ t.rd (R.CAN_ERR_REC c) = 0 ∧ t.canRecover.contains c.val = false ∧
    RegsBut [R.CAN_STAT_BUSOFF c, R.CAN_ERR_MODE c, R.CAN_ERR_TEC c, R.CAN_ERR_REC c] s t ∧ t = { s with regs := t.regs, canRecover := t.canRecover }) ∧
  -- BUS_OFF_RECOVERY (R618): Without them the controller stays in bus-off.
  (∀ (s : State) (c : Fin 4), (s.on (R.CAN_CTRL_AUTO_REC c) = false ∧ s.canRecover.contains c.val = false) → 
    Leads s (.busOffRecovery c) fun t => t = s)

/-- What the commands of field interfaces do: CSI_FRAME_START, CSI_LINE, CSI_BAND_COMPLETE, CSI_FRAME_END, CSI_FRAME_TIMEOUT, CS_BUF_RET. For each of the commands CSI_FRAME_START, CSI_LINE, CSI_BAND_COMPLETE, CSI_FRAME_END, CSI_FRAME_TIMEOUT, CS_BUF_RET: in every state and with all operands that meet the conditions of its clause, exec answers a next state, of which the clause gives the values that the rules of the command put there and which equals the state before in everything that the clause does not list. -/
def Obligations.CameraReceivers : Prop :=
  -- CSI_FRAME_START (R621): A Frame Start that one idle context with a free buffer matches: the frame is accepted into the next buffer in turn.
  (∀ (s : State) (r : Fin 2) (vc : Fin 4) (num : BitVec 16) (rs : List Reply) (x : Nat), (s.on (R.CSI_CTRL_EN r) = true ∧ s.csiMatch r vc none = [x] ∧ 2 * r + x < s.csis.length) → ((s.csi r x).active = false ∧ s.on (R.CS_MATCH_DRN_SRC r x) = false ∧ s.rd (R.CS_STATUS_FREE r x) ≠ 0 ∧ s.rd (R.CS_STATUS_FREE r x) < 16) → 
    Leads s (.csiFrameStart r 0 vc num rs) fun t => t.rd (R.CS_STATUS_FREE r x) = s.rd (R.CS_STATUS_FREE r x) - 1 ∧ t.rd (R.CS_CNT_FRAMES r x) = satAdd 16 (s.rd (R.CS_CNT_FRAMES r x)) 1 ∧
    t.csi r x = { accepted := ((s.csi r x).accepted + 1) % 2 ^ 16, active := true, buf := (s.csi r x).accepted % (s.rd (R.CS_BUF_STRIDE_NBUF r x) + 1), num := num.toNat, start := s.sysTime, cc := (s.drone (s.rd (R.CS_MATCH_DRONE r x))).cyc, last := s.sysTime } ∧
    RegsBut [R.CS_STATUS_FREE r x, R.CS_CNT_FRAMES r x] s t ∧ t = { s with regs := t.regs, csis := s.csis.set (2 * r + x) (t.csi r x), replies := [] }) ∧
  -- CSI_FRAME_START (R621): With no free buffer the frame is dropped and counted.
  (∀ (s : State) (r : Fin 2) (vc : Fin 4) (num : BitVec 16) (rs : List Reply) (x : Nat), (s.on (R.CSI_CTRL_EN r) = true ∧ s.csiMatch r vc none = [x]) → ((s.csi r x).active = false ∧ s.on (R.CS_MATCH_DRN_SRC r x) = false ∧ s.rd (R.CS_STATUS_FREE r x) = 0) → 
    Leads s (.csiFrameStart r 0 vc num rs) fun t => t.rd (R.CS_CNT_DROPS r x) = satAdd 16 (s.rd (R.CS_CNT_DROPS r x)) 1 ∧ RegsBut [R.CS_CNT_DROPS r x] s t ∧
    t = { s with regs := t.regs, csis := s.csis.set (2 * r + x) { s.csi r x with active := false, lines := 0, last := s.sysTime }, replies := [] }) ∧
  -- CSI_FRAME_START (R621): A packet whose header could not be corrected is discarded and counted.
  (∀ (s : State) (r : Fin 2) (vc : Fin 4) (num : BitVec 16) (rs : List Reply), s.on (R.CSI_CTRL_EN r) = true → 
    Leads s (.csiFrameStart r 2 vc num rs) fun t => t.on (R.CSI_STAT_ECC_DROP r) = true ∧ t.rd (R.CSI_CNT_DISC r) = satAdd 16 (s.rd (R.CSI_CNT_DISC r)) 1 ∧ RegsBut [R.CSI_STAT_ECC_DROP r, R.CSI_CNT_DISC r] s t ∧ t = { s with regs := t.regs, replies := [] }) ∧
  -- CSI_LINE (R624): A line of the expected length with a good CRC goes to its place in the frame's buffer.
  (∀ (s : State) (r : Fin 2) (vc : Fin 4) (dt : Fin 64) (vals : List Nat) (crcOk : Bool) (rs : List Reply) (x sz : Nat) (c : CsiSt) (q : State × Status), (s.on (R.CSI_CTRL_EN r) = true ∧ s.csiMatch r vc (some dt) = [x] ∧ 2 * r + x < s.csis.length) → c = s.csi r x → (c.active = true ∧ s.on (R.CS_MATCH_DRN_SRC r x) = false ∧ c.lines < s.rd (R.CS_GEOM_LINES r x)) → (vals.length = s.rd (R.CS_GEOM_WIDTH r x) ∧ dt ≠ 0x1E ∧ sz = (if dt = 0x2B ∨ dt = 0x2C ∨ dt = 0x2E then 2 else 1)) → q = State.gmWrites { s with replies := rs } { ini := Fin.ofNat 64 (0x30 + r), cls := 2, remote := false } (s.csiBufAt r x c.buf + c.lines * (s.rd (R.CS_PITCH_PITCH r x) * 64) + s.chip * 2 ^ 48) ((vals.map (leBytes sz)).flatten) → 
    Leads s (.csiLine r 0 vc dt vals crcOk rs) fun t => t = { q.1 with csis := q.1.csis.set (2 * r + x) { c with lines := c.lines + 1, last := s.sysTime, flags := c.flags ||| (if crcOk = true then 0 else 2), failed := c.failed || decide (q.2 ≠ .ok) }, replies := [] }) ∧
  -- CSI_LINE (R624): A line of another length is cut or filled to the width, and the record gets LEN_ERR.
  (∀ (s : State) (r : Fin 2) (vc : Fin 4) (dt : Fin 64) (vals : List Nat) (rs : List Reply) (x sz : Nat) (c : CsiSt) (q : State × Status), (s.on (R.CSI_CTRL_EN r) = true ∧ s.csiMatch r vc (some dt) = [x] ∧ 2 * r + x < s.csis.length) → c = s.csi r x → (c.active = true ∧ s.on (R.CS_MATCH_DRN_SRC r x) = false ∧ c.lines < s.rd (R.CS_GEOM_LINES r x)) → (vals.length ≠ s.rd (R.CS_GEOM_WIDTH r x) ∧ dt ≠ 0x1E ∧ sz = (if dt = 0x2B ∨ dt = 0x2C ∨ dt = 0x2E then 2 else 1)) → q = State.gmWrites { s with replies := rs } { ini := Fin.ofNat 64 (0x30 + r), cls := 2, remote := false } (s.csiBufAt r x c.buf + c.lines * (s.rd (R.CS_PITCH_PITCH r x) * 64) + s.chip * 2 ^ 48) (fitBytes (s.rd (R.CS_GEOM_WIDTH r x) * sz) ((vals.map (leBytes sz)).flatten)) → 
    Leads s (.csiLine r 0 vc dt vals true rs) fun t => t = { q.1 with csis := q.1.csis.set (2 * r + x) { c with lines := c.lines + 1, last := s.sysTime, flags := c.flags ||| 4, failed := c.failed || decide (q.2 ≠ .ok) }, replies := [] }) ∧
  -- CSI_BAND_COMPLETE (R622): The lines of the next band have been received and written: one band token.
  (∀ (s : State) (r x : Fin 2) (c : CsiSt), c = s.csi r x → (c.active = true ∧ c.bands < s.csiBands r x ∧ min ((s.rd (R.CS_PITCH_BAND r x) + 1) * (c.bands + 1)) (s.rd (R.CS_GEOM_LINES r x)) ≤ c.lines) → 
    Leads s (.csiBandComplete r x) fun t => t = { s with csis := s.csis.set (2 * r + x) { c with bands := c.bands + 1 }, msgs := s.msgs ++ [(tokenMsg s.chip (s.rd (R.CS_TOK_BAND_UNIT r x)) (s.rd (R.CS_TOK_BAND_CONTEXT r x)) (s.rd (R.CS_TOK_BAND_COUNTER r x)) 1 (s.epochOf (s.rd (R.CS_TOK_BAND_UNIT r x))) 1, 0)] }) ∧
  -- CSI_BAND_COMPLETE (R622): csiBandComplete, early
  (∀ (s : State) (r x : Fin 2), ((s.csi r x).active = false ∨ s.csiBands r x ≤ (s.csi r x).bands ∨ (s.csi r x).lines < min ((s.rd (R.CS_PITCH_BAND r x) + 1) * ((s.csi r x).bands + 1)) (s.rd (R.CS_GEOM_LINES r x))) → 
    Leads s (.csiBandComplete r x) fun t => t = s) ∧
  -- CSI_FRAME_END (R622): A frame whose bands have all been posted ends: its record is written, then the frame token follows.
  (∀ (s : State) (r : Fin 2) (vc : Fin 4) (rs : List Reply) (x : Nat) (c : CsiSt) (q : State × Status), (s.on (R.CSI_CTRL_EN r) = true ∧ s.csiMatch r vc none = [x]) → c = s.csi r x → (c.active = true ∧ s.csiBands r x ≤ c.bands) → (q = State.gmWrites { s with replies := rs } { ini := Fin.ofNat 64 (0x30 + r), cls := 2, remote := false } (s.rd (R.CS_STAT_LO_STAT r x) * 256 + s.rd (R.CS_STAT_HI_STAT r x) * 2 ^ 32 + 32 * c.buf + s.chip * 2 ^ 48) (leBytes 2 c.num ++ leBytes 2 c.accepted ++ leBytes 1 (if c.failed = true then 3 else 0) ++ leBytes 1 c.flags ++ leBytes 2 c.lines ++ leBytes 6 c.start ++ leBytes 2 c.cc ++ List.replicate 16 0)) → 
    Leads s (.csiFrameEnd r 0 vc rs) fun t => t = { q.1 with csis := q.1.csis.set (2 * r + x) { c with active := false, lines := 0 }, replies := [], msgs := q.1.msgs ++ [(tokenMsg q.1.chip (s.rd (R.CS_TOK_FRAME_UNIT r x)) (s.rd (R.CS_TOK_FRAME_CONTEXT r x)) (s.rd (R.CS_TOK_FRAME_COUNTER r x)) 1 (q.1.epochOf (s.rd (R.CS_TOK_FRAME_UNIT r x))) 1, 0)] }) ∧
  -- CSI_FRAME_END (R622): A packet that no enabled context matches is discarded and counted.
  (∀ (s : State) (r : Fin 2) (vc : Fin 4) (rs : List Reply), (s.on (R.CSI_CTRL_EN r) = true ∧ s.csiMatch r vc none = []) → 
    Leads s (.csiFrameEnd r 0 vc rs) fun t => t.rd (R.CSI_CNT_DISC r) = satAdd 16 (s.rd (R.CSI_CNT_DISC r)) 1 ∧ RegsBut [R.CSI_CNT_DISC r] s t ∧ t = { s with regs := t.regs, replies := [] }) ∧
  -- CSI_FRAME_TIMEOUT (R629): FRAME_TMO µs without a packet end the frame with SHORT and TIMEOUT in its record.
  (∀ (s : State) (r x : Fin 2) (rs : List Reply) (c : CsiSt) (q : State × Status), c = s.csi r x → (c.active = true ∧ s.csiBands r x ≤ c.bands ∧ s.rd (R.CS_TMO_FRAME_TMO r x) ≠ 0 ∧ 1000 * s.rd (R.CS_TMO_FRAME_TMO r x) ≤ tsub s.sysTime c.last) → (q = State.gmWrites { s with replies := rs } { ini := Fin.ofNat 64 (0x30 + r), cls := 2, remote := false } (s.rd (R.CS_STAT_LO_STAT r x) * 256 + s.rd (R.CS_STAT_HI_STAT r x) * 2 ^ 32 + 32 * c.buf + s.chip * 2 ^ 48) (leBytes 2 c.num ++ leBytes 2 c.accepted ++ leBytes 1 (if c.failed = true then 3 else 0) ++ leBytes 1 (c.flags ||| 9) ++ leBytes 2 c.lines ++ leBytes 6 c.start ++ leBytes 2 c.cc ++ List.replicate 16 0)) → 
    Leads s (.csiFrameTimeout r x rs) fun t => t = { q.1 with csis := q.1.csis.set (2 * r + x) { c with active := false, lines := 0 }, replies := [], msgs := q.1.msgs ++ [(tokenMsg q.1.chip (s.rd (R.CS_TOK_FRAME_UNIT r x)) (s.rd (R.CS_TOK_FRAME_CONTEXT r x)) (s.rd (R.CS_TOK_FRAME_COUNTER r x)) 1 (q.1.epochOf (s.rd (R.CS_TOK_FRAME_UNIT r x))) 1, 0)] }) ∧
  -- CSI_FRAME_TIMEOUT (R629): csiFrameTimeout, early
  (∀ (s : State) (r x : Fin 2) (rs : List Reply), (s.rd (R.CS_TMO_FRAME_TMO r x) = 0 ∨ (s.csi r x).active = false ∨ tsub s.sysTime (s.csi r x).last < 1000 * s.rd (R.CS_TMO_FRAME_TMO r x)) → 
    Leads s (.csiFrameTimeout r x rs) fun t => t = { s with replies := [] }) ∧
  -- CS_BUF_RET (R621): A buffer given back is free again.
  (∀ (s : State) (r x : Fin 2) (w : Who) (v : BitVec 32), s.takes w (0x330128 + 0x1000 * r + 0x40 * x) v.toNat = true → (bit v.toNat 0 = true ∧ s.rd (R.CS_STATUS_FREE r x) < s.rd (R.CS_BUF_STRIDE_NBUF r x) + 1 ∧ s.rd (R.CS_BUF_STRIDE_NBUF r x) < 8) → 
    Leads s (.csBufRet r x w v) fun t => t.rd (R.CS_STATUS_FREE r x) = s.rd (R.CS_STATUS_FREE r x) + 1 ∧ RegsBut [R.CS_STATUS_FREE r x] s t ∧ t = { s with regs := t.regs, answer := t.answer }) ∧
  -- CS_BUF_RET (R621): With every buffer free it sets RET_ERR.
  (∀ (s : State) (r x : Fin 2) (w : Who) (v : BitVec 32), s.takes w (0x330128 + 0x1000 * r + 0x40 * x) v.toNat = true → (bit v.toNat 0 = true ∧ s.rd (R.CS_BUF_STRIDE_NBUF r x) + 1 ≤ s.rd (R.CS_STATUS_FREE r x)) → 
    Leads s (.csBufRet r x w v) fun t => t.on (R.CS_STATUS_RET_ERR r x) = true ∧ RegsBut [R.CS_STATUS_RET_ERR r x] s t ∧ t = { s with regs := t.regs, answer := t.answer })

/-- What the commands of field interfaces do: SPI_TX, I2C_CMD, UART_TX, XSPI_CMD, SERIAL_TRANSFER_DONE, SERIAL_RX_READ, XSPI_WDATA_READ. For each of the commands SPI_TX, I2C_CMD, UART_TX, XSPI_CMD, SERIAL_TRANSFER_DONE, SERIAL_RX_READ, XSPI_WDATA_READ: in every state and with all operands that meet the conditions of its clause, exec answers a next state, of which the clause gives the values that the rules of the command put there and which equals the state before in everything that the clause does not list. -/
def Obligations.SerialInterfaces : Prop :=
  -- SPI_TX (R626): A write of SPI_TX enters the transmit FIFO.
  (∀ (s : State) (k : Fin 6) (w : Who) (v : BitVec 32), (s.takes w (0x340008 + 0x100 * k) v.toNat = true ∧ k.val < s.sers.length) → (s.ser k).tx.length < 16 → 
    Leads s (.spiTx k w v) fun t => SerPut k { s.ser k with tx := (s.ser k).tx ++ [v.toNat] } s t ∧ RegsBut [serTxLvl k, serRxLvl k, serBusy k] s t ∧ t = { s with regs := t.regs, sers := t.sers, answer := t.answer }) ∧
  -- SPI_TX (R626): With 16 words in it the word is lost and TX_OVF shows it.
  (∀ (s : State) (k : Fin 6) (w : Who) (v : BitVec 32), s.takes w (0x340008 + 0x100 * k) v.toNat = true → 16 ≤ (s.ser k).tx.length → 
    Leads s (.spiTx k w v) fun t => t.on (serOvf k) = true ∧ RegsBut [serOvf k] s t ∧ t = { s with regs := t.regs, answer := t.answer }) ∧
  -- I2C_CMD (R788): GO starts a transfer on an enabled bus with none under way.
  (∀ (s : State) (k : Fin 4) (w : Who) (v : BitVec 32), (s.takes w (0x341008 + 0x100 * k) (v ||| 0x200000).toNat = true ∧ 6 + k.val < s.sers.length) → (s.on (serEn (6 + k)) = true ∧ (s.ser (6 + k)).cmd = none) → 
    Leads s (.i2cCmd k w v) fun t => SerPut (6 + k) { s.ser (6 + k) with cmd := some (v ||| 0x200000).toNat } s t ∧ RegsBut [serTxLvl (6 + k), serRxLvl (6 + k), serBusy (6 + k)] s t ∧ t = { s with regs := t.regs, sers := t.sers, answer := t.answer }) ∧
  -- I2C_CMD (R788): A command to a bus that is off or busy does nothing.
  (∀ (s : State) (k : Fin 4) (w : Who) (v : BitVec 32), s.takes w (0x341008 + 0x100 * k) (v ||| 0x200000).toNat = true → (s.on (serEn (6 + k)) = false ∨ (s.ser (6 + k)).cmd ≠ none) → 
    Leads s (.i2cCmd k w v) fun t => t = { s with answer := t.answer } ∧ t.answer.st = .ok) ∧
  -- UART_TX (R626): A write of UART_TX enters the transmit FIFO.
  (∀ (s : State) (k : Fin 4) (w : Who) (v : BitVec 32), (s.takes w (0x34200C + 0x100 * k) v.toNat = true ∧ 10 + k.val < s.sers.length) → (s.ser (10 + k)).tx.length < 16 → 
    Leads s (.uartTx k w v) fun t => SerPut (10 + k) { s.ser (10 + k) with tx := (s.ser (10 + k)).tx ++ [v.toNat] } s t ∧ RegsBut [serTxLvl (10 + k), serRxLvl (10 + k), serBusy (10 + k)] s t ∧ t = { s with regs := t.regs, sers := t.sers, answer := t.answer }) ∧
  -- UART_TX (R626): uartTx, full
  (∀ (s : State) (k : Fin 4) (w : Who) (v : BitVec 32), s.takes w (0x34200C + 0x100 * k) v.toNat = true → 16 ≤ (s.ser (10 + k)).tx.length → 
    Leads s (.uartTx k w v) fun t => t.on (serOvf (10 + k)) = true ∧ RegsBut [serOvf (10 + k)] s t ∧ t = { s with regs := t.regs, answer := t.answer }) ∧
  -- XSPI_CMD (R788): In STAGE RUN GO starts a transfer of the enabled xSPI with none under way.
  (∀ (s : State) (w : Who) (v : BitVec 32), (s.takes w 0x343004 (v ||| 0x800000).toNat = true ∧ 14 < s.sers.length) → (s.stage = 7 ∧ s.on (serEn 14) = true ∧ (s.ser 14).cmd = none) → 
    Leads s (.xspiCmd w v) fun t => SerPut 14 { s.ser 14 with cmd := some (v ||| 0x800000).toNat } s t ∧ RegsBut [serTxLvl 14, serRxLvl 14, serBusy 14] s t ∧ t = { s with regs := t.regs, sers := t.sers, answer := t.answer }) ∧
  -- XSPI_CMD (R788): Below STAGE RUN it is the boot sequencer's alone.
  (∀ (s : State) (w : Who) (v : BitVec 32), s.takes w 0x343004 (v ||| 0x800000).toNat = true → (s.stage ≠ 7 ∧ w.ini ≠ 0x3E) → 
    Leads s (.xspiCmd w v) fun t => t = { s with answer := t.answer } ∧ t.answer.st = .ok) ∧
  -- SERIAL_TRANSFER_DONE (R626): A word of an enabled SPI has been shifted out and one in, both cut to the word length.
  (∀ (s : State) (k : Fin 6) (rx : BitVec 32) (a : Nat) (l : List Nat) (m : Nat), (k.val < s.sers.length ∧ (s.ser k).tx = a :: l ∧ (s.ser k).rx.length < 16) → (s.on (serEn k) = true ∧ m = 2 ^ (max (s.rd (R.SPI_CTRL_BITS k)) 3 + 1)) → 
    Leads s (.serialTransferDone (.spi k rx)) fun t => SerPut k { s.ser k with tx := l, rx := (s.ser k).rx ++ [rx.toNat % m] } s t ∧ t.serOut = s.serOut ++ [((k : Nat), a % m)] ∧
    RegsBut [serTxLvl k, serRxLvl k, serBusy k] s t ∧ t = { s with regs := t.regs, sers := t.sers, serOut := t.serOut }) ∧
  -- SERIAL_TRANSFER_DONE (R626): A received character without an error or a break enters the FIFO.
  (∀ (s : State) (k : Fin 4) (ch : Byte), (10 + k.val < s.sers.length ∧ s.on (serEn (10 + k)) = true ∧ (s.ser (10 + k)).rx.length < 16) → 
    Leads s (.serialTransferDone (.uartRx k ch false false false)) fun t => SerPut (10 + k) { s.ser (10 + k) with rx := (s.ser (10 + k)).rx ++ [ch.toNat % 2 ^ (5 + s.rd (R.UART_CTRL_DATA_BITS k))] } s t ∧
    RegsBut [serTxLvl (10 + k), serRxLvl (10 + k), serBusy (10 + k)] s t ∧ t = { s with regs := t.regs, sers := t.sers }) ∧
  -- SERIAL_TRANSFER_DONE (R626): With 16 characters waiting it is lost and RX_OVR shows it.
  (∀ (s : State) (k : Fin 4) (ch : Byte), (s.on (serEn (10 + k)) = true ∧ 16 ≤ (s.ser (10 + k)).rx.length) → 
    Leads s (.serialTransferDone (.uartRx k ch false false false)) fun t => t.on (R.UART_STAT_RX_OVR k) = true ∧ RegsBut [R.UART_STAT_RX_OVR k] s t ∧ t = { s with regs := t.regs }) ∧
  -- SERIAL_TRANSFER_DONE (R626): An I2C transfer that no target acknowledged ends with DONE and NACK.
  (∀ (s : State) (k : Fin 4) (rx : List Byte) (a : Nat), (6 + k.val < s.sers.length ∧ (s.ser (6 + k)).cmd = some a) → 
    Leads s (.serialTransferDone (.i2c k 1 rx)) fun t => SerPut (6 + k) { s.ser (6 + k) with cmd := none } s t ∧ t.on (R.I2C_STAT_DONE k) = true ∧ t.on (R.I2C_STAT_NACK k) = true ∧
    RegsBut [serTxLvl (6 + k), serRxLvl (6 + k), serBusy (6 + k), R.I2C_STAT_DONE k, R.I2C_STAT_NACK k] s t ∧ t = { s with regs := t.regs, sers := t.sers }) ∧
  -- SERIAL_RX_READ (R626): A read of a receive register takes the oldest word.
  (∀ (s : State) (r : SerialRx) (w : Who) (i a : Nat) (l : List Nat), (s.gives w (serRxAddr r) = true ∧ i = serRxIndex r) → (i < s.sers.length ∧ (s.ser i).rx = a :: l ∧ a < 2 ^ 32) → 
    Leads s (.serialRxRead r w) fun t => t.answer.st = .ok ∧ t.answer.value = a ∧ SerPut i { s.ser i with rx := l } s t ∧ RegsBut [serTxLvl i, serRxLvl i, serBusy i] s t ∧ t = { s with regs := t.regs, sers := t.sers, answer := t.answer }) ∧
  -- SERIAL_RX_READ (R626): An empty FIFO reads 0 and sets RX_UF.
  (∀ (s : State) (r : SerialRx) (w : Who) (i : Nat), (s.gives w (serRxAddr r) = true ∧ i = serRxIndex r) → (s.ser i).rx = [] → 
    Leads s (.serialRxRead r w) fun t => t.answer.st = .ok ∧ t.answer.value = 0 ∧ t.on (serUf i) = true ∧ RegsBut [serUf i] s t ∧ t = { s with regs := t.regs, answer := t.answer }) ∧
  -- XSPI_WDATA_READ (R788): A read of XSPI_WDATA answers the four bytes that the flash gives, and XSPI_WADDR goes on by 4.
  (∀ (s : State) (w : Who) (st : Status) (b0 b1 b2 b3 : Byte), s.gives w 0x343018 = true → 
    Leads s (.xspiWdataRead w [⟨st, [b0, b1, b2, b3]⟩]) fun t => t.answer.st = .ok ∧ t.answer.value = b0.toNat + b1.toNat * 2 ^ 8 + b2.toNat * 2 ^ 16 + b3.toNat * 2 ^ 24 ∧ t.rd R.XSPI_WADDR_WADDR = (s.rd R.XSPI_WADDR_WADDR + 4) % 2 ^ 32 ∧
    RegsBut [R.XSPI_WADDR_WADDR] s t ∧ t = { s with regs := t.regs, answer := t.answer, replies := [] })

/-- What the commands of Fife engines do: NOP, BR, LOOP, WAIT, WAIT_END, WAIT_TIMEOUT, FETCH_ILLEGAL, FETCH_PARITY_ERROR. For each of the commands NOP, BR, LOOP, WAIT, WAIT_END, WAIT_TIMEOUT, FETCH_ILLEGAL, FETCH_PARITY_ERROR: in every state and with all operands that meet the conditions of its clause, exec answers a next state, of which the clause gives the values that the rules of the command put there and which equals the state before in everything that the clause does not list. -/
def Obligations.FifeFlow : Prop :=
  -- NOP (R423): nop
  (∀ (s : State) (e : Fin 32) (w : Nat) (inj : Bool), (e.val < s.fes.length ∧ s.feNext e = some (w, inj) ∧ s.rd (R.FE_PC_PC e) < 32) → (feLegal w = true ∧ feOp w = 0) → 
    Leads s (.nop e) fun t => FeCycle e w inj none (s.feTaken e inj) s t ∧ RegsBut (feFlds e) s t ∧ t = { s with regs := t.regs, fes := t.fes }) ∧
  -- BR (R424): BR jumps to its target when its condition holds, else goes on.
  (∀ (s : State) (e : Fin 32) (fio : BitVec 128) (w : Nat) (inj : Bool), (e.val < s.fes.length ∧ s.feNext e = some (w, inj) ∧ s.rd (R.FE_PC_PC e) < 32) → (feLegal w = true ∧ feOp w = 1) → 
    Leads s (.br e fio) fun t => FeCycle e w inj (if (s.setFio fio).feCond e (bits w 23 4) (bits w 13 5) then some (bits w 18 5) else none) (s.feTaken e inj) s t ∧ RegsBut (feFlds e) s t ∧
    t = { s with regs := t.regs, fes := t.fes, fioLv := fio.toNat }) ∧
  -- BR (R424): Condition 5 is a pin of the window at 1, with its input inversion.
  (∀ (s : State) (e : Fin 32) (fio : BitVec 128) (w j p : Nat), (e.val < s.fes.length ∧ s.feNext e = some (w, false)) → (w = 0x12800000 + 9 * 2 ^ 18 + j * 2 ^ 13 ∧ j < 32 ∧ p = (s.rd (R.FE_WIN_WBASE e) + j) % 128) → 
    Leads s (.br e fio) fun t => t.rd (R.FE_PC_PC e) = (if fio.getLsbD p != s.on (R.FIO_CFG_INV_IN p) then 9 else (s.rd (R.FE_PC_PC e) + 1) % 32)) ∧
  -- LOOP (R424): LOOP takes one from its counter, not below 0, and jumps when the counter was 2 or more.
  (∀ (s : State) (e : Fin 32) (w : Nat) (inj : Bool) (f : Fld) (k : Nat), (e.val < s.fes.length ∧ s.feNext e = some (w, inj) ∧ s.rd (R.FE_PC_PC e) < 32) → (feLegal w = true ∧ feOp w = 2 ∧ f = (if bit w 26 = true then R.FE_K1_K1 e else R.FE_K0_K0 e)) → (k = s.rd f ∧ k < 2 ^ 32) → 
    Leads s (.loop e) fun t => t.rd f = k - 1 ∧ FeCycle e w inj (if 2 ≤ k then some (bits w 18 5) else none) (s.feTaken e inj) s t ∧ RegsBut (f :: feFlds e) s t ∧ t = { s with regs := t.regs, fes := t.fes }) ∧
  -- WAIT (R425): A LEVEL wait whose pin has the level already ends in the next control cycle; STAMP is the start less 3.
  (∀ (s : State) (e : Fin 32) (fio : BitVec 128) (w p : Nat) (inj : Bool), (e.val < s.fes.length ∧ s.feNext e = some (w, inj) ∧ s.rd (R.FE_PC_PC e) < 32) → (feLegal w = true ∧ feOp w = 3 ∧ bits w 24 3 = 0) → p = (s.rd (R.FE_WIN_WBASE e) + bits w 18 5) % 128 → (fio.getLsbD p != s.on (R.FIO_CFG_INV_IN p)) = bit w 23 → 
    Leads s (.wait e fio) fun t => t.on (R.FE_STAT_TMO e) = false ∧ FeDone e w inj none ((s.fe e).nextAt + 1 + fePause w * (s.fe e).div) ((s.fe e).nextAt + 2 ^ 48 - 3) (s.feTaken e inj) s t ∧
    t.rd (R.FE_STAT_INJ_PEND e) = (if inj then 0 else s.rd (R.FE_STAT_INJ_PEND e)) ∧ RegsBut (R.FE_STAT_TMO e :: feFlds e) s t ∧ t = { s with regs := t.regs, fes := t.fes, fioLv := fio.toNat }) ∧
  -- WAIT (R425): With the other level it stalls.
  (∀ (s : State) (e : Fin 32) (fio : BitVec 128) (w p : Nat) (inj : Bool), (e.val < s.fes.length ∧ s.feNext e = some (w, inj)) → (feLegal w = true ∧ feOp w = 3 ∧ bits w 24 3 = 0) → p = (s.rd (R.FE_WIN_WBASE e) + bits w 18 5) % 128 → (fio.getLsbD p != s.on (R.FIO_CFG_INV_IN p)) ≠ bit w 23 → 
    Leads s (.wait e fio) fun t => t.on (R.FE_STAT_TMO e) = false ∧ FeStalls e w 1 inj (s.feTaken e inj) s t ∧ RegsBut [R.FE_STAT_TMO e, R.FE_STAT_STALL e, R.FE_STAT_INJ_PEND e] s t ∧
    t = { s with regs := t.regs, fes := t.fes, fioLv := fio.toNat }) ∧
  -- WAIT (R425): A TIME wait stalls until TGT; one that TGT has passed ends in the next control cycle with TLATE.
  (∀ (s : State) (e : Fin 32) (fio : BitVec 128) (w : Nat) (inj : Bool), (e.val < s.fes.length ∧ s.feNext e = some (w, inj) ∧ s.rd (R.FE_PC_PC e) < 32) → (feLegal w = true ∧ feOp w = 3 ∧ bits w 24 3 = 2) → 
    Leads s (.wait e fio) fun t => t.on (R.FE_STAT_TMO e) = false ∧
    (if ((s.fe e).nextAt + 2 ^ 48 - s.feTgtVal e) % 2 ^ 48 < 2 ^ 47 then
      t.on (R.FE_STAT_TLATE e) = true ∧ FeDone e w inj none ((s.fe e).nextAt + 1 + fePause w * (s.fe e).div) ((s.fe e).nextAt + 1) (s.feTaken e inj) s t
    else FeStalls e w 1 inj (s.feTaken e inj) s t) ∧ RegsBut (R.FE_STAT_TMO e :: R.FE_STAT_TLATE e :: feFlds e) s t ∧ t = { s with regs := t.regs, fes := t.fes, fioLv := fio.toNat }) ∧
  -- WAIT_END (R425): A stalled LEVEL wait whose pin has its level ends in the next control cycle.
  (∀ (s : State) (e : Fin 32) (fio : BitVec 128) (w p : Nat) (inj : Bool), (e.val < s.fes.length ∧ (s.fe e).stalled = some (w, inj) ∧ s.rd (R.FE_PC_PC e) < 32 ∧ (s.fe e).stepping = false) → (feOp w = 3 ∧ bits w 24 3 = 0) → p = (s.rd (R.FE_WIN_WBASE e) + bits w 18 5) % 128 → (fio.getLsbD p != s.on (R.FIO_CFG_INV_IN p)) = bit w 23 → 
    Leads s (.waitEnd e fio) fun t => FeDone e w inj none (s.now + 1 + fePause w * (s.fe e).div) (s.now + 2 ^ 48 - 3) (s.fe e) s t ∧ RegsBut (feFlds e) s t ∧ t = { s with regs := t.regs, fes := t.fes, fioLv := fio.toNat }) ∧
  -- WAIT_END (R425): A stalled EDGE wait ends when the level comes that was not there; otherwise it goes on with the level seen.
  (∀ (s : State) (e : Fin 32) (fio : BitVec 128) (w p : Nat) (inj lv : Bool), (e.val < s.fes.length ∧ (s.fe e).stalled = some (w, inj) ∧ s.rd (R.FE_PC_PC e) < 32 ∧ (s.fe e).stepping = false) → (feOp w = 3 ∧ bits w 24 3 = 1) → p = (s.rd (R.FE_WIN_WBASE e) + bits w 18 5) % 128 → lv = (fio.getLsbD p != s.on (R.FIO_CFG_INV_IN p)) → 
    Leads s (.waitEnd e fio) fun t => (if lv = bit w 23 ∧ (s.fe e).seen ≠ lv then FeDone e w inj none (s.now + 1 + fePause w * (s.fe e).div) (s.now + 2 ^ 48 - 3) (s.fe e) s t
    else t.fe e = { s.fe e with seen := lv } ∧ RegsBut [] s t) ∧ RegsBut (feFlds e) s t ∧ t = { s with regs := t.regs, fes := t.fes, fioLv := fio.toNat }) ∧
  -- WAIT_END (R425): A stalled TIME wait ends at TGT.
  (∀ (s : State) (e : Fin 32) (fio : BitVec 128) (w : Nat) (inj : Bool), (e.val < s.fes.length ∧ (s.fe e).stalled = some (w, inj) ∧ s.rd (R.FE_PC_PC e) < 32 ∧ (s.fe e).stepping = false) → (feOp w = 3 ∧ bits w 24 3 = 2 ∧ s.reached (s.feTgtVal e) = true) → 
    Leads s (.waitEnd e fio) fun t => FeDone e w inj none (s.feTgtVal e + fePause w * (s.fe e).div) (s.feTgtVal e) (s.fe e) s t ∧ RegsBut (feFlds e) s t ∧ t = { s with regs := t.regs, fes := t.fes, fioLv := fio.toNat }) ∧
  -- WAIT_TIMEOUT (R425): With TMOEN, TGT ends a wait that is no TIME wait, and TMO shows it.
  (∀ (s : State) (e : Fin 32) (w tc : Nat) (inj : Bool), (e.val < s.fes.length ∧ (s.fe e).stalled = some (w, inj) ∧ s.rd (R.FE_PC_PC e) < 32 ∧ (s.fe e).stepping = false) → (feOp w = 3 ∧ bits w 24 3 ≠ 2 ∧ bit w 11 = true ∧ s.reached (s.feTgtVal e) = true) → (tc = (if ((s.fe e).began + 2 ^ 48 - s.feTgtVal e) % 2 ^ 48 < 2 ^ 47 then (s.fe e).began + 1 else s.feTgtVal e)) → 
    Leads s (.waitTimeout e) fun t => t.on (R.FE_STAT_TMO e) = true ∧ FeDone e w inj none (tc + fePause w * (s.fe e).div) tc (s.fe e) s t ∧ RegsBut (R.FE_STAT_TMO e :: feFlds e) s t ∧ t = { s with regs := t.regs, fes := t.fes }) ∧
  -- WAIT_TIMEOUT (R425): waitTimeout, not
  (∀ (s : State) (e : Fin 32) (w : Nat) (inj : Bool), (s.fe e).stalled = some (w, inj) → (feOp w ≠ 3 ∨ bits w 24 3 = 2 ∨ bit w 11 = false ∨ s.reached (s.feTgtVal e) = false) → 
    Leads s (.waitTimeout e) fun t => t = s) ∧
  -- FETCH_ILLEGAL (R434): An illegal word: the engine is HALTED with cause ILLEGAL and an encoder error; an injected word is taken.
  (∀ (s : State) (e : Fin 32) (w : Nat) (inj : Bool), (e.val < s.fes.length ∧ s.feNext e = some (w, inj)) → feLegal w = false → 
    Leads s (.fetchIllegal e) fun t => t.feState e = 1 ∧ t.rd (R.FE_STAT_CAUSE e) = 3 ∧ t.on (R.FE_STAT_ENC_ERR e) = true ∧ t.on (R.FE_STAT_ERR_SEEN e) = true ∧ t.rd (R.FE_STAT_STALL e) = 0 ∧
    t.rd (R.FE_STAT_INJ_PEND e) = (if inj then 0 else s.rd (R.FE_STAT_INJ_PEND e)) ∧ t.fe e = { s.feTaken e inj with stalled := none, stepping := false } ∧ (∀ y, y ≠ e.val → t.fe y = s.fe y) ∧
    RegsBut [R.FE_STAT_STATE e, R.FE_STAT_CAUSE e, R.FE_STAT_ENC_ERR e, R.FE_STAT_ERR_SEEN e, R.FE_STAT_STALL e, R.FE_STAT_INJ_PEND e] s t ∧ t = { s with regs := t.regs, fes := t.fes }) ∧
  -- FETCH_PARITY_ERROR (R434): A parity error of a fetched word: HALTED with cause PARITY, and a report of code 0x1E.
  (∀ (s : State) (e : Fin 32) (w : Nat), (e.val < s.fes.length ∧ s.feNext e = some (w, false)) → 
    Leads s (.fetchParityError e) fun t => t.feState e = 1 ∧ t.rd (R.FE_STAT_CAUSE e) = 4 ∧ t.on (R.FE_STAT_ENC_ERR e) = true ∧ t.on (R.FE_STAT_ERR_SEEN e) = true ∧ t.rd (R.FE_STAT_STALL e) = 0 ∧
    t.reports = s.reports ++ [(0x1E, e.val)] ∧ t.fe e = { s.fe e with stalled := none, stepping := false } ∧ (∀ y, y ≠ e.val → t.fe y = s.fe y) ∧
    RegsBut [R.FE_STAT_STATE e, R.FE_STAT_CAUSE e, R.FE_STAT_ENC_ERR e, R.FE_STAT_ERR_SEEN e, R.FE_STAT_STALL e] s t ∧ t = { s with regs := t.regs, fes := t.fes, reports := t.reports })

/-- What the commands of Fife engines do: SHIN, SHOUT, PUSH_RX, PUSH_DRONE, PUSH_PCNT, PULL, FIFO_STALL_END, XFER, LOAD, PIN, TGT. For each of the commands SHIN, SHOUT, PUSH_RX, PUSH_DRONE, PUSH_PCNT, PULL, FIFO_STALL_END, XFER, LOAD, PIN, TGT: in every state and with all operands that meet the conditions of its clause, exec answers a next state, of which the clause gives the values that the rules of the command put there and which equals the state before in everything that the clause does not list. -/
def Obligations.FifeData : Prop :=
  -- SHIN (R426): SHIN shifts n bits of its source into CAP by CAP_ORDER, counts them, and with bit 23 gives them to the CRC in the order they came.
  (∀ (s : State) (e : Fin 32) (fio : BitVec 128) (w n v cap : Nat) (inj low : Bool), (e.val < s.fes.length ∧ s.feNext e = some (w, inj) ∧ s.rd (R.FE_PC_PC e) < 32) → (feLegal w = true ∧ feOp w = 4 ∧ n = bits w 18 5 + 1) → v = (s.setFio fio).feShinVal e w → low = s.on (R.FE_SHAPE_CAP_ORDER e) → cap = s.rd (R.FE_CAP_CAP e) → 
    Leads s (.shin e fio) fun t => t.rd (R.FE_CAP_CAP e) = (if low then cap / 2 ^ n + v * 2 ^ (32 - n) else cap * 2 ^ n + v) % 2 ^ 32 ∧
    FeCycle e w inj none { s.feTaken e inj with capn := min 32 ((s.fe e).capn + n), crc := if bit w 23 then ((List.range n).map fun i => bits v (if low then i else n - 1 - i) 1).foldl (crcBit (s.rd (R.FE_CRC_CRC_W e) + 1) (s.rd (R.FE_CRC_CRC_POLY e))) (s.fe e).crc else (s.fe e).crc } s t ∧
    RegsBut (R.FE_CAP_CAP e :: feFlds e) s t ∧ t = { s with regs := t.regs, fes := t.fes, fioLv := fio.toNat }) ∧
  -- SHOUT (R426): SHOUT to K0 shifts n bits out of EMT by EMT_ORDER and counts them.
  (∀ (s : State) (e : Fin 32) (w n emt : Nat) (inj low : Bool), (e.val < s.fes.length ∧ s.feNext e = some (w, inj) ∧ s.rd (R.FE_PC_PC e) < 32) → (feLegal w = true ∧ feOp w = 5 ∧ n = bits w 18 5 + 1 ∧ bits w 24 3 = 1) → low = s.on (R.FE_SHAPE_EMT_ORDER e) → emt = s.rd (R.FE_EMT_EMT e) → emt < 2 ^ 32 → 
    Leads s (.shout e) fun t => t.rd (R.FE_K0_K0 e) = (if low then emt % 2 ^ n else emt / 2 ^ (32 - n)) ∧ t.rd (R.FE_EMT_EMT e) = (if low then emt / 2 ^ n else emt * 2 ^ n % 2 ^ 32) ∧
    FeCycle e w inj none { s.feTaken e inj with emtn := min 32 ((s.fe e).emtn + n) } s t ∧ RegsBut (R.FE_K0_K0 e :: R.FE_EMT_EMT e :: feFlds e) s t ∧ t = { s with regs := t.regs, fes := t.fes }) ∧
  -- SHOUT (R426): To pins: the output latches of the window pins from FIRST that the engine owns take the bits.
  (∀ (s : State) (e : Fin 32) (w n emt v : Nat) (inj low : Bool), (e.val < s.fes.length ∧ s.feNext e = some (w, inj) ∧ s.rd (R.FE_PC_PC e) < 32) → (feLegal w = true ∧ feOp w = 5 ∧ n = bits w 18 5 + 1 ∧ bits w 24 3 = 0) → low = s.on (R.FE_SHAPE_EMT_ORDER e) → emt = s.rd (R.FE_EMT_EMT e) → (v = (if low = true then emt % 2 ^ n else emt / 2 ^ (32 - n))) → 
    Leads s (.shout e) fun t => t.rd (R.FE_EMT_EMT e) = (if low then emt / 2 ^ n else emt * 2 ^ n) % 2 ^ 32 ∧ FeCycle e w inj none { s.feTaken e inj with emtn := min 32 ((s.fe e).emtn + n) } s t ∧
    RegsBut (R.FE_EMT_EMT e :: feFlds e) (s.feLatches e false (bits w 13 5) n v) t ∧ t = { s with regs := t.regs, fes := t.fes }) ∧
  -- PUSH_RX (R429): PUSH to RX with room: CAP enters RX and is cleared.
  (∀ (s : State) (e : Fin 32) (w : Nat) (inj : Bool), (e.val < s.fes.length ∧ s.feNext e = some (w, inj) ∧ s.rd (R.FE_PC_PC e) < 32) → (feLegal w = true ∧ isPush 0 w = true ∧ (bit w 25 = false ∨ s.rd (R.FE_SHAPE_CAP_LIM e) + 1 ≤ (s.fe e).capn)) → (s.fe e).rx.length < 8 → 
    Leads s (.pushRx e) fun t => t.rd (R.FE_CAP_CAP e) = 0 ∧ t.rd (R.FE_STAT_RX_LVL e) = (s.fe e).rx.length + 1 ∧ FeCycle e w inj none { s.feTaken e inj with rx := (s.fe e).rx ++ [s.rd (R.FE_CAP_CAP e)], capn := 0 } s t ∧
    RegsBut (R.FE_CAP_CAP e :: R.FE_STAT_RX_LVL e :: feFlds e) s t ∧ t = { s with regs := t.regs, fes := t.fes }) ∧
  -- PUSH_RX (R429): With RX full: under STALL it stalls, else CAP is dropped and counted and STALE is set.
  (∀ (s : State) (e : Fin 32) (w : Nat) (inj : Bool), (e.val < s.fes.length ∧ s.feNext e = some (w, inj) ∧ s.rd (R.FE_PC_PC e) < 32) → (feLegal w = true ∧ isPush 0 w = true ∧ (bit w 25 = false ∨ s.rd (R.FE_SHAPE_CAP_LIM e) + 1 ≤ (s.fe e).capn)) → 8 ≤ (s.fe e).rx.length → 
    Leads s (.pushRx e) fun t => (if bit w 26 then FeStalls e w 3 inj (s.feTaken e inj) s t ∧ RegsBut [R.FE_STAT_STALL e, R.FE_STAT_INJ_PEND e] s t
    else t.rd (R.FE_CAP_CAP e) = 0 ∧ t.on (R.FE_STAT_STALE e) = true ∧ t.rd (R.FE_CNT_RX_DROP e) = satAdd 16 (s.rd (R.FE_CNT_RX_DROP e)) 1 ∧ FeCycle e w inj none { s.feTaken e inj with capn := 0 } s t) ∧
    RegsBut (R.FE_CAP_CAP e :: R.FE_STAT_STALE e :: R.FE_CNT_RX_DROP e :: feFlds e) s t ∧ t = { s with regs := t.regs, fes := t.fes }) ∧
  -- PUSH_DRONE (R430): PUSH to the DRONE port: every Drone that follows this engine is offered CAP, left-aligned by its BITS, at STAMP; CAP and the encoder error are cleared.
  (∀ (s : State) (e : Fin 32) (w st : Nat) (inj : Bool), (e.val < s.fes.length ∧ s.feNext e = some (w, inj) ∧ s.rd (R.FE_PC_PC e) < 32) → (feLegal w = true ∧ isPush 1 w = true ∧ (bit w 25 = false ∨ s.rd (R.FE_SHAPE_CAP_LIM e) + 1 ≤ (s.fe e).capn)) → (st = (if feMark w = true then ((s.fe e).nextAt + 2) % 2 ^ 48 else s.feStampVal e)) → 
    Leads s (.pushDrone e) fun t => t.meas = s.meas ++ (((List.range 16).filter fun d => (s.rd (R.DRN_SRC_KIND d) == 2 && s.rd (R.DRN_SRC_INDEX d) == e) || (s.on (R.DRN_CTRL_ALT_EN d) && s.rd (R.DRN_SRC_ALT_KIND d) == 2 && s.rd (R.DRN_SRC_ALT_INDEX d) == e)).map fun d =>
      (⟨d, 2, e, s.rd (R.FE_CAP_CAP e) * 2 ^ (32 - (s.drone d).bitsW) % 2 ^ 32, st⟩ : Meas)) ∧
    t.rd (R.FE_CAP_CAP e) = 0 ∧ t.on (R.FE_STAT_ENC_ERR e) = false ∧ FeCycle e w inj none { s.feTaken e inj with capn := 0 } s t ∧
    RegsBut (R.FE_CAP_CAP e :: R.FE_STAT_ENC_ERR e :: feFlds e) s t ∧ t = { s with regs := t.regs, fes := t.fes, meas := t.meas }) ∧
  -- PUSH_PCNT (R430): PUSH to the PCNT port: FE_PCNT takes CAP; CAP and the encoder error are cleared.
  (∀ (s : State) (e : Fin 32) (w : Nat) (inj : Bool), (e.val < s.fes.length ∧ s.feNext e = some (w, inj) ∧ s.rd (R.FE_PC_PC e) < 32 ∧ s.rd (R.FE_CAP_CAP e) < 2 ^ 32) → (feLegal w = true ∧ isPush 2 w = true ∧ (bit w 25 = false ∨ s.rd (R.FE_SHAPE_CAP_LIM e) + 1 ≤ (s.fe e).capn)) → 
    Leads s (.pushPcnt e) fun t => t.rd (R.FE_PCNT_PCNT e) = s.rd (R.FE_CAP_CAP e) ∧ t.rd (R.FE_CAP_CAP e) = 0 ∧ t.on (R.FE_STAT_ENC_ERR e) = false ∧ FeCycle e w inj none { s.feTaken e inj with capn := 0 } s t ∧
    RegsBut (R.FE_PCNT_PCNT e :: R.FE_CAP_CAP e :: R.FE_STAT_ENC_ERR e :: feFlds e) s t ∧ t = { s with regs := t.regs, fes := t.fes }) ∧
  -- PULL (R429): PULL of a word that was written before the engine cycle: EMT takes it.
  (∀ (s : State) (e : Fin 32) (w v a : Nat) (l : List (Nat × Nat)) (inj : Bool), (e.val < s.fes.length ∧ s.feNext e = some (w, inj) ∧ s.rd (R.FE_PC_PC e) < 32) → (feLegal w = true ∧ feOp w = 7 ∧ (bit w 25 = false ∨ s.rd (R.FE_SHAPE_EMT_LIM e) + 1 ≤ (s.fe e).emtn)) → ((s.fe e).tx = (v, a) :: l ∧ ((s.fe e).nextAt + 2 ^ 48 - 1 - a) % 2 ^ 48 < 2 ^ 47 ∧ l.length < 8) → 
    Leads s (.pull e) fun t => t.rd (R.FE_EMT_EMT e) = v % 2 ^ 32 ∧ t.rd (R.FE_STAT_TX_LVL e) = l.length ∧ FeCycle e w inj none { s.feTaken e inj with tx := l, lastPull := v, emtn := 0 } s t ∧
    RegsBut (R.FE_EMT_EMT e :: R.FE_STAT_TX_LVL e :: feFlds e) s t ∧ t = { s with regs := t.regs, fes := t.fes }) ∧
  -- PULL (R429): Without one: under STALL it stalls, else EMT takes the last word again and STALE is set.
  (∀ (s : State) (e : Fin 32) (w : Nat) (inj : Bool), (e.val < s.fes.length ∧ s.feNext e = some (w, inj) ∧ s.rd (R.FE_PC_PC e) < 32) → (feLegal w = true ∧ feOp w = 7 ∧ (bit w 25 = false ∨ s.rd (R.FE_SHAPE_EMT_LIM e) + 1 ≤ (s.fe e).emtn)) → (s.fe e).tx = [] → 
    Leads s (.pull e) fun t => (if bit w 26 then FeStalls e w 2 inj (s.feTaken e inj) s t ∧ RegsBut [R.FE_STAT_STALL e, R.FE_STAT_INJ_PEND e] s t
    else t.rd (R.FE_EMT_EMT e) = (s.fe e).lastPull % 2 ^ 32 ∧ t.on (R.FE_STAT_STALE e) = true ∧ FeCycle e w inj none { s.feTaken e inj with emtn := 0 } s t) ∧
    RegsBut (R.FE_EMT_EMT e :: R.FE_STAT_STALE e :: feFlds e) s t ∧ t = { s with regs := t.regs, fes := t.fes }) ∧
  -- FIFO_STALL_END (R429): A stalled PULL takes the word in the first engine cycle that begins after it was written.
  (∀ (s : State) (e : Fin 32) (w v a b : Nat) (l : List (Nat × Nat)) (inj : Bool), (e.val < s.fes.length ∧ (s.fe e).stalled = some (w, inj) ∧ s.rd (R.FE_PC_PC e) < 32 ∧ (s.fe e).stepping = false) → (feOp w = 7 ∧ (s.fe e).tx = (v, a) :: l ∧ l.length < 8) → b = s.feBoundary e a → s.reached b = true → 
    Leads s (.fifoStallEnd e) fun t => t.rd (R.FE_EMT_EMT e) = v % 2 ^ 32 ∧ t.rd (R.FE_STAT_TX_LVL e) = l.length ∧ FeDone e w inj none (b + (1 + fePause w) * (s.fe e).div) (b + 2) { s.fe e with tx := l, lastPull := v, emtn := 0 } s t ∧
    RegsBut (R.FE_EMT_EMT e :: R.FE_STAT_TX_LVL e :: feFlds e) s t ∧ t = { s with regs := t.regs, fes := t.fes }) ∧
  -- FIFO_STALL_END (R429): A stalled PUSH enters RX in the first engine cycle after the read that made room.
  (∀ (s : State) (e : Fin 32) (w b : Nat) (inj : Bool), (e.val < s.fes.length ∧ (s.fe e).stalled = some (w, inj) ∧ s.rd (R.FE_PC_PC e) < 32 ∧ (s.fe e).stepping = false) → (feOp w = 6 ∧ (s.fe e).rx.length < 8) → b = s.feBoundary e (s.fe e).rxRead → s.reached b = true → 
    Leads s (.fifoStallEnd e) fun t => t.rd (R.FE_CAP_CAP e) = 0 ∧ t.rd (R.FE_STAT_RX_LVL e) = (s.fe e).rx.length + 1 ∧ FeDone e w inj none (b + (1 + fePause w) * (s.fe e).div) (b + 2) { s.fe e with rx := (s.fe e).rx ++ [s.rd (R.FE_CAP_CAP e)], capn := 0 } s t ∧
    RegsBut (R.FE_CAP_CAP e :: R.FE_STAT_RX_LVL e :: feFlds e) s t ∧ t = { s with regs := t.regs, fes := t.fes }) ∧
  -- XFER (R427): XFER to K0: the source, as it is, inverted, with its bits or its bytes reversed.
  (∀ (s : State) (e : Fin 32) (w : Nat) (inj : Bool), (e.val < s.fes.length ∧ s.feNext e = some (w, inj) ∧ s.rd (R.FE_PC_PC e) < 32) → (feLegal w = true ∧ feOp w = 8 ∧ bits w 23 4 = 1) → 
    Leads s (.xfer e) fun t => t.rd (R.FE_K0_K0 e) = feXop (bits w 17 2) (s.feXferSrc e w (s.fe e).nextAt) % 2 ^ 32 ∧ FeCycle e w inj none (s.feTaken e inj) s t ∧ RegsBut (R.FE_K0_K0 e :: feFlds e) s t ∧ t = { s with regs := t.regs, fes := t.fes }) ∧
  -- XFER (R427): XFER to CAP clears the count of its bits.
  (∀ (s : State) (e : Fin 32) (w : Nat) (inj : Bool), (e.val < s.fes.length ∧ s.feNext e = some (w, inj) ∧ s.rd (R.FE_PC_PC e) < 32) → (feLegal w = true ∧ feOp w = 8 ∧ bits w 23 4 = 3) → 
    Leads s (.xfer e) fun t => t.rd (R.FE_CAP_CAP e) = feXop (bits w 17 2) (s.feXferSrc e w (s.fe e).nextAt) % 2 ^ 32 ∧ FeCycle e w inj none { s.feTaken e inj with capn := 0 } s t ∧ RegsBut (R.FE_CAP_CAP e :: feFlds e) s t ∧ t = { s with regs := t.regs, fes := t.fes }) ∧
  -- LOAD (R428): LOAD of a counter, K0 or K1.
  (∀ (s : State) (e : Fin 32) (w : Nat) (inj : Bool) (f : Fld), (e.val < s.fes.length ∧ s.feNext e = some (w, inj) ∧ s.rd (R.FE_PC_PC e) < 32) → (feLegal w = true ∧ feOp w = 9 ∧ bits w 24 3 < 2 ∧ f = (if bits w 24 3 = 0 then R.FE_K0_K0 e else R.FE_K1_K1 e)) → 
    Leads s (.load e) fun t => t.rd f = bits w 6 16 ∧ FeCycle e w inj none (s.feTaken e inj) s t ∧ RegsBut (f :: feFlds e) s t ∧ t = { s with regs := t.regs, fes := t.fes }) ∧
  -- LOAD (R428): LOAD of PH fills its upper half.
  (∀ (s : State) (e : Fin 32) (w : Nat) (inj : Bool), (e.val < s.fes.length ∧ s.feNext e = some (w, inj) ∧ s.rd (R.FE_PC_PC e) < 32) → (feLegal w = true ∧ feOp w = 9 ∧ bits w 24 3 = 6) → 
    Leads s (.load e) fun t => t.rd (R.FE_PH_PH e) = bits w 6 16 * 2 ^ 16 ∧ FeCycle e w inj none (s.feTaken e inj) s t ∧ RegsBut (R.FE_PH_PH e :: feFlds e) s t ∧ t = { s with regs := t.regs, fes := t.fes }) ∧
  -- PIN (R428): PIN on a pin that the engine owns, outside the safe state: its latch is cleared, set or toggled.
  (∀ (s : State) (e : Fin 32) (w p : Nat) (inj : Bool) (f : Fld), (e.val < s.fes.length ∧ s.feNext e = some (w, inj) ∧ s.rd (R.FE_PC_PC e) < 32) → (feLegal w = true ∧ feOp w = 0xA ∧ p = (s.rd (R.FE_WIN_WBASE e) + bits w 18 5) % 128 ∧ f = (if bit w 24 = true then R.FIO_CFG_OE p else R.FIO_CFG_OUT p)) → (s.on (R.FIO_CFG_OWNED p) = true ∧ s.rd (R.FIO_CFG_OWNER p) = e.val ∧ s.inSafe = false ∧ s.on R.SF_STAT_FORCED = false) → 
    Leads s (.pin e) fun t => t.on f = (if bits w 25 2 = 0 then false else if bits w 25 2 = 1 then true else !s.on f) ∧ FeCycle e w inj none (s.feTaken e inj) s t ∧ RegsBut (f :: feFlds e) s t ∧ t = { s with regs := t.regs, fes := t.fes }) ∧
  -- PIN (R428): On a pin of another owner it changes no latch.
  (∀ (s : State) (e : Fin 32) (w p : Nat) (inj : Bool), (e.val < s.fes.length ∧ s.feNext e = some (w, inj) ∧ s.rd (R.FE_PC_PC e) < 32) → (feLegal w = true ∧ feOp w = 0xA ∧ p = (s.rd (R.FE_WIN_WBASE e) + bits w 18 5) % 128) → (s.on (R.FIO_CFG_OWNED p) = false ∨ s.rd (R.FIO_CFG_OWNER p) ≠ e.val) → 
    Leads s (.pin e) fun t => FeCycle e w inj none (s.feTaken e inj) s t ∧ RegsBut (feFlds e) s t ∧ t = { s with regs := t.regs, fes := t.fes }) ∧
  -- TGT (R428): TGT takes the start of the engine cycle, STAMP or TGT itself plus the immediate.
  (∀ (s : State) (e : Fin 32) (w base : Nat) (inj : Bool), (e.val < s.fes.length ∧ s.feNext e = some (w, inj) ∧ s.rd (R.FE_PC_PC e) < 32) → (feLegal w = true ∧ feOp w = 0xB) → (base = (if bits w 25 2 = 0 then (s.fe e).nextAt else if bits w 25 2 = 1 then s.feStampVal e else s.feTgtVal e)) → 
    Leads s (.tgt e) fun t => t.feTgtVal e = (base + bits w 6 19) % 2 ^ 48 ∧ FeCycle e w inj none (s.feTaken e inj) s t ∧ RegsBut (R.FE_TGT_LO_TGT e :: R.FE_TGT_HI_TGT e :: feFlds e) s t ∧ t = { s with regs := t.regs, fes := t.fes })

/-- What the commands of Fife engines do: SIG_ERR, SIG_IRQ, SIG_TOKEN, SIG_HALT, SIG_CLRSTALE, SIG_CRCRST. For each of the commands SIG_ERR, SIG_IRQ, SIG_TOKEN, SIG_HALT, SIG_CLRSTALE, SIG_CRCRST: in every state and with all operands that meet the conditions of its clause, exec answers a next state, of which the clause gives the values that the rules of the command put there and which equals the state before in everything that the clause does not list. -/
def Obligations.FifeSignals : Prop :=
  -- SIG_ERR (R428): SIG ERR sets the encoder error and counts it.
  (∀ (s : State) (e : Fin 32) (w : Nat) (inj : Bool), (e.val < s.fes.length ∧ s.feNext e = some (w, inj) ∧ s.rd (R.FE_PC_PC e) < 32) → (feLegal w = true ∧ isSig 0 w = true) → 
    Leads s (.sigErr e) fun t => t.on (R.FE_STAT_ENC_ERR e) = true ∧ t.on (R.FE_STAT_ERR_SEEN e) = true ∧ t.rd (R.FE_CNT_ERR_CNT e) = satAdd 16 (s.rd (R.FE_CNT_ERR_CNT e)) 1 ∧ FeCycle e w inj none (s.feTaken e inj) s t ∧
    RegsBut (R.FE_STAT_ENC_ERR e :: R.FE_STAT_ERR_SEEN e :: R.FE_CNT_ERR_CNT e :: feFlds e) s t ∧ t = { s with regs := t.regs, fes := t.fes }) ∧
  -- SIG_IRQ (R428): sigIrq
  (∀ (s : State) (e : Fin 32) (w : Nat) (inj : Bool), (e.val < s.fes.length ∧ s.feNext e = some (w, inj) ∧ s.rd (R.FE_PC_PC e) < 32) → (feLegal w = true ∧ isSig 1 w = true) → 
    Leads s (.sigIrq e) fun t => t.on (R.FE_STAT_IRQ e) = true ∧ FeCycle e w inj none (s.feTaken e inj) s t ∧ RegsBut (R.FE_STAT_IRQ e :: feFlds e) s t ∧ t = { s with regs := t.regs, fes := t.fes }) ∧
  -- SIG_TOKEN (R439): SIG TOKEN posts one token to the target in FE_TOK when its EN is set.
  (∀ (s : State) (e : Fin 32) (w : Nat) (inj : Bool), (e.val < s.fes.length ∧ s.feNext e = some (w, inj) ∧ s.rd (R.FE_PC_PC e) < 32) → (feLegal w = true ∧ isSig 2 w = true) → 
    Leads s (.sigToken e) fun t => t.msgs = s.msgs ++ (if s.on (R.FE_TOK_EN e) then [(tokenMsg s.chip (s.rd (R.FE_TOK_UNIT e)) (s.rd (R.FE_TOK_CONTEXT e)) (s.rd (R.FE_TOK_COUNTER e)) 1 (s.epochOf (s.rd (R.FE_TOK_UNIT e))) 1, 0)] else []) ∧
    FeCycle e w inj none (s.feTaken e inj) s t ∧ RegsBut (feFlds e) s t ∧ t = { s with regs := t.regs, fes := t.fes, msgs := t.msgs }) ∧
  -- SIG_HALT (R428): SIG HALT: HALTED at the next word with cause HALT and an encoder error.
  (∀ (s : State) (e : Fin 32) (w : Nat) (inj : Bool), (e.val < s.fes.length ∧ s.feNext e = some (w, inj) ∧ s.rd (R.FE_PC_PC e) < 32) → (feLegal w = true ∧ isSig 3 w = true) → 
    Leads s (.sigHalt e) fun t => t.feState e = 1 ∧ t.rd (R.FE_STAT_CAUSE e) = 2 ∧ t.on (R.FE_STAT_ENC_ERR e) = true ∧ t.on (R.FE_STAT_ERR_SEEN e) = true ∧ FeCycle e w inj none { s.feTaken e inj with stepping := false } s t ∧
    RegsBut (R.FE_STAT_STATE e :: R.FE_STAT_CAUSE e :: R.FE_STAT_ENC_ERR e :: R.FE_STAT_ERR_SEEN e :: feFlds e) s t ∧ t = { s with regs := t.regs, fes := t.fes }) ∧
  -- SIG_CLRSTALE (R428): sigClrstale
  (∀ (s : State) (e : Fin 32) (w : Nat) (inj : Bool), (e.val < s.fes.length ∧ s.feNext e = some (w, inj) ∧ s.rd (R.FE_PC_PC e) < 32) → (feLegal w = true ∧ isSig 4 w = true) → 
    Leads s (.sigClrstale e) fun t => t.on (R.FE_STAT_STALE e) = false ∧ FeCycle e w inj none (s.feTaken e inj) s t ∧ RegsBut (R.FE_STAT_STALE e :: feFlds e) s t ∧ t = { s with regs := t.regs, fes := t.fes }) ∧
  -- SIG_CRCRST (R428): sigCrcrst
  (∀ (s : State) (e : Fin 32) (w : Nat) (inj : Bool), (e.val < s.fes.length ∧ s.feNext e = some (w, inj) ∧ s.rd (R.FE_PC_PC e) < 32) → (feLegal w = true ∧ isSig 5 w = true) → 
    Leads s (.sigCrcrst e) fun t => FeCycle e w inj none { s.feTaken e inj with crc := s.rd (R.FE_CRC2_CRC_INIT e) } s t ∧ RegsBut (feFlds e) s t ∧ t = { s with regs := t.regs, fes := t.fes })

/-- What the commands of Fife engines do: FE_EN, FE_HALT, FE_STEP, FIFE_GO, FIFE_CLKRST, FE_INJ, FE_TX, FE_RX_READ, INSTRUCTION_MEMORY_WRITE, FIFE_NOW_READ. For each of the commands FE_EN, FE_HALT, FE_STEP, FIFE_GO, FIFE_CLKRST, FE_INJ, FE_TX, FE_RX_READ, INSTRUCTION_MEMORY_WRITE, FIFE_NOW_READ: in every state and with all operands that meet the conditions of its clause, exec answers a next state, of which the clause gives the values that the rules of the command put there and which equals the state before in everything that the clause does not list. -/
def Obligations.FifeCommands : Prop :=
  -- FE_EN (R434): EN of an engine that is OFF: HALTED with every register and FIFO of it cleared; the instruction memory keeps its words.
  (∀ (s s1 : State) (q : Who) (e : Fin 32) (v : BitVec 32) (l : List Fld), (s.takes q (0x180000 + 0x200 * e) v.toNat = true ∧ e.val < s.fes.length) → s1 = s.feFields e v.toNat → (s.feState e = 0 ∧ bit v.toNat 0 = true) → l = [R.FE_STAT_STALL e, R.FE_STAT_CAUSE e, R.FE_STAT_STALE e, R.FE_STAT_ENC_ERR e, R.FE_STAT_ERR_SEEN e, R.FE_STAT_IRQ e, R.FE_STAT_TMO e, R.FE_STAT_INJ_PEND e, R.FE_STAT_INJ_OVF e, R.FE_STAT_TX_OVF e, R.FE_STAT_RX_UF e, R.FE_STAT_TX_LVL e, R.FE_STAT_RX_LVL e, R.FE_STAT_TLATE e, R.FE_PC_PC e, R.FE_K0_K0 e, R.FE_K1_K1 e, R.FE_CAP_CAP e, R.FE_EMT_EMT e, R.FE_PH_PH e, R.FE_STAMP_LO_STAMP e, R.FE_STAMP_HI_STAMP e, R.FE_TGT_LO_TGT e, R.FE_TGT_HI_TGT e, R.FE_PCNT_PCNT e] → 
    Leads s (.feEn q e v) fun t => t.feState e = 1 ∧ t.on (R.FE_CTRL_EN e) = true ∧ (∀ f ∈ l, t.rd f = 0) ∧ t.fe e = { known := (s.fe e).known } ∧ (∀ y, y ≠ e.val → t.fe y = s.fe y) ∧
    RegsBut (R.FE_CTRL_EN e :: R.FE_STAT_STATE e :: l) s1 t ∧ t = { s with regs := t.regs, fes := t.fes, answer := t.answer }) ∧
  -- FE_EN (R434): EN written 0: the engine is OFF, whatever it did is abandoned.
  (∀ (s s1 : State) (q : Who) (e : Fin 32) (v : BitVec 32), (s.takes q (0x180000 + 0x200 * e) v.toNat = true ∧ e.val < s.fes.length) → s1 = s.feFields e v.toNat → (s.feState e ≠ 0 ∧ bits v.toNat 0 3 = 0) → 
    Leads s (.feEn q e v) fun t => t.feState e = 0 ∧ t.on (R.FE_CTRL_EN e) = false ∧ t.rd (R.FE_STAT_STALL e) = 0 ∧ t.on (R.FE_STAT_ENC_ERR e) = false ∧ t.on (R.FE_STAT_INJ_PEND e) = false ∧
    t.fe e = { s.fe e with stalled := none, inj := none, stepping := false } ∧ (∀ y, y ≠ e.val → t.fe y = s.fe y) ∧
    RegsBut [R.FE_CTRL_EN e, R.FE_STAT_STATE e, R.FE_STAT_STALL e, R.FE_STAT_ENC_ERR e, R.FE_STAT_INJ_PEND e] s1 t ∧ t = { s with regs := t.regs, fes := t.fes, answer := t.answer }) ∧
  -- FE_HALT (R434): HALT of an engine in RUN: HALTED with cause HALT, a stalled instruction is abandoned.
  (∀ (s s1 : State) (q : Who) (e : Fin 32) (v : BitVec 32), (s.takes q (0x180000 + 0x200 * e) (v ||| 2).toNat = true ∧ e.val < s.fes.length) → s1 = s.feFields e v.toNat → (s.feState e = 2 ∧ bit v.toNat 0 = true) → 
    Leads s (.feHalt q e v) fun t => t.feState e = 1 ∧ t.rd (R.FE_STAT_CAUSE e) = 1 ∧ t.rd (R.FE_STAT_STALL e) = 0 ∧ t.fe e = { s.fe e with stalled := none, stepping := false } ∧ (∀ y, y ≠ e.val → t.fe y = s.fe y) ∧
    RegsBut [R.FE_STAT_STATE e, R.FE_STAT_CAUSE e, R.FE_STAT_STALL e] s1 t ∧ t = { s with regs := t.regs, fes := t.fes, answer := t.answer }) ∧
  -- FE_STEP (R434): STEP of a HALTED engine at a NOP: the word executes from the next control cycle on and the engine is HALTED again.
  (∀ (s s1 : State) (q : Who) (e : Fin 32) (v : BitVec 32) (fio : BitVec 128) (w : Nat), (State.takes (s.setFio fio) q (0x180000 + 0x200 * e) (v ||| 4).toNat = true ∧ e.val < s.fes.length) → s1 = s.feFields e v.toNat → (s.feState e = 1 ∧ bit v.toNat 0 = true ∧ (s.fe e).stalled = none ∧ s.rd (R.FE_PC_PC e) < 32) → w = s.feImem e (s.rd (R.FE_PC_PC e)) → (feLegal w = true ∧ feOp w = 0) → 
    Leads s (.feStep q e v fio) fun t => t.feState e = 1 ∧ t.rd (R.FE_STAT_CAUSE e) = 1 ∧ FeDone e w false none (s.now + 1 + (1 + fePause w) * (s.fe e).div) (s.now + 3) { s.fe e with stepping := false } s t ∧
    RegsBut (R.FE_STAT_STATE e :: R.FE_STAT_CAUSE e :: feFlds e) s1 t ∧ t = { s with regs := t.regs, fes := t.fes, fioLv := fio.toNat, answer := t.answer }) ∧
  -- FE_STEP (R434): At an illegal word it stops with cause ILLEGAL.
  (∀ (s s1 : State) (q : Who) (e : Fin 32) (v : BitVec 32) (fio : BitVec 128), (State.takes (s.setFio fio) q (0x180000 + 0x200 * e) (v ||| 4).toNat = true ∧ e.val < s.fes.length) → s1 = s.feFields e v.toNat → (s.feState e = 1 ∧ bit v.toNat 0 = true ∧ (s.fe e).stalled = none) → feLegal (s.feImem e (s.rd (R.FE_PC_PC e))) = false → 
    Leads s (.feStep q e v fio) fun t => t.feState e = 1 ∧ t.rd (R.FE_STAT_CAUSE e) = 3 ∧ t.on (R.FE_STAT_ENC_ERR e) = true ∧ t.on (R.FE_STAT_ERR_SEEN e) = true ∧ t.rd (R.FE_PC_PC e) = s.rd (R.FE_PC_PC e) ∧
    RegsBut [R.FE_STAT_STATE e, R.FE_STAT_CAUSE e, R.FE_STAT_ENC_ERR e, R.FE_STAT_ERR_SEEN e, R.FE_STAT_STALL e] s1 t ∧ t = { s with regs := t.regs, fes := t.fes, fioLv := fio.toNat, answer := t.answer }) ∧
  -- FIFE_GO (R435): GO: the named engines that are HALTED begin to run in the next control cycle, with the divider as set up and at least 2.
  (∀ (s : State) (q : Who) (v : BitVec 32), (s.takes q 0x184000 v.toNat = true ∧ 32 ≤ s.fes.length) → 
    Leads s (.fifeGo q v) fun t => (∀ e < 32, t.fe e = (if bit v.toNat e = true ∧ s.feState e = 1 then { s.fe e with div := max 2 (s.rd (R.FE_CLK_DIV e)), nextAt := (s.now + 1) % 2 ^ 48, stepping := false } else s.fe e) ∧
      t.feState e = (if bit v.toNat e = true ∧ s.feState e = 1 then 2 else s.feState e)) ∧
    RegsBut ((List.range 32).map R.FE_STAT_STATE) s t ∧ t = { s with regs := t.regs, fes := t.fes, answer := t.answer }) ∧
  -- FIFE_CLKRST (R435): CLKRST: the engine cycle of each named engine in RUN is cut short; a PAUSE keeps its whole cycles.
  (∀ (s : State) (q : Who) (v : BitVec 32), (s.takes q 0x184004 v.toNat = true ∧ 32 ≤ s.fes.length) → 
    Leads s (.fifeClkrst q v) fun t => (∀ e < 32, bit v.toNat e = false ∨ s.feState e ≠ 2 → t.fe e = s.fe e) ∧ (∀ e < 32, bit v.toNat e = true ∧ s.feState e = 2 ∧ s.now < (s.fe e).nextAt ∧ (s.fe e).nextAt < 2 ^ 46 →
      t.fe e = { s.fe e with nextAt := (s.now + 1 + ((s.fe e).nextAt - s.now - 1) / (s.fe e).div * (s.fe e).div) % 2 ^ 48 }) ∧
    t = { s with fes := t.fes, answer := t.answer }) ∧
  -- FE_INJ (R436): A word injected into a running engine waits for its instruction boundary.
  (∀ (s : State) (q : Who) (e : Fin 32) (v : BitVec 32) (fio : BitVec 128), (State.takes (s.setFio fio) q (0x180028 + 0x200 * e) v.toNat = true ∧ e.val < s.fes.length) → (s.feState e = 2 ∧ (s.fe e).inj = none ∧ s.on (R.FE_CTRL_INJ_FORCE e) = false) → 
    Leads s (.feInj q e v fio) fun t => t.on (R.FE_STAT_INJ_PEND e) = true ∧ t.fe e = { s.fe e with inj := some v.toNat } ∧ (∀ y, y ≠ e.val → t.fe y = s.fe y) ∧ RegsBut [R.FE_STAT_INJ_PEND e] s t ∧
    t = { s with regs := t.regs, fes := t.fes, fioLv := fio.toNat, answer := t.answer }) ∧
  -- FE_INJ (R436): Into a HALTED engine: a SIG IRQ runs at once and PC stays.
  (∀ (s : State) (q : Who) (e : Fin 32) (v : BitVec 32) (fio : BitVec 128) (w : Nat), (State.takes (s.setFio fio) q (0x180028 + 0x200 * e) v.toNat = true ∧ e.val < s.fes.length) → (s.feState e = 1 ∧ (s.fe e).inj = none ∧ (s.fe e).stalled = none ∧ (s.fe e).stepping = false) → (w = v.toNat ∧ feLegal w = true ∧ isSig 1 w = true) → 
    Leads s (.feInj q e v fio) fun t => t.on (R.FE_STAT_IRQ e) = true ∧ FeDone e w true none (s.now + 1 + (1 + fePause w) * (s.fe e).div) (s.now + 3) (s.fe e) s t ∧
    RegsBut (R.FE_STAT_IRQ e :: feFlds e) s t ∧ t = { s with regs := t.regs, fes := t.fes, fioLv := fio.toNat, answer := t.answer }) ∧
  -- FE_INJ (R436): With one pending it is lost and INJ_OVF shows it.
  (∀ (s : State) (q : Who) (e : Fin 32) (v : BitVec 32) (fio : BitVec 128), State.takes (s.setFio fio) q (0x180028 + 0x200 * e) v.toNat = true → (s.fe e).inj ≠ none → 
    Leads s (.feInj q e v fio) fun t => t.on (R.FE_STAT_INJ_OVF e) = true ∧ RegsBut [R.FE_STAT_INJ_OVF e] s t ∧ t = { s with regs := t.regs, fioLv := fio.toNat, answer := t.answer }) ∧
  -- FE_TX (R438): A write of FE_TX enters TX.
  (∀ (s : State) (q : Who) (e : Fin 32) (v : BitVec 32), (s.takes q (0x180020 + 0x200 * e) v.toNat = true ∧ e.val < s.fes.length) → (s.fe e).tx.length < 8 → 
    Leads s (.feTx q e v) fun t => t.rd (R.FE_STAT_TX_LVL e) = (s.fe e).tx.length + 1 ∧ t.fe e = { s.fe e with tx := (s.fe e).tx ++ [(v.toNat, s.now)] } ∧ (∀ y, y ≠ e.val → t.fe y = s.fe y) ∧
    RegsBut [R.FE_STAT_TX_LVL e] s t ∧ t = { s with regs := t.regs, fes := t.fes, answer := t.answer }) ∧
  -- FE_TX (R438): feTx, full
  (∀ (s : State) (q : Who) (e : Fin 32) (v : BitVec 32), s.takes q (0x180020 + 0x200 * e) v.toNat = true → 8 ≤ (s.fe e).tx.length → 
    Leads s (.feTx q e v) fun t => t.on (R.FE_STAT_TX_OVF e) = true ∧ RegsBut [R.FE_STAT_TX_OVF e] s t ∧ t = { s with regs := t.regs, answer := t.answer }) ∧
  -- FE_RX_READ (R438): A read of FE_RX takes the oldest word; the read that ends a full RX is noted.
  (∀ (s : State) (q : Who) (e : Fin 32) (a : Nat) (l : List Nat), (s.gives q (0x180024 + 0x200 * e) = true ∧ e.val < s.fes.length) → ((s.fe e).rx = a :: l ∧ a < 2 ^ 32 ∧ l.length < 8) → 
    Leads s (.feRxRead q e) fun t => t.answer.st = .ok ∧ t.answer.value = a ∧ t.rd (R.FE_STAT_RX_LVL e) = l.length ∧ t.fe e = { s.fe e with rx := l, rxRead := if l.length = 7 then s.now else (s.fe e).rxRead } ∧ (∀ y, y ≠ e.val → t.fe y = s.fe y) ∧
    RegsBut [R.FE_STAT_RX_LVL e] s t ∧ t = { s with regs := t.regs, fes := t.fes, answer := t.answer }) ∧
  -- FE_RX_READ (R438): feRxRead, empty
  (∀ (s : State) (q : Who) (e : Fin 32), s.gives q (0x180024 + 0x200 * e) = true → (s.fe e).rx = [] → 
    Leads s (.feRxRead q e) fun t => t.answer.st = .ok ∧ t.answer.value = 0 ∧ t.on (R.FE_STAT_RX_UF e) = true ∧ RegsBut [R.FE_STAT_RX_UF e] s t ∧ t = { s with regs := t.regs, answer := t.answer }) ∧
  -- INSTRUCTION_MEMORY_WRITE (R437): A write of a word of the instruction memory: the engine fetches it from then on.
  (∀ (s : State) (q : Who) (e i : Fin 32) (v : BitVec 32), (s.takes q (0x180100 + 0x200 * e + 4 * i) v.toNat = true ∧ e.val < s.fes.length) → 
    Leads s (.instructionMemoryWrite q e i v) fun t => t.feImem e i = v.toNat ∧ t.rd (R.FE_IMEM_WORD e i) = v.toNat ∧ (∀ y, y ≠ e.val → t.fe y = s.fe y) ∧ t.fe e = { s.fe e with known := (t.fe e).known } ∧
    (∀ j < 32, j ≠ i.val → t.feImem e j = s.feImem e j) ∧ RegsBut [R.FE_IMEM_WORD e i] s t ∧ t = { s with regs := t.regs, fes := t.fes, answer := t.answer }) ∧
  -- FIFE_NOW_READ (R448): A read of FIFE_NOW_LO answers the low half of Fife time and captures the high one.
  (∀ (s : State) (q : Who), s.gives q 0x184008 = true → 
    Leads s (.fifeNowRead q) fun t => t.answer.st = .ok ∧ t.answer.value = s.now % 2 ^ 32 ∧ t.rd R.FIFE_NOW_HI_NOW = s.now / 2 ^ 32 % 2 ^ 16 ∧ t.rd R.FIFE_NOW_LO_NOW = s.now % 2 ^ 32 ∧
    RegsBut [R.FIFE_NOW_LO_NOW, R.FIFE_NOW_HI_NOW] s t ∧ t = { s with regs := t.regs, answer := t.answer })
end

