-- ==== Sys2Proof/Laws/Tables.lean ====
section
/-! SUPPORT. Sparse tables and the bytes of the memory: a read after a write, and what every update keeps. -/

namespace Sys2Proof.Machine

variable {α : Type}

/-! ### Sparse tables -/

theorem tget_terase_same (d : α) (l : List (Nat × α)) (k : Nat) : tget d (terase k l) k = d := by
  induction l with
  | nil => rfl
  | cons p t ih =>
    obtain ⟨j, w⟩ := p
    by_cases h : j = k <;> simp [terase, tget, h, ih]

theorem tget_terase_ne (d : α) (l : List (Nat × α)) {k j : Nat} (h : j ≠ k) : tget d (terase k l) j = tget d l j := by
  induction l with
  | nil => rfl
  | cons p t ih =>
    obtain ⟨i, w⟩ := p
    by_cases hi : i = k
    · have : i ≠ j := fun e => h (e ▸ hi)
      simp [terase, tget, hi, ih, Ne.symm h]
    · simp [terase, tget, hi, ih]

theorem tget_tput_ne (d : α) (l : List (Nat × α)) (v : α) {k j : Nat} (h : j ≠ k) : tget d (tput k v l) j = tget d l j := by
  induction l with
  | nil => simp [tput, tget, Ne.symm h]
  | cons p t ih =>
    obtain ⟨i, w⟩ := p
    by_cases hi : k < i <;> simp [tput, tget, hi, ih, Ne.symm h]

theorem tget_tput_erased (d : α) (l : List (Nat × α)) (v : α) (k : Nat) : tget d (tput k v (terase k l)) k = v := by
  induction l with
  | nil => simp [terase, tput, tget]
  | cons p t ih =>
    obtain ⟨i, w⟩ := p
    by_cases hi : i = k
    · simp [terase, hi, ih]
    · by_cases hk : k < i <;> simp [terase, tput, tget, hi, hk, ih]

/-- A read after a write to the same key gives the value written. -/
theorem tget_tset_same [DecidableEq α] (d : α) (l : List (Nat × α)) (k : Nat) (v : α) : tget d (tset d l k v) k = v := by
  unfold tset
  split
  · rename_i h; rw [tget_terase_same, h]
  · exact tget_tput_erased d l v k

/-- A write leaves every other key alone. -/
theorem tget_tset_ne [DecidableEq α] (d : α) (l : List (Nat × α)) (v : α) {k j : Nat} (h : j ≠ k) :
    tget d (tset d l k v) j = tget d l j := by
  unfold tset
  split
  · exact tget_terase_ne d l h
  · rw [tget_tput_ne _ _ _ h, tget_terase_ne _ _ h]

/-- The default at another position of the table does not matter for what is listed. -/
theorem tget_tset_ne' [DecidableEq α] (d e : α) (l : List (Nat × α)) (v : α) {k j : Nat} (h : j ≠ k) :
    tget e (tset d l k v) j = tget e l j := by
  unfold tset
  split
  · exact tget_terase_ne e l h
  · rw [tget_tput_ne _ _ _ h, tget_terase_ne _ _ h]

/-! ### Rising keys -/

/-- Every key of a table is above a bound. -/
def tabove (b : Nat) (l : List (Nat × α)) : Prop := ∀ p ∈ l, b < p.1

theorem tsorted_cons (p : Nat × α) (l : List (Nat × α)) : tsorted (p :: l) = true ↔ tabove p.1 l ∧ tsorted l = true := by
  induction l generalizing p with
  | nil => simp [tsorted, tabove]
  | cons q t ih =>
    obtain ⟨a, v⟩ := p
    obtain ⟨b, w⟩ := q
    simp only [tsorted, Bool.and_eq_true, decide_eq_true_eq]
    rw [ih (b, w)]
    constructor
    · rintro ⟨h1, h2, h3⟩
      refine ⟨fun x hx => ?_, h2, h3⟩
      rcases List.mem_cons.1 hx with rfl | hx
      · exact h1
      · exact lt_trans h1 (h2 x hx)
    · rintro ⟨h1, h2, h3⟩
      exact ⟨h1 _ (List.mem_cons_self ..), h2, h3⟩

theorem mem_terase {k : Nat} {l : List (Nat × α)} {p : Nat × α} (h : p ∈ terase k l) : p ∈ l ∧ p.1 ≠ k := by
  induction l with
  | nil => simp [terase] at h
  | cons q t ih =>
    obtain ⟨j, w⟩ := q
    by_cases hj : j = k
    · simp only [terase, hj, if_true] at h
      exact ⟨List.mem_cons_of_mem _ (ih h).1, (ih h).2⟩
    · simp only [terase, hj, if_false] at h
      rcases List.mem_cons.1 h with rfl | h
      · exact ⟨List.mem_cons_self .., hj⟩
      · exact ⟨List.mem_cons_of_mem _ (ih h).1, (ih h).2⟩

theorem mem_tput {k : Nat} {v : α} {l : List (Nat × α)} {p : Nat × α} (h : p ∈ tput k v l) : p = (k, v) ∨ p ∈ l := by
  induction l with
  | nil => simpa [tput] using h
  | cons q t ih =>
    obtain ⟨j, w⟩ := q
    by_cases hj : k < j
    · simp only [tput, hj, if_true, List.mem_cons] at h ⊢; exact h
    · simp only [tput, hj, if_false, List.mem_cons] at h ⊢
      rcases h with h | h
      · exact .inr (.inl h)
      · rcases ih h with h | h
        · exact .inl h
        · exact .inr (.inr h)

theorem tsorted_terase {k : Nat} {l : List (Nat × α)} (h : tsorted l = true) : tsorted (terase k l) = true := by
  induction l with
  | nil => exact h
  | cons q t ih =>
    obtain ⟨j, w⟩ := q
    rw [tsorted_cons] at h
    by_cases hj : j = k
    · simpa [terase, hj] using ih h.2
    · simp only [terase, hj, if_false]
      exact (tsorted_cons _ _).2 ⟨fun p hp => h.1 p (mem_terase hp).1, ih h.2⟩

theorem tsorted_tput {k : Nat} {v : α} {l : List (Nat × α)} (h : tsorted l = true) (hk : ∀ p ∈ l, p.1 ≠ k) :
    tsorted (tput k v l) = true := by
  induction l with
  | nil => rfl
  | cons q t ih =>
    obtain ⟨j, w⟩ := q
    have h' := (tsorted_cons _ _).1 h
    by_cases hj : k < j
    · simp only [tput, hj, if_true]
      refine (tsorted_cons _ _).2 ⟨fun p hp => ?_, h⟩
      rcases List.mem_cons.1 hp with rfl | hp
      · exact hj
      · exact lt_trans hj (h'.1 p hp)
    · simp only [tput, hj, if_false]
      have hne : j ≠ k := hk (j, w) (List.mem_cons_self ..)
      refine (tsorted_cons _ _).2 ⟨fun p hp => ?_, ih h'.2 fun p hp => hk p (List.mem_cons_of_mem _ hp)⟩
      rcases mem_tput hp with rfl | hp
      · exact lt_of_le_of_ne (not_lt.1 hj) hne
      · exact h'.1 p hp

theorem tsorted_tset [DecidableEq α] {d : α} {l : List (Nat × α)} {k : Nat} {v : α} (h : tsorted l = true) :
    tsorted (tset d l k v) = true := by
  unfold tset
  split
  · exact tsorted_terase h
  · exact tsorted_tput (tsorted_terase h) fun p hp => (mem_terase hp).2

theorem tsorted_filter {l : List (Nat × α)} (q : Nat × α → Bool) (h : tsorted l = true) : tsorted (l.filter q) = true := by
  induction l with
  | nil => exact h
  | cons p t ih =>
    rw [tsorted_cons] at h
    by_cases hp : q p
    · simp only [List.filter, hp]
      exact (tsorted_cons _ _).2 ⟨fun x hx => h.1 x (List.mem_of_mem_filter hx), ih h.2⟩
    · simp only [List.filter, hp]; exact ih h.2

/-! ### Bytes of the memory -/

theorem memGet_eq_tget (l : List Host.Cell) (a : Nat) : memGet l a = tget none (l.map fun p => (p.1, some p.2)) a := by
  induction l with
  | nil => rfl
  | cons p t ih => obtain ⟨j, v⟩ := p; by_cases h : j = a <;> simp [memGet, tget, h, ih]

theorem memGet_terase_same (l : List Host.Cell) (a : Nat) : memGet (terase a l) a = none := by
  induction l with
  | nil => rfl
  | cons p t ih => obtain ⟨j, w⟩ := p; by_cases h : j = a <;> simp [terase, memGet, h, ih]

theorem memGet_terase_ne (l : List Host.Cell) {a b : Nat} (h : b ≠ a) : memGet (terase a l) b = memGet l b := by
  induction l with
  | nil => rfl
  | cons p t ih =>
    obtain ⟨j, w⟩ := p
    by_cases hj : j = a
    · simp [terase, memGet, hj, ih, Ne.symm h]
    · simp [terase, memGet, hj, ih]

theorem memGet_tput_ne (l : List Host.Cell) (v : Byte) {a b : Nat} (h : b ≠ a) : memGet (tput a v l) b = memGet l b := by
  induction l with
  | nil => simp [tput, memGet, Ne.symm h]
  | cons p t ih => obtain ⟨j, w⟩ := p; by_cases hj : a < j <;> simp [tput, memGet, hj, ih, Ne.symm h]

theorem memGet_tput_erased (l : List Host.Cell) (v : Byte) (a : Nat) : memGet (tput a v (terase a l)) a = some v := by
  induction l with
  | nil => simp [terase, tput, memGet]
  | cons p t ih =>
    obtain ⟨j, w⟩ := p
    by_cases hj : j = a
    · simp [terase, hj, ih]
    · by_cases hk : a < j <;> simp [terase, tput, memGet, hj, hk, ih]

theorem memGet_memPut_same (d : Option Byte) (l : List Host.Cell) (a : Nat) (v : Byte) :
    memGet (memPut d l a v) a = if d = some v then none else some v := by
  unfold memPut
  split
  · exact memGet_terase_same l a
  · exact memGet_tput_erased l v a

theorem memGet_memPut_ne (d : Option Byte) (l : List Host.Cell) {a b : Nat} (v : Byte) (h : b ≠ a) :
    memGet (memPut d l a v) b = memGet l b := by
  unfold memPut
  split
  · exact memGet_terase_ne l h
  · rw [memGet_tput_ne _ _ h, memGet_terase_ne _ h]

/-- What an unlisted byte reads as does not depend on the bytes listed. -/
theorem unlisted_putByte (s : State) (a b c : Nat) (v : Byte) : (s.putByte a v).unlisted c b = s.unlisted c b := rfl

/-- A byte read after it was written is the byte written. -/
theorem getByte_putByte_same (s : State) (a : Nat) (v : Byte) : (s.putByte a v).getByte a = v := by
  show (memGet (memPut _ s.mem a v) a).getD (s.unlisted (memCode a) a) = v
  rw [memGet_memPut_same]
  unfold State.unlisted
  by_cases hl : s.isLost (memCode a) a = true
  · simp [hl]
  · simp only [hl]
    by_cases hv : (0 : Byte) = v
    · simp [← hv]
    · simp [show ¬ (0#8 = v) from hv]

/-- Writing a byte leaves every other byte alone. -/
theorem getByte_putByte_ne (s : State) {a b : Nat} (v : Byte) (h : b ≠ a) : (s.putByte a v).getByte b = s.getByte b := by
  show (memGet (memPut _ s.mem a v) b).getD (s.unlisted (memCode b) b) = _
  rw [memGet_memPut_ne _ _ _ h]; rfl

end Sys2Proof.Machine
end

