-- ==== Sys2Proof/Laws/State.lean ====
section
/-! SUPPORT. The fields of the state after each named update of it, and what a table holds after one of its entries is put. -/

namespace Sys2Proof.Machine

variable (s : State)

@[simp] theorem State.wr_pending (f : Fld) (v : Nat) : (s.wr f v).pending = s.pending := rfl
@[simp] theorem State.wr_mem (f : Fld) (v : Nat) : (s.wr f v).mem = s.mem := rfl
@[simp] theorem State.wr_unknown (f : Fld) (v : Nat) : (s.wr f v).unknown = s.unknown := rfl
@[simp] theorem State.wr_lostPages (f : Fld) (v : Nat) : (s.wr f v).lostPages = s.lostPages := rfl
@[simp] theorem State.wr_ecc (f : Fld) (v : Nat) : (s.wr f v).ecc = s.ecc := rfl
@[simp] theorem State.wr_wb (f : Fld) (v : Nat) : (s.wr f v).wb = s.wb := rfl
@[simp] theorem State.wr_resv (f : Fld) (v : Nat) : (s.wr f v).resv = s.resv := rfl
@[simp] theorem State.wr_scrub (f : Fld) (v : Nat) : (s.wr f v).scrub = s.scrub := rfl
@[simp] theorem State.wr_answer (f : Fld) (v : Nat) : (s.wr f v).answer = s.answer := rfl
@[simp] theorem State.wr_replies (f : Fld) (v : Nat) : (s.wr f v).replies = s.replies := rfl
@[simp] theorem State.wr_outst (f : Fld) (v : Nat) : (s.wr f v).outst = s.outst := rfl
@[simp] theorem State.wr_tagHold (f : Fld) (v : Nat) : (s.wr f v).tagHold = s.tagHold := rfl
@[simp] theorem State.wr_acks (f : Fld) (v : Nat) : (s.wr f v).acks = s.acks := rfl
@[simp] theorem State.wr_nextTag (f : Fld) (v : Nat) : (s.wr f v).nextTag = s.nextTag := rfl
@[simp] theorem State.wr_hostOut (f : Fld) (v : Nat) : (s.wr f v).hostOut = s.hostOut := rfl
@[simp] theorem State.wr_msgs (f : Fld) (v : Nat) : (s.wr f v).msgs = s.msgs := rfl
@[simp] theorem State.wr_postAns (f : Fld) (v : Nat) : (s.wr f v).postAns = s.postAns := rfl
@[simp] theorem State.wr_zlr (f : Fld) (v : Nat) : (s.wr f v).zlr = s.zlr := rfl
@[simp] theorem State.wr_reports (f : Fld) (v : Nat) : (s.wr f v).reports = s.reports := rfl
@[simp] theorem State.wr_islandIrq (f : Fld) (v : Nat) : (s.wr f v).islandIrq = s.islandIrq := rfl
@[simp] theorem State.wr_aligned (f : Fld) (v : Nat) : (s.wr f v).aligned = s.aligned := rfl
@[simp] theorem State.wr_sysrst (f : Fld) (v : Nat) : (s.wr f v).sysrst = s.sysrst := rfl
@[simp] theorem State.wr_now (f : Fld) (v : Nat) : (s.wr f v).now = s.now := rfl
@[simp] theorem State.wr_sysAcc (f : Fld) (v : Nat) : (s.wr f v).sysAcc = s.sysAcc := rfl
@[simp] theorem State.wr_units (f : Fld) (v : Nat) : (s.wr f v).units = s.units := rfl
@[simp] theorem State.wr_fw (f : Fld) (v : Nat) : (s.wr f v).fw = s.fw := rfl
@[simp] theorem State.wr_fwArmed (f : Fld) (v : Nat) : (s.wr f v).fwArmed = s.fwArmed := rfl
@[simp] theorem State.wr_fwLocked (f : Fld) (v : Nat) : (s.wr f v).fwLocked = s.fwLocked := rfl
@[simp] theorem State.wr_ctxs (f : Fld) (v : Nat) : (s.wr f v).ctxs = s.ctxs := rfl
@[simp] theorem State.wr_errHeld (f : Fld) (v : Nat) : (s.wr f v).errHeld = s.errHeld := rfl
@[simp] theorem State.wr_rowStage (f : Fld) (v : Nat) : (s.wr f v).rowStage = s.rowStage := rfl
@[simp] theorem State.wr_drones (f : Fld) (v : Nat) : (s.wr f v).drones = s.drones := rfl
@[simp] theorem State.wr_events (f : Fld) (v : Nat) : (s.wr f v).events = s.events := rfl
@[simp] theorem State.wr_latchUnread (f : Fld) (v : Nat) : (s.wr f v).latchUnread = s.latchUnread := rfl
@[simp] theorem State.wr_latchJobs (f : Fld) (v : Nat) : (s.wr f v).latchJobs = s.latchJobs := rfl
@[simp] theorem State.wr_freeCtr (f : Fld) (v : Nat) : (s.wr f v).freeCtr = s.freeCtr := rfl
@[simp] theorem State.wr_meas (f : Fld) (v : Nat) : (s.wr f v).meas = s.meas := rfl
@[simp] theorem State.wr_reed (f : Fld) (v : Nat) : (s.wr f v).reed = s.reed := rfl
@[simp] theorem State.wr_qstat (f : Fld) (v : Nat) : (s.wr f v).qstat = s.qstat := rfl
@[simp] theorem State.wr_tokWait (f : Fld) (v : Nat) : (s.wr f v).tokWait = s.tokWait := rfl
@[simp] theorem State.wr_opChange (f : Fld) (v : Nat) : (s.wr f v).opChange = s.opChange := rfl
@[simp] theorem State.wr_vid (f : Fld) (v : Nat) : (s.wr f v).vid = s.vid := rfl
@[simp] theorem State.wr_vok (f : Fld) (v : Nat) : (s.wr f v).vok = s.vok := rfl
@[simp] theorem State.wr_vidChanged (f : Fld) (v : Nat) : (s.wr f v).vidChanged = s.vidChanged := rfl
@[simp] theorem State.wr_sensAge (f : Fld) (v : Nat) : (s.wr f v).sensAge = s.sensAge := rfl
@[simp] theorem State.wr_shutRun (f : Fld) (v : Nat) : (s.wr f v).shutRun = s.shutRun := rfl
@[simp] theorem State.wr_opSince (f : Fld) (v : Nat) : (s.wr f v).opSince = s.opSince := rfl
@[simp] theorem State.wr_used (f : Fld) (v : Nat) : (s.wr f v).used = s.used := rfl
@[simp] theorem State.wr_step (f : Fld) (v : Nat) : (s.wr f v).step = s.step := rfl
@[simp] theorem State.wr_stepStage (f : Fld) (v : Nat) : (s.wr f v).stepStage = s.stepStage := rfl
@[simp] theorem State.wr_genJob (f : Fld) (v : Nat) : (s.wr f v).genJob = s.genJob := rfl
@[simp] theorem State.wr_sigs (f : Fld) (v : Nat) : (s.wr f v).sigs = s.sigs := rfl
@[simp] theorem State.wr_sigsIn (f : Fld) (v : Nat) : (s.wr f v).sigsIn = s.sigsIn := rfl
@[simp] theorem State.wr_lsStepHi (f : Fld) (v : Nat) : (s.wr f v).lsStepHi = s.lsStepHi := rfl
@[simp] theorem State.wr_lsDead (f : Fld) (v : Nat) : (s.wr f v).lsDead = s.lsDead := rfl
@[simp] theorem State.wr_joinFp (f : Fld) (v : Nat) : (s.wr f v).joinFp = s.joinFp := rfl
@[simp] theorem State.wr_tiles (f : Fld) (v : Nat) : (s.wr f v).tiles = s.tiles := rfl
@[simp] theorem State.wr_axes (f : Fld) (v : Nat) : (s.wr f v).axes = s.axes := rfl
@[simp] theorem State.wr_sds (f : Fld) (v : Nat) : (s.wr f v).sds = s.sds := rfl
@[simp] theorem State.wr_slots (f : Fld) (v : Nat) : (s.wr f v).slots = s.slots := rfl
@[simp] theorem State.wr_sps (f : Fld) (v : Nat) : (s.wr f v).sps = s.sps := rfl
@[simp] theorem State.wr_injs (f : Fld) (v : Nat) : (s.wr f v).injs = s.injs := rfl
@[simp] theorem State.wr_caps (f : Fld) (v : Nat) : (s.wr f v).caps = s.caps := rfl
@[simp] theorem State.wr_lanes (f : Fld) (v : Nat) : (s.wr f v).lanes = s.lanes := rfl
@[simp] theorem State.wr_chnRuns (f : Fld) (v : Nat) : (s.wr f v).chnRuns = s.chnRuns := rfl
@[simp] theorem State.wr_cwqSel (f : Fld) (v : Nat) : (s.wr f v).cwqSel = s.cwqSel := rfl
@[simp] theorem State.wr_pcms (f : Fld) (v : Nat) : (s.wr f v).pcms = s.pcms := rfl
@[simp] theorem State.wr_pcs (f : Fld) (v : Nat) : (s.wr f v).pcs = s.pcs := rfl
@[simp] theorem State.wr_lls (f : Fld) (v : Nat) : (s.wr f v).lls = s.lls := rfl
@[simp] theorem State.wr_lchs (f : Fld) (v : Nat) : (s.wr f v).lchs = s.lchs := rfl
@[simp] theorem State.wr_fes (f : Fld) (v : Nat) : (s.wr f v).fes = s.fes := rfl
@[simp] theorem State.wr_fioLv (f : Fld) (v : Nat) : (s.wr f v).fioLv = s.fioLv := rfl
@[simp] theorem State.wr_ras (f : Fld) (v : Nat) : (s.wr f v).ras = s.ras := rfl
@[simp] theorem State.wr_sqs (f : Fld) (v : Nat) : (s.wr f v).sqs = s.sqs := rfl
@[simp] theorem State.wr_cqs (f : Fld) (v : Nat) : (s.wr f v).cqs = s.cqs := rfl
@[simp] theorem State.wr_dbVals (f : Fld) (v : Nat) : (s.wr f v).dbVals = s.dbVals := rfl
@[simp] theorem State.wr_msix (f : Fld) (v : Nat) : (s.wr f v).msix = s.msix := rfl
@[simp] theorem State.wr_msixPend (f : Fld) (v : Nat) : (s.wr f v).msixPend = s.msixPend := rfl
@[simp] theorem State.wr_coreIrq (f : Fld) (v : Nat) : (s.wr f v).coreIrq = s.coreIrq := rfl
@[simp] theorem State.wr_pcieUp (f : Fld) (v : Nat) : (s.wr f v).pcieUp = s.pcieUp := rfl
@[simp] theorem State.wr_d3hot (f : Fld) (v : Nat) : (s.wr f v).d3hot = s.d3hot := rfl
@[simp] theorem State.wr_ports (f : Fld) (v : Nat) : (s.wr f v).ports = s.ports := rfl
@[simp] theorem State.wr_tokOut (f : Fld) (v : Nat) : (s.wr f v).tokOut = s.tokOut := rfl
@[simp] theorem State.wr_fwmsgs (f : Fld) (v : Nat) : (s.wr f v).fwmsgs = s.fwmsgs := rfl
@[simp] theorem State.wr_badMsg (f : Fld) (v : Nat) : (s.wr f v).badMsg = s.badMsg := rfl
@[simp] theorem State.wr_leaderAt (f : Fld) (v : Nat) : (s.wr f v).leaderAt = s.leaderAt := rfl
@[simp] theorem State.wr_sweep (f : Fld) (v : Nat) : (s.wr f v).sweep = s.sweep := rfl
@[simp] theorem State.wr_frDone (f : Fld) (v : Nat) : (s.wr f v).frDone = s.frDone := rfl
@[simp] theorem State.wr_qbv (f : Fld) (v : Nat) : (s.wr f v).qbv = s.qbv := rfl
@[simp] theorem State.wr_ethTurn (f : Fld) (v : Nat) : (s.wr f v).ethTurn = s.ethTurn := rfl
@[simp] theorem State.wr_ethOut (f : Fld) (v : Nat) : (s.wr f v).ethOut = s.ethOut := rfl
@[simp] theorem State.wr_canOut (f : Fld) (v : Nat) : (s.wr f v).canOut = s.canOut := rfl
@[simp] theorem State.wr_canRecover (f : Fld) (v : Nat) : (s.wr f v).canRecover = s.canRecover := rfl
@[simp] theorem State.wr_csis (f : Fld) (v : Nat) : (s.wr f v).csis = s.csis := rfl
@[simp] theorem State.wr_sers (f : Fld) (v : Nat) : (s.wr f v).sers = s.sers := rfl
@[simp] theorem State.wr_serOut (f : Fld) (v : Nat) : (s.wr f v).serOut = s.serOut := rfl
@[simp] theorem State.wr_scTx (f : Fld) (v : Nat) : (s.wr f v).scTx = s.scTx := rfl
@[simp] theorem State.wr_sfTime (f : Fld) (v : Nat) : (s.wr f v).sfTime = s.sfTime := rfl
@[simp] theorem State.wr_exitKey (f : Fld) (v : Nat) : (s.wr f v).exitKey = s.exitKey := rfl
@[simp] theorem State.wr_islandHalted (f : Fld) (v : Nat) : (s.wr f v).islandHalted = s.islandHalted := rfl
@[simp] theorem State.wr_safeInHigh (f : Fld) (v : Nat) : (s.wr f v).safeInHigh = s.safeInHigh := rfl
@[simp] theorem State.wr_wdOn (f : Fld) (v : Nat) : (s.wr f v).wdOn = s.wdOn := rfl
@[simp] theorem State.wr_wdKicked (f : Fld) (v : Nat) : (s.wr f v).wdKicked = s.wdKicked := rfl
@[simp] theorem State.wr_wdAt (f : Fld) (v : Nat) : (s.wr f v).wdAt = s.wdAt := rfl
@[simp] theorem State.wr_wdNext (f : Fld) (v : Nat) : (s.wr f v).wdNext = s.wdNext := rfl
@[simp] theorem State.wr_stoPulse (f : Fld) (v : Nat) : (s.wr f v).stoPulse = s.stoPulse := rfl
@[simp] theorem State.wr_stoLast (f : Fld) (v : Nat) : (s.wr f v).stoLast = s.stoLast := rfl
@[simp] theorem State.wr_scs (f : Fld) (v : Nat) : (s.wr f v).scs = s.scs := rfl
@[simp] theorem State.wr_boot (f : Fld) (v : Nat) : (s.wr f v).boot = s.boot := rfl
@[simp] theorem State.wr_zeroing (f : Fld) (v : Nat) : (s.wr f v).zeroing = s.zeroing := rfl

@[simp] theorem State.report_pending (src detail : Nat) : (s.report src detail).pending = s.pending := rfl
@[simp] theorem State.report_regs (src detail : Nat) : (s.report src detail).regs = s.regs := rfl
@[simp] theorem State.report_mem (src detail : Nat) : (s.report src detail).mem = s.mem := rfl
@[simp] theorem State.report_unknown (src detail : Nat) : (s.report src detail).unknown = s.unknown := rfl
@[simp] theorem State.report_lostPages (src detail : Nat) : (s.report src detail).lostPages = s.lostPages := rfl
@[simp] theorem State.report_ecc (src detail : Nat) : (s.report src detail).ecc = s.ecc := rfl
@[simp] theorem State.report_wb (src detail : Nat) : (s.report src detail).wb = s.wb := rfl
@[simp] theorem State.report_resv (src detail : Nat) : (s.report src detail).resv = s.resv := rfl
@[simp] theorem State.report_scrub (src detail : Nat) : (s.report src detail).scrub = s.scrub := rfl
@[simp] theorem State.report_answer (src detail : Nat) : (s.report src detail).answer = s.answer := rfl
@[simp] theorem State.report_replies (src detail : Nat) : (s.report src detail).replies = s.replies := rfl
@[simp] theorem State.report_outst (src detail : Nat) : (s.report src detail).outst = s.outst := rfl
@[simp] theorem State.report_tagHold (src detail : Nat) : (s.report src detail).tagHold = s.tagHold := rfl
@[simp] theorem State.report_acks (src detail : Nat) : (s.report src detail).acks = s.acks := rfl
@[simp] theorem State.report_nextTag (src detail : Nat) : (s.report src detail).nextTag = s.nextTag := rfl
@[simp] theorem State.report_hostOut (src detail : Nat) : (s.report src detail).hostOut = s.hostOut := rfl
@[simp] theorem State.report_msgs (src detail : Nat) : (s.report src detail).msgs = s.msgs := rfl
@[simp] theorem State.report_postAns (src detail : Nat) : (s.report src detail).postAns = s.postAns := rfl
@[simp] theorem State.report_zlr (src detail : Nat) : (s.report src detail).zlr = s.zlr := rfl
@[simp] theorem State.report_islandIrq (src detail : Nat) : (s.report src detail).islandIrq = s.islandIrq := rfl
@[simp] theorem State.report_aligned (src detail : Nat) : (s.report src detail).aligned = s.aligned := rfl
@[simp] theorem State.report_sysrst (src detail : Nat) : (s.report src detail).sysrst = s.sysrst := rfl
@[simp] theorem State.report_now (src detail : Nat) : (s.report src detail).now = s.now := rfl
@[simp] theorem State.report_sysAcc (src detail : Nat) : (s.report src detail).sysAcc = s.sysAcc := rfl
@[simp] theorem State.report_units (src detail : Nat) : (s.report src detail).units = s.units := rfl
@[simp] theorem State.report_fw (src detail : Nat) : (s.report src detail).fw = s.fw := rfl
@[simp] theorem State.report_fwArmed (src detail : Nat) : (s.report src detail).fwArmed = s.fwArmed := rfl
@[simp] theorem State.report_fwLocked (src detail : Nat) : (s.report src detail).fwLocked = s.fwLocked := rfl
@[simp] theorem State.report_ctxs (src detail : Nat) : (s.report src detail).ctxs = s.ctxs := rfl
@[simp] theorem State.report_errHeld (src detail : Nat) : (s.report src detail).errHeld = s.errHeld := rfl
@[simp] theorem State.report_rowStage (src detail : Nat) : (s.report src detail).rowStage = s.rowStage := rfl
@[simp] theorem State.report_drones (src detail : Nat) : (s.report src detail).drones = s.drones := rfl
@[simp] theorem State.report_events (src detail : Nat) : (s.report src detail).events = s.events := rfl
@[simp] theorem State.report_latchUnread (src detail : Nat) : (s.report src detail).latchUnread = s.latchUnread := rfl
@[simp] theorem State.report_latchJobs (src detail : Nat) : (s.report src detail).latchJobs = s.latchJobs := rfl
@[simp] theorem State.report_freeCtr (src detail : Nat) : (s.report src detail).freeCtr = s.freeCtr := rfl
@[simp] theorem State.report_meas (src detail : Nat) : (s.report src detail).meas = s.meas := rfl
@[simp] theorem State.report_reed (src detail : Nat) : (s.report src detail).reed = s.reed := rfl
@[simp] theorem State.report_qstat (src detail : Nat) : (s.report src detail).qstat = s.qstat := rfl
@[simp] theorem State.report_tokWait (src detail : Nat) : (s.report src detail).tokWait = s.tokWait := rfl
@[simp] theorem State.report_opChange (src detail : Nat) : (s.report src detail).opChange = s.opChange := rfl
@[simp] theorem State.report_vid (src detail : Nat) : (s.report src detail).vid = s.vid := rfl
@[simp] theorem State.report_vok (src detail : Nat) : (s.report src detail).vok = s.vok := rfl
@[simp] theorem State.report_vidChanged (src detail : Nat) : (s.report src detail).vidChanged = s.vidChanged := rfl
@[simp] theorem State.report_sensAge (src detail : Nat) : (s.report src detail).sensAge = s.sensAge := rfl
@[simp] theorem State.report_shutRun (src detail : Nat) : (s.report src detail).shutRun = s.shutRun := rfl
@[simp] theorem State.report_opSince (src detail : Nat) : (s.report src detail).opSince = s.opSince := rfl
@[simp] theorem State.report_used (src detail : Nat) : (s.report src detail).used = s.used := rfl
@[simp] theorem State.report_step (src detail : Nat) : (s.report src detail).step = s.step := rfl
@[simp] theorem State.report_stepStage (src detail : Nat) : (s.report src detail).stepStage = s.stepStage := rfl
@[simp] theorem State.report_genJob (src detail : Nat) : (s.report src detail).genJob = s.genJob := rfl
@[simp] theorem State.report_sigs (src detail : Nat) : (s.report src detail).sigs = s.sigs := rfl
@[simp] theorem State.report_sigsIn (src detail : Nat) : (s.report src detail).sigsIn = s.sigsIn := rfl
@[simp] theorem State.report_lsStepHi (src detail : Nat) : (s.report src detail).lsStepHi = s.lsStepHi := rfl
@[simp] theorem State.report_lsDead (src detail : Nat) : (s.report src detail).lsDead = s.lsDead := rfl
@[simp] theorem State.report_joinFp (src detail : Nat) : (s.report src detail).joinFp = s.joinFp := rfl
@[simp] theorem State.report_tiles (src detail : Nat) : (s.report src detail).tiles = s.tiles := rfl
@[simp] theorem State.report_axes (src detail : Nat) : (s.report src detail).axes = s.axes := rfl
@[simp] theorem State.report_sds (src detail : Nat) : (s.report src detail).sds = s.sds := rfl
@[simp] theorem State.report_slots (src detail : Nat) : (s.report src detail).slots = s.slots := rfl
@[simp] theorem State.report_sps (src detail : Nat) : (s.report src detail).sps = s.sps := rfl
@[simp] theorem State.report_injs (src detail : Nat) : (s.report src detail).injs = s.injs := rfl
@[simp] theorem State.report_caps (src detail : Nat) : (s.report src detail).caps = s.caps := rfl
@[simp] theorem State.report_lanes (src detail : Nat) : (s.report src detail).lanes = s.lanes := rfl
@[simp] theorem State.report_chnRuns (src detail : Nat) : (s.report src detail).chnRuns = s.chnRuns := rfl
@[simp] theorem State.report_cwqSel (src detail : Nat) : (s.report src detail).cwqSel = s.cwqSel := rfl
@[simp] theorem State.report_pcms (src detail : Nat) : (s.report src detail).pcms = s.pcms := rfl
@[simp] theorem State.report_pcs (src detail : Nat) : (s.report src detail).pcs = s.pcs := rfl
@[simp] theorem State.report_lls (src detail : Nat) : (s.report src detail).lls = s.lls := rfl
@[simp] theorem State.report_lchs (src detail : Nat) : (s.report src detail).lchs = s.lchs := rfl
@[simp] theorem State.report_fes (src detail : Nat) : (s.report src detail).fes = s.fes := rfl
@[simp] theorem State.report_fioLv (src detail : Nat) : (s.report src detail).fioLv = s.fioLv := rfl
@[simp] theorem State.report_ras (src detail : Nat) : (s.report src detail).ras = s.ras := rfl
@[simp] theorem State.report_sqs (src detail : Nat) : (s.report src detail).sqs = s.sqs := rfl
@[simp] theorem State.report_cqs (src detail : Nat) : (s.report src detail).cqs = s.cqs := rfl
@[simp] theorem State.report_dbVals (src detail : Nat) : (s.report src detail).dbVals = s.dbVals := rfl
@[simp] theorem State.report_msix (src detail : Nat) : (s.report src detail).msix = s.msix := rfl
@[simp] theorem State.report_msixPend (src detail : Nat) : (s.report src detail).msixPend = s.msixPend := rfl
@[simp] theorem State.report_coreIrq (src detail : Nat) : (s.report src detail).coreIrq = s.coreIrq := rfl
@[simp] theorem State.report_pcieUp (src detail : Nat) : (s.report src detail).pcieUp = s.pcieUp := rfl
@[simp] theorem State.report_d3hot (src detail : Nat) : (s.report src detail).d3hot = s.d3hot := rfl
@[simp] theorem State.report_ports (src detail : Nat) : (s.report src detail).ports = s.ports := rfl
@[simp] theorem State.report_tokOut (src detail : Nat) : (s.report src detail).tokOut = s.tokOut := rfl
@[simp] theorem State.report_fwmsgs (src detail : Nat) : (s.report src detail).fwmsgs = s.fwmsgs := rfl
@[simp] theorem State.report_badMsg (src detail : Nat) : (s.report src detail).badMsg = s.badMsg := rfl
@[simp] theorem State.report_leaderAt (src detail : Nat) : (s.report src detail).leaderAt = s.leaderAt := rfl
@[simp] theorem State.report_sweep (src detail : Nat) : (s.report src detail).sweep = s.sweep := rfl
@[simp] theorem State.report_frDone (src detail : Nat) : (s.report src detail).frDone = s.frDone := rfl
@[simp] theorem State.report_qbv (src detail : Nat) : (s.report src detail).qbv = s.qbv := rfl
@[simp] theorem State.report_ethTurn (src detail : Nat) : (s.report src detail).ethTurn = s.ethTurn := rfl
@[simp] theorem State.report_ethOut (src detail : Nat) : (s.report src detail).ethOut = s.ethOut := rfl
@[simp] theorem State.report_canOut (src detail : Nat) : (s.report src detail).canOut = s.canOut := rfl
@[simp] theorem State.report_canRecover (src detail : Nat) : (s.report src detail).canRecover = s.canRecover := rfl
@[simp] theorem State.report_csis (src detail : Nat) : (s.report src detail).csis = s.csis := rfl
@[simp] theorem State.report_sers (src detail : Nat) : (s.report src detail).sers = s.sers := rfl
@[simp] theorem State.report_serOut (src detail : Nat) : (s.report src detail).serOut = s.serOut := rfl
@[simp] theorem State.report_scTx (src detail : Nat) : (s.report src detail).scTx = s.scTx := rfl
@[simp] theorem State.report_sfTime (src detail : Nat) : (s.report src detail).sfTime = s.sfTime := rfl
@[simp] theorem State.report_exitKey (src detail : Nat) : (s.report src detail).exitKey = s.exitKey := rfl
@[simp] theorem State.report_islandHalted (src detail : Nat) : (s.report src detail).islandHalted = s.islandHalted := rfl
@[simp] theorem State.report_safeInHigh (src detail : Nat) : (s.report src detail).safeInHigh = s.safeInHigh := rfl
@[simp] theorem State.report_wdOn (src detail : Nat) : (s.report src detail).wdOn = s.wdOn := rfl
@[simp] theorem State.report_wdKicked (src detail : Nat) : (s.report src detail).wdKicked = s.wdKicked := rfl
@[simp] theorem State.report_wdAt (src detail : Nat) : (s.report src detail).wdAt = s.wdAt := rfl
@[simp] theorem State.report_wdNext (src detail : Nat) : (s.report src detail).wdNext = s.wdNext := rfl
@[simp] theorem State.report_stoPulse (src detail : Nat) : (s.report src detail).stoPulse = s.stoPulse := rfl
@[simp] theorem State.report_stoLast (src detail : Nat) : (s.report src detail).stoLast = s.stoLast := rfl
@[simp] theorem State.report_scs (src detail : Nat) : (s.report src detail).scs = s.scs := rfl
@[simp] theorem State.report_boot (src detail : Nat) : (s.report src detail).boot = s.boot := rfl
@[simp] theorem State.report_zeroing (src detail : Nat) : (s.report src detail).zeroing = s.zeroing := rfl

@[simp] theorem State.drawn_pending : s.drawn.pending = s.pending := rfl
@[simp] theorem State.drawn_regs : s.drawn.regs = s.regs := rfl
@[simp] theorem State.drawn_mem : s.drawn.mem = s.mem := rfl
@[simp] theorem State.drawn_unknown : s.drawn.unknown = s.unknown := rfl
@[simp] theorem State.drawn_lostPages : s.drawn.lostPages = s.lostPages := rfl
@[simp] theorem State.drawn_ecc : s.drawn.ecc = s.ecc := rfl
@[simp] theorem State.drawn_wb : s.drawn.wb = s.wb := rfl
@[simp] theorem State.drawn_resv : s.drawn.resv = s.resv := rfl
@[simp] theorem State.drawn_scrub : s.drawn.scrub = s.scrub := rfl
@[simp] theorem State.drawn_answer : s.drawn.answer = s.answer := rfl
@[simp] theorem State.drawn_replies : s.drawn.replies = s.replies := rfl
@[simp] theorem State.drawn_outst : s.drawn.outst = s.outst := rfl
@[simp] theorem State.drawn_tagHold : s.drawn.tagHold = s.tagHold := rfl
@[simp] theorem State.drawn_acks : s.drawn.acks = s.acks := rfl
@[simp] theorem State.drawn_nextTag : s.drawn.nextTag = s.nextTag := rfl
@[simp] theorem State.drawn_hostOut : s.drawn.hostOut = s.hostOut := rfl
@[simp] theorem State.drawn_msgs : s.drawn.msgs = s.msgs := rfl
@[simp] theorem State.drawn_postAns : s.drawn.postAns = s.postAns := rfl
@[simp] theorem State.drawn_zlr : s.drawn.zlr = s.zlr := rfl
@[simp] theorem State.drawn_reports : s.drawn.reports = s.reports := rfl
@[simp] theorem State.drawn_islandIrq : s.drawn.islandIrq = s.islandIrq := rfl
@[simp] theorem State.drawn_aligned : s.drawn.aligned = s.aligned := rfl
@[simp] theorem State.drawn_sysrst : s.drawn.sysrst = s.sysrst := rfl
@[simp] theorem State.drawn_now : s.drawn.now = s.now := rfl
@[simp] theorem State.drawn_sysAcc : s.drawn.sysAcc = s.sysAcc := rfl
@[simp] theorem State.drawn_units : s.drawn.units = s.units := rfl
@[simp] theorem State.drawn_fw : s.drawn.fw = s.fw := rfl
@[simp] theorem State.drawn_fwArmed : s.drawn.fwArmed = s.fwArmed := rfl
@[simp] theorem State.drawn_fwLocked : s.drawn.fwLocked = s.fwLocked := rfl
@[simp] theorem State.drawn_ctxs : s.drawn.ctxs = s.ctxs := rfl
@[simp] theorem State.drawn_errHeld : s.drawn.errHeld = s.errHeld := rfl
@[simp] theorem State.drawn_rowStage : s.drawn.rowStage = s.rowStage := rfl
@[simp] theorem State.drawn_drones : s.drawn.drones = s.drones := rfl
@[simp] theorem State.drawn_events : s.drawn.events = s.events := rfl
@[simp] theorem State.drawn_latchUnread : s.drawn.latchUnread = s.latchUnread := rfl
@[simp] theorem State.drawn_latchJobs : s.drawn.latchJobs = s.latchJobs := rfl
@[simp] theorem State.drawn_meas : s.drawn.meas = s.meas := rfl
@[simp] theorem State.drawn_reed : s.drawn.reed = s.reed := rfl
@[simp] theorem State.drawn_qstat : s.drawn.qstat = s.qstat := rfl
@[simp] theorem State.drawn_tokWait : s.drawn.tokWait = s.tokWait := rfl
@[simp] theorem State.drawn_opChange : s.drawn.opChange = s.opChange := rfl
@[simp] theorem State.drawn_vid : s.drawn.vid = s.vid := rfl
@[simp] theorem State.drawn_vok : s.drawn.vok = s.vok := rfl
@[simp] theorem State.drawn_vidChanged : s.drawn.vidChanged = s.vidChanged := rfl
@[simp] theorem State.drawn_sensAge : s.drawn.sensAge = s.sensAge := rfl
@[simp] theorem State.drawn_shutRun : s.drawn.shutRun = s.shutRun := rfl
@[simp] theorem State.drawn_opSince : s.drawn.opSince = s.opSince := rfl
@[simp] theorem State.drawn_used : s.drawn.used = s.used := rfl
@[simp] theorem State.drawn_step : s.drawn.step = s.step := rfl
@[simp] theorem State.drawn_stepStage : s.drawn.stepStage = s.stepStage := rfl
@[simp] theorem State.drawn_genJob : s.drawn.genJob = s.genJob := rfl
@[simp] theorem State.drawn_sigs : s.drawn.sigs = s.sigs := rfl
@[simp] theorem State.drawn_sigsIn : s.drawn.sigsIn = s.sigsIn := rfl
@[simp] theorem State.drawn_lsStepHi : s.drawn.lsStepHi = s.lsStepHi := rfl
@[simp] theorem State.drawn_lsDead : s.drawn.lsDead = s.lsDead := rfl
@[simp] theorem State.drawn_joinFp : s.drawn.joinFp = s.joinFp := rfl
@[simp] theorem State.drawn_tiles : s.drawn.tiles = s.tiles := rfl
@[simp] theorem State.drawn_axes : s.drawn.axes = s.axes := rfl
@[simp] theorem State.drawn_sds : s.drawn.sds = s.sds := rfl
@[simp] theorem State.drawn_slots : s.drawn.slots = s.slots := rfl
@[simp] theorem State.drawn_sps : s.drawn.sps = s.sps := rfl
@[simp] theorem State.drawn_injs : s.drawn.injs = s.injs := rfl
@[simp] theorem State.drawn_caps : s.drawn.caps = s.caps := rfl
@[simp] theorem State.drawn_lanes : s.drawn.lanes = s.lanes := rfl
@[simp] theorem State.drawn_chnRuns : s.drawn.chnRuns = s.chnRuns := rfl
@[simp] theorem State.drawn_cwqSel : s.drawn.cwqSel = s.cwqSel := rfl
@[simp] theorem State.drawn_pcms : s.drawn.pcms = s.pcms := rfl
@[simp] theorem State.drawn_pcs : s.drawn.pcs = s.pcs := rfl
@[simp] theorem State.drawn_lls : s.drawn.lls = s.lls := rfl
@[simp] theorem State.drawn_lchs : s.drawn.lchs = s.lchs := rfl
@[simp] theorem State.drawn_fes : s.drawn.fes = s.fes := rfl
@[simp] theorem State.drawn_fioLv : s.drawn.fioLv = s.fioLv := rfl
@[simp] theorem State.drawn_ras : s.drawn.ras = s.ras := rfl
@[simp] theorem State.drawn_sqs : s.drawn.sqs = s.sqs := rfl
@[simp] theorem State.drawn_cqs : s.drawn.cqs = s.cqs := rfl
@[simp] theorem State.drawn_dbVals : s.drawn.dbVals = s.dbVals := rfl
@[simp] theorem State.drawn_msix : s.drawn.msix = s.msix := rfl
@[simp] theorem State.drawn_msixPend : s.drawn.msixPend = s.msixPend := rfl
@[simp] theorem State.drawn_coreIrq : s.drawn.coreIrq = s.coreIrq := rfl
@[simp] theorem State.drawn_pcieUp : s.drawn.pcieUp = s.pcieUp := rfl
@[simp] theorem State.drawn_d3hot : s.drawn.d3hot = s.d3hot := rfl
@[simp] theorem State.drawn_ports : s.drawn.ports = s.ports := rfl
@[simp] theorem State.drawn_tokOut : s.drawn.tokOut = s.tokOut := rfl
@[simp] theorem State.drawn_fwmsgs : s.drawn.fwmsgs = s.fwmsgs := rfl
@[simp] theorem State.drawn_badMsg : s.drawn.badMsg = s.badMsg := rfl
@[simp] theorem State.drawn_leaderAt : s.drawn.leaderAt = s.leaderAt := rfl
@[simp] theorem State.drawn_sweep : s.drawn.sweep = s.sweep := rfl
@[simp] theorem State.drawn_frDone : s.drawn.frDone = s.frDone := rfl
@[simp] theorem State.drawn_qbv : s.drawn.qbv = s.qbv := rfl
@[simp] theorem State.drawn_ethTurn : s.drawn.ethTurn = s.ethTurn := rfl
@[simp] theorem State.drawn_ethOut : s.drawn.ethOut = s.ethOut := rfl
@[simp] theorem State.drawn_canOut : s.drawn.canOut = s.canOut := rfl
@[simp] theorem State.drawn_canRecover : s.drawn.canRecover = s.canRecover := rfl
@[simp] theorem State.drawn_csis : s.drawn.csis = s.csis := rfl
@[simp] theorem State.drawn_sers : s.drawn.sers = s.sers := rfl
@[simp] theorem State.drawn_serOut : s.drawn.serOut = s.serOut := rfl
@[simp] theorem State.drawn_scTx : s.drawn.scTx = s.scTx := rfl
@[simp] theorem State.drawn_sfTime : s.drawn.sfTime = s.sfTime := rfl
@[simp] theorem State.drawn_exitKey : s.drawn.exitKey = s.exitKey := rfl
@[simp] theorem State.drawn_islandHalted : s.drawn.islandHalted = s.islandHalted := rfl
@[simp] theorem State.drawn_safeInHigh : s.drawn.safeInHigh = s.safeInHigh := rfl
@[simp] theorem State.drawn_wdOn : s.drawn.wdOn = s.wdOn := rfl
@[simp] theorem State.drawn_wdKicked : s.drawn.wdKicked = s.wdKicked := rfl
@[simp] theorem State.drawn_wdAt : s.drawn.wdAt = s.wdAt := rfl
@[simp] theorem State.drawn_wdNext : s.drawn.wdNext = s.wdNext := rfl
@[simp] theorem State.drawn_stoPulse : s.drawn.stoPulse = s.stoPulse := rfl
@[simp] theorem State.drawn_stoLast : s.drawn.stoLast = s.stoLast := rfl
@[simp] theorem State.drawn_scs : s.drawn.scs = s.scs := rfl
@[simp] theorem State.drawn_boot : s.drawn.boot = s.boot := rfl
@[simp] theorem State.drawn_zeroing : s.drawn.zeroing = s.zeroing := rfl

@[simp] theorem State.sendFrom_pending (m src : Nat) : (s.sendFrom m src).pending = s.pending := rfl
@[simp] theorem State.sendFrom_regs (m src : Nat) : (s.sendFrom m src).regs = s.regs := rfl
@[simp] theorem State.sendFrom_mem (m src : Nat) : (s.sendFrom m src).mem = s.mem := rfl
@[simp] theorem State.sendFrom_unknown (m src : Nat) : (s.sendFrom m src).unknown = s.unknown := rfl
@[simp] theorem State.sendFrom_lostPages (m src : Nat) : (s.sendFrom m src).lostPages = s.lostPages := rfl
@[simp] theorem State.sendFrom_ecc (m src : Nat) : (s.sendFrom m src).ecc = s.ecc := rfl
@[simp] theorem State.sendFrom_wb (m src : Nat) : (s.sendFrom m src).wb = s.wb := rfl
@[simp] theorem State.sendFrom_resv (m src : Nat) : (s.sendFrom m src).resv = s.resv := rfl
@[simp] theorem State.sendFrom_scrub (m src : Nat) : (s.sendFrom m src).scrub = s.scrub := rfl
@[simp] theorem State.sendFrom_answer (m src : Nat) : (s.sendFrom m src).answer = s.answer := rfl
@[simp] theorem State.sendFrom_replies (m src : Nat) : (s.sendFrom m src).replies = s.replies := rfl
@[simp] theorem State.sendFrom_outst (m src : Nat) : (s.sendFrom m src).outst = s.outst := rfl
@[simp] theorem State.sendFrom_tagHold (m src : Nat) : (s.sendFrom m src).tagHold = s.tagHold := rfl
@[simp] theorem State.sendFrom_acks (m src : Nat) : (s.sendFrom m src).acks = s.acks := rfl
@[simp] theorem State.sendFrom_nextTag (m src : Nat) : (s.sendFrom m src).nextTag = s.nextTag := rfl
@[simp] theorem State.sendFrom_hostOut (m src : Nat) : (s.sendFrom m src).hostOut = s.hostOut := rfl
@[simp] theorem State.sendFrom_postAns (m src : Nat) : (s.sendFrom m src).postAns = s.postAns := rfl
@[simp] theorem State.sendFrom_zlr (m src : Nat) : (s.sendFrom m src).zlr = s.zlr := rfl
@[simp] theorem State.sendFrom_reports (m src : Nat) : (s.sendFrom m src).reports = s.reports := rfl
@[simp] theorem State.sendFrom_islandIrq (m src : Nat) : (s.sendFrom m src).islandIrq = s.islandIrq := rfl
@[simp] theorem State.sendFrom_aligned (m src : Nat) : (s.sendFrom m src).aligned = s.aligned := rfl
@[simp] theorem State.sendFrom_sysrst (m src : Nat) : (s.sendFrom m src).sysrst = s.sysrst := rfl
@[simp] theorem State.sendFrom_now (m src : Nat) : (s.sendFrom m src).now = s.now := rfl
@[simp] theorem State.sendFrom_sysAcc (m src : Nat) : (s.sendFrom m src).sysAcc = s.sysAcc := rfl
@[simp] theorem State.sendFrom_units (m src : Nat) : (s.sendFrom m src).units = s.units := rfl
@[simp] theorem State.sendFrom_fw (m src : Nat) : (s.sendFrom m src).fw = s.fw := rfl
@[simp] theorem State.sendFrom_fwArmed (m src : Nat) : (s.sendFrom m src).fwArmed = s.fwArmed := rfl
@[simp] theorem State.sendFrom_fwLocked (m src : Nat) : (s.sendFrom m src).fwLocked = s.fwLocked := rfl
@[simp] theorem State.sendFrom_ctxs (m src : Nat) : (s.sendFrom m src).ctxs = s.ctxs := rfl
@[simp] theorem State.sendFrom_errHeld (m src : Nat) : (s.sendFrom m src).errHeld = s.errHeld := rfl
@[simp] theorem State.sendFrom_rowStage (m src : Nat) : (s.sendFrom m src).rowStage = s.rowStage := rfl
@[simp] theorem State.sendFrom_drones (m src : Nat) : (s.sendFrom m src).drones = s.drones := rfl
@[simp] theorem State.sendFrom_events (m src : Nat) : (s.sendFrom m src).events = s.events := rfl
@[simp] theorem State.sendFrom_latchUnread (m src : Nat) : (s.sendFrom m src).latchUnread = s.latchUnread := rfl
@[simp] theorem State.sendFrom_latchJobs (m src : Nat) : (s.sendFrom m src).latchJobs = s.latchJobs := rfl
@[simp] theorem State.sendFrom_freeCtr (m src : Nat) : (s.sendFrom m src).freeCtr = s.freeCtr := rfl
@[simp] theorem State.sendFrom_meas (m src : Nat) : (s.sendFrom m src).meas = s.meas := rfl
@[simp] theorem State.sendFrom_reed (m src : Nat) : (s.sendFrom m src).reed = s.reed := rfl
@[simp] theorem State.sendFrom_qstat (m src : Nat) : (s.sendFrom m src).qstat = s.qstat := rfl
@[simp] theorem State.sendFrom_tokWait (m src : Nat) : (s.sendFrom m src).tokWait = s.tokWait := rfl
@[simp] theorem State.sendFrom_opChange (m src : Nat) : (s.sendFrom m src).opChange = s.opChange := rfl
@[simp] theorem State.sendFrom_vid (m src : Nat) : (s.sendFrom m src).vid = s.vid := rfl
@[simp] theorem State.sendFrom_vok (m src : Nat) : (s.sendFrom m src).vok = s.vok := rfl
@[simp] theorem State.sendFrom_vidChanged (m src : Nat) : (s.sendFrom m src).vidChanged = s.vidChanged := rfl
@[simp] theorem State.sendFrom_sensAge (m src : Nat) : (s.sendFrom m src).sensAge = s.sensAge := rfl
@[simp] theorem State.sendFrom_shutRun (m src : Nat) : (s.sendFrom m src).shutRun = s.shutRun := rfl
@[simp] theorem State.sendFrom_opSince (m src : Nat) : (s.sendFrom m src).opSince = s.opSince := rfl
@[simp] theorem State.sendFrom_used (m src : Nat) : (s.sendFrom m src).used = s.used := rfl
@[simp] theorem State.sendFrom_step (m src : Nat) : (s.sendFrom m src).step = s.step := rfl
@[simp] theorem State.sendFrom_stepStage (m src : Nat) : (s.sendFrom m src).stepStage = s.stepStage := rfl
@[simp] theorem State.sendFrom_genJob (m src : Nat) : (s.sendFrom m src).genJob = s.genJob := rfl
@[simp] theorem State.sendFrom_sigs (m src : Nat) : (s.sendFrom m src).sigs = s.sigs := rfl
@[simp] theorem State.sendFrom_sigsIn (m src : Nat) : (s.sendFrom m src).sigsIn = s.sigsIn := rfl
@[simp] theorem State.sendFrom_lsStepHi (m src : Nat) : (s.sendFrom m src).lsStepHi = s.lsStepHi := rfl
@[simp] theorem State.sendFrom_lsDead (m src : Nat) : (s.sendFrom m src).lsDead = s.lsDead := rfl
@[simp] theorem State.sendFrom_joinFp (m src : Nat) : (s.sendFrom m src).joinFp = s.joinFp := rfl
@[simp] theorem State.sendFrom_tiles (m src : Nat) : (s.sendFrom m src).tiles = s.tiles := rfl
@[simp] theorem State.sendFrom_axes (m src : Nat) : (s.sendFrom m src).axes = s.axes := rfl
@[simp] theorem State.sendFrom_sds (m src : Nat) : (s.sendFrom m src).sds = s.sds := rfl
@[simp] theorem State.sendFrom_slots (m src : Nat) : (s.sendFrom m src).slots = s.slots := rfl
@[simp] theorem State.sendFrom_sps (m src : Nat) : (s.sendFrom m src).sps = s.sps := rfl
@[simp] theorem State.sendFrom_injs (m src : Nat) : (s.sendFrom m src).injs = s.injs := rfl
@[simp] theorem State.sendFrom_caps (m src : Nat) : (s.sendFrom m src).caps = s.caps := rfl
@[simp] theorem State.sendFrom_lanes (m src : Nat) : (s.sendFrom m src).lanes = s.lanes := rfl
@[simp] theorem State.sendFrom_chnRuns (m src : Nat) : (s.sendFrom m src).chnRuns = s.chnRuns := rfl
@[simp] theorem State.sendFrom_cwqSel (m src : Nat) : (s.sendFrom m src).cwqSel = s.cwqSel := rfl
@[simp] theorem State.sendFrom_pcms (m src : Nat) : (s.sendFrom m src).pcms = s.pcms := rfl
@[simp] theorem State.sendFrom_pcs (m src : Nat) : (s.sendFrom m src).pcs = s.pcs := rfl
@[simp] theorem State.sendFrom_lls (m src : Nat) : (s.sendFrom m src).lls = s.lls := rfl
@[simp] theorem State.sendFrom_lchs (m src : Nat) : (s.sendFrom m src).lchs = s.lchs := rfl
@[simp] theorem State.sendFrom_fes (m src : Nat) : (s.sendFrom m src).fes = s.fes := rfl
@[simp] theorem State.sendFrom_fioLv (m src : Nat) : (s.sendFrom m src).fioLv = s.fioLv := rfl
@[simp] theorem State.sendFrom_ras (m src : Nat) : (s.sendFrom m src).ras = s.ras := rfl
@[simp] theorem State.sendFrom_sqs (m src : Nat) : (s.sendFrom m src).sqs = s.sqs := rfl
@[simp] theorem State.sendFrom_cqs (m src : Nat) : (s.sendFrom m src).cqs = s.cqs := rfl
@[simp] theorem State.sendFrom_dbVals (m src : Nat) : (s.sendFrom m src).dbVals = s.dbVals := rfl
@[simp] theorem State.sendFrom_msix (m src : Nat) : (s.sendFrom m src).msix = s.msix := rfl
@[simp] theorem State.sendFrom_msixPend (m src : Nat) : (s.sendFrom m src).msixPend = s.msixPend := rfl
@[simp] theorem State.sendFrom_coreIrq (m src : Nat) : (s.sendFrom m src).coreIrq = s.coreIrq := rfl
@[simp] theorem State.sendFrom_pcieUp (m src : Nat) : (s.sendFrom m src).pcieUp = s.pcieUp := rfl
@[simp] theorem State.sendFrom_d3hot (m src : Nat) : (s.sendFrom m src).d3hot = s.d3hot := rfl
@[simp] theorem State.sendFrom_ports (m src : Nat) : (s.sendFrom m src).ports = s.ports := rfl
@[simp] theorem State.sendFrom_tokOut (m src : Nat) : (s.sendFrom m src).tokOut = s.tokOut := rfl
@[simp] theorem State.sendFrom_fwmsgs (m src : Nat) : (s.sendFrom m src).fwmsgs = s.fwmsgs := rfl
@[simp] theorem State.sendFrom_badMsg (m src : Nat) : (s.sendFrom m src).badMsg = s.badMsg := rfl
@[simp] theorem State.sendFrom_leaderAt (m src : Nat) : (s.sendFrom m src).leaderAt = s.leaderAt := rfl
@[simp] theorem State.sendFrom_sweep (m src : Nat) : (s.sendFrom m src).sweep = s.sweep := rfl
@[simp] theorem State.sendFrom_frDone (m src : Nat) : (s.sendFrom m src).frDone = s.frDone := rfl
@[simp] theorem State.sendFrom_qbv (m src : Nat) : (s.sendFrom m src).qbv = s.qbv := rfl
@[simp] theorem State.sendFrom_ethTurn (m src : Nat) : (s.sendFrom m src).ethTurn = s.ethTurn := rfl
@[simp] theorem State.sendFrom_ethOut (m src : Nat) : (s.sendFrom m src).ethOut = s.ethOut := rfl
@[simp] theorem State.sendFrom_canOut (m src : Nat) : (s.sendFrom m src).canOut = s.canOut := rfl
@[simp] theorem State.sendFrom_canRecover (m src : Nat) : (s.sendFrom m src).canRecover = s.canRecover := rfl
@[simp] theorem State.sendFrom_csis (m src : Nat) : (s.sendFrom m src).csis = s.csis := rfl
@[simp] theorem State.sendFrom_sers (m src : Nat) : (s.sendFrom m src).sers = s.sers := rfl
@[simp] theorem State.sendFrom_serOut (m src : Nat) : (s.sendFrom m src).serOut = s.serOut := rfl
@[simp] theorem State.sendFrom_scTx (m src : Nat) : (s.sendFrom m src).scTx = s.scTx := rfl
@[simp] theorem State.sendFrom_sfTime (m src : Nat) : (s.sendFrom m src).sfTime = s.sfTime := rfl
@[simp] theorem State.sendFrom_exitKey (m src : Nat) : (s.sendFrom m src).exitKey = s.exitKey := rfl
@[simp] theorem State.sendFrom_islandHalted (m src : Nat) : (s.sendFrom m src).islandHalted = s.islandHalted := rfl
@[simp] theorem State.sendFrom_safeInHigh (m src : Nat) : (s.sendFrom m src).safeInHigh = s.safeInHigh := rfl
@[simp] theorem State.sendFrom_wdOn (m src : Nat) : (s.sendFrom m src).wdOn = s.wdOn := rfl
@[simp] theorem State.sendFrom_wdKicked (m src : Nat) : (s.sendFrom m src).wdKicked = s.wdKicked := rfl
@[simp] theorem State.sendFrom_wdAt (m src : Nat) : (s.sendFrom m src).wdAt = s.wdAt := rfl
@[simp] theorem State.sendFrom_wdNext (m src : Nat) : (s.sendFrom m src).wdNext = s.wdNext := rfl
@[simp] theorem State.sendFrom_stoPulse (m src : Nat) : (s.sendFrom m src).stoPulse = s.stoPulse := rfl
@[simp] theorem State.sendFrom_stoLast (m src : Nat) : (s.sendFrom m src).stoLast = s.stoLast := rfl
@[simp] theorem State.sendFrom_scs (m src : Nat) : (s.sendFrom m src).scs = s.scs := rfl
@[simp] theorem State.sendFrom_boot (m src : Nat) : (s.sendFrom m src).boot = s.boot := rfl
@[simp] theorem State.sendFrom_zeroing (m src : Nat) : (s.sendFrom m src).zeroing = s.zeroing := rfl

@[simp] theorem State.answers_pending (st : Status) (v : Nat) (l : List Byte) : (s.answers st v l).pending = s.pending := rfl
@[simp] theorem State.answers_regs (st : Status) (v : Nat) (l : List Byte) : (s.answers st v l).regs = s.regs := rfl
@[simp] theorem State.answers_mem (st : Status) (v : Nat) (l : List Byte) : (s.answers st v l).mem = s.mem := rfl
@[simp] theorem State.answers_unknown (st : Status) (v : Nat) (l : List Byte) : (s.answers st v l).unknown = s.unknown := rfl
@[simp] theorem State.answers_lostPages (st : Status) (v : Nat) (l : List Byte) : (s.answers st v l).lostPages = s.lostPages := rfl
@[simp] theorem State.answers_ecc (st : Status) (v : Nat) (l : List Byte) : (s.answers st v l).ecc = s.ecc := rfl
@[simp] theorem State.answers_wb (st : Status) (v : Nat) (l : List Byte) : (s.answers st v l).wb = s.wb := rfl
@[simp] theorem State.answers_resv (st : Status) (v : Nat) (l : List Byte) : (s.answers st v l).resv = s.resv := rfl
@[simp] theorem State.answers_scrub (st : Status) (v : Nat) (l : List Byte) : (s.answers st v l).scrub = s.scrub := rfl
@[simp] theorem State.answers_replies (st : Status) (v : Nat) (l : List Byte) : (s.answers st v l).replies = s.replies := rfl
@[simp] theorem State.answers_outst (st : Status) (v : Nat) (l : List Byte) : (s.answers st v l).outst = s.outst := rfl
@[simp] theorem State.answers_tagHold (st : Status) (v : Nat) (l : List Byte) : (s.answers st v l).tagHold = s.tagHold := rfl
@[simp] theorem State.answers_acks (st : Status) (v : Nat) (l : List Byte) : (s.answers st v l).acks = s.acks := rfl
@[simp] theorem State.answers_nextTag (st : Status) (v : Nat) (l : List Byte) : (s.answers st v l).nextTag = s.nextTag := rfl
@[simp] theorem State.answers_hostOut (st : Status) (v : Nat) (l : List Byte) : (s.answers st v l).hostOut = s.hostOut := rfl
@[simp] theorem State.answers_msgs (st : Status) (v : Nat) (l : List Byte) : (s.answers st v l).msgs = s.msgs := rfl
@[simp] theorem State.answers_postAns (st : Status) (v : Nat) (l : List Byte) : (s.answers st v l).postAns = s.postAns := rfl
@[simp] theorem State.answers_zlr (st : Status) (v : Nat) (l : List Byte) : (s.answers st v l).zlr = s.zlr := rfl
@[simp] theorem State.answers_reports (st : Status) (v : Nat) (l : List Byte) : (s.answers st v l).reports = s.reports := rfl
@[simp] theorem State.answers_islandIrq (st : Status) (v : Nat) (l : List Byte) : (s.answers st v l).islandIrq = s.islandIrq := rfl
@[simp] theorem State.answers_aligned (st : Status) (v : Nat) (l : List Byte) : (s.answers st v l).aligned = s.aligned := rfl
@[simp] theorem State.answers_sysrst (st : Status) (v : Nat) (l : List Byte) : (s.answers st v l).sysrst = s.sysrst := rfl
@[simp] theorem State.answers_now (st : Status) (v : Nat) (l : List Byte) : (s.answers st v l).now = s.now := rfl
@[simp] theorem State.answers_sysAcc (st : Status) (v : Nat) (l : List Byte) : (s.answers st v l).sysAcc = s.sysAcc := rfl
@[simp] theorem State.answers_units (st : Status) (v : Nat) (l : List Byte) : (s.answers st v l).units = s.units := rfl
@[simp] theorem State.answers_fw (st : Status) (v : Nat) (l : List Byte) : (s.answers st v l).fw = s.fw := rfl
@[simp] theorem State.answers_fwArmed (st : Status) (v : Nat) (l : List Byte) : (s.answers st v l).fwArmed = s.fwArmed := rfl
@[simp] theorem State.answers_fwLocked (st : Status) (v : Nat) (l : List Byte) : (s.answers st v l).fwLocked = s.fwLocked := rfl
@[simp] theorem State.answers_ctxs (st : Status) (v : Nat) (l : List Byte) : (s.answers st v l).ctxs = s.ctxs := rfl
@[simp] theorem State.answers_errHeld (st : Status) (v : Nat) (l : List Byte) : (s.answers st v l).errHeld = s.errHeld := rfl
@[simp] theorem State.answers_rowStage (st : Status) (v : Nat) (l : List Byte) : (s.answers st v l).rowStage = s.rowStage := rfl
@[simp] theorem State.answers_drones (st : Status) (v : Nat) (l : List Byte) : (s.answers st v l).drones = s.drones := rfl
@[simp] theorem State.answers_events (st : Status) (v : Nat) (l : List Byte) : (s.answers st v l).events = s.events := rfl
@[simp] theorem State.answers_latchUnread (st : Status) (v : Nat) (l : List Byte) : (s.answers st v l).latchUnread = s.latchUnread := rfl
@[simp] theorem State.answers_latchJobs (st : Status) (v : Nat) (l : List Byte) : (s.answers st v l).latchJobs = s.latchJobs := rfl
@[simp] theorem State.answers_freeCtr (st : Status) (v : Nat) (l : List Byte) : (s.answers st v l).freeCtr = s.freeCtr := rfl
@[simp] theorem State.answers_meas (st : Status) (v : Nat) (l : List Byte) : (s.answers st v l).meas = s.meas := rfl
@[simp] theorem State.answers_reed (st : Status) (v : Nat) (l : List Byte) : (s.answers st v l).reed = s.reed := rfl
@[simp] theorem State.answers_qstat (st : Status) (v : Nat) (l : List Byte) : (s.answers st v l).qstat = s.qstat := rfl
@[simp] theorem State.answers_tokWait (st : Status) (v : Nat) (l : List Byte) : (s.answers st v l).tokWait = s.tokWait := rfl
@[simp] theorem State.answers_opChange (st : Status) (v : Nat) (l : List Byte) : (s.answers st v l).opChange = s.opChange := rfl
@[simp] theorem State.answers_vid (st : Status) (v : Nat) (l : List Byte) : (s.answers st v l).vid = s.vid := rfl
@[simp] theorem State.answers_vok (st : Status) (v : Nat) (l : List Byte) : (s.answers st v l).vok = s.vok := rfl
@[simp] theorem State.answers_vidChanged (st : Status) (v : Nat) (l : List Byte) : (s.answers st v l).vidChanged = s.vidChanged := rfl
@[simp] theorem State.answers_sensAge (st : Status) (v : Nat) (l : List Byte) : (s.answers st v l).sensAge = s.sensAge := rfl
@[simp] theorem State.answers_shutRun (st : Status) (v : Nat) (l : List Byte) : (s.answers st v l).shutRun = s.shutRun := rfl
@[simp] theorem State.answers_opSince (st : Status) (v : Nat) (l : List Byte) : (s.answers st v l).opSince = s.opSince := rfl
@[simp] theorem State.answers_used (st : Status) (v : Nat) (l : List Byte) : (s.answers st v l).used = s.used := rfl
@[simp] theorem State.answers_step (st : Status) (v : Nat) (l : List Byte) : (s.answers st v l).step = s.step := rfl
@[simp] theorem State.answers_stepStage (st : Status) (v : Nat) (l : List Byte) : (s.answers st v l).stepStage = s.stepStage := rfl
@[simp] theorem State.answers_genJob (st : Status) (v : Nat) (l : List Byte) : (s.answers st v l).genJob = s.genJob := rfl
@[simp] theorem State.answers_sigs (st : Status) (v : Nat) (l : List Byte) : (s.answers st v l).sigs = s.sigs := rfl
@[simp] theorem State.answers_sigsIn (st : Status) (v : Nat) (l : List Byte) : (s.answers st v l).sigsIn = s.sigsIn := rfl
@[simp] theorem State.answers_lsStepHi (st : Status) (v : Nat) (l : List Byte) : (s.answers st v l).lsStepHi = s.lsStepHi := rfl
@[simp] theorem State.answers_lsDead (st : Status) (v : Nat) (l : List Byte) : (s.answers st v l).lsDead = s.lsDead := rfl
@[simp] theorem State.answers_joinFp (st : Status) (v : Nat) (l : List Byte) : (s.answers st v l).joinFp = s.joinFp := rfl
@[simp] theorem State.answers_tiles (st : Status) (v : Nat) (l : List Byte) : (s.answers st v l).tiles = s.tiles := rfl
@[simp] theorem State.answers_axes (st : Status) (v : Nat) (l : List Byte) : (s.answers st v l).axes = s.axes := rfl
@[simp] theorem State.answers_sds (st : Status) (v : Nat) (l : List Byte) : (s.answers st v l).sds = s.sds := rfl
@[simp] theorem State.answers_slots (st : Status) (v : Nat) (l : List Byte) : (s.answers st v l).slots = s.slots := rfl
@[simp] theorem State.answers_sps (st : Status) (v : Nat) (l : List Byte) : (s.answers st v l).sps = s.sps := rfl
@[simp] theorem State.answers_injs (st : Status) (v : Nat) (l : List Byte) : (s.answers st v l).injs = s.injs := rfl
@[simp] theorem State.answers_caps (st : Status) (v : Nat) (l : List Byte) : (s.answers st v l).caps = s.caps := rfl
@[simp] theorem State.answers_lanes (st : Status) (v : Nat) (l : List Byte) : (s.answers st v l).lanes = s.lanes := rfl
@[simp] theorem State.answers_chnRuns (st : Status) (v : Nat) (l : List Byte) : (s.answers st v l).chnRuns = s.chnRuns := rfl
@[simp] theorem State.answers_cwqSel (st : Status) (v : Nat) (l : List Byte) : (s.answers st v l).cwqSel = s.cwqSel := rfl
@[simp] theorem State.answers_pcms (st : Status) (v : Nat) (l : List Byte) : (s.answers st v l).pcms = s.pcms := rfl
@[simp] theorem State.answers_pcs (st : Status) (v : Nat) (l : List Byte) : (s.answers st v l).pcs = s.pcs := rfl
@[simp] theorem State.answers_lls (st : Status) (v : Nat) (l : List Byte) : (s.answers st v l).lls = s.lls := rfl
@[simp] theorem State.answers_lchs (st : Status) (v : Nat) (l : List Byte) : (s.answers st v l).lchs = s.lchs := rfl
@[simp] theorem State.answers_fes (st : Status) (v : Nat) (l : List Byte) : (s.answers st v l).fes = s.fes := rfl
@[simp] theorem State.answers_fioLv (st : Status) (v : Nat) (l : List Byte) : (s.answers st v l).fioLv = s.fioLv := rfl
@[simp] theorem State.answers_ras (st : Status) (v : Nat) (l : List Byte) : (s.answers st v l).ras = s.ras := rfl
@[simp] theorem State.answers_sqs (st : Status) (v : Nat) (l : List Byte) : (s.answers st v l).sqs = s.sqs := rfl
@[simp] theorem State.answers_cqs (st : Status) (v : Nat) (l : List Byte) : (s.answers st v l).cqs = s.cqs := rfl
@[simp] theorem State.answers_dbVals (st : Status) (v : Nat) (l : List Byte) : (s.answers st v l).dbVals = s.dbVals := rfl
@[simp] theorem State.answers_msix (st : Status) (v : Nat) (l : List Byte) : (s.answers st v l).msix = s.msix := rfl
@[simp] theorem State.answers_msixPend (st : Status) (v : Nat) (l : List Byte) : (s.answers st v l).msixPend = s.msixPend := rfl
@[simp] theorem State.answers_coreIrq (st : Status) (v : Nat) (l : List Byte) : (s.answers st v l).coreIrq = s.coreIrq := rfl
@[simp] theorem State.answers_pcieUp (st : Status) (v : Nat) (l : List Byte) : (s.answers st v l).pcieUp = s.pcieUp := rfl
@[simp] theorem State.answers_d3hot (st : Status) (v : Nat) (l : List Byte) : (s.answers st v l).d3hot = s.d3hot := rfl
@[simp] theorem State.answers_ports (st : Status) (v : Nat) (l : List Byte) : (s.answers st v l).ports = s.ports := rfl
@[simp] theorem State.answers_tokOut (st : Status) (v : Nat) (l : List Byte) : (s.answers st v l).tokOut = s.tokOut := rfl
@[simp] theorem State.answers_fwmsgs (st : Status) (v : Nat) (l : List Byte) : (s.answers st v l).fwmsgs = s.fwmsgs := rfl
@[simp] theorem State.answers_badMsg (st : Status) (v : Nat) (l : List Byte) : (s.answers st v l).badMsg = s.badMsg := rfl
@[simp] theorem State.answers_leaderAt (st : Status) (v : Nat) (l : List Byte) : (s.answers st v l).leaderAt = s.leaderAt := rfl
@[simp] theorem State.answers_sweep (st : Status) (v : Nat) (l : List Byte) : (s.answers st v l).sweep = s.sweep := rfl
@[simp] theorem State.answers_frDone (st : Status) (v : Nat) (l : List Byte) : (s.answers st v l).frDone = s.frDone := rfl
@[simp] theorem State.answers_qbv (st : Status) (v : Nat) (l : List Byte) : (s.answers st v l).qbv = s.qbv := rfl
@[simp] theorem State.answers_ethTurn (st : Status) (v : Nat) (l : List Byte) : (s.answers st v l).ethTurn = s.ethTurn := rfl
@[simp] theorem State.answers_ethOut (st : Status) (v : Nat) (l : List Byte) : (s.answers st v l).ethOut = s.ethOut := rfl
@[simp] theorem State.answers_canOut (st : Status) (v : Nat) (l : List Byte) : (s.answers st v l).canOut = s.canOut := rfl
@[simp] theorem State.answers_canRecover (st : Status) (v : Nat) (l : List Byte) : (s.answers st v l).canRecover = s.canRecover := rfl
@[simp] theorem State.answers_csis (st : Status) (v : Nat) (l : List Byte) : (s.answers st v l).csis = s.csis := rfl
@[simp] theorem State.answers_sers (st : Status) (v : Nat) (l : List Byte) : (s.answers st v l).sers = s.sers := rfl
@[simp] theorem State.answers_serOut (st : Status) (v : Nat) (l : List Byte) : (s.answers st v l).serOut = s.serOut := rfl
@[simp] theorem State.answers_scTx (st : Status) (v : Nat) (l : List Byte) : (s.answers st v l).scTx = s.scTx := rfl
@[simp] theorem State.answers_sfTime (st : Status) (v : Nat) (l : List Byte) : (s.answers st v l).sfTime = s.sfTime := rfl
@[simp] theorem State.answers_exitKey (st : Status) (v : Nat) (l : List Byte) : (s.answers st v l).exitKey = s.exitKey := rfl
@[simp] theorem State.answers_islandHalted (st : Status) (v : Nat) (l : List Byte) : (s.answers st v l).islandHalted = s.islandHalted := rfl
@[simp] theorem State.answers_safeInHigh (st : Status) (v : Nat) (l : List Byte) : (s.answers st v l).safeInHigh = s.safeInHigh := rfl
@[simp] theorem State.answers_wdOn (st : Status) (v : Nat) (l : List Byte) : (s.answers st v l).wdOn = s.wdOn := rfl
@[simp] theorem State.answers_wdKicked (st : Status) (v : Nat) (l : List Byte) : (s.answers st v l).wdKicked = s.wdKicked := rfl
@[simp] theorem State.answers_wdAt (st : Status) (v : Nat) (l : List Byte) : (s.answers st v l).wdAt = s.wdAt := rfl
@[simp] theorem State.answers_wdNext (st : Status) (v : Nat) (l : List Byte) : (s.answers st v l).wdNext = s.wdNext := rfl
@[simp] theorem State.answers_stoPulse (st : Status) (v : Nat) (l : List Byte) : (s.answers st v l).stoPulse = s.stoPulse := rfl
@[simp] theorem State.answers_stoLast (st : Status) (v : Nat) (l : List Byte) : (s.answers st v l).stoLast = s.stoLast := rfl
@[simp] theorem State.answers_scs (st : Status) (v : Nat) (l : List Byte) : (s.answers st v l).scs = s.scs := rfl
@[simp] theorem State.answers_boot (st : Status) (v : Nat) (l : List Byte) : (s.answers st v l).boot = s.boot := rfl
@[simp] theorem State.answers_zeroing (st : Status) (v : Nat) (l : List Byte) : (s.answers st v l).zeroing = s.zeroing := rfl

@[simp] theorem State.answered_pending (st : Status) (v : Nat) : (s.answered st v).pending = s.pending := rfl
@[simp] theorem State.answered_regs (st : Status) (v : Nat) : (s.answered st v).regs = s.regs := rfl
@[simp] theorem State.answered_mem (st : Status) (v : Nat) : (s.answered st v).mem = s.mem := rfl
@[simp] theorem State.answered_unknown (st : Status) (v : Nat) : (s.answered st v).unknown = s.unknown := rfl
@[simp] theorem State.answered_lostPages (st : Status) (v : Nat) : (s.answered st v).lostPages = s.lostPages := rfl
@[simp] theorem State.answered_ecc (st : Status) (v : Nat) : (s.answered st v).ecc = s.ecc := rfl
@[simp] theorem State.answered_wb (st : Status) (v : Nat) : (s.answered st v).wb = s.wb := rfl
@[simp] theorem State.answered_resv (st : Status) (v : Nat) : (s.answered st v).resv = s.resv := rfl
@[simp] theorem State.answered_scrub (st : Status) (v : Nat) : (s.answered st v).scrub = s.scrub := rfl
@[simp] theorem State.answered_replies (st : Status) (v : Nat) : (s.answered st v).replies = s.replies := rfl
@[simp] theorem State.answered_outst (st : Status) (v : Nat) : (s.answered st v).outst = s.outst := rfl
@[simp] theorem State.answered_tagHold (st : Status) (v : Nat) : (s.answered st v).tagHold = s.tagHold := rfl
@[simp] theorem State.answered_acks (st : Status) (v : Nat) : (s.answered st v).acks = s.acks := rfl
@[simp] theorem State.answered_nextTag (st : Status) (v : Nat) : (s.answered st v).nextTag = s.nextTag := rfl
@[simp] theorem State.answered_hostOut (st : Status) (v : Nat) : (s.answered st v).hostOut = s.hostOut := rfl
@[simp] theorem State.answered_msgs (st : Status) (v : Nat) : (s.answered st v).msgs = s.msgs := rfl
@[simp] theorem State.answered_postAns (st : Status) (v : Nat) : (s.answered st v).postAns = s.postAns := rfl
@[simp] theorem State.answered_zlr (st : Status) (v : Nat) : (s.answered st v).zlr = s.zlr := rfl
@[simp] theorem State.answered_reports (st : Status) (v : Nat) : (s.answered st v).reports = s.reports := rfl
@[simp] theorem State.answered_islandIrq (st : Status) (v : Nat) : (s.answered st v).islandIrq = s.islandIrq := rfl
@[simp] theorem State.answered_aligned (st : Status) (v : Nat) : (s.answered st v).aligned = s.aligned := rfl
@[simp] theorem State.answered_sysrst (st : Status) (v : Nat) : (s.answered st v).sysrst = s.sysrst := rfl
@[simp] theorem State.answered_now (st : Status) (v : Nat) : (s.answered st v).now = s.now := rfl
@[simp] theorem State.answered_sysAcc (st : Status) (v : Nat) : (s.answered st v).sysAcc = s.sysAcc := rfl
@[simp] theorem State.answered_units (st : Status) (v : Nat) : (s.answered st v).units = s.units := rfl
@[simp] theorem State.answered_fw (st : Status) (v : Nat) : (s.answered st v).fw = s.fw := rfl
@[simp] theorem State.answered_fwArmed (st : Status) (v : Nat) : (s.answered st v).fwArmed = s.fwArmed := rfl
@[simp] theorem State.answered_fwLocked (st : Status) (v : Nat) : (s.answered st v).fwLocked = s.fwLocked := rfl
@[simp] theorem State.answered_ctxs (st : Status) (v : Nat) : (s.answered st v).ctxs = s.ctxs := rfl
@[simp] theorem State.answered_errHeld (st : Status) (v : Nat) : (s.answered st v).errHeld = s.errHeld := rfl
@[simp] theorem State.answered_rowStage (st : Status) (v : Nat) : (s.answered st v).rowStage = s.rowStage := rfl
@[simp] theorem State.answered_drones (st : Status) (v : Nat) : (s.answered st v).drones = s.drones := rfl
@[simp] theorem State.answered_events (st : Status) (v : Nat) : (s.answered st v).events = s.events := rfl
@[simp] theorem State.answered_latchUnread (st : Status) (v : Nat) : (s.answered st v).latchUnread = s.latchUnread := rfl
@[simp] theorem State.answered_latchJobs (st : Status) (v : Nat) : (s.answered st v).latchJobs = s.latchJobs := rfl
@[simp] theorem State.answered_freeCtr (st : Status) (v : Nat) : (s.answered st v).freeCtr = s.freeCtr := rfl
@[simp] theorem State.answered_meas (st : Status) (v : Nat) : (s.answered st v).meas = s.meas := rfl
@[simp] theorem State.answered_reed (st : Status) (v : Nat) : (s.answered st v).reed = s.reed := rfl
@[simp] theorem State.answered_qstat (st : Status) (v : Nat) : (s.answered st v).qstat = s.qstat := rfl
@[simp] theorem State.answered_tokWait (st : Status) (v : Nat) : (s.answered st v).tokWait = s.tokWait := rfl
@[simp] theorem State.answered_opChange (st : Status) (v : Nat) : (s.answered st v).opChange = s.opChange := rfl
@[simp] theorem State.answered_vid (st : Status) (v : Nat) : (s.answered st v).vid = s.vid := rfl
@[simp] theorem State.answered_vok (st : Status) (v : Nat) : (s.answered st v).vok = s.vok := rfl
@[simp] theorem State.answered_vidChanged (st : Status) (v : Nat) : (s.answered st v).vidChanged = s.vidChanged := rfl
@[simp] theorem State.answered_sensAge (st : Status) (v : Nat) : (s.answered st v).sensAge = s.sensAge := rfl
@[simp] theorem State.answered_shutRun (st : Status) (v : Nat) : (s.answered st v).shutRun = s.shutRun := rfl
@[simp] theorem State.answered_opSince (st : Status) (v : Nat) : (s.answered st v).opSince = s.opSince := rfl
@[simp] theorem State.answered_used (st : Status) (v : Nat) : (s.answered st v).used = s.used := rfl
@[simp] theorem State.answered_step (st : Status) (v : Nat) : (s.answered st v).step = s.step := rfl
@[simp] theorem State.answered_stepStage (st : Status) (v : Nat) : (s.answered st v).stepStage = s.stepStage := rfl
@[simp] theorem State.answered_genJob (st : Status) (v : Nat) : (s.answered st v).genJob = s.genJob := rfl
@[simp] theorem State.answered_sigs (st : Status) (v : Nat) : (s.answered st v).sigs = s.sigs := rfl
@[simp] theorem State.answered_sigsIn (st : Status) (v : Nat) : (s.answered st v).sigsIn = s.sigsIn := rfl
@[simp] theorem State.answered_lsStepHi (st : Status) (v : Nat) : (s.answered st v).lsStepHi = s.lsStepHi := rfl
@[simp] theorem State.answered_lsDead (st : Status) (v : Nat) : (s.answered st v).lsDead = s.lsDead := rfl
@[simp] theorem State.answered_joinFp (st : Status) (v : Nat) : (s.answered st v).joinFp = s.joinFp := rfl
@[simp] theorem State.answered_tiles (st : Status) (v : Nat) : (s.answered st v).tiles = s.tiles := rfl
@[simp] theorem State.answered_axes (st : Status) (v : Nat) : (s.answered st v).axes = s.axes := rfl
@[simp] theorem State.answered_sds (st : Status) (v : Nat) : (s.answered st v).sds = s.sds := rfl
@[simp] theorem State.answered_slots (st : Status) (v : Nat) : (s.answered st v).slots = s.slots := rfl
@[simp] theorem State.answered_sps (st : Status) (v : Nat) : (s.answered st v).sps = s.sps := rfl
@[simp] theorem State.answered_injs (st : Status) (v : Nat) : (s.answered st v).injs = s.injs := rfl
@[simp] theorem State.answered_caps (st : Status) (v : Nat) : (s.answered st v).caps = s.caps := rfl
@[simp] theorem State.answered_lanes (st : Status) (v : Nat) : (s.answered st v).lanes = s.lanes := rfl
@[simp] theorem State.answered_chnRuns (st : Status) (v : Nat) : (s.answered st v).chnRuns = s.chnRuns := rfl
@[simp] theorem State.answered_cwqSel (st : Status) (v : Nat) : (s.answered st v).cwqSel = s.cwqSel := rfl
@[simp] theorem State.answered_pcms (st : Status) (v : Nat) : (s.answered st v).pcms = s.pcms := rfl
@[simp] theorem State.answered_pcs (st : Status) (v : Nat) : (s.answered st v).pcs = s.pcs := rfl
@[simp] theorem State.answered_lls (st : Status) (v : Nat) : (s.answered st v).lls = s.lls := rfl
@[simp] theorem State.answered_lchs (st : Status) (v : Nat) : (s.answered st v).lchs = s.lchs := rfl
@[simp] theorem State.answered_fes (st : Status) (v : Nat) : (s.answered st v).fes = s.fes := rfl
@[simp] theorem State.answered_fioLv (st : Status) (v : Nat) : (s.answered st v).fioLv = s.fioLv := rfl
@[simp] theorem State.answered_ras (st : Status) (v : Nat) : (s.answered st v).ras = s.ras := rfl
@[simp] theorem State.answered_sqs (st : Status) (v : Nat) : (s.answered st v).sqs = s.sqs := rfl
@[simp] theorem State.answered_cqs (st : Status) (v : Nat) : (s.answered st v).cqs = s.cqs := rfl
@[simp] theorem State.answered_dbVals (st : Status) (v : Nat) : (s.answered st v).dbVals = s.dbVals := rfl
@[simp] theorem State.answered_msix (st : Status) (v : Nat) : (s.answered st v).msix = s.msix := rfl
@[simp] theorem State.answered_msixPend (st : Status) (v : Nat) : (s.answered st v).msixPend = s.msixPend := rfl
@[simp] theorem State.answered_coreIrq (st : Status) (v : Nat) : (s.answered st v).coreIrq = s.coreIrq := rfl
@[simp] theorem State.answered_pcieUp (st : Status) (v : Nat) : (s.answered st v).pcieUp = s.pcieUp := rfl
@[simp] theorem State.answered_d3hot (st : Status) (v : Nat) : (s.answered st v).d3hot = s.d3hot := rfl
@[simp] theorem State.answered_ports (st : Status) (v : Nat) : (s.answered st v).ports = s.ports := rfl
@[simp] theorem State.answered_tokOut (st : Status) (v : Nat) : (s.answered st v).tokOut = s.tokOut := rfl
@[simp] theorem State.answered_fwmsgs (st : Status) (v : Nat) : (s.answered st v).fwmsgs = s.fwmsgs := rfl
@[simp] theorem State.answered_badMsg (st : Status) (v : Nat) : (s.answered st v).badMsg = s.badMsg := rfl
@[simp] theorem State.answered_leaderAt (st : Status) (v : Nat) : (s.answered st v).leaderAt = s.leaderAt := rfl
@[simp] theorem State.answered_sweep (st : Status) (v : Nat) : (s.answered st v).sweep = s.sweep := rfl
@[simp] theorem State.answered_frDone (st : Status) (v : Nat) : (s.answered st v).frDone = s.frDone := rfl
@[simp] theorem State.answered_qbv (st : Status) (v : Nat) : (s.answered st v).qbv = s.qbv := rfl
@[simp] theorem State.answered_ethTurn (st : Status) (v : Nat) : (s.answered st v).ethTurn = s.ethTurn := rfl
@[simp] theorem State.answered_ethOut (st : Status) (v : Nat) : (s.answered st v).ethOut = s.ethOut := rfl
@[simp] theorem State.answered_canOut (st : Status) (v : Nat) : (s.answered st v).canOut = s.canOut := rfl
@[simp] theorem State.answered_canRecover (st : Status) (v : Nat) : (s.answered st v).canRecover = s.canRecover := rfl
@[simp] theorem State.answered_csis (st : Status) (v : Nat) : (s.answered st v).csis = s.csis := rfl
@[simp] theorem State.answered_sers (st : Status) (v : Nat) : (s.answered st v).sers = s.sers := rfl
@[simp] theorem State.answered_serOut (st : Status) (v : Nat) : (s.answered st v).serOut = s.serOut := rfl
@[simp] theorem State.answered_scTx (st : Status) (v : Nat) : (s.answered st v).scTx = s.scTx := rfl
@[simp] theorem State.answered_sfTime (st : Status) (v : Nat) : (s.answered st v).sfTime = s.sfTime := rfl
@[simp] theorem State.answered_exitKey (st : Status) (v : Nat) : (s.answered st v).exitKey = s.exitKey := rfl
@[simp] theorem State.answered_islandHalted (st : Status) (v : Nat) : (s.answered st v).islandHalted = s.islandHalted := rfl
@[simp] theorem State.answered_safeInHigh (st : Status) (v : Nat) : (s.answered st v).safeInHigh = s.safeInHigh := rfl
@[simp] theorem State.answered_wdOn (st : Status) (v : Nat) : (s.answered st v).wdOn = s.wdOn := rfl
@[simp] theorem State.answered_wdKicked (st : Status) (v : Nat) : (s.answered st v).wdKicked = s.wdKicked := rfl
@[simp] theorem State.answered_wdAt (st : Status) (v : Nat) : (s.answered st v).wdAt = s.wdAt := rfl
@[simp] theorem State.answered_wdNext (st : Status) (v : Nat) : (s.answered st v).wdNext = s.wdNext := rfl
@[simp] theorem State.answered_stoPulse (st : Status) (v : Nat) : (s.answered st v).stoPulse = s.stoPulse := rfl
@[simp] theorem State.answered_stoLast (st : Status) (v : Nat) : (s.answered st v).stoLast = s.stoLast := rfl
@[simp] theorem State.answered_scs (st : Status) (v : Nat) : (s.answered st v).scs = s.scs := rfl
@[simp] theorem State.answered_boot (st : Status) (v : Nat) : (s.answered st v).boot = s.boot := rfl
@[simp] theorem State.answered_zeroing (st : Status) (v : Nat) : (s.answered st v).zeroing = s.zeroing := rfl

@[simp] theorem State.setUnit_pending (code : Nat) (v : UnitSt) : (s.setUnit code v).pending = s.pending := rfl
@[simp] theorem State.setUnit_regs (code : Nat) (v : UnitSt) : (s.setUnit code v).regs = s.regs := rfl
@[simp] theorem State.setUnit_mem (code : Nat) (v : UnitSt) : (s.setUnit code v).mem = s.mem := rfl
@[simp] theorem State.setUnit_unknown (code : Nat) (v : UnitSt) : (s.setUnit code v).unknown = s.unknown := rfl
@[simp] theorem State.setUnit_lostPages (code : Nat) (v : UnitSt) : (s.setUnit code v).lostPages = s.lostPages := rfl
@[simp] theorem State.setUnit_ecc (code : Nat) (v : UnitSt) : (s.setUnit code v).ecc = s.ecc := rfl
@[simp] theorem State.setUnit_wb (code : Nat) (v : UnitSt) : (s.setUnit code v).wb = s.wb := rfl
@[simp] theorem State.setUnit_resv (code : Nat) (v : UnitSt) : (s.setUnit code v).resv = s.resv := rfl
@[simp] theorem State.setUnit_scrub (code : Nat) (v : UnitSt) : (s.setUnit code v).scrub = s.scrub := rfl
@[simp] theorem State.setUnit_answer (code : Nat) (v : UnitSt) : (s.setUnit code v).answer = s.answer := rfl
@[simp] theorem State.setUnit_replies (code : Nat) (v : UnitSt) : (s.setUnit code v).replies = s.replies := rfl
@[simp] theorem State.setUnit_outst (code : Nat) (v : UnitSt) : (s.setUnit code v).outst = s.outst := rfl
@[simp] theorem State.setUnit_tagHold (code : Nat) (v : UnitSt) : (s.setUnit code v).tagHold = s.tagHold := rfl
@[simp] theorem State.setUnit_acks (code : Nat) (v : UnitSt) : (s.setUnit code v).acks = s.acks := rfl
@[simp] theorem State.setUnit_nextTag (code : Nat) (v : UnitSt) : (s.setUnit code v).nextTag = s.nextTag := rfl
@[simp] theorem State.setUnit_hostOut (code : Nat) (v : UnitSt) : (s.setUnit code v).hostOut = s.hostOut := rfl
@[simp] theorem State.setUnit_msgs (code : Nat) (v : UnitSt) : (s.setUnit code v).msgs = s.msgs := rfl
@[simp] theorem State.setUnit_postAns (code : Nat) (v : UnitSt) : (s.setUnit code v).postAns = s.postAns := rfl
@[simp] theorem State.setUnit_zlr (code : Nat) (v : UnitSt) : (s.setUnit code v).zlr = s.zlr := rfl
@[simp] theorem State.setUnit_reports (code : Nat) (v : UnitSt) : (s.setUnit code v).reports = s.reports := rfl
@[simp] theorem State.setUnit_islandIrq (code : Nat) (v : UnitSt) : (s.setUnit code v).islandIrq = s.islandIrq := rfl
@[simp] theorem State.setUnit_aligned (code : Nat) (v : UnitSt) : (s.setUnit code v).aligned = s.aligned := rfl
@[simp] theorem State.setUnit_sysrst (code : Nat) (v : UnitSt) : (s.setUnit code v).sysrst = s.sysrst := rfl
@[simp] theorem State.setUnit_now (code : Nat) (v : UnitSt) : (s.setUnit code v).now = s.now := rfl
@[simp] theorem State.setUnit_sysAcc (code : Nat) (v : UnitSt) : (s.setUnit code v).sysAcc = s.sysAcc := rfl
@[simp] theorem State.setUnit_fw (code : Nat) (v : UnitSt) : (s.setUnit code v).fw = s.fw := rfl
@[simp] theorem State.setUnit_fwArmed (code : Nat) (v : UnitSt) : (s.setUnit code v).fwArmed = s.fwArmed := rfl
@[simp] theorem State.setUnit_fwLocked (code : Nat) (v : UnitSt) : (s.setUnit code v).fwLocked = s.fwLocked := rfl
@[simp] theorem State.setUnit_ctxs (code : Nat) (v : UnitSt) : (s.setUnit code v).ctxs = s.ctxs := rfl
@[simp] theorem State.setUnit_errHeld (code : Nat) (v : UnitSt) : (s.setUnit code v).errHeld = s.errHeld := rfl
@[simp] theorem State.setUnit_rowStage (code : Nat) (v : UnitSt) : (s.setUnit code v).rowStage = s.rowStage := rfl
@[simp] theorem State.setUnit_drones (code : Nat) (v : UnitSt) : (s.setUnit code v).drones = s.drones := rfl
@[simp] theorem State.setUnit_events (code : Nat) (v : UnitSt) : (s.setUnit code v).events = s.events := rfl
@[simp] theorem State.setUnit_latchUnread (code : Nat) (v : UnitSt) : (s.setUnit code v).latchUnread = s.latchUnread := rfl
@[simp] theorem State.setUnit_latchJobs (code : Nat) (v : UnitSt) : (s.setUnit code v).latchJobs = s.latchJobs := rfl
@[simp] theorem State.setUnit_freeCtr (code : Nat) (v : UnitSt) : (s.setUnit code v).freeCtr = s.freeCtr := rfl
@[simp] theorem State.setUnit_meas (code : Nat) (v : UnitSt) : (s.setUnit code v).meas = s.meas := rfl
@[simp] theorem State.setUnit_reed (code : Nat) (v : UnitSt) : (s.setUnit code v).reed = s.reed := rfl
@[simp] theorem State.setUnit_qstat (code : Nat) (v : UnitSt) : (s.setUnit code v).qstat = s.qstat := rfl
@[simp] theorem State.setUnit_tokWait (code : Nat) (v : UnitSt) : (s.setUnit code v).tokWait = s.tokWait := rfl
@[simp] theorem State.setUnit_opChange (code : Nat) (v : UnitSt) : (s.setUnit code v).opChange = s.opChange := rfl
@[simp] theorem State.setUnit_vid (code : Nat) (v : UnitSt) : (s.setUnit code v).vid = s.vid := rfl
@[simp] theorem State.setUnit_vok (code : Nat) (v : UnitSt) : (s.setUnit code v).vok = s.vok := rfl
@[simp] theorem State.setUnit_vidChanged (code : Nat) (v : UnitSt) : (s.setUnit code v).vidChanged = s.vidChanged := rfl
@[simp] theorem State.setUnit_sensAge (code : Nat) (v : UnitSt) : (s.setUnit code v).sensAge = s.sensAge := rfl
@[simp] theorem State.setUnit_shutRun (code : Nat) (v : UnitSt) : (s.setUnit code v).shutRun = s.shutRun := rfl
@[simp] theorem State.setUnit_opSince (code : Nat) (v : UnitSt) : (s.setUnit code v).opSince = s.opSince := rfl
@[simp] theorem State.setUnit_used (code : Nat) (v : UnitSt) : (s.setUnit code v).used = s.used := rfl
@[simp] theorem State.setUnit_step (code : Nat) (v : UnitSt) : (s.setUnit code v).step = s.step := rfl
@[simp] theorem State.setUnit_stepStage (code : Nat) (v : UnitSt) : (s.setUnit code v).stepStage = s.stepStage := rfl
@[simp] theorem State.setUnit_genJob (code : Nat) (v : UnitSt) : (s.setUnit code v).genJob = s.genJob := rfl
@[simp] theorem State.setUnit_sigs (code : Nat) (v : UnitSt) : (s.setUnit code v).sigs = s.sigs := rfl
@[simp] theorem State.setUnit_sigsIn (code : Nat) (v : UnitSt) : (s.setUnit code v).sigsIn = s.sigsIn := rfl
@[simp] theorem State.setUnit_lsStepHi (code : Nat) (v : UnitSt) : (s.setUnit code v).lsStepHi = s.lsStepHi := rfl
@[simp] theorem State.setUnit_lsDead (code : Nat) (v : UnitSt) : (s.setUnit code v).lsDead = s.lsDead := rfl
@[simp] theorem State.setUnit_joinFp (code : Nat) (v : UnitSt) : (s.setUnit code v).joinFp = s.joinFp := rfl
@[simp] theorem State.setUnit_tiles (code : Nat) (v : UnitSt) : (s.setUnit code v).tiles = s.tiles := rfl
@[simp] theorem State.setUnit_axes (code : Nat) (v : UnitSt) : (s.setUnit code v).axes = s.axes := rfl
@[simp] theorem State.setUnit_sds (code : Nat) (v : UnitSt) : (s.setUnit code v).sds = s.sds := rfl
@[simp] theorem State.setUnit_slots (code : Nat) (v : UnitSt) : (s.setUnit code v).slots = s.slots := rfl
@[simp] theorem State.setUnit_sps (code : Nat) (v : UnitSt) : (s.setUnit code v).sps = s.sps := rfl
@[simp] theorem State.setUnit_injs (code : Nat) (v : UnitSt) : (s.setUnit code v).injs = s.injs := rfl
@[simp] theorem State.setUnit_caps (code : Nat) (v : UnitSt) : (s.setUnit code v).caps = s.caps := rfl
@[simp] theorem State.setUnit_lanes (code : Nat) (v : UnitSt) : (s.setUnit code v).lanes = s.lanes := rfl
@[simp] theorem State.setUnit_chnRuns (code : Nat) (v : UnitSt) : (s.setUnit code v).chnRuns = s.chnRuns := rfl
@[simp] theorem State.setUnit_cwqSel (code : Nat) (v : UnitSt) : (s.setUnit code v).cwqSel = s.cwqSel := rfl
@[simp] theorem State.setUnit_pcms (code : Nat) (v : UnitSt) : (s.setUnit code v).pcms = s.pcms := rfl
@[simp] theorem State.setUnit_pcs (code : Nat) (v : UnitSt) : (s.setUnit code v).pcs = s.pcs := rfl
@[simp] theorem State.setUnit_lls (code : Nat) (v : UnitSt) : (s.setUnit code v).lls = s.lls := rfl
@[simp] theorem State.setUnit_lchs (code : Nat) (v : UnitSt) : (s.setUnit code v).lchs = s.lchs := rfl
@[simp] theorem State.setUnit_fes (code : Nat) (v : UnitSt) : (s.setUnit code v).fes = s.fes := rfl
@[simp] theorem State.setUnit_fioLv (code : Nat) (v : UnitSt) : (s.setUnit code v).fioLv = s.fioLv := rfl
@[simp] theorem State.setUnit_ras (code : Nat) (v : UnitSt) : (s.setUnit code v).ras = s.ras := rfl
@[simp] theorem State.setUnit_sqs (code : Nat) (v : UnitSt) : (s.setUnit code v).sqs = s.sqs := rfl
@[simp] theorem State.setUnit_cqs (code : Nat) (v : UnitSt) : (s.setUnit code v).cqs = s.cqs := rfl
@[simp] theorem State.setUnit_dbVals (code : Nat) (v : UnitSt) : (s.setUnit code v).dbVals = s.dbVals := rfl
@[simp] theorem State.setUnit_msix (code : Nat) (v : UnitSt) : (s.setUnit code v).msix = s.msix := rfl
@[simp] theorem State.setUnit_msixPend (code : Nat) (v : UnitSt) : (s.setUnit code v).msixPend = s.msixPend := rfl
@[simp] theorem State.setUnit_coreIrq (code : Nat) (v : UnitSt) : (s.setUnit code v).coreIrq = s.coreIrq := rfl
@[simp] theorem State.setUnit_pcieUp (code : Nat) (v : UnitSt) : (s.setUnit code v).pcieUp = s.pcieUp := rfl
@[simp] theorem State.setUnit_d3hot (code : Nat) (v : UnitSt) : (s.setUnit code v).d3hot = s.d3hot := rfl
@[simp] theorem State.setUnit_ports (code : Nat) (v : UnitSt) : (s.setUnit code v).ports = s.ports := rfl
@[simp] theorem State.setUnit_tokOut (code : Nat) (v : UnitSt) : (s.setUnit code v).tokOut = s.tokOut := rfl
@[simp] theorem State.setUnit_fwmsgs (code : Nat) (v : UnitSt) : (s.setUnit code v).fwmsgs = s.fwmsgs := rfl
@[simp] theorem State.setUnit_badMsg (code : Nat) (v : UnitSt) : (s.setUnit code v).badMsg = s.badMsg := rfl
@[simp] theorem State.setUnit_leaderAt (code : Nat) (v : UnitSt) : (s.setUnit code v).leaderAt = s.leaderAt := rfl
@[simp] theorem State.setUnit_sweep (code : Nat) (v : UnitSt) : (s.setUnit code v).sweep = s.sweep := rfl
@[simp] theorem State.setUnit_frDone (code : Nat) (v : UnitSt) : (s.setUnit code v).frDone = s.frDone := rfl
@[simp] theorem State.setUnit_qbv (code : Nat) (v : UnitSt) : (s.setUnit code v).qbv = s.qbv := rfl
@[simp] theorem State.setUnit_ethTurn (code : Nat) (v : UnitSt) : (s.setUnit code v).ethTurn = s.ethTurn := rfl
@[simp] theorem State.setUnit_ethOut (code : Nat) (v : UnitSt) : (s.setUnit code v).ethOut = s.ethOut := rfl
@[simp] theorem State.setUnit_canOut (code : Nat) (v : UnitSt) : (s.setUnit code v).canOut = s.canOut := rfl
@[simp] theorem State.setUnit_canRecover (code : Nat) (v : UnitSt) : (s.setUnit code v).canRecover = s.canRecover := rfl
@[simp] theorem State.setUnit_csis (code : Nat) (v : UnitSt) : (s.setUnit code v).csis = s.csis := rfl
@[simp] theorem State.setUnit_sers (code : Nat) (v : UnitSt) : (s.setUnit code v).sers = s.sers := rfl
@[simp] theorem State.setUnit_serOut (code : Nat) (v : UnitSt) : (s.setUnit code v).serOut = s.serOut := rfl
@[simp] theorem State.setUnit_scTx (code : Nat) (v : UnitSt) : (s.setUnit code v).scTx = s.scTx := rfl
@[simp] theorem State.setUnit_sfTime (code : Nat) (v : UnitSt) : (s.setUnit code v).sfTime = s.sfTime := rfl
@[simp] theorem State.setUnit_exitKey (code : Nat) (v : UnitSt) : (s.setUnit code v).exitKey = s.exitKey := rfl
@[simp] theorem State.setUnit_islandHalted (code : Nat) (v : UnitSt) : (s.setUnit code v).islandHalted = s.islandHalted := rfl
@[simp] theorem State.setUnit_safeInHigh (code : Nat) (v : UnitSt) : (s.setUnit code v).safeInHigh = s.safeInHigh := rfl
@[simp] theorem State.setUnit_wdOn (code : Nat) (v : UnitSt) : (s.setUnit code v).wdOn = s.wdOn := rfl
@[simp] theorem State.setUnit_wdKicked (code : Nat) (v : UnitSt) : (s.setUnit code v).wdKicked = s.wdKicked := rfl
@[simp] theorem State.setUnit_wdAt (code : Nat) (v : UnitSt) : (s.setUnit code v).wdAt = s.wdAt := rfl
@[simp] theorem State.setUnit_wdNext (code : Nat) (v : UnitSt) : (s.setUnit code v).wdNext = s.wdNext := rfl
@[simp] theorem State.setUnit_stoPulse (code : Nat) (v : UnitSt) : (s.setUnit code v).stoPulse = s.stoPulse := rfl
@[simp] theorem State.setUnit_stoLast (code : Nat) (v : UnitSt) : (s.setUnit code v).stoLast = s.stoLast := rfl
@[simp] theorem State.setUnit_scs (code : Nat) (v : UnitSt) : (s.setUnit code v).scs = s.scs := rfl
@[simp] theorem State.setUnit_boot (code : Nat) (v : UnitSt) : (s.setUnit code v).boot = s.boot := rfl
@[simp] theorem State.setUnit_zeroing (code : Nat) (v : UnitSt) : (s.setUnit code v).zeroing = s.zeroing := rfl

@[simp] theorem State.setCtx_pending (u c : Nat) (v : CtxInt) : (s.setCtx u c v).pending = s.pending := rfl
@[simp] theorem State.setCtx_regs (u c : Nat) (v : CtxInt) : (s.setCtx u c v).regs = s.regs := rfl
@[simp] theorem State.setCtx_mem (u c : Nat) (v : CtxInt) : (s.setCtx u c v).mem = s.mem := rfl
@[simp] theorem State.setCtx_unknown (u c : Nat) (v : CtxInt) : (s.setCtx u c v).unknown = s.unknown := rfl
@[simp] theorem State.setCtx_lostPages (u c : Nat) (v : CtxInt) : (s.setCtx u c v).lostPages = s.lostPages := rfl
@[simp] theorem State.setCtx_ecc (u c : Nat) (v : CtxInt) : (s.setCtx u c v).ecc = s.ecc := rfl
@[simp] theorem State.setCtx_wb (u c : Nat) (v : CtxInt) : (s.setCtx u c v).wb = s.wb := rfl
@[simp] theorem State.setCtx_resv (u c : Nat) (v : CtxInt) : (s.setCtx u c v).resv = s.resv := rfl
@[simp] theorem State.setCtx_scrub (u c : Nat) (v : CtxInt) : (s.setCtx u c v).scrub = s.scrub := rfl
@[simp] theorem State.setCtx_answer (u c : Nat) (v : CtxInt) : (s.setCtx u c v).answer = s.answer := rfl
@[simp] theorem State.setCtx_replies (u c : Nat) (v : CtxInt) : (s.setCtx u c v).replies = s.replies := rfl
@[simp] theorem State.setCtx_outst (u c : Nat) (v : CtxInt) : (s.setCtx u c v).outst = s.outst := rfl
@[simp] theorem State.setCtx_tagHold (u c : Nat) (v : CtxInt) : (s.setCtx u c v).tagHold = s.tagHold := rfl
@[simp] theorem State.setCtx_acks (u c : Nat) (v : CtxInt) : (s.setCtx u c v).acks = s.acks := rfl
@[simp] theorem State.setCtx_nextTag (u c : Nat) (v : CtxInt) : (s.setCtx u c v).nextTag = s.nextTag := rfl
@[simp] theorem State.setCtx_hostOut (u c : Nat) (v : CtxInt) : (s.setCtx u c v).hostOut = s.hostOut := rfl
@[simp] theorem State.setCtx_msgs (u c : Nat) (v : CtxInt) : (s.setCtx u c v).msgs = s.msgs := rfl
@[simp] theorem State.setCtx_postAns (u c : Nat) (v : CtxInt) : (s.setCtx u c v).postAns = s.postAns := rfl
@[simp] theorem State.setCtx_zlr (u c : Nat) (v : CtxInt) : (s.setCtx u c v).zlr = s.zlr := rfl
@[simp] theorem State.setCtx_reports (u c : Nat) (v : CtxInt) : (s.setCtx u c v).reports = s.reports := rfl
@[simp] theorem State.setCtx_islandIrq (u c : Nat) (v : CtxInt) : (s.setCtx u c v).islandIrq = s.islandIrq := rfl
@[simp] theorem State.setCtx_aligned (u c : Nat) (v : CtxInt) : (s.setCtx u c v).aligned = s.aligned := rfl
@[simp] theorem State.setCtx_sysrst (u c : Nat) (v : CtxInt) : (s.setCtx u c v).sysrst = s.sysrst := rfl
@[simp] theorem State.setCtx_now (u c : Nat) (v : CtxInt) : (s.setCtx u c v).now = s.now := rfl
@[simp] theorem State.setCtx_sysAcc (u c : Nat) (v : CtxInt) : (s.setCtx u c v).sysAcc = s.sysAcc := rfl
@[simp] theorem State.setCtx_units (u c : Nat) (v : CtxInt) : (s.setCtx u c v).units = s.units := rfl
@[simp] theorem State.setCtx_fw (u c : Nat) (v : CtxInt) : (s.setCtx u c v).fw = s.fw := rfl
@[simp] theorem State.setCtx_fwArmed (u c : Nat) (v : CtxInt) : (s.setCtx u c v).fwArmed = s.fwArmed := rfl
@[simp] theorem State.setCtx_fwLocked (u c : Nat) (v : CtxInt) : (s.setCtx u c v).fwLocked = s.fwLocked := rfl
@[simp] theorem State.setCtx_errHeld (u c : Nat) (v : CtxInt) : (s.setCtx u c v).errHeld = s.errHeld := rfl
@[simp] theorem State.setCtx_rowStage (u c : Nat) (v : CtxInt) : (s.setCtx u c v).rowStage = s.rowStage := rfl
@[simp] theorem State.setCtx_drones (u c : Nat) (v : CtxInt) : (s.setCtx u c v).drones = s.drones := rfl
@[simp] theorem State.setCtx_events (u c : Nat) (v : CtxInt) : (s.setCtx u c v).events = s.events := rfl
@[simp] theorem State.setCtx_latchUnread (u c : Nat) (v : CtxInt) : (s.setCtx u c v).latchUnread = s.latchUnread := rfl
@[simp] theorem State.setCtx_latchJobs (u c : Nat) (v : CtxInt) : (s.setCtx u c v).latchJobs = s.latchJobs := rfl
@[simp] theorem State.setCtx_freeCtr (u c : Nat) (v : CtxInt) : (s.setCtx u c v).freeCtr = s.freeCtr := rfl
@[simp] theorem State.setCtx_meas (u c : Nat) (v : CtxInt) : (s.setCtx u c v).meas = s.meas := rfl
@[simp] theorem State.setCtx_reed (u c : Nat) (v : CtxInt) : (s.setCtx u c v).reed = s.reed := rfl
@[simp] theorem State.setCtx_qstat (u c : Nat) (v : CtxInt) : (s.setCtx u c v).qstat = s.qstat := rfl
@[simp] theorem State.setCtx_tokWait (u c : Nat) (v : CtxInt) : (s.setCtx u c v).tokWait = s.tokWait := rfl
@[simp] theorem State.setCtx_opChange (u c : Nat) (v : CtxInt) : (s.setCtx u c v).opChange = s.opChange := rfl
@[simp] theorem State.setCtx_vid (u c : Nat) (v : CtxInt) : (s.setCtx u c v).vid = s.vid := rfl
@[simp] theorem State.setCtx_vok (u c : Nat) (v : CtxInt) : (s.setCtx u c v).vok = s.vok := rfl
@[simp] theorem State.setCtx_vidChanged (u c : Nat) (v : CtxInt) : (s.setCtx u c v).vidChanged = s.vidChanged := rfl
@[simp] theorem State.setCtx_sensAge (u c : Nat) (v : CtxInt) : (s.setCtx u c v).sensAge = s.sensAge := rfl
@[simp] theorem State.setCtx_shutRun (u c : Nat) (v : CtxInt) : (s.setCtx u c v).shutRun = s.shutRun := rfl
@[simp] theorem State.setCtx_opSince (u c : Nat) (v : CtxInt) : (s.setCtx u c v).opSince = s.opSince := rfl
@[simp] theorem State.setCtx_used (u c : Nat) (v : CtxInt) : (s.setCtx u c v).used = s.used := rfl
@[simp] theorem State.setCtx_step (u c : Nat) (v : CtxInt) : (s.setCtx u c v).step = s.step := rfl
@[simp] theorem State.setCtx_stepStage (u c : Nat) (v : CtxInt) : (s.setCtx u c v).stepStage = s.stepStage := rfl
@[simp] theorem State.setCtx_genJob (u c : Nat) (v : CtxInt) : (s.setCtx u c v).genJob = s.genJob := rfl
@[simp] theorem State.setCtx_sigs (u c : Nat) (v : CtxInt) : (s.setCtx u c v).sigs = s.sigs := rfl
@[simp] theorem State.setCtx_sigsIn (u c : Nat) (v : CtxInt) : (s.setCtx u c v).sigsIn = s.sigsIn := rfl
@[simp] theorem State.setCtx_lsStepHi (u c : Nat) (v : CtxInt) : (s.setCtx u c v).lsStepHi = s.lsStepHi := rfl
@[simp] theorem State.setCtx_lsDead (u c : Nat) (v : CtxInt) : (s.setCtx u c v).lsDead = s.lsDead := rfl
@[simp] theorem State.setCtx_joinFp (u c : Nat) (v : CtxInt) : (s.setCtx u c v).joinFp = s.joinFp := rfl
@[simp] theorem State.setCtx_tiles (u c : Nat) (v : CtxInt) : (s.setCtx u c v).tiles = s.tiles := rfl
@[simp] theorem State.setCtx_axes (u c : Nat) (v : CtxInt) : (s.setCtx u c v).axes = s.axes := rfl
@[simp] theorem State.setCtx_sds (u c : Nat) (v : CtxInt) : (s.setCtx u c v).sds = s.sds := rfl
@[simp] theorem State.setCtx_slots (u c : Nat) (v : CtxInt) : (s.setCtx u c v).slots = s.slots := rfl
@[simp] theorem State.setCtx_sps (u c : Nat) (v : CtxInt) : (s.setCtx u c v).sps = s.sps := rfl
@[simp] theorem State.setCtx_injs (u c : Nat) (v : CtxInt) : (s.setCtx u c v).injs = s.injs := rfl
@[simp] theorem State.setCtx_caps (u c : Nat) (v : CtxInt) : (s.setCtx u c v).caps = s.caps := rfl
@[simp] theorem State.setCtx_lanes (u c : Nat) (v : CtxInt) : (s.setCtx u c v).lanes = s.lanes := rfl
@[simp] theorem State.setCtx_chnRuns (u c : Nat) (v : CtxInt) : (s.setCtx u c v).chnRuns = s.chnRuns := rfl
@[simp] theorem State.setCtx_cwqSel (u c : Nat) (v : CtxInt) : (s.setCtx u c v).cwqSel = s.cwqSel := rfl
@[simp] theorem State.setCtx_pcms (u c : Nat) (v : CtxInt) : (s.setCtx u c v).pcms = s.pcms := rfl
@[simp] theorem State.setCtx_pcs (u c : Nat) (v : CtxInt) : (s.setCtx u c v).pcs = s.pcs := rfl
@[simp] theorem State.setCtx_lls (u c : Nat) (v : CtxInt) : (s.setCtx u c v).lls = s.lls := rfl
@[simp] theorem State.setCtx_lchs (u c : Nat) (v : CtxInt) : (s.setCtx u c v).lchs = s.lchs := rfl
@[simp] theorem State.setCtx_fes (u c : Nat) (v : CtxInt) : (s.setCtx u c v).fes = s.fes := rfl
@[simp] theorem State.setCtx_fioLv (u c : Nat) (v : CtxInt) : (s.setCtx u c v).fioLv = s.fioLv := rfl
@[simp] theorem State.setCtx_ras (u c : Nat) (v : CtxInt) : (s.setCtx u c v).ras = s.ras := rfl
@[simp] theorem State.setCtx_sqs (u c : Nat) (v : CtxInt) : (s.setCtx u c v).sqs = s.sqs := rfl
@[simp] theorem State.setCtx_cqs (u c : Nat) (v : CtxInt) : (s.setCtx u c v).cqs = s.cqs := rfl
@[simp] theorem State.setCtx_dbVals (u c : Nat) (v : CtxInt) : (s.setCtx u c v).dbVals = s.dbVals := rfl
@[simp] theorem State.setCtx_msix (u c : Nat) (v : CtxInt) : (s.setCtx u c v).msix = s.msix := rfl
@[simp] theorem State.setCtx_msixPend (u c : Nat) (v : CtxInt) : (s.setCtx u c v).msixPend = s.msixPend := rfl
@[simp] theorem State.setCtx_coreIrq (u c : Nat) (v : CtxInt) : (s.setCtx u c v).coreIrq = s.coreIrq := rfl
@[simp] theorem State.setCtx_pcieUp (u c : Nat) (v : CtxInt) : (s.setCtx u c v).pcieUp = s.pcieUp := rfl
@[simp] theorem State.setCtx_d3hot (u c : Nat) (v : CtxInt) : (s.setCtx u c v).d3hot = s.d3hot := rfl
@[simp] theorem State.setCtx_ports (u c : Nat) (v : CtxInt) : (s.setCtx u c v).ports = s.ports := rfl
@[simp] theorem State.setCtx_tokOut (u c : Nat) (v : CtxInt) : (s.setCtx u c v).tokOut = s.tokOut := rfl
@[simp] theorem State.setCtx_fwmsgs (u c : Nat) (v : CtxInt) : (s.setCtx u c v).fwmsgs = s.fwmsgs := rfl
@[simp] theorem State.setCtx_badMsg (u c : Nat) (v : CtxInt) : (s.setCtx u c v).badMsg = s.badMsg := rfl
@[simp] theorem State.setCtx_leaderAt (u c : Nat) (v : CtxInt) : (s.setCtx u c v).leaderAt = s.leaderAt := rfl
@[simp] theorem State.setCtx_sweep (u c : Nat) (v : CtxInt) : (s.setCtx u c v).sweep = s.sweep := rfl
@[simp] theorem State.setCtx_frDone (u c : Nat) (v : CtxInt) : (s.setCtx u c v).frDone = s.frDone := rfl
@[simp] theorem State.setCtx_qbv (u c : Nat) (v : CtxInt) : (s.setCtx u c v).qbv = s.qbv := rfl
@[simp] theorem State.setCtx_ethTurn (u c : Nat) (v : CtxInt) : (s.setCtx u c v).ethTurn = s.ethTurn := rfl
@[simp] theorem State.setCtx_ethOut (u c : Nat) (v : CtxInt) : (s.setCtx u c v).ethOut = s.ethOut := rfl
@[simp] theorem State.setCtx_canOut (u c : Nat) (v : CtxInt) : (s.setCtx u c v).canOut = s.canOut := rfl
@[simp] theorem State.setCtx_canRecover (u c : Nat) (v : CtxInt) : (s.setCtx u c v).canRecover = s.canRecover := rfl
@[simp] theorem State.setCtx_csis (u c : Nat) (v : CtxInt) : (s.setCtx u c v).csis = s.csis := rfl
@[simp] theorem State.setCtx_sers (u c : Nat) (v : CtxInt) : (s.setCtx u c v).sers = s.sers := rfl
@[simp] theorem State.setCtx_serOut (u c : Nat) (v : CtxInt) : (s.setCtx u c v).serOut = s.serOut := rfl
@[simp] theorem State.setCtx_scTx (u c : Nat) (v : CtxInt) : (s.setCtx u c v).scTx = s.scTx := rfl
@[simp] theorem State.setCtx_sfTime (u c : Nat) (v : CtxInt) : (s.setCtx u c v).sfTime = s.sfTime := rfl
@[simp] theorem State.setCtx_exitKey (u c : Nat) (v : CtxInt) : (s.setCtx u c v).exitKey = s.exitKey := rfl
@[simp] theorem State.setCtx_islandHalted (u c : Nat) (v : CtxInt) : (s.setCtx u c v).islandHalted = s.islandHalted := rfl
@[simp] theorem State.setCtx_safeInHigh (u c : Nat) (v : CtxInt) : (s.setCtx u c v).safeInHigh = s.safeInHigh := rfl
@[simp] theorem State.setCtx_wdOn (u c : Nat) (v : CtxInt) : (s.setCtx u c v).wdOn = s.wdOn := rfl
@[simp] theorem State.setCtx_wdKicked (u c : Nat) (v : CtxInt) : (s.setCtx u c v).wdKicked = s.wdKicked := rfl
@[simp] theorem State.setCtx_wdAt (u c : Nat) (v : CtxInt) : (s.setCtx u c v).wdAt = s.wdAt := rfl
@[simp] theorem State.setCtx_wdNext (u c : Nat) (v : CtxInt) : (s.setCtx u c v).wdNext = s.wdNext := rfl
@[simp] theorem State.setCtx_stoPulse (u c : Nat) (v : CtxInt) : (s.setCtx u c v).stoPulse = s.stoPulse := rfl
@[simp] theorem State.setCtx_stoLast (u c : Nat) (v : CtxInt) : (s.setCtx u c v).stoLast = s.stoLast := rfl
@[simp] theorem State.setCtx_scs (u c : Nat) (v : CtxInt) : (s.setCtx u c v).scs = s.scs := rfl
@[simp] theorem State.setCtx_boot (u c : Nat) (v : CtxInt) : (s.setCtx u c v).boot = s.boot := rfl
@[simp] theorem State.setCtx_zeroing (u c : Nat) (v : CtxInt) : (s.setCtx u c v).zeroing = s.zeroing := rfl

@[simp] theorem State.setTile_pending (t : Nat) (v : TileSt) : (s.setTile t v).pending = s.pending := rfl
@[simp] theorem State.setTile_regs (t : Nat) (v : TileSt) : (s.setTile t v).regs = s.regs := rfl
@[simp] theorem State.setTile_mem (t : Nat) (v : TileSt) : (s.setTile t v).mem = s.mem := rfl
@[simp] theorem State.setTile_unknown (t : Nat) (v : TileSt) : (s.setTile t v).unknown = s.unknown := rfl
@[simp] theorem State.setTile_lostPages (t : Nat) (v : TileSt) : (s.setTile t v).lostPages = s.lostPages := rfl
@[simp] theorem State.setTile_ecc (t : Nat) (v : TileSt) : (s.setTile t v).ecc = s.ecc := rfl
@[simp] theorem State.setTile_wb (t : Nat) (v : TileSt) : (s.setTile t v).wb = s.wb := rfl
@[simp] theorem State.setTile_resv (t : Nat) (v : TileSt) : (s.setTile t v).resv = s.resv := rfl
@[simp] theorem State.setTile_scrub (t : Nat) (v : TileSt) : (s.setTile t v).scrub = s.scrub := rfl
@[simp] theorem State.setTile_answer (t : Nat) (v : TileSt) : (s.setTile t v).answer = s.answer := rfl
@[simp] theorem State.setTile_replies (t : Nat) (v : TileSt) : (s.setTile t v).replies = s.replies := rfl
@[simp] theorem State.setTile_outst (t : Nat) (v : TileSt) : (s.setTile t v).outst = s.outst := rfl
@[simp] theorem State.setTile_tagHold (t : Nat) (v : TileSt) : (s.setTile t v).tagHold = s.tagHold := rfl
@[simp] theorem State.setTile_acks (t : Nat) (v : TileSt) : (s.setTile t v).acks = s.acks := rfl
@[simp] theorem State.setTile_nextTag (t : Nat) (v : TileSt) : (s.setTile t v).nextTag = s.nextTag := rfl
@[simp] theorem State.setTile_hostOut (t : Nat) (v : TileSt) : (s.setTile t v).hostOut = s.hostOut := rfl
@[simp] theorem State.setTile_msgs (t : Nat) (v : TileSt) : (s.setTile t v).msgs = s.msgs := rfl
@[simp] theorem State.setTile_postAns (t : Nat) (v : TileSt) : (s.setTile t v).postAns = s.postAns := rfl
@[simp] theorem State.setTile_zlr (t : Nat) (v : TileSt) : (s.setTile t v).zlr = s.zlr := rfl
@[simp] theorem State.setTile_reports (t : Nat) (v : TileSt) : (s.setTile t v).reports = s.reports := rfl
@[simp] theorem State.setTile_islandIrq (t : Nat) (v : TileSt) : (s.setTile t v).islandIrq = s.islandIrq := rfl
@[simp] theorem State.setTile_aligned (t : Nat) (v : TileSt) : (s.setTile t v).aligned = s.aligned := rfl
@[simp] theorem State.setTile_sysrst (t : Nat) (v : TileSt) : (s.setTile t v).sysrst = s.sysrst := rfl
@[simp] theorem State.setTile_now (t : Nat) (v : TileSt) : (s.setTile t v).now = s.now := rfl
@[simp] theorem State.setTile_sysAcc (t : Nat) (v : TileSt) : (s.setTile t v).sysAcc = s.sysAcc := rfl
@[simp] theorem State.setTile_units (t : Nat) (v : TileSt) : (s.setTile t v).units = s.units := rfl
@[simp] theorem State.setTile_fw (t : Nat) (v : TileSt) : (s.setTile t v).fw = s.fw := rfl
@[simp] theorem State.setTile_fwArmed (t : Nat) (v : TileSt) : (s.setTile t v).fwArmed = s.fwArmed := rfl
@[simp] theorem State.setTile_fwLocked (t : Nat) (v : TileSt) : (s.setTile t v).fwLocked = s.fwLocked := rfl
@[simp] theorem State.setTile_ctxs (t : Nat) (v : TileSt) : (s.setTile t v).ctxs = s.ctxs := rfl
@[simp] theorem State.setTile_errHeld (t : Nat) (v : TileSt) : (s.setTile t v).errHeld = s.errHeld := rfl
@[simp] theorem State.setTile_rowStage (t : Nat) (v : TileSt) : (s.setTile t v).rowStage = s.rowStage := rfl
@[simp] theorem State.setTile_drones (t : Nat) (v : TileSt) : (s.setTile t v).drones = s.drones := rfl
@[simp] theorem State.setTile_events (t : Nat) (v : TileSt) : (s.setTile t v).events = s.events := rfl
@[simp] theorem State.setTile_latchUnread (t : Nat) (v : TileSt) : (s.setTile t v).latchUnread = s.latchUnread := rfl
@[simp] theorem State.setTile_latchJobs (t : Nat) (v : TileSt) : (s.setTile t v).latchJobs = s.latchJobs := rfl
@[simp] theorem State.setTile_freeCtr (t : Nat) (v : TileSt) : (s.setTile t v).freeCtr = s.freeCtr := rfl
@[simp] theorem State.setTile_meas (t : Nat) (v : TileSt) : (s.setTile t v).meas = s.meas := rfl
@[simp] theorem State.setTile_reed (t : Nat) (v : TileSt) : (s.setTile t v).reed = s.reed := rfl
@[simp] theorem State.setTile_qstat (t : Nat) (v : TileSt) : (s.setTile t v).qstat = s.qstat := rfl
@[simp] theorem State.setTile_tokWait (t : Nat) (v : TileSt) : (s.setTile t v).tokWait = s.tokWait := rfl
@[simp] theorem State.setTile_opChange (t : Nat) (v : TileSt) : (s.setTile t v).opChange = s.opChange := rfl
@[simp] theorem State.setTile_vid (t : Nat) (v : TileSt) : (s.setTile t v).vid = s.vid := rfl
@[simp] theorem State.setTile_vok (t : Nat) (v : TileSt) : (s.setTile t v).vok = s.vok := rfl
@[simp] theorem State.setTile_vidChanged (t : Nat) (v : TileSt) : (s.setTile t v).vidChanged = s.vidChanged := rfl
@[simp] theorem State.setTile_sensAge (t : Nat) (v : TileSt) : (s.setTile t v).sensAge = s.sensAge := rfl
@[simp] theorem State.setTile_shutRun (t : Nat) (v : TileSt) : (s.setTile t v).shutRun = s.shutRun := rfl
@[simp] theorem State.setTile_opSince (t : Nat) (v : TileSt) : (s.setTile t v).opSince = s.opSince := rfl
@[simp] theorem State.setTile_used (t : Nat) (v : TileSt) : (s.setTile t v).used = s.used := rfl
@[simp] theorem State.setTile_step (t : Nat) (v : TileSt) : (s.setTile t v).step = s.step := rfl
@[simp] theorem State.setTile_stepStage (t : Nat) (v : TileSt) : (s.setTile t v).stepStage = s.stepStage := rfl
@[simp] theorem State.setTile_genJob (t : Nat) (v : TileSt) : (s.setTile t v).genJob = s.genJob := rfl
@[simp] theorem State.setTile_sigs (t : Nat) (v : TileSt) : (s.setTile t v).sigs = s.sigs := rfl
@[simp] theorem State.setTile_sigsIn (t : Nat) (v : TileSt) : (s.setTile t v).sigsIn = s.sigsIn := rfl
@[simp] theorem State.setTile_lsStepHi (t : Nat) (v : TileSt) : (s.setTile t v).lsStepHi = s.lsStepHi := rfl
@[simp] theorem State.setTile_lsDead (t : Nat) (v : TileSt) : (s.setTile t v).lsDead = s.lsDead := rfl
@[simp] theorem State.setTile_joinFp (t : Nat) (v : TileSt) : (s.setTile t v).joinFp = s.joinFp := rfl
@[simp] theorem State.setTile_axes (t : Nat) (v : TileSt) : (s.setTile t v).axes = s.axes := rfl
@[simp] theorem State.setTile_sds (t : Nat) (v : TileSt) : (s.setTile t v).sds = s.sds := rfl
@[simp] theorem State.setTile_slots (t : Nat) (v : TileSt) : (s.setTile t v).slots = s.slots := rfl
@[simp] theorem State.setTile_sps (t : Nat) (v : TileSt) : (s.setTile t v).sps = s.sps := rfl
@[simp] theorem State.setTile_injs (t : Nat) (v : TileSt) : (s.setTile t v).injs = s.injs := rfl
@[simp] theorem State.setTile_caps (t : Nat) (v : TileSt) : (s.setTile t v).caps = s.caps := rfl
@[simp] theorem State.setTile_lanes (t : Nat) (v : TileSt) : (s.setTile t v).lanes = s.lanes := rfl
@[simp] theorem State.setTile_chnRuns (t : Nat) (v : TileSt) : (s.setTile t v).chnRuns = s.chnRuns := rfl
@[simp] theorem State.setTile_cwqSel (t : Nat) (v : TileSt) : (s.setTile t v).cwqSel = s.cwqSel := rfl
@[simp] theorem State.setTile_pcms (t : Nat) (v : TileSt) : (s.setTile t v).pcms = s.pcms := rfl
@[simp] theorem State.setTile_pcs (t : Nat) (v : TileSt) : (s.setTile t v).pcs = s.pcs := rfl
@[simp] theorem State.setTile_lls (t : Nat) (v : TileSt) : (s.setTile t v).lls = s.lls := rfl
@[simp] theorem State.setTile_lchs (t : Nat) (v : TileSt) : (s.setTile t v).lchs = s.lchs := rfl
@[simp] theorem State.setTile_fes (t : Nat) (v : TileSt) : (s.setTile t v).fes = s.fes := rfl
@[simp] theorem State.setTile_fioLv (t : Nat) (v : TileSt) : (s.setTile t v).fioLv = s.fioLv := rfl
@[simp] theorem State.setTile_ras (t : Nat) (v : TileSt) : (s.setTile t v).ras = s.ras := rfl
@[simp] theorem State.setTile_sqs (t : Nat) (v : TileSt) : (s.setTile t v).sqs = s.sqs := rfl
@[simp] theorem State.setTile_cqs (t : Nat) (v : TileSt) : (s.setTile t v).cqs = s.cqs := rfl
@[simp] theorem State.setTile_dbVals (t : Nat) (v : TileSt) : (s.setTile t v).dbVals = s.dbVals := rfl
@[simp] theorem State.setTile_msix (t : Nat) (v : TileSt) : (s.setTile t v).msix = s.msix := rfl
@[simp] theorem State.setTile_msixPend (t : Nat) (v : TileSt) : (s.setTile t v).msixPend = s.msixPend := rfl
@[simp] theorem State.setTile_coreIrq (t : Nat) (v : TileSt) : (s.setTile t v).coreIrq = s.coreIrq := rfl
@[simp] theorem State.setTile_pcieUp (t : Nat) (v : TileSt) : (s.setTile t v).pcieUp = s.pcieUp := rfl
@[simp] theorem State.setTile_d3hot (t : Nat) (v : TileSt) : (s.setTile t v).d3hot = s.d3hot := rfl
@[simp] theorem State.setTile_ports (t : Nat) (v : TileSt) : (s.setTile t v).ports = s.ports := rfl
@[simp] theorem State.setTile_tokOut (t : Nat) (v : TileSt) : (s.setTile t v).tokOut = s.tokOut := rfl
@[simp] theorem State.setTile_fwmsgs (t : Nat) (v : TileSt) : (s.setTile t v).fwmsgs = s.fwmsgs := rfl
@[simp] theorem State.setTile_badMsg (t : Nat) (v : TileSt) : (s.setTile t v).badMsg = s.badMsg := rfl
@[simp] theorem State.setTile_leaderAt (t : Nat) (v : TileSt) : (s.setTile t v).leaderAt = s.leaderAt := rfl
@[simp] theorem State.setTile_sweep (t : Nat) (v : TileSt) : (s.setTile t v).sweep = s.sweep := rfl
@[simp] theorem State.setTile_frDone (t : Nat) (v : TileSt) : (s.setTile t v).frDone = s.frDone := rfl
@[simp] theorem State.setTile_qbv (t : Nat) (v : TileSt) : (s.setTile t v).qbv = s.qbv := rfl
@[simp] theorem State.setTile_ethTurn (t : Nat) (v : TileSt) : (s.setTile t v).ethTurn = s.ethTurn := rfl
@[simp] theorem State.setTile_ethOut (t : Nat) (v : TileSt) : (s.setTile t v).ethOut = s.ethOut := rfl
@[simp] theorem State.setTile_canOut (t : Nat) (v : TileSt) : (s.setTile t v).canOut = s.canOut := rfl
@[simp] theorem State.setTile_canRecover (t : Nat) (v : TileSt) : (s.setTile t v).canRecover = s.canRecover := rfl
@[simp] theorem State.setTile_csis (t : Nat) (v : TileSt) : (s.setTile t v).csis = s.csis := rfl
@[simp] theorem State.setTile_sers (t : Nat) (v : TileSt) : (s.setTile t v).sers = s.sers := rfl
@[simp] theorem State.setTile_serOut (t : Nat) (v : TileSt) : (s.setTile t v).serOut = s.serOut := rfl
@[simp] theorem State.setTile_scTx (t : Nat) (v : TileSt) : (s.setTile t v).scTx = s.scTx := rfl
@[simp] theorem State.setTile_sfTime (t : Nat) (v : TileSt) : (s.setTile t v).sfTime = s.sfTime := rfl
@[simp] theorem State.setTile_exitKey (t : Nat) (v : TileSt) : (s.setTile t v).exitKey = s.exitKey := rfl
@[simp] theorem State.setTile_islandHalted (t : Nat) (v : TileSt) : (s.setTile t v).islandHalted = s.islandHalted := rfl
@[simp] theorem State.setTile_safeInHigh (t : Nat) (v : TileSt) : (s.setTile t v).safeInHigh = s.safeInHigh := rfl
@[simp] theorem State.setTile_wdOn (t : Nat) (v : TileSt) : (s.setTile t v).wdOn = s.wdOn := rfl
@[simp] theorem State.setTile_wdKicked (t : Nat) (v : TileSt) : (s.setTile t v).wdKicked = s.wdKicked := rfl
@[simp] theorem State.setTile_wdAt (t : Nat) (v : TileSt) : (s.setTile t v).wdAt = s.wdAt := rfl
@[simp] theorem State.setTile_wdNext (t : Nat) (v : TileSt) : (s.setTile t v).wdNext = s.wdNext := rfl
@[simp] theorem State.setTile_stoPulse (t : Nat) (v : TileSt) : (s.setTile t v).stoPulse = s.stoPulse := rfl
@[simp] theorem State.setTile_stoLast (t : Nat) (v : TileSt) : (s.setTile t v).stoLast = s.stoLast := rfl
@[simp] theorem State.setTile_scs (t : Nat) (v : TileSt) : (s.setTile t v).scs = s.scs := rfl
@[simp] theorem State.setTile_boot (t : Nat) (v : TileSt) : (s.setTile t v).boot = s.boot := rfl
@[simp] theorem State.setTile_zeroing (t : Nat) (v : TileSt) : (s.setTile t v).zeroing = s.zeroing := rfl

@[simp] theorem State.setAxis_pending (n : Nat) (v : AxisSt) : (s.setAxis n v).pending = s.pending := rfl
@[simp] theorem State.setAxis_regs (n : Nat) (v : AxisSt) : (s.setAxis n v).regs = s.regs := rfl
@[simp] theorem State.setAxis_mem (n : Nat) (v : AxisSt) : (s.setAxis n v).mem = s.mem := rfl
@[simp] theorem State.setAxis_unknown (n : Nat) (v : AxisSt) : (s.setAxis n v).unknown = s.unknown := rfl
@[simp] theorem State.setAxis_lostPages (n : Nat) (v : AxisSt) : (s.setAxis n v).lostPages = s.lostPages := rfl
@[simp] theorem State.setAxis_ecc (n : Nat) (v : AxisSt) : (s.setAxis n v).ecc = s.ecc := rfl
@[simp] theorem State.setAxis_wb (n : Nat) (v : AxisSt) : (s.setAxis n v).wb = s.wb := rfl
@[simp] theorem State.setAxis_resv (n : Nat) (v : AxisSt) : (s.setAxis n v).resv = s.resv := rfl
@[simp] theorem State.setAxis_scrub (n : Nat) (v : AxisSt) : (s.setAxis n v).scrub = s.scrub := rfl
@[simp] theorem State.setAxis_answer (n : Nat) (v : AxisSt) : (s.setAxis n v).answer = s.answer := rfl
@[simp] theorem State.setAxis_replies (n : Nat) (v : AxisSt) : (s.setAxis n v).replies = s.replies := rfl
@[simp] theorem State.setAxis_outst (n : Nat) (v : AxisSt) : (s.setAxis n v).outst = s.outst := rfl
@[simp] theorem State.setAxis_tagHold (n : Nat) (v : AxisSt) : (s.setAxis n v).tagHold = s.tagHold := rfl
@[simp] theorem State.setAxis_acks (n : Nat) (v : AxisSt) : (s.setAxis n v).acks = s.acks := rfl
@[simp] theorem State.setAxis_nextTag (n : Nat) (v : AxisSt) : (s.setAxis n v).nextTag = s.nextTag := rfl
@[simp] theorem State.setAxis_hostOut (n : Nat) (v : AxisSt) : (s.setAxis n v).hostOut = s.hostOut := rfl
@[simp] theorem State.setAxis_msgs (n : Nat) (v : AxisSt) : (s.setAxis n v).msgs = s.msgs := rfl
@[simp] theorem State.setAxis_postAns (n : Nat) (v : AxisSt) : (s.setAxis n v).postAns = s.postAns := rfl
@[simp] theorem State.setAxis_zlr (n : Nat) (v : AxisSt) : (s.setAxis n v).zlr = s.zlr := rfl
@[simp] theorem State.setAxis_reports (n : Nat) (v : AxisSt) : (s.setAxis n v).reports = s.reports := rfl
@[simp] theorem State.setAxis_islandIrq (n : Nat) (v : AxisSt) : (s.setAxis n v).islandIrq = s.islandIrq := rfl
@[simp] theorem State.setAxis_aligned (n : Nat) (v : AxisSt) : (s.setAxis n v).aligned = s.aligned := rfl
@[simp] theorem State.setAxis_sysrst (n : Nat) (v : AxisSt) : (s.setAxis n v).sysrst = s.sysrst := rfl
@[simp] theorem State.setAxis_now (n : Nat) (v : AxisSt) : (s.setAxis n v).now = s.now := rfl
@[simp] theorem State.setAxis_sysAcc (n : Nat) (v : AxisSt) : (s.setAxis n v).sysAcc = s.sysAcc := rfl
@[simp] theorem State.setAxis_units (n : Nat) (v : AxisSt) : (s.setAxis n v).units = s.units := rfl
@[simp] theorem State.setAxis_fw (n : Nat) (v : AxisSt) : (s.setAxis n v).fw = s.fw := rfl
@[simp] theorem State.setAxis_fwArmed (n : Nat) (v : AxisSt) : (s.setAxis n v).fwArmed = s.fwArmed := rfl
@[simp] theorem State.setAxis_fwLocked (n : Nat) (v : AxisSt) : (s.setAxis n v).fwLocked = s.fwLocked := rfl
@[simp] theorem State.setAxis_ctxs (n : Nat) (v : AxisSt) : (s.setAxis n v).ctxs = s.ctxs := rfl
@[simp] theorem State.setAxis_errHeld (n : Nat) (v : AxisSt) : (s.setAxis n v).errHeld = s.errHeld := rfl
@[simp] theorem State.setAxis_rowStage (n : Nat) (v : AxisSt) : (s.setAxis n v).rowStage = s.rowStage := rfl
@[simp] theorem State.setAxis_drones (n : Nat) (v : AxisSt) : (s.setAxis n v).drones = s.drones := rfl
@[simp] theorem State.setAxis_events (n : Nat) (v : AxisSt) : (s.setAxis n v).events = s.events := rfl
@[simp] theorem State.setAxis_latchUnread (n : Nat) (v : AxisSt) : (s.setAxis n v).latchUnread = s.latchUnread := rfl
@[simp] theorem State.setAxis_latchJobs (n : Nat) (v : AxisSt) : (s.setAxis n v).latchJobs = s.latchJobs := rfl
@[simp] theorem State.setAxis_freeCtr (n : Nat) (v : AxisSt) : (s.setAxis n v).freeCtr = s.freeCtr := rfl
@[simp] theorem State.setAxis_meas (n : Nat) (v : AxisSt) : (s.setAxis n v).meas = s.meas := rfl
@[simp] theorem State.setAxis_reed (n : Nat) (v : AxisSt) : (s.setAxis n v).reed = s.reed := rfl
@[simp] theorem State.setAxis_qstat (n : Nat) (v : AxisSt) : (s.setAxis n v).qstat = s.qstat := rfl
@[simp] theorem State.setAxis_tokWait (n : Nat) (v : AxisSt) : (s.setAxis n v).tokWait = s.tokWait := rfl
@[simp] theorem State.setAxis_opChange (n : Nat) (v : AxisSt) : (s.setAxis n v).opChange = s.opChange := rfl
@[simp] theorem State.setAxis_vid (n : Nat) (v : AxisSt) : (s.setAxis n v).vid = s.vid := rfl
@[simp] theorem State.setAxis_vok (n : Nat) (v : AxisSt) : (s.setAxis n v).vok = s.vok := rfl
@[simp] theorem State.setAxis_vidChanged (n : Nat) (v : AxisSt) : (s.setAxis n v).vidChanged = s.vidChanged := rfl
@[simp] theorem State.setAxis_sensAge (n : Nat) (v : AxisSt) : (s.setAxis n v).sensAge = s.sensAge := rfl
@[simp] theorem State.setAxis_shutRun (n : Nat) (v : AxisSt) : (s.setAxis n v).shutRun = s.shutRun := rfl
@[simp] theorem State.setAxis_opSince (n : Nat) (v : AxisSt) : (s.setAxis n v).opSince = s.opSince := rfl
@[simp] theorem State.setAxis_used (n : Nat) (v : AxisSt) : (s.setAxis n v).used = s.used := rfl
@[simp] theorem State.setAxis_step (n : Nat) (v : AxisSt) : (s.setAxis n v).step = s.step := rfl
@[simp] theorem State.setAxis_stepStage (n : Nat) (v : AxisSt) : (s.setAxis n v).stepStage = s.stepStage := rfl
@[simp] theorem State.setAxis_genJob (n : Nat) (v : AxisSt) : (s.setAxis n v).genJob = s.genJob := rfl
@[simp] theorem State.setAxis_sigs (n : Nat) (v : AxisSt) : (s.setAxis n v).sigs = s.sigs := rfl
@[simp] theorem State.setAxis_sigsIn (n : Nat) (v : AxisSt) : (s.setAxis n v).sigsIn = s.sigsIn := rfl
@[simp] theorem State.setAxis_lsStepHi (n : Nat) (v : AxisSt) : (s.setAxis n v).lsStepHi = s.lsStepHi := rfl
@[simp] theorem State.setAxis_lsDead (n : Nat) (v : AxisSt) : (s.setAxis n v).lsDead = s.lsDead := rfl
@[simp] theorem State.setAxis_joinFp (n : Nat) (v : AxisSt) : (s.setAxis n v).joinFp = s.joinFp := rfl
@[simp] theorem State.setAxis_tiles (n : Nat) (v : AxisSt) : (s.setAxis n v).tiles = s.tiles := rfl
@[simp] theorem State.setAxis_sds (n : Nat) (v : AxisSt) : (s.setAxis n v).sds = s.sds := rfl
@[simp] theorem State.setAxis_slots (n : Nat) (v : AxisSt) : (s.setAxis n v).slots = s.slots := rfl
@[simp] theorem State.setAxis_sps (n : Nat) (v : AxisSt) : (s.setAxis n v).sps = s.sps := rfl
@[simp] theorem State.setAxis_injs (n : Nat) (v : AxisSt) : (s.setAxis n v).injs = s.injs := rfl
@[simp] theorem State.setAxis_caps (n : Nat) (v : AxisSt) : (s.setAxis n v).caps = s.caps := rfl
@[simp] theorem State.setAxis_lanes (n : Nat) (v : AxisSt) : (s.setAxis n v).lanes = s.lanes := rfl
@[simp] theorem State.setAxis_chnRuns (n : Nat) (v : AxisSt) : (s.setAxis n v).chnRuns = s.chnRuns := rfl
@[simp] theorem State.setAxis_cwqSel (n : Nat) (v : AxisSt) : (s.setAxis n v).cwqSel = s.cwqSel := rfl
@[simp] theorem State.setAxis_pcms (n : Nat) (v : AxisSt) : (s.setAxis n v).pcms = s.pcms := rfl
@[simp] theorem State.setAxis_pcs (n : Nat) (v : AxisSt) : (s.setAxis n v).pcs = s.pcs := rfl
@[simp] theorem State.setAxis_lls (n : Nat) (v : AxisSt) : (s.setAxis n v).lls = s.lls := rfl
@[simp] theorem State.setAxis_lchs (n : Nat) (v : AxisSt) : (s.setAxis n v).lchs = s.lchs := rfl
@[simp] theorem State.setAxis_fes (n : Nat) (v : AxisSt) : (s.setAxis n v).fes = s.fes := rfl
@[simp] theorem State.setAxis_fioLv (n : Nat) (v : AxisSt) : (s.setAxis n v).fioLv = s.fioLv := rfl
@[simp] theorem State.setAxis_ras (n : Nat) (v : AxisSt) : (s.setAxis n v).ras = s.ras := rfl
@[simp] theorem State.setAxis_sqs (n : Nat) (v : AxisSt) : (s.setAxis n v).sqs = s.sqs := rfl
@[simp] theorem State.setAxis_cqs (n : Nat) (v : AxisSt) : (s.setAxis n v).cqs = s.cqs := rfl
@[simp] theorem State.setAxis_dbVals (n : Nat) (v : AxisSt) : (s.setAxis n v).dbVals = s.dbVals := rfl
@[simp] theorem State.setAxis_msix (n : Nat) (v : AxisSt) : (s.setAxis n v).msix = s.msix := rfl
@[simp] theorem State.setAxis_msixPend (n : Nat) (v : AxisSt) : (s.setAxis n v).msixPend = s.msixPend := rfl
@[simp] theorem State.setAxis_coreIrq (n : Nat) (v : AxisSt) : (s.setAxis n v).coreIrq = s.coreIrq := rfl
@[simp] theorem State.setAxis_pcieUp (n : Nat) (v : AxisSt) : (s.setAxis n v).pcieUp = s.pcieUp := rfl
@[simp] theorem State.setAxis_d3hot (n : Nat) (v : AxisSt) : (s.setAxis n v).d3hot = s.d3hot := rfl
@[simp] theorem State.setAxis_ports (n : Nat) (v : AxisSt) : (s.setAxis n v).ports = s.ports := rfl
@[simp] theorem State.setAxis_tokOut (n : Nat) (v : AxisSt) : (s.setAxis n v).tokOut = s.tokOut := rfl
@[simp] theorem State.setAxis_fwmsgs (n : Nat) (v : AxisSt) : (s.setAxis n v).fwmsgs = s.fwmsgs := rfl
@[simp] theorem State.setAxis_badMsg (n : Nat) (v : AxisSt) : (s.setAxis n v).badMsg = s.badMsg := rfl
@[simp] theorem State.setAxis_leaderAt (n : Nat) (v : AxisSt) : (s.setAxis n v).leaderAt = s.leaderAt := rfl
@[simp] theorem State.setAxis_sweep (n : Nat) (v : AxisSt) : (s.setAxis n v).sweep = s.sweep := rfl
@[simp] theorem State.setAxis_frDone (n : Nat) (v : AxisSt) : (s.setAxis n v).frDone = s.frDone := rfl
@[simp] theorem State.setAxis_qbv (n : Nat) (v : AxisSt) : (s.setAxis n v).qbv = s.qbv := rfl
@[simp] theorem State.setAxis_ethTurn (n : Nat) (v : AxisSt) : (s.setAxis n v).ethTurn = s.ethTurn := rfl
@[simp] theorem State.setAxis_ethOut (n : Nat) (v : AxisSt) : (s.setAxis n v).ethOut = s.ethOut := rfl
@[simp] theorem State.setAxis_canOut (n : Nat) (v : AxisSt) : (s.setAxis n v).canOut = s.canOut := rfl
@[simp] theorem State.setAxis_canRecover (n : Nat) (v : AxisSt) : (s.setAxis n v).canRecover = s.canRecover := rfl
@[simp] theorem State.setAxis_csis (n : Nat) (v : AxisSt) : (s.setAxis n v).csis = s.csis := rfl
@[simp] theorem State.setAxis_sers (n : Nat) (v : AxisSt) : (s.setAxis n v).sers = s.sers := rfl
@[simp] theorem State.setAxis_serOut (n : Nat) (v : AxisSt) : (s.setAxis n v).serOut = s.serOut := rfl
@[simp] theorem State.setAxis_scTx (n : Nat) (v : AxisSt) : (s.setAxis n v).scTx = s.scTx := rfl
@[simp] theorem State.setAxis_sfTime (n : Nat) (v : AxisSt) : (s.setAxis n v).sfTime = s.sfTime := rfl
@[simp] theorem State.setAxis_exitKey (n : Nat) (v : AxisSt) : (s.setAxis n v).exitKey = s.exitKey := rfl
@[simp] theorem State.setAxis_islandHalted (n : Nat) (v : AxisSt) : (s.setAxis n v).islandHalted = s.islandHalted := rfl
@[simp] theorem State.setAxis_safeInHigh (n : Nat) (v : AxisSt) : (s.setAxis n v).safeInHigh = s.safeInHigh := rfl
@[simp] theorem State.setAxis_wdOn (n : Nat) (v : AxisSt) : (s.setAxis n v).wdOn = s.wdOn := rfl
@[simp] theorem State.setAxis_wdKicked (n : Nat) (v : AxisSt) : (s.setAxis n v).wdKicked = s.wdKicked := rfl
@[simp] theorem State.setAxis_wdAt (n : Nat) (v : AxisSt) : (s.setAxis n v).wdAt = s.wdAt := rfl
@[simp] theorem State.setAxis_wdNext (n : Nat) (v : AxisSt) : (s.setAxis n v).wdNext = s.wdNext := rfl
@[simp] theorem State.setAxis_stoPulse (n : Nat) (v : AxisSt) : (s.setAxis n v).stoPulse = s.stoPulse := rfl
@[simp] theorem State.setAxis_stoLast (n : Nat) (v : AxisSt) : (s.setAxis n v).stoLast = s.stoLast := rfl
@[simp] theorem State.setAxis_scs (n : Nat) (v : AxisSt) : (s.setAxis n v).scs = s.scs := rfl
@[simp] theorem State.setAxis_boot (n : Nat) (v : AxisSt) : (s.setAxis n v).boot = s.boot := rfl
@[simp] theorem State.setAxis_zeroing (n : Nat) (v : AxisSt) : (s.setAxis n v).zeroing = s.zeroing := rfl

@[simp] theorem State.putByte_pending (a : Nat) (v : Byte) : (s.putByte a v).pending = s.pending := rfl
@[simp] theorem State.putByte_regs (a : Nat) (v : Byte) : (s.putByte a v).regs = s.regs := rfl
@[simp] theorem State.putByte_unknown (a : Nat) (v : Byte) : (s.putByte a v).unknown = s.unknown := rfl
@[simp] theorem State.putByte_lostPages (a : Nat) (v : Byte) : (s.putByte a v).lostPages = s.lostPages := rfl
@[simp] theorem State.putByte_ecc (a : Nat) (v : Byte) : (s.putByte a v).ecc = s.ecc := rfl
@[simp] theorem State.putByte_wb (a : Nat) (v : Byte) : (s.putByte a v).wb = s.wb := rfl
@[simp] theorem State.putByte_resv (a : Nat) (v : Byte) : (s.putByte a v).resv = s.resv := rfl
@[simp] theorem State.putByte_scrub (a : Nat) (v : Byte) : (s.putByte a v).scrub = s.scrub := rfl
@[simp] theorem State.putByte_answer (a : Nat) (v : Byte) : (s.putByte a v).answer = s.answer := rfl
@[simp] theorem State.putByte_replies (a : Nat) (v : Byte) : (s.putByte a v).replies = s.replies := rfl
@[simp] theorem State.putByte_outst (a : Nat) (v : Byte) : (s.putByte a v).outst = s.outst := rfl
@[simp] theorem State.putByte_tagHold (a : Nat) (v : Byte) : (s.putByte a v).tagHold = s.tagHold := rfl
@[simp] theorem State.putByte_acks (a : Nat) (v : Byte) : (s.putByte a v).acks = s.acks := rfl
@[simp] theorem State.putByte_nextTag (a : Nat) (v : Byte) : (s.putByte a v).nextTag = s.nextTag := rfl
@[simp] theorem State.putByte_hostOut (a : Nat) (v : Byte) : (s.putByte a v).hostOut = s.hostOut := rfl
@[simp] theorem State.putByte_msgs (a : Nat) (v : Byte) : (s.putByte a v).msgs = s.msgs := rfl
@[simp] theorem State.putByte_postAns (a : Nat) (v : Byte) : (s.putByte a v).postAns = s.postAns := rfl
@[simp] theorem State.putByte_zlr (a : Nat) (v : Byte) : (s.putByte a v).zlr = s.zlr := rfl
@[simp] theorem State.putByte_reports (a : Nat) (v : Byte) : (s.putByte a v).reports = s.reports := rfl
@[simp] theorem State.putByte_islandIrq (a : Nat) (v : Byte) : (s.putByte a v).islandIrq = s.islandIrq := rfl
@[simp] theorem State.putByte_aligned (a : Nat) (v : Byte) : (s.putByte a v).aligned = s.aligned := rfl
@[simp] theorem State.putByte_sysrst (a : Nat) (v : Byte) : (s.putByte a v).sysrst = s.sysrst := rfl
@[simp] theorem State.putByte_now (a : Nat) (v : Byte) : (s.putByte a v).now = s.now := rfl
@[simp] theorem State.putByte_sysAcc (a : Nat) (v : Byte) : (s.putByte a v).sysAcc = s.sysAcc := rfl
@[simp] theorem State.putByte_units (a : Nat) (v : Byte) : (s.putByte a v).units = s.units := rfl
@[simp] theorem State.putByte_fw (a : Nat) (v : Byte) : (s.putByte a v).fw = s.fw := rfl
@[simp] theorem State.putByte_fwArmed (a : Nat) (v : Byte) : (s.putByte a v).fwArmed = s.fwArmed := rfl
@[simp] theorem State.putByte_fwLocked (a : Nat) (v : Byte) : (s.putByte a v).fwLocked = s.fwLocked := rfl
@[simp] theorem State.putByte_ctxs (a : Nat) (v : Byte) : (s.putByte a v).ctxs = s.ctxs := rfl
@[simp] theorem State.putByte_errHeld (a : Nat) (v : Byte) : (s.putByte a v).errHeld = s.errHeld := rfl
@[simp] theorem State.putByte_rowStage (a : Nat) (v : Byte) : (s.putByte a v).rowStage = s.rowStage := rfl
@[simp] theorem State.putByte_drones (a : Nat) (v : Byte) : (s.putByte a v).drones = s.drones := rfl
@[simp] theorem State.putByte_events (a : Nat) (v : Byte) : (s.putByte a v).events = s.events := rfl
@[simp] theorem State.putByte_latchUnread (a : Nat) (v : Byte) : (s.putByte a v).latchUnread = s.latchUnread := rfl
@[simp] theorem State.putByte_latchJobs (a : Nat) (v : Byte) : (s.putByte a v).latchJobs = s.latchJobs := rfl
@[simp] theorem State.putByte_freeCtr (a : Nat) (v : Byte) : (s.putByte a v).freeCtr = s.freeCtr := rfl
@[simp] theorem State.putByte_meas (a : Nat) (v : Byte) : (s.putByte a v).meas = s.meas := rfl
@[simp] theorem State.putByte_reed (a : Nat) (v : Byte) : (s.putByte a v).reed = s.reed := rfl
@[simp] theorem State.putByte_qstat (a : Nat) (v : Byte) : (s.putByte a v).qstat = s.qstat := rfl
@[simp] theorem State.putByte_tokWait (a : Nat) (v : Byte) : (s.putByte a v).tokWait = s.tokWait := rfl
@[simp] theorem State.putByte_opChange (a : Nat) (v : Byte) : (s.putByte a v).opChange = s.opChange := rfl
@[simp] theorem State.putByte_vid (a : Nat) (v : Byte) : (s.putByte a v).vid = s.vid := rfl
@[simp] theorem State.putByte_vok (a : Nat) (v : Byte) : (s.putByte a v).vok = s.vok := rfl
@[simp] theorem State.putByte_vidChanged (a : Nat) (v : Byte) : (s.putByte a v).vidChanged = s.vidChanged := rfl
@[simp] theorem State.putByte_sensAge (a : Nat) (v : Byte) : (s.putByte a v).sensAge = s.sensAge := rfl
@[simp] theorem State.putByte_shutRun (a : Nat) (v : Byte) : (s.putByte a v).shutRun = s.shutRun := rfl
@[simp] theorem State.putByte_opSince (a : Nat) (v : Byte) : (s.putByte a v).opSince = s.opSince := rfl
@[simp] theorem State.putByte_used (a : Nat) (v : Byte) : (s.putByte a v).used = s.used := rfl
@[simp] theorem State.putByte_step (a : Nat) (v : Byte) : (s.putByte a v).step = s.step := rfl
@[simp] theorem State.putByte_stepStage (a : Nat) (v : Byte) : (s.putByte a v).stepStage = s.stepStage := rfl
@[simp] theorem State.putByte_genJob (a : Nat) (v : Byte) : (s.putByte a v).genJob = s.genJob := rfl
@[simp] theorem State.putByte_sigs (a : Nat) (v : Byte) : (s.putByte a v).sigs = s.sigs := rfl
@[simp] theorem State.putByte_sigsIn (a : Nat) (v : Byte) : (s.putByte a v).sigsIn = s.sigsIn := rfl
@[simp] theorem State.putByte_lsStepHi (a : Nat) (v : Byte) : (s.putByte a v).lsStepHi = s.lsStepHi := rfl
@[simp] theorem State.putByte_lsDead (a : Nat) (v : Byte) : (s.putByte a v).lsDead = s.lsDead := rfl
@[simp] theorem State.putByte_joinFp (a : Nat) (v : Byte) : (s.putByte a v).joinFp = s.joinFp := rfl
@[simp] theorem State.putByte_tiles (a : Nat) (v : Byte) : (s.putByte a v).tiles = s.tiles := rfl
@[simp] theorem State.putByte_axes (a : Nat) (v : Byte) : (s.putByte a v).axes = s.axes := rfl
@[simp] theorem State.putByte_sds (a : Nat) (v : Byte) : (s.putByte a v).sds = s.sds := rfl
@[simp] theorem State.putByte_slots (a : Nat) (v : Byte) : (s.putByte a v).slots = s.slots := rfl
@[simp] theorem State.putByte_sps (a : Nat) (v : Byte) : (s.putByte a v).sps = s.sps := rfl
@[simp] theorem State.putByte_injs (a : Nat) (v : Byte) : (s.putByte a v).injs = s.injs := rfl
@[simp] theorem State.putByte_caps (a : Nat) (v : Byte) : (s.putByte a v).caps = s.caps := rfl
@[simp] theorem State.putByte_lanes (a : Nat) (v : Byte) : (s.putByte a v).lanes = s.lanes := rfl
@[simp] theorem State.putByte_chnRuns (a : Nat) (v : Byte) : (s.putByte a v).chnRuns = s.chnRuns := rfl
@[simp] theorem State.putByte_cwqSel (a : Nat) (v : Byte) : (s.putByte a v).cwqSel = s.cwqSel := rfl
@[simp] theorem State.putByte_pcms (a : Nat) (v : Byte) : (s.putByte a v).pcms = s.pcms := rfl
@[simp] theorem State.putByte_pcs (a : Nat) (v : Byte) : (s.putByte a v).pcs = s.pcs := rfl
@[simp] theorem State.putByte_lls (a : Nat) (v : Byte) : (s.putByte a v).lls = s.lls := rfl
@[simp] theorem State.putByte_lchs (a : Nat) (v : Byte) : (s.putByte a v).lchs = s.lchs := rfl
@[simp] theorem State.putByte_fes (a : Nat) (v : Byte) : (s.putByte a v).fes = s.fes := rfl
@[simp] theorem State.putByte_fioLv (a : Nat) (v : Byte) : (s.putByte a v).fioLv = s.fioLv := rfl
@[simp] theorem State.putByte_ras (a : Nat) (v : Byte) : (s.putByte a v).ras = s.ras := rfl
@[simp] theorem State.putByte_sqs (a : Nat) (v : Byte) : (s.putByte a v).sqs = s.sqs := rfl
@[simp] theorem State.putByte_cqs (a : Nat) (v : Byte) : (s.putByte a v).cqs = s.cqs := rfl
@[simp] theorem State.putByte_dbVals (a : Nat) (v : Byte) : (s.putByte a v).dbVals = s.dbVals := rfl
@[simp] theorem State.putByte_msix (a : Nat) (v : Byte) : (s.putByte a v).msix = s.msix := rfl
@[simp] theorem State.putByte_msixPend (a : Nat) (v : Byte) : (s.putByte a v).msixPend = s.msixPend := rfl
@[simp] theorem State.putByte_coreIrq (a : Nat) (v : Byte) : (s.putByte a v).coreIrq = s.coreIrq := rfl
@[simp] theorem State.putByte_pcieUp (a : Nat) (v : Byte) : (s.putByte a v).pcieUp = s.pcieUp := rfl
@[simp] theorem State.putByte_d3hot (a : Nat) (v : Byte) : (s.putByte a v).d3hot = s.d3hot := rfl
@[simp] theorem State.putByte_ports (a : Nat) (v : Byte) : (s.putByte a v).ports = s.ports := rfl
@[simp] theorem State.putByte_tokOut (a : Nat) (v : Byte) : (s.putByte a v).tokOut = s.tokOut := rfl
@[simp] theorem State.putByte_fwmsgs (a : Nat) (v : Byte) : (s.putByte a v).fwmsgs = s.fwmsgs := rfl
@[simp] theorem State.putByte_badMsg (a : Nat) (v : Byte) : (s.putByte a v).badMsg = s.badMsg := rfl
@[simp] theorem State.putByte_leaderAt (a : Nat) (v : Byte) : (s.putByte a v).leaderAt = s.leaderAt := rfl
@[simp] theorem State.putByte_sweep (a : Nat) (v : Byte) : (s.putByte a v).sweep = s.sweep := rfl
@[simp] theorem State.putByte_frDone (a : Nat) (v : Byte) : (s.putByte a v).frDone = s.frDone := rfl
@[simp] theorem State.putByte_qbv (a : Nat) (v : Byte) : (s.putByte a v).qbv = s.qbv := rfl
@[simp] theorem State.putByte_ethTurn (a : Nat) (v : Byte) : (s.putByte a v).ethTurn = s.ethTurn := rfl
@[simp] theorem State.putByte_ethOut (a : Nat) (v : Byte) : (s.putByte a v).ethOut = s.ethOut := rfl
@[simp] theorem State.putByte_canOut (a : Nat) (v : Byte) : (s.putByte a v).canOut = s.canOut := rfl
@[simp] theorem State.putByte_canRecover (a : Nat) (v : Byte) : (s.putByte a v).canRecover = s.canRecover := rfl
@[simp] theorem State.putByte_csis (a : Nat) (v : Byte) : (s.putByte a v).csis = s.csis := rfl
@[simp] theorem State.putByte_sers (a : Nat) (v : Byte) : (s.putByte a v).sers = s.sers := rfl
@[simp] theorem State.putByte_serOut (a : Nat) (v : Byte) : (s.putByte a v).serOut = s.serOut := rfl
@[simp] theorem State.putByte_scTx (a : Nat) (v : Byte) : (s.putByte a v).scTx = s.scTx := rfl
@[simp] theorem State.putByte_sfTime (a : Nat) (v : Byte) : (s.putByte a v).sfTime = s.sfTime := rfl
@[simp] theorem State.putByte_exitKey (a : Nat) (v : Byte) : (s.putByte a v).exitKey = s.exitKey := rfl
@[simp] theorem State.putByte_islandHalted (a : Nat) (v : Byte) : (s.putByte a v).islandHalted = s.islandHalted := rfl
@[simp] theorem State.putByte_safeInHigh (a : Nat) (v : Byte) : (s.putByte a v).safeInHigh = s.safeInHigh := rfl
@[simp] theorem State.putByte_wdOn (a : Nat) (v : Byte) : (s.putByte a v).wdOn = s.wdOn := rfl
@[simp] theorem State.putByte_wdKicked (a : Nat) (v : Byte) : (s.putByte a v).wdKicked = s.wdKicked := rfl
@[simp] theorem State.putByte_wdAt (a : Nat) (v : Byte) : (s.putByte a v).wdAt = s.wdAt := rfl
@[simp] theorem State.putByte_wdNext (a : Nat) (v : Byte) : (s.putByte a v).wdNext = s.wdNext := rfl
@[simp] theorem State.putByte_stoPulse (a : Nat) (v : Byte) : (s.putByte a v).stoPulse = s.stoPulse := rfl
@[simp] theorem State.putByte_stoLast (a : Nat) (v : Byte) : (s.putByte a v).stoLast = s.stoLast := rfl
@[simp] theorem State.putByte_scs (a : Nat) (v : Byte) : (s.putByte a v).scs = s.scs := rfl
@[simp] theorem State.putByte_boot (a : Nat) (v : Byte) : (s.putByte a v).boot = s.boot := rfl
@[simp] theorem State.putByte_zeroing (a : Nat) (v : Byte) : (s.putByte a v).zeroing = s.zeroing := rfl

/-! ### Register fields -/

@[simp] theorem State.report_rd (src detail : Nat) (y : Fld) : (s.report src detail).rd y = s.rd y := rfl
@[simp] theorem State.report_on (src detail : Nat) (y : Fld) : (s.report src detail).on y = s.on y := rfl
@[simp] theorem State.drawn_rd (y : Fld) : s.drawn.rd y = s.rd y := rfl
@[simp] theorem State.drawn_on (y : Fld) : s.drawn.on y = s.on y := rfl
@[simp] theorem State.sendFrom_rd (m src : Nat) (y : Fld) : (s.sendFrom m src).rd y = s.rd y := rfl
@[simp] theorem State.sendFrom_on (m src : Nat) (y : Fld) : (s.sendFrom m src).on y = s.on y := rfl
@[simp] theorem State.answers_rd (st : Status) (v : Nat) (l : List Byte) (y : Fld) : (s.answers st v l).rd y = s.rd y := rfl
@[simp] theorem State.answers_on (st : Status) (v : Nat) (l : List Byte) (y : Fld) : (s.answers st v l).on y = s.on y := rfl
@[simp] theorem State.answered_rd (st : Status) (v : Nat) (y : Fld) : (s.answered st v).rd y = s.rd y := rfl
@[simp] theorem State.answered_on (st : Status) (v : Nat) (y : Fld) : (s.answered st v).on y = s.on y := rfl
@[simp] theorem State.setUnit_rd (code : Nat) (v : UnitSt) (y : Fld) : (s.setUnit code v).rd y = s.rd y := rfl
@[simp] theorem State.setUnit_on (code : Nat) (v : UnitSt) (y : Fld) : (s.setUnit code v).on y = s.on y := rfl
@[simp] theorem State.setCtx_rd (u c : Nat) (v : CtxInt) (y : Fld) : (s.setCtx u c v).rd y = s.rd y := rfl
@[simp] theorem State.setCtx_on (u c : Nat) (v : CtxInt) (y : Fld) : (s.setCtx u c v).on y = s.on y := rfl
@[simp] theorem State.setTile_rd (t : Nat) (v : TileSt) (y : Fld) : (s.setTile t v).rd y = s.rd y := rfl
@[simp] theorem State.setTile_on (t : Nat) (v : TileSt) (y : Fld) : (s.setTile t v).on y = s.on y := rfl
@[simp] theorem State.setAxis_rd (n : Nat) (v : AxisSt) (y : Fld) : (s.setAxis n v).rd y = s.rd y := rfl
@[simp] theorem State.setAxis_on (n : Nat) (v : AxisSt) (y : Fld) : (s.setAxis n v).on y = s.on y := rfl
@[simp] theorem State.putByte_rd (a : Nat) (v : Byte) (y : Fld) : (s.putByte a v).rd y = s.rd y := rfl
@[simp] theorem State.putByte_on (a : Nat) (v : Byte) (y : Fld) : (s.putByte a v).on y = s.on y := rfl
@[simp] theorem State.setSd_rd (m : Nat) (v : SdSt) (y : Fld) : (s.setSd m v).rd y = s.rd y := rfl
@[simp] theorem State.setSd_on (m : Nat) (v : SdSt) (y : Fld) : (s.setSd m v).on y = s.on y := rfl
@[simp] theorem State.setSlot_rd (x : Nat) (v : SlotSt) (y : Fld) : (s.setSlot x v).rd y = s.rd y := rfl
@[simp] theorem State.setSlot_on (x : Nat) (v : SlotSt) (y : Fld) : (s.setSlot x v).on y = s.on y := rfl
@[simp] theorem State.setCap_rd (c : Nat) (v : CapSt) (y : Fld) : (s.setCap c v).rd y = s.rd y := rfl
@[simp] theorem State.setCap_on (c : Nat) (v : CapSt) (y : Fld) : (s.setCap c v).on y = s.on y := rfl
@[simp] theorem State.setInj_rd (i : Nat) (v : InjSt) (y : Fld) : (s.setInj i v).rd y = s.rd y := rfl
@[simp] theorem State.setInj_on (i : Nat) (v : InjSt) (y : Fld) : (s.setInj i v).on y = s.on y := rfl
@[simp] theorem State.setLane_rd (ln : Nat) (x : Option Nat) (y : Fld) : (s.setLane ln x).rd y = s.rd y := rfl
@[simp] theorem State.setLane_on (ln : Nat) (x : Option Nat) (y : Fld) : (s.setLane ln x).on y = s.on y := rfl
@[simp] theorem State.setSp_rd (c : Nat) (v : SpSt) (y : Fld) : (s.setSp c v).rd y = s.rd y := rfl
@[simp] theorem State.setSp_on (c : Nat) (v : SpSt) (y : Fld) : (s.setSp c v).on y = s.on y := rfl
@[simp] theorem State.setDrone_rd (d : Nat) (v : Drone) (y : Fld) : (s.setDrone d v).rd y = s.rd y := rfl
@[simp] theorem State.setDrone_on (d : Nat) (v : Drone) (y : Fld) : (s.setDrone d v).on y = s.on y := rfl
@[simp] theorem State.setQbv_rd (p : Nat) (v : QbvSt) (y : Fld) : (s.setQbv p v).rd y = s.rd y := rfl
@[simp] theorem State.setQbv_on (p : Nat) (v : QbvSt) (y : Fld) : (s.setQbv p v).on y = s.on y := rfl
@[simp] theorem State.setCsi_rd (r x : Nat) (v : CsiSt) (y : Fld) : (s.setCsi r x v).rd y = s.rd y := rfl
@[simp] theorem State.setCsi_on (r x : Nat) (v : CsiSt) (y : Fld) : (s.setCsi r x v).on y = s.on y := rfl
@[simp] theorem State.setFe_rd (e : Nat) (v : FeSt) (y : Fld) : (s.setFe e v).rd y = s.rd y := rfl
@[simp] theorem State.setFe_on (e : Nat) (v : FeSt) (y : Fld) : (s.setFe e v).on y = s.on y := rfl
@[simp] theorem State.setSq_rd (n q : Nat) (v : SqSt) (y : Fld) : (s.setSq n q v).rd y = s.rd y := rfl
@[simp] theorem State.setSq_on (n q : Nat) (v : SqSt) (y : Fld) : (s.setSq n q v).on y = s.on y := rfl
@[simp] theorem State.setCq_rd (n c : Nat) (v : CqSt) (y : Fld) : (s.setCq n c v).rd y = s.rd y := rfl
@[simp] theorem State.setCq_on (n c : Nat) (v : CqSt) (y : Fld) : (s.setCq n c v).on y = s.on y := rfl
@[simp] theorem State.setLl_rd (l : Nat) (v : LlSt) (y : Fld) : (s.setLl l v).rd y = s.rd y := rfl
@[simp] theorem State.setLl_on (l : Nat) (v : LlSt) (y : Fld) : (s.setLl l v).on y = s.on y := rfl
@[simp] theorem State.setLch_rd (i : Nat) (v : LchSt) (y : Fld) : (s.setLch i v).rd y = s.rd y := rfl
@[simp] theorem State.setLch_on (i : Nat) (v : LchSt) (y : Fld) : (s.setLch i v).on y = s.on y := rfl
@[simp] theorem State.setPcm_rd (r : Nat) (v : PcmSt) (y : Fld) : (s.setPcm r v).rd y = s.rd y := rfl
@[simp] theorem State.setPcm_on (r : Nat) (v : PcmSt) (y : Fld) : (s.setPcm r v).on y = s.on y := rfl
@[simp] theorem State.setPc_rd (n : Nat) (v : PcSt) (y : Fld) : (s.setPc n v).rd y = s.rd y := rfl
@[simp] theorem State.setPc_on (n : Nat) (v : PcSt) (y : Fld) : (s.setPc n v).on y = s.on y := rfl
@[simp] theorem State.setReed_rd (i : Nat) (v : ReedInst) (y : Fld) : (s.setReed i v).rd y = s.rd y := rfl
@[simp] theorem State.setReed_on (i : Nat) (v : ReedInst) (y : Fld) : (s.setReed i v).on y = s.on y := rfl
@[simp] theorem State.setSc_rd (c : Nat) (v : ScSt) (y : Fld) : (s.setSc c v).rd y = s.rd y := rfl
@[simp] theorem State.setSc_on (c : Nat) (v : ScSt) (y : Fld) : (s.setSc c v).on y = s.on y := rfl
@[simp] theorem State.setPort_rd (p : Nat) (v : PortSt) (y : Fld) : (s.setPort p v).rd y = s.rd y := rfl
@[simp] theorem State.setPort_on (p : Nat) (v : PortSt) (y : Fld) : (s.setPort p v).on y = s.on y := rfl
@[simp] theorem State.setQstat_rd (core v : Nat) (y : Fld) : (s.setQstat core v).rd y = s.rd y := rfl
@[simp] theorem State.setQstat_on (core v : Nat) (y : Fld) : (s.setQstat core v).on y = s.on y := rfl
@[simp] theorem State.setResv_rd (core g : Nat) (y : Fld) : (s.setResv core g).rd y = s.rd y := rfl
@[simp] theorem State.setResv_on (core g : Nat) (y : Fld) : (s.setResv core g).on y = s.on y := rfl

theorem rd_congr {s t : State} (h : t.regs = s.regs) (f : Fld) : t.rd f = s.rd f := by simp only [State.rd, h]
theorem on_congr {s t : State} (h : t.regs = s.regs) (f : Fld) : t.on f = s.on f := by simp only [State.on, State.rd, h]
theorem unitSt_congr {s t : State} (h : t.units = s.units) (u : Nat) : t.unitSt u = s.unitSt u := by simp only [State.unitSt, h]
theorem ctx_congr {s t : State} (h : t.ctxs = s.ctxs) (u c : Nat) : t.ctx u c = s.ctx u c := by simp only [State.ctx, h]
theorem tile_congr {s t : State} (h : t.tiles = s.tiles) (x : Nat) : t.tile x = s.tile x := by simp only [State.tile, h]
theorem axis_congr {s t : State} (h : t.axes = s.axes) (n : Nat) : t.axis n = s.axis n := by simp only [State.axis, h]
theorem getByte_congr {s t : State} (h : t.mem = s.mem) (hu : t.unknown = s.unknown) (hl : t.lostPages = s.lostPages) (a : Nat) :
    t.getByte a = s.getByte a := by
  unfold State.getByte State.unlisted State.isLost State.pageLost
  rw [h, hu, hl]

/-- A field holds what was put into it, cut to its width. -/
@[simp] theorem State.rd_wr_same (f : Fld) (v : Nat) : (s.wr f v).rd f = v % 2 ^ f.w := tget_tset_same _ _ _ _

/-- Putting a value into one field leaves the others. -/
theorem State.rd_wr_ne {f g : Fld} (v : Nat) (h : g.key ≠ f.key) : (s.wr f v).rd g = s.rd g := tget_tset_ne' _ _ _ _ h

/-- A field after a value is put into a field of the same width and reset value, the same or another. -/
theorem State.rd_wr {f g : Fld} (v : Nat) (hr : g.rst = f.rst) : (s.wr f v).rd g = if g.key = f.key then v % 2 ^ f.w else s.rd g := by
  split
  · next h => simp only [State.rd, State.wr, hr, h, tget_tset_same]
  · next h => exact s.rd_wr_ne v h

/-- The number of bits of a field bounds what is put into it. -/
theorem State.rd_wr_lt (f : Fld) (v : Nat) : (s.wr f v).rd f < 2 ^ f.w := by
  rw [State.rd_wr_same]; exact Nat.mod_lt _ (Nat.two_pow_pos _)

/-! ### Tables and lists of units -/

@[simp] theorem State.wr_unitSt (f : Fld) (v : Nat) (x : Nat) : (s.wr f v).unitSt x = s.unitSt x := rfl
@[simp] theorem State.report_unitSt (src detail : Nat) (x : Nat) : (s.report src detail).unitSt x = s.unitSt x := rfl
@[simp] theorem State.drawn_unitSt (x : Nat) : s.drawn.unitSt x = s.unitSt x := rfl
@[simp] theorem State.sendFrom_unitSt (m src : Nat) (x : Nat) : (s.sendFrom m src).unitSt x = s.unitSt x := rfl
@[simp] theorem State.answers_unitSt (st : Status) (v : Nat) (l : List Byte) (x : Nat) : (s.answers st v l).unitSt x = s.unitSt x := rfl
@[simp] theorem State.answered_unitSt (st : Status) (v : Nat) (x : Nat) : (s.answered st v).unitSt x = s.unitSt x := rfl
@[simp] theorem State.setCtx_unitSt (u c : Nat) (v : CtxInt) (x : Nat) : (s.setCtx u c v).unitSt x = s.unitSt x := rfl
@[simp] theorem State.setTile_unitSt (t : Nat) (v : TileSt) (x : Nat) : (s.setTile t v).unitSt x = s.unitSt x := rfl
@[simp] theorem State.setAxis_unitSt (n : Nat) (v : AxisSt) (x : Nat) : (s.setAxis n v).unitSt x = s.unitSt x := rfl
@[simp] theorem State.putByte_unitSt (a : Nat) (v : Byte) (x : Nat) : (s.putByte a v).unitSt x = s.unitSt x := rfl
@[simp] theorem State.setSd_unitSt (m : Nat) (v : SdSt) (x : Nat) : (s.setSd m v).unitSt x = s.unitSt x := rfl
@[simp] theorem State.setSlot_unitSt (z : Nat) (v : SlotSt) (x : Nat) : (s.setSlot z v).unitSt x = s.unitSt x := rfl
@[simp] theorem State.setCap_unitSt (c : Nat) (v : CapSt) (x : Nat) : (s.setCap c v).unitSt x = s.unitSt x := rfl
@[simp] theorem State.setInj_unitSt (i : Nat) (v : InjSt) (x : Nat) : (s.setInj i v).unitSt x = s.unitSt x := rfl
@[simp] theorem State.setLane_unitSt (ln : Nat) (o : Option Nat) (x : Nat) : (s.setLane ln o).unitSt x = s.unitSt x := rfl
@[simp] theorem State.setSp_unitSt (c : Nat) (v : SpSt) (x : Nat) : (s.setSp c v).unitSt x = s.unitSt x := rfl
@[simp] theorem State.setDrone_unitSt (d : Nat) (v : Drone) (x : Nat) : (s.setDrone d v).unitSt x = s.unitSt x := rfl
@[simp] theorem State.setQbv_unitSt (p : Nat) (v : QbvSt) (x : Nat) : (s.setQbv p v).unitSt x = s.unitSt x := rfl
@[simp] theorem State.setCsi_unitSt (r z : Nat) (v : CsiSt) (x : Nat) : (s.setCsi r z v).unitSt x = s.unitSt x := rfl
@[simp] theorem State.setFe_unitSt (e : Nat) (v : FeSt) (x : Nat) : (s.setFe e v).unitSt x = s.unitSt x := rfl
@[simp] theorem State.setSq_unitSt (n q : Nat) (v : SqSt) (x : Nat) : (s.setSq n q v).unitSt x = s.unitSt x := rfl
@[simp] theorem State.setCq_unitSt (n c : Nat) (v : CqSt) (x : Nat) : (s.setCq n c v).unitSt x = s.unitSt x := rfl
@[simp] theorem State.setLl_unitSt (l : Nat) (v : LlSt) (x : Nat) : (s.setLl l v).unitSt x = s.unitSt x := rfl
@[simp] theorem State.setLch_unitSt (i : Nat) (v : LchSt) (x : Nat) : (s.setLch i v).unitSt x = s.unitSt x := rfl
@[simp] theorem State.setPcm_unitSt (r : Nat) (v : PcmSt) (x : Nat) : (s.setPcm r v).unitSt x = s.unitSt x := rfl
@[simp] theorem State.setPc_unitSt (n : Nat) (v : PcSt) (x : Nat) : (s.setPc n v).unitSt x = s.unitSt x := rfl
@[simp] theorem State.setReed_unitSt (i : Nat) (v : ReedInst) (x : Nat) : (s.setReed i v).unitSt x = s.unitSt x := rfl
@[simp] theorem State.setSc_unitSt (c : Nat) (v : ScSt) (x : Nat) : (s.setSc c v).unitSt x = s.unitSt x := rfl
@[simp] theorem State.setPort_unitSt (p : Nat) (v : PortSt) (x : Nat) : (s.setPort p v).unitSt x = s.unitSt x := rfl
@[simp] theorem State.setQstat_unitSt (core v : Nat) (x : Nat) : (s.setQstat core v).unitSt x = s.unitSt x := rfl
@[simp] theorem State.setResv_unitSt (core g : Nat) (x : Nat) : (s.setResv core g).unitSt x = s.unitSt x := rfl
@[simp] theorem State.wr_ctx (f : Fld) (v : Nat) (x y : Nat) : (s.wr f v).ctx x y = s.ctx x y := rfl
@[simp] theorem State.report_ctx (src detail : Nat) (x y : Nat) : (s.report src detail).ctx x y = s.ctx x y := rfl
@[simp] theorem State.drawn_ctx (x y : Nat) : s.drawn.ctx x y = s.ctx x y := rfl
@[simp] theorem State.sendFrom_ctx (m src : Nat) (x y : Nat) : (s.sendFrom m src).ctx x y = s.ctx x y := rfl
@[simp] theorem State.answers_ctx (st : Status) (v : Nat) (l : List Byte) (x y : Nat) : (s.answers st v l).ctx x y = s.ctx x y := rfl
@[simp] theorem State.answered_ctx (st : Status) (v : Nat) (x y : Nat) : (s.answered st v).ctx x y = s.ctx x y := rfl
@[simp] theorem State.setUnit_ctx (code : Nat) (v : UnitSt) (x y : Nat) : (s.setUnit code v).ctx x y = s.ctx x y := rfl
@[simp] theorem State.setTile_ctx (t : Nat) (v : TileSt) (x y : Nat) : (s.setTile t v).ctx x y = s.ctx x y := rfl
@[simp] theorem State.setAxis_ctx (n : Nat) (v : AxisSt) (x y : Nat) : (s.setAxis n v).ctx x y = s.ctx x y := rfl
@[simp] theorem State.putByte_ctx (a : Nat) (v : Byte) (x y : Nat) : (s.putByte a v).ctx x y = s.ctx x y := rfl
@[simp] theorem State.setSd_ctx (m : Nat) (v : SdSt) (x y : Nat) : (s.setSd m v).ctx x y = s.ctx x y := rfl
@[simp] theorem State.setSlot_ctx (z : Nat) (v : SlotSt) (x y : Nat) : (s.setSlot z v).ctx x y = s.ctx x y := rfl
@[simp] theorem State.setCap_ctx (c : Nat) (v : CapSt) (x y : Nat) : (s.setCap c v).ctx x y = s.ctx x y := rfl
@[simp] theorem State.setInj_ctx (i : Nat) (v : InjSt) (x y : Nat) : (s.setInj i v).ctx x y = s.ctx x y := rfl
@[simp] theorem State.setLane_ctx (ln : Nat) (o : Option Nat) (x y : Nat) : (s.setLane ln o).ctx x y = s.ctx x y := rfl
@[simp] theorem State.setSp_ctx (c : Nat) (v : SpSt) (x y : Nat) : (s.setSp c v).ctx x y = s.ctx x y := rfl
@[simp] theorem State.setDrone_ctx (d : Nat) (v : Drone) (x y : Nat) : (s.setDrone d v).ctx x y = s.ctx x y := rfl
@[simp] theorem State.setQbv_ctx (p : Nat) (v : QbvSt) (x y : Nat) : (s.setQbv p v).ctx x y = s.ctx x y := rfl
@[simp] theorem State.setCsi_ctx (r z : Nat) (v : CsiSt) (x y : Nat) : (s.setCsi r z v).ctx x y = s.ctx x y := rfl
@[simp] theorem State.setFe_ctx (e : Nat) (v : FeSt) (x y : Nat) : (s.setFe e v).ctx x y = s.ctx x y := rfl
@[simp] theorem State.setSq_ctx (n q : Nat) (v : SqSt) (x y : Nat) : (s.setSq n q v).ctx x y = s.ctx x y := rfl
@[simp] theorem State.setCq_ctx (n c : Nat) (v : CqSt) (x y : Nat) : (s.setCq n c v).ctx x y = s.ctx x y := rfl
@[simp] theorem State.setLl_ctx (l : Nat) (v : LlSt) (x y : Nat) : (s.setLl l v).ctx x y = s.ctx x y := rfl
@[simp] theorem State.setLch_ctx (i : Nat) (v : LchSt) (x y : Nat) : (s.setLch i v).ctx x y = s.ctx x y := rfl
@[simp] theorem State.setPcm_ctx (r : Nat) (v : PcmSt) (x y : Nat) : (s.setPcm r v).ctx x y = s.ctx x y := rfl
@[simp] theorem State.setPc_ctx (n : Nat) (v : PcSt) (x y : Nat) : (s.setPc n v).ctx x y = s.ctx x y := rfl
@[simp] theorem State.setReed_ctx (i : Nat) (v : ReedInst) (x y : Nat) : (s.setReed i v).ctx x y = s.ctx x y := rfl
@[simp] theorem State.setSc_ctx (c : Nat) (v : ScSt) (x y : Nat) : (s.setSc c v).ctx x y = s.ctx x y := rfl
@[simp] theorem State.setPort_ctx (p : Nat) (v : PortSt) (x y : Nat) : (s.setPort p v).ctx x y = s.ctx x y := rfl
@[simp] theorem State.setQstat_ctx (core v : Nat) (x y : Nat) : (s.setQstat core v).ctx x y = s.ctx x y := rfl
@[simp] theorem State.setResv_ctx (core g : Nat) (x y : Nat) : (s.setResv core g).ctx x y = s.ctx x y := rfl
@[simp] theorem State.wr_tile (f : Fld) (v : Nat) (x : Nat) : (s.wr f v).tile x = s.tile x := rfl
@[simp] theorem State.report_tile (src detail : Nat) (x : Nat) : (s.report src detail).tile x = s.tile x := rfl
@[simp] theorem State.drawn_tile (x : Nat) : s.drawn.tile x = s.tile x := rfl
@[simp] theorem State.sendFrom_tile (m src : Nat) (x : Nat) : (s.sendFrom m src).tile x = s.tile x := rfl
@[simp] theorem State.answers_tile (st : Status) (v : Nat) (l : List Byte) (x : Nat) : (s.answers st v l).tile x = s.tile x := rfl
@[simp] theorem State.answered_tile (st : Status) (v : Nat) (x : Nat) : (s.answered st v).tile x = s.tile x := rfl
@[simp] theorem State.setUnit_tile (code : Nat) (v : UnitSt) (x : Nat) : (s.setUnit code v).tile x = s.tile x := rfl
@[simp] theorem State.setCtx_tile (u c : Nat) (v : CtxInt) (x : Nat) : (s.setCtx u c v).tile x = s.tile x := rfl
@[simp] theorem State.setAxis_tile (n : Nat) (v : AxisSt) (x : Nat) : (s.setAxis n v).tile x = s.tile x := rfl
@[simp] theorem State.putByte_tile (a : Nat) (v : Byte) (x : Nat) : (s.putByte a v).tile x = s.tile x := rfl
@[simp] theorem State.setSd_tile (m : Nat) (v : SdSt) (x : Nat) : (s.setSd m v).tile x = s.tile x := rfl
@[simp] theorem State.setSlot_tile (z : Nat) (v : SlotSt) (x : Nat) : (s.setSlot z v).tile x = s.tile x := rfl
@[simp] theorem State.setCap_tile (c : Nat) (v : CapSt) (x : Nat) : (s.setCap c v).tile x = s.tile x := rfl
@[simp] theorem State.setInj_tile (i : Nat) (v : InjSt) (x : Nat) : (s.setInj i v).tile x = s.tile x := rfl
@[simp] theorem State.setLane_tile (ln : Nat) (o : Option Nat) (x : Nat) : (s.setLane ln o).tile x = s.tile x := rfl
@[simp] theorem State.setSp_tile (c : Nat) (v : SpSt) (x : Nat) : (s.setSp c v).tile x = s.tile x := rfl
@[simp] theorem State.setDrone_tile (d : Nat) (v : Drone) (x : Nat) : (s.setDrone d v).tile x = s.tile x := rfl
@[simp] theorem State.setQbv_tile (p : Nat) (v : QbvSt) (x : Nat) : (s.setQbv p v).tile x = s.tile x := rfl
@[simp] theorem State.setCsi_tile (r z : Nat) (v : CsiSt) (x : Nat) : (s.setCsi r z v).tile x = s.tile x := rfl
@[simp] theorem State.setFe_tile (e : Nat) (v : FeSt) (x : Nat) : (s.setFe e v).tile x = s.tile x := rfl
@[simp] theorem State.setSq_tile (n q : Nat) (v : SqSt) (x : Nat) : (s.setSq n q v).tile x = s.tile x := rfl
@[simp] theorem State.setCq_tile (n c : Nat) (v : CqSt) (x : Nat) : (s.setCq n c v).tile x = s.tile x := rfl
@[simp] theorem State.setLl_tile (l : Nat) (v : LlSt) (x : Nat) : (s.setLl l v).tile x = s.tile x := rfl
@[simp] theorem State.setLch_tile (i : Nat) (v : LchSt) (x : Nat) : (s.setLch i v).tile x = s.tile x := rfl
@[simp] theorem State.setPcm_tile (r : Nat) (v : PcmSt) (x : Nat) : (s.setPcm r v).tile x = s.tile x := rfl
@[simp] theorem State.setPc_tile (n : Nat) (v : PcSt) (x : Nat) : (s.setPc n v).tile x = s.tile x := rfl
@[simp] theorem State.setReed_tile (i : Nat) (v : ReedInst) (x : Nat) : (s.setReed i v).tile x = s.tile x := rfl
@[simp] theorem State.setSc_tile (c : Nat) (v : ScSt) (x : Nat) : (s.setSc c v).tile x = s.tile x := rfl
@[simp] theorem State.setPort_tile (p : Nat) (v : PortSt) (x : Nat) : (s.setPort p v).tile x = s.tile x := rfl
@[simp] theorem State.setQstat_tile (core v : Nat) (x : Nat) : (s.setQstat core v).tile x = s.tile x := rfl
@[simp] theorem State.setResv_tile (core g : Nat) (x : Nat) : (s.setResv core g).tile x = s.tile x := rfl
@[simp] theorem State.wr_axis (f : Fld) (v : Nat) (x : Nat) : (s.wr f v).axis x = s.axis x := rfl
@[simp] theorem State.report_axis (src detail : Nat) (x : Nat) : (s.report src detail).axis x = s.axis x := rfl
@[simp] theorem State.drawn_axis (x : Nat) : s.drawn.axis x = s.axis x := rfl
@[simp] theorem State.sendFrom_axis (m src : Nat) (x : Nat) : (s.sendFrom m src).axis x = s.axis x := rfl
@[simp] theorem State.answers_axis (st : Status) (v : Nat) (l : List Byte) (x : Nat) : (s.answers st v l).axis x = s.axis x := rfl
@[simp] theorem State.answered_axis (st : Status) (v : Nat) (x : Nat) : (s.answered st v).axis x = s.axis x := rfl
@[simp] theorem State.setUnit_axis (code : Nat) (v : UnitSt) (x : Nat) : (s.setUnit code v).axis x = s.axis x := rfl
@[simp] theorem State.setCtx_axis (u c : Nat) (v : CtxInt) (x : Nat) : (s.setCtx u c v).axis x = s.axis x := rfl
@[simp] theorem State.setTile_axis (t : Nat) (v : TileSt) (x : Nat) : (s.setTile t v).axis x = s.axis x := rfl
@[simp] theorem State.putByte_axis (a : Nat) (v : Byte) (x : Nat) : (s.putByte a v).axis x = s.axis x := rfl
@[simp] theorem State.setSd_axis (m : Nat) (v : SdSt) (x : Nat) : (s.setSd m v).axis x = s.axis x := rfl
@[simp] theorem State.setSlot_axis (z : Nat) (v : SlotSt) (x : Nat) : (s.setSlot z v).axis x = s.axis x := rfl
@[simp] theorem State.setCap_axis (c : Nat) (v : CapSt) (x : Nat) : (s.setCap c v).axis x = s.axis x := rfl
@[simp] theorem State.setInj_axis (i : Nat) (v : InjSt) (x : Nat) : (s.setInj i v).axis x = s.axis x := rfl
@[simp] theorem State.setLane_axis (ln : Nat) (o : Option Nat) (x : Nat) : (s.setLane ln o).axis x = s.axis x := rfl
@[simp] theorem State.setSp_axis (c : Nat) (v : SpSt) (x : Nat) : (s.setSp c v).axis x = s.axis x := rfl
@[simp] theorem State.setDrone_axis (d : Nat) (v : Drone) (x : Nat) : (s.setDrone d v).axis x = s.axis x := rfl
@[simp] theorem State.setQbv_axis (p : Nat) (v : QbvSt) (x : Nat) : (s.setQbv p v).axis x = s.axis x := rfl
@[simp] theorem State.setCsi_axis (r z : Nat) (v : CsiSt) (x : Nat) : (s.setCsi r z v).axis x = s.axis x := rfl
@[simp] theorem State.setFe_axis (e : Nat) (v : FeSt) (x : Nat) : (s.setFe e v).axis x = s.axis x := rfl
@[simp] theorem State.setSq_axis (n q : Nat) (v : SqSt) (x : Nat) : (s.setSq n q v).axis x = s.axis x := rfl
@[simp] theorem State.setCq_axis (n c : Nat) (v : CqSt) (x : Nat) : (s.setCq n c v).axis x = s.axis x := rfl
@[simp] theorem State.setLl_axis (l : Nat) (v : LlSt) (x : Nat) : (s.setLl l v).axis x = s.axis x := rfl
@[simp] theorem State.setLch_axis (i : Nat) (v : LchSt) (x : Nat) : (s.setLch i v).axis x = s.axis x := rfl
@[simp] theorem State.setPcm_axis (r : Nat) (v : PcmSt) (x : Nat) : (s.setPcm r v).axis x = s.axis x := rfl
@[simp] theorem State.setPc_axis (n : Nat) (v : PcSt) (x : Nat) : (s.setPc n v).axis x = s.axis x := rfl
@[simp] theorem State.setReed_axis (i : Nat) (v : ReedInst) (x : Nat) : (s.setReed i v).axis x = s.axis x := rfl
@[simp] theorem State.setSc_axis (c : Nat) (v : ScSt) (x : Nat) : (s.setSc c v).axis x = s.axis x := rfl
@[simp] theorem State.setPort_axis (p : Nat) (v : PortSt) (x : Nat) : (s.setPort p v).axis x = s.axis x := rfl
@[simp] theorem State.setQstat_axis (core v : Nat) (x : Nat) : (s.setQstat core v).axis x = s.axis x := rfl
@[simp] theorem State.setResv_axis (core g : Nat) (x : Nat) : (s.setResv core g).axis x = s.axis x := rfl

@[simp] theorem State.setUnit_unitSt (u : Nat) (v : UnitSt) : (s.setUnit u v).unitSt u = v := tget_tset_same _ _ _ _

theorem State.setUnit_unitSt_ne {u x : Nat} (v : UnitSt) (h : x ≠ u) : (s.setUnit u v).unitSt x = s.unitSt x := tget_tset_ne _ _ _ h

@[simp] theorem State.setCtx_ctx (u c : Nat) (v : CtxInt) : (s.setCtx u c v).ctx u c = v := tget_tset_same _ _ _ _

@[simp] theorem State.setTile_tile (t : Nat) (v : TileSt) : (s.setTile t v).tile t = v := tget_tset_same _ _ _ _

theorem State.setTile_tile_ne {t x : Nat} (v : TileSt) (h : x ≠ t) : (s.setTile t v).tile x = s.tile x := tget_tset_ne _ _ _ h

end Sys2Proof.Machine
end

