-- ==== Sys2Proof/Laws/Bits.lean ====
section
/-! SUPPORT. Fields of written words, and the fields that the register tables describe. -/

namespace Sys2Proof.Machine

@[simp] theorem bv32_mod (v : BitVec 32) : v.toNat % 2 ^ 32 = v.toNat := Nat.mod_eq_of_lt v.isLt

@[simp] theorem bv32_mod' (v : BitVec 32) : v.toNat % 4294967296 = v.toNat := Nat.mod_eq_of_lt v.isLt

theorem bits_lt (x lo w : Nat) : bits x lo w < 2 ^ w := Nat.mod_lt _ (Nat.two_pow_pos _)

@[simp] theorem bits_mod (x lo w : Nat) : bits x lo w % 2 ^ w = bits x lo w := Nat.mod_eq_of_lt (bits_lt x lo w)

theorem bit_or (v k : BitVec 32) (i : Nat) : bit (v ||| k).toNat i = (bit v.toNat i || bit k.toNat i) := by
  simp [bit, BitVec.toNat_or, Nat.testBit_or]

theorem bits_or (v k : BitVec 32) (lo w : Nat) (h : bits k.toNat lo w = 0) : bits (v ||| k).toNat lo w = bits v.toNat lo w := by
  unfold bits at *
  rw [BitVec.toNat_or, Nat.shiftRight_or_distrib, Nat.or_mod_two_pow, h, Nat.or_zero]

theorem bits_zero_w1 (x lo : Nat) : bits x lo 1 = b2n (bit x lo) := by
  simp only [bits, bit, b2n, Nat.testBit, Nat.pow_one, Nat.and_comm 1, Nat.and_one_is_mod]
  rcases Nat.mod_two_eq_zero_or_one (x >>> lo) with h | h <;> simp [h]

@[simp] theorem b2n_true : b2n true = 1 := rfl
@[simp] theorem b2n_false : b2n false = 0 := rfl
@[simp] theorem b2n_mod2 (b : Bool) : b2n b % 2 = b2n b := by cases b <;> rfl
@[simp] theorem b2n_ne_zero (b : Bool) : (b2n b != 0) = b := by cases b <;> rfl

/-- Whether a one-bit field is 1 after it is written. -/
@[simp] theorem State.on_wr_same (s : State) (f : Fld) (v : Nat) : (s.wr f v).on f = (v % 2 ^ f.w != 0) := by
  simp [State.on]

theorem State.on_wr_ne (s : State) {f g : Fld} (v : Nat) (h : g.key ≠ f.key) : (s.wr f v).on g = s.on g := by
  simp only [State.on, s.rd_wr_ne v h]

/-- A field whose copies all have one reset value. -/
theorem fieldOf_const (a i lo w : Nat) (acc : Acc) (r : Nat) : fieldOf a i ⟨lo, w, acc, [r]⟩ = ⟨a * 8 + lo, w, r⟩ := by
  rcases i with _ | i <;> simp [fieldOf]

@[simp] theorem fieldOf_nil (a i lo w : Nat) (acc : Acc) : fieldOf a i ⟨lo, w, acc, []⟩ = ⟨a * 8 + lo, w, 0⟩ := rfl

/-- A field that is 0 has no bit set. -/
theorem bit_of_bits_zero {x lo w i : Nat} (h : bits x lo w = 0) (hi : lo ≤ i ∧ i < lo + w) : bit x i = false := by
  have e : (bits x lo w).testBit (i - lo) = x.testBit i := by
    unfold bits
    rw [Nat.testBit_mod_two_pow, Nat.testBit_shiftRight, decide_eq_true (by omega), Bool.true_and, show lo + (i - lo) = i by omega]
  rw [h, Nat.zero_testBit] at e
  exact e.symm

theorem bits3_zero {v : BitVec 32} (h : bits v.toNat 1 3 = 0) : bit v.toNat 1 = false ∧ bit v.toNat 2 = false ∧ bit v.toNat 3 = false :=
  ⟨bit_of_bits_zero h (by omega), bit_of_bits_zero h (by omega), bit_of_bits_zero h (by omega)⟩

end Sys2Proof.Machine
end

