-- ==== Sys2Proof/Laws/Bus.lean ====
section
/-! SUPPORT. What a register write does that the register space takes: it acts on the register it names, and is answered. -/

set_option linter.unusedSimpArgs false

namespace Sys2Proof.Machine

variable {s : State} {w : Who} {a word : Nat}

/-- A taken register write with its effect given, which it performs. -/
theorem regWriteAs_takes (h : s.takes w a word = true) (eff : State → RegHit → State × Status) :
    ∃ hit, regFind a = some hit ∧ ((eff s hit).2 = .ok ∨ w.bar = false → s.regWriteAs w a word eff = eff s hit) := by
  unfold State.takes at h
  simp only [Bool.and_eq_true, Bool.or_eq_true, Bool.not_eq_true', beq_iff_eq, Option.isSome_iff_exists] at h
  obtain ⟨⟨⟨⟨⟨⟨⟨hb, hp⟩, ht⟩, h4⟩, ⟨hit, hf⟩⟩, hs⟩, hr⟩, hw⟩ := h
  refine ⟨hit, hf, fun hok => ?_⟩
  rcases hbar : w.bar with _ | _
  · simp [State.regWriteAs, State.regPut, State.regAdmit, hp, ht, h4, hf, hs, hr, hw, hbar]
  · rcases hb with hb | ⟨hb, hi⟩
    · simp [hbar] at hb
    · rcases hok with hok | hok
      · simp [State.regWriteAs, State.regPut, State.regAdmit, hp, ht, h4, hf, hs, hr, hw, hbar, hb, hi, State.mmioErr, hok]
        rw [← hok]
      · simp [hbar] at hok

/-- A taken register write acts on its block and is answered with the status of the act. -/
theorem writeReg_takes (h : s.takes w a word = true) :
    ∃ hit, regFind a = some hit ∧ ((s.regEffect w a hit (word % 2 ^ 32)).2 = .ok ∨ w.bar = false → s.writeReg w a word =
      (s.regEffect w a hit (word % 2 ^ 32)).1.answers (s.regEffect w a hit (word % 2 ^ 32)).2 0 []) := by
  obtain ⟨hit, hf, he⟩ := regWriteAs_takes h fun s hit => s.regEffect w a hit (word % 2 ^ 32)
  exact ⟨hit, hf, fun hok => by simp only [State.writeReg, State.regWrite, he hok]⟩

/-- A taken register read returns what the register gives. -/
theorem readReg_gives (h : s.gives w a = true) :
    ∃ hit, regFind a = some hit ∧ s.readReg w a = (s.regTake w a hit).2.answers .ok ((s.regTake w a hit).1 % 2 ^ 32) [] := by
  unfold State.gives at h
  simp only [Bool.and_eq_true, Bool.or_eq_true, Bool.not_eq_true', beq_iff_eq, Option.isSome_iff_exists] at h
  obtain ⟨⟨⟨⟨⟨⟨hb, hp⟩, ht⟩, h4⟩, ⟨hit, hf⟩⟩, hs⟩, hw⟩ := h
  refine ⟨hit, hf, ?_⟩
  rcases hbar : w.bar with _ | _
  · simp [State.readReg, State.regRead, State.regGet, State.regAdmit, hp, ht, h4, hf, hs, hw, hbar]
  · rcases hb with hb | ⟨hb, hi⟩
    · simp [hbar] at hb
    · simp [State.readReg, State.regRead, State.regGet, State.regAdmit, hp, ht, h4, hf, hs, hw, hbar, hb, hi, State.mmioErr]

/-- The table base, the copy numbers and the window of the register at an address. -/
def hitAt (a : Nat) : Option (Nat × List Nat × Option Nat) := (regFind a).map fun h => (h.d.base, h.ix, h.unit)

theorem hitAt_some {b : Nat} {l : List Nat} {u : Option Nat} {hit : RegHit} (hf : regFind a = some hit)
    (hh : hitAt a = some (b, l, u)) : hit.d.base = b ∧ hit.ix = l ∧ hit.unit = u := by
  simp only [hitAt, hf, Option.map_some, Option.some.injEq, Prod.mk.injEq] at hh
  exact hh

set_option Elab.async false in
theorem found_SETUP_LOCK : hitAt (0x54) = some (0x54, [], none) := by decide +kernel

theorem writeReg_SETUP_LOCK (h : s.takes w (0x54) word = true) :
    s.writeReg w (0x54) word = (s.writeSetupLock w (word % 2 ^ 32)).answers .ok 0 [] := by
  obtain ⟨hit, hf, he⟩ := writeReg_takes h
  obtain ⟨hb, hx, hu⟩ := hitAt_some hf (found_SETUP_LOCK)
  have hr : s.regEffect w (0x54) hit (word % 2 ^ 32) = (s.writeSetupLock w (word % 2 ^ 32), .ok) := by
    simp (disch := omega) only [State.regEffect, hu, if_neg, if_pos, State.writeGlobal, hb, RegHit.i, RegHit.j, hx, List.getD_cons_zero, List.getD_cons_succ]
  rw [hr] at he
  dsimp only at he
  exact he (.inl rfl)

set_option Elab.async false in
theorem found_GLOBAL_MODE : hitAt (0x50) = some (0x50, [], none) := by decide +kernel

theorem writeReg_GLOBAL_MODE (h : s.takes w (0x50) word = true) :
    s.writeReg w (0x50) word = ((if s.unlocked then s.writeRepro (bits (word % 2 ^ 32) 0 1) else s)).answers .ok 0 [] := by
  obtain ⟨hit, hf, he⟩ := writeReg_takes h
  obtain ⟨hb, hx, hu⟩ := hitAt_some hf (found_GLOBAL_MODE)
  have hr : s.regEffect w (0x50) hit (word % 2 ^ 32) = ((if s.unlocked then s.writeRepro (bits (word % 2 ^ 32) 0 1) else s), .ok) := by
    simp (disch := omega) only [State.regEffect, hu, if_neg, if_pos, State.writeGlobal, hb, RegHit.i, RegHit.j, hx, List.getD_cons_zero, List.getD_cons_succ]
  rw [hr] at he
  dsimp only at he
  exact he (.inl rfl)

set_option Elab.async false in
theorem found_MEM_CNT_CTRL : hitAt (0x4030) = some (0x4030, [], none) := by decide +kernel

theorem writeReg_MEM_CNT_CTRL (h : s.takes w (0x4030) word = true) :
    s.writeReg w (0x4030) word = (s.when (bit (word % 2 ^ 32) 0) State.memCntClr).answers .ok 0 [] := by
  obtain ⟨hit, hf, he⟩ := writeReg_takes h
  obtain ⟨hb, hx, hu⟩ := hitAt_some hf (found_MEM_CNT_CTRL)
  have hr : s.regEffect w (0x4030) hit (word % 2 ^ 32) = (s.when (bit (word % 2 ^ 32) 0) State.memCntClr, .ok) := by
    simp (disch := omega) only [State.regEffect, hu, if_neg, if_pos, State.writeGlobal, hb, RegHit.i, RegHit.j, hx, List.getD_cons_zero, List.getD_cons_succ]
  rw [hr] at he
  dsimp only at he
  exact he (.inl rfl)

set_option Elab.async false in
theorem found_MEM_ZERO : hitAt (0x4050) = some (0x4050, [], none) := by decide +kernel

theorem writeReg_MEM_ZERO (h : s.takes w (0x4050) word = true) :
    s.writeReg w (0x4050) word = (s.writeMemZero (word % 2 ^ 32)).answers .ok 0 [] := by
  obtain ⟨hit, hf, he⟩ := writeReg_takes h
  obtain ⟨hb, hx, hu⟩ := hitAt_some hf (found_MEM_ZERO)
  have hr : s.regEffect w (0x4050) hit (word % 2 ^ 32) = (s.writeMemZero (word % 2 ^ 32), .ok) := by
    simp (disch := omega) only [State.regEffect, hu, if_neg, if_pos, State.writeGlobal, hb, RegHit.i, RegHit.j, hx, List.getD_cons_zero, List.getD_cons_succ]
  rw [hr] at he
  dsimp only at he
  exact he (.inl rfl)

set_option Elab.async false in
theorem found_RP_STEP_HI : hitAt (0x5034) = some (0x5034, [], none) := by decide +kernel

theorem writeReg_RP_STEP_HI (h : s.takes w (0x5034) word = true) :
    s.writeReg w (0x5034) word = (s.writeStepHi (word % 2 ^ 32)).answers .ok 0 [] := by
  obtain ⟨hit, hf, he⟩ := writeReg_takes h
  obtain ⟨hb, hx, hu⟩ := hitAt_some hf (found_RP_STEP_HI)
  have hr : s.regEffect w (0x5034) hit (word % 2 ^ 32) = (s.writeStepHi (word % 2 ^ 32), .ok) := by
    simp (disch := omega) only [State.regEffect, hu, if_neg, if_pos, State.writeGlobal, hb, RegHit.i, RegHit.j, hx, List.getD_cons_zero, List.getD_cons_succ]
  rw [hr] at he
  dsimp only at he
  exact he (.inl rfl)

set_option Elab.async false in
theorem found_RP_STEP_ADV : hitAt (0x5038) = some (0x5038, [], none) := by decide +kernel

theorem writeReg_RP_STEP_ADV (h : s.takes w (0x5038) word = true) :
    s.writeReg w (0x5038) word = (s.when (bit (word % 2 ^ 32) 0) State.stepAdv).answers .ok 0 [] := by
  obtain ⟨hit, hf, he⟩ := writeReg_takes h
  obtain ⟨hb, hx, hu⟩ := hitAt_some hf (found_RP_STEP_ADV)
  have hr : s.regEffect w (0x5038) hit (word % 2 ^ 32) = (s.when (bit (word % 2 ^ 32) 0) State.stepAdv, .ok) := by
    simp (disch := omega) only [State.regEffect, hu, if_neg, if_pos, State.writeGlobal, hb, RegHit.i, RegHit.j, hx, List.getD_cons_zero, List.getD_cons_succ]
  rw [hr] at he
  dsimp only at he
  exact he (.inl rfl)

set_option Elab.async false in
theorem found_RP_GEN_IDX_HI : hitAt (0x504C) = some (0x504C, [], none) := by decide +kernel

theorem writeReg_RP_GEN_IDX_HI (h : s.takes w (0x504C) word = true) :
    s.writeReg w (0x504C) word = (s.genWrite R.RP_GEN_IDX_HI_IDX (word % 2 ^ 32) true).answers .ok 0 [] := by
  obtain ⟨hit, hf, he⟩ := writeReg_takes h
  obtain ⟨hb, hx, hu⟩ := hitAt_some hf (found_RP_GEN_IDX_HI)
  have hr : s.regEffect w (0x504C) hit (word % 2 ^ 32) = (s.genWrite R.RP_GEN_IDX_HI_IDX (word % 2 ^ 32) true, .ok) := by
    simp (disch := omega) only [State.regEffect, hu, if_neg, if_pos, State.writeGlobal, hb, RegHit.i, RegHit.j, hx, List.getD_cons_zero, List.getD_cons_succ]
  rw [hr] at he
  dsimp only at he
  exact he (.inl rfl)

set_option Elab.async false in
theorem found_LS_CTRL : hitAt (0x5080) = some (0x5080, [], none) := by decide +kernel

theorem writeReg_LS_CTRL (h : s.takes w (0x5080) word = true) :
    s.writeReg w (0x5080) word = (s.writeLsCtrl (word % 2 ^ 32) s.unlocked).answers .ok 0 [] := by
  obtain ⟨hit, hf, he⟩ := writeReg_takes h
  obtain ⟨hb, hx, hu⟩ := hitAt_some hf (found_LS_CTRL)
  have hr : s.regEffect w (0x5080) hit (word % 2 ^ 32) = (s.writeLsCtrl (word % 2 ^ 32) s.unlocked, .ok) := by
    simp (disch := omega) only [State.regEffect, hu, if_neg, if_pos, State.writeGlobal, hb, RegHit.i, RegHit.j, hx, List.getD_cons_zero, List.getD_cons_succ]
  rw [hr] at he
  dsimp only at he
  exact he (.inl rfl)

set_option Elab.async false in
theorem found_UL_CMD : hitAt (0x6004) = some (0x6004, [], none) := by decide +kernel

theorem writeReg_UL_CMD (h : s.takes w (0x6004) word = true) :
    s.writeReg w (0x6004) word = (s.writeUlCmd (word % 2 ^ 32)).answers .ok 0 [] := by
  obtain ⟨hit, hf, he⟩ := writeReg_takes h
  obtain ⟨hb, hx, hu⟩ := hitAt_some hf (found_UL_CMD)
  have hr : s.regEffect w (0x6004) hit (word % 2 ^ 32) = (s.writeUlCmd (word % 2 ^ 32), .ok) := by
    simp (disch := omega) only [State.regEffect, hu, if_neg, if_pos, State.writeGlobal, hb, RegHit.i, RegHit.j, hx, List.getD_cons_zero, List.getD_cons_succ]
  rw [hr] at he
  dsimp only at he
  exact he (.inl rfl)

set_option Elab.async false in
theorem found_BOOT_CTRL : hitAt (0x7004) = some (0x7004, [], none) := by decide +kernel

theorem writeReg_BOOT_CTRL (h : s.takes w (0x7004) word = true) :
    s.writeReg w (0x7004) word = (s.writeBootCtrl (if w.remote then 0x3F else w.ini) (word % 2 ^ 32)).answers .ok 0 [] := by
  obtain ⟨hit, hf, he⟩ := writeReg_takes h
  obtain ⟨hb, hx, hu⟩ := hitAt_some hf (found_BOOT_CTRL)
  have hr : s.regEffect w (0x7004) hit (word % 2 ^ 32) = (s.writeBootCtrl (if w.remote then 0x3F else w.ini) (word % 2 ^ 32), .ok) := by
    simp (disch := omega) only [State.regEffect, hu, if_neg, if_pos, State.writeGlobal, hb, RegHit.i, RegHit.j, hx, List.getD_cons_zero, List.getD_cons_succ]
  rw [hr] at he
  dsimp only at he
  exact he (.inl rfl)

set_option Elab.async false in
theorem found_BOOT_DATA : hitAt (0x7008) = some (0x7008, [], none) := by decide +kernel

theorem writeReg_BOOT_DATA (h : s.takes w (0x7008) word = true) :
    s.writeReg w (0x7008) word = (s.bootWord (word % 2 ^ 32)).answers .ok 0 [] := by
  obtain ⟨hit, hf, he⟩ := writeReg_takes h
  obtain ⟨hb, hx, hu⟩ := hitAt_some hf (found_BOOT_DATA)
  have hr : s.regEffect w (0x7008) hit (word % 2 ^ 32) = (s.bootWord (word % 2 ^ 32), .ok) := by
    simp (disch := omega) only [State.regEffect, hu, if_neg, if_pos, State.writeGlobal, hb, RegHit.i, RegHit.j, hx, List.getD_cons_zero, List.getD_cons_succ]
  rw [hr] at he
  dsimp only at he
  exact he (.inl rfl)

set_option Elab.async false in
theorem found_CLK_OP : hitAt (0x10004) = some (0x10004, [], none) := by decide +kernel

theorem writeReg_CLK_OP (h : s.takes w (0x10004) word = true) :
    s.writeReg w (0x10004) word = (s.writeClkOp (word % 2 ^ 32)).answers .ok 0 [] := by
  obtain ⟨hit, hf, he⟩ := writeReg_takes h
  obtain ⟨hb, hx, hu⟩ := hitAt_some hf (found_CLK_OP)
  have hr : s.regEffect w (0x10004) hit (word % 2 ^ 32) = (s.writeClkOp (word % 2 ^ 32), .ok) := by
    simp (disch := omega) only [State.regEffect, hu, if_neg, if_pos, State.writeBellows, hb, RegHit.i, RegHit.j, hx, List.getD_cons_zero, List.getD_cons_succ]
  rw [hr] at he
  dsimp only at he
  exact he (.inl rfl)

set_option Elab.async false in
theorem found_BEL_CTRL : hitAt (0x20000) = some (0x20000, [], none) := by decide +kernel

theorem writeReg_BEL_CTRL (h : s.takes w (0x20000) word = true) :
    s.writeReg w (0x20000) word = (s.writeBelCtrl (word % 2 ^ 32)).answers .ok 0 [] := by
  obtain ⟨hit, hf, he⟩ := writeReg_takes h
  obtain ⟨hb, hx, hu⟩ := hitAt_some hf (found_BEL_CTRL)
  have hr : s.regEffect w (0x20000) hit (word % 2 ^ 32) = (s.writeBelCtrl (word % 2 ^ 32), .ok) := by
    simp (disch := omega) only [State.regEffect, hu, if_neg, if_pos, State.writeBellows, hb, RegHit.i, RegHit.j, hx, List.getD_cons_zero, List.getD_cons_succ]
  rw [hr] at he
  dsimp only at he
  exact he (.inl rfl)

set_option Elab.async false in
theorem found_BEL_PWR_DN : ∀ (i : Fin 2), hitAt (0x20030 + 4 * i) = some (0x20030, [i.val], none) := by decide +kernel

theorem writeReg_BEL_PWR_DN (i : Fin 2) (h : s.takes w (0x20030 + 4 * i) word = true) :
    s.writeReg w (0x20030 + 4 * i) word = (s.writePwrDn i (word % 2 ^ 32)).answers .ok 0 [] := by
  obtain ⟨hit, hf, he⟩ := writeReg_takes h
  obtain ⟨hb, hx, hu⟩ := hitAt_some hf (found_BEL_PWR_DN i)
  have := i.isLt
  have hr : s.regEffect w (0x20030 + 4 * i) hit (word % 2 ^ 32) = (s.writePwrDn i (word % 2 ^ 32), .ok) := by
    simp (disch := omega) only [State.regEffect, hu, if_neg, if_pos, State.writeBellows, hb, RegHit.i, RegHit.j, hx, List.getD_cons_zero, List.getD_cons_succ]
  rw [hr] at he
  dsimp only at he
  exact he (.inl rfl)

set_option Elab.async false in
theorem found_BEL_PWR_MISC : hitAt (0x20040) = some (0x20040, [], none) := by decide +kernel

theorem writeReg_BEL_PWR_MISC (h : s.takes w (0x20040) word = true) :
    s.writeReg w (0x20040) word = (s.writePwrMisc (word % 2 ^ 32)).answers .ok 0 [] := by
  obtain ⟨hit, hf, he⟩ := writeReg_takes h
  obtain ⟨hb, hx, hu⟩ := hitAt_some hf (found_BEL_PWR_MISC)
  have hr : s.regEffect w (0x20040) hit (word % 2 ^ 32) = (s.writePwrMisc (word % 2 ^ 32), .ok) := by
    simp (disch := omega) only [State.regEffect, hu, if_neg, if_pos, State.writeBellows, hb, RegHit.i, RegHit.j, hx, List.getD_cons_zero, List.getD_cons_succ]
  rw [hr] at he
  dsimp only at he
  exact he (.inl rfl)

set_option Elab.async false in
theorem found_DRN_CTRL : ∀ (d : Fin 16), hitAt (0x30000 + 0x400 * d) = some (0x30000, [d.val], none) := by decide +kernel

theorem writeReg_DRN_CTRL (d : Fin 16) (h : s.takes w (0x30000 + 0x400 * d) word = true) :
    s.writeReg w (0x30000 + 0x400 * d) word = (s.writeDrnCtrl d (word % 2 ^ 32) s.unlocked).answers .ok 0 [] := by
  obtain ⟨hit, hf, he⟩ := writeReg_takes h
  obtain ⟨hb, hx, hu⟩ := hitAt_some hf (found_DRN_CTRL d)
  have := d.isLt
  have hr : s.regEffect w (0x30000 + 0x400 * d) hit (word % 2 ^ 32) = (s.writeDrnCtrl d (word % 2 ^ 32) s.unlocked, .ok) := by
    simp (disch := omega) only [State.regEffect, hu, if_neg, if_pos, State.writeDrones, hb, RegHit.i, RegHit.j, hx, List.getD_cons_zero, List.getD_cons_succ]
  rw [hr] at he
  dsimp only at he
  exact he (.inl rfl)

set_option Elab.async false in
theorem found_DRN_STAT : ∀ (d : Fin 16), hitAt (0x30074 + 0x400 * d) = some (0x30074, [d.val], none) := by decide +kernel

theorem writeReg_DRN_STAT (d : Fin 16) (h : s.takes w (0x30074 + 0x400 * d) word = true) :
    s.writeReg w (0x30074 + 0x400 * d) word = (s.writeDrnStat d (word % 2 ^ 32)).answers .ok 0 [] := by
  obtain ⟨hit, hf, he⟩ := writeReg_takes h
  obtain ⟨hb, hx, hu⟩ := hitAt_some hf (found_DRN_STAT d)
  have := d.isLt
  have hr : s.regEffect w (0x30074 + 0x400 * d) hit (word % 2 ^ 32) = (s.writeDrnStat d (word % 2 ^ 32), .ok) := by
    simp (disch := omega) only [State.regEffect, hu, if_neg, if_pos, State.writeDrones, hb, RegHit.i, RegHit.j, hx, List.getD_cons_zero, List.getD_cons_succ]
  rw [hr] at he
  dsimp only at he
  exact he (.inl rfl)

set_option Elab.async false in
set_option maxRecDepth 100000 in
theorem found_EV_PHASE : ∀ (d : Fin 16) (e : Fin 16), hitAt (0x30200 + 0x400 * d + 0x10 * e) = some (0x30200, [d.val, e.val], none) := by decide +kernel

theorem writeReg_EV_PHASE (d : Fin 16) (e : Fin 16) (h : s.takes w (0x30200 + 0x400 * d + 0x10 * e) word = true) :
    s.writeReg w (0x30200 + 0x400 * d + 0x10 * e) word = (s.writeEvPhase d e (word % 2 ^ 32)).answers .ok 0 [] := by
  obtain ⟨hit, hf, he⟩ := writeReg_takes h
  obtain ⟨hb, hx, hu⟩ := hitAt_some hf (found_EV_PHASE d e)
  have := d.isLt
  have := e.isLt
  have hr : s.regEffect w (0x30200 + 0x400 * d + 0x10 * e) hit (word % 2 ^ 32) = (s.writeEvPhase d e (word % 2 ^ 32), .ok) := by
    simp (disch := omega) only [State.regEffect, hu, if_neg, if_pos, State.writeDrones, hb, RegHit.i, RegHit.j, hx, List.getD_cons_zero, List.getD_cons_succ]
  rw [hr] at he
  dsimp only at he
  exact he (.inl rfl)

set_option Elab.async false in
set_option maxRecDepth 100000 in
theorem found_EV_CTRL : ∀ (d : Fin 16) (e : Fin 16), hitAt (0x30204 + 0x400 * d + 0x10 * e) = some (0x30204, [d.val, e.val], none) := by decide +kernel

theorem writeReg_EV_CTRL (d : Fin 16) (e : Fin 16) (h : s.takes w (0x30204 + 0x400 * d + 0x10 * e) word = true) :
    s.writeReg w (0x30204 + 0x400 * d + 0x10 * e) word = (s.writeEvCtrl d e (word % 2 ^ 32)).answers .ok 0 [] := by
  obtain ⟨hit, hf, he⟩ := writeReg_takes h
  obtain ⟨hb, hx, hu⟩ := hitAt_some hf (found_EV_CTRL d e)
  have := d.isLt
  have := e.isLt
  have hr : s.regEffect w (0x30204 + 0x400 * d + 0x10 * e) hit (word % 2 ^ 32) = (s.writeEvCtrl d e (word % 2 ^ 32), .ok) := by
    simp (disch := omega) only [State.regEffect, hu, if_neg, if_pos, State.writeDrones, hb, RegHit.i, RegHit.j, hx, List.getD_cons_zero, List.getD_cons_succ]
  rw [hr] at he
  dsimp only at he
  exact he (.inl rfl)

set_option Elab.async false in
theorem found_SF_CMD : hitAt (0x40008) = some (0x40008, [], none) := by decide +kernel

theorem writeReg_SF_CMD (h : s.takes w (0x40008) word = true) :
    s.writeReg w (0x40008) word = (s.when (bit (word % 2 ^ 32) 0) fun s => s.enterSafe 0x7C 0).answers .ok 0 [] := by
  obtain ⟨hit, hf, he⟩ := writeReg_takes h
  obtain ⟨hb, hx, hu⟩ := hitAt_some hf (found_SF_CMD)
  have hr : s.regEffect w (0x40008) hit (word % 2 ^ 32) = (s.when (bit (word % 2 ^ 32) 0) fun s => s.enterSafe 0x7C 0, .ok) := by
    simp (disch := omega) only [State.regEffect, hu, if_neg, if_pos, State.writeSafety, hb, RegHit.i, RegHit.j, hx, List.getD_cons_zero, List.getD_cons_succ]
  rw [hr] at he
  dsimp only at he
  exact he (.inl rfl)

set_option Elab.async false in
theorem found_SF_EXIT : hitAt (0x4000C) = some (0x4000C, [], none) := by decide +kernel

theorem writeReg_SF_EXIT (h : s.takes w (0x4000C) word = true) :
    s.writeReg w (0x4000C) word = (s.writeExit (bits (word % 2 ^ 32) 0 16)).answers .ok 0 [] := by
  obtain ⟨hit, hf, he⟩ := writeReg_takes h
  obtain ⟨hb, hx, hu⟩ := hitAt_some hf (found_SF_EXIT)
  have hr : s.regEffect w (0x4000C) hit (word % 2 ^ 32) = (s.writeExit (bits (word % 2 ^ 32) 0 16), .ok) := by
    simp (disch := omega) only [State.regEffect, hu, if_neg, if_pos, State.writeSafety, hb, RegHit.i, RegHit.j, hx, List.getD_cons_zero, List.getD_cons_succ]
  rw [hr] at he
  dsimp only at he
  exact he (.inl rfl)

set_option Elab.async false in
theorem found_SF_SWFAULT : hitAt (0x4001C) = some (0x4001C, [], none) := by decide +kernel

theorem writeReg_SF_SWFAULT (h : s.takes w (0x4001C) word = true) :
    s.writeReg w (0x4001C) word = (s.swFault (bits (word % 2 ^ 32) 0 7)).answers .ok 0 [] := by
  obtain ⟨hit, hf, he⟩ := writeReg_takes h
  obtain ⟨hb, hx, hu⟩ := hitAt_some hf (found_SF_SWFAULT)
  have hr : s.regEffect w (0x4001C) hit (word % 2 ^ 32) = (s.swFault (bits (word % 2 ^ 32) 0 7), .ok) := by
    simp (disch := omega) only [State.regEffect, hu, if_neg, if_pos, State.writeSafety, hb, RegHit.i, RegHit.j, hx, List.getD_cons_zero, List.getD_cons_succ]
  rw [hr] at he
  dsimp only at he
  exact he (.inl rfl)

set_option Elab.async false in
theorem found_SF_WDT_KICK : hitAt (0x4002C) = some (0x4002C, [], none) := by decide +kernel

theorem writeReg_SF_WDT_KICK (h : s.takes w (0x4002C) word = true) :
    s.writeReg w (0x4002C) word = (s.kick (bits (word % 2 ^ 32) 0 8)).answers .ok 0 [] := by
  obtain ⟨hit, hf, he⟩ := writeReg_takes h
  obtain ⟨hb, hx, hu⟩ := hitAt_some hf (found_SF_WDT_KICK)
  have hr : s.regEffect w (0x4002C) hit (word % 2 ^ 32) = (s.kick (bits (word % 2 ^ 32) 0 8), .ok) := by
    simp (disch := omega) only [State.regEffect, hu, if_neg, if_pos, State.writeSafety, hb, RegHit.i, RegHit.j, hx, List.getD_cons_zero, List.getD_cons_succ]
  rw [hr] at he
  dsimp only at he
  exact he (.inl rfl)

set_option Elab.async false in
theorem found_FW_CMD : hitAt (0x40120) = some (0x40120, [], none) := by decide +kernel

theorem writeReg_FW_CMD (h : s.takes w (0x40120) word = true) :
    s.writeReg w (0x40120) word = (s.writeFwCmd (word % 2 ^ 32)).answers .ok 0 [] := by
  obtain ⟨hit, hf, he⟩ := writeReg_takes h
  obtain ⟨hb, hx, hu⟩ := hitAt_some hf (found_FW_CMD)
  have hr : s.regEffect w (0x40120) hit (word % 2 ^ 32) = (s.writeFwCmd (word % 2 ^ 32), .ok) := by
    simp (disch := omega) only [State.regEffect, hu, if_neg, if_pos, State.writeSafety, hb, RegHit.i, RegHit.j, hx, List.getD_cons_zero, List.getD_cons_succ]
  rw [hr] at he
  dsimp only at he
  exact he (.inl rfl)

set_option Elab.async false in
theorem found_AX_CTRL : ∀ (n : Fin 12), hitAt (0x100000 + 0x1000 * n) = some (0x100000, [n.val], none) := by decide +kernel

theorem writeReg_AX_CTRL (n : Fin 12) (h : s.takes w (0x100000 + 0x1000 * n) word = true) :
    s.writeReg w (0x100000 + 0x1000 * n) word = (s.writeAxCtrl n (word % 2 ^ 32)).answers .ok 0 [] := by
  obtain ⟨hit, hf, he⟩ := writeReg_takes h
  obtain ⟨hb, hx, hu⟩ := hitAt_some hf (found_AX_CTRL n)
  have := n.isLt
  have hr : s.regEffect w (0x100000 + 0x1000 * n) hit (word % 2 ^ 32) = (s.writeAxCtrl n (word % 2 ^ 32), .ok) := by
    simp (disch := omega) only [State.regEffect, hu, if_neg, if_pos, State.writeAxes, hb, RegHit.i, RegHit.j, hx, List.getD_cons_zero, List.getD_cons_succ]
  rw [hr] at he
  dsimp only at he
  exact he (.inl rfl)

set_option Elab.async false in
theorem found_AX_CMP : ∀ (n : Fin 12) (x : Fin 3), hitAt (0x100020 + 0x1000 * n + 4 * x) = some (0x100020, [n.val, x.val], none) := by decide +kernel

theorem writeReg_AX_CMP (n : Fin 12) (x : Fin 3) (h : s.takes w (0x100020 + 0x1000 * n + 4 * x) word = true) :
    s.writeReg w (0x100020 + 0x1000 * n + 4 * x) word = (s.writeCmp n x (bits (word % 2 ^ 32) 0 20)).answers .ok 0 [] := by
  obtain ⟨hit, hf, he⟩ := writeReg_takes h
  obtain ⟨hb, hx, hu⟩ := hitAt_some hf (found_AX_CMP n x)
  have := n.isLt
  have := x.isLt
  have hr : s.regEffect w (0x100020 + 0x1000 * n + 4 * x) hit (word % 2 ^ 32) = (s.writeCmp n x (bits (word % 2 ^ 32) 0 20), .ok) := by
    simp (disch := omega) only [State.regEffect, hu, if_neg, if_pos, State.writeAxes, hb, RegHit.i, RegHit.j, hx, List.getD_cons_zero, List.getD_cons_succ]
  rw [hr] at he
  dsimp only at he
  exact he (.inl rfl)

set_option Elab.async false in
theorem found_AX_SYNC_GO : hitAt (0x10F000) = some (0x10F000, [], none) := by decide +kernel

theorem writeReg_AX_SYNC_GO (h : s.takes w (0x10F000) word = true) :
    s.writeReg w (0x10F000) word = (s.syncGo (word % 2 ^ 32)).answers .ok 0 [] := by
  obtain ⟨hit, hf, he⟩ := writeReg_takes h
  obtain ⟨hb, hx, hu⟩ := hitAt_some hf (found_AX_SYNC_GO)
  have hr : s.regEffect w (0x10F000) hit (word % 2 ^ 32) = (s.syncGo (word % 2 ^ 32), .ok) := by
    simp (disch := omega) only [State.regEffect, hu, if_neg, if_pos, State.writeAxes, hb, RegHit.i, RegHit.j, hx, List.getD_cons_zero, List.getD_cons_succ]
  rw [hr] at he
  dsimp only at he
  exact he (.inl rfl)

set_option Elab.async false in
theorem found_CHN_CTRL : hitAt (0x120000) = some (0x120000, [], none) := by decide +kernel

theorem writeReg_CHN_CTRL (h : s.takes w (0x120000) word = true) :
    s.writeReg w (0x120000) word = (s.writeChnCtrl (word % 2 ^ 32)).answers .ok 0 [] := by
  obtain ⟨hit, hf, he⟩ := writeReg_takes h
  obtain ⟨hb, hx, hu⟩ := hitAt_some hf (found_CHN_CTRL)
  have hr : s.regEffect w (0x120000) hit (word % 2 ^ 32) = (s.writeChnCtrl (word % 2 ^ 32), .ok) := by
    simp (disch := omega) only [State.regEffect, hu, if_neg, if_pos, State.writeChanter, hb, RegHit.i, RegHit.j, hx, List.getD_cons_zero, List.getD_cons_succ]
  rw [hr] at he
  dsimp only at he
  exact he (.inl rfl)

set_option Elab.async false in
theorem found_CHN_CWQ_PUT : hitAt (0x120014) = some (0x120014, [], none) := by decide +kernel

theorem writeReg_CHN_CWQ_PUT (h : s.takes w (0x120014) word = true) (hk : (s.cwqWrite w.ini (word % 2 ^ 32)).2 = .ok ∨ w.bar = false) :
    s.writeReg w (0x120014) word = (s.cwqWrite w.ini (word % 2 ^ 32)).1.answers (s.cwqWrite w.ini (word % 2 ^ 32)).2 0 [] := by
  obtain ⟨hit, hf, he⟩ := writeReg_takes h
  obtain ⟨hb, hx, hu⟩ := hitAt_some hf (found_CHN_CWQ_PUT)
  have hr : s.regEffect w (0x120014) hit (word % 2 ^ 32) = s.cwqWrite w.ini (word % 2 ^ 32) := by
    simp (disch := omega) only [State.regEffect, hu, if_neg, if_pos, State.writeChanter, hb, RegHit.i, RegHit.j, hx, List.getD_cons_zero, List.getD_cons_succ]
  rw [hr] at he
  exact he hk

set_option Elab.async false in
theorem found_CHN_CWQ_CTRL : hitAt (0x120018) = some (0x120018, [], none) := by decide +kernel

theorem writeReg_CHN_CWQ_CTRL (h : s.takes w (0x120018) word = true) :
    s.writeReg w (0x120018) word = ((s.wr R.CHN_CWQ_CTRL_SLOT (word % 2 ^ 32)).when (bit (word % 2 ^ 32) 7) fun s => s.cwqFlush (bits (word % 2 ^ 32) 0 7)).answers .ok 0 [] := by
  obtain ⟨hit, hf, he⟩ := writeReg_takes h
  obtain ⟨hb, hx, hu⟩ := hitAt_some hf (found_CHN_CWQ_CTRL)
  have hr : s.regEffect w (0x120018) hit (word % 2 ^ 32) = ((s.wr R.CHN_CWQ_CTRL_SLOT (word % 2 ^ 32)).when (bit (word % 2 ^ 32) 7) fun s => s.cwqFlush (bits (word % 2 ^ 32) 0 7), .ok) := by
    simp (disch := omega) only [State.regEffect, hu, if_neg, if_pos, State.writeChanter, hb, RegHit.i, RegHit.j, hx, List.getD_cons_zero, List.getD_cons_succ]
  rw [hr] at he
  dsimp only at he
  exact he (.inl rfl)

set_option Elab.async false in
theorem found_CHN_LIST0 : ∀ (j : Fin 32), hitAt (0x120100 + 4 * j) = some (0x120100, [j.val], none) := by decide +kernel

theorem writeReg_CHN_LIST0 (j : Fin 32) (h : s.takes w (0x120100 + 4 * j) word = true) :
    s.writeReg w (0x120100 + 4 * j) word = (s.writeLaneList 0 j (word % 2 ^ 32)).answers .ok 0 [] := by
  obtain ⟨hit, hf, he⟩ := writeReg_takes h
  obtain ⟨hb, hx, hu⟩ := hitAt_some hf (found_CHN_LIST0 j)
  have := j.isLt
  have hr : s.regEffect w (0x120100 + 4 * j) hit (word % 2 ^ 32) = (s.writeLaneList 0 j (word % 2 ^ 32), .ok) := by
    simp (disch := omega) only [State.regEffect, hu, if_neg, if_pos, State.writeChanter, hb, RegHit.i, RegHit.j, hx, List.getD_cons_zero, List.getD_cons_succ]
  rw [hr] at he
  dsimp only at he
  exact he (.inl rfl)

set_option Elab.async false in
theorem found_CHN_LIST1 : ∀ (j : Fin 32), hitAt (0x120180 + 4 * j) = some (0x120180, [j.val], none) := by decide +kernel

theorem writeReg_CHN_LIST1 (j : Fin 32) (h : s.takes w (0x120180 + 4 * j) word = true) :
    s.writeReg w (0x120180 + 4 * j) word = (s.writeLaneList 1 j (word % 2 ^ 32)).answers .ok 0 [] := by
  obtain ⟨hit, hf, he⟩ := writeReg_takes h
  obtain ⟨hb, hx, hu⟩ := hitAt_some hf (found_CHN_LIST1 j)
  have := j.isLt
  have hr : s.regEffect w (0x120180 + 4 * j) hit (word % 2 ^ 32) = (s.writeLaneList 1 j (word % 2 ^ 32), .ok) := by
    simp (disch := omega) only [State.regEffect, hu, if_neg, if_pos, State.writeChanter, hb, RegHit.i, RegHit.j, hx, List.getD_cons_zero, List.getD_cons_succ]
  rw [hr] at he
  dsimp only at he
  exact he (.inl rfl)

set_option Elab.async false in
set_option maxRecDepth 100000 in
theorem found_CHN_SLOT : ∀ (x : Fin 128), hitAt (0x120400 + 4 * x) = some (0x120400, [x.val], none) := by decide +kernel

theorem writeReg_CHN_SLOT (x : Fin 128) (h : s.takes w (0x120400 + 4 * x) word = true) :
    s.writeReg w (0x120400 + 4 * x) word = (s.slotEnable x (bit (word % 2 ^ 32) 0)).answers .ok 0 [] := by
  obtain ⟨hit, hf, he⟩ := writeReg_takes h
  obtain ⟨hb, hx, hu⟩ := hitAt_some hf (found_CHN_SLOT x)
  have := x.isLt
  have hr : s.regEffect w (0x120400 + 4 * x) hit (word % 2 ^ 32) = (s.slotEnable x (bit (word % 2 ^ 32) 0), .ok) := by
    simp (disch := omega) only [State.regEffect, hu, if_neg, if_pos, State.writeChanter, hb, RegHit.i, RegHit.j, hx, List.getD_cons_zero, List.getD_cons_succ]
  rw [hr] at he
  dsimp only at he
  exact he (.inl rfl)

set_option Elab.async false in
theorem found_SP_CFG : ∀ (c : Fin 64), hitAt (0x120800 + 0x40 * c) = some (0x120800, [c.val], none) := by decide +kernel

theorem writeReg_SP_CFG (c : Fin 64) (h : s.takes w (0x120800 + 0x40 * c) word = true) :
    s.writeReg w (0x120800 + 0x40 * c) word = (s.writeSpCfg c (word % 2 ^ 32)).answers .ok 0 [] := by
  obtain ⟨hit, hf, he⟩ := writeReg_takes h
  obtain ⟨hb, hx, hu⟩ := hitAt_some hf (found_SP_CFG c)
  have := c.isLt
  have hr : s.regEffect w (0x120800 + 0x40 * c) hit (word % 2 ^ 32) = (s.writeSpCfg c (word % 2 ^ 32), .ok) := by
    simp (disch := omega) only [State.regEffect, hu, if_neg, if_pos, State.writeChanter, hb, RegHit.i, RegHit.j, hx, List.getD_cons_zero, List.getD_cons_succ]
  rw [hr] at he
  dsimp only at he
  exact he (.inl rfl)

set_option Elab.async false in
theorem found_SP_HOST : ∀ (c : Fin 64), hitAt (0x120824 + 0x40 * c) = some (0x120824, [c.val], none) := by decide +kernel

theorem writeReg_SP_HOST (c : Fin 64) (h : s.takes w (0x120824 + 0x40 * c) word = true) :
    s.writeReg w (0x120824 + 0x40 * c) word = (s.writeSpHost c (word % 2 ^ 32)).answers .ok 0 [] := by
  obtain ⟨hit, hf, he⟩ := writeReg_takes h
  obtain ⟨hb, hx, hu⟩ := hitAt_some hf (found_SP_HOST c)
  have := c.isLt
  have hr : s.regEffect w (0x120824 + 0x40 * c) hit (word % 2 ^ 32) = (s.writeSpHost c (word % 2 ^ 32), .ok) := by
    simp (disch := omega) only [State.regEffect, hu, if_neg, if_pos, State.writeChanter, hb, RegHit.i, RegHit.j, hx, List.getD_cons_zero, List.getD_cons_succ]
  rw [hr] at he
  dsimp only at he
  exact he (.inl rfl)

set_option Elab.async false in
theorem found_INJ_PERMIT : hitAt (0x121840) = some (0x121840, [], none) := by decide +kernel

theorem writeReg_INJ_PERMIT (h : s.takes w (0x121840) word = true) :
    s.writeReg w (0x121840) word = (s.writePermit (bit (word % 2 ^ 32) 0)).answers .ok 0 [] := by
  obtain ⟨hit, hf, he⟩ := writeReg_takes h
  obtain ⟨hb, hx, hu⟩ := hitAt_some hf (found_INJ_PERMIT)
  have hr : s.regEffect w (0x121840) hit (word % 2 ^ 32) = (s.writePermit (bit (word % 2 ^ 32) 0), .ok) := by
    simp (disch := omega) only [State.regEffect, hu, if_neg, if_pos, State.writeChanter, hb, RegHit.i, RegHit.j, hx, List.getD_cons_zero, List.getD_cons_succ]
  rw [hr] at he
  dsimp only at he
  exact he (.inl rfl)

set_option Elab.async false in
theorem found_CAP_CFG : ∀ (c : Fin 8), hitAt (0x122400 + 0x40 * c) = some (0x122400, [c.val], none) := by decide +kernel

theorem writeReg_CAP_CFG (c : Fin 8) (h : s.takes w (0x122400 + 0x40 * c) word = true) :
    s.writeReg w (0x122400 + 0x40 * c) word = (s.writeCapCfg c (word % 2 ^ 32)).answers .ok 0 [] := by
  obtain ⟨hit, hf, he⟩ := writeReg_takes h
  obtain ⟨hb, hx, hu⟩ := hitAt_some hf (found_CAP_CFG c)
  have := c.isLt
  have hr : s.regEffect w (0x122400 + 0x40 * c) hit (word % 2 ^ 32) = (s.writeCapCfg c (word % 2 ^ 32), .ok) := by
    simp (disch := omega) only [State.regEffect, hu, if_neg, if_pos, State.writeChanter, hb, RegHit.i, RegHit.j, hx, List.getD_cons_zero, List.getD_cons_succ]
  rw [hr] at he
  dsimp only at he
  exact he (.inl rfl)

set_option Elab.async false in
theorem found_REED_INST_CTRL : ∀ (x : Fin 48), hitAt (0x140100 + 0x40 * x) = some (0x140100, [x.val], none) := by decide +kernel

theorem writeReg_REED_INST_CTRL (x : Fin 48) (h : s.takes w (0x140100 + 0x40 * x) word = true) :
    s.writeReg w (0x140100 + 0x40 * x) word = (s.writeReedCtrl x (word % 2 ^ 32) s.unlocked).answers .ok 0 [] := by
  obtain ⟨hit, hf, he⟩ := writeReg_takes h
  obtain ⟨hb, hx, hu⟩ := hitAt_some hf (found_REED_INST_CTRL x)
  have := x.isLt
  have hr : s.regEffect w (0x140100 + 0x40 * x) hit (word % 2 ^ 32) = (s.writeReedCtrl x (word % 2 ^ 32) s.unlocked, .ok) := by
    simp (disch := omega) only [State.regEffect, hu, if_neg, if_pos, State.writeReed, hb, RegHit.i, RegHit.j, hx, List.getD_cons_zero, List.getD_cons_succ]
  rw [hr] at he
  dsimp only at he
  exact he (.inl rfl)

set_option Elab.async false in
theorem found_REED_APPROVE : ∀ (x : Fin 48), hitAt (0x140118 + 0x40 * x) = some (0x140118, [x.val], none) := by decide +kernel

theorem writeReg_REED_APPROVE (x : Fin 48) (h : s.takes w (0x140118 + 0x40 * x) word = true) :
    s.writeReg w (0x140118 + 0x40 * x) word = (s.writeApprove x (word % 2 ^ 32)).answers .ok 0 [] := by
  obtain ⟨hit, hf, he⟩ := writeReg_takes h
  obtain ⟨hb, hx, hu⟩ := hitAt_some hf (found_REED_APPROVE x)
  have := x.isLt
  have hr : s.regEffect w (0x140118 + 0x40 * x) hit (word % 2 ^ 32) = (s.writeApprove x (word % 2 ^ 32), .ok) := by
    simp (disch := omega) only [State.regEffect, hu, if_neg, if_pos, State.writeReed, hb, RegHit.i, RegHit.j, hx, List.getD_cons_zero, List.getD_cons_succ]
  rw [hr] at he
  dsimp only at he
  exact he (.inl rfl)

set_option Elab.async false in
theorem found_PCM_CTRL : ∀ (r : Fin 2), hitAt (0x160000 + 0x40 * r) = some (0x160000, [r.val], none) := by decide +kernel

theorem writeReg_PCM_CTRL (r : Fin 2) (h : s.takes w (0x160000 + 0x40 * r) word = true) :
    s.writeReg w (0x160000 + 0x40 * r) word = (s.writePcmCtrl r (word % 2 ^ 32)).answers .ok 0 [] := by
  obtain ⟨hit, hf, he⟩ := writeReg_takes h
  obtain ⟨hb, hx, hu⟩ := hitAt_some hf (found_PCM_CTRL r)
  have := r.isLt
  have hr : s.regEffect w (0x160000 + 0x40 * r) hit (word % 2 ^ 32) = (s.writePcmCtrl r (word % 2 ^ 32), .ok) := by
    simp (disch := omega) only [State.regEffect, hu, if_neg, if_pos, State.writePhaseCut, hb, RegHit.i, RegHit.j, hx, List.getD_cons_zero, List.getD_cons_succ]
  rw [hr] at he
  dsimp only at he
  exact he (.inl rfl)

set_option Elab.async false in
theorem found_PC_CTRL : ∀ (n : Fin 8), hitAt (0x160100 + 0x80 * n) = some (0x160100, [n.val], none) := by decide +kernel

theorem writeReg_PC_CTRL (n : Fin 8) (h : s.takes w (0x160100 + 0x80 * n) word = true) :
    s.writeReg w (0x160100 + 0x80 * n) word = (s.writePcCtrl n (word % 2 ^ 32)).answers .ok 0 [] := by
  obtain ⟨hit, hf, he⟩ := writeReg_takes h
  obtain ⟨hb, hx, hu⟩ := hitAt_some hf (found_PC_CTRL n)
  have := n.isLt
  have hr : s.regEffect w (0x160100 + 0x80 * n) hit (word % 2 ^ 32) = (s.writePcCtrl n (word % 2 ^ 32), .ok) := by
    simp (disch := omega) only [State.regEffect, hu, if_neg, if_pos, State.writePhaseCut, hb, RegHit.i, RegHit.j, hx, List.getD_cons_zero, List.getD_cons_succ]
  rw [hr] at he
  dsimp only at he
  exact he (.inl rfl)

set_option Elab.async false in
theorem found_LIGHT_CTRL : hitAt (0x170000) = some (0x170000, [], none) := by decide +kernel

theorem writeReg_LIGHT_CTRL (h : s.takes w (0x170000) word = true) :
    s.writeReg w (0x170000) word = (s.when (bit (word % 2 ^ 32) 0) State.llCntClr).answers .ok 0 [] := by
  obtain ⟨hit, hf, he⟩ := writeReg_takes h
  obtain ⟨hb, hx, hu⟩ := hitAt_some hf (found_LIGHT_CTRL)
  have hr : s.regEffect w (0x170000) hit (word % 2 ^ 32) = (s.when (bit (word % 2 ^ 32) 0) State.llCntClr, .ok) := by
    simp (disch := omega) only [State.regEffect, hu, if_neg, if_pos, State.writeLight, hb, RegHit.i, RegHit.j, hx, List.getD_cons_zero, List.getD_cons_succ]
  rw [hr] at he
  dsimp only at he
  exact he (.inl rfl)

set_option Elab.async false in
theorem found_LL_CTRL : ∀ (l : Fin 4), hitAt (0x171000 + 0x3000 * l) = some (0x171000, [l.val], none) := by decide +kernel

theorem writeReg_LL_CTRL (l : Fin 4) (h : s.takes w (0x171000 + 0x3000 * l) word = true) :
    s.writeReg w (0x171000 + 0x3000 * l) word = (s.writeLlCtrl l (word % 2 ^ 32)).answers .ok 0 [] := by
  obtain ⟨hit, hf, he⟩ := writeReg_takes h
  obtain ⟨hb, hx, hu⟩ := hitAt_some hf (found_LL_CTRL l)
  have := l.isLt
  have hr : s.regEffect w (0x171000 + 0x3000 * l) hit (word % 2 ^ 32) = (s.writeLlCtrl l (word % 2 ^ 32), .ok) := by
    simp (disch := omega) only [State.regEffect, hu, if_neg, if_pos, State.writeLight, hb, RegHit.i, RegHit.j, hx, List.getD_cons_zero, List.getD_cons_succ]
  rw [hr] at he
  dsimp only at he
  exact he (.inl rfl)

set_option Elab.async false in
theorem found_FE_CTRL : ∀ (e : Fin 32), hitAt (0x180000 + 0x200 * e) = some (0x180000, [e.val], none) := by decide +kernel

theorem writeReg_FE_CTRL (e : Fin 32) (h : s.takes w (0x180000 + 0x200 * e) word = true) :
    s.writeReg w (0x180000 + 0x200 * e) word = (s.writeFeCtrl e (word % 2 ^ 32)).answers .ok 0 [] := by
  obtain ⟨hit, hf, he⟩ := writeReg_takes h
  obtain ⟨hb, hx, hu⟩ := hitAt_some hf (found_FE_CTRL e)
  have := e.isLt
  have hr : s.regEffect w (0x180000 + 0x200 * e) hit (word % 2 ^ 32) = (s.writeFeCtrl e (word % 2 ^ 32), .ok) := by
    simp (disch := omega) only [State.regEffect, hu, if_neg, if_pos, State.writeFife, hb, RegHit.i, RegHit.j, hx, List.getD_cons_zero, List.getD_cons_succ]
  rw [hr] at he
  dsimp only at he
  exact he (.inl rfl)

set_option Elab.async false in
theorem found_FE_TX : ∀ (e : Fin 32), hitAt (0x180020 + 0x200 * e) = some (0x180020, [e.val], none) := by decide +kernel

theorem writeReg_FE_TX (e : Fin 32) (h : s.takes w (0x180020 + 0x200 * e) word = true) :
    s.writeReg w (0x180020 + 0x200 * e) word = (s.feTxWrite e (word % 2 ^ 32)).answers .ok 0 [] := by
  obtain ⟨hit, hf, he⟩ := writeReg_takes h
  obtain ⟨hb, hx, hu⟩ := hitAt_some hf (found_FE_TX e)
  have := e.isLt
  have hr : s.regEffect w (0x180020 + 0x200 * e) hit (word % 2 ^ 32) = (s.feTxWrite e (word % 2 ^ 32), .ok) := by
    simp (disch := omega) only [State.regEffect, hu, if_neg, if_pos, State.writeFife, hb, RegHit.i, RegHit.j, hx, List.getD_cons_zero, List.getD_cons_succ]
  rw [hr] at he
  dsimp only at he
  exact he (.inl rfl)

set_option Elab.async false in
theorem found_FE_INJ : ∀ (e : Fin 32), hitAt (0x180028 + 0x200 * e) = some (0x180028, [e.val], none) := by decide +kernel

theorem writeReg_FE_INJ (e : Fin 32) (h : s.takes w (0x180028 + 0x200 * e) word = true) :
    s.writeReg w (0x180028 + 0x200 * e) word = (s.feInject e (word % 2 ^ 32)).answers .ok 0 [] := by
  obtain ⟨hit, hf, he⟩ := writeReg_takes h
  obtain ⟨hb, hx, hu⟩ := hitAt_some hf (found_FE_INJ e)
  have := e.isLt
  have hr : s.regEffect w (0x180028 + 0x200 * e) hit (word % 2 ^ 32) = (s.feInject e (word % 2 ^ 32), .ok) := by
    simp (disch := omega) only [State.regEffect, hu, if_neg, if_pos, State.writeFife, hb, RegHit.i, RegHit.j, hx, List.getD_cons_zero, List.getD_cons_succ]
  rw [hr] at he
  dsimp only at he
  exact he (.inl rfl)

set_option Elab.async false in
set_option maxRecDepth 100000 in
theorem found_FE_IMEM : ∀ (e : Fin 32) (x : Fin 32), hitAt (0x180100 + 0x200 * e + 4 * x) = some (0x180100, [e.val, x.val], none) := by decide +kernel

theorem writeReg_FE_IMEM (e : Fin 32) (x : Fin 32) (h : s.takes w (0x180100 + 0x200 * e + 4 * x) word = true) :
    s.writeReg w (0x180100 + 0x200 * e + 4 * x) word = (s.writeFeImem e x (word % 2 ^ 32)).answers .ok 0 [] := by
  obtain ⟨hit, hf, he⟩ := writeReg_takes h
  obtain ⟨hb, hx, hu⟩ := hitAt_some hf (found_FE_IMEM e x)
  have := e.isLt
  have := x.isLt
  have hr : s.regEffect w (0x180100 + 0x200 * e + 4 * x) hit (word % 2 ^ 32) = (s.writeFeImem e x (word % 2 ^ 32), .ok) := by
    simp (disch := omega) only [State.regEffect, hu, if_neg, if_pos, State.writeFife, hb, RegHit.i, RegHit.j, hx, List.getD_cons_zero, List.getD_cons_succ]
  rw [hr] at he
  dsimp only at he
  exact he (.inl rfl)

set_option Elab.async false in
theorem found_FIFE_GO : hitAt (0x184000) = some (0x184000, [], none) := by decide +kernel

theorem writeReg_FIFE_GO (h : s.takes w (0x184000) word = true) :
    s.writeReg w (0x184000) word = (s.feGo (word % 2 ^ 32)).answers .ok 0 [] := by
  obtain ⟨hit, hf, he⟩ := writeReg_takes h
  obtain ⟨hb, hx, hu⟩ := hitAt_some hf (found_FIFE_GO)
  have hr : s.regEffect w (0x184000) hit (word % 2 ^ 32) = (s.feGo (word % 2 ^ 32), .ok) := by
    simp (disch := omega) only [State.regEffect, hu, if_neg, if_pos, State.writeFife, hb, RegHit.i, RegHit.j, hx, List.getD_cons_zero, List.getD_cons_succ]
  rw [hr] at he
  dsimp only at he
  exact he (.inl rfl)

set_option Elab.async false in
theorem found_FIFE_CLKRST : hitAt (0x184004) = some (0x184004, [], none) := by decide +kernel

theorem writeReg_FIFE_CLKRST (h : s.takes w (0x184004) word = true) :
    s.writeReg w (0x184004) word = (s.feClkrst (word % 2 ^ 32)).answers .ok 0 [] := by
  obtain ⟨hit, hf, he⟩ := writeReg_takes h
  obtain ⟨hb, hx, hu⟩ := hitAt_some hf (found_FIFE_CLKRST)
  have hr : s.regEffect w (0x184004) hit (word % 2 ^ 32) = (s.feClkrst (word % 2 ^ 32), .ok) := by
    simp (disch := omega) only [State.regEffect, hu, if_neg, if_pos, State.writeFife, hb, RegHit.i, RegHit.j, hx, List.getD_cons_zero, List.getD_cons_succ]
  rw [hr] at he
  dsimp only at he
  exact he (.inl rfl)

set_option Elab.async false in
theorem found_RAS_GROW : hitAt (0x200008) = some (0x200008, [], none) := by decide +kernel

theorem writeReg_RAS_GROW (h : s.takes w (0x200008) word = true) :
    s.writeReg w (0x200008) word = (s.rasGrow (bits (word % 2 ^ 32) 0 10)).answers .ok 0 [] := by
  obtain ⟨hit, hf, he⟩ := writeReg_takes h
  obtain ⟨hb, hx, hu⟩ := hitAt_some hf (found_RAS_GROW)
  have hr : s.regEffect w (0x200008) hit (word % 2 ^ 32) = (s.rasGrow (bits (word % 2 ^ 32) 0 10), .ok) := by
    simp (disch := omega) only [State.regEffect, hu, if_neg, if_pos, State.writeRaster, hb, RegHit.i, RegHit.j, hx, List.getD_cons_zero, List.getD_cons_succ]
  rw [hr] at he
  dsimp only at he
  exact he (.inl rfl)

set_option Elab.async false in
theorem found_RAS_CNT_CTRL : hitAt (0x20001C) = some (0x20001C, [], none) := by decide +kernel

theorem writeReg_RAS_CNT_CTRL (h : s.takes w (0x20001C) word = true) :
    s.writeReg w (0x20001C) word = (s.when (bit (word % 2 ^ 32) 0) State.rasCntClr).answers .ok 0 [] := by
  obtain ⟨hit, hf, he⟩ := writeReg_takes h
  obtain ⟨hb, hx, hu⟩ := hitAt_some hf (found_RAS_CNT_CTRL)
  have hr : s.regEffect w (0x20001C) hit (word % 2 ^ 32) = (s.when (bit (word % 2 ^ 32) 0) State.rasCntClr, .ok) := by
    simp (disch := omega) only [State.regEffect, hu, if_neg, if_pos, State.writeRaster, hb, RegHit.i, RegHit.j, hx, List.getD_cons_zero, List.getD_cons_succ]
  rw [hr] at he
  dsimp only at he
  exact he (.inl rfl)

set_option Elab.async false in
theorem found_CSI_BUF_RET : ∀ (r : Fin 2) (x : Fin 2), hitAt (0x330128 + 0x1000 * r + 0x40 * x) = some (0x330128, [r.val, x.val], none) := by decide +kernel

theorem writeReg_CSI_BUF_RET (r : Fin 2) (x : Fin 2) (h : s.takes w (0x330128 + 0x1000 * r + 0x40 * x) word = true) :
    s.writeReg w (0x330128 + 0x1000 * r + 0x40 * x) word = (s.when (bit (word % 2 ^ 32) 0) fun s => s.csiReturn r x).answers .ok 0 [] := by
  obtain ⟨hit, hf, he⟩ := writeReg_takes h
  obtain ⟨hb, hx, hu⟩ := hitAt_some hf (found_CSI_BUF_RET r x)
  have := r.isLt
  have := x.isLt
  have hr : s.regEffect w (0x330128 + 0x1000 * r + 0x40 * x) hit (word % 2 ^ 32) = (s.when (bit (word % 2 ^ 32) 0) fun s => s.csiReturn r x, .ok) := by
    simp (disch := omega) only [State.regEffect, hu, if_neg, if_pos, State.writeCsi, hb, RegHit.i, RegHit.j, hx, List.getD_cons_zero, List.getD_cons_succ]
  rw [hr] at he
  dsimp only at he
  exact he (.inl rfl)

set_option Elab.async false in
set_option maxRecDepth 100000 in
theorem found_SQ_CTRL : ∀ (n : Fin 32) (q : Fin 8), hitAt (0x40010C + 0x1000 * n + 0x20 * q) = some (0x40010C, [n.val, q.val], none) := by decide +kernel

theorem writeReg_SQ_CTRL (n : Fin 32) (q : Fin 8) (h : s.takes w (0x40010C + 0x1000 * n + 0x20 * q) word = true) :
    s.writeReg w (0x40010C + 0x1000 * n + 0x20 * q) word = (s.writeSqCtrl n q (word % 2 ^ 32)).answers .ok 0 [] := by
  obtain ⟨hit, hf, he⟩ := writeReg_takes h
  obtain ⟨hb, hx, hu⟩ := hitAt_some hf (found_SQ_CTRL n q)
  have := n.isLt
  have := q.isLt
  have hr : s.regEffect w (0x40010C + 0x1000 * n + 0x20 * q) hit (word % 2 ^ 32) = (s.writeSqCtrl n q (word % 2 ^ 32), .ok) := by
    simp (disch := omega) only [State.regEffect, hu, if_neg, if_pos, State.writeHostq, hb, RegHit.i, RegHit.j, hx, List.getD_cons_zero, List.getD_cons_succ]
  rw [hr] at he
  dsimp only at he
  exact he (.inl rfl)

set_option Elab.async false in
set_option maxRecDepth 100000 in
theorem found_CQ_CFG : ∀ (n : Fin 32) (c : Fin 8), hitAt (0x400208 + 0x1000 * n + 0x20 * c) = some (0x400208, [n.val, c.val], none) := by decide +kernel

theorem writeReg_CQ_CFG (n : Fin 32) (c : Fin 8) (h : s.takes w (0x400208 + 0x1000 * n + 0x20 * c) word = true) :
    s.writeReg w (0x400208 + 0x1000 * n + 0x20 * c) word = (s.writeCqCfg n c (word % 2 ^ 32)).answers .ok 0 [] := by
  obtain ⟨hit, hf, he⟩ := writeReg_takes h
  obtain ⟨hb, hx, hu⟩ := hitAt_some hf (found_CQ_CFG n c)
  have := n.isLt
  have := c.isLt
  have hr : s.regEffect w (0x400208 + 0x1000 * n + 0x20 * c) hit (word % 2 ^ 32) = (s.writeCqCfg n c (word % 2 ^ 32), .ok) := by
    simp (disch := omega) only [State.regEffect, hu, if_neg, if_pos, State.writeHostq, hb, RegHit.i, RegHit.j, hx, List.getD_cons_zero, List.getD_cons_succ]
  rw [hr] at he
  dsimp only at he
  exact he (.inl rfl)

set_option Elab.async false in
theorem found_TILE_CNT_CTRL : ∀ (t : Fin 64), hitAt (0x800030 + 0x10000 * t) = some (0x800030, [t.val], none) := by decide +kernel

theorem writeReg_TILE_CNT_CTRL (t : Fin 64) (h : s.takes w (0x800030 + 0x10000 * t) word = true) :
    s.writeReg w (0x800030 + 0x10000 * t) word = (s.when (bit (word % 2 ^ 32) 0) fun s => s.tileCntClr t).answers .ok 0 [] := by
  obtain ⟨hit, hf, he⟩ := writeReg_takes h
  obtain ⟨hb, hx, hu⟩ := hitAt_some hf (found_TILE_CNT_CTRL t)
  have := t.isLt
  have hr : s.regEffect w (0x800030 + 0x10000 * t) hit (word % 2 ^ 32) = (s.when (bit (word % 2 ^ 32) 0) fun s => s.tileCntClr t, .ok) := by
    simp (disch := omega) only [State.regEffect, hu, if_neg, if_pos, State.writeTile, hb, RegHit.i, RegHit.j, hx, List.getD_cons_zero, List.getD_cons_succ]
  rw [hr] at he
  dsimp only at he
  exact he (.inl rfl)

/-- The fields of the register at an address. -/
def fieldsAt (a : Nat) : Option (List FieldDesc) := (regFind a).map fun h => h.d.fields

theorem fieldsAt_some {l : List FieldDesc} {hit : RegHit} (hf : regFind a = some hit) (hh : fieldsAt a = some l) : hit.d.fields = l := by
  simpa [fieldsAt, hf] using hh

set_option Elab.async false in
theorem found_AX_ENC : ∀ (n : Fin 12), hitAt (0x100088 + 0x1000 * n) = some (0x100088, [n.val], none) := by decide +kernel

set_option Elab.async false in
theorem fields_AX_ENC : ∀ (n : Fin 12), fieldsAt (0x100088 + 0x1000 * n) = some [⟨0, 2, .rwl, []⟩, ⟨2, 8, .rwl, []⟩, ⟨10, 2, .rw, []⟩, ⟨12, 1, .wo, []⟩, ⟨13, 1, .w1c, []⟩, ⟨14, 3, .rwl, []⟩] := by decide +kernel

theorem writeReg_AX_ENC (n : Fin 12) (h : s.takes w (0x100088 + 0x1000 * n) word = true) :
    ∃ hit : RegHit, hit.ix = [n.val] ∧ hit.d.fields = [⟨0, 2, .rwl, []⟩, ⟨2, 8, .rwl, []⟩, ⟨10, 2, .rw, []⟩, ⟨12, 1, .wo, []⟩, ⟨13, 1, .w1c, []⟩, ⟨14, 3, .rwl, []⟩] ∧
      s.writeReg w (0x100088 + 0x1000 * n) word = ((s.plainWrite (0x100088 + 0x1000 * n) hit (word % 2 ^ 32)).when (bit (word % 2 ^ 32) 12) fun s => s.axMod n fun x => { x with armed := true }).answers .ok 0 [] := by
  obtain ⟨hit, hf, he⟩ := writeReg_takes h
  obtain ⟨hb, hx, hu⟩ := hitAt_some hf (found_AX_ENC n)
  have hl := fieldsAt_some hf (fields_AX_ENC n)
  have := n.isLt
  have hr : s.regEffect w (0x100088 + 0x1000 * n) hit (word % 2 ^ 32) = ((s.plainWrite (0x100088 + 0x1000 * n) hit (word % 2 ^ 32)).when (bit (word % 2 ^ 32) 12) fun s => s.axMod n fun x => { x with armed := true }, .ok) := by
    simp (disch := omega) only [State.regEffect, hu, if_neg, if_pos, State.writeAxes, hb, RegHit.i, RegHit.j, hx, List.getD_cons_zero, List.getD_cons_succ]
  rw [hr] at he
  dsimp only at he
  exact ⟨hit, hx, hl, he (.inl rfl)⟩

set_option Elab.async false in
theorem found_AX_ENC_CNT : ∀ (n : Fin 12), hitAt (0x10008C + 0x1000 * n) = some (0x10008C, [n.val], none) := by decide +kernel

set_option Elab.async false in
theorem fields_AX_ENC_CNT : ∀ (n : Fin 12), fieldsAt (0x10008C + 0x1000 * n) = some [⟨0, 32, .rw, []⟩] := by decide +kernel

theorem writeReg_AX_ENC_CNT (n : Fin 12) (h : s.takes w (0x10008C + 0x1000 * n) word = true) :
    ∃ hit : RegHit, hit.ix = [n.val] ∧ hit.d.fields = [⟨0, 32, .rw, []⟩] ∧
      s.writeReg w (0x10008C + 0x1000 * n) word = (s.plainWrite (0x10008C + 0x1000 * n) hit (word % 2 ^ 32)).answers .ok 0 [] := by
  obtain ⟨hit, hf, he⟩ := writeReg_takes h
  obtain ⟨hb, hx, hu⟩ := hitAt_some hf (found_AX_ENC_CNT n)
  have hl := fieldsAt_some hf (fields_AX_ENC_CNT n)
  have := n.isLt
  have hr : s.regEffect w (0x10008C + 0x1000 * n) hit (word % 2 ^ 32) = (s.plainWrite (0x10008C + 0x1000 * n) hit (word % 2 ^ 32), .ok) := by
    simp (disch := omega) only [State.regEffect, hu, if_neg, if_pos, State.writeAxes, hb, RegHit.i, RegHit.j, hx, List.getD_cons_zero, List.getD_cons_succ]
  rw [hr] at he
  dsimp only at he
  exact ⟨hit, hx, hl, he (.inl rfl)⟩

set_option Elab.async false in
theorem found_INJ_GRP_CTRL : ∀ (g : Fin 8), hitAt (0x121800 + 4 * g) = some (0x121800, [g.val], none) := by decide +kernel

set_option Elab.async false in
theorem fields_INJ_GRP_CTRL : ∀ (g : Fin 8), fieldsAt (0x121800 + 4 * g) = some [⟨0, 1, .wo, []⟩, ⟨1, 1, .wo, []⟩, ⟨2, 1, .wo, []⟩, ⟨3, 1, .ro, []⟩, ⟨4, 1, .rwl, []⟩, ⟨16, 16, .ro, []⟩] := by decide +kernel

theorem writeReg_INJ_GRP_CTRL (g : Fin 8) (h : s.takes w (0x121800 + 4 * g) word = true) :
    ∃ hit : RegHit, hit.ix = [g.val] ∧ hit.d.fields = [⟨0, 1, .wo, []⟩, ⟨1, 1, .wo, []⟩, ⟨2, 1, .wo, []⟩, ⟨3, 1, .ro, []⟩, ⟨4, 1, .rwl, []⟩, ⟨16, 16, .ro, []⟩] ∧
      s.writeReg w (0x121800 + 4 * g) word = ((((s.plainWrite (0x121800 + 4 * g) hit (word % 2 ^ 32)).when (bit (word % 2 ^ 32) 0) fun s => s.injGo g).when (bit (word % 2 ^ 32) 1) fun s => s.injStop g).when (bit (word % 2 ^ 32) 2) fun s => s.injAbort g).answers .ok 0 [] := by
  obtain ⟨hit, hf, he⟩ := writeReg_takes h
  obtain ⟨hb, hx, hu⟩ := hitAt_some hf (found_INJ_GRP_CTRL g)
  have hl := fieldsAt_some hf (fields_INJ_GRP_CTRL g)
  have := g.isLt
  have hr : s.regEffect w (0x121800 + 4 * g) hit (word % 2 ^ 32) = ((((s.plainWrite (0x121800 + 4 * g) hit (word % 2 ^ 32)).when (bit (word % 2 ^ 32) 0) fun s => s.injGo g).when (bit (word % 2 ^ 32) 1) fun s => s.injStop g).when (bit (word % 2 ^ 32) 2) fun s => s.injAbort g, .ok) := by
    simp (disch := omega) only [State.regEffect, hu, if_neg, if_pos, State.writeChanter, State.writeInjGrp, hb, RegHit.i, RegHit.j, hx, List.getD_cons_zero, List.getD_cons_succ]
  rw [hr] at he
  dsimp only at he
  exact ⟨hit, hx, hl, he (.inl rfl)⟩

set_option Elab.async false in
theorem found_WW_CTRL : hitAt (0x300000) = some (0x300000, [], none) := by decide +kernel

set_option Elab.async false in
theorem fields_WW_CTRL : fieldsAt (0x300000) = some [⟨0, 1, .rw, []⟩, ⟨1, 1, .rw, []⟩, ⟨2, 4, .rw, [15]⟩, ⟨6, 1, .wo, []⟩, ⟨7, 1, .wo, []⟩] := by decide +kernel

theorem writeReg_WW_CTRL (h : s.takes w (0x300000) word = true) :
    ∃ hit : RegHit, hit.ix = [] ∧ hit.d.fields = [⟨0, 1, .rw, []⟩, ⟨1, 1, .rw, []⟩, ⟨2, 4, .rw, [15]⟩, ⟨6, 1, .wo, []⟩, ⟨7, 1, .wo, []⟩] ∧
      s.writeReg w (0x300000) word = (((s.plainWrite (0x300000) hit (word % 2 ^ 32)).when (bit (word % 2 ^ 32) 6) State.gfClear).when (bit (word % 2 ^ 32) 7) State.nrClear).answers .ok 0 [] := by
  obtain ⟨hit, hf, he⟩ := writeReg_takes h
  obtain ⟨hb, hx, hu⟩ := hitAt_some hf (found_WW_CTRL)
  have hl := fieldsAt_some hf (fields_WW_CTRL)
  have hr : s.regEffect w (0x300000) hit (word % 2 ^ 32) = (((s.plainWrite (0x300000) hit (word % 2 ^ 32)).when (bit (word % 2 ^ 32) 6) State.gfClear).when (bit (word % 2 ^ 32) 7) State.nrClear, .ok) := by
    simp (disch := omega) only [State.regEffect, hu, if_neg, if_pos, State.writeWindway, hb, RegHit.i, RegHit.j, hx, List.getD_cons_zero, List.getD_cons_succ]
  rw [hr] at he
  dsimp only at he
  exact ⟨hit, hx, hl, he (.inl rfl)⟩

set_option Elab.async false in
theorem found_WL_CTRL : ∀ (n : Fin 8), hitAt (0x300040 + 0x40 * n) = some (0x300040, [n.val], none) := by decide +kernel

set_option Elab.async false in
theorem fields_WL_CTRL : ∀ (n : Fin 8), fieldsAt (0x300040 + 0x40 * n) = some [⟨0, 1, .rw, []⟩, ⟨1, 1, .rwl, []⟩] := by decide +kernel

theorem writeReg_WL_CTRL (n : Fin 8) (h : s.takes w (0x300040 + 0x40 * n) word = true) :
    ∃ hit : RegHit, hit.ix = [n.val] ∧ hit.d.fields = [⟨0, 1, .rw, []⟩, ⟨1, 1, .rwl, []⟩] ∧
      s.writeReg w (0x300040 + 0x40 * n) word = ((s.plainWrite (0x300040 + 0x40 * n) hit (word % 2 ^ 32)).writePortEn n (s.on (R.WL_CTRL_EN n)) (bit (word % 2 ^ 32) 0)).answers .ok 0 [] := by
  obtain ⟨hit, hf, he⟩ := writeReg_takes h
  obtain ⟨hb, hx, hu⟩ := hitAt_some hf (found_WL_CTRL n)
  have hl := fieldsAt_some hf (fields_WL_CTRL n)
  have := n.isLt
  have hr : s.regEffect w (0x300040 + 0x40 * n) hit (word % 2 ^ 32) = ((s.plainWrite (0x300040 + 0x40 * n) hit (word % 2 ^ 32)).writePortEn n (s.on (R.WL_CTRL_EN n)) (bit (word % 2 ^ 32) 0), .ok) := by
    simp (disch := omega) only [State.regEffect, hu, if_neg, if_pos, State.writeWindway, hb, RegHit.i, RegHit.j, hx, List.getD_cons_zero, List.getD_cons_succ]
  rw [hr] at he
  dsimp only at he
  exact ⟨hit, hx, hl, he (.inl rfl)⟩

set_option Elab.async false in
theorem found_WT_CTRL : ∀ (k : Fin 4), hitAt (0x300400 + 0x40 * k) = some (0x300400, [k.val], none) := by decide +kernel

set_option Elab.async false in
theorem fields_WT_CTRL : ∀ (k : Fin 4), fieldsAt (0x300400 + 0x40 * k) = some [⟨0, 1, .rw, []⟩, ⟨1, 2, .rwl, []⟩, ⟨3, 1, .rwl, []⟩, ⟨4, 12, .rwl, []⟩, ⟨16, 12, .rwl, []⟩] := by decide +kernel

theorem writeReg_WT_CTRL (k : Fin 4) (h : s.takes w (0x300400 + 0x40 * k) word = true) :
    ∃ hit : RegHit, hit.ix = [k.val] ∧ hit.d.fields = [⟨0, 1, .rw, []⟩, ⟨1, 2, .rwl, []⟩, ⟨3, 1, .rwl, []⟩, ⟨4, 12, .rwl, []⟩, ⟨16, 12, .rwl, []⟩] ∧
      s.writeReg w (0x300400 + 0x40 * k) word = ((s.plainWrite (0x300400 + 0x40 * k) hit (word % 2 ^ 32)).writePortEn (8 + k) (s.on (R.WT_CTRL_EN k)) (bit (word % 2 ^ 32) 0)).answers .ok 0 [] := by
  obtain ⟨hit, hf, he⟩ := writeReg_takes h
  obtain ⟨hb, hx, hu⟩ := hitAt_some hf (found_WT_CTRL k)
  have hl := fieldsAt_some hf (fields_WT_CTRL k)
  have := k.isLt
  have hr : s.regEffect w (0x300400 + 0x40 * k) hit (word % 2 ^ 32) = ((s.plainWrite (0x300400 + 0x40 * k) hit (word % 2 ^ 32)).writePortEn (8 + k) (s.on (R.WT_CTRL_EN k)) (bit (word % 2 ^ 32) 0), .ok) := by
    simp (disch := omega) only [State.regEffect, hu, if_neg, if_pos, State.writeWindway, hb, RegHit.i, RegHit.j, hx, List.getD_cons_zero, List.getD_cons_succ]
  rw [hr] at he
  dsimp only at he
  exact ⟨hit, hx, hl, he (.inl rfl)⟩

set_option Elab.async false in
theorem found_SWEEP_CTRL : hitAt (0x300800) = some (0x300800, [], none) := by decide +kernel

set_option Elab.async false in
theorem fields_SWEEP_CTRL : fieldsAt (0x300800) = some [⟨0, 1, .wo, []⟩, ⟨1, 1, .wo, []⟩, ⟨2, 3, .rw, []⟩, ⟨8, 4, .rw, [3]⟩] := by decide +kernel

theorem writeReg_SWEEP_CTRL (h : s.takes w (0x300800) word = true) :
    ∃ hit : RegHit, hit.ix = [] ∧ hit.d.fields = [⟨0, 1, .wo, []⟩, ⟨1, 1, .wo, []⟩, ⟨2, 3, .rw, []⟩, ⟨8, 4, .rw, [3]⟩] ∧
      s.writeReg w (0x300800) word = (((s.plainWrite (0x300800) hit (word % 2 ^ 32)).when (bit (word % 2 ^ 32) 0) State.sweepGo).when (bit (word % 2 ^ 32) 1) State.sweepAbort).answers .ok 0 [] := by
  obtain ⟨hit, hf, he⟩ := writeReg_takes h
  obtain ⟨hb, hx, hu⟩ := hitAt_some hf (found_SWEEP_CTRL)
  have hl := fieldsAt_some hf (fields_SWEEP_CTRL)
  have hr : s.regEffect w (0x300800) hit (word % 2 ^ 32) = (((s.plainWrite (0x300800) hit (word % 2 ^ 32)).when (bit (word % 2 ^ 32) 0) State.sweepGo).when (bit (word % 2 ^ 32) 1) State.sweepAbort, .ok) := by
    simp (disch := omega) only [State.regEffect, hu, if_neg, if_pos, State.writeWindway, hb, RegHit.i, RegHit.j, hx, List.getD_cons_zero, List.getD_cons_succ]
  rw [hr] at he
  dsimp only at he
  exact ⟨hit, hx, hl, he (.inl rfl)⟩

set_option Elab.async false in
theorem found_QBV_CTRL : ∀ (p : Fin 4), hitAt (0x310600 + 0x1000 * p) = some (0x310600, [p.val], none) := by decide +kernel

set_option Elab.async false in
theorem fields_QBV_CTRL : ∀ (p : Fin 4), fieldsAt (0x310600 + 0x1000 * p) = some [⟨0, 1, .rw, []⟩, ⟨1, 1, .wo, []⟩] := by decide +kernel

theorem writeReg_QBV_CTRL (p : Fin 4) (h : s.takes w (0x310600 + 0x1000 * p) word = true) :
    ∃ hit : RegHit, hit.ix = [p.val] ∧ hit.d.fields = [⟨0, 1, .rw, []⟩, ⟨1, 1, .wo, []⟩] ∧
      s.writeReg w (0x310600 + 0x1000 * p) word = ((s.plainWrite (0x310600 + 0x1000 * p) hit (word % 2 ^ 32)).when (bit (word % 2 ^ 32) 1) fun s => s.qbvChange p).answers .ok 0 [] := by
  obtain ⟨hit, hf, he⟩ := writeReg_takes h
  obtain ⟨hb, hx, hu⟩ := hitAt_some hf (found_QBV_CTRL p)
  have hl := fieldsAt_some hf (fields_QBV_CTRL p)
  have := p.isLt
  have hr : s.regEffect w (0x310600 + 0x1000 * p) hit (word % 2 ^ 32) = ((s.plainWrite (0x310600 + 0x1000 * p) hit (word % 2 ^ 32)).when (bit (word % 2 ^ 32) 1) fun s => s.qbvChange p, .ok) := by
    have hm : ((0x310600 + 0x1000 * p : Nat)) % 0x1000 = 1536 := by omega
    simp (disch := omega) only [State.regEffect, hu, if_neg, if_pos, if_true, State.writeEth, hm, RegHit.i, RegHit.j, hx, List.getD_cons_zero, List.getD_cons_succ]
    try simp (disch := omega) only [if_neg, if_pos]
  rw [hr] at he
  dsimp only at he
  exact ⟨hit, hx, hl, he (.inl rfl)⟩

set_option Elab.async false in
theorem found_ST_RATE : hitAt (0x314008) = some (0x314008, [], none) := by decide +kernel

set_option Elab.async false in
theorem fields_ST_RATE : fieldsAt (0x314008) = some [⟨0, 32, .rw, []⟩] := by decide +kernel

theorem writeReg_ST_RATE (h : s.takes w (0x314008) word = true) :
    ∃ hit : RegHit, hit.ix = [] ∧ hit.d.fields = [⟨0, 32, .rw, []⟩] ∧
      s.writeReg w (0x314008) word = (s.plainWrite (0x314008) hit (word % 2 ^ 32)).answers .ok 0 [] := by
  obtain ⟨hit, hf, he⟩ := writeReg_takes h
  obtain ⟨hb, hx, hu⟩ := hitAt_some hf (found_ST_RATE)
  have hl := fieldsAt_some hf (fields_ST_RATE)
  have hr : s.regEffect w (0x314008) hit (word % 2 ^ 32) = (s.plainWrite (0x314008) hit (word % 2 ^ 32), .ok) := by
    simp (disch := omega) only [State.regEffect, hu, if_neg, if_pos, if_true, State.writeEth, RegHit.i, RegHit.j, hx, List.getD_cons_zero, List.getD_cons_succ]
  rw [hr] at he
  dsimp only at he
  exact ⟨hit, hx, hl, he (.inl rfl)⟩

set_option Elab.async false in
theorem found_ST_STEP_HI : hitAt (0x314010) = some (0x314010, [], none) := by decide +kernel

set_option Elab.async false in
theorem fields_ST_STEP_HI : fieldsAt (0x314010) = some [⟨0, 16, .wo, []⟩] := by decide +kernel

theorem writeReg_ST_STEP_HI (h : s.takes w (0x314010) word = true) :
    ∃ hit : RegHit, hit.ix = [] ∧ hit.d.fields = [⟨0, 16, .wo, []⟩] ∧
      s.writeReg w (0x314010) word = (s.timeStep (bits (word % 2 ^ 32) 0 16)).answers .ok 0 [] := by
  obtain ⟨hit, hf, he⟩ := writeReg_takes h
  obtain ⟨hb, hx, hu⟩ := hitAt_some hf (found_ST_STEP_HI)
  have hl := fieldsAt_some hf (fields_ST_STEP_HI)
  have hr : s.regEffect w (0x314010) hit (word % 2 ^ 32) = (s.timeStep (bits (word % 2 ^ 32) 0 16), .ok) := by
    simp (disch := omega) only [State.regEffect, hu, if_neg, if_pos, if_true, State.writeEth, RegHit.i, RegHit.j, hx, List.getD_cons_zero, List.getD_cons_succ]
  rw [hr] at he
  dsimp only at he
  exact ⟨hit, hx, hl, he (.inl rfl)⟩

set_option Elab.async false in
theorem found_CAN_CTRL : ∀ (c : Fin 4), hitAt (0x320000 + 0x1000 * c) = some (0x320000, [c.val], none) := by decide +kernel

set_option Elab.async false in
theorem fields_CAN_CTRL : ∀ (c : Fin 4), fieldsAt (0x320000 + 0x1000 * c) = some [⟨0, 1, .rw, []⟩, ⟨1, 1, .rw, []⟩, ⟨2, 1, .rwl, []⟩, ⟨3, 1, .rw, []⟩, ⟨4, 1, .wo, []⟩] := by decide +kernel

theorem writeReg_CAN_CTRL (c : Fin 4) (h : s.takes w (0x320000 + 0x1000 * c) word = true) :
    ∃ hit : RegHit, hit.ix = [c.val] ∧ hit.d.fields = [⟨0, 1, .rw, []⟩, ⟨1, 1, .rw, []⟩, ⟨2, 1, .rwl, []⟩, ⟨3, 1, .rw, []⟩, ⟨4, 1, .wo, []⟩] ∧
      s.writeReg w (0x320000 + 0x1000 * c) word = ((s.plainWrite (0x320000 + 0x1000 * c) hit (word % 2 ^ 32)).when (bit (word % 2 ^ 32) 4) fun s => s.canPermit c).answers .ok 0 [] := by
  obtain ⟨hit, hf, he⟩ := writeReg_takes h
  obtain ⟨hb, hx, hu⟩ := hitAt_some hf (found_CAN_CTRL c)
  have hl := fieldsAt_some hf (fields_CAN_CTRL c)
  have := c.isLt
  have hr : s.regEffect w (0x320000 + 0x1000 * c) hit (word % 2 ^ 32) = ((s.plainWrite (0x320000 + 0x1000 * c) hit (word % 2 ^ 32)).when (bit (word % 2 ^ 32) 4) fun s => s.canPermit c, .ok) := by
    have hm : ((0x320000 + 0x1000 * c : Nat)) % 0x1000 = 0 := by omega
    simp (disch := omega) only [State.regEffect, hu, if_neg, if_pos, if_true, State.writeCan, hm, RegHit.i, RegHit.j, hx, List.getD_cons_zero, List.getD_cons_succ]
    try simp (disch := omega) only [if_neg, if_pos]
  rw [hr] at he
  dsimp only at he
  exact ⟨hit, hx, hl, he (.inl rfl)⟩

set_option Elab.async false in
theorem found_CAN_TXREQ : ∀ (c : Fin 4), hitAt (0x320040 + 0x1000 * c) = some (0x320040, [c.val], none) := by decide +kernel

set_option Elab.async false in
theorem fields_CAN_TXREQ : ∀ (c : Fin 4), fieldsAt (0x320040 + 0x1000 * c) = some [⟨0, 16, .w1s, []⟩] := by decide +kernel

theorem writeReg_CAN_TXREQ (c : Fin 4) (h : s.takes w (0x320040 + 0x1000 * c) word = true) :
    ∃ hit : RegHit, hit.ix = [c.val] ∧ hit.d.fields = [⟨0, 16, .w1s, []⟩] ∧
      s.writeReg w (0x320040 + 0x1000 * c) word = (s.canQueue c (word % 2 ^ 32)).answers .ok 0 [] := by
  obtain ⟨hit, hf, he⟩ := writeReg_takes h
  obtain ⟨hb, hx, hu⟩ := hitAt_some hf (found_CAN_TXREQ c)
  have hl := fieldsAt_some hf (fields_CAN_TXREQ c)
  have := c.isLt
  have hr : s.regEffect w (0x320040 + 0x1000 * c) hit (word % 2 ^ 32) = (s.canQueue c (word % 2 ^ 32), .ok) := by
    have hm : ((0x320040 + 0x1000 * c : Nat)) % 0x1000 = 64 := by omega
    simp (disch := omega) only [State.regEffect, hu, if_neg, if_pos, if_true, State.writeCan, hm, RegHit.i, RegHit.j, hx, List.getD_cons_zero, List.getD_cons_succ]
    try simp (disch := omega) only [if_neg, if_pos]
  rw [hr] at he
  dsimp only at he
  exact ⟨hit, hx, hl, he (.inl rfl)⟩

set_option Elab.async false in
theorem found_SEL_CTRL : ∀ (t : Fin 64), hitAt (0x800040 + 0x10000 * t) = some (0x800040, [t.val], none) := by decide +kernel

set_option Elab.async false in
theorem fields_SEL_CTRL : ∀ (t : Fin 64), fieldsAt (0x800040 + 0x10000 * t) = some [⟨0, 1, .rw, []⟩, ⟨1, 1, .wo, []⟩] := by decide +kernel

theorem writeReg_SEL_CTRL (t : Fin 64) (h : s.takes w (0x800040 + 0x10000 * t) word = true) :
    ∃ hit : RegHit, hit.ix = [t.val] ∧ hit.d.fields = [⟨0, 1, .rw, []⟩, ⟨1, 1, .wo, []⟩] ∧
      s.writeReg w (0x800040 + 0x10000 * t) word = ((s.plainWrite (0x800040 + 0x10000 * t) hit (word % 2 ^ 32)).when (bit (word % 2 ^ 32) 1) fun s => s.selCntClr t).answers .ok 0 [] := by
  obtain ⟨hit, hf, he⟩ := writeReg_takes h
  obtain ⟨hb, hx, hu⟩ := hitAt_some hf (found_SEL_CTRL t)
  have hl := fieldsAt_some hf (fields_SEL_CTRL t)
  have := t.isLt
  have hr : s.regEffect w (0x800040 + 0x10000 * t) hit (word % 2 ^ 32) = ((s.plainWrite (0x800040 + 0x10000 * t) hit (word % 2 ^ 32)).when (bit (word % 2 ^ 32) 1) fun s => s.selCntClr t, .ok) := by
    simp (disch := omega) only [State.regEffect, hu, if_neg, if_pos, State.writeTile, hb, RegHit.i, RegHit.j, hx, List.getD_cons_zero, List.getD_cons_succ]
  rw [hr] at he
  dsimp only at he
  exact ⟨hit, hx, hl, he (.inl rfl)⟩

set_option Elab.async false in
theorem found_GLOBAL_IRQ_CORE : ∀ (k : Fin 4), hitAt (0x70 + 4 * k) = some (0x70, [k.val], none) := by decide +kernel

set_option Elab.async false in
theorem fields_GLOBAL_IRQ_CORE : ∀ (k : Fin 4), fieldsAt (0x70 + 4 * k) = some [⟨0, 19, .rw, [0x7FFFF]⟩] := by decide +kernel

theorem writeReg_GLOBAL_IRQ_CORE (k : Fin 4) (h : s.takes w (0x70 + 4 * k) word = true) :
    ∃ hit : RegHit, hit.ix = [k.val] ∧ hit.d.fields = [⟨0, 19, .rw, [0x7FFFF]⟩] ∧
      s.writeReg w (0x70 + 4 * k) word = (s.plainWrite (0x70 + 4 * k) hit (word % 2 ^ 32)).answers .ok 0 [] := by
  obtain ⟨hit, hf, he⟩ := writeReg_takes h
  obtain ⟨hb, hx, hu⟩ := hitAt_some hf (found_GLOBAL_IRQ_CORE k)
  have hl := fieldsAt_some hf (fields_GLOBAL_IRQ_CORE k)
  have := k.isLt
  have hr : s.regEffect w (0x70 + 4 * k) hit (word % 2 ^ 32) = (s.plainWrite (0x70 + 4 * k) hit (word % 2 ^ 32), .ok) := by
    simp (disch := omega) only [State.regEffect, hu, if_neg, if_pos, State.writeGlobal, hb, RegHit.i, RegHit.j, hx, List.getD_cons_zero, List.getD_cons_succ]
  rw [hr] at he
  dsimp only at he
  exact ⟨hit, hx, hl, he (.inl rfl)⟩

end Sys2Proof.Machine
end

