-- ==== Sys2Proof/Laws/BusWin.lean ====
section
/-! SUPPORT. What writes and reads of the windows of sequencers and sinks do that the register space takes, and what register
reads with an effect return. -/

set_option linter.unusedSimpArgs false

namespace Sys2Proof.Machine

variable {s : State} {w : Who} {a b u word : Nat}

/-! ### Where the windows lie -/

theorem window_isUnit (h : windowOf u = some b) : (isSeq u || isSink u) = true := by
  unfold windowOf at h
  unfold isSeq isSink rowsOf
  split_ifs at h with h1 h2 h3 h4 h5 h6 h7
  all_goals first | (simp at h; done) | (split_ifs <;> simp_all)

/-- The bytes of the window of a unit. -/
def windowSpan (u : Nat) : Nat := if u < 0x40 then 0x8000 else if u < 0x58 then 0x4000 else 0x2000

theorem window_addr (h : windowOf u = some b) {o : Nat} (ho : o < windowSpan u) : unitOfAddr (b + o) = some u := by
  unfold windowOf at h
  unfold windowSpan at ho
  split_ifs at h with h1 h2 h3 h4 h5 h6 h7
  all_goals first
    | (simp at h; done)
    | (obtain rfl := Option.some.inj h
       simp (disch := omega) only [if_pos, if_neg] at ho
       unfold unitOfAddr
       simp (disch := omega) only [if_pos, if_neg, Option.some.injEq]
       try omega)

theorem win_eq (h : windowOf u = some b) : win u = b := by simp [win, h]

/-- The register of a window at an offset. -/
def winHit (u o : Nat) : Option (Nat × List Nat) := (findReg (windowRegs u) o).map fun p => (p.1.base, p.2)

theorem hitAt_window (h : windowOf u = some b) {o B : Nat} {l : List Nat} (ho : o < windowSpan u) (hw : winHit u o = some (B, l))
    (hr : B ≠ 0x2000 ∨ l.headD 0 < rowsOf u) : hitAt (b + o) = some (B, l, some u) := by
  unfold winHit at hw
  rw [Option.map_eq_some_iff] at hw
  obtain ⟨⟨d, ix⟩, hd, he⟩ := hw
  simp only [Prod.mk.injEq] at he
  obtain ⟨rfl, rfl⟩ := he
  have hu := window_isUnit h
  simp only [hitAt, regFind, window_addr h ho, win_eq h, hu]
  have hd' : findReg (windowRegs u) (b + o - b) = some (d, ix) := by rw [Nat.add_sub_cancel_left]; exact hd
  simp only [Bool.not_true, Bool.false_or, decide_eq_true_eq, hd']
  rw [if_neg (by omega), if_neg (by omega)]
  rfl

theorem windowRegs_cases (u : Nat) : windowRegs u = seqRegs ++ tokRegs ++ rowRegs ∨ windowRegs u = tokRegs ++ sinkRegs := by
  unfold windowRegs; split
  · exact .inl rfl
  · exact .inr rfl

/-- A write of a window register at an offset that is taken acts on its unit. -/
theorem writeWin_takes (hb : windowOf u = some b) {o B : Nat} {l : List Nat} (ho : o < windowSpan u) (hw : winHit u o = some (B, l))
    (hr : B ≠ 0x2000 ∨ l.headD 0 < rowsOf u) (h : s.takes w (b + o) word = true) :
    ∃ hit : RegHit, hit.d.base = B ∧ hit.ix = l ∧
      s.writeWin w u o word = (s.writeWindow w u (b + o) hit (word % 2 ^ 32)).answers .ok 0 [] := by
  obtain ⟨hit, hf, he⟩ := writeReg_takes h
  obtain ⟨h1, h2, h3⟩ := hitAt_some hf (hitAt_window hb ho hw hr)
  refine ⟨hit, h1, h2, ?_⟩
  simp only [State.regEffect, h3] at he
  simp only [State.writeWin, hb]
  exact he (.inl trivial)

/-- As `writeWin_takes`, with the effect given. -/
theorem writeWinAs_takes (hb : windowOf u = some b) {o : Nat} (f : State → State) (h : s.takes w (b + o) word = true) :
    s.writeWinAs w u o word f = (f s).answers .ok 0 [] := by
  obtain ⟨hit, hf, he⟩ := regWriteAs_takes h fun s _ => (f s, Status.ok)
  simp only [State.writeWinAs, hb, he (.inl rfl)]

/-! ### The registers of a window -/

set_option Elab.async false in
theorem seqHit_ctxCtrl : ∀ c : Fin 16, ((findReg (seqRegs ++ tokRegs ++ rowRegs) (0x100 + 0x10 * c)).map fun p => (p.1.base, p.2)) = some (0x100, [c.val]) := by
  decide +kernel

set_option Elab.async false in
theorem seqHit_ctxPc : ∀ c : Fin 16, ((findReg (seqRegs ++ tokRegs ++ rowRegs) (0x104 + 0x10 * c)).map fun p => (p.1.base, p.2)) = some (0x104, [c.val]) := by
  decide +kernel

set_option Elab.async false in
theorem seqHit_row7 : ∀ r : Fin 512, ((findReg (seqRegs ++ tokRegs ++ rowRegs) (0x2000 + 0x20 * r + 0x1C)).map fun p => (p.1.base, p.2)) =
    some (0x2000, [r.val, 7]) := by
  decide +kernel

set_option Elab.async false in
theorem sinkHit_tokTake : ∀ c k : Fin 16, ((findReg (tokRegs ++ sinkRegs) (0x1000 + 0x40 * c + 4 * k)).map fun p => (p.1.base, p.2)) =
    some (0x1000, [c.val, k.val]) := by
  decide +kernel

set_option Elab.async false in
theorem seqHit_err : ((findReg (seqRegs ++ tokRegs ++ rowRegs) 8).map fun p => (p.1.base, p.2)) = some (0x8, []) := by
  decide +kernel

theorem seqSpan (hq : isSeq u = true) : 0x2000 + 0x20 * rowsOf u ≤ windowSpan u ∧ 0x4000 ≤ windowSpan u := by
  unfold isSeq rowsOf at hq
  unfold windowSpan rowsOf
  split_ifs at hq ⊢ <;> first | (simp at hq; done) | omega

theorem sinkNotSeq (h : isSink u = true) : isSeq u = false ∧ windowSpan u = 0x2000 := by
  simp only [isSink, Bool.or_eq_true, Bool.and_eq_true, decide_eq_true_eq, beq_iff_eq] at h
  unfold isSeq windowSpan rowsOf
  constructor
  · split_ifs <;> first | rfl | (exfalso; omega)
  · split_ifs <;> first | rfl | omega

theorem winHit_seq (hq : isSeq u = true) (o : Nat) :
    winHit u o = (findReg (seqRegs ++ tokRegs ++ rowRegs) o).map fun p => (p.1.base, p.2) := by
  simp [winHit, windowRegs, hq]

theorem writeWin_ctxCtrl (hb : windowOf u = some b) (hq : isSeq u = true) (c : Fin 16) (h : s.takes w (b + (0x100 + 0x10 * c)) word = true) :
    ∃ o : Bool, s.writeWin w u (0x100 + 0x10 * c) word = (s.writeCtxCtrl u c (word % 2 ^ 32) o).answers .ok 0 [] := by
  have := seqSpan hq; have := c.isLt
  obtain ⟨hit, h1, h2, h3⟩ := writeWin_takes hb (by omega) ((winHit_seq hq _).trans (seqHit_ctxCtrl c)) (.inl (by decide)) h
  refine ⟨s.rwlOpen (b + (0x100 + 0x10 * c)) hit, ?_⟩
  rw [h3]
  simp only [State.writeWindow, h1, RegHit.i, h2, List.getD_cons_zero]

theorem writeWin_ctxPc (hb : windowOf u = some b) (hq : isSeq u = true) (c : Fin 16) (h : s.takes w (b + (0x104 + 0x10 * c)) word = true) :
    s.writeWin w u (0x104 + 0x10 * c) word = (s.writeCtxPc u c (word % 2 ^ 32)).answers .ok 0 [] := by
  have := seqSpan hq; have := c.isLt
  obtain ⟨hit, h1, h2, h3⟩ := writeWin_takes hb (by omega) ((winHit_seq hq _).trans (seqHit_ctxPc c)) (.inl (by decide)) h
  rw [h3]
  simp only [State.writeWindow, h1, RegHit.i, h2, List.getD_cons_zero]

theorem writeWin_row7 (hb : windowOf u = some b) (hq : isSeq u = true) (r : Fin 512) (hr : r.val < rowsOf u)
    (h : s.takes w (b + (0x2000 + 0x20 * r + 0x1C)) word = true) :
    s.writeWin w u (0x2000 + 0x20 * r + 0x1C) word = (s.writeRowWord u r 7 (word % 2 ^ 32)).answers .ok 0 [] := by
  have := seqSpan hq
  obtain ⟨hit, h1, h2, h3⟩ := writeWin_takes hb (by omega) ((winHit_seq hq _).trans (seqHit_row7 r)) (.inr hr) h
  rw [h3]
  simp only [State.writeWindow, h1, RegHit.i, RegHit.j, h2, List.getD_cons_zero, List.getD_cons_succ]

theorem writeWin_tokTake (hb : windowOf u = some b) (hq : isSink u = true) (c k : Fin 16)
    (h : s.takes w (b + (0x1000 + 0x40 * c + 4 * k)) word = true) :
    s.writeWin w u (0x1000 + 0x40 * c + 4 * k) word = (s.tokTake u c k (bits (word % 2 ^ 32) 0 16) w.cls).answers .ok 0 [] := by
  have hn := sinkNotSeq hq; have := c.isLt; have := k.isLt
  obtain ⟨hit, h1, h2, h3⟩ := writeWin_takes hb (o := 0x1000 + 0x40 * c + 4 * k) (B := 0x1000) (l := [c.val, k.val]) (by omega)
    ((show winHit u _ = _ by simp only [winHit, windowRegs, hn.1, Bool.false_eq_true, if_false]).trans (sinkHit_tokTake c k)) (.inl (by decide)) h
  rw [h3]
  simp only [State.writeWindow, h1, RegHit.i, RegHit.j, h2, List.getD_cons_zero, List.getD_cons_succ]

/-! ### Reads -/

/-- A taken read of a register that is a window on a queue. -/
theorem readReg_pop (h : s.gives w a = true) {B : Nat} {l : List Nat} (hh : hitAt a = some (B, l, none)) {v : Nat} {t : State}
    (hp : ∀ hit : RegHit, hit.d.base = B → hit.ix = l → hit.unit = none → s.popRead hit = some (v, t)) :
    s.readReg w a = t.answers .ok (v % 2 ^ 32) [] := by
  obtain ⟨hit, hf, he⟩ := readReg_gives h
  obtain ⟨h1, h2, h3⟩ := hitAt_some hf hh
  rw [he]
  simp only [State.regTake, hp hit h1 h2 h3]

/-- A taken read of a register that shows a value formed at the read. -/
theorem readReg_live (h : s.gives w a = true) {B : Nat} {l : List Nat} (hh : hitAt a = some (B, l, none)) {v : Nat} {t : State}
    (hp : ∀ hit : RegHit, hit.d.base = B → hit.ix = l → hit.unit = none → s.popRead hit = none ∧
      s.liveWord w hit (s.readFields a hit.i hit.d.fields) = v ∧ s.readEffect a hit = t) :
    s.readReg w a = t.answers .ok (v % 2 ^ 32) [] := by
  obtain ⟨hit, hf, he⟩ := readReg_gives h
  obtain ⟨h1, h2, h3⟩ := hitAt_some hf hh
  obtain ⟨p1, p2, p3⟩ := hp hit h1 h2 h3
  rw [he]
  simp only [State.regTake, p1, p2, p3]

end Sys2Proof.Machine
end

