-- ==== Sys2Proof/Laws/Frame.lean ====
section
/-! SUPPORT. How the frames of claims compose: which register fields an update leaves as they were. -/

namespace Sys2Proof.Machine

variable {s t t' : State} {fs : List Fld}

@[simp] theorem RegsBut.refl (fs : List Fld) (s : State) : RegsBut fs s s := fun _ _ => rfl

/-- A write to a listed field is within the frame. -/
@[simp] theorem regsBut_wr {f : Fld} {v : Nat} (hf : f ∈ fs) : RegsBut fs s (t.wr f v) ↔ RegsBut fs s t := by
  have h (g : Fld) (hg : g.key ∉ fs.map Fld.key) : (t.wr f v).rd g = t.rd g :=
    State.rd_wr_ne _ _ fun e => hg (e ▸ List.mem_map_of_mem hf)
  exact ⟨fun k g hg => (h g hg).symm.trans (k g hg), fun k g hg => (h g hg).trans (k g hg)⟩

@[simp] theorem regsBut_flag {f : Fld} {c : Bool} (hf : f ∈ fs) : RegsBut fs s (t.flag c f) ↔ RegsBut fs s t := by
  unfold State.flag; split <;> simp [hf]

@[simp] theorem regsBut_count {f : Fld} {n : Nat} (hf : f ∈ fs) : RegsBut fs s (t.count f n) ↔ RegsBut fs s t := by
  simp [State.count, hf]

@[simp] theorem regsBut_wrAll {l : List (Fld × Nat)} (hf : ∀ p ∈ l, p.1 ∈ fs) : RegsBut fs s (t.wrAll l) ↔ RegsBut fs s t := by
  induction l generalizing t with
  | nil => rfl
  | cons p l ih =>
    rw [State.wrAll, ih fun q hq => hf q (List.mem_cons_of_mem _ hq), regsBut_wr (hf p List.mem_cons_self)]

@[simp] theorem regsBut_report (src detail : Nat) : RegsBut fs s (t.report src detail) ↔ RegsBut fs s t := Iff.rfl
@[simp] theorem regsBut_drawn : RegsBut fs s (t.drawn) ↔ RegsBut fs s t := Iff.rfl
@[simp] theorem regsBut_sendFrom (m src : Nat) : RegsBut fs s (t.sendFrom m src) ↔ RegsBut fs s t := Iff.rfl
@[simp] theorem regsBut_answers (st : Status) (v : Nat) (l : List Byte) : RegsBut fs s (t.answers st v l) ↔ RegsBut fs s t := Iff.rfl
@[simp] theorem regsBut_answered (st : Status) (v : Nat) : RegsBut fs s (t.answered st v) ↔ RegsBut fs s t := Iff.rfl
@[simp] theorem regsBut_setUnit (code : Nat) (v : UnitSt) : RegsBut fs s (t.setUnit code v) ↔ RegsBut fs s t := Iff.rfl
@[simp] theorem regsBut_setCtx (u c : Nat) (v : CtxInt) : RegsBut fs s (t.setCtx u c v) ↔ RegsBut fs s t := Iff.rfl
@[simp] theorem regsBut_setTile (i : Nat) (v : TileSt) : RegsBut fs s (t.setTile i v) ↔ RegsBut fs s t := Iff.rfl
@[simp] theorem regsBut_setAxis (n : Nat) (v : AxisSt) : RegsBut fs s (t.setAxis n v) ↔ RegsBut fs s t := Iff.rfl
@[simp] theorem regsBut_putByte (a : Nat) (v : Byte) : RegsBut fs s (t.putByte a v) ↔ RegsBut fs s t := Iff.rfl
@[simp] theorem regsBut_setSd (m : Nat) (v : SdSt) : RegsBut fs s (t.setSd m v) ↔ RegsBut fs s t := Iff.rfl
@[simp] theorem regsBut_setSlot (x : Nat) (v : SlotSt) : RegsBut fs s (t.setSlot x v) ↔ RegsBut fs s t := Iff.rfl
@[simp] theorem regsBut_setCap (c : Nat) (v : CapSt) : RegsBut fs s (t.setCap c v) ↔ RegsBut fs s t := Iff.rfl
@[simp] theorem regsBut_setInj (i : Nat) (v : InjSt) : RegsBut fs s (t.setInj i v) ↔ RegsBut fs s t := Iff.rfl
@[simp] theorem regsBut_setLane (ln : Nat) (x : Option Nat) : RegsBut fs s (t.setLane ln x) ↔ RegsBut fs s t := Iff.rfl
@[simp] theorem regsBut_setSp (c : Nat) (v : SpSt) : RegsBut fs s (t.setSp c v) ↔ RegsBut fs s t := Iff.rfl
@[simp] theorem regsBut_setDrone (d : Nat) (v : Drone) : RegsBut fs s (t.setDrone d v) ↔ RegsBut fs s t := Iff.rfl
@[simp] theorem regsBut_setQbv (p : Nat) (v : QbvSt) : RegsBut fs s (t.setQbv p v) ↔ RegsBut fs s t := Iff.rfl
@[simp] theorem regsBut_setCsi (r x : Nat) (v : CsiSt) : RegsBut fs s (t.setCsi r x v) ↔ RegsBut fs s t := Iff.rfl
@[simp] theorem regsBut_setFe (e : Nat) (v : FeSt) : RegsBut fs s (t.setFe e v) ↔ RegsBut fs s t := Iff.rfl
@[simp] theorem regsBut_setSq (n q : Nat) (v : SqSt) : RegsBut fs s (t.setSq n q v) ↔ RegsBut fs s t := Iff.rfl
@[simp] theorem regsBut_setCq (n c : Nat) (v : CqSt) : RegsBut fs s (t.setCq n c v) ↔ RegsBut fs s t := Iff.rfl
@[simp] theorem regsBut_setLl (l : Nat) (v : LlSt) : RegsBut fs s (t.setLl l v) ↔ RegsBut fs s t := Iff.rfl
@[simp] theorem regsBut_setLch (i : Nat) (v : LchSt) : RegsBut fs s (t.setLch i v) ↔ RegsBut fs s t := Iff.rfl
@[simp] theorem regsBut_setPcm (r : Nat) (v : PcmSt) : RegsBut fs s (t.setPcm r v) ↔ RegsBut fs s t := Iff.rfl
@[simp] theorem regsBut_setPc (n : Nat) (v : PcSt) : RegsBut fs s (t.setPc n v) ↔ RegsBut fs s t := Iff.rfl
@[simp] theorem regsBut_setReed (i : Nat) (v : ReedInst) : RegsBut fs s (t.setReed i v) ↔ RegsBut fs s t := Iff.rfl
@[simp] theorem regsBut_setSc (c : Nat) (v : ScSt) : RegsBut fs s (t.setSc c v) ↔ RegsBut fs s t := Iff.rfl
@[simp] theorem regsBut_setPort (p : Nat) (v : PortSt) : RegsBut fs s (t.setPort p v) ↔ RegsBut fs s t := Iff.rfl
@[simp] theorem regsBut_setQstat (core v : Nat) : RegsBut fs s (t.setQstat core v) ↔ RegsBut fs s t := Iff.rfl
@[simp] theorem regsBut_setResv (core g : Nat) : RegsBut fs s (t.setResv core g) ↔ RegsBut fs s t := Iff.rfl
@[simp] theorem regsBut_send (m : Nat) : RegsBut fs s (t.send m) ↔ RegsBut fs s t := Iff.rfl

theorem regsBut_ite {c : Prop} [Decidable c] (h : RegsBut fs s t) (h' : RegsBut fs s t') : RegsBut fs s (if c then t else t') := by
  split <;> assumption

theorem RegsBut.trans {u : State} (h : RegsBut fs s t) (h' : RegsBut fs t u) : RegsBut fs s u :=
  fun f hf => (h' f hf).trans (h f hf)

theorem RegsBut.mono {gs : List Fld} (h : RegsBut fs s t) (hs : ∀ f ∈ fs, f ∈ gs) : RegsBut gs s t := by
  intro f hf
  refine h f fun hm => hf ?_
  obtain ⟨g, hg, he⟩ := List.mem_map.mp hm
  exact List.mem_map.mpr ⟨g, hs g hg, he⟩

/-- An update that leaves the register table leaves every register field. -/
theorem RegsBut.of_regs (h : RegsBut fs s t) (e : t'.regs = t.regs) : RegsBut fs s t' := by
  intro f hf
  rw [← h f hf]
  simp only [State.rd, e]

theorem RegsBut.rd {f : Fld} (h : RegsBut fs s t) (hf : f.key ∉ fs.map Fld.key) : t.rd f = s.rd f := h f hf

theorem RegsBut.on {f : Fld} (h : RegsBut fs s t) (hf : f.key ∉ fs.map Fld.key) : t.on f = s.on f := by
  simp only [State.on, h f hf]

end Sys2Proof.Machine
end

