-- ==== Sys2Proof/Laws/Fold.lean ====
section
/-! SUPPORT. Actions on every copy of a unit in turn: what holds of each copy afterwards, and what such a walk leaves. -/

namespace Sys2Proof.Machine

/-- What every single action keeps, the walk keeps. -/
theorem foldl_keep {α β : Type} (Q : β → Prop) (f : β → α → β) (l : List α) (h : ∀ s i, i ∈ l → Q s → Q (f s i)) {s : β} (hs : Q s) :
    Q (l.foldl f s) := by
  induction l generalizing s with
  | nil => exact hs
  | cons a l ih => exact ih (fun s i hi => h s i (List.mem_cons_of_mem _ hi)) (h s a List.mem_cons_self hs)

/-- A walk over the copies, by what holds before copy m. -/
theorem foldl_range_ind {β : Type} {n : Nat} (f : β → Nat → β) (I : Nat → β → Prop) (h : ∀ s m, m < n → I m s → I (m + 1) (f s m)) {s : β}
    (hs : I 0 s) : I n ((List.range n).foldl f s) := by
  have main : ∀ m, m ≤ n → I m ((List.range m).foldl f s) := by
    intro m
    induction m with
    | zero => intro _; exact hs
    | succ m ih =>
      intro hm
      rw [List.range_succ, List.foldl_append]
      exact h _ _ (by omega) (ih (by omega))
  exact main n (Nat.le_refl n)

/-- What the action on copy i makes true, and the actions on other copies keep, holds of every copy after the walk. -/
theorem foldl_range_all {β : Type} {n : Nat} (f : β → Nat → β) (P : Nat → β → Prop) (hset : ∀ s i, i < n → P i (f s i))
    (hkeep : ∀ s i j, i < n → j < n → i ≠ j → P j s → P j (f s i)) (s : β) : ∀ j < n, P j ((List.range n).foldl f s) := by
  have main : ∀ m, m ≤ n → ∀ j < m, P j ((List.range m).foldl f s) := by
    intro m
    induction m with
    | zero => intro _ j hj; omega
    | succ m ih =>
      intro hm j hj
      rw [List.range_succ, List.foldl_append]
      by_cases hjm : j = m
      · subst hjm; exact hset _ _ (by omega)
      · exact hkeep _ _ _ (by omega) (by omega) (fun e => hjm e.symm) (ih (by omega) j (by omega))
  exact main n (Nat.le_refl n)

/-- As `foldl_range_all`, with something that the earlier state has and every action keeps. -/
theorem foldl_range_all' {β : Type} {n : Nat} (f : β → Nat → β) (Q : β → Prop) (P : Nat → β → Prop) (hq : ∀ s i, i < n → Q s → Q (f s i))
    (hset : ∀ s i, i < n → Q s → P i (f s i)) (hkeep : ∀ s i j, i < n → j < n → i ≠ j → P j s → P j (f s i)) {s : β} (hs : Q s) :
    ∀ j < n, P j ((List.range n).foldl f s) := by
  have main : ∀ m, m ≤ n → Q ((List.range m).foldl f s) ∧ ∀ j < m, P j ((List.range m).foldl f s) := by
    intro m
    induction m with
    | zero => intro _; exact ⟨hs, fun j hj => by omega⟩
    | succ m ih =>
      intro hm
      obtain ⟨ih1, ih2⟩ := ih (by omega)
      rw [List.range_succ, List.foldl_append]
      refine ⟨hq _ _ (by omega) ih1, fun j hj => ?_⟩
      by_cases hjm : j = m
      · subst hjm; exact hset _ _ (by omega) ih1
      · exact hkeep _ _ _ (by omega) (by omega) (fun e => hjm e.symm) (ih2 j (by omega))
  exact (main n (Nat.le_refl n)).2

end Sys2Proof.Machine
end

