-- ==== Sys2Proof/Laws/Memory.lean ====
section
/-! SUPPORT. The canonical form of the memory (Memory.wf): every operation on the bytes keeps it. -/

namespace Sys2Proof.Machine

theorem wf_iff (s : State) : Memory.wf s = true ↔
    tsorted s.mem = true ∧ ∀ p ∈ s.mem, p.2 ≠ 0 ∨ s.isLost (memCode p.1) p.1 = true := by
  simp [Memory.wf]

/-- A byte written keeps the canonical form. -/
theorem wf_putByte (s : State) (a : Nat) (v : Byte) (w : Memory.wf s = true) : Memory.wf (s.putByte a v) = true := by
  rw [wf_iff] at *
  obtain ⟨w1, w2⟩ := w
  have hl : ∀ c b, State.isLost (s.putByte a v) c b = s.isLost c b := fun _ _ => rfl
  have hm : (s.putByte a v).mem = memPut (if s.isLost (memCode a) a then none else some 0) s.mem a v := rfl
  rw [hm]
  simp only [hl]
  unfold memPut
  by_cases hd : (if s.isLost (memCode a) a = true then none else some 0) = some v
  · rw [if_pos hd]
    exact ⟨tsorted_terase w1, fun p hp => w2 p (mem_terase hp).1⟩
  · rw [if_neg hd]
    refine ⟨tsorted_tput (tsorted_terase w1) fun p hp => (mem_terase hp).2, fun p hp => ?_⟩
    rcases mem_tput hp with rfl | hp
    · by_cases hc : s.isLost (memCode a) a = true
      · exact .inr hc
      · exact .inl fun e => hd (by simp only [if_neg hc]; exact congrArg some e.symm)
    · exact w2 p (mem_terase hp).1

theorem memCode_range {a : Nat} {c : Nat} (hc : c ≤ 0x65) (h : memCode a = c) :
    (memRange c).1 ≤ a ∧ a < (memRange c).1 + (memRange c).2 := by
  subst h
  unfold memCode at *
  repeat' split at hc
  all_goals unfold memRange
  all_goals (try omega)
  all_goals (split_ifs <;> dsimp only <;> omega)

theorem pageLost_range {a p c : Nat} (hc : c ≤ 0x65) (ha : 0x12000000 ≤ a) (hp : (a - 0x12000000) / 0x10000 = p)
    (h1 : (memRange c).1 ≤ 0x12000000 + 0x10000 * p) (h2 : 0x12000000 + 0x10000 * p < (memRange c).1 + (memRange c).2) :
    (memRange c).1 ≤ a ∧ a < (memRange c).1 + (memRange c).2 := by
  subst hp
  unfold memRange at *
  split_ifs at * <;> dsimp only at * <;> omega

/-- Zeroing a memory keeps the canonical form. -/
theorem wf_zeroMem (s : State) (c : Nat) (w : Memory.wf s = true) : Memory.wf (s.zeroMem c) = true := by
  unfold State.zeroMem
  split
  · exact w
  · rename_i hc
    rw [wf_iff] at *
    refine ⟨tsorted_filter _ w.1, fun p hp => ?_⟩
    obtain ⟨hp1, hp2⟩ := List.mem_filter.1 hp
    simp only [Bool.or_eq_true, decide_eq_true_eq] at hp2
    rcases w.2 p hp1 with h | h
    · exact .inl h
    · refine .inr ?_
      unfold State.isLost State.pageLost at *
      simp only [Bool.or_eq_true, Bool.and_eq_true, decide_eq_true_eq, List.contains_iff_mem, List.mem_filter, bne_iff_ne] at *
      rcases h with h | ⟨⟨h1, h2⟩, h3⟩
      · refine .inl ⟨h, fun e => ?_⟩
        have := memCode_range (by omega) e
        omega
      · refine .inr ⟨⟨h1, h2⟩, h3, ?_⟩
        by_contra hn
        simp only [Bool.not_eq_true', Bool.and_eq_false_iff, decide_eq_false_iff_not, not_or, not_not] at hn
        have := pageLost_range (by omega) h1 rfl hn.1 hn.2
        omega

/-- A page taken for bin memory keeps the canonical form. -/
theorem wf_takePage (s : State) (p : Nat) (w : Memory.wf s = true) : Memory.wf (s.takePage p) = true := by
  rw [wf_iff] at *
  refine ⟨tsorted_filter _ w.1, fun q hq => ?_⟩
  obtain ⟨hq1, -⟩ := List.mem_filter.1 hq
  rcases w.2 q hq1 with h | h
  · exact .inl h
  · refine .inr ?_
    unfold State.takePage State.isLost State.pageLost at *
    simp only [Bool.or_eq_true, Bool.and_eq_true, decide_eq_true_eq, List.contains_iff_mem] at *
    refine h.imp id fun h => ⟨h.1, ?_⟩
    split
    · exact h.2
    · exact List.mem_cons_of_mem _ h.2

/-- More unknown memories keep the canonical form. -/
theorem wf_forget (s : State) (c : Nat) (w : Memory.wf s = true) :
    Memory.wf { s with unknown := s.unknown ++ [c] } = true := by
  rw [wf_iff] at *
  refine ⟨w.1, fun q hq => (w.2 q hq).imp id fun h => ?_⟩
  unfold State.isLost State.pageLost at *
  simp only [Bool.or_eq_true, List.contains_iff_mem, List.mem_append] at *
  exact h.imp .inl id

end Sys2Proof.Machine
end

