-- ==== Sys2Proof/Laws/MemAccess.lean ====
section
/-! SUPPORT. What reads and writes of a memory do where no ECC word that they touch holds an error: a read returns the bytes, a
write puts its bytes and leaves every other byte. -/

namespace Sys2Proof.Machine

/-! ### Runs of bytes -/

theorem getByte_putBytes (s : State) (a : Nat) (l : List Byte) (b : Nat) :
    (s.putBytes a l).getByte b = if a ≤ b ∧ b < a + l.length then l.getD (b - a) 0 else s.getByte b := by
  induction l generalizing s a with
  | nil => simp only [State.putBytes, List.length_nil, Nat.add_zero]; rw [if_neg (by omega)]
  | cons x l ih =>
    rw [State.putBytes, ih]
    by_cases hb : b = a
    · subst hb
      rw [if_neg (by omega), if_pos ⟨Nat.le_refl _, by simp⟩, getByte_putByte_same]
      simp
    · rw [getByte_putByte_ne _ _ hb]
      by_cases h : a + 1 ≤ b ∧ b < a + 1 + l.length
      · rw [if_pos h, if_pos ⟨by omega, by simp; omega⟩]
        obtain ⟨k, rfl⟩ : ∃ k, b = a + 1 + k := ⟨b - (a + 1), by omega⟩
        rw [show a + 1 + k - (a + 1) = k by omega, show a + 1 + k - a = k + 1 by omega, List.getD_cons_succ]
      · rw [if_neg h, if_neg (by simp only [List.length_cons]; omega)]

theorem putBytes_eq (s : State) (a : Nat) (l : List Byte) : s.putBytes a l = { s with mem := (s.putBytes a l).mem } := by
  induction l generalizing s a with
  | nil => rfl
  | cons x l ih => rw [State.putBytes, ih]; rfl

theorem getBytes_length (s : State) (a n : Nat) : (s.getBytes a n).length = n := by
  induction n generalizing a with
  | zero => rfl
  | succ n ih => simp [State.getBytes, ih]

theorem getBytes_congr {s t : State} {a n : Nat} (h : ∀ b, a ≤ b → b < a + n → t.getByte b = s.getByte b) : t.getBytes a n = s.getBytes a n := by
  induction n generalizing a with
  | zero => rfl
  | succ n ih => rw [State.getBytes, State.getBytes, h a (Nat.le_refl _) (by omega), ih fun b h1 h2 => h b (by omega) (by omega)]

/-- What has been put at an address is read back there. -/
theorem getBytes_of (s : State) (a : Nat) (l : List Byte) (h : ∀ i < l.length, s.getByte (a + i) = l.getD i 0) : s.getBytes a l.length = l := by
  induction l generalizing a with
  | nil => rfl
  | cons x l ih =>
    rw [List.length_cons, State.getBytes]
    have h0 := h 0 (by simp)
    rw [Nat.add_zero, List.getD_cons_zero] at h0
    rw [h0, ih (a + 1) fun i hi => by have := h (i + 1) (by simp; omega); rw [List.getD_cons_succ] at this; rw [← this]; congr 1; omega]

/-! ### Words without an error -/

theorem readWords_clean (s : State) (code : Nat) (w : Who) (l : List Nat) (h : ∀ wa ∈ l, tget 0 s.ecc wa = 0) : s.readWords code w l = (s, false) := by
  induction l with
  | nil => rfl
  | cons wa l ih =>
    have h0 := h wa List.mem_cons_self
    have hr : s.readWord code wa w = (s, false) := by simp only [State.readWord, h0]
    simp only [State.readWords, hr, ih fun x hx => h x (List.mem_cons_of_mem _ hx), Bool.or_self]

/-- A read of words without an error, none of its bytes unknown, returns the bytes and changes nothing. -/
theorem readMem_clean {s : State} {code a n : Nat} {w : Who} (h : s.clean code a n) (hu : s.spanUnknown code a n = false) :
    s.readMem code a n w = (s, .ok, s.getBytes a n) := by
  simp only [State.readMem, readWords_clean s code w _ h, hu, Bool.false_and, Bool.false_eq_true, if_false]

theorem mem_wordsOf {k a n wa : Nat} (hk : 0 < k) (h : wa ∈ wordsOf k a n) : wa % k = 0 ∧ wa < a + n ∧ a < wa + k := by
  unfold wordsOf at h
  split at h
  · simp at h
  rename_i hn
  simp only [List.mem_map, List.mem_range] at h
  obtain ⟨i, hi, rfl⟩ := h
  have h1 : a / k * k ≤ a := Nat.div_mul_le_self a k
  have h2 : a < (a / k + 1) * k := by rw [Nat.add_mul, Nat.one_mul]; have := Nat.mod_lt a hk; have h9 := Nat.div_add_mod a k; rw [Nat.mul_comm k] at h9; omega
  have h3 : (a + n - 1) / k * k ≤ a + n - 1 := Nat.div_mul_le_self _ k
  have h4 : a / k ≤ (a + n - 1) / k := Nat.div_le_div_right (by omega)
  have h5 : (a / k + i) * k ≤ (a + n - 1) / k * k := Nat.mul_le_mul_right k (by omega)
  have h6 : a / k * k ≤ (a / k + i) * k := Nat.mul_le_mul_right k (by omega)
  refine ⟨Nat.mul_mod_left _ _, by omega, ?_⟩
  rw [Nat.add_mul, Nat.one_mul] at h2
  omega

theorem wordsOf_cover {k a n b : Nat} (h : a ≤ b ∧ b < a + n) : b / k * k ∈ wordsOf k a n := by
  unfold wordsOf
  rw [if_neg (by omega)]
  simp only [List.mem_map, List.mem_range]
  have h1 : a / k ≤ b / k := Nat.div_le_div_right h.1
  have h2 : b / k ≤ (a + n - 1) / k := Nat.div_le_div_right (by omega)
  exact ⟨b / k - a / k, by omega, by rw [show a / k + (b / k - a / k) = b / k by omega]⟩

/-- Nothing else that a read or write of a memory depends on changed. -/
def MemEq (s t : State) : Prop :=
  t = { s with mem := t.mem, ecc := t.ecc, wb := t.wb, regs := t.regs }

theorem MemEq.trans {s t u : State} (h : MemEq s t) (k : MemEq t u) : MemEq s u := by
  unfold MemEq at *; rw [k, h]

/-- One word of a write where the word holds no error: its bytes are put, other words keep what ECC they had. -/
theorem writeWord_clean {s : State} {code wa a : Nat} {data : List Byte} {w : Who} {fires : Bool} (h0 : tget 0 s.ecc wa = 0)
    (hi : s.on R.MEM_INJ_CTRL_ARM = false) :
    (s.writeWord code wa a data w fires).2 = false ∧
    (∀ b, (s.writeWord code wa a data w fires).1.getByte b =
      if a ≤ b ∧ b < a + data.length ∧ wa ≤ b ∧ b < wa + eccWord code then data.getD (b - a) 0 else s.getByte b) ∧
    (∀ x, tget 0 (s.writeWord code wa a data w fires).1.ecc x = tget 0 s.ecc x) ∧
    (s.writeWord code wa a data w fires).1 = { s with mem := (s.writeWord code wa a data w fires).1.mem, ecc := (s.writeWord code wa a data w fires).1.ecc, wb := (s.writeWord code wa a data w fires).1.wb } := by
  have key (t : State) (ht : t.mem = s.mem) (hu : t.unknown = s.unknown) (hl : t.lostPages = s.lostPages) (b : Nat) :
      (t.putBytes (max a wa) ((data.drop (max a wa - a)).take (min (a + data.length) (wa + eccWord code) - max a wa))).getByte b =
      if a ≤ b ∧ b < a + data.length ∧ wa ≤ b ∧ b < wa + eccWord code then data.getD (b - a) 0 else s.getByte b := by
    rw [getByte_putBytes, getByte_congr ht hu hl]
    have hlen : ((data.drop (max a wa - a)).take (min (a + data.length) (wa + eccWord code) - max a wa)).length =
        min (min (a + data.length) (wa + eccWord code) - max a wa) (data.length - (max a wa - a)) := by
      rw [List.length_take, List.length_drop]
    by_cases h : a ≤ b ∧ b < a + data.length ∧ wa ≤ b ∧ b < wa + eccWord code
    · rw [if_pos h, if_pos ⟨by omega, by rw [hlen]; omega⟩]
      simp only [List.getD_eq_getElem?_getD, List.getElem?_take, List.getElem?_drop]
      rw [if_pos (by omega), show max a wa - a + (b - max a wa) = b - a by omega]
    · rw [if_neg h, if_neg (by rw [hlen]; omega)]
  have hin : s.inject wa = (s, 0) := by
    unfold State.inject; rw [if_neg (by simp [hi])]
  have hinj : (if fires && code != 0x65 then s.inject wa else (s, 0)) = (s, 0) := by rw [hin]; split <;> rfl
  unfold State.writeWord
  extract_lets k lo hi' part
  split
  · rw [hinj]
    refine ⟨rfl, fun b => ?_, fun x => ?_, ?_⟩
    · exact (getByte_congr (s := s.putBytes lo part) rfl rfl rfl b).trans (key s rfl rfl rfl b)
    · show tget 0 (tset 0 s.ecc wa 0) x = _
      by_cases hx : x = wa
      · subst hx; rw [tget_tset_same, h0]
      · rw [tget_tset_ne _ _ _ hx]
    · dsimp only
      rw [putBytes_eq]
  · rw [h0]
    refine ⟨rfl, key s rfl rfl rfl, fun x => ?_, ?_⟩
    · show tget 0 (s.putBytes lo part).ecc x = _; rw [putBytes_eq]
    · show s.putBytes lo part = { s with mem := (s.putBytes lo part).mem, ecc := (s.putBytes lo part).ecc, wb := (s.putBytes lo part).wb }
      rw [putBytes_eq]

/-- The words of a write where none holds an error. -/
theorem writeWords_clean {code a : Nat} {data : List Byte} {w : Who} {fires : Bool} (l : List Nat) {s : State}
    (h : ∀ wa ∈ l, tget 0 s.ecc wa = 0) (hi : s.on R.MEM_INJ_CTRL_ARM = false) :
    (s.writeWords code a data w fires l).2 = false ∧
    (∀ b, (s.writeWords code a data w fires l).1.getByte b =
      if a ≤ b ∧ b < a + data.length ∧ (∃ wa ∈ l, wa ≤ b ∧ b < wa + eccWord code) then data.getD (b - a) 0 else s.getByte b) ∧
    (∀ x, tget 0 (s.writeWords code a data w fires l).1.ecc x = tget 0 s.ecc x) ∧
    (s.writeWords code a data w fires l).1 = { s with mem := (s.writeWords code a data w fires l).1.mem, ecc := (s.writeWords code a data w fires l).1.ecc, wb := (s.writeWords code a data w fires l).1.wb } := by
  induction l generalizing s with
  | nil => exact ⟨rfl, fun b => by rw [if_neg (by simp)]; rfl, fun _ => rfl, rfl⟩
  | cons wa l ih =>
    obtain ⟨h1, h2, h3, h4⟩ := writeWord_clean (code := code) (a := a) (data := data) (w := w) (fires := fires) (h wa List.mem_cons_self) hi
    have hi' : (s.writeWord code wa a data w fires).1.on R.MEM_INJ_CTRL_ARM = false := by
      rw [on_congr (s := s) (by rw [h4])]; exact hi
    obtain ⟨k1, k2, k3, k4⟩ := ih (s := (s.writeWord code wa a data w fires).1)
      (fun x hx => by rw [h3]; exact h x (List.mem_cons_of_mem _ hx)) hi'
    simp only [State.writeWords]
    refine ⟨by rw [h1, k1]; rfl, fun b => ?_, fun x => by rw [k3, h3], ?_⟩
    · rw [k2, h2]
      by_cases c1 : a ≤ b ∧ b < a + data.length
      · by_cases c2 : ∃ x ∈ l, x ≤ b ∧ b < x + eccWord code
        · rw [if_pos ⟨c1.1, c1.2, c2⟩, if_pos]
          obtain ⟨x, hx, h⟩ := c2
          exact ⟨c1.1, c1.2, x, List.mem_cons_of_mem _ hx, h⟩
        · rw [if_neg (fun h => c2 h.2.2)]
          by_cases c3 : wa ≤ b ∧ b < wa + eccWord code
          · rw [if_pos ⟨c1.1, c1.2, c3⟩, if_pos ⟨c1.1, c1.2, wa, List.mem_cons_self, c3⟩]
          · rw [if_neg (fun h => c3 h.2.2), if_neg]
            rintro ⟨_, _, x, hx, hh⟩
            rcases List.mem_cons.1 hx with rfl | hx
            · exact c3 hh
            · exact c2 ⟨x, hx, hh⟩
      · rw [if_neg (fun h => c1 ⟨h.1, h.2.1⟩), if_neg (fun h => c1 ⟨h.1, h.2.1⟩), if_neg (fun h => c1 ⟨h.1, h.2.1⟩)]
    · rw [k4]; conv_rhs => rw [← k4]
      rw [h4]

theorem eccWord_pos (code : Nat) : 0 < eccWord code := by unfold eccWord; split <;> decide

/-- A write to a memory whose words hold no error, no injection armed: its bytes are put, every other byte stays (R137). -/
theorem writeMem_clean {s : State} {code a : Nat} {data : List Byte} {w : Who} (h : s.clean code a data.length)
    (hi : s.on R.MEM_INJ_CTRL_ARM = false) :
    (s.writeMem code a data w).2 = .ok ∧
    (∀ b, (s.writeMem code a data w).1.getByte b = if a ≤ b ∧ b < a + data.length then data.getD (b - a) 0 else s.getByte b) ∧
    (∀ x, tget 0 (s.writeMem code a data w).1.ecc x = tget 0 s.ecc x) ∧
    (s.writeMem code a data w).1.resv = s.resv.map (fun g => if g = a / 64 + 1 then 0 else g) ∧
    (s.writeMem code a data w).1 = { s with mem := (s.writeMem code a data w).1.mem, ecc := (s.writeMem code a data w).1.ecc, wb := (s.writeMem code a data w).1.wb, resv := (s.writeMem code a data w).1.resv, units := (s.writeMem code a data w).1.units } := by
  obtain ⟨h1, h2, h3, h4⟩ := writeWords_clean (code := code) (a := a) (data := data) (w := w) (fires := true) _ h hi
  have hb (b : Nat) : (s.writeWords code a data w true (wordsOf (eccWord code) a data.length)).1.getByte b =
      if a ≤ b ∧ b < a + data.length then data.getD (b - a) 0 else s.getByte b := by
    rw [h2]
    by_cases c : a ≤ b ∧ b < a + data.length
    · rw [if_pos c, if_pos ⟨c.1, c.2, _, wordsOf_cover c, Nat.div_mul_le_self _ _, by
        have := Nat.lt_div_mul_add (a := b) (eccWord_pos code); omega⟩]
    · rw [if_neg c, if_neg fun h => c ⟨h.1, h.2.1⟩]
  simp only [State.writeMem]
  generalize s.writeWords code a data w true (wordsOf (eccWord code) a data.length) = r at h1 h2 h3 h4 hb
  obtain ⟨t, bad⟩ := r
  dsimp only at *
  subst h1
  obtain ⟨m, e, q, rfl⟩ : ∃ m e q, t = { s with mem := m, ecc := e, wb := q } := ⟨_, _, _, h4⟩
  refine ⟨rfl, fun b => ?_, fun x => ?_, ?_, ?_⟩
  · rw [← hb b]; split
    · split <;> rfl
    · rfl
  · rw [← h3]; split
    · split <;> rfl
    · rfl
  · split
    · split <;> rfl
    · rfl
  · split
    · split <;> rfl
    · rfl

end Sys2Proof.Machine
end

