-- ==== Sys2Proof/Laws/Shape.lean ====
section
/-! SUPPORT. Each named update as an update of the one field it changes: rewriting with these, the innermost update first, a chain of updates
becomes one record. -/

namespace Sys2Proof.Machine

variable (s : State)

theorem State.wr_upd (f : Fld) (v : Nat) : s.wr f v = { s with regs := (s.wr f v).regs } := rfl
theorem State.report_upd (src detail : Nat) : s.report src detail = { s with reports := (s.report src detail).reports } := rfl
theorem State.drawn_upd : s.drawn = { s with freeCtr := (s.drawn).freeCtr } := rfl
theorem State.sendFrom_upd (m src : Nat) : s.sendFrom m src = { s with msgs := (s.sendFrom m src).msgs } := rfl
theorem State.answers_upd (st : Status) (v : Nat) (l : List Byte) : s.answers st v l = { s with answer := (s.answers st v l).answer } := rfl
theorem State.answered_upd (st : Status) (v : Nat) : s.answered st v = { s with answer := (s.answered st v).answer } := rfl
theorem State.setUnit_upd (code : Nat) (v : UnitSt) : s.setUnit code v = { s with units := (s.setUnit code v).units } := rfl
theorem State.setCtx_upd (u c : Nat) (v : CtxInt) : s.setCtx u c v = { s with ctxs := (s.setCtx u c v).ctxs } := rfl
theorem State.setTile_upd (t : Nat) (v : TileSt) : s.setTile t v = { s with tiles := (s.setTile t v).tiles } := rfl
theorem State.setAxis_upd (n : Nat) (v : AxisSt) : s.setAxis n v = { s with axes := (s.setAxis n v).axes } := rfl
theorem State.putByte_upd (a : Nat) (v : Byte) : s.putByte a v = { s with mem := (s.putByte a v).mem } := rfl
theorem State.setSd_upd (m : Nat) (v : SdSt) : s.setSd m v = { s with sds := (s.setSd m v).sds } := rfl
theorem State.setSlot_upd (x : Nat) (v : SlotSt) : s.setSlot x v = { s with slots := (s.setSlot x v).slots } := rfl
theorem State.setCap_upd (c : Nat) (v : CapSt) : s.setCap c v = { s with caps := (s.setCap c v).caps } := rfl
theorem State.setInj_upd (i : Nat) (v : InjSt) : s.setInj i v = { s with injs := (s.setInj i v).injs } := rfl
theorem State.setLane_upd (ln : Nat) (x : Option Nat) : s.setLane ln x = { s with lanes := (s.setLane ln x).lanes } := rfl
theorem State.setSp_upd (c : Nat) (v : SpSt) : s.setSp c v = { s with sps := (s.setSp c v).sps } := rfl
theorem State.setDrone_upd (d : Nat) (v : Drone) : s.setDrone d v = { s with drones := (s.setDrone d v).drones } := rfl
theorem State.setQbv_upd (p : Nat) (v : QbvSt) : s.setQbv p v = { s with qbv := (s.setQbv p v).qbv } := rfl
theorem State.setCsi_upd (r x : Nat) (v : CsiSt) : s.setCsi r x v = { s with csis := (s.setCsi r x v).csis } := rfl
theorem State.setFe_upd (e : Nat) (v : FeSt) : s.setFe e v = { s with fes := (s.setFe e v).fes } := rfl
theorem State.setSq_upd (n q : Nat) (v : SqSt) : s.setSq n q v = { s with sqs := (s.setSq n q v).sqs } := rfl
theorem State.setCq_upd (n c : Nat) (v : CqSt) : s.setCq n c v = { s with cqs := (s.setCq n c v).cqs } := rfl
theorem State.setLl_upd (l : Nat) (v : LlSt) : s.setLl l v = { s with lls := (s.setLl l v).lls } := rfl
theorem State.setLch_upd (i : Nat) (v : LchSt) : s.setLch i v = { s with lchs := (s.setLch i v).lchs } := rfl
theorem State.setPcm_upd (r : Nat) (v : PcmSt) : s.setPcm r v = { s with pcms := (s.setPcm r v).pcms } := rfl
theorem State.setPc_upd (n : Nat) (v : PcSt) : s.setPc n v = { s with pcs := (s.setPc n v).pcs } := rfl
theorem State.setReed_upd (i : Nat) (v : ReedInst) : s.setReed i v = { s with reed := (s.setReed i v).reed } := rfl
theorem State.setSc_upd (c : Nat) (v : ScSt) : s.setSc c v = { s with scs := (s.setSc c v).scs } := rfl
theorem State.setPort_upd (p : Nat) (v : PortSt) : s.setPort p v = { s with ports := (s.setPort p v).ports } := rfl
theorem State.setQstat_upd (core v : Nat) : s.setQstat core v = { s with qstat := (s.setQstat core v).qstat } := rfl
theorem State.setResv_upd (core g : Nat) : s.setResv core g = { s with resv := (s.setResv core g).resv } := rfl
theorem State.count_upd (f : Fld) (n : Nat) : s.count f n = { s with regs := (s.count f n).regs } := rfl
theorem State.wrS_upd (f : Fld) (n : Int) : s.wrS f n = { s with regs := (s.wrS f n).regs } := rfl
theorem State.wrAll_ex : ∀ (l : List (Fld × Nat)) (s : State), ∃ r, s.wrAll l = { s with regs := r }
  | [], s => ⟨s.regs, rfl⟩
  | (f, v) :: l, s => by
    obtain ⟨r, h⟩ := State.wrAll_ex l (s.wr f v)
    exact ⟨r, h⟩
theorem State.wrAll_upd (l : List (Fld × Nat)) : s.wrAll l = { s with regs := (s.wrAll l).regs } := by
  obtain ⟨r, h⟩ := State.wrAll_ex l s
  rw [h]
theorem State.flag_upd (c : Bool) (f : Fld) : s.flag c f = { s with regs := (s.flag c f).regs } := by unfold State.flag; split <;> rfl

end Sys2Proof.Machine
end

