-- ==== Sys2Proof/Laws/Axes.lean ====
section
/-! SUPPORT. What the shared operations behind the commands of motor axes do. -/

set_option linter.all false
set_option maxRecDepth 4000

namespace Sys2Proof.Machine

theorem State.axis_same (s : State) {n : Nat} (v : AxisSt) (h : n < s.axes.length) : (s.setAxis n v).axis n = v := by
  simp [State.axis, State.setAxis, List.getD_eq_getElem?_getD, h]
theorem State.axis_ne (s : State) {n x : Nat} (v : AxisSt) (h : x ≠ n) : (s.setAxis n v).axis x = s.axis x := by
  simp [State.axis, State.setAxis, List.getD_eq_getElem?_getD, List.getElem?_set_ne (Ne.symm h)]
theorem State.axis_set (s : State) (n x : Nat) (v : AxisSt) : (s.setAxis n v).axis x = if x = n ∧ n < s.axes.length then v else s.axis x := by
  by_cases h : x = n
  · subst h
    by_cases hl : x < s.axes.length
    · rw [State.axis_same s v hl, if_pos ⟨rfl, hl⟩]
    · rw [if_neg (by simp [hl]), State.setAxis, List.set_eq_of_length_le (by omega)]
  · rw [State.axis_ne s v h, if_neg (by simp [h])]
@[simp] theorem State.setAxis_len (s : State) (n : Nat) (v : AxisSt) : (s.setAxis n v).axes.length = s.axes.length := by simp [State.setAxis]

end Sys2Proof.Machine
end

