-- ==== Sys2Proof/Laws/Keeps.lean ====
section
/-! SUPPORT. What every step keeps, as one relation between a state and a later one: the waiting commands, the number of
copies of each block, the canonical form of memory and registers, the locked firewall targets, and (for what stores nothing)
the bytes of the memory. -/

namespace Sys2Proof.Machine

/-- The numbers of copies of the blocks that State lists. -/
def State.shape (s : State) : List Nat :=
  [s.drones.length, s.reed.length, s.sds.length, s.axes.length, s.slots.length, s.sps.length, s.injs.length, s.caps.length, s.pcms.length, s.pcs.length, s.lls.length, s.fes.length, s.ports.length, s.qbv.length, s.csis.length, s.sers.length, s.scs.length, s.joinFp.length, s.tokWait.length, s.qstat.length, s.resv.length]

/-- A locked firewall target stays locked and keeps its regions (R695). -/
def FwKept (s t : State) : Prop :=
  ∀ x ∈ s.fwLocked, x ∈ t.fwLocked ∧ ∀ r, tget ({} : FwRegion) t.fw (fwKey x r) = tget {} s.fw (fwKey x r)

/-- What is kept from s to t; `lk`: the firewall locks too; `st`: nothing is stored. -/
structure Keeps (lk st : Prop) (s t : State) : Prop where
  pending : t.pending = s.pending
  shape : s.shape = State.reset.shape → t.shape = State.reset.shape
  wf : Memory.wf s = true → Memory.wf t = true
  regs : tsorted s.regs = true → tsorted t.regs = true
  fw : lk → FwKept s t
  mem : st → t.mem = s.mem ∧ t.unknown = s.unknown ∧ t.lostPages = s.lostPages

variable {lk st : Prop} {s0 s t : State}

theorem Keeps.rfl : Keeps lk st s s :=
  ⟨by simp, id, id, id, fun _ _ h => ⟨h, fun _ => by simp⟩, fun _ => by simp⟩

theorem Keeps.trans {u : State} (h : Keeps lk st s t) (k : Keeps lk st t u) : Keeps lk st s u :=
  ⟨k.pending.trans h.pending, k.shape ∘ h.shape, k.wf ∘ h.wf, k.regs ∘ h.regs,
    fun l x hx => ⟨(k.fw l x (h.fw l x hx).1).1, fun r => ((k.fw l x (h.fw l x hx).1).2 r).trans ((h.fw l x hx).2 r)⟩,
    fun m => ⟨(k.mem m).1.trans (h.mem m).1, (k.mem m).2.1.trans (h.mem m).2.1, (k.mem m).2.2.trans (h.mem m).2.2⟩⟩

/-- What stores nothing may stand where storing is allowed. -/
theorem Keeps.weaken {lk' st' : Prop} (hl : lk' → lk) (hs : st' → st) (h : Keeps lk st s t) : Keeps lk' st' s t :=
  ⟨h.pending, h.shape, h.wf, h.regs, fun l => h.fw (hl l), fun m => h.mem (hs m)⟩

/-- A state that agrees on everything watched is kept too. -/
theorem Keeps.same (h : Keeps lk st s0 s) (e1 : t.pending = s.pending) (e2 : t.shape = s.shape) (e3 : t.regs = s.regs)
    (e4 : t.mem = s.mem) (e5 : t.unknown = s.unknown) (e6 : t.lostPages = s.lostPages) (e7 : t.fw = s.fw)
    (e8 : t.fwLocked = s.fwLocked) : Keeps lk st s0 t := by
  refine h.trans ⟨e1, fun w => e2 ▸ w, fun w => ?_, fun w => by rw [e3]; exact w, fun _ x hx => ⟨by rw [e8]; exact hx, fun r => by rw [e7]⟩,
    fun _ => ⟨e4, e5, e6⟩⟩
  unfold Memory.wf State.isLost State.pageLost at *
  rw [e4, e5, e6]; exact w

/-- An update of fields that are not watched. -/
theorem keeps_mk (h : Keeps lk st s0 s)
    {x_ecc : List (Nat × Nat)} {x_wb : List Nat} {x_resv : List Nat} {x_scrub : List (Nat × Nat)} {x_answer : Answer}
    {x_replies : List Reply} {x_outst : List Outstanding} {x_tagHold : List (Nat × Nat)}
    {x_acks : List (Nat × Status)} {x_nextTag : Nat} {x_hostOut : List (Nat × Nat × List Byte)}
    {x_msgs : List (Nat × Nat)} {x_postAns : List (Nat × Status)} {x_zlr : List (Nat × Nat × Nat)}
    {x_reports : List (Nat × Nat)} {x_islandIrq : List Nat} {x_aligned : Bool} {x_sysrst : Bool} {x_now : Nat}
    {x_sysAcc : Nat} {x_units : List (Nat × UnitSt)} {x_fwArmed : List Nat} {x_ctxs : List (Nat × CtxInt)}
    {x_errHeld : List Nat} {x_rowStage : List (Nat × Nat)} {x_drones : List Drone} {x_events : List FiredEvent}
    {x_latchUnread : Bool} {x_latchJobs : List LatchJob} {x_freeCtr : Nat} {x_meas : List Meas}
    {x_reed : List ReedInst} {x_qstat : List Nat} {x_tokWait : List (Option (Nat × Nat))} {x_opChange : OpChange}
    {x_vid : Nat} {x_vok : Bool} {x_vidChanged : Bool} {x_sensAge : List Nat} {x_shutRun : Nat} {x_opSince : Nat}
    {x_used : List Nat} {x_step : Nat} {x_stepStage : Nat} {x_genJob : Option (Nat × Nat)} {x_sigs : List StepSig}
    {x_sigsIn : List (Nat × Nat × Nat)} {x_lsStepHi : Nat} {x_lsDead : Bool} {x_joinFp : List (Option (Nat × Nat))}
    {x_tiles : List (Nat × TileSt)} {x_axes : List AxisSt} {x_sds : List SdSt} {x_slots : List SlotSt}
    {x_sps : List SpSt} {x_injs : List InjSt} {x_caps : List CapSt} {x_lanes : List (Option Nat)}
    {x_chnRuns : List (Nat × Bool × Bool)} {x_cwqSel : List (Nat × Nat)} {x_pcms : List PcmSt} {x_pcs : List PcSt}
    {x_lls : List LlSt} {x_lchs : List (Nat × LchSt)} {x_fes : List FeSt} {x_fioLv : Nat} {x_ras : Option RasRun}
    {x_sqs : List (Nat × SqSt)} {x_cqs : List (Nat × CqSt)} {x_dbVals : List (Nat × Nat)} {x_msix : List (Nat × Nat)}
    {x_msixPend : List (Nat × Nat)} {x_coreIrq : List Nat} {x_pcieUp : Bool} {x_d3hot : List Nat}
    {x_ports : List PortSt} {x_tokOut : List TokOut} {x_fwmsgs : List Nat} {x_badMsg : Nat} {x_leaderAt : Nat}
    {x_sweep : SweepSt} {x_frDone : List (Nat × List (List Byte))} {x_qbv : List QbvSt} {x_ethTurn : List Nat}
    {x_ethOut : List (Nat × List Byte)} {x_canOut : List (Nat × CanFrame)} {x_canRecover : List Nat}
    {x_csis : List CsiSt} {x_sers : List SerSt} {x_serOut : List (Nat × Nat)} {x_scTx : List (Nat × List Byte)}
    {x_sfTime : Nat} {x_exitKey : Option Nat} {x_islandHalted : Bool} {x_safeInHigh : Nat} {x_wdOn : Bool}
    {x_wdKicked : Bool} {x_wdAt : Nat} {x_wdNext : Nat} {x_stoPulse : Option (Nat × Nat)} {x_stoLast : List Nat}
    {x_scs : List ScSt} {x_boot : BootSt} {x_zeroing : Nat}
    (e : [x_drones.length, x_reed.length, x_sds.length, x_axes.length, x_slots.length, x_sps.length, x_injs.length, x_caps.length, x_pcms.length, x_pcs.length, x_lls.length, x_fes.length, x_ports.length, x_qbv.length, x_csis.length, x_sers.length, x_scs.length, x_joinFp.length, x_tokWait.length, x_qstat.length, x_resv.length] =
      [s.drones.length, s.reed.length, s.sds.length, s.axes.length, s.slots.length, s.sps.length, s.injs.length, s.caps.length, s.pcms.length, s.pcs.length, s.lls.length, s.fes.length, s.ports.length, s.qbv.length, s.csis.length, s.sers.length, s.scs.length, s.joinFp.length, s.tokWait.length, s.qstat.length, s.resv.length]) :
    Keeps lk st s0 (State.mk
      s.pending s.regs s.mem s.unknown s.lostPages x_ecc x_wb x_resv x_scrub x_answer x_replies x_outst x_tagHold
      x_acks x_nextTag x_hostOut x_msgs x_postAns x_zlr x_reports x_islandIrq x_aligned x_sysrst x_now x_sysAcc
      x_units s.fw x_fwArmed s.fwLocked x_ctxs x_errHeld x_rowStage x_drones x_events x_latchUnread x_latchJobs
      x_freeCtr x_meas x_reed x_qstat x_tokWait x_opChange x_vid x_vok x_vidChanged x_sensAge x_shutRun x_opSince
      x_used x_step x_stepStage x_genJob x_sigs x_sigsIn x_lsStepHi x_lsDead x_joinFp x_tiles x_axes x_sds x_slots
      x_sps x_injs x_caps x_lanes x_chnRuns x_cwqSel x_pcms x_pcs x_lls x_lchs x_fes x_fioLv x_ras x_sqs x_cqs
      x_dbVals x_msix x_msixPend x_coreIrq x_pcieUp x_d3hot x_ports x_tokOut x_fwmsgs x_badMsg x_leaderAt x_sweep
      x_frDone x_qbv x_ethTurn x_ethOut x_canOut x_canRecover x_csis x_sers x_serOut x_scTx x_sfTime x_exitKey
      x_islandHalted x_safeInHigh x_wdOn x_wdKicked x_wdAt x_wdNext x_stoPulse x_stoLast x_scs x_boot x_zeroing) :=
  h.same rfl e rfl rfl rfl rfl rfl rfl

theorem keeps_ite {c : Prop} [Decidable c] {a b : State} (ha : c → Keeps lk st s0 a) (hb : ¬c → Keeps lk st s0 b) :
    Keeps lk st s0 (if c then a else b) := by split <;> simp_all

theorem keeps_ite1 {α : Type} {c : Prop} [Decidable c] {a b : State × α} (ha : c → Keeps lk st s0 a.1)
    (hb : ¬c → Keeps lk st s0 b.1) : Keeps lk st s0 (if c then a else b).1 := by split <;> simp_all

theorem keeps_ite2 {α : Type} {c : Prop} [Decidable c] {a b : α × State} (ha : c → Keeps lk st s0 a.2)
    (hb : ¬c → Keeps lk st s0 b.2) : Keeps lk st s0 (if c then a else b).2 := by split <;> simp_all

/-- The first component of an answer that has been taken apart. -/
theorem keeps_fst {α : Type} {p : State × α} {a : State} {b : α} (e : p = (a, b)) (h : Keeps lk st s0 p.1) : Keeps lk st s0 a := by
  rw [e] at h; exact h

theorem keeps_snd {α : Type} {p : α × State} {a : State} {b : α} (e : p = (b, a)) (h : Keeps lk st s0 p.2) : Keeps lk st s0 a := by
  rw [e] at h; exact h

theorem keeps_pair1 {α : Type} {a : State} {b : α} (h : Keeps lk st s0 a) : Keeps lk st s0 (a, b).1 := h

theorem keeps_pair2 {α : Type} {a : State} {b : α} (h : Keeps lk st s0 a) : Keeps lk st s0 (b, a).2 := h

theorem keeps_let0 {α : Type} {v : α} {b : α → State} (k : ∀ x, Keeps lk st s0 (b x)) :
    Keeps lk st s0 (let x := v; b x) := k v

theorem keeps_letS0 {v : State} {b : State → State} (h : Keeps lk st s0 v)
    (k : ∀ x, Keeps lk st s0 x → Keeps lk st s0 (b x)) : Keeps lk st s0 (let x := v; b x) := k v h

theorem keeps_letP0 {α : Type} {v : State × α} {b : State × α → State} (h : Keeps lk st s0 v.1)
    (k : ∀ x : State × α, Keeps lk st s0 x.1 → Keeps lk st s0 (b x)) : Keeps lk st s0 (let x := v; b x) := k v h

theorem keeps_letQ0 {α : Type} {v : α × State} {b : α × State → State} (h : Keeps lk st s0 v.2)
    (k : ∀ x : α × State, Keeps lk st s0 x.2 → Keeps lk st s0 (b x)) : Keeps lk st s0 (let x := v; b x) := k v h

theorem keeps_let1 {α : Type} {β : Type} {v : α} {b : α → State × β} (k : ∀ x, Keeps lk st s0 (b x).1) :
    Keeps lk st s0 (let x := v; b x).1 := k v

theorem keeps_letS1 {β : Type} {v : State} {b : State → State × β} (h : Keeps lk st s0 v)
    (k : ∀ x, Keeps lk st s0 x → Keeps lk st s0 (b x).1) : Keeps lk st s0 (let x := v; b x).1 := k v h

theorem keeps_letP1 {α : Type} {β : Type} {v : State × α} {b : State × α → State × β} (h : Keeps lk st s0 v.1)
    (k : ∀ x : State × α, Keeps lk st s0 x.1 → Keeps lk st s0 (b x).1) : Keeps lk st s0 (let x := v; b x).1 := k v h

theorem keeps_letQ1 {α : Type} {β : Type} {v : α × State} {b : α × State → State × β} (h : Keeps lk st s0 v.2)
    (k : ∀ x : α × State, Keeps lk st s0 x.2 → Keeps lk st s0 (b x).1) : Keeps lk st s0 (let x := v; b x).1 := k v h

theorem keeps_let2 {α : Type} {β : Type} {v : α} {b : α → β × State} (k : ∀ x, Keeps lk st s0 (b x).2) :
    Keeps lk st s0 (let x := v; b x).2 := k v

theorem keeps_letS2 {β : Type} {v : State} {b : State → β × State} (h : Keeps lk st s0 v)
    (k : ∀ x, Keeps lk st s0 x → Keeps lk st s0 (b x).2) : Keeps lk st s0 (let x := v; b x).2 := k v h

theorem keeps_letP2 {α : Type} {β : Type} {v : State × α} {b : State × α → β × State} (h : Keeps lk st s0 v.1)
    (k : ∀ x : State × α, Keeps lk st s0 x.1 → Keeps lk st s0 (b x).2) : Keeps lk st s0 (let x := v; b x).2 := k v h

theorem keeps_letQ2 {α : Type} {β : Type} {v : α × State} {b : α × State → β × State} (h : Keeps lk st s0 v.2)
    (k : ∀ x : α × State, Keeps lk st s0 x.2 → Keeps lk st s0 (b x).2) : Keeps lk st s0 (let x := v; b x).2 := k v h

theorem keeps_foldl {α : Type} (f : State → α → State) (l : List α) (hf : ∀ s x, Keeps lk st s0 s → Keeps lk st s0 (f s x))
    (h : Keeps lk st s0 s) : Keeps lk st s0 (l.foldl f s) := by
  induction l generalizing s with
  | nil => exact h
  | cons a l ih => exact ih (hf _ _ h)

theorem keeps_foldl1 {α β : Type} (f : State × β → α → State × β) (l : List α)
    (hf : ∀ p x, Keeps lk st s0 p.1 → Keeps lk st s0 (f p x).1) {p : State × β} (h : Keeps lk st s0 p.1) :
    Keeps lk st s0 (l.foldl f p).1 := by
  induction l generalizing p with
  | nil => exact h
  | cons a l ih => exact ih (hf _ _ h)

/-- A command that answers this next state. -/
theorem keeps_next (h : Keeps lk st s0 s) (e : (Host.Outcome.next s : Host.Outcome State Fault Refusal) = .next t) : Keeps lk st s0 t := by
  injection e with e; exact e ▸ h

theorem shape_modAt {α : Type} (l : List α) (i : Nat) (f : α → α) : (modAt l i f).length = l.length := by
  induction l generalizing i with
  | nil => simp [modAt]
  | cons a l ih => cases i <;> simp [modAt, ih]

end Sys2Proof.Machine
end

