-- ==== Sys2Proof/Laws/Keeps/Ops.lean ====
section
/-! SUPPORT. What the operations of Machine/Ops.lean keep. -/

set_option linter.all false

namespace Sys2Proof.Machine

variable {lk st : Prop} {s0 s t : State}

theorem State.wr_keeps (h : Keeps lk st s0 s) (y1 : Fld) (y2 : Nat) : Keeps lk st s0 (s.wr y1 y2) :=
  h.trans ⟨rfl, id, fun w => w, fun w => tsorted_tset w, fun _ _ hx => ⟨hx, fun _ => rfl⟩, fun _ => ⟨rfl, rfl, rfl⟩⟩

theorem State.wrS_keeps (h : Keeps lk st s0 s) (y1 : Fld) (y2 : ℤ) :
    Keeps lk st s0 (State.wrS s y1 y2) := by
  unfold State.wrS
  apply State.wr_keeps; assumption

theorem State.flag_keeps (h : Keeps lk st s0 s) (y1 : Bool) (y2 : Fld) :
    Keeps lk st s0 (State.flag s y1 y2) := by
  unfold State.flag
  refine keeps_ite (fun _ => ?_) (fun _ => ?_)
  · apply State.wr_keeps; assumption
  · assumption

theorem State.count_keeps (h : Keeps lk st s0 s) (y1 : Fld) (y2 : ℕ) :
    Keeps lk st s0 (State.count s y1 y2) := by
  unfold State.count
  apply State.wr_keeps; assumption

theorem State.countWrap_keeps (h : Keeps lk st s0 s) (y1 : Fld) (y2 : ℕ) :
    Keeps lk st s0 (State.countWrap s y1 y2) := by
  unfold State.countWrap
  apply State.wr_keeps; assumption

theorem State.wrAll_keeps (h : Keeps lk st s0 s) (y1 : List (Fld × ℕ)) :
    Keeps lk st s0 (State.wrAll s y1) := by
  induction y1 generalizing s with
  | nil =>
    rw [State.wrAll]
    assumption
  | cons a l ih =>
    obtain ⟨a1, a2⟩ := a
    rw [State.wrAll]
    apply ih; apply State.wr_keeps; assumption

theorem State.clearRegs_keeps (h : Keeps lk st s0 s) (y1 y2 : Nat) : Keeps lk st s0 (s.clearRegs y1 y2) :=
  h.trans ⟨rfl, id, fun w => w, fun w => tsorted_filter _ w, fun _ _ hx => ⟨hx, fun _ => rfl⟩, fun _ => ⟨rfl, rfl, rfl⟩⟩

theorem State.report_keeps (h : Keeps lk st s0 s) (y1 : ℕ) (y2 : ℕ) :
    Keeps lk st s0 (State.report s y1 y2) := by
  unfold State.report
  refine keeps_mk ?_ rfl; assumption

theorem State.reportIf_keeps (h : Keeps lk st s0 s) (y1 : Bool) (y2 : ℕ) (y3 : ℕ) :
    Keeps lk st s0 (State.reportIf s y1 y2 y3) := by
  unfold State.reportIf
  refine keeps_ite (fun _ => ?_) (fun _ => ?_)
  · apply State.report_keeps; assumption
  · assumption

theorem State.drawn_keeps (h : Keeps lk st s0 s) :
    Keeps lk st s0 (State.drawn s) := by
  unfold State.drawn
  refine keeps_mk ?_ rfl; assumption

theorem State.sendFrom_keeps (h : Keeps lk st s0 s) (y1 : ℕ) (y2 : ℕ) :
    Keeps lk st s0 (State.sendFrom s y1 y2) := by
  unfold State.sendFrom
  refine keeps_mk ?_ rfl; assumption

theorem State.send_keeps (h : Keeps lk st s0 s) (y1 : ℕ) :
    Keeps lk st s0 (State.send s y1) := by
  unfold State.send
  apply State.sendFrom_keeps; assumption

theorem State.answered_keeps (h : Keeps lk st s0 s) (y1 : Status) (y2 : ℕ) :
    Keeps lk st s0 (State.answered s y1 y2) := by
  unfold State.answered
  refine keeps_mk ?_ rfl; assumption

theorem State.setUnit_keeps (h : Keeps lk st s0 s) (y1 : ℕ) (y2 : UnitSt) :
    Keeps lk st s0 (State.setUnit s y1 y2) := by
  unfold State.setUnit
  refine keeps_mk ?_ rfl; assumption

theorem State.token_keeps (h : Keeps lk st s0 s) (y1 : ℕ) (y2 : ℕ) (y3 : ℕ) :
    Keeps lk st s0 (State.token s y1 y2 y3) := by
  unfold State.token
  apply State.send_keeps; assumption

theorem State.writeField_keeps (h : Keeps lk st s0 s) (y1 : ℕ) (y2 : ℕ) (y3 : ℕ) (y4 : Bool) (y5 : FieldDesc) :
    Keeps lk st s0 (State.writeField s y1 y2 y3 y4 y5) := by
  unfold State.writeField
  extract_lets +onlyGivenNames u1 u2
  clear_value u1 u2
  split
  · apply State.wr_keeps; assumption
  · refine keeps_ite (fun _ => ?_) (fun _ => ?_)
    · apply State.wr_keeps; assumption
    · assumption
  · apply State.wr_keeps; assumption
  · apply State.wr_keeps; assumption
  · assumption
  · assumption

theorem State.writeFields_keeps (h : Keeps lk st s0 s) (y1 : ℕ) (y2 : ℕ) (y3 : ℕ) (y4 : Bool) (y5 : List FieldDesc) :
    Keeps lk st s0 (State.writeFields s y1 y2 y3 y4 y5) := by
  induction y5 generalizing s y1 y2 y3 y4 with
  | nil =>
    rw [State.writeFields]
    assumption
  | cons a l ih =>
    rw [State.writeFields]
    apply ih; apply State.writeField_keeps; assumption

theorem State.setCtx_keeps (h : Keeps lk st s0 s) (y1 : ℕ) (y2 : ℕ) (y3 : CtxInt) :
    Keeps lk st s0 (State.setCtx s y1 y2 y3) := by
  unfold State.setCtx
  refine keeps_mk ?_ rfl; assumption

theorem State.setTile_keeps (h : Keeps lk st s0 s) (y1 : ℕ) (y2 : TileSt) :
    Keeps lk st s0 (State.setTile s y1 y2) := by
  unfold State.setTile
  refine keeps_mk ?_ rfl; assumption

theorem State.setAxis_keeps (h : Keeps lk st s0 s) (y1 : ℕ) (y2 : AxisSt) :
    Keeps lk st s0 (State.setAxis s y1 y2) := by
  unfold State.setAxis
  refine keeps_mk ?_ (by simp [shape_modAt]); assumption

end Sys2Proof.Machine
end

