-- ==== Sys2Proof/Laws/Keeps/MemCells.lean ====
section
/-! SUPPORT. What the operations of Machine/MemCells.lean keep. -/

set_option linter.all false

namespace Sys2Proof.Machine

variable {lk st : Prop} {s0 s t : State}

theorem State.putByte_keeps (h : Keeps lk False s0 s) (y1 : Nat) (y2 : Byte) : Keeps lk False s0 (s.putByte y1 y2) :=
  h.trans ⟨rfl, id, fun w => wf_putByte s y1 y2 w, fun w => w, fun _ _ hx => ⟨hx, fun _ => rfl⟩, fun e => e.elim⟩

theorem State.putBytes_keeps (h : Keeps lk False s0 s) (y1 : ℕ) (y2 : List Byte) :
    Keeps lk False s0 (State.putBytes s y1 y2) := by
  induction y2 generalizing s y1 with
  | nil =>
    rw [State.putBytes]
    assumption
  | cons a l ih =>
    rw [State.putBytes]
    apply ih; apply State.putByte_keeps; assumption

theorem State.zeroMem_keeps (h : Keeps lk False s0 s) (y1 : Nat) : Keeps lk False s0 (s.zeroMem y1) := by
  refine h.trans ⟨?_, ?_, fun w => wf_zeroMem s y1 w, ?_, ?_, fun e => e.elim⟩ <;> unfold State.zeroMem <;> split
  all_goals first | rfl | exact fun w => w | exact fun _ _ hx => ⟨hx, fun _ => rfl⟩

theorem State.takePage_keeps (h : Keeps lk False s0 s) (y1 : Nat) : Keeps lk False s0 (s.takePage y1) :=
  h.trans ⟨rfl, id, fun w => wf_takePage s y1 w, fun w => w, fun _ _ hx => ⟨hx, fun _ => rfl⟩, fun e => e.elim⟩

theorem State.forgetMem_keeps (h : Keeps lk False s0 s) (y1 : Nat) : Keeps lk False s0 (s.forgetMem y1) :=
  (State.zeroMem_keeps h y1).trans ⟨rfl, id, fun w => wf_forget _ y1 w, fun w => w, fun _ _ hx => ⟨hx, fun _ => rfl⟩, fun e => e.elim⟩

end Sys2Proof.Machine
end

