-- ==== Sys2Proof/Laws/Keeps/ReedOut.lean ====
section
/-! SUPPORT. What the operations of Machine/ReedOut.lean keep. -/

set_option linter.all false

namespace Sys2Proof.Machine

variable {lk st : Prop} {s0 s t : State}

theorem State.setReed_keeps (h : Keeps lk st s0 s) (y1 : ℕ) (y2 : ReedInst) :
    Keeps lk st s0 (State.setReed s y1 y2) := by
  unfold State.setReed
  refine keeps_mk ?_ (by simp [shape_modAt]); assumption

theorem State.setStandby_keeps (h : Keeps lk st s0 s) (y1 : ℕ) (y2 : ReedBuf) :
    Keeps lk st s0 (State.setStandby s y1 y2) := by
  unfold State.setStandby
  apply State.setReed_keeps; assumption

theorem State.reedInvalid_keeps (h : Keeps lk st s0 s) (y1 : ℕ) :
    Keeps lk st s0 (State.reedInvalid s y1) := by
  unfold State.reedInvalid
  extract_lets +onlyGivenNames u1 u2 u3 u4
  clear_value u1 u2 u3 u4
  apply State.setReed_keeps; assumption

theorem State.drainEnter_keeps (h : Keeps lk st s0 s) (y1 : ℕ) (y2 : ℕ) :
    Keeps lk st s0 (State.drainEnter s y1 y2) := by
  unfold State.drainEnter
  extract_lets +onlyGivenNames u1
  clear_value u1
  extract_lets +onlyGivenNames u2
  have ku2 : Keeps lk st s0 u2 := by
    unfold u2; apply State.setUnit_keeps; assumption
  clear_value u2
  refine keeps_ite (fun _ => ?_) (fun _ => ?_)
  · refine keeps_foldl _ _ (fun _ _ _ => ?_) ?_
    · apply State.reedInvalid_keeps; assumption
    · assumption
  · assumption

end Sys2Proof.Machine
end

