-- ==== Sys2Proof/Laws/Keeps/MemCore.lean ====
section
/-! SUPPORT. What the operations of Machine/MemCore.lean keep. -/

set_option linter.all false

namespace Sys2Proof.Machine

variable {lk st : Prop} {s0 s t : State}

theorem State.logAccess_keeps (h : Keeps lk st s0 s) (y1 : Fld) (y2 : Fld) (y3 : Fld) (y4 : Fld) (y5 : Fld) (y6 : Fld) (y7 : ℕ) (y8 : Who) (y9 : Bool) :
    Keeps lk st s0 (State.logAccess s y1 y2 y3 y4 y5 y6 y7 y8 y9) := by
  unfold State.logAccess
  refine keeps_ite (fun _ => ?_) (fun _ => ?_)
  · assumption
  · apply State.wrAll_keeps; assumption

theorem State.mapError_keeps (h : Keeps lk st s0 s) (y1 : ℕ) (y2 : Who) (y3 : Bool) :
    Keeps lk st s0 (State.mapError s y1 y2 y3) := by
  unfold State.mapError
  refine keeps_ite (fun _ => ?_) (fun _ => ?_)
  · assumption
  · apply State.logAccess_keeps; apply State.count_keeps; assumption

theorem State.autoDrain_keeps (h : Keeps lk st s0 s) (y1 : ℕ) :
    Keeps lk st s0 (State.autoDrain s y1) := by
  unfold State.autoDrain
  split
  · assumption
  · refine keeps_ite (fun _ => ?_) (fun _ => ?_)
    · apply State.drainEnter_keeps; assumption
    · assumption

theorem State.eccCorrected_keeps (h : Keeps lk st s0 s) (y1 : ℕ) (y2 : ℕ) (y3 : Who) (y4 : Bool) :
    Keeps lk st s0 (State.eccCorrected s y1 y2 y3 y4) := by
  unfold State.eccCorrected
  refine keeps_ite (fun _ => ?_) (fun _ => ?_)
  · assumption
  · apply State.logAccess_keeps; apply State.count_keeps; assumption

theorem State.eccFailed_keeps (h : Keeps lk st s0 s) (y1 : ℕ) (y2 : ℕ) (y3 : Who) (y4 : Bool) :
    Keeps lk st s0 (State.eccFailed s y1 y2 y3 y4) := by
  unfold State.eccFailed
  extract_lets +onlyGivenNames u1
  have ku1 : Keeps lk st s0 u1 := by
    unfold u1; refine keeps_mk ?_ rfl; assumption
  clear_value u1
  refine keeps_ite (fun _ => ?_) (fun _ => ?_)
  · apply State.report_keeps; assumption
  · apply State.autoDrain_keeps; apply State.report_keeps; apply State.logAccess_keeps; apply State.count_keeps
    assumption

theorem State.readWord_keeps (h : Keeps lk st s0 s) (y1 : ℕ) (y2 : ℕ) (y3 : Who) :
    Keeps lk st s0 (State.readWord s y1 y2 y3).1 := by
  unfold State.readWord
  split
  · dsimp only; assumption
  · extract_lets +onlyGivenNames u2
    have ku2 : Keeps lk st s0 u2 := by
      unfold u2; apply State.eccCorrected_keeps; assumption
    clear_value u2
    dsimp only; refine keeps_ite (fun _ => ?_) (fun _ => ?_)
    · refine keeps_mk ?_ rfl; assumption
    · assumption
  · dsimp only; apply State.eccFailed_keeps; assumption
  · dsimp only; refine keeps_ite (fun _ => ?_) (fun _ => ?_)
    · assumption
    · apply State.count_keeps; assumption

theorem State.readWords_keeps (h : Keeps lk st s0 s) (y1 : ℕ) (y2 : Who) (y3 : List ℕ) :
    Keeps lk st s0 (State.readWords s y1 y2 y3).1 := by
  induction y3 generalizing s y1 y2 with
  | nil =>
    rw [State.readWords]
    dsimp only; assumption
  | cons a l ih =>
    rw [State.readWords]
    dsimp only; apply ih; apply State.readWord_keeps; assumption

theorem State.readMem_keeps (h : Keeps lk st s0 s) (y1 : ℕ) (y2 : ℕ) (y3 : ℕ) (y4 : Who) :
    Keeps lk st s0 (State.readMem s y1 y2 y3 y4).1 := by
  unfold State.readMem
  extract_lets +onlyGivenNames u1
  have ku1 : Keeps lk st s0 u1.1 := by
    unfold u1; apply State.readWords_keeps; assumption
  clear_value u1
  refine keeps_ite1 (fun _ => ?_) (fun _ => ?_)
  · dsimp only; assumption
  · refine keeps_ite1 (fun _ => ?_) (fun _ => ?_)
    · dsimp only; apply State.drawn_keeps; assumption
    · dsimp only; assumption

theorem State.clearResv_keeps (h : Keeps lk st s0 s) (y1 : ℕ) :
    Keeps lk st s0 (State.clearResv s y1) := by
  unfold State.clearResv
  refine keeps_mk ?_ (by simp [shape_modAt]); assumption

theorem State.inject_keeps (h : Keeps lk st s0 s) (y1 : ℕ) :
    Keeps lk st s0 (State.inject s y1).1 := by
  unfold State.inject
  refine keeps_ite1 (fun _ => ?_) (fun _ => ?_)
  · dsimp only; apply State.wr_keeps; assumption
  · dsimp only; assumption

theorem State.writeWord_keeps (h : Keeps lk False s0 s) (y1 : ℕ) (y2 : ℕ) (y3 : ℕ) (y4 : List Byte) (y5 : Who) (y6 : Bool) :
    Keeps lk False s0 (State.writeWord s y1 y2 y3 y4 y5 y6).1 := by
  unfold State.writeWord
  extract_lets +onlyGivenNames u1 u2 u3 u4
  clear_value u1 u2 u3 u4
  refine keeps_ite1 (fun _ => ?_) (fun _ => ?_)
  · split
    dsimp only; refine keeps_mk ?_ rfl; apply State.putBytes_keeps; refine keeps_fst (by assumption) ?_
    refine keeps_ite1 (fun _ => ?_) (fun _ => ?_)
    · apply State.inject_keeps; assumption
    · dsimp only; assumption
  · split
    · dsimp only; apply State.putBytes_keeps; assumption
    · extract_lets +onlyGivenNames u2
      have ku2 : Keeps lk False s0 u2 := by
        unfold u2; apply State.eccCorrected_keeps; assumption
      clear_value u2
      dsimp only; refine keeps_mk ?_ rfl; apply State.putBytes_keeps; assumption
    · dsimp only; apply State.eccFailed_keeps; assumption
    · dsimp only; refine keeps_ite (fun _ => ?_) (fun _ => ?_)
      · assumption
      · apply State.count_keeps; assumption

theorem State.writeWords_keeps (h : Keeps lk False s0 s) (y1 : ℕ) (y2 : ℕ) (y3 : List Byte) (y4 : Who) (y5 : Bool) (y6 : List ℕ) :
    Keeps lk False s0 (State.writeWords s y1 y2 y3 y4 y5 y6).1 := by
  induction y6 generalizing s y1 y2 y3 y4 y5 with
  | nil =>
    rw [State.writeWords]
    dsimp only; assumption
  | cons a l ih =>
    rw [State.writeWords]
    dsimp only; apply ih; apply State.writeWord_keeps; assumption

theorem State.writeMem_keeps (h : Keeps lk False s0 s) (y1 : ℕ) (y2 : ℕ) (y3 : List Byte) (y4 : Who) :
    Keeps lk False s0 (State.writeMem s y1 y2 y3 y4).1 := by
  unfold State.writeMem
  extract_lets +onlyGivenNames u1 u2 u3
  have ku1 : Keeps lk False s0 u1.1 := by
    unfold u1; apply State.writeWords_keeps; assumption
  clear_value u1
  have ku2 : Keeps lk False s0 u2 := by
    unfold u2; apply State.clearResv_keeps; assumption
  clear_value u2
  have ku3 : Keeps lk False s0 u3 := by
    unfold u3; split
    · refine keeps_ite (fun _ => ?_) (fun _ => ?_)
      · apply State.setUnit_keeps; assumption
      · assumption
    · assumption
  clear_value u3
  dsimp only; assumption

theorem State.poisonMem_keeps (h : Keeps lk st s0 s) (y1 : ℕ) (y2 : ℕ) (y3 : ℕ) :
    Keeps lk st s0 (State.poisonMem s y1 y2 y3) := by
  unfold State.poisonMem
  refine keeps_mk ?_ rfl; assumption

theorem State.gate_keeps (h : Keeps lk st s0 s) (y1 : ℕ) (y2 : ℕ) :
    Keeps lk st s0 (State.gate s y1 y2).1 := by
  unfold State.gate
  refine keeps_ite1 (fun _ => ?_) (fun _ => ?_)
  · dsimp only; assumption
  · split
    · dsimp only; assumption
    · extract_lets +onlyGivenNames u1
      clear_value u1
      refine keeps_ite1 (fun _ => ?_) (fun _ => ?_)
      · dsimp only; assumption
      · split
        · refine keeps_ite1 (fun _ => ?_) (fun _ => ?_)
          · dsimp only; assumption
          · dsimp only; apply State.count_keeps; assumption
        · dsimp only; assumption
        · dsimp only; assumption
        · dsimp only; assumption

theorem State.fwRefuse_keeps (h : Keeps lk st s0 s) (y1 : ℕ) (y2 : ℕ) (y3 : Who) (y4 : Bool) :
    Keeps lk st s0 (State.fwRefuse s y1 y2 y3 y4) := by
  unfold State.fwRefuse
  extract_lets +onlyGivenNames u1 u2
  have ku1 : Keeps lk st s0 u1 := by
    unfold u1; apply State.count_keeps; assumption
  clear_value u1
  have ku2 : Keeps lk st s0 u2 := by
    unfold u2; refine keeps_ite (fun _ => ?_) (fun _ => ?_)
    · assumption
    · apply State.wrAll_keeps; assumption
  clear_value u2
  refine keeps_ite (fun _ => ?_) (fun _ => ?_)
  · refine keeps_mk ?_ rfl; assumption
  · assumption

theorem State.memAdmit_keeps (h : Keeps lk st s0 s) (y1 : Who) (y2 : ℕ) (y3 : ℕ) (y4 : ℕ) (y5 : Bool) :
    Keeps lk st s0 (State.memAdmit s y1 y2 y3 y4 y5).1 := by
  unfold State.memAdmit
  split
  · refine keeps_ite1 (fun _ => ?_) (fun _ => ?_)
    · dsimp only; apply State.mapError_keeps; assumption
    · refine keeps_ite1 (fun _ => ?_) (fun _ => ?_)
      · dsimp only; assumption
      · refine keeps_ite1 (fun _ => ?_) (fun _ => ?_)
        · dsimp only; assumption
        · extract_lets +onlyGivenNames u2
          have ku2 : Keeps lk st s0 u2.1 := by
            unfold u2; apply State.gate_keeps; assumption
          clear_value u2
          refine keeps_ite1 (fun _ => ?_) (fun _ => ?_)
          · dsimp only; assumption
          · refine keeps_ite1 (fun _ => ?_) (fun _ => ?_)
            · dsimp only; apply State.fwRefuse_keeps; assumption
            · refine keeps_ite1 (fun _ => ?_) (fun _ => ?_)
              · dsimp only; assumption
              · refine keeps_ite1 (fun _ => ?_) (fun _ => ?_)
                · dsimp only; assumption
                · dsimp only; apply State.fwRefuse_keeps; assumption
  · dsimp only; apply State.mapError_keeps; assumption

theorem State.localRead_keeps (h : Keeps lk st s0 s) (y1 : Who) (y2 : ℕ) (y3 : ℕ) (y4 : ℕ) :
    Keeps lk st s0 (State.localRead s y1 y2 y3 y4).1 := by
  unfold State.localRead
  extract_lets +onlyGivenNames u1
  have ku1 : Keeps lk st s0 u1.1 := by
    unfold u1; apply State.memAdmit_keeps; assumption
  clear_value u1
  refine keeps_ite1 (fun _ => ?_) (fun _ => ?_)
  · dsimp only; assumption
  · refine keeps_ite1 (fun _ => ?_) (fun _ => ?_)
    · dsimp only; assumption
    · apply State.readMem_keeps; assumption

theorem State.localWrite_keeps (h : Keeps lk False s0 s) (y1 : Who) (y2 : ℕ) (y3 : ℕ) (y4 : List Byte) :
    Keeps lk False s0 (State.localWrite s y1 y2 y3 y4).1 := by
  unfold State.localWrite
  extract_lets +onlyGivenNames u1
  have ku1 : Keeps lk False s0 u1.1 := by
    unfold u1; apply State.memAdmit_keeps; assumption
  clear_value u1
  refine keeps_ite1 (fun _ => ?_) (fun _ => ?_)
  · dsimp only; assumption
  · apply State.writeMem_keeps; assumption

end Sys2Proof.Machine
end

