-- ==== Sys2Proof/Laws/Keeps/WwBase.lean ====
section
/-! SUPPORT. What the operations of Machine/WwBase.lean keep. -/

set_option linter.all false

namespace Sys2Proof.Machine

variable {lk st : Prop} {s0 s t : State}

theorem State.setPort_keeps (h : Keeps lk st s0 s) (y1 : ℕ) (y2 : PortSt) :
    Keeps lk st s0 (State.setPort s y1 y2) := by
  unfold State.setPort
  refine keeps_mk ?_ (by simp [shape_modAt]); assumption

theorem State.portMod_keeps (h : Keeps lk st s0 s) (y1 : ℕ) (y2 : PortSt → PortSt) :
    Keeps lk st s0 (State.portMod s y1 y2) := by
  unfold State.portMod
  apply State.setPort_keeps; assumption

theorem State.wwPut_keeps (h : Keeps lk st s0 s) (y1 : ℕ) (y2 : WwMsg) :
    Keeps lk st s0 (State.wwPut s y1 y2) := by
  unfold State.wwPut
  apply State.portMod_keeps; assumption

theorem State.wwBcast_keeps (h : Keeps lk st s0 s) (y1 : ℕ) (y2 : WwMsg) :
    Keeps lk st s0 (State.wwBcast s y1 y2) := by
  unfold State.wwBcast
  refine keeps_foldl _ _ (fun _ _ _ => ?_) ?_
  · refine keeps_ite (fun _ => ?_) (fun _ => ?_)
    · apply State.wwPut_keeps; assumption
    · assumption
  · assumption

theorem State.wwSend_keeps (h : Keeps lk st s0 s) (y1 : WwMsg) :
    Keeps lk st s0 (State.wwSend s y1).1 := by
  unfold State.wwSend
  split
  · dsimp only; apply State.wwPut_keeps; assumption
  · dsimp only; assumption

theorem State.remoteSend_keeps (h : Keeps lk st s0 s) (y1 : Who) (y2 : ℕ) (y3 : ℕ) (y4 : Bool) (y5 : ℕ) (y6 : List Byte) (y7 : optParam Bool false) :
    Keeps lk st s0 (State.remoteSend s y1 y2 y3 y4 y5 y6 y7).1 := by
  unfold State.remoteSend
  extract_lets +onlyGivenNames u1
  clear_value u1
  split
  · dsimp only; assumption
  · dsimp only; assumption
  · extract_lets +onlyGivenNames u1
    clear_value u1
    dsimp only; refine keeps_mk ?_ rfl; apply State.wwPut_keeps; assumption

theorem State.setQstat_keeps (h : Keeps lk st s0 s) (y1 : ℕ) (y2 : ℕ) :
    Keeps lk st s0 (State.setQstat s y1 y2) := by
  unfold State.setQstat
  refine keeps_mk ?_ (by simp [shape_modAt]); assumption

theorem State.tokPostSend_keeps (h : Keeps lk st s0 s) (y1 : ℕ) (y2 : ℕ) :
    Keeps lk st s0 (State.tokPostSend s y1 y2) := by
  unfold State.tokPostSend
  extract_lets +onlyGivenNames u1 u2
  have ku1 : Keeps lk st s0 u1 := by
    unfold u1; refine keeps_ite (fun _ => ?_) (fun _ => ?_)
    · refine keeps_mk ?_ rfl; assumption
    · apply State.sendFrom_keeps; assumption
  clear_value u1
  have ku2 : Keeps lk st s0 u2 := by
    unfold u2; apply State.setQstat_keeps; assumption
  clear_value u2
  refine keeps_mk ?_ (by simp [shape_modAt]); assumption

theorem State.tokFlush_keeps (h : Keeps lk st s0 s) :
    Keeps lk st s0 (State.tokFlush s) := by
  unfold State.tokFlush
  refine keeps_foldl _ _ (fun _ _ _ => ?_) ?_
  · split
    · refine keeps_ite (fun _ => ?_) (fun _ => ?_)
      · assumption
      · apply State.tokPostSend_keeps; assumption
    · assumption
  · assumption

end Sys2Proof.Machine
end

