-- ==== Sys2Proof/Laws/Keeps/MemBus.lean ====
section
/-! SUPPORT. What the operations of Machine/MemBus.lean keep. -/

set_option linter.all false

namespace Sys2Proof.Machine

variable {lk st : Prop} {s0 s t : State}

theorem State.hostAdmit_keeps (h : Keeps lk st s0 s) (y1 : Who) (y2 : ℕ) (y3 : ℕ) (y4 : Bool) :
    Keeps lk st s0 (State.hostAdmit s y1 y2 y3 y4).1 := by
  unfold State.hostAdmit
  refine keeps_ite1 (fun _ => ?_) (fun _ => ?_)
  · dsimp only; apply State.mapError_keeps; assumption
  · refine keeps_ite1 (fun _ => ?_) (fun _ => ?_)
    · dsimp only; apply State.fwRefuse_keeps; assumption
    · refine keeps_ite1 (fun _ => ?_) (fun _ => ?_)
      · dsimp only; assumption
      · dsimp only; assumption

theorem State.reply_keeps (h : Keeps lk st s0 s) :
    Keeps lk st s0 (State.reply s).1 := by
  unfold State.reply
  split
  · dsimp only; refine keeps_mk ?_ rfl; assumption
  · dsimp only; assumption

theorem State.hostRead_keeps (h : Keeps lk st s0 s) (y1 : Who) (y2 : ℕ) (y3 : ℕ) :
    Keeps lk st s0 (State.hostRead s y1 y2 y3).1 := by
  unfold State.hostRead
  extract_lets +onlyGivenNames u1
  have ku1 : Keeps lk st s0 u1.1 := by
    unfold u1; apply State.hostAdmit_keeps; assumption
  clear_value u1
  refine keeps_ite1 (fun _ => ?_) (fun _ => ?_)
  · dsimp only; assumption
  · split
    · refine keeps_ite1 (fun _ => ?_) (fun _ => ?_)
      · dsimp only; refine keeps_fst (by assumption) ?_; apply State.reply_keeps; assumption
      · dsimp only; refine keeps_fst (by assumption) ?_; apply State.reply_keeps; assumption
    · dsimp only; refine keeps_fst (by assumption) ?_; apply State.reply_keeps; assumption

theorem State.hostWrite_keeps (h : Keeps lk st s0 s) (y1 : Who) (y2 : ℕ) (y3 : List Byte) :
    Keeps lk st s0 (State.hostWrite s y1 y2 y3).1 := by
  unfold State.hostWrite
  extract_lets +onlyGivenNames u1
  have ku1 : Keeps lk st s0 u1.1 := by
    unfold u1; apply State.hostAdmit_keeps; assumption
  clear_value u1
  refine keeps_ite1 (fun _ => ?_) (fun _ => ?_)
  · assumption
  · dsimp only; refine keeps_mk ?_ rfl; assumption

theorem State.remoteCall_keeps (h : Keeps lk st s0 s) (y1 : Who) (y2 : ℕ) (y3 : ℕ) (y4 : Bool) (y5 : ℕ) (y6 : List Byte) (y7 : optParam Bool false) :
    Keeps lk st s0 (State.remoteCall s y1 y2 y3 y4 y5 y6 y7).1 := by
  unfold State.remoteCall
  split
  · dsimp only; refine keeps_fst (by assumption) ?_; apply State.remoteSend_keeps; assumption
  · split
    · dsimp only; refine keeps_fst (by assumption) ?_; apply State.reply_keeps
      refine keeps_fst (by assumption) ?_; apply State.remoteSend_keeps; assumption
    · dsimp only; refine keeps_mk ?_ rfl; refine keeps_fst (by assumption) ?_; apply State.reply_keeps
      refine keeps_fst (by assumption) ?_; apply State.remoteSend_keeps; assumption

theorem State.gmRead_keeps (h : Keeps lk st s0 s) (y1 : Who) (y2 : ℕ) (y3 : ℕ) :
    Keeps lk st s0 (State.gmRead s y1 y2 y3).1 := by
  unfold State.gmRead
  refine keeps_ite1 (fun _ => ?_) (fun _ => ?_)
  · apply State.remoteCall_keeps; assumption
  · refine keeps_ite1 (fun _ => ?_) (fun _ => ?_)
    · apply State.hostRead_keeps; assumption
    · apply State.localRead_keeps; assumption

theorem State.gmWrite_keeps (h : Keeps lk False s0 s) (y1 : Who) (y2 : ℕ) (y3 : List Byte) :
    Keeps lk False s0 (State.gmWrite s y1 y2 y3).1 := by
  unfold State.gmWrite
  refine keeps_ite1 (fun _ => ?_) (fun _ => ?_)
  · extract_lets +onlyGivenNames u1
    have ku1 : Keeps lk False s0 u1.1 := by
      unfold u1; apply State.remoteCall_keeps; assumption
    clear_value u1
    dsimp only; assumption
  · refine keeps_ite1 (fun _ => ?_) (fun _ => ?_)
    · apply State.hostWrite_keeps; assumption
    · apply State.localWrite_keeps; assumption

theorem State.gmReadCuts_keeps (h : Keeps lk st s0 s) (y1 : Who) (y2 : ℕ) (y3 : List (ℕ × ℕ)) :
    Keeps lk st s0 (State.gmReadCuts s y1 y2 y3).1 := by
  induction y3 generalizing s y1 y2 with
  | nil =>
    rw [State.gmReadCuts]
    refine keeps_foldl1 _ _ (fun _ _ _ => ?_) ?_
    · refine keeps_ite1 (fun _ => ?_) (fun _ => ?_)
      · assumption
      · split
        dsimp only; refine keeps_fst (by assumption) ?_; apply State.gmRead_keeps; assumption
    · dsimp only; assumption
  | cons a l ih =>
    obtain ⟨a1, a2⟩ := a
    rw [State.gmReadCuts]
    refine keeps_foldl1 _ _ (fun _ _ _ => ?_) ?_
    · refine keeps_ite1 (fun _ => ?_) (fun _ => ?_)
      · assumption
      · split
        dsimp only; refine keeps_fst (by assumption) ?_; apply State.gmRead_keeps; assumption
    · dsimp only; assumption

theorem State.gmReads_keeps (h : Keeps lk st s0 s) (y1 : Who) (y2 : ℕ) (y3 : ℕ) :
    Keeps lk st s0 (State.gmReads s y1 y2 y3).1 := by
  unfold State.gmReads
  apply State.gmReadCuts_keeps; assumption

theorem State.gmWriteCuts_keeps (h : Keeps lk False s0 s) (y1 : Who) (y2 : ℕ) (y3 : List Byte) (y4 : List (ℕ × ℕ)) :
    Keeps lk False s0 (State.gmWriteCuts s y1 y2 y3 y4).1 := by
  induction y4 generalizing s y1 y2 y3 with
  | nil =>
    rw [State.gmWriteCuts]
    dsimp only; assumption
  | cons a l ih =>
    obtain ⟨a1, a2⟩ := a
    rw [State.gmWriteCuts]
    refine keeps_ite1 (fun _ => ?_) (fun _ => ?_)
    · apply State.gmWrite_keeps; assumption
    · apply ih; apply State.gmWrite_keeps; assumption

theorem State.gmWrites_keeps (h : Keeps lk False s0 s) (y1 : Who) (y2 : ℕ) (y3 : List Byte) :
    Keeps lk False s0 (State.gmWrites s y1 y2 y3).1 := by
  unfold State.gmWrites
  apply State.gmWriteCuts_keeps; assumption

end Sys2Proof.Machine
end

