-- ==== Sys2Proof/Laws/Keeps/DroneCore.lean ====
section
/-! SUPPORT. What the operations of Machine/DroneCore.lean keep. -/

set_option linter.all false

namespace Sys2Proof.Machine

variable {lk st : Prop} {s0 s t : State}

theorem State.setDrone_keeps (h : Keeps lk st s0 s) (y1 : ℕ) (y2 : Drone) :
    Keeps lk st s0 (State.setDrone s y1 y2) := by
  unfold State.setDrone
  refine keeps_mk ?_ (by simp [shape_modAt]); assumption

theorem State.fireAt_keeps (h : Keeps lk st s0 s) (y1 : ℕ) (y2 : ℕ) (y3 : ℕ) (y4 : ℕ) (y5 : List Byte) :
    Keeps lk st s0 (State.fireAt s y1 y2 y3 y4 y5) := by
  unfold State.fireAt
  refine keeps_mk ?_ rfl; assumption

theorem State.drnTo_keeps (h : Keeps lk st s0 s) (y1 : ℕ) (y2 : ℕ) :
    Keeps lk st s0 (State.drnTo s y1 y2) := by
  unfold State.drnTo
  refine keeps_ite (fun _ => ?_) (fun _ => ?_)
  · assumption
  · extract_lets +onlyGivenNames u5 u6 u7
    have ku5 : Keeps lk st s0 u5 := by
      unfold u5; apply State.wr_keeps; apply State.wr_keeps; assumption
    clear_value u5
    have ku6 : Keeps lk st s0 u6 := by
      unfold u6; refine keeps_ite (fun _ => ?_) (fun _ => ?_)
      · apply State.wr_keeps; assumption
      · assumption
    clear_value u6 u7
    extract_lets +onlyGivenNames u1
    have ku1 : Keeps lk st s0 u1 := by
      unfold u1; apply State.setDrone_keeps; assumption
    clear_value u1
    refine keeps_ite (fun _ => ?_) (fun _ => ?_)
    · apply State.fireAt_keeps; assumption
    · assumption

theorem State.loadF_keeps (h : Keeps lk st s0 s) (y1 : ℕ) (y2 : ℤ) :
    Keeps lk st s0 (State.loadF s y1 y2) := by
  unfold State.loadF
  extract_lets +onlyGivenNames u1 u2 u3
  clear_value u1 u2
  have ku3 : Keeps lk st s0 u3 := by
    unfold u3; apply State.setDrone_keeps; apply State.wr_keeps; assumption
  clear_value u3
  extract_lets +onlyGivenNames u4
  clear_value u4
  refine keeps_ite (fun _ => ?_) (fun _ => ?_)
  · assumption
  · apply State.countWrap_keeps; apply State.wr_keeps; assumption

theorem State.drnTake_keeps (h : Keeps lk st s0 s) (y1 : ℕ) :
    Keeps lk st s0 (State.drnTake s y1) := by
  unfold State.drnTake
  extract_lets +onlyGivenNames u1
  have ku1 : Keeps lk st s0 u1 := by
    unfold u1; apply State.wr_keeps; assumption
  clear_value u1
  apply State.setDrone_keeps; assumption

theorem State.drnStart_keeps (h : Keeps lk st s0 s) (y1 : ℕ) :
    Keeps lk st s0 (State.drnStart s y1) := by
  unfold State.drnStart
  refine keeps_ite (fun _ => ?_) (fun _ => ?_)
  · apply State.wr_keeps; apply State.wr_keeps; assumption
  · extract_lets +onlyGivenNames u3 u4
    have ku3 : Keeps lk st s0 u3 := by
      unfold u3; apply State.drnTake_keeps; assumption
    clear_value u3
    have ku4 : Keeps lk st s0 u4 := by
      unfold u4; apply State.loadF_keeps; assumption
    clear_value u4
    apply State.drnTo_keeps; assumption

theorem State.drnStop_keeps (h : Keeps lk st s0 s) (y1 : ℕ) :
    Keeps lk st s0 (State.drnStop s y1) := by
  unfold State.drnStop
  apply State.drnTo_keeps; apply State.setDrone_keeps; assumption

theorem State.drnReacq_keeps (h : Keeps lk st s0 s) (y1 : ℕ) :
    Keeps lk st s0 (State.drnReacq s y1) := by
  unfold State.drnReacq
  refine keeps_ite (fun _ => ?_) (fun _ => ?_)
  · assumption
  · refine keeps_ite (fun _ => ?_) (fun _ => ?_)
    · apply State.wr_keeps; assumption
    · apply State.drnTo_keeps; apply State.drnTake_keeps; assumption

theorem State.drnPreset_keeps (h : Keeps lk st s0 s) (y1 : ℕ) :
    Keeps lk st s0 (State.drnPreset s y1) := by
  unfold State.drnPreset
  apply State.setDrone_keeps; assumption

theorem State.drnCntClr_keeps (h : Keeps lk st s0 s) (y1 : ℕ) :
    Keeps lk st s0 (State.drnCntClr s y1) := by
  unfold State.drnCntClr
  apply State.wrAll_keeps; assumption

theorem State.writeDrnCtrl_keeps (h : Keeps lk st s0 s) (y1 : ℕ) (y2 : ℕ) (y3 : Bool) :
    Keeps lk st s0 (State.writeDrnCtrl s y1 y2 y3) := by
  unfold State.writeDrnCtrl
  extract_lets +onlyGivenNames u1 u2 u3 u4 u5 u6
  clear_value u1
  have ku2 : Keeps lk st s0 u2 := by
    unfold u2; apply State.wr_keeps; apply State.wr_keeps; apply State.wr_keeps; assumption
  clear_value u2
  have ku3 : Keeps lk st s0 u3 := by
    unfold u3; refine keeps_ite (fun _ => ?_) (fun _ => ?_)
    · apply State.wr_keeps; assumption
    · assumption
  clear_value u3
  have ku4 : Keeps lk st s0 u4 := by
    unfold u4; refine keeps_ite (fun _ => ?_) (fun _ => ?_)
    · apply State.drnCntClr_keeps; assumption
    · assumption
  clear_value u4
  have ku5 : Keeps lk st s0 u5 := by
    unfold u5; refine keeps_ite (fun _ => ?_) (fun _ => ?_)
    · apply State.drnStart_keeps; assumption
    · refine keeps_ite (fun _ => ?_) (fun _ => ?_)
      · apply State.drnStop_keeps; assumption
      · assumption
  clear_value u5
  have ku6 : Keeps lk st s0 u6 := by
    unfold u6; refine keeps_ite (fun _ => ?_) (fun _ => ?_)
    · apply State.drnReacq_keeps; assumption
    · assumption
  clear_value u6
  refine keeps_ite (fun _ => ?_) (fun _ => ?_)
  · apply State.drnPreset_keeps; assumption
  · assumption

theorem State.writeDrnStat_keeps (h : Keeps lk st s0 s) (y1 : ℕ) (y2 : ℕ) :
    Keeps lk st s0 (State.writeDrnStat s y1 y2) := by
  unfold State.writeDrnStat; dsimp only
  refine keeps_ite (fun _ => ?_) (fun _ => ?_)
  · apply State.wr_keeps; refine keeps_ite (fun _ => ?_) (fun _ => ?_)
    · apply State.wr_keeps; refine keeps_ite (fun _ => ?_) (fun _ => ?_)
      · apply State.wr_keeps; refine keeps_ite (fun _ => ?_) (fun _ => ?_)
        · apply State.wr_keeps; refine keeps_ite (fun _ => ?_) (fun _ => ?_)
          · apply State.wr_keeps; assumption
          · assumption
        · refine keeps_ite (fun _ => ?_) (fun _ => ?_)
          · apply State.wr_keeps; assumption
          · assumption
      · refine keeps_ite (fun _ => ?_) (fun _ => ?_)
        · apply State.wr_keeps; refine keeps_ite (fun _ => ?_) (fun _ => ?_)
          · apply State.wr_keeps; assumption
          · assumption
        · refine keeps_ite (fun _ => ?_) (fun _ => ?_)
          · apply State.wr_keeps; assumption
          · assumption
    · refine keeps_ite (fun _ => ?_) (fun _ => ?_)
      · apply State.wr_keeps; refine keeps_ite (fun _ => ?_) (fun _ => ?_)
        · apply State.wr_keeps; refine keeps_ite (fun _ => ?_) (fun _ => ?_)
          · apply State.wr_keeps; assumption
          · assumption
        · refine keeps_ite (fun _ => ?_) (fun _ => ?_)
          · apply State.wr_keeps; assumption
          · assumption
      · refine keeps_ite (fun _ => ?_) (fun _ => ?_)
        · apply State.wr_keeps; refine keeps_ite (fun _ => ?_) (fun _ => ?_)
          · apply State.wr_keeps; assumption
          · assumption
        · refine keeps_ite (fun _ => ?_) (fun _ => ?_)
          · apply State.wr_keeps; assumption
          · assumption
  · refine keeps_ite (fun _ => ?_) (fun _ => ?_)
    · apply State.wr_keeps; refine keeps_ite (fun _ => ?_) (fun _ => ?_)
      · apply State.wr_keeps; refine keeps_ite (fun _ => ?_) (fun _ => ?_)
        · apply State.wr_keeps; refine keeps_ite (fun _ => ?_) (fun _ => ?_)
          · apply State.wr_keeps; assumption
          · assumption
        · refine keeps_ite (fun _ => ?_) (fun _ => ?_)
          · apply State.wr_keeps; assumption
          · assumption
      · refine keeps_ite (fun _ => ?_) (fun _ => ?_)
        · apply State.wr_keeps; refine keeps_ite (fun _ => ?_) (fun _ => ?_)
          · apply State.wr_keeps; assumption
          · assumption
        · refine keeps_ite (fun _ => ?_) (fun _ => ?_)
          · apply State.wr_keeps; assumption
          · assumption
    · refine keeps_ite (fun _ => ?_) (fun _ => ?_)
      · apply State.wr_keeps; refine keeps_ite (fun _ => ?_) (fun _ => ?_)
        · apply State.wr_keeps; refine keeps_ite (fun _ => ?_) (fun _ => ?_)
          · apply State.wr_keeps; assumption
          · assumption
        · refine keeps_ite (fun _ => ?_) (fun _ => ?_)
          · apply State.wr_keeps; assumption
          · assumption
      · refine keeps_ite (fun _ => ?_) (fun _ => ?_)
        · apply State.wr_keeps; refine keeps_ite (fun _ => ?_) (fun _ => ?_)
          · apply State.wr_keeps; assumption
          · assumption
        · refine keeps_ite (fun _ => ?_) (fun _ => ?_)
          · apply State.wr_keeps; assumption
          · assumption

theorem State.writeEvPhase_keeps (h : Keeps lk st s0 s) (y1 : ℕ) (y2 : ℕ) (y3 : ℕ) :
    Keeps lk st s0 (State.writeEvPhase s y1 y2 y3) := by
  unfold State.writeEvPhase
  extract_lets +onlyGivenNames u1
  have ku1 : Keeps lk st s0 u1 := by
    unfold u1; apply State.wr_keeps; assumption
  clear_value u1
  apply State.setDrone_keeps; assumption

theorem State.writeEvCtrl_keeps (h : Keeps lk st s0 s) (y1 : ℕ) (y2 : ℕ) (y3 : ℕ) :
    Keeps lk st s0 (State.writeEvCtrl s y1 y2 y3) := by
  unfold State.writeEvCtrl
  extract_lets +onlyGivenNames u1 u2
  have ku1 : Keeps lk st s0 u1 := by
    unfold u1; apply State.wrAll_keeps; assumption
  clear_value u1
  have ku2 : Keeps lk st s0 u2 := by
    unfold u2; refine keeps_ite (fun _ => ?_) (fun _ => ?_)
    · apply State.wr_keeps; assumption
    · assumption
  clear_value u2
  apply State.setDrone_keeps; assumption

theorem State.holdCond_keeps (h : Keeps lk st s0 s) (y1 : ℕ) :
    Keeps lk st s0 (State.holdCond s y1) := by
  unfold State.holdCond
  extract_lets +onlyGivenNames u1 u2 u3
  clear_value u1 u2 u3
  refine keeps_ite (fun _ => ?_) (fun _ => ?_)
  · apply State.setDrone_keeps; apply State.wr_keeps; assumption
  · apply State.drnTo_keeps; assumption

theorem State.drnOp_keeps (h : Keeps lk st s0 s) (y1 : ℕ) (y2 : DrnOp) :
    Keeps lk st s0 (State.drnOp s y1 y2) := by
  unfold State.drnOp
  apply State.setDrone_keeps; assumption

theorem State.measAcquire_keeps (h : Keeps lk st s0 s) (y1 : ℕ) (y2 : ℕ) (y3 : ℤ) :
    Keeps lk st s0 (State.measAcquire s y1 y2 y3) := by
  unfold State.measAcquire
  extract_lets +onlyGivenNames u1 u2
  clear_value u1 u2
  refine keeps_ite (fun _ => ?_) (fun _ => ?_)
  · extract_lets +onlyGivenNames u3
    have ku3 : Keeps lk st s0 u3 := by
      unfold u3; apply State.drnOp_keeps; apply State.setDrone_keeps; assumption
    clear_value u3
    refine keeps_ite (fun _ => ?_) (fun _ => ?_)
    · apply State.drnTo_keeps; assumption
    · assumption
  · extract_lets +onlyGivenNames u4 u5
    clear_value u4
    have ku5 : Keeps lk st s0 u5 := by
      unfold u5; apply State.drnOp_keeps; apply State.setDrone_keeps; assumption
    clear_value u5
    refine keeps_ite (fun _ => ?_) (fun _ => ?_)
    · apply State.drnTo_keeps; assumption
    · assumption

theorem State.measTrack_keeps (h : Keeps lk st s0 s) (y1 : ℕ) (y2 : ℤ) :
    Keeps lk st s0 (State.measTrack s y1 y2) := by
  unfold State.measTrack
  extract_lets +onlyGivenNames u1 u2
  clear_value u1
  refine keeps_ite (fun _ => ?_) (fun _ => ?_)
  · extract_lets +onlyGivenNames u3
    have ku3 : Keeps lk st s0 u3 := by
      unfold u3; apply State.count_keeps; assumption
    clear_value u3
    refine keeps_ite (fun _ => ?_) (fun _ => ?_)
    · extract_lets +onlyGivenNames u6
      have ku6 : Keeps lk st s0 u6 := by
        unfold u6; apply State.setDrone_keeps; assumption
      clear_value u6
      refine keeps_ite (fun _ => ?_) (fun _ => ?_)
      · apply State.holdCond_keeps; assumption
      · assumption
    · assumption
  · extract_lets +onlyGivenNames u4
    have ku4 : Keeps lk st s0 u4 := by
      unfold u4; apply State.setDrone_keeps; assumption
    clear_value u4
    apply State.drnOp_keeps; refine keeps_ite (fun _ => ?_) (fun _ => ?_)
    · assumption
    · apply State.drnTo_keeps; assumption

theorem State.measTaken_keeps (h : Keeps lk st s0 s) (y1 : ℕ) (y2 : ℕ) (y3 : ℕ) :
    Keeps lk st s0 (State.measTaken s y1 y2 y3) := by
  unfold State.measTaken
  extract_lets +onlyGivenNames u1 u2 u3
  clear_value u1 u3
  extract_lets +onlyGivenNames u4
  have ku4 : Keeps lk st s0 u4 := by
    unfold u4; apply State.setDrone_keeps; assumption
  clear_value u4
  refine keeps_ite (fun _ => ?_) (fun _ => ?_)
  · assumption
  · refine keeps_ite (fun _ => ?_) (fun _ => ?_)
    · apply State.count_keeps; assumption
    · refine keeps_ite (fun _ => ?_) (fun _ => ?_)
      · apply State.count_keeps; assumption
      · extract_lets +onlyGivenNames u7 u8
        clear_value u7
        have ku8 : Keeps lk st s0 u8 := by
          unfold u8; apply State.wrS_keeps; assumption
        clear_value u8
        refine keeps_ite (fun _ => ?_) (fun _ => ?_)
        · apply State.measAcquire_keeps; assumption
        · apply State.measTrack_keeps; assumption

theorem State.measure_keeps (h : Keeps lk st s0 s) (y1 : ℕ) (y2 : ℕ) (y3 : ℕ) (y4 : ℕ) (y5 : ℕ) :
    Keeps lk st s0 (State.measure s y1 y2 y3 y4 y5) := by
  unfold State.measure
  extract_lets +onlyGivenNames u1 u2; refine keeps_ite (fun _ => ?_) (fun _ => ?_)
  · assumption
  · extract_lets +onlyGivenNames u4
    clear_value u4
    extract_lets +onlyGivenNames u5
    have ku5 : Keeps lk st s0 u5 := by
      unfold u5; refine keeps_ite (fun _ => ?_) (fun _ => ?_)
      · apply State.setDrone_keeps; assumption
      · assumption
    clear_value u5
    refine keeps_ite (fun _ => ?_) (fun _ => ?_)
    · apply State.measTaken_keeps; assumption
    · assumption

theorem State.offer_keeps (h : Keeps lk st s0 s) (y1 : ℕ) (y2 : ℕ) (y3 : ℕ) (y4 : ℕ) :
    Keeps lk st s0 (State.offer s y1 y2 y3 y4) := by
  unfold State.offer
  extract_lets +onlyGivenNames u1
  clear_value u1
  refine keeps_mk ?_ rfl; assumption

theorem State.offerTo_keeps (h : Keeps lk st s0 s) (y1 : ℕ) (y2 : ℕ) (y3 : ℕ) (y4 : ℕ) (y5 : ℕ) :
    Keeps lk st s0 (State.offerTo s y1 y2 y3 y4 y5) := by
  unfold State.offerTo
  refine keeps_mk ?_ rfl; assumption

theorem State.drnAdvance_keeps (h : Keeps lk st s0 s) (y1 : ℕ) :
    Keeps lk st s0 (State.drnAdvance s y1) := by
  unfold State.drnAdvance
  extract_lets +onlyGivenNames u1
  clear_value u1
  refine keeps_ite (fun _ => ?_) (fun _ => ?_)
  · apply State.setDrone_keeps; assumption
  · extract_lets +onlyGivenNames u3 u4 u5 u6 u7
    clear_value u3 u4 u5 u6
    have ku7 : Keeps lk st s0 u7 := by
      unfold u7; apply State.setDrone_keeps; assumption
    clear_value u7
    refine keeps_ite (fun _ => ?_) (fun _ => ?_)
    · apply State.loadF_keeps; assumption
    · assumption

theorem State.latchBank_keeps (h : Keeps lk st s0 s) (y1 : ℕ) (y2 : List Byte) :
    Keeps lk st s0 (State.latchBank s y1 y2) := by
  unfold State.latchBank
  extract_lets +onlyGivenNames u1 u2
  have ku1 : Keeps lk st s0 u1 := by
    unfold u1; apply State.flag_keeps; assumption
  clear_value u1
  have ku2 : Keeps lk st s0 u2 := by
    unfold u2; apply State.wrAll_keeps; assumption
  clear_value u2
  refine keeps_mk ?_ rfl; assumption

theorem State.evFire_keeps (h : Keeps lk st s0 s) (y1 : ℕ) (y2 : ℕ) (y3 : ℕ) (y4 : ℕ) (y5 : ℕ) :
    Keeps lk st s0 (State.evFire s y1 y2 y3 y4 y5) := by
  unfold State.evFire
  extract_lets +onlyGivenNames u1 u2 u3
  clear_value u2
  have ku3 : Keeps lk st s0 u3 := by
    unfold u3; apply State.setDrone_keeps; assumption
  clear_value u3
  extract_lets +onlyGivenNames u5
  have ku5 : Keeps lk st s0 u5 := by
    unfold u5; apply State.flag_keeps; assumption
  clear_value u5
  refine keeps_ite (fun _ => ?_) (fun _ => ?_)
  · extract_lets +onlyGivenNames u6
    clear_value u6
    apply State.fireAt_keeps; apply State.latchBank_keeps; assumption
  · apply State.fireAt_keeps; assumption

theorem State.evSlot_keeps (h : Keeps lk st s0 s) (y1 : ℕ) (y2 : ℕ) (y3 : ℕ) (y4 : ℤ) (y5 : ℕ) :
    Keeps lk st s0 (State.evSlot s y1 y2 y3 y4 y5) := by
  unfold State.evSlot
  extract_lets +onlyGivenNames u1 u2 u3 u4
  clear_value u1 u2 u3 u4
  extract_lets +onlyGivenNames u5
  have ku5 : Keeps lk st s0 u5 := by
    unfold u5; apply State.setDrone_keeps; assumption
  clear_value u5
  refine keeps_ite (fun _ => ?_) (fun _ => ?_)
  · assumption
  · split
    · assumption
    · extract_lets +onlyGivenNames u1
      clear_value u1
      refine keeps_ite (fun _ => ?_) (fun _ => ?_)
      · assumption
      · refine keeps_ite (fun _ => ?_) (fun _ => ?_)
        · assumption
        · refine keeps_ite (fun _ => ?_) (fun _ => ?_)
          · apply State.count_keeps; assumption
          · apply State.evFire_keeps; assumption

theorem State.evDrone_keeps (h : Keeps lk st s0 s) (y1 : ℕ) (y2 : ℕ) (y3 : ℕ) (y4 : Bool) :
    Keeps lk st s0 (State.evDrone s y1 y2 y3 y4) := by
  unfold State.evDrone
  refine keeps_ite (fun _ => ?_) (fun _ => ?_)
  · assumption
  · extract_lets +onlyGivenNames u2
    clear_value u2
    refine keeps_foldl _ _ (fun _ _ _ => ?_) ?_
    · apply State.evSlot_keeps; assumption
    · assumption

theorem State.dronesCycle_keeps (h : Keeps lk st s0 s) (y1 : ℕ) :
    Keeps lk st s0 (State.dronesCycle s y1) := by
  unfold State.dronesCycle
  extract_lets +onlyGivenNames u1 u2
  clear_value u1
  have ku2 : Keeps lk st s0 u2 := by
    unfold u2; refine keeps_foldl _ _ (fun _ _ _ => ?_) ?_
    · apply State.drnAdvance_keeps; assumption
    · assumption
  clear_value u2
  refine keeps_foldl _ _ (fun _ _ _ => ?_) ?_
  · apply State.evDrone_keeps; assumption
  · assumption

end Sys2Proof.Machine
end

