-- ==== Sys2Proof/Laws/Keeps/AxisBase.lean ====
section
/-! SUPPORT. What the operations of Machine/AxisBase.lean keep. -/

set_option linter.all false

namespace Sys2Proof.Machine

variable {lk st : Prop} {s0 s t : State}

theorem State.axMod_keeps (h : Keeps lk st s0 s) (y1 : ℕ) (y2 : AxisSt → AxisSt) :
    Keeps lk st s0 (State.axMod s y1 y2) := by
  unfold State.axMod
  apply State.setAxis_keeps; assumption

theorem State.setPat_keeps (h : Keeps lk st s0 s) (y1 : ℕ) (y2 : ℕ) :
    Keeps lk st s0 (State.setPat s y1 y2) := by
  unfold State.setPat
  apply State.axMod_keeps; assumption

theorem State.compareEdge_keeps (h : Keeps lk st s0 s) (y1 : ℕ) (y2 : ℕ) :
    Keeps lk st s0 (State.compareEdge s y1 y2) := by
  unfold State.compareEdge
  extract_lets +onlyGivenNames u1 u2 u3 u4 u5
  clear_value u1 u2 u3 u4 u5
  refine keeps_ite (fun _ => ?_) (fun _ => ?_)
  · assumption
  · extract_lets +onlyGivenNames u1 u2
    clear_value u1 u2
    apply State.setAxis_keeps; assumption

theorem State.setHbrk_keeps (h : Keeps lk st s0 s) (y1 : ℕ) (y2 : Bool) :
    Keeps lk st s0 (State.setHbrk s y1 y2) := by
  unfold State.setHbrk
  extract_lets +onlyGivenNames u1
  clear_value u1
  apply State.axMod_keeps; assumption

theorem State.axTo_keeps (h : Keeps lk st s0 s) (y1 : ℕ) (y2 : ℕ) :
    Keeps lk st s0 (State.axTo s y1 y2) := by
  unfold State.axTo
  extract_lets +onlyGivenNames u2
  have ku2 : Keeps lk st s0 u2 := by
    unfold u2; apply State.axMod_keeps; apply State.wr_keeps; assumption
  clear_value u2
  refine keeps_ite (fun _ => ?_) (fun _ => ?_)
  · dsimp only; apply State.wr_keeps; apply State.wr_keeps; apply State.axMod_keeps; apply State.setHbrk_keeps
    apply State.setPat_keeps; assumption
  · refine keeps_ite (fun _ => ?_) (fun _ => ?_)
    · apply State.axMod_keeps; apply State.setHbrk_keeps; apply State.setPat_keeps; assumption
    · refine keeps_ite (fun _ => ?_) (fun _ => ?_)
      · apply State.wr_keeps; apply State.axMod_keeps; apply State.setPat_keeps; assumption
      · apply State.axMod_keeps; apply State.setPat_keeps; assumption

theorem State.axInvalid_keeps (h : Keeps lk st s0 s) (y1 : ℕ) (y2 : ℕ) :
    Keeps lk st s0 (State.axInvalid s y1 y2) := by
  unfold State.axInvalid
  refine keeps_ite (fun _ => ?_) (fun _ => ?_)
  · assumption
  · refine keeps_ite (fun _ => ?_) (fun _ => ?_)
    · assumption
    · apply State.reportIf_keeps; apply State.axTo_keeps; apply State.wr_keeps; assumption

theorem State.pwmEn_keeps (h : Keeps lk st s0 s) (y1 : ℕ) (y2 : Bool) :
    Keeps lk st s0 (State.pwmEn s y1 y2) := by
  unfold State.pwmEn
  refine keeps_ite (fun _ => ?_) (fun _ => ?_)
  · assumption
  · refine keeps_ite (fun _ => ?_) (fun _ => ?_)
    · extract_lets +onlyGivenNames u1
      clear_value u1
      refine keeps_ite (fun _ => ?_) (fun _ => ?_)
      · apply State.wr_keeps; assumption
      · apply State.axMod_keeps; apply State.wr_keeps; assumption
    · apply State.axMod_keeps; apply State.wr_keeps; assumption

theorem State.transfer_keeps (h : Keeps lk st s0 s) (y1 : ℕ) (y2 : Bool) (y3 : ℤ) :
    Keeps lk st s0 (State.transfer s y1 y2 y3) := by
  unfold State.transfer
  extract_lets +onlyGivenNames u1 u2 u3 u4 u5 u6 u7 u8 u9 u10 u11 u12
  clear_value u1 u2 u3 u4 u5 u6 u7 u8 u9
  have ku10 : Keeps lk st s0 u10 := by
    unfold u10; apply State.flag_keeps; apply State.flag_keeps; apply State.setAxis_keeps; assumption
  clear_value u10
  have ku11 : Keeps lk st s0 u11 := by
    unfold u11; refine keeps_ite (fun _ => ?_) (fun _ => ?_)
    · apply State.axMod_keeps; apply State.setPat_keeps; assumption
    · assumption
  clear_value u11 u12
  refine keeps_ite (fun _ => ?_) (fun _ => ?_)
  · apply State.axInvalid_keeps; assumption
  · assumption

theorem State.reloadPoint_keeps (h : Keeps lk st s0 s) (y1 : ℕ) :
    Keeps lk st s0 (State.reloadPoint s y1) := by
  unfold State.reloadPoint
  extract_lets +onlyGivenNames u1 u2
  clear_value u1 u2
  refine keeps_ite (fun _ => ?_) (fun _ => ?_)
  · assumption
  · refine keeps_ite (fun _ => ?_) (fun _ => ?_)
    · apply State.transfer_keeps; assumption
    · refine keeps_ite (fun _ => ?_) (fun _ => ?_)
      · extract_lets +onlyGivenNames u3 u4
        clear_value u3
        have ku4 : Keeps lk st s0 u4 := by
          unfold u4; apply State.setAxis_keeps; assumption
        clear_value u4
        apply State.transfer_keeps; assumption
      · refine keeps_ite (fun _ => ?_) (fun _ => ?_)
        · apply State.transfer_keeps; assumption
        · assumption

theorem State.writeCmp_keeps (h : Keeps lk st s0 s) (y1 : ℕ) (y2 : ℕ) (y3 : ℕ) :
    Keeps lk st s0 (State.writeCmp s y1 y2 y3) := by
  unfold State.writeCmp
  refine keeps_ite (fun _ => ?_) (fun _ => ?_)
  · apply State.wr_keeps; assumption
  · extract_lets +onlyGivenNames u1
    have ku1 : Keeps lk st s0 u1 := by
      unfold u1; refine keeps_ite (fun _ => ?_) (fun _ => ?_)
      · apply State.reloadPoint_keeps; assumption
      · assumption
    clear_value u1
    apply State.count_keeps; apply State.wr_keeps; assumption

theorem State.axisResync_keeps (h : Keeps lk st s0 s) (y1 : ℕ) (y2 : ℕ) :
    Keeps lk st s0 (State.axisResync s y1 y2) := by
  unfold State.axisResync
  extract_lets +onlyGivenNames u1
  clear_value u1
  refine keeps_ite (fun _ => ?_) (fun _ => ?_)
  · assumption
  · extract_lets +onlyGivenNames u2 u3 u4 u5
    clear_value u2 u3 u4 u5
    apply State.setAxis_keeps; assumption

theorem State.axisPublished_keeps (h : Keeps lk st s0 s) (y1 : ℕ) (y2 : ℕ) (y3 : ℕ) :
    Keeps lk st s0 (State.axisPublished s y1 y2 y3) := by
  unfold State.axisPublished
  refine keeps_foldl _ _ (fun _ _ _ => ?_) ?_
  · extract_lets +onlyGivenNames u1 u2 u3 u4
    clear_value u1 u2 u3
    have ku4 : Keeps lk st s0 u4 := by
      unfold u4; refine keeps_ite (fun _ => ?_) (fun _ => ?_)
      · apply State.axMod_keeps; assumption
      · assumption
    clear_value u4
    refine keeps_ite (fun _ => ?_) (fun _ => ?_)
    · assumption
    · refine keeps_ite (fun _ => ?_) (fun _ => ?_)
      · apply State.axInvalid_keeps; assumption
      · apply State.axMod_keeps; assumption
  · assumption

theorem State.landUpdate_keeps (h : Keeps lk st s0 s) (y1 : ℕ) (y2 : List ℕ) (y3 : ℤ × ℤ) :
    Keeps lk st s0 (State.landUpdate s y1 y2 y3) := by
  unfold State.landUpdate
  refine keeps_ite (fun _ => ?_) (fun _ => ?_)
  · assumption
  · refine keeps_ite (fun _ => ?_) (fun _ => ?_)
    · apply State.wr_keeps; assumption
    · extract_lets +onlyGivenNames u2 u3
      clear_value u2
      have ku3 : Keeps lk st s0 u3 := by
        unfold u3; apply State.wrAll_keeps; assumption
      clear_value u3
      apply State.count_keeps; apply State.axMod_keeps; assumption

theorem State.dutyStage_keeps (h : Keeps lk st s0 s) (y1 : ℕ) :
    Keeps lk st s0 (State.dutyStage s y1) := by
  unfold State.dutyStage
  extract_lets +onlyGivenNames u1
  clear_value u1
  split
  · extract_lets +onlyGivenNames u3 u4
    clear_value u3
    have ku4 : Keeps lk st s0 u4 := by
      unfold u4; apply State.axMod_keeps; assumption
    clear_value u4
    apply State.landUpdate_keeps; refine keeps_ite (fun _ => ?_) (fun _ => ?_)
    · apply State.flag_keeps; assumption
    · assumption
  · assumption

theorem State.bchEval_keeps (h : Keeps lk st s0 s) (y1 : ℕ) :
    Keeps lk st s0 (State.bchEval s y1) := by
  unfold State.bchEval; dsimp only
  split
  · refine keeps_ite (fun _ => ?_) (fun _ => ?_)
    · apply State.setAxis_keeps; assumption
    · assumption
  · refine keeps_ite (fun _ => ?_) (fun _ => ?_)
    · refine keeps_ite (fun _ => ?_) (fun _ => ?_)
      · apply State.setAxis_keeps; assumption
      · assumption
    · refine keeps_ite (fun _ => ?_) (fun _ => ?_)
      · apply State.setAxis_keeps; assumption
      · assumption

theorem State.setSd_keeps (h : Keeps lk st s0 s) (y1 : ℕ) (y2 : SdSt) :
    Keeps lk st s0 (State.setSd s y1 y2) := by
  unfold State.setSd
  refine keeps_mk ?_ (by simp [shape_modAt]); assumption

theorem State.sdFault_keeps (h : Keeps lk st s0 s) (y1 : ℕ) :
    Keeps lk st s0 (State.sdFault s y1) := by
  unfold State.sdFault
  extract_lets +onlyGivenNames u1 u2
  clear_value u1
  have ku2 : Keeps lk st s0 u2 := by
    unfold u2; apply State.setSd_keeps; apply State.wr_keeps; assumption
  clear_value u2
  extract_lets +onlyGivenNames u5
  have ku5 : Keeps lk st s0 u5 := by
    unfold u5; split
    · apply State.axInvalid_keeps; assumption
    · assumption
  clear_value u5
  refine keeps_foldl _ _ (fun _ _ _ => ?_) ?_
  · apply State.axInvalid_keeps; apply State.bchEval_keeps; assumption
  · assumption

theorem State.activityFault_keeps (h : Keeps lk st s0 s) (y1 : ℕ) :
    Keeps lk st s0 (State.activityFault s y1) := by
  unfold State.activityFault
  refine keeps_ite (fun _ => ?_) (fun _ => ?_)
  · assumption
  · apply State.sdFault_keeps; apply State.wr_keeps; assumption

theorem State.densityEnd_keeps (h : Keeps lk st s0 s) (y1 : ℕ) (y2 : ℕ) :
    Keeps lk st s0 (State.densityEnd s y1 y2) := by
  unfold State.densityEnd
  extract_lets +onlyGivenNames u1
  clear_value u1
  refine keeps_ite (fun _ => ?_) (fun _ => ?_)
  · assumption
  · extract_lets +onlyGivenNames u1 u2
    clear_value u1
    have ku2 : Keeps lk st s0 u2 := by
      unfold u2; refine keeps_ite (fun _ => ?_) (fun _ => ?_)
      · apply State.sdFault_keeps; apply State.wr_keeps; assumption
      · refine keeps_ite (fun _ => ?_) (fun _ => ?_)
        · apply State.wr_keeps; assumption
        · assumption
    clear_value u2
    apply State.setSd_keeps; assumption

theorem State.ocTrip_keeps (h : Keeps lk st s0 s) (y1 : ℕ) (y2 : List Bool) :
    Keeps lk st s0 (State.ocTrip s y1 y2) := by
  unfold State.ocTrip
  refine keeps_ite (fun _ => ?_) (fun _ => ?_)
  · assumption
  · extract_lets +onlyGivenNames u2 u3 u4 u5
    clear_value u2
    have ku3 : Keeps lk st s0 u3 := by
      unfold u3; apply State.count_keeps; assumption
    clear_value u3
    have ku4 : Keeps lk st s0 u4 := by
      unfold u4; refine keeps_ite (fun _ => ?_) (fun _ => ?_)
      · apply State.axInvalid_keeps; assumption
      · apply State.report_keeps; assumption
    clear_value u4
    have ku5 : Keeps lk st s0 u5 := by
      unfold u5; apply State.axMod_keeps; apply State.setPat_keeps; assumption
    clear_value u5
    apply State.wrAll_keeps; assumption

theorem State.encEdge_keeps (h : Keeps lk st s0 s) (y1 : ℕ) (y2 : Bool) (y3 : Bool) :
    Keeps lk st s0 (State.encEdge s y1 y2 y3) := by
  unfold State.encEdge
  extract_lets +onlyGivenNames u1
  clear_value u1
  apply State.axMod_keeps; apply State.count_keeps; apply State.wr_keeps; assumption

theorem State.encIndex_keeps (h : Keeps lk st s0 s) (y1 : ℕ) :
    Keeps lk st s0 (State.encIndex s y1) := by
  unfold State.encIndex
  extract_lets +onlyGivenNames u1 u2 u3
  have ku1 : Keeps lk st s0 u1 := by
    unfold u1; apply State.wr_keeps; apply State.wr_keeps; assumption
  clear_value u1 u2 u3
  apply State.axMod_keeps; refine keeps_ite (fun _ => ?_) (fun _ => ?_)
  · apply State.wr_keeps; assumption
  · assumption

theorem State.axClear_keeps (h : Keeps lk st s0 s) (y1 : ℕ) :
    Keeps lk st s0 (State.axClear s y1) := by
  unfold State.axClear
  refine keeps_ite (fun _ => ?_) (fun _ => ?_)
  · apply State.axTo_keeps; assumption
  · assumption

theorem State.axStart_keeps (h : Keeps lk st s0 s) (y1 : ℕ) :
    Keeps lk st s0 (State.axStart s y1) := by
  unfold State.axStart
  refine keeps_ite (fun _ => ?_) (fun _ => ?_)
  · apply State.wr_keeps; assumption
  · apply State.axTo_keeps; apply State.wr_keeps; apply State.wr_keeps; assumption

theorem State.axStop_keeps (h : Keeps lk st s0 s) (y1 : ℕ) (y2 : Bool) :
    Keeps lk st s0 (State.axStop s y1 y2) := by
  unfold State.axStop
  refine keeps_ite (fun _ => ?_) (fun _ => ?_)
  · apply State.axTo_keeps; assumption
  · refine keeps_ite (fun _ => ?_) (fun _ => ?_)
    · apply State.axTo_keeps; apply State.wr_keeps; assumption
    · refine keeps_ite (fun _ => ?_) (fun _ => ?_)
      · assumption
      · refine keeps_ite (fun _ => ?_) (fun _ => ?_)
        · apply State.wr_keeps; assumption
        · assumption

theorem State.writeAxCtrl_keeps (h : Keeps lk st s0 s) (y1 : ℕ) (y2 : ℕ) :
    Keeps lk st s0 (State.writeAxCtrl s y1 y2) := by
  unfold State.writeAxCtrl
  extract_lets +onlyGivenNames u1 u2 u3 u4 u5 u6
  have ku1 : Keeps lk st s0 u1 := by
    unfold u1; refine keeps_ite (fun _ => ?_) (fun _ => ?_)
    · apply State.wrAll_keeps; assumption
    · assumption
  clear_value u1
  have ku2 : Keeps lk st s0 u2 := by
    unfold u2; apply State.wrAll_keeps; assumption
  clear_value u2
  have ku3 : Keeps lk st s0 u3 := by
    unfold u3; apply State.pwmEn_keeps; assumption
  clear_value u3
  have ku4 : Keeps lk st s0 u4 := by
    unfold u4; refine keeps_ite (fun _ => ?_) (fun _ => ?_)
    · apply State.axClear_keeps; assumption
    · assumption
  clear_value u4
  have ku5 : Keeps lk st s0 u5 := by
    unfold u5; refine keeps_ite (fun _ => ?_) (fun _ => ?_)
    · apply State.axStart_keeps; assumption
    · assumption
  clear_value u5
  have ku6 : Keeps lk st s0 u6 := by
    unfold u6; refine keeps_ite (fun _ => ?_) (fun _ => ?_)
    · apply State.axStop_keeps; assumption
    · assumption
  clear_value u6
  apply State.bchEval_keeps; assumption

theorem State.catchTimeout_keeps (h : Keeps lk st s0 s) (y1 : ℕ) :
    Keeps lk st s0 (State.catchTimeout s y1) := by
  unfold State.catchTimeout
  refine keeps_ite (fun _ => ?_) (fun _ => ?_)
  · apply State.axTo_keeps; apply State.wr_keeps; assumption
  · assumption

theorem State.subTimeout_keeps (h : Keeps lk st s0 s) (y1 : ℕ) :
    Keeps lk st s0 (State.subTimeout s y1) := by
  unfold State.subTimeout
  refine keeps_ite (fun _ => ?_) (fun _ => ?_)
  · apply State.axInvalid_keeps; assumption
  · assumption

theorem State.standstill_keeps (h : Keeps lk st s0 s) (y1 : ℕ) :
    Keeps lk st s0 (State.standstill s y1) := by
  unfold State.standstill
  extract_lets +onlyGivenNames u1
  clear_value u1
  refine keeps_ite (fun _ => ?_) (fun _ => ?_)
  · apply State.axTo_keeps; assumption
  · assumption

end Sys2Proof.Machine
end

