-- ==== Sys2Proof/Laws/Keeps/SeqCore.lean ====
section
/-! SUPPORT. What the operations of Machine/SeqCore.lean keep. -/

set_option linter.all false

namespace Sys2Proof.Machine

variable {lk st : Prop} {s0 s t : State}

theorem State.writeRowWord_keeps (h : Keeps lk st s0 s) (y1 : ℕ) (y2 : ℕ) (y3 : ℕ) (y4 : ℕ) :
    Keeps lk st s0 (State.writeRowWord s y1 y2 y3 y4) := by
  unfold State.writeRowWord
  extract_lets +onlyGivenNames u1
  clear_value u1
  refine keeps_ite (fun _ => ?_) (fun _ => ?_)
  · refine keeps_mk ?_ rfl; assumption
  · extract_lets +onlyGivenNames u6 u7
    have ku6 : Keeps lk st s0 u6 := by
      unfold u6; refine keeps_foldl _ _ (fun _ _ _ => ?_) ?_
      · split
        · apply State.wr_keeps; assumption
        · assumption
      · assumption
    clear_value u6
    have ku7 : Keeps lk st s0 u7 := by
      unfold u7; apply State.wr_keeps; assumption
    clear_value u7
    refine keeps_mk ?_ rfl; assumption

theorem State.returnCredits_keeps (h : Keeps lk st s0 s) (y1 : ℕ) (y2 : ℕ) (y3 : ℕ) (y4 : ℕ) (y5 : ℕ) :
    Keeps lk st s0 (State.returnCredits s y1 y2 y3 y4 y5) := by
  unfold State.returnCredits
  refine keeps_ite (fun _ => ?_) (fun _ => ?_)
  · assumption
  · extract_lets +onlyGivenNames u5
    clear_value u5
    refine keeps_ite (fun _ => ?_) (fun _ => ?_)
    · refine keeps_mk ?_ rfl; assumption
    · apply State.wr_keeps; assumption

theorem State.addTokens_keeps (h : Keeps lk st s0 s) (y1 : ℕ) (y2 : ℕ) (y3 : ℕ) (y4 : ℕ) :
    Keeps lk st s0 (State.addTokens s y1 y2 y3 y4) := by
  unfold State.addTokens
  extract_lets +onlyGivenNames u1
  clear_value u1
  apply State.wr_keeps; apply State.flag_keeps; assumption

theorem State.writeTokCnt_keeps (h : Keeps lk st s0 s) (y1 : ℕ) (y2 : ℕ) (y3 : ℕ) (y4 : ℕ) (y5 : ℕ) (y6 : ℕ) :
    Keeps lk st s0 (State.writeTokCnt s y1 y2 y3 y4 y5 y6) := by
  unfold State.writeTokCnt
  extract_lets +onlyGivenNames u1 u2 u3 u4
  clear_value u1
  have ku2 : Keeps lk st s0 u2 := by
    unfold u2; refine keeps_ite (fun _ => ?_) (fun _ => ?_)
    · apply State.wr_keeps; assumption
    · assumption
  clear_value u2
  have ku3 : Keeps lk st s0 u3 := by
    unfold u3; refine keeps_ite (fun _ => ?_) (fun _ => ?_)
    · apply State.wr_keeps; assumption
    · assumption
  clear_value u3 u4
  apply State.wr_keeps; apply State.flag_keeps; apply State.flag_keeps; assumption

theorem State.setPool_keeps (h : Keeps lk st s0 s) (y1 : ℕ) (y2 : ℕ) (y3 : ℤ) :
    Keeps lk st s0 (State.setPool s y1 y2 y3) := by
  unfold State.setPool
  extract_lets +onlyGivenNames u1 u2
  clear_value u1 u2
  apply State.wr_keeps; apply State.flag_keeps; apply State.flag_keeps; assumption

theorem State.addCredits_keeps (h : Keeps lk st s0 s) (y1 : ℕ) (y2 : ℕ) (y3 : ℕ) :
    Keeps lk st s0 (State.addCredits s y1 y2 y3) := by
  unfold State.addCredits
  apply State.setPool_keeps; assumption

theorem State.tokTake_keeps (h : Keeps lk st s0 s) (y1 : ℕ) (y2 : ℕ) (y3 : ℕ) (y4 : ℕ) (y5 : ℕ) :
    Keeps lk st s0 (State.tokTake s y1 y2 y3 y4 y5) := by
  unfold State.tokTake
  extract_lets +onlyGivenNames u1 u2
  clear_value u1 u2
  apply State.returnCredits_keeps; apply State.wr_keeps; assumption

theorem State.ctxArrive_keeps (h : Keeps lk st s0 s) (y1 : ℕ) (y2 : ℕ) :
    Keeps lk st s0 (State.ctxArrive s y1 y2) := by
  unfold State.ctxArrive
  apply State.setCtx_keeps; assumption

theorem State.ctxError_keeps (h : Keeps lk st s0 s) (y1 : ℕ) (y2 : ℕ) (y3 : ℕ) (y4 : ℕ) (y5 : ℕ) (y6 : ℕ) :
    Keeps lk st s0 (State.ctxError s y1 y2 y3 y4 y5 y6) := by
  unfold State.ctxError
  extract_lets +onlyGivenNames u1 u2 u3
  clear_value u1
  have ku2 : Keeps lk st s0 u2 := by
    unfold u2; apply State.wr_keeps; apply State.wrAll_keeps; assumption
  clear_value u2 u3
  extract_lets +onlyGivenNames u1
  have ku1 : Keeps lk st s0 u1 := by
    unfold u1; apply State.setCtx_keeps; assumption
  clear_value u1
  refine keeps_ite (fun _ => ?_) (fun _ => ?_)
  · assumption
  · extract_lets +onlyGivenNames u1
    have ku1 : Keeps lk st s0 u1 := by
      unfold u1; apply State.wrAll_keeps; assumption
    clear_value u1
    refine keeps_mk ?_ rfl; assumption

theorem State.ctxHalt_keeps (h : Keeps lk st s0 s) (y1 : ℕ) (y2 : ℕ) (y3 : ℕ) :
    Keeps lk st s0 (State.ctxHalt s y1 y2 y3) := by
  unfold State.ctxHalt
  extract_lets +onlyGivenNames u1
  have ku1 : Keeps lk st s0 u1 := by
    unfold u1; apply State.wrAll_keeps; assumption
  clear_value u1
  apply State.setCtx_keeps; assumption

theorem State.ctxStart_keeps (h : Keeps lk st s0 s) (y1 : ℕ) (y2 : ℕ) (y3 : Bool) :
    Keeps lk st s0 (State.ctxStart s y1 y2 y3) := by
  unfold State.ctxStart
  extract_lets +onlyGivenNames u1
  clear_value u1
  refine keeps_ite (fun _ => ?_) (fun _ => ?_)
  · apply State.ctxError_keeps; assumption
  · extract_lets +onlyGivenNames u2
    have ku2 : Keeps lk st s0 u2 := by
      unfold u2; apply State.wrAll_keeps; assumption
    clear_value u2
    apply State.ctxArrive_keeps; apply State.setCtx_keeps; assumption

theorem State.ctxHaltCmd_keeps (h : Keeps lk st s0 s) (y1 : ℕ) (y2 : ℕ) :
    Keeps lk st s0 (State.ctxHaltCmd s y1 y2) := by
  unfold State.ctxHaltCmd
  refine keeps_ite (fun _ => ?_) (fun _ => ?_)
  · apply State.ctxHalt_keeps; assumption
  · refine keeps_ite (fun _ => ?_) (fun _ => ?_)
    · refine keeps_ite (fun _ => ?_) (fun _ => ?_)
      · apply State.setCtx_keeps; assumption
      · apply State.ctxHalt_keeps; assumption
    · assumption

theorem State.ctxStepCmd_keeps (h : Keeps lk st s0 s) (y1 : ℕ) (y2 : ℕ) :
    Keeps lk st s0 (State.ctxStepCmd s y1 y2) := by
  unfold State.ctxStepCmd
  refine keeps_ite (fun _ => ?_) (fun _ => ?_)
  · apply State.ctxStart_keeps; assumption
  · refine keeps_ite (fun _ => ?_) (fun _ => ?_)
    · apply State.setCtx_keeps; assumption
    · assumption

theorem State.ctxStartCmd_keeps (h : Keeps lk st s0 s) (y1 : ℕ) (y2 : ℕ) :
    Keeps lk st s0 (State.ctxStartCmd s y1 y2) := by
  unfold State.ctxStartCmd
  refine keeps_ite (fun _ => ?_) (fun _ => ?_)
  · apply State.ctxStart_keeps; assumption
  · assumption

theorem State.dropChain_keeps (h : Keeps lk st s0 s) (y1 : ℕ) (y2 : ℕ) :
    Keeps lk st s0 (State.dropChain s y1 y2) := by
  unfold State.dropChain
  split
  · refine keeps_ite (fun _ => ?_) (fun _ => ?_)
    · apply State.wrAll_keeps; apply State.setTile_keeps; assumption
    · assumption
  · assumption

theorem State.ctxClearCmd_keeps (h : Keeps lk st s0 s) (y1 : ℕ) (y2 : ℕ) :
    Keeps lk st s0 (State.ctxClearCmd s y1 y2) := by
  unfold State.ctxClearCmd
  refine keeps_ite (fun _ => ?_) (fun _ => ?_)
  · extract_lets +onlyGivenNames u4
    clear_value u4
    apply State.dropChain_keeps; apply State.setCtx_keeps; apply State.wrAll_keeps; assumption
  · assumption

theorem State.writeCtxCtrl_keeps (h : Keeps lk st s0 s) (y1 : ℕ) (y2 : ℕ) (y3 : ℕ) (y4 : Bool) :
    Keeps lk st s0 (State.writeCtxCtrl s y1 y2 y3 y4) := by
  unfold State.writeCtxCtrl
  extract_lets +onlyGivenNames u1 u2 u3
  have ku1 : Keeps lk st s0 u1 := by
    unfold u1; refine keeps_ite (fun _ => ?_) (fun _ => ?_)
    · apply State.wr_keeps; assumption
    · assumption
  clear_value u1
  have ku2 : Keeps lk st s0 u2 := by
    unfold u2; refine keeps_ite (fun _ => ?_) (fun _ => ?_)
    · apply State.ctxClearCmd_keeps; assumption
    · assumption
  clear_value u2
  have ku3 : Keeps lk st s0 u3 := by
    unfold u3; refine keeps_ite (fun _ => ?_) (fun _ => ?_)
    · apply State.ctxStepCmd_keeps; assumption
    · refine keeps_ite (fun _ => ?_) (fun _ => ?_)
      · apply State.ctxStartCmd_keeps; assumption
      · assumption
  clear_value u3
  refine keeps_ite (fun _ => ?_) (fun _ => ?_)
  · apply State.ctxHaltCmd_keeps; assumption
  · assumption

theorem State.writeCtxPc_keeps (h : Keeps lk st s0 s) (y1 : ℕ) (y2 : ℕ) (y3 : ℕ) :
    Keeps lk st s0 (State.writeCtxPc s y1 y2 y3) := by
  unfold State.writeCtxPc
  refine keeps_ite (fun _ => ?_) (fun _ => ?_)
  · apply State.setCtx_keeps; apply State.wr_keeps; assumption
  · assumption

theorem State.readSeqErr_keeps (h : Keeps lk st s0 s) (y1 : ℕ) :
    Keeps lk st s0 (State.readSeqErr s y1) := by
  unfold State.readSeqErr
  refine keeps_mk ?_ rfl; assumption

theorem State.epochDrop_keeps (h : Keeps lk st s0 s) (y1 : ℕ) :
    Keeps lk st s0 (State.epochDrop s y1) := by
  unfold State.epochDrop
  refine keeps_ite (fun _ => ?_) (fun _ => ?_)
  · apply State.count_keeps; assumption
  · assumption

theorem State.msgGate_keeps (h : Keeps lk st s0 s) (y1 : ℕ) :
    Keeps lk st s0 (State.msgGate s y1).1 := by
  unfold State.msgGate
  extract_lets +onlyGivenNames u1
  clear_value u1
  refine keeps_ite1 (fun _ => ?_) (fun _ => ?_)
  · dsimp only; assumption
  · refine keeps_ite1 (fun _ => ?_) (fun _ => ?_)
    · dsimp only; assumption
    · refine keeps_ite1 (fun _ => ?_) (fun _ => ?_)
      · dsimp only; assumption
      · refine keeps_ite1 (fun _ => ?_) (fun _ => ?_)
        · dsimp only; assumption
        · refine keeps_ite1 (fun _ => ?_) (fun _ => ?_)
          · dsimp only; apply State.epochDrop_keeps; assumption
          · refine keeps_ite1 (fun _ => ?_) (fun _ => ?_)
            · dsimp only; apply State.count_keeps; assumption
            · dsimp only; assumption

theorem State.arriveToken_keeps (h : Keeps lk st s0 s) (y1 : ℕ) :
    Keeps lk st s0 (State.arriveToken s y1).1 := by
  unfold State.arriveToken
  extract_lets +onlyGivenNames u1
  have ku1 : Keeps lk st s0 u1.1 := by
    unfold u1; apply State.msgGate_keeps; assumption
  clear_value u1
  refine keeps_ite1 (fun _ => ?_) (fun _ => ?_)
  · assumption
  · dsimp only; apply State.addTokens_keeps; assumption

theorem State.arriveCredit_keeps (h : Keeps lk st s0 s) (y1 : ℕ) :
    Keeps lk st s0 (State.arriveCredit s y1).1 := by
  unfold State.arriveCredit
  extract_lets +onlyGivenNames u1
  have ku1 : Keeps lk st s0 u1.1 := by
    unfold u1; apply State.msgGate_keeps; assumption
  clear_value u1
  refine keeps_ite1 (fun _ => ?_) (fun _ => ?_)
  · assumption
  · dsimp only; apply State.addCredits_keeps; assumption

theorem State.arrive_keeps (h : Keeps lk st s0 s) (y1 : ℕ) :
    Keeps lk st s0 (State.arrive s y1).1 := by
  unfold State.arrive
  refine keeps_ite1 (fun _ => ?_) (fun _ => ?_)
  · apply State.arriveCredit_keeps; assumption
  · apply State.arriveToken_keeps; assumption

end Sys2Proof.Machine
end

