-- ==== Sys2Proof/Laws/Keeps/ReproCore.lean ====
section
/-! SUPPORT. What the operations of Machine/ReproCore.lean keep. -/

set_option linter.all false

namespace Sys2Proof.Machine

variable {lk st : Prop} {s0 s t : State}

theorem State.writeRepro_keeps (h : Keeps lk st s0 s) (y1 : ℕ) :
    Keeps lk st s0 (State.writeRepro s y1) := by
  unfold State.writeRepro
  refine keeps_ite (fun _ => ?_) (fun _ => ?_)
  · apply State.wr_keeps; assumption
  · apply State.wr_keeps; assumption

theorem State.sign_keeps (h : Keeps lk st s0 s) (y1 : ℕ) (y2 : ℕ) (y3 : ℕ) (y4 : ℕ) (y5 : List Byte) :
    Keeps lk st s0 (State.sign s y1 y2 y3 y4 y5) := by
  unfold State.sign
  refine keeps_ite (fun _ => ?_) (fun _ => ?_)
  · assumption
  · extract_lets +onlyGivenNames u3
    clear_value u3
    refine keeps_mk ?_ rfl; assumption

theorem State.lsRecord_keeps (h : Keeps lk st s0 s) (y1 : Bool) (y2 : ℕ) (y3 : ℕ) (y4 : ℕ) (y5 : ℕ) (y6 : ℕ) :
    Keeps lk st s0 (State.lsRecord s y1 y2 y3 y4 y5 y6) := by
  unfold State.lsRecord
  extract_lets +onlyGivenNames u1 u2
  clear_value u1
  have ku2 : Keeps lk st s0 u2 := by
    unfold u2; apply State.reportIf_keeps; assumption
  clear_value u2
  refine keeps_ite (fun _ => ?_) (fun _ => ?_)
  · refine keeps_ite (fun _ => ?_) (fun _ => ?_)
    · apply State.wr_keeps; assumption
    · apply State.count_keeps; assumption
  · extract_lets +onlyGivenNames u1
    have ku1 : Keeps lk st s0 u1 := by
      unfold u1; apply State.wrAll_keeps; assumption
    clear_value u1
    refine keeps_mk ?_ rfl; assumption

theorem State.sigDrop_keeps (h : Keeps lk st s0 s) (y1 : ℕ) (y2 : ℕ) :
    Keeps lk st s0 (State.sigDrop s y1 y2) := by
  unfold State.sigDrop
  refine keeps_mk ?_ rfl; assumption

end Sys2Proof.Machine
end

