-- ==== Sys2Proof/Laws/Keeps/TileCore.lean ====
section
/-! SUPPORT. What the operations of Machine/TileCore.lean keep. -/

set_option linter.all false

namespace Sys2Proof.Machine

variable {lk st : Prop} {s0 s t : State}

theorem State.engReads_keeps (h : Keeps lk st s0 s) (y1 : ℕ) (y2 : Who) (y3 : List (ℕ × ℕ)) :
    Keeps lk st s0 (State.engReads s y1 y2 y3).1 := by
  induction y3 generalizing s y1 y2 with
  | nil =>
    rw [State.engReads]
    dsimp only; assumption
  | cons a l ih =>
    obtain ⟨a1, a2⟩ := a
    rw [State.engReads]
    dsimp only; apply ih; refine keeps_ite1 (fun _ => ?_) (fun _ => ?_)
    · apply State.readMem_keeps; assumption
    · dsimp only; apply State.fwRefuse_keeps; assumption

theorem State.engRead_keeps (h : Keeps lk st s0 s) (y1 : ℕ) (y2 : Who) (y3 : ℕ) (y4 : ℕ) :
    Keeps lk st s0 (State.engRead s y1 y2 y3 y4).1 := by
  unfold State.engRead
  apply State.engReads_keeps; assumption

theorem State.engReadRows_keeps (h : Keeps lk st s0 s) (y1 : ℕ) (y2 : Who) (y3 : List (ℕ × ℕ)) :
    Keeps lk st s0 (State.engReadRows s y1 y2 y3).1 := by
  induction y3 generalizing s y1 y2 with
  | nil =>
    rw [State.engReadRows]
    dsimp only; assumption
  | cons a l ih =>
    obtain ⟨a1, a2⟩ := a
    rw [State.engReadRows]
    dsimp only; apply ih; apply State.engRead_keeps; assumption

theorem State.engWrites_keeps (h : Keeps lk False s0 s) (y1 : ℕ) (y2 : Who) (y3 : ℕ) (y4 : ℕ) (y5 : List (ℕ × ℕ)) (y6 : List Byte) :
    Keeps lk False s0 (State.engWrites s y1 y2 y3 y4 y5 y6).1 := by
  induction y5 generalizing s y1 y2 y3 y4 y6 with
  | nil =>
    rw [State.engWrites]
    dsimp only; assumption
  | cons a l ih =>
    obtain ⟨a1, a2⟩ := a
    rw [State.engWrites]
    dsimp only; apply ih; refine keeps_ite1 (fun _ => ?_) (fun _ => ?_)
    · dsimp only; apply State.sign_keeps; apply State.writeMem_keeps; assumption
    · dsimp only; apply State.fwRefuse_keeps; assumption

theorem State.engWriteRows_keeps (h : Keeps lk False s0 s) (y1 : ℕ) (y2 : Who) (y3 : ℕ) (y4 : ℕ) (y5 : List (ℕ × List Byte)) :
    Keeps lk False s0 (State.engWriteRows s y1 y2 y3 y4 y5).1 := by
  induction y5 generalizing s y1 y2 y3 y4 with
  | nil =>
    rw [State.engWriteRows]
    dsimp only; assumption
  | cons a l ih =>
    obtain ⟨a1, a2⟩ := a
    rw [State.engWriteRows]
    dsimp only; apply ih; apply State.engWrites_keeps; assumption

theorem State.poisonRows_keeps (h : Keeps lk st s0 s) (y1 : ℕ) (y2 : List (ℕ × ℕ)) :
    Keeps lk st s0 (State.poisonRows s y1 y2) := by
  unfold State.poisonRows
  refine keeps_foldl _ _ (fun _ _ _ => ?_) ?_
  · apply State.poisonMem_keeps; assumption
  · assumption

theorem State.paramBlock_keeps (h : Keeps lk st s0 s) (y1 : ℕ) (y2 : ℕ) (y3 : Who) :
    Keeps lk st s0 (State.paramBlock s y1 y2 y3).1 := by
  unfold State.paramBlock
  extract_lets +onlyGivenNames u1
  clear_value u1
  refine keeps_ite1 (fun _ => ?_) (fun _ => ?_)
  · dsimp only; assumption
  · extract_lets +onlyGivenNames u2
    have ku2 : Keeps lk st s0 u2.1 := by
      unfold u2; apply State.engRead_keeps; assumption
    clear_value u2
    dsimp only; refine keeps_ite (fun _ => ?_) (fun _ => ?_)
    · apply State.setCtx_keeps; assumption
    · assumption

theorem State.report__keeps (h : Keeps lk st s0 s) (y1 : ℕ) (y2 : ℕ) (y3 : Status) (y4 : ℕ) :
    Keeps lk st s0 (State.report_ s y1 y2 y3 y4) := by
  unfold State.report_
  apply State.setCtx_keeps; assumption

theorem State.raise_keeps (h : Keeps lk st s0 s) (y1 : ℕ) (y2 : ℕ) (y3 : Bool) (y4 : ℕ) :
    Keeps lk st s0 (State.raise s y1 y2 y3 y4) := by
  unfold State.raise
  refine keeps_ite (fun _ => ?_) (fun _ => ?_)
  · assumption
  · extract_lets +onlyGivenNames u1
    have ku1 : Keeps lk st s0 u1 := by
      unfold u1; apply State.flag_keeps; apply State.flag_keeps; apply State.flag_keeps; apply State.flag_keeps
      apply State.flag_keeps; assumption
    clear_value u1
    refine keeps_ite (fun _ => ?_) (fun _ => ?_)
    · assumption
    · apply State.wrAll_keeps; assumption

theorem State.mma_keeps (h : Keeps lk False s0 s) (y1 : ℕ) (y2 : ℕ) :
    Keeps lk False s0 (State.mma s y1 y2) := by
  unfold State.mma
  extract_lets +onlyGivenNames u1 u2 u3 u4
  clear_value u1 u2 u3
  have ku4 : Keeps lk False s0 u4.1 := by
    unfold u4; apply State.paramBlock_keeps; assumption
  clear_value u4
  refine keeps_ite (fun _ => ?_) (fun _ => ?_)
  · apply State.report__keeps; assumption
  · extract_lets +onlyGivenNames u1
    clear_value u1
    refine keeps_ite (fun _ => ?_) (fun _ => ?_)
    · apply State.report__keeps; assumption
    · extract_lets +onlyGivenNames u2 u3 u4 u5 u6
      have ku2 : Keeps lk False s0 u2.1 := by
        unfold u2; apply State.engReadRows_keeps; assumption
      clear_value u2
      have ku3 : Keeps lk False s0 u3.1 := by
        unfold u3; apply State.engReadRows_keeps; assumption
      clear_value u3
      have ku4 : Keeps lk False s0 u4.1 := by
        unfold u4; apply State.engReadRows_keeps; assumption
      clear_value u4 u5 u6
      extract_lets +onlyGivenNames u13
      have ku13 : Keeps lk False s0 u13 := by
        unfold u13; apply State.setTile_keeps; assumption
      clear_value u13
      refine keeps_ite (fun _ => ?_) (fun _ => ?_)
      · apply State.report__keeps; apply State.poisonRows_keeps; assumption
      · refine keeps_ite (fun _ => ?_) (fun _ => ?_)
        · apply State.report__keeps; assumption
        · extract_lets +onlyGivenNames u14 u15 u16 u17 u18 u19
          clear_value u14 u15 u16 u17 u18
          have ku19 : Keeps lk False s0 u19.1 := by
            unfold u19; apply State.engWriteRows_keeps; apply State.raise_keeps; assumption
          clear_value u19
          apply State.report__keeps; assumption

theorem State.vec_keeps (h : Keeps lk False s0 s) (y1 : ℕ) (y2 : ℕ) (y3 : ℕ) :
    Keeps lk False s0 (State.vec s y1 y2 y3) := by
  unfold State.vec
  extract_lets +onlyGivenNames u1 u2 u3 u4
  clear_value u1 u2 u3
  have ku4 : Keeps lk False s0 u4.1 := by
    unfold u4; apply State.paramBlock_keeps; assumption
  clear_value u4
  refine keeps_ite (fun _ => ?_) (fun _ => ?_)
  · apply State.report__keeps; assumption
  · extract_lets +onlyGivenNames u7
    clear_value u7
    refine keeps_ite (fun _ => ?_) (fun _ => ?_)
    · apply State.report__keeps; assumption
    · extract_lets +onlyGivenNames u8 u9 u10 u11 u12
      have ku8 : Keeps lk False s0 u8.1 := by
        unfold u8; apply State.engReadRows_keeps; assumption
      clear_value u8
      have ku9 : Keeps lk False s0 u9.1 := by
        unfold u9; apply State.engReadRows_keeps; assumption
      clear_value u9
      have ku10 : Keeps lk False s0 u10.1 := by
        unfold u10; apply State.engReadRows_keeps; assumption
      clear_value u10 u11 u12
      extract_lets +onlyGivenNames u20
      have ku20 : Keeps lk False s0 u20 := by
        unfold u20; apply State.setTile_keeps; assumption
      clear_value u20
      refine keeps_ite (fun _ => ?_) (fun _ => ?_)
      · apply State.report__keeps; apply State.poisonRows_keeps; assumption
      · refine keeps_ite (fun _ => ?_) (fun _ => ?_)
        · apply State.report__keeps; assumption
        · extract_lets +onlyGivenNames u21 u22 u23 u24 u25 u26 u27 u28
          clear_value u21 u22 u23 u24 u25 u26 u27
          have ku28 : Keeps lk False s0 u28.1 := by
            unfold u28; apply State.engWriteRows_keeps; apply State.raise_keeps; assumption
          clear_value u28
          apply State.report__keeps; assumption

end Sys2Proof.Machine
end

