-- ==== Sys2Proof/Laws/Keeps/ReedCore.lean ====
section
/-! SUPPORT. What the operations of Machine/ReedCore.lean keep. -/

set_option linter.all false

namespace Sys2Proof.Machine

variable {lk st : Prop} {s0 s t : State}

theorem State.monitor_keeps (h : Keeps lk st s0 s) (y1 : ℕ) (y2 : ReedOut) :
    Keeps lk st s0 (State.monitor s y1 y2) := by
  unfold State.monitor
  extract_lets +onlyGivenNames u1 u2
  clear_value u1 u2
  refine keeps_ite (fun _ => ?_) (fun _ => ?_)
  · apply State.wr_keeps; assumption
  · extract_lets +onlyGivenNames u1 u2 u3
    clear_value u1 u2
    have ku3 : Keeps lk st s0 u3 := by
      unfold u3; apply State.wr_keeps; assumption
    clear_value u3
    refine keeps_ite (fun _ => ?_) (fun _ => ?_)
    · extract_lets +onlyGivenNames u1
      have ku1 : Keeps lk st s0 u1 := by
        unfold u1; apply State.report_keeps; assumption
      clear_value u1
      refine keeps_ite (fun _ => ?_) (fun _ => ?_)
      · apply State.count_keeps; apply State.wr_keeps; assumption
      · assumption
    · assumption

theorem State.monitors_keeps (h : Keeps lk st s0 s) (y1 : ℕ) :
    Keeps lk st s0 (State.monitors s y1) := by
  unfold State.monitors
  refine keeps_foldl _ _ (fun _ _ _ => ?_) ?_
  · refine keeps_ite (fun _ => ?_) (fun _ => ?_)
    · apply State.monitor_keeps; assumption
    · assumption
  · assumption

theorem State.reedFault_keeps (h : Keeps lk st s0 s) (y1 : ℕ) :
    Keeps lk st s0 (State.reedFault s y1) := by
  unfold State.reedFault
  apply State.report_keeps; apply State.reedInvalid_keeps; apply State.wr_keeps; assumption

theorem State.reedAngles_keeps (h : Keeps lk st s0 s) (y1 : ℕ) (y2 : List Byte) (y3 : ℕ) :
    Keeps lk st s0 (State.reedAngles s y1 y2 y3) := by
  unfold State.reedAngles
  split
  · extract_lets +onlyGivenNames u2
    clear_value u2
    refine keeps_ite (fun _ => ?_) (fun _ => ?_)
    · assumption
    · apply State.offer_keeps; assumption
  · assumption

theorem State.reedPublish_keeps (h : Keeps lk st s0 s) (y1 : ℕ) (y2 : List Byte) (y3 : List ℤ) (y4 : List ℤ) (y5 : Bool) (y6 : Bool) (y7 : ℕ) (y8 : ℕ) :
    Keeps lk st s0 (State.reedPublish s y1 y2 y3 y4 y5 y6 y7 y8).1 := by
  unfold State.reedPublish
  extract_lets +onlyGivenNames u1 u2 u3 u4 u5 u6 u7 u8 u9 u10 u11
  clear_value u1 u2 u3 u4 u5 u6
  have ku7 : Keeps lk st s0 u7 := by
    unfold u7; apply State.setReed_keeps; assumption
  clear_value u7
  have ku8 : Keeps lk st s0 u8 := by
    unfold u8; apply State.count_keeps; apply State.count_keeps; apply State.wr_keeps; assumption
  clear_value u8
  have ku9 : Keeps lk st s0 u9 := by
    unfold u9; apply State.wrAll_keeps; assumption
  clear_value u9
  have ku10 : Keeps lk st s0 u10 := by
    unfold u10; refine keeps_ite (fun _ => ?_) (fun _ => ?_)
    · apply State.reedFault_keeps; assumption
    · assumption
  clear_value u10
  have ku11 : Keeps lk st s0 u11 := by
    unfold u11; apply State.monitors_keeps; apply State.reedAngles_keeps; assumption
  clear_value u11
  dsimp only; assumption

theorem State.evalRow_keeps (h : Keeps lk st s0 s) (y1 : ℕ) (y2 : ℕ) (y3 : ℕ) :
    Keeps lk st s0 (State.evalRow s y1 y2 y3) := by
  unfold State.evalRow
  extract_lets +onlyGivenNames u1 u2 u3
  clear_value u1 u2 u3
  refine keeps_ite (fun _ => ?_) (fun _ => ?_)
  · apply State.report__keeps; assumption
  · refine keeps_ite (fun _ => ?_) (fun _ => ?_)
    · apply State.report__keeps; assumption
    · refine keeps_ite (fun _ => ?_) (fun _ => ?_)
      · apply State.report__keeps; apply State.count_keeps; assumption
      · extract_lets +onlyGivenNames u2 u3 u4
        clear_value u2 u3
        have ku4 : Keeps lk st s0 u4.1 := by
          unfold u4; apply State.readMem_keeps; assumption
        clear_value u4
        refine keeps_ite (fun _ => ?_) (fun _ => ?_)
        · apply State.report__keeps; apply State.reedFault_keeps; assumption
        · refine keeps_ite (fun _ => ?_) (fun _ => ?_)
          · apply State.report__keeps; apply State.reedInvalid_keeps; assumption
          · extract_lets +onlyGivenNames u10 u11 u12 u13 u14 u15 u16 u17
            clear_value u10 u11 u12 u13 u14 u15 u16
            have ku17 : Keeps lk st s0 u17.1 := by
              unfold u17; apply State.reedPublish_keeps; assumption
            clear_value u17
            apply State.report__keeps; assumption

theorem State.reedSample_keeps (h : Keeps lk st s0 s) (y1 : ℕ) :
    Keeps lk st s0 (State.reedSample s y1) := by
  unfold State.reedSample
  refine keeps_foldl _ _ (fun _ _ _ => ?_) ?_
  · refine keeps_ite (fun _ => ?_) (fun _ => ?_)
    · assumption
    · extract_lets +onlyGivenNames u4 u5 u6 u7
      clear_value u4 u5 u6 u7
      apply State.setReed_keeps; assumption
  · assumption

theorem State.sealEnd_keeps (h : Keeps lk st s0 s) (y1 : ℕ) (y2 : ℕ) (y3 : ℕ) (y4 : ℕ) :
    Keeps lk st s0 (State.sealEnd s y1 y2 y3 y4) := by
  unfold State.sealEnd
  extract_lets +onlyGivenNames u1
  clear_value u1
  refine keeps_ite (fun _ => ?_) (fun _ => ?_)
  · apply State.wr_keeps; apply State.setStandby_keeps; assumption
  · apply State.wr_keeps; apply State.setStandby_keeps; assumption

theorem State.sealRow_keeps (h : Keeps lk st s0 s) (y1 : ℕ) (y2 : ℕ) (y3 : ℕ) :
    Keeps lk st s0 (State.sealRow s y1 y2 y3) := by
  unfold State.sealRow
  refine keeps_ite (fun _ => ?_) (fun _ => ?_)
  · apply State.report__keeps; assumption
  · extract_lets +onlyGivenNames u4 u5 u6 u7 u8 u9
    clear_value u4 u5 u6
    have ku7 : Keeps lk st s0 u7.1 := by
      unfold u7; apply State.readMem_keeps; assumption
    clear_value u7 u8
    have ku9 : Keeps lk st s0 u9.1 := by
      unfold u9; refine keeps_ite1 (fun _ => ?_) (fun _ => ?_)
      · dsimp only; assumption
      · apply State.readMem_keeps; assumption
    clear_value u9
    refine keeps_ite (fun _ => ?_) (fun _ => ?_)
    · apply State.report__keeps; apply State.sealEnd_keeps; assumption
    · extract_lets +onlyGivenNames u1 u2 u3
      clear_value u1 u2
      have ku3 : Keeps lk st s0 u3 := by
        unfold u3; apply State.setStandby_keeps; assumption
      clear_value u3
      refine keeps_ite (fun _ => ?_) (fun _ => ?_)
      · apply State.report__keeps; apply State.sealEnd_keeps; assumption
      · refine keeps_ite (fun _ => ?_) (fun _ => ?_)
        · split
          · extract_lets +onlyGivenNames u1
            clear_value u1
            extract_lets +onlyGivenNames u2
            have ku2 : Keeps lk st s0 u2 := by
              unfold u2; apply State.setReed_keeps; assumption
            clear_value u2
            refine keeps_ite (fun _ => ?_) (fun _ => ?_)
            · apply State.report__keeps; apply State.sealEnd_keeps; assumption
            · apply State.report__keeps; apply State.sealEnd_keeps; assumption
          · apply State.setReed_keeps; assumption
        · apply State.report__keeps; apply State.sealEnd_keeps; assumption

theorem State.writeApprove_keeps (h : Keeps lk st s0 s) (y1 : ℕ) (y2 : ℕ) :
    Keeps lk st s0 (State.writeApprove s y1 y2) := by
  unfold State.writeApprove
  split
  · apply State.setReed_keeps; assumption
  · extract_lets +onlyGivenNames u1 u2 u3
    clear_value u1 u2
    have ku3 : Keeps lk st s0 u3 := by
      unfold u3; apply State.setReed_keeps; assumption
    clear_value u3
    extract_lets +onlyGivenNames u18; apply State.report__keeps; apply State.sealEnd_keeps; assumption

theorem State.exchange_keeps (h : Keeps lk st s0 s) (y1 : ℕ) :
    Keeps lk st s0 (State.exchange s y1) := by
  unfold State.exchange
  extract_lets +onlyGivenNames u1 u2
  clear_value u1
  have ku2 : Keeps lk st s0 u2 := by
    unfold u2; apply State.countWrap_keeps; apply State.wr_keeps; assumption
  clear_value u2
  apply State.setReed_keeps; assumption

theorem State.swapRow_keeps (h : Keeps lk st s0 s) (y1 : ℕ) (y2 : ℕ) (y3 : ℕ) :
    Keeps lk st s0 (State.swapRow s y1 y2 y3) := by
  unfold State.swapRow
  refine keeps_ite (fun _ => ?_) (fun _ => ?_)
  · apply State.report__keeps; apply State.exchange_keeps; assumption
  · apply State.report__keeps; assumption

theorem State.swapNow_keeps (h : Keeps lk st s0 s) (y1 : ℕ) :
    Keeps lk st s0 (State.swapNow s y1) := by
  unfold State.swapNow
  refine keeps_ite (fun _ => ?_) (fun _ => ?_)
  · apply State.exchange_keeps; assumption
  · apply State.wr_keeps; assumption

theorem State.freeRow_keeps (h : Keeps lk st s0 s) (y1 : ℕ) (y2 : ℕ) (y3 : ℕ) :
    Keeps lk st s0 (State.freeRow s y1 y2 y3) := by
  unfold State.freeRow
  refine keeps_ite (fun _ => ?_) (fun _ => ?_)
  · apply State.report__keeps; apply State.setStandby_keeps; assumption
  · apply State.report__keeps; assumption

theorem State.reedEnable_keeps (h : Keeps lk st s0 s) (y1 : ℕ) :
    Keeps lk st s0 (State.reedEnable s y1) := by
  unfold State.reedEnable
  extract_lets +onlyGivenNames u1
  clear_value u1
  refine keeps_ite (fun _ => ?_) (fun _ => ?_)
  · apply State.setReed_keeps; apply State.wrAll_keeps; assumption
  · apply State.wrAll_keeps; assumption

theorem State.reedDisable_keeps (h : Keeps lk st s0 s) (y1 : ℕ) :
    Keeps lk st s0 (State.reedDisable s y1) := by
  unfold State.reedDisable
  refine keeps_ite (fun _ => ?_) (fun _ => ?_)
  · assumption
  · apply State.reedInvalid_keeps; apply State.wrAll_keeps; assumption

theorem State.writeReedCtrl_keeps (h : Keeps lk st s0 s) (y1 : ℕ) (y2 : ℕ) (y3 : Bool) :
    Keeps lk st s0 (State.writeReedCtrl s y1 y2 y3) := by
  unfold State.writeReedCtrl
  extract_lets +onlyGivenNames u1 u2
  have ku1 : Keeps lk st s0 u1 := by
    unfold u1; refine keeps_ite (fun _ => ?_) (fun _ => ?_)
    · apply State.wr_keeps; assumption
    · assumption
  clear_value u1
  have ku2 : Keeps lk st s0 u2 := by
    unfold u2; refine keeps_ite (fun _ => ?_) (fun _ => ?_)
    · apply State.swapNow_keeps; assumption
    · assumption
  clear_value u2
  refine keeps_ite (fun _ => ?_) (fun _ => ?_)
  · refine keeps_ite (fun _ => ?_) (fun _ => ?_)
    · apply State.reedEnable_keeps; assumption
    · assumption
  · apply State.reedDisable_keeps; assumption

theorem State.writeReedBuf_keeps (h : Keeps lk st s0 s) (y1 : ℕ) (y2 : ℕ) (y3 : Bool) :
    Keeps lk st s0 (State.writeReedBuf s y1 y2 y3) := by
  unfold State.writeReedBuf
  refine keeps_ite (fun _ => ?_) (fun _ => ?_)
  · apply State.wr_keeps; assumption
  · assumption

theorem State.captureEst_keeps (h : Keeps lk st s0 s) (y1 : ℕ) :
    Keeps lk st s0 (State.captureEst s y1) := by
  unfold State.captureEst
  apply State.wrAll_keeps; assumption

theorem State.coreReads_keeps (h : Keeps lk st s0 s) (y1 : Who) (y2 : List (ℕ × ℕ)) :
    Keeps lk st s0 (State.coreReads s y1 y2).1 := by
  induction y2 generalizing s y1 with
  | nil =>
    rw [State.coreReads]
    dsimp only; assumption
  | cons a l ih =>
    obtain ⟨a1, a2⟩ := a
    rw [State.coreReads]
    refine keeps_ite1 (fun _ => ?_) (fun _ => ?_)
    · apply State.localRead_keeps; assumption
    · extract_lets +onlyGivenNames u1
      have ku1 : Keeps lk st s0 u1.1 := by
        unfold u1; apply ih; apply State.localRead_keeps; assumption
      clear_value u1
      dsimp only; assumption

theorem State.reedTest_keeps (h : Keeps lk st s0 s) (y1 : Who) (y2 : ℕ) (y3 : ℕ) :
    Keeps lk st s0 (State.reedTest s y1 y2 y3).1 := by
  unfold State.reedTest
  extract_lets +onlyGivenNames u1 u2
  clear_value u1 u2
  refine keeps_ite1 (fun _ => ?_) (fun _ => ?_)
  · dsimp only; assumption
  · extract_lets +onlyGivenNames u1
    have ku1 : Keeps lk st s0 u1.1 := by
      unfold u1; apply State.readMem_keeps; assumption
    clear_value u1
    refine keeps_ite1 (fun _ => ?_) (fun _ => ?_)
    · dsimp only; assumption
    · extract_lets +onlyGivenNames u7 u8
      clear_value u7
      have ku8 : Keeps lk st s0 u8.1 := by
        unfold u8; apply State.coreReads_keeps; assumption
      clear_value u8
      refine keeps_ite1 (fun _ => ?_) (fun _ => ?_)
      · dsimp only; assumption
      · extract_lets +onlyGivenNames u9
        clear_value u9
        dsimp only; assumption

theorem State.reedWput_keeps (h : Keeps lk False s0 s) (y1 : Who) (y2 : ℕ) (y3 : ℕ) :
    Keeps lk False s0 (State.reedWput s y1 y2 y3).1 := by
  unfold State.reedWput
  split
  · refine keeps_ite1 (fun _ => ?_) (fun _ => ?_)
    · apply State.localWrite_keeps; assumption
    · dsimp only; assumption
  · dsimp only; assumption

theorem State.reedFallbk_keeps (h : Keeps lk st s0 s) (y1 : ℕ) :
    Keeps lk st s0 (State.reedFallbk s y1).1 := by
  unfold State.reedFallbk
  refine keeps_ite1 (fun _ => ?_) (fun _ => ?_)
  · dsimp only; assumption
  · extract_lets +onlyGivenNames u2 u3 u4 u5 u6
    clear_value u2 u3 u4 u5 u6
    dsimp only; apply State.setReed_keeps; assumption

end Sys2Proof.Machine
end

