-- ==== Sys2Proof/Laws/Keeps/ChanterCore.lean ====
section
/-! SUPPORT. What the operations of Machine/ChanterCore.lean keep. -/

set_option linter.all false

namespace Sys2Proof.Machine

variable {lk st : Prop} {s0 s t : State}

theorem State.setSlot_keeps (h : Keeps lk st s0 s) (y1 : ℕ) (y2 : SlotSt) :
    Keeps lk st s0 (State.setSlot s y1 y2) := by
  unfold State.setSlot
  refine keeps_mk ?_ (by simp [shape_modAt]); assumption

theorem State.slotMod_keeps (h : Keeps lk st s0 s) (y1 : ℕ) (y2 : SlotSt → SlotSt) :
    Keeps lk st s0 (State.slotMod s y1 y2) := by
  unfold State.slotMod
  apply State.setSlot_keeps; assumption

theorem State.putRec_keeps (h : Keeps lk False s0 s) (y1 : ℕ) (y2 : ℕ) (y3 : List Byte) :
    Keeps lk False s0 (State.putRec s y1 y2 y3) := by
  unfold State.putRec
  apply State.writeMem_keeps; assumption

theorem State.orFlags_keeps (h : Keeps lk False s0 s) (y1 : ℕ) (y2 : ℕ) :
    Keeps lk False s0 (State.orFlags s y1 y2) := by
  unfold State.orFlags
  apply State.putRec_keeps; assumption

theorem State.setCap_keeps (h : Keeps lk st s0 s) (y1 : ℕ) (y2 : CapSt) :
    Keeps lk st s0 (State.setCap s y1 y2) := by
  unfold State.setCap
  refine keeps_mk ?_ (by simp [shape_modAt]); assumption

theorem State.setInj_keeps (h : Keeps lk st s0 s) (y1 : ℕ) (y2 : InjSt) :
    Keeps lk st s0 (State.setInj s y1 y2) := by
  unfold State.setInj
  refine keeps_mk ?_ (by simp [shape_modAt]); assumption

theorem State.injShow_keeps (h : Keeps lk st s0 s) :
    Keeps lk st s0 (State.injShow s) := by
  unfold State.injShow
  apply State.wrAll_keeps; assumption

theorem State.injEnd_keeps (h : Keeps lk st s0 s) (y1 : ℕ) (y2 : Bool) :
    Keeps lk st s0 (State.injEnd s y1 y2) := by
  unfold State.injEnd
  refine keeps_ite (fun _ => ?_) (fun _ => ?_)
  · assumption
  · apply State.wr_keeps; apply State.wr_keeps; apply State.wr_keeps; assumption

theorem State.injEndAll_keeps (h : Keeps lk st s0 s) (y1 : Bool) (y2 : ℕ → Bool) :
    Keeps lk st s0 (State.injEndAll s y1 y2) := by
  unfold State.injEndAll
  apply State.injShow_keeps; refine keeps_foldl _ _ (fun _ _ _ => ?_) ?_
  · apply State.injEnd_keeps; assumption
  · assumption

theorem State.injGo_keeps (h : Keeps lk st s0 s) (y1 : ℕ) :
    Keeps lk st s0 (State.injGo s y1) := by
  unfold State.injGo
  refine keeps_ite (fun _ => ?_) (fun _ => ?_)
  · apply State.count_keeps; assumption
  · refine keeps_ite (fun _ => ?_) (fun _ => ?_)
    · assumption
    · extract_lets +onlyGivenNames u1
      clear_value u1
      apply State.injShow_keeps; refine keeps_foldl _ _ (fun _ _ _ => ?_) ?_
      · extract_lets +onlyGivenNames u2
        have ku2 : Keeps lk st s0 u2 := by
          unfold u2; apply State.wr_keeps; apply State.setInj_keeps; assumption
        clear_value u2
        refine keeps_ite (fun _ => ?_) (fun _ => ?_)
        · apply State.wr_keeps; assumption
        · apply State.wr_keeps; assumption
      · assumption

theorem State.injStop_keeps (h : Keeps lk st s0 s) (y1 : ℕ) :
    Keeps lk st s0 (State.injStop s y1) := by
  unfold State.injStop
  apply State.injShow_keeps; refine keeps_foldl _ _ (fun _ _ _ => ?_) ?_
  · refine keeps_ite (fun _ => ?_) (fun _ => ?_)
    · assumption
    · extract_lets +onlyGivenNames u1; refine keeps_ite (fun _ => ?_) (fun _ => ?_)
      · apply State.injEnd_keeps; assumption
      · apply State.setInj_keeps; assumption
  · assumption

theorem State.injAbort_keeps (h : Keeps lk st s0 s) (y1 : ℕ) :
    Keeps lk st s0 (State.injAbort s y1) := by
  unfold State.injAbort
  apply State.injEndAll_keeps; assumption

theorem State.injStep_keeps (h : Keeps lk st s0 s) (y1 : ℕ) :
    Keeps lk st s0 (State.injStep s y1) := by
  unfold State.injStep
  refine keeps_ite (fun _ => ?_) (fun _ => ?_)
  · assumption
  · extract_lets +onlyGivenNames u2 u3 u4 u5 u6 u7
    clear_value u2 u3 u4 u5
    have ku6 : Keeps lk st s0 u6 := by
      unfold u6; apply State.wr_keeps; apply State.setInj_keeps; assumption
    clear_value u6 u7
    refine keeps_ite (fun _ => ?_) (fun _ => ?_)
    · apply State.injEnd_keeps; assumption
    · assumption

theorem State.writePermit_keeps (h : Keeps lk st s0 s) (y1 : Bool) :
    Keeps lk st s0 (State.writePermit s y1) := by
  unfold State.writePermit
  extract_lets +onlyGivenNames u1
  have ku1 : Keeps lk st s0 u1 := by
    unfold u1; apply State.wr_keeps; assumption
  clear_value u1
  refine keeps_ite (fun _ => ?_) (fun _ => ?_)
  · assumption
  · apply State.injEndAll_keeps; assumption

theorem State.slotLeaves_keeps (h : Keeps lk st s0 s) (y1 : ℕ) :
    Keeps lk st s0 (State.slotLeaves s y1) := by
  unfold State.slotLeaves
  apply State.injEndAll_keeps; apply State.slotMod_keeps; assumption

theorem State.slotFault_keeps (h : Keeps lk False s0 s) (y1 : ℕ) (y2 : ℕ) (y3 : ℕ) :
    Keeps lk False s0 (State.slotFault s y1 y2 y3) := by
  unfold State.slotFault
  refine keeps_ite (fun _ => ?_) (fun _ => ?_)
  · assumption
  · extract_lets +onlyGivenNames u1
    have ku1 : Keeps lk False s0 u1 := by
      unfold u1; apply State.orFlags_keeps; apply State.wr_keeps; apply State.wr_keeps; assumption
    clear_value u1
    apply State.report_keeps; apply State.slotLeaves_keeps; assumption

theorem State.showCseq_keeps (h : Keeps lk st s0 s) (y1 : ℕ) :
    Keeps lk st s0 (State.showCseq s y1) := by
  unfold State.showCseq
  apply State.wr_keeps; assumption

theorem State.applyEntry_keeps (h : Keeps lk False s0 s) (y1 : ℕ) (y2 : ℕ × ℕ × ℕ) :
    Keeps lk False s0 (State.applyEntry s y1 y2) := by
  unfold State.applyEntry; dsimp only
  refine keeps_ite (fun _ => ?_) (fun _ => ?_)
  · apply State.showCseq_keeps; apply State.putRec_keeps; apply State.putRec_keeps; apply State.putRec_keeps
    assumption
  · refine keeps_ite (fun _ => ?_) (fun _ => ?_)
    · apply State.showCseq_keeps; apply State.putRec_keeps; apply State.putRec_keeps; assumption
    · refine keeps_ite (fun _ => ?_) (fun _ => ?_)
      · apply State.putRec_keeps; assumption
      · refine keeps_ite (fun _ => ?_) (fun _ => ?_)
        · apply State.putRec_keeps; assumption
        · apply State.count_keeps; assumption

theorem State.showQ_keeps (h : Keeps lk st s0 s) (y1 : ℕ) :
    Keeps lk st s0 (State.showQ s y1) := by
  unfold State.showQ
  apply State.wr_keeps; assumption

theorem State.cwqWrite_keeps (h : Keeps lk False s0 s) (y1 : ℕ) (y2 : ℕ) :
    Keeps lk False s0 (State.cwqWrite s y1 y2).1 := by
  unfold State.cwqWrite
  extract_lets +onlyGivenNames u1 u2 u3
  clear_value u1 u2 u3
  refine keeps_ite1 (fun _ => ?_) (fun _ => ?_)
  · dsimp only; apply State.applyEntry_keeps; assumption
  · refine keeps_ite1 (fun _ => ?_) (fun _ => ?_)
    · dsimp only; apply State.count_keeps; apply State.wr_keeps; assumption
    · dsimp only; apply State.showQ_keeps; apply State.slotMod_keeps; assumption

theorem State.enqPreset_keeps (h : Keeps lk False s0 s) (y1 : ℕ) (y2 : ℕ) :
    Keeps lk False s0 (State.enqPreset s y1 y2) := by
  unfold State.enqPreset
  refine keeps_ite (fun _ => ?_) (fun _ => ?_)
  · apply State.applyEntry_keeps; assumption
  · apply State.showQ_keeps; apply State.slotMod_keeps; assumption

theorem State.cwqFlush_keeps (h : Keeps lk st s0 s) (y1 : ℕ) :
    Keeps lk st s0 (State.cwqFlush s y1) := by
  unfold State.cwqFlush
  apply State.showQ_keeps; apply State.slotMod_keeps; apply State.count_keeps; assumption

theorem State.applyOldest_keeps (h : Keeps lk False s0 s) (y1 : ℕ) :
    Keeps lk False s0 (State.applyOldest s y1) := by
  unfold State.applyOldest
  split
  · assumption
  · apply State.showQ_keeps; apply State.slotMod_keeps; apply State.applyEntry_keeps; assumption

theorem State.slotEnable_keeps (h : Keeps lk False s0 s) (y1 : ℕ) (y2 : Bool) :
    Keeps lk False s0 (State.slotEnable s y1 y2) := by
  unfold State.slotEnable
  extract_lets +onlyGivenNames u1
  clear_value u1
  refine keeps_ite (fun _ => ?_) (fun _ => ?_)
  · refine keeps_ite (fun _ => ?_) (fun _ => ?_)
    · assumption
    · extract_lets +onlyGivenNames u2
      have ku2 : Keeps lk False s0 u2.1 := by
        unfold u2; apply State.readMem_keeps; assumption
      clear_value u2
      refine keeps_ite (fun _ => ?_) (fun _ => ?_)
      · apply State.wr_keeps; assumption
      · dsimp only; apply State.slotMod_keeps; apply State.showCseq_keeps; apply State.wr_keeps
        apply State.wr_keeps; assumption
  · extract_lets +onlyGivenNames u1
    have ku1 : Keeps lk False s0 u1 := by
      unfold u1; apply State.wr_keeps; assumption
    clear_value u1
    refine keeps_ite (fun _ => ?_) (fun _ => ?_)
    · assumption
    · extract_lets +onlyGivenNames u4 u5
      have ku4 : Keeps lk False s0 u4 := by
        unfold u4; apply State.orFlags_keeps; apply State.wr_keeps; assumption
      clear_value u4
      have ku5 : Keeps lk False s0 u5 := by
        unfold u5; apply State.slotMod_keeps; refine keeps_foldl _ _ (fun _ _ _ => ?_) ?_
        · apply State.applyEntry_keeps; assumption
        · assumption
      clear_value u5
      apply State.slotLeaves_keeps; apply State.showQ_keeps; assumption

theorem State.laneEnable_keeps (h : Keeps lk False s0 s) (y1 : ℕ) (y2 : Bool) :
    Keeps lk False s0 (State.laneEnable s y1 y2) := by
  unfold State.laneEnable
  extract_lets +onlyGivenNames u1
  have ku1 : Keeps lk False s0 u1 := by
    unfold u1; apply State.wr_keeps; assumption
  clear_value u1
  refine keeps_ite (fun _ => ?_) (fun _ => ?_)
  · assumption
  · refine keeps_foldl _ _ (fun _ _ _ => ?_) ?_
    · refine keeps_ite (fun _ => ?_) (fun _ => ?_)
      · apply State.slotFault_keeps; assumption
      · assumption
    · assumption

theorem State.writeChnCtrl_keeps (h : Keeps lk False s0 s) (y1 : ℕ) :
    Keeps lk False s0 (State.writeChnCtrl s y1) := by
  unfold State.writeChnCtrl
  extract_lets +onlyGivenNames u1
  have ku1 : Keeps lk False s0 u1 := by
    unfold u1; apply State.wr_keeps; apply State.laneEnable_keeps; apply State.laneEnable_keeps; assumption
  clear_value u1
  refine keeps_ite (fun _ => ?_) (fun _ => ?_)
  · apply State.wrAll_keeps; assumption
  · assumption

theorem State.writeLaneList_keeps (h : Keeps lk st s0 s) (y1 : ℕ) (y2 : ℕ) (y3 : ℕ) :
    Keeps lk st s0 (State.writeLaneList s y1 y2 y3) := by
  unfold State.writeLaneList
  refine keeps_ite (fun _ => ?_) (fun _ => ?_)
  · apply State.wr_keeps; assumption
  · apply State.wr_keeps; assumption

theorem State.markSlot_keeps (h : Keeps lk st s0 s) (y1 : ℕ) (y2 : ℕ) :
    Keeps lk st s0 (State.markSlot s y1 y2) := by
  unfold State.markSlot
  extract_lets +onlyGivenNames u1 u2
  clear_value u1 u2
  refine keeps_ite (fun _ => ?_) (fun _ => ?_)
  · extract_lets +onlyGivenNames u3
    have ku3 : Keeps lk st s0 u3 := by
      unfold u3; apply State.count_keeps; assumption
    clear_value u3
    refine keeps_ite (fun _ => ?_) (fun _ => ?_)
    · apply State.setSlot_keeps; assumption
    · apply State.setSlot_keeps; assumption
  · apply State.setSlot_keeps; assumption

theorem State.chnDone_keeps (h : Keeps lk st s0 s) (y1 : ℕ) :
    Keeps lk st s0 (State.chnDone s y1) := by
  unfold State.chnDone
  split
  · assumption
  · refine keeps_ite (fun _ => ?_) (fun _ => ?_)
    · assumption
    · extract_lets +onlyGivenNames u3
      have ku3 : Keeps lk st s0 u3 := by
        unfold u3; refine keeps_mk ?_ rfl; assumption
      clear_value u3
      apply State.setCtx_keeps; assumption

theorem State.chnTell_keeps (h : Keeps lk st s0 s) (y1 : List ℕ) (y2 : Bool) (y3 : Bool) :
    Keeps lk st s0 (State.chnTell s y1 y2 y3) := by
  unfold State.chnTell
  extract_lets +onlyGivenNames u1
  have ku1 : Keeps lk st s0 u1 := by
    unfold u1; refine keeps_mk ?_ rfl; assumption
  clear_value u1
  refine keeps_foldl _ _ (fun _ _ _ => ?_) ?_
  · apply State.chnDone_keeps; assumption
  · assumption

theorem State.chnRun_keeps (h : Keeps lk st s0 s) (y1 : ℕ) (y2 : ℕ) :
    Keeps lk st s0 (State.chnRun s y1 y2) := by
  unfold State.chnRun
  extract_lets +onlyGivenNames u1 u2
  clear_value u1 u2
  refine keeps_ite (fun _ => ?_) (fun _ => ?_)
  · assumption
  · extract_lets +onlyGivenNames u4
    clear_value u4
    refine keeps_ite (fun _ => ?_) (fun _ => ?_)
    · apply State.setCtx_keeps; assumption
    · apply State.chnDone_keeps; refine keeps_foldl _ _ (fun _ _ _ => ?_) ?_
      · apply State.markSlot_keeps; assumption
      · refine keeps_mk ?_ rfl; assumption

theorem State.mailbox_keeps (h : Keeps lk False s0 s) (y1 : ℕ) (y2 : ℕ) :
    Keeps lk False s0 (State.mailbox s y1 y2).1 := by
  unfold State.mailbox
  extract_lets +onlyGivenNames u1 u2 u3
  clear_value u1
  have ku2 : Keeps lk False s0 u2.1 := by
    unfold u2; apply State.readMem_keeps; assumption
  clear_value u2 u3
  refine keeps_ite1 (fun _ => ?_) (fun _ => ?_)
  · dsimp only; apply State.drawn_keeps; assumption
  · extract_lets +onlyGivenNames u2 u3
    clear_value u2 u3
    refine keeps_ite1 (fun _ => ?_) (fun _ => ?_)
    · dsimp only; apply State.writeMem_keeps; assumption
    · dsimp only; apply State.count_keeps; assumption

theorem State.chnInput_keeps (h : Keeps lk False s0 s) (y1 : ℕ) (y2 : ℕ) :
    Keeps lk False s0 (State.chnInput s y1 y2).1 := by
  unfold State.chnInput
  extract_lets +onlyGivenNames u1
  clear_value u1
  split
  · extract_lets +onlyGivenNames u1
    have ku1 : Keeps lk False s0 u1.1 := by
      unfold u1; apply State.readMem_keeps; assumption
    clear_value u1
    refine keeps_ite1 (fun _ => ?_) (fun _ => ?_)
    · dsimp only; apply State.drawn_keeps; assumption
    · dsimp only; assumption
  · dsimp only; assumption
  · extract_lets +onlyGivenNames u16
    clear_value u16
    dsimp only; assumption
  · dsimp only; assumption
  · apply State.mailbox_keeps; assumption
  · dsimp only; assumption
  · dsimp only; assumption

theorem State.readCell_keeps (h : Keeps lk st s0 s) (y1 : ℕ) :
    Keeps lk st s0 (State.readCell s y1).1 := by
  unfold State.readCell
  extract_lets +onlyGivenNames u1
  have ku1 : Keeps lk st s0 u1.1 := by
    unfold u1; apply State.readMem_keeps; assumption
  clear_value u1
  dsimp only; assumption

theorem State.latchMember_keeps (h : Keeps lk st s0 s) (y1 : ℕ) (y2 : ℕ × ℕ) :
    Keeps lk st s0 (State.latchMember s y1 y2).1 := by
  unfold State.latchMember
  extract_lets +onlyGivenNames u1 u2 u3 u4
  have ku1 : Keeps lk st s0 u1.1 := by
    unfold u1; apply State.readMem_keeps; assumption
  clear_value u1 u2 u3 u4
  dsimp only; assumption

theorem State.latchMembers_keeps (h : Keeps lk st s0 s) (y1 : ℕ) (y2 : List (ℕ × ℕ)) :
    Keeps lk st s0 (State.latchMembers s y1 y2).1 := by
  induction y2 generalizing s y1 with
  | nil =>
    rw [State.latchMembers]
    dsimp only; assumption
  | cons a l ih =>
    obtain ⟨a1, a2⟩ := a
    rw [State.latchMembers]
    dsimp only; apply ih; apply State.latchMember_keeps; assumption

theorem State.latchSlot_keeps (h : Keeps lk False s0 s) (y1 : ℕ) :
    Keeps lk False s0 (State.latchSlot s y1).1 := by
  unfold State.latchSlot
  extract_lets +onlyGivenNames u1 u2
  have ku1 : Keeps lk False s0 u1.1 := by
    unfold u1; apply State.readMem_keeps; assumption
  clear_value u1 u2
  refine keeps_ite1 (fun _ => ?_) (fun _ => ?_)
  · dsimp only; assumption
  · refine keeps_ite1 (fun _ => ?_) (fun _ => ?_)
    · extract_lets +onlyGivenNames u2
      have ku2 : Keeps lk False s0 u2.1 := by
        unfold u2; apply State.latchMembers_keeps; assumption
      clear_value u2
      dsimp only; assumption
    · extract_lets +onlyGivenNames u3 u4 u5 u6 u7 u8 u9 u10 u11 u12
      have ku3 : Keeps lk False s0 u3.1 := by
        unfold u3; apply State.chnInput_keeps; assumption
      clear_value u3
      have ku4 : Keeps lk False s0 u4.1 := by
        unfold u4; apply State.chnInput_keeps; assumption
      clear_value u4
      have ku5 : Keeps lk False s0 u5.1 := by
        unfold u5; apply State.chnInput_keeps; assumption
      clear_value u5
      have ku6 : Keeps lk False s0 u6 := by
        unfold u6; assumption
      clear_value u6 u7 u8
      have ku9 : Keeps lk False s0 u9.1 := by
        unfold u9; refine keeps_ite1 (fun _ => ?_) (fun _ => ?_)
        · apply State.readCell_keeps; assumption
        · dsimp only; assumption
      clear_value u9
      have ku10 : Keeps lk False s0 u10.1 := by
        unfold u10; refine keeps_ite1 (fun _ => ?_) (fun _ => ?_)
        · apply State.readCell_keeps; assumption
        · dsimp only; assumption
      clear_value u10 u11 u12
      dsimp only; assumption

theorem State.setLane_keeps (h : Keeps lk st s0 s) (y1 : ℕ) (y2 : Option ℕ) :
    Keeps lk st s0 (State.setLane s y1 y2) := by
  unfold State.setLane
  refine keeps_mk ?_ rfl; assumption

theorem State.passOver_keeps (h : Keeps lk st s0 s) (y1 : ℕ) (y2 : Bool) :
    Keeps lk st s0 (State.passOver s y1 y2) := by
  unfold State.passOver
  extract_lets +onlyGivenNames u1
  clear_value u1
  refine keeps_ite (fun _ => ?_) (fun _ => ?_)
  · apply State.setSlot_keeps; assumption
  · extract_lets +onlyGivenNames u2
    clear_value u2
    apply State.chnTell_keeps; apply State.setSlot_keeps; assumption

theorem State.slotStart_keeps (h : Keeps lk False s0 s) (y1 : ℕ) :
    Keeps lk False s0 (State.slotStart s y1) := by
  unfold State.slotStart
  refine keeps_ite (fun _ => ?_) (fun _ => ?_)
  · assumption
  · split
    · assumption
    · extract_lets +onlyGivenNames u13 u14 u15
      have ku13 : Keeps lk False s0 u13 := by
        unfold u13; apply State.slotMod_keeps; assumption
      clear_value u13 u14 u15
      refine keeps_ite (fun _ => ?_) (fun _ => ?_)
      · refine keeps_ite (fun _ => ?_) (fun _ => ?_)
        · apply State.setLane_keeps; apply State.setSlot_keeps; assumption
        · refine keeps_ite (fun _ => ?_) (fun _ => ?_)
          · apply State.passOver_keeps; assumption
          · apply State.setSlot_keeps; assumption
      · refine keeps_ite (fun _ => ?_) (fun _ => ?_)
        · apply State.passOver_keeps; assumption
        · refine keeps_ite (fun _ => ?_) (fun _ => ?_)
          · apply State.passOver_keeps; assumption
          · extract_lets +onlyGivenNames u21
            clear_value u21
            refine keeps_ite (fun _ => ?_) (fun _ => ?_)
            · apply State.passOver_keeps; apply State.setSlot_keeps; assumption
            · extract_lets +onlyGivenNames u22 u23 u24 u25
              have ku22 : Keeps lk False s0 u22 := by
                unfold u22; apply State.applyOldest_keeps; assumption
              clear_value u22
              have ku23 : Keeps lk False s0 u23.1 := by
                unfold u23; apply State.latchSlot_keeps; assumption
              clear_value u23
              have ku24 : Keeps lk False s0 u24 := by
                unfold u24; apply State.setLane_keeps; apply State.slotMod_keeps; assumption
              clear_value u24
              have ku25 : Keeps lk False s0 u25 := by
                unfold u25; apply State.wrAll_keeps; assumption
              clear_value u25
              refine keeps_ite (fun _ => ?_) (fun _ => ?_)
              · apply State.slotFault_keeps; assumption
              · assumption

theorem State.captureOne_keeps (h : Keeps lk st s0 s) (y1 : ℕ) (y2 : ℕ) (y3 : ℕ) (y4 : ℕ) (y5 : ChnLatch) (y6 : List ℕ) :
    Keeps lk st s0 (State.captureOne s y1 y2 y3 y4 y5 y6) := by
  unfold State.captureOne
  extract_lets +onlyGivenNames u1
  clear_value u1
  refine keeps_ite (fun _ => ?_) (fun _ => ?_)
  · assumption
  · refine keeps_ite (fun _ => ?_) (fun _ => ?_)
    · apply State.setCap_keeps; assumption
    · extract_lets +onlyGivenNames u19 u20
      clear_value u19 u20
      refine keeps_ite (fun _ => ?_) (fun _ => ?_)
      · apply State.wr_keeps; apply State.count_keeps; apply State.setCap_keeps; assumption
      · extract_lets +onlyGivenNames u26 u27 u28 u29 u30 u31 u32 u33 u34
        clear_value u26 u27 u28 u29 u30 u31 u32 u33
        have ku34 : Keeps lk st s0 u34 := by
          unfold u34; apply State.setCap_keeps; assumption
        clear_value u34
        apply State.wr_keeps; refine keeps_ite (fun _ => ?_) (fun _ => ?_)
        · assumption
        · apply State.drawn_keeps; assumption

theorem State.captures_keeps (h : Keeps lk st s0 s) (y1 : ℕ) (y2 : ℕ) (y3 : ℕ) (y4 : ChnLatch) (y5 : List ℕ) :
    Keeps lk st s0 (State.captures s y1 y2 y3 y4 y5) := by
  unfold State.captures
  refine keeps_foldl _ _ (fun _ _ _ => ?_) ?_
  · apply State.captureOne_keeps; assumption
  · assumption

theorem State.putOut_keeps (h : Keeps lk False s0 s) (y1 : ℕ) (y2 : ℕ) (y3 : ℕ) (y4 : ℕ) :
    Keeps lk False s0 (State.putOut s y1 y2 y3 y4) := by
  unfold State.putOut
  apply State.putRec_keeps; assumption

theorem State.publishLaw_keeps (h : Keeps lk False s0 s) (y1 : ℕ) (y2 : ChnLatch) :
    Keeps lk False s0 (State.publishLaw s y1 y2).1 := by
  unfold State.publishLaw
  extract_lets +onlyGivenNames u1 u2 u3 u4 u5 u6 u7 u8 u9 u10 u11 u12 u13 u14 u15 u16 u17 u18
  clear_value u1 u2 u3 u4 u5 u6 u7 u8 u9 u10 u11 u12
  have ku13 : Keeps lk False s0 u13 := by
    unfold u13; apply State.putRec_keeps; assumption
  clear_value u13
  have ku14 : Keeps lk False s0 u14 := by
    unfold u14; refine keeps_ite (fun _ => ?_) (fun _ => ?_)
    · apply State.writeMem_keeps; assumption
    · assumption
  clear_value u14
  have ku15 : Keeps lk False s0 u15 := by
    unfold u15; refine keeps_ite (fun _ => ?_) (fun _ => ?_)
    · apply State.putRec_keeps; assumption
    · assumption
  clear_value u15
  have ku16 : Keeps lk False s0 u16 := by
    unfold u16; refine keeps_ite (fun _ => ?_) (fun _ => ?_)
    · apply State.putRec_keeps; assumption
    · assumption
  clear_value u16
  have ku17 : Keeps lk False s0 u17 := by
    unfold u17; apply State.slotMod_keeps; apply State.putOut_keeps; assumption
  clear_value u17
  have ku18 : Keeps lk False s0 u18 := by
    unfold u18; apply State.axisPublished_keeps; apply State.captures_keeps; assumption
  clear_value u18
  dsimp only; assumption

theorem State.trackOne_keeps (h : Keeps lk False s0 s) (y1 : ℕ) (y2 : ℕ) :
    Keeps lk False s0 (State.trackOne s y1 y2) := by
  unfold State.trackOne
  extract_lets +onlyGivenNames u1 u2
  have ku1 : Keeps lk False s0 u1.1 := by
    unfold u1; apply State.readMem_keeps; assumption
  clear_value u1 u2
  refine keeps_ite (fun _ => ?_) (fun _ => ?_)
  · assumption
  · extract_lets +onlyGivenNames u3
    clear_value u3
    apply State.slotMod_keeps; apply State.putRec_keeps; assumption

theorem State.publishGroup_keeps (h : Keeps lk False s0 s) (y1 : ℕ) (y2 : ChnLatch) :
    Keeps lk False s0 (State.publishGroup s y1 y2).1 := by
  unfold State.publishGroup
  extract_lets +onlyGivenNames u1 u2 u3 u4 u5
  clear_value u1 u2 u3 u4
  have ku5 : Keeps lk False s0 u5 := by
    unfold u5; apply State.putRec_keeps; apply State.putRec_keeps; apply State.slotMod_keeps; assumption
  clear_value u5
  split
  · extract_lets +onlyGivenNames u1 u2
    clear_value u1 u2
    dsimp only; apply State.axisPublished_keeps; apply State.captures_keeps; apply State.putOut_keeps
    assumption
  · extract_lets +onlyGivenNames u4 u5 u6 u7 u8 u9 u10
    clear_value u4 u5 u6 u7
    have ku8 : Keeps lk False s0 u8 := by
      unfold u8; apply State.putRec_keeps; apply State.putRec_keeps; assumption
    clear_value u8 u9
    have ku10 : Keeps lk False s0 u10 := by
      unfold u10; refine keeps_foldl _ _ (fun _ _ _ => ?_) ?_
      · apply State.trackOne_keeps; assumption
      · apply State.putOut_keeps; assumption
    clear_value u10
    dsimp only; apply State.axisPublished_keeps; apply State.captures_keeps; assumption

theorem State.dualMismatch_keeps (h : Keeps lk False s0 s) (y1 : ℕ) (y2 : ChnLatch) :
    Keeps lk False s0 (State.dualMismatch s y1 y2) := by
  unfold State.dualMismatch
  extract_lets +onlyGivenNames u1 u2
  have ku1 : Keeps lk False s0 u1 := by
    unfold u1; apply State.wr_keeps; assumption
  clear_value u1
  have ku2 : Keeps lk False s0 u2 := by
    unfold u2; refine keeps_ite (fun _ => ?_) (fun _ => ?_)
    · assumption
    · apply State.wrAll_keeps; assumption
  clear_value u2
  apply State.slotFault_keeps; assumption

theorem State.slotPublish_keeps (h : Keeps lk False s0 s) (y1 : ℕ) (y2 : Bool) :
    Keeps lk False s0 (State.slotPublish s y1 y2) := by
  unfold State.slotPublish
  split
  · assumption
  · extract_lets +onlyGivenNames u1 u2
    have ku1 : Keeps lk False s0 u1 := by
      unfold u1; apply State.slotMod_keeps; apply State.setLane_keeps; assumption
    clear_value u1 u2
    refine keeps_ite (fun _ => ?_) (fun _ => ?_)
    · assumption
    · extract_lets +onlyGivenNames u3
      have ku3 : Keeps lk False s0 u3 := by
        unfold u3; apply State.setSlot_keeps; assumption
      clear_value u3
      split
      · apply State.chnTell_keeps; assumption
      · refine keeps_ite (fun _ => ?_) (fun _ => ?_)
        · apply State.chnTell_keeps; assumption
        · refine keeps_ite (fun _ => ?_) (fun _ => ?_)
          · apply State.chnTell_keeps; assumption
          · refine keeps_ite (fun _ => ?_) (fun _ => ?_)
            · apply State.chnTell_keeps; apply State.dualMismatch_keeps; assumption
            · extract_lets +onlyGivenNames u4 u5
              have ku4 : Keeps lk False s0 u4.1 := by
                unfold u4; refine keeps_ite1 (fun _ => ?_) (fun _ => ?_)
                · apply State.publishGroup_keeps; assumption
                · apply State.publishLaw_keeps; assumption
              clear_value u4
              have ku5 : Keeps lk False s0 u5 := by
                unfold u5; apply State.injShow_keeps; refine keeps_foldl _ _ (fun _ _ _ => ?_) ?_
                · apply State.injStep_keeps; assumption
                · assumption
              clear_value u5
              apply State.chnTell_keeps; assumption

theorem State.setSp_keeps (h : Keeps lk st s0 s) (y1 : ℕ) (y2 : SpSt) :
    Keeps lk st s0 (State.setSp s y1 y2) := by
  unfold State.setSp
  refine keeps_mk ?_ (by simp [shape_modAt]); assumption

theorem State.writeSpCfg_keeps (h : Keeps lk st s0 s) (y1 : ℕ) (y2 : ℕ) :
    Keeps lk st s0 (State.writeSpCfg s y1 y2) := by
  unfold State.writeSpCfg
  extract_lets +onlyGivenNames u1 u2 u3
  clear_value u1
  have ku2 : Keeps lk st s0 u2 := by
    unfold u2; refine keeps_ite (fun _ => ?_) (fun _ => ?_)
    · apply State.wrAll_keeps; assumption
    · assumption
  clear_value u2
  have ku3 : Keeps lk st s0 u3 := by
    unfold u3; apply State.wrAll_keeps; assumption
  clear_value u3
  refine keeps_ite (fun _ => ?_) (fun _ => ?_)
  · apply State.wrAll_keeps; apply State.wr_keeps; apply State.wr_keeps; assumption
  · refine keeps_ite (fun _ => ?_) (fun _ => ?_)
    · assumption
    · extract_lets +onlyGivenNames u1 u2
      clear_value u1 u2
      refine keeps_ite (fun _ => ?_) (fun _ => ?_)
      · apply State.wr_keeps; assumption
      · extract_lets +onlyGivenNames u2
        clear_value u2
        apply State.setSp_keeps; apply State.wrAll_keeps; assumption

theorem State.writeSpHost_keeps (h : Keeps lk st s0 s) (y1 : ℕ) (y2 : ℕ) :
    Keeps lk st s0 (State.writeSpHost s y1 y2) := by
  unfold State.writeSpHost
  refine keeps_ite (fun _ => ?_) (fun _ => ?_)
  · apply State.count_keeps; assumption
  · apply State.setSp_keeps; assumption

theorem State.spUpdate_keeps (h : Keeps lk st s0 s) (y1 : ℕ) :
    Keeps lk st s0 (State.spUpdate s y1) := by
  unfold State.spUpdate
  refine keeps_ite (fun _ => ?_) (fun _ => ?_)
  · assumption
  · extract_lets +onlyGivenNames u3 u4
    clear_value u3 u4
    apply State.wrAll_keeps; apply State.setSp_keeps; assumption

theorem State.capStart_keeps (h : Keeps lk st s0 s) (y1 : ℕ) (y2 : ℕ) :
    Keeps lk st s0 (State.capStart s y1 y2) := by
  unfold State.capStart
  extract_lets +onlyGivenNames u1
  clear_value u1
  refine keeps_ite (fun _ => ?_) (fun _ => ?_)
  · apply State.wr_keeps; assumption
  · apply State.wrAll_keeps; apply State.setCap_keeps; assumption

theorem State.writeCapCfg_keeps (h : Keeps lk st s0 s) (y1 : ℕ) (y2 : ℕ) :
    Keeps lk st s0 (State.writeCapCfg s y1 y2) := by
  unfold State.writeCapCfg
  extract_lets +onlyGivenNames u1 u2
  clear_value u1
  have ku2 : Keeps lk st s0 u2 := by
    unfold u2; refine keeps_ite (fun _ => ?_) (fun _ => ?_)
    · apply State.wrAll_keeps; assumption
    · assumption
  clear_value u2
  refine keeps_ite (fun _ => ?_) (fun _ => ?_)
  · apply State.wrAll_keeps; assumption
  · refine keeps_ite (fun _ => ?_) (fun _ => ?_)
    · assumption
    · apply State.capStart_keeps; assumption

theorem State.capComplete_keeps (h : Keeps lk False s0 s) (y1 : ℕ) :
    Keeps lk False s0 (State.capComplete s y1) := by
  unfold State.capComplete
  extract_lets +onlyGivenNames u1
  clear_value u1
  split
  · assumption
  · extract_lets +onlyGivenNames u2
    have ku2 : Keeps lk False s0 u2.1 := by
      unfold u2; apply State.localWrite_keeps; assumption
    clear_value u2
    refine keeps_ite (fun _ => ?_) (fun _ => ?_)
    · apply State.wrAll_keeps; apply State.setCap_keeps; assumption
    · extract_lets +onlyGivenNames u3 u4 u5
      clear_value u3 u4
      have ku5 : Keeps lk False s0 u5 := by
        unfold u5; apply State.setCap_keeps; assumption
      clear_value u5
      refine keeps_ite (fun _ => ?_) (fun _ => ?_)
      · apply State.token_keeps; assumption
      · assumption

end Sys2Proof.Machine
end

