-- ==== Sys2Proof/Laws/Keeps/AxisCore.lean ====
section
/-! SUPPORT. What the operations of Machine/AxisCore.lean keep. -/

set_option linter.all false

namespace Sys2Proof.Machine

variable {lk st : Prop} {s0 s t : State}

theorem State.srefSource_keeps (h : Keeps lk False s0 s) (y1 : ℕ) :
    Keeps lk False s0 (State.srefSource s y1).1 := by
  unfold State.srefSource
  extract_lets +onlyGivenNames u1
  clear_value u1
  refine keeps_ite1 (fun _ => ?_) (fun _ => ?_)
  · dsimp only; assumption
  · extract_lets +onlyGivenNames u2
    have ku2 : Keeps lk False s0 u2.1 := by
      unfold u2; apply State.chnInput_keeps; assumption
    clear_value u2
    dsimp only; assumption

theorem State.fbLost_keeps (h : Keeps lk st s0 s) (y1 : ℕ) (y2 : ℤ) :
    Keeps lk st s0 (State.fbLost s y1 y2).1 := by
  unfold State.fbLost
  extract_lets +onlyGivenNames u1 u2 u3 u4 u5 u6 u7 u8 u9
  clear_value u1 u2 u3 u4 u5 u6 u7 u8 u9
  dsimp only; apply State.setAxis_keeps; assumption

theorem State.fbMove_keeps (h : Keeps lk st s0 s) (y1 : ℕ) (y2 : Bool) :
    Keeps lk st s0 (State.fbMove s y1 y2) := by
  unfold State.fbMove
  extract_lets +onlyGivenNames u1
  clear_value u1
  refine keeps_ite (fun _ => ?_) (fun _ => ?_)
  · refine keeps_ite (fun _ => ?_) (fun _ => ?_)
    · assumption
    · refine keeps_ite (fun _ => ?_) (fun _ => ?_)
      · apply State.wr_keeps; apply State.axTo_keeps; apply State.wr_keeps; assumption
      · apply State.axInvalid_keeps; assumption
  · refine keeps_ite (fun _ => ?_) (fun _ => ?_)
    · extract_lets +onlyGivenNames u8 u9
      clear_value u8
      have ku9 : Keeps lk st s0 u9 := by
        unfold u9; apply State.axMod_keeps; assumption
      clear_value u9
      refine keeps_ite (fun _ => ?_) (fun _ => ?_)
      · apply State.axTo_keeps; assumption
      · assumption
    · assumption

theorem State.decide__keeps (h : Keeps lk False s0 s) (y1 : ℕ) (y2 : ℤ) (y3 : ℤ) :
    Keeps lk False s0 (State.decide_ s y1 y2 y3).1 := by
  unfold State.decide_
  extract_lets +onlyGivenNames u1 u2 u3
  clear_value u1 u2 u3
  refine keeps_ite1 (fun _ => ?_) (fun _ => ?_)
  · dsimp only; assumption
  · extract_lets +onlyGivenNames u10 u11 u12
    have ku10 : Keeps lk False s0 u10 := by
      unfold u10; refine keeps_foldl _ _ (fun _ _ _ => ?_) ?_
      · apply State.enqPreset_keeps; assumption
      · assumption
    clear_value u10
    have ku11 : Keeps lk False s0 u11 := by
      unfold u11; apply State.axMod_keeps; assumption
    clear_value u11
    have ku12 : Keeps lk False s0 u12 := by
      unfold u12; apply State.wr_keeps; assumption
    clear_value u12
    dsimp only; apply State.axTo_keeps; refine keeps_ite (fun _ => ?_) (fun _ => ?_)
    · assumption
    · apply State.wr_keeps; assumption

theorem State.refStage_keeps (h : Keeps lk st s0 s) (y1 : ℕ) (y2 : ℤ) (y3 : ℤ) (y4 : Bool) :
    Keeps lk st s0 (State.refStage s y1 y2 y3 y4) := by
  unfold State.refStage
  extract_lets +onlyGivenNames u1 u2 u3 u4 u5 u6 u7
  clear_value u1 u2 u3 u4 u5 u6 u7
  extract_lets +onlyGivenNames u13 u14
  clear_value u13 u14
  apply State.wrAll_keeps; assumption

theorem State.brakeStage_keeps (h : Keeps lk st s0 s) (y1 : ℕ) (y2 : ℤ) (y3 : ℤ) (y4 : Bool) :
    Keeps lk st s0 (State.brakeStage s y1 y2 y3 y4) := by
  unfold State.brakeStage
  extract_lets +onlyGivenNames u1 u2 u3
  clear_value u1 u2 u3
  refine keeps_ite (fun _ => ?_) (fun _ => ?_)
  · refine keeps_ite (fun _ => ?_) (fun _ => ?_)
    · assumption
    · extract_lets +onlyGivenNames u18 u19
      clear_value u18
      have ku19 : Keeps lk st s0 u19 := by
        unfold u19; apply State.axMod_keeps; assumption
      clear_value u19
      refine keeps_ite (fun _ => ?_) (fun _ => ?_)
      · apply State.setHbrk_keeps; apply State.wr_keeps; assumption
      · assumption
  · refine keeps_ite (fun _ => ?_) (fun _ => ?_)
    · extract_lets +onlyGivenNames u7
      have ku7 : Keeps lk st s0 u7 := by
        unfold u7; refine keeps_ite (fun _ => ?_) (fun _ => ?_)
        · apply State.setHbrk_keeps; assumption
        · assumption
      clear_value u7
      refine keeps_ite (fun _ => ?_) (fun _ => ?_)
      · apply State.standstill_keeps; apply State.axMod_keeps; assumption
      · assumption
    · assumption

theorem State.probeEstimates_keeps (h : Keeps lk st s0 s) (y1 : ℕ) :
    Keeps lk st s0 (State.probeEstimates s y1) := by
  unfold State.probeEstimates
  refine keeps_foldl _ _ (fun _ _ _ => ?_) ?_
  · extract_lets +onlyGivenNames u1
    clear_value u1
    refine keeps_ite (fun _ => ?_) (fun _ => ?_)
    · assumption
    · extract_lets +onlyGivenNames u10
      clear_value u10
      refine keeps_ite (fun _ => ?_) (fun _ => ?_)
      · extract_lets +onlyGivenNames u17
        clear_value u17
        apply State.setAxis_keeps; assumption
      · apply State.setAxis_keeps; assumption
  · assumption

theorem State.storeFrame_keeps (h : Keeps lk st s0 s) (y1 : ℕ) (y2 : List ℕ) (y3 : ℕ) (y4 : ℤ) (y5 : ℤ) (y6 : ℤ) (y7 : ℕ) (y8 : Bool) :
    Keeps lk st s0 (State.storeFrame s y1 y2 y3 y4 y5 y6 y7 y8) := by
  unfold State.storeFrame
  extract_lets +onlyGivenNames u1 u2 u3 u4 u5 u6 u7 u8 u9
  clear_value u1 u2 u3 u4 u5 u6 u7
  have ku8 : Keeps lk st s0 u8 := by
    unfold u8; apply State.wrAll_keeps; assumption
  clear_value u8
  have ku9 : Keeps lk st s0 u9 := by
    unfold u9; apply State.setAxis_keeps; assumption
  clear_value u9
  refine keeps_foldl _ _ (fun _ _ _ => ?_) ?_
  · refine keeps_ite (fun _ => ?_) (fun _ => ?_)
    · apply State.token_keeps; assumption
    · assumption
  · assumption

theorem State.frameStage_keeps (h : Keeps lk False s0 s) (y1 : ℕ) :
    Keeps lk False s0 (State.frameStage s y1) := by
  unfold State.frameStage
  extract_lets +onlyGivenNames u1 u2 u3 u4 u5 u6 u7 u8 u9 u10 u11 u12 u13 u14 u15 u16
  clear_value u1 u2 u3 u4 u5 u6 u7
  have ku8 : Keeps lk False s0 u8 := by
    unfold u8; refine keeps_ite (fun _ => ?_) (fun _ => ?_)
    · apply State.axInvalid_keeps; assumption
    · assumption
  clear_value u8 u9
  have ku10 : Keeps lk False s0 u10.1 := by
    unfold u10; apply State.fbLost_keeps; assumption
  clear_value u10
  have ku11 : Keeps lk False s0 u11 := by
    unfold u11; apply State.fbMove_keeps; assumption
  clear_value u11 u12
  have ku13 : Keeps lk False s0 u13.1 := by
    unfold u13; apply State.srefSource_keeps; assumption
  clear_value u13
  have ku14 : Keeps lk False s0 u14.1 := by
    unfold u14; refine keeps_ite1 (fun _ => ?_) (fun _ => ?_)
    · split
      · apply State.decide__keeps; assumption
      · dsimp only; assumption
    · dsimp only; assumption
  clear_value u14
  have ku15 : Keeps lk False s0 u15 := by
    unfold u15; apply State.refStage_keeps; assumption
  clear_value u15
  have ku16 : Keeps lk False s0 u16 := by
    unfold u16; apply State.brakeStage_keeps; assumption
  clear_value u16
  apply State.storeFrame_keeps; assumption

theorem State.sampleAt_keeps (h : Keeps lk False s0 s) (y1 : ℕ) (y2 : Bool) :
    Keeps lk False s0 (State.sampleAt s y1 y2) := by
  unfold State.sampleAt
  extract_lets +onlyGivenNames u1 u2 u3 u4 u5 u6
  clear_value u1 u2 u3
  have ku4 : Keeps lk False s0 u4 := by
    unfold u4; apply State.axMod_keeps; assumption
  clear_value u4
  have ku5 : Keeps lk False s0 u5 := by
    unfold u5; refine keeps_mk ?_ (by simp [shape_modAt]); assumption
  clear_value u5
  have ku6 : Keeps lk False s0 u6 := by
    unfold u6; apply State.reedSample_keeps; assumption
  clear_value u6
  refine keeps_ite (fun _ => ?_) (fun _ => ?_)
  · apply State.frameStage_keeps; assumption
  · assumption

theorem State.samplingPoint_keeps (h : Keeps lk False s0 s) (y1 : ℕ) :
    Keeps lk False s0 (State.samplingPoint s y1) := by
  unfold State.samplingPoint
  refine keeps_ite (fun _ => ?_) (fun _ => ?_)
  · apply State.sampleAt_keeps; assumption
  · assumption

theorem State.vbusWord_keeps (h : Keeps lk st s0 s) (y1 : ℕ) (y2 : ℕ) :
    Keeps lk st s0 (State.vbusWord s y1 y2) := by
  unfold State.vbusWord
  extract_lets +onlyGivenNames u1
  have ku1 : Keeps lk st s0 u1 := by
    unfold u1; refine keeps_ite (fun _ => ?_) (fun _ => ?_)
    · apply State.axInvalid_keeps; assumption
    · assumption
  clear_value u1
  apply State.bchEval_keeps; assumption

theorem State.sdWord_keeps (h : Keeps lk False s0 s) (y1 : ℕ) (y2 : List Bool) :
    Keeps lk False s0 (State.sdWord s y1 y2) := by
  unfold State.sdWord
  extract_lets +onlyGivenNames u1
  clear_value u1
  refine keeps_ite (fun _ => ?_) (fun _ => ?_)
  · assumption
  · extract_lets +onlyGivenNames u2 u3
    clear_value u2
    have ku3 : Keeps lk False s0 u3 := by
      unfold u3; apply State.setSd_keeps; apply State.wr_keeps; assumption
    clear_value u3
    extract_lets +onlyGivenNames u4
    have ku4 : Keeps lk False s0 u4 := by
      unfold u4; refine keeps_foldl _ _ (fun _ _ _ => ?_) ?_
      · apply State.vbusWord_keeps; assumption
      · assumption
    clear_value u4
    split
    · assumption
    · extract_lets +onlyGivenNames u5 u6
      clear_value u5
      have ku6 : Keeps lk False s0 u6 := by
        unfold u6; apply State.axMod_keeps; assumption
      clear_value u6
      refine keeps_ite (fun _ => ?_) (fun _ => ?_)
      · apply State.frameStage_keeps; assumption
      · assumption

theorem State.probePulse_keeps (h : Keeps lk st s0 s) (y1 : ℕ) :
    Keeps lk st s0 (State.probePulse s y1) := by
  unfold State.probePulse
  extract_lets +onlyGivenNames u1
  clear_value u1
  refine keeps_ite (fun _ => ?_) (fun _ => ?_)
  · apply State.axMod_keeps; apply State.setPat_keeps; assumption
  · assumption

theorem State.probeEnd_keeps (h : Keeps lk False s0 s) (y1 : ℕ) :
    Keeps lk False s0 (State.probeEnd s y1) := by
  unfold State.probeEnd
  extract_lets +onlyGivenNames u1
  clear_value u1
  refine keeps_ite (fun _ => ?_) (fun _ => ?_)
  · apply State.sampleAt_keeps; apply State.axMod_keeps; apply State.setPat_keeps; assumption
  · assumption

end Sys2Proof.Machine
end

