-- ==== Sys2Proof/Laws/Keeps/BellowsCore.lean ====
section
/-! SUPPORT. What the operations of Machine/BellowsCore.lean keep. -/

set_option linter.all false

namespace Sys2Proof.Machine

variable {lk st : Prop} {s0 s t : State}

theorem State.relock_keeps (h : Keeps lk st s0 s) (y1 : ℕ) :
    Keeps lk st s0 (State.relock s y1) := by
  unfold State.relock
  extract_lets +onlyGivenNames u1
  have ku1 : Keeps lk st s0 u1 := by
    unfold u1; apply State.wrAll_keeps; assumption
  clear_value u1
  refine keeps_mk ?_ rfl; assumption

theorem State.startChange_keeps (h : Keeps lk st s0 s) (y1 : ℕ) :
    Keeps lk st s0 (State.startChange s y1) := by
  unfold State.startChange
  extract_lets +onlyGivenNames u1
  clear_value u1
  refine keeps_ite (fun _ => ?_) (fun _ => ?_)
  · assumption
  · refine keeps_ite (fun _ => ?_) (fun _ => ?_)
    · assumption
    · refine keeps_ite (fun _ => ?_) (fun _ => ?_)
      · extract_lets +onlyGivenNames u1
        have ku1 : Keeps lk st s0 u1 := by
          unfold u1; apply State.wr_keeps; assumption
        clear_value u1
        refine keeps_mk ?_ rfl; assumption
      · apply State.relock_keeps; assumption

theorem State.opTarget_keeps (h : Keeps lk st s0 s) (y1 : ℕ) :
    Keeps lk st s0 (State.opTarget s y1) := by
  unfold State.opTarget
  apply State.startChange_keeps; apply State.wr_keeps; assumption

theorem State.writeClkOp_keeps (h : Keeps lk st s0 s) (y1 : ℕ) :
    Keeps lk st s0 (State.writeClkOp s y1) := by
  unfold State.writeClkOp
  apply State.opTarget_keeps; assumption

theorem State.supplySettled_keeps (h : Keeps lk st s0 s) :
    Keeps lk st s0 (State.supplySettled s) := by
  unfold State.supplySettled
  extract_lets +onlyGivenNames u1
  have ku1 : Keeps lk st s0 u1 := by
    unfold u1; refine keeps_mk ?_ rfl; assumption
  refine keeps_ite (fun _ => ?_) (fun _ => ?_)
  · apply State.relock_keeps; assumption
  · assumption

theorem State.tileLock_keeps (h : Keeps lk st s0 s) :
    Keeps lk st s0 (State.tileLock s) := by
  unfold State.tileLock
  refine keeps_ite (fun _ => ?_) (fun _ => ?_)
  · extract_lets +onlyGivenNames u3
    have ku3 : Keeps lk st s0 u3 := by
      unfold u3; apply State.wr_keeps; assumption
    clear_value u3
    refine keeps_mk ?_ rfl; assumption
  · assumption

theorem State.switchBack_keeps (h : Keeps lk st s0 s) :
    Keeps lk st s0 (State.switchBack s) := by
  unfold State.switchBack
  refine keeps_ite (fun _ => ?_) (fun _ => ?_)
  · extract_lets +onlyGivenNames u4 u5 u6 u7
    clear_value u4
    have ku6 : Keeps lk st s0 u6 := by
      unfold u6; apply State.count_keeps; apply State.wrAll_keeps; assumption
    clear_value u6
    have ku7 : Keeps lk st s0 u7 := by
      unfold u7; refine keeps_mk ?_ rfl; assumption
    clear_value u7
    apply State.startChange_keeps; assumption
  · assumption

theorem State.lockFail_keeps (h : Keeps lk st s0 s) :
    Keeps lk st s0 (State.lockFail s) := by
  unfold State.lockFail
  extract_lets +onlyGivenNames u1 u2
  clear_value u1
  have ku2 : Keeps lk st s0 u2 := by
    unfold u2; apply State.count_keeps; apply State.wrAll_keeps; assumption
  clear_value u2
  refine keeps_mk ?_ rfl; assumption

theorem State.vokFall_keeps (h : Keeps lk st s0 s) :
    Keeps lk st s0 (State.vokFall s) := by
  unfold State.vokFall
  extract_lets +onlyGivenNames u3
  have ku3 : Keeps lk st s0 u3 := by
    unfold u3; refine keeps_mk ?_ rfl; assumption
  clear_value u3
  refine keeps_ite (fun _ => ?_) (fun _ => ?_)
  · assumption
  · apply State.opTarget_keeps; apply State.report_keeps; apply State.wr_keeps; assumption

theorem State.powerTile_keeps (h : Keeps lk False s0 s) (y1 : ℕ) (y2 : Bool) :
    Keeps lk False s0 (State.powerTile s y1 y2) := by
  unfold State.powerTile
  extract_lets +onlyGivenNames u1 u2
  clear_value u1 u2
  refine keeps_ite (fun _ => ?_) (fun _ => ?_)
  · assumption
  · refine keeps_ite (fun _ => ?_) (fun _ => ?_)
    · extract_lets +onlyGivenNames u1
      clear_value u1
      refine keeps_ite (fun _ => ?_) (fun _ => ?_)
      · apply State.wr_keeps; apply State.forgetMem_keeps; apply State.setUnit_keeps; assumption
      · apply State.wr_keeps; assumption
    · apply State.wr_keeps; assumption

theorem State.writePwrDn_keeps (h : Keeps lk False s0 s) (y1 : ℕ) (y2 : ℕ) :
    Keeps lk False s0 (State.writePwrDn s y1 y2) := by
  unfold State.writePwrDn
  refine keeps_foldl _ _ (fun _ _ _ => ?_) ?_
  · apply State.powerTile_keeps; assumption
  · assumption

theorem State.writePwrMisc_keeps (h : Keeps lk st s0 s) (y1 : ℕ) :
    Keeps lk st s0 (State.writePwrMisc s y1) := by
  unfold State.writePwrMisc
  refine keeps_ite (fun _ => ?_) (fun _ => ?_)
  · refine keeps_ite (fun _ => ?_) (fun _ => ?_)
    · assumption
    · refine keeps_ite (fun _ => ?_) (fun _ => ?_)
      · apply State.wrAll_keeps; assumption
      · apply State.wr_keeps; assumption
  · apply State.wr_keeps; assumption

theorem State.powerReturnTile_keeps (h : Keeps lk False s0 s) (y1 : ℕ) :
    Keeps lk False s0 (State.powerReturnTile s y1) := by
  unfold State.powerReturnTile
  refine keeps_ite (fun _ => ?_) (fun _ => ?_)
  · assumption
  · apply State.forgetMem_keeps; apply State.setUnit_keeps; assumption

theorem State.powerReturnRaster_keeps (h : Keeps lk st s0 s) :
    Keeps lk st s0 (State.powerReturnRaster s) := by
  unfold State.powerReturnRaster
  refine keeps_ite (fun _ => ?_) (fun _ => ?_)
  · assumption
  · apply State.wr_keeps; assumption

theorem State.writeMotion_keeps (h : Keeps lk st s0 s) (y1 : Bool) :
    Keeps lk st s0 (State.writeMotion s y1) := by
  unfold State.writeMotion
  refine keeps_ite (fun _ => ?_) (fun _ => ?_)
  · refine keeps_ite (fun _ => ?_) (fun _ => ?_)
    · assumption
    · refine keeps_ite (fun _ => ?_) (fun _ => ?_)
      · extract_lets +onlyGivenNames u3
        have ku3 : Keeps lk st s0 u3 := by
          unfold u3; apply State.wrAll_keeps; assumption
        clear_value u3
        refine keeps_mk ?_ rfl; assumption
      · apply State.wr_keeps; apply State.wr_keeps; assumption
  · extract_lets +onlyGivenNames u6
    have ku6 : Keeps lk st s0 u6 := by
      unfold u6; apply State.wrAll_keeps; assumption
    clear_value u6
    refine keeps_ite (fun _ => ?_) (fun _ => ?_)
    · apply State.startChange_keeps; assumption
    · assumption

theorem State.writeBelCtrl_keeps (h : Keeps lk st s0 s) (y1 : ℕ) :
    Keeps lk st s0 (State.writeBelCtrl s y1) := by
  unfold State.writeBelCtrl
  apply State.writeMotion_keeps; apply State.wrAll_keeps; assumption

theorem State.sample_keeps (h : Keeps lk st s0 s) (y1 : ℕ) (y2 : Option (BitVec 12)) :
    Keeps lk st s0 (State.sample s y1 y2) := by
  unfold State.sample
  split
  · extract_lets +onlyGivenNames u8 u9
    clear_value u8
    have ku9 : Keeps lk st s0 u9 := by
      unfold u9; apply State.wrAll_keeps; assumption
    clear_value u9
    refine keeps_mk ?_ rfl; assumption
  · extract_lets +onlyGivenNames u4 u5
    clear_value u4
    have ku5 : Keeps lk st s0 u5 := by
      unfold u5; refine keeps_ite (fun _ => ?_) (fun _ => ?_)
      · apply State.wr_keeps; assumption
      · assumption
    clear_value u5
    refine keeps_mk ?_ rfl; assumption

theorem State.sampleAll_keeps (h : Keeps lk st s0 s) (y1 : List (Option (BitVec 12))) :
    Keeps lk st s0 (State.sampleAll s y1) := by
  unfold State.sampleAll
  refine keeps_foldl _ _ (fun _ _ _ => ?_) ?_
  · apply State.sample_keeps; assumption
  · assumption

theorem State.heat_keeps (h : Keeps lk st s0 s) (y1 : ℤ) :
    Keeps lk st s0 (State.heat s y1) := by
  unfold State.heat
  extract_lets +onlyGivenNames u1 u2 u3 u4 u5 u6 u7
  clear_value u1 u2 u3
  have ku4 : Keeps lk st s0 u4 := by
    unfold u4; refine keeps_mk ?_ rfl; assumption
  clear_value u4 u5
  have ku6 : Keeps lk st s0 u6 := by
    unfold u6; apply State.flag_keeps; apply State.wr_keeps; assumption
  clear_value u6
  have ku7 : Keeps lk st s0 u7 := by
    unfold u7; apply State.reportIf_keeps; apply State.reportIf_keeps; assumption
  clear_value u7
  refine keeps_ite (fun _ => ?_) (fun _ => ?_)
  · apply State.opTarget_keeps; apply State.wr_keeps; assumption
  · refine keeps_ite (fun _ => ?_) (fun _ => ?_)
    · apply State.wr_keeps; assumption
    · assumption

theorem State.autoOp_keeps (h : Keeps lk st s0 s) (y1 : ℤ) :
    Keeps lk st s0 (State.autoOp s y1) := by
  unfold State.autoOp
  extract_lets +onlyGivenNames u1 u2
  clear_value u1 u2
  refine keeps_ite (fun _ => ?_) (fun _ => ?_)
  · assumption
  · refine keeps_ite (fun _ => ?_) (fun _ => ?_)
    · apply State.opTarget_keeps; assumption
    · refine keeps_ite (fun _ => ?_) (fun _ => ?_)
      · apply State.opTarget_keeps; assumption
      · assumption

theorem State.windowStart_keeps (h : Keeps lk st s0 s) (y1 : List (Option (BitVec 12))) :
    Keeps lk st s0 (State.windowStart s y1) := by
  unfold State.windowStart
  extract_lets +onlyGivenNames u1 u2 u3 u4 u5 u6 u7 u8 u9 u10 u11 u12 u13
  have ku1 : Keeps lk st s0 u1 := by
    unfold u1; apply State.sampleAll_keeps; assumption
  clear_value u1 u2
  have ku3 : Keeps lk st s0 u3 := by
    unfold u3; apply State.heat_keeps; assumption
  clear_value u3 u4 u5 u6 u7 u8 u9 u10
  have ku11 : Keeps lk st s0 u11 := by
    unfold u11; apply State.wrS_keeps; apply State.wrS_keeps; apply State.wrS_keeps; assumption
  clear_value u11
  have ku12 : Keeps lk st s0 u12 := by
    unfold u12; apply State.wrS_keeps; apply State.wr_keeps; assumption
  clear_value u12
  have ku13 : Keeps lk st s0 u13 := by
    unfold u13; apply State.autoOp_keeps; assumption
  clear_value u13
  refine keeps_mk ?_ rfl; assumption

theorem State.charge_keeps (h : Keeps lk st s0 s) (y1 : ℕ) (y2 : ℕ) :
    Keeps lk st s0 (State.charge s y1 y2) := by
  unfold State.charge
  refine keeps_ite (fun _ => ?_) (fun _ => ?_)
  · assumption
  · extract_lets +onlyGivenNames u1
    have ku1 : Keeps lk st s0 u1 := by
      unfold u1; apply State.wrS_keeps; assumption
    clear_value u1
    refine keeps_mk ?_ rfl; assumption

end Sys2Proof.Machine
end

