-- ==== Sys2Proof/Laws/Keeps/HostCore.lean ====
section
/-! SUPPORT. What the operations of Machine/HostCore.lean keep. -/

set_option linter.all false

namespace Sys2Proof.Machine

variable {lk st : Prop} {s0 s t : State}

theorem State.setSq_keeps (h : Keeps lk st s0 s) (y1 : ℕ) (y2 : ℕ) (y3 : SqSt) :
    Keeps lk st s0 (State.setSq s y1 y2 y3) := by
  unfold State.setSq
  refine keeps_mk ?_ rfl; assumption

theorem State.setCq_keeps (h : Keeps lk st s0 s) (y1 : ℕ) (y2 : ℕ) (y3 : CqSt) :
    Keeps lk st s0 (State.setCq s y1 y2 y3) := by
  unfold State.setCq
  refine keeps_mk ?_ rfl; assumption

theorem State.msixSend_keeps (h : Keeps lk st s0 s) (y1 : ℕ) (y2 : ℕ) :
    Keeps lk st s0 (State.msixSend s y1 y2) := by
  unfold State.msixSend
  refine keeps_ite (fun _ => ?_) (fun _ => ?_)
  · refine keeps_mk ?_ rfl; assumption
  · refine keeps_mk ?_ rfl; assumption

theorem State.hqEvent_keeps (h : Keeps lk st s0 s) (y1 : ℕ) :
    Keeps lk st s0 (State.hqEvent s y1) := by
  unfold State.hqEvent
  refine keeps_ite (fun _ => ?_) (fun _ => ?_)
  · apply State.msixSend_keeps; assumption
  · assumption

theorem State.cqMessage_keeps (h : Keeps lk st s0 s) (y1 : ℕ) (y2 : ℕ) :
    Keeps lk st s0 (State.cqMessage s y1 y2) := by
  unfold State.cqMessage
  extract_lets +onlyGivenNames u1 u2
  clear_value u1 u2
  extract_lets +onlyGivenNames u3
  have ku3 : Keeps lk st s0 u3 := by
    unfold u3; apply State.setCq_keeps; assumption
  clear_value u3
  refine keeps_ite (fun _ => ?_) (fun _ => ?_)
  · refine keeps_mk ?_ rfl; assumption
  · apply State.msixSend_keeps; assumption

theorem State.dbIgn_keeps (h : Keeps lk st s0 s) (y1 : ℕ) :
    Keeps lk st s0 (State.dbIgn s y1) := by
  unfold State.dbIgn
  apply State.hqEvent_keeps; apply State.count_keeps; assumption

theorem State.ringWrite_keeps (h : Keeps lk False s0 s) (y1 : Who) (y2 : ℕ) (y3 : ℕ) (y4 : List Byte) :
    Keeps lk False s0 (State.ringWrite s y1 y2 y3 y4).1 := by
  unfold State.ringWrite
  refine keeps_ite1 (fun _ => ?_) (fun _ => ?_)
  · apply State.gmWrites_keeps; assumption
  · refine keeps_ite1 (fun _ => ?_) (fun _ => ?_)
    · dsimp only; assumption
    · apply State.gmWrites_keeps; assumption

theorem State.ringRead_keeps (h : Keeps lk st s0 s) (y1 : Who) (y2 : ℕ) (y3 : ℕ) (y4 : ℕ) :
    Keeps lk st s0 (State.ringRead s y1 y2 y3 y4).1 := by
  unfold State.ringRead
  refine keeps_ite1 (fun _ => ?_) (fun _ => ?_)
  · apply State.gmReads_keeps; assumption
  · refine keeps_ite1 (fun _ => ?_) (fun _ => ?_)
    · dsimp only; assumption
    · apply State.gmReads_keeps; assumption

theorem State.cqWrite_keeps (h : Keeps lk False s0 s) (y1 : ℕ) (y2 : ℕ) (y3 : List Byte) (y4 : Bool) :
    Keeps lk False s0 (State.cqWrite s y1 y2 y3 y4) := by
  unfold State.cqWrite
  extract_lets +onlyGivenNames u1 u2 u3 u4
  clear_value u1 u2 u3 u4
  refine keeps_ite (fun _ => ?_) (fun _ => ?_)
  · apply State.hqEvent_keeps; apply State.count_keeps; assumption
  · extract_lets +onlyGivenNames u5 u6 u7
    have ku5 : Keeps lk False s0 u5 := by
      unfold u5; apply State.ringWrite_keeps; assumption
    clear_value u5 u6
    have ku7 : Keeps lk False s0 u7 := by
      unfold u7; apply State.setCq_keeps; apply State.wr_keeps; assumption
    clear_value u7
    refine keeps_ite (fun _ => ?_) (fun _ => ?_)
    · apply State.cqMessage_keeps; assumption
    · assumption

theorem State.cqEntry_keeps (h : Keeps lk False s0 s) (y1 : ℕ) (y2 : ℕ) (y3 : List Byte) (y4 : Bool) :
    Keeps lk False s0 (State.cqEntry s y1 y2 y3 y4) := by
  unfold State.cqEntry
  refine keeps_ite (fun _ => ?_) (fun _ => ?_)
  · apply State.wr_keeps; apply State.setCq_keeps; assumption
  · apply State.cqWrite_keeps; assumption

theorem State.cqFlush_keeps (h : Keeps lk False s0 s) (y1 : ℕ) (y2 : ℕ) (y3 : List (List Byte × Bool)) :
    Keeps lk False s0 (State.cqFlush s y1 y2 y3) := by
  induction y3 generalizing s y1 y2 with
  | nil =>
    rw [State.cqFlush]
    apply State.setCq_keeps; assumption
  | cons a l ih =>
    obtain ⟨a1, a2⟩ := a
    rw [State.cqFlush]
    refine keeps_ite (fun _ => ?_) (fun _ => ?_)
    · apply State.setCq_keeps; assumption
    · apply ih; apply State.cqWrite_keeps; assumption

theorem State.cqTimer_keeps (h : Keeps lk st s0 s) (y1 : ℕ) (y2 : ℕ) :
    Keeps lk st s0 (State.cqTimer s y1 y2) := by
  unfold State.cqTimer
  extract_lets +onlyGivenNames u1 u2
  clear_value u1 u2
  refine keeps_ite (fun _ => ?_) (fun _ => ?_)
  · apply State.cqMessage_keeps; assumption
  · assumption

theorem State.descStart_keeps (h : Keeps lk st s0 s) (y1 : ℕ) (y2 : ℕ) (y3 : ℕ) (y4 : List Byte) (y5 : Option (Status × ℕ)) :
    Keeps lk st s0 (State.descStart s y1 y2 y3 y4 y5) := by
  unfold State.descStart
  extract_lets +onlyGivenNames u1 u2
  clear_value u1 u2
  apply State.wr_keeps; apply State.setSq_keeps; assumption

theorem State.descEnd_keeps (h : Keeps lk st s0 s) (y1 : ℕ) (y2 : ℕ) (y3 : ℕ) (y4 : Status) (y5 : ℕ) :
    Keeps lk st s0 (State.descEnd s y1 y2 y3 y4 y5) := by
  unfold State.descEnd
  extract_lets +onlyGivenNames u1
  clear_value u1
  apply State.setSq_keeps; assumption

theorem State.sqStopped_keeps (h : Keeps lk st s0 s) (y1 : ℕ) (y2 : ℕ) :
    Keeps lk st s0 (State.sqStopped s y1 y2) := by
  unfold State.sqStopped
  refine keeps_ite (fun _ => ?_) (fun _ => ?_)
  · assumption
  · apply State.hqEvent_keeps; apply State.wr_keeps; apply State.wr_keeps; assumption

theorem State.descFinish_keeps (h : Keeps lk False s0 s) (y1 : ℕ) (y2 : ℕ) (y3 : ℕ) (y4 : List Byte) (y5 : Status) (y6 : ℕ) :
    Keeps lk False s0 (State.descFinish s y1 y2 y3 y4 y5 y6) := by
  unfold State.descFinish
  extract_lets +onlyGivenNames u1 u2 u3
  clear_value u1
  have ku2 : Keeps lk False s0 u2 := by
    unfold u2; refine keeps_ite (fun _ => ?_) (fun _ => ?_)
    · apply State.wr_keeps; assumption
    · assumption
  clear_value u2
  have ku3 : Keeps lk False s0 u3 := by
    unfold u3; refine keeps_ite (fun _ => ?_) (fun _ => ?_)
    · apply State.cqEntry_keeps; assumption
    · assumption
  clear_value u3
  refine keeps_ite (fun _ => ?_) (fun _ => ?_)
  · apply State.sqStopped_keeps; assumption
  · assumption

theorem State.sqDrained_keeps (h : Keeps lk st s0 s) (y1 : ℕ) (y2 : ℕ) :
    Keeps lk st s0 (State.sqDrained s y1 y2) := by
  unfold State.sqDrained
  refine keeps_ite (fun _ => ?_) (fun _ => ?_)
  · extract_lets +onlyGivenNames u1
    have ku1 : Keeps lk st s0 u1 := by
      unfold u1; apply State.wr_keeps; assumption
    clear_value u1
    refine keeps_ite (fun _ => ?_) (fun _ => ?_)
    · refine keeps_foldl _ _ (fun _ _ _ => ?_) ?_
      · apply State.wr_keeps; assumption
      · assumption
    · assumption
  · assumption

theorem State.descComplete_keeps (h : Keeps lk False s0 s) (y1 : ℕ) (y2 : ℕ) (y3 : ℕ) :
    Keeps lk False s0 (State.descComplete s y1 y2 y3) := by
  unfold State.descComplete
  extract_lets +onlyGivenNames u1
  clear_value u1
  split
  · assumption
  · extract_lets +onlyGivenNames u1 u2
    clear_value u1
    have ku2 : Keeps lk False s0 u2 := by
      unfold u2; apply State.wr_keeps; apply State.setSq_keeps; assumption
    clear_value u2
    split
    · apply State.sqDrained_keeps; apply State.descFinish_keeps; assumption
    · assumption

theorem State.dropWaits_keeps (h : Keeps lk False s0 s) (y1 : ℕ) (y2 : ℕ) :
    Keeps lk False s0 (State.dropWaits s y1 y2) := by
  unfold State.dropWaits
  refine keeps_foldl _ _ (fun _ _ _ => ?_) ?_
  · apply State.descComplete_keeps; apply State.descEnd_keeps; assumption
  · assumption

theorem State.dropFetched_keeps (h : Keeps lk False s0 s) (y1 : ℕ) (y2 : ℕ) :
    Keeps lk False s0 (State.dropFetched s y1 y2) := by
  unfold State.dropFetched
  extract_lets +onlyGivenNames u1
  clear_value u1
  refine keeps_foldl _ _ (fun _ _ _ => ?_) ?_
  · apply State.descFinish_keeps; assumption
  · apply State.setSq_keeps; assumption

theorem State.sqEnable_keeps (h : Keeps lk False s0 s) (y1 : ℕ) (y2 : ℕ) (y3 : Bool) :
    Keeps lk False s0 (State.sqEnable s y1 y2 y3) := by
  unfold State.sqEnable
  extract_lets +onlyGivenNames u1
  clear_value u1
  refine keeps_ite (fun _ => ?_) (fun _ => ?_)
  · refine keeps_ite (fun _ => ?_) (fun _ => ?_)
    · assumption
    · extract_lets +onlyGivenNames u1 u2 u3 u4
      clear_value u1 u2 u3 u4
      refine keeps_ite (fun _ => ?_) (fun _ => ?_)
      · apply State.wr_keeps; assumption
      · apply State.setSq_keeps; apply State.wrAll_keeps; assumption
  · refine keeps_ite (fun _ => ?_) (fun _ => ?_)
    · extract_lets +onlyGivenNames u3
      have ku3 : Keeps lk False s0 u3 := by
        unfold u3; apply State.wrAll_keeps; assumption
      clear_value u3
      apply State.sqDrained_keeps; apply State.dropFetched_keeps; apply State.dropWaits_keeps; assumption
    · apply State.wr_keeps; assumption

theorem State.sqStop_keeps (h : Keeps lk False s0 s) (y1 : ℕ) (y2 : ℕ) :
    Keeps lk False s0 (State.sqStop s y1 y2) := by
  unfold State.sqStop
  refine keeps_ite (fun _ => ?_) (fun _ => ?_)
  · apply State.dropWaits_keeps; apply State.sqStopped_keeps; assumption
  · assumption

theorem State.sqResume_keeps (h : Keeps lk st s0 s) (y1 : ℕ) (y2 : ℕ) :
    Keeps lk st s0 (State.sqResume s y1 y2) := by
  unfold State.sqResume
  refine keeps_ite (fun _ => ?_) (fun _ => ?_)
  · apply State.wr_keeps; assumption
  · assumption

theorem State.writeSqCtrl_keeps (h : Keeps lk False s0 s) (y1 : ℕ) (y2 : ℕ) (y3 : ℕ) :
    Keeps lk False s0 (State.writeSqCtrl s y1 y2 y3) := by
  unfold State.writeSqCtrl
  extract_lets +onlyGivenNames u1 u2
  have ku1 : Keeps lk False s0 u1 := by
    unfold u1; refine keeps_ite (fun _ => ?_) (fun _ => ?_)
    · assumption
    · apply State.sqEnable_keeps; assumption
  clear_value u1
  have ku2 : Keeps lk False s0 u2 := by
    unfold u2; refine keeps_ite (fun _ => ?_) (fun _ => ?_)
    · apply State.sqStop_keeps; assumption
    · assumption
  clear_value u2
  refine keeps_ite (fun _ => ?_) (fun _ => ?_)
  · apply State.sqResume_keeps; assumption
  · assumption

theorem State.writeCqCfg_keeps (h : Keeps lk st s0 s) (y1 : ℕ) (y2 : ℕ) (y3 : ℕ) :
    Keeps lk st s0 (State.writeCqCfg s y1 y2 y3) := by
  unfold State.writeCqCfg
  extract_lets +onlyGivenNames u1 u2 u3 u4 u5
  clear_value u1
  have ku2 : Keeps lk st s0 u2 := by
    unfold u2; apply State.wr_keeps; assumption
  clear_value u2
  have ku3 : Keeps lk st s0 u3 := by
    unfold u3; refine keeps_ite (fun _ => ?_) (fun _ => ?_)
    · assumption
    · apply State.wrAll_keeps; assumption
  clear_value u3 u4 u5
  refine keeps_ite (fun _ => ?_) (fun _ => ?_)
  · refine keeps_ite (fun _ => ?_) (fun _ => ?_)
    · apply State.wr_keeps; assumption
    · apply State.setCq_keeps; apply State.wrAll_keeps; assumption
  · refine keeps_ite (fun _ => ?_) (fun _ => ?_)
    · refine keeps_ite (fun _ => ?_) (fun _ => ?_)
      · apply State.wr_keeps; assumption
      · apply State.wr_keeps; assumption
    · assumption

theorem State.descFetch_keeps (h : Keeps lk st s0 s) (y1 : ℕ) (y2 : ℕ) (y3 : ℕ) :
    Keeps lk st s0 (State.descFetch s y1 y2 y3) := by
  induction y3 generalizing s y1 y2 with
  | zero =>
    rw [State.descFetch]
    assumption
  | succ n ih =>
    rw [State.descFetch]
    refine keeps_ite (fun _ => ?_) (fun _ => ?_)
    · assumption
    · extract_lets +onlyGivenNames u2 u3 u4 u5
      clear_value u2 u3
      have ku4 : Keeps lk st s0 u4.1 := by
        unfold u4; apply State.ringRead_keeps; assumption
      clear_value u4
      have ku5 : Keeps lk st s0 u5 := by
        unfold u5; apply State.wr_keeps; assumption
      clear_value u5
      refine keeps_ite (fun _ => ?_) (fun _ => ?_)
      · apply ih; apply State.setSq_keeps; assumption
      · extract_lets +onlyGivenNames u1
        clear_value u1
        apply ih; apply State.wr_keeps; apply State.setSq_keeps; assumption

theorem State.descRun_keeps (h : Keeps lk st s0 s) (y1 : ℕ) (y2 : ℕ) (y3 : ℕ) (y4 : State → ℕ → Desc → State) (hf4 : ∀ s z1 z2, Keeps lk st s0 s → Keeps lk st s0 (y4 s z1 z2)) :
    Keeps lk st s0 (State.descRun s y1 y2 y3 y4) := by
  unfold State.descRun
  split
  · refine keeps_ite (fun _ => ?_) (fun _ => ?_)
    · assumption
    · refine keeps_ite (fun _ => ?_) (fun _ => ?_)
      · apply State.descStart_keeps; assumption
      · apply hf4; apply State.descStart_keeps; assumption
  · extract_lets +onlyGivenNames u1
    clear_value u1
    refine keeps_ite (fun _ => ?_) (fun _ => ?_)
    · apply State.wr_keeps; assumption
    · assumption

theorem State.sqHostWrote_keeps (h : Keeps lk st s0 s) (y1 : ℕ) (y2 : ℕ) (y3 : ℕ) :
    Keeps lk st s0 (State.sqHostWrote s y1 y2 y3) := by
  unfold State.sqHostWrote
  refine keeps_ite (fun _ => ?_) (fun _ => ?_)
  · apply State.setSq_keeps; assumption
  · assumption

theorem State.waitRead_keeps (h : Keeps lk st s0 s) (y1 : ℕ) (y2 : ℕ) (y3 : ℕ) (y4 : Desc) :
    Keeps lk st s0 (State.waitRead s y1 y2 y3 y4) := by
  unfold State.waitRead
  extract_lets +onlyGivenNames u1 u2
  have ku1 : Keeps lk st s0 u1.1 := by
    unfold u1; apply State.gmReads_keeps; assumption
  clear_value u1 u2
  refine keeps_ite (fun _ => ?_) (fun _ => ?_)
  · assumption
  · refine keeps_ite (fun _ => ?_) (fun _ => ?_)
    · apply State.descEnd_keeps; assumption
    · refine keeps_ite (fun _ => ?_) (fun _ => ?_)
      · apply State.descEnd_keeps; assumption
      · extract_lets +onlyGivenNames u1
        clear_value u1
        apply State.setSq_keeps; assumption

theorem State.onWait_keeps (h : Keeps lk st s0 s) (y1 : ℕ) (y2 : ℕ) (y3 : State → DescRun → Desc → State) (hf3 : ∀ s z1 z2, Keeps lk st s0 s → Keeps lk st s0 (y3 s z1 z2)) :
    Keeps lk st s0 (State.onWait s y1 y2 y3) := by
  unfold State.onWait
  split
  · apply hf3; assumption
  · assumption

theorem State.waitPoll_keeps (h : Keeps lk st s0 s) (y1 : ℕ) (y2 : ℕ) :
    Keeps lk st s0 (State.waitPoll s y1 y2) := by
  unfold State.waitPoll
  apply State.onWait_keeps
  · assumption
  · intro _; intro _; intro _; intro _; refine keeps_ite (fun _ => ?_) (fun _ => ?_)
    · apply State.waitRead_keeps; assumption
    · assumption

theorem State.waitTimeout_keeps (h : Keeps lk st s0 s) (y1 : ℕ) (y2 : ℕ) :
    Keeps lk st s0 (State.waitTimeout s y1 y2) := by
  unfold State.waitTimeout
  apply State.onWait_keeps
  · assumption
  · intro _; intro _; intro _; intro _; extract_lets +onlyGivenNames u1
    clear_value u1
    refine keeps_ite (fun _ => ?_) (fun _ => ?_)
    · apply State.descEnd_keeps; assumption
    · assumption

theorem State.descPost_keeps (h : Keeps lk st s0 s) (y1 : ℕ) (y2 : ℕ) (y3 : ℕ) (y4 : Desc) :
    Keeps lk st s0 (State.descPost s y1 y2 y3 y4) := by
  unfold State.descPost
  apply State.descEnd_keeps; apply State.send_keeps; assumption

theorem State.sqTail_keeps (h : Keeps lk st s0 s) (y1 : ℕ) (y2 : ℕ) (y3 : ℕ) :
    Keeps lk st s0 (State.sqTail s y1 y2 y3) := by
  unfold State.sqTail
  extract_lets +onlyGivenNames u1 u2 u3 u4
  clear_value u1 u2 u3 u4
  refine keeps_ite (fun _ => ?_) (fun _ => ?_)
  · apply State.dbIgn_keeps; assumption
  · refine keeps_ite (fun _ => ?_) (fun _ => ?_)
    · apply State.setSq_keeps; assumption
    · apply State.sqStopped_keeps; apply State.wr_keeps; assumption

theorem State.cqHead_keeps (h : Keeps lk False s0 s) (y1 : ℕ) (y2 : ℕ) (y3 : ℕ) :
    Keeps lk False s0 (State.cqHead s y1 y2 y3) := by
  unfold State.cqHead
  extract_lets +onlyGivenNames u1 u2
  clear_value u1 u2
  refine keeps_ite (fun _ => ?_) (fun _ => ?_)
  · apply State.cqFlush_keeps; apply State.setCq_keeps; assumption
  · apply State.hqEvent_keeps; apply State.wr_keeps; apply State.wr_keeps; assumption

theorem State.dbPage_keeps (h : Keeps lk False s0 s) (y1 : ℕ) (y2 : ℕ) (y3 : ℕ) :
    Keeps lk False s0 (State.dbPage s y1 y2 y3) := by
  unfold State.dbPage
  extract_lets +onlyGivenNames u1
  have ku1 : Keeps lk False s0 u1 := by
    unfold u1; refine keeps_mk ?_ rfl; assumption
  clear_value u1
  refine keeps_ite (fun _ => ?_) (fun _ => ?_)
  · apply State.sqTail_keeps; assumption
  · refine keeps_ite (fun _ => ?_) (fun _ => ?_)
    · apply State.cqHead_keeps; assumption
    · apply State.dbIgn_keeps; assumption

theorem State.doorbell_keeps (h : Keeps lk False s0 s) (y1 : Option ℕ) (y2 : ℕ) (y3 : List Byte) :
    Keeps lk False s0 (State.doorbell s y1 y2 y3) := by
  unfold State.doorbell
  extract_lets +onlyGivenNames u1
  clear_value u1
  split
  · refine keeps_ite (fun _ => ?_) (fun _ => ?_)
    · apply State.dbIgn_keeps; assumption
    · refine keeps_ite (fun _ => ?_) (fun _ => ?_)
      · apply State.dbIgn_keeps; assumption
      · apply State.dbPage_keeps; assumption
  · refine keeps_ite (fun _ => ?_) (fun _ => ?_)
    · apply State.dbIgn_keeps; assumption
    · apply State.dbPage_keeps; assumption

theorem State.ringsOff_keeps (h : Keeps lk st s0 s) (y1 : ℕ) :
    Keeps lk st s0 (State.ringsOff s y1) := by
  unfold State.ringsOff
  extract_lets +onlyGivenNames u1
  have ku1 : Keeps lk st s0 u1 := by
    unfold u1; refine keeps_mk ?_ rfl; assumption
  clear_value u1
  refine keeps_foldl _ _ (fun _ _ _ => ?_) ?_
  · apply State.wrAll_keeps; assumption
  · assumption

theorem State.clientReset_keeps (h : Keeps lk st s0 s) (y1 : ℕ) :
    Keeps lk st s0 (State.clientReset s y1) := by
  unfold State.clientReset
  extract_lets +onlyGivenNames u1
  have ku1 : Keeps lk st s0 u1 := by
    unfold u1; apply State.clearRegs_keeps; apply State.ringsOff_keeps; assumption
  clear_value u1
  refine keeps_mk ?_ rfl; assumption

theorem State.flr_keeps (h : Keeps lk st s0 s) (y1 : ℕ) :
    Keeps lk st s0 (State.flr s y1) := by
  unfold State.flr
  refine keeps_ite (fun _ => ?_) (fun _ => ?_)
  · assumption
  · apply State.clientReset_keeps; assumption

theorem State.pcieReset_keeps (h : Keeps lk st s0 s) :
    Keeps lk st s0 (State.pcieReset s) := by
  unfold State.pcieReset
  extract_lets +onlyGivenNames u1
  have ku1 : Keeps lk st s0 u1 := by
    unfold u1; refine keeps_mk ?_ rfl; assumption
  clear_value u1
  refine keeps_ite (fun _ => ?_) (fun _ => ?_)
  · assumption
  · refine keeps_foldl _ _ (fun _ _ _ => ?_) ?_
    · apply State.clientReset_keeps; assumption
    · assumption

theorem State.d3Enter_keeps (h : Keeps lk False s0 s) (y1 : ℕ) :
    Keeps lk False s0 (State.d3Enter s y1) := by
  unfold State.d3Enter
  refine keeps_ite (fun _ => ?_) (fun _ => ?_)
  · assumption
  · extract_lets +onlyGivenNames u1
    have ku1 : Keeps lk False s0 u1 := by
      unfold u1; refine keeps_mk ?_ rfl; assumption
    clear_value u1
    refine keeps_ite (fun _ => ?_) (fun _ => ?_)
    · assumption
    · refine keeps_foldl _ _ (fun _ _ _ => ?_) ?_
      · refine keeps_ite (fun _ => ?_) (fun _ => ?_)
        · assumption
        · extract_lets +onlyGivenNames u2
          have ku2 : Keeps lk False s0 u2 := by
            unfold u2; apply State.dropFetched_keeps; apply State.dropWaits_keeps; apply State.wrAll_keeps
            assumption
          clear_value u2
          apply State.sqDrained_keeps; assumption
      · assumption

theorem State.d0Return_keeps (h : Keeps lk st s0 s) (y1 : ℕ) :
    Keeps lk st s0 (State.d0Return s y1) := by
  unfold State.d0Return
  refine keeps_mk ?_ rfl; assumption

theorem State.zeroReadDone_keeps (h : Keeps lk st s0 s) (y1 : ℕ) :
    Keeps lk st s0 (State.zeroReadDone s y1) := by
  unfold State.zeroReadDone
  extract_lets +onlyGivenNames u1 u2
  clear_value u1
  have ku2 : Keeps lk st s0 u2 := by
    unfold u2; refine keeps_mk ?_ rfl; assumption
  clear_value u2
  refine keeps_foldl _ _ (fun _ _ _ => ?_) ?_
  · refine keeps_ite (fun _ => ?_) (fun _ => ?_)
    · apply State.setSq_keeps; assumption
    · assumption
  · assumption

theorem State.mmioErr_keeps (h : Keeps lk st s0 s) (y1 : ℕ) (y2 : Status) :
    Keeps lk st s0 (State.mmioErr s y1 y2) := by
  unfold State.mmioErr
  refine keeps_ite (fun _ => ?_) (fun _ => ?_)
  · assumption
  · extract_lets +onlyGivenNames u1
    have ku1 : Keeps lk st s0 u1 := by
      unfold u1; refine keeps_ite (fun _ => ?_) (fun _ => ?_)
      · assumption
      · apply State.wr_keeps; assumption
    clear_value u1
    apply State.hqEvent_keeps; apply State.wr_keeps; assumption

end Sys2Proof.Machine
end

