-- ==== Sys2Proof/Laws/Keeps/SelCore.lean ====
section
/-! SUPPORT. What the operations of Machine/SelCore.lean keep. -/

set_option linter.all false

namespace Sys2Proof.Machine

variable {lk st : Prop} {s0 s t : State}

theorem State.selDone_keeps (h : Keeps lk st s0 s) (y1 : ℕ) (y2 : ℕ) (y3 : Bool) :
    Keeps lk st s0 (State.selDone s y1 y2 y3) := by
  unfold State.selDone
  apply State.count_keeps; apply State.flag_keeps; apply State.flag_keeps; apply State.flag_keeps; assumption

theorem State.selWrite_keeps (h : Keeps lk False s0 s) (y1 : ℕ) (y2 : Who) (y3 : ℕ) (y4 : ℕ) (y5 : SelBlk) (y6 : Selection) :
    Keeps lk False s0 (State.selWrite s y1 y2 y3 y4 y5 y6).1 := by
  unfold State.selWrite
  extract_lets +onlyGivenNames u2 u3
  clear_value u2
  have ku3 : Keeps lk False s0 u3.1 := by
    unfold u3; apply State.engWriteRows_keeps; assumption
  clear_value u3
  dsimp only; apply State.selDone_keeps; assumption

theorem State.selPass_keeps (h : Keeps lk st s0 s) (y1 : ℕ) (y2 : Who) (y3 : SelBlk) (y4 : Selection) :
    Keeps lk st s0 (State.selPass s y1 y2 y3 y4).1 := by
  unfold State.selPass
  extract_lets +onlyGivenNames u1
  have ku1 : Keeps lk st s0 u1.1 := by
    unfold u1; apply State.engRead_keeps; assumption
  clear_value u1
  dsimp only; assumption

theorem State.topk_keeps (h : Keeps lk False s0 s) (y1 : ℕ) (y2 : ℕ) (y3 : Who) (y4 : List Byte) (y5 : ℕ) (y6 : Bool) (y7 : ℕ) (y8 : ℕ) :
    Keeps lk False s0 (State.topk s y1 y2 y3 y4 y5 y6 y7 y8).1 := by
  unfold State.topk
  extract_lets +onlyGivenNames u1
  clear_value u1
  refine keeps_ite1 (fun _ => ?_) (fun _ => ?_)
  · dsimp only; assumption
  · extract_lets +onlyGivenNames u3 u4 u5
    clear_value u3
    have ku4 : Keeps lk False s0 u4.1 := by
      unfold u4; apply State.selPass_keeps; assumption
    clear_value u4 u5
    extract_lets +onlyGivenNames u6
    have ku6 : Keeps lk False s0 u6 := by
      unfold u6; refine keeps_ite (fun _ => ?_) (fun _ => ?_)
      · apply State.wrAll_keeps; apply State.setTile_keeps; assumption
      · assumption
    clear_value u6
    refine keeps_ite1 (fun _ => ?_) (fun _ => ?_)
    · dsimp only; apply State.poisonRows_keeps; assumption
    · refine keeps_ite1 (fun _ => ?_) (fun _ => ?_)
      · dsimp only; assumption
      · refine keeps_ite1 (fun _ => ?_) (fun _ => ?_)
        · dsimp only; apply State.selDone_keeps; assumption
        · extract_lets +onlyGivenNames u4
          have ku4 : Keeps lk False s0 u4.1 := by
            unfold u4; apply State.selWrite_keeps; assumption
          clear_value u4
          dsimp only; refine keeps_ite (fun _ => ?_) (fun _ => ?_)
          · apply State.dropChain_keeps; assumption
          · assumption

theorem State.mergeReads_keeps (h : Keeps lk st s0 s) (y1 : ℕ) (y2 : Who) (y3 : SelBlk) (y4 : List ℕ) (y5 : Selection) :
    Keeps lk st s0 (State.mergeReads s y1 y2 y3 y4 y5).1 := by
  induction y4 generalizing s y1 y2 y3 y5 with
  | nil =>
    rw [State.mergeReads]
    dsimp only; assumption
  | cons a l ih =>
    rw [State.mergeReads]
    refine keeps_ite1 (fun _ => ?_) (fun _ => ?_)
    · dsimp only; assumption
    · extract_lets +onlyGivenNames u2
      have ku2 : Keeps lk st s0 u2.1 := by
        unfold u2; apply State.engRead_keeps; assumption
      clear_value u2
      refine keeps_ite1 (fun _ => ?_) (fun _ => ?_)
      · extract_lets +onlyGivenNames u3
        have ku3 : Keeps lk st s0 u3.1 := by
          unfold u3; apply ih; assumption
        clear_value u3
        dsimp only; assumption
      · refine keeps_ite1 (fun _ => ?_) (fun _ => ?_)
        · dsimp only; assumption
        · extract_lets +onlyGivenNames u5 u6
          have ku5 : Keeps lk st s0 u5.1 := by
            unfold u5; apply State.engRead_keeps; assumption
          clear_value u5
          have ku6 : Keeps lk st s0 u6.1 := by
            unfold u6; apply ih; assumption
          clear_value u6
          dsimp only; assumption

theorem State.mergeRow_keeps (h : Keeps lk False s0 s) (y1 : ℕ) (y2 : Who) (y3 : List Byte) (y4 : ℕ) (y5 : ℕ) (y6 : ℕ) :
    Keeps lk False s0 (State.mergeRow s y1 y2 y3 y4 y5 y6).1 := by
  unfold State.mergeRow
  extract_lets +onlyGivenNames u1 u2
  clear_value u1 u2
  refine keeps_ite1 (fun _ => ?_) (fun _ => ?_)
  · dsimp only; assumption
  · extract_lets +onlyGivenNames u7
    have ku7 : Keeps lk False s0 u7.1 := by
      unfold u7; apply State.mergeReads_keeps; assumption
    clear_value u7
    refine keeps_ite1 (fun _ => ?_) (fun _ => ?_)
    · dsimp only; assumption
    · refine keeps_ite1 (fun _ => ?_) (fun _ => ?_)
      · dsimp only; apply State.poisonRows_keeps; assumption
      · refine keeps_ite1 (fun _ => ?_) (fun _ => ?_)
        · dsimp only; assumption
        · apply State.selWrite_keeps; assumption

theorem State.argPass_keeps (h : Keeps lk st s0 s) (y1 : ℕ) (y2 : Who) (y3 : List Byte) (y4 : ℕ) :
    Keeps lk st s0 (State.argPass s y1 y2 y3 y4).1 := by
  unfold State.argPass
  extract_lets +onlyGivenNames u1
  clear_value u1
  extract_lets +onlyGivenNames u2
  clear_value u2
  apply State.selPass_keeps; assumption

theorem State.argidxRow_keeps (h : Keeps lk False s0 s) (y1 : ℕ) (y2 : Who) (y3 : List Byte) (y4 : ℕ) (y5 : ℕ) (y6 : ℕ) :
    Keeps lk False s0 (State.argidxRow s y1 y2 y3 y4 y5 y6).1 := by
  unfold State.argidxRow
  extract_lets +onlyGivenNames u1
  clear_value u1
  extract_lets +onlyGivenNames u2
  clear_value u2
  refine keeps_ite1 (fun _ => ?_) (fun _ => ?_)
  · dsimp only; assumption
  · extract_lets +onlyGivenNames u3
    have ku3 : Keeps lk False s0 u3.1 := by
      unfold u3; apply State.argPass_keeps; assumption
    clear_value u3
    refine keeps_ite1 (fun _ => ?_) (fun _ => ?_)
    · dsimp only; apply State.poisonRows_keeps; assumption
    · refine keeps_ite1 (fun _ => ?_) (fun _ => ?_)
      · dsimp only; assumption
      · extract_lets +onlyGivenNames u1 u2
        clear_value u1
        have ku2 : Keeps lk False s0 u2.1 := by
          unfold u2; apply State.engWriteRows_keeps; assumption
        clear_value u2
        dsimp only; apply State.selDone_keeps; assumption

theorem State.selRow_keeps (h : Keeps lk False s0 s) (y1 : ℕ) (y2 : ℕ) (y3 : ℕ) :
    Keeps lk False s0 (State.selRow s y1 y2 y3) := by
  unfold State.selRow
  extract_lets +onlyGivenNames u1 u2 u3 u4 u5
  clear_value u1 u2 u3 u4
  have ku5 : Keeps lk False s0 u5.1 := by
    unfold u5; apply State.paramBlock_keeps; assumption
  clear_value u5
  refine keeps_ite (fun _ => ?_) (fun _ => ?_)
  · apply State.report__keeps; assumption
  · extract_lets +onlyGivenNames u3
    have ku3 : Keeps lk False s0 u3.1 := by
      unfold u3; refine keeps_ite1 (fun _ => ?_) (fun _ => ?_)
      · apply State.topk_keeps; assumption
      · refine keeps_ite1 (fun _ => ?_) (fun _ => ?_)
        · apply State.mergeRow_keeps; assumption
        · apply State.argidxRow_keeps; assumption
    clear_value u3
    apply State.report__keeps; assumption

theorem State.qmax_keeps (h : Keeps lk st s0 s) (y1 : Who) (y2 : ℕ) :
    Keeps lk st s0 (State.qmax s y1 y2).1 := by
  unfold State.qmax
  split
  · dsimp only; assumption
  · extract_lets +onlyGivenNames u4
    have ku4 : Keeps lk st s0 u4.1 := by
      unfold u4; apply State.gate_keeps; assumption
    clear_value u4
    refine keeps_ite1 (fun _ => ?_) (fun _ => ?_)
    · dsimp only; assumption
    · extract_lets +onlyGivenNames u1 u2
      clear_value u1
      have ku2 : Keeps lk st s0 u2.1 := by
        unfold u2; apply State.engRead_keeps; assumption
      clear_value u2
      refine keeps_ite1 (fun _ => ?_) (fun _ => ?_)
      · dsimp only; assumption
      · extract_lets +onlyGivenNames u4
        clear_value u4
        refine keeps_ite1 (fun _ => ?_) (fun _ => ?_)
        · dsimp only; assumption
        · extract_lets +onlyGivenNames u1
          have ku1 : Keeps lk st s0 u1.1 := by
            unfold u1; apply State.argPass_keeps; assumption
          clear_value u1
          refine keeps_ite1 (fun _ => ?_) (fun _ => ?_)
          · dsimp only; assumption
          · extract_lets +onlyGivenNames u1
            clear_value u1
            dsimp only; apply State.selDone_keeps; assumption

theorem State.qtopk_keeps (h : Keeps lk False s0 s) (y1 : Who) (y2 : ℕ) :
    Keeps lk False s0 (State.qtopk s y1 y2).1 := by
  unfold State.qtopk
  split
  · dsimp only; assumption
  · extract_lets +onlyGivenNames u3
    have ku3 : Keeps lk False s0 u3.1 := by
      unfold u3; apply State.gate_keeps; assumption
    clear_value u3
    refine keeps_ite1 (fun _ => ?_) (fun _ => ?_)
    · dsimp only; assumption
    · extract_lets +onlyGivenNames u2 u3
      clear_value u2
      have ku3 : Keeps lk False s0 u3.1 := by
        unfold u3; apply State.engRead_keeps; assumption
      clear_value u3
      refine keeps_ite1 (fun _ => ?_) (fun _ => ?_)
      · dsimp only; assumption
      · extract_lets +onlyGivenNames u4
        clear_value u4
        extract_lets +onlyGivenNames u7
        clear_value u7
        refine keeps_ite1 (fun _ => ?_) (fun _ => ?_)
        · dsimp only; assumption
        · extract_lets +onlyGivenNames u8
          have ku8 : Keeps lk False s0 u8.1 := by
            unfold u8; apply State.selPass_keeps; assumption
          clear_value u8
          refine keeps_ite1 (fun _ => ?_) (fun _ => ?_)
          · dsimp only; apply State.poisonRows_keeps; assumption
          · refine keeps_ite1 (fun _ => ?_) (fun _ => ?_)
            · dsimp only; assumption
            · extract_lets +onlyGivenNames u9 u10
              clear_value u9
              have ku10 : Keeps lk False s0 u10.1 := by
                unfold u10; apply State.engWriteRows_keeps; assumption
              clear_value u10
              dsimp only; apply State.selDone_keeps; refine keeps_mk ?_ rfl; assumption

end Sys2Proof.Machine
end

