-- ==== Sys2Proof/Laws/Keeps/SeqFire.lean ====
section
/-! SUPPORT. What the operations of Machine/SeqFire.lean keep. -/

set_option linter.all false

namespace Sys2Proof.Machine

variable {lk st : Prop} {s0 s t : State}

theorem State.deductTokens_keeps (h : Keeps lk st s0 s) (y1 : ℕ) (y2 : ℕ) (y3 : List (ℕ × ℕ)) :
    Keeps lk st s0 (State.deductTokens s y1 y2 y3) := by
  induction y3 generalizing s y1 y2 with
  | nil =>
    rw [State.deductTokens]
    assumption
  | cons a l ih =>
    obtain ⟨a1, a2⟩ := a
    rw [State.deductTokens]
    apply ih; apply State.wr_keeps; assumption

theorem State.deductCredits_keeps (h : Keeps lk st s0 s) (y1 : ℕ) (y2 : List (ℕ × ℕ)) :
    Keeps lk st s0 (State.deductCredits s y1 y2) := by
  induction y2 generalizing s y1 with
  | nil =>
    rw [State.deductCredits]
    assumption
  | cons a l ih =>
    obtain ⟨a1, a2⟩ := a
    rw [State.deductCredits]
    apply ih; apply State.wr_keeps; assumption

theorem State.fire_keeps (h : Keeps lk st s0 s) (y1 : ℕ) (y2 : ℕ) :
    Keeps lk st s0 (State.fire s y1 y2) := by
  unfold State.fire
  extract_lets +onlyGivenNames u1 u2 u3 u4 u5 u6
  clear_value u1 u2 u3 u4
  have ku5 : Keeps lk st s0 u5 := by
    unfold u5; apply State.deductCredits_keeps; apply State.deductTokens_keeps; assumption
  clear_value u5
  have ku6 : Keeps lk st s0 u6 := by
    unfold u6; apply State.wr_keeps; apply State.count_keeps; apply State.count_keeps; assumption
  clear_value u6
  apply State.setCtx_keeps; assumption

theorem State.returnAll_keeps (h : Keeps lk st s0 s) (y1 : ℕ) (y2 : ℕ) (y3 : ℕ) (y4 : List (ℕ × ℕ)) :
    Keeps lk st s0 (State.returnAll s y1 y2 y3 y4) := by
  induction y4 generalizing s y1 y2 y3 with
  | nil =>
    rw [State.returnAll]
    assumption
  | cons a l ih =>
    obtain ⟨a1, a2⟩ := a
    rw [State.returnAll]
    apply ih; apply State.returnCredits_keeps; assumption

theorem State.sendOrdered_keeps (h : Keeps lk st s0 s) (y1 : ℕ) (y2 : ℕ) (y3 : ℕ) :
    Keeps lk st s0 (State.sendOrdered s y1 y2 y3) := by
  unfold State.sendOrdered
  refine keeps_ite (fun _ => ?_) (fun _ => ?_)
  · apply State.sendFrom_keeps; assumption
  · refine keeps_mk ?_ rfl; assumption

theorem State.sendPost_keeps (h : Keeps lk st s0 s) (y1 : ℕ) (y2 : ℕ) (y3 : ℕ) (y4 : ℕ) (y5 : ℕ) :
    Keeps lk st s0 (State.sendPost s y1 y2 y3 y4 y5).1 := by
  unfold State.sendPost
  extract_lets +onlyGivenNames u1
  clear_value u1
  refine keeps_ite1 (fun _ => ?_) (fun _ => ?_)
  · dsimp only; assumption
  · refine keeps_ite1 (fun _ => ?_) (fun _ => ?_)
    · dsimp only; apply State.sendOrdered_keeps; assumption
    · dsimp only; assumption

theorem State.sendPosts_keeps (h : Keeps lk st s0 s) (y1 : ℕ) (y2 : ℕ) (y3 : ℕ) (y4 : ℕ) (y5 : ℕ) :
    Keeps lk st s0 (State.sendPosts s y1 y2 y3 y4 y5).1 := by
  unfold State.sendPosts
  refine keeps_ite1 (fun _ => ?_) (fun _ => ?_)
  · apply State.sendPost_keeps; assumption
  · extract_lets +onlyGivenNames u6 u7
    have ku6 : Keeps lk st s0 u6.1 := by
      unfold u6; apply State.sendPost_keeps; assumption
    clear_value u6
    have ku7 : Keeps lk st s0 u7.1 := by
      unfold u7; apply State.sendPost_keeps; assumption
    clear_value u7
    dsimp only; assumption

theorem State.advance_keeps (h : Keeps lk st s0 s) (y1 : ℕ) (y2 : ℕ) :
    Keeps lk st s0 (State.advance s y1 y2) := by
  unfold State.advance
  extract_lets +onlyGivenNames u1 u2 u3 u4
  clear_value u1 u2 u3
  have ku4 : Keeps lk st s0 u4 := by
    unfold u4; apply State.setCtx_keeps; assumption
  clear_value u4
  refine keeps_ite (fun _ => ?_) (fun _ => ?_)
  · extract_lets +onlyGivenNames u3
    have ku3 : Keeps lk st s0 u3 := by
      unfold u3; apply State.wr_keeps; assumption
    clear_value u3
    refine keeps_ite (fun _ => ?_) (fun _ => ?_)
    · apply State.ctxHalt_keeps; assumption
    · refine keeps_ite (fun _ => ?_) (fun _ => ?_)
      · apply State.ctxHalt_keeps; assumption
      · apply State.ctxArrive_keeps; assumption
  · extract_lets +onlyGivenNames u1
    have ku1 : Keeps lk st s0 u1 := by
      unfold u1; apply State.wrAll_keeps; assumption
    clear_value u1
    refine keeps_ite (fun _ => ?_) (fun _ => ?_)
    · apply State.ctxHalt_keeps; assumption
    · refine keeps_ite (fun _ => ?_) (fun _ => ?_)
      · apply State.ctxHalt_keeps; assumption
      · refine keeps_ite (fun _ => ?_) (fun _ => ?_)
        · apply State.ctxHalt_keeps; assumption
        · apply State.ctxArrive_keeps; apply State.wr_keeps; assumption

theorem State.complete_keeps (h : Keeps lk st s0 s) (y1 : ℕ) (y2 : ℕ) (y3 : Status) (y4 : ℕ) :
    Keeps lk st s0 (State.complete s y1 y2 y3 y4) := by
  unfold State.complete
  extract_lets +onlyGivenNames u1 u2 u3 u4 u5
  clear_value u1 u2 u3 u4
  have ku5 : Keeps lk st s0 u5 := by
    unfold u5; apply State.returnAll_keeps; assumption
  clear_value u5
  refine keeps_ite (fun _ => ?_) (fun _ => ?_)
  · apply State.ctxError_keeps; assumption
  · extract_lets +onlyGivenNames u8
    have ku8 : Keeps lk st s0 u8.1 := by
      unfold u8; apply State.sendPosts_keeps; assumption
    clear_value u8
    refine keeps_ite (fun _ => ?_) (fun _ => ?_)
    · apply State.ctxError_keeps; assumption
    · apply State.advance_keeps; assumption

theorem State.fireOrBreak_keeps (h : Keeps lk st s0 s) (y1 : ℕ) (y2 : ℕ) :
    Keeps lk st s0 (State.fireOrBreak s y1 y2) := by
  unfold State.fireOrBreak
  extract_lets +onlyGivenNames u1
  clear_value u1
  refine keeps_ite (fun _ => ?_) (fun _ => ?_)
  · apply State.ctxHalt_keeps; assumption
  · extract_lets +onlyGivenNames u4
    have ku4 : Keeps lk st s0 u4 := by
      unfold u4; apply State.fire_keeps; assumption
    clear_value u4
    refine keeps_ite (fun _ => ?_) (fun _ => ?_)
    · apply State.complete_keeps; assumption
    · assumption

theorem State.askGrant_keeps (h : Keeps lk st s0 s) (y1 : ℕ) (y2 : ℕ) :
    Keeps lk st s0 (State.askGrant s y1 y2) := by
  unfold State.askGrant
  extract_lets +onlyGivenNames u1 u2
  clear_value u1 u2
  refine keeps_ite (fun _ => ?_) (fun _ => ?_)
  · apply State.fireOrBreak_keeps; assumption
  · refine keeps_ite (fun _ => ?_) (fun _ => ?_)
    · apply State.fireOrBreak_keeps; apply State.charge_keeps; assumption
    · apply State.setCtx_keeps; assumption

theorem State.rowEligible_keeps (h : Keeps lk st s0 s) (y1 : ℕ) (y2 : ℕ) :
    Keeps lk st s0 (State.rowEligible s y1 y2) := by
  unfold State.rowEligible
  extract_lets +onlyGivenNames u1 u2 u3
  clear_value u1 u2 u3
  refine keeps_ite (fun _ => ?_) (fun _ => ?_)
  · apply State.ctxError_keeps; assumption
  · refine keeps_ite (fun _ => ?_) (fun _ => ?_)
    · apply State.askGrant_keeps; assumption
    · assumption

theorem State.decide1_keeps (h : Keeps lk st s0 s) (y1 : ℕ) :
    Keeps lk st s0 (State.decide1 s y1) := by
  unfold State.decide1
  extract_lets +onlyGivenNames u1 u2 u3
  clear_value u1 u2 u3
  refine keeps_ite (fun _ => ?_) (fun _ => ?_)
  · extract_lets +onlyGivenNames u2 u3
    have ku2 : Keeps lk st s0 u2 := by
      unfold u2; apply State.charge_keeps; assumption
    clear_value u2 u3
    extract_lets +onlyGivenNames u4
    have ku4 : Keeps lk st s0 u4 := by
      unfold u4; apply State.setCtx_keeps; assumption
    clear_value u4
    refine keeps_ite (fun _ => ?_) (fun _ => ?_)
    · apply State.fireOrBreak_keeps; assumption
    · assumption
  · assumption

theorem State.grantCycle_keeps (h : Keeps lk st s0 s) :
    Keeps lk st s0 (State.grantCycle s) := by
  unfold State.grantCycle
  refine keeps_foldl _ _ (fun _ _ _ => ?_) ?_
  · apply State.decide1_keeps; assumption
  · assumption

end Sys2Proof.Machine
end

