-- ==== Sys2Proof/Laws/Keeps/FieldCore.lean ====
section
/-! SUPPORT. What the operations of Machine/FieldCore.lean keep. -/

set_option linter.all false

namespace Sys2Proof.Machine

variable {lk st : Prop} {s0 s t : State}

theorem State.setFrDone_keeps (h : Keeps lk st s0 s) (y1 : ℕ) (y2 : List (List Byte)) :
    Keeps lk st s0 (State.setFrDone s y1 y2) := by
  unfold State.setFrDone
  refine keeps_mk ?_ rfl; assumption

theorem State.writeFrBase_keeps (h : Keeps lk st s0 s) (y1 : ℕ) (y2 : ℕ) (y3 : ℕ) :
    Keeps lk st s0 (State.writeFrBase s y1 y2 y3) := by
  unfold State.writeFrBase
  refine keeps_ite (fun _ => ?_) (fun _ => ?_)
  · assumption
  · refine keeps_ite (fun _ => ?_) (fun _ => ?_)
    · apply State.wr_keeps; assumption
    · apply State.wr_keeps; assumption

theorem State.writeFrCfg_keeps (h : Keeps lk st s0 s) (y1 : ℕ) (y2 : ℕ) :
    Keeps lk st s0 (State.writeFrCfg s y1 y2) := by
  unfold State.writeFrCfg
  extract_lets +onlyGivenNames u1 u2
  clear_value u1
  have ku2 : Keeps lk st s0 u2 := by
    unfold u2; apply State.wrAll_keeps; assumption
  clear_value u2
  refine keeps_ite (fun _ => ?_) (fun _ => ?_)
  · refine keeps_ite (fun _ => ?_) (fun _ => ?_)
    · apply State.wrAll_keeps; assumption
    · apply State.setFrDone_keeps; apply State.wrAll_keeps; assumption
  · refine keeps_ite (fun _ => ?_) (fun _ => ?_)
    · apply State.setFrDone_keeps; assumption
    · assumption

theorem State.writeFrTail_keeps (h : Keeps lk st s0 s) (y1 : ℕ) (y2 : ℕ) :
    Keeps lk st s0 (State.writeFrTail s y1 y2) := by
  unfold State.writeFrTail
  extract_lets +onlyGivenNames u1 u2 u3
  clear_value u1 u2 u3
  refine keeps_ite (fun _ => ?_) (fun _ => ?_)
  · apply State.wr_keeps; assumption
  · apply State.wr_keeps; assumption

theorem State.frRead_keeps (h : Keeps lk st s0 s) (y1 : ℕ) (y2 : ℕ) :
    Keeps lk st s0 (State.frRead s y1 y2).1 := by
  unfold State.frRead
  apply State.gmReads_keeps; assumption

theorem State.frFinish_keeps (h : Keeps lk st s0 s) (y1 : ℕ) (y2 : List Byte) :
    Keeps lk st s0 (State.frFinish s y1 y2) := by
  unfold State.frFinish
  apply State.setFrDone_keeps; assumption

theorem State.frEntryDone_keeps (h : Keeps lk False s0 s) (y1 : ℕ) :
    Keeps lk False s0 (State.frEntryDone s y1) := by
  unfold State.frEntryDone
  split
  · assumption
  · extract_lets +onlyGivenNames u1 u2 u3 u4 u5 u6 u7
    clear_value u1
    have ku2 : Keeps lk False s0 u2 := by
      unfold u2; apply State.gmWrites_keeps; assumption
    clear_value u2
    have ku3 : Keeps lk False s0 u3 := by
      unfold u3; apply State.wr_keeps; apply State.setFrDone_keeps; assumption
    clear_value u3 u4 u5 u6 u7
    refine keeps_ite (fun _ => ?_) (fun _ => ?_)
    · apply State.token_keeps; assumption
    · refine keeps_ite (fun _ => ?_) (fun _ => ?_)
      · apply State.token_keeps; assumption
      · assumption

theorem State.setQbv_keeps (h : Keeps lk st s0 s) (y1 : ℕ) (y2 : QbvSt) :
    Keeps lk st s0 (State.setQbv s y1 y2) := by
  unfold State.setQbv
  refine keeps_mk ?_ (by simp [shape_modAt]); assumption

theorem State.gateChange_keeps (h : Keeps lk st s0 s) (y1 : ℕ) (y2 : QbvSt) :
    Keeps lk st s0 (State.gateChange s y1 y2) := by
  unfold State.gateChange
  apply State.wr_keeps; apply State.setQbv_keeps; assumption

theorem State.gateEntryEnd_keeps (h : Keeps lk st s0 s) (y1 : ℕ) :
    Keeps lk st s0 (State.gateEntryEnd s y1) := by
  unfold State.gateEntryEnd
  extract_lets +onlyGivenNames u1
  clear_value u1
  refine keeps_ite (fun _ => ?_) (fun _ => ?_)
  · assumption
  · refine keeps_ite (fun _ => ?_) (fun _ => ?_)
    · extract_lets +onlyGivenNames u1
      clear_value u1
      apply State.gateChange_keeps; assumption
    · apply State.gateChange_keeps; assumption

theorem State.qbvChange_keeps (h : Keeps lk st s0 s) (y1 : ℕ) :
    Keeps lk st s0 (State.qbvChange s y1) := by
  unfold State.qbvChange
  refine keeps_ite (fun _ => ?_) (fun _ => ?_)
  · apply State.wr_keeps; assumption
  · extract_lets +onlyGivenNames u2
    clear_value u2
    apply State.wr_keeps; apply State.setQbv_keeps; assumption

theorem State.qbvActivate_keeps (h : Keeps lk st s0 s) (y1 : ℕ) :
    Keeps lk st s0 (State.qbvActivate s y1) := by
  unfold State.qbvActivate
  extract_lets +onlyGivenNames u1
  clear_value u1
  refine keeps_ite (fun _ => ?_) (fun _ => ?_)
  · assumption
  · extract_lets +onlyGivenNames u2 u3
    clear_value u2 u3
    apply State.gateChange_keeps; apply State.wrAll_keeps; assumption

theorem State.gateStep_keeps (h : Keeps lk st s0 s) (y1 : ℕ) (y2 : ℕ) (y3 : ℕ) :
    Keeps lk st s0 (State.gateStep s y1 y2 y3) := by
  unfold State.gateStep
  extract_lets +onlyGivenNames u1
  clear_value u1
  refine keeps_ite (fun _ => ?_) (fun _ => ?_)
  · assumption
  · extract_lets +onlyGivenNames u4
    clear_value u4
    refine keeps_ite (fun _ => ?_) (fun _ => ?_)
    · extract_lets +onlyGivenNames u5
      clear_value u5
      refine keeps_ite (fun _ => ?_) (fun _ => ?_)
      · apply State.setQbv_keeps; assumption
      · apply State.gateChange_keeps; assumption
    · apply State.setQbv_keeps; assumption

theorem State.timeStep_keeps (h : Keeps lk st s0 s) (y1 : ℕ) :
    Keeps lk st s0 (State.timeStep s y1) := by
  unfold State.timeStep
  extract_lets +onlyGivenNames u1 u2 u3 u4
  clear_value u1 u2
  have ku3 : Keeps lk st s0 u3 := by
    unfold u3; refine keeps_mk ?_ rfl; assumption
  clear_value u3
  have ku4 : Keeps lk st s0 u4 := by
    unfold u4; apply State.countWrap_keeps; assumption
  clear_value u4
  refine keeps_foldl _ _ (fun _ _ _ => ?_) ?_
  · apply State.gateStep_keeps; assumption
  · assumption

theorem State.ethToRing_keeps (h : Keeps lk False s0 s) (y1 : ℕ) (y2 : ℕ) (y3 : ℕ) (y4 : List Byte) :
    Keeps lk False s0 (State.ethToRing s y1 y2 y3 y4) := by
  unfold State.ethToRing
  extract_lets +onlyGivenNames u1
  clear_value u1
  split
  · apply State.count_keeps; assumption
  · extract_lets +onlyGivenNames u1 u2 u3 u4 u5 u6 u7
    have ku1 : Keeps lk False s0 u1.1 := by
      unfold u1; apply State.frRead_keeps; assumption
    clear_value u1 u2 u3 u4 u5
    have ku6 : Keeps lk False s0 u6.1 := by
      unfold u6; refine keeps_ite1 (fun _ => ?_) (fun _ => ?_)
      · apply State.gmWrites_keeps; assumption
      · dsimp only; assumption
    clear_value u6 u7
    apply State.frFinish_keeps; assumption

theorem State.ethSteer_keeps (h : Keeps lk False s0 s) (y1 : ℕ) (y2 : List Byte) :
    Keeps lk False s0 (State.ethSteer s y1 y2) := by
  unfold State.ethSteer
  split
  · apply State.ethToRing_keeps; assumption
  · apply State.ethToRing_keeps; assumption

theorem State.ethRingFrame_keeps (h : Keeps lk st s0 s) (y1 : ℕ) (y2 : ℕ) (y3 : ℕ) :
    Keeps lk st s0 (State.ethRingFrame s y1 y2 y3).1 := by
  unfold State.ethRingFrame
  extract_lets +onlyGivenNames u1
  clear_value u1
  dsimp only; split
  · dsimp only; assumption
  · refine keeps_ite1 (fun _ => ?_) (fun _ => ?_)
    · dsimp only; apply State.frFinish_keeps; apply State.frRead_keeps; assumption
    · refine keeps_ite1 (fun _ => ?_) (fun _ => ?_)
      · dsimp only; apply State.frFinish_keeps; apply State.frRead_keeps; assumption
      · refine keeps_ite1 (fun _ => ?_) (fun _ => ?_)
        · dsimp only; assumption
        · refine keeps_ite1 (fun _ => ?_) (fun _ => ?_)
          · dsimp only; apply State.frFinish_keeps; apply State.gmReads_keeps; apply State.frRead_keeps
            assumption
          · dsimp only; apply State.frFinish_keeps; apply State.gmReads_keeps; apply State.frRead_keeps
            assumption

theorem State.canQueue_keeps (h : Keeps lk st s0 s) (y1 : ℕ) (y2 : ℕ) :
    Keeps lk st s0 (State.canQueue s y1 y2) := by
  unfold State.canQueue
  apply State.wr_keeps; assumption

theorem State.writeTxb_keeps (h : Keeps lk st s0 s) (y1 : ℕ) (y2 : ℕ) (y3 : ℕ) (y4 : ℕ) :
    Keeps lk st s0 (State.writeTxb s y1 y2 y3 y4) := by
  unfold State.writeTxb
  refine keeps_ite (fun _ => ?_) (fun _ => ?_)
  · apply State.wr_keeps; assumption
  · refine keeps_ite (fun _ => ?_) (fun _ => ?_)
    · apply State.wrAll_keeps; assumption
    · refine keeps_ite (fun _ => ?_) (fun _ => ?_)
      · apply State.wrAll_keeps; assumption
      · refine keeps_ite (fun _ => ?_) (fun _ => ?_)
        · apply State.wr_keeps; assumption
        · assumption

theorem State.canMode_keeps (h : Keeps lk st s0 s) (y1 : ℕ) :
    Keeps lk st s0 (State.canMode s y1) := by
  unfold State.canMode
  refine keeps_ite (fun _ => ?_) (fun _ => ?_)
  · assumption
  · apply State.wr_keeps; assumption

theorem State.canSent_keeps (h : Keeps lk st s0 s) (y1 : ℕ) :
    Keeps lk st s0 (State.canSent s y1) := by
  unfold State.canSent
  refine keeps_ite (fun _ => ?_) (fun _ => ?_)
  · assumption
  · split
    · assumption
    · extract_lets +onlyGivenNames u2 u3
      have ku2 : Keeps lk st s0 u2 := by
        unfold u2; refine keeps_mk ?_ rfl; assumption
      clear_value u2
      have ku3 : Keeps lk st s0 u3 := by
        unfold u3; apply State.wrAll_keeps; assumption
      clear_value u3
      apply State.canMode_keeps; assumption

theorem State.canReceive_keeps (h : Keeps lk st s0 s) (y1 : ℕ) (y2 : ℕ) (y3 : CanFrame) :
    Keeps lk st s0 (State.canReceive s y1 y2 y3) := by
  unfold State.canReceive
  refine keeps_ite (fun _ => ?_) (fun _ => ?_)
  · assumption
  · extract_lets +onlyGivenNames u1
    have ku1 : Keeps lk st s0 u1 := by
      unfold u1; apply State.canMode_keeps; apply State.wr_keeps; assumption
    clear_value u1
    split
    · apply State.count_keeps; assumption
    · split
      · apply State.count_keeps; apply State.count_keeps; assumption
      · extract_lets +onlyGivenNames u3
        have ku3 : Keeps lk st s0 u3.1 := by
          unfold u3; apply State.frRead_keeps; assumption
        clear_value u3
        apply State.frFinish_keeps; assumption

theorem State.canBusOff_keeps (h : Keeps lk st s0 s) (y1 : ℕ) :
    Keeps lk st s0 (State.canBusOff s y1) := by
  unfold State.canBusOff
  refine keeps_ite (fun _ => ?_) (fun _ => ?_)
  · assumption
  · extract_lets +onlyGivenNames u1 u2
    have ku1 : Keeps lk st s0 u1 := by
      unfold u1; apply State.drawn_keeps; apply State.wrAll_keeps; assumption
    clear_value u1
    have ku2 : Keeps lk st s0 u2 := by
      unfold u2; refine keeps_mk ?_ rfl; assumption
    clear_value u2
    apply State.reportIf_keeps; assumption

theorem State.canPermit_keeps (h : Keeps lk st s0 s) (y1 : ℕ) :
    Keeps lk st s0 (State.canPermit s y1) := by
  unfold State.canPermit
  refine keeps_ite (fun _ => ?_) (fun _ => ?_)
  · refine keeps_mk ?_ rfl; assumption
  · assumption

theorem State.canRecovered_keeps (h : Keeps lk st s0 s) (y1 : ℕ) :
    Keeps lk st s0 (State.canRecovered s y1) := by
  unfold State.canRecovered
  refine keeps_ite (fun _ => ?_) (fun _ => ?_)
  · extract_lets +onlyGivenNames u1
    have ku1 : Keeps lk st s0 u1 := by
      unfold u1; apply State.wrAll_keeps; assumption
    clear_value u1
    refine keeps_mk ?_ rfl; assumption
  · assumption

theorem State.setCsi_keeps (h : Keeps lk st s0 s) (y1 : ℕ) (y2 : ℕ) (y3 : CsiSt) :
    Keeps lk st s0 (State.setCsi s y1 y2 y3) := by
  unfold State.setCsi
  refine keeps_mk ?_ (by simp [shape_modAt]); assumption

theorem State.csiHeader_keeps (h : Keeps lk st s0 s) (y1 : ℕ) (y2 : ℕ) :
    Keeps lk st s0 (State.csiHeader s y1 y2).1 := by
  unfold State.csiHeader
  refine keeps_ite1 (fun _ => ?_) (fun _ => ?_)
  · dsimp only; assumption
  · split
    · dsimp only; assumption
    · dsimp only; apply State.wr_keeps; apply State.count_keeps; assumption
    · dsimp only; apply State.wr_keeps; apply State.count_keeps; assumption

theorem State.writeCsMatch_keeps (h : Keeps lk st s0 s) (y1 : ℕ) (y2 : ℕ) (y3 : ℕ) (y4 : Bool) :
    Keeps lk st s0 (State.writeCsMatch s y1 y2 y3 y4) := by
  unfold State.writeCsMatch
  extract_lets +onlyGivenNames u1 u2 u3
  clear_value u1
  have ku2 : Keeps lk st s0 u2 := by
    unfold u2; refine keeps_ite (fun _ => ?_) (fun _ => ?_)
    · apply State.wrAll_keeps; assumption
    · assumption
  clear_value u2
  have ku3 : Keeps lk st s0 u3 := by
    unfold u3; apply State.wr_keeps; assumption
  clear_value u3
  refine keeps_ite (fun _ => ?_) (fun _ => ?_)
  · apply State.setCsi_keeps; apply State.wr_keeps; assumption
  · refine keeps_ite (fun _ => ?_) (fun _ => ?_)
    · apply State.setCsi_keeps; assumption
    · assumption

theorem State.csiReturn_keeps (h : Keeps lk st s0 s) (y1 : ℕ) (y2 : ℕ) :
    Keeps lk st s0 (State.csiReturn s y1 y2) := by
  unfold State.csiReturn
  refine keeps_ite (fun _ => ?_) (fun _ => ?_)
  · apply State.wr_keeps; assumption
  · apply State.countWrap_keeps; assumption

theorem State.csiBandToken_keeps (h : Keeps lk st s0 s) (y1 : ℕ) (y2 : ℕ) :
    Keeps lk st s0 (State.csiBandToken s y1 y2) := by
  unfold State.csiBandToken
  apply State.setCsi_keeps; apply State.token_keeps; assumption

theorem State.csiBandDone_keeps (h : Keeps lk st s0 s) (y1 : ℕ) (y2 : ℕ) :
    Keeps lk st s0 (State.csiBandDone s y1 y2) := by
  unfold State.csiBandDone
  extract_lets +onlyGivenNames u1 u2
  clear_value u1 u2
  refine keeps_ite (fun _ => ?_) (fun _ => ?_)
  · apply State.csiBandToken_keeps; assumption
  · assumption

theorem State.csiBandRest_keeps (h : Keeps lk st s0 s) (y1 : ℕ) (y2 : ℕ) (y3 : ℕ) :
    Keeps lk st s0 (State.csiBandRest s y1 y2 y3) := by
  induction y3 generalizing s y1 y2 with
  | zero =>
    rw [State.csiBandRest]
    assumption
  | succ n ih =>
    rw [State.csiBandRest]
    apply ih; apply State.csiBandToken_keeps; assumption

theorem State.csiEnd_keeps (h : Keeps lk False s0 s) (y1 : ℕ) (y2 : ℕ) (y3 : ℕ) :
    Keeps lk False s0 (State.csiEnd s y1 y2 y3) := by
  unfold State.csiEnd
  extract_lets +onlyGivenNames u1
  clear_value u1
  refine keeps_ite (fun _ => ?_) (fun _ => ?_)
  · assumption
  · extract_lets +onlyGivenNames u4 u5 u6 u7
    have ku4 : Keeps lk False s0 u4 := by
      unfold u4; apply State.csiBandRest_keeps; assumption
    clear_value u4 u5 u6
    have ku7 : Keeps lk False s0 u7 := by
      unfold u7; apply State.gmWrites_keeps; assumption
    clear_value u7
    apply State.setCsi_keeps; apply State.token_keeps; assumption

theorem State.csiMeasure_keeps (h : Keeps lk st s0 s) (y1 : ℕ) (y2 : ℕ → ℕ) :
    Keeps lk st s0 (State.csiMeasure s y1 y2) := by
  unfold State.csiMeasure
  refine keeps_foldl _ _ (fun _ _ _ => ?_) ?_
  · refine keeps_ite (fun _ => ?_) (fun _ => ?_)
    · apply State.offerTo_keeps; assumption
    · assumption
  · assumption

theorem State.csiStart_keeps (h : Keeps lk False s0 s) (y1 : ℕ) (y2 : ℕ) (y3 : ℕ) :
    Keeps lk False s0 (State.csiStart s y1 y2 y3) := by
  unfold State.csiStart
  extract_lets +onlyGivenNames u1 u2 u3
  have ku1 : Keeps lk False s0 u1 := by
    unfold u1; apply State.csiEnd_keeps; assumption
  clear_value u1
  have ku2 : Keeps lk False s0 u2 := by
    unfold u2; refine keeps_ite (fun _ => ?_) (fun _ => ?_)
    · apply State.csiMeasure_keeps; assumption
    · assumption
  clear_value u2 u3
  refine keeps_ite (fun _ => ?_) (fun _ => ?_)
  · apply State.setCsi_keeps; apply State.count_keeps; assumption
  · extract_lets +onlyGivenNames u1
    have ku1 : Keeps lk False s0 u1 := by
      unfold u1; apply State.count_keeps; apply State.wr_keeps; assumption
    clear_value u1
    apply State.setCsi_keeps; assumption

theorem State.csiEach_keeps (h : Keeps lk st s0 s) (y1 : ℕ) (y2 : ℕ) (y3 : Option ℕ) (y4 : State → ℕ → State) (hf4 : ∀ s z1, Keeps lk st s0 s → Keeps lk st s0 (y4 s z1)) :
    Keeps lk st s0 (State.csiEach s y1 y2 y3 y4) := by
  unfold State.csiEach
  split
  · apply State.count_keeps; assumption
  · refine keeps_foldl _ _ (fun _ _ _ => ?_) ?_
    · apply hf4; assumption
    · assumption

theorem State.csiLine_keeps (h : Keeps lk False s0 s) (y1 : ℕ) (y2 : ℕ) (y3 : ℕ) (y4 : List ℕ) (y5 : Bool) :
    Keeps lk False s0 (State.csiLine s y1 y2 y3 y4 y5) := by
  unfold State.csiLine
  extract_lets +onlyGivenNames u2 u3 u4 u5
  clear_value u2 u3
  have ku4 : Keeps lk False s0 u4 := by
    unfold u4; refine keeps_ite (fun _ => ?_) (fun _ => ?_)
    · apply State.csiMeasure_keeps; assumption
    · assumption
  clear_value u4 u5
  refine keeps_ite (fun _ => ?_) (fun _ => ?_)
  · apply State.setCsi_keeps; assumption
  · extract_lets +onlyGivenNames u2 u3 u4
    clear_value u2 u3 u4
    refine keeps_ite (fun _ => ?_) (fun _ => ?_)
    · apply State.setCsi_keeps; assumption
    · extract_lets +onlyGivenNames u1 u2 u3
      clear_value u1 u2
      have ku3 : Keeps lk False s0 u3.1 := by
        unfold u3; apply State.gmWrites_keeps; assumption
      clear_value u3
      apply State.setCsi_keeps; assumption

theorem State.csiTimeout_keeps (h : Keeps lk False s0 s) (y1 : ℕ) (y2 : ℕ) :
    Keeps lk False s0 (State.csiTimeout s y1 y2) := by
  unfold State.csiTimeout
  extract_lets +onlyGivenNames u1
  clear_value u1
  refine keeps_ite (fun _ => ?_) (fun _ => ?_)
  · apply State.csiEnd_keeps; assumption
  · assumption

theorem State.setSer_keeps (h : Keeps lk st s0 s) (y1 : ℕ) (y2 : SerSt) :
    Keeps lk st s0 (State.setSer s y1 y2) := by
  unfold State.setSer
  extract_lets +onlyGivenNames u1 u2
  clear_value u1
  have ku2 : Keeps lk st s0 u2 := by
    unfold u2; apply State.wrAll_keeps; assumption
  clear_value u2
  refine keeps_mk ?_ (by simp [shape_modAt]); assumption

theorem State.serTx_keeps (h : Keeps lk st s0 s) (y1 : ℕ) (y2 : ℕ) :
    Keeps lk st s0 (State.serTx s y1 y2) := by
  unfold State.serTx
  extract_lets +onlyGivenNames u1
  clear_value u1
  refine keeps_ite (fun _ => ?_) (fun _ => ?_)
  · apply State.wr_keeps; assumption
  · apply State.setSer_keeps; assumption

theorem State.serRx_keeps (h : Keeps lk st s0 s) (y1 : ℕ) :
    Keeps lk st s0 (State.serRx s y1).2 := by
  unfold State.serRx
  extract_lets +onlyGivenNames u1
  clear_value u1
  split
  · dsimp only; apply State.wr_keeps; assumption
  · dsimp only; apply State.setSer_keeps; assumption

theorem State.serGo_keeps (h : Keeps lk st s0 s) (y1 : ℕ) (y2 : ℕ) :
    Keeps lk st s0 (State.serGo s y1 y2) := by
  unfold State.serGo
  refine keeps_ite (fun _ => ?_) (fun _ => ?_)
  · apply State.setSer_keeps; assumption
  · assumption

theorem State.serDone_keeps (h : Keeps lk st s0 s) (y1 : SerialEvent) :
    Keeps lk st s0 (State.serDone s y1) := by
  unfold State.serDone
  split
  · extract_lets +onlyGivenNames u1 u2
    clear_value u1 u2
    split
    · assumption
    · refine keeps_ite (fun _ => ?_) (fun _ => ?_)
      · assumption
      · extract_lets +onlyGivenNames u3
        have ku3 : Keeps lk st s0 u3 := by
          unfold u3; apply State.setSer_keeps; assumption
        clear_value u3
        refine keeps_mk ?_ rfl; assumption
  · extract_lets +onlyGivenNames u4 u5
    clear_value u4 u5
    split
    · assumption
    · refine keeps_ite (fun _ => ?_) (fun _ => ?_)
      · assumption
      · extract_lets +onlyGivenNames u6
        have ku6 : Keeps lk st s0 u6 := by
          unfold u6; apply State.setSer_keeps; assumption
        clear_value u6
        refine keeps_mk ?_ rfl; assumption
  · extract_lets +onlyGivenNames u7
    clear_value u7
    refine keeps_ite (fun _ => ?_) (fun _ => ?_)
    · assumption
    · extract_lets +onlyGivenNames u8
      have ku8 : Keeps lk st s0 u8 := by
        unfold u8; apply State.flag_keeps; apply State.flag_keeps; apply State.flag_keeps; assumption
      clear_value u8
      refine keeps_ite (fun _ => ?_) (fun _ => ?_)
      · assumption
      · refine keeps_ite (fun _ => ?_) (fun _ => ?_)
        · apply State.wr_keeps; assumption
        · apply State.setSer_keeps; assumption
  · extract_lets +onlyGivenNames u9 u10
    clear_value u9 u10
    split
    · assumption
    · extract_lets +onlyGivenNames u11 u12
      clear_value u11
      have ku12 : Keeps lk st s0 u12 := by
        unfold u12; apply State.flag_keeps; apply State.flag_keeps; apply State.wr_keeps; assumption
      clear_value u12
      refine keeps_ite (fun _ => ?_) (fun _ => ?_)
      · apply State.setSer_keeps; assumption
      · refine keeps_ite (fun _ => ?_) (fun _ => ?_)
        · apply State.setSer_keeps; assumption
        · extract_lets +onlyGivenNames u13
          have ku13 : Keeps lk st s0 u13 := by
            unfold u13; apply State.setSer_keeps; assumption
          clear_value u13
          refine keeps_mk ?_ rfl; assumption
  · extract_lets +onlyGivenNames u14
    clear_value u14
    refine keeps_ite (fun _ => ?_) (fun _ => ?_)
    · apply State.setSer_keeps; apply State.wr_keeps; assumption
    · assumption
  · extract_lets +onlyGivenNames u15
    clear_value u15
    split
    · assumption
    · extract_lets +onlyGivenNames u16
      clear_value u16
      refine keeps_ite (fun _ => ?_) (fun _ => ?_)
      · extract_lets +onlyGivenNames u17
        have ku17 : Keeps lk st s0 u17 := by
          unfold u17; apply State.setSer_keeps; assumption
        clear_value u17
        refine keeps_mk ?_ rfl; assumption
      · extract_lets +onlyGivenNames u18
        have ku18 : Keeps lk st s0 u18 := by
          unfold u18; apply State.setSer_keeps; assumption
        clear_value u18
        refine keeps_mk ?_ rfl; assumption

theorem State.xspiWindow_keeps (h : Keeps lk st s0 s) :
    Keeps lk st s0 (State.xspiWindow s).2 := by
  unfold State.xspiWindow
  split
  · dsimp only; apply State.countWrap_keeps; refine keeps_fst (by assumption) ?_; apply State.reply_keeps
    assumption
  · dsimp only; apply State.countWrap_keeps; apply State.drawn_keeps; refine keeps_fst (by assumption) ?_
    apply State.reply_keeps; assumption

end Sys2Proof.Machine
end

