-- ==== Sys2Proof/Laws/Keeps/LsCore.lean ====
section
/-! SUPPORT. What the operations of Machine/LsCore.lean keep. -/

set_option linter.all false

namespace Sys2Proof.Machine

variable {lk st : Prop} {s0 s t : State}

theorem State.stepTo_keeps (h : Keeps lk st s0 s) (y1 : ℕ) :
    Keeps lk st s0 (State.stepTo s y1) := by
  unfold State.stepTo
  extract_lets +onlyGivenNames u1
  clear_value u1
  refine keeps_mk ?_ rfl; assumption

theorem State.writeStepHi_keeps (h : Keeps lk st s0 s) (y1 : ℕ) :
    Keeps lk st s0 (State.writeStepHi s y1) := by
  unfold State.writeStepHi
  refine keeps_ite (fun _ => ?_) (fun _ => ?_)
  · apply State.wr_keeps; assumption
  · apply State.stepTo_keeps; assumption

theorem State.stepAdv_keeps (h : Keeps lk st s0 s) :
    Keeps lk st s0 (State.stepAdv s) := by
  unfold State.stepAdv
  refine keeps_ite (fun _ => ?_) (fun _ => ?_)
  · apply State.wr_keeps; assumption
  · apply State.stepTo_keeps; assumption

theorem State.genWrite_keeps (h : Keeps lk st s0 s) (y1 : Fld) (y2 : ℕ) (y3 : Bool) :
    Keeps lk st s0 (State.genWrite s y1 y2 y3) := by
  unfold State.genWrite
  refine keeps_ite (fun _ => ?_) (fun _ => ?_)
  · apply State.wr_keeps; assumption
  · extract_lets +onlyGivenNames u4
    have ku4 : Keeps lk st s0 u4 := by
      unfold u4; apply State.wr_keeps; assumption
    clear_value u4
    refine keeps_ite (fun _ => ?_) (fun _ => ?_)
    · assumption
    · extract_lets +onlyGivenNames u7 u8
      clear_value u7
      have ku8 : Keeps lk st s0 u8 := by
        unfold u8; apply State.wr_keeps; assumption
      clear_value u8
      refine keeps_mk ?_ rfl; assumption

theorem State.genDone_keeps (h : Keeps lk st s0 s) :
    Keeps lk st s0 (State.genDone s) := by
  unfold State.genDone
  split
  · assumption
  · extract_lets +onlyGivenNames u5 u6
    clear_value u5
    have ku6 : Keeps lk st s0 u6 := by
      unfold u6; refine keeps_foldl _ _ (fun _ _ _ => ?_) ?_
      · apply State.wr_keeps; assumption
      · apply State.wr_keeps; assumption
    clear_value u6
    refine keeps_mk ?_ rfl; assumption

theorem State.writeLsCtrl_keeps (h : Keeps lk st s0 s) (y1 : ℕ) (y2 : Bool) :
    Keeps lk st s0 (State.writeLsCtrl s y1 y2) := by
  unfold State.writeLsCtrl
  extract_lets +onlyGivenNames u1 u2 u3
  clear_value u1
  have ku2 : Keeps lk st s0 u2 := by
    unfold u2; apply State.wr_keeps; assumption
  clear_value u2
  have ku3 : Keeps lk st s0 u3 := by
    unfold u3; refine keeps_ite (fun _ => ?_) (fun _ => ?_)
    · apply State.wrAll_keeps; assumption
    · assumption
  clear_value u3
  refine keeps_ite (fun _ => ?_) (fun _ => ?_)
  · extract_lets +onlyGivenNames u2
    clear_value u2
    refine keeps_ite (fun _ => ?_) (fun _ => ?_)
    · extract_lets +onlyGivenNames u4
      have ku4 : Keeps lk st s0 u4 := by
        unfold u4; apply State.wr_keeps; assumption
      clear_value u4
      refine keeps_mk ?_ rfl; assumption
    · apply State.wr_keeps; assumption
  · refine keeps_ite (fun _ => ?_) (fun _ => ?_)
    · extract_lets +onlyGivenNames u3
      have ku3 : Keeps lk st s0 u3 := by
        unfold u3; apply State.wr_keeps; assumption
      clear_value u3
      refine keeps_mk ?_ rfl; assumption
    · assumption

theorem State.lsCompare_keeps (h : Keeps lk st s0 s) (y1 : StepSig) (y2 : ℕ) :
    Keeps lk st s0 (State.lsCompare s y1 y2) := by
  unfold State.lsCompare
  refine keeps_ite (fun _ => ?_) (fun _ => ?_)
  · apply State.count_keeps; apply State.sigDrop_keeps; assumption
  · extract_lets +onlyGivenNames u1
    have ku1 : Keeps lk st s0 u1 := by
      unfold u1; refine keeps_mk ?_ rfl; assumption
    clear_value u1
    refine keeps_foldl _ _ (fun _ _ _ => ?_) ?_
    · apply State.wwPut_keeps; assumption
    · assumption

theorem State.stepClose_keeps (h : Keeps lk st s0 s) (y1 : ℕ) (y2 : ℕ) :
    Keeps lk st s0 (State.stepClose s y1 y2) := by
  unfold State.stepClose
  split
  · assumption
  · refine keeps_ite (fun _ => ?_) (fun _ => ?_)
    · assumption
    · extract_lets +onlyGivenNames u5 u6 u7 u8
      clear_value u5 u6
      have ku7 : Keeps lk st s0 u7 := by
        unfold u7; refine keeps_mk ?_ rfl; assumption
      clear_value u7
      have ku8 : Keeps lk st s0 u8 := by
        unfold u8; apply State.wwPut_keeps; assumption
      clear_value u8
      split
      · apply State.lsCompare_keeps; refine keeps_mk ?_ rfl; assumption
      · assumption

theorem State.lsSig_keeps (h : Keeps lk st s0 s) (y1 : ℕ) (y2 : List Byte) :
    Keeps lk st s0 (State.lsSig s y1 y2) := by
  unfold State.lsSig
  extract_lets +onlyGivenNames u1 u2 u3
  clear_value u1 u2 u3
  refine keeps_ite (fun _ => ?_) (fun _ => ?_)
  · assumption
  · split
    · apply State.lsCompare_keeps; assumption
    · refine keeps_mk ?_ rfl; assumption

theorem State.lsRows_keeps (h : Keeps lk st s0 s) (y1 : ℕ) (y2 : ℕ) (y3 : List Byte) :
    Keeps lk st s0 (State.lsRows s y1 y2 y3) := by
  unfold State.lsRows
  extract_lets +onlyGivenNames u1 u2
  clear_value u1 u2
  refine keeps_ite (fun _ => ?_) (fun _ => ?_)
  · assumption
  · split
    · assumption
    · extract_lets +onlyGivenNames u3 u4
      clear_value u3
      refine keeps_ite (fun _ => ?_) (fun _ => ?_)
      · extract_lets +onlyGivenNames u5
        clear_value u5
        apply State.lsRecord_keeps; apply State.sigDrop_keeps; assumption
      · refine keeps_mk ?_ rfl; assumption

theorem State.lsTimeout_keeps (h : Keeps lk st s0 s) (y1 : ℕ) (y2 : ℕ) :
    Keeps lk st s0 (State.lsTimeout s y1 y2) := by
  unfold State.lsTimeout
  split
  · assumption
  · refine keeps_ite (fun _ => ?_) (fun _ => ?_)
    · apply State.lsRecord_keeps; apply State.sigDrop_keeps; assumption
    · assumption

theorem State.lsLost_keeps (h : Keeps lk st s0 s) (y1 : ℕ) :
    Keeps lk st s0 (State.lsLost s y1) := by
  unfold State.lsLost
  refine keeps_ite (fun _ => ?_) (fun _ => ?_)
  · assumption
  · extract_lets +onlyGivenNames u1 u2
    clear_value u1
    have ku2 : Keeps lk st s0 u2 := by
      unfold u2; refine keeps_mk ?_ rfl; assumption
    clear_value u2
    refine keeps_foldl _ _ (fun _ _ _ => ?_) ?_
    · apply State.lsRecord_keeps; assumption
    · assumption

end Sys2Proof.Machine
end

