-- ==== Sys2Proof/Laws/Keeps/WindwayCore.lean ====
section
/-! SUPPORT. What the operations of Machine/WindwayCore.lean keep. -/

set_option linter.all false

namespace Sys2Proof.Machine

variable {lk st : Prop} {s0 s t : State}

theorem State.notice_keeps (h : Keeps lk st s0 s) (y1 : ℕ) (y2 : List Byte) :
    Keeps lk st s0 (State.notice s y1 y2) := by
  unfold State.notice
  apply State.wwBcast_keeps; assumption

theorem State.setLeader_keeps (h : Keeps lk st s0 s) (y1 : ℕ) (y2 : ℕ) :
    Keeps lk st s0 (State.setLeader s y1 y2) := by
  unfold State.setLeader
  apply State.wrAll_keeps; assumption

theorem State.sendLeader_keeps (h : Keeps lk st s0 s) :
    Keeps lk st s0 (State.sendLeader s) := by
  unfold State.sendLeader
  extract_lets +onlyGivenNames u1
  have ku1 : Keeps lk st s0 u1 := by
    unfold u1; apply State.notice_keeps; assumption
  clear_value u1
  refine keeps_mk ?_ rfl; assumption

theorem State.leaderStep_keeps (h : Keeps lk st s0 s) :
    Keeps lk st s0 (State.leaderStep s) := by
  unfold State.leaderStep
  refine keeps_ite (fun _ => ?_) (fun _ => ?_)
  · apply State.setLeader_keeps; assumption
  · assumption

theorem State.sweepTo_keeps (h : Keeps lk st s0 s) (y1 : ℕ) :
    Keeps lk st s0 (State.sweepTo s y1) := by
  unfold State.sweepTo
  apply State.wr_keeps; assumption

theorem State.toMembers_keeps (h : Keeps lk st s0 s) (y1 : ℕ) :
    Keeps lk st s0 (State.toMembers s y1) := by
  unfold State.toMembers
  refine keeps_foldl _ _ (fun _ _ _ => ?_) ?_
  · refine keeps_ite (fun _ => ?_) (fun _ => ?_)
    · assumption
    · apply State.wwSend_keeps; assumption
  · assumption

theorem State.sweepReport_keeps (h : Keeps lk st s0 s) (y1 : ℕ) (y2 : ℕ) :
    Keeps lk st s0 (State.sweepReport s y1 y2) := by
  unfold State.sweepReport
  refine keeps_foldl _ _ (fun _ _ _ => ?_) ?_
  · refine keeps_ite (fun _ => ?_) (fun _ => ?_)
    · extract_lets +onlyGivenNames u1
      have ku1 : Keeps lk st s0 u1 := by
        unfold u1; apply State.wr_keeps; assumption
      clear_value u1
      refine keeps_mk ?_ rfl; assumption
    · assumption
  · assumption

theorem State.sweepBreak_keeps (h : Keeps lk st s0 s) (y1 : ℕ) :
    Keeps lk st s0 (State.sweepBreak s y1) := by
  unfold State.sweepBreak
  refine keeps_ite (fun _ => ?_) (fun _ => ?_)
  · assumption
  · extract_lets +onlyGivenNames u2 u3 u4
    have ku2 : Keeps lk st s0 u2 := by
      unfold u2; apply State.sweepReport_keeps; assumption
    clear_value u2 u3
    have ku4 : Keeps lk st s0 u4 := by
      unfold u4; apply State.wrAll_keeps; assumption
    clear_value u4
    apply State.injStop_keeps; apply State.toMembers_keeps; assumption

theorem State.sweepCutNow_keeps (h : Keeps lk st s0 s) :
    Keeps lk st s0 (State.sweepCutNow s) := by
  unfold State.sweepCutNow
  extract_lets +onlyGivenNames u1
  have ku1 : Keeps lk st s0 u1 := by
    unfold u1; apply State.injStop_keeps; apply State.sweepTo_keeps; assumption
  clear_value u1
  refine keeps_foldl _ _ (fun _ _ _ => ?_) ?_
  · apply State.setCap_keeps; assumption
  · assumption

theorem State.sweepPortLost_keeps (h : Keeps lk st s0 s) (y1 : ℕ) :
    Keeps lk st s0 (State.sweepPortLost s y1) := by
  unfold State.sweepPortLost
  refine keeps_ite (fun _ => ?_) (fun _ => ?_)
  · apply State.sweepBreak_keeps; assumption
  · refine keeps_ite (fun _ => ?_) (fun _ => ?_)
    · apply State.sweepCutNow_keeps; assumption
    · assumption

theorem State.sweepStart_keeps (h : Keeps lk st s0 s) (y1 : ℕ) (y2 : ℕ) (y3 : List Byte) :
    Keeps lk st s0 (State.sweepStart s y1 y2 y3).1 := by
  unfold State.sweepStart
  extract_lets +onlyGivenNames u1
  clear_value u1
  refine keeps_ite1 (fun _ => ?_) (fun _ => ?_)
  · dsimp only; refine keeps_mk ?_ rfl; apply State.wrAll_keeps; assumption
  · dsimp only; assumption

theorem State.sweepArm_keeps (h : Keeps lk st s0 s) (y1 : ℕ) (y2 : ℕ) (y3 : List Byte) :
    Keeps lk st s0 (State.sweepArm s y1 y2 y3) := by
  unfold State.sweepArm
  extract_lets +onlyGivenNames u1
  have ku1 : Keeps lk st s0 u1.1 := by
    unfold u1; apply State.sweepStart_keeps; assumption
  clear_value u1
  refine keeps_ite (fun _ => ?_) (fun _ => ?_)
  · assumption
  · apply State.wwSend_keeps; assumption

theorem State.sweepGo_keeps (h : Keeps lk st s0 s) :
    Keeps lk st s0 (State.sweepGo s) := by
  unfold State.sweepGo
  refine keeps_ite (fun _ => ?_) (fun _ => ?_)
  · assumption
  · extract_lets +onlyGivenNames u1 u2 u3 u4
    clear_value u1
    have ku2 : Keeps lk st s0 u2 := by
      unfold u2; apply State.wrAll_keeps; assumption
    clear_value u2
    have ku3 : Keeps lk st s0 u3 := by
      unfold u3; refine keeps_mk ?_ rfl; assumption
    clear_value u3
    have ku4 : Keeps lk st s0 u4 := by
      unfold u4; refine keeps_foldl _ _ (fun _ _ _ => ?_) ?_
      · apply State.wr_keeps; assumption
      · assumption
    clear_value u4
    extract_lets +onlyGivenNames u2
    have ku2 : Keeps lk st s0 u2.1 := by
      unfold u2; apply State.sweepStart_keeps; apply State.toMembers_keeps; assumption
    clear_value u2
    refine keeps_ite (fun _ => ?_) (fun _ => ?_)
    · assumption
    · apply State.wrAll_keeps; assumption

theorem State.sweepRefused_keeps (h : Keeps lk st s0 s) :
    Keeps lk st s0 (State.sweepRefused s) := by
  unfold State.sweepRefused
  refine keeps_ite (fun _ => ?_) (fun _ => ?_)
  · apply State.wrAll_keeps; assumption
  · assumption

theorem State.sweepS0_keeps (h : Keeps lk st s0 s) :
    Keeps lk st s0 (State.sweepS0 s) := by
  unfold State.sweepS0
  refine keeps_ite (fun _ => ?_) (fun _ => ?_)
  · assumption
  · extract_lets +onlyGivenNames u1 u2 u3 u4
    have ku1 : Keeps lk st s0 u1 := by
      unfold u1; apply State.injGo_keeps; assumption
    clear_value u1 u2
    have ku3 : Keeps lk st s0 u3 := by
      unfold u3; refine keeps_foldl _ _ (fun _ _ _ => ?_) ?_
      · apply State.capStart_keeps; assumption
      · assumption
    clear_value u3
    have ku4 : Keeps lk st s0 u4 := by
      unfold u4; apply State.sweepTo_keeps; assumption
    clear_value u4
    refine keeps_mk ?_ rfl; assumption

theorem State.sweepSyncSend_keeps (h : Keeps lk st s0 s) (y1 : ℕ) :
    Keeps lk st s0 (State.sweepSyncSend s y1) := by
  unfold State.sweepSyncSend
  refine keeps_ite (fun _ => ?_) (fun _ => ?_)
  · apply State.portMod_keeps; apply State.wwPut_keeps; assumption
  · assumption

theorem State.sweepSync_keeps (h : Keeps lk st s0 s) (y1 : ℕ) (y2 : List Byte) :
    Keeps lk st s0 (State.sweepSync s y1 y2) := by
  unfold State.sweepSync
  extract_lets +onlyGivenNames u1
  have ku1 : Keeps lk st s0 u1 := by
    unfold u1; apply State.countWrap_keeps; assumption
  clear_value u1
  refine keeps_ite (fun _ => ?_) (fun _ => ?_)
  · refine keeps_mk ?_ rfl; assumption
  · assumption

theorem State.sweepAckSend_keeps (h : Keeps lk st s0 s) :
    Keeps lk st s0 (State.sweepAckSend s) := by
  unfold State.sweepAckSend
  refine keeps_ite (fun _ => ?_) (fun _ => ?_)
  · assumption
  · refine keeps_ite (fun _ => ?_) (fun _ => ?_)
    · apply State.sweepReport_keeps; assumption
    · refine keeps_ite (fun _ => ?_) (fun _ => ?_)
      · extract_lets +onlyGivenNames u3
        have ku3 : Keeps lk st s0 u3 := by
          unfold u3; apply State.wwSend_keeps; assumption
        clear_value u3
        refine keeps_mk ?_ rfl; assumption
      · assumption

theorem State.sweepAck_keeps (h : Keeps lk st s0 s) (y1 : ℕ) (y2 : List Byte) :
    Keeps lk st s0 (State.sweepAck s y1 y2) := by
  unfold State.sweepAck
  refine keeps_ite (fun _ => ?_) (fun _ => ?_)
  · assumption
  · apply State.sweepReport_keeps; apply State.countWrap_keeps; assumption

theorem State.sweepCut_keeps (h : Keeps lk st s0 s) :
    Keeps lk st s0 (State.sweepCut s) := by
  unfold State.sweepCut
  refine keeps_ite (fun _ => ?_) (fun _ => ?_)
  · apply State.sweepCutNow_keeps; assumption
  · assumption

theorem State.sweepAckMissing_keeps (h : Keeps lk st s0 s) (y1 : ℕ) :
    Keeps lk st s0 (State.sweepAckMissing s y1) := by
  unfold State.sweepAckMissing
  extract_lets +onlyGivenNames u1 u2
  clear_value u1 u2
  refine keeps_ite (fun _ => ?_) (fun _ => ?_)
  · apply State.sweepBreak_keeps; assumption
  · assumption

theorem State.sweepStop_keeps (h : Keeps lk st s0 s) :
    Keeps lk st s0 (State.sweepStop s) := by
  unfold State.sweepStop
  refine keeps_ite (fun _ => ?_) (fun _ => ?_)
  · assumption
  · apply State.injStop_keeps; apply State.sweepTo_keeps; assumption

theorem State.sweepEnd_keeps (h : Keeps lk st s0 s) :
    Keeps lk st s0 (State.sweepEnd s) := by
  unfold State.sweepEnd
  refine keeps_ite (fun _ => ?_) (fun _ => ?_)
  · assumption
  · refine keeps_ite (fun _ => ?_) (fun _ => ?_)
    · refine keeps_mk ?_ rfl; assumption
    · apply State.sweepTo_keeps; assumption

theorem State.sweepAborted_keeps (h : Keeps lk st s0 s) :
    Keeps lk st s0 (State.sweepAborted s) := by
  unfold State.sweepAborted
  refine keeps_ite (fun _ => ?_) (fun _ => ?_)
  · apply State.injAbort_keeps; apply State.sweepTo_keeps; assumption
  · assumption

theorem State.sweepAbort_keeps (h : Keeps lk st s0 s) :
    Keeps lk st s0 (State.sweepAbort s) := by
  unfold State.sweepAbort
  refine keeps_ite (fun _ => ?_) (fun _ => ?_)
  · apply State.sweepAborted_keeps; apply State.toMembers_keeps; assumption
  · assumption

theorem State.sweepPoll_keeps (h : Keeps lk st s0 s) :
    Keeps lk st s0 (State.sweepPoll s) := by
  unfold State.sweepPoll
  extract_lets +onlyGivenNames u1
  clear_value u1
  refine keeps_ite (fun _ => ?_) (fun _ => ?_)
  · refine keeps_ite (fun _ => ?_) (fun _ => ?_)
    · refine keeps_ite (fun _ => ?_) (fun _ => ?_)
      · assumption
      · apply State.sweepTo_keeps; apply State.toMembers_keeps; assumption
    · refine keeps_ite (fun _ => ?_) (fun _ => ?_)
      · apply State.sweepTo_keeps; assumption
      · assumption
  · refine keeps_ite (fun _ => ?_) (fun _ => ?_)
    · apply State.sweepTo_keeps; assumption
    · assumption

theorem State.setGroupFault_keeps (h : Keeps lk st s0 s) :
    Keeps lk st s0 (State.setGroupFault s) := by
  unfold State.setGroupFault
  apply State.sweepBreak_keeps; apply State.wr_keeps; assumption

theorem State.judgeOffset_keeps (h : Keeps lk st s0 s) :
    Keeps lk st s0 (State.judgeOffset s) := by
  unfold State.judgeOffset
  refine keeps_ite (fun _ => ?_) (fun _ => ?_)
  · apply State.setGroupFault_keeps; apply State.notice_keeps; assumption
  · assumption

theorem State.gfClear_keeps (h : Keeps lk st s0 s) :
    Keeps lk st s0 (State.gfClear s) := by
  unfold State.gfClear
  refine keeps_ite (fun _ => ?_) (fun _ => ?_)
  · apply State.wr_keeps; assumption
  · assumption

theorem State.nrClear_keeps (h : Keeps lk st s0 s) :
    Keeps lk st s0 (State.nrClear s) := by
  unfold State.nrClear
  refine keeps_ite (fun _ => ?_) (fun _ => ?_)
  · apply State.sendLeader_keeps; apply State.wr_keeps; assumption
  · assumption

theorem State.restTag_keeps (h : Keeps lk st s0 s) (y1 : ℕ) :
    Keeps lk st s0 (State.restTag s y1) := by
  unfold State.restTag
  refine keeps_mk ?_ rfl; assumption

theorem State.outstEnd_keeps (h : Keeps lk st s0 s) (y1 : Outstanding) (y2 : Status) (y3 : List Byte) :
    Keeps lk st s0 (State.outstEnd s y1 y2 y3) := by
  unfold State.outstEnd
  extract_lets +onlyGivenNames u1
  have ku1 : Keeps lk st s0 u1 := by
    unfold u1; refine keeps_mk ?_ rfl; assumption
  clear_value u1
  refine keeps_ite (fun _ => ?_) (fun _ => ?_)
  · assumption
  · apply State.tokFlush_keeps; refine keeps_mk ?_ rfl; assumption

theorem State.postResult_keeps (h : Keeps lk st s0 s) (y1 : ℕ × ℕ) (y2 : Status) :
    Keeps lk st s0 (State.postResult s y1 y2) := by
  unfold State.postResult
  split
  · assumption
  · refine keeps_mk ?_ rfl; assumption
  · refine keeps_ite (fun _ => ?_) (fun _ => ?_)
    · assumption
    · apply State.count_keeps; assumption
  · refine keeps_ite (fun _ => ?_) (fun _ => ?_)
    · assumption
    · refine keeps_mk ?_ rfl; assumption
  · refine keeps_ite (fun _ => ?_) (fun _ => ?_)
    · assumption
    · refine keeps_mk ?_ rfl; assumption

theorem State.tokEnd_keeps (h : Keeps lk st s0 s) (y1 : TokOut) (y2 : Status) :
    Keeps lk st s0 (State.tokEnd s y1 y2) := by
  unfold State.tokEnd
  apply State.postResult_keeps; refine keeps_mk ?_ rfl; assumption

theorem State.unqueue_keeps (h : Keeps lk st s0 s) (y1 : ℕ) (y2 : ℕ) :
    Keeps lk st s0 (State.unqueue s y1 y2) := by
  unfold State.unqueue
  apply State.portMod_keeps; assumption

theorem State.requestTimeout_keeps (h : Keeps lk st s0 s) (y1 : ℕ) :
    Keeps lk st s0 (State.requestTimeout s y1) := by
  unfold State.requestTimeout
  extract_lets +onlyGivenNames u1
  clear_value u1
  split
  · refine keeps_ite (fun _ => ?_) (fun _ => ?_)
    · assumption
    · refine keeps_ite (fun _ => ?_) (fun _ => ?_)
      · apply State.outstEnd_keeps; apply State.unqueue_keeps; assumption
      · apply State.outstEnd_keeps; apply State.restTag_keeps; assumption
  · split
    · refine keeps_ite (fun _ => ?_) (fun _ => ?_)
      · assumption
      · refine keeps_ite (fun _ => ?_) (fun _ => ?_)
        · apply State.tokEnd_keeps; apply State.unqueue_keeps; assumption
        · apply State.tokEnd_keeps; apply State.restTag_keeps; assumption
    · assumption

theorem State.portDrop_keeps (h : Keeps lk st s0 s) (y1 : ℕ) :
    Keeps lk st s0 (State.portDrop s y1) := by
  unfold State.portDrop
  extract_lets +onlyGivenNames u1 u2
  have ku1 : Keeps lk st s0 u1 := by
    unfold u1; apply State.portMod_keeps; assumption
  clear_value u1
  have ku2 : Keeps lk st s0 u2 := by
    unfold u2; refine keeps_foldl _ _ (fun _ _ _ => ?_) ?_
    · apply State.outstEnd_keeps; apply State.restTag_keeps; assumption
    · assumption
  clear_value u2
  refine keeps_foldl _ _ (fun _ _ _ => ?_) ?_
  · apply State.tokEnd_keeps; apply State.restTag_keeps; assumption
  · assumption

theorem State.lossDrain_keeps (h : Keeps lk st s0 s) (y1 : ℕ) :
    Keeps lk st s0 (State.lossDrain s y1) := by
  unfold State.lossDrain
  extract_lets +onlyGivenNames u1 u2
  clear_value u1 u2
  refine keeps_ite (fun _ => ?_) (fun _ => ?_)
  · apply State.sweepPortLost_keeps; apply State.drainEnter_keeps; assumption
  · assumption

theorem State.portLost_keeps (h : Keeps lk st s0 s) (y1 : ℕ) (y2 : ℕ) :
    Keeps lk st s0 (State.portLost s y1 y2) := by
  unfold State.portLost
  extract_lets +onlyGivenNames u1 u2 u3
  have ku1 : Keeps lk st s0 u1 := by
    unfold u1; apply State.portMod_keeps; apply State.portDrop_keeps; assumption
  clear_value u1
  have ku2 : Keeps lk st s0 u2 := by
    unfold u2; apply State.lsLost_keeps; apply State.count_keeps; apply State.wrAll_keeps; assumption
  clear_value u2
  have ku3 : Keeps lk st s0 u3 := by
    unfold u3; apply State.leaderStep_keeps; apply State.notice_keeps; assumption
  clear_value u3
  apply State.lossDrain_keeps; apply State.sweepPortLost_keeps; assumption

theorem State.linkLoss_keeps (h : Keeps lk st s0 s) (y1 : ℕ) (y2 : Bool) :
    Keeps lk st s0 (State.linkLoss s y1 y2) := by
  unfold State.linkLoss
  refine keeps_ite (fun _ => ?_) (fun _ => ?_)
  · assumption
  · refine keeps_ite (fun _ => ?_) (fun _ => ?_)
    · apply State.portLost_keeps; assumption
    · assumption

theorem State.portEnable_keeps (h : Keeps lk st s0 s) (y1 : ℕ) (y2 : Bool) :
    Keeps lk st s0 (State.portEnable s y1 y2) := by
  unfold State.portEnable
  refine keeps_ite (fun _ => ?_) (fun _ => ?_)
  · refine keeps_ite (fun _ => ?_) (fun _ => ?_)
    · apply State.portMod_keeps; apply State.wr_keeps; assumption
    · assumption
  · refine keeps_ite (fun _ => ?_) (fun _ => ?_)
    · apply State.portLost_keeps; assumption
    · apply State.portDrop_keeps; apply State.wr_keeps; assumption

theorem State.trainTimeout_keeps (h : Keeps lk st s0 s) (y1 : ℕ) :
    Keeps lk st s0 (State.trainTimeout s y1) := by
  unfold State.trainTimeout
  refine keeps_ite (fun _ => ?_) (fun _ => ?_)
  · apply State.portMod_keeps; refine keeps_ite (fun _ => ?_) (fun _ => ?_)
    · apply State.count_keeps; assumption
    · assumption
  · assumption

theorem State.timeReq_keeps (h : Keeps lk st s0 s) (y1 : ℕ) (y2 : ℕ) :
    Keeps lk st s0 (State.timeReq s y1 y2) := by
  unfold State.timeReq
  apply State.wwPut_keeps; assumption

theorem State.toMgmt_keeps (h : Keeps lk st s0 s) (y1 : ℕ) (y2 : ℕ) :
    Keeps lk st s0 (State.toMgmt s y1 y2) := by
  unfold State.toMgmt
  extract_lets +onlyGivenNames u1 u2
  clear_value u1
  have ku2 : Keeps lk st s0 u2 := by
    unfold u2; apply State.portMod_keeps; apply State.wrAll_keeps; assumption
  clear_value u2
  apply State.wwPut_keeps; assumption

theorem State.joinDecide_keeps (h : Keeps lk st s0 s) (y1 : ℕ) :
    Keeps lk st s0 (State.joinDecide s y1) := by
  unfold State.joinDecide
  split
  · extract_lets +onlyGivenNames u2
    clear_value u2
    refine keeps_ite (fun _ => ?_) (fun _ => ?_)
    · assumption
    · extract_lets +onlyGivenNames u6 u7
      clear_value u6
      have ku7 : Keeps lk st s0 u7 := by
        unfold u7; apply State.wr_keeps; assumption
      clear_value u7
      refine keeps_ite (fun _ => ?_) (fun _ => ?_)
      · assumption
      · extract_lets +onlyGivenNames u8 u9 u10 u11
        clear_value u8
        have ku9 : Keeps lk st s0 u9 := by
          unfold u9; apply State.flag_keeps; apply State.wr_keeps; assumption
        clear_value u9
        have ku10 : Keeps lk st s0 u10 := by
          unfold u10; refine keeps_ite (fun _ => ?_) (fun _ => ?_)
          · apply State.setGroupFault_keeps; assumption
          · assumption
        clear_value u10
        have ku11 : Keeps lk st s0 u11 := by
          unfold u11; refine keeps_ite (fun _ => ?_) (fun _ => ?_)
          · apply State.report_keeps; apply State.notice_keeps; assumption
          · assumption
        clear_value u11
        apply State.leaderStep_keeps; assumption
  · assumption

theorem State.joinGot_keeps (h : Keeps lk st s0 s) (y1 : ℕ) (y2 : List Byte) :
    Keeps lk st s0 (State.joinGot s y1 y2) := by
  unfold State.joinGot
  extract_lets +onlyGivenNames u1 u2 u3 u4
  clear_value u1 u2
  have ku3 : Keeps lk st s0 u3 := by
    unfold u3; apply State.portMod_keeps; apply State.wr_keeps; assumption
  clear_value u3
  have ku4 : Keeps lk st s0 u4 := by
    unfold u4; refine keeps_mk ?_ (by simp [shape_modAt]); assumption
  clear_value u4
  refine keeps_ite (fun _ => ?_) (fun _ => ?_)
  · apply State.timeReq_keeps; assumption
  · assumption

theorem State.timeGot_keeps (h : Keeps lk st s0 s) (y1 : ℕ) (y2 : WwMsg) :
    Keeps lk st s0 (State.timeGot s y1 y2) := by
  unfold State.timeGot
  extract_lets +onlyGivenNames u1
  clear_value u1
  refine keeps_ite (fun _ => ?_) (fun _ => ?_)
  · apply State.wwPut_keeps; assumption
  · apply State.wwSend_keeps; assumption

theorem State.timeDone_keeps (h : Keeps lk st s0 s) (y1 : ℕ) (y2 : WwMsg) :
    Keeps lk st s0 (State.timeDone s y1 y2) := by
  unfold State.timeDone
  extract_lets +onlyGivenNames u1 u2 u3 u4 u5
  clear_value u1 u2 u3 u4
  have ku5 : Keeps lk st s0 u5 := by
    unfold u5; refine keeps_ite (fun _ => ?_) (fun _ => ?_)
    · apply State.joinDecide_keeps; apply State.portMod_keeps; refine keeps_ite (fun _ => ?_) (fun _ => ?_)
      · apply State.wr_keeps; assumption
      · assumption
    · assumption
  clear_value u5
  refine keeps_ite (fun _ => ?_) (fun _ => ?_)
  · apply State.judgeOffset_keeps; apply State.wrS_keeps; assumption
  · assumption

theorem State.timeTimer_keeps (h : Keeps lk st s0 s) (y1 : ℕ) :
    Keeps lk st s0 (State.timeTimer s y1) := by
  unfold State.timeTimer
  refine keeps_ite (fun _ => ?_) (fun _ => ?_)
  · assumption
  · extract_lets +onlyGivenNames u1 u2
    have ku1 : Keeps lk st s0 u1 := by
      unfold u1; apply State.portMod_keeps; apply State.timeReq_keeps; assumption
    clear_value u1 u2
    refine keeps_ite (fun _ => ?_) (fun _ => ?_)
    · apply State.timeReq_keeps; assumption
    · assumption

theorem State.syncSend_keeps (h : Keeps lk st s0 s) (y1 : ℕ) :
    Keeps lk st s0 (State.syncSend s y1) := by
  unfold State.syncSend
  refine keeps_ite (fun _ => ?_) (fun _ => ?_)
  · apply State.portMod_keeps; apply State.wwPut_keeps; assumption
  · assumption

theorem State.syncGot_keeps (h : Keeps lk st s0 s) (y1 : ℕ) (y2 : WwMsg) :
    Keeps lk st s0 (State.syncGot s y1 y2) := by
  unfold State.syncGot
  extract_lets +onlyGivenNames u1
  clear_value u1
  refine keeps_ite (fun _ => ?_) (fun _ => ?_)
  · assumption
  · apply State.offer_keeps; assumption

theorem State.leaderGot_keeps (h : Keeps lk st s0 s) (y1 : WwMsg) :
    Keeps lk st s0 (State.leaderGot s y1) := by
  unfold State.leaderGot
  extract_lets +onlyGivenNames u1 u2 u3 u4 u5
  clear_value u1 u2 u3
  have ku4 : Keeps lk st s0 u4 := by
    unfold u4; refine keeps_mk ?_ rfl; assumption
  clear_value u4 u5
  refine keeps_ite (fun _ => ?_) (fun _ => ?_)
  · extract_lets +onlyGivenNames u4
    have ku4 : Keeps lk st s0 u4 := by
      unfold u4; apply State.wr_keeps; apply State.setLeader_keeps; assumption
    clear_value u4
    refine keeps_ite (fun _ => ?_) (fun _ => ?_)
    · apply State.setGroupFault_keeps; assumption
    · assumption
  · assumption

theorem State.leaderTimer_keeps (h : Keeps lk st s0 s) :
    Keeps lk st s0 (State.leaderTimer s) := by
  unfold State.leaderTimer
  refine keeps_ite (fun _ => ?_) (fun _ => ?_)
  · apply State.sendLeader_keeps; assumption
  · assumption

theorem State.leaderTimeout_keeps (h : Keeps lk st s0 s) :
    Keeps lk st s0 (State.leaderTimeout s) := by
  unfold State.leaderTimeout
  refine keeps_ite (fun _ => ?_) (fun _ => ?_)
  · apply State.sendLeader_keeps; apply State.setLeader_keeps; assumption
  · assumption

theorem State.lossNotice_keeps (h : Keeps lk st s0 s) :
    Keeps lk st s0 (State.lossNotice s) := by
  unfold State.lossNotice
  apply State.sweepBreak_keeps; apply State.leaderStep_keeps; assumption

theorem State.safeNotice_keeps (h : Keeps lk st s0 s) :
    Keeps lk st s0 (State.safeNotice s) := by
  unfold State.safeNotice
  refine keeps_ite (fun _ => ?_) (fun _ => ?_)
  · assumption
  · apply State.report_keeps; assumption

theorem State.fwmsgGot_keeps (h : Keeps lk st s0 s) (y1 : List Byte) :
    Keeps lk st s0 (State.fwmsgGot s y1) := by
  unfold State.fwmsgGot
  refine keeps_mk ?_ rfl; assumption

theorem State.fwmsgRead_keeps (h : Keeps lk st s0 s) :
    Keeps lk st s0 (State.fwmsgRead s).2 := by
  unfold State.fwmsgRead
  split
  · dsimp only; assumption
  · dsimp only; refine keeps_mk ?_ rfl; assumption

theorem State.tokPack_keeps (h : Keeps lk st s0 s) (y1 : ℕ) :
    Keeps lk st s0 (State.tokPack s y1) := by
  unfold State.tokPack
  refine keeps_ite (fun _ => ?_) (fun _ => ?_)
  · assumption
  · refine keeps_foldl _ _ (fun _ _ _ => ?_) ?_
    · extract_lets +onlyGivenNames u5
      clear_value u5
      refine keeps_ite (fun _ => ?_) (fun _ => ?_)
      · assumption
      · split
        · assumption
        · extract_lets +onlyGivenNames u1
          have ku1 : Keeps lk st s0 u1 := by
            unfold u1; apply State.wwPut_keeps; assumption
          clear_value u1
          refine keeps_mk ?_ rfl; assumption
    · assumption

theorem State.nextFrame_keeps (h : Keeps lk st s0 s) (y1 : ℕ) :
    Keeps lk st s0 (State.nextFrame s y1).1 := by
  unfold State.nextFrame
  extract_lets +onlyGivenNames u1 u2 u3
  clear_value u1 u2 u3
  split
  · split
    · dsimp only; apply State.setPort_keeps; assumption
    · extract_lets +onlyGivenNames u2 u3
      clear_value u2 u3
      dsimp only; apply State.count_keeps; apply State.setPort_keeps; assumption
  · refine keeps_ite1 (fun _ => ?_) (fun _ => ?_)
    · dsimp only; assumption
    · extract_lets +onlyGivenNames u4 u5 u6 u7 u8
      have ku4 : Keeps lk st s0 u4 := by
        unfold u4; refine keeps_ite (fun _ => ?_) (fun _ => ?_)
        · apply State.tokPack_keeps; assumption
        · assumption
      clear_value u4 u5 u6 u7 u8
      dsimp only; apply State.setPort_keeps; assumption

theorem State.replayTimeout_keeps (h : Keeps lk st s0 s) (y1 : ℕ) :
    Keeps lk st s0 (State.replayTimeout s y1) := by
  unfold State.replayTimeout
  extract_lets +onlyGivenNames u1 u2
  clear_value u1 u2
  refine keeps_ite (fun _ => ?_) (fun _ => ?_)
  · apply State.setPort_keeps; assumption
  · assumption

theorem State.keepalive_keeps (h : Keeps lk st s0 s) (y1 : ℕ) :
    Keeps lk st s0 (State.keepalive s y1) := by
  unfold State.keepalive
  refine keeps_ite (fun _ => ?_) (fun _ => ?_)
  · apply State.portMod_keeps; assumption
  · assumption

end Sys2Proof.Machine
end

