-- ==== Sys2Proof/Laws/Keeps/LifecycleCore.lean ====
section
/-! SUPPORT. What the operations of Machine/LifecycleCore.lean keep. -/

set_option linter.all false

namespace Sys2Proof.Machine

variable {lk st : Prop} {s0 s t : State}

theorem State.seqReset_keeps (h : Keeps lk st s0 s) (y1 : ℕ) :
    Keeps lk st s0 (State.seqReset s y1) := by
  unfold State.seqReset
  extract_lets +onlyGivenNames u1 u2
  clear_value u1
  have ku2 : Keeps lk st s0 u2 := by
    unfold u2; refine keeps_foldl _ _ (fun _ _ _ => ?_) ?_
    · extract_lets +onlyGivenNames u3
      have ku3 : Keeps lk st s0 u3 := by
        unfold u3; apply State.wrAll_keeps; apply State.setCtx_keeps; assumption
      clear_value u3
      refine keeps_foldl _ _ (fun _ _ _ => ?_) ?_
      · apply State.wrAll_keeps; assumption
      · assumption
    · assumption
  clear_value u2
  refine keeps_foldl _ _ (fun _ _ _ => ?_) ?_
  · apply State.wr_keeps; assumption
  · assumption

theorem State.reedOff_keeps (h : Keeps lk st s0 s) (y1 : ℕ) :
    Keeps lk st s0 (State.reedOff s y1) := by
  unfold State.reedOff
  extract_lets +onlyGivenNames u1
  have ku1 : Keeps lk st s0 u1 := by
    unfold u1; apply State.wrAll_keeps; apply State.reedInvalid_keeps; assumption
  clear_value u1
  apply State.setReed_keeps; assumption

theorem State.unitReset_keeps (h : Keeps lk st s0 s) (y1 : ℕ) :
    Keeps lk st s0 (State.unitReset s y1) := by
  unfold State.unitReset
  extract_lets +onlyGivenNames u1 u2
  have ku1 : Keeps lk st s0 u1 := by
    unfold u1; split
    · apply State.seqReset_keeps; assumption
    · assumption
  clear_value u1 u2
  extract_lets +onlyGivenNames u1
  have ku1 : Keeps lk st s0 u1 := by
    unfold u1; refine keeps_ite (fun _ => ?_) (fun _ => ?_)
    · apply State.wrAll_keeps; apply State.setTile_keeps; assumption
    · refine keeps_ite (fun _ => ?_) (fun _ => ?_)
      · refine keeps_foldl _ _ (fun _ _ _ => ?_) ?_
        · apply State.reedOff_keeps; assumption
        · assumption
      · assumption
  clear_value u1
  split
  · apply State.portMod_keeps; assumption
  · assumption

theorem State.quarantine_keeps (h : Keeps lk st s0 s) (y1 : ℕ) :
    Keeps lk st s0 (State.quarantine s y1) := by
  unfold State.quarantine
  apply State.setUnit_keeps; apply State.unitReset_keeps; assumption

theorem State.ulRej_keeps (h : Keeps lk st s0 s) (y1 : ℕ) :
    Keeps lk st s0 (State.ulRej s y1) := by
  unfold State.ulRej
  apply State.setUnit_keeps; assumption

theorem State.drain_keeps (h : Keeps lk st s0 s) (y1 : ℕ) :
    Keeps lk st s0 (State.drain s y1) := by
  unfold State.drain
  refine keeps_ite (fun _ => ?_) (fun _ => ?_)
  · apply State.ulRej_keeps; assumption
  · split
    · apply State.sweepPortLost_keeps; apply State.drainEnter_keeps; assumption
    · apply State.drainEnter_keeps; assumption

theorem State.bist_keeps (h : Keeps lk st s0 s) (y1 : ℕ) :
    Keeps lk st s0 (State.bist s y1) := by
  unfold State.bist
  extract_lets +onlyGivenNames u1
  clear_value u1
  refine keeps_ite (fun _ => ?_) (fun _ => ?_)
  · apply State.setUnit_keeps; assumption
  · apply State.ulRej_keeps; assumption

theorem State.zeroRows_keeps (h : Keeps lk st s0 s) (y1 : ℕ) :
    Keeps lk st s0 (State.zeroRows s y1) := by
  unfold State.zeroRows
  extract_lets +onlyGivenNames u1
  have ku1 : Keeps lk st s0 u1 := by
    unfold u1; apply State.clearRegs_keeps; assumption
  clear_value u1
  refine keeps_mk ?_ rfl; assumption

theorem State.bistLeaves_keeps (h : Keeps lk False s0 s) (y1 : ℕ) :
    Keeps lk False s0 (State.bistLeaves s y1) := by
  unfold State.bistLeaves
  extract_lets +onlyGivenNames u1
  have ku1 : Keeps lk False s0 u1 := by
    unfold u1; refine keeps_ite (fun _ => ?_) (fun _ => ?_)
    · apply State.zeroMem_keeps; assumption
    · assumption
  clear_value u1
  split
  · apply State.zeroRows_keeps; assumption
  · assumption

theorem State.bistResult_keeps (h : Keeps lk False s0 s) (y1 : ℕ) (y2 : Bool) :
    Keeps lk False s0 (State.bistResult s y1 y2) := by
  unfold State.bistResult
  extract_lets +onlyGivenNames u1 u2 u3
  have ku1 : Keeps lk False s0 u1 := by
    unfold u1; apply State.bistLeaves_keeps; assumption
  clear_value u1 u2
  have ku3 : Keeps lk False s0 u3 := by
    unfold u3; apply State.setUnit_keeps; assumption
  clear_value u3
  apply State.reportIf_keeps; assumption

theorem State.admitUnit_keeps (h : Keeps lk st s0 s) (y1 : ℕ) :
    Keeps lk st s0 (State.admitUnit s y1) := by
  unfold State.admitUnit
  extract_lets +onlyGivenNames u2
  clear_value u2
  refine keeps_ite (fun _ => ?_) (fun _ => ?_)
  · extract_lets +onlyGivenNames u1 u2 u3
    clear_value u1
    have ku2 : Keeps lk st s0 u2 := by
      unfold u2; apply State.setUnit_keeps; assumption
    clear_value u2
    have ku3 : Keeps lk st s0 u3 := by
      unfold u3; split
      · refine keeps_foldl _ _ (fun _ _ _ => ?_) ?_
        · apply State.wr_keeps; assumption
        · assumption
      · assumption
    clear_value u3
    refine keeps_ite (fun _ => ?_) (fun _ => ?_)
    · apply State.notice_keeps; assumption
    · assumption
  · apply State.ulRej_keeps; assumption

theorem State.writeUlCmd_keeps (h : Keeps lk st s0 s) (y1 : ℕ) :
    Keeps lk st s0 (State.writeUlCmd s y1) := by
  unfold State.writeUlCmd
  extract_lets +onlyGivenNames u1
  clear_value u1
  refine keeps_ite (fun _ => ?_) (fun _ => ?_)
  · assumption
  · split
    · apply State.drain_keeps; assumption
    · apply State.bist_keeps; assumption
    · apply State.admitUnit_keeps; assumption
    · assumption

theorem State.retryWindowEnd_keeps (h : Keeps lk st s0 s) (y1 : ℕ) :
    Keeps lk st s0 (State.retryWindowEnd s y1) := by
  unfold State.retryWindowEnd
  extract_lets +onlyGivenNames u1
  clear_value u1
  refine keeps_ite (fun _ => ?_) (fun _ => ?_)
  · apply State.setUnit_keeps; assumption
  · assumption

theorem State.drainComplete_keeps (h : Keeps lk st s0 s) (y1 : ℕ) :
    Keeps lk st s0 (State.drainComplete s y1) := by
  unfold State.drainComplete
  refine keeps_ite (fun _ => ?_) (fun _ => ?_)
  · apply State.quarantine_keeps; assumption
  · assumption

theorem State.drainIters_keeps (h : Keeps lk st s0 s) (y1 : ℕ) :
    Keeps lk st s0 (State.drainIters s y1) := by
  unfold State.drainIters
  refine keeps_foldl _ _ (fun _ _ _ => ?_) ?_
  · apply State.count_keeps; apply State.complete_keeps; assumption
  · assumption

theorem State.drainPort_keeps (h : Keeps lk st s0 s) (y1 : ℕ) :
    Keeps lk st s0 (State.drainPort s y1) := by
  unfold State.drainPort
  extract_lets +onlyGivenNames u1
  clear_value u1
  apply State.count_keeps; apply State.portDrop_keeps; assumption

theorem State.drainTimeout_keeps (h : Keeps lk st s0 s) (y1 : ℕ) :
    Keeps lk st s0 (State.drainTimeout s y1) := by
  unfold State.drainTimeout
  extract_lets +onlyGivenNames u1
  clear_value u1
  refine keeps_ite (fun _ => ?_) (fun _ => ?_)
  · extract_lets +onlyGivenNames u1 u2
    have ku1 : Keeps lk st s0 u1 := by
      unfold u1; split
      · apply State.drainIters_keeps; assumption
      · apply State.drainPort_keeps; assumption
      · assumption
    clear_value u1
    have ku2 : Keeps lk st s0 u2 := by
      unfold u2; refine keeps_mk ?_ rfl; assumption
    clear_value u2
    apply State.quarantine_keeps; assumption
  · assumption

theorem State.bistComplete_keeps (h : Keeps lk False s0 s) (y1 : ℕ) (y2 : Bool) :
    Keeps lk False s0 (State.bistComplete s y1 y2) := by
  unfold State.bistComplete
  refine keeps_ite (fun _ => ?_) (fun _ => ?_)
  · apply State.bistResult_keeps; assumption
  · assumption

theorem State.admittingEnd_keeps (h : Keeps lk st s0 s) (y1 : ℕ) :
    Keeps lk st s0 (State.admittingEnd s y1) := by
  unfold State.admittingEnd
  extract_lets +onlyGivenNames u1
  clear_value u1
  refine keeps_ite (fun _ => ?_) (fun _ => ?_)
  · apply State.setUnit_keeps; assumption
  · assumption

theorem State.memZeroGo_keeps (h : Keeps lk st s0 s) (y1 : ℕ) :
    Keeps lk st s0 (State.memZeroGo s y1) := by
  unfold State.memZeroGo
  refine keeps_ite (fun _ => ?_) (fun _ => ?_)
  · apply State.wr_keeps; assumption
  · extract_lets +onlyGivenNames u4
    have ku4 : Keeps lk st s0 u4 := by
      unfold u4; apply State.wr_keeps; assumption
    clear_value u4
    extract_lets +onlyGivenNames u6
    have ku6 : Keeps lk st s0 u6 := by
      unfold u6; refine keeps_mk ?_ rfl; assumption
    clear_value u6
    refine keeps_ite (fun _ => ?_) (fun _ => ?_)
    · assumption
    · apply State.setUnit_keeps; assumption

theorem State.zeroingDone_keeps (h : Keeps lk False s0 s) :
    Keeps lk False s0 (State.zeroingDone s) := by
  unfold State.zeroingDone
  split
  · assumption
  · extract_lets +onlyGivenNames u5
    have ku5 : Keeps lk False s0 u5 := by
      unfold u5; apply State.wrAll_keeps; apply State.zeroMem_keeps; assumption
    clear_value u5
    extract_lets +onlyGivenNames u7
    have ku7 : Keeps lk False s0 u7 := by
      unfold u7; refine keeps_mk ?_ rfl; assumption
    clear_value u7
    refine keeps_ite (fun _ => ?_) (fun _ => ?_)
    · assumption
    · extract_lets +onlyGivenNames u8
      clear_value u8
      apply State.setUnit_keeps; assumption

theorem State.writeMemZero_keeps (h : Keeps lk st s0 s) (y1 : ℕ) :
    Keeps lk st s0 (State.writeMemZero s y1) := by
  unfold State.writeMemZero
  extract_lets +onlyGivenNames u1 u2 u3
  have ku1 : Keeps lk st s0 u1 := by
    unfold u1; apply State.wrAll_keeps; assumption
  clear_value u1
  have ku2 : Keeps lk st s0 u2 := by
    unfold u2; refine keeps_ite (fun _ => ?_) (fun _ => ?_)
    · apply State.wr_keeps; assumption
    · assumption
  clear_value u2
  have ku3 : Keeps lk st s0 u3 := by
    unfold u3; refine keeps_ite (fun _ => ?_) (fun _ => ?_)
    · apply State.wr_keeps; assumption
    · assumption
  clear_value u3
  refine keeps_ite (fun _ => ?_) (fun _ => ?_)
  · apply State.memZeroGo_keeps; assumption
  · assumption

end Sys2Proof.Machine
end

