-- ==== Sys2Proof/Laws/Keeps/FifeCore.lean ====
section
/-! SUPPORT. What the operations of Machine/FifeCore.lean keep. -/

set_option linter.all false

namespace Sys2Proof.Machine

variable {lk st : Prop} {s0 s t : State}

theorem State.setFe_keeps (h : Keeps lk st s0 s) (y1 : ℕ) (y2 : FeSt) :
    Keeps lk st s0 (State.setFe s y1 y2) := by
  unfold State.setFe
  refine keeps_mk ?_ (by simp [shape_modAt]); assumption

theorem State.feMod_keeps (h : Keeps lk st s0 s) (y1 : ℕ) (y2 : FeSt → FeSt) :
    Keeps lk st s0 (State.feMod s y1 y2) := by
  unfold State.feMod
  apply State.setFe_keeps; assumption

theorem State.feLatch_keeps (h : Keeps lk st s0 s) (y1 : ℕ) (y2 : Bool) (y3 : ℕ) (y4 : Bool) :
    Keeps lk st s0 (State.feLatch s y1 y2 y3 y4) := by
  unfold State.feLatch
  extract_lets +onlyGivenNames u1
  clear_value u1
  refine keeps_ite (fun _ => ?_) (fun _ => ?_)
  · assumption
  · apply State.wr_keeps; assumption

theorem State.feLatches_keeps (h : Keeps lk st s0 s) (y1 : ℕ) (y2 : Bool) (y3 : ℕ) (y4 : ℕ) (y5 : ℕ) :
    Keeps lk st s0 (State.feLatches s y1 y2 y3 y4 y5) := by
  unfold State.feLatches
  refine keeps_foldl _ _ (fun _ _ _ => ?_) ?_
  · apply State.feLatch_keeps; assumption
  · assumption

theorem State.fifeSafe_keeps (h : Keeps lk st s0 s) :
    Keeps lk st s0 (State.fifeSafe s) := by
  unfold State.fifeSafe
  extract_lets +onlyGivenNames u1
  have ku1 : Keeps lk st s0 u1 := by
    unfold u1; refine keeps_foldl _ _ (fun _ _ _ => ?_) ?_
    · split
      · apply State.wrAll_keeps; assumption
      · apply State.wrAll_keeps; assumption
      · apply State.wr_keeps; assumption
      · assumption
    · assumption
  clear_value u1
  refine keeps_foldl _ _ (fun _ _ _ => ?_) ?_
  · refine keeps_ite (fun _ => ?_) (fun _ => ?_)
    · apply State.feMod_keeps; apply State.wrAll_keeps; assumption
    · assumption
  · assumption

theorem State.feHaltWith_keeps (h : Keeps lk st s0 s) (y1 : ℕ) (y2 : ℕ) :
    Keeps lk st s0 (State.feHaltWith s y1 y2) := by
  unfold State.feHaltWith
  extract_lets +onlyGivenNames u1 u2
  have ku1 : Keeps lk st s0 u1 := by
    unfold u1; apply State.wrAll_keeps; assumption
  clear_value u1
  have ku2 : Keeps lk st s0 u2 := by
    unfold u2; refine keeps_ite (fun _ => ?_) (fun _ => ?_)
    · apply State.wrAll_keeps; assumption
    · assumption
  clear_value u2
  apply State.feMod_keeps; assumption

theorem State.feStamp_keeps (h : Keeps lk st s0 s) (y1 : ℕ) (y2 : ℕ) (y3 : ℕ) :
    Keeps lk st s0 (State.feStamp s y1 y2 y3) := by
  unfold State.feStamp
  refine keeps_ite (fun _ => ?_) (fun _ => ?_)
  · apply State.wrAll_keeps; assumption
  · assumption

theorem State.feDone_keeps (h : Keeps lk st s0 s) (y1 : ℕ) (y2 : Bool) (y3 : Option ℕ) (y4 : ℕ) :
    Keeps lk st s0 (State.feDone s y1 y2 y3 y4) := by
  unfold State.feDone
  extract_lets +onlyGivenNames u1 u2
  have ku1 : Keeps lk st s0 u1 := by
    unfold u1; split
    · apply State.wr_keeps; assumption
    · assumption
    · apply State.wr_keeps; assumption
  clear_value u1
  have ku2 : Keeps lk st s0 u2 := by
    unfold u2; apply State.feMod_keeps; apply State.wr_keeps; assumption
  clear_value u2
  refine keeps_ite (fun _ => ?_) (fun _ => ?_)
  · apply State.feHaltWith_keeps; assumption
  · assumption

theorem State.feEnd_keeps (h : Keeps lk st s0 s) (y1 : ℕ) (y2 : ℕ) (y3 : Bool) (y4 : Option ℕ) (y5 : ℕ) :
    Keeps lk st s0 (State.feEnd s y1 y2 y3 y4 y5) := by
  unfold State.feEnd
  apply State.feDone_keeps; assumption

theorem State.feStall_keeps (h : Keeps lk st s0 s) (y1 : ℕ) (y2 : ℕ) (y3 : ℕ) (y4 : Bool) (y5 : ℕ) :
    Keeps lk st s0 (State.feStall s y1 y2 y3 y4 y5) := by
  unfold State.feStall
  apply State.feMod_keeps; apply State.wr_keeps; assumption

theorem State.feNop_keeps (h : Keeps lk st s0 s) (y1 : ℕ) (y2 : ℕ) (y3 : Bool) (y4 : ℕ) :
    Keeps lk st s0 (State.feNop s y1 y2 y3 y4) := by
  unfold State.feNop
  apply State.feEnd_keeps; apply State.feStamp_keeps; assumption

theorem State.feBr_keeps (h : Keeps lk st s0 s) (y1 : ℕ) (y2 : ℕ) (y3 : Bool) (y4 : ℕ) :
    Keeps lk st s0 (State.feBr s y1 y2 y3 y4) := by
  unfold State.feBr
  extract_lets +onlyGivenNames u1
  clear_value u1
  apply State.feEnd_keeps; apply State.feStamp_keeps; assumption

theorem State.feLoop_keeps (h : Keeps lk st s0 s) (y1 : ℕ) (y2 : ℕ) (y3 : Bool) (y4 : ℕ) :
    Keeps lk st s0 (State.feLoop s y1 y2 y3 y4) := by
  unfold State.feLoop
  extract_lets +onlyGivenNames u1 u2
  clear_value u1 u2
  apply State.feEnd_keeps; apply State.feStamp_keeps; apply State.wr_keeps; assumption

theorem State.feWaitDone_keeps (h : Keeps lk st s0 s) (y1 : ℕ) (y2 : ℕ) (y3 : Bool) (y4 : ℕ) (y5 : ℕ) :
    Keeps lk st s0 (State.feWaitDone s y1 y2 y3 y4 y5) := by
  unfold State.feWaitDone
  apply State.feDone_keeps; apply State.feStamp_keeps; assumption

theorem State.feWait_keeps (h : Keeps lk st s0 s) (y1 : ℕ) (y2 : ℕ) (y3 : Bool) (y4 : ℕ) :
    Keeps lk st s0 (State.feWait s y1 y2 y3 y4) := by
  unfold State.feWait
  extract_lets +onlyGivenNames u1 u2
  have ku1 : Keeps lk st s0 u1 := by
    unfold u1; apply State.wr_keeps; assumption
  clear_value u1 u2
  split
  · refine keeps_ite (fun _ => ?_) (fun _ => ?_)
    · apply State.feWaitDone_keeps; assumption
    · apply State.feStall_keeps; assumption
  · apply State.feStall_keeps; apply State.feMod_keeps; assumption
  · refine keeps_ite (fun _ => ?_) (fun _ => ?_)
    · apply State.feWaitDone_keeps; apply State.wr_keeps; assumption
    · apply State.feStall_keeps; assumption
  · apply State.feStall_keeps; assumption

theorem State.feWaitTest_keeps (h : Keeps lk st s0 s) (y1 : ℕ) :
    Keeps lk st s0 (State.feWaitTest s y1) := by
  unfold State.feWaitTest
  split
  · assumption
  · extract_lets +onlyGivenNames u3 u4
    clear_value u3 u4
    refine keeps_ite (fun _ => ?_) (fun _ => ?_)
    · assumption
    · split
      · refine keeps_ite (fun _ => ?_) (fun _ => ?_)
        · apply State.feWaitDone_keeps; assumption
        · assumption
      · refine keeps_ite (fun _ => ?_) (fun _ => ?_)
        · apply State.feWaitDone_keeps; assumption
        · apply State.feMod_keeps; assumption
      · refine keeps_ite (fun _ => ?_) (fun _ => ?_)
        · apply State.feWaitDone_keeps; assumption
        · assumption
      · split
        · refine keeps_ite (fun _ => ?_) (fun _ => ?_)
          · apply State.feWaitDone_keeps; assumption
          · assumption
        · assumption

theorem State.feTimeout_keeps (h : Keeps lk st s0 s) (y1 : ℕ) :
    Keeps lk st s0 (State.feTimeout s y1) := by
  unfold State.feTimeout
  split
  · assumption
  · extract_lets +onlyGivenNames u2; refine keeps_ite (fun _ => ?_) (fun _ => ?_)
    · assumption
    · extract_lets +onlyGivenNames u5 u6
      clear_value u6
      apply State.feWaitDone_keeps; apply State.wr_keeps; assumption

theorem State.fePhase_keeps (h : Keeps lk st s0 s) (y1 : ℕ) (y2 : ℕ) (y3 : Bool) :
    Keeps lk st s0 (State.fePhase s y1 y2 y3) := by
  unfold State.fePhase
  refine keeps_ite (fun _ => ?_) (fun _ => ?_)
  · assumption
  · extract_lets +onlyGivenNames u1
    clear_value u1
    refine keeps_foldl _ _ (fun _ _ _ => ?_) ?_
    · split
      · refine keeps_ite (fun _ => ?_) (fun _ => ?_)
        · apply State.feMod_keeps; assumption
        · assumption
      · assumption
    · assumption

theorem State.feCrc_keeps (h : Keeps lk st s0 s) (y1 : ℕ) (y2 : List ℕ) :
    Keeps lk st s0 (State.feCrc s y1 y2) := by
  unfold State.feCrc
  extract_lets +onlyGivenNames u1
  clear_value u1
  apply State.feMod_keeps; assumption

theorem State.feShin_keeps (h : Keeps lk st s0 s) (y1 : ℕ) (y2 : ℕ) (y3 : Bool) (y4 : ℕ) :
    Keeps lk st s0 (State.feShin s y1 y2 y3 y4) := by
  unfold State.feShin
  extract_lets +onlyGivenNames u1 u2 u3 u4 u5 u6 u7 u8
  clear_value u1 u2 u3 u4 u5 u6
  have ku7 : Keeps lk st s0 u7 := by
    unfold u7; apply State.feMod_keeps; apply State.wr_keeps; assumption
  clear_value u7
  have ku8 : Keeps lk st s0 u8 := by
    unfold u8; refine keeps_ite (fun _ => ?_) (fun _ => ?_)
    · apply State.feCrc_keeps; assumption
    · assumption
  clear_value u8
  apply State.feEnd_keeps; apply State.feStamp_keeps; assumption

theorem State.feShout_keeps (h : Keeps lk st s0 s) (y1 : ℕ) (y2 : ℕ) (y3 : Bool) (y4 : ℕ) :
    Keeps lk st s0 (State.feShout s y1 y2 y3 y4) := by
  unfold State.feShout
  extract_lets +onlyGivenNames u1 u2 u3 u4 u5 u6 u7
  clear_value u1 u2 u3 u4
  have ku5 : Keeps lk st s0 u5 := by
    unfold u5; apply State.feMod_keeps; apply State.wr_keeps; assumption
  clear_value u5 u6
  have ku7 : Keeps lk st s0 u7 := by
    unfold u7; split
    · apply State.feLatches_keeps; assumption
    · apply State.wr_keeps; assumption
    · apply State.wr_keeps; assumption
    · assumption
    · apply State.feLatches_keeps; assumption
    · apply State.feMod_keeps; apply State.wr_keeps; assumption
  clear_value u7
  apply State.feEnd_keeps; apply State.feStamp_keeps; assumption

theorem State.feCapClear_keeps (h : Keeps lk st s0 s) (y1 : ℕ) :
    Keeps lk st s0 (State.feCapClear s y1) := by
  unfold State.feCapClear
  apply State.feMod_keeps; apply State.wr_keeps; assumption

theorem State.feRxPut_keeps (h : Keeps lk st s0 s) (y1 : ℕ) :
    Keeps lk st s0 (State.feRxPut s y1) := by
  unfold State.feRxPut
  extract_lets +onlyGivenNames u1
  clear_value u1
  apply State.feCapClear_keeps; apply State.wr_keeps; apply State.feMod_keeps; assumption

theorem State.fePushRx_keeps (h : Keeps lk st s0 s) (y1 : ℕ) (y2 : ℕ) (y3 : Bool) (y4 : ℕ) :
    Keeps lk st s0 (State.fePushRx s y1 y2 y3 y4) := by
  unfold State.fePushRx
  refine keeps_ite (fun _ => ?_) (fun _ => ?_)
  · apply State.feEnd_keeps; apply State.feStamp_keeps; assumption
  · refine keeps_ite (fun _ => ?_) (fun _ => ?_)
    · apply State.feEnd_keeps; apply State.feStamp_keeps; apply State.feRxPut_keeps; assumption
    · refine keeps_ite (fun _ => ?_) (fun _ => ?_)
      · apply State.feStall_keeps; assumption
      · apply State.feEnd_keeps; apply State.feStamp_keeps; apply State.count_keeps; apply State.wr_keeps
        apply State.feCapClear_keeps; assumption

theorem State.fePushDrone_keeps (h : Keeps lk st s0 s) (y1 : ℕ) (y2 : ℕ) (y3 : Bool) (y4 : ℕ) :
    Keeps lk st s0 (State.fePushDrone s y1 y2 y3 y4) := by
  unfold State.fePushDrone
  extract_lets +onlyGivenNames u1
  have ku1 : Keeps lk st s0 u1 := by
    unfold u1; apply State.feStamp_keeps; assumption
  clear_value u1
  refine keeps_ite (fun _ => ?_) (fun _ => ?_)
  · apply State.feEnd_keeps; assumption
  · extract_lets +onlyGivenNames u2 u3 u4
    clear_value u2 u3
    have ku4 : Keeps lk st s0 u4 := by
      unfold u4; refine keeps_foldl _ _ (fun _ _ _ => ?_) ?_
      · apply State.offerTo_keeps; assumption
      · assumption
    clear_value u4
    apply State.feEnd_keeps; apply State.feCapClear_keeps; apply State.wr_keeps; assumption

theorem State.fePushPcnt_keeps (h : Keeps lk st s0 s) (y1 : ℕ) (y2 : ℕ) (y3 : Bool) (y4 : ℕ) :
    Keeps lk st s0 (State.fePushPcnt s y1 y2 y3 y4) := by
  unfold State.fePushPcnt
  extract_lets +onlyGivenNames u1
  have ku1 : Keeps lk st s0 u1 := by
    unfold u1; apply State.feStamp_keeps; assumption
  clear_value u1
  refine keeps_ite (fun _ => ?_) (fun _ => ?_)
  · apply State.feEnd_keeps; assumption
  · apply State.feEnd_keeps; apply State.feCapClear_keeps; apply State.wr_keeps; apply State.wr_keeps
    assumption

theorem State.feEmt_keeps (h : Keeps lk st s0 s) (y1 : ℕ) (y2 : ℕ) :
    Keeps lk st s0 (State.feEmt s y1 y2) := by
  unfold State.feEmt
  apply State.feMod_keeps; apply State.wr_keeps; assumption

theorem State.feTxTake_keeps (h : Keeps lk st s0 s) (y1 : ℕ) :
    Keeps lk st s0 (State.feTxTake s y1) := by
  unfold State.feTxTake
  split
  · apply State.feEmt_keeps; apply State.wr_keeps; apply State.feMod_keeps; assumption
  · assumption

theorem State.fePull_keeps (h : Keeps lk st s0 s) (y1 : ℕ) (y2 : ℕ) (y3 : Bool) (y4 : ℕ) :
    Keeps lk st s0 (State.fePull s y1 y2 y3 y4) := by
  unfold State.fePull
  extract_lets +onlyGivenNames u1
  clear_value u1
  refine keeps_ite (fun _ => ?_) (fun _ => ?_)
  · apply State.feEnd_keeps; apply State.feStamp_keeps; assumption
  · refine keeps_ite (fun _ => ?_) (fun _ => ?_)
    · apply State.feEnd_keeps; apply State.feStamp_keeps; apply State.feTxTake_keeps; assumption
    · refine keeps_ite (fun _ => ?_) (fun _ => ?_)
      · apply State.feStall_keeps; assumption
      · apply State.feEnd_keeps; apply State.feStamp_keeps; apply State.wr_keeps; apply State.feEmt_keeps
        assumption

theorem State.feFifoEnd_keeps (h : Keeps lk st s0 s) (y1 : ℕ) :
    Keeps lk st s0 (State.feFifoEnd s y1) := by
  unfold State.feFifoEnd
  extract_lets +onlyGivenNames u1
  clear_value u1
  split
  · assumption
  · refine keeps_ite (fun _ => ?_) (fun _ => ?_)
    · extract_lets +onlyGivenNames u3
      clear_value u3
      refine keeps_ite (fun _ => ?_) (fun _ => ?_)
      · apply State.feEnd_keeps; apply State.feStamp_keeps; apply State.feRxPut_keeps; assumption
      · assumption
    · refine keeps_ite (fun _ => ?_) (fun _ => ?_)
      · split
        · extract_lets +onlyGivenNames u1
          clear_value u1
          refine keeps_ite (fun _ => ?_) (fun _ => ?_)
          · apply State.feEnd_keeps; apply State.feStamp_keeps; apply State.feTxTake_keeps; assumption
          · assumption
        · assumption
      · assumption

theorem State.feXfer_keeps (h : Keeps lk st s0 s) (y1 : ℕ) (y2 : ℕ) (y3 : Bool) (y4 : ℕ) :
    Keeps lk st s0 (State.feXfer s y1 y2 y3 y4) := by
  unfold State.feXfer
  extract_lets +onlyGivenNames u1 u2 u3
  clear_value u1 u2
  have ku3 : Keeps lk st s0 u3 := by
    unfold u3; split
    · apply State.feLatches_keeps; assumption
    · apply State.wr_keeps; assumption
    · apply State.wr_keeps; assumption
    · apply State.feMod_keeps; apply State.wr_keeps; assumption
    · apply State.feEmt_keeps; assumption
    · apply State.wr_keeps; assumption
    · apply State.feMod_keeps; assumption
    · apply State.feLatches_keeps; assumption
  clear_value u3
  apply State.feEnd_keeps; apply State.feStamp_keeps; assumption

theorem State.feLoad_keeps (h : Keeps lk st s0 s) (y1 : ℕ) (y2 : ℕ) (y3 : Bool) (y4 : ℕ) :
    Keeps lk st s0 (State.feLoad s y1 y2 y3 y4) := by
  unfold State.feLoad
  extract_lets +onlyGivenNames u1 u2
  clear_value u1
  have ku2 : Keeps lk st s0 u2 := by
    unfold u2; split
    · apply State.wr_keeps; assumption
    · apply State.wr_keeps; assumption
    · apply State.feLatches_keeps; assumption
    · apply State.feLatches_keeps; assumption
    · apply State.feLatches_keeps; assumption
    · apply State.feLatches_keeps; assumption
    · apply State.wr_keeps; assumption
  clear_value u2
  apply State.feEnd_keeps; apply State.feStamp_keeps; assumption

theorem State.fePinOp_keeps (h : Keeps lk st s0 s) (y1 : ℕ) (y2 : ℕ) (y3 : Bool) (y4 : ℕ) :
    Keeps lk st s0 (State.fePinOp s y1 y2 y3 y4) := by
  unfold State.fePinOp
  extract_lets +onlyGivenNames u1 u2 u3 u4
  clear_value u1 u2 u3 u4
  apply State.feEnd_keeps; apply State.feStamp_keeps; apply State.feLatch_keeps; assumption

theorem State.feSetTgt_keeps (h : Keeps lk st s0 s) (y1 : ℕ) (y2 : ℕ) :
    Keeps lk st s0 (State.feSetTgt s y1 y2) := by
  unfold State.feSetTgt
  apply State.wrAll_keeps; assumption

theorem State.feTgt_keeps (h : Keeps lk st s0 s) (y1 : ℕ) (y2 : ℕ) (y3 : Bool) (y4 : ℕ) :
    Keeps lk st s0 (State.feTgt s y1 y2 y3 y4) := by
  unfold State.feTgt
  extract_lets +onlyGivenNames u1
  clear_value u1
  apply State.feEnd_keeps; apply State.feStamp_keeps; apply State.feSetTgt_keeps; assumption

theorem State.feSigErr_keeps (h : Keeps lk st s0 s) (y1 : ℕ) (y2 : ℕ) (y3 : Bool) (y4 : ℕ) :
    Keeps lk st s0 (State.feSigErr s y1 y2 y3 y4) := by
  unfold State.feSigErr
  apply State.feEnd_keeps; apply State.feStamp_keeps; apply State.count_keeps; apply State.wrAll_keeps
  assumption

theorem State.feSigIrq_keeps (h : Keeps lk st s0 s) (y1 : ℕ) (y2 : ℕ) (y3 : Bool) (y4 : ℕ) :
    Keeps lk st s0 (State.feSigIrq s y1 y2 y3 y4) := by
  unfold State.feSigIrq
  apply State.feEnd_keeps; apply State.feStamp_keeps; apply State.wr_keeps; assumption

theorem State.feSigToken_keeps (h : Keeps lk st s0 s) (y1 : ℕ) (y2 : ℕ) (y3 : Bool) (y4 : ℕ) :
    Keeps lk st s0 (State.feSigToken s y1 y2 y3 y4) := by
  unfold State.feSigToken
  extract_lets +onlyGivenNames u1
  have ku1 : Keeps lk st s0 u1 := by
    unfold u1; refine keeps_ite (fun _ => ?_) (fun _ => ?_)
    · apply State.token_keeps; assumption
    · assumption
  clear_value u1
  apply State.feEnd_keeps; apply State.feStamp_keeps; assumption

theorem State.feSigHalt_keeps (h : Keeps lk st s0 s) (y1 : ℕ) (y2 : ℕ) (y3 : Bool) (y4 : ℕ) :
    Keeps lk st s0 (State.feSigHalt s y1 y2 y3 y4) := by
  unfold State.feSigHalt
  extract_lets +onlyGivenNames u1
  have ku1 : Keeps lk st s0 u1 := by
    unfold u1; apply State.feEnd_keeps; apply State.feStamp_keeps; assumption
  clear_value u1
  refine keeps_ite (fun _ => ?_) (fun _ => ?_)
  · assumption
  · apply State.feHaltWith_keeps; assumption

theorem State.feSigClrstale_keeps (h : Keeps lk st s0 s) (y1 : ℕ) (y2 : ℕ) (y3 : Bool) (y4 : ℕ) :
    Keeps lk st s0 (State.feSigClrstale s y1 y2 y3 y4) := by
  unfold State.feSigClrstale
  apply State.feEnd_keeps; apply State.feStamp_keeps; apply State.wr_keeps; assumption

theorem State.feSigCrcrst_keeps (h : Keeps lk st s0 s) (y1 : ℕ) (y2 : ℕ) (y3 : Bool) (y4 : ℕ) :
    Keeps lk st s0 (State.feSigCrcrst s y1 y2 y3 y4) := by
  unfold State.feSigCrcrst
  apply State.feEnd_keeps; apply State.feStamp_keeps; apply State.feMod_keeps; assumption

theorem State.feExec_keeps (h : Keeps lk st s0 s) (y1 : ℕ) (y2 : ℕ) (y3 : Bool) (y4 : ℕ) :
    Keeps lk st s0 (State.feExec s y1 y2 y3 y4) := by
  unfold State.feExec
  split
  · apply State.feNop_keeps; assumption
  · apply State.feBr_keeps; assumption
  · apply State.feLoop_keeps; assumption
  · apply State.feWait_keeps; assumption
  · apply State.feShin_keeps; assumption
  · apply State.feShout_keeps; assumption
  · split
    · apply State.fePushRx_keeps; assumption
    · apply State.fePushDrone_keeps; assumption
    · apply State.fePushPcnt_keeps; assumption
  · apply State.fePull_keeps; assumption
  · apply State.feXfer_keeps; assumption
  · apply State.feLoad_keeps; assumption
  · apply State.fePinOp_keeps; assumption
  · apply State.feTgt_keeps; assumption
  · split
    · apply State.feSigErr_keeps; assumption
    · apply State.feSigIrq_keeps; assumption
    · apply State.feSigToken_keeps; assumption
    · apply State.feSigHalt_keeps; assumption
    · apply State.feSigClrstale_keeps; assumption
    · apply State.feSigCrcrst_keeps; assumption

theorem State.feInjTake_keeps (h : Keeps lk st s0 s) (y1 : ℕ) (y2 : Bool) :
    Keeps lk st s0 (State.feInjTake s y1 y2) := by
  unfold State.feInjTake
  refine keeps_ite (fun _ => ?_) (fun _ => ?_)
  · apply State.feMod_keeps; apply State.wr_keeps; assumption
  · assumption

theorem State.feIssue_keeps (h : Keeps lk st s0 s) (y1 : ℕ) (y2 : ℕ → Bool) (y3 : State → ℕ → ℕ → Bool → ℕ → State) (hf3 : ∀ s z1 z2 z3 z4, Keeps lk st s0 s → Keeps lk st s0 (y3 s z1 z2 z3 z4)) :
    Keeps lk st s0 (State.feIssue s y1 y2 y3) := by
  unfold State.feIssue
  split
  · refine keeps_ite (fun _ => ?_) (fun _ => ?_)
    · apply hf3; apply State.feInjTake_keeps; assumption
    · assumption
  · assumption

theorem State.feIllegal_keeps (h : Keeps lk st s0 s) (y1 : ℕ) :
    Keeps lk st s0 (State.feIllegal s y1) := by
  unfold State.feIllegal
  split
  · refine keeps_ite (fun _ => ?_) (fun _ => ?_)
    · assumption
    · apply State.feHaltWith_keeps; apply State.feInjTake_keeps; assumption
  · assumption

theorem State.feParity_keeps (h : Keeps lk st s0 s) (y1 : ℕ) :
    Keeps lk st s0 (State.feParity s y1) := by
  unfold State.feParity
  split
  · apply State.report_keeps; apply State.feHaltWith_keeps; assumption
  · assumption

theorem State.feEnable_keeps (h : Keeps lk st s0 s) (y1 : ℕ) (y2 : Bool) :
    Keeps lk st s0 (State.feEnable s y1 y2) := by
  unfold State.feEnable
  refine keeps_ite (fun _ => ?_) (fun _ => ?_)
  · refine keeps_ite (fun _ => ?_) (fun _ => ?_)
    · assumption
    · apply State.setFe_keeps; apply State.wrAll_keeps; assumption
  · apply State.feMod_keeps; apply State.wrAll_keeps; assumption

theorem State.feHalt_keeps (h : Keeps lk st s0 s) (y1 : ℕ) :
    Keeps lk st s0 (State.feHalt s y1) := by
  unfold State.feHalt
  refine keeps_ite (fun _ => ?_) (fun _ => ?_)
  · apply State.feHaltWith_keeps; assumption
  · assumption

theorem State.feStep_keeps (h : Keeps lk st s0 s) (y1 : ℕ) :
    Keeps lk st s0 (State.feStep s y1) := by
  unfold State.feStep
  refine keeps_ite (fun _ => ?_) (fun _ => ?_)
  · assumption
  · extract_lets +onlyGivenNames u1
    clear_value u1
    refine keeps_ite (fun _ => ?_) (fun _ => ?_)
    · apply State.feExec_keeps; apply State.feMod_keeps; apply State.wr_keeps; assumption
    · apply State.feHaltWith_keeps; assumption

theorem State.writeFeCtrl_keeps (h : Keeps lk st s0 s) (y1 : ℕ) (y2 : ℕ) :
    Keeps lk st s0 (State.writeFeCtrl s y1 y2) := by
  unfold State.writeFeCtrl
  extract_lets +onlyGivenNames u1 u2 u3 u4 u5
  clear_value u1
  have ku2 : Keeps lk st s0 u2 := by
    unfold u2; apply State.wrAll_keeps; assumption
  clear_value u2
  have ku3 : Keeps lk st s0 u3 := by
    unfold u3; refine keeps_ite (fun _ => ?_) (fun _ => ?_)
    · apply State.wr_keeps; assumption
    · assumption
  clear_value u3
  have ku4 : Keeps lk st s0 u4 := by
    unfold u4; refine keeps_ite (fun _ => ?_) (fun _ => ?_)
    · assumption
    · apply State.feEnable_keeps; assumption
  clear_value u4
  have ku5 : Keeps lk st s0 u5 := by
    unfold u5; refine keeps_ite (fun _ => ?_) (fun _ => ?_)
    · apply State.feHalt_keeps; assumption
    · assumption
  clear_value u5
  refine keeps_ite (fun _ => ?_) (fun _ => ?_)
  · apply State.feStep_keeps; assumption
  · assumption

theorem State.feGo_keeps (h : Keeps lk st s0 s) (y1 : ℕ) :
    Keeps lk st s0 (State.feGo s y1) := by
  unfold State.feGo
  refine keeps_foldl _ _ (fun _ _ _ => ?_) ?_
  · refine keeps_ite (fun _ => ?_) (fun _ => ?_)
    · apply State.feMod_keeps; apply State.wr_keeps; assumption
    · assumption
  · assumption

theorem State.feClkrst_keeps (h : Keeps lk st s0 s) (y1 : ℕ) :
    Keeps lk st s0 (State.feClkrst s y1) := by
  unfold State.feClkrst
  refine keeps_foldl _ _ (fun _ _ _ => ?_) ?_
  · refine keeps_ite (fun _ => ?_) (fun _ => ?_)
    · apply State.feMod_keeps; assumption
    · assumption
  · assumption

theorem State.feAbandon_keeps (h : Keeps lk st s0 s) (y1 : ℕ) :
    Keeps lk st s0 (State.feAbandon s y1) := by
  unfold State.feAbandon
  split
  · assumption
  · extract_lets +onlyGivenNames u1 u2
    clear_value u1
    have ku2 : Keeps lk st s0 u2 := by
      unfold u2; refine keeps_ite (fun _ => ?_) (fun _ => ?_)
      · assumption
      · apply State.wr_keeps; assumption
    clear_value u2
    apply State.feMod_keeps; apply State.wr_keeps; assumption

theorem State.feInject_keeps (h : Keeps lk st s0 s) (y1 : ℕ) (y2 : ℕ) :
    Keeps lk st s0 (State.feInject s y1 y2) := by
  unfold State.feInject
  refine keeps_ite (fun _ => ?_) (fun _ => ?_)
  · apply State.wr_keeps; assumption
  · refine keeps_ite (fun _ => ?_) (fun _ => ?_)
    · assumption
    · extract_lets +onlyGivenNames u3
      have ku3 : Keeps lk st s0 u3 := by
        unfold u3; refine keeps_ite (fun _ => ?_) (fun _ => ?_)
        · apply State.feAbandon_keeps; assumption
        · assumption
      clear_value u3
      refine keeps_ite (fun _ => ?_) (fun _ => ?_)
      · refine keeps_ite (fun _ => ?_) (fun _ => ?_)
        · apply State.feExec_keeps; assumption
        · apply State.feHaltWith_keeps; assumption
      · apply State.feMod_keeps; apply State.wr_keeps; assumption

theorem State.feInjHalted_keeps (h : Keeps lk st s0 s) (y1 : ℕ) :
    Keeps lk st s0 (State.feInjHalted s y1) := by
  unfold State.feInjHalted
  split
  · refine keeps_ite (fun _ => ?_) (fun _ => ?_)
    · extract_lets +onlyGivenNames u2
      have ku2 : Keeps lk st s0 u2 := by
        unfold u2; apply State.feInjTake_keeps; assumption
      clear_value u2
      refine keeps_ite (fun _ => ?_) (fun _ => ?_)
      · apply State.feExec_keeps; assumption
      · apply State.feHaltWith_keeps; assumption
    · assumption
  · assumption

theorem State.feTxWrite_keeps (h : Keeps lk st s0 s) (y1 : ℕ) (y2 : ℕ) :
    Keeps lk st s0 (State.feTxWrite s y1 y2) := by
  unfold State.feTxWrite
  extract_lets +onlyGivenNames u1
  clear_value u1
  refine keeps_ite (fun _ => ?_) (fun _ => ?_)
  · apply State.wr_keeps; assumption
  · apply State.wr_keeps; apply State.setFe_keeps; assumption

theorem State.feRxRead_keeps (h : Keeps lk st s0 s) (y1 : ℕ) :
    Keeps lk st s0 (State.feRxRead s y1).2 := by
  unfold State.feRxRead
  extract_lets +onlyGivenNames u1
  clear_value u1
  split
  · dsimp only; apply State.wr_keeps; apply State.setFe_keeps; assumption
  · dsimp only; apply State.wr_keeps; assumption

theorem State.writeFeImem_keeps (h : Keeps lk st s0 s) (y1 : ℕ) (y2 : ℕ) (y3 : ℕ) :
    Keeps lk st s0 (State.writeFeImem s y1 y2 y3) := by
  unfold State.writeFeImem
  apply State.feMod_keeps; apply State.wr_keeps; assumption

theorem State.feNowRead_keeps (h : Keeps lk st s0 s) :
    Keeps lk st s0 (State.feNowRead s).2 := by
  unfold State.feNowRead
  dsimp only; apply State.wrAll_keeps; assumption

theorem State.feRegWrite_keeps (h : Keeps lk st s0 s) (y1 : ℕ) (y2 : Fld) (y3 : ℕ) :
    Keeps lk st s0 (State.feRegWrite s y1 y2 y3) := by
  unfold State.feRegWrite
  refine keeps_ite (fun _ => ?_) (fun _ => ?_)
  · assumption
  · extract_lets +onlyGivenNames u1
    have ku1 : Keeps lk st s0 u1 := by
      unfold u1; apply State.wr_keeps; assumption
    clear_value u1
    refine keeps_ite (fun _ => ?_) (fun _ => ?_)
    · apply State.feMod_keeps; assumption
    · refine keeps_ite (fun _ => ?_) (fun _ => ?_)
      · apply State.feMod_keeps; assumption
      · assumption

theorem State.feCntClr_keeps (h : Keeps lk st s0 s) :
    Keeps lk st s0 (State.feCntClr s) := by
  unfold State.feCntClr
  refine keeps_foldl _ _ (fun _ _ _ => ?_) ?_
  · apply State.wrAll_keeps; assumption
  · assumption

end Sys2Proof.Machine
end

