-- ==== Sys2Proof/Laws/Keeps/LightCore.lean ====
section
/-! SUPPORT. What the operations of Machine/LightCore.lean keep. -/

set_option linter.all false

namespace Sys2Proof.Machine

variable {lk st : Prop} {s0 s t : State}

theorem State.setLl_keeps (h : Keeps lk st s0 s) (y1 : ℕ) (y2 : LlSt) :
    Keeps lk st s0 (State.setLl s y1 y2) := by
  unfold State.setLl
  refine keeps_mk ?_ (by simp [shape_modAt]); assumption

theorem State.llMod_keeps (h : Keeps lk st s0 s) (y1 : ℕ) (y2 : LlSt → LlSt) :
    Keeps lk st s0 (State.llMod s y1 y2) := by
  unfold State.llMod
  apply State.setLl_keeps; assumption

theorem State.llSend_keeps (h : Keeps lk st s0 s) (y1 : ℕ) (y2 : LlFrame) :
    Keeps lk st s0 (State.llSend s y1 y2) := by
  unfold State.llSend
  apply State.llMod_keeps; assumption

theorem State.setLch_keeps (h : Keeps lk st s0 s) (y1 : ℕ) (y2 : LchSt) :
    Keeps lk st s0 (State.setLch s y1 y2) := by
  unfold State.setLch
  refine keeps_mk ?_ rfl; assumption

theorem State.channelUpdate_keeps (h : Keeps lk False s0 s) (y1 : ℕ) (y2 : ℕ) (y3 : ℕ) :
    Keeps lk False s0 (State.channelUpdate s y1 y2 y3) := by
  unfold State.channelUpdate
  extract_lets +onlyGivenNames u1 u2 u3
  clear_value u1 u2 u3
  refine keeps_ite (fun _ => ?_) (fun _ => ?_)
  · apply State.wr_keeps; apply State.setLch_keeps; assumption
  · extract_lets +onlyGivenNames u8 u9 u10 u11 u12 u13 u14 u15 u16 u17 u18
    clear_value u8
    have ku9 : Keeps lk False s0 u9.1 := by
      unfold u9; refine keeps_ite1 (fun _ => ?_) (fun _ => ?_)
      · dsimp only; assumption
      · apply State.chnInput_keeps; assumption
    clear_value u9 u10 u11 u12 u13 u14 u15 u16 u17 u18
    apply State.wrAll_keeps; apply State.setLch_keeps; assumption

theorem State.llUpdate_keeps (h : Keeps lk False s0 s) (y1 : ℕ) :
    Keeps lk False s0 (State.llUpdate s y1) := by
  unfold State.llUpdate
  extract_lets +onlyGivenNames u1 u2 u3 u4 u5 u6 u7
  have ku1 : Keeps lk False s0 u1.1 := by
    unfold u1; apply State.chnInput_keeps; assumption
  clear_value u1 u2 u3 u4 u5
  have ku6 : Keeps lk False s0 u6 := by
    unfold u6; apply State.llMod_keeps; apply State.drawn_keeps; assumption
  clear_value u6
  have ku7 : Keeps lk False s0 u7 := by
    unfold u7; apply State.count_keeps; assumption
  clear_value u7
  refine keeps_foldl _ _ (fun _ _ _ => ?_) ?_
  · apply State.channelUpdate_keeps; assumption
  · assumption

theorem State.startRefresh_keeps (h : Keeps lk st s0 s) (y1 : ℕ) :
    Keeps lk st s0 (State.startRefresh s y1) := by
  unfold State.startRefresh
  extract_lets +onlyGivenNames u1
  clear_value u1
  apply State.llMod_keeps; assumption

theorem State.llRun_keeps (h : Keeps lk st s0 s) (y1 : ℕ) :
    Keeps lk st s0 (State.llRun s y1) := by
  unfold State.llRun
  extract_lets +onlyGivenNames u1 u2 u3 u4
  clear_value u1 u2 u3
  have ku4 : Keeps lk st s0 u4 := by
    unfold u4; apply State.llMod_keeps; apply State.wr_keeps; assumption
  clear_value u4
  refine keeps_ite (fun _ => ?_) (fun _ => ?_)
  · apply State.llSend_keeps; apply State.wr_keeps; assumption
  · assumption

theorem State.llEnable_keeps (h : Keeps lk st s0 s) (y1 : ℕ) (y2 : Bool) :
    Keeps lk st s0 (State.llEnable s y1 y2) := by
  unfold State.llEnable
  refine keeps_ite (fun _ => ?_) (fun _ => ?_)
  · refine keeps_ite (fun _ => ?_) (fun _ => ?_)
    · assumption
    · refine keeps_ite (fun _ => ?_) (fun _ => ?_)
      · apply State.wr_keeps; assumption
      · extract_lets +onlyGivenNames u1
        have ku1 : Keeps lk st s0 u1 := by
          unfold u1; apply State.setLl_keeps; apply State.wrAll_keeps; assumption
        clear_value u1
        refine keeps_mk ?_ rfl; assumption
  · apply State.setLl_keeps; apply State.wrAll_keeps; assumption

theorem State.writeLlCtrl_keeps (h : Keeps lk st s0 s) (y1 : ℕ) (y2 : ℕ) :
    Keeps lk st s0 (State.writeLlCtrl s y1 y2) := by
  unfold State.writeLlCtrl
  extract_lets +onlyGivenNames u1
  have ku1 : Keeps lk st s0 u1 := by
    unfold u1; refine keeps_ite (fun _ => ?_) (fun _ => ?_)
    · apply State.wrAll_keeps; assumption
    · assumption
  clear_value u1
  apply State.llEnable_keeps; apply State.wrAll_keeps; assumption

theorem State.llFault_keeps (h : Keeps lk st s0 s) (y1 : ℕ) :
    Keeps lk st s0 (State.llFault s y1) := by
  unfold State.llFault
  apply State.reportIf_keeps; apply State.wr_keeps; assumption

theorem State.startIdleEnd_keeps (h : Keeps lk st s0 s) (y1 : ℕ) :
    Keeps lk st s0 (State.startIdleEnd s y1) := by
  unfold State.startIdleEnd
  extract_lets +onlyGivenNames u1
  clear_value u1
  refine keeps_ite (fun _ => ?_) (fun _ => ?_)
  · assumption
  · extract_lets +onlyGivenNames u3 u4
    clear_value u3
    have ku4 : Keeps lk st s0 u4 := by
      unfold u4; apply State.setLl_keeps; assumption
    clear_value u4
    refine keeps_ite (fun _ => ?_) (fun _ => ?_)
    · apply State.llRun_keeps; assumption
    · assumption

theorem State.startNext_keeps (h : Keeps lk st s0 s) (y1 : ℕ) :
    Keeps lk st s0 (State.startNext s y1) := by
  unfold State.startNext
  extract_lets +onlyGivenNames u1 u2
  clear_value u1
  have ku2 : Keeps lk st s0 u2 := by
    unfold u2; apply State.llMod_keeps; assumption
  clear_value u2
  refine keeps_ite (fun _ => ?_) (fun _ => ?_)
  · apply State.llRun_keeps; assumption
  · assumption

theorem State.startResponse_keeps (h : Keeps lk st s0 s) (y1 : ℕ) (y2 : ℕ) (y3 : Bool) (y4 : ℕ) :
    Keeps lk st s0 (State.startResponse s y1 y2 y3 y4) := by
  unfold State.startResponse
  refine keeps_ite (fun _ => ?_) (fun _ => ?_)
  · extract_lets +onlyGivenNames u1
    have ku1 : Keeps lk st s0 u1 := by
      unfold u1; apply State.count_keeps; assumption
    clear_value u1
    refine keeps_ite (fun _ => ?_) (fun _ => ?_)
    · apply State.llMod_keeps; assumption
    · apply State.startNext_keeps; apply State.llMod_keeps; apply State.llFault_keeps; apply State.wr_keeps
      assumption
  · extract_lets +onlyGivenNames u1 u2
    have ku1 : Keeps lk st s0 u1 := by
      unfold u1; apply State.wr_keeps; assumption
    clear_value u1 u2
    apply State.startNext_keeps; refine keeps_ite (fun _ => ?_) (fun _ => ?_)
    · assumption
    · apply State.llMod_keeps; apply State.wr_keeps; assumption

theorem State.findings_keeps (h : Keeps lk st s0 s) (y1 : ℕ) (y2 : ℕ) (y3 : ℕ) (y4 : ℕ) (y5 : ℕ) :
    Keeps lk st s0 (State.findings s y1 y2 y3 y4 y5) := by
  unfold State.findings
  extract_lets +onlyGivenNames u1 u2 u3 u4
  clear_value u1
  have ku2 : Keeps lk st s0 u2 := by
    unfold u2; refine keeps_foldl _ _ (fun _ _ _ => ?_) ?_
    · apply State.flag_keeps; apply State.flag_keeps; assumption
    · assumption
  clear_value u2
  have ku3 : Keeps lk st s0 u3 := by
    unfold u3; refine keeps_ite (fun _ => ?_) (fun _ => ?_)
    · apply State.count_keeps; assumption
    · assumption
  clear_value u3
  have ku4 : Keeps lk st s0 u4 := by
    unfold u4; apply State.flag_keeps; apply State.flag_keeps; assumption
  clear_value u4
  refine keeps_ite (fun _ => ?_) (fun _ => ?_)
  · apply State.llFault_keeps; assumption
  · assumption

theorem State.readResponse_keeps (h : Keeps lk st s0 s) (y1 : ℕ) (y2 : List ℕ) (y3 : ℕ) :
    Keeps lk st s0 (State.readResponse s y1 y2 y3) := by
  unfold State.readResponse
  extract_lets +onlyGivenNames u1 u2
  clear_value u1 u2
  split
  · refine keeps_ite (fun _ => ?_) (fun _ => ?_)
    · apply State.startResponse_keeps; assumption
    · assumption
  · assumption
  · assumption
  · extract_lets +onlyGivenNames u2
    have ku2 : Keeps lk st s0 u2 := by
      unfold u2; apply State.llMod_keeps; assumption
    clear_value u2
    refine keeps_ite (fun _ => ?_) (fun _ => ?_)
    · apply State.findings_keeps; assumption
    · extract_lets +onlyGivenNames u2
      have ku2 : Keeps lk st s0 u2 := by
        unfold u2; apply State.count_keeps; assumption
      clear_value u2
      refine keeps_ite (fun _ => ?_) (fun _ => ?_)
      · apply State.llFault_keeps; apply State.wr_keeps; assumption
      · assumption
  · assumption

theorem State.llPop_keeps (h : Keeps lk st s0 s) (y1 : ℕ) :
    Keeps lk st s0 (State.llPop s y1) := by
  unfold State.llPop
  apply State.llMod_keeps; assumption

theorem State.llFall_keeps (h : Keeps lk False s0 s) (y1 : ℕ) (y2 : Bool) :
    Keeps lk False s0 (State.llFall s y1 y2) := by
  unfold State.llFall
  refine keeps_ite (fun _ => ?_) (fun _ => ?_)
  · extract_lets +onlyGivenNames u1 u2
    clear_value u1
    have ku2 : Keeps lk False s0 u2 := by
      unfold u2; apply State.llMod_keeps; assumption
    clear_value u2
    refine keeps_ite (fun _ => ?_) (fun _ => ?_)
    · assumption
    · apply State.llSend_keeps; assumption
  · extract_lets +onlyGivenNames u1
    have ku1 : Keeps lk False s0 u1 := by
      unfold u1; refine keeps_ite (fun _ => ?_) (fun _ => ?_)
      · apply State.llSend_keeps; assumption
      · apply State.count_keeps; assumption
    clear_value u1
    apply State.startRefresh_keeps; apply State.llUpdate_keeps; assumption

theorem State.updateInstant_keeps (h : Keeps lk False s0 s) (y1 : ℕ) :
    Keeps lk False s0 (State.updateInstant s y1) := by
  unfold State.updateInstant
  refine keeps_ite (fun _ => ?_) (fun _ => ?_)
  · assumption
  · refine keeps_ite (fun _ => ?_) (fun _ => ?_)
    · extract_lets +onlyGivenNames u2 u3
      clear_value u2 u3
      refine keeps_foldl _ _ (fun _ _ _ => ?_) ?_
      · apply State.llFall_keeps; apply State.llPop_keeps; assumption
      · assumption
    · apply State.llFall_keeps; apply State.llPop_keeps; assumption

theorem State.refreshComplete_keeps (h : Keeps lk st s0 s) (y1 : ℕ) :
    Keeps lk st s0 (State.refreshComplete s y1) := by
  unfold State.refreshComplete
  extract_lets +onlyGivenNames u1
  clear_value u1
  refine keeps_ite (fun _ => ?_) (fun _ => ?_)
  · assumption
  · apply State.setLl_keeps; assumption

theorem State.llLine_keeps (h : Keeps lk st s0 s) (y1 : ℕ) :
    Keeps lk st s0 (State.llLine s y1) := by
  unfold State.llLine
  extract_lets +onlyGivenNames u1
  clear_value u1
  refine keeps_ite (fun _ => ?_) (fun _ => ?_)
  · assumption
  · refine keeps_ite (fun _ => ?_) (fun _ => ?_)
    · refine keeps_ite (fun _ => ?_) (fun _ => ?_)
      · apply State.setLl_keeps; assumption
      · apply State.count_keeps; apply State.setLl_keeps; assumption
    · apply State.setLl_keeps; assumption

theorem State.lightLine_keeps (h : Keeps lk st s0 s) (y1 : ℕ) :
    Keeps lk st s0 (State.lightLine s y1) := by
  unfold State.lightLine
  refine keeps_ite (fun _ => ?_) (fun _ => ?_)
  · refine keeps_foldl _ _ (fun _ _ _ => ?_) ?_
    · refine keeps_ite (fun _ => ?_) (fun _ => ?_)
      · apply State.llLine_keeps; assumption
      · assumption
    · assumption
  · refine keeps_ite (fun _ => ?_) (fun _ => ?_)
    · apply State.llLine_keeps; assumption
    · assumption

theorem State.scanSlot_keeps (h : Keeps lk False s0 s) (y1 : ℕ) :
    Keeps lk False s0 (State.scanSlot s y1) := by
  unfold State.scanSlot
  extract_lets +onlyGivenNames u1 u2
  clear_value u1 u2
  split
  · assumption
  · refine keeps_ite (fun _ => ?_) (fun _ => ?_)
    · assumption
    · extract_lets +onlyGivenNames u1 u2
      clear_value u1 u2
      refine keeps_ite (fun _ => ?_) (fun _ => ?_)
      · apply State.setLl_keeps; assumption
      · extract_lets +onlyGivenNames u4 u5
        clear_value u4
        have ku5 : Keeps lk False s0 u5 := by
          unfold u5; apply State.llSend_keeps; apply State.setLl_keeps; assumption
        clear_value u5
        refine keeps_ite (fun _ => ?_) (fun _ => ?_)
        · apply State.llUpdate_keeps; assumption
        · assumption

theorem State.scanBlankEnd_keeps (h : Keeps lk st s0 s) (y1 : ℕ) :
    Keeps lk st s0 (State.scanBlankEnd s y1) := by
  unfold State.scanBlankEnd
  extract_lets +onlyGivenNames u1
  clear_value u1
  split
  · assumption
  · refine keeps_ite (fun _ => ?_) (fun _ => ?_)
    · assumption
    · extract_lets +onlyGivenNames u1 u2 u3
      have ku1 : Keeps lk st s0 u1 := by
        unfold u1; refine keeps_ite (fun _ => ?_) (fun _ => ?_)
        · apply State.llSend_keeps; assumption
        · apply State.count_keeps; assumption
      clear_value u1 u2 u3
      apply State.llMod_keeps; assumption

theorem State.lightSafe_keeps (h : Keeps lk st s0 s) :
    Keeps lk st s0 (State.lightSafe s) := by
  unfold State.lightSafe
  refine keeps_foldl _ _ (fun _ _ _ => ?_) ?_
  · refine keeps_ite (fun _ => ?_) (fun _ => ?_)
    · apply State.llSend_keeps; apply State.llMod_keeps; apply State.wr_keeps; assumption
    · assumption
  · assumption

theorem State.lightExit_keeps (h : Keeps lk st s0 s) :
    Keeps lk st s0 (State.lightExit s) := by
  unfold State.lightExit
  refine keeps_foldl _ _ (fun _ _ _ => ?_) ?_
  · refine keeps_ite (fun _ => ?_) (fun _ => ?_)
    · apply State.llRun_keeps; assumption
    · assumption
  · assumption

theorem State.writeLevel_keeps (h : Keeps lk False s0 s) (y1 : ℕ) (y2 : ℕ) (y3 : ℕ) :
    Keeps lk False s0 (State.writeLevel s y1 y2 y3) := by
  unfold State.writeLevel
  extract_lets +onlyGivenNames u1
  have ku1 : Keeps lk False s0 u1 := by
    unfold u1; refine keeps_ite (fun _ => ?_) (fun _ => ?_)
    · apply State.updateInstant_keeps; assumption
    · assumption
  clear_value u1
  apply State.wrAll_keeps; assumption

theorem State.writeSafeL_keeps (h : Keeps lk st s0 s) (y1 : ℕ) (y2 : ℕ) (y3 : ℕ) :
    Keeps lk st s0 (State.writeSafeL s y1 y2 y3) := by
  unfold State.writeSafeL
  extract_lets +onlyGivenNames u1
  have ku1 : Keeps lk st s0 u1 := by
    unfold u1; apply State.wr_keeps; assumption
  clear_value u1
  refine keeps_ite (fun _ => ?_) (fun _ => ?_)
  · apply State.llMod_keeps; assumption
  · assumption

theorem State.llCntClr_keeps (h : Keeps lk st s0 s) :
    Keeps lk st s0 (State.llCntClr s) := by
  unfold State.llCntClr
  refine keeps_foldl _ _ (fun _ _ _ => ?_) ?_
  · apply State.wrAll_keeps; assumption
  · assumption

end Sys2Proof.Machine
end

