-- ==== Sys2Proof/Laws/Keeps/PhaseCutCore.lean ====
section
/-! SUPPORT. What the operations of Machine/PhaseCutCore.lean keep. -/

set_option linter.all false

namespace Sys2Proof.Machine

variable {lk st : Prop} {s0 s t : State}

theorem State.setPcm_keeps (h : Keeps lk st s0 s) (y1 : ℕ) (y2 : PcmSt) :
    Keeps lk st s0 (State.setPcm s y1 y2) := by
  unfold State.setPcm
  refine keeps_mk ?_ (by simp [shape_modAt]); assumption

theorem State.setPc_keeps (h : Keeps lk st s0 s) (y1 : ℕ) (y2 : PcSt) :
    Keeps lk st s0 (State.setPc s y1 y2) := by
  unfold State.setPc
  refine keeps_mk ?_ (by simp [shape_modAt]); assumption

theorem State.pcMod_keeps (h : Keeps lk st s0 s) (y1 : ℕ) (y2 : PcSt → PcSt) :
    Keeps lk st s0 (State.pcMod s y1 y2) := by
  unfold State.pcMod
  apply State.setPc_keeps; assumption

theorem State.pcFire_keeps (h : Keeps lk st s0 s) (y1 : ℕ) (y2 : Bool) (y3 : ℕ) :
    Keeps lk st s0 (State.pcFire s y1 y2 y3) := by
  unfold State.pcFire
  apply State.pcMod_keeps; assumption

theorem State.pcHalt_keeps (h : Keeps lk st s0 s) (y1 : ℕ) (y2 : ℕ) :
    Keeps lk st s0 (State.pcHalt s y1 y2) := by
  unfold State.pcHalt
  apply State.pcMod_keeps; apply State.pcFire_keeps; apply State.wr_keeps; assumption

theorem State.pcStop_keeps (h : Keeps lk st s0 s) (y1 : ℕ) (y2 : ℕ) :
    Keeps lk st s0 (State.pcStop s y1 y2) := by
  unfold State.pcStop
  apply State.pcHalt_keeps; apply State.wr_keeps; assumption

theorem State.pcFault_keeps (h : Keeps lk st s0 s) (y1 : ℕ) (y2 : ℕ) :
    Keeps lk st s0 (State.pcFault s y1 y2) := by
  unfold State.pcFault
  refine keeps_ite (fun _ => ?_) (fun _ => ?_)
  · apply State.report_keeps; apply State.pcHalt_keeps; apply State.wr_keeps; assumption
  · assumption

theorem State.pcEnable_keeps (h : Keeps lk st s0 s) (y1 : ℕ) (y2 : Bool) :
    Keeps lk st s0 (State.pcEnable s y1 y2) := by
  unfold State.pcEnable
  refine keeps_ite (fun _ => ?_) (fun _ => ?_)
  · refine keeps_ite (fun _ => ?_) (fun _ => ?_)
    · assumption
    · refine keeps_ite (fun _ => ?_) (fun _ => ?_)
      · apply State.wr_keeps; assumption
      · apply State.pcMod_keeps; apply State.wrAll_keeps; assumption
  · apply State.pcHalt_keeps; apply State.wr_keeps; assumption

theorem State.pcRestart_keeps (h : Keeps lk st s0 s) (y1 : ℕ) :
    Keeps lk st s0 (State.pcRestart s y1) := by
  unfold State.pcRestart
  refine keeps_ite (fun _ => ?_) (fun _ => ?_)
  · apply State.wrAll_keeps; assumption
  · assumption

theorem State.pcClear_keeps (h : Keeps lk st s0 s) (y1 : ℕ) :
    Keeps lk st s0 (State.pcClear s y1) := by
  unfold State.pcClear
  refine keeps_ite (fun _ => ?_) (fun _ => ?_)
  · apply State.wr_keeps; assumption
  · assumption

theorem State.writePcCtrl_keeps (h : Keeps lk st s0 s) (y1 : ℕ) (y2 : ℕ) :
    Keeps lk st s0 (State.writePcCtrl s y1 y2) := by
  unfold State.writePcCtrl
  extract_lets +onlyGivenNames u1 u2 u3 u4
  have ku1 : Keeps lk st s0 u1 := by
    unfold u1; refine keeps_ite (fun _ => ?_) (fun _ => ?_)
    · apply State.wrAll_keeps; assumption
    · assumption
  clear_value u1
  have ku2 : Keeps lk st s0 u2 := by
    unfold u2; apply State.wrAll_keeps; assumption
  clear_value u2
  have ku3 : Keeps lk st s0 u3 := by
    unfold u3; apply State.pcEnable_keeps; assumption
  clear_value u3
  have ku4 : Keeps lk st s0 u4 := by
    unfold u4; refine keeps_ite (fun _ => ?_) (fun _ => ?_)
    · apply State.pcClear_keeps; assumption
    · assumption
  clear_value u4
  refine keeps_ite (fun _ => ?_) (fun _ => ?_)
  · apply State.pcRestart_keeps; assumption
  · assumption

theorem State.writePcCmd_keeps (h : Keeps lk st s0 s) (y1 : ℕ) (y2 : ℕ) :
    Keeps lk st s0 (State.writePcCmd s y1 y2) := by
  unfold State.writePcCmd
  extract_lets +onlyGivenNames u1
  clear_value u1
  apply State.pcMod_keeps; apply State.wr_keeps; assumption

theorem State.pcSafe_keeps (h : Keeps lk st s0 s) :
    Keeps lk st s0 (State.pcSafe s) := by
  unfold State.pcSafe
  refine keeps_foldl _ _ (fun _ _ _ => ?_) ?_
  · refine keeps_ite (fun _ => ?_) (fun _ => ?_)
    · apply State.pcStop_keeps; assumption
    · apply State.pcFire_keeps; assumption
  · assumption

theorem State.pcmEnable_keeps (h : Keeps lk st s0 s) (y1 : ℕ) (y2 : Bool) :
    Keeps lk st s0 (State.pcmEnable s y1 y2) := by
  unfold State.pcmEnable
  refine keeps_ite (fun _ => ?_) (fun _ => ?_)
  · extract_lets +onlyGivenNames u2
    clear_value u2
    refine keeps_ite (fun _ => ?_) (fun _ => ?_)
    · assumption
    · refine keeps_ite (fun _ => ?_) (fun _ => ?_)
      · apply State.wr_keeps; assumption
      · apply State.setPcm_keeps; apply State.wrAll_keeps; assumption
  · apply State.wrAll_keeps; assumption

theorem State.writePcmCtrl_keeps (h : Keeps lk st s0 s) (y1 : ℕ) (y2 : ℕ) :
    Keeps lk st s0 (State.writePcmCtrl s y1 y2) := by
  unfold State.writePcmCtrl
  extract_lets +onlyGivenNames u1
  have ku1 : Keeps lk st s0 u1 := by
    unfold u1; refine keeps_ite (fun _ => ?_) (fun _ => ?_)
    · apply State.wr_keeps; assumption
    · assumption
  clear_value u1
  apply State.pcmEnable_keeps; apply State.wr_keeps; assumption

theorem State.pcCrossed_keeps (h : Keeps lk st s0 s) (y1 : ℕ) :
    Keeps lk st s0 (State.pcCrossed s y1) := by
  unfold State.pcCrossed
  refine keeps_foldl _ _ (fun _ _ _ => ?_) ?_
  · refine keeps_ite (fun _ => ?_) (fun _ => ?_)
    · apply State.wr_keeps; assumption
    · assumption
  · assumption

theorem State.zcEdge_keeps (h : Keeps lk st s0 s) (y1 : ℕ) (y2 : Bool) :
    Keeps lk st s0 (State.zcEdge s y1 y2) := by
  unfold State.zcEdge
  extract_lets +onlyGivenNames u1 u2
  clear_value u1 u2
  refine keeps_ite (fun _ => ?_) (fun _ => ?_)
  · assumption
  · extract_lets +onlyGivenNames u2 u3 u4 u5 u6 u7
    clear_value u2 u3 u4 u5 u6 u7
    refine keeps_ite (fun _ => ?_) (fun _ => ?_)
    · apply State.count_keeps; assumption
    · extract_lets +onlyGivenNames u2 u3
      have ku2 : Keeps lk st s0 u2 := by
        unfold u2; apply State.setPcm_keeps; apply State.offerTo_keeps; assumption
      clear_value u2
      have ku3 : Keeps lk st s0 u3 := by
        unfold u3; refine keeps_ite (fun _ => ?_) (fun _ => ?_)
        · apply State.wr_keeps; assumption
        · assumption
      clear_value u3
      refine keeps_ite (fun _ => ?_) (fun _ => ?_)
      · apply State.pcCrossed_keeps; apply State.wr_keeps; assumption
      · refine keeps_ite (fun _ => ?_) (fun _ => ?_)
        · apply State.wrAll_keeps; assumption
        · assumption

theorem State.missOne_keeps (h : Keeps lk st s0 s) (y1 : ℕ) (y2 : Bool) (y3 : ℕ) (y4 : ℤ) :
    Keeps lk st s0 (State.missOne s y1 y2 y3 y4) := by
  unfold State.missOne
  extract_lets +onlyGivenNames u1 u2 u3 u4 u5
  clear_value u1 u2 u3 u4 u5
  extract_lets +onlyGivenNames u6
  have ku6 : Keeps lk st s0 u6 := by
    unfold u6; refine keeps_ite (fun _ => ?_) (fun _ => ?_)
    · apply State.count_keeps; apply State.wr_keeps; assumption
    · assumption
  clear_value u6
  refine keeps_ite (fun _ => ?_) (fun _ => ?_)
  · apply State.setPcm_keeps; assumption
  · assumption

theorem State.pcmCycle_keeps (h : Keeps lk st s0 s) (y1 : ℕ) (y2 : ℕ) (y3 : ℤ) :
    Keeps lk st s0 (State.pcmCycle s y1 y2 y3) := by
  unfold State.pcmCycle
  extract_lets +onlyGivenNames u1
  clear_value u1
  refine keeps_ite (fun _ => ?_) (fun _ => ?_)
  · assumption
  · extract_lets +onlyGivenNames u8 u9
    clear_value u8
    have ku9 : Keeps lk st s0 u9 := by
      unfold u9; apply State.missOne_keeps; apply State.missOne_keeps; apply State.wr_keeps; assumption
    clear_value u9
    refine keeps_ite (fun _ => ?_) (fun _ => ?_)
    · assumption
    · refine keeps_ite (fun _ => ?_) (fun _ => ?_)
      · extract_lets +onlyGivenNames u2
        have ku2 : Keeps lk st s0 u2 := by
          unfold u2; apply State.wr_keeps; apply State.wr_keeps; assumption
        clear_value u2
        refine keeps_foldl _ _ (fun _ _ _ => ?_) ?_
        · refine keeps_ite (fun _ => ?_) (fun _ => ?_)
          · apply State.pcStop_keeps; assumption
          · assumption
        · assumption
      · refine keeps_ite (fun _ => ?_) (fun _ => ?_)
        · refine keeps_foldl _ _ (fun _ _ _ => ?_) ?_
          · refine keeps_ite (fun _ => ?_) (fun _ => ?_)
            · apply State.wr_keeps; assumption
            · assumption
          · assumption
        · assumption

theorem State.pcLook_keeps (h : Keeps lk st s0 s) (y1 : ℕ) :
    Keeps lk st s0 (State.pcLook s y1) := by
  unfold State.pcLook
  extract_lets +onlyGivenNames u1
  clear_value u1
  split
  · assumption
  · refine keeps_ite (fun _ => ?_) (fun _ => ?_)
    · assumption
    · extract_lets +onlyGivenNames u2 u3 u4 u5 u6 u7
      clear_value u2 u3 u4 u5
      have ku6 : Keeps lk st s0 u6 := by
        unfold u6; apply State.setPc_keeps; assumption
      clear_value u6
      have ku7 : Keeps lk st s0 u7 := by
        unfold u7; refine keeps_ite (fun _ => ?_) (fun _ => ?_)
        · apply State.wr_keeps; assumption
        · assumption
      clear_value u7
      refine keeps_ite (fun _ => ?_) (fun _ => ?_)
      · apply State.pcFault_keeps; assumption
      · assumption

theorem State.pcSign_keeps (h : Keeps lk st s0 s) (y1 : ℕ) (y2 : Bool) (y3 : Bool) :
    Keeps lk st s0 (State.pcSign s y1 y2 y3) := by
  unfold State.pcSign
  apply State.pcLook_keeps; apply State.pcMod_keeps; assumption

theorem State.isgnBad_keeps (h : Keeps lk st s0 s) (y1 : ℕ) :
    Keeps lk st s0 (State.isgnBad s y1) := by
  unfold State.isgnBad
  extract_lets +onlyGivenNames u1
  clear_value u1
  refine keeps_ite (fun _ => ?_) (fun _ => ?_)
  · apply State.pcFault_keeps; assumption
  · assumption

theorem State.pcPulse_keeps (h : Keeps lk st s0 s) (y1 : ℕ) (y2 : ℕ) :
    Keeps lk st s0 (State.pcPulse s y1 y2) := by
  unfold State.pcPulse
  extract_lets +onlyGivenNames u1
  have ku1 : Keeps lk st s0 u1 := by
    unfold u1; apply State.pcMod_keeps; apply State.pcFire_keeps; assumption
  clear_value u1
  apply State.pcLook_keeps; apply State.count_keeps; assumption

theorem State.pcPulseEnd_keeps (h : Keeps lk st s0 s) (y1 : ℕ) (y2 : ℕ) :
    Keeps lk st s0 (State.pcPulseEnd s y1 y2) := by
  unfold State.pcPulseEnd
  refine keeps_ite (fun _ => ?_) (fun _ => ?_)
  · apply State.pcMod_keeps; apply State.pcFire_keeps; assumption
  · assumption

theorem State.pulseEnd_keeps (h : Keeps lk st s0 s) (y1 : ℕ) :
    Keeps lk st s0 (State.pulseEnd s y1) := by
  unfold State.pulseEnd
  extract_lets +onlyGivenNames u1
  clear_value u1
  refine keeps_ite (fun _ => ?_) (fun _ => ?_)
  · apply State.pcPulseEnd_keeps; assumption
  · assumption

theorem State.windowEnd_keeps (h : Keeps lk st s0 s) (y1 : ℕ) :
    Keeps lk st s0 (State.windowEnd s y1) := by
  unfold State.windowEnd
  extract_lets +onlyGivenNames u1
  clear_value u1
  split
  · refine keeps_ite (fun _ => ?_) (fun _ => ?_)
    · apply State.pcMod_keeps; apply State.pcLook_keeps; assumption
    · assumption
  · assumption

theorem State.retrigger_keeps (h : Keeps lk st s0 s) (y1 : ℕ) :
    Keeps lk st s0 (State.retrigger s y1) := by
  unfold State.retrigger
  extract_lets +onlyGivenNames u1 u2
  clear_value u1 u2
  refine keeps_ite (fun _ => ?_) (fun _ => ?_)
  · apply State.pcPulse_keeps; assumption
  · assumption

theorem State.pcLine_keeps (h : Keeps lk st s0 s) (y1 : ℕ) (y2 : ℕ) :
    Keeps lk st s0 (State.pcLine s y1 y2) := by
  unfold State.pcLine
  refine keeps_ite (fun _ => ?_) (fun _ => ?_)
  · refine keeps_ite (fun _ => ?_) (fun _ => ?_)
    · assumption
    · extract_lets +onlyGivenNames u3 u4
      clear_value u3 u4
      refine keeps_ite (fun _ => ?_) (fun _ => ?_)
      · apply State.pcPulse_keeps; assumption
      · apply State.count_keeps; assumption
  · apply State.pcMod_keeps; assumption

theorem State.pcLatch_keeps (h : Keeps lk False s0 s) (y1 : ℕ) :
    Keeps lk False s0 (State.pcLatch s y1) := by
  unfold State.pcLatch
  extract_lets +onlyGivenNames u1
  clear_value u1
  refine keeps_ite (fun _ => ?_) (fun _ => ?_)
  · apply State.wr_keeps; assumption
  · extract_lets +onlyGivenNames u1 u2 u3 u4 u5 u6 u7 u8 u9 u10 u11 u12 u13 u14
    clear_value u1 u2
    have ku3 : Keeps lk False s0 u3.1 := by
      unfold u3; refine keeps_ite1 (fun _ => ?_) (fun _ => ?_)
      · dsimp only; assumption
      · apply State.chnInput_keeps; assumption
    clear_value u3 u4 u5 u6 u7 u8 u9 u10 u11 u12
    have ku13 : Keeps lk False s0 u13 := by
      unfold u13; apply State.wr_keeps; apply State.pcMod_keeps; assumption
    clear_value u13
    have ku14 : Keeps lk False s0 u14 := by
      unfold u14; refine keeps_ite (fun _ => ?_) (fun _ => ?_)
      · apply State.wr_keeps; assumption
      · assumption
    clear_value u14
    apply State.count_keeps; assumption

theorem State.leadOn_keeps (h : Keeps lk st s0 s) (y1 : ℕ) :
    Keeps lk st s0 (State.leadOn s y1).1 := by
  unfold State.leadOn
  extract_lets +onlyGivenNames u1 u2
  clear_value u1 u2
  refine keeps_ite1 (fun _ => ?_) (fun _ => ?_)
  · dsimp only; assumption
  · extract_lets +onlyGivenNames u5 u6 u7
    clear_value u5 u6 u7
    refine keeps_ite1 (fun _ => ?_) (fun _ => ?_)
    · extract_lets +onlyGivenNames u3
      clear_value u3
      dsimp only; apply State.count_keeps; assumption
    · dsimp only; assumption

theorem State.pcPlan_keeps (h : Keeps lk st s0 s) (y1 : ℕ) :
    Keeps lk st s0 (State.pcPlan s y1) := by
  unfold State.pcPlan
  extract_lets +onlyGivenNames u1 u2
  clear_value u1 u2
  split
  · extract_lets +onlyGivenNames u2
    have ku2 : Keeps lk st s0 u2.1 := by
      unfold u2; apply State.leadOn_keeps; assumption
    clear_value u2
    apply State.pcMod_keeps; assumption
  · extract_lets +onlyGivenNames u3
    clear_value u3
    apply State.pcMod_keeps; assumption
  · extract_lets +onlyGivenNames u4
    clear_value u4
    apply State.pcMod_keeps; assumption
  · apply State.pcMod_keeps; assumption

theorem State.pcSlope_keeps (h : Keeps lk st s0 s) (y1 : ℕ) (y2 : ℤ) :
    Keeps lk st s0 (State.pcSlope s y1 y2) := by
  unfold State.pcSlope
  extract_lets +onlyGivenNames u1 u2 u3
  clear_value u1 u2 u3
  refine keeps_ite (fun _ => ?_) (fun _ => ?_)
  · assumption
  · apply State.setPc_keeps; assumption

theorem State.pcHalfEnd_keeps (h : Keeps lk st s0 s) (y1 : ℕ) :
    Keeps lk st s0 (State.pcHalfEnd s y1) := by
  unfold State.pcHalfEnd
  extract_lets +onlyGivenNames u1
  clear_value u1
  split
  · assumption
  · extract_lets +onlyGivenNames u2 u3 u4 u5 u6 u7 u8 u9
    clear_value u2 u3 u4 u5 u6 u7
    have ku8 : Keeps lk st s0 u8 := by
      unfold u8; apply State.count_keeps; apply State.setPc_keeps; assumption
    clear_value u8
    have ku9 : Keeps lk st s0 u9 := by
      unfold u9; refine keeps_ite (fun _ => ?_) (fun _ => ?_)
      · assumption
      · apply State.wr_keeps; assumption
    clear_value u9
    refine keeps_ite (fun _ => ?_) (fun _ => ?_)
    · apply State.pcFault_keeps; assumption
    · refine keeps_ite (fun _ => ?_) (fun _ => ?_)
      · apply State.pcFault_keeps; assumption
      · assumption

theorem State.pcDetect_keeps (h : Keeps lk st s0 s) (y1 : ℕ) :
    Keeps lk st s0 (State.pcDetect s y1) := by
  unfold State.pcDetect
  extract_lets +onlyGivenNames u1
  clear_value u1
  refine keeps_ite (fun _ => ?_) (fun _ => ?_)
  · assumption
  · extract_lets +onlyGivenNames u10 u11 u12 u13
    clear_value u10 u11 u12
    have ku13 : Keeps lk st s0 u13 := by
      unfold u13; apply State.pcMod_keeps; assumption
    clear_value u13
    refine keeps_ite (fun _ => ?_) (fun _ => ?_)
    · refine keeps_ite (fun _ => ?_) (fun _ => ?_)
      · apply State.pcFault_keeps; assumption
      · apply State.wr_keeps; assumption
    · refine keeps_ite (fun _ => ?_) (fun _ => ?_)
      · apply State.wr_keeps; assumption
      · assumption

theorem State.pcHalfStart_keeps (h : Keeps lk st s0 s) (y1 : ℕ) (y2 : ℕ) :
    Keeps lk st s0 (State.pcHalfStart s y1 y2) := by
  unfold State.pcHalfStart
  extract_lets +onlyGivenNames u1
  clear_value u1
  apply State.pcLook_keeps; apply State.pcMod_keeps; assumption

theorem State.cycleStart_keeps (h : Keeps lk False s0 s) (y1 : ℕ) (y2 : ℤ) :
    Keeps lk False s0 (State.cycleStart s y1 y2) := by
  unfold State.cycleStart
  extract_lets +onlyGivenNames u1 u2
  clear_value u1
  have ku2 : Keeps lk False s0 u2 := by
    unfold u2; refine keeps_ite (fun _ => ?_) (fun _ => ?_)
    · apply State.pcMod_keeps; apply State.wrAll_keeps; assumption
    · assumption
  clear_value u2
  refine keeps_ite (fun _ => ?_) (fun _ => ?_)
  · assumption
  · extract_lets +onlyGivenNames u9
    have ku9 : Keeps lk False s0 u9 := by
      unfold u9; apply State.pcDetect_keeps; assumption
    clear_value u9
    refine keeps_ite (fun _ => ?_) (fun _ => ?_)
    · assumption
    · extract_lets +onlyGivenNames u1
      have ku1 : Keeps lk False s0 u1 := by
        unfold u1; apply State.pcMod_keeps; assumption
      clear_value u1
      apply State.pcHalfStart_keeps; apply State.pcSlope_keeps; apply State.pcPlan_keeps
      apply State.pcLatch_keeps; assumption

theorem State.pcCycle_keeps (h : Keeps lk False s0 s) (y1 : ℕ) (y2 : ℕ) (y3 : ℤ) :
    Keeps lk False s0 (State.pcCycle s y1 y2 y3) := by
  unfold State.pcCycle
  extract_lets +onlyGivenNames u1 u2 u3 u4 u5 u6 u7 u8
  clear_value u1 u2 u3 u4 u5
  have ku6 : Keeps lk False s0 u6 := by
    unfold u6; split
    · split
      · refine keeps_ite (fun _ => ?_) (fun _ => ?_)
        · assumption
        · apply State.pcPulseEnd_keeps; assumption
      · assumption
    · assumption
  clear_value u6
  have ku7 : Keeps lk False s0 u7 := by
    unfold u7; split
    · apply State.cycleStart_keeps; apply State.pcHalfEnd_keeps; assumption
    · refine keeps_ite (fun _ => ?_) (fun _ => ?_)
      · apply State.pcHalfStart_keeps; apply State.pcHalfEnd_keeps; assumption
      · assumption
    · assumption
  clear_value u7 u8
  refine keeps_ite (fun _ => ?_) (fun _ => ?_)
  · assumption
  · split
    · assumption
    · extract_lets +onlyGivenNames u5
      have ku5 : Keeps lk False s0 u5 := by
        unfold u5; split
        · split
          · refine keeps_ite (fun _ => ?_) (fun _ => ?_)
            · assumption
            · refine keeps_ite (fun _ => ?_) (fun _ => ?_)
              · assumption
              · apply State.pcPulse_keeps; assumption
          · assumption
        · assumption
      clear_value u5
      split
      · split
        · apply State.pcPulseEnd_keeps; assumption
        · assumption
      · assumption

theorem State.pcResume_keeps (h : Keeps lk st s0 s) (y1 : ℕ) :
    Keeps lk st s0 (State.pcResume s y1) := by
  unfold State.pcResume
  refine keeps_ite (fun _ => ?_) (fun _ => ?_)
  · apply State.wrAll_keeps; assumption
  · assumption

theorem State.phaseCutCycle_keeps (h : Keeps lk False s0 s) (y1 : List ℕ) :
    Keeps lk False s0 (State.phaseCutCycle s y1) := by
  unfold State.phaseCutCycle
  extract_lets +onlyGivenNames u1 u2
  clear_value u1
  have ku2 : Keeps lk False s0 u2 := by
    unfold u2; refine keeps_foldl _ _ (fun _ _ _ => ?_) ?_
    · extract_lets +onlyGivenNames u3
      clear_value u3
      apply State.pcmCycle_keeps; assumption
    · assumption
  clear_value u2
  refine keeps_foldl _ _ (fun _ _ _ => ?_) ?_
  · extract_lets +onlyGivenNames u4
    clear_value u4
    apply State.pcCycle_keeps; apply State.pcResume_keeps; assumption
  · assumption

end Sys2Proof.Machine
end

