-- ==== Sys2Proof/Laws/Keeps/SafetyCore.lean ====
section
/-! SUPPORT. What the operations of Machine/SafetyCore.lean keep. -/

set_option linter.all false

namespace Sys2Proof.Machine

variable {lk st : Prop} {s0 s t : State}

theorem State.setSc_keeps (h : Keeps lk st s0 s) (y1 : ℕ) (y2 : ScSt) :
    Keeps lk st s0 (State.setSc s y1 y2) := by
  unfold State.setSc
  refine keeps_mk ?_ (by simp [shape_modAt]); assumption

theorem State.writeScCfg_keeps (h : Keeps lk st s0 s) (y1 : ℕ) (y2 : ℕ) (y3 : Bool) :
    Keeps lk st s0 (State.writeScCfg s y1 y2 y3) := by
  unfold State.writeScCfg
  extract_lets +onlyGivenNames u1 u2 u3
  clear_value u1
  have ku2 : Keeps lk st s0 u2 := by
    unfold u2; refine keeps_ite (fun _ => ?_) (fun _ => ?_)
    · apply State.wrAll_keeps; assumption
    · assumption
  clear_value u2
  have ku3 : Keeps lk st s0 u3 := by
    unfold u3; apply State.wr_keeps; assumption
  clear_value u3
  refine keeps_ite (fun _ => ?_) (fun _ => ?_)
  · refine keeps_ite (fun _ => ?_) (fun _ => ?_)
    · apply State.wr_keeps; assumption
    · apply State.setSc_keeps; apply State.wr_keeps; assumption
  · apply State.wr_keeps; assumption

theorem State.scPdu_keeps (h : Keeps lk st s0 s) (y1 : ℕ) (y2 : ℕ) (y3 : List Byte) :
    Keeps lk st s0 (State.scPdu s y1 y2 y3).1 := by
  unfold State.scPdu
  extract_lets +onlyGivenNames u1 u2 u3 u4 u5
  clear_value u1 u2 u3 u4 u5
  dsimp only; apply State.wr_keeps; assumption

theorem State.scCan_keeps (h : Keeps lk st s0 s) (y1 : ℕ) (y2 : List Byte) :
    Keeps lk st s0 (State.scCan s y1 y2) := by
  unfold State.scCan
  extract_lets +onlyGivenNames u1 u2 u3 u4
  clear_value u1 u2
  have ku3 : Keeps lk st s0 u3 := by
    unfold u3; refine keeps_ite (fun _ => ?_) (fun _ => ?_)
    · apply State.count_keeps; assumption
    · assumption
  clear_value u3
  have ku4 : Keeps lk st s0 u4 := by
    unfold u4; apply State.wrAll_keeps; assumption
  clear_value u4
  apply State.canQueue_keeps; refine keeps_foldl _ _ (fun _ _ _ => ?_) ?_
  · apply State.wr_keeps; assumption
  · assumption

theorem State.scEth_keeps (h : Keeps lk st s0 s) (y1 : ℕ) (y2 : List Byte) (y3 : List Byte) :
    Keeps lk st s0 (State.scEth s y1 y2 y3) := by
  unfold State.scEth
  extract_lets +onlyGivenNames u1 u2 u3
  clear_value u1 u2
  have ku3 : Keeps lk st s0 u3 := by
    unfold u3; refine keeps_ite (fun _ => ?_) (fun _ => ?_)
    · apply State.count_keeps; assumption
    · assumption
  clear_value u3
  refine keeps_mk ?_ rfl; assumption

theorem State.scFrame_keeps (h : Keeps lk st s0 s) (y1 : ℕ) (y2 : ℕ) :
    Keeps lk st s0 (State.scFrame s y1 y2) := by
  unfold State.scFrame
  extract_lets +onlyGivenNames u1 u2 u3 u4
  clear_value u1
  have ku2 : Keeps lk st s0 u2 := by
    unfold u2; apply State.setSc_keeps; assumption
  clear_value u2 u3
  have ku4 : Keeps lk st s0 u4.1 := by
    unfold u4; apply State.readMem_keeps; assumption
  clear_value u4
  extract_lets +onlyGivenNames u1
  have ku1 : Keeps lk st s0 u1.1 := by
    unfold u1; apply State.readMem_keeps; assumption
  clear_value u1
  refine keeps_ite (fun _ => ?_) (fun _ => ?_)
  · assumption
  · extract_lets +onlyGivenNames u1
    have ku1 : Keeps lk st s0 u1.1 := by
      unfold u1; apply State.scPdu_keeps; assumption
    clear_value u1
    refine keeps_ite (fun _ => ?_) (fun _ => ?_)
    · apply State.scEth_keeps; assumption
    · apply State.scCan_keeps; assumption

theorem State.scPeriod_keeps (h : Keeps lk st s0 s) (y1 : ℕ) :
    Keeps lk st s0 (State.scPeriod s y1) := by
  unfold State.scPeriod
  refine keeps_ite (fun _ => ?_) (fun _ => ?_)
  · apply State.scFrame_keeps; assumption
  · assumption

theorem State.scNow_keeps (h : Keeps lk st s0 s) :
    Keeps lk st s0 (State.scNow s) := by
  unfold State.scNow
  refine keeps_foldl _ _ (fun _ _ _ => ?_) ?_
  · refine keeps_ite (fun _ => ?_) (fun _ => ?_)
    · apply State.scFrame_keeps; assumption
    · assumption
  · assumption

theorem State.scReceive_keeps (h : Keeps lk False s0 s) (y1 : ℕ) (y2 : List Byte) :
    Keeps lk False s0 (State.scReceive s y1 y2) := by
  unfold State.scReceive
  refine keeps_ite (fun _ => ?_) (fun _ => ?_)
  · assumption
  · extract_lets +onlyGivenNames u2 u3 u4
    clear_value u2 u3 u4
    refine keeps_ite (fun _ => ?_) (fun _ => ?_)
    · apply State.count_keeps; assumption
    · extract_lets +onlyGivenNames u2 u3
      have ku2 : Keeps lk False s0 u2 := by
        unfold u2; apply State.writeMem_keeps; assumption
      clear_value u2
      have ku3 : Keeps lk False s0 u3 := by
        unfold u3; apply State.writeMem_keeps; assumption
      clear_value u3
      apply State.reportIf_keeps; apply State.setSc_keeps; assumption

theorem State.scTimeout_keeps (h : Keeps lk st s0 s) (y1 : ℕ) :
    Keeps lk st s0 (State.scTimeout s y1) := by
  unfold State.scTimeout
  refine keeps_ite (fun _ => ?_) (fun _ => ?_)
  · apply State.report_keeps; assumption
  · assumption

theorem State.safeEvent_keeps (h : Keeps lk st s0 s) :
    Keeps lk st s0 (State.safeEvent s) := by
  unfold State.safeEvent
  refine keeps_ite (fun _ => ?_) (fun _ => ?_)
  · apply State.hqEvent_keeps; assumption
  · assumption

theorem State.safeOutputs_keeps (h : Keeps lk st s0 s) :
    Keeps lk st s0 (State.safeOutputs s) := by
  unfold State.safeOutputs
  extract_lets +onlyGivenNames u1
  have ku1 : Keeps lk st s0 u1 := by
    unfold u1; refine keeps_foldl _ _ (fun _ _ _ => ?_) ?_
    · apply State.bchEval_keeps; apply State.axInvalid_keeps; assumption
    · assumption
  clear_value u1
  apply State.writePermit_keeps; apply State.fifeSafe_keeps; apply State.lightSafe_keeps
  apply State.pcSafe_keeps; assumption

theorem State.enterSafe_keeps (h : Keeps lk st s0 s) (y1 : ℕ) (y2 : ℕ) :
    Keeps lk st s0 (State.enterSafe s y1 y2) := by
  unfold State.enterSafe
  refine keeps_ite (fun _ => ?_) (fun _ => ?_)
  · assumption
  · extract_lets +onlyGivenNames u3 u4 u5
    have ku3 : Keeps lk st s0 u3 := by
      unfold u3; apply State.count_keeps; apply State.wrAll_keeps; assumption
    clear_value u3
    have ku4 : Keeps lk st s0 u4 := by
      unfold u4; refine keeps_mk ?_ rfl; assumption
    clear_value u4
    have ku5 : Keeps lk st s0 u5 := by
      unfold u5; apply State.scNow_keeps; apply State.safeOutputs_keeps; assumption
    clear_value u5
    apply State.safeEvent_keeps; refine keeps_ite (fun _ => ?_) (fun _ => ?_)
    · assumption
    · apply State.notice_keeps; assumption

theorem State.exitSafe_keeps (h : Keeps lk st s0 s) :
    Keeps lk st s0 (State.exitSafe s) := by
  unfold State.exitSafe
  refine keeps_ite (fun _ => ?_) (fun _ => ?_)
  · apply State.wr_keeps; assumption
  · apply State.safeEvent_keeps; apply State.scNow_keeps; apply State.lightExit_keeps; apply State.wr_keeps
    assumption

theorem State.writeExit_keeps (h : Keeps lk st s0 s) (y1 : ℕ) :
    Keeps lk st s0 (State.writeExit s y1) := by
  unfold State.writeExit
  extract_lets +onlyGivenNames u1 u2
  clear_value u1
  have ku2 : Keeps lk st s0 u2 := by
    unfold u2; refine keeps_mk ?_ rfl; assumption
  clear_value u2
  split
  · refine keeps_ite (fun _ => ?_) (fun _ => ?_)
    · apply State.exitSafe_keeps; assumption
    · assumption
  · assumption

theorem State.collisionStop_keeps (h : Keeps lk st s0 s) (y1 : ℕ) :
    Keeps lk st s0 (State.collisionStop s y1) := by
  unfold State.collisionStop
  refine keeps_foldl _ _ (fun _ _ _ => ?_) ?_
  · refine keeps_ite (fun _ => ?_) (fun _ => ?_)
    · apply State.axStop_keeps; assumption
    · assumption
  · assumption

theorem State.assertFault_keeps (h : Keeps lk st s0 s) (y1 : ℕ) (y2 : ℕ) :
    Keeps lk st s0 (State.assertFault s y1 y2) := by
  unfold State.assertFault
  extract_lets +onlyGivenNames u1 u2 u3 u4
  clear_value u1
  have ku2 : Keeps lk st s0 u2 := by
    unfold u2; apply State.wr_keeps; assumption
  clear_value u2 u3
  have ku4 : Keeps lk st s0 u4 := by
    unfold u4; refine keeps_ite (fun _ => ?_) (fun _ => ?_)
    · refine keeps_mk ?_ rfl; assumption
    · assumption
  clear_value u4
  refine keeps_ite (fun _ => ?_) (fun _ => ?_)
  · apply State.enterSafe_keeps; assumption
  · refine keeps_ite (fun _ => ?_) (fun _ => ?_)
    · apply State.collisionStop_keeps; assumption
    · assumption

theorem State.faultArrives_keeps (h : Keeps lk st s0 s) (y1 : ℕ) (y2 : ℕ) :
    Keeps lk st s0 (State.faultArrives s y1 y2) := by
  unfold State.faultArrives
  refine keeps_ite (fun _ => ?_) (fun _ => ?_)
  · assumption
  · refine keeps_ite (fun _ => ?_) (fun _ => ?_)
    · extract_lets +onlyGivenNames u2
      have ku2 : Keeps lk st s0 u2 := by
        unfold u2; apply State.assertFault_keeps; assumption
      clear_value u2
      refine keeps_mk ?_ rfl; assumption
    · refine keeps_ite (fun _ => ?_) (fun _ => ?_)
      · apply State.assertFault_keeps; refine keeps_mk ?_ rfl; assumption
      · assumption

theorem State.swFault_keeps (h : Keeps lk st s0 s) (y1 : ℕ) :
    Keeps lk st s0 (State.swFault s y1) := by
  unfold State.swFault
  refine keeps_ite (fun _ => ?_) (fun _ => ?_)
  · apply State.report_keeps; assumption
  · apply State.wr_keeps; assumption

theorem State.writeWdt_keeps (h : Keeps lk st s0 s) (y1 : ℕ) :
    Keeps lk st s0 (State.writeWdt s y1) := by
  unfold State.writeWdt
  extract_lets +onlyGivenNames u1
  have ku1 : Keeps lk st s0 u1 := by
    unfold u1; apply State.wrAll_keeps; assumption
  clear_value u1
  refine keeps_ite (fun _ => ?_) (fun _ => ?_)
  · refine keeps_mk ?_ rfl; assumption
  · assumption

theorem State.kick_keeps (h : Keeps lk st s0 s) (y1 : ℕ) :
    Keeps lk st s0 (State.kick s y1) := by
  unfold State.kick
  refine keeps_ite (fun _ => ?_) (fun _ => ?_)
  · assumption
  · refine keeps_ite (fun _ => ?_) (fun _ => ?_)
    · apply State.report_keeps; assumption
    · extract_lets +onlyGivenNames u1
      clear_value u1
      apply State.reportIf_keeps; refine keeps_mk ?_ rfl; assumption

theorem State.wdExpiry_keeps (h : Keeps lk st s0 s) :
    Keeps lk st s0 (State.wdExpiry s) := by
  unfold State.wdExpiry
  refine keeps_ite (fun _ => ?_) (fun _ => ?_)
  · apply State.report_keeps; assumption
  · assumption

theorem State.force_keeps (h : Keeps lk st s0 s) :
    Keeps lk st s0 (State.force s) := by
  unfold State.force
  extract_lets +onlyGivenNames u1 u2 u3
  have ku1 : Keeps lk st s0 u1 := by
    unfold u1; apply State.fifeSafe_keeps; apply State.wr_keeps; assumption
  clear_value u1
  have ku2 : Keeps lk st s0 u2 := by
    unfold u2; refine keeps_foldl _ _ (fun _ _ _ => ?_) ?_
    · apply State.bchEval_keeps; assumption
    · assumption
  clear_value u2
  have ku3 : Keeps lk st s0 u3 := by
    unfold u3; refine keeps_foldl _ _ (fun _ _ _ => ?_) ?_
    · refine keeps_ite (fun _ => ?_) (fun _ => ?_)
      · apply State.llSend_keeps; assumption
      · assumption
    · assumption
  clear_value u3
  refine keeps_mk ?_ rfl; assumption

theorem State.clockWindow_keeps (h : Keeps lk st s0 s) (y1 : ℕ) :
    Keeps lk st s0 (State.clockWindow s y1) := by
  unfold State.clockWindow
  refine keeps_ite (fun _ => ?_) (fun _ => ?_)
  · apply State.force_keeps; apply State.report_keeps; assumption
  · assumption

theorem State.stoMismatch_keeps (h : Keeps lk st s0 s) (y1 : ℕ) (y2 : Bool) :
    Keeps lk st s0 (State.stoMismatch s y1 y2) := by
  unfold State.stoMismatch
  refine keeps_ite (fun _ => ?_) (fun _ => ?_)
  · apply State.report_keeps; assumption
  · assumption

theorem State.stoTest_keeps (h : Keeps lk st s0 s) (y1 : ℕ) (y2 : Bool) :
    Keeps lk st s0 (State.stoTest s y1 y2) := by
  unfold State.stoTest
  refine keeps_ite (fun _ => ?_) (fun _ => ?_)
  · apply State.reportIf_keeps; refine keeps_mk ?_ rfl; assumption
  · assumption

theorem State.stoTestEnd_keeps (h : Keeps lk st s0 s) (y1 : ℕ) (y2 : Bool) :
    Keeps lk st s0 (State.stoTestEnd s y1 y2) := by
  unfold State.stoTestEnd
  split
  · refine keeps_ite (fun _ => ?_) (fun _ => ?_)
    · apply State.reportIf_keeps; refine keeps_mk ?_ rfl; assumption
    · assumption
  · assumption

theorem State.writeSto_keeps (h : Keeps lk st s0 s) (y1 : ℕ) :
    Keeps lk st s0 (State.writeSto s y1) := by
  unfold State.writeSto
  extract_lets +onlyGivenNames u1
  have ku1 : Keeps lk st s0 u1 := by
    unfold u1; apply State.wrAll_keeps; assumption
  clear_value u1
  refine keeps_ite (fun _ => ?_) (fun _ => ?_)
  · assumption
  · apply State.wrAll_keeps; assumption

theorem State.safeIn_keeps (h : Keeps lk st s0 s) (y1 : Bool) (y2 : ℕ) :
    Keeps lk st s0 (State.safeIn s y1 y2) := by
  unfold State.safeIn
  extract_lets +onlyGivenNames u1
  clear_value u1
  refine keeps_ite (fun _ => ?_) (fun _ => ?_)
  · extract_lets +onlyGivenNames u2
    have ku2 : Keeps lk st s0 u2 := by
      unfold u2; refine keeps_ite (fun _ => ?_) (fun _ => ?_)
      · apply State.wr_keeps; assumption
      · assumption
    clear_value u2
    refine keeps_mk ?_ rfl; assumption
  · extract_lets +onlyGivenNames u2
    have ku2 : Keeps lk st s0 u2 := by
      unfold u2; refine keeps_mk ?_ rfl; assumption
    clear_value u2
    refine keeps_ite (fun _ => ?_) (fun _ => ?_)
    · apply State.report_keeps; apply State.wr_keeps; assumption
    · assumption

theorem keeps_setFw (h : Keeps lk st s0 s) (f : List (Nat × FwRegion))
    (k : ∀ x ∈ s.fwLocked, ∀ r, tget ({} : FwRegion) f (fwKey x r) = tget {} s.fw (fwKey x r)) :
    Keeps lk st s0 { s with fw := f } :=
  h.trans ⟨rfl, id, fun w => w, fun w => w, fun _ x hx => ⟨hx, k x hx⟩, fun _ => ⟨rfl, rfl, rfl⟩⟩

theorem State.fwWrite_keeps (h : Keeps lk st s0 s) : Keeps lk st s0 s.fwWrite := by
  unfold State.fwWrite
  extract_lets t
  split
  · exact State.wr_keeps h _ _
  · rename_i hn
    refine keeps_setFw h _ fun x hx r => tget_tset_ne _ _ _ ?_
    have hl : ¬ s.fwLocked.contains t = true := fun e => hn (.inr e)
    have hx' : x ≠ t := fun e => hl (by rw [← e]; exact List.contains_iff_mem.2 hx)
    unfold fwKey; omega

theorem State.fwRead_keeps (h : Keeps lk st s0 s) :
    Keeps lk st s0 (State.fwRead s) := by
  unfold State.fwRead
  extract_lets +onlyGivenNames u1
  clear_value u1
  refine keeps_ite (fun _ => ?_) (fun _ => ?_)
  · apply State.wr_keeps; assumption
  · extract_lets +onlyGivenNames u3
    clear_value u3
    apply State.wrAll_keeps; assumption

theorem State.fwArm_keeps (h : Keeps lk st s0 s) :
    Keeps lk st s0 (State.fwArm s) := by
  unfold State.fwArm
  extract_lets +onlyGivenNames u1
  clear_value u1
  refine keeps_ite (fun _ => ?_) (fun _ => ?_)
  · apply State.wr_keeps; assumption
  · refine keeps_ite (fun _ => ?_) (fun _ => ?_)
    · assumption
    · refine keeps_mk ?_ rfl; assumption

theorem State.fwLock_keeps (h : Keeps lk st s0 s) : Keeps lk st s0 s.fwLock := by
  unfold State.fwLock; dsimp only; split
  · exact State.wr_keeps h _ _
  · split
    · exact h
    · exact h.trans ⟨rfl, id, fun w => w, fun w => w, fun _ x hx => ⟨List.mem_cons_of_mem _ hx, fun r => rfl⟩, fun _ => ⟨rfl, rfl, rfl⟩⟩

theorem State.writeFwCmd_keeps (h : Keeps lk st s0 s) (y1 : ℕ) :
    Keeps lk st s0 (State.writeFwCmd s y1) := by
  unfold State.writeFwCmd
  extract_lets +onlyGivenNames u1 u2 u3
  have ku1 : Keeps lk st s0 u1 := by
    unfold u1; refine keeps_ite (fun _ => ?_) (fun _ => ?_)
    · apply State.fwWrite_keeps; assumption
    · assumption
  clear_value u1
  have ku2 : Keeps lk st s0 u2 := by
    unfold u2; refine keeps_ite (fun _ => ?_) (fun _ => ?_)
    · apply State.fwRead_keeps; assumption
    · assumption
  clear_value u2
  have ku3 : Keeps lk st s0 u3 := by
    unfold u3; refine keeps_ite (fun _ => ?_) (fun _ => ?_)
    · apply State.fwArm_keeps; assumption
    · assumption
  clear_value u3
  refine keeps_ite (fun _ => ?_) (fun _ => ?_)
  · apply State.fwLock_keeps; assumption
  · assumption

end Sys2Proof.Machine
end

