-- ==== Sys2Proof/Laws/Keeps/BootCore.lean ====
section
/-! SUPPORT. What the operations of Machine/BootCore.lean keep. -/

set_option linter.all false

namespace Sys2Proof.Machine

variable {lk st : Prop} {s0 s t : State}

theorem State.toStage_keeps (h : Keeps lk st s0 s) (y1 : ℕ) :
    Keeps lk st s0 (State.toStage s y1) := by
  unfold State.toStage
  apply State.wr_keeps; assumption

theorem State.bootFail_keeps (h : Keeps lk st s0 s) (y1 : ℕ) :
    Keeps lk st s0 (State.bootFail s y1) := by
  unfold State.bootFail
  apply State.toStage_keeps; apply State.wr_keeps; assumption

theorem State.thermE_keeps (h : Keeps lk st s0 s) :
    Keeps lk st s0 (State.thermE s) := by
  unfold State.thermE
  apply State.wrAll_keeps; assumption

theorem State.porstLow_keeps (h : Keeps False False s0 s) : Keeps False False s0 s.porstLow := by
  unfold State.porstLow
  extract_lets t
  refine State.wrAll_keeps (s := { t with boot := { t.boot with porst := true } }) ?_ _
  exact h.trans ⟨rfl, fun _ => rfl, fun _ => rfl, fun _ => rfl, fun e => e.elim, fun e => e.elim⟩

theorem State.porstHigh_keeps (h : Keeps lk st s0 s) (y1 : ℕ) :
    Keeps lk st s0 (State.porstHigh s y1) := by
  unfold State.porstHigh
  refine keeps_ite (fun _ => ?_) (fun _ => ?_)
  · apply State.wrAll_keeps; refine keeps_mk ?_ rfl; assumption
  · assumption

theorem State.sysReset_keeps (h : Keeps lk st s0 s) : Keeps lk st s0 s.sysReset := by
  refine h.trans ⟨rfl, fun hs => ?_, fun w => w, fun w => tsorted_filter _ w, fun _ x hx => ⟨hx, fun r => rfl⟩, fun _ => ⟨rfl, rfl, rfl⟩⟩
  simp only [State.shape, List.cons.injEq] at hs
  simp [State.sysReset, State.outside, State.shape, hs]

theorem State.islandPoison_keeps (h : Keeps lk st s0 s) (y1 : List Outstanding) :
    Keeps lk st s0 (State.islandPoison s y1) := by
  unfold State.islandPoison
  refine keeps_ite (fun _ => ?_) (fun _ => ?_)
  · refine keeps_mk ?_ rfl; assumption
  · assumption

theorem State.sysrstLow_keeps (h : Keeps lk st s0 s) :
    Keeps lk st s0 (State.sysrstLow s) := by
  unfold State.sysrstLow
  refine keeps_ite (fun _ => ?_) (fun _ => ?_)
  · assumption
  · extract_lets +onlyGivenNames u1 u2 u3
    have ku1 : Keeps lk st s0 u1 := by
      unfold u1; refine keeps_ite (fun _ => ?_) (fun _ => ?_)
      · apply State.thermE_keeps; apply State.sysReset_keeps; assumption
      · apply State.sysReset_keeps; assumption
    clear_value u1
    have ku2 : Keeps lk st s0 u2 := by
      unfold u2; refine keeps_ite (fun _ => ?_) (fun _ => ?_)
      · apply State.toStage_keeps; assumption
      · assumption
    clear_value u2
    have ku3 : Keeps lk st s0 u3 := by
      unfold u3; apply State.wrAll_keeps; assumption
    clear_value u3
    apply State.enterSafe_keeps; apply State.islandPoison_keeps; refine keeps_mk ?_ rfl; assumption

theorem State.sysrstHigh_keeps (h : Keeps lk st s0 s) :
    Keeps lk st s0 (State.sysrstHigh s) := by
  unfold State.sysrstHigh
  refine keeps_mk ?_ rfl; assumption

theorem State.refWindows_keeps (h : Keeps lk st s0 s) (y1 : List ℕ) :
    Keeps lk st s0 (State.refWindows s y1) := by
  unfold State.refWindows
  refine keeps_ite (fun _ => ?_) (fun _ => ?_)
  · refine keeps_mk ?_ rfl; assumption
  · assumption

theorem State.pllLimit_keeps (h : Keeps lk st s0 s) (y1 : List Bool) :
    Keeps lk st s0 (State.pllLimit s y1) := by
  unfold State.pllLimit
  refine keeps_ite (fun _ => ?_) (fun _ => ?_)
  · extract_lets +onlyGivenNames u1
    have ku1 : Keeps lk st s0 u1 := by
      unfold u1; apply State.wrAll_keeps; assumption
    clear_value u1
    refine keeps_ite (fun _ => ?_) (fun _ => ?_)
    · assumption
    · apply State.bootFail_keeps; assumption
  · assumption

theorem State.align_keeps (h : Keeps lk st s0 s) :
    Keeps lk st s0 (State.align s) := by
  unfold State.align
  refine keeps_ite (fun _ => ?_) (fun _ => ?_)
  · apply State.toStage_keeps; apply State.wrAll_keeps; refine keeps_mk ?_ rfl; assumption
  · assumption

theorem State.shadows_keeps (h : Keeps lk st s0 s) (y1 : Fuses) :
    Keeps lk st s0 (State.shadows s y1) := by
  unfold State.shadows
  extract_lets +onlyGivenNames u1 u2
  have ku1 : Keeps lk st s0 u1 := by
    unfold u1; apply State.wrAll_keeps; assumption
  clear_value u1
  have ku2 : Keeps lk st s0 u2 := by
    unfold u2; refine keeps_foldl _ _ (fun _ _ _ => ?_) ?_
    · apply State.wr_keeps; assumption
    · assumption
  clear_value u2
  refine keeps_foldl _ _ (fun _ _ _ => ?_) ?_
  · apply State.wr_keeps; assumption
  · assumption

theorem State.readFuses_keeps (h : Keeps lk st s0 s) :
    Keeps lk st s0 (State.readFuses s) := by
  unfold State.readFuses
  refine keeps_ite (fun _ => ?_) (fun _ => ?_)
  · refine keeps_ite (fun _ => ?_) (fun _ => ?_)
    · apply State.bootFail_keeps; assumption
    · extract_lets +onlyGivenNames u1 u2 u3
      clear_value u1
      have ku2 : Keeps lk st s0 u2 := by
        unfold u2; apply State.toStage_keeps; apply State.shadows_keeps; assumption
      clear_value u2 u3
      extract_lets +onlyGivenNames u7
      have ku7 : Keeps lk st s0 u7 := by
        unfold u7; refine keeps_mk ?_ rfl; assumption
      clear_value u7
      refine keeps_ite (fun _ => ?_) (fun _ => ?_)
      · apply State.thermE_keeps; assumption
      · assumption
  · assumption

theorem State.zeroDescs_keeps (h : Keeps lk st s0 s) (y1 : ℕ) :
    Keeps lk st s0 (State.zeroDescs s y1) := by
  unfold State.zeroDescs
  apply State.clearRegs_keeps; assumption

theorem State.initZero_keeps (h : Keeps lk False s0 s) :
    Keeps lk False s0 (State.initZero s) := by
  unfold State.initZero
  extract_lets +onlyGivenNames u1
  have ku1 : Keeps lk False s0 u1 := by
    unfold u1; refine keeps_foldl _ _ (fun _ _ _ => ?_) ?_
    · apply State.zeroMem_keeps; assumption
    · assumption
  clear_value u1
  refine keeps_foldl _ _ (fun _ _ _ => ?_) ?_
  · apply State.zeroDescs_keeps; apply State.zeroRows_keeps; assumption
  · assumption

theorem State.initBist_keeps (h : Keeps lk False s0 s) (y1 : List ℕ) :
    Keeps lk False s0 (State.initBist s y1) := by
  unfold State.initBist
  extract_lets +onlyGivenNames u1 u2 u3
  clear_value u1
  have ku2 : Keeps lk False s0 u2 := by
    unfold u2; refine keeps_foldl _ _ (fun _ _ _ => ?_) ?_
    · extract_lets +onlyGivenNames u5 u6
      clear_value u5
      have ku6 : Keeps lk False s0 u6 := by
        unfold u6; apply State.bistResult_keeps; assumption
      clear_value u6
      refine keeps_ite (fun _ => ?_) (fun _ => ?_)
      · apply State.setUnit_keeps; assumption
      · assumption
    · assumption
  clear_value u2
  have ku3 : Keeps lk False s0 u3 := by
    unfold u3; apply State.zeroMem_keeps; assumption
  clear_value u3
  refine keeps_foldl _ _ (fun _ _ _ => ?_) ?_
  · apply State.zeroDescs_keeps; apply State.zeroRows_keeps; assumption
  · assumption

theorem State.initDone_keeps (h : Keeps lk False s0 s) (y1 : List ℕ) :
    Keeps lk False s0 (State.initDone s y1) := by
  unfold State.initDone
  refine keeps_ite (fun _ => ?_) (fun _ => ?_)
  · extract_lets +onlyGivenNames u4
    have ku4 : Keeps lk False s0 u4 := by
      unfold u4; refine keeps_ite (fun _ => ?_) (fun _ => ?_)
      · apply State.initBist_keeps; assumption
      · apply State.initZero_keeps; assumption
    clear_value u4
    split
    · extract_lets +onlyGivenNames u2
      have ku2 : Keeps lk False s0 u2 := by
        unfold u2; apply State.toStage_keeps; assumption
      clear_value u2
      refine keeps_mk ?_ rfl; assumption
    · extract_lets +onlyGivenNames u4
      have ku4 : Keeps lk False s0 u4 := by
        unfold u4; apply State.toStage_keeps; assumption
      clear_value u4
      refine keeps_mk ?_ rfl; assumption
    · apply State.bootFail_keeps; assumption
  · assumption

theorem State.copyFail_keeps (h : Keeps lk st s0 s) (y1 : ℕ) :
    Keeps lk st s0 (State.copyFail s y1) := by
  unfold State.copyFail
  extract_lets +onlyGivenNames u1
  have ku1 : Keeps lk st s0 u1 := by
    unfold u1; apply State.wr_keeps; assumption
  clear_value u1
  split
  · extract_lets +onlyGivenNames u3
    have ku3 : Keeps lk st s0 u3 := by
      unfold u3; apply State.toStage_keeps; assumption
    clear_value u3
    refine keeps_mk ?_ rfl; assumption
  · refine keeps_ite (fun _ => ?_) (fun _ => ?_)
    · extract_lets +onlyGivenNames u5
      have ku5 : Keeps lk st s0 u5 := by
        unfold u5; apply State.toStage_keeps; assumption
      clear_value u5
      refine keeps_mk ?_ rfl; assumption
    · apply State.toStage_keeps; assumption
  · extract_lets +onlyGivenNames u6
    have ku6 : Keeps lk st s0 u6 := by
      unfold u6; apply State.toStage_keeps; assumption
    clear_value u6
    refine keeps_mk ?_ rfl; assumption

theorem State.bootPut_keeps (h : Keeps lk False s0 s) (y0 : ℕ) (y2 : ℕ) (y3 : List Byte) :
    Keeps lk False s0 (State.bootPut y0 s y2 y3) := by
  induction y0 generalizing s y2 y3 with
  | zero =>
    rw [State.bootPut]
    assumption
  | succ n ih =>
    rw [State.bootPut]
    apply ih; apply State.writeMem_keeps; assumption

theorem State.loadSegs_keeps (h : Keeps lk False s0 s) (y1 : List Byte) (y2 : List Segment) :
    Keeps lk False s0 (State.loadSegs s y1 y2) := by
  induction y2 generalizing s y1 with
  | nil =>
    rw [State.loadSegs]
    assumption
  | cons a l ih =>
    rw [State.loadSegs]
    apply ih; apply State.bootPut_keeps; assumption

theorem State.loadImage_keeps (h : Keeps lk False s0 s) (y1 : Option (List Byte)) :
    Keeps lk False s0 (State.loadImage s y1) := by
  unfold State.loadImage
  extract_lets +onlyGivenNames u1
  clear_value u1
  refine keeps_ite (fun _ => ?_) (fun _ => ?_)
  · split
    · apply State.copyFail_keeps; assumption
    · extract_lets +onlyGivenNames u3 u4
      clear_value u3 u4
      refine keeps_ite (fun _ => ?_) (fun _ => ?_)
      · apply State.copyFail_keeps; assumption
      · refine keeps_ite (fun _ => ?_) (fun _ => ?_)
        · apply State.copyFail_keeps; assumption
        · refine keeps_ite (fun _ => ?_) (fun _ => ?_)
          · apply State.copyFail_keeps; assumption
          · refine keeps_ite (fun _ => ?_) (fun _ => ?_)
            · apply State.copyFail_keeps; assumption
            · extract_lets +onlyGivenNames u2
              have ku2 : Keeps lk False s0 u2 := by
                unfold u2; apply State.toStage_keeps; apply State.loadSegs_keeps; assumption
              clear_value u2
              refine keeps_mk ?_ rfl; assumption
  · assumption

theorem State.verifyImage_keeps (h : Keeps lk st s0 s) :
    Keeps lk st s0 (State.verifyImage s) := by
  unfold State.verifyImage
  refine keeps_ite (fun _ => ?_) (fun _ => ?_)
  · extract_lets +onlyGivenNames u1 u2
    clear_value u1
    have ku2 : Keeps lk st s0 u2 := by
      unfold u2; refine keeps_foldl _ _ (fun _ _ _ => ?_) ?_
      · apply State.wr_keeps; assumption
      · assumption
    clear_value u2
    split
    · apply State.toStage_keeps; apply State.wrAll_keeps; assumption
    · apply State.copyFail_keeps; assumption
  · assumption

theorem State.bootWord_keeps (h : Keeps lk False s0 s) (y1 : ℕ) :
    Keeps lk False s0 (State.bootWord s y1) := by
  unfold State.bootWord
  extract_lets +onlyGivenNames u1
  clear_value u1
  refine keeps_ite (fun _ => ?_) (fun _ => ?_)
  · extract_lets +onlyGivenNames u1
    clear_value u1
    apply State.wr_keeps; apply State.writeMem_keeps; assumption
  · apply State.count_keeps; assumption

theorem State.hostGoCmd_keeps (h : Keeps lk st s0 s) :
    Keeps lk st s0 (State.hostGoCmd s) := by
  unfold State.hostGoCmd
  refine keeps_ite (fun _ => ?_) (fun _ => ?_)
  · extract_lets +onlyGivenNames u2
    have ku2 : Keeps lk st s0 u2 := by
      unfold u2; apply State.toStage_keeps; assumption
    clear_value u2
    refine keeps_mk ?_ rfl; assumption
  · apply State.wr_keeps; assumption

theorem State.islandZeroed_keeps (h : Keeps lk False s0 s) (y1 : Bool) :
    Keeps lk False s0 (State.islandZeroed s y1) := by
  unfold State.islandZeroed
  refine keeps_ite (fun _ => ?_) (fun _ => ?_)
  · refine keeps_ite (fun _ => ?_) (fun _ => ?_)
    · extract_lets +onlyGivenNames u1
      have ku1 : Keeps lk False s0 u1 := by
        unfold u1; apply State.zeroMem_keeps; assumption
      clear_value u1
      refine keeps_mk ?_ rfl; assumption
    · apply State.bootFail_keeps; assumption
  · assumption

theorem State.islandCopy_keeps (h : Keeps lk False s0 s) :
    Keeps lk False s0 (State.islandCopy s) := by
  unfold State.islandCopy
  split
  · refine keeps_ite (fun _ => ?_) (fun _ => ?_)
    · extract_lets +onlyGivenNames u2
      have ku2 : Keeps lk False s0 u2 := by
        unfold u2; apply State.putBytes_keeps; assumption
      clear_value u2
      refine keeps_mk ?_ rfl; assumption
    · assumption
  · assumption

theorem State.islandStart_keeps (h : Keeps lk st s0 s) :
    Keeps lk st s0 (State.islandStart s) := by
  unfold State.islandStart
  refine keeps_ite (fun _ => ?_) (fun _ => ?_)
  · refine keeps_mk ?_ rfl; assumption
  · assumption

theorem State.mgmtGoCmd_keeps (h : Keeps lk st s0 s) :
    Keeps lk st s0 (State.mgmtGoCmd s) := by
  unfold State.mgmtGoCmd
  refine keeps_ite (fun _ => ?_) (fun _ => ?_)
  · apply State.wr_keeps; assumption
  · refine keeps_ite (fun _ => ?_) (fun _ => ?_)
    · extract_lets +onlyGivenNames u1
      have ku1 : Keeps lk st s0 u1 := by
        unfold u1; apply State.toStage_keeps; assumption
      clear_value u1
      extract_lets +onlyGivenNames u4
      clear_value u4
      extract_lets +onlyGivenNames u5
      have ku5 : Keeps lk st s0 u5 := by
        unfold u5; refine keeps_mk ?_ rfl; assumption
      clear_value u5
      apply State.opTarget_keeps; assumption
    · assumption

theorem State.writeBootCtrl_keeps (h : Keeps lk st s0 s) (y1 : ℕ) (y2 : ℕ) :
    Keeps lk st s0 (State.writeBootCtrl s y1 y2) := by
  unfold State.writeBootCtrl
  extract_lets +onlyGivenNames u1 u2 u3
  have ku1 : Keeps lk st s0 u1 := by
    unfold u1; refine keeps_ite (fun _ => ?_) (fun _ => ?_)
    · apply State.mgmtGoCmd_keeps; assumption
    · assumption
  clear_value u1
  have ku2 : Keeps lk st s0 u2 := by
    unfold u2; refine keeps_ite (fun _ => ?_) (fun _ => ?_)
    · apply State.wr_keeps; assumption
    · assumption
  clear_value u2
  have ku3 : Keeps lk st s0 u3 := by
    unfold u3; refine keeps_ite (fun _ => ?_) (fun _ => ?_)
    · apply State.hostGoCmd_keeps; assumption
    · assumption
  clear_value u3
  refine keeps_ite (fun _ => ?_) (fun _ => ?_)
  · refine keeps_mk ?_ rfl; assumption
  · assumption

theorem State.pcieTrain_keeps (h : Keeps lk st s0 s) :
    Keeps lk st s0 (State.pcieTrain s) := by
  unfold State.pcieTrain
  refine keeps_ite (fun _ => ?_) (fun _ => ?_)
  · refine keeps_mk ?_ rfl; assumption
  · assumption

theorem State.configRequest_keeps (h : Keeps lk st s0 s) (y1 : ℕ) :
    Keeps lk st s0 (State.configRequest s y1) := by
  unfold State.configRequest
  refine keeps_ite (fun _ => ?_) (fun _ => ?_)
  · assumption
  · apply State.answered_keeps; assumption

theorem State.bankLoss_keeps (h : Keeps lk st s0 s) (y1 : ℕ) :
    Keeps lk st s0 (State.bankLoss s y1) := by
  unfold State.bankLoss
  extract_lets +onlyGivenNames u1
  clear_value u1
  extract_lets +onlyGivenNames u3
  have ku3 : Keeps lk st s0 u3 := by
    unfold u3; refine keeps_mk ?_ rfl; assumption
  clear_value u3
  split
  · refine keeps_mk ?_ rfl; assumption
  · apply State.safeIn_keeps; assumption
  · assumption

theorem State.bankReturn_keeps (h : Keeps lk st s0 s) (y1 : ℕ) :
    Keeps lk st s0 (State.bankReturn s y1) := by
  unfold State.bankReturn
  refine keeps_mk ?_ rfl; assumption

end Sys2Proof.Machine
end

