-- ==== Sys2Proof/Laws/Keeps/RasterCore.lean ====
section
/-! SUPPORT. What the operations of Machine/RasterCore.lean keep. -/

set_option linter.all false

namespace Sys2Proof.Machine

variable {lk st : Prop} {s0 s t : State}

theorem State.rasIndex_keeps (h : Keeps lk st s0 s) (y1 : Who) (y2 : RasDraw) (y3 : ℕ) :
    Keeps lk st s0 (State.rasIndex s y1 y2 y3).1 := by
  unfold State.rasIndex
  refine keeps_ite1 (fun _ => ?_) (fun _ => ?_)
  · dsimp only; assumption
  · extract_lets +onlyGivenNames u2 u3
    clear_value u2
    have ku3 : Keeps lk st s0 u3.1 := by
      unfold u3; apply State.gmReads_keeps; assumption
    clear_value u3
    dsimp only; assumption

theorem State.rasVertex_keeps (h : Keeps lk st s0 s) (y1 : Who) (y2 : RasDraw) (y3 : ℕ) :
    Keeps lk st s0 (State.rasVertex s y1 y2 y3).1 := by
  unfold State.rasVertex
  extract_lets +onlyGivenNames u1
  have ku1 : Keeps lk st s0 u1.1 := by
    unfold u1; apply State.rasIndex_keeps; assumption
  clear_value u1
  refine keeps_ite1 (fun _ => ?_) (fun _ => ?_)
  · dsimp only; assumption
  · extract_lets +onlyGivenNames u4
    have ku4 : Keeps lk st s0 u4.1 := by
      unfold u4; apply State.gmReads_keeps; assumption
    clear_value u4
    dsimp only; assumption

theorem State.rasDrawTris_keeps (h : Keeps lk st s0 s) (y1 : Who) (y2 : ℕ) (y3 : RasDraw) (y4 : List ℕ) (y5 : List RasPrim × ℕ × ℕ) :
    Keeps lk st s0 (State.rasDrawTris s y1 y2 y3 y4 y5).1 := by
  induction y4 generalizing s y1 y2 y3 y5 with
  | nil =>
    rw [State.rasDrawTris]
    dsimp only; assumption
  | cons a l ih =>
    rw [State.rasDrawTris]
    refine keeps_ite1 (fun _ => ?_) (fun _ => ?_)
    · dsimp only; apply State.rasVertex_keeps; apply State.rasVertex_keeps; apply State.rasVertex_keeps
      assumption
    · extract_lets +onlyGivenNames u1
      clear_value u1
      apply ih; apply State.rasVertex_keeps; apply State.rasVertex_keeps; apply State.rasVertex_keeps
      assumption

theorem State.rasFetch_keeps (h : Keeps lk st s0 s) (y1 : Who) (y2 : ℕ) (y3 : List RasDraw) (y4 : List RasPrim × ℕ × ℕ) :
    Keeps lk st s0 (State.rasFetch s y1 y2 y3 y4).1 := by
  induction y3 generalizing s y1 y2 y4 with
  | nil =>
    rw [State.rasFetch]
    dsimp only; assumption
  | cons a l ih =>
    rw [State.rasFetch]
    refine keeps_ite1 (fun _ => ?_) (fun _ => ?_)
    · apply State.rasDrawTris_keeps; assumption
    · apply ih; apply State.rasDrawTris_keeps; assumption

theorem State.texel_keeps (h : Keeps lk st s0 s) (y1 : Who) (y2 : RasDraw) (y3 : ℕ) (y4 : ℕ) :
    Keeps lk st s0 (State.texel s y1 y2 y3 y4).1 := by
  unfold State.texel
  extract_lets +onlyGivenNames u1 u2 u3
  clear_value u1 u2
  have ku3 : Keeps lk st s0 u3.1 := by
    unfold u3; apply State.gmReads_keeps; assumption
  clear_value u3
  dsimp only; assumption

theorem State.texSample_keeps (h : Keeps lk st s0 s) (y1 : Who) (y2 : RasDraw) (y3 : ℕ) (y4 : ℕ) :
    Keeps lk st s0 (State.texSample s y1 y2 y3 y4).1 := by
  unfold State.texSample
  extract_lets +onlyGivenNames u1 u2 u3
  have ku1 : Keeps lk st s0 u1 := by
    unfold u1; apply State.drawn_keeps; assumption
  clear_value u1 u2 u3
  refine keeps_ite1 (fun _ => ?_) (fun _ => ?_)
  · extract_lets +onlyGivenNames u4
    have ku4 : Keeps lk st s0 u4.1 := by
      unfold u4; apply State.texel_keeps; assumption
    clear_value u4
    dsimp only; assumption
  · extract_lets +onlyGivenNames u5 u6 u7 u8 u9 u10 u11 u12 u13 u14 u15 u16 u17 u18
    clear_value u5 u6 u7 u8 u9 u10 u11 u12 u13
    have ku14 : Keeps lk st s0 u14.1 := by
      unfold u14; apply State.texel_keeps; assumption
    clear_value u14
    have ku15 : Keeps lk st s0 u15.1 := by
      unfold u15; apply State.texel_keeps; assumption
    clear_value u15
    have ku16 : Keeps lk st s0 u16.1 := by
      unfold u16; apply State.texel_keeps; assumption
    clear_value u16
    have ku17 : Keeps lk st s0 u17.1 := by
      unfold u17; apply State.texel_keeps; assumption
    clear_value u17 u18
    dsimp only; assumption

theorem State.fragment_keeps (h : Keeps lk st s0 s) (y1 : Who) (y2 : RasRun) (y3 : RasPrim) (y4 : ℕ) :
    Keeps lk st s0 (State.fragment s y1 y2 y3 y4).1 := by
  unfold State.fragment
  extract_lets +onlyGivenNames u1 u2
  clear_value u1 u2
  split
  · dsimp only; assumption
  · extract_lets +onlyGivenNames u3 u4 u5 u6
    clear_value u3 u4 u5 u6
    refine keeps_ite1 (fun _ => ?_) (fun _ => ?_)
    · dsimp only; assumption
    · extract_lets +onlyGivenNames u7 u8
      clear_value u7
      have ku8 : Keeps lk st s0 u8.1 := by
        unfold u8; refine keeps_ite1 (fun _ => ?_) (fun _ => ?_)
        · apply State.texSample_keeps; apply State.drawn_keeps; assumption
        · dsimp only; apply State.drawn_keeps; assumption
      clear_value u8
      refine keeps_ite1 (fun _ => ?_) (fun _ => ?_)
      · dsimp only; assumption
      · refine keeps_ite1 (fun _ => ?_) (fun _ => ?_)
        · dsimp only; assumption
        · extract_lets +onlyGivenNames u1 u2
          clear_value u1 u2
          dsimp only; assumption

theorem State.fragments_keeps (h : Keeps lk st s0 s) (y1 : Who) (y2 : RasPrim) (y3 : List ℕ) (y4 : RasRun) :
    Keeps lk st s0 (State.fragments s y1 y2 y3 y4).1 := by
  induction y3 generalizing s y1 y2 y4 with
  | nil =>
    rw [State.fragments]
    dsimp only; assumption
  | cons a l ih =>
    rw [State.fragments]
    refine keeps_ite1 (fun _ => ?_) (fun _ => ?_)
    · apply State.fragment_keeps; assumption
    · apply ih; apply State.fragment_keeps; assumption

theorem State.rasPrims_keeps (h : Keeps lk st s0 s) (y1 : Who) (y2 : List RasPrim) (y3 : RasRun) :
    Keeps lk st s0 (State.rasPrims s y1 y2 y3).1 := by
  induction y2 generalizing s y1 y3 with
  | nil =>
    rw [State.rasPrims]
    dsimp only; assumption
  | cons a l ih =>
    rw [State.rasPrims]
    refine keeps_ite1 (fun _ => ?_) (fun _ => ?_)
    · refine keeps_ite1 (fun _ => ?_) (fun _ => ?_)
      · apply State.fragments_keeps; assumption
      · dsimp only; assumption
    · apply ih; refine keeps_ite1 (fun _ => ?_) (fun _ => ?_)
      · apply State.fragments_keeps; assumption
      · dsimp only; assumption

theorem blockOf_keeps {p : State × Status × List Byte} (h : Keeps lk st s0 p.1) (y0 : ℕ) (y1 : ℕ) :
    Keeps lk st s0 (blockOf y0 y1 p).1 := by
  unfold blockOf
  dsimp only; assumption

theorem RasSurf.readBlock_keeps {p : State × Status × List Byte} (h : Keeps lk st s0 p.1) (y0 : RasSurf) (y1 : Who) (y2 : ℕ) :
    Keeps lk st s0 (RasSurf.readBlock y0 y1 y2 p).1 := by
  unfold RasSurf.readBlock
  refine keeps_ite1 (fun _ => ?_) (fun _ => ?_)
  · dsimp only; assumption
  · refine keeps_ite1 (fun _ => ?_) (fun _ => ?_)
    · dsimp only; assumption
    · apply blockOf_keeps; apply State.gmReads_keeps; assumption

theorem State.readBlock_keeps (h : Keeps lk st s0 s) (y1 : Who) (y2 : RasSurf) (y3 : ℕ) :
    Keeps lk st s0 (State.readBlock s y1 y2 y3).1 := by
  unfold State.readBlock
  apply RasSurf.readBlock_keeps; apply State.gmReads_keeps; assumption

theorem State.writeBlock_keeps (h : Keeps lk False s0 s) (y1 : Who) (y2 : RasSurf) (y3 : ℕ) (y4 : List ℕ) :
    Keeps lk False s0 (State.writeBlock s y1 y2 y3 y4).1 := by
  unfold State.writeBlock
  extract_lets +onlyGivenNames u1 u2
  clear_value u1
  have ku2 : Keeps lk False s0 u2.1 := by
    unfold u2; apply State.gmWrites_keeps; assumption
  clear_value u2
  refine keeps_ite1 (fun _ => ?_) (fun _ => ?_)
  · assumption
  · apply State.gmWrites_keeps; assumption

theorem State.loadRows_keeps (h : Keeps lk st s0 s) (y1 : Who) (y2 : RasSurf) (y3 : ℕ) (y4 : ℕ) (y5 : List ℕ) (y6 : List ℕ) :
    Keeps lk st s0 (State.loadRows s y1 y2 y3 y4 y5 y6).1 := by
  induction y5 generalizing s y1 y2 y3 y4 y6 with
  | nil =>
    rw [State.loadRows]
    dsimp only; assumption
  | cons a l ih =>
    rw [State.loadRows]
    refine keeps_ite1 (fun _ => ?_) (fun _ => ?_)
    · dsimp only; assumption
    · extract_lets +onlyGivenNames u1 u2
      clear_value u1
      have ku2 : Keeps lk st s0 u2.1 := by
        unfold u2; apply State.gmReads_keeps; assumption
      clear_value u2
      refine keeps_ite1 (fun _ => ?_) (fun _ => ?_)
      · dsimp only; assumption
      · apply ih; assumption

theorem blockInto_keeps {p : State × Status × List ℕ} (h : Keeps lk st s0 p.1) (y0 : ℕ) (y1 : List ℕ) :
    Keeps lk st s0 (blockInto y0 y1 p).1 := by
  unfold blockInto
  refine keeps_ite1 (fun _ => ?_) (fun _ => ?_)
  · dsimp only; assumption
  · dsimp only; assumption

theorem State.loadBlocks_keeps (h : Keeps lk st s0 s) (y1 : Who) (y2 : RasSurf) (y3 : List (ℕ × ℕ)) (y4 : List ℕ) :
    Keeps lk st s0 (State.loadBlocks s y1 y2 y3 y4).1 := by
  unfold State.loadBlocks
  refine keeps_foldl1 _ _ (fun _ _ _ => ?_) ?_
  · refine keeps_ite1 (fun _ => ?_) (fun _ => ?_)
    · assumption
    · apply blockInto_keeps; apply State.readBlock_keeps; assumption
  · dsimp only; assumption

theorem State.loadBin_keeps (h : Keeps lk st s0 s) (y1 : Who) (y2 : RasSurf) (y3 : ℕ) (y4 : ℕ) :
    Keeps lk st s0 (State.loadBin s y1 y2 y3 y4).1 := by
  unfold State.loadBin
  extract_lets +onlyGivenNames u1
  clear_value u1
  refine keeps_ite1 (fun _ => ?_) (fun _ => ?_)
  · dsimp only; assumption
  · refine keeps_ite1 (fun _ => ?_) (fun _ => ?_)
    · apply State.loadBlocks_keeps; assumption
    · apply State.loadRows_keeps; assumption

theorem State.storeRows_keeps (h : Keeps lk False s0 s) (y1 : Who) (y2 : RasSurf) (y3 : ℕ) (y4 : ℕ) (y5 : List ℕ) (y6 : List (ℕ × List ℕ)) :
    Keeps lk False s0 (State.storeRows s y1 y2 y3 y4 y5 y6).1 := by
  induction y6 generalizing s y1 y2 y3 y4 y5 with
  | nil =>
    rw [State.storeRows]
    dsimp only; assumption
  | cons a l ih =>
    obtain ⟨a1, a2⟩ := a
    rw [State.storeRows]
    refine keeps_ite1 (fun _ => ?_) (fun _ => ?_)
    · apply State.gmWrites_keeps; assumption
    · apply ih; apply State.gmWrites_keeps; assumption

theorem State.storeBlocks_keeps (h : Keeps lk False s0 s) (y1 : Who) (y2 : RasSurf) (y3 : ℕ) (y4 : ℕ) (y5 : List ℕ) (y6 : List (ℕ × ℕ)) :
    Keeps lk False s0 (State.storeBlocks s y1 y2 y3 y4 y5 y6).1 := by
  induction y6 generalizing s y1 y2 y3 y4 y5 with
  | nil =>
    rw [State.storeBlocks]
    dsimp only; assumption
  | cons a l ih =>
    obtain ⟨a1, a2⟩ := a
    rw [State.storeBlocks]
    refine keeps_ite1 (fun _ => ?_) (fun _ => ?_)
    · apply State.writeBlock_keeps; assumption
    · apply ih; apply State.writeBlock_keeps; assumption

theorem State.storeBin_keeps (h : Keeps lk False s0 s) (y1 : Who) (y2 : RasSurf) (y3 : ℕ) (y4 : ℕ) (y5 : List ℕ) :
    Keeps lk False s0 (State.storeBin s y1 y2 y3 y4 y5).1 := by
  unfold State.storeBin
  extract_lets +onlyGivenNames u1 u2
  clear_value u1 u2
  split
  refine keeps_ite1 (fun _ => ?_) (fun _ => ?_)
  · dsimp only; refine keeps_fst (by assumption) ?_; refine keeps_ite1 (fun _ => ?_) (fun _ => ?_)
    · apply State.gmReads_keeps; assumption
    · dsimp only; assumption
  · refine keeps_ite1 (fun _ => ?_) (fun _ => ?_)
    · dsimp only; refine keeps_fst (by assumption) ?_; refine keeps_ite1 (fun _ => ?_) (fun _ => ?_)
      · apply State.gmReads_keeps; assumption
      · dsimp only; assumption
    · split
      refine keeps_ite1 (fun _ => ?_) (fun _ => ?_)
      · dsimp only; refine keeps_fst (by assumption) ?_; refine keeps_ite1 (fun _ => ?_) (fun _ => ?_)
        · apply State.storeBlocks_keeps; refine keeps_fst (by assumption) ?_
          refine keeps_ite1 (fun _ => ?_) (fun _ => ?_)
          · apply State.gmReads_keeps; assumption
          · dsimp only; assumption
        · apply State.storeRows_keeps; refine keeps_fst (by assumption) ?_
          refine keeps_ite1 (fun _ => ?_) (fun _ => ?_)
          · apply State.gmReads_keeps; assumption
          · dsimp only; assumption
      · refine keeps_ite1 (fun _ => ?_) (fun _ => ?_)
        · split
          dsimp only; refine keeps_fst (by assumption) ?_; apply State.gmWrites_keeps
          refine keeps_fst (by assumption) ?_; refine keeps_ite1 (fun _ => ?_) (fun _ => ?_)
          · apply State.storeBlocks_keeps; refine keeps_fst (by assumption) ?_
            refine keeps_ite1 (fun _ => ?_) (fun _ => ?_)
            · apply State.gmReads_keeps; assumption
            · dsimp only; assumption
          · apply State.storeRows_keeps; refine keeps_fst (by assumption) ?_
            refine keeps_ite1 (fun _ => ?_) (fun _ => ?_)
            · apply State.gmReads_keeps; assumption
            · dsimp only; assumption
        · dsimp only; refine keeps_fst (by assumption) ?_; refine keeps_ite1 (fun _ => ?_) (fun _ => ?_)
          · apply State.storeBlocks_keeps; refine keeps_fst (by assumption) ?_
            refine keeps_ite1 (fun _ => ?_) (fun _ => ?_)
            · apply State.gmReads_keeps; assumption
            · dsimp only; assumption
          · apply State.storeRows_keeps; refine keeps_fst (by assumption) ?_
            refine keeps_ite1 (fun _ => ?_) (fun _ => ?_)
            · apply State.gmReads_keeps; assumption
            · dsimp only; assumption

theorem State.poisonBin_keeps (h : Keeps lk st s0 s) (y1 : RasSurf) (y2 : ℕ) (y3 : ℕ) :
    Keeps lk st s0 (State.poisonBin s y1 y2 y3) := by
  unfold State.poisonBin
  extract_lets +onlyGivenNames u1 u2
  clear_value u1 u2
  refine keeps_foldl _ _ (fun _ _ _ => ?_) ?_
  · extract_lets +onlyGivenNames u2
    clear_value u2
    refine keeps_ite (fun _ => ?_) (fun _ => ?_)
    · assumption
    · split
      · apply State.poisonMem_keeps; assumption
      · assumption
  · assumption

theorem State.rasIdle_keeps (h : Keeps lk st s0 s) (y1 : RasRun) :
    Keeps lk st s0 (State.rasIdle s y1) := by
  unfold State.rasIdle
  extract_lets +onlyGivenNames u1
  have ku1 : Keeps lk st s0 u1 := by
    unfold u1; apply State.count_keeps; apply State.count_keeps; apply State.wrAll_keeps; assumption
  clear_value u1
  refine keeps_mk ?_ rfl; assumption

theorem State.rasEnd_keeps (h : Keeps lk False s0 s) (y1 : RasRun) (y2 : Status) (y3 : ℕ) :
    Keeps lk False s0 (State.rasEnd s y1 y2 y3) := by
  unfold State.rasEnd
  extract_lets +onlyGivenNames u1 u2 u3 u4 u5 u6
  have ku1 : Keeps lk False s0 u1 := by
    unfold u1; apply State.rasIdle_keeps; assumption
  clear_value u1 u2
  have ku3 : Keeps lk False s0 u3 := by
    unfold u3; refine keeps_ite (fun _ => ?_) (fun _ => ?_)
    · apply State.count_keeps; apply State.count_keeps; assumption
    · assumption
  clear_value u3 u4
  have ku5 : Keeps lk False s0 u5.1 := by
    unfold u5; apply State.gmWrites_keeps; assumption
  clear_value u5
  have ku6 : Keeps lk False s0 u6 := by
    unfold u6; assumption
  clear_value u6
  extract_lets +onlyGivenNames u1
  have ku1 : Keeps lk False s0 u1 := by
    unfold u1; refine keeps_ite (fun _ => ?_) (fun _ => ?_)
    · refine keeps_mk ?_ rfl; assumption
    · assumption
  clear_value u1
  refine keeps_ite (fun _ => ?_) (fun _ => ?_)
  · apply State.report__keeps; assumption
  · apply State.report__keeps; assumption

theorem State.finishBin_keeps (h : Keeps lk False s0 s) (y1 : RasRun) :
    Keeps lk False s0 (State.finishBin s y1).1 := by
  unfold State.finishBin; dsimp only
  split
  · split
    · dsimp only; assumption
    · refine keeps_ite1 (fun _ => ?_) (fun _ => ?_)
      · dsimp only; assumption
      · refine keeps_ite1 (fun _ => ?_) (fun _ => ?_)
        · dsimp only; apply State.storeBin_keeps; assumption
        · refine keeps_ite1 (fun _ => ?_) (fun _ => ?_)
          · dsimp only; apply State.storeBin_keeps; assumption
          · dsimp only; apply State.count_keeps; apply State.storeBin_keeps; assumption
  · refine keeps_ite1 (fun _ => ?_) (fun _ => ?_)
    · split
      · dsimp only; assumption
      · refine keeps_ite1 (fun _ => ?_) (fun _ => ?_)
        · dsimp only; assumption
        · refine keeps_ite1 (fun _ => ?_) (fun _ => ?_)
          · dsimp only; apply State.storeBin_keeps; assumption
          · refine keeps_ite1 (fun _ => ?_) (fun _ => ?_)
            · dsimp only; apply State.storeBin_keeps; assumption
            · dsimp only; apply State.count_keeps; apply State.storeBin_keeps; assumption
    · refine keeps_ite1 (fun _ => ?_) (fun _ => ?_)
      · dsimp only; apply State.storeBin_keeps; split
        · dsimp only; assumption
        · refine keeps_ite1 (fun _ => ?_) (fun _ => ?_)
          · dsimp only; assumption
          · refine keeps_ite1 (fun _ => ?_) (fun _ => ?_)
            · dsimp only; apply State.storeBin_keeps; assumption
            · refine keeps_ite1 (fun _ => ?_) (fun _ => ?_)
              · dsimp only; apply State.storeBin_keeps; assumption
              · dsimp only; apply State.count_keeps; apply State.storeBin_keeps; assumption
      · refine keeps_ite1 (fun _ => ?_) (fun _ => ?_)
        · dsimp only; apply State.storeBin_keeps; split
          · dsimp only; assumption
          · refine keeps_ite1 (fun _ => ?_) (fun _ => ?_)
            · dsimp only; assumption
            · refine keeps_ite1 (fun _ => ?_) (fun _ => ?_)
              · dsimp only; apply State.storeBin_keeps; assumption
              · refine keeps_ite1 (fun _ => ?_) (fun _ => ?_)
                · dsimp only; apply State.storeBin_keeps; assumption
                · dsimp only; apply State.count_keeps; apply State.storeBin_keeps; assumption
        · dsimp only; apply State.count_keeps; apply State.storeBin_keeps; split
          · dsimp only; assumption
          · refine keeps_ite1 (fun _ => ?_) (fun _ => ?_)
            · dsimp only; assumption
            · refine keeps_ite1 (fun _ => ?_) (fun _ => ?_)
              · dsimp only; apply State.storeBin_keeps; assumption
              · refine keeps_ite1 (fun _ => ?_) (fun _ => ?_)
                · dsimp only; apply State.storeBin_keeps; assumption
                · dsimp only; apply State.count_keeps; apply State.storeBin_keeps; assumption

theorem rasExported_keeps {p : State × Status} (h : Keeps lk st s0 p.1) (y0 : RasDraw) (y1 : RasRun) (y2 : ℕ) (y3 : ℕ) :
    Keeps lk st s0 (rasExported y0 y1 y2 y3 p).1 := by
  unfold rasExported
  refine keeps_ite1 (fun _ => ?_) (fun _ => ?_)
  · dsimp only; assumption
  · refine keeps_ite1 (fun _ => ?_) (fun _ => ?_)
    · dsimp only; assumption
    · dsimp only; apply State.send_keeps; assumption

theorem rasDrawn_keeps {p : State × Status × RasRun} (h : Keeps lk False s0 p.1) (y0 : RasDraw) (y1 : Who) (y2 : ℕ) :
    Keeps lk False s0 (rasDrawn y0 y1 y2 p).1 := by
  unfold rasDrawn
  refine keeps_ite1 (fun _ => ?_) (fun _ => ?_)
  · dsimp only; assumption
  · refine keeps_ite1 (fun _ => ?_) (fun _ => ?_)
    · dsimp only; assumption
    · apply rasExported_keeps; apply State.gmWrites_keeps; assumption

theorem State.rasDraw_keeps (h : Keeps lk False s0 s) (y1 : ℕ) (y2 : RasRun) :
    Keeps lk False s0 (State.rasDraw s y1 y2).1 := by
  unfold State.rasDraw
  apply rasDrawn_keeps; apply State.rasPrims_keeps; assumption

theorem State.rasDraws_keeps (h : Keeps lk False s0 s) (y1 : List ℕ) (y2 : RasRun) :
    Keeps lk False s0 (State.rasDraws s y1 y2).1 := by
  unfold State.rasDraws
  refine keeps_foldl1 _ _ (fun _ _ _ => ?_) ?_
  · split
    · apply State.rasDraw_keeps; assumption
    · assumption
  · dsimp only; assumption

theorem State.startBin_keeps (h : Keeps lk st s0 s) (y1 : RasRun) :
    Keeps lk st s0 (State.startBin s y1).1 := by
  unfold State.startBin; dsimp only
  refine keeps_ite1 (fun _ => ?_) (fun _ => ?_)
  · dsimp only; split
    · apply State.loadBin_keeps; assumption
    · dsimp only; assumption
  · dsimp only; split
    · apply State.loadBin_keeps; split
      · apply State.loadBin_keeps; assumption
      · dsimp only; assumption
    · dsimp only; split
      · apply State.loadBin_keeps; assumption
      · dsimp only; assumption

theorem State.rasFail_keeps (h : Keeps lk False s0 s) (y1 : RasRun) (y2 : Status) :
    Keeps lk False s0 (State.rasFail s y1 y2) := by
  unfold State.rasFail; dsimp only
  apply State.rasEnd_keeps; split
  · refine keeps_ite (fun _ => ?_) (fun _ => ?_)
    · apply State.poisonBin_keeps; split
      · refine keeps_ite (fun _ => ?_) (fun _ => ?_)
        · apply State.poisonBin_keeps; assumption
        · assumption
      · assumption
    · split
      · refine keeps_ite (fun _ => ?_) (fun _ => ?_)
        · apply State.poisonBin_keeps; assumption
        · assumption
      · assumption
  · split
    · refine keeps_ite (fun _ => ?_) (fun _ => ?_)
      · apply State.poisonBin_keeps; assumption
      · assumption
    · assumption

theorem State.rasBins_keeps (h : Keeps lk False s0 s) (y1 : List ℕ) (y2 : RasRun) :
    Keeps lk False s0 (State.rasBins s y1 y2) := by
  induction y1 generalizing s y2 with
  | nil =>
    rw [State.rasBins]
    apply State.rasEnd_keeps; assumption
  | cons a l ih =>
    rw [State.rasBins]
    refine keeps_ite (fun _ => ?_) (fun _ => ?_)
    · apply State.rasFail_keeps; apply State.startBin_keeps; assumption
    · split
      · refine keeps_mk ?_ rfl; refine keeps_fst (by assumption) ?_; apply State.rasDraws_keeps
        apply State.startBin_keeps; assumption
      · apply State.rasFail_keeps; refine keeps_fst (by assumption) ?_; apply State.rasDraws_keeps
        apply State.startBin_keeps; assumption
      · extract_lets +onlyGivenNames u1
        have ku1 : Keeps lk False s0 u1.1 := by
          unfold u1; apply State.finishBin_keeps; refine keeps_fst (by assumption) ?_
          apply State.rasDraws_keeps; apply State.startBin_keeps; assumption
        clear_value u1
        refine keeps_ite (fun _ => ?_) (fun _ => ?_)
        · apply State.rasFail_keeps; assumption
        · apply ih; assumption

theorem State.rasResume_keeps (h : Keeps lk False s0 s) (y1 : RasRun) :
    Keeps lk False s0 (State.rasResume s y1) := by
  unfold State.rasResume
  extract_lets +onlyGivenNames u1
  clear_value u1
  split
  · refine keeps_mk ?_ rfl; refine keeps_fst (by assumption) ?_; apply State.rasDraws_keeps; assumption
  · apply State.rasFail_keeps; refine keeps_fst (by assumption) ?_; apply State.rasDraws_keeps; assumption
  · extract_lets +onlyGivenNames u2
    have ku2 : Keeps lk False s0 u2.1 := by
      unfold u2; apply State.finishBin_keeps; refine keeps_fst (by assumption) ?_; apply State.rasDraws_keeps
      assumption
    clear_value u2
    refine keeps_ite (fun _ => ?_) (fun _ => ?_)
    · apply State.rasFail_keeps; assumption
    · apply State.rasBins_keeps; assumption

theorem State.rasPages_keeps (h : Keeps lk st s0 s) (y1 : RasRun) :
    Keeps lk st s0 (State.rasPages s y1).1 := by
  unfold State.rasPages
  extract_lets +onlyGivenNames u1
  have ku1 : Keeps lk st s0 u1.1 := by
    unfold u1; apply State.gmReads_keeps; assumption
  clear_value u1
  refine keeps_ite1 (fun _ => ?_) (fun _ => ?_)
  · dsimp only; assumption
  · extract_lets +onlyGivenNames u3
    clear_value u3
    refine keeps_ite1 (fun _ => ?_) (fun _ => ?_)
    · dsimp only; assumption
    · dsimp only; assumption

theorem State.rasBinning_keeps (h : Keeps lk False s0 s) (y1 : RasRun) :
    Keeps lk False s0 (State.rasBinning s y1) := by
  unfold State.rasBinning
  extract_lets +onlyGivenNames u1
  have ku1 : Keeps lk False s0 u1.1 := by
    unfold u1; apply State.rasPages_keeps; assumption
  clear_value u1
  refine keeps_ite (fun _ => ?_) (fun _ => ?_)
  · apply State.rasEnd_keeps; assumption
  · extract_lets +onlyGivenNames u1 u2 u3 u4
    clear_value u1 u2 u3 u4
    refine keeps_ite (fun _ => ?_) (fun _ => ?_)
    · apply State.rasEnd_keeps; assumption
    · extract_lets +onlyGivenNames u5
      have ku5 : Keeps lk False s0 u5 := by
        unfold u5; apply State.wr_keeps; refine keeps_foldl _ _ (fun _ _ _ => ?_) ?_
        · apply State.takePage_keeps; assumption
        · assumption
      clear_value u5
      refine keeps_ite (fun _ => ?_) (fun _ => ?_)
      · refine keeps_ite (fun _ => ?_) (fun _ => ?_)
        · apply State.rasEnd_keeps; assumption
        · extract_lets +onlyGivenNames u6
          have ku6 : Keeps lk False s0 u6 := by
            unfold u6; apply State.wrAll_keeps; assumption
          clear_value u6
          extract_lets +onlyGivenNames u7
          have ku7 : Keeps lk False s0 u7 := by
            unfold u7; refine keeps_mk ?_ rfl; assumption
          clear_value u7
          refine keeps_ite (fun _ => ?_) (fun _ => ?_)
          · refine keeps_mk ?_ rfl; assumption
          · assumption
      · refine keeps_ite (fun _ => ?_) (fun _ => ?_)
        · apply State.rasEnd_keeps; assumption
        · apply State.rasBins_keeps; apply State.wr_keeps; assumption

theorem State.rasSurfs_keeps (h : Keeps lk st s0 s) (y1 : Who) (y2 : RasList) :
    Keeps lk st s0 (State.rasSurfs s y1 y2).1 := by
  unfold State.rasSurfs; dsimp only
  refine keeps_ite1 (fun _ => ?_) (fun _ => ?_)
  · dsimp only; refine keeps_ite1 (fun _ => ?_) (fun _ => ?_)
    · dsimp only; assumption
    · refine keeps_ite1 (fun _ => ?_) (fun _ => ?_)
      · dsimp only; apply State.gmReads_keeps; assumption
      · split
        · dsimp only; apply State.gmReads_keeps; assumption
        · dsimp only; apply State.gmReads_keeps; assumption
  · split
    · refine keeps_ite1 (fun _ => ?_) (fun _ => ?_)
      · dsimp only; refine keeps_ite1 (fun _ => ?_) (fun _ => ?_)
        · dsimp only; refine keeps_ite1 (fun _ => ?_) (fun _ => ?_)
          · dsimp only; assumption
          · refine keeps_ite1 (fun _ => ?_) (fun _ => ?_)
            · dsimp only; apply State.gmReads_keeps; assumption
            · split
              · dsimp only; apply State.gmReads_keeps; assumption
              · dsimp only; apply State.gmReads_keeps; assumption
        · refine keeps_ite1 (fun _ => ?_) (fun _ => ?_)
          · dsimp only; apply State.gmReads_keeps; refine keeps_ite1 (fun _ => ?_) (fun _ => ?_)
            · dsimp only; assumption
            · refine keeps_ite1 (fun _ => ?_) (fun _ => ?_)
              · dsimp only; apply State.gmReads_keeps; assumption
              · split
                · dsimp only; apply State.gmReads_keeps; assumption
                · dsimp only; apply State.gmReads_keeps; assumption
          · split
            · dsimp only; apply State.gmReads_keeps; refine keeps_ite1 (fun _ => ?_) (fun _ => ?_)
              · dsimp only; assumption
              · refine keeps_ite1 (fun _ => ?_) (fun _ => ?_)
                · dsimp only; apply State.gmReads_keeps; assumption
                · split
                  · dsimp only; apply State.gmReads_keeps; assumption
                  · dsimp only; apply State.gmReads_keeps; assumption
            · dsimp only; apply State.gmReads_keeps; refine keeps_ite1 (fun _ => ?_) (fun _ => ?_)
              · dsimp only; assumption
              · refine keeps_ite1 (fun _ => ?_) (fun _ => ?_)
                · dsimp only; apply State.gmReads_keeps; assumption
                · split
                  · dsimp only; apply State.gmReads_keeps; assumption
                  · dsimp only; apply State.gmReads_keeps; assumption
      · dsimp only; refine keeps_ite1 (fun _ => ?_) (fun _ => ?_)
        · dsimp only; refine keeps_ite1 (fun _ => ?_) (fun _ => ?_)
          · dsimp only; assumption
          · refine keeps_ite1 (fun _ => ?_) (fun _ => ?_)
            · dsimp only; apply State.gmReads_keeps; assumption
            · split
              · dsimp only; apply State.gmReads_keeps; assumption
              · dsimp only; apply State.gmReads_keeps; assumption
        · refine keeps_ite1 (fun _ => ?_) (fun _ => ?_)
          · dsimp only; apply State.gmReads_keeps; refine keeps_ite1 (fun _ => ?_) (fun _ => ?_)
            · dsimp only; assumption
            · refine keeps_ite1 (fun _ => ?_) (fun _ => ?_)
              · dsimp only; apply State.gmReads_keeps; assumption
              · split
                · dsimp only; apply State.gmReads_keeps; assumption
                · dsimp only; apply State.gmReads_keeps; assumption
          · split
            · dsimp only; apply State.gmReads_keeps; refine keeps_ite1 (fun _ => ?_) (fun _ => ?_)
              · dsimp only; assumption
              · refine keeps_ite1 (fun _ => ?_) (fun _ => ?_)
                · dsimp only; apply State.gmReads_keeps; assumption
                · split
                  · dsimp only; apply State.gmReads_keeps; assumption
                  · dsimp only; apply State.gmReads_keeps; assumption
            · dsimp only; apply State.gmReads_keeps; refine keeps_ite1 (fun _ => ?_) (fun _ => ?_)
              · dsimp only; assumption
              · refine keeps_ite1 (fun _ => ?_) (fun _ => ?_)
                · dsimp only; apply State.gmReads_keeps; assumption
                · split
                  · dsimp only; apply State.gmReads_keeps; assumption
                  · dsimp only; apply State.gmReads_keeps; assumption
    · dsimp only; refine keeps_ite1 (fun _ => ?_) (fun _ => ?_)
      · dsimp only; refine keeps_ite1 (fun _ => ?_) (fun _ => ?_)
        · dsimp only; assumption
        · refine keeps_ite1 (fun _ => ?_) (fun _ => ?_)
          · dsimp only; apply State.gmReads_keeps; assumption
          · split
            · dsimp only; apply State.gmReads_keeps; assumption
            · dsimp only; apply State.gmReads_keeps; assumption
      · refine keeps_ite1 (fun _ => ?_) (fun _ => ?_)
        · dsimp only; apply State.gmReads_keeps; refine keeps_ite1 (fun _ => ?_) (fun _ => ?_)
          · dsimp only; assumption
          · refine keeps_ite1 (fun _ => ?_) (fun _ => ?_)
            · dsimp only; apply State.gmReads_keeps; assumption
            · split
              · dsimp only; apply State.gmReads_keeps; assumption
              · dsimp only; apply State.gmReads_keeps; assumption
        · split
          · dsimp only; apply State.gmReads_keeps; refine keeps_ite1 (fun _ => ?_) (fun _ => ?_)
            · dsimp only; assumption
            · refine keeps_ite1 (fun _ => ?_) (fun _ => ?_)
              · dsimp only; apply State.gmReads_keeps; assumption
              · split
                · dsimp only; apply State.gmReads_keeps; assumption
                · dsimp only; apply State.gmReads_keeps; assumption
          · dsimp only; apply State.gmReads_keeps; refine keeps_ite1 (fun _ => ?_) (fun _ => ?_)
            · dsimp only; assumption
            · refine keeps_ite1 (fun _ => ?_) (fun _ => ?_)
              · dsimp only; apply State.gmReads_keeps; assumption
              · split
                · dsimp only; apply State.gmReads_keeps; assumption
                · dsimp only; apply State.gmReads_keeps; assumption

theorem State.rasFrame_keeps (h : Keeps lk False s0 s) (y1 : ℕ) (y2 : List Byte) :
    Keeps lk False s0 (State.rasFrame s y1 y2) := by
  unfold State.rasFrame
  extract_lets +onlyGivenNames u1 u2 u3 u4
  clear_value u1 u2 u3
  have ku4 : Keeps lk False s0 u4 := by
    unfold u4; apply State.wrAll_keeps; assumption
  clear_value u4
  refine keeps_ite (fun _ => ?_) (fun _ => ?_)
  · apply State.rasEnd_keeps; assumption
  · extract_lets +onlyGivenNames u1
    have ku1 : Keeps lk False s0 u1.1 := by
      unfold u1; apply State.gmReads_keeps; assumption
    clear_value u1
    refine keeps_ite (fun _ => ?_) (fun _ => ?_)
    · apply State.rasEnd_keeps; assumption
    · extract_lets +onlyGivenNames u1 u2
      clear_value u1
      have ku2 : Keeps lk False s0 u2.1 := by
        unfold u2; refine keeps_ite1 (fun _ => ?_) (fun _ => ?_)
        · apply State.rasSurfs_keeps; assumption
        · dsimp only; assumption
      clear_value u2
      refine keeps_ite (fun _ => ?_) (fun _ => ?_)
      · apply State.rasEnd_keeps; assumption
      · extract_lets +onlyGivenNames u1 u2
        have ku1 : Keeps lk False s0 u1.1 := by
          unfold u1; apply State.rasFetch_keeps; assumption
        clear_value u1 u2
        apply State.rasBinning_keeps; assumption

theorem State.rasDesc_keeps (h : Keeps lk st s0 s) (y1 : ℕ) :
    Keeps lk st s0 (State.rasDesc s y1).1 := by
  unfold State.rasDesc; dsimp only
  refine keeps_ite1 (fun _ => ?_) (fun _ => ?_)
  · dsimp only; assumption
  · dsimp only; refine keeps_ite (fun _ => ?_) (fun _ => ?_)
    · apply State.setCtx_keeps; apply State.gmReads_keeps; assumption
    · apply State.gmReads_keeps; assumption

theorem State.rasFrameRow_keeps (h : Keeps lk False s0 s) (y1 : ℕ) :
    Keeps lk False s0 (State.rasFrameRow s y1) := by
  unfold State.rasFrameRow
  refine keeps_ite (fun _ => ?_) (fun _ => ?_)
  · assumption
  · extract_lets +onlyGivenNames u3
    have ku3 : Keeps lk False s0 u3.1 := by
      unfold u3; apply State.rasDesc_keeps; assumption
    clear_value u3
    refine keeps_ite (fun _ => ?_) (fun _ => ?_)
    · apply State.report__keeps; assumption
    · apply State.rasFrame_keeps; assumption

theorem State.rasGrow_keeps (h : Keeps lk False s0 s) (y1 : ℕ) :
    Keeps lk False s0 (State.rasGrow s y1) := by
  unfold State.rasGrow
  split
  · refine keeps_ite (fun _ => ?_) (fun _ => ?_)
    · apply State.rasBinning_keeps; apply State.wr_keeps; assumption
    · apply State.wr_keeps; assumption
  · apply State.wr_keeps; assumption

theorem State.rasGrowTimeout_keeps (h : Keeps lk False s0 s) :
    Keeps lk False s0 (State.rasGrowTimeout s) := by
  unfold State.rasGrowTimeout
  split
  · extract_lets +onlyGivenNames u1
    clear_value u1
    refine keeps_ite (fun _ => ?_) (fun _ => ?_)
    · apply State.rasEnd_keeps; assumption
    · assumption
  · assumption

theorem State.rasShadeReturn_keeps (h : Keeps lk False s0 s) :
    Keeps lk False s0 (State.rasShadeReturn s) := by
  unfold State.rasShadeReturn
  split
  · extract_lets +onlyGivenNames u1 u2
    clear_value u1 u2
    refine keeps_ite (fun _ => ?_) (fun _ => ?_)
    · assumption
    · extract_lets +onlyGivenNames u2 u3 u4
      clear_value u2
      have ku3 : Keeps lk False s0 u3 := by
        unfold u3; apply State.returnCredits_keeps; apply State.wr_keeps; assumption
      clear_value u3
      have ku4 : Keeps lk False s0 u4.1 := by
        unfold u4; apply State.gmReads_keeps; assumption
      clear_value u4
      refine keeps_ite (fun _ => ?_) (fun _ => ?_)
      · apply State.rasFail_keeps; assumption
      · apply State.rasResume_keeps; assumption
  · assumption

theorem State.rasShadeTimeout_keeps (h : Keeps lk False s0 s) :
    Keeps lk False s0 (State.rasShadeTimeout s) := by
  unfold State.rasShadeTimeout
  split
  · extract_lets +onlyGivenNames u1
    clear_value u1
    refine keeps_ite (fun _ => ?_) (fun _ => ?_)
    · apply State.rasEnd_keeps; assumption
    · assumption
  · assumption

theorem blockOut_keeps {p : State × Status × List ℕ} (h : Keeps lk False s0 p.1) (y0 : Who) (y1 : RasSurf) (y2 : RasSurf) (y3 : ℕ) :
    Keeps lk False s0 (blockOut y0 y1 y2 y3 p).1 := by
  unfold blockOut
  refine keeps_ite1 (fun _ => ?_) (fun _ => ?_)
  · dsimp only; assumption
  · extract_lets +onlyGivenNames u1 u2 u3 u4 u5
    clear_value u1 u2 u3 u4 u5
    refine keeps_foldl1 _ _ (fun _ _ _ => ?_) ?_
    · refine keeps_ite1 (fun _ => ?_) (fun _ => ?_)
      · assumption
      · apply State.gmWrites_keeps; assumption
    · dsimp only; assumption

theorem State.rasAbandon_keeps (h : Keeps lk st s0 s) :
    Keeps lk st s0 (State.rasAbandon s) := by
  unfold State.rasAbandon
  extract_lets +onlyGivenNames u1
  have ku1 : Keeps lk st s0 u1 := by
    unfold u1; apply State.wr_keeps; assumption
  clear_value u1
  refine keeps_mk ?_ rfl; assumption

theorem State.decompBlocks_keeps (h : Keeps lk False s0 s) (y1 : Who) (y2 : RasSurf) (y3 : RasSurf) (y4 : List ℕ) :
    Keeps lk False s0 (State.decompBlocks s y1 y2 y3 y4).1 := by
  unfold State.decompBlocks
  refine keeps_foldl1 _ _ (fun _ _ _ => ?_) ?_
  · refine keeps_ite1 (fun _ => ?_) (fun _ => ?_)
    · assumption
    · apply blockOut_keeps; apply State.readBlock_keeps; assumption
  · dsimp only; assumption

theorem State.rasDecompRow_keeps (h : Keeps lk False s0 s) (y1 : ℕ) :
    Keeps lk False s0 (State.rasDecompRow s y1) := by
  unfold State.rasDecompRow
  refine keeps_ite (fun _ => ?_) (fun _ => ?_)
  · assumption
  · extract_lets +onlyGivenNames u1 u2
    clear_value u1
    have ku2 : Keeps lk False s0 u2.1 := by
      unfold u2; apply State.rasDesc_keeps; assumption
    clear_value u2
    refine keeps_ite (fun _ => ?_) (fun _ => ?_)
    · apply State.report__keeps; assumption
    · extract_lets +onlyGivenNames u1 u2 u3 u4
      have ku1 : Keeps lk False s0 u1.1 := by
        unfold u1; apply State.gmReads_keeps; assumption
      clear_value u1
      have ku2 : Keeps lk False s0 u2.1 := by
        unfold u2; apply State.gmReads_keeps; assumption
      clear_value u2 u3 u4
      refine keeps_ite (fun _ => ?_) (fun _ => ?_)
      · apply State.report__keeps; assumption
      · split
        · refine keeps_ite (fun _ => ?_) (fun _ => ?_)
          · extract_lets +onlyGivenNames u5
            have ku5 : Keeps lk False s0 u5.1 := by
              unfold u5; apply State.decompBlocks_keeps; assumption
            clear_value u5
            apply State.report__keeps; assumption
          · apply State.report__keeps; assumption
        · apply State.report__keeps; assumption

theorem State.rasLine_keeps (h : Keeps lk st s0 s) :
    Keeps lk st s0 (State.rasLine s) := by
  unfold State.rasLine
  refine keeps_ite (fun _ => ?_) (fun _ => ?_)
  · apply State.token_keeps; assumption
  · assumption

theorem State.rasCntClr_keeps (h : Keeps lk st s0 s) :
    Keeps lk st s0 (State.rasCntClr s) := by
  unfold State.rasCntClr
  apply State.wrAll_keeps; assumption

end Sys2Proof.Machine
end

