-- ==== Sys2Proof/Laws/Keeps/RegWrite.lean ====
section
/-! SUPPORT. What the operations of Machine/RegWrite.lean keep. -/

set_option linter.all false

namespace Sys2Proof.Machine

variable {lk st : Prop} {s0 s t : State}

theorem State.plainWrite_keeps (h : Keeps lk st s0 s) (y1 : ℕ) (y2 : RegHit) (y3 : ℕ) :
    Keeps lk st s0 (State.plainWrite s y1 y2 y3) := by
  unfold State.plainWrite
  apply State.writeFields_keeps; assumption

theorem State.when_keeps (h : Keeps lk st s0 s) (y1 : Bool) (y2 : State → State) (hf2 : ∀ s, Keeps lk st s0 s → Keeps lk st s0 (y2 s)) :
    Keeps lk st s0 (State.when s y1 y2) := by
  unfold State.when
  refine keeps_ite (fun _ => ?_) (fun _ => ?_)
  · apply hf2; assumption
  · assumption

theorem State.memCntClr_keeps (h : Keeps lk st s0 s) :
    Keeps lk st s0 (State.memCntClr s) := by
  unfold State.memCntClr
  apply State.wrAll_keeps; assumption

theorem State.tileCntClr_keeps (h : Keeps lk st s0 s) (y1 : ℕ) :
    Keeps lk st s0 (State.tileCntClr s y1) := by
  unfold State.tileCntClr
  apply State.setTile_keeps; assumption

theorem State.selCntClr_keeps (h : Keeps lk st s0 s) (y1 : ℕ) :
    Keeps lk st s0 (State.selCntClr s y1) := by
  unfold State.selCntClr
  apply State.wr_keeps; assumption

theorem State.writeSetupLock_keeps (h : Keeps lk st s0 s) (y1 : Who) (y2 : ℕ) :
    Keeps lk st s0 (State.writeSetupLock s y1 y2) := by
  unfold State.writeSetupLock
  apply State.flag_keeps; apply State.flag_keeps; assumption

theorem State.writeGlobal_keeps (h : Keeps lk False s0 s) (y1 : Who) (y2 : ℕ) (y3 : RegHit) (y4 : ℕ) :
    Keeps lk False s0 (State.writeGlobal s y1 y2 y3 y4) := by
  unfold State.writeGlobal
  split
  · refine keeps_ite (fun _ => ?_) (fun _ => ?_)
    · apply State.writeRepro_keeps; assumption
    · assumption
  · apply State.writeSetupLock_keeps; assumption
  · apply State.when_keeps
    · assumption
    · intro _; intro _; apply State.memCntClr_keeps; assumption
  · apply State.writeMemZero_keeps; assumption
  · refine keeps_mk ?_ rfl; assumption
  · apply State.writeStepHi_keeps; assumption
  · apply State.when_keeps
    · assumption
    · intro _; intro _; apply State.stepAdv_keeps; assumption
  · apply State.genWrite_keeps; assumption
  · apply State.genWrite_keeps; assumption
  · apply State.genWrite_keeps; assumption
  · apply State.genWrite_keeps; assumption
  · apply State.writeLsCtrl_keeps; assumption
  · apply State.writeUlCmd_keeps; assumption
  · extract_lets +onlyGivenNames u1
    clear_value u1
    refine keeps_ite (fun _ => ?_) (fun _ => ?_)
    · apply State.setUnit_keeps; assumption
    · assumption
  · apply State.writeBootCtrl_keeps; assumption
  · apply State.bootWord_keeps; assumption
  · apply State.plainWrite_keeps; assumption

theorem State.writeBellows_keeps (h : Keeps lk False s0 s) (y1 : ℕ) (y2 : RegHit) (y3 : ℕ) :
    Keeps lk False s0 (State.writeBellows s y1 y2 y3) := by
  unfold State.writeBellows
  split
  · apply State.writeClkOp_keeps; assumption
  · apply State.writeBelCtrl_keeps; assumption
  · apply State.writePwrDn_keeps; assumption
  · apply State.writePwrMisc_keeps; assumption
  · apply State.plainWrite_keeps; assumption

theorem State.writeDrones_keeps (h : Keeps lk st s0 s) (y1 : ℕ) (y2 : RegHit) (y3 : ℕ) :
    Keeps lk st s0 (State.writeDrones s y1 y2 y3) := by
  unfold State.writeDrones
  split
  · apply State.writeDrnCtrl_keeps; assumption
  · apply State.writeDrnStat_keeps; assumption
  · apply State.writeEvPhase_keeps; assumption
  · apply State.writeEvCtrl_keeps; assumption
  · apply State.plainWrite_keeps; assumption

theorem State.writePend_keeps (h : Keeps lk st s0 s) (y1 : ℕ) (y2 : RegHit) (y3 : ℕ) :
    Keeps lk st s0 (State.writePend s y1 y2 y3) := by
  unfold State.writePend
  extract_lets +onlyGivenNames u1
  have ku1 : Keeps lk st s0 u1 := by
    unfold u1; apply State.plainWrite_keeps; assumption
  clear_value u1
  refine keeps_ite (fun _ => ?_) (fun _ => ?_)
  · apply State.wr_keeps; assumption
  · assumption

theorem State.writeCtxInit_keeps (h : Keeps lk st s0 s) (y1 : ℕ) (y2 : ℕ) (y3 : ℕ) :
    Keeps lk st s0 (State.writeCtxInit s y1 y2 y3) := by
  unfold State.writeCtxInit
  extract_lets +onlyGivenNames u1
  clear_value u1
  refine keeps_ite (fun _ => ?_) (fun _ => ?_)
  · assumption
  · apply State.wr_keeps; assumption

theorem State.writeSafety_keeps (h : Keeps lk st s0 s) (y1 : ℕ) (y2 : RegHit) (y3 : ℕ) :
    Keeps lk st s0 (State.writeSafety s y1 y2 y3) := by
  unfold State.writeSafety
  split
  · apply State.when_keeps
    · assumption
    · intro _; intro _; apply State.enterSafe_keeps; assumption
  · apply State.writeExit_keeps; assumption
  · apply State.swFault_keeps; assumption
  · apply State.writeSto_keeps; assumption
  · apply State.writeWdt_keeps; assumption
  · apply State.kick_keeps; assumption
  · apply State.writePend_keeps; assumption
  · apply State.writeFwCmd_keeps; assumption
  · apply State.writeScCfg_keeps; assumption
  · apply State.writeCtxInit_keeps; assumption
  · apply State.plainWrite_keeps; assumption

theorem State.syncGo_keeps (h : Keeps lk st s0 s) (y1 : ℕ) :
    Keeps lk st s0 (State.syncGo s y1) := by
  unfold State.syncGo
  refine keeps_foldl _ _ (fun _ _ _ => ?_) ?_
  · refine keeps_ite (fun _ => ?_) (fun _ => ?_)
    · apply State.pwmEn_keeps; assumption
    · assumption
  · assumption

theorem State.writeAxes_keeps (h : Keeps lk st s0 s) (y1 : ℕ) (y2 : RegHit) (y3 : ℕ) :
    Keeps lk st s0 (State.writeAxes s y1 y2 y3) := by
  unfold State.writeAxes
  split
  · apply State.writeAxCtrl_keeps; assumption
  · apply State.writeCmp_keeps; assumption
  · apply State.when_keeps
    · apply State.plainWrite_keeps; assumption
    · intro _; intro _; apply State.axMod_keeps; assumption
  · apply State.syncGo_keeps; assumption
  · apply State.plainWrite_keeps; assumption

theorem State.writeInjGrp_keeps (h : Keeps lk st s0 s) (y1 : ℕ) (y2 : RegHit) (y3 : ℕ) :
    Keeps lk st s0 (State.writeInjGrp s y1 y2 y3) := by
  unfold State.writeInjGrp
  apply State.when_keeps
  · apply State.when_keeps
    · apply State.when_keeps
      · apply State.plainWrite_keeps; assumption
      · intro _; intro _; apply State.injGo_keeps; assumption
    · intro _; intro _; apply State.injStop_keeps; assumption
  · intro _; intro _; apply State.injAbort_keeps; assumption

theorem State.writeChanter_keeps (h : Keeps lk False s0 s) (y1 : Who) (y2 : ℕ) (y3 : RegHit) (y4 : ℕ) :
    Keeps lk False s0 (State.writeChanter s y1 y2 y3 y4).1 := by
  unfold State.writeChanter
  split
  · dsimp only; apply State.writeChnCtrl_keeps; assumption
  · dsimp only; refine keeps_mk ?_ rfl; assumption
  · apply State.cwqWrite_keeps; assumption
  · extract_lets +onlyGivenNames u2
    have ku2 : Keeps lk False s0 u2 := by
      unfold u2; apply State.wr_keeps; assumption
    clear_value u2
    dsimp only; apply State.when_keeps
    · assumption
    · intro _; intro _; apply State.cwqFlush_keeps; assumption
  · dsimp only; apply State.writeLaneList_keeps; assumption
  · dsimp only; apply State.writeLaneList_keeps; assumption
  · dsimp only; apply State.slotEnable_keeps; assumption
  · dsimp only; apply State.writeSpCfg_keeps; assumption
  · dsimp only; apply State.writeSpHost_keeps; assumption
  · dsimp only; apply State.writeInjGrp_keeps; assumption
  · dsimp only; apply State.writePermit_keeps; assumption
  · dsimp only; apply State.writeCapCfg_keeps; assumption
  · dsimp only; apply State.plainWrite_keeps; assumption

theorem State.writeReed_keeps (h : Keeps lk st s0 s) (y1 : ℕ) (y2 : RegHit) (y3 : ℕ) :
    Keeps lk st s0 (State.writeReed s y1 y2 y3) := by
  unfold State.writeReed
  split
  · apply State.writeReedCtrl_keeps; assumption
  · apply State.writeReedBuf_keeps; assumption
  · apply State.writeReedBuf_keeps; assumption
  · apply State.writeApprove_keeps; assumption
  · apply State.plainWrite_keeps; assumption

theorem State.writePhaseCut_keeps (h : Keeps lk st s0 s) (y1 : ℕ) (y2 : RegHit) (y3 : ℕ) :
    Keeps lk st s0 (State.writePhaseCut s y1 y2 y3) := by
  unfold State.writePhaseCut
  split
  · apply State.writePcmCtrl_keeps; assumption
  · apply State.writePcCtrl_keeps; assumption
  · apply State.writePcCmd_keeps; assumption
  · apply State.plainWrite_keeps; assumption

theorem State.writeLight_keeps (h : Keeps lk False s0 s) (y1 : ℕ) (y2 : RegHit) (y3 : ℕ) :
    Keeps lk False s0 (State.writeLight s y1 y2 y3) := by
  unfold State.writeLight
  split
  · apply State.when_keeps
    · assumption
    · intro _; intro _; apply State.llCntClr_keeps; assumption
  · apply State.writeLlCtrl_keeps; assumption
  · apply State.writeLevel_keeps; assumption
  · apply State.writeSafeL_keeps; assumption
  · apply State.plainWrite_keeps; assumption

theorem State.writeFife_keeps (h : Keeps lk st s0 s) (y1 : ℕ) (y2 : RegHit) (y3 : ℕ) :
    Keeps lk st s0 (State.writeFife s y1 y2 y3) := by
  unfold State.writeFife
  split
  · apply State.writeFeCtrl_keeps; assumption
  · apply State.feRegWrite_keeps; assumption
  · apply State.feTxWrite_keeps; assumption
  · apply State.feInject_keeps; assumption
  · apply State.feRegWrite_keeps; assumption
  · apply State.feRegWrite_keeps; assumption
  · apply State.feRegWrite_keeps; assumption
  · apply State.feRegWrite_keeps; assumption
  · apply State.feRegWrite_keeps; assumption
  · apply State.feRegWrite_keeps; assumption
  · apply State.feRegWrite_keeps; assumption
  · apply State.writeFeImem_keeps; assumption
  · apply State.feGo_keeps; assumption
  · apply State.feClkrst_keeps; assumption
  · apply State.plainWrite_keeps; assumption

theorem State.writeRaster_keeps (h : Keeps lk False s0 s) (y1 : ℕ) (y2 : RegHit) (y3 : ℕ) :
    Keeps lk False s0 (State.writeRaster s y1 y2 y3) := by
  unfold State.writeRaster
  split
  · apply State.rasGrow_keeps; assumption
  · apply State.when_keeps
    · assumption
    · intro _; intro _; apply State.rasCntClr_keeps; assumption
  · apply State.plainWrite_keeps; assumption

theorem State.writePortEn_keeps (h : Keeps lk st s0 s) (y1 : ℕ) (y2 : Bool) (y3 : Bool) :
    Keeps lk st s0 (State.writePortEn s y1 y2 y3) := by
  unfold State.writePortEn
  refine keeps_ite (fun _ => ?_) (fun _ => ?_)
  · assumption
  · apply State.portEnable_keeps; assumption

theorem State.writeWindway_keeps (h : Keeps lk st s0 s) (y1 : ℕ) (y2 : RegHit) (y3 : ℕ) :
    Keeps lk st s0 (State.writeWindway s y1 y2 y3) := by
  unfold State.writeWindway
  split
  · apply State.when_keeps
    · apply State.when_keeps
      · apply State.plainWrite_keeps; assumption
      · intro _; intro _; apply State.gfClear_keeps; assumption
    · intro _; intro _; apply State.nrClear_keeps; assumption
  · apply State.writePortEn_keeps; apply State.plainWrite_keeps; assumption
  · apply State.writePortEn_keeps; apply State.plainWrite_keeps; assumption
  · apply State.when_keeps
    · apply State.when_keeps
      · apply State.plainWrite_keeps; assumption
      · intro _; intro _; apply State.sweepGo_keeps; assumption
    · intro _; intro _; apply State.sweepAbort_keeps; assumption
  · apply State.plainWrite_keeps; assumption

theorem State.writeRing_keeps (h : Keeps lk st s0 s) (y1 : ℕ) (y2 : ℕ) (y3 : RegHit) (y4 : ℕ) :
    Keeps lk st s0 (State.writeRing s y1 y2 y3 y4) := by
  unfold State.writeRing
  split
  · apply State.writeFrBase_keeps; assumption
  · apply State.writeFrBase_keeps; assumption
  · apply State.writeFrCfg_keeps; assumption
  · apply State.writeFrTail_keeps; assumption
  · apply State.plainWrite_keeps; assumption

theorem State.writeEth_keeps (h : Keeps lk st s0 s) (y1 : ℕ) (y2 : RegHit) (y3 : ℕ) :
    Keeps lk st s0 (State.writeEth s y1 y2 y3) := by
  unfold State.writeEth
  extract_lets +onlyGivenNames u1
  clear_value u1
  refine keeps_ite (fun _ => ?_) (fun _ => ?_)
  · refine keeps_ite (fun _ => ?_) (fun _ => ?_)
    · apply State.timeStep_keeps; assumption
    · apply State.plainWrite_keeps; assumption
  · refine keeps_ite (fun _ => ?_) (fun _ => ?_)
    · apply State.writeRing_keeps; assumption
    · refine keeps_ite (fun _ => ?_) (fun _ => ?_)
      · apply State.when_keeps
        · apply State.plainWrite_keeps; assumption
        · intro _; intro _; apply State.qbvChange_keeps; assumption
      · apply State.plainWrite_keeps; assumption

theorem State.writeCan_keeps (h : Keeps lk st s0 s) (y1 : ℕ) (y2 : RegHit) (y3 : ℕ) :
    Keeps lk st s0 (State.writeCan s y1 y2 y3) := by
  unfold State.writeCan
  extract_lets +onlyGivenNames u1
  clear_value u1
  refine keeps_ite (fun _ => ?_) (fun _ => ?_)
  · apply State.writeRing_keeps; assumption
  · refine keeps_ite (fun _ => ?_) (fun _ => ?_)
    · apply State.when_keeps
      · apply State.plainWrite_keeps; assumption
      · intro _; intro _; apply State.canPermit_keeps; assumption
    · refine keeps_ite (fun _ => ?_) (fun _ => ?_)
      · apply State.canQueue_keeps; assumption
      · refine keeps_ite (fun _ => ?_) (fun _ => ?_)
        · apply State.writeTxb_keeps; assumption
        · apply State.plainWrite_keeps; assumption

theorem State.writeCsi_keeps (h : Keeps lk st s0 s) (y1 : ℕ) (y2 : RegHit) (y3 : ℕ) :
    Keeps lk st s0 (State.writeCsi s y1 y2 y3) := by
  unfold State.writeCsi
  split
  · apply State.writeCsMatch_keeps; assumption
  · apply State.when_keeps
    · assumption
    · intro _; intro _; apply State.csiReturn_keeps; assumption
  · apply State.plainWrite_keeps; assumption

theorem State.writeSerial_keeps (h : Keeps lk st s0 s) (y1 : Who) (y2 : ℕ) (y3 : RegHit) (y4 : ℕ) :
    Keeps lk st s0 (State.writeSerial s y1 y2 y3 y4) := by
  unfold State.writeSerial
  refine keeps_ite (fun _ => ?_) (fun _ => ?_)
  · assumption
  · split
    · apply State.serTx_keeps; assumption
    · apply State.serGo_keeps; assumption
    · apply State.serTx_keeps; assumption
    · apply State.serTx_keeps; assumption
    · apply State.serGo_keeps; assumption
    · apply State.serTx_keeps; assumption
    · apply State.plainWrite_keeps; assumption

theorem State.writeHostq_keeps (h : Keeps lk False s0 s) (y1 : ℕ) (y2 : RegHit) (y3 : ℕ) :
    Keeps lk False s0 (State.writeHostq s y1 y2 y3) := by
  unfold State.writeHostq
  split
  · refine keeps_ite (fun _ => ?_) (fun _ => ?_)
    · apply State.plainWrite_keeps; assumption
    · assumption
  · refine keeps_ite (fun _ => ?_) (fun _ => ?_)
    · apply State.plainWrite_keeps; assumption
    · assumption
  · refine keeps_ite (fun _ => ?_) (fun _ => ?_)
    · apply State.plainWrite_keeps; assumption
    · assumption
  · apply State.writeSqCtrl_keeps; assumption
  · refine keeps_ite (fun _ => ?_) (fun _ => ?_)
    · assumption
    · apply State.plainWrite_keeps; assumption
  · refine keeps_ite (fun _ => ?_) (fun _ => ?_)
    · assumption
    · apply State.plainWrite_keeps; assumption
  · apply State.writeCqCfg_keeps; assumption
  · apply State.plainWrite_keeps; assumption

theorem State.writeTile_keeps (h : Keeps lk st s0 s) (y1 : ℕ) (y2 : RegHit) (y3 : ℕ) :
    Keeps lk st s0 (State.writeTile s y1 y2 y3) := by
  unfold State.writeTile
  split
  · apply State.when_keeps
    · assumption
    · intro _; intro _; apply State.tileCntClr_keeps; assumption
  · apply State.when_keeps
    · apply State.plainWrite_keeps; assumption
    · intro _; intro _; apply State.selCntClr_keeps; assumption
  · apply State.plainWrite_keeps; assumption

theorem State.writeWindow_keeps (h : Keeps lk st s0 s) (y1 : Who) (y2 : ℕ) (y3 : ℕ) (y4 : RegHit) (y5 : ℕ) :
    Keeps lk st s0 (State.writeWindow s y1 y2 y3 y4 y5) := by
  unfold State.writeWindow
  split
  · apply State.writeCtxCtrl_keeps; assumption
  · apply State.writeCtxPc_keeps; assumption
  · apply State.writeTokCnt_keeps; assumption
  · apply State.setPool_keeps; assumption
  · apply State.tokTake_keeps; assumption
  · apply State.writeRowWord_keeps; assumption
  · apply State.plainWrite_keeps; assumption

theorem State.regEffect_keeps (h : Keeps lk False s0 s) (y1 : Who) (y2 : ℕ) (y3 : RegHit) (y4 : ℕ) :
    Keeps lk False s0 (State.regEffect s y1 y2 y3 y4).1 := by
  unfold State.regEffect
  split
  · dsimp only; apply State.writeWindow_keeps; assumption
  · refine keeps_ite1 (fun _ => ?_) (fun _ => ?_)
    · dsimp only; apply State.writeGlobal_keeps; assumption
    · refine keeps_ite1 (fun _ => ?_) (fun _ => ?_)
      · dsimp only; apply State.writeBellows_keeps; assumption
      · refine keeps_ite1 (fun _ => ?_) (fun _ => ?_)
        · dsimp only; apply State.writeDrones_keeps; assumption
        · refine keeps_ite1 (fun _ => ?_) (fun _ => ?_)
          · dsimp only; apply State.writeSafety_keeps; assumption
          · refine keeps_ite1 (fun _ => ?_) (fun _ => ?_)
            · dsimp only; apply State.writeAxes_keeps; assumption
            · refine keeps_ite1 (fun _ => ?_) (fun _ => ?_)
              · apply State.writeChanter_keeps; assumption
              · refine keeps_ite1 (fun _ => ?_) (fun _ => ?_)
                · dsimp only; apply State.writeReed_keeps; assumption
                · refine keeps_ite1 (fun _ => ?_) (fun _ => ?_)
                  · dsimp only; apply State.writePhaseCut_keeps; assumption
                  · refine keeps_ite1 (fun _ => ?_) (fun _ => ?_)
                    · dsimp only; apply State.writeLight_keeps; assumption
                    · refine keeps_ite1 (fun _ => ?_) (fun _ => ?_)
                      · dsimp only; apply State.writeFife_keeps; assumption
                      · refine keeps_ite1 (fun _ => ?_) (fun _ => ?_)
                        · dsimp only; apply State.writeRaster_keeps; assumption
                        · refine keeps_ite1 (fun _ => ?_) (fun _ => ?_)
                          · dsimp only; apply State.writeWindway_keeps; assumption
                          · refine keeps_ite1 (fun _ => ?_) (fun _ => ?_)
                            · dsimp only; apply State.writeEth_keeps; assumption
                            · refine keeps_ite1 (fun _ => ?_) (fun _ => ?_)
                              · dsimp only; apply State.writeCan_keeps; assumption
                              · refine keeps_ite1 (fun _ => ?_) (fun _ => ?_)
                                · dsimp only; apply State.writeCsi_keeps; assumption
                                · refine keeps_ite1 (fun _ => ?_) (fun _ => ?_)
                                  · dsimp only; apply State.writeSerial_keeps; assumption
                                  · refine keeps_ite1 (fun _ => ?_) (fun _ => ?_)
                                    · dsimp only; apply State.writeHostq_keeps; assumption
                                    · dsimp only; apply State.writeTile_keeps; assumption

end Sys2Proof.Machine
end

