-- ==== Sys2Proof/Laws/Keeps/RegRead.lean ====
section
/-! SUPPORT. What the operations of Machine/RegRead.lean keep. -/

set_option linter.all false

namespace Sys2Proof.Machine

variable {lk st : Prop} {s0 s t : State}

theorem State.drnSnap_keeps (h : Keeps lk st s0 s) (y1 : ℕ) :
    Keeps lk st s0 (State.drnSnap s y1) := by
  unfold State.drnSnap
  apply State.wrAll_keeps; assumption

theorem State.readEffect_keeps (h : Keeps lk st s0 s) (y1 : ℕ) (y2 : RegHit) :
    Keeps lk st s0 (State.readEffect s y1 y2) := by
  unfold State.readEffect
  split
  · refine keeps_ite (fun _ => ?_) (fun _ => ?_)
    · apply State.readSeqErr_keeps; assumption
    · assumption
  · split
    · apply State.wr_keeps; assumption
    · apply State.wr_keeps; assumption
    · apply State.wr_keeps; assumption
    · apply State.drnSnap_keeps; assumption
    · refine keeps_ite (fun _ => ?_) (fun _ => ?_)
      · refine keeps_mk ?_ rfl; assumption
      · assumption
    · apply State.wr_keeps; assumption
    · apply State.captureEst_keeps; assumption
    · apply State.wr_keeps; assumption
    · apply State.wr_keeps; assumption
    · assumption

theorem State.popRead_keeps (h : Keeps lk st s0 s) (y1 : RegHit) {r} (e : (State.popRead s y1) = some r) :
    Keeps lk st s0 r.2 := by
  unfold State.popRead at e; (try dsimp only at e)
  (repeat' split at e) <;> cases e
  · apply State.feRxRead_keeps; assumption
  · apply State.feNowRead_keeps; assumption
  · apply State.fwmsgRead_keeps; assumption
  · apply State.serRx_keeps; assumption
  · apply State.serRx_keeps; assumption
  · apply State.serRx_keeps; assumption
  · apply State.serRx_keeps; assumption
  · apply State.xspiWindow_keeps; assumption

theorem State.regTake_keeps (h : Keeps lk st s0 s) (y1 : Who) (y2 : ℕ) (y3 : RegHit) :
    Keeps lk st s0 (State.regTake s y1 y2 y3).2 := by
  unfold State.regTake
  split
  · apply State.popRead_keeps (e := by assumption); assumption
  · dsimp only; apply State.readEffect_keeps; assumption

end Sys2Proof.Machine
end

