-- ==== Sys2Proof/Laws/Keeps/Bus.lean ====
section
/-! SUPPORT. What the operations of Machine/Bus.lean keep. -/

set_option linter.all false

namespace Sys2Proof.Machine

variable {lk st : Prop} {s0 s t : State}

theorem State.regAdmit_keeps (h : Keeps lk st s0 s) (y1 : Who) (y2 : ℕ) (y3 : ℕ) (y4 : Bool) :
    Keeps lk st s0 (State.regAdmit s y1 y2 y3 y4).1 := by
  unfold State.regAdmit
  refine keeps_ite1 (fun _ => ?_) (fun _ => ?_)
  · dsimp only; assumption
  · refine keeps_ite1 (fun _ => ?_) (fun _ => ?_)
    · dsimp only; assumption
    · split
      · dsimp only; apply State.mapError_keeps; assumption
      · refine keeps_ite1 (fun _ => ?_) (fun _ => ?_)
        · dsimp only; assumption
        · refine keeps_ite1 (fun _ => ?_) (fun _ => ?_)
          · dsimp only; apply State.fwRefuse_keeps; assumption
          · dsimp only; assumption

theorem State.regPut_keeps (h : Keeps lk st s0 s) (y1 : Who) (y2 : ℕ) (y3 : ℕ) (y4 : State → RegHit → State × Status) (hf4 : ∀ s z1, Keeps lk st s0 s → Keeps lk st s0 (y4 s z1).1) :
    Keeps lk st s0 (State.regPut s y1 y2 y3 y4).1 := by
  unfold State.regPut
  split
  · dsimp only; refine keeps_fst (by assumption) ?_; apply State.regAdmit_keeps; assumption
  · apply hf4; refine keeps_fst (by assumption) ?_; apply State.regAdmit_keeps; assumption

theorem State.regGet_keeps (h : Keeps lk st s0 s) (y1 : Who) (y2 : ℕ) :
    Keeps lk st s0 (State.regGet s y1 y2).1 := by
  unfold State.regGet
  split
  · dsimp only; refine keeps_fst (by assumption) ?_; apply State.regAdmit_keeps; assumption
  · extract_lets +onlyGivenNames u1
    have ku1 : Keeps lk st s0 u1.2 := by
      unfold u1; apply State.regTake_keeps; refine keeps_fst (by assumption) ?_; apply State.regAdmit_keeps
      assumption
    clear_value u1
    dsimp only; assumption

theorem State.regWriteAs_keeps (h : Keeps lk st s0 s) (y1 : Who) (y2 : ℕ) (y3 : ℕ) (y4 : State → RegHit → State × Status) (hf4 : ∀ s z1, Keeps lk st s0 s → Keeps lk st s0 (y4 s z1).1) :
    Keeps lk st s0 (State.regWriteAs s y1 y2 y3 y4).1 := by
  unfold State.regWriteAs
  refine keeps_ite1 (fun _ => ?_) (fun _ => ?_)
  · apply State.regPut_keeps
    · assumption
    · intro _; intro _; intro _; apply hf4; assumption
  · refine keeps_ite1 (fun _ => ?_) (fun _ => ?_)
    · dsimp only; assumption
    · extract_lets +onlyGivenNames u1
      have ku1 : Keeps lk st s0 u1.1 := by
        unfold u1; apply State.regPut_keeps
        · assumption
        · intro _; intro _; intro _; apply hf4; assumption
      clear_value u1
      dsimp only; apply State.mmioErr_keeps; assumption

theorem State.regWrite_keeps (h : Keeps lk False s0 s) (y1 : Who) (y2 : ℕ) (y3 : ℕ) :
    Keeps lk False s0 (State.regWrite s y1 y2 y3).1 := by
  unfold State.regWrite
  apply State.regWriteAs_keeps
  · assumption
  · intro _; intro _; intro _; apply State.regEffect_keeps; assumption

theorem State.regRead_keeps (h : Keeps lk st s0 s) (y1 : Who) (y2 : ℕ) :
    Keeps lk st s0 (State.regRead s y1 y2).1 := by
  unfold State.regRead
  refine keeps_ite1 (fun _ => ?_) (fun _ => ?_)
  · apply State.regGet_keeps; assumption
  · refine keeps_ite1 (fun _ => ?_) (fun _ => ?_)
    · dsimp only; assumption
    · extract_lets +onlyGivenNames u1
      have ku1 : Keeps lk st s0 u1.1 := by
        unfold u1; apply State.regGet_keeps; assumption
      clear_value u1
      dsimp only; apply State.mmioErr_keeps; assumption

theorem State.doorbellPut_keeps (h : Keeps lk False s0 s) (y1 : Who) (y2 : ℕ) (y3 : List Byte) :
    Keeps lk False s0 (State.doorbellPut s y1 y2 y3).1 := by
  unfold State.doorbellPut
  refine keeps_ite1 (fun _ => ?_) (fun _ => ?_)
  · dsimp only; assumption
  · refine keeps_ite1 (fun _ => ?_) (fun _ => ?_)
    · dsimp only; apply State.fwRefuse_keeps; assumption
    · dsimp only; apply State.doorbell_keeps; assumption

theorem State.doorbellGet_keeps (h : Keeps lk st s0 s) (y1 : Who) (y2 : ℕ) (y3 : ℕ) :
    Keeps lk st s0 (State.doorbellGet s y1 y2 y3).1 := by
  unfold State.doorbellGet
  refine keeps_ite1 (fun _ => ?_) (fun _ => ?_)
  · dsimp only; assumption
  · refine keeps_ite1 (fun _ => ?_) (fun _ => ?_)
    · dsimp only; apply State.fwRefuse_keeps; assumption
    · dsimp only; assumption

theorem State.busWrite_keeps (h : Keeps lk False s0 s) (y1 : Who) (y2 : ℕ) (y3 : ℕ) (y4 : List Byte) :
    Keeps lk False s0 (State.busWrite s y1 y2 y3 y4).1 := by
  unfold State.busWrite
  split
  · refine keeps_ite1 (fun _ => ?_) (fun _ => ?_)
    · apply State.regWrite_keeps; assumption
    · dsimp only; apply State.mapError_keeps; assumption
  · apply State.doorbellPut_keeps; assumption
  · apply State.localWrite_keeps; assumption

theorem State.busRead_keeps (h : Keeps lk st s0 s) (y1 : Who) (y2 : ℕ) (y3 : ℕ) (y4 : ℕ) :
    Keeps lk st s0 (State.busRead s y1 y2 y3 y4).1 := by
  unfold State.busRead
  split
  · refine keeps_ite1 (fun _ => ?_) (fun _ => ?_)
    · extract_lets +onlyGivenNames u2
      have ku2 : Keeps lk st s0 u2.1 := by
        unfold u2; apply State.regRead_keeps; assumption
      clear_value u2
      dsimp only; assumption
    · dsimp only; apply State.mapError_keeps; assumption
  · apply State.doorbellGet_keeps; assumption
  · apply State.localRead_keeps; assumption

theorem State.gaRead_keeps (h : Keeps lk st s0 s) (y1 : Who) (y2 : ℕ) (y3 : ℕ) :
    Keeps lk st s0 (State.gaRead s y1 y2 y3).1 := by
  unfold State.gaRead
  refine keeps_ite1 (fun _ => ?_) (fun _ => ?_)
  · apply State.busRead_keeps; assumption
  · apply State.gmRead_keeps; assumption

theorem State.gaWrite_keeps (h : Keeps lk False s0 s) (y1 : Who) (y2 : ℕ) (y3 : List Byte) :
    Keeps lk False s0 (State.gaWrite s y1 y2 y3).1 := by
  unfold State.gaWrite
  refine keeps_ite1 (fun _ => ?_) (fun _ => ?_)
  · apply State.busWrite_keeps; assumption
  · apply State.gmWrite_keeps; assumption

theorem State.answers_keeps (h : Keeps lk st s0 s) (y1 : Status) (y2 : ℕ) (y3 : List Byte) :
    Keeps lk st s0 (State.answers s y1 y2 y3) := by
  unfold State.answers
  refine keeps_mk ?_ rfl; assumption

theorem State.writeReg_keeps (h : Keeps lk False s0 s) (y1 : Who) (y2 : ℕ) (y3 : ℕ) :
    Keeps lk False s0 (State.writeReg s y1 y2 y3) := by
  unfold State.writeReg
  extract_lets +onlyGivenNames u1
  have ku1 : Keeps lk False s0 u1.1 := by
    unfold u1; apply State.regWrite_keeps; assumption
  clear_value u1
  apply State.answers_keeps; assumption

theorem State.readReg_keeps (h : Keeps lk st s0 s) (y1 : Who) (y2 : ℕ) :
    Keeps lk st s0 (State.readReg s y1 y2) := by
  unfold State.readReg
  extract_lets +onlyGivenNames u1
  have ku1 : Keeps lk st s0 u1.1 := by
    unfold u1; apply State.regRead_keeps; assumption
  clear_value u1
  apply State.answers_keeps; assumption

theorem State.writeWin_keeps (h : Keeps lk False s0 s) (y1 : Who) (y2 : ℕ) (y3 : ℕ) (y4 : ℕ) :
    Keeps lk False s0 (State.writeWin s y1 y2 y3 y4) := by
  unfold State.writeWin
  split
  · apply State.writeReg_keeps; assumption
  · apply State.answers_keeps; assumption

theorem State.writeWinAs_keeps (h : Keeps lk st s0 s) (y1 : Who) (y2 : ℕ) (y3 : ℕ) (y4 : ℕ) (y5 : State → State) (hf5 : ∀ s, Keeps lk st s0 s → Keeps lk st s0 (y5 s)) :
    Keeps lk st s0 (State.writeWinAs s y1 y2 y3 y4 y5) := by
  unfold State.writeWinAs
  split
  · extract_lets +onlyGivenNames u1
    have ku1 : Keeps lk st s0 u1.1 := by
      unfold u1; apply State.regWriteAs_keeps
      · assumption
      · intro _; intro _; intro _; dsimp only; apply hf5; assumption
    clear_value u1
    apply State.answers_keeps; assumption
  · apply State.answers_keeps; assumption

theorem State.readWin_keeps (h : Keeps lk st s0 s) (y1 : Who) (y2 : ℕ) (y3 : ℕ) :
    Keeps lk st s0 (State.readWin s y1 y2 y3) := by
  unfold State.readWin
  split
  · apply State.readReg_keeps; assumption
  · apply State.answers_keeps; assumption

theorem State.withReplies_keeps (h : Keeps lk st s0 s) (y1 : List Reply) (y2 : State → State) (hf2 : ∀ s, Keeps lk st s0 s → Keeps lk st s0 (y2 s)) :
    Keeps lk st s0 (State.withReplies s y1 y2) := by
  unfold State.withReplies
  extract_lets +onlyGivenNames u1
  have ku1 : Keeps lk st s0 u1 := by
    unfold u1; apply hf2; refine keeps_mk ?_ rfl; assumption
  clear_value u1
  refine keeps_mk ?_ rfl; assumption

end Sys2Proof.Machine
end

