-- ==== Sys2Proof/Laws/Keeps/Axes.lean ====
section
/-! SUPPORT. What the operations of Machine/Axes.lean keep. -/

set_option linter.all false

namespace Sys2Proof.Machine

variable {lk st : Prop} {s0 s t : State}

theorem execAxisStart_keeps (h : Keeps lk False s0 s) (y0 : Who) (y1 : Fin 12) (y2 : BitVec 32) (e : (execAxisStart y0 y1 y2 s) = .next t) :
    Keeps lk False s0 t := by
  unfold execAxisStart at e; cases e; (try dsimp only)
  apply State.writeReg_keeps; assumption

theorem execAxisStop_keeps (h : Keeps lk False s0 s) (y0 : Who) (y1 : Fin 12) (y2 : BitVec 32) (e : (execAxisStop y0 y1 y2 s) = .next t) :
    Keeps lk False s0 t := by
  unfold execAxisStop at e; cases e; (try dsimp only)
  apply State.writeReg_keeps; assumption

theorem execAxisClear_keeps (h : Keeps lk False s0 s) (y0 : Who) (y1 : Fin 12) (y2 : BitVec 32) (e : (execAxisClear y0 y1 y2 s) = .next t) :
    Keeps lk False s0 t := by
  unfold execAxisClear at e; cases e; (try dsimp only)
  apply State.writeReg_keeps; assumption

theorem execPwmEn_keeps (h : Keeps lk False s0 s) (y0 : Who) (y1 : Fin 12) (y2 : BitVec 32) (e : (execPwmEn y0 y1 y2 s) = .next t) :
    Keeps lk False s0 t := by
  unfold execPwmEn at e; cases e; (try dsimp only)
  apply State.writeReg_keeps; assumption

theorem execAxSyncGo_keeps (h : Keeps lk False s0 s) (y0 : Who) (y1 : BitVec 32) (e : (execAxSyncGo y0 y1 s) = .next t) :
    Keeps lk False s0 t := by
  unfold execAxSyncGo at e; cases e; (try dsimp only)
  apply State.writeReg_keeps; assumption

theorem execAxCmpWrite_keeps (h : Keeps lk False s0 s) (y0 : Who) (y1 : Fin 12) (y2 : Fin 3) (y3 : BitVec 32) (e : (execAxCmpWrite y0 y1 y2 y3 s) = .next t) :
    Keeps lk False s0 t := by
  unfold execAxCmpWrite at e; cases e; (try dsimp only)
  apply State.writeReg_keeps; assumption

theorem execEncCntWrite_keeps (h : Keeps lk False s0 s) (y0 : Who) (y1 : Fin 12) (y2 : BitVec 32) (y3 : Option (Bool × Bool)) (e : (execEncCntWrite y0 y1 y2 y3 s) = .next t) :
    Keeps lk False s0 t := by
  unfold execEncCntWrite at e; cases e; (try dsimp only)
  split
  · apply State.encEdge_keeps; apply State.writeReg_keeps; assumption
  · apply State.writeReg_keeps; assumption

theorem execIdxArm_keeps (h : Keeps lk False s0 s) (y0 : Who) (y1 : Fin 12) (y2 : BitVec 32) (e : (execIdxArm y0 y1 y2 s) = .next t) :
    Keeps lk False s0 t := by
  unfold execIdxArm at e; cases e; (try dsimp only)
  apply State.writeReg_keeps; assumption

theorem execReloadPoint_keeps (h : Keeps lk st s0 s) (y0 : Fin 12) (e : (execReloadPoint y0 s) = .next t) :
    Keeps lk st s0 t := by
  unfold execReloadPoint at e; cases e; (try dsimp only)
  apply State.reloadPoint_keeps; assumption

theorem execSamplingPoint_keeps (h : Keeps lk False s0 s) (y0 : Fin 12) (e : (execSamplingPoint y0 s) = .next t) :
    Keeps lk False s0 t := by
  unfold execSamplingPoint at e; cases e; (try dsimp only)
  apply State.samplingPoint_keeps; assumption

theorem execDutyStage_keeps (h : Keeps lk st s0 s) (y0 : Fin 12) (e : (execDutyStage y0 s) = .next t) :
    Keeps lk st s0 t := by
  unfold execDutyStage at e; cases e; (try dsimp only)
  apply State.dutyStage_keeps; assumption

theorem execPwmCompareEdge_keeps (h : Keeps lk st s0 s) (y0 : Fin 12) (y1 : Fin 3) (e : (execPwmCompareEdge y0 y1 s) = .next t) :
    Keeps lk st s0 t := by
  unfold execPwmCompareEdge at e; cases e; (try dsimp only)
  apply State.compareEdge_keeps; assumption

theorem execSigmaDeltaWord_keeps (h : Keeps lk False s0 s) (y0 : Fin 40) (y1 : List Bool) (e : (execSigmaDeltaWord y0 y1 s) = .next t) :
    Keeps lk False s0 t := by
  unfold execSigmaDeltaWord at e; cases e; (try dsimp only)
  apply State.sdWord_keeps; assumption

theorem execFastOvercurrentTrip_keeps (h : Keeps lk st s0 s) (y0 : Fin 40) (y1 : List Bool) (e : (execFastOvercurrentTrip y0 y1 s) = .next t) :
    Keeps lk st s0 t := by
  unfold execFastOvercurrentTrip at e; cases e; (try dsimp only)
  apply State.ocTrip_keeps; assumption

theorem execActivityFault_keeps (h : Keeps lk st s0 s) (y0 : Fin 40) (e : (execActivityFault y0 s) = .next t) :
    Keeps lk st s0 t := by
  unfold execActivityFault at e; cases e; (try dsimp only)
  apply State.activityFault_keeps; assumption

theorem execDensityBlockEnd_keeps (h : Keeps lk st s0 s) (y0 : Fin 40) (y1 : Fin 1025) (e : (execDensityBlockEnd y0 y1 s) = .next t) :
    Keeps lk st s0 t := by
  unfold execDensityBlockEnd at e; cases e; (try dsimp only)
  apply State.densityEnd_keeps; assumption

theorem execEncoderEdge_keeps (h : Keeps lk st s0 s) (y0 : Fin 12) (y1 : Bool) (y2 : Bool) (e : (execEncoderEdge y0 y1 y2 s) = .next t) :
    Keeps lk st s0 t := by
  unfold execEncoderEdge at e; cases e; (try dsimp only)
  apply State.encEdge_keeps; assumption

theorem execEncoderIndex_keeps (h : Keeps lk st s0 s) (y0 : Fin 12) (e : (execEncoderIndex y0 s) = .next t) :
    Keeps lk st s0 t := by
  unfold execEncoderIndex at e; cases e; (try dsimp only)
  apply State.encIndex_keeps; assumption

theorem execCatchTimeout_keeps (h : Keeps lk st s0 s) (y0 : Fin 12) (e : (execCatchTimeout y0 s) = .next t) :
    Keeps lk st s0 t := by
  unfold execCatchTimeout at e; cases e; (try dsimp only)
  apply State.catchTimeout_keeps; assumption

theorem execProbePulse_keeps (h : Keeps lk st s0 s) (y0 : Fin 12) (e : (execProbePulse y0 s) = .next t) :
    Keeps lk st s0 t := by
  unfold execProbePulse at e; cases e; (try dsimp only)
  apply State.probePulse_keeps; assumption

theorem execProbePulseEnd_keeps (h : Keeps lk False s0 s) (y0 : Fin 12) (e : (execProbePulseEnd y0 s) = .next t) :
    Keeps lk False s0 t := by
  unfold execProbePulseEnd at e; cases e; (try dsimp only)
  apply State.probeEnd_keeps; assumption

theorem execSubTimeout_keeps (h : Keeps lk st s0 s) (y0 : Fin 12) (e : (execSubTimeout y0 s) = .next t) :
    Keeps lk st s0 t := by
  unfold execSubTimeout at e; cases e; (try dsimp only)
  apply State.subTimeout_keeps; assumption

theorem execBrakeDelayExpiry_keeps (h : Keeps lk st s0 s) (y0 : Fin 12) (e : (execBrakeDelayExpiry y0 s) = .next t) :
    Keeps lk st s0 t := by
  unfold execBrakeDelayExpiry at e; cases e; (try dsimp only)
  apply State.standstill_keeps; assumption

theorem execChopperMinInterval_keeps (h : Keeps lk st s0 s) (y0 : Fin 12) (e : (execChopperMinInterval y0 s) = .next t) :
    Keeps lk st s0 t := by
  unfold execChopperMinInterval at e; cases e; (try dsimp only)
  split
  · refine keeps_ite (fun _ => ?_) (fun _ => ?_)
    · apply State.bchEval_keeps; assumption
    · assumption
  · assumption

end Sys2Proof.Machine
end

