-- ==== Sys2Proof/Laws/Keeps/Bellows.lean ====
section
/-! SUPPORT. What the operations of Machine/Bellows.lean keep. -/

set_option linter.all false

namespace Sys2Proof.Machine

variable {lk st : Prop} {s0 s t : State}

theorem execGrantWindowStart_keeps (h : Keeps lk st s0 s) (y0 : List (Option (BitVec 12))) (e : (execGrantWindowStart y0 s) = .next t) :
    Keeps lk st s0 t := by
  unfold execGrantWindowStart at e
  refine keeps_next ?_ e
  apply State.windowStart_keeps; assumption

theorem execOpTgtWrite_keeps (h : Keeps lk False s0 s) (y0 : Who) (y1 : BitVec 32) (e : (execOpTgtWrite y0 y1 s) = .next t) :
    Keeps lk False s0 t := by
  unfold execOpTgtWrite at e
  refine keeps_next ?_ e
  apply State.writeReg_keeps; assumption

theorem execSupplySettled_keeps (h : Keeps lk st s0 s) (e : (execSupplySettled s) = .next t) :
    Keeps lk st s0 t := by
  unfold execSupplySettled at e
  refine keeps_next ?_ e
  apply State.supplySettled_keeps; assumption

theorem execTilePllLock_keeps (h : Keeps lk st s0 s) (e : (execTilePllLock s) = .next t) :
    Keeps lk st s0 t := by
  unfold execTilePllLock at e
  refine keeps_next ?_ e
  apply State.tileLock_keeps; assumption

theorem execRelockSwitchBack_keeps (h : Keeps lk st s0 s) (e : (execRelockSwitchBack s) = .next t) :
    Keeps lk st s0 t := by
  unfold execRelockSwitchBack at e
  refine keeps_next ?_ e
  apply State.switchBack_keeps; assumption

theorem execTileLockTimeout_keeps (h : Keeps lk st s0 s) (e : (execTileLockTimeout s) = .next t) :
    Keeps lk st s0 t := by
  unfold execTileLockTimeout at e
  refine keeps_next ?_ e
  refine keeps_ite (fun _ => ?_) (fun _ => ?_)
  · apply State.lockFail_keeps; assumption
  · assumption

theorem execBelPwrDn_keeps (h : Keeps lk False s0 s) (y0 : Who) (y1 : Fin 2) (y2 : BitVec 32) (e : (execBelPwrDn y0 y1 y2 s) = .next t) :
    Keeps lk False s0 t := by
  unfold execBelPwrDn at e
  refine keeps_next ?_ e
  apply State.writeReg_keeps; assumption

theorem execRasDn_keeps (h : Keeps lk False s0 s) (y0 : Who) (y1 : Bool) (e : (execRasDn y0 y1 s) = .next t) :
    Keeps lk False s0 t := by
  unfold execRasDn at e
  refine keeps_next ?_ e
  apply State.writeReg_keeps; assumption

theorem execPowerReturn_keeps (h : Keeps lk False s0 s) (y0 : Option (Fin 64)) (e : (execPowerReturn y0 s) = .next t) :
    Keeps lk False s0 t := by
  unfold execPowerReturn at e
  refine keeps_next ?_ e
  split
  · apply State.powerReturnTile_keeps; assumption
  · apply State.powerReturnRaster_keeps; assumption

theorem execMotionOnly_keeps (h : Keeps lk False s0 s) (y0 : Who) (y1 : BitVec 32) (e : (execMotionOnly y0 y1 s) = .next t) :
    Keeps lk False s0 t := by
  unfold execMotionOnly at e
  refine keeps_next ?_ e
  apply State.writeReg_keeps; assumption

theorem execBellowsVokFall_keeps (h : Keeps lk st s0 s) (e : (execBellowsVokFall s) = .next t) :
    Keeps lk st s0 t := by
  unfold execBellowsVokFall at e
  refine keeps_next ?_ e
  apply State.vokFall_keeps; assumption

theorem State.serdesLost_keeps (h : Keeps lk st s0 s) :
    Keeps lk st s0 (State.serdesLost s) := by
  unfold State.serdesLost
  extract_lets +onlyGivenNames u1
  have ku1 : Keeps lk st s0 u1 := by
    unfold u1; refine keeps_foldl _ _ (fun _ _ _ => ?_) ?_
    · apply State.linkLoss_keeps; assumption
    · apply State.pcieReset_keeps; assumption
  clear_value u1
  refine keeps_foldl _ _ (fun _ _ _ => ?_) ?_
  · refine keeps_ite (fun _ => ?_) (fun _ => ?_)
    · apply State.wr_keeps; assumption
    · assumption
  · assumption

theorem State.pllLoss_keeps (h : Keeps lk st s0 s) (y1 : ℕ) :
    Keeps lk st s0 (State.pllLoss s y1) := by
  unfold State.pllLoss
  split
  · apply State.report_keeps; apply State.wr_keeps; assumption
  · apply State.report_keeps; apply State.wr_keeps; assumption
  · refine keeps_ite (fun _ => ?_) (fun _ => ?_)
    · apply State.lockFail_keeps; assumption
    · assumption
  · apply State.serdesLost_keeps; apply State.wr_keeps; assumption

theorem execPllLockLoss_keeps (h : Keeps lk st s0 s) (y0 : Fin 4) (e : (execPllLockLoss y0 s) = .next t) :
    Keeps lk st s0 t := by
  unfold execPllLockLoss at e
  refine keeps_next ?_ e
  apply State.pllLoss_keeps; assumption

end Sys2Proof.Machine
end

