-- ==== Sys2Proof/Laws/Keeps/Boot.lean ====
section
/-! SUPPORT. What the operations of Machine/Boot.lean keep. -/

set_option linter.all false

namespace Sys2Proof.Machine

variable {lk st : Prop} {s0 s t : State}

theorem execPorstNAssert_keeps (h : Keeps False False s0 s) (e : (execPorstNAssert s) = .next t) :
    Keeps False False s0 t := by
  unfold execPorstNAssert at e
  refine keeps_next ?_ e
  apply State.porstLow_keeps; assumption

theorem execPorstNRelease_keeps (h : Keeps lk st s0 s) (y0 : Fin 4) (e : (execPorstNRelease y0 s) = .next t) :
    Keeps lk st s0 t := by
  unfold execPorstNRelease at e
  refine keeps_next ?_ e
  apply State.porstHigh_keeps; assumption

theorem execSysrstNAssert_keeps (h : Keeps lk st s0 s) (e : (execSysrstNAssert s) = .next t) :
    Keeps lk st s0 t := by
  unfold execSysrstNAssert at e
  refine keeps_next ?_ e
  apply State.sysrstLow_keeps; assumption

theorem execSysrstNRelease_keeps (h : Keeps lk st s0 s) (e : (execSysrstNRelease s) = .next t) :
    Keeps lk st s0 t := by
  unfold execSysrstNRelease at e
  refine keeps_next ?_ e
  apply State.sysrstHigh_keeps; assumption

theorem execReferenceAcceptance_keeps (h : Keeps lk st s0 s) (y0 : Fin 256) (y1 : Fin 256) (y2 : Fin 256) (y3 : Fin 256) (e : (execReferenceAcceptance y0 y1 y2 y3 s) = .next t) :
    Keeps lk st s0 t := by
  unfold execReferenceAcceptance at e
  refine keeps_next ?_ e
  apply State.refWindows_keeps; assumption

theorem execPllLockLimit_keeps (h : Keeps lk st s0 s) (y0 : Bool) (y1 : Bool) (y2 : Bool) (y3 : Bool) (e : (execPllLockLimit y0 y1 y2 y3 s) = .next t) :
    Keeps lk st s0 t := by
  unfold execPllLockLimit at e
  refine keeps_next ?_ e
  apply State.pllLimit_keeps; assumption

theorem execDividerAlignment_keeps (h : Keeps lk st s0 s) (e : (execDividerAlignment s) = .next t) :
    Keeps lk st s0 t := by
  unfold execDividerAlignment at e
  refine keeps_next ?_ e
  apply State.align_keeps; assumption

theorem execFuseReadout_keeps (h : Keeps lk st s0 s) (e : (execFuseReadout s) = .next t) :
    Keeps lk st s0 t := by
  unfold execFuseReadout at e
  refine keeps_next ?_ e
  apply State.readFuses_keeps; assumption

theorem execInitComplete_keeps (h : Keeps lk False s0 s) (y0 : List (Fin 128)) (e : (execInitComplete y0 s) = .next t) :
    Keeps lk False s0 t := by
  unfold execInitComplete at e
  refine keeps_next ?_ e
  apply State.initDone_keeps; assumption

theorem execImageLoad_keeps (h : Keeps lk False s0 s) (y0 : Option (List Byte)) (e : (execImageLoad y0 s) = .next t) :
    Keeps lk False s0 t := by
  unfold execImageLoad at e
  refine keeps_next ?_ e
  apply State.loadImage_keeps; assumption

theorem execImageVerify_keeps (h : Keeps lk st s0 s) (e : (execImageVerify s) = .next t) :
    Keeps lk st s0 t := by
  unfold execImageVerify at e
  refine keeps_next ?_ e
  apply State.verifyImage_keeps; assumption

theorem execIslandSramZeroed_keeps (h : Keeps lk False s0 s) (y0 : Bool) (e : (execIslandSramZeroed y0 s) = .next t) :
    Keeps lk False s0 t := by
  unfold execIslandSramZeroed at e
  refine keeps_next ?_ e
  apply State.islandZeroed_keeps; assumption

theorem execIslandSegmentCopy_keeps (h : Keeps lk False s0 s) (e : (execIslandSegmentCopy s) = .next t) :
    Keeps lk False s0 t := by
  unfold execIslandSegmentCopy at e
  refine keeps_next ?_ e
  apply State.islandCopy_keeps; assumption

theorem execIslandFirmwareStart_keeps (h : Keeps lk st s0 s) (e : (execIslandFirmwareStart s) = .next t) :
    Keeps lk st s0 t := by
  unfold execIslandFirmwareStart at e
  refine keeps_next ?_ e
  apply State.islandStart_keeps; assumption

theorem execBootData_keeps (h : Keeps lk False s0 s) (y0 : Who) (y1 : BitVec 32) (e : (execBootData y0 y1 s) = .next t) :
    Keeps lk False s0 t := by
  unfold execBootData at e
  refine keeps_next ?_ e
  apply State.writeReg_keeps; assumption

theorem execHostGo_keeps (h : Keeps lk False s0 s) (y0 : Who) (e : (execHostGo y0 s) = .next t) :
    Keeps lk False s0 t := by
  unfold execHostGo at e
  refine keeps_next ?_ e
  apply State.writeReg_keeps; assumption

theorem execMgmtGo_keeps (h : Keeps lk False s0 s) (y0 : Who) (e : (execMgmtGo y0 s) = .next t) :
    Keeps lk False s0 t := by
  unfold execMgmtGo at e
  refine keeps_next ?_ e
  apply State.writeReg_keeps; assumption

theorem execHostReady_keeps (h : Keeps lk False s0 s) (y0 : Who) (e : (execHostReady y0 s) = .next t) :
    Keeps lk False s0 t := by
  unfold execHostReady at e
  refine keeps_next ?_ e
  apply State.writeReg_keeps; assumption

theorem execDbgUnlock_keeps (h : Keeps lk False s0 s) (y0 : Who) (e : (execDbgUnlock y0 s) = .next t) :
    Keeps lk False s0 t := by
  unfold execDbgUnlock at e
  refine keeps_next ?_ e
  apply State.writeReg_keeps; assumption

theorem execPcieLinkTraining_keeps (h : Keeps lk st s0 s) (e : (execPcieLinkTraining s) = .next t) :
    Keeps lk st s0 t := by
  unfold execPcieLinkTraining at e
  refine keeps_next ?_ e
  apply State.pcieTrain_keeps; assumption

theorem execBankSupplyLoss_keeps (h : Keeps lk st s0 s) (y0 : Fin 6) (e : (execBankSupplyLoss y0 s) = .next t) :
    Keeps lk st s0 t := by
  unfold execBankSupplyLoss at e
  refine keeps_next ?_ e
  apply State.bankLoss_keeps; assumption

theorem execBankSupplyReturn_keeps (h : Keeps lk st s0 s) (y0 : Fin 6) (e : (execBankSupplyReturn y0 s) = .next t) :
    Keeps lk st s0 t := by
  unfold execBankSupplyReturn at e
  refine keeps_next ?_ e
  apply State.bankReturn_keeps; assumption

theorem execConfigurationRequest_keeps (h : Keeps lk st s0 s) (y0 : Fin 32) (e : (execConfigurationRequest y0 s) = .next t) :
    Keeps lk st s0 t := by
  unfold execConfigurationRequest at e
  refine keeps_next ?_ e
  apply State.configRequest_keeps; assumption

theorem State.programFuse_keeps (h : Keeps lk st s0 s) (y1 : ℕ) (y2 : ℕ) :
    Keeps lk st s0 (State.programFuse s y1 y2) := by
  unfold State.programFuse
  refine keeps_mk ?_ rfl; assumption

theorem State.jtag_keeps (h : Keeps lk st s0 s) (y1 : JtagReq) :
    Keeps lk st s0 (State.jtag s y1) := by
  unfold State.jtag
  refine keeps_ite (fun _ => ?_) (fun _ => ?_)
  · apply State.answers_keeps; assumption
  · split
    · apply State.answers_keeps; assumption
    · extract_lets +onlyGivenNames u1
      clear_value u1
      split
      · apply State.answers_keeps; assumption
      · assumption
    · apply State.answers_keeps; assumption
    · apply State.answers_keeps; assumption
    · refine keeps_ite (fun _ => ?_) (fun _ => ?_)
      · apply State.answers_keeps; apply State.programFuse_keeps; assumption
      · apply State.answers_keeps; assumption

theorem execJtagRequest_keeps (h : Keeps lk st s0 s) (y0 : JtagReq) (e : (execJtagRequest y0 s) = .next t) :
    Keeps lk st s0 t := by
  unfold execJtagRequest at e
  refine keeps_next ?_ e
  apply State.jtag_keeps; assumption

end Sys2Proof.Machine
end

