-- ==== Sys2Proof/Laws/Keeps/Chanter.lean ====
section
/-! SUPPORT. What the operations of Machine/Chanter.lean keep. -/

set_option linter.all false

namespace Sys2Proof.Machine

variable {lk st : Prop} {s0 s t : State}

theorem execRun_keeps (h : Keeps lk st s0 s) (y0 : Fin 2) (y1 : Fin 16) (e : (execRun y0 y1 s) = .next t) :
    Keeps lk st s0 t := by
  unfold execRun at e
  refine keeps_next ?_ e
  refine keeps_ite (fun _ => ?_) (fun _ => ?_)
  · apply State.chnRun_keeps; assumption
  · assumption

theorem execSlotStart_keeps (h : Keeps lk False s0 s) (y0 : Fin 2) (e : (execSlotStart y0 s) = .next t) :
    Keeps lk False s0 t := by
  unfold execSlotStart at e
  refine keeps_next ?_ e
  apply State.slotStart_keeps; assumption

theorem execSlotPublish_keeps (h : Keeps lk False s0 s) (y0 : Fin 2) (y1 : Bool) (e : (execSlotPublish y0 y1 s) = .next t) :
    Keeps lk False s0 t := by
  unfold execSlotPublish at e
  refine keeps_next ?_ e
  apply State.slotPublish_keeps; assumption

theorem execCwqEnqueue_keeps (h : Keeps lk False s0 s) (y0 : Who) (y1 : BitVec 32) (e : (execCwqEnqueue y0 y1 s) = .next t) :
    Keeps lk False s0 t := by
  unfold execCwqEnqueue at e
  refine keeps_next ?_ e
  apply State.writeReg_keeps; assumption

theorem execCwqFlush_keeps (h : Keeps lk False s0 s) (y0 : Who) (y1 : BitVec 32) (e : (execCwqFlush y0 y1 s) = .next t) :
    Keeps lk False s0 t := by
  unfold execCwqFlush at e
  refine keeps_next ?_ e
  apply State.writeReg_keeps; assumption

theorem execChnSlotEnable_keeps (h : Keeps lk False s0 s) (y0 : Who) (y1 : Fin 128) (y2 : BitVec 32) (e : (execChnSlotEnable y0 y1 y2 s) = .next t) :
    Keeps lk False s0 t := by
  unfold execChnSlotEnable at e
  refine keeps_next ?_ e
  apply State.writeReg_keeps; assumption

theorem execLaneEnable_keeps (h : Keeps lk False s0 s) (y0 : Who) (y1 : BitVec 32) (e : (execLaneEnable y0 y1 s) = .next t) :
    Keeps lk False s0 t := by
  unfold execLaneEnable at e
  refine keeps_next ?_ e
  apply State.writeReg_keeps; assumption

theorem execLaneListWrite_keeps (h : Keeps lk False s0 s) (y0 : Who) (y1 : Fin 2) (y2 : Fin 32) (y3 : BitVec 32) (e : (execLaneListWrite y0 y1 y2 y3 s) = .next t) :
    Keeps lk False s0 t := by
  unfold execLaneListWrite at e
  refine keeps_next ?_ e
  apply State.writeReg_keeps; assumption

theorem execChnCntClr_keeps (h : Keeps lk False s0 s) (y0 : Who) (y1 : BitVec 32) (e : (execChnCntClr y0 y1 s) = .next t) :
    Keeps lk False s0 t := by
  unfold execChnCntClr at e
  refine keeps_next ?_ e
  apply State.writeReg_keeps; assumption

end Sys2Proof.Machine
end

