-- ==== Sys2Proof/Laws/Keeps/CopyCore.lean ====
section
/-! SUPPORT. What the operations of Machine/CopyCore.lean keep. -/

set_option linter.all false

namespace Sys2Proof.Machine

variable {lk st : Prop} {s0 s t : State}

theorem State.copyParam_keeps (h : Keeps lk st s0 s) (y1 : ℕ) (y2 : ℕ) (y3 : Who) :
    Keeps lk st s0 (State.copyParam s y1 y2 y3).1 := by
  unfold State.copyParam
  refine keeps_ite1 (fun _ => ?_) (fun _ => ?_)
  · apply State.paramBlock_keeps; assumption
  · extract_lets +onlyGivenNames u1
    clear_value u1
    refine keeps_ite1 (fun _ => ?_) (fun _ => ?_)
    · dsimp only; assumption
    · extract_lets +onlyGivenNames u2 u3
      clear_value u2
      have ku3 : Keeps lk st s0 u3.1 := by
        unfold u3; apply State.busRead_keeps; assumption
      clear_value u3
      dsimp only; refine keeps_ite (fun _ => ?_) (fun _ => ?_)
      · apply State.setCtx_keeps; assumption
      · assumption

theorem State.wordFlags_keeps (h : Keeps lk st s0 s) (y1 : ℕ) (y2 : Who) (y3 : List ℕ) :
    Keeps lk st s0 (State.wordFlags s y1 y2 y3).1 := by
  induction y3 generalizing s y1 y2 with
  | nil =>
    rw [State.wordFlags]
    dsimp only; assumption
  | cons a l ih =>
    rw [State.wordFlags]
    dsimp only; apply ih; apply State.readWord_keeps; assumption

theorem State.copyRead_keeps (h : Keeps lk st s0 s) (y0 : State) (y1 : Who) (y2 y3 y4 : Nat) :
    Keeps lk st s0 (State.copyRead y0 s y1 y2 y3 y4).1 := by
  unfold State.copyRead
  extract_lets +onlyGivenNames a
  clear_value a
  split
  · rename_i c ph e1 e2
    have hm := State.memAdmit_keeps h y1 (s.stamp a) a y3 false
    generalize s.memAdmit y1 (s.stamp a) a y3 false = r at hm
    dsimp only
    split
    · exact hm
    split
    · exact hm
    · have hw := State.wordFlags_keeps hm r.2.2.1 y1 (wordsOf (eccWord r.2.2.1) r.2.2.2 y3)
      generalize r.1.wordFlags r.2.2.1 y1 (wordsOf (eccWord r.2.2.1) r.2.2.2 y3) = q at hw
      split
      · exact State.drawn_keeps hw
      · exact hw
  · have hm := State.gaRead_keeps h y1 y2 y3
    generalize s.gaRead y1 y2 y3 = r at hm
    dsimp only
    split <;> exact hm

theorem State.copyWrite_keeps (h : Keeps lk False s0 s) (y1 : Who) (y2 : ℕ) (y3 : List (Byte × Bool)) :
    Keeps lk False s0 (State.copyWrite s y1 y2 y3).1 := by
  unfold State.copyWrite
  extract_lets +onlyGivenNames u1 u2
  clear_value u1 u2
  refine keeps_ite1 (fun _ => ?_) (fun _ => ?_)
  · apply State.gaWrite_keeps; assumption
  · refine keeps_ite1 (fun _ => ?_) (fun _ => ?_)
    · extract_lets +onlyGivenNames u1
      have ku1 : Keeps lk False s0 u1.1 := by
        unfold u1; apply State.remoteCall_keeps; assumption
      clear_value u1
      dsimp only; assumption
    · refine keeps_ite1 (fun _ => ?_) (fun _ => ?_)
      · extract_lets +onlyGivenNames u2
        have ku2 : Keeps lk False s0 u2.1 := by
          unfold u2; apply State.hostAdmit_keeps; assumption
        clear_value u2
        refine keeps_ite1 (fun _ => ?_) (fun _ => ?_)
        · assumption
        · dsimp only; refine keeps_mk ?_ rfl; assumption
      · split
        · extract_lets +onlyGivenNames u3
          have ku3 : Keeps lk False s0 u3.1 := by
            unfold u3; apply State.memAdmit_keeps; assumption
          clear_value u3
          refine keeps_ite1 (fun _ => ?_) (fun _ => ?_)
          · dsimp only; assumption
          · extract_lets +onlyGivenNames u4 u5
            have ku4 : Keeps lk False s0 u4.1 := by
              unfold u4; apply State.writeMem_keeps; assumption
            clear_value u4 u5
            dsimp only; refine keeps_foldl _ _ (fun _ _ _ => ?_) ?_
            · apply State.poisonMem_keeps; assumption
            · assumption
        · dsimp only; assumption

theorem CopyRun.take_keeps {r : CopyRun} {q : State × Status} (hq : Keeps lk st s0 q.1) (n : Nat) : Keeps lk st s0 (r.take q n).st := by
  unfold CopyRun.take; split <;> exact hq

theorem copyOut_keeps (w : Who) (ga : Nat) (b : List (Byte × Bool)) (l : List (Nat × Nat)) {r : CopyRun} (h : Keeps lk False s0 r.st) :
    Keeps lk False s0 (copyOut w ga b l r).st := by
  induction l generalizing r with
  | nil => rw [copyOut]; exact h
  | cons a l ih =>
    obtain ⟨o, n⟩ := a
    rw [copyOut]
    split
    · exact h
    · exact ih (CopyRun.take_keeps (State.copyWrite_keeps h _ _ _) _)

theorem copyPiece_keeps (w : Who) (ga n : Nat) {r : CopyRun} {q : State × Status × List (Byte × Bool)} (hq : Keeps lk False s0 q.1) :
    Keeps lk False s0 (copyPiece w ga n r q).st := by
  unfold copyPiece
  extract_lets r1
  have h1 : Keeps lk False s0 r1.st := CopyRun.take_keeps hq 0
  split
  · exact h1
  · exact copyOut_keeps _ _ _ _ h1

theorem copyLine_keeps (y0 : State) (w : Who) (a b k : Nat) (l : List (Nat × Nat)) {r : CopyRun} (h : Keeps lk False s0 r.st) :
    Keeps lk False s0 (copyLine y0 w a b k l r).st := by
  unfold copyLine
  induction l generalizing r with
  | nil => exact h
  | cons c l ih =>
    rw [List.foldl_cons]
    refine ih ?_
    split
    · exact h
    · exact copyPiece_keeps _ _ _ (State.copyRead_keeps h _ _ _ _ _)

theorem copyLines_keeps (y0 : State) (w : Who) (c : CopyBlk) (a b j n : Nat) {r : CopyRun} (h : Keeps lk False s0 r.st) :
    Keeps lk False s0 (copyLines y0 w c a b j n r).st := by
  induction n generalizing r j with
  | zero => rw [copyLines]; exact h
  | succ n ih => rw [copyLines]; exact ih _ (copyLine_keeps _ _ _ _ _ _ h)

theorem fillLine_keeps (w : Who) (p : List Byte) (ga : Nat) (l : List (Nat × Nat)) {r : CopyRun} (h : Keeps lk False s0 r.st) :
    Keeps lk False s0 (fillLine w p ga l r).st := by
  induction l generalizing r with
  | nil => rw [fillLine]; exact h
  | cons a l ih =>
    obtain ⟨o, n⟩ := a
    rw [fillLine]
    split
    · exact h
    · exact ih (CopyRun.take_keeps (State.gaWrite_keeps h _ _ _) _)

theorem fillLines_keeps (w : Who) (c : CopyBlk) (b j n : Nat) {r : CopyRun} (h : Keeps lk False s0 r.st) :
    Keeps lk False s0 (fillLines w c b j n r).st := by
  induction n generalizing r j with
  | zero => rw [fillLines]; exact h
  | succ n ih => rw [fillLines]; exact ih _ (fillLine_keeps _ _ _ _ h)

theorem transferBlk_keeps (h : Keeps lk False s0 s) (op : Nat) (w : Who) (b : CopyBlk) (sga dga : Nat) :
    Keeps lk False s0 (transferBlk s op w b sga dga).st := by
  unfold transferBlk
  split
  · exact State.drawn_keeps (copyLines_keeps s w b sga dga 0 b.lines (r := ⟨s, .ok, 0⟩) h)
  · exact fillLines_keeps w b dga 0 b.lines (r := ⟨s, .ok, 0⟩) h

theorem State.copyFill_keeps (h : Keeps lk False s0 s) (y1 y2 y3 : Nat) : Keeps lk False s0 (State.copyFill s y1 y2 y3) := by
  unfold State.copyFill
  extract_lets +onlyGivenNames row w it p
  have hp : Keeps lk False s0 p.1 := State.copyParam_keeps h y2 y3 w
  clear_value p
  split
  · exact h
  split
  · exact State.report__keeps hp _ _ _ _
  extract_lets +onlyGivenNames b sga dga r
  have hr : Keeps lk False s0 r.st := transferBlk_keeps hp _ _ _ _ _
  clear_value r
  split
  · exact h
  · apply State.report__keeps
    split
    · exact State.setCtx_keeps hr _ _ _
    · exact hr

end Sys2Proof.Machine
end

