-- ==== Sys2Proof/Laws/Keeps/Drones.lean ====
section
/-! SUPPORT. What the operations of Machine/Drones.lean keep. -/

set_option linter.all false

namespace Sys2Proof.Machine

variable {lk st : Prop} {s0 s t : State}

theorem State.driveLine_keeps (h : Keeps lk st s0 s) (y1 : ℕ) (y2 : ℕ) :
    Keeps lk st s0 (State.driveLine s y1 y2) := by
  unfold State.driveLine
  refine keeps_ite (fun _ => ?_) (fun _ => ?_)
  · apply State.axisResync_keeps; assumption
  · refine keeps_ite (fun _ => ?_) (fun _ => ?_)
    · apply State.pcLine_keeps; assumption
    · refine keeps_ite (fun _ => ?_) (fun _ => ?_)
      · apply State.lightLine_keeps; assumption
      · refine keeps_ite (fun _ => ?_) (fun _ => ?_)
        · apply State.rasLine_keeps; assumption
        · refine keeps_ite (fun _ => ?_) (fun _ => ?_)
          · apply State.injGo_keeps; assumption
          · assumption

theorem State.targetSend_keeps (h : Keeps lk st s0 s) (y1 : ℕ) (y2 : Bool) :
    Keeps lk st s0 (State.targetSend s y1 y2) := by
  unfold State.targetSend
  extract_lets +onlyGivenNames u4
  clear_value u4
  refine keeps_ite (fun _ => ?_) (fun _ => ?_)
  · refine keeps_mk ?_ rfl; assumption
  · apply State.send_keeps; assumption

theorem State.eventAct_keeps (h : Keeps lk st s0 s) (y1 : FiredEvent) :
    Keeps lk st s0 (State.eventAct s y1) := by
  unfold State.eventAct
  extract_lets +onlyGivenNames u1 u2 u3
  clear_value u1 u2 u3
  refine keeps_ite (fun _ => ?_) (fun _ => ?_)
  · apply State.driveLine_keeps; assumption
  · refine keeps_ite (fun _ => ?_) (fun _ => ?_)
    · apply State.targetSend_keeps; assumption
    · refine keeps_ite (fun _ => ?_) (fun _ => ?_)
      · refine keeps_ite (fun _ => ?_) (fun _ => ?_)
        · extract_lets +onlyGivenNames u1
          clear_value u1
          refine keeps_mk ?_ rfl; assumption
        · refine keeps_ite (fun _ => ?_) (fun _ => ?_)
          · apply State.targetSend_keeps; assumption
          · assumption
      · assumption

theorem State.eventsAct_keeps (h : Keeps lk st s0 s) :
    Keeps lk st s0 (State.eventsAct s) := by
  unfold State.eventsAct
  split
  · assumption
  · refine keeps_foldl _ _ (fun _ _ _ => ?_) ?_
    · apply State.eventAct_keeps; assumption
    · refine keeps_mk ?_ rfl; assumption

theorem State.fifesSee_keeps (h : Keeps lk st s0 s) (y1 : List (ℕ × Bool)) :
    Keeps lk st s0 (State.fifesSee s y1) := by
  unfold State.fifesSee
  refine keeps_foldl _ _ (fun _ _ _ => ?_) ?_
  · apply State.fePhase_keeps; assumption
  · assumption

theorem State.controlCycle_keeps (h : Keeps lk False s0 s) :
    Keeps lk False s0 (State.controlCycle s) := by
  unfold State.controlCycle
  refine keeps_ite (fun _ => ?_) (fun _ => ?_)
  · assumption
  · extract_lets +onlyGivenNames u1 u2 u3
    clear_value u1
    have ku2 : Keeps lk False s0 u2 := by
      unfold u2; apply State.dronesCycle_keeps; apply State.eventsAct_keeps; assumption
    clear_value u2
    have ku3 : Keeps lk False s0 u3 := by
      unfold u3; apply State.sweepPoll_keeps; apply State.fifesSee_keeps; apply State.phaseCutCycle_keeps
      assumption
    clear_value u3
    refine keeps_mk ?_ rfl; assumption

theorem execDroneCycle_keeps (h : Keeps lk False s0 s) (e : (execDroneCycle s) = .next t) :
    Keeps lk False s0 t := by
  unfold execDroneCycle at e
  refine keeps_next ?_ e
  apply State.controlCycle_keeps; assumption

theorem State.latchWritten_keeps (h : Keeps lk False s0 s) :
    Keeps lk False s0 (State.latchWritten s) := by
  unfold State.latchWritten
  split
  · assumption
  · extract_lets +onlyGivenNames u1
    have ku1 : Keeps lk False s0 u1.1 := by
      unfold u1; apply State.gmWrites_keeps; assumption
    clear_value u1
    refine keeps_ite (fun _ => ?_) (fun _ => ?_)
    · assumption
    · extract_lets +onlyGivenNames u1
      have ku1 : Keeps lk False s0 u1 := by
        unfold u1; assumption
      clear_value u1
      extract_lets +onlyGivenNames u1
      have ku1 : Keeps lk False s0 u1 := by
        unfold u1; refine keeps_mk ?_ rfl; assumption
      clear_value u1
      refine keeps_ite (fun _ => ?_) (fun _ => ?_)
      · apply State.wr_keeps; assumption
      · split
        · apply State.targetSend_keeps; assumption
        · assumption

theorem execLatchRecordWritten_keeps (h : Keeps lk False s0 s) (y0 : List Reply) (e : (execLatchRecordWritten y0 s) = .next t) :
    Keeps lk False s0 t := by
  unfold execLatchRecordWritten at e
  refine keeps_next ?_ e
  apply State.withReplies_keeps
  · assumption
  · intro _; intro _; apply State.latchWritten_keeps; assumption

theorem State.capture1_keeps (h : Keeps lk st s0 s) (y1 : ℕ) (y2 : ℕ) (y3 : ℕ) :
    Keeps lk st s0 (State.capture1 s y1 y2 y3) := by
  unfold State.capture1
  split
  · apply State.offerTo_keeps; assumption
  · assumption

theorem State.captureTick_keeps (h : Keeps lk st s0 s) (y1 : ℕ) :
    Keeps lk st s0 (State.captureTick s y1) := by
  unfold State.captureTick
  extract_lets +onlyGivenNames u1
  clear_value u1
  refine keeps_ite (fun _ => ?_) (fun _ => ?_)
  · assumption
  · extract_lets +onlyGivenNames u2 u3
    have ku2 : Keeps lk st s0 u2 := by
      unfold u2; apply State.setDrone_keeps; assumption
    clear_value u2
    have ku3 : Keeps lk st s0 u3 := by
      unfold u3; apply State.capture1_keeps; assumption
    clear_value u3
    refine keeps_ite (fun _ => ?_) (fun _ => ?_)
    · apply State.capture1_keeps; assumption
    · assumption

theorem execDroneCaptureTick_keeps (h : Keeps lk st s0 s) (y0 : Fin 16) (e : (execDroneCaptureTick y0 s) = .next t) :
    Keeps lk st s0 t := by
  unfold execDroneCaptureTick at e
  refine keeps_next ?_ e
  apply State.captureTick_keeps; assumption

theorem State.measArrives_keeps (h : Keeps lk st s0 s) (y1 : ℕ) :
    Keeps lk st s0 (State.measArrives s y1) := by
  unfold State.measArrives
  split
  · apply State.measure_keeps; refine keeps_mk ?_ rfl; assumption
  · assumption

theorem execDroneMeasurement_keeps (h : Keeps lk st s0 s) (y0 : ℕ) (e : (execDroneMeasurement y0 s) = .next t) :
    Keeps lk st s0 t := by
  unfold execDroneMeasurement at e
  refine keeps_next ?_ e
  apply State.measArrives_keeps; assumption

theorem State.missTest_keeps (h : Keeps lk st s0 s) (y1 : ℕ) :
    Keeps lk st s0 (State.missTest s y1) := by
  unfold State.missTest
  extract_lets +onlyGivenNames u1
  clear_value u1
  refine keeps_ite (fun _ => ?_) (fun _ => ?_)
  · assumption
  · extract_lets +onlyGivenNames u4
    have ku4 : Keeps lk st s0 u4 := by
      unfold u4; apply State.setDrone_keeps; assumption
    clear_value u4
    refine keeps_ite (fun _ => ?_) (fun _ => ?_)
    · assumption
    · extract_lets +onlyGivenNames u1
      have ku1 : Keeps lk st s0 u1 := by
        unfold u1; apply State.count_keeps; assumption
      clear_value u1
      refine keeps_ite (fun _ => ?_) (fun _ => ?_)
      · apply State.holdCond_keeps; assumption
      · assumption

theorem execDroneMissTest_keeps (h : Keeps lk st s0 s) (y0 : Fin 16) (e : (execDroneMissTest y0 s) = .next t) :
    Keeps lk st s0 t := by
  unfold execDroneMissTest at e
  refine keeps_next ?_ e
  apply State.missTest_keeps; assumption

theorem execHoldMaxExpiry_keeps (h : Keeps lk st s0 s) (y0 : Fin 16) (e : (execHoldMaxExpiry y0 s) = .next t) :
    Keeps lk st s0 t := by
  unfold execHoldMaxExpiry at e
  refine keeps_next ?_ e
  refine keeps_ite (fun _ => ?_) (fun _ => ?_)
  · apply State.drnTo_keeps; assumption
  · assumption

theorem execDrnEnable_keeps (h : Keeps lk False s0 s) (y0 : Who) (y1 : Fin 16) (y2 : BitVec 32) (e : (execDrnEnable y0 y1 y2 s) = .next t) :
    Keeps lk False s0 t := by
  unfold execDrnEnable at e
  refine keeps_next ?_ e
  apply State.writeReg_keeps; assumption

theorem execReacq_keeps (h : Keeps lk False s0 s) (y0 : Who) (y1 : Fin 16) (y2 : BitVec 32) (e : (execReacq y0 y1 y2 s) = .next t) :
    Keeps lk False s0 t := by
  unfold execReacq at e
  refine keeps_next ?_ e
  apply State.writeReg_keeps; assumption

theorem execPresetGo_keeps (h : Keeps lk False s0 s) (y0 : Who) (y1 : Fin 16) (y2 : BitVec 32) (e : (execPresetGo y0 y1 y2 s) = .next t) :
    Keeps lk False s0 t := by
  unfold execPresetGo at e
  refine keeps_next ?_ e
  apply State.writeReg_keeps; assumption

theorem execDrnCntClr_keeps (h : Keeps lk False s0 s) (y0 : Who) (y1 : Fin 16) (y2 : BitVec 32) (e : (execDrnCntClr y0 y1 y2 s) = .next t) :
    Keeps lk False s0 t := by
  unfold execDrnCntClr at e
  refine keeps_next ?_ e
  apply State.writeReg_keeps; assumption

theorem execAltActiveReturn_keeps (h : Keeps lk False s0 s) (y0 : Who) (y1 : Fin 16) (y2 : BitVec 32) (e : (execAltActiveReturn y0 y1 y2 s) = .next t) :
    Keeps lk False s0 t := by
  unfold execAltActiveReturn at e
  refine keeps_next ?_ e
  apply State.writeReg_keeps; assumption

theorem execEvPhaseWrite_keeps (h : Keeps lk False s0 s) (y0 : Who) (y1 : Fin 16) (y2 : Fin 16) (y3 : BitVec 32) (e : (execEvPhaseWrite y0 y1 y2 y3 s) = .next t) :
    Keeps lk False s0 t := by
  unfold execEvPhaseWrite at e
  refine keeps_next ?_ e
  apply State.writeReg_keeps; assumption

theorem execEvCtrlWrite_keeps (h : Keeps lk False s0 s) (y0 : Who) (y1 : Fin 16) (y2 : Fin 16) (y3 : BitVec 32) (e : (execEvCtrlWrite y0 y1 y2 y3 s) = .next t) :
    Keeps lk False s0 t := by
  unfold execEvCtrlWrite at e
  refine keeps_next ?_ e
  apply State.writeReg_keeps; assumption

theorem execDrnSnapRead_keeps (h : Keeps lk st s0 s) (y0 : Who) (y1 : Fin 16) (e : (execDrnSnapRead y0 y1 s) = .next t) :
    Keeps lk st s0 t := by
  unfold execDrnSnapRead at e
  refine keeps_next ?_ e
  apply State.readReg_keeps; assumption

theorem execLatchBankRead_keeps (h : Keeps lk st s0 s) (y0 : Who) (e : (execLatchBankRead y0 s) = .next t) :
    Keeps lk st s0 t := by
  unfold execLatchBankRead at e
  refine keeps_next ?_ e
  apply State.readReg_keeps; assumption

end Sys2Proof.Machine
end

