-- ==== Sys2Proof/Laws/Keeps/WwDeliver.lean ====
section
/-! SUPPORT. What the operations of Machine/WwDeliver.lean keep. -/

set_option linter.all false

namespace Sys2Proof.Machine

variable {lk st : Prop} {s0 s t : State}

theorem State.wwAnswer_keeps (h : Keeps lk st s0 s) (y1 : WwMsg) (y2 : Status) (y3 : List Byte) :
    Keeps lk st s0 (State.wwAnswer s y1 y2 y3) := by
  unfold State.wwAnswer
  extract_lets +onlyGivenNames u1 u2
  clear_value u1
  have ku2 : Keeps lk st s0 u2.1 := by
    unfold u2; apply State.wwSend_keeps; assumption
  clear_value u2
  refine keeps_ite (fun _ => ?_) (fun _ => ?_)
  · assumption
  · apply State.count_keeps; assumption

theorem State.wwStuck_keeps (h : Keeps lk st s0 s) (y1 : WwMsg) :
    Keeps lk st s0 (State.wwStuck s y1) := by
  unfold State.wwStuck
  refine keeps_ite (fun _ => ?_) (fun _ => ?_)
  · apply State.wwAnswer_keeps; assumption
  · apply State.count_keeps; assumption

theorem State.wwForward_keeps (h : Keeps lk st s0 s) (y1 : WwMsg) :
    Keeps lk st s0 (State.wwForward s y1) := by
  unfold State.wwForward; dsimp only
  refine keeps_ite (fun _ => ?_) (fun _ => ?_)
  · refine keeps_ite (fun _ => ?_) (fun _ => ?_)
    · apply State.wwAnswer_keeps; apply State.count_keeps; assumption
    · apply State.count_keeps; assumption
  · refine keeps_ite (fun _ => ?_) (fun _ => ?_)
    · apply State.wwPut_keeps; assumption
    · refine keeps_ite (fun _ => ?_) (fun _ => ?_)
      · apply State.wwPut_keeps; assumption
      · apply State.wwStuck_keeps; assumption

theorem State.wwWrite_keeps (h : Keeps lk False s0 s) (y1 : WwMsg) :
    Keeps lk False s0 (State.wwWrite s y1) := by
  unfold State.wwWrite
  extract_lets +onlyGivenNames u1 u2
  clear_value u1
  have ku2 : Keeps lk False s0 u2.1 := by
    unfold u2; refine keeps_ite1 (fun _ => ?_) (fun _ => ?_)
    · apply State.copyWrite_keeps; assumption
    · apply State.gaWrite_keeps; assumption
  clear_value u2
  apply State.wwAnswer_keeps; assumption

theorem State.wwRead_keeps (h : Keeps lk st s0 s) (y1 : WwMsg) :
    Keeps lk st s0 (State.wwRead s y1) := by
  unfold State.wwRead; dsimp only
  apply State.wwAnswer_keeps; apply State.gaRead_keeps; assumption

theorem State.wwReply_keeps (h : Keeps lk st s0 s) (y1 : WwMsg) :
    Keeps lk st s0 (State.wwReply s y1) := by
  unfold State.wwReply
  split
  · apply State.count_keeps; assumption
  · refine keeps_ite (fun _ => ?_) (fun _ => ?_)
    · apply State.outstEnd_keeps; apply State.count_keeps; assumption
    · apply State.outstEnd_keeps; assumption

theorem State.tokIn_keeps (h : Keeps lk st s0 s) (y1 : Bool) (y2 : ℕ) :
    Keeps lk st s0 (State.tokIn s y1 y2).1 := by
  unfold State.tokIn
  refine keeps_ite1 (fun _ => ?_) (fun _ => ?_)
  · dsimp only; assumption
  · apply State.arrive_keeps; assumption

theorem State.wwTok_keeps (h : Keeps lk st s0 s) (y1 : WwMsg) :
    Keeps lk st s0 (State.wwTok s y1) := by
  unfold State.wwTok
  refine keeps_ite (fun _ => ?_) (fun _ => ?_)
  · apply State.wwAnswer_keeps; assumption
  · extract_lets +onlyGivenNames u1 u2
    clear_value u1
    have ku2 : Keeps lk st s0 u2.1 := by
      unfold u2; apply State.tokIn_keeps; assumption
    clear_value u2
    refine keeps_ite (fun _ => ?_) (fun _ => ?_)
    · apply State.wwAnswer_keeps; assumption
    · extract_lets +onlyGivenNames u1
      have ku1 : Keeps lk st s0 u1.1 := by
        unfold u1; apply State.tokIn_keeps; assumption
      clear_value u1
      apply State.wwAnswer_keeps; assumption

theorem State.wwTokAck_keeps (h : Keeps lk st s0 s) (y1 : WwMsg) :
    Keeps lk st s0 (State.wwTokAck s y1) := by
  unfold State.wwTokAck
  split
  · apply State.count_keeps; assumption
  · apply State.tokEnd_keeps; assumption

theorem State.wwMgmt_keeps (h : Keeps lk st s0 s) (y1 : ℕ) (y2 : WwMsg) :
    Keeps lk st s0 (State.wwMgmt s y1 y2) := by
  unfold State.wwMgmt
  split
  · apply State.joinGot_keeps; assumption
  · apply State.timeGot_keeps; assumption
  · apply State.timeDone_keeps; assumption
  · apply State.leaderGot_keeps; assumption
  · apply State.lossNotice_keeps; assumption
  · apply State.safeNotice_keeps; assumption
  · apply State.setGroupFault_keeps; assumption
  · apply State.wr_keeps; assumption
  · apply State.fwmsgGot_keeps; assumption
  · apply State.lsSig_keeps; assumption
  · apply State.lsRows_keeps; assumption
  · assumption

theorem State.wwSweep_keeps (h : Keeps lk st s0 s) (y1 : ℕ) (y2 : WwMsg) :
    Keeps lk st s0 (State.wwSweep s y1 y2) := by
  unfold State.wwSweep
  split
  · apply State.sweepArm_keeps; assumption
  · apply State.sweepSync_keeps; assumption
  · apply State.sweepAck_keeps; assumption
  · apply State.sweepStop_keeps; assumption
  · apply State.sweepEnd_keeps; assumption
  · apply State.sweepAborted_keeps; assumption
  · apply State.sweepRefused_keeps; assumption
  · assumption

theorem State.wwLocal_keeps (h : Keeps lk False s0 s) (y1 : ℕ) (y2 : WwMsg) :
    Keeps lk False s0 (State.wwLocal s y1 y2) := by
  unfold State.wwLocal
  split
  · assumption
  · apply State.wwWrite_keeps; assumption
  · apply State.wwRead_keeps; assumption
  · apply State.wwReply_keeps; assumption
  · apply State.wwReply_keeps; assumption
  · apply State.wwTok_keeps; assumption
  · apply State.wwTokAck_keeps; assumption
  · apply State.syncGot_keeps; assumption
  · apply State.wwMgmt_keeps; assumption
  · apply State.wwSweep_keeps; assumption
  · refine keeps_mk ?_ rfl; assumption

theorem State.wwIn_keeps (h : Keeps lk False s0 s) (y1 : ℕ) (y2 : WwMsg) :
    Keeps lk False s0 (State.wwIn s y1 y2) := by
  unfold State.wwIn
  extract_lets +onlyGivenNames u1
  clear_value u1
  refine keeps_ite (fun _ => ?_) (fun _ => ?_)
  · assumption
  · refine keeps_ite (fun _ => ?_) (fun _ => ?_)
    · apply State.wwAnswer_keeps; assumption
    · refine keeps_ite (fun _ => ?_) (fun _ => ?_)
      · apply State.wwLocal_keeps; assumption
      · refine keeps_ite (fun _ => ?_) (fun _ => ?_)
        · refine keeps_ite (fun _ => ?_) (fun _ => ?_)
          · apply State.count_keeps; apply State.wwLocal_keeps; assumption
          · apply State.wwBcast_keeps; apply State.wwLocal_keeps; assumption
        · refine keeps_ite (fun _ => ?_) (fun _ => ?_)
          · apply State.wwLocal_keeps; assumption
          · apply State.wwForward_keeps; assumption

theorem State.wwAccept_keeps (h : Keeps lk False s0 s) (y1 : ℕ) (y2 : WwFrame) :
    Keeps lk False s0 (State.wwAccept s y1 y2) := by
  unfold State.wwAccept
  extract_lets +onlyGivenNames u1
  have ku1 : Keeps lk False s0 u1 := by
    unfold u1; apply State.portMod_keeps; assumption
  clear_value u1
  refine keeps_foldl _ _ (fun _ _ _ => ?_) ?_
  · apply State.wwIn_keeps; assumption
  · assumption

theorem State.wwOrder_keeps (h : Keeps lk False s0 s) (y1 : ℕ) (y2 : WwFrame) :
    Keeps lk False s0 (State.wwOrder s y1 y2) := by
  unfold State.wwOrder
  extract_lets +onlyGivenNames u1
  clear_value u1
  refine keeps_ite (fun _ => ?_) (fun _ => ?_)
  · apply State.wwAccept_keeps; assumption
  · apply State.setPort_keeps; assumption

theorem State.frameReceive_keeps (h : Keeps lk False s0 s) (y1 : ℕ) (y2 : Option WwFrame) :
    Keeps lk False s0 (State.frameReceive s y1 y2) := by
  unfold State.frameReceive
  refine keeps_ite (fun _ => ?_) (fun _ => ?_)
  · assumption
  · extract_lets +onlyGivenNames u1
    have ku1 : Keeps lk False s0 u1 := by
      unfold u1; split
      · apply State.portMod_keeps; apply State.count_keeps; assumption
      · apply State.wwOrder_keeps; assumption
    refine keeps_ite (fun _ => ?_) (fun _ => ?_)
    · assumption
    · apply State.nextFrame_keeps; assumption

theorem State.trainDone_keeps (h : Keeps lk False s0 s) (y1 : ℕ) (y2 : ℕ) (y3 : Bool) (y4 : WwFrame) :
    Keeps lk False s0 (State.trainDone s y1 y2 y3 y4) := by
  unfold State.trainDone
  refine keeps_ite (fun _ => ?_) (fun _ => ?_)
  · assumption
  · extract_lets +onlyGivenNames u1
    have ku1 : Keeps lk False s0 u1 := by
      unfold u1; apply State.wrAll_keeps; assumption
    clear_value u1
    apply State.wwAccept_keeps; apply State.toMgmt_keeps; assumption

theorem State.tunnelFrame_keeps (h : Keeps lk False s0 s) (y1 : ℕ) (y2 : WwFrame) :
    Keeps lk False s0 (State.tunnelFrame s y1 y2) := by
  unfold State.tunnelFrame
  extract_lets +onlyGivenNames u1
  clear_value u1
  refine keeps_ite (fun _ => ?_) (fun _ => ?_)
  · assumption
  · refine keeps_ite (fun _ => ?_) (fun _ => ?_)
    · apply State.wwAccept_keeps; apply State.toMgmt_keeps; assumption
    · apply State.wwOrder_keeps; assumption

end Sys2Proof.Machine
end

