-- ==== Sys2Proof/Laws/Keeps/EthCore.lean ====
section
/-! SUPPORT. What the operations of Machine/EthCore.lean keep. -/

set_option linter.all false

namespace Sys2Proof.Machine

variable {lk st : Prop} {s0 s t : State}

theorem State.ethTunnel_keeps (h : Keeps lk False s0 s) (y1 : ℕ) (y2 : List Byte) :
    Keeps lk False s0 (State.ethTunnel s y1 y2) := by
  unfold State.ethTunnel
  extract_lets +onlyGivenNames u1 u2
  clear_value u1 u2
  split
  · refine keeps_ite (fun _ => ?_) (fun _ => ?_)
    · apply State.tunnelFrame_keeps; assumption
    · refine keeps_mk ?_ rfl; assumption
  · refine keeps_mk ?_ rfl; assumption

theorem State.ethReceive_keeps (h : Keeps lk False s0 s) (y1 : ℕ) (y2 : ℕ) (y3 : List Byte) (y4 : Bool) :
    Keeps lk False s0 (State.ethReceive s y1 y2 y3 y4) := by
  unfold State.ethReceive
  refine keeps_ite (fun _ => ?_) (fun _ => ?_)
  · assumption
  · extract_lets +onlyGivenNames u1
    have ku1 : Keeps lk False s0 u1 := by
      unfold u1; apply State.wrAll_keeps; assumption
    clear_value u1
    refine keeps_ite (fun _ => ?_) (fun _ => ?_)
    · apply State.count_keeps; assumption
    · refine keeps_ite (fun _ => ?_) (fun _ => ?_)
      · assumption
      · refine keeps_ite (fun _ => ?_) (fun _ => ?_)
        · apply State.ethTunnel_keeps; assumption
        · apply State.ethSteer_keeps; assumption

theorem State.tunnelNext_keeps (h : Keeps lk st s0 s) (y1 y2 y3 : Nat) {r} (e : (State.tunnelNext s y1 y2 y3) = some r) :
    Keeps lk st s0 r.1 := by
  unfold State.tunnelNext at e
  obtain ⟨k, -, hk⟩ := List.exists_of_findSome?_eq_some e
  split at hk
  · split at hk
    · rename_i s1 f he
      extract_lets l at hk
      split at hk
      · injection hk with hk
        rw [← hk]
        exact keeps_fst he (State.nextFrame_keeps h _)
      · cases hk
    · cases hk
  · cases hk

theorem State.safetyNext_keeps (h : Keeps lk st s0 s) (y1 : ℕ) (y2 : ℕ) (y3 : ℕ) {r} (e : (State.safetyNext s y1 y2 y3) = some r) :
    Keeps lk st s0 r.1 := by
  unfold State.safetyNext at e; (try dsimp only at e)
  (repeat' split at e) <;> cases e
  · dsimp only; refine keeps_mk ?_ rfl; assumption

theorem State.ringTurn_keeps (h : Keeps lk st s0 s) (y1 : ℕ) (y2 : ℕ) (y3 : ℕ) :
    Keeps lk st s0 (State.ringTurn s y1 y2 y3).1 := by
  unfold State.ringTurn
  split
  · dsimp only; refine keeps_mk ?_ rfl; refine keeps_fst (by assumption) ?_; apply State.ethRingFrame_keeps
    assumption
  · apply State.ethRingFrame_keeps; assumption

theorem State.tunnelTurn_keeps (h : Keeps lk st s0 s) (y1 : ℕ) (y2 : ℕ) (y3 : ℕ) :
    Keeps lk st s0 (State.tunnelTurn s y1 y2 y3).1 := by
  unfold State.tunnelTurn
  split
  · dsimp only; refine keeps_mk ?_ rfl; apply State.tunnelNext_keeps (r := (_, _)) (e := by assumption)
    assumption
  · dsimp only; assumption

theorem State.classNext_keeps (h : Keeps lk st s0 s) (y1 : ℕ) (y2 : ℕ) (y3 : ℕ) :
    Keeps lk st s0 (State.classNext s y1 y2 y3).1 := by
  unfold State.classNext
  split
  · dsimp only; apply State.safetyNext_keeps (r := (_, _)) (e := by assumption); assumption
  · extract_lets +onlyGivenNames u1
    have ku1 : Keeps lk st s0 u1.1 := by
      unfold u1; refine keeps_ite1 (fun _ => ?_) (fun _ => ?_)
      · apply State.tunnelTurn_keeps; assumption
      · apply State.ringTurn_keeps; assumption
    clear_value u1
    split
    · assumption
    · refine keeps_ite1 (fun _ => ?_) (fun _ => ?_)
      · apply State.ringTurn_keeps; assumption
      · apply State.tunnelTurn_keeps; assumption

theorem State.classesNext_keeps (h : Keeps lk st s0 s) (y0 : ℕ) (y1 : ℕ) (y2 : List ℕ) :
    Keeps lk st s0 (State.classesNext y0 y1 y2 s) := by
  induction y2 generalizing s y0 y1 with
  | nil =>
    rw [State.classesNext]
    assumption
  | cons a l ih =>
    rw [State.classesNext]
    split
    · refine keeps_mk ?_ rfl; refine keeps_fst (by assumption) ?_; apply State.classNext_keeps; assumption
    · apply ih; refine keeps_fst (by assumption) ?_; apply State.classNext_keeps; assumption

theorem State.ethTransmit_keeps (h : Keeps lk st s0 s) (y1 : ℕ) (y2 : ℕ) :
    Keeps lk st s0 (State.ethTransmit s y1 y2) := by
  unfold State.ethTransmit
  refine keeps_ite (fun _ => ?_) (fun _ => ?_)
  · assumption
  · apply State.classesNext_keeps; apply State.wrAll_keeps; assumption

end Sys2Proof.Machine
end

