-- ==== Sys2Proof/Laws/Keeps/Field.lean ====
section
/-! SUPPORT. What the operations of Machine/Field.lean keep. -/

set_option linter.all false

namespace Sys2Proof.Machine

variable {lk st : Prop} {s0 s t : State}

theorem State.csiPacket_keeps (h : Keeps lk st s0 s) (y1 : ℕ) (y2 : ℕ) (y3 : ℕ) (y4 : Option ℕ) (y5 : State → ℕ → State) (hf5 : ∀ s z1, Keeps lk st s0 s → Keeps lk st s0 (y5 s z1)) :
    Keeps lk st s0 (State.csiPacket s y1 y2 y3 y4 y5) := by
  unfold State.csiPacket
  split
  · apply State.csiEach_keeps
    · refine keeps_fst (by assumption) ?_; apply State.csiHeader_keeps; assumption
    · intro _; intro _; intro _; apply hf5; assumption
  · refine keeps_fst (by assumption) ?_; apply State.csiHeader_keeps; assumption

theorem execFrTailWrite_keeps (h : Keeps lk False s0 s) (y0 : RingId) (y1 : Who) (y2 : BitVec 32) (e : (execFrTailWrite y0 y1 y2 s) = .next t) :
    Keeps lk False s0 t := by
  unfold execFrTailWrite at e
  refine keeps_next ?_ e
  apply State.writeReg_keeps; assumption

theorem execFieldEntryDone_keeps (h : Keeps lk False s0 s) (y0 : RingId) (y1 : List Reply) (e : (execFieldEntryDone y0 y1 s) = .next t) :
    Keeps lk False s0 t := by
  unfold execFieldEntryDone at e
  refine keeps_next ?_ e
  apply State.withReplies_keeps
  · assumption
  · intro _; intro _; apply State.frEntryDone_keeps; assumption

theorem execEthFrameReceive_keeps (h : Keeps lk False s0 s) (y0 : Fin 4) (y1 : Fin 4) (y2 : List Byte) (y3 : Bool) (y4 : List Reply) (e : (execEthFrameReceive y0 y1 y2 y3 y4 s) = .next t) :
    Keeps lk False s0 t := by
  unfold execEthFrameReceive at e
  refine keeps_next ?_ e
  apply State.withReplies_keeps
  · assumption
  · intro _; intro _; apply State.ethReceive_keeps; assumption

theorem execEthFrameTransmit_keeps (h : Keeps lk st s0 s) (y0 : Fin 4) (y1 : Fin 4) (y2 : List Reply) (e : (execEthFrameTransmit y0 y1 y2 s) = .next t) :
    Keeps lk st s0 t := by
  unfold execEthFrameTransmit at e
  refine keeps_next ?_ e
  apply State.withReplies_keeps
  · assumption
  · intro _; intro _; apply State.ethTransmit_keeps; assumption

theorem execGateEntryEnd_keeps (h : Keeps lk st s0 s) (y0 : Fin 4) (e : (execGateEntryEnd y0 s) = .next t) :
    Keeps lk st s0 t := by
  unfold execGateEntryEnd at e
  refine keeps_next ?_ e
  apply State.gateEntryEnd_keeps; assumption

theorem execQbvChange_keeps (h : Keeps lk False s0 s) (y0 : Fin 4) (y1 : Who) (y2 : BitVec 32) (e : (execQbvChange y0 y1 y2 s) = .next t) :
    Keeps lk False s0 t := by
  unfold execQbvChange at e
  refine keeps_next ?_ e
  apply State.writeReg_keeps; assumption

theorem execAdminListActivation_keeps (h : Keeps lk st s0 s) (y0 : Fin 4) (e : (execAdminListActivation y0 s) = .next t) :
    Keeps lk st s0 t := by
  unfold execAdminListActivation at e
  refine keeps_next ?_ e
  apply State.qbvActivate_keeps; assumption

theorem execRateAdjWrite_keeps (h : Keeps lk False s0 s) (y0 : Who) (y1 : BitVec 32) (e : (execRateAdjWrite y0 y1 s) = .next t) :
    Keeps lk False s0 t := by
  unfold execRateAdjWrite at e
  refine keeps_next ?_ e
  apply State.writeReg_keeps; assumption

theorem execTimeStep_keeps (h : Keeps lk False s0 s) (y0 : Who) (y1 : BitVec 32) (e : (execTimeStep y0 y1 s) = .next t) :
    Keeps lk False s0 t := by
  unfold execTimeStep at e
  refine keeps_next ?_ e
  apply State.writeReg_keeps; assumption

theorem execCanTxreq_keeps (h : Keeps lk False s0 s) (y0 : Fin 4) (y1 : Who) (y2 : BitVec 32) (e : (execCanTxreq y0 y1 y2 s) = .next t) :
    Keeps lk False s0 t := by
  unfold execCanTxreq at e
  refine keeps_next ?_ e
  apply State.writeReg_keeps; assumption

theorem execCanTransmitDone_keeps (h : Keeps lk st s0 s) (y0 : Fin 4) (e : (execCanTransmitDone y0 s) = .next t) :
    Keeps lk st s0 t := by
  unfold execCanTransmitDone at e
  refine keeps_next ?_ e
  apply State.canSent_keeps; assumption

theorem execCanFrameReceive_keeps (h : Keeps lk st s0 s) (y0 : Fin 4) (y1 : BitVec 48) (y2 : CanFrame) (y3 : List Reply) (e : (execCanFrameReceive y0 y1 y2 y3 s) = .next t) :
    Keeps lk st s0 t := by
  unfold execCanFrameReceive at e
  refine keeps_next ?_ e
  apply State.withReplies_keeps
  · assumption
  · intro _; intro _; apply State.canReceive_keeps; assumption

theorem execCanBusOff_keeps (h : Keeps lk st s0 s) (y0 : Fin 4) (e : (execCanBusOff y0 s) = .next t) :
    Keeps lk st s0 t := by
  unfold execCanBusOff at e
  refine keeps_next ?_ e
  apply State.canBusOff_keeps; assumption

theorem execCanRecover_keeps (h : Keeps lk False s0 s) (y0 : Fin 4) (y1 : Who) (y2 : BitVec 32) (e : (execCanRecover y0 y1 y2 s) = .next t) :
    Keeps lk False s0 t := by
  unfold execCanRecover at e
  refine keeps_next ?_ e
  apply State.writeReg_keeps; assumption

theorem execBusOffRecovery_keeps (h : Keeps lk st s0 s) (y0 : Fin 4) (e : (execBusOffRecovery y0 s) = .next t) :
    Keeps lk st s0 t := by
  unfold execBusOffRecovery at e
  refine keeps_next ?_ e
  apply State.canRecovered_keeps; assumption

theorem execCsiFrameStart_keeps (h : Keeps lk False s0 s) (y0 : Fin 2) (y1 : Fin 3) (y2 : Fin 4) (y3 : BitVec 16) (y4 : List Reply) (e : (execCsiFrameStart y0 y1 y2 y3 y4 s) = .next t) :
    Keeps lk False s0 t := by
  unfold execCsiFrameStart at e
  refine keeps_next ?_ e
  apply State.withReplies_keeps
  · assumption
  · intro _; intro _; apply State.csiPacket_keeps
    · assumption
    · intro _; intro _; intro _; apply State.csiStart_keeps; assumption

theorem execCsiLine_keeps (h : Keeps lk False s0 s) (y0 : Fin 2) (y1 : Fin 3) (y2 : Fin 4) (y3 : Fin 64) (y4 : List ℕ) (y5 : Bool) (y6 : List Reply) (e : (execCsiLine y0 y1 y2 y3 y4 y5 y6 s) = .next t) :
    Keeps lk False s0 t := by
  unfold execCsiLine at e
  refine keeps_next ?_ e
  apply State.withReplies_keeps
  · assumption
  · intro _; intro _; apply State.csiPacket_keeps
    · assumption
    · intro _; intro _; intro _; apply State.csiLine_keeps; assumption

theorem execCsiBandComplete_keeps (h : Keeps lk st s0 s) (y0 : Fin 2) (y1 : Fin 2) (e : (execCsiBandComplete y0 y1 s) = .next t) :
    Keeps lk st s0 t := by
  unfold execCsiBandComplete at e
  refine keeps_next ?_ e
  apply State.csiBandDone_keeps; assumption

theorem execCsiFrameEnd_keeps (h : Keeps lk False s0 s) (y0 : Fin 2) (y1 : Fin 3) (y2 : Fin 4) (y3 : List Reply) (e : (execCsiFrameEnd y0 y1 y2 y3 s) = .next t) :
    Keeps lk False s0 t := by
  unfold execCsiFrameEnd at e
  refine keeps_next ?_ e
  apply State.withReplies_keeps
  · assumption
  · intro _; intro _; apply State.csiPacket_keeps
    · assumption
    · intro _; intro _; intro _; apply State.csiEnd_keeps; assumption

theorem execCsiFrameTimeout_keeps (h : Keeps lk False s0 s) (y0 : Fin 2) (y1 : Fin 2) (y2 : List Reply) (e : (execCsiFrameTimeout y0 y1 y2 s) = .next t) :
    Keeps lk False s0 t := by
  unfold execCsiFrameTimeout at e
  refine keeps_next ?_ e
  apply State.withReplies_keeps
  · assumption
  · intro _; intro _; apply State.csiTimeout_keeps; assumption

theorem execCsBufRet_keeps (h : Keeps lk False s0 s) (y0 : Fin 2) (y1 : Fin 2) (y2 : Who) (y3 : BitVec 32) (e : (execCsBufRet y0 y1 y2 y3 s) = .next t) :
    Keeps lk False s0 t := by
  unfold execCsBufRet at e
  refine keeps_next ?_ e
  apply State.writeReg_keeps; assumption

theorem execSpiTx_keeps (h : Keeps lk False s0 s) (y0 : Fin 6) (y1 : Who) (y2 : BitVec 32) (e : (execSpiTx y0 y1 y2 s) = .next t) :
    Keeps lk False s0 t := by
  unfold execSpiTx at e
  refine keeps_next ?_ e
  apply State.writeReg_keeps; assumption

theorem execI2cCmd_keeps (h : Keeps lk False s0 s) (y0 : Fin 4) (y1 : Who) (y2 : BitVec 32) (e : (execI2cCmd y0 y1 y2 s) = .next t) :
    Keeps lk False s0 t := by
  unfold execI2cCmd at e
  refine keeps_next ?_ e
  apply State.writeReg_keeps; assumption

theorem execUartTx_keeps (h : Keeps lk False s0 s) (y0 : Fin 4) (y1 : Who) (y2 : BitVec 32) (e : (execUartTx y0 y1 y2 s) = .next t) :
    Keeps lk False s0 t := by
  unfold execUartTx at e
  refine keeps_next ?_ e
  apply State.writeReg_keeps; assumption

theorem execXspiCmd_keeps (h : Keeps lk False s0 s) (y0 : Who) (y1 : BitVec 32) (e : (execXspiCmd y0 y1 s) = .next t) :
    Keeps lk False s0 t := by
  unfold execXspiCmd at e
  refine keeps_next ?_ e
  apply State.writeReg_keeps; assumption

theorem execSerialTransferDone_keeps (h : Keeps lk st s0 s) (y0 : SerialEvent) (e : (execSerialTransferDone y0 s) = .next t) :
    Keeps lk st s0 t := by
  unfold execSerialTransferDone at e
  refine keeps_next ?_ e
  apply State.serDone_keeps; assumption

theorem execSerialRxRead_keeps (h : Keeps lk st s0 s) (y0 : SerialRx) (y1 : Who) (e : (execSerialRxRead y0 y1 s) = .next t) :
    Keeps lk st s0 t := by
  unfold execSerialRxRead at e
  refine keeps_next ?_ e
  apply State.readReg_keeps; assumption

theorem execXspiWdataRead_keeps (h : Keeps lk st s0 s) (y0 : Who) (y1 : List Reply) (e : (execXspiWdataRead y0 y1 s) = .next t) :
    Keeps lk st s0 t := by
  unfold execXspiWdataRead at e
  refine keeps_next ?_ e
  apply State.withReplies_keeps
  · assumption
  · intro _; intro _; apply State.readReg_keeps; assumption

end Sys2Proof.Machine
end

