-- ==== Sys2Proof/Laws/Keeps/Fife.lean ====
section
/-! SUPPORT. What the operations of Machine/Fife.lean keep. -/

set_option linter.all false

namespace Sys2Proof.Machine

variable {lk st : Prop} {s0 s t : State}

theorem State.setFio_keeps (h : Keeps lk st s0 s) (y1 : BitVec 128) :
    Keeps lk st s0 (State.setFio s y1) := by
  unfold State.setFio
  refine keeps_mk ?_ rfl; assumption

theorem execNop_keeps (h : Keeps lk st s0 s) (y0 : Fin 32) (e : (execNop y0 s) = .next t) :
    Keeps lk st s0 t := by
  unfold execNop at e
  refine keeps_next ?_ e
  apply State.feIssue_keeps
  · assumption
  · intro _; intro _; intro _; intro _; intro _; intro _; apply State.feNop_keeps; assumption

theorem execBr_keeps (h : Keeps lk st s0 s) (y0 : Fin 32) (y1 : BitVec 128) (e : (execBr y0 y1 s) = .next t) :
    Keeps lk st s0 t := by
  unfold execBr at e
  refine keeps_next ?_ e
  apply State.feIssue_keeps
  · apply State.setFio_keeps; assumption
  · intro _; intro _; intro _; intro _; intro _; intro _; apply State.feBr_keeps; assumption

theorem execLoop_keeps (h : Keeps lk st s0 s) (y0 : Fin 32) (e : (execLoop y0 s) = .next t) :
    Keeps lk st s0 t := by
  unfold execLoop at e
  refine keeps_next ?_ e
  apply State.feIssue_keeps
  · assumption
  · intro _; intro _; intro _; intro _; intro _; intro _; apply State.feLoop_keeps; assumption

theorem execWait_keeps (h : Keeps lk st s0 s) (y0 : Fin 32) (y1 : BitVec 128) (e : (execWait y0 y1 s) = .next t) :
    Keeps lk st s0 t := by
  unfold execWait at e
  refine keeps_next ?_ e
  apply State.feIssue_keeps
  · apply State.setFio_keeps; assumption
  · intro _; intro _; intro _; intro _; intro _; intro _; apply State.feWait_keeps; assumption

theorem execWaitEnd_keeps (h : Keeps lk st s0 s) (y0 : Fin 32) (y1 : BitVec 128) (e : (execWaitEnd y0 y1 s) = .next t) :
    Keeps lk st s0 t := by
  unfold execWaitEnd at e
  refine keeps_next ?_ e
  apply State.feWaitTest_keeps; apply State.setFio_keeps; assumption

theorem execWaitTimeout_keeps (h : Keeps lk st s0 s) (y0 : Fin 32) (e : (execWaitTimeout y0 s) = .next t) :
    Keeps lk st s0 t := by
  unfold execWaitTimeout at e
  refine keeps_next ?_ e
  apply State.feTimeout_keeps; assumption

theorem execShin_keeps (h : Keeps lk st s0 s) (y0 : Fin 32) (y1 : BitVec 128) (e : (execShin y0 y1 s) = .next t) :
    Keeps lk st s0 t := by
  unfold execShin at e
  refine keeps_next ?_ e
  apply State.feIssue_keeps
  · apply State.setFio_keeps; assumption
  · intro _; intro _; intro _; intro _; intro _; intro _; apply State.feShin_keeps; assumption

theorem execShout_keeps (h : Keeps lk st s0 s) (y0 : Fin 32) (e : (execShout y0 s) = .next t) :
    Keeps lk st s0 t := by
  unfold execShout at e
  refine keeps_next ?_ e
  apply State.feIssue_keeps
  · assumption
  · intro _; intro _; intro _; intro _; intro _; intro _; apply State.feShout_keeps; assumption

theorem execPushRx_keeps (h : Keeps lk st s0 s) (y0 : Fin 32) (e : (execPushRx y0 s) = .next t) :
    Keeps lk st s0 t := by
  unfold execPushRx at e
  refine keeps_next ?_ e
  apply State.feIssue_keeps
  · assumption
  · intro _; intro _; intro _; intro _; intro _; intro _; apply State.fePushRx_keeps; assumption

theorem execPushDrone_keeps (h : Keeps lk st s0 s) (y0 : Fin 32) (e : (execPushDrone y0 s) = .next t) :
    Keeps lk st s0 t := by
  unfold execPushDrone at e
  refine keeps_next ?_ e
  apply State.feIssue_keeps
  · assumption
  · intro _; intro _; intro _; intro _; intro _; intro _; apply State.fePushDrone_keeps; assumption

theorem execPushPcnt_keeps (h : Keeps lk st s0 s) (y0 : Fin 32) (e : (execPushPcnt y0 s) = .next t) :
    Keeps lk st s0 t := by
  unfold execPushPcnt at e
  refine keeps_next ?_ e
  apply State.feIssue_keeps
  · assumption
  · intro _; intro _; intro _; intro _; intro _; intro _; apply State.fePushPcnt_keeps; assumption

theorem execPull_keeps (h : Keeps lk st s0 s) (y0 : Fin 32) (e : (execPull y0 s) = .next t) :
    Keeps lk st s0 t := by
  unfold execPull at e
  refine keeps_next ?_ e
  apply State.feIssue_keeps
  · assumption
  · intro _; intro _; intro _; intro _; intro _; intro _; apply State.fePull_keeps; assumption

theorem execFifoStallEnd_keeps (h : Keeps lk st s0 s) (y0 : Fin 32) (e : (execFifoStallEnd y0 s) = .next t) :
    Keeps lk st s0 t := by
  unfold execFifoStallEnd at e
  refine keeps_next ?_ e
  apply State.feFifoEnd_keeps; assumption

theorem execXfer_keeps (h : Keeps lk st s0 s) (y0 : Fin 32) (e : (execXfer y0 s) = .next t) :
    Keeps lk st s0 t := by
  unfold execXfer at e
  refine keeps_next ?_ e
  apply State.feIssue_keeps
  · assumption
  · intro _; intro _; intro _; intro _; intro _; intro _; apply State.feXfer_keeps; assumption

theorem execLoad_keeps (h : Keeps lk st s0 s) (y0 : Fin 32) (e : (execLoad y0 s) = .next t) :
    Keeps lk st s0 t := by
  unfold execLoad at e
  refine keeps_next ?_ e
  apply State.feIssue_keeps
  · assumption
  · intro _; intro _; intro _; intro _; intro _; intro _; apply State.feLoad_keeps; assumption

theorem execPin_keeps (h : Keeps lk st s0 s) (y0 : Fin 32) (e : (execPin y0 s) = .next t) :
    Keeps lk st s0 t := by
  unfold execPin at e
  refine keeps_next ?_ e
  apply State.feIssue_keeps
  · assumption
  · intro _; intro _; intro _; intro _; intro _; intro _; apply State.fePinOp_keeps; assumption

theorem execTgt_keeps (h : Keeps lk st s0 s) (y0 : Fin 32) (e : (execTgt y0 s) = .next t) :
    Keeps lk st s0 t := by
  unfold execTgt at e
  refine keeps_next ?_ e
  apply State.feIssue_keeps
  · assumption
  · intro _; intro _; intro _; intro _; intro _; intro _; apply State.feTgt_keeps; assumption

theorem execSigErr_keeps (h : Keeps lk st s0 s) (y0 : Fin 32) (e : (execSigErr y0 s) = .next t) :
    Keeps lk st s0 t := by
  unfold execSigErr at e
  refine keeps_next ?_ e
  apply State.feIssue_keeps
  · assumption
  · intro _; intro _; intro _; intro _; intro _; intro _; apply State.feSigErr_keeps; assumption

theorem execSigIrq_keeps (h : Keeps lk st s0 s) (y0 : Fin 32) (e : (execSigIrq y0 s) = .next t) :
    Keeps lk st s0 t := by
  unfold execSigIrq at e
  refine keeps_next ?_ e
  apply State.feIssue_keeps
  · assumption
  · intro _; intro _; intro _; intro _; intro _; intro _; apply State.feSigIrq_keeps; assumption

theorem execSigToken_keeps (h : Keeps lk st s0 s) (y0 : Fin 32) (e : (execSigToken y0 s) = .next t) :
    Keeps lk st s0 t := by
  unfold execSigToken at e
  refine keeps_next ?_ e
  apply State.feIssue_keeps
  · assumption
  · intro _; intro _; intro _; intro _; intro _; intro _; apply State.feSigToken_keeps; assumption

theorem execSigHalt_keeps (h : Keeps lk st s0 s) (y0 : Fin 32) (e : (execSigHalt y0 s) = .next t) :
    Keeps lk st s0 t := by
  unfold execSigHalt at e
  refine keeps_next ?_ e
  apply State.feIssue_keeps
  · assumption
  · intro _; intro _; intro _; intro _; intro _; intro _; apply State.feSigHalt_keeps; assumption

theorem execSigClrstale_keeps (h : Keeps lk st s0 s) (y0 : Fin 32) (e : (execSigClrstale y0 s) = .next t) :
    Keeps lk st s0 t := by
  unfold execSigClrstale at e
  refine keeps_next ?_ e
  apply State.feIssue_keeps
  · assumption
  · intro _; intro _; intro _; intro _; intro _; intro _; apply State.feSigClrstale_keeps; assumption

theorem execSigCrcrst_keeps (h : Keeps lk st s0 s) (y0 : Fin 32) (e : (execSigCrcrst y0 s) = .next t) :
    Keeps lk st s0 t := by
  unfold execSigCrcrst at e
  refine keeps_next ?_ e
  apply State.feIssue_keeps
  · assumption
  · intro _; intro _; intro _; intro _; intro _; intro _; apply State.feSigCrcrst_keeps; assumption

theorem execFetchIllegal_keeps (h : Keeps lk st s0 s) (y0 : Fin 32) (e : (execFetchIllegal y0 s) = .next t) :
    Keeps lk st s0 t := by
  unfold execFetchIllegal at e
  refine keeps_next ?_ e
  apply State.feIllegal_keeps; assumption

theorem execFetchParityError_keeps (h : Keeps lk st s0 s) (y0 : Fin 32) (e : (execFetchParityError y0 s) = .next t) :
    Keeps lk st s0 t := by
  unfold execFetchParityError at e
  refine keeps_next ?_ e
  apply State.feParity_keeps; assumption

theorem execFeEn_keeps (h : Keeps lk False s0 s) (y0 : Who) (y1 : Fin 32) (y2 : BitVec 32) (e : (execFeEn y0 y1 y2 s) = .next t) :
    Keeps lk False s0 t := by
  unfold execFeEn at e
  refine keeps_next ?_ e
  apply State.writeReg_keeps; assumption

theorem execFeHalt_keeps (h : Keeps lk False s0 s) (y0 : Who) (y1 : Fin 32) (y2 : BitVec 32) (e : (execFeHalt y0 y1 y2 s) = .next t) :
    Keeps lk False s0 t := by
  unfold execFeHalt at e
  refine keeps_next ?_ e
  apply State.writeReg_keeps; assumption

theorem execFeStep_keeps (h : Keeps lk False s0 s) (y0 : Who) (y1 : Fin 32) (y2 : BitVec 32) (y3 : BitVec 128) (e : (execFeStep y0 y1 y2 y3 s) = .next t) :
    Keeps lk False s0 t := by
  unfold execFeStep at e
  refine keeps_next ?_ e
  apply State.writeReg_keeps; apply State.setFio_keeps; assumption

theorem execFifeGo_keeps (h : Keeps lk False s0 s) (y0 : Who) (y1 : BitVec 32) (e : (execFifeGo y0 y1 s) = .next t) :
    Keeps lk False s0 t := by
  unfold execFifeGo at e
  refine keeps_next ?_ e
  apply State.writeReg_keeps; assumption

theorem execFifeClkrst_keeps (h : Keeps lk False s0 s) (y0 : Who) (y1 : BitVec 32) (e : (execFifeClkrst y0 y1 s) = .next t) :
    Keeps lk False s0 t := by
  unfold execFifeClkrst at e
  refine keeps_next ?_ e
  apply State.writeReg_keeps; assumption

theorem execFeInj_keeps (h : Keeps lk False s0 s) (y0 : Who) (y1 : Fin 32) (y2 : BitVec 32) (y3 : BitVec 128) (e : (execFeInj y0 y1 y2 y3 s) = .next t) :
    Keeps lk False s0 t := by
  unfold execFeInj at e
  refine keeps_next ?_ e
  apply State.writeReg_keeps; apply State.setFio_keeps; assumption

theorem execFeTx_keeps (h : Keeps lk False s0 s) (y0 : Who) (y1 : Fin 32) (y2 : BitVec 32) (e : (execFeTx y0 y1 y2 s) = .next t) :
    Keeps lk False s0 t := by
  unfold execFeTx at e
  refine keeps_next ?_ e
  apply State.writeReg_keeps; assumption

theorem execFeRxRead_keeps (h : Keeps lk st s0 s) (y0 : Who) (y1 : Fin 32) (e : (execFeRxRead y0 y1 s) = .next t) :
    Keeps lk st s0 t := by
  unfold execFeRxRead at e
  refine keeps_next ?_ e
  apply State.readReg_keeps; assumption

theorem execInstructionMemoryWrite_keeps (h : Keeps lk False s0 s) (y0 : Who) (y1 : Fin 32) (y2 : Fin 32) (y3 : BitVec 32) (e : (execInstructionMemoryWrite y0 y1 y2 y3 s) = .next t) :
    Keeps lk False s0 t := by
  unfold execInstructionMemoryWrite at e
  refine keeps_next ?_ e
  apply State.writeReg_keeps; assumption

theorem execFifeNowRead_keeps (h : Keeps lk st s0 s) (y0 : Who) (e : (execFifeNowRead y0 s) = .next t) :
    Keeps lk st s0 t := by
  unfold execFifeNowRead at e
  refine keeps_next ?_ e
  apply State.readReg_keeps; assumption

end Sys2Proof.Machine
end

