-- ==== Sys2Proof/Laws/Keeps/HostRings.lean ====
section
/-! SUPPORT. What the operations of Machine/HostRings.lean keep. -/

set_option linter.all false

namespace Sys2Proof.Machine

variable {lk st : Prop} {s0 s t : State}

theorem execPcieReset_keeps (h : Keeps lk st s0 s) (e : (execPcieReset s) = .next t) :
    Keeps lk st s0 t := by
  unfold execPcieReset at e
  refine keeps_next ?_ e
  apply State.pcieReset_keeps; assumption

theorem execFlr_keeps (h : Keeps lk st s0 s) (y0 : Fin 32) (e : (execFlr y0 s) = .next t) :
    Keeps lk st s0 t := by
  unfold execFlr at e
  refine keeps_next ?_ e
  apply State.flr_keeps; assumption

theorem execD3hotEntry_keeps (h : Keeps lk False s0 s) (y0 : Fin 32) (e : (execD3hotEntry y0 s) = .next t) :
    Keeps lk False s0 t := by
  unfold execD3hotEntry at e
  refine keeps_next ?_ e
  apply State.d3Enter_keeps; assumption

theorem execD0Return_keeps (h : Keeps lk st s0 s) (y0 : Fin 32) (e : (execD0Return y0 s) = .next t) :
    Keeps lk st s0 t := by
  unfold execD0Return at e
  refine keeps_next ?_ e
  apply State.d0Return_keeps; assumption

theorem execCompletionTimeout_keeps (h : Keeps lk st s0 s) (y0 : Who) (y1 : BitVec 48) (y2 : ℕ) (e : (execCompletionTimeout y0 y1 y2 s) = .next t) :
    Keeps lk st s0 t := by
  unfold execCompletionTimeout at e
  refine keeps_next ?_ e
  apply State.withReplies_keeps
  · assumption
  · intro _; intro _; extract_lets +onlyGivenNames u1
    have ku1 : Keeps lk st s0 u1.1 := by
      unfold u1; apply State.hostRead_keeps; assumption
    clear_value u1
    apply State.answers_keeps; assumption

theorem State.ringBell_keeps (h : Keeps lk False s0 s) (y1 : Who) (y2 : ℕ) (y3 : ℕ) (y4 : ℕ) :
    Keeps lk False s0 (State.ringBell s y1 y2 y3 y4) := by
  unfold State.ringBell
  extract_lets +onlyGivenNames u1
  clear_value u1
  refine keeps_ite (fun _ => ?_) (fun _ => ?_)
  · refine keeps_ite (fun _ => ?_) (fun _ => ?_)
    · apply State.answers_keeps; assumption
    · apply State.answers_keeps; apply State.doorbell_keeps; assumption
  · extract_lets +onlyGivenNames u1
    have ku1 : Keeps lk False s0 u1.1 := by
      unfold u1; apply State.doorbellPut_keeps; assumption
    clear_value u1
    apply State.answers_keeps; assumption

theorem execSqTailDb_keeps (h : Keeps lk False s0 s) (y0 : Who) (y1 : Fin 32) (y2 : Fin 8) (y3 : BitVec 32) (e : (execSqTailDb y0 y1 y2 y3 s) = .next t) :
    Keeps lk False s0 t := by
  unfold execSqTailDb at e
  refine keeps_next ?_ e
  apply State.ringBell_keeps; assumption

theorem execCqHeadDb_keeps (h : Keeps lk False s0 s) (y0 : Who) (y1 : Fin 32) (y2 : Fin 8) (y3 : BitVec 32) (e : (execCqHeadDb y0 y1 y2 y3 s) = .next t) :
    Keeps lk False s0 t := by
  unfold execCqHeadDb at e
  refine keeps_next ?_ e
  apply State.ringBell_keeps; assumption

theorem execSqEnable_keeps (h : Keeps lk False s0 s) (y0 : Who) (y1 : Fin 32) (y2 : Fin 8) (y3 : BitVec 32) (e : (execSqEnable y0 y1 y2 y3 s) = .next t) :
    Keeps lk False s0 t := by
  unfold execSqEnable at e
  refine keeps_next ?_ e
  apply State.writeReg_keeps; assumption

theorem execSqStop_keeps (h : Keeps lk False s0 s) (y0 : Who) (y1 : Fin 32) (y2 : Fin 8) (y3 : BitVec 32) (e : (execSqStop y0 y1 y2 y3 s) = .next t) :
    Keeps lk False s0 t := by
  unfold execSqStop at e
  refine keeps_next ?_ e
  apply State.writeReg_keeps; assumption

theorem execSqResume_keeps (h : Keeps lk False s0 s) (y0 : Who) (y1 : Fin 32) (y2 : Fin 8) (y3 : BitVec 32) (e : (execSqResume y0 y1 y2 y3 s) = .next t) :
    Keeps lk False s0 t := by
  unfold execSqResume at e
  refine keeps_next ?_ e
  apply State.writeReg_keeps; assumption

theorem execCqEnable_keeps (h : Keeps lk False s0 s) (y0 : Who) (y1 : Fin 32) (y2 : Fin 8) (y3 : BitVec 32) (e : (execCqEnable y0 y1 y2 y3 s) = .next t) :
    Keeps lk False s0 t := by
  unfold execCqEnable at e
  refine keeps_next ?_ e
  apply State.writeReg_keeps; assumption

theorem execDescriptorFetch_keeps (h : Keeps lk st s0 s) (y0 : Fin 32) (y1 : Fin 8) (y2 : ℕ) (y3 : List Reply) (e : (execDescriptorFetch y0 y1 y2 y3 s) = .next t) :
    Keeps lk st s0 t := by
  unfold execDescriptorFetch at e
  refine keeps_next ?_ e
  apply State.withReplies_keeps
  · assumption
  · intro _; intro _; apply State.descFetch_keeps; assumption

theorem State.descDo_keeps (h : Keeps lk st s0 s) (y1 : ℕ) (y2 : ℕ) (y3 : ℕ) (y4 : State → Desc → State × Status × ℕ) (hf4 : ∀ s z1, Keeps lk st s0 s → Keeps lk st s0 (y4 s z1).1) :
    Keeps lk st s0 (State.descDo s y1 y2 y3 y4) := by
  unfold State.descDo; dsimp only
  split
  · refine keeps_ite (fun _ => ?_) (fun _ => ?_)
    · assumption
    · apply State.descRun_keeps
      · assumption
      · intro _; intro _; intro _; intro _; apply State.descEnd_keeps; apply hf4; assumption
  · apply State.descRun_keeps
    · assumption
    · intro _; intro _; intro _; intro _; assumption

theorem execDescriptorNop_keeps (h : Keeps lk st s0 s) (y0 : Fin 32) (y1 : Fin 8) (e : (execDescriptorNop y0 y1 s) = .next t) :
    Keeps lk st s0 t := by
  unfold execDescriptorNop at e
  refine keeps_next ?_ e
  apply State.descDo_keeps
  · assumption
  · intro _; intro _; intro _; dsimp only; assumption

theorem State.descTransfer_keeps (h : Keeps lk False s0 s) (y1 y2 y3 : Nat) (y4 : Desc) :
    Keeps lk False s0 (State.descTransfer s y1 y2 y3 y4).1 := by
  unfold State.descTransfer
  extract_lets r
  exact State.sqHostWrote_keeps (transferBlk_keeps h _ _ _ _ _) _ _ _

theorem execDescriptorCopy_keeps (h : Keeps lk False s0 s) (y0 : Fin 32) (y1 : Fin 8) (y2 : List Reply) (e : (execDescriptorCopy y0 y1 y2 s) = .next t) :
    Keeps lk False s0 t := by
  unfold execDescriptorCopy at e
  refine keeps_next ?_ e
  apply State.withReplies_keeps
  · assumption
  · intro _; intro _; apply State.descDo_keeps
    · assumption
    · intro _; intro _; intro _; apply State.descTransfer_keeps; assumption

theorem execDescriptorFill_keeps (h : Keeps lk False s0 s) (y0 : Fin 32) (y1 : Fin 8) (y2 : List Reply) (e : (execDescriptorFill y0 y1 y2 s) = .next t) :
    Keeps lk False s0 t := by
  unfold execDescriptorFill at e
  refine keeps_next ?_ e
  apply State.withReplies_keeps
  · assumption
  · intro _; intro _; apply State.descDo_keeps
    · assumption
    · intro _; intro _; intro _; apply State.descTransfer_keeps; assumption

theorem execDescriptorPost_keeps (h : Keeps lk st s0 s) (y0 : Fin 32) (y1 : Fin 8) (e : (execDescriptorPost y0 y1 s) = .next t) :
    Keeps lk st s0 t := by
  unfold execDescriptorPost at e
  refine keeps_next ?_ e
  apply State.descRun_keeps
  · assumption
  · intro _; intro _; intro _; intro _; apply State.descPost_keeps; assumption

theorem execDescriptorWait_keeps (h : Keeps lk st s0 s) (y0 : Fin 32) (y1 : Fin 8) (y2 : List Reply) (e : (execDescriptorWait y0 y1 y2 s) = .next t) :
    Keeps lk st s0 t := by
  unfold execDescriptorWait at e
  refine keeps_next ?_ e
  apply State.withReplies_keeps
  · assumption
  · intro _; intro _; apply State.descRun_keeps
    · assumption
    · intro _; intro _; intro _; intro _; apply State.waitRead_keeps; assumption

theorem execWaitPoll_keeps (h : Keeps lk st s0 s) (y0 : Fin 32) (y1 : Fin 8) (y2 : List Reply) (e : (execWaitPoll y0 y1 y2 s) = .next t) :
    Keeps lk st s0 t := by
  unfold execWaitPoll at e
  refine keeps_next ?_ e
  apply State.withReplies_keeps
  · assumption
  · intro _; intro _; apply State.waitPoll_keeps; assumption

theorem execDescriptorWaitTimeout_keeps (h : Keeps lk st s0 s) (y0 : Fin 32) (y1 : Fin 8) (e : (execDescriptorWaitTimeout y0 y1 s) = .next t) :
    Keeps lk st s0 t := by
  unfold execDescriptorWaitTimeout at e
  refine keeps_next ?_ e
  apply State.waitTimeout_keeps; assumption

theorem State.descSignal_keeps (h : Keeps lk False s0 s) (y1 : ℕ) (y2 : ℕ) (y3 : Desc) :
    Keeps lk False s0 (State.descSignal s y1 y2 y3).1 := by
  unfold State.descSignal
  extract_lets +onlyGivenNames u1
  have ku1 : Keeps lk False s0 u1.1 := by
    unfold u1; apply State.gaWrite_keeps; assumption
  clear_value u1
  dsimp only; apply State.sqHostWrote_keeps; assumption

theorem execDescriptorSignal_keeps (h : Keeps lk False s0 s) (y0 : Fin 32) (y1 : Fin 8) (y2 : List Reply) (e : (execDescriptorSignal y0 y1 y2 s) = .next t) :
    Keeps lk False s0 t := by
  unfold execDescriptorSignal at e
  refine keeps_next ?_ e
  apply State.withReplies_keeps
  · assumption
  · intro _; intro _; apply State.descDo_keeps
    · assumption
    · intro _; intro _; intro _; apply State.descSignal_keeps; assumption

theorem execRegwr_keeps (h : Keeps lk False s0 s) (y0 : Fin 32) (y1 : Fin 8) (y2 : List Reply) (e : (execRegwr y0 y1 y2 s) = .next t) :
    Keeps lk False s0 t := by
  unfold execRegwr at e
  refine keeps_next ?_ e
  apply State.withReplies_keeps
  · assumption
  · intro _; intro _; apply State.descDo_keeps
    · assumption
    · intro _; intro _; intro _; extract_lets +onlyGivenNames u1
      have ku1 : Keeps lk False s0 u1.1 := by
        unfold u1; apply State.gaWrite_keeps; assumption
      clear_value u1
      dsimp only; assumption

theorem execRegrd_keeps (h : Keeps lk st s0 s) (y0 : Fin 32) (y1 : Fin 8) (y2 : List Reply) (e : (execRegrd y0 y1 y2 s) = .next t) :
    Keeps lk st s0 t := by
  unfold execRegrd at e
  refine keeps_next ?_ e
  apply State.withReplies_keeps
  · assumption
  · intro _; intro _; apply State.descDo_keeps
    · assumption
    · intro _; intro _; intro _; extract_lets +onlyGivenNames u1
      have ku1 : Keeps lk st s0 u1.1 := by
        unfold u1; apply State.gaRead_keeps; assumption
      clear_value u1
      dsimp only; assumption

theorem execTstamp_keeps (h : Keeps lk st s0 s) (y0 : Fin 32) (y1 : Fin 8) (e : (execTstamp y0 y1 s) = .next t) :
    Keeps lk st s0 t := by
  unfold execTstamp at e
  refine keeps_next ?_ e
  apply State.descDo_keeps
  · assumption
  · intro _; intro _; intro _; dsimp only; assumption

theorem execDescriptorComplete_keeps (h : Keeps lk False s0 s) (y0 : Fin 32) (y1 : Fin 8) (y2 : Fin 65536) (e : (execDescriptorComplete y0 y1 y2 s) = .next t) :
    Keeps lk False s0 t := by
  unfold execDescriptorComplete at e
  refine keeps_next ?_ e
  apply State.descComplete_keeps; assumption

theorem execCqTimerExpiry_keeps (h : Keeps lk st s0 s) (y0 : Fin 32) (y1 : Fin 8) (e : (execCqTimerExpiry y0 y1 s) = .next t) :
    Keeps lk st s0 t := by
  unfold execCqTimerExpiry at e
  refine keeps_next ?_ e
  apply State.cqTimer_keeps; assumption

end Sys2Proof.Machine
end

