-- ==== Sys2Proof/Laws/Keeps/Lifecycle.lean ====
section
/-! SUPPORT. What the operations of Machine/Lifecycle.lean keep. -/

set_option linter.all false

namespace Sys2Proof.Machine

variable {lk st : Prop} {s0 s t : State}

theorem State.ulWrite_keeps (h : Keeps lk False s0 s) (y1 : Who) (y2 : ℕ) (y3 : BitVec 32) :
    Keeps lk False s0 (State.ulWrite s y1 y2 y3) := by
  unfold State.ulWrite
  apply State.writeReg_keeps; assumption

theorem execDrain_keeps (h : Keeps lk False s0 s) (y0 : Who) (y1 : BitVec 32) (e : (execDrain y0 y1 s) = .next t) :
    Keeps lk False s0 t := by
  unfold execDrain at e
  refine keeps_next ?_ e
  apply State.ulWrite_keeps; assumption

theorem execDrainRetryWindowEnd_keeps (h : Keeps lk st s0 s) (y0 : Fin 128) (e : (execDrainRetryWindowEnd y0 s) = .next t) :
    Keeps lk st s0 t := by
  unfold execDrainRetryWindowEnd at e
  refine keeps_next ?_ e
  apply State.retryWindowEnd_keeps; assumption

theorem execDrainComplete_keeps (h : Keeps lk st s0 s) (y0 : Fin 128) (e : (execDrainComplete y0 s) = .next t) :
    Keeps lk st s0 t := by
  unfold execDrainComplete at e
  refine keeps_next ?_ e
  apply State.drainComplete_keeps; assumption

theorem execDrainTimeout_keeps (h : Keeps lk st s0 s) (y0 : Fin 128) (e : (execDrainTimeout y0 s) = .next t) :
    Keeps lk st s0 t := by
  unfold execDrainTimeout at e
  refine keeps_next ?_ e
  apply State.drainTimeout_keeps; assumption

theorem execBist_keeps (h : Keeps lk False s0 s) (y0 : Who) (y1 : BitVec 32) (e : (execBist y0 y1 s) = .next t) :
    Keeps lk False s0 t := by
  unfold execBist at e
  refine keeps_next ?_ e
  apply State.ulWrite_keeps; assumption

theorem execBistComplete_keeps (h : Keeps lk False s0 s) (y0 : Fin 128) (y1 : Bool) (e : (execBistComplete y0 y1 s) = .next t) :
    Keeps lk False s0 t := by
  unfold execBistComplete at e
  refine keeps_next ?_ e
  apply State.bistComplete_keeps; assumption

theorem execAdmitUnit_keeps (h : Keeps lk False s0 s) (y0 : Who) (y1 : BitVec 32) (e : (execAdmitUnit y0 y1 s) = .next t) :
    Keeps lk False s0 t := by
  unfold execAdmitUnit at e
  refine keeps_next ?_ e
  apply State.ulWrite_keeps; assumption

theorem execAdmittingEnd_keeps (h : Keeps lk st s0 s) (y0 : Fin 128) (e : (execAdmittingEnd y0 s) = .next t) :
    Keeps lk st s0 t := by
  unfold execAdmittingEnd at e
  refine keeps_next ?_ e
  apply State.admittingEnd_keeps; assumption

end Sys2Proof.Machine
end

