-- ==== Sys2Proof/Laws/Keeps/Light.lean ====
section
/-! SUPPORT. What the operations of Machine/Light.lean keep. -/

set_option linter.all false

namespace Sys2Proof.Machine

variable {lk st : Prop} {s0 s t : State}

theorem execLlEnable_keeps (h : Keeps lk False s0 s) (y0 : Who) (y1 : Fin 4) (y2 : BitVec 32) (e : (execLlEnable y0 y1 y2 s) = .next t) :
    Keeps lk False s0 t := by
  unfold execLlEnable at e
  refine keeps_next ?_ e
  apply State.writeReg_keeps; assumption

theorem execStartIdleEnd_keeps (h : Keeps lk st s0 s) (y0 : Fin 4) (e : (execStartIdleEnd y0 s) = .next t) :
    Keeps lk st s0 t := by
  unfold execStartIdleEnd at e
  refine keeps_next ?_ e
  apply State.startIdleEnd_keeps; assumption

theorem execReadResponse_keeps (h : Keeps lk st s0 s) (y0 : Fin 4) (y1 : List (Fin 65536)) (y2 : Fin 256) (e : (execReadResponse y0 y1 y2 s) = .next t) :
    Keeps lk st s0 t := by
  unfold execReadResponse at e
  refine keeps_next ?_ e
  apply State.readResponse_keeps; assumption

theorem execUpdateInstant_keeps (h : Keeps lk False s0 s) (y0 : Fin 4) (e : (execUpdateInstant y0 s) = .next t) :
    Keeps lk False s0 t := by
  unfold execUpdateInstant at e
  refine keeps_next ?_ e
  apply State.updateInstant_keeps; assumption

theorem execRefreshComplete_keeps (h : Keeps lk st s0 s) (y0 : Fin 4) (e : (execRefreshComplete y0 s) = .next t) :
    Keeps lk st s0 t := by
  unfold execRefreshComplete at e
  refine keeps_next ?_ e
  apply State.refreshComplete_keeps; assumption

theorem execScanSlotStart_keeps (h : Keeps lk False s0 s) (y0 : Fin 4) (e : (execScanSlotStart y0 s) = .next t) :
    Keeps lk False s0 t := by
  unfold execScanSlotStart at e
  refine keeps_next ?_ e
  apply State.scanSlot_keeps; assumption

theorem execScanBlankEnd_keeps (h : Keeps lk st s0 s) (y0 : Fin 4) (e : (execScanBlankEnd y0 s) = .next t) :
    Keeps lk st s0 t := by
  unfold execScanBlankEnd at e
  refine keeps_next ?_ e
  apply State.scanBlankEnd_keeps; assumption

theorem execLlCntClr_keeps (h : Keeps lk False s0 s) (y0 : Who) (y1 : BitVec 32) (e : (execLlCntClr y0 y1 s) = .next t) :
    Keeps lk False s0 t := by
  unfold execLlCntClr at e
  refine keeps_next ?_ e
  apply State.writeReg_keeps; assumption

end Sys2Proof.Machine
end

