-- ==== Sys2Proof/Laws/Keeps/Loops.lean ====
section
/-! SUPPORT. What the operations of Machine/Loops.lean keep. -/

set_option linter.all false

namespace Sys2Proof.Machine

variable {lk st : Prop} {s0 s t : State}

theorem execSetpointUpdate_keeps (h : Keeps lk st s0 s) (y0 : Fin 64) (e : (execSetpointUpdate y0 s) = .next t) :
    Keeps lk st s0 t := by
  unfold execSetpointUpdate at e
  refine keeps_next ?_ e
  apply State.spUpdate_keeps; assumption

theorem execSpEnable_keeps (h : Keeps lk False s0 s) (y0 : Who) (y1 : Fin 64) (y2 : BitVec 32) (e : (execSpEnable y0 y1 y2 s) = .next t) :
    Keeps lk False s0 t := by
  unfold execSpEnable at e
  refine keeps_next ?_ e
  apply State.writeReg_keeps; assumption

theorem execSpHost_keeps (h : Keeps lk False s0 s) (y0 : Who) (y1 : Fin 64) (y2 : BitVec 32) (e : (execSpHost y0 y1 y2 s) = .next t) :
    Keeps lk False s0 t := by
  unfold execSpHost at e
  refine keeps_next ?_ e
  apply State.writeReg_keeps; assumption

theorem execInjectionGo_keeps (h : Keeps lk False s0 s) (y0 : Who) (y1 : Fin 8) (y2 : BitVec 32) (e : (execInjectionGo y0 y1 y2 s) = .next t) :
    Keeps lk False s0 t := by
  unfold execInjectionGo at e
  refine keeps_next ?_ e
  apply State.writeReg_keeps; assumption

theorem execInjectionStop_keeps (h : Keeps lk False s0 s) (y0 : Who) (y1 : Fin 8) (y2 : BitVec 32) (e : (execInjectionStop y0 y1 y2 s) = .next t) :
    Keeps lk False s0 t := by
  unfold execInjectionStop at e
  refine keeps_next ?_ e
  apply State.writeReg_keeps; assumption

theorem execInjectionAbort_keeps (h : Keeps lk False s0 s) (y0 : Who) (y1 : Fin 8) (y2 : BitVec 32) (e : (execInjectionAbort y0 y1 y2 s) = .next t) :
    Keeps lk False s0 t := by
  unfold execInjectionAbort at e
  refine keeps_next ?_ e
  apply State.writeReg_keeps; assumption

theorem execPermitWrite_keeps (h : Keeps lk False s0 s) (y0 : Who) (y1 : BitVec 32) (e : (execPermitWrite y0 y1 s) = .next t) :
    Keeps lk False s0 t := by
  unfold execPermitWrite at e
  refine keeps_next ?_ e
  apply State.writeReg_keeps; assumption

theorem execCaptureEnable_keeps (h : Keeps lk False s0 s) (y0 : Who) (y1 : Fin 8) (y2 : BitVec 32) (e : (execCaptureEnable y0 y1 y2 s) = .next t) :
    Keeps lk False s0 t := by
  unfold execCaptureEnable at e
  refine keeps_next ?_ e
  apply State.writeReg_keeps; assumption

theorem execCaptureWriteComplete_keeps (h : Keeps lk False s0 s) (y0 : Fin 8) (e : (execCaptureWriteComplete y0 s) = .next t) :
    Keeps lk False s0 t := by
  unfold execCaptureWriteComplete at e
  refine keeps_next ?_ e
  apply State.capComplete_keeps; assumption

end Sys2Proof.Machine
end

