-- ==== Sys2Proof/Laws/Keeps/Memory.lean ====
section
/-! SUPPORT. What the operations of Machine/Memory.lean keep. -/

set_option linter.all false

namespace Sys2Proof.Machine

variable {lk st : Prop} {s0 s t : State}

theorem State.setResv_keeps (h : Keeps lk st s0 s) (y1 : ℕ) (y2 : ℕ) :
    Keeps lk st s0 (State.setResv s y1 y2) := by
  unfold State.setResv
  refine keeps_mk ?_ (by simp [shape_modAt]); assumption

theorem State.sendOut_keeps (h : Keeps lk st s0 s) (y1 : Who) (y2 : ℕ) (y3 : ℕ) (y4 : Bool) (y5 : ℕ) (y6 : List Byte) :
    Keeps lk st s0 (State.sendOut s y1 y2 y3 y4 y5 y6) := by
  unfold State.sendOut
  split
  · apply State.answers_keeps; refine keeps_fst (by assumption) ?_; apply State.remoteSend_keeps; assumption
  · refine keeps_mk ?_ rfl; refine keeps_fst (by assumption) ?_; apply State.remoteSend_keeps; assumption

theorem State.memoryRead_keeps (h : Keeps lk st s0 s) (y1 : Who) (y2 : ℕ) (y3 : Option (Fin 256)) (y4 : ℕ) (y5 : ℕ) :
    Keeps lk st s0 (State.memoryRead s y1 y2 y3 y4 y5) := by
  unfold State.memoryRead
  extract_lets +onlyGivenNames u1
  clear_value u1
  refine keeps_ite (fun _ => ?_) (fun _ => ?_)
  · extract_lets +onlyGivenNames u2
    clear_value u2
    refine keeps_ite (fun _ => ?_) (fun _ => ?_)
    · extract_lets +onlyGivenNames u1
      have ku1 : Keeps lk st s0 u1.1 := by
        unfold u1; apply State.busRead_keeps; assumption
      clear_value u1
      apply State.answers_keeps; assumption
    · refine keeps_ite (fun _ => ?_) (fun _ => ?_)
      · apply State.answers_keeps; assumption
      · extract_lets +onlyGivenNames u1
        clear_value u1
        apply State.answers_keeps; assumption
  · refine keeps_ite (fun _ => ?_) (fun _ => ?_)
    · apply State.answers_keeps; apply State.mapError_keeps; assumption
    · refine keeps_ite (fun _ => ?_) (fun _ => ?_)
      · extract_lets +onlyGivenNames u1
        have ku1 : Keeps lk st s0 u1.1 := by
          unfold u1; refine keeps_ite1 (fun _ => ?_) (fun _ => ?_)
          · apply State.hostRead_keeps; assumption
          · apply State.busRead_keeps; assumption
        clear_value u1
        apply State.answers_keeps; assumption
      · apply State.sendOut_keeps; assumption

theorem execMemoryRead_keeps (h : Keeps lk st s0 s) (y0 : Who) (y1 : Fin 256) (y2 : Option (Fin 256)) (y3 : BitVec 64) (y4 : ℕ) (y5 : List Reply) (e : (execMemoryRead y0 y1 y2 y3 y4 y5 s) = .next t) :
    Keeps lk st s0 t := by
  unfold execMemoryRead at e
  refine keeps_next ?_ e
  apply State.withReplies_keeps
  · assumption
  · intro _; intro _; apply State.memoryRead_keeps; assumption

theorem State.memoryWrite_keeps (h : Keeps lk False s0 s) (y1 : Who) (y2 : ℕ) (y3 : Option (Fin 256)) (y4 : ℕ) (y5 : List Byte) :
    Keeps lk False s0 (State.memoryWrite s y1 y2 y3 y4 y5) := by
  unfold State.memoryWrite
  extract_lets +onlyGivenNames u1
  clear_value u1
  refine keeps_ite (fun _ => ?_) (fun _ => ?_)
  · refine keeps_ite (fun _ => ?_) (fun _ => ?_)
    · extract_lets +onlyGivenNames u1
      have ku1 : Keeps lk False s0 u1.1 := by
        unfold u1; apply State.busWrite_keeps; assumption
      clear_value u1
      apply State.answers_keeps; assumption
    · refine keeps_ite (fun _ => ?_) (fun _ => ?_)
      · apply State.answers_keeps; assumption
      · apply State.answers_keeps; apply State.doorbell_keeps; assumption
  · refine keeps_ite (fun _ => ?_) (fun _ => ?_)
    · apply State.answers_keeps; apply State.mapError_keeps; assumption
    · refine keeps_ite (fun _ => ?_) (fun _ => ?_)
      · refine keeps_ite (fun _ => ?_) (fun _ => ?_)
        · extract_lets +onlyGivenNames u3
          have ku3 : Keeps lk False s0 u3.1 := by
            unfold u3; apply State.hostWrite_keeps; assumption
          clear_value u3
          apply State.answers_keeps; assumption
        · extract_lets +onlyGivenNames u3 u4
          have ku3 : Keeps lk False s0 u3.1 := by
            unfold u3; apply State.busWrite_keeps; assumption
          clear_value u3
          have ku4 : Keeps lk False s0 u4 := by
            unfold u4; assumption
          clear_value u4
          refine keeps_mk ?_ rfl; assumption
      · apply State.sendOut_keeps; assumption

theorem execMemoryWrite_keeps (h : Keeps lk False s0 s) (y0 : Who) (y1 : Fin 256) (y2 : Option (Fin 256)) (y3 : BitVec 64) (y4 : List Byte) (e : (execMemoryWrite y0 y1 y2 y3 y4 s) = .next t) :
    Keeps lk False s0 t := by
  unfold execMemoryWrite at e
  refine keeps_next ?_ e
  apply State.memoryWrite_keeps; assumption

theorem State.writeAck_keeps (h : Keeps lk st s0 s) (y1 : ℕ) :
    Keeps lk st s0 (State.writeAck s y1) := by
  unfold State.writeAck
  split
  · assumption
  · apply State.tokFlush_keeps; apply State.answers_keeps; refine keeps_mk ?_ rfl; assumption

theorem execWriteAcknowledgement_keeps (h : Keeps lk st s0 s) (y0 : Fin 64) (e : (execWriteAcknowledgement y0 s) = .next t) :
    Keeps lk st s0 t := by
  unfold execWriteAcknowledgement at e
  refine keeps_next ?_ e
  apply State.writeAck_keeps; assumption

theorem execZeroLengthReadComplete_keeps (h : Keeps lk st s0 s) (y0 : Fin 32) (e : (execZeroLengthReadComplete y0 s) = .next t) :
    Keeps lk st s0 t := by
  unfold execZeroLengthReadComplete at e
  refine keeps_next ?_ e
  apply State.zeroReadDone_keeps; assumption

theorem State.writeBack_keeps (h : Keeps lk st s0 s) (y1 : ℕ) :
    Keeps lk st s0 (State.writeBack s y1) := by
  unfold State.writeBack
  refine keeps_ite (fun _ => ?_) (fun _ => ?_)
  · refine keeps_mk ?_ rfl; assumption
  · assumption

theorem execEccWriteBack_keeps (h : Keeps lk st s0 s) (y0 : BitVec 48) (e : (execEccWriteBack y0 s) = .next t) :
    Keeps lk st s0 t := by
  unfold execEccWriteBack at e
  refine keeps_next ?_ e
  apply State.writeBack_keeps; assumption

theorem State.scrubLine_keeps (h : Keeps lk st s0 s) (y1 : ℕ) (y2 : Bool) :
    Keeps lk st s0 (State.scrubLine s y1 y2) := by
  unfold State.scrubLine
  split
  extract_lets +onlyGivenNames u1 u2
  clear_value u1
  have ku2 : Keeps lk st s0 u2 := by
    unfold u2; refine keeps_mk ?_ rfl; assumption
  clear_value u2
  refine keeps_ite (fun _ => ?_) (fun _ => ?_)
  · assumption
  · apply State.readWords_keeps; assumption

theorem State.scrubAll_keeps (h : Keeps lk st s0 s) (y1 : List ℕ) :
    Keeps lk st s0 (State.scrubAll s y1) := by
  unfold State.scrubAll
  refine keeps_ite (fun _ => ?_) (fun _ => ?_)
  · refine keeps_foldl _ _ (fun _ _ _ => ?_) ?_
    · apply State.scrubLine_keeps; assumption
    · assumption
  · assumption

theorem execScrubRead_keeps (h : Keeps lk st s0 s) (y0 : List (Fin 128)) (e : (execScrubRead y0 s) = .next t) :
    Keeps lk st s0 t := by
  unfold execScrubRead at e
  refine keeps_next ?_ e
  apply State.scrubAll_keeps; assumption

theorem State.accessFault_keeps (h : Keeps lk st s0 s) :
    Keeps lk st s0 (State.accessFault s) := by
  unfold State.accessFault
  refine keeps_mk ?_ rfl; assumption

theorem State.amoBank_keeps (h : Keeps lk False s0 s) (y1 : ℕ) (y2 : Who) (y3 : AmoOp) (y4 : ℕ) (y5 : ℕ) (y6 : ℕ) (y7 : ℕ) :
    Keeps lk False s0 (State.amoBank s y1 y2 y3 y4 y5 y6 y7) := by
  unfold State.amoBank
  extract_lets +onlyGivenNames u1 u2
  clear_value u1
  have ku2 : Keeps lk False s0 u2 := by
    unfold u2; apply State.setResv_keeps; assumption
  clear_value u2
  refine keeps_ite (fun _ => ?_) (fun _ => ?_)
  · refine keeps_ite (fun _ => ?_) (fun _ => ?_)
    · extract_lets +onlyGivenNames u5
      have ku5 : Keeps lk False s0 u5.1 := by
        unfold u5; apply State.writeMem_keeps; assumption
      clear_value u5
      apply State.answers_keeps; assumption
    · apply State.answers_keeps; assumption
  · extract_lets +onlyGivenNames u1
    have ku1 : Keeps lk False s0 u1.1 := by
      unfold u1; apply State.readMem_keeps; assumption
    clear_value u1
    refine keeps_ite (fun _ => ?_) (fun _ => ?_)
    · apply State.answers_keeps; assumption
    · extract_lets +onlyGivenNames u1
      clear_value u1
      refine keeps_ite (fun _ => ?_) (fun _ => ?_)
      · apply State.answers_keeps; apply State.setResv_keeps; assumption
      · extract_lets +onlyGivenNames u1
        have ku1 : Keeps lk False s0 u1.1 := by
          unfold u1; apply State.writeMem_keeps; assumption
        clear_value u1
        apply State.answers_keeps; assumption

theorem State.amo_keeps (h : Keeps lk False s0 s) (y1 : ℕ) (y2 : AmoOp) (y3 : ℕ) (y4 : ℕ) (y5 : ℕ) :
    Keeps lk False s0 (State.amo s y1 y2 y3 y4 y5) := by
  unfold State.amo
  extract_lets +onlyGivenNames u1 u2
  clear_value u1 u2
  split
  · refine keeps_ite (fun _ => ?_) (fun _ => ?_)
    · apply State.accessFault_keeps; assumption
    · extract_lets +onlyGivenNames u1
      have ku1 : Keeps lk False s0 u1.1 := by
        unfold u1; refine keeps_ite1 (fun _ => ?_) (fun _ => ?_)
        · dsimp only; assumption
        · apply State.memAdmit_keeps; assumption
      clear_value u1
      refine keeps_ite (fun _ => ?_) (fun _ => ?_)
      · apply State.answers_keeps; assumption
      · extract_lets +onlyGivenNames u2
        have ku2 : Keeps lk False s0 u2.1 := by
          unfold u2; refine keeps_ite1 (fun _ => ?_) (fun _ => ?_)
          · assumption
          · apply State.memAdmit_keeps; assumption
        clear_value u2
        refine keeps_ite (fun _ => ?_) (fun _ => ?_)
        · apply State.answers_keeps; assumption
        · apply State.amoBank_keeps; assumption
  · apply State.accessFault_keeps; assumption

theorem execAmo_keeps (h : Keeps lk False s0 s) (y0 : Fin 4) (y1 : AmoOp) (y2 : BitVec 64) (y3 : Bool) (y4 : BitVec 64) (e : (execAmo y0 y1 y2 y3 y4 s) = .next t) :
    Keeps lk False s0 t := by
  unfold execAmo at e
  refine keeps_next ?_ e
  apply State.amo_keeps; assumption

theorem execMemZeroGo_keeps (h : Keeps lk False s0 s) (y0 : Who) (y1 : BitVec 32) (e : (execMemZeroGo y0 y1 s) = .next t) :
    Keeps lk False s0 t := by
  unfold execMemZeroGo at e
  refine keeps_next ?_ e
  apply State.writeReg_keeps; assumption

theorem execZeroingDone_keeps (h : Keeps lk False s0 s) (e : (execZeroingDone s) = .next t) :
    Keeps lk False s0 t := by
  unfold execZeroingDone at e
  refine keeps_next ?_ e
  apply State.zeroingDone_keeps; assumption

theorem execMemCntClr_keeps (h : Keeps lk False s0 s) (y0 : Who) (y1 : BitVec 32) (e : (execMemCntClr y0 y1 s) = .next t) :
    Keeps lk False s0 t := by
  unfold execMemCntClr at e
  refine keeps_next ?_ e
  apply State.writeReg_keeps; assumption

theorem execCopy_keeps (h : Keeps lk False s0 s) (y0 : Fin 128) (y1 : Fin 16) (y2 : List Reply) (e : (execCopy y0 y1 y2 s) = .next t) :
    Keeps lk False s0 t := by
  unfold execCopy at e
  refine keeps_next ?_ e
  refine keeps_ite (fun _ => ?_) (fun _ => ?_)
  · apply State.withReplies_keeps
    · assumption
    · intro _; intro _; apply State.copyFill_keeps; assumption
  · assumption

theorem execFill_keeps (h : Keeps lk False s0 s) (y0 : Fin 128) (y1 : Fin 16) (y2 : List Reply) (e : (execFill y0 y1 y2 s) = .next t) :
    Keeps lk False s0 t := by
  unfold execFill at e
  refine keeps_next ?_ e
  refine keeps_ite (fun _ => ?_) (fun _ => ?_)
  · apply State.withReplies_keeps
    · assumption
    · intro _; intro _; apply State.copyFill_keeps; assumption
  · assumption

end Sys2Proof.Machine
end

