-- ==== Sys2Proof/Laws/Keeps/PhaseCut.lean ====
section
/-! SUPPORT. What the operations of Machine/PhaseCut.lean keep. -/

set_option linter.all false

namespace Sys2Proof.Machine

variable {lk st : Prop} {s0 s t : State}

theorem execZeroCrossEdge_keeps (h : Keeps lk st s0 s) (y0 : Fin 2) (y1 : Bool) (e : (execZeroCrossEdge y0 y1 s) = .next t) :
    Keeps lk st s0 t := by
  unfold execZeroCrossEdge at e
  refine keeps_next ?_ e
  apply State.zcEdge_keeps; assumption

theorem execReferenceEnable_keeps (h : Keeps lk False s0 s) (y0 : Who) (y1 : Fin 2) (y2 : BitVec 32) (e : (execReferenceEnable y0 y1 y2 s) = .next t) :
    Keeps lk False s0 t := by
  unfold execReferenceEnable at e
  refine keeps_next ?_ e
  apply State.writeReg_keeps; assumption

theorem execPcEnable_keeps (h : Keeps lk False s0 s) (y0 : Who) (y1 : Fin 8) (y2 : BitVec 32) (e : (execPcEnable y0 y1 y2 s) = .next t) :
    Keeps lk False s0 t := by
  unfold execPcEnable at e
  refine keeps_next ?_ e
  apply State.writeReg_keeps; assumption

theorem execRestart_keeps (h : Keeps lk False s0 s) (y0 : Who) (y1 : Fin 8) (y2 : BitVec 32) (e : (execRestart y0 y1 y2 s) = .next t) :
    Keeps lk False s0 t := by
  unfold execRestart at e
  refine keeps_next ?_ e
  apply State.writeReg_keeps; assumption

theorem execPcClear_keeps (h : Keeps lk False s0 s) (y0 : Who) (y1 : Fin 8) (y2 : BitVec 32) (e : (execPcClear y0 y1 y2 s) = .next t) :
    Keeps lk False s0 t := by
  unfold execPcClear at e
  refine keeps_next ?_ e
  apply State.writeReg_keeps; assumption

theorem execPulseEnd_keeps (h : Keeps lk st s0 s) (y0 : Fin 8) (e : (execPulseEnd y0 s) = .next t) :
    Keeps lk st s0 t := by
  unfold execPulseEnd at e
  refine keeps_next ?_ e
  apply State.pulseEnd_keeps; assumption

theorem execConductionWindowEnd_keeps (h : Keeps lk st s0 s) (y0 : Fin 8) (e : (execConductionWindowEnd y0 s) = .next t) :
    Keeps lk st s0 t := by
  unfold execConductionWindowEnd at e
  refine keeps_next ?_ e
  apply State.windowEnd_keeps; assumption

theorem execRetrigger_keeps (h : Keeps lk st s0 s) (y0 : Fin 8) (e : (execRetrigger y0 s) = .next t) :
    Keeps lk st s0 t := by
  unfold execRetrigger at e
  refine keeps_next ?_ e
  apply State.retrigger_keeps; assumption

theorem execCurrentSignChange_keeps (h : Keeps lk st s0 s) (y0 : Fin 8) (y1 : Bool) (y2 : Bool) (e : (execCurrentSignChange y0 y1 y2 s) = .next t) :
    Keeps lk st s0 t := by
  unfold execCurrentSignChange at e
  refine keeps_next ?_ e
  apply State.pcSign_keeps; assumption

theorem execIsgnBadFault_keeps (h : Keeps lk st s0 s) (y0 : Fin 8) (e : (execIsgnBadFault y0 s) = .next t) :
    Keeps lk st s0 t := by
  unfold execIsgnBadFault at e
  refine keeps_next ?_ e
  apply State.isgnBad_keeps; assumption

end Sys2Proof.Machine
end

