-- ==== Sys2Proof/Laws/Keeps/Raster.lean ====
section
/-! SUPPORT. What the operations of Machine/Raster.lean keep. -/

set_option linter.all false

namespace Sys2Proof.Machine

variable {lk st : Prop} {s0 s t : State}

theorem execFrame_keeps (h : Keeps lk False s0 s) (y0 : Fin 16) (y1 : List Reply) (e : (execFrame y0 y1 s) = .next t) :
    Keeps lk False s0 t := by
  unfold execFrame at e
  refine keeps_next ?_ e
  apply State.withReplies_keeps
  · assumption
  · intro _; intro _; apply State.rasFrameRow_keeps; assumption

theorem execDecomp_keeps (h : Keeps lk False s0 s) (y0 : Fin 16) (y1 : List Reply) (e : (execDecomp y0 y1 s) = .next t) :
    Keeps lk False s0 t := by
  unfold execDecomp at e
  refine keeps_next ?_ e
  apply State.withReplies_keeps
  · assumption
  · intro _; intro _; apply State.rasDecompRow_keeps; assumption

theorem execRasGrow_keeps (h : Keeps lk False s0 s) (y0 : Who) (y1 : BitVec 32) (y2 : List Reply) (e : (execRasGrow y0 y1 y2 s) = .next t) :
    Keeps lk False s0 t := by
  unfold execRasGrow at e
  refine keeps_next ?_ e
  apply State.withReplies_keeps
  · assumption
  · intro _; intro _; apply State.writeReg_keeps; assumption

theorem execGrowTimeout_keeps (h : Keeps lk False s0 s) (y0 : List Reply) (e : (execGrowTimeout y0 s) = .next t) :
    Keeps lk False s0 t := by
  unfold execGrowTimeout at e
  refine keeps_next ?_ e
  apply State.withReplies_keeps
  · assumption
  · intro _; intro _; apply State.rasGrowTimeout_keeps; assumption

theorem execShadeReturn_keeps (h : Keeps lk False s0 s) (y0 : List Reply) (e : (execShadeReturn y0 s) = .next t) :
    Keeps lk False s0 t := by
  unfold execShadeReturn at e
  refine keeps_next ?_ e
  apply State.withReplies_keeps
  · assumption
  · intro _; intro _; apply State.rasShadeReturn_keeps; assumption

theorem execShadeTimeout_keeps (h : Keeps lk False s0 s) (y0 : List Reply) (e : (execShadeTimeout y0 s) = .next t) :
    Keeps lk False s0 t := by
  unfold execShadeTimeout at e
  refine keeps_next ?_ e
  apply State.withReplies_keeps
  · assumption
  · intro _; intro _; apply State.rasShadeTimeout_keeps; assumption

theorem execRasCntClr_keeps (h : Keeps lk False s0 s) (y0 : Who) (y1 : BitVec 32) (e : (execRasCntClr y0 y1 s) = .next t) :
    Keeps lk False s0 t := by
  unfold execRasCntClr at e
  refine keeps_next ?_ e
  apply State.writeReg_keeps; assumption

end Sys2Proof.Machine
end

