-- ==== Sys2Proof/Laws/Keeps/Tile.lean ====
section
/-! SUPPORT. What the operations of Machine/Tile.lean keep. -/

set_option linter.all false

namespace Sys2Proof.Machine

variable {lk st : Prop} {s0 s t : State}

theorem State.vecRow_keeps (h : Keeps lk False s0 s) (y1 : ℕ) (y2 : Fin 64) (y3 : Fin 16) :
    Keeps lk False s0 (State.vecRow s y1 y2 y3) := by
  unfold State.vecRow
  refine keeps_ite (fun _ => ?_) (fun _ => ?_)
  · apply State.vec_keeps; assumption
  · assumption

theorem execMma_keeps (h : Keeps lk False s0 s) (y0 : Fin 64) (y1 : Fin 16) (e : (execMma y0 y1 s) = .next t) :
    Keeps lk False s0 t := by
  unfold execMma at e
  refine keeps_next ?_ e
  refine keeps_ite (fun _ => ?_) (fun _ => ?_)
  · apply State.mma_keeps; assumption
  · assumption

theorem execAdd_keeps (h : Keeps lk False s0 s) (y0 : Fin 64) (y1 : Fin 16) (e : (execAdd y0 y1 s) = .next t) :
    Keeps lk False s0 t := by
  unfold execAdd at e
  refine keeps_next ?_ e
  apply State.vecRow_keeps; assumption

theorem execSub_keeps (h : Keeps lk False s0 s) (y0 : Fin 64) (y1 : Fin 16) (e : (execSub y0 y1 s) = .next t) :
    Keeps lk False s0 t := by
  unfold execSub at e
  refine keeps_next ?_ e
  apply State.vecRow_keeps; assumption

theorem execMul_keeps (h : Keeps lk False s0 s) (y0 : Fin 64) (y1 : Fin 16) (e : (execMul y0 y1 s) = .next t) :
    Keeps lk False s0 t := by
  unfold execMul at e
  refine keeps_next ?_ e
  apply State.vecRow_keeps; assumption

theorem execFma_keeps (h : Keeps lk False s0 s) (y0 : Fin 64) (y1 : Fin 16) (e : (execFma y0 y1 s) = .next t) :
    Keeps lk False s0 t := by
  unfold execFma at e
  refine keeps_next ?_ e
  apply State.vecRow_keeps; assumption

theorem execMax_keeps (h : Keeps lk False s0 s) (y0 : Fin 64) (y1 : Fin 16) (e : (execMax y0 y1 s) = .next t) :
    Keeps lk False s0 t := by
  unfold execMax at e
  refine keeps_next ?_ e
  apply State.vecRow_keeps; assumption

theorem execMin_keeps (h : Keeps lk False s0 s) (y0 : Fin 64) (y1 : Fin 16) (e : (execMin y0 y1 s) = .next t) :
    Keeps lk False s0 t := by
  unfold execMin at e
  refine keeps_next ?_ e
  apply State.vecRow_keeps; assumption

theorem execAbs_keeps (h : Keeps lk False s0 s) (y0 : Fin 64) (y1 : Fin 16) (e : (execAbs y0 y1 s) = .next t) :
    Keeps lk False s0 t := by
  unfold execAbs at e
  refine keeps_next ?_ e
  apply State.vecRow_keeps; assumption

theorem execNeg_keeps (h : Keeps lk False s0 s) (y0 : Fin 64) (y1 : Fin 16) (e : (execNeg y0 y1 s) = .next t) :
    Keeps lk False s0 t := by
  unfold execNeg at e
  refine keeps_next ?_ e
  apply State.vecRow_keeps; assumption

theorem execCvt_keeps (h : Keeps lk False s0 s) (y0 : Fin 64) (y1 : Fin 16) (e : (execCvt y0 y1 s) = .next t) :
    Keeps lk False s0 t := by
  unfold execCvt at e
  refine keeps_next ?_ e
  apply State.vecRow_keeps; assumption

theorem execRequant_keeps (h : Keeps lk False s0 s) (y0 : Fin 64) (y1 : Fin 16) (e : (execRequant y0 y1 s) = .next t) :
    Keeps lk False s0 t := by
  unfold execRequant at e
  refine keeps_next ?_ e
  apply State.vecRow_keeps; assumption

theorem execCmpgt_keeps (h : Keeps lk False s0 s) (y0 : Fin 64) (y1 : Fin 16) (e : (execCmpgt y0 y1 s) = .next t) :
    Keeps lk False s0 t := by
  unfold execCmpgt at e
  refine keeps_next ?_ e
  apply State.vecRow_keeps; assumption

theorem execCmpeq_keeps (h : Keeps lk False s0 s) (y0 : Fin 64) (y1 : Fin 16) (e : (execCmpeq y0 y1 s) = .next t) :
    Keeps lk False s0 t := by
  unfold execCmpeq at e
  refine keeps_next ?_ e
  apply State.vecRow_keeps; assumption

theorem execSelect_keeps (h : Keeps lk False s0 s) (y0 : Fin 64) (y1 : Fin 16) (e : (execSelect y0 y1 s) = .next t) :
    Keeps lk False s0 t := by
  unfold execSelect at e
  refine keeps_next ?_ e
  apply State.vecRow_keeps; assumption

theorem execRecip_keeps (h : Keeps lk False s0 s) (y0 : Fin 64) (y1 : Fin 16) (e : (execRecip y0 y1 s) = .next t) :
    Keeps lk False s0 t := by
  unfold execRecip at e
  refine keeps_next ?_ e
  apply State.vecRow_keeps; assumption

theorem execRsqrt_keeps (h : Keeps lk False s0 s) (y0 : Fin 64) (y1 : Fin 16) (e : (execRsqrt y0 y1 s) = .next t) :
    Keeps lk False s0 t := by
  unfold execRsqrt at e
  refine keeps_next ?_ e
  apply State.vecRow_keeps; assumption

theorem execExp2_keeps (h : Keeps lk False s0 s) (y0 : Fin 64) (y1 : Fin 16) (e : (execExp2 y0 y1 s) = .next t) :
    Keeps lk False s0 t := by
  unfold execExp2 at e
  refine keeps_next ?_ e
  apply State.vecRow_keeps; assumption

theorem execLog2_keeps (h : Keeps lk False s0 s) (y0 : Fin 64) (y1 : Fin 16) (e : (execLog2 y0 y1 s) = .next t) :
    Keeps lk False s0 t := by
  unfold execLog2 at e
  refine keeps_next ?_ e
  apply State.vecRow_keeps; assumption

theorem execRsum_keeps (h : Keeps lk False s0 s) (y0 : Fin 64) (y1 : Fin 16) (e : (execRsum y0 y1 s) = .next t) :
    Keeps lk False s0 t := by
  unfold execRsum at e
  refine keeps_next ?_ e
  apply State.vecRow_keeps; assumption

theorem execRmax_keeps (h : Keeps lk False s0 s) (y0 : Fin 64) (y1 : Fin 16) (e : (execRmax y0 y1 s) = .next t) :
    Keeps lk False s0 t := by
  unfold execRmax at e
  refine keeps_next ?_ e
  apply State.vecRow_keeps; assumption

theorem execShift_keeps (h : Keeps lk False s0 s) (y0 : Fin 64) (y1 : Fin 16) (e : (execShift y0 y1 s) = .next t) :
    Keeps lk False s0 t := by
  unfold execShift at e
  refine keeps_next ?_ e
  apply State.vecRow_keeps; assumption

theorem execAnd_keeps (h : Keeps lk False s0 s) (y0 : Fin 64) (y1 : Fin 16) (e : (execAnd y0 y1 s) = .next t) :
    Keeps lk False s0 t := by
  unfold execAnd at e
  refine keeps_next ?_ e
  apply State.vecRow_keeps; assumption

theorem execOr_keeps (h : Keeps lk False s0 s) (y0 : Fin 64) (y1 : Fin 16) (e : (execOr y0 y1 s) = .next t) :
    Keeps lk False s0 t := by
  unfold execOr at e
  refine keeps_next ?_ e
  apply State.vecRow_keeps; assumption

theorem execXor_keeps (h : Keeps lk False s0 s) (y0 : Fin 64) (y1 : Fin 16) (e : (execXor y0 y1 s) = .next t) :
    Keeps lk False s0 t := by
  unfold execXor at e
  refine keeps_next ?_ e
  apply State.vecRow_keeps; assumption

theorem execTileCntClr_keeps (h : Keeps lk False s0 s) (y0 : Who) (y1 : Fin 64) (y2 : BitVec 32) (e : (execTileCntClr y0 y1 y2 s) = .next t) :
    Keeps lk False s0 t := by
  unfold execTileCntClr at e
  refine keeps_next ?_ e
  apply State.writeReg_keeps; assumption

end Sys2Proof.Machine
end

