-- ==== Sys2Proof/Laws/Keeps/Selector.lean ====
section
/-! SUPPORT. What the operations of Machine/Selector.lean keep. -/

set_option linter.all false

namespace Sys2Proof.Machine

variable {lk st : Prop} {s0 s t : State}

theorem State.selOp_keeps (h : Keeps lk False s0 s) (y1 : ℕ) (y2 : Fin 64) (y3 : Fin 16) :
    Keeps lk False s0 (State.selOp s y1 y2 y3) := by
  unfold State.selOp
  refine keeps_ite (fun _ => ?_) (fun _ => ?_)
  · apply State.selRow_keeps; assumption
  · assumption

theorem execTopk_keeps (h : Keeps lk False s0 s) (y0 : Fin 64) (y1 : Fin 16) (e : (execTopk y0 y1 s) = .next t) :
    Keeps lk False s0 t := by
  unfold execTopk at e
  refine keeps_next ?_ e
  apply State.selOp_keeps; assumption

theorem execMerge_keeps (h : Keeps lk False s0 s) (y0 : Fin 64) (y1 : Fin 16) (e : (execMerge y0 y1 s) = .next t) :
    Keeps lk False s0 t := by
  unfold execMerge at e
  refine keeps_next ?_ e
  apply State.selOp_keeps; assumption

theorem execArgidx_keeps (h : Keeps lk False s0 s) (y0 : Fin 64) (y1 : Fin 16) (e : (execArgidx y0 y1 s) = .next t) :
    Keeps lk False s0 t := by
  unfold execArgidx at e
  refine keeps_next ?_ e
  apply State.selOp_keeps; assumption

theorem execSelCntClr_keeps (h : Keeps lk False s0 s) (y0 : Who) (y1 : Fin 64) (y2 : BitVec 32) (e : (execSelCntClr y0 y1 y2 s) = .next t) :
    Keeps lk False s0 t := by
  unfold execSelCntClr at e
  refine keeps_next ?_ e
  apply State.writeReg_keeps; assumption

theorem State.pureOp_keeps (h : Keeps lk st s0 s) (y1 : ℕ) (y2 : PurePort) :
    Keeps lk st s0 (State.pureOp s y1 y2).1 := by
  unfold State.pureOp
  split
  · apply State.qmax_keeps; assumption
  · apply State.reedTest_keeps; assumption
  · extract_lets +onlyGivenNames u2
    clear_value u2
    dsimp only; assumption

theorem State.portCommit_keeps (h : Keeps lk st s0 s) (y1 : ℕ) (y2 : Bool) (y3 : Status) (y4 : ℕ) :
    Keeps lk st s0 (State.portCommit s y1 y2 y3 y4) := by
  unfold State.portCommit
  extract_lets +onlyGivenNames u1
  clear_value u1
  apply State.answers_keeps; apply State.setQstat_keeps; assumption

theorem State.purePort_keeps (h : Keeps lk st s0 s) (y1 : ℕ) (y2 : PurePort) :
    Keeps lk st s0 (State.purePort s y1 y2) := by
  unfold State.purePort
  extract_lets +onlyGivenNames u1
  have ku1 : Keeps lk st s0 u1.1 := by
    unfold u1; apply State.pureOp_keeps; assumption
  clear_value u1
  apply State.portCommit_keeps; assumption

theorem State.qtopkPort_keeps (h : Keeps lk False s0 s) (y1 : ℕ) (y2 : ℕ) :
    Keeps lk False s0 (State.qtopkPort s y1 y2) := by
  unfold State.qtopkPort
  extract_lets +onlyGivenNames u1
  have ku1 : Keeps lk False s0 u1.1 := by
    unfold u1; apply State.qtopk_keeps; assumption
  clear_value u1
  refine keeps_ite (fun _ => ?_) (fun _ => ?_)
  · apply State.portCommit_keeps; assumption
  · apply State.portCommit_keeps; apply State.drawn_keeps; assumption

theorem execSelQmax_keeps (h : Keeps lk st s0 s) (y0 : Fin 4) (y1 : BitVec 64) (e : (execSelQmax y0 y1 s) = .next t) :
    Keeps lk st s0 t := by
  unfold execSelQmax at e
  refine keeps_next ?_ e
  apply State.purePort_keeps; assumption

theorem execSelQtopk_keeps (h : Keeps lk False s0 s) (y0 : Fin 4) (y1 : BitVec 64) (e : (execSelQtopk y0 y1 s) = .next t) :
    Keeps lk False s0 t := by
  unfold execSelQtopk at e
  refine keeps_next ?_ e
  apply State.qtopkPort_keeps; assumption

end Sys2Proof.Machine
end

