-- ==== Sys2Proof/Laws/Keeps/Reed.lean ====
section
/-! SUPPORT. What the operations of Machine/Reed.lean keep. -/

set_option linter.all false

namespace Sys2Proof.Machine

variable {lk st : Prop} {s0 s t : State}

theorem execReedTest_keeps (h : Keeps lk st s0 s) (y0 : Fin 4) (y1 : BitVec 64) (y2 : BitVec 64) (e : (execReedTest y0 y1 y2 s) = .next t) :
    Keeps lk st s0 t := by
  unfold execReedTest at e
  refine keeps_next ?_ e
  apply State.purePort_keeps; assumption

theorem execReedRdest_keeps (h : Keeps lk st s0 s) (y0 : Fin 4) (y1 : BitVec 64) (y2 : BitVec 64) (e : (execReedRdest y0 y1 y2 s) = .next t) :
    Keeps lk st s0 t := by
  unfold execReedRdest at e
  refine keeps_next ?_ e
  apply State.purePort_keeps; assumption

theorem execReedWput_keeps (h : Keeps lk False s0 s) (y0 : Fin 4) (y1 : BitVec 64) (y2 : BitVec 64) (e : (execReedWput y0 y1 y2 s) = .next t) :
    Keeps lk False s0 t := by
  unfold execReedWput at e
  refine keeps_next ?_ e
  extract_lets +onlyGivenNames u1
  have ku1 : Keeps lk False s0 u1.1 := by
    unfold u1; apply State.reedWput_keeps; assumption
  clear_value u1
  apply State.portCommit_keeps; assumption

theorem execReedFallbk_keeps (h : Keeps lk st s0 s) (y0 : Fin 4) (y1 : BitVec 64) (e : (execReedFallbk y0 y1 s) = .next t) :
    Keeps lk st s0 t := by
  unfold execReedFallbk at e
  refine keeps_next ?_ e
  extract_lets +onlyGivenNames u1
  have ku1 : Keeps lk st s0 u1.1 := by
    unfold u1; apply State.reedFallbk_keeps; assumption
  clear_value u1
  apply State.portCommit_keeps; assumption

theorem State.tokPost_keeps (h : Keeps lk st s0 s) (y1 : ℕ) (y2 : ℕ) :
    Keeps lk st s0 (State.tokPost s y1 y2) := by
  unfold State.tokPost
  refine keeps_ite (fun _ => ?_) (fun _ => ?_)
  · apply State.portCommit_keeps; assumption
  · extract_lets +onlyGivenNames u1
    clear_value u1
    refine keeps_ite (fun _ => ?_) (fun _ => ?_)
    · refine keeps_mk ?_ (by simp [shape_modAt]); assumption
    · apply State.answers_keeps; apply State.tokPostSend_keeps; assumption

theorem execTokPost_keeps (h : Keeps lk st s0 s) (y0 : Fin 4) (y1 : BitVec 64) (e : (execTokPost y0 y1 s) = .next t) :
    Keeps lk st s0 t := by
  unfold execTokPost at e
  refine keeps_next ?_ e
  apply State.tokPost_keeps; assumption

theorem execPortSquash_keeps (h : Keeps lk st s0 s) (y0 : Fin 4) (y1 : PurePort) (y2 : Bool) (e : (execPortSquash y0 y1 y2 s) = .next t) :
    Keeps lk st s0 t := by
  unfold execPortSquash at e
  refine keeps_next ?_ e
  refine keeps_ite (fun _ => ?_) (fun _ => ?_)
  · extract_lets +onlyGivenNames u1
    have ku1 : Keeps lk st s0 u1 := by
      unfold u1; apply State.pureOp_keeps; assumption
    clear_value u1
    refine keeps_mk ?_ rfl; assumption
  · assumption

theorem State.portTimeout_keeps (h : Keeps lk st s0 s) (y1 : ℕ) (y2 : Bool) :
    Keeps lk st s0 (State.portTimeout s y1 y2) := by
  unfold State.portTimeout
  split
  · refine keeps_ite (fun _ => ?_) (fun _ => ?_)
    · apply State.portCommit_keeps; refine keeps_mk ?_ (by simp [shape_modAt]); assumption
    · assumption
  · apply State.portCommit_keeps; assumption

theorem execPortTimeout_keeps (h : Keeps lk st s0 s) (y0 : Fin 4) (y1 : Bool) (e : (execPortTimeout y0 y1 s) = .next t) :
    Keeps lk st s0 t := by
  unfold execPortTimeout at e
  refine keeps_next ?_ e
  apply State.portTimeout_keeps; assumption

theorem execEval_keeps (h : Keeps lk st s0 s) (y0 : Fin 4) (y1 : Fin 16) (e : (execEval y0 y1 s) = .next t) :
    Keeps lk st s0 t := by
  unfold execEval at e
  refine keeps_next ?_ e
  refine keeps_ite (fun _ => ?_) (fun _ => ?_)
  · apply State.evalRow_keeps; assumption
  · assumption

theorem execSeal_keeps (h : Keeps lk st s0 s) (y0 : Fin 4) (y1 : Fin 16) (e : (execSeal y0 y1 s) = .next t) :
    Keeps lk st s0 t := by
  unfold execSeal at e
  refine keeps_next ?_ e
  refine keeps_ite (fun _ => ?_) (fun _ => ?_)
  · apply State.sealRow_keeps; assumption
  · assumption

theorem execSwap_keeps (h : Keeps lk st s0 s) (y0 : Fin 4) (y1 : Fin 16) (e : (execSwap y0 y1 s) = .next t) :
    Keeps lk st s0 t := by
  unfold execSwap at e
  refine keeps_next ?_ e
  refine keeps_ite (fun _ => ?_) (fun _ => ?_)
  · apply State.swapRow_keeps; assumption
  · assumption

theorem execFree_keeps (h : Keeps lk st s0 s) (y0 : Fin 4) (y1 : Fin 16) (e : (execFree y0 y1 s) = .next t) :
    Keeps lk st s0 t := by
  unfold execFree at e
  refine keeps_next ?_ e
  refine keeps_ite (fun _ => ?_) (fun _ => ?_)
  · apply State.freeRow_keeps; assumption
  · assumption

theorem execReedInstanceEnable_keeps (h : Keeps lk False s0 s) (y0 : Who) (y1 : Fin 48) (y2 : BitVec 32) (e : (execReedInstanceEnable y0 y1 y2 s) = .next t) :
    Keeps lk False s0 t := by
  unfold execReedInstanceEnable at e
  refine keeps_next ?_ e
  apply State.writeReg_keeps; assumption

theorem execSwapNow_keeps (h : Keeps lk False s0 s) (y0 : Who) (y1 : Fin 48) (y2 : BitVec 32) (e : (execSwapNow y0 y1 y2 s) = .next t) :
    Keeps lk False s0 t := by
  unfold execSwapNow at e
  refine keeps_next ?_ e
  apply State.writeReg_keeps; assumption

theorem execReedApprove_keeps (h : Keeps lk False s0 s) (y0 : Who) (y1 : Fin 48) (y2 : BitVec 32) (e : (execReedApprove y0 y1 y2 s) = .next t) :
    Keeps lk False s0 t := by
  unfold execReedApprove at e
  refine keeps_next ?_ e
  apply State.writeReg_keeps; assumption

end Sys2Proof.Machine
end

