-- ==== Sys2Proof/Laws/Keeps/Registers.lean ====
section
/-! SUPPORT. What the operations of Machine/Registers.lean keep. -/

set_option linter.all false

namespace Sys2Proof.Machine

variable {lk st : Prop} {s0 s t : State}

theorem execRegisterWrite_keeps (h : Keeps lk False s0 s) (y0 : Who) (y1 : BitVec 24) (y2 : BitVec 32) (y3 : List Reply) (e : (execRegisterWrite y0 y1 y2 y3 s) = .next t) :
    Keeps lk False s0 t := by
  unfold execRegisterWrite at e
  refine keeps_next ?_ e
  apply State.withReplies_keeps
  · assumption
  · intro _; intro _; apply State.writeReg_keeps; assumption

theorem execSetupLock_keeps (h : Keeps lk False s0 s) (y0 : Who) (e : (execSetupLock y0 s) = .next t) :
    Keeps lk False s0 t := by
  unfold execSetupLock at e
  refine keeps_next ?_ e
  apply State.writeReg_keeps; assumption

theorem execIslLock_keeps (h : Keeps lk False s0 s) (y0 : Who) (e : (execIslLock y0 s) = .next t) :
    Keeps lk False s0 t := by
  unfold execIslLock at e
  refine keeps_next ?_ e
  apply State.writeReg_keeps; assumption

theorem execCapturingRead_keeps (h : Keeps lk st s0 s) (y0 : Who) (y1 : BitVec 24) (y2 : List Reply) (e : (execCapturingRead y0 y1 y2 s) = .next t) :
    Keeps lk st s0 t := by
  unfold execCapturingRead at e
  refine keeps_next ?_ e
  apply State.withReplies_keeps
  · assumption
  · intro _; intro _; apply State.readReg_keeps; assumption

end Sys2Proof.Machine
end

