-- ==== Sys2Proof/Laws/Keeps/Repro.lean ====
section
/-! SUPPORT. What the operations of Machine/Repro.lean keep. -/

set_option linter.all false

namespace Sys2Proof.Machine

variable {lk st : Prop} {s0 s t : State}

theorem execReproWrite_keeps (h : Keeps lk False s0 s) (y0 : Who) (y1 : BitVec 32) (e : (execReproWrite y0 y1 s) = .next t) :
    Keeps lk False s0 t := by
  unfold execReproWrite at e
  refine keeps_next ?_ e
  apply State.writeReg_keeps; assumption

theorem execRpStepWrite_keeps (h : Keeps lk False s0 s) (y0 : Who) (y1 : BitVec 32) (e : (execRpStepWrite y0 y1 s) = .next t) :
    Keeps lk False s0 t := by
  unfold execRpStepWrite at e
  refine keeps_next ?_ e
  apply State.writeReg_keeps; assumption

theorem execRpStepAdv_keeps (h : Keeps lk False s0 s) (y0 : Who) (y1 : BitVec 32) (e : (execRpStepAdv y0 y1 s) = .next t) :
    Keeps lk False s0 t := by
  unfold execRpStepAdv at e
  refine keeps_next ?_ e
  apply State.writeReg_keeps; assumption

theorem execGeneratorDraw_keeps (h : Keeps lk False s0 s) (y0 : Who) (y1 : BitVec 32) (e : (execGeneratorDraw y0 y1 s) = .next t) :
    Keeps lk False s0 t := by
  unfold execGeneratorDraw at e
  refine keeps_next ?_ e
  apply State.writeReg_keeps; assumption

theorem execGeneratorDrawDone_keeps (h : Keeps lk st s0 s) (e : (execGeneratorDrawDone s) = .next t) :
    Keeps lk st s0 t := by
  unfold execGeneratorDrawDone at e
  refine keeps_next ?_ e
  apply State.genDone_keeps; assumption

theorem execLsEnable_keeps (h : Keeps lk False s0 s) (y0 : Who) (y1 : BitVec 32) (e : (execLsEnable y0 y1 s) = .next t) :
    Keeps lk False s0 t := by
  unfold execLsEnable at e
  refine keeps_next ?_ e
  apply State.writeReg_keeps; assumption

theorem execStepClose_keeps (h : Keeps lk st s0 s) (y0 : Fin 64) (y1 : Fin (2 ^ 64)) (e : (execStepClose y0 y1 s) = .next t) :
    Keeps lk st s0 t := by
  unfold execStepClose at e
  refine keeps_next ?_ e
  apply State.stepClose_keeps; assumption

theorem execLsTimeout_keeps (h : Keeps lk st s0 s) (y0 : Fin 64) (y1 : Fin (2 ^ 64)) (e : (execLsTimeout y0 y1 s) = .next t) :
    Keeps lk st s0 t := by
  unfold execLsTimeout at e
  refine keeps_next ?_ e
  apply State.lsTimeout_keeps; assumption

end Sys2Proof.Machine
end

