-- ==== Sys2Proof/Laws/Keeps/SafetyCmds.lean ====
section
/-! SUPPORT. What the operations of Machine/SafetyCmds.lean keep. -/

set_option linter.all false

namespace Sys2Proof.Machine

variable {lk st : Prop} {s0 s t : State}

theorem execFaultAssertion_keeps (h : Keeps lk st s0 s) (y0 : Fin 128) (y1 : Fin 256) (e : (execFaultAssertion y0 y1 s) = .next t) :
    Keeps lk st s0 t := by
  unfold execFaultAssertion at e
  refine keeps_next ?_ e
  apply State.faultArrives_keeps; assumption

theorem execSfEnter_keeps (h : Keeps lk False s0 s) (y0 : Who) (y1 : BitVec 32) (e : (execSfEnter y0 y1 s) = .next t) :
    Keeps lk False s0 t := by
  unfold execSfEnter at e
  refine keeps_next ?_ e
  apply State.writeReg_keeps; assumption

theorem execSfExit_keeps (h : Keeps lk False s0 s) (y0 : Who) (y1 : BitVec 32) (e : (execSfExit y0 y1 s) = .next t) :
    Keeps lk False s0 t := by
  unfold execSfExit at e
  refine keeps_next ?_ e
  apply State.writeReg_keeps; assumption

theorem execSfSwfault_keeps (h : Keeps lk False s0 s) (y0 : Who) (y1 : BitVec 32) (e : (execSfSwfault y0 y1 s) = .next t) :
    Keeps lk False s0 t := by
  unfold execSfSwfault at e
  refine keeps_next ?_ e
  apply State.writeReg_keeps; assumption

theorem execWatchdogKick_keeps (h : Keeps lk False s0 s) (y0 : Who) (y1 : BitVec 32) (e : (execWatchdogKick y0 y1 s) = .next t) :
    Keeps lk False s0 t := by
  unfold execWatchdogKick at e
  refine keeps_next ?_ e
  apply State.writeReg_keeps; assumption

theorem execWatchdogExpiry_keeps (h : Keeps lk st s0 s) (e : (execWatchdogExpiry s) = .next t) :
    Keeps lk st s0 t := by
  unfold execWatchdogExpiry at e
  refine keeps_next ?_ e
  apply State.wdExpiry_keeps; assumption

theorem execClockMonitorWindow_keeps (h : Keeps lk st s0 s) (y0 : Fin 4096) (e : (execClockMonitorWindow y0 s) = .next t) :
    Keeps lk st s0 t := by
  unfold execClockMonitorWindow at e
  refine keeps_next ?_ e
  apply State.clockWindow_keeps; assumption

theorem execStoReadbackMismatch_keeps (h : Keeps lk st s0 s) (y0 : Fin 2) (y1 : Bool) (e : (execStoReadbackMismatch y0 y1 s) = .next t) :
    Keeps lk st s0 t := by
  unfold execStoReadbackMismatch at e
  refine keeps_next ?_ e
  apply State.stoMismatch_keeps; assumption

theorem execStoTestPulse_keeps (h : Keeps lk st s0 s) (y0 : Fin 2) (y1 : Bool) (e : (execStoTestPulse y0 y1 s) = .next t) :
    Keeps lk st s0 t := by
  unfold execStoTestPulse at e
  refine keeps_next ?_ e
  apply State.stoTest_keeps; assumption

theorem execStoTestPulseEnd_keeps (h : Keeps lk st s0 s) (y0 : Fin 2) (y1 : Bool) (e : (execStoTestPulseEnd y0 y1 s) = .next t) :
    Keeps lk st s0 t := by
  unfold execStoTestPulseEnd at e
  refine keeps_next ?_ e
  apply State.stoTestEnd_keeps; assumption

theorem execSafeInLow_keeps (h : Keeps lk st s0 s) (y0 : Bool) (y1 : ℕ) (e : (execSafeInLow y0 y1 s) = .next t) :
    Keeps lk st s0 t := by
  unfold execSafeInLow at e
  refine keeps_next ?_ e
  apply State.safeIn_keeps; assumption

theorem execSafetyFramePeriod_keeps (h : Keeps lk st s0 s) (y0 : Fin 8) (e : (execSafetyFramePeriod y0 s) = .next t) :
    Keeps lk st s0 t := by
  unfold execSafetyFramePeriod at e
  refine keeps_next ?_ e
  apply State.scPeriod_keeps; assumption

theorem execSafetyPduReceive_keeps (h : Keeps lk False s0 s) (y0 : Fin 8) (y1 : List Byte) (e : (execSafetyPduReceive y0 y1 s) = .next t) :
    Keeps lk False s0 t := by
  unfold execSafetyPduReceive at e
  refine keeps_next ?_ e
  apply State.scReceive_keeps; assumption

theorem execSafetyRxTimeout_keeps (h : Keeps lk st s0 s) (y0 : Fin 8) (e : (execSafetyRxTimeout y0 s) = .next t) :
    Keeps lk st s0 t := by
  unfold execSafetyRxTimeout at e
  refine keeps_next ?_ e
  apply State.scTimeout_keeps; assumption

theorem execFirewallWrite_keeps (h : Keeps lk False s0 s) (y0 : Who) (y1 : BitVec 32) (e : (execFirewallWrite y0 y1 s) = .next t) :
    Keeps lk False s0 t := by
  unfold execFirewallWrite at e
  refine keeps_next ?_ e
  apply State.writeReg_keeps; assumption

theorem execFirewallRead_keeps (h : Keeps lk False s0 s) (y0 : Who) (y1 : BitVec 32) (e : (execFirewallRead y0 y1 s) = .next t) :
    Keeps lk False s0 t := by
  unfold execFirewallRead at e
  refine keeps_next ?_ e
  apply State.writeReg_keeps; assumption

theorem execFirewallArm_keeps (h : Keeps lk False s0 s) (y0 : Who) (y1 : BitVec 32) (e : (execFirewallArm y0 y1 s) = .next t) :
    Keeps lk False s0 t := by
  unfold execFirewallArm at e
  refine keeps_next ?_ e
  apply State.writeReg_keeps; assumption

theorem execFirewallLock_keeps (h : Keeps lk False s0 s) (y0 : Who) (y1 : BitVec 32) (e : (execFirewallLock y0 y1 s) = .next t) :
    Keeps lk False s0 t := by
  unfold execFirewallLock at e
  refine keeps_next ?_ e
  apply State.writeReg_keeps; assumption

theorem execFirewallParitySweep_keeps (h : Keeps lk st s0 s) (y0 : Bool) (e : (execFirewallParitySweep y0 s) = .next t) :
    Keeps lk st s0 t := by
  unfold execFirewallParitySweep at e
  refine keeps_next ?_ e
  apply State.reportIf_keeps; assumption

end Sys2Proof.Machine
end

