-- ==== Sys2Proof/Laws/Keeps/Sequencer.lean ====
section
/-! SUPPORT. What the operations of Machine/Sequencer.lean keep. -/

set_option linter.all false

namespace Sys2Proof.Machine

variable {lk st : Prop} {s0 s t : State}

theorem execRowEligible_keeps (h : Keeps lk st s0 s) (y0 : Fin 128) (y1 : Fin 16) (e : (execRowEligible y0 y1 s) = .next t) :
    Keeps lk st s0 t := by
  unfold execRowEligible at e
  refine keeps_next ?_ e
  apply State.rowEligible_keeps; assumption

theorem execGrantDecision_keeps (h : Keeps lk st s0 s) (e : (execGrantDecision s) = .next t) :
    Keeps lk st s0 t := by
  unfold execGrantDecision at e
  refine keeps_next ?_ e
  apply State.grantCycle_keeps; assumption

theorem execIterationComplete_keeps (h : Keeps lk st s0 s) (y0 : Fin 128) (y1 : Fin 16) (e : (execIterationComplete y0 y1 s) = .next t) :
    Keeps lk st s0 t := by
  unfold execIterationComplete at e
  refine keeps_next ?_ e
  split
  · apply State.complete_keeps; assumption
  · assumption

theorem State.postAnswer_keeps (h : Keeps lk st s0 s) (y1 : ℕ) :
    Keeps lk st s0 (State.postAnswer s y1) := by
  unfold State.postAnswer
  split
  · assumption
  · extract_lets +onlyGivenNames u1 u2; refine keeps_ite (fun _ => ?_) (fun _ => ?_)
    · assumption
    · extract_lets +onlyGivenNames u1
      have ku1 : Keeps lk st s0 u1 := by
        unfold u1; refine keeps_mk ?_ rfl; assumption
      refine keeps_ite (fun _ => ?_) (fun _ => ?_)
      · apply State.ctxError_keeps; assumption
      · assumption

theorem execPostAnswer_keeps (h : Keeps lk st s0 s) (y0 : ℕ) (e : (execPostAnswer y0 s) = .next t) :
    Keeps lk st s0 t := by
  unfold execPostAnswer at e
  refine keeps_next ?_ e
  apply State.postAnswer_keeps; assumption

theorem State.deliver_keeps (h : Keeps lk st s0 s) (y1 : ℕ) (y2 : Bool) :
    Keeps lk st s0 (State.deliver s y1 y2) := by
  unfold State.deliver
  split
  · assumption
  · refine keeps_ite (fun _ => ?_) (fun _ => ?_)
    · assumption
    · extract_lets +onlyGivenNames u3
      have ku3 : Keeps lk st s0 u3.1 := by
        unfold u3; apply State.arrive_keeps; refine keeps_mk ?_ rfl; assumption
      clear_value u3
      apply State.postResult_keeps; assumption

theorem execTokenArrival_keeps (h : Keeps lk st s0 s) (y0 : ℕ) (e : (execTokenArrival y0 s) = .next t) :
    Keeps lk st s0 t := by
  unfold execTokenArrival at e
  refine keeps_next ?_ e
  apply State.deliver_keeps; assumption

theorem execCreditArrival_keeps (h : Keeps lk st s0 s) (y0 : ℕ) (e : (execCreditArrival y0 s) = .next t) :
    Keeps lk st s0 t := by
  unfold execCreditArrival at e
  refine keeps_next ?_ e
  apply State.deliver_keeps; assumption

theorem execTokcntWrite_keeps (h : Keeps lk st s0 s) (y0 : Who) (y1 : Fin 128) (y2 : Fin 16) (y3 : Fin 16) (y4 : BitVec 32) (y5 : BitVec 16) (y6 : BitVec 16) (e : (execTokcntWrite y0 y1 y2 y3 y4 y5 y6 s) = .next t) :
    Keeps lk st s0 t := by
  unfold execTokcntWrite at e
  refine keeps_next ?_ e
  apply State.writeWinAs_keeps
  · assumption
  · intro _; intro _; apply State.writeTokCnt_keeps; assumption

theorem execPoolCntWrite_keeps (h : Keeps lk st s0 s) (y0 : Who) (y1 : Fin 128) (y2 : Fin 32) (y3 : BitVec 32) (y4 : BitVec 16) (y5 : BitVec 16) (e : (execPoolCntWrite y0 y1 y2 y3 y4 y5 s) = .next t) :
    Keeps lk st s0 t := by
  unfold execPoolCntWrite at e
  refine keeps_next ?_ e
  apply State.writeWinAs_keeps
  · assumption
  · intro _; intro _; apply State.setPool_keeps; assumption

theorem execToktake_keeps (h : Keeps lk False s0 s) (y0 : Who) (y1 : Fin 128) (y2 : Fin 16) (y3 : Fin 16) (y4 : BitVec 16) (e : (execToktake y0 y1 y2 y3 y4 s) = .next t) :
    Keeps lk False s0 t := by
  unfold execToktake at e
  refine keeps_next ?_ e
  apply State.writeWin_keeps; assumption

theorem execCtxStart_keeps (h : Keeps lk False s0 s) (y0 : Who) (y1 : Fin 128) (y2 : Fin 16) (y3 : BitVec 32) (e : (execCtxStart y0 y1 y2 y3 s) = .next t) :
    Keeps lk False s0 t := by
  unfold execCtxStart at e
  refine keeps_next ?_ e
  apply State.writeWin_keeps; assumption

theorem execCtxHalt_keeps (h : Keeps lk False s0 s) (y0 : Who) (y1 : Fin 128) (y2 : Fin 16) (y3 : BitVec 32) (e : (execCtxHalt y0 y1 y2 y3 s) = .next t) :
    Keeps lk False s0 t := by
  unfold execCtxHalt at e
  refine keeps_next ?_ e
  apply State.writeWin_keeps; assumption

theorem execCtxStep_keeps (h : Keeps lk False s0 s) (y0 : Who) (y1 : Fin 128) (y2 : Fin 16) (y3 : BitVec 32) (e : (execCtxStep y0 y1 y2 y3 s) = .next t) :
    Keeps lk False s0 t := by
  unfold execCtxStep at e
  refine keeps_next ?_ e
  apply State.writeWin_keeps; assumption

theorem execCtxClear_keeps (h : Keeps lk False s0 s) (y0 : Who) (y1 : Fin 128) (y2 : Fin 16) (y3 : BitVec 32) (e : (execCtxClear y0 y1 y2 y3 s) = .next t) :
    Keeps lk False s0 t := by
  unfold execCtxClear at e
  refine keeps_next ?_ e
  apply State.writeWin_keeps; assumption

theorem execCtxPcWrite_keeps (h : Keeps lk False s0 s) (y0 : Who) (y1 : Fin 128) (y2 : Fin 16) (y3 : BitVec 32) (e : (execCtxPcWrite y0 y1 y2 y3 s) = .next t) :
    Keeps lk False s0 t := by
  unfold execCtxPcWrite at e
  refine keeps_next ?_ e
  apply State.writeWin_keeps; assumption

theorem execRowCommit_keeps (h : Keeps lk False s0 s) (y0 : Who) (y1 : Fin 128) (y2 : Fin 512) (y3 : BitVec 32) (e : (execRowCommit y0 y1 y2 y3 s) = .next t) :
    Keeps lk False s0 t := by
  unfold execRowCommit at e
  refine keeps_next ?_ e
  apply State.writeWin_keeps; assumption

theorem State.ctxStall_keeps (h : Keeps lk st s0 s) (y1 : ℕ) (y2 : ℕ) :
    Keeps lk st s0 (State.ctxStall s y1 y2) := by
  unfold State.ctxStall
  extract_lets +onlyGivenNames u1
  clear_value u1
  refine keeps_ite (fun _ => ?_) (fun _ => ?_)
  · apply State.wr_keeps; assumption
  · assumption

theorem execCtxStall_keeps (h : Keeps lk st s0 s) (y0 : Fin 128) (y1 : Fin 16) (e : (execCtxStall y0 y1 s) = .next t) :
    Keeps lk st s0 t := by
  unfold execCtxStall at e
  refine keeps_next ?_ e
  apply State.ctxStall_keeps; assumption

theorem execSeqErrRead_keeps (h : Keeps lk st s0 s) (y0 : Who) (y1 : Fin 128) (e : (execSeqErrRead y0 y1 s) = .next t) :
    Keeps lk st s0 t := by
  unfold execSeqErrRead at e
  refine keeps_next ?_ e
  apply State.readWin_keeps; assumption

theorem execSync_keeps (h : Keeps lk st s0 s) (y0 : Fin 128) (y1 : Fin 16) (e : (execSync y0 y1 s) = .next t) :
    Keeps lk st s0 t := by
  unfold execSync at e
  refine keeps_next ?_ e
  refine keeps_ite (fun _ => ?_) (fun _ => ?_)
  · apply State.rowEligible_keeps; assumption
  · assumption

end Sys2Proof.Machine
end

