-- ==== Sys2Proof/Laws/Keeps/Windway.lean ====
section
/-! SUPPORT. What the operations of Machine/Windway.lean keep. -/

set_option linter.all false

namespace Sys2Proof.Machine

variable {lk st : Prop} {s0 s t : State}

theorem execWlEnable_keeps (h : Keeps lk False s0 s) (y0 : Fin 8) (y1 : Who) (y2 : BitVec 32) (e : (execWlEnable y0 y1 y2 s) = .next t) :
    Keeps lk False s0 t := by
  unfold execWlEnable at e
  refine keeps_next ?_ e
  apply State.writeReg_keeps; assumption

theorem execTrainingComplete_keeps (h : Keeps lk False s0 s) (y0 : Fin 8) (y1 : Fin 3) (y2 : Bool) (y3 : WwFrame) (y4 : List Reply) (e : (execTrainingComplete y0 y1 y2 y3 y4 s) = .next t) :
    Keeps lk False s0 t := by
  unfold execTrainingComplete at e
  refine keeps_next ?_ e
  apply State.withReplies_keeps
  · assumption
  · intro _; intro _; apply State.trainDone_keeps; assumption

theorem execTrainingTimeout_keeps (h : Keeps lk st s0 s) (y0 : Fin 12) (e : (execTrainingTimeout y0 s) = .next t) :
    Keeps lk st s0 t := by
  unfold execTrainingTimeout at e
  refine keeps_next ?_ e
  apply State.trainTimeout_keeps; assumption

theorem execFrameReceive_keeps (h : Keeps lk False s0 s) (y0 : Fin 8) (y1 : Option WwFrame) (y2 : List Reply) (e : (execFrameReceive y0 y1 y2 s) = .next t) :
    Keeps lk False s0 t := by
  unfold execFrameReceive at e
  refine keeps_next ?_ e
  apply State.withReplies_keeps
  · assumption
  · intro _; intro _; apply State.frameReceive_keeps; assumption

theorem execReplayTimeout_keeps (h : Keeps lk st s0 s) (y0 : Fin 8) (e : (execReplayTimeout y0 s) = .next t) :
    Keeps lk st s0 t := by
  unfold execReplayTimeout at e
  refine keeps_next ?_ e
  apply State.replayTimeout_keeps; assumption

theorem execLinkLoss_keeps (h : Keeps lk st s0 s) (y0 : Fin 12) (y1 : Bool) (e : (execLinkLoss y0 y1 s) = .next t) :
    Keeps lk st s0 t := by
  unfold execLinkLoss at e
  refine keeps_next ?_ e
  apply State.linkLoss_keeps; assumption

theorem execWr_keeps (h : Keeps lk False s0 s) (y0 : Fin 12) (y1 : WwMsg) (y2 : List Reply) (e : (execWr y0 y1 y2 s) = .next t) :
    Keeps lk False s0 t := by
  unfold execWr at e
  refine keeps_next ?_ e
  apply State.withReplies_keeps
  · assumption
  · intro _; intro _; apply State.wwIn_keeps; assumption

theorem execRd_keeps (h : Keeps lk False s0 s) (y0 : Fin 12) (y1 : WwMsg) (y2 : List Reply) (e : (execRd y0 y1 y2 s) = .next t) :
    Keeps lk False s0 t := by
  unfold execRd at e
  refine keeps_next ?_ e
  apply State.withReplies_keeps
  · assumption
  · intro _; intro _; apply State.wwIn_keeps; assumption

theorem execRdrsp_keeps (h : Keeps lk False s0 s) (y0 : Fin 12) (y1 : WwMsg) (e : (execRdrsp y0 y1 s) = .next t) :
    Keeps lk False s0 t := by
  unfold execRdrsp at e
  refine keeps_next ?_ e
  apply State.wwIn_keeps; assumption

theorem execWrack_keeps (h : Keeps lk False s0 s) (y0 : Fin 12) (y1 : WwMsg) (e : (execWrack y0 y1 s) = .next t) :
    Keeps lk False s0 t := by
  unfold execWrack at e
  refine keeps_next ?_ e
  apply State.wwIn_keeps; assumption

theorem execTok_keeps (h : Keeps lk False s0 s) (y0 : Fin 12) (y1 : WwMsg) (e : (execTok y0 y1 s) = .next t) :
    Keeps lk False s0 t := by
  unfold execTok at e
  refine keeps_next ?_ e
  apply State.wwIn_keeps; assumption

theorem execTokack_keeps (h : Keeps lk False s0 s) (y0 : Fin 12) (y1 : WwMsg) (e : (execTokack y0 y1 s) = .next t) :
    Keeps lk False s0 t := by
  unfold execTokack at e
  refine keeps_next ?_ e
  apply State.wwIn_keeps; assumption

theorem execSyncMessage_keeps (h : Keeps lk False s0 s) (y0 : Fin 12) (y1 : WwMsg) (e : (execSyncMessage y0 y1 s) = .next t) :
    Keeps lk False s0 t := by
  unfold execSyncMessage at e
  refine keeps_next ?_ e
  apply State.wwIn_keeps; assumption

theorem execJoinInfo_keeps (h : Keeps lk False s0 s) (y0 : Fin 12) (y1 : WwMsg) (e : (execJoinInfo y0 y1 s) = .next t) :
    Keeps lk False s0 t := by
  unfold execJoinInfo at e
  refine keeps_next ?_ e
  apply State.wwIn_keeps; assumption

theorem execTimeReq_keeps (h : Keeps lk False s0 s) (y0 : Fin 12) (y1 : WwMsg) (e : (execTimeReq y0 y1 s) = .next t) :
    Keeps lk False s0 t := by
  unfold execTimeReq at e
  refine keeps_next ?_ e
  apply State.wwIn_keeps; assumption

theorem execTimeRsp_keeps (h : Keeps lk False s0 s) (y0 : Fin 12) (y1 : WwMsg) (e : (execTimeRsp y0 y1 s) = .next t) :
    Keeps lk False s0 t := by
  unfold execTimeRsp at e
  refine keeps_next ?_ e
  apply State.wwIn_keeps; assumption

theorem execLeader_keeps (h : Keeps lk False s0 s) (y0 : Fin 12) (y1 : WwMsg) (e : (execLeader y0 y1 s) = .next t) :
    Keeps lk False s0 t := by
  unfold execLeader at e
  refine keeps_next ?_ e
  apply State.wwIn_keeps; assumption

theorem execLossNotice_keeps (h : Keeps lk False s0 s) (y0 : Fin 12) (y1 : WwMsg) (e : (execLossNotice y0 y1 s) = .next t) :
    Keeps lk False s0 t := by
  unfold execLossNotice at e
  refine keeps_next ?_ e
  apply State.wwIn_keeps; assumption

theorem execSafeNotice_keeps (h : Keeps lk False s0 s) (y0 : Fin 12) (y1 : WwMsg) (e : (execSafeNotice y0 y1 s) = .next t) :
    Keeps lk False s0 t := by
  unfold execSafeNotice at e
  refine keeps_next ?_ e
  apply State.wwIn_keeps; assumption

theorem execGfault_keeps (h : Keeps lk False s0 s) (y0 : Fin 12) (y1 : WwMsg) (e : (execGfault y0 y1 s) = .next t) :
    Keeps lk False s0 t := by
  unfold execGfault at e
  refine keeps_next ?_ e
  apply State.wwIn_keeps; assumption

theorem execAdmitNotice_keeps (h : Keeps lk False s0 s) (y0 : Fin 12) (y1 : WwMsg) (e : (execAdmitNotice y0 y1 s) = .next t) :
    Keeps lk False s0 t := by
  unfold execAdmitNotice at e
  refine keeps_next ?_ e
  apply State.wwIn_keeps; assumption

theorem execFwmsg_keeps (h : Keeps lk False s0 s) (y0 : Fin 12) (y1 : WwMsg) (e : (execFwmsg y0 y1 s) = .next t) :
    Keeps lk False s0 t := by
  unfold execFwmsg at e
  refine keeps_next ?_ e
  apply State.wwIn_keeps; assumption

theorem execFwmsgRead_keeps (h : Keeps lk st s0 s) (y0 : Who) (e : (execFwmsgRead y0 s) = .next t) :
    Keeps lk st s0 t := by
  unfold execFwmsgRead at e
  refine keeps_next ?_ e
  apply State.readReg_keeps; assumption

theorem execLssig_keeps (h : Keeps lk False s0 s) (y0 : Fin 12) (y1 : WwMsg) (e : (execLssig y0 y1 s) = .next t) :
    Keeps lk False s0 t := by
  unfold execLssig at e
  refine keeps_next ?_ e
  apply State.wwIn_keeps; assumption

theorem execLsrows_keeps (h : Keeps lk False s0 s) (y0 : Fin 12) (y1 : WwMsg) (e : (execLsrows y0 y1 s) = .next t) :
    Keeps lk False s0 t := by
  unfold execLsrows at e
  refine keeps_next ?_ e
  apply State.wwIn_keeps; assumption

theorem execRemoteRequestTimeout_keeps (h : Keeps lk st s0 s) (y0 : Fin 2048) (e : (execRemoteRequestTimeout y0 s) = .next t) :
    Keeps lk st s0 t := by
  unfold execRemoteRequestTimeout at e
  refine keeps_next ?_ e
  apply State.requestTimeout_keeps; assumption

theorem execTimeExchangeTimer_keeps (h : Keeps lk st s0 s) (y0 : Fin 12) (e : (execTimeExchangeTimer y0 s) = .next t) :
    Keeps lk st s0 t := by
  unfold execTimeExchangeTimer at e
  refine keeps_next ?_ e
  apply State.timeTimer_keeps; assumption

theorem execSyncSend_keeps (h : Keeps lk st s0 s) (y0 : Fin 8) (e : (execSyncSend y0 s) = .next t) :
    Keeps lk st s0 t := by
  unfold execSyncSend at e
  refine keeps_next ?_ e
  apply State.syncSend_keeps; assumption

theorem execLeaderBroadcast_keeps (h : Keeps lk st s0 s) (e : (execLeaderBroadcast s) = .next t) :
    Keeps lk st s0 t := by
  unfold execLeaderBroadcast at e
  refine keeps_next ?_ e
  apply State.leaderTimer_keeps; assumption

theorem execLeaderTimeout_keeps (h : Keeps lk st s0 s) (e : (execLeaderTimeout s) = .next t) :
    Keeps lk st s0 t := by
  unfold execLeaderTimeout at e
  refine keeps_next ?_ e
  apply State.leaderTimeout_keeps; assumption

theorem execGfClear_keeps (h : Keeps lk False s0 s) (y0 : Who) (y1 : BitVec 32) (e : (execGfClear y0 y1 s) = .next t) :
    Keeps lk False s0 t := by
  unfold execGfClear at e
  refine keeps_next ?_ e
  apply State.writeReg_keeps; assumption

theorem execNrClear_keeps (h : Keeps lk False s0 s) (y0 : Who) (y1 : BitVec 32) (e : (execNrClear y0 y1 s) = .next t) :
    Keeps lk False s0 t := by
  unfold execNrClear at e
  refine keeps_next ?_ e
  apply State.writeReg_keeps; assumption

theorem execRouteTableWrite_keeps (h : Keeps lk False s0 s) (y0 : Fin 8192) (y1 : Who) (y2 : BitVec 32) (e : (execRouteTableWrite y0 y1 y2 s) = .next t) :
    Keeps lk False s0 t := by
  unfold execRouteTableWrite at e
  refine keeps_next ?_ e
  apply State.writeReg_keeps; assumption

theorem execTunnelEnable_keeps (h : Keeps lk False s0 s) (y0 : Fin 4) (y1 : Who) (y2 : BitVec 32) (e : (execTunnelEnable y0 y1 y2 s) = .next t) :
    Keeps lk False s0 t := by
  unfold execTunnelEnable at e
  refine keeps_next ?_ e
  apply State.writeReg_keeps; assumption

theorem execTunnelFrameReceive_keeps (h : Keeps lk False s0 s) (y0 : Fin 4) (y1 : WwFrame) (y2 : List Reply) (e : (execTunnelFrameReceive y0 y1 y2 s) = .next t) :
    Keeps lk False s0 t := by
  unfold execTunnelFrameReceive at e
  refine keeps_next ?_ e
  apply State.withReplies_keeps
  · assumption
  · intro _; intro _; apply State.tunnelFrame_keeps; assumption

theorem execKeepalive_keeps (h : Keeps lk st s0 s) (y0 : Fin 4) (e : (execKeepalive y0 s) = .next t) :
    Keeps lk st s0 t := by
  unfold execKeepalive at e
  refine keeps_next ?_ e
  apply State.keepalive_keeps; assumption

theorem execTunnelRetransmit_keeps (h : Keeps lk st s0 s) (y0 : Fin 4) (e : (execTunnelRetransmit y0 s) = .next t) :
    Keeps lk st s0 t := by
  unfold execTunnelRetransmit at e
  refine keeps_next ?_ e
  apply State.replayTimeout_keeps; assumption

theorem execSweepGo_keeps (h : Keeps lk False s0 s) (y0 : Who) (y1 : BitVec 32) (e : (execSweepGo y0 y1 s) = .next t) :
    Keeps lk False s0 t := by
  unfold execSweepGo at e
  refine keeps_next ?_ e
  apply State.writeReg_keeps; assumption

theorem execSweepStart_keeps (h : Keeps lk False s0 s) (y0 : Fin 12) (y1 : WwMsg) (e : (execSweepStart y0 y1 s) = .next t) :
    Keeps lk False s0 t := by
  unfold execSweepStart at e
  refine keeps_next ?_ e
  apply State.wwIn_keeps; assumption

theorem execSweepRefusal_keeps (h : Keeps lk False s0 s) (y0 : Fin 12) (y1 : WwMsg) (e : (execSweepRefusal y0 y1 s) = .next t) :
    Keeps lk False s0 t := by
  unfold execSweepRefusal at e
  refine keeps_next ?_ e
  apply State.wwIn_keeps; assumption

theorem execSweepS0_keeps (h : Keeps lk st s0 s) (e : (execSweepS0 s) = .next t) :
    Keeps lk st s0 t := by
  unfold execSweepS0 at e
  refine keeps_next ?_ e
  apply State.sweepS0_keeps; assumption

theorem execSweepSyncSend_keeps (h : Keeps lk st s0 s) (y0 : Fin 12) (e : (execSweepSyncSend y0 s) = .next t) :
    Keeps lk st s0 t := by
  unfold execSweepSyncSend at e
  refine keeps_next ?_ e
  apply State.sweepSyncSend_keeps; assumption

theorem execSweepSync_keeps (h : Keeps lk False s0 s) (y0 : Fin 12) (y1 : WwMsg) (e : (execSweepSync y0 y1 s) = .next t) :
    Keeps lk False s0 t := by
  unfold execSweepSync at e
  refine keeps_next ?_ e
  apply State.wwIn_keeps; assumption

theorem execSweepAckSend_keeps (h : Keeps lk st s0 s) (e : (execSweepAckSend s) = .next t) :
    Keeps lk st s0 t := by
  unfold execSweepAckSend at e
  refine keeps_next ?_ e
  apply State.sweepAckSend_keeps; assumption

theorem execSweepAck_keeps (h : Keeps lk False s0 s) (y0 : Fin 12) (y1 : WwMsg) (e : (execSweepAck y0 y1 s) = .next t) :
    Keeps lk False s0 t := by
  unfold execSweepAck at e
  refine keeps_next ?_ e
  apply State.wwIn_keeps; assumption

theorem execSweepCut_keeps (h : Keeps lk st s0 s) (e : (execSweepCut s) = .next t) :
    Keeps lk st s0 t := by
  unfold execSweepCut at e
  refine keeps_next ?_ e
  apply State.sweepCut_keeps; assumption

theorem execSweepAckMissing_keeps (h : Keeps lk st s0 s) (y0 : Fin 16) (e : (execSweepAckMissing y0 s) = .next t) :
    Keeps lk st s0 t := by
  unfold execSweepAckMissing at e
  refine keeps_next ?_ e
  apply State.sweepAckMissing_keeps; assumption

theorem execSweepStop_keeps (h : Keeps lk False s0 s) (y0 : Fin 12) (y1 : WwMsg) (e : (execSweepStop y0 y1 s) = .next t) :
    Keeps lk False s0 t := by
  unfold execSweepStop at e
  refine keeps_next ?_ e
  apply State.wwIn_keeps; assumption

theorem execSweepEnd_keeps (h : Keeps lk False s0 s) (y0 : Fin 12) (y1 : WwMsg) (e : (execSweepEnd y0 y1 s) = .next t) :
    Keeps lk False s0 t := by
  unfold execSweepEnd at e
  refine keeps_next ?_ e
  apply State.wwIn_keeps; assumption

theorem execSweepAbort_keeps (h : Keeps lk False s0 s) (y0 : Who) (y1 : BitVec 32) (e : (execSweepAbort y0 y1 s) = .next t) :
    Keeps lk False s0 t := by
  unfold execSweepAbort at e
  refine keeps_next ?_ e
  apply State.writeReg_keeps; assumption

end Sys2Proof.Machine
end

