-- ==== Sys2Proof/Laws/Lifecycle.lean ====
section
/-! SUPPORT. What the shared operations behind the commands of unit lifecycle do. -/

set_option linter.all false
set_option maxRecDepth 4000

namespace Sys2Proof.Machine

theorem drainEnter_reed (s : State) (u cause : Nat) : ∃ r, s.drainEnter u cause =
    { s.setUnit u { s.unitSt u with state := 1, cause := cause, retryOver := false, drainAt := s.sysTime, drainCyc := s.now } with reed := r } := by
  unfold State.drainEnter
  have hi (s : State) (i : Nat) : ∃ r, s.reedInvalid i = { s with reed := r } := ⟨_, rfl⟩
  have hf (l : List Nat) (f : Nat → Nat) (s : State) : ∃ r, l.foldl (fun s k => s.reedInvalid (f k)) s = { s with reed := r } := by
    induction l generalizing s with
    | nil => exact ⟨s.reed, rfl⟩
    | cons a l ih =>
      obtain ⟨r, e⟩ := hi s (f a)
      rw [List.foldl_cons, e]
      exact ih _
  extract_lets s1
  split
  · exact hf _ _ _
  · exact ⟨_, rfl⟩

theorem drainEnter_eq (s : State) (u cause : Nat) :
    (s.drainEnter u cause).unitSt u = { s.unitSt u with state := 1, cause := cause, retryOver := false, drainAt := s.sysTime, drainCyc := s.now } ∧
    (∀ x, x ≠ u → (s.drainEnter u cause).unitSt x = s.unitSt x) ∧
    s.drainEnter u cause = { s with units := (s.drainEnter u cause).units, reed := (s.drainEnter u cause).reed } := by
  obtain ⟨r, e⟩ := drainEnter_reed s u cause
  let U : UnitSt := { s.unitSt u with state := 1, cause := cause, retryOver := false, drainAt := s.sysTime, drainCyc := s.now }
  have e' : s.drainEnter u cause = { s with units := (s.setUnit u U).units, reed := r } := e
  rw [e']
  exact ⟨(unitSt_congr (s := s.setUnit u U) rfl u).trans (State.setUnit_unitSt s u U),
    fun x hx => (unitSt_congr (s := s.setUnit u U) rfl x).trans (State.setUnit_unitSt_ne s U hx), rfl⟩

theorem ul_word (v : BitVec 32) (c : Nat) (hc : c < 8) : (bits v.toNat 0 8 + 256 * c) % 2 ^ 32 = bits v.toNat 0 8 + 256 * c := by
  have := bits_lt v.toNat 0 8; omega

theorem bits_ulword (v : BitVec 32) (c : Nat) (hc : c < 8) : bits (bits v.toNat 0 8 + 256 * c) 0 7 = v.toNat % 128 ∧ bits (bits v.toNat 0 8 + 256 * c) 8 3 = c := by
  unfold bits
  simp only [Nat.shiftRight_eq_div_pow]
  omega

/-- Each pool of a sequencer takes its initial count (R729). -/
theorem poolsInit_eq (s : State) (q : Nat) : ∃ r, (List.range 32).foldl (fun s p => s.wr (R.POOL_CNT_COUNT (win q) p) (s.rd (R.POOL_INIT_INIT (win q) p))) s = { s with regs := r } ∧
    ∀ p < 32, State.rd { s with regs := r } (R.POOL_CNT_COUNT (win q) p) = s.rd (R.POOL_INIT_INIT (win q) p) % 2 ^ 16 := by
  have hne : ∀ i j, (R.POOL_INIT_INIT (win q) j).key ≠ (R.POOL_CNT_COUNT (win q) i).key := by
    intro i j; simp only [R.POOL_INIT_INIT, R.POOL_CNT_COUNT]; omega
  have hk := foldl_keep (fun t => ∃ r, t = { s with regs := r }) (fun (s : State) p => s.wr (R.POOL_CNT_COUNT (win q) p) (s.rd (R.POOL_INIT_INIT (win q) p)))
    (List.range 32) (by rintro t i _ ⟨r, rfl⟩; exact ⟨_, rfl⟩) (s := s) ⟨s.regs, rfl⟩
  obtain ⟨r, hr⟩ := hk
  refine ⟨r, hr, ?_⟩
  have := foldl_range_all' (n := 32) (fun (s : State) p => s.wr (R.POOL_CNT_COUNT (win q) p) (s.rd (R.POOL_INIT_INIT (win q) p)))
    (fun t => ∀ p, t.rd (R.POOL_INIT_INIT (win q) p) = s.rd (R.POOL_INIT_INIT (win q) p))
    (fun p t => t.rd (R.POOL_CNT_COUNT (win q) p) = s.rd (R.POOL_INIT_INIT (win q) p) % 2 ^ 16)
    (by intro t i _ h p; rw [State.rd_wr_ne _ _ (hne i p)]; exact h p)
    (by intro t i _ h; rw [State.rd_wr_same, h]; rfl)
    (by intro t i j _ _ hij h; rw [State.rd_wr_ne _ _ (by simp only [R.POOL_CNT_COUNT]; omega)]; exact h)
    (s := s) (fun _ => rfl)
  rw [← hr]
  exact this

end Sys2Proof.Machine
end

