-- ==== Sys2Proof/Laws/MemoryRows.lean ====
section
/-! SUPPORT. What the shared operations behind the commands of memory, copies and atomics do. -/

set_option linter.all false
set_option maxRecDepth 4000

namespace Sys2Proof.Machine

/-- A request that a memory takes is one to a memory. -/
theorem memAdmit_place {s : State} {w : Who} {ep a n code p : Nat} {wr : Bool} (h : s.memAdmit w ep a n wr = (s, .ok, code, p)) :
    placeOf a = .memory code p := by
  unfold State.memAdmit at h
  split at h
  · rename_i c q hp
    rw [hp]
    have e : (s.memAdmit w ep a n wr).2.2 = (c, q) := by
      unfold State.memAdmit; rw [hp]; dsimp only; split_ifs <;> rfl
    unfold State.memAdmit at e
    rw [hp] at e
    dsimp only at e h
    rw [h] at e
    simp only [Prod.mk.injEq] at e
    rw [e.1, e.2]
  · simp at h

theorem localRead_clean {s : State} {w : Who} {ep a n code p : Nat} (h : s.memAdmit w ep a n false = (s, .ok, code, p))
    (hh : ¬ (code = 0x64 ∧ 0x12000 ≤ p - 0x4000000 ∧ p - 0x4000000 < 0x20000)) (hc : s.clean code p n) (hu : s.spanUnknown code p n = false) :
    s.localRead w ep a n = (s, .ok, s.getBytes p n) := by
  simp only [State.localRead, h, ne_eq, not_true, if_false]
  rw [if_neg hh, readMem_clean hc hu]

theorem localWrite_admitted {s : State} {w : Who} {ep a code p : Nat} {data : List Byte} (h : s.memAdmit w ep a data.length true = (s, .ok, code, p)) :
    s.localWrite w ep a data = s.writeMem code p data w := by
  simp only [State.localWrite, h, ne_eq, not_true, if_false]

theorem busRead_memory {s : State} {w : Who} {ep a n code p : Nat} (h : placeOf a = .memory code p) : s.busRead w ep a n = s.localRead w ep a n := by
  simp only [State.busRead, h]

theorem busWrite_memory {s : State} {w : Who} {ep a code p : Nat} {data : List Byte} (h : placeOf a = .memory code p) :
    s.busWrite w ep a data = s.localWrite w ep a data := by
  simp only [State.busWrite, h]

/-- One line is scrubbed where the memory holds no error. -/
theorem scrubLine_clean {s : State} {code : Nat} {skip : Bool} (h : ∀ x, tget 0 s.ecc x = 0) :
    s.scrubLine code skip = { s with scrub := tset 0 s.scrub code ((tget 0 s.scrub code + 1) % ((memRange code).2 / 64)) } := by
  have hr (l : List Nat) : State.readWords { s with scrub := tset 0 s.scrub code ((tget 0 s.scrub code + 1) % ((memRange code).2 / 64)) } code
      { ini := 0x3F, cls := 3, remote := false } l = ({ s with scrub := tset 0 s.scrub code ((tget 0 s.scrub code + 1) % ((memRange code).2 / 64)) }, false) :=
    readWords_clean _ _ _ _ fun x _ => h x
  show (if _ then _ else (State.readWords _ code _ _).1) = _
  split
  · rfl
  · exact congrArg Prod.fst (hr _)

theorem memGet_filter (l : List Host.Cell) (q : Host.Cell → Bool) (b : Nat) (hq : ∀ v, q (b, v) = true) : memGet (l.filter q) b = memGet l b := by
  induction l with
  | nil => rfl
  | cons c l ih =>
    obtain ⟨j, v⟩ := c
    rw [List.filter_cons]
    by_cases hj : j = b
    · subst hj; rw [if_pos (hq v)]; simp [memGet]
    · split <;> simp [memGet, hj, ih]

theorem memGet_filter_out (l : List Host.Cell) (q : Host.Cell → Bool) (b : Nat) (hq : ∀ v, q (b, v) = false) : memGet (l.filter q) b = none := by
  induction l with
  | nil => rfl
  | cons c l ih =>
    obtain ⟨j, v⟩ := c
    rw [List.filter_cons]
    by_cases hj : j = b
    · subst hj; rw [if_neg (by rw [hq]; simp)]; exact ih
    · split
      · simp [memGet, hj, ih]
      · exact ih

/-- Where the bytes of a memory lie. -/
theorem memCode_range_iff {b code : Nat} (hc : code ≤ 0x65) : memCode b = code ↔ (memRange code).1 ≤ b ∧ b < (memRange code).1 + (memRange code).2 := by
  unfold memCode memRange
  split_ifs <;> (constructor <;> intro h <;> simp only [] at * <;> omega)

/-- Zeroing a memory makes its bytes 0 and leaves those of the others (R140). -/
theorem getByte_zeroMem (s : State) (code : Nat) (hc : code ≤ 0x65) :
    (∀ b, memCode b = code → (s.zeroMem code).getByte b = 0) ∧ ∀ b, memCode b ≠ code → memCode b ≠ 0x66 → (s.zeroMem code).getByte b = s.getByte b := by
  unfold State.zeroMem
  rw [if_neg (by omega)]
  refine ⟨fun b hb => ?_, fun b hb hb2 => ?_⟩
  · have hr := (memCode_range_iff hc).1 hb
    unfold State.getByte State.unlisted State.isLost State.pageLost
    dsimp only
    rw [memGet_filter_out _ _ _ (by intro v; simp; omega), hb, Option.getD_none, if_neg]
    simp only [Bool.or_eq_true, Bool.and_eq_true, List.contains_iff_mem, List.mem_filter, decide_eq_true_eq, Bool.not_eq_true', Bool.and_eq_false_iff, decide_eq_false_iff_not]
    rintro (h | ⟨⟨h1, h2⟩, h3, h4⟩)
    · simp at h
    · unfold memRange at h4 hr
      split_ifs at h4 hr <;> simp only [] at h4 hr <;> omega
  · have hr := mt (memCode_range_iff hc).2 hb
    unfold State.getByte State.unlisted State.isLost State.pageLost
    dsimp only
    rw [memGet_filter _ _ _ (by intro v; simp; omega)]
    congr 1
    have e1 : (s.unknown.filter (· != code)).contains (memCode b) = s.unknown.contains (memCode b) := by
      rw [Bool.eq_iff_iff]; simp [List.mem_filter, hb]
    have e2 : (decide (0x12000000 ≤ b) && decide (b < 0x14000000) && (s.lostPages.filter fun p => !(decide ((memRange code).1 ≤ 0x12000000 + 0x10000 * p) && decide (0x12000000 + 0x10000 * p < (memRange code).1 + (memRange code).2))).contains ((b - 0x12000000) / 0x10000)) =
        (decide (0x12000000 ≤ b) && decide (b < 0x14000000) && s.lostPages.contains ((b - 0x12000000) / 0x10000)) := by
      by_cases h1 : 0x12000000 ≤ b ∧ b < 0x14000000
      · simp only [h1, decide_true, Bool.true_and]
        rw [Bool.eq_iff_iff]
        simp only [List.contains_iff_mem, List.mem_filter, and_iff_left_iff_imp, Bool.not_eq_true', Bool.and_eq_false_iff, decide_eq_false_iff_not]
        intro _
        unfold memRange at hr ⊢
        split_ifs at hr ⊢ <;> simp only [] at hr ⊢ <;> omega
      · have : (decide (0x12000000 ≤ b) && decide (b < 0x14000000)) = false := by simpa using h1
        rw [this, Bool.false_and, Bool.false_and]
    rw [e1, e2]

theorem lineCuts_one {a n : Nat} (hn : 0 < n) (h : a % 64 + n ≤ 64) : lineCuts a n = [(0, n)] := by
  unfold lineCuts
  rw [if_neg (by omega)]
  have e : (a + n - 1) / 64 - a / 64 + 1 = 1 := by omega
  rw [e]
  simp only [List.range_one, List.map_cons, List.map_nil, Nat.add_zero, List.cons.injEq, and_true, Prod.mk.injEq]
  omega

/-- A global address that a base gave stays where it is, moved by 0. -/
theorem gaAdd_zero (g : Nat) (d : Int) : gaAdd (gaAdd g d) 0 = gaAdd g d := by
  have hl : gaLocal (gaAdd g d) = ux 48 ((gaLocal g : Int) + d) := by
    have h1 : ux 48 ((gaLocal g : Int) + d) < 2 ^ 48 := by unfold ux; omega
    unfold gaAdd
    generalize ux 48 ((gaLocal g : Int) + d) = x at *
    simp only [gaLocal, bits, Nat.shiftRight_zero]; omega
  have hh : bits (gaAdd g d) 48 16 = bits g 48 16 := by
    have h1 : ux 48 ((gaLocal g : Int) + d) < 2 ^ 48 := by unfold ux; omega
    have h2 := bits_lt g 48 16
    unfold gaAdd
    generalize ux 48 ((gaLocal g : Int) + d) = x at *
    generalize bits g 48 16 = y at *
    simp only [bits, Nat.shiftRight_eq_div_pow]; omega
  have e : gaAdd (gaAdd g d) 0 = ux 48 ((gaLocal (gaAdd g d) : Int) + 0) + bits (gaAdd g d) 48 16 * 2 ^ 48 := rfl
  rw [e, hh, hl, Int.add_zero]
  unfold gaAdd
  congr 1
  unfold ux; omega

theorem wordFlags_clean (s : State) (code : Nat) (w : Who) (l : List Nat) (h : ∀ wa ∈ l, tget 0 s.ecc wa = 0) :
    s.wordFlags code w l = (s, l.map fun wa => (wa, false)) := by
  induction l with
  | nil => rfl
  | cons wa l ih =>
    have h0 := h wa List.mem_cons_self
    have hr : s.readWord code wa w = (s, false) := by simp only [State.readWord, h0]
    simp only [State.wordFlags, hr, ih fun x hx => h x (List.mem_cons_of_mem _ hx), List.map_cons]

theorem mixBytes_same (pick : Nat → Nat) (k : Nat) (l : List Byte) : mixBytes pick k l l = l := by
  induction l generalizing k with
  | nil => rfl
  | cons a l ih => simp [mixBytes, ih]

/-- A copy's source request to a memory of this chip that holds no error there (R123, R125). -/
theorem copyRead_clean {s : State} {w : Who} {ga n k code p : Nat} (hg : s.gaHere ga = true) (hh : gaHost ga = false)
    (ha : s.memAdmit w (s.stamp (gaLocal ga)) (gaLocal ga) n false = (s, .ok, code, p))
    (hx : ¬ (code = 0x64 ∧ 0x12000 ≤ p - 0x4000000 ∧ p - 0x4000000 < 0x20000)) (hc : s.clean code p n) (hu : s.spanUnknown code p n = false) :
    State.copyRead s s w ga n k = (s, .ok, (s.getBytes p n).map fun b => (b, false)) := by
  unfold State.copyRead
  dsimp only
  rw [hg, hh, memAdmit_place ha]
  simp only [Bool.not_false, Bool.and_self, ha, ne_eq, not_true, if_false]
  rw [if_neg hx, wordFlags_clean s code w _ hc]
  simp only [hu, Bool.false_and, Bool.false_eq_true, if_false, mixBytes_same, Bool.false_or, List.any_map]
  congr 2
  have hz (l : List Byte) (q : Byte × Nat → Bool) (hq : ∀ b, q b = false) : ((l.zip (List.range l.length)).map fun b => (b.1, q b)) = l.map fun b => (b, false) := by
    have : (fun b : Byte × Nat => (b.1, q b)) = (fun x : Byte => (x, false)) ∘ Prod.fst := by funext b; simp [hq]
    rw [this, ← List.map_map, List.map_fst_zip (by simp)]
  have := hz (s.getBytes p n) (fun b => (wordsOf (eccWord code) p n).any ((fun f : Nat × Bool => f.2 && decide (f.1 ≤ p + b.2) && decide (p + b.2 < f.1 + eccWord code)) ∘ fun wa => (wa, false)))
    (by intro b; simp)
  rw [getBytes_length] at this
  exact this

theorem getBytes_getD (s : State) (a n i : Nat) (h : i < n) : (s.getBytes a n).getD i 0 = s.getByte (a + i) := by
  induction n generalizing a i with
  | zero => omega
  | succ n ih =>
    rw [State.getBytes]
    rcases i with _ | i
    · rfl
    · rw [List.getD_cons_succ, ih (a + 1) i (by omega), show a + 1 + i = a + (i + 1) by omega]

theorem worse_ok : worse .ok .ok = .ok := by decide

end Sys2Proof.Machine
end

