-- ==== Sys2Proof/Laws/Tile.lean ====
section
/-! SUPPORT. What the shared operations behind the commands of tensor tiles do. -/

set_option linter.all false
set_option maxRecDepth 4000

namespace Sys2Proof.Machine

/-- What the engines of a tile need of its store, as they use it. -/
def State.storeOk (s : State) (u : Nat) : Prop :=
  (∀ wa, storeBase u ≤ wa → wa < storeBase u + 0x200000 → tget 0 s.ecc wa = 0) ∧ u ∉ s.unknown ∧ u ∉ s.fwArmed ∧ s.on R.MEM_INJ_CTRL_ARM = false

theorem tget_none {α : Type} [DecidableEq α] (d : α) (l : List (Nat × α)) (k : Nat) (h : ∀ x ∈ l, x.1 ≠ k) : tget d l k = d := by
  induction l with
  | nil => rfl
  | cons a l ih =>
    obtain ⟨j, v⟩ := a
    have h1 := h (j, v) List.mem_cons_self
    unfold tget
    split
    · next he => exact absurd (by simpa using he) (fun e : j = k => h1 e)
    · exact ih fun x hx => h x (List.mem_cons_of_mem _ hx)

theorem storeOk_of_open {s : State} {u : Nat} (h : s.storeOpen u = true) : s.storeOk u := by
  unfold State.storeOpen at h
  simp only [Bool.and_eq_true, List.all_eq_true, Bool.or_eq_true, decide_eq_true_eq, Bool.not_eq_true', List.contains_eq_mem, decide_eq_false_iff_not] at h
  obtain ⟨⟨⟨h1, h2⟩, h3⟩, h4⟩ := h
  refine ⟨fun wa ha hb => tget_none _ _ _ fun x hx e => ?_, h2, h3, h4⟩
  have := h1 x hx
  omega

theorem storeOk_congr {s t : State} {u : Nat} (h : s.storeOk u) (he : ∀ x, tget 0 t.ecc x = tget 0 s.ecc x) (hu : t.unknown = s.unknown) (hf : t.fwArmed = s.fwArmed)
    (hi : t.on R.MEM_INJ_CTRL_ARM = s.on R.MEM_INJ_CTRL_ARM) : t.storeOk u :=
  ⟨fun wa ha hb => by rw [he]; exact h.1 wa ha hb, by rw [hu]; exact h.2.1, by rw [hf]; exact h.2.2.1, by rw [hi]; exact h.2.2.2⟩

theorem storeOk_clean {s : State} {u a n : Nat} (h : s.storeOk u) (ha : storeBase u ≤ a) (hb : a + n ≤ storeBase u + 0x200000) : s.clean u a n := by
  intro wa hwa
  obtain ⟨h1, h2, h3⟩ := mem_wordsOf (eccWord_pos u) hwa
  refine h.1 wa ?_ (by omega)
  have h8 : eccWord u ∣ storeBase u := by
    unfold eccWord storeBase; split
    · exact ⟨0x8000000 + 0x80000 * u, by omega⟩
    · exact ⟨0x4000000 + 0x40000 * u, by omega⟩
  obtain ⟨k, hk⟩ := h8
  obtain ⟨j, hj⟩ := Nat.dvd_of_mod_eq_zero h1
  by_contra hlt
  have : j < k := by
    by_contra hjk
    have := Nat.mul_le_mul_left (eccWord u) (Nat.le_of_not_lt hjk)
    omega
  have := Nat.mul_le_mul_left (eccWord u) (Nat.succ_le_of_lt this)
  rw [Nat.mul_succ] at this
  omega

theorem storeOk_allows {s : State} {u : Nat} (h : s.storeOk u) (a n : Nat) (w : Who) (wr : Bool) : s.fwAllows u a n w wr = true := by
  unfold State.fwAllows; simp [h.2.2.1]

/-- The pieces of a run, in order, are the run (R115). -/
theorem getBytes_lines64 (s : State) : ∀ (f a n : Nat), (n = 0 ∨ n + a % 64 ≤ 64 * f) → ((lines64 f a n).map fun p => s.getBytes p.1 p.2).flatten = s.getBytes a n
  | 0, a, n, h => by
    have : n = 0 := by omega
    subst this; rfl
  | f + 1, a, n, h => by
    unfold lines64
    split
    · next h0 => subst h0; rfl
    · dsimp only
      have hf : n - min n (64 - a % 64) = 0 ∨ n - min n (64 - a % 64) + (a + min n (64 - a % 64)) % 64 ≤ 64 * f := by
        rcases Nat.le_total n (64 - a % 64) with h1 | h1
        · rw [Nat.min_eq_left h1]; omega
        · rw [Nat.min_eq_right h1]; omega
      rw [List.map_cons, List.flatten_cons, getBytes_lines64 s f _ _ hf]
      have hap : ∀ (m k a : Nat), s.getBytes a (m + k) = s.getBytes a m ++ s.getBytes (a + m) k := by
        intro m
        induction m with
        | zero => intro k a; rw [Nat.zero_add]; rfl
        | succ m ih => intro k a; rw [Nat.succ_add]; simp only [State.getBytes, List.cons_append]; rw [ih, show a + 1 + m = a + (m + 1) by omega]
      rw [← hap, Nat.add_sub_cancel' (Nat.min_le_left _ _)]

theorem lines64_in : ∀ (f a n : Nat) (p : Nat × Nat), p ∈ lines64 f a n → a ≤ p.1 ∧ p.1 + p.2 ≤ a + n
  | 0, _, _, _, h => by cases h
  | f + 1, a, n, p, h => by
    unfold lines64 at h
    split at h
    · cases h
    · dsimp only at h
      rcases List.mem_cons.mp h with rfl | h
      · exact ⟨Nat.le_refl _, by dsimp only; omega⟩
      · have := lines64_in f _ _ p h
        omega

theorem engReads_ok {s : State} {u : Nat} {w : Who} (hs : s.storeOk u) : ∀ (l : List (Nat × Nat)), (∀ p ∈ l, storeBase u ≤ p.1 ∧ p.1 + p.2 ≤ storeBase u + 0x200000) →
    s.engReads u w l = (s, .ok, (l.map fun p => s.getBytes p.1 p.2).flatten)
  | [], _ => rfl
  | (a, n) :: l, h => by
    have h1 := h (a, n) List.mem_cons_self
    have hu : s.spanUnknown u a n = false := by
      unfold State.spanUnknown
      rw [show s.unknown.contains u = false by simpa using hs.2.1]; rfl
    unfold State.engReads
    rw [if_pos (storeOk_allows hs a n w false), readMem_clean (storeOk_clean hs h1.1 h1.2) hu]
    dsimp only
    rw [if_pos rfl, engReads_ok hs l fun p hp => h p (List.mem_cons_of_mem _ hp)]
    rfl

theorem engRead_ok {s : State} {u : Nat} {w : Who} (hs : s.storeOk u) {o n : Nat} (h : o + n ≤ 0x200000) : s.engRead u w o n = (s, .ok, s.getBytes (storeBase u + o) n) := by
  unfold State.engRead
  rw [engReads_ok hs _ fun p hp => by have := lines64_in _ _ _ p hp; omega, getBytes_lines64 s _ _ _ (by omega)]

theorem engReadRows_ok {s : State} {u : Nat} {w : Who} (hs : s.storeOk u) : ∀ (l : List (Nat × Nat)), (∀ p ∈ l, p.1 + p.2 ≤ 0x200000) →
    s.engReadRows u w l = (s, .ok, l.map fun p => s.getBytes (storeBase u + p.1) p.2)
  | [], _ => rfl
  | (o, n) :: l, h => by
    unfold State.engReadRows
    rw [engRead_ok hs (h (o, n) List.mem_cons_self)]
    dsimp only
    rw [engReadRows_ok hs l fun p hp => h p (List.mem_cons_of_mem _ hp)]
    rfl

theorem runs_le {l : List (Int × Nat)} (h : runsOk l = true) : ∀ p ∈ natRuns l, p.1 + p.2 ≤ 0x200000 := by
  intro p hp
  unfold natRuns at hp
  obtain ⟨r, hr, rfl⟩ := List.mem_map.mp hp
  have := List.all_eq_true.mp h r hr
  unfold inStore at this
  simp only [Bool.and_eq_true, decide_eq_true_eq] at this
  dsimp only
  omega

/-- What the state holds beside the memory after stores to a tile's store. -/
def StoreEq (s t : State) : Prop :=
  t = { s with mem := t.mem, ecc := t.ecc, wb := t.wb, resv := t.resv, units := t.units, sigs := t.sigs } ∧ ∀ x, tget 0 t.ecc x = tget 0 s.ecc x

theorem StoreEq.refl (s : State) : StoreEq s s := ⟨rfl, fun _ => rfl⟩
theorem StoreEq.trans {s t v : State} (h : StoreEq s t) (k : StoreEq t v) : StoreEq s v := by
  refine ⟨?_, fun x => (k.2 x).trans (h.2 x)⟩
  exact k.1.trans (congrArg (fun x : State => { x with mem := v.mem, ecc := v.ecc, wb := v.wb, resv := v.resv, units := v.units, sigs := v.sigs }) h.1)
theorem StoreEq.ok {s t : State} {u : Nat} (h : StoreEq s t) (k : s.storeOk u) : t.storeOk u := by
  refine storeOk_congr k h.2 ?_ ?_ (on_congr ?_ _) <;> rw [h.1]

theorem sign_upd (s : State) (a b c d : Nat) (l : List Byte) : ∃ g, s.sign a b c d l = { s with sigs := g } := by
  unfold State.sign; split
  · exact ⟨s.sigs, rfl⟩
  · exact ⟨_, rfl⟩

/-- Pieces of a run are stored. -/
theorem engWrites_ok {u : Nat} {w : Who} {step row : Nat} : ∀ (f a : Nat) (l : List Byte) (s : State), s.storeOk u → (l.length = 0 ∨ l.length + a % 64 ≤ 64 * f) → storeBase u ≤ a →
    a + l.length ≤ storeBase u + 0x200000 →
    (s.engWrites u w step row (lines64 f a l.length) l).2 = .ok ∧ StoreEq s (s.engWrites u w step row (lines64 f a l.length) l).1 ∧
    ∀ b, (s.engWrites u w step row (lines64 f a l.length) l).1.getByte b = if a ≤ b ∧ b < a + l.length then l.getD (b - a) 0 else s.getByte b
  | 0, a, l, s, hs, h, h1, h2 => by
    have : l.length = 0 := by omega
    obtain rfl := List.length_eq_zero_iff.mp this
    exact ⟨rfl, StoreEq.refl s, fun b => by rw [if_neg (by simp)]; rfl⟩
  | f + 1, a, l, s, hs, h, h1, h2 => by
    unfold lines64
    split
    · next h0 =>
      exact ⟨rfl, StoreEq.refl s, fun b => by rw [if_neg (by omega)]; rfl⟩
    · next h0 =>
      dsimp only
      generalize hk : min l.length (64 - a % 64) = k
      have hkl : k ≤ l.length := by omega
      have hlt : (l.take k).length = k := by rw [List.length_take]; omega
      unfold State.engWrites
      rw [if_pos (storeOk_allows hs a k w true)]
      dsimp only
      obtain ⟨w1, w2, w3, -, w5⟩ := writeMem_clean (s := s) (code := u) (a := a) (data := l.take k) (w := w) (storeOk_clean hs h1 (by rw [hlt]; omega)) hs.2.2.2
      generalize s.writeMem u a (l.take k) w = q at *
      obtain ⟨q, st⟩ := q
      dsimp only at *
      subst w1
      obtain ⟨g, hg⟩ := sign_upd q u step row a (l.take k)
      rw [hg]
      have e1 : StoreEq s { q with sigs := g } := ⟨by
        show ({ q with sigs := g } : State) = _
        exact congrArg (fun x : State => { x with sigs := g }) w5, w3⟩
      have hd : (l.drop k).length = l.length - k := List.length_drop
      obtain ⟨i1, i2, i3⟩ := engWrites_ok f (a + k) (l.drop k) { q with sigs := g } (e1.ok hs) (by rw [hd]; rcases Nat.le_total l.length (64 - a % 64) with h1 | h1 <;> omega) (by omega) (by rw [hd]; omega)
      rw [hd] at i1 i2 i3
      refine ⟨by rw [i1]; rfl, e1.trans i2, fun b => ?_⟩
      rw [i3, show State.getByte { q with sigs := g } b = q.getByte b from rfl, w2, hlt]
      by_cases c1 : a + k ≤ b ∧ b < a + k + (l.length - k)
      · rw [if_pos c1, if_pos (by omega), List.getD_eq_getElem?_getD, List.getD_eq_getElem?_getD, List.getElem?_drop, show k + (b - (a + k)) = b - a by omega]
      · rw [if_neg c1]
        by_cases c2 : a ≤ b ∧ b < a + k
        · rw [if_pos c2, if_pos (by omega), List.getD_eq_getElem?_getD, List.getD_eq_getElem?_getD, List.getElem?_take, if_pos (by omega)]
        · rw [if_neg c2, if_neg (by omega)]

/-- Two runs of a list share no byte. -/
def RunsApart (d : List (Nat × List Byte)) : Prop := d.Pairwise fun x y => x.1 + x.2.length ≤ y.1 ∨ y.1 + y.2.length ≤ x.1

theorem engWriteRows_ok {u : Nat} {w : Who} {step row : Nat} : ∀ (d : List (Nat × List Byte)) (s : State), s.storeOk u → (∀ r ∈ d, r.1 + r.2.length ≤ 0x200000) → RunsApart d →
    (s.engWriteRows u w step row d).2 = .ok ∧ StoreEq s (s.engWriteRows u w step row d).1 ∧ RowsStored s (s.engWriteRows u w step row d).1 u d
  | [], s, _, _, _ => ⟨rfl, StoreEq.refl s, (⟨fun _ h => absurd h List.not_mem_nil, fun _ _ => rfl⟩ : RowsStored s s u [])⟩
  | (o, l) :: d, s, hs, hb, ha => by
    unfold State.engWriteRows
    dsimp only
    have hb1 := hb (o, l) List.mem_cons_self
    dsimp only at hb1
    obtain ⟨e1, e2, e3⟩ := engWrites_ok (u := u) (w := w) (step := step) (row := row) (l.length / 64 + 2) (storeBase u + o) l s hs (by omega) (by omega) (by omega)
    generalize s.engWrites u w step row (lines64 (l.length / 64 + 2) (storeBase u + o) l.length) l = q at *
    obtain ⟨q, st⟩ := q
    dsimp only at *
    subst e1
    have hp := List.pairwise_cons.mp ha
    obtain ⟨i1, i2, i3, i4⟩ := engWriteRows_ok (w := w) (step := step) (row := row) d q (e2.ok hs) (fun r hr => hb r (List.mem_cons_of_mem _ hr)) hp.2
    refine ⟨by rw [i1]; rfl, e2.trans i2, fun r hr j hj => ?_, fun x hx => ?_⟩
    · rcases List.mem_cons.mp hr with rfl | hr
      · rw [i4 _ fun y hy => ?_, e3, if_pos (by dsimp only at *; omega)]
        · congr 1; dsimp only at *; omega
        · have := hp.1 y hy
          dsimp only at *; omega
      · exact i3 r hr j hj
    · rw [i4 x fun y hy => hx y (List.mem_cons_of_mem _ hy), e3, if_neg]
      have := hx (o, l) List.mem_cons_self
      dsimp only at this; omega

theorem getBytes_mem {s t : State} (hm : t.mem = s.mem) (hu : t.unknown = s.unknown) (hl : t.lostPages = s.lostPages) (a n : Nat) : t.getBytes a n = s.getBytes a n :=
  getBytes_congr fun b _ _ => getByte_congr hm hu hl b

/-- The parameter block of a row is there (R156). -/
theorem paramBlock_ok {s : State} {u : Nat} (c : Nat) (w : Who) (hs : s.storeOk u) : ∃ y, s.paramBlock u c w = ({ s with ctxs := y }, .ok, s.blockOf u c) ∧
    State.ctx { s with ctxs := y } u c = { s.ctx u c with param := s.blockOf u c } := by
  unfold State.paramBlock State.blockOf
  dsimp only
  by_cases h : (s.ctx u c).param ≠ []
  · rw [if_pos h, if_pos h]; exact ⟨s.ctxs, rfl, rfl⟩
  · have hb : bits (rowPayload (s.ctx u c).row) 6 15 * 64 + 64 ≤ 0x200000 := by have := bits_lt (rowPayload (s.ctx u c).row) 6 15; omega
    rw [if_neg h, if_neg h, engRead_ok hs hb]
    exact ⟨_, rfl, State.setCtx_ctx s u c { s.ctx u c with param := s.getBytes (storeBase u + bits (rowPayload (s.ctx u c).row) 6 15 * 64) 64 }⟩

theorem leBytes_length (n x : Nat) : (leBytes n x).length = n := by
  induction n generalizing x with
  | zero => rfl
  | succ n ih => simp [leBytes, ih]

/-- The bytes of a run of elements (R155). -/
theorem packElems_length (code : Nat) (h : fmtBits code % 8 = 0 ∨ (code = 2 ∧ fmtBits code = 4)) : ∀ l : List Nat, (packElems code l).length = elemBytes code l.length
  | [] => by unfold packElems elemBytes; simp
  | [a] => by
    unfold packElems elemBytes
    rcases h with h | ⟨h, h'⟩
    · split
      · next e => subst e; exact absurd h (by decide)
      · rw [leBytes_length]; simp; omega
    · subst h; rw [if_pos rfl, h']; simp
  | a :: b :: l => by
    unfold packElems
    rcases h with h | ⟨h, h'⟩
    · split
      · next e => subst e; exact absurd h (by decide)
      · rw [List.length_append, leBytes_length, packElems_length code (.inl h) (b :: l)]
        unfold elemBytes
        obtain ⟨k, hk⟩ := Nat.dvd_of_mod_eq_zero h
        rw [hk]
        simp only [List.length_cons]
        have e1 : (l.length + 1 + 1) * (8 * k) = 8 * (k * (l.length + 1)) + 8 * k := by ring
        have e2 : (l.length + 1) * (8 * k) = 8 * (k * (l.length + 1)) := by ring
        rw [e1, e2]; omega
    · subst h
      rw [if_pos rfl, List.length_cons, packElems_length 2 (.inr ⟨rfl, h'⟩) l]
      unfold elemBytes
      rw [h']; simp only [List.length_cons]; omega

theorem fmtBits_ok {code : Nat} (h : code ≤ 10) : fmtBits code % 8 = 0 ∨ (code = 2 ∧ fmtBits code = 4) := by
  interval_cases code <;> decide

/-- Rows of one length at offsets of the store that do not overlap. -/
theorem rows_apart {α : Type} {base : Int} {sd n len : Nat} (hr : runsOk ((rowOffsets base sd n).map fun o => (o, len)) = true) (hsd : len ≤ sd ∨ n = 1) (els : List α)
    (g : Nat × Nat → α → List Byte) (hg : ∀ r, ∀ e ∈ els, (g r e).length = len) :
    RunsApart (List.zipWith (fun r e => (r.1, g r e)) (natRuns ((rowOffsets base sd n).map fun o => (o, len))) els) ∧
    ∀ x ∈ List.zipWith (fun r e => (r.1, g r e)) (natRuns ((rowOffsets base sd n).map fun o => (o, len))) els, x.1 + x.2.length ≤ 0x200000 := by
  have hlen : (natRuns ((rowOffsets base sd n).map fun o => (o, len))).length = n := by simp [natRuns, rowOffsets]
  have hget : ∀ j (h : j < n), (natRuns ((rowOffsets base sd n).map fun o => (o, len)))[j]'(by rw [hlen]; exact h) = ((base + ((j * sd : Nat) : Int)).toNat, len) := by
    intro j h; simp [natRuns, rowOffsets]
  have hin : ∀ j < n, 0 ≤ base + ((j * sd : Nat) : Int) ∧ base + ((j * sd : Nat) : Int) + len ≤ 0x200000 := by
    intro j hj
    have := List.all_eq_true.mp hr (base + ((j * sd : Nat) : Int), len) (by
      simp only [rowOffsets, List.map_map, List.mem_map, List.mem_range, Function.comp]; exact ⟨j, hj, rfl⟩)
    unfold inStore at this
    simp only [Bool.and_eq_true, decide_eq_true_eq] at this
    omega
  constructor
  · unfold RunsApart
    rw [List.pairwise_iff_getElem]
    intro p q hp hq hpq
    simp only [List.length_zipWith, hlen] at hp hq
    simp only [List.getElem_zipWith, hget p (by omega), hget q (by omega), hg _ _ (List.getElem_mem _)]
    left
    have h1 := hin p (by omega)
    have h2 := hin q (by omega)
    rcases hsd with h | h
    · have h3 : p * sd + sd ≤ q * sd := by
        have := Nat.mul_le_mul_right sd (Nat.succ_le_of_lt hpq)
        rwa [Nat.succ_mul] at this
      omega
    · omega
  · intro x hx
    obtain ⟨j, hj, rfl⟩ := List.mem_iff_getElem.mp hx
    simp only [List.length_zipWith, hlen] at hj
    simp only [List.getElem_zipWith, hget j (by omega), hg _ _ (List.getElem_mem _)]
    have h1 := hin j (by omega)
    omega

/-- Flags of a row change the flags and the log alone (R177). -/
theorem raise_upd (s : State) (u c : Nat) (v : Bool) (fl : Nat) : (∃ r, s.raise u c v fl = { s with regs := r }) ∧ RegsBut (tileFlagFlds u) s (s.raise u c v fl) ∧ s.raise u c v 0 = s := by
  refine ⟨?_, ?_, rfl⟩
  · unfold State.raise
    split
    · exact ⟨s.regs, rfl⟩
    · dsimp only
      have h1 : ∀ (t : State) (b : Bool) (f : Fld), (∃ r, t = { s with regs := r }) → ∃ r, t.flag b f = { s with regs := r } := by
        rintro t b f ⟨r, rfl⟩; exact ⟨_, State.flag_upd _ _ _⟩
      obtain ⟨r, hr⟩ := h1 _ (bit fl 4) (R.TILE_FLAGS_SAT_INT u) (h1 _ (bit fl 3) (R.TILE_FLAGS_UNDERFLOW u) (h1 _ (bit fl 2) (R.TILE_FLAGS_OVERFLOW u)
        (h1 _ (bit fl 1) (R.TILE_FLAGS_DIVZERO u) (h1 s (bit fl 0) (R.TILE_FLAGS_INVALID u) ⟨s.regs, rfl⟩))))
      rw [hr]
      split
      · exact ⟨_, rfl⟩
      · rw [State.wrAll_upd]; exact ⟨_, rfl⟩
  · unfold State.raise
    split
    · exact RegsBut.refl _ _
    · dsimp only
      unfold tileFlagFlds
      split
      · simp
      · simp

theorem tile_inj (u : Nat) : R.MEM_INJ_CTRL_ARM.key ∉ (tileFlagFlds u).map Fld.key := by
  simp [tileFlagFlds, R.MEM_INJ_CTRL_ARM, R.TILE_FLAGS_INVALID, R.TILE_FLAGS_DIVZERO, R.TILE_FLAGS_OVERFLOW, R.TILE_FLAGS_UNDERFLOW, R.TILE_FLAGS_SAT_INT, R.TILE_FLAG_LOG_CONTEXT,
    R.TILE_FLAG_LOG_ROW, R.TILE_FLAG_LOG_ENGINE, R.TILE_FLAG_LOG_ITER, R.TILE_FLAG_LOG_VALID]
  omega

/-- Flags and stores of a row of a tile. -/
theorem tileStore {s s0 : State} {u c : Nat} {w : Who} {y tl} (hs : s.storeOk u) (h0 : s0 = { s with ctxs := y, tiles := tl }) (v : Bool) (fl step row : Nat) (d : List (Nat × List Byte))
    (ha : RunsApart d) (hd : ∀ r ∈ d, r.1 + r.2.length ≤ 0x200000) : ((s0.raise u c v fl).engWriteRows u w step row d).2 = .ok ∧
    ∃ r m e b rv un sg, ((s0.raise u c v fl).engWriteRows u w step row d).1 = { s with regs := r, ctxs := y, tiles := tl, mem := m, ecc := e, wb := b, resv := rv, units := un, sigs := sg } ∧
      (fl = 0 → r = s.regs) ∧ RegsBut (tileFlagFlds u) s { s with regs := r } ∧ RowsStored s { s with mem := m } u d := by
  obtain ⟨⟨r, hr⟩, hrb, hr0⟩ := raise_upd s0 u c v fl
  subst h0
  have hz : fl = 0 → r = s.regs := by
    rintro rfl
    have := hr.symm.trans hr0
    exact congrArg State.regs this
  generalize hs1 : State.raise _ u c v fl = s1 at *
  have hok : s1.storeOk u := by
    have : s1.on R.MEM_INJ_CTRL_ARM = s.on R.MEM_INJ_CTRL_ARM := hrb.on (tile_inj u)
    refine storeOk_congr hs (fun x => ?_) ?_ ?_ this <;> rw [hr]
  obtain ⟨w1, w2, w3⟩ := engWriteRows_ok (w := w) (step := step) (row := row) d _ hok hd ha
  generalize (State.engWriteRows s1 u w step row d).1 = q at *
  have hq1 := w2.1
  clear hs1 hok w2
  subst hr
  have hg : ∀ a, State.getByte { s with mem := q.mem } a = q.getByte a := fun a => getByte_congr (s := q) (t := { s with mem := q.mem }) rfl (by rw [hq1]) (by rw [hq1]) a
  refine ⟨w1, r, _, _, _, _, _, _, hq1, hz, hrb, ?_⟩
  exact ⟨fun r hr j hj => (hg _).trans (w3.1 r hr j hj), fun x hx => (hg x).trans (w3.2 x hx)⟩

/-- The end of a row of a tile: busy cycles, flags, stores, report. -/
theorem tileEnd {s : State} {u c : Nat} {w : Who} {y : List (Nat × CtxInt)} (hs : s.storeOk u) (x : TileSt) (v : Bool) (fl step row oc : Nat) (d : List (Nat × List Byte))
    (ha : RunsApart d) (hd : ∀ r ∈ d, r.1 + r.2.length ≤ 0x200000) (t : State)
    (ht : t = ((((State.setTile { s with ctxs := y } u x).raise u c v fl).engWriteRows u w step row d).1.report_ u c (((State.setTile { s with ctxs := y } u x).raise u c v fl).engWriteRows u w step row d).2 oc)) :
    t.ctx u c = { State.ctx { s with ctxs := y } u c with result := some (.ok, oc) } ∧ RowsStored s t u d ∧ t.tile u = x ∧ (∀ z, z ≠ u → t.tile z = s.tile z) ∧
    (fl = 0 → RegsBut [] s t) ∧ RegsBut (tileFlagFlds u) s t ∧
    t = { s with regs := t.regs, mem := t.mem, ecc := t.ecc, wb := t.wb, resv := t.resv, units := t.units, sigs := t.sigs, tiles := t.tiles, ctxs := t.ctxs } := by
  obtain ⟨tl, e0, et1, et2⟩ : ∃ tl, State.setTile { s with ctxs := y } u x = { s with ctxs := y, tiles := tl } ∧ tget {} tl u = x ∧ ∀ z, z ≠ u → tget {} tl z = s.tile z :=
    ⟨_, rfl, tget_tset_same _ _ _ _, fun z hz => tget_tset_ne _ _ _ hz⟩
  obtain ⟨w1, r, m, e, b, rv, un, sg, hq, hz, hrb, h3⟩ := tileStore (c := c) (w := w) hs e0 v fl step row d ha hd
  rw [w1, hq] at ht
  clear hq w1 e0
  have htx : t.ctx u c = { State.ctx { s with ctxs := y } u c with result := some (.ok, oc) } := by
    rw [ht]
    exact State.setCtx_ctx _ _ _ _
  unfold State.report_ at ht
  rw [State.setCtx_upd] at ht
  dsimp only at ht
  generalize State.ctxs (State.setCtx _ _ _ _) = cx at ht
  subst ht
  refine ⟨htx, ⟨h3.1, h3.2⟩, et1, et2, fun h0 => ?_, hrb, rfl⟩
  exact fun f _ => by unfold State.rd; dsimp only; rw [hz h0]

/-- A VEC iteration up to its stores. -/
theorem vec_eq {s : State} {op u c : Nat} (ho : s.storeOpen u = true) (hv : vecRunnable op (s.blockOf u c) (s.rd (R.CTX_PC_ITER (win u) c)) = true) :
    ∃ y w, State.ctx { s with ctxs := y } u c = { s.ctx u c with param := s.blockOf u c } ∧
    (let b := vecBlk (s.blockOf u c) (s.rd (R.CTX_PC_ITER (win u) c))
     let e := s.vecElems op u c (s.rd (R.CTX_PC_ITER (win u) c))
     let fl := e.foldl (fun a r => r.foldl (fun a e => a ||| e.2) a) 0
     let d := List.zipWith (fun r e => (r.1, b.packRow op (s.getByte (storeBase u + r.1)) (e.map fun q => q.1))) (natRuns (b.runsD op)) e
     let x : TileSt := { s.tile u with vecBusy := satAdd 64 (s.tile u).vecBusy (b.cycles op) }
     let oc := if b.outEn ∧ max 1 b.thr ≤ e.foldl (fun a r => r.foldl (fun a e => if nonZeroElem b.fd e.1 then a + 1 else a) a) 0 then 1 else 0
     s.vec op u c = ((((State.setTile { s with ctxs := y } u x).raise u c true fl).engWriteRows u w (s.ctx u c).step (State.rd s (R.CTX_PC_PC (win u) c)) d).1.report_ u c
       (((State.setTile { s with ctxs := y } u x).raise u c true fl).engWriteRows u w (s.ctx u c).step (State.rd s (R.CTX_PC_PC (win u) c)) d).2 oc)) := by
  have hs := storeOk_of_open ho
  obtain ⟨y, hp, hx⟩ := paramBlock_ok c (s.rowWho u c (rowClass (s.ctx u c).row)) hs
  have hs' : State.storeOk { s with ctxs := y } u := hs
  have hgb : ∀ a n, State.getBytes { s with ctxs := y } a n = s.getBytes a n := getBytes_mem rfl rfl rfl
  unfold vecRunnable at hv
  simp only [Bool.and_eq_true] at hv
  obtain ⟨⟨⟨⟨⟨v1, v2⟩, v3⟩, v4⟩, v5⟩, v6⟩ := hv
  refine ⟨y, s.rowWho u c (rowClass (s.ctx u c).row), hx, ?_⟩
  dsimp only
  unfold State.vec
  dsimp only
  rw [hp]
  dsimp only
  simp only [ne_eq, not_true_eq_false, if_false, v1, v2, v3, v4, v5, Bool.not_true, Bool.or_self, Bool.false_eq_true]
  have rA := engReadRows_ok (w := s.rowWho u c (rowClass (s.ctx u c).row)) hs' _ (runs_le v2)
  have rB := engReadRows_ok (w := s.rowWho u c (rowClass (s.ctx u c).row)) hs' _ (runs_le v3)
  have rC := engReadRows_ok (w := s.rowWho u c (rowClass (s.ctx u c).row)) hs' _ (runs_le v4)
  simp only [rA, rB, rC, hgb, worse, if_true, reduceCtorEq, if_false, not_true_eq_false, ne_eq]
  unfold State.vecElems State.rowsOfStore
  rfl

/-- The length of a row of results in the store. -/
theorem packRow_length {s : State} {op u c it : Nat} (old : Byte) (h : vecValid op (s.blockOf u c) = true) : ∀ e ∈ s.vecElems op u c it,
    ((vecBlk (s.blockOf u c) it).packRow op old (e.map fun q => q.1)).length = elemBytes (vecBlk (s.blockOf u c) it).fd (if vecReduces op then 1 else (vecBlk (s.blockOf u c) it).l) := by
  intro e he
  have hfd : (vecBlk (s.blockOf u c) it).fd ≤ 10 := by
    rw [show (vecBlk (s.blockOf u c) it).fd = (vecBlk (s.blockOf u c) 0).fd from rfl]
    unfold vecValid fmtReserved at h
    simp only [Bool.and_eq_true, Bool.not_eq_true', decide_eq_false_iff_not] at h
    omega
  have hel : e.length = if vecReduces op then 1 else (vecBlk (s.blockOf u c) it).l := by
    unfold State.vecElems at he
    dsimp only at he
    obtain ⟨k, -, rfl⟩ := List.mem_map.mp he
    split <;> simp
  unfold VecBlk.packRow
  split
  · next h => rw [h.1, h.2]; simp [elemBytes, fmtBits]
  · rw [packElems_length _ (fmtBits_ok hfd), List.length_map, hel]

/-- A VEC iteration (R166 to R178). -/
theorem vec_done {s : State} {op u c : Nat} (ho : s.storeOpen u = true) (hv : vecRunnable op (s.blockOf u c) (s.rd (R.CTX_PC_ITER (win u) c)) = true) :
    VecDone op s u c (s.vec op u c) := by
  obtain ⟨y, w, hx, hdef⟩ := vec_eq ho hv
  unfold vecRunnable at hv
  simp only [Bool.and_eq_true] at hv
  obtain ⟨⟨⟨⟨⟨v1, v2⟩, v3⟩, v4⟩, v5⟩, v6⟩ := hv
  obtain ⟨ap, ab⟩ := rows_apart v5 (by simpa using v6) (s.vecElems op u c (s.rd (R.CTX_PC_ITER (win u) c)))
    (fun r e => (vecBlk (s.blockOf u c) (s.rd (R.CTX_PC_ITER (win u) c))).packRow op (s.getByte (storeBase u + r.1)) (e.map fun q => q.1)) (fun r => packRow_length _ v1)
  obtain ⟨q1, q2⟩ := tileEnd (s := s) (u := u) (c := c) (y := y) (storeOk_of_open ho) _ _ _ _ _ _ _ ap ab _ hdef
  rw [hx] at q1
  exact ⟨q1, q2⟩

/-- An MMA iteration up to its stores. -/
theorem mma_eq {s : State} {u c : Nat} (ho : s.storeOpen u = true) (hv : mmaRunnable (s.blockOf u c) (s.rd (R.CTX_PC_ITER (win u) c)) = true) :
    ∃ y w, State.ctx { s with ctxs := y } u c = { s.ctx u c with param := s.blockOf u c } ∧
    (let b := mmaBlk (s.blockOf u c) (s.rd (R.CTX_PC_ITER (win u) c))
     let e := s.mmaCells u c (s.rd (R.CTX_PC_ITER (win u) c))
     let fl := e.foldl (fun a r => r.foldl (fun a e => a ||| e.2) a) 0
     let d := List.zipWith (fun r e => (r.1, packElems b.fd (e.map fun q => q.1))) (natRuns b.runsD) e
     let x : TileSt := { s.tile u with macBusy := satAdd 64 (s.tile u).macBusy b.cycles }
     s.mma u c = ((((State.setTile { s with ctxs := y } u x).raise u c false fl).engWriteRows u w (s.ctx u c).step (State.rd s (R.CTX_PC_PC (win u) c)) d).1.report_ u c
       (((State.setTile { s with ctxs := y } u x).raise u c false fl).engWriteRows u w (s.ctx u c).step (State.rd s (R.CTX_PC_PC (win u) c)) d).2 0)) := by
  have hs := storeOk_of_open ho
  obtain ⟨y, hp, hx⟩ := paramBlock_ok c (s.rowWho u c (rowClass (s.ctx u c).row)) hs
  have hs' : State.storeOk { s with ctxs := y } u := hs
  have hgb : ∀ a n, State.getBytes { s with ctxs := y } a n = s.getBytes a n := getBytes_mem rfl rfl rfl
  unfold mmaRunnable at hv
  simp only [Bool.and_eq_true] at hv
  obtain ⟨⟨⟨⟨v1, v2⟩, v3⟩, v4⟩, v5⟩ := hv
  refine ⟨y, s.rowWho u c (rowClass (s.ctx u c).row), hx, ?_⟩
  dsimp only
  unfold State.mma
  dsimp only
  rw [hp]
  dsimp only
  simp only [ne_eq, not_true_eq_false, if_false, v1, v2, v3, v4, v5, Bool.not_true, Bool.or_self, Bool.false_eq_true]
  have rA := engReadRows_ok (w := s.rowWho u c (rowClass (s.ctx u c).row)) hs' _ (runs_le v2)
  have rB := engReadRows_ok (w := s.rowWho u c (rowClass (s.ctx u c).row)) hs' _ (runs_le v3)
  have rC := engReadRows_ok (w := s.rowWho u c (rowClass (s.ctx u c).row)) hs' _ (runs_le v4)
  simp only [rA, rB, rC, hgb, worse, if_true, reduceCtorEq, if_false, not_true_eq_false, ne_eq]
  unfold State.mmaCells State.rowsOfStore
  rfl

/-- An MMA iteration (R156 to R165). -/
theorem mma_done {s : State} {u c : Nat} (ho : s.storeOpen u = true) (hv : mmaRunnable (s.blockOf u c) (s.rd (R.CTX_PC_ITER (win u) c)) = true) :
    MmaDone s u c (s.mma u c) := by
  obtain ⟨y, w, hx, hdef⟩ := mma_eq ho hv
  unfold mmaRunnable at hv
  simp only [Bool.and_eq_true] at hv
  obtain ⟨⟨⟨⟨v1, v2⟩, v3⟩, v4⟩, v5⟩ := hv
  have hf : (mmaBlk (s.blockOf u c) (s.rd (R.CTX_PC_ITER (win u) c))).fd = (mmaBlk (s.blockOf u c) 0).fd := rfl
  have hn : (mmaBlk (s.blockOf u c) (s.rd (R.CTX_PC_ITER (win u) c))).n = (mmaBlk (s.blockOf u c) 0).n := rfl
  have hsd : (mmaBlk (s.blockOf u c) (s.rd (R.CTX_PC_ITER (win u) c))).sd = (mmaBlk (s.blockOf u c) 0).sd := rfl
  have hfd : 5 ≤ (mmaBlk (s.blockOf u c) 0).fd ∧ (mmaBlk (s.blockOf u c) 0).fd ≤ 10 ∧
      (mmaBlk (s.blockOf u c) 0).n * (fmtBits (mmaBlk (s.blockOf u c) 0).fd / 8) ≤ (mmaBlk (s.blockOf u c) 0).sd := by
    unfold mmaValid at v1
    generalize mmaBlk (s.blockOf u c) 0 = b at *
    dsimp only at v1
    simp only [Bool.and_eq_true, decide_eq_true_eq] at v1
    have h1 := v1.1.1.1.1.1.1.2
    refine ⟨?_, ?_, v1.1.1.2⟩ <;>
    · split at h1 <;> simp only [beq_iff_eq, Bool.and_eq_true, decide_eq_true_eq] at h1 <;> omega
  have hle : elemBytes (mmaBlk (s.blockOf u c) (s.rd (R.CTX_PC_ITER (win u) c))).fd (mmaBlk (s.blockOf u c) (s.rd (R.CTX_PC_ITER (win u) c))).n ≤
      (mmaBlk (s.blockOf u c) (s.rd (R.CTX_PC_ITER (win u) c))).sd := by
    rw [hf, hn, hsd]
    refine Nat.le_trans ?_ hfd.2.2
    unfold elemBytes
    rcases fmtBits_ok hfd.2.1 with h | ⟨h, -⟩
    · obtain ⟨k, hk⟩ := Nat.dvd_of_mod_eq_zero h
      rw [hk, show (mmaBlk (s.blockOf u c) 0).n * (8 * k) = 8 * ((mmaBlk (s.blockOf u c) 0).n * k) by ring, Nat.mul_div_cancel_left k (by decide)]
      omega
    · omega
  obtain ⟨ap, ab⟩ := rows_apart v5 (.inl hle) (s.mmaCells u c (s.rd (R.CTX_PC_ITER (win u) c)))
    (fun _ e => packElems (mmaBlk (s.blockOf u c) (s.rd (R.CTX_PC_ITER (win u) c))).fd (e.map fun q => q.1)) (fun r e he => by
      rw [packElems_length _ (fmtBits_ok (by rw [hf]; exact hfd.2.1)), List.length_map]
      unfold State.mmaCells at he
      dsimp only at he
      obtain ⟨k, -, rfl⟩ := List.mem_map.mp he
      rw [List.length_map, List.length_range])
  obtain ⟨q1, q2⟩ := tileEnd (s := s) (u := u) (c := c) (y := y) (storeOk_of_open ho) _ _ _ _ _ _ _ ap ab _ hdef
  rw [hx] at q1
  exact ⟨q1, q2⟩

end Sys2Proof.Machine
end

