-- ==== Sys2Proof/Laws/Selector.lean ====
section
/-! SUPPORT. What the shared operations behind the commands of Selectors do. -/

set_option linter.all false
set_option maxRecDepth 4000

namespace Sys2Proof.Machine

/-- Flags and the count of a pass. -/
theorem selDone_regs (s : State) (u fl : Nat) (nan : Bool) : RegsBut (selFlds u) s (s.selDone u fl nan) ∧ (∃ r, s.selDone u fl nan = { s with regs := r }) ∧
    (s.selDone u fl nan).rd (R.SEL_PASSES_PASSES u) = satAdd 32 (s.rd (R.SEL_PASSES_PASSES u)) 1 := by
  unfold State.selDone
  have h1 : ∀ (t : State) (b : Bool) (f : Fld), (∃ r, t = { s with regs := r }) → ∃ r, t.flag b f = { s with regs := r } := by
    rintro t b f ⟨r, rfl⟩; exact ⟨_, State.flag_upd _ _ _⟩
  refine ⟨by unfold selFlds; simp, ?_, ?_⟩
  · obtain ⟨r, hr⟩ := h1 _ nan (R.SEL_FLAGS_NAN_SEEN u) (h1 _ (bit fl 1) (R.SEL_FLAGS_OVERFLOW u) (h1 s (bit fl 0) (R.SEL_FLAGS_INVALID u) ⟨s.regs, rfl⟩))
    rw [hr]; exact ⟨_, State.count_upd _ _ _⟩
  · have hf : ∀ (t : State) (b : Bool) (f : Fld), f.key ≠ (R.SEL_PASSES_PASSES u).key → (t.flag b f).rd (R.SEL_PASSES_PASSES u) = t.rd (R.SEL_PASSES_PASSES u) := by
      intro t b f h; unfold State.flag; split
      · exact State.rd_wr_ne _ _ (fun e => h e.symm)
      · rfl
    unfold State.count
    rw [State.rd_wr_same, hf _ _ _ (by simp only [R.SEL_PASSES_PASSES, R.SEL_FLAGS_NAN_SEEN]; omega), hf _ _ _ (by simp only [R.SEL_PASSES_PASSES, R.SEL_FLAGS_OVERFLOW]; omega),
      hf _ _ _ (by simp only [R.SEL_PASSES_PASSES, R.SEL_FLAGS_INVALID]; omega)]
    have : satAdd 32 (s.rd (R.SEL_PASSES_PASSES u)) 1 < 2 ^ 32 := by unfold satAdd; omega
    exact Nat.mod_eq_of_lt this

/-- One result of a Selector is stored, its flags raised. -/
theorem selStore {s : State} {u : Nat} {w : Who} {y : List (Nat × CtxInt)} (hs : s.storeOk u) (step row o fl : Nat) (nan : Bool) (l : List Byte) (h : o + l.length ≤ 0x200000) (q : State × Status)
    (hq : q = State.engWriteRows { s with ctxs := y } u w step row [(o, l)]) : q.2 = .ok ∧ ∃ r m e b rv un sg,
      q.1.selDone u fl nan = { s with regs := r, ctxs := y, mem := m, ecc := e, wb := b, resv := rv, units := un, sigs := sg } ∧ RegsBut (selFlds u) s { s with regs := r } ∧
      State.rd { s with regs := r } (R.SEL_PASSES_PASSES u) = satAdd 32 (s.rd (R.SEL_PASSES_PASSES u)) 1 ∧ RowsStored s { s with mem := m } u [(o, l)] := by
  have hs' : State.storeOk { s with ctxs := y } u := hs
  obtain ⟨w1, w2, w3⟩ := engWriteRows_ok (w := w) (step := step) (row := row) [(o, l)] { s with ctxs := y } hs' (by simpa using h) (List.pairwise_singleton _ _)
  rw [← hq] at w1 w2 w3
  have hq1 := w2.1
  have hg : ∀ a, State.getByte { s with mem := q.1.mem } a = q.1.getByte a := fun a => getByte_congr (s := q.1) (t := { s with mem := q.1.mem }) rfl (by rw [hq1]) (by rw [hq1]) a
  obtain ⟨d1, ⟨r, hr⟩, d3⟩ := selDone_regs q.1 u fl nan
  refine ⟨w1, r, q.1.mem, q.1.ecc, q.1.wb, q.1.resv, q.1.units, q.1.sigs, ?_, ?_, ?_, ?_⟩
  · rw [hr]; exact congrArg (fun x : State => { x with regs := r }) hq1
  · intro f hf
    have h2 := d1 f hf
    rw [hr] at h2
    have h3 : q.1.rd f = s.rd f := rd_congr (by rw [hq1]) f
    exact h2.trans h3
  · rw [hr] at d3
    have h3 : q.1.rd (R.SEL_PASSES_PASSES u) = s.rd (R.SEL_PASSES_PASSES u) := rd_congr (by rw [hq1]) _
    rw [h3] at d3
    exact d3
  · exact ⟨fun r hr j hj => (hg _).trans (w3.1 r hr j hj), fun x hx => (hg x).trans (w3.2 x hx)⟩

/-- The pass reads the source. -/
theorem selPass_ok {s s1 : State} {u : Nat} {w : Who} {y} (hs : s.storeOk u) (h1 : s1 = { s with ctxs := y }) {b : SelBlk} (h : b.srcOk = true) (x : Selection) :
    s1.selPass u w b x = (s1, .ok, x.pass b u (s.getBytes (storeBase u + b.src.toNat) (b.count * (fmtBits b.fmt / 8))) b.count) := by
  subst h1
  have hs' : State.storeOk { s with ctxs := y } u := hs
  have hle : b.src.toNat + b.count * (fmtBits b.fmt / 8) ≤ 0x200000 := by
    unfold SelBlk.srcOk inStore at h; simp only [Bool.and_eq_true, decide_eq_true_eq] at h; omega
  unfold State.selPass
  rw [engRead_ok hs' hle]
  dsimp only
  rw [getBytes_mem (s := s) (t := { s with ctxs := y }) rfl rfl rfl]

/-- The report of a SEL row. -/
theorem selReport {s t q : State} {u c : Nat} {y : List (Nat × CtxInt)} {x : CtxInt} {r m e b rv un sg} {l : List (Nat × List Byte)} (hx : State.ctx { s with ctxs := y } u c = x)
    (h : q = { s with regs := r, ctxs := y, mem := m, ecc := e, wb := b, resv := rv, units := un, sigs := sg }) (hr : RegsBut (selFlds u) s { s with regs := r })
    (hp : State.rd { s with regs := r } (R.SEL_PASSES_PASSES u) = satAdd 32 (s.rd (R.SEL_PASSES_PASSES u)) 1) (hm : RowsStored s { s with mem := m } u l) (ht : t = q.report_ u c .ok 0) :
    t.ctx u c = { x with result := some (.ok, 0) } ∧ RowsStored s t u l ∧ t.rd (R.SEL_PASSES_PASSES u) = satAdd 32 (s.rd (R.SEL_PASSES_PASSES u)) 1 ∧ RegsBut (selFlds u) s t ∧
    t = { s with regs := t.regs, mem := t.mem, ecc := t.ecc, wb := t.wb, resv := t.resv, units := t.units, sigs := t.sigs, ctxs := t.ctxs } := by
  subst h
  have hc : t.ctx u c = { x with result := some (.ok, 0) } := by
    rw [ht, ← hx]; exact State.setCtx_ctx _ _ _ _
  unfold State.report_ at ht
  rw [State.setCtx_upd] at ht
  dsimp only at ht
  generalize State.ctxs (State.setCtx _ _ _ _) = cx at ht
  subst ht
  exact ⟨hc, ⟨hm.1, hm.2⟩, hp, hr, rfl⟩

theorem leBytes_len (n x : Nat) : (leBytes n x).length = n := leBytes_length n x

/-- The length of a result record (R193). -/
theorem record_length (x : Selection) (b : SelBlk) (u : Nat) : (x.record b u).1.length = 128 + 8 * b.k := by
  unfold Selection.record
  dsimp only
  simp only [List.length_append, leBytes_length]
  have : ∀ (n : Nat) (f : Nat → List Byte), (∀ j, (f j).length = 8) → ((List.range n).map f).flatten.length = 8 * n := by
    intro n f hf
    induction n with
    | zero => rfl
    | succ n ih => rw [List.range_succ, List.map_append, List.flatten_append, List.length_append, ih]; simp [hf]; omega
  rw [this _ _ (fun j => by split <;> exact leBytes_length _ _)]

end Sys2Proof.Machine
end

