-- ==== Sys2Proof/Laws/Sequencer.lean ====
section
/-! SUPPORT. What the shared operations behind the commands of sequencers and token sinks do. -/

set_option linter.all false
set_option maxRecDepth 4000

namespace Sys2Proof.Machine

/-- A write of CTX_CTRL with one command bit (R77): what the command does to the state in which CEILING was written. -/
theorem writeCtxCtrl_open (s : State) (u c w : Nat) (o : Bool) : ∃ s0 : State, s0 = { s with regs := s0.regs } ∧ RegsBut [R.CTX_CTRL_CEILING (win u) c] s s0 ∧
    s.writeCtxCtrl u c w o = (let s1 := if bit w 3 then s0.ctxClearCmd u c else s0
      let s2 := if bit w 2 then s1.ctxStepCmd u c else if bit w 0 then s1.ctxStartCmd u c else s1
      if bit w 1 then s2.ctxHaltCmd u c else s2) := by
  refine ⟨if o then s.wr (R.CTX_CTRL_CEILING (win u) c) (bits w 4 2) else s, ?_, ?_, rfl⟩
  · split <;> rfl
  · exact regsBut_ite (by simp) (by simp)

/-- A taken write of CTX_CTRL with START alone among the commands. -/
theorem writeWin_start {s : State} {w : Who} {u b : Nat} (hb : windowOf u = some b) (hq : isSeq u = true) (c : Fin 16) (v : BitVec 32)
    (h : s.takes w (b + (0x100 + 0x10 * c)) (v ||| 1).toNat = true) (hv : bits v.toNat 1 3 = 0) :
    ∃ s0 : State, s0 = { s with regs := s0.regs } ∧ RegsBut [R.CTX_CTRL_CEILING b c] s s0 ∧
      s.writeWin w u (0x100 + 0x10 * c) (v ||| 1).toNat = (s0.ctxStartCmd u c).answers .ok 0 [] := by
  obtain ⟨o, e⟩ := writeWin_ctxCtrl hb hq c h
  obtain ⟨s0, h0, hr, e0⟩ := writeCtxCtrl_open s u c (v ||| 1).toNat o
  refine ⟨s0, h0, by rw [← win_eq hb]; exact hr, ?_⟩
  rw [e, bv32_mod, e0, bit_or, bit_or, bit_or, bit_or, (bits3_zero hv).1, (bits3_zero hv).2.1, (bits3_zero hv).2.2]
  simp only [show bit (1 : BitVec 32).toNat 0 = true by decide, show bit (1 : BitVec 32).toNat 1 = false by decide, show bit (1 : BitVec 32).toNat 2 = false by decide,
    show bit (1 : BitVec 32).toNat 3 = false by decide, Bool.or_false, Bool.or_true, Bool.false_eq_true, if_false, if_true]

/-- The same with HALT alone. -/
theorem writeWin_halt {s : State} {w : Who} {u b : Nat} (hb : windowOf u = some b) (hq : isSeq u = true) (c : Fin 16) (v : BitVec 32)
    (h : s.takes w (b + (0x100 + 0x10 * c)) (v ||| 2).toNat = true) (hv : bit v.toNat 0 = false ∧ bit v.toNat 2 = false ∧ bit v.toNat 3 = false) :
    ∃ s0 : State, s0 = { s with regs := s0.regs } ∧ RegsBut [R.CTX_CTRL_CEILING b c] s s0 ∧
      s.writeWin w u (0x100 + 0x10 * c) (v ||| 2).toNat = (s0.ctxHaltCmd u c).answers .ok 0 [] := by
  obtain ⟨o, e⟩ := writeWin_ctxCtrl hb hq c h
  obtain ⟨s0, h0, hr, e0⟩ := writeCtxCtrl_open s u c (v ||| 2).toNat o
  refine ⟨s0, h0, by rw [← win_eq hb]; exact hr, ?_⟩
  rw [e, bv32_mod, e0, bit_or, bit_or, bit_or, bit_or, hv.1, hv.2.1, hv.2.2]
  simp only [show bit (2 : BitVec 32).toNat 0 = false by decide, show bit (2 : BitVec 32).toNat 1 = true by decide, show bit (2 : BitVec 32).toNat 2 = false by decide,
    show bit (2 : BitVec 32).toNat 3 = false by decide, Bool.or_false, Bool.or_true, Bool.false_eq_true, if_false, if_true]

/-- The same with STEP, with or without START. -/
theorem writeWin_step {s : State} {w : Who} {u b : Nat} (hb : windowOf u = some b) (hq : isSeq u = true) (c : Fin 16) (v : BitVec 32)
    (h : s.takes w (b + (0x100 + 0x10 * c)) (v ||| 4).toNat = true) (hv : bit v.toNat 1 = false ∧ bit v.toNat 3 = false) :
    ∃ s0 : State, s0 = { s with regs := s0.regs } ∧ RegsBut [R.CTX_CTRL_CEILING b c] s s0 ∧
      s.writeWin w u (0x100 + 0x10 * c) (v ||| 4).toNat = (s0.ctxStepCmd u c).answers .ok 0 [] := by
  obtain ⟨o, e⟩ := writeWin_ctxCtrl hb hq c h
  obtain ⟨s0, h0, hr, e0⟩ := writeCtxCtrl_open s u c (v ||| 4).toNat o
  refine ⟨s0, h0, by rw [← win_eq hb]; exact hr, ?_⟩
  rw [e, bv32_mod, e0, bit_or, bit_or, bit_or, bit_or, hv.1, hv.2]
  simp only [show bit (4 : BitVec 32).toNat 1 = false by decide, show bit (4 : BitVec 32).toNat 2 = true by decide,
    show bit (4 : BitVec 32).toNat 3 = false by decide, Bool.or_false, Bool.or_true, Bool.false_eq_true, if_false, if_true]

/-- The same with CLEAR alone. -/
theorem writeWin_clear {s : State} {w : Who} {u b : Nat} (hb : windowOf u = some b) (hq : isSeq u = true) (c : Fin 16) (v : BitVec 32)
    (h : s.takes w (b + (0x100 + 0x10 * c)) (v ||| 8).toNat = true) (hv : bits v.toNat 0 3 = 0) :
    ∃ s0 : State, s0 = { s with regs := s0.regs } ∧ RegsBut [R.CTX_CTRL_CEILING b c] s s0 ∧
      s.writeWin w u (0x100 + 0x10 * c) (v ||| 8).toNat = (s0.ctxClearCmd u c).answers .ok 0 [] := by
  obtain ⟨o, e⟩ := writeWin_ctxCtrl hb hq c h
  obtain ⟨s0, h0, hr, e0⟩ := writeCtxCtrl_open s u c (v ||| 8).toNat o
  refine ⟨s0, h0, by rw [← win_eq hb]; exact hr, ?_⟩
  rw [e, bv32_mod, e0, bit_or, bit_or, bit_or, bit_or, bit_of_bits_zero (i := 0) hv (by omega), bit_of_bits_zero (i := 1) hv (by omega), bit_of_bits_zero (i := 2) hv (by omega)]
  simp only [show bit (8 : BitVec 32).toNat 0 = false by decide, show bit (8 : BitVec 32).toNat 1 = false by decide, show bit (8 : BitVec 32).toNat 2 = false by decide,
    show bit (8 : BitVec 32).toNat 3 = true by decide, Bool.or_false, Bool.or_true, Bool.false_eq_true, if_false, if_true]

/-- The state of a context does not hang on its ceiling. -/
theorem ctxState_ceiling {s s0 : State} {u b : Nat} {c : Nat} (hb : windowOf u = some b) (hr : RegsBut [R.CTX_CTRL_CEILING b c] s s0) :
    s0.ctxState u c = s.ctxState u c :=
  hr.rd (by rw [win_eq hb]; simp [R.CTX_STAT_STATE, R.CTX_CTRL_CEILING]; omega)

theorem eq_regs_msgs {s t : State} {m r} (h : t = { s with msgs := m, regs := r }) : t = { s with regs := t.regs, msgs := t.msgs } := by subst h; rfl
theorem eq_regs_ctxs {s t : State} {r c} (h : t = { s with regs := r, ctxs := c }) : t = { s with regs := t.regs, ctxs := t.ctxs } := by subst h; rfl
theorem eq_regs_ctxs_used {s t : State} {r c x} (h : t = { s with regs := r, ctxs := c, used := x }) : t = { s with regs := t.regs, ctxs := t.ctxs, used := t.used } := by subst h; rfl
theorem eq_regs_answer {s t : State} {m r} (h : t = { s with answer := m, regs := r }) : t = { s with regs := t.regs, answer := t.answer } := by subst h; rfl
theorem eq_err_post {s t : State} {r c e p} (h : t = { s with regs := r, ctxs := c, errHeld := e, postAns := p }) :
    t = { s with regs := t.regs, ctxs := t.ctxs, errHeld := t.errHeld, postAns := t.postAns } := by subst h; rfl

/-- What discarding a chain changes (R202). -/
theorem dropChain_eq (s : State) (u c b : Nat) (_ : windowOf u = some b) :
    RegsBut [R.SEL_STAT_CHAIN_HELD u, R.SEL_STAT_HELD_CTX u] s (s.dropChain u c) ∧ (∀ x, x ≠ u → (s.dropChain u c).tile x = s.tile x) ∧
    s.dropChain u c = { s with regs := (s.dropChain u c).regs, tiles := (s.dropChain u c).tiles } := by
  unfold State.dropChain
  split
  · split
    · refine ⟨by simp [State.wrAll], fun x hx => ?_, rfl⟩
      simp [State.wrAll, State.setTile_tile_ne _ _ hx]
    · exact ⟨by simp, fun _ _ => rfl, rfl⟩
  · exact ⟨by simp, fun _ _ => rfl, rfl⟩

/-- A context enters ERROR (R102). -/
theorem ctxError_eq (s : State) (u c code row iter status : Nat) (hc : c < 16) :
    (s.ctxError u c code row iter status).ctxState u c = 4 ∧ (s.ctxError u c code row iter status).rd (R.CTX_STAT_CODE (win u) c) = code % 2 ^ 8 ∧
    u ∈ (s.ctxError u c code row iter status).errHeld ∧
    s.ctxError u c code row iter status = { s with regs := (s.ctxError u c code row iter status).regs, ctxs := (s.ctxError u c code row iter status).ctxs, errHeld := (s.ctxError u c code row iter status).errHeld } := by
  have happ : ∀ x : List Nat, u ∈ x ++ [u] := by simp
  unfold State.ctxError
  dsimp only
  split
  · next h =>
    refine ⟨?_, ?_, List.contains_iff_mem.mp h, rfl⟩ <;>
    · simp (disch := (simp only [R.CTX_STAT_STATE, R.CTX_STAT_CODE, R.SEQ_STAT_ERR_MASK]; omega)) only [State.ctxState, State.wrAll, State.rd_wr_ne, State.setCtx_rd, State.rd_wr_same]
      rfl
  · next h =>
    generalize hs2 : State.setCtx _ u c _ = s2 at *
    have h1 : ∃ r x, s2 = { s with regs := r, ctxs := x } := ⟨_, _, hs2.symm.trans (by rw [State.wrAll_upd, State.wr_upd]; rfl)⟩
    have h2 : s2.rd (R.CTX_STAT_STATE (win u) c) = 4 ∧ s2.rd (R.CTX_STAT_CODE (win u) c) = code % 2 ^ 8 := by
      rw [← hs2]
      constructor <;>
      · simp (disch := (simp only [R.CTX_STAT_STATE, R.CTX_STAT_CODE, R.SEQ_STAT_ERR_MASK]; omega)) only [State.wrAll, State.rd_wr_ne, State.setCtx_rd, State.rd_wr_same]
        rfl
    clear hs2
    obtain ⟨r, x, rfl⟩ := h1
    generalize hs3 : State.wrAll _ _ = s3
    have h4 : s3.rd (R.CTX_STAT_STATE (win u) c) = 4 ∧ s3.rd (R.CTX_STAT_CODE (win u) c) = code % 2 ^ 8 := by
      rw [← hs3]
      simp (disch := (simp only [R.CTX_STAT_STATE, R.CTX_STAT_CODE, R.SEQ_ERR_CONTEXT, R.SEQ_ERR_ROW, R.SEQ_ERR_ITER, R.SEQ_ERR_STATUS]; omega)) only [State.wrAll, State.rd_wr_ne]
      exact h2
    have h5 : ∃ r, s3 = { s with regs := r, ctxs := x } := ⟨_, hs3.symm.trans (State.wrAll_upd _ _)⟩
    clear hs3
    obtain ⟨r3, rfl⟩ := h5
    exact ⟨h4.1, h4.2, happ _, rfl⟩

/-- Adding tokens to a counter (R95). -/
theorem addTokens_count (s : State) (u c k n : Nat) : (s.addTokens u c k n).rd (R.TOKCNT_COUNT (win u) c k) = min (s.rd (R.TOKCNT_COUNT (win u) c k) + n) 65535 ∧
    RegsBut [R.TOKCNT_COUNT (win u) c k, R.TOKCNT_OVF (win u) c k] s (s.addTokens u c k n) ∧ s.addTokens u c k n = { s with regs := (s.addTokens u c k n).regs } := by
  unfold State.addTokens
  refine ⟨?_, by simp, ?_⟩
  · rw [State.rd_wr_same]; simp only [R.TOKCNT_COUNT]; omega
  · unfold State.flag; dsimp only; split <;> rfl

/-- A flag changes the registers alone. -/
theorem flag_eq (s : State) (c : Bool) (f : Fld) : s.flag c f = { s with regs := (s.flag c f).regs } := by unfold State.flag; split <;> rfl

/-- A pool takes a count (R98). -/
theorem setPool_count (s : State) (u p : Nat) (v : Int) (hi : s.rd (R.POOL_INIT_INIT (win u) p) < 65536) :
    ((s.setPool u p v).rd (R.POOL_CNT_COUNT (win u) p) : Int) = clampI 0 (s.rd (R.POOL_INIT_INIT (win u) p)) v ∧
    RegsBut [R.SEQ_STAT_CREDIT_OVF (win u), R.SEQ_STAT_CREDIT_UNF (win u), R.POOL_CNT_COUNT (win u) p] s (s.setPool u p v) ∧ s.setPool u p v = { s with regs := (s.setPool u p v).regs } := by
  unfold State.setPool
  dsimp only
  refine ⟨?_, by simp, ?_⟩
  · rw [State.rd_wr_same]; simp only [R.POOL_CNT_COUNT, clampI]; split_ifs <;> omega
  · unfold State.flag; split <;> split <;> rfl

/-- What a firing takes from a list of counters (R88). -/
theorem deductTokens_eq (u c : Nat) : ∀ (l : List (Nat × Nat)) (s : State), RegsBut (l.map fun x => R.TOKCNT_COUNT (win u) c x.1) s (s.deductTokens u c l) ∧
    s.deductTokens u c l = { s with regs := (s.deductTokens u c l).regs } ∧
    ∀ k, s.rd (R.TOKCNT_COUNT (win u) c k) < 65536 → (s.deductTokens u c l).rd (R.TOKCNT_COUNT (win u) c k) = l.foldl (fun a x => if x.1 = k then a - x.2 else a) (s.rd (R.TOKCNT_COUNT (win u) c k))
  | [], s => ⟨RegsBut.refl _ _, rfl, fun _ _ => rfl⟩
  | (j, n) :: t, s => by
    obtain ⟨h1, h2, h3⟩ := deductTokens_eq u c t (s.wr (R.TOKCNT_COUNT (win u) c j) (s.rd (R.TOKCNT_COUNT (win u) c j) - n))
    refine ⟨?_, ?_, fun k hk => ?_⟩
    · exact RegsBut.trans (t := s.wr (R.TOKCNT_COUNT (win u) c j) (s.rd (R.TOKCNT_COUNT (win u) c j) - n)) (by simp) (h1.mono fun f hf => List.mem_cons_of_mem _ hf)
    · rw [State.deductTokens, h2]; rfl
    · by_cases e : j = k
      · subst e
        have hm : (s.wr (R.TOKCNT_COUNT (win u) c j) (s.rd (R.TOKCNT_COUNT (win u) c j) - n)).rd (R.TOKCNT_COUNT (win u) c j) = s.rd (R.TOKCNT_COUNT (win u) c j) - n := by
          rw [State.rd_wr_same]; exact Nat.mod_eq_of_lt (Nat.lt_of_le_of_lt (Nat.sub_le _ _) hk)
        rw [State.deductTokens, h3 j (by rw [hm]; omega), hm]
        simp
      · have hm : (s.wr (R.TOKCNT_COUNT (win u) c j) (s.rd (R.TOKCNT_COUNT (win u) c j) - n)).rd (R.TOKCNT_COUNT (win u) c k) = s.rd (R.TOKCNT_COUNT (win u) c k) :=
          State.rd_wr_ne _ _ (by simp only [R.TOKCNT_COUNT]; omega)
        rw [State.deductTokens, h3 k (by rw [hm]; omega), hm]
        simp [e]

/-- What a firing takes from a list of pools (R88). -/
theorem deductCredits_eq (u : Nat) : ∀ (l : List (Nat × Nat)) (s : State), RegsBut (l.map fun x => R.POOL_CNT_COUNT (win u) x.1) s (s.deductCredits u l) ∧
    s.deductCredits u l = { s with regs := (s.deductCredits u l).regs } ∧
    ∀ k, s.rd (R.POOL_CNT_COUNT (win u) k) < 65536 → (s.deductCredits u l).rd (R.POOL_CNT_COUNT (win u) k) = l.foldl (fun a x => if x.1 = k then a - x.2 else a) (s.rd (R.POOL_CNT_COUNT (win u) k))
  | [], s => ⟨RegsBut.refl _ _, rfl, fun _ _ => rfl⟩
  | (j, n) :: t, s => by
    obtain ⟨h1, h2, h3⟩ := deductCredits_eq u t (s.wr (R.POOL_CNT_COUNT (win u) j) (s.rd (R.POOL_CNT_COUNT (win u) j) - n))
    refine ⟨?_, ?_, fun k hk => ?_⟩
    · exact RegsBut.trans (t := s.wr (R.POOL_CNT_COUNT (win u) j) (s.rd (R.POOL_CNT_COUNT (win u) j) - n)) (by simp) (h1.mono fun f hf => List.mem_cons_of_mem _ hf)
    · rw [State.deductCredits, h2]; rfl
    · by_cases e : j = k
      · subst e
        have hm : (s.wr (R.POOL_CNT_COUNT (win u) j) (s.rd (R.POOL_CNT_COUNT (win u) j) - n)).rd (R.POOL_CNT_COUNT (win u) j) = s.rd (R.POOL_CNT_COUNT (win u) j) - n := by
          rw [State.rd_wr_same]; exact Nat.mod_eq_of_lt (Nat.lt_of_le_of_lt (Nat.sub_le _ _) hk)
        rw [State.deductCredits, h3 j (by rw [hm]; omega), hm]
        simp
      · have hm : (s.wr (R.POOL_CNT_COUNT (win u) j) (s.rd (R.POOL_CNT_COUNT (win u) j) - n)).rd (R.POOL_CNT_COUNT (win u) k) = s.rd (R.POOL_CNT_COUNT (win u) k) :=
          State.rd_wr_ne _ _ (by simp only [R.POOL_CNT_COUNT]; omega)
        rw [State.deductCredits, h3 k (by rw [hm]; omega), hm]
        simp [e]

/-- A row consumes from the 16 counters of its context alone. -/
theorem consumes_lt (s : State) (u c r it : Nat) : ∀ x ∈ s.consumes u c r it, x.1 < 16 := by
  have hw : ∀ t ∈ rowWaits r, t.2.1 < 16 := by
    intro t ht
    unfold rowWaits at ht
    obtain ⟨a, -, ha⟩ := List.mem_filterMap.mp ht
    dsimp only at ha
    split at ha
    · rw [← Option.some.inj ha]; exact bits_lt _ 7 4
    · cases ha
  have ht : rowTrigCounter r < 16 := bits_lt _ 80 4
  intro x hx
  unfold State.consumes at hx
  dsimp only at hx
  rcases List.mem_append.mp hx with h | h
  · obtain ⟨t, h', e⟩ := List.mem_map.mp h
    rw [← e]; exact hw t (List.mem_of_mem_filter h')
  · split at h
    · rw [List.mem_singleton.mp h]; exact ht
    · cases h

theorem sx32_lt (x : Nat) : sx 32 x < 2 ^ 31 := by unfold sx; split <;> omega
/-- A signed value of 32 bits reads back. -/
theorem sx_ux32 {v : Int} (h1 : -2 ^ 31 ≤ v) (h2 : v < 2 ^ 31) : sx 32 (ux 32 v % 2 ^ 32) = v := by
  unfold sx ux
  have : ((2 ^ 32 : Nat) : Int) = 4294967296 := rfl
  rw [this]
  split <;> omega

/-- The registers a firing may change. -/
def fireFlds (s : State) (u c : Nat) : List Fld :=
  ((s.consumes u c (s.ctxRow u c) (s.rd (R.CTX_PC_ITER (win u) c))).map fun x => R.TOKCNT_COUNT (win u) c x.1) ++ ((rowCreds (s.ctxRow u c)).map fun x => R.POOL_CNT_COUNT (win u) x.1) ++
    [R.SEQ_DROPS_TRIG_SKIPPED (win u), R.SEQ_FIRED_FIRED (win u), R.CTX_STAT_STATE (win u) c]

/-- What firing does (R88). -/
theorem fire_eq (s : State) (u c : Nat) (hc : c < 16) : (s.fire u c).ctxState u c = 2 ∧ ((s.fire u c).ctx u c).exec = true ∧ ((s.fire u c).ctx u c).row = s.ctxRow u c ∧
    ((s.fire u c).ctx u c).consumed = s.consumes u c (s.ctxRow u c) (s.rd (R.CTX_PC_ITER (win u) c)) ∧
    RegsBut (fireFlds s u c) s (s.fire u c) ∧ s.fire u c = { s with regs := (s.fire u c).regs, ctxs := (s.fire u c).ctxs } ∧
    (∀ k < 16, s.rd (R.TOKCNT_COUNT (win u) c k) < 65536 → (s.fire u c).rd (R.TOKCNT_COUNT (win u) c k) =
      (s.consumes u c (s.ctxRow u c) (s.rd (R.CTX_PC_ITER (win u) c))).foldl (fun a x => if x.1 = k then a - x.2 else a) (s.rd (R.TOKCNT_COUNT (win u) c k))) ∧
    (∀ k < 32, s.rd (R.POOL_CNT_COUNT (win u) k) < 65536 → (s.fire u c).rd (R.POOL_CNT_COUNT (win u) k) =
      (rowCreds (s.ctxRow u c)).foldl (fun a x => if x.1 = k then a - x.2 else a) (s.rd (R.POOL_CNT_COUNT (win u) k))) := by
  unfold State.fire
  dsimp only
  have hlt := consumes_lt s u c (s.ctxRow u c) (s.rd (R.CTX_PC_ITER (win u) c))
  have hf : fireFlds s u c = ((s.consumes u c (s.ctxRow u c) (s.rd (R.CTX_PC_ITER (win u) c))).map fun x => R.TOKCNT_COUNT (win u) c x.1) ++ ((rowCreds (s.ctxRow u c)).map fun x => R.POOL_CNT_COUNT (win u) x.1) ++
    [R.SEQ_DROPS_TRIG_SKIPPED (win u), R.SEQ_FIRED_FIRED (win u), R.CTX_STAT_STATE (win u) c] := rfl
  generalize s.consumes u c (s.ctxRow u c) (s.rd (R.CTX_PC_ITER (win u) c)) = used at *
  generalize fireFlds s u c = fl at *
  generalize rowCreds (s.ctxRow u c) = cr at *
  obtain ⟨a1, a2, a3⟩ := deductTokens_eq u c used s
  generalize s.deductTokens u c used = s1 at *
  obtain ⟨b1, b2, b3⟩ := deductCredits_eq u cr s1
  generalize s1.deductCredits u cr = s2 at *
  have hb : RegsBut fl s s2 := by
    subst hf
    exact (a1.mono fun f hf => List.mem_append_left _ (List.mem_append_left _ hf)).trans (b1.mono fun f hf => List.mem_append_left _ (List.mem_append_right _ hf))
  refine ⟨?_, by simp, by simp, by simp, ?_, ?_, fun k hk hk' => ?_, fun k hk hk' => ?_⟩
  · simp only [State.ctxState, State.setCtx_rd, State.rd_wr_same]; rfl
  · rw [regsBut_setCtx, regsBut_wr (by rw [hf]; simp), regsBut_count (by rw [hf]; simp), regsBut_count (by rw [hf]; simp)]; exact hb
  · obtain ⟨r, rfl⟩ : ∃ r, s2 = { s with regs := r } := ⟨s2.regs, b2.trans (congrArg (fun x : State => { x with regs := s2.regs }) a2)⟩
    rw [State.count_upd, State.count_upd, State.wr_upd]; rfl
  · have e2 := b1.rd (f := R.TOKCNT_COUNT (win u) c k) (by
      simp only [List.map_map, List.mem_map, not_exists, not_and]; rintro x - e
      simp only [R.TOKCNT_COUNT, R.POOL_CNT_COUNT, Function.comp] at e; omega)
    simp (disch := (simp only [R.TOKCNT_COUNT, R.SEQ_DROPS_TRIG_SKIPPED, R.SEQ_FIRED_FIRED, R.CTX_STAT_STATE]; omega)) only [State.setCtx_rd, State.count, State.rd_wr_ne]
    rw [e2]; exact a3 k hk'
  · have e1 := a1.rd (f := R.POOL_CNT_COUNT (win u) k) (by
      simp only [List.map_map, List.mem_map, not_exists, not_and]; rintro x hx e
      have := hlt x hx
      simp only [R.TOKCNT_COUNT, R.POOL_CNT_COUNT, Function.comp] at e; omega)
    simp (disch := (simp only [R.POOL_CNT_COUNT, R.SEQ_DROPS_TRIG_SKIPPED, R.SEQ_FIRED_FIRED, R.CTX_STAT_STATE]; omega)) only [State.setCtx_rd, State.count, State.rd_wr_ne]
    rw [b3 k (by rw [e1]; exact hk'), e1]

/-- The pass over a row without BRK. -/
theorem fireOrBreak_fire {s : State} {u c : Nat} (h : ¬ (s.ctxState u c = 1 ∧ s.rd (R.CTX_PC_ITER (win u) c) = 0 ∧ rowBrk (s.ctxRow u c) ∧ ¬ (s.ctx u c).passing))
    (he : rowEngine (s.ctxRow u c) ≠ 0xF) : s.fireOrBreak u c = s.fire u c := by
  unfold State.fireOrBreak
  dsimp only
  rw [if_neg h, if_neg he]

/-- Nothing is returned through counters that are not bound (R97). -/
theorem returnAll_unbound (u c cls : Nat) : ∀ (l : List (Nat × Nat)) (s : State), (∀ x ∈ l, s.on (R.TOKBIND_EN (win u) c x.1) = false) → s.returnAll u c cls l = s
  | [], _, _ => rfl
  | (k, n) :: t, s, h => by
    have e : s.returnCredits u c k n cls = s := by
      unfold State.returnCredits
      rw [if_pos (.inr (by rw [h (k, n) (by simp)]; decide))]
    rw [State.returnAll, e]
    exact returnAll_unbound u c cls t s fun x hx => h x (List.mem_cons_of_mem _ hx)

/-- Completion with status 0 of a row without posts (R90). -/
theorem complete_plain {s : State} {u c oc : Nat} (hb : ∀ x ∈ (s.ctx u c).consumed, s.on (R.TOKBIND_EN (win u) c x.1) = false)
    (h0 : (rowPost (s.ctx u c).row 0).1 = false) (h1 : (rowPost (s.ctx u c).row 1).1 = false) : s.complete u c .ok oc = s.advance u c := by
  have hp : ∀ (s : State) (r j f : Nat), (rowPost r j).1 = false → s.sendPost u c r j f = (s, false) := by
    intro s r j f h; unfold State.sendPost; dsimp only; rw [h]; rfl
  unfold State.complete
  dsimp only
  rw [returnAll_unbound u c _ _ s hb, if_neg (by simp)]
  have : s.sendPosts u c (s.ctx u c).row oc (s.ctx u c).hostFn = (s, false) := by
    unfold State.sendPosts
    split
    · split
      · exact hp _ _ _ _ h0
      · exact hp _ _ _ _ h1
    · dsimp only
      rw [hp _ _ _ _ h0, hp _ _ _ _ h1]; rfl
  rw [this]
  rfl

/-- The next iteration of a row, the successor, the halt at END (R77, R93). -/
theorem advance_next {s : State} {u c : Nat} (h : s.rd (R.CTX_PC_ITER (win u) c) < rowRepeat (s.ctx u c).row) (hh : (s.ctx u c).pendHalt = false) (hs : (s.ctx u c).pendStep = false) :
    (s.advance u c).rd (R.CTX_PC_ITER (win u) c) = (s.rd (R.CTX_PC_ITER (win u) c) + 1) % 2 ^ 12 ∧
    (s.advance u c).ctx u c = { s.ctx u c with exec := false, result := none, consumed := [], arrived := s.now, asked := false, granted := false } ∧
    RegsBut [R.CTX_PC_ITER (win u) c] s (s.advance u c) ∧ s.advance u c = { s with regs := (s.advance u c).regs, ctxs := (s.advance u c).ctxs } := by
  unfold State.advance
  dsimp only
  rw [if_pos h, hh, hs]
  simp only [Bool.false_eq_true, if_false, State.ctxArrive]
  exact ⟨by simp [R.CTX_PC_ITER], by simp, by simp, rfl⟩

theorem advance_succ {s : State} {u c : Nat} (h : rowRepeat (s.ctx u c).row ≤ s.rd (R.CTX_PC_ITER (win u) c)) (hh : (s.ctx u c).pendHalt = false) (hs : (s.ctx u c).pendStep = false)
    (he : rowEnd (s.ctx u c).row = false) :
    (s.advance u c).rd (R.CTX_PC_ITER (win u) c) = 0 ∧ (s.advance u c).rd (R.CTX_PC_PC (win u) c) = (s.ctx u c).succ % 2 ^ 9 ∧ (s.advance u c).ctxState u c = 1 ∧
    (s.advance u c).ctx u c = { s.ctx u c with exec := false, result := none, consumed := [], arrived := s.now, asked := false, granted := false } ∧
    RegsBut [R.CTX_PC_ITER (win u) c, R.CTX_PC_PC (win u) c, R.CTX_STAT_STATE (win u) c] s (s.advance u c) ∧ s.advance u c = { s with regs := (s.advance u c).regs, ctxs := (s.advance u c).ctxs } := by
  unfold State.advance
  dsimp only
  rw [if_neg (by omega), he, hh, hs]
  simp only [Bool.false_eq_true, if_false, State.ctxArrive, State.ctxState]
  have hfr : ∀ (x x' : CtxInt) (l : List (Fld × Nat)) (f : Fld) (v : Nat), ∃ r y, (((s.setCtx u c x).wrAll l).wr f v).setCtx u c x' = { s with regs := r, ctxs := y } := by
    intro x x' l f v
    obtain ⟨r, hr⟩ := State.wrAll_ex l (s.setCtx u c x)
    rw [hr]
    exact ⟨_, _, rfl⟩
  refine ⟨?_, ?_, ?_, by simp [State.wrAll], by simp [State.wrAll], (by obtain ⟨r, y, e⟩ := hfr _ _ _ _ _; exact eq_regs_ctxs e)⟩ <;>
  · simp (disch := (simp only [R.CTX_STAT_STATE, R.CTX_PC_ITER, R.CTX_PC_PC]; omega)) only [State.wrAll, State.rd_wr_ne, State.setCtx_rd, State.rd_wr_same]
    rfl

theorem advance_end {s : State} {u c : Nat} (h : rowRepeat (s.ctx u c).row ≤ s.rd (R.CTX_PC_ITER (win u) c)) (he : rowEnd (s.ctx u c).row = true) :
    (s.advance u c).rd (R.CTX_PC_ITER (win u) c) = 0 ∧ (s.advance u c).rd (R.CTX_PC_PC (win u) c) = (s.ctx u c).succ % 2 ^ 9 ∧ (s.advance u c).ctxState u c = 3 ∧
    (s.advance u c).rd (R.CTX_STAT_CAUSE (win u) c) = 1 ∧ ((s.advance u c).ctx u c).exec = false ∧
    RegsBut [R.CTX_PC_ITER (win u) c, R.CTX_PC_PC (win u) c, R.CTX_STAT_STATE (win u) c, R.CTX_STAT_CAUSE (win u) c] s (s.advance u c) ∧
    s.advance u c = { s with regs := (s.advance u c).regs, ctxs := (s.advance u c).ctxs } := by
  unfold State.advance
  dsimp only
  rw [if_neg (by omega), he]
  simp only [if_true, State.ctxHalt, State.ctxState]
  have hfr : ∀ (x x' : CtxInt) (l l' : List (Fld × Nat)), ∃ r y, (((s.setCtx u c x).wrAll l).wrAll l').setCtx u c x' = { s with regs := r, ctxs := y } := by
    intro x x' l l'
    obtain ⟨r, hr⟩ := State.wrAll_ex l (s.setCtx u c x)
    rw [hr]
    obtain ⟨r', hr'⟩ := State.wrAll_ex l' { s.setCtx u c x with regs := r }
    rw [hr']
    exact ⟨_, _, rfl⟩
  refine ⟨?_, ?_, ?_, ?_, by simp [State.wrAll], by simp [State.wrAll], (by obtain ⟨r, y, e⟩ := hfr _ _ _ _; exact eq_regs_ctxs e)⟩ <;>
  · simp (disch := (simp only [R.CTX_STAT_STATE, R.CTX_PC_ITER, R.CTX_PC_PC, R.CTX_STAT_CAUSE]; omega)) only [State.wrAll, State.rd_wr_ne, State.setCtx_rd, State.rd_wr_same]
    rfl

end Sys2Proof.Machine
end

