-- ==== Sys2Proof/WellFormed.lean ====
section
/-! DEFINITION. Commands that could come to the part at all: lengths, ranges and frames as their formats allow
(spec/17_windway.md R557, R561, R562, R578; spec/18_field_interfaces.md R606, R616, R617; spec/04_address_space_memory.md
R115). The meanings are total; a command that is not well formed has no counterpart on the hardware. -/

namespace Sys2Proof

/-- An answer from outside carries at most the 64 bytes of one request (R115). -/
def Reply.wellFormed (r : Reply) : Bool := decide (r.data.length ≤ 64)

/-- Data flits that a message carries (R562). -/
def WwMsg.flits (m : WwMsg) : Nat :=
  1 + (if m.mtype = 1 ∨ m.mtype = 3 then (m.data.length + 15) / 16
       else if m.mtype = 5 ∨ m.mtype = 7 then 1 else (m.data.length + 15) / 16)

/-- The fields of a header flit, and data of the length it announces (R561, R562). -/
def WwMsg.wellFormed (m : WwMsg) : Bool :=
  decide (m.mtype < 16) && decide (m.cls < 4) && decide (m.init < 64) && decide (m.src < 2 ^ 15) && decide (m.dst < 2 ^ 15) &&
    decide (m.hops < 16) && decide (m.tag < 2048) && decide (m.epoch < 256) && decide (m.status < 16) && decide (m.size < 64) &&
    decide (m.addr < 2 ^ 48) && decide (m.data.length ≤ 64) && (m.mtype != 1 || decide (m.data.length = m.size + 1))

/-- A frame of at most `max` message flits (R557, R578). -/
def WwFrame.wellFormed (max : Nat) (f : WwFrame) : Bool :=
  decide (f.seq < 2 ^ 16) && decide (f.ack < 2 ^ 16) && decide (f.credits.length = 3) && (f.credits.all fun c => decide (c < 2 ^ 16)) &&
    (f.msgs.all WwMsg.wellFormed) && decide ((f.msgs.map WwMsg.flits).sum ≤ max)

/-- Data bytes of a CAN frame's DLC (ISO 11898-1, R617). -/
def canBytes (fdf : Bool) (dlc : Nat) : Nat :=
  if dlc ≤ 8 then dlc else if fdf then [12, 16, 20, 24, 32, 48, 64].getD (dlc - 9) 64 else 8

/-- A CAN frame: an 11-bit identifier where IDE is 0, no remote frame in FD, as many bytes as DLC says. -/
def CanFrame.wellFormed (f : CanFrame) : Bool :=
  (f.ide || decide (f.id.toNat < 2 ^ 11)) && !(f.fdf && f.rtr) && (f.fdf || !f.brs && !f.esi) &&
    decide (f.data.length = if f.rtr then 0 else canBytes f.fdf f.dlc)

/-- Words of a serial transfer: at most the 256 bytes of I2C or the 64 of xSPI (R788). -/
def SerialEvent.wellFormed : SerialEvent → Bool
  | .spi _ _ => true
  | .i2c _ _ rx => decide (rx.length ≤ 256)
  | .i2cTarget _ _ => true
  | .uartTx _ => true
  | .uartRx _ _ _ _ _ => true
  | .xspi rx => decide (rx.length ≤ 64)

/-- A command that could come. -/
def Instr.wellFormed : Instr → Bool
  | .registerWrite _ _ _ rs => (rs.all Reply.wellFormed)
  | .setupLock _ => true
  | .islLock _ => true
  | .porstNAssert => true
  | .porstNRelease _ => true
  | .sysrstNAssert => true
  | .sysrstNRelease => true
  | .referenceAcceptance _ _ _ _ => true
  | .pllLockLimit _ _ _ _ => true
  | .dividerAlignment => true
  | .fuseReadout => true
  | .initComplete _ => true
  | .imageLoad img => (match img with | some l => decide (l.length ≤ 0x800000) | none => true)
  | .imageVerify => true
  | .islandSramZeroed _ => true
  | .islandSegmentCopy => true
  | .islandFirmwareStart => true
  | .bootData _ _ => true
  | .hostGo _ => true
  | .mgmtGo _ => true
  | .hostReady _ => true
  | .dbgUnlock _ => true
  | .pcieLinkTraining => true
  | .bankSupplyLoss _ => true
  | .bankSupplyReturn _ => true
  | .grantWindowStart _ => true
  | .rowEligible _ _ => true
  | .grantDecision => true
  | .iterationComplete _ _ => true
  | .postAnswer _ => true
  | .tokenArrival _ => true
  | .creditArrival _ => true
  | .tokcntWrite _ _ _ _ _ _ _ => true
  | .poolCntWrite _ _ _ _ _ _ => true
  | .toktake _ _ _ _ _ => true
  | .ctxStart _ _ _ _ => true
  | .ctxHalt _ _ _ _ => true
  | .ctxStep _ _ _ _ => true
  | .ctxClear _ _ _ _ => true
  | .ctxPcWrite _ _ _ _ => true
  | .rowCommit _ _ _ _ => true
  | .ctxStall _ _ => true
  | .seqErrRead _ _ => true
  | .sync _ _ => true
  | .memoryRead _ _ _ _ n rs => decide (n ≤ 4096) && (rs.all Reply.wellFormed)
  | .memoryWrite _ _ _ _ data => decide (data.length ≤ 4096)
  | .writeAcknowledgement _ => true
  | .zeroLengthReadComplete _ => true
  | .eccWriteBack _ => true
  | .scrubRead _ => true
  | .amo _ _ _ _ _ => true
  | .memZeroGo _ _ => true
  | .zeroingDone => true
  | .memCntClr _ _ => true
  | .copy _ _ rs => (rs.all Reply.wellFormed)
  | .fill _ _ rs => (rs.all Reply.wellFormed)
  | .mma _ _ => true
  | .add _ _ => true
  | .sub _ _ => true
  | .mul _ _ => true
  | .fma _ _ => true
  | .max _ _ => true
  | .min _ _ => true
  | .abs _ _ => true
  | .neg _ _ => true
  | .cvt _ _ => true
  | .requant _ _ => true
  | .cmpgt _ _ => true
  | .cmpeq _ _ => true
  | .select _ _ => true
  | .recip _ _ => true
  | .rsqrt _ _ => true
  | .exp2 _ _ => true
  | .log2 _ _ => true
  | .rsum _ _ => true
  | .rmax _ _ => true
  | .shift _ _ => true
  | .and _ _ => true
  | .or _ _ => true
  | .xor _ _ => true
  | .tileCntClr _ _ _ => true
  | .topk _ _ => true
  | .merge _ _ => true
  | .argidx _ _ => true
  | .selCntClr _ _ _ => true
  | .selQmax _ _ => true
  | .selQtopk _ _ => true
  | .reedTest _ _ _ => true
  | .reedRdest _ _ _ => true
  | .reedWput _ _ _ => true
  | .reedFallbk _ _ => true
  | .tokPost _ _ => true
  | .portSquash _ _ _ => true
  | .eval _ _ => true
  | .seal _ _ => true
  | .swap _ _ => true
  | .free _ _ => true
  | .reedInstanceEnable _ _ _ => true
  | .swapNow _ _ _ => true
  | .reedApprove _ _ _ => true
  | .run _ _ => true
  | .slotStart _ => true
  | .slotPublish _ _ => true
  | .cwqEnqueue _ _ => true
  | .cwqFlush _ _ => true
  | .chnSlotEnable _ _ _ => true
  | .laneEnable _ _ => true
  | .laneListWrite _ _ _ _ => true
  | .chnCntClr _ _ => true
  | .setpointUpdate _ => true
  | .spEnable _ _ _ => true
  | .spHost _ _ _ => true
  | .injectionGo _ _ _ => true
  | .injectionStop _ _ _ => true
  | .injectionAbort _ _ _ => true
  | .permitWrite _ _ => true
  | .captureEnable _ _ _ => true
  | .captureWriteComplete _ => true
  | .droneCycle => true
  | .latchRecordWritten rs => (rs.all Reply.wellFormed)
  | .droneCaptureTick _ => true
  | .droneMeasurement _ => true
  | .droneMissTest _ => true
  | .holdMaxExpiry _ => true
  | .drnEnable _ _ _ => true
  | .reacq _ _ _ => true
  | .presetGo _ _ _ => true
  | .drnCntClr _ _ _ => true
  | .altActiveReturn _ _ _ => true
  | .evPhaseWrite _ _ _ _ => true
  | .evCtrlWrite _ _ _ _ => true
  | .drnSnapRead _ _ => true
  | .latchBankRead _ => true
  | .axisStart _ _ _ => true
  | .axisStop _ _ _ => true
  | .axisClear _ _ _ => true
  | .pwmEn _ _ _ => true
  | .axSyncGo _ _ => true
  | .reloadPoint _ => true
  | .samplingPoint _ => true
  | .sigmaDeltaWord _ _ => true
  | .dutyStage _ => true
  | .axCmpWrite _ _ _ _ => true
  | .fastOvercurrentTrip _ _ => true
  | .activityFault _ => true
  | .densityBlockEnd _ _ => true
  | .encoderEdge _ _ _ => true
  | .encoderIndex _ => true
  | .encCntWrite _ _ _ _ => true
  | .idxArm _ _ _ => true
  | .catchTimeout _ => true
  | .probePulse _ => true
  | .probePulseEnd _ => true
  | .subTimeout _ => true
  | .brakeDelayExpiry _ => true
  | .chopperMinInterval _ => true
  | .zeroCrossEdge _ _ => true
  | .referenceEnable _ _ _ => true
  | .pcEnable _ _ _ => true
  | .restart _ _ _ => true
  | .pcClear _ _ _ => true
  | .pulseEnd _ => true
  | .conductionWindowEnd _ => true
  | .retrigger _ => true
  | .currentSignChange _ _ _ => true
  | .isgnBadFault _ => true
  | .llEnable _ _ _ => true
  | .startIdleEnd _ => true
  | .readResponse _ words _ => decide (words.length ≤ 64)
  | .updateInstant _ => true
  | .refreshComplete _ => true
  | .scanSlotStart _ => true
  | .scanBlankEnd _ => true
  | .llCntClr _ _ => true
  | .nop _ => true
  | .br _ _ => true
  | .loop _ => true
  | .wait _ _ => true
  | .waitEnd _ _ => true
  | .waitTimeout _ => true
  | .shin _ _ => true
  | .shout _ => true
  | .pushRx _ => true
  | .pushDrone _ => true
  | .pushPcnt _ => true
  | .pull _ => true
  | .fifoStallEnd _ => true
  | .xfer _ => true
  | .load _ => true
  | .pin _ => true
  | .tgt _ => true
  | .sigErr _ => true
  | .sigIrq _ => true
  | .sigToken _ => true
  | .sigHalt _ => true
  | .sigClrstale _ => true
  | .sigCrcrst _ => true
  | .fetchIllegal _ => true
  | .fetchParityError _ => true
  | .feEn _ _ _ => true
  | .feHalt _ _ _ => true
  | .feStep _ _ _ _ => true
  | .fifeGo _ _ => true
  | .fifeClkrst _ _ => true
  | .feInj _ _ _ _ => true
  | .feTx _ _ _ => true
  | .feRxRead _ _ => true
  | .instructionMemoryWrite _ _ _ _ => true
  | .fifeNowRead _ => true
  | .frame _ rs => (rs.all Reply.wellFormed)
  | .decomp _ rs => (rs.all Reply.wellFormed)
  | .rasGrow _ _ rs => (rs.all Reply.wellFormed)
  | .growTimeout rs => (rs.all Reply.wellFormed)
  | .shadeReturn rs => (rs.all Reply.wellFormed)
  | .shadeTimeout rs => (rs.all Reply.wellFormed)
  | .rasCntClr _ _ => true
  | .opTgtWrite _ _ => true
  | .supplySettled => true
  | .tilePllLock => true
  | .relockSwitchBack => true
  | .tileLockTimeout => true
  | .belPwrDn _ _ _ => true
  | .rasDn _ _ => true
  | .powerReturn _ => true
  | .motionOnly _ _ => true
  | .bellowsVokFall => true
  | .pllLockLoss _ => true
  | .pcieReset => true
  | .flr _ => true
  | .d3hotEntry _ => true
  | .d0Return _ => true
  | .sqTailDb _ _ _ _ => true
  | .cqHeadDb _ _ _ _ => true
  | .sqEnable _ _ _ _ => true
  | .sqStop _ _ _ _ => true
  | .sqResume _ _ _ _ => true
  | .cqEnable _ _ _ _ => true
  | .descriptorFetch _ _ _ rs => (rs.all Reply.wellFormed)
  | .descriptorNop _ _ => true
  | .descriptorCopy _ _ rs => (rs.all Reply.wellFormed)
  | .descriptorFill _ _ rs => (rs.all Reply.wellFormed)
  | .descriptorPost _ _ => true
  | .descriptorWait _ _ rs => (rs.all Reply.wellFormed)
  | .waitPoll _ _ rs => (rs.all Reply.wellFormed)
  | .descriptorWaitTimeout _ _ => true
  | .descriptorSignal _ _ rs => (rs.all Reply.wellFormed)
  | .regwr _ _ rs => (rs.all Reply.wellFormed)
  | .regrd _ _ rs => (rs.all Reply.wellFormed)
  | .tstamp _ _ => true
  | .descriptorComplete _ _ _ => true
  | .cqTimerExpiry _ _ => true
  | .wlEnable _ _ _ => true
  | .trainingComplete _ _ _ f rs => f.wellFormed 62 && (rs.all Reply.wellFormed)
  | .trainingTimeout _ => true
  | .frameReceive _ f rs => (match f with | some x => x.wellFormed 62 | none => true) && (rs.all Reply.wellFormed)
  | .replayTimeout _ => true
  | .linkLoss _ _ => true
  | .wr _ m rs => m.wellFormed && (rs.all Reply.wellFormed)
  | .rd _ m rs => m.wellFormed && (rs.all Reply.wellFormed)
  | .rdrsp _ m => m.wellFormed
  | .wrack _ m => m.wellFormed
  | .tok _ m => m.wellFormed
  | .tokack _ m => m.wellFormed
  | .syncMessage _ m => m.wellFormed
  | .joinInfo _ m => m.wellFormed
  | .timeReq _ m => m.wellFormed
  | .timeRsp _ m => m.wellFormed
  | .leader _ m => m.wellFormed
  | .lossNotice _ m => m.wellFormed
  | .safeNotice _ m => m.wellFormed
  | .gfault _ m => m.wellFormed
  | .admitNotice _ m => m.wellFormed
  | .fwmsg _ m => m.wellFormed
  | .fwmsgRead _ => true
  | .lssig _ m => m.wellFormed
  | .lsrows _ m => m.wellFormed
  | .remoteRequestTimeout _ => true
  | .timeExchangeTimer _ => true
  | .syncSend _ => true
  | .leaderBroadcast => true
  | .leaderTimeout => true
  | .gfClear _ _ => true
  | .nrClear _ _ => true
  | .routeTableWrite _ _ _ => true
  | .tunnelEnable _ _ _ => true
  | .tunnelFrameReceive _ f rs => f.wellFormed 92 && (rs.all Reply.wellFormed)
  | .keepalive _ => true
  | .tunnelRetransmit _ => true
  | .sweepGo _ _ => true
  | .sweepStart _ m => m.wellFormed
  | .sweepRefusal _ m => m.wellFormed
  | .sweepS0 => true
  | .sweepSyncSend _ => true
  | .sweepSync _ m => m.wellFormed
  | .sweepAckSend => true
  | .sweepAck _ m => m.wellFormed
  | .sweepCut => true
  | .sweepAckMissing _ => true
  | .sweepStop _ m => m.wellFormed
  | .sweepEnd _ m => m.wellFormed
  | .sweepAbort _ _ => true
  | .frTailWrite _ _ _ => true
  | .fieldEntryDone _ rs => (rs.all Reply.wellFormed)
  | .ethFrameReceive _ _ f _ rs => decide (f.length ≤ 9018) && (rs.all Reply.wellFormed)
  | .ethFrameTransmit _ _ rs => (rs.all Reply.wellFormed)
  | .gateEntryEnd _ => true
  | .qbvChange _ _ _ => true
  | .adminListActivation _ => true
  | .rateAdjWrite _ _ => true
  | .timeStep _ _ => true
  | .canTxreq _ _ _ => true
  | .canTransmitDone _ => true
  | .canFrameReceive _ _ f rs => f.wellFormed && (rs.all Reply.wellFormed)
  | .canBusOff _ => true
  | .canRecover _ _ _ => true
  | .busOffRecovery _ => true
  | .csiFrameStart _ _ _ _ rs => (rs.all Reply.wellFormed)
  | .csiLine _ _ _ _ vals _ rs => (vals.all fun x => decide (x < 2 ^ 16)) && (rs.all Reply.wellFormed)
  | .csiBandComplete _ _ => true
  | .csiFrameEnd _ _ _ rs => (rs.all Reply.wellFormed)
  | .csiFrameTimeout _ _ rs => (rs.all Reply.wellFormed)
  | .csBufRet _ _ _ _ => true
  | .spiTx _ _ _ => true
  | .i2cCmd _ _ _ => true
  | .uartTx _ _ _ => true
  | .xspiCmd _ _ => true
  | .serialTransferDone e => e.wellFormed
  | .serialRxRead _ _ => true
  | .xspiWdataRead _ rs => (rs.all Reply.wellFormed)
  | .reproWrite _ _ => true
  | .rpStepWrite _ _ => true
  | .rpStepAdv _ _ => true
  | .generatorDraw _ _ => true
  | .generatorDrawDone => true
  | .lsEnable _ _ => true
  | .stepClose _ _ => true
  | .lsTimeout _ _ => true
  | .faultAssertion _ _ => true
  | .sfEnter _ _ => true
  | .sfExit _ _ => true
  | .sfSwfault _ _ => true
  | .watchdogKick _ _ => true
  | .watchdogExpiry => true
  | .clockMonitorWindow _ => true
  | .stoReadbackMismatch _ _ => true
  | .stoTestPulse _ _ => true
  | .safeInLow _ _ => true
  | .safetyFramePeriod _ => true
  | .safetyPduReceive _ pdu => decide (pdu.length ≤ 64)
  | .safetyRxTimeout _ => true
  | .firewallWrite _ _ => true
  | .firewallRead _ _ => true
  | .firewallArm _ _ => true
  | .firewallLock _ _ => true
  | .firewallParitySweep _ => true
  | .drain _ _ => true
  | .drainRetryWindowEnd _ => true
  | .drainComplete _ => true
  | .drainTimeout _ => true
  | .bist _ _ => true
  | .bistComplete _ _ => true
  | .admitUnit _ _ => true
  | .admittingEnd _ => true
  | .pwmCompareEdge _ _ => true
  | .capturingRead _ _ rs => (rs.all Reply.wellFormed)
  | .portTimeout _ _ => true
  | .completionTimeout _ _ _ => true
  | .configurationRequest _ => true
  | .jtagRequest _ => true
  | .stoTestPulseEnd _ _ => true

end Sys2Proof
end

