-- ==== Sys2Proof/Tests/Slice0.lean ====
section
/-! SUPPORT. Tests of the model: commands that are not well formed, and for each statement with hypotheses a state and operands that meet them. -/

set_option maxRecDepth 4000
set_option linter.all false

namespace Sys2Proof.Tests

open Sys2Proof Sys2Proof.Machine
/-- A host that is not the island. -/
def host : Who := { ini := 0x20, cls := 1, remote := false }
/-- The safety island. -/
def island : Who := { ini := 0x24, cls := 1, remote := false }
/-- A state in which the part runs. -/
def up : State := { State.reset with boot := { State.reset.boot with porst := false } }
/-- Memories that have been zeroed. -/
def memUp : State := { up with unknown := [] }
/-- A context with a row in execution. -/
def runUp (s : State) (u c : Nat) (x : CtxInt) : State := (s.wr (R.CTX_STAT_STATE (win u) c) 2).setCtx u c { x with exec := true }
/-- The parameter block of a copy of 8 bytes between two lines of a Windchest. -/
def copyParam8 : List Byte := leBytes 8 0x12000000 ++ leBytes 8 0x12000040 ++ [7, 0, 0, 0, 0, 0, 3, 0] ++ List.replicate 40 0
/-- Context 3 of tile 0 in WAIT at a committed row 0 in an enabled sequencer. -/
def fireAt (row : Nat) : State :=
  (((((up.wr (R.SEQ_CTRL_ENABLE 0x808000) 1).wr (R.CTX_STAT_STATE 0x808000 3) 1).wr (R.ROWS_WORD 0x808000 0 0) (row % 2 ^ 32)).wr (R.ROWS_WORD 0x808000 0 1) (row / 2 ^ 32 % 2 ^ 32)).wr
    (R.TOKCNT_COUNT 0x808000 3 0) 9)
/-- Context 3 of tile 0 with a row in execution that its engine reported done. -/
def doneAt (row : Nat) : State := runUp up 0 3 { row := row, result := some (.ok, 0) }
/-- The same context with its row of class 1 and COST 5 waiting for its grant, and a balance to pay it from. -/
def askAt : State := ((fireAt 0x800051011).setCtx 0 3 { asked := true }).wrS R.BEL_BAL_C_BAL 1
/-- Context 3 of tile 0 in execution of a row of an engine and an operation with its parameter block read. -/
def tileAt (e op : Nat) (param : List Byte) : State := runUp memUp 0 3 { row := e + 16 * op, param := param }
/-- A VEC block of one INT32 element with an immediate b. -/
def vecParam : List Byte := List.replicate 36 0 ++ leBytes 4 0x35555 ++ List.replicate 12 0 ++ [1] ++ List.replicate 11 0
/-- A VEC block of one FP32 element with an immediate b. -/
def vecParamFp : List Byte := List.replicate 36 0 ++ leBytes 4 0x2AAAA ++ List.replicate 24 0
/-- An MMA block of one INT8 product. -/
def mmaParam : List Byte := List.replicate 28 0 ++ leBytes 4 64 ++ leBytes 4 0 ++ leBytes 4 0x500 ++ List.replicate 24 0
/-- A SEL block of one FP32 key. -/
def selParam : List Byte := List.replicate 31 0 ++ [10] ++ List.replicate 32 0
/-- A MERGE block of one record of FP32 keys. -/
def mergeParam : List Byte := List.replicate 31 0 ++ [10] ++ List.replicate 32 0
/-- A MERGE row over a store whose one record is empty and of FP32 keys. -/
def mergeAt : State := { tileAt 3 2 mergeParam with mem := [(0x20000001, 1)] }
/-- A store with a SEL block at its start. -/
def qselAt : State := { memUp with mem := [(0x2000001F, 10)] }
/-- Axis 0 in OFF with a half-period of 4,000 set up. -/
def axisSet : State := (up.wr (R.AX_PWM_HALF 0) 4000).wr R.SF_STAT_SAFE 0
/-- Axis 0 with its counter running and its current inputs on, in a state. -/
def axisIn (st : Nat) : State :=
  (((((axisSet.wr (R.AX_STAT_STATE 0) st).wr (R.SD_CFG_MODE 0) 1).wr (R.SD_CFG_MODE 1) 1).wr (R.SD_CFG_MODE 2) 1).wr (R.AX_FB_PP 0) 1).axMod 0 fun a =>
    { a with run := true, half := 4000, halfP := 4000 }
/-- Axis 0 ready to start, its slots in RUN. -/
def axisReady : State := ((axisIn 0).wr (R.CHN_SLOT_STAT_STATE 0) 1).wr (R.AX_SLOTS_Q_SLOT 0) 0
/-- Start-up in a stage. -/
def bootIn (stage : Nat) : State := up.wr R.BOOT_STAT_STAGE stage
/-- A boot image of one MGMT and one ISLAND segment of 64 bytes. -/
def bootImg : List Byte :=
  leBytes 4 0x4C45564D ++ [1, 0, 2, 0] ++ List.replicate 8 0 ++ leBytes 8 0x12000000 ++ List.replicate 104 0 ++
    (leBytes 4 512 ++ leBytes 4 64 ++ leBytes 4 0 ++ [0, 0, 0, 1]) ++ (leBytes 4 576 ++ leBytes 4 64 ++ leBytes 4 64 ++ [0, 0, 0, 2]) ++ List.replicate 480 0
/-- Lane 0 on, slot 5 in its list, in RUN and pending on it. -/
def slotPending : State :=
  ((((memUp.wr (R.LANE0_LIST_ENTRIES 0) 0x85).wr (R.CHN_SLOT_STAT_STATE 5) 1).wr R.CHN_CTRL_LANE0_EN 1).slotMod 5 fun t => { t with pend0 := true, wait := [0] })
/-- What an evaluation of a record of zeros latched. -/
def latchOne : ChnLatch := { rcd := List.replicate 512 0, r := 0x10000000 }
/-- Drone 1 in a state. -/
def droneIn (st : Nat) : State := (up.wr (R.DRN_STAT_STATE 1) st).wr (R.DRN_STAT_QUALITY 1) (qualityOf st)
/-- A field ring of 16 entries at the start of the Windchests, one given. -/
def ringUp (b : Nat) : State := (((memUp.wr (frBaseLo b) (0x12000000 / 64)).wr (frEnable b) 1).wr (frClass b) 1).wr (frTail b) 1
/-- An Ethernet entry: a buffer of 100 bytes at 0x12000100. -/
def entryFor (n : Nat) : List Byte := leBytes 8 0x12000100 ++ leBytes 2 n ++ List.replicate 22 0
/-- Port 1 on, with an entry of 100 bytes in receive ring 0. -/
def ethRx : State := (((ringUp (ethRxRing 1 0)).wr (R.ETH_CTRL_EN 1) 1).gmWrites host 0x12000000 (entryFor 100)).1
/-- Port 1 on, with a frame of 60 bytes in transmit ring 3. -/
def ethTx : State := (((ringUp (ethTxRing 1 3)).wr (R.ETH_CTRL_EN 1) 1).gmWrites host 0x12000000 (entryFor 60)).1
/-- Port 2 with a list of three entries of a cycle of 1,000 ns from 0 at a system time. -/
def gatesAt (t idx : Nat) : State :=
  { (up.wr (R.QBV_STAT_OPER 2) 1).setQbv 2 { entries := [(100, 1, 0), (50, 2, 0), (100, 3, 0)], cycle := 1000, idx := idx, entryEnd := 100 + 50 * idx, cycleEnd := 1000 } with sysAcc := t * 2 ^ 32 }
/-- Port 2 with an admin list of one entry of 500 ns of a cycle of 2 µs. -/
def adminUp : State := ((up.wr (R.QBV_LEN_LEN 2) 1).wr (R.QBV_CYCLE_CYCLE 2) 2000).wr (R.QBV_ENT_LO_INTERVAL 2 0) 500
/-- CAN controller 2 on, with an entry in its ring. -/
def canUp : State := (ringUp (canRing 2)).wr (R.CAN_CTRL_EN 2) 1
/-- CSI receiver 1 with context 0 on virtual channel 2, ten lines, one free buffer. -/
def csiUp : State :=
  (((((((memUp.wr (R.CSI_CTRL_EN 1) 1).wr (R.CS_MATCH_EN 1 0) 1).wr (R.CS_MATCH_VC 1 0) 2).wr (R.CS_MATCH_DT 1 0) 0x2B).wr (R.CS_GEOM_LINES 1 0) 10).wr (R.CS_STATUS_FREE 1 0) 1).wr (R.CS_BUF_LO_BUF 1 0) 0x1200).wr
    (R.CS_STAT_LO_STAT 1 0) 0x120100
/-- Engine 3 in RUN at word 5 in the engine cycle that began at 100. -/
def feAt (w : Nat) : State :=
  { (((up.wr (R.FE_STAT_STATE 3) 2).wr (R.FE_PC_PC 3) 5).wr (R.FE_IMEM_WORD 3 5) w).setFe 3 { known := [5], div := 4, nextAt := 100 } with now := 102 }
/-- The same engine with the word stalled since that cycle. -/
def feStalled (w : Nat) : State := ((feAt w).wr (R.FE_STAT_STALL 3) 1).feMod 3 fun x => { x with stalled := some (w, false), began := 90, nextAt := 94 }

theorem test_illFormed_write_too_long : Instr.wellFormed (.memoryWrite { ini := 0, cls := 1, remote := false } 0xFF none 0 (List.replicate 4097 0)) = false := by
  decide +kernel

set_option Elab.async false in
theorem test_met_firewallLockKept :
    ∃ (s t : State) (c : Instr) (rest : List Instr), s.pending = c :: rest ∧ c ≠ .porstNAssert ∧ step s = .next t :=
  ⟨{ up with fwLocked := [3], pending := [.dividerAlignment] }, { up with fwLocked := [3] }, .dividerAlignment, [], rfl, by decide, rfl⟩

set_option Elab.async false in
theorem test_met_nothingStored :
    ∃ (c : Instr) (s t : State), Instr.storesNothing c = true ∧ exec c s = .next t :=
  ⟨.dividerAlignment, up, _, rfl, rfl⟩

set_option Elab.async false in
theorem test_met_memoryReadAfterWrite :
    ∃ (s : State) (code a : Nat) (data : List Byte) (w w' : Who), s.clean code a data.length ∧ s.on R.MEM_INJ_CTRL_ARM = false ∧ code ∉ s.unknown :=
  ⟨memUp, 0x40, 0x12000000, [1, 2], host, host, by unfold State.clean; decide +kernel, by decide +kernel, by decide +kernel⟩

set_option Elab.async false in
theorem test_met_engineFaultKeepsCreditsAndPostsNothing :
    ∃ (s : State) (u : Fin 128) (c : Fin 16) (st : Status) (oc : Nat), (s.ctx u c).exec = true ∧ (s.ctx u c).result = some (st, oc) ∧ st ≠ .ok :=
  ⟨(doneAt 1).setCtx 0 3 { exec := true, result := some (.timeout, 0) }, 0, 3, .timeout, 0, by decide +kernel⟩

set_option Elab.async false in
theorem test_met_setupLock :
    ∃ (s : State) (w : Who), s.takes w 0x54 1 :=
  ⟨up, host, by decide +kernel⟩

set_option Elab.async false in
theorem test_met_islLock :
    ∃ (s : State) (w : Who), s.takes w 0x54 2 ∧ w.ini = 0x24 ∧ w.remote = false :=
  ⟨up, island, by decide +kernel⟩

set_option Elab.async false in
theorem test_met_registerWrite :
    ∃ (s : State) (w : Who) (k : Fin 4) (v : BitVec 32) (rs : List Reply), s.takes w (0x70 + 4 * k) v.toNat :=
  ⟨up, host, 3, 5, [], by decide +kernel⟩

set_option Elab.async false in
theorem test_met_capturingRead :
    ∃ (s : State) (w : Who) (rs : List Reply), s.gives w 0x5030 :=
  ⟨up, host, [], by decide +kernel⟩

set_option Elab.async false in
theorem test_met_drain :
    ∃ (s : State) (w : Who) (v : BitVec 32), s.takes w 0x6004 (bits v.toNat 0 8 + 256) ∧ s.isUnit (v.toNat % 128) = true ∧ v.toNat % 128 < 0x68 ∧ (s.unitSt (v.toNat % 128)).state = 0 :=
  ⟨up, host, 0x40, by decide +kernel⟩

set_option Elab.async false in
theorem test_met_drain_port :
    ∃ (s : State) (w : Who) (v : BitVec 32), s.takes w 0x6004 (bits v.toNat 0 8 + 256) ∧ s.isUnit (v.toNat % 128) = true ∧ 0x68 ≤ v.toNat % 128 ∧ (s.unitSt (v.toNat % 128)).state = 0 ∧ s.sweepMaster = false ∧ s.sweepState ≠ 2 :=
  ⟨up, host, 0x68, by decide +kernel⟩

set_option Elab.async false in
theorem test_met_drainRetryWindowEnd :
    ∃ (s : State) (u : Fin 128), (s.unitSt u).state = 1 ∧ 409 ≤ s.since (s.unitSt u).drainCyc :=
  ⟨{ up.setUnit 0x40 { state := 1 } with now := 409 }, 0x40, by decide +kernel⟩

set_option Elab.async false in
theorem test_met_drainComplete :
    ∃ (s : State) (u : Fin 128), (s.unitSt u).state = 1 ∧ s.ledgerEmpty u = true :=
  ⟨up.setUnit 0x40 { state := 1 }, 0x40, by decide +kernel⟩

set_option Elab.async false in
theorem test_met_drainTimeout :
    ∃ (s : State) (u : Fin 128), (s.unitSt u).state = 1 ∧ s.tDrain ≤ tsub s.sysTime (s.unitSt u).drainAt :=
  ⟨{ up.setUnit 0x40 { state := 1 } with sysAcc := 50000 * 2 ^ 32 }, 0x40, by decide +kernel⟩

set_option Elab.async false in
theorem test_met_bist :
    ∃ (s : State) (w : Who) (v : BitVec 32), s.takes w 0x6004 (bits v.toNat 0 8 + 256 * 2) ∧ s.isUnit (v.toNat % 128) = true ∧ (s.unitSt (v.toNat % 128)).state = 2 ∧ (s.unitSt (v.toNat % 128)).powered = true ∧ (s.unitSt (v.toNat % 128)).zeroing = false ∧ (s.unitSt (v.toNat % 128)).bistRun = false :=
  ⟨up.setUnit 0x73 { state := 2 }, host, 0x73, by decide +kernel⟩

set_option Elab.async false in
theorem test_met_bistComplete :
    ∃ (s : State) (u : Fin 128) (ok : Bool), (s.unitSt u).bistRun = true :=
  ⟨up.setUnit 0x40 { state := 2, bistRun := true }, 0x40, true, by decide +kernel⟩

set_option Elab.async false in
theorem test_met_admitUnit :
    ∃ (s : State) (w : Who) (v : BitVec 32), s.takes w 0x6004 (bits v.toNat 0 8 + 256 * 3) ∧ s.isUnit (v.toNat % 128) = true ∧ (s.unitSt (v.toNat % 128)).state = 2 ∧ (s.unitSt (v.toNat % 128)).bistPass = true ∧ (s.unitSt (v.toNat % 128)).zeroed = true ∧ (s.unitSt (v.toNat % 128)).dirty = false ∧ s.orphans (v.toNat % 128) = 0 ∧ (s.unitSt (v.toNat % 128)).powered = true ∧ s.on R.UL_CTRL_GROUP_ADMIT = false :=
  ⟨up.setUnit 0 { state := 2, bistPass := true, zeroed := true }, host, 0, by decide +kernel⟩

set_option Elab.async false in
theorem test_met_admittingEnd :
    ∃ (s : State) (u : Fin 128), (s.unitSt u).state = 3 ∧ 6 ≤ s.since (s.unitSt u).drainCyc :=
  ⟨{ up.setUnit 0x40 { state := 3 } with now := 6 }, 0x40, by decide +kernel⟩

set_option Elab.async false in
theorem test_met_memoryRead :
    ∃ (s s1 : State) (w : Who) (unit : Fin 256) (ep : Option (Fin 256)) (ga : BitVec 64) (n code p : Nat) (rs : List Reply), s1 = { s with replies := rs } ∧ w.bar = false ∧ 0 < n ∧ n ≤ 64 ∧ s.gaHere ga.toNat = true ∧ gaHost ga.toNat = false ∧ s1.memAdmit w (s1.stampAs ep (gaLocal ga.toNat)) (gaLocal ga.toNat) n false = (s1, .ok, code, p) ∧ ¬ (code = 0x64 ∧ 0x12000 ≤ p - 0x4000000 ∧ p - 0x4000000 < 0x20000) ∧ (∀ wa ∈ wordsOf (eccWord code) p n, tget 0 s.ecc wa = 0) ∧ s.spanUnknown code p n = false :=
  ⟨memUp, _, host, 0xFF, none, 0x12000000, 8, 0x40, 0x12000000, [], rfl, by decide +kernel⟩

set_option Elab.async false in
theorem test_met_memoryWrite :
    ∃ (s : State) (w : Who) (unit : Fin 256) (ep : Option (Fin 256)) (ga : BitVec 64) (data : List Byte) (code p : Nat), w.bar = false ∧ 0 < data.length ∧ data.length ≤ 64 ∧ s.gaHere ga.toNat = true ∧ gaHost ga.toNat = false ∧ s.memAdmit w (s.stampAs ep (gaLocal ga.toNat)) (gaLocal ga.toNat) data.length true = (s, .ok, code, p) ∧ (∀ wa ∈ wordsOf (eccWord code) p data.length, tget 0 s.ecc wa = 0) ∧ s.on R.MEM_INJ_CTRL_ARM = false :=
  ⟨up, host, 0xFF, none, 0x12000000, [1, 2, 3], 0x40, 0x12000000, by decide +kernel⟩

set_option Elab.async false in
theorem test_met_writeAcknowledgement :
    ∃ (s : State) (ini : Fin 64) (st : Status) (l : List (Nat × Status)), s.acks = (ini.val, st) :: l ∧ s.tokWait = [none, none, none, none] :=
  ⟨{ up with acks := [(5, .ok)] }, 5, .ok, [], by decide +kernel⟩

set_option Elab.async false in
theorem test_met_eccWriteBack :
    ∃ (s : State) (wa : BitVec 48), wa.toNat ∈ s.wb ∧ tget 0 s.ecc wa.toNat = 1 :=
  ⟨{ up with wb := [0x12000000], ecc := [(0x12000000, 1)] }, 0x12000000, by decide +kernel⟩

set_option Elab.async false in
theorem test_met_scrubRead :
    ∃ (s : State) (skip : List (Fin 128)), s.on R.MEM_SCRUB_EN = true ∧ s.rd R.MEM_SCRUB_INTERVAL ≠ 0 ∧ s.ecc = [] :=
  ⟨{ up with regs := [(R.MEM_SCRUB_EN.key, 1), (R.MEM_SCRUB_INTERVAL.key, 100)] }, [], by decide +kernel⟩

set_option Elab.async false in
theorem test_met_amo :
    ∃ (s : State) (core : Fin 4) (op : AmoOp) (ga : BitVec 64) (wide : Bool) (v : BitVec 64) (code p n : Nat), (n = if wide then 8 else 4) ∧ op ≠ .lr ∧ op ≠ .sc ∧ 0x40 ≤ code ∧ code < 0x60 ∧ s.gaHere ga.toNat = true ∧ gaHost ga.toNat = false ∧ gaLocal ga.toNat % n = 0 ∧ s.memAdmit { ini := Fin.ofNat 64 (0x20 + core), cls := 1, remote := false } (s.stamp (gaLocal ga.toNat)) (gaLocal ga.toNat) n false = (s, .ok, code, p) ∧ s.memAdmit { ini := Fin.ofNat 64 (0x20 + core), cls := 1, remote := false } (s.stamp (gaLocal ga.toNat)) (gaLocal ga.toNat) n true = (s, .ok, code, p) ∧ (∀ wa ∈ wordsOf 8 p n, tget 0 s.ecc wa = 0) ∧ s.spanUnknown code p n = false ∧ s.on R.MEM_INJ_CTRL_ARM = false :=
  ⟨memUp, 0, .add, 0x12000000, true, 5, 0x40, 0x12000000, 8, by decide +kernel⟩

set_option Elab.async false in
theorem test_met_amo_lr :
    ∃ (s : State) (core : Fin 4) (ga : BitVec 64) (wide : Bool) (v : BitVec 64) (code p n : Nat), (n = if wide then 8 else 4) ∧ 0x40 ≤ code ∧ code < 0x60 ∧ s.gaHere ga.toNat = true ∧ gaHost ga.toNat = false ∧ gaLocal ga.toNat % n = 0 ∧ s.memAdmit { ini := Fin.ofNat 64 (0x20 + core), cls := 1, remote := false } (s.stamp (gaLocal ga.toNat)) (gaLocal ga.toNat) n false = (s, .ok, code, p) ∧ (∀ wa ∈ wordsOf 8 p n, tget 0 s.ecc wa = 0) ∧ s.spanUnknown code p n = false :=
  ⟨memUp, 3, 0x12000040, false, 5, 0x40, 0x12000040, 4, by decide +kernel⟩

set_option Elab.async false in
theorem test_met_amo_sc :
    ∃ (s : State) (core : Fin 4) (ga : BitVec 64) (wide : Bool) (v : BitVec 64) (code p n : Nat), (n = if wide then 8 else 4) ∧ 0x40 ≤ code ∧ code < 0x60 ∧ s.gaHere ga.toNat = true ∧ gaHost ga.toNat = false ∧ gaLocal ga.toNat % n = 0 ∧ s.memAdmit { ini := Fin.ofNat 64 (0x20 + core), cls := 1, remote := false } (s.stamp (gaLocal ga.toNat)) (gaLocal ga.toNat) n true = (s, .ok, code, p) ∧ s.resv.getD core 0 ≠ p / 64 + 1 :=
  ⟨memUp, 3, 0x12000040, false, 5, 0x40, 0x12000040, 4, by decide +kernel⟩

set_option Elab.async false in
theorem test_met_memZeroGo :
    ∃ (s : State) (w : Who) (v : BitVec 32), s.takes w 0x4050 (v ||| 0x100).toNat ∧ s.zeroing = 0 ∧ s.zeroAllowed (bits v.toNat 0 8) = true :=
  ⟨up, host, 0x64, by decide +kernel⟩

set_option Elab.async false in
theorem test_met_zeroingDone :
    ∃ (s : State) (code : Nat), s.zeroing = code + 1 ∧ code < 0x65 :=
  ⟨{ up with zeroing := 0x41 }, 0x40, by decide +kernel⟩

set_option Elab.async false in
theorem test_met_memCntClr :
    ∃ (s : State) (w : Who) (v : BitVec 32), s.takes w 0x4030 (v ||| 1).toNat :=
  ⟨up, host, 0, by decide +kernel⟩

set_option Elab.async false in
theorem test_met_copy :
    ∃ (s s1 : State) (u : Fin 128) (c : Fin 16) (rs : List Reply) (w : Who) (l : List Byte) (sga dga code p code' p' : Nat), s1 = { s with replies := rs } ∧ s.copyRuns 1 u c = true ∧ w = s.rowWho u c (rowClass (s.ctx u c).row) ∧ s1.copyParam u c w = (s1, .ok, l) ∧ (copyBlk l).lines = 1 ∧ (copyBlk l).len ≤ 64 ∧ sga = gaAdd (s.copyGa (copyBlk l).src (copyBlk l).srcHere) (s.rd (R.CTX_PC_ITER (win u) c) * (copyBlk l).srcIter) ∧ dga = gaAdd (s.copyGa (copyBlk l).dst (copyBlk l).dstHere) (s.rd (R.CTX_PC_ITER (win u) c) * (copyBlk l).dstIter) ∧ gaLocal sga % 64 + (copyBlk l).len ≤ 64 ∧ gaLocal dga % 64 + (copyBlk l).len ≤ 64 ∧ s.gaHere sga = true ∧ gaHost sga = false ∧ s.gaHere dga = true ∧ gaHost dga = false ∧ s1.memAdmit w (s1.stamp (gaLocal sga)) (gaLocal sga) (copyBlk l).len false = (s1, .ok, code, p) ∧ s1.memAdmit w (s1.stamp (gaLocal dga)) (gaLocal dga) (copyBlk l).len true = (s1, .ok, code', p') ∧ ¬ (code = 0x64 ∧ 0x12000 ≤ p - 0x4000000 ∧ p - 0x4000000 < 0x20000) ∧ (∀ wa ∈ wordsOf (eccWord code) p (copyBlk l).len, tget 0 s.ecc wa = 0) ∧ (∀ wa ∈ wordsOf (eccWord code') p' (copyBlk l).len, tget 0 s.ecc wa = 0) ∧ s.spanUnknown code p (copyBlk l).len = false ∧ s.on R.MEM_INJ_CTRL_ARM = false :=
  ⟨runUp memUp 0x50 0 { row := 24, param := copyParam8 }, _, 0x50, 0, [], up.rowWho 0x50 0 0, copyParam8, 0x12000000, 0x12000040, 0x40, 0x12000000, 0x40, 0x12000040, rfl, by decide +kernel⟩

set_option Elab.async false in
theorem test_met_fill :
    ∃ (s s1 : State) (u : Fin 128) (c : Fin 16) (rs : List Reply) (w : Who) (l : List Byte) (dga code' p' : Nat), s1 = { s with replies := rs } ∧ s.copyRuns 2 u c = true ∧ w = s.rowWho u c (rowClass (s.ctx u c).row) ∧ s1.copyParam u c w = (s1, .ok, l) ∧ (copyBlk l).lines = 1 ∧ (copyBlk l).len ≤ 64 ∧ dga = gaAdd (s.copyGa (copyBlk l).dst (copyBlk l).dstHere) (s.rd (R.CTX_PC_ITER (win u) c) * (copyBlk l).dstIter) ∧ gaLocal dga % 64 + (copyBlk l).len ≤ 64 ∧ s.gaHere dga = true ∧ gaHost dga = false ∧ s1.memAdmit w (s1.stamp (gaLocal dga)) (gaLocal dga) (copyBlk l).len true = (s1, .ok, code', p') ∧ (∀ wa ∈ wordsOf (eccWord code') p' (copyBlk l).len, tget 0 s.ecc wa = 0) ∧ s.on R.MEM_INJ_CTRL_ARM = false :=
  ⟨runUp memUp 0x50 0 { row := 40, param := copyParam8 }, _, 0x50, 0, [], up.rowWho 0x50 0 0, copyParam8, 0x12000040, 0x40, 0x12000040, rfl, by decide +kernel⟩

set_option Elab.async false in
theorem test_met_ctxStart :
    ∃ (s : State) (w : Who) (u : Fin 128) (b : Nat) (c : Fin 16) (v : BitVec 32), windowOf u = some b ∧ isSeq u = true ∧ s.takes w (b + (0x100 + 0x10 * c)) (v ||| 1).toNat ∧ bits v.toNat 1 3 = 0 ∧ (s.ctxState u c = 0 ∨ s.ctxState u c = 3) ∧ s.rd (R.SEQ_CTRL_ABI b) = 2 :=
  ⟨up.wr (R.SEQ_CTRL_ABI 0x808000) 2, host, 0, 0x808000, 0, 0, by decide +kernel⟩

set_option Elab.async false in
theorem test_met_ctxStep :
    ∃ (s : State) (w : Who) (u : Fin 128) (b : Nat) (c : Fin 16) (v : BitVec 32), windowOf u = some b ∧ isSeq u = true ∧ s.takes w (b + (0x100 + 0x10 * c)) (v ||| 4).toNat ∧ bit v.toNat 1 = false ∧ bit v.toNat 3 = false ∧ (s.ctxState u c = 0 ∨ s.ctxState u c = 3) ∧ s.rd (R.SEQ_CTRL_ABI b) = 2 :=
  ⟨up.wr (R.SEQ_CTRL_ABI 0x420000) 2, host, 0x50, 0x420000, 15, 1, by decide +kernel⟩

set_option Elab.async false in
theorem test_met_ctxHalt :
    ∃ (s : State) (w : Who) (u : Fin 128) (b : Nat) (c : Fin 16) (v : BitVec 32), windowOf u = some b ∧ isSeq u = true ∧ s.takes w (b + (0x100 + 0x10 * c)) (v ||| 2).toNat ∧ bit v.toNat 0 = false ∧ bit v.toNat 2 = false ∧ bit v.toNat 3 = false ∧ (s.ctxState u c = 1 ∨ (s.ctxState u c = 2 ∧ (s.ctx u c).exec = false)) :=
  ⟨up.wr (R.CTX_STAT_STATE 0x808000 3) 1, host, 0, 0x808000, 3, 0, by decide +kernel⟩

set_option Elab.async false in
theorem test_met_ctxHalt_pending :
    ∃ (s : State) (w : Who) (u : Fin 128) (b : Nat) (c : Fin 16) (v : BitVec 32), windowOf u = some b ∧ isSeq u = true ∧ s.takes w (b + (0x100 + 0x10 * c)) (v ||| 2).toNat ∧ bit v.toNat 0 = false ∧ bit v.toNat 2 = false ∧ bit v.toNat 3 = false ∧ s.ctxState u c = 2 ∧ (s.ctx u c).exec = true :=
  ⟨runUp up 0 3 {}, host, 0, 0x808000, 3, 0, by decide +kernel⟩

set_option Elab.async false in
theorem test_met_ctxClear :
    ∃ (s : State) (w : Who) (u : Fin 128) (b : Nat) (c : Fin 16) (v : BitVec 32), windowOf u = some b ∧ isSeq u = true ∧ s.takes w (b + (0x100 + 0x10 * c)) (v ||| 8).toNat ∧ bits v.toNat 0 3 = 0 ∧ (s.ctxState u c = 3 ∨ s.ctxState u c = 4) :=
  ⟨up.wr (R.CTX_STAT_STATE 0x808000 3) 4, host, 0, 0x808000, 3, 0, by decide +kernel⟩

set_option Elab.async false in
theorem test_met_ctxPcWrite :
    ∃ (s : State) (w : Who) (u : Fin 128) (b : Nat) (c : Fin 16) (v : BitVec 32), windowOf u = some b ∧ isSeq u = true ∧ s.takes w (b + (0x104 + 0x10 * c)) v.toNat ∧ (s.ctxState u c = 0 ∨ s.ctxState u c = 3) :=
  ⟨up, host, 0x48, 0x210000, 15, 0xFFFFFFFF, by decide +kernel⟩

set_option Elab.async false in
theorem test_met_rowCommit :
    ∃ (s : State) (w : Who) (u : Fin 128) (b : Nat) (r : Fin 512) (v : BitVec 32), windowOf u = some b ∧ isSeq u = true ∧ r.val < rowsOf u ∧ s.takes w (b + (0x2000 + 0x20 * r + 0x1C)) v.toNat :=
  ⟨{ up with rowStage := [(0x80A000, 5)] }, host, 0, 0x808000, 0, 1, by decide +kernel⟩

set_option Elab.async false in
theorem test_met_ctxStall :
    ∃ (s : State) (u : Fin 128) (c : Fin 16), isSeq u = true ∧ s.ctxState u c = 1 ∧ s.rd (R.CTX_TIMEOUT_TIMEOUT (win u) c) ≠ 0 ∧ 400 * s.rd (R.CTX_TIMEOUT_TIMEOUT (win u) c) ≤ s.since (s.ctx u c).arrived :=
  ⟨{ (up.wr (R.CTX_STAT_STATE 0x808000 3) 1).wr (R.CTX_TIMEOUT_TIMEOUT 0x808000 3) 1 with now := 400 }, 0, 3, by decide +kernel⟩

set_option Elab.async false in
theorem test_met_seqErrRead :
    ∃ (s : State) (w : Who) (u : Fin 128) (b : Nat), windowOf u = some b ∧ isSeq u = true ∧ s.gives w (b + 8) :=
  ⟨{ up with errHeld := [0x57] }, host, 0x57, 0x43C000, by decide +kernel⟩

set_option Elab.async false in
theorem test_met_tokenArrival :
    ∃ (s : State) (ix m src : Nat), s.msgs[ix]? = some (m, src) ∧ bit m 15 = false ∧ bits m 0 15 = s.chip ∧ State.msgGate { s with msgs := s.msgs.eraseIdx ix } m = ({ s with msgs := s.msgs.eraseIdx ix }, .ok) :=
  ⟨{ up with msgs := [(tokenMsg 0 0 3 2 1 0 1, 0)] }, 0, tokenMsg 0 0 3 2 1 0 1, 0, by decide +kernel⟩

set_option Elab.async false in
theorem test_met_creditArrival :
    ∃ (s : State) (ix m src : Nat), s.msgs[ix]? = some (m, src) ∧ bit m 15 = true ∧ bits m 0 15 = s.chip ∧ State.msgGate { s with msgs := s.msgs.eraseIdx ix } m = ({ s with msgs := s.msgs.eraseIdx ix }, .ok) ∧ s.rd (R.POOL_INIT_INIT (win (bits m 16 8)) (bits m 24 5)) < 65536 :=
  ⟨{ up with msgs := [(creditMsg 0 0 31 1 0 1, 0)] }, 0, creditMsg 0 0 31 1 0 1, 0, by decide +kernel⟩

set_option Elab.async false in
theorem test_met_tokcntWrite :
    ∃ (s : State) (w : Who) (u : Fin 128) (b : Nat) (c k : Fin 16) (v : BitVec 32) (taken arrived : BitVec 16), windowOf u = some b ∧ s.takes w (b + (0x200 + 0x40 * c + 4 * k)) v.toNat :=
  ⟨up, host, 0, 0x808000, 15, 15, 0x3FFFF, 1, 2, by decide +kernel⟩

set_option Elab.async false in
theorem test_met_poolCntWrite :
    ∃ (s : State) (w : Who) (u : Fin 128) (b : Nat) (p : Fin 32) (v : BitVec 32) (taken returned : BitVec 16), windowOf u = some b ∧ s.takes w (b + (0xA00 + 8 * p)) v.toNat ∧ s.rd (R.POOL_INIT_INIT b p) < 65536 :=
  ⟨up, host, 0x40, 0x150000, 31, 5, 1, 2, by decide +kernel⟩

set_option Elab.async false in
theorem test_met_toktake :
    ∃ (s : State) (w : Who) (u : Fin 128) (b : Nat) (c k : Fin 16) (n : BitVec 16), windowOf u = some b ∧ isSink u = true ∧ s.takes w (b + (0x1000 + 0x40 * c + 4 * k)) n.toNat ∧ s.on (R.TOKBIND_EN b c k) = false ∧ s.rd (R.TOKCNT_COUNT b c k) < 65536 :=
  ⟨up, host, 0x60, 0x8000, 0, 0, 0xFFFF, by decide +kernel⟩

set_option Elab.async false in
theorem test_met_postAnswer :
    ∃ (s : State) (ix k : Nat) (st : Status), s.postAns[ix]? = some (k, st) ∧ (s.ctx (k / 16) (k % 16)).exec = false ∧ (s.ctxState (k / 16) (k % 16) = 1 ∨ s.ctxState (k / 16) (k % 16) = 2) :=
  ⟨{ up.wr (R.CTX_STAT_STATE 0x808000 3) 1 with postAns := [(3, .firewall)] }, 0, 3, .firewall, by decide +kernel⟩

set_option Elab.async false in
theorem test_met_rowEligible :
    ∃ (s : State) (u : Fin 128) (c : Fin 16), s.ctxState u c = 1 ∧ s.rowCode u c (s.rd (R.CTX_PC_PC (win u) c)) (fun r => s.engineBad u r) = 0 ∧ s.eligible u c = true ∧ (rowCost (s.ctxRow u c) = 0 ∨ (s.ctx u c).granted = true) ∧ (rowBrk (s.ctxRow u c) = false ∨ (s.ctx u c).passing = true) ∧ rowEngine (s.ctxRow u c) ≠ 0xF :=
  ⟨fireAt 0x800000011, 0, 3, by decide +kernel⟩

set_option Elab.async false in
theorem test_met_rowEligible_ask :
    ∃ (s : State) (u : Fin 128) (c : Fin 16), s.ctxState u c = 1 ∧ s.rowCode u c (s.rd (R.CTX_PC_PC (win u) c)) (fun r => s.engineBad u r) = 0 ∧ s.eligible u c = true ∧ rowCost (s.ctxRow u c) ≠ 0 ∧ rowClass (s.ctxRow u c) ≠ 0 ∧ rowEngine (s.ctxRow u c) ≠ 5 ∧ rowEngine (s.ctxRow u c) ≠ 6 ∧ (s.ctx u c).granted = false :=
  ⟨fireAt 0x800051011, 0, 3, by decide +kernel⟩

set_option Elab.async false in
theorem test_met_rowEligible_break :
    ∃ (s : State) (u : Fin 128) (c : Fin 16), s.ctxState u c = 1 ∧ s.rowCode u c (s.rd (R.CTX_PC_PC (win u) c)) (fun r => s.engineBad u r) = 0 ∧ s.eligible u c = true ∧ (rowCost (s.ctxRow u c) = 0 ∨ (s.ctx u c).granted = true) ∧ rowBrk (s.ctxRow u c) = true ∧ (s.ctx u c).passing = false ∧ s.rd (R.CTX_PC_ITER (win u) c) = 0 :=
  ⟨fireAt 0x800008011, 0, 3, by decide +kernel⟩

set_option Elab.async false in
theorem test_met_rowEligible_error :
    ∃ (s : State) (u : Fin 128) (c : Fin 16) (e : Nat), s.ctxState u c = 1 ∧ s.seqRuns u = true ∧ s.rowCode u c (s.rd (R.CTX_PC_PC (win u) c)) (fun r => s.engineBad u r) = e ∧ e ≠ 0 :=
  ⟨fireAt 0x800000019, 0, 3, 3, by decide +kernel⟩

set_option Elab.async false in
theorem test_met_sync :
    ∃ (s : State) (u : Fin 128) (c : Fin 16), s.ctxState u c = 1 ∧ s.rowCode u c (s.rd (R.CTX_PC_PC (win u) c)) (fun r => s.engineBad u r) = 0 ∧ s.eligible u c = true ∧ rowEngine (s.ctxRow u c) = 0xF ∧ rowCost (s.ctxRow u c) = 0 ∧ rowBrk (s.ctxRow u c) = false ∧ rowEnd (s.ctxRow u c) = true ∧ rowRepeat (s.ctxRow u c) ≤ s.rd (R.CTX_PC_ITER (win u) c) ∧ (rowPost (s.ctxRow u c) 0).1 = false ∧ (rowPost (s.ctxRow u c) 1).1 = false ∧ (∀ k < 16, s.on (R.TOKBIND_EN (win u) c k) = false) :=
  ⟨fireAt 0x80000400F, 0, 3, by decide +kernel⟩

set_option Elab.async false in
theorem test_met_iterationComplete_next :
    ∃ (s : State) (u : Fin 128) (c : Fin 16) (oc : Nat), (s.ctx u c).exec = true ∧ (s.ctx u c).result = some (.ok, oc) ∧ (∀ x ∈ (s.ctx u c).consumed, s.on (R.TOKBIND_EN (win u) c x.1) = false) ∧ (rowPost (s.ctx u c).row 0).1 = false ∧ (rowPost (s.ctx u c).row 1).1 = false ∧ s.rd (R.CTX_PC_ITER (win u) c) < rowRepeat (s.ctx u c).row ∧ (s.ctx u c).pendHalt = false ∧ (s.ctx u c).pendStep = false :=
  ⟨(doneAt 0x1000000000000000000000000000000000000000000F).wr (R.CTX_PC_ITER 0x808000 3) 0, 0, 3, 0, by decide +kernel⟩

set_option Elab.async false in
theorem test_met_iterationComplete :
    ∃ (s : State) (u : Fin 128) (c : Fin 16) (oc : Nat), (s.ctx u c).exec = true ∧ (s.ctx u c).result = some (.ok, oc) ∧ (∀ x ∈ (s.ctx u c).consumed, s.on (R.TOKBIND_EN (win u) c x.1) = false) ∧ (rowPost (s.ctx u c).row 0).1 = false ∧ (rowPost (s.ctx u c).row 1).1 = false ∧ rowRepeat (s.ctx u c).row ≤ s.rd (R.CTX_PC_ITER (win u) c) ∧ (s.ctx u c).pendHalt = false ∧ (s.ctx u c).pendStep = false ∧ rowEnd (s.ctx u c).row = false :=
  ⟨doneAt 1, 0, 3, 0, by decide +kernel⟩

set_option Elab.async false in
theorem test_met_iterationComplete_end :
    ∃ (s : State) (u : Fin 128) (c : Fin 16) (oc : Nat), (s.ctx u c).exec = true ∧ (s.ctx u c).result = some (.ok, oc) ∧ (∀ x ∈ (s.ctx u c).consumed, s.on (R.TOKBIND_EN (win u) c x.1) = false) ∧ (rowPost (s.ctx u c).row 0).1 = false ∧ (rowPost (s.ctx u c).row 1).1 = false ∧ rowRepeat (s.ctx u c).row ≤ s.rd (R.CTX_PC_ITER (win u) c) ∧ rowEnd (s.ctx u c).row = true :=
  ⟨doneAt 0x4001, 0, 3, 0, by decide +kernel⟩

set_option Elab.async false in
theorem test_met_iterationComplete_error :
    ∃ (s : State) (u : Fin 128) (c : Fin 16) (st : Status) (oc : Nat), (s.ctx u c).exec = true ∧ (s.ctx u c).result = some (st, oc) ∧ st ≠ .ok ∧ (∀ x ∈ (s.ctx u c).consumed, s.on (R.TOKBIND_EN (win u) c x.1) = false) :=
  ⟨(doneAt 1).setCtx 0 3 { exec := true, result := some (.timeout, 0) }, 0, 3, .timeout, 0, by decide +kernel⟩

set_option Elab.async false in
theorem test_met_grantDecision :
    ∃ (s s1 : State) (u : Fin 128) (c : Fin 16), s.ordered = [16 * u.val + c.val] ∧ s.grants (rowClass (s.ctxRow u c)) (rowCost (s.ctxRow u c)) = true ∧ s1 = (s.charge (rowClass (s.ctxRow u c)) (rowCost (s.ctxRow u c))).setCtx u c { s.ctx u c with asked := false, granted := true } ∧ s1.eligible u c = true ∧ (rowBrk (s1.ctxRow u c) = false ∨ (s.ctx u c).passing = true) ∧ rowEngine (s1.ctxRow u c) ≠ 0xF :=
  ⟨askAt, (askAt.charge 1 5).setCtx 0 3 { askAt.ctx 0 3 with asked := false, granted := true }, 0, 3, by decide +kernel⟩

set_option Elab.async false in
theorem test_met_grantDecision_late :
    ∃ (s s1 : State) (u : Fin 128) (c : Fin 16), s.ordered = [16 * u.val + c.val] ∧ s.grants (rowClass (s.ctxRow u c)) (rowCost (s.ctxRow u c)) = true ∧ (rowClass (s.ctxRow u c) = 1 ∨ rowClass (s.ctxRow u c) = 2 ∨ rowClass (s.ctxRow u c) = 3) ∧ rowCost (s.ctxRow u c) ≠ 0 ∧ s1 = (s.charge (rowClass (s.ctxRow u c)) (rowCost (s.ctxRow u c))).setCtx u c { s.ctx u c with asked := false, granted := true } ∧ s1.eligible u c = false :=
  ⟨askAt.wr (R.SEQ_CTRL_ENABLE 0x808000) 0, ((askAt.wr (R.SEQ_CTRL_ENABLE 0x808000) 0).charge 1 5).setCtx 0 3 { askAt.ctx 0 3 with asked := false, granted := true }, 0, 3, by decide +kernel⟩

set_option Elab.async false in
theorem test_met_grantDecision_refused :
    ∃ (s : State) (u : Fin 128) (c : Fin 16), s.ordered = [16 * u.val + c.val] ∧ s.grants (rowClass (s.ctxRow u c)) (rowCost (s.ctxRow u c)) = false :=
  ⟨askAt.wrS R.BEL_BAL_C_BAL 0, 0, 3, by decide +kernel⟩

set_option Elab.async false in
theorem test_met_mma :
    ∃ (s : State) (u : Fin 64) (c : Fin 16), s.tileRuns u c 1 1 = true ∧ s.storeOpen u = true ∧ mmaRunnable (s.blockOf u c) (s.rd (R.CTX_PC_ITER (win u) c)) = true :=
  ⟨tileAt 1 1 mmaParam, 0, 3, by decide +kernel⟩

set_option Elab.async false in
theorem test_met_mma_invalid :
    ∃ (s : State) (u : Fin 64) (c : Fin 16), s.tileRuns u c 1 1 = true ∧ (s.ctx u c).param ≠ [] ∧ mmaValid (s.ctx u c).param = false :=
  ⟨tileAt 1 1 [1], 0, 3, by decide +kernel⟩

set_option Elab.async false in
theorem test_met_tileCntClr :
    ∃ (s : State) (w : Who) (u : Fin 64) (v : BitVec 32), s.takes w (0x800030 + 0x10000 * u) (v ||| 1).toNat :=
  ⟨up, host, 63, 0, by decide +kernel⟩

set_option Elab.async false in
theorem test_met_add :
    ∃ (s : State) (u : Fin 64) (c : Fin 16), s.tileRuns u c 2 1 = true ∧ s.storeOpen u = true ∧ vecRunnable 1 (s.blockOf u c) (s.rd (R.CTX_PC_ITER (win u) c)) = true :=
  ⟨tileAt 2 1 vecParam, 0, 3, by decide +kernel⟩

set_option Elab.async false in
theorem test_met_sub :
    ∃ (s : State) (u : Fin 64) (c : Fin 16), s.tileRuns u c 2 2 = true ∧ s.storeOpen u = true ∧ vecRunnable 2 (s.blockOf u c) (s.rd (R.CTX_PC_ITER (win u) c)) = true :=
  ⟨tileAt 2 2 vecParam, 0, 3, by decide +kernel⟩

set_option Elab.async false in
theorem test_met_mul :
    ∃ (s : State) (u : Fin 64) (c : Fin 16), s.tileRuns u c 2 3 = true ∧ s.storeOpen u = true ∧ vecRunnable 3 (s.blockOf u c) (s.rd (R.CTX_PC_ITER (win u) c)) = true :=
  ⟨tileAt 2 3 vecParam, 0, 3, by decide +kernel⟩

set_option Elab.async false in
theorem test_met_fma :
    ∃ (s : State) (u : Fin 64) (c : Fin 16), s.tileRuns u c 2 4 = true ∧ s.storeOpen u = true ∧ vecRunnable 4 (s.blockOf u c) (s.rd (R.CTX_PC_ITER (win u) c)) = true :=
  ⟨tileAt 2 4 vecParamFp, 0, 3, by decide +kernel⟩

set_option Elab.async false in
theorem test_met_max :
    ∃ (s : State) (u : Fin 64) (c : Fin 16), s.tileRuns u c 2 5 = true ∧ s.storeOpen u = true ∧ vecRunnable 5 (s.blockOf u c) (s.rd (R.CTX_PC_ITER (win u) c)) = true :=
  ⟨tileAt 2 5 vecParam, 0, 3, by decide +kernel⟩

set_option Elab.async false in
theorem test_met_min :
    ∃ (s : State) (u : Fin 64) (c : Fin 16), s.tileRuns u c 2 6 = true ∧ s.storeOpen u = true ∧ vecRunnable 6 (s.blockOf u c) (s.rd (R.CTX_PC_ITER (win u) c)) = true :=
  ⟨tileAt 2 6 vecParam, 0, 3, by decide +kernel⟩

set_option Elab.async false in
theorem test_met_abs :
    ∃ (s : State) (u : Fin 64) (c : Fin 16), s.tileRuns u c 2 7 = true ∧ s.storeOpen u = true ∧ vecRunnable 7 (s.blockOf u c) (s.rd (R.CTX_PC_ITER (win u) c)) = true :=
  ⟨tileAt 2 7 vecParam, 0, 3, by decide +kernel⟩

set_option Elab.async false in
theorem test_met_neg :
    ∃ (s : State) (u : Fin 64) (c : Fin 16), s.tileRuns u c 2 8 = true ∧ s.storeOpen u = true ∧ vecRunnable 8 (s.blockOf u c) (s.rd (R.CTX_PC_ITER (win u) c)) = true :=
  ⟨tileAt 2 8 vecParam, 0, 3, by decide +kernel⟩

set_option Elab.async false in
theorem test_met_cvt :
    ∃ (s : State) (u : Fin 64) (c : Fin 16), s.tileRuns u c 2 9 = true ∧ s.storeOpen u = true ∧ vecRunnable 9 (s.blockOf u c) (s.rd (R.CTX_PC_ITER (win u) c)) = true :=
  ⟨tileAt 2 9 vecParam, 0, 3, by decide +kernel⟩

set_option Elab.async false in
theorem test_met_requant :
    ∃ (s : State) (u : Fin 64) (c : Fin 16), s.tileRuns u c 2 10 = true ∧ s.storeOpen u = true ∧ vecRunnable 10 (s.blockOf u c) (s.rd (R.CTX_PC_ITER (win u) c)) = true :=
  ⟨tileAt 2 10 vecParam, 0, 3, by decide +kernel⟩

set_option Elab.async false in
theorem test_met_cmpgt :
    ∃ (s : State) (u : Fin 64) (c : Fin 16), s.tileRuns u c 2 11 = true ∧ s.storeOpen u = true ∧ vecRunnable 11 (s.blockOf u c) (s.rd (R.CTX_PC_ITER (win u) c)) = true :=
  ⟨tileAt 2 11 vecParam, 0, 3, by decide +kernel⟩

set_option Elab.async false in
theorem test_met_cmpeq :
    ∃ (s : State) (u : Fin 64) (c : Fin 16), s.tileRuns u c 2 12 = true ∧ s.storeOpen u = true ∧ vecRunnable 12 (s.blockOf u c) (s.rd (R.CTX_PC_ITER (win u) c)) = true :=
  ⟨tileAt 2 12 vecParam, 0, 3, by decide +kernel⟩

set_option Elab.async false in
theorem test_met_select :
    ∃ (s : State) (u : Fin 64) (c : Fin 16), s.tileRuns u c 2 13 = true ∧ s.storeOpen u = true ∧ vecRunnable 13 (s.blockOf u c) (s.rd (R.CTX_PC_ITER (win u) c)) = true :=
  ⟨tileAt 2 13 vecParam, 0, 3, by decide +kernel⟩

set_option Elab.async false in
theorem test_met_recip :
    ∃ (s : State) (u : Fin 64) (c : Fin 16), s.tileRuns u c 2 14 = true ∧ s.storeOpen u = true ∧ vecRunnable 14 (s.blockOf u c) (s.rd (R.CTX_PC_ITER (win u) c)) = true :=
  ⟨tileAt 2 14 vecParamFp, 0, 3, by decide +kernel⟩

set_option Elab.async false in
theorem test_met_rsqrt :
    ∃ (s : State) (u : Fin 64) (c : Fin 16), s.tileRuns u c 2 15 = true ∧ s.storeOpen u = true ∧ vecRunnable 15 (s.blockOf u c) (s.rd (R.CTX_PC_ITER (win u) c)) = true :=
  ⟨tileAt 2 15 vecParamFp, 0, 3, by decide +kernel⟩

set_option Elab.async false in
theorem test_met_exp2 :
    ∃ (s : State) (u : Fin 64) (c : Fin 16), s.tileRuns u c 2 16 = true ∧ s.storeOpen u = true ∧ vecRunnable 16 (s.blockOf u c) (s.rd (R.CTX_PC_ITER (win u) c)) = true :=
  ⟨tileAt 2 16 vecParamFp, 0, 3, by decide +kernel⟩

set_option Elab.async false in
theorem test_met_log2 :
    ∃ (s : State) (u : Fin 64) (c : Fin 16), s.tileRuns u c 2 17 = true ∧ s.storeOpen u = true ∧ vecRunnable 17 (s.blockOf u c) (s.rd (R.CTX_PC_ITER (win u) c)) = true :=
  ⟨tileAt 2 17 vecParamFp, 0, 3, by decide +kernel⟩

set_option Elab.async false in
theorem test_met_rsum :
    ∃ (s : State) (u : Fin 64) (c : Fin 16), s.tileRuns u c 2 18 = true ∧ s.storeOpen u = true ∧ vecRunnable 18 (s.blockOf u c) (s.rd (R.CTX_PC_ITER (win u) c)) = true :=
  ⟨tileAt 2 18 vecParam, 0, 3, by decide +kernel⟩

set_option Elab.async false in
theorem test_met_rmax :
    ∃ (s : State) (u : Fin 64) (c : Fin 16), s.tileRuns u c 2 19 = true ∧ s.storeOpen u = true ∧ vecRunnable 19 (s.blockOf u c) (s.rd (R.CTX_PC_ITER (win u) c)) = true :=
  ⟨tileAt 2 19 vecParam, 0, 3, by decide +kernel⟩

set_option Elab.async false in
theorem test_met_shift :
    ∃ (s : State) (u : Fin 64) (c : Fin 16), s.tileRuns u c 2 20 = true ∧ s.storeOpen u = true ∧ vecRunnable 20 (s.blockOf u c) (s.rd (R.CTX_PC_ITER (win u) c)) = true :=
  ⟨tileAt 2 20 vecParam, 0, 3, by decide +kernel⟩

set_option Elab.async false in
theorem test_met_and :
    ∃ (s : State) (u : Fin 64) (c : Fin 16), s.tileRuns u c 2 21 = true ∧ s.storeOpen u = true ∧ vecRunnable 21 (s.blockOf u c) (s.rd (R.CTX_PC_ITER (win u) c)) = true :=
  ⟨tileAt 2 21 vecParam, 0, 3, by decide +kernel⟩

set_option Elab.async false in
theorem test_met_or :
    ∃ (s : State) (u : Fin 64) (c : Fin 16), s.tileRuns u c 2 22 = true ∧ s.storeOpen u = true ∧ vecRunnable 22 (s.blockOf u c) (s.rd (R.CTX_PC_ITER (win u) c)) = true :=
  ⟨tileAt 2 22 vecParam, 0, 3, by decide +kernel⟩

set_option Elab.async false in
theorem test_met_xor :
    ∃ (s : State) (u : Fin 64) (c : Fin 16), s.tileRuns u c 2 23 = true ∧ s.storeOpen u = true ∧ vecRunnable 23 (s.blockOf u c) (s.rd (R.CTX_PC_ITER (win u) c)) = true :=
  ⟨tileAt 2 23 vecParam, 0, 3, by decide +kernel⟩

set_option Elab.async false in
theorem test_met_add_invalid :
    ∃ (s : State) (u : Fin 64) (c : Fin 16), s.tileRuns u c 2 1 = true ∧ (s.ctx u c).param ≠ [] ∧ vecValid 1 (s.ctx u c).param = false :=
  ⟨tileAt 2 1 (List.replicate 64 255), 0, 3, by decide +kernel⟩

set_option Elab.async false in
theorem test_met_topk :
    ∃ (s : State) (u : Fin 64) (c : Fin 16) (b : SelBlk), s.tileRuns u c 3 1 = true ∧ s.storeOpen u = true ∧ b = selBlk (s.blockOf u c) (s.logical u) (s.rd (R.CTX_PC_ITER (win u) c)) ∧ selValid 1 (s.blockOf u c) = true ∧ b.srcOk = true ∧ inStore b.dst (128 + 8 * b.k) = true ∧ b.chain = false :=
  ⟨tileAt 3 1 selParam, 0, 3, selBlk selParam 0 0, by decide +kernel⟩

set_option Elab.async false in
theorem test_met_merge :
    ∃ (s : State) (u : Fin 64) (c : Fin 16) (b : SelBlk) (x : Selection) (w : Who), s.tileRuns u c 3 2 = true ∧ s.storeOpen u = true ∧ (s.ctx u c).param ≠ [] ∧ b = { selBlk (s.ctx u c).param (s.logical u) (s.rd (R.CTX_PC_ITER (win u) c)) with dst := baseOf (pb (s.ctx u c).param 4 4) (pbS (s.ctx u c).param 12 4) (s.rd (R.CTX_PC_ITER (win u) c)) } ∧ selValid 2 (s.ctx u c).param = true ∧ inStore b.dst (128 + 8 * b.k) = true ∧ w = s.rowWho u c (rowClass (s.ctx u c).row) ∧ s.mergeReads u w b (List.range b.count) {} = (s, .ok, true, x) :=
  ⟨mergeAt, 0, 3, { selBlk mergeParam 0 0 with dst := baseOf 0 0 0 }, Selection.mergeRecord {} { selBlk mergeParam 0 0 with dst := baseOf 0 0 0 } (leBytes 128 0), { ini := 0, cls := 0, remote := false }, by decide +kernel⟩

set_option Elab.async false in
theorem test_met_argidx :
    ∃ (s : State) (u : Fin 64) (c : Fin 16) (b b1 : SelBlk), s.tileRuns u c 3 3 = true ∧ s.storeOpen u = true ∧ b = { selBlk (s.blockOf u c) (s.logical u) (s.rd (R.CTX_PC_ITER (win u) c)) with dst := baseOf (pb (s.blockOf u c) 4 4) (pbS (s.blockOf u c) 12 4) (s.rd (R.CTX_PC_ITER (win u) c)) } ∧ b1 = { selBlk (s.blockOf u c) (s.logical u) (s.rd (R.CTX_PC_ITER (win u) c)) with k := 1 } ∧ selValid 3 (s.blockOf u c) = true ∧ b.srcOk = true ∧ inStore b.dst 4 = true :=
  ⟨tileAt 3 3 selParam, 0, 3, { selBlk selParam 0 0 with dst := baseOf 0 0 0 }, { selBlk selParam 0 0 with k := 1 }, by decide +kernel⟩

set_option Elab.async false in
theorem test_met_selCntClr :
    ∃ (s : State) (w : Who) (u : Fin 64) (v : BitVec 32), s.takes w (0x800040 + 0x10000 * u) (v ||| 2).toNat :=
  ⟨up, host, 63, 1, by decide +kernel⟩

set_option Elab.async false in
theorem test_met_selQmax :
    ∃ (s : State) (core : Fin 4) (rs1 : BitVec 64) (u : Nat) (l : List Byte) (b : SelBlk), tileOfAddr rs1.toNat = some u ∧ s.gate u (s.stamp rs1.toNat) = (s, .ok) ∧ s.storeOpen u = true ∧ rs1.toNat - storeBase u < 0x200000 ∧ l = s.getBytes (storeBase u + (rs1.toNat - storeBase u) / 64 * 64) 64 ∧ b = { selBlk l (s.logical u) 0 with k := 1 } ∧ selValid 3 l = true ∧ b.srcOk = true :=
  ⟨qselAt, 0, 0x20000000, 0, selParam, { selBlk selParam 0 0 with k := 1 }, by decide +kernel⟩

set_option Elab.async false in
theorem test_met_selQtopk :
    ∃ (s : State) (core : Fin 4) (rs1 : BitVec 64) (u : Nat) (l : List Byte) (b : SelBlk), tileOfAddr rs1.toNat = some u ∧ s.gate u (s.stamp rs1.toNat) = (s, .ok) ∧ s.storeOpen u = true ∧ rs1.toNat - storeBase u < 0x200000 ∧ l = s.getBytes (storeBase u + (rs1.toNat - storeBase u) / 64 * 64) 64 ∧ b = { selBlk l (s.logical u) 0 with chain := false } ∧ selValid 1 l = true ∧ b.srcOk = true ∧ inStore b.dst (128 + 8 * b.k) = true :=
  ⟨qselAt, 0, 0x20000000, 0, selParam, { selBlk selParam 0 0 with chain := false }, by decide +kernel⟩

set_option Elab.async false in
theorem test_met_axisStart :
    ∃ (s s1 : State) (w : Who) (n : Fin 12) (v : BitVec 32), s1 = s.axCtrlFields n v.toNat ∧ n < s.axes.length ∧ s.takes w (0x100000 + 0x1000 * n) (v ||| 1).toNat = true ∧ bit v.toNat 1 = false ∧ bit v.toNat 2 = false ∧ s.axState n = 0 ∧ bit v.toNat 3 = (s.axis n).run ∧ s1.axStartOk n = true :=
  ⟨axisReady, _, host, 0, 8, rfl, by decide +kernel⟩

set_option Elab.async false in
theorem test_met_axisStart_rejected :
    ∃ (s s1 : State) (w : Who) (n : Fin 12) (v : BitVec 32), s1 = s.axCtrlFields n v.toNat ∧ n < s.axes.length ∧ s.takes w (0x100000 + 0x1000 * n) (v ||| 1).toNat = true ∧ bit v.toNat 1 = false ∧ bit v.toNat 2 = false ∧ bit v.toNat 3 = (s.axis n).run ∧ (s.axState n ≠ 0 ∨ s1.axStartOk n = false) :=
  ⟨up, _, host, 0, 0, rfl, by decide +kernel⟩

set_option Elab.async false in
theorem test_met_axisStop :
    ∃ (s : State) (w : Who) (n : Fin 12) (v : BitVec 32), n < s.axes.length ∧ s.takes w (0x100000 + 0x1000 * n) (v ||| 2).toNat = true ∧ bit v.toNat 0 = false ∧ bit v.toNat 2 = false ∧ s.axState n = 2 :=
  ⟨axisIn 2, host, 0, 0x308, by decide +kernel⟩

set_option Elab.async false in
theorem test_met_axisStop_catch :
    ∃ (s : State) (w : Who) (n : Fin 12) (v : BitVec 32), n < s.axes.length ∧ s.takes w (0x100000 + 0x1000 * n) (v ||| 2).toNat = true ∧ bit v.toNat 0 = false ∧ bit v.toNat 2 = false ∧ s.axState n = 1 :=
  ⟨axisIn 1, host, 0, 8, by decide +kernel⟩

set_option Elab.async false in
theorem test_met_axisClear :
    ∃ (s s1 : State) (w : Who) (n : Fin 12) (v : BitVec 32), s1 = s.axCtrlFields n v.toNat ∧ n < s.axes.length ∧ s.takes w (0x100000 + 0x1000 * n) (v ||| 4).toNat = true ∧ bit v.toNat 0 = false ∧ bit v.toNat 1 = false ∧ bit v.toNat 3 = (s.axis n).run ∧ s.axState n = 5 ∧ s.axPersists n = false ∧ s.inSafe = false :=
  ⟨axisIn 5, _, host, 0, 8, rfl, by decide +kernel⟩

set_option Elab.async false in
theorem test_met_axisClear_persists :
    ∃ (s s1 : State) (w : Who) (n : Fin 12) (v : BitVec 32), s1 = s.axCtrlFields n v.toNat ∧ n < s.axes.length ∧ s.takes w (0x100000 + 0x1000 * n) (v ||| 4).toNat = true ∧ bit v.toNat 0 = false ∧ bit v.toNat 1 = false ∧ bit v.toNat 3 = (s.axis n).run ∧ s.axState n = 5 ∧ (s.axPersists n = true ∨ s.inSafe = true) :=
  ⟨(axisIn 5).wr (R.SD_STAT_FAULTED 1) 1, _, host, 0, 8, rfl, by decide +kernel⟩

set_option Elab.async false in
theorem test_met_catchTimeout :
    ∃ (s : State) (n : Fin 12), n < s.axes.length ∧ s.axState n = 1 ∧ (min (max (s.rd (R.AX_CATCH_T_CATCH n)) 1) 100) * 400000 ≤ s.since (s.axis n).since :=
  ⟨{ axisIn 1 with now := 50000000 }, 0, by decide +kernel⟩

set_option Elab.async false in
theorem test_met_subTimeout :
    ∃ (s : State) (n : Fin 12), n < s.axes.length ∧ s.axState n = 4 ∧ (min (max (s.rd (R.AX_DET_TSUB n)) 1) 1000) * 4000 ≤ s.since (s.axis n).since :=
  ⟨{ axisIn 4 with now := 5000000 }, 0, by decide +kernel⟩

set_option Elab.async false in
theorem test_met_brakeDelayExpiry :
    ∃ (s : State) (n : Fin 12), n < s.axes.length ∧ s.axState n = 3 ∧ 8 ≤ (s.axis n).lowRun ∧ (s.on (R.AX_CTRL_HBRK_EN n) = false ∨ ((s.axis n).hbrk = false ∧ s.rd (R.AX_BRK_BRK_DELAY n) ≤ s.since (s.axis n).hbrkOff)) :=
  ⟨(axisIn 3).axMod 0 fun a => { a with lowRun := 8 }, 0, by decide +kernel⟩

set_option Elab.async false in
theorem test_met_chopperMinInterval :
    ∃ (s : State) (n : Fin 12) (m t0 : Nat) (want : Bool), n < s.axes.length ∧ (s.axis n).bchAt = some t0 ∧ (s.axis n).chMin ≤ s.since t0 ∧ s.vbusIn n = some m ∧ s.on (R.AX_CTRL_BCH_EN n) = true ∧ s.sdFaulted m = false ∧ s.inSafe = false ∧ s.on R.SF_STAT_FORCED = false ∧ (want = if s.rdS (R.AX_CH_ON_CH_ON n) < s.rdS (R.SD_WORD_WORD m) then true else if s.rdS (R.SD_WORD_WORD m) < s.rdS (R.AX_CH_OFF_CH_OFF n) then false else (s.axis n).bch) :=
  ⟨(((axisIn 2).wr (R.AX_CTRL_BCH_EN 0) 1).wr (R.AX_ENC_VBUS_SEL 0) 4 |>.wr (R.SD_WORD_WORD 36) 9).axMod 0 fun a => { a with bchAt := some 0 }, 0, 36, 0, true, by decide +kernel⟩

set_option Elab.async false in
theorem test_met_chopperMinInterval_early :
    ∃ (s : State) (n : Fin 12) (t0 : Nat), (s.axis n).bchAt = some t0 ∧ s.since t0 < (s.axis n).chMin :=
  ⟨(axisIn 2).axMod 0 fun a => { a with bchAt := some 0, chMin := 7 }, 0, 0, by decide +kernel⟩

set_option Elab.async false in
theorem test_met_probePulse :
    ∃ (s : State) (n : Fin 12), n < s.axes.length ∧ s.axState n = 1 ∧ s.on (R.AX_CATCH_CATCH_MODE n) = true ∧ (s.axis n).probes < 3 ∧ (s.axis n).probeOn = false ∧ s.reached (((s.axis n).batchAt + 40000 * (s.axis n).probes) % 2 ^ 48) = true :=
  ⟨(axisIn 1).wr (R.AX_CATCH_CATCH_MODE 0) 1, 0, by decide +kernel⟩

set_option Elab.async false in
theorem test_met_probePulseEnd :
    ∃ (s : State) (n : Fin 12), n < s.axes.length ∧ s.axState n = 1 ∧ (s.axis n).probeOn = true ∧ min (max (s.rd (R.AX_CATCH_PROBE_W n)) 1) 1600 ≤ s.since (s.axis n).probeAt ∧ ([3 * n.val, 3 * n.val + 1, 3 * n.val + 2].filter fun m => s.sdMode m != 0) ≠ [] :=
  ⟨((axisIn 1).axMod 0 fun a => { a with probeOn := true, pat := 2 }) |> fun s => { s with now := 2000 }, 0, by decide +kernel⟩

set_option Elab.async false in
theorem test_met_pwmEn :
    ∃ (s s1 : State) (w : Who) (n : Fin 12) (v : BitVec 32), s1 = s.axCtrlFields n v.toNat ∧ n < s.axes.length ∧ s.takes w (0x100000 + 0x1000 * n) v.toNat = true ∧ bits v.toNat 0 4 = 8 ∧ (s.axState n = 0 ∨ s.axState n = 5) ∧ (s.axis n).run = false ∧ halfOk (s.rd (R.AX_PWM_HALF n)) = true :=
  ⟨axisSet, _, host, 0, 8, rfl, by decide +kernel⟩

set_option Elab.async false in
theorem test_met_pwmEn_off :
    ∃ (s s1 : State) (w : Who) (n : Fin 12) (v : BitVec 32), s1 = s.axCtrlFields n v.toNat ∧ n < s.axes.length ∧ s.takes w (0x100000 + 0x1000 * n) v.toNat = true ∧ bits v.toNat 0 4 = 0 ∧ (s.axState n = 0 ∨ s.axState n = 5) ∧ (s.axis n).run = true :=
  ⟨axisIn 0, _, host, 0, 0, rfl, by decide +kernel⟩

set_option Elab.async false in
theorem test_met_axSyncGo :
    ∃ (s : State) (w : Who) (n : Fin 12) (v : BitVec 32), n < s.axes.length ∧ s.takes w 0x10F000 v.toNat = true ∧ v.toNat = 2 ^ n.val ∧ (s.axState n = 0 ∨ s.axState n = 5) ∧ (s.axis n).run = false ∧ halfOk (s.rd (R.AX_PWM_HALF n)) = true :=
  ⟨axisSet, host, 0, 1, by decide +kernel⟩

set_option Elab.async false in
theorem test_met_reloadPoint :
    ∃ (s : State) (n : Fin 12) (half : Nat) (c : List Nat × Bool), (half = if halfOk (s.rd (R.AX_PWM_HALF n)) then s.rd (R.AX_PWM_HALF n) else (s.axis n).half) ∧ c = clampCmps half (s.cmpShadow n) ∧ n < s.axes.length ∧ (s.axis n).run = true ∧ s.reached (s.axis n).valley = true ∧ (s.axis n).vDone = false ∧ s.on (R.AX_CTRL_DUTY_SRC n) = true ∧ s.axState n ≠ 2 :=
  ⟨{ (axisIn 0).wr (R.AX_CTRL_DUTY_SRC 0) 1 with now := 1 }, 0, _, _, rfl, rfl, by decide +kernel⟩

set_option Elab.async false in
theorem test_met_samplingPoint :
    ∃ (s : State) (n : Fin 12), n < s.axes.length ∧ s.samplingDue n = true ∧ ¬ ((s.axis n).smpAt = s.now ∧ (s.axis n).openF = true) ∧ ([3 * n.val, 3 * n.val + 1, 3 * n.val + 2].filter fun m => s.sdMode m != 0) ≠ [] :=
  ⟨{ (axisIn 2).axMod 0 (fun a => { a with vDone := true, smpAt := 9 }) with now := 4000 }, 0, by decide +kernel⟩

set_option Elab.async false in
theorem test_met_samplingPoint_not :
    ∃ (s : State) (n : Fin 12), s.samplingDue n = false :=
  ⟨up, 0, by decide +kernel⟩

set_option Elab.async false in
theorem test_met_dutyStage :
    ∃ (s : State) (n : Fin 12) (vd vq : Int) (c : List Nat × Bool), n < s.axes.length ∧ (s.axis n).awaits = true ∧ (s.axis n).pubD = some vd ∧ (s.axis n).pubQ = some vq ∧ s.axDriven n = true ∧ s.on (R.AX_CTRL_DUTY_SRC n) = false ∧ (∀ k, s.toReload n = some k → 8 ≤ k) ∧ c = dutyOf vd vq (s.rd (R.AX_FRAME_ITEM n 10)) (s.axis n).half :=
  ⟨(axisIn 2).axMod 0 fun a => { a with awaits := true, pubD := some 0x10000000, pubQ := some 0 }, 0, 0x10000000, 0, (dutyOf 0x10000000 0 0 4000), by decide +kernel⟩

set_option Elab.async false in
theorem test_met_pwmCompareEdge :
    ∃ (s : State) (n : Fin 12) (x : Fin 3) (g : PhaseG) (c : Bool) (tau f e : Nat), n < s.axes.length ∧ (s.axis n).run = true ∧ s.reached (s.axis n).valley = true ∧ s.axPos n < 2 * (s.axis n).halfP ∧ (s.axis n).ph.getD x {} = g ∧ e = 16 * s.axPos n ∧ c = cmdAt (s.axis n).halfP ((s.axis n).cmp.getD x 0) (e + 15) ∧ c ≠ g.cmd ∧ (tau = if c then 16 * (s.axis n).halfP - (s.axis n).cmp.getD x 0 else 16 * (s.axis n).halfP + (s.axis n).cmp.getD x 0) ∧ (f = if e ≤ tau ∧ tau < e + 16 ∧ (s.axis n).cmp.getD x 0 < 16 * (s.axis n).halfP then tau - e else 0) :=
  ⟨{ (axisIn 2).axMod 0 (fun a => { a with vDone := true, cmp := [32000, 0, 0] }) with now := 2000 }, 0, 0, {}, true, 32000, 0, 32000, by decide +kernel⟩

set_option Elab.async false in
theorem test_met_axCmpWrite :
    ∃ (s : State) (w : Who) (n : Fin 12) (x : Fin 3) (v : BitVec 32), s.takes w (0x100020 + 0x1000 * n + 4 * x) v.toNat = true ∧ s.on (R.AX_CTRL_DUTY_SRC n) = true ∧ s.reloadDue n = false :=
  ⟨(axisIn 0 |>.wr (R.AX_CTRL_DUTY_SRC 0) 1).axMod 0 fun a => { a with vDone := true }, host, 0, 1, 0x345, by decide +kernel⟩

set_option Elab.async false in
theorem test_met_axCmpWrite_ignored :
    ∃ (s : State) (w : Who) (n : Fin 12) (x : Fin 3) (v : BitVec 32), s.takes w (0x100020 + 0x1000 * n + 4 * x) v.toNat = true ∧ s.on (R.AX_CTRL_DUTY_SRC n) = false :=
  ⟨up, host, 0, 1, 0x345, by decide +kernel⟩

set_option Elab.async false in
theorem test_met_sigmaDeltaWord :
    ∃ (s : State) (m : Fin 40) (l : List Bool), 36 ≤ m.val ∧ s.sdMode m = 2 ∧ l.length = 3 * s.sdOsr m - 2 ∧ s.vbusAxes m = [] :=
  ⟨up.wr (R.SD_CFG_MODE 37) 2, 37, List.replicate 22 true, by decide +kernel⟩

set_option Elab.async false in
theorem test_met_sigmaDeltaWord_current :
    ∃ (s : State) (m : Fin 40) (l : List Bool) (n : Nat), m.val < 36 ∧ n = m.val / 3 ∧ n < s.axes.length ∧ s.sdMode m = 1 ∧ l.length = 3 * s.sdOsr m - 2 ∧ (s.sd m).worded = false ∧ s.vbusAxes m = [] ∧ (s.axis n).need.filter (· != m.val) ≠ [] :=
  ⟨{ (axisIn 2).axMod 0 (fun a => { a with need := [0, 1], openF := true }) with sds := List.replicate 40 { worded := false } }, 1, List.replicate 22 true, 0, by decide +kernel⟩

set_option Elab.async false in
theorem test_met_fastOvercurrentTrip :
    ∃ (s : State) (m : Fin 40) (l : List Bool) (n : Nat), n = m.val / 3 ∧ n < s.axes.length ∧ s.ocTrips m l = true ∧ s.axActive n = true :=
  ⟨(axisIn 2).wr (R.SD_MON_OC_CNT 0) 1, 0, List.replicate 7 true, 0, by decide +kernel⟩

set_option Elab.async false in
theorem test_met_activityFault :
    ∃ (s : State) (m : Fin 40) (n : Nat), m.val < 36 ∧ n = m.val / 3 ∧ n < s.axes.length ∧ s.sdMode m = 1 ∧ s.axActive n = true ∧ s.vbusAxes m = [] :=
  ⟨axisIn 2, 1, 0, by decide +kernel⟩

set_option Elab.async false in
theorem test_met_densityBlockEnd :
    ∃ (s : State) (m : Fin 40) (ones : Fin 1025) (lim : Nat), m.val < s.sds.length ∧ s.sdMode m ≠ 0 ∧ lim = s.rd (R.SD_MON_DENS_LIM m) ∧ lim ≤ ones.val ∧ ones.val ≤ 1024 - lim ∧ lim ≤ 1024 ∧ (s.sd m).quiet = false :=
  ⟨{ (axisIn 2) with sds := List.replicate 40 {} }, 1, 500, 16, by decide +kernel⟩

set_option Elab.async false in
theorem test_met_densityBlockEnd_quiet :
    ∃ (s : State) (m : Fin 40) (ones : Fin 1025) (lim : Nat), m.val < s.sds.length ∧ s.sdMode m ≠ 0 ∧ lim = s.rd (R.SD_MON_DENS_LIM m) ∧ lim ≤ ones.val ∧ ones.val ≤ 1024 - lim ∧ lim ≤ 1024 ∧ (s.sd m).quiet = true :=
  ⟨{ (axisIn 2).wr (R.SD_STAT_FAULTED 1) 1 with sds := List.replicate 40 { quiet := true } }, 1, 500, 16, by decide +kernel⟩

set_option Elab.async false in
theorem test_met_encoderEdge :
    ∃ (s : State) (n : Fin 12) (a b : Bool), n < s.axes.length :=
  ⟨axisIn 2, 0, true, false, by decide +kernel⟩

set_option Elab.async false in
theorem test_met_encoderIndex :
    ∃ (s : State) (n : Fin 12), n < s.axes.length :=
  ⟨(axisIn 2).wr (R.AX_ENC_CNT_CNT 0) 7, 0, by decide +kernel⟩

set_option Elab.async false in
theorem test_met_encCntWrite :
    ∃ (s : State) (w : Who) (n : Fin 12) (v : BitVec 32) (e : Option (Bool × Bool)), s.takes w (0x10008C + 0x1000 * n) v.toNat = true :=
  ⟨axisIn 2, host, 0, 0x345, some (true, false), by decide +kernel⟩

set_option Elab.async false in
theorem test_met_idxArm :
    ∃ (s : State) (w : Who) (n : Fin 12) (v : BitVec 32), n < s.axes.length ∧ s.takes w (0x100088 + 0x1000 * n) (v ||| 0x1000).toNat = true :=
  ⟨axisIn 2, host, 0, 0x400, by decide +kernel⟩

set_option Elab.async false in
theorem test_met_grantWindowStart :
    ∃ (s s0 s1 : State) (xs : List (Option (BitVec 12))) (hot w : Int) (a bal : Int × Int × Int), s0 = s.sampleAll xs ∧ s1 = s0.heat hot ∧ hot = s0.tHot ∧ w = s1.windowBudget hot ∧ a = s1.allot w ∧ bal = windowBalances (s1.on R.BEL_CTRL_SPILL && !s1.on R.GLOBAL_MODE_REPRO) (s1.rdS R.BEL_BAL_C_BAL) (s1.rdS R.BEL_BAL_P_BAL) (s1.rdS R.BEL_BAL_B_BAL) a.1 a.2.1 a.2.2 ∧ s1.on R.BEL_STAT_MOTION = false ∧ s1.on R.BEL_STAT_FORCED = false ∧ s1.on R.BEL_CTRL_AUTO_OP = false :=
  ⟨up, _, _, List.replicate 16 (some 0x190#12), _, _, _, _, rfl, rfl, rfl, rfl, rfl, rfl, by decide +kernel⟩

set_option Elab.async false in
theorem test_met_grantWindowStart_none :
    ∃ (s s0 s1 : State) (xs : List (Option (BitVec 12))) (hot w : Int) (a bal : Int × Int × Int), s0 = s.sampleAll xs ∧ s1 = s0.heat hot ∧ hot = s0.tHot ∧ w = s1.windowBudget hot ∧ a = s1.allot w ∧ bal = windowBalances (s1.on R.BEL_CTRL_SPILL && !s1.on R.GLOBAL_MODE_REPRO) (s1.rdS R.BEL_BAL_C_BAL) (s1.rdS R.BEL_BAL_P_BAL) (s1.rdS R.BEL_BAL_B_BAL) a.1 0 0 ∧ s1.on R.BEL_STAT_MOTION = true ∧ s1.on R.BEL_CTRL_AUTO_OP = false :=
  ⟨up.wr R.BEL_STAT_MOTION 1, _, _, List.replicate 16 (some 0x190#12), _, _, _, _, rfl, rfl, rfl, rfl, rfl, rfl, by decide +kernel⟩

set_option Elab.async false in
theorem test_met_opTgtWrite :
    ∃ (s : State) (w : Who) (v : BitVec 32) (tgt : Nat), s.takes w 0x10004 v.toNat = true ∧ tgt = max (s.rd R.BEL_THERM2_OP_MIN) (min (bits v.toNat 0 3) (s.rd R.BEL_THERM2_OP_MAX)) ∧ s.opChange.phase = 0 ∧ s.on R.BEL_STAT_MOTION = false ∧ s.rd R.CLK_OP_OP_CUR < tgt :=
  ⟨up.wr R.CLK_OP_OP_CUR 2, host, 5, 5, by decide +kernel⟩

set_option Elab.async false in
theorem test_met_opTgtWrite_lower :
    ∃ (s : State) (w : Who) (v : BitVec 32) (tgt : Nat), s.takes w 0x10004 v.toNat = true ∧ tgt = max (s.rd R.BEL_THERM2_OP_MIN) (min (bits v.toNat 0 3) (s.rd R.BEL_THERM2_OP_MAX)) ∧ s.opChange.phase = 0 ∧ s.on R.BEL_STAT_MOTION = false ∧ (tgt < s.rd R.CLK_OP_OP_CUR ∨ (tgt = s.rd R.CLK_OP_OP_CUR ∧ s.on R.CLK_STAT_ON_SAFE = true)) :=
  ⟨up.wr R.CLK_OP_OP_CUR 6, host, 5, 5, by decide +kernel⟩

set_option Elab.async false in
theorem test_met_opTgtWrite_waits :
    ∃ (s : State) (w : Who) (v : BitVec 32) (tgt : Nat), s.takes w 0x10004 v.toNat = true ∧ tgt = max (s.rd R.BEL_THERM2_OP_MIN) (min (bits v.toNat 0 3) (s.rd R.BEL_THERM2_OP_MAX)) ∧ (s.opChange.phase ≠ 0 ∨ s.on R.BEL_STAT_MOTION = true) :=
  ⟨{ up with opChange := ⟨2, 3⟩ }, host, 5, 5, by decide +kernel⟩

set_option Elab.async false in
theorem test_met_supplySettled :
    ∃ (s : State), s.opChange.phase = 1 :=
  ⟨{ up with opChange := ⟨1, 3⟩ }, by decide +kernel⟩

set_option Elab.async false in
theorem test_met_supplySettled_idle :
    ∃ (s : State), s.opChange.phase ≠ 1 :=
  ⟨up, by decide +kernel⟩

set_option Elab.async false in
theorem test_met_tilePllLock :
    ∃ (s : State), s.opChange.phase = 2 :=
  ⟨{ up with opChange := ⟨2, 3⟩ }, by decide +kernel⟩

set_option Elab.async false in
theorem test_met_relockSwitchBack :
    ∃ (s : State), s.opChange.phase = 3 ∧ s.rd R.CLK_OP_OP_TGT = s.opChange.target % 8 :=
  ⟨{ up.wr R.CLK_OP_OP_TGT 3 with opChange := ⟨3, 3⟩, vid := 5 }, by decide +kernel⟩

set_option Elab.async false in
theorem test_met_tileLockTimeout :
    ∃ (s : State), s.opChange.phase = 2 :=
  ⟨{ up with opChange := ⟨2, 3⟩ }, by decide +kernel⟩

set_option Elab.async false in
theorem test_met_pllLockLoss :
    ∃ (s : State), s.on R.CLK_STAT_TILE_LOCK = true :=
  ⟨up.wr R.CLK_STAT_TILE_LOCK 1, by decide +kernel⟩

set_option Elab.async false in
theorem test_met_pllLockLoss_control :
    ∃ (s : State) (pll : Fin 4), pll.val < 2 :=
  ⟨up, 1, by decide +kernel⟩

set_option Elab.async false in
theorem test_met_bellowsVokFall :
    ∃ (s : State), s.vidChanged = false ∧ s.opChange.phase = 0 ∧ s.on R.BEL_STAT_MOTION = false ∧ 0 < s.rd R.CLK_OP_OP_CUR :=
  ⟨{ up.wr R.CLK_OP_OP_CUR 4 with vidChanged := false }, by decide +kernel⟩

set_option Elab.async false in
theorem test_met_bellowsVokFall_expected :
    ∃ (s : State), s.vidChanged = true :=
  ⟨{ up with vidChanged := true }, by decide +kernel⟩

set_option Elab.async false in
theorem test_met_belPwrDn :
    ∃ (s : State) (w : Who) (i : Fin 2) (b : Fin 32) (v : BitVec 32) (u : Nat), u = 32 * i + b ∧ s.takes w (0x20030 + 4 * i) v.toNat = true ∧ bit (s.rd (R.BEL_PWR_DN_DN i)) b = false ∧ v.toNat = s.rd (R.BEL_PWR_DN_DN i) + 2 ^ b.val ∧ (s.unitSt u).state = 2 ∧ s.tileOn u = true :=
  ⟨up.setUnit 5 { up.unitSt 5 with state := 2 }, host, 0, 5, 0x20, _, rfl, by decide +kernel⟩

set_option Elab.async false in
theorem test_met_belPwrDn_rejected :
    ∃ (s : State) (w : Who) (i : Fin 2) (b : Fin 32) (v : BitVec 32) (u : Nat), u = 32 * i + b ∧ s.takes w (0x20030 + 4 * i) v.toNat = true ∧ bit (s.rd (R.BEL_PWR_DN_DN i)) b = false ∧ v.toNat = s.rd (R.BEL_PWR_DN_DN i) + 2 ^ b.val ∧ ((s.unitSt u).state ≠ 2 ∨ s.tileOn u = false) :=
  ⟨up, host, 0, 5, 0x20, _, rfl, by decide +kernel⟩

set_option Elab.async false in
theorem test_met_rasDn :
    ∃ (s : State) (w : Who), s.takes w 0x20040 1 = true ∧ s.on R.BEL_PWR_MISC_RAS_DN = false ∧ s.rd R.RAS_STAT_STATE = 0 ∧ s.on (R.SEQ_CTRL_ENABLE 0x210000) = false :=
  ⟨up, host, by decide +kernel⟩

set_option Elab.async false in
theorem test_met_rasDn_busy :
    ∃ (s : State) (w : Who), s.takes w 0x20040 1 = true ∧ s.on R.BEL_PWR_MISC_RAS_DN = false ∧ (s.rd R.RAS_STAT_STATE ≠ 0 ∨ s.on (R.SEQ_CTRL_ENABLE 0x210000) = true) :=
  ⟨up.wr R.RAS_STAT_STATE 1, host, by decide +kernel⟩

set_option Elab.async false in
theorem test_met_rasDn_off :
    ∃ (s : State) (w : Who), s.takes w 0x20040 0 = true :=
  ⟨up.wr R.BEL_PWR_MISC_RAS_DN 1, host, by decide +kernel⟩

set_option Elab.async false in
theorem test_met_powerReturn :
    ∃ (s : State) (u : Fin 64), (s.unitSt u).powered = false ∧ bit (s.rd (R.BEL_PWR_DN_DN (u / 32))) (u % 32) = false :=
  ⟨up.setUnit 5 { up.unitSt 5 with powered := false }, 5, by decide +kernel⟩

set_option Elab.async false in
theorem test_met_powerReturn_raster :
    ∃ (s : State), s.on R.BEL_PWR_MISC_RAS_DN = false :=
  ⟨up, by decide +kernel⟩

set_option Elab.async false in
theorem test_met_motionOnly :
    ∃ (s : State) (w : Who) (v : BitVec 32), s.takes w 0x20000 v.toNat = true ∧ bit v.toNat 3 = true ∧ s.on R.BEL_STAT_MOTION = false ∧ s.allDown = true :=
  ⟨{ up.wr R.BEL_PWR_MISC_RAS_ON 0 with units := (List.range 64).map fun u => (u, { powered := false }) }, host, 0xD, by decide +kernel⟩

set_option Elab.async false in
theorem test_met_motionOnly_rejected :
    ∃ (s : State) (w : Who) (v : BitVec 32), s.takes w 0x20000 v.toNat = true ∧ bit v.toNat 3 = true ∧ s.on R.BEL_STAT_MOTION = false ∧ s.allDown = false :=
  ⟨up, host, 9, by decide +kernel⟩

set_option Elab.async false in
theorem test_met_porstNRelease :
    ∃ (s : State) (mode : Fin 4), s.boot.porst = true :=
  ⟨{ up with boot := { up.boot with porst := true } }, 1, by decide +kernel⟩

set_option Elab.async false in
theorem test_met_sysrstNAssert :
    ∃ (s : State), s.boot.porst = false ∧ s.sysrst = false ∧ s.inSafe = true ∧ s.on R.ID_FUSE_TEMP = false ∧ (s.outst.any fun o => o.ini == 0x24 || o.ini == 0x27) = false :=
  ⟨up, by decide +kernel⟩

set_option Elab.async false in
theorem test_met_sysrstNAssert_safe :
    ∃ (s : State), s.boot.porst = false ∧ s.sysrst = false ∧ s.inSafe = false :=
  ⟨up.wr R.SF_STAT_SAFE 0, by decide +kernel⟩

set_option Elab.async false in
theorem test_met_referenceAcceptance :
    ∃ (s : State) (n1 n2 n3 n4 : Fin 256), s.stage = 1 ∧ s.boot.refOk = false ∧ s.boot.porst = false ∧ (96 ≤ n1.val ∧ n1.val ≤ 160) ∧ (96 ≤ n2.val ∧ n2.val ≤ 160) ∧ (96 ≤ n3.val ∧ n3.val ≤ 160) ∧ 96 ≤ n4.val ∧ n4.val ≤ 160 :=
  ⟨bootIn 1, 96, 160, 128, 100, by decide +kernel⟩

set_option Elab.async false in
theorem test_met_referenceAcceptance_not :
    ∃ (s : State) (n1 n2 n3 n4 : Fin 256), ((n1.val < 96 ∨ 160 < n1.val) ∨ (n2.val < 96 ∨ 160 < n2.val) ∨ (n3.val < 96 ∨ 160 < n3.val) ∨ n4.val < 96 ∨ 160 < n4.val) :=
  ⟨bootIn 1, 96, 161, 128, 100, by decide +kernel⟩

set_option Elab.async false in
theorem test_met_pllLockLimit :
    ∃ (s : State) (ctrl fab tile serdes : Bool), s.stage = 1 ∧ s.boot.refOk = true ∧ s.aligned = false ∧ (ctrl && fab && tile && serdes) = false :=
  ⟨{ bootIn 1 with boot := { up.boot with refOk := true }, aligned := false }, true, true, false, true, by decide +kernel⟩

set_option Elab.async false in
theorem test_met_pllLockLimit_locked :
    ∃ (s : State), s.stage = 1 ∧ s.boot.refOk = true ∧ s.aligned = false :=
  ⟨{ bootIn 1 with boot := { up.boot with refOk := true }, aligned := false }, by decide +kernel⟩

set_option Elab.async false in
theorem test_met_dividerAlignment :
    ∃ (s : State), s.stage = 1 ∧ s.boot.refOk = true ∧ s.aligned = false ∧ s.boot.porst = false :=
  ⟨{ bootIn 1 with boot := { up.boot with refOk := true }, aligned := false }, by decide +kernel⟩

set_option Elab.async false in
theorem test_met_fuseReadout :
    ∃ (s : State), s.stage = 2 ∧ s.fusesBad = false ∧ s.boot.fuseA.temp = false :=
  ⟨bootIn 2, by decide +kernel⟩

set_option Elab.async false in
theorem test_met_fuseReadout_bad :
    ∃ (s : State), s.stage = 2 ∧ s.fusesBad = true :=
  ⟨{ bootIn 2 with boot := { up.boot with fuseB := { grade := 1 } } }, by decide +kernel⟩

set_option Elab.async false in
theorem test_met_initComplete :
    ∃ (s : State) (fails : List (Fin 128)), s.stage = 3 ∧ s.sysrst = false ∧ s.on R.ID_FUSE_STARTUP_BIST = false ∧ s.initZero.rd R.BOOT_STAT_MODE = 0 :=
  ⟨bootIn 3, [], by decide +kernel⟩

set_option Elab.async false in
theorem test_met_initComplete_mode :
    ∃ (s : State) (fails : List (Fin 128)), s.stage = 3 ∧ s.sysrst = false ∧ s.on R.ID_FUSE_STARTUP_BIST = false ∧ 2 ≤ s.initZero.rd R.BOOT_STAT_MODE :=
  ⟨(bootIn 3).wr R.BOOT_STAT_MODE 3, [], by decide +kernel⟩

set_option Elab.async false in
theorem test_met_imageLoad :
    ∃ (s : State) (img : List Byte), s.stage = 4 ∧ s.sysrst = false ∧ s.boot.copy ≠ 2 ∧ headerOk (img.take 512) = true ∧ ((segsOf (img.take 512)).any (s.segBank false)) = false ∧ (segsOf (img.take 512)).all (fun g => decide (g.ofs + g.len ≤ img.length)) = true :=
  ⟨bootIn 4, bootImg, by decide +kernel⟩

set_option Elab.async false in
theorem test_met_imageLoad_failed :
    ∃ (s : State) (img : Option (List Byte)) (cause : Nat), s.stage = 4 ∧ s.sysrst = false ∧ s.boot.copy ≠ 2 ∧ ((img = none ∧ cause = 5) ∨ (∃ l ∈ img, (l.length < 512 ∧ cause = 5) ∨ (512 ≤ l.length ∧ headerOk (l.take 512) = false ∧ cause = 6) ∨ (512 ≤ l.length ∧ headerOk (l.take 512) = true ∧ (segsOf (l.take 512)).any (s.segBank false) = true ∧ cause = 10))) :=
  ⟨bootIn 4, none, 5, by decide +kernel⟩

set_option Elab.async false in
theorem test_met_imageVerify :
    ∃ (s : State) (d : List Byte), d = sha256 s.bootBytes ∧ s.stage = 5 ∧ s.sysrst = false ∧ s.verifyCode d = 0 :=
  ⟨bootIn 5, _, rfl, by decide +kernel⟩

set_option Elab.async false in
theorem test_met_islandSramZeroed :
    ∃ (s : State), s.boot.rom = 1 :=
  ⟨{ up with boot := { up.boot with rom := 1 } }, by decide +kernel⟩

set_option Elab.async false in
theorem test_met_islandSramZeroed_bad :
    ∃ (s : State), s.boot.rom = 1 :=
  ⟨{ up with boot := { up.boot with rom := 1 } }, by decide +kernel⟩

set_option Elab.async false in
theorem test_met_islandSegmentCopy :
    ∃ (s : State) (g : Segment), s.boot.rom = 2 ∧ s.on R.BOOT_STAT_VERIFIED = true ∧ s.islandSeg = some g :=
  ⟨{ (bootIn 6).wr R.BOOT_STAT_VERIFIED 1 with boot := { up.boot with rom := 2, header := bootImg.take 512 }, mem := [(0x12000041, 7)] }, ⟨576, 64, 64, 0, 2⟩, by decide +kernel⟩

set_option Elab.async false in
theorem test_met_islandFirmwareStart :
    ∃ (s : State), s.boot.rom = 3 :=
  ⟨{ up with boot := { up.boot with rom := 3 } }, by decide +kernel⟩

set_option Elab.async false in
theorem test_met_bootData :
    ∃ (s : State) (w : Who) (v : BitVec 32) (n p code : Nat), n = s.rd R.BOOT_WORDS_WORDS ∧ p = wcBase + stageBase + 4 * n ∧ code = 0x40 + (stageBase + 4 * n) / 0x100000 ∧ s.takes w 0x7008 v.toNat = true ∧ s.staging = true ∧ n < stageSize / 4 ∧ (∀ wa ∈ wordsOf (eccWord code) p 4, tget 0 s.ecc wa = 0) ∧ s.on R.MEM_INJ_CTRL_ARM = false :=
  ⟨bootIn 8, host, 0x12345, _, _, _, rfl, rfl, rfl, by decide +kernel⟩

set_option Elab.async false in
theorem test_met_bootData_ignored :
    ∃ (s : State) (w : Who) (v : BitVec 32), s.takes w 0x7008 v.toNat = true ∧ (s.staging = false ∨ stageSize / 4 ≤ s.rd R.BOOT_WORDS_WORDS) :=
  ⟨bootIn 6, host, 0x12345, by decide +kernel⟩

set_option Elab.async false in
theorem test_met_hostGo :
    ∃ (s : State) (w : Who), s.takes w 0x7004 4 = true ∧ s.staging = true :=
  ⟨bootIn 8, host, by decide +kernel⟩

set_option Elab.async false in
theorem test_met_hostGo_rejected :
    ∃ (s : State) (w : Who), s.takes w 0x7004 4 = true ∧ s.staging = false :=
  ⟨bootIn 6, host, by decide +kernel⟩

set_option Elab.async false in
theorem test_met_mgmtGo :
    ∃ (s : State) (w : Who), s.takes w 0x7004 1 = true ∧ w.ini = 0x24 ∧ s.on R.BOOT_STAT_VERIFIED = true ∧ s.stage = 6 ∧ s.opChange.phase = 0 ∧ s.on R.BEL_STAT_MOTION = false ∧ s.rd R.CLK_OP_OP_CUR < s.rd R.CLK_OP_OP_TGT :=
  ⟨(bootIn 6).wr R.BOOT_STAT_VERIFIED 1, island, by decide +kernel⟩

set_option Elab.async false in
theorem test_met_mgmtGo_rejected :
    ∃ (s : State) (w : Who), s.takes w 0x7004 1 = true ∧ w.ini = 0x24 ∧ s.on R.BOOT_STAT_VERIFIED = false :=
  ⟨bootIn 6, island, by decide +kernel⟩

set_option Elab.async false in
theorem test_met_hostReady :
    ∃ (s : State) (w : Who), s.takes w 0x7004 2 = true :=
  ⟨bootIn 6, host, by decide +kernel⟩

set_option Elab.async false in
theorem test_met_dbgUnlock :
    ∃ (s : State) (w : Who), s.takes w 0x7004 8 = true :=
  ⟨bootIn 6, island, by decide +kernel⟩

set_option Elab.async false in
theorem test_met_configurationRequest :
    ∃ (s : State) (fn : Fin 32), s.pcieUp = true :=
  ⟨{ up with pcieUp := true }, 1, by decide +kernel⟩

set_option Elab.async false in
theorem test_met_jtagRequest :
    ∃ (s : State), s.boot.porst = false :=
  ⟨up, by decide +kernel⟩

set_option Elab.async false in
theorem test_met_jtagRequest_debug :
    ∃ (s : State), s.boot.porst = false :=
  ⟨up, by decide +kernel⟩

set_option Elab.async false in
theorem test_met_jtagRequest_program :
    ∃ (s : State) (field : Fin 11) (v : Nat), s.boot.porst = false ∧ s.boot.fuseA.debugLock = false :=
  ⟨up, 3, 0xFF, by decide +kernel⟩

set_option Elab.async false in
theorem test_met_bankSupplyLoss :
    ∃ (s : State) (b : Fin 6), b.val ≠ 3 :=
  ⟨up, 2, by decide +kernel⟩

set_option Elab.async false in
theorem test_met_run :
    ∃ (s : State) (ln : Fin 2) (c : Fin 16) (u x key : Nat) (l : List Byte), l = s.recOf x ∧ u = 0x44 + ln.val ∧ key = 16 * u + c.val ∧ x < s.slots.length ∧ s.runs u c 6 1 = true ∧ s.chnRuns.any (fun p => p.1 == key) = false ∧ chnSlots (rowPayload (s.ctx u c).row) = [x] ∧ s.chnNamed ln x = true ∧ (s.slot x).pend0 = false ∧ (s.slot x).pend1 = false :=
  ⟨((runUp memUp 0x44 3 { row := 6 + 16 + 0x85 * 2 ^ 192 }).wr (R.LANE0_LIST_ENTRIES 0) 0x85), 0, 3, 0x44, 5, 16 * 0x44 + 3, _, rfl, by decide +kernel⟩

set_option Elab.async false in
theorem test_met_run_absent :
    ∃ (s : State) (ln : Fin 2) (c : Fin 16) (u : Nat), u = 0x44 + ln.val ∧ s.runs u c 6 1 = true ∧ s.chnRuns.any (fun p => p.1 == 16 * u + c.val) = false ∧ (chnSlots (rowPayload (s.ctx u c).row)).all (s.chnNamed ln) = false :=
  ⟨(runUp memUp 0x44 3 { row := 6 + 16 + 0x85 * 2 ^ 192 }), 0, 3, 0x44, by decide +kernel⟩

set_option Elab.async false in
theorem test_met_slotStart :
    ∃ (s s0 s1 : State) (ln : Fin 2) (x : Nat) (q : State × ChnLatch), (s0 = s.slotMod x fun t => if ln.val = 0 then { t with pend0 := false } else { t with pend1 := false }) ∧ s1 = s0.applyOldest x ∧ q = s1.latchSlot x ∧ s.laneOn ln = true ∧ s.lanes.getD ln none = none ∧ ln.val < s.lanes.length ∧ s.sysrst = false ∧ s.nextSlot ln = some x ∧ (s.slot x).half = 0 ∧ s.slotState x = 1 ∧ rcDiv (s0.recOf x) ≤ (s.slot x).div + 1 ∧ q.2.bad = false ∧ x < q.1.slots.length ∧ ln.val < q.1.lanes.length :=
  ⟨slotPending, _, _, 0, 5, _, rfl, rfl, rfl, by decide +kernel⟩

set_option Elab.async false in
theorem test_met_slotStart_divided :
    ∃ (s : State) (ln : Fin 2) (x : Nat), s.laneOn ln = true ∧ s.lanes.getD ln none = none ∧ s.sysrst = false ∧ s.nextSlot ln = some x ∧ x < s.slots.length ∧ ((if ln.val = 0 then (s.slot x).pend1 else (s.slot x).pend0) = false) ∧ (s.slot x).half = 0 ∧ s.slotState x = 1 ∧ (s.slot x).div + 1 < rcDiv (s.recOf x) ∧ (s.slot x).wait = [] ∧ (s.slot x).evWait = [] :=
  ⟨{ slotPending.slotMod 5 (fun t => { t with wait := [] }) with mem := [(0x4000A01, 3)] }, 0, 5, by decide +kernel⟩

set_option Elab.async false in
theorem test_met_slotPublish :
    ∃ (s : State) (ln : Fin 2) (agree : Bool) (x sample : Nat) (k : ChnLatch) (o : EvalOut), o = evaluate k.rcd (fb k.rcd 260 2) (s.slot x).iLim k.r k.y k.ff 0 k.inj ∧ s.lanes.getD ln none = some x ∧ x < s.slots.length ∧ x < 128 ∧ (s.slot x).todo = 1 ∧ (s.slot x).half = 0 ∧ (s.slot x).latch = some k ∧ (s.slot x).evWait = [] ∧ s.slotState x = 1 ∧ k.bad = false ∧ rcDual k.rcd = false ∧ rcRole k.rcd = 0 ∧ rcEn k.rcd = false ∧ s.recOpen x = true ∧ sample = (fb k.rcd 262 2 + 1) % 2 ^ 16 :=
  ⟨{ (slotPending.slotMod 5 fun t => { t with pend0 := false, wait := [], todo := 1, latch := some latchOne }) with lanes := [some 5, none] }, 0, true, 5, 1, latchOne, _, rfl, by decide +kernel⟩

set_option Elab.async false in
theorem test_met_cwqEnqueue :
    ∃ (s : State) (w : Who) (v : BitVec 32) (sel x : Nat), s.takes w 0x120014 v.toNat = true ∧ sel = tget 0 s.cwqSel w.ini ∧ x = bits sel 0 7 ∧ s.slotState x ≠ 0 ∧ (s.slot x).queue.length < 4 ∧ x < s.slots.length :=
  ⟨{ slotPending with cwqSel := [(0x20, 5)] }, host, 7, 5, 5, by decide +kernel⟩

set_option Elab.async false in
theorem test_met_cwqFlush :
    ∃ (s : State) (w : Who) (v : BitVec 32) (x : Nat), s.takes w 0x120018 (v ||| 0x80).toNat = true ∧ x = bits v.toNat 0 7 ∧ x < s.slots.length :=
  ⟨slotPending.slotMod 5 fun t => { t with queue := [(1, 2, 3)] }, host, 5, 5, by decide +kernel⟩

set_option Elab.async false in
theorem test_met_chnSlotEnable :
    ∃ (s : State) (w : Who) (x : Fin 128) (v : BitVec 32), s.takes w (0x120400 + 4 * x) v.toNat = true ∧ bit v.toNat 0 = true ∧ x.val < s.slots.length ∧ s.slotState x = 0 ∧ s.slotOk x (s.recOf x) = true ∧ s.recOpen x = true :=
  ⟨memUp.wr (R.LANE0_LIST_ENTRIES 0) 0x85, host, 5, 1, by decide +kernel⟩

set_option Elab.async false in
theorem test_met_chnSlotEnable_rejected :
    ∃ (s : State) (w : Who) (x : Fin 128) (v : BitVec 32), s.takes w (0x120400 + 4 * x) v.toNat = true ∧ bit v.toNat 0 = true ∧ s.slotState x = 0 ∧ s.slotOk x (s.recOf x) = false ∧ s.recOpen x = true :=
  ⟨memUp, host, 5, 1, by decide +kernel⟩

set_option Elab.async false in
theorem test_met_laneEnable :
    ∃ (s : State) (w : Who) (v : BitVec 32), s.takes w 0x120000 v.toNat = true ∧ bits v.toNat 0 2 = 3 ∧ bit v.toNat 3 = false :=
  ⟨up, host, 7, by decide +kernel⟩

set_option Elab.async false in
theorem test_met_laneEnable_off :
    ∃ (s : State) (w : Who) (v : BitVec 32), s.takes w 0x120000 v.toNat = true ∧ bit v.toNat 3 = false ∧ (List.range 128).all (fun x => !(s.slotState x == 1 && rcDual (s.recOf x))) = true :=
  ⟨slotPending, host, 2, by decide +kernel⟩

set_option Elab.async false in
theorem test_met_laneListWrite :
    ∃ (s : State) (w : Who) (ln : Fin 2) (j : Fin 32) (v : BitVec 32), s.takes w (0x120100 + 0x80 * ln + 4 * j) v.toNat = true ∧ s.laneOn ln = false :=
  ⟨up, host, 1, 3, 0x8584, by decide +kernel⟩

set_option Elab.async false in
theorem test_met_laneListWrite_rejected :
    ∃ (s : State) (w : Who) (ln : Fin 2) (j : Fin 32) (v : BitVec 32), s.takes w (0x120100 + 0x80 * ln + 4 * j) v.toNat = true ∧ s.laneOn ln = true :=
  ⟨slotPending, host, 0, 3, 0x8584, by decide +kernel⟩

set_option Elab.async false in
theorem test_met_chnCntClr :
    ∃ (s : State) (w : Who) (v : BitVec 32), s.takes w 0x120000 (v ||| 8).toNat = true ∧ bits v.toNat 0 2 = 3 :=
  ⟨slotPending.wr R.CHN_CNT1_CW_REJ 7, host, 7, by decide +kernel⟩

set_option Elab.async false in
theorem test_met_setpointUpdate :
    ∃ (s : State) (c : Fin 64) (q : Int × Bool × SpSt) (r : Int × Int), q = s.spRaw c ∧ r = spStep q.1 (s.rdS (R.SP_OFFSET_OFFSET c)) (s.rdS (R.SP_MULT_MULT c)) (s.rd (R.SP_CFG_SHIFT c)) (s.rd (R.SP_DB_DB c)) (s.rdS (R.SP_MIN_MIN c)) (s.rdS (R.SP_MAX_MAX c)) q.2.1 (!s.on (R.SP_CFG_LOSS c)) (s.rdS (R.SP_FAILVAL_FAILVAL c)) (s.rdS (R.SP_OUT_OUT c)) (s.rd (R.SP_RATE_RATE c)) ∧ c.val < s.sps.length ∧ s.on (R.SP_CFG_ENABLE c) = true ∧ s.reached (s.sp c).due = true :=
  ⟨((((((up.wr (R.SP_CFG_ENABLE 3) 1).wr (R.SP_PERIOD_PERIOD 3) 100).wr (R.SP_MULT_MULT 3) 2).wr (R.SP_MAX_MAX 3) 5000).wr (R.SP_RATE_RATE 3) 7).setSp 3 { host := 50, hostNew := true }), 3, _, _, rfl, rfl, by decide +kernel⟩

set_option Elab.async false in
theorem test_met_spEnable :
    ∃ (s s1 : State) (w : Who) (c : Fin 64) (v : BitVec 32), s1 = s.spFields c v.toNat ∧ s.takes w (0x120800 + 0x40 * c) v.toNat = true ∧ c.val < s.sps.length ∧ bit v.toNat 0 = true ∧ s.on (R.SP_CFG_ENABLE c) = false ∧ s.rd (R.SP_PERIOD_PERIOD c) ≠ 0 ∧ spIndexOk (s1.rd (R.SP_CFG_KIND c)) (s1.rd (R.SP_CFG_INDEX c)) = true :=
  ⟨up.wr (R.SP_PERIOD_PERIOD 3) 100, _, host, 3, 0x1001, rfl, by decide +kernel⟩

set_option Elab.async false in
theorem test_met_spEnable_rejected :
    ∃ (s s1 : State) (w : Who) (c : Fin 64) (v : BitVec 32), s1 = s.spFields c v.toNat ∧ s.takes w (0x120800 + 0x40 * c) v.toNat = true ∧ bit v.toNat 0 = true ∧ s.on (R.SP_CFG_ENABLE c) = false ∧ (s.rd (R.SP_PERIOD_PERIOD c) = 0 ∨ spIndexOk (s1.rd (R.SP_CFG_KIND c)) (s1.rd (R.SP_CFG_INDEX c)) = false) :=
  ⟨up, _, host, 3, 0x1001, rfl, by decide +kernel⟩

set_option Elab.async false in
theorem test_met_spEnable_off :
    ∃ (s s1 : State) (w : Who) (c : Fin 64) (v : BitVec 32), s1 = s.spFields c v.toNat ∧ s.takes w (0x120800 + 0x40 * c) v.toNat = true ∧ bit v.toNat 0 = false :=
  ⟨up.wr (R.SP_CFG_ENABLE 3) 1, _, host, 3, 0x1000, rfl, by decide +kernel⟩

set_option Elab.async false in
theorem test_met_spHost :
    ∃ (s : State) (w : Who) (c : Fin 64) (v : BitVec 32), s.takes w (0x120824 + 0x40 * c) v.toNat = true ∧ c.val < s.sps.length ∧ s.rd (R.SP_CFG_KIND c) = 0 :=
  ⟨up, host, 3, 50, by decide +kernel⟩

set_option Elab.async false in
theorem test_met_spHost_ignored :
    ∃ (s : State) (w : Who) (c : Fin 64) (v : BitVec 32), s.takes w (0x120824 + 0x40 * c) v.toNat = true ∧ s.rd (R.SP_CFG_KIND c) ≠ 0 :=
  ⟨up.wr (R.SP_CFG_KIND 3) 1, host, 3, 50, by decide +kernel⟩

set_option Elab.async false in
theorem test_met_injectionGo :
    ∃ (s : State) (w : Who) (g : Fin 8) (v : BitVec 32), s.takes w (0x121800 + 4 * g) (v ||| 1).toNat = true ∧ bit v.toNat 1 = false ∧ bit v.toNat 2 = false ∧ s.injActive g = false ∧ s.on R.CHN_INJ_PERMIT_PERMIT = true ∧ s.injs.length = 32 :=
  ⟨((up.wr R.CHN_INJ_PERMIT_PERMIT 1).wr (R.INJ_CFG_WAVE 2) 1).wr (R.INJ_LEN_LEN 2) 9 |>.wr (R.INJ_STAT_K 2) 7, host, 0, 0, by decide +kernel⟩

set_option Elab.async false in
theorem test_met_injectionGo_running :
    ∃ (s : State) (w : Who) (g : Fin 8) (v : BitVec 32), s.takes w (0x121800 + 4 * g) (v ||| 1).toNat = true ∧ bit v.toNat 1 = false ∧ bit v.toNat 2 = false ∧ s.injActive g = true :=
  ⟨up.wr (R.INJ_STAT_ACTIVE 2) 1, host, 0, 0, by decide +kernel⟩

set_option Elab.async false in
theorem test_met_injectionStop :
    ∃ (s : State) (w : Who) (g : Fin 8) (v : BitVec 32), s.takes w (0x121800 + 4 * g) (v ||| 2).toNat = true ∧ bit v.toNat 0 = false ∧ bit v.toNat 2 = false ∧ s.injs.length = 32 :=
  ⟨((up.wr (R.INJ_STAT_ACTIVE 2) 1).wr (R.INJ_CFG_WAVE 2) 1).wr (R.INJ_STAT_ACTIVE 4) 1 |>.wr (R.INJ_CFG_WAVE 4) 3, host, 0, 0, by decide +kernel⟩

set_option Elab.async false in
theorem test_met_injectionAbort :
    ∃ (s : State) (w : Who) (g : Fin 8) (v : BitVec 32), s.takes w (0x121800 + 4 * g) (v ||| 4).toNat = true ∧ bit v.toNat 0 = false ∧ bit v.toNat 1 = false :=
  ⟨(up.wr (R.INJ_STAT_ACTIVE 2) 1).wr (R.INJ_CFG_WAVE 2) 1, host, 0, 0, by decide +kernel⟩

set_option Elab.async false in
theorem test_met_permitWrite :
    ∃ (s : State) (w : Who) (v : BitVec 32), s.takes w 0x121840 v.toNat = true ∧ bit v.toNat 0 = false :=
  ⟨(up.wr (R.INJ_STAT_ACTIVE 2) 1).wr R.CHN_INJ_PERMIT_PERMIT 1, island, 0, by decide +kernel⟩

set_option Elab.async false in
theorem test_met_permitWrite_given :
    ∃ (s : State) (w : Who) (v : BitVec 32), s.takes w 0x121840 v.toNat = true ∧ bit v.toNat 0 = true :=
  ⟨up, island, 1, by decide +kernel⟩

set_option Elab.async false in
theorem test_met_captureEnable :
    ∃ (s s1 : State) (w : Who) (c : Fin 8) (v : BitVec 32), s1 = s.capFields c v.toNat ∧ s.takes w (0x122400 + 0x40 * c) v.toNat = true ∧ bit v.toNat 0 = true ∧ s.on (R.CAP_CFG_ENABLE c) = false ∧ c.val < s.caps.length ∧ capRingOk (s.rd (R.CAP_BASE_LO_BASE c) * 64 + s.rd (R.CAP_BASE_HI_BASE c) * 2 ^ 32) (s.rd (R.CAP_SIZE_SIZE c)) = true :=
  ⟨(up.wr (R.CAP_SIZE_SIZE 1) 4).wr (R.CAP_BASE_LO_BASE 1) (0x12000000 / 64), _, host, 1, 1, rfl, by decide +kernel⟩

set_option Elab.async false in
theorem test_met_captureEnable_rejected :
    ∃ (s s1 : State) (w : Who) (c : Fin 8) (v : BitVec 32), s1 = s.capFields c v.toNat ∧ s.takes w (0x122400 + 0x40 * c) v.toNat = true ∧ bit v.toNat 0 = true ∧ s.on (R.CAP_CFG_ENABLE c) = false ∧ capRingOk (s.rd (R.CAP_BASE_LO_BASE c) * 64 + s.rd (R.CAP_BASE_HI_BASE c) * 2 ^ 32) (s.rd (R.CAP_SIZE_SIZE c)) = false :=
  ⟨up, _, host, 1, 1, rfl, by decide +kernel⟩

set_option Elab.async false in
theorem test_met_captureWriteComplete :
    ∃ (s : State) (c : Fin 8) (a : Nat) (l : List Byte) (rest : List (Nat × List Byte)) (code p : Nat), (s.caps.getD c {}).jobs = (a, l) :: rest ∧ c.val < s.caps.length ∧ s.memAdmit chnWho (s.stamp a) a l.length true = (s, .ok, code, p) ∧ (∀ wa ∈ wordsOf (eccWord code) p l.length, tget 0 s.ecc wa = 0) ∧ s.on R.MEM_INJ_CTRL_ARM = false ∧ s.on (R.CAP_TOKEN_TOK_EN c) = false :=
  ⟨memUp.setCap 1 { jobs := [(0x12000040, List.replicate 64 7)] }, 1, 0x12000040, List.replicate 64 7, [], 0x40, 0x12000040, by decide +kernel⟩

set_option Elab.async false in
theorem test_met_droneCycle :
    ∃ (s : State) (d : Nat), s.aligned = true ∧ s.boot.porst = false ∧ d < 16 ∧ d < s.drones.length ∧ s.drnState d ≠ 0 ∧ (s.drone d).ops = [] :=
  ⟨{ (droneIn 2).setDrone 1 { f := -5, acc := 3 } with aligned := true }, 1, by decide +kernel⟩

set_option Elab.async false in
theorem test_met_droneCycle_correction :
    ∃ (s : State) (d : Nat) (dA dF : Int), s.aligned = true ∧ s.boot.porst = false ∧ d < 16 ∧ d < s.drones.length ∧ s.drnState d ≠ 0 ∧ (s.drone d).ops = [.corr dA dF] :=
  ⟨{ (droneIn 2).setDrone 1 { f := -5, acc := 3, ops := [.corr 9 2] } with aligned := true }, 1, 9, 2, by decide +kernel⟩

set_option Elab.async false in
theorem test_met_droneCycle_off :
    ∃ (s : State) (d : Nat), s.aligned = true ∧ s.boot.porst = false ∧ d < 16 ∧ d < s.drones.length ∧ s.drnState d = 0 :=
  ⟨{ (droneIn 2).setDrone 2 { f := -5, acc := 3, preset := true } with aligned := true }, 2, by decide +kernel⟩

set_option Elab.async false in
theorem test_met_latchRecordWritten :
    ∃ (s : State) (rs : List Reply) (j : LatchJob) (rest : List LatchJob) (q : State × Status), q = State.gmWrites { s with replies := rs } { ini := 0x26, cls := 1, remote := false } j.addr j.data ∧ s.latchJobs = j :: rest ∧ q.2 = .ok ∧ j.msg = none :=
  ⟨{ memUp with latchJobs := [⟨1, none, 0x12000000, List.replicate 144 7⟩] }, [], ⟨1, none, 0x12000000, List.replicate 144 7⟩, [], _, rfl, by decide +kernel⟩

set_option Elab.async false in
theorem test_met_latchRecordWritten_failed :
    ∃ (s : State) (rs : List Reply) (j : LatchJob) (rest : List LatchJob) (q : State × Status), q = State.gmWrites { s with replies := rs } { ini := 0x26, cls := 1, remote := false } j.addr j.data ∧ s.latchJobs = j :: rest ∧ q.2 ≠ .ok ∧ q.2 ≠ .retry :=
  ⟨{ memUp with latchJobs := [⟨1, some 7, 0xFFFF0000, List.replicate 144 7⟩] }, [], ⟨1, some 7, 0xFFFF0000, List.replicate 144 7⟩, [], _, rfl, by decide +kernel⟩

set_option Elab.async false in
theorem test_met_droneCaptureTick :
    ∃ (s : State) (d : Fin 16) (ix th : Nat), th = s.rd (R.AX_ENC_CNT_CNT ix) % (s.drone d).mod * ((2 ^ 49 + (s.drone d).mod) / (2 * (s.drone d).mod)) / 2 ^ 16 % 2 ^ 32 ∧ d.val < s.drones.length ∧ s.drnState d ≠ 0 ∧ (s.drone d).nExp ≠ 0 ∧ (s.drone d).capAge + (s.drone d).nExp ≤ (s.drone d).age ∧ s.rd (R.DRN_SRC_KIND d) = 1 ∧ s.rd (R.DRN_SRC_INDEX d) = ix ∧ ix < 12 ∧ (s.drone d).mod ≠ 0 ∧ s.on (R.DRN_CTRL_ALT_EN d) = false :=
  ⟨(((droneIn 2).wr (R.DRN_SRC_KIND 1) 1).wr (R.AX_ENC_CNT_CNT 0) 77).setDrone 1 { nExp := 4, age := 5, mod := 100 }, 1, 0, _, rfl, by decide +kernel⟩

set_option Elab.async false in
theorem test_met_droneCaptureTick_early :
    ∃ (s : State) (d : Fin 16), (s.drnState d = 0 ∨ (s.drone d).nExp = 0 ∨ (s.drone d).age < (s.drone d).capAge + (s.drone d).nExp) :=
  ⟨droneIn 2, 1, by decide +kernel⟩

set_option Elab.async false in
theorem test_met_droneMeasurement :
    ∃ (s : State) (i d : Nat) (m : Meas) (e : Int), e = sx 32 (ux 32 ((m.theta : Int) - (s.phaseAt d (s.measAge d m.cap) : Int))) ∧ s.meas[i]? = some m ∧ d = m.drone ∧ d < s.drones.length ∧ m.kind ≠ 0 ∧ s.rd (R.DRN_SRC_KIND d) = m.kind ∧ s.rd (R.DRN_SRC_INDEX d) = m.index ∧ s.on (R.DRN_STAT_ALT_ACTIVE d) = false ∧ s.on (R.DRN_CTRL_ALT_EN d) = false ∧ s.drnState d = 2 ∧ (s.drone d).preset = false ∧ s.measAge d m.cap ≤ 4095 ∧ e.natAbs ≤ s.rd (R.DRN_ERRMAX_ERR_MAX d) :=
  ⟨{ ((droneIn 2).wr (R.DRN_SRC_KIND 1) 1).wr (R.DRN_ERRMAX_ERR_MAX 1) 1000 with meas := [⟨1, 1, 0, 50, 0⟩] }, 0, 1, ⟨1, 1, 0, 50, 0⟩, _, rfl, by decide +kernel⟩

set_option Elab.async false in
theorem test_met_droneMeasurement_acquire :
    ∃ (s : State) (i d : Nat) (m : Meas), s.meas[i]? = some m ∧ d = m.drone ∧ d < s.drones.length ∧ m.kind ≠ 0 ∧ s.rd (R.DRN_SRC_KIND d) = m.kind ∧ s.rd (R.DRN_SRC_INDEX d) = m.index ∧ s.on (R.DRN_STAT_ALT_ACTIVE d) = false ∧ s.on (R.DRN_CTRL_ALT_EN d) = false ∧ s.drnState d = 1 ∧ (s.drone d).preset = false ∧ s.measAge d m.cap ≤ 4095 ∧ (s.drone d).first = true ∧ s.rd (R.DRN_CTRL_LOCK_CNT d) ≠ 0 :=
  ⟨{ (((droneIn 1).wr (R.DRN_SRC_KIND 1) 1).wr (R.DRN_CTRL_LOCK_CNT 1) 4).setDrone 1 { first := true } with meas := [⟨1, 1, 0, 50, 0⟩] }, 0, 1, ⟨1, 1, 0, 50, 0⟩, by decide +kernel⟩

set_option Elab.async false in
theorem test_met_droneMissTest :
    ∃ (s : State) (d : Fin 16), d.val < s.drones.length ∧ s.drnState d ≠ 0 ∧ s.followed d ≠ 0 ∧ (s.drone d).nExp ≠ 0 ∧ (s.drone d).missMax ≠ 0 ∧ (s.drone d).missAge + (s.drone d).nExp ≤ (s.drone d).age ∧ (s.drone d).gotMeas = true :=
  ⟨((droneIn 2).wr (R.DRN_SRC_KIND 1) 1).setDrone 1 { nExp := 4, age := 5, missMax := 3, gotMeas := true }, 1, by decide +kernel⟩

set_option Elab.async false in
theorem test_met_droneMissTest_missed :
    ∃ (s : State) (d : Fin 16), d.val < s.drones.length ∧ s.drnState d = 2 ∧ s.followed d ≠ 0 ∧ (s.drone d).nExp ≠ 0 ∧ (s.drone d).missRun + 1 < (s.drone d).missMax ∧ (s.drone d).missAge + (s.drone d).nExp ≤ (s.drone d).age ∧ (s.drone d).gotMeas = false :=
  ⟨((droneIn 2).wr (R.DRN_SRC_KIND 1) 1).setDrone 1 { nExp := 4, age := 5, missMax := 3 }, 1, by decide +kernel⟩

set_option Elab.async false in
theorem test_met_holdMaxExpiry :
    ∃ (s : State) (d : Fin 16), d.val < s.drones.length ∧ s.drnState d = 3 ∧ s.rd (R.DRN_HOLD_MAX_HOLD_MAX d) ≤ (s.drone d).hold ∧ s.on (R.DRN_CTRL_NOTIFY_EN d) = false :=
  ⟨((droneIn 3).wr (R.DRN_HOLD_MAX_HOLD_MAX 1) 7).setDrone 1 { hold := 9 }, 1, by decide +kernel⟩

set_option Elab.async false in
theorem test_met_drnEnable :
    ∃ (s s1 : State) (w : Who) (d : Fin 16) (v : BitVec 32) (g : Int), s1 = s.drnFields d v.toNat ∧ g = s.clampF d (sx 48 (s.rd (R.DRN_FINIT_LO_FINIT_LO d) + s.rd (R.DRN_FINIT_HI_FINIT_HI d) * 2 ^ 32)) ∧ s.takes w (0x30000 + 0x400 * d) v.toNat = true ∧ d.val < s.drones.length ∧ s.on (R.DRN_CTRL_ENABLE d) = false ∧ s.drnState d = 0 ∧ bit v.toNat 0 = true ∧ bits v.toNat 1 2 = 0 ∧ bits v.toNat 4 2 = 0 ∧ s1.drnBad d = false :=
  ⟨(droneIn 0).wr (R.DRN_FINIT_LO_FINIT_LO 1) 77, _, host, 1, 0x401, _, rfl, rfl, by decide +kernel⟩

set_option Elab.async false in
theorem test_met_drnEnable_refused :
    ∃ (s s1 : State) (w : Who) (d : Fin 16) (v : BitVec 32), s1 = s.drnFields d v.toNat ∧ s.takes w (0x30000 + 0x400 * d) v.toNat = true ∧ s.on (R.DRN_CTRL_ENABLE d) = false ∧ bit v.toNat 0 = true ∧ bits v.toNat 1 2 = 0 ∧ bit v.toNat 5 = false ∧ s1.drnBad d = true :=
  ⟨(droneIn 0).wr (R.DRN_SRC_KIND 1) 1, _, host, 1, 1, rfl, by decide +kernel⟩

set_option Elab.async false in
theorem test_met_drnEnable_off :
    ∃ (s s1 : State) (w : Who) (d : Fin 16) (v : BitVec 32), s1 = s.drnFields d v.toNat ∧ s.takes w (0x30000 + 0x400 * d) v.toNat = true ∧ d.val < s.drones.length ∧ s.on (R.DRN_CTRL_ENABLE d) = true ∧ s.drnState d ≠ 0 ∧ bits v.toNat 0 3 = 0 ∧ bits v.toNat 4 2 = 0 :=
  ⟨(droneIn 2).wr (R.DRN_CTRL_ENABLE 1) 1, _, host, 1, 0x400, rfl, by decide +kernel⟩

set_option Elab.async false in
theorem test_met_reacq :
    ∃ (s s1 : State) (w : Who) (d : Fin 16) (v : BitVec 32), s1 = s.drnFields d v.toNat ∧ s.takes w (0x30000 + 0x400 * d) (v ||| 2).toNat = true ∧ d.val < s.drones.length ∧ 2 ≤ s.drnState d ∧ s.on (R.DRN_CTRL_ENABLE d) = bit v.toNat 0 ∧ bit v.toNat 2 = false ∧ bits v.toNat 4 2 = 0 ∧ s1.drnBad d = false :=
  ⟨(droneIn 4).wr (R.DRN_CTRL_ENABLE 1) 1, _, host, 1, 0x401, rfl, by decide +kernel⟩

set_option Elab.async false in
theorem test_met_presetGo :
    ∃ (s s1 : State) (w : Who) (d : Fin 16) (v : BitVec 32), s1 = s.drnFields d v.toNat ∧ s.takes w (0x30000 + 0x400 * d) (v ||| 4).toNat = true ∧ d.val < s.drones.length ∧ s.on (R.DRN_CTRL_ENABLE d) = bit v.toNat 0 ∧ bit v.toNat 1 = false ∧ bit v.toNat 5 = false :=
  ⟨((droneIn 2).wr (R.DRN_CTRL_ENABLE 1) 1).wr (R.DRN_PRESET_PH_PRESET_PH 1) 0x1234, _, host, 1, 1, rfl, by decide +kernel⟩

set_option Elab.async false in
theorem test_met_drnCntClr :
    ∃ (s s1 : State) (w : Who) (d : Fin 16) (v : BitVec 32), s1 = s.drnFields d v.toNat ∧ s.takes w (0x30000 + 0x400 * d) (v ||| 0x20).toNat = true ∧ s.on (R.DRN_CTRL_ENABLE d) = bit v.toNat 0 ∧ bits v.toNat 1 2 = 0 :=
  ⟨((droneIn 2).wr (R.DRN_CTRL_ENABLE 1) 1).wr (R.DRN_CNT2_MISSED 1) 9, _, host, 1, 0x401, rfl, by decide +kernel⟩

set_option Elab.async false in
theorem test_met_altActiveReturn :
    ∃ (s : State) (w : Who) (d : Fin 16) (v : BitVec 32), s.takes w (0x30074 + 0x400 * d) (v ||| 0x40).toNat = true :=
  ⟨((droneIn 2).wr (R.DRN_STAT_ALT_ACTIVE 1) 1).wr (R.DRN_STAT_LOVF 1) 1, host, 1, 0x200, by decide +kernel⟩

set_option Elab.async false in
theorem test_met_evPhaseWrite :
    ∃ (s : State) (w : Who) (d e : Fin 16) (v : BitVec 32), s.takes w (0x30200 + 0x400 * d + 0x10 * e) v.toNat = true ∧ d.val < s.drones.length ∧ e.val < (s.drone d).slots.length :=
  ⟨(droneIn 2).setDrone 1 { slots := List.replicate 16 { disarmed := true, unarmed := [3] } }, host, 1, 2, 0x1234, by decide +kernel⟩

set_option Elab.async false in
theorem test_met_evCtrlWrite :
    ∃ (s : State) (w : Who) (d e : Fin 16) (v : BitVec 32), s.takes w (0x30204 + 0x400 * d + 0x10 * e) v.toNat = true ∧ d.val < s.drones.length ∧ e.val < (s.drone d).slots.length :=
  ⟨((droneIn 2).wr (R.EV_CTRL_FIRED 1 2) 1).setDrone 1 { slots := List.replicate 16 { disarmed := true, unarmed := [3] } }, host, 1, 2, 0x30041, by decide +kernel⟩

set_option Elab.async false in
theorem test_met_drnSnapRead :
    ∃ (s : State) (w : Who) (d : Fin 16), s.gives w (0x30060 + 0x400 * d) = true :=
  ⟨(droneIn 2).setDrone 1 { acc := 0x123456789ABCDEF0, cyc := 9 }, host, 1, by decide +kernel⟩

set_option Elab.async false in
theorem test_met_latchBankRead :
    ∃ (s : State) (w : Who), s.gives w 0x3508C = true :=
  ⟨{ up.wr (R.LATCH_WORD 35) 0x77 with latchUnread := true }, host, by decide +kernel⟩

set_option Elab.async false in
theorem test_met_frTailWrite :
    ∃ (s : State) (r : RingId) (w : Who) (v : BitVec 32) (b n x : Nat), b = ringBase r ∧ n = s.frSize b ∧ x = bits v.toNat 0 12 ∧ s.takes w (b + 0xC) v.toNat = true ∧ x < n ∧ (s.rd (frTail b) + n - s.rd (frHead b) % n) % n ≤ (x + n - s.rd (frHead b) % n) % n :=
  ⟨ringUp (ethTxRing 1 3), .ethTx 1 3, host, 15, ethTxRing 1 3, 16, 15, by decide +kernel⟩

set_option Elab.async false in
theorem test_met_frTailWrite_past :
    ∃ (s : State) (r : RingId) (w : Who) (v : BitVec 32) (b n x : Nat), b = ringBase r ∧ n = s.frSize b ∧ x = bits v.toNat 0 12 ∧ s.takes w (b + 0xC) v.toNat = true ∧ (n ≤ x ∨ (x + n - s.rd (frHead b) % n) % n < (s.rd (frTail b) + n - s.rd (frHead b) % n) % n) :=
  ⟨ringUp (canRing 2), .can 2, host, 16, canRing 2, 16, 16, by decide +kernel⟩

set_option Elab.async false in
theorem test_met_fieldEntryDone :
    ∃ (s : State) (r : RingId) (rs : List Reply) (b : Nat) (e : List Byte) (l : List (List Byte)) (q : State × Status), q = State.gmWrites { s with replies := rs } (s.frWho b) (s.frEntryAt b (s.rd (frHead b))) e ∧ b = ringBase r ∧ s.frDoneOf b = e :: l ∧ (bit (e.getD (if frIsCan b then 6 else 10) 0).toNat 1 = false ∧ s.on (frTokEn b) = false) ∧ (s.frSafety b = false ∧ ∀ k < 16, s.on (R.EF_CTL_TO_SAFETY (frIndex b) k) = false) :=
  ⟨(ringUp (ethRxRing 1 3)).setFrDone (ethRxRing 1 3) [List.replicate 32 0, [7]], .ethRx 1 3, [], ethRxRing 1 3, List.replicate 32 0, [[7]], _, rfl, by decide +kernel⟩

set_option Elab.async false in
theorem test_met_fieldEntryDone_token :
    ∃ (s : State) (r : RingId) (rs : List Reply) (b : Nat) (e : List Byte) (l : List (List Byte)) (q : State × Status), q = State.gmWrites { s with replies := rs } (s.frWho b) (s.frEntryAt b (s.rd (frHead b))) e ∧ b = ringBase r ∧ s.frDoneOf b = e :: l ∧ (bit (e.getD (if frIsCan b then 6 else 10) 0).toNat 1 = true ∨ s.on (frTokEn b) = true) ∧ (s.frSafety b = false ∧ ∀ k < 16, s.on (R.EF_CTL_TO_SAFETY (frIndex b) k) = false) :=
  ⟨((ringUp (canRing 2)).wr (frCounter (canRing 2)) 3).setFrDone (canRing 2) [List.replicate 6 0 ++ [2] ++ List.replicate 89 0], .can 2, [], canRing 2, List.replicate 6 0 ++ [2] ++ List.replicate 89 0, [], _, rfl, by decide +kernel⟩

set_option Elab.async false in
theorem test_met_fieldEntryDone_safety :
    ∃ (s : State) (c : Fin 4) (rs : List Reply) (b : Nat) (e : List Byte) (l : List (List Byte)) (q : State × Status), q = State.gmWrites { s with replies := rs } { ini := 0x27, cls := 0, remote := false } (s.frEntryAt b (s.rd (frHead b))) e ∧ b = canRing c ∧ s.frDoneOf b = e :: l ∧ s.on (R.CAN_CTRL_SAFETY c) = true :=
  ⟨((ringUp (canRing 2)).wr (R.CAN_CTRL_SAFETY 2) 1).setFrDone (canRing 2) [List.replicate 96 0], 2, [], canRing 2, List.replicate 96 0, [], _, rfl, by decide +kernel⟩

set_option Elab.async false in
theorem test_met_ethFrameReceive :
    ∃ (s : State) (p speed : Fin 4) (f : List Byte) (rs : List Reply) (s1 : State) (b i k : Nat) (e : State × Status × List Byte) (n : Nat) (q : State × Status), s1 = State.linkUp { s with replies := rs } p speed ∧ e = s1.frRead b i ∧ q = e.1.gmWrites (s.frWho b) (leNat (e.2.2.take 8)) (f.take n) ∧ s.on (R.ETH_CTRL_EN p) = true ∧ 60 ≤ f.length ∧ f.length ≤ s.rd (R.ETH_MAXLEN_MAXLEN p) ∧ s.ethAccepts p f = true ∧ ethType f ≠ s.rd R.WW_ETYPE_ETYPE ∧ b = ethRxRing p (s.ethTarget p f).1 ∧ k = (s.ethTarget p f).2 ∧ s.frNext b = some i ∧ e.2.1 = .ok ∧ e.2.2.length = 32 ∧ n = min (leNat ((e.2.2.drop 8).take 2)) f.length :=
  ⟨ethRx, 1, 2, List.replicate 60 255, [], _, ethRxRing 1 0, 0, 255, _, 60, _, rfl, rfl, rfl, by decide +kernel⟩

set_option Elab.async false in
theorem test_met_ethFrameReceive_bad :
    ∃ (s : State) (p speed : Fin 4) (f : List Byte) (fcsOk : Bool) (rs : List Reply), s.on (R.ETH_CTRL_EN p) = true ∧ (fcsOk = false ∨ f.length < 60 ∨ s.rd (R.ETH_MAXLEN_MAXLEN p) < f.length) :=
  ⟨ethRx, 1, 2, List.replicate 59 255, true, [], by decide +kernel⟩

set_option Elab.async false in
theorem test_met_ethFrameReceive_other :
    ∃ (s : State) (p speed : Fin 4) (f : List Byte) (rs : List Reply), s.on (R.ETH_CTRL_EN p) = true ∧ 60 ≤ f.length ∧ f.length ≤ s.rd (R.ETH_MAXLEN_MAXLEN p) ∧ s.ethAccepts p f = false :=
  ⟨ethRx, 1, 2, List.replicate 60 7, [], by decide +kernel⟩

set_option Elab.async false in
theorem test_met_ethFrameReceive_nobuf :
    ∃ (s : State) (p speed : Fin 4) (f : List Byte) (rs : List Reply) (b : Nat), s.on (R.ETH_CTRL_EN p) = true ∧ 60 ≤ f.length ∧ f.length ≤ s.rd (R.ETH_MAXLEN_MAXLEN p) ∧ s.ethAccepts p f = true ∧ ethType f ≠ s.rd R.WW_ETYPE_ETYPE ∧ b = ethRxRing p (s.ethTarget p f).1 ∧ s.frNext b = none :=
  ⟨ethRx.wr (frTail (ethRxRing 1 0)) 0, 1, 2, List.replicate 60 255, [], ethRxRing 1 0, by decide +kernel⟩

set_option Elab.async false in
theorem test_met_ethFrameTransmit :
    ∃ (s : State) (p speed : Fin 4) (rs : List Reply) (s1 : State) (c b i n : Nat) (e d : State × Status × List Byte) (ts : Nat), s1 = State.linkUp { s with replies := rs } p speed ∧ e = s1.frRead b i ∧ d = e.1.gmReads (s.frWho b) (leNat (e.2.2.take 8)) n ∧ s.on (R.ETH_CTRL_EN p) = true ∧ c < 8 ∧ (List.range 8).all (fun k => decide (k ≤ c) || decide (s1.classNext p k speed = (s1, none))) = true ∧ s1.safetyNext p c speed = none ∧ s.ethTurn.contains (8 * p + c) = false ∧ b = ethTxRing p c ∧ s.frNext b = some i ∧ e.2.1 = .ok ∧ e.2.2.length = 32 ∧ n = leNat ((e.2.2.drop 8).take 2) ∧ 60 ≤ n ∧ n ≤ s.rd (R.ETH_MAXLEN_MAXLEN p) ∧ s.gateOpenFor p c (ethTime speed n) = true ∧ d.2.1 = .ok ∧ (ts = (if bit (e.2.2.getD 10 0).toNat 0 = true then s.ethStamp d.2.2 (s.rd (R.ETH_LAT_EGR_LAT p)) else 0)) :=
  ⟨ethTx, 1, 2, [], _, 3, ethTxRing 1 3, 0, 60, _, _, 0, rfl, rfl, rfl, by decide +kernel⟩

set_option Elab.async false in
theorem test_met_ethFrameTransmit_none :
    ∃ (s : State) (p speed : Fin 4) (rs : List Reply) (s1 : State), s1 = State.linkUp { s with replies := rs } p speed ∧ s.on (R.ETH_CTRL_EN p) = true ∧ (List.range 8).all (fun k => decide (s1.classNext p k speed = (s1, none))) = true :=
  ⟨up.wr (R.ETH_CTRL_EN 1) 1, 1, 2, [], _, rfl, by decide +kernel⟩

set_option Elab.async false in
theorem test_met_gateEntryEnd :
    ∃ (s : State) (p : Fin 4) (q : QbvSt) (e : Nat), q = s.qbvOf p ∧ e = (q.entryEnd + (q.entries.getD (q.idx + 1) (0, 0, 0)).1) % 2 ^ 48 ∧ p.val < s.qbv.length ∧ s.on (R.QBV_STAT_OPER p) = true ∧ tAfter s.sysTime q.entryEnd = true ∧ q.gateAt ≠ some s.now ∧ q.entryEnd ≠ q.cycleEnd :=
  ⟨gatesAt 150 1, 2, _, _, rfl, rfl, by decide +kernel⟩

set_option Elab.async false in
theorem test_met_gateEntryEnd_cycle :
    ∃ (s : State) (p : Fin 4) (q : QbvSt) (e : Nat), q = s.qbvOf p ∧ e = (q.cycleEnd + (q.entries.getD 0 (0, 0, 0)).1) % 2 ^ 48 ∧ p.val < s.qbv.length ∧ s.on (R.QBV_STAT_OPER p) = true ∧ tAfter s.sysTime q.entryEnd = true ∧ q.gateAt ≠ some s.now ∧ q.entryEnd = q.cycleEnd :=
  ⟨(gatesAt 1000 1).setQbv 2 { (gatesAt 1000 1).qbvOf 2 with idx := 2, entryEnd := 1000 }, 2, _, _, rfl, rfl, by decide +kernel⟩

set_option Elab.async false in
theorem test_met_gateEntryEnd_early :
    ∃ (s : State) (p : Fin 4), (s.on (R.QBV_STAT_OPER p) = false ∨ tAfter s.sysTime (s.qbvOf p).entryEnd = false) :=
  ⟨gatesAt 50 1, 2, by decide +kernel⟩

set_option Elab.async false in
theorem test_met_qbvChange :
    ∃ (s : State) (p : Fin 4) (w : Who) (v : BitVec 32), p.val < s.qbv.length ∧ s.takes w (0x310600 + 0x1000 * p) (v ||| 2).toNat = true ∧ s.qbvBad p = false :=
  ⟨adminUp, 2, host, 1, by decide +kernel⟩

set_option Elab.async false in
theorem test_met_qbvChange_bad :
    ∃ (s : State) (p : Fin 4) (w : Who) (v : BitVec 32), s.takes w (0x310600 + 0x1000 * p) (v ||| 2).toNat = true ∧ (s.rd (R.QBV_LEN_LEN p) = 0 ∨ 256 < s.rd (R.QBV_LEN_LEN p) ∨ s.rd (R.QBV_CYCLE_CYCLE p) < 1000 ∨ 1000000000 < s.rd (R.QBV_CYCLE_CYCLE p) ∨ s.rd (R.QBV_ENT_LO_INTERVAL p 0) = 0) :=
  ⟨adminUp.wr (R.QBV_CYCLE_CYCLE 2) 999, 2, host, 1, by decide +kernel⟩

set_option Elab.async false in
theorem test_met_adminListActivation :
    ∃ (s : State) (p : Fin 4) (q : QbvSt) (c e : Nat), q = s.qbvOf p ∧ p.val < s.qbv.length ∧ s.on (R.QBV_STAT_PENDING p) = true ∧ tAfter s.sysTime q.changeAt = true ∧ q.gateAt ≠ some s.now ∧ c = s.rd (R.QBV_CYCLE_CYCLE p) ∧ e = (q.changeAt + ((s.adminList p).getD 0 (0, 0, 0)).1) % 2 ^ 48 :=
  ⟨{ adminUp.wr (R.QBV_STAT_PENDING 2) 1 with now := 5 }, 2, _, 2000, 500, rfl, by decide +kernel⟩

set_option Elab.async false in
theorem test_met_adminListActivation_early :
    ∃ (s : State) (p : Fin 4), (s.on (R.QBV_STAT_PENDING p) = false ∨ tAfter s.sysTime (s.qbvOf p).changeAt = false) :=
  ⟨adminUp, 2, by decide +kernel⟩

set_option Elab.async false in
theorem test_met_rateAdjWrite :
    ∃ (s : State) (w : Who) (v : BitVec 32), s.takes w 0x314008 v.toNat = true :=
  ⟨up, host, 0x80000001, by decide +kernel⟩

set_option Elab.async false in
theorem test_met_timeStep :
    ∃ (s : State) (w : Who) (v : BitVec 32) (d : Int), d = sx 48 (s.rd R.ST_STEP_LO_STEP + bits v.toNat 0 16 * 2 ^ 32) ∧ s.takes w 0x314010 v.toNat = true ∧ s.sysAcc < 2 ^ 80 :=
  ⟨{ up.wr R.ST_STEP_LO_STEP 0xFFFFFF00 with sysAcc := 0x1234567890 }, host, 0xFFFF, _, rfl, by decide +kernel⟩

set_option Elab.async false in
theorem test_met_canTxreq :
    ∃ (s : State) (c : Fin 4) (w : Who) (v : BitVec 32), s.takes w (0x320040 + 0x1000 * c) v.toNat = true ∧ s.rd (R.CAN_TXREQ_REQ c) < 2 ^ 16 :=
  ⟨up.wr (R.CAN_TXREQ_REQ 1) 0x14, 1, host, 0x10003, by decide +kernel⟩

set_option Elab.async false in
theorem test_met_canTransmitDone :
    ∃ (s : State) (c : Fin 4) (b : Nat), s.on (R.CAN_CTRL_EN c) = true ∧ s.on (R.CAN_STAT_BUSOFF c) = false ∧ b < 16 ∧ bit (s.rd (R.CAN_TXREQ_REQ c)) b = true ∧ s.rd (R.CAN_TXREQ_REQ c) < 2 ^ 16 ∧ s.rd (R.CAN_TXDONE_DONE c) < 2 ^ 16 ∧ s.rd (R.CAN_ERR_TEC c) < 256 ∧ (∀ a < 16, bit (s.rd (R.CAN_TXREQ_REQ c)) a = true → s.canKey c b < s.canKey c a ∨ (s.canKey c b = s.canKey c a ∧ b ≤ a)) :=
  ⟨(((canUp.wr (R.CAN_TXREQ_REQ 2) 0xA).wr (R.CAN_TXB_ID_ID 2 1) 9).wr (R.CAN_TXB_ID_ID 2 3) 8).wr (R.CAN_ERR_TEC 2) 128, 2, 3, by decide +kernel⟩

set_option Elab.async false in
theorem test_met_canTransmitDone_idle :
    ∃ (s : State) (c : Fin 4), (s.on (R.CAN_CTRL_EN c) = false ∨ s.on (R.CAN_STAT_BUSOFF c) = true ∨ s.rd (R.CAN_TXREQ_REQ c) = 0) :=
  ⟨canUp, 2, by decide +kernel⟩

set_option Elab.async false in
theorem test_met_canFrameReceive :
    ∃ (s : State) (c : Fin 4) (ts : BitVec 48) (f : CanFrame) (rs : List Reply) (s0 : State) (k i : Nat) (e : State × Status × List Byte), s0 = State.wrAll { s with replies := rs } [(R.CAN_ERR_REC c, s.rd (R.CAN_ERR_REC c) - 1), (R.CAN_ERR_MODE c, b2n (decide (128 ≤ s.rd (R.CAN_ERR_TEC c)) || decide (129 ≤ s.rd (R.CAN_ERR_REC c))))] ∧ e = s0.frRead (canRing c) i ∧ (s.on (R.CAN_CTRL_EN c) = true ∧ s.on (R.CAN_STAT_BUSOFF c) = false ∧ (f.fdf = false ∨ s.on (R.CAN_CTRL_FD c) = true)) ∧ s.rd (R.CAN_ERR_REC c) < 256 ∧ k < 32 ∧ s.canAccepts c k f = true ∧ (∀ j < k, s.canAccepts c j f = false) ∧ s.frNext (canRing c) = some i :=
  ⟨((canUp.wr (R.CAN_FILT_ID_EN 2 4) 1).wr (R.CAN_FILT_MASK_MASK 2 4) 0x7F0).wr (R.CAN_FILT_ID_ID 2 4) 0x120, 2, 77, ⟨0x123, false, false, false, false, false, 2, [1, 2]⟩, [], _, 4, 0, _, rfl, rfl, by decide +kernel⟩

set_option Elab.async false in
theorem test_met_canFrameReceive_drop :
    ∃ (s : State) (c : Fin 4) (ts : BitVec 48) (f : CanFrame) (rs : List Reply), (s.on (R.CAN_CTRL_EN c) = true ∧ s.on (R.CAN_STAT_BUSOFF c) = false ∧ (f.fdf = false ∨ s.on (R.CAN_CTRL_FD c) = true)) ∧ (s.rd (R.CAN_ERR_REC c) < 256 ∧ ∀ j < 32, s.canAccepts c j f = false) :=
  ⟨canUp.wr (R.CAN_ERR_REC 2) 3, 2, 77, ⟨0x123, false, false, false, false, false, 2, [1, 2]⟩, [], by decide +kernel⟩

set_option Elab.async false in
theorem test_met_canBusOff :
    ∃ (s : State) (c : Fin 4), s.on (R.CAN_CTRL_EN c) = true ∧ s.on (R.CAN_STAT_BUSOFF c) = false :=
  ⟨{ canUp.wr (R.CAN_CTRL_SAFETY 2) 1 with canRecover := [2] }, 2, by decide +kernel⟩

set_option Elab.async false in
theorem test_met_canRecover :
    ∃ (s s1 : State) (c : Fin 4) (w : Who) (v : BitVec 32), s1 = s.canFields c v.toNat ∧ s.takes w (0x320000 + 0x1000 * c) (v ||| 16).toNat = true ∧ s.on (R.CAN_STAT_BUSOFF c) = true :=
  ⟨canUp.wr (R.CAN_STAT_BUSOFF 2) 1, _, 2, host, 3, rfl, by decide +kernel⟩

set_option Elab.async false in
theorem test_met_busOffRecovery :
    ∃ (s : State) (c : Fin 4), (s.on (R.CAN_STAT_BUSOFF c) = true ∧ (s.on (R.CAN_CTRL_AUTO_REC c) = true ∨ s.canRecover.contains c.val = true)) :=
  ⟨{ canUp.wr (R.CAN_STAT_BUSOFF 2) 1 with canRecover := [2] }, 2, by decide +kernel⟩

set_option Elab.async false in
theorem test_met_busOffRecovery_waits :
    ∃ (s : State) (c : Fin 4), s.on (R.CAN_CTRL_AUTO_REC c) = false ∧ s.canRecover.contains c.val = false :=
  ⟨canUp.wr (R.CAN_STAT_BUSOFF 2) 1, 2, by decide +kernel⟩

set_option Elab.async false in
theorem test_met_csiFrameStart :
    ∃ (s : State) (r : Fin 2) (vc : Fin 4) (num : BitVec 16) (rs : List Reply) (x : Nat), s.on (R.CSI_CTRL_EN r) = true ∧ s.csiMatch r vc none = [x] ∧ 2 * r + x < s.csis.length ∧ (s.csi r x).active = false ∧ s.on (R.CS_MATCH_DRN_SRC r x) = false ∧ s.rd (R.CS_STATUS_FREE r x) ≠ 0 ∧ s.rd (R.CS_STATUS_FREE r x) < 16 :=
  ⟨(csiUp.wr (R.CS_BUF_STRIDE_NBUF 1 0) 2).setCsi 1 0 { accepted := 5 }, 1, 2, 9, [], 0, by decide +kernel⟩

set_option Elab.async false in
theorem test_met_csiFrameStart_drop :
    ∃ (s : State) (r : Fin 2) (vc : Fin 4) (num : BitVec 16) (rs : List Reply) (x : Nat), s.on (R.CSI_CTRL_EN r) = true ∧ s.csiMatch r vc none = [x] ∧ (s.csi r x).active = false ∧ s.on (R.CS_MATCH_DRN_SRC r x) = false ∧ s.rd (R.CS_STATUS_FREE r x) = 0 :=
  ⟨csiUp.wr (R.CS_STATUS_FREE 1 0) 0, 1, 2, 9, [], 0, by decide +kernel⟩

set_option Elab.async false in
theorem test_met_csiFrameStart_header :
    ∃ (s : State) (r : Fin 2) (vc : Fin 4) (num : BitVec 16) (rs : List Reply), s.on (R.CSI_CTRL_EN r) = true :=
  ⟨csiUp, 1, 2, 9, [], by decide +kernel⟩

set_option Elab.async false in
theorem test_met_csiLine :
    ∃ (s : State) (r : Fin 2) (vc : Fin 4) (dt : Fin 64) (vals : List Nat) (crcOk : Bool) (rs : List Reply) (x sz : Nat) (c : CsiSt) (q : State × Status), c = s.csi r x ∧ q = State.gmWrites { s with replies := rs } { ini := Fin.ofNat 64 (0x30 + r), cls := 2, remote := false } (s.csiBufAt r x c.buf + c.lines * (s.rd (R.CS_PITCH_PITCH r x) * 64) + s.chip * 2 ^ 48) ((vals.map (leBytes sz)).flatten) ∧ s.on (R.CSI_CTRL_EN r) = true ∧ s.csiMatch r vc (some dt) = [x] ∧ 2 * r + x < s.csis.length ∧ c.active = true ∧ s.on (R.CS_MATCH_DRN_SRC r x) = false ∧ c.lines < s.rd (R.CS_GEOM_LINES r x) ∧ (vals.length = s.rd (R.CS_GEOM_WIDTH r x) ∧ dt ≠ 0x1E ∧ sz = (if dt = 0x2B ∨ dt = 0x2C ∨ dt = 0x2E then 2 else 1)) :=
  ⟨(csiUp.wr (R.CS_GEOM_WIDTH 1 0) 3).setCsi 1 0 { active := true, lines := 4 }, 1, 2, 0x2B, [1, 2, 0x300], false, [], 0, 2, _, _, rfl, rfl, by decide +kernel⟩

set_option Elab.async false in
theorem test_met_csiLine_length :
    ∃ (s : State) (r : Fin 2) (vc : Fin 4) (dt : Fin 64) (vals : List Nat) (rs : List Reply) (x sz : Nat) (c : CsiSt) (q : State × Status), c = s.csi r x ∧ q = State.gmWrites { s with replies := rs } { ini := Fin.ofNat 64 (0x30 + r), cls := 2, remote := false } (s.csiBufAt r x c.buf + c.lines * (s.rd (R.CS_PITCH_PITCH r x) * 64) + s.chip * 2 ^ 48) (fitBytes (s.rd (R.CS_GEOM_WIDTH r x) * sz) ((vals.map (leBytes sz)).flatten)) ∧ s.on (R.CSI_CTRL_EN r) = true ∧ s.csiMatch r vc (some dt) = [x] ∧ 2 * r + x < s.csis.length ∧ c.active = true ∧ s.on (R.CS_MATCH_DRN_SRC r x) = false ∧ c.lines < s.rd (R.CS_GEOM_LINES r x) ∧ (vals.length ≠ s.rd (R.CS_GEOM_WIDTH r x) ∧ dt ≠ 0x1E ∧ sz = (if dt = 0x2B ∨ dt = 0x2C ∨ dt = 0x2E then 2 else 1)) :=
  ⟨(csiUp.wr (R.CS_GEOM_WIDTH 1 0) 3).setCsi 1 0 { active := true, lines := 4 }, 1, 2, 0x2B, [1, 2], [], 0, 2, _, _, rfl, rfl, by decide +kernel⟩

set_option Elab.async false in
theorem test_met_csiBandComplete :
    ∃ (s : State) (r x : Fin 2) (c : CsiSt), c = s.csi r x ∧ c.active = true ∧ c.bands < s.csiBands r x ∧ min ((s.rd (R.CS_PITCH_BAND r x) + 1) * (c.bands + 1)) (s.rd (R.CS_GEOM_LINES r x)) ≤ c.lines :=
  ⟨((csiUp.wr (R.CS_PITCH_BAND 1 0) 3).wr (R.CS_TOK_BAND_COUNTER 1 0) 7).setCsi 1 0 { active := true, lines := 4 }, 1, 0, _, rfl, by decide +kernel⟩

set_option Elab.async false in
theorem test_met_csiBandComplete_early :
    ∃ (s : State) (r x : Fin 2), ((s.csi r x).active = false ∨ s.csiBands r x ≤ (s.csi r x).bands ∨ (s.csi r x).lines < min ((s.rd (R.CS_PITCH_BAND r x) + 1) * ((s.csi r x).bands + 1)) (s.rd (R.CS_GEOM_LINES r x))) :=
  ⟨(csiUp.wr (R.CS_PITCH_BAND 1 0) 3).setCsi 1 0 { active := true, lines := 3 }, 1, 0, by decide +kernel⟩

set_option Elab.async false in
theorem test_met_csiFrameEnd :
    ∃ (s : State) (r : Fin 2) (vc : Fin 4) (rs : List Reply) (x : Nat) (c : CsiSt) (q : State × Status), c = s.csi r x ∧ (q = State.gmWrites { s with replies := rs } { ini := Fin.ofNat 64 (0x30 + r), cls := 2, remote := false } (s.rd (R.CS_STAT_LO_STAT r x) * 256 + s.rd (R.CS_STAT_HI_STAT r x) * 2 ^ 32 + 32 * c.buf + s.chip * 2 ^ 48) (leBytes 2 c.num ++ leBytes 2 c.accepted ++ leBytes 1 (if c.failed = true then 3 else 0) ++ leBytes 1 c.flags ++ leBytes 2 c.lines ++ leBytes 6 c.start ++ leBytes 2 c.cc ++ List.replicate 16 0)) ∧ s.on (R.CSI_CTRL_EN r) = true ∧ s.csiMatch r vc none = [x] ∧ c.active = true ∧ s.csiBands r x ≤ c.bands :=
  ⟨(csiUp.wr (R.CS_TOK_FRAME_COUNTER 1 0) 7).setCsi 1 0 { active := true, lines := 10, bands := 10, num := 3, flags := 2 }, 1, 2, [], 0, _, _, rfl, rfl, by decide +kernel⟩

set_option Elab.async false in
theorem test_met_csiFrameEnd_none :
    ∃ (s : State) (r : Fin 2) (vc : Fin 4) (rs : List Reply), s.on (R.CSI_CTRL_EN r) = true ∧ s.csiMatch r vc none = [] :=
  ⟨csiUp, 1, 3, [], by decide +kernel⟩

set_option Elab.async false in
theorem test_met_csiFrameTimeout :
    ∃ (s : State) (r x : Fin 2) (rs : List Reply) (c : CsiSt) (q : State × Status), c = s.csi r x ∧ (q = State.gmWrites { s with replies := rs } { ini := Fin.ofNat 64 (0x30 + r), cls := 2, remote := false } (s.rd (R.CS_STAT_LO_STAT r x) * 256 + s.rd (R.CS_STAT_HI_STAT r x) * 2 ^ 32 + 32 * c.buf + s.chip * 2 ^ 48) (leBytes 2 c.num ++ leBytes 2 c.accepted ++ leBytes 1 (if c.failed = true then 3 else 0) ++ leBytes 1 (c.flags ||| 9) ++ leBytes 2 c.lines ++ leBytes 6 c.start ++ leBytes 2 c.cc ++ List.replicate 16 0)) ∧ c.active = true ∧ s.csiBands r x ≤ c.bands ∧ s.rd (R.CS_TMO_FRAME_TMO r x) ≠ 0 ∧ 1000 * s.rd (R.CS_TMO_FRAME_TMO r x) ≤ tsub s.sysTime c.last :=
  ⟨{ (csiUp.wr (R.CS_TMO_FRAME_TMO 1 0) 2).setCsi 1 0 { active := true, lines := 6, bands := 10 } with sysAcc := 2000 * 2 ^ 32 }, 1, 0, [], _, _, rfl, rfl, by decide +kernel⟩

set_option Elab.async false in
theorem test_met_csiFrameTimeout_early :
    ∃ (s : State) (r x : Fin 2) (rs : List Reply), (s.rd (R.CS_TMO_FRAME_TMO r x) = 0 ∨ (s.csi r x).active = false ∨ tsub s.sysTime (s.csi r x).last < 1000 * s.rd (R.CS_TMO_FRAME_TMO r x)) :=
  ⟨{ (csiUp.wr (R.CS_TMO_FRAME_TMO 1 0) 2).setCsi 1 0 { active := true } with sysAcc := 1999 * 2 ^ 32 }, 1, 0, [], by decide +kernel⟩

set_option Elab.async false in
theorem test_met_csBufRet :
    ∃ (s : State) (r x : Fin 2) (w : Who) (v : BitVec 32), s.takes w (0x330128 + 0x1000 * r + 0x40 * x) v.toNat = true ∧ bit v.toNat 0 = true ∧ s.rd (R.CS_STATUS_FREE r x) < s.rd (R.CS_BUF_STRIDE_NBUF r x) + 1 ∧ s.rd (R.CS_BUF_STRIDE_NBUF r x) < 8 :=
  ⟨csiUp.wr (R.CS_BUF_STRIDE_NBUF 1 0) 3, 1, 0, host, 1, by decide +kernel⟩

set_option Elab.async false in
theorem test_met_csBufRet_err :
    ∃ (s : State) (r x : Fin 2) (w : Who) (v : BitVec 32), s.takes w (0x330128 + 0x1000 * r + 0x40 * x) v.toNat = true ∧ bit v.toNat 0 = true ∧ s.rd (R.CS_BUF_STRIDE_NBUF r x) + 1 ≤ s.rd (R.CS_STATUS_FREE r x) :=
  ⟨csiUp, 1, 0, host, 1, by decide +kernel⟩

set_option Elab.async false in
theorem test_met_spiTx :
    ∃ (s : State) (k : Fin 6) (w : Who) (v : BitVec 32), s.takes w (0x340008 + 0x100 * k) v.toNat = true ∧ k.val < s.sers.length ∧ (s.ser k).tx.length < 16 :=
  ⟨(up.wr (R.SPI_CTRL_EN 2) 1).setSer 2 { tx := [7], rx := [1] }, 2, host, 0x12345678, by decide +kernel⟩

set_option Elab.async false in
theorem test_met_spiTx_full :
    ∃ (s : State) (k : Fin 6) (w : Who) (v : BitVec 32), s.takes w (0x340008 + 0x100 * k) v.toNat = true ∧ 16 ≤ (s.ser k).tx.length :=
  ⟨up.setSer 2 { tx := List.replicate 16 3 }, 2, host, 0x12345678, by decide +kernel⟩

set_option Elab.async false in
theorem test_met_i2cCmd :
    ∃ (s : State) (k : Fin 4) (w : Who) (v : BitVec 32), s.takes w (0x341008 + 0x100 * k) (v ||| 0x200000).toNat = true ∧ 6 + k.val < s.sers.length ∧ s.on (serEn (6 + k)) = true ∧ (s.ser (6 + k)).cmd = none :=
  ⟨up.wr (R.I2C_CTRL_EN 2) 1, 2, host, 0x1050, by decide +kernel⟩

set_option Elab.async false in
theorem test_met_i2cCmd_busy :
    ∃ (s : State) (k : Fin 4) (w : Who) (v : BitVec 32), s.takes w (0x341008 + 0x100 * k) (v ||| 0x200000).toNat = true ∧ (s.on (serEn (6 + k)) = false ∨ (s.ser (6 + k)).cmd ≠ none) :=
  ⟨up, 2, host, 0x1050, by decide +kernel⟩

set_option Elab.async false in
theorem test_met_uartTx :
    ∃ (s : State) (k : Fin 4) (w : Who) (v : BitVec 32), s.takes w (0x34200C + 0x100 * k) v.toNat = true ∧ 10 + k.val < s.sers.length ∧ (s.ser (10 + k)).tx.length < 16 :=
  ⟨up.wr (R.UART_CTRL_EN 2) 1, 2, host, 0x41, by decide +kernel⟩

set_option Elab.async false in
theorem test_met_uartTx_full :
    ∃ (s : State) (k : Fin 4) (w : Who) (v : BitVec 32), s.takes w (0x34200C + 0x100 * k) v.toNat = true ∧ 16 ≤ (s.ser (10 + k)).tx.length :=
  ⟨up.setSer 12 { tx := List.replicate 16 3 }, 2, host, 0x41, by decide +kernel⟩

set_option Elab.async false in
theorem test_met_xspiCmd :
    ∃ (s : State) (w : Who) (v : BitVec 32), s.takes w 0x343004 (v ||| 0x800000).toNat = true ∧ 14 < s.sers.length ∧ s.stage = 7 ∧ s.on (serEn 14) = true ∧ (s.ser 14).cmd = none :=
  ⟨(bootIn 7).wr R.XSPI_CTRL_EN 1, host, 0x9F, by decide +kernel⟩

set_option Elab.async false in
theorem test_met_xspiCmd_stage :
    ∃ (s : State) (w : Who) (v : BitVec 32), s.takes w 0x343004 (v ||| 0x800000).toNat = true ∧ s.stage ≠ 7 ∧ w.ini ≠ 0x3E :=
  ⟨(bootIn 4).wr R.XSPI_CTRL_EN 1, host, 0x9F, by decide +kernel⟩

set_option Elab.async false in
theorem test_met_serialTransferDone :
    ∃ (s : State) (k : Fin 6) (rx : BitVec 32) (a : Nat) (l : List Nat) (m : Nat), k.val < s.sers.length ∧ (s.ser k).tx = a :: l ∧ (s.ser k).rx.length < 16 ∧ s.on (serEn k) = true ∧ m = 2 ^ (max (s.rd (R.SPI_CTRL_BITS k)) 3 + 1) :=
  ⟨((up.wr (R.SPI_CTRL_EN 2) 1).wr (R.SPI_CTRL_BITS 2) 7).setSer 2 { tx := [0x1FF, 3] }, 2, 0xABC, 0x1FF, [3], 256, by decide +kernel⟩

set_option Elab.async false in
theorem test_met_serialTransferDone_uart :
    ∃ (s : State) (k : Fin 4) (ch : Byte), 10 + k.val < s.sers.length ∧ s.on (serEn (10 + k)) = true ∧ (s.ser (10 + k)).rx.length < 16 :=
  ⟨(up.wr (R.UART_CTRL_EN 2) 1).wr (R.UART_CTRL_DATA_BITS 2) 2, 2, 0xC1, by decide +kernel⟩

set_option Elab.async false in
theorem test_met_serialTransferDone_overrun :
    ∃ (s : State) (k : Fin 4) (ch : Byte), s.on (serEn (10 + k)) = true ∧ 16 ≤ (s.ser (10 + k)).rx.length :=
  ⟨(up.wr (R.UART_CTRL_EN 2) 1).setSer 12 { rx := List.replicate 16 3 }, 2, 0xC1, by decide +kernel⟩

set_option Elab.async false in
theorem test_met_serialTransferDone_i2c :
    ∃ (s : State) (k : Fin 4) (rx : List Byte) (a : Nat), 6 + k.val < s.sers.length ∧ (s.ser (6 + k)).cmd = some a :=
  ⟨up.setSer 8 { cmd := some 0x201050 }, 2, [], 0x201050, by decide +kernel⟩

set_option Elab.async false in
theorem test_met_serialRxRead :
    ∃ (s : State) (r : SerialRx) (w : Who) (i a : Nat) (l : List Nat), s.gives w (serRxAddr r) = true ∧ i = serRxIndex r ∧ i < s.sers.length ∧ (s.ser i).rx = a :: l ∧ a < 2 ^ 32 :=
  ⟨up.setSer 12 { rx := [5, 6] }, .uart 2, host, 12, 5, [6], by decide +kernel⟩

set_option Elab.async false in
theorem test_met_serialRxRead_empty :
    ∃ (s : State) (r : SerialRx) (w : Who) (i : Nat), s.gives w (serRxAddr r) = true ∧ i = serRxIndex r ∧ (s.ser i).rx = [] :=
  ⟨up, .xspi, host, 14, by decide +kernel⟩

set_option Elab.async false in
theorem test_met_xspiWdataRead :
    ∃ (s : State) (w : Who) (st : Status) (b0 b1 b2 b3 : Byte), s.gives w 0x343018 = true :=
  ⟨up.wr R.XSPI_WADDR_WADDR 0xFFFFFFFE, host, .ok, 1, 2, 3, 4, by decide +kernel⟩

set_option Elab.async false in
theorem test_met_nop :
    ∃ (s : State) (e : Fin 32) (w : Nat) (inj : Bool), e.val < s.fes.length ∧ s.feNext e = some (w, inj) ∧ s.rd (R.FE_PC_PC e) < 32 ∧ feLegal w = true ∧ feOp w = 0 :=
  ⟨feAt 0x08000003, 3, 0x08000003, false, by decide +kernel⟩

set_option Elab.async false in
theorem test_met_br :
    ∃ (s : State) (e : Fin 32) (fio : BitVec 128) (w : Nat) (inj : Bool), e.val < s.fes.length ∧ s.feNext e = some (w, inj) ∧ s.rd (R.FE_PC_PC e) < 32 ∧ feLegal w = true ∧ feOp w = 1 :=
  ⟨feAt 0x102C0000, 3, 8, 0x102C0000, false, by decide +kernel⟩

set_option Elab.async false in
theorem test_met_br_pin :
    ∃ (s : State) (e : Fin 32) (fio : BitVec 128) (w j p : Nat), e.val < s.fes.length ∧ s.feNext e = some (w, false) ∧ w = 0x12800000 + 9 * 2 ^ 18 + j * 2 ^ 13 ∧ j < 32 ∧ p = (s.rd (R.FE_WIN_WBASE e) + j) % 128 :=
  ⟨feAt (0x12800000 + 9 * 2 ^ 18 + 4 * 2 ^ 13), 3, 16, 0x12800000 + 9 * 2 ^ 18 + 4 * 2 ^ 13, 4, 4, by decide +kernel⟩

set_option Elab.async false in
theorem test_met_loop :
    ∃ (s : State) (e : Fin 32) (w : Nat) (inj : Bool) (f : Fld) (k : Nat), e.val < s.fes.length ∧ s.feNext e = some (w, inj) ∧ s.rd (R.FE_PC_PC e) < 32 ∧ (feLegal w = true ∧ feOp w = 2 ∧ f = (if bit w 26 = true then R.FE_K1_K1 e else R.FE_K0_K0 e)) ∧ k = s.rd f ∧ k < 2 ^ 32 :=
  ⟨(feAt 0x24140000).wr (R.FE_K1_K1 3) 2, 3, 0x24140000, false, R.FE_K1_K1 3, 2, by decide +kernel⟩

set_option Elab.async false in
theorem test_met_wait :
    ∃ (s : State) (e : Fin 32) (fio : BitVec 128) (w p : Nat) (inj : Bool), e.val < s.fes.length ∧ s.feNext e = some (w, inj) ∧ s.rd (R.FE_PC_PC e) < 32 ∧ feLegal w = true ∧ feOp w = 3 ∧ bits w 24 3 = 0 ∧ p = (s.rd (R.FE_WIN_WBASE e) + bits w 18 5) % 128 ∧ (fio.getLsbD p != s.on (R.FIO_CFG_INV_IN p)) = bit w 23 :=
  ⟨feAt 0x38900002, 3, 0x10, 0x38900002, 4, false, by decide +kernel⟩

set_option Elab.async false in
theorem test_met_wait_level :
    ∃ (s : State) (e : Fin 32) (fio : BitVec 128) (w p : Nat) (inj : Bool), e.val < s.fes.length ∧ s.feNext e = some (w, inj) ∧ feLegal w = true ∧ feOp w = 3 ∧ bits w 24 3 = 0 ∧ p = (s.rd (R.FE_WIN_WBASE e) + bits w 18 5) % 128 ∧ (fio.getLsbD p != s.on (R.FIO_CFG_INV_IN p)) ≠ bit w 23 :=
  ⟨feAt 0x38900002, 3, 0, 0x38900002, 4, false, by decide +kernel⟩

set_option Elab.async false in
theorem test_met_wait_time :
    ∃ (s : State) (e : Fin 32) (fio : BitVec 128) (w : Nat) (inj : Bool), e.val < s.fes.length ∧ s.feNext e = some (w, inj) ∧ s.rd (R.FE_PC_PC e) < 32 ∧ feLegal w = true ∧ feOp w = 3 ∧ bits w 24 3 = 2 :=
  ⟨(feAt 0x3A000000).wr (R.FE_TGT_LO_TGT 3) 99, 3, 0, 0x3A000000, false, by decide +kernel⟩

set_option Elab.async false in
theorem test_met_waitEnd :
    ∃ (s : State) (e : Fin 32) (fio : BitVec 128) (w p : Nat) (inj : Bool), e.val < s.fes.length ∧ (s.fe e).stalled = some (w, inj) ∧ s.rd (R.FE_PC_PC e) < 32 ∧ (s.fe e).stepping = false ∧ feOp w = 3 ∧ bits w 24 3 = 0 ∧ p = (s.rd (R.FE_WIN_WBASE e) + bits w 18 5) % 128 ∧ (fio.getLsbD p != s.on (R.FIO_CFG_INV_IN p)) = bit w 23 :=
  ⟨feStalled 0x38900002, 3, 0x10, 0x38900002, 4, false, by decide +kernel⟩

set_option Elab.async false in
theorem test_met_waitEnd_edge :
    ∃ (s : State) (e : Fin 32) (fio : BitVec 128) (w p : Nat) (inj lv : Bool), e.val < s.fes.length ∧ (s.fe e).stalled = some (w, inj) ∧ s.rd (R.FE_PC_PC e) < 32 ∧ (s.fe e).stepping = false ∧ feOp w = 3 ∧ bits w 24 3 = 1 ∧ p = (s.rd (R.FE_WIN_WBASE e) + bits w 18 5) % 128 ∧ lv = (fio.getLsbD p != s.on (R.FIO_CFG_INV_IN p)) :=
  ⟨feStalled 0x39900002, 3, 0x10, 0x39900002, 4, false, true, by decide +kernel⟩

set_option Elab.async false in
theorem test_met_waitEnd_time :
    ∃ (s : State) (e : Fin 32) (fio : BitVec 128) (w : Nat) (inj : Bool), e.val < s.fes.length ∧ (s.fe e).stalled = some (w, inj) ∧ s.rd (R.FE_PC_PC e) < 32 ∧ (s.fe e).stepping = false ∧ feOp w = 3 ∧ bits w 24 3 = 2 ∧ s.reached (s.feTgtVal e) = true :=
  ⟨(feStalled 0x3A000000).wr (R.FE_TGT_LO_TGT 3) 102, 3, 0x10, 0x3A000000, false, by decide +kernel⟩

set_option Elab.async false in
theorem test_met_waitTimeout :
    ∃ (s : State) (e : Fin 32) (w tc : Nat) (inj : Bool), (tc = (if ((s.fe e).began + 2 ^ 48 - s.feTgtVal e) % 2 ^ 48 < 2 ^ 47 then (s.fe e).began + 1 else s.feTgtVal e)) ∧ e.val < s.fes.length ∧ (s.fe e).stalled = some (w, inj) ∧ s.rd (R.FE_PC_PC e) < 32 ∧ (s.fe e).stepping = false ∧ feOp w = 3 ∧ bits w 24 3 ≠ 2 ∧ bit w 11 = true ∧ s.reached (s.feTgtVal e) = true :=
  ⟨(feStalled 0x38900802).wr (R.FE_TGT_LO_TGT 3) 102, 3, 0x38900802, _, false, rfl, by decide +kernel⟩

set_option Elab.async false in
theorem test_met_waitTimeout_not :
    ∃ (s : State) (e : Fin 32) (w : Nat) (inj : Bool), (s.fe e).stalled = some (w, inj) ∧ (feOp w ≠ 3 ∨ bits w 24 3 = 2 ∨ bit w 11 = false ∨ s.reached (s.feTgtVal e) = false) :=
  ⟨feStalled 0x38900002, 3, 0x38900002, false, by decide +kernel⟩

set_option Elab.async false in
theorem test_met_fetchIllegal :
    ∃ (s : State) (e : Fin 32) (w : Nat) (inj : Bool), e.val < s.fes.length ∧ s.feNext e = some (w, inj) ∧ feLegal w = false :=
  ⟨feAt 0xD0000000, 3, 0xD0000000, false, by decide +kernel⟩

set_option Elab.async false in
theorem test_met_fetchParityError :
    ∃ (s : State) (e : Fin 32) (w : Nat), e.val < s.fes.length ∧ s.feNext e = some (w, false) :=
  ⟨feAt 0, 3, 0, by decide +kernel⟩

set_option Elab.async false in
theorem test_met_shin :
    ∃ (s : State) (e : Fin 32) (fio : BitVec 128) (w n v cap : Nat) (inj low : Bool), v = (s.setFio fio).feShinVal e w ∧ cap = s.rd (R.FE_CAP_CAP e) ∧ low = s.on (R.FE_SHAPE_CAP_ORDER e) ∧ e.val < s.fes.length ∧ s.feNext e = some (w, inj) ∧ s.rd (R.FE_PC_PC e) < 32 ∧ feLegal w = true ∧ feOp w = 4 ∧ n = bits w 18 5 + 1 :=
  ⟨((feAt 0x408C8000).wr (R.FE_CRC_CRC_W 3) 7).wr (R.FE_CRC_CRC_POLY 3) 7, 3, 0x50, 0x408C8000, 4, _, _, false, _, rfl, rfl, rfl, by decide +kernel⟩

set_option Elab.async false in
theorem test_met_shout :
    ∃ (s : State) (e : Fin 32) (w n emt : Nat) (inj low : Bool), emt = s.rd (R.FE_EMT_EMT e) ∧ low = s.on (R.FE_SHAPE_EMT_ORDER e) ∧ e.val < s.fes.length ∧ s.feNext e = some (w, inj) ∧ s.rd (R.FE_PC_PC e) < 32 ∧ feLegal w = true ∧ feOp w = 5 ∧ n = bits w 18 5 + 1 ∧ bits w 24 3 = 1 ∧ emt < 2 ^ 32 :=
  ⟨(feAt 0x510C0000).wr (R.FE_EMT_EMT 3) 0xA5000000, 3, 0x510C0000, 4, _, false, _, rfl, rfl, by decide +kernel⟩

set_option Elab.async false in
theorem test_met_shout_pins :
    ∃ (s : State) (e : Fin 32) (w n emt v : Nat) (inj low : Bool), emt = s.rd (R.FE_EMT_EMT e) ∧ (v = (if low = true then emt % 2 ^ n else emt / 2 ^ (32 - n))) ∧ low = s.on (R.FE_SHAPE_EMT_ORDER e) ∧ e.val < s.fes.length ∧ s.feNext e = some (w, inj) ∧ s.rd (R.FE_PC_PC e) < 32 ∧ feLegal w = true ∧ feOp w = 5 ∧ n = bits w 18 5 + 1 ∧ bits w 24 3 = 0 :=
  ⟨(((feAt 0x50048000).wr (R.FE_EMT_EMT 3) 0xC0000000).wr (R.FIO_CFG_OWNED 5) 1).wr (R.FIO_CFG_OWNER 5) 3, 3, 0x50048000, 2, _, _, false, _, rfl, rfl, rfl, by decide +kernel⟩

set_option Elab.async false in
theorem test_met_pushRx :
    ∃ (s : State) (e : Fin 32) (w : Nat) (inj : Bool), e.val < s.fes.length ∧ s.feNext e = some (w, inj) ∧ s.rd (R.FE_PC_PC e) < 32 ∧ (feLegal w = true ∧ isPush 0 w = true ∧ (bit w 25 = false ∨ s.rd (R.FE_SHAPE_CAP_LIM e) + 1 ≤ (s.fe e).capn)) ∧ (s.fe e).rx.length < 8 :=
  ⟨(feAt 0x60000000).wr (R.FE_CAP_CAP 3) 0x77, 3, 0x60000000, false, by decide +kernel⟩

set_option Elab.async false in
theorem test_met_pushRx_full :
    ∃ (s : State) (e : Fin 32) (w : Nat) (inj : Bool), e.val < s.fes.length ∧ s.feNext e = some (w, inj) ∧ s.rd (R.FE_PC_PC e) < 32 ∧ (feLegal w = true ∧ isPush 0 w = true ∧ (bit w 25 = false ∨ s.rd (R.FE_SHAPE_CAP_LIM e) + 1 ≤ (s.fe e).capn)) ∧ 8 ≤ (s.fe e).rx.length :=
  ⟨(feAt 0x60000000).feMod 3 fun x => { x with rx := List.replicate 8 1 }, 3, 0x60000000, false, by decide +kernel⟩

set_option Elab.async false in
theorem test_met_pushDrone :
    ∃ (s : State) (e : Fin 32) (w st : Nat) (inj : Bool), (st = (if feMark w = true then ((s.fe e).nextAt + 2) % 2 ^ 48 else s.feStampVal e)) ∧ e.val < s.fes.length ∧ s.feNext e = some (w, inj) ∧ s.rd (R.FE_PC_PC e) < 32 ∧ (feLegal w = true ∧ isPush 1 w = true ∧ (bit w 25 = false ∨ s.rd (R.FE_SHAPE_CAP_LIM e) + 1 ≤ (s.fe e).capn)) :=
  ⟨((((feAt 0x68800000).wr (R.FE_CAP_CAP 3) 0x77).wr (R.DRN_SRC_KIND 4) 2).wr (R.DRN_SRC_INDEX 4) 3).setDrone 4 { bitsW := 12 }, 3, 0x68800000, _, false, rfl, by decide +kernel⟩

set_option Elab.async false in
theorem test_met_pushPcnt :
    ∃ (s : State) (e : Fin 32) (w : Nat) (inj : Bool), e.val < s.fes.length ∧ s.feNext e = some (w, inj) ∧ s.rd (R.FE_PC_PC e) < 32 ∧ s.rd (R.FE_CAP_CAP e) < 2 ^ 32 ∧ (feLegal w = true ∧ isPush 2 w = true ∧ (bit w 25 = false ∨ s.rd (R.FE_SHAPE_CAP_LIM e) + 1 ≤ (s.fe e).capn)) :=
  ⟨((feAt 0x61000000).wr (R.FE_CAP_CAP 3) 0x77).wr (R.FE_STAT_ENC_ERR 3) 1, 3, 0x61000000, false, by decide +kernel⟩

set_option Elab.async false in
theorem test_met_pull :
    ∃ (s : State) (e : Fin 32) (w v a : Nat) (l : List (Nat × Nat)) (inj : Bool), e.val < s.fes.length ∧ s.feNext e = some (w, inj) ∧ s.rd (R.FE_PC_PC e) < 32 ∧ (feLegal w = true ∧ feOp w = 7 ∧ (bit w 25 = false ∨ s.rd (R.FE_SHAPE_EMT_LIM e) + 1 ≤ (s.fe e).emtn)) ∧ (s.fe e).tx = (v, a) :: l ∧ ((s.fe e).nextAt + 2 ^ 48 - 1 - a) % 2 ^ 48 < 2 ^ 47 ∧ l.length < 8 :=
  ⟨(feAt 0x70000000).feMod 3 fun x => { x with tx := [(5, 90), (6, 91)], emtn := 4 }, 3, 0x70000000, 5, 90, [(6, 91)], false, by decide +kernel⟩

set_option Elab.async false in
theorem test_met_pull_empty :
    ∃ (s : State) (e : Fin 32) (w : Nat) (inj : Bool), e.val < s.fes.length ∧ s.feNext e = some (w, inj) ∧ s.rd (R.FE_PC_PC e) < 32 ∧ (feLegal w = true ∧ feOp w = 7 ∧ (bit w 25 = false ∨ s.rd (R.FE_SHAPE_EMT_LIM e) + 1 ≤ (s.fe e).emtn)) ∧ (s.fe e).tx = [] :=
  ⟨(feAt 0x70000000).feMod 3 fun x => { x with lastPull := 9 }, 3, 0x70000000, false, by decide +kernel⟩

set_option Elab.async false in
theorem test_met_fifoStallEnd :
    ∃ (s : State) (e : Fin 32) (w v a b : Nat) (l : List (Nat × Nat)) (inj : Bool), b = s.feBoundary e a ∧ e.val < s.fes.length ∧ (s.fe e).stalled = some (w, inj) ∧ s.rd (R.FE_PC_PC e) < 32 ∧ (s.fe e).stepping = false ∧ feOp w = 7 ∧ (s.fe e).tx = (v, a) :: l ∧ l.length < 8 ∧ s.reached b = true :=
  ⟨(feStalled 0x7C000000).feMod 3 fun x => { x with tx := [(5, 90)] }, 3, 0x7C000000, 5, 90, _, [], false, rfl, by decide +kernel⟩

set_option Elab.async false in
theorem test_met_fifoStallEnd_push :
    ∃ (s : State) (e : Fin 32) (w b : Nat) (inj : Bool), b = s.feBoundary e (s.fe e).rxRead ∧ e.val < s.fes.length ∧ (s.fe e).stalled = some (w, inj) ∧ s.rd (R.FE_PC_PC e) < 32 ∧ (s.fe e).stepping = false ∧ feOp w = 6 ∧ (s.fe e).rx.length < 8 ∧ s.reached b = true :=
  ⟨(feStalled 0x64000000).feMod 3 fun x => { x with rx := List.replicate 7 1, rxRead := 99 }, 3, 0x64000000, _, false, rfl, by decide +kernel⟩

set_option Elab.async false in
theorem test_met_xfer :
    ∃ (s : State) (e : Fin 32) (w : Nat) (inj : Bool), e.val < s.fes.length ∧ s.feNext e = some (w, inj) ∧ s.rd (R.FE_PC_PC e) < 32 ∧ feLegal w = true ∧ feOp w = 8 ∧ bits w 23 4 = 1 :=
  ⟨(feAt 0x809C0000).wr (R.FE_CAP_CAP 3) 0x12345678, 3, 0x809C0000, false, by decide +kernel⟩

set_option Elab.async false in
theorem test_met_xfer_cap :
    ∃ (s : State) (e : Fin 32) (w : Nat) (inj : Bool), e.val < s.fes.length ∧ s.feNext e = some (w, inj) ∧ s.rd (R.FE_PC_PC e) < 32 ∧ feLegal w = true ∧ feOp w = 8 ∧ bits w 23 4 = 3 :=
  ⟨(feAt 0x81960000).wr (R.FE_K1_K1 3) 0x12345678, 3, 0x81960000, false, by decide +kernel⟩

set_option Elab.async false in
theorem test_met_load :
    ∃ (s : State) (e : Fin 32) (w : Nat) (inj : Bool) (f : Fld), e.val < s.fes.length ∧ s.feNext e = some (w, inj) ∧ s.rd (R.FE_PC_PC e) < 32 ∧ (feLegal w = true ∧ feOp w = 9 ∧ bits w 24 3 < 2 ∧ f = (if bits w 24 3 = 0 then R.FE_K0_K0 e else R.FE_K1_K1 e)) :=
  ⟨feAt 0x91048D01, 3, 0x91048D01, false, R.FE_K1_K1 3, by decide +kernel⟩

set_option Elab.async false in
theorem test_met_load_ph :
    ∃ (s : State) (e : Fin 32) (w : Nat) (inj : Bool), e.val < s.fes.length ∧ s.feNext e = some (w, inj) ∧ s.rd (R.FE_PC_PC e) < 32 ∧ feLegal w = true ∧ feOp w = 9 ∧ bits w 24 3 = 6 :=
  ⟨feAt 0x96048D01, 3, 0x96048D01, false, by decide +kernel⟩

set_option Elab.async false in
theorem test_met_pin :
    ∃ (s : State) (e : Fin 32) (w p : Nat) (inj : Bool) (f : Fld), e.val < s.fes.length ∧ s.feNext e = some (w, inj) ∧ s.rd (R.FE_PC_PC e) < 32 ∧ (feLegal w = true ∧ feOp w = 0xA ∧ p = (s.rd (R.FE_WIN_WBASE e) + bits w 18 5) % 128 ∧ f = (if bit w 24 = true then R.FIO_CFG_OE p else R.FIO_CFG_OUT p)) ∧ s.on (R.FIO_CFG_OWNED p) = true ∧ s.rd (R.FIO_CFG_OWNER p) = e.val ∧ s.inSafe = false ∧ s.on R.SF_STAT_FORCED = false :=
  ⟨(((feAt 0xA4100000).wr R.SF_STAT_SAFE 0).wr (R.FIO_CFG_OWNED 4) 1).wr (R.FIO_CFG_OWNER 4) 3, 3, 0xA4100000, 4, false, R.FIO_CFG_OUT 4, by decide +kernel⟩

set_option Elab.async false in
theorem test_met_pin_other :
    ∃ (s : State) (e : Fin 32) (w p : Nat) (inj : Bool), e.val < s.fes.length ∧ s.feNext e = some (w, inj) ∧ s.rd (R.FE_PC_PC e) < 32 ∧ feLegal w = true ∧ feOp w = 0xA ∧ p = (s.rd (R.FE_WIN_WBASE e) + bits w 18 5) % 128 ∧ (s.on (R.FIO_CFG_OWNED p) = false ∨ s.rd (R.FIO_CFG_OWNER p) ≠ e.val) :=
  ⟨feAt 0xA4100000, 3, 0xA4100000, 4, false, by decide +kernel⟩

set_option Elab.async false in
theorem test_met_tgt :
    ∃ (s : State) (e : Fin 32) (w base : Nat) (inj : Bool), (base = (if bits w 25 2 = 0 then (s.fe e).nextAt else if bits w 25 2 = 1 then s.feStampVal e else s.feTgtVal e)) ∧ e.val < s.fes.length ∧ s.feNext e = some (w, inj) ∧ s.rd (R.FE_PC_PC e) < 32 ∧ feLegal w = true ∧ feOp w = 0xB :=
  ⟨(feAt 0xB4001000).wr (R.FE_TGT_LO_TGT 3) 0xFFFFFFFF, 3, 0xB4001000, _, false, rfl, by decide +kernel⟩

set_option Elab.async false in
theorem test_met_sigErr :
    ∃ (s : State) (e : Fin 32) (w : Nat) (inj : Bool), e.val < s.fes.length ∧ s.feNext e = some (w, inj) ∧ s.rd (R.FE_PC_PC e) < 32 ∧ feLegal w = true ∧ isSig 0 w = true :=
  ⟨feAt 0xC0000000, 3, 0xC0000000, false, by decide +kernel⟩

set_option Elab.async false in
theorem test_met_sigIrq :
    ∃ (s : State) (e : Fin 32) (w : Nat) (inj : Bool), e.val < s.fes.length ∧ s.feNext e = some (w, inj) ∧ s.rd (R.FE_PC_PC e) < 32 ∧ feLegal w = true ∧ isSig 1 w = true :=
  ⟨feAt 0xC1000000, 3, 0xC1000000, false, by decide +kernel⟩

set_option Elab.async false in
theorem test_met_sigToken :
    ∃ (s : State) (e : Fin 32) (w : Nat) (inj : Bool), e.val < s.fes.length ∧ s.feNext e = some (w, inj) ∧ s.rd (R.FE_PC_PC e) < 32 ∧ feLegal w = true ∧ isSig 2 w = true :=
  ⟨((feAt 0xC2000000).wr (R.FE_TOK_EN 3) 1).wr (R.FE_TOK_COUNTER 3) 5, 3, 0xC2000000, false, by decide +kernel⟩

set_option Elab.async false in
theorem test_met_sigHalt :
    ∃ (s : State) (e : Fin 32) (w : Nat) (inj : Bool), e.val < s.fes.length ∧ s.feNext e = some (w, inj) ∧ s.rd (R.FE_PC_PC e) < 32 ∧ feLegal w = true ∧ isSig 3 w = true :=
  ⟨feAt 0xC3000000, 3, 0xC3000000, false, by decide +kernel⟩

set_option Elab.async false in
theorem test_met_sigClrstale :
    ∃ (s : State) (e : Fin 32) (w : Nat) (inj : Bool), e.val < s.fes.length ∧ s.feNext e = some (w, inj) ∧ s.rd (R.FE_PC_PC e) < 32 ∧ feLegal w = true ∧ isSig 4 w = true :=
  ⟨(feAt 0xC4000000).wr (R.FE_STAT_STALE 3) 1, 3, 0xC4000000, false, by decide +kernel⟩

set_option Elab.async false in
theorem test_met_sigCrcrst :
    ∃ (s : State) (e : Fin 32) (w : Nat) (inj : Bool), e.val < s.fes.length ∧ s.feNext e = some (w, inj) ∧ s.rd (R.FE_PC_PC e) < 32 ∧ feLegal w = true ∧ isSig 5 w = true :=
  ⟨(feAt 0xC5000000).wr (R.FE_CRC2_CRC_INIT 3) 0x1D0F, 3, 0xC5000000, false, by decide +kernel⟩

set_option Elab.async false in
theorem test_met_feEn :
    ∃ (s s1 : State) (q : Who) (e : Fin 32) (v : BitVec 32) (l : List Fld), s1 = s.feFields e v.toNat ∧ l = [R.FE_STAT_STALL e, R.FE_STAT_CAUSE e, R.FE_STAT_STALE e, R.FE_STAT_ENC_ERR e, R.FE_STAT_ERR_SEEN e, R.FE_STAT_IRQ e, R.FE_STAT_TMO e, R.FE_STAT_INJ_PEND e, R.FE_STAT_INJ_OVF e, R.FE_STAT_TX_OVF e, R.FE_STAT_RX_UF e, R.FE_STAT_TX_LVL e, R.FE_STAT_RX_LVL e, R.FE_STAT_TLATE e, R.FE_PC_PC e, R.FE_K0_K0 e, R.FE_K1_K1 e, R.FE_CAP_CAP e, R.FE_EMT_EMT e, R.FE_PH_PH e, R.FE_STAMP_LO_STAMP e, R.FE_STAMP_HI_STAMP e, R.FE_TGT_LO_TGT e, R.FE_TGT_HI_TGT e, R.FE_PCNT_PCNT e] ∧ s.takes q (0x180000 + 0x200 * e) v.toNat = true ∧ e.val < s.fes.length ∧ s.feState e = 0 ∧ bit v.toNat 0 = true :=
  ⟨((feAt 0).wr (R.FE_STAT_STATE 3) 0).wr (R.FE_K0_K0 3) 7, _, host, 3, 9, _, rfl, rfl, by decide +kernel⟩

set_option Elab.async false in
theorem test_met_feEn_off :
    ∃ (s s1 : State) (q : Who) (e : Fin 32) (v : BitVec 32), s1 = s.feFields e v.toNat ∧ s.takes q (0x180000 + 0x200 * e) v.toNat = true ∧ e.val < s.fes.length ∧ s.feState e ≠ 0 ∧ bits v.toNat 0 3 = 0 :=
  ⟨feStalled 0x38900002, _, host, 3, 8, rfl, by decide +kernel⟩

set_option Elab.async false in
theorem test_met_feHalt :
    ∃ (s s1 : State) (q : Who) (e : Fin 32) (v : BitVec 32), s1 = s.feFields e v.toNat ∧ s.takes q (0x180000 + 0x200 * e) (v ||| 2).toNat = true ∧ e.val < s.fes.length ∧ s.feState e = 2 ∧ bit v.toNat 0 = true :=
  ⟨feStalled 0x38900002, _, host, 3, 1, rfl, by decide +kernel⟩

set_option Elab.async false in
theorem test_met_feStep :
    ∃ (s s1 : State) (q : Who) (e : Fin 32) (v : BitVec 32) (fio : BitVec 128) (w : Nat), s1 = s.feFields e v.toNat ∧ State.takes (s.setFio fio) q (0x180000 + 0x200 * e) (v ||| 4).toNat = true ∧ e.val < s.fes.length ∧ s.feState e = 1 ∧ bit v.toNat 0 = true ∧ (s.fe e).stalled = none ∧ s.rd (R.FE_PC_PC e) < 32 ∧ w = s.feImem e (s.rd (R.FE_PC_PC e)) ∧ feLegal w = true ∧ feOp w = 0 :=
  ⟨(feAt 0x08000003).wr (R.FE_STAT_STATE 3) 1, _, host, 3, 1, 0, 0x08000003, rfl, by decide +kernel⟩

set_option Elab.async false in
theorem test_met_feStep_illegal :
    ∃ (s s1 : State) (q : Who) (e : Fin 32) (v : BitVec 32) (fio : BitVec 128), s1 = s.feFields e v.toNat ∧ State.takes (s.setFio fio) q (0x180000 + 0x200 * e) (v ||| 4).toNat = true ∧ e.val < s.fes.length ∧ s.feState e = 1 ∧ bit v.toNat 0 = true ∧ (s.fe e).stalled = none ∧ feLegal (s.feImem e (s.rd (R.FE_PC_PC e))) = false :=
  ⟨(feAt 0xD0000000).wr (R.FE_STAT_STATE 3) 1, _, host, 3, 1, 0, rfl, by decide +kernel⟩

set_option Elab.async false in
theorem test_met_fifeGo :
    ∃ (s : State) (q : Who) (v : BitVec 32), s.takes q 0x184000 v.toNat = true ∧ 32 ≤ s.fes.length :=
  ⟨((feAt 0).wr (R.FE_STAT_STATE 4) 1).wr (R.FE_CLK_DIV 4) 1, host, 0x38, by decide +kernel⟩

set_option Elab.async false in
theorem test_met_fifeClkrst :
    ∃ (s : State) (q : Who) (v : BitVec 32), s.takes q 0x184004 v.toNat = true ∧ 32 ≤ s.fes.length :=
  ⟨(feAt 0).feMod 3 fun x => { x with nextAt := 117, div := 4 }, host, 0x18, by decide +kernel⟩

set_option Elab.async false in
theorem test_met_feInj :
    ∃ (s : State) (q : Who) (e : Fin 32) (v : BitVec 32) (fio : BitVec 128), State.takes (s.setFio fio) q (0x180028 + 0x200 * e) v.toNat = true ∧ e.val < s.fes.length ∧ s.feState e = 2 ∧ (s.fe e).inj = none ∧ s.on (R.FE_CTRL_INJ_FORCE e) = false :=
  ⟨feAt 0, host, 3, 0xC1000000, 0, by decide +kernel⟩

set_option Elab.async false in
theorem test_met_feInj_halted :
    ∃ (s : State) (q : Who) (e : Fin 32) (v : BitVec 32) (fio : BitVec 128) (w : Nat), State.takes (s.setFio fio) q (0x180028 + 0x200 * e) v.toNat = true ∧ e.val < s.fes.length ∧ s.feState e = 1 ∧ (s.fe e).inj = none ∧ (s.fe e).stalled = none ∧ (s.fe e).stepping = false ∧ w = v.toNat ∧ feLegal w = true ∧ isSig 1 w = true :=
  ⟨(feAt 0).wr (R.FE_STAT_STATE 3) 1, host, 3, 0xC9000001, 0, 0xC9000001, by decide +kernel⟩

set_option Elab.async false in
theorem test_met_feInj_ovf :
    ∃ (s : State) (q : Who) (e : Fin 32) (v : BitVec 32) (fio : BitVec 128), State.takes (s.setFio fio) q (0x180028 + 0x200 * e) v.toNat = true ∧ (s.fe e).inj ≠ none :=
  ⟨(feAt 0).feMod 3 fun x => { x with inj := some 0 }, host, 3, 0xC1000000, 0, by decide +kernel⟩

set_option Elab.async false in
theorem test_met_feTx :
    ∃ (s : State) (q : Who) (e : Fin 32) (v : BitVec 32), s.takes q (0x180020 + 0x200 * e) v.toNat = true ∧ e.val < s.fes.length ∧ (s.fe e).tx.length < 8 :=
  ⟨feAt 0, host, 3, 0xC1000000, by decide +kernel⟩

set_option Elab.async false in
theorem test_met_feTx_full :
    ∃ (s : State) (q : Who) (e : Fin 32) (v : BitVec 32), s.takes q (0x180020 + 0x200 * e) v.toNat = true ∧ 8 ≤ (s.fe e).tx.length :=
  ⟨(feAt 0).feMod 3 fun x => { x with tx := List.replicate 8 (1, 2) }, host, 3, 0xC1000000, by decide +kernel⟩

set_option Elab.async false in
theorem test_met_feRxRead :
    ∃ (s : State) (q : Who) (e : Fin 32) (a : Nat) (l : List Nat), s.gives q (0x180024 + 0x200 * e) = true ∧ e.val < s.fes.length ∧ (s.fe e).rx = a :: l ∧ a < 2 ^ 32 ∧ l.length < 8 :=
  ⟨(feAt 0).feMod 3 fun x => { x with rx := List.replicate 8 5 }, host, 3, 5, List.replicate 7 5, by decide +kernel⟩

set_option Elab.async false in
theorem test_met_feRxRead_empty :
    ∃ (s : State) (q : Who) (e : Fin 32), s.gives q (0x180024 + 0x200 * e) = true ∧ (s.fe e).rx = [] :=
  ⟨feAt 0, host, 3, by decide +kernel⟩

set_option Elab.async false in
theorem test_met_instructionMemoryWrite :
    ∃ (s : State) (q : Who) (e i : Fin 32) (v : BitVec 32), s.takes q (0x180100 + 0x200 * e + 4 * i) v.toNat = true ∧ e.val < s.fes.length :=
  ⟨feAt 0, host, 3, 6, 0xC1000000, by decide +kernel⟩

set_option Elab.async false in
theorem test_met_fifeNowRead :
    ∃ (s : State) (q : Who), s.gives q 0x184008 = true :=
  ⟨{ up with now := 0x123456789A }, host, by decide +kernel⟩

end Sys2Proof.Tests
end

section
/-! PROOFS. Token counters, credit pools and iterations that an engine fails
(R91, R95, R98 of spec/03_tables_tokens_threads.md). -/

namespace Sys2Proof.Machine

/-! ### Status bits and held counts -/

theorem State.flag_false (s : State) (f : Fld) : s.flag false f = s := rfl

theorem State.flag_true (s : State) (f : Fld) : s.flag true f = s.wr f 1 := rfl

theorem State.on_flag_true (s : State) {f : Fld} (hw : f.w = 1) : (s.flag true f).on f = true := by
  rw [State.flag_true, State.on_wr_same, hw]; rfl

theorem State.on_flag_ne (s : State) (c : Bool) {f g : Fld} (h : g.key ≠ f.key) : (s.flag c f).on g = s.on g := by
  cases c with
  | false => rw [State.flag_false]
  | true => rw [State.flag_true, State.on_wr_ne s 1 h]

theorem clampI_eq_min_max {lo hi : Int} (h : lo ≤ hi) (v : Int) : clampI lo hi v = min hi (max lo v) := by
  unfold clampI; split_ifs <;> omega

/-! ### Token counters (R95) -/

section TokenCounter
variable (s : State) (u x k : Nat)

/-- What a firmware write leaves beside the clearing of W1C bits: UNF and OVF as they take effect, the held count (R95). -/
theorem writeTokCnt_eq (word c p : Nat) : ∃ s0 : State, s.writeTokCnt u x k word c p =
    ((s0.flag ((bits word 0 16 : Int) - c + p < 0) (R.TOKCNT_UNF (win u) x k)).flag
      (65535 < (bits word 0 16 : Int) - c + p) (R.TOKCNT_OVF (win u) x k)).wr (R.TOKCNT_COUNT (win u) x k)
        (clampI 0 65535 ((bits word 0 16 : Int) - c + p)).toNat := ⟨_, rfl⟩

theorem writeTokCnt_count (word c p : Nat) : ((s.writeTokCnt u x k word c p).rd (R.TOKCNT_COUNT (win u) x k) : Int) =
    min 65535 (max 0 ((bits word 0 16 : Int) - c + p)) := by
  obtain ⟨s0, e⟩ := writeTokCnt_eq s u x k word c p
  rw [e, State.rd_wr_same, clampI_eq_min_max (by decide)]
  simp only [R.TOKCNT_COUNT]
  omega

theorem writeTokCnt_ovf {word c p : Nat} (h : 65535 < (bits word 0 16 : Int) - c + p) :
    (s.writeTokCnt u x k word c p).on (R.TOKCNT_OVF (win u) x k) = true := by
  obtain ⟨s0, e⟩ := writeTokCnt_eq s u x k word c p
  rw [e, State.on_wr_ne _ _ (by simp only [R.TOKCNT_OVF, R.TOKCNT_COUNT]; omega), decide_eq_true h, State.on_flag_true _ rfl]

theorem writeTokCnt_unf {word c p : Nat} (h : (bits word 0 16 : Int) - c + p < 0) :
    (s.writeTokCnt u x k word c p).on (R.TOKCNT_UNF (win u) x k) = true := by
  obtain ⟨s0, e⟩ := writeTokCnt_eq s u x k word c p
  rw [e, State.on_wr_ne _ _ (by simp only [R.TOKCNT_UNF, R.TOKCNT_COUNT]; omega),
    State.on_flag_ne _ _ (by simp only [R.TOKCNT_UNF, R.TOKCNT_OVF]; omega), decide_eq_true h, State.on_flag_true _ rfl]

theorem writeTokCnt_count_zero {word c p : Nat} (h : (bits word 0 16 : Int) - c + p < 0) :
    (s.writeTokCnt u x k word c p).rd (R.TOKCNT_COUNT (win u) x k) = 0 := by
  have hc := writeTokCnt_count s u x k word c p
  omega

theorem addTokens_ovf {p : Nat} (h : 65535 < s.rd (R.TOKCNT_COUNT (win u) x k) + p) :
    (s.addTokens u x k p).on (R.TOKCNT_OVF (win u) x k) = true := by
  unfold State.addTokens
  rw [State.on_wr_ne _ _ (by simp only [R.TOKCNT_OVF, R.TOKCNT_COUNT]; omega), decide_eq_true h, State.on_flag_true _ rfl]

end TokenCounter

/-- A firing takes from a counter of its context what the row consumes of it (R95). -/
theorem fire_tokcnt (s : State) (u : Nat) {x k : Nat} (hx : x < 16) (hk : k < 16) (h : s.rd (R.TOKCNT_COUNT (win u) x k) < 65536) :
    (s.fire u x).rd (R.TOKCNT_COUNT (win u) x k) = (s.consumes u x (s.ctxRow u x) (s.rd (R.CTX_PC_ITER (win u) x))).foldl
      (fun a y => if y.1 = k then a - y.2 else a) (s.rd (R.TOKCNT_COUNT (win u) x k)) := by
  obtain ⟨-, -, -, -, -, -, htok, -⟩ := fire_eq s u x hx
  exact htok k hk h

/-- Settles O11: a write holds w - c + p between 0 and 65,535, arrivals stop at 65,535, a firing takes what its row consumes. -/
theorem tokenCounterUpdate : Obligations.TokenCounterUpdate := by
  unfold Obligations.TokenCounterUpdate
  refine ⟨fun s u x k word c p => ⟨?count, ?ovf, fun h => ⟨?unf, ?zero⟩⟩, fun s u x k p => ⟨?arrive, ?full⟩, fun s u x k h => ?fires⟩
  case count => exact writeTokCnt_count s u x k word c p
  case ovf => exact writeTokCnt_ovf s u x k
  case unf => exact writeTokCnt_unf s u x k h
  case zero => exact writeTokCnt_count_zero s u x k h
  case arrive => exact (addTokens_count s u x k p).1
  case full => exact addTokens_ovf s u x k
  case fires => exact fire_tokcnt s u x.isLt k.isLt h

/-! ### Credit pools (R98) -/

section Pool
variable (s : State) (u p : Nat) {v : Int}

theorem setPool_ovf (h : (s.rd (R.POOL_INIT_INIT (win u) p) : Int) < v) : (s.setPool u p v).on (R.SEQ_STAT_CREDIT_OVF (win u)) = true := by
  unfold State.setPool
  rw [State.on_wr_ne _ _ (by simp only [R.SEQ_STAT_CREDIT_OVF, R.POOL_CNT_COUNT]; omega),
    State.on_flag_ne _ _ (by simp only [R.SEQ_STAT_CREDIT_OVF, R.SEQ_STAT_CREDIT_UNF]; omega), decide_eq_true h, State.on_flag_true _ rfl]

theorem setPool_unf (h : v < 0) : (s.setPool u p v).on (R.SEQ_STAT_CREDIT_UNF (win u)) = true := by
  unfold State.setPool
  rw [State.on_wr_ne _ _ (by simp only [R.SEQ_STAT_CREDIT_UNF, R.POOL_CNT_COUNT]; omega), decide_eq_true h, State.on_flag_true _ rfl]

end Pool

/-- POOL_CNT_WRITE that the register space takes: credits taken and returned apply to the written value (R98). -/
theorem exec_poolCntWrite_takes {s : State} {w : Who} {u : Fin 128} {b : Nat} {p : Fin 32} {v : BitVec 32} (t r : BitVec 16)
    (hb : windowOf u = some b) (h : s.takes w (b + (0xA00 + 8 * p)) v.toNat = true) :
    exec (.poolCntWrite w u p v t r) s = .next ((s.setPool u p ((bits v.toNat 0 16 : Int) - t.toNat + r.toNat)).answers .ok 0 []) :=
  congrArg Host.Outcome.next (writeWinAs_takes hb _ h)

/-- A firing takes from a pool the credits of its row (R98). -/
theorem fire_pool (s : State) (u : Nat) {x k : Nat} (hx : x < 16) (hk : k < 32) (h : s.rd (R.POOL_CNT_COUNT (win u) k) < 65536) :
    (s.fire u x).rd (R.POOL_CNT_COUNT (win u) k) =
      (rowCreds (s.ctxRow u x)).foldl (fun a y => if y.1 = k then a - y.2 else a) (s.rd (R.POOL_CNT_COUNT (win u) k)) := by
  obtain ⟨-, -, -, -, -, -, -, hpool⟩ := fire_eq s u x hx
  exact hpool k hk h

/-- Settles O12: every update of a pool goes through `setPool`, which holds the value between 0 and POOL_INIT. -/
theorem creditPoolUpdate : Obligations.CreditPoolUpdate := by
  unfold Obligations.CreditPoolUpdate
  refine ⟨fun s u p v hi => ⟨?count, ?ovf, ?unf⟩, fun s u p n => ?returned, fun s w u b p v t r hb h => ?write, fun s u x k h => ?fires⟩
  case count => rw [(setPool_count s u p v hi).1, clampI_eq_min_max (by omega)]
  case ovf => exact setPool_ovf s u p
  case unf => exact setPool_unf s u p
  case returned => rw [State.addCredits]
  case write => exact exec_poolCntWrite_takes t r hb h
  case fires => exact fire_pool s u x.isLt k.isLt h

/-! ### An iteration that its engine fails (R91) -/

/-- ITERATION_COMPLETE of an iteration in execution whose engine has reported (R90). -/
theorem exec_iterationComplete_reported {s : State} {u : Fin 128} {c : Fin 16} {st : Status} {oc : Nat} (he : (s.ctx u c).exec = true)
    (hr : (s.ctx u c).result = some (st, oc)) : exec (.iterationComplete u c) s = .next (s.complete u c st oc) := by
  change execIterationComplete u c s = _
  unfold execIterationComplete
  rw [he, hr]

/-- A failed iteration: the credits go back, no post is sent, the context is in ERROR with ENGINE_FAULT (R91). -/
theorem complete_engineFault {s : State} {u c : Nat} {st : Status} (oc : Nat) (h : st ≠ .ok) : s.complete u c st oc =
    (s.returnAll u c (rowClass (s.ctx u c).row) (s.ctx u c).consumed).ctxError u c 7 (s.rd (R.CTX_PC_PC (win u) c))
      (s.rd (R.CTX_PC_ITER (win u) c)) (statusCode st) := by
  unfold State.complete
  exact if_pos h

/-- Entering ERROR sends no message. -/
theorem ctxError_msgs (s : State) (u code row iter status : Nat) {c : Nat} (hc : c < 16) :
    (s.ctxError u c code row iter status).msgs = s.msgs := by
  obtain ⟨-, -, -, e⟩ := ctxError_eq s u c code row iter status hc
  rw [e]

/-- Settles O10: the failed iteration is its credit returns followed by ERROR, which sends nothing. -/
theorem engineFaultKeepsCreditsAndPostsNothing : Obligations.EngineFaultKeepsCreditsAndPostsNothing := by
  unfold Obligations.EngineFaultKeepsCreditsAndPostsNothing
  intro s u c st oc hexec hres hst
  refine ⟨_, exec_iterationComplete_reported hexec hres, ?_⟩
  rw [complete_engineFault oc hst]
  obtain ⟨hstate, hcode, -, -⟩ := ctxError_eq (s.returnAll u c (rowClass (s.ctx u c).row) (s.ctx u c).consumed) u c 7
    (s.rd (R.CTX_PC_PC (win u) c)) (s.rd (R.CTX_PC_ITER (win u) c)) (statusCode st) c.isLt
  exact ⟨ctxError_msgs _ _ _ _ _ _ c.isLt, hstate, hcode⟩

end Sys2Proof.Machine
end

section
/-! PROOFS. What every command keeps, whatever it does: the queue, the canonical forms, the numbers of copies, the locked
firewall targets; and the memory of the commands that store nothing. -/

namespace Sys2Proof.Machine

/-! ### Every command keeps what `Keeps` watches -/

/-- A command that may store promises nothing about the memory. -/
theorem Keeps.ofStoring {lk : Prop} {c : Instr} {s t : State} (h : Keeps lk False s t) (hc : Instr.storesNothing c = false) :
    Keeps lk (Instr.storesNothing c = true) s t :=
  h.weaken id fun hs => Bool.false_ne_true (hc ▸ hs)

/-- Every command keeps what `Keeps` watches: the firewall locks unless it is PORST_N_ASSERT, the memory if it stores nothing. -/
theorem exec_keeps {s t : State} : ∀ c : Instr, exec c s = .next t → Keeps (c ≠ .porstNAssert) (Instr.storesNothing c = true) s t
  | .registerWrite .., h => .ofStoring (execRegisterWrite_keeps .rfl _ _ _ _ h) rfl
  | .setupLock .., h => .ofStoring (execSetupLock_keeps .rfl _ h) rfl
  | .islLock .., h => .ofStoring (execIslLock_keeps .rfl _ h) rfl
  | .porstNAssert, h => (execPorstNAssert_keeps .rfl h).weaken (fun hc => hc rfl) Bool.false_ne_true
  | .porstNRelease .., h => execPorstNRelease_keeps .rfl _ h
  | .sysrstNAssert, h => execSysrstNAssert_keeps .rfl h
  | .sysrstNRelease, h => execSysrstNRelease_keeps .rfl h
  | .referenceAcceptance .., h => execReferenceAcceptance_keeps .rfl _ _ _ _ h
  | .pllLockLimit .., h => execPllLockLimit_keeps .rfl _ _ _ _ h
  | .dividerAlignment, h => execDividerAlignment_keeps .rfl h
  | .fuseReadout, h => execFuseReadout_keeps .rfl h
  | .initComplete .., h => .ofStoring (execInitComplete_keeps .rfl _ h) rfl
  | .imageLoad .., h => .ofStoring (execImageLoad_keeps .rfl _ h) rfl
  | .imageVerify, h => execImageVerify_keeps .rfl h
  | .islandSramZeroed .., h => .ofStoring (execIslandSramZeroed_keeps .rfl _ h) rfl
  | .islandSegmentCopy, h => .ofStoring (execIslandSegmentCopy_keeps .rfl h) rfl
  | .islandFirmwareStart, h => execIslandFirmwareStart_keeps .rfl h
  | .bootData .., h => .ofStoring (execBootData_keeps .rfl _ _ h) rfl
  | .hostGo .., h => .ofStoring (execHostGo_keeps .rfl _ h) rfl
  | .mgmtGo .., h => .ofStoring (execMgmtGo_keeps .rfl _ h) rfl
  | .hostReady .., h => .ofStoring (execHostReady_keeps .rfl _ h) rfl
  | .dbgUnlock .., h => .ofStoring (execDbgUnlock_keeps .rfl _ h) rfl
  | .pcieLinkTraining, h => execPcieLinkTraining_keeps .rfl h
  | .bankSupplyLoss .., h => execBankSupplyLoss_keeps .rfl _ h
  | .bankSupplyReturn .., h => execBankSupplyReturn_keeps .rfl _ h
  | .grantWindowStart .., h => execGrantWindowStart_keeps .rfl _ h
  | .rowEligible .., h => execRowEligible_keeps .rfl _ _ h
  | .grantDecision, h => execGrantDecision_keeps .rfl h
  | .iterationComplete .., h => execIterationComplete_keeps .rfl _ _ h
  | .postAnswer .., h => execPostAnswer_keeps .rfl _ h
  | .tokenArrival .., h => execTokenArrival_keeps .rfl _ h
  | .creditArrival .., h => execCreditArrival_keeps .rfl _ h
  | .tokcntWrite .., h => execTokcntWrite_keeps .rfl _ _ _ _ _ _ _ h
  | .poolCntWrite .., h => execPoolCntWrite_keeps .rfl _ _ _ _ _ _ h
  | .toktake .., h => .ofStoring (execToktake_keeps .rfl _ _ _ _ _ h) rfl
  | .ctxStart .., h => .ofStoring (execCtxStart_keeps .rfl _ _ _ _ h) rfl
  | .ctxHalt .., h => .ofStoring (execCtxHalt_keeps .rfl _ _ _ _ h) rfl
  | .ctxStep .., h => .ofStoring (execCtxStep_keeps .rfl _ _ _ _ h) rfl
  | .ctxClear .., h => .ofStoring (execCtxClear_keeps .rfl _ _ _ _ h) rfl
  | .ctxPcWrite .., h => .ofStoring (execCtxPcWrite_keeps .rfl _ _ _ _ h) rfl
  | .rowCommit .., h => .ofStoring (execRowCommit_keeps .rfl _ _ _ _ h) rfl
  | .ctxStall .., h => execCtxStall_keeps .rfl _ _ h
  | .seqErrRead .., h => execSeqErrRead_keeps .rfl _ _ h
  | .sync .., h => execSync_keeps .rfl _ _ h
  | .memoryRead .., h => execMemoryRead_keeps .rfl _ _ _ _ _ _ h
  | .memoryWrite .., h => .ofStoring (execMemoryWrite_keeps .rfl _ _ _ _ _ h) rfl
  | .writeAcknowledgement .., h => execWriteAcknowledgement_keeps .rfl _ h
  | .zeroLengthReadComplete .., h => execZeroLengthReadComplete_keeps .rfl _ h
  | .eccWriteBack .., h => execEccWriteBack_keeps .rfl _ h
  | .scrubRead .., h => execScrubRead_keeps .rfl _ h
  | .amo .., h => .ofStoring (execAmo_keeps .rfl _ _ _ _ _ h) rfl
  | .memZeroGo .., h => .ofStoring (execMemZeroGo_keeps .rfl _ _ h) rfl
  | .zeroingDone, h => .ofStoring (execZeroingDone_keeps .rfl h) rfl
  | .memCntClr .., h => .ofStoring (execMemCntClr_keeps .rfl _ _ h) rfl
  | .copy .., h => .ofStoring (execCopy_keeps .rfl _ _ _ h) rfl
  | .fill .., h => .ofStoring (execFill_keeps .rfl _ _ _ h) rfl
  | .mma .., h => .ofStoring (execMma_keeps .rfl _ _ h) rfl
  | .add .., h => .ofStoring (execAdd_keeps .rfl _ _ h) rfl
  | .sub .., h => .ofStoring (execSub_keeps .rfl _ _ h) rfl
  | .mul .., h => .ofStoring (execMul_keeps .rfl _ _ h) rfl
  | .fma .., h => .ofStoring (execFma_keeps .rfl _ _ h) rfl
  | .max .., h => .ofStoring (execMax_keeps .rfl _ _ h) rfl
  | .min .., h => .ofStoring (execMin_keeps .rfl _ _ h) rfl
  | .abs .., h => .ofStoring (execAbs_keeps .rfl _ _ h) rfl
  | .neg .., h => .ofStoring (execNeg_keeps .rfl _ _ h) rfl
  | .cvt .., h => .ofStoring (execCvt_keeps .rfl _ _ h) rfl
  | .requant .., h => .ofStoring (execRequant_keeps .rfl _ _ h) rfl
  | .cmpgt .., h => .ofStoring (execCmpgt_keeps .rfl _ _ h) rfl
  | .cmpeq .., h => .ofStoring (execCmpeq_keeps .rfl _ _ h) rfl
  | .select .., h => .ofStoring (execSelect_keeps .rfl _ _ h) rfl
  | .recip .., h => .ofStoring (execRecip_keeps .rfl _ _ h) rfl
  | .rsqrt .., h => .ofStoring (execRsqrt_keeps .rfl _ _ h) rfl
  | .exp2 .., h => .ofStoring (execExp2_keeps .rfl _ _ h) rfl
  | .log2 .., h => .ofStoring (execLog2_keeps .rfl _ _ h) rfl
  | .rsum .., h => .ofStoring (execRsum_keeps .rfl _ _ h) rfl
  | .rmax .., h => .ofStoring (execRmax_keeps .rfl _ _ h) rfl
  | .shift .., h => .ofStoring (execShift_keeps .rfl _ _ h) rfl
  | .and .., h => .ofStoring (execAnd_keeps .rfl _ _ h) rfl
  | .or .., h => .ofStoring (execOr_keeps .rfl _ _ h) rfl
  | .xor .., h => .ofStoring (execXor_keeps .rfl _ _ h) rfl
  | .tileCntClr .., h => .ofStoring (execTileCntClr_keeps .rfl _ _ _ h) rfl
  | .topk .., h => .ofStoring (execTopk_keeps .rfl _ _ h) rfl
  | .merge .., h => .ofStoring (execMerge_keeps .rfl _ _ h) rfl
  | .argidx .., h => .ofStoring (execArgidx_keeps .rfl _ _ h) rfl
  | .selCntClr .., h => .ofStoring (execSelCntClr_keeps .rfl _ _ _ h) rfl
  | .selQmax .., h => execSelQmax_keeps .rfl _ _ h
  | .selQtopk .., h => .ofStoring (execSelQtopk_keeps .rfl _ _ h) rfl
  | .reedTest .., h => execReedTest_keeps .rfl _ _ _ h
  | .reedRdest .., h => execReedRdest_keeps .rfl _ _ _ h
  | .reedWput .., h => .ofStoring (execReedWput_keeps .rfl _ _ _ h) rfl
  | .reedFallbk .., h => execReedFallbk_keeps .rfl _ _ h
  | .tokPost .., h => execTokPost_keeps .rfl _ _ h
  | .portSquash .., h => execPortSquash_keeps .rfl _ _ _ h
  | .eval .., h => execEval_keeps .rfl _ _ h
  | .seal .., h => execSeal_keeps .rfl _ _ h
  | .swap .., h => execSwap_keeps .rfl _ _ h
  | .free .., h => execFree_keeps .rfl _ _ h
  | .reedInstanceEnable .., h => .ofStoring (execReedInstanceEnable_keeps .rfl _ _ _ h) rfl
  | .swapNow .., h => .ofStoring (execSwapNow_keeps .rfl _ _ _ h) rfl
  | .reedApprove .., h => .ofStoring (execReedApprove_keeps .rfl _ _ _ h) rfl
  | .run .., h => execRun_keeps .rfl _ _ h
  | .slotStart .., h => .ofStoring (execSlotStart_keeps .rfl _ h) rfl
  | .slotPublish .., h => .ofStoring (execSlotPublish_keeps .rfl _ _ h) rfl
  | .cwqEnqueue .., h => .ofStoring (execCwqEnqueue_keeps .rfl _ _ h) rfl
  | .cwqFlush .., h => .ofStoring (execCwqFlush_keeps .rfl _ _ h) rfl
  | .chnSlotEnable .., h => .ofStoring (execChnSlotEnable_keeps .rfl _ _ _ h) rfl
  | .laneEnable .., h => .ofStoring (execLaneEnable_keeps .rfl _ _ h) rfl
  | .laneListWrite .., h => .ofStoring (execLaneListWrite_keeps .rfl _ _ _ _ h) rfl
  | .chnCntClr .., h => .ofStoring (execChnCntClr_keeps .rfl _ _ h) rfl
  | .setpointUpdate .., h => execSetpointUpdate_keeps .rfl _ h
  | .spEnable .., h => .ofStoring (execSpEnable_keeps .rfl _ _ _ h) rfl
  | .spHost .., h => .ofStoring (execSpHost_keeps .rfl _ _ _ h) rfl
  | .injectionGo .., h => .ofStoring (execInjectionGo_keeps .rfl _ _ _ h) rfl
  | .injectionStop .., h => .ofStoring (execInjectionStop_keeps .rfl _ _ _ h) rfl
  | .injectionAbort .., h => .ofStoring (execInjectionAbort_keeps .rfl _ _ _ h) rfl
  | .permitWrite .., h => .ofStoring (execPermitWrite_keeps .rfl _ _ h) rfl
  | .captureEnable .., h => .ofStoring (execCaptureEnable_keeps .rfl _ _ _ h) rfl
  | .captureWriteComplete .., h => .ofStoring (execCaptureWriteComplete_keeps .rfl _ h) rfl
  | .droneCycle, h => .ofStoring (execDroneCycle_keeps .rfl h) rfl
  | .latchRecordWritten .., h => .ofStoring (execLatchRecordWritten_keeps .rfl _ h) rfl
  | .droneCaptureTick .., h => execDroneCaptureTick_keeps .rfl _ h
  | .droneMeasurement .., h => execDroneMeasurement_keeps .rfl _ h
  | .droneMissTest .., h => execDroneMissTest_keeps .rfl _ h
  | .holdMaxExpiry .., h => execHoldMaxExpiry_keeps .rfl _ h
  | .drnEnable .., h => .ofStoring (execDrnEnable_keeps .rfl _ _ _ h) rfl
  | .reacq .., h => .ofStoring (execReacq_keeps .rfl _ _ _ h) rfl
  | .presetGo .., h => .ofStoring (execPresetGo_keeps .rfl _ _ _ h) rfl
  | .drnCntClr .., h => .ofStoring (execDrnCntClr_keeps .rfl _ _ _ h) rfl
  | .altActiveReturn .., h => .ofStoring (execAltActiveReturn_keeps .rfl _ _ _ h) rfl
  | .evPhaseWrite .., h => .ofStoring (execEvPhaseWrite_keeps .rfl _ _ _ _ h) rfl
  | .evCtrlWrite .., h => .ofStoring (execEvCtrlWrite_keeps .rfl _ _ _ _ h) rfl
  | .drnSnapRead .., h => execDrnSnapRead_keeps .rfl _ _ h
  | .latchBankRead .., h => execLatchBankRead_keeps .rfl _ h
  | .axisStart .., h => .ofStoring (execAxisStart_keeps .rfl _ _ _ h) rfl
  | .axisStop .., h => .ofStoring (execAxisStop_keeps .rfl _ _ _ h) rfl
  | .axisClear .., h => .ofStoring (execAxisClear_keeps .rfl _ _ _ h) rfl
  | .pwmEn .., h => .ofStoring (execPwmEn_keeps .rfl _ _ _ h) rfl
  | .axSyncGo .., h => .ofStoring (execAxSyncGo_keeps .rfl _ _ h) rfl
  | .reloadPoint .., h => execReloadPoint_keeps .rfl _ h
  | .samplingPoint .., h => .ofStoring (execSamplingPoint_keeps .rfl _ h) rfl
  | .sigmaDeltaWord .., h => .ofStoring (execSigmaDeltaWord_keeps .rfl _ _ h) rfl
  | .dutyStage .., h => execDutyStage_keeps .rfl _ h
  | .axCmpWrite .., h => .ofStoring (execAxCmpWrite_keeps .rfl _ _ _ _ h) rfl
  | .fastOvercurrentTrip .., h => execFastOvercurrentTrip_keeps .rfl _ _ h
  | .activityFault .., h => execActivityFault_keeps .rfl _ h
  | .densityBlockEnd .., h => execDensityBlockEnd_keeps .rfl _ _ h
  | .encoderEdge .., h => execEncoderEdge_keeps .rfl _ _ _ h
  | .encoderIndex .., h => execEncoderIndex_keeps .rfl _ h
  | .encCntWrite .., h => .ofStoring (execEncCntWrite_keeps .rfl _ _ _ _ h) rfl
  | .idxArm .., h => .ofStoring (execIdxArm_keeps .rfl _ _ _ h) rfl
  | .catchTimeout .., h => execCatchTimeout_keeps .rfl _ h
  | .probePulse .., h => execProbePulse_keeps .rfl _ h
  | .probePulseEnd .., h => .ofStoring (execProbePulseEnd_keeps .rfl _ h) rfl
  | .subTimeout .., h => execSubTimeout_keeps .rfl _ h
  | .brakeDelayExpiry .., h => execBrakeDelayExpiry_keeps .rfl _ h
  | .chopperMinInterval .., h => execChopperMinInterval_keeps .rfl _ h
  | .zeroCrossEdge .., h => execZeroCrossEdge_keeps .rfl _ _ h
  | .referenceEnable .., h => .ofStoring (execReferenceEnable_keeps .rfl _ _ _ h) rfl
  | .pcEnable .., h => .ofStoring (execPcEnable_keeps .rfl _ _ _ h) rfl
  | .restart .., h => .ofStoring (execRestart_keeps .rfl _ _ _ h) rfl
  | .pcClear .., h => .ofStoring (execPcClear_keeps .rfl _ _ _ h) rfl
  | .pulseEnd .., h => execPulseEnd_keeps .rfl _ h
  | .conductionWindowEnd .., h => execConductionWindowEnd_keeps .rfl _ h
  | .retrigger .., h => execRetrigger_keeps .rfl _ h
  | .currentSignChange .., h => execCurrentSignChange_keeps .rfl _ _ _ h
  | .isgnBadFault .., h => execIsgnBadFault_keeps .rfl _ h
  | .llEnable .., h => .ofStoring (execLlEnable_keeps .rfl _ _ _ h) rfl
  | .startIdleEnd .., h => execStartIdleEnd_keeps .rfl _ h
  | .readResponse .., h => execReadResponse_keeps .rfl _ _ _ h
  | .updateInstant .., h => .ofStoring (execUpdateInstant_keeps .rfl _ h) rfl
  | .refreshComplete .., h => execRefreshComplete_keeps .rfl _ h
  | .scanSlotStart .., h => .ofStoring (execScanSlotStart_keeps .rfl _ h) rfl
  | .scanBlankEnd .., h => execScanBlankEnd_keeps .rfl _ h
  | .llCntClr .., h => .ofStoring (execLlCntClr_keeps .rfl _ _ h) rfl
  | .nop .., h => execNop_keeps .rfl _ h
  | .br .., h => execBr_keeps .rfl _ _ h
  | .loop .., h => execLoop_keeps .rfl _ h
  | .wait .., h => execWait_keeps .rfl _ _ h
  | .waitEnd .., h => execWaitEnd_keeps .rfl _ _ h
  | .waitTimeout .., h => execWaitTimeout_keeps .rfl _ h
  | .shin .., h => execShin_keeps .rfl _ _ h
  | .shout .., h => execShout_keeps .rfl _ h
  | .pushRx .., h => execPushRx_keeps .rfl _ h
  | .pushDrone .., h => execPushDrone_keeps .rfl _ h
  | .pushPcnt .., h => execPushPcnt_keeps .rfl _ h
  | .pull .., h => execPull_keeps .rfl _ h
  | .fifoStallEnd .., h => execFifoStallEnd_keeps .rfl _ h
  | .xfer .., h => execXfer_keeps .rfl _ h
  | .load .., h => execLoad_keeps .rfl _ h
  | .pin .., h => execPin_keeps .rfl _ h
  | .tgt .., h => execTgt_keeps .rfl _ h
  | .sigErr .., h => execSigErr_keeps .rfl _ h
  | .sigIrq .., h => execSigIrq_keeps .rfl _ h
  | .sigToken .., h => execSigToken_keeps .rfl _ h
  | .sigHalt .., h => execSigHalt_keeps .rfl _ h
  | .sigClrstale .., h => execSigClrstale_keeps .rfl _ h
  | .sigCrcrst .., h => execSigCrcrst_keeps .rfl _ h
  | .fetchIllegal .., h => execFetchIllegal_keeps .rfl _ h
  | .fetchParityError .., h => execFetchParityError_keeps .rfl _ h
  | .feEn .., h => .ofStoring (execFeEn_keeps .rfl _ _ _ h) rfl
  | .feHalt .., h => .ofStoring (execFeHalt_keeps .rfl _ _ _ h) rfl
  | .feStep .., h => .ofStoring (execFeStep_keeps .rfl _ _ _ _ h) rfl
  | .fifeGo .., h => .ofStoring (execFifeGo_keeps .rfl _ _ h) rfl
  | .fifeClkrst .., h => .ofStoring (execFifeClkrst_keeps .rfl _ _ h) rfl
  | .feInj .., h => .ofStoring (execFeInj_keeps .rfl _ _ _ _ h) rfl
  | .feTx .., h => .ofStoring (execFeTx_keeps .rfl _ _ _ h) rfl
  | .feRxRead .., h => execFeRxRead_keeps .rfl _ _ h
  | .instructionMemoryWrite .., h => .ofStoring (execInstructionMemoryWrite_keeps .rfl _ _ _ _ h) rfl
  | .fifeNowRead .., h => execFifeNowRead_keeps .rfl _ h
  | .frame .., h => .ofStoring (execFrame_keeps .rfl _ _ h) rfl
  | .decomp .., h => .ofStoring (execDecomp_keeps .rfl _ _ h) rfl
  | .rasGrow .., h => .ofStoring (execRasGrow_keeps .rfl _ _ _ h) rfl
  | .growTimeout .., h => .ofStoring (execGrowTimeout_keeps .rfl _ h) rfl
  | .shadeReturn .., h => .ofStoring (execShadeReturn_keeps .rfl _ h) rfl
  | .shadeTimeout .., h => .ofStoring (execShadeTimeout_keeps .rfl _ h) rfl
  | .rasCntClr .., h => .ofStoring (execRasCntClr_keeps .rfl _ _ h) rfl
  | .opTgtWrite .., h => .ofStoring (execOpTgtWrite_keeps .rfl _ _ h) rfl
  | .supplySettled, h => execSupplySettled_keeps .rfl h
  | .tilePllLock, h => execTilePllLock_keeps .rfl h
  | .relockSwitchBack, h => execRelockSwitchBack_keeps .rfl h
  | .tileLockTimeout, h => execTileLockTimeout_keeps .rfl h
  | .belPwrDn .., h => .ofStoring (execBelPwrDn_keeps .rfl _ _ _ h) rfl
  | .rasDn .., h => .ofStoring (execRasDn_keeps .rfl _ _ h) rfl
  | .powerReturn .., h => .ofStoring (execPowerReturn_keeps .rfl _ h) rfl
  | .motionOnly .., h => .ofStoring (execMotionOnly_keeps .rfl _ _ h) rfl
  | .bellowsVokFall, h => execBellowsVokFall_keeps .rfl h
  | .pllLockLoss .., h => execPllLockLoss_keeps .rfl _ h
  | .pcieReset, h => execPcieReset_keeps .rfl h
  | .flr .., h => execFlr_keeps .rfl _ h
  | .d3hotEntry .., h => .ofStoring (execD3hotEntry_keeps .rfl _ h) rfl
  | .d0Return .., h => execD0Return_keeps .rfl _ h
  | .sqTailDb .., h => .ofStoring (execSqTailDb_keeps .rfl _ _ _ _ h) rfl
  | .cqHeadDb .., h => .ofStoring (execCqHeadDb_keeps .rfl _ _ _ _ h) rfl
  | .sqEnable .., h => .ofStoring (execSqEnable_keeps .rfl _ _ _ _ h) rfl
  | .sqStop .., h => .ofStoring (execSqStop_keeps .rfl _ _ _ _ h) rfl
  | .sqResume .., h => .ofStoring (execSqResume_keeps .rfl _ _ _ _ h) rfl
  | .cqEnable .., h => .ofStoring (execCqEnable_keeps .rfl _ _ _ _ h) rfl
  | .descriptorFetch .., h => execDescriptorFetch_keeps .rfl _ _ _ _ h
  | .descriptorNop .., h => execDescriptorNop_keeps .rfl _ _ h
  | .descriptorCopy .., h => .ofStoring (execDescriptorCopy_keeps .rfl _ _ _ h) rfl
  | .descriptorFill .., h => .ofStoring (execDescriptorFill_keeps .rfl _ _ _ h) rfl
  | .descriptorPost .., h => execDescriptorPost_keeps .rfl _ _ h
  | .descriptorWait .., h => execDescriptorWait_keeps .rfl _ _ _ h
  | .waitPoll .., h => execWaitPoll_keeps .rfl _ _ _ h
  | .descriptorWaitTimeout .., h => execDescriptorWaitTimeout_keeps .rfl _ _ h
  | .descriptorSignal .., h => .ofStoring (execDescriptorSignal_keeps .rfl _ _ _ h) rfl
  | .regwr .., h => .ofStoring (execRegwr_keeps .rfl _ _ _ h) rfl
  | .regrd .., h => execRegrd_keeps .rfl _ _ _ h
  | .tstamp .., h => execTstamp_keeps .rfl _ _ h
  | .descriptorComplete .., h => .ofStoring (execDescriptorComplete_keeps .rfl _ _ _ h) rfl
  | .cqTimerExpiry .., h => execCqTimerExpiry_keeps .rfl _ _ h
  | .wlEnable .., h => .ofStoring (execWlEnable_keeps .rfl _ _ _ h) rfl
  | .trainingComplete .., h => .ofStoring (execTrainingComplete_keeps .rfl _ _ _ _ _ h) rfl
  | .trainingTimeout .., h => execTrainingTimeout_keeps .rfl _ h
  | .frameReceive .., h => .ofStoring (execFrameReceive_keeps .rfl _ _ _ h) rfl
  | .replayTimeout .., h => execReplayTimeout_keeps .rfl _ h
  | .linkLoss .., h => execLinkLoss_keeps .rfl _ _ h
  | .wr .., h => .ofStoring (execWr_keeps .rfl _ _ _ h) rfl
  | .rd .., h => .ofStoring (execRd_keeps .rfl _ _ _ h) rfl
  | .rdrsp .., h => .ofStoring (execRdrsp_keeps .rfl _ _ h) rfl
  | .wrack .., h => .ofStoring (execWrack_keeps .rfl _ _ h) rfl
  | .tok .., h => .ofStoring (execTok_keeps .rfl _ _ h) rfl
  | .tokack .., h => .ofStoring (execTokack_keeps .rfl _ _ h) rfl
  | .syncMessage .., h => .ofStoring (execSyncMessage_keeps .rfl _ _ h) rfl
  | .joinInfo .., h => .ofStoring (execJoinInfo_keeps .rfl _ _ h) rfl
  | .timeReq .., h => .ofStoring (execTimeReq_keeps .rfl _ _ h) rfl
  | .timeRsp .., h => .ofStoring (execTimeRsp_keeps .rfl _ _ h) rfl
  | .leader .., h => .ofStoring (execLeader_keeps .rfl _ _ h) rfl
  | .lossNotice .., h => .ofStoring (execLossNotice_keeps .rfl _ _ h) rfl
  | .safeNotice .., h => .ofStoring (execSafeNotice_keeps .rfl _ _ h) rfl
  | .gfault .., h => .ofStoring (execGfault_keeps .rfl _ _ h) rfl
  | .admitNotice .., h => .ofStoring (execAdmitNotice_keeps .rfl _ _ h) rfl
  | .fwmsg .., h => .ofStoring (execFwmsg_keeps .rfl _ _ h) rfl
  | .fwmsgRead .., h => execFwmsgRead_keeps .rfl _ h
  | .lssig .., h => .ofStoring (execLssig_keeps .rfl _ _ h) rfl
  | .lsrows .., h => .ofStoring (execLsrows_keeps .rfl _ _ h) rfl
  | .remoteRequestTimeout .., h => execRemoteRequestTimeout_keeps .rfl _ h
  | .timeExchangeTimer .., h => execTimeExchangeTimer_keeps .rfl _ h
  | .syncSend .., h => execSyncSend_keeps .rfl _ h
  | .leaderBroadcast, h => execLeaderBroadcast_keeps .rfl h
  | .leaderTimeout, h => execLeaderTimeout_keeps .rfl h
  | .gfClear .., h => .ofStoring (execGfClear_keeps .rfl _ _ h) rfl
  | .nrClear .., h => .ofStoring (execNrClear_keeps .rfl _ _ h) rfl
  | .routeTableWrite .., h => .ofStoring (execRouteTableWrite_keeps .rfl _ _ _ h) rfl
  | .tunnelEnable .., h => .ofStoring (execTunnelEnable_keeps .rfl _ _ _ h) rfl
  | .tunnelFrameReceive .., h => .ofStoring (execTunnelFrameReceive_keeps .rfl _ _ _ h) rfl
  | .keepalive .., h => execKeepalive_keeps .rfl _ h
  | .tunnelRetransmit .., h => execTunnelRetransmit_keeps .rfl _ h
  | .sweepGo .., h => .ofStoring (execSweepGo_keeps .rfl _ _ h) rfl
  | .sweepStart .., h => .ofStoring (execSweepStart_keeps .rfl _ _ h) rfl
  | .sweepRefusal .., h => .ofStoring (execSweepRefusal_keeps .rfl _ _ h) rfl
  | .sweepS0, h => execSweepS0_keeps .rfl h
  | .sweepSyncSend .., h => execSweepSyncSend_keeps .rfl _ h
  | .sweepSync .., h => .ofStoring (execSweepSync_keeps .rfl _ _ h) rfl
  | .sweepAckSend, h => execSweepAckSend_keeps .rfl h
  | .sweepAck .., h => .ofStoring (execSweepAck_keeps .rfl _ _ h) rfl
  | .sweepCut, h => execSweepCut_keeps .rfl h
  | .sweepAckMissing .., h => execSweepAckMissing_keeps .rfl _ h
  | .sweepStop .., h => .ofStoring (execSweepStop_keeps .rfl _ _ h) rfl
  | .sweepEnd .., h => .ofStoring (execSweepEnd_keeps .rfl _ _ h) rfl
  | .sweepAbort .., h => .ofStoring (execSweepAbort_keeps .rfl _ _ h) rfl
  | .frTailWrite .., h => .ofStoring (execFrTailWrite_keeps .rfl _ _ _ h) rfl
  | .fieldEntryDone .., h => .ofStoring (execFieldEntryDone_keeps .rfl _ _ h) rfl
  | .ethFrameReceive .., h => .ofStoring (execEthFrameReceive_keeps .rfl _ _ _ _ _ h) rfl
  | .ethFrameTransmit .., h => execEthFrameTransmit_keeps .rfl _ _ _ h
  | .gateEntryEnd .., h => execGateEntryEnd_keeps .rfl _ h
  | .qbvChange .., h => .ofStoring (execQbvChange_keeps .rfl _ _ _ h) rfl
  | .adminListActivation .., h => execAdminListActivation_keeps .rfl _ h
  | .rateAdjWrite .., h => .ofStoring (execRateAdjWrite_keeps .rfl _ _ h) rfl
  | .timeStep .., h => .ofStoring (execTimeStep_keeps .rfl _ _ h) rfl
  | .canTxreq .., h => .ofStoring (execCanTxreq_keeps .rfl _ _ _ h) rfl
  | .canTransmitDone .., h => execCanTransmitDone_keeps .rfl _ h
  | .canFrameReceive .., h => execCanFrameReceive_keeps .rfl _ _ _ _ h
  | .canBusOff .., h => execCanBusOff_keeps .rfl _ h
  | .canRecover .., h => .ofStoring (execCanRecover_keeps .rfl _ _ _ h) rfl
  | .busOffRecovery .., h => execBusOffRecovery_keeps .rfl _ h
  | .csiFrameStart .., h => .ofStoring (execCsiFrameStart_keeps .rfl _ _ _ _ _ h) rfl
  | .csiLine .., h => .ofStoring (execCsiLine_keeps .rfl _ _ _ _ _ _ _ h) rfl
  | .csiBandComplete .., h => execCsiBandComplete_keeps .rfl _ _ h
  | .csiFrameEnd .., h => .ofStoring (execCsiFrameEnd_keeps .rfl _ _ _ _ h) rfl
  | .csiFrameTimeout .., h => .ofStoring (execCsiFrameTimeout_keeps .rfl _ _ _ h) rfl
  | .csBufRet .., h => .ofStoring (execCsBufRet_keeps .rfl _ _ _ _ h) rfl
  | .spiTx .., h => .ofStoring (execSpiTx_keeps .rfl _ _ _ h) rfl
  | .i2cCmd .., h => .ofStoring (execI2cCmd_keeps .rfl _ _ _ h) rfl
  | .uartTx .., h => .ofStoring (execUartTx_keeps .rfl _ _ _ h) rfl
  | .xspiCmd .., h => .ofStoring (execXspiCmd_keeps .rfl _ _ h) rfl
  | .serialTransferDone .., h => execSerialTransferDone_keeps .rfl _ h
  | .serialRxRead .., h => execSerialRxRead_keeps .rfl _ _ h
  | .xspiWdataRead .., h => execXspiWdataRead_keeps .rfl _ _ h
  | .reproWrite .., h => .ofStoring (execReproWrite_keeps .rfl _ _ h) rfl
  | .rpStepWrite .., h => .ofStoring (execRpStepWrite_keeps .rfl _ _ h) rfl
  | .rpStepAdv .., h => .ofStoring (execRpStepAdv_keeps .rfl _ _ h) rfl
  | .generatorDraw .., h => .ofStoring (execGeneratorDraw_keeps .rfl _ _ h) rfl
  | .generatorDrawDone, h => execGeneratorDrawDone_keeps .rfl h
  | .lsEnable .., h => .ofStoring (execLsEnable_keeps .rfl _ _ h) rfl
  | .stepClose .., h => execStepClose_keeps .rfl _ _ h
  | .lsTimeout .., h => execLsTimeout_keeps .rfl _ _ h
  | .faultAssertion .., h => execFaultAssertion_keeps .rfl _ _ h
  | .sfEnter .., h => .ofStoring (execSfEnter_keeps .rfl _ _ h) rfl
  | .sfExit .., h => .ofStoring (execSfExit_keeps .rfl _ _ h) rfl
  | .sfSwfault .., h => .ofStoring (execSfSwfault_keeps .rfl _ _ h) rfl
  | .watchdogKick .., h => .ofStoring (execWatchdogKick_keeps .rfl _ _ h) rfl
  | .watchdogExpiry, h => execWatchdogExpiry_keeps .rfl h
  | .clockMonitorWindow .., h => execClockMonitorWindow_keeps .rfl _ h
  | .stoReadbackMismatch .., h => execStoReadbackMismatch_keeps .rfl _ _ h
  | .stoTestPulse .., h => execStoTestPulse_keeps .rfl _ _ h
  | .safeInLow .., h => execSafeInLow_keeps .rfl _ _ h
  | .safetyFramePeriod .., h => execSafetyFramePeriod_keeps .rfl _ h
  | .safetyPduReceive .., h => .ofStoring (execSafetyPduReceive_keeps .rfl _ _ h) rfl
  | .safetyRxTimeout .., h => execSafetyRxTimeout_keeps .rfl _ h
  | .firewallWrite .., h => .ofStoring (execFirewallWrite_keeps .rfl _ _ h) rfl
  | .firewallRead .., h => .ofStoring (execFirewallRead_keeps .rfl _ _ h) rfl
  | .firewallArm .., h => .ofStoring (execFirewallArm_keeps .rfl _ _ h) rfl
  | .firewallLock .., h => .ofStoring (execFirewallLock_keeps .rfl _ _ h) rfl
  | .firewallParitySweep .., h => execFirewallParitySweep_keeps .rfl _ h
  | .drain .., h => .ofStoring (execDrain_keeps .rfl _ _ h) rfl
  | .drainRetryWindowEnd .., h => execDrainRetryWindowEnd_keeps .rfl _ h
  | .drainComplete .., h => execDrainComplete_keeps .rfl _ h
  | .drainTimeout .., h => execDrainTimeout_keeps .rfl _ h
  | .bist .., h => .ofStoring (execBist_keeps .rfl _ _ h) rfl
  | .bistComplete .., h => .ofStoring (execBistComplete_keeps .rfl _ _ h) rfl
  | .admitUnit .., h => .ofStoring (execAdmitUnit_keeps .rfl _ _ h) rfl
  | .admittingEnd .., h => execAdmittingEnd_keeps .rfl _ h
  | .pwmCompareEdge .., h => execPwmCompareEdge_keeps .rfl _ _ h
  | .capturingRead .., h => execCapturingRead_keeps .rfl _ _ _ h
  | .portTimeout .., h => execPortTimeout_keeps .rfl _ _ h
  | .completionTimeout .., h => execCompletionTimeout_keeps .rfl _ _ _ h
  | .configurationRequest .., h => execConfigurationRequest_keeps .rfl _ h
  | .jtagRequest .., h => execJtagRequest_keeps .rfl _ h
  | .stoTestPulseEnd .., h => execStoTestPulseEnd_keeps .rfl _ _ h

/-! ### The statements about every step -/

/-- Settles O3: the queue is part of what `Keeps` watches. -/
theorem queueKept : Obligations.QueueKept := by
  unfold Obligations.QueueKept
  intro c s t h
  exact (exec_keeps c h).pending

/-- Settles O4: each meaning, by its command, is a next state. -/
theorem noCommandStops : Obligations.NoCommandStops := by
  unfold Obligations.NoCommandStops
  intro c s
  cases c <;> exact ⟨_, rfl⟩

/-- Settles O1: that is the definition of a step on a queue with a front command. -/
theorem stepRunsFrontCommand : Obligations.StepRunsFrontCommand := by
  unfold Obligations.StepRunsFrontCommand
  intro s c rest h
  simp only [step, h]

/-- Settles O2: that is the definition of a step on an empty queue. -/
theorem idleStep : Obligations.IdleStep := by
  unfold Obligations.IdleStep
  intro s h
  simp only [step, h]

/-- What a step answers is the state itself, or comes from the front command on the rest of the queue. -/
theorem step_next_cases {s t : State} (h : step s = .next t) :
    (s.pending = [] ∧ t = s) ∨ ∃ c rest, s.pending = c :: rest ∧ exec c { s with pending := rest } = .next t := by
  cases hp : s.pending with
  | nil =>
    rw [idleStep s hp] at h
    exact .inl ⟨rfl, (Host.Outcome.next.inj h).symm⟩
  | cons c rest => exact .inr ⟨c, rest, rfl, stepRunsFrontCommand s c rest hp ▸ h⟩

theorem State.copies_eq_shape (s : State) : s.copies = s.shape := rfl

/-- The invariant is kept wherever `Keeps` holds. -/
theorem Keeps.inv {lk st : Prop} {s t : State} (h : Keeps lk st s t) (hi : s.Inv) : t.Inv := by
  obtain ⟨hmem, hregs, hcopies⟩ := hi
  exact ⟨h.wf hmem, h.regs hregs, h.shape hcopies⟩

/-- Settles O5: the tables are empty and the lists are those of reset. -/
theorem invariantAtReset : Obligations.InvariantAtReset := by
  unfold Obligations.InvariantAtReset
  exact ⟨rfl, rfl, rfl⟩

/-- Settles O6: the invariant does not look at the queue, and every command keeps it. -/
theorem invariantKept : Obligations.InvariantKept := by
  unfold Obligations.InvariantKept
  intro s t hi h
  rcases step_next_cases h with ⟨-, rfl⟩ | ⟨c, rest, -, he⟩
  · exact hi
  · exact (exec_keeps c he).inv hi

/-- Settles O7: of the commands, PORST_N_ASSERT alone touches a locked firewall target. -/
theorem firewallLockKept : Obligations.FirewallLockKept := by
  unfold Obligations.FirewallLockKept
  intro s t c rest hp hc h
  rw [stepRunsFrontCommand s c rest hp] at h
  exact (exec_keeps c h).fw hc

/-- Settles O8: a byte is read from the cells and the marks of lost content, which such a command leaves. -/
theorem nothingStored : Obligations.NothingStored := by
  unfold Obligations.NothingStored MemSame
  intro c s t hs h a
  obtain ⟨hmem, hunknown, hlost⟩ := (exec_keeps c h).mem hs
  exact getByte_congr hmem hunknown hlost a

/-! ### A read after a write -/

/-- Settles O9: the write leaves the words without an error and the memory known, so the read returns the bytes put. -/
theorem memoryReadAfterWrite : Obligations.MemoryReadAfterWrite := by
  unfold Obligations.MemoryReadAfterWrite
  intro s code a data w w' hclean harm hknown
  obtain ⟨hok, hbyte, hecc, -, hframe⟩ := writeMem_clean (w := w) hclean harm
  have hclean' : (s.writeMem code a data w).1.clean code a data.length := fun wa hwa => (hecc wa).trans (hclean wa hwa)
  have hunknown : (s.writeMem code a data w).1.unknown = s.unknown := by rw [hframe]
  have hspan : (s.writeMem code a data w).1.spanUnknown code a data.length = false := by
    simp [State.spanUnknown, hunknown, hknown]
  have hdata : (s.writeMem code a data w).1.getBytes a data.length = data :=
    getBytes_of _ a data fun i hi => by rw [hbyte, if_pos (by omega), Nat.add_sub_cancel_left]
  refine ⟨hok, by rw [readMem_clean hclean' hspan, hdata], fun b hb => ?_⟩
  rw [hbyte, if_neg (by omega)]

end Sys2Proof.Machine
end

section
/-! PROOFS. Commands of the registers: SETUP_LOCK, ISL_LOCK, REGISTER_WRITE and CAPTURING_READ (R776, R779, R782 of
spec/23_register_map.md). -/

namespace Sys2Proof.Machine

variable {s t u : State}

/-- A command leads to what its meaning is shown to be. -/
theorem Leads.intro {c : Instr} {P : State → Prop} (hx : exec c s = .next u) (e : u = t) (hp : P t) : Leads s c P := ⟨u, hx, e ▸ hp⟩

/-- An update with the answers of outside parties, by what it makes of the state that holds them. -/
theorem withReplies_eq {rs : List Reply} {f : State → State} (e : f { s with replies := rs } = t) :
    s.withReplies rs f = { t with replies := [] } := congrArg (fun t : State => { t with replies := [] }) e

/-- What SETUP_LOCK takes from a word, by the locks that its bits set. -/
theorem writeSetupLock_lock (w : Who) : s.writeSetupLock w (1 % 2 ^ 32) = s.wr R.SETUP_LOCK_LOCK 1 := by
  simp [State.writeSetupLock, State.flag, bit, Nat.testBit, Nat.shiftRight_eq_div_pow]

theorem writeSetupLock_isl {w : Who} (hi : w.ini = 0x24) (hr : w.remote = false) :
    s.writeSetupLock w (2 % 2 ^ 32) = s.wr R.SETUP_LOCK_ISL_LOCK 1 := by
  simp [State.writeSetupLock, State.flag, bit, Nat.testBit, Nat.shiftRight_eq_div_pow, hi, hr]

/-- A register with one field of R16's code RW takes the field's bits of the word. -/
theorem plainWrite_rw {a word lo w r : Nat} {hit : RegHit} (h : hit.d.fields = [⟨lo, w, .rw, [r]⟩]) :
    s.plainWrite a hit word = s.wr ⟨a * 8 + lo, w, r⟩ (bits word lo w) := by
  simp only [State.plainWrite, h, State.writeFields, State.writeField, fieldOf_const]

set_option Elab.async false in
theorem found_RP_STEP_LO : hitAt 0x5030 = some (0x5030, [], none) := by decide +kernel

theorem readReg_RP_STEP_LO {w : Who} (h : s.gives w 0x5030 = true) :
    s.readReg w 0x5030 = (s.wr R.RP_STEP_HI_STEP (s.step / 2 ^ 32)).answers .ok (s.step % 2 ^ 32) [] := by
  rw [readReg_live h found_RP_STEP_LO (v := s.step % 2 ^ 32) (t := s.wr R.RP_STEP_HI_STEP (s.step / 2 ^ 32)) ?_, Nat.mod_mod]
  intro hit hb hx hu
  simp [State.popRead, State.liveWord, State.readEffect, hb, hu]

theorem leads_setupLock {w : Who} (h : s.takes w 0x54 1) : Leads s (.setupLock w) fun t => t.unlocked = false ∧ t.answer.st = .ok ∧
    RegsBut [R.SETUP_LOCK_LOCK] s t ∧ t = { s with regs := t.regs, answer := t.answer } := by
  refine .intro rfl ((writeReg_SETUP_LOCK h).trans (congrArg (State.answers · .ok 0 []) (writeSetupLock_lock w))) ⟨?_, rfl, ?_, rfl⟩
  · simp [State.unlocked, R.SETUP_LOCK_LOCK]
  · simp

theorem leads_islLock {w : Who} (h : s.takes w 0x54 2) (hi : w.ini = 0x24) (hr : w.remote = false) : Leads s (.islLock w) fun t =>
    t.islUnlocked = false ∧ t.answer.st = .ok ∧ RegsBut [R.SETUP_LOCK_ISL_LOCK] s t ∧ t = { s with regs := t.regs, answer := t.answer } := by
  refine .intro rfl ((writeReg_SETUP_LOCK h).trans (congrArg (State.answers · .ok 0 []) (writeSetupLock_isl hi hr))) ⟨?_, rfl, ?_, rfl⟩
  · simp [State.islUnlocked, R.SETUP_LOCK_ISL_LOCK]
  · simp

theorem leads_registerWrite {w : Who} (k : Fin 4) {v : BitVec 32} (rs : List Reply) (h : s.takes w (0x70 + 4 * k) v.toNat) :
    Leads s (.registerWrite w (BitVec.ofNat 24 (0x70 + 4 * k)) v rs) fun t => t.rd (R.GLOBAL_IRQ_CORE_MASK k) = v.toNat % 2 ^ 19 ∧
      t.answer.st = .ok ∧ RegsBut [R.GLOBAL_IRQ_CORE_MASK k] s t ∧ t = { s with regs := t.regs, answer := t.answer, replies := [] } := by
  obtain ⟨hit, -, hf, e⟩ := writeReg_GLOBAL_IRQ_CORE (s := { s with replies := rs }) k h
  have hp : State.plainWrite { s with replies := rs } (0x70 + 4 * k) hit (v.toNat % 2 ^ 32) = State.wr { s with replies := rs } (R.GLOBAL_IRQ_CORE_MASK k) (bits v.toNat 0 19) := by
    rw [bv32_mod]; exact plainWrite_rw hf
  have ha : (BitVec.ofNat 24 (0x70 + 4 * k)).toNat = 0x70 + 4 * k := by simp; omega
  rw [hp, ← ha] at e
  refine .intro rfl (withReplies_eq e) ⟨?_, rfl, ?_, rfl⟩
  · exact (State.rd_wr_same _ _ _).trans (bits_mod v.toNat 0 19)
  · exact (regsBut_wr (List.mem_singleton_self _)).2 (RegsBut.refl _ s)

theorem leads_capturingRead {w : Who} (rs : List Reply) (h : s.gives w 0x5030) : Leads s (.capturingRead w 0x5030 rs) fun t =>
    t.answer.st = .ok ∧ t.answer.value = s.step % 2 ^ 32 ∧ t.rd R.RP_STEP_HI_STEP = s.step / 2 ^ 32 % 2 ^ 32 ∧
      RegsBut [R.RP_STEP_HI_STEP] s t ∧ t = { s with regs := t.regs, answer := t.answer, replies := [] } := by
  refine .intro rfl (withReplies_eq (readReg_RP_STEP_LO (s := { s with replies := rs }) h)) ⟨rfl, rfl, ?_, ?_, rfl⟩
  · exact State.rd_wr_same _ _ _
  · exact (regsBut_wr (List.mem_singleton_self _)).2 (RegsBut.refl _ s)

/-- Settles O13: each command is the write or read of one register, of which the field tables give the effect. -/
theorem registersComplete : Obligations.RegistersComplete :=
  ⟨fun _ _ => leads_setupLock, fun _ _ => leads_islLock, fun _ _ k _ rs => leads_registerWrite k rs, fun _ _ rs => leads_capturingRead rs⟩

end Sys2Proof.Machine
end

section
/-! PROOFS. Commands of the unit lifecycle (spec/21_unit_lifecycle.md R718 to R729). -/

namespace Sys2Proof.Machine

variable {s : State}

/-! ### Writes of UL_CMD -/

/-- A taken write of UL_CMD for a unit runs its command on that unit (R732, R739). -/
theorem ulWrite_takes {w : Who} {v : BitVec 32} {c : Nat} (hc : c < 8) (h : s.takes w 0x6004 (bits v.toNat 0 8 + 256 * c))
    (hu : s.isUnit (v.toNat % 128) = true) : s.ulWrite w c v = (match c with
      | 1 => s.drain (v.toNat % 128)
      | 2 => s.bist (v.toNat % 128)
      | 3 => s.admitUnit (v.toNat % 128)
      | _ => s : State).answers .ok 0 [] := by
  obtain ⟨hb, hk⟩ := bits_ulword v c hc
  rw [State.ulWrite, writeReg_UL_CMD h, ul_word v c hc, State.writeUlCmd, hb, hk, hu]
  rfl

theorem drain_engine {u : Nat} (hp : portOfUnit u = none) (h : (s.unitSt u).state = 0) : s.drain u = s.drainEnter u 1 := by
  simp [State.drain, h, hp]

theorem drain_port {u : Nat} (hm : s.sweepMaster = false) (hs : s.sweepState ≠ 2) (hu : 0x68 ≤ u) (h : (s.unitSt u).state = 0) :
    s.drain u = s.setUnit u { s.unitSt u with state := 1, cause := 1, retryOver := false, drainAt := s.sysTime, drainCyc := s.now } := by
  have he : s.drainEnter u 1 = s.setUnit u { s.unitSt u with state := 1, cause := 1, retryOver := false, drainAt := s.sysTime, drainCyc := s.now } :=
    if_neg (by omega)
  unfold State.drain
  rw [he, if_neg (not_not.2 h)]
  split
  · rw [State.sweepPortLost, if_neg (by exact Bool.eq_false_iff.1 hm), if_neg (fun h => hs h.1)]
  · rfl

theorem bist_starts {u : Nat} (h2 : (s.unitSt u).state = 2) (hp : (s.unitSt u).powered = true) (hz : (s.unitSt u).zeroing = false)
    (hr : (s.unitSt u).bistRun = false) :
    s.bist u = s.setUnit u { s.unitSt u with bistRun := true, bistPass := false, bistFail := false, zeroed := false, dirty := false } := by
  simp [State.bist, h2, hp, hz, hr]

/-- ADMIT of a unit that meets R728: state and epoch, and the pools of its sequencer where it has one (R729). -/
theorem admitUnit_admits {u : Nat} (h2 : (s.unitSt u).state = 2) (hb : (s.unitSt u).bistPass = true) (hz : (s.unitSt u).zeroed = true)
    (hd : (s.unitSt u).dirty = false) (ho : s.orphans u = 0) (hp : (s.unitSt u).powered = true) (hg : s.on R.UL_CTRL_GROUP_ADMIT = false) :
    ∃ r, s.admitUnit u = { s with regs := r }.setUnit u { s.unitSt u with state := 3, epoch := ((s.unitSt u).epoch + 1) % 256, drainCyc := s.now } ∧
      ∀ q, seqOfUnit u = some q → ∀ p < 32, State.rd { s with regs := r } (R.POOL_CNT_COUNT (win q) p) = s.rd (R.POOL_INIT_INIT (win q) p) % 2 ^ 16 := by
  unfold State.admitUnit
  dsimp only
  rw [if_pos (by simp [h2, hb, hz, hd, ho, hp]), hg]
  rcases seqOfUnit u with _ | q
  · exact ⟨s.regs, rfl, nofun⟩
  · obtain ⟨r, e, hr⟩ := poolsInit_eq (s.setUnit u { s.unitSt u with state := 3, epoch := ((s.unitSt u).epoch + 1) % 256, drainCyc := s.now }) q
    exact ⟨r, e, fun _ hq => Option.some.inj hq ▸ hr⟩

theorem leads_drain {w : Who} {v : BitVec 32} (h : s.takes w 0x6004 (bits v.toNat 0 8 + 256)) (hu : s.isUnit (v.toNat % 128) = true)
    (hp : v.toNat % 128 < 0x68) (h0 : (s.unitSt (v.toNat % 128)).state = 0) : Leads s (.drain w v) fun t =>
      t.unitSt (v.toNat % 128) = { s.unitSt (v.toNat % 128) with state := 1, cause := 1, retryOver := false, drainAt := s.sysTime, drainCyc := s.now } ∧
      (∀ x, x ≠ v.toNat % 128 → t.unitSt x = s.unitSt x) ∧ t.answer.st = .ok ∧ t = { s with units := t.units, reed := t.reed, answer := t.answer } := by
  have e : s.ulWrite w 1 v = (s.drain (v.toNat % 128)).answers .ok 0 [] := ulWrite_takes (by omega) h hu
  rw [drain_engine (if_neg (by omega)) h0] at e
  obtain ⟨hself, hother, he⟩ := drainEnter_eq s (v.toNat % 128) 1
  exact .intro rfl e ⟨hself, hother, rfl, congrArg (State.answers · .ok 0 []) he⟩

theorem leads_drain_port {w : Who} {v : BitVec 32} (h : s.takes w 0x6004 (bits v.toNat 0 8 + 256)) (hu : s.isUnit (v.toNat % 128) = true)
    (hp : 0x68 ≤ v.toNat % 128) (h0 : (s.unitSt (v.toNat % 128)).state = 0) (hm : s.sweepMaster = false) (hs : s.sweepState ≠ 2) :
    Leads s (.drain w v) fun t =>
      t.unitSt (v.toNat % 128) = { s.unitSt (v.toNat % 128) with state := 1, cause := 1, retryOver := false, drainAt := s.sysTime, drainCyc := s.now } ∧
      (∀ x, x ≠ v.toNat % 128 → t.unitSt x = s.unitSt x) ∧ t.answer.st = .ok ∧ t = { s with units := t.units, answer := t.answer } := by
  have e : s.ulWrite w 1 v = (s.drain (v.toNat % 128)).answers .ok 0 [] := ulWrite_takes (by omega) h hu
  rw [drain_port hm hs hp h0] at e
  exact .intro rfl e ⟨by rw [State.answers_unitSt, State.setUnit_unitSt], fun _ hx => by rw [State.answers_unitSt, State.setUnit_unitSt_ne _ _ hx], rfl, rfl⟩

theorem leads_bist {w : Who} {v : BitVec 32} (h : s.takes w 0x6004 (bits v.toNat 0 8 + 256 * 2)) (hu : s.isUnit (v.toNat % 128) = true)
    (h2 : (s.unitSt (v.toNat % 128)).state = 2) (hp : (s.unitSt (v.toNat % 128)).powered = true)
    (hz : (s.unitSt (v.toNat % 128)).zeroing = false) (hr : (s.unitSt (v.toNat % 128)).bistRun = false) : Leads s (.bist w v) fun t =>
      t.unitSt (v.toNat % 128) = { s.unitSt (v.toNat % 128) with bistRun := true, bistPass := false, bistFail := false, zeroed := false, dirty := false } ∧
      (∀ x, x ≠ v.toNat % 128 → t.unitSt x = s.unitSt x) ∧ t.answer.st = .ok ∧ t = { s with units := t.units, answer := t.answer } := by
  have e : s.ulWrite w 2 v = (s.bist (v.toNat % 128)).answers .ok 0 [] := ulWrite_takes (by omega) h hu
  rw [bist_starts h2 hp hz hr] at e
  exact .intro rfl e ⟨State.setUnit_unitSt s _ _, fun _ hx => State.setUnit_unitSt_ne s _ hx, rfl, rfl⟩

theorem leads_admitUnit {w : Who} {v : BitVec 32} (h : s.takes w 0x6004 (bits v.toNat 0 8 + 256 * 3)) (hu : s.isUnit (v.toNat % 128) = true)
    (h2 : (s.unitSt (v.toNat % 128)).state = 2) (hb : (s.unitSt (v.toNat % 128)).bistPass = true)
    (hz : (s.unitSt (v.toNat % 128)).zeroed = true) (hd : (s.unitSt (v.toNat % 128)).dirty = false) (ho : s.orphans (v.toNat % 128) = 0)
    (hp : (s.unitSt (v.toNat % 128)).powered = true) (hg : s.on R.UL_CTRL_GROUP_ADMIT = false) : Leads s (.admitUnit w v) fun t =>
      t.unitSt (v.toNat % 128) = { s.unitSt (v.toNat % 128) with state := 3, epoch := ((s.unitSt (v.toNat % 128)).epoch + 1) % 256, drainCyc := s.now } ∧
      (∀ q, seqOfUnit (v.toNat % 128) = some q → ∀ p : Fin 32, t.rd (R.POOL_CNT_COUNT (win q) p) = s.rd (R.POOL_INIT_INIT (win q) p) % 2 ^ 16) ∧
      t.answer.st = .ok ∧ t = { s with units := t.units, regs := t.regs, answer := t.answer } := by
  have e : s.ulWrite w 3 v = (s.admitUnit (v.toNat % 128)).answers .ok 0 [] := ulWrite_takes (by omega) h hu
  obtain ⟨r, ha, hr⟩ := admitUnit_admits h2 hb hz hd ho hp hg
  rw [ha] at e
  exact .intro rfl e ⟨by rw [State.answers_unitSt, State.setUnit_unitSt], fun q hq p => hr q hq p p.isLt, rfl, rfl⟩

/-! ### The end of DRAINING, of the self-test and of ADMITTING -/

theorem leads_drainRetryWindowEnd {u : Fin 128} (h1 : (s.unitSt u).state = 1) (ht : 409 ≤ s.since (s.unitSt u).drainCyc) :
    Leads s (.drainRetryWindowEnd u) fun t => t.unitSt u = { s.unitSt u with retryOver := true } ∧ (∀ x, x ≠ u.val → t.unitSt x = s.unitSt x) ∧
      t = { s with units := t.units } :=
  .intro rfl (if_pos ⟨h1, ht⟩) ⟨State.setUnit_unitSt s _ _, fun _ hx => State.setUnit_unitSt_ne s _ hx, rfl⟩

/-- The logic of a unit without sequencer and port holds nothing that a reset clears. -/
theorem unitReset_plain {u : Nat} (h : seqOfUnit u = none) (hp : portOfUnit u = none) : s.unitReset u = s := by
  have hu : ¬ u < 0x40 ∧ ¬ (0x60 ≤ u ∧ u < 0x64) := by
    unfold seqOfUnit at h
    split_ifs at h with h1 h2
    exact ⟨h1, h2⟩
  simp only [State.unitReset, h, hp, hu, if_false]

theorem quarantine_plain {u : Nat} (h : seqOfUnit u = none) (hp : portOfUnit u = none) :
    s.quarantine u = s.setUnit u { s.unitSt u with state := 2 } := by
  rw [State.quarantine, unitReset_plain h hp]

theorem quarantine_unitSt (u : Nat) : (s.quarantine u).unitSt u = { s.unitSt u with state := 2 } := State.setUnit_unitSt ..

theorem leads_drainComplete {u : Fin 128} (h1 : (s.unitSt u).state = 1) (hl : s.ledgerEmpty u = true) : Leads s (.drainComplete u) fun t =>
    t.unitSt u = { s.unitSt u with state := 2 } ∧ ((seqOfUnit u = none ∧ portOfUnit u = none) → t = { s with units := t.units }) := by
  refine .intro rfl (if_pos ⟨h1, hl⟩) ⟨quarantine_unitSt u.val, fun ⟨hq, hp⟩ => ?_⟩
  rw [quarantine_plain hq hp]
  rfl

/-- t_drain elapses for a unit without sequencer and port: its unanswered requests become orphans (R722). -/
theorem drainTimeout_plain {u : Nat} (h1 : (s.unitSt u).state = 1) (ht : s.tDrain ≤ tsub s.sysTime (s.unitSt u).drainAt)
    (hq : seqOfUnit u = none) (hp : portOfUnit u = none) : s.drainTimeout u =
      { s with outst := s.outst.map fun (o : Outstanding) => if o.unit == u then { o with orphan := true } else o }.setUnit u { s.unitSt u with state := 2 } := by
  simp only [State.drainTimeout, h1, ht, and_self, if_true, hq, hp]
  exact quarantine_plain hq hp

theorem drainTimeout_state {u : Nat} (h1 : (s.unitSt u).state = 1) (ht : s.tDrain ≤ tsub s.sysTime (s.unitSt u).drainAt) :
    ((s.drainTimeout u).unitSt u).state = 2 := by
  simp only [State.drainTimeout, h1, ht, and_self, if_true, quarantine_unitSt]

theorem leads_drainTimeout {u : Fin 128} (h1 : (s.unitSt u).state = 1) (ht : s.tDrain ≤ tsub s.sysTime (s.unitSt u).drainAt) :
    Leads s (.drainTimeout u) fun t => (t.unitSt u).state = 2 ∧ ((seqOfUnit u = none ∧ portOfUnit u = none) →
      t.unitSt u = { s.unitSt u with state := 2 } ∧ t.outst = s.outst.map (fun o => if o.unit == u.val then { o with orphan := true } else o) ∧
      t = { s with units := t.units, outst := t.outst }) := by
  refine .intro rfl rfl ⟨drainTimeout_state h1 ht, fun ⟨hq, hp⟩ => ?_⟩
  rw [drainTimeout_plain h1 ht hq hp]
  exact ⟨State.setUnit_unitSt s _ _, rfl, rfl⟩

theorem bistLeaves_reports (u : Nat) : (s.bistLeaves u).reports = s.reports := by
  have hz : (s.zeroMem u).reports = s.reports := by unfold State.zeroMem; split <;> rfl
  have h1 : (if u < 0x64 then s.zeroMem u else s).reports = s.reports := by
    split
    · exact hz
    · rfl
  rw [State.bistLeaves]
  split
  · exact h1
  · exact h1

/-- The result that a self-test leaves in the unit, whatever the test did to its memory and rows (R725). -/
theorem bistResult_unitSt (u : Nat) (ok : Bool) : (s.bistResult u ok).unitSt u = { (s.bistLeaves u).unitSt u with
    bistRun := false, bistPass := ok, bistFail := !ok, zeroed := ok && (portOfUnit u).isSome, dirty := false } := by
  cases ok <;> exact State.setUnit_unitSt ..

theorem bistResult_reports (u : Nat) (ok : Bool) : (s.bistResult u ok).reports = s.reports ++ (if ok then [] else [(0x0C, u)]) := by
  rw [← bistLeaves_reports (s := s) u]
  cases ok
  · rfl
  · exact (List.append_nil _).symm

theorem leads_bistComplete {u : Fin 128} (ok : Bool) (h : (s.unitSt u).bistRun = true) : Leads s (.bistComplete u ok) fun t =>
    (t.unitSt u).bistRun = false ∧ (t.unitSt u).bistPass = ok ∧ (t.unitSt u).bistFail = !ok ∧ (t.unitSt u).dirty = false ∧
    (t.unitSt u).zeroed = (ok && (portOfUnit u).isSome) ∧ t.reports = s.reports ++ (if ok then [] else [(0x0C, u.val)]) := by
  refine .intro rfl (if_pos h) ?_
  rw [bistResult_unitSt]
  exact ⟨rfl, rfl, rfl, rfl, rfl, bistResult_reports u.val ok⟩

theorem leads_admittingEnd {u : Fin 128} (h3 : (s.unitSt u).state = 3) (ht : 6 ≤ s.since (s.unitSt u).drainCyc) :
    Leads s (.admittingEnd u) fun t => t.unitSt u = { s.unitSt u with state := 0 } ∧ (∀ x, x ≠ u.val → t.unitSt x = s.unitSt x) ∧
      t = { s with units := t.units } :=
  .intro rfl (if_pos ⟨h3, ht⟩) ⟨State.setUnit_unitSt s _ _, fun _ hx => State.setUnit_unitSt_ne s _ hx, rfl⟩

/-- Settles O14: each command is one update of its unit, entry to QUARANTINE after the reset of the unit's logic. -/
theorem lifecycleCompletes : Obligations.LifecycleCompletes := by
  unfold Obligations.LifecycleCompletes
  refine ⟨?drain, ?port, ?window, ?complete, ?timeout, ?bist, ?bistDone, ?admits, ?admitted⟩
  case drain => exact fun s w v => leads_drain
  case port => exact fun s w v => leads_drain_port
  case window => exact fun s u => leads_drainRetryWindowEnd
  case complete => exact fun s u => leads_drainComplete
  case timeout => exact fun s u => leads_drainTimeout
  case bist => exact fun s w v => leads_bist
  case bistDone => exact fun s u ok => leads_bistComplete ok
  case admits => exact fun s w v => leads_admitUnit
  case admitted => exact fun s u => leads_admittingEnd

end Sys2Proof.Machine
end

section
/-! PROOFS. Commands of the memories, of block transfers and atomics (spec/04_address_space_memory.md R114 to R149). -/

namespace Sys2Proof.Machine

variable {s : State}

/-- A bit that a command sets in the word that it writes. -/
theorem bit_or_true {v k : BitVec 32} {i : Nat} (h : bit k.toNat i = true) : bit (v ||| k).toNat i = true := by
  rw [bit_or, h, Bool.or_true]

/-! ### Reads and writes by global address -/

theorem memoryRead_memory {w : Who} {unit ga n code p : Nat} {ep : Option (Fin 256)} (hb : w.bar = false) (hn : 0 < n ∧ n ≤ 64)
    (hg : s.gaHere ga = true) (hh : gaHost ga = false) (ha : s.memAdmit w (s.stampAs ep (gaLocal ga)) (gaLocal ga) n false = (s, .ok, code, p))
    (hx : ¬ (code = 0x64 ∧ 0x12000 ≤ p - 0x4000000 ∧ p - 0x4000000 < 0x20000)) (hc : s.clean code p n) (hu : s.spanUnknown code p n = false) :
    s.memoryRead w unit ep ga n = s.answers .ok (leNat (s.getBytes p n)) (s.getBytes p n) := by
  have hr : s.busRead w (s.stampAs ep (gaLocal ga)) (gaLocal ga) n = (s, .ok, s.getBytes p n) := by
    rw [busRead_memory (memAdmit_place ha), localRead_clean ha hx hc hu]
  simp only [State.memoryRead, hb, hg, hh, hr, Bool.false_eq_true, if_false, if_true, if_neg (show ¬ (n = 0 ∨ 64 < n) by omega)]

theorem memoryWrite_memory {w : Who} {unit ga code p : Nat} {ep : Option (Fin 256)} {data : List Byte} (hb : w.bar = false)
    (hn : 0 < data.length ∧ data.length ≤ 64) (hg : s.gaHere ga = true) (hh : gaHost ga = false)
    (ha : s.memAdmit w (s.stampAs ep (gaLocal ga)) (gaLocal ga) data.length true = (s, .ok, code, p)) :
    s.memoryWrite w unit ep ga data =
      { (s.writeMem code p data w).1 with acks := (s.writeMem code p data w).1.acks ++ [((w.ini : Nat), (s.writeMem code p data w).2)] } := by
  have hr : s.busWrite w (s.stampAs ep (gaLocal ga)) (gaLocal ga) data = s.writeMem code p data w := by
    rw [busWrite_memory (memAdmit_place ha), localWrite_admitted ha]
  have hd : ¬ (data = [] ∨ 64 < data.length) := by
    rintro (rfl | h)
    · exact Nat.lt_irrefl 0 hn.1
    · omega
  simp only [State.memoryWrite, hb, hg, hh, hr, Bool.false_eq_true, if_false, if_true, if_neg hd]

theorem leads_memoryRead {s1 : State} {w : Who} {unit : Fin 256} {ep : Option (Fin 256)} {ga : BitVec 64} {n code p : Nat} {rs : List Reply}
    (hs : s1 = { s with replies := rs }) (hb : w.bar = false) (hn : 0 < n ∧ n ≤ 64) (hg : s.gaHere ga.toNat = true)
    (hh : gaHost ga.toNat = false) (ha : s1.memAdmit w (s1.stampAs ep (gaLocal ga.toNat)) (gaLocal ga.toNat) n false = (s1, .ok, code, p))
    (hx : ¬ (code = 0x64 ∧ 0x12000 ≤ p - 0x4000000 ∧ p - 0x4000000 < 0x20000))
    (hc : ∀ wa ∈ wordsOf (eccWord code) p n, tget 0 s.ecc wa = 0) (hu : s.spanUnknown code p n = false) :
    Leads s (.memoryRead w unit ep ga n rs) fun t => t.answer.st = .ok ∧ t.answer.data = s.getBytes p n ∧
      t.answer.value = leNat (s.getBytes p n) ∧ t = { s with answer := t.answer, replies := [] } := by
  have hget : s1.getBytes p n = s.getBytes p n := by rw [hs]; exact getBytes_congr fun _ _ _ => rfl
  have e := memoryRead_memory (unit := unit) hb hn (by rw [hs]; exact hg) hh ha hx (by rw [hs]; exact hc) (by rw [hs]; exact hu)
  rw [hget] at e
  subst hs
  exact .intro rfl (withReplies_eq e) ⟨rfl, rfl, rfl, rfl⟩

theorem leads_memoryWrite {w : Who} {unit : Fin 256} {ep : Option (Fin 256)} {ga : BitVec 64} {data : List Byte} {code p : Nat}
    (hb : w.bar = false) (hn : 0 < data.length ∧ data.length ≤ 64) (hg : s.gaHere ga.toNat = true) (hh : gaHost ga.toNat = false)
    (ha : s.memAdmit w (s.stampAs ep (gaLocal ga.toNat)) (gaLocal ga.toNat) data.length true = (s, .ok, code, p))
    (hc : ∀ wa ∈ wordsOf (eccWord code) p data.length, tget 0 s.ecc wa = 0) (hi : s.on R.MEM_INJ_CTRL_ARM = false) :
    Leads s (.memoryWrite w unit ep ga data) fun t =>
      (∀ b, t.getByte b = if p ≤ b ∧ b < p + data.length then data.getD (b - p) 0 else s.getByte b) ∧
      t.acks = s.acks ++ [((w.ini : Nat), .ok)] ∧ t.resv = s.resv.map (fun g => if g = p / 64 + 1 then 0 else g) ∧
      t = { s with mem := t.mem, ecc := t.ecc, wb := t.wb, resv := t.resv, units := t.units, acks := t.acks } := by
  obtain ⟨hok, hbytes, -, hresv, he⟩ := writeMem_clean (w := w) hc hi
  refine .intro rfl (memoryWrite_memory hb hn hg hh ha) ⟨hbytes, ?_, hresv, ?_⟩
  · rw [hok, he]
  · exact congrArg (fun t : State => { t with acks := (s.writeMem code p data w).1.acks ++ [((w.ini : Nat), (s.writeMem code p data w).2)] }) he

theorem tokFlush_none (h : s.tokWait = [none, none, none, none]) : s.tokFlush = s := by
  have hk : ∀ k ∈ List.range 4, s.tokWait.getD k none = none := by rw [h]; decide
  unfold State.tokFlush
  refine foldl_keep (fun t => t = s) _ _ ?_ rfl
  rintro t k hk' rfl
  rw [hk k hk']

theorem leads_writeAcknowledgement {ini : Fin 64} {st : Status} {l : List (Nat × Status)} (ha : s.acks = (ini.val, st) :: l)
    (hw : s.tokWait = [none, none, none, none]) : Leads s (.writeAcknowledgement ini) fun t =>
      t.acks = l ∧ t.answer.st = st ∧ t = { s with acks := t.acks, answer := t.answer } := by
  have e : s.writeAck ini = (({ s with acks := l } : State).answers st 0 []).tokFlush := by
    simp [State.writeAck, ha]
  exact .intro rfl (e.trans (tokFlush_none hw)) ⟨rfl, rfl, rfl⟩

theorem leads_zeroLengthReadComplete (fn : Fin 32) : Leads s (.zeroLengthReadComplete fn) fun t =>
    t.zlr = s.zlr.filter (fun p => p.1 != fn.val) ∧ t.msgs = s.msgs ++ (s.zlr.filter fun p => p.1 == fn.val).map (fun p => p.2) ∧
      t = { s with zlr := t.zlr, msgs := t.msgs, sqs := t.sqs } := by
  obtain ⟨q, e⟩ : ∃ q, s.zeroReadDone fn = { s with zlr := s.zlr.filter (fun p => p.1 != fn.val), msgs := s.msgs ++ (s.zlr.filter fun p => p.1 == fn.val).map (fun p => p.2), sqs := q } := by
    unfold State.zeroReadDone
    refine foldl_keep (fun t : State => ∃ q, t = { s with zlr := s.zlr.filter (fun p => p.1 != fn.val), msgs := s.msgs ++ (s.zlr.filter fun p => p.1 == fn.val).map (fun p => p.2), sqs := q }) _ _ ?_ ⟨s.sqs, rfl⟩
    rintro t q - ⟨l, rfl⟩
    split
    · exact ⟨_, rfl⟩
    · exact ⟨l, rfl⟩
  exact .intro rfl e ⟨rfl, rfl, rfl⟩

theorem leads_eccWriteBack {wa : BitVec 48} (hm : wa.toNat ∈ s.wb) (h1 : tget 0 s.ecc wa.toNat = 1) : Leads s (.eccWriteBack wa) fun t =>
    tget 0 t.ecc wa.toNat = 0 ∧ t.wb = s.wb.filter (· != wa.toNat) ∧ (∀ x, x ≠ wa.toNat → tget 0 t.ecc x = tget 0 s.ecc x) ∧
      t = { s with ecc := t.ecc, wb := t.wb } := by
  have e : s.writeBack wa.toNat = { s with wb := s.wb.filter (· != wa.toNat), ecc := tset 0 s.ecc wa.toNat 0 } := by
    rw [State.writeBack, if_pos hm, if_pos h1]
  exact .intro rfl e ⟨tget_tset_same 0 s.ecc _ 0, rfl, fun x hx => tget_tset_ne 0 s.ecc 0 hx, rfl⟩

/-- A scrub where no word holds an error moves every memory's line on and changes nothing else (R138). -/
theorem scrubAll_clean (skip : List Nat) (he : s.on R.MEM_SCRUB_EN = true) (hi : s.rd R.MEM_SCRUB_INTERVAL ≠ 0) (hc : s.ecc = []) :
    (∀ code < 0x65, tget 0 (s.scrubAll skip).scrub code = (tget 0 s.scrub code + 1) % ((memRange code).2 / 64)) ∧
      s.scrubAll skip = { s with scrub := (s.scrubAll skip).scrub } := by
  have h0 (t : State) (ht : t.ecc = []) (x : Nat) : tget 0 t.ecc x = 0 := by rw [ht]; rfl
  rw [State.scrubAll, if_pos (by simp [he, hi])]
  refine And.imp_left And.right (foldl_range_ind (fun (s : State) code => s.scrubLine code (skip.contains code)) (n := 0x65)
    (fun m (t : State) => ((∀ code, m ≤ code → tget 0 t.scrub code = tget 0 s.scrub code) ∧
      ∀ code < m, tget 0 t.scrub code = (tget 0 s.scrub code + 1) % ((memRange code).2 / 64)) ∧ t = { s with scrub := t.scrub })
    ?_ ⟨⟨fun _ _ => rfl, fun _ h => absurd h (Nat.not_lt_zero _)⟩, rfl⟩)
  rintro t m - ⟨⟨hge, hlt⟩, e⟩
  rw [scrubLine_clean (h0 t (by rw [e]; exact hc))]
  refine ⟨⟨fun code h => ?_, fun code h => ?_⟩, ?_⟩
  · rw [tget_tset_ne _ _ _ (by omega), hge code (by omega)]
  · by_cases hm : code = m
    · rw [hm, tget_tset_same, hge m le_rfl]
    · rw [tget_tset_ne _ _ _ hm, hlt code (by omega)]
  · rw [e]

theorem leads_scrubRead (skip : List (Fin 128)) (he : s.on R.MEM_SCRUB_EN = true) (hi : s.rd R.MEM_SCRUB_INTERVAL ≠ 0) (hc : s.ecc = []) :
    Leads s (.scrubRead skip) fun t => (∀ code < 0x65, tget 0 t.scrub code = (tget 0 s.scrub code + 1) % ((memRange code).2 / 64)) ∧
      t = { s with scrub := t.scrub } :=
  .intro rfl rfl (scrubAll_clean _ he hi hc)

/-! ### Atomics -/

/-- The requester of a management core's atomics (R133). -/
def amoWho (core : Fin 4) : Who := { ini := Fin.ofNat 64 (0x20 + core), cls := 1, remote := false }

/-- An aligned Windchest address of this chip, where the reads and writes that the operation needs are admitted. -/
theorem amo_admitted {core : Fin 4} {op : AmoOp} {ga n v code p : Nat} (hcode : 0x40 ≤ code ∧ code < 0x60) (hg : s.gaHere ga = true)
    (hh : gaHost ga = false) (hal : gaLocal ga % n = 0)
    (hr : op ≠ .sc → s.memAdmit (amoWho core) (s.stamp (gaLocal ga)) (gaLocal ga) n false = (s, .ok, code, p))
    (hw : op ≠ .lr → s.memAdmit (amoWho core) (s.stamp (gaLocal ga)) (gaLocal ga) n true = (s, .ok, code, p)) :
    s.amo core op ga n v = s.amoBank core (amoWho core) op code p n v := by
  have hp : placeOf (gaLocal ga) = .memory code p := by
    by_cases h : op = .sc
    · exact memAdmit_place (hw (by rw [h]; decide))
    · exact memAdmit_place (hr h)
  have hr' : (if op = .sc then (s, Status.ok, code, p) else s.memAdmit (amoWho core) (s.stamp (gaLocal ga)) (gaLocal ga) n false) = (s, .ok, code, p) := by
    split
    · rfl
    · next h => exact hr h
  have hw' : (if op = .lr then (s, Status.ok, code, p) else s.memAdmit (amoWho core) (s.stamp (gaLocal ga)) (gaLocal ga) n true) = (s, .ok, code, p) := by
    split
    · rfl
    · next h => exact hw h
  unfold amoWho at *
  unfold State.amo
  simp only [hp, hg, hh, hal, hr', hw']
  simp [show ¬ code < 0x40 by omega, show ¬ 0x60 ≤ code by omega]

theorem amoBank_lr {core : Fin 4} {w : Who} {code p n v : Nat} (hc : s.clean code p n) (hu : s.spanUnknown code p n = false) :
    s.amoBank core w .lr code p n v = (s.setResv core (p / 64 + 1)).answers .ok (leNat (s.getBytes p n)) (s.getBytes p n) := by
  simp [State.amoBank, readMem_clean hc hu]

theorem amoBank_sc_fails {core : Fin 4} {w : Who} {code p n v : Nat} (h : s.resv.getD core 0 ≠ p / 64 + 1) :
    s.amoBank core w .sc code p n v = (s.setResv core 0).answers .ok 1 [] := by
  simp only [State.amoBank, if_true]
  rw [if_neg (by simpa using h)]

/-- An operation other than LR and SC writes what it makes of the old value and returns that value. -/
theorem amoBank_op {core : Fin 4} {w : Who} {op : AmoOp} {code p n v : Nat} (hop : op ≠ .lr ∧ op ≠ .sc) (hc : s.clean code p n)
    (hu : s.spanUnknown code p n = false) : s.amoBank core w op code p n v =
      (s.writeMem code p (leBytes n (amoValue op n (leNat (s.getBytes p n)) (v % 2 ^ (8 * n)))) w).1.answers
        (s.writeMem code p (leBytes n (amoValue op n (leNat (s.getBytes p n)) (v % 2 ^ (8 * n)))) w).2 (leNat (s.getBytes p n)) (s.getBytes p n) := by
  simp [State.amoBank, hop, readMem_clean hc hu]

/-- Windchest memories have words of 8 bytes. -/
theorem eccWord_windchest {code : Nat} (h : 0x40 ≤ code ∧ code < 0x60) : eccWord code = 8 := if_neg (by omega)

section Amo

variable {core : Fin 4} {op : AmoOp} {ga v : BitVec 64} {wide : Bool} {code p n : Nat} (hn : n = if wide then 8 else 4)
  (hcode : 0x40 ≤ code ∧ code < 0x60) (hg : s.gaHere ga.toNat = true) (hh : gaHost ga.toNat = false) (hal : gaLocal ga.toNat % n = 0)
include hn hcode hg hh hal

theorem leads_amo (hop : op ≠ .lr ∧ op ≠ .sc)
    (hr : s.memAdmit (amoWho core) (s.stamp (gaLocal ga.toNat)) (gaLocal ga.toNat) n false = (s, .ok, code, p))
    (hw : s.memAdmit (amoWho core) (s.stamp (gaLocal ga.toNat)) (gaLocal ga.toNat) n true = (s, .ok, code, p))
    (hc : ∀ wa ∈ wordsOf 8 p n, tget 0 s.ecc wa = 0) (hu : s.spanUnknown code p n = false) (hi : s.on R.MEM_INJ_CTRL_ARM = false) :
    Leads s (.amo core op ga wide v) fun t => t.answer.st = .ok ∧ t.answer.value = leNat (s.getBytes p n) ∧
      (∀ b, t.getByte b = if p ≤ b ∧ b < p + n then (leBytes n (amoValue op n (leNat (s.getBytes p n)) (v.toNat % 2 ^ (8 * n)))).getD (b - p) 0 else s.getByte b) ∧
      t = { s with mem := t.mem, ecc := t.ecc, wb := t.wb, resv := t.resv, units := t.units, answer := t.answer } := by
  have hc' : s.clean code p n := by unfold State.clean; rw [eccWord_windchest hcode]; exact hc
  have e := (amo_admitted (v := v.toNat) hcode hg hh hal (fun _ => hr) (fun _ => hw)).trans (amoBank_op hop hc' hu)
  generalize hd : leBytes n (amoValue op n (leNat (s.getBytes p n)) (v.toNat % 2 ^ (8 * n))) = data at e ⊢
  have hlen : data.length = n := by rw [← hd, leBytes_length]
  obtain ⟨hok, hbytes, -, -, hs⟩ := writeMem_clean (w := amoWho core) (data := data) (hlen ▸ hc') hi
  rw [hlen] at hbytes
  refine .intro (congrArg (fun k => Host.Outcome.next (s.amo core op ga.toNat k v.toNat)) hn.symm) e ⟨hok, rfl, hbytes, ?_⟩
  exact congrArg (State.answers · _ _ _) hs

theorem leads_amo_lr (hr : s.memAdmit (amoWho core) (s.stamp (gaLocal ga.toNat)) (gaLocal ga.toNat) n false = (s, .ok, code, p))
    (hc : ∀ wa ∈ wordsOf 8 p n, tget 0 s.ecc wa = 0) (hu : s.spanUnknown code p n = false) : Leads s (.amo core .lr ga wide v) fun t =>
      t.answer.st = .ok ∧ t.answer.value = leNat (s.getBytes p n) ∧ t = { s with resv := s.resv.set core (p / 64 + 1), answer := t.answer } := by
  have hc' : s.clean code p n := by unfold State.clean; rw [eccWord_windchest hcode]; exact hc
  have e := (amo_admitted (v := v.toNat) hcode hg hh hal (fun _ => hr) (fun h => absurd rfl h)).trans (amoBank_lr hc' hu)
  exact .intro (congrArg (fun k => Host.Outcome.next (s.amo core .lr ga.toNat k v.toNat)) hn.symm) e ⟨rfl, rfl, rfl⟩

theorem leads_amo_sc (hw : s.memAdmit (amoWho core) (s.stamp (gaLocal ga.toNat)) (gaLocal ga.toNat) n true = (s, .ok, code, p))
    (hres : s.resv.getD core 0 ≠ p / 64 + 1) : Leads s (.amo core .sc ga wide v) fun t =>
      t.answer.st = .ok ∧ t.answer.value = 1 ∧ t = { s with resv := s.resv.set core 0, answer := t.answer } := by
  have e := (amo_admitted (v := v.toNat) hcode hg hh hal (fun h => absurd rfl h) (fun _ => hw)).trans (amoBank_sc_fails hres)
  exact .intro (congrArg (fun k => Host.Outcome.next (s.amo core .sc ga.toNat k v.toNat)) hn.symm) e ⟨rfl, rfl, rfl⟩

end Amo

/-! ### Zeroing and the counters -/

/-- GO on a code that may be zeroed, with none being zeroed (R140). -/
theorem memZeroGo_starts {code : Nat} (hz : s.zeroing = 0) (ha : s.zeroAllowed code = true) : ∃ us,
    s.memZeroGo code = State.wr { s with zeroing := code + 1, units := us } R.MEM_ZERO_BUSY 1 := by
  rw [State.memZeroGo, if_neg (by simp [hz, ha])]
  dsimp only
  split
  · exact ⟨s.units, rfl⟩
  · exact ⟨_, rfl⟩

/-- What a write of MEM_ZERO sets before GO: UNIT and IRQ_EN, DONE and REJ cleared by 1. -/
def State.memZeroFields (s : State) (w : Nat) : State :=
  let s1 := s.wrAll [(R.MEM_ZERO_UNIT, bits w 0 8), (R.MEM_ZERO_IRQ_EN, b2n (bit w 12))]
  let s2 := if bit w 10 then s1.wr R.MEM_ZERO_DONE 0 else s1
  if bit w 11 then s2.wr R.MEM_ZERO_REJ 0 else s2

theorem writeMemZero_go {w : Nat} (h : bit w 8 = true) : s.writeMemZero w = (s.memZeroFields w).memZeroGo (bits w 0 8) := by
  simp only [State.writeMemZero, h, if_true, State.memZeroFields]

theorem memZeroFields_eq (w : Nat) : s.memZeroFields w = { s with regs := (s.memZeroFields w).regs } ∧
    RegsBut [R.MEM_ZERO_UNIT, R.MEM_ZERO_IRQ_EN, R.MEM_ZERO_DONE, R.MEM_ZERO_REJ] s (s.memZeroFields w) ∧
    (s.memZeroFields w).rd R.MEM_ZERO_UNIT = bits w 0 8 := by
  have hu : (s.wrAll [(R.MEM_ZERO_UNIT, bits w 0 8), (R.MEM_ZERO_IRQ_EN, b2n (bit w 12))]).rd R.MEM_ZERO_UNIT = bits w 0 8 := by
    rw [State.wrAll, State.wrAll, State.wrAll, State.rd_wr_ne _ _ (by decide), State.rd_wr_same]; exact bits_mod w 0 8
  have hf : RegsBut [R.MEM_ZERO_UNIT, R.MEM_ZERO_IRQ_EN, R.MEM_ZERO_DONE, R.MEM_ZERO_REJ] s
      (s.wrAll [(R.MEM_ZERO_UNIT, bits w 0 8), (R.MEM_ZERO_IRQ_EN, b2n (bit w 12))]) := by simp [State.wrAll]
  unfold State.memZeroFields
  dsimp only
  split <;> split
  · exact ⟨rfl, by simp [hf], by rw [State.rd_wr_ne _ _ (by decide), State.rd_wr_ne _ _ (by decide), hu]⟩
  · exact ⟨rfl, by simp [hf], by rw [State.rd_wr_ne _ _ (by decide), hu]⟩
  · exact ⟨rfl, by simp [hf], by rw [State.rd_wr_ne _ _ (by decide), hu]⟩
  · exact ⟨rfl, hf, hu⟩

/-- A code may be zeroed or not whatever MEM_ZERO holds. -/
theorem memZeroFields_allowed (w code : Nat) : (s.memZeroFields w).zeroAllowed code = s.zeroAllowed code := by
  obtain ⟨e, hf, -⟩ := memZeroFields_eq (s := s) w
  have hon (k : Nat) (hk : k = 0x44 ∨ k = 0x45) : (s.memZeroFields w).on (R.SEQ_CTRL_ENABLE (win k)) = s.on (R.SEQ_CTRL_ENABLE (win k)) :=
    hf.on (by rcases hk with rfl | rfl <;> decide)
  have hu (k : Nat) : (s.memZeroFields w).isUnit k = s.isUnit k := by
    simp only [State.isUnit, State.tileOn, hf.rd (show R.ID_TILE_MAP_LO_TILE_MAP.key ∉ _ by decide), hf.rd (show R.ID_TILE_MAP_HI_TILE_MAP.key ∉ _ by decide)]
  have hx : (s.memZeroFields w).unitSt code = s.unitSt code := by rw [e]; rfl
  simp only [State.zeroAllowed, hon 0x44 (.inl rfl), hon 0x45 (.inr rfl), hu, hx]

theorem leads_memZeroGo {w : Who} {v : BitVec 32} (h : s.takes w 0x4050 (v ||| 0x100).toNat) (hz : s.zeroing = 0)
    (ha : s.zeroAllowed (bits v.toNat 0 8) = true) : Leads s (.memZeroGo w v) fun t =>
      t.on R.MEM_ZERO_BUSY ∧ t.rd R.MEM_ZERO_UNIT = bits v.toNat 0 8 ∧ t.zeroing = bits v.toNat 0 8 + 1 ∧ t.answer.st = .ok ∧
      RegsBut [R.MEM_ZERO_UNIT, R.MEM_ZERO_IRQ_EN, R.MEM_ZERO_DONE, R.MEM_ZERO_REJ, R.MEM_ZERO_BUSY] s t ∧
      t = { s with regs := t.regs, zeroing := t.zeroing, units := t.units, answer := t.answer } := by
  have hbit : bit (v ||| 0x100).toNat 8 = true := bit_or_true (by decide)
  have hcode : bits (v ||| 0x100).toNat 0 8 = bits v.toNat 0 8 := bits_or _ _ _ _ (by decide)
  obtain ⟨hs, hf, hu⟩ := memZeroFields_eq (s := s) (v ||| 0x100).toNat
  obtain ⟨us, e⟩ := memZeroGo_starts (s := s.memZeroFields (v ||| 0x100).toNat) (code := bits v.toNat 0 8) (by rw [hs]; exact hz)
    ((memZeroFields_allowed _ _).trans ha)
  have hw := writeReg_MEM_ZERO h
  rw [bv32_mod, writeMemZero_go hbit, hcode, e] at hw
  refine .intro rfl hw ⟨?_, ?_, rfl, rfl, ?_, ?_⟩
  · simp [R.MEM_ZERO_BUSY]
  · rw [State.answers_rd, State.rd_wr_ne _ _ (by decide)]; exact hu.trans hcode
  · rw [regsBut_answers, regsBut_wr (by simp)]
    exact (hf.mono (by simp)).of_regs rfl
  · rw [hs]; rfl

/-- The registers and the unit that the end of zeroing leaves. -/
theorem zeroingDone_eq {code : Nat} (hz : s.zeroing = code + 1) : ∃ us : List (Nat × UnitSt),
    s.zeroingDone = (State.wr { s.zeroMem code with zeroing := 0, units := us } R.MEM_ZERO_BUSY 0).wr R.MEM_ZERO_DONE 1 ∧
    (code ≠ 0x64 → (State.unitSt { s with units := us } code).zeroed = true ∧ (State.unitSt { s with units := us } code).zeroing = false ∧
      (State.unitSt { s with units := us } code).dirty = false) := by
  unfold State.zeroingDone
  rw [hz]
  dsimp only
  split
  · next h => exact ⟨_, rfl, fun hn => absurd h hn⟩
  · let x : UnitSt := { (s.zeroMem code).unitSt code with zeroing := false, zeroed := true, dirty := false }
    have hx : State.unitSt { s with units := ((s.zeroMem code).setUnit code x).units } code = x := State.setUnit_unitSt (s.zeroMem code) code x
    exact ⟨((s.zeroMem code).setUnit code x).units, rfl, fun _ => ⟨congrArg UnitSt.zeroed hx, congrArg UnitSt.zeroing hx, congrArg UnitSt.dirty hx⟩⟩

theorem leads_zeroingDone {code : Nat} (hz : s.zeroing = code + 1) (hc : code < 0x65) : Leads s .zeroingDone fun t => t.zeroing = 0 ∧
    t.on R.MEM_ZERO_BUSY = false ∧ t.on R.MEM_ZERO_DONE ∧
    (code ≠ 0x64 → (t.unitSt code).zeroed ∧ (t.unitSt code).zeroing = false ∧ (t.unitSt code).dirty = false) ∧
    (∀ b, memCode b = code → t.getByte b = 0) ∧ (∀ b, memCode b ≠ code → memCode b ≠ 0x66 → t.getByte b = s.getByte b) ∧
    RegsBut [R.MEM_ZERO_BUSY, R.MEM_ZERO_DONE] s t := by
  obtain ⟨us, e, hu⟩ := zeroingDone_eq hz
  obtain ⟨hin, hout⟩ := getByte_zeroMem s code (by omega)
  have hr : (s.zeroMem code).regs = s.regs := by unfold State.zeroMem; split <;> rfl
  refine .intro rfl e ⟨rfl, ?_, ?_, hu, hin, hout, ?_⟩
  · rw [State.on_wr_ne _ _ (by decide), State.on_wr_same]; rfl
  · rw [State.on_wr_same]; rfl
  · rw [regsBut_wr (by simp), regsBut_wr (by simp)]
    exact (RegsBut.refl _ s).of_regs hr

theorem leads_memCntClr {w : Who} {v : BitVec 32} (h : s.takes w 0x4030 (v ||| 1).toNat) : Leads s (.memCntClr w v) fun t =>
    t.rd R.MEM_CNT1_CE_CNT = 0 ∧ t.rd R.MEM_CNT1_UE_CNT = 0 ∧ t.rd R.MEM_CNT2_POISON_CNT = 0 ∧ t.rd R.MEM_CNT2_MAP_CNT = 0 ∧ t.answer.st = .ok ∧
    RegsBut [R.MEM_CNT1_CE_CNT, R.MEM_CNT1_UE_CNT, R.MEM_CNT2_POISON_CNT, R.MEM_CNT2_MAP_CNT] s t ∧ t = { s with regs := t.regs, answer := t.answer } := by
  have hbit : bit ((v ||| 1).toNat % 2 ^ 32) 0 = true := by rw [bv32_mod]; exact bit_or_true (by decide)
  have hw := writeReg_MEM_CNT_CTRL h
  rw [hbit, State.when, if_pos rfl, State.memCntClr] at hw
  refine .intro rfl hw ⟨?_, ?_, ?_, ?_, rfl, ?_, rfl⟩
  · simp (disch := decide) [State.wrAll, State.rd_wr_ne]
  · simp (disch := decide) [State.wrAll, State.rd_wr_ne]
  · simp (disch := decide) [State.wrAll, State.rd_wr_ne]
  · simp [State.wrAll]
  · simp [State.wrAll]

/-! ### Block transfers -/

/-- A row whose block has been read moves its bytes by `transferBlk` and reports how they fared (R120, R125). -/
theorem copyFill_moves {op u c : Nat} {l : List Byte} {b : CopyBlk} {w : Who} {sga dga : Nat} {x : State} (hw : w = s.rowWho u c (rowClass (s.ctx u c).row))
    (hp : s.copyParam u c w = (s, .ok, l)) (hb : b = copyBlk l)
    (hs : sga = gaAdd (s.copyGa b.src b.srcHere) (s.rd (R.CTX_PC_ITER (win u) c) * b.srcIter))
    (hd : dga = gaAdd (s.copyGa b.dst b.dstHere) (s.rd (R.CTX_PC_ITER (win u) c) * b.dstIter)) (hh : gaHost dga = false)
    {n : Nat} (ht : transferBlk s op w b sga dga = ⟨x, .ok, n⟩) : s.copyFill op u c = x.report_ u c .ok 0 := by
  subst hb hs hd
  unfold State.copyFill
  dsimp only
  rw [← hw, hp]
  dsimp only
  rw [ht, hh, Bool.and_false]
  rfl

theorem gaWrite_memory {w : Who} {ga code p : Nat} {data : List Byte} (hg : s.gaHere ga = true) (hh : gaHost ga = false)
    (ha : s.memAdmit w (s.stamp (gaLocal ga)) (gaLocal ga) data.length true = (s, .ok, code, p)) : s.gaWrite w ga data = s.writeMem code p data w := by
  rw [State.gaWrite, hg, hh]
  exact (busWrite_memory (memAdmit_place ha)).trans (localWrite_admitted ha)

/-- Bytes none of which is poisoned go out as an ordinary write. -/
theorem copyWrite_sound {w : Who} {ga : Nat} (data : List Byte) : s.copyWrite w ga (data.map fun b => (b, false)) = s.gaWrite w ga data := by
  simp [State.copyWrite, Function.comp_def]

theorem copyBlk_len_pos (l : List Byte) : 0 < (copyBlk l).len := Nat.succ_pos _

theorem take_ok {t x : State} {n m : Nat} : CopyRun.take ⟨t, .ok, n⟩ (x, .ok) m = ⟨x, .ok, n + m⟩ := by
  simp [CopyRun.take, worse_ok]

/-- A copy of one line within one line of 64 bytes at either end: one read and one write (R123, R125). -/
theorem transferBlk_copy {w : Who} {b : CopyBlk} {sga dga code p code' p' : Nat} {d e : Nat × Int} (hsg : sga = gaAdd d.1 d.2) (hdg : dga = gaAdd e.1 e.2)
    (hlen : 0 < b.len) (hl : b.lines = 1) (hcut : gaLocal sga % 64 + b.len ≤ 64 ∧ gaLocal dga % 64 + b.len ≤ 64)
    (hh : s.gaHere sga = true ∧ gaHost sga = false ∧ s.gaHere dga = true ∧ gaHost dga = false)
    (ha : s.memAdmit w (s.stamp (gaLocal sga)) (gaLocal sga) b.len false = (s, .ok, code, p))
    (ha' : s.memAdmit w (s.stamp (gaLocal dga)) (gaLocal dga) b.len true = (s, .ok, code', p'))
    (hx : ¬ (code = 0x64 ∧ 0x12000 ≤ p - 0x4000000 ∧ p - 0x4000000 < 0x20000)) (hc : s.clean code p b.len) (hc' : s.clean code' p' b.len)
    (hu : s.spanUnknown code p b.len = false) (hi : s.on R.MEM_INJ_CTRL_ARM = false) :
    transferBlk s 1 w b sga dga = ⟨(s.writeMem code' p' (s.getBytes p b.len) w).1.drawn, .ok, b.len⟩ := by
  obtain ⟨hs1, hs2, hd1, hd2⟩ := hh
  have hs0 : gaAdd sga 0 = sga := by rw [hsg, gaAdd_zero]
  have hd0 : gaAdd dga 0 = dga := by rw [hdg, gaAdd_zero]
  have hlen' : (s.getBytes p b.len).length = b.len := getBytes_length s p b.len
  have hr (k : Nat) : State.copyRead s s w sga b.len k = (s, .ok, (s.getBytes p b.len).map fun b => (b, false)) := copyRead_clean hs1 hs2 ha hx hc hu
  have hwr : s.copyWrite w dga ((s.getBytes p b.len).map fun b => (b, false)) = ((s.writeMem code' p' (s.getBytes p b.len) w).1, .ok) := by
    rw [copyWrite_sound, gaWrite_memory hd1 hd2 (by rw [hlen']; exact ha'), ← (writeMem_clean (w := w) (hlen'.symm ▸ hc') hi).1]
  have htake : List.take b.len ((s.getBytes p b.len).map fun b => (b, false)) = (s.getBytes p b.len).map fun b => (b, false) := by
    rw [List.take_of_length_le]; rw [List.length_map, hlen']
  have hany : ((s.getBytes p b.len).map fun b => (b, false)).any (fun b => b.2) = false := by simp [Function.comp_def]
  simp only [transferBlk, if_true, hl, copyLines, Nat.cast_zero, zero_mul, hs0, hd0, lineCuts_one hlen hcut.1, copyLine, List.foldl_cons,
    List.foldl_nil, CopyRun.stops, hr, copyPiece, hany, lineCuts_one hlen hcut.2, copyOut, List.drop_zero, htake, CopyRun.close]
  simp [hwr, take_ok]

theorem fillBytes_length (pattern : List Byte) (a n : Nat) : (fillBytes pattern a n).length = n := by simp [fillBytes]

theorem fillBytes_getD (pattern : List Byte) {a n i : Nat} (h : i < n) : (fillBytes pattern a n).getD i 0 = pattern.getD ((a + i) % 8) 0 := by
  simp [fillBytes, h]

/-- A fill of one line within one line of 64 bytes: one write of the pattern (R122). -/
theorem transferBlk_fill {w : Who} {b : CopyBlk} {sga dga code' p' : Nat} {e : Nat × Int} (hdg : dga = gaAdd e.1 e.2) (hlen : 0 < b.len) (hl : b.lines = 1)
    (hcut : gaLocal dga % 64 + b.len ≤ 64) (hh : s.gaHere dga = true ∧ gaHost dga = false)
    (ha' : s.memAdmit w (s.stamp (gaLocal dga)) (gaLocal dga) b.len true = (s, .ok, code', p')) (hc' : s.clean code' p' b.len)
    (hi : s.on R.MEM_INJ_CTRL_ARM = false) :
    transferBlk s 2 w b sga dga = ⟨(s.writeMem code' p' (fillBytes b.pattern (gaLocal dga) b.len) w).1, .ok, b.len⟩ := by
  obtain ⟨hd1, hd2⟩ := hh
  have hd0 : gaAdd dga 0 = dga := by rw [hdg, gaAdd_zero]
  have hlen' := fillBytes_length b.pattern (gaLocal dga) b.len
  have hwr : s.gaWrite w dga (fillBytes b.pattern (gaLocal dga) b.len) = ((s.writeMem code' p' (fillBytes b.pattern (gaLocal dga) b.len) w).1, .ok) := by
    rw [gaWrite_memory hd1 hd2 (by rw [hlen']; exact ha'), ← (writeMem_clean (w := w) (hlen'.symm ▸ hc') hi).1]
  simp only [transferBlk, hl, fillLines, Nat.cast_zero, zero_mul, hd0, lineCuts_one hlen hcut, fillLine, CopyRun.stops]
  simp [hwr, take_ok]

theorem leads_copy {s1 : State} {u : Fin 128} {c : Fin 16} {rs : List Reply} {w : Who} {l : List Byte} {sga dga code p code' p' : Nat}
    (hs1 : s1 = { s with replies := rs }) (hrun : s.copyRuns 1 u c = true) (hw : w = s.rowWho u c (rowClass (s.ctx u c).row))
    (hp : s1.copyParam u c w = (s1, .ok, l)) (hl : (copyBlk l).lines = 1 ∧ (copyBlk l).len ≤ 64)
    (hsg : sga = gaAdd (s.copyGa (copyBlk l).src (copyBlk l).srcHere) (s.rd (R.CTX_PC_ITER (win u) c) * (copyBlk l).srcIter))
    (hdg : dga = gaAdd (s.copyGa (copyBlk l).dst (copyBlk l).dstHere) (s.rd (R.CTX_PC_ITER (win u) c) * (copyBlk l).dstIter))
    (hcut : gaLocal sga % 64 + (copyBlk l).len ≤ 64 ∧ gaLocal dga % 64 + (copyBlk l).len ≤ 64)
    (hh : s.gaHere sga = true ∧ gaHost sga = false ∧ s.gaHere dga = true ∧ gaHost dga = false)
    (ha : s1.memAdmit w (s1.stamp (gaLocal sga)) (gaLocal sga) (copyBlk l).len false = (s1, .ok, code, p))
    (ha' : s1.memAdmit w (s1.stamp (gaLocal dga)) (gaLocal dga) (copyBlk l).len true = (s1, .ok, code', p'))
    (hx : ¬ (code = 0x64 ∧ 0x12000 ≤ p - 0x4000000 ∧ p - 0x4000000 < 0x20000))
    (hc : ∀ wa ∈ wordsOf (eccWord code) p (copyBlk l).len, tget 0 s.ecc wa = 0)
    (hc' : ∀ wa ∈ wordsOf (eccWord code') p' (copyBlk l).len, tget 0 s.ecc wa = 0) (hu : s.spanUnknown code p (copyBlk l).len = false)
    (hi : s.on R.MEM_INJ_CTRL_ARM = false) : Leads s (.copy u c rs) fun t => (t.ctx u c).result = some (.ok, 0) ∧
      (∀ b, t.getByte b = if p' ≤ b ∧ b < p' + (copyBlk l).len then s.getByte (p + (b - p')) else s.getByte b) ∧
      t = { s with mem := t.mem, ecc := t.ecc, wb := t.wb, resv := t.resv, units := t.units, ctxs := t.ctxs, freeCtr := s.freeCtr + 1, replies := [] } := by
  have hbyte (b : Nat) : s1.getByte b = s.getByte b := by rw [hs1]; rfl
  have hlen' : (s1.getBytes p (copyBlk l).len).length = (copyBlk l).len := getBytes_length ..
  have ht := transferBlk_copy (s := s1) (b := copyBlk l) (d := (_, _)) (e := (_, _)) hsg hdg (copyBlk_len_pos l) hl.1 hcut (by rw [hs1]; exact hh) ha ha' hx
    (by rw [hs1]; exact hc) (by rw [hs1]; exact hc') (by rw [hs1]; exact hu) (by rw [hs1]; exact hi)
  have e := copyFill_moves (s := s1) (u := u) (c := c) (by rw [hs1]; exact hw) hp rfl (by rw [hs1]; exact hsg) (by rw [hs1]; exact hdg) hh.2.2.2 ht
  obtain ⟨-, hbytes, -, -, hs⟩ := writeMem_clean (s := s1) (w := w) (data := s1.getBytes p (copyBlk l).len) (by rw [hlen', hs1]; exact hc') (by rw [hs1]; exact hi)
  generalize (s1.writeMem code' p' (s1.getBytes p (copyBlk l).len) w).1 = x at e hbytes hs
  rw [hlen'] at hbytes
  subst hs1
  refine .intro (congrArg Host.Outcome.next (if_pos hrun)) (withReplies_eq e) ⟨?_, fun b => ?_, ?_⟩
  · exact congrArg CtxInt.result (State.setCtx_ctx x.drawn u c _)
  · refine (hbytes b).trans ?_
    split
    · next h => rw [getBytes_getD _ _ _ _ (by omega), hbyte]
    · rfl
  · rw [hs]; rfl

theorem leads_fill {s1 : State} {u : Fin 128} {c : Fin 16} {rs : List Reply} {w : Who} {l : List Byte} {dga code' p' : Nat}
    (hs1 : s1 = { s with replies := rs }) (hrun : s.copyRuns 2 u c = true) (hw : w = s.rowWho u c (rowClass (s.ctx u c).row))
    (hp : s1.copyParam u c w = (s1, .ok, l)) (hl : (copyBlk l).lines = 1 ∧ (copyBlk l).len ≤ 64)
    (hdg : dga = gaAdd (s.copyGa (copyBlk l).dst (copyBlk l).dstHere) (s.rd (R.CTX_PC_ITER (win u) c) * (copyBlk l).dstIter))
    (hcut : gaLocal dga % 64 + (copyBlk l).len ≤ 64) (hh : s.gaHere dga = true ∧ gaHost dga = false)
    (ha' : s1.memAdmit w (s1.stamp (gaLocal dga)) (gaLocal dga) (copyBlk l).len true = (s1, .ok, code', p'))
    (hc' : ∀ wa ∈ wordsOf (eccWord code') p' (copyBlk l).len, tget 0 s.ecc wa = 0) (hi : s.on R.MEM_INJ_CTRL_ARM = false) :
    Leads s (.fill u c rs) fun t => (t.ctx u c).result = some (.ok, 0) ∧
      (∀ b, t.getByte b = if p' ≤ b ∧ b < p' + (copyBlk l).len then (copyBlk l).pattern.getD ((gaLocal dga + (b - p')) % 8) 0 else s.getByte b) ∧
      t = { s with mem := t.mem, ecc := t.ecc, wb := t.wb, resv := t.resv, units := t.units, ctxs := t.ctxs, replies := [] } := by
  have hbyte (b : Nat) : s1.getByte b = s.getByte b := by rw [hs1]; rfl
  have hlen' := fillBytes_length (copyBlk l).pattern (gaLocal dga) (copyBlk l).len
  have ht := transferBlk_fill (s := s1) (b := copyBlk l) (sga := gaAdd (s.copyGa (copyBlk l).src (copyBlk l).srcHere) (s.rd (R.CTX_PC_ITER (win u) c) * (copyBlk l).srcIter)) (e := (_, _)) hdg (copyBlk_len_pos l) hl.1 hcut (by rw [hs1]; exact hh) ha'
    (by rw [hs1]; exact hc') (by rw [hs1]; exact hi)
  have e := copyFill_moves (s := s1) (u := u) (c := c) (by rw [hs1]; exact hw) hp rfl (by rw [hs1]; rfl) (by rw [hs1]; exact hdg) hh.2 ht
  obtain ⟨-, hbytes, -, -, hs⟩ := writeMem_clean (s := s1) (w := w) (data := fillBytes (copyBlk l).pattern (gaLocal dga) (copyBlk l).len)
    (by rw [hlen', hs1]; exact hc') (by rw [hs1]; exact hi)
  generalize (s1.writeMem code' p' (fillBytes (copyBlk l).pattern (gaLocal dga) (copyBlk l).len) w).1 = x at e hbytes hs
  rw [hlen'] at hbytes
  subst hs1
  refine .intro (congrArg Host.Outcome.next (if_pos hrun)) (withReplies_eq e) ⟨?_, fun b => ?_, ?_⟩
  · exact congrArg CtxInt.result (State.setCtx_ctx x u c _)
  · refine (hbytes b).trans ?_
    split
    · next h => rw [fillBytes_getD _ (by omega)]
    · rfl
  · rw [hs]; rfl

/-- Settles O15: reads and writes of memories that hold no error, and what atomics, zeroing and block transfers make of them. -/
theorem memoryCompletes : Obligations.MemoryCompletes := by
  unfold Obligations.MemoryCompletes
  refine ⟨?read, ?write, ?ack, ?zlr, ?back, ?scrub, ?amo, ?lr, ?sc, ?zero, ?zeroed, ?cnt, ?copy, ?fill⟩
  case read => exact fun s s1 w unit ep ga n code p rs => leads_memoryRead
  case write => exact fun s w unit ep ga data code p => leads_memoryWrite
  case ack => exact fun s ini st l => leads_writeAcknowledgement
  case zlr => exact fun s fn => leads_zeroLengthReadComplete fn
  case back => exact fun s wa => leads_eccWriteBack
  case scrub => exact fun s skip => leads_scrubRead skip
  case amo => exact fun s core op ga wide v code p n hn hop hcode hg hh hal hr hw hc hu hi => leads_amo hn hcode hg hh hal hop hr hw hc hu hi
  case lr => exact fun s core ga wide v code p n => leads_amo_lr
  case sc => exact fun s core ga wide v code p n => leads_amo_sc
  case zero => exact fun s w v => leads_memZeroGo
  case zeroed => exact fun s code => leads_zeroingDone
  case cnt => exact fun s w v => leads_memCntClr
  case copy => exact fun s s1 u c rs w l sga dga code p code' p' => leads_copy
  case fill => exact fun s s1 u c rs w l dga code' p' => leads_fill

end Sys2Proof.Machine
end

section
/-! PROOFS. Commands of the thread contexts and of the rows of sequencers (R77, R101 to R103, R825 of
spec/03_tables_tokens_threads.md). -/

namespace Sys2Proof.Machine

variable {s : State} {w : Who} {u : Fin 128} {b : Nat} {c : Fin 16} {v : BitVec 32}

/-! ### START, STEP, HALT and CLEAR -/

/-- What START and STEP leave in a context of a sequencer with the ABI of the part (R77). -/
theorem ctxStart_eq (u c : Nat) (step : Bool) (ha : s.rd (R.SEQ_CTRL_ABI (win u)) = 2) :
    (s.ctxStart u c step).ctxState u c = 1 ∧ (s.ctxStart u c step).rd (R.CTX_STAT_CAUSE (win u) c) = 0 ∧
    (s.ctxStart u c step).ctx u c = { s.ctx u c with passing := (s.ctx u c).brkPass, brkPass := false, pendStep := step, pendHalt := false, exec := false, result := none, arrived := s.now, asked := false, granted := false } ∧
    RegsBut [R.CTX_STAT_STATE (win u) c, R.CTX_STAT_CAUSE (win u) c] s (s.ctxStart u c step) ∧
    s.ctxStart u c step = { s with regs := (s.ctxStart u c step).regs, ctxs := (s.ctxStart u c step).ctxs } := by
  rw [State.ctxStart, if_neg (not_not.2 ha)]
  refine ⟨?_, ?_, ?_, ?_, rfl⟩
  · simp (disch := (simp only [R.CTX_STAT_STATE, R.CTX_STAT_CAUSE]; omega)) [State.ctxArrive, State.ctxState, State.wrAll, State.rd_wr_ne, R.CTX_STAT_STATE]
  · simp [State.ctxArrive, State.wrAll]
  · simp [State.ctxArrive, State.wrAll]
  · simp [State.ctxArrive, State.wrAll]

/-- What a halt with a cause leaves (R77). -/
theorem ctxHalt_eq (u c cause : Nat) :
    (s.ctxHalt u c cause).ctxState u c = 3 ∧ (s.ctxHalt u c cause).rd (R.CTX_STAT_CAUSE (win u) c) = cause % 2 ^ 3 ∧
    (s.ctxHalt u c cause).ctx u c = { s.ctx u c with exec := false, result := none, asked := false, granted := false, pendHalt := false, pendStep := false, passing := false, brkPass := cause == 3 } ∧
    RegsBut [R.CTX_STAT_STATE (win u) c, R.CTX_STAT_CAUSE (win u) c] s (s.ctxHalt u c cause) ∧
    s.ctxHalt u c cause = { s with regs := (s.ctxHalt u c cause).regs, ctxs := (s.ctxHalt u c cause).ctxs } := by
  refine ⟨?_, ?_, ?_, ?_, rfl⟩
  · simp (disch := (simp only [R.CTX_STAT_STATE, R.CTX_STAT_CAUSE]; omega)) [State.ctxHalt, State.ctxState, State.wrAll, State.rd_wr_ne]; rfl
  · simp [State.ctxHalt, State.wrAll]
    rfl
  · simp [State.ctxHalt, State.wrAll]
  · simp [State.ctxHalt, State.wrAll]

/-- The registers of a Selector lie outside the windows of the sequencers. -/
theorem selStat_outside {o : Nat} (hb : windowOf u = some b) (ho : o < 0x20000) :
    b * 8 + o ≠ (R.SEL_STAT_CHAIN_HELD u).key ∧ b * 8 + o ≠ (R.SEL_STAT_HELD_CTX u).key := by
  unfold windowOf at hb
  simp only [R.SEL_STAT_CHAIN_HELD, R.SEL_STAT_HELD_CTX]
  split_ifs at hb <;> (cases hb; omega)

/-- What CLEAR leaves of a context that is HALTED or in ERROR (R77). -/
theorem ctxClearCmd_eq (hb : windowOf u = some b) (h : s.ctxState u c = 3 ∨ s.ctxState u c = 4) :
    (s.ctxClearCmd u c).ctxState u c = 0 ∧ (s.ctxClearCmd u c).rd (R.CTX_PC_ITER b c) = 0 ∧ (s.ctxClearCmd u c).rd (R.CTX_STAT_CODE b c) = 0 ∧
    (s.ctxClearCmd u c).rd (R.CTX_STAT_CAUSE b c) = 0 ∧ (s.ctxClearCmd u c).ctx u c = {} ∧
    (∀ x, x ≠ u.val → (s.ctxClearCmd u c).tile x = s.tile x) ∧
    s.ctxClearCmd u c = { s with regs := (s.ctxClearCmd u c).regs, ctxs := (s.ctxClearCmd u c).ctxs, tiles := (s.ctxClearCmd u c).tiles } := by
  obtain rfl := win_eq hb
  rw [State.ctxClearCmd, if_pos h]
  dsimp only
  generalize hs : State.setCtx _ u c {} = s1
  obtain ⟨hr, ht, he⟩ := dropChain_eq s1 u c _ hb
  have hkeep (f : Fld) (hf : ∃ o < 0x20000, f.key = win u * 8 + o) : (s1.dropChain u c).rd f = s1.rd f := by
    obtain ⟨o, ho, hk⟩ := hf
    exact hr.rd (by rw [hk]; simpa using selStat_outside hb ho)
  refine ⟨?_, ?_, ?_, ?_, ?_, fun x hx => ?_, ?_⟩
  · rw [State.ctxState, hkeep _ ⟨(0x108 + 0x10 * c) * 8, by omega, by simp only [R.CTX_STAT_STATE]; omega⟩, ← hs]
    simp (disch := (simp only [R.CTX_STAT_STATE, R.CTX_STAT_CAUSE, R.CTX_STAT_CODE, R.CTX_PC_ITER, R.SEQ_STAT_ERR_MASK]; omega)) [State.wrAll, State.rd_wr_ne]
  · rw [hkeep _ ⟨(0x104 + 0x10 * c) * 8 + 12, by omega, by simp only [R.CTX_PC_ITER]; omega⟩, ← hs]
    simp (disch := (simp only [R.CTX_PC_ITER, R.SEQ_STAT_ERR_MASK]; omega)) [State.wrAll, State.rd_wr_ne]
  · rw [hkeep _ ⟨(0x108 + 0x10 * c) * 8 + 8, by omega, by simp only [R.CTX_STAT_CODE]; omega⟩, ← hs]
    simp (disch := (simp only [R.CTX_STAT_CODE, R.CTX_PC_ITER, R.SEQ_STAT_ERR_MASK]; omega)) [State.wrAll, State.rd_wr_ne]
  · rw [hkeep _ ⟨(0x108 + 0x10 * c) * 8 + 4, by omega, by simp only [R.CTX_STAT_CAUSE]; omega⟩, ← hs]
    simp (disch := (simp only [R.CTX_STAT_CODE, R.CTX_STAT_CAUSE, R.CTX_PC_ITER, R.SEQ_STAT_ERR_MASK]; omega)) [State.wrAll, State.rd_wr_ne]
  · rw [ctx_congr (s := s1) (by rw [he]), ← hs, State.setCtx_ctx]
  · rw [ht x hx, ← hs]; rfl
  · rw [he, ← hs]; rfl

theorem leads_ctxStart (hb : windowOf u = some b) (hq : isSeq u = true) (h : s.takes w (b + (0x100 + 0x10 * c)) (v ||| 1).toNat)
    (hv : bits v.toNat 1 3 = 0) (hst : s.ctxState u c = 0 ∨ s.ctxState u c = 3) (ha : s.rd (R.SEQ_CTRL_ABI b) = 2) : Leads s (.ctxStart w u c v) fun t =>
      t.ctxState u c = 1 ∧ t.rd (R.CTX_STAT_CAUSE b c) = 0 ∧
      t.ctx u c = { s.ctx u c with passing := (s.ctx u c).brkPass, brkPass := false, pendStep := false, pendHalt := false, exec := false, result := none, arrived := s.now, asked := false, granted := false } ∧
      t.answer.st = .ok ∧ RegsBut [R.CTX_CTRL_CEILING b c, R.CTX_STAT_STATE b c, R.CTX_STAT_CAUSE b c] s t ∧ t = { s with regs := t.regs, ctxs := t.ctxs, answer := t.answer } := by
  obtain ⟨s0, h0, hr0, e⟩ := writeWin_start hb hq c v h hv
  have hst0 := ctxState_ceiling hb hr0
  obtain rfl := win_eq hb
  have ha0 : s0.rd (R.SEQ_CTRL_ABI (win u)) = 2 := (hr0.rd (by simp [R.SEQ_CTRL_ABI, R.CTX_CTRL_CEILING]; omega)).trans ha
  rw [State.ctxStartCmd, if_pos (by rw [hst0]; exact hst)] at e
  obtain ⟨h1, h2, h3, h4, h5⟩ := ctxStart_eq u c false ha0
  refine .intro rfl e ⟨h1, h2, ?_, rfl, ?_, ?_⟩
  · rw [State.answers_ctx, h3, h0]; rfl
  · rw [regsBut_answers]
    exact (hr0.mono (by simp)).trans (h4.mono (by simp))
  · rw [h5, h0]; rfl

theorem leads_ctxStep (hb : windowOf u = some b) (hq : isSeq u = true) (h : s.takes w (b + (0x100 + 0x10 * c)) (v ||| 4).toNat)
    (hv : bit v.toNat 1 = false ∧ bit v.toNat 3 = false) (hst : s.ctxState u c = 0 ∨ s.ctxState u c = 3) (ha : s.rd (R.SEQ_CTRL_ABI b) = 2) :
    Leads s (.ctxStep w u c v) fun t => t.ctxState u c = 1 ∧ t.rd (R.CTX_STAT_CAUSE b c) = 0 ∧ (t.ctx u c).pendStep = true ∧
      t.answer.st = .ok ∧ RegsBut [R.CTX_CTRL_CEILING b c, R.CTX_STAT_STATE b c, R.CTX_STAT_CAUSE b c] s t ∧ t = { s with regs := t.regs, ctxs := t.ctxs, answer := t.answer } := by
  obtain ⟨s0, h0, hr0, e⟩ := writeWin_step hb hq c v h hv
  have hst0 := ctxState_ceiling hb hr0
  obtain rfl := win_eq hb
  have ha0 : s0.rd (R.SEQ_CTRL_ABI (win u)) = 2 := (hr0.rd (by simp [R.SEQ_CTRL_ABI, R.CTX_CTRL_CEILING]; omega)).trans ha
  rw [State.ctxStepCmd, if_pos (by rw [hst0]; exact hst)] at e
  obtain ⟨h1, h2, h3, h4, h5⟩ := ctxStart_eq u c true ha0
  refine .intro rfl e ⟨h1, h2, ?_, rfl, ?_, ?_⟩
  · rw [State.answers_ctx, h3]
  · rw [regsBut_answers]
    exact (hr0.mono (by simp)).trans (h4.mono (by simp))
  · rw [h5, h0]; rfl

theorem leads_ctxHalt (hb : windowOf u = some b) (hq : isSeq u = true) (h : s.takes w (b + (0x100 + 0x10 * c)) (v ||| 2).toNat)
    (hv : bit v.toNat 0 = false ∧ bit v.toNat 2 = false ∧ bit v.toNat 3 = false) (hst : s.ctxState u c = 1 ∨ (s.ctxState u c = 2 ∧ (s.ctx u c).exec = false)) :
    Leads s (.ctxHalt w u c v) fun t => t.ctxState u c = 3 ∧ t.rd (R.CTX_STAT_CAUSE b c) = 2 ∧ (t.ctx u c).exec = false ∧ (t.ctx u c).asked = false ∧
      t.answer.st = .ok ∧ RegsBut [R.CTX_CTRL_CEILING b c, R.CTX_STAT_STATE b c, R.CTX_STAT_CAUSE b c] s t ∧ t = { s with regs := t.regs, ctxs := t.ctxs, answer := t.answer } := by
  obtain ⟨s0, h0, hr0, e⟩ := writeWin_halt hb hq c v h hv
  have hst0 := ctxState_ceiling hb hr0
  have hx0 : s0.ctx u c = s.ctx u c := ctx_congr (congrArg State.ctxs h0) u c
  obtain rfl := win_eq hb
  have hc : s0.ctxHaltCmd u c = s0.ctxHalt u c 2 := by
    rw [State.ctxHaltCmd, hst0, hx0]
    rcases hst with h | ⟨h, hx⟩
    · rw [if_pos h]
    · rw [h, hx]; rfl
  rw [hc] at e
  obtain ⟨h1, h2, h3, h4, h5⟩ := ctxHalt_eq (s := s0) u c 2
  refine .intro rfl e ⟨h1, h2, ?_, ?_, rfl, ?_, ?_⟩
  · rw [State.answers_ctx, h3]
  · rw [State.answers_ctx, h3]
  · rw [regsBut_answers]
    exact (hr0.mono (by simp)).trans (h4.mono (by simp))
  · rw [h5, h0]; rfl

theorem leads_ctxHalt_pending (hb : windowOf u = some b) (hq : isSeq u = true) (h : s.takes w (b + (0x100 + 0x10 * c)) (v ||| 2).toNat)
    (hv : bit v.toNat 0 = false ∧ bit v.toNat 2 = false ∧ bit v.toNat 3 = false) (hst : s.ctxState u c = 2) (hx : (s.ctx u c).exec = true) :
    Leads s (.ctxHalt w u c v) fun t => t.ctxState u c = 2 ∧ t.ctx u c = { s.ctx u c with pendHalt := true } ∧
      t.answer.st = .ok ∧ RegsBut [R.CTX_CTRL_CEILING b c] s t ∧ t = { s with regs := t.regs, ctxs := t.ctxs, answer := t.answer } := by
  obtain ⟨s0, h0, hr0, e⟩ := writeWin_halt hb hq c v h hv
  have hst0 := (ctxState_ceiling hb hr0).trans hst
  have hx0 : s0.ctx u c = s.ctx u c := ctx_congr (congrArg State.ctxs h0) u c
  have hc : s0.ctxHaltCmd u c = s0.setCtx u c { s.ctx u c with pendHalt := true } := by rw [State.ctxHaltCmd, hst0, hx0, hx]; rfl
  rw [hc] at e
  refine .intro rfl e ⟨hst0, ?_, rfl, hr0, ?_⟩
  · rw [State.answers_ctx, State.setCtx_ctx]
  · rw [h0]; rfl

theorem leads_ctxClear (hb : windowOf u = some b) (hq : isSeq u = true) (h : s.takes w (b + (0x100 + 0x10 * c)) (v ||| 8).toNat)
    (hv : bits v.toNat 0 3 = 0) (hst : s.ctxState u c = 3 ∨ s.ctxState u c = 4) : Leads s (.ctxClear w u c v) fun t =>
      t.ctxState u c = 0 ∧ t.rd (R.CTX_PC_ITER b c) = 0 ∧ t.rd (R.CTX_STAT_CODE b c) = 0 ∧ t.rd (R.CTX_STAT_CAUSE b c) = 0 ∧ t.ctx u c = {} ∧ t.answer.st = .ok ∧
      (∀ x, x ≠ u.val → t.tile x = s.tile x) ∧ t = { s with regs := t.regs, ctxs := t.ctxs, tiles := t.tiles, answer := t.answer } := by
  obtain ⟨s0, h0, hr0, e⟩ := writeWin_clear hb hq c v h hv
  obtain ⟨h1, h2, h3, h4, h5, h6, h7⟩ := ctxClearCmd_eq (s := s0) hb (by rw [ctxState_ceiling hb hr0]; exact hst)
  refine .intro rfl e ⟨h1, h2, h3, h4, h5, rfl, fun x hx => (h6 x hx).trans (tile_congr (congrArg State.tiles h0) x), ?_⟩
  rw [h7, h0]; rfl

/-! ### The program counter and the rows -/

theorem leads_ctxPcWrite (hb : windowOf u = some b) (hq : isSeq u = true) (h : s.takes w (b + (0x104 + 0x10 * c)) v.toNat)
    (hst : s.ctxState u c = 0 ∨ s.ctxState u c = 3) : Leads s (.ctxPcWrite w u c v) fun t =>
      t.rd (R.CTX_PC_PC b c) = v.toNat % 2 ^ 9 ∧ t.ctx u c = { s.ctx u c with brkPass := false } ∧ t.answer.st = .ok ∧
      RegsBut [R.CTX_PC_PC b c] s t ∧ t = { s with regs := t.regs, ctxs := t.ctxs, answer := t.answer } := by
  have e := writeWin_ctxPc hb hq c h
  obtain rfl := win_eq hb
  rw [bv32_mod, State.writeCtxPc, if_pos hst] at e
  refine .intro rfl e ⟨?_, ?_, rfl, ?_, rfl⟩
  · simp [R.CTX_PC_PC, bits]
  · simp
  · simp

/-- Words 0 to m - 1 of a row hold what was staged for them, and nothing else changed. -/
def RowStaged (s : State) (u r m : Nat) (t : State) : Prop :=
  (∀ k < m, ∀ p, s.rowStage.find? (fun p => p.1 == win u + 0x2000 + 32 * r + 4 * k) = some p → t.rd (R.ROWS_WORD (win u) r k) = p.2 % 2 ^ 32) ∧
    RegsBut ((List.range 8).map (R.ROWS_WORD (win u) r)) s t ∧ t = { s with regs := t.regs }

theorem rowWord_mem {r k : Nat} (b : Nat) (hk : k < 8) : R.ROWS_WORD b r k ∈ (List.range 8).map (R.ROWS_WORD b r) :=
  List.mem_map_of_mem (List.mem_range.2 hk)

theorem RowStaged.wr {t : State} {u r m v : Nat} (hm : m < 8) (h : RowStaged s u r m t)
    (hv : ∀ p, s.rowStage.find? (fun p => p.1 == win u + 0x2000 + 32 * r + 4 * m) = some p → v = p.2) :
    RowStaged s u r (m + 1) (t.wr (R.ROWS_WORD (win u) r m) v) := by
  obtain ⟨h1, h2, h3⟩ := h
  refine ⟨fun k hk p hp => ?_, (regsBut_wr (rowWord_mem _ hm)).2 h2, by rw [h3]; rfl⟩
  by_cases e : k = m
  · subst e; rw [State.rd_wr_same, hv p hp]; rfl
  · rw [State.rd_wr_ne _ _ (by simp only [R.ROWS_WORD]; omega)]
    exact h1 k (by omega) p hp

theorem leads_rowCommit {r : Fin 512} (hb : windowOf u = some b) (hq : isSeq u = true) (hr : r.val < rowsOf u)
    (h : s.takes w (b + (0x2000 + 0x20 * r + 0x1C)) v.toNat) : Leads s (.rowCommit w u r v) fun t =>
      t.rd (R.ROWS_WORD b r 7) = v.toNat ∧
      (∀ k < 7, ∀ p, s.rowStage.find? (fun p => p.1 == b + 0x2000 + 32 * r + 4 * k) = some p → t.rd (R.ROWS_WORD b r k) = p.2 % 2 ^ 32) ∧
      t.answer.st = .ok ∧ RegsBut ((List.range 8).map (R.ROWS_WORD b r)) s t ∧ t = { s with regs := t.regs, rowStage := t.rowStage, answer := t.answer } := by
  have e := writeWin_row7 hb hq r hr h
  obtain rfl := win_eq hb
  rw [bv32_mod, State.writeRowWord, if_neg (by omega)] at e
  dsimp only at e
  generalize hf : List.foldl _ s _ = s1 at e
  have hs : RowStaged s u r 7 s1 := by
    rw [← hf]
    refine foldl_range_ind _ (RowStaged s u r) (fun t m hm ht => ?_) ⟨fun _ hk => absurd hk (Nat.not_lt_zero _), RegsBut.refl _ s, rfl⟩
    have hst : t.rowStage = s.rowStage := by rw [ht.2.2]
    rw [hst]
    cases hp : s.rowStage.find? (fun p => p.1 == win u + 0x2000 + 32 * r + 4 * m) with
    | some p => exact ht.wr (by omega) fun q hq => by rw [hp] at hq; cases hq; rfl
    | none =>
      obtain ⟨h1, h2, h3⟩ := ht
      refine ⟨fun k hk p hp' => ?_, h2, h3⟩
      by_cases e : k = m
      · subst e; rw [hp] at hp'; cases hp'
      · exact h1 k (by omega) p hp'
  obtain ⟨h1, h2, h3⟩ := hs
  refine .intro rfl e ⟨?_, fun k hk p hp => ?_, rfl, ?_, ?_⟩
  · exact (State.rd_wr_same s1 _ _).trans (bv32_mod v)
  · exact (State.rd_wr_ne s1 _ (by simp only [R.ROWS_WORD]; omega)).trans (h1 k hk p hp)
  · exact (regsBut_wr (t := s1) (rowWord_mem _ (by omega))).2 h2
  · rw [h3]; rfl

/-! ### CTX_TIMEOUT and SEQ_ERR -/

theorem leads_ctxStall (hq : isSeq u = true) (hst : s.ctxState u c = 1) (ht : s.rd (R.CTX_TIMEOUT_TIMEOUT (win u) c) ≠ 0)
    (hl : 400 * s.rd (R.CTX_TIMEOUT_TIMEOUT (win u) c) ≤ s.since (s.ctx u c).arrived) : Leads s (.ctxStall u c) fun t =>
      t.on (R.CTX_STAT_STALL (win u) c) ∧ t.ctxState u c = 1 ∧ RegsBut [R.CTX_STAT_STALL (win u) c] s t ∧ t = { s with regs := t.regs } := by
  have e : s.ctxStall u c = s.wr (R.CTX_STAT_STALL (win u) c) 1 := by simp [State.ctxStall, hq, hst, ht, hl]
  refine .intro rfl e ⟨?_, ?_, ?_, rfl⟩
  · simp [R.CTX_STAT_STALL]
  · exact (State.rd_wr_ne _ _ (by simp only [R.CTX_STAT_STALL, R.CTX_STAT_STATE]; omega)).trans hst
  · simp

/-- A taken read of SEQ_ERR releases it (R102). -/
theorem readWin_seqErr (hb : windowOf u = some b) (hq : isSeq u = true) (h : s.gives w (b + 8) = true) :
    ∃ v, s.readWin w u 8 = (s.readSeqErr u).answers .ok v [] := by
  obtain ⟨hit, hf, he⟩ := readReg_gives h
  have := seqSpan hq
  obtain ⟨h1, h2, h3⟩ := hitAt_some hf (hitAt_window hb (by omega) ((winHit_seq hq _).trans seqHit_err) (.inl (by decide)))
  refine ⟨(s.regTake w (b + 8) hit).1 % 2 ^ 32, ?_⟩
  rw [State.readWin, hb]
  dsimp only
  rw [he]
  simp [State.regTake, State.popRead, State.readEffect, h1, h3, hq]

theorem leads_seqErrRead (hb : windowOf u = some b) (hq : isSeq u = true) (h : s.gives w (b + 8)) : Leads s (.seqErrRead w u) fun t =>
    t.answer.st = .ok ∧ t.errHeld = s.errHeld.filter (· != u.val) ∧ t = { s with errHeld := t.errHeld, answer := t.answer } := by
  obtain ⟨v, e⟩ := readWin_seqErr hb hq h
  exact .intro rfl e ⟨rfl, rfl, rfl⟩

/-- Settles O16: each command acts on one context, row or log of a sequencer. -/
theorem sequencerContexts : Obligations.SequencerContexts := by
  unfold Obligations.SequencerContexts
  refine ⟨?start, ?step, ?halt, ?pending, ?clear, ?pc, ?commit, ?stall, ?err⟩
  case start => exact fun s w u b c v => leads_ctxStart
  case step => exact fun s w u b c v => leads_ctxStep
  case halt => exact fun s w u b c v => leads_ctxHalt
  case pending => exact fun s w u b c v => leads_ctxHalt_pending
  case clear => exact fun s w u b c v => leads_ctxClear
  case pc => exact fun s w u b c v => leads_ctxPcWrite
  case commit => exact fun s w u b r v => leads_rowCommit
  case stall => exact fun s u c => leads_ctxStall
  case err => exact fun s w u b => leads_seqErrRead

end Sys2Proof.Machine
end

section
/-! PROOFS. Commands of token counters, credit pools and posts (R95 to R98 of spec/03_tables_tokens_threads.md). -/

namespace Sys2Proof.Machine

variable {s : State} {ix m src : Nat}

/-- A message of this chip that its unit takes leaves the list and acts. -/
theorem deliver_taken {credit : Bool} (hm : s.msgs[ix]? = some (m, src)) (hk : bit m 15 = credit) (hc : bits m 0 15 = s.chip) {t : State}
    (ha : State.arrive { s with msgs := s.msgs.eraseIdx ix } m = (t, .ok)) : s.deliver ix credit = t := by
  simp only [State.deliver, hm, hk, hc, bne_self_eq_false, Bool.or_self, Bool.false_eq_true, if_false, ha, State.postResult]

theorem arrive_token (hk : bit m 15 = false) (hg : s.msgGate m = (s, .ok)) :
    s.arrive m = (s.addTokens (bits m 16 8) (bits m 24 4) (bits m 28 4) (bits m 32 8), .ok) := by
  simp [State.arrive, hk, State.arriveToken, hg]

theorem arrive_credit (hk : bit m 15 = true) (hg : s.msgGate m = (s, .ok)) :
    s.arrive m = (s.addCredits (bits m 16 8) (bits m 24 5) (bits m 32 8), .ok) := by
  simp [State.arrive, hk, State.arriveCredit, hg]

theorem leads_tokenArrival (hm : s.msgs[ix]? = some (m, src)) (hk : bit m 15 = false) (hc : bits m 0 15 = s.chip)
    (hg : State.msgGate { s with msgs := s.msgs.eraseIdx ix } m = ({ s with msgs := s.msgs.eraseIdx ix }, .ok)) : Leads s (.tokenArrival ix) fun t =>
      t.rd (R.TOKCNT_COUNT (win (bits m 16 8)) (bits m 24 4) (bits m 28 4)) =
        min (s.rd (R.TOKCNT_COUNT (win (bits m 16 8)) (bits m 24 4) (bits m 28 4)) + bits m 32 8) 65535 ∧ t.msgs = s.msgs.eraseIdx ix ∧
      RegsBut [R.TOKCNT_COUNT (win (bits m 16 8)) (bits m 24 4) (bits m 28 4), R.TOKCNT_OVF (win (bits m 16 8)) (bits m 24 4) (bits m 28 4)] s t ∧
      t = { s with regs := t.regs, msgs := t.msgs } := by
  obtain ⟨hcount, hregs, heq⟩ := addTokens_count { s with msgs := s.msgs.eraseIdx ix } (bits m 16 8) (bits m 24 4) (bits m 28 4) (bits m 32 8)
  refine .intro rfl (deliver_taken hm hk hc (arrive_token hk hg)) ⟨hcount, ?_, hregs, ?_⟩
  · exact congrArg State.msgs heq
  · exact eq_regs_msgs heq

theorem leads_creditArrival (hm : s.msgs[ix]? = some (m, src)) (hk : bit m 15 = true) (hc : bits m 0 15 = s.chip)
    (hg : State.msgGate { s with msgs := s.msgs.eraseIdx ix } m = ({ s with msgs := s.msgs.eraseIdx ix }, .ok))
    (hi : s.rd (R.POOL_INIT_INIT (win (bits m 16 8)) (bits m 24 5)) < 65536) : Leads s (.creditArrival ix) fun t =>
      (t.rd (R.POOL_CNT_COUNT (win (bits m 16 8)) (bits m 24 5)) : Int) =
        clampI 0 (s.rd (R.POOL_INIT_INIT (win (bits m 16 8)) (bits m 24 5))) (s.rd (R.POOL_CNT_COUNT (win (bits m 16 8)) (bits m 24 5)) + bits m 32 8 : Nat) ∧
      t.msgs = s.msgs.eraseIdx ix ∧
      RegsBut [R.SEQ_STAT_CREDIT_OVF (win (bits m 16 8)), R.SEQ_STAT_CREDIT_UNF (win (bits m 16 8)), R.POOL_CNT_COUNT (win (bits m 16 8)) (bits m 24 5)] s t ∧
      t = { s with regs := t.regs, msgs := t.msgs } := by
  obtain ⟨hcount, hregs, heq⟩ := setPool_count { s with msgs := s.msgs.eraseIdx ix } (bits m 16 8) (bits m 24 5)
    (s.rd (R.POOL_CNT_COUNT (win (bits m 16 8)) (bits m 24 5)) + bits m 32 8) hi
  refine .intro rfl (deliver_taken hm hk hc (arrive_credit hk hg)) ⟨hcount, ?_, hregs, ?_⟩
  · exact congrArg State.msgs heq
  · exact eq_regs_msgs heq

/-- A firmware write of a counter changes its own fields alone (R95). -/
theorem writeTokCnt_frame (u x k word taken arrived : Nat) :
    RegsBut [R.TOKCNT_COUNT (win u) x k, R.TOKCNT_OVF (win u) x k, R.TOKCNT_UNF (win u) x k] s (s.writeTokCnt u x k word taken arrived) ∧
    s.writeTokCnt u x k word taken arrived = { s with regs := (s.writeTokCnt u x k word taken arrived).regs } := by
  unfold State.writeTokCnt
  dsimp only
  constructor
  · split <;> split <;> simp
  · rw [State.wr_upd, State.flag_upd, State.flag_upd]
    split <;> split <;> rfl

theorem leads_tokcntWrite {w : Who} {u : Fin 128} {b : Nat} {c k : Fin 16} {v : BitVec 32} (taken arrived : BitVec 16) (hb : windowOf u = some b)
    (h : s.takes w (b + (0x200 + 0x40 * c + 4 * k)) v.toNat) : Leads s (.tokcntWrite w u c k v taken arrived) fun t =>
      (t.rd (R.TOKCNT_COUNT b c k) : Int) = clampI 0 65535 ((bits v.toNat 0 16 : Int) - taken.toNat + arrived.toNat) ∧ t.answer.st = .ok ∧
      RegsBut [R.TOKCNT_COUNT b c k, R.TOKCNT_OVF b c k, R.TOKCNT_UNF b c k] s t ∧ t = { s with regs := t.regs, answer := t.answer } := by
  have e := writeWinAs_takes hb (fun s => s.writeTokCnt u c k v.toNat taken.toNat arrived.toNat) h
  obtain rfl := win_eq hb
  obtain ⟨hregs, heq⟩ := writeTokCnt_frame (s := s) u c k v.toNat taken.toNat arrived.toNat
  refine .intro rfl e ⟨?_, rfl, hregs, congrArg (State.answers · .ok 0 []) heq⟩
  rw [clampI_eq_min_max (by decide)]
  exact writeTokCnt_count s u c k v.toNat taken.toNat arrived.toNat

theorem leads_poolCntWrite {w : Who} {u : Fin 128} {b : Nat} {p : Fin 32} {v : BitVec 32} (taken returned : BitVec 16) (hb : windowOf u = some b)
    (h : s.takes w (b + (0xA00 + 8 * p)) v.toNat) (hi : s.rd (R.POOL_INIT_INIT b p) < 65536) : Leads s (.poolCntWrite w u p v taken returned) fun t =>
      (t.rd (R.POOL_CNT_COUNT b p) : Int) = clampI 0 (s.rd (R.POOL_INIT_INIT b p)) ((bits v.toNat 0 16 : Int) - taken.toNat + returned.toNat) ∧ t.answer.st = .ok ∧
      RegsBut [R.SEQ_STAT_CREDIT_OVF b, R.SEQ_STAT_CREDIT_UNF b, R.POOL_CNT_COUNT b p] s t ∧ t = { s with regs := t.regs, answer := t.answer } := by
  have hx := exec_poolCntWrite_takes taken returned hb h
  obtain rfl := win_eq hb
  obtain ⟨hcount, hregs, heq⟩ := setPool_count s u p ((bits v.toNat 0 16 : Int) - taken.toNat + returned.toNat) hi
  exact .intro hx rfl ⟨hcount, rfl, hregs, congrArg (State.answers · .ok 0 []) heq⟩

theorem returnCredits_unbound {u c k n cls : Nat} (h : s.on (R.TOKBIND_EN (win u) c k) = false) : s.returnCredits u c k n cls = s := by
  rw [State.returnCredits, if_pos (.inr (by simp [h]))]

theorem leads_toktake {w : Who} {u : Fin 128} {b : Nat} {c k : Fin 16} {n : BitVec 16} (hb : windowOf u = some b) (hq : isSink u = true)
    (h : s.takes w (b + (0x1000 + 0x40 * c + 4 * k)) n.toNat) (hbind : s.on (R.TOKBIND_EN b c k) = false) (hlt : s.rd (R.TOKCNT_COUNT b c k) < 65536) :
    Leads s (.toktake w u c k n) fun t => t.rd (R.TOKCNT_COUNT b c k) = s.rd (R.TOKCNT_COUNT b c k) - n.toNat ∧ t.answer.st = .ok ∧
      RegsBut [R.TOKCNT_COUNT b c k] s t ∧ t = { s with regs := t.regs, answer := t.answer } := by
  have e := writeWin_tokTake hb hq c k h
  obtain rfl := win_eq hb
  have hn : bits (n.toNat % 2 ^ 32) 0 16 = n.toNat := by have := n.isLt; simp [bits]; omega
  have hne : (R.TOKBIND_EN (win u) c k).key ≠ (R.TOKCNT_COUNT (win u) c k).key := by simp only [R.TOKBIND_EN, R.TOKCNT_COUNT]; omega
  rw [hn, State.tokTake] at e
  rw [returnCredits_unbound (by rw [State.on_wr_ne _ _ hne]; exact hbind)] at e
  refine .intro rfl e ⟨?_, rfl, ?_, rfl⟩
  · rw [State.answers_rd, State.rd_wr_same]
    simp only [R.TOKCNT_COUNT] at hlt ⊢
    omega
  · simp

theorem leads_postAnswer {k : Nat} {st : Status} (hp : s.postAns[ix]? = some (k, st)) (hx : (s.ctx (k / 16) (k % 16)).exec = false)
    (hst : s.ctxState (k / 16) (k % 16) = 1 ∨ s.ctxState (k / 16) (k % 16) = 2) : Leads s (.postAnswer ix) fun t =>
      t.ctxState (k / 16) (k % 16) = 4 ∧ t.rd (R.CTX_STAT_CODE (win (k / 16)) (k % 16)) = 8 ∧ t.postAns = s.postAns.eraseIdx ix ∧ k / 16 ∈ t.errHeld ∧
      t = { s with regs := t.regs, ctxs := t.ctxs, errHeld := t.errHeld, postAns := t.postAns } := by
  have hst' : State.ctxState { s with postAns := s.postAns.eraseIdx ix } (k / 16) (k % 16) = 1 ∨
    State.ctxState { s with postAns := s.postAns.eraseIdx ix } (k / 16) (k % 16) = 2 := hst
  have e : s.postAnswer ix = State.ctxError { s with postAns := s.postAns.eraseIdx ix } (k / 16) (k % 16) 8
      (s.rd (R.CTX_PC_PC (win (k / 16)) (k % 16))) (s.rd (R.CTX_PC_ITER (win (k / 16)) (k % 16))) (statusCode st) := by
    simp only [State.postAnswer, hp, hx, Bool.false_eq_true, if_false]
    rw [if_pos hst']
    rfl
  obtain ⟨h1, h2, h3, h4⟩ := ctxError_eq { s with postAns := s.postAns.eraseIdx ix } (k / 16) (k % 16) 8
    (s.rd (R.CTX_PC_PC (win (k / 16)) (k % 16))) (s.rd (R.CTX_PC_ITER (win (k / 16)) (k % 16))) (statusCode st) (by omega)
  refine .intro rfl e ⟨h1, h2, ?_, h3, ?_⟩
  · exact congrArg State.postAns h4
  · exact eq_err_post h4

/-- Settles O17: arrivals and writes go through `addTokens` and `setPool`, a refused post is ERROR of its context. -/
theorem sequencerTokens : Obligations.SequencerTokens := by
  unfold Obligations.SequencerTokens
  refine ⟨?token, ?credit, ?count, ?pool, ?take, ?answer⟩
  case token => exact fun s ix m src => leads_tokenArrival
  case credit => exact fun s ix m src => leads_creditArrival
  case count => exact fun s w u b c k v taken arrived => leads_tokcntWrite taken arrived
  case pool => exact fun s w u b p v taken returned => leads_poolCntWrite taken returned
  case take => exact fun s w u b c k n => leads_toktake
  case answer => exact fun s ix k st => leads_postAnswer

end Sys2Proof.Machine
end

section
/-! PROOFS. Rows of sequencers: eligibility, firing, completion and grants (R77, R78, R86 to R93, R490, R491 of
spec/03_tables_tokens_threads.md and spec/15_bellows_clocks.md). -/

namespace Sys2Proof.Machine

variable {s : State} {u : Fin 128} {c : Fin 16}

/-! ### A row becomes eligible -/

/-- A row with a valid code that is eligible asks for its quanta (R87, R102). -/
theorem rowEligible_asks (hc : s.rowCode u c (s.rd (R.CTX_PC_PC (win u) c)) (fun r => s.engineBad u r) = 0) (he : s.eligible u c = true) :
    s.rowEligible u c = s.askGrant u c := by
  simp [State.rowEligible, hc, he]

/-- A row that needs no grant, or holds one, fires or breaks (R87, R490). -/
theorem askGrant_holds (h : rowCost (s.ctxRow u c) = 0 ∨ (s.ctx u c).granted = true) : s.askGrant u c = s.fireOrBreak u c := by
  rw [State.askGrant]
  dsimp only
  rw [if_pos]
  rcases h with h | h <;> simp [h]

theorem askGrant_asks (hc : rowCost (s.ctxRow u c) ≠ 0 ∧ rowClass (s.ctxRow u c) ≠ 0) (he : rowEngine (s.ctxRow u c) ≠ 5 ∧ rowEngine (s.ctxRow u c) ≠ 6)
    (hg : (s.ctx u c).granted = false) : s.askGrant u c = s.setCtx u c { s.ctx u c with asked := true } := by
  simp [State.askGrant, hc, he, hg]

theorem fireOrBreak_break (hst : s.ctxState u c = 1) (hi : s.rd (R.CTX_PC_ITER (win u) c) = 0) (hb : rowBrk (s.ctxRow u c) = true ∧ (s.ctx u c).passing = false) :
    s.fireOrBreak u c = s.ctxHalt u c 3 := by
  rw [State.fireOrBreak]
  dsimp only
  rw [if_pos ⟨hst, hi, hb.1, by simp [hb.2]⟩]

/-- A row without a BRK to stop at. -/
theorem not_breaks (hb : rowBrk (s.ctxRow u c) = false ∨ (s.ctx u c).passing = true) :
    ¬ (s.ctxState u c = 1 ∧ s.rd (R.CTX_PC_ITER (win u) c) = 0 ∧ rowBrk (s.ctxRow u c) ∧ ¬ (s.ctx u c).passing) := by
  rintro ⟨-, -, h1, h2⟩
  rcases hb with h | h
  · rw [h] at h1; cases h1
  · exact h2 h

theorem leads_rowEligible (hc : s.rowCode u c (s.rd (R.CTX_PC_PC (win u) c)) (fun r => s.engineBad u r) = 0)
    (he : s.eligible u c = true) (hg : rowCost (s.ctxRow u c) = 0 ∨ (s.ctx u c).granted = true)
    (hb : rowBrk (s.ctxRow u c) = false ∨ (s.ctx u c).passing = true) (hn : rowEngine (s.ctxRow u c) ≠ 0xF) : Leads s (.rowEligible u c) fun t =>
      t.ctxState u c = 2 ∧ (t.ctx u c).exec = true ∧ (t.ctx u c).row = s.ctxRow u c ∧
      (∀ k < 16, s.rd (R.TOKCNT_COUNT (win u) c k) < 65536 → t.rd (R.TOKCNT_COUNT (win u) c k) =
        (s.consumes u c (s.ctxRow u c) (s.rd (R.CTX_PC_ITER (win u) c))).foldl (fun a x => if x.1 = k then a - x.2 else a) (s.rd (R.TOKCNT_COUNT (win u) c k))) ∧
      (∀ k < 32, s.rd (R.POOL_CNT_COUNT (win u) k) < 65536 → t.rd (R.POOL_CNT_COUNT (win u) k) =
        (rowCreds (s.ctxRow u c)).foldl (fun a x => if x.1 = k then a - x.2 else a) (s.rd (R.POOL_CNT_COUNT (win u) k))) ∧
      t = { s with regs := t.regs, ctxs := t.ctxs } := by
  obtain ⟨hstate, hexec, hrow, -, -, heq, htok, hpool⟩ := fire_eq s u c c.isLt
  exact .intro rfl ((rowEligible_asks hc he).trans ((askGrant_holds hg).trans (fireOrBreak_fire (not_breaks hb) hn))) ⟨hstate, hexec, hrow, htok, hpool, heq⟩

theorem leads_rowEligible_ask (hc : s.rowCode u c (s.rd (R.CTX_PC_PC (win u) c)) (fun r => s.engineBad u r) = 0)
    (he : s.eligible u c = true) (hg : rowCost (s.ctxRow u c) ≠ 0 ∧ rowClass (s.ctxRow u c) ≠ 0)
    (hn : rowEngine (s.ctxRow u c) ≠ 5 ∧ rowEngine (s.ctxRow u c) ≠ 6) (hr : (s.ctx u c).granted = false) : Leads s (.rowEligible u c) fun t =>
      t.ctx u c = { s.ctx u c with asked := true } ∧ t = { s with ctxs := t.ctxs } :=
  .intro rfl ((rowEligible_asks hc he).trans (askGrant_asks hg hn hr)) ⟨State.setCtx_ctx .., rfl⟩

theorem leads_rowEligible_break (hst : s.ctxState u c = 1) (hc : s.rowCode u c (s.rd (R.CTX_PC_PC (win u) c)) (fun r => s.engineBad u r) = 0)
    (he : s.eligible u c = true) (hg : rowCost (s.ctxRow u c) = 0 ∨ (s.ctx u c).granted = true)
    (hb : rowBrk (s.ctxRow u c) = true ∧ (s.ctx u c).passing = false) (hi : s.rd (R.CTX_PC_ITER (win u) c) = 0) : Leads s (.rowEligible u c) fun t =>
      t.ctxState u c = 3 ∧ t.rd (R.CTX_STAT_CAUSE (win u) c) = 3 ∧ (t.ctx u c).brkPass = true ∧
      RegsBut [R.CTX_STAT_STATE (win u) c, R.CTX_STAT_CAUSE (win u) c] s t ∧ t = { s with regs := t.regs, ctxs := t.ctxs } := by
  obtain ⟨h1, h2, h3, h4, h5⟩ := ctxHalt_eq (s := s) u c 3
  exact .intro rfl ((rowEligible_asks hc he).trans ((askGrant_holds hg).trans (fireOrBreak_break hst hi hb))) ⟨h1, h2, by rw [h3]; rfl, h4, h5⟩

theorem leads_rowEligible_error {e : Nat} (hst : s.ctxState u c = 1) (hr : s.seqRuns u = true)
    (hc : s.rowCode u c (s.rd (R.CTX_PC_PC (win u) c)) (fun r => s.engineBad u r) = e) (he : e ≠ 0) : Leads s (.rowEligible u c) fun t =>
      t.ctxState u c = 4 ∧ t.rd (R.CTX_STAT_CODE (win u) c) = e % 2 ^ 8 ∧ u.val ∈ t.errHeld ∧
      t = { s with regs := t.regs, ctxs := t.ctxs, errHeld := t.errHeld } := by
  have ex : s.rowEligible u c = s.ctxError u c e (s.rd (R.CTX_PC_PC (win u) c)) (s.rd (R.CTX_PC_ITER (win u) c)) 0 := by
    simp [State.rowEligible, hst, hr, hc, he]
  exact .intro rfl ex (ctxError_eq s u c e _ _ 0 c.isLt)

/-- A firing leaves the iteration and the bindings of its context. -/
theorem fire_iter : (s.fire u c).rd (R.CTX_PC_ITER (win u) c) = s.rd (R.CTX_PC_ITER (win u) c) := by
  obtain ⟨-, -, -, -, hregs, -⟩ := fire_eq s u c c.isLt
  refine hregs.rd ?_
  simp only [fireFlds, List.map_append, List.map_map, List.mem_append, List.mem_map, Function.comp, R.TOKCNT_COUNT, R.POOL_CNT_COUNT, R.CTX_PC_ITER]
  rintro ((⟨x, -, h⟩ | ⟨x, -, h⟩) | ⟨f, hf, h⟩)
  · omega
  · omega
  · simp [R.SEQ_DROPS_TRIG_SKIPPED, R.SEQ_FIRED_FIRED, R.CTX_STAT_STATE] at hf
    rcases hf with rfl | rfl | rfl <;> (dsimp only at h; omega)

theorem fire_tokbind {k : Nat} (hk : k < 16) : (s.fire u c).on (R.TOKBIND_EN (win u) c k) = s.on (R.TOKBIND_EN (win u) c k) := by
  obtain ⟨-, -, -, -, hregs, -⟩ := fire_eq s u c c.isLt
  refine hregs.on ?_
  simp only [fireFlds, List.map_append, List.map_map, List.mem_append, List.mem_map, Function.comp, R.TOKCNT_COUNT, R.POOL_CNT_COUNT, R.TOKBIND_EN]
  rintro ((⟨x, hx, h⟩ | ⟨x, -, h⟩) | ⟨f, hf, h⟩)
  · have := consumes_lt s u c _ _ x hx
    omega
  · omega
  · simp [R.SEQ_DROPS_TRIG_SKIPPED, R.SEQ_FIRED_FIRED, R.CTX_STAT_STATE] at hf
    rcases hf with rfl | rfl | rfl <;> (dsimp only at h; omega)

theorem leads_sync (hc : s.rowCode u c (s.rd (R.CTX_PC_PC (win u) c)) (fun r => s.engineBad u r) = 0)
    (he : s.eligible u c = true) (hn : rowEngine (s.ctxRow u c) = 0xF) (hg : rowCost (s.ctxRow u c) = 0) (hb : rowBrk (s.ctxRow u c) = false)
    (hend : rowEnd (s.ctxRow u c) = true ∧ rowRepeat (s.ctxRow u c) ≤ s.rd (R.CTX_PC_ITER (win u) c))
    (hp : (rowPost (s.ctxRow u c) 0).1 = false ∧ (rowPost (s.ctxRow u c) 1).1 = false) (hbind : ∀ k < 16, s.on (R.TOKBIND_EN (win u) c k) = false) :
    Leads s (.sync u c) fun t => t.ctxState u c = 3 ∧ t.rd (R.CTX_STAT_CAUSE (win u) c) = 1 ∧ t.rd (R.CTX_PC_ITER (win u) c) = 0 ∧ (t.ctx u c).exec = false ∧
      (∀ k < 16, s.rd (R.TOKCNT_COUNT (win u) c k) < 65536 → t.rd (R.TOKCNT_COUNT (win u) c k) =
        (s.consumes u c (s.ctxRow u c) (s.rd (R.CTX_PC_ITER (win u) c))).foldl (fun a x => if x.1 = k then a - x.2 else a) (s.rd (R.TOKCNT_COUNT (win u) c k))) ∧
      t = { s with regs := t.regs, ctxs := t.ctxs } := by
  obtain ⟨-, -, hrow, hcons, -, heq, htok, -⟩ := fire_eq s u c c.isLt
  have hbinds : ∀ x ∈ ((s.fire u c).ctx u c).consumed, (s.fire u c).on (R.TOKBIND_EN (win u) c x.1) = false := by
    rw [hcons]
    intro x hx
    have hlt := consumes_lt s u c _ _ x hx
    exact (fire_tokbind hlt).trans (hbind x.1 hlt)
  have e : s.rowEligible u c = (s.fire u c).advance u c := by
    rw [rowEligible_asks hc he, askGrant_holds (.inl hg), State.fireOrBreak]
    dsimp only
    rw [if_neg (not_breaks (.inl hb)), if_pos hn, complete_plain hbinds (by rw [hrow]; exact hp.1) (by rw [hrow]; exact hp.2)]
  obtain ⟨h1, -, h2, h3, h4, h5, h6⟩ := advance_end (s := s.fire u c) (u := u) (c := c) (by rw [hrow, fire_iter]; exact hend.2) (by rw [hrow]; exact hend.1)
  refine .intro (congrArg Host.Outcome.next (if_pos hn)) e ⟨h2, h3, h1, h4, fun k hk hlt => ?_, by rw [h6, heq]⟩
  rw [← htok k hk hlt]
  exact h5.rd (by simp [R.TOKCNT_COUNT, R.CTX_PC_ITER, R.CTX_PC_PC, R.CTX_STAT_STATE, R.CTX_STAT_CAUSE]; omega)

/-! ### An iteration completes -/

theorem leads_iterationComplete_next {oc : Nat} (hx : (s.ctx u c).exec = true ∧ (s.ctx u c).result = some (.ok, oc))
    (hbind : ∀ x ∈ (s.ctx u c).consumed, s.on (R.TOKBIND_EN (win u) c x.1) = false)
    (hp : (rowPost (s.ctx u c).row 0).1 = false ∧ (rowPost (s.ctx u c).row 1).1 = false) (hi : s.rd (R.CTX_PC_ITER (win u) c) < rowRepeat (s.ctx u c).row)
    (hpend : (s.ctx u c).pendHalt = false ∧ (s.ctx u c).pendStep = false) : Leads s (.iterationComplete u c) fun t =>
      t.rd (R.CTX_PC_ITER (win u) c) = (s.rd (R.CTX_PC_ITER (win u) c) + 1) % 2 ^ 12 ∧
      t.ctx u c = { s.ctx u c with exec := false, result := none, consumed := [], arrived := s.now, asked := false, granted := false } ∧
      RegsBut [R.CTX_PC_ITER (win u) c] s t ∧ t = { s with regs := t.regs, ctxs := t.ctxs } :=
  .intro (exec_iterationComplete_reported hx.1 hx.2) (complete_plain hbind hp.1 hp.2) (advance_next hi hpend.1 hpend.2)

theorem leads_iterationComplete_succ {oc : Nat} (hx : (s.ctx u c).exec = true ∧ (s.ctx u c).result = some (.ok, oc))
    (hbind : ∀ x ∈ (s.ctx u c).consumed, s.on (R.TOKBIND_EN (win u) c x.1) = false)
    (hp : (rowPost (s.ctx u c).row 0).1 = false ∧ (rowPost (s.ctx u c).row 1).1 = false) (hi : rowRepeat (s.ctx u c).row ≤ s.rd (R.CTX_PC_ITER (win u) c))
    (hpend : (s.ctx u c).pendHalt = false ∧ (s.ctx u c).pendStep = false) (hend : rowEnd (s.ctx u c).row = false) : Leads s (.iterationComplete u c) fun t =>
      t.rd (R.CTX_PC_ITER (win u) c) = 0 ∧ t.rd (R.CTX_PC_PC (win u) c) = (s.ctx u c).succ % 2 ^ 9 ∧ t.ctxState u c = 1 ∧
      t.ctx u c = { s.ctx u c with exec := false, result := none, consumed := [], arrived := s.now, asked := false, granted := false } ∧
      RegsBut [R.CTX_PC_ITER (win u) c, R.CTX_PC_PC (win u) c, R.CTX_STAT_STATE (win u) c] s t ∧ t = { s with regs := t.regs, ctxs := t.ctxs } :=
  .intro (exec_iterationComplete_reported hx.1 hx.2) (complete_plain hbind hp.1 hp.2) (advance_succ hi hpend.1 hpend.2 hend)

theorem leads_iterationComplete_end {oc : Nat} (hx : (s.ctx u c).exec = true ∧ (s.ctx u c).result = some (.ok, oc))
    (hbind : ∀ x ∈ (s.ctx u c).consumed, s.on (R.TOKBIND_EN (win u) c x.1) = false)
    (hp : (rowPost (s.ctx u c).row 0).1 = false ∧ (rowPost (s.ctx u c).row 1).1 = false) (hi : rowRepeat (s.ctx u c).row ≤ s.rd (R.CTX_PC_ITER (win u) c))
    (hend : rowEnd (s.ctx u c).row = true) : Leads s (.iterationComplete u c) fun t =>
      t.rd (R.CTX_PC_ITER (win u) c) = 0 ∧ t.ctxState u c = 3 ∧ t.rd (R.CTX_STAT_CAUSE (win u) c) = 1 ∧ (t.ctx u c).exec = false ∧
      t = { s with regs := t.regs, ctxs := t.ctxs } := by
  obtain ⟨h1, -, h2, h3, h4, -, h6⟩ := advance_end (s := s) (u := u) (c := c) hi hend
  exact .intro (exec_iterationComplete_reported hx.1 hx.2) (complete_plain hbind hp.1 hp.2) ⟨h1, h2, h3, h4, h6⟩

theorem leads_iterationComplete_error {st : Status} {oc : Nat} (hx : (s.ctx u c).exec = true ∧ (s.ctx u c).result = some (st, oc)) (hst : st ≠ .ok)
    (hbind : ∀ x ∈ (s.ctx u c).consumed, s.on (R.TOKBIND_EN (win u) c x.1) = false) : Leads s (.iterationComplete u c) fun t =>
      t.ctxState u c = 4 ∧ t.rd (R.CTX_STAT_CODE (win u) c) = 7 ∧ u.val ∈ t.errHeld ∧ t = { s with regs := t.regs, ctxs := t.ctxs, errHeld := t.errHeld } := by
  have e := complete_engineFault (s := s) (u := u) (c := c) oc hst
  rw [returnAll_unbound u c _ _ s hbind] at e
  exact .intro (exec_iterationComplete_reported hx.1 hx.2) e (ctxError_eq s u c 7 _ _ _ c.isLt)

/-! ### Grants -/

/-- The one request that stands is decided (R490, R491). -/
theorem grantCycle_one (ho : s.ordered = [16 * u.val + c.val]) : s.grantCycle = s.decide1 (16 * u + c) := by
  rw [State.grantCycle, ho]; rfl

theorem charge_ctx (cls cost x y : Nat) : (s.charge cls cost).ctx x y = s.ctx x y := by
  unfold State.charge; split <;> rfl

/-- What a grant leaves before the row fires: its quanta charged, the context granted (R490). -/
theorem charge_eq (cls cost : Nat) : ∃ r l, s.charge cls cost = { s with regs := r, used := l } := by
  unfold State.charge
  split
  · exact ⟨s.regs, s.used, rfl⟩
  · exact ⟨_, _, rfl⟩

theorem decide1_granted (hg : s.grants (rowClass (s.ctxRow u c)) (rowCost (s.ctxRow u c)) = true) {s1 : State}
    (hs : s1 = (s.charge (rowClass (s.ctxRow u c)) (rowCost (s.ctxRow u c))).setCtx u c { s.ctx u c with asked := false, granted := true }) :
    s.decide1 (16 * u + c) = if s1.eligible u c then s1.fireOrBreak u c else s1 := by
  have hu : (16 * u.val + c.val) / 16 = u := by omega
  have hc : (16 * u.val + c.val) % 16 = c := by omega
  rw [State.decide1, hu, hc]
  dsimp only
  rw [if_pos hg, charge_ctx, ← hs]

theorem leads_grantDecision_refused (ho : s.ordered = [16 * u.val + c.val]) (hg : s.grants (rowClass (s.ctxRow u c)) (rowCost (s.ctxRow u c)) = false) :
    Leads s .grantDecision fun t => t = s := by
  have hu : (16 * u.val + c.val) / 16 = u := by omega
  have hc : (16 * u.val + c.val) % 16 = c := by omega
  have e : s.decide1 (16 * u + c) = s := by
    rw [State.decide1, hu, hc]
    dsimp only
    rw [hg]; rfl
  exact .intro rfl ((grantCycle_one ho).trans e) rfl

theorem leads_grantDecision {s1 : State} (ho : s.ordered = [16 * u.val + c.val]) (hg : s.grants (rowClass (s.ctxRow u c)) (rowCost (s.ctxRow u c)) = true)
    (hs : s1 = (s.charge (rowClass (s.ctxRow u c)) (rowCost (s.ctxRow u c))).setCtx u c { s.ctx u c with asked := false, granted := true })
    (he : s1.eligible u c = true) (hb : rowBrk (s1.ctxRow u c) = false ∨ (s.ctx u c).passing = true) (hn : rowEngine (s1.ctxRow u c) ≠ 0xF) :
    Leads s .grantDecision fun t => t.ctxState u c = 2 ∧ (t.ctx u c).exec = true ∧ (t.ctx u c).row = s1.ctxRow u c ∧ t.used = s1.used ∧
      (∀ k < 16, s1.rd (R.TOKCNT_COUNT (win u) c k) < 65536 → t.rd (R.TOKCNT_COUNT (win u) c k) =
        (s1.consumes u c (s1.ctxRow u c) (s1.rd (R.CTX_PC_ITER (win u) c))).foldl (fun a x => if x.1 = k then a - x.2 else a) (s1.rd (R.TOKCNT_COUNT (win u) c k))) ∧
      t = { s with regs := t.regs, ctxs := t.ctxs, used := t.used } := by
  obtain ⟨hstate, hexec, hrow, -, -, heq, htok, -⟩ := fire_eq s1 u c c.isLt
  have hx : s1.ctx u c = { s.ctx u c with asked := false, granted := true } := by rw [hs, State.setCtx_ctx]
  have e := (grantCycle_one ho).trans (decide1_granted hg hs)
  rw [if_pos he, fireOrBreak_fire (not_breaks (by rw [hx]; exact hb)) hn] at e
  obtain ⟨r, l, hcharge⟩ := charge_eq (s := s) (rowClass (s.ctxRow u c)) (rowCost (s.ctxRow u c))
  refine .intro rfl e ⟨hstate, hexec, hrow, by rw [heq], htok, ?_⟩
  rw [heq, hs, hcharge]
  rfl

theorem leads_grantDecision_late {s1 : State} (ho : s.ordered = [16 * u.val + c.val]) (hg : s.grants (rowClass (s.ctxRow u c)) (rowCost (s.ctxRow u c)) = true)
    (hcls : rowClass (s.ctxRow u c) = 1 ∨ rowClass (s.ctxRow u c) = 2 ∨ rowClass (s.ctxRow u c) = 3) (hcost : rowCost (s.ctxRow u c) ≠ 0)
    (hs : s1 = (s.charge (rowClass (s.ctxRow u c)) (rowCost (s.ctxRow u c))).setCtx u c { s.ctx u c with asked := false, granted := true })
    (he : s1.eligible u c = false) : Leads s .grantDecision fun t =>
      t.rdS (balOf (rowClass (s.ctxRow u c))) = s.rdS (balOf (rowClass (s.ctxRow u c))) - (rowCost (s.ctxRow u c) : Int) ∧
      t.ctx u c = { s.ctx u c with asked := false, granted := true } ∧ RegsBut [balOf (rowClass (s.ctxRow u c))] s t ∧
      t = { s with regs := t.regs, ctxs := t.ctxs, used := t.used } := by
  have e := (grantCycle_one ho).trans (decide1_granted hg hs)
  rw [he, hs, State.charge, if_neg hcost] at e
  have hlt : rowCost (s.ctxRow u c) < 2 ^ 16 := bits_lt _ 16 16
  have hpos : 0 < s.rdS (balOf (rowClass (s.ctxRow u c))) := by
    simp only [State.grants, Bool.or_eq_true, beq_iff_eq, decide_eq_true_eq] at hg
    omega
  generalize rowCost (s.ctxRow u c) = cost at *
  generalize rowClass (s.ctxRow u c) = cls at *
  have hw : (balOf cls).w = 32 := by unfold balOf; split_ifs <;> rfl
  have hup : s.rdS (balOf cls) < 2 ^ 31 := by rw [State.rdS, hw]; exact sx32_lt _
  refine .intro rfl e ⟨?_, ?_, ?_, rfl⟩
  · have hr : (s.wrS (balOf cls) (s.rdS (balOf cls) - cost)).rdS (balOf cls) = s.rdS (balOf cls) - cost := by
      rw [State.rdS, State.wrS, State.rd_wr_same, hw]
      exact sx_ux32 (by omega) (by omega)
    exact hr
  · exact State.setCtx_ctx _ u c _
  · exact (regsBut_wr (t := s) (List.mem_singleton_self _)).2 (RegsBut.refl _ s)

/-- Settles O18: a row asks, fires or breaks; an iteration advances its context; a grant charges the class and fires the row. -/
theorem sequencerRows : Obligations.SequencerRows := by
  unfold Obligations.SequencerRows
  refine ⟨?fires, ?asks, ?breaks, ?error, ?sync, ?next, ?succ, ?last, ?failed, ?grant, ?late, ?refused⟩
  case fires => exact fun s u c _ => leads_rowEligible
  case asks => exact fun s u c _ => leads_rowEligible_ask
  case breaks => exact fun s u c => leads_rowEligible_break
  case error => exact fun s u c e => leads_rowEligible_error
  case sync => exact fun s u c _ => leads_sync
  case next => exact fun s u c oc => leads_iterationComplete_next
  case succ => exact fun s u c oc => leads_iterationComplete_succ
  case last => exact fun s u c oc => leads_iterationComplete_end
  case failed => exact fun s u c st oc => leads_iterationComplete_error
  case grant => exact fun s s1 u c => leads_grantDecision
  case late => exact fun s s1 u c => leads_grantDecision_late
  case refused => exact fun s u c => leads_grantDecision_refused

end Sys2Proof.Machine
end

section
/-! PROOFS. Rows of the tensor tiles (R156 to R187 of spec/05_tensor_tiles.md). -/

namespace Sys2Proof.Machine

variable {s : State} {u : Fin 64} {c : Fin 16}

/-- A parameter block that iteration 0 has read is at hand (R156). -/
theorem paramBlock_held {t c : Nat} (w : Who) (h : (s.ctx t c).param ≠ []) : s.paramBlock t c w = (s, .ok, (s.ctx t c).param) := by
  rw [State.paramBlock]
  exact if_pos h

/-! ### MMA -/

theorem leads_mma (hr : s.tileRuns u c 1 1 = true) (ho : s.storeOpen u = true)
    (hv : mmaRunnable (s.blockOf u c) (s.rd (R.CTX_PC_ITER (win u) c)) = true) : Leads s (.mma u c) (MmaDone s u c) :=
  .intro rfl (if_pos hr) (mma_done ho hv)

theorem mma_invalid {t c : Nat} (h : (s.ctx t c).param ≠ []) (hv : mmaValid (s.ctx t c).param = false) : s.mma t c = s.report_ t c .nackAbsent 0 := by
  simp [State.mma, paramBlock_held _ h, hv]

theorem leads_mma_invalid (hr : s.tileRuns u c 1 1 = true) (h : (s.ctx u c).param ≠ []) (hv : mmaValid (s.ctx u c).param = false) :
    Leads s (.mma u c) fun t => t.ctx u c = { s.ctx u c with result := some (.nackAbsent, 0) } ∧ t = { s with ctxs := t.ctxs } :=
  .intro rfl ((if_pos hr).trans (mma_invalid h hv)) ⟨State.setCtx_ctx s u c _, rfl⟩

theorem leads_tileCntClr {w : Who} {v : BitVec 32} (h : s.takes w (0x800030 + 0x10000 * u) (v ||| 1).toNat) : Leads s (.tileCntClr w u v) fun t =>
    t.answer.st = .ok ∧ t.tile u = { s.tile u with macBusy := 0, vecBusy := 0 } ∧ (∀ x, x ≠ u.val → t.tile x = s.tile x) ∧
    t = { s with tiles := t.tiles, answer := t.answer } := by
  have e := writeReg_TILE_CNT_CTRL u h
  rw [bv32_mod, bit_or_true (by decide), State.when, if_pos rfl, State.tileCntClr] at e
  exact .intro rfl e ⟨rfl, by rw [State.answers_tile, State.setTile_tile], fun _ hx => by rw [State.answers_tile, State.setTile_tile_ne _ _ hx], rfl⟩

/-- Settles O19: the row's results by `mma_done`; a block that is not valid ends the row with NACK_ABSENT. -/
theorem tileMma : Obligations.TileMma :=
  ⟨fun _ _ _ => leads_mma, fun _ _ _ => leads_mma_invalid, fun _ _ _ _ => leads_tileCntClr⟩

/-! ### VEC -/

/-- Every VEC command runs `vec` with its operation. -/
theorem Leads.vec {i : Instr} {op : Nat} (hx : exec i s = .next (s.vecRow op u c)) (hr : s.tileRuns u c 2 op = true) (ho : s.storeOpen u = true)
    (hv : vecRunnable op (s.blockOf u c) (s.rd (R.CTX_PC_ITER (win u) c)) = true) : Leads s i (VecDone op s u c) :=
  .intro hx (if_pos hr) (vec_done ho hv)

theorem vec_invalid {op t c : Nat} (h : (s.ctx t c).param ≠ []) (hv : vecValid op (s.ctx t c).param = false) : s.vec op t c = s.report_ t c .nackAbsent 0 := by
  simp [State.vec, paramBlock_held _ h, hv]

theorem leads_add_invalid (hr : s.tileRuns u c 2 1 = true) (h : (s.ctx u c).param ≠ []) (hv : vecValid 1 (s.ctx u c).param = false) :
    Leads s (.add u c) fun t => t.ctx u c = { s.ctx u c with result := some (.nackAbsent, 0) } ∧ t = { s with ctxs := t.ctxs } :=
  .intro rfl ((if_pos hr).trans (vec_invalid h hv)) ⟨State.setCtx_ctx s u c _, rfl⟩

/-- Settles O20: each command is a VEC row of its operation, whose results `vec_done` gives. -/
theorem tileVec : Obligations.TileVec :=
  ⟨fun _ _ _ => Leads.vec rfl, fun _ _ _ => Leads.vec rfl, fun _ _ _ => Leads.vec rfl, fun _ _ _ => Leads.vec rfl, fun _ _ _ => Leads.vec rfl,
    fun _ _ _ => Leads.vec rfl, fun _ _ _ => Leads.vec rfl, fun _ _ _ => Leads.vec rfl, fun _ _ _ => Leads.vec rfl, fun _ _ _ => Leads.vec rfl,
    fun _ _ _ => Leads.vec rfl, fun _ _ _ => Leads.vec rfl, fun _ _ _ => Leads.vec rfl, fun _ _ _ => Leads.vec rfl, fun _ _ _ => Leads.vec rfl,
    fun _ _ _ => Leads.vec rfl, fun _ _ _ => Leads.vec rfl, fun _ _ _ => Leads.vec rfl, fun _ _ _ => Leads.vec rfl, fun _ _ _ => Leads.vec rfl,
    fun _ _ _ => Leads.vec rfl, fun _ _ _ => Leads.vec rfl, fun _ _ _ => Leads.vec rfl, fun _ _ _ => leads_add_invalid⟩

end Sys2Proof.Machine
end

section
/-! PROOFS. Rows and commands of the Selectors (R192 to R203 of spec/06_selector.md). -/

namespace Sys2Proof.Machine

variable {s : State} {u : Fin 64} {c : Fin 16}

/-! ### Rows -/

/-- The operation of a SEL row on its block, whatever the operation (R194, R200). -/
theorem selRow_reports {op t c : Nat} {l : List Byte} {s1 : State} {r : State × Status} (hp : s.paramBlock t c (s.rowWho t c (rowClass (s.ctx t c).row)) = (s1, .ok, l))
    (hr : r = if op = 1 then s1.topk t c (s.rowWho t c (rowClass (s.ctx t c).row)) l (s.rd (R.CTX_PC_ITER (win t) c))
          (s.rd (R.CTX_PC_ITER (win t) c) == rowRepeat (s.ctx t c).row) (s.ctx t c).step (s.rd (R.CTX_PC_PC (win t) c))
      else if op = 2 then s1.mergeRow t (s.rowWho t c (rowClass (s.ctx t c).row)) l (s.rd (R.CTX_PC_ITER (win t) c)) (s.ctx t c).step (s.rd (R.CTX_PC_PC (win t) c))
      else s1.argidxRow t (s.rowWho t c (rowClass (s.ctx t c).row)) l (s.rd (R.CTX_PC_ITER (win t) c)) (s.ctx t c).step (s.rd (R.CTX_PC_PC (win t) c))) :
    s.selRow op t c = r.1.report_ t c r.2 0 := by
  subst hr
  unfold State.selRow
  dsimp only
  rw [hp]
  rfl

theorem inStore_le {o : Int} {n : Nat} (h : inStore o n = true) : o.toNat + n ≤ 0x200000 := by
  simp only [inStore, Bool.and_eq_true, decide_eq_true_eq] at h
  omega

section Rows

variable {s1 : State} {t c0 it step row : Nat} {w : Who} {l : List Byte} {y : List (Nat × CtxInt)} {b : SelBlk} (hs : s.storeOk t)
  (h1 : s1 = { s with ctxs := y })
include hs h1

/-- TOPK without CHAIN in a store that answers: one pass, its record written (R196). -/
theorem topk_writes {last : Bool} (hb : b = selBlk l (s.logical t) it)
    (hv : selValid 1 l = true ∧ b.srcOk = true ∧ inStore b.dst (128 + 8 * b.k) = true) (hc : b.chain = false) :
    s1.topk t c0 w l it last step row = s1.selWrite t w step row b (s.selOver t b) := by
  have hb' : selBlk l (s1.logical t) it = b := by rw [hb, h1]; rfl
  obtain ⟨hv1, hv2, hv3⟩ := hv
  have hp := selPass_ok (w := w) hs h1 hv2 {}
  unfold State.topk
  cases (s1.tile t).chain <;> simp [hb', hv1, hv2, hv3, hc, hp, State.selOver]

/-- ARGIDX in a store that answers: the index of the pass's one winner written (R198). -/
theorem argidxRow_writes {b1 : SelBlk} (hb : b = { selBlk l (s.logical t) it with dst := baseOf (pb l 4 4) (pbS l 12 4) it })
    (hb1 : b1 = { selBlk l (s.logical t) it with k := 1 }) (hv : selValid 3 l = true ∧ b.srcOk = true ∧ inStore b.dst 4 = true) :
    s1.argidxRow t w l it step row =
      ((s1.engWriteRows t w step row [(b.dst.toNat, leBytes 4 (((s.selOver t b1).kept.head?.map (·.idx)).getD 0xFFFFFFFF))]).1.selDone t 0 ((s.selOver t b1).nNan != 0),
        (s1.engWriteRows t w step row [(b.dst.toNat, leBytes 4 (((s.selOver t b1).kept.head?.map (·.idx)).getD 0xFFFFFFFF))]).2) := by
  have hl : s1.logical t = s.logical t := by rw [h1]; rfl
  obtain ⟨hv1, hv2, hv3⟩ := hv
  have hp : s1.argPass t w l it = (s1, .ok, s.selOver t b1) := by
    rw [State.argPass, hl, ← hb1]
    exact selPass_ok hs h1 (by rw [hb1]; rw [hb] at hv2; exact hv2) {}
  subst hb
  unfold State.argidxRow
  cases hk : (s.selOver t b1).kept <;> simp only [hl, hv1, hv2, hv3, hp, hk] <;> rfl

end Rows

/-- The record of a selection stored at its destination, the flags of the pass raised (R193). -/
theorem selWrite_stored {y : List (Nat × CtxInt)} {u step row : Nat} {w : Who} {b : SelBlk} {x : Selection} {q : State × Status} (hs : s.storeOk u)
    (hi : inStore b.dst (128 + 8 * b.k) = true) (hq : q = State.selWrite { s with ctxs := y } u w step row b x) : q.2 = .ok ∧ ∃ r m e wb rv un sg,
      q.1 = { s with regs := r, ctxs := y, mem := m, ecc := e, wb := wb, resv := rv, units := un, sigs := sg } ∧ RegsBut (selFlds u) s { s with regs := r } ∧
      State.rd { s with regs := r } (R.SEL_PASSES_PASSES u) = satAdd 32 (s.rd (R.SEL_PASSES_PASSES u)) 1 ∧
      RowsStored s { s with mem := m } u [(b.dst.toNat, (x.record b u).1)] := by
  generalize hp : State.engWriteRows { s with ctxs := y } u w step row [(b.dst.toNat, (x.record b u).1)] = p at *
  obtain ⟨hok, hrest⟩ := selStore hs step row b.dst.toNat (x.record b u).2 (x.nNan != 0) (x.record b u).1 (by rw [record_length]; exact inStore_le hi) p hp.symm
  have hq' : q = (p.1.selDone u (x.record b u).2 (x.nNan != 0), p.2) := by rw [hq, State.selWrite, hp]
  rw [hq']
  exact ⟨hok, hrest⟩

theorem leads_topk {b : SelBlk} (hr : s.tileRuns u c 3 1 = true) (ho : s.storeOpen u = true)
    (hb : b = selBlk (s.blockOf u c) (s.logical u) (s.rd (R.CTX_PC_ITER (win u) c)))
    (hv : selValid 1 (s.blockOf u c) = true ∧ b.srcOk = true ∧ inStore b.dst (128 + 8 * b.k) = true) (hc : b.chain = false) : Leads s (.topk u c) fun t =>
      t.ctx u c = { s.ctx u c with param := s.blockOf u c, result := some (.ok, 0) } ∧ RowsStored s t u [(b.dst.toNat, ((s.selOver u b).record b u).1)] ∧
      t.rd (R.SEL_PASSES_PASSES u) = satAdd 32 (s.rd (R.SEL_PASSES_PASSES u)) 1 ∧ RegsBut (selFlds u) s t ∧
      t = { s with regs := t.regs, mem := t.mem, ecc := t.ecc, wb := t.wb, resv := t.resv, units := t.units, sigs := t.sigs, ctxs := t.ctxs } := by
  have hs := storeOk_of_open ho
  obtain ⟨y, hp, hx⟩ := paramBlock_ok c (s.rowWho u c (rowClass (s.ctx u c).row)) hs
  have hw := topk_writes (c0 := c) (w := s.rowWho u c (rowClass (s.ctx u c).row)) (step := (s.ctx u c).step) (row := s.rd (R.CTX_PC_PC (win u) c))
    (last := s.rd (R.CTX_PC_ITER (win u) c) == rowRepeat (s.ctx u c).row) hs (y := y) rfl hb hv hc
  generalize hq : State.selWrite { s with ctxs := y } u (s.rowWho u c (rowClass (s.ctx u c).row)) (s.ctx u c).step (s.rd (R.CTX_PC_PC (win u) c)) b (s.selOver u b) = q at hw
  have e := selRow_reports (op := 1) hp (r := q) (hw.symm.trans (if_pos rfl).symm)
  obtain ⟨hok, r, m, ec, wb, rv, un, sg, heq, hregs, hpass, hrows⟩ := selWrite_stored hs hv.2.2 hq.symm
  rw [hok] at e
  exact .intro rfl ((if_pos hr).trans e) (selReport hx heq hregs hpass hrows rfl)

theorem leads_argidx {b b1 : SelBlk} (hr : s.tileRuns u c 3 3 = true) (ho : s.storeOpen u = true)
    (hb : b = { selBlk (s.blockOf u c) (s.logical u) (s.rd (R.CTX_PC_ITER (win u) c)) with dst := baseOf (pb (s.blockOf u c) 4 4) (pbS (s.blockOf u c) 12 4) (s.rd (R.CTX_PC_ITER (win u) c)) })
    (hb1 : b1 = { selBlk (s.blockOf u c) (s.logical u) (s.rd (R.CTX_PC_ITER (win u) c)) with k := 1 })
    (hv : selValid 3 (s.blockOf u c) = true ∧ b.srcOk = true ∧ inStore b.dst 4 = true) : Leads s (.argidx u c) fun t =>
      t.ctx u c = { s.ctx u c with param := s.blockOf u c, result := some (.ok, 0) } ∧
      RowsStored s t u [(b.dst.toNat, leBytes 4 (((s.selOver u b1).kept.head?.map (·.idx)).getD 0xFFFFFFFF))] ∧
      t.rd (R.SEL_PASSES_PASSES u) = satAdd 32 (s.rd (R.SEL_PASSES_PASSES u)) 1 ∧ RegsBut (selFlds u) s t ∧
      t = { s with regs := t.regs, mem := t.mem, ecc := t.ecc, wb := t.wb, resv := t.resv, units := t.units, sigs := t.sigs, ctxs := t.ctxs } := by
  have hs := storeOk_of_open ho
  obtain ⟨y, hp, hx⟩ := paramBlock_ok c (s.rowWho u c (rowClass (s.ctx u c).row)) hs
  have hw := argidxRow_writes (w := s.rowWho u c (rowClass (s.ctx u c).row)) (step := (s.ctx u c).step) (row := s.rd (R.CTX_PC_PC (win u) c))
    hs (y := y) rfl hb hb1 hv
  have e := selRow_reports (op := 3) hp hw.symm
  obtain ⟨hok, r, m, ec, wb, rv, un, sg, heq, hregs, hpass, hrows⟩ := selStore hs (s.ctx u c).step (s.rd (R.CTX_PC_PC (win u) c)) b.dst.toNat 0
    ((s.selOver u b1).nNan != 0) (leBytes 4 (((s.selOver u b1).kept.head?.map (·.idx)).getD 0xFFFFFFFF)) (by rw [leBytes_length]; exact inStore_le hv.2.2) _ rfl
  rw [hok] at e
  exact .intro rfl ((if_pos hr).trans e) (selReport hx heq hregs hpass hrows rfl)

theorem mergeRow_writes {t it step row : Nat} {w : Who} {l : List Byte} {b : SelBlk} {x : Selection}
    (hb : b = { selBlk l (s.logical t) it with dst := baseOf (pb l 4 4) (pbS l 12 4) it }) (hv : selValid 2 l = true ∧ inStore b.dst (128 + 8 * b.k) = true)
    (hm : s.mergeReads t w b (List.range b.count) {} = (s, .ok, true, x)) : s.mergeRow t w l it step row = s.selWrite t w step row b x := by
  obtain ⟨hv1, hv2⟩ := hv
  unfold State.mergeRow
  extract_lets b0 b1 r
  obtain rfl : b1 = b := hb.symm
  have hr : r = (s, .ok, true, x) := hm
  simp [hv1, hv2, hr]

theorem leads_merge {b : SelBlk} {x : Selection} {w : Who} (hr : s.tileRuns u c 3 2 = true) (ho : s.storeOpen u = true) (hpar : (s.ctx u c).param ≠ [])
    (hb : b = { selBlk (s.ctx u c).param (s.logical u) (s.rd (R.CTX_PC_ITER (win u) c)) with dst := baseOf (pb (s.ctx u c).param 4 4) (pbS (s.ctx u c).param 12 4) (s.rd (R.CTX_PC_ITER (win u) c)) })
    (hv : selValid 2 (s.ctx u c).param = true ∧ inStore b.dst (128 + 8 * b.k) = true) (hw : w = s.rowWho u c (rowClass (s.ctx u c).row))
    (hm : s.mergeReads u w b (List.range b.count) {} = (s, .ok, true, x)) : Leads s (.merge u c) fun t =>
      t.ctx u c = { s.ctx u c with result := some (.ok, 0) } ∧ RowsStored s t u [(b.dst.toNat, (x.record b u).1)] ∧
      t.rd (R.SEL_PASSES_PASSES u) = satAdd 32 (s.rd (R.SEL_PASSES_PASSES u)) 1 ∧ RegsBut (selFlds u) s t ∧
      t = { s with regs := t.regs, mem := t.mem, ecc := t.ecc, wb := t.wb, resv := t.resv, units := t.units, sigs := t.sigs, ctxs := t.ctxs } := by
  have hs := storeOk_of_open ho
  subst hw
  have hw := mergeRow_writes (step := (s.ctx u c).step) (row := s.rd (R.CTX_PC_PC (win u) c)) hb hv hm
  generalize hq : s.selWrite u (s.rowWho u c (rowClass (s.ctx u c).row)) (s.ctx u c).step (s.rd (R.CTX_PC_PC (win u) c)) b x = q at hw
  have e := selRow_reports (op := 2) (r := q) (paramBlock_held _ hpar) hw.symm
  obtain ⟨hok, r, m, ec, wb, rv, un, sg, heq, hregs, hpass, hrows⟩ := selWrite_stored (y := s.ctxs) hs hv.2 hq.symm
  rw [hok] at e
  exact .intro rfl ((if_pos hr).trans e) (selReport (y := s.ctxs) rfl heq hregs hpass hrows rfl)

/-! ### The counters and the coprocessor port -/

theorem leads_selCntClr {w : Who} {v : BitVec 32} (h : s.takes w (0x800040 + 0x10000 * u) (v ||| 2).toNat) : Leads s (.selCntClr w u v) fun t =>
    t.rd (R.SEL_PASSES_PASSES u) = 0 ∧ t.rd (R.SEL_CTRL_FLAG_IRQ_EN u) = v.toNat % 2 ∧ t.answer.st = .ok ∧
    RegsBut [R.SEL_PASSES_PASSES u, R.SEL_CTRL_FLAG_IRQ_EN u] s t ∧ t = { s with regs := t.regs, answer := t.answer } := by
  obtain ⟨hit, -, hf, e⟩ := writeReg_SEL_CTRL u h
  have hp : s.plainWrite (0x800040 + 0x10000 * u) hit (v ||| 2).toNat = s.wr (R.SEL_CTRL_FLAG_IRQ_EN u) (bits (v ||| 2).toNat 0 1) := by
    simp only [State.plainWrite, hf, State.writeFields, State.writeField, fieldOf_nil]
    rfl
  have hbits : bits (v ||| 2).toNat 0 1 = v.toNat % 2 := bits_or v 2 0 1 (by decide)
  rw [bv32_mod, bit_or_true (by decide), State.when, if_pos rfl, State.selCntClr, hp, hbits] at e
  refine .intro rfl e ⟨?_, ?_, rfl, ?_, rfl⟩
  · simp
  · rw [State.answers_rd, State.rd_wr_ne _ _ (by simp only [R.SEL_CTRL_FLAG_IRQ_EN, R.SEL_PASSES_PASSES]; omega), State.rd_wr_same]
    simp [R.SEL_CTRL_FLAG_IRQ_EN]
  · simp

theorem port_offset_in {a base : Nat} (h : a - base < 0x200000) : (a - base) / 64 * 64 + 64 ≤ 0x200000 := by omega

theorem leads_selQmax {core : Fin 4} {rs1 : BitVec 64} {u : Nat} {l : List Byte} {b : SelBlk} (ht : tileOfAddr rs1.toNat = some u)
    (hg : s.gate u (s.stamp rs1.toNat) = (s, .ok)) (ho : s.storeOpen u = true ∧ rs1.toNat - storeBase u < 0x200000)
    (hl : l = s.getBytes (storeBase u + (rs1.toNat - storeBase u) / 64 * 64) 64) (hb : b = { selBlk l (s.logical u) 0 with k := 1 })
    (hv : selValid 3 l = true ∧ b.srcOk = true) : Leads s (.selQmax core rs1) fun t =>
      t.answer.st = .ok ∧ t.answer.value = (match (s.selOver u b).kept with | x :: _ => x.idx + x.phys * 2 ^ 26 + x.key * 2 ^ 32 | [] => 2 ^ 64 - 1) ∧
      t.qstat = s.qstat.set core 0 ∧ t.rd (R.SEL_PASSES_PASSES u) = satAdd 32 (s.rd (R.SEL_PASSES_PASSES u)) 1 ∧ RegsBut (selFlds u) s t ∧
      t = { s with regs := t.regs, qstat := t.qstat, answer := t.answer } := by
  have hs := storeOk_of_open ho.1
  have hread : s.engRead u (coreWho core) ((rs1.toNat - storeBase u) / 64 * 64) 64 = (s, .ok, l) := by rw [hl]; exact engRead_ok hs (port_offset_in ho.2)
  have hpass : s.argPass u (coreWho core) l 0 = (s, .ok, s.selOver u b) := by
    rw [State.argPass, ← hb]
    exact selPass_ok (y := s.ctxs) hs rfl hv.2 {}
  have hsrc : (selBlk l (s.logical u) 0).srcOk = true := by rw [← hv.2, hb]; rfl
  obtain ⟨hregs, ⟨r, hr⟩, hp⟩ := selDone_regs s u 0 ((s.selOver u b).nNan != 0)
  have e : s.purePort core (.qmax rs1) = (s.selDone u 0 ((s.selOver u b).nNan != 0)).portCommit core true .ok
      (match (s.selOver u b).kept with | x :: _ => x.idx + x.phys * 2 ^ 26 + x.key * 2 ^ 32 | [] => 2 ^ 64 - 1) := by
    simp only [State.purePort, State.pureOp, State.qmax, portAddr, ht, hg, hread, hpass, hv.1, hsrc]
    cases (s.selOver u b).kept <;> rfl
  refine .intro rfl e ⟨rfl, ?_, ?_, hp, hregs, ?_⟩
  · simp [State.portCommit, State.answers]
  · rw [hr]; rfl
  · rw [hr]; rfl

theorem leads_selQtopk {core : Fin 4} {rs1 : BitVec 64} {u : Nat} {l : List Byte} {b : SelBlk} (ht : tileOfAddr rs1.toNat = some u)
    (hg : s.gate u (s.stamp rs1.toNat) = (s, .ok)) (ho : s.storeOpen u = true ∧ rs1.toNat - storeBase u < 0x200000)
    (hl : l = s.getBytes (storeBase u + (rs1.toNat - storeBase u) / 64 * 64) 64) (hb : b = { selBlk l (s.logical u) 0 with chain := false })
    (hv : selValid 1 l = true ∧ b.srcOk = true ∧ inStore b.dst (128 + 8 * b.k) = true) : Leads s (.selQtopk core rs1) fun t =>
      t.answer.st = .ok ∧ t.answer.value = (s.selOver u b).kept.length ∧ RowsStored s t u [(b.dst.toNat, ((s.selOver u b).record b u).1)] ∧
      t.qstat = s.qstat.set core 0 ∧ t.rd (R.SEL_PASSES_PASSES u) = satAdd 32 (s.rd (R.SEL_PASSES_PASSES u)) 1 ∧ RegsBut (selFlds u) s t ∧
      t = { s with regs := t.regs, mem := t.mem, ecc := t.ecc, wb := t.wb, resv := t.resv, units := t.units, qstat := t.qstat, answer := t.answer } := by
  have hs := storeOk_of_open ho.1
  obtain ⟨hv1, hv2, hv3⟩ := hv
  have hread : s.engRead u (coreWho core) ((rs1.toNat - storeBase u) / 64 * 64) 64 = (s, .ok, l) := by rw [hl]; exact engRead_ok hs (port_offset_in ho.2)
  have hpass : s.selPass u (coreWho core) b {} = (s, .ok, s.selOver u b) := selPass_ok (y := s.ctxs) hs rfl hv2 {}
  generalize hp : s.engWriteRows u (coreWho core) 0 0 [(b.dst.toNat, ((s.selOver u b).record b u).1)] = p
  obtain ⟨w1, w2, w3⟩ := engWriteRows_ok (w := coreWho core) (step := 0) (row := 0) [(b.dst.toNat, ((s.selOver u b).record b u).1)] s hs
    (by simpa [record_length] using inStore_le hv3) (List.pairwise_singleton _ _)
  rw [hp] at w1 w2 w3
  have hq : s.qtopk (coreWho core) rs1.toNat =
      (State.selDone { p.1 with sigs := s.sigs } u ((s.selOver u b).record b u).2 ((s.selOver u b).nNan != 0), .ok, (s.selOver u b).kept.length) := by
    have hd : (selBlk l (s.logical u) 0).dst = b.dst := by rw [hb]
    have hk : (selBlk l (s.logical u) 0).k = b.k := by rw [hb]
    rw [← hd] at hp
    rw [← hd, ← hk] at hv3
    unfold State.qtopk
    simp [ht, hg, hread, ← hb, hv1, hv2, hv3, hpass, hp, w1]
  have e : s.qtopkPort core rs1.toNat =
      (State.selDone { p.1 with sigs := s.sigs } u ((s.selOver u b).record b u).2 ((s.selOver u b).nNan != 0)).portCommit core false .ok (s.selOver u b).kept.length := by
    rw [State.qtopkPort, hq]
    rfl
  obtain ⟨hregs, ⟨r, hr⟩, hpass⟩ := selDone_regs { p.1 with sigs := s.sigs } u ((s.selOver u b).record b u).2 ((s.selOver u b).nNan != 0)
  rw [hr] at e hregs hpass
  have h1 : p.1 = { s with mem := p.1.mem, ecc := p.1.ecc, wb := p.1.wb, resv := p.1.resv, units := p.1.units, sigs := p.1.sigs } := w2.1
  have hrd : ∀ f, State.rd { p.1 with sigs := s.sigs } f = s.rd f := fun f => rd_congr (s := s) (by rw [h1]) f
  generalize p.1 = t at *
  refine .intro rfl e ⟨rfl, rfl, ⟨w3.1, w3.2⟩, ?_, hpass.trans (by rw [hrd]), fun f hf => (hregs f hf).trans (hrd f), ?_⟩
  · rw [h1]; rfl
  · rw [h1]; rfl

/-- Settles O21: each SEL row and port command on an open store makes its pass, stores its result and counts it. -/
theorem selectorRows : Obligations.SelectorRows := by
  unfold Obligations.SelectorRows
  refine ⟨?topk, ?merge, ?argidx, ?cntClr, ?qmax, ?qtopk⟩
  case topk => exact fun s u c b hr ho hb hv hc => leads_topk hr ho hb hv hc
  case merge => exact fun s u c b x w hr ho hpar hb hv hw hm => leads_merge hr ho hpar hb hv hw hm
  case argidx => exact fun s u c b b1 hr ho hb hb1 hv => leads_argidx hr ho hb hb1 hv
  case cntClr => exact fun s w u v h => leads_selCntClr h
  case qmax => exact fun s core rs1 u l b ht hg ho hl hb hv => leads_selQmax ht hg ho hl hb hv
  case qtopk => exact fun s core rs1 u l b ht hg ho hl hb hv => leads_selQtopk ht hg ho hl hb hv

end Sys2Proof.Machine
end

section
/-! PROOFS. States and commands of the motor axes (R339 to R346 of spec/10_motor_axes.md). -/

namespace Sys2Proof.Machine

variable {s t : State} {n : Nat}

/-! ### A state that differs in registers alone -/

/-- Nothing but registers differs. -/
def OnlyRegs (s t : State) : Prop := t = { s with regs := t.regs }

theorem OnlyRegs.refl (s : State) : OnlyRegs s s := rfl

theorem OnlyRegs.trans {u : State} (h : OnlyRegs s t) (h' : OnlyRegs t u) : OnlyRegs s u :=
  Eq.trans h' (congrArg (fun x : State => { x with regs := u.regs }) h)

theorem OnlyRegs.wr (h : OnlyRegs s t) (f : Fld) (v : Nat) : OnlyRegs s (t.wr f v) := h.trans rfl

theorem OnlyRegs.wrAll (h : OnlyRegs s t) (l : List (Fld × Nat)) : OnlyRegs s (t.wrAll l) := h.trans (State.wrAll_upd t l)

theorem OnlyRegs.flag (h : OnlyRegs s t) (c : Bool) (f : Fld) : OnlyRegs s (t.flag c f) := h.trans (State.flag_upd t c f)

theorem OnlyRegs.count (h : OnlyRegs s t) (f : Fld) (k : Nat) : OnlyRegs s (t.count f k) := h.trans (State.count_upd t f k)

theorem RegsBut.of_rd {fs : List Fld} (h : ∀ f, t.rd f = s.rd f) : RegsBut fs s t := fun f _ => h f

theorem on_of_rd (h : ∀ f, t.rd f = s.rd f) (f : Fld) : t.on f = s.on f := by rw [State.on, State.on, h]

theorem OnlyRegs.axis (h : OnlyRegs s t) (x : Nat) : t.axis x = s.axis x := by rw [h]; rfl

theorem OnlyRegs.now (h : OnlyRegs s t) : t.now = s.now := by rw [h]

theorem OnlyRegs.axes (h : OnlyRegs s t) : t.axes = s.axes := by rw [h]

/-! ### Changing one axis -/

@[simp] theorem axMod_rd (f : AxisSt → AxisSt) (g : Fld) : (s.axMod n f).rd g = s.rd g := rfl

@[simp] theorem axMod_on (f : AxisSt → AxisSt) (g : Fld) : (s.axMod n f).on g = s.on g := rfl

@[simp] theorem axMod_now (f : AxisSt → AxisSt) : (s.axMod n f).now = s.now := rfl

@[simp] theorem regsBut_axMod {fs : List Fld} (f : AxisSt → AxisSt) : RegsBut fs s (t.axMod n f) ↔ RegsBut fs s t := Iff.rfl

theorem axMod_axis_same (f : AxisSt → AxisSt) (h : n < s.axes.length) : (s.axMod n f).axis n = f (s.axis n) := State.axis_same s _ h

theorem axMod_axis_ne {x : Nat} (f : AxisSt → AxisSt) (h : x ≠ n) : (s.axMod n f).axis x = s.axis x := State.axis_ne s _ h

theorem axMod_wr (f : AxisSt → AxisSt) (g : Fld) (v : Nat) : (s.axMod n f).wr g v = (s.wr g v).axMod n f := rfl

theorem axMod_axMod (f g : AxisSt → AxisSt) : (s.axMod n f).axMod n g = s.axMod n (g ∘ f) := by
  by_cases h : n < s.axes.length
  · rw [State.axMod, State.axMod, State.axMod, State.axis_same s _ h]
    simp [State.setAxis]
  · simp [State.axMod, State.setAxis, List.set_eq_of_length_le (Nat.le_of_not_lt h)]

theorem axMod_fixed {f : AxisSt → AxisSt} (h : f (s.axis n) = s.axis n) : s.axMod n f = s := by
  have hl : s.axes.set n (s.axes.getD n {}) = s.axes := by
    by_cases hn : n < s.axes.length
    · rw [List.getD_eq_getElem _ _ hn, List.set_getElem_self]
    · exact List.set_eq_of_length_le (Nat.le_of_not_lt hn)
  rw [State.axMod, h, State.setAxis, State.axis, hl]

theorem axMod_congr {f g : AxisSt → AxisSt} (h : f (s.axis n) = g (s.axis n)) : s.axMod n f = s.axMod n g := by rw [State.axMod, State.axMod, h]

theorem OnlyRegs.axisOnly (h : OnlyRegs s t) (f : AxisSt → AxisSt) : AxisOnly n s (t.axMod n f) :=
  ⟨fun _ hx => (axMod_axis_ne f hx).trans (h.axis _), congrArg (fun x : State => { x with axes := (t.axMod n f).axes }) h⟩

theorem OnlyRegs.axisWritten (h : OnlyRegs s t) (f : AxisSt → AxisSt) : AxisWritten n s ((t.axMod n f).answers .ok 0 []) :=
  ⟨fun _ hx => (axMod_axis_ne f hx).trans (h.axis _), rfl,
    congrArg (fun x : State => { x with axes := (t.axMod n f).axes, answer := ((t.axMod n f).answers .ok 0 []).answer }) h⟩

/-! ### Entry to the states (R339) -/

theorem setPat_eq (s : State) (n p : Nat) : s.setPat n p = s.axMod n (·.patted p s.now) := rfl

/-- The holding brake set. -/
def AxisSt.braked (a : AxisSt) (now : Nat) : AxisSt := if a.hbrk = false then a else { a with hbrk := false, hbrkOff := now }

theorem setHbrk_false (s : State) (n : Nat) : s.setHbrk n false = s.axMod n (·.braked s.now) := by
  simp [State.setHbrk, AxisSt.braked]

/-- The registers of an axis as entry to OFF or INVALID leaves them: TORQUE_OK off, PHASE 0 in OFF. -/
def State.leftRegs (s : State) (n st : Nat) : State :=
  ((s.wr (R.AX_STAT_STATE n) st).wr (R.AX_STAT_TORQUE_OK n) 0).wr (R.AX_STAT_PHASE n) (if st = 0 then 0 else s.rd (R.AX_STAT_PHASE n))

theorem leftRegs_state (s : State) (n st : Nat) : (s.leftRegs n st).axState n = st % 8 := by
  simp (disch := (simp only [R.AX_STAT_STATE, R.AX_STAT_PHASE, R.AX_STAT_TORQUE_OK]; omega)) [State.leftRegs, State.axState, State.rd_wr_ne]
  rfl

theorem leftRegs_phase (s : State) (n st : Nat) : (s.leftRegs n st).rd (R.AX_STAT_PHASE n) = (if st = 0 then 0 else s.rd (R.AX_STAT_PHASE n)) % 8 := State.rd_wr_same _ _ _

theorem leftRegs_torque (s : State) (n st : Nat) : (s.leftRegs n st).on (R.AX_STAT_TORQUE_OK n) = false := by
  simp (disch := (simp only [R.AX_STAT_PHASE, R.AX_STAT_TORQUE_OK]; omega)) [State.leftRegs, State.on_wr_ne]

theorem regsBut_leftRegs (s : State) (n st : Nat) : RegsBut [R.AX_STAT_STATE n, R.AX_STAT_PHASE n, R.AX_STAT_TORQUE_OK n] s (s.leftRegs n st) := by
  simp [State.leftRegs]

theorem OnlyRegs.left (h : OnlyRegs s t) (n st : Nat) : OnlyRegs s (t.leftRegs n st) := h.trans rfl

theorem axTo_left {st : Nat} (h : st = 0 ∨ st = 5) (s : State) (n : Nat) : s.axTo n st = (s.leftRegs n st).axMod n (axisLeft · s.now) := by
  simp only [State.axTo, if_pos h, setPat_eq, setHbrk_false, axMod_axMod, axMod_wr, axMod_rd]
  rw [State.rd_wr_ne _ _ (by simp only [R.AX_STAT_PHASE, R.AX_STAT_STATE]; omega)]
  rfl

/-- An axis as entry to CATCH leaves it. -/
def axisCaught (a : AxisSt) (now : Nat) : AxisSt :=
  { (({ a with since := now, probeOn := false } : AxisSt).patted 0 now).braked now with
    gateEn := true, hbrkOff := now, probes := 0, batchAt := now, probe3 := none, probeW := none }

theorem axTo_catch (s : State) (n : Nat) : s.axTo n 1 = (s.wr (R.AX_STAT_STATE n) 1).axMod n (axisCaught · s.now) := by
  simp only [State.axTo, setPat_eq, setHbrk_false, axMod_axMod]
  rfl

theorem axisCaught_fields (a : AxisSt) (now : Nat) : (axisCaught a now).gateEn = true ∧ (axisCaught a now).pat = 0 ∧ (axisCaught a now).hbrk = false ∧
    (axisCaught a now).since = now ∧ (axisCaught a now).probes = 0 := by
  unfold axisCaught AxisSt.braked AxisSt.patted
  split_ifs <;> simp_all

/-- An axis as entry to STOPPING leaves it. -/
def axisStopped (a : AxisSt) (now : Nat) : AxisSt :=
  { ({ a with since := now, probeOn := false } : AxisSt).patted 1 now with gateEn := true, pwmOn := true, lowRun := 0, okRun := 0 }

theorem axTo_stop (s : State) (n : Nat) : s.axTo n 3 = (s.wr (R.AX_STAT_STATE n) 3).axMod n (axisStopped · s.now) := by
  simp only [State.axTo, setPat_eq, axMod_axMod]
  rfl

theorem axisStopped_fields (a : AxisSt) (now : Nat) : (axisStopped a now).pat = 1 ∧ (axisStopped a now).gateEn = true ∧ (axisStopped a now).since = now := by
  unfold axisStopped AxisSt.patted
  split_ifs <;> simp_all

/-- Entry to INVALID by an active axis, with any cause that is reported (R340). -/
theorem axInvalid_active {cause : Nat} (ha : s.axActive n = true) (hc : cause ≠ 9) : s.axInvalid n cause = ((s.wr (R.AX_STAT_CAUSE n) cause).axTo n 5).report (0x10 + n) cause := by
  have h5 : s.axState n ≠ 5 := by
    intro h
    simp [State.axActive, h] at ha
  simp [State.axInvalid, h5, ha, hc, State.reportIf]

/-! ### The brake chopper (R346) -/

/-- The chopper of an axis put. -/
def AxisSt.chopped (a : AxisSt) (b : Bool) (at_ : Option Nat) : AxisSt := { a with bch := b, bchAt := at_ }

theorem chopped_fixed (s : State) (n : Nat) : s.axMod n (·.chopped (s.axis n).bch (s.axis n).bchAt) = s := axMod_fixed rfl

theorem setAxis_chopped (s : State) (n : Nat) (b : Bool) (x : Option Nat) : s.setAxis n { s.axis n with bch := b, bchAt := x } = s.axMod n (·.chopped b x) := rfl

/-- The evaluation of the chopper changes the chopper alone. -/
theorem bchEval_chopped (s : State) (n : Nat) : ∃ b x, s.bchEval n = s.axMod n (·.chopped b x) := by
  have hput (c : Bool) (b : Bool) (x : Option Nat) : ∃ b' x', (if c then s.setAxis n { s.axis n with bch := b, bchAt := x } else s) = s.axMod n (·.chopped b' x') := by
    cases c
    · exact ⟨_, _, (chopped_fixed s n).symm⟩
    · exact ⟨b, x, rfl⟩
  unfold State.bchEval
  split
  · exact hput _ _ _
  · split
    · exact hput _ _ _
    · exact hput _ _ _

/-! ### AX_CTRL (R340) -/

theorem axState_wr_ne {f : Fld} (v : Nat) (h : (R.AX_STAT_STATE n).key ≠ f.key) : (s.wr f v).axState n = s.axState n := State.rd_wr_ne _ v h

theorem onlyRegs_axCtrlFields (s : State) (n w : Nat) : OnlyRegs s (s.axCtrlFields n w) := by
  unfold State.axCtrlFields
  split
  · exact ((OnlyRegs.refl s).wrAll _).wrAll _
  · exact (OnlyRegs.refl s).wrAll _

/-- The fields of AX_CTRL that a write sets. -/
def axCtrlFlds (n : Nat) : List Fld :=
  [R.AX_CTRL_DUTY_SRC n, R.AX_CTRL_HOIST n, R.AX_CTRL_DOWN_NEG n, R.AX_CTRL_HBRK_EN n, R.AX_CTRL_BCH_EN n, R.AX_CTRL_IRQ_EN n]

theorem regsBut_axCtrlFields (s : State) (n w : Nat) : RegsBut (axCtrlFlds n) s (s.axCtrlFields n w) := by
  unfold State.axCtrlFields axCtrlFlds
  split <;> simp [State.wrAll]

theorem axCtrlFields_or (s : State) (n : Nat) (v k : BitVec 32) (h : ∀ i ∈ [4, 5, 6, 7, 8, 9], bits k.toNat i 1 = 0) :
    s.axCtrlFields n (v ||| k).toNat = s.axCtrlFields n v.toNat := by
  simp only [List.forall_mem_cons] at h
  obtain ⟨h4, h5, h6, h7, h8, h9, -⟩ := h
  simp only [State.axCtrlFields, bits_or v k _ _ h4, bits_or v k _ _ h5, bits_or v k _ _ h6, bits_or v k _ _ h7, bits_or v k _ _ h8, bits_or v k _ _ h9]

/-- PWM_EN as the counter runs already, or in an active state, does nothing. -/
theorem pwmEn_idle {one : Bool} (h : one = (s.axis n).run ∨ (s.axState n ≠ 0 ∧ s.axState n ≠ 5)) : s.pwmEn n one = s := by
  unfold State.pwmEn
  refine if_pos ?_
  rcases h with h | ⟨h0, h5⟩
  · simp [h]
  · simp [h0, h5]

/-- A write of AX_CTRL: its fields, PWM_EN, then its commands, then the chopper. -/
theorem writeAxCtrl_eq (s : State) (n w : Nat) : s.writeAxCtrl n w =
    (((((s.axCtrlFields n w).pwmEn n (bit w 3)).when (bit w 2) (·.axClear n)).when (bit w 0) (·.axStart n)).when (bit w 1) (·.axStop n true)).bchEval n := rfl

@[simp] theorem when_true (f : State → State) : s.when true f = f s := rfl

@[simp] theorem when_false (f : State → State) : s.when false f = s := rfl

/-- What a command of AX_CTRL leaves: its registers, its axis but for the chopper, its answer. -/
theorem Leads.axisCommand {c : Instr} {P : State → Prop} {s' u : State} {f : AxisSt → AxisSt} (hx : exec c s = .next u) (e : u = ((s'.axMod n f).bchEval n).answers .ok 0 [])
    (hn : n < s.axes.length) (h : OnlyRegs s s') (hp : ∀ t, AxisButChopper (f (s.axis n)) (t.axis n) → AxisWritten n s t → (∀ g, t.rd g = s'.rd g) → P t) : Leads s c P := by
  obtain ⟨b, x, hb⟩ := bchEval_chopped (s'.axMod n f) n
  rw [hb, axMod_axMod] at e
  refine .intro hx e (hp _ ?_ (h.axisWritten _) fun g => rfl)
  rw [State.answers_axis, axMod_axis_same _ (by rw [h.axes]; exact hn), h.axis]
  rfl

/-- What an event of an axis leaves: its registers and its axis. -/
theorem Leads.axisEvent {c : Instr} {P : State → Prop} {s' u : State} {f : AxisSt → AxisSt} (hx : exec c s = .next u) (e : u = s'.axMod n f)
    (hn : n < s.axes.length) (h : OnlyRegs s s') (hp : ∀ t, t.axis n = f (s.axis n) → AxisOnly n s t → (∀ g, t.rd g = s'.rd g) → P t) : Leads s c P := by
  refine .intro hx e (hp _ ?_ (h.axisOnly _) fun g => rfl)
  rw [axMod_axis_same _ (by rw [h.axes]; exact hn), h.axis]

/-- What an event of an axis leaves that is reported. -/
theorem Leads.axisReported {c : Instr} {P : State → Prop} {s' u : State} {f : AxisSt → AxisSt} {src d : Nat} (hx : exec c s = .next u) (e : u = (s'.axMod n f).report src d)
    (hn : n < s.axes.length) (h : OnlyRegs s s') (hp : ∀ t, t.axis n = f (s.axis n) → (∀ x, x ≠ n → t.axis x = s.axis x) → t.reports = s.reports ++ [(src, d)] →
      (∀ g, t.rd g = s'.rd g) → t = { s with regs := t.regs, axes := t.axes, reports := t.reports } → P t) : Leads s c P := by
  have hr : s'.reports = s.reports := by rw [h]
  refine .intro hx e (hp _ ?_ (fun x hx => ?_) ?_ (fun g => rfl) ?_)
  · exact (axMod_axis_same f (by rw [h.axes]; exact hn)).trans (by rw [h.axis])
  · exact (axMod_axis_ne f hx).trans (h.axis x)
  · exact congrArg (· ++ [(src, d)]) hr
  · exact congrArg (fun x : State => { x with axes := (s'.axMod n f).axes, reports := s'.reports ++ [(src, d)] }) h

theorem bit_or_of_false {v k : BitVec 32} {i : Nat} (h : bit k.toNat i = false) : bit (v ||| k).toNat i = bit v.toNat i := by
  rw [bit_or, h, Bool.or_false]

section Writes

variable {s1 : State} {w : Who} {n : Fin 12} {v : BitVec 32}

theorem writeReg_axStart (h : s.takes w (0x100000 + 0x1000 * n) (v ||| 1).toNat = true) (h1 : s1 = s.axCtrlFields n v.toNat)
    (hb : bit v.toNat 1 = false ∧ bit v.toNat 2 = false) (hr : bit v.toNat 3 = (s.axis n).run) :
    s.writeReg w (0x100000 + 0x1000 * n) (v ||| 1).toNat = ((s1.axStart n).bchEval n).answers .ok 0 [] := by
  have e := writeReg_AX_CTRL n h
  have hp : s1.pwmEn n (s.axis n).run = s1 := pwmEn_idle (.inl (by rw [h1, (onlyRegs_axCtrlFields s n v.toNat).axis]))
  rw [bv32_mod, writeAxCtrl_eq, axCtrlFields_or _ _ _ _ (by decide), ← h1, bit_or_true (i := 0) (by decide), bit_or_of_false (i := 1) (by decide),
    bit_or_of_false (i := 2) (by decide), bit_or_of_false (i := 3) (by decide), hb.1, hb.2, hr, hp] at e
  exact e

theorem axStart_ok (h : s.axState n = 0) (hok : s.axStartOk n = true) :
    s.axStart n = (((s.wr (R.AX_STAT_CAUSE n) 0).wr (R.AX_STAT_PHASE n) 0).wr (R.AX_STAT_STATE n) 1).axMod n (axisCaught · s.now) := by
  rw [State.axStart, if_neg (by simp [h, hok]), axTo_catch]
  rfl

theorem axStart_rejected (h : s.axState n ≠ 0 ∨ s.axStartOk n = false) : s.axStart n = s.wr (R.AX_STAT_REJ n) 1 := by
  rw [State.axStart, if_pos (by simpa using h)]

/-- A field outside AX_CTRL is left by a write of its fields. -/
theorem rd_axCtrlFields (s : State) (n k : Nat) {f : Fld} (h : f.key < (0x100000 + 0x1000 * n) * 8 ∨ (0x100000 + 0x1000 * n) * 8 + 32 ≤ f.key) : (s.axCtrlFields n k).rd f = s.rd f :=
  regsBut_axCtrlFields s n k f (by
    simp [axCtrlFlds, R.AX_CTRL_DUTY_SRC, R.AX_CTRL_HOIST, R.AX_CTRL_DOWN_NEG, R.AX_CTRL_HBRK_EN, R.AX_CTRL_BCH_EN, R.AX_CTRL_IRQ_EN]
    omega)

theorem axState_axCtrlFields (s : State) (n k : Nat) : (s.axCtrlFields n k).axState n = s.axState n :=
  rd_axCtrlFields s n k (by simp only [R.AX_STAT_STATE]; omega)

theorem leads_axisStart (hn : n < s.axes.length) (h : s.takes w (0x100000 + 0x1000 * n) (v ||| 1).toNat = true) (h1 : s1 = s.axCtrlFields n v.toNat)
    (hb : bit v.toNat 1 = false ∧ bit v.toNat 2 = false) (h0 : s.axState n = 0) (hr : bit v.toNat 3 = (s.axis n).run) (hok : s1.axStartOk n = true) :
    Leads s (.axisStart w n v) fun t => t.axState n = 1 ∧ t.rd (R.AX_STAT_CAUSE n) = 0 ∧ t.rd (R.AX_STAT_PHASE n) = 0 ∧ (t.axis n).gateEn = true ∧ (t.axis n).pat = 0 ∧
      (t.axis n).hbrk = false ∧ (t.axis n).since = s.now ∧ (t.axis n).probes = 0 ∧ RegsBut [R.AX_STAT_STATE n, R.AX_STAT_CAUSE n, R.AX_STAT_PHASE n] s1 t ∧ AxisWritten n s t := by
  have e := writeReg_axStart h h1 hb hr
  have hs : OnlyRegs s s1 := h1 ▸ onlyRegs_axCtrlFields s n v.toNat
  rw [axStart_ok (by rw [h1, axState_axCtrlFields, h0]) hok, hs.now] at e
  refine .axisCommand rfl e hn (((hs.wr _ _).wr _ _).wr _ _) fun t ha hw hrd => ?_
  obtain ⟨c1, c2, c3, c4, c5⟩ := axisCaught_fields (s.axis n) s.now
  refine ⟨(hrd _).trans (State.rd_wr_same _ _ _), (hrd _).trans ?_, (hrd _).trans ?_, ?_, ?_, ?_, ?_, ?_, RegsBut.trans ?_ (RegsBut.of_rd hrd), hw⟩
  · simp (disch := (simp only [R.AX_STAT_CAUSE, R.AX_STAT_STATE, R.AX_STAT_PHASE]; omega)) [State.rd_wr_ne]
  · simp (disch := (simp only [R.AX_STAT_CAUSE, R.AX_STAT_STATE, R.AX_STAT_PHASE]; omega)) [State.rd_wr_ne]
  · rw [ha]; exact c1
  · rw [ha]; exact c2
  · rw [ha]; exact c3
  · rw [ha]; exact c4
  · rw [ha]; exact c5
  · simp

theorem leads_axisStart_rejected (hn : n < s.axes.length) (h : s.takes w (0x100000 + 0x1000 * n) (v ||| 1).toNat = true) (h1 : s1 = s.axCtrlFields n v.toNat)
    (hb : bit v.toNat 1 = false ∧ bit v.toNat 2 = false) (hr : bit v.toNat 3 = (s.axis n).run) (hrej : s.axState n ≠ 0 ∨ s1.axStartOk n = false) :
    Leads s (.axisStart w n v) fun t => t.on (R.AX_STAT_REJ n) = true ∧ t.axState n = s.axState n ∧ RegsBut [R.AX_STAT_REJ n] s1 t ∧
      AxisButChopper (s.axis n) (t.axis n) ∧ AxisWritten n s t := by
  have e := writeReg_axStart h h1 hb hr
  have hs : OnlyRegs s s1 := h1 ▸ onlyRegs_axCtrlFields s n v.toNat
  have hst : s1.axState n = s.axState n := by rw [h1, axState_axCtrlFields]
  rw [axStart_rejected (by rw [hst]; exact hrej), ← axMod_fixed (s := s1.wr (R.AX_STAT_REJ n) 1) (f := id) (n := n) rfl] at e
  refine .axisCommand rfl e hn (hs.wr _ _) fun t ha hw hrd => ⟨?_, (hrd _).trans ?_, RegsBut.trans ?_ (RegsBut.of_rd hrd), ha, hw⟩
  · simp [State.on, hrd, R.AX_STAT_REJ]
  · rw [← hst]
    exact State.rd_wr_ne _ _ (by simp only [R.AX_STAT_REJ, R.AX_STAT_STATE]; omega)
  · simp

theorem axCtrlFields_closed (h : s.axOpen n = false) (k : Nat) : s.axCtrlFields n k = s.wrAll [(R.AX_CTRL_BCH_EN n, bits k 8 1), (R.AX_CTRL_IRQ_EN n, bits k 9 1)] := by
  rw [State.axCtrlFields, h, if_neg Bool.false_ne_true]

/-- STOP in an active state: BCH_EN and IRQ_EN, then STOP. -/
theorem writeReg_axStop (h : s.takes w (0x100000 + 0x1000 * n) (v ||| 2).toNat = true) (hb : bit v.toNat 0 = false ∧ bit v.toNat 2 = false)
    (hst : s.axState n ≠ 0 ∧ s.axState n ≠ 5) (h1 : s1 = s.wrAll [(R.AX_CTRL_BCH_EN n, bits v.toNat 8 1), (R.AX_CTRL_IRQ_EN n, bits v.toNat 9 1)]) :
    s.writeReg w (0x100000 + 0x1000 * n) (v ||| 2).toNat = ((s1.axStop n true).bchEval n).answers .ok 0 [] := by
  have e := writeReg_AX_CTRL n h
  have h1' : s.axCtrlFields n v.toNat = s1 := by rw [h1]; exact axCtrlFields_closed (by simp [State.axOpen, hst]) _
  have hp (b : Bool) : s1.pwmEn n b = s1 := pwmEn_idle (.inr (by rw [← h1', axState_axCtrlFields]; exact hst))
  rw [bv32_mod, writeAxCtrl_eq, axCtrlFields_or _ _ _ _ (by decide), h1', bit_or_of_false (i := 0) (by decide), bit_or_true (i := 1) (by decide),
    bit_or_of_false (i := 2) (by decide), hb.1, hb.2, hp] at e
  exact e

theorem axState_enables (s : State) (n a b : Nat) : State.axState (s.wrAll [(R.AX_CTRL_BCH_EN n, a), (R.AX_CTRL_IRQ_EN n, b)]) n = s.axState n := by
  simp (disch := (simp only [R.AX_CTRL_BCH_EN, R.AX_CTRL_IRQ_EN, R.AX_STAT_STATE]; omega)) [State.axState, State.wrAll, State.rd_wr_ne]

theorem leads_axisStop_run (hn : n < s.axes.length) (h : s.takes w (0x100000 + 0x1000 * n) (v ||| 2).toNat = true)
    (hb : bit v.toNat 0 = false ∧ bit v.toNat 2 = false) (hst : s.axState n = 2) :
    Leads s (.axisStop w n v) fun t => t.axState n = 3 ∧ t.rd (R.AX_STAT_PHASE n) = 4 ∧ (t.axis n).pat = 1 ∧ (t.axis n).gateEn = true ∧ (t.axis n).since = s.now ∧
      t.rd (R.AX_CTRL_BCH_EN n) = bits v.toNat 8 1 ∧ t.rd (R.AX_CTRL_IRQ_EN n) = bits v.toNat 9 1 ∧
      RegsBut [R.AX_STAT_STATE n, R.AX_STAT_PHASE n, R.AX_CTRL_BCH_EN n, R.AX_CTRL_IRQ_EN n] s t ∧ AxisWritten n s t := by
  have e := writeReg_axStop h hb (by rw [hst]; decide) rfl
  rw [State.axStop, axState_enables, if_neg (by rw [hst]; decide), if_pos hst, axTo_stop] at e
  refine .axisCommand rfl e hn ((((OnlyRegs.refl s).wrAll _).wr _ _).wr _ _) fun t ha hw hrd => ?_
  obtain ⟨c1, c2, c3⟩ := axisStopped_fields (s.axis n) s.now
  have hnow : State.now ((State.wrAll s [(R.AX_CTRL_BCH_EN n, bits v.toNat 8 1), (R.AX_CTRL_IRQ_EN n, bits v.toNat 9 1)]).wr (R.AX_STAT_PHASE n) 4) = s.now := rfl
  rw [hnow] at ha
  refine ⟨(hrd _).trans (State.rd_wr_same _ _ _), (hrd _).trans ?_, ?_, ?_, ?_, (hrd _).trans ?_, (hrd _).trans ?_, RegsBut.trans ?_ (RegsBut.of_rd hrd), hw⟩
  · simp (disch := (simp only [R.AX_STAT_STATE, R.AX_STAT_PHASE]; omega)) [State.rd_wr_ne]
    rfl
  · rw [ha]; exact c1
  · rw [ha]; exact c2
  · rw [ha]; exact c3
  · simp (disch := (simp only [R.AX_CTRL_BCH_EN, R.AX_CTRL_IRQ_EN, R.AX_STAT_STATE, R.AX_STAT_PHASE]; omega)) [State.wrAll, State.rd_wr_ne]
    exact bits_mod _ _ _
  · simp (disch := (simp only [R.AX_CTRL_BCH_EN, R.AX_CTRL_IRQ_EN, R.AX_STAT_STATE, R.AX_STAT_PHASE]; omega)) [State.wrAll, State.rd_wr_ne]
    exact bits_mod _ _ _
  · simp [State.wrAll]

theorem leads_axisStop_catch (hn : n < s.axes.length) (h : s.takes w (0x100000 + 0x1000 * n) (v ||| 2).toNat = true)
    (hb : bit v.toNat 0 = false ∧ bit v.toNat 2 = false) (hst : s.axState n = 1) :
    Leads s (.axisStop w n v) fun t => t.axState n = 0 ∧ t.rd (R.AX_STAT_PHASE n) = 0 ∧ t.on (R.AX_STAT_TORQUE_OK n) = false ∧ AxisButChopper (axisLeft (s.axis n) s.now) (t.axis n) ∧
      RegsBut [R.AX_STAT_STATE n, R.AX_STAT_PHASE n, R.AX_STAT_TORQUE_OK n, R.AX_CTRL_BCH_EN n, R.AX_CTRL_IRQ_EN n] s t ∧ AxisWritten n s t := by
  have e := writeReg_axStop h hb (by rw [hst]; decide) rfl
  rw [State.axStop, axState_enables, if_pos hst, axTo_left (.inl rfl)] at e
  refine .axisCommand rfl e hn (((OnlyRegs.refl s).wrAll _).left _ _) fun t ha hw hrd => ?_
  refine ⟨(hrd _).trans (leftRegs_state _ _ _), (hrd _).trans (leftRegs_phase _ _ _), (on_of_rd hrd _).trans (leftRegs_torque _ _ _), ha, ?_, hw⟩
  refine (RegsBut.trans (t := State.wrAll s _) ?_ ((regsBut_leftRegs _ n 0).mono (by simp))).trans (RegsBut.of_rd hrd)
  simp [State.wrAll]

/-- What persists of the causes of INVALID is no matter of AX_CTRL. -/
theorem axPersists_axCtrlFields (s : State) (n : Fin 12) (k : Nat) : (s.axCtrlFields n k).axPersists n = s.axPersists n := by
  have hn := n.isLt
  have hf (m : Nat) : (s.axCtrlFields n k).sdFaulted m = s.sdFaulted m := by
    rw [State.sdFaulted, State.on, rd_axCtrlFields s n k (by simp only [R.SD_STAT_FAULTED]; omega)]
    rfl
  have hv : (s.axCtrlFields n k).vbusIn n = s.vbusIn n := by
    rw [State.vbusIn, rd_axCtrlFields s n k (by simp only [R.AX_ENC_VBUS_SEL]; omega)]
    rfl
  have hw (m : Nat) : (s.axCtrlFields n k).rdS (R.SD_WORD_WORD m) = s.rdS (R.SD_WORD_WORD m) := by
    rw [State.rdS, rd_axCtrlFields s n k (by simp only [R.SD_WORD_WORD]; omega)]
    rfl
  have hx : (s.axCtrlFields n k).rdS (R.AX_VBUS_MAX_VBUS_MAX n) = s.rdS (R.AX_VBUS_MAX_VBUS_MAX n) := by
    rw [State.rdS, rd_axCtrlFields s n k (by simp only [R.AX_VBUS_MAX_VBUS_MAX]; omega)]
    rfl
  simp only [State.axPersists, hf, hv, hw, hx]

theorem inSafe_axCtrlFields (s : State) (n : Fin 12) (k : Nat) : (s.axCtrlFields n k).inSafe = s.inSafe := by
  rw [State.inSafe, State.on, rd_axCtrlFields s n k (.inl (by simp only [R.SF_STAT_SAFE]; omega))]
  rfl

/-- CLEAR: the fields of AX_CTRL, then CLEAR. -/
theorem writeReg_axClear (h : s.takes w (0x100000 + 0x1000 * n) (v ||| 4).toNat = true) (h1 : s1 = s.axCtrlFields n v.toNat)
    (hb : bit v.toNat 0 = false ∧ bit v.toNat 1 = false) (hr : bit v.toNat 3 = (s.axis n).run) :
    s.writeReg w (0x100000 + 0x1000 * n) (v ||| 4).toNat = ((s1.axClear n).bchEval n).answers .ok 0 [] := by
  have e := writeReg_AX_CTRL n h
  have hp : s1.pwmEn n (s.axis n).run = s1 := pwmEn_idle (.inl (by rw [h1, (onlyRegs_axCtrlFields s n v.toNat).axis]))
  rw [bv32_mod, writeAxCtrl_eq, axCtrlFields_or _ _ _ _ (by decide), ← h1, bit_or_of_false (i := 0) (by decide), bit_or_of_false (i := 1) (by decide),
    bit_or_true (i := 2) (by decide), bit_or_of_false (i := 3) (by decide), hb.1, hb.2, hr, hp] at e
  exact e

theorem leads_axisClear (hn : n < s.axes.length) (h : s.takes w (0x100000 + 0x1000 * n) (v ||| 4).toNat = true) (h1 : s1 = s.axCtrlFields n v.toNat)
    (hb : bit v.toNat 0 = false ∧ bit v.toNat 1 = false) (hr : bit v.toNat 3 = (s.axis n).run) (hst : s.axState n = 5) (hc : s.axPersists n = false ∧ s.inSafe = false) :
    Leads s (.axisClear w n v) fun t => t.axState n = 0 ∧ t.rd (R.AX_STAT_PHASE n) = 0 ∧ t.on (R.AX_STAT_TORQUE_OK n) = false ∧ AxisButChopper (axisLeft (s.axis n) s.now) (t.axis n) ∧
      RegsBut [R.AX_STAT_STATE n, R.AX_STAT_PHASE n, R.AX_STAT_TORQUE_OK n] s1 t ∧ AxisWritten n s t := by
  have e := writeReg_axClear h h1 hb hr
  have hs : OnlyRegs s s1 := h1 ▸ onlyRegs_axCtrlFields s n v.toNat
  rw [← axState_axCtrlFields s n v.toNat, ← h1] at hst
  rw [← axPersists_axCtrlFields s n v.toNat, ← inSafe_axCtrlFields s n v.toNat, ← h1] at hc
  rw [State.axClear, if_pos (by simp [hst, hc]), axTo_left (.inl rfl), hs.now] at e
  exact .axisCommand rfl e hn (hs.left _ _) fun t ha hw hrd => ⟨(hrd _).trans (leftRegs_state _ _ _), (hrd _).trans (leftRegs_phase _ _ _),
    (on_of_rd hrd _).trans (leftRegs_torque _ _ _), ha, (regsBut_leftRegs _ _ _).trans (RegsBut.of_rd hrd), hw⟩

theorem leads_axisClear_ignored (hn : n < s.axes.length) (h : s.takes w (0x100000 + 0x1000 * n) (v ||| 4).toNat = true) (h1 : s1 = s.axCtrlFields n v.toNat)
    (hb : bit v.toNat 0 = false ∧ bit v.toNat 1 = false) (hr : bit v.toNat 3 = (s.axis n).run) (hst : s.axState n = 5) (hc : s.axPersists n = true ∨ s.inSafe = true) :
    Leads s (.axisClear w n v) fun t => t.axState n = 5 ∧ RegsBut [] s1 t ∧ AxisButChopper (s.axis n) (t.axis n) ∧ AxisWritten n s t := by
  have e := writeReg_axClear h h1 hb hr
  have hs : OnlyRegs s s1 := h1 ▸ onlyRegs_axCtrlFields s n v.toNat
  rw [← axState_axCtrlFields s n v.toNat, ← h1] at hst
  rw [← axPersists_axCtrlFields s n v.toNat, ← inSafe_axCtrlFields s n v.toNat, ← h1] at hc
  have hclear : s1.axClear n = s1 := by
    rw [State.axClear, if_neg (by rcases hc with hc | hc <;> simp [hc])]
  rw [hclear, ← axMod_fixed (s := s1) (f := id) (n := n) rfl] at e
  exact .axisCommand rfl e hn hs fun t ha hw hrd => ⟨(hrd _).trans hst, RegsBut.of_rd hrd, ha, hw⟩

end Writes

/-! ### Timers (R340 to R346) -/

section Timers

variable {n : Fin 12}

theorem leads_catchTimeout (hn : n < s.axes.length) (hst : s.axState n = 1) (ht : (min (max (s.rd (R.AX_CATCH_T_CATCH n)) 1) 100) * 400000 ≤ s.since (s.axis n).since) :
    Leads s (.catchTimeout n) fun t => t.axState n = 0 ∧ t.on (R.AX_STAT_CATCH_FAIL n) = true ∧ t.rd (R.AX_STAT_PHASE n) = 0 ∧ t.on (R.AX_STAT_TORQUE_OK n) = false ∧
      t.axis n = axisLeft (s.axis n) s.now ∧ RegsBut [R.AX_STAT_STATE n, R.AX_STAT_CATCH_FAIL n, R.AX_STAT_PHASE n, R.AX_STAT_TORQUE_OK n] s t ∧ AxisOnly n s t := by
  have e : s.catchTimeout n = ((s.wr (R.AX_STAT_CATCH_FAIL n) 1).leftRegs n 0).axMod n (axisLeft · s.now) := by
    rw [State.catchTimeout, if_pos ⟨hst, ht⟩, axTo_left (.inl rfl)]
    rfl
  refine .axisEvent rfl e hn (((OnlyRegs.refl s).wr _ _).left _ _) fun t ha ho hrd => ⟨(hrd _).trans (leftRegs_state _ _ _), ?_, (hrd _).trans (leftRegs_phase _ _ _),
    (on_of_rd hrd _).trans (leftRegs_torque _ _ _), ha, ?_, ho⟩
  · rw [on_of_rd hrd]
    simp (disch := (simp only [R.AX_STAT_STATE, R.AX_STAT_PHASE, R.AX_STAT_TORQUE_OK, R.AX_STAT_CATCH_FAIL]; omega)) [State.leftRegs, State.on_wr_ne]
  · refine RegsBut.trans ?_ (RegsBut.of_rd hrd)
    simp [State.leftRegs]

theorem axInvalid_left {n cause : Nat} (ha : s.axActive n = true) (hc : cause ≠ 9) :
    s.axInvalid n cause = (((s.wr (R.AX_STAT_CAUSE n) cause).leftRegs n 5).axMod n (axisLeft · s.now)).report (0x10 + n) cause := by
  rw [axInvalid_active ha hc, axTo_left (.inr rfl)]
  rfl

theorem leads_subTimeout (hn : n < s.axes.length) (hst : s.axState n = 4) (ht : (min (max (s.rd (R.AX_DET_TSUB n)) 1) 1000) * 4000 ≤ s.since (s.axis n).since) :
    Leads s (.subTimeout n) fun t => t.axState n = 5 ∧ t.rd (R.AX_STAT_CAUSE n) = 4 ∧ t.rd (R.AX_STAT_PHASE n) = s.rd (R.AX_STAT_PHASE n) % 8 ∧ t.on (R.AX_STAT_TORQUE_OK n) = false ∧
      t.axis n = axisLeft (s.axis n) s.now ∧ (∀ x, x ≠ n.val → t.axis x = s.axis x) ∧ t.reports = s.reports ++ [(0x10 + n.val, 4)] ∧
      RegsBut [R.AX_STAT_STATE n, R.AX_STAT_CAUSE n, R.AX_STAT_PHASE n, R.AX_STAT_TORQUE_OK n] s t ∧ t = { s with regs := t.regs, axes := t.axes, reports := t.reports } := by
  have e : s.subTimeout n = (((s.wr (R.AX_STAT_CAUSE n) 4).leftRegs n 5).axMod n (axisLeft · s.now)).report (0x10 + n) 4 := by
    rw [State.subTimeout, if_pos ⟨hst, ht⟩, axInvalid_left (by simp [State.axActive, hst]) (by decide)]
  refine .axisReported rfl e hn (((OnlyRegs.refl s).wr _ _).left _ _) fun t ha hne hrep hrd hfr => ⟨(hrd _).trans (leftRegs_state _ _ _), (hrd _).trans ?_,
    ((hrd _).trans (leftRegs_phase _ _ _)).trans ?_, (on_of_rd hrd _).trans (leftRegs_torque _ _ _), ha, hne, hrep, RegsBut.trans ?_ (RegsBut.of_rd hrd), hfr⟩
  · simp (disch := (simp only [R.AX_STAT_STATE, R.AX_STAT_PHASE, R.AX_STAT_TORQUE_OK, R.AX_STAT_CAUSE]; omega)) [State.leftRegs, State.rd_wr_ne]
    rfl
  · rw [if_neg (by decide), State.rd_wr_ne _ _ (by simp only [R.AX_STAT_PHASE, R.AX_STAT_CAUSE]; omega)]
  · simp [State.leftRegs]

theorem leads_brakeDelayExpiry (hn : n < s.axes.length) (hst : s.axState n = 3) (hl : 8 ≤ (s.axis n).lowRun)
    (hb : s.on (R.AX_CTRL_HBRK_EN n) = false ∨ ((s.axis n).hbrk = false ∧ s.rd (R.AX_BRK_BRK_DELAY n) ≤ s.since (s.axis n).hbrkOff)) :
    Leads s (.brakeDelayExpiry n) fun t => t.axState n = 0 ∧ t.rd (R.AX_STAT_PHASE n) = 0 ∧ t.on (R.AX_STAT_TORQUE_OK n) = false ∧ t.axis n = axisLeft (s.axis n) s.now ∧
      RegsBut [R.AX_STAT_STATE n, R.AX_STAT_PHASE n, R.AX_STAT_TORQUE_OK n] s t ∧ AxisOnly n s t := by
  have e : s.standstill n = (s.leftRegs n 0).axMod n (axisLeft · s.now) := by
    rw [State.standstill, if_pos ⟨hst, hl, by simpa using hb⟩, axTo_left (.inl rfl)]
  exact .axisEvent rfl e hn ((OnlyRegs.refl s).left _ _) fun t ha ho hrd => ⟨(hrd _).trans (leftRegs_state _ _ _), (hrd _).trans (leftRegs_phase _ _ _),
    (on_of_rd hrd _).trans (leftRegs_torque _ _ _), ha, (regsBut_leftRegs _ _ _).trans (RegsBut.of_rd hrd), ho⟩

theorem bchEval_word {m : Nat} {want : Bool} (hm : s.vbusIn n = some m)
    (hon : s.on (R.AX_CTRL_BCH_EN n) = true ∧ s.sdFaulted m = false ∧ s.inSafe = false ∧ s.on R.SF_STAT_FORCED = false)
    (hmay : ∀ t, (s.axis n).bchAt = some t → (s.axis n).chMin ≤ s.since t)
    (hw : want = if s.rdS (R.AX_CH_ON_CH_ON n) < s.rdS (R.SD_WORD_WORD m) then true else if s.rdS (R.SD_WORD_WORD m) < s.rdS (R.AX_CH_OFF_CH_OFF n) then false else (s.axis n).bch) :
    s.bchEval n = s.axMod n fun a => if want = a.bch then a else { a with bch := want, bchAt := some s.now } := by
  obtain ⟨h1, h2, h3, h4⟩ := hon
  unfold State.bchEval
  simp only [hm, h1, h2, h3, h4, ← hw]
  by_cases hc : want = (s.axis n).bch
  · rw [axMod_fixed (by rw [if_pos hc])]
    simp [hc]
  · rw [axMod_congr (g := fun a => { a with bch := want, bchAt := some s.now }) (if_neg hc)]
    cases hb : (s.axis n).bchAt with
    | none => simp [hc]; rfl
    | some t => simp [hc, hmay t hb]; rfl

theorem leads_chopper {m t0 : Nat} {want : Bool} (hn : n < s.axes.length) (hb : (s.axis n).bchAt = some t0 ∧ (s.axis n).chMin ≤ s.since t0) (hm : s.vbusIn n = some m)
    (hon : s.on (R.AX_CTRL_BCH_EN n) = true ∧ s.sdFaulted m = false ∧ s.inSafe = false ∧ s.on R.SF_STAT_FORCED = false)
    (hw : want = if s.rdS (R.AX_CH_ON_CH_ON n) < s.rdS (R.SD_WORD_WORD m) then true else if s.rdS (R.SD_WORD_WORD m) < s.rdS (R.AX_CH_OFF_CH_OFF n) then false else (s.axis n).bch) :
    Leads s (.chopperMinInterval n) fun t => t.axis n = (if want = (s.axis n).bch then s.axis n else { s.axis n with bch := want, bchAt := some s.now }) ∧ RegsBut [] s t ∧ AxisOnly n s t := by
  have hx : exec (.chopperMinInterval n) s = .next (s.bchEval n) := by
    show execChopperMinInterval n s = _
    rw [execChopperMinInterval, hb.1]
    exact congrArg _ (if_pos hb.2)
  refine .axisEvent hx (bchEval_word hm hon (fun t ht => ?_) hw) hn (OnlyRegs.refl s) fun t ha ho hrd => ⟨ha, RegsBut.of_rd hrd, ho⟩
  rw [hb.1] at ht
  cases ht
  exact hb.2

theorem leads_chopper_early {t0 : Nat} (hb : (s.axis n).bchAt = some t0 ∧ s.since t0 < (s.axis n).chMin) : Leads s (.chopperMinInterval n) fun t => t = s := by
  refine ⟨s, ?_, rfl⟩
  show execChopperMinInterval n s = _
  rw [execChopperMinInterval, hb.1]
  exact congrArg _ (if_neg (by omega))

theorem leads_probePulse (hn : n < s.axes.length) (hst : s.axState n = 1 ∧ s.on (R.AX_CATCH_CATCH_MODE n) = true) (hp : (s.axis n).probes < 3 ∧ (s.axis n).probeOn = false)
    (hr : s.reached (((s.axis n).batchAt + 40000 * (s.axis n).probes) % 2 ^ 48) = true) : Leads s (.probePulse n) fun t =>
      t.axis n = { (s.axis n).patted 2 s.now with probeOn := true, probeAt := s.now, probes := (s.axis n).probes + 1 } ∧ RegsBut [] s t ∧ AxisOnly n s t := by
  have hprobes (a : AxisSt) : (a.patted 2 s.now).probes = a.probes := by unfold AxisSt.patted; split <;> rfl
  have e : s.probePulse n = s.axMod n fun a => { a.patted 2 s.now with probeOn := true, probeAt := s.now, probes := a.probes + 1 } := by
    rw [State.probePulse, if_pos ⟨hst.1, hst.2, hp.1, by simp [hp.2], hr⟩, setPat_eq, axMod_axMod]
    refine axMod_congr ?_
    dsimp only [Function.comp_apply]
    rw [hprobes]
  exact .axisEvent rfl e hn (OnlyRegs.refl s) fun t ha ho hrd => ⟨ha, RegsBut.of_rd hrd, ho⟩

/-- The samples taken by the Reed instances of an axis change the instances alone. -/
theorem reedSample_reed (s : State) (n : Nat) : ∃ r, s.reedSample n = { s with reed := r } := by
  refine foldl_keep (fun q => ∃ r, q = { s with reed := r }) _ _ ?_ ⟨s.reed, rfl⟩
  rintro _ i - ⟨r, rfl⟩
  dsimp only
  split
  · exact ⟨r, rfl⟩
  · exact ⟨_, rfl⟩

/-- An axis with a sampling point taken (R324). -/
def AxisSt.sampled (a : AxisSt) (s : State) (n : Nat) (probe : Bool) : AxisSt :=
  { a with smpAt := s.now, smpTheta := s.phase (s.rd (R.AX_FB_DRONE n)), smpF := (s.drone (s.rd (R.AX_FB_DRONE n))).f, smpSub := s.phase (s.rd (R.AX_FB_SUB_DRONE n)), smpSubF := (s.drone (s.rd (R.AX_FB_SUB_DRONE n))).f, smpV := a.vA, smpProbe := probe, need := [3 * n, 3 * n + 1, 3 * n + 2].filter fun m => s.sdMode m != 0, openF := true }

/-- A sampling point with a current input that runs changes its axis, the windows and the Reed instances. -/
theorem sampleAt_waits (s : State) (n : Nat) (probe : Bool) (h : ([3 * n, 3 * n + 1, 3 * n + 2].filter fun m => s.sdMode m != 0) ≠ []) :
    ∃ d r, s.sampleAt n probe = { s.axMod n (·.sampled s n probe) with sds := d, reed := r } := by
  unfold State.sampleAt
  extract_lets d e need s1 s2 s3
  obtain ⟨r, hr⟩ := reedSample_reed s2 n
  rw [if_neg h]
  exact ⟨_, r, hr⟩

theorem leads_probePulseEnd (hn : n < s.axes.length) (hst : s.axState n = 1 ∧ (s.axis n).probeOn = true)
    (ht : min (max (s.rd (R.AX_CATCH_PROBE_W n)) 1) 1600 ≤ s.since (s.axis n).probeAt) (hin : ([3 * n.val, 3 * n.val + 1, 3 * n.val + 2].filter fun m => s.sdMode m != 0) ≠ []) :
    Leads s (.probePulseEnd n) fun t => (t.axis n).probeOn = false ∧ (t.axis n).pat = 0 ∧ (t.axis n).smpAt = s.now ∧ (t.axis n).smpProbe = true ∧ (t.axis n).openF = true ∧
      (t.axis n).smpTheta = s.phase (s.rd (R.AX_FB_DRONE n)) ∧ (t.axis n).need = ([3 * n.val, 3 * n.val + 1, 3 * n.val + 2].filter fun m => s.sdMode m != 0) ∧
      (∀ x, x ≠ n.val → t.axis x = s.axis x) ∧ RegsBut [] s t ∧ t = { s with axes := t.axes, sds := t.sds, reed := t.reed } := by
  have hpat (a : AxisSt) : (a.patted 0 s.now).pat = 0 := by
    unfold AxisSt.patted
    split
    · assumption
    · rfl
  obtain ⟨d, r, hs⟩ := sampleAt_waits (s.axMod n ((fun b => { b with probeOn := false }) ∘ (·.patted 0 s.now))) n true hin
  have e : s.probeEnd n = { (s.axMod n ((·.sampled s n true) ∘ (fun b => { b with probeOn := false }) ∘ (·.patted 0 s.now))) with sds := d, reed := r } := by
    rw [State.probeEnd, if_pos ⟨hst.1, hst.2, ht⟩, setPat_eq, axMod_axMod, hs, axMod_axMod]
    rfl
  have ha : State.axis { (s.axMod n ((·.sampled s n true) ∘ (fun b => { b with probeOn := false }) ∘ (·.patted 0 s.now))) with sds := d, reed := r } n =
      (({ (s.axis n).patted 0 s.now with probeOn := false } : AxisSt).sampled s n true) := axMod_axis_same _ hn
  refine .intro rfl e ?_
  rw [ha]
  exact ⟨rfl, hpat _, rfl, rfl, rfl, rfl, rfl, fun x hx => axMod_axis_ne _ hx, fun _ _ => rfl, rfl⟩

end Timers

/-- Settles O22: commands of AX_CTRL, timers and probe pulses, each as an entry to a state or one change of its axis. -/
theorem axisStates : Obligations.AxisStates := by
  unfold Obligations.AxisStates
  refine ⟨?start, ?rejected, ?stopRun, ?stopCatch, ?clear, ?ignored, ?catchTimeout, ?subTimeout, ?brake, ?chopper, ?early, ?pulse, ?pulseEnd⟩
  case start => exact fun s s1 w n v hn h h1 hb h0 hr hok => leads_axisStart hn h h1 hb h0 hr hok
  case rejected => exact fun s s1 w n v hn h h1 hb hr hrej => leads_axisStart_rejected hn h h1 hb hr hrej
  case stopRun => exact fun s w n v hn h hb hst => leads_axisStop_run hn h hb hst
  case stopCatch => exact fun s w n v hn h hb hst => leads_axisStop_catch hn h hb hst
  case clear => exact fun s s1 w n v hn h h1 hb hr hst hc => leads_axisClear hn h h1 hb hr hst hc
  case ignored => exact fun s s1 w n v hn h h1 hb hr hst hc => leads_axisClear_ignored hn h h1 hb hr hst hc
  case catchTimeout => exact fun s n hn hst ht => leads_catchTimeout hn hst ht
  case subTimeout => exact fun s n hn hst ht => leads_subTimeout hn hst ht
  case brake => exact fun s n hn hst hl hb => leads_brakeDelayExpiry hn hst hl hb
  case chopper => exact fun s n m t0 want hn hb hm hon hw => leads_chopper hn hb hm hon hw
  case early => exact fun s n t0 hb => leads_chopper_early hb
  case pulse => exact fun s n hn hst hp hr => leads_probePulse hn hst hp hr
  case pulseEnd => exact fun s n hn hst ht hin => leads_probePulseEnd hn hst ht hin

end Sys2Proof.Machine
end

section
/-! PROOFS. The PWM period of the motor axes: counter, reloads, sampling points, duty (R319 to R325, R338 of spec/10_motor_axes.md). -/

namespace Sys2Proof.Machine

variable {s s1 : State} {w : Who} {n : Fin 12} {v : BitVec 32}

/-! ### Counted fields and flags -/

theorem satAdd_lt (k a b : Nat) : satAdd k a b < 2 ^ k := by
  have := Nat.two_pow_pos k
  unfold satAdd
  omega

@[simp] theorem rd_count_same (s : State) (f : Fld) (k : Nat) : (s.count f k).rd f = satAdd f.w (s.rd f) k := by
  rw [State.count, State.rd_wr_same, Nat.mod_eq_of_lt (satAdd_lt _ _ _)]

theorem rd_count_ne (s : State) {f g : Fld} (k : Nat) (h : g.key ≠ f.key) : (s.count f k).rd g = s.rd g := State.rd_wr_ne s _ h

theorem rd_flag_ne (s : State) (c : Bool) {f g : Fld} (h : g.key ≠ f.key) : (s.flag c f).rd g = s.rd g := by
  cases c
  · rfl
  · exact State.rd_wr_ne s _ h

theorem on_flag_same (s : State) (c : Bool) {f : Fld} (hw : f.w = 1) : (s.flag c f).on f = (s.on f || c) := by
  cases c
  · simp [State.flag_false]
  · rw [State.on_flag_true s hw, Bool.or_true]

/-! ### PWM_EN (R319) -/

/-- What a write of a register of an axis leaves: its registers, its axis, its answer. -/
theorem Leads.axisWrite {c : Instr} {P : State → Prop} {s' u : State} {n : Nat} {f : AxisSt → AxisSt} (hx : exec c s = .next u) (e : u = (s'.axMod n f).answers .ok 0 [])
    (hn : n < s.axes.length) (h : OnlyRegs s s') (hp : ∀ t, t.axis n = f (s.axis n) → AxisWritten n s t → (∀ g, t.rd g = s'.rd g) → P t) : Leads s c P := by
  refine .intro hx e (hp _ ?_ (h.axisWritten _) fun g => rfl)
  rw [State.answers_axis, axMod_axis_same _ (by rw [h.axes]; exact hn), h.axis]

/-- An axis whose counter starts in the next cycle with a half-period. -/
def AxisSt.started (a : AxisSt) (now half : Nat) : AxisSt :=
  { a with run := true, valley := (now + 1) % 2 ^ 48, half := half, halfP := half, vDone := false, pDone := false, adj := 0, adjAt := none }

theorem pwmEn_start {n : Nat} (hst : s.axState n = 0 ∨ s.axState n = 5) (hr : (s.axis n).run = false) (hh : halfOk (s.rd (R.AX_PWM_HALF n)) = true) :
    s.pwmEn n true = (s.wr (R.AX_CTRL_PWM_EN n) 1).axMod n (·.started s.now (s.rd (R.AX_PWM_HALF n))) := by
  rw [State.pwmEn, if_neg (by simpa [hr, or_iff_not_imp_left] using hst), if_pos rfl]
  exact if_neg (by simp [hh])

/-- An axis whose counter stops with its gates off. -/
def AxisSt.halted (a : AxisSt) : AxisSt := { a with run := false, ph := a.ph.map fun g => { g with cmd := false, hi := none, lo := none } }

theorem pwmEn_stop {n : Nat} (hst : s.axState n = 0 ∨ s.axState n = 5) (hr : (s.axis n).run = true) :
    s.pwmEn n false = (s.wr (R.AX_CTRL_PWM_EN n) 0).axMod n (·.halted) := by
  rw [State.pwmEn, if_neg (by simpa [hr, or_iff_not_imp_left] using hst), if_neg Bool.false_ne_true]
  rfl

theorem bit_of_bits {x k w i : Nat} (h : bits x 0 w = k) (hi : i < w) : bit x i = bit k i := by
  rw [← h, bit, bit, bits, Nat.testBit_mod_two_pow]
  simp [hi]

/-- A write of AX_CTRL without a command: its fields, then PWM_EN. -/
theorem writeReg_pwmEn {k : Nat} (h : s.takes w (0x100000 + 0x1000 * n) v.toNat = true) (h1 : s1 = s.axCtrlFields n v.toNat) (hb : bits v.toNat 0 4 = k)
    (hk : bit k 0 = false ∧ bit k 1 = false ∧ bit k 2 = false) : s.writeReg w (0x100000 + 0x1000 * n) v.toNat = ((s1.pwmEn n (bit k 3)).bchEval n).answers .ok 0 [] := by
  have e := writeReg_AX_CTRL n h
  obtain ⟨k0, k1, k2⟩ := hk
  rw [bv32_mod, writeAxCtrl_eq, ← h1, bit_of_bits hb (i := 0) (by decide), bit_of_bits hb (i := 1) (by decide), bit_of_bits hb (i := 2) (by decide),
    bit_of_bits hb (i := 3) (by decide), k0, k1, k2] at e
  exact e

theorem leads_pwmEn_start (hn : n < s.axes.length) (h : s.takes w (0x100000 + 0x1000 * n) v.toNat = true) (h1 : s1 = s.axCtrlFields n v.toNat)
    (hb : bits v.toNat 0 4 = 8) (hst : s.axState n = 0 ∨ s.axState n = 5) (hr : (s.axis n).run = false) (hh : halfOk (s.rd (R.AX_PWM_HALF n)) = true) :
    Leads s (.pwmEn w n v) fun t => t.on (R.AX_CTRL_PWM_EN n) = true ∧ RegsBut [R.AX_CTRL_PWM_EN n] s1 t ∧ AxisWritten n s t ∧
      AxisButChopper { s.axis n with run := true, valley := (s.now + 1) % 2 ^ 48, half := s.rd (R.AX_PWM_HALF n), halfP := s.rd (R.AX_PWM_HALF n), vDone := false, pDone := false, adj := 0, adjAt := none } (t.axis n) := by
  have e := writeReg_pwmEn h h1 hb (by decide)
  have hs : OnlyRegs s s1 := h1 ▸ onlyRegs_axCtrlFields s n v.toNat
  have hst1 : s1.axState n = s.axState n := h1 ▸ axState_axCtrlFields s n v.toNat
  have hhalf : s1.rd (R.AX_PWM_HALF n) = s.rd (R.AX_PWM_HALF n) := h1 ▸ rd_axCtrlFields s n v.toNat (by simp only [R.AX_PWM_HALF]; omega)
  rw [(by decide : bit 8 3 = true), pwmEn_start (by rw [hst1]; exact hst) (by rw [hs.axis]; exact hr) (by rw [hhalf]; exact hh), hs.now, hhalf] at e
  exact .axisCommand rfl e hn (hs.wr _ _) fun t ha hw hrd => ⟨(on_of_rd hrd _).trans (State.on_wr_same _ _ _), RegsBut.trans (by simp) (RegsBut.of_rd hrd), hw, ha⟩

theorem leads_pwmEn_stop (hn : n < s.axes.length) (h : s.takes w (0x100000 + 0x1000 * n) v.toNat = true) (h1 : s1 = s.axCtrlFields n v.toNat)
    (hb : bits v.toNat 0 4 = 0) (hst : s.axState n = 0 ∨ s.axState n = 5) (hr : (s.axis n).run = true) :
    Leads s (.pwmEn w n v) fun t => t.on (R.AX_CTRL_PWM_EN n) = false ∧ RegsBut [R.AX_CTRL_PWM_EN n] s1 t ∧ AxisWritten n s t ∧
      AxisButChopper { s.axis n with run := false, ph := (s.axis n).ph.map fun g => { g with cmd := false, hi := none, lo := none } } (t.axis n) := by
  have e := writeReg_pwmEn h h1 hb (by decide)
  have hs : OnlyRegs s s1 := h1 ▸ onlyRegs_axCtrlFields s n v.toNat
  have hst1 : s1.axState n = s.axState n := h1 ▸ axState_axCtrlFields s n v.toNat
  rw [(by decide : bit 0 3 = false), pwmEn_stop (by rw [hst1]; exact hst) (by rw [hs.axis]; exact hr)] at e
  exact .axisCommand rfl e hn (hs.wr _ _) fun t ha hw hrd => ⟨(on_of_rd hrd _).trans (State.on_wr_same _ _ _), RegsBut.trans (by simp) (RegsBut.of_rd hrd), hw, ha⟩

/-- A mask of one axis starts that axis alone. -/
theorem syncGo_one (s : State) (n : Fin 12) : s.syncGo (2 ^ n.val) = s.pwmEn n true := by
  have hb (i : Nat) : bit (2 ^ n.val) i = decide (n.val = i) := by rw [bit, Nat.testBit_two_pow]
  have hn := n.isLt
  simp only [State.syncGo, hb]
  interval_cases n.val <;> rfl

theorem leads_axSyncGo (hn : n < s.axes.length) (h : s.takes w 0x10F000 v.toNat = true) (hv : v.toNat = 2 ^ n.val) (hst : s.axState n = 0 ∨ s.axState n = 5)
    (hr : (s.axis n).run = false) (hh : halfOk (s.rd (R.AX_PWM_HALF n)) = true) :
    Leads s (.axSyncGo w v) fun t => t.on (R.AX_CTRL_PWM_EN n) = true ∧ RegsBut [R.AX_CTRL_PWM_EN n] s t ∧ AxisWritten n s t ∧
      t.axis n = { s.axis n with run := true, valley := (s.now + 1) % 2 ^ 48, half := s.rd (R.AX_PWM_HALF n), halfP := s.rd (R.AX_PWM_HALF n), vDone := false, pDone := false, adj := 0, adjAt := none } := by
  have e := writeReg_AX_SYNC_GO h
  rw [bv32_mod, congrArg s.syncGo hv, syncGo_one, pwmEn_start hst hr hh] at e
  exact .axisWrite rfl e hn ((OnlyRegs.refl s).wr _ _) fun t ha hw hrd => ⟨(on_of_rd hrd _).trans (State.on_wr_same _ _ _), RegsBut.trans (by simp) (RegsBut.of_rd hrd), hw, ha⟩

/-! ### Reload points (R323) -/

/-- An axis with its shadows taken at a valley: a half-period, compare values, dead time and pulse limit. -/
def AxisSt.reloaded (a : AxisSt) (now half : Nat) (cmp : List Nat) (dt minp : Nat) : AxisSt :=
  { a with half := half, cmp := cmp, reloadAt := some now, vA := a.vS, upd := 0, noUpd := 0, spA := clampI (1 - (half : Int)) ((half : Int) - 1) a.spOfs, dt := dt, minp := minp, halfP := half, vDone := true, pDone := false }

theorem axMod_flag (s : State) (n : Nat) (f : AxisSt → AxisSt) (c : Bool) (g : Fld) : (s.axMod n f).flag c g = (s.flag c g).axMod n f := by
  cases c <;> rfl

theorem setAxis_flag (s : State) (n : Nat) (a : AxisSt) (c : Bool) (f : Fld) : (s.setAxis n a).flag c f = (s.flag c f).setAxis n a := by
  cases c <;> rfl

/-- The transfer at a valley of an axis that is not in RUN and whose registers give the duty. -/
theorem transfer_valley {n half : Nat} {c : List Nat × Bool} (hreg : s.on (R.AX_CTRL_DUTY_SRC n) = true) (hst : s.axState n ≠ 2)
    (hh : half = if halfOk (s.rd (R.AX_PWM_HALF n)) then s.rd (R.AX_PWM_HALF n) else (s.axis n).half) (hc : c = clampCmps half (s.cmpShadow n)) :
    s.transfer n true 0 = ((s.flag (!halfOk (s.rd (R.AX_PWM_HALF n))) (R.AX_STAT_REJ n)).flag c.2 (R.AX_STAT_DUTY_SAT n)).axMod n
      (·.reloaded s.now half c.1 (s.rd (R.AX_DT_DT n)) (s.rd (R.AX_DT_MINP n))) := by
  unfold State.transfer
  extract_lets a h reg half' keep c' news a1 a2 s1 s2 late
  have hkeep : keep = false := by simp [keep, reg, hreg]
  have hhalf : half' = half := hh.symm
  have hc' : c' = c := by simp only [c', hkeep, hhalf, hc]; rfl
  have ha2 : a2 = (s.axis n).reloaded s.now half c.1 (s.rd (R.AX_DT_DT n)) (s.rd (R.AX_DT_MINP n)) := by
    simp only [a2, a1, hkeep, hhalf, hc', news, reg, hreg]
    rfl
  have hs1 : s1.axState n ≠ 2 := by
    simp only [s1, State.axState]
    rw [rd_flag_ne _ _ (by simp only [R.AX_STAT_STATE, R.AX_STAT_DUTY_SAT]; omega), rd_flag_ne _ _ (by simp only [R.AX_STAT_STATE, R.AX_STAT_REJ]; omega)]
    exact hst
  have hs2 : s2 = s1 := if_neg fun h => hs1 h.1
  rw [hs2, if_neg (by simp [reg, hreg])]
  simp only [s1, ha2, hc', Bool.true_and, setAxis_flag]
  have ha : State.axis ((s.flag (!halfOk h) (R.AX_STAT_REJ n)).flag c.2 (R.AX_STAT_DUTY_SAT n)) n = s.axis n := (((OnlyRegs.refl s).flag _ _).flag _ _).axis n
  rw [State.axMod, ha]

theorem leads_reloadPoint {half : Nat} {c : List Nat × Bool} (hn : n < s.axes.length) (hv : (s.axis n).run = true ∧ s.reached (s.axis n).valley = true ∧ (s.axis n).vDone = false)
    (hreg : s.on (R.AX_CTRL_DUTY_SRC n) = true) (hst : s.axState n ≠ 2) (hh : half = if halfOk (s.rd (R.AX_PWM_HALF n)) then s.rd (R.AX_PWM_HALF n) else (s.axis n).half)
    (hc : c = clampCmps half (s.cmpShadow n)) :
    Leads s (.reloadPoint n) fun t => t.axis n = { s.axis n with half := half, cmp := c.1, reloadAt := some s.now, vA := (s.axis n).vS, upd := 0, noUpd := 0, spA := clampI (1 - (half : Int)) ((half : Int) - 1) (s.axis n).spOfs, dt := s.rd (R.AX_DT_DT n), minp := s.rd (R.AX_DT_MINP n), halfP := half, vDone := true, pDone := false } ∧
      t.on (R.AX_STAT_DUTY_SAT n) = (s.on (R.AX_STAT_DUTY_SAT n) || c.2) ∧ t.on (R.AX_STAT_REJ n) = (s.on (R.AX_STAT_REJ n) || !halfOk (s.rd (R.AX_PWM_HALF n))) ∧
      RegsBut [R.AX_STAT_REJ n, R.AX_STAT_DUTY_SAT n] s t ∧ AxisOnly n s t := by
  have e : s.reloadPoint n = s.transfer n true 0 := by
    rw [State.reloadPoint]
    simp only [hv]
    rfl
  refine .axisEvent rfl (e.trans (transfer_valley hreg hst hh hc)) hn (((OnlyRegs.refl s).flag _ _).flag _ _) fun t ha ho hrd =>
    ⟨ha, (on_of_rd hrd _).trans ?_, (on_of_rd hrd _).trans ?_, RegsBut.trans (by simp) (RegsBut.of_rd hrd), ho⟩
  · rw [on_flag_same _ _ rfl, State.on_flag_ne _ _ (by simp only [R.AX_STAT_DUTY_SAT, R.AX_STAT_REJ]; omega)]
  · rw [State.on_flag_ne _ _ (by simp only [R.AX_STAT_DUTY_SAT, R.AX_STAT_REJ]; omega), on_flag_same _ _ rfl]

/-! ### Sampling points (R324) -/

theorem leads_samplingPoint (hn : n < s.axes.length) (hd : s.samplingDue n = true) (ho : ¬ ((s.axis n).smpAt = s.now ∧ (s.axis n).openF = true))
    (hin : ([3 * n.val, 3 * n.val + 1, 3 * n.val + 2].filter fun m => s.sdMode m != 0) ≠ []) :
    Leads s (.samplingPoint n) fun t => t.axis n = { s.axis n with smpAt := s.now, smpTheta := s.phase (s.rd (R.AX_FB_DRONE n)), smpF := (s.drone (s.rd (R.AX_FB_DRONE n))).f, smpSub := s.phase (s.rd (R.AX_FB_SUB_DRONE n)), smpSubF := (s.drone (s.rd (R.AX_FB_SUB_DRONE n))).f, smpV := (s.axis n).vA, smpProbe := false, need := [3 * n.val, 3 * n.val + 1, 3 * n.val + 2].filter (fun m => s.sdMode m != 0), openF := true } ∧
      (∀ x, x ≠ n.val → t.axis x = s.axis x) ∧ RegsBut [] s t ∧ t = { s with axes := t.axes, sds := t.sds, reed := t.reed } := by
  obtain ⟨d, r, hs⟩ := sampleAt_waits s n false hin
  have e : s.samplingPoint n = { s.axMod n (·.sampled s n false) with sds := d, reed := r } := by
    rw [State.samplingPoint, if_pos (by simpa [hd, imp_iff_not_or] using ho), hs]
  exact .intro rfl e ⟨axMod_axis_same (s := s) (·.sampled s n false) hn, fun x hx => axMod_axis_ne (s := s) (·.sampled s n false) hx, fun _ _ => rfl, rfl⟩

theorem leads_samplingPoint_not_due (hd : s.samplingDue n = false) : Leads s (.samplingPoint n) fun t => t = s :=
  ⟨s, congrArg Host.Outcome.next (if_neg (by simp [hd])), rfl⟩

/-! ### Duty (R320, R325, R338) -/

theorem dutyOf_three (vd vq : Int) (te half : Nat) : ∃ a b c, (dutyOf vd vq te half).1 = [a, b, c] := ⟨_, _, _, rfl⟩

/-- An update that lands eight cycles or more before the reload goes to the compare shadows. -/
theorem landUpdate_early {n x y z : Nat} {v : Int × Int} (hdr : s.axDriven n = true) (hreg : s.on (R.AX_CTRL_DUTY_SRC n) = false) (hlate : ∀ k, s.toReload n = some k → 8 ≤ k) :
    s.landUpdate n [x, y, z] v =
      ((s.wrAll [(R.AX_CMP_CMP n 0, x), (R.AX_CMP_CMP n 1, y), (R.AX_CMP_CMP n 2, z)]).count (R.AX_CNT1_LATE_UPDATE n) 0).axMod n fun a => { a with upd := 1, vS := v } := by
  unfold State.landUpdate
  cases hk : s.toReload n with
  | none => simp [hdr, hreg]; rfl
  | some k => simp [hdr, hreg, Nat.not_lt.mpr (hlate k hk)]; rfl

/-- The values published to an axis are taken. -/
def AxisSt.consumed (a : AxisSt) : AxisSt := { a with awaits := false, pubD := none, pubQ := none }

theorem toReload_consumed {n : Nat} (hn : n < s.axes.length) : State.toReload (s.axMod n (·.consumed)) n = s.toReload n := by
  rw [State.toReload, State.axPos, axMod_axis_same _ hn]
  rfl

theorem toReload_flag_sat (s : State) (n : Nat) (c : Bool) : (s.flag c (R.AX_STAT_DUTY_SAT n)).toReload n = s.toReload n := by
  have h := (OnlyRegs.refl s).flag c (R.AX_STAT_DUTY_SAT n)
  have hu : (s.flag c (R.AX_STAT_DUTY_SAT n)).on (R.AX_PWM_UPDATE n) = s.on (R.AX_PWM_UPDATE n) := State.on_flag_ne _ _ (by simp only [R.AX_PWM_UPDATE, R.AX_STAT_DUTY_SAT]; omega)
  simp only [State.toReload, State.axPos, State.since, h.axis, h.now, hu]

theorem leads_dutyStage {vd vq : Int} {c : List Nat × Bool} (hn : n < s.axes.length) (hp : (s.axis n).awaits = true ∧ (s.axis n).pubD = some vd ∧ (s.axis n).pubQ = some vq)
    (hdr : s.axDriven n = true) (hreg : s.on (R.AX_CTRL_DUTY_SRC n) = false) (hlate : ∀ k, s.toReload n = some k → 8 ≤ k) (hc : c = dutyOf vd vq (s.rd (R.AX_FRAME_ITEM n 10)) (s.axis n).half) :
    Leads s (.dutyStage n) fun t => t.axis n = { s.axis n with awaits := false, pubD := none, pubQ := none, upd := 1, vS := (vd, vq) } ∧
      (∀ x < 3, t.rd (R.AX_CMP_CMP n x) = c.1.getD x 0 % 2 ^ 20) ∧ t.on (R.AX_STAT_DUTY_SAT n) = (s.on (R.AX_STAT_DUTY_SAT n) || c.2) ∧
      RegsBut [R.AX_STAT_DUTY_SAT n, R.AX_CMP_CMP n 0, R.AX_CMP_CMP n 1, R.AX_CMP_CMP n 2, R.AX_CNT1_LATE_UPDATE n] s t ∧ AxisOnly n s t := by
  obtain ⟨x, y, z, h3⟩ := dutyOf_three vd vq (s.rd (R.AX_FRAME_ITEM n 10)) (s.axis n).half
  rw [← hc] at h3
  have e : s.dutyStage n = (((s.flag c.2 (R.AX_STAT_DUTY_SAT n)).wrAll [(R.AX_CMP_CMP n 0, x), (R.AX_CMP_CMP n 1, y), (R.AX_CMP_CMP n 2, z)]).count (R.AX_CNT1_LATE_UPDATE n) 0).axMod n
      ((fun a => { a with upd := 1, vS := (vd, vq) }) ∘ (·.consumed)) := by
    have hl (k : Nat) (hk : State.toReload ((s.axMod n (·.consumed)).flag c.2 (R.AX_STAT_DUTY_SAT n)) n = some k) : 8 ≤ k := by
      rw [toReload_flag_sat, toReload_consumed hn] at hk
      exact hlate k hk
    have hd : State.axDriven ((s.axMod n (·.consumed)).flag c.2 (R.AX_STAT_DUTY_SAT n)) n = true := by
      rw [State.axDriven, State.axState, rd_flag_ne _ _ (by simp only [R.AX_STAT_STATE, R.AX_STAT_DUTY_SAT]; omega)]
      exact hdr
    have hr : State.on ((s.axMod n (·.consumed)).flag c.2 (R.AX_STAT_DUTY_SAT n)) (R.AX_CTRL_DUTY_SRC n) = false :=
      (State.on_flag_ne _ _ (by simp only [R.AX_CTRL_DUTY_SRC, R.AX_STAT_DUTY_SAT]; omega)).trans hreg
    have hstage : s.dutyStage n = State.landUpdate ((s.axMod n (·.consumed)).flag c.2 (R.AX_STAT_DUTY_SAT n)) n c.1 (vd, vq) := by
      unfold State.dutyStage
      simp only [hp, hdr, ← hc]
      rfl
    rw [hstage, h3, landUpdate_early hd hr hl, ← axMod_axMod, axMod_flag]
    rfl
  refine .axisEvent rfl e hn ((((OnlyRegs.refl s).flag _ _).wrAll _).count _ _) fun t ha ho hrd => ⟨ha, fun i hi => (hrd _).trans ?_, (on_of_rd hrd _).trans ?_, RegsBut.trans ?_ (RegsBut.of_rd hrd), ho⟩
  · rw [rd_count_ne _ _ (by simp only [R.AX_CMP_CMP, R.AX_CNT1_LATE_UPDATE]; omega), h3]
    interval_cases i <;> simp (disch := (simp only [R.AX_CMP_CMP]; omega)) [State.wrAll, State.rd_wr_ne] <;> rfl
  · simp (disch := (simp only [R.AX_CMP_CMP, R.AX_CNT1_LATE_UPDATE, R.AX_STAT_DUTY_SAT]; omega)) only [State.count, State.wrAll, State.on_wr_ne]
    exact on_flag_same _ _ rfl
  · simp [State.wrAll]

theorem leads_compareEdge {x : Fin 3} {g : PhaseG} {c : Bool} {tau f e : Nat} (hn : n < s.axes.length)
    (hrun : (s.axis n).run = true ∧ s.reached (s.axis n).valley = true ∧ s.axPos n < 2 * (s.axis n).halfP) (hg : (s.axis n).ph.getD x {} = g ∧ e = 16 * s.axPos n)
    (hc : c = cmdAt (s.axis n).halfP ((s.axis n).cmp.getD x 0) (e + 15) ∧ c ≠ g.cmd) (ht : tau = if c then 16 * (s.axis n).halfP - (s.axis n).cmp.getD x 0 else 16 * (s.axis n).halfP + (s.axis n).cmp.getD x 0)
    (hf : f = if e ≤ tau ∧ tau < e + 16 ∧ (s.axis n).cmp.getD x 0 < 16 * (s.axis n).halfP then tau - e else 0) :
    Leads s (.pwmCompareEdge n x) fun t => t.axis n = { s.axis n with ph := (s.axis n).ph.set x (g.toggle (s.axis n) c (16 * s.now + f) (2 * (s.axis n).cmp.getD x 0) (32 * (s.axis n).halfP - 2 * (s.axis n).cmp.getD x 0)) } ∧
      RegsBut [] s t ∧ AxisOnly n s t := by
  have e' : s.compareEdge n x = s.axMod n fun a => { a with ph := a.ph.set x (g.toggle a c (16 * s.now + f) (2 * a.cmp.getD x 0) (32 * a.halfP - 2 * a.cmp.getD x 0)) } := by
    unfold State.compareEdge
    extract_lets a g' cmp e1 c1 tau1 f1
    have hg1 : g' = g := hg.1
    have he1 : e1 = e := hg.2.symm
    have hc1 : c1 = c := by simp only [c1, he1, hc.1]; rfl
    have hf1 : f1 = f := by simp only [f1, tau1, he1, hc1, hf, ht]; rfl
    rw [if_neg (by simp [a, hrun, hc1, hg1, hc.2]), hf1, hc1, hg1]
    rfl
  exact .axisEvent rfl e' hn (OnlyRegs.refl s) fun t ha ho hrd => ⟨ha, RegsBut.of_rd hrd, ho⟩

theorem leads_axCmpWrite {x : Fin 3} (h : s.takes w (0x100020 + 0x1000 * n + 4 * x) v.toNat = true) (hreg : s.on (R.AX_CTRL_DUTY_SRC n) = true) (hd : s.reloadDue n = false) :
    Leads s (.axCmpWrite w n x v) fun t => t.rd (R.AX_CMP_CMP n x) = bits v.toNat 0 20 ∧
      t.rd (R.AX_CNT1_LATE_WRITE n) = satAdd 16 (s.rd (R.AX_CNT1_LATE_WRITE n)) (b2n ((s.axis n).reloadAt == some s.now)) ∧
      RegsBut [R.AX_CMP_CMP n x, R.AX_CNT1_LATE_WRITE n] s t ∧ t = { s with regs := t.regs, answer := t.answer } := by
  have hx := x.isLt
  have e := writeReg_AX_CMP n x h
  have hw : s.writeCmp n x (bits v.toNat 0 20) = (s.wr (R.AX_CMP_CMP n x) (bits v.toNat 0 20)).count (R.AX_CNT1_LATE_WRITE n) (b2n ((s.axis n).reloadAt == some s.now)) := by
    simp [State.writeCmp, hreg, hd]
  rw [bv32_mod, hw] at e
  refine .intro rfl e ⟨?_, ?_, ?_, rfl⟩
  · rw [State.answers_rd, rd_count_ne _ _ (by simp only [R.AX_CMP_CMP, R.AX_CNT1_LATE_WRITE]; omega), State.rd_wr_same]
    exact bits_mod _ _ _
  · rw [State.answers_rd, rd_count_same, State.rd_wr_ne _ _ (by simp only [R.AX_CMP_CMP, R.AX_CNT1_LATE_WRITE]; omega)]
    rfl
  · simp

theorem leads_axCmpWrite_ignored {x : Fin 3} (h : s.takes w (0x100020 + 0x1000 * n + 4 * x) v.toNat = true) (hreg : s.on (R.AX_CTRL_DUTY_SRC n) = false) :
    Leads s (.axCmpWrite w n x v) fun t => t.on (R.AX_STAT_DUTY_IGN n) = true ∧ RegsBut [R.AX_STAT_DUTY_IGN n] s t ∧ t = { s with regs := t.regs, answer := t.answer } := by
  have e := writeReg_AX_CMP n x h
  have hw : s.writeCmp n x (bits v.toNat 0 20) = s.wr (R.AX_STAT_DUTY_IGN n) 1 := by simp [State.writeCmp, hreg]
  rw [bv32_mod, hw] at e
  refine .intro rfl e ⟨?_, ?_, rfl⟩
  · simp [R.AX_STAT_DUTY_IGN]
  · simp

/-- Settles O23: the counter, its reload and sampling points and the duty, each a change of one axis and of its registers. -/
theorem axisPeriod : Obligations.AxisPeriod := by
  unfold Obligations.AxisPeriod
  refine ⟨?start, ?stop, ?sync, ?reload, ?sampling, ?notDue, ?duty, ?edge, ?cmp, ?ignored⟩
  case start => exact fun s s1 w n v hn h h1 hb hst hr hh => leads_pwmEn_start hn h h1 hb hst hr hh
  case stop => exact fun s s1 w n v hn h h1 hb hst hr => leads_pwmEn_stop hn h h1 hb hst hr
  case sync => exact fun s w n v hn h hv hst hr hh => leads_axSyncGo hn h hv hst hr hh
  case reload => exact fun s n half c hn hv hreg hst hh hc => leads_reloadPoint hn hv hreg hst hh hc
  case sampling => exact fun s n hn hd ho hin => leads_samplingPoint hn hd ho hin
  case notDue => exact fun s n hd => leads_samplingPoint_not_due hd
  case duty => exact fun s n vd vq c hn hp hdr hreg hlate hc => leads_dutyStage hn hp hdr hreg hlate hc
  case edge => exact fun s n x g c tau f e hn hrun hg hc ht hf => leads_compareEdge hn hrun hg hc ht hf
  case cmp => exact fun s w n x v h hreg hd => leads_axCmpWrite h hreg hd
  case ignored => exact fun s w n x v h hreg => leads_axCmpWrite_ignored h hreg

end Sys2Proof.Machine
end

section
/-! PROOFS. Inputs of the motor axes: sigma-delta words, monitors and trips, the encoder (R328 to R333 of spec/10_motor_axes.md). -/

namespace Sys2Proof.Machine

variable {s s1 : State} {w : Who} {n : Fin 12} {v : BitVec 32} {m : Fin 40}

theorem ux_lt (k : Nat) (i : Int) : ux k i < 2 ^ k := by
  have h : (0 : Int) < ((2 ^ k : Nat) : Int) := by exact_mod_cast Nat.two_pow_pos k
  unfold ux
  have := Int.emod_lt_of_pos i h
  have := Int.emod_nonneg i (Int.ne_of_gt h)
  omega

@[simp] theorem ux_mod (k : Nat) (i : Int) : ux k i % 2 ^ k = ux k i := Nat.mod_eq_of_lt (ux_lt k i)

/-! ### Sigma-delta inputs -/

theorem setSd_sd_ne (s : State) {m x : Nat} (d : SdSt) (h : x ≠ m) : (s.setSd m d).sd x = s.sd x := by
  simp [State.sd, State.setSd, List.getD_eq_getElem?_getD, List.getElem?_set_ne (Ne.symm h)]

theorem setSd_sd_same (s : State) {m : Nat} (d : SdSt) (h : m < s.sds.length) : (s.setSd m d).sd m = d := by
  simp [State.sd, State.setSd, List.getD_eq_getElem?_getD, h]

/-- The axes that name a VBUS input are a matter of VBUS_SEL alone. -/
theorem vbusAxes_congr {t : State} (h : ∀ n < 12, t.rd (R.AX_ENC_VBUS_SEL n) = s.rd (R.AX_ENC_VBUS_SEL n)) (m : Nat) : t.vbusAxes m = s.vbusAxes m := by
  refine List.filter_congr fun n hn => ?_
  rw [State.vbusIn, State.vbusIn, h n (List.mem_range.mp hn)]

theorem sinc3_mod (osr wsh : Nat) (l : List Bool) : sinc3 osr wsh l % 2 ^ 32 = sinc3 osr wsh l := ux_mod 32 _

/-- The registers and windows of an input with a word. -/
def State.worded (s : State) (m : Nat) (l : List Bool) : State :=
  (s.wr (R.SD_WORD_WORD m) (sinc3 (s.sdOsr m) (min (s.rd (R.SD_CFG_WSH m)) 24) l)).setSd m { s.sd m with worded := true }

theorem vbusAxes_worded (s : State) (m : Fin 40) (l : List Bool) : (s.worded m l).vbusAxes m = s.vbusAxes m := by
  refine vbusAxes_congr (fun n hn => ?_) m
  rw [State.worded, State.setSd_rd, State.rd_wr_ne _ _ (by simp only [R.AX_ENC_VBUS_SEL, R.SD_WORD_WORD]; omega)]

section Words

variable {l : List Bool} (h0 : s.sdMode m ≠ 0) (hl : l.length = 3 * s.sdOsr m - 2) (hw : s.sdMode m = 1 → (s.sd m).worded = false) (hv : s.vbusAxes m = [])
include h0 hl hw hv

/-- A word of an input that is a current input of no axis and VBUS of none. -/
theorem sdWord_free (hc : currentAxis m = none) : s.sdWord m l = s.worded m l := by
  have hv1 := (vbusAxes_worded s m l).trans hv
  unfold State.sdWord
  rw [if_neg (by simpa [h0, hl] using hw), hc]
  extract_lets d s1 s2
  have hs1 : s1 = s.worded m l := rfl
  have hs2 : s2 = s.worded m l := by rw [← hs1] at hv1; simp only [s2, hv1, List.foldl_nil]; exact hs1
  exact hs2

/-- A word of a current input, VBUS of no axis, while its axis waits for others. -/
theorem sdWord_current {n : Nat} (hc : currentAxis m = some n) (hneed : (s.axis n).need.filter (· != m.val) ≠ []) :
    s.sdWord m l = (s.worded m l).axMod n fun a => { a with need := a.need.filter (· != m.val) } := by
  have hv1 := (vbusAxes_worded s m l).trans hv
  unfold State.sdWord
  rw [if_neg (by simpa [h0, hl] using hw), hc]
  extract_lets d s1 s2
  have hs1 : s1 = s.worded m l := rfl
  have hs2 : s2 = s.worded m l := by rw [← hs1] at hv1; simp only [s2, hv1, List.foldl_nil]; exact hs1
  rw [hs2]
  dsimp only
  have hax : (s.worded m l).axis n = s.axis n := rfl
  simp only [hax]
  rw [if_neg (by simp only [Bool.and_eq_true, beq_iff_eq]; exact fun h => hneed h.2)]
  exact axMod_congr (by rw [hax])

end Words

theorem leads_sdWord_free {l : List Bool} (hm : 36 ≤ m.val) (hk : s.sdMode m = 2) (hl : l.length = 3 * s.sdOsr m - 2) (hv : s.vbusAxes m = []) :
    Leads s (.sigmaDeltaWord m l) fun t => t.rd (R.SD_WORD_WORD m) = sinc3 (s.sdOsr m) (min (s.rd (R.SD_CFG_WSH m)) 24) l ∧ RegsBut [R.SD_WORD_WORD m] s t ∧
      (∀ x, x ≠ m.val → t.sd x = s.sd x) ∧ t = { s with regs := t.regs, sds := t.sds } := by
  have hc : currentAxis m = none := if_neg (by omega)
  refine .intro rfl (sdWord_free (by rw [hk]; decide) hl (by rw [hk]; exact fun h => absurd h (by decide)) hv hc) ⟨?_, ?_, fun x hx => setSd_sd_ne _ _ hx, rfl⟩
  · rw [State.worded, State.setSd_rd, State.rd_wr_same]
    exact sinc3_mod _ _ _
  · simp [State.worded]

theorem leads_sdWord_current {l : List Bool} {n : Nat} (hm : m.val < 36 ∧ n = m.val / 3 ∧ n < s.axes.length) (hk : s.sdMode m = 1) (hl : l.length = 3 * s.sdOsr m - 2)
    (hw : (s.sd m).worded = false) (hv : s.vbusAxes m = []) (hneed : (s.axis n).need.filter (· != m.val) ≠ []) :
    Leads s (.sigmaDeltaWord m l) fun t => t.rd (R.SD_WORD_WORD m) = sinc3 (s.sdOsr m) (min (s.rd (R.SD_CFG_WSH m)) 24) l ∧
      t.axis n = { s.axis n with need := (s.axis n).need.filter (· != m.val) } ∧ (∀ x, x ≠ n → t.axis x = s.axis x) ∧ RegsBut [R.SD_WORD_WORD m] s t ∧
      t = { s with regs := t.regs, sds := t.sds, axes := t.axes } := by
  obtain ⟨hlt, hn, hlen⟩ := hm
  have hc : currentAxis m = some n := (if_pos hlt).trans (congrArg some hn.symm)
  refine .intro rfl (sdWord_current (by rw [hk]; decide) hl (fun _ => hw) hv hc hneed) ⟨?_, axMod_axis_same _ hlen, fun x hx => axMod_axis_ne _ hx, ?_, rfl⟩
  · rw [axMod_rd, State.worded, State.setSd_rd, State.rd_wr_same]
    exact sinc3_mod _ _ _
  · simp [State.worded]

/-! ### Trips and monitors (R331, R332) -/

/-- Leaving once more, as a trip does, changes nothing. -/
theorem axisLeft_again (a : AxisSt) (now : Nat) :
    ({ (axisLeft a now).patted 0 now with gateEn := false, upd := 0, awaits := false, pubD := none, pubQ := none } : AxisSt) = axisLeft a now := by
  have hpat : (axisLeft a now).pat = 0 := by
    simp only [axisLeft]
    split_ifs with h1 <;> simp_all
  rw [AxisSt.patted, if_pos hpat]
  rfl

theorem tripped_axis {n now : Nat} (h : s.now = now) : State.axMod ((s.axMod n (axisLeft · now)).setPat n 0) n
    (fun a => { a with gateEn := false, upd := 0, awaits := false, pubD := none, pubQ := none }) = s.axMod n (axisLeft · now) := by
  rw [setPat_eq, axMod_axMod, axMod_axMod, axMod_now, h]
  exact axMod_congr (axisLeft_again _ _)

theorem setPat_report (s : State) (n p a d : Nat) : (s.report a d).setPat n p = (s.setPat n p).report a d := rfl

theorem axMod_report (s : State) (n : Nat) (f : AxisSt → AxisSt) (a d : Nat) : (s.report a d).axMod n f = (s.axMod n f).report a d := rfl

/-- A trip of an active axis: counted, INVALID, its compare shadows 0. -/
theorem ocTrip_active {l : List Bool} {n : Nat} (ht : s.ocTrips m l = true) (hn : m.val / 3 = n) (ha : State.axActive (s.count (R.AX_CNT2_OC_TRIPS n) 1) n = true) :
    s.ocTrip m l = (((((s.count (R.AX_CNT2_OC_TRIPS n) 1).wr (R.AX_STAT_CAUSE n) 1).leftRegs n 5).wrAll
      [(R.AX_CMP_CMP n 0, 0), (R.AX_CMP_CMP n 1, 0), (R.AX_CMP_CMP n 2, 0)]).axMod n (axisLeft · s.now)).report (0x10 + n) 1 := by
  have h0 : (!s.ocTrips m l) = false := by rw [ht]; rfl
  unfold State.ocTrip
  rw [h0, hn, if_neg Bool.false_ne_true]
  dsimp only
  have hnow : (s.count (R.AX_CNT2_OC_TRIPS n) 1).now = s.now := rfl
  generalize s.count (R.AX_CNT2_OC_TRIPS n) 1 = q at *
  rw [if_pos ha, axInvalid_left ha (by decide), setPat_report, axMod_report, hnow, tripped_axis (s := (q.wr (R.AX_STAT_CAUSE n) 1).leftRegs n 5) hnow]
  rfl

theorem leads_ocTrip {l : List Bool} {n : Nat} (hn : n = m.val / 3 ∧ n < s.axes.length) (ht : s.ocTrips m l = true) (ha : s.axActive n = true) :
    Leads s (.fastOvercurrentTrip m l) fun t => t.axState n = 5 ∧ t.rd (R.AX_STAT_CAUSE n) = 1 ∧ t.rd (R.AX_CNT2_OC_TRIPS n) = satAdd 16 (s.rd (R.AX_CNT2_OC_TRIPS n)) 1 ∧
      (∀ x < 3, t.rd (R.AX_CMP_CMP n x) = 0) ∧ t.axis n = axisLeft (s.axis n) s.now ∧ (∀ x, x ≠ n → t.axis x = s.axis x) ∧ t.reports = s.reports ++ [(0x10 + n, 1)] ∧
      RegsBut [R.AX_STAT_STATE n, R.AX_STAT_CAUSE n, R.AX_STAT_PHASE n, R.AX_STAT_TORQUE_OK n, R.AX_CNT2_OC_TRIPS n, R.AX_CMP_CMP n 0, R.AX_CMP_CMP n 1, R.AX_CMP_CMP n 2] s t ∧
      t = { s with regs := t.regs, axes := t.axes, reports := t.reports } := by
  obtain ⟨hn, hlen⟩ := hn
  have hact : State.axActive (s.count (R.AX_CNT2_OC_TRIPS n) 1) n = true := by
    rw [State.axActive, State.axState, rd_count_ne _ _ (by simp only [R.AX_STAT_STATE, R.AX_CNT2_OC_TRIPS]; omega)]
    exact ha
  have e := ocTrip_active ht hn.symm hact
  refine .axisReported rfl e hlen (((((OnlyRegs.refl s).count _ _).wr _ _).left _ _).wrAll _) fun t hax hne hrep hrd hfr => ⟨(hrd _).trans ?_, (hrd _).trans ?_, (hrd _).trans ?_,
    fun x hx => (hrd _).trans ?_, hax, hne, hrep, RegsBut.trans ?_ (RegsBut.of_rd hrd), hfr⟩
  · simp (disch := (simp only [R.AX_STAT_STATE, R.AX_CMP_CMP]; omega)) only [State.wrAll, State.rd_wr_ne]
    exact leftRegs_state _ _ _
  · simp (disch := (simp only [R.AX_STAT_CAUSE, R.AX_CMP_CMP, R.AX_STAT_STATE, R.AX_STAT_PHASE, R.AX_STAT_TORQUE_OK]; omega)) only [State.wrAll, State.leftRegs, State.rd_wr_ne]
    exact State.rd_wr_same _ _ _
  · simp (disch := (simp only [R.AX_STAT_CAUSE, R.AX_CMP_CMP, R.AX_STAT_STATE, R.AX_STAT_PHASE, R.AX_STAT_TORQUE_OK, R.AX_CNT2_OC_TRIPS]; omega)) only
      [State.wrAll, State.leftRegs, State.rd_wr_ne]
    exact rd_count_same _ _ _
  · interval_cases x <;> simp (disch := (simp only [R.AX_CMP_CMP]; omega)) [State.wrAll, State.rd_wr_ne]
  · simp [State.wrAll, State.leftRegs]

theorem axInvalid_setSd {n cause : Nat} (k : Nat) (d : SdSt) (ha : s.axActive n = true) (hc : cause ≠ 9) :
    (s.setSd k d).axInvalid n cause = ((((s.wr (R.AX_STAT_CAUSE n) cause).leftRegs n 5).axMod n (axisLeft · s.now)).report (0x10 + n) cause).setSd k d := by
  rw [axInvalid_left (s := s.setSd k d) ha hc]
  rfl

/-- A fault of a current input that is VBUS of no axis: the input faulted, its axis INVALID. -/
theorem sdFault_current {n : Nat} (hn : n < 12 ∧ currentAxis m = some n) (ha : s.axActive n = true) (hv : s.vbusAxes m = []) :
    s.sdFault m = (((((s.wr (R.SD_STAT_FAULTED m) 1).wr (R.AX_STAT_CAUSE n) 2).leftRegs n 5).axMod n (axisLeft · s.now)).report (0x10 + n) 2).setSd m { s.sd m with quiet := false } := by
  obtain ⟨hlt, hc⟩ := hn
  have ha1 : (s.wr (R.SD_STAT_FAULTED m) 1).axActive n = true := by
    rw [State.axActive, axState_wr_ne _ (by simp only [R.AX_STAT_STATE, R.SD_STAT_FAULTED]; omega)]
    exact ha
  unfold State.sdFault
  extract_lets d s1 s2
  have hs2 : s2 = (((((s.wr (R.SD_STAT_FAULTED m) 1).wr (R.AX_STAT_CAUSE n) 2).leftRegs n 5).axMod n (axisLeft · s.now)).report (0x10 + n) 2).setSd m { s.sd m with quiet := false } := by
    simp only [s2, hc]
    exact axInvalid_setSd _ _ ha1 (by decide)
  have hv2 : s2.vbusAxes m = [] := by
    rw [← hv, hs2]
    refine vbusAxes_congr (fun x hx => ?_) m
    simp (disch := (simp only [R.AX_ENC_VBUS_SEL, R.SD_STAT_FAULTED, R.AX_STAT_CAUSE, R.AX_STAT_STATE, R.AX_STAT_PHASE, R.AX_STAT_TORQUE_OK]; omega)) only
      [State.setSd_rd, State.report_rd, axMod_rd, State.leftRegs, State.rd_wr_ne]
  rw [hv2]
  exact hs2

theorem leads_activityFault {n : Nat} (hm : m.val < 36 ∧ n = m.val / 3 ∧ n < s.axes.length) (hk : s.sdMode m = 1) (ha : s.axActive n = true) (hv : s.vbusAxes m = []) :
    Leads s (.activityFault m) fun t => t.on (R.SD_STAT_ACT_FAULT m) = true ∧ t.on (R.SD_STAT_FAULTED m) = true ∧ t.axState n = 5 ∧ t.rd (R.AX_STAT_CAUSE n) = 2 ∧
      t.axis n = axisLeft (s.axis n) s.now ∧ (∀ x, x ≠ n → t.axis x = s.axis x) ∧ t.reports = s.reports ++ [(0x10 + n, 2)] ∧
      RegsBut [R.SD_STAT_ACT_FAULT m, R.SD_STAT_FAULTED m, R.AX_STAT_STATE n, R.AX_STAT_CAUSE n, R.AX_STAT_PHASE n, R.AX_STAT_TORQUE_OK n] s t ∧
      t = { s with regs := t.regs, axes := t.axes, reports := t.reports, sds := t.sds } := by
  obtain ⟨hlt, hn, hlen⟩ := hm
  have hc : currentAxis m = some n := (if_pos hlt).trans (congrArg some hn.symm)
  have ha1 : (s.wr (R.SD_STAT_ACT_FAULT m) 1).axActive n = true := by
    rw [State.axActive, axState_wr_ne _ (by simp only [R.AX_STAT_STATE, R.SD_STAT_ACT_FAULT]; omega)]
    exact ha
  have hv1 : (s.wr (R.SD_STAT_ACT_FAULT m) 1).vbusAxes m = [] := by
    rw [← hv]
    exact vbusAxes_congr (fun x hx => State.rd_wr_ne _ _ (by simp only [R.AX_ENC_VBUS_SEL, R.SD_STAT_ACT_FAULT]; omega)) m
  have e : s.activityFault m = _ := (if_neg (by rw [hk]; decide)).trans (sdFault_current ⟨by omega, hc⟩ ha1 hv1)
  generalize hq : (((s.wr (R.SD_STAT_ACT_FAULT m) 1).wr (R.SD_STAT_FAULTED m) 1).wr (R.AX_STAT_CAUSE n) 2).leftRegs n 5 = q at e
  have ho : OnlyRegs s q := hq ▸ ((((OnlyRegs.refl s).wr _ _).wr _ _).wr _ _).left _ _
  have hrd (g : Fld) : State.rd (((q.axMod n (axisLeft · s.now)).report (0x10 + n) 2).setSd m { s.sd m with quiet := false }) g = q.rd g := rfl
  refine .intro rfl e ⟨(on_of_rd hrd _).trans ?_, (on_of_rd hrd _).trans ?_, (hrd _).trans ?_, (hrd _).trans ?_, ?_, fun x hx => ?_, ?_, RegsBut.trans ?_ (RegsBut.of_rd hrd), ?_⟩
  · subst hq
    simp (disch := (simp only [R.SD_STAT_ACT_FAULT, R.SD_STAT_FAULTED, R.AX_STAT_CAUSE, R.AX_STAT_STATE, R.AX_STAT_PHASE, R.AX_STAT_TORQUE_OK]; omega)) only [State.leftRegs, State.on_wr_ne]
    exact State.on_wr_same _ _ _
  · subst hq
    simp (disch := (simp only [R.SD_STAT_FAULTED, R.AX_STAT_CAUSE, R.AX_STAT_STATE, R.AX_STAT_PHASE, R.AX_STAT_TORQUE_OK]; omega)) only [State.leftRegs, State.on_wr_ne]
    exact State.on_wr_same _ _ _
  · rw [← hq]
    exact leftRegs_state _ _ _
  · subst hq
    simp (disch := (simp only [R.AX_STAT_CAUSE, R.AX_STAT_STATE, R.AX_STAT_PHASE, R.AX_STAT_TORQUE_OK]; omega)) only [State.leftRegs, State.rd_wr_ne]
    exact State.rd_wr_same _ _ _
  · exact (axMod_axis_same (s := q) (axisLeft · s.now) (by rw [ho.axes]; exact hlen)).trans (by rw [ho.axis])
  · exact (axMod_axis_ne (s := q) (axisLeft · s.now) hx).trans (ho.axis x)
  · rw [ho]; rfl
  · subst hq
    simp [State.leftRegs]
  · rw [ho]; rfl

/-- A block of samples within the limits raises nothing. -/
theorem densityEnd_quiet {ones lim : Nat} (hk : s.sdMode m ≠ 0) (hl : lim = s.rd (R.SD_MON_DENS_LIM m)) (ho : lim ≤ ones ∧ ones ≤ 1024 - lim ∧ lim ≤ 1024)
    (h1 : s1 = if (s.sd m).quiet then s.wr (R.SD_STAT_FAULTED m) 0 else s) :
    s.densityEnd m ones = s1.setSd m { s1.sd m with quiet := !s1.on (R.SD_STAT_ACT_FAULT m) && !s1.on (R.SD_STAT_DENS_FAULT m) } := by
  obtain ⟨h2, h3, h4⟩ := ho
  subst hl
  unfold State.densityEnd
  simp only [if_neg hk, Nat.not_lt.mpr h2, Nat.not_lt.mpr h3, Nat.not_lt.mpr h4, ← h1, decide_false, Bool.or_self, Bool.false_eq_true, if_false]

theorem leads_densityEnd_first {ones : Fin 1025} {lim : Nat} (hm : m.val < s.sds.length) (hk : s.sdMode m ≠ 0) (hl : lim = s.rd (R.SD_MON_DENS_LIM m))
    (ho : lim ≤ ones.val ∧ ones.val ≤ 1024 - lim ∧ lim ≤ 1024) (hq : (s.sd m).quiet = false) :
    Leads s (.densityBlockEnd m ones) fun t => t.sd m = { s.sd m with quiet := !s.on (R.SD_STAT_ACT_FAULT m) && !s.on (R.SD_STAT_DENS_FAULT m) } ∧
      (∀ x, x ≠ m.val → t.sd x = s.sd x) ∧ RegsBut [] s t ∧ t = { s with sds := t.sds } :=
  .intro rfl (densityEnd_quiet hk hl ho (by rw [hq]; rfl)) ⟨setSd_sd_same s _ hm, fun x hx => setSd_sd_ne s _ hx, fun _ _ => rfl, rfl⟩

theorem leads_densityEnd_second {ones : Fin 1025} {lim : Nat} (hk : s.sdMode m ≠ 0) (hl : lim = s.rd (R.SD_MON_DENS_LIM m))
    (ho : lim ≤ ones.val ∧ ones.val ≤ 1024 - lim ∧ lim ≤ 1024) (hq : (s.sd m).quiet = true) :
    Leads s (.densityBlockEnd m ones) fun t => t.on (R.SD_STAT_FAULTED m) = false ∧ RegsBut [R.SD_STAT_FAULTED m] s t ∧ (∀ x, x ≠ m.val → t.sd x = s.sd x) ∧
      t = { s with regs := t.regs, sds := t.sds } := by
  refine .intro rfl (densityEnd_quiet hk hl ho (by rw [hq]; rfl)) ⟨?_, ?_, fun x hx => setSd_sd_ne (s.wr (R.SD_STAT_FAULTED m) 0) _ hx, rfl⟩
  · rw [State.setSd_on, State.on_wr_same]; simp
  · simp

/-! ### The encoder (R333) -/

theorem encEdge_eq (s : State) (n : Nat) (a b : Bool) : s.encEdge n a b =
    ((s.wr (R.AX_ENC_CNT_CNT n) (ux 32 ((s.rd (R.AX_ENC_CNT_CNT n) : Int) + (s.encDelta n a b).1))).count (R.AX_CNT2_QERR n) (b2n (s.encDelta n a b).2)).axMod n
      fun x => { x with encA := a, encB := b } := rfl

theorem leads_encoderEdge {a b : Bool} (hn : n < s.axes.length) :
    Leads s (.encoderEdge n a b) fun t => t.rd (R.AX_ENC_CNT_CNT n) = ux 32 ((s.rd (R.AX_ENC_CNT_CNT n) : Int) + (s.encDelta n a b).1) ∧
      t.rd (R.AX_CNT2_QERR n) = satAdd 16 (s.rd (R.AX_CNT2_QERR n)) (b2n (s.encDelta n a b).2) ∧ t.axis n = { s.axis n with encA := a, encB := b } ∧
      RegsBut [R.AX_ENC_CNT_CNT n, R.AX_CNT2_QERR n] s t ∧ AxisOnly n s t := by
  refine .axisEvent rfl (encEdge_eq s n a b) hn (((OnlyRegs.refl s).wr _ _).count _ _) fun t ha ho hrd => ⟨(hrd _).trans ?_, (hrd _).trans ?_, ha, RegsBut.trans ?_ (RegsBut.of_rd hrd), ho⟩
  · rw [rd_count_ne _ _ (by simp only [R.AX_ENC_CNT_CNT, R.AX_CNT2_QERR]; omega), State.rd_wr_same]
    exact ux_mod 32 _
  · rw [rd_count_same, State.rd_wr_ne _ _ (by simp only [R.AX_ENC_CNT_CNT, R.AX_CNT2_QERR]; omega)]
    rfl
  · simp

/-- The registers of an axis after an index: the count latched, and cleared where IDX_CLR says so. -/
def State.indexed (s : State) (n : Nat) : State :=
  if s.rd (R.AX_ENC_IDX_CLR n) = 2 ∨ (s.rd (R.AX_ENC_IDX_CLR n) = 1 ∧ (s.axis n).armed = true) then
    ((s.wr (R.AX_ENC_IDX_IDX n) (s.rd (R.AX_ENC_CNT_CNT n))).wr (R.AX_ENC_IDX_VALID n) 1).wr (R.AX_ENC_CNT_CNT n) 0
  else (s.wr (R.AX_ENC_IDX_IDX n) (s.rd (R.AX_ENC_CNT_CNT n))).wr (R.AX_ENC_IDX_VALID n) 1

theorem onlyRegs_indexed (s : State) (n : Nat) : OnlyRegs s (s.indexed n) := by
  unfold State.indexed
  split <;> rfl

theorem indexed_idx (s : State) (n : Nat) : (s.indexed n).rd (R.AX_ENC_IDX_IDX n) = s.rd (R.AX_ENC_CNT_CNT n) % 2 ^ 32 := by
  unfold State.indexed
  split <;> simp (disch := (simp only [R.AX_ENC_IDX_IDX, R.AX_ENC_IDX_VALID, R.AX_ENC_CNT_CNT]; omega)) only [State.rd_wr_ne, State.rd_wr_same] <;> rfl

theorem indexed_valid (s : State) (n : Nat) : (s.indexed n).on (R.AX_ENC_IDX_VALID n) = true := by
  unfold State.indexed
  split
  · rw [State.on_wr_ne _ _ (by simp only [R.AX_ENC_IDX_VALID, R.AX_ENC_CNT_CNT]; omega)]
    exact State.on_wr_same _ _ _
  · exact State.on_wr_same _ _ _

theorem indexed_count (s : State) (n : Nat) : (s.indexed n).rd (R.AX_ENC_CNT_CNT n) =
    if s.rd (R.AX_ENC_IDX_CLR n) = 2 ∨ (s.rd (R.AX_ENC_IDX_CLR n) = 1 ∧ (s.axis n).armed = true) then 0 else s.rd (R.AX_ENC_CNT_CNT n) := by
  unfold State.indexed
  split
  · exact State.rd_wr_same _ _ _
  · simp (disch := (simp only [R.AX_ENC_IDX_IDX, R.AX_ENC_IDX_VALID, R.AX_ENC_CNT_CNT]; omega)) only [State.rd_wr_ne]

theorem regsBut_indexed (s : State) (n : Nat) : RegsBut [R.AX_ENC_IDX_IDX n, R.AX_ENC_IDX_VALID n, R.AX_ENC_CNT_CNT n] s (s.indexed n) := by
  unfold State.indexed
  split <;> simp

theorem encIndex_eq (s : State) (n : Nat) : s.encIndex n =
    (s.indexed n).axMod n fun a => { a with armed := if s.rd (R.AX_ENC_IDX_CLR n) = 1 then false else a.armed } := by
  simp only [State.encIndex, State.indexed, Bool.or_eq_true, Bool.and_eq_true, beq_iff_eq]

theorem leads_encoderIndex (hn : n < s.axes.length) :
    Leads s (.encoderIndex n) fun t => t.rd (R.AX_ENC_IDX_IDX n) = s.rd (R.AX_ENC_CNT_CNT n) % 2 ^ 32 ∧ t.on (R.AX_ENC_IDX_VALID n) = true ∧
      t.rd (R.AX_ENC_CNT_CNT n) = (if s.rd (R.AX_ENC_IDX_CLR n) = 2 ∨ (s.rd (R.AX_ENC_IDX_CLR n) = 1 ∧ (s.axis n).armed = true) then 0 else s.rd (R.AX_ENC_CNT_CNT n)) ∧
      t.axis n = { s.axis n with armed := if s.rd (R.AX_ENC_IDX_CLR n) = 1 then false else (s.axis n).armed } ∧
      RegsBut [R.AX_ENC_IDX_IDX n, R.AX_ENC_IDX_VALID n, R.AX_ENC_CNT_CNT n] s t ∧ AxisOnly n s t := by
  refine .axisEvent rfl (encIndex_eq s n) hn (onlyRegs_indexed s n) fun t ha ho hrd => ⟨(hrd _).trans ?_, (on_of_rd hrd _).trans ?_, (hrd _).trans ?_, ha, RegsBut.trans ?_ (RegsBut.of_rd hrd), ho⟩
  · exact indexed_idx s n
  · exact indexed_valid s n
  · exact indexed_count s n
  · exact regsBut_indexed s n

theorem encDelta_answered (s : State) (n v : Nat) (a b : Bool) : State.encDelta ((s.wr (R.AX_ENC_CNT_CNT n) v).answers .ok 0 []) n a b = s.encDelta n a b := by
  have hm : State.rd ((s.wr (R.AX_ENC_CNT_CNT n) v).answers .ok 0 []) (R.AX_ENC_ENC_MODE n) = s.rd (R.AX_ENC_ENC_MODE n) :=
    State.rd_wr_ne s _ (by simp only [R.AX_ENC_ENC_MODE, R.AX_ENC_CNT_CNT]; omega)
  rw [State.encDelta, hm]
  rfl

theorem writeReg_encCnt (h : s.takes w (0x10008C + 0x1000 * n) v.toNat = true) :
    s.writeReg w (0x10008C + 0x1000 * n) v.toNat = (s.wr (R.AX_ENC_CNT_CNT n) v.toNat).answers .ok 0 [] := by
  obtain ⟨hit, -, hf, e⟩ := writeReg_AX_ENC_CNT n h
  rw [e, bv32_mod]
  simp only [State.plainWrite, hf, State.writeFields, State.writeField, fieldOf_nil]
  have hb : bits v.toNat 0 32 = v.toNat := bv32_mod v
  rw [hb]
  rfl

theorem rd_written_count (s : State) (n : Nat) (v : BitVec 32) : (s.wr (R.AX_ENC_CNT_CNT n) v.toNat).rd (R.AX_ENC_CNT_CNT n) = v.toNat :=
  (State.rd_wr_same s _ _).trans (bv32_mod v)

theorem leads_encCntWrite {e : Option (Bool × Bool)} (h : s.takes w (0x10008C + 0x1000 * n) v.toNat = true) :
    Leads s (.encCntWrite w n v e) fun t => t.rd (R.AX_ENC_CNT_CNT n) = (match e with | some (a, b) => ux 32 ((v.toNat : Int) + (s.encDelta n a b).1) | none => v.toNat) ∧
      RegsBut [R.AX_ENC_CNT_CNT n, R.AX_CNT2_QERR n] s t ∧ (∀ x, x ≠ n.val → t.axis x = s.axis x) ∧ t = { s with regs := t.regs, axes := t.axes, answer := t.answer } := by
  have hw := writeReg_encCnt h
  cases e with
  | none =>
    refine .intro rfl hw ⟨rd_written_count s n v, ?_, fun _ _ => rfl, rfl⟩
    simp
  | some l =>
    obtain ⟨a, b⟩ := l
    have e : (s.writeReg w (0x10008C + 0x1000 * n) v.toNat).encEdge n a b = _ := (congrArg (State.encEdge · n a b) hw).trans (encEdge_eq _ n a b)
    rw [encDelta_answered, State.answers_rd, rd_written_count] at e
    refine .intro rfl e ⟨?_, ?_, fun x hx => axMod_axis_ne _ hx, rfl⟩
    · rw [axMod_rd, rd_count_ne _ _ (by simp only [R.AX_ENC_CNT_CNT, R.AX_CNT2_QERR]; omega), State.rd_wr_same]
      exact ux_mod 32 _
    · simp

/-- The fields of AX_ENC that a write sets, whether or not the locked ones are open. -/
theorem plainWrite_AX_ENC {hit : RegHit} {word : Nat} (hf : hit.d.fields = [⟨0, 2, .rwl, []⟩, ⟨2, 8, .rwl, []⟩, ⟨10, 2, .rw, []⟩, ⟨12, 1, .wo, []⟩, ⟨13, 1, .w1c, []⟩, ⟨14, 3, .rwl, []⟩]) :
    OnlyRegs s (s.plainWrite (0x100088 + 0x1000 * n) hit word) ∧ (s.plainWrite (0x100088 + 0x1000 * n) hit word).rd (R.AX_ENC_IDX_CLR n) = bits word 10 2 ∧
      RegsBut [R.AX_ENC_ENC_MODE n, R.AX_ENC_FILT n, R.AX_ENC_IDX_CLR n, R.AX_ENC_IDX_VALID n, R.AX_ENC_VBUS_SEL n] s (s.plainWrite (0x100088 + 0x1000 * n) hit word) := by
  obtain ⟨x, hx⟩ : ∃ x, s.plainWrite (0x100088 + 0x1000 * n) hit word =
      ((((s.when (s.rwlOpen (0x100088 + 0x1000 * n) hit) (·.wr (R.AX_ENC_ENC_MODE n) (bits word 0 2))).when (s.rwlOpen (0x100088 + 0x1000 * n) hit)
        (·.wr (R.AX_ENC_FILT n) (bits word 2 8))).wr (R.AX_ENC_IDX_CLR n) (bits word 10 2)).wr (R.AX_ENC_IDX_VALID n) x).when (s.rwlOpen (0x100088 + 0x1000 * n) hit)
          (·.wr (R.AX_ENC_VBUS_SEL n) (bits word 14 3)) := by
    simp only [State.plainWrite, hf, State.writeFields, State.writeField, fieldOf_nil]
    exact ⟨_, rfl⟩
  rw [hx]
  cases s.rwlOpen (0x100088 + 0x1000 * n) hit <;> refine ⟨rfl, ?_, by simp⟩ <;>
    simp (disch := (simp only [R.AX_ENC_IDX_CLR, R.AX_ENC_IDX_VALID, R.AX_ENC_VBUS_SEL]; omega)) only [when_true, when_false, State.rd_wr_ne, State.rd_wr_same] <;>
    exact bits_mod _ _ _

theorem leads_idxArm (hn : n < s.axes.length) (h : s.takes w (0x100088 + 0x1000 * n) (v ||| 0x1000).toNat = true) :
    Leads s (.idxArm w n v) fun t => t.axis n = { s.axis n with armed := true } ∧ t.rd (R.AX_ENC_IDX_CLR n) = bits v.toNat 10 2 ∧
      RegsBut [R.AX_ENC_ENC_MODE n, R.AX_ENC_FILT n, R.AX_ENC_IDX_CLR n, R.AX_ENC_IDX_VALID n, R.AX_ENC_VBUS_SEL n] s t ∧ AxisWritten n s t := by
  obtain ⟨hit, -, hf, e⟩ := writeReg_AX_ENC n h
  obtain ⟨ho, hclr, hbut⟩ := plainWrite_AX_ENC (s := s) (n := n) (word := (v ||| 0x1000).toNat) hf
  rw [bv32_mod, bit_or_true (by decide), when_true] at e
  exact .axisWrite rfl e hn ho fun t ha hw hrd => ⟨ha, (hrd _).trans (hclr.trans (bits_or v _ _ _ (by decide))), hbut.trans (RegsBut.of_rd hrd), hw⟩

/-- Settles O24: a word, a trip, a fault, a block, an edge or an index each changes its input, its axis and their registers alone. -/
theorem axisInputs : Obligations.AxisInputs := by
  unfold Obligations.AxisInputs
  refine ⟨?free, ?current, ?trip, ?activity, ?first, ?second, ?edge, ?index, ?count, ?arm⟩
  case free => exact fun s m l hm hk hl hv => leads_sdWord_free hm hk hl hv
  case current => exact fun s m l n hm hk hl hw hv hneed => leads_sdWord_current hm hk hl hw hv hneed
  case trip => exact fun s m l n hn ht ha => leads_ocTrip hn ht ha
  case activity => exact fun s m n hm hk ha hv => leads_activityFault hm hk ha hv
  case first => exact fun s m ones lim hm hk hl ho hq => leads_densityEnd_first hm hk hl ho hq
  case second => exact fun s m ones lim _ hk hl ho hq => leads_densityEnd_second hk hl ho hq
  case edge => exact fun s n a b hn => leads_encoderEdge hn
  case index => exact fun s n hn => leads_encoderIndex hn
  case count => exact fun s w n v e h => leads_encCntWrite h
  case arm => exact fun s w n v hn h => leads_idxArm hn h

end Sys2Proof.Machine
end

section
/-! PROOFS. Grant windows and operating points of the tile clock (R486, R494, R499 to R504, R511, R515 of spec/15_bellows_clocks.md). -/

namespace Sys2Proof.Machine

variable {s s1 : State} {w : Who} {v : BitVec 32} {tgt : Nat}

theorem regsBut_wr_self (s : State) (f : Fld) (v : Nat) : RegsBut [f] s (s.wr f v) := (regsBut_wr List.mem_cons_self).mpr (RegsBut.refl _ s)

/-! ### Changes of the operating point (R501, R502) -/

theorem startChange_kept (h : s.opChange.phase ≠ 0 ∨ s.on R.BEL_STAT_MOTION = true) (tgt : Nat) : s.startChange tgt = s := if_pos h

theorem startChange_raise (h : s.opChange.phase = 0 ∧ s.on R.BEL_STAT_MOTION = false) (hc : s.rd R.CLK_OP_OP_CUR < tgt) :
    s.startChange tgt = { (s.wr R.CLK_OP_BUSY 1) with opChange := ⟨1, tgt⟩, vid := tgt, vidChanged := true } := by
  rw [State.startChange, if_neg (by simp [h]), if_neg (by omega), if_pos hc]

theorem startChange_relock (h : s.opChange.phase = 0 ∧ s.on R.BEL_STAT_MOTION = false) (hc : tgt < s.rd R.CLK_OP_OP_CUR ∨ (tgt = s.rd R.CLK_OP_OP_CUR ∧ s.on R.CLK_STAT_ON_SAFE = true)) :
    s.startChange tgt = s.relock tgt := by
  have hn : ¬ (tgt = s.rd R.CLK_OP_OP_CUR ∧ ¬ s.on R.CLK_STAT_ON_SAFE = true) := by
    rcases hc with hc | hc
    · omega
    · simp [hc.2]
  rw [State.startChange, if_neg (by simp [h]), if_neg hn, if_neg (by omega)]

theorem startChange_there (hc : tgt = s.rd R.CLK_OP_OP_CUR ∧ s.on R.CLK_STAT_ON_SAFE = false) : s.startChange tgt = s := by
  unfold State.startChange
  by_cases h : s.opChange.phase ≠ 0 ∨ s.on R.BEL_STAT_MOTION = true
  · exact if_pos h
  · rw [if_neg h]
    exact if_pos (by simp [hc.1, hc.2])

/-- The registers at the begin of a relock. -/
def State.relocked (s : State) : State := s.wrAll [(R.CLK_STAT_ON_SAFE, 1), (R.CLK_STAT_TILE_LOCK, 0), (R.CLK_OP_BUSY, 1)]

theorem relock_eq (s : State) (tgt : Nat) : s.relock tgt = { s.relocked with opChange := ⟨2, tgt⟩ } := rfl

theorem relocked_values (s : State) : s.relocked.on R.CLK_STAT_ON_SAFE = true ∧ s.relocked.on R.CLK_STAT_TILE_LOCK = false ∧ s.relocked.on R.CLK_OP_BUSY = true := by
  simp (disch := decide) [State.relocked, State.wrAll, State.on_wr_ne]

theorem regsBut_relocked (s : State) : RegsBut [R.CLK_STAT_ON_SAFE, R.CLK_STAT_TILE_LOCK, R.CLK_OP_BUSY] s s.relocked := by
  simp [State.relocked, State.wrAll]

/-! ### OP_TGT_WRITE (R501, R504) -/

theorem writeReg_opTgt (h : s.takes w 0x10004 v.toNat = true) (ht : tgt = max (s.rd R.BEL_THERM2_OP_MIN) (min (bits v.toNat 0 3) (s.rd R.BEL_THERM2_OP_MAX))) :
    s.writeReg w 0x10004 v.toNat = ((s.wr R.CLK_OP_OP_TGT tgt).startChange tgt).answers .ok 0 [] := by
  have e := writeReg_CLK_OP h
  rw [bv32_mod, State.writeClkOp, ← ht] at e
  exact e

theorem idle_wr_target (h : s.opChange.phase = 0 ∧ s.on R.BEL_STAT_MOTION = false) (k : Nat) :
    (s.wr R.CLK_OP_OP_TGT k).opChange.phase = 0 ∧ (s.wr R.CLK_OP_OP_TGT k).on R.BEL_STAT_MOTION = false :=
  ⟨h.1, (State.on_wr_ne s _ (by decide)).trans h.2⟩

theorem leads_opTgt_raise (h : s.takes w 0x10004 v.toNat = true) (ht : tgt = max (s.rd R.BEL_THERM2_OP_MIN) (min (bits v.toNat 0 3) (s.rd R.BEL_THERM2_OP_MAX)))
    (hi : s.opChange.phase = 0 ∧ s.on R.BEL_STAT_MOTION = false) (hc : s.rd R.CLK_OP_OP_CUR < tgt) : Leads s (.opTgtWrite w v) fun t =>
      t.rd R.CLK_OP_OP_TGT = tgt % 8 ∧ t.on R.CLK_OP_BUSY = true ∧ t.opChange = ⟨1, tgt⟩ ∧ t.vid = tgt ∧ t.vidChanged = true ∧
      RegsBut [R.CLK_OP_OP_TGT, R.CLK_OP_BUSY] s t ∧ t = { s with regs := t.regs, opChange := t.opChange, vid := t.vid, vidChanged := t.vidChanged, answer := t.answer } := by
  have e := writeReg_opTgt h ht
  rw [startChange_raise (idle_wr_target hi tgt) (by rw [State.rd_wr_ne _ _ (by decide)]; exact hc)] at e
  have hrd (f : Fld) : State.rd (State.answers { ((s.wr R.CLK_OP_OP_TGT tgt).wr R.CLK_OP_BUSY 1) with opChange := ⟨1, tgt⟩, vid := tgt, vidChanged := true } .ok 0 []) f =
    ((s.wr R.CLK_OP_OP_TGT tgt).wr R.CLK_OP_BUSY 1).rd f := rfl
  refine .intro rfl e ⟨(hrd _).trans ?_, (on_of_rd hrd _).trans (State.on_wr_same _ _ _), rfl, rfl, rfl, RegsBut.trans ?_ (RegsBut.of_rd hrd), rfl⟩
  · rw [State.rd_wr_ne _ _ (by decide), State.rd_wr_same]
    rfl
  · simp

theorem leads_opTgt_relock (h : s.takes w 0x10004 v.toNat = true) (ht : tgt = max (s.rd R.BEL_THERM2_OP_MIN) (min (bits v.toNat 0 3) (s.rd R.BEL_THERM2_OP_MAX)))
    (hi : s.opChange.phase = 0 ∧ s.on R.BEL_STAT_MOTION = false) (hc : tgt < s.rd R.CLK_OP_OP_CUR ∨ (tgt = s.rd R.CLK_OP_OP_CUR ∧ s.on R.CLK_STAT_ON_SAFE = true)) :
    Leads s (.opTgtWrite w v) fun t => t.rd R.CLK_OP_OP_TGT = tgt % 8 ∧ t.on R.CLK_OP_BUSY = true ∧ t.on R.CLK_STAT_ON_SAFE = true ∧ t.on R.CLK_STAT_TILE_LOCK = false ∧ t.opChange = ⟨2, tgt⟩ ∧
      RegsBut [R.CLK_OP_OP_TGT, R.CLK_OP_BUSY, R.CLK_STAT_ON_SAFE, R.CLK_STAT_TILE_LOCK] s t ∧ t = { s with regs := t.regs, opChange := t.opChange, answer := t.answer } := by
  have e := writeReg_opTgt h ht
  rw [startChange_relock (idle_wr_target hi tgt) (by rw [State.rd_wr_ne _ _ (by decide), State.on_wr_ne _ _ (by decide)]; exact hc), relock_eq] at e
  have hrd (f : Fld) : State.rd (State.answers { (s.wr R.CLK_OP_OP_TGT tgt).relocked with opChange := ⟨2, tgt⟩ } .ok 0 []) f = (s.wr R.CLK_OP_OP_TGT tgt).relocked.rd f := rfl
  obtain ⟨h1, h2, h3⟩ := relocked_values (s.wr R.CLK_OP_OP_TGT tgt)
  refine .intro rfl e ⟨(hrd _).trans ?_, (on_of_rd hrd _).trans h3, (on_of_rd hrd _).trans h1, (on_of_rd hrd _).trans h2, rfl, ?_, rfl⟩
  · rw [regsBut_relocked _ _ (by decide), State.rd_wr_same]
    rfl
  · refine (RegsBut.trans ?_ ((regsBut_relocked (s.wr R.CLK_OP_OP_TGT tgt)).mono (by simp))).trans (RegsBut.of_rd hrd)
    simp

theorem leads_opTgt_kept (h : s.takes w 0x10004 v.toNat = true) (ht : tgt = max (s.rd R.BEL_THERM2_OP_MIN) (min (bits v.toNat 0 3) (s.rd R.BEL_THERM2_OP_MAX)))
    (hi : s.opChange.phase ≠ 0 ∨ s.on R.BEL_STAT_MOTION = true) : Leads s (.opTgtWrite w v) fun t =>
      t.rd R.CLK_OP_OP_TGT = tgt % 8 ∧ RegsBut [R.CLK_OP_OP_TGT] s t ∧ t = { s with regs := t.regs, answer := t.answer } := by
  have e := writeReg_opTgt h ht
  rw [startChange_kept (by rw [State.on_wr_ne _ _ (by decide)]; exact hi)] at e
  refine .intro rfl e ⟨State.rd_wr_same _ _ _, ?_, rfl⟩
  simp

/-! ### Supply, relock and failure (R501, R502, R511, R515) -/

theorem leads_supplySettled (h : s.opChange.phase = 1) : Leads s .supplySettled fun t =>
    t.vok = true ∧ t.vidChanged = false ∧ t.opChange = ⟨2, s.opChange.target⟩ ∧ t.on R.CLK_STAT_ON_SAFE = true ∧ t.on R.CLK_STAT_TILE_LOCK = false ∧ t.on R.CLK_OP_BUSY = true ∧
    RegsBut [R.CLK_STAT_ON_SAFE, R.CLK_STAT_TILE_LOCK, R.CLK_OP_BUSY] s t ∧ t = { s with regs := t.regs, opChange := t.opChange, vok := true, vidChanged := false } := by
  have e : s.supplySettled = { State.relocked { s with vok := true, vidChanged := false } with opChange := ⟨2, s.opChange.target⟩ } := if_pos h
  obtain ⟨h1, h2, h3⟩ := relocked_values { s with vok := true, vidChanged := false }
  exact .intro rfl e ⟨rfl, rfl, rfl, h1, h2, h3, regsBut_relocked { s with vok := true, vidChanged := false }, rfl⟩

theorem leads_supplySettled_idle (h : s.opChange.phase ≠ 1) : Leads s .supplySettled fun t => t = { s with vok := true, vidChanged := false } :=
  .intro rfl (if_neg h) rfl

theorem leads_tilePllLock (h : s.opChange.phase = 2) : Leads s .tilePllLock fun t =>
    t.on R.CLK_STAT_TILE_LOCK = true ∧ t.opChange = { s.opChange with phase := 3 } ∧ RegsBut [R.CLK_STAT_TILE_LOCK] s t ∧ t = { s with regs := t.regs, opChange := t.opChange } := by
  exact .intro rfl (if_pos h) ⟨State.on_wr_same s R.CLK_STAT_TILE_LOCK 1, rfl, regsBut_wr_self s R.CLK_STAT_TILE_LOCK 1, rfl⟩

/-- The registers after a switch-back. -/
def State.switched (s : State) (tgt : Nat) : State := (s.wrAll [(R.CLK_OP_OP_CUR, tgt), (R.CLK_STAT_ON_SAFE, 0), (R.CLK_OP_BUSY, 0)]).count R.CLK_CNT_RELOCKS 1

theorem leads_relockSwitchBack (h : s.opChange.phase = 3) (ht : s.rd R.CLK_OP_OP_TGT = s.opChange.target % 8) : Leads s .relockSwitchBack fun t =>
    t.rd R.CLK_OP_OP_CUR = s.opChange.target % 8 ∧ t.on R.CLK_STAT_ON_SAFE = false ∧ t.on R.CLK_OP_BUSY = false ∧ t.rd R.CLK_CNT_RELOCKS = satAdd 16 (s.rd R.CLK_CNT_RELOCKS) 1 ∧
    t.opChange = {} ∧ t.opSince = 0 ∧ t.vid = s.opChange.target ∧ t.vidChanged = (s.vidChanged || decide (s.opChange.target < s.vid)) ∧
    RegsBut [R.CLK_OP_OP_CUR, R.CLK_STAT_ON_SAFE, R.CLK_OP_BUSY, R.CLK_CNT_RELOCKS] s t ∧
    t = { s with regs := t.regs, opChange := t.opChange, opSince := 0, vid := t.vid, vidChanged := t.vidChanged } := by
  generalize hT : s.opChange.target = T at *
  have hcur : (s.switched T).rd R.CLK_OP_OP_CUR = T % 8 := by
    simp (disch := decide) [State.switched, State.wrAll, State.count, State.rd_wr_ne]
    rfl
  have hsafe : (s.switched T).on R.CLK_STAT_ON_SAFE = false := by simp (disch := decide) [State.switched, State.wrAll, State.count, State.on_wr_ne]
  have hbusy : (s.switched T).on R.CLK_OP_BUSY = false := by simp (disch := decide) [State.switched, State.wrAll, State.count, State.on_wr_ne]
  have hcnt : (s.switched T).rd R.CLK_CNT_RELOCKS = satAdd 16 (s.rd R.CLK_CNT_RELOCKS) 1 := by
    simp (disch := decide) [State.switched, State.wrAll, State.rd_wr_ne]
    rfl
  have hbut : RegsBut [R.CLK_OP_OP_CUR, R.CLK_STAT_ON_SAFE, R.CLK_OP_BUSY, R.CLK_CNT_RELOCKS] s (s.switched T) := by simp [State.switched, State.wrAll]
  have htgt : (s.switched T).rd R.CLK_OP_OP_TGT = T % 8 := (hbut _ (by decide)).trans ht
  have e : s.switchBack = { s.switched T with opChange := {}, opSince := 0, vid := T, vidChanged := s.vidChanged || decide (T < s.vid) } := by
    rw [State.switchBack, if_pos h, hT]
    exact startChange_there ⟨htgt.trans hcur.symm, hsafe⟩
  exact .intro rfl e ⟨hcur, hsafe, hbusy, hcnt, rfl, rfl, rfl, rfl, hbut, rfl⟩

/-- The registers after the tile PLL has failed to lock. -/
def State.lockLost (s : State) : State :=
  (s.wrAll [(R.CLK_STAT_LOCK_FAIL, 1), (R.CLK_STAT_TILE_LOCK, 0), (R.CLK_STAT_ON_SAFE, 1), (R.CLK_OP_BUSY, 0), (R.CLK_OP_OP_CUR, 0)]).count R.CLK_CNT_LOCK_FAILS 1

theorem lockFail_eq {high : Nat} (h : high = max s.vid (max (s.rd R.CLK_OP_OP_CUR) s.opChange.target)) :
    s.lockFail = { s.lockLost with opChange := {}, vid := high, vidChanged := s.vidChanged || high != s.vid, opSince := 0 } := by
  subst h
  rfl

theorem tileLockFailed_lockFail (s : State) : TileLockFailed s s.lockFail := by
  have h1 : s.lockLost.on R.CLK_STAT_LOCK_FAIL = true := by simp (disch := decide) [State.lockLost, State.wrAll, State.count, State.on_wr_ne]
  have h2 : s.lockLost.on R.CLK_STAT_TILE_LOCK = false := by simp (disch := decide) [State.lockLost, State.wrAll, State.count, State.on_wr_ne]
  have h3 : s.lockLost.on R.CLK_STAT_ON_SAFE = true := by simp (disch := decide) [State.lockLost, State.wrAll, State.count, State.on_wr_ne]
  have h4 : s.lockLost.on R.CLK_OP_BUSY = false := by simp (disch := decide) [State.lockLost, State.wrAll, State.count, State.on_wr_ne]
  have h5 : s.lockLost.rd R.CLK_OP_OP_CUR = 0 := by simp (disch := decide) [State.lockLost, State.wrAll, State.count, State.rd_wr_ne]
  have h6 : s.lockLost.rd R.CLK_CNT_LOCK_FAILS = satAdd 16 (s.rd R.CLK_CNT_LOCK_FAILS) 1 := by
    simp (disch := decide) [State.lockLost, State.wrAll, State.rd_wr_ne]
    rfl
  have h7 : RegsBut [R.CLK_STAT_LOCK_FAIL, R.CLK_STAT_TILE_LOCK, R.CLK_STAT_ON_SAFE, R.CLK_OP_BUSY, R.CLK_OP_OP_CUR, R.CLK_CNT_LOCK_FAILS] s s.lockLost := by
    simp [State.lockLost, State.wrAll]
  unfold TileLockFailed
  extract_lets high
  rw [lockFail_eq (high := high) rfl]
  have ho : OnlyRegs s s.lockLost := ((OnlyRegs.refl s).wrAll _).count _ _
  generalize s.lockLost = q at *
  refine ⟨h1, h2, h3, h4, h5, h6, rfl, rfl, rfl, h7, ?_⟩
  rw [ho]

theorem leads_tileLockTimeout (h : s.opChange.phase = 2) : Leads s .tileLockTimeout fun t => TileLockFailed s t :=
  .intro rfl (if_pos h) (tileLockFailed_lockFail s)

theorem leads_pllLockLoss_tile (h : s.on R.CLK_STAT_TILE_LOCK = true) : Leads s (.pllLockLoss 2) fun t => TileLockFailed s t :=
  .intro rfl (if_pos h) (tileLockFailed_lockFail s)

theorem leads_pllLockLoss_other {pll : Fin 4} (h : pll.val < 2) : Leads s (.pllLockLoss pll) fun t =>
    t.on (if pll.val = 0 then R.CLK_STAT_CTRL_LOCK else R.CLK_STAT_FAB_LOCK) = false ∧ t.reports = s.reports ++ [(if pll.val = 0 then 0x01 else 0x09, 0)] ∧
    RegsBut [if pll.val = 0 then R.CLK_STAT_CTRL_LOCK else R.CLK_STAT_FAB_LOCK] s t ∧ t = { s with regs := t.regs, reports := t.reports } := by
  obtain ⟨k, hk⟩ := pll
  have hk2 : k < 2 := h
  interval_cases k
  · exact ⟨_, rfl, State.on_wr_same s R.CLK_STAT_CTRL_LOCK 0, rfl, regsBut_wr_self s R.CLK_STAT_CTRL_LOCK 0, rfl⟩
  · exact ⟨_, rfl, State.on_wr_same s R.CLK_STAT_FAB_LOCK 0, rfl, regsBut_wr_self s R.CLK_STAT_FAB_LOCK 0, rfl⟩

theorem leads_bellowsVokFall (hv : s.vidChanged = false) (hi : s.opChange.phase = 0 ∧ s.on R.BEL_STAT_MOTION = false) (hc : 0 < s.rd R.CLK_OP_OP_CUR) : Leads s .bellowsVokFall fun t =>
    t.vok = false ∧ t.on R.CLK_STAT_VOK_LOST = true ∧ t.reports = s.reports ++ [(0x0B, 0)] ∧ t.rd R.CLK_OP_OP_TGT = 0 ∧ t.opChange = ⟨2, 0⟩ ∧
    t.on R.CLK_STAT_ON_SAFE = true ∧ t.on R.CLK_STAT_TILE_LOCK = false ∧ t.on R.CLK_OP_BUSY = true ∧
    RegsBut [R.CLK_STAT_VOK_LOST, R.CLK_OP_OP_TGT, R.CLK_STAT_ON_SAFE, R.CLK_STAT_TILE_LOCK, R.CLK_OP_BUSY] s t ∧
    t = { s with regs := t.regs, reports := t.reports, vok := false, opChange := t.opChange } := by
  obtain ⟨q, hq⟩ : ∃ q, q = (State.report (State.wr { s with vok := false } R.CLK_STAT_VOK_LOST 1) 0x0B 0).wr R.CLK_OP_OP_TGT 0 := ⟨_, rfl⟩
  have e0 : s.vokFall = q.startChange 0 := (if_neg (by simp [hv])).trans (by rw [hq]; rfl)
  have hlost : q.on R.CLK_STAT_VOK_LOST = true := by
    rw [hq, State.on_wr_ne _ _ (by decide)]
    exact State.on_wr_same { s with vok := false } R.CLK_STAT_VOK_LOST 1
  have htgt : q.rd R.CLK_OP_OP_TGT = 0 := by rw [hq]; exact State.rd_wr_same _ _ _
  have hbut : RegsBut [R.CLK_STAT_VOK_LOST, R.CLK_OP_OP_TGT] s q := by
    rw [hq]
    simp only [List.mem_cons, true_or, or_true, regsBut_wr, regsBut_report]
    exact RegsBut.of_regs (RegsBut.refl _ s) rfl
  have hfr : q = { s with regs := q.regs, reports := s.reports ++ [(0x0B, 0)], vok := false } := by rw [hq]; rfl
  have hph : q.opChange = s.opChange := by rw [hfr]
  have e : q.startChange 0 = { q.relocked with opChange := ⟨2, 0⟩ } :=
    startChange_relock ⟨by rw [hph]; exact hi.1, (hbut.on (by decide)).trans hi.2⟩ (.inl (by rw [hbut.rd (by decide)]; exact hc))
  obtain ⟨h1, h2, h3⟩ := relocked_values q
  have hrel := regsBut_relocked q
  have hor : OnlyRegs q q.relocked := (OnlyRegs.refl q).wrAll _
  clear hq
  generalize q.relocked = r at *
  refine .intro rfl (e0.trans e) ⟨?_, (hrel.on (by decide)).trans hlost, ?_, (hrel.rd (by decide)).trans htgt, rfl, h1, h2, h3, ?_, ?_⟩
  · rw [hor, hfr]
  · rw [hor, hfr]
  · exact (hbut.mono (by simp)).trans (hrel.mono (by simp))
  · rw [hor, hfr]

theorem leads_bellowsVokFall_changed (hv : s.vidChanged = true) : Leads s .bellowsVokFall fun t => t = { s with vok := false } :=
  .intro rfl (if_pos hv) rfl

/-! ### Grant windows (R486, R489, R494 to R496) -/

theorem regsBut_startChange (s : State) (tgt : Nat) : RegsBut [R.CLK_OP_BUSY, R.CLK_STAT_ON_SAFE, R.CLK_STAT_TILE_LOCK] s (s.startChange tgt) := by
  unfold State.startChange
  dsimp only
  split_ifs
  · exact RegsBut.refl _ s
  · exact RegsBut.refl _ s
  · exact ((regsBut_wr_self s R.CLK_OP_BUSY 1).mono (by simp)).of_regs rfl
  · rw [relock_eq]
    exact ((regsBut_relocked s).mono (by simp)).of_regs rfl

/-- The registers that the thermal actions of a window start may change. -/
def heatFlds : List Fld := [R.BEL_STAT_SENS_INVALID, R.BEL_STAT_SENSOR_FAULT, R.BEL_STAT_FORCED, R.CLK_OP_OP_TGT, R.CLK_OP_BUSY, R.CLK_STAT_ON_SAFE, R.CLK_STAT_TILE_LOCK]

theorem regsBut_reportIf (s : State) (c : Bool) (a d : Nat) (fs : List Fld) : RegsBut fs s (s.reportIf c a d) := by
  cases c
  · exact RegsBut.refl _ s
  · exact RegsBut.of_regs (RegsBut.refl _ s) rfl

theorem regsBut_heat (s : State) (t : Int) : RegsBut heatFlds s (s.heat t) := by
  unfold State.heat heatFlds
  extract_lets shut trip run s1 bad s2 s3
  have h2 : RegsBut heatFlds s s2 := by
    simp only [s2, heatFlds, List.mem_cons, true_or, or_true, regsBut_wr, regsBut_flag]
    exact RegsBut.of_regs (RegsBut.refl _ s) rfl
  have h3 : RegsBut heatFlds s s3 := (h2.trans (regsBut_reportIf _ _ _ _ _)).trans (regsBut_reportIf _ _ _ _ _)
  split_ifs
  · refine h3.trans ?_
    refine RegsBut.trans (t := (s3.wr R.BEL_STAT_FORCED 1).wr R.CLK_OP_OP_TGT 0) ?_ ((regsBut_startChange _ _).mono (by simp [heatFlds]))
    simp [heatFlds]
  · exact (regsBut_wr (by simp)).mpr h3
  · exact h3

theorem sample_rd_ne {j k : Nat} (x : Option (BitVec 12)) (h : k ≠ j) {f : Fld} (hf : f = R.BEL_TEMP_TEMP k ∨ f = R.BEL_TEMP_VALID k) : (s.sample j x).rd f = s.rd f := by
  have ht : f.key ≠ (R.BEL_TEMP_TEMP j).key := by rcases hf with rfl | rfl <;> simp only [R.BEL_TEMP_TEMP, R.BEL_TEMP_VALID] <;> omega
  have hv : f.key ≠ (R.BEL_TEMP_VALID j).key := by rcases hf with rfl | rfl <;> simp only [R.BEL_TEMP_TEMP, R.BEL_TEMP_VALID] <;> omega
  cases x with
  | some v => exact (State.rd_wr_ne (s.wr (R.BEL_TEMP_TEMP j) v.toNat) _ hv).trans (State.rd_wr_ne s _ ht)
  | none =>
    by_cases hn : min 10 (s.sensAge.getD j 0 + 1) = 10
    · simp only [State.sample, if_pos hn]
      exact State.rd_wr_ne s 0 hv
    · simp only [State.sample, if_neg hn]
      rfl

theorem sample_same {j : Nat} (x : BitVec 12) :
    (s.sample j (some x)).rd (R.BEL_TEMP_TEMP j) = x.toNat ∧ (s.sample j (some x)).on (R.BEL_TEMP_VALID j) = tempOk x.toInt := by
  constructor
  · refine (State.rd_wr_ne (s.wr (R.BEL_TEMP_TEMP j) x.toNat) _ (by simp only [R.BEL_TEMP_TEMP, R.BEL_TEMP_VALID]; omega)).trans ?_
    exact (State.rd_wr_same s _ _).trans (Nat.mod_eq_of_lt x.isLt)
  · refine (State.on_wr_same (s.wr (R.BEL_TEMP_TEMP j) x.toNat) (R.BEL_TEMP_VALID j) (b2n (tempOk x.toInt))).trans ?_
    cases tempOk x.toInt <;> rfl

/-- Every sensor with a new reading shows it after the sampling. -/
theorem sampleAll_temp (s : State) (xs : List (Option (BitVec 12))) : ∀ j < 16, ∀ x ∈ xs.getD j none,
    (s.sampleAll xs).rd (R.BEL_TEMP_TEMP j) = x.toNat ∧ (s.sampleAll xs).on (R.BEL_TEMP_VALID j) = tempOk x.toInt := by
  refine foldl_range_all _ (fun j (q : State) => ∀ x ∈ xs.getD j none, q.rd (R.BEL_TEMP_TEMP j) = x.toNat ∧ q.on (R.BEL_TEMP_VALID j) = tempOk x.toInt) ?_ ?_ s
  · intro q j _ x hx
    rw [Option.mem_def.mp hx]
    exact sample_same x
  · intro q i j _ _ hij hq x hx
    obtain ⟨h1, h2⟩ := hq x hx
    refine ⟨(sample_rd_ne _ hij.symm (.inl rfl)).trans h1, ?_⟩
    rw [State.on, sample_rd_ne _ hij.symm (.inr rfl)]
    exact h2

/-- The balances and BEL_WIN as a window start sets them. -/
def State.windowed (s : State) (bal : Int × Int × Int) (w hot : Int) : State :=
  ((((s.wrS R.BEL_BAL_C_BAL bal.1).wrS R.BEL_BAL_P_BAL bal.2.1).wrS R.BEL_BAL_B_BAL bal.2.2).wr R.BEL_WIN_W w.toNat).wrS R.BEL_WIN_T_HOT hot

/-- The fields that a window start sets. -/
def windowFlds : List Fld := [R.BEL_BAL_C_BAL, R.BEL_BAL_P_BAL, R.BEL_BAL_B_BAL, R.BEL_WIN_W, R.BEL_WIN_T_HOT]

theorem regsBut_windowed (s : State) (bal : Int × Int × Int) (w hot : Int) : RegsBut windowFlds s (s.windowed bal w hot) := by
  simp [State.windowed, State.wrS, windowFlds]

theorem windowed_values (s : State) (bal : Int × Int × Int) (w hot : Int) :
    (s.windowed bal w hot).rd R.BEL_BAL_C_BAL = ux 32 bal.1 ∧ (s.windowed bal w hot).rd R.BEL_BAL_P_BAL = ux 32 bal.2.1 ∧ (s.windowed bal w hot).rd R.BEL_BAL_B_BAL = ux 32 bal.2.2 ∧
    (s.windowed bal w hot).rd R.BEL_WIN_W = w.toNat % 2 ^ 9 ∧ (s.windowed bal w hot).rd R.BEL_WIN_T_HOT = ux 12 hot := by
  simp (disch := decide) only [State.windowed, State.wrS, State.rd_wr_ne, State.rd_wr_same, ux_mod]
  exact ⟨rfl, rfl, rfl, rfl, rfl⟩

/-- A window start without AUTO_OP, by the allotments of P and B. -/
theorem windowStart_eq {s0 : State} {xs : List (Option (BitVec 12))} {hot b w : Int} {a bal : Int × Int × Int} {p : Int} (h0 : s0 = s.sampleAll xs) (hh : hot = s0.tHot) (h1 : s1 = s0.heat hot)
    (hw : w = s1.windowBudget hot) (ha : a = s1.allot w) (hauto : s1.on R.BEL_CTRL_AUTO_OP = false)
    (hp : p = if s1.on R.BEL_STAT_MOTION || (s1.on R.BEL_STAT_FORCED && decide (8 * (s1.rd R.BEL_THERM_SHUT : Int) ≤ hot)) then 0 else a.2.1)
    (hb : b = if s1.on R.BEL_STAT_MOTION || (s1.on R.BEL_STAT_FORCED && decide (8 * (s1.rd R.BEL_THERM_SHUT : Int) ≤ hot)) then 0 else a.2.2)
    (hbal : bal = windowBalances (s1.on R.BEL_CTRL_SPILL && !s1.on R.GLOBAL_MODE_REPRO) (s1.rdS R.BEL_BAL_C_BAL) (s1.rdS R.BEL_BAL_P_BAL) (s1.rdS R.BEL_BAL_B_BAL) a.1 p b) :
    s.windowStart xs = { s1.windowed bal w hot with opSince := min 4096 (s1.opSince + 1) } := by
  have hq : (s1.windowed bal w hot).on R.BEL_CTRL_AUTO_OP = false := ((regsBut_windowed s1 bal w hot).on (by decide)).trans hauto
  have hop : (s1.windowed bal w hot).autoOp hot = s1.windowed bal w hot := if_pos (by simp [hq])
  have e : s.windowStart xs = { (s1.windowed bal w hot).autoOp hot with opSince := min 4096 (((s1.windowed bal w hot).autoOp hot).opSince + 1) } := by
    subst hbal hb hp ha hw h1 hh h0
    rfl
  rw [e, hop]
  rfl

theorem leads_grantWindow {s0 : State} {xs : List (Option (BitVec 12))} {hot w : Int} {a bal : Int × Int × Int} (h0 : s0 = s.sampleAll xs) (hh : hot = s0.tHot) (h1 : s1 = s0.heat hot)
    (hw : w = s1.windowBudget hot) (ha : a = s1.allot w) (hm : s1.on R.BEL_STAT_MOTION = false ∧ s1.on R.BEL_STAT_FORCED = false ∧ s1.on R.BEL_CTRL_AUTO_OP = false)
    (hbal : bal = windowBalances (s1.on R.BEL_CTRL_SPILL && !s1.on R.GLOBAL_MODE_REPRO) (s1.rdS R.BEL_BAL_C_BAL) (s1.rdS R.BEL_BAL_P_BAL) (s1.rdS R.BEL_BAL_B_BAL) a.1 a.2.1 a.2.2) :
    Leads s (.grantWindowStart xs) fun t => t.rd R.BEL_BAL_C_BAL = ux 32 bal.1 ∧ t.rd R.BEL_BAL_P_BAL = ux 32 bal.2.1 ∧ t.rd R.BEL_BAL_B_BAL = ux 32 bal.2.2 ∧
      t.rd R.BEL_WIN_W = w.toNat % 2 ^ 9 ∧ t.rd R.BEL_WIN_T_HOT = ux 12 hot ∧ (∀ j < 16, ∀ x ∈ xs.getD j none, t.rd (R.BEL_TEMP_TEMP j) = x.toNat ∧ t.on (R.BEL_TEMP_VALID j) = tempOk x.toInt) ∧
      RegsBut [R.BEL_BAL_C_BAL, R.BEL_BAL_P_BAL, R.BEL_BAL_B_BAL, R.BEL_WIN_W, R.BEL_WIN_T_HOT] s1 t ∧ t = { s1 with regs := t.regs, opSince := min 4096 (s1.opSince + 1) } := by
  obtain ⟨hmot, hforced, hauto⟩ := hm
  have e := windowStart_eq h0 hh h1 hw ha hauto (p := a.2.1) (b := a.2.2) (by simp [hmot, hforced]) (by simp [hmot, hforced]) hbal
  obtain ⟨v1, v2, v3, v4, v5⟩ := windowed_values s1 bal w hot
  have hbut := regsBut_windowed s1 bal w hot
  refine .intro rfl e ⟨v1, v2, v3, v4, v5, fun j hj x hx => ?_, hbut, rfl⟩
  obtain ⟨ht, hv⟩ := sampleAll_temp s xs j hj x hx
  have hall : RegsBut (heatFlds ++ windowFlds) s0 (s1.windowed bal w hot) := by
    refine RegsBut.trans (t := s1) ?_ (hbut.mono fun f hf => List.mem_append_right _ hf)
    rw [h1]
    exact (regsBut_heat s0 hot).mono fun f hf => List.mem_append_left _ hf
  rw [← h0] at ht hv
  have hk (k : Nat) (hk : 0x20100 * 8 ≤ k) : k ∉ (heatFlds ++ windowFlds).map Fld.key := by
    intro hmem
    have : ∀ i ∈ (heatFlds ++ windowFlds).map Fld.key, i < 0x20100 * 8 := by decide
    have := this k hmem
    omega
  exact ⟨(hall.rd (hk _ (by simp only [R.BEL_TEMP_TEMP]; omega))).trans ht, (hall.on (hk _ (by simp only [R.BEL_TEMP_VALID]; omega))).trans hv⟩

theorem leads_grantWindow_motion {s0 : State} {xs : List (Option (BitVec 12))} {hot w : Int} {a bal : Int × Int × Int} (h0 : s0 = s.sampleAll xs) (hh : hot = s0.tHot) (h1 : s1 = s0.heat hot)
    (hw : w = s1.windowBudget hot) (ha : a = s1.allot w) (hm : s1.on R.BEL_STAT_MOTION = true ∧ s1.on R.BEL_CTRL_AUTO_OP = false)
    (hbal : bal = windowBalances (s1.on R.BEL_CTRL_SPILL && !s1.on R.GLOBAL_MODE_REPRO) (s1.rdS R.BEL_BAL_C_BAL) (s1.rdS R.BEL_BAL_P_BAL) (s1.rdS R.BEL_BAL_B_BAL) a.1 0 0) :
    Leads s (.grantWindowStart xs) fun t => t.rd R.BEL_BAL_C_BAL = ux 32 bal.1 ∧ t.rd R.BEL_BAL_P_BAL = ux 32 bal.2.1 ∧ t.rd R.BEL_BAL_B_BAL = ux 32 bal.2.2 ∧
      t.rd R.BEL_WIN_W = w.toNat % 2 ^ 9 ∧ t.rd R.BEL_WIN_T_HOT = ux 12 hot ∧
      RegsBut [R.BEL_BAL_C_BAL, R.BEL_BAL_P_BAL, R.BEL_BAL_B_BAL, R.BEL_WIN_W, R.BEL_WIN_T_HOT] s1 t ∧ t = { s1 with regs := t.regs, opSince := min 4096 (s1.opSince + 1) } := by
  have e := windowStart_eq h0 hh h1 hw ha hm.2 (p := 0) (b := 0) (by simp [hm.1]) (by simp [hm.1]) hbal
  obtain ⟨v1, v2, v3, v4, v5⟩ := windowed_values s1 bal w hot
  exact .intro rfl e ⟨v1, v2, v3, v4, v5, regsBut_windowed s1 bal w hot, rfl⟩

/-- Settles O25: window starts, targets, supply, relock and lock failure, each by its equation. -/
theorem bellowsGrants : Obligations.BellowsGrants := by
  unfold Obligations.BellowsGrants
  refine ⟨?window, ?motion, ?raise, ?relock, ?kept, ?settled, ?settledIdle, ?lock, ?switch, ?timeout, ?tileLoss, ?pllLoss, ?fall, ?fallChanged⟩
  case window => exact fun s s0 s1 xs hot w a bal h0 hh h1 hw ha hm hbal => leads_grantWindow h0 hh h1 hw ha hm hbal
  case motion => exact fun s s0 s1 xs hot w a bal h0 hh h1 hw ha hm hbal => leads_grantWindow_motion h0 hh h1 hw ha hm hbal
  case raise => exact fun s w v tgt h ht hi hc => leads_opTgt_raise h ht hi hc
  case relock => exact fun s w v tgt h ht hi hc => leads_opTgt_relock h ht hi hc
  case kept => exact fun s w v tgt h ht hi => leads_opTgt_kept h ht hi
  case settled => exact fun s h => leads_supplySettled h
  case settledIdle => exact fun s h => leads_supplySettled_idle h
  case lock => exact fun s h => leads_tilePllLock h
  case switch => exact fun s h ht => leads_relockSwitchBack h ht
  case timeout => exact fun s h => leads_tileLockTimeout h
  case tileLoss => exact fun s h => leads_pllLockLoss_tile h
  case pllLoss => exact fun s pll h => leads_pllLockLoss_other h
  case fall => exact fun s hv hi hc => leads_bellowsVokFall hv hi hc
  case fallChanged => exact fun s hv => leads_bellowsVokFall_changed hv

end Sys2Proof.Machine
end

section
/-! PROOFS. Power of the tiles and of the raster unit, motion-only mode (R505 to R507 of spec/15_bellows_clocks.md). -/

namespace Sys2Proof.Machine

variable {s : State} {w : Who} {i : Fin 2} {b : Fin 32} {v : BitVec 32} {u : Nat}

/-! ### One more bit of a mask -/

/-- A power of two added to a natural without that bit is set in it. -/
theorem or_two_pow_eq_add {x k : Nat} (h : bit x k = false) : x ||| 2 ^ k = x + 2 ^ k := by
  have hk : x / 2 ^ k % 2 = 0 := by simpa [bit, Nat.testBit_eq_decide_div_mod_eq] using h
  have hmod : x % 2 ^ (k + 1) = x % 2 ^ k := by rw [Nat.mod_pow_succ, hk, Nat.mul_zero, Nat.add_zero]
  have hlt : x % 2 ^ k < 2 ^ k := Nat.mod_lt _ (Nat.two_pow_pos k)
  have hdiv := Nat.div_add_mod x (2 ^ (k + 1))
  have hlow : x % 2 ^ k ||| 2 ^ k = 2 ^ k + x % 2 ^ k := by
    have h1 := Nat.two_pow_add_eq_or_of_lt hlt 1
    rw [Nat.mul_one] at h1
    rw [Nat.or_comm, h1]
  have hlt2 : 2 ^ k + x % 2 ^ k < 2 ^ (k + 1) := by rw [Nat.pow_succ]; omega
  calc x ||| 2 ^ k = (2 ^ (k + 1) * (x / 2 ^ (k + 1)) + x % 2 ^ k) ||| 2 ^ k := by rw [← hmod, hdiv]
    _ = 2 ^ (k + 1) * (x / 2 ^ (k + 1)) ||| (2 ^ k + x % 2 ^ k) := by
      rw [Nat.two_pow_add_eq_or_of_lt (by rw [Nat.pow_succ]; omega), Nat.or_assoc, hlow]
    _ = x + 2 ^ k := by rw [← Nat.two_pow_add_eq_or_of_lt hlt2, ← hmod]; omega

theorem bit_add_two_pow_same {x k : Nat} (h : bit x k = false) : bit (x + 2 ^ k) k = true := by
  rw [← or_two_pow_eq_add h, bit, Nat.testBit_or, Nat.testBit_two_pow_self, Bool.or_true]

theorem bit_add_two_pow_ne {x k j : Nat} (h : bit x k = false) (hj : j ≠ k) : bit (x + 2 ^ k) j = bit x j := by
  rw [← or_two_pow_eq_add h, bit, bit, Nat.testBit_or, Nat.testBit_two_pow_of_ne (Ne.symm hj), Bool.or_false]

/-! ### BEL_PWR_DN (R505) -/

theorem powerTile_same {k : Nat} {dn : Bool} (h : dn = bit (s.rd (R.BEL_PWR_DN_DN (k / 32))) (k % 32)) : s.powerTile k dn = s := if_pos h

/-- A write that changes one bit of BEL_PWR_DN acts on that tile alone, whatever the action leaves of the register. -/
theorem writePwrDn_one {q : State} (hu : u = 32 * i + b) (hb : bit (s.rd (R.BEL_PWR_DN_DN i)) b = false) (hv : v.toNat = s.rd (R.BEL_PWR_DN_DN i) + 2 ^ b.val)
    (hq : s.powerTile u true = q) (hr : ∀ k ≠ b.val, bit (q.rd (R.BEL_PWR_DN_DN i)) k = bit (s.rd (R.BEL_PWR_DN_DN i)) k) : s.writePwrDn i v.toNat = q := by
  have hi := i.isLt
  have hb32 := b.isLt
  have key := foldl_range_ind (n := 32) (fun (s : State) k => s.powerTile (32 * i + k) (bit v.toNat k)) (fun m x => x = if m ≤ b.val then s else q) ?_ (s := s) (if_pos (Nat.zero_le _)).symm
  · rw [if_neg (by omega)] at key
    exact key
  · rintro x m hm rfl
    have hdiv : (32 * i.val + m) / 32 = i.val := by omega
    have hmod : (32 * i.val + m) % 32 = m := by omega
    by_cases hmb : m = b.val
    · rw [if_pos (by omega), if_neg (by omega), hmb, hv, bit_add_two_pow_same hb, ← hu, hq]
    · rw [hv, bit_add_two_pow_ne hb hmb]
      by_cases hle : m ≤ b.val
      · rw [if_pos hle, if_pos (by omega)]
        exact powerTile_same (by rw [hdiv, hmod])
      · rw [if_neg hle, if_neg (by omega)]
        exact powerTile_same (by rw [hdiv, hmod, hr m hmb])

theorem zeroMem_frame (s : State) (k : Nat) : ∃ m e x l, s.zeroMem k = { s with mem := m, ecc := e, unknown := x, lostPages := l } := by
  unfold State.zeroMem
  split
  · exact ⟨s.mem, s.ecc, s.unknown, s.lostPages, rfl⟩
  · exact ⟨_, _, _, _, rfl⟩

/-- Memory forgotten: only what is known of memory changes, and the unit is among those of unknown contents. -/
theorem forgetMem_frame (s : State) (k : Nat) : ∃ m e x l, s.forgetMem k = { s with mem := m, ecc := e, unknown := x, lostPages := l } ∧ x.contains k = true := by
  obtain ⟨m, e, x, l, h⟩ := zeroMem_frame s k
  refine ⟨m, e, x ++ [k], l, ?_, by simp⟩
  rw [State.forgetMem, h]

theorem leads_belPwrDn (h : s.takes w (0x20030 + 4 * i) v.toNat = true) (hu : u = 32 * i + b) (hb : bit (s.rd (R.BEL_PWR_DN_DN i)) b = false)
    (hv : v.toNat = s.rd (R.BEL_PWR_DN_DN i) + 2 ^ b.val) (hst : (s.unitSt u).state = 2 ∧ s.tileOn u = true) : Leads s (.belPwrDn w i v) fun t =>
      t.rd (R.BEL_PWR_DN_DN i) = v.toNat ∧ t.unitSt u = { s.unitSt u with powered := false, bistPass := false, bistRun := false, zeroed := false, dirty := false } ∧
      (∀ x, x ≠ u → t.unitSt x = s.unitSt x) ∧ t.unknown.contains u = true ∧ RegsBut [R.BEL_PWR_DN_DN i] s t ∧
      t = { s with regs := t.regs, units := t.units, mem := t.mem, unknown := t.unknown, lostPages := t.lostPages, ecc := t.ecc, answer := t.answer } := by
  have hdiv : u / 32 = i.val := by omega
  have hmod : u % 32 = b.val := by omega
  obtain ⟨m, e, x, l, hf, hx⟩ := forgetMem_frame (s.setUnit u { s.unitSt u with powered := false, bistPass := false, bistRun := false, zeroed := false, dirty := false }) u
  have hq : s.powerTile u true = State.wr { s.setUnit u { s.unitSt u with powered := false, bistPass := false, bistRun := false, zeroed := false, dirty := false } with
      mem := m, ecc := e, unknown := x, lostPages := l } (R.BEL_PWR_DN_DN i) v.toNat := by
    unfold State.powerTile
    simp only [hdiv, hmod, hb, Bool.true_eq_false, if_false, if_true, if_pos hst, hf, or_two_pow_eq_add hb, hv]
  have hrd : State.rd (State.wr { s.setUnit u { s.unitSt u with powered := false, bistPass := false, bistRun := false, zeroed := false, dirty := false } with
      mem := m, ecc := e, unknown := x, lostPages := l } (R.BEL_PWR_DN_DN i) v.toNat) (R.BEL_PWR_DN_DN i) = v.toNat := (State.rd_wr_same _ _ _).trans (bv32_mod v)
  have e1 := writeReg_BEL_PWR_DN i h
  rw [bv32_mod, writePwrDn_one hu hb hv hq (fun k hk => by rw [hrd, hv, bit_add_two_pow_ne hb hk])] at e1
  refine .intro rfl e1 ⟨hrd, State.setUnit_unitSt s _ _, fun y hy => State.setUnit_unitSt_ne s _ hy, hx, ?_, rfl⟩
  exact (regsBut_wr List.mem_cons_self).mpr (RegsBut.of_regs (RegsBut.refl _ s) rfl)

theorem leads_belPwrDn_rejected (h : s.takes w (0x20030 + 4 * i) v.toNat = true) (hu : u = 32 * i + b) (hb : bit (s.rd (R.BEL_PWR_DN_DN i)) b = false)
    (hv : v.toNat = s.rd (R.BEL_PWR_DN_DN i) + 2 ^ b.val) (hst : (s.unitSt u).state ≠ 2 ∨ s.tileOn u = false) : Leads s (.belPwrDn w i v) fun t =>
      t.on R.BEL_STAT_PWR_REJ = true ∧ RegsBut [R.BEL_STAT_PWR_REJ] s t ∧ t = { s with regs := t.regs, answer := t.answer } := by
  have hdiv : u / 32 = i.val := by omega
  have hmod : u % 32 = b.val := by omega
  have hn : ¬ ((s.unitSt u).state = 2 ∧ s.tileOn u = true) := by
    rintro ⟨h2, ht⟩
    rcases hst with h | h
    · exact h h2
    · rw [ht] at h; exact Bool.noConfusion h
  have hq : s.powerTile u true = s.wr R.BEL_STAT_PWR_REJ 1 := by
    unfold State.powerTile
    simp only [hdiv, hmod, hb, Bool.true_eq_false, if_false, if_true, if_neg hn]
  have e1 := writeReg_BEL_PWR_DN i h
  rw [bv32_mod, writePwrDn_one hu hb hv hq (fun k _ => by rw [State.rd_wr_ne _ _ (by simp only [R.BEL_PWR_DN_DN, R.BEL_STAT_PWR_REJ]; omega)])] at e1
  exact .intro rfl e1 ⟨State.on_wr_same s R.BEL_STAT_PWR_REJ 1, regsBut_wr_self s R.BEL_STAT_PWR_REJ 1, rfl⟩

/-! ### The raster unit and the return of power (R505, R506) -/

theorem leads_rasDn (h : s.takes w 0x20040 1 = true) (hd : s.on R.BEL_PWR_MISC_RAS_DN = false) (hi : s.rd R.RAS_STAT_STATE = 0 ∧ s.on (R.SEQ_CTRL_ENABLE 0x210000) = false) :
    Leads s (.rasDn w true) fun t => t.on R.BEL_PWR_MISC_RAS_DN = true ∧ t.on R.BEL_PWR_MISC_RAS_ON = false ∧
      RegsBut [R.BEL_PWR_MISC_RAS_DN, R.BEL_PWR_MISC_RAS_ON] s t ∧ t = { s with regs := t.regs, answer := t.answer } := by
  have e := writeReg_BEL_PWR_MISC h
  have hw : s.writePwrMisc (1 % 2 ^ 32) = (s.wr R.BEL_PWR_MISC_RAS_DN 1).wr R.BEL_PWR_MISC_RAS_ON 0 := by
    rw [State.writePwrMisc, if_pos (by decide), if_neg (by simp [hd]), if_pos (by simp [hi])]
    rfl
  rw [hw] at e
  refine .intro rfl e ⟨?_, State.on_wr_same (s.wr R.BEL_PWR_MISC_RAS_DN 1) R.BEL_PWR_MISC_RAS_ON 0, ?_, rfl⟩
  · rw [State.answers_on, State.on_wr_ne _ _ (by decide)]
    exact State.on_wr_same _ _ _
  · simp

theorem leads_rasDn_rejected (h : s.takes w 0x20040 1 = true) (hd : s.on R.BEL_PWR_MISC_RAS_DN = false) (hi : s.rd R.RAS_STAT_STATE ≠ 0 ∨ s.on (R.SEQ_CTRL_ENABLE 0x210000) = true) :
    Leads s (.rasDn w true) fun t => t.on R.BEL_STAT_PWR_REJ = true ∧ RegsBut [R.BEL_STAT_PWR_REJ] s t ∧ t = { s with regs := t.regs, answer := t.answer } := by
  have e := writeReg_BEL_PWR_MISC h
  have hw : s.writePwrMisc (1 % 2 ^ 32) = s.wr R.BEL_STAT_PWR_REJ 1 := by
    rw [State.writePwrMisc, if_pos (by decide), if_neg (by simp [hd]), if_neg (by rcases hi with hi | hi <;> simp [hi])]
  rw [hw] at e
  exact .intro rfl e ⟨State.on_wr_same s R.BEL_STAT_PWR_REJ 1, regsBut_wr_self s R.BEL_STAT_PWR_REJ 1, rfl⟩

theorem leads_rasDn_back (h : s.takes w 0x20040 0 = true) :
    Leads s (.rasDn w false) fun t => t.on R.BEL_PWR_MISC_RAS_DN = false ∧ RegsBut [R.BEL_PWR_MISC_RAS_DN] s t ∧ t = { s with regs := t.regs, answer := t.answer } := by
  have e := writeReg_BEL_PWR_MISC h
  exact .intro rfl e ⟨State.on_wr_same s R.BEL_PWR_MISC_RAS_DN 0, regsBut_wr_self s R.BEL_PWR_MISC_RAS_DN 0, rfl⟩

theorem leads_powerReturn {u : Fin 64} (hp : (s.unitSt u).powered = false) (hd : bit (s.rd (R.BEL_PWR_DN_DN (u / 32))) (u % 32) = false) :
    Leads s (.powerReturn (some u)) fun t => t.unitSt u = { s.unitSt u with powered := true } ∧ (∀ x, x ≠ u.val → t.unitSt x = s.unitSt x) ∧ t.unknown.contains u.val = true ∧
      t = { s with units := t.units, mem := t.mem, unknown := t.unknown, lostPages := t.lostPages, ecc := t.ecc } := by
  obtain ⟨m, e, x, l, hf, hx⟩ := forgetMem_frame (s.setUnit u { s.unitSt u with powered := true }) u
  have hq : s.powerReturnTile u = { s.setUnit u { s.unitSt u with powered := true } with mem := m, ecc := e, unknown := x, lostPages := l } := by
    rw [State.powerReturnTile, if_neg (by simp [hp, hd]), hf]
  exact .intro rfl hq ⟨State.setUnit_unitSt s _ _, fun y hy => State.setUnit_unitSt_ne s _ hy, hx, rfl⟩

theorem leads_powerReturn_raster (hd : s.on R.BEL_PWR_MISC_RAS_DN = false) :
    Leads s (.powerReturn none) fun t => t.on R.BEL_PWR_MISC_RAS_ON = true ∧ RegsBut [R.BEL_PWR_MISC_RAS_ON] s t ∧ t = { s with regs := t.regs } :=
  .intro rfl (if_neg (by simp [hd])) ⟨State.on_wr_same s R.BEL_PWR_MISC_RAS_ON 1, regsBut_wr_self s R.BEL_PWR_MISC_RAS_ON 1, rfl⟩

/-! ### MOTION_ONLY (R507) -/

/-- The fields of BEL_CTRL that a write sets. -/
def State.belCtrl (s : State) (k : Nat) : State := s.wrAll [(R.BEL_CTRL_AUTO_OP, bits k 0 1), (R.BEL_CTRL_SPILL, bits k 1 1), (R.BEL_CTRL_IRQ_EN, bits k 2 1)]

theorem regsBut_belCtrl (s : State) (k : Nat) : RegsBut [R.BEL_CTRL_AUTO_OP, R.BEL_CTRL_SPILL, R.BEL_CTRL_IRQ_EN] s (s.belCtrl k) := by
  simp [State.belCtrl, State.wrAll]

theorem belCtrl_values (s : State) (k : Nat) : (s.belCtrl k).rd R.BEL_CTRL_AUTO_OP = bits k 0 1 ∧ (s.belCtrl k).rd R.BEL_CTRL_SPILL = bits k 1 1 ∧ (s.belCtrl k).rd R.BEL_CTRL_IRQ_EN = bits k 2 1 := by
  simp (disch := decide) only [State.belCtrl, State.wrAll, State.rd_wr_ne, State.rd_wr_same]
  exact ⟨bits_mod _ _ _, bits_mod _ _ _, bits_mod _ _ _⟩

theorem allDown_belCtrl (s : State) (k : Nat) : (s.belCtrl k).allDown = s.allDown := by
  have h := regsBut_belCtrl s k
  have ht (t : Nat) : (s.belCtrl k).tileOn t = s.tileOn t := by
    rw [State.tileOn, h.rd (by decide), h.rd (by decide)]
    rfl
  rw [State.allDown, State.allDown, h.on (by decide)]
  simp only [ht]
  rfl

theorem writeReg_motion (h : s.takes w 0x20000 v.toNat = true) (hb : bit v.toNat 3 = true) : s.writeReg w 0x20000 v.toNat = ((s.belCtrl v.toNat).writeMotion true).answers .ok 0 [] := by
  have e := writeReg_BEL_CTRL h
  rw [bv32_mod, State.writeBelCtrl, hb] at e
  exact e

theorem leads_motionOnly (h : s.takes w 0x20000 v.toNat = true) (hb : bit v.toNat 3 = true) (hm : s.on R.BEL_STAT_MOTION = false ∧ s.allDown = true) :
    Leads s (.motionOnly w v) fun t => t.on R.BEL_CTRL_MOTION_ONLY = true ∧ t.on R.BEL_STAT_MOTION = true ∧ t.on R.CLK_STAT_TILE_LOCK = false ∧ t.rd R.CLK_OP_OP_CUR = 0 ∧ t.on R.CLK_OP_BUSY = false ∧ t.on R.CLK_STAT_ON_SAFE = true ∧
      t.rd R.BEL_CTRL_AUTO_OP = bits v.toNat 0 1 ∧ t.rd R.BEL_CTRL_SPILL = bits v.toNat 1 1 ∧ t.rd R.BEL_CTRL_IRQ_EN = bits v.toNat 2 1 ∧ t.opChange = {} ∧ t.vid = 0 ∧ t.vidChanged = true ∧
      RegsBut [R.BEL_CTRL_MOTION_ONLY, R.BEL_STAT_MOTION, R.CLK_STAT_TILE_LOCK, R.CLK_OP_OP_CUR, R.CLK_OP_BUSY, R.CLK_STAT_ON_SAFE, R.BEL_CTRL_AUTO_OP, R.BEL_CTRL_SPILL, R.BEL_CTRL_IRQ_EN] s t ∧
      t = { s with regs := t.regs, opChange := {}, vid := 0, vidChanged := true, answer := t.answer } := by
  have e := writeReg_motion h hb
  have hbut := regsBut_belCtrl s v.toNat
  obtain ⟨v1, v2, v3⟩ := belCtrl_values s v.toNat
  have hor : OnlyRegs s (s.belCtrl v.toNat) := (OnlyRegs.refl s).wrAll _
  rw [State.writeMotion, if_pos rfl, if_neg (by rw [hbut.on (by decide), hm.1]; decide), if_pos (by rw [allDown_belCtrl, hm.2])] at e
  generalize s.belCtrl v.toNat = q at *
  have hrd (f : Fld) : State.rd (State.answers { (q.wrAll [(R.BEL_CTRL_MOTION_ONLY, 1), (R.BEL_STAT_MOTION, 1), (R.CLK_STAT_TILE_LOCK, 0), (R.CLK_OP_OP_CUR, 0),
          (R.CLK_OP_BUSY, 0), (R.CLK_STAT_ON_SAFE, 1)]) with opChange := {}, vid := 0, vidChanged := true } .ok 0 []) f =
      (q.wrAll [(R.BEL_CTRL_MOTION_ONLY, 1), (R.BEL_STAT_MOTION, 1), (R.CLK_STAT_TILE_LOCK, 0), (R.CLK_OP_OP_CUR, 0), (R.CLK_OP_BUSY, 0), (R.CLK_STAT_ON_SAFE, 1)]).rd f := rfl
  have hbut2 : RegsBut [R.BEL_CTRL_MOTION_ONLY, R.BEL_STAT_MOTION, R.CLK_STAT_TILE_LOCK, R.CLK_OP_OP_CUR, R.CLK_OP_BUSY, R.CLK_STAT_ON_SAFE] q
      (q.wrAll [(R.BEL_CTRL_MOTION_ONLY, 1), (R.BEL_STAT_MOTION, 1), (R.CLK_STAT_TILE_LOCK, 0), (R.CLK_OP_OP_CUR, 0), (R.CLK_OP_BUSY, 0), (R.CLK_STAT_ON_SAFE, 1)]) := by
    simp [State.wrAll]
  refine .intro rfl e ⟨?_, ?_, ?_, ?_, ?_, ?_, (hrd _).trans ((hbut2.rd (by decide)).trans v1), (hrd _).trans ((hbut2.rd (by decide)).trans v2), (hrd _).trans ((hbut2.rd (by decide)).trans v3),
    rfl, rfl, rfl, ((hbut.mono (by simp)).trans (hbut2.mono (by simp))).trans (RegsBut.of_rd hrd), ?_⟩
  · rw [on_of_rd hrd]; simp (disch := decide) [State.wrAll, State.on_wr_ne]
  · rw [on_of_rd hrd]; simp (disch := decide) [State.wrAll, State.on_wr_ne]
  · rw [on_of_rd hrd]; simp (disch := decide) [State.wrAll, State.on_wr_ne]
  · rw [hrd]; simp (disch := decide) [State.wrAll, State.rd_wr_ne]
  · rw [on_of_rd hrd]; simp (disch := decide) [State.wrAll, State.on_wr_ne]
  · rw [on_of_rd hrd]; simp (disch := decide) [State.wrAll]
  · rw [hor.wrAll [(R.BEL_CTRL_MOTION_ONLY, 1), (R.BEL_STAT_MOTION, 1), (R.CLK_STAT_TILE_LOCK, 0), (R.CLK_OP_OP_CUR, 0), (R.CLK_OP_BUSY, 0), (R.CLK_STAT_ON_SAFE, 1)]]
    rfl

theorem leads_motionOnly_rejected (h : s.takes w 0x20000 v.toNat = true) (hb : bit v.toNat 3 = true) (hm : s.on R.BEL_STAT_MOTION = false ∧ s.allDown = false) :
    Leads s (.motionOnly w v) fun t => t.on R.BEL_CTRL_MOTION_ONLY = false ∧ t.on R.BEL_STAT_PWR_REJ = true ∧ t.on R.BEL_STAT_MOTION = false ∧
      t.rd R.BEL_CTRL_AUTO_OP = bits v.toNat 0 1 ∧ t.rd R.BEL_CTRL_SPILL = bits v.toNat 1 1 ∧ t.rd R.BEL_CTRL_IRQ_EN = bits v.toNat 2 1 ∧
      RegsBut [R.BEL_CTRL_MOTION_ONLY, R.BEL_STAT_PWR_REJ, R.BEL_CTRL_AUTO_OP, R.BEL_CTRL_SPILL, R.BEL_CTRL_IRQ_EN] s t ∧ t = { s with regs := t.regs, answer := t.answer } := by
  have e := writeReg_motion h hb
  have hbut := regsBut_belCtrl s v.toNat
  obtain ⟨v1, v2, v3⟩ := belCtrl_values s v.toNat
  have hor : OnlyRegs s (s.belCtrl v.toNat) := (OnlyRegs.refl s).wrAll _
  have hmot : (s.belCtrl v.toNat).on R.BEL_STAT_MOTION = false := (hbut.on (by decide)).trans hm.1
  rw [State.writeMotion, if_pos rfl, if_neg (by rw [hmot]; decide), if_neg (by rw [allDown_belCtrl, hm.2]; decide)] at e
  generalize s.belCtrl v.toNat = q at *
  have hbut2 : RegsBut [R.BEL_CTRL_MOTION_ONLY, R.BEL_STAT_PWR_REJ] q ((q.wr R.BEL_CTRL_MOTION_ONLY 0).wr R.BEL_STAT_PWR_REJ 1) := by simp
  refine .intro rfl e ⟨?_, State.on_wr_same (q.wr R.BEL_CTRL_MOTION_ONLY 0) R.BEL_STAT_PWR_REJ 1, (hbut2.on (by decide)).trans hmot, (hbut2.rd (by decide)).trans v1, (hbut2.rd (by decide)).trans v2, (hbut2.rd (by decide)).trans v3,
    (hbut.mono (by simp)).trans (hbut2.mono (by simp)), ?_⟩
  · rw [State.answers_on, State.on_wr_ne _ _ (by decide)]
    exact State.on_wr_same _ _ _
  · rw [hor]; rfl

/-- Settles O26: one bit of a power mask acts on one tile; MOTION_ONLY acts once everything is down. -/
theorem bellowsPower : Obligations.BellowsPower := by
  unfold Obligations.BellowsPower
  refine ⟨?tileDown, ?tileRejected, ?rasDown, ?rasRejected, ?rasBack, ?tileReturn, ?rasReturn, ?motion, ?motionRejected⟩
  case tileDown => exact fun s w i b v u h hu hb hv hst => leads_belPwrDn h hu hb hv hst
  case tileRejected => exact fun s w i b v u h hu hb hv hst => leads_belPwrDn_rejected h hu hb hv hst
  case rasDown => exact fun s w h hd hi => leads_rasDn h hd hi
  case rasRejected => exact fun s w h hd hi => leads_rasDn_rejected h hd hi
  case rasBack => exact fun s w h => leads_rasDn_back h
  case tileReturn => exact fun s u hp hd => leads_powerReturn hp hd
  case rasReturn => exact fun s hd => leads_powerReturn_raster hd
  case motion => exact fun s w v h hb hm => leads_motionOnly h hb hm
  case motionRejected => exact fun s w v h hb hm => leads_motionOnly_rejected h hb hm

end Sys2Proof.Machine
end

section
/-! PROOFS. Clocks, fuses, INIT and the boot image (R741 to R757 of spec/22_startup.md). -/

namespace Sys2Proof.Machine

variable {s t : State}

/-! ### One field of each copy written -/

theorem onlyRegs_foldl_wr (s : State) (l : List Nat) (F : Nat → Fld) (v : Nat → Nat) : OnlyRegs s (l.foldl (fun s j => s.wr (F j) (v j)) s) :=
  foldl_keep (OnlyRegs s) _ l (fun _ _ _ h => h.wr _ _) (OnlyRegs.refl s)

theorem regsBut_foldl_wr (s : State) (n : Nat) (F : Nat → Fld) (v : Nat → Nat) :
    RegsBut ((List.range n).map F) s ((List.range n).foldl (fun s j => s.wr (F j) (v j)) s) :=
  foldl_keep (RegsBut ((List.range n).map F) s) _ _ (fun _ _ hi h => (regsBut_wr (List.mem_map_of_mem hi)).mpr h) (RegsBut.refl _ s)

theorem rd_foldl_wr (s : State) {n : Nat} {F : Nat → Fld} (v : Nat → Nat) (hF : ∀ i j, i ≠ j → (F j).key ≠ (F i).key) :
    ∀ j < n, ((List.range n).foldl (fun s j => s.wr (F j) (v j)) s).rd (F j) = v j % 2 ^ (F j).w :=
  foldl_range_all (fun s j => s.wr (F j) (v j)) (fun j (t : State) => t.rd (F j) = v j % 2 ^ (F j).w) (fun _ _ _ => State.rd_wr_same _ _ _)
    (fun _ i j _ _ hij h => (State.rd_wr_ne _ _ (hF i j hij)).trans h) s

theorem on_wr_b2n (s : State) {f : Fld} (hw : f.w = 1) (c : Bool) : (s.wr f (b2n c)).on f = c := by
  rw [State.on_wr_same, hw, Nat.pow_one, b2n_mod2, b2n_ne_zero]

/-! ### PORST_N (R741, R743) -/

theorem leads_porstNAssert : Leads s .porstNAssert fun t =>
    t.boot = { State.reset.boot with porst := true, fuseA := s.boot.fuseA, fuseB := s.boot.fuseB, banksLost := s.boot.banksLost } ∧ t.stage = 0 ∧
    t.rd R.SF_STAT_SAFE_IN = s.rd R.SF_STAT_SAFE_IN % 2 ∧ RegsBut [R.BOOT_STAT_STAGE, R.SF_STAT_SAFE_IN] State.reset t ∧
    t = { State.reset with pending := s.pending, freeCtr := s.freeCtr, vok := s.vok, safeInHigh := s.safeInHigh, regs := t.regs, boot := t.boot } := by
  refine .intro rfl rfl ⟨rfl, ?_, ?_, ?_, rfl⟩
  · exact (State.rd_wr_ne _ _ (by decide)).trans (State.rd_wr_same _ _ _)
  · exact State.rd_wr_same _ _ _
  · refine (regsBut_wr (by simp)).mpr ((regsBut_wr (by simp)).mpr ?_)
    exact RegsBut.of_rd fun _ => rfl

theorem leads_porstNRelease (mode : Fin 4) (h : s.boot.porst = true) : Leads s (.porstNRelease mode) fun t => t.stage = 1 ∧ t.rd R.BOOT_STAT_MODE = mode.val ∧
    t.boot = { s.boot with porst := false } ∧ RegsBut [R.BOOT_STAT_STAGE, R.BOOT_STAT_MODE] s t ∧ t = { s with regs := t.regs, boot := t.boot } := by
  refine .intro rfl (if_pos h) ⟨?_, ?_, rfl, ?_, rfl⟩
  · exact (State.rd_wr_ne _ _ (by decide)).trans (State.rd_wr_same _ _ _)
  · exact (State.rd_wr_same _ _ _).trans (Nat.mod_eq_of_lt mode.isLt)
  · refine (regsBut_wr (by simp)).mpr ((regsBut_wr (by simp)).mpr ?_)
    exact RegsBut.of_rd fun _ => rfl

/-! ### Clocks (R744, R745) -/

theorem leads_referenceAcceptance {n1 n2 n3 n4 : Fin 256} (h : s.stage = 1 ∧ s.boot.refOk = false ∧ s.boot.porst = false)
    (hn : (96 ≤ n1.val ∧ n1.val ≤ 160) ∧ (96 ≤ n2.val ∧ n2.val ≤ 160) ∧ (96 ≤ n3.val ∧ n3.val ≤ 160) ∧ 96 ≤ n4.val ∧ n4.val ≤ 160) :
    Leads s (.referenceAcceptance n1 n2 n3 n4) fun t => t = { s with boot := { s.boot with refOk := true } } := by
  refine .intro rfl (if_pos ?_) rfl
  simpa [h] using hn

theorem leads_referenceAcceptance_waits {n1 n2 n3 n4 : Fin 256}
    (hn : (n1.val < 96 ∨ 160 < n1.val) ∨ (n2.val < 96 ∨ 160 < n2.val) ∨ (n3.val < 96 ∨ 160 < n3.val) ∨ n4.val < 96 ∨ 160 < n4.val) :
    Leads s (.referenceAcceptance n1 n2 n3 n4) fun t => t = s := by
  refine .intro rfl (if_neg fun h => ?_) rfl
  obtain ⟨-, -, -, h⟩ := h
  simp only [List.all_cons, List.all_nil, Bool.and_true, Bool.and_eq_true, decide_eq_true_eq] at h
  omega

/-- The lock bits of the four PLLs as they are shown. -/
def State.locksShown (s : State) (ctrl fab tile serdes : Bool) : State :=
  s.wrAll [(R.CLK_STAT_CTRL_LOCK, b2n ctrl), (R.CLK_STAT_FAB_LOCK, b2n fab), (R.CLK_STAT_TILE_LOCK, b2n tile), (R.CLK_STAT_SERDES_LOCK, b2n serdes)]

theorem locksShown_values (s : State) (ctrl fab tile serdes : Bool) : (s.locksShown ctrl fab tile serdes).on R.CLK_STAT_CTRL_LOCK = ctrl ∧
    (s.locksShown ctrl fab tile serdes).on R.CLK_STAT_FAB_LOCK = fab ∧ (s.locksShown ctrl fab tile serdes).on R.CLK_STAT_TILE_LOCK = tile ∧
    (s.locksShown ctrl fab tile serdes).on R.CLK_STAT_SERDES_LOCK = serdes := by
  simp (disch := decide) only [State.locksShown, State.wrAll, State.on_wr_ne]
  exact ⟨on_wr_b2n _ rfl _, on_wr_b2n _ rfl _, on_wr_b2n _ rfl _, on_wr_b2n _ rfl _⟩

theorem regsBut_locksShown (s : State) (ctrl fab tile serdes : Bool) :
    RegsBut [R.CLK_STAT_CTRL_LOCK, R.CLK_STAT_FAB_LOCK, R.CLK_STAT_TILE_LOCK, R.CLK_STAT_SERDES_LOCK] s (s.locksShown ctrl fab tile serdes) := by
  simp [State.locksShown, State.wrAll]

theorem onlyRegs_locksShown (s : State) (ctrl fab tile serdes : Bool) : OnlyRegs s (s.locksShown ctrl fab tile serdes) := State.wrAll_upd _ _

/-- Boot has stopped with a cause: STAGE and CAUSE alone have changed. -/
theorem bootFail_values (s : State) (cause : Nat) : (s.bootFail cause).stage = 0xF ∧ (s.bootFail cause).rd R.BOOT_STAT_CAUSE = cause % 16 ∧
    RegsBut [R.BOOT_STAT_STAGE, R.BOOT_STAT_CAUSE] s (s.bootFail cause) ∧ OnlyRegs s (s.bootFail cause) :=
  ⟨State.rd_wr_same _ _ _, (State.rd_wr_ne _ _ (by decide)).trans (State.rd_wr_same _ _ _), by simp [State.bootFail, State.toStage], rfl⟩

theorem leads_pllLockLimit_failed {ctrl fab tile serdes : Bool} (h : s.stage = 1 ∧ s.boot.refOk = true ∧ s.aligned = false)
    (hl : (ctrl && fab && tile && serdes) = false) : Leads s (.pllLockLimit ctrl fab tile serdes) fun t => t.stage = 0xF ∧ t.rd R.BOOT_STAT_CAUSE = 2 ∧
      t.on R.CLK_STAT_CTRL_LOCK = ctrl ∧ t.on R.CLK_STAT_FAB_LOCK = fab ∧ t.on R.CLK_STAT_TILE_LOCK = tile ∧ t.on R.CLK_STAT_SERDES_LOCK = serdes ∧
      RegsBut [R.BOOT_STAT_STAGE, R.BOOT_STAT_CAUSE, R.CLK_STAT_CTRL_LOCK, R.CLK_STAT_FAB_LOCK, R.CLK_STAT_TILE_LOCK, R.CLK_STAT_SERDES_LOCK] s t ∧
      t = { s with regs := t.regs } := by
  have e : s.pllLimit [ctrl, fab, tile, serdes] = (s.locksShown ctrl fab tile serdes).bootFail 2 := by
    refine (if_pos (by simpa using h)).trans (if_neg ?_)
    simpa [Bool.and_eq_true, Bool.and_assoc] using hl
  obtain ⟨v1, v2, v3, v4⟩ := locksShown_values s ctrl fab tile serdes
  obtain ⟨f1, f2, f3, f4⟩ := bootFail_values (s.locksShown ctrl fab tile serdes) 2
  exact .intro rfl e ⟨f1, f2, (f3.on (by decide)).trans v1, (f3.on (by decide)).trans v2, (f3.on (by decide)).trans v3, (f3.on (by decide)).trans v4,
    ((regsBut_locksShown s ctrl fab tile serdes).mono (by simp)).trans (f3.mono (by simp)), (onlyRegs_locksShown s ctrl fab tile serdes).trans f4⟩

theorem leads_pllLockLimit_locked (h : s.stage = 1 ∧ s.boot.refOk = true ∧ s.aligned = false) : Leads s (.pllLockLimit true true true true) fun t => t.stage = 1 ∧
    t.on R.CLK_STAT_CTRL_LOCK = true ∧ t.on R.CLK_STAT_FAB_LOCK = true ∧ t.on R.CLK_STAT_TILE_LOCK = true ∧ t.on R.CLK_STAT_SERDES_LOCK = true ∧
    RegsBut [R.CLK_STAT_CTRL_LOCK, R.CLK_STAT_FAB_LOCK, R.CLK_STAT_TILE_LOCK, R.CLK_STAT_SERDES_LOCK] s t ∧ t = { s with regs := t.regs } := by
  have e : s.pllLimit [true, true, true, true] = s.locksShown true true true true := (if_pos (by simpa using h)).trans (if_pos rfl)
  obtain ⟨v1, v2, v3, v4⟩ := locksShown_values s true true true true
  have hb := regsBut_locksShown s true true true true
  exact .intro rfl e ⟨(hb.rd (by decide)).trans h.1, v1, v2, v3, v4, hb, onlyRegs_locksShown s true true true true⟩

theorem leads_dividerAlignment (h : s.stage = 1 ∧ s.boot.refOk = true ∧ s.aligned = false ∧ s.boot.porst = false) : Leads s .dividerAlignment fun t =>
    t.stage = 2 ∧ t.aligned = true ∧ t.now = 0 ∧ t.sysAcc = 0 ∧ t.boot = { s.boot with rom := 1 } ∧
    t.on R.CLK_STAT_CTRL_LOCK = true ∧ t.on R.CLK_STAT_FAB_LOCK = true ∧ t.on R.CLK_STAT_TILE_LOCK = true ∧ t.on R.CLK_STAT_SERDES_LOCK = true ∧
    RegsBut [R.BOOT_STAT_STAGE, R.CLK_STAT_CTRL_LOCK, R.CLK_STAT_FAB_LOCK, R.CLK_STAT_TILE_LOCK, R.CLK_STAT_SERDES_LOCK] s t ∧
    t = { s with regs := t.regs, aligned := true, now := 0, sysAcc := 0, boot := t.boot } := by
  have e : s.align = (State.locksShown { s with aligned := true, now := 0, sysAcc := 0, boot := { s.boot with rom := 1 } } true true true true).toStage 2 :=
    if_pos (by simpa using h)
  obtain ⟨v1, v2, v3, v4⟩ := locksShown_values { s with aligned := true, now := 0, sysAcc := 0, boot := { s.boot with rom := 1 } } true true true true
  have hb := regsBut_locksShown { s with aligned := true, now := 0, sysAcc := 0, boot := { s.boot with rom := 1 } } true true true true
  refine .intro rfl e ⟨State.rd_wr_same _ _ _, rfl, rfl, rfl, rfl, (State.on_wr_ne _ _ (by decide)).trans v1, (State.on_wr_ne _ _ (by decide)).trans v2,
    (State.on_wr_ne _ _ (by decide)).trans v3, (State.on_wr_ne _ _ (by decide)).trans v4, ?_, rfl⟩
  refine (regsBut_wr (by simp)).mpr (RegsBut.trans (t := { s with aligned := true, now := 0, sysAcc := 0, boot := { s.boot with rom := 1 } }) ?_ (hb.mono (by simp)))
  exact RegsBut.of_rd fun _ => rfl

/-! ### Fuses (R747, R748) -/

/-- The shadow registers that hold one value each. -/
def State.fuseFields (s : State) (f : Fuses) : State :=
  s.wrAll [(R.GLOBAL_ID_STEPPING, f.stepping), (R.ID_FUSE_GRADE, f.grade), (R.ID_FUSE_TEMP, b2n f.temp),
    (R.ID_FUSE_ENABLED, 64 - popcount 64 f.tileMap), (R.ID_FUSE_SECURE, b2n f.secure), (R.ID_FUSE_DEBUG_LOCK, b2n f.debugLock),
    (R.ID_FUSE_STARTUP_BIST, b2n f.startupBist), (R.ID_FUSE_HOST_RECOVERY, b2n f.hostRecovery),
    (R.ID_TILE_MAP_LO_TILE_MAP, f.tileMap), (R.ID_TILE_MAP_HI_TILE_MAP, f.tileMap / 2 ^ 32),
    (R.ID_SERIAL_LO_SERIAL, f.serial), (R.ID_SERIAL_HI_SERIAL, f.serial / 2 ^ 32),
    (R.ID_ROLLBACK_LO_ROLLBACK, f.rollback), (R.ID_ROLLBACK_HI_ROLLBACK, f.rollback / 2 ^ 32),
    (R.BOOT_IMG_COUNT, popcount 64 f.rollback)]

/-- The fields that `fuseFields` writes. -/
def fuseFlds : List Fld :=
  [R.GLOBAL_ID_STEPPING, R.ID_FUSE_GRADE, R.ID_FUSE_TEMP, R.ID_FUSE_ENABLED, R.ID_FUSE_SECURE, R.ID_FUSE_DEBUG_LOCK, R.ID_FUSE_STARTUP_BIST, R.ID_FUSE_HOST_RECOVERY,
    R.ID_TILE_MAP_LO_TILE_MAP, R.ID_TILE_MAP_HI_TILE_MAP, R.ID_SERIAL_LO_SERIAL, R.ID_SERIAL_HI_SERIAL, R.ID_ROLLBACK_LO_ROLLBACK, R.ID_ROLLBACK_HI_ROLLBACK, R.BOOT_IMG_COUNT]

theorem regsBut_fuseFields (s : State) (f : Fuses) : RegsBut fuseFlds s (s.fuseFields f) :=
  (regsBut_wrAll (by simp [fuseFlds])).mpr (RegsBut.refl _ s)

theorem fuseFields_values (s : State) (f : Fuses) : (s.fuseFields f).rd R.ID_FUSE_GRADE = f.grade % 4 ∧ (s.fuseFields f).on R.ID_FUSE_SECURE = f.secure ∧
    (s.fuseFields f).on R.ID_FUSE_DEBUG_LOCK = f.debugLock ∧ (s.fuseFields f).rd R.ID_TILE_MAP_LO_TILE_MAP = f.tileMap % 2 ^ 32 ∧
    (s.fuseFields f).rd R.ID_TILE_MAP_HI_TILE_MAP = f.tileMap / 2 ^ 32 % 2 ^ 32 ∧ (s.fuseFields f).rd R.ID_SERIAL_LO_SERIAL = f.serial % 2 ^ 32 ∧
    (s.fuseFields f).rd R.ID_ROLLBACK_LO_ROLLBACK = f.rollback % 2 ^ 32 := by
  simp (disch := decide) only [State.fuseFields, State.wrAll, State.on_wr_ne, State.rd_wr_ne]
  exact ⟨State.rd_wr_same _ _ _, on_wr_b2n _ rfl _, on_wr_b2n _ rfl _, State.rd_wr_same _ _ _, State.rd_wr_same _ _ _, State.rd_wr_same _ _ _, State.rd_wr_same _ _ _⟩

/-- The key hash and the tiles in their shadow registers. -/
def State.fuseTables (s : State) (f : Fuses) : State :=
  (List.range 64).foldl (fun s t => s.wr (R.TILE_ID_ENABLED t) (b2n (!bit f.tileMap t)))
    ((List.range 8).foldl (fun s j => s.wr (R.ID_KEY_HASH_KEY_HASH j) (f.keyHash / 2 ^ (32 * j))) s)

theorem shadows_eq (s : State) (f : Fuses) : s.shadows f = (s.fuseFields f).fuseTables f := rfl

theorem regsBut_fuseTables (s : State) (f : Fuses) :
    RegsBut ((List.range 8).map R.ID_KEY_HASH_KEY_HASH ++ (List.range 64).map R.TILE_ID_ENABLED) s (s.fuseTables f) :=
  ((regsBut_foldl_wr s 8 R.ID_KEY_HASH_KEY_HASH _).mono fun _ h => List.mem_append_left _ h).trans
    ((regsBut_foldl_wr _ 64 R.TILE_ID_ENABLED _).mono fun _ h => List.mem_append_right _ h)

theorem onlyRegs_fuseFields (s : State) (f : Fuses) : OnlyRegs s (s.fuseFields f) := State.wrAll_upd s _

theorem onlyRegs_shadows (s : State) (f : Fuses) : OnlyRegs s (s.shadows f) :=
  ((onlyRegs_fuseFields s f).trans (onlyRegs_foldl_wr _ _ R.ID_KEY_HASH_KEY_HASH _)).trans (onlyRegs_foldl_wr _ _ R.TILE_ID_ENABLED _)

theorem fuseTables_keyHash (s : State) (f : Fuses) {j : Nat} (hj : j < 8) :
    (s.fuseTables f).rd (R.ID_KEY_HASH_KEY_HASH j) = f.keyHash / 2 ^ (32 * j) % 2 ^ 32 := by
  refine ((regsBut_foldl_wr _ 64 R.TILE_ID_ENABLED _).rd ?_).trans (rd_foldl_wr s _ (fun i j h => ?_) j hj)
  · simp only [List.map_map, List.mem_map, List.mem_range, Function.comp_apply, R.TILE_ID_ENABLED, R.ID_KEY_HASH_KEY_HASH, not_exists, not_and]
    omega
  · simp only [R.ID_KEY_HASH_KEY_HASH]; omega

theorem fuseTables_tile (s : State) (f : Fuses) {k : Nat} (hk : k < 64) : (s.fuseTables f).on (R.TILE_ID_ENABLED k) = !bit f.tileMap k := by
  have h := rd_foldl_wr ((List.range 8).foldl (fun s j => s.wr (R.ID_KEY_HASH_KEY_HASH j) (f.keyHash / 2 ^ (32 * j))) s) (F := R.TILE_ID_ENABLED)
    (fun t => b2n (!bit f.tileMap t)) (fun i j h => by simp only [R.TILE_ID_ENABLED]; omega) k hk
  exact (congrArg (· != 0) h).trans ((congrArg (· != 0) (b2n_mod2 _)).trans (b2n_ne_zero _))

theorem leads_fuseReadout (h : s.stage = 2 ∧ s.fusesBad = false ∧ s.boot.fuseA.temp = false) : Leads s .fuseReadout fun t =>
    t.stage = 3 ∧ t.boot = { s.boot with fusesRead := true } ∧ t.rd R.ID_FUSE_GRADE = s.boot.fuseA.grade ∧ t.on R.ID_FUSE_SECURE = s.boot.fuseA.secure ∧ t.on R.ID_FUSE_DEBUG_LOCK = s.boot.fuseA.debugLock ∧
    t.rd R.ID_TILE_MAP_LO_TILE_MAP = s.boot.fuseA.tileMap % 2 ^ 32 ∧ t.rd R.ID_TILE_MAP_HI_TILE_MAP = s.boot.fuseA.tileMap / 2 ^ 32 % 2 ^ 32 ∧ t.rd R.ID_SERIAL_LO_SERIAL = s.boot.fuseA.serial % 2 ^ 32 ∧
    t.rd R.ID_ROLLBACK_LO_ROLLBACK = s.boot.fuseA.rollback % 2 ^ 32 ∧ (∀ j < 8, t.rd (R.ID_KEY_HASH_KEY_HASH j) = s.boot.fuseA.keyHash / 2 ^ (32 * j) % 2 ^ 32) ∧
    (∀ k < 64, t.on (R.TILE_ID_ENABLED k) = !bit s.boot.fuseA.tileMap k) ∧
    RegsBut ([R.BOOT_STAT_STAGE, R.GLOBAL_ID_STEPPING, R.ID_FUSE_GRADE, R.ID_FUSE_TEMP, R.ID_FUSE_ENABLED, R.ID_FUSE_SECURE, R.ID_FUSE_DEBUG_LOCK, R.ID_FUSE_STARTUP_BIST, R.ID_FUSE_HOST_RECOVERY, R.ID_TILE_MAP_LO_TILE_MAP, R.ID_TILE_MAP_HI_TILE_MAP,
      R.ID_SERIAL_LO_SERIAL, R.ID_SERIAL_HI_SERIAL, R.ID_ROLLBACK_LO_ROLLBACK, R.ID_ROLLBACK_HI_ROLLBACK, R.BOOT_IMG_COUNT] ++ (List.range 8).map R.ID_KEY_HASH_KEY_HASH ++ (List.range 64).map R.TILE_ID_ENABLED) s t ∧ t = { s with regs := t.regs, boot := t.boot } := by
  obtain ⟨hst, hb, ht⟩ := h
  have hg : s.boot.fuseA.grade < 4 := by
    have : (decide (3 ≤ s.boot.fuseA.grade)) = false := by
      unfold State.fusesBad at hb
      simp only [Bool.or_eq_false_iff] at hb
      exact hb.1.2
    simp only [decide_eq_false_iff_not] at this
    omega
  have e : s.readFuses = { (s.shadows s.boot.fuseA).toStage 3 with boot := { (s.shadows s.boot.fuseA).boot with fusesRead := true } } := by
    refine (if_pos hst).trans ((if_neg (by rw [hb]; decide)).trans (if_neg (by rw [ht]; decide)))
  obtain ⟨v1, v2, v3, v4, v5, v6, v7⟩ := fuseFields_values s s.boot.fuseA
  have hbt := regsBut_fuseTables (s.fuseFields s.boot.fuseA) s.boot.fuseA
  have hk := fun j (hj : j < 8) => fuseTables_keyHash (s.fuseFields s.boot.fuseA) s.boot.fuseA hj
  have htile := fun k (hk : k < 64) => fuseTables_tile (s.fuseFields s.boot.fuseA) s.boot.fuseA hk
  have hor := onlyRegs_shadows s s.boot.fuseA
  have hbf := regsBut_fuseFields s s.boot.fuseA
  rw [shadows_eq] at e hor
  generalize (s.fuseFields s.boot.fuseA).fuseTables s.boot.fuseA = q at *
  have hrd (f : Fld) (hf : f.key ≠ R.BOOT_STAT_STAGE.key) : State.rd { q.toStage 3 with boot := { q.boot with fusesRead := true } } f = q.rd f := State.rd_wr_ne q 3 hf
  have hon (f : Fld) (hf : f.key ≠ R.BOOT_STAT_STAGE.key) : State.on { q.toStage 3 with boot := { q.boot with fusesRead := true } } f = q.on f := State.on_wr_ne q 3 hf
  refine .intro rfl e ⟨State.rd_wr_same q R.BOOT_STAT_STAGE 3, by rw [hor], (hrd _ (by decide)).trans ((hbt.rd (by decide)).trans (v1.trans (Nat.mod_eq_of_lt hg))),
    (hon _ (by decide)).trans ((hbt.on (by decide)).trans v2), (hon _ (by decide)).trans ((hbt.on (by decide)).trans v3), (hrd _ (by decide)).trans ((hbt.rd (by decide)).trans v4),
    (hrd _ (by decide)).trans ((hbt.rd (by decide)).trans v5), (hrd _ (by decide)).trans ((hbt.rd (by decide)).trans v6), (hrd _ (by decide)).trans ((hbt.rd (by decide)).trans v7),
    fun j hj => (hrd _ (by simp only [R.ID_KEY_HASH_KEY_HASH, R.BOOT_STAT_STAGE]; omega)).trans (hk j hj),
    fun k hk => (hon _ (by simp only [R.TILE_ID_ENABLED, R.BOOT_STAT_STAGE]; omega)).trans (htile k hk), ?_, by rw [hor]; rfl⟩
  refine RegsBut.trans ((hbf.mono ?_).trans (hbt.mono ?_)) fun f hf => hrd f ?_
  · intro f hf; exact List.mem_append_left _ (List.mem_append_left _ (List.mem_cons_of_mem _ hf))
  · intro f hf
    rw [List.append_assoc]
    exact List.mem_append_right _ hf
  · intro hk
    exact hf (hk ▸ List.mem_map_of_mem (List.mem_append_left _ (List.mem_append_left _ List.mem_cons_self)))

theorem leads_fuseReadout_bad (h : s.stage = 2 ∧ s.fusesBad = true) : Leads s .fuseReadout fun t => t.stage = 0xF ∧ t.rd R.BOOT_STAT_CAUSE = 3 ∧
    RegsBut [R.BOOT_STAT_STAGE, R.BOOT_STAT_CAUSE] s t ∧ t = { s with regs := t.regs } :=
  .intro rfl ((if_pos h.1).trans (if_pos h.2)) (bootFail_values s 3)

end Sys2Proof.Machine
end

section
/-! PROOFS. INIT, LOAD and VERIFY, the start of the safety island (R750 to R758 of spec/22_startup.md). -/

namespace Sys2Proof.Machine

variable {s t : State}

/-! ### A table of which some entries stay -/

theorem tget_filter_key {α : Type} (d : α) (l : List (Nat × α)) {q : Nat → Bool} {k : Nat} (h : q k = true) :
    tget d (l.filter fun p => q p.1) k = tget d l k := by
  induction l with
  | nil => rfl
  | cons p l ih =>
    obtain ⟨j, v⟩ := p
    by_cases hj : j = k
    · subst hj; simp [h, tget]
    · by_cases hq : q j = true
      · simp [hq, tget, hj, ih]
      · simp [hq, tget, hj, ih]

theorem tget_filter_out {α : Type} (d : α) (l : List (Nat × α)) {q : Nat → Bool} {k : Nat} (h : q k = false) :
    tget d (l.filter fun p => q p.1) k = d := by
  induction l with
  | nil => rfl
  | cons p l ih =>
    obtain ⟨j, v⟩ := p
    by_cases hq : q j = true
    · have hj : j ≠ k := fun e => by rw [e, h] at hq; exact Bool.noConfusion hq
      simp [hq, tget, hj, ih]
    · simp [hq, ih]

theorem rd_clearRegs_below (s : State) {lo : Nat} (n : Nat) {f : Fld} (h : f.key < lo * 8) : (s.clearRegs lo n).rd f = s.rd f :=
  tget_filter_key f.rst s.regs (q := fun k => decide (k < lo * 8) || decide (lo * 8 + n * 8 ≤ k)) (by simp [h])

/-! ### INIT without the self-test (R750) -/

/-- What zeroing the tables of the sequencers leaves: the memories, and the registers below the windows of the sequencers. -/
structure BelowWindows (s t : State) : Prop where
  mem : t.mem = s.mem
  unknown : t.unknown = s.unknown
  lostPages : t.lostPages = s.lostPages
  low : ∀ f : Fld, f.key < 0x130000 * 8 → t.rd f = s.rd f

theorem zeroTables_below (s : State) {q : Nat} (h : 0x130000 ≤ win q) : BelowWindows s ((s.zeroRows q).zeroDescs q) := by
  refine ⟨rfl, rfl, rfl, fun f hf => ?_⟩
  have hk : f.key < (win q + 0xC00) * 8 := Nat.lt_of_lt_of_le hf (Nat.mul_le_mul_right 8 (Nat.le_add_right_of_le h))
  have hk' : f.key < (win q + 0x2000) * 8 := Nat.lt_of_lt_of_le hf (Nat.mul_le_mul_right 8 (Nat.le_add_right_of_le h))
  have h1 : (s.zeroRows q).rd f = (s.clearRegs (win q + 0x2000) (rowsOf q * 32)).rd f := rfl
  have h2 : ((s.zeroRows q).zeroDescs q).rd f = ((s.zeroRows q).clearRegs (win q + 0xC00) 0x200).rd f := rfl
  rw [h2, rd_clearRegs_below _ _ hk, h1, rd_clearRegs_below _ _ hk']

theorem win_initSeqs (h : q ∈ s.initSeqs) : 0x130000 ≤ win q := by
  simp only [State.initSeqs, List.mem_append, List.mem_filter, List.mem_range, List.mem_cons, List.not_mem_nil, List.mem_map, or_false] at h
  unfold win windowOf
  rcases h with (⟨h, -⟩ | h) | ⟨k, hk, rfl⟩
  · rw [if_pos h]; simp only [Option.getD_some]; omega
  · rcases h with rfl | rfl | rfl | rfl | rfl | rfl | rfl <;> decide
  · rw [if_neg (by omega), if_neg (by omega), if_neg (by omega), if_neg (by omega), if_pos (by omega)]
    simp only [Option.getD_some]
    omega

/-- The memories zeroed one after the other. -/
def State.zeroMems (s : State) (l : List Nat) : State := l.foldl (fun s c => s.zeroMem c) s

theorem zeroMems_rd (s : State) (l : List Nat) (f : Fld) : (s.zeroMems l).rd f = s.rd f :=
  foldl_keep (fun t : State => t.rd f = s.rd f) _ l (fun u c _ hu => by obtain ⟨m, e, x, y, h⟩ := zeroMem_frame u c; rw [h]; exact hu) rfl

/-- Zeroing a memory keeps zero what is zero. -/
theorem zeroMem_zero {c : Nat} (hc : c ≤ 0x65) (k : Nat) (h : ∀ b, memCode b = c → s.getByte b = 0) : ∀ b, memCode b = c → (s.zeroMem k).getByte b = 0 := by
  intro b hb
  by_cases hk : k ≤ 0x65
  · by_cases hkc : k = c
    · exact (getByte_zeroMem s k hk).1 b (hb.trans hkc.symm)
    · exact ((getByte_zeroMem s k hk).2 b (by omega) (by omega)).trans (h b hb)
  · rw [State.zeroMem, if_pos (by omega)]; exact h b hb

theorem zeroMems_zero {c : Nat} (hc : c ≤ 0x65) : ∀ (l : List Nat) (s : State), c ∈ l → ∀ b, memCode b = c → (s.zeroMems l).getByte b = 0 := by
  intro l
  induction l with
  | nil => intro s h; exact absurd h List.not_mem_nil
  | cons k l ih =>
    intro s h
    rcases List.mem_cons.mp h with rfl | h
    · exact foldl_keep (fun t : State => ∀ b, memCode b = c → t.getByte b = 0) (fun s c => s.zeroMem c) l (fun u i _ hu => zeroMem_zero hc i hu) (getByte_zeroMem s c hc).1
    · exact ih (s.zeroMem k) h

theorem initZero_below (s : State) : BelowWindows (s.zeroMems s.initMems) s.initZero := by
  refine foldl_keep (BelowWindows (s.zeroMems s.initMems)) (fun s q => (s.zeroRows q).zeroDescs q) _ (fun u q hq hu => ?_) ⟨rfl, rfl, rfl, fun _ _ => rfl⟩
  obtain ⟨h1, h2, h3, h4⟩ := zeroTables_below u (win_initSeqs hq)
  exact ⟨h1.trans hu.mem, h2.trans hu.unknown, h3.trans hu.lostPages, fun f hf => (h4 f hf).trans (hu.low f hf)⟩

theorem initMems_le {c : Nat} (h : s.initMems.contains c = true) : c ≤ 0x65 := by
  simp only [State.initMems, List.contains_iff_mem, List.mem_append, List.mem_filter, List.mem_range, List.mem_map] at h
  omega

theorem initZero_zero (h : s.initMems.contains (memCode b) = true) : s.initZero.getByte b = 0 := by
  obtain ⟨h1, h2, h3, -⟩ := initZero_below s
  rw [getByte_congr h1 h2 h3]
  exact zeroMems_zero (initMems_le h) s.initMems s (List.contains_iff_mem.mp h) b rfl

theorem initZero_mode (s : State) : s.initZero.rd R.BOOT_STAT_MODE = s.rd R.BOOT_STAT_MODE :=
  ((initZero_below s).low _ (by decide)).trans (zeroMems_rd s s.initMems _)

theorem initDone_plain (fails : List Nat) (h : s.stage = 3 ∧ s.sysrst = false ∧ s.on R.ID_FUSE_STARTUP_BIST = false) : s.initDone fails =
    match s.rd R.BOOT_STAT_MODE with
    | 0 => { (s.initZero.toStage 4) with boot := { s.initZero.boot with copy := 0, hostBoot := false } }
    | 1 => { (s.initZero.toStage 4) with boot := { s.initZero.boot with copy := 2, hostBoot := true } }
    | _ => s.initZero.bootFail 4 := by
  obtain ⟨h1, h2, h3⟩ := h
  unfold State.initDone
  rw [if_pos (by simp [h1, h2])]
  simp only [h3, Bool.false_eq_true, if_false] <;> rfl

theorem leads_initComplete {fails : List (Fin 128)} (h : s.stage = 3 ∧ s.sysrst = false ∧ s.on R.ID_FUSE_STARTUP_BIST = false) (hm : s.initZero.rd R.BOOT_STAT_MODE = 0) :
    Leads s (.initComplete fails) fun t => t.stage = 4 ∧ t.boot = { s.initZero.boot with copy := 0, hostBoot := false } ∧ (∀ b, s.initMems.contains (memCode b) = true → t.getByte b = 0) ∧
      RegsBut [R.BOOT_STAT_STAGE] s.initZero t ∧ t = { s.initZero with regs := t.regs, boot := t.boot } := by
  have e := initDone_plain (fails.map Fin.val) h
  rw [← initZero_mode, hm] at e
  refine .intro rfl e ⟨State.rd_wr_same s.initZero R.BOOT_STAT_STAGE 4, rfl, fun b hb => ?_, ?_, rfl⟩
  · exact initZero_zero hb
  · exact RegsBut.of_regs (regsBut_wr_self s.initZero R.BOOT_STAT_STAGE 4) rfl

theorem leads_initComplete_mode {fails : List (Fin 128)} (h : s.stage = 3 ∧ s.sysrst = false ∧ s.on R.ID_FUSE_STARTUP_BIST = false) (hm : 2 ≤ s.initZero.rd R.BOOT_STAT_MODE) :
    Leads s (.initComplete fails) fun t => t.stage = 0xF ∧ t.rd R.BOOT_STAT_CAUSE = 4 ∧ RegsBut [R.BOOT_STAT_STAGE, R.BOOT_STAT_CAUSE] s.initZero t ∧ t = { s.initZero with regs := t.regs } := by
  have e := initDone_plain (fails.map Fin.val) h
  rw [← initZero_mode] at e
  obtain ⟨k, hk⟩ := Nat.exists_eq_add_of_le' hm
  rw [hk] at e
  exact .intro rfl e (bootFail_values s.initZero 4)

/-! ### LOAD (R754, R755) -/

/-- CAUSE and STAGE as a failed copy leaves them. -/
def State.copyStage (s : State) (cause stage : Nat) : State := (s.wr R.BOOT_STAT_CAUSE cause).toStage stage

theorem copyStage_values (s : State) (cause : Nat) {stage : Nat} (h : stage < 16) : (s.copyStage cause stage).rd R.BOOT_STAT_CAUSE = cause % 16 ∧
    (s.copyStage cause stage).stage = stage ∧ RegsBut [R.BOOT_STAT_CAUSE, R.BOOT_STAT_STAGE] s (s.copyStage cause stage) ∧ OnlyRegs s (s.copyStage cause stage) :=
  ⟨(State.rd_wr_ne _ _ (by decide)).trans (State.rd_wr_same _ _ _), (State.rd_wr_same _ _ _).trans (Nat.mod_eq_of_lt h), by simp [State.copyStage, State.toStage], rfl⟩

/-- A copy that failed has one of four ends (R754, R758). -/
theorem copyFailed_copyFail (s : State) (cause : Nat) : CopyFailed s (s.copyFail cause) cause := by
  have hback (stage : Nat) (b : BootSt) (h : stage < 16) (hs : stage = (if s.boot.copy = 0 then 4 else if s.boot.copy = 1 ∧ s.on R.ID_FUSE_HOST_RECOVERY = false then 0xF else 8))
      (hb : b = (if s.boot.copy = 0 then { s.boot with copy := 1, header := [] }
        else if s.boot.copy = 1 then (if s.on R.ID_FUSE_HOST_RECOVERY then { s.boot with copy := 2, header := [], hostBoot := true, hostGo := false } else s.boot)
        else { s.boot with header := [], hostGo := false })) : CopyFailed s { s.copyStage cause stage with boot := b } cause := by
    obtain ⟨h1, h2, h3, -⟩ := copyStage_values s cause h
    exact ⟨h1, h2.trans hs, hb, h3.of_regs rfl, rfl⟩
  unfold State.copyFail
  rcases hc : s.boot.copy with - | - | n
  · exact hback 4 _ (by decide) (by simp [hc]) (by simp [hc])
  · cases hr : s.on R.ID_FUSE_HOST_RECOVERY
    · exact hback 0xF s.boot (by decide) (by simp [hc, hr]) (by simp [hc, hr])
    · exact hback 8 _ (by decide) (by simp [hc, hr]) (by simp [hc, hr])
  · exact hback 8 _ (by decide) (by simp [hc]) (by simp [hc])

/-- LOAD of a copy from flash, in the order of its checks. -/
theorem loadImage_flash (h : s.stage = 4 ∧ s.sysrst = false ∧ s.boot.copy ≠ 2) (l : List Byte) : s.loadImage (some l) =
    if (l.take 512).length < 512 then s.copyFail 5
    else if !headerOk (l.take 512) then s.copyFail 6
    else if (segsOf (l.take 512)).any (s.segBank false) then s.copyFail 10
    else if (segsOf (l.take 512)).any fun g => decide (l.length < g.ofs + g.len) then s.copyFail 5
    else { ((s.loadSegs l (segsOf (l.take 512))).toStage 5) with boot := { s.boot with header := l.take 512 } } := by
  obtain ⟨h1, h2, h3⟩ := h
  have hc : (s.boot.copy == 2) = false := by simpa using h3
  unfold State.loadImage
  simp only [hc, h1, h2, Bool.false_eq_true, not_false_eq_true, false_implies, and_self, if_true, if_false]

theorem headerOk_length {h : List Byte} (hk : headerOk h = true) : h.length = 512 := by
  unfold headerOk at hk
  simp only [Bool.and_eq_true, beq_iff_eq] at hk
  tauto

theorem leads_imageLoad {img : List Byte} (h : s.stage = 4 ∧ s.sysrst = false ∧ s.boot.copy ≠ 2) (hk : headerOk (img.take 512) = true)
    (hb : ((segsOf (img.take 512)).any (s.segBank false)) = false) (hl : (segsOf (img.take 512)).all (fun g => decide (g.ofs + g.len ≤ img.length)) = true) :
    Leads s (.imageLoad (some img)) fun t => t.stage = 5 ∧ t.boot = { s.boot with header := img.take 512 } ∧ RegsBut [R.BOOT_STAT_STAGE] (s.loadSegs img (segsOf (img.take 512))) t ∧
      t = { s.loadSegs img (segsOf (img.take 512)) with regs := t.regs, boot := t.boot } := by
  have e := loadImage_flash h img
  have hany : ((segsOf (img.take 512)).any fun g => decide (img.length < g.ofs + g.len)) = false := by
    rw [List.any_eq_false]
    intro g hg
    simpa using List.all_eq_true.mp hl g hg
  rw [if_neg (by rw [headerOk_length hk]; decide), if_neg (by rw [hk]; decide), if_neg (by rw [hb]; decide), if_neg (by rw [hany]; decide)] at e
  generalize s.loadSegs img (segsOf (img.take 512)) = q at *
  exact .intro rfl e ⟨State.rd_wr_same q R.BOOT_STAT_STAGE 5, rfl, (regsBut_wr_self q R.BOOT_STAT_STAGE 5).of_regs rfl, rfl⟩

theorem leads_imageLoad_failed {img : Option (List Byte)} {cause : Nat} (h : s.stage = 4 ∧ s.sysrst = false ∧ s.boot.copy ≠ 2)
    (hc : (img = none ∧ cause = 5) ∨ (∃ l ∈ img, (l.length < 512 ∧ cause = 5) ∨ (512 ≤ l.length ∧ headerOk (l.take 512) = false ∧ cause = 6) ∨
      (512 ≤ l.length ∧ headerOk (l.take 512) = true ∧ (segsOf (l.take 512)).any (s.segBank false) = true ∧ cause = 10))) :
    Leads s (.imageLoad img) fun t => CopyFailed s t cause := by
  suffices e : s.loadImage img = s.copyFail cause from .intro rfl e (copyFailed_copyFail s cause)
  rcases hc with ⟨rfl, rfl⟩ | ⟨l, hl, hc⟩
  · obtain ⟨h1, h2, h3⟩ := h
    have hc : (s.boot.copy == 2) = false := by simpa using h3
    unfold State.loadImage
    simp only [hc, h1, h2, Bool.false_eq_true, not_false_eq_true, false_implies, and_self, if_true, if_false]
  · obtain rfl := Option.mem_def.mp hl
    have e := loadImage_flash h l
    have hlen : (l.take 512).length = min 512 l.length := List.length_take
    rcases hc with ⟨hs, rfl⟩ | ⟨hs, hk, rfl⟩ | ⟨hs, hk, hb, rfl⟩
    · rw [if_pos (by omega)] at e; exact e
    · rw [if_neg (by omega), if_pos (by rw [hk]; decide)] at e; exact e
    · rw [if_neg (by omega), if_neg (by rw [hk]; decide), if_pos hb] at e; exact e

/-! ### VERIFY (R756) -/

theorem leads_imageVerify {d : List Byte} (h : s.stage = 5 ∧ s.sysrst = false) (hd : d = sha256 s.bootBytes) (hv : s.verifyCode d = 0) : Leads s .imageVerify fun t =>
    t.stage = 6 ∧ t.on R.BOOT_STAT_VERIFIED = true ∧ t.rd R.BOOT_STAT_SRC = s.boot.copy % 4 ∧ t.rd R.BOOT_IMG_ROLLBACK = pb s.boot.header 8 4 % 128 ∧
    (∀ j < 8, t.rd (R.BOOT_DIGEST_DIGEST j) = pb d (4 * j) 4 % 2 ^ 32) ∧
    RegsBut ([R.BOOT_STAT_STAGE, R.BOOT_STAT_VERIFIED, R.BOOT_STAT_SRC, R.BOOT_IMG_ROLLBACK] ++ (List.range 8).map R.BOOT_DIGEST_DIGEST) s t ∧ t = { s with regs := t.regs } := by
  have e : s.verifyImage = (((List.range 8).foldl (fun s j => s.wr (R.BOOT_DIGEST_DIGEST j) (pb d (4 * j) 4)) s).wrAll
      [(R.BOOT_STAT_VERIFIED, 1), (R.BOOT_STAT_SRC, s.boot.copy), (R.BOOT_IMG_ROLLBACK, pb s.boot.header 8 4)]).toStage 6 := by
    unfold State.verifyImage
    simp only [h.1, h.2, Bool.false_eq_true, not_false_eq_true, and_self, if_true, ← hd, hv]
  have hq := rd_foldl_wr s (F := R.BOOT_DIGEST_DIGEST) (fun j => pb d (4 * j) 4) (n := 8) (fun i j h => by simp only [R.BOOT_DIGEST_DIGEST]; omega)
  have hb := regsBut_foldl_wr s 8 R.BOOT_DIGEST_DIGEST fun j => pb d (4 * j) 4
  have hor := onlyRegs_foldl_wr s (List.range 8) R.BOOT_DIGEST_DIGEST fun j => pb d (4 * j) 4
  generalize (List.range 8).foldl (fun s j => s.wr (R.BOOT_DIGEST_DIGEST j) (pb d (4 * j) 4)) s = q at *
  have hb2 : RegsBut [R.BOOT_STAT_STAGE, R.BOOT_STAT_VERIFIED, R.BOOT_STAT_SRC, R.BOOT_IMG_ROLLBACK] q
      ((q.wrAll [(R.BOOT_STAT_VERIFIED, 1), (R.BOOT_STAT_SRC, s.boot.copy), (R.BOOT_IMG_ROLLBACK, pb s.boot.header 8 4)]).toStage 6) := by
    simp [State.toStage, State.wrAll]
  refine .intro rfl e ⟨State.rd_wr_same _ _ _, ?_, ?_, ?_, fun j hj => (hb2.rd ?_).trans (hq j hj),
    (hb.mono fun f hf => List.mem_append_right _ hf).trans (hb2.mono fun f hf => List.mem_append_left _ hf), (hor.wrAll _).wr _ _⟩
  · simp (disch := decide) only [State.toStage, State.wrAll, State.on_wr_ne]; exact State.on_wr_same _ _ _
  · simp (disch := decide) only [State.toStage, State.wrAll, State.rd_wr_ne]; exact State.rd_wr_same _ _ _
  · simp (disch := decide) only [State.toStage, State.wrAll, State.rd_wr_ne]; exact State.rd_wr_same _ _ _
  · simp only [R.BOOT_DIGEST_DIGEST, List.map_cons, List.map_nil, R.BOOT_STAT_STAGE, R.BOOT_STAT_VERIFIED, R.BOOT_STAT_SRC, R.BOOT_IMG_ROLLBACK, List.mem_cons, List.not_mem_nil, or_false]
    omega

/-! ### The safety island (R757) -/

theorem leads_islandSramZeroed (h : s.boot.rom = 1) : Leads s (.islandSramZeroed true) fun t => (∀ b, memCode b = 0x65 → t.getByte b = 0) ∧
    t.boot = { s.boot with rom := 2 } ∧ RegsBut [] s t ∧ t = { s with mem := t.mem, unknown := t.unknown, lostPages := t.lostPages, ecc := t.ecc, boot := t.boot } := by
  have e : s.islandZeroed true = { (s.zeroMem 0x65) with boot := { s.boot with rom := 2 } } := (if_pos h).trans (if_pos rfl)
  have hz := (getByte_zeroMem s 0x65 (by decide)).1
  obtain ⟨m, c, x, l, hf⟩ := zeroMem_frame s 0x65
  rw [hf] at e hz
  exact .intro rfl e ⟨hz, rfl, RegsBut.of_regs (RegsBut.refl _ s) rfl, rfl⟩

theorem leads_islandSramZeroed_failed (h : s.boot.rom = 1) : Leads s (.islandSramZeroed false) fun t => t.stage = 0xF ∧ t.rd R.BOOT_STAT_CAUSE = 11 ∧
    RegsBut [R.BOOT_STAT_STAGE, R.BOOT_STAT_CAUSE] s t ∧ t = { s with regs := t.regs } :=
  .intro rfl ((if_pos h).trans (if_neg Bool.false_ne_true)) (bootFail_values s 11)

theorem leads_islandSegmentCopy {g : Segment} (h : s.boot.rom = 2 ∧ s.on R.BOOT_STAT_VERIFIED = true) (hg : s.islandSeg = some g) : Leads s .islandSegmentCopy fun t =>
    (∀ i < g.len, t.getByte ((memRange 0x65).1 + g.isl + i) = s.getByte (wcBase + g.dest + i)) ∧
    (∀ b, b < (memRange 0x65).1 + g.isl ∨ (memRange 0x65).1 + g.isl + g.len ≤ b → t.getByte b = s.getByte b) ∧ t.boot = { s.boot with rom := 3 } ∧
    RegsBut [] s t ∧ t = { s with mem := t.mem, boot := t.boot } := by
  have e : s.islandCopy = { s.putBytes ((memRange 0x65).1 + g.isl) (s.getBytes (wcBase + g.dest) g.len) with boot := { s.boot with rom := 3 } } := by
    unfold State.islandCopy
    simp only [hg]
    exact if_pos h
  have hp := getByte_putBytes s ((memRange 0x65).1 + g.isl) (s.getBytes (wcBase + g.dest) g.len)
  rw [getBytes_length] at hp
  rw [putBytes_eq] at e hp
  refine .intro rfl e ⟨fun i hi => ?_, fun b hb => ?_, rfl, RegsBut.of_regs (RegsBut.refl _ s) rfl, rfl⟩
  · refine (hp _).trans ((if_pos (by omega)).trans ?_)
    rw [Nat.add_sub_cancel_left, getBytes_getD _ _ _ _ hi]
  · exact (hp b).trans (if_neg (by omega))

end Sys2Proof.Machine
end

section
/-! PROOFS. SYSRST_N (R764, R778, R826): which registers stay, and the entry into the safe state. -/

namespace Sys2Proof.Machine

variable {s t u : State}

/-! ### The registers that SYSRST_N keeps (R778) -/

theorem sysReset_rd_kept {f : Fld} (h : keptField f.key = true) : s.sysReset.rd f = s.rd f := tget_filter_key f.rst s.regs h

theorem sysReset_rd_reset {f : Fld} (h : keptField f.key = false) : s.sysReset.rd f = f.rst := tget_filter_out f.rst s.regs h

/-- The registers of boot after SYSRST_N. -/
def State.bootReturned (s q : State) : State :=
  (if s.aligned ∧ s.boot.fusesRead ∧ 3 ≤ s.stage then q.toStage 3 else q).wrAll [(R.BOOT_STAT_VERIFIED, 0), (R.BOOT_STAT_HOST_READY, 0)]

theorem bootReturned_only (s q : State) : OnlyRegs q (s.bootReturned q) := by
  unfold State.bootReturned
  split
  · exact ((OnlyRegs.refl q).wr _ _).wrAll _
  · exact (OnlyRegs.refl q).wrAll _

theorem regsBut_bootReturned (s q : State) : RegsBut [R.BOOT_STAT_STAGE, R.BOOT_STAT_VERIFIED, R.BOOT_STAT_HOST_READY] q (s.bootReturned q) := by
  refine (regsBut_wrAll (by simp)).mpr (regsBut_ite ?_ (RegsBut.refl _ q))
  exact (regsBut_wr (by simp)).mpr (RegsBut.refl _ q)

theorem bootReturned_values (s q : State) : (s.bootReturned q).on R.BOOT_STAT_VERIFIED = false ∧ (s.bootReturned q).on R.BOOT_STAT_HOST_READY = false ∧
    (s.bootReturned q).stage = (if s.aligned = true ∧ s.boot.fusesRead = true ∧ 3 ≤ s.stage then 3 else q.stage) := by
  refine ⟨(State.on_wr_ne _ _ (by decide)).trans (State.on_wr_same _ _ _), State.on_wr_same _ _ _, (State.rd_wr_ne _ _ (by decide)).trans ((State.rd_wr_ne _ _ (by decide)).trans ?_)⟩
  by_cases hc : s.aligned = true ∧ s.boot.fusesRead = true ∧ 3 ≤ s.stage
  · rw [if_pos hc, if_pos hc]; exact State.rd_wr_same _ _ _
  · rw [if_neg hc, if_neg hc]; rfl

/-- The assertion of SYSRST_N, before the entry into the safe state. -/
def State.sysrstState (s : State) : State :=
  { s.bootReturned (if s.on R.ID_FUSE_TEMP then s.sysReset.thermE else s.sysReset) with sysrst := true }.islandPoison s.outst

theorem sysrstLow_eq (h : s.boot.porst = false ∧ s.sysrst = false) : s.sysrstLow = s.sysrstState.enterSafe 0x7D 0 := by
  have hc : ¬ (s.boot.porst = true ∨ s.sysrst = true) := by simp [h]
  exact if_neg hc

theorem leads_sysrst_safe (h : s.boot.porst = false ∧ s.sysrst = false) (hs : s.inSafe = true ∧ s.on R.ID_FUSE_TEMP = false)
    (ho : (s.outst.any fun o => o.ini == 0x24 || o.ini == 0x27) = false) : Leads s .sysrstNAssert fun t =>
      t.sysrst = true ∧ t.on R.BOOT_STAT_VERIFIED = false ∧ t.on R.BOOT_STAT_HOST_READY = false ∧
      t.stage = (if s.aligned = true ∧ s.boot.fusesRead = true ∧ 3 ≤ s.stage then 3 else s.stage) ∧
      (∀ f : Fld, keptField f.key = true → f.key ∉ [R.BOOT_STAT_STAGE.key, R.BOOT_STAT_VERIFIED.key, R.BOOT_STAT_HOST_READY.key] → t.rd f = s.rd f) ∧
      (∀ f : Fld, keptField f.key = false → t.rd f = f.rst) ∧ t.mem = s.mem ∧ t.ecc = s.ecc ∧ t.unknown = s.unknown ∧ t.now = s.now ∧ t.fw = s.fw ∧ t.fwLocked = s.fwLocked ∧
      t.pending = s.pending ∧ t.boot = { s.boot with header := [], hostGo := false, coresRun := false, mgmtEntry := 0 } ∧ t.axes = State.reset.axes ∧ t.units = State.reset.units ∧ t.drones = State.reset.drones := by
  have e : s.sysrstState = { s.bootReturned s.sysReset with sysrst := true } := by
    unfold State.sysrstState State.islandPoison
    rw [hs.2, ho]
    simp only [Bool.false_eq_true, if_false]
  obtain ⟨v1, v2, v3⟩ := bootReturned_values s s.sysReset
  have hb := regsBut_bootReturned s s.sysReset
  have hor := bootReturned_only s s.sysReset
  have hstage : s.sysReset.stage = s.stage := sysReset_rd_kept (by decide)
  have hsafe : s.sysrstState.inSafe = true := by
    rw [e]
    exact (hb.on (by decide)).trans ((congrArg (· != 0) (sysReset_rd_kept (by decide))).trans hs.1)
  have e2 : s.sysrstLow = { s.bootReturned s.sysReset with sysrst := true } := (sysrstLow_eq h).trans ((if_pos hsafe).trans e)
  generalize s.bootReturned s.sysReset = q at *
  refine .intro rfl e2 ⟨rfl, v1, v2, v3.trans (by rw [hstage]), fun f hf hn => (hb.rd hn).trans (sysReset_rd_kept hf), fun f hf => (hb.rd ?_).trans (sysReset_rd_reset hf), ?_⟩
  · intro hmem
    simp only [List.map_cons, List.map_nil, List.mem_cons, List.not_mem_nil, or_false] at hmem
    rcases hmem with hk | hk | hk <;> (rw [hk] at hf; exact absurd hf (by decide))
  · rw [hor]; exact ⟨rfl, rfl, rfl, rfl, rfl, rfl, rfl, rfl, rfl, rfl, rfl⟩

/-! ### What the entry into the safe state does after its cause is shown -/

/-- The cause of the safe state and what else of the SAFETY registers the outputs leave: the registers below those of the safety channels. -/
structure CauseKept (s t : State) : Prop where
  sysrst : t.sysrst = s.sysrst
  sfTime : t.sfTime = s.sfTime
  low : ∀ f : Fld, f.key < 0x40400 * 8 → t.rd f = s.rd f

theorem CauseKept.refl (s : State) : CauseKept s s := ⟨rfl, rfl, fun _ _ => rfl⟩

theorem CauseKept.trans (h : CauseKept s t) (k : CauseKept t u) : CauseKept s u :=
  ⟨k.sysrst.trans h.sysrst, k.sfTime.trans h.sfTime, fun f hf => (k.low f hf).trans (h.low f hf)⟩

/-- A state of the same registers. -/
theorem CauseKept.same (h : CauseKept s t) (e : u.regs = t.regs) (e1 : u.sysrst = t.sysrst) (e2 : u.sfTime = t.sfTime) : CauseKept s u :=
  ⟨e1.trans h.sysrst, e2.trans h.sfTime, fun f hf => (congrArg (tget f.rst · f.key) e).trans (h.low f hf)⟩

theorem CauseKept.wr (h : CauseKept s t) {f : Fld} (v : Nat) (hf : 0x40400 * 8 ≤ f.key) : CauseKept s (t.wr f v) :=
  ⟨h.sysrst, h.sfTime, fun g hg => (State.rd_wr_ne _ _ (by omega)).trans (h.low g hg)⟩

theorem CauseKept.wrAll (h : CauseKept s t) {l : List (Fld × Nat)} (hl : ∀ p ∈ l, 0x40400 * 8 ≤ p.1.key) : CauseKept s (t.wrAll l) := by
  induction l generalizing t with
  | nil => exact h
  | cons p l ih => exact ih (h.wr p.2 (hl p List.mem_cons_self)) fun q hq => hl q (List.mem_cons_of_mem _ hq)

theorem CauseKept.ite {c : Prop} [Decidable c] {t' : State} (h : CauseKept s t) (h' : CauseKept s t') : CauseKept s (if c then t else t') := by
  split
  · exact h
  · exact h'

theorem CauseKept.reportIf (h : CauseKept s t) (c : Bool) (a d : Nat) : CauseKept s (t.reportIf c a d) := by
  unfold State.reportIf
  exact CauseKept.ite (h.same rfl rfl rfl) h

theorem CauseKept.foldl {α : Type} (f : State → α → State) (l : List α) (hf : ∀ u a, CauseKept s u → CauseKept s (f u a)) (h : CauseKept s t) :
    CauseKept s (l.foldl f t) := foldl_keep (CauseKept s) f l (fun u a _ hu => hf u a hu) h

theorem CauseKept.axInvalid (h : CauseKept s t) (n : Nat) : CauseKept s (t.axInvalid n 9) := by
  unfold State.axInvalid
  rw [axTo_left (.inr rfl)]
  refine h.ite ?_
  refine h.ite ?_
  refine CauseKept.reportIf ?_ _ _ _
  have h1 : CauseKept s ((t.wr (R.AX_STAT_CAUSE n) 9).leftRegs n 5) := by
    refine (((h.wr 9 ?_).wr _ ?_).wr _ ?_).wr _ ?_ <;> (simp only [R.AX_STAT_CAUSE, R.AX_STAT_STATE, R.AX_STAT_PHASE, R.AX_STAT_TORQUE_OK]; omega)
  exact h1.same rfl rfl rfl

theorem CauseKept.bchEval (h : CauseKept s t) (n : Nat) : CauseKept s (t.bchEval n) := by
  obtain ⟨b, x, hb⟩ := bchEval_chopped t n
  rw [hb]
  exact h.same rfl rfl rfl

theorem CauseKept.pcSafe (h : CauseKept s t) : CauseKept s t.pcSafe := by
  refine .foldl _ _ (fun u n hu => .ite ?_ (hu.same rfl rfl rfl)) h
  have h1 : CauseKept s ((u.wr (R.PC_STAT_CAUSE n) 3).wr (R.PC_STAT_STATE n) 4) := by
    refine (hu.wr 3 ?_).wr 4 ?_ <;> (simp only [R.PC_STAT_CAUSE, R.PC_STAT_STATE]; omega)
  exact h1.same rfl rfl rfl

theorem CauseKept.lightSafe (h : CauseKept s t) : CauseKept s t.lightSafe :=
  .foldl _ _ (fun u l hu => .ite ((hu.wr (f := R.LL_STAT_STATE l) 3 (by simp only [R.LL_STAT_STATE]; omega)).same rfl rfl rfl) hu) h

theorem CauseKept.fifeSafe (h : CauseKept s t) : CauseKept s t.fifeSafe := by
  refine .foldl _ _ (fun u e hu => .ite ?_ hu) (.foldl _ _ (fun u p hu => ?_) h)
  · refine CauseKept.same (hu.wrAll (l := [(R.FE_STAT_STATE e, 1), (R.FE_STAT_CAUSE e, 5), (R.FE_STAT_STALL e, 0)]) ?_) rfl rfl rfl
    simp only [List.mem_cons, List.not_mem_nil, or_false, forall_eq_or_imp, forall_eq, R.FE_STAT_STATE, R.FE_STAT_CAUSE, R.FE_STAT_STALL]
    omega
  · have ho : 0x40400 * 8 ≤ (R.FIO_CFG_OUT p).key ∧ 0x40400 * 8 ≤ (R.FIO_CFG_OE p).key := by simp only [R.FIO_CFG_OUT, R.FIO_CFG_OE]; omega
    split
    · exact (hu.wr _ ho.1).wr _ ho.2
    · exact (hu.wr _ ho.1).wr _ ho.2
    · exact hu.wr _ ho.2
    · exact hu

theorem CauseKept.permitOff (h : CauseKept s t) : CauseKept s (t.writePermit false) := by
  have hend (u : State) (i : Nat) (hu : CauseKept s u) : CauseKept s (u.injEnd i true) := by
    refine hu.ite (((hu.wr 0 ?_).wr 0 ?_).wr 1 ?_) <;> (simp only [R.INJ_STAT_ACTIVE, R.INJ_OUT_OUT, R.INJ_STAT_ABORTED, if_true]; omega)
  refine CauseKept.wrAll (.foldl _ _ hend (h.wr (f := R.CHN_INJ_PERMIT_PERMIT) 0 (by decide))) fun p hp => ?_
  obtain ⟨g, -, rfl⟩ := List.mem_map.mp hp
  simp only [R.INJ_GRP_CTRL_ACTIVE]; omega

theorem CauseKept.safeOutputs (h : CauseKept s t) : CauseKept s t.safeOutputs :=
  (CauseKept.foldl _ _ (fun _ n hu => (hu.axInvalid n).bchEval n) h).pcSafe.lightSafe.fifeSafe.permitOff

theorem CauseKept.readWord (h : CauseKept s t) (wa : Nat) (w : Who) : CauseKept s (t.readWord 0x65 wa w).1 := by
  unfold State.readWord
  split
  · exact h
  · exact CauseKept.ite (h.same rfl rfl rfl) h
  · exact h.same rfl rfl rfl
  · exact h

theorem CauseKept.readMem (h : CauseKept s t) (a n : Nat) (w : Who) : CauseKept s (t.readMem 0x65 a n w).1 := by
  have hw (l : List Nat) : ∀ u, CauseKept s u → CauseKept s (u.readWords 0x65 w l).1 := by
    induction l with
    | nil => exact fun _ hu => hu
    | cons wa l ih => exact fun u hu => ih _ (hu.readWord wa w)
  have h1 := hw (wordsOf (eccWord 0x65) a n) t h
  unfold State.readMem
  dsimp only
  split
  · exact h1
  · split
    · exact h1.same rfl rfl rfl
    · exact h1

theorem CauseKept.late (h : CauseKept s t) (c : Nat) : CauseKept s (t.count (R.SC_CNT_TX_LATE c) 1) := h.wr _ (by simp only [R.SC_CNT_TX_LATE]; omega)

theorem CauseKept.scCan (h : CauseKept s t) (c : Nat) (pdu : List Byte) : CauseKept s (t.scCan c pdu) := by
  unfold State.scCan
  extract_lets k b s1 s2
  have h1 : CauseKept s s1 := (h.late c).ite h
  have h2 : CauseKept s s2 := by
    refine h1.wrAll ?_
    simp only [List.mem_cons, List.not_mem_nil, or_false, forall_eq_or_imp, forall_eq, R.CAN_TXB_ID_ID, R.CAN_TXB_ID_IDE, R.CAN_TXB_ID_RTR, R.CAN_TXB_CTL_DLC, R.CAN_TXB_CTL_FDF, R.CAN_TXB_CTL_BRS]
    omega
  refine CauseKept.wr (.foldl _ _ (fun u i hu => hu.wr _ ?_) h2) _ ?_ <;> (simp only [R.CAN_TXB_DATA_DATA, R.CAN_TXREQ_REQ]; omega)

theorem CauseKept.scEth (h : CauseKept s t) (c : Nat) (hdr pdu : List Byte) : CauseKept s (t.scEth c hdr pdu) := by
  unfold State.scEth
  extract_lets f1 f2 s1
  exact CauseKept.same (t := s1) ((h.late c).ite h) rfl rfl rfl

theorem CauseKept.scFrame (h : CauseKept s t) (c hdr : Nat) : CauseKept s (t.scFrame c hdr) := by
  unfold State.scFrame
  extract_lets +onlyGivenNames v s0 n r
  extract_lets +onlyGivenNames r1
  have h1 : CauseKept s r1.1 := (CauseKept.readMem (h.same rfl rfl rfl : CauseKept s s0) _ _ _).readMem _ _ _
  refine h1.ite ?_
  extract_lets +onlyGivenNames p
  have hp : CauseKept s p.1 := h1.wr (f := R.SC_STAT_TX_SEQ c) _ (by simp only [R.SC_STAT_TX_SEQ]; omega)
  exact (hp.scEth _ _ _).ite (hp.scCan _ _)

theorem CauseKept.scNow (h : CauseKept s t) : CauseKept s t.scNow := .foldl _ _ (fun _ c hu => (hu.scFrame c 1).ite hu) h

theorem CauseKept.notice (h : CauseKept s t) (sub : Nat) (data : List Byte) : CauseKept s (t.notice sub data) :=
  .foldl _ _ (fun u p hu => CauseKept.ite (t := u.wwPut p (t.mgmtMsg sub 0 0 true data)) (hu.same rfl rfl rfl) hu) h

theorem CauseKept.safeEvent (h : CauseKept s t) : CauseKept s t.safeEvent := by
  unfold State.safeEvent State.hqEvent State.msixSend
  exact CauseKept.ite (CauseKept.ite (CauseKept.ite (h.same rfl rfl rfl) (h.same rfl rfl rfl)) h) h

/-! ### The safe state entered -/

/-- The SAFETY registers that tell of the entry (R670). -/
def State.causeShown (s : State) (src detail : Nat) : State :=
  { (s.wrAll [(R.SF_STAT_SAFE, 1), (R.SF_CAUSE_SOURCE, src), (R.SF_CAUSE_DETAIL, detail), (R.SF_CAUSE_VALID, 1),
      (R.SF_TIME_LO_TIME, s.sysTime), (R.SF_STO_STO_EN_A, 0), (R.SF_STO_STO_EN_B, 0)]).count R.SF_STAT_ENTRIES 1 with sfTime := s.sysTime, stoPulse := none }

theorem causeShown_values (s : State) (src detail : Nat) : (s.causeShown src detail).inSafe = true ∧ (s.causeShown src detail).rd R.SF_CAUSE_SOURCE = src % 128 ∧
    (s.causeShown src detail).on R.SF_CAUSE_VALID = true := by
  have hon (f : Fld) (hf : f.key ≠ R.SF_STAT_ENTRIES.key) : (s.causeShown src detail).on f = (s.wrAll [(R.SF_STAT_SAFE, 1), (R.SF_CAUSE_SOURCE, src), (R.SF_CAUSE_DETAIL, detail),
      (R.SF_CAUSE_VALID, 1), (R.SF_TIME_LO_TIME, s.sysTime), (R.SF_STO_STO_EN_A, 0), (R.SF_STO_STO_EN_B, 0)]).on f := State.on_wr_ne _ _ hf
  have hrd : (s.causeShown src detail).rd R.SF_CAUSE_SOURCE = (s.wrAll [(R.SF_STAT_SAFE, 1), (R.SF_CAUSE_SOURCE, src), (R.SF_CAUSE_DETAIL, detail),
      (R.SF_CAUSE_VALID, 1), (R.SF_TIME_LO_TIME, s.sysTime), (R.SF_STO_STO_EN_A, 0), (R.SF_STO_STO_EN_B, 0)]).rd R.SF_CAUSE_SOURCE := State.rd_wr_ne _ _ (by decide)
  refine ⟨(hon _ (by decide)).trans ?_, hrd.trans ?_, (hon _ (by decide)).trans ?_⟩
  · simp (disch := decide) only [State.wrAll, State.on_wr_ne]; exact State.on_wr_same _ _ _
  · simp (disch := decide) only [State.wrAll, State.rd_wr_ne]; exact State.rd_wr_same _ _ _
  · simp (disch := decide) only [State.wrAll, State.on_wr_ne]; exact State.on_wr_same _ _ _

theorem enterSafe_cause (h : s.inSafe = false) (src detail : Nat) : CauseKept (s.causeShown src detail) (s.enterSafe src detail) := by
  have h3 : CauseKept (s.causeShown src detail) (s.causeShown src detail).safeOutputs.scNow := (CauseKept.refl _).safeOutputs.scNow
  have e : s.enterSafe src detail = (if src = 0x08 then (s.causeShown src detail).safeOutputs.scNow else (s.causeShown src detail).safeOutputs.scNow.notice 6 []).safeEvent :=
    if_neg (by rw [h]; decide)
  rw [e]
  exact (CauseKept.ite h3 (h3.notice 6 [])).safeEvent

/-- What the assertion of SYSRST_N has left of the safe state, the pin and time, before it is entered. -/
theorem sysrstState_values (s : State) : s.sysrstState.inSafe = s.inSafe ∧ s.sysrstState.sysrst = true ∧ s.sysrstState.sysTime = s.sysTime := by
  have hx : (if s.on R.ID_FUSE_TEMP then s.sysReset.thermE else s.sysReset).inSafe = s.inSafe ∧ (if s.on R.ID_FUSE_TEMP then s.sysReset.thermE else s.sysReset).sysTime = s.sysTime := by
    have hk : s.sysReset.inSafe = s.inSafe := congrArg (· != 0) (sysReset_rd_kept (f := R.SF_STAT_SAFE) (by decide))
    split
    · have hb : RegsBut [R.BEL_THERM_KNEE, R.BEL_THERM_OPDN, R.BEL_THERM_SHUT] s.sysReset s.sysReset.thermE := (regsBut_wrAll (by simp)).mpr (RegsBut.refl _ _)
      exact ⟨(hb.on (by decide)).trans hk, rfl⟩
    · exact ⟨hk, rfl⟩
  unfold State.sysrstState State.islandPoison
  generalize (if s.on R.ID_FUSE_TEMP then s.sysReset.thermE else s.sysReset) = q at *
  have hb := (regsBut_bootReturned s q).on (f := R.SF_STAT_SAFE) (by decide)
  have ht : (s.bootReturned q).sysTime = q.sysTime := by rw [bootReturned_only s q]; rfl
  split <;> exact ⟨hb.trans hx.1, rfl, ht.trans hx.2⟩

theorem leads_sysrst_enters (h : s.boot.porst = false ∧ s.sysrst = false) (hs : s.inSafe = false) : Leads s .sysrstNAssert fun t =>
    t.sysrst = true ∧ t.inSafe = true ∧ t.rd R.SF_CAUSE_SOURCE = 0x7D ∧ t.on R.SF_CAUSE_VALID = true ∧ t.sfTime = s.sysTime ∧ t.pending = s.pending ∧ t.mem = s.mem := by
  have hk := exec_keeps (s := s) .sysrstNAssert rfl
  obtain ⟨q1, q2, q3⟩ := sysrstState_values s
  have hc := enterSafe_cause (q1.trans hs) 0x7D 0
  rw [← sysrstLow_eq h] at hc
  obtain ⟨v1, v2, v3⟩ := causeShown_values s.sysrstState 0x7D 0
  refine ⟨s.sysrstLow, rfl, hc.sysrst.trans q2, ?_, (hc.low _ (by decide)).trans v2, ?_, hc.sfTime.trans q3, hk.pending, (hk.mem rfl).1⟩
  · exact (congrArg (· != 0) (hc.low R.SF_STAT_SAFE (by decide))).trans v1
  · exact (congrArg (· != 0) (hc.low R.SF_CAUSE_VALID (by decide))).trans v3

/-! ### The obligation -/

/-- Settles O27: each command of start-up, by the lemma on it. -/
theorem startUp : Obligations.StartUp := by
  unfold Obligations.StartUp
  refine ⟨?porst, ?porstEnd, ?sysSafe, ?sysEnters, ?sysEnd, ?ref, ?refWaits, ?pllFailed, ?pll, ?align, ?fuses, ?fusesBad, ?init, ?initMode, ?load, ?loadFailed,
    ?verify, ?sram, ?sramFailed, ?segment, ?firmware⟩
  case porst => exact fun s => leads_porstNAssert
  case porstEnd => exact fun s mode h => leads_porstNRelease mode h
  case sysSafe => exact fun s h hs ho => leads_sysrst_safe h hs ho
  case sysEnters => exact fun s h hs => leads_sysrst_enters h hs
  case sysEnd => exact fun s => .intro rfl rfl rfl
  case ref => exact fun s n1 n2 n3 n4 h hn => leads_referenceAcceptance h hn
  case refWaits => exact fun s n1 n2 n3 n4 hn => leads_referenceAcceptance_waits hn
  case pllFailed => exact fun s a b c d h hl => leads_pllLockLimit_failed h hl
  case pll => exact fun s h => leads_pllLockLimit_locked h
  case align => exact fun s h => leads_dividerAlignment h
  case fuses => exact fun s h => leads_fuseReadout h
  case fusesBad => exact fun s h => leads_fuseReadout_bad h
  case init => exact fun s fails h hm => leads_initComplete h hm
  case initMode => exact fun s fails h hm => leads_initComplete_mode h hm
  case load => exact fun s img h hk hb hl => leads_imageLoad h hk hb hl
  case loadFailed => exact fun s img cause h hc => leads_imageLoad_failed h hc
  case verify => exact fun s d h hd hv => leads_imageVerify h hd hv
  case sram => exact fun s h => leads_islandSramZeroed h
  case sramFailed => exact fun s h => leads_islandSramZeroed_failed h
  case segment => exact fun s g h hg => leads_islandSegmentCopy h hg
  case firmware => exact fun s h => .intro rfl (if_pos h) rfl

end Sys2Proof.Machine
end

section
/-! PROOFS. The commands of start-up (R758 to R763, R772 of spec/22_startup.md): HOST_READY from another part. -/

namespace Sys2Proof.Machine

/-- A requester of another part that carries the number of a management core. -/
def remoteCore : Who := ⟨0x20, 0, true, false⟩

/-- To BOOT_CTRL a remote requester is none of the management cores: HOST_READY stays as it was. -/
theorem writeReg_hostReady_remote {s : State} (h : s.takes remoteCore 0x7004 2 = true) : s.writeReg remoteCore 0x7004 2 = s.answers .ok 0 [] :=
  (writeReg_BOOT_CTRL h).trans rfl

theorem takes_hostReady_remote : State.reset.takes remoteCore 0x7004 2 = true := by decide +kernel

/-- Refutes O28: the register space takes a HOST_READY that comes from another part, BOOT_CTRL then sees initiator 0x3F and ignores it,
while the clause on HOST_READY looks at the number 0x20 alone and says that the bit is set. -/
theorem not_bootCommands : ¬ Obligations.BootCommands := by
  unfold Obligations.BootCommands
  rintro ⟨-, -, -, -, -, -, hready, -⟩
  obtain ⟨t, ht, hset, -⟩ := hready State.reset remoteCore takes_hostReady_remote
  have e : t = State.reset.answers .ok 0 [] := by
    have hx : exec (.hostReady remoteCore) State.reset = .next (State.reset.writeReg remoteCore 0x7004 2) := rfl
    rw [writeReg_hostReady_remote takes_hostReady_remote] at hx
    exact (Host.Outcome.next.inj (hx.symm.trans ht)).symm
  rw [e] at hset
  exact absurd hset (by decide)

end Sys2Proof.Machine
end

section
/-! PROOFS. Rows, lanes, slot states and coefficient queues of the Chanter (R250 to R255, R272 to R282 of spec/08_chanter_law.md). -/

namespace Sys2Proof.Machine

variable {s t : State} {w : Who} {v : BitVec 32}

/-! ### A slot beside its registers -/

theorem slot_same (s : State) {x : Nat} (v : SlotSt) (h : x < s.slots.length) : (s.setSlot x v).slot x = v := by
  simp [State.slot, State.setSlot, List.getD_eq_getElem?_getD, h]

theorem slot_ne (s : State) {x y : Nat} (v : SlotSt) (h : y ≠ x) : (s.setSlot x v).slot y = s.slot y := by
  simp [State.slot, State.setSlot, List.getD_eq_getElem?_getD, List.getElem?_set_ne (Ne.symm h)]

theorem recOf_mem (hm : t.mem = s.mem) (hu : t.unknown = s.unknown) (hl : t.lostPages = s.lostPages) (x : Nat) : t.recOf x = s.recOf x := by
  unfold State.recOf
  exact getBytes_mem hm hu hl _ _

/-! ### RUN (R253, R254) -/

theorem runs_fresh {u c e op : Nat} (h : s.runs u c e op = true) : (s.ctx u c).exec = true ∧ (s.ctx u c).result.isNone = true ∧ rowEngine (s.ctx u c).row = e := by
  simp only [State.runs, Bool.and_eq_true, beq_iff_eq] at h
  exact ⟨h.1.1.1.2, h.1.1.2, h.1.2⟩

/-- A context for which a slot still waits is not told yet. -/
theorem chnDone_waits {key : Nat} (h : s.chnWaits key = true) : s.chnDone key = s := by
  unfold State.chnDone
  split
  · rfl
  · exact if_pos h

theorem chnWaits_slot {x key : Nat} (hx : x < s.slots.length) (h : (s.slot x).wait = [key]) : s.chnWaits key = true := by
  refine List.any_eq_true.mpr ⟨s.slots[x], List.getElem_mem hx, ?_⟩
  have hg : s.slot x = s.slots[x] := by simp [State.slot, hx]
  rw [← hg, h]
  simp

/-- An iteration of a row of the Chanter that is not running yet, by what its entries name. -/
theorem chnRun_start {u c key : Nat} (h : s.runs u c 6 1 = true) (hk : key = 16 * u + c) (hr : s.chnRuns.any (fun p => p.1 == key) = false) : s.chnRun u c =
    if !(chnSlots (rowPayload (s.ctx u c).row)).all (s.chnNamed (u - 0x44)) then s.setCtx u c { s.ctx u c with result := some (.nackAbsent, 0) }
    else ((chnSlots (rowPayload (s.ctx u c).row)).foldl (fun (s : State) y => s.markSlot key y) { s with chnRuns := s.chnRuns ++ [(key, false, false)] }).chnDone key := by
  obtain ⟨h1, h2, h3⟩ := runs_fresh h
  subst hk
  unfold State.chnRun
  simp only [h1, h2, h3, hr, Bool.and_self, beq_self_eq_true, Bool.not_true, Bool.or_self, Bool.false_eq_true, if_false]

theorem markSlot_fresh {x key : Nat} (h : (s.slot x).pend0 = false ∧ (s.slot x).pend1 = false) : s.markSlot key x =
    s.setSlot x { s.slot x with pend0 := rcDual (s.recOf x) || rcLane (s.recOf x) == 0, pend1 := rcDual (s.recOf x) || rcLane (s.recOf x) == 1, wait := [key] } := by
  unfold State.markSlot
  simp only [h.1, h.2, Bool.or_self, Bool.false_eq_true, if_false]

theorem leads_run {ln : Fin 2} {c : Fin 16} {u x key : Nat} {l : List Byte} (hu : u = 0x44 + ln.val ∧ key = 16 * u + c.val ∧ x < s.slots.length) (h : s.runs u c 6 1 = true)
    (hr : s.chnRuns.any (fun p => p.1 == key) = false) (hl : chnSlots (rowPayload (s.ctx u c).row) = [x]) (hn : s.chnNamed ln x = true) (hrec : l = s.recOf x)
    (hp : (s.slot x).pend0 = false ∧ (s.slot x).pend1 = false) : Leads s (.run ln c) fun t =>
      t.slot x = { s.slot x with pend0 := rcDual l || rcLane l == 0, pend1 := rcDual l || rcLane l == 1, wait := [key] } ∧ (∀ y, y ≠ x → t.slot y = s.slot y) ∧
      t.chnRuns = s.chnRuns ++ [(key, false, false)] ∧ t = { s with slots := t.slots, chnRuns := t.chnRuns } := by
  obtain ⟨hu, hk, hx⟩ := hu
  have hln : u - 0x44 = ln.val := by omega
  have hm : State.markSlot { s with chnRuns := s.chnRuns ++ [(key, false, false)] } key x =
      State.setSlot { s with chnRuns := s.chnRuns ++ [(key, false, false)] } x { s.slot x with pend0 := rcDual l || rcLane l == 0, pend1 := rcDual l || rcLane l == 1, wait := [key] } := by
    subst hrec
    have hrec : State.recOf { s with chnRuns := s.chnRuns ++ [(key, false, false)] } x = s.recOf x := recOf_mem (s := s) (t := { s with chnRuns := s.chnRuns ++ [(key, false, false)] }) rfl rfl rfl x
    have hm := markSlot_fresh (s := { s with chnRuns := s.chnRuns ++ [(key, false, false)] }) (x := x) (key := key) hp
    rw [hrec] at hm
    exact hm
  have hs := slot_same { s with chnRuns := s.chnRuns ++ [(key, false, false)] } { s.slot x with pend0 := rcDual l || rcLane l == 0, pend1 := rcDual l || rcLane l == 1, wait := [key] } hx
  have hw := chnWaits_slot (s := State.setSlot { s with chnRuns := s.chnRuns ++ [(key, false, false)] } x _) (by simpa [State.setSlot] using hx) (congrArg SlotSt.wait hs)
  have e := chnRun_start h hk hr
  rw [hl, hln, List.all_cons, List.all_nil, hn, if_neg (by decide), List.foldl_cons, List.foldl_nil, hm, chnDone_waits hw] at e
  refine .intro rfl ((if_pos (hu ▸ h)).trans (hu ▸ e)) ⟨hs, fun y hy => ?_, rfl, rfl⟩
  exact slot_ne { s with chnRuns := s.chnRuns ++ [(key, false, false)] } _ hy

theorem leads_run_absent {ln : Fin 2} {c : Fin 16} {u : Nat} (hu : u = 0x44 + ln.val) (h : s.runs u c 6 1 = true) (hr : s.chnRuns.any (fun p => p.1 == 16 * u + c.val) = false)
    (hn : (chnSlots (rowPayload (s.ctx u c).row)).all (s.chnNamed ln) = false) : Leads s (.run ln c) fun t =>
      t.ctx u c = { s.ctx u c with result := some (.nackAbsent, 0) } ∧ t = { s with ctxs := t.ctxs } := by
  have hln : u - 0x44 = ln.val := by omega
  have e := chnRun_start h rfl hr
  rw [hln, hn, if_pos (by decide)] at e
  exact .intro rfl ((if_pos (hu ▸ h)).trans (hu ▸ e)) ⟨State.setCtx_ctx s u c _, rfl⟩

/-! ### Coefficient writes (R273, R275) -/

theorem showQ_level (s : State) {x : Nat} (h : (s.slot x).queue.length < 8) : (s.showQ x).rd (R.CHN_SLOT_STAT_QLEVEL x) = (s.slot x).queue.length :=
  (State.rd_wr_same _ _ _).trans (Nat.mod_eq_of_lt h)

theorem leads_cwqEnqueue {sel x : Nat} (h : s.takes w 0x120014 v.toNat = true) (hsel : sel = tget 0 s.cwqSel w.ini) (hx : x = bits sel 0 7)
    (hq : s.slotState x ≠ 0 ∧ (s.slot x).queue.length < 4 ∧ x < s.slots.length) : Leads s (.cwqEnqueue w v) fun t =>
      t.slot x = { s.slot x with queue := (s.slot x).queue ++ [(bits sel 7 5, bits sel 12 6, v.toNat)] } ∧ t.rd (R.CHN_SLOT_STAT_QLEVEL x) = (s.slot x).queue.length + 1 ∧
      (∀ y, y ≠ x → t.slot y = s.slot y) ∧ RegsBut [R.CHN_SLOT_STAT_QLEVEL x] s t ∧ t.answer.st = .ok ∧ t = { s with regs := t.regs, slots := t.slots, answer := t.answer } := by
  have hc : s.cwqWrite w.ini v.toNat = ((s.setSlot x { s.slot x with queue := (s.slot x).queue ++ [(bits sel 7 5, bits sel 12 6, v.toNat)] }).showQ x, .ok) := by
    subst hx hsel
    exact (if_neg hq.1).trans (if_neg (by omega))
  have e := writeReg_CHN_CWQ_PUT h (.inl (by rw [bv32_mod, hc]))
  rw [bv32_mod, hc] at e
  have hs := slot_same s { s.slot x with queue := (s.slot x).queue ++ [(bits sel 7 5, bits sel 12 6, v.toNat)] } hq.2.2
  refine .intro rfl e ⟨hs, ?_, fun y hy => slot_ne s _ hy, ?_, rfl, rfl⟩
  · have hlen : ((s.setSlot x { s.slot x with queue := (s.slot x).queue ++ [(bits sel 7 5, bits sel 12 6, v.toNat)] }).slot x).queue.length = (s.slot x).queue.length + 1 := by
      rw [hs, List.length_append]; rfl
    exact (showQ_level _ (by omega)).trans hlen
  · exact (regsBut_wr List.mem_cons_self).mpr (RegsBut.of_regs (RegsBut.refl _ s) rfl)

theorem cwqFlush_eq (s : State) {x : Nat} (h : x < s.slots.length) :
    s.cwqFlush x = ((s.count R.CHN_CNT1_FLUSHED (s.slot x).queue.length).setSlot x { s.slot x with queue := [] }).wr (R.CHN_SLOT_STAT_QLEVEL x) 0 := by
  have hs := slot_same (s.count R.CHN_CNT1_FLUSHED (s.slot x).queue.length) { s.slot x with queue := [] } h
  exact congrArg (State.wr _ _) (congrArg (fun t : SlotSt => t.queue.length) hs)

theorem cwqFlush_rd (s : State) {x : Nat} (h : x < s.slots.length) (f : Fld) :
    (s.cwqFlush x).rd f = ((s.count R.CHN_CNT1_FLUSHED (s.slot x).queue.length).wr (R.CHN_SLOT_STAT_QLEVEL x) 0).rd f := by
  rw [cwqFlush_eq s h]; rfl

theorem leads_cwqFlush {x : Nat} (h : s.takes w 0x120018 (v ||| 0x80).toNat = true) (hx : x = bits v.toNat 0 7 ∧ x < s.slots.length) : Leads s (.cwqFlush w v) fun t =>
    t.slot x = { s.slot x with queue := [] } ∧ t.rd (R.CHN_CNT1_FLUSHED) = satAdd 16 (s.rd R.CHN_CNT1_FLUSHED) (s.slot x).queue.length ∧ t.rd (R.CHN_SLOT_STAT_QLEVEL x) = 0 ∧
    t.rd R.CHN_CWQ_CTRL_SLOT = x ∧ (∀ y, y ≠ x → t.slot y = s.slot y) ∧ RegsBut [R.CHN_CNT1_FLUSHED, R.CHN_SLOT_STAT_QLEVEL x, R.CHN_CWQ_CTRL_SLOT] s t ∧
    t = { s with regs := t.regs, slots := t.slots, answer := t.answer } := by
  have e := writeReg_CHN_CWQ_CTRL h
  have hb : bits (v ||| 0x80).toNat 0 7 = x := (bits_or v 0x80 0 7 (by decide)).trans hx.1.symm
  have hslot : (s.wr R.CHN_CWQ_CTRL_SLOT (v ||| 0x80).toNat).rd R.CHN_CWQ_CTRL_SLOT = x := (State.rd_wr_same _ _ _).trans (by simpa [bits, R.CHN_CWQ_CTRL_SLOT] using hb)
  have hp : RegsBut [R.CHN_CWQ_CTRL_SLOT] s (s.wr R.CHN_CWQ_CTRL_SLOT (v ||| 0x80).toNat) := regsBut_wr_self _ _ _
  have hf := (State.rd_wr_ne (g := R.CHN_CNT1_FLUSHED) s (v ||| 0x80).toNat (f := R.CHN_CWQ_CTRL_SLOT) (by decide))
  rw [bv32_mod, State.when, if_pos (bit_or_true (by decide)), hb] at e
  have hrd := cwqFlush_rd (s.wr R.CHN_CWQ_CTRL_SLOT (v ||| 0x80).toNat) hx.2
  rw [cwqFlush_eq _ (by exact hx.2)] at e hrd
  have hlen : (State.wr s R.CHN_CWQ_CTRL_SLOT (v ||| 0x80).toNat).slots = s.slots := rfl
  have hsl (y : Nat) : (State.wr s R.CHN_CWQ_CTRL_SLOT (v ||| 0x80).toNat).slot y = s.slot y := rfl
  have hor : OnlyRegs s (s.wr R.CHN_CWQ_CTRL_SLOT (v ||| 0x80).toNat) := rfl
  generalize s.wr R.CHN_CWQ_CTRL_SLOT (v ||| 0x80).toNat = p at *
  refine .intro rfl e ⟨?_, (hrd _).trans ?_, (hrd _).trans (State.rd_wr_same _ _ _), (hrd _).trans ?_, fun y hy => ?_, fun f hf => ?_, ?_⟩
  · exact (slot_same (p.count R.CHN_CNT1_FLUSHED (p.slot x).queue.length) _ (by rw [← hlen] at hx; exact hx.2)).trans (by rw [hsl])
  · rw [State.rd_wr_ne _ _ (by simp only [R.CHN_CNT1_FLUSHED, R.CHN_SLOT_STAT_QLEVEL]; omega), hsl, ← hf]
    exact rd_count_same ..
  · rw [State.rd_wr_ne _ _ (by simp only [R.CHN_CWQ_CTRL_SLOT, R.CHN_SLOT_STAT_QLEVEL]; omega), rd_count_ne _ _ (by decide), hslot]
  · exact (slot_ne (p.count R.CHN_CNT1_FLUSHED (p.slot x).queue.length) _ hy).trans (hsl y)
  · refine (hrd f).trans (((?_ : RegsBut [R.CHN_CNT1_FLUSHED, R.CHN_SLOT_STAT_QLEVEL x, R.CHN_CWQ_CTRL_SLOT] p _) f hf).trans (hp.mono (by simp) f hf))
    simp
  · rw [hor]; rfl

end Sys2Proof.Machine
end

section
/-! PROOFS. The start of a slot, ENABLE of slots and lanes, the lane lists (R250, R251, R255, R272, R279 of spec/08_chanter_law.md). -/

namespace Sys2Proof.Machine

variable {s t : State} {w : Who} {v : BitVec 32} {ln : Fin 2}

/-! ### SLOT_START (R250, R255) -/

/-- A slot is no longer pending on a lane. -/
def State.pendTaken (s : State) (ln x : Nat) : State := s.slotMod x fun t => if ln = 0 then { t with pend0 := false } else { t with pend1 := false }

theorem pendTaken_slot (s : State) (ln x : Nat) : ((s.pendTaken ln x).slot x).half = (s.slot x).half ∧ ((s.pendTaken ln x).slot x).div = (s.slot x).div := by
  by_cases hx : x < s.slots.length
  · rw [State.pendTaken, State.slotMod, slot_same _ _ hx]
    split <;> exact ⟨rfl, rfl⟩
  · have e : s.pendTaken ln x = s := by
      rw [State.pendTaken, State.slotMod, State.setSlot, List.set_eq_of_length_le (by omega)]
    rw [e]; exact ⟨rfl, rfl⟩

/-- An idle lane takes up its next slot, of which no lane is under way and which is in RUN: passed over or latched, by its DIV. -/
theorem slotStart_run {x : Nat} (h : s.laneOn ln = true ∧ s.lanes.getD ln none = none ∧ s.sysrst = false) (hn : s.nextSlot ln = some x)
    (hs : (s.slot x).half = 0 ∧ s.slotState x = 1) : s.slotStart ln =
      if (s.slot x).div + 1 < rcDiv ((s.pendTaken ln x).recOf x) then
        ((s.pendTaken ln x).setSlot x { (s.pendTaken ln x).slot x with div := (s.slot x).div + 1 }).passOver x (((s.pendTaken ln x).slot x).pend0 || ((s.pendTaken ln x).slot x).pend1)
      else
        let q := ((s.pendTaken ln x).applyOldest x).latchSlot x
        let s3 := ((q.1.slotMod x fun t =>
          { t with div := 0, half := b2n (((s.pendTaken ln x).slot x).pend0 || ((s.pendTaken ln x).slot x).pend1), todo := t.todo + 1, latch := some q.2, evWait := t.wait ++ t.evWait, wait := [] }).setLane ln (some x)).wrAll
            ((q.2.injs.zip q.2.inj).map fun p => (R.INJ_OUT_OUT p.1, p.2.2))
        if q.2.bad then s3.slotFault x 0x1D 0 else s3 := by
  obtain ⟨h1, h2, h3⟩ := h
  obtain ⟨hh, hd⟩ := pendTaken_slot s ln x
  have hst : (s.pendTaken ln x).slotState x = 1 := hs.2
  unfold State.slotStart
  rw [hn]
  simp only [h1, h2, h3, Bool.not_true, Option.isSome_none, Bool.or_self, Bool.false_eq_true, if_false]
  rw [State.pendTaken] at hh hd hst ⊢
  rw [if_neg (by rw [hh, hs.1]; decide), if_neg (by rw [hh, hs.1]; decide), if_neg (by rw [hst]; decide), hd]

theorem leads_slotStart {s0 s1 : State} {x : Nat} {q : State × ChnLatch} (h : s.laneOn ln = true ∧ s.lanes.getD ln none = none ∧ ln.val < s.lanes.length ∧ s.sysrst = false)
    (hn : s.nextSlot ln = some x) (hs0 : s0 = s.slotMod x fun t => if ln.val = 0 then { t with pend0 := false } else { t with pend1 := false })
    (hs : (s.slot x).half = 0 ∧ s.slotState x = 1 ∧ rcDiv (s0.recOf x) ≤ (s.slot x).div + 1) (hs1 : s1 = s0.applyOldest x) (hq : q = s1.latchSlot x) (hb : q.2.bad = false)
    (hx : x < q.1.slots.length ∧ ln.val < q.1.lanes.length) : Leads s (.slotStart ln) fun t => t.lanes = q.1.lanes.set ln (some x) ∧
      t.slot x = { q.1.slot x with div := 0, half := b2n ((s0.slot x).pend0 || (s0.slot x).pend1), todo := (q.1.slot x).todo + 1, latch := some q.2, evWait := (q.1.slot x).wait ++ (q.1.slot x).evWait, wait := [] } ∧
      (∀ y, y ≠ x → t.slot y = q.1.slot y) ∧ RegsBut (q.2.injs.map R.INJ_OUT_OUT) q.1 t ∧ t = { q.1 with regs := t.regs, slots := t.slots, lanes := t.lanes } := by
  obtain ⟨h1, h2, -, h3⟩ := h
  obtain ⟨hh, hst, hd⟩ := hs
  have e := slotStart_run ⟨h1, h2, h3⟩ hn ⟨hh, hst⟩
  rw [show s.pendTaken ln x = s0 from hs0.symm, if_neg (by omega), ← hs1, ← hq] at e
  dsimp only at e
  rw [if_neg (by rw [hb]; decide)] at e
  generalize ((s0.slot x).pend0 || (s0.slot x).pend1) = more at *
  have hslot := slot_same q.1 { q.1.slot x with div := 0, half := b2n more, todo := (q.1.slot x).todo + 1, latch := some q.2, evWait := (q.1.slot x).wait ++ (q.1.slot x).evWait, wait := [] } hx.1
  have hne := fun y (hy : y ≠ x) =>
    slot_ne q.1 { q.1.slot x with div := 0, half := b2n more, todo := (q.1.slot x).todo + 1, latch := some q.2, evWait := (q.1.slot x).wait ++ (q.1.slot x).evWait, wait := [] } hy
  obtain ⟨r, hr⟩ := State.wrAll_ex ((q.2.injs.zip q.2.inj).map fun p => (R.INJ_OUT_OUT p.1, p.2.2)) ((q.1.slotMod x fun t =>
    { t with div := 0, half := b2n more, todo := t.todo + 1, latch := some q.2, evWait := t.wait ++ t.evWait, wait := [] }).setLane ln (some x))
  have hbut : RegsBut (q.2.injs.map R.INJ_OUT_OUT) q.1 (((q.1.slotMod x fun t =>
      { t with div := 0, half := b2n more, todo := t.todo + 1, latch := some q.2, evWait := t.wait ++ t.evWait, wait := [] }).setLane ln (some x)).wrAll
        ((q.2.injs.zip q.2.inj).map fun p => (R.INJ_OUT_OUT p.1, p.2.2))) := by
    refine (regsBut_wrAll fun p hp => ?_).mpr (RegsBut.of_regs (RegsBut.refl _ q.1) rfl)
    obtain ⟨z, hz, rfl⟩ := List.mem_map.mp hp
    exact List.mem_map_of_mem (List.of_mem_zip hz).1
  rw [hr] at e hbut
  exact .intro rfl e ⟨rfl, hslot, hne, hbut, rfl⟩

/-- A slot of one lane for which nobody waits is passed over. -/
theorem passOver_alone {x : Nat} (hw : (s.slot x).wait = [] ∧ (s.slot x).evWait = []) :
    s.passOver x false = s.setSlot x { s.slot x with half := 0, wait := [], evWait := [], todo := 0, latch := none } := by
  unfold State.passOver
  simp only [Bool.false_eq_true, if_false, hw.1, hw.2, List.append_nil, State.chnTell, List.contains_nil, List.map_id', List.foldl_nil]

theorem leads_slotStart_passed {x : Nat} (h : s.laneOn ln = true ∧ s.lanes.getD ln none = none ∧ s.sysrst = false) (hn : s.nextSlot ln = some x ∧ x < s.slots.length)
    (hp : (if ln.val = 0 then (s.slot x).pend1 else (s.slot x).pend0) = false) (hs : (s.slot x).half = 0 ∧ s.slotState x = 1 ∧ (s.slot x).div + 1 < rcDiv (s.recOf x))
    (hw : (s.slot x).wait = [] ∧ (s.slot x).evWait = []) : Leads s (.slotStart ln) fun t =>
      t.slot x = { s.slot x with pend0 := false, pend1 := false, div := (s.slot x).div + 1, half := 0, wait := [], evWait := [], todo := 0, latch := none } ∧
      (∀ y, y ≠ x → t.slot y = s.slot y) ∧ t = { s with slots := t.slots } := by
  obtain ⟨hh, hst, hd⟩ := hs
  have e := slotStart_run h hn.1 ⟨hh, hst⟩
  have hrec : (s.pendTaken ln x).recOf x = s.recOf x := recOf_mem (s := s) (t := s.pendTaken ln x) rfl rfl rfl x
  have hslot : (s.pendTaken ln x).slot x = { s.slot x with pend0 := false, pend1 := false } := by
    rw [State.pendTaken, State.slotMod, slot_same _ _ hn.2]
    split at hp
    · next hl => rw [if_pos hl, ← hp]
    · next hl => rw [if_neg hl, ← hp]
  have hlen : ((s.pendTaken ln x).setSlot x { s.slot x with pend0 := false, pend1 := false, div := (s.slot x).div + 1 }).slots.length = s.slots.length := by
    simp [State.setSlot, State.pendTaken, State.slotMod]
  have hs2 := slot_same (s.pendTaken ln x) { s.slot x with pend0 := false, pend1 := false, div := (s.slot x).div + 1 } (by simpa [State.pendTaken, State.slotMod, State.setSlot] using hn.2)
  rw [hrec, if_pos hd, hslot, Bool.or_self, passOver_alone (by rw [hs2]; exact hw), hs2] at e
  refine .intro rfl e ⟨slot_same _ _ (by rw [hlen]; exact hn.2), fun y hy => ?_, rfl⟩
  exact (slot_ne _ _ hy).trans ((slot_ne _ _ hy).trans (slot_ne s _ hy))

/-! ### ENABLE of a slot (R272) -/

theorem readRec_open {x : Nat} (h : s.recOpen x = true) : s.readMem 0x64 (recBase x) 512 chnWho = (s, .ok, s.recOf x) := by
  unfold State.recOpen at h
  simp only [Bool.and_eq_true, Bool.not_eq_true', List.all_eq_true, beq_iff_eq] at h
  obtain ⟨⟨⟨hc, hu⟩, -⟩, -⟩ := h
  exact readMem_clean hc (by rw [State.spanUnknown, hu, Bool.false_and])

theorem leNat_lt (l : List Byte) : leNat l < 256 ^ l.length := by
  induction l with
  | nil => decide
  | cons b l ih =>
    have hb : b.toNat < 256 := b.isLt
    rw [leNat, List.length_cons, Nat.pow_succ]
    omega

theorem fb_two_lt (l : List Byte) (o : Nat) : fb l o 2 < 2 ^ 16 :=
  Nat.lt_of_lt_of_le (leNat_lt _) (Nat.pow_le_pow_right (n := 256) (by decide) (List.length_take_le 2 _))

/-- The registers of a slot that has gone to RUN. -/
def State.enabledRegs (s : State) (x : Nat) : State :=
  ((s.wr (R.CHN_SLOT_CTRL_ENABLE x) 1).wr (R.CHN_SLOT_STAT_STATE x) 1).wr (R.CHN_SLOT_STAT_CSEQ x) (fb (s.recOf x) 264 2)

theorem enabledRegs_values (s : State) (x : Nat) : (s.enabledRegs x).slotState x = 1 ∧ (s.enabledRegs x).on (R.CHN_SLOT_CTRL_ENABLE x) = true ∧
    (s.enabledRegs x).rd (R.CHN_SLOT_STAT_CSEQ x) = fb (s.recOf x) 264 2 ∧
    RegsBut [R.CHN_SLOT_STAT_STATE x, R.CHN_SLOT_CTRL_ENABLE x, R.CHN_SLOT_STAT_CSEQ x] s (s.enabledRegs x) ∧ OnlyRegs s (s.enabledRegs x) := by
  refine ⟨?_, ?_, ?_, by simp [State.enabledRegs], rfl⟩
  · exact (State.rd_wr_ne _ _ (by simp only [R.CHN_SLOT_STAT_STATE, R.CHN_SLOT_STAT_CSEQ]; omega)).trans (State.rd_wr_same _ _ _)
  · refine (State.on_wr_ne _ _ ?_).trans ((State.on_wr_ne _ _ ?_).trans (State.on_wr_same _ _ _)) <;>
      (simp only [R.CHN_SLOT_CTRL_ENABLE, R.CHN_SLOT_STAT_CSEQ, R.CHN_SLOT_STAT_STATE]; omega)
  · exact (State.rd_wr_same _ _ _).trans (Nat.mod_eq_of_lt (fb_two_lt _ _))

theorem slotEnable_runs {x : Nat} (h : s.slotState x = 0 ∧ s.slotOk x (s.recOf x) = true ∧ s.recOpen x = true) :
    s.slotEnable x true = (s.enabledRegs x).setSlot x { s.slot x with div := 0, fresh := true, smp := List.replicate 8 none, iLim := false } := by
  have hrec : ((s.wr (R.CHN_SLOT_CTRL_ENABLE x) 1).wr (R.CHN_SLOT_STAT_STATE x) 1).recOf x = s.recOf x :=
    recOf_mem (s := s) (t := (s.wr (R.CHN_SLOT_CTRL_ENABLE x) 1).wr (R.CHN_SLOT_STAT_STATE x) 1) rfl rfl rfl x
  unfold State.slotEnable
  simp only [if_true, h.1, readRec_open h.2.2, h.2.1, ne_eq, not_true_eq_false, Bool.not_true, Bool.false_eq_true, or_self, if_false, State.showCseq, hrec, State.slotMod]
  rfl

theorem leads_chnSlotEnable {x : Fin 128} (h : s.takes w (0x120400 + 4 * x) v.toNat = true) (hb : bit v.toNat 0 = true ∧ x.val < s.slots.length)
    (ho : s.slotState x = 0 ∧ s.slotOk x (s.recOf x) = true ∧ s.recOpen x = true) : Leads s (.chnSlotEnable w x v) fun t =>
      t.slotState x = 1 ∧ t.on (R.CHN_SLOT_CTRL_ENABLE x) = true ∧ t.rd (R.CHN_SLOT_STAT_CSEQ x) = fb (s.recOf x) 264 2 ∧
      t.slot x = { s.slot x with div := 0, fresh := true, smp := List.replicate 8 none, iLim := false } ∧ (∀ y, y ≠ x.val → t.slot y = s.slot y) ∧
      RegsBut [R.CHN_SLOT_STAT_STATE x, R.CHN_SLOT_CTRL_ENABLE x, R.CHN_SLOT_STAT_CSEQ x] s t ∧ t = { s with regs := t.regs, slots := t.slots, answer := t.answer } := by
  have e := writeReg_CHN_SLOT x h
  have hw := slotEnable_runs ho
  obtain ⟨v1, v2, v3, v4, v5⟩ := enabledRegs_values s x
  rw [bv32_mod, hb.1, hw] at e
  have hl : x.val < (s.enabledRegs x).slots.length := hb.2
  generalize s.enabledRegs x = q at *
  have hrd (f : Fld) : State.rd (State.answers (q.setSlot x { s.slot x with div := 0, fresh := true, smp := List.replicate 8 none, iLim := false }) .ok 0 []) f = q.rd f := rfl
  refine .intro rfl e ⟨(hrd _).trans v1, (on_of_rd hrd _).trans v2, (hrd _).trans v3, slot_same q _ hl, fun y hy => (slot_ne q _ hy).trans (by rw [v5]; rfl), v4.trans (RegsBut.of_rd hrd), ?_⟩
  rw [v5]; rfl

theorem leads_chnSlotEnable_rejected {x : Fin 128} (h : s.takes w (0x120400 + 4 * x) v.toNat = true) (hb : bit v.toNat 0 = true)
    (ho : s.slotState x = 0 ∧ s.slotOk x (s.recOf x) = false ∧ s.recOpen x = true) : Leads s (.chnSlotEnable w x v) fun t =>
      t.on (R.CHN_SLOT_STAT_REJ x) = true ∧ RegsBut [R.CHN_SLOT_STAT_REJ x] s t ∧ t = { s with regs := t.regs, answer := t.answer } := by
  have e := writeReg_CHN_SLOT x h
  have hw : s.slotEnable x true = s.wr (R.CHN_SLOT_STAT_REJ x) 1 := by
    unfold State.slotEnable
    simp only [if_true, ho.1, readRec_open ho.2.2, ho.2.1, ne_eq, not_true_eq_false, Bool.not_false, or_true, if_false]
  rw [bv32_mod, hb, hw] at e
  exact .intro rfl e ⟨State.on_wr_same s (R.CHN_SLOT_STAT_REJ x) 1, regsBut_wr_self s (R.CHN_SLOT_STAT_REJ x) 1, rfl⟩

/-! ### Lanes (R251, R279, R282) -/

/-- No slot in RUN is a dual one. -/
def State.noDual (s : State) : Bool := (List.range 128).all fun x => !(s.slotState x == 1 && rcDual (s.recOf x))

/-- LANE_EN of a lane. -/
def laneFld (ln : Nat) : Fld := if ln = 0 then R.CHN_CTRL_LANE0_EN else R.CHN_CTRL_LANE1_EN

theorem laneFld_below (ln : Nat) : (laneFld ln).key ≤ R.CHN_CTRL_LANE1_EN.key := by
  unfold laneFld
  split <;> decide

theorem noDual_wrLane (ln v : Nat) (h : s.noDual = true) : (s.wr (laneFld ln) v).noDual = true := by
  refine List.all_eq_true.mpr fun x hx => ?_
  have hs : (s.wr (laneFld ln) v).slotState x = s.slotState x := State.rd_wr_ne _ _ (by
    have := laneFld_below ln
    simp only [R.CHN_CTRL_LANE1_EN, R.CHN_SLOT_STAT_STATE] at *
    omega)
  have hr : (s.wr (laneFld ln) v).recOf x = s.recOf x := recOf_mem (s := s) (t := s.wr (laneFld ln) v) rfl rfl rfl x
  rw [hs, hr]
  exact List.all_eq_true.mp h x hx

/-- A lane turned on or off faults no slot where no dual slot runs, or it is turned on. -/
theorem laneEnable_quiet (ln : Nat) {one : Bool} (h : one = true ∨ s.noDual = true) : s.laneEnable ln one = s.wr (laneFld ln) (b2n one) := by
  unfold State.laneEnable
  cases one with
  | true => rfl
  | false =>
    have hq := noDual_wrLane ln (b2n false) (h.resolve_left Bool.false_ne_true)
    simp only [Bool.false_eq_true, if_false, ← laneFld.eq_1]
    refine foldl_keep (fun t : State => t = s.wr (laneFld ln) (b2n false)) _ (List.range 128) (fun t x hx ht => ?_) rfl
    subst ht
    have hx := (Bool.not_eq_true' _).mp (List.all_eq_true.mp hq x hx)
    simp only [hx, Bool.false_eq_true, if_false]

/-- The bits of CHN_CTRL that are kept. -/
def State.chnCtrlShown (s : State) (a b : Bool) (irq : Nat) : State := ((s.wr R.CHN_CTRL_LANE0_EN (b2n a)).wr R.CHN_CTRL_LANE1_EN (b2n b)).wr R.CHN_CTRL_IRQ_EN irq

theorem chnCtrlShown_values (s : State) (a b c : Bool) : (s.chnCtrlShown a b (b2n c)).laneOn 0 = a ∧ (s.chnCtrlShown a b (b2n c)).laneOn 1 = b ∧
    (s.chnCtrlShown a b (b2n c)).on R.CHN_CTRL_IRQ_EN = c :=
  ⟨(State.on_wr_ne _ _ (by decide)).trans ((State.on_wr_ne _ _ (by decide)).trans (on_wr_b2n _ rfl _)), (State.on_wr_ne _ _ (by decide)).trans (on_wr_b2n _ rfl _), on_wr_b2n _ rfl _⟩

theorem regsBut_chnCtrlShown (s : State) (a b : Bool) (irq : Nat) : RegsBut [R.CHN_CTRL_LANE0_EN, R.CHN_CTRL_LANE1_EN, R.CHN_CTRL_IRQ_EN] s (s.chnCtrlShown a b irq) := by
  simp [State.chnCtrlShown]

theorem writeChnCtrl_quiet {k : Nat} (h : (bit k 0 = true ∧ bit k 1 = true) ∨ s.noDual = true) : s.writeChnCtrl k =
    if bit k 3 then (s.chnCtrlShown (bit k 0) (bit k 1) (b2n (bit k 2))).wrAll [(R.CHN_CNT1_CW_REJ, 0), (R.CHN_CNT1_FLUSHED, 0), (R.CHN_CNT2_MERGED, 0), (R.CHN_CNT2_MBOX_REJ, 0)]
    else s.chnCtrlShown (bit k 0) (bit k 1) (b2n (bit k 2)) := by
  have h0 := laneEnable_quiet (s := s) 0 (h.imp_left And.left)
  have h1 := laneEnable_quiet (s := s.wr (laneFld 0) (b2n (bit k 0))) 1 (h.imp And.right (noDual_wrLane 0 _))
  unfold State.writeChnCtrl
  rw [h0, h1, bits_zero_w1]
  rfl

theorem leads_laneEnable (h : s.takes w 0x120000 v.toNat = true) (h3 : bit v.toNat 3 = false) (hd : (bit v.toNat 0 = true ∧ bit v.toNat 1 = true) ∨ s.noDual = true) :
    Leads s (.laneEnable w v) fun t => t.laneOn 0 = bit v.toNat 0 ∧ t.laneOn 1 = bit v.toNat 1 ∧ t.on R.CHN_CTRL_IRQ_EN = bit v.toNat 2 ∧
      RegsBut [R.CHN_CTRL_LANE0_EN, R.CHN_CTRL_LANE1_EN, R.CHN_CTRL_IRQ_EN] s t ∧ t = { s with regs := t.regs, answer := t.answer } := by
  have e := writeReg_CHN_CTRL h
  rw [bv32_mod, writeChnCtrl_quiet hd, h3, if_neg Bool.false_ne_true] at e
  obtain ⟨v1, v2, v3⟩ := chnCtrlShown_values s (bit v.toNat 0) (bit v.toNat 1) (bit v.toNat 2)
  exact .intro rfl e ⟨v1, v2, v3, regsBut_chnCtrlShown s _ _ _, rfl⟩

theorem lanes_of_bits {k : Nat} (h : bits k 0 2 = 3) : bit k 0 = true ∧ bit k 1 = true := ⟨bit_of_bits h (by decide), bit_of_bits h (by decide)⟩

theorem leads_chnCntClr (h : s.takes w 0x120000 (v ||| 8).toNat = true) (hb : bits v.toNat 0 2 = 3) : Leads s (.chnCntClr w v) fun t =>
    t.rd R.CHN_CNT1_CW_REJ = 0 ∧ t.rd R.CHN_CNT1_FLUSHED = 0 ∧ t.rd R.CHN_CNT2_MERGED = 0 ∧ t.rd R.CHN_CNT2_MBOX_REJ = 0 ∧ t.laneOn 0 = true ∧ t.laneOn 1 = true ∧
    t.on R.CHN_CTRL_IRQ_EN = bit v.toNat 2 ∧
    RegsBut [R.CHN_CTRL_LANE0_EN, R.CHN_CTRL_LANE1_EN, R.CHN_CTRL_IRQ_EN, R.CHN_CNT1_CW_REJ, R.CHN_CNT1_FLUSHED, R.CHN_CNT2_MERGED, R.CHN_CNT2_MBOX_REJ] s t ∧ t = { s with regs := t.regs, answer := t.answer } := by
  obtain ⟨b0, b1⟩ := lanes_of_bits hb
  have e := writeReg_CHN_CTRL h
  have k0 : bit (v ||| 8).toNat 0 = true := (bit_or_of_false (by decide)).trans b0
  have k1 : bit (v ||| 8).toNat 1 = true := (bit_or_of_false (by decide)).trans b1
  rw [bv32_mod, writeChnCtrl_quiet (.inl ⟨k0, k1⟩), if_pos (bit_or_true (by decide)), k0, k1, bit_or_of_false (i := 2) (by decide)] at e
  obtain ⟨v1, v2, v3⟩ := chnCtrlShown_values s true true (bit v.toNat 2)
  have hb := regsBut_chnCtrlShown s true true (b2n (bit v.toNat 2))
  have hor : OnlyRegs s (s.chnCtrlShown true true (b2n (bit v.toNat 2))) := rfl
  generalize s.chnCtrlShown true true (b2n (bit v.toNat 2)) = q at *
  have hb2 : RegsBut [R.CHN_CNT1_CW_REJ, R.CHN_CNT1_FLUSHED, R.CHN_CNT2_MERGED, R.CHN_CNT2_MBOX_REJ] q
      (q.wrAll [(R.CHN_CNT1_CW_REJ, 0), (R.CHN_CNT1_FLUSHED, 0), (R.CHN_CNT2_MERGED, 0), (R.CHN_CNT2_MBOX_REJ, 0)]) := by simp [State.wrAll]
  have hz : ∀ f ∈ [R.CHN_CNT1_CW_REJ, R.CHN_CNT1_FLUSHED, R.CHN_CNT2_MERGED, R.CHN_CNT2_MBOX_REJ],
      (q.wrAll [(R.CHN_CNT1_CW_REJ, 0), (R.CHN_CNT1_FLUSHED, 0), (R.CHN_CNT2_MERGED, 0), (R.CHN_CNT2_MBOX_REJ, 0)]).rd f = 0 := by
    simp (disch := decide) [State.wrAll, State.rd_wr_ne]
  have hor2 := hor.wrAll [(R.CHN_CNT1_CW_REJ, 0), (R.CHN_CNT1_FLUSHED, 0), (R.CHN_CNT2_MERGED, 0), (R.CHN_CNT2_MBOX_REJ, 0)]
  generalize q.wrAll [(R.CHN_CNT1_CW_REJ, 0), (R.CHN_CNT1_FLUSHED, 0), (R.CHN_CNT2_MERGED, 0), (R.CHN_CNT2_MBOX_REJ, 0)] = p at *
  refine .intro rfl e ⟨hz _ (by simp), hz _ (by simp), hz _ (by simp), hz _ (by simp), (hb2.on (by decide)).trans v1, (hb2.on (by decide)).trans v2, (hb2.on (by decide)).trans v3,
    (hb.mono (by simp)).trans (hb2.mono (by simp)), ?_⟩
  rw [hor2]; rfl

theorem writeReg_laneList {j : Fin 32} (h : s.takes w (0x120100 + 0x80 * ln + 4 * j) v.toNat = true) :
    s.writeReg w (0x120100 + 0x80 * ln + 4 * j) v.toNat = (s.writeLaneList ln j v.toNat).answers .ok 0 [] := by
  match ln with
  | 0 => exact (writeReg_CHN_LIST0 j h).trans (by rw [bv32_mod]; rfl)
  | 1 => exact (writeReg_CHN_LIST1 j h).trans (by rw [bv32_mod]; rfl)

theorem leads_laneListWrite {j : Fin 32} (h : s.takes w (0x120100 + 0x80 * ln + 4 * j) v.toNat = true) (ho : s.laneOn ln = false) : Leads s (.laneListWrite w ln j v) fun t =>
    t.rd (if ln.val = 0 then R.LANE0_LIST_ENTRIES j else R.LANE1_LIST_ENTRIES j) = v.toNat ∧
    RegsBut [if ln.val = 0 then R.LANE0_LIST_ENTRIES j else R.LANE1_LIST_ENTRIES j] s t ∧ t = { s with regs := t.regs, answer := t.answer } := by
  have e := writeReg_laneList h
  rw [State.writeLaneList, if_neg (by rw [ho]; decide)] at e
  have hw : (if ln.val = 0 then R.LANE0_LIST_ENTRIES j else R.LANE1_LIST_ENTRIES j).w = 32 := by split <;> rfl
  generalize (if ln.val = 0 then R.LANE0_LIST_ENTRIES j else R.LANE1_LIST_ENTRIES j) = f at *
  exact .intro rfl e ⟨(State.rd_wr_same s f v.toNat).trans (by rw [hw]; exact bv32_mod v), regsBut_wr_self s f _, rfl⟩

theorem leads_laneListWrite_rejected {j : Fin 32} (h : s.takes w (0x120100 + 0x80 * ln + 4 * j) v.toNat = true) (ho : s.laneOn ln = true) : Leads s (.laneListWrite w ln j v) fun t =>
    t.on R.CHN_STAT_LIST_REJ = true ∧ RegsBut [R.CHN_STAT_LIST_REJ] s t ∧ t = { s with regs := t.regs, answer := t.answer } := by
  have e := writeReg_laneList h
  rw [State.writeLaneList, if_pos ho] at e
  exact .intro rfl e ⟨State.on_wr_same s R.CHN_STAT_LIST_REJ 1, regsBut_wr_self s R.CHN_STAT_LIST_REJ 1, rfl⟩

end Sys2Proof.Machine
end

section
/-! PROOFS. The publication of a slot (R262, R268 of spec/08_chanter_law.md). -/

namespace Sys2Proof.Machine

variable {s t u : State} {ln : Fin 2}

/-! ### What follows the stores of a publication -/

/-- Registers, axes, capture streams, injectors and reports alone differ. -/
def OnlyPublished (s t : State) : Prop :=
  t = { s with regs := t.regs, axes := t.axes, caps := t.caps, injs := t.injs, freeCtr := t.freeCtr, reports := t.reports }

theorem OnlyPublished.refl (s : State) : OnlyPublished s s := rfl

theorem OnlyPublished.trans (h : OnlyPublished s t) (h' : OnlyPublished t u) : OnlyPublished s u :=
  Eq.trans h' (congrArg (fun x : State => { x with regs := u.regs, axes := u.axes, caps := u.caps, injs := u.injs, freeCtr := u.freeCtr, reports := u.reports }) h)

theorem OnlyPublished.of_regs (h : OnlyRegs s t) : OnlyPublished s t := by
  unfold OnlyPublished
  rw [h]

theorem OnlyPublished.wr (h : OnlyPublished s t) (f : Fld) (v : Nat) : OnlyPublished s (t.wr f v) := h.trans rfl

theorem OnlyPublished.ite {c : Prop} [Decidable c] {t' : State} (h : OnlyPublished s t) (h' : OnlyPublished s t') : OnlyPublished s (if c then t else t') := by
  split
  · exact h
  · exact h'

theorem OnlyPublished.foldl {α : Type} (f : State → α → State) (l : List α) (hf : ∀ u a, OnlyPublished s u → OnlyPublished s (f u a)) (h : OnlyPublished s t) :
    OnlyPublished s (l.foldl f t) := foldl_keep (OnlyPublished s) f l (fun u a _ hu => hf u a hu) h

theorem OnlyPublished.captureOne (h : OnlyPublished s t) (c x sample flags : Nat) (k : ChnLatch) (sigs : List Nat) : OnlyPublished s (t.captureOne c x sample flags k sigs) := by
  unfold State.captureOne
  refine OnlyPublished.ite h (OnlyPublished.ite (h.trans rfl) (OnlyPublished.ite (h.trans rfl) ?_))
  refine OnlyPublished.wr ?_ _ _
  exact OnlyPublished.ite (h.trans rfl) (h.trans rfl)

theorem OnlyPublished.captures (h : OnlyPublished s t) (x sample flags : Nat) (k : ChnLatch) (sigs : List Nat) : OnlyPublished s (t.captures x sample flags k sigs) :=
  .foldl _ _ (fun _ c hu => hu.captureOne c x sample flags k sigs) h

theorem OnlyPublished.axMod (h : OnlyPublished s t) (n : Nat) (f : AxisSt → AxisSt) : OnlyPublished s (t.axMod n f) := h.trans rfl

theorem OnlyPublished.axInvalid (h : OnlyPublished s t) (n cause : Nat) : OnlyPublished s (t.axInvalid n cause) := by
  unfold State.axInvalid State.reportIf
  rw [axTo_left (.inr rfl)]
  have h1 : OnlyPublished s (((t.wr (R.AX_STAT_CAUSE n) cause).leftRegs n 5).axMod n (axisLeft · (t.wr (R.AX_STAT_CAUSE n) cause).now)) := h.trans rfl
  exact OnlyPublished.ite h (OnlyPublished.ite h (OnlyPublished.ite (h1.trans rfl) h1))

theorem OnlyPublished.axisPublished (h : OnlyPublished s t) (slot word flags : Nat) : OnlyPublished s (t.axisPublished slot word flags) := by
  refine .foldl _ _ (fun u n hu => ?_) h
  have h1 : OnlyPublished s (if u.on (R.AX_SLOTS_VEL_EN n) && u.rd (R.AX_SLOTS_VEL_SLOT n) == slot then u.axMod n fun a => { a with iqPreset := none } else u) := .ite (hu.axMod n _) hu
  exact OnlyPublished.ite h1 (OnlyPublished.ite (h1.axInvalid n 8) (h1.axMod n _))

theorem OnlyPublished.injEnd (h : OnlyPublished s t) (i : Nat) (aborted : Bool) : OnlyPublished s (t.injEnd i aborted) := .ite h (((h.wr _ _).wr _ _).wr _ _)

theorem OnlyPublished.injStep (h : OnlyPublished s t) (i : Nat) : OnlyPublished s (t.injStep i) := by
  unfold State.injStep
  refine OnlyPublished.ite h ?_
  have h1 : OnlyPublished s ((t.setInj i { t.inj i with k := (t.inj i).k + 1, phi := ((t.inj i).phi + t.dphiK i) % 2 ^ 32 }).wr (R.INJ_STAT_K i) ((t.inj i).k + 1)) := h.trans rfl
  exact OnlyPublished.ite (h1.injEnd i false) h1

theorem OnlyPublished.injShow (h : OnlyPublished s t) : OnlyPublished s t.injShow := h.trans (.of_regs (State.wrAll_upd t _))

/-- Nobody waits: nothing is told. -/
theorem chnTell_nil (s : State) (lim bad : Bool) : s.chnTell [] lim bad = s := by
  simp only [State.chnTell, List.contains_nil, Bool.false_eq_true, if_false, List.map_id', List.foldl_nil]

/-! ### A store into an open record -/

theorem clean_record {x o n : Nat} (h : s.clean 0x64 (recBase x) 512) (ho : o + n ≤ 512) : s.clean 0x64 (recBase x + o) n := by
  have hk : eccWord 0x64 = 8 := rfl
  intro wa hwa
  obtain ⟨hm, h1, h2⟩ := mem_wordsOf (eccWord_pos _) hwa
  rw [hk] at hm h2
  have hge : recBase x ≤ wa := by unfold recBase at *; omega
  have hw := wordsOf_cover (k := eccWord 0x64) (a := recBase x) (n := 512) (b := wa) (by omega)
  rw [hk, Nat.div_mul_cancel (Nat.dvd_of_mod_eq_zero hm)] at hw
  exact h wa hw

/-- Bytes of an open record are put, nothing else of the memory; the record stays open. -/
theorem putRec_open {x o : Nat} {l : List Byte} (h : s.recOpen x = true) (ho : o + l.length ≤ 512) :
    (∀ b, (s.putRec x o l).getByte b = if recBase x + o ≤ b ∧ b < recBase x + o + l.length then l.getD (b - (recBase x + o)) 0 else s.getByte b) ∧
    (s.putRec x o l).recOpen x = true ∧
    s.putRec x o l = { s with mem := (s.putRec x o l).mem, ecc := (s.putRec x o l).ecc, wb := (s.putRec x o l).wb, resv := (s.putRec x o l).resv, units := (s.putRec x o l).units } := by
  have h' := h
  unfold State.recOpen at h'
  simp only [Bool.and_eq_true, Bool.not_eq_true', List.all_eq_true, beq_iff_eq] at h'
  obtain ⟨⟨⟨hc, hu⟩, hf⟩, ha⟩ := h'
  obtain ⟨-, h2, h3, -, h5⟩ := writeMem_clean (w := chnWho) (clean_record hc ho) ha
  refine ⟨h2, ?_, h5⟩
  have e1 : (s.putRec x o l).unknown = s.unknown := by rw [State.putRec, h5]
  have e2 : (s.putRec x o l).fwArmed = s.fwArmed := by rw [State.putRec, h5]
  have e3 : (s.putRec x o l).on R.MEM_INJ_CTRL_ARM = s.on R.MEM_INJ_CTRL_ARM := by rw [State.putRec, h5]; rfl
  unfold State.recOpen
  simp only [Bool.and_eq_true, Bool.not_eq_true', List.all_eq_true, beq_iff_eq, e1, e2, e3, hu, hf, ha, and_true]
  exact fun wa hwa => (h3 wa).trans (hc wa hwa)

/-! ### SLOT_PUBLISH (R268) -/

theorem flatMap_words_length (x32 : Bool) (l : List Int) : (l.flatMap fun w => leBytes 4 (wordOf x32 w)).length = 4 * l.length := by
  induction l with
  | nil => rfl
  | cons a l ih => rw [List.flatMap_cons, List.length_append, leBytes_length, ih, List.length_cons]; omega

theorem notch_states (l : List Byte) (base ofs : Nat) (x0 : Int) : (notch l base ofs x0).2.2.length = 4 := rfl

theorem evaluate_states (l : List Byte) (prevFl : Nat) (iLim : Bool) (r y ff rc : Nat) (inj : List (Nat × Nat)) :
    (evaluate l prevFl iLim r y ff rc inj).n1.length = 4 ∧ (evaluate l prevFl iLim r y ff rc inj).n2.length = 4 := by
  unfold evaluate
  dsimp only
  constructor <;> split <;> simp [notch_states]

theorem stateBytes_length {o : EvalOut} (h : o.n1.length = 4 ∧ o.n2.length = 4) (x32 : Bool) : (o.stateBytes x32).length = 56 := by
  simp only [EvalOut.stateBytes, List.length_append, leBytes_length, flatMap_words_length, h.1, h.2, List.length_cons, List.length_nil]

theorem publishLaw_plain {x : Nat} {k : ChnLatch} {o : EvalOut} {sample : Nat} (hr : rcRole k.rcd = 0 ∧ rcEn k.rcd = false)
    (ho : o = evaluate k.rcd (fb k.rcd 260 2) (s.slot x).iLim k.r k.y k.ff 0 k.inj) (hs : sample = (fb k.rcd 262 2 + 1) % 2 ^ 16) :
    OnlyPublished (((s.putRec x 160 (o.stateBytes (rcX32 k.rcd))).putOut x (wordOf (rcX32 k.rcd) o.u) (o.flags ||| k.qual) sample).slotMod x fun t => { t with fresh := false, iLim := false })
      (s.publishLaw x k).1 := by
  subst ho hs
  unfold State.publishLaw
  simp only [hr.1, hr.2, Bool.false_and, Bool.false_eq_true, if_false, Nat.zero_ne_one, Nat.or_zero]
  exact ((OnlyPublished.refl _).captures _ _ _ _ _).axisPublished _ _ _

theorem setSlot_setSlot (s : State) (x : Nat) (a b : SlotSt) : (s.setSlot x a).setSlot x b = s.setSlot x b := by
  simp [State.setSlot]

/-- The state on which the evaluation of a slot is published. -/
def State.evalEnded (s : State) (ln x : Nat) : State := (s.setLane ln none).setSlot x { s.slot x with todo := 0, latch := none, evWait := [] }

theorem slotPublish_law {x : Nat} {agree : Bool} {k : ChnLatch} (hl : s.lanes.getD ln none = some x) (hx : x < s.slots.length)
    (hs : (s.slot x).todo = 1 ∧ (s.slot x).half = 0 ∧ (s.slot x).latch = some k ∧ (s.slot x).evWait = []) (hk : s.slotState x = 1 ∧ k.bad = false ∧ rcDual k.rcd = false ∧ rcRole k.rcd = 0) :
    OnlyPublished ((s.evalEnded ln x).publishLaw x k).1 (s.slotPublish ln agree) := by
  obtain ⟨h1, h2, h3, h4⟩ := hs
  obtain ⟨k1, k2, k3, k4⟩ := hk
  have hs0 : ((s.setLane ln none).slotMod x fun t => { t with todo := t.todo - 1 }) = (s.setLane ln none).setSlot x { s.slot x with todo := 0 } := by
    have e : (s.slot x).todo - 1 = 0 := by rw [h1]
    exact congrArg (fun n => (s.setLane ln none).setSlot x { s.slot x with todo := n }) e
  have hsl : ((s.setLane ln none).setSlot x { s.slot x with todo := 0 }).slot x = { s.slot x with todo := 0 } := slot_same _ _ hx
  have hst : (s.evalEnded ln x).slotState x = 1 := k1
  have e : s.slotPublish ln agree = (k.injs.foldl (fun s i => s.injStep i) ((s.evalEnded ln x).publishLaw x k).1).injShow := by
    unfold State.slotPublish
    unfold State.evalEnded at hst ⊢
    rw [hl]
    simp only [hs0, hsl, setSlot_setSlot]
    simp only [h2, h3, h4, ne_eq, not_true_eq_false, Nat.zero_ne_one, or_self, if_false, k2, k3, Bool.false_eq_true, Bool.false_and] at hst ⊢
    rw [if_neg (by rw [hst]; decide), chnTell_nil, if_neg (by rw [k4]; decide)]
  rw [e]
  exact (OnlyPublished.foldl _ _ (fun _ i hu => hu.injStep i) (OnlyPublished.refl _)).injShow

theorem getBytes_put {a : Nat} {l : List Byte} (h : ∀ i < l.length, t.getByte (a + i) = l.getD i 0) {n : Nat} (hn : l.length = n) : t.getBytes a n = l := by
  subst hn
  exact getBytes_of t a l h

theorem leads_slotPublish {agree : Bool} {x sample : Nat} {k : ChnLatch} {o : EvalOut} (hl : s.lanes.getD ln none = some x ∧ x < s.slots.length ∧ x < 128)
    (hs : (s.slot x).todo = 1 ∧ (s.slot x).half = 0 ∧ (s.slot x).latch = some k ∧ (s.slot x).evWait = [])
    (hk : s.slotState x = 1 ∧ k.bad = false ∧ rcDual k.rcd = false ∧ rcRole k.rcd = 0 ∧ rcEn k.rcd = false) (hopen : s.recOpen x = true)
    (ho : o = evaluate k.rcd (fb k.rcd 260 2) (s.slot x).iLim k.r k.y k.ff 0 k.inj) (hsam : sample = (fb k.rcd 262 2 + 1) % 2 ^ 16) : Leads s (.slotPublish ln agree) fun t =>
      t.getBytes (recBase x + 256) 8 = leBytes 4 (wordOf (rcX32 k.rcd) o.u) ++ leBytes 2 (o.flags ||| k.qual) ++ leBytes 2 sample ∧
      t.getBytes (recBase x + 160) 56 = o.stateBytes (rcX32 k.rcd) ∧ t.lanes = s.lanes.set ln none ∧
      t.slot x = { s.slot x with todo := 0, latch := none, evWait := [], fresh := false, iLim := false } ∧ (∀ y, y ≠ x → t.slot y = s.slot y) ∧
      (∀ b, b < recBase x + 160 ∨ recBase x + 264 ≤ b → t.getByte b = s.getByte b) ∧
      t = { s with regs := t.regs, mem := t.mem, ecc := t.ecc, wb := t.wb, resv := t.resv, units := t.units, slots := t.slots, lanes := t.lanes, axes := t.axes, caps := t.caps, injs := t.injs, freeCtr := t.freeCtr, reports := t.reports, chnRuns := t.chnRuns } := by
  obtain ⟨k1, k2, k3, k4, k5⟩ := hk
  have hlen := stateBytes_length (ho ▸ evaluate_states k.rcd (fb k.rcd 260 2) (s.slot x).iLim k.r k.y k.ff 0 k.inj) (rcX32 k.rcd)
  have hsl : (s.evalEnded ln x).slot x = { s.slot x with todo := 0, latch := none, evWait := [] } := slot_same _ _ hl.2.1
  have hpub := (publishLaw_plain (s := s.evalEnded ln x) (x := x) (o := o) ⟨k4, k5⟩ (by rw [hsl]; exact ho) hsam).trans (slotPublish_law (agree := agree) hl.1 hl.2.1 hs ⟨k1, k2, k3, k4⟩)
  unfold State.putOut at hpub
  generalize hout : leBytes 4 (wordOf (rcX32 k.rcd) o.u) ++ leBytes 2 (o.flags ||| k.qual) ++ leBytes 2 sample = out at *
  have hlo : out.length = 8 := by rw [← hout]; simp [leBytes_length]
  obtain ⟨p1, p2, p3⟩ := putRec_open (s := s.evalEnded ln x) (x := x) (o := 160) (l := o.stateBytes (rcX32 k.rcd)) hopen (by omega)
  obtain ⟨q1, -, q3⟩ := putRec_open (o := 256) (l := out) p2 (by omega)
  generalize (s.evalEnded ln x).putRec x 160 (o.stateBytes (rcX32 k.rcd)) = A at *
  generalize A.putRec x 256 out = B at *
  have hB : B = { s.evalEnded ln x with mem := B.mem, ecc := B.ecc, wb := B.wb, resv := B.resv, units := B.units } :=
    q3.trans (congrArg (fun y : State => { y with mem := B.mem, ecc := B.ecc, wb := B.wb, resv := B.resv, units := B.units }) p3)
  have hBs : B.slots = (s.evalEnded ln x).slots := by rw [hB]
  have hl2 : x < B.slots.length := by rw [hBs]; simpa [State.evalEnded, State.setSlot, State.setLane] using hl.2.1
  have hBx : B.slot x = { s.slot x with todo := 0, latch := none, evWait := [] } := by rw [← hsl, hB]; rfl
  have hslot : (B.slotMod x fun t => { t with fresh := false, iLim := false }).slot x = { s.slot x with todo := 0, latch := none, evWait := [], fresh := false, iLim := false } :=
    (slot_same B _ hl2).trans (by rw [hBx])
  have hne (y : Nat) (hy : y ≠ x) : (B.slotMod x fun t => { t with fresh := false, iLim := false }).slot y = s.slot y :=
    (slot_ne B _ hy).trans ((congrArg (fun l : List SlotSt => l.getD y {}) hBs).trans (slot_ne (s.setLane ln none) _ hy))
  have hE (b : Nat) : (s.evalEnded ln x).getByte b = s.getByte b := rfl
  have hmem (b : Nat) : (s.slotPublish ln agree).getByte b = B.getByte b := getByte_congr (by rw [hpub]; rfl) (by rw [hpub]; rfl) (by rw [hpub]; rfl) b
  refine ⟨s.slotPublish ln agree, rfl, getBytes_put (fun i hi => ?_) hlo, getBytes_put (fun i hi => ?_) hlen, ?_, ?_, fun y hy => ?_, fun b hb => ?_, ?_⟩
  · rw [hmem, q1, if_pos (by omega), Nat.add_sub_cancel_left]
  · rw [hmem, q1, if_neg (by omega), p1, if_pos (by omega), Nat.add_sub_cancel_left]
  · rw [hpub, hB]; rfl
  · exact (congrArg (fun z : State => z.slot x) hpub).trans hslot
  · exact (congrArg (fun z : State => z.slot y) hpub).trans (hne y hy)
  · rw [hmem, q1, if_neg (by omega), p1, if_neg (by omega), hE]
  · rw [hpub, hB]; rfl

/-! ### The obligation -/

/-- Settles O29: each command of the Chanter, by the lemma on it. -/
theorem chanterLaw : Obligations.ChanterLaw := by
  unfold Obligations.ChanterLaw
  refine ⟨?run, ?absent, ?start, ?passed, ?publish, ?enqueue, ?flush, ?enable, ?enableRej, ?lanesOn, ?lanesOff, ?list, ?listRej, ?clr⟩
  case run => exact fun s ln c u x key l hu h hr hl hn hrec hp => leads_run hu h hr hl hn hrec hp
  case absent => exact fun s ln c u hu h hr hn => leads_run_absent hu h hr hn
  case start => exact fun s s0 s1 ln x q h hn hs0 hs hs1 hq hb hx => leads_slotStart h hn hs0 hs hs1 hq hb hx
  case passed => exact fun s ln x h hn hp hs hw => leads_slotStart_passed h hn hp hs hw
  case publish => exact fun s ln agree x sample k o hl hs hk hopen ho hsam => leads_slotPublish hl hs hk hopen ho hsam
  case enqueue => exact fun s w v sel x h hsel hx hq => leads_cwqEnqueue h hsel hx hq
  case flush => exact fun s w v x h hx => leads_cwqFlush h hx
  case enable => exact fun s w x v h hb ho => leads_chnSlotEnable h hb ho
  case enableRej => exact fun s w x v h hb ho => leads_chnSlotEnable_rejected h hb ho
  case lanesOn =>
    intro s w v h hb
    obtain ⟨b0, b1⟩ := lanes_of_bits hb.1
    have hl := leads_laneEnable h hb.2 (.inl ⟨b0, b1⟩)
    rwa [b0, b1] at hl
  case lanesOff => exact fun s w v h h3 hd => leads_laneEnable h h3 (.inr hd)
  case list => exact fun s w ln j v h ho => leads_laneListWrite h ho
  case listRej => exact fun s w ln j v h ho => leads_laneListWrite_rejected h ho
  case clr => exact fun s w v h hb => leads_chnCntClr h hb

end Sys2Proof.Machine
end

section
/-! PROOFS. Set-point channels (R295 to R297 of spec/09_chanter_loops.md). -/

namespace Sys2Proof.Machine

variable {s s1 t : State} {w : Who} {v : BitVec 32} {c : Fin 64}

/-! ### A channel beside its registers -/

theorem sp_same (s : State) {x : Nat} (v : SpSt) (h : x < s.sps.length) : (s.setSp x v).sp x = v := by
  simp [State.sp, State.setSp, List.getD_eq_getElem?_getD, h]

theorem sp_ne (s : State) {x y : Nat} (v : SpSt) (h : y ≠ x) : (s.setSp x v).sp y = s.sp y := by
  simp [State.sp, State.setSp, List.getD_eq_getElem?_getD, List.getElem?_set_ne (Ne.symm h)]

/-! ### SETPOINT_UPDATE (R296) -/

/-- What a channel shows after an update. -/
def State.spShown (s : State) (c out : Nat) (lost : Bool) (quality : Nat) : State :=
  s.wrAll [(R.SP_OUT_OUT c, out), (R.SP_STAT_LOST c, b2n lost), (R.SP_STAT_QUALITY c, quality)]

theorem spShown_values (s : State) (c : Nat) {out quality : Nat} (lost : Bool) (ho : out < 2 ^ 32) (hq : quality < 4) :
    (s.spShown c out lost quality).rd (R.SP_OUT_OUT c) = out ∧ (s.spShown c out lost quality).on (R.SP_STAT_LOST c) = lost ∧
    (s.spShown c out lost quality).rd (R.SP_STAT_QUALITY c) = quality ∧
    RegsBut [R.SP_OUT_OUT c, R.SP_STAT_LOST c, R.SP_STAT_QUALITY c] s (s.spShown c out lost quality) := by
  refine ⟨?_, ?_, (State.rd_wr_same _ _ _).trans (Nat.mod_eq_of_lt hq), by simp [State.spShown, State.wrAll]⟩
  · simp (disch := (simp only [R.SP_OUT_OUT, R.SP_STAT_LOST, R.SP_STAT_QUALITY]; omega)) only [State.spShown, State.wrAll, State.rd_wr_ne]
    exact (State.rd_wr_same _ _ _).trans (Nat.mod_eq_of_lt ho)
  · exact (State.on_wr_ne _ _ (by simp only [R.SP_STAT_LOST, R.SP_STAT_QUALITY]; omega)).trans (on_wr_b2n _ rfl _)

theorem leads_setpointUpdate {q : Int × Bool × SpSt} {r : Int × Int} (hc : c.val < s.sps.length) (h : s.on (R.SP_CFG_ENABLE c) = true ∧ s.reached (s.sp c).due = true) (hq : q = s.spRaw c)
    (hr : r = spStep q.1 (s.rdS (R.SP_OFFSET_OFFSET c)) (s.rdS (R.SP_MULT_MULT c)) (s.rd (R.SP_CFG_SHIFT c)) (s.rd (R.SP_DB_DB c)) (s.rdS (R.SP_MIN_MIN c)) (s.rdS (R.SP_MAX_MAX c)) q.2.1
      (!s.on (R.SP_CFG_LOSS c)) (s.rdS (R.SP_FAILVAL_FAILVAL c)) (s.rdS (R.SP_OUT_OUT c)) (s.rd (R.SP_RATE_RATE c))) : Leads s (.setpointUpdate c) fun t =>
      t.rd (R.SP_OUT_OUT c) = ux 32 r.1 ∧ t.on (R.SP_STAT_LOST c) = q.2.1 ∧ t.rd (R.SP_STAT_QUALITY c) = (if q.2.1 = false ∧ r.1 = r.2 then 2 else 1) ∧
      t.sp c = { q.2.2 with due := (q.2.2.due + s.rd (R.SP_PERIOD_PERIOD c)) % 2 ^ 48 } ∧ (∀ x, x ≠ c.val → t.sp x = s.sp x) ∧
      RegsBut [R.SP_OUT_OUT c, R.SP_STAT_LOST c, R.SP_STAT_QUALITY c] s t ∧ t = { s with regs := t.regs, sps := t.sps } := by
  have e : s.spUpdate c = (s.setSp c { q.2.2 with due := (q.2.2.due + s.rd (R.SP_PERIOD_PERIOD c)) % 2 ^ 48 }).spShown c (ux 32 r.1) q.2.1 (if !q.2.1 && r.1 == r.2 then 2 else 1) := by
    subst hr hq
    refine if_neg ?_
    rw [h.1, h.2]
    decide
  obtain ⟨v1, v2, v3, v4⟩ := spShown_values (s.setSp c { q.2.2 with due := (q.2.2.due + s.rd (R.SP_PERIOD_PERIOD c)) % 2 ^ 48 }) c q.2.1 (ux_lt 32 r.1)
    (quality := if !q.2.1 && r.1 == r.2 then 2 else 1) (by split <;> decide)
  refine .intro rfl e ⟨v1, v2, v3.trans ?_, sp_same s _ hc, fun x hx => sp_ne s _ hx, v4, rfl⟩
  simp

/-! ### SP_ENABLE (R296) -/

theorem regsBut_spFields (s : State) (c w : Nat) : RegsBut [R.SP_CFG_KIND c, R.SP_CFG_INDEX c, R.SP_CFG_DELTA c, R.SP_CFG_LOSS c, R.SP_CFG_SHIFT c] s (s.spFields c w) := by
  unfold State.spFields
  refine (regsBut_wrAll (by simp)).mpr (regsBut_ite ?_ (RegsBut.refl _ s))
  exact (regsBut_wrAll (by simp)).mpr (RegsBut.refl _ s)

theorem onlyRegs_spFields (s : State) (c w : Nat) : OnlyRegs s (s.spFields c w) := by
  unfold State.spFields
  split
  · exact ((OnlyRegs.refl s).wrAll _).wrAll _
  · exact (OnlyRegs.refl s).wrAll _

theorem spFields_rd (s : State) (c w : Nat) {f : Fld} (h : f.key < (0x120800 + 0x40 * c) * 8 ∨ (0x120804 + 0x40 * c) * 8 ≤ f.key) : (s.spFields c w).rd f = s.rd f := by
  refine (regsBut_spFields s c w).rd ?_
  simp only [List.map_cons, List.map_nil, List.mem_cons, List.not_mem_nil, or_false, R.SP_CFG_KIND, R.SP_CFG_INDEX, R.SP_CFG_DELTA, R.SP_CFG_LOSS, R.SP_CFG_SHIFT]
  omega

theorem spFields_pulseOf (s : State) (c : Fin 64) (w i : Nat) : (s.spFields c w).pulseOf i = s.pulseOf i := by
  have hc := c.isLt
  unfold State.pulseOf
  split
  · rw [spFields_rd s c w (.inl (by simp only [R.AX_ENC_CNT_CNT]; omega)), spFields_rd s c w (.inl (by simp only [R.AX_CNT2_QERR]; omega))]
  · rw [spFields_rd s c w (.inr (by simp only [R.FE_PCNT_PCNT]; omega)), spFields_rd s c w (.inr (by simp only [R.FE_STAT_ENC_ERR]; omega))]

theorem writeSpCfg_fields (s : State) (c w : Nat) : s.writeSpCfg c w =
    if !bit w 0 then (((s.spFields c w).wr (R.SP_CFG_ENABLE c) 0).wr (R.SP_OUT_OUT c) 0).wrAll [(R.SP_STAT_QUALITY c, 0), (R.SP_STAT_LOST c, 0)]
    else if s.on (R.SP_CFG_ENABLE c) then s.spFields c w
    else if (s.spFields c w).rd (R.SP_PERIOD_PERIOD c) = 0 ∨ !spIndexOk ((s.spFields c w).rd (R.SP_CFG_KIND c)) ((s.spFields c w).rd (R.SP_CFG_INDEX c)) then (s.spFields c w).wr (R.SP_STAT_REJ c) 1
    else ((s.spFields c w).wrAll [(R.SP_CFG_ENABLE c, 1), (R.SP_OUT_OUT c, 0), (R.SP_STAT_QUALITY c, 1), (R.SP_STAT_LOST c, 0)]).setSp c
      { (s.spFields c w).sp c with due := ((s.spFields c w).now + (s.spFields c w).rd (R.SP_PERIOD_PERIOD c)) % 2 ^ 48, hostAge := 0, hostNew := false, last := ((s.spFields c w).pulseOf ((s.spFields c w).rd (R.SP_CFG_INDEX c))).1, errLast := ((s.spFields c w).pulseOf ((s.spFields c w).rd (R.SP_CFG_INDEX c))).2 } := by
  unfold State.writeSpCfg
  simp only [Bool.not_not]
  rfl

/-- What a channel that has just been enabled or turned off shows. -/
def State.spReset (s : State) (c : Nat) (on : Bool) (quality : Nat) : State :=
  s.wrAll [(R.SP_CFG_ENABLE c, b2n on), (R.SP_OUT_OUT c, 0), (R.SP_STAT_QUALITY c, quality), (R.SP_STAT_LOST c, 0)]

theorem spReset_values (s : State) (c : Nat) (on : Bool) {quality : Nat} (hq : quality < 4) :
    (s.spReset c on quality).on (R.SP_CFG_ENABLE c) = on ∧ (s.spReset c on quality).rd (R.SP_OUT_OUT c) = 0 ∧ (s.spReset c on quality).rd (R.SP_STAT_QUALITY c) = quality ∧
    (s.spReset c on quality).on (R.SP_STAT_LOST c) = false ∧ RegsBut [R.SP_CFG_ENABLE c, R.SP_OUT_OUT c, R.SP_STAT_QUALITY c, R.SP_STAT_LOST c] s (s.spReset c on quality) ∧
    OnlyRegs s (s.spReset c on quality) := by
  refine ⟨?_, ?_, ?_, State.on_wr_same _ _ _, by simp [State.spReset, State.wrAll], (OnlyRegs.refl s).wrAll _⟩
  · simp (disch := (simp only [R.SP_CFG_ENABLE, R.SP_OUT_OUT, R.SP_STAT_LOST, R.SP_STAT_QUALITY]; omega)) only [State.spReset, State.wrAll, State.on_wr_ne]
    exact on_wr_b2n _ rfl _
  · simp (disch := (simp only [R.SP_OUT_OUT, R.SP_STAT_LOST, R.SP_STAT_QUALITY]; omega)) only [State.spReset, State.wrAll, State.rd_wr_ne]
    exact State.rd_wr_same _ _ _
  · simp (disch := (simp only [R.SP_STAT_LOST, R.SP_STAT_QUALITY]; omega)) only [State.spReset, State.wrAll, State.rd_wr_ne]
    exact (State.rd_wr_same _ _ _).trans (Nat.mod_eq_of_lt hq)

theorem leads_spEnable (h : s.takes w (0x120800 + 0x40 * c) v.toNat = true) (h1 : s1 = s.spFields c v.toNat) (hc : c.val < s.sps.length)
    (hb : bit v.toNat 0 = true ∧ s.on (R.SP_CFG_ENABLE c) = false) (hp : s.rd (R.SP_PERIOD_PERIOD c) ≠ 0 ∧ spIndexOk (s1.rd (R.SP_CFG_KIND c)) (s1.rd (R.SP_CFG_INDEX c)) = true) :
    Leads s (.spEnable w c v) fun t => t.on (R.SP_CFG_ENABLE c) = true ∧ t.rd (R.SP_OUT_OUT c) = 0 ∧ t.rd (R.SP_STAT_QUALITY c) = 1 ∧ t.on (R.SP_STAT_LOST c) = false ∧
      t.sp c = { s.sp c with due := (s.now + s.rd (R.SP_PERIOD_PERIOD c)) % 2 ^ 48, hostAge := 0, hostNew := false, last := (s.pulseOf (s1.rd (R.SP_CFG_INDEX c))).1, errLast := (s.pulseOf (s1.rd (R.SP_CFG_INDEX c))).2 } ∧
      (∀ x, x ≠ c.val → t.sp x = s.sp x) ∧ RegsBut [R.SP_CFG_ENABLE c, R.SP_OUT_OUT c, R.SP_STAT_QUALITY c, R.SP_STAT_LOST c] s1 t ∧ t = { s with regs := t.regs, sps := t.sps, answer := t.answer } := by
  subst h1
  have e := writeReg_SP_CFG c h
  have hper : (s.spFields c v.toNat).rd (R.SP_PERIOD_PERIOD c) = s.rd (R.SP_PERIOD_PERIOD c) := spFields_rd s c _ (.inr (by simp only [R.SP_PERIOD_PERIOD]; omega))
  have hor := onlyRegs_spFields s c v.toNat
  have hsp : (s.spFields c v.toNat).sp c = s.sp c := by rw [hor]; rfl
  have hnow : (s.spFields c v.toNat).now = s.now := by rw [hor]
  rw [bv32_mod, writeSpCfg_fields, hb.1, if_neg (by decide), if_neg (by rw [hb.2]; decide), if_neg (by rw [hper, hp.2]; simpa using hp.1), spFields_pulseOf, hper, hsp, hnow] at e
  generalize s.spFields c v.toNat = p at *
  obtain ⟨v1, v2, v3, v4, v5, v6⟩ := spReset_values p c true (quality := 1) (by decide)
  have e2 : s.writeReg w (0x120800 + 0x40 * c) v.toNat = ((p.spReset c true 1).setSp c { s.sp c with due := (s.now + s.rd (R.SP_PERIOD_PERIOD c)) % 2 ^ 48, hostAge := 0, hostNew := false, last := (s.pulseOf (p.rd (R.SP_CFG_INDEX c))).1, errLast := (s.pulseOf (p.rd (R.SP_CFG_INDEX c))).2 }).answers .ok 0 [] := e
  have hor2 := hor.trans v6
  generalize p.spReset c true 1 = q at *
  have hl : c.val < q.sps.length := by rw [hor2]; exact hc
  refine .intro rfl e2 ⟨v1, v2, v3, v4, sp_same q _ hl, fun x hx => (sp_ne q _ hx).trans (by rw [hor2]; rfl), v5, ?_⟩
  rw [hor2]; rfl

theorem leads_spEnable_rejected (h : s.takes w (0x120800 + 0x40 * c) v.toNat = true) (h1 : s1 = s.spFields c v.toNat) (hb : bit v.toNat 0 = true ∧ s.on (R.SP_CFG_ENABLE c) = false)
    (hp : s.rd (R.SP_PERIOD_PERIOD c) = 0 ∨ spIndexOk (s1.rd (R.SP_CFG_KIND c)) (s1.rd (R.SP_CFG_INDEX c)) = false) : Leads s (.spEnable w c v) fun t =>
      t.on (R.SP_STAT_REJ c) = true ∧ RegsBut [R.SP_STAT_REJ c] s1 t ∧ t = { s with regs := t.regs, answer := t.answer } := by
  subst h1
  have e := writeReg_SP_CFG c h
  have hper : (s.spFields c v.toNat).rd (R.SP_PERIOD_PERIOD c) = s.rd (R.SP_PERIOD_PERIOD c) := spFields_rd s c _ (.inr (by simp only [R.SP_PERIOD_PERIOD]; omega))
  have hor := onlyRegs_spFields s c v.toNat
  rw [bv32_mod, writeSpCfg_fields, hb.1, if_neg (by decide), if_neg (by rw [hb.2]; decide), if_pos (by rw [hper]; simpa using hp)] at e
  generalize s.spFields c v.toNat = p at *
  refine .intro rfl e ⟨State.on_wr_same p (R.SP_STAT_REJ c) 1, regsBut_wr_self p (R.SP_STAT_REJ c) 1, ?_⟩
  rw [hor]; rfl

theorem leads_spEnable_off (h : s.takes w (0x120800 + 0x40 * c) v.toNat = true) (h1 : s1 = s.spFields c v.toNat) (hb : bit v.toNat 0 = false) : Leads s (.spEnable w c v) fun t =>
    t.on (R.SP_CFG_ENABLE c) = false ∧ t.rd (R.SP_OUT_OUT c) = 0 ∧ t.rd (R.SP_STAT_QUALITY c) = 0 ∧ t.on (R.SP_STAT_LOST c) = false ∧
    RegsBut [R.SP_CFG_ENABLE c, R.SP_OUT_OUT c, R.SP_STAT_QUALITY c, R.SP_STAT_LOST c] s1 t ∧ t = { s with regs := t.regs, answer := t.answer } := by
  subst h1
  have e := writeReg_SP_CFG c h
  have hor := onlyRegs_spFields s c v.toNat
  rw [bv32_mod, writeSpCfg_fields, hb, if_pos (by decide)] at e
  generalize s.spFields c v.toNat = p at *
  obtain ⟨v1, v2, v3, v4, v5, v6⟩ := spReset_values p c false (quality := 0) (by decide)
  have e2 : s.writeReg w (0x120800 + 0x40 * c) v.toNat = (p.spReset c false 0).answers .ok 0 [] := e
  have hor2 := hor.trans v6
  generalize p.spReset c false 0 = q at *
  refine .intro rfl e2 ⟨v1, v2, v3, v4, v5, ?_⟩
  rw [hor2]; rfl

/-! ### SP_HOST (R297) -/

theorem leads_spHost (h : s.takes w (0x120824 + 0x40 * c) v.toNat = true) (hk : c.val < s.sps.length ∧ s.rd (R.SP_CFG_KIND c) = 0) : Leads s (.spHost w c v) fun t =>
    t.sp c = { s.sp c with host := v.toNat, hostNew := true } ∧ (∀ x, x ≠ c.val → t.sp x = s.sp x) ∧ RegsBut [] s t ∧ t = { s with sps := t.sps, answer := t.answer } := by
  have e := writeReg_SP_HOST c h
  rw [bv32_mod, State.writeSpHost, if_neg (by rw [hk.2]; decide)] at e
  exact .intro rfl e ⟨sp_same s _ hk.1, fun x hx => sp_ne s _ hx, RegsBut.of_regs (RegsBut.refl _ s) rfl, rfl⟩

theorem leads_spHost_ignored (h : s.takes w (0x120824 + 0x40 * c) v.toNat = true) (hk : s.rd (R.SP_CFG_KIND c) ≠ 0) : Leads s (.spHost w c v) fun t =>
    t.rd (R.SP_STAT_IGN c) = satAdd 16 (s.rd (R.SP_STAT_IGN c)) 1 ∧ RegsBut [R.SP_STAT_IGN c] s t ∧ t = { s with regs := t.regs, answer := t.answer } := by
  have e := writeReg_SP_HOST c h
  rw [bv32_mod, State.writeSpHost, if_pos hk] at e
  exact .intro rfl e ⟨rd_count_same s (R.SP_STAT_IGN c) 1, regsBut_wr_self s (R.SP_STAT_IGN c) _, rfl⟩

/-- Settles O30: each command of the set-point channels, by the lemma on it. -/
theorem setPoints : Obligations.SetPoints := by
  unfold Obligations.SetPoints
  refine ⟨?update, ?enable, ?enableRej, ?off, ?host, ?hostIgn⟩
  case update => exact fun s c q r hc h hq hr => leads_setpointUpdate hc h hq hr
  case enable => exact fun s s1 w c v h h1 hc hb hp => leads_spEnable h h1 hc hb hp
  case enableRej => exact fun s s1 w c v h h1 hb hp => leads_spEnable_rejected h h1 hb hp
  case off => exact fun s s1 w c v h h1 hb => leads_spEnable_off h h1 hb
  case host => exact fun s w c v h hk => leads_spHost h hk
  case hostIgn => exact fun s w c v h hk => leads_spHost_ignored h hk

end Sys2Proof.Machine
end

section
/-! PROOFS. Injection (R298 to R301 of spec/09_chanter_loops.md). -/

namespace Sys2Proof.Machine

variable {s t u : State} {w : Who} {v : BitVec 32} {g : Fin 8}

/-! ### One injector among the 32 -/

/-- What is known of an injector beside its configuration. -/
structure InjView where
  st : InjSt
  active : Bool
  done : Bool
  aborted : Bool
  k : Nat
  out : Nat

/-- What a state holds of an injector. -/
def State.injView (s : State) (i : Nat) : InjView :=
  ⟨s.inj i, s.on (R.INJ_STAT_ACTIVE i), s.on (R.INJ_STAT_DONE i), s.on (R.INJ_STAT_ABORTED i), s.rd (R.INJ_STAT_K i), s.rd (R.INJ_OUT_OUT i)⟩

/-- The status registers of an injector. -/
def injStatFlds (i : Nat) : List Fld := [R.INJ_STAT_ACTIVE i, R.INJ_STAT_DONE i, R.INJ_STAT_ABORTED i, R.INJ_STAT_K i, R.INJ_OUT_OUT i]

/-- Those of all injectors. -/
def injAllFlds : List Fld :=
  (List.range 32).map R.INJ_STAT_ACTIVE ++ (List.range 32).map R.INJ_STAT_DONE ++ (List.range 32).map R.INJ_STAT_ABORTED ++ (List.range 32).map R.INJ_STAT_K ++ (List.range 32).map R.INJ_OUT_OUT

theorem mem_injAllFlds {i : Nat} (h : i < 32) : ∀ f ∈ injStatFlds i, f ∈ injAllFlds := by
  have hm := List.mem_range.mpr h
  intro f hf
  simp only [injStatFlds, List.mem_cons, List.not_mem_nil, or_false] at hf
  simp only [injAllFlds, List.mem_append]
  rcases hf with rfl | rfl | rfl | rfl | rfl
  · exact .inl (.inl (.inl (.inl (List.mem_map_of_mem hm))))
  · exact .inl (.inl (.inl (.inr (List.mem_map_of_mem hm))))
  · exact .inl (.inl (.inr (List.mem_map_of_mem hm)))
  · exact .inl (.inr (List.mem_map_of_mem hm))
  · exact .inr (List.mem_map_of_mem hm)

/-- Only an injector changed: its status registers and what the part holds beside them. -/
structure InjOnly (i : Nat) (s t : State) : Prop where
  only : t = { s with regs := t.regs, injs := t.injs }
  regs : RegsBut (injStatFlds i) s t
  other : ∀ j, j ≠ i → t.inj j = s.inj j
  length : t.injs.length = s.injs.length

/-- Only injectors changed. -/
structure InjFrame (s t : State) : Prop where
  only : t = { s with regs := t.regs, injs := t.injs }
  regs : RegsBut injAllFlds s t
  length : t.injs.length = s.injs.length

theorem InjOnly.refl (i : Nat) (s : State) : InjOnly i s s := ⟨rfl, RegsBut.refl _ s, fun _ _ => rfl, rfl⟩

theorem injs_only_trans (h : t = { s with regs := t.regs, injs := t.injs }) (h' : u = { t with regs := u.regs, injs := u.injs }) : u = { s with regs := u.regs, injs := u.injs } :=
  h'.trans (congrArg (fun x : State => { x with regs := u.regs, injs := u.injs }) h)

theorem InjOnly.trans {i : Nat} (h : InjOnly i s t) (h' : InjOnly i t u) : InjOnly i s u :=
  ⟨injs_only_trans h.only h'.only, h.regs.trans h'.regs, fun j hj => (h'.other j hj).trans (h.other j hj), h'.length.trans h.length⟩

theorem InjOnly.wr {i : Nat} (h : InjOnly i s t) {f : Fld} (v : Nat) (hf : f ∈ injStatFlds i) : InjOnly i s (t.wr f v) :=
  h.trans ⟨rfl, (regsBut_wr hf).mpr (RegsBut.refl _ t), fun _ _ => rfl, rfl⟩

theorem InjOnly.setInj {i : Nat} (h : InjOnly i s t) (v : InjSt) : InjOnly i s (t.setInj i v) :=
  h.trans ⟨rfl, RegsBut.of_regs (RegsBut.refl _ t) rfl, fun j hj => by simp [State.inj, State.setInj, List.getD_eq_getElem?_getD, List.getElem?_set_ne (Ne.symm hj)], by simp [State.setInj]⟩

theorem inj_same (s : State) {i : Nat} (v : InjSt) (h : i < s.injs.length) : (s.setInj i v).inj i = v := by
  simp [State.inj, State.setInj, List.getD_eq_getElem?_getD, h]

theorem InjFrame.step {i : Nat} (h : InjFrame s t) (h' : InjOnly i t u) (hi : i < 32) : InjFrame s u :=
  ⟨injs_only_trans h.only h'.only, h.regs.trans (h'.regs.mono (mem_injAllFlds hi)), h'.length.trans h.length⟩

/-- The other injectors are as they were. -/
theorem InjOnly.view {i j : Nat} (h : InjOnly i s t) (hj : j ≠ i) : t.injView j = s.injView j := by
  have hn : ∀ f ∈ injStatFlds j, f.key ∉ (injStatFlds i).map Fld.key := by
    simp only [injStatFlds, List.map_cons, List.map_nil, List.mem_cons, List.not_mem_nil, or_false, forall_eq_or_imp, forall_eq,
      R.INJ_STAT_ACTIVE, R.INJ_STAT_DONE, R.INJ_STAT_ABORTED, R.INJ_STAT_K, R.INJ_OUT_OUT]
    omega
  simp only [State.injView, h.other j hj, h.regs.on (hn (R.INJ_STAT_ACTIVE j) (by simp [injStatFlds])), h.regs.on (hn (R.INJ_STAT_DONE j) (by simp [injStatFlds])),
    h.regs.on (hn (R.INJ_STAT_ABORTED j) (by simp [injStatFlds])), h.regs.rd (hn (R.INJ_STAT_K j) (by simp [injStatFlds])), h.regs.rd (hn (R.INJ_OUT_OUT j) (by simp [injStatFlds]))]

/-- Injector after injector: each ends as its own step leaves it. -/
theorem foldl_injectors {f : State → Nat → State} {F : Nat → InjView} (honly : ∀ t i, i < 32 → InjFrame s t → InjOnly i t (f t i))
    (hview : ∀ t i, i < 32 → InjFrame s t → t.injView i = s.injView i → (f t i).injView i = F i) :
    InjFrame s ((List.range 32).foldl f s) ∧ ∀ i < 32, ((List.range 32).foldl f s).injView i = F i := by
  have h := foldl_range_ind f (fun m t => InjFrame s t ∧ (∀ i < m, t.injView i = F i) ∧ ∀ i, m ≤ i → t.injView i = s.injView i) (n := 32) (s := s) (fun t m hm ht => ?_)
    ⟨⟨rfl, RegsBut.refl _ s, rfl⟩, fun i hi => absurd hi (Nat.not_lt_zero i), fun _ _ => rfl⟩
  · exact ⟨h.1, h.2.1⟩
  · obtain ⟨hfr, hdone, htodo⟩ := ht
    have ho := honly t m hm hfr
    refine ⟨hfr.step ho hm, fun i hi => ?_, fun i hi => (ho.view (by omega)).trans (htodo i (by omega))⟩
    by_cases him : i = m
    · subst him; exact hview t i hm hfr (htodo i (Nat.le_refl i))
    · exact (ho.view him).trans (hdone i (by omega))

/-! ### ACTIVE of the groups -/

theorem injFrame_cfg (h : InjFrame s t) {i : Nat} {f : Fld} (hf : f.key < (0x122018 + 0x20 * i) * 8 ∧ (0x122000 + 0x20 * i) * 8 ≤ f.key) : t.rd f = s.rd f := by
  refine h.regs.rd ?_
  simp only [injAllFlds, List.map_append, List.map_map, List.mem_append, List.mem_map, List.mem_range, Function.comp_apply, R.INJ_STAT_ACTIVE, R.INJ_STAT_DONE, R.INJ_STAT_ABORTED, R.INJ_STAT_K, R.INJ_OUT_OUT]
  rintro ((((⟨j, hj, e⟩ | ⟨j, hj, e⟩) | ⟨j, hj, e⟩) | ⟨j, hj, e⟩) | ⟨j, hj, e⟩) <;> omega

theorem injShow_only (s : State) : OnlyRegs s s.injShow := State.wrAll_upd s _

theorem regsBut_injShow (s : State) : RegsBut ((List.range 8).map R.INJ_GRP_CTRL_ACTIVE) s s.injShow := by
  refine (regsBut_wrAll fun p hp => ?_).mpr (RegsBut.refl _ s)
  obtain ⟨k, hk, rfl⟩ := List.mem_map.mp hp
  exact List.mem_map_of_mem hk

theorem injShow_low (s : State) {f : Fld} (h : 0x121840 * 8 ≤ f.key) : s.injShow.rd f = s.rd f := by
  refine (regsBut_injShow s).rd ?_
  simp only [List.map_map, List.mem_map, List.mem_range, Function.comp_apply, R.INJ_GRP_CTRL_ACTIVE, not_exists, not_and]
  omega

theorem injShow_view (s : State) (i : Nat) : s.injShow.injView i = s.injView i := by
  have hr (f : Fld) (h : 0x121840 * 8 ≤ f.key) : s.injShow.on f = s.on f := congrArg (· != 0) (injShow_low s h)
  have hi : s.injShow.inj i = s.inj i := by rw [injShow_only s]; rfl
  simp only [State.injView, hi, hr (R.INJ_STAT_ACTIVE i) (by simp only [R.INJ_STAT_ACTIVE]; omega), hr (R.INJ_STAT_DONE i) (by simp only [R.INJ_STAT_DONE]; omega),
    hr (R.INJ_STAT_ABORTED i) (by simp only [R.INJ_STAT_ABORTED]; omega), injShow_low s (f := R.INJ_STAT_K i) (by simp only [R.INJ_STAT_K]; omega),
    injShow_low s (f := R.INJ_OUT_OUT i) (by simp only [R.INJ_OUT_OUT]; omega)]

theorem wrAll_map (s : State) (l : List Nat) (F : Nat → Fld) (v : Nat → Nat) : s.wrAll (l.map fun g => (F g, v g)) = l.foldl (fun s g => s.wr (F g) (v g)) s := by
  induction l generalizing s with
  | nil => rfl
  | cons a l ih => exact ih (s.wr (F a) (v a))

theorem injShow_group (s : State) (g : Fin 8) : s.injShow.on (R.INJ_GRP_CTRL_ACTIVE g) = s.injActive g := by
  have h := rd_foldl_wr s (F := R.INJ_GRP_CTRL_ACTIVE) (fun g => b2n (s.injActive g)) (n := 8) (fun i j h => by simp only [R.INJ_GRP_CTRL_ACTIVE]; omega) g g.isLt
  rw [State.injShow, wrAll_map]
  exact (congrArg (· != 0) h).trans ((congrArg (· != 0) (b2n_mod2 _)).trans (b2n_ne_zero _))

/-- The registers of the injectors and of their groups. -/
theorem regsBut_injFlds (g : Nat) (h : RegsBut [R.INJ_GRP_CTRL_SWEEP g] s t) (hf : InjFrame t u) : RegsBut (injFlds g) s u.injShow := by
  have h1 : ∀ f ∈ [R.INJ_GRP_CTRL_SWEEP g], f ∈ injFlds g := by simp [injFlds]
  have h2 : ∀ f ∈ injAllFlds, f ∈ injFlds g := by
    intro f hf
    simp only [injAllFlds, injFlds, List.mem_append] at hf ⊢
    tauto
  have h3 : ∀ f ∈ (List.range 8).map R.INJ_GRP_CTRL_ACTIVE, f ∈ injFlds g := by
    intro f hf
    simp only [injFlds, List.mem_append]
    tauto
  exact ((h.mono h1).trans (hf.regs.mono h2)).trans ((regsBut_injShow u).mono h3)

/-! ### The end of an injector -/

theorem injEnd_only (s : State) (i : Nat) (ab : Bool) : InjOnly i s (s.injEnd i ab) := by
  unfold State.injEnd
  split
  · exact .refl i s
  · refine (((InjOnly.refl i s).wr 0 (by simp [injStatFlds])).wr 0 (by simp [injStatFlds])).wr 1 ?_
    split <;> simp [injStatFlds]

/-- An injector after its end. -/
def InjView.ended (x : InjView) (ab : Bool) : InjView := { x with active := false, out := 0, aborted := ab || x.aborted, done := !ab || x.done }

theorem injEnd_view (s : State) (i : Nat) (ab : Bool) : (s.injEnd i ab).injView i = if s.on (R.INJ_STAT_ACTIVE i) then (s.injView i).ended ab else s.injView i := by
  unfold State.injEnd
  cases ha : s.on (R.INJ_STAT_ACTIVE i) with
  | false => simp
  | true =>
    rw [if_neg (by decide), if_pos rfl]
    cases ab <;>
      simp (disch := (simp only [R.INJ_STAT_ACTIVE, R.INJ_STAT_DONE, R.INJ_STAT_ABORTED, R.INJ_STAT_K, R.INJ_OUT_OUT]; omega)) only
        [State.injView, InjView.ended, State.on_wr_ne, State.rd_wr_ne, if_true, if_false, Bool.false_eq_true, Bool.true_or, Bool.false_or, Bool.not_true, Bool.not_false] <;>
      (simp only [State.on_wr_same, State.rd_wr_same, R.INJ_STAT_ACTIVE, R.INJ_STAT_DONE, R.INJ_STAT_ABORTED, R.INJ_OUT_OUT]; rfl)

/-- The injectors of a choice end (R298, R301, R312). -/
theorem injEndAll_values (s : State) (ab : Bool) (p : Nat → Bool) : InjFrame s (((List.range 32).filter p).foldl (fun s i => s.injEnd i ab) s) ∧
    ∀ i < 32, (((List.range 32).filter p).foldl (fun s i => s.injEnd i ab) s).injView i = if p i && s.on (R.INJ_STAT_ACTIVE i) then (s.injView i).ended ab else s.injView i := by
  rw [List.foldl_filter]
  refine foldl_injectors (fun t i _ _ => ?_) (fun t i _ _ hv => ?_)
  · split
    · exact injEnd_only t i ab
    · exact .refl i t
  · have ha : t.on (R.INJ_STAT_ACTIVE i) = s.on (R.INJ_STAT_ACTIVE i) := congrArg InjView.active hv
    cases hp : p i with
    | true => simp only [if_true, Bool.true_and, injEnd_view, ha, hv]
    | false => simpa using hv

end Sys2Proof.Machine
end

section
/-! PROOFS. The commands of injection and of capture streams (R298 to R305 of spec/09_chanter_loops.md). -/

namespace Sys2Proof.Machine

variable {s s1 t : State} {w : Who} {v : BitVec 32} {g : Fin 8} {c : Fin 8}

/-! ### A write of INJ_GRP_CTRL -/

/-- The write of a group's register before its commands: SWEEP alone may change. -/
theorem writeReg_injGrp {k : BitVec 32} (h : s.takes w (0x121800 + 4 * g) k.toNat = true) : ∃ q, OnlyRegs s q ∧ RegsBut [R.INJ_GRP_CTRL_SWEEP g] s q ∧
    s.writeReg w (0x121800 + 4 * g) k.toNat = (((q.when (bit k.toNat 0) (·.injGo g)).when (bit k.toNat 1) (·.injStop g)).when (bit k.toNat 2) (·.injAbort g)).answers .ok 0 [] := by
  obtain ⟨hit, -, hf, e⟩ := writeReg_INJ_GRP_CTRL g h
  rw [bv32_mod] at e
  refine ⟨_, ?_, ?_, e⟩ <;> simp only [State.plainWrite, hf, State.writeFields, State.writeField, fieldOf_nil] <;> split
  · exact (OnlyRegs.refl s).wr _ _
  · exact OnlyRegs.refl s
  · exact regsBut_wr_self s (R.INJ_GRP_CTRL_SWEEP g) _
  · exact RegsBut.refl _ s

theorem sweep_high (h : RegsBut [R.INJ_GRP_CTRL_SWEEP g] s t) {f : Fld} (hf : 0x121840 * 8 ≤ f.key ∨ f.key < 0x121800 * 8) : t.rd f = s.rd f := by
  have hg := g.isLt
  refine h.rd ?_
  simp only [List.map_cons, List.map_nil, List.mem_cons, List.not_mem_nil, or_false, R.INJ_GRP_CTRL_SWEEP]
  omega

theorem injActive_congr (h : ∀ f : Fld, 0x121840 * 8 ≤ f.key → t.rd f = s.rd f) (g : Nat) : t.injActive g = s.injActive g := by
  unfold State.injActive State.on
  congr 1
  funext i
  rw [h _ (by simp only [R.INJ_STAT_ACTIVE]; omega), h _ (by simp only [R.INJ_CFG_GROUP]; omega)]

theorem injView_congr (h : ∀ f : Fld, 0x121840 * 8 ≤ f.key → t.rd f = s.rd f) (hi : t.injs = s.injs) (i : Nat) : t.injView i = s.injView i := by
  unfold State.injView State.on State.inj
  rw [hi, h _ (by simp only [R.INJ_STAT_ACTIVE]; omega), h _ (by simp only [R.INJ_STAT_DONE]; omega), h _ (by simp only [R.INJ_STAT_ABORTED]; omega),
    h _ (by simp only [R.INJ_STAT_K]; omega), h _ (by simp only [R.INJ_OUT_OUT]; omega)]

/-! ### ABORT and PERMIT (R298, R301) -/

theorem injEnd_regs (s : State) (i : Nat) (ab : Bool) : OnlyRegs s (s.injEnd i ab) := by
  unfold State.injEnd
  split
  · exact .refl s
  · exact (((OnlyRegs.refl s).wr _ _).wr _ _).wr _ _

theorem injEndAll_regs (s : State) (ab : Bool) (p : Nat → Bool) : OnlyRegs s (s.injEndAll ab p) :=
  (foldl_keep (OnlyRegs s) _ _ (fun _ i _ h => h.trans (injEnd_regs _ i ab)) (.refl s)).trans (injShow_only _)

theorem injEndAll_view (s : State) (ab : Bool) (p : Nat → Bool) {i : Nat} (hi : i < 32) :
    (s.injEndAll ab p).injView i = if p i && s.on (R.INJ_STAT_ACTIVE i) then (s.injView i).ended ab else s.injView i :=
  (injShow_view _ i).trans ((injEndAll_values s ab p).2 i hi)

theorem injEndAll_ends (s : State) (p : Nat → Bool) {i : Nat} (hi : i < 32) (hp : p i = true) (ha : s.on (R.INJ_STAT_ACTIVE i) = true) :
    (s.injEndAll true p).on (R.INJ_STAT_ACTIVE i) = false ∧ (s.injEndAll true p).on (R.INJ_STAT_ABORTED i) = true ∧ (s.injEndAll true p).rd (R.INJ_OUT_OUT i) = 0 := by
  have hv := injEndAll_view s true p hi
  rw [hp, ha, Bool.and_self, if_pos rfl] at hv
  exact ⟨congrArg InjView.active hv, congrArg InjView.aborted hv, congrArg InjView.out hv⟩

theorem injEndAll_active (s : State) (ab : Bool) (p : Nat → Bool) {i : Nat} (hi : i < 32) :
    (s.injEndAll ab p).on (R.INJ_STAT_ACTIVE i) = (s.on (R.INJ_STAT_ACTIVE i) && !p i) := by
  have hv := congrArg InjView.active (injEndAll_view s ab p hi)
  refine hv.trans ?_
  cases hp : p i <;> cases ha : s.on (R.INJ_STAT_ACTIVE i) <;> simp [State.injView, InjView.ended, ha]

theorem injActive_none {g : Nat} (hf : InjFrame s t) (h : ∀ i < 32, s.rd (R.INJ_CFG_GROUP i) = g → t.on (R.INJ_STAT_ACTIVE i) = false) : t.injActive g = false := by
  refine List.any_eq_false.mpr fun i hi => ?_
  have hg := injFrame_cfg hf (i := i) (f := R.INJ_CFG_GROUP i) (by simp only [R.INJ_CFG_GROUP]; omega)
  rw [hg]
  cases hgi : s.rd (R.INJ_CFG_GROUP i) == g with
  | false => simp
  | true => rw [h i (List.mem_range.mp hi) (beq_iff_eq.mp hgi)]; decide

/-- The injectors of the group have ended, and ACTIVE of the group shows it. -/
theorem injEndAll_group (s : State) (ab : Bool) (p : Nat → Bool) (g : Fin 8) (hp : ∀ i, s.rd (R.INJ_CFG_GROUP i) = g.val → p i = true) :
    (s.injEndAll ab p).on (R.INJ_GRP_CTRL_ACTIVE g) = false := by
  obtain ⟨hfr, hv⟩ := injEndAll_values s ab p
  rw [State.injEndAll]
  generalize (((List.range 32).filter p).foldl (fun s i => s.injEnd i ab) s) = a at hfr hv ⊢
  refine (injShow_group a g).trans (injActive_none hfr fun i hi hg => ?_)
  have ha := congrArg InjView.active (hv i hi)
  rw [hp i hg, Bool.true_and] at ha
  refine (show a.on (R.INJ_STAT_ACTIVE i) = _ from ha).trans ?_
  cases hai : s.on (R.INJ_STAT_ACTIVE i) <;> simp [State.injView, InjView.ended, hai]

/-- What an ABORT of a group leaves, from the state in which SWEEP has been written. -/
theorem injAbort_values {q : State} (hor : OnlyRegs s q) (hbut : RegsBut [R.INJ_GRP_CTRL_SWEEP g] s q) :
    (∀ i < 32, s.on (R.INJ_STAT_ACTIVE i) = true → s.rd (R.INJ_CFG_GROUP i) = g.val →
      (q.injAbort g).on (R.INJ_STAT_ACTIVE i) = false ∧ (q.injAbort g).on (R.INJ_STAT_ABORTED i) = true ∧ (q.injAbort g).rd (R.INJ_OUT_OUT i) = 0) ∧
    (∀ i < 32, s.rd (R.INJ_CFG_GROUP i) ≠ g.val → (q.injAbort g).on (R.INJ_STAT_ACTIVE i) = s.on (R.INJ_STAT_ACTIVE i)) ∧
    (q.injAbort g).on (R.INJ_GRP_CTRL_ACTIVE g) = false ∧ RegsBut (injFlds g) s (q.injAbort g) ∧ OnlyRegs s (q.injAbort g) := by
  have hhigh (f : Fld) (hf : 0x121840 * 8 ≤ f.key) : q.rd f = s.rd f := sweep_high hbut (.inl hf)
  have hact (i : Nat) : q.on (R.INJ_STAT_ACTIVE i) = s.on (R.INJ_STAT_ACTIVE i) := congrArg (· != 0) (hhigh _ (by simp only [R.INJ_STAT_ACTIVE]; omega))
  have hgrp (i : Nat) : q.rd (R.INJ_CFG_GROUP i) = s.rd (R.INJ_CFG_GROUP i) := hhigh _ (by simp only [R.INJ_CFG_GROUP]; omega)
  unfold State.injAbort
  refine ⟨fun i hi ha hg => injEndAll_ends q _ hi (by simp [hgrp, hg]) ((hact i).trans ha), fun i hi hg => ?_,
    injEndAll_group q true _ g fun i hg => by simp [hg], regsBut_injFlds g hbut (injEndAll_values q true _).1, hor.trans (injEndAll_regs q true _)⟩
  refine (injEndAll_active q true _ hi).trans ?_
  simp [hact, hgrp, hg]

theorem leads_injectionAbort (h : s.takes w (0x121800 + 4 * g) (v ||| 4).toNat = true) (hb : bit v.toNat 0 = false ∧ bit v.toNat 1 = false) : Leads s (.injectionAbort w g v) fun t =>
    (∀ i < 32, s.on (R.INJ_STAT_ACTIVE i) = true → s.rd (R.INJ_CFG_GROUP i) = g.val → t.on (R.INJ_STAT_ACTIVE i) = false ∧ t.on (R.INJ_STAT_ABORTED i) = true ∧ t.rd (R.INJ_OUT_OUT i) = 0) ∧
    (∀ i < 32, s.rd (R.INJ_CFG_GROUP i) ≠ g.val → t.on (R.INJ_STAT_ACTIVE i) = s.on (R.INJ_STAT_ACTIVE i)) ∧ t.on (R.INJ_GRP_CTRL_ACTIVE g) = false ∧
    RegsBut (injFlds g) s t ∧ t = { s with regs := t.regs, answer := t.answer } := by
  obtain ⟨q, hor, hbut, e⟩ := writeReg_injGrp h
  rw [(bit_or_of_false (by decide)).trans hb.1, (bit_or_of_false (by decide)).trans hb.2, bit_or_true (by decide), when_false, when_false, when_true] at e
  obtain ⟨hends, hkept, hoff, hall, hor2⟩ := injAbort_values hor hbut
  generalize q.injAbort g = a at *
  exact .intro rfl e ⟨hends, hkept, hoff, hall.of_regs rfl, by rw [hor2]; rfl⟩

/-! ### GO (R299) -/

/-- An injector after a GO that picks it. -/
def State.injGone (s : State) (i : Nat) : InjView :=
  { s.injView i with st := { k := 0, phi := 0, step := s.step, seed := s.runSeed, startAt := s.now, stopping := false }, k := 0,
                     active := s.on (R.INJ_STAT_ACTIVE i) || s.injTotal i != 0, done := s.on (R.INJ_STAT_DONE i) || s.injTotal i == 0 }

/-- The start of one injector, as injGo does it in turn. -/
def State.injStart (s : State) (i : Nat) : State :=
  let s1 := (s.setInj i { k := 0, phi := 0, step := s.step, seed := s.runSeed, startAt := s.now, stopping := false }).wr (R.INJ_STAT_K i) 0
  if s.injTotal i = 0 then s1.wr (R.INJ_STAT_DONE i) 1 else s1.wr (R.INJ_STAT_ACTIVE i) 1

theorem injGo_eq (s : State) (g : Nat) : s.injGo g = if s.injActive g then s.count (R.INJ_GRP_CTRL_RESTART_IGN g) 1 else if !s.on R.CHN_INJ_PERMIT_PERMIT then s
    else (((List.range 32).filter (s.injPicked g)).foldl State.injStart s).injShow := rfl

theorem injStart_only (s : State) (i : Nat) : InjOnly i s (s.injStart i) := by
  unfold State.injStart
  dsimp only
  split <;> exact (((InjOnly.refl i s).setInj _).wr 0 (by simp [injStatFlds])).wr 1 (by simp [injStatFlds])

theorem injStart_view (s : State) {i : Nat} (hi : i < s.injs.length) : (s.injStart i).injView i = s.injGone i := by
  have hrd (x : InjSt) (f : Fld) : (s.setInj i x).rd f = s.rd f := rfl
  have hst (x : InjSt) (f f' : Fld) (a b : Nat) : (((s.setInj i x).wr f a).wr f' b).inj i = x := inj_same s x hi
  unfold State.injStart State.injGone
  dsimp only
  cases h0 : s.injTotal i == 0 with
  | true =>
    rw [if_pos (beq_iff_eq.mp h0)]
    simp (disch := (simp only [R.INJ_STAT_ACTIVE, R.INJ_STAT_DONE, R.INJ_STAT_ABORTED, R.INJ_STAT_K, R.INJ_OUT_OUT]; omega)) only
      [State.injView, hst, State.on_wr_ne, State.rd_wr_ne, hrd]
    simp [State.on_wr_same, State.rd_wr_same, bne, h0, R.INJ_STAT_DONE, R.INJ_STAT_K]
  | false =>
    rw [if_neg (beq_eq_false_iff_ne.mp h0)]
    simp (disch := (simp only [R.INJ_STAT_ACTIVE, R.INJ_STAT_DONE, R.INJ_STAT_ABORTED, R.INJ_STAT_K, R.INJ_OUT_OUT]; omega)) only
      [State.injView, hst, State.on_wr_ne, State.rd_wr_ne, hrd]
    simp [State.on_wr_same, State.rd_wr_same, bne, h0, R.INJ_STAT_ACTIVE, R.INJ_STAT_K]

theorem injFrame_runSeed (h : InjFrame s t) : t.runSeed = s.runSeed := by
  have hr (k : Nat) (hk : k < 4) : t.rd (R.RP_SEED_SEED k) = s.rd (R.RP_SEED_SEED k) := by
    refine h.regs.rd ?_
    simp only [injAllFlds, List.map_append, List.map_map, List.mem_append, List.mem_map, List.mem_range, Function.comp_apply, R.INJ_STAT_ACTIVE, R.INJ_STAT_DONE, R.INJ_STAT_ABORTED, R.INJ_STAT_K, R.INJ_OUT_OUT, R.RP_SEED_SEED]
    rintro ((((⟨j, hj, e⟩ | ⟨j, hj, e⟩) | ⟨j, hj, e⟩) | ⟨j, hj, e⟩) | ⟨j, hj, e⟩) <;> omega
  simp only [State.runSeed, hr 0 (by decide), hr 1 (by decide), hr 2 (by decide), hr 3 (by decide)]

theorem injFrame_total (h : InjFrame s t) (i : Nat) : t.injTotal i = s.injTotal i := by
  simp only [State.injTotal, injFrame_cfg h (i := i) (f := R.INJ_LEN_LEN i) (by simp only [R.INJ_LEN_LEN]; omega), injFrame_cfg h (i := i) (f := R.INJ_CFG_WAVE i) (by simp only [R.INJ_CFG_WAVE]; omega),
    injFrame_cfg h (i := i) (f := R.INJ_DWELL_DWELL i) (by simp only [R.INJ_DWELL_DWELL]; omega)]

theorem injFrame_gone (h : InjFrame s t) {i : Nat} (hv : t.injView i = s.injView i) : t.injGone i = s.injGone i := by
  have hstep : t.step = s.step := by rw [h.only]
  have hnow : t.now = s.now := by rw [h.only]
  have ha : t.on (R.INJ_STAT_ACTIVE i) = s.on (R.INJ_STAT_ACTIVE i) := congrArg InjView.active hv
  have hd : t.on (R.INJ_STAT_DONE i) = s.on (R.INJ_STAT_DONE i) := congrArg InjView.done hv
  simp only [State.injGone, hv, ha, hd, hstep, hnow, injFrame_runSeed h, injFrame_total h i]

/-- The injectors picked start one after the other. -/
theorem injStart_values (hl : s.injs.length = 32) (p : Nat → Bool) : InjFrame s (((List.range 32).filter p).foldl State.injStart s) ∧
    ∀ i < 32, (((List.range 32).filter p).foldl State.injStart s).injView i = if p i then s.injGone i else s.injView i := by
  rw [List.foldl_filter]
  refine foldl_injectors (fun t i _ _ => ?_) (fun t i hi hfr hv => ?_)
  · split
    · exact injStart_only t i
    · exact .refl i t
  · split
    · exact (injStart_view t (by rw [hfr.length, hl]; exact hi)).trans (injFrame_gone hfr hv)
    · exact hv

theorem OnlyRegs.trans_injs (h : OnlyRegs s t) (h' : InjFrame t u) : u.injShow = { s with regs := u.injShow.regs, injs := u.injShow.injs } := by
  have h1 := h'.only
  rw [injShow_only u]
  rw [h] at h1
  rw [h1]

/-- What holds of an injector when the group's registers show what the injectors did, from the state in which SWEEP has been written. -/
theorem injShow_values {q u : State} {F : Nat → InjView} (hor : OnlyRegs s q) (hbut : RegsBut [R.INJ_GRP_CTRL_SWEEP g] s q) (hfr : InjFrame q u) (hv : ∀ i < 32, u.injView i = F i) :
    (∀ i < 32, u.injShow.injView i = F i) ∧ RegsBut (injFlds g) s u.injShow ∧ u.injShow = { s with regs := u.injShow.regs, injs := u.injShow.injs } :=
  ⟨fun i hi => (injShow_view u i).trans (hv i hi), regsBut_injFlds g hbut hfr, hor.trans_injs hfr⟩

theorem injGone_congr {q : State} (hor : OnlyRegs s q) (h : RegsBut [R.INJ_GRP_CTRL_SWEEP g] s q) (i : Nat) : q.injGone i = s.injGone i ∧ q.injView i = s.injView i ∧ ∀ g', q.injPicked g' i = s.injPicked g' i := by
  have hhigh (f : Fld) (hf : 0x121840 * 8 ≤ f.key) : q.rd f = s.rd f := sweep_high h (.inl hf)
  have hlow (f : Fld) (hf : f.key < 0x121800 * 8) : q.rd f = s.rd f := sweep_high h (.inr hf)
  have hv := injView_congr hhigh (by rw [hor]) i
  have ha : q.on (R.INJ_STAT_ACTIVE i) = s.on (R.INJ_STAT_ACTIVE i) := congrArg InjView.active hv
  have hd : q.on (R.INJ_STAT_DONE i) = s.on (R.INJ_STAT_DONE i) := congrArg InjView.done hv
  have hw := hhigh (R.INJ_CFG_WAVE i) (by simp only [R.INJ_CFG_WAVE]; omega)
  have hg := hhigh (R.INJ_CFG_GROUP i) (by simp only [R.INJ_CFG_GROUP]; omega)
  have ht : q.injTotal i = s.injTotal i := by
    simp only [State.injTotal, hw, hhigh (R.INJ_LEN_LEN i) (by simp only [R.INJ_LEN_LEN]; omega), hhigh (R.INJ_DWELL_DWELL i) (by simp only [R.INJ_DWELL_DWELL]; omega)]
  have hs : q.runSeed = s.runSeed := by
    simp only [State.runSeed, hlow (R.RP_SEED_SEED _) (show (R.RP_SEED_SEED 0).key < _ by decide), hlow (R.RP_SEED_SEED _) (show (R.RP_SEED_SEED 1).key < _ by decide),
      hlow (R.RP_SEED_SEED _) (show (R.RP_SEED_SEED 2).key < _ by decide), hlow (R.RP_SEED_SEED _) (show (R.RP_SEED_SEED 3).key < _ by decide)]
  have hstep : q.step = s.step := by rw [hor]
  have hnow : q.now = s.now := by rw [hor]
  exact ⟨by simp only [State.injGone, hv, ha, hd, ht, hs, hstep, hnow], hv, fun g' => by simp only [State.injPicked, hg, hw]⟩

/-- A GO that starts the group. -/
theorem injGo_values {q : State} (hor : OnlyRegs s q) (hbut : RegsBut [R.INJ_GRP_CTRL_SWEEP g] s q) (ha : s.injActive g = false) (hp : s.on R.CHN_INJ_PERMIT_PERMIT = true) (hl : s.injs.length = 32) :
    (∀ i < 32, (q.injGo g).injView i = if s.injPicked g i then s.injGone i else s.injView i) ∧ RegsBut (injFlds g) s (q.injGo g) ∧
    q.injGo g = { s with regs := (q.injGo g).regs, injs := (q.injGo g).injs } := by
  have hhigh (f : Fld) (hf : 0x121840 * 8 ≤ f.key) : q.rd f = s.rd f := sweep_high hbut (.inl hf)
  have hp' : q.on R.CHN_INJ_PERMIT_PERMIT = true := (congrArg (· != 0) (hhigh R.CHN_INJ_PERMIT_PERMIT (by decide))).trans hp
  have hl' : q.injs.length = 32 := by rw [hor]; exact hl
  rw [injGo_eq, (injActive_congr hhigh g).trans ha, hp', if_neg (by decide), if_neg (by decide)]
  obtain ⟨hfr, hv⟩ := injStart_values hl' (q.injPicked g)
  refine injShow_values hor hbut hfr fun i hi => (hv i hi).trans ?_
  obtain ⟨h1, h2, h3⟩ := injGone_congr hor hbut i
  rw [h1, h2, h3]

theorem leads_injectionGo (h : s.takes w (0x121800 + 4 * g) (v ||| 1).toNat = true) (hb : bit v.toNat 1 = false ∧ bit v.toNat 2 = false) (hs : s.injActive g = false ∧ s.on R.CHN_INJ_PERMIT_PERMIT = true)
    (hl : s.injs.length = 32) : Leads s (.injectionGo w g v) fun t =>
    (∀ i < 32, t.inj i = if s.injPicked g i then { k := 0, phi := 0, step := s.step, seed := s.runSeed, startAt := s.now, stopping := false } else s.inj i) ∧
    (∀ i < 32, t.on (R.INJ_STAT_ACTIVE i) = (s.on (R.INJ_STAT_ACTIVE i) || (s.injPicked g i && s.injTotal i != 0))) ∧
    (∀ i < 32, t.on (R.INJ_STAT_DONE i) = (s.on (R.INJ_STAT_DONE i) || (s.injPicked g i && s.injTotal i == 0))) ∧
    (∀ i < 32, s.injPicked g i = true → t.rd (R.INJ_STAT_K i) = 0) ∧ RegsBut (injFlds g) s t ∧ t = { s with regs := t.regs, injs := t.injs, answer := t.answer } := by
  obtain ⟨q, hor, hbut, e⟩ := writeReg_injGrp h
  rw [(bit_or_of_false (by decide)).trans hb.1, (bit_or_of_false (by decide)).trans hb.2, bit_or_true (by decide), when_true, when_false, when_false] at e
  obtain ⟨hv, hall, hor2⟩ := injGo_values hor hbut hs.1 hs.2 hl
  generalize q.injGo g = a at *
  refine .intro rfl e ⟨fun i hi => (congrArg InjView.st (hv i hi)).trans ?_, fun i hi => (congrArg InjView.active (hv i hi)).trans ?_, fun i hi => (congrArg InjView.done (hv i hi)).trans ?_,
    fun i hi hp => (congrArg InjView.k (hv i hi)).trans (by rw [hp]; rfl), hall.of_regs rfl, by rw [hor2]; rfl⟩
  all_goals cases s.injPicked g i <;> simp [State.injGone, State.injView]

theorem leads_injectionGo_ignored (h : s.takes w (0x121800 + 4 * g) (v ||| 1).toNat = true) (hb : bit v.toNat 1 = false ∧ bit v.toNat 2 = false) (ha : s.injActive g = true) : Leads s (.injectionGo w g v) fun t =>
    t.rd (R.INJ_GRP_CTRL_RESTART_IGN g) = satAdd 16 (s.rd (R.INJ_GRP_CTRL_RESTART_IGN g)) 1 ∧ RegsBut [R.INJ_GRP_CTRL_SWEEP g, R.INJ_GRP_CTRL_RESTART_IGN g] s t ∧ t = { s with regs := t.regs, answer := t.answer } := by
  obtain ⟨q, hor, hbut, e⟩ := writeReg_injGrp h
  rw [(bit_or_of_false (by decide)).trans hb.1, (bit_or_of_false (by decide)).trans hb.2, bit_or_true (by decide), when_true, when_false, when_false, injGo_eq,
    (injActive_congr (fun f hf => sweep_high hbut (.inl hf)) g).trans ha, if_pos rfl] at e
  have hign : q.rd (R.INJ_GRP_CTRL_RESTART_IGN g) = s.rd (R.INJ_GRP_CTRL_RESTART_IGN g) := hbut.rd (by simp [R.INJ_GRP_CTRL_RESTART_IGN, R.INJ_GRP_CTRL_SWEEP])
  have hc : (q.count (R.INJ_GRP_CTRL_RESTART_IGN g) 1).rd (R.INJ_GRP_CTRL_RESTART_IGN g) = satAdd 16 (s.rd (R.INJ_GRP_CTRL_RESTART_IGN g)) 1 := (rd_count_same q _ 1).trans (by rw [hign]; rfl)
  have hall : RegsBut [R.INJ_GRP_CTRL_SWEEP g, R.INJ_GRP_CTRL_RESTART_IGN g] s (q.count (R.INJ_GRP_CTRL_RESTART_IGN g) 1) :=
    (regsBut_wr (by simp)).mpr (hbut.mono (by simp))
  exact .intro rfl e ⟨hc, hall.of_regs rfl, by rw [hor]; rfl⟩

/-! ### STOP (R301) -/

/-- The end of a period is now: a constant wave, or a PRBS that has held its draw. -/
def State.injAtEnd (s : State) (i : Nat) : Bool :=
  decide (s.rd (R.INJ_CFG_WAVE i) = 1 ∨ (s.rd (R.INJ_CFG_WAVE i) = 2 ∧ (s.inj i).k % (s.rd (R.INJ_CFG_HOLD i) + 1) = 0))

/-- A STOP of one injector. -/
def State.injHalt (s : State) (g i : Nat) : State :=
  if !s.on (R.INJ_STAT_ACTIVE i) || s.rd (R.INJ_CFG_GROUP i) != g then s
  else if s.injAtEnd i then s.injEnd i false else s.setInj i { s.inj i with stopping := true }

/-- An injector after a STOP of a group. -/
def State.injHalted (s : State) (g i : Nat) : InjView :=
  if !s.on (R.INJ_STAT_ACTIVE i) || s.rd (R.INJ_CFG_GROUP i) != g then s.injView i
  else if s.injAtEnd i then (s.injView i).ended false else { s.injView i with st := { s.inj i with stopping := true } }

theorem injStop_eq (s : State) (g : Nat) : s.injStop g = ((List.range 32).foldl (fun s i => s.injHalt g i) s).injShow := by
  unfold State.injStop State.injHalt State.injAtEnd
  simp only [decide_eq_true_eq]

theorem injHalt_only (s : State) (g i : Nat) : InjOnly i s (s.injHalt g i) := by
  unfold State.injHalt
  split
  · exact .refl i s
  · split
    · exact injEnd_only s i false
    · exact (InjOnly.refl i s).setInj _

theorem injHalt_view (s : State) (g : Nat) {i : Nat} (hi : i < s.injs.length) : (s.injHalt g i).injView i = s.injHalted g i := by
  unfold State.injHalt State.injHalted
  split
  · rfl
  · next hc =>
    have ha : s.on (R.INJ_STAT_ACTIVE i) = true := by
      cases h : s.on (R.INJ_STAT_ACTIVE i) <;> simp [h] at hc ⊢
    split
    · exact (injEnd_view s i false).trans (by rw [ha, if_pos rfl])
    · exact congrArg (fun x => { s.injView i with st := x }) (inj_same s _ hi)

/-- The STOP of an injector looks at its configuration and at what is known of it. -/
theorem injHalted_congr {g i : Nat} (hw : t.rd (R.INJ_CFG_WAVE i) = s.rd (R.INJ_CFG_WAVE i)) (hg : t.rd (R.INJ_CFG_GROUP i) = s.rd (R.INJ_CFG_GROUP i)) (hh : t.rd (R.INJ_CFG_HOLD i) = s.rd (R.INJ_CFG_HOLD i))
    (hv : t.injView i = s.injView i) : t.injHalted g i = s.injHalted g i := by
  have ha : t.on (R.INJ_STAT_ACTIVE i) = s.on (R.INJ_STAT_ACTIVE i) := congrArg InjView.active hv
  have hi : t.inj i = s.inj i := congrArg InjView.st hv
  simp only [State.injHalted, State.injAtEnd, hw, hg, hh, hv, ha, hi] <;> rfl

theorem injHalt_values (hl : s.injs.length = 32) (g : Nat) : InjFrame s ((List.range 32).foldl (fun s i => s.injHalt g i) s) ∧
    ∀ i < 32, ((List.range 32).foldl (fun s i => s.injHalt g i) s).injView i = s.injHalted g i :=
  foldl_injectors (fun t i _ _ => injHalt_only t g i) fun t i hi hfr hv => (injHalt_view t g (by rw [hfr.length, hl]; exact hi)).trans
    (injHalted_congr (injFrame_cfg hfr (i := i) (by simp only [R.INJ_CFG_WAVE]; omega)) (injFrame_cfg hfr (i := i) (by simp only [R.INJ_CFG_GROUP]; omega)) (injFrame_cfg hfr (i := i) (by simp only [R.INJ_CFG_HOLD]; omega)) hv)

theorem injStop_values {q : State} (hor : OnlyRegs s q) (hbut : RegsBut [R.INJ_GRP_CTRL_SWEEP g] s q) (hl : s.injs.length = 32) :
    (∀ i < 32, (q.injStop g).injView i = s.injHalted g i) ∧ RegsBut (injFlds g) s (q.injStop g) ∧ q.injStop g = { s with regs := (q.injStop g).regs, injs := (q.injStop g).injs } := by
  have hhigh (f : Fld) (hf : 0x121840 * 8 ≤ f.key) : q.rd f = s.rd f := sweep_high hbut (.inl hf)
  have hl' : q.injs.length = 32 := by rw [hor]; exact hl
  rw [injStop_eq]
  obtain ⟨hfr, hv⟩ := injHalt_values hl' g
  refine injShow_values hor hbut hfr fun i hi => (hv i hi).trans (injHalted_congr ?_ ?_ ?_ (injView_congr hhigh (by rw [hor]) i))
  all_goals exact hhigh _ (by simp only [R.INJ_CFG_WAVE, R.INJ_CFG_GROUP, R.INJ_CFG_HOLD]; omega)

theorem injHalted_picked {i : Nat} (ha : s.on (R.INJ_STAT_ACTIVE i) = true) (hg : s.rd (R.INJ_CFG_GROUP i) = g.val) :
    s.injHalted g i = if s.injAtEnd i then (s.injView i).ended false else { s.injView i with st := { s.inj i with stopping := true } } := by
  simp [State.injHalted, ha, hg]

theorem injHalted_other {i : Nat} (h : s.on (R.INJ_STAT_ACTIVE i) = false ∨ s.rd (R.INJ_CFG_GROUP i) ≠ g.val) : s.injHalted g i = s.injView i := by
  rcases h with h | h <;> simp [State.injHalted, h]

theorem leads_injectionStop (h : s.takes w (0x121800 + 4 * g) (v ||| 2).toNat = true) (hb : bit v.toNat 0 = false ∧ bit v.toNat 2 = false) (hl : s.injs.length = 32) : Leads s (.injectionStop w g v) fun t =>
    (∀ i < 32, s.on (R.INJ_STAT_ACTIVE i) = true → s.rd (R.INJ_CFG_GROUP i) = g.val →
      (if s.rd (R.INJ_CFG_WAVE i) = 1 ∨ (s.rd (R.INJ_CFG_WAVE i) = 2 ∧ (s.inj i).k % (s.rd (R.INJ_CFG_HOLD i) + 1) = 0) then
        t.on (R.INJ_STAT_ACTIVE i) = false ∧ t.on (R.INJ_STAT_DONE i) = true ∧ t.rd (R.INJ_OUT_OUT i) = 0
       else t.on (R.INJ_STAT_ACTIVE i) = true ∧ t.inj i = { s.inj i with stopping := true })) ∧
    (∀ i < 32, s.on (R.INJ_STAT_ACTIVE i) = false ∨ s.rd (R.INJ_CFG_GROUP i) ≠ g.val → t.inj i = s.inj i ∧ t.on (R.INJ_STAT_ACTIVE i) = s.on (R.INJ_STAT_ACTIVE i)) ∧
    RegsBut (injFlds g) s t ∧ t = { s with regs := t.regs, injs := t.injs, answer := t.answer } := by
  obtain ⟨q, hor, hbut, e⟩ := writeReg_injGrp h
  rw [(bit_or_of_false (by decide)).trans hb.1, (bit_or_of_false (by decide)).trans hb.2, bit_or_true (by decide), when_false, when_true, when_false] at e
  obtain ⟨hv, hall, hor2⟩ := injStop_values hor hbut hl
  generalize q.injStop g = a at *
  refine .intro rfl e ⟨fun i hi ha hg => ?_, fun i hi ho => ?_, hall.of_regs rfl, by rw [hor2]; rfl⟩
  · have hvi := (hv i hi).trans (injHalted_picked ha hg)
    split
    · next hc =>
      rw [State.injAtEnd, decide_eq_true hc, if_pos rfl] at hvi
      exact ⟨congrArg InjView.active hvi, congrArg InjView.done hvi, congrArg InjView.out hvi⟩
    · next hc =>
      rw [State.injAtEnd, decide_eq_false hc, if_neg (by decide)] at hvi
      exact ⟨(congrArg InjView.active hvi).trans ha, congrArg InjView.st hvi⟩
  · have hvi := (hv i hi).trans (injHalted_other ho)
    exact ⟨congrArg InjView.st hvi, congrArg InjView.active hvi⟩

/-! ### PERMIT (R298) -/

theorem leads_permitWrite_off (h : s.takes w 0x121840 v.toNat = true) (h0 : bit v.toNat 0 = false) : Leads s (.permitWrite w v) fun t =>
    t.on R.CHN_INJ_PERMIT_PERMIT = false ∧ (∀ i < 32, t.on (R.INJ_STAT_ACTIVE i) = false) ∧ (∀ i < 32, s.on (R.INJ_STAT_ACTIVE i) = true → t.on (R.INJ_STAT_ABORTED i) = true ∧ t.rd (R.INJ_OUT_OUT i) = 0) ∧
    RegsBut ([R.CHN_INJ_PERMIT_PERMIT] ++ injFlds 0) s t ∧ t = { s with regs := t.regs, answer := t.answer } := by
  have e := writeReg_INJ_PERMIT h
  rw [bv32_mod, h0, State.writePermit] at e
  simp only [Bool.false_eq_true, if_false] at e
  have hbut : RegsBut [R.CHN_INJ_PERMIT_PERMIT] s (s.wr R.CHN_INJ_PERMIT_PERMIT 0) := regsBut_wr_self s _ 0
  have hoff : (s.wr R.CHN_INJ_PERMIT_PERMIT 0).on R.CHN_INJ_PERMIT_PERMIT = false := State.on_wr_same s _ 0
  have hact (i : Nat) : (s.wr R.CHN_INJ_PERMIT_PERMIT 0).on (R.INJ_STAT_ACTIVE i) = s.on (R.INJ_STAT_ACTIVE i) := State.on_wr_ne s 0 (by simp only [R.INJ_STAT_ACTIVE, R.CHN_INJ_PERMIT_PERMIT]; omega)
  have hor : OnlyRegs s (s.wr R.CHN_INJ_PERMIT_PERMIT 0) := (OnlyRegs.refl s).wr _ _
  rw [show b2n false = 0 from rfl] at e
  generalize s.wr R.CHN_INJ_PERMIT_PERMIT 0 = q at e hbut hoff hact hor
  have hends (i : Nat) (hi : i < 32) (ha : s.on (R.INJ_STAT_ACTIVE i) = true) := injEndAll_ends q (fun _ => true) hi rfl ((hact i).trans ha)
  have hnone (i : Nat) (hi : i < 32) : (q.injEndAll true fun _ => true).on (R.INJ_STAT_ACTIVE i) = false := (injEndAll_active q true _ hi).trans (by simp)
  have hall := regsBut_injFlds 0 (RegsBut.refl _ q) (injEndAll_values q true fun _ => true).1
  have hor2 := hor.trans (injEndAll_regs q true fun _ => true)
  have hp : (q.injEndAll true fun _ => true).on R.CHN_INJ_PERMIT_PERMIT = false := (congrArg (· != 0) (hall.rd (by decide))).trans hoff
  change RegsBut (injFlds 0) q (q.injEndAll true fun _ => true) at hall
  generalize (q.injEndAll true fun _ => true) = a at *
  exact .intro rfl e ⟨hp, hnone, fun i hi ha => (hends i hi ha).2, ((hbut.mono (by simp)).trans (hall.mono fun f hf => List.mem_append_right _ hf)).of_regs rfl, by rw [hor2]; rfl⟩

theorem leads_permitWrite_on (h : s.takes w 0x121840 v.toNat = true) (h0 : bit v.toNat 0 = true) : Leads s (.permitWrite w v) fun t =>
    t.on R.CHN_INJ_PERMIT_PERMIT = true ∧ RegsBut [R.CHN_INJ_PERMIT_PERMIT] s t ∧ t = { s with regs := t.regs, answer := t.answer } := by
  have e := writeReg_INJ_PERMIT h
  rw [bv32_mod, h0, State.writePermit, if_pos rfl] at e
  exact .intro rfl e ⟨State.on_wr_same s R.CHN_INJ_PERMIT_PERMIT 1, RegsBut.of_regs (regsBut_wr_self s R.CHN_INJ_PERMIT_PERMIT 1) rfl, rfl⟩

end Sys2Proof.Machine
end

section
/-! PROOFS. The commands of capture streams (R304, R305 of spec/09_chanter_loops.md). -/

namespace Sys2Proof.Machine

variable {s s1 t : State} {w : Who} {v : BitVec 32} {c : Fin 8}

/-! ### CAP_CFG (R304) -/

theorem capFields_regs (s : State) (c w : Nat) : OnlyRegs s (s.capFields c w) := by
  unfold State.capFields
  split
  · exact (OnlyRegs.refl s).wrAll _
  · exact .refl s

theorem capFields_rd (s : State) (c w : Nat) {f : Fld} (hn : f.key ∉ [(R.CAP_CFG_SLOT c).key, (R.CAP_CFG_DRONE c).key, (R.CAP_CFG_WRAP c).key, (R.CAP_CFG_INJ_GROUP c).key, (R.CAP_CFG_DEC c).key]) :
    (s.capFields c w).rd f = s.rd f := by
  simp only [List.mem_cons, List.not_mem_nil, or_false, not_or] at hn
  unfold State.capFields
  split
  · simp only [State.wrAll]
    rw [State.rd_wr_ne _ _ hn.2.2.2.2, State.rd_wr_ne _ _ hn.2.2.2.1, State.rd_wr_ne _ _ hn.2.2.1, State.rd_wr_ne _ _ hn.2.1, State.rd_wr_ne _ _ hn.1]
  · rfl

theorem capFields_kept (s : State) (c w : Nat) : (s.capFields c w).rd (R.CAP_BASE_LO_BASE c) = s.rd (R.CAP_BASE_LO_BASE c) ∧ (s.capFields c w).rd (R.CAP_BASE_HI_BASE c) = s.rd (R.CAP_BASE_HI_BASE c) ∧
    (s.capFields c w).rd (R.CAP_SIZE_SIZE c) = s.rd (R.CAP_SIZE_SIZE c) ∧ (s.capFields c w).rd (R.CAP_SEQ_SEQ c) = s.rd (R.CAP_SEQ_SEQ c) := by
  refine ⟨?_, ?_, ?_, ?_⟩ <;>
    (refine capFields_rd s c w ?_
     simp only [R.CAP_BASE_LO_BASE, R.CAP_BASE_HI_BASE, R.CAP_SIZE_SIZE, R.CAP_SEQ_SEQ, R.CAP_CFG_SLOT, R.CAP_CFG_DRONE, R.CAP_CFG_WRAP, R.CAP_CFG_INJ_GROUP, R.CAP_CFG_DEC, List.mem_cons, List.not_mem_nil, or_false]
     omega)

/-- The write of CAP_CFG that enables a stream starts it. -/
theorem writeCapCfg_start {w c : Nat} (h : bit w 0 = true ∧ s.on (R.CAP_CFG_ENABLE c) = false) : s.writeCapCfg c w = (s.capFields c w).capStart c (s.rd (R.CAP_SEQ_SEQ c)) := by
  rw [← (capFields_kept s c w).2.2.2]
  unfold State.writeCapCfg State.capFields
  simp only [h.1, h.2, Bool.not_true, Bool.not_false, Bool.false_eq_true, if_false]

theorem capStart_good {q : State} {c n : Nat} (h : capRingOk (q.rd (R.CAP_BASE_LO_BASE c) * 64 + q.rd (R.CAP_BASE_HI_BASE c) * 2 ^ 32) (q.rd (R.CAP_SIZE_SIZE c)) = true) :
    q.capStart c n = (q.setCap c { seq := n }).wrAll [(R.CAP_CFG_ENABLE c, 1), (R.CAP_STAT_ACTIVE c, 1), (R.CAP_WR_WR c, 0)] := by
  unfold State.capStart
  simp only [h, Bool.not_true, Bool.false_eq_true, if_false]

theorem capStart_bad {q : State} {c n : Nat} (h : capRingOk (q.rd (R.CAP_BASE_LO_BASE c) * 64 + q.rd (R.CAP_BASE_HI_BASE c) * 2 ^ 32) (q.rd (R.CAP_SIZE_SIZE c)) = false) :
    q.capStart c n = q.wr (R.CAP_STAT_REJ c) 1 := by
  unfold State.capStart
  simp only [h, Bool.not_false, if_true]

theorem cap_same (s : State) {x : Nat} (v : CapSt) (h : x < s.caps.length) : (s.setCap x v).caps.getD x {} = v := by
  simp [State.setCap, List.getD_eq_getElem?_getD, h]

theorem cap_ne (s : State) {x y : Nat} (v : CapSt) (h : y ≠ x) : (s.setCap x v).caps.getD y {} = s.caps.getD y {} := by
  simp [State.setCap, List.getD_eq_getElem?_getD, List.getElem?_set_ne (Ne.symm h)]

/-- The registers of a stream as it starts. -/
theorem capStarted_values (s : State) (c : Nat) :
    (s.wrAll [(R.CAP_CFG_ENABLE c, 1), (R.CAP_STAT_ACTIVE c, 1), (R.CAP_WR_WR c, 0)]).on (R.CAP_CFG_ENABLE c) = true ∧
    (s.wrAll [(R.CAP_CFG_ENABLE c, 1), (R.CAP_STAT_ACTIVE c, 1), (R.CAP_WR_WR c, 0)]).on (R.CAP_STAT_ACTIVE c) = true ∧
    (s.wrAll [(R.CAP_CFG_ENABLE c, 1), (R.CAP_STAT_ACTIVE c, 1), (R.CAP_WR_WR c, 0)]).rd (R.CAP_WR_WR c) = 0 := by
  refine ⟨?_, ?_, State.rd_wr_same _ (R.CAP_WR_WR c) 0⟩
  · simp (disch := (simp only [R.CAP_CFG_ENABLE, R.CAP_STAT_ACTIVE, R.CAP_WR_WR]; omega)) only [State.wrAll, State.on_wr_ne]
    exact State.on_wr_same s (R.CAP_CFG_ENABLE c) 1
  · simp (disch := (simp only [R.CAP_CFG_ENABLE, R.CAP_STAT_ACTIVE, R.CAP_WR_WR]; omega)) only [State.wrAll, State.on_wr_ne]
    exact State.on_wr_same _ (R.CAP_STAT_ACTIVE c) 1

theorem leads_captureEnable (h : s.takes w (0x122400 + 0x40 * c) v.toNat = true) (h1 : s1 = s.capFields c v.toNat) (hs : bit v.toNat 0 = true ∧ s.on (R.CAP_CFG_ENABLE c) = false ∧ c.val < s.caps.length)
    (hr : capRingOk (s.rd (R.CAP_BASE_LO_BASE c) * 64 + s.rd (R.CAP_BASE_HI_BASE c) * 2 ^ 32) (s.rd (R.CAP_SIZE_SIZE c)) = true) : Leads s (.captureEnable w c v) fun t =>
    t.on (R.CAP_CFG_ENABLE c) = true ∧ t.on (R.CAP_STAT_ACTIVE c) = true ∧ t.rd (R.CAP_WR_WR c) = 0 ∧ t.caps.getD c {} = { seq := s.rd (R.CAP_SEQ_SEQ c) } ∧
    (∀ x, x ≠ c.val → t.caps.getD x {} = s.caps.getD x {}) ∧ RegsBut [R.CAP_CFG_ENABLE c, R.CAP_STAT_ACTIVE c, R.CAP_WR_WR c] s1 t ∧ t = { s with regs := t.regs, caps := t.caps, answer := t.answer } := by
  subst h1
  obtain ⟨h0, hoff, hc⟩ := hs
  obtain ⟨hlo, hhi, hsz, -⟩ := capFields_kept s c v.toNat
  have e := writeReg_CAP_CFG c h
  rw [bv32_mod, writeCapCfg_start ⟨h0, hoff⟩, capStart_good (by rw [hlo, hhi, hsz]; exact hr)] at e
  have hor := capFields_regs s c v.toNat
  generalize s.capFields c v.toNat = q at e hor ⊢
  have hcaps : q.caps = s.caps := by rw [hor]
  obtain ⟨he, ha, hw⟩ := capStarted_values (q.setCap c { seq := s.rd (R.CAP_SEQ_SEQ c) }) c
  have hbut : RegsBut [R.CAP_CFG_ENABLE c, R.CAP_STAT_ACTIVE c, R.CAP_WR_WR c] q
      ((q.setCap c { seq := s.rd (R.CAP_SEQ_SEQ c) }).wrAll [(R.CAP_CFG_ENABLE c, 1), (R.CAP_STAT_ACTIVE c, 1), (R.CAP_WR_WR c, 0)]) := by
    simp [State.wrAll, RegsBut.of_regs (RegsBut.refl _ q) (show (q.setCap c { seq := s.rd (R.CAP_SEQ_SEQ c) }).regs = q.regs from rfl)]
  have hr2 : OnlyRegs (q.setCap c { seq := s.rd (R.CAP_SEQ_SEQ c) }) ((q.setCap c { seq := s.rd (R.CAP_SEQ_SEQ c) }).wrAll [(R.CAP_CFG_ENABLE c, 1), (R.CAP_STAT_ACTIVE c, 1), (R.CAP_WR_WR c, 0)]) :=
    (OnlyRegs.refl _).wrAll _
  generalize (q.setCap c { seq := s.rd (R.CAP_SEQ_SEQ c) }).wrAll [(R.CAP_CFG_ENABLE c, 1), (R.CAP_STAT_ACTIVE c, 1), (R.CAP_WR_WR c, 0)] = a at *
  have hac : a.caps = (q.setCap c { seq := s.rd (R.CAP_SEQ_SEQ c) }).caps := by rw [hr2]
  refine .intro rfl e ⟨he, ha, hw, ?_, fun x hx => ?_, hbut.of_regs rfl, by rw [hr2, hor]; rfl⟩
  · exact (congrArg (fun l : List CapSt => l.getD c {}) hac).trans (cap_same q _ (by rw [hcaps]; exact hc))
  · exact (congrArg (fun l : List CapSt => l.getD x {}) hac).trans ((cap_ne q _ hx).trans (by rw [hcaps]))

theorem leads_captureEnable_rejected (h : s.takes w (0x122400 + 0x40 * c) v.toNat = true) (h1 : s1 = s.capFields c v.toNat) (hs : bit v.toNat 0 = true ∧ s.on (R.CAP_CFG_ENABLE c) = false)
    (hr : capRingOk (s.rd (R.CAP_BASE_LO_BASE c) * 64 + s.rd (R.CAP_BASE_HI_BASE c) * 2 ^ 32) (s.rd (R.CAP_SIZE_SIZE c)) = false) : Leads s (.captureEnable w c v) fun t =>
    t.on (R.CAP_STAT_REJ c) = true ∧ RegsBut [R.CAP_STAT_REJ c] s1 t ∧ t = { s with regs := t.regs, answer := t.answer } := by
  subst h1
  obtain ⟨hlo, hhi, hsz, -⟩ := capFields_kept s c v.toNat
  have e := writeReg_CAP_CFG c h
  rw [bv32_mod, writeCapCfg_start hs, capStart_bad (by rw [hlo, hhi, hsz]; exact hr)] at e
  have hor := capFields_regs s c v.toNat
  generalize s.capFields c v.toNat = q at e hor ⊢
  exact .intro rfl e ⟨State.on_wr_same q (R.CAP_STAT_REJ c) 1, RegsBut.of_regs (regsBut_wr_self q (R.CAP_STAT_REJ c) 1) rfl, by rw [hor]; rfl⟩

/-! ### A record on its way (R305) -/

theorem capComplete_written {c a : Nat} {l : List Byte} {rest : List (Nat × List Byte)} (hj : (s.caps.getD c {}).jobs = (a, l) :: rest) (hok : (s.localWrite chnWho (s.stamp a) a l).2 = .ok)
    (ht : s.on (R.CAP_TOKEN_TOK_EN c) = false) : s.capComplete c = (s.localWrite chnWho (s.stamp a) a l).1.setCap c
      { s.caps.getD c {} with jobs := rest, sinceTok := if s.rd (R.CAP_TOKEN_EVERY c) < (s.caps.getD c {}).sinceTok + 1 then 0 else (s.caps.getD c {}).sinceTok + 1 } := by
  unfold State.capComplete
  simp only [hj, hok, ht, ne_eq, not_true_eq_false, if_false, Bool.false_and, Bool.false_eq_true]

theorem leads_captureWriteComplete {a code p : Nat} {l : List Byte} {rest : List (Nat × List Byte)} (hj : (s.caps.getD c {}).jobs = (a, l) :: rest ∧ c.val < s.caps.length)
    (ha : s.memAdmit chnWho (s.stamp a) a l.length true = (s, .ok, code, p)) (hc : ∀ wa ∈ wordsOf (eccWord code) p l.length, tget 0 s.ecc wa = 0)
    (hi : s.on R.MEM_INJ_CTRL_ARM = false ∧ s.on (R.CAP_TOKEN_TOK_EN c) = false) : Leads s (.captureWriteComplete c) fun t =>
    (∀ b, t.getByte b = if p ≤ b ∧ b < p + l.length then l.getD (b - p) 0 else s.getByte b) ∧
    t.caps.getD c {} = { s.caps.getD c {} with jobs := rest, sinceTok := if s.rd (R.CAP_TOKEN_EVERY c) < (s.caps.getD c {}).sinceTok + 1 then 0 else (s.caps.getD c {}).sinceTok + 1 } ∧
    (∀ x, x ≠ c.val → t.caps.getD x {} = s.caps.getD x {}) ∧ RegsBut [] s t ∧ t = { s with caps := t.caps, mem := t.mem, ecc := t.ecc, wb := t.wb, resv := t.resv, units := t.units } := by
  obtain ⟨hok, hby, -, -, hfr⟩ := writeMem_clean (w := chnWho) (data := l) hc hi.1
  rw [← localWrite_admitted ha] at hok hby hfr
  have e := capComplete_written hj.1 hok hi.2
  generalize { s.caps.getD c {} with jobs := rest, sinceTok := if s.rd (R.CAP_TOKEN_EVERY c) < (s.caps.getD c {}).sinceTok + 1 then 0 else (s.caps.getD c {}).sinceTok + 1 } = x at e ⊢
  generalize (s.localWrite chnWho (s.stamp a) a l).1 = q at *
  have hcaps : q.caps = s.caps := by rw [hfr]
  have hregs : q.regs = s.regs := by rw [hfr]
  refine .intro rfl e ⟨hby, cap_same q x (by rw [hcaps]; exact hj.2), fun y hy => (cap_ne q x hy).trans (by rw [hcaps]), RegsBut.of_regs (RegsBut.refl _ s) hregs, by rw [hfr]; rfl⟩

/-- Settles O31: for the injectors, one after the other; for a group, what its injectors show; for a stream, its start and the write of its oldest record. -/
theorem injectionCapture : Obligations.InjectionCapture := by
  unfold Obligations.InjectionCapture
  refine ⟨?go, ?ignored, ?stop, ?abort, ?permitOff, ?permitOn, ?enable, ?rejected, ?complete⟩
  case go => exact fun s w g v h hb hs hl => leads_injectionGo h hb hs hl
  case ignored => exact fun s w g v h hb ha => leads_injectionGo_ignored h hb ha
  case stop => exact fun s w g v h hb hl => leads_injectionStop h hb hl
  case abort => exact fun s w g v h hb => leads_injectionAbort h hb
  case permitOff => exact fun s w v h h0 => leads_permitWrite_off h h0
  case permitOn => exact fun s w v h h0 => leads_permitWrite_on h h0
  case enable => exact fun s s1 w c v h h1 hs hr => leads_captureEnable h h1 hs hr
  case rejected => exact fun s s1 w c v h h1 hs hr => leads_captureEnable_rejected h h1 hs hr
  case complete => exact fun s c a l rest code p hj ha hc hi => leads_captureWriteComplete hj ha hc hi

end Sys2Proof.Machine
end

section
/-! PROOFS. The control cycle and the mailboxes (R39, R261, R365 of spec/02_drones_external_time.md, spec/08_chanter_law.md). -/

namespace Sys2Proof.Machine

/-- Drone 0 is LOCKED and one cycle short of phase 0; phase-cut channel 0 runs on it and takes its command from mailbox 0, which holds 1. -/
def mailboxChannel : State :=
  { (State.reset.wrAll [(R.DRN_STAT_STATE 0, 2), (R.PC_STAT_STATE 0, 2), (R.PC_SRC_SEL 0, 5)]).setDrone 0 { acc := (2 ^ 32 - 1) * 2 ^ 32, f := 2 ^ 32 } with
    aligned := true, unknown := [], mem := [(0x4010000, 1)], boot := { State.reset.boot with porst := false } }

set_option Elab.async false in
/-- The channel's cycle starts with the control cycle, and its read of the mailbox copies the word (R261). -/
theorem mailboxChannel_copies : mailboxChannel.controlCycle.mem ≠ mailboxChannel.mem := by decide +kernel

set_option Elab.async false in
theorem mailboxChannel_met : (mailboxChannel.aligned = true ∧ mailboxChannel.boot.porst = false) ∧ (0 < 16 ∧ 0 < mailboxChannel.drones.length) ∧ (mailboxChannel.drnState 0 ≠ 0 ∧ (mailboxChannel.drone 0).ops = []) := by
  decide +kernel

/-- Refutes O32: the first clause says that a control cycle keeps every byte of memory, while a phase-cut channel whose cycle starts in it
reads its mailbox, which copies the word read beside it. -/
theorem not_droneCycle : ¬ Obligations.DroneCycle := by
  unfold Obligations.DroneCycle
  rintro ⟨hcycle, -⟩
  obtain ⟨h1, h2, h3⟩ := mailboxChannel_met
  obtain ⟨t, ht, -, -, -, -, -, -, -, -, -, hmem, -⟩ := hcycle mailboxChannel 0 h1 h2 h3
  have e : t = mailboxChannel.controlCycle := (Host.Outcome.next.inj ((show exec .droneCycle mailboxChannel = .next mailboxChannel.controlCycle from rfl).symm.trans ht)).symm
  exact mailboxChannel_copies (e ▸ hmem)

end Sys2Proof.Machine
end

section
/-! PROOFS. The commands of Drones (R45, R49, R56, R60, R67, R69, R74, R787 of spec/02_drones_external_time.md). -/

namespace Sys2Proof.Machine

variable {s s1 t : State} {w : Who} {d e : Fin 16} {v : BitVec 32}

/-! ### One Drone among the sixteen -/

theorem drone_same (s : State) {d : Nat} (x : Drone) (h : d < s.drones.length) : (s.setDrone d x).drone d = x := by
  simp [State.drone, State.setDrone, List.getD_eq_getElem?_getD, h]

theorem drone_ne (s : State) {d x : Nat} (y : Drone) (h : x ≠ d) : (s.setDrone d y).drone x = s.drone x := by
  simp [State.drone, State.setDrone, List.getD_eq_getElem?_getD, List.getElem?_set_ne (Ne.symm h)]

/-- Beside registers only one Drone changed. -/
structure DroneStep (d : Nat) (s t : State) : Prop where
  only : t = { s with regs := t.regs, drones := t.drones }
  other : ∀ x, x ≠ d → t.drone x = s.drone x
  length : t.drones.length = s.drones.length

theorem DroneStep.of_regs {d : Nat} (h : OnlyRegs s t) : DroneStep d s t :=
  ⟨by rw [h], fun x _ => by rw [h]; rfl, by rw [h]⟩

theorem DroneStep.set (s : State) (d : Nat) (x : Drone) : DroneStep d s (s.setDrone d x) :=
  ⟨rfl, fun _ h => drone_ne s x h, by simp [State.setDrone]⟩

theorem DroneStep.trans {d : Nat} {u : State} (h : DroneStep d s t) (h' : DroneStep d t u) : DroneStep d s u :=
  ⟨h'.only.trans (congrArg (fun x : State => { x with regs := u.regs, drones := u.drones }) h.only), fun x hx => (h'.other x hx).trans (h.other x hx), h'.length.trans h.length⟩

/-- An answered register write that changed one Drone. -/
theorem DroneStep.written {d : Nat} (h : DroneStep d s t) : DroneWritten d s (t.answers .ok 0 []) :=
  ⟨h.other, rfl, by rw [h.only]; rfl⟩

theorem OnlyRegs.drone (h : OnlyRegs s t) (d : Nat) : t.drone d = s.drone d := by rw [h]; rfl

/-! ### DRN_CTRL (R49, R824) -/

theorem drnFields_regs (s : State) (d w : Nat) : OnlyRegs s (s.drnFields d w) := by
  unfold State.drnFields
  dsimp only
  split
  · exact ((OnlyRegs.refl s).wrAll _).wr _ _
  · exact (OnlyRegs.refl s).wrAll _

/-- The fields of DRN_CTRL are the first word of the Drone. -/
theorem drnFields_rd (s : State) (d : Nat) (w : Nat) {f : Fld} (hf : (0x30000 + 0x400 * d) * 8 + 32 ≤ f.key ∨ f.key < (0x30000 + 0x400 * d) * 8) : (s.drnFields d w).rd f = s.rd f := by
  unfold State.drnFields
  dsimp only
  split <;> simp (disch := (simp only [R.DRN_CTRL_ENABLE, R.DRN_CTRL_NOTIFY_EN, R.DRN_CTRL_LOCK_CNT, R.DRN_CTRL_ALT_EN]; omega)) only [State.wrAll, State.rd_wr_ne]

theorem writeDrnCtrl_eq (s : State) (d w : Nat) : s.writeDrnCtrl d w s.unlocked =
    (((((s.drnFields d w).when (bit w 5) (·.drnCntClr d)).when (bit w 0 && !s.on (R.DRN_CTRL_ENABLE d)) (·.drnStart d)).when (!bit w 0 && s.on (R.DRN_CTRL_ENABLE d)) (·.drnStop d)).when
      (bit w 1) (·.drnReacq d)).when (bit w 2) (·.drnPreset d) := by
  unfold State.writeDrnCtrl State.drnFields State.when
  dsimp only
  cases bit w 0 <;> cases s.on (R.DRN_CTRL_ENABLE d) <;> rfl

theorem writeReg_drnCtrl {word : BitVec 32} (h : s.takes w (0x30000 + 0x400 * d) word.toNat = true) : s.writeReg w (0x30000 + 0x400 * d) word.toNat =
    ((((((s.drnFields d word.toNat).when (bit word.toNat 5) (·.drnCntClr d)).when (bit word.toNat 0 && !s.on (R.DRN_CTRL_ENABLE d)) (·.drnStart d)).when
      (!bit word.toNat 0 && s.on (R.DRN_CTRL_ENABLE d)) (·.drnStop d)).when (bit word.toNat 1) (·.drnReacq d)).when (bit word.toNat 2) (·.drnPreset d)).answers .ok 0 [] := by
  have e := writeReg_DRN_CTRL d h
  rw [bv32_mod, writeDrnCtrl_eq] at e
  exact e

/-! ### The states of a Drone (R44, R45, R49) -/

/-- A change of state that tells nobody. -/
theorem drnTo_quiet {d st : Nat} (hst : s.drnState d ≠ st) (hl : st < 4) (hn : s.on (R.DRN_CTRL_NOTIFY_EN d) = false) (hd : d < s.drones.length) :
    (s.drnTo d st).drnState d = st ∧ (s.drnTo d st).drnQual d = qualityOf st ∧ (s.drnTo d st).drone d = { s.drone d with hold := 0, missRun := 0, outRun := 0, gotMeas := true } ∧
    RegsBut [R.DRN_STAT_STATE d, R.DRN_STAT_QUALITY d] s (s.drnTo d st) ∧ DroneStep d s (s.drnTo d st) := by
  have hq : qualityOf st < 4 := by unfold qualityOf; split <;> (try split) <;> omega
  have e : s.drnTo d st = ((s.wr (R.DRN_STAT_STATE d) st).wr (R.DRN_STAT_QUALITY d) (qualityOf st)).setDrone d { s.drone d with hold := 0, missRun := 0, outRun := 0, gotMeas := true } := by
    unfold State.drnTo
    simp only [if_neg hst, if_neg (show st ≠ 4 by omega), hn, Bool.false_and, Bool.false_eq_true, if_false]
    rfl
  have hor : OnlyRegs s ((s.wr (R.DRN_STAT_STATE d) st).wr (R.DRN_STAT_QUALITY d) (qualityOf st)) := ((OnlyRegs.refl s).wr _ _).wr _ _
  rw [e]
  refine ⟨?_, ?_, drone_same _ _ hd, ?_, (DroneStep.of_regs hor).trans (DroneStep.set _ d _)⟩
  · refine (State.rd_wr_ne _ _ (by simp only [R.DRN_STAT_STATE, R.DRN_STAT_QUALITY]; omega)).trans ((State.rd_wr_same s (R.DRN_STAT_STATE d) st).trans (Nat.mod_eq_of_lt ?_))
    exact Nat.lt_of_lt_of_le hl (show 4 ≤ 2 ^ 3 by decide)
  · exact (State.rd_wr_same _ (R.DRN_STAT_QUALITY d) _).trans (Nat.mod_eq_of_lt hq)
  · exact RegsBut.of_regs (show RegsBut _ s ((s.wr (R.DRN_STAT_STATE d) st).wr (R.DRN_STAT_QUALITY d) (qualityOf st)) by simp) rfl

/-- F is taken within its limits; FSAT, DIR and REVERSALS follow it. -/
theorem loadF_values (s : State) {d : Nat} (f : Int) (hd : d < s.drones.length) : (s.loadF d f).drone d = { s.drone d with f := s.clampF d f } ∧
    RegsBut [R.DRN_STAT_FSAT d, R.DRN_STAT_DIR d, R.DRN_STAT_REVERSALS d] s (s.loadF d f) ∧ DroneStep d s (s.loadF d f) := by
  have h1 : DroneStep d s ((s.wr (R.DRN_STAT_FSAT d) (b2n (s.clampF d f != f))).setDrone d { s.drone d with f := s.clampF d f }) :=
    (DroneStep.of_regs ((OnlyRegs.refl s).wr _ _)).trans (DroneStep.set _ d _)
  have h2 : RegsBut [R.DRN_STAT_FSAT d, R.DRN_STAT_DIR d, R.DRN_STAT_REVERSALS d] s ((s.wr (R.DRN_STAT_FSAT d) (b2n (s.clampF d f != f))).setDrone d { s.drone d with f := s.clampF d f }) :=
    RegsBut.of_regs (show RegsBut _ s (s.wr (R.DRN_STAT_FSAT d) (b2n (s.clampF d f != f))) by simp) rfl
  have h3 := drone_same (s.wr (R.DRN_STAT_FSAT d) (b2n (s.clampF d f != f))) { s.drone d with f := s.clampF d f } hd
  unfold State.loadF
  dsimp only
  generalize ((s.wr (R.DRN_STAT_FSAT d) (b2n (s.clampF d f != f))).setDrone d { s.drone d with f := s.clampF d f }) = q at h1 h2 h3 ⊢
  split
  · exact ⟨h3, h2, h1⟩
  · have hor : OnlyRegs q ((q.wr (R.DRN_STAT_DIR d) (b2n (s.clampF d f < 0))).countWrap (R.DRN_STAT_REVERSALS d) 1) := ((OnlyRegs.refl q).wr _ _).wr _ _
    exact ⟨(hor.drone d).trans h3, (regsBut_wr (by simp)).mpr ((regsBut_wr (by simp)).mpr h2), h1.trans (DroneStep.of_regs hor)⟩

/-- The part takes the setup of a Drone and starts it on its primary source. -/
theorem drnTake_values (s : State) {d : Nat} (hd : d < s.drones.length) : (s.drnTake d).drone d = s.drnTaken d ∧ (s.drnTake d).on (R.DRN_STAT_ALT_ACTIVE d) = false ∧
    RegsBut [R.DRN_STAT_ALT_ACTIVE d] s (s.drnTake d) ∧ DroneStep d s (s.drnTake d) := by
  have h1 : DroneStep d s (s.drnTake d) := (DroneStep.of_regs ((OnlyRegs.refl s).wr (R.DRN_STAT_ALT_ACTIVE d) 0)).trans (DroneStep.set _ d _)
  exact ⟨drone_same _ _ hd, State.on_wr_same s (R.DRN_STAT_ALT_ACTIVE d) 0, RegsBut.of_regs (regsBut_wr_self s (R.DRN_STAT_ALT_ACTIVE d) 0) rfl, h1⟩

/-- The setup of a Drone is read from its words after the first, and from DRN_STAT for nothing. -/
theorem drnTaken_congr {d : Nat} (h : ∀ f : Fld, (0x30000 + 0x400 * d) * 8 + 32 ≤ f.key → f.key < (0x30074 + 0x400 * d) * 8 → t.rd f = s.rd f) (hd : t.drone d = s.drone d) : t.drnTaken d = s.drnTaken d := by
  unfold State.drnTaken
  rw [hd, h (R.DRN_EXP_N_EXP d) (by simp only [R.DRN_EXP_N_EXP]; omega) (by simp only [R.DRN_EXP_N_EXP]; omega),
    h (R.DRN_EXP_MISS_MAX d) (by simp only [R.DRN_EXP_MISS_MAX]; omega) (by simp only [R.DRN_EXP_MISS_MAX]; omega), h (R.DRN_MOD_MOD d) (by simp only [R.DRN_MOD_MOD]; omega) (by simp only [R.DRN_MOD_MOD]; omega),
    h (R.DRN_SCALE_LO_SCALE_LO d) (by simp only [R.DRN_SCALE_LO_SCALE_LO]; omega) (by simp only [R.DRN_SCALE_LO_SCALE_LO]; omega),
    h (R.DRN_SCALE_HI_SCALE_HI d) (by simp only [R.DRN_SCALE_HI_SCALE_HI]; omega) (by simp only [R.DRN_SCALE_HI_SCALE_HI]; omega),
    h (R.DRN_SRC_BITS d) (by simp only [R.DRN_SRC_BITS]; omega) (by simp only [R.DRN_SRC_BITS]; omega)]

theorem clampF_congr {d : Nat} (h : ∀ f : Fld, (0x30000 + 0x400 * d) * 8 + 32 ≤ f.key → f.key < (0x30074 + 0x400 * d) * 8 → t.rd f = s.rd f) (f : Int) : t.clampF d f = s.clampF d f := by
  simp only [State.clampF, State.rdS, h (R.DRN_FMIN_F_MIN d) (by simp only [R.DRN_FMIN_F_MIN]; omega) (by simp only [R.DRN_FMIN_F_MIN]; omega),
    h (R.DRN_FMAX_F_MAX d) (by simp only [R.DRN_FMAX_F_MAX]; omega) (by simp only [R.DRN_FMAX_F_MAX]; omega)]

/-- A Drone whose setup is good starts. -/
theorem drnStart_values {q : State} {d : Nat} (hd : d < q.drones.length) (hs : q.drnState d = 0) (hn : q.on (R.DRN_CTRL_NOTIFY_EN d) = false) (hb : q.drnBad d = false) :
    (q.drnStart d).drnState d = (if q.rd (R.DRN_SRC_KIND d) = 0 then 2 else 1) ∧ (q.drnStart d).drnQual d = (if q.rd (R.DRN_SRC_KIND d) = 0 then 2 else 1) ∧
    (q.drnStart d).on (R.DRN_STAT_ALT_ACTIVE d) = false ∧
    (q.drnStart d).drone d = { q.drnTaken d with f := q.clampF d (sx 48 (q.rd (R.DRN_FINIT_LO_FINIT_LO d) + q.rd (R.DRN_FINIT_HI_FINIT_HI d) * 2 ^ 32)), hold := 0 } ∧
    RegsBut [R.DRN_STAT_STATE d, R.DRN_STAT_QUALITY d, R.DRN_STAT_ALT_ACTIVE d, R.DRN_STAT_FSAT d, R.DRN_STAT_DIR d, R.DRN_STAT_REVERSALS d] q (q.drnStart d) ∧ DroneStep d q (q.drnStart d) := by
  have e : q.drnStart d = ((q.drnTake d).loadF d (sx 48 (q.rd (R.DRN_FINIT_LO_FINIT_LO d) + q.rd (R.DRN_FINIT_HI_FINIT_HI d) * 2 ^ 32))).drnTo d (if q.rd (R.DRN_SRC_KIND d) = 0 then 2 else 1) := by
    unfold State.drnStart
    simp only [hb, Bool.false_eq_true, if_false]
  generalize sx 48 (q.rd (R.DRN_FINIT_LO_FINIT_LO d) + q.rd (R.DRN_FINIT_HI_FINIT_HI d) * 2 ^ 32) = f at e ⊢
  rw [e]
  obtain ⟨t1, t2, t3, t4⟩ := drnTake_values q hd
  generalize q.drnTake d = a at t1 t2 t3 t4 ⊢
  have hc : a.clampF d f = q.clampF d f := clampF_congr (fun g hg hg' => t3.rd (by simp only [List.map_cons, List.map_nil, List.mem_cons, List.not_mem_nil, or_false, R.DRN_STAT_ALT_ACTIVE]; omega)) f
  obtain ⟨l1, l2, l3⟩ := loadF_values a f (by rw [t4.length]; exact hd)
  generalize a.loadF d f = b at l1 l2 l3 ⊢
  have htl := t3.mono (gs := [R.DRN_STAT_ALT_ACTIVE d, R.DRN_STAT_FSAT d, R.DRN_STAT_DIR d, R.DRN_STAT_REVERSALS d]) (by simp) |>.trans (l2.mono (by simp))
  have hbs : b.drnState d = 0 := (htl.rd (by simp only [List.map_cons, List.map_nil, List.mem_cons, List.not_mem_nil, or_false, R.DRN_STAT_STATE, R.DRN_STAT_ALT_ACTIVE, R.DRN_STAT_FSAT, R.DRN_STAT_DIR, R.DRN_STAT_REVERSALS]; omega)).trans hs
  have hbn : b.on (R.DRN_CTRL_NOTIFY_EN d) = false :=
    (htl.on (by simp only [List.map_cons, List.map_nil, List.mem_cons, List.not_mem_nil, or_false, R.DRN_CTRL_NOTIFY_EN, R.DRN_STAT_ALT_ACTIVE, R.DRN_STAT_FSAT, R.DRN_STAT_DIR, R.DRN_STAT_REVERSALS]; omega)).trans hn
  have hba : b.on (R.DRN_STAT_ALT_ACTIVE d) = false :=
    (l2.on (by simp only [List.map_cons, List.map_nil, List.mem_cons, List.not_mem_nil, or_false, R.DRN_STAT_ALT_ACTIVE, R.DRN_STAT_FSAT, R.DRN_STAT_DIR, R.DRN_STAT_REVERSALS]; omega)).trans t2
  generalize hst : (if q.rd (R.DRN_SRC_KIND d) = 0 then 2 else 1) = st
  have hst' : st = 1 ∨ st = 2 := by split at hst <;> omega
  obtain ⟨m1, m2, m3, m4, m5⟩ := drnTo_quiet (s := b) (st := st) (by omega) (by omega) hbn (by rw [l3.length, t4.length]; exact hd)
  have hqual : qualityOf st = st := by rcases hst' with h | h <;> rw [h] <;> rfl
  refine ⟨m1, m2.trans hqual, ?_, ?_, (htl.mono (by simp)).trans (m4.mono (by simp)), (t4.trans l3).trans m5⟩
  · exact (m4.on (by simp only [List.map_cons, List.map_nil, List.mem_cons, List.not_mem_nil, or_false, R.DRN_STAT_ALT_ACTIVE, R.DRN_STAT_STATE, R.DRN_STAT_QUALITY]; omega)).trans hba
  · rw [m3, l1, t1, hc]; rfl

/-! ### What a written word of DRN_CTRL leaves -/

theorem drnFields_flags (s : State) (d w : Nat) : (s.drnFields d w).on (R.DRN_CTRL_ENABLE d) = bit w 0 ∧ (s.drnFields d w).on (R.DRN_CTRL_NOTIFY_EN d) = bit w 4 := by
  have h0 : (s.wrAll [(R.DRN_CTRL_ENABLE d, bits w 0 1), (R.DRN_CTRL_NOTIFY_EN d, bits w 4 1), (R.DRN_CTRL_LOCK_CNT d, bits w 8 8)]).on (R.DRN_CTRL_ENABLE d) = bit w 0 := by
    simp (disch := (simp only [R.DRN_CTRL_ENABLE, R.DRN_CTRL_NOTIFY_EN, R.DRN_CTRL_LOCK_CNT]; omega)) only [State.wrAll, State.on_wr_ne, bits_zero_w1]
    exact on_wr_b2n s rfl _
  have h4 : (s.wrAll [(R.DRN_CTRL_ENABLE d, bits w 0 1), (R.DRN_CTRL_NOTIFY_EN d, bits w 4 1), (R.DRN_CTRL_LOCK_CNT d, bits w 8 8)]).on (R.DRN_CTRL_NOTIFY_EN d) = bit w 4 := by
    simp (disch := (simp only [R.DRN_CTRL_ENABLE, R.DRN_CTRL_NOTIFY_EN, R.DRN_CTRL_LOCK_CNT]; omega)) only [State.wrAll, State.on_wr_ne, bits_zero_w1]
    exact on_wr_b2n _ rfl _
  unfold State.drnFields
  dsimp only
  split
  · exact ⟨(State.on_wr_ne _ _ (by simp only [R.DRN_CTRL_ENABLE, R.DRN_CTRL_ALT_EN]; omega)).trans h0, (State.on_wr_ne _ _ (by simp only [R.DRN_CTRL_NOTIFY_EN, R.DRN_CTRL_ALT_EN]; omega)).trans h4⟩
  · exact ⟨h0, h4⟩

/-- A command bit beside the fields leaves them as they are written. -/
theorem drnFields_or (s : State) (d : Nat) (v : BitVec 32) {k : BitVec 32} (h : bits k.toNat 0 1 = 0 ∧ bits k.toNat 3 1 = 0 ∧ bits k.toNat 4 1 = 0 ∧ bits k.toNat 8 8 = 0) :
    s.drnFields d (v ||| k).toNat = s.drnFields d v.toNat := by
  obtain ⟨h0, h3, h4, h8⟩ := h
  simp only [State.drnFields, bits_or v k _ _ h0, bits_or v k _ _ h3, bits_or v k _ _ h4, bits_or v k _ _ h8]

theorem drnFields_state (s : State) (d w : Nat) : (s.drnFields d w).drnState d = s.drnState d := drnFields_rd s d w (by simp only [R.DRN_STAT_STATE]; omega)

theorem drnFields_length (s : State) (d w : Nat) : (s.drnFields d w).drones.length = s.drones.length := by rw [drnFields_regs s d w]

theorem drnFields_taken (s : State) (d w : Nat) : (s.drnFields d w).drnTaken d = s.drnTaken d :=
  drnTaken_congr (fun _ h _ => drnFields_rd s d w (.inl h)) ((drnFields_regs s d w).drone d)

theorem leads_drnEnable {g : Int} (h : s.takes w (0x30000 + 0x400 * d) v.toNat = true) (h1 : s1 = s.drnFields d v.toNat) (hd : d.val < s.drones.length)
    (hs : s.on (R.DRN_CTRL_ENABLE d) = false ∧ s.drnState d = 0) (hv : bit v.toNat 0 = true ∧ bits v.toNat 1 2 = 0 ∧ bits v.toNat 4 2 = 0) (hb : s1.drnBad d = false)
    (hg : g = s.clampF d (sx 48 (s.rd (R.DRN_FINIT_LO_FINIT_LO d) + s.rd (R.DRN_FINIT_HI_FINIT_HI d) * 2 ^ 32))) : Leads s (.drnEnable w d v) fun t =>
    t.drnState d = (if s.rd (R.DRN_SRC_KIND d) = 0 then 2 else 1) ∧ t.drnQual d = (if s.rd (R.DRN_SRC_KIND d) = 0 then 2 else 1) ∧ t.on (R.DRN_CTRL_ENABLE d) = true ∧
    t.on (R.DRN_STAT_ALT_ACTIVE d) = false ∧ t.drone d = { s.drnTaken d with f := g, hold := 0 } ∧
    RegsBut [R.DRN_STAT_STATE d, R.DRN_STAT_QUALITY d, R.DRN_STAT_ALT_ACTIVE d, R.DRN_STAT_FSAT d, R.DRN_STAT_DIR d, R.DRN_STAT_REVERSALS d] s1 t ∧ DroneWritten d s t := by
  obtain ⟨h0, h12, h45⟩ := hv
  have e := writeReg_drnCtrl h
  rw [bit_of_bits_zero h45 (show 4 ≤ 5 ∧ 5 < 4 + 2 by omega), bit_of_bits_zero h12 (show 1 ≤ 1 ∧ 1 < 1 + 2 by omega), bit_of_bits_zero h12 (show 1 ≤ 2 ∧ 2 < 1 + 2 by omega), h0, hs.1, ← h1] at e
  simp only [when_false, when_true, Bool.not_true, Bool.not_false, Bool.and_true, Bool.and_false] at e
  have hrd (f : Fld) (hf : (0x30000 + 0x400 * d) * 8 + 32 ≤ f.key) : s1.rd f = s.rd f := by rw [h1]; exact drnFields_rd s d _ (.inl hf)
  have hstep : DroneStep d s s1 := by rw [h1]; exact .of_regs (drnFields_regs s d _)
  have hen : s1.on (R.DRN_CTRL_ENABLE d) = true := by rw [h1]; exact ((drnFields_flags s d _).1).trans h0
  obtain ⟨m1, m2, m3, m4, m5, m6⟩ := drnStart_values (q := s1) (d := d) (by rw [hstep.length]; exact hd) (by rw [h1, drnFields_state]; exact hs.2)
    (by rw [h1]; exact ((drnFields_flags s d _).2).trans (bit_of_bits_zero h45 (by omega))) hb
  rw [hrd (R.DRN_SRC_KIND d) (by simp only [R.DRN_SRC_KIND]; omega)] at m1 m2
  rw [hrd (R.DRN_FINIT_LO_FINIT_LO d) (by simp only [R.DRN_FINIT_LO_FINIT_LO]; omega), hrd (R.DRN_FINIT_HI_FINIT_HI d) (by simp only [R.DRN_FINIT_HI_FINIT_HI]; omega),
    clampF_congr (fun f hf _ => hrd f hf), ← hg, show s1.drnTaken d = s.drnTaken d by rw [h1]; exact drnFields_taken s d _] at m4
  generalize s1.drnStart d = q at *
  refine .intro rfl e ⟨m1, m2, ?_, m3, m4, m5.of_regs rfl, (hstep.trans m6).written⟩
  exact (m5.on (by simp only [List.map_cons, List.map_nil, List.mem_cons, List.not_mem_nil, or_false, R.DRN_CTRL_ENABLE, R.DRN_STAT_STATE, R.DRN_STAT_QUALITY, R.DRN_STAT_ALT_ACTIVE, R.DRN_STAT_FSAT, R.DRN_STAT_DIR, R.DRN_STAT_REVERSALS]; omega)).trans hen

theorem leads_drnEnable_refused (h : s.takes w (0x30000 + 0x400 * d) v.toNat = true) (h1 : s1 = s.drnFields d v.toNat) (hs : s.on (R.DRN_CTRL_ENABLE d) = false)
    (hv : bit v.toNat 0 = true ∧ bits v.toNat 1 2 = 0 ∧ bit v.toNat 5 = false) (hb : s1.drnBad d = true) : Leads s (.drnEnable w d v) fun t =>
    t.on (R.DRN_CTRL_ENABLE d) = false ∧ t.on (R.DRN_STAT_CFG_REJ d) = true ∧ RegsBut [R.DRN_CTRL_ENABLE d, R.DRN_STAT_CFG_REJ d] s1 t ∧ t = { s with regs := t.regs, answer := t.answer } := by
  obtain ⟨h0, h12, h5⟩ := hv
  have e := writeReg_drnCtrl h
  rw [h5, bit_of_bits_zero h12 (show 1 ≤ 1 ∧ 1 < 1 + 2 by omega), bit_of_bits_zero h12 (show 1 ≤ 2 ∧ 2 < 1 + 2 by omega), h0, hs, ← h1] at e
  simp only [when_false, when_true, Bool.not_true, Bool.not_false, Bool.and_true, Bool.and_false] at e
  rw [State.drnStart, if_pos hb] at e
  have hor : OnlyRegs s s1 := by rw [h1]; exact drnFields_regs s d _
  have hoff : ((s1.wr (R.DRN_CTRL_ENABLE d) 0).wr (R.DRN_STAT_CFG_REJ d) 1).on (R.DRN_CTRL_ENABLE d) = false :=
    (State.on_wr_ne _ _ (by simp only [R.DRN_CTRL_ENABLE, R.DRN_STAT_CFG_REJ]; omega)).trans (State.on_wr_same s1 (R.DRN_CTRL_ENABLE d) 0)
  have hrej : ((s1.wr (R.DRN_CTRL_ENABLE d) 0).wr (R.DRN_STAT_CFG_REJ d) 1).on (R.DRN_STAT_CFG_REJ d) = true := State.on_wr_same _ (R.DRN_STAT_CFG_REJ d) 1
  have hbut : RegsBut [R.DRN_CTRL_ENABLE d, R.DRN_STAT_CFG_REJ d] s1 ((s1.wr (R.DRN_CTRL_ENABLE d) 0).wr (R.DRN_STAT_CFG_REJ d) 1) := by simp
  exact .intro rfl e ⟨hoff, hrej, hbut.of_regs rfl, by rw [hor]; rfl⟩

theorem leads_drnEnable_off (h : s.takes w (0x30000 + 0x400 * d) v.toNat = true) (h1 : s1 = s.drnFields d v.toNat) (hd : d.val < s.drones.length)
    (hs : s.on (R.DRN_CTRL_ENABLE d) = true ∧ s.drnState d ≠ 0) (hv : bits v.toNat 0 3 = 0 ∧ bits v.toNat 4 2 = 0) : Leads s (.drnEnable w d v) fun t =>
    t.drnState d = 0 ∧ t.drnQual d = 0 ∧ t.on (R.DRN_CTRL_ENABLE d) = false ∧ t.drone d = { s.drone d with ops := [], hold := 0, missRun := 0, outRun := 0, gotMeas := true } ∧
    RegsBut [R.DRN_STAT_STATE d, R.DRN_STAT_QUALITY d] s1 t ∧ DroneWritten d s t := by
  obtain ⟨h03, h45⟩ := hv
  have h0 := bit_of_bits_zero h03 (show 0 ≤ 0 ∧ 0 < 0 + 3 by omega)
  have e := writeReg_drnCtrl h
  rw [bit_of_bits_zero h45 (show 4 ≤ 5 ∧ 5 < 4 + 2 by omega), bit_of_bits_zero h03 (show 0 ≤ 1 ∧ 1 < 0 + 3 by omega), bit_of_bits_zero h03 (show 0 ≤ 2 ∧ 2 < 0 + 3 by omega), h0, hs.1, ← h1] at e
  simp only [when_false, when_true, Bool.not_true, Bool.not_false, Bool.and_true, Bool.and_false] at e
  have hstep : DroneStep d s s1 := by rw [h1]; exact .of_regs (drnFields_regs s d _)
  have hen : s1.on (R.DRN_CTRL_ENABLE d) = false := by rw [h1]; exact ((drnFields_flags s d _).1).trans h0
  have hno : s1.on (R.DRN_CTRL_NOTIFY_EN d) = false := by rw [h1]; exact ((drnFields_flags s d _).2).trans (bit_of_bits_zero h45 (by omega))
  have hst : s1.drnState d ≠ 0 := by rw [h1, drnFields_state]; exact hs.2
  have hdr : s1.drone d = s.drone d := by rw [h1]; exact (drnFields_regs s d _).drone d
  have hlen : d.val < (s1.setDrone d { s1.drone d with ops := [] }).drones.length := by rw [(DroneStep.set s1 d _).length, hstep.length]; exact hd
  obtain ⟨m1, m2, m3, m4, m5⟩ := drnTo_quiet (s := s1.setDrone d { s1.drone d with ops := [] }) (d := d) (st := 0) hst (by omega) hno hlen
  have hx : (s1.setDrone d { s1.drone d with ops := [] }).drone d = { s.drone d with ops := [] } := (drone_same s1 _ (by rw [hstep.length]; exact hd)).trans (by rw [hdr])
  rw [hx] at m3
  have hall := hstep.trans ((DroneStep.set s1 d _).trans m5)
  rw [show s1.drnStop d = (s1.setDrone d { s1.drone d with ops := [] }).drnTo d 0 from rfl] at e
  have hbut := (RegsBut.of_regs (RegsBut.refl [R.DRN_STAT_STATE d, R.DRN_STAT_QUALITY d] s1) (show (s1.setDrone d { s1.drone d with ops := [] }).regs = s1.regs from rfl)).trans m4
  generalize (s1.setDrone d { s1.drone d with ops := [] }).drnTo d 0 = q at *
  refine .intro rfl e ⟨m1, m2, ?_, m3, hbut.of_regs rfl, hall.written⟩
  exact (hbut.on (by simp only [List.map_cons, List.map_nil, List.mem_cons, List.not_mem_nil, or_false, R.DRN_CTRL_ENABLE, R.DRN_STAT_STATE, R.DRN_STAT_QUALITY]; omega)).trans hen

theorem leads_reacq (h : s.takes w (0x30000 + 0x400 * d) (v ||| 2).toNat = true) (h1 : s1 = s.drnFields d v.toNat) (hd : d.val < s.drones.length)
    (hs : 2 ≤ s.drnState d ∧ s.on (R.DRN_CTRL_ENABLE d) = bit v.toNat 0) (hv : bit v.toNat 2 = false ∧ bits v.toNat 4 2 = 0) (hb : s1.drnBad d = false) : Leads s (.reacq w d v) fun t =>
    t.drnState d = 1 ∧ t.drnQual d = 1 ∧ t.on (R.DRN_STAT_ALT_ACTIVE d) = false ∧ t.drone d = { s.drnTaken d with hold := 0 } ∧
    RegsBut [R.DRN_STAT_STATE d, R.DRN_STAT_QUALITY d, R.DRN_STAT_ALT_ACTIVE d] s1 t ∧ DroneWritten d s t := by
  obtain ⟨h2, h45⟩ := hv
  have e := writeReg_drnCtrl h
  rw [(bit_or_of_false (by decide)).trans (bit_of_bits_zero h45 (show 4 ≤ 5 ∧ 5 < 4 + 2 by omega)), (bit_or_of_false (i := 0) (by decide)), (bit_or_of_false (by decide)).trans h2, bit_or_true (by decide), hs.2,
    drnFields_or s d v (by decide), ← h1] at e
  simp only [when_false, when_true, Bool.and_not_self, Bool.not_and_self] at e
  have hstep : DroneStep d s s1 := by rw [h1]; exact .of_regs (drnFields_regs s d _)
  have hno : s1.on (R.DRN_CTRL_NOTIFY_EN d) = false := by rw [h1]; exact ((drnFields_flags s d _).2).trans (bit_of_bits_zero h45 (by omega))
  have hst : 2 ≤ s1.drnState d := by rw [h1, drnFields_state]; exact hs.1
  rw [State.drnReacq, if_neg (by omega), if_neg (by rw [hb]; decide)] at e
  obtain ⟨t1, t2, t3, t4⟩ := drnTake_values s1 (d := d) (by rw [hstep.length]; exact hd)
  rw [show s1.drnTaken d = s.drnTaken d by rw [h1]; exact drnFields_taken s d _] at t1
  generalize s1.drnTake d = a at *
  have hak : a.drnState d = s1.drnState d := t3.rd (by simp only [List.map_cons, List.map_nil, List.mem_cons, List.not_mem_nil, or_false, R.DRN_STAT_STATE, R.DRN_STAT_ALT_ACTIVE]; omega)
  have han : a.on (R.DRN_CTRL_NOTIFY_EN d) = false := (t3.on (by simp only [List.map_cons, List.map_nil, List.mem_cons, List.not_mem_nil, or_false, R.DRN_CTRL_NOTIFY_EN, R.DRN_STAT_ALT_ACTIVE]; omega)).trans hno
  obtain ⟨m1, m2, m3, m4, m5⟩ := drnTo_quiet (s := a) (d := d) (st := 1) (by omega) (by omega) han (by rw [t4.length, hstep.length]; exact hd)
  rw [t1] at m3
  have hall := hstep.trans (t4.trans m5)
  have hbut : RegsBut [R.DRN_STAT_STATE d, R.DRN_STAT_QUALITY d, R.DRN_STAT_ALT_ACTIVE d] s1 (a.drnTo d 1) := (t3.mono (by simp)).trans (m4.mono (by simp))
  have halt : (a.drnTo d 1).on (R.DRN_STAT_ALT_ACTIVE d) = false :=
    (m4.on (by simp only [List.map_cons, List.map_nil, List.mem_cons, List.not_mem_nil, or_false, R.DRN_STAT_ALT_ACTIVE, R.DRN_STAT_STATE, R.DRN_STAT_QUALITY]; omega)).trans t2
  generalize a.drnTo d 1 = q at *
  exact .intro rfl e ⟨m1, m2, halt, m3, hbut.of_regs rfl, hall.written⟩

theorem leads_presetGo (h : s.takes w (0x30000 + 0x400 * d) (v ||| 4).toNat = true) (h1 : s1 = s.drnFields d v.toNat) (hd : d.val < s.drones.length) (hs : s.on (R.DRN_CTRL_ENABLE d) = bit v.toNat 0)
    (hv : bit v.toNat 1 = false ∧ bit v.toNat 5 = false) : Leads s (.presetGo w d v) fun t =>
    t.drone d = { s.drone d with acc := s.rd (R.DRN_PRESET_PH_PRESET_PH d) * 2 ^ 32, cyc := s.rd (R.DRN_PRESET_CC_PRESET_CC d), ops := [], preset := true, slots := rearmAll (s.drone d).slots } ∧
    RegsBut [] s1 t ∧ DroneWritten d s t := by
  have e := writeReg_drnCtrl h
  rw [(bit_or_of_false (by decide)).trans hv.2, (bit_or_of_false (i := 0) (by decide)), (bit_or_of_false (by decide)).trans hv.1, bit_or_true (by decide), hs, drnFields_or s d v (by decide), ← h1] at e
  simp only [when_false, when_true, Bool.and_not_self, Bool.not_and_self] at e
  have hstep : DroneStep d s s1 := by rw [h1]; exact .of_regs (drnFields_regs s d _)
  have hdr : s1.drone d = s.drone d := by rw [h1]; exact (drnFields_regs s d _).drone d
  have hrd (f : Fld) (hf : (0x30000 + 0x400 * d) * 8 + 32 ≤ f.key) : s1.rd f = s.rd f := by rw [h1]; exact drnFields_rd s d _ (.inl hf)
  rw [State.drnPreset, hdr, hrd (R.DRN_PRESET_PH_PRESET_PH d) (by simp only [R.DRN_PRESET_PH_PRESET_PH]; omega), hrd (R.DRN_PRESET_CC_PRESET_CC d) (by simp only [R.DRN_PRESET_CC_PRESET_CC]; omega)] at e
  refine .intro rfl e ⟨drone_same s1 _ (by rw [hstep.length]; exact hd), RegsBut.of_regs (RegsBut.refl _ s1) rfl, (hstep.trans (DroneStep.set s1 d _)).written⟩

theorem drnCntClr_values (s : State) (d : Nat) : (s.drnCntClr d).rd (R.DRN_CNT1_OUTLIERS d) = 0 ∧ (s.drnCntClr d).rd (R.DRN_CNT1_LATE d) = 0 ∧ (s.drnCntClr d).rd (R.DRN_CNT2_MISSED d) = 0 ∧
    (s.drnCntClr d).rd (R.DRN_CNT2_SUPPRESSED d) = 0 ∧ (s.drnCntClr d).rd (R.DRN_CNT3_LOST_MEAS d) = 0 ∧
    RegsBut [R.DRN_CNT1_OUTLIERS d, R.DRN_CNT1_LATE d, R.DRN_CNT2_MISSED d, R.DRN_CNT2_SUPPRESSED d, R.DRN_CNT3_LOST_MEAS d] s (s.drnCntClr d) ∧ OnlyRegs s (s.drnCntClr d) := by
  unfold State.drnCntClr
  refine ⟨?_, ?_, ?_, ?_, ?_, by simp [State.wrAll], (OnlyRegs.refl s).wrAll _⟩ <;>
    (simp (disch := (simp only [R.DRN_CNT1_OUTLIERS, R.DRN_CNT1_LATE, R.DRN_CNT2_MISSED, R.DRN_CNT2_SUPPRESSED, R.DRN_CNT3_LOST_MEAS]; omega)) only [State.wrAll, State.rd_wr_ne]
     exact State.rd_wr_same _ _ 0)

theorem leads_drnCntClr (h : s.takes w (0x30000 + 0x400 * d) (v ||| 0x20).toNat = true) (h1 : s1 = s.drnFields d v.toNat) (hs : s.on (R.DRN_CTRL_ENABLE d) = bit v.toNat 0) (hv : bits v.toNat 1 2 = 0) :
    Leads s (.drnCntClr w d v) fun t => t.rd (R.DRN_CNT1_OUTLIERS d) = 0 ∧ t.rd (R.DRN_CNT1_LATE d) = 0 ∧ t.rd (R.DRN_CNT2_MISSED d) = 0 ∧ t.rd (R.DRN_CNT2_SUPPRESSED d) = 0 ∧ t.rd (R.DRN_CNT3_LOST_MEAS d) = 0 ∧
    RegsBut [R.DRN_CNT1_OUTLIERS d, R.DRN_CNT1_LATE d, R.DRN_CNT2_MISSED d, R.DRN_CNT2_SUPPRESSED d, R.DRN_CNT3_LOST_MEAS d] s1 t ∧ t = { s with regs := t.regs, answer := t.answer } := by
  have e := writeReg_drnCtrl h
  rw [bit_or_true (i := 5) (by decide), (bit_or_of_false (i := 0) (by decide)), (bit_or_of_false (by decide)).trans (bit_of_bits_zero hv (show 1 ≤ 1 ∧ 1 < 1 + 2 by omega)),
    (bit_or_of_false (by decide)).trans (bit_of_bits_zero hv (show 1 ≤ 2 ∧ 2 < 1 + 2 by omega)), hs, drnFields_or s d v (by decide), ← h1] at e
  simp only [when_false, when_true, Bool.and_not_self, Bool.not_and_self] at e
  have hor : OnlyRegs s s1 := by rw [h1]; exact drnFields_regs s d _
  obtain ⟨m1, m2, m3, m4, m5, m6, m7⟩ := drnCntClr_values s1 d
  have hor2 := hor.trans m7
  generalize s1.drnCntClr d = q at *
  exact .intro rfl e ⟨m1, m2, m3, m4, m5, m6.of_regs rfl, by rw [hor2]; rfl⟩

end Sys2Proof.Machine
end

section
/-! PROOFS. Registers of Drones and their events (R56, R60, R69, R74, R787 of spec/02_drones_external_time.md). -/

namespace Sys2Proof.Machine

variable {s t : State} {w : Who} {d e : Fin 16} {v : BitVec 32}

/-! ### Bits that a written 1 clears -/

theorem on_clear_same (s : State) (b : Bool) (f : Fld) : (s.when b (·.wr f 0)).on f = (s.on f && !b) := by
  cases b with
  | false => rw [when_false]; simp
  | true => rw [when_true, State.on_wr_same, Nat.zero_mod]; simp

theorem on_clear_ne (s : State) (b : Bool) {f g : Fld} (h : g.key ≠ f.key) : (s.when b (·.wr f 0)).on g = s.on g := by
  cases b with
  | false => rfl
  | true => exact State.on_wr_ne s 0 h

theorem onlyRegs_clear (h : OnlyRegs s t) (b : Bool) (f : Fld) : OnlyRegs s (t.when b (·.wr f 0)) := by
  cases b with
  | false => exact h
  | true => exact h.wr f 0

theorem regsBut_clear {fs : List Fld} (h : RegsBut fs s t) (b : Bool) {f : Fld} (hf : f ∈ fs) : RegsBut fs s (t.when b (·.wr f 0)) := by
  cases b with
  | false => exact h
  | true => exact (regsBut_wr hf).mpr h

/-! ### DRN_STAT (R56) -/

theorem writeDrnStat_eq (s : State) (d w : Nat) : s.writeDrnStat d w =
    ((((s.when (bit w 6) (·.wr (R.DRN_STAT_ALT_ACTIVE d) 0)).when (bit w 8) (·.wr (R.DRN_STAT_SOURCE_LOST d) 0)).when (bit w 9) (·.wr (R.DRN_STAT_LOVF d) 0)).when
      (bit w 10) (·.wr (R.DRN_STAT_CFG_REJ d) 0)).when (bit w 11) (·.wr (R.DRN_STAT_LWERR d) 0) := rfl

theorem writeDrnStat_values (s : State) (d w : Nat) : (s.writeDrnStat d w).on (R.DRN_STAT_ALT_ACTIVE d) = (s.on (R.DRN_STAT_ALT_ACTIVE d) && !bit w 6) ∧
    (s.writeDrnStat d w).on (R.DRN_STAT_SOURCE_LOST d) = (s.on (R.DRN_STAT_SOURCE_LOST d) && !bit w 8) ∧ (s.writeDrnStat d w).on (R.DRN_STAT_LOVF d) = (s.on (R.DRN_STAT_LOVF d) && !bit w 9) ∧
    (s.writeDrnStat d w).on (R.DRN_STAT_CFG_REJ d) = (s.on (R.DRN_STAT_CFG_REJ d) && !bit w 10) ∧ (s.writeDrnStat d w).on (R.DRN_STAT_LWERR d) = (s.on (R.DRN_STAT_LWERR d) && !bit w 11) := by
  rw [writeDrnStat_eq]
  refine ⟨?_, ?_, ?_, ?_, ?_⟩ <;>
    simp (disch := (simp only [R.DRN_STAT_ALT_ACTIVE, R.DRN_STAT_SOURCE_LOST, R.DRN_STAT_LOVF, R.DRN_STAT_CFG_REJ, R.DRN_STAT_LWERR]; omega)) only [on_clear_ne, on_clear_same]

theorem writeDrnStat_frame (s : State) (d w : Nat) : RegsBut [R.DRN_STAT_ALT_ACTIVE d, R.DRN_STAT_SOURCE_LOST d, R.DRN_STAT_LOVF d, R.DRN_STAT_CFG_REJ d, R.DRN_STAT_LWERR d] s (s.writeDrnStat d w) ∧
    OnlyRegs s (s.writeDrnStat d w) := by
  rw [writeDrnStat_eq]
  exact ⟨regsBut_clear (regsBut_clear (regsBut_clear (regsBut_clear (regsBut_clear (RegsBut.refl _ s) _ (by simp)) _ (by simp)) _ (by simp)) _ (by simp)) _ (by simp),
    onlyRegs_clear (onlyRegs_clear (onlyRegs_clear (onlyRegs_clear (onlyRegs_clear (OnlyRegs.refl s) _ _) _ _) _ _) _ _) _ _⟩

theorem leads_altActiveReturn (h : s.takes w (0x30074 + 0x400 * d) (v ||| 0x40).toNat = true) : Leads s (.altActiveReturn w d v) fun t =>
    t.on (R.DRN_STAT_ALT_ACTIVE d) = false ∧ t.on (R.DRN_STAT_SOURCE_LOST d) = (s.on (R.DRN_STAT_SOURCE_LOST d) && !bit v.toNat 8) ∧
    t.on (R.DRN_STAT_LOVF d) = (s.on (R.DRN_STAT_LOVF d) && !bit v.toNat 9) ∧ t.on (R.DRN_STAT_CFG_REJ d) = (s.on (R.DRN_STAT_CFG_REJ d) && !bit v.toNat 10) ∧ t.on (R.DRN_STAT_LWERR d) = (s.on (R.DRN_STAT_LWERR d) && !bit v.toNat 11) ∧
    RegsBut [R.DRN_STAT_ALT_ACTIVE d, R.DRN_STAT_SOURCE_LOST d, R.DRN_STAT_LOVF d, R.DRN_STAT_CFG_REJ d, R.DRN_STAT_LWERR d] s t ∧ t = { s with regs := t.regs, answer := t.answer } := by
  have e := writeReg_DRN_STAT d h
  rw [bv32_mod] at e
  obtain ⟨m1, m2, m3, m4, m5⟩ := writeDrnStat_values s d (v ||| 0x40).toNat
  rw [bit_or_true (i := 6) (by decide), Bool.not_true, Bool.and_false] at m1
  rw [bit_or_of_false (by decide)] at m2 m3 m4 m5
  obtain ⟨hbut, hor⟩ := writeDrnStat_frame s d (v ||| 0x40).toNat
  generalize s.writeDrnStat d (v ||| 0x40).toNat = q at *
  exact .intro rfl e ⟨m1, m2, m3, m4, m5, hbut.of_regs rfl, by rw [hor]; rfl⟩

/-! ### Event slots (R60, R69) -/

theorem modAt_set {α : Type} (l : List α) {i : Nat} (f : α → α) (y : α) (h : i < l.length) : modAt l i f = l.set i (f (l.getD i y)) := by
  induction l generalizing i with
  | nil => exact absurd h (Nat.not_lt_zero i)
  | cons a l ih =>
    cases i with
    | zero => rfl
    | succ i => simpa [modAt] using ih (Nat.lt_of_succ_lt_succ h)

theorem leads_evPhaseWrite (h : s.takes w (0x30200 + 0x400 * d + 0x10 * e) v.toNat = true) (hd : d.val < s.drones.length ∧ e.val < (s.drone d).slots.length) : Leads s (.evPhaseWrite w d e v) fun t =>
    t.rd (R.EV_PHASE_PHASE d e) = v.toNat ∧ t.drone d = { s.drone d with slots := (s.drone d).slots.set e { (s.drone d).slots.getD e {} with unarmed := [] } } ∧
    RegsBut [R.EV_PHASE_PHASE d e] s t ∧ DroneWritten d s t := by
  have hw := writeReg_EV_PHASE d e h
  rw [bv32_mod, State.writeEvPhase] at hw
  have hrd : (s.wr (R.EV_PHASE_PHASE d e) v.toNat).rd (R.EV_PHASE_PHASE d e) = v.toNat := (State.rd_wr_same s (R.EV_PHASE_PHASE d e) v.toNat).trans (bv32_mod v)
  have hbut : RegsBut [R.EV_PHASE_PHASE d e] s (s.wr (R.EV_PHASE_PHASE d e) v.toNat) := regsBut_wr_self s _ _
  have hor : OnlyRegs s (s.wr (R.EV_PHASE_PHASE d e) v.toNat) := (OnlyRegs.refl s).wr _ _
  generalize s.wr (R.EV_PHASE_PHASE d e) v.toNat = q at hw hrd hbut hor
  dsimp only at hw
  rw [hor.drone d, modAt_set _ _ {} hd.2] at hw
  have hstep := DroneStep.of_regs (d := d) hor
  exact .intro rfl hw ⟨hrd, drone_same q _ (by rw [hstep.length]; exact hd.1), hbut.of_regs rfl, (hstep.trans (DroneStep.set q d _)).written⟩

/-- The fields of EV_CTRL that a written word sets, and FIRED where it clears it. -/
def State.evFields (s : State) (d e w : Nat) : State :=
  (s.wrAll [(R.EV_CTRL_MODE d e, bits w 0 2), (R.EV_CTRL_DIR d e, bits w 2 2), (R.EV_CTRL_QUAL d e, bits w 4 1), (R.EV_CTRL_CQ d e, bits w 5 1), (R.EV_CTRL_N d e, bits w 16 16)]).when
    (bit w 6) (·.wr (R.EV_CTRL_FIRED d e) 0)

theorem evFields_values (s : State) (d e w : Nat) : (s.evFields d e w).rd (R.EV_CTRL_MODE d e) = bits w 0 2 ∧ (s.evFields d e w).rd (R.EV_CTRL_DIR d e) = bits w 2 2 ∧
    (s.evFields d e w).rd (R.EV_CTRL_QUAL d e) = bits w 4 1 ∧ (s.evFields d e w).rd (R.EV_CTRL_CQ d e) = bits w 5 1 ∧ (s.evFields d e w).rd (R.EV_CTRL_N d e) = bits w 16 16 := by
  have hf (t : State) (f : Fld) (hf : f.key ≠ (R.EV_CTRL_FIRED d e).key) : (t.when (bit w 6) (·.wr (R.EV_CTRL_FIRED d e) 0)).rd f = t.rd f := by
    cases bit w 6 with
    | false => rfl
    | true => exact State.rd_wr_ne t 0 hf
  unfold State.evFields
  refine ⟨?_, ?_, ?_, ?_, ?_⟩ <;>
    (refine (hf _ _ (by simp only [R.EV_CTRL_MODE, R.EV_CTRL_DIR, R.EV_CTRL_QUAL, R.EV_CTRL_CQ, R.EV_CTRL_N, R.EV_CTRL_FIRED]; omega)).trans ?_
     simp (disch := (simp only [R.EV_CTRL_MODE, R.EV_CTRL_DIR, R.EV_CTRL_QUAL, R.EV_CTRL_CQ, R.EV_CTRL_N]; omega)) only [State.wrAll, State.rd_wr_ne]
     exact (State.rd_wr_same _ _ _).trans (bits_mod w _ _))

theorem evFields_fired (s : State) (d e w : Nat) : (s.evFields d e w).on (R.EV_CTRL_FIRED d e) = (s.on (R.EV_CTRL_FIRED d e) && !bit w 6) := by
  refine (on_clear_same _ _ _).trans ?_
  simp (disch := (simp only [R.EV_CTRL_MODE, R.EV_CTRL_DIR, R.EV_CTRL_QUAL, R.EV_CTRL_CQ, R.EV_CTRL_N, R.EV_CTRL_FIRED]; omega)) only [State.wrAll, State.on_wr_ne]

theorem evFields_frame (s : State) (d e w : Nat) :
    RegsBut [R.EV_CTRL_MODE d e, R.EV_CTRL_DIR d e, R.EV_CTRL_QUAL d e, R.EV_CTRL_CQ d e, R.EV_CTRL_N d e, R.EV_CTRL_FIRED d e] s (s.evFields d e w) ∧ OnlyRegs s (s.evFields d e w) :=
  ⟨regsBut_clear (by simp [State.wrAll]) _ (by simp), onlyRegs_clear ((OnlyRegs.refl s).wrAll _) _ _⟩

theorem leads_evCtrlWrite (h : s.takes w (0x30204 + 0x400 * d + 0x10 * e) v.toNat = true) (hd : d.val < s.drones.length ∧ e.val < (s.drone d).slots.length) : Leads s (.evCtrlWrite w d e v) fun t =>
    t.rd (R.EV_CTRL_MODE d e) = bits v.toNat 0 2 ∧ t.rd (R.EV_CTRL_DIR d e) = bits v.toNat 2 2 ∧ t.rd (R.EV_CTRL_QUAL d e) = bits v.toNat 4 1 ∧ t.rd (R.EV_CTRL_CQ d e) = bits v.toNat 5 1 ∧
    t.rd (R.EV_CTRL_N d e) = bits v.toNat 16 16 ∧ t.on (R.EV_CTRL_FIRED d e) = (s.on (R.EV_CTRL_FIRED d e) && !bit v.toNat 6) ∧
    t.drone d = { s.drone d with slots := (s.drone d).slots.set e { disarmed := if bits v.toNat 0 2 = 1 then false else ((s.drone d).slots.getD e {}).disarmed, unarmed := [] } } ∧
    RegsBut [R.EV_CTRL_MODE d e, R.EV_CTRL_DIR d e, R.EV_CTRL_QUAL d e, R.EV_CTRL_CQ d e, R.EV_CTRL_N d e, R.EV_CTRL_FIRED d e] s t ∧ DroneWritten d s t := by
  have hw := writeReg_EV_CTRL d e h
  rw [bv32_mod] at hw
  obtain ⟨m1, m2, m3, m4, m5⟩ := evFields_values s d e v.toNat
  have m6 := evFields_fired s d e v.toNat
  obtain ⟨hbut, hor⟩ := evFields_frame s d e v.toNat
  have hq : s.writeEvCtrl d e v.toNat = (s.evFields d e v.toNat).setDrone d { (s.evFields d e v.toNat).drone d with
      slots := modAt ((s.evFields d e v.toNat).drone d).slots e fun x => { disarmed := if bits v.toNat 0 2 = 1 then false else x.disarmed, unarmed := [] } } := rfl
  rw [hq] at hw
  generalize s.evFields d e v.toNat = q at *
  rw [hor.drone d, modAt_set _ _ {} hd.2] at hw
  have hstep := DroneStep.of_regs (d := d) hor
  exact .intro rfl hw ⟨m1, m2, m3, m4, m5, m6, drone_same q _ (by rw [hstep.length]; exact hd.1), hbut.of_regs rfl, (hstep.trans (DroneStep.set q d _)).written⟩

/-! ### Reads (R74, R787) -/

set_option Elab.async false in
theorem found_DRN_SNAP_LO : ∀ d : Fin 16, hitAt (0x30060 + 0x400 * d) = some (0x30060, [d.val], none) := by decide +kernel

theorem readReg_DRN_SNAP_LO (h : s.gives w (0x30060 + 0x400 * d) = true) : s.readReg w (0x30060 + 0x400 * d) = (s.drnSnap d).answers .ok (s.phase d % 2 ^ 32) [] :=
  readReg_live h (found_DRN_SNAP_LO d) fun hit hb hx hu => by
    simp [State.popRead, State.liveWord, State.readEffect, hb, hu, RegHit.i, hx]

theorem drnSnap_values (s : State) (d : Nat) : (s.drnSnap d).rd (R.DRN_SNAP_HI_CYCLE d) = (s.drone d).cyc % 2 ^ 16 ∧ (s.drnSnap d).rd (R.DRN_SNAP_HI_STATE d) = s.drnState d % 8 ∧
    (s.drnSnap d).rd (R.DRN_SNAP_HI_QUALITY d) = s.drnQual d % 4 ∧ (s.drnSnap d).rd (R.DRN_SNAP_HI_DIR d) = s.rd (R.DRN_STAT_DIR d) % 2 ∧
    RegsBut [R.DRN_SNAP_HI_CYCLE d, R.DRN_SNAP_HI_STATE d, R.DRN_SNAP_HI_QUALITY d, R.DRN_SNAP_HI_DIR d] s (s.drnSnap d) ∧ OnlyRegs s (s.drnSnap d) := by
  unfold State.drnSnap
  refine ⟨?_, ?_, ?_, ?_, by simp [State.wrAll], (OnlyRegs.refl s).wrAll _⟩ <;>
    (simp (disch := (simp only [R.DRN_SNAP_HI_CYCLE, R.DRN_SNAP_HI_STATE, R.DRN_SNAP_HI_QUALITY, R.DRN_SNAP_HI_DIR]; omega)) only [State.wrAll, State.rd_wr_ne]
     exact State.rd_wr_same _ _ _)

theorem leads_drnSnapRead (h : s.gives w (0x30060 + 0x400 * d) = true) : Leads s (.drnSnapRead w d) fun t =>
    t.answer.st = .ok ∧ t.answer.value = s.phase d ∧ t.rd (R.DRN_SNAP_HI_CYCLE d) = (s.drone d).cyc % 2 ^ 16 ∧ t.rd (R.DRN_SNAP_HI_STATE d) = s.drnState d % 8 ∧
    t.rd (R.DRN_SNAP_HI_QUALITY d) = s.drnQual d % 4 ∧ t.rd (R.DRN_SNAP_HI_DIR d) = s.rd (R.DRN_STAT_DIR d) % 2 ∧
    RegsBut [R.DRN_SNAP_HI_CYCLE d, R.DRN_SNAP_HI_STATE d, R.DRN_SNAP_HI_QUALITY d, R.DRN_SNAP_HI_DIR d] s t ∧ t = { s with regs := t.regs, answer := t.answer } := by
  have e := readReg_DRN_SNAP_LO h
  obtain ⟨m1, m2, m3, m4, m5, hor⟩ := drnSnap_values s d
  generalize s.drnSnap d = q at *
  exact .intro rfl e ⟨rfl, Nat.mod_eq_of_lt (bits_lt _ 32 32), m1, m2, m3, m4, m5.of_regs rfl, by rw [hor]; rfl⟩

set_option Elab.async false in
theorem found_LATCH_last : hitAt 0x3508C = some (0x35000, [35], none) := by decide +kernel

set_option Elab.async false in
theorem fields_LATCH_last : fieldsAt 0x3508C = some [⟨0, 32, .ro, []⟩] := by decide +kernel

theorem leads_latchBankRead (h : s.gives w 0x3508C = true) : Leads s (.latchBankRead w) fun t =>
    t.answer.st = .ok ∧ t.answer.value = s.rd (R.LATCH_WORD 35) % 2 ^ 32 ∧ t = { s with latchUnread := false, answer := t.answer } := by
  obtain ⟨hit, hf, e⟩ := readReg_gives h
  obtain ⟨hb, hx, hu⟩ := hitAt_some hf found_LATCH_last
  have hl := fieldsAt_some hf fields_LATCH_last
  have ht : s.regTake w 0x3508C hit = (s.rd (R.LATCH_WORD 35), { s with latchUnread := false }) := by
    simp [State.regTake, State.popRead, State.liveWord, State.readEffect, hb, hu, hl, State.readFields, R.LATCH_WORD]
  rw [ht] at e
  exact .intro rfl e ⟨rfl, rfl, rfl⟩

/-- Settles O33: DRN_CTRL sets its fields and then runs the parts of its commands; the other registers set fields, event slots or the snapshot. -/
theorem droneCommands : Obligations.DroneCommands := by
  unfold Obligations.DroneCommands
  refine ⟨?enable, ?refused, ?off, ?reacq, ?preset, ?clear, ?primary, ?phase, ?ctrl, ?snap, ?latch⟩
  case enable => exact fun s s1 w d v g h h1 hd hs hv hb hg => leads_drnEnable h h1 hd hs hv hb hg
  case refused => exact fun s s1 w d v h h1 hs hv hb => leads_drnEnable_refused h h1 hs hv hb
  case off => exact fun s s1 w d v h h1 hd hs hv => leads_drnEnable_off h h1 hd hs hv
  case reacq => exact fun s s1 w d v h h1 hd hs hv hb => leads_reacq h h1 hd hs hv hb
  case preset => exact fun s s1 w d v h h1 hd hs hv => leads_presetGo h h1 hd hs hv
  case clear => exact fun s s1 w d v h h1 hs hv => leads_drnCntClr h h1 hs hv
  case primary => exact fun s w d v h => leads_altActiveReturn h
  case phase => exact fun s w d e v h hd => leads_evPhaseWrite h hd
  case ctrl => exact fun s w d e v h hd => leads_evCtrlWrite h hd
  case snap => exact fun s w d h => leads_drnSnapRead h
  case latch => exact fun s w h => leads_latchBankRead h

end Sys2Proof.Machine
end

section
/-! PROOFS. The field rings (R602 to R604 of spec/18_field_interfaces.md). -/

namespace Sys2Proof.Machine

variable {s t : State} {w : Who} {v : BitVec 32} {r : RingId} {b : Nat}

/-! ### Where the rings stand -/

theorem ringBase_bounds (r : RingId) : 0x310400 ≤ ringBase r ∧ ringBase r < 0x324000 := by
  cases r with
  | ethTx p t => simp only [ringBase, ethTxRing]; omega
  | ethRx p t => simp only [ringBase, ethRxRing]; omega
  | can c => simp only [ringBase, canRing]; omega

/-! ### FR_TAIL (R602) -/

set_option Elab.async false in
theorem found_FR_TAIL_tx : ∀ (p : Fin 4) (t : Fin 8), hitAt (ethTxRing p t + 0xC) = some (0x31040C, [p.val, t.val], none) := by decide +kernel

set_option Elab.async false in
theorem found_FR_TAIL_rx : ∀ (p : Fin 4) (t : Fin 8), hitAt (ethRxRing p t + 0xC) = some (0x31050C, [p.val, t.val], none) := by decide +kernel

set_option Elab.async false in
theorem found_FR_TAIL_can : ∀ c : Fin 4, hitAt (canRing c + 0xC) = some (0x32002C, [c.val], none) := by decide +kernel

/-- The rings of the Ethernet ports lie at the offsets of R632. -/
theorem regEffect_ethRing {a word : Nat} {hit : RegHit} (hu : hit.unit = none) (ha : 0x310000 ≤ a ∧ a < 0x314000) (ho : 0x400 ≤ a % 0x1000 ∧ a % 0x1000 < 0x600) :
    s.regEffect w a hit word = (s.writeRing a (a / 0x20 * 0x20) hit word, .ok) := by
  simp (disch := omega) only [State.regEffect, hu, if_neg, if_pos, State.writeEth]

theorem regEffect_canRing {a word : Nat} {hit : RegHit} (hu : hit.unit = none) (ha : 0x320000 ≤ a ∧ a < 0x330000) (ho : 0x20 ≤ a % 0x1000 ∧ a % 0x1000 < 0x38) :
    s.regEffect w a hit word = (s.writeRing a (canRing hit.i) hit word, .ok) := by
  simp (disch := omega) only [State.regEffect, hu, if_neg, if_pos, State.writeCan]

theorem writeRing_tail {hit : RegHit} {word : Nat} : s.writeRing (b + 0xC) b hit word = s.writeFrTail b (bits word 0 12) := by
  simp [State.writeRing]

theorem writeReg_FR_TAIL (h : s.takes w (ringBase r + 0xC) v.toNat = true) : s.writeReg w (ringBase r + 0xC) v.toNat = (s.writeFrTail (ringBase r) (bits v.toNat 0 12)).answers .ok 0 [] := by
  obtain ⟨hit, hf, he⟩ := writeReg_takes h
  have hr : s.regEffect w (ringBase r + 0xC) hit (v.toNat % 2 ^ 32) = (s.writeFrTail (ringBase r) (bits v.toNat 0 12), .ok) := by
    rw [bv32_mod]
    cases r with
    | ethTx p t =>
      obtain ⟨-, -, hu⟩ := hitAt_some hf (found_FR_TAIL_tx p t)
      have hb : (ethTxRing p t + 0xC) / 0x20 * 0x20 = ethTxRing p t := by simp only [ethTxRing]; omega
      rw [ringBase, regEffect_ethRing hu (by simp only [ethTxRing]; omega) (by simp only [ethTxRing]; omega), hb, writeRing_tail]
    | ethRx p t =>
      obtain ⟨-, -, hu⟩ := hitAt_some hf (found_FR_TAIL_rx p t)
      have hb : (ethRxRing p t + 0xC) / 0x20 * 0x20 = ethRxRing p t := by simp only [ethRxRing]; omega
      rw [ringBase, regEffect_ethRing hu (by simp only [ethRxRing]; omega) (by simp only [ethRxRing]; omega), hb, writeRing_tail]
    | can c =>
      obtain ⟨-, hx, hu⟩ := hitAt_some hf (found_FR_TAIL_can c)
      have hi : hit.i = c.val := by simp [RegHit.i, hx]
      rw [ringBase, regEffect_canRing hu (by simp only [canRing]; omega) (by simp only [canRing]; omega), hi, writeRing_tail]
  rw [hr] at he
  exact he (.inl rfl)

theorem leads_frTailWrite {n x : Nat} (hb : b = ringBase r ∧ n = s.frSize b ∧ x = bits v.toNat 0 12) (h : s.takes w (b + 0xC) v.toNat = true)
    (hx : x < n ∧ (s.rd (frTail b) + n - s.rd (frHead b) % n) % n ≤ (x + n - s.rd (frHead b) % n) % n) : Leads s (.frTailWrite r w v) fun t =>
    t.rd (frTail b) = x ∧ RegsBut [frTail b] s t ∧ t = { s with regs := t.regs, answer := t.answer } ∧ t.answer.st = .ok := by
  obtain ⟨rfl, rfl, rfl⟩ := hb
  have e := writeReg_FR_TAIL h
  have hw : s.writeFrTail (ringBase r) (bits v.toNat 0 12) = s.wr (frTail (ringBase r)) (bits v.toNat 0 12) := if_neg (by rw [not_or]; exact ⟨Nat.not_le.mpr hx.1, Nat.not_lt.mpr hx.2⟩)
  rw [hw] at e
  exact .intro rfl e ⟨(State.rd_wr_same s (frTail (ringBase r)) _).trans (bits_mod _ 0 12), RegsBut.of_regs (regsBut_wr_self s (frTail (ringBase r)) _) rfl, rfl, rfl⟩

theorem leads_frTailWrite_ignored {n x : Nat} (hb : b = ringBase r ∧ n = s.frSize b ∧ x = bits v.toNat 0 12) (h : s.takes w (b + 0xC) v.toNat = true)
    (hx : n ≤ x ∨ (x + n - s.rd (frHead b) % n) % n < (s.rd (frTail b) + n - s.rd (frHead b) % n) % n) : Leads s (.frTailWrite r w v) fun t =>
    t.on (frTailErr b) = true ∧ RegsBut [frTailErr b] s t ∧ t = { s with regs := t.regs, answer := t.answer } ∧ t.answer.st = .ok := by
  obtain ⟨rfl, rfl, rfl⟩ := hb
  have e := writeReg_FR_TAIL h
  have hw : s.writeFrTail (ringBase r) (bits v.toNat 0 12) = s.wr (frTailErr (ringBase r)) 1 := if_pos hx
  rw [hw] at e
  exact .intro rfl e ⟨State.on_wr_same s (frTailErr (ringBase r)) 1, RegsBut.of_regs (regsBut_wr_self s (frTailErr (ringBase r)) 1) rfl, rfl, rfl⟩

/-! ### The write-back of an entry (R604) -/

theorem frDoneOf_set_same (s : State) (b : Nat) (l : List (List Byte)) : (s.setFrDone b l).frDoneOf b = l := tget_tset_same _ _ _ _

theorem frDoneOf_set_ne (s : State) (l : List (List Byte)) {b x : Nat} (h : x ≠ b) : (s.setFrDone b l).frDoneOf x = s.frDoneOf x := tget_tset_ne _ _ _ h

/-- The entry goes to memory and the head passes it. -/
def State.frBack (s : State) (b : Nat) (e : List Byte) (l : List (List Byte)) : State :=
  ((s.gmWrites (s.frWho b) (s.frEntryAt b (s.rd (frHead b))) e).1.setFrDone b l).wr (frHead b) ((s.rd (frHead b) + 1) % s.frSize b)

/-- Whether the token sink of the safety island is told of an entry. -/
def State.frTellsSafety (s : State) (b : Nat) (e : List Byte) : Bool :=
  (s.frSafety b || (!frIsCan b && decide ((e.getD 20 0).toNat < 16) && s.on (R.EF_CTL_TO_SAFETY (frIndex b) (e.getD 20 0).toNat))) && (frIsCan b || (0x100 ≤ (b - 0x310000) % 0x1000 - 0x400))

theorem frEntryDone_eq {e : List Byte} {l : List (List Byte)} (h : s.frDoneOf b = e :: l) : s.frEntryDone b =
    if s.frTellsSafety b e then (s.frBack b e l).token 0x68 (s.rd (frContext b)) (s.rd (frCounter b))
    else if bit (e.getD (if frIsCan b then 6 else 10) 0).toNat 1 || s.on (frTokEn b) then (s.frBack b e l).token (s.rd (frUnit b)) (s.rd (frContext b)) (s.rd (frCounter b))
    else s.frBack b e l := by
  simp only [State.frEntryDone, h]
  rfl

theorem frTellsSafety_false {e : List Byte} (h : s.frSafety b = false ∧ ∀ k < 16, s.on (R.EF_CTL_TO_SAFETY (frIndex b) k) = false) : s.frTellsSafety b e = false := by
  unfold State.frTellsSafety
  rw [h.1]
  by_cases hk : (e.getD 20 0).toNat < 16
  · rw [h.2 _ hk]; simp
  · rw [decide_eq_false hk]; simp

/-- What the write-back of an entry leaves, from the state its write ends in. -/
theorem frBack_values (q : State) (b h : Nat) (l : List (List Byte)) : ((q.setFrDone b l).wr (frHead b) h).frDoneOf b = l ∧ ((q.setFrDone b l).wr (frHead b) h).rd (frHead b) = h % 2 ^ 12 ∧
    (∀ x, x ≠ b → ((q.setFrDone b l).wr (frHead b) h).frDoneOf x = q.frDoneOf x) ∧ RegsBut [frHead b] q ((q.setFrDone b l).wr (frHead b) h) :=
  ⟨frDoneOf_set_same q b l, State.rd_wr_same (q.setFrDone b l) (frHead b) h, fun _ hx => frDoneOf_set_ne q l hx,
    (RegsBut.of_regs (RegsBut.refl _ q) rfl).trans (regsBut_wr_self (q.setFrDone b l) (frHead b) h)⟩

/-- The write-back with a token: the token is the last message. -/
theorem frBack_token (q : State) (r : RingId) (h : Nat) (l : List (List Byte)) (u c k : Nat) : ((q.setFrDone (ringBase r) l).wr (frHead (ringBase r)) h).token u c k =
    { (q.setFrDone (ringBase r) l).wr (frHead (ringBase r)) h with msgs := q.msgs ++ [(tokenMsg q.chip u c k 1 (q.epochOf u) 1, 0)] } := by
  have hb := ringBase_bounds r
  have hc : ((q.setFrDone (ringBase r) l).wr (frHead (ringBase r)) h).chip = q.chip :=
    State.rd_wr_ne _ _ (by simp only [R.MEM_CHIP_ID_CHIP_ID, frHead, frF]; omega)
  rw [State.token, hc]
  rfl

variable {rs : List Reply} {e : List Byte} {l : List (List Byte)} {q : State × Status} {n : Nat}

/-- A finished entry that tells nobody. -/
theorem frEntryDone_quiet {a : State} (hd : a.frDoneOf b = e :: l) (hq : q = a.gmWrites (a.frWho b) (a.frEntryAt b (a.rd (frHead b))) e) (hn : n = (a.rd (frHead b) + 1) % a.frSize b)
    (ht : bit (e.getD (if frIsCan b then 6 else 10) 0).toNat 1 = false ∧ a.on (frTokEn b) = false) (hs : a.frTellsSafety b e = false) : a.frEntryDone b = (q.1.setFrDone b l).wr (frHead b) n := by
  rw [frEntryDone_eq hd, hs, ht.1, ht.2, if_neg (by decide), if_neg (by decide), State.frBack, hq, hn]

/-- A finished entry whose token goes to the target in FR_CFG. -/
theorem frEntryDone_token {a : State} (hd : a.frDoneOf b = e :: l) (hq : q = a.gmWrites (a.frWho b) (a.frEntryAt b (a.rd (frHead b))) e) (hn : n = (a.rd (frHead b) + 1) % a.frSize b)
    (ht : bit (e.getD (if frIsCan b then 6 else 10) 0).toNat 1 = true ∨ a.on (frTokEn b) = true) (hs : a.frTellsSafety b e = false) :
    a.frEntryDone b = ((q.1.setFrDone b l).wr (frHead b) n).token (a.rd (frUnit b)) (a.rd (frContext b)) (a.rd (frCounter b)) := by
  rw [frEntryDone_eq hd, hs, if_neg (by decide), if_pos (Bool.or_eq_true_iff.mpr ht), State.frBack, hq, hn]

/-- A finished entry whose token goes to the safety island. -/
theorem frEntryDone_safety {a : State} (hd : a.frDoneOf b = e :: l) (hq : q = a.gmWrites (a.frWho b) (a.frEntryAt b (a.rd (frHead b))) e) (hn : n = (a.rd (frHead b) + 1) % a.frSize b)
    (hs : a.frTellsSafety b e = true) : a.frEntryDone b = ((q.1.setFrDone b l).wr (frHead b) n).token 0x68 (a.rd (frContext b)) (a.rd (frCounter b)) := by
  rw [frEntryDone_eq hd, hs, if_pos rfl, State.frBack, hq, hn]

theorem leads_fieldEntryDone (hb : b = ringBase r ∧ s.frDoneOf b = e :: l) (hq : q = State.gmWrites { s with replies := rs } (s.frWho b) (s.frEntryAt b (s.rd (frHead b))) e)
    (ht : bit (e.getD (if frIsCan b then 6 else 10) 0).toNat 1 = false ∧ s.on (frTokEn b) = false) (hs : s.frSafety b = false ∧ ∀ k < 16, s.on (R.EF_CTL_TO_SAFETY (frIndex b) k) = false) :
    Leads s (.fieldEntryDone r rs) fun t => t.frDoneOf b = l ∧ t.rd (frHead b) = (s.rd (frHead b) + 1) % s.frSize b % 2 ^ 12 ∧ (∀ x, x ≠ b → t.frDoneOf x = q.1.frDoneOf x) ∧
    RegsBut [frHead b] q.1 t ∧ t = { q.1 with regs := t.regs, frDone := t.frDone, replies := [] } := by
  obtain ⟨rfl, hd⟩ := hb
  have e1 := frEntryDone_quiet (a := { s with replies := rs }) (n := (s.rd (frHead (ringBase r)) + 1) % s.frSize (ringBase r)) hd hq rfl ht (frTellsSafety_false hs)
  generalize (s.rd (frHead (ringBase r)) + 1) % s.frSize (ringBase r) = n at e1 ⊢
  obtain ⟨m1, m2, m3, m4⟩ := frBack_values q.1 (ringBase r) n l
  have hx : (q.1.setFrDone (ringBase r) l).wr (frHead (ringBase r)) n = { q.1 with regs := ((q.1.setFrDone (ringBase r) l).wr (frHead (ringBase r)) n).regs, frDone := ((q.1.setFrDone (ringBase r) l).wr (frHead (ringBase r)) n).frDone } := rfl
  generalize (q.1.setFrDone (ringBase r) l).wr (frHead (ringBase r)) n = x at *
  exact .intro rfl (withReplies_eq e1) ⟨m1, m2, m3, m4.of_regs rfl, by rw [hx]⟩

/-- A finished entry whose token goes to a context: what the write-back leaves, and the message. -/
theorem leads_fieldEntryDone_sends {u : Nat} (hn : n = (s.rd (frHead (ringBase r)) + 1) % s.frSize (ringBase r))
    (hu : State.frEntryDone { s with replies := rs } (ringBase r) = ((q.1.setFrDone (ringBase r) l).wr (frHead (ringBase r)) n).token u (s.rd (frContext (ringBase r))) (s.rd (frCounter (ringBase r)))) :
    Leads s (.fieldEntryDone r rs) fun t => t.frDoneOf (ringBase r) = l ∧ t.rd (frHead (ringBase r)) = (s.rd (frHead (ringBase r)) + 1) % s.frSize (ringBase r) % 2 ^ 12 ∧
    t.msgs = q.1.msgs ++ [(tokenMsg q.1.chip u (s.rd (frContext (ringBase r))) (s.rd (frCounter (ringBase r))) 1 (q.1.epochOf u) 1, 0)] ∧
    RegsBut [frHead (ringBase r)] q.1 t ∧ t = { q.1 with regs := t.regs, frDone := t.frDone, msgs := t.msgs, replies := [] } := by
  rw [← hn]
  rw [frBack_token] at hu
  obtain ⟨m1, m2, -, m4⟩ := frBack_values q.1 (ringBase r) n l
  have hx : (q.1.setFrDone (ringBase r) l).wr (frHead (ringBase r)) n = { q.1 with regs := ((q.1.setFrDone (ringBase r) l).wr (frHead (ringBase r)) n).regs, frDone := ((q.1.setFrDone (ringBase r) l).wr (frHead (ringBase r)) n).frDone } := rfl
  generalize (q.1.setFrDone (ringBase r) l).wr (frHead (ringBase r)) n = x at *
  exact .intro rfl (withReplies_eq hu) ⟨m1, m2, rfl, m4.of_regs rfl, by rw [hx]⟩

theorem leads_fieldEntryDone_token (hb : b = ringBase r ∧ s.frDoneOf b = e :: l) (hq : q = State.gmWrites { s with replies := rs } (s.frWho b) (s.frEntryAt b (s.rd (frHead b))) e)
    (ht : bit (e.getD (if frIsCan b then 6 else 10) 0).toNat 1 = true ∨ s.on (frTokEn b) = true) (hs : s.frSafety b = false ∧ ∀ k < 16, s.on (R.EF_CTL_TO_SAFETY (frIndex b) k) = false) :
    Leads s (.fieldEntryDone r rs) fun t => t.frDoneOf b = l ∧ t.rd (frHead b) = (s.rd (frHead b) + 1) % s.frSize b % 2 ^ 12 ∧
    t.msgs = q.1.msgs ++ [(tokenMsg q.1.chip (s.rd (frUnit b)) (s.rd (frContext b)) (s.rd (frCounter b)) 1 (q.1.epochOf (s.rd (frUnit b))) 1, 0)] ∧
    RegsBut [frHead b] q.1 t ∧ t = { q.1 with regs := t.regs, frDone := t.frDone, msgs := t.msgs, replies := [] } := by
  obtain ⟨rfl, hd⟩ := hb
  exact leads_fieldEntryDone_sends rfl (frEntryDone_token (a := { s with replies := rs }) (n := (s.rd (frHead (ringBase r)) + 1) % s.frSize (ringBase r)) hd hq rfl ht (frTellsSafety_false hs))

theorem frSafety_can (s : State) (c : Fin 4) : s.frSafety (canRing c) = s.on (R.CAN_CTRL_SAFETY c) ∧ frIsCan (canRing c) = true := by
  have hcan : frIsCan (canRing c) = true := decide_eq_true (by simp only [canRing]; omega)
  have hi : frIndex (canRing c) = c.val := by
    rw [frIndex, hcan, if_pos rfl]
    simp only [canRing]
    omega
  refine ⟨?_, hcan⟩
  rw [State.frSafety]
  simp only [hcan, hi, if_true]

theorem leads_fieldEntryDone_safety {c : Fin 4} (hb : b = canRing c ∧ s.frDoneOf b = e :: l)
    (hq : q = State.gmWrites { s with replies := rs } { ini := 0x27, cls := 0, remote := false } (s.frEntryAt b (s.rd (frHead b))) e) (hs : s.on (R.CAN_CTRL_SAFETY c) = true) :
    Leads s (.fieldEntryDone (.can c) rs) fun t => t.frDoneOf b = l ∧ t.rd (frHead b) = (s.rd (frHead b) + 1) % s.frSize b % 2 ^ 12 ∧
    t.msgs = q.1.msgs ++ [(tokenMsg q.1.chip 0x68 (s.rd (frContext b)) (s.rd (frCounter b)) 1 (q.1.epochOf 0x68) 1, 0)] ∧
    RegsBut [frHead b] q.1 t ∧ t = { q.1 with regs := t.regs, frDone := t.frDone, msgs := t.msgs, replies := [] } := by
  obtain ⟨rfl, hd⟩ := hb
  obtain ⟨hsaf, hcan⟩ := frSafety_can s c
  have hwho : s.frWho (canRing c) = { ini := 0x27, cls := 0, remote := false } := by rw [State.frWho, hsaf, hs, if_pos rfl]
  have htell : s.frTellsSafety (canRing c) e = true := by rw [State.frTellsSafety, hsaf, hs, hcan]; rfl
  rw [← hwho] at hq
  exact leads_fieldEntryDone_sends (r := .can c) rfl (frEntryDone_safety (a := { s with replies := rs }) (b := canRing c) hd hq rfl htell)

end Sys2Proof.Machine
end

section
/-! PROOFS. Ethernet frames received (R607 of spec/18_field_interfaces.md). -/

namespace Sys2Proof.Machine

variable {s t : State} {p speed : Fin 4} {f : List Byte} {rs : List Reply} {b i k n : Nat}

/-! ### What the link state of a port does not touch -/

/-- The state of a port's link may have changed, and what no frame goes by. -/
structure LinkSame (p : Nat) (s t : State) : Prop where
  rd : ∀ f : Fld, f.key < (0x310004 + 0x1000 * p) * 8 ∨ (0x310004 + 0x1000 * p) * 8 + 3 ≤ f.key → t.rd f = s.rd f
  sysAcc : t.sysAcc = s.sysAcc
  frDone : t.frDone = s.frDone
  ethTurn : t.ethTurn = s.ethTurn

theorem linkSame_linkUp (s : State) (p speed : Nat) (rs : List Reply) : LinkSame p s (State.linkUp { s with replies := rs } p speed) := by
  have hor : OnlyRegs { s with replies := rs } (State.linkUp { s with replies := rs } p speed) := (OnlyRegs.refl _).wrAll _
  refine ⟨fun f hf => ?_, by rw [hor], by rw [hor], by rw [hor]⟩
  unfold State.linkUp
  simp (disch := (simp only [R.ETH_STAT_LINK, R.ETH_STAT_SPEED]; omega)) only [State.wrAll, State.rd_wr_ne]
  rfl

theorem LinkSame.on {p : Nat} (h : LinkSame p s t) {f : Fld} (hf : f.key < (0x310004 + 0x1000 * p) * 8 ∨ (0x310004 + 0x1000 * p) * 8 + 3 ≤ f.key) : t.on f = s.on f :=
  congrArg (· != 0) (h.rd f hf)

theorem LinkSame.accepts {p : Nat} (h : LinkSame p s t) (f : List Byte) : t.ethAccepts p f = s.ethAccepts p f := by
  have h1 := h.rd
  have h2 := @LinkSame.on s t p h
  unfold State.ethAccepts
  simp (disch := (simp only [R.ETH_CTRL_PROMISC, R.ETH_MAC_LO_MAC, R.ETH_MAC_HI_MAC, R.EF_CTL_EN_MAC, R.EF_MAC_LO_MAC, R.EF_MAC_HI_MAC]; omega)) only [h1, h2]

theorem LinkSame.matches {p : Nat} (h : LinkSame p s t) (k : Nat) (f : List Byte) : t.efMatches p k f = s.efMatches p k f := by
  have h1 := h.rd
  have h2 := @LinkSame.on s t p h
  unfold State.efMatches
  simp (disch := (simp only [R.EF_CTL_EN_ET, R.EF_ETYPE_ETYPE, R.EF_CTL_EN_MAC, R.EF_MAC_LO_MAC, R.EF_MAC_HI_MAC]; omega)) only [h1, h2]

theorem LinkSame.target {p : Nat} (h : LinkSame p s t) (f : List Byte) : t.ethTarget p f = s.ethTarget p f := by
  unfold State.ethTarget
  simp only [h.matches, h.rd (R.ETH_PCPMAP_PCP_MAP p) (by simp only [R.ETH_PCPMAP_PCP_MAP]; omega)]
  split
  · rw [h.rd (R.EF_CTL_RING p _) (by simp only [R.EF_CTL_RING]; omega)]
  · rfl

/-- The rings of a port lie behind its status. -/
theorem LinkSame.ring {p : Nat} (h : LinkSame p s t) (hb : 0x310400 + 0x1000 * p ≤ b) {off lo w : Nat} : t.rd (frF b off lo w) = s.rd (frF b off lo w) :=
  h.rd _ (.inr (by simp only [frF]; omega))

theorem LinkSame.next {p : Nat} (h : LinkSame p s t) (hb : 0x310400 + 0x1000 * p ≤ b) : t.frNext b = s.frNext b := by
  unfold State.frNext State.frSize State.on frSizeF frHead frEnable frTail State.frDoneOf
  simp only [h.ring hb, h.frDone]

theorem LinkSame.who {p : Nat} (h : LinkSame p s t) (hb : 0x310400 + 0x1000 * p ≤ b ∧ b < 0x310600 + 0x1000 * p ∧ p < 4) : t.frWho b = s.frWho b := by
  have hcan : frIsCan b = false := decide_eq_false (by omega)
  have hidx : frIndex b = p := by
    rw [frIndex, hcan, if_neg (by decide)]
    omega
  have hsafe : t.frSafety b = s.frSafety b := by
    unfold State.frSafety
    simp only [hcan, hidx, Bool.false_eq_true, if_false, h.on (f := R.ETH_CTRL_SAFETY p) (by simp only [R.ETH_CTRL_SAFETY]; omega), fun j => h.rd (R.EF_CTL_RING p j) (by simp only [R.EF_CTL_RING]; omega)]
  unfold State.frWho frClass
  rw [hsafe, h.ring hb.1]

theorem LinkSame.stamp {p : Nat} (h : LinkSame p s t) (f : List Byte) (lat : Nat) : t.ethStamp f lat = s.ethStamp f lat := by
  simp only [State.ethStamp, State.sysTime, h.sysAcc]

/-! ### Frames (R607) -/

/-- A frame that is bad: FCS, short or long. -/
def State.ethBad (s : State) (p : Nat) (f : List Byte) (fcsOk : Bool) : Prop := fcsOk = false ∨ f.length < 60 ∨ s.rd (R.ETH_MAXLEN_MAXLEN p) < f.length

theorem ethReceive_bad {p speed : Nat} {fcsOk : Bool} (he : s.on (R.ETH_CTRL_EN p) = true) (h : s.ethBad p f fcsOk) : s.ethReceive p speed f fcsOk = (s.linkUp p speed).count (R.ETH_STAT_RX_BAD p) 1 := by
  unfold State.ethReceive
  rw [if_neg (by rw [he]; decide), if_pos]
  · rfl
  · simpa [State.ethBad] using h

theorem ethReceive_good {p speed : Nat} (he : s.on (R.ETH_CTRL_EN p) = true ∧ 60 ≤ f.length ∧ f.length ≤ s.rd (R.ETH_MAXLEN_MAXLEN p)) : s.ethReceive p speed f true =
    if !(s.linkUp p speed).ethAccepts p f then s.linkUp p speed else if ethType f = (s.linkUp p speed).rd R.WW_ETYPE_ETYPE then (s.linkUp p speed).ethTunnel p f else (s.linkUp p speed).ethSteer p f := by
  obtain ⟨h1, h2, h3⟩ := he
  unfold State.ethReceive
  rw [if_neg (by rw [h1]; decide), if_neg]
  · rfl
  · simp only [Bool.not_true, Bool.false_eq_true, false_or, not_or, Nat.not_lt]; exact ⟨h2, h3⟩

theorem ethSteer_eq (s : State) (p : Nat) (f : List Byte) : s.ethSteer p f = s.ethToRing p (s.ethTarget p f).1 (s.ethTarget p f).2 f := by
  unfold State.ethSteer State.ethTarget
  cases (List.range 16).find? (fun k => s.efMatches p k f) with
  | some k => rfl
  | none => rfl

theorem linkUp_replies (s : State) (rs : List Reply) (p speed : Nat) : State.linkUp { s with replies := rs } p speed = { s.linkUp p speed with replies := rs } := rfl

theorem linkUp_regs (s : State) (p speed : Nat) : OnlyRegs s (s.linkUp p speed) := (OnlyRegs.refl s).wrAll _

theorem leads_ethFrameReceive_bad {fcsOk : Bool} (he : s.on (R.ETH_CTRL_EN p) = true) (h : s.ethBad p f fcsOk) : Leads s (.ethFrameReceive p speed f fcsOk rs) fun t =>
    t.rd (R.ETH_STAT_RX_BAD p) = satAdd 16 (s.rd (R.ETH_STAT_RX_BAD p)) 1 ∧ RegsBut [R.ETH_STAT_RX_BAD p] (s.linkUp p speed) t ∧ t = { s with regs := t.regs, replies := [] } := by
  have e := ethReceive_bad (s := { s with replies := rs }) (speed := speed) he h
  rw [linkUp_replies] at e
  have hc : (s.linkUp p speed).rd (R.ETH_STAT_RX_BAD p) = s.rd (R.ETH_STAT_RX_BAD p) := (linkSame_linkUp s p speed s.replies).rd _ (by simp only [R.ETH_STAT_RX_BAD]; omega)
  have hor := linkUp_regs s p speed
  generalize s.linkUp p speed = q at *
  have hrd : (q.count (R.ETH_STAT_RX_BAD p) 1).rd (R.ETH_STAT_RX_BAD p) = satAdd 16 (s.rd (R.ETH_STAT_RX_BAD p)) 1 := (rd_count_same q (R.ETH_STAT_RX_BAD p) 1).trans (by rw [hc]; rfl)
  have hbut : RegsBut [R.ETH_STAT_RX_BAD p] q (q.count (R.ETH_STAT_RX_BAD p) 1) := regsBut_wr_self q (R.ETH_STAT_RX_BAD p) _
  exact .intro rfl (withReplies_eq e) ⟨hrd, hbut.of_regs rfl, by rw [hor]; rfl⟩

theorem leads_ethFrameReceive_foreign (he : s.on (R.ETH_CTRL_EN p) = true ∧ 60 ≤ f.length ∧ f.length ≤ s.rd (R.ETH_MAXLEN_MAXLEN p)) (ha : s.ethAccepts p f = false) :
    Leads s (.ethFrameReceive p speed f true rs) fun t => t = { s.linkUp p speed with replies := [] } := by
  have e := ethReceive_good (s := { s with replies := rs }) (speed := speed) he
  rw [(linkSame_linkUp s p speed rs).accepts, ha, if_pos (by decide)] at e
  exact .intro rfl (withReplies_eq e) rfl

/-- A frame that the port accepts and that is no tunnel frame goes to its ring. -/
theorem ethReceive_steered (he : s.on (R.ETH_CTRL_EN p) = true ∧ 60 ≤ f.length ∧ f.length ≤ s.rd (R.ETH_MAXLEN_MAXLEN p)) (ha : s.ethAccepts p f = true ∧ ethType f ≠ s.rd R.WW_ETYPE_ETYPE) :
    State.ethReceive { s with replies := rs } p speed f true = (State.linkUp { s with replies := rs } p speed).ethToRing p (s.ethTarget p f).1 (s.ethTarget p f).2 f := by
  have hl := linkSame_linkUp s p speed rs
  have e := ethReceive_good (s := { s with replies := rs }) (speed := speed) he
  rwa [hl.accepts, ha.1, if_neg (by decide), hl.rd R.WW_ETYPE_ETYPE (by simp only [R.WW_ETYPE_ETYPE]; omega), if_neg ha.2, ethSteer_eq, hl.target] at e

theorem ethTarget_lt (s : State) (p : Nat) (f : List Byte) : (s.ethTarget p f).1 < 8 := by
  unfold State.ethTarget
  split
  · exact Nat.mod_lt _ (by decide)
  · exact bits_lt _ _ 3

theorem leads_ethFrameReceive_nobuf (he : s.on (R.ETH_CTRL_EN p) = true ∧ 60 ≤ f.length ∧ f.length ≤ s.rd (R.ETH_MAXLEN_MAXLEN p)) (ha : s.ethAccepts p f = true ∧ ethType f ≠ s.rd R.WW_ETYPE_ETYPE)
    (hb : b = ethRxRing p (s.ethTarget p f).1 ∧ s.frNext b = none) : Leads s (.ethFrameReceive p speed f true rs) fun t =>
    t.rd (frNobuf b) = satAdd 16 (s.rd (frNobuf b)) 1 ∧ RegsBut [frNobuf b] (s.linkUp p speed) t ∧ t = { s with regs := t.regs, replies := [] } := by
  obtain ⟨hb, hn⟩ := hb
  have hlow : 0x310400 + 0x1000 * p ≤ b := by rw [hb, ethRxRing]; omega
  have e := ethReceive_steered (rs := rs) (speed := speed) he ha
  have hn1 : (State.linkUp { s with replies := rs } p speed).frNext b = none := ((linkSame_linkUp s p speed rs).next hlow).trans hn
  unfold State.ethToRing at e
  simp only [← hb, hn1] at e
  rw [linkUp_replies] at e
  have hc : (s.linkUp p speed).rd (frNobuf b) = s.rd (frNobuf b) := (linkSame_linkUp s p speed s.replies).ring hlow
  have hor := linkUp_regs s p speed
  generalize s.linkUp p speed = q at *
  have hrd : (q.count (frNobuf b) 1).rd (frNobuf b) = satAdd 16 (s.rd (frNobuf b)) 1 := (rd_count_same q (frNobuf b) 1).trans (by rw [hc]; rfl)
  have hbut : RegsBut [frNobuf b] q (q.count (frNobuf b) 1) := regsBut_wr_self q (frNobuf b) _
  exact .intro rfl (withReplies_eq e) ⟨hrd, hbut.of_regs rfl, by rw [hor]; rfl⟩

theorem fitBytes_whole {l : List Byte} {n : Nat} (h : l.length = n) : fitBytes n l = l := by
  subst h
  simp [fitBytes]

theorem leBytes_byte (x : Byte) : leBytes 1 x.toNat = [x] := by
  simp [leBytes, Byte]

/-- The entry of a received frame (R605). -/
theorem ethToRing_done {p r fl : Nat} {e : State × Status × List Byte} {q : State × Status} (hi : s.frNext (ethRxRing p r) = some i) (he : e = s.frRead (ethRxRing p r) i) (hok : e.2.1 = .ok ∧ e.2.2.length = 32)
    (hn : n = min (leNat ((e.2.2.drop 8).take 2)) f.length) (hq : q = e.1.gmWrites (s.frWho (ethRxRing p r)) (leNat (e.2.2.take 8)) (f.take n)) :
    s.ethToRing p r fl f = q.1.frFinish (ethRxRing p r) (ethEntry (e.2.2.take 8) n (e.2.2.getD 10 0).toNat (statusNat q.2 + b2n (decide (n < f.length)) * 16 + r % 8 * 32) (s.ethStamp f (s.rd (R.ETH_LAT_ING_LAT p))) (ethTci f) fl) := by
  have hcut : decide (leNat ((e.2.2.drop 8).take 2) < f.length) = decide (n < f.length) := decide_eq_decide.mpr (by omega)
  unfold State.ethToRing
  simp only [hi, ← he, hok.1, if_true, fitBytes_whole hok.2, hcut, ← hn, ← hq, ethEntry, leBytes_byte]

theorem leads_ethFrameReceive {s1 : State} {e : State × Status × List Byte} {q : State × Status} (he : s.on (R.ETH_CTRL_EN p) = true ∧ 60 ≤ f.length ∧ f.length ≤ s.rd (R.ETH_MAXLEN_MAXLEN p))
    (ha : s.ethAccepts p f = true ∧ ethType f ≠ s.rd R.WW_ETYPE_ETYPE) (h1 : s1 = State.linkUp { s with replies := rs } p speed) (hb : b = ethRxRing p (s.ethTarget p f).1 ∧ k = (s.ethTarget p f).2 ∧ s.frNext b = some i)
    (hr : e = s1.frRead b i) (hok : e.2.1 = .ok ∧ e.2.2.length = 32) (hn : n = min (leNat ((e.2.2.drop 8).take 2)) f.length) (hq : q = e.1.gmWrites (s.frWho b) (leNat (e.2.2.take 8)) (f.take n)) :
    Leads s (.ethFrameReceive p speed f true rs) fun t => t.frDoneOf b = q.1.frDoneOf b ++ [ethEntry (e.2.2.take 8) n (e.2.2.getD 10 0).toNat
      (statusNat q.2 + b2n (decide (n < f.length)) * 16 + (s.ethTarget p f).1 % 8 * 32) (s.ethStamp f (s.rd (R.ETH_LAT_ING_LAT p))) (ethTci f) k] ∧
    (∀ x, x ≠ b → t.frDoneOf x = q.1.frDoneOf x) ∧ RegsBut [] q.1 t ∧ t = { q.1 with frDone := t.frDone, replies := [] } := by
  obtain ⟨hb, hk, hi⟩ := hb
  have hlt := ethTarget_lt s p f
  have hrange : 0x310400 + 0x1000 * p.val ≤ b ∧ b < 0x310600 + 0x1000 * p.val ∧ p.val < 4 := by rw [hb, ethRxRing]; omega
  have hl := linkSame_linkUp s p speed rs
  have e1 := ethReceive_steered (rs := rs) (speed := speed) he ha
  rw [← h1] at e1 hl
  rw [ethToRing_done (s := s1) (e := e) (q := q) (n := n) (i := i) (by rw [← hb, hl.next hrange.1]; exact hi) (by rw [← hb]; exact hr) hok hn (by rw [← hb, hl.who hrange]; exact hq), ← hb, ← hk,
    hl.stamp, hl.rd (R.ETH_LAT_ING_LAT p) (by simp only [R.ETH_LAT_ING_LAT]; omega)] at e1
  exact .intro rfl (withReplies_eq e1) ⟨frDoneOf_set_same q.1 b _, fun x hx => frDoneOf_set_ne q.1 _ hx, RegsBut.of_regs (RegsBut.refl _ q.1) rfl, rfl⟩

end Sys2Proof.Machine
end

section
/-! PROOFS. Transmission selection of Ethernet ports (R608 of spec/18_field_interfaces.md). -/

namespace Sys2Proof.Machine

variable {s t : State} {p speed : Fin 4} {rs : List Reply} {b c i n : Nat}

/-! ### The classes in turn -/

theorem classesNext_skip {p speed : Nat} {l l' : List Nat} (h : ∀ k ∈ l, s.classNext p k speed = (s, none)) : State.classesNext p speed (l ++ l') s = State.classesNext p speed l' s := by
  induction l with
  | nil => rfl
  | cons k l ih =>
    rw [List.cons_append, State.classesNext, h k List.mem_cons_self]
    exact ih fun j hj => h j (List.mem_cons_of_mem k hj)

theorem classes_split : ∀ c < 8, [7, 6, 5, 4, 3, 2, 1, 0] = (List.range 8).reverse.take (7 - c) ++ c :: (List.range c).reverse ∧ ∀ k ∈ (List.range 8).reverse.take (7 - c), c < k ∧ k < 8 := by decide

theorem ethTransmit_eq (s : State) (p speed : Nat) : s.ethTransmit p speed = if !s.on (R.ETH_CTRL_EN p) then s else State.classesNext p speed [7, 6, 5, 4, 3, 2, 1, 0] (s.linkUp p speed) := rfl

/-- The highest class with a frame that may start. -/
theorem classesNext_sends {p speed : Nat} {q : State} {f : List Byte} (hc : c < 8) (hk : ∀ k < 8, k ≤ c ∨ s.classNext p k speed = (s, none)) (hn : s.classNext p c speed = (q, some f)) :
    State.classesNext p speed [7, 6, 5, 4, 3, 2, 1, 0] s = { q with ethOut := q.ethOut ++ [(p, f)] } := by
  obtain ⟨hl, hlt⟩ := classes_split c hc
  rw [hl, classesNext_skip fun k hm => (hk k (hlt k hm).2).resolve_left (Nat.not_le.mpr (hlt k hm).1), State.classesNext, hn]

theorem leads_ethFrameTransmit_idle {s1 : State} (he : s.on (R.ETH_CTRL_EN p) = true) (h1 : s1 = State.linkUp { s with replies := rs } p speed) (hk : (List.range 8).all (fun k => decide (s1.classNext p k speed = (s1, none))) = true) :
    Leads s (.ethFrameTransmit p speed rs) fun t => t = { s1 with replies := [] } := by
  have hall : ∀ k ∈ [7, 6, 5, 4, 3, 2, 1, 0], s1.classNext p k speed = (s1, none) := fun k hm =>
    of_decide_eq_true (List.all_eq_true.mp hk k (List.mem_range.mpr (by revert k; decide)))
  have e : State.ethTransmit { s with replies := rs } p speed = s1 := by
    have hen : State.on { s with replies := rs } (R.ETH_CTRL_EN p) = true := he
    rw [ethTransmit_eq, hen, if_neg (by decide), ← h1]
    exact (congrArg (fun l => State.classesNext p speed l s1) (List.append_nil _).symm).trans (classesNext_skip hall)
  exact .intro rfl (withReplies_eq e) rfl

/-! ### The ring frame of a class -/

/-- What gates and marks read stands elsewhere than the link state. -/
theorem LinkSame.gate {p : Nat} (h : LinkSame p s t) (hq : t.qbv = s.qbv) (c ns : Nat) : t.gateOpenFor p c ns = s.gateOpenFor p c ns := by
  have h1 := h.rd
  have h2 := @LinkSame.on s t p h
  have hadm : t.adminList p = s.adminList p := by
    unfold State.adminList
    simp (disch := (simp only [R.QBV_LEN_LEN, R.QBV_ENT_LO_INTERVAL, R.QBV_ENT_HI_GATES, R.QBV_ENT_HI_OP]; omega)) only [h1]
  have hqo : t.qbvOf p = s.qbvOf p := by rw [State.qbvOf, hq]; rfl
  have htime : t.sysTime = s.sysTime := by rw [State.sysTime, h.sysAcc]; rfl
  unfold State.gateOpenFor
  simp (disch := (simp only [R.QBV_CTRL_EN, R.QBV_STAT_OPER, R.QBV_STAT_PENDING, R.QBV_CYCLE_CYCLE]; omega)) only [h1, h2, hadm, hqo, htime]

theorem LinkSame.marked {p : Nat} (h : LinkSame p s t) (e : Bool) (i r : Nat) (l : List Byte) : t.marked e i r l = s.marked e i r l := by
  have hlow (f : Fld) (hf : f.key < 0x310000 * 8) : t.rd f = s.rd f := h.rd f (.inl (by omega))
  have hlowOn (f : Fld) (hf : f.key < 0x310000 * 8) : t.on f = s.on f := congrArg (· != 0) (hlow f hf)
  have hsafe : t.inSafe = s.inSafe := by
    unfold State.inSafe
    exact hlowOn R.SF_STAT_SAFE (by decide)
  unfold State.marked
  rw [hsafe]
  split
  · rfl
  · refine List.foldl_ext _ _ l fun a k hk => ?_
    have hk := List.mem_range.mp hk
    simp (disch := (simp only [R.VM_CFG_EN, R.VM_CFG_TRANSPORT, R.VM_CFG_INDEX, R.VM_CFG_RING, R.VM_CFG_OFFSET, R.VM_MASK_MASK]; omega)) only [hlow, hlowOn]

/-- A frame from the transmit ring of a class: its entry is finished with its time stamp. -/
theorem ethRingFrame_sends {p c speed : Nat} {e d : State × Status × List Byte} {ts : Nat} (hi : s.frNext (ethTxRing p c) = some i) (he : e = s.frRead (ethTxRing p c) i) (hok : e.2.1 = .ok ∧ e.2.2.length = 32)
    (hn : n = leNat ((e.2.2.drop 8).take 2)) (hg : 60 ≤ n ∧ n ≤ s.rd (R.ETH_MAXLEN_MAXLEN p) ∧ s.gateOpenFor p c (ethTime speed n) = true)
    (hd : d = e.1.gmReads (s.frWho (ethTxRing p c)) (leNat (e.2.2.take 8)) n) (hdok : d.2.1 = .ok) (hts : ts = if bit (e.2.2.getD 10 0).toNat 0 then s.ethStamp d.2.2 (s.rd (R.ETH_LAT_EGR_LAT p)) else 0) :
    s.ethRingFrame p c speed = (d.1.frFinish (ethTxRing p c) (e.2.2.take 11 ++ leBytes 1 (c * 32) ++ leBytes 6 ts ++ List.replicate 14 0), some (s.marked true p c d.2.2)) := by
  obtain ⟨hmin, hmax, hgate⟩ := hg
  have hlen : ¬ (n < 60 ∨ s.rd (R.ETH_MAXLEN_MAXLEN p) < n) := by omega
  unfold State.ethRingFrame
  simp only [hi, ← he, hok.1, fitBytes_whole hok.2, ← hn, hlen, hgate, ← hd, hdok, ← hts, ne_eq, not_true_eq_false, if_false, Bool.not_true, Bool.false_eq_true, statusNat, Nat.zero_add]

theorem classNext_ring {p c speed : Nat} {q : State} {f : List Byte} (h : s.safetyNext p c speed = none ∧ s.ethTurn.contains (8 * p + c) = false) (hr : s.ethRingFrame p c speed = (q, some f)) :
    s.classNext p c speed = ({ q with ethTurn := (8 * p + c) :: q.ethTurn.filter (· != 8 * p + c) }, some f) := by
  unfold State.classNext
  simp only [h.1, h.2, Bool.false_eq_true, if_false, State.ringTurn, hr]

theorem ethTransmit_sends {a s1 q : State} {f : List Byte} {p speed : Nat} (he : a.on (R.ETH_CTRL_EN p) = true) (h1 : s1 = a.linkUp p speed) (hc : c < 8)
    (hk : (List.range 8).all (fun k => decide (k ≤ c) || decide (s1.classNext p k speed = (s1, none))) = true) (hn : s1.classNext p c speed = (q, some f)) :
    a.ethTransmit p speed = { q with ethOut := q.ethOut ++ [(p, f)] } := by
  rw [ethTransmit_eq, he, if_neg (by decide), ← h1]
  refine classesNext_sends hc (fun k hk8 => ?_) hn
  simpa using List.all_eq_true.mp hk k (List.mem_range.mpr hk8)

theorem leads_ethFrameTransmit {s1 : State} {e d : State × Status × List Byte} {ts : Nat} (he : s.on (R.ETH_CTRL_EN p) = true ∧ c < 8) (h1 : s1 = State.linkUp { s with replies := rs } p speed)
    (hk : (List.range 8).all (fun k => decide (k ≤ c) || decide (s1.classNext p k speed = (s1, none))) = true) (ht : s1.safetyNext p c speed = none ∧ s.ethTurn.contains (8 * p + c) = false)
    (hb : b = ethTxRing p c ∧ s.frNext b = some i) (hr : e = s1.frRead b i) (hok : e.2.1 = .ok ∧ e.2.2.length = 32) (hn : n = leNat ((e.2.2.drop 8).take 2))
    (hg : 60 ≤ n ∧ n ≤ s.rd (R.ETH_MAXLEN_MAXLEN p) ∧ s.gateOpenFor p c (ethTime speed n) = true) (hd : d = e.1.gmReads (s.frWho b) (leNat (e.2.2.take 8)) n) (hdok : d.2.1 = .ok)
    (hts : ts = (if bit (e.2.2.getD 10 0).toNat 0 = true then s.ethStamp d.2.2 (s.rd (R.ETH_LAT_EGR_LAT p)) else 0)) : Leads s (.ethFrameTransmit p speed rs) fun t =>
    t.ethOut = d.1.ethOut ++ [((p : Nat), s.marked true p c d.2.2)] ∧ t.frDoneOf b = d.1.frDoneOf b ++ [e.2.2.take 11 ++ leBytes 1 (c * 32) ++ leBytes 6 ts ++ List.replicate 14 0] ∧
    t.ethTurn = (8 * p + c) :: d.1.ethTurn.filter (· != 8 * p + c) ∧ (∀ x, x ≠ b → t.frDoneOf x = d.1.frDoneOf x) ∧ RegsBut [] d.1 t ∧
    t = { d.1 with ethOut := t.ethOut, frDone := t.frDone, ethTurn := t.ethTurn, replies := [] } := by
  obtain ⟨hen, hc⟩ := he
  obtain ⟨rfl, hi⟩ := hb
  have hrange : 0x310400 + 0x1000 * p.val ≤ ethTxRing p c ∧ ethTxRing p c < 0x310600 + 0x1000 * p.val ∧ p.val < 4 := by rw [ethTxRing]; omega
  have hl := linkSame_linkUp s p speed rs
  have hq : s1.qbv = s.qbv := by rw [h1, linkUp_regs]
  rw [← h1] at hl
  have hring := ethRingFrame_sends (s := s1) (p := p) (c := c) (speed := speed) (ts := ts) ((hl.next hrange.1).trans hi) hr hok hn
    (by rw [hl.gate hq, hl.rd (R.ETH_MAXLEN_MAXLEN p) (by simp only [R.ETH_MAXLEN_MAXLEN]; omega)]; exact hg) (by rw [hl.who hrange]; exact hd) hdok
    (by rw [hl.stamp, hl.rd (R.ETH_LAT_EGR_LAT p) (by simp only [R.ETH_LAT_EGR_LAT]; omega)]; exact hts)
  rw [hl.marked] at hring
  have hnext := classNext_ring ⟨ht.1, by rw [hl.ethTurn]; exact ht.2⟩ hring
  have e1 := ethTransmit_sends (a := { s with replies := rs }) hen h1 hc hk hnext
  generalize e.2.2.take 11 ++ leBytes 1 (c * 32) ++ leBytes 6 ts ++ List.replicate 14 0 = ent at e1 ⊢
  exact .intro rfl (withReplies_eq e1) ⟨rfl, frDoneOf_set_same d.1 _ _, rfl, fun x hx => frDoneOf_set_ne d.1 _ hx, RegsBut.of_regs (RegsBut.refl _ d.1) rfl, rfl⟩

/-- Settles O34: FR_TAIL within and outside the ring; the write-back of a finished entry; a frame received and a frame sent, each through one entry of its ring. -/
theorem fieldRings : Obligations.FieldRings := by
  unfold Obligations.FieldRings
  refine ⟨?tail, ?ignored, ?done, ?token, ?safety, ?receive, ?bad, ?foreign, ?nobuf, ?send, ?idle⟩
  case tail => exact fun s r w v b n x hb h hx => leads_frTailWrite hb h hx
  case ignored => exact fun s r w v b n x hb h hx => leads_frTailWrite_ignored hb h hx
  case done => exact fun s r rs b e l q hb hq ht hs => leads_fieldEntryDone hb hq ht hs
  case token => exact fun s r rs b e l q hb hq ht hs => leads_fieldEntryDone_token hb hq ht hs
  case safety => exact fun s c rs b e l q hb hq hs => leads_fieldEntryDone_safety hb hq hs
  case receive => exact fun s p speed f rs s1 b i k e n q he ha h1 hb hr hok hn hq => leads_ethFrameReceive he ha h1 hb hr hok hn hq
  case bad => exact fun s p speed f fcsOk rs he h => leads_ethFrameReceive_bad he h
  case foreign => exact fun s p speed f rs he ha => leads_ethFrameReceive_foreign he ha
  case nobuf => exact fun s p speed f rs b he ha hb => leads_ethFrameReceive_nobuf he ha hb
  case send => exact fun s p speed rs s1 c b i n e d ts he h1 hk ht hb hr hok hn hg hd hdok hts => leads_ethFrameTransmit he h1 hk ht hb hr hok hn hg hd hdok hts
  case idle => exact fun s p speed rs s1 he h1 hk => leads_ethFrameTransmit_idle he h1 hk

end Sys2Proof.Machine
end

section
/-! PROOFS. Gate control lists and system time (R609, R612, R627, R790 of spec/18_field_interfaces.md). -/

namespace Sys2Proof.Machine

variable {s t : State} {w : Who} {v : BitVec 32} {p : Fin 4} {q : QbvSt} {e c : Nat}

/-! ### The list of one port -/

theorem qbv_same (s : State) {p : Nat} (x : QbvSt) (h : p < s.qbv.length) : (s.setQbv p x).qbvOf p = x := by
  simp [State.qbvOf, State.setQbv, List.getD_eq_getElem?_getD, h]

theorem qbv_ne (s : State) {p y : Nat} (x : QbvSt) (h : y ≠ p) : (s.setQbv p x).qbvOf y = s.qbvOf y := by
  simp [State.qbvOf, State.setQbv, List.getD_eq_getElem?_getD, List.getElem?_set_ne (Ne.symm h)]

/-- Gates change: the list is put and its entry shows. -/
theorem gateChange_put (s : State) {p : Nat} (x : QbvSt) (h : p < s.qbv.length) : GatesPut p { x with gateAt := some s.now } s (s.gateChange p x) ∧ RegsBut [R.QBV_STAT_ENTRY p] s (s.gateChange p x) ∧
    s.gateChange p x = { s with regs := (s.gateChange p x).regs, qbv := (s.gateChange p x).qbv } :=
  ⟨⟨qbv_same s _ h, State.rd_wr_same (s.setQbv p { x with gateAt := some s.now }) (R.QBV_STAT_ENTRY p) x.idx, fun _ hy => qbv_ne s _ hy⟩,
    (RegsBut.of_regs (RegsBut.refl _ s) rfl).trans (regsBut_wr_self (s.setQbv p { x with gateAt := some s.now }) (R.QBV_STAT_ENTRY p) x.idx), rfl⟩

/-! ### GATE_ENTRY_END (R612) -/

theorem gateEntryEnd_due {p : Nat} (h : s.on (R.QBV_STAT_OPER p) = true ∧ tAfter s.sysTime (s.qbvOf p).entryEnd = true ∧ (s.qbvOf p).gateAt ≠ some s.now) : s.gateEntryEnd p =
    if (s.qbvOf p).entryEnd = (s.qbvOf p).cycleEnd then s.gateChange p ({ s.qbvOf p with cycleEnd := ((s.qbvOf p).cycleEnd + (s.qbvOf p).cycle) % 2 ^ 48 }.enter 0 (s.qbvOf p).cycleEnd)
    else s.gateChange p ((s.qbvOf p).enter ((s.qbvOf p).idx + 1) (s.qbvOf p).entryEnd) := by
  obtain ⟨h1, h2, h3⟩ := h
  unfold State.gateEntryEnd
  simp only [h1, h2, h3, not_true_eq_false, or_self, if_false]

theorem leads_gateEntryEnd (hp : p.val < s.qbv.length) (hq : q = s.qbvOf p) (hs : s.on (R.QBV_STAT_OPER p) = true ∧ tAfter s.sysTime q.entryEnd = true ∧ q.gateAt ≠ some s.now) (hn : q.entryEnd ≠ q.cycleEnd)
    (he : e = (q.entryEnd + (q.entries.getD (q.idx + 1) (0, 0, 0)).1) % 2 ^ 48) : Leads s (.gateEntryEnd p) fun t =>
    GatesPut p { q with idx := q.idx + 1, entryEnd := if q.entries.length ≤ q.idx + 2 ∨ tAfter e q.cycleEnd then q.cycleEnd else e, gateAt := some s.now } s t ∧
    RegsBut [R.QBV_STAT_ENTRY p] s t ∧ t = { s with regs := t.regs, qbv := t.qbv } := by
  subst hq he
  exact .intro rfl ((gateEntryEnd_due hs).trans (if_neg hn)) (gateChange_put s _ hp)

theorem leads_gateEntryEnd_cycle (hp : p.val < s.qbv.length) (hq : q = s.qbvOf p) (hs : s.on (R.QBV_STAT_OPER p) = true ∧ tAfter s.sysTime q.entryEnd = true ∧ q.gateAt ≠ some s.now) (hn : q.entryEnd = q.cycleEnd)
    (he : e = (q.cycleEnd + (q.entries.getD 0 (0, 0, 0)).1) % 2 ^ 48) : Leads s (.gateEntryEnd p) fun t =>
    GatesPut p { q with idx := 0, cycleEnd := (q.cycleEnd + q.cycle) % 2 ^ 48, entryEnd := if q.entries.length ≤ 1 ∨ tAfter e ((q.cycleEnd + q.cycle) % 2 ^ 48) then (q.cycleEnd + q.cycle) % 2 ^ 48 else e, gateAt := some s.now } s t ∧
    RegsBut [R.QBV_STAT_ENTRY p] s t ∧ t = { s with regs := t.regs, qbv := t.qbv } := by
  subst hq he
  exact .intro rfl ((gateEntryEnd_due hs).trans (if_pos hn)) (gateChange_put s _ hp)

theorem leads_gateEntryEnd_early (h : s.on (R.QBV_STAT_OPER p) = false ∨ tAfter s.sysTime (s.qbvOf p).entryEnd = false) : Leads s (.gateEntryEnd p) fun t => t = s := by
  refine .intro rfl (if_pos ?_) rfl
  rcases h with h | h <;> simp [h]

/-! ### QBV_CTRL (R790) -/

theorem qbvBad_congr {p : Nat} (h : ∀ f : Fld, (0x310604 + 0x1000 * p) * 8 ≤ f.key → t.rd f = s.rd f) : t.qbvBad p = s.qbvBad p := by
  unfold State.qbvBad
  simp (disch := (simp only [R.QBV_LEN_LEN, R.QBV_CYCLE_CYCLE, R.QBV_ENT_LO_INTERVAL, R.QBV_ENT_HI_OP]; omega)) only [h]

/-- A write of QBV_CTRL with CHANGE: EN, then the change. -/
theorem writeReg_qbvChange (h : s.takes w (0x310600 + 0x1000 * p) (v ||| 2).toNat = true) :
    s.writeReg w (0x310600 + 0x1000 * p) (v ||| 2).toNat = ((s.wr (R.QBV_CTRL_EN p) (b2n (bit v.toNat 0))).qbvChange p).answers .ok 0 [] := by
  obtain ⟨hit, -, hf, e⟩ := writeReg_QBV_CTRL p h
  have hp : s.plainWrite (0x310600 + 0x1000 * p) hit (v ||| 2).toNat = s.wr (R.QBV_CTRL_EN p) (b2n (bit v.toNat 0)) := by
    simp only [State.plainWrite, hf, State.writeFields, State.writeField, fieldOf_nil]
    rw [bits_zero_w1, bit_or_of_false (by decide)]
    rfl
  rwa [bv32_mod, hp, bit_or_true (by decide), when_true] at e

theorem leads_qbvChange (h : p.val < s.qbv.length ∧ s.takes w (0x310600 + 0x1000 * p) (v ||| 2).toNat = true) (hb : s.qbvBad p = false) : Leads s (.qbvChange p w v) fun t =>
    t.on (R.QBV_STAT_PENDING p) = true ∧ t.on (R.QBV_CTRL_EN p) = bit v.toNat 0 ∧
    t.qbvOf p = { s.qbvOf p with changeAt := nextBoundary (s.rd (R.QBV_BASE_LO_BASE p) + s.rd (R.QBV_BASE_HI_BASE p) * 2 ^ 32) (s.rd (R.QBV_CYCLE_CYCLE p)) s.sysTime } ∧ (∀ x, x ≠ p.val → t.qbvOf x = s.qbvOf x) ∧
    RegsBut [R.QBV_STAT_PENDING p, R.QBV_CTRL_EN p] s t ∧ t = { s with regs := t.regs, qbv := t.qbv, answer := t.answer } := by
  have e := writeReg_qbvChange h.2
  have hrd (f : Fld) (hf : (0x310604 + 0x1000 * p) * 8 ≤ f.key) : (s.wr (R.QBV_CTRL_EN p) (b2n (bit v.toNat 0))).rd f = s.rd f := State.rd_wr_ne s _ (by simp only [R.QBV_CTRL_EN]; omega)
  have hen : (s.wr (R.QBV_CTRL_EN p) (b2n (bit v.toNat 0))).on (R.QBV_CTRL_EN p) = bit v.toNat 0 := on_wr_b2n s rfl _
  have hbut : RegsBut [R.QBV_STAT_PENDING p, R.QBV_CTRL_EN p] s (s.wr (R.QBV_CTRL_EN p) (b2n (bit v.toNat 0))) := by simp
  have hor : OnlyRegs s (s.wr (R.QBV_CTRL_EN p) (b2n (bit v.toNat 0))) := (OnlyRegs.refl s).wr _ _
  generalize s.wr (R.QBV_CTRL_EN p) (b2n (bit v.toNat 0)) = q at e hrd hen hbut hor
  have hq (x : Nat) : q.qbvOf x = s.qbvOf x := by rw [hor]; rfl
  have htime : q.sysTime = s.sysTime := by rw [hor]; rfl
  rw [State.qbvChange, qbvBad_congr hrd, hb, if_neg (by decide), hq, htime, hrd (R.QBV_BASE_LO_BASE p) (by simp only [R.QBV_BASE_LO_BASE]; omega), hrd (R.QBV_BASE_HI_BASE p) (by simp only [R.QBV_BASE_HI_BASE]; omega),
    hrd (R.QBV_CYCLE_CYCLE p) (by simp only [R.QBV_CYCLE_CYCLE]; omega)] at e
  dsimp only at e
  generalize hx : { s.qbvOf p with changeAt := nextBoundary (s.rd (R.QBV_BASE_LO_BASE p) + s.rd (R.QBV_BASE_HI_BASE p) * 2 ^ 32) (s.rd (R.QBV_CYCLE_CYCLE p)) s.sysTime } = x at e ⊢
  have hl : p.val < q.qbv.length := by rw [hor]; exact h.1
  have hpend : ((q.setQbv p x).wr (R.QBV_STAT_PENDING p) 1).on (R.QBV_STAT_PENDING p) = true := State.on_wr_same (q.setQbv p x) (R.QBV_STAT_PENDING p) 1
  have hen2 : ((q.setQbv p x).wr (R.QBV_STAT_PENDING p) 1).on (R.QBV_CTRL_EN p) = bit v.toNat 0 := (State.on_wr_ne (q.setQbv p x) 1 (by simp only [R.QBV_CTRL_EN, R.QBV_STAT_PENDING]; omega)).trans hen
  have hbut2 : RegsBut [R.QBV_STAT_PENDING p, R.QBV_CTRL_EN p] s ((q.setQbv p x).wr (R.QBV_STAT_PENDING p) 1) := (regsBut_wr (by simp)).mpr (hbut.of_regs rfl)
  exact .intro rfl e ⟨hpend, hen2, qbv_same q x hl, fun y hy => (qbv_ne q x hy).trans (hq y), hbut2.of_regs rfl, by rw [hor]; rfl⟩

/-- The lists that R790 names as bad. -/
theorem qbvBad_of {p : Nat} (h : s.rd (R.QBV_LEN_LEN p) = 0 ∨ 256 < s.rd (R.QBV_LEN_LEN p) ∨ s.rd (R.QBV_CYCLE_CYCLE p) < 1000 ∨ 1000000000 < s.rd (R.QBV_CYCLE_CYCLE p) ∨ s.rd (R.QBV_ENT_LO_INTERVAL p 0) = 0) : s.qbvBad p = true := by
  by_cases h0 : s.rd (R.QBV_LEN_LEN p) = 0
  · simp [State.qbvBad, h0]
  · rcases h with h | h | h | h | h
    · exact absurd h h0
    · simp [State.qbvBad, h]
    · simp [State.qbvBad, h]
    · simp [State.qbvBad, h]
    · have hany : ((List.range (s.rd (R.QBV_LEN_LEN p))).any fun i => s.rd (R.QBV_ENT_LO_INTERVAL p i) == 0 || s.rd (R.QBV_ENT_HI_OP p i) == 3) = true :=
        List.any_eq_true.mpr ⟨0, List.mem_range.mpr (Nat.pos_of_ne_zero h0), by simp [h]⟩
      simp only [State.qbvBad, hany, Bool.or_true]

theorem leads_qbvChange_bad (h : s.takes w (0x310600 + 0x1000 * p) (v ||| 2).toNat = true)
    (hb : s.rd (R.QBV_LEN_LEN p) = 0 ∨ 256 < s.rd (R.QBV_LEN_LEN p) ∨ s.rd (R.QBV_CYCLE_CYCLE p) < 1000 ∨ 1000000000 < s.rd (R.QBV_CYCLE_CYCLE p) ∨ s.rd (R.QBV_ENT_LO_INTERVAL p 0) = 0) :
    Leads s (.qbvChange p w v) fun t => t.on (R.QBV_STAT_CFG_ERR p) = true ∧ t.on (R.QBV_CTRL_EN p) = bit v.toNat 0 ∧ RegsBut [R.QBV_STAT_CFG_ERR p, R.QBV_CTRL_EN p] s t ∧ t = { s with regs := t.regs, answer := t.answer } := by
  have e := writeReg_qbvChange h
  have hbad : (s.wr (R.QBV_CTRL_EN p) (b2n (bit v.toNat 0))).qbvBad p = true :=
    (qbvBad_congr fun f hf => State.rd_wr_ne s _ (by simp only [R.QBV_CTRL_EN]; omega)).trans (qbvBad_of hb)
  have hen : (s.wr (R.QBV_CTRL_EN p) (b2n (bit v.toNat 0))).on (R.QBV_CTRL_EN p) = bit v.toNat 0 := on_wr_b2n s rfl _
  rw [State.qbvChange, hbad, if_pos rfl] at e
  have hbut : RegsBut [R.QBV_STAT_CFG_ERR p, R.QBV_CTRL_EN p] s ((s.wr (R.QBV_CTRL_EN p) (b2n (bit v.toNat 0))).wr (R.QBV_STAT_CFG_ERR p) 1) := by simp
  refine .intro rfl e ⟨State.on_wr_same (s.wr (R.QBV_CTRL_EN p) (b2n (bit v.toNat 0))) (R.QBV_STAT_CFG_ERR p) 1, ?_, hbut.of_regs rfl, rfl⟩
  exact (State.on_wr_ne (f := R.QBV_STAT_CFG_ERR p) (g := R.QBV_CTRL_EN p) (s.wr (R.QBV_CTRL_EN p) (b2n (bit v.toNat 0))) 1 (by simp only [R.QBV_CTRL_EN, R.QBV_STAT_CFG_ERR]; omega)).trans hen

/-! ### ADMIN_LIST_ACTIVATION (R612) -/

theorem leads_adminListActivation (hp : p.val < s.qbv.length) (hq : q = s.qbvOf p) (hs : s.on (R.QBV_STAT_PENDING p) = true ∧ tAfter s.sysTime q.changeAt = true ∧ q.gateAt ≠ some s.now)
    (hc : c = s.rd (R.QBV_CYCLE_CYCLE p) ∧ e = (q.changeAt + ((s.adminList p).getD 0 (0, 0, 0)).1) % 2 ^ 48) : Leads s (.adminListActivation p) fun t =>
    t.on (R.QBV_STAT_PENDING p) = false ∧ t.on (R.QBV_STAT_OPER p) = true ∧
    GatesPut p { q with entries := s.adminList p, base := q.changeAt, cycle := c, idx := 0, cycleEnd := (q.changeAt + c) % 2 ^ 48, entryEnd := if (s.adminList p).length ≤ 1 ∨ tAfter e ((q.changeAt + c) % 2 ^ 48) then (q.changeAt + c) % 2 ^ 48 else e, gateAt := some s.now } s t ∧
    RegsBut [R.QBV_STAT_ENTRY p, R.QBV_STAT_PENDING p, R.QBV_STAT_OPER p] s t ∧ t = { s with regs := t.regs, qbv := t.qbv } := by
  subst hq
  obtain ⟨rfl, rfl⟩ := hc
  obtain ⟨h1, h2, h3⟩ := hs
  have ex : s.qbvActivate p = (s.wrAll [(R.QBV_STAT_PENDING p, 0), (R.QBV_STAT_OPER p, 1)]).gateChange p
      ({ s.qbvOf p with entries := s.adminList p, base := (s.qbvOf p).changeAt, cycle := s.rd (R.QBV_CYCLE_CYCLE p), cycleEnd := ((s.qbvOf p).changeAt + s.rd (R.QBV_CYCLE_CYCLE p)) % 2 ^ 48 }.enter 0 (s.qbvOf p).changeAt) := by
    unfold State.qbvActivate
    simp only [h1, h2, h3, not_true_eq_false, or_self, if_false]
  have hpend : (s.wrAll [(R.QBV_STAT_PENDING p, 0), (R.QBV_STAT_OPER p, 1)]).on (R.QBV_STAT_PENDING p) = false :=
    (State.on_wr_ne (s.wr (R.QBV_STAT_PENDING p) 0) 1 (by simp only [R.QBV_STAT_PENDING, R.QBV_STAT_OPER]; omega)).trans (State.on_wr_same s (R.QBV_STAT_PENDING p) 0)
  have hoper : (s.wrAll [(R.QBV_STAT_PENDING p, 0), (R.QBV_STAT_OPER p, 1)]).on (R.QBV_STAT_OPER p) = true := State.on_wr_same _ (R.QBV_STAT_OPER p) 1
  have hbut : RegsBut [R.QBV_STAT_ENTRY p, R.QBV_STAT_PENDING p, R.QBV_STAT_OPER p] s (s.wrAll [(R.QBV_STAT_PENDING p, 0), (R.QBV_STAT_OPER p, 1)]) := by simp [State.wrAll]
  have hor : OnlyRegs s (s.wrAll [(R.QBV_STAT_PENDING p, 0), (R.QBV_STAT_OPER p, 1)]) := (OnlyRegs.refl s).wrAll _
  generalize s.wrAll [(R.QBV_STAT_PENDING p, 0), (R.QBV_STAT_OPER p, 1)] = a at *
  obtain ⟨⟨hput, hent, hoth⟩, hreg, hfr⟩ := gateChange_put a ({ s.qbvOf p with entries := s.adminList p, base := (s.qbvOf p).changeAt, cycle := s.rd (R.QBV_CYCLE_CYCLE p), cycleEnd := ((s.qbvOf p).changeAt + s.rd (R.QBV_CYCLE_CYCLE p)) % 2 ^ 48 }.enter 0 (s.qbvOf p).changeAt)
    (p := p) (by rw [hor]; exact hp)
  have hnow : a.now = s.now := by rw [hor]
  rw [hnow] at hput
  refine .intro rfl ex ⟨?_, ?_, ⟨hput, hent, fun x hx => (hoth x hx).trans (by rw [hor]; rfl)⟩, hbut.trans (hreg.mono (by simp)), ?_⟩
  · exact (hreg.on (by simp [R.QBV_STAT_PENDING, R.QBV_STAT_ENTRY])).trans hpend
  · exact (hreg.on (by simp [R.QBV_STAT_OPER, R.QBV_STAT_ENTRY])).trans hoper
  · rw [hfr, hor]

theorem leads_adminListActivation_early (h : s.on (R.QBV_STAT_PENDING p) = false ∨ tAfter s.sysTime (s.qbvOf p).changeAt = false) : Leads s (.adminListActivation p) fun t => t = s := by
  refine .intro rfl (if_pos ?_) rfl
  rcases h with h | h <;> simp [h]

/-! ### System time (R609) -/

theorem clampI_eq {lo hi x : Int} (h : lo ≤ hi) : clampI lo hi x = max lo (min hi x) := by
  unfold clampI
  split
  · omega
  · split <;> omega

theorem sx_toNat (v : BitVec 32) : sx 32 v.toNat = v.toInt := by
  rw [sx, bv32_mod, BitVec.toInt_eq_toNat_cond]
  split <;> split <;> omega

theorem leads_rateAdjWrite (h : s.takes w 0x314008 v.toNat = true) : Leads s (.rateAdjWrite w v) fun t =>
    t.rd R.ST_RATE_RATE_ADJ = v.toNat ∧ (t.timeInc : Int) = 10737418240 + max (-10737418) (min 10737418 v.toInt) ∧ RegsBut [R.ST_RATE_RATE_ADJ] s t ∧ t = { s with regs := t.regs, answer := t.answer } := by
  obtain ⟨hit, -, hf, e⟩ := writeReg_ST_RATE h
  have hp : s.plainWrite 0x314008 hit v.toNat = s.wr R.ST_RATE_RATE_ADJ v.toNat := by
    simp only [State.plainWrite, hf, State.writeFields, State.writeField, fieldOf_nil]
    rw [show bits v.toNat 0 32 = v.toNat by simp [bits]]
    rfl
  rw [bv32_mod, hp] at e
  have hrd : (s.wr R.ST_RATE_RATE_ADJ v.toNat).rd R.ST_RATE_RATE_ADJ = v.toNat := (State.rd_wr_same s R.ST_RATE_RATE_ADJ v.toNat).trans (bv32_mod v)
  have hinc : ((s.wr R.ST_RATE_RATE_ADJ v.toNat).timeInc : Int) = 10737418240 + max (-10737418) (min 10737418 v.toInt) := by
    have hS : (s.wr R.ST_RATE_RATE_ADJ v.toNat).rdS R.ST_RATE_RATE_ADJ = v.toInt := by rw [State.rdS, hrd]; exact sx_toNat v
    rw [State.timeInc, hS, clampI_eq (by decide)]
    omega
  exact .intro rfl e ⟨hrd, hinc, RegsBut.of_regs (regsBut_wr_self s R.ST_RATE_RATE_ADJ v.toNat) rfl, rfl⟩

/-! ### A step of system time (R609, R627) -/

/-- What the steps of the ports' lists leave. -/
structure GatesFrame (s t : State) : Prop where
  only : t = { s with regs := t.regs, qbv := t.qbv }
  regs : RegsBut [R.QBV_STAT_ENTRY 0, R.QBV_STAT_ENTRY 1, R.QBV_STAT_ENTRY 2, R.QBV_STAT_ENTRY 3] s t
  idle : ∀ p < 4, s.on (R.QBV_STAT_OPER p) = false → t.qbvOf p = s.qbvOf p

theorem gateStep_cases (s : State) (old new p : Nat) : (s.on (R.QBV_STAT_OPER p) = false ∧ s.gateStep old new p = s) ∨
    (s.on (R.QBV_STAT_OPER p) = true ∧ ∃ x, s.gateStep old new p = s.setQbv p x ∨ s.gateStep old new p = (s.setQbv p x).wr (R.QBV_STAT_ENTRY p) x.idx) := by
  unfold State.gateStep
  cases ho : s.on (R.QBV_STAT_OPER p) with
  | false => exact .inl ⟨rfl, by simp⟩
  | true =>
    refine .inr ⟨rfl, ?_⟩
    simp only [not_true_eq_false, if_false]
    split
    · split
      · exact ⟨_, .inl rfl⟩
      · exact ⟨_, .inr rfl⟩
    · exact ⟨_, .inl rfl⟩

theorem GatesFrame.step {p : Nat} (h : GatesFrame s t) (old new : Nat) (hp : p < 4) : GatesFrame s (t.gateStep old new p) := by
  have hmem : R.QBV_STAT_ENTRY p ∈ [R.QBV_STAT_ENTRY 0, R.QBV_STAT_ENTRY 1, R.QBV_STAT_ENTRY 2, R.QBV_STAT_ENTRY 3] := by
    obtain rfl | rfl | rfl | rfl : p = 0 ∨ p = 1 ∨ p = 2 ∨ p = 3 := by omega
    all_goals simp
  have hoper : t.on (R.QBV_STAT_OPER p) = s.on (R.QBV_STAT_OPER p) := h.regs.on (by
    simp only [List.map_cons, List.map_nil, List.mem_cons, List.not_mem_nil, or_false, R.QBV_STAT_OPER, R.QBV_STAT_ENTRY]; omega)
  have hne (x : QbvSt) (y : Nat) (hy : y < 4) (hs : s.on (R.QBV_STAT_OPER y) = false) (ho : t.on (R.QBV_STAT_OPER p) = true) : (t.setQbv p x).qbvOf y = s.qbvOf y := by
    refine (qbv_ne t x fun hyp => ?_).trans (h.idle y hy hs)
    subst hyp
    exact absurd (hoper.symm.trans ho) (by rw [hs]; decide)
  have hset (x : QbvSt) : t.setQbv p x = { s with regs := t.regs, qbv := (t.setQbv p x).qbv } := congrArg (fun a : State => { a with regs := t.regs, qbv := t.qbv.set p x }) h.only
  rcases gateStep_cases t old new p with ⟨-, e⟩ | ⟨ho, x, e | e⟩
  · rw [e]; exact h
  · rw [e]
    exact ⟨hset x, h.regs.of_regs rfl, fun y hy hs => hne x y hy hs ho⟩
  · rw [e]
    exact ⟨congrArg (fun a : State => { a with regs := ((t.setQbv p x).wr (R.QBV_STAT_ENTRY p) x.idx).regs }) (hset x), (regsBut_wr hmem).mpr (h.regs.of_regs rfl), fun y hy hs => hne x y hy hs ho⟩

theorem gatesFrame_steps (s : State) (old new : Nat) : GatesFrame s ((List.range 4).foldl (fun s p => s.gateStep old new p) s) :=
  foldl_range_ind _ (fun _ t => GatesFrame s t) (n := 4) (fun _ _ hm ht => ht.step old new hm) ⟨rfl, RegsBut.refl _ s, fun _ _ _ => rfl⟩

/-- The counter of system time steps by whole nanoseconds. -/
theorem stepped_time {a : Nat} {d : Int} (ha : a < 2 ^ 80) : ((ux 80 ((a : Int) + d * (2 ^ 32 : Nat)) / 2 ^ 32 % 2 ^ 48 : Nat) : Int) = ((a / 2 ^ 32 % 2 ^ 48 : Nat) + d) % 2 ^ 48 ∧
    ux 80 ((a : Int) + d * (2 ^ 32 : Nat)) % 2 ^ 32 = a % 2 ^ 32 := by
  unfold ux
  omega

theorem timeStep_eq (s : State) (hi : Nat) : s.timeStep hi = (List.range 4).foldl
    (fun t p => t.gateStep s.sysTime (ux 80 ((s.sysAcc : Int) + sx 48 (s.rd R.ST_STEP_LO_STEP + hi % 2 ^ 16 * 2 ^ 32) * (2 ^ 32 : Nat)) / 2 ^ 32 % 2 ^ 48) p)
    (State.countWrap { s with sysAcc := ux 80 ((s.sysAcc : Int) + sx 48 (s.rd R.ST_STEP_LO_STEP + hi % 2 ^ 16 * 2 ^ 32) * (2 ^ 32 : Nat)) } R.ST_CNT_STEPS 1) := rfl

theorem leads_timeStep {d : Int} (h : s.takes w 0x314010 v.toNat = true) (hd : d = sx 48 (s.rd R.ST_STEP_LO_STEP + bits v.toNat 0 16 * 2 ^ 32)) (ha : s.sysAcc < 2 ^ 80) : Leads s (.timeStep w v) fun t =>
    (t.sysTime : Int) = (s.sysTime + d) % 2 ^ 48 ∧ t.sysAcc % 2 ^ 32 = s.sysAcc % 2 ^ 32 ∧ t.rd R.ST_CNT_STEPS = (s.rd R.ST_CNT_STEPS + 1) % 2 ^ 32 ∧
    (∀ p < 4, s.on (R.QBV_STAT_OPER p) = false → t.qbvOf p = s.qbvOf p) ∧ RegsBut [R.ST_CNT_STEPS, R.QBV_STAT_ENTRY 0, R.QBV_STAT_ENTRY 1, R.QBV_STAT_ENTRY 2, R.QBV_STAT_ENTRY 3] s t ∧
    t = { s with regs := t.regs, sysAcc := t.sysAcc, qbv := t.qbv, answer := t.answer } := by
  obtain ⟨hit, -, -, e⟩ := writeReg_ST_STEP_HI h
  rw [bv32_mod, timeStep_eq, bits_mod v.toNat 0 16, ← hd] at e
  obtain ⟨htime, hfrac⟩ := stepped_time (d := d) ha
  generalize ux 80 ((s.sysAcc : Int) + d * (2 ^ 32 : Nat)) = a at e htime hfrac
  have hcnt : (State.countWrap { s with sysAcc := a } R.ST_CNT_STEPS 1).rd R.ST_CNT_STEPS = (s.rd R.ST_CNT_STEPS + 1) % 2 ^ 32 := State.rd_wr_same { s with sysAcc := a } R.ST_CNT_STEPS _
  have hbut : RegsBut [R.ST_CNT_STEPS] s (State.countWrap { s with sysAcc := a } R.ST_CNT_STEPS 1) := (RegsBut.of_regs (RegsBut.refl _ s) rfl).trans (regsBut_wr_self { s with sysAcc := a } R.ST_CNT_STEPS _)
  have hfr : State.countWrap { s with sysAcc := a } R.ST_CNT_STEPS 1 = { s with regs := (State.countWrap { s with sysAcc := a } R.ST_CNT_STEPS 1).regs, sysAcc := a } := rfl
  generalize State.countWrap { s with sysAcc := a } R.ST_CNT_STEPS 1 = b at e hcnt hbut hfr
  obtain ⟨gonly, gregs, gidle⟩ := gatesFrame_steps b s.sysTime (a / 2 ^ 32 % 2 ^ 48)
  generalize (List.range 4).foldl (fun t p => t.gateStep s.sysTime (a / 2 ^ 32 % 2 ^ 48) p) b = u at e gonly gregs gidle
  have hacc : u.sysAcc = a := by rw [gonly, hfr]
  have hidle (p : Nat) (hp : p < 4) (ho : s.on (R.QBV_STAT_OPER p) = false) : u.qbvOf p = s.qbvOf p := by
    refine (gidle p hp ((hbut.on (by simp only [List.map_cons, List.map_nil, List.mem_cons, List.not_mem_nil, or_false, R.QBV_STAT_OPER, R.ST_CNT_STEPS]; omega)).trans ho)).trans ?_
    rw [hfr]; rfl
  have hsys : (u.sysTime : Int) = (s.sysTime + d) % 2 ^ 48 := by rw [State.sysTime, hacc]; exact htime
  have hmod : u.sysAcc % 2 ^ 32 = s.sysAcc % 2 ^ 32 := by rw [hacc]; exact hfrac
  have hsteps : u.rd R.ST_CNT_STEPS = (s.rd R.ST_CNT_STEPS + 1) % 2 ^ 32 := (gregs.rd (by decide)).trans hcnt
  have hall : RegsBut [R.ST_CNT_STEPS, R.QBV_STAT_ENTRY 0, R.QBV_STAT_ENTRY 1, R.QBV_STAT_ENTRY 2, R.QBV_STAT_ENTRY 3] s u := (hbut.mono (by simp)).trans (gregs.mono fun f hf => List.mem_cons_of_mem _ hf)
  exact .intro rfl e ⟨hsys, hmod, hsteps, hidle, hall.of_regs rfl, by rw [gonly, hfr]; rfl⟩

/-- Settles O35: a list enters its next entry or becomes operational; a change is judged; system time takes a rate and steps. -/
theorem timeAndGates : Obligations.TimeAndGates := by
  unfold Obligations.TimeAndGates
  refine ⟨?within, ?cycle, ?early, ?change, ?bad, ?activate, ?wait, ?rate, ?step⟩
  case within => exact fun s p q e hp hq hs hn he => leads_gateEntryEnd hp hq hs hn he
  case cycle => exact fun s p q e hp hq hs hn he => leads_gateEntryEnd_cycle hp hq hs hn he
  case early => exact fun s p h => leads_gateEntryEnd_early h
  case change => exact fun s p w v h hb => leads_qbvChange h hb
  case bad => exact fun s p w v h hb => leads_qbvChange_bad h hb
  case activate => exact fun s p q c e hp hq hs hc => leads_adminListActivation hp hq hs hc
  case wait => exact fun s p h => leads_adminListActivation_early h
  case rate => exact fun s w v h => leads_rateAdjWrite h
  case step => exact fun s w v d h hd ha => leads_timeStep h hd ha

end Sys2Proof.Machine
end

section
/-! PROOFS. The fields of CAN_CTRL (R618 of spec/18_field_interfaces.md, R776 of spec/23_register_map.md): a register table out of order. -/

namespace Sys2Proof.Machine

/-- CAN controller 0 is off and in bus-off. The register table lists AUTO_REC before fields with lower keys, which no step from reset brings about. -/
def tableOutOfOrder : State :=
  { State.reset with regs := [((R.CAN_CTRL_AUTO_REC 0).key, 1), ((R.DRN_ERR_E 0).key, 1), ((R.CAN_STAT_BUSOFF 0).key, 1)], boot := { State.reset.boot with porst := false } }

/-- A core of the part writes CAN_CTRL. -/
def hostCore : Who := ⟨0x20, 0, false, false⟩

set_option Elab.async false in
theorem tableOutOfOrder_takes : tableOutOfOrder.takes hostCore (0x320000 + 0x1000 * (0 : Fin 4)) ((12 : BitVec 32) ||| 16).toNat = true := by decide +kernel

set_option Elab.async false in
/-- The register write puts SAFETY before AUTO_REC, canFields puts them in the other order: the two tables read the same and are not equal. -/
theorem tableOutOfOrder_recovers : (tableOutOfOrder.writeReg hostCore (0x320000 + 0x1000 * (0 : Fin 4)) ((12 : BitVec 32) ||| 16).toNat).regs ≠ (tableOutOfOrder.canFields (0 : Fin 4) (12 : BitVec 32).toNat).regs := by
  decide +kernel

/-- Refutes O36: the clause on CAN_RECOVER holds of every state and says that the register table afterwards is that of canFields, while the write
puts the fields of CAN_CTRL in another order; in a table whose keys do not rise the order of two writes shows. -/
theorem not_canControllers : ¬ Obligations.CanControllers := by
  unfold Obligations.CanControllers
  rintro ⟨-, -, -, -, -, -, hrecover, -⟩
  obtain ⟨t, ht, -, -, -, hfr⟩ := hrecover tableOutOfOrder _ 0 hostCore 12 tableOutOfOrder_takes rfl (by decide)
  have e : t = tableOutOfOrder.writeReg hostCore (0x320000 + 0x1000 * (0 : Fin 4)) ((12 : BitVec 32) ||| 16).toNat := (Host.Outcome.next.inj ht).symm
  have hregs := congrArg State.regs hfr
  exact tableOutOfOrder_recovers ((congrArg State.regs e).symm.trans hregs)

end Sys2Proof.Machine
end

section
/-! PROOFS. The CSI-2 receivers: packets, frames, bands and buffers (R619 to R624, R629 of spec/18_field_interfaces.md). -/

namespace Sys2Proof.Machine

variable {s a : State} {r x vc : Nat}

/-! ### Packets and the contexts they reach -/

/-- A clean packet of an enabled receiver that one context matches reaches that context alone. -/
theorem csiPacket_one {dt : Option Nat} {f : State → Nat → State} (hen : a.on (R.CSI_CTRL_EN r) = true) (hm : a.csiMatch r vc dt = [x]) :
    a.csiPacket r 0 vc dt f = f a x := by
  simp [State.csiPacket, State.csiHeader, hen, State.csiEach, hm]

theorem csiPacket_none {dt : Option Nat} {f : State → Nat → State} (hen : a.on (R.CSI_CTRL_EN r) = true) (hm : a.csiMatch r vc dt = []) :
    a.csiPacket r 0 vc dt f = a.count (R.CSI_CNT_DISC r) 1 := by
  simp [State.csiPacket, State.csiHeader, hen, State.csiEach, hm]

theorem csiPacket_dropped {dt : Option Nat} {f : State → Nat → State} (hen : a.on (R.CSI_CTRL_EN r) = true) :
    a.csiPacket r 2 vc dt f = (a.count (R.CSI_CNT_DISC r) 1).wr (R.CSI_STAT_ECC_DROP r) 1 := by
  simp [State.csiPacket, State.csiHeader, hen]

theorem csi_setCsi_same {v : CsiSt} (hlen : 2 * r + x < a.csis.length) : (a.setCsi r x v).csi r x = v := by
  simp [State.csi, State.setCsi, List.getD_eq_getElem?_getD, hlen]

/-! ### A frame starts (R621) -/

theorem csiEnd_idle {fl : Nat} (hidle : (a.csi r x).active = false) : a.csiEnd r x fl = a := by
  simp [State.csiEnd, hidle]

/-- A frame is accepted into the next buffer in turn. -/
theorem csiStart_accepted {num : Nat} (hidle : (a.csi r x).active = false) (hd : a.on (R.CS_MATCH_DRN_SRC r x) = false) (hf : a.rd (R.CS_STATUS_FREE r x) ≠ 0) :
    a.csiStart r x num = ((a.wr (R.CS_STATUS_FREE r x) (a.rd (R.CS_STATUS_FREE r x) - 1)).count (R.CS_CNT_FRAMES r x) 1).setCsi r x
      { accepted := ((a.csi r x).accepted + 1) % 2 ^ 16, active := true, buf := (a.csi r x).accepted % (a.rd (R.CS_BUF_STRIDE_NBUF r x) + 1), num := num, start := a.sysTime,
        cc := (a.drone (a.rd (R.CS_MATCH_DRONE r x))).cyc, last := a.sysTime } := by
  simp only [State.csiStart, csiEnd_idle hidle, hd, Bool.false_eq_true, if_false, if_neg hf]
  rfl

theorem csiStart_dropped {num : Nat} (hidle : (a.csi r x).active = false) (hd : a.on (R.CS_MATCH_DRN_SRC r x) = false) (hf : a.rd (R.CS_STATUS_FREE r x) = 0) :
    a.csiStart r x num = (a.count (R.CS_CNT_DROPS r x) 1).setCsi r x { a.csi r x with active := false, lines := 0, last := a.sysTime } := by
  simp only [State.csiStart, csiEnd_idle hidle, hd, Bool.false_eq_true, if_false, if_pos hf]

/-- The buffer counter and the frame counter of an accepted frame. -/
theorem csi_accept_counts (hf : a.rd (R.CS_STATUS_FREE r x) < 16) :
    ((a.wr (R.CS_STATUS_FREE r x) (a.rd (R.CS_STATUS_FREE r x) - 1)).count (R.CS_CNT_FRAMES r x) 1).rd (R.CS_STATUS_FREE r x) = a.rd (R.CS_STATUS_FREE r x) - 1 ∧
    ((a.wr (R.CS_STATUS_FREE r x) (a.rd (R.CS_STATUS_FREE r x) - 1)).count (R.CS_CNT_FRAMES r x) 1).rd (R.CS_CNT_FRAMES r x) = satAdd 16 (a.rd (R.CS_CNT_FRAMES r x)) 1 ∧
    RegsBut [R.CS_STATUS_FREE r x, R.CS_CNT_FRAMES r x] a ((a.wr (R.CS_STATUS_FREE r x) (a.rd (R.CS_STATUS_FREE r x) - 1)).count (R.CS_CNT_FRAMES r x) 1) := by
  refine ⟨?_, ?_, by simp⟩
  · rw [rd_count_ne _ _ (by simp only [R.CS_STATUS_FREE, R.CS_CNT_FRAMES]; omega), State.rd_wr_same]
    exact Nat.mod_eq_of_lt (show a.rd (R.CS_STATUS_FREE r x) - 1 < 2 ^ 4 by omega)
  · rw [rd_count_same, State.rd_wr_ne _ _ (by simp only [R.CS_STATUS_FREE, R.CS_CNT_FRAMES]; omega)]
    rfl

section
variable {r : Fin 2} {vc : Fin 4} {num : BitVec 16} {rs : List Reply} {x : Nat}

theorem leads_csiFrameStart (hm : s.on (R.CSI_CTRL_EN r) = true ∧ s.csiMatch r vc none = [x] ∧ 2 * r + x < s.csis.length)
    (hf : (s.csi r x).active = false ∧ s.on (R.CS_MATCH_DRN_SRC r x) = false ∧ s.rd (R.CS_STATUS_FREE r x) ≠ 0 ∧ s.rd (R.CS_STATUS_FREE r x) < 16) :
    Leads s (.csiFrameStart r 0 vc num rs) fun t => t.rd (R.CS_STATUS_FREE r x) = s.rd (R.CS_STATUS_FREE r x) - 1 ∧ t.rd (R.CS_CNT_FRAMES r x) = satAdd 16 (s.rd (R.CS_CNT_FRAMES r x)) 1 ∧
    t.csi r x = { accepted := ((s.csi r x).accepted + 1) % 2 ^ 16, active := true, buf := (s.csi r x).accepted % (s.rd (R.CS_BUF_STRIDE_NBUF r x) + 1), num := num.toNat, start := s.sysTime, cc := (s.drone (s.rd (R.CS_MATCH_DRONE r x))).cyc, last := s.sysTime } ∧
    RegsBut [R.CS_STATUS_FREE r x, R.CS_CNT_FRAMES r x] s t ∧ t = { s with regs := t.regs, csis := s.csis.set (2 * r + x) (t.csi r x), replies := [] } := by
  obtain ⟨hen, hmatch, hlen⟩ := hm
  obtain ⟨hidle, hd, h0, h16⟩ := hf
  have e := (csiPacket_one (a := { s with replies := rs }) (r := r) (vc := vc) (x := x) (dt := none) (f := fun s x => s.csiStart r x num.toNat) hen hmatch).trans (csiStart_accepted hidle hd h0)
  obtain ⟨m1, m2, m3⟩ := csi_accept_counts (a := { s with replies := rs }) (r := r) (x := x) h16
  have hx : ((State.wr { s with replies := rs } (R.CS_STATUS_FREE r x) (State.rd { s with replies := rs } (R.CS_STATUS_FREE r x) - 1)).count (R.CS_CNT_FRAMES r x) 1) =
      { s with replies := rs, regs := ((State.wr { s with replies := rs } (R.CS_STATUS_FREE r x) (State.rd { s with replies := rs } (R.CS_STATUS_FREE r x) - 1)).count (R.CS_CNT_FRAMES r x) 1).regs } := rfl
  generalize (State.wr { s with replies := rs } (R.CS_STATUS_FREE r x) (State.rd { s with replies := rs } (R.CS_STATUS_FREE r x) - 1)).count (R.CS_CNT_FRAMES r x) 1 = q at *
  change State.csiPacket _ _ _ _ _ _ = q.setCsi r x { accepted := ((s.csi r x).accepted + 1) % 2 ^ 16, active := true, buf := (s.csi r x).accepted % (s.rd (R.CS_BUF_STRIDE_NBUF r x) + 1), num := num.toNat, start := s.sysTime, cc := (s.drone (s.rd (R.CS_MATCH_DRONE r x))).cyc, last := s.sysTime } at e
  generalize ({ accepted := _, active := true, buf := _, num := _, start := _, cc := _, last := _ } : CsiSt) = v at *
  have hc := csi_setCsi_same (a := q) (r := r) (x := x) (v := v) (by rw [hx]; exact hlen)
  refine .intro rfl (withReplies_eq e) ⟨m1, m2, hc, m3.of_regs rfl, ?_⟩
  change ({ q.setCsi r x v with replies := [] } : State) = { s with regs := q.regs, csis := s.csis.set (2 * r + x) ((q.setCsi r x v).csi r x), replies := [] }
  rw [hc, hx]
  rfl

theorem leads_csiFrameStart_full (hm : s.on (R.CSI_CTRL_EN r) = true ∧ s.csiMatch r vc none = [x])
    (hf : (s.csi r x).active = false ∧ s.on (R.CS_MATCH_DRN_SRC r x) = false ∧ s.rd (R.CS_STATUS_FREE r x) = 0) :
    Leads s (.csiFrameStart r 0 vc num rs) fun t => t.rd (R.CS_CNT_DROPS r x) = satAdd 16 (s.rd (R.CS_CNT_DROPS r x)) 1 ∧ RegsBut [R.CS_CNT_DROPS r x] s t ∧
    t = { s with regs := t.regs, csis := s.csis.set (2 * r + x) { s.csi r x with active := false, lines := 0, last := s.sysTime }, replies := [] } := by
  have e := (csiPacket_one (a := { s with replies := rs }) (r := r) (vc := vc) (x := x) (dt := none) (f := fun s x => s.csiStart r x num.toNat) hm.1 hm.2).trans (csiStart_dropped hf.1 hf.2.1 hf.2.2)
  have m1 := rd_count_same { s with replies := rs } (R.CS_CNT_DROPS r x) 1
  have m2 : RegsBut [R.CS_CNT_DROPS r x] { s with replies := rs } (State.count { s with replies := rs } (R.CS_CNT_DROPS r x) 1) := by simp [RegsBut.refl]
  exact .intro rfl (withReplies_eq e) ⟨m1, m2.of_regs rfl, rfl⟩

/-- A packet that is counted as discarded and reaches no context. -/
theorem leads_csi_discard {c : Instr} {f : State → State} (hx : exec c s = .next (s.withReplies rs f)) (hf : f { s with replies := rs } = State.count { s with replies := rs } (R.CSI_CNT_DISC r) 1) :
    Leads s c fun t => t.rd (R.CSI_CNT_DISC r) = satAdd 16 (s.rd (R.CSI_CNT_DISC r)) 1 ∧ RegsBut [R.CSI_CNT_DISC r] s t ∧ t = { s with regs := t.regs, replies := [] } := by
  have m1 := rd_count_same { s with replies := rs } (R.CSI_CNT_DISC r) 1
  have m2 : RegsBut [R.CSI_CNT_DISC r] { s with replies := rs } (State.count { s with replies := rs } (R.CSI_CNT_DISC r) 1) := by simp [RegsBut.refl]
  exact .intro hx (withReplies_eq hf) ⟨m1, m2.of_regs rfl, rfl⟩

theorem leads_csiFrameStart_badHeader (hen : s.on (R.CSI_CTRL_EN r) = true) :
    Leads s (.csiFrameStart r 2 vc num rs) fun t => t.on (R.CSI_STAT_ECC_DROP r) = true ∧ t.rd (R.CSI_CNT_DISC r) = satAdd 16 (s.rd (R.CSI_CNT_DISC r)) 1 ∧ RegsBut [R.CSI_STAT_ECC_DROP r, R.CSI_CNT_DISC r] s t ∧ t = { s with regs := t.regs, replies := [] } := by
  have e := csiPacket_dropped (a := { s with replies := rs }) (r := r) (vc := vc) (dt := none) (f := fun s x => s.csiStart r x num.toNat) hen
  have m1 := State.on_wr_same (State.count { s with replies := rs } (R.CSI_CNT_DISC r) 1) (R.CSI_STAT_ECC_DROP r) 1
  have m2 : ((State.count { s with replies := rs } (R.CSI_CNT_DISC r) 1).wr (R.CSI_STAT_ECC_DROP r) 1).rd (R.CSI_CNT_DISC r) = satAdd 16 (s.rd (R.CSI_CNT_DISC r)) 1 := by
    rw [State.rd_wr_ne _ _ (by simp only [R.CSI_CNT_DISC, R.CSI_STAT_ECC_DROP]; omega)]
    exact rd_count_same _ _ _
  have m3 : RegsBut [R.CSI_STAT_ECC_DROP r, R.CSI_CNT_DISC r] { s with replies := rs } ((State.count { s with replies := rs } (R.CSI_CNT_DISC r) 1).wr (R.CSI_STAT_ECC_DROP r) 1) := by simp [RegsBut.refl]
  exact .intro rfl (withReplies_eq e) ⟨m1, m2, m3.of_regs rfl, rfl⟩

theorem leads_csiFrameEnd_unmatched (hm : s.on (R.CSI_CTRL_EN r) = true ∧ s.csiMatch r vc none = []) :
    Leads s (.csiFrameEnd r 0 vc rs) fun t => t.rd (R.CSI_CNT_DISC r) = satAdd 16 (s.rd (R.CSI_CNT_DISC r)) 1 ∧ RegsBut [R.CSI_CNT_DISC r] s t ∧ t = { s with regs := t.regs, replies := [] } :=
  leads_csi_discard rfl (csiPacket_none (a := { s with replies := rs }) (r := r) (vc := vc) (dt := none) (f := fun s x => s.csiEnd r x 0) hm.1 hm.2)

end

/-! ### Lines (R624) -/

/-- Values of one size each fill their share of a line. -/
theorem length_flatten_leBytes (sz : Nat) (vals : List Nat) : (vals.map (leBytes sz)).flatten.length = vals.length * sz := by
  induction vals with
  | nil => simp
  | cons v vs ih => simp [ih, leBytes_length, Nat.add_mul, Nat.add_comm]

/-- A line that an active context of no Drone takes in, by its own type. -/
theorem csiLine_active {dt sz : Nat} {vals : List Nat} {crcOk : Bool} {c : CsiSt} {q : State × Status} (hc : c = a.csi r x) (hact : c.active = true) (hd : a.on (R.CS_MATCH_DRN_SRC r x) = false)
    (hl : c.lines < a.rd (R.CS_GEOM_LINES r x)) (hdt : dt ≠ 0x1E) (hsz : sz = if dt = 0x2B ∨ dt = 0x2C ∨ dt = 0x2E then 2 else 1)
    (hq : q = a.gmWrites (csiWho r) (a.csiBufAt r x c.buf + c.lines * (a.rd (R.CS_PITCH_PITCH r x) * 64) + a.chip * 2 ^ 48) (fitBytes (a.rd (R.CS_GEOM_WIDTH r x) * sz) ((vals.map (leBytes sz)).flatten))) :
    a.csiLine r x dt vals crcOk = q.1.setCsi r x { c with
      lines := c.lines + 1, last := a.sysTime, flags := c.flags ||| (if crcOk = true then 0 else 2) ||| (if vals.length ≠ a.rd (R.CS_GEOM_WIDTH r x) then 4 else 0), failed := c.failed || decide (q.2 ≠ .ok) } := by
  subst hc hq hsz
  simp only [State.csiLine, hd, hact, Bool.false_eq_true, if_false, not_true_eq_false, Nat.not_le.mpr hl, Nat.mul_one, csiSize, hdt, or_false]

/-- The size of a value by the data type of its packet. -/
theorem csi_size_fin {dt : Fin 64} {sz : Nat} (hsz : sz = (if dt = 0x2B ∨ dt = 0x2C ∨ dt = 0x2E then 2 else 1)) :
    sz = if dt.val = 0x2B ∨ dt.val = 0x2C ∨ dt.val = 0x2E then 2 else 1 := by
  simp only [Fin.ext_iff] at hsz
  exact hsz

section
variable {r : Fin 2} {vc : Fin 4} {dt : Fin 64} {vals : List Nat} {crcOk : Bool} {rs : List Reply} {x sz : Nat} {c : CsiSt} {q : State × Status}

/-- A line that its one context takes in. -/
theorem leads_csiLine_active (hm : s.on (R.CSI_CTRL_EN r) = true ∧ s.csiMatch r vc (some dt) = [x] ∧ 2 * r + x < s.csis.length) (hc : c = s.csi r x)
    (hact : c.active = true ∧ s.on (R.CS_MATCH_DRN_SRC r x) = false ∧ c.lines < s.rd (R.CS_GEOM_LINES r x))
    (hdt : dt ≠ 0x1E) (hsz : sz = (if dt = 0x2B ∨ dt = 0x2C ∨ dt = 0x2E then 2 else 1))
    (hq : q = State.gmWrites { s with replies := rs } { ini := Fin.ofNat 64 (0x30 + r), cls := 2, remote := false } (s.csiBufAt r x c.buf + c.lines * (s.rd (R.CS_PITCH_PITCH r x) * 64) + s.chip * 2 ^ 48)
      (fitBytes (s.rd (R.CS_GEOM_WIDTH r x) * sz) ((vals.map (leBytes sz)).flatten))) :
    Leads s (.csiLine r 0 vc dt vals crcOk rs) fun t => t = { q.1 with csis := q.1.csis.set (2 * r + x) { c with
      lines := c.lines + 1, last := s.sysTime, flags := c.flags ||| (if crcOk = true then 0 else 2) ||| (if vals.length ≠ s.rd (R.CS_GEOM_WIDTH r x) then 4 else 0), failed := c.failed || decide (q.2 ≠ .ok) }, replies := [] } := by
  have hline := csiLine_active (a := { s with replies := rs }) (dt := dt) (crcOk := crcOk) hc hact.1 hact.2.1 hact.2.2 (fun e => hdt (Fin.ext e)) (csi_size_fin hsz) hq
  have e := (csiPacket_one (a := { s with replies := rs }) (r := r) (vc := vc) (x := x) (dt := some dt) (f := fun s x => s.csiLine r x dt vals crcOk) hm.1 hm.2.1).trans hline
  exact .intro rfl (withReplies_eq e) rfl

theorem leads_csiLine (hm : s.on (R.CSI_CTRL_EN r) = true ∧ s.csiMatch r vc (some dt) = [x] ∧ 2 * r + x < s.csis.length) (hc : c = s.csi r x)
    (hact : c.active = true ∧ s.on (R.CS_MATCH_DRN_SRC r x) = false ∧ c.lines < s.rd (R.CS_GEOM_LINES r x))
    (hv : vals.length = s.rd (R.CS_GEOM_WIDTH r x) ∧ dt ≠ 0x1E ∧ sz = (if dt = 0x2B ∨ dt = 0x2C ∨ dt = 0x2E then 2 else 1))
    (hq : q = State.gmWrites { s with replies := rs } { ini := Fin.ofNat 64 (0x30 + r), cls := 2, remote := false } (s.csiBufAt r x c.buf + c.lines * (s.rd (R.CS_PITCH_PITCH r x) * 64) + s.chip * 2 ^ 48) ((vals.map (leBytes sz)).flatten)) :
    Leads s (.csiLine r 0 vc dt vals crcOk rs) fun t => t = { q.1 with csis := q.1.csis.set (2 * r + x) { c with lines := c.lines + 1, last := s.sysTime, flags := c.flags ||| (if crcOk = true then 0 else 2), failed := c.failed || decide (q.2 ≠ .ok) }, replies := [] } := by
  obtain ⟨hlen, hdt, hsz⟩ := hv
  have hfit : fitBytes (s.rd (R.CS_GEOM_WIDTH r x) * sz) ((vals.map (leBytes sz)).flatten) = (vals.map (leBytes sz)).flatten :=
    fitBytes_whole (by rw [length_flatten_leBytes, hlen])
  rw [← hfit] at hq
  have h := leads_csiLine_active (crcOk := crcOk) hm hc hact hdt hsz hq
  rwa [if_neg (not_not.mpr hlen), Nat.or_zero] at h

theorem leads_csiLine_wrongLength (hm : s.on (R.CSI_CTRL_EN r) = true ∧ s.csiMatch r vc (some dt) = [x] ∧ 2 * r + x < s.csis.length) (hc : c = s.csi r x)
    (hact : c.active = true ∧ s.on (R.CS_MATCH_DRN_SRC r x) = false ∧ c.lines < s.rd (R.CS_GEOM_LINES r x))
    (hv : vals.length ≠ s.rd (R.CS_GEOM_WIDTH r x) ∧ dt ≠ 0x1E ∧ sz = (if dt = 0x2B ∨ dt = 0x2C ∨ dt = 0x2E then 2 else 1))
    (hq : q = State.gmWrites { s with replies := rs } { ini := Fin.ofNat 64 (0x30 + r), cls := 2, remote := false } (s.csiBufAt r x c.buf + c.lines * (s.rd (R.CS_PITCH_PITCH r x) * 64) + s.chip * 2 ^ 48)
      (fitBytes (s.rd (R.CS_GEOM_WIDTH r x) * sz) ((vals.map (leBytes sz)).flatten))) :
    Leads s (.csiLine r 0 vc dt vals true rs) fun t => t = { q.1 with csis := q.1.csis.set (2 * r + x) { c with lines := c.lines + 1, last := s.sysTime, flags := c.flags ||| 4, failed := c.failed || decide (q.2 ≠ .ok) }, replies := [] } := by
  have h := leads_csiLine_active (crcOk := true) hm hc hact hv.2.1 hv.2.2 hq
  rwa [if_pos rfl, if_pos hv.1, Nat.or_zero] at h

end

/-! ### Bands and the end of a frame (R622, R629) -/

section
variable {r : Fin 2} {vc : Fin 4} {rs : List Reply} {c : CsiSt} {q : State × Status}

theorem leads_csiBandComplete {x : Fin 2} (hc : c = s.csi r x) (hb : c.active = true ∧ c.bands < s.csiBands r x ∧ min ((s.rd (R.CS_PITCH_BAND r x) + 1) * (c.bands + 1)) (s.rd (R.CS_GEOM_LINES r x)) ≤ c.lines) :
    Leads s (.csiBandComplete r x) fun t => t = { s with csis := s.csis.set (2 * r + x) { c with bands := c.bands + 1 }, msgs := s.msgs ++ [(tokenMsg s.chip (s.rd (R.CS_TOK_BAND_UNIT r x)) (s.rd (R.CS_TOK_BAND_CONTEXT r x)) (s.rd (R.CS_TOK_BAND_COUNTER r x)) 1 (s.epochOf (s.rd (R.CS_TOK_BAND_UNIT r x))) 1, 0)] } := by
  subst hc
  have e : s.csiBandDone r x = s.csiBandToken r x := if_pos hb
  exact .intro rfl e rfl

theorem leads_csiBandComplete_early {x : Fin 2} (hb : (s.csi r x).active = false ∨ s.csiBands r x ≤ (s.csi r x).bands ∨ (s.csi r x).lines < min ((s.rd (R.CS_PITCH_BAND r x) + 1) * ((s.csi r x).bands + 1)) (s.rd (R.CS_GEOM_LINES r x))) :
    Leads s (.csiBandComplete r x) fun t => t = s := by
  have e : s.csiBandDone r x = s := if_neg fun ⟨h1, h2, h3⟩ => by
    rcases hb with hb | hb | hb
    · exact absurd (h1.symm.trans hb) (by decide)
    · exact absurd h2 (Nat.not_lt.mpr hb)
    · exact absurd h3 (Nat.not_le.mpr hb)
  exact .intro rfl e rfl

/-- The record of a frame that ends with the given flags. -/
def csiRecord (c : CsiSt) (flags : Nat) : List Byte :=
  leBytes 2 c.num ++ leBytes 2 c.accepted ++ leBytes 1 (if c.failed = true then 3 else 0) ++ leBytes 1 flags ++ leBytes 2 c.lines ++ leBytes 6 c.start ++ leBytes 2 c.cc ++ List.replicate 16 0

/-- A frame whose bands have all been posted ends: the record, then the frame token. -/
theorem csiEnd_posted {r x fl : Nat} (hc : c = a.csi r x) (hb : c.active = true ∧ a.csiBands r x ≤ c.bands)
    (hq : q = a.gmWrites (csiWho r) (a.rd (R.CS_STAT_LO_STAT r x) * 256 + a.rd (R.CS_STAT_HI_STAT r x) * 2 ^ 32 + 32 * c.buf + a.chip * 2 ^ 48) (csiRecord c (c.flags ||| fl))) :
    a.csiEnd r x fl = (q.1.token (a.rd (R.CS_TOK_FRAME_UNIT r x)) (a.rd (R.CS_TOK_FRAME_CONTEXT r x)) (a.rd (R.CS_TOK_FRAME_COUNTER r x))).setCsi r x { c with active := false, lines := 0 } := by
  subst hc hq
  simp only [State.csiEnd, hb.1, not_true_eq_false, if_false, Nat.sub_eq_zero_of_le hb.2, State.csiBandRest, csiRecord]

theorem leads_csiFrameEnd {x : Nat} (hm : s.on (R.CSI_CTRL_EN r) = true ∧ s.csiMatch r vc none = [x]) (hc : c = s.csi r x) (hb : c.active = true ∧ s.csiBands r x ≤ c.bands)
    (hq : q = State.gmWrites { s with replies := rs } { ini := Fin.ofNat 64 (0x30 + r), cls := 2, remote := false } (s.rd (R.CS_STAT_LO_STAT r x) * 256 + s.rd (R.CS_STAT_HI_STAT r x) * 2 ^ 32 + 32 * c.buf + s.chip * 2 ^ 48) (csiRecord c c.flags)) :
    Leads s (.csiFrameEnd r 0 vc rs) fun t => t = { q.1 with csis := q.1.csis.set (2 * r + x) { c with active := false, lines := 0 }, replies := [], msgs := q.1.msgs ++ [(tokenMsg q.1.chip (s.rd (R.CS_TOK_FRAME_UNIT r x)) (s.rd (R.CS_TOK_FRAME_CONTEXT r x)) (s.rd (R.CS_TOK_FRAME_COUNTER r x)) 1 (q.1.epochOf (s.rd (R.CS_TOK_FRAME_UNIT r x))) 1, 0)] } := by
  rw [← Nat.or_zero c.flags] at hq
  have hend := csiEnd_posted (a := { s with replies := rs }) (fl := 0) hc hb hq
  have e := (csiPacket_one (a := { s with replies := rs }) (r := r) (vc := vc) (x := x) (dt := none) (f := fun s x => s.csiEnd r x 0) hm.1 hm.2).trans hend
  exact .intro rfl (withReplies_eq e) rfl

theorem leads_csiFrameTimeout {x : Fin 2} (hc : c = s.csi r x) (hb : c.active = true ∧ s.csiBands r x ≤ c.bands ∧ s.rd (R.CS_TMO_FRAME_TMO r x) ≠ 0 ∧ 1000 * s.rd (R.CS_TMO_FRAME_TMO r x) ≤ tsub s.sysTime c.last)
    (hq : q = State.gmWrites { s with replies := rs } { ini := Fin.ofNat 64 (0x30 + r), cls := 2, remote := false } (s.rd (R.CS_STAT_LO_STAT r x) * 256 + s.rd (R.CS_STAT_HI_STAT r x) * 2 ^ 32 + 32 * c.buf + s.chip * 2 ^ 48) (csiRecord c (c.flags ||| 9))) :
    Leads s (.csiFrameTimeout r x rs) fun t => t = { q.1 with csis := q.1.csis.set (2 * r + x) { c with active := false, lines := 0 }, replies := [], msgs := q.1.msgs ++ [(tokenMsg q.1.chip (s.rd (R.CS_TOK_FRAME_UNIT r x)) (s.rd (R.CS_TOK_FRAME_CONTEXT r x)) (s.rd (R.CS_TOK_FRAME_COUNTER r x)) 1 (q.1.epochOf (s.rd (R.CS_TOK_FRAME_UNIT r x))) 1, 0)] } := by
  obtain ⟨hact, hbands, h0, hlate⟩ := hb
  have hend := csiEnd_posted (a := { s with replies := rs }) (fl := 9) hc ⟨hact, hbands⟩ hq
  subst hc
  have e : State.csiTimeout { s with replies := rs } r x = _ := (if_pos ⟨h0, hact, hlate⟩).trans hend
  exact .intro rfl (withReplies_eq e) rfl

theorem leads_csiFrameTimeout_early {x : Fin 2} (hb : s.rd (R.CS_TMO_FRAME_TMO r x) = 0 ∨ (s.csi r x).active = false ∨ tsub s.sysTime (s.csi r x).last < 1000 * s.rd (R.CS_TMO_FRAME_TMO r x)) :
    Leads s (.csiFrameTimeout r x rs) fun t => t = { s with replies := [] } := by
  have e : State.csiTimeout { s with replies := rs } r x = { s with replies := rs } := if_neg fun ⟨h1, h2, h3⟩ => by
    rcases hb with hb | hb | hb
    · exact h1 hb
    · exact absurd (h2.symm.trans hb) (by decide)
    · exact absurd h3 (Nat.not_le.mpr hb)
  exact .intro rfl (withReplies_eq e) rfl

end

/-! ### Buffers given back (R621) -/

section
variable {r x : Fin 2} {w : Who} {v : BitVec 32}

theorem leads_csBufRet (h : s.takes w (0x330128 + 0x1000 * r + 0x40 * x) v.toNat = true) (hf : bit v.toNat 0 = true ∧ s.rd (R.CS_STATUS_FREE r x) < s.rd (R.CS_BUF_STRIDE_NBUF r x) + 1 ∧ s.rd (R.CS_BUF_STRIDE_NBUF r x) < 8) :
    Leads s (.csBufRet r x w v) fun t => t.rd (R.CS_STATUS_FREE r x) = s.rd (R.CS_STATUS_FREE r x) + 1 ∧ RegsBut [R.CS_STATUS_FREE r x] s t ∧ t = { s with regs := t.regs, answer := t.answer } := by
  obtain ⟨hgo, hfree, hnbuf⟩ := hf
  have e := writeReg_CSI_BUF_RET r x h
  rw [bv32_mod, hgo, when_true, State.csiReturn, if_neg (show ¬ s.csiNbuf r x ≤ _ from Nat.not_le.mpr hfree)] at e
  have m1 := State.rd_wr_same s (R.CS_STATUS_FREE r x) (s.rd (R.CS_STATUS_FREE r x) + 1)
  rw [Nat.mod_eq_of_lt (a := s.rd (R.CS_STATUS_FREE r x) + 1) (b := 2 ^ (R.CS_STATUS_FREE r x).w) (show s.rd (R.CS_STATUS_FREE r x) + 1 < 2 ^ 4 by omega)] at m1
  exact .intro rfl e ⟨m1, (regsBut_wr_self _ _ _).of_regs rfl, rfl⟩

theorem leads_csBufRet_allFree (h : s.takes w (0x330128 + 0x1000 * r + 0x40 * x) v.toNat = true) (hf : bit v.toNat 0 = true ∧ s.rd (R.CS_BUF_STRIDE_NBUF r x) + 1 ≤ s.rd (R.CS_STATUS_FREE r x)) :
    Leads s (.csBufRet r x w v) fun t => t.on (R.CS_STATUS_RET_ERR r x) = true ∧ RegsBut [R.CS_STATUS_RET_ERR r x] s t ∧ t = { s with regs := t.regs, answer := t.answer } := by
  have e := writeReg_CSI_BUF_RET r x h
  rw [bv32_mod, hf.1, when_true, State.csiReturn, if_pos (show s.csiNbuf r x ≤ _ from hf.2)] at e
  exact .intro rfl e ⟨State.on_wr_same s (R.CS_STATUS_RET_ERR r x) 1, (regsBut_wr_self s (R.CS_STATUS_RET_ERR r x) 1).of_regs rfl, rfl⟩

end

/-- Settles O37: each packet is followed through its header and its match to the context it reaches, each end to the write of its record and its token. -/
theorem cameraReceivers : Obligations.CameraReceivers := by
  unfold Obligations.CameraReceivers
  refine ⟨?started, ?full, ?badHeader, ?line, ?wrongLength, ?band, ?bandEarly, ?ended, ?unmatched, ?timeout, ?timeoutEarly, ?returned, ?allFree⟩
  case started => exact fun s r vc num rs x hm hf => leads_csiFrameStart hm hf
  case full => exact fun s r vc num rs x hm hf => leads_csiFrameStart_full hm hf
  case badHeader => exact fun s r vc num rs hen => leads_csiFrameStart_badHeader hen
  case line => exact fun s r vc dt vals crcOk rs x sz c q hm hc hact hv hq => leads_csiLine hm hc hact hv hq
  case wrongLength => exact fun s r vc dt vals rs x sz c q hm hc hact hv hq => leads_csiLine_wrongLength hm hc hact hv hq
  case band => exact fun s r x c hc hb => leads_csiBandComplete hc hb
  case bandEarly => exact fun s r x hb => leads_csiBandComplete_early hb
  case ended => exact fun s r vc rs x c q hm hc hb hq => leads_csiFrameEnd hm hc hb hq
  case unmatched => exact fun s r vc rs hm => leads_csiFrameEnd_unmatched hm
  case timeout => exact fun s r x rs c q hc hb hq => leads_csiFrameTimeout hc hb hq
  case timeoutEarly => exact fun s r x rs hb => leads_csiFrameTimeout_early hb
  case returned => exact fun s r x w v h hf => leads_csBufRet h hf
  case allFree => exact fun s r x w v h hf => leads_csBufRet_allFree h hf

end Sys2Proof.Machine
end

section
/-! PROOFS. The serial interfaces: FIFOs, transfers, receive registers (R626, R788 of spec/18_field_interfaces.md and spec/23_register_map.md). -/

namespace Sys2Proof.Machine

variable {s a : State} {i : Nat} {v : SerSt} {w : Who}

/-! ### A serial interface is put -/

/-- The levels and BUSY of an interface are three fields. -/
theorem ser_flds_ne (i : Nat) : (serTxLvl i).key ≠ (serRxLvl i).key ∧ (serTxLvl i).key ≠ (serBusy i).key ∧ (serRxLvl i).key ≠ (serBusy i).key := by
  simp only [serTxLvl, serRxLvl, serBusy]
  split_ifs <;> simp only [R.SPI_STAT_TX_LVL, R.SPI_STAT_RX_LVL, R.SPI_STAT_BUSY, R.I2C_STAT_TX_LVL, R.I2C_STAT_RX_LVL, R.I2C_STAT_BUSY, R.UART_STAT_TX_LVL, R.UART_STAT_RX_LVL, R.UART_STAT_BUSY,
    R.XSPI_STAT_TX_LVL, R.XSPI_STAT_RX_LVL, R.XSPI_STAT_BUSY] <;> omega

theorem ser_flds_width (i : Nat) : (serTxLvl i).w = 5 ∧ (serRxLvl i).w = 5 ∧ (serBusy i).w = 1 := by
  simp only [serTxLvl, serRxLvl, serBusy]
  split_ifs <;> exact ⟨rfl, rfl, rfl⟩

/-- Whether a transfer of an interface is under way. -/
def State.serShowsBusy (s : State) (i : Nat) (v : SerSt) : Bool := if i < 6 ∨ (10 ≤ i ∧ i < 14) then s.on (serEn i) && v.tx != [] else v.cmd.isSome

/-- The three fields that show an interface. -/
def State.serShow (s : State) (i m n : Nat) (busy : Bool) : State := ((s.wr (serTxLvl i) m).wr (serRxLvl i) n).wr (serBusy i) (b2n busy)

theorem setSer_eq (s : State) (i : Nat) (v : SerSt) : s.setSer i v = { s.serShow i v.tx.length v.rx.length (s.serShowsBusy i v) with sers := s.sers.set i v } := rfl

theorem serShow_values (s : State) (i m n : Nat) (busy : Bool) :
    (s.serShow i m n busy).rd (serTxLvl i) = m % 32 ∧ (s.serShow i m n busy).rd (serRxLvl i) = n % 32 ∧ (s.serShow i m n busy).on (serBusy i) = busy ∧
    RegsBut [serTxLvl i, serRxLvl i, serBusy i] s (s.serShow i m n busy) := by
  obtain ⟨hne1, hne2, hne3⟩ := ser_flds_ne i
  obtain ⟨hw1, hw2, hw3⟩ := ser_flds_width i
  refine ⟨?_, ?_, on_wr_b2n _ hw3 _, by simp [State.serShow]⟩
  · rw [State.serShow, State.rd_wr_ne _ _ hne2, State.rd_wr_ne _ _ hne1, State.rd_wr_same, hw1]
    rfl
  · rw [State.serShow, State.rd_wr_ne _ _ hne3, State.rd_wr_same, hw2]
    rfl

theorem setSer_put (hi : i < s.sers.length) : SerPut i v s (s.setSer i v) := by
  obtain ⟨h1, h2, h3, -⟩ := serShow_values s i v.tx.length v.rx.length (s.serShowsBusy i v)
  rw [setSer_eq]
  generalize s.serShow i v.tx.length v.rx.length (s.serShowsBusy i v) = q at *
  refine ⟨?_, fun x hx => ?_, h1, h2, h3⟩
  · simp [State.ser, List.getD_eq_getElem?_getD, hi]
  · simp [State.ser, List.getD_eq_getElem?_getD, List.getElem?_set_ne (Ne.symm hx)]

theorem regsBut_setSer (s : State) (i : Nat) (v : SerSt) : RegsBut [serTxLvl i, serRxLvl i, serBusy i] s (s.setSer i v) :=
  (serShow_values s i v.tx.length v.rx.length (s.serShowsBusy i v)).2.2.2.of_regs rfl

theorem setSer_frame (s : State) (i : Nat) (v : SerSt) : s.setSer i v = { s with regs := (s.setSer i v).regs, sers := (s.setSer i v).sers } := rfl

/-- Put from a state with the same interfaces and the same EN. -/
theorem SerPut.from {t : State} (h : SerPut i v a t) (hs : a.sers = s.sers) (hen : a.on (serEn i) = s.on (serEn i)) : SerPut i v s t := by
  obtain ⟨h1, h2, h3, h4, h5⟩ := h
  refine ⟨h1, fun x hx => (h2 x hx).trans ?_, h3, h4, h5.trans (by rw [hen])⟩
  rw [State.ser, State.ser, hs]

/-- A command that puts an interface and answers. -/
theorem leads_ser_put {c : Instr} {u : State} {n : Nat} (hx : exec c s = .next u) (e : u = (s.setSer i v).answers .ok n []) (hi : i < s.sers.length) :
    Leads s c fun t => (t.answer.st = .ok ∧ t.answer.value = n) ∧ SerPut i v s t ∧ RegsBut [serTxLvl i, serRxLvl i, serBusy i] s t ∧ t = { s with regs := t.regs, sers := t.sers, answer := t.answer } := by
  have m1 := setSer_put (v := v) hi
  have m2 := regsBut_setSer s i v
  have hf := setSer_frame s i v
  generalize s.setSer i v = q at *
  exact .intro hx e ⟨⟨rfl, rfl⟩, m1, m2.of_regs rfl, by rw [hf]; rfl⟩

/-- A command that shows one flag and answers. -/
theorem leads_ser_flag {c : Instr} {u : State} {n : Nat} {f : Fld} (hf : f.w = 1) (hx : exec c s = .next u) (e : u = (s.wr f 1).answers .ok n []) :
    Leads s c fun t => (t.answer.st = .ok ∧ t.answer.value = n) ∧ t.on f = true ∧ RegsBut [f] s t ∧ t = { s with regs := t.regs, answer := t.answer } :=
  .intro hx e ⟨⟨rfl, rfl⟩, (State.on_wr_same s f 1).trans (by rw [hf]; decide), (regsBut_wr_self s f 1).of_regs rfl, rfl⟩

theorem serOvf_width (i : Nat) : (serOvf i).w = 1 := by
  simp only [serOvf]
  split_ifs <;> rfl

theorem serUf_width (i : Nat) : (serUf i).w = 1 := by
  simp only [serUf]
  split_ifs <;> rfl

/-! ### Writes of the serial registers -/

/-- A taken write of a serial register, by what the block makes of it. -/
theorem writeReg_serial {A word B : Nat} {l : List Nat} {t : State} (h : s.takes w A word = true) (hA : 0x340000 ≤ A ∧ A < 0x400000) (hh : hitAt A = some (B, l, none))
    (ht : ∀ hit : RegHit, hit.d.base = B → hit.ix = l → s.writeSerial w A hit (word % 2 ^ 32) = t) : s.writeReg w A word = t.answers .ok 0 [] := by
  obtain ⟨hit, hf, he⟩ := writeReg_takes h
  obtain ⟨hb, hx, hu⟩ := hitAt_some hf hh
  have hr : s.regEffect w A hit (word % 2 ^ 32) = (t, .ok) := by
    rw [← ht hit hb hx]
    simp (disch := omega) only [State.regEffect, hu, if_neg, if_pos]
  rw [hr] at he
  exact he (.inl rfl)

set_option Elab.async false in
theorem found_SPI_TX : ∀ k : Fin 6, hitAt (0x340008 + 0x100 * k) = some (0x340008, [k.val], none) := by decide +kernel
set_option Elab.async false in
theorem found_I2C_CMD : ∀ k : Fin 4, hitAt (0x341008 + 0x100 * k) = some (0x341008, [k.val], none) := by decide +kernel
set_option Elab.async false in
theorem found_UART_TX : ∀ k : Fin 4, hitAt (0x34200C + 0x100 * k) = some (0x34200C, [k.val], none) := by decide +kernel
set_option Elab.async false in
theorem found_XSPI_CMD : hitAt 0x343004 = some (0x343004, [], none) := by decide +kernel
set_option Elab.async false in
theorem found_XSPI_WDATA : hitAt 0x343018 = some (0x343018, [], none) := by decide +kernel

theorem writeReg_SPI_TX {word : Nat} (k : Fin 6) (h : s.takes w (0x340008 + 0x100 * k) word = true) :
    s.writeReg w (0x340008 + 0x100 * k) word = (s.serTx k (word % 2 ^ 32)).answers .ok 0 [] :=
  writeReg_serial h (by omega) (found_SPI_TX k) fun hit hb hx => by
    rw [State.writeSerial, if_neg (by omega), hb]
    simp only [RegHit.i, hx, List.getD_cons_zero]

theorem writeReg_I2C_CMD {word : Nat} (k : Fin 4) (h : s.takes w (0x341008 + 0x100 * k) word = true) :
    s.writeReg w (0x341008 + 0x100 * k) word = (s.serGo (6 + k) (word % 2 ^ 32)).answers .ok 0 [] :=
  writeReg_serial h (by omega) (found_I2C_CMD k) fun hit hb hx => by
    rw [State.writeSerial, if_neg (by omega), hb]
    simp only [RegHit.i, hx, List.getD_cons_zero]

theorem writeReg_UART_TX {word : Nat} (k : Fin 4) (h : s.takes w (0x34200C + 0x100 * k) word = true) :
    s.writeReg w (0x34200C + 0x100 * k) word = (s.serTx (10 + k) (word % 2 ^ 32)).answers .ok 0 [] :=
  writeReg_serial h (by omega) (found_UART_TX k) fun hit hb hx => by
    rw [State.writeSerial, if_neg (by omega), hb]
    simp only [RegHit.i, hx, List.getD_cons_zero]

theorem writeReg_XSPI_CMD_run {word : Nat} (h : s.takes w 0x343004 word = true) (hrun : s.stage = 7) :
    s.writeReg w 0x343004 word = (s.serGo 14 (word % 2 ^ 32)).answers .ok 0 [] :=
  writeReg_serial h (by omega) found_XSPI_CMD fun hit hb hx => by
    rw [State.writeSerial, if_neg (fun hn => hn.2.1 hrun), hb]
    rfl

theorem writeReg_XSPI_CMD_boot {word : Nat} (h : s.takes w 0x343004 word = true) (hboot : s.stage ≠ 7 ∧ w.ini ≠ 0x3E) :
    s.writeReg w 0x343004 word = s.answers .ok 0 [] :=
  writeReg_serial h (by omega) found_XSPI_CMD fun hit hb hx => if_pos ⟨by omega, hboot.1, fun e => hboot.2 (Fin.ext e)⟩

/-! ### Transmit FIFOs and transfers (R626, R788) -/

/-- A word that enters a transmit FIFO. -/
theorem leads_serTx {c : Instr} {u : State} {word : Nat} (hx : exec c s = .next u) (e : u = (s.serTx i word).answers .ok 0 []) (hi : i < s.sers.length) (hroom : (s.ser i).tx.length < 16) :
    Leads s c fun t => SerPut i { s.ser i with tx := (s.ser i).tx ++ [word] } s t ∧ RegsBut [serTxLvl i, serRxLvl i, serBusy i] s t ∧ t = { s with regs := t.regs, sers := t.sers, answer := t.answer } := by
  rw [State.serTx, if_neg (Nat.not_le.mpr hroom)] at e
  obtain ⟨t, ht, -, hp⟩ := leads_ser_put hx e hi
  exact ⟨t, ht, hp⟩

/-- A word that a full transmit FIFO loses. -/
theorem leads_serTx_full {c : Instr} {u : State} {word : Nat} (hx : exec c s = .next u) (e : u = (s.serTx i word).answers .ok 0 []) (hfull : 16 ≤ (s.ser i).tx.length) :
    Leads s c fun t => t.on (serOvf i) = true ∧ RegsBut [serOvf i] s t ∧ t = { s with regs := t.regs, answer := t.answer } := by
  rw [State.serTx, if_pos hfull] at e
  obtain ⟨t, ht, -, hp⟩ := leads_ser_flag (serOvf_width i) hx e
  exact ⟨t, ht, hp⟩

/-- GO of an enabled interface with no transfer under way. -/
theorem leads_serGo {c : Instr} {u : State} {word : Nat} (hx : exec c s = .next u) (e : u = (s.serGo i word).answers .ok 0 []) (hi : i < s.sers.length) (hgo : s.on (serEn i) = true ∧ (s.ser i).cmd = none) :
    Leads s c fun t => SerPut i { s.ser i with cmd := some word } s t ∧ RegsBut [serTxLvl i, serRxLvl i, serBusy i] s t ∧ t = { s with regs := t.regs, sers := t.sers, answer := t.answer } := by
  rw [State.serGo, if_pos hgo] at e
  obtain ⟨t, ht, -, hp⟩ := leads_ser_put hx e hi
  exact ⟨t, ht, hp⟩

theorem leads_spiTx {k : Fin 6} {v : BitVec 32} (h : s.takes w (0x340008 + 0x100 * k) v.toNat = true ∧ k.val < s.sers.length) (hroom : (s.ser k).tx.length < 16) :
    Leads s (.spiTx k w v) fun t => SerPut k { s.ser k with tx := (s.ser k).tx ++ [v.toNat] } s t ∧ RegsBut [serTxLvl k, serRxLvl k, serBusy k] s t ∧ t = { s with regs := t.regs, sers := t.sers, answer := t.answer } := by
  have e := writeReg_SPI_TX k h.1
  rw [bv32_mod] at e
  exact leads_serTx rfl e h.2 hroom

theorem leads_spiTx_full {k : Fin 6} {v : BitVec 32} (h : s.takes w (0x340008 + 0x100 * k) v.toNat = true) (hfull : 16 ≤ (s.ser k).tx.length) :
    Leads s (.spiTx k w v) fun t => t.on (serOvf k) = true ∧ RegsBut [serOvf k] s t ∧ t = { s with regs := t.regs, answer := t.answer } :=
  leads_serTx_full rfl (writeReg_SPI_TX k h) hfull

theorem leads_uartTx {k : Fin 4} {v : BitVec 32} (h : s.takes w (0x34200C + 0x100 * k) v.toNat = true ∧ 10 + k.val < s.sers.length) (hroom : (s.ser (10 + k)).tx.length < 16) :
    Leads s (.uartTx k w v) fun t => SerPut (10 + k) { s.ser (10 + k) with tx := (s.ser (10 + k)).tx ++ [v.toNat] } s t ∧ RegsBut [serTxLvl (10 + k), serRxLvl (10 + k), serBusy (10 + k)] s t ∧ t = { s with regs := t.regs, sers := t.sers, answer := t.answer } := by
  have e := writeReg_UART_TX k h.1
  rw [bv32_mod] at e
  exact leads_serTx rfl e h.2 hroom

theorem leads_uartTx_full {k : Fin 4} {v : BitVec 32} (h : s.takes w (0x34200C + 0x100 * k) v.toNat = true) (hfull : 16 ≤ (s.ser (10 + k)).tx.length) :
    Leads s (.uartTx k w v) fun t => t.on (serOvf (10 + k)) = true ∧ RegsBut [serOvf (10 + k)] s t ∧ t = { s with regs := t.regs, answer := t.answer } :=
  leads_serTx_full rfl (writeReg_UART_TX k h) hfull

theorem leads_i2cCmd {k : Fin 4} {v : BitVec 32} (h : s.takes w (0x341008 + 0x100 * k) (v ||| 0x200000).toNat = true ∧ 6 + k.val < s.sers.length) (hgo : s.on (serEn (6 + k)) = true ∧ (s.ser (6 + k)).cmd = none) :
    Leads s (.i2cCmd k w v) fun t => SerPut (6 + k) { s.ser (6 + k) with cmd := some (v ||| 0x200000).toNat } s t ∧ RegsBut [serTxLvl (6 + k), serRxLvl (6 + k), serBusy (6 + k)] s t ∧ t = { s with regs := t.regs, sers := t.sers, answer := t.answer } := by
  have e := writeReg_I2C_CMD k h.1
  rw [bv32_mod] at e
  exact leads_serGo rfl e h.2 hgo

theorem leads_i2cCmd_nothing {k : Fin 4} {v : BitVec 32} (h : s.takes w (0x341008 + 0x100 * k) (v ||| 0x200000).toNat = true) (hno : s.on (serEn (6 + k)) = false ∨ (s.ser (6 + k)).cmd ≠ none) :
    Leads s (.i2cCmd k w v) fun t => t = { s with answer := t.answer } ∧ t.answer.st = .ok := by
  have e := writeReg_I2C_CMD k h
  rw [State.serGo, if_neg fun hgo => hno.elim (fun hoff => absurd (hgo.1.symm.trans hoff) (by decide)) fun hbusy => hbusy hgo.2] at e
  exact .intro rfl e ⟨rfl, rfl⟩

theorem leads_xspiCmd {v : BitVec 32} (h : s.takes w 0x343004 (v ||| 0x800000).toNat = true ∧ 14 < s.sers.length) (hgo : s.stage = 7 ∧ s.on (serEn 14) = true ∧ (s.ser 14).cmd = none) :
    Leads s (.xspiCmd w v) fun t => SerPut 14 { s.ser 14 with cmd := some (v ||| 0x800000).toNat } s t ∧ RegsBut [serTxLvl 14, serRxLvl 14, serBusy 14] s t ∧ t = { s with regs := t.regs, sers := t.sers, answer := t.answer } := by
  have e := writeReg_XSPI_CMD_run h.1 hgo.1
  rw [bv32_mod] at e
  exact leads_serGo rfl e h.2 hgo.2

theorem leads_xspiCmd_boot {v : BitVec 32} (h : s.takes w 0x343004 (v ||| 0x800000).toNat = true) (hboot : s.stage ≠ 7 ∧ w.ini ≠ 0x3E) :
    Leads s (.xspiCmd w v) fun t => t = { s with answer := t.answer } ∧ t.answer.st = .ok :=
  .intro rfl (writeReg_XSPI_CMD_boot h hboot) ⟨rfl, rfl⟩

/-! ### Transfers complete (R626, R788) -/

theorem push_room {n : Nat} (h : v.rx.length < 16) : v.push n = { v with rx := v.rx ++ [n] } := if_neg (Nat.not_le.mpr h)

theorem leads_spiDone {k : Fin 6} {rx : BitVec 32} {a : Nat} {l : List Nat} {m : Nat} (hk : k.val < s.sers.length ∧ (s.ser k).tx = a :: l ∧ (s.ser k).rx.length < 16)
    (hen : s.on (serEn k) = true ∧ m = 2 ^ (max (s.rd (R.SPI_CTRL_BITS k)) 3 + 1)) :
    Leads s (.serialTransferDone (.spi k rx)) fun t => SerPut k { s.ser k with tx := l, rx := (s.ser k).rx ++ [rx.toNat % m] } s t ∧ t.serOut = s.serOut ++ [((k : Nat), a % m)] ∧
    RegsBut [serTxLvl k, serRxLvl k, serBusy k] s t ∧ t = { s with regs := t.regs, sers := t.sers, serOut := t.serOut } := by
  obtain ⟨hlen, htx, hroom⟩ := hk
  obtain ⟨hon, rfl⟩ := hen
  generalize hm : 2 ^ (max (s.rd (R.SPI_CTRL_BITS k)) 3 + 1) = m
  have e : s.serDone (.spi k rx) = { s.setSer k { s.ser k with tx := l, rx := (s.ser k).rx ++ [rx.toNat % m] } with serOut := s.serOut ++ [((k : Nat), a % m)] } := by
    simp only [State.serDone, htx, hon, Bool.not_true, Bool.false_eq_true, if_false, hm, push_room (v := { s.ser k with tx := l }) hroom]
  have m1 := setSer_put (v := { s.ser k with tx := l, rx := (s.ser k).rx ++ [rx.toNat % m] }) hlen
  have m2 := regsBut_setSer s k { s.ser k with tx := l, rx := (s.ser k).rx ++ [rx.toNat % m] }
  have hf := setSer_frame s k { s.ser k with tx := l, rx := (s.ser k).rx ++ [rx.toNat % m] }
  generalize s.setSer k _ = q at *
  exact .intro rfl e ⟨m1, rfl, m2.of_regs rfl, by rw [hf]⟩

section
variable {k : Fin 4} {ch : Byte}

/-- A character without an error or a break. -/
theorem serDone_uartRx (hen : s.on (serEn (10 + k)) = true) :
    s.serDone (.uartRx k ch false false false) = if 16 ≤ (s.ser (10 + k)).rx.length then s.wr (R.UART_STAT_RX_OVR k) 1 else
      s.setSer (10 + k) ((s.ser (10 + k)).push (ch.toNat % 2 ^ (5 + s.rd (R.UART_CTRL_DATA_BITS k)))) := by
  simp only [State.serDone, hen, Bool.not_true, Bool.false_eq_true, if_false]
  rfl

theorem leads_uartRx (hk : 10 + k.val < s.sers.length ∧ s.on (serEn (10 + k)) = true ∧ (s.ser (10 + k)).rx.length < 16) :
    Leads s (.serialTransferDone (.uartRx k ch false false false)) fun t => SerPut (10 + k) { s.ser (10 + k) with rx := (s.ser (10 + k)).rx ++ [ch.toNat % 2 ^ (5 + s.rd (R.UART_CTRL_DATA_BITS k))] } s t ∧
    RegsBut [serTxLvl (10 + k), serRxLvl (10 + k), serBusy (10 + k)] s t ∧ t = { s with regs := t.regs, sers := t.sers } := by
  obtain ⟨hlen, hon, hroom⟩ := hk
  have e := serDone_uartRx (ch := ch) hon
  rw [if_neg (Nat.not_le.mpr hroom), push_room hroom] at e
  generalize ({ s.ser (10 + k) with rx := _ } : SerSt) = v at *
  exact .intro rfl e ⟨setSer_put hlen, regsBut_setSer s _ v, setSer_frame s _ v⟩

theorem leads_uartRx_full (hk : s.on (serEn (10 + k)) = true ∧ 16 ≤ (s.ser (10 + k)).rx.length) :
    Leads s (.serialTransferDone (.uartRx k ch false false false)) fun t => t.on (R.UART_STAT_RX_OVR k) = true ∧ RegsBut [R.UART_STAT_RX_OVR k] s t ∧ t = { s with regs := t.regs } := by
  have e := serDone_uartRx (ch := ch) hk.1
  rw [if_pos hk.2] at e
  exact .intro rfl e ⟨State.on_wr_same s (R.UART_STAT_RX_OVR k) 1, regsBut_wr_self s _ _, rfl⟩

/-- The flags of an I2C transfer lie apart from the levels, BUSY and EN of its bus. -/
theorem i2c_keys_ne (k : Fin 4) : (R.I2C_STAT_DONE k).key ∉ [serTxLvl (6 + k), serRxLvl (6 + k), serBusy (6 + k)].map Fld.key ∧
    (R.I2C_STAT_NACK k).key ∉ [serTxLvl (6 + k), serRxLvl (6 + k), serBusy (6 + k)].map Fld.key ∧
    (serEn (6 + k)).key ∉ [R.I2C_STAT_DONE k, R.I2C_STAT_NACK k].map Fld.key := by
  revert k
  decide

theorem leads_i2cNack {rx : List Byte} {a : Nat} (hk : 6 + k.val < s.sers.length ∧ (s.ser (6 + k)).cmd = some a) :
    Leads s (.serialTransferDone (.i2c k 1 rx)) fun t => SerPut (6 + k) { s.ser (6 + k) with cmd := none } s t ∧ t.on (R.I2C_STAT_DONE k) = true ∧ t.on (R.I2C_STAT_NACK k) = true ∧
    RegsBut [serTxLvl (6 + k), serRxLvl (6 + k), serBusy (6 + k), R.I2C_STAT_DONE k, R.I2C_STAT_NACK k] s t ∧ t = { s with regs := t.regs, sers := t.sers } := by
  obtain ⟨hlen, hcmd⟩ := hk
  obtain ⟨hd, hn, hen⟩ := i2c_keys_ne k
  have e : s.serDone (.i2c k 1 rx) = ((s.wr (R.I2C_STAT_DONE k) 1).wr (R.I2C_STAT_NACK k) 1).setSer (6 + k) { s.ser (6 + k) with cmd := none } := by
    simp only [State.serDone, hcmd]
    rfl
  have hdone : ((s.wr (R.I2C_STAT_DONE k) 1).wr (R.I2C_STAT_NACK k) 1).on (R.I2C_STAT_DONE k) = true :=
    (State.on_wr_ne (f := R.I2C_STAT_NACK k) (g := R.I2C_STAT_DONE k) _ 1 (by simp only [R.I2C_STAT_DONE, R.I2C_STAT_NACK]; omega)).trans (State.on_wr_same s (R.I2C_STAT_DONE k) 1)
  have hnack := State.on_wr_same (s.wr (R.I2C_STAT_DONE k) 1) (R.I2C_STAT_NACK k) 1
  have hbut : RegsBut [R.I2C_STAT_DONE k, R.I2C_STAT_NACK k] s ((s.wr (R.I2C_STAT_DONE k) 1).wr (R.I2C_STAT_NACK k) 1) := by simp
  have hq : (s.wr (R.I2C_STAT_DONE k) 1).wr (R.I2C_STAT_NACK k) 1 = { s with regs := ((s.wr (R.I2C_STAT_DONE k) 1).wr (R.I2C_STAT_NACK k) 1).regs } := rfl
  generalize ({ s.ser (6 + k) with cmd := none } : SerSt) = v at *
  generalize (s.wr (R.I2C_STAT_DONE k) 1).wr (R.I2C_STAT_NACK k) 1 = q at *
  have hput := (setSer_put (s := q) (i := 6 + k) (v := v) (by rw [hq]; exact hlen)).from (s := s) (by rw [hq]) (hbut.on hen)
  have hset := regsBut_setSer q (6 + k) v
  refine .intro rfl e ⟨hput, (hset.on hd).trans hdone, (hset.on hn).trans hnack, ?_, ?_⟩
  · exact (hbut.mono (gs := [serTxLvl (6 + k), serRxLvl (6 + k), serBusy (6 + k), R.I2C_STAT_DONE k, R.I2C_STAT_NACK k]) (by simp)).trans (hset.mono (by simp))
  · rw [setSer_frame, hq]

end

/-! ### Receive registers (R626, R788) -/

set_option Elab.async false in
theorem found_serRx : ∀ k : Fin 4, hitAt (0x341014 + 0x100 * k) = some (0x341014, [k.val], none) ∧ hitAt (0x342010 + 0x100 * k) = some (0x342010, [k.val], none) := by decide +kernel
set_option Elab.async false in
theorem found_SPI_RX : ∀ k : Fin 6, hitAt (0x34000C + 0x100 * k) = some (0x34000C, [k.val], none) := by decide +kernel
set_option Elab.async false in
theorem found_XSPI_DATA : hitAt 0x343010 = some (0x343010, [], none) := by decide +kernel

/-- A read of a receive register takes from the FIFO of its interface. -/
theorem readReg_serRx {r : SerialRx} (h : s.gives w (serRxAddr r) = true) :
    s.readReg w (serRxAddr r) = (s.serRx (serRxIndex r)).2.answers .ok ((s.serRx (serRxIndex r)).1 % 2 ^ 32) [] := by
  cases r with
  | spi k => exact readReg_pop h (found_SPI_RX k) fun hit hb hx hu => by simp [State.popRead, hb, hu, RegHit.i, hx, serRxIndex]
  | i2c k => exact readReg_pop h (found_serRx k).1 fun hit hb hx hu => by simp [State.popRead, hb, hu, RegHit.i, hx, serRxIndex]
  | uart k => exact readReg_pop h (found_serRx k).2 fun hit hb hx hu => by simp [State.popRead, hb, hu, RegHit.i, hx, serRxIndex]
  | xspi => exact readReg_pop h found_XSPI_DATA fun hit hb hx hu => by simp [State.popRead, hb, hu, serRxIndex]

theorem leads_serialRxRead {r : SerialRx} {a : Nat} {l : List Nat} (h : s.gives w (serRxAddr r) = true ∧ i = serRxIndex r) (hi : i < s.sers.length ∧ (s.ser i).rx = a :: l ∧ a < 2 ^ 32) :
    Leads s (.serialRxRead r w) fun t => t.answer.st = .ok ∧ t.answer.value = a ∧ SerPut i { s.ser i with rx := l } s t ∧ RegsBut [serTxLvl i, serRxLvl i, serBusy i] s t ∧ t = { s with regs := t.regs, sers := t.sers, answer := t.answer } := by
  obtain ⟨hgives, rfl⟩ := h
  obtain ⟨hlen, hrx, ha⟩ := hi
  have e := readReg_serRx hgives
  have hpop : s.serRx (serRxIndex r) = (a, s.setSer (serRxIndex r) { s.ser (serRxIndex r) with rx := l }) := by simp only [State.serRx, hrx]
  rw [hpop, Nat.mod_eq_of_lt ha] at e
  obtain ⟨t, ht, ⟨hst, hv⟩, hp⟩ := leads_ser_put (c := .serialRxRead r w) rfl e hlen
  exact ⟨t, ht, hst, hv, hp⟩

theorem leads_serialRxRead_empty {r : SerialRx} (h : s.gives w (serRxAddr r) = true ∧ i = serRxIndex r) (hrx : (s.ser i).rx = []) :
    Leads s (.serialRxRead r w) fun t => t.answer.st = .ok ∧ t.answer.value = 0 ∧ t.on (serUf i) = true ∧ RegsBut [serUf i] s t ∧ t = { s with regs := t.regs, answer := t.answer } := by
  obtain ⟨hgives, rfl⟩ := h
  have e := readReg_serRx hgives
  have hpop : s.serRx (serRxIndex r) = (0, s.wr (serUf (serRxIndex r)) 1) := by simp only [State.serRx, hrx]
  rw [hpop, Nat.zero_mod] at e
  obtain ⟨t, ht, ⟨hst, hv⟩, hp⟩ := leads_ser_flag (c := .serialRxRead r w) (serUf_width _) rfl e
  exact ⟨t, ht, hst, hv, hp⟩

/-- What the flash gives through the window, when four bytes wait as a reply. -/
theorem xspiWindow_reply {st : Status} {b0 b1 b2 b3 : Byte} :
    State.xspiWindow { s with replies := [⟨st, [b0, b1, b2, b3]⟩] } = (b0.toNat + b1.toNat * 2 ^ 8 + b2.toNat * 2 ^ 16 + b3.toNat * 2 ^ 24, State.countWrap { s with replies := [] } R.XSPI_WADDR_WADDR 4) := by
  have hw : leNat (fitBytes 4 [b0, b1, b2, b3]) = b0.toNat + b1.toNat * 2 ^ 8 + b2.toNat * 2 ^ 16 + b3.toNat * 2 ^ 24 := by
    rw [show fitBytes 4 [b0, b1, b2, b3] = [b0, b1, b2, b3] from fitBytes_whole rfl]
    simp only [leNat]
    omega
  simp only [State.xspiWindow, State.reply, hw]

theorem leads_xspiWdataRead {st : Status} {b0 b1 b2 b3 : Byte} (h : s.gives w 0x343018 = true) :
    Leads s (.xspiWdataRead w [⟨st, [b0, b1, b2, b3]⟩]) fun t => t.answer.st = .ok ∧ t.answer.value = b0.toNat + b1.toNat * 2 ^ 8 + b2.toNat * 2 ^ 16 + b3.toNat * 2 ^ 24 ∧ t.rd R.XSPI_WADDR_WADDR = (s.rd R.XSPI_WADDR_WADDR + 4) % 2 ^ 32 ∧
    RegsBut [R.XSPI_WADDR_WADDR] s t ∧ t = { s with regs := t.regs, answer := t.answer, replies := [] } := by
  have hlt : b0.toNat + b1.toNat * 2 ^ 8 + b2.toNat * 2 ^ 16 + b3.toNat * 2 ^ 24 < 2 ^ 32 := by
    have := b0.isLt
    have := b1.isLt
    have := b2.isLt
    have := b3.isLt
    omega
  have hg : State.gives { s with replies := [⟨st, [b0, b1, b2, b3]⟩] } w 0x343018 = true := h
  have e := readReg_pop hg found_XSPI_WDATA (v := b0.toNat + b1.toNat * 2 ^ 8 + b2.toNat * 2 ^ 16 + b3.toNat * 2 ^ 24) (t := State.countWrap { s with replies := [] } R.XSPI_WADDR_WADDR 4)
    fun hit hb hx hu => by
      simp only [State.popRead, hb, hu]
      rw [← xspiWindow_reply (st := st)]
  rw [Nat.mod_eq_of_lt hlt] at e
  exact .intro rfl (withReplies_eq (f := fun s => s.readReg w 0x343018) e) ⟨rfl, rfl, State.rd_wr_same s R.XSPI_WADDR_WADDR (s.rd R.XSPI_WADDR_WADDR + 4), (regsBut_wr_self s R.XSPI_WADDR_WADDR (s.rd R.XSPI_WADDR_WADDR + 4)).of_regs rfl, rfl⟩

/-- Settles O38: FIFO words, transfers and reads each come to one interface being put, and its levels and BUSY show it. -/
theorem serialInterfaces : Obligations.SerialInterfaces := by
  unfold Obligations.SerialInterfaces
  refine ⟨?spiTx, ?spiFull, ?i2cGo, ?i2cNothing, ?uartTx, ?uartFull, ?xspiGo, ?xspiBoot, ?spiDone, ?uartRx, ?uartOver, ?i2cNack, ?rxRead, ?rxEmpty, ?window⟩
  case spiTx => exact fun s k w v h hroom => leads_spiTx h hroom
  case spiFull => exact fun s k w v h hfull => leads_spiTx_full h hfull
  case i2cGo => exact fun s k w v h hgo => leads_i2cCmd h hgo
  case i2cNothing => exact fun s k w v h hno => leads_i2cCmd_nothing h hno
  case uartTx => exact fun s k w v h hroom => leads_uartTx h hroom
  case uartFull => exact fun s k w v h hfull => leads_uartTx_full h hfull
  case xspiGo => exact fun s w v h hgo => leads_xspiCmd h hgo
  case xspiBoot => exact fun s w v h hboot => leads_xspiCmd_boot h hboot
  case spiDone => exact fun s k rx a l m hk hen => leads_spiDone hk hen
  case uartRx => exact fun s k ch hk => leads_uartRx hk
  case uartOver => exact fun s k ch hk => leads_uartRx_full hk
  case i2cNack => exact fun s k rx a hk => leads_i2cNack hk
  case rxRead => exact fun s r w i a l h hi => leads_serialRxRead h hi
  case rxEmpty => exact fun s r w i h hrx => leads_serialRxRead_empty h hrx
  case window => exact fun s w st b0 b1 b2 b3 h => leads_xspiWdataRead h

end Sys2Proof.Machine
end

section
/-! PROOFS. How an engine's instruction takes its word, acts, and completes or stalls (R422, R425, R433, R436 of spec/13_fife_engines.md). -/

namespace Sys2Proof.Machine

variable {s m t : State} {e w : Nat} {inj : Bool} {x : FeSt} {fs : List Fld} {pc : Option Nat}

/-! ### Changes that an engine's instruction makes -/

/-- Registers and engines are all that differs. -/
def FeOnly (s t : State) : Prop := t = { s with regs := t.regs, fes := t.fes }

theorem FeOnly.refl (s : State) : FeOnly s s := rfl

theorem FeOnly.trans {u : State} (h : FeOnly s t) (h' : FeOnly t u) : FeOnly s u := by
  rw [FeOnly] at h h' ⊢
  rw [h', h]

theorem FeOnly.wr (h : FeOnly s m) (f : Fld) (v : Nat) : FeOnly s (m.wr f v) := h.trans rfl
theorem FeOnly.mod (h : FeOnly s m) (e : Nat) (g : FeSt → FeSt) : FeOnly s (m.feMod e g) := h.trans rfl

theorem fe_feMod_same (g : FeSt → FeSt) (h : e < m.fes.length) : (m.feMod e g).fe e = g (m.fe e) := by
  simp [State.fe, State.feMod, State.setFe, List.getD_eq_getElem?_getD, h]

theorem fe_feMod_ne (g : FeSt → FeSt) {y : Nat} (h : y ≠ e) : (m.feMod e g).fe y = m.fe y := by
  simp [State.fe, State.feMod, State.setFe, List.getD_eq_getElem?_getD, List.getElem?_set_ne (Ne.symm h)]

/-- Of the engines one became x, and of the registers only fs differ. -/
structure FeBody (e : Nat) (x : FeSt) (fs : List Fld) (s m : State) : Prop where
  engine : m.fe e = x
  others : ∀ y, y ≠ e → m.fe y = s.fe y
  len : m.fes.length = s.fes.length
  regs : RegsBut fs s m
  only : FeOnly s m

theorem FeBody.refl (s : State) (e : Nat) : FeBody e (s.fe e) [] s s := ⟨rfl, fun _ _ => rfl, rfl, RegsBut.refl _ _, .refl _⟩

theorem FeBody.wr (h : FeBody e x fs s m) (f : Fld) (v : Nat) : FeBody e x (f :: fs) s (m.wr f v) :=
  ⟨h.engine, h.others, h.len, (regsBut_wr List.mem_cons_self).mpr (h.regs.mono fun _ hg => List.mem_cons_of_mem _ hg), h.only.wr f v⟩

theorem FeBody.mod (h : FeBody e x fs s m) (hlen : e < s.fes.length) (g : FeSt → FeSt) : FeBody e (g x) fs s (m.feMod e g) :=
  ⟨(fe_feMod_same g (h.len ▸ hlen)).trans (congrArg g h.engine), fun y hy => (fe_feMod_ne g hy).trans (h.others y hy), (List.length_set ..).trans h.len, h.regs, h.only.mod e g⟩

theorem FeBody.mono {gs : List Fld} (h : FeBody e x fs s m) (hs : ∀ f ∈ fs, f ∈ gs) : FeBody e x gs s m := ⟨h.engine, h.others, h.len, h.regs.mono hs, h.only⟩

/-- Two changes one after the other. -/
theorem FeBody.trans {y : FeSt} (h : FeBody e x fs s m) (h' : FeBody e y fs m t) : FeBody e y fs s t :=
  ⟨h'.engine, fun z hz => (h'.others z hz).trans (h.others z hz), h'.len.trans h.len, h.regs.trans h'.regs, h.only.trans h'.only⟩

/-! ### STAMP, PC and the end of an instruction -/

theorem rd64_halves {lo hi : Fld} {v : Nat} (hlo : t.rd lo = v % 2 ^ 32) (hhi : t.rd hi = v / 2 ^ 32 % 2 ^ 16) : t.rd64 lo hi = v % 2 ^ 48 := by
  rw [State.rd64, hlo, hhi]
  omega

theorem feStamp_val (m : State) (e w t : Nat) : (m.feStamp e w t).feStampVal e = if feMark w then t % 2 ^ 48 else m.feStampVal e := by
  rw [State.feStamp]
  split
  · refine rd64_halves ?_ (State.rd_wr_same _ (R.FE_STAMP_HI_STAMP e) _)
    exact (State.rd_wr_ne _ _ (by simp only [R.FE_STAMP_LO_STAMP, R.FE_STAMP_HI_STAMP]; omega)).trans (State.rd_wr_same _ _ _)
  · rfl

theorem feStamp_body (m : State) (e w t : Nat) : FeBody e (m.fe e) [R.FE_STAMP_LO_STAMP e, R.FE_STAMP_HI_STAMP e] m (m.feStamp e w t) := by
  rw [State.feStamp]
  split
  · exact (((FeBody.refl m e).wr _ _).wr _ _).mono (by simp)
  · exact (FeBody.refl m e).mono (by simp)

/-- PC takes the target or advances, unless the word was injected. -/
def State.feAdvance (s : State) (e : Nat) (inj : Bool) (target : Option Nat) : State :=
  match target, inj with
  | some a, _ => s.wr (R.FE_PC_PC e) a
  | none, true => s
  | none, false => s.wr (R.FE_PC_PC e) (s.rd (R.FE_PC_PC e) + 1)

/-- Where PC stands after an instruction at p. -/
def pcAfter (p : Nat) (inj : Bool) : Option Nat → Nat
  | some a => a
  | none => if inj then p else (p + 1) % 32

theorem feAdvance_pc (hpc : ∀ a, pc = some a → a < 32) : (m.feAdvance e inj pc).rd (R.FE_PC_PC e) = pcAfter (m.rd (R.FE_PC_PC e)) inj pc := by
  match pc, inj with
  | some a, _ => exact (State.rd_wr_same m (R.FE_PC_PC e) a).trans (Nat.mod_eq_of_lt (hpc a rfl))
  | none, true => rfl
  | none, false => exact State.rd_wr_same m (R.FE_PC_PC e) _

theorem feAdvance_body (m : State) (e : Nat) (inj : Bool) (pc : Option Nat) : FeBody e (m.fe e) [R.FE_PC_PC e] m (m.feAdvance e inj pc) := by
  match pc, inj with
  | some a, _ => exact (FeBody.refl m e).wr _ _
  | none, true => exact (FeBody.refl m e).mono (by simp)
  | none, false => exact (FeBody.refl m e).wr _ _

/-- Outside a STEP an instruction that completes leaves the engine as it was. -/
theorem feDone_running {n : Nat} (hstep : (m.fe e).stepping = false) :
    m.feDone e inj pc n = ((m.feAdvance e inj pc).wr (R.FE_STAT_STALL e) 0).feMod e fun x => { x with nextAt := n, stalled := none, hit := none } := by
  simp only [State.feDone, hstep]
  rfl

/-- The fields that the end of an instruction changes. -/
def feEndFlds (e : Nat) : List Fld := [R.FE_PC_PC e, R.FE_STAMP_LO_STAMP e, R.FE_STAMP_HI_STAMP e, R.FE_STAT_STALL e]

/-- STAMP, PC, STALL and the engine when an instruction of a running engine completes. -/
theorem feDone_stamped {n st : Nat} (hlen : e < m.fes.length) (hstep : (m.fe e).stepping = false) :
    FeBody e { m.fe e with nextAt := n, stalled := none, hit := none } (feEndFlds e) m ((m.feStamp e w st).feDone e inj pc n) := by
  have h1 := feStamp_body m e w st
  have h2 := feAdvance_body (m.feStamp e w st) e inj pc
  rw [feDone_running (by rw [h1.engine]; exact hstep)]
  have h3 := (h1.mono (gs := feEndFlds e) (by simp [feEndFlds])).trans (h2.mono (by simp [feEndFlds]))
  rw [h1.engine] at h3
  exact ((h3.wr (R.FE_STAT_STALL e) 0).mono (gs := feEndFlds e) (by simp [feEndFlds])).mod hlen fun x => { x with nextAt := n, stalled := none, hit := none }

theorem feDone_stamped_values {n st : Nat} (hstep : (m.fe e).stepping = false) (hpc : ∀ a, pc = some a → a < 32) :
    ((m.feStamp e w st).feDone e inj pc n).rd (R.FE_PC_PC e) = pcAfter (m.rd (R.FE_PC_PC e)) inj pc ∧
    ((m.feStamp e w st).feDone e inj pc n).feStampVal e = (if feMark w then st % 2 ^ 48 else m.feStampVal e) ∧
    ((m.feStamp e w st).feDone e inj pc n).rd (R.FE_STAT_STALL e) = 0 := by
  have h1 := feStamp_body m e w st
  rw [feDone_running (by rw [h1.engine]; exact hstep)]
  have hval := feStamp_val m e w st
  have hpcm : (m.feStamp e w st).rd (R.FE_PC_PC e) = m.rd (R.FE_PC_PC e) := h1.regs.rd (by simp only [List.map_cons, List.map_nil, List.mem_cons, List.not_mem_nil, or_false, R.FE_PC_PC, R.FE_STAMP_LO_STAMP, R.FE_STAMP_HI_STAMP]; omega)
  generalize m.feStamp e w st = q at *
  have hadv := (feAdvance_body q e inj pc).regs
  have hgo := feAdvance_pc (m := q) (e := e) (inj := inj) hpc
  generalize q.feAdvance e inj pc = a at *
  refine ⟨?_, ?_, State.rd_wr_same a (R.FE_STAT_STALL e) 0⟩
  · rw [hpcm] at hgo
    exact (State.rd_wr_ne (f := R.FE_STAT_STALL e) (g := R.FE_PC_PC e) a 0 (by simp only [R.FE_PC_PC, R.FE_STAT_STALL]; omega)).trans hgo
  · have hlo : (a.wr (R.FE_STAT_STALL e) 0).rd (R.FE_STAMP_LO_STAMP e) = q.rd (R.FE_STAMP_LO_STAMP e) :=
      (State.rd_wr_ne a 0 (by simp only [R.FE_STAMP_LO_STAMP, R.FE_STAT_STALL]; omega)).trans (hadv.rd (by simp only [List.map_cons, List.map_nil, List.mem_cons, List.not_mem_nil, or_false, R.FE_PC_PC, R.FE_STAMP_LO_STAMP]; omega))
    have hhi : (a.wr (R.FE_STAT_STALL e) 0).rd (R.FE_STAMP_HI_STAMP e) = q.rd (R.FE_STAMP_HI_STAMP e) :=
      (State.rd_wr_ne a 0 (by simp only [R.FE_STAMP_HI_STAMP, R.FE_STAT_STALL]; omega)).trans (hadv.rd (by simp only [List.map_cons, List.map_nil, List.mem_cons, List.not_mem_nil, or_false, R.FE_PC_PC, R.FE_STAMP_HI_STAMP]; omega))
    rw [← hval]
    exact congrArg₂ (fun a b => a + b * 2 ^ 32) hlo hhi

theorem FeDone.of_pcAfter {next stamp : Nat} (hgo : t.rd (R.FE_PC_PC e) = pcAfter (s.rd (R.FE_PC_PC e)) inj pc) (hx : t.fe e = { x with nextAt := next % 2 ^ 48, stalled := none, hit := none })
    (hy : ∀ y, y ≠ e → t.fe y = s.fe y) (hst : t.feStampVal e = if feMark w then stamp % 2 ^ 48 else s.feStampVal e) (hstall : t.rd (R.FE_STAT_STALL e) = 0) : FeDone e w inj pc next stamp x s t :=
  ⟨by cases pc <;> exact hgo, hx, hy, hst, hstall⟩

/-- An instruction that changed the engine to x and of the registers fs completes. -/
theorem FeBody.done {n st next stamp : Nat} (hb : FeBody e x fs s m) (hlen : e < s.fes.length) (hstep : x.stepping = false) (hpc : ∀ a, pc = some a → a < 32)
    (hfs : ∀ f ∈ fs, f.key ≠ (R.FE_PC_PC e).key ∧ f.key ≠ (R.FE_STAMP_LO_STAMP e).key ∧ f.key ≠ (R.FE_STAMP_HI_STAMP e).key) (hn : n = next % 2 ^ 48) (hst : st % 2 ^ 48 = stamp % 2 ^ 48) :
    FeDone e w inj pc next stamp x s ((m.feStamp e w st).feDone e inj pc n) ∧ RegsBut (fs ++ feEndFlds e) s ((m.feStamp e w st).feDone e inj pc n) ∧
    RegsBut (feEndFlds e) m ((m.feStamp e w st).feDone e inj pc n) ∧ FeOnly s ((m.feStamp e w st).feDone e inj pc n) := by
  have hx : (m.fe e).stepping = false := by rw [hb.engine]; exact hstep
  have h1 := feDone_stamped (w := w) (inj := inj) (pc := pc) (n := n) (st := st) (hb.len ▸ hlen) hx
  obtain ⟨hgo, hval, hstall⟩ := feDone_stamped_values (w := w) (inj := inj) (n := n) (st := st) hx hpc
  have hkeep (f : Fld) (hf : ∀ g ∈ fs, g.key ≠ f.key) : m.rd f = s.rd f := hb.regs.rd fun hm => by
    obtain ⟨g, hg, he⟩ := List.mem_map.mp hm
    exact hf g hg he
  rw [hkeep _ fun g hg => (hfs g hg).1] at hgo
  have hkept : m.feStampVal e = s.feStampVal e := congrArg₂ (fun a b => a + b * 2 ^ 32) (hkeep _ fun g hg => (hfs g hg).2.1) (hkeep _ fun g hg => (hfs g hg).2.2)
  rw [hkept, hst] at hval
  refine ⟨.of_pcAfter hgo (h1.engine.trans (by rw [hb.engine, hn])) (fun y hy => (h1.others y hy).trans (hb.others y hy)) hval hstall, ?_, h1.regs, hb.only.trans h1.only⟩
  exact (hb.regs.mono fun f hf => List.mem_append_left _ hf).trans (h1.regs.mono fun f hf => List.mem_append_right _ hf)

/-! ### The word that an engine takes (R422, R436) -/

theorem feNext_notStepping (h : s.feNext e = some (w, inj)) : (s.fe e).stepping = false := by
  by_contra hs
  rw [Bool.not_eq_false] at hs
  simp [State.feNext, hs] at h

theorem feNext_running (h : s.feNext e = some (w, inj)) : s.feState e = 2 := by
  by_contra hs
  simp [State.feNext, hs] at h

theorem feIssue_legal {isOp : Nat → Bool} {body : State → Nat → Nat → Bool → Nat → State} (h : s.feNext e = some (w, inj)) (hl : feLegal w = true) (ho : isOp w = true) :
    s.feIssue e isOp body = body (s.feInjTake e inj) e w inj (s.fe e).nextAt := by
  simp [State.feIssue, h, hl, ho]

/-- Taking the pending injected word changes INJ_PEND and the engine alone. -/
theorem feInjTake_body (hlen : e < s.fes.length) (inj : Bool) : FeBody e (s.feTaken e inj) [R.FE_STAT_INJ_PEND e] s (s.feInjTake e inj) := by
  cases inj with
  | false => exact (FeBody.refl s e).mono (by simp)
  | true => exact ((FeBody.refl s e).wr (R.FE_STAT_INJ_PEND e) 0).mod hlen fun x => { x with inj := none }

theorem feInjTake_pend (s : State) (e : Nat) (inj : Bool) : (s.feInjTake e inj).rd (R.FE_STAT_INJ_PEND e) = if inj then 0 else s.rd (R.FE_STAT_INJ_PEND e) := by
  cases inj with
  | false => rfl
  | true => exact State.rd_wr_same s (R.FE_STAT_INJ_PEND e) 0

theorem feInjTake_rd (hlen : e < s.fes.length) {f : Fld} (hf : f.key ≠ (R.FE_STAT_INJ_PEND e).key) : (s.feInjTake e inj).rd f = s.rd f :=
  (feInjTake_body hlen inj).regs.rd (by simpa using hf)

theorem feInjTake_on (hlen : e < s.fes.length) {f : Fld} (hf : f.key ≠ (R.FE_STAT_INJ_PEND e).key) : (s.feInjTake e inj).on f = s.on f :=
  (feInjTake_body hlen inj).regs.on (by simpa using hf)

theorem feTaken_stepping (s : State) (e : Nat) (inj : Bool) : (s.feTaken e inj).stepping = (s.fe e).stepping ∧ (s.feTaken e inj).nextAt = (s.fe e).nextAt ∧ (s.feTaken e inj).div = (s.fe e).div := by
  cases inj <;> exact ⟨rfl, rfl, rfl⟩

/-- The fields outside those that the end of an instruction and the taking of its word change. -/
def feApart (e : Nat) (f : Fld) : Prop :=
  f.key ≠ (R.FE_PC_PC e).key ∧ f.key ≠ (R.FE_STAMP_LO_STAMP e).key ∧ f.key ≠ (R.FE_STAMP_HI_STAMP e).key ∧ f.key ≠ (R.FE_STAT_STALL e).key ∧ f.key ≠ (R.FE_STAT_INJ_PEND e).key

theorem feApart.notMem {f : Fld} (h : feApart e f) : f.key ∉ (feEndFlds e).map Fld.key := by
  obtain ⟨h1, h2, h3, h4, -⟩ := h
  simp [feEndFlds, h1, h2, h3, h4]

/-- An instruction that completed from the state with its word taken completed from the state before. -/
theorem FeDone.of_taken {r : State} {next stamp : Nat} (hlen : e < s.fes.length) (hd : FeDone e w inj pc next stamp x (s.feInjTake e inj) r) (hr : RegsBut (fs ++ feEndFlds e) (s.feInjTake e inj) r) (hfs : ∀ f ∈ fs, feApart e f) :
    (FeDone e w inj pc next stamp x s r ∧ r.rd (R.FE_STAT_INJ_PEND e) = (if inj then 0 else s.rd (R.FE_STAT_INJ_PEND e))) ∧ RegsBut (fs ++ feFlds e) s r := by
  have ht := feInjTake_body hlen inj
  obtain ⟨h1, h2, h3, h4, h5⟩ := hd
  have hpc' := feInjTake_rd (s := s) (inj := inj) (f := R.FE_PC_PC e) hlen (by simp only [R.FE_PC_PC, R.FE_STAT_INJ_PEND]; omega)
  have hst : (s.feInjTake e inj).feStampVal e = s.feStampVal e :=
    congrArg₂ (fun a b => a + b * 2 ^ 32) (feInjTake_rd hlen (by simp only [R.FE_STAMP_LO_STAMP, R.FE_STAT_INJ_PEND]; omega)) (feInjTake_rd hlen (by simp only [R.FE_STAMP_HI_STAMP, R.FE_STAT_INJ_PEND]; omega))
  rw [hpc'] at h1
  rw [hst] at h4
  have hpend : r.rd (R.FE_STAT_INJ_PEND e) = if inj then 0 else s.rd (R.FE_STAT_INJ_PEND e) := by
    refine (hr.rd fun hk => ?_).trans (feInjTake_pend s e inj)
    obtain ⟨g, hg, hge⟩ := List.mem_map.mp hk
    rcases List.mem_append.mp hg with hg | hg
    · exact (hfs g hg).2.2.2.2 hge
    · simp only [feEndFlds, List.mem_cons, List.not_mem_nil, or_false] at hg
      rcases hg with rfl | rfl | rfl | rfl <;> simp only [R.FE_PC_PC, R.FE_STAMP_LO_STAMP, R.FE_STAMP_HI_STAMP, R.FE_STAT_STALL, R.FE_STAT_INJ_PEND] at hge <;> omega
  refine ⟨⟨⟨h1, h2, fun y hy => (h3 y hy).trans (ht.others y hy), h4, h5⟩, hpend⟩, ?_⟩
  exact (ht.regs.mono (by simp [feFlds])).trans (hr.mono fun f hf => (List.mem_append.mp hf).elim (List.mem_append_left _) fun hf => List.mem_append_right _ (by
    simp only [feEndFlds, List.mem_cons, List.not_mem_nil, or_false] at hf
    rcases hf with rfl | rfl | rfl | rfl <;> simp [feFlds]))

/-- An instruction of a running engine that takes its word, changes the engine to x and of the registers fs, and completes. -/
theorem FeBody.takenDone {n st next stamp : Nat} (hb : FeBody e x fs (s.feInjTake e inj) m) (hlen : e < s.fes.length) (hstep : x.stepping = false) (hfs : ∀ f ∈ fs, feApart e f) (hpc : ∀ a, pc = some a → a < 32)
    (hn : n = next % 2 ^ 48) (hst : st % 2 ^ 48 = stamp % 2 ^ 48) :
    (FeDone e w inj pc next stamp x s ((m.feStamp e w st).feDone e inj pc n) ∧ ((m.feStamp e w st).feDone e inj pc n).rd (R.FE_STAT_INJ_PEND e) = (if inj then 0 else s.rd (R.FE_STAT_INJ_PEND e))) ∧
    RegsBut (fs ++ feFlds e) s ((m.feStamp e w st).feDone e inj pc n) ∧ RegsBut (feEndFlds e) m ((m.feStamp e w st).feDone e inj pc n) ∧ FeOnly s ((m.feStamp e w st).feDone e inj pc n) := by
  have ht := feInjTake_body hlen inj
  obtain ⟨hd, hr, hm, ho⟩ := hb.done (w := w) (inj := inj) (ht.len ▸ hlen) hstep hpc (fun f hf => ⟨(hfs f hf).1, (hfs f hf).2.1, (hfs f hf).2.2.1⟩) hn hst
  obtain ⟨h1, h2⟩ := hd.of_taken hlen hr hfs
  exact ⟨h1, h2, hm, ht.only.trans ho⟩

/-- Such an instruction that completes in its engine cycle. -/
theorem FeBody.cycle (hb : FeBody e x fs (s.feInjTake e inj) m) (hlen : e < s.fes.length) (hstep : x.stepping = false) (hdiv : x.div = (s.fe e).div) (hfs : ∀ f ∈ fs, feApart e f) (hpc : ∀ a, pc = some a → a < 32) :
    FeCycle e w inj pc x s ((m.feStamp e w (fifeAdd (s.fe e).nextAt 2)).feEnd e w inj pc (s.fe e).nextAt) ∧
    RegsBut (fs ++ feFlds e) s ((m.feStamp e w (fifeAdd (s.fe e).nextAt 2)).feEnd e w inj pc (s.fe e).nextAt) ∧
    RegsBut (feEndFlds e) m ((m.feStamp e w (fifeAdd (s.fe e).nextAt 2)).feEnd e w inj pc (s.fe e).nextAt) ∧
    FeOnly s ((m.feStamp e w (fifeAdd (s.fe e).nextAt 2)).feEnd e w inj pc (s.fe e).nextAt) := by
  have hn : fifeAdd (s.fe e).nextAt ((1 + fePause w) * ((m.feStamp e w (fifeAdd (s.fe e).nextAt 2)).fe e).div) = ((s.fe e).nextAt + (1 + fePause w) * (s.fe e).div) % 2 ^ 48 := by
    rw [(feStamp_body m e w _).engine, hb.engine, hdiv, fifeAdd]
  rw [State.feEnd, hn]
  exact hb.takenDone hlen hstep hfs hpc rfl (Nat.mod_mod _ _)

/-- Without MARK STAMP keeps its value. -/
theorem feStamp_unmarked (m : State) (e t : Nat) : m.feStamp e 0 t = m := rfl

/-- An instruction that puts STAMP first, then changes the engine to x and of the registers fs, and completes in its engine cycle. -/
theorem FeBody.stampedCycle (hb : FeBody e x fs ((s.feInjTake e inj).feStamp e w (fifeAdd (s.fe e).nextAt 2)) m) (hlen : e < s.fes.length) (hstep : x.stepping = false) (hdiv : x.div = (s.fe e).div) (hfs : ∀ f ∈ fs, feApart e f) :
    FeCycle e w inj none x s (m.feEnd e w inj none (s.fe e).nextAt) ∧ RegsBut (fs ++ feFlds e) s (m.feEnd e w inj none (s.fe e).nextAt) ∧
    RegsBut (feEndFlds e) m (m.feEnd e w inj none (s.fe e).nextAt) ∧ FeOnly s (m.feEnd e w inj none (s.fe e).nextAt) := by
  have ht := feInjTake_body hlen inj
  have hs := feStamp_body (s.feInjTake e inj) e w (fifeAdd (s.fe e).nextAt 2)
  have hval := feStamp_val (s.feInjTake e inj) e w (fifeAdd (s.fe e).nextAt 2)
  have hpc : ((s.feInjTake e inj).feStamp e w (fifeAdd (s.fe e).nextAt 2)).rd (R.FE_PC_PC e) = (s.feInjTake e inj).rd (R.FE_PC_PC e) :=
    hs.regs.rd (by simp only [List.map_cons, List.map_nil, List.mem_cons, List.not_mem_nil, or_false, R.FE_PC_PC, R.FE_STAMP_LO_STAMP, R.FE_STAMP_HI_STAMP]; omega)
  generalize (s.feInjTake e inj).feStamp e w (fifeAdd (s.fe e).nextAt 2) = q at *
  obtain ⟨⟨h1, h2, h3, h4, h5⟩, hr, hm, ho⟩ := hb.done (w := 0) (inj := inj) (pc := none) (n := fifeAdd (s.fe e).nextAt ((1 + fePause w) * x.div)) (st := 0) (stamp := 0) (next := (s.fe e).nextAt + (1 + fePause w) * (s.fe e).div)
    (by rw [hs.len, ht.len]; exact hlen) hstep (by simp) (fun f hf => ⟨(hfs f hf).1, (hfs f hf).2.1, (hfs f hf).2.2.1⟩) (by rw [hdiv, fifeAdd]) rfl
  have he : (m.feStamp e 0 0).feDone e inj none (fifeAdd (s.fe e).nextAt ((1 + fePause w) * x.div)) = m.feEnd e w inj none (s.fe e).nextAt := by
    rw [feStamp_unmarked, State.feEnd, hb.engine]
  rw [he] at h1 h2 h3 h4 h5 hr hm ho
  generalize m.feEnd e w inj none (s.fe e).nextAt = r at *
  have hmod : fifeAdd (s.fe e).nextAt 2 % 2 ^ 48 = ((s.fe e).nextAt + 2) % 2 ^ 48 := Nat.mod_mod _ _
  rw [hmod] at hval
  have hd : FeDone e w inj none ((s.fe e).nextAt + (1 + fePause w) * (s.fe e).div) ((s.fe e).nextAt + 2) x (s.feInjTake e inj) r :=
    ⟨by rw [← hpc]; exact h1, h2, fun y hy => (h3 y hy).trans (hs.others y hy), h4.trans hval, h5⟩
  have hreg : RegsBut (fs ++ feEndFlds e) (s.feInjTake e inj) r := (hs.regs.mono (by simp [feEndFlds])).trans hr
  obtain ⟨h6, h7⟩ := hd.of_taken hlen hreg hfs
  exact ⟨h6, h7, hm, ht.only.trans (hs.only.trans ho)⟩

/-- An instruction of a running engine that takes its word and stalls. -/
theorem FeBody.stall {kind : Nat} (hb : FeBody e x fs (s.feInjTake e inj) m) (hlen : e < s.fes.length) (hnext : x.nextAt = (s.fe e).nextAt) (hk : kind < 4) (hfs : ∀ f ∈ fs, feApart e f) :
    FeStalls e w kind inj x s (m.feStall e w kind inj (s.fe e).nextAt) ∧ RegsBut (fs ++ [R.FE_STAT_STALL e, R.FE_STAT_INJ_PEND e]) s (m.feStall e w kind inj (s.fe e).nextAt) ∧
    RegsBut [R.FE_STAT_STALL e] m (m.feStall e w kind inj (s.fe e).nextAt) ∧ FeOnly s (m.feStall e w kind inj (s.fe e).nextAt) := by
  have ht := feInjTake_body hlen inj
  have h1 := ((FeBody.refl m e).wr (R.FE_STAT_STALL e) kind).mod (by rw [hb.len, ht.len]; exact hlen) fun x => { x with stalled := some (w, inj), began := (s.fe e).nextAt, hit := none, nextAt := fifeAdd (s.fe e).nextAt x.div }
  have hstall : ((m.wr (R.FE_STAT_STALL e) kind).feMod e fun x => { x with stalled := some (w, inj), began := (s.fe e).nextAt, hit := none, nextAt := fifeAdd (s.fe e).nextAt x.div }).rd (R.FE_STAT_STALL e) = kind :=
    (State.rd_wr_same m (R.FE_STAT_STALL e) kind).trans (Nat.mod_eq_of_lt hk)
  change FeBody e _ _ m (m.feStall e w kind inj (s.fe e).nextAt) at h1
  change State.rd (m.feStall e w kind inj (s.fe e).nextAt) _ = _ at hstall
  generalize m.feStall e w kind inj (s.fe e).nextAt = r at *
  have hreg : RegsBut (fs ++ [R.FE_STAT_STALL e, R.FE_STAT_INJ_PEND e]) s r :=
    (ht.regs.mono (by simp)).trans ((hb.regs.mono fun f hf => List.mem_append_left _ hf).trans (h1.regs.mono (by simp)))
  have hpend : r.rd (R.FE_STAT_INJ_PEND e) = if inj then 0 else s.rd (R.FE_STAT_INJ_PEND e) := by
    refine ((h1.regs.rd (by simp only [List.map_cons, List.map_nil, List.mem_cons, List.not_mem_nil, or_false, R.FE_STAT_INJ_PEND, R.FE_STAT_STALL]; omega)).trans (hb.regs.rd fun hkm => ?_)).trans (feInjTake_pend s e inj)
    obtain ⟨g, hg, hge⟩ := List.mem_map.mp hkm
    exact (hfs g hg).2.2.2.2 hge
  refine ⟨⟨hstall, h1.engine.trans ?_, fun y hy => (h1.others y hy).trans ((hb.others y hy).trans (ht.others y hy)), hpend⟩, hreg, h1.regs, ht.only.trans (hb.only.trans h1.only)⟩
  rw [hb.engine, hnext]
  rfl

/-! ### Instructions that a command issues -/

/-- The work registers and flags of an engine. -/
def feWork (e : Nat) : List Fld :=
  [R.FE_STAT_TMO e, R.FE_STAT_TLATE e, R.FE_K0_K0 e, R.FE_K1_K1 e, R.FE_CAP_CAP e, R.FE_EMT_EMT e, R.FE_PH_PH e, R.FE_STAT_RX_LVL e, R.FE_STAT_TX_LVL e, R.FE_STAT_STALE e, R.FE_CNT_RX_DROP e,
    R.FE_STAT_ENC_ERR e, R.FE_STAT_ERR_SEEN e, R.FE_CNT_ERR_CNT e, R.FE_PCNT_PCNT e, R.FE_STAT_IRQ e, R.FE_TGT_LO_TGT e, R.FE_TGT_HI_TGT e]

theorem feWork_apart {f : Fld} (hf : f ∈ feWork e) : feApart e f := by
  simp only [feWork, List.mem_cons, List.not_mem_nil, or_false] at hf
  rcases hf with rfl | rfl | rfl | rfl | rfl | rfl | rfl | rfl | rfl | rfl | rfl | rfl | rfl | rfl | rfl | rfl | rfl | rfl <;>
    simp only [feApart, R.FE_STAT_TMO, R.FE_STAT_TLATE, R.FE_K0_K0, R.FE_K1_K1, R.FE_CAP_CAP, R.FE_EMT_EMT, R.FE_PH_PH, R.FE_STAT_RX_LVL, R.FE_STAT_TX_LVL, R.FE_STAT_STALE, R.FE_CNT_RX_DROP,
      R.FE_STAT_ENC_ERR, R.FE_STAT_ERR_SEEN, R.FE_CNT_ERR_CNT, R.FE_PCNT_PCNT, R.FE_STAT_IRQ, R.FE_TGT_LO_TGT, R.FE_TGT_HI_TGT, R.FE_PC_PC, R.FE_STAMP_LO_STAMP, R.FE_STAMP_HI_STAMP, R.FE_STAT_STALL, R.FE_STAT_INJ_PEND] <;>
    omega

theorem feBody_start (hlen : e < s.fes.length) (inj : Bool) : FeBody e (s.feTaken e inj) [] (s.feInjTake e inj) (s.feInjTake e inj) := by
  have h := FeBody.refl (s.feInjTake e inj) e
  rwa [(feInjTake_body hlen inj).engine] at h

section
variable {c : Instr} {b : State} {isOp : Nat → Bool} {body : State → Nat → Nat → Bool → Nat → State}

/-- A command that issues an instruction which completes in its engine cycle. -/
theorem leads_cycle (hx : exec c s = .next (b.feIssue e isOp body)) (hn : e < b.fes.length ∧ b.feNext e = some (w, inj)) (hop : feLegal w = true ∧ isOp w = true)
    (hbody : body (b.feInjTake e inj) e w inj (b.fe e).nextAt = (m.feStamp e w (fifeAdd (b.fe e).nextAt 2)).feEnd e w inj pc (b.fe e).nextAt) (hb : FeBody e x fs (b.feInjTake e inj) m)
    (hxs : x.stepping = (b.feTaken e inj).stepping ∧ x.div = (b.feTaken e inj).div) (hfs : ∀ f ∈ fs, feApart e f) (hpc : ∀ a, pc = some a → a < 32) :
    Leads s c fun t => FeCycle e w inj pc x b t ∧ RegsBut (fs ++ feFlds e) b t ∧ RegsBut (feEndFlds e) m t ∧ FeOnly b t := by
  obtain ⟨h1, -, h3⟩ := feTaken_stepping b e inj
  exact .intro hx ((feIssue_legal hn.2 hop.1 hop.2).trans hbody) (hb.cycle hn.1 (hxs.1.trans (h1.trans (feNext_notStepping hn.2))) (hxs.2.trans h3) hfs hpc)

/-- A command that issues an instruction which completes at a time of its own. -/
theorem leads_takenDone {n st next stamp : Nat} (hx : exec c s = .next (b.feIssue e isOp body)) (hn : e < b.fes.length ∧ b.feNext e = some (w, inj)) (hop : feLegal w = true ∧ isOp w = true)
    (hbody : body (b.feInjTake e inj) e w inj (b.fe e).nextAt = (m.feStamp e w st).feDone e inj pc n) (hb : FeBody e x fs (b.feInjTake e inj) m)
    (hxs : x.stepping = (b.feTaken e inj).stepping) (hfs : ∀ f ∈ fs, feApart e f) (hpc : ∀ a, pc = some a → a < 32) (hne : n = next % 2 ^ 48) (hst : st % 2 ^ 48 = stamp % 2 ^ 48) :
    Leads s c fun t => (FeDone e w inj pc next stamp x b t ∧ t.rd (R.FE_STAT_INJ_PEND e) = (if inj then 0 else b.rd (R.FE_STAT_INJ_PEND e))) ∧ RegsBut (fs ++ feFlds e) b t ∧ RegsBut (feEndFlds e) m t ∧ FeOnly b t := by
  obtain ⟨h1, -, -⟩ := feTaken_stepping b e inj
  exact .intro hx ((feIssue_legal hn.2 hop.1 hop.2).trans hbody) (hb.takenDone hn.1 (hxs.trans (h1.trans (feNext_notStepping hn.2))) hfs hpc hne hst)

/-- A command that issues an instruction which stalls. -/
theorem leads_stall {kind : Nat} (hx : exec c s = .next (b.feIssue e isOp body)) (hn : e < b.fes.length ∧ b.feNext e = some (w, inj)) (hop : feLegal w = true ∧ isOp w = true)
    (hbody : body (b.feInjTake e inj) e w inj (b.fe e).nextAt = m.feStall e w kind inj (b.fe e).nextAt) (hb : FeBody e x fs (b.feInjTake e inj) m)
    (hxs : x.nextAt = (b.feTaken e inj).nextAt) (hk : kind < 4) (hfs : ∀ f ∈ fs, feApart e f) :
    Leads s c fun t => FeStalls e w kind inj x b t ∧ RegsBut (fs ++ [R.FE_STAT_STALL e, R.FE_STAT_INJ_PEND e]) b t ∧ RegsBut [R.FE_STAT_STALL e] m t ∧ FeOnly b t := by
  obtain ⟨-, h2, -⟩ := feTaken_stepping b e inj
  exact .intro hx ((feIssue_legal hn.2 hop.1 hop.2).trans hbody) (hb.stall hn.1 (hxs.trans h2) hk hfs)

end

end Sys2Proof.Machine
end

section
/-! PROOFS. NOP, BR, LOOP and WAIT of the Fife engines, and words that do not execute (R423 to R425, R434 of spec/13_fife_engines.md). -/

namespace Sys2Proof.Machine

variable {s b : State} {e : Fin 32} {w : Nat} {inj : Bool}

/-- A field of an engine other than INJ_PEND reads the same after the word is taken. -/
theorem feInjTake_levels (hlen : e.val < b.fes.length) (p : Nat) : (b.feInjTake e inj).fioRead p = b.fioRead p := by
  have hkey : (R.FIO_CFG_INV_IN p).key ≠ (R.FE_STAT_INJ_PEND e).key := by simp only [R.FIO_CFG_INV_IN, R.FE_STAT_INJ_PEND]; omega
  have hlv : (b.feInjTake e inj).fioLv = b.fioLv := by rw [(feInjTake_body hlen inj).only]
  rw [State.fioRead, State.fioRead, hlv, feInjTake_on hlen hkey]

theorem feInjTake_pin (hlen : e.val < b.fes.length) (j : Nat) : (b.feInjTake e inj).fePin e j = b.fePin e j := by
  rw [State.fePin, State.fePin, feInjTake_rd hlen (by simp only [R.FE_WIN_WBASE, R.FE_STAT_INJ_PEND]; omega)]

/-- The conditions of a BR do not look at the pending word. -/
theorem feCond_injTake (hlen : e.val < b.fes.length) (c j : Nat) : (b.feInjTake e inj).feCond e c j = b.feCond e c j := by
  have hfe : (b.feInjTake e inj).fe e = b.feTaken e inj := (feInjTake_body hlen inj).engine
  have hx : (b.feTaken e inj).emtn = (b.fe e).emtn ∧ (b.feTaken e inj).capn = (b.fe e).capn ∧ (b.feTaken e inj).crc = (b.fe e).crc ∧ (b.feTaken e inj).tx = (b.fe e).tx ∧ (b.feTaken e inj).rx = (b.fe e).rx := by
    cases inj <;> exact ⟨rfl, rfl, rfl, rfl, rfl⟩
  obtain ⟨h1, h2, h3, h4, h5⟩ := hx
  have hrd (f : Fld) (hf : f.key ≠ (R.FE_STAT_INJ_PEND e).key) := feInjTake_rd (inj := inj) hlen hf
  have hon (f : Fld) (hf : f.key ≠ (R.FE_STAT_INJ_PEND e).key) := feInjTake_on (inj := inj) hlen hf
  unfold State.feCond
  rw [hfe, h1, h2, h3, h4, h5, feInjTake_pin hlen, feInjTake_levels hlen, hrd (R.FE_K0_K0 e) (by simp only [R.FE_K0_K0, R.FE_STAT_INJ_PEND]; omega), hrd (R.FE_K1_K1 e) (by simp only [R.FE_K1_K1, R.FE_STAT_INJ_PEND]; omega),
    hrd (R.FE_SHAPE_EMT_LIM e) (by simp only [R.FE_SHAPE_EMT_LIM, R.FE_STAT_INJ_PEND]; omega), hrd (R.FE_SHAPE_CAP_LIM e) (by simp only [R.FE_SHAPE_CAP_LIM, R.FE_STAT_INJ_PEND]; omega),
    hrd (R.FE_CRC2_CRC_CHK e) (by simp only [R.FE_CRC2_CRC_CHK, R.FE_STAT_INJ_PEND]; omega), hon (R.FE_STAT_TMO e) (by simp only [R.FE_STAT_TMO, R.FE_STAT_INJ_PEND]; omega), hon (R.FE_STAT_STALE e) (by simp only [R.FE_STAT_STALE, R.FE_STAT_INJ_PEND]; omega)]

/-! ### NOP, BR, LOOP (R423, R424) -/

theorem leads_nop (hn : e.val < s.fes.length ∧ s.feNext e = some (w, inj) ∧ s.rd (R.FE_PC_PC e) < 32) (hop : feLegal w = true ∧ feOp w = 0) :
    Leads s (.nop e) fun t => FeCycle e w inj none (s.feTaken e inj) s t ∧ RegsBut (feFlds e) s t ∧ t = { s with regs := t.regs, fes := t.fes } := by
  obtain ⟨t, ht, hc, hr, -, ho⟩ := leads_cycle (c := .nop e) (b := s) (pc := none) rfl ⟨hn.1, hn.2.1⟩ ⟨hop.1, beq_iff_eq.mpr hop.2⟩ rfl (feBody_start hn.1 inj) ⟨rfl, rfl⟩ (by simp) (by simp)
  exact ⟨t, ht, hc, hr, ho⟩

/-- The target of a jump is a word of the instruction memory. -/
theorem jump_lt {c : Prop} [Decidable c] {a : Nat} (h : (if c then some (bits w 18 5) else none) = some a) : a < 32 := by
  split at h
  · exact Option.some.inj h ▸ bits_lt w 18 5
  · cases h

/-- A BR of an engine completes at its target or at the next word. -/
theorem leads_br {fio : BitVec 128} (hn : e.val < s.fes.length ∧ s.feNext e = some (w, inj)) (hop : feLegal w = true ∧ feOp w = 1) :
    Leads s (.br e fio) fun t => FeCycle e w inj (if (s.setFio fio).feCond e (bits w 23 4) (bits w 13 5) then some (bits w 18 5) else none) (s.feTaken e inj) s t ∧ RegsBut (feFlds e) s t ∧
    t = { s with regs := t.regs, fes := t.fes, fioLv := fio.toNat } := by
  have hc := feCond_injTake (b := s.setFio fio) (inj := inj) hn.1 (bits w 23 4) (bits w 13 5)
  have hbody : State.feBr ((s.setFio fio).feInjTake e inj) e w inj ((s.setFio fio).fe e).nextAt =
      (((s.setFio fio).feInjTake e inj).feStamp e w (fifeAdd ((s.setFio fio).fe e).nextAt 2)).feEnd e w inj (if (s.setFio fio).feCond e (bits w 23 4) (bits w 13 5) then some (bits w 18 5) else none) ((s.setFio fio).fe e).nextAt := by
    rw [State.feBr, hc]
  obtain ⟨t, ht, hcy, hr, -, ho⟩ := leads_cycle (c := .br e fio) (b := s.setFio fio) rfl hn ⟨hop.1, beq_iff_eq.mpr hop.2⟩ hbody (feBody_start (s := s.setFio fio) hn.1 inj) ⟨rfl, rfl⟩ (by simp) fun a ha => jump_lt ha
  exact ⟨t, ht, hcy, hr, ho⟩

/-- The word BR to 9 on the window pin j at 1. -/
theorem brPin_word {j : Nat} (hw : w = 0x12800000 + 9 * 2 ^ 18 + j * 2 ^ 13) (hj : j < 32) : feLegal w = true ∧ feOp w = 1 ∧ bits w 23 4 = 5 ∧ bits w 13 5 = j ∧ bits w 18 5 = 9 := by
  subst hw
  revert hj
  revert j
  decide

theorem leads_br_pin {fio : BitVec 128} {j p : Nat} (hn : e.val < s.fes.length ∧ s.feNext e = some (w, false)) (hw : w = 0x12800000 + 9 * 2 ^ 18 + j * 2 ^ 13 ∧ j < 32 ∧ p = (s.rd (R.FE_WIN_WBASE e) + j) % 128) :
    Leads s (.br e fio) fun t => t.rd (R.FE_PC_PC e) = (if fio.getLsbD p != s.on (R.FIO_CFG_INV_IN p) then 9 else (s.rd (R.FE_PC_PC e) + 1) % 32) := by
  obtain ⟨hw, hj, rfl⟩ := hw
  obtain ⟨hl, ho, hc, hjj, htgt⟩ := brPin_word hw hj
  obtain ⟨t, ht, ⟨⟨hpc, -⟩, -⟩, -⟩ := leads_br (fio := fio) hn ⟨hl, ho⟩
  refine ⟨t, ht, hpc.trans ?_⟩
  rw [hc, hjj, htgt]
  change (match (if (fio.getLsbD ((s.rd (R.FE_WIN_WBASE e) + j) % 128) != s.on (R.FIO_CFG_INV_IN ((s.rd (R.FE_WIN_WBASE e) + j) % 128))) = true then some 9 else none) with | some a => a | none => if false = true then _ else _) = _
  cases fio.getLsbD ((s.rd (R.FE_WIN_WBASE e) + j) % 128) != s.on (R.FIO_CFG_INV_IN ((s.rd (R.FE_WIN_WBASE e) + j) % 128)) <;> rfl

theorem leads_loop {f : Fld} {k : Nat} (hn : e.val < s.fes.length ∧ s.feNext e = some (w, inj) ∧ s.rd (R.FE_PC_PC e) < 32)
    (hop : feLegal w = true ∧ feOp w = 2 ∧ f = (if bit w 26 = true then R.FE_K1_K1 e else R.FE_K0_K0 e)) (hk : k = s.rd f ∧ k < 2 ^ 32) :
    Leads s (.loop e) fun t => t.rd f = k - 1 ∧ FeCycle e w inj (if 2 ≤ k then some (bits w 18 5) else none) (s.feTaken e inj) s t ∧ RegsBut (f :: feFlds e) s t ∧ t = { s with regs := t.regs, fes := t.fes } := by
  obtain ⟨hl, ho, hf⟩ := hop
  obtain ⟨rfl, hlt⟩ := hk
  have hmem : f ∈ feWork e := by rw [hf]; split <;> simp [feWork]
  have hw : f.w = 32 := by rw [hf]; split <;> rfl
  have hap := feWork_apart hmem
  have hrd := feInjTake_rd (s := s) (inj := inj) hn.1 hap.2.2.2.2
  have hbody : State.feLoop (s.feInjTake e inj) e w inj (s.fe e).nextAt =
      (((s.feInjTake e inj).wr f (s.rd f - 1)).feStamp e w (fifeAdd (s.fe e).nextAt 2)).feEnd e w inj (if 2 ≤ s.rd f then some (bits w 18 5) else none) (s.fe e).nextAt := by
    simp only [State.feLoop, ← hf, hrd]
  obtain ⟨t, ht, hcy, hr, hm, hfr⟩ := leads_cycle (c := .loop e) (b := s) rfl ⟨hn.1, hn.2.1⟩ ⟨hl, beq_iff_eq.mpr ho⟩ hbody ((feBody_start hn.1 inj).wr f (s.rd f - 1)) ⟨rfl, rfl⟩ (by simpa using hap) fun a ha => jump_lt ha
  refine ⟨t, ht, ?_, hcy, hr, hfr⟩
  rw [hm.rd hap.notMem, State.rd_wr_same, hw]
  exact Nat.mod_eq_of_lt (by omega)

/-! ### WAIT (R425) -/

/-- The state in which a WAIT looks at its pin: its word taken, TMO cleared. -/
def State.feWaits (s : State) (e : Nat) (inj : Bool) : State := (s.feInjTake e inj).wr (R.FE_STAT_TMO e) 0

theorem feWaits_body (hlen : e.val < b.fes.length) (inj : Bool) : FeBody e (b.feTaken e inj) [R.FE_STAT_TMO e] (b.feInjTake e inj) (b.feWaits e inj) := (feBody_start hlen inj).wr _ 0

theorem feWaits_level (hlen : e.val < b.fes.length) (j : Nat) : (b.feWaits e inj).fioRead ((b.feWaits e inj).fePin e j) = b.fioRead (b.fePin e j) := by
  have hpin : (b.feWaits e inj).fePin e j = b.fePin e j := by
    rw [State.fePin, State.feWaits, State.rd_wr_ne _ _ (by simp only [R.FE_WIN_WBASE, R.FE_STAT_TMO]; omega)]
    exact feInjTake_pin hlen j
  rw [hpin, State.fioRead, State.feWaits, State.on_wr_ne (f := R.FE_STAT_TMO e) (g := R.FIO_CFG_INV_IN (b.fePin e j)) _ 0 (by simp only [R.FIO_CFG_INV_IN, R.FE_STAT_TMO]; omega)]
  exact feInjTake_levels hlen _

theorem feWaits_tgt (hlen : e.val < b.fes.length) : (b.feWaits e inj).feTgtVal e = b.feTgtVal e := by
  have h (f : Fld) (h1 : f.key ≠ (R.FE_STAT_TMO e).key) (h2 : f.key ≠ (R.FE_STAT_INJ_PEND e).key) : (b.feWaits e inj).rd f = b.rd f := (State.rd_wr_ne _ _ h1).trans (feInjTake_rd hlen h2)
  exact congrArg₂ (fun a b => a + b * 2 ^ 32) (h _ (by simp only [R.FE_TGT_LO_TGT, R.FE_STAT_TMO]; omega) (by simp only [R.FE_TGT_LO_TGT, R.FE_STAT_INJ_PEND]; omega))
    (h _ (by simp only [R.FE_TGT_HI_TGT, R.FE_STAT_TMO]; omega) (by simp only [R.FE_TGT_HI_TGT, R.FE_STAT_INJ_PEND]; omega))

theorem feWait_level (hlen : e.val < b.fes.length) (t : Nat) (hk : bits w 24 3 = 0) :
    (b.feInjTake e inj).feWait e w inj t = if b.fioRead (b.fePin e (bits w 18 5)) = bit w 23 then (b.feWaits e inj).feWaitDone e w inj (fifeAdd t (2 ^ 48 - 3)) (fifeAdd t 1) else (b.feWaits e inj).feStall e w 1 inj t := by
  rw [← feWaits_level (inj := inj) hlen]
  simp only [State.feWait, hk, State.feWaits]
  rfl

theorem feWait_time (hlen : e.val < b.fes.length) (t : Nat) (hk : bits w 24 3 = 2) :
    (b.feInjTake e inj).feWait e w inj t = if (t + 2 ^ 48 - b.feTgtVal e) % 2 ^ 48 < 2 ^ 47 then
      ((b.feWaits e inj).wr (R.FE_STAT_TLATE e) 1).feWaitDone e w inj (fifeAdd t 1) (fifeAdd t 1) else (b.feWaits e inj).feStall e w 1 inj t := by
  rw [← feWaits_tgt (inj := inj) hlen]
  simp only [State.feWait, hk, State.feWaits]
  rfl

theorem feWaitDone_eq {q m : State} {x : FeSt} {fs : List Fld} (hb : FeBody e x fs q m) (st tc : Nat) :
    m.feWaitDone e w inj st tc = (m.feStamp e w st).feDone e inj none (fifeAdd tc (fePause w * x.div)) := by
  rw [State.feWaitDone, hb.engine]

/-- A time some control cycles after another, in two steps. -/
theorem fifeAdd_fifeAdd (t a n : Nat) : fifeAdd (fifeAdd t a) n = (t + a + n) % 2 ^ 48 := by
  rw [fifeAdd, fifeAdd, Nat.mod_add_mod]

/-- TMO reads 0 after a WAIT that ends or stalls. -/
theorem feWaits_tmo (b : State) (e : Nat) (inj : Bool) : (b.feWaits e inj).on (R.FE_STAT_TMO e) = false := State.on_wr_same (b.feInjTake e inj) (R.FE_STAT_TMO e) 0

theorem tmo_apart (e : Nat) : feApart e (R.FE_STAT_TMO e) := feWork_apart (by simp [feWork])

/-- The pin of a WAIT, as the levels given with the command show it. -/
theorem fioRead_setFio {fio : BitVec 128} {p : Nat} (hp : p = (s.rd (R.FE_WIN_WBASE e) + bits w 18 5) % 128) :
    (s.setFio fio).fioRead ((s.setFio fio).fePin e (bits w 18 5)) = (fio.getLsbD p != s.on (R.FIO_CFG_INV_IN p)) := by
  subst hp
  rfl

section
variable {fio : BitVec 128} {p : Nat}

theorem leads_wait_level (hn : e.val < s.fes.length ∧ s.feNext e = some (w, inj) ∧ s.rd (R.FE_PC_PC e) < 32) (hop : feLegal w = true ∧ feOp w = 3 ∧ bits w 24 3 = 0)
    (hp : p = (s.rd (R.FE_WIN_WBASE e) + bits w 18 5) % 128) (hlv : (fio.getLsbD p != s.on (R.FIO_CFG_INV_IN p)) = bit w 23) :
    Leads s (.wait e fio) fun t => t.on (R.FE_STAT_TMO e) = false ∧ FeDone e w inj none ((s.fe e).nextAt + 1 + fePause w * (s.fe e).div) ((s.fe e).nextAt + 2 ^ 48 - 3) (s.feTaken e inj) s t ∧
    t.rd (R.FE_STAT_INJ_PEND e) = (if inj then 0 else s.rd (R.FE_STAT_INJ_PEND e)) ∧ RegsBut (R.FE_STAT_TMO e :: feFlds e) s t ∧ t = { s with regs := t.regs, fes := t.fes, fioLv := fio.toNat } := by
  obtain ⟨hl, ho, hk⟩ := hop
  have hb := feWaits_body (b := s.setFio fio) hn.1 inj
  have hbody := (feWait_level (b := s.setFio fio) (inj := inj) hn.1 (s.fe e).nextAt hk).trans ((if_pos ((fioRead_setFio hp).trans hlv)).trans (feWaitDone_eq hb _ _))
  have hnext : fifeAdd (fifeAdd (s.fe e).nextAt 1) (fePause w * ((s.setFio fio).feTaken e inj).div) = ((s.fe e).nextAt + 1 + fePause w * (s.fe e).div) % 2 ^ 48 := by
    rw [fifeAdd_fifeAdd, (feTaken_stepping _ _ _).2.2]
    rfl
  obtain ⟨t, ht, ⟨hd, hi⟩, hr, hm, hfr⟩ := leads_takenDone (c := .wait e fio) (next := (s.fe e).nextAt + 1 + fePause w * (s.fe e).div) (stamp := (s.fe e).nextAt + 2 ^ 48 - 3) rfl ⟨hn.1, hn.2.1⟩ ⟨hl, beq_iff_eq.mpr ho⟩ hbody hb rfl
    (by simpa using tmo_apart e) (by simp) hnext (by rw [fifeAdd]; omega)
  exact ⟨t, ht, (hm.on (tmo_apart e).notMem).trans (feWaits_tmo _ _ _), hd, hi, hr, hfr⟩

theorem leads_wait_stalls (hn : e.val < s.fes.length ∧ s.feNext e = some (w, inj)) (hop : feLegal w = true ∧ feOp w = 3 ∧ bits w 24 3 = 0)
    (hp : p = (s.rd (R.FE_WIN_WBASE e) + bits w 18 5) % 128) (hlv : (fio.getLsbD p != s.on (R.FIO_CFG_INV_IN p)) ≠ bit w 23) :
    Leads s (.wait e fio) fun t => t.on (R.FE_STAT_TMO e) = false ∧ FeStalls e w 1 inj (s.feTaken e inj) s t ∧ RegsBut [R.FE_STAT_TMO e, R.FE_STAT_STALL e, R.FE_STAT_INJ_PEND e] s t ∧
    t = { s with regs := t.regs, fes := t.fes, fioLv := fio.toNat } := by
  obtain ⟨hl, ho, hk⟩ := hop
  have hbody := (feWait_level (b := s.setFio fio) (inj := inj) hn.1 (s.fe e).nextAt hk).trans (if_neg fun h => hlv ((fioRead_setFio hp).symm.trans h))
  obtain ⟨t, ht, hs, hr, hm, hfr⟩ := leads_stall (c := .wait e fio) (b := s.setFio fio) rfl hn ⟨hl, beq_iff_eq.mpr ho⟩ hbody (feWaits_body (b := s.setFio fio) hn.1 inj) rfl (by decide) (by simpa using tmo_apart e)
  exact ⟨t, ht, (hm.on (by simp only [List.map_cons, List.map_nil, List.mem_cons, List.not_mem_nil, or_false, R.FE_STAT_TMO, R.FE_STAT_STALL]; omega)).trans (feWaits_tmo _ _ _), hs, hr, hfr⟩

theorem leads_wait_time (hn : e.val < s.fes.length ∧ s.feNext e = some (w, inj) ∧ s.rd (R.FE_PC_PC e) < 32) (hop : feLegal w = true ∧ feOp w = 3 ∧ bits w 24 3 = 2) :
    Leads s (.wait e fio) fun t => t.on (R.FE_STAT_TMO e) = false ∧
    (if ((s.fe e).nextAt + 2 ^ 48 - s.feTgtVal e) % 2 ^ 48 < 2 ^ 47 then
      t.on (R.FE_STAT_TLATE e) = true ∧ FeDone e w inj none ((s.fe e).nextAt + 1 + fePause w * (s.fe e).div) ((s.fe e).nextAt + 1) (s.feTaken e inj) s t
    else FeStalls e w 1 inj (s.feTaken e inj) s t) ∧ RegsBut (R.FE_STAT_TMO e :: R.FE_STAT_TLATE e :: feFlds e) s t ∧ t = { s with regs := t.regs, fes := t.fes, fioLv := fio.toNat } := by
  obtain ⟨hl, ho, hk⟩ := hop
  have hb := feWaits_body (b := s.setFio fio) hn.1 inj
  have hwait := feWait_time (b := s.setFio fio) (inj := inj) hn.1 (s.fe e).nextAt hk
  by_cases hlate : ((s.fe e).nextAt + 2 ^ 48 - s.feTgtVal e) % 2 ^ 48 < 2 ^ 47
  · have hb' := hb.wr (R.FE_STAT_TLATE e) 1
    have hbody := hwait.trans ((if_pos hlate).trans (feWaitDone_eq hb' _ _))
    have hnext : fifeAdd (fifeAdd (s.fe e).nextAt 1) (fePause w * ((s.setFio fio).feTaken e inj).div) = ((s.fe e).nextAt + 1 + fePause w * (s.fe e).div) % 2 ^ 48 := by
      rw [fifeAdd_fifeAdd, (feTaken_stepping _ _ _).2.2]
      rfl
    have hap : feApart e (R.FE_STAT_TLATE e) := feWork_apart (by simp [feWork])
    obtain ⟨t, ht, ⟨hd, -⟩, hr, hm, hfr⟩ := leads_takenDone (c := .wait e fio) (next := (s.fe e).nextAt + 1 + fePause w * (s.fe e).div) (stamp := (s.fe e).nextAt + 1) rfl ⟨hn.1, hn.2.1⟩ ⟨hl, beq_iff_eq.mpr ho⟩ hbody hb' rfl
      (by simpa using ⟨hap, tmo_apart e⟩) (by simp) hnext (Nat.mod_mod _ _)
    refine ⟨t, ht, ?_, ?_, hr.mono (by simp [feFlds]), hfr⟩
    · exact (hm.on (tmo_apart e).notMem).trans ((State.on_wr_ne (f := R.FE_STAT_TLATE e) (g := R.FE_STAT_TMO e) _ 1 (by simp only [R.FE_STAT_TMO, R.FE_STAT_TLATE]; omega)).trans (feWaits_tmo _ _ _))
    · rw [if_pos hlate]
      exact ⟨(hm.on hap.notMem).trans (State.on_wr_same _ (R.FE_STAT_TLATE e) 1), hd⟩
  · have hbody := hwait.trans (if_neg hlate)
    obtain ⟨t, ht, hs, hr, hm, hfr⟩ := leads_stall (c := .wait e fio) (b := s.setFio fio) rfl ⟨hn.1, hn.2.1⟩ ⟨hl, beq_iff_eq.mpr ho⟩ hbody hb rfl (by decide) (by simpa using tmo_apart e)
    refine ⟨t, ht, (hm.on (by simp only [List.map_cons, List.map_nil, List.mem_cons, List.not_mem_nil, or_false, R.FE_STAT_TMO, R.FE_STAT_STALL]; omega)).trans (feWaits_tmo _ _ _), ?_, hr.mono (by simp [feFlds]), hfr⟩
    rw [if_neg hlate]
    exact hs

end

/-! ### Stalled waits end (R425) -/

theorem feEndFlds_subset (e : Nat) : ∀ f ∈ feEndFlds e, f ∈ feFlds e := by simp [feEndFlds, feFlds]

/-- A command by which a stalled instruction completes. -/
theorem leads_stalledDone {c : Instr} {m u : State} {x : FeSt} {fs : List Fld} {n st next stamp : Nat} (hx : exec c s = .next u) (hu : u = (m.feStamp e w st).feDone e inj none n) (hb : FeBody e x fs b m)
    (hlen : e.val < b.fes.length) (hstep : x.stepping = false) (hfs : ∀ f ∈ fs, feApart e f) (hn : n = next % 2 ^ 48) (hst : st % 2 ^ 48 = stamp % 2 ^ 48) :
    Leads s c fun t => FeDone e w inj none next stamp x b t ∧ RegsBut (fs ++ feFlds e) b t ∧ RegsBut (feEndFlds e) m t ∧ FeOnly b t := by
  obtain ⟨hd, hr, hm, ho⟩ := hb.done (w := w) (inj := inj) (pc := none) hlen hstep (by simp) (fun f hf => ⟨(hfs f hf).1, (hfs f hf).2.1, (hfs f hf).2.2.1⟩) hn hst
  exact .intro hx hu ⟨hd, hr.mono fun f hf => (List.mem_append.mp hf).elim (List.mem_append_left _) fun hf => List.mem_append_right _ (feEndFlds_subset e f hf), hm, ho⟩

section
variable {fio : BitVec 128} {p : Nat}

theorem feWaitTest_level (hst : (b.fe e).stalled = some (w, inj)) (hop : feOp w = 3 ∧ bits w 24 3 = 0) :
    b.feWaitTest e = if b.fioRead (b.fePin e (bits w 18 5)) = bit w 23 then b.feWaitDone e w inj (fifeAdd b.now (2 ^ 48 - 3)) (fifeAdd b.now 1) else b := by
  simp only [State.feWaitTest, hst, hop.1, hop.2, ne_eq, not_true_eq_false, if_false]

theorem feWaitTest_edge (hst : (b.fe e).stalled = some (w, inj)) (hop : feOp w = 3 ∧ bits w 24 3 = 1) :
    b.feWaitTest e = if b.fioRead (b.fePin e (bits w 18 5)) = bit w 23 ∧ (b.fe e).seen ≠ b.fioRead (b.fePin e (bits w 18 5)) then b.feWaitDone e w inj (fifeAdd b.now (2 ^ 48 - 3)) (fifeAdd b.now 1)
      else b.feMod e fun x => { x with seen := b.fioRead (b.fePin e (bits w 18 5)) } := by
  simp only [State.feWaitTest, hst, hop.1, hop.2, ne_eq, not_true_eq_false, if_false]

theorem feWaitTest_time (hst : (b.fe e).stalled = some (w, inj)) (hop : feOp w = 3 ∧ bits w 24 3 = 2) :
    b.feWaitTest e = if b.reached (b.feTgtVal e) then b.feWaitDone e w inj (b.feTgtVal e) (b.feTgtVal e) else b := by
  simp only [State.feWaitTest, hst, hop.1, hop.2, ne_eq, not_true_eq_false, if_false]

/-- A stalled wait that ends as its pin shows: back three cycles, on in the next. -/
theorem leads_waitEnd_pin (hlen : e.val < s.fes.length) (hstep : (s.fe e).stepping = false)
    (hu : (s.setFio fio).feWaitTest e = (s.setFio fio).feWaitDone e w inj (fifeAdd s.now (2 ^ 48 - 3)) (fifeAdd s.now 1)) :
    Leads s (.waitEnd e fio) fun t => FeDone e w inj none (s.now + 1 + fePause w * (s.fe e).div) (s.now + 2 ^ 48 - 3) (s.fe e) s t ∧ RegsBut (feFlds e) s t ∧ t = { s with regs := t.regs, fes := t.fes, fioLv := fio.toNat } := by
  have hb := FeBody.refl (s.setFio fio) e
  obtain ⟨t, ht, hd, hr, -, ho⟩ := leads_stalledDone (c := .waitEnd e fio) (b := s.setFio fio) (next := s.now + 1 + fePause w * (s.fe e).div) (stamp := s.now + 2 ^ 48 - 3) rfl (hu.trans (feWaitDone_eq hb _ _)) hb hlen hstep
    (by simp) (fifeAdd_fifeAdd _ _ _) (by rw [fifeAdd]; omega)
  exact ⟨t, ht, hd, hr, ho⟩

theorem leads_waitEnd_level (hn : e.val < s.fes.length ∧ (s.fe e).stalled = some (w, inj) ∧ s.rd (R.FE_PC_PC e) < 32 ∧ (s.fe e).stepping = false) (hop : feOp w = 3 ∧ bits w 24 3 = 0)
    (hp : p = (s.rd (R.FE_WIN_WBASE e) + bits w 18 5) % 128) (hlv : (fio.getLsbD p != s.on (R.FIO_CFG_INV_IN p)) = bit w 23) :
    Leads s (.waitEnd e fio) fun t => FeDone e w inj none (s.now + 1 + fePause w * (s.fe e).div) (s.now + 2 ^ 48 - 3) (s.fe e) s t ∧ RegsBut (feFlds e) s t ∧ t = { s with regs := t.regs, fes := t.fes, fioLv := fio.toNat } :=
  leads_waitEnd_pin hn.1 hn.2.2.2 ((feWaitTest_level (b := s.setFio fio) hn.2.1 hop).trans (if_pos ((fioRead_setFio hp).trans hlv)))

theorem leads_waitEnd_edge {lv : Bool} (hn : e.val < s.fes.length ∧ (s.fe e).stalled = some (w, inj) ∧ s.rd (R.FE_PC_PC e) < 32 ∧ (s.fe e).stepping = false) (hop : feOp w = 3 ∧ bits w 24 3 = 1)
    (hp : p = (s.rd (R.FE_WIN_WBASE e) + bits w 18 5) % 128) (hlv : lv = (fio.getLsbD p != s.on (R.FIO_CFG_INV_IN p))) :
    Leads s (.waitEnd e fio) fun t => (if lv = bit w 23 ∧ (s.fe e).seen ≠ lv then FeDone e w inj none (s.now + 1 + fePause w * (s.fe e).div) (s.now + 2 ^ 48 - 3) (s.fe e) s t
    else t.fe e = { s.fe e with seen := lv } ∧ RegsBut [] s t) ∧ RegsBut (feFlds e) s t ∧ t = { s with regs := t.regs, fes := t.fes, fioLv := fio.toNat } := by
  have he := feWaitTest_edge (b := s.setFio fio) hn.2.1 hop
  rw [fioRead_setFio hp, ← hlv] at he
  by_cases hc : lv = bit w 23 ∧ (s.fe e).seen ≠ lv
  · obtain ⟨t, ht, hd, hp⟩ := leads_waitEnd_pin (fio := fio) hn.1 hn.2.2.2 (he.trans (if_pos hc))
    exact ⟨t, ht, by rwa [if_pos hc], hp⟩
  · have hb := (FeBody.refl (s.setFio fio) e).mod hn.1 fun x => { x with seen := lv }
    have hu := he.trans (if_neg hc)
    refine .intro rfl hu ⟨?_, (hb.regs.mono (by simp) :), hb.only⟩
    rw [if_neg hc]
    exact ⟨hb.engine, hb.regs⟩

theorem leads_waitEnd_time (hn : e.val < s.fes.length ∧ (s.fe e).stalled = some (w, inj) ∧ s.rd (R.FE_PC_PC e) < 32 ∧ (s.fe e).stepping = false) (hop : feOp w = 3 ∧ bits w 24 3 = 2 ∧ s.reached (s.feTgtVal e) = true) :
    Leads s (.waitEnd e fio) fun t => FeDone e w inj none (s.feTgtVal e + fePause w * (s.fe e).div) (s.feTgtVal e) (s.fe e) s t ∧ RegsBut (feFlds e) s t ∧ t = { s with regs := t.regs, fes := t.fes, fioLv := fio.toNat } := by
  have hb := FeBody.refl (s.setFio fio) e
  have hu := (feWaitTest_time (b := s.setFio fio) hn.2.1 ⟨hop.1, hop.2.1⟩).trans ((if_pos hop.2.2).trans (feWaitDone_eq hb _ _))
  obtain ⟨t, ht, hd, hr, -, ho⟩ := leads_stalledDone (c := .waitEnd e fio) (b := s.setFio fio) (next := s.feTgtVal e + fePause w * (s.fe e).div) (stamp := s.feTgtVal e) rfl hu hb hn.1 hn.2.2.2 (by simp) rfl rfl
  exact ⟨t, ht, hd, hr, ho⟩

theorem feTimeout_eq (hst : (s.fe e).stalled = some (w, inj)) :
    s.feTimeout e = if feOp w ≠ 3 ∨ bits w 24 3 = 2 ∨ !bit w 11 ∨ !s.reached (s.feTgtVal e) then s else
      (s.wr (R.FE_STAT_TMO e) 1).feWaitDone e w inj (if ((s.fe e).began + 2 ^ 48 - s.feTgtVal e) % 2 ^ 48 < 2 ^ 47 then fifeAdd (s.fe e).began 1 else s.feTgtVal e)
        (if ((s.fe e).began + 2 ^ 48 - s.feTgtVal e) % 2 ^ 48 < 2 ^ 47 then fifeAdd (s.fe e).began 1 else s.feTgtVal e) := by
  simp only [State.feTimeout, hst]

theorem leads_waitTimeout {tc : Nat} (hn : e.val < s.fes.length ∧ (s.fe e).stalled = some (w, inj) ∧ s.rd (R.FE_PC_PC e) < 32 ∧ (s.fe e).stepping = false)
    (hop : feOp w = 3 ∧ bits w 24 3 ≠ 2 ∧ bit w 11 = true ∧ s.reached (s.feTgtVal e) = true) (htc : tc = (if ((s.fe e).began + 2 ^ 48 - s.feTgtVal e) % 2 ^ 48 < 2 ^ 47 then (s.fe e).began + 1 else s.feTgtVal e)) :
    Leads s (.waitTimeout e) fun t => t.on (R.FE_STAT_TMO e) = true ∧ FeDone e w inj none (tc + fePause w * (s.fe e).div) tc (s.fe e) s t ∧ RegsBut (R.FE_STAT_TMO e :: feFlds e) s t ∧ t = { s with regs := t.regs, fes := t.fes } := by
  obtain ⟨ho, hk, hen, hre⟩ := hop
  have hb := (FeBody.refl s e).wr (R.FE_STAT_TMO e) 1
  have hu := (feTimeout_eq hn.2.1).trans ((if_neg (by simp [ho, hk, hen, hre])).trans (feWaitDone_eq hb _ _))
  have hmod : (if ((s.fe e).began + 2 ^ 48 - s.feTgtVal e) % 2 ^ 48 < 2 ^ 47 then fifeAdd (s.fe e).began 1 else s.feTgtVal e) % 2 ^ 48 = tc % 2 ^ 48 := by
    rw [htc]
    split
    · exact Nat.mod_mod _ _
    · rfl
  obtain ⟨t, ht, hd, hr, hm, hfr⟩ := leads_stalledDone (c := .waitTimeout e) (next := tc + fePause w * (s.fe e).div) (stamp := tc) rfl hu hb hn.1 hn.2.2.2 (by simpa using tmo_apart e)
    (by rw [fifeAdd, Nat.add_mod, hmod, ← Nat.add_mod]) hmod
  exact ⟨t, ht, (hm.on (tmo_apart e).notMem).trans (State.on_wr_same s (R.FE_STAT_TMO e) 1), hd, hr, hfr⟩

theorem leads_waitTimeout_not (hst : (s.fe e).stalled = some (w, inj)) (hno : feOp w ≠ 3 ∨ bits w 24 3 = 2 ∨ bit w 11 = false ∨ s.reached (s.feTgtVal e) = false) :
    Leads s (.waitTimeout e) fun t => t = s :=
  .intro rfl ((feTimeout_eq hst).trans (if_pos (by simpa using hno))) rfl

end

/-! ### Words that do not execute (R434, R436) -/

/-- The fields that a halt on an error changes. -/
def feHaltFlds (e : Nat) : List Fld := [R.FE_STAT_STATE e, R.FE_STAT_CAUSE e, R.FE_STAT_ENC_ERR e, R.FE_STAT_ERR_SEEN e, R.FE_STAT_STALL e]

/-- A halt on an error. -/
theorem feHaltWith_error {m : State} {e cause : Nat} (hlen : e < m.fes.length) (hc : 2 ≤ cause ∧ cause ≤ 4) :
    FeBody e { m.fe e with stalled := none, stepping := false } (feHaltFlds e) m (m.feHaltWith e cause) ∧ (m.feHaltWith e cause).feState e = 1 ∧ (m.feHaltWith e cause).rd (R.FE_STAT_CAUSE e) = cause ∧
    (m.feHaltWith e cause).on (R.FE_STAT_ENC_ERR e) = true ∧ (m.feHaltWith e cause).on (R.FE_STAT_ERR_SEEN e) = true ∧ (m.feHaltWith e cause).rd (R.FE_STAT_STALL e) = 0 := by
  have he : m.feHaltWith e cause = (((((m.wr (R.FE_STAT_STATE e) 1).wr (R.FE_STAT_STALL e) 0).wr (R.FE_STAT_CAUSE e) cause).wr (R.FE_STAT_ENC_ERR e) 1).wr (R.FE_STAT_ERR_SEEN e) 1).feMod e fun x => { x with stalled := none, stepping := false } := by
    rw [State.feHaltWith, if_pos hc]
    rfl
  have hb := ((((((FeBody.refl m e).wr (R.FE_STAT_STATE e) 1).wr (R.FE_STAT_STALL e) 0).wr (R.FE_STAT_CAUSE e) cause).wr (R.FE_STAT_ENC_ERR e) 1).wr (R.FE_STAT_ERR_SEEN e) 1).mono (gs := feHaltFlds e) (by simp [feHaltFlds])
  rw [he]
  refine ⟨hb.mod hlen fun x => { x with stalled := none, stepping := false }, ?_, ?_, ?_, ?_, ?_⟩
  · change (((((m.wr (R.FE_STAT_STATE e) 1).wr (R.FE_STAT_STALL e) 0).wr (R.FE_STAT_CAUSE e) cause).wr (R.FE_STAT_ENC_ERR e) 1).wr (R.FE_STAT_ERR_SEEN e) 1).rd (R.FE_STAT_STATE e) = 1
    simp (disch := (simp only [R.FE_STAT_STATE, R.FE_STAT_STALL, R.FE_STAT_CAUSE, R.FE_STAT_ENC_ERR, R.FE_STAT_ERR_SEEN]; omega)) only [State.rd_wr_ne]
    exact State.rd_wr_same m (R.FE_STAT_STATE e) 1
  · change (((((m.wr (R.FE_STAT_STATE e) 1).wr (R.FE_STAT_STALL e) 0).wr (R.FE_STAT_CAUSE e) cause).wr (R.FE_STAT_ENC_ERR e) 1).wr (R.FE_STAT_ERR_SEEN e) 1).rd (R.FE_STAT_CAUSE e) = cause
    simp (disch := (simp only [R.FE_STAT_STATE, R.FE_STAT_STALL, R.FE_STAT_CAUSE, R.FE_STAT_ENC_ERR, R.FE_STAT_ERR_SEEN]; omega)) only [State.rd_wr_ne]
    exact (State.rd_wr_same _ (R.FE_STAT_CAUSE e) cause).trans (Nat.mod_eq_of_lt (show cause < 2 ^ 3 by omega))
  · exact (State.on_wr_ne (f := R.FE_STAT_ERR_SEEN e) (g := R.FE_STAT_ENC_ERR e) _ 1 (by simp only [R.FE_STAT_ENC_ERR, R.FE_STAT_ERR_SEEN]; omega)).trans (State.on_wr_same _ (R.FE_STAT_ENC_ERR e) 1)
  · exact State.on_wr_same _ (R.FE_STAT_ERR_SEEN e) 1
  · change (((((m.wr (R.FE_STAT_STATE e) 1).wr (R.FE_STAT_STALL e) 0).wr (R.FE_STAT_CAUSE e) cause).wr (R.FE_STAT_ENC_ERR e) 1).wr (R.FE_STAT_ERR_SEEN e) 1).rd (R.FE_STAT_STALL e) = 0
    simp (disch := (simp only [R.FE_STAT_STATE, R.FE_STAT_STALL, R.FE_STAT_CAUSE, R.FE_STAT_ENC_ERR, R.FE_STAT_ERR_SEEN]; omega)) only [State.rd_wr_ne]
    exact State.rd_wr_same _ (R.FE_STAT_STALL e) 0

/-- An engine that stops after an instruction completed: nothing of the completion changes. -/
theorem FeDone.halted {s q r : State} {e w next stamp : Nat} {inj : Bool} {pc : Option Nat} {x : FeSt} (hd : FeDone e w inj pc next stamp x s q) (hb : FeBody e { q.fe e with stalled := none, stepping := false } (feHaltFlds e) q r)
    (hstall : r.rd (R.FE_STAT_STALL e) = 0) : FeDone e w inj pc next stamp { x with stepping := false } s r ∧ r.rd (R.FE_STAT_INJ_PEND e) = q.rd (R.FE_STAT_INJ_PEND e) := by
  obtain ⟨h1, h2, h3, h4, -⟩ := hd
  have hkeep {f : Fld} (hf : f.key < (0x18001c + 0x200 * e) * 8 ∨ (0x18001c + 0x200 * e) * 8 + 9 < f.key) : r.rd f = q.rd f := hb.regs.rd (by
    simp only [feHaltFlds, List.map_cons, List.map_nil, List.mem_cons, List.not_mem_nil, or_false, R.FE_STAT_STATE, R.FE_STAT_CAUSE, R.FE_STAT_ENC_ERR, R.FE_STAT_ERR_SEEN, R.FE_STAT_STALL]
    omega)
  have hst : r.feStampVal e = q.feStampVal e := congrArg₂ (fun a b => a + b * 2 ^ 32) (hkeep (by simp only [R.FE_STAMP_LO_STAMP]; omega)) (hkeep (by simp only [R.FE_STAMP_HI_STAMP]; omega))
  refine ⟨⟨(hkeep (by simp only [R.FE_PC_PC]; omega)).trans h1, ?_, fun y hy => (hb.others y hy).trans (h3 y hy), hst.trans h4, hstall⟩, hkeep (by simp only [R.FE_STAT_INJ_PEND]; omega)⟩
  rw [hb.engine, h2]

theorem leads_fetchIllegal (hn : e.val < s.fes.length ∧ s.feNext e = some (w, inj)) (hl : feLegal w = false) :
    Leads s (.fetchIllegal e) fun t => t.feState e = 1 ∧ t.rd (R.FE_STAT_CAUSE e) = 3 ∧ t.on (R.FE_STAT_ENC_ERR e) = true ∧ t.on (R.FE_STAT_ERR_SEEN e) = true ∧ t.rd (R.FE_STAT_STALL e) = 0 ∧
    t.rd (R.FE_STAT_INJ_PEND e) = (if inj then 0 else s.rd (R.FE_STAT_INJ_PEND e)) ∧ t.fe e = { s.feTaken e inj with stalled := none, stepping := false } ∧ (∀ y, y ≠ e.val → t.fe y = s.fe y) ∧
    RegsBut [R.FE_STAT_STATE e, R.FE_STAT_CAUSE e, R.FE_STAT_ENC_ERR e, R.FE_STAT_ERR_SEEN e, R.FE_STAT_STALL e, R.FE_STAT_INJ_PEND e] s t ∧ t = { s with regs := t.regs, fes := t.fes } := by
  have ht := feInjTake_body (s := s) hn.1 inj
  have hu : s.feIllegal e = (s.feInjTake e inj).feHaltWith e 3 := by simp [State.feIllegal, hn.2, hl]
  obtain ⟨hb, h1, h2, h3, h4, h5⟩ := feHaltWith_error (m := s.feInjTake e inj) (e := e) (cause := 3) (ht.len ▸ hn.1) (by decide)
  generalize (s.feInjTake e inj).feHaltWith e 3 = r at *
  have hpend := (hb.regs.rd (f := R.FE_STAT_INJ_PEND e) (by
    simp only [feHaltFlds, List.map_cons, List.map_nil, List.mem_cons, List.not_mem_nil, or_false, R.FE_STAT_STATE, R.FE_STAT_CAUSE, R.FE_STAT_ENC_ERR, R.FE_STAT_ERR_SEEN, R.FE_STAT_STALL, R.FE_STAT_INJ_PEND]; omega)).trans (feInjTake_pend s e inj)
  refine .intro rfl hu ⟨h1, h2, h3, h4, h5, hpend, hb.engine.trans (by rw [ht.engine]), fun y hy => (hb.others y hy).trans (ht.others y hy), ?_, ht.only.trans hb.only⟩
  exact (ht.regs.mono (by simp)).trans (hb.regs.mono (by simp [feHaltFlds]))

theorem leads_fetchParityError (hn : e.val < s.fes.length ∧ s.feNext e = some (w, false)) :
    Leads s (.fetchParityError e) fun t => t.feState e = 1 ∧ t.rd (R.FE_STAT_CAUSE e) = 4 ∧ t.on (R.FE_STAT_ENC_ERR e) = true ∧ t.on (R.FE_STAT_ERR_SEEN e) = true ∧ t.rd (R.FE_STAT_STALL e) = 0 ∧
    t.reports = s.reports ++ [(0x1E, e.val)] ∧ t.fe e = { s.fe e with stalled := none, stepping := false } ∧ (∀ y, y ≠ e.val → t.fe y = s.fe y) ∧
    RegsBut [R.FE_STAT_STATE e, R.FE_STAT_CAUSE e, R.FE_STAT_ENC_ERR e, R.FE_STAT_ERR_SEEN e, R.FE_STAT_STALL e] s t ∧ t = { s with regs := t.regs, fes := t.fes, reports := t.reports } := by
  have hu : s.feParity e = (s.feHaltWith e 4).report 0x1E e := by simp [State.feParity, hn.2]
  obtain ⟨hb, h1, h2, h3, h4, h5⟩ := feHaltWith_error (m := s) (e := e) (cause := 4) hn.1 (by decide)
  generalize s.feHaltWith e 4 = r at *
  have hrep : r.reports = s.reports := by rw [hb.only]
  refine .intro rfl hu ⟨h1, h2, h3, h4, h5, congrArg (· ++ [(0x1E, e.val)]) hrep, hb.engine, hb.others, hb.regs.of_regs rfl, ?_⟩
  rw [hb.only]
  rfl

/-- Settles O39: an instruction of an engine takes its word, acts, and completes or stalls; what completing and stalling change is stated once for all. -/
theorem fifeFlow : Obligations.FifeFlow := by
  unfold Obligations.FifeFlow
  refine ⟨?nop, ?br, ?brPin, ?loop, ?waitLevel, ?waitStalls, ?waitTime, ?endLevel, ?endEdge, ?endTime, ?timeout, ?timeoutNot, ?illegal, ?parity⟩
  case nop => exact fun s e w inj hn hop => leads_nop hn hop
  case br => exact fun s e fio w inj hn hop => leads_br ⟨hn.1, hn.2.1⟩ hop
  case brPin => exact fun s e fio w j p hn hw => leads_br_pin hn hw
  case loop => exact fun s e w inj f k hn hop hk => leads_loop hn hop hk
  case waitLevel => exact fun s e fio w p inj hn hop hp hlv => leads_wait_level hn hop hp hlv
  case waitStalls => exact fun s e fio w p inj hn hop hp hlv => leads_wait_stalls hn hop hp hlv
  case waitTime => exact fun s e fio w inj hn hop => leads_wait_time hn hop
  case endLevel => exact fun s e fio w p inj hn hop hp hlv => leads_waitEnd_level hn hop hp hlv
  case endEdge => exact fun s e fio w p inj lv hn hop hp hlv => leads_waitEnd_edge hn hop hp hlv
  case endTime => exact fun s e fio w inj hn hop => leads_waitEnd_time hn hop
  case timeout => exact fun s e w tc inj hn hop htc => leads_waitTimeout hn hop htc
  case timeoutNot => exact fun s e w inj hst hno => leads_waitTimeout_not hst hno
  case illegal => exact fun s e w inj hn hl => leads_fetchIllegal hn hl
  case parity => exact fun s e w hn => leads_fetchParityError hn

end Sys2Proof.Machine
end

section
/-! PROOFS. The instructions of the Fife engines that move data: shifters, FIFOs, work registers and pins (R426 to R430, R432 of spec/13_fife_engines.md). -/

namespace Sys2Proof.Machine

variable {s b q m t : State} {e : Fin 32} {w : Nat} {inj : Bool} {fs : List Fld}

/-! ### What an instruction reads after its word is taken -/

/-- Taking the word changes of the engine only the pending word. -/
theorem feTaken_eq (b : State) (e : Nat) (inj : Bool) : b.feTaken e inj = { b.fe e with inj := if inj then none else (b.fe e).inj } := by
  cases inj <;> rfl

theorem feInjTake_fe (hlen : e.val < b.fes.length) : (b.feInjTake e inj).fe e = { b.fe e with inj := if inj then none else (b.fe e).inj } :=
  (feInjTake_body hlen inj).engine.trans (feTaken_eq b e inj)

theorem feWork_key {f : Fld} (hf : f ∈ feWork e) : f.key ≠ (R.FE_STAT_INJ_PEND e).key := (feWork_apart hf).2.2.2.2

theorem feInjTake_work (hlen : e.val < b.fes.length) {f : Fld} (hf : f ∈ feWork e) : (b.feInjTake e inj).rd f = b.rd f := feInjTake_rd hlen (feWork_key hf)

theorem feInjTake_feLevels (hlen : e.val < b.fes.length) (first n : Nat) : (b.feInjTake e inj).feLevels e first n = b.feLevels e first n := by
  simp only [State.feLevels, feInjTake_pin hlen, feInjTake_levels hlen]

/-- A command that issues an instruction: of its values in the state it leaves, those of the engine's work registers stand when it completes. -/
theorem feWork_kept (h : RegsBut (feEndFlds e) m t) {f : Fld} (hf : f ∈ feWork e) : t.rd f = m.rd f ∧ t.on f = m.on f :=
  ⟨h.rd (feWork_apart hf).notMem, h.on (feWork_apart hf).notMem⟩

theorem feWork_all (h : fs ⊆ feWork e) : ∀ f ∈ fs, feApart e f := fun _ hf => feWork_apart (h hf)

/-! ### SHIN and SHOUT (R426, R432) -/

theorem feShinVal_injTake (hlen : e.val < b.fes.length) : (b.feInjTake e inj).feShinVal e w = b.feShinVal e w := by
  simp only [State.feShinVal, feInjTake_feLevels hlen, feInjTake_work hlen (f := R.FE_K0_K0 e) (by simp [feWork]), feInjTake_work hlen (f := R.FE_K1_K1 e) (by simp [feWork]), feInjTake_work hlen (f := R.FE_EMT_EMT e) (by simp [feWork])]

/-- CAP after n bits of v are shifted in. -/
def shinCap (low : Bool) (n v cap : Nat) : Nat := if low then cap / 2 ^ n + v * 2 ^ (32 - n) else cap * 2 ^ n + v

/-- The CRC after n bits of v, in the order they came. -/
def shinCrc (low : Bool) (n v wd poly crc : Nat) : Nat := ((List.range n).map fun i => bits v (if low then i else n - 1 - i) 1).foldl (crcBit wd poly) crc

/-- CAP takes the bits of a SHIN. -/
def State.feShinCap (s : State) (e w : Nat) : State :=
  (s.wr (R.FE_CAP_CAP e) (shinCap (s.on (R.FE_SHAPE_CAP_ORDER e)) (bits w 18 5 + 1) (s.feShinVal e w) (s.rd (R.FE_CAP_CAP e)))).feMod e fun x => { x with capn := min 32 (x.capn + (bits w 18 5 + 1)) }

/-- What SHIN makes of CAP, its count and the CRC. -/
def State.feShinned (s : State) (e w : Nat) : State :=
  if bit w 23 then (s.feShinCap e w).feCrc e ((List.range (bits w 18 5 + 1)).map fun i => bits (s.feShinVal e w) (if s.on (R.FE_SHAPE_CAP_ORDER e) then i else bits w 18 5 + 1 - 1 - i) 1) else s.feShinCap e w

theorem feShin_eq (q : State) (e w t : Nat) (inj : Bool) : q.feShin e w inj t = ((q.feShinned e w).feStamp e w (fifeAdd t 2)).feEnd e w inj none t := rfl

theorem feShinned_body (hlen : e.val < q.fes.length) :
    FeBody e { q.fe e with capn := min 32 ((q.fe e).capn + (bits w 18 5 + 1)), crc := if bit w 23 then shinCrc (q.on (R.FE_SHAPE_CAP_ORDER e)) (bits w 18 5 + 1) (q.feShinVal e w) (q.rd (R.FE_CRC_CRC_W e) + 1) (q.rd (R.FE_CRC_CRC_POLY e)) (q.fe e).crc else (q.fe e).crc }
      [R.FE_CAP_CAP e] q (q.feShinned e w) := by
  have hb := ((FeBody.refl q e).wr (R.FE_CAP_CAP e) (shinCap (q.on (R.FE_SHAPE_CAP_ORDER e)) (bits w 18 5 + 1) (q.feShinVal e w) (q.rd (R.FE_CAP_CAP e)))).mod hlen fun x => { x with capn := min 32 (x.capn + (bits w 18 5 + 1)) }
  change FeBody e _ _ q (q.feShinCap e w) at hb
  have hw : (q.feShinCap e w).rd (R.FE_CRC_CRC_W e) = q.rd (R.FE_CRC_CRC_W e) := hb.regs.rd (by simp only [List.map_cons, List.map_nil, List.mem_cons, List.not_mem_nil, or_false, R.FE_CRC_CRC_W, R.FE_CAP_CAP]; omega)
  have hp : (q.feShinCap e w).rd (R.FE_CRC_CRC_POLY e) = q.rd (R.FE_CRC_CRC_POLY e) := hb.regs.rd (by simp only [List.map_cons, List.map_nil, List.mem_cons, List.not_mem_nil, or_false, R.FE_CRC_CRC_POLY, R.FE_CAP_CAP]; omega)
  cases hc : bit w 23 with
  | false =>
    have he : q.feShinned e w = q.feShinCap e w := by simp only [State.feShinned, hc, Bool.false_eq_true, if_false]
    rw [he]
    exact hb
  | true =>
    have he : q.feShinned e w = (q.feShinCap e w).feMod e fun x => { x with crc := shinCrc (q.on (R.FE_SHAPE_CAP_ORDER e)) (bits w 18 5 + 1) (q.feShinVal e w) (q.rd (R.FE_CRC_CRC_W e) + 1) (q.rd (R.FE_CRC_CRC_POLY e)) x.crc } := by
      simp only [State.feShinned, hc, if_true, State.feCrc, hw, hp, shinCrc]
    rw [he]
    exact hb.mod hlen fun x => { x with crc := shinCrc (q.on (R.FE_SHAPE_CAP_ORDER e)) (bits w 18 5 + 1) (q.feShinVal e w) (q.rd (R.FE_CRC_CRC_W e) + 1) (q.rd (R.FE_CRC_CRC_POLY e)) x.crc }

theorem feShinned_cap (q : State) (e w : Nat) : (q.feShinned e w).rd (R.FE_CAP_CAP e) = shinCap (q.on (R.FE_SHAPE_CAP_ORDER e)) (bits w 18 5 + 1) (q.feShinVal e w) (q.rd (R.FE_CAP_CAP e)) % 2 ^ 32 := by
  have h : (q.feShinCap e w).rd (R.FE_CAP_CAP e) = _ := State.rd_wr_same q (R.FE_CAP_CAP e) _
  rw [State.feShinned]
  split
  · exact h
  · exact h

theorem leads_shin {fio : BitVec 128} {n v cap : Nat} {low : Bool} (hn : e.val < s.fes.length ∧ s.feNext e = some (w, inj) ∧ s.rd (R.FE_PC_PC e) < 32) (hop : feLegal w = true ∧ feOp w = 4 ∧ n = bits w 18 5 + 1)
    (hv : v = (s.setFio fio).feShinVal e w) (hlow : low = s.on (R.FE_SHAPE_CAP_ORDER e)) (hcap : cap = s.rd (R.FE_CAP_CAP e)) :
    Leads s (.shin e fio) fun t => t.rd (R.FE_CAP_CAP e) = (if low then cap / 2 ^ n + v * 2 ^ (32 - n) else cap * 2 ^ n + v) % 2 ^ 32 ∧
    FeCycle e w inj none { s.feTaken e inj with capn := min 32 ((s.fe e).capn + n), crc := if bit w 23 then ((List.range n).map fun i => bits v (if low then i else n - 1 - i) 1).foldl (crcBit (s.rd (R.FE_CRC_CRC_W e) + 1) (s.rd (R.FE_CRC_CRC_POLY e))) (s.fe e).crc else (s.fe e).crc } s t ∧
    RegsBut (R.FE_CAP_CAP e :: feFlds e) s t ∧ t = { s with regs := t.regs, fes := t.fes, fioLv := fio.toNat } := by
  obtain ⟨hl, ho, rfl⟩ := hop
  subst hv hlow hcap
  have hlen : e.val < ((s.setFio fio).feInjTake e inj).fes.length := by rw [(feInjTake_body (s := s.setFio fio) hn.1 inj).len]; exact hn.1
  have hb := feShinned_body (w := w) hlen
  have hc := feShinned_cap ((s.setFio fio).feInjTake e inj) e w
  rw [feShinVal_injTake (b := s.setFio fio) hn.1, feInjTake_on (s := s.setFio fio) hn.1 (f := R.FE_SHAPE_CAP_ORDER e) (by simp only [R.FE_SHAPE_CAP_ORDER, R.FE_STAT_INJ_PEND]; omega),
    feInjTake_rd (s := s.setFio fio) hn.1 (f := R.FE_CRC_CRC_W e) (by simp only [R.FE_CRC_CRC_W, R.FE_STAT_INJ_PEND]; omega), feInjTake_rd (s := s.setFio fio) hn.1 (f := R.FE_CRC_CRC_POLY e) (by simp only [R.FE_CRC_CRC_POLY, R.FE_STAT_INJ_PEND]; omega),
    feInjTake_fe (b := s.setFio fio) hn.1] at hb
  rw [feShinVal_injTake (b := s.setFio fio) hn.1, feInjTake_on (s := s.setFio fio) hn.1 (f := R.FE_SHAPE_CAP_ORDER e) (by simp only [R.FE_SHAPE_CAP_ORDER, R.FE_STAT_INJ_PEND]; omega), feInjTake_work (b := s.setFio fio) hn.1 (by simp [feWork])] at hc
  obtain ⟨t, ht, hcy, hr, hm, hfr⟩ := leads_cycle (c := .shin e fio) (b := s.setFio fio) (pc := none) rfl ⟨hn.1, hn.2.1⟩ ⟨hl, beq_iff_eq.mpr ho⟩ (feShin_eq _ _ _ _ _) hb (by rw [feTaken_eq]; exact ⟨rfl, rfl⟩) (feWork_all (by simp [feWork])) (by simp)
  rw [feTaken_eq]
  exact ⟨t, ht, ((feWork_kept hm (by simp [feWork])).1.trans hc), hcy, hr, hfr⟩

/-- The n bits that a SHOUT takes out of EMT, and what is left. -/
def shoutVal (low : Bool) (n emt : Nat) : Nat := if low then emt % 2 ^ n else emt / 2 ^ (32 - n)
def shoutEmt (low : Bool) (n emt : Nat) : Nat := if low then emt / 2 ^ n else emt * 2 ^ n

/-- EMT gives the bits of a SHOUT. -/
def State.feShoutEmt (s : State) (e w : Nat) : State :=
  (s.wr (R.FE_EMT_EMT e) (shoutEmt (s.on (R.FE_SHAPE_EMT_ORDER e)) (bits w 18 5 + 1) (s.rd (R.FE_EMT_EMT e)))).feMod e fun x => { x with emtn := min 32 (x.emtn + (bits w 18 5 + 1)) }

theorem feShout_k0 (q : State) (t : Nat) (hk : bits w 24 3 = 1) :
    q.feShout e w inj t = (((q.feShoutEmt e w).wr (R.FE_K0_K0 e) (shoutVal (q.on (R.FE_SHAPE_EMT_ORDER e)) (bits w 18 5 + 1) (q.rd (R.FE_EMT_EMT e)))).feStamp e w (fifeAdd t 2)).feEnd e w inj none t := by
  simp only [State.feShout, hk]
  rfl

theorem feShout_pins (q : State) (t : Nat) (hk : bits w 24 3 = 0) :
    q.feShout e w inj t = (((q.feShoutEmt e w).feLatches e false (bits w 13 5) (bits w 18 5 + 1) (shoutVal (q.on (R.FE_SHAPE_EMT_ORDER e)) (bits w 18 5 + 1) (q.rd (R.FE_EMT_EMT e)))).feStamp e w (fifeAdd t 2)).feEnd e w inj none t := by
  simp only [State.feShout, hk]
  rfl

theorem feShoutEmt_body (hlen : e.val < b.fes.length) : FeBody e { b.feTaken e inj with emtn := min 32 ((b.fe e).emtn + (bits w 18 5 + 1)) } [R.FE_EMT_EMT e] (b.feInjTake e inj) ((b.feInjTake e inj).feShoutEmt e w) := by
  have hx : { b.feTaken e inj with emtn := min 32 ((b.fe e).emtn + (bits w 18 5 + 1)) } = (fun x : FeSt => { x with emtn := min 32 (x.emtn + (bits w 18 5 + 1)) }) (b.feTaken e inj) := by
    rw [feTaken_eq]
  rw [hx]
  exact ((feBody_start hlen inj).wr (R.FE_EMT_EMT e) _).mod (by rw [(feInjTake_body hlen inj).len]; exact hlen) fun x : FeSt => { x with emtn := min 32 (x.emtn + (bits w 18 5 + 1)) }

/-- The order of EMT and its bits, as a SHOUT sees them. -/
theorem feShout_reads (hlen : e.val < b.fes.length) : (b.feInjTake e inj).on (R.FE_SHAPE_EMT_ORDER e) = b.on (R.FE_SHAPE_EMT_ORDER e) ∧ (b.feInjTake e inj).rd (R.FE_EMT_EMT e) = b.rd (R.FE_EMT_EMT e) :=
  ⟨feInjTake_on hlen (by simp only [R.FE_SHAPE_EMT_ORDER, R.FE_STAT_INJ_PEND]; omega), feInjTake_work hlen (by simp [feWork])⟩

theorem feShoutEmt_emt (hlen : e.val < b.fes.length) : ((b.feInjTake e inj).feShoutEmt e w).rd (R.FE_EMT_EMT e) = shoutEmt (b.on (R.FE_SHAPE_EMT_ORDER e)) (bits w 18 5 + 1) (b.rd (R.FE_EMT_EMT e)) % 2 ^ 32 := by
  obtain ⟨h1, h2⟩ := feShout_reads (inj := inj) hlen
  have h : ((b.feInjTake e inj).feShoutEmt e w).rd (R.FE_EMT_EMT e) = _ := State.rd_wr_same (b.feInjTake e inj) (R.FE_EMT_EMT e) _
  rw [h1, h2] at h
  exact h

theorem leads_shout_k0 {n emt : Nat} {low : Bool} (hn : e.val < s.fes.length ∧ s.feNext e = some (w, inj) ∧ s.rd (R.FE_PC_PC e) < 32) (hop : feLegal w = true ∧ feOp w = 5 ∧ n = bits w 18 5 + 1 ∧ bits w 24 3 = 1)
    (hlow : low = s.on (R.FE_SHAPE_EMT_ORDER e)) (hemt : emt = s.rd (R.FE_EMT_EMT e)) (hlt : emt < 2 ^ 32) :
    Leads s (.shout e) fun t => t.rd (R.FE_K0_K0 e) = (if low then emt % 2 ^ n else emt / 2 ^ (32 - n)) ∧ t.rd (R.FE_EMT_EMT e) = (if low then emt / 2 ^ n else emt * 2 ^ n % 2 ^ 32) ∧
    FeCycle e w inj none { s.feTaken e inj with emtn := min 32 ((s.fe e).emtn + n) } s t ∧ RegsBut (R.FE_K0_K0 e :: R.FE_EMT_EMT e :: feFlds e) s t ∧ t = { s with regs := t.regs, fes := t.fes } := by
  obtain ⟨hl, ho, rfl, hk⟩ := hop
  subst hlow hemt
  obtain ⟨h1, h2⟩ := feShout_reads (inj := inj) hn.1
  have hb := (feShoutEmt_body (w := w) (inj := inj) hn.1).wr (R.FE_K0_K0 e) (shoutVal ((s.feInjTake e inj).on (R.FE_SHAPE_EMT_ORDER e)) (bits w 18 5 + 1) ((s.feInjTake e inj).rd (R.FE_EMT_EMT e)))
  obtain ⟨t, ht, hcy, hr, hm, hfr⟩ := leads_cycle (c := .shout e) (b := s) (pc := none) rfl ⟨hn.1, hn.2.1⟩ ⟨hl, beq_iff_eq.mpr ho⟩ (feShout_k0 _ _ hk) hb ⟨rfl, rfl⟩ (feWork_all (by simp [feWork])) (by simp)
  refine ⟨t, ht, ?_, ?_, hcy, hr, hfr⟩
  · rw [(feWork_kept hm (by simp [feWork])).1, State.rd_wr_same, h1, h2]
    exact Nat.mod_eq_of_lt (lt_of_le_of_lt (by rw [shoutVal]; split <;> [exact Nat.mod_le _ _; exact Nat.div_le_self _ _]) hlt)
  · rw [(feWork_kept hm (by simp [feWork])).1, State.rd_wr_ne _ _ (by simp only [R.FE_EMT_EMT, R.FE_K0_K0]; omega), feShoutEmt_emt hn.1, shoutEmt]
    split
    · exact Nat.mod_eq_of_lt (lt_of_le_of_lt (Nat.div_le_self _ _) hlt)
    · rfl

/-! ### Output latches (R418, R420) -/

/-- A field that has the place of the field written. -/
theorem rd_wr_key (a : State) {f g : Fld} (v : Nat) (h : g.key = f.key) : (a.wr f v).rd g = if v % 2 ^ f.w = f.rst then g.rst else v % 2 ^ f.w := by
  simp only [State.rd, State.wr, h, tset]
  split
  · exact tget_terase_same _ _ _
  · exact tget_tput_erased _ _ _ _

/-- The same value put into the same field. -/
theorem RegsBut.wr_both (h : RegsBut fs m t) (f : Fld) (v : Nat) : RegsBut fs (m.wr f v) (t.wr f v) := fun g hg => by
  by_cases hk : g.key = f.key
  · rw [rd_wr_key _ _ hk, rd_wr_key _ _ hk]
  · rw [State.rd_wr_ne _ _ hk, State.rd_wr_ne _ _ hk]
    exact h g hg

/-- Fields that a latch looks at lie outside fs. -/
def LatchSees (e : Nat) (fs : List Fld) : Prop :=
  (R.FE_WIN_WBASE e).key ∉ fs.map Fld.key ∧ R.SF_STAT_SAFE.key ∉ fs.map Fld.key ∧ R.SF_STAT_FORCED.key ∉ fs.map Fld.key ∧
  ∀ p < 128, (R.FIO_CFG_OWNED p).key ∉ fs.map Fld.key ∧ (R.FIO_CFG_OWNER p).key ∉ fs.map Fld.key ∧ (R.FIO_CFG_SAFE p).key ∉ fs.map Fld.key

theorem fePin_lt (s : State) (e j : Nat) : s.fePin e j < 128 := Nat.mod_lt _ (by decide)

/-- An engine may not change a latch: the pin is not its own, or it holds its safe level. -/
def State.feLatchShut (s : State) (e j : Nat) : Bool :=
  !s.on (R.FIO_CFG_OWNED (s.fePin e j)) || s.rd (R.FIO_CFG_OWNER (s.fePin e j)) != e || ((s.inSafe || s.on R.SF_STAT_FORCED) && s.rd (R.FIO_CFG_SAFE (s.fePin e j)) != 0)

theorem feLatch_eq (s : State) (e : Nat) (drive : Bool) (j : Nat) (v : Bool) :
    s.feLatch e drive j v = if s.feLatchShut e j then s else s.wr (if drive then R.FIO_CFG_OE (s.fePin e j) else R.FIO_CFG_OUT (s.fePin e j)) (b2n v) := rfl

theorem feLatch_congr {e : Nat} (h : RegsBut fs m t) (hs : LatchSees e fs) (drive : Bool) (j : Nat) (v : Bool) : RegsBut fs (m.feLatch e drive j v) (t.feLatch e drive j v) := by
  obtain ⟨h1, h2, h3, h4⟩ := hs
  have hpin : t.fePin e j = m.fePin e j := by rw [State.fePin, State.fePin, h.rd h1]
  obtain ⟨h5, h6, h7⟩ := h4 _ (fePin_lt m e j)
  have hshut : t.feLatchShut e j = m.feLatchShut e j := by
    simp only [State.feLatchShut, hpin, h.on h5, h.rd h6, h.rd h7, State.inSafe, h.on h2, h.on h3]
  rw [feLatch_eq, feLatch_eq, hshut, hpin]
  cases m.feLatchShut e j with
  | true => exact h
  | false => exact h.wr_both _ _

theorem feLatches_congr {e : Nat} (h : RegsBut fs m t) (hs : LatchSees e fs) (drive : Bool) (first n v : Nat) : RegsBut fs (m.feLatches e drive first n v) (t.feLatches e drive first n v) := by
  unfold State.feLatches
  induction List.range n generalizing m t with
  | nil => exact h
  | cons i l ih => exact ih (feLatch_congr h hs drive _ _)

/-- The output latches of the pins. -/
def latchFlds : List Fld := (List.range 128).map R.FIO_CFG_OUT ++ (List.range 128).map R.FIO_CFG_OE

theorem latch_mem (drive : Bool) {p : Nat} (hp : p < 128) : (if drive then R.FIO_CFG_OE p else R.FIO_CFG_OUT p) ∈ latchFlds := by
  cases drive
  · exact List.mem_append_left _ (List.mem_map_of_mem (List.mem_range.mpr hp))
  · exact List.mem_append_right _ (List.mem_map_of_mem (List.mem_range.mpr hp))

theorem feLatches_body (a : State) (e : Nat) (drive : Bool) (first n v : Nat) : FeBody e (a.fe e) latchFlds a (a.feLatches e drive first n v) := by
  unfold State.feLatches
  refine foldl_keep (FeBody e (a.fe e) latchFlds a) _ _ (fun q i _ hq => ?_) ((FeBody.refl a e).mono (by simp))
  rw [feLatch_eq]
  split
  · exact hq
  · exact (hq.wr _ _).mono fun f hf => (List.mem_cons.mp hf).elim (fun h => h ▸ latch_mem drive (fePin_lt q e _)) id

theorem latchFlds_apart {f : Fld} (hf : f ∈ latchFlds) : feApart e f := by
  simp only [latchFlds, List.mem_append, List.mem_map, List.mem_range] at hf
  rcases hf with ⟨p, hp, rfl⟩ | ⟨p, hp, rfl⟩ <;>
    simp only [feApart, R.FIO_CFG_OUT, R.FIO_CFG_OE, R.FE_PC_PC, R.FE_STAMP_LO_STAMP, R.FE_STAMP_HI_STAMP, R.FE_STAT_STALL, R.FE_STAT_INJ_PEND] <;> omega

/-- Nothing that a latch looks at changes when a word is taken or a work register written. -/
theorem shout_latchSees : LatchSees e (R.FE_EMT_EMT e :: feFlds e) := by
  refine ⟨?_, ?_, ?_, fun p hp => ⟨?_, ?_, ?_⟩⟩ <;>
    simp only [feFlds, List.map_cons, List.map_nil, List.mem_cons, List.not_mem_nil, or_false, R.FE_EMT_EMT, R.FE_PC_PC, R.FE_STAMP_LO_STAMP, R.FE_STAMP_HI_STAMP, R.FE_STAT_STALL, R.FE_STAT_INJ_PEND, R.FE_WIN_WBASE, R.SF_STAT_SAFE, R.SF_STAT_FORCED,
      R.FIO_CFG_OWNED, R.FIO_CFG_OWNER, R.FIO_CFG_SAFE] <;> omega

theorem emt_not_latch : (R.FE_EMT_EMT e).key ∉ latchFlds.map Fld.key := by
  simp only [latchFlds, List.map_append, List.map_map, List.mem_append, List.mem_map, List.mem_range, Function.comp, R.FIO_CFG_OUT, R.FIO_CFG_OE, R.FE_EMT_EMT, not_or, not_exists, not_and]
  exact ⟨fun p hp => by omega, fun p hp => by omega⟩

theorem leads_shout_pins {n emt v : Nat} {low : Bool} (hn : e.val < s.fes.length ∧ s.feNext e = some (w, inj) ∧ s.rd (R.FE_PC_PC e) < 32) (hop : feLegal w = true ∧ feOp w = 5 ∧ n = bits w 18 5 + 1 ∧ bits w 24 3 = 0)
    (hlow : low = s.on (R.FE_SHAPE_EMT_ORDER e)) (hemt : emt = s.rd (R.FE_EMT_EMT e)) (hv : v = (if low = true then emt % 2 ^ n else emt / 2 ^ (32 - n))) :
    Leads s (.shout e) fun t => t.rd (R.FE_EMT_EMT e) = (if low then emt / 2 ^ n else emt * 2 ^ n) % 2 ^ 32 ∧ FeCycle e w inj none { s.feTaken e inj with emtn := min 32 ((s.fe e).emtn + n) } s t ∧
    RegsBut (R.FE_EMT_EMT e :: feFlds e) (s.feLatches e false (bits w 13 5) n v) t ∧ t = { s with regs := t.regs, fes := t.fes } := by
  obtain ⟨hl, ho, rfl, hk⟩ := hop
  subst hlow hemt
  obtain ⟨h1, h2⟩ := feShout_reads (inj := inj) hn.1
  have hbody := feShout_pins (e := e) (w := w) (inj := inj) (s.feInjTake e inj) (s.fe e).nextAt hk
  rw [h1, h2, show shoutVal _ _ _ = v from hv.symm] at hbody
  have hemt := feShoutEmt_body (w := w) (inj := inj) hn.1
  have hlat := feLatches_body ((s.feInjTake e inj).feShoutEmt e w) e false (bits w 13 5) (bits w 18 5 + 1) v
  rw [hemt.engine] at hlat
  have hb := (hemt.mono (gs := R.FE_EMT_EMT e :: latchFlds) (by simp)).trans (hlat.mono fun f hf => List.mem_cons_of_mem _ hf)
  obtain ⟨t, ht, hcy, hr, hm, hfr⟩ := leads_cycle (c := .shout e) (b := s) (pc := none) rfl ⟨hn.1, hn.2.1⟩ ⟨hl, beq_iff_eq.mpr ho⟩ hbody hb ⟨rfl, rfl⟩
    (fun f hf => (List.mem_cons.mp hf).elim (fun h => h ▸ feWork_apart (by simp [feWork])) latchFlds_apart) (by simp)
  refine ⟨t, ht, ?_, hcy, ?_, hfr⟩
  · rw [(feWork_kept hm (by simp [feWork])).1, hlat.regs.rd emt_not_latch, feShoutEmt_emt hn.1, shoutEmt]
  · have hpre : RegsBut (R.FE_EMT_EMT e :: feFlds e) s ((s.feInjTake e inj).feShoutEmt e w) := ((feInjTake_body hn.1 inj).regs.mono (by simp [feFlds])).trans (hemt.regs.mono (by simp))
    exact (feLatches_congr hpre shout_latchSees false _ _ _).trans (hm.mono fun f hf => List.mem_cons_of_mem _ (feEndFlds_subset e f hf))

/-! ### PUSH (R429, R430) -/

/-- WHENFULL off, or CAP full: the PUSH acts. -/
theorem fePushSkip_false (hlen : e.val < b.fes.length) (h : bit w 25 = false ∨ b.rd (R.FE_SHAPE_CAP_LIM e) + 1 ≤ (b.fe e).capn) : (b.feInjTake e inj).fePushSkip e w = false := by
  rw [State.fePushSkip, feInjTake_fe hlen, feInjTake_rd hlen (by simp only [R.FE_SHAPE_CAP_LIM, R.FE_STAT_INJ_PEND]; omega)]
  rcases h with h | h
  · rw [h, Bool.false_and]
  · rw [decide_eq_false (Nat.not_lt.mpr h), Bool.and_false]

theorem feCapClear_body {x : FeSt} (h : FeBody e x fs q m) (hlen : e.val < q.fes.length) : FeBody e { x with capn := 0 } (R.FE_CAP_CAP e :: fs) q (m.feCapClear e) := (h.wr (R.FE_CAP_CAP e) 0).mod hlen fun x => { x with capn := 0 }

theorem feCapClear_cap (m : State) (e : Nat) : (m.feCapClear e).rd (R.FE_CAP_CAP e) = 0 := State.rd_wr_same m (R.FE_CAP_CAP e) 0

/-- CAP enters RX. -/
theorem feRxPut_body (hlen : e.val < q.fes.length) : FeBody e { q.fe e with rx := (q.fe e).rx ++ [q.rd (R.FE_CAP_CAP e)], capn := 0 } [R.FE_CAP_CAP e, R.FE_STAT_RX_LVL e] q (q.feRxPut e) :=
  feCapClear_body (((FeBody.refl q e).mod hlen fun x => { x with rx := (q.fe e).rx ++ [q.rd (R.FE_CAP_CAP e)] }).wr (R.FE_STAT_RX_LVL e) _) hlen

theorem feRxPut_values (hroom : (q.fe e).rx.length < 8) : (q.feRxPut e).rd (R.FE_CAP_CAP e) = 0 ∧ (q.feRxPut e).rd (R.FE_STAT_RX_LVL e) = (q.fe e).rx.length + 1 := by
  refine ⟨feCapClear_cap _ _, ?_⟩
  have h : (q.feRxPut e).rd (R.FE_STAT_RX_LVL e) = ((q.feMod e fun x => { x with rx := (q.fe e).rx ++ [q.rd (R.FE_CAP_CAP e)] }).wr (R.FE_STAT_RX_LVL e) ((q.fe e).rx ++ [q.rd (R.FE_CAP_CAP e)]).length).rd (R.FE_STAT_RX_LVL e) :=
    State.rd_wr_ne (f := R.FE_CAP_CAP e) (g := R.FE_STAT_RX_LVL e) _ 0 (by simp only [R.FE_CAP_CAP, R.FE_STAT_RX_LVL]; omega)
  rw [h, State.rd_wr_same, List.length_append, List.length_singleton]
  exact Nat.mod_eq_of_lt (show (q.fe e).rx.length + 1 < 2 ^ 4 by omega)

theorem fePushRx_room {t : Nat} (hs : q.fePushSkip e w = false) (hroom : (q.fe e).rx.length < 8) : q.fePushRx e w inj t = ((q.feRxPut e).feStamp e w (fifeAdd t 2)).feEnd e w inj none t := by
  simp only [State.fePushRx, hs, Bool.false_eq_true, if_false, if_pos hroom]

theorem fePushRx_full {t : Nat} (hs : q.fePushSkip e w = false) (hfull : 8 ≤ (q.fe e).rx.length) :
    q.fePushRx e w inj t = if bit w 26 then q.feStall e w 3 inj t else ((((q.feCapClear e).wr (R.FE_STAT_STALE e) 1).count (R.FE_CNT_RX_DROP e) 1).feStamp e w (fifeAdd t 2)).feEnd e w inj none t := by
  simp only [State.fePushRx, hs, Bool.false_eq_true, if_false, if_neg (Nat.not_lt.mpr hfull)]

section
variable (hn : e.val < s.fes.length ∧ s.feNext e = some (w, inj) ∧ s.rd (R.FE_PC_PC e) < 32)
include hn

theorem feTake_len : e.val < (s.feInjTake e inj).fes.length := by rw [(feInjTake_body hn.1 inj).len]; exact hn.1

theorem leads_pushRx (hop : feLegal w = true ∧ isPush 0 w = true ∧ (bit w 25 = false ∨ s.rd (R.FE_SHAPE_CAP_LIM e) + 1 ≤ (s.fe e).capn)) (hroom : (s.fe e).rx.length < 8) :
    Leads s (.pushRx e) fun t => t.rd (R.FE_CAP_CAP e) = 0 ∧ t.rd (R.FE_STAT_RX_LVL e) = (s.fe e).rx.length + 1 ∧ FeCycle e w inj none { s.feTaken e inj with rx := (s.fe e).rx ++ [s.rd (R.FE_CAP_CAP e)], capn := 0 } s t ∧
    RegsBut (R.FE_CAP_CAP e :: R.FE_STAT_RX_LVL e :: feFlds e) s t ∧ t = { s with regs := t.regs, fes := t.fes } := by
  obtain ⟨hl, ho, hskip⟩ := hop
  have hroom' : ((s.feInjTake e inj).fe e).rx.length < 8 := by rw [feInjTake_fe hn.1]; exact hroom
  have hb := feRxPut_body (feTake_len hn)
  obtain ⟨h1, h2⟩ := feRxPut_values hroom'
  rw [feInjTake_fe hn.1, feInjTake_work hn.1 (by simp [feWork])] at hb
  rw [feInjTake_fe hn.1] at h2
  obtain ⟨t, ht, hcy, hr, hm, hfr⟩ := leads_cycle (c := .pushRx e) (b := s) (pc := none) rfl ⟨hn.1, hn.2.1⟩ ⟨hl, ho⟩ (fePushRx_room (fePushSkip_false hn.1 hskip) hroom') hb (by rw [feTaken_eq]; exact ⟨rfl, rfl⟩) (feWork_all (by simp [feWork])) (by simp)
  rw [feTaken_eq]
  exact ⟨t, ht, (feWork_kept hm (by simp [feWork])).1.trans h1, (feWork_kept hm (by simp [feWork])).1.trans h2, hcy, hr, hfr⟩

theorem leads_pushRx_full (hop : feLegal w = true ∧ isPush 0 w = true ∧ (bit w 25 = false ∨ s.rd (R.FE_SHAPE_CAP_LIM e) + 1 ≤ (s.fe e).capn)) (hfull : 8 ≤ (s.fe e).rx.length) :
    Leads s (.pushRx e) fun t => (if bit w 26 then FeStalls e w 3 inj (s.feTaken e inj) s t ∧ RegsBut [R.FE_STAT_STALL e, R.FE_STAT_INJ_PEND e] s t
    else t.rd (R.FE_CAP_CAP e) = 0 ∧ t.on (R.FE_STAT_STALE e) = true ∧ t.rd (R.FE_CNT_RX_DROP e) = satAdd 16 (s.rd (R.FE_CNT_RX_DROP e)) 1 ∧ FeCycle e w inj none { s.feTaken e inj with capn := 0 } s t) ∧
    RegsBut (R.FE_CAP_CAP e :: R.FE_STAT_STALE e :: R.FE_CNT_RX_DROP e :: feFlds e) s t ∧ t = { s with regs := t.regs, fes := t.fes } := by
  obtain ⟨hl, ho, hskip⟩ := hop
  have hfull' : 8 ≤ ((s.feInjTake e inj).fe e).rx.length := by rw [feInjTake_fe hn.1]; exact hfull
  have hbody := fePushRx_full (inj := inj) (t := (s.fe e).nextAt) (fePushSkip_false (inj := inj) hn.1 hskip) hfull'
  have hb := feBody_start hn.1 inj
  cases hst : bit w 26 with
  | true =>
    rw [hst, if_pos rfl] at hbody
    obtain ⟨t, ht, hs, hr, -, hfr⟩ := leads_stall (c := .pushRx e) (b := s) rfl ⟨hn.1, hn.2.1⟩ ⟨hl, ho⟩ hbody hb rfl (by decide) (by simp)
    exact ⟨t, ht, by rw [if_pos rfl]; exact ⟨hs, hr⟩, hr.mono (by simp [feFlds]), hfr⟩
  | false =>
    rw [hst, if_neg (by decide)] at hbody
    have hb' := ((feCapClear_body hb (feTake_len hn)).wr (R.FE_STAT_STALE e) 1).wr (R.FE_CNT_RX_DROP e) (satAdd 16 ((((s.feInjTake e inj).feCapClear e).wr (R.FE_STAT_STALE e) 1).rd (R.FE_CNT_RX_DROP e)) 1)
    have hdrop : (((s.feInjTake e inj).feCapClear e).wr (R.FE_STAT_STALE e) 1).rd (R.FE_CNT_RX_DROP e) = s.rd (R.FE_CNT_RX_DROP e) :=
      (State.rd_wr_ne _ _ (by simp only [R.FE_STAT_STALE, R.FE_CNT_RX_DROP]; omega)).trans ((State.rd_wr_ne (f := R.FE_CAP_CAP e) (s.feInjTake e inj) 0 (by simp only [R.FE_CAP_CAP, R.FE_CNT_RX_DROP]; omega)).trans (feInjTake_work hn.1 (by simp [feWork])))
    have hcount := rd_count_same (((s.feInjTake e inj).feCapClear e).wr (R.FE_STAT_STALE e) 1) (R.FE_CNT_RX_DROP e) 1
    rw [hdrop] at hcount
    obtain ⟨t, ht, hcy, hr, hm, hfr⟩ := leads_cycle (c := .pushRx e) (b := s) (pc := none) rfl ⟨hn.1, hn.2.1⟩ ⟨hl, ho⟩ hbody (hb'.mono (gs := [R.FE_CAP_CAP e, R.FE_STAT_STALE e, R.FE_CNT_RX_DROP e]) (by simp)) ⟨rfl, rfl⟩ (feWork_all (by simp [feWork])) (by simp)
    refine ⟨t, ht, ?_, hr, hfr⟩
    rw [if_neg (by decide)]
    refine ⟨?_, ?_, (feWork_kept hm (by simp [feWork])).1.trans hcount, hcy⟩
    · exact (feWork_kept hm (by simp [feWork])).1.trans ((rd_count_ne _ _ (by simp only [R.FE_CAP_CAP, R.FE_CNT_RX_DROP]; omega)).trans ((State.rd_wr_ne _ _ (by simp only [R.FE_CAP_CAP, R.FE_STAT_STALE]; omega)).trans (feCapClear_cap _ _)))
    · exact (feWork_kept hm (by simp [feWork])).2.trans ((State.on_wr_ne (f := R.FE_CNT_RX_DROP e) (g := R.FE_STAT_STALE e) _ _ (by simp only [R.FE_STAT_STALE, R.FE_CNT_RX_DROP]; omega)).trans (State.on_wr_same _ (R.FE_STAT_STALE e) 1))

end

/-- The state in which a PUSH to a port finds CAP: its word taken, STAMP put. -/
def State.feStamped (s : State) (e w : Nat) (inj : Bool) : State := (s.feInjTake e inj).feStamp e w (fifeAdd (s.fe e).nextAt 2)

theorem feStamped_start (hlen : e.val < s.fes.length) : FeBody e (s.feTaken e inj) [] (s.feStamped e w inj) (s.feStamped e w inj) := by
  have h := FeBody.refl (s.feStamped e w inj) e
  rwa [State.feStamped, (feStamp_body _ _ _ _).engine, (feInjTake_body hlen inj).engine] at h

/-- A field that neither the word's taking nor STAMP is. -/
theorem feStamped_regs (hlen : e.val < s.fes.length) : RegsBut (feFlds e) s (s.feStamped e w inj) :=
  ((feInjTake_body hlen inj).regs.mono (by simp [feFlds])).trans ((feStamp_body _ _ _ _).regs.mono (by simp [feFlds]))

theorem feWork_notMem {f : Fld} (hf : f ∈ feWork e) : f.key ∉ (feFlds e).map Fld.key := by
  obtain ⟨h1, h2, h3, h4, h5⟩ := feWork_apart hf
  simp [feFlds, h1, h2, h3, h4, h5]

theorem feStamped_len (hlen : e.val < s.fes.length) : e.val < (s.feStamped e w inj).fes.length := by
  rw [State.feStamped, (feStamp_body _ _ _ _).len, (feInjTake_body hlen inj).len]
  exact hlen

/-- CAP goes to a port: what the PUSH puts there is in m. -/
theorem fePort_body (hm : FeBody e (s.feTaken e inj) fs (s.feStamped e w inj) m) (hlen : e.val < s.fes.length) :
    FeBody e { s.feTaken e inj with capn := 0 } (R.FE_CAP_CAP e :: R.FE_STAT_ENC_ERR e :: fs) (s.feStamped e w inj) ((m.wr (R.FE_STAT_ENC_ERR e) 0).feCapClear e) := feCapClear_body (hm.wr (R.FE_STAT_ENC_ERR e) 0) (feStamped_len hlen)

/-- A PUSH to a port clears CAP and the encoder error. -/
theorem fePort_values (hm : RegsBut (feEndFlds e) ((m.wr (R.FE_STAT_ENC_ERR e) 0).feCapClear e) t) : t.rd (R.FE_CAP_CAP e) = 0 ∧ t.on (R.FE_STAT_ENC_ERR e) = false :=
  ⟨(feWork_kept hm (by simp [feWork])).1.trans (feCapClear_cap _ _),
   (feWork_kept hm (by simp [feWork])).2.trans ((State.on_wr_ne (f := R.FE_CAP_CAP e) (g := R.FE_STAT_ENC_ERR e) _ 0 (by simp only [R.FE_CAP_CAP, R.FE_STAT_ENC_ERR]; omega)).trans (State.on_wr_same _ (R.FE_STAT_ENC_ERR e) 0))⟩

theorem leads_pushPcnt (hn : e.val < s.fes.length ∧ s.feNext e = some (w, inj) ∧ s.rd (R.FE_PC_PC e) < 32 ∧ s.rd (R.FE_CAP_CAP e) < 2 ^ 32)
    (hop : feLegal w = true ∧ isPush 2 w = true ∧ (bit w 25 = false ∨ s.rd (R.FE_SHAPE_CAP_LIM e) + 1 ≤ (s.fe e).capn)) :
    Leads s (.pushPcnt e) fun t => t.rd (R.FE_PCNT_PCNT e) = s.rd (R.FE_CAP_CAP e) ∧ t.rd (R.FE_CAP_CAP e) = 0 ∧ t.on (R.FE_STAT_ENC_ERR e) = false ∧ FeCycle e w inj none { s.feTaken e inj with capn := 0 } s t ∧
    RegsBut (R.FE_PCNT_PCNT e :: R.FE_CAP_CAP e :: R.FE_STAT_ENC_ERR e :: feFlds e) s t ∧ t = { s with regs := t.regs, fes := t.fes } := by
  obtain ⟨hl, ho, hskip⟩ := hop
  obtain ⟨hlen, hnext, -, hcap⟩ := hn
  obtain ⟨hxs, -, hdiv⟩ := feTaken_stepping s e inj
  have hbody : State.fePushPcnt (s.feInjTake e inj) e w inj (s.fe e).nextAt =
      ((((s.feStamped e w inj).wr (R.FE_PCNT_PCNT e) ((s.feStamped e w inj).rd (R.FE_CAP_CAP e))).wr (R.FE_STAT_ENC_ERR e) 0).feCapClear e).feEnd e w inj none (s.fe e).nextAt := by
    simp only [State.fePushPcnt, fePushSkip_false (inj := inj) hlen hskip, Bool.false_eq_true, if_false]
    rfl
  have hb := (fePort_body ((feStamped_start (w := w) (inj := inj) hlen).wr (R.FE_PCNT_PCNT e) ((s.feStamped e w inj).rd (R.FE_CAP_CAP e))) hlen).mono (gs := [R.FE_PCNT_PCNT e, R.FE_CAP_CAP e, R.FE_STAT_ENC_ERR e]) (by simp)
  obtain ⟨hcy, hr, hm, hfr⟩ := FeBody.stampedCycle hb hlen (hxs.trans (feNext_notStepping hnext)) hdiv (feWork_all (by simp [feWork]))
  refine .intro rfl ((feIssue_legal hnext hl ho).trans hbody) ⟨?_, (fePort_values hm).1, (fePort_values hm).2, hcy, hr, hfr⟩
  have hport : ((((s.feStamped e w inj).wr (R.FE_PCNT_PCNT e) ((s.feStamped e w inj).rd (R.FE_CAP_CAP e))).wr (R.FE_STAT_ENC_ERR e) 0).feCapClear e).rd (R.FE_PCNT_PCNT e) = (s.feStamped e w inj).rd (R.FE_CAP_CAP e) % 2 ^ 32 :=
    (State.rd_wr_ne (f := R.FE_CAP_CAP e) _ 0 (by simp only [R.FE_CAP_CAP, R.FE_PCNT_PCNT]; omega)).trans ((State.rd_wr_ne _ 0 (by simp only [R.FE_STAT_ENC_ERR, R.FE_PCNT_PCNT]; omega)).trans (State.rd_wr_same _ (R.FE_PCNT_PCNT e) _))
  rw [(feWork_kept hm (by simp [feWork])).1, hport, (feStamped_regs hlen).rd (feWork_notMem (by simp [feWork]))]
  exact Nat.mod_eq_of_lt hcap

/-- The Drones that follow an engine. -/
def State.feFollowers (s : State) (e : Nat) : List Nat :=
  (List.range 16).filter fun d => (s.rd (R.DRN_SRC_KIND d) == 2 && s.rd (R.DRN_SRC_INDEX d) == e) || (s.on (R.DRN_CTRL_ALT_EN d) && s.rd (R.DRN_SRC_ALT_KIND d) == 2 && s.rd (R.DRN_SRC_ALT_INDEX d) == e)

/-- What each of them is offered. -/
def State.feOffers (s : State) (e cap st : Nat) (l : List Nat) : List Meas := l.map fun d => ⟨d, 2, e, cap * 2 ^ (32 - (s.drone d).bitsW) % 2 ^ 32, st⟩

/-- Measurements are offered one after the other. -/
theorem offers_eq (s : State) (e cap : Nat) (l : List Nat) :
    l.foldl (fun (s : State) d => s.offerTo d 2 e (cap * 2 ^ (32 - (s.drone d).bitsW)) (s.feStampVal e)) s = { s with meas := s.meas ++ s.feOffers e cap (s.feStampVal e) l } := by
  induction l generalizing s with
  | nil => simp [State.feOffers]
  | cons d l ih =>
    rw [List.foldl_cons, ih]
    have h : (s.meas ++ [⟨d, 2, e, cap * 2 ^ (32 - (s.drone d).bitsW) % 2 ^ 32, s.feStampVal e⟩]) ++ s.feOffers e cap (s.feStampVal e) l = s.meas ++ s.feOffers e cap (s.feStampVal e) (d :: l) := by
      rw [List.append_assoc]
      rfl
    exact congrArg (fun m : List Meas => ({ s with meas := m } : State)) h

/-- STAMP as a PUSH to a port finds it. -/
theorem feStamped_stamp (hlen : e.val < s.fes.length) : (s.feStamped e w inj).feStampVal e = if feMark w = true then ((s.fe e).nextAt + 2) % 2 ^ 48 else s.feStampVal e := by
  have hq : (s.feInjTake e inj).feStampVal e = s.feStampVal e :=
    congrArg₂ (fun a b => a + b * 2 ^ 32) (feInjTake_rd hlen (by simp only [R.FE_STAMP_LO_STAMP, R.FE_STAT_INJ_PEND]; omega)) (feInjTake_rd hlen (by simp only [R.FE_STAMP_HI_STAMP, R.FE_STAT_INJ_PEND]; omega))
  rw [State.feStamped, feStamp_val, hq, fifeAdd, Nat.mod_mod]

theorem feStamped_only (hlen : e.val < s.fes.length) : FeOnly s (s.feStamped e w inj) := (feInjTake_body hlen inj).only.trans (feStamp_body _ _ _ _).only

/-- Measurements on their way do not matter to an engine. -/
theorem feStamped_meas (s : State) (l : List Meas) : State.feStamped { s with meas := l } e w inj = { s.feStamped e w inj with meas := l } := by
  simp only [State.feStamped, State.feInjTake, State.feStamp]
  cases inj <;> split <;> rfl

/-- The fields of a Drone's source lie apart from those of an engine. -/
theorem drnSrc_notMem {f : Fld} (hf : f.key < 0x100000 * 8) : f.key ∉ (feFlds e).map Fld.key := by
  simp only [feFlds, List.map_cons, List.map_nil, List.mem_cons, List.not_mem_nil, or_false, R.FE_PC_PC, R.FE_STAMP_LO_STAMP, R.FE_STAMP_HI_STAMP, R.FE_STAT_STALL, R.FE_STAT_INJ_PEND]
  omega

theorem feStamped_followers (hlen : e.val < s.fes.length) : (s.feStamped e w inj).feFollowers e = s.feFollowers e := by
  have h := feStamped_regs (s := s) (w := w) (inj := inj) hlen
  refine List.filter_congr fun d hd => ?_
  have hd' := List.mem_range.mp hd
  rw [h.rd (drnSrc_notMem (f := R.DRN_SRC_KIND d) (by simp only [R.DRN_SRC_KIND]; omega)), h.rd (drnSrc_notMem (f := R.DRN_SRC_INDEX d) (by simp only [R.DRN_SRC_INDEX]; omega)), h.on (drnSrc_notMem (f := R.DRN_CTRL_ALT_EN d) (by simp only [R.DRN_CTRL_ALT_EN]; omega)),
    h.rd (drnSrc_notMem (f := R.DRN_SRC_ALT_KIND d) (by simp only [R.DRN_SRC_ALT_KIND]; omega)), h.rd (drnSrc_notMem (f := R.DRN_SRC_ALT_INDEX d) (by simp only [R.DRN_SRC_ALT_INDEX]; omega))]

/-- What a PUSH to the DRONE port leaves: the offers to the followers, then the port's clearing. -/
theorem fePushDrone_eq (hlen : e.val < s.fes.length) (hskip : bit w 25 = false ∨ s.rd (R.FE_SHAPE_CAP_LIM e) + 1 ≤ (s.fe e).capn) {st : Nat} (hst : st = (if feMark w = true then ((s.fe e).nextAt + 2) % 2 ^ 48 else s.feStampVal e)) :
    State.fePushDrone (s.feInjTake e inj) e w inj (s.fe e).nextAt =
      (((State.feStamped { s with meas := s.meas ++ s.feOffers e (s.rd (R.FE_CAP_CAP e)) st (s.feFollowers e) } e w inj).wr (R.FE_STAT_ENC_ERR e) 0).feCapClear e).feEnd e w inj none (s.fe e).nextAt := by
  have ho := feStamped_only (w := w) (inj := inj) hlen
  have hmeas : (s.feStamped e w inj).meas = s.meas := by rw [ho]
  have hdrn : (s.feStamped e w inj).drones = s.drones := by rw [ho]
  have hcap : (s.feStamped e w inj).rd (R.FE_CAP_CAP e) = s.rd (R.FE_CAP_CAP e) := (feStamped_regs hlen).rd (feWork_notMem (by simp [feWork]))
  have hoff := offers_eq (s.feStamped e w inj) e (s.rd (R.FE_CAP_CAP e)) (s.feFollowers e)
  rw [feStamped_stamp hlen, ← hst, hmeas, show (s.feStamped e w inj).feOffers e (s.rd (R.FE_CAP_CAP e)) st (s.feFollowers e) = s.feOffers e (s.rd (R.FE_CAP_CAP e)) st (s.feFollowers e) from
    List.map_congr_left fun d _ => by simp only [State.drone, hdrn], ← feStamped_meas] at hoff
  rw [← hoff, ← hcap, ← feStamped_followers (w := w) (inj := inj) hlen]
  simp only [State.fePushDrone, fePushSkip_false (inj := inj) hlen hskip, Bool.false_eq_true, if_false]
  rfl

theorem leads_pushDrone {st : Nat} (hn : e.val < s.fes.length ∧ s.feNext e = some (w, inj) ∧ s.rd (R.FE_PC_PC e) < 32) (hop : feLegal w = true ∧ isPush 1 w = true ∧ (bit w 25 = false ∨ s.rd (R.FE_SHAPE_CAP_LIM e) + 1 ≤ (s.fe e).capn))
    (hst : st = (if feMark w = true then ((s.fe e).nextAt + 2) % 2 ^ 48 else s.feStampVal e)) :
    Leads s (.pushDrone e) fun t => t.meas = s.meas ++ (((List.range 16).filter fun d => (s.rd (R.DRN_SRC_KIND d) == 2 && s.rd (R.DRN_SRC_INDEX d) == e) || (s.on (R.DRN_CTRL_ALT_EN d) && s.rd (R.DRN_SRC_ALT_KIND d) == 2 && s.rd (R.DRN_SRC_ALT_INDEX d) == e)).map fun d =>
      (⟨d, 2, e, s.rd (R.FE_CAP_CAP e) * 2 ^ (32 - (s.drone d).bitsW) % 2 ^ 32, st⟩ : Meas)) ∧
    t.rd (R.FE_CAP_CAP e) = 0 ∧ t.on (R.FE_STAT_ENC_ERR e) = false ∧ FeCycle e w inj none { s.feTaken e inj with capn := 0 } s t ∧
    RegsBut (R.FE_CAP_CAP e :: R.FE_STAT_ENC_ERR e :: feFlds e) s t ∧ t = { s with regs := t.regs, fes := t.fes, meas := t.meas } := by
  obtain ⟨hl, ho, hskip⟩ := hop
  obtain ⟨hlen, hnext, -⟩ := hn
  obtain ⟨hxs, -, hdiv⟩ := feTaken_stepping s e inj
  have hbody := fePushDrone_eq (inj := inj) hlen hskip hst
  have hb := fePort_body (s := { s with meas := s.meas ++ s.feOffers e (s.rd (R.FE_CAP_CAP e)) st (s.feFollowers e) }) (w := w) (inj := inj) (feStamped_start hlen) hlen
  obtain ⟨hcy, hr, hm, hfr⟩ := FeBody.stampedCycle hb hlen (hxs.trans (feNext_notStepping hnext)) hdiv (feWork_all (by simp [feWork]))
  obtain ⟨h1, h2⟩ := fePort_values hm
  refine .intro rfl ((feIssue_legal hnext hl ho).trans hbody) ⟨congrArg State.meas hfr, h1, h2, hcy, hr, ?_⟩
  exact Eq.trans hfr (congrArg (fun l : List Meas => ({ s with regs := _, fes := _, meas := l } : State)) (congrArg State.meas hfr).symm)

/-! ### PULL and the ends of FIFO stalls (R422, R429) -/

theorem feEmt_body {x : FeSt} (h : FeBody e x fs q m) (hlen : e.val < q.fes.length) (v : Nat) : FeBody e { x with emtn := 0 } (R.FE_EMT_EMT e :: fs) q (m.feEmt e v) := (h.wr (R.FE_EMT_EMT e) v).mod hlen fun x => { x with emtn := 0 }

theorem feEmt_emt (m : State) (e v : Nat) : (m.feEmt e v).rd (R.FE_EMT_EMT e) = v % 2 ^ 32 := State.rd_wr_same m (R.FE_EMT_EMT e) v

section
variable {v a : Nat} {l : List (Nat × Nat)}

theorem feTxTake_eq (h : (q.fe e).tx = (v, a) :: l) : q.feTxTake e = ((q.feMod e fun x => { x with tx := l, lastPull := v }).wr (R.FE_STAT_TX_LVL e) l.length).feEmt e v := by
  simp only [State.feTxTake, h]

/-- EMT takes the head of TX. -/
theorem feTxTake_body (hlen : e.val < q.fes.length) (h : (q.fe e).tx = (v, a) :: l) : FeBody e { q.fe e with tx := l, lastPull := v, emtn := 0 } [R.FE_EMT_EMT e, R.FE_STAT_TX_LVL e] q (q.feTxTake e) := by
  rw [feTxTake_eq h]
  exact feEmt_body (((FeBody.refl q e).mod hlen fun x => { x with tx := l, lastPull := v }).wr (R.FE_STAT_TX_LVL e) l.length) hlen v

theorem feTxTake_values (h : (q.fe e).tx = (v, a) :: l) (hl : l.length < 8) : (q.feTxTake e).rd (R.FE_EMT_EMT e) = v % 2 ^ 32 ∧ (q.feTxTake e).rd (R.FE_STAT_TX_LVL e) = l.length := by
  rw [feTxTake_eq h]
  refine ⟨feEmt_emt _ _ _, ?_⟩
  have hlvl : (((q.feMod e fun x => { x with tx := l, lastPull := v }).wr (R.FE_STAT_TX_LVL e) l.length).feEmt e v).rd (R.FE_STAT_TX_LVL e) = l.length % 2 ^ 4 :=
    (State.rd_wr_ne (f := R.FE_EMT_EMT e) _ v (by simp only [R.FE_EMT_EMT, R.FE_STAT_TX_LVL]; omega)).trans (State.rd_wr_same _ (R.FE_STAT_TX_LVL e) _)
  rw [hlvl]
  exact Nat.mod_eq_of_lt (by omega)

/-- WHENEMPTY off, or EMT used up: the PULL acts. -/
theorem fePull_acts {t : Nat} (hlen : e.val < b.fes.length) (h : bit w 25 = false ∨ b.rd (R.FE_SHAPE_EMT_LIM e) + 1 ≤ (b.fe e).emtn) :
    (b.feInjTake e inj).fePull e w inj t = if feTxReady ((b.feInjTake e inj).fe e) t then (((b.feInjTake e inj).feTxTake e).feStamp e w (fifeAdd t 2)).feEnd e w inj none t
      else if bit w 26 then (b.feInjTake e inj).feStall e w 2 inj t
      else ((((b.feInjTake e inj).feEmt e ((b.feInjTake e inj).fe e).lastPull).wr (R.FE_STAT_STALE e) 1).feStamp e w (fifeAdd t 2)).feEnd e w inj none t := by
  have hc : (bit w 25 && decide (((b.feInjTake e inj).fe e).emtn < (b.feInjTake e inj).rd (R.FE_SHAPE_EMT_LIM e) + 1)) = false := by
    rw [feInjTake_fe hlen, feInjTake_rd hlen (by simp only [R.FE_SHAPE_EMT_LIM, R.FE_STAT_INJ_PEND]; omega)]
    rcases h with h | h
    · rw [h, Bool.false_and]
    · rw [decide_eq_false (Nat.not_lt.mpr h), Bool.and_false]
  simp only [State.fePull, hc, Bool.false_eq_true, if_false]

theorem leads_pull (hn : e.val < s.fes.length ∧ s.feNext e = some (w, inj) ∧ s.rd (R.FE_PC_PC e) < 32) (hop : feLegal w = true ∧ feOp w = 7 ∧ (bit w 25 = false ∨ s.rd (R.FE_SHAPE_EMT_LIM e) + 1 ≤ (s.fe e).emtn))
    (htx : (s.fe e).tx = (v, a) :: l ∧ ((s.fe e).nextAt + 2 ^ 48 - 1 - a) % 2 ^ 48 < 2 ^ 47 ∧ l.length < 8) :
    Leads s (.pull e) fun t => t.rd (R.FE_EMT_EMT e) = v % 2 ^ 32 ∧ t.rd (R.FE_STAT_TX_LVL e) = l.length ∧ FeCycle e w inj none { s.feTaken e inj with tx := l, lastPull := v, emtn := 0 } s t ∧
    RegsBut (R.FE_EMT_EMT e :: R.FE_STAT_TX_LVL e :: feFlds e) s t ∧ t = { s with regs := t.regs, fes := t.fes } := by
  obtain ⟨hl, ho, hacts⟩ := hop
  obtain ⟨htx, hready, hroom⟩ := htx
  have htx' : ((s.feInjTake e inj).fe e).tx = (v, a) :: l := by rw [feInjTake_fe hn.1]; exact htx
  have hbody := (fePull_acts (inj := inj) (t := (s.fe e).nextAt) hn.1 hacts).trans (if_pos (by simp only [feTxReady, htx']; exact decide_eq_true hready))
  have hb := feTxTake_body (feTake_len hn) htx'
  obtain ⟨h1, h2⟩ := feTxTake_values htx' hroom
  rw [feInjTake_fe hn.1] at hb
  obtain ⟨t, ht, hcy, hr, hm, hfr⟩ := leads_cycle (c := .pull e) (b := s) (pc := none) rfl ⟨hn.1, hn.2.1⟩ ⟨hl, beq_iff_eq.mpr ho⟩ hbody hb (by rw [feTaken_eq]; exact ⟨rfl, rfl⟩) (feWork_all (by simp [feWork])) (by simp)
  rw [feTaken_eq]
  exact ⟨t, ht, (feWork_kept hm (by simp [feWork])).1.trans h1, (feWork_kept hm (by simp [feWork])).1.trans h2, hcy, hr, hfr⟩

theorem leads_pull_empty (hn : e.val < s.fes.length ∧ s.feNext e = some (w, inj) ∧ s.rd (R.FE_PC_PC e) < 32) (hop : feLegal w = true ∧ feOp w = 7 ∧ (bit w 25 = false ∨ s.rd (R.FE_SHAPE_EMT_LIM e) + 1 ≤ (s.fe e).emtn)) (htx : (s.fe e).tx = []) :
    Leads s (.pull e) fun t => (if bit w 26 then FeStalls e w 2 inj (s.feTaken e inj) s t ∧ RegsBut [R.FE_STAT_STALL e, R.FE_STAT_INJ_PEND e] s t
    else t.rd (R.FE_EMT_EMT e) = (s.fe e).lastPull % 2 ^ 32 ∧ t.on (R.FE_STAT_STALE e) = true ∧ FeCycle e w inj none { s.feTaken e inj with emtn := 0 } s t) ∧
    RegsBut (R.FE_EMT_EMT e :: R.FE_STAT_STALE e :: feFlds e) s t ∧ t = { s with regs := t.regs, fes := t.fes } := by
  obtain ⟨hl, ho, hacts⟩ := hop
  have htx' : ((s.feInjTake e inj).fe e).tx = [] := by rw [feInjTake_fe hn.1]; exact htx
  have hbody := (fePull_acts (inj := inj) (t := (s.fe e).nextAt) hn.1 hacts).trans (if_neg (by simp only [feTxReady, htx']; decide))
  have hb := feBody_start hn.1 inj
  cases hst : bit w 26 with
  | true =>
    rw [hst, if_pos rfl] at hbody
    obtain ⟨t, ht, hs, hr, -, hfr⟩ := leads_stall (c := .pull e) (b := s) rfl ⟨hn.1, hn.2.1⟩ ⟨hl, beq_iff_eq.mpr ho⟩ hbody hb rfl (by decide) (by simp)
    exact ⟨t, ht, by rw [if_pos rfl]; exact ⟨hs, hr⟩, hr.mono (by simp [feFlds]), hfr⟩
  | false =>
    rw [hst, if_neg (by decide)] at hbody
    have hlast : ((s.feInjTake e inj).fe e).lastPull = (s.fe e).lastPull := by rw [feInjTake_fe hn.1]
    rw [hlast] at hbody
    have hb' := ((feEmt_body hb (feTake_len hn) (s.fe e).lastPull).wr (R.FE_STAT_STALE e) 1).mono (gs := [R.FE_EMT_EMT e, R.FE_STAT_STALE e]) (by simp)
    obtain ⟨t, ht, hcy, hr, hm, hfr⟩ := leads_cycle (c := .pull e) (b := s) (pc := none) rfl ⟨hn.1, hn.2.1⟩ ⟨hl, beq_iff_eq.mpr ho⟩ hbody hb' ⟨rfl, rfl⟩ (feWork_all (by simp [feWork])) (by simp)
    refine ⟨t, ht, ?_, hr, hfr⟩
    rw [if_neg (by decide)]
    refine ⟨?_, (feWork_kept hm (by simp [feWork])).2.trans (State.on_wr_same _ (R.FE_STAT_STALE e) 1), hcy⟩
    exact (feWork_kept hm (by simp [feWork])).1.trans ((State.rd_wr_ne _ _ (by simp only [R.FE_EMT_EMT, R.FE_STAT_STALE]; omega)).trans (feEmt_emt _ _ _))

theorem feEnd_eq {x : FeSt} (hb : FeBody e x fs q m) (st c : Nat) : (m.feStamp e w st).feEnd e w inj none c = (m.feStamp e w st).feDone e inj none (fifeAdd c ((1 + fePause w) * x.div)) := by
  rw [State.feEnd, (feStamp_body m e w st).engine, hb.engine]

theorem leads_fifoStallEnd_pull {c : Nat} (hn : e.val < s.fes.length ∧ (s.fe e).stalled = some (w, inj) ∧ s.rd (R.FE_PC_PC e) < 32 ∧ (s.fe e).stepping = false) (hop : feOp w = 7 ∧ (s.fe e).tx = (v, a) :: l ∧ l.length < 8)
    (hc : c = s.feBoundary e a) (hre : s.reached c = true) :
    Leads s (.fifoStallEnd e) fun t => t.rd (R.FE_EMT_EMT e) = v % 2 ^ 32 ∧ t.rd (R.FE_STAT_TX_LVL e) = l.length ∧ FeDone e w inj none (c + (1 + fePause w) * (s.fe e).div) (c + 2) { s.fe e with tx := l, lastPull := v, emtn := 0 } s t ∧
    RegsBut (R.FE_EMT_EMT e :: R.FE_STAT_TX_LVL e :: feFlds e) s t ∧ t = { s with regs := t.regs, fes := t.fes } := by
  obtain ⟨hlen, hst, -, hstep⟩ := hn
  obtain ⟨ho, htx, hroom⟩ := hop
  subst hc
  have hb := feTxTake_body hlen htx
  obtain ⟨h1, h2⟩ := feTxTake_values htx hroom
  have hu : s.feFifoEnd e = ((s.feTxTake e).feStamp e w (fifeAdd (s.feBoundary e a) 2)).feEnd e w inj none (s.feBoundary e a) := by
    simp only [State.feFifoEnd, hst, ho, show ¬ (7 = 6) by decide, if_false, if_true, htx, hre]
  obtain ⟨t, ht, hd, hr, hm, hfr⟩ := leads_stalledDone (c := .fifoStallEnd e) (next := s.feBoundary e a + (1 + fePause w) * (s.fe e).div) (stamp := s.feBoundary e a + 2) rfl (hu.trans (feEnd_eq hb _ _)) hb hlen hstep (feWork_all (by simp [feWork])) rfl (Nat.mod_mod _ _)
  exact ⟨t, ht, (feWork_kept hm (by simp [feWork])).1.trans h1, (feWork_kept hm (by simp [feWork])).1.trans h2, hd, hr, hfr⟩

theorem leads_fifoStallEnd_push {c : Nat} (hn : e.val < s.fes.length ∧ (s.fe e).stalled = some (w, inj) ∧ s.rd (R.FE_PC_PC e) < 32 ∧ (s.fe e).stepping = false) (hop : feOp w = 6 ∧ (s.fe e).rx.length < 8)
    (hc : c = s.feBoundary e (s.fe e).rxRead) (hre : s.reached c = true) :
    Leads s (.fifoStallEnd e) fun t => t.rd (R.FE_CAP_CAP e) = 0 ∧ t.rd (R.FE_STAT_RX_LVL e) = (s.fe e).rx.length + 1 ∧ FeDone e w inj none (c + (1 + fePause w) * (s.fe e).div) (c + 2) { s.fe e with rx := (s.fe e).rx ++ [s.rd (R.FE_CAP_CAP e)], capn := 0 } s t ∧
    RegsBut (R.FE_CAP_CAP e :: R.FE_STAT_RX_LVL e :: feFlds e) s t ∧ t = { s with regs := t.regs, fes := t.fes } := by
  obtain ⟨hlen, hst, -, hstep⟩ := hn
  obtain ⟨ho, hroom⟩ := hop
  subst hc
  have hb := feRxPut_body hlen
  obtain ⟨h1, h2⟩ := feRxPut_values hroom
  have hu : s.feFifoEnd e = ((s.feRxPut e).feStamp e w (fifeAdd (s.feBoundary e (s.fe e).rxRead) 2)).feEnd e w inj none (s.feBoundary e (s.fe e).rxRead) := by
    simp only [State.feFifoEnd, hst, ho, if_true, hroom, hre, and_self]
  obtain ⟨t, ht, hd, hr, hm, hfr⟩ := leads_stalledDone (c := .fifoStallEnd e) (next := s.feBoundary e (s.fe e).rxRead + (1 + fePause w) * (s.fe e).div) (stamp := s.feBoundary e (s.fe e).rxRead + 2) rfl (hu.trans (feEnd_eq hb _ _)) hb hlen hstep (feWork_all (by simp [feWork])) rfl (Nat.mod_mod _ _)
  exact ⟨t, ht, (feWork_kept hm (by simp [feWork])).1.trans h1, (feWork_kept hm (by simp [feWork])).1.trans h2, hd, hr, hfr⟩

end

/-! ### XFER, LOAD, PIN and TGT (R427, R428) -/

/-- A work register that an instruction puts: the value cut to its width, and the engine's word taken. -/
theorem leads_feWr {c : Instr} {isOp : Nat → Bool} {body : State → Nat → Nat → Bool → Nat → State} {f : Fld} {v : Nat} (hx : exec c s = .next (s.feIssue e isOp body)) (hn : e.val < s.fes.length ∧ s.feNext e = some (w, inj) ∧ s.rd (R.FE_PC_PC e) < 32)
    (hop : feLegal w = true ∧ isOp w = true) (hbody : body (s.feInjTake e inj) e w inj (s.fe e).nextAt = (((s.feInjTake e inj).wr f v).feStamp e w (fifeAdd (s.fe e).nextAt 2)).feEnd e w inj none (s.fe e).nextAt) (hf : f ∈ feWork e) :
    Leads s c fun t => t.rd f = v % 2 ^ f.w ∧ FeCycle e w inj none (s.feTaken e inj) s t ∧ RegsBut (f :: feFlds e) s t ∧ t = { s with regs := t.regs, fes := t.fes } := by
  obtain ⟨t, ht, hcy, hr, hm, hfr⟩ := leads_cycle (pc := none) hx ⟨hn.1, hn.2.1⟩ hop hbody ((feBody_start hn.1 inj).wr f v) ⟨rfl, rfl⟩ (feWork_all (by simpa using hf)) (by simp)
  exact ⟨t, ht, (feWork_kept hm hf).1.trans (State.rd_wr_same _ _ _), hcy, hr, hfr⟩

/-- The source of an XFER, whatever its destination. -/
theorem feXferSrc_injTake (hlen : e.val < b.fes.length) (t : Nat) : (b.feInjTake e inj).feXferSrc e w t = b.feXferSrc e w t := by
  have hcrc : ((b.feInjTake e inj).fe e).crc = (b.fe e).crc := by rw [feInjTake_fe hlen]
  simp only [State.feXferSrc, feInjTake_feLevels hlen, feInjTake_work hlen (f := R.FE_K0_K0 e) (by simp [feWork]), feInjTake_work hlen (f := R.FE_K1_K1 e) (by simp [feWork]), feInjTake_work hlen (f := R.FE_CAP_CAP e) (by simp [feWork]),
    feInjTake_work hlen (f := R.FE_EMT_EMT e) (by simp [feWork]), feInjTake_work hlen (f := R.FE_PH_PH e) (by simp [feWork]), feInjTake_rd hlen (f := R.FE_STAMP_LO_STAMP e) (by simp only [R.FE_STAMP_LO_STAMP, R.FE_STAT_INJ_PEND]; omega), hcrc]

theorem feXfer_k0 (q : State) (t : Nat) (hk : bits w 23 4 = 1) : q.feXfer e w inj t = ((q.wr (R.FE_K0_K0 e) (feXop (bits w 17 2) (q.feXferSrc e w t))).feStamp e w (fifeAdd t 2)).feEnd e w inj none t := by
  simp only [State.feXfer, hk]
  rfl

theorem feXfer_cap (q : State) (t : Nat) (hk : bits w 23 4 = 3) :
    q.feXfer e w inj t = (((q.wr (R.FE_CAP_CAP e) (feXop (bits w 17 2) (q.feXferSrc e w t))).feMod e fun x => { x with capn := 0 }).feStamp e w (fifeAdd t 2)).feEnd e w inj none t := by
  simp only [State.feXfer, hk]
  rfl

section
variable (hn : e.val < s.fes.length ∧ s.feNext e = some (w, inj) ∧ s.rd (R.FE_PC_PC e) < 32)
include hn

theorem leads_xfer_k0 (hop : feLegal w = true ∧ feOp w = 8 ∧ bits w 23 4 = 1) :
    Leads s (.xfer e) fun t => t.rd (R.FE_K0_K0 e) = feXop (bits w 17 2) (s.feXferSrc e w (s.fe e).nextAt) % 2 ^ 32 ∧ FeCycle e w inj none (s.feTaken e inj) s t ∧ RegsBut (R.FE_K0_K0 e :: feFlds e) s t ∧ t = { s with regs := t.regs, fes := t.fes } := by
  have hbody := feXfer_k0 (e := e) (inj := inj) (s.feInjTake e inj) (s.fe e).nextAt hop.2.2
  rw [feXferSrc_injTake hn.1] at hbody
  exact leads_feWr rfl hn ⟨hop.1, beq_iff_eq.mpr hop.2.1⟩ hbody (by simp [feWork])

theorem leads_xfer_cap (hop : feLegal w = true ∧ feOp w = 8 ∧ bits w 23 4 = 3) :
    Leads s (.xfer e) fun t => t.rd (R.FE_CAP_CAP e) = feXop (bits w 17 2) (s.feXferSrc e w (s.fe e).nextAt) % 2 ^ 32 ∧ FeCycle e w inj none { s.feTaken e inj with capn := 0 } s t ∧ RegsBut (R.FE_CAP_CAP e :: feFlds e) s t ∧ t = { s with regs := t.regs, fes := t.fes } := by
  have hbody := feXfer_cap (e := e) (inj := inj) (s.feInjTake e inj) (s.fe e).nextAt hop.2.2
  rw [feXferSrc_injTake hn.1] at hbody
  have hb := ((feBody_start hn.1 inj).wr (R.FE_CAP_CAP e) (feXop (bits w 17 2) (s.feXferSrc e w (s.fe e).nextAt))).mod (feTake_len hn) fun x => { x with capn := 0 }
  obtain ⟨t, ht, hcy, hr, hm, hfr⟩ := leads_cycle (c := .xfer e) (pc := none) rfl ⟨hn.1, hn.2.1⟩ ⟨hop.1, beq_iff_eq.mpr hop.2.1⟩ hbody hb ⟨rfl, rfl⟩ (feWork_all (by simp [feWork])) (by simp)
  exact ⟨t, ht, (feWork_kept hm (by simp [feWork])).1.trans (State.rd_wr_same (s.feInjTake e inj) (R.FE_CAP_CAP e) _), hcy, hr, hfr⟩

theorem leads_load_counter {f : Fld} (hop : feLegal w = true ∧ feOp w = 9 ∧ bits w 24 3 < 2 ∧ f = (if bits w 24 3 = 0 then R.FE_K0_K0 e else R.FE_K1_K1 e)) :
    Leads s (.load e) fun t => t.rd f = bits w 6 16 ∧ FeCycle e w inj none (s.feTaken e inj) s t ∧ RegsBut (f :: feFlds e) s t ∧ t = { s with regs := t.regs, fes := t.fes } := by
  obtain ⟨hl, ho, hk, hf⟩ := hop
  have hw : f.w = 32 ∧ f ∈ feWork e := by rw [hf]; split <;> exact ⟨rfl, by simp [feWork]⟩
  have hbody : State.feLoad (s.feInjTake e inj) e w inj (s.fe e).nextAt = (((s.feInjTake e inj).wr f (bits w 6 16)).feStamp e w (fifeAdd (s.fe e).nextAt 2)).feEnd e w inj none (s.fe e).nextAt := by
    rw [hf]
    obtain hk | hk : bits w 24 3 = 0 ∨ bits w 24 3 = 1 := by omega
    · simp only [State.feLoad, hk, if_true]
    · simp only [State.feLoad, hk, one_ne_zero, if_false]
  obtain ⟨t, ht, hv, hp⟩ := leads_feWr (c := .load e) rfl hn ⟨hl, beq_iff_eq.mpr ho⟩ hbody hw.2
  refine ⟨t, ht, hv.trans ?_, hp⟩
  have hlt := bits_lt w 6 16
  rw [hw.1]
  exact Nat.mod_eq_of_lt (by omega)

theorem leads_load_ph (hop : feLegal w = true ∧ feOp w = 9 ∧ bits w 24 3 = 6) :
    Leads s (.load e) fun t => t.rd (R.FE_PH_PH e) = bits w 6 16 * 2 ^ 16 ∧ FeCycle e w inj none (s.feTaken e inj) s t ∧ RegsBut (R.FE_PH_PH e :: feFlds e) s t ∧ t = { s with regs := t.regs, fes := t.fes } := by
  obtain ⟨hl, ho, hk⟩ := hop
  have hbody : State.feLoad (s.feInjTake e inj) e w inj (s.fe e).nextAt = (((s.feInjTake e inj).wr (R.FE_PH_PH e) (bits w 6 16 * 2 ^ 16)).feStamp e w (fifeAdd (s.fe e).nextAt 2)).feEnd e w inj none (s.fe e).nextAt := by
    simp only [State.feLoad, hk]
  obtain ⟨t, ht, hv, hp⟩ := leads_feWr (c := .load e) rfl hn ⟨hl, beq_iff_eq.mpr ho⟩ hbody (by simp [feWork])
  refine ⟨t, ht, hv.trans ?_, hp⟩
  have hlt := bits_lt w 6 16
  exact Nat.mod_eq_of_lt (show bits w 6 16 * 2 ^ 16 < 2 ^ 32 by omega)

/-- A latch as it is after the word is taken. -/
theorem feInjTake_latch {p : Nat} {drive : Bool} : (s.feInjTake e inj).on (if drive then R.FIO_CFG_OE p else R.FIO_CFG_OUT p) = s.on (if drive then R.FIO_CFG_OE p else R.FIO_CFG_OUT p) := by
  cases drive
  · exact feInjTake_on hn.1 (by simp only [Bool.false_eq_true, if_false, R.FIO_CFG_OUT, R.FE_STAT_INJ_PEND]; omega)
  · exact feInjTake_on hn.1 (by simp only [if_true, R.FIO_CFG_OE, R.FE_STAT_INJ_PEND]; omega)

theorem feLatchShut_injTake (j : Nat) : (s.feInjTake e inj).feLatchShut e j = s.feLatchShut e j := by
  have hp := fePin_lt s e j
  rw [State.feLatchShut, State.feLatchShut, feInjTake_pin hn.1, feInjTake_on hn.1 (f := R.FIO_CFG_OWNED _) (by simp only [R.FIO_CFG_OWNED, R.FE_STAT_INJ_PEND]; omega), feInjTake_rd hn.1 (f := R.FIO_CFG_OWNER _) (by simp only [R.FIO_CFG_OWNER, R.FE_STAT_INJ_PEND]; omega),
    feInjTake_rd hn.1 (f := R.FIO_CFG_SAFE _) (by simp only [R.FIO_CFG_SAFE, R.FE_STAT_INJ_PEND]; omega), State.inSafe, feInjTake_on hn.1 (f := R.SF_STAT_SAFE) (by simp only [R.SF_STAT_SAFE, R.FE_STAT_INJ_PEND]; omega),
    feInjTake_on hn.1 (f := R.SF_STAT_FORCED) (by simp only [R.SF_STAT_FORCED, R.FE_STAT_INJ_PEND]; omega), State.inSafe]

/-- The value that a PIN puts: cleared, set or toggled. -/
def pinValue (op : Nat) (cur : Bool) : Bool := if op = 0 then false else if op = 1 then true else !cur

omit hn in
theorem fePinOp_eq (q : State) (t : Nat) : q.fePinOp e w inj t =
    ((q.feLatch e (bit w 24) (bits w 18 5) (pinValue (bits w 25 2) (q.on (if bit w 24 then R.FIO_CFG_OE (q.fePin e (bits w 18 5)) else R.FIO_CFG_OUT (q.fePin e (bits w 18 5)))))).feStamp e w (fifeAdd t 2)).feEnd e w inj none t := by
  have hv (cur : Bool) : (match bits w 25 2 with | 0 => false | 1 => true | _ => !cur) = pinValue (bits w 25 2) cur := by
    rw [pinValue]
    split <;> simp_all
  rw [State.fePinOp, ← hv] <;> rfl

theorem leads_pin_own {p : Nat} {f : Fld} (hop : feLegal w = true ∧ feOp w = 0xA ∧ p = (s.rd (R.FE_WIN_WBASE e) + bits w 18 5) % 128 ∧ f = (if bit w 24 = true then R.FIO_CFG_OE p else R.FIO_CFG_OUT p))
    (hown : s.on (R.FIO_CFG_OWNED p) = true ∧ s.rd (R.FIO_CFG_OWNER p) = e.val ∧ s.inSafe = false ∧ s.on R.SF_STAT_FORCED = false) :
    Leads s (.pin e) fun t => t.on f = (if bits w 25 2 = 0 then false else if bits w 25 2 = 1 then true else !s.on f) ∧ FeCycle e w inj none (s.feTaken e inj) s t ∧ RegsBut (f :: feFlds e) s t ∧ t = { s with regs := t.regs, fes := t.fes } := by
  obtain ⟨hl, ho, hp, hf⟩ := hop
  obtain ⟨h1, h2, h3, h4⟩ := hown
  have hpin : s.fePin e (bits w 18 5) = p := hp.symm
  have hshut : s.feLatchShut e (bits w 18 5) = false := by simp [State.feLatchShut, hpin, h1, h2, h3, h4]
  have hmem : f ∈ latchFlds := hf ▸ latch_mem (bit w 24) (hpin ▸ fePin_lt s e _)
  have hbody := fePinOp_eq (e := e) (w := w) (inj := inj) (s.feInjTake e inj) (s.fe e).nextAt
  rw [feLatch_eq, feLatchShut_injTake hn, hshut, if_neg (by decide), feInjTake_pin hn.1, hpin, ← hf, show (s.feInjTake e inj).on f = s.on f from hf ▸ feInjTake_latch hn] at hbody
  obtain ⟨t, ht, hcy, hr, hm, hfr⟩ := leads_cycle (c := .pin e) (pc := none) rfl ⟨hn.1, hn.2.1⟩ ⟨hl, beq_iff_eq.mpr ho⟩ hbody ((feBody_start hn.1 inj).wr f _) ⟨rfl, rfl⟩ (by simpa using latchFlds_apart hmem) (by simp)
  have hw : f.w = 1 := by rw [hf]; split <;> rfl
  exact ⟨t, ht, (hm.on (latchFlds_apart hmem).notMem).trans (on_wr_b2n _ hw _), hcy, hr, hfr⟩

theorem leads_pin_other {p : Nat} (hop : feLegal w = true ∧ feOp w = 0xA ∧ p = (s.rd (R.FE_WIN_WBASE e) + bits w 18 5) % 128) (hother : s.on (R.FIO_CFG_OWNED p) = false ∨ s.rd (R.FIO_CFG_OWNER p) ≠ e.val) :
    Leads s (.pin e) fun t => FeCycle e w inj none (s.feTaken e inj) s t ∧ RegsBut (feFlds e) s t ∧ t = { s with regs := t.regs, fes := t.fes } := by
  obtain ⟨hl, ho, hp⟩ := hop
  have hpin : s.fePin e (bits w 18 5) = p := hp.symm
  have hshut : s.feLatchShut e (bits w 18 5) = true := by rcases hother with h | h <;> simp [State.feLatchShut, hpin, h]
  have hbody := fePinOp_eq (e := e) (w := w) (inj := inj) (s.feInjTake e inj) (s.fe e).nextAt
  rw [feLatch_eq, feLatchShut_injTake hn, hshut, if_pos rfl] at hbody
  obtain ⟨t, ht, hcy, hr, -, hfr⟩ := leads_cycle (c := .pin e) (pc := none) rfl ⟨hn.1, hn.2.1⟩ ⟨hl, beq_iff_eq.mpr ho⟩ hbody (feBody_start hn.1 inj) ⟨rfl, rfl⟩ (by simp) (by simp)
  exact ⟨t, ht, hcy, hr, hfr⟩

/-- TGT, STAMP and the time itself as a TGT finds them. -/
theorem feTgt_base : (match bits w 25 2 with | 0 => (s.fe e).nextAt | 1 => (s.feInjTake e inj).feStampVal e | _ => (s.feInjTake e inj).feTgtVal e) =
    if bits w 25 2 = 0 then (s.fe e).nextAt else if bits w 25 2 = 1 then s.feStampVal e else s.feTgtVal e := by
  have hst : (s.feInjTake e inj).feStampVal e = s.feStampVal e :=
    congrArg₂ (fun a b => a + b * 2 ^ 32) (feInjTake_rd hn.1 (by simp only [R.FE_STAMP_LO_STAMP, R.FE_STAT_INJ_PEND]; omega)) (feInjTake_rd hn.1 (by simp only [R.FE_STAMP_HI_STAMP, R.FE_STAT_INJ_PEND]; omega))
  have htg : (s.feInjTake e inj).feTgtVal e = s.feTgtVal e := congrArg₂ (fun a b => a + b * 2 ^ 32) (feInjTake_work hn.1 (by simp [feWork])) (feInjTake_work hn.1 (by simp [feWork]))
  rw [hst, htg]
  split <;> simp_all

theorem leads_tgt {base : Nat} (hop : feLegal w = true ∧ feOp w = 0xB) (hbase : base = (if bits w 25 2 = 0 then (s.fe e).nextAt else if bits w 25 2 = 1 then s.feStampVal e else s.feTgtVal e)) :
    Leads s (.tgt e) fun t => t.feTgtVal e = (base + bits w 6 19) % 2 ^ 48 ∧ FeCycle e w inj none (s.feTaken e inj) s t ∧ RegsBut (R.FE_TGT_LO_TGT e :: R.FE_TGT_HI_TGT e :: feFlds e) s t ∧ t = { s with regs := t.regs, fes := t.fes } := by
  have hbody : State.feTgt (s.feInjTake e inj) e w inj (s.fe e).nextAt = (((s.feInjTake e inj).feSetTgt e (fifeAdd base (bits w 6 19))).feStamp e w (fifeAdd (s.fe e).nextAt 2)).feEnd e w inj none (s.fe e).nextAt := by
    rw [hbase, ← feTgt_base (inj := inj) hn]
    rfl
  have hb := (((feBody_start hn.1 inj).wr (R.FE_TGT_LO_TGT e) (fifeAdd base (bits w 6 19))).wr (R.FE_TGT_HI_TGT e) (fifeAdd base (bits w 6 19) / 2 ^ 32)).mono (gs := [R.FE_TGT_LO_TGT e, R.FE_TGT_HI_TGT e]) (by simp)
  obtain ⟨t, ht, hcy, hr, hm, hfr⟩ := leads_cycle (c := .tgt e) (pc := none) rfl ⟨hn.1, hn.2.1⟩ ⟨hop.1, beq_iff_eq.mpr hop.2⟩ hbody hb ⟨rfl, rfl⟩ (feWork_all (by simp [feWork])) (by simp)
  refine ⟨t, ht, ?_, hcy, hr, hfr⟩
  have hlo : t.rd (R.FE_TGT_LO_TGT e) = fifeAdd base (bits w 6 19) % 2 ^ 32 :=
    (feWork_kept hm (by simp [feWork])).1.trans ((State.rd_wr_ne _ _ (by simp only [R.FE_TGT_LO_TGT, R.FE_TGT_HI_TGT]; omega)).trans (State.rd_wr_same _ (R.FE_TGT_LO_TGT e) _))
  have hhi : t.rd (R.FE_TGT_HI_TGT e) = fifeAdd base (bits w 6 19) / 2 ^ 32 % 2 ^ 16 := (feWork_kept hm (by simp [feWork])).1.trans (State.rd_wr_same _ (R.FE_TGT_HI_TGT e) _)
  exact (rd64_halves hlo hhi).trans (Nat.mod_mod _ _)

end

/-- Settles O40: each instruction changes its own work registers and FIFOs, and completes or stalls as every instruction does; latches see nothing of what an engine itself changes. -/
theorem fifeData : Obligations.FifeData := by
  unfold Obligations.FifeData
  refine ⟨?shin, ?shoutK0, ?shoutPins, ?pushRx, ?pushRxFull, ?pushDrone, ?pushPcnt, ?pull, ?pullEmpty, ?endPull, ?endPush, ?xferK0, ?xferCap, ?loadCounter, ?loadPh, ?pinOwn, ?pinOther, ?tgt⟩
  case shin => exact fun s e fio w n v cap inj low hn hop hv hlow hcap => leads_shin hn hop hv hlow hcap
  case shoutK0 => exact fun s e w n emt inj low hn hop hlow hemt hlt => leads_shout_k0 hn hop hlow hemt hlt
  case shoutPins => exact fun s e w n emt v inj low hn hop hlow hemt hv => leads_shout_pins hn hop hlow hemt hv
  case pushRx => exact fun s e w inj hn hop hroom => leads_pushRx hn hop hroom
  case pushRxFull => exact fun s e w inj hn hop hfull => leads_pushRx_full hn hop hfull
  case pushDrone => exact fun s e w st inj hn hop hst => leads_pushDrone hn hop hst
  case pushPcnt => exact fun s e w inj hn hop => leads_pushPcnt hn hop
  case pull => exact fun s e w v a l inj hn hop htx => leads_pull hn hop htx
  case pullEmpty => exact fun s e w inj hn hop htx => leads_pull_empty hn hop htx
  case endPull => exact fun s e w v a b l inj hn hop hb hre => leads_fifoStallEnd_pull hn hop hb hre
  case endPush => exact fun s e w b inj hn hop hb hre => leads_fifoStallEnd_push hn hop hb hre
  case xferK0 => exact fun s e w inj hn hop => leads_xfer_k0 hn hop
  case xferCap => exact fun s e w inj hn hop => leads_xfer_cap hn hop
  case loadCounter => exact fun s e w inj f hn hop => leads_load_counter hn hop
  case loadPh => exact fun s e w inj hn hop => leads_load_ph hn hop
  case pinOwn => exact fun s e w p inj f hn hop hown => leads_pin_own hn hop hown
  case pinOther => exact fun s e w p inj hn hop hother => leads_pin_other hn hop hother
  case tgt => exact fun s e w base inj hn hop hbase => leads_tgt hn hop hbase

end Sys2Proof.Machine
end

section
/-! PROOFS. SIG of the Fife engines (R428, R439 of spec/13_fife_engines.md). -/

namespace Sys2Proof.Machine

variable {s : State} {e : Fin 32} {w : Nat} {inj : Bool}

section
variable (hn : e.val < s.fes.length ∧ s.feNext e = some (w, inj) ∧ s.rd (R.FE_PC_PC e) < 32)
include hn

theorem leads_sigErr (hop : feLegal w = true ∧ isSig 0 w = true) :
    Leads s (.sigErr e) fun t => t.on (R.FE_STAT_ENC_ERR e) = true ∧ t.on (R.FE_STAT_ERR_SEEN e) = true ∧ t.rd (R.FE_CNT_ERR_CNT e) = satAdd 16 (s.rd (R.FE_CNT_ERR_CNT e)) 1 ∧ FeCycle e w inj none (s.feTaken e inj) s t ∧
    RegsBut (R.FE_STAT_ENC_ERR e :: R.FE_STAT_ERR_SEEN e :: R.FE_CNT_ERR_CNT e :: feFlds e) s t ∧ t = { s with regs := t.regs, fes := t.fes } := by
  have hb := ((((feBody_start hn.1 inj).wr (R.FE_STAT_ENC_ERR e) 1).wr (R.FE_STAT_ERR_SEEN e) 1).wr (R.FE_CNT_ERR_CNT e) (satAdd 16 ((((s.feInjTake e inj).wr (R.FE_STAT_ENC_ERR e) 1).wr (R.FE_STAT_ERR_SEEN e) 1).rd (R.FE_CNT_ERR_CNT e)) 1)).mono
    (gs := [R.FE_STAT_ENC_ERR e, R.FE_STAT_ERR_SEEN e, R.FE_CNT_ERR_CNT e]) (by simp)
  obtain ⟨t, ht, hcy, hr, hm, hfr⟩ := leads_cycle (c := .sigErr e) (isOp := isSig 0) (body := State.feSigErr) (pc := none) rfl ⟨hn.1, hn.2.1⟩ hop rfl hb ⟨rfl, rfl⟩ (feWork_all (by simp [feWork])) (by simp)
  have hcnt : (((s.feInjTake e inj).wr (R.FE_STAT_ENC_ERR e) 1).wr (R.FE_STAT_ERR_SEEN e) 1).rd (R.FE_CNT_ERR_CNT e) = s.rd (R.FE_CNT_ERR_CNT e) :=
    (State.rd_wr_ne _ _ (by simp only [R.FE_CNT_ERR_CNT, R.FE_STAT_ERR_SEEN]; omega)).trans ((State.rd_wr_ne _ _ (by simp only [R.FE_CNT_ERR_CNT, R.FE_STAT_ENC_ERR]; omega)).trans (feInjTake_work hn.1 (by simp [feWork])))
  have hv := rd_count_same (((s.feInjTake e inj).wr (R.FE_STAT_ENC_ERR e) 1).wr (R.FE_STAT_ERR_SEEN e) 1) (R.FE_CNT_ERR_CNT e) 1
  rw [hcnt] at hv
  refine ⟨t, ht, ?_, ?_, (feWork_kept hm (by simp [feWork])).1.trans hv, hcy, hr, hfr⟩
  · exact (feWork_kept hm (by simp [feWork])).2.trans ((State.on_wr_ne (f := R.FE_CNT_ERR_CNT e) (g := R.FE_STAT_ENC_ERR e) _ _ (by simp only [R.FE_CNT_ERR_CNT, R.FE_STAT_ENC_ERR]; omega)).trans
      ((State.on_wr_ne (f := R.FE_STAT_ERR_SEEN e) (g := R.FE_STAT_ENC_ERR e) _ _ (by simp only [R.FE_STAT_ERR_SEEN, R.FE_STAT_ENC_ERR]; omega)).trans (State.on_wr_same _ (R.FE_STAT_ENC_ERR e) 1)))
  · exact (feWork_kept hm (by simp [feWork])).2.trans ((State.on_wr_ne (f := R.FE_CNT_ERR_CNT e) (g := R.FE_STAT_ERR_SEEN e) _ _ (by simp only [R.FE_CNT_ERR_CNT, R.FE_STAT_ERR_SEEN]; omega)).trans (State.on_wr_same _ (R.FE_STAT_ERR_SEEN e) 1))

theorem leads_sigIrq (hop : feLegal w = true ∧ isSig 1 w = true) :
    Leads s (.sigIrq e) fun t => t.on (R.FE_STAT_IRQ e) = true ∧ FeCycle e w inj none (s.feTaken e inj) s t ∧ RegsBut (R.FE_STAT_IRQ e :: feFlds e) s t ∧ t = { s with regs := t.regs, fes := t.fes } := by
  obtain ⟨t, ht, hv, hp⟩ := leads_feWr (c := .sigIrq e) (isOp := isSig 1) (body := State.feSigIrq) (f := R.FE_STAT_IRQ e) (v := 1) rfl hn hop rfl (by simp [feWork])
  exact ⟨t, ht, by rw [State.on, hv]; rfl, hp⟩

theorem leads_sigClrstale (hop : feLegal w = true ∧ isSig 4 w = true) :
    Leads s (.sigClrstale e) fun t => t.on (R.FE_STAT_STALE e) = false ∧ FeCycle e w inj none (s.feTaken e inj) s t ∧ RegsBut (R.FE_STAT_STALE e :: feFlds e) s t ∧ t = { s with regs := t.regs, fes := t.fes } := by
  obtain ⟨t, ht, hv, hp⟩ := leads_feWr (c := .sigClrstale e) (isOp := isSig 4) (body := State.feSigClrstale) (f := R.FE_STAT_STALE e) (v := 0) rfl hn hop rfl (by simp [feWork])
  exact ⟨t, ht, by rw [State.on, hv]; rfl, hp⟩

theorem leads_sigCrcrst (hop : feLegal w = true ∧ isSig 5 w = true) :
    Leads s (.sigCrcrst e) fun t => FeCycle e w inj none { s.feTaken e inj with crc := s.rd (R.FE_CRC2_CRC_INIT e) } s t ∧ RegsBut (feFlds e) s t ∧ t = { s with regs := t.regs, fes := t.fes } := by
  have hini : (s.feInjTake e inj).rd (R.FE_CRC2_CRC_INIT e) = s.rd (R.FE_CRC2_CRC_INIT e) := feInjTake_rd hn.1 (by simp only [R.FE_CRC2_CRC_INIT, R.FE_STAT_INJ_PEND]; omega)
  have hbody : State.feSigCrcrst (s.feInjTake e inj) e w inj (s.fe e).nextAt = (((s.feInjTake e inj).feMod e fun x => { x with crc := s.rd (R.FE_CRC2_CRC_INIT e) }).feStamp e w (fifeAdd (s.fe e).nextAt 2)).feEnd e w inj none (s.fe e).nextAt := by
    rw [State.feSigCrcrst, hini]
  have hb := (feBody_start hn.1 inj).mod (feTake_len hn) fun x => { x with crc := s.rd (R.FE_CRC2_CRC_INIT e) }
  obtain ⟨t, ht, hcy, hr, -, hfr⟩ := leads_cycle (c := .sigCrcrst e) (pc := none) rfl ⟨hn.1, hn.2.1⟩ hop hbody hb ⟨rfl, rfl⟩ (by simp) (by simp)
  exact ⟨t, ht, hcy, hr, hfr⟩

/-- The message of a SIG TOKEN, when EN of FE_TOK is set. -/
theorem leads_sigToken (hop : feLegal w = true ∧ isSig 2 w = true) :
    Leads s (.sigToken e) fun t => t.msgs = s.msgs ++ (if s.on (R.FE_TOK_EN e) then [(tokenMsg s.chip (s.rd (R.FE_TOK_UNIT e)) (s.rd (R.FE_TOK_CONTEXT e)) (s.rd (R.FE_TOK_COUNTER e)) 1 (s.epochOf (s.rd (R.FE_TOK_UNIT e))) 1, 0)] else []) ∧
    FeCycle e w inj none (s.feTaken e inj) s t ∧ RegsBut (feFlds e) s t ∧ t = { s with regs := t.regs, fes := t.fes, msgs := t.msgs } := by
  obtain ⟨hxs, -, hdiv⟩ := feTaken_stepping s e inj
  have hen := feInjTake_on (s := s) (inj := inj) hn.1 (f := R.FE_TOK_EN e) (by simp only [R.FE_TOK_EN, R.FE_STAT_INJ_PEND]; omega)
  have hun := feInjTake_rd (s := s) (inj := inj) hn.1 (f := R.FE_TOK_UNIT e) (by simp only [R.FE_TOK_UNIT, R.FE_STAT_INJ_PEND]; omega)
  have hcx := feInjTake_rd (s := s) (inj := inj) hn.1 (f := R.FE_TOK_CONTEXT e) (by simp only [R.FE_TOK_CONTEXT, R.FE_STAT_INJ_PEND]; omega)
  have hct := feInjTake_rd (s := s) (inj := inj) hn.1 (f := R.FE_TOK_COUNTER e) (by simp only [R.FE_TOK_COUNTER, R.FE_STAT_INJ_PEND]; omega)
  have hsend : (if (s.feInjTake e inj).on (R.FE_TOK_EN e) then (s.feInjTake e inj).token ((s.feInjTake e inj).rd (R.FE_TOK_UNIT e)) ((s.feInjTake e inj).rd (R.FE_TOK_CONTEXT e)) ((s.feInjTake e inj).rd (R.FE_TOK_COUNTER e)) else s.feInjTake e inj) =
      State.feInjTake { s with msgs := s.msgs ++ (if s.on (R.FE_TOK_EN e) then [(tokenMsg s.chip (s.rd (R.FE_TOK_UNIT e)) (s.rd (R.FE_TOK_CONTEXT e)) (s.rd (R.FE_TOK_COUNTER e)) 1 (s.epochOf (s.rd (R.FE_TOK_UNIT e))) 1, 0)] else []) } e inj := by
    rw [hen, hun, hcx, hct]
    cases s.on (R.FE_TOK_EN e) with
    | false =>
      rw [if_neg (by decide), if_neg (by decide), List.append_nil]
    | true =>
      have hchip : (s.feInjTake e inj).chip = s.chip := feInjTake_rd hn.1 (by simp only [R.MEM_CHIP_ID_CHIP_ID, R.FE_STAT_INJ_PEND]; omega)
      rw [if_pos rfl, if_pos rfl, State.token, hchip]
      cases inj <;> rfl
  have hbody : State.feSigToken (s.feInjTake e inj) e w inj (s.fe e).nextAt = _ := congrArg (fun q : State => (q.feStamp e w (fifeAdd (s.fe e).nextAt 2)).feEnd e w inj none (s.fe e).nextAt) hsend
  generalize (if s.on (R.FE_TOK_EN e) then [(tokenMsg s.chip (s.rd (R.FE_TOK_UNIT e)) (s.rd (R.FE_TOK_CONTEXT e)) (s.rd (R.FE_TOK_COUNTER e)) 1 (s.epochOf (s.rd (R.FE_TOK_UNIT e))) 1, 0)] else []) = l at *
  have hb := feBody_start (s := { s with msgs := s.msgs ++ l }) hn.1 inj
  obtain ⟨hcy, hr, -, hfr⟩ := FeBody.cycle (w := w) (pc := none) hb hn.1 (hxs.trans (feNext_notStepping hn.2.1)) hdiv (by simp) (by simp)
  refine .intro rfl ((feIssue_legal hn.2.1 hop.1 hop.2).trans hbody) ⟨congrArg State.msgs hfr, hcy, hr, ?_⟩
  exact Eq.trans hfr (congrArg (fun l => ({ s with regs := _, fes := _, msgs := l } : State)) (congrArg State.msgs hfr).symm)

theorem leads_sigHalt (hop : feLegal w = true ∧ isSig 3 w = true) :
    Leads s (.sigHalt e) fun t => t.feState e = 1 ∧ t.rd (R.FE_STAT_CAUSE e) = 2 ∧ t.on (R.FE_STAT_ENC_ERR e) = true ∧ t.on (R.FE_STAT_ERR_SEEN e) = true ∧ FeCycle e w inj none { s.feTaken e inj with stepping := false } s t ∧
    RegsBut (R.FE_STAT_STATE e :: R.FE_STAT_CAUSE e :: R.FE_STAT_ENC_ERR e :: R.FE_STAT_ERR_SEEN e :: feFlds e) s t ∧ t = { s with regs := t.regs, fes := t.fes } := by
  obtain ⟨hxs, -, hdiv⟩ := feTaken_stepping s e inj
  have hstep := hxs.trans (feNext_notStepping hn.2.1)
  have ht := feInjTake_body (s := s) hn.1 inj
  obtain ⟨hcy, hr, -, hfr⟩ := (feBody_start hn.1 inj).cycle (w := w) (pc := none) hn.1 hstep hdiv (by simp) (by simp)
  have hu : State.feSigHalt (s.feInjTake e inj) e w inj (s.fe e).nextAt = (((s.feInjTake e inj).feStamp e w (fifeAdd (s.fe e).nextAt 2)).feEnd e w inj none (s.fe e).nextAt).feHaltWith e 2 := by
    rw [State.feSigHalt, ht.engine, hstep]
    rfl
  have hlen : (((s.feInjTake e inj).feStamp e w (fifeAdd (s.fe e).nextAt 2)).feEnd e w inj none (s.fe e).nextAt).fes.length = (s.feInjTake e inj).fes.length := (feDone_stamped (feTake_len hn) (by rw [ht.engine]; exact hstep)).len
  generalize ((s.feInjTake e inj).feStamp e w (fifeAdd (s.fe e).nextAt 2)).feEnd e w inj none (s.fe e).nextAt = q at *
  obtain ⟨hb, h1, h2, h3, h4, h5⟩ := feHaltWith_error (m := q) (e := e) (cause := 2) (hlen ▸ feTake_len hn) (by decide)
  obtain ⟨hd, hpend⟩ := hcy.1.halted hb h5
  refine .intro rfl ((feIssue_legal hn.2.1 hop.1 hop.2).trans hu) ⟨h1, h2, h3, h4, ⟨hd, hpend.trans hcy.2⟩, ?_, hfr.trans hb.only⟩
  exact (hr.mono (by simp [feFlds])).trans (hb.regs.mono (by simp [feHaltFlds, feFlds]))

end

/-- Settles O41: each signal changes its own flags, and completes as every instruction does. -/
theorem fifeSignals : Obligations.FifeSignals := by
  unfold Obligations.FifeSignals
  refine ⟨?err, ?irq, ?token, ?halt, ?clrstale, ?crcrst⟩
  case err => exact fun s e w inj hn hop => leads_sigErr hn hop
  case irq => exact fun s e w inj hn hop => leads_sigIrq hn hop
  case token => exact fun s e w inj hn hop => leads_sigToken hn hop
  case halt => exact fun s e w inj hn hop => leads_sigHalt hn hop
  case clrstale => exact fun s e w inj hn hop => leads_sigClrstale hn hop
  case crcrst => exact fun s e w inj hn hop => leads_sigCrcrst hn hop

end Sys2Proof.Machine
end

section
/-! PROOFS. The commands to the Fife engines: FE_CTRL, injection, the FIFOs, the instruction memory, Fife time (R434 to R438, R448 of spec/13_fife_engines.md). -/

namespace Sys2Proof.Machine

variable {s q m t : State} {e : Fin 32} {w : Nat} {fs : List Fld}

/-! ### FE_CTRL (R434) -/

theorem FeBody.wrAll {x : FeSt} {e : Nat} (h : FeBody e x fs q m) (l : List (Fld × Nat)) (hl : ∀ p ∈ l, p.1 ∈ fs) : FeBody e x fs q (m.wrAll l) := by
  induction l generalizing m with
  | nil => exact h
  | cons p l ih =>
    refine ih ((h.wr p.1 p.2).mono fun f hf => ?_) fun p hp => hl p (List.mem_cons_of_mem _ hp)
    exact (List.mem_cons.mp hf).elim (fun e => e ▸ hl p List.mem_cons_self) id

/-- The fields of FE_CTRL that every write of it sets. -/
def feCtrlFlds (e : Nat) : List Fld := [R.FE_CTRL_IRQ_EN e, R.FE_CTRL_INJ_FORCE e, R.FE_CTRL_SAFE_HALT e]

theorem feFields_body (s : State) (e w : Nat) : FeBody e (s.fe e) (feCtrlFlds e) s (s.feFields e w) := by
  have h := (FeBody.refl s e).mono (gs := feCtrlFlds e) (by simp)
  have h0 := h.wrAll [(R.FE_CTRL_IRQ_EN e, bits w 3 1), (R.FE_CTRL_INJ_FORCE e, bits w 5 1)] (by simp [feCtrlFlds])
  rw [State.feFields]
  split
  · exact (h0.wr _ _).mono (by simp [feCtrlFlds])
  · exact h0

/-- HALT and STEP are no fields that a write sets. -/
theorem feFields_or {v k : BitVec 32} (h : bits k.toNat 3 1 = 0 ∧ bits k.toNat 4 1 = 0 ∧ bits k.toNat 5 1 = 0) : s.feFields e (v ||| k).toNat = s.feFields e v.toNat := by
  obtain ⟨h3, h4, h5⟩ := h
  rw [State.feFields, State.feFields, bits_or _ _ _ _ h3, bits_or _ _ _ _ h4, bits_or _ _ _ _ h5]

theorem feFields_rd {f : Fld} (hf : f.key ∉ (feCtrlFlds e).map Fld.key) : (s.feFields e w).rd f = s.rd f := (feFields_body s e w).regs.rd hf

theorem feFields_state : (s.feFields e w).feState e = s.feState e :=
  feFields_rd (by simp only [feCtrlFlds, List.map_cons, List.map_nil, List.mem_cons, List.not_mem_nil, or_false, R.FE_STAT_STATE, R.FE_CTRL_IRQ_EN, R.FE_CTRL_INJ_FORCE, R.FE_CTRL_SAFE_HALT]; omega)

/-- A write of FE_CTRL: the fields, EN where it changes, then HALT and STEP in the state the engine was in. -/
theorem writeFeCtrl_eq (s : State) (e w : Nat) : s.writeFeCtrl e w =
    let s2 := if bit w 0 = (s.feState e != 0) then s.feFields e w else (s.feFields e w).feEnable e (bit w 0)
    let s3 := if bit w 1 && s.feState e == 2 then s2.feHalt e else s2
    if bit w 2 && s.feState e == 1 then s3.feStep e else s3 := rfl

theorem writeFeCtrl_on (h0 : s.feState e = 0) (hen : bit w 0 = true) : s.writeFeCtrl e w = (s.feFields e w).feEnable e true := by
  simp [writeFeCtrl_eq, h0, hen]

theorem writeFeCtrl_off (h0 : s.feState e ≠ 0) (hb : bit w 0 = false ∧ bit w 1 = false ∧ bit w 2 = false) : s.writeFeCtrl e w = (s.feFields e w).feEnable e false := by
  obtain ⟨b0, b1, b2⟩ := hb
  simp [writeFeCtrl_eq, h0, b0, b1, b2]

theorem writeFeCtrl_halt (h0 : s.feState e = 2) (hb : bit w 0 = true ∧ bit w 1 = true) : s.writeFeCtrl e w = (s.feFields e w).feHalt e := by
  simp [writeFeCtrl_eq, h0, hb.1, hb.2]

theorem writeFeCtrl_step (h0 : s.feState e = 1) (hb : bit w 0 = true ∧ bit w 2 = true) : s.writeFeCtrl e w = (s.feFields e w).feStep e := by
  simp [writeFeCtrl_eq, h0, hb.1, hb.2]

/-- What is cleared when an engine is enabled (R434). -/
def feCleared (e : Nat) : List Fld :=
  [R.FE_STAT_STALL e, R.FE_STAT_CAUSE e, R.FE_STAT_STALE e, R.FE_STAT_ENC_ERR e, R.FE_STAT_ERR_SEEN e, R.FE_STAT_IRQ e, R.FE_STAT_TMO e, R.FE_STAT_INJ_PEND e, R.FE_STAT_INJ_OVF e, R.FE_STAT_TX_OVF e, R.FE_STAT_RX_UF e, R.FE_STAT_TX_LVL e, R.FE_STAT_RX_LVL e, R.FE_STAT_TLATE e, R.FE_PC_PC e,
    R.FE_K0_K0 e, R.FE_K1_K1 e, R.FE_CAP_CAP e, R.FE_EMT_EMT e, R.FE_PH_PH e, R.FE_STAMP_LO_STAMP e, R.FE_STAMP_HI_STAMP e, R.FE_TGT_LO_TGT e, R.FE_TGT_HI_TGT e, R.FE_PCNT_PCNT e]

/-- Fields whose reset value is 0, put to 0. -/
def State.zeroAll (s : State) (l : List Fld) : State := s.wrAll (l.map fun f => (f, 0))

theorem rd_wr_zero (a : State) {f g : Fld} (hf : f.rst = 0) (hg : g.rst = 0) (h : g = f ∨ a.rd g = 0) : (a.wr f 0).rd g = 0 := by
  by_cases hk : g.key = f.key
  · rw [rd_wr_key _ _ hk, hf, hg]
    simp
  · rw [State.rd_wr_ne _ _ hk]
    exact h.resolve_left fun e => hk (congrArg Fld.key e)

theorem rd_zeroAll (l : List Fld) (hl : ∀ f ∈ l, f.rst = 0) (a : State) {g : Fld} (hg : g.rst = 0) (h : g ∈ l ∨ a.rd g = 0) : (a.zeroAll l).rd g = 0 := by
  induction l generalizing a with
  | nil => exact h.resolve_left List.not_mem_nil
  | cons f l ih =>
    refine ih (fun f hf => hl f (List.mem_cons_of_mem _ hf)) (a.wr f 0) ?_
    rcases h with h | h
    · exact (List.mem_cons.mp h).elim (fun e => .inr (rd_wr_zero a (hl f List.mem_cons_self) hg (.inl e))) .inl
    · exact .inr (rd_wr_zero a (hl f List.mem_cons_self) hg (.inr h))

theorem feCleared_rst (e : Nat) : ∀ f ∈ feCleared e, f.rst = 0 := by simp [feCleared, R.FE_STAT_STALL, R.FE_STAT_CAUSE, R.FE_STAT_STALE, R.FE_STAT_ENC_ERR, R.FE_STAT_ERR_SEEN, R.FE_STAT_IRQ, R.FE_STAT_TMO, R.FE_STAT_INJ_PEND, R.FE_STAT_INJ_OVF, R.FE_STAT_TX_OVF,
  R.FE_STAT_RX_UF, R.FE_STAT_TX_LVL, R.FE_STAT_RX_LVL, R.FE_STAT_TLATE, R.FE_PC_PC, R.FE_K0_K0, R.FE_K1_K1, R.FE_CAP_CAP, R.FE_EMT_EMT, R.FE_PH_PH, R.FE_STAMP_LO_STAMP, R.FE_STAMP_HI_STAMP, R.FE_TGT_LO_TGT, R.FE_TGT_HI_TGT, R.FE_PCNT_PCNT]

theorem feCleared_notMem (e : Nat) : (R.FE_CTRL_EN e).key ∉ (feCleared e).map Fld.key ∧ (R.FE_STAT_STATE e).key ∉ (feCleared e).map Fld.key := by
  constructor <;>
    simp only [feCleared, List.map_cons, List.map_nil, List.mem_cons, List.not_mem_nil, or_false, R.FE_CTRL_EN, R.FE_STAT_STATE, R.FE_STAT_STALL, R.FE_STAT_CAUSE, R.FE_STAT_STALE, R.FE_STAT_ENC_ERR, R.FE_STAT_ERR_SEEN, R.FE_STAT_IRQ, R.FE_STAT_TMO, R.FE_STAT_INJ_PEND, R.FE_STAT_INJ_OVF, R.FE_STAT_TX_OVF,
      R.FE_STAT_RX_UF, R.FE_STAT_TX_LVL, R.FE_STAT_RX_LVL, R.FE_STAT_TLATE, R.FE_PC_PC, R.FE_K0_K0, R.FE_K1_K1, R.FE_CAP_CAP, R.FE_EMT_EMT, R.FE_PH_PH, R.FE_STAMP_LO_STAMP, R.FE_STAMP_HI_STAMP, R.FE_TGT_LO_TGT, R.FE_TGT_HI_TGT, R.FE_PCNT_PCNT] <;>
    omega

theorem wrAll_cons (a : State) (f : Fld) (v : Nat) (l : List (Fld × Nat)) : a.wrAll ((f, v) :: l) = (a.wr f v).wrAll l := rfl

/-- Enabling clears registers and engine alike. -/
def State.feClear (s : State) (e : Nat) : State := ((s.wr (R.FE_CTRL_EN e) 1).wr (R.FE_STAT_STATE e) 1).zeroAll (feCleared e)

theorem feClear_body (m : State) (e : Nat) : FeBody e (m.fe e) (R.FE_CTRL_EN e :: R.FE_STAT_STATE e :: feCleared e) m (m.feClear e) :=
  ((((FeBody.refl m e).wr (R.FE_CTRL_EN e) 1).wr (R.FE_STAT_STATE e) 1).mono (gs := R.FE_CTRL_EN e :: R.FE_STAT_STATE e :: feCleared e) (by simp)).wrAll _ fun p hp => by
    obtain ⟨f, hf, rfl⟩ := List.mem_map.mp hp
    exact List.mem_cons_of_mem _ (List.mem_cons_of_mem _ hf)

theorem feClear_values (m : State) (e : Nat) : (m.feClear e).feState e = 1 ∧ (m.feClear e).on (R.FE_CTRL_EN e) = true ∧ ∀ f ∈ feCleared e, (m.feClear e).rd f = 0 := by
  have hz : RegsBut (feCleared e) ((m.wr (R.FE_CTRL_EN e) 1).wr (R.FE_STAT_STATE e) 1) (m.feClear e) :=
    ((FeBody.refl _ e).mono (by simp) |>.wrAll ((feCleared e).map fun f => (f, 0)) fun p hp => by
      obtain ⟨f, hf, rfl⟩ := List.mem_map.mp hp
      exact hf).regs
  obtain ⟨h1, h2⟩ := feCleared_notMem e
  refine ⟨(hz.rd h2).trans (State.rd_wr_same _ (R.FE_STAT_STATE e) 1), (hz.on h1).trans ?_, fun f hf => rd_zeroAll _ (feCleared_rst e) _ (feCleared_rst e f hf) (.inl hf)⟩
  exact (State.on_wr_ne (f := R.FE_STAT_STATE e) (g := R.FE_CTRL_EN e) _ 1 (by simp only [R.FE_CTRL_EN, R.FE_STAT_STATE]; omega)).trans (State.on_wr_same m (R.FE_CTRL_EN e) 1)

theorem feEnable_on (h0 : m.feState e = 0) : m.feEnable e true = (m.feClear e).feMod e fun x => { known := x.known } := by
  rw [State.feEnable, if_pos rfl, if_neg (by rw [h0]; decide), wrAll_cons, wrAll_cons, State.feMod, (feClear_body m e).engine]
  simp only [State.feClear, State.zeroAll, feCleared, List.map_cons, List.map_nil]

/-- An engine that is enabled. -/
theorem feEnable_on_spec (hlen : e.val < m.fes.length) (h0 : m.feState e = 0) :
    FeBody e { known := (m.fe e).known } (R.FE_CTRL_EN e :: R.FE_STAT_STATE e :: feCleared e) m (m.feEnable e true) ∧ (m.feEnable e true).feState e = 1 ∧ (m.feEnable e true).on (R.FE_CTRL_EN e) = true ∧ ∀ f ∈ feCleared e, (m.feEnable e true).rd f = 0 := by
  rw [feEnable_on h0]
  have hb := (feClear_body m e).mod hlen fun x => { known := x.known }
  have hv := feClear_values m e
  generalize m.feClear e = q at *
  exact ⟨hb, hv⟩

/-- What FE_CTRL clears when EN is written 0. -/
def feOffFlds (e : Nat) : List Fld := [R.FE_CTRL_EN e, R.FE_STAT_STATE e, R.FE_STAT_STALL e, R.FE_STAT_ENC_ERR e, R.FE_STAT_INJ_PEND e]

theorem feOffFlds_rst (e : Nat) : ∀ f ∈ feOffFlds e, f.rst = 0 := by simp [feOffFlds, R.FE_CTRL_EN, R.FE_STAT_STATE, R.FE_STAT_STALL, R.FE_STAT_ENC_ERR, R.FE_STAT_INJ_PEND]

theorem feEnable_off (m : State) (e : Nat) : m.feEnable e false = (m.zeroAll (feOffFlds e)).feMod e fun x => { x with stalled := none, inj := none, stepping := false } := by
  rw [State.feEnable, if_neg (by decide)]
  simp only [State.zeroAll, feOffFlds, List.map_cons, List.map_nil]

theorem zeroAll_body (m : State) (e : Nat) (l : List Fld) : FeBody e (m.fe e) l m (m.zeroAll l) :=
  ((FeBody.refl m e).mono (by simp)).wrAll _ fun p hp => by
    obtain ⟨f, hf, rfl⟩ := List.mem_map.mp hp
    exact hf

/-- An engine that is switched off. -/
theorem feEnable_off_spec (hlen : e.val < m.fes.length) :
    FeBody e { m.fe e with stalled := none, inj := none, stepping := false } (feOffFlds e) m (m.feEnable e false) ∧ ∀ f ∈ feOffFlds e, (m.feEnable e false).rd f = 0 := by
  rw [feEnable_off]
  have hb := (zeroAll_body m e (feOffFlds e)).mod hlen fun x => { x with stalled := none, inj := none, stepping := false }
  have hz (f : Fld) (hm : f ∈ feOffFlds e) : (m.zeroAll (feOffFlds e)).rd f = 0 := rd_zeroAll _ (feOffFlds_rst e) m (feOffFlds_rst e f hm) (.inl hm)
  generalize m.zeroAll (feOffFlds e) = q at *
  exact ⟨hb, hz⟩

section
variable {c : Who} {v : BitVec 32} {s1 : State}

theorem leads_feEn {l : List Fld} (h : s.takes c (0x180000 + 0x200 * e) v.toNat = true ∧ e.val < s.fes.length) (hs1 : s1 = s.feFields e v.toNat) (hen : s.feState e = 0 ∧ bit v.toNat 0 = true) (hl : l = feCleared e) :
    Leads s (.feEn c e v) fun t => t.feState e = 1 ∧ t.on (R.FE_CTRL_EN e) = true ∧ (∀ f ∈ l, t.rd f = 0) ∧ t.fe e = { known := (s.fe e).known } ∧ (∀ y, y ≠ e.val → t.fe y = s.fe y) ∧
    RegsBut (R.FE_CTRL_EN e :: R.FE_STAT_STATE e :: l) s1 t ∧ t = { s with regs := t.regs, fes := t.fes, answer := t.answer } := by
  subst hs1 hl
  have ew := writeReg_FE_CTRL e h.1
  have hf := feFields_body s e v.toNat
  rw [bv32_mod, writeFeCtrl_on hen.1 hen.2] at ew
  obtain ⟨hb, h1, h2, h3⟩ := feEnable_on_spec (m := s.feFields e v.toNat) (hf.len ▸ h.2) (feFields_state.trans hen.1)
  generalize (s.feFields e v.toNat).feEnable e true = r at *
  generalize s.feFields e v.toNat = m at *
  refine .intro rfl ew ⟨h1, h2, h3, hb.engine.trans (by rw [hf.engine]), fun y hy => (hb.others y hy).trans (hf.others y hy), hb.regs.of_regs rfl, ?_⟩
  rw [hf.only.trans hb.only]
  rfl

theorem leads_feEn_off (h : s.takes c (0x180000 + 0x200 * e) v.toNat = true ∧ e.val < s.fes.length) (hs1 : s1 = s.feFields e v.toNat) (hoff : s.feState e ≠ 0 ∧ bits v.toNat 0 3 = 0) :
    Leads s (.feEn c e v) fun t => t.feState e = 0 ∧ t.on (R.FE_CTRL_EN e) = false ∧ t.rd (R.FE_STAT_STALL e) = 0 ∧ t.on (R.FE_STAT_ENC_ERR e) = false ∧ t.on (R.FE_STAT_INJ_PEND e) = false ∧
    t.fe e = { s.fe e with stalled := none, inj := none, stepping := false } ∧ (∀ y, y ≠ e.val → t.fe y = s.fe y) ∧
    RegsBut [R.FE_CTRL_EN e, R.FE_STAT_STATE e, R.FE_STAT_STALL e, R.FE_STAT_ENC_ERR e, R.FE_STAT_INJ_PEND e] s1 t ∧ t = { s with regs := t.regs, fes := t.fes, answer := t.answer } := by
  subst hs1
  have ew := writeReg_FE_CTRL e h.1
  have hf := feFields_body s e v.toNat
  rw [bv32_mod, writeFeCtrl_off hoff.1 ⟨bit_of_bits_zero hoff.2 (by omega), bit_of_bits_zero hoff.2 (by omega), bit_of_bits_zero hoff.2 (by omega)⟩] at ew
  obtain ⟨hb, hz⟩ := feEnable_off_spec (m := s.feFields e v.toNat) (e := e) (hf.len ▸ h.2)
  generalize (s.feFields e v.toNat).feEnable e false = r at *
  generalize s.feFields e v.toNat = m at *
  have hoff (f : Fld) (hm : f ∈ feOffFlds e) : r.on f = false := by
    rw [State.on, hz f hm]
    rfl
  refine .intro rfl ew ⟨hz _ (by simp [feOffFlds]), hoff _ (by simp [feOffFlds]), hz _ (by simp [feOffFlds]), hoff _ (by simp [feOffFlds]), hoff _ (by simp [feOffFlds]), hb.engine.trans (by rw [hf.engine]),
    fun y hy => (hb.others y hy).trans (hf.others y hy), hb.regs.of_regs rfl, ?_⟩
  rw [hf.only.trans hb.only]
  rfl

/-- HALT stops an engine without an error. -/
theorem feHaltWith_command (hlen : e.val < m.fes.length) :
    FeBody e { m.fe e with stalled := none, stepping := false } [R.FE_STAT_STATE e, R.FE_STAT_CAUSE e, R.FE_STAT_STALL e] m (m.feHaltWith e 1) ∧ (m.feHaltWith e 1).feState e = 1 ∧ (m.feHaltWith e 1).rd (R.FE_STAT_CAUSE e) = 1 ∧ (m.feHaltWith e 1).rd (R.FE_STAT_STALL e) = 0 := by
  have he : m.feHaltWith e 1 = (((m.wr (R.FE_STAT_STATE e) 1).wr (R.FE_STAT_STALL e) 0).wr (R.FE_STAT_CAUSE e) 1).feMod e fun x => { x with stalled := none, stepping := false } := by
    rw [State.feHaltWith, if_neg (by decide)]
    rfl
  have hb := ((((FeBody.refl m e).wr (R.FE_STAT_STATE e) 1).wr (R.FE_STAT_STALL e) 0).wr (R.FE_STAT_CAUSE e) 1).mono (gs := [R.FE_STAT_STATE e, R.FE_STAT_CAUSE e, R.FE_STAT_STALL e]) (by simp)
  rw [he]
  have hst : (((m.wr (R.FE_STAT_STATE e) 1).wr (R.FE_STAT_STALL e) 0).wr (R.FE_STAT_CAUSE e) 1).feState e = 1 :=
    (State.rd_wr_ne (f := R.FE_STAT_CAUSE e) (g := R.FE_STAT_STATE e) _ 1 (by simp only [R.FE_STAT_CAUSE, R.FE_STAT_STATE]; omega)).trans
      ((State.rd_wr_ne (f := R.FE_STAT_STALL e) (g := R.FE_STAT_STATE e) _ 0 (by simp only [R.FE_STAT_STALL, R.FE_STAT_STATE]; omega)).trans (State.rd_wr_same m (R.FE_STAT_STATE e) 1))
  have hca := State.rd_wr_same ((m.wr (R.FE_STAT_STATE e) 1).wr (R.FE_STAT_STALL e) 0) (R.FE_STAT_CAUSE e) 1
  have hsl : (((m.wr (R.FE_STAT_STATE e) 1).wr (R.FE_STAT_STALL e) 0).wr (R.FE_STAT_CAUSE e) 1).rd (R.FE_STAT_STALL e) = 0 :=
    (State.rd_wr_ne (f := R.FE_STAT_CAUSE e) (g := R.FE_STAT_STALL e) _ 1 (by simp only [R.FE_STAT_CAUSE, R.FE_STAT_STALL]; omega)).trans (State.rd_wr_same _ (R.FE_STAT_STALL e) 0)
  generalize ((m.wr (R.FE_STAT_STATE e) 1).wr (R.FE_STAT_STALL e) 0).wr (R.FE_STAT_CAUSE e) 1 = q at *
  exact ⟨hb.mod hlen fun x => { x with stalled := none, stepping := false }, hst, hca, hsl⟩

theorem leads_feHalt (h : s.takes c (0x180000 + 0x200 * e) (v ||| 2).toNat = true ∧ e.val < s.fes.length) (hs1 : s1 = s.feFields e v.toNat) (hrun : s.feState e = 2 ∧ bit v.toNat 0 = true) :
    Leads s (.feHalt c e v) fun t => t.feState e = 1 ∧ t.rd (R.FE_STAT_CAUSE e) = 1 ∧ t.rd (R.FE_STAT_STALL e) = 0 ∧ t.fe e = { s.fe e with stalled := none, stepping := false } ∧ (∀ y, y ≠ e.val → t.fe y = s.fe y) ∧
    RegsBut [R.FE_STAT_STATE e, R.FE_STAT_CAUSE e, R.FE_STAT_STALL e] s1 t ∧ t = { s with regs := t.regs, fes := t.fes, answer := t.answer } := by
  subst hs1
  have ew := writeReg_FE_CTRL e h.1
  have hf := feFields_body s e v.toNat
  rw [bv32_mod, writeFeCtrl_halt hrun.1 ⟨(bit_or_of_false (by decide)).trans hrun.2, bit_or_true (by decide)⟩, feFields_or (by decide), State.feHalt, if_pos (feFields_state.trans hrun.1)] at ew
  generalize s.feFields e v.toNat = m at *
  obtain ⟨hb, h1, h2, h3⟩ := feHaltWith_command (m := m) (e := e) (hf.len ▸ h.2)
  generalize m.feHaltWith e 1 = r at *
  refine .intro rfl ew ⟨h1, h2, h3, hb.engine.trans (by rw [hf.engine]), fun y hy => (hb.others y hy).trans (hf.others y hy), hb.regs.of_regs rfl, ?_⟩
  rw [hf.only.trans hb.only]
  rfl

/-! ### STEP (R434) -/

theorem feFields_setFio (fio : BitVec 128) (e w : Nat) : (s.setFio fio).feFields e w = (s.feFields e w).setFio fio := by
  rw [State.feFields, State.feFields]
  change (if s.unlocked then _ else _) = State.setFio (if s.unlocked then _ else _) fio
  split <;> rfl

theorem feFields_imem (i : Nat) : (s.feFields e w).feImem e i = s.feImem e i := by
  rw [State.feImem, State.feImem, (feFields_body s e w).engine,
    feFields_rd (by simp only [feCtrlFlds, List.map_cons, List.map_nil, List.mem_cons, List.not_mem_nil, or_false, R.FE_IMEM_WORD, R.FE_CTRL_IRQ_EN, R.FE_CTRL_INJ_FORCE, R.FE_CTRL_SAFE_HALT]; omega)]

theorem feFields_pc : (s.feFields e w).rd (R.FE_PC_PC e) = s.rd (R.FE_PC_PC e) :=
  feFields_rd (by simp only [feCtrlFlds, List.map_cons, List.map_nil, List.mem_cons, List.not_mem_nil, or_false, R.FE_PC_PC, R.FE_CTRL_IRQ_EN, R.FE_CTRL_INJ_FORCE, R.FE_CTRL_SAFE_HALT]; omega)

theorem feMod_feMod (hlen : e.val < m.fes.length) (f g : FeSt → FeSt) : (m.feMod e f).feMod e g = m.feMod e (g ∘ f) := by
  rw [State.feMod, fe_feMod_same f hlen]
  simp only [State.feMod, State.setFe, List.set_set, Function.comp]

theorem feHaltWith_feMod (hlen : e.val < m.fes.length) (f : FeSt → FeSt) :
    (m.feMod e f).feHaltWith e 1 = (((m.wr (R.FE_STAT_STATE e) 1).wr (R.FE_STAT_STALL e) 0).wr (R.FE_STAT_CAUSE e) 1).feMod e ((fun x => { x with stalled := none, stepping := false }) ∘ f) := by
  rw [State.feHaltWith, if_neg (by decide)]
  exact feMod_feMod (m := ((m.wr (R.FE_STAT_STATE e) 1).wr (R.FE_STAT_STALL e) 0).wr (R.FE_STAT_CAUSE e) 1) hlen f _

theorem feStamp_feMod (g : FeSt → FeSt) (t : Nat) : (m.feMod e g).feStamp e w t = (m.feStamp e w t).feMod e g := by
  rw [State.feStamp, State.feStamp]
  split <;> rfl

/-- A STEP ends as an instruction of a running engine does, and HALT follows. -/
theorem feDone_stepping {n : Nat} {inj : Bool} {pc : Option Nat} (hlen : e.val < m.fes.length) (h : (m.fe e).stepping = true) :
    m.feDone e inj pc n = ((m.feMod e fun x => { x with stepping := false }).feDone e inj pc n).feHaltWith e 1 := by
  have hs : ((m.feMod e fun x => { x with stepping := false }).fe e).stepping = false := by rw [fe_feMod_same _ hlen]
  have ha : (m.feMod e fun x => { x with stepping := false }).feAdvance e inj pc = (m.feAdvance e inj pc).feMod e fun x => { x with stepping := false } := by
    match pc, inj with
    | some _, _ => rfl
    | none, true => rfl
    | none, false => rfl
  have hd : m.feDone e inj pc n = (((m.feAdvance e inj pc).wr (R.FE_STAT_STALL e) 0).feMod e fun x => { x with nextAt := n, stalled := none, hit := none }).feHaltWith e 1 := by
    simp only [State.feDone, h]
    rfl
  have hb := (feAdvance_body m e inj pc).len
  rw [feDone_running hs, ha, hd]
  generalize m.feAdvance e inj pc = q at *
  have hl : e.val < (q.wr (R.FE_STAT_STALL e) 0).fes.length := hb ▸ hlen
  change _ = (State.feMod ((q.wr (R.FE_STAT_STALL e) 0).feMod e fun x => { x with stepping := false }) e _).feHaltWith e 1
  generalize q.wr (R.FE_STAT_STALL e) 0 = q at *
  rw [feMod_feMod hl, feHaltWith_feMod hl, feHaltWith_feMod hl]
  rfl

theorem feExec_nop (ho : feOp w = 0) (inj : Bool) (t : Nat) : m.feExec e w inj t = m.feNop e w inj t := by simp only [State.feExec, ho]

theorem feExec_sigIrq (ho : isSig 1 w = true) (inj : Bool) (t : Nat) : m.feExec e w inj t = m.feSigIrq e w inj t := by
  obtain ⟨h1, h2⟩ := (Bool.and_eq_true_iff ..).mp ho
  simp only [State.feExec, beq_iff_eq.mp h1, beq_iff_eq.mp h2]

/-- The state in which the word of a STEP executes. -/
theorem feStep_nop (h : m.feState e = 1 ∧ (m.fe e).stalled = none) (hw : w = m.feImem e (m.rd (R.FE_PC_PC e))) (hop : feLegal w = true ∧ feOp w = 0) :
    m.feStep e = ((m.wr (R.FE_STAT_STATE e) 2).feMod e fun x => { x with stepping := true }).feNop e w false (fifeAdd m.now 1) := by
  rw [State.feStep, if_neg (by simp [h.1, h.2]), ← hw, if_pos hop.1]
  exact feExec_nop hop.2 _ _

theorem feStep_illegal (h : m.feState e = 1 ∧ (m.fe e).stalled = none) (hl : feLegal (m.feImem e (m.rd (R.FE_PC_PC e))) = false) : m.feStep e = m.feHaltWith e 3 := by
  rw [State.feStep, if_neg (by simp [h.1, h.2])]
  exact if_neg (by rw [hl]; decide)

/-- A NOP that executes in a STEP. -/
theorem feNop_stepping (hlen : e.val < m.fes.length) (t : Nat) :
    (m.feMod e fun x => { x with stepping := true }).feNop e w false t =
      (((m.feMod e fun x => { x with stepping := false }).feStamp e w (fifeAdd t 2)).feDone e false none (fifeAdd t ((1 + fePause w) * (m.fe e).div))).feHaltWith e 1 := by
  have hx : ((m.feStamp e w (fifeAdd t 2)).feMod e fun x => { x with stepping := true }).fe e = { m.fe e with stepping := true } := by
    rw [fe_feMod_same _ ((feStamp_body m e w _).len ▸ hlen), (feStamp_body m e w _).engine]
  have hl : e.val < ((m.feStamp e w (fifeAdd t 2)).feMod e fun x => { x with stepping := true }).fes.length := by
    rw [State.feMod, State.setFe, List.length_set, (feStamp_body m e w _).len]
    exact hlen
  rw [State.feNop, State.feEnd, feStamp_feMod, feDone_stepping hl (by rw [hx]), hx, feMod_feMod ((feStamp_body m e w _).len ▸ hlen), feStamp_feMod]
  rfl

/-- STATE and the fields of FE_CTRL are not those that the end of an instruction changes. -/
theorem feCtrl_apart {f : Fld} (hf : f ∈ R.FE_STAT_STATE e :: feCtrlFlds e) : f.key ≠ (R.FE_PC_PC e).key ∧ f.key ≠ (R.FE_STAMP_LO_STAMP e).key ∧ f.key ≠ (R.FE_STAMP_HI_STAMP e).key := by
  simp only [feCtrlFlds, List.mem_cons, List.not_mem_nil, or_false] at hf
  rcases hf with rfl | rfl | rfl | rfl <;> simp only [R.FE_STAT_STATE, R.FE_CTRL_IRQ_EN, R.FE_CTRL_INJ_FORCE, R.FE_CTRL_SAFE_HALT, R.FE_PC_PC, R.FE_STAMP_LO_STAMP, R.FE_STAMP_HI_STAMP] <;> omega

theorem leads_feStep_nop {fio : BitVec 128} (h : State.takes (s.setFio fio) c (0x180000 + 0x200 * e) (v ||| 4).toNat = true ∧ e.val < s.fes.length) (hs1 : s1 = s.feFields e v.toNat)
    (hst : s.feState e = 1 ∧ bit v.toNat 0 = true ∧ (s.fe e).stalled = none ∧ s.rd (R.FE_PC_PC e) < 32) (hw : w = s.feImem e (s.rd (R.FE_PC_PC e))) (hop : feLegal w = true ∧ feOp w = 0) :
    Leads s (.feStep c e v fio) fun t => t.feState e = 1 ∧ t.rd (R.FE_STAT_CAUSE e) = 1 ∧ FeDone e w false none (s.now + 1 + (1 + fePause w) * (s.fe e).div) (s.now + 3) { s.fe e with stepping := false } s t ∧
    RegsBut (R.FE_STAT_STATE e :: R.FE_STAT_CAUSE e :: feFlds e) s1 t ∧ t = { s with regs := t.regs, fes := t.fes, fioLv := fio.toNat, answer := t.answer } := by
  subst hs1
  obtain ⟨hhalt, hbit, hstl, -⟩ := hst
  have ew := writeReg_FE_CTRL e h.1
  have hf := feFields_body (s.setFio fio) e v.toNat
  have hgo : ((s.setFio fio).feFields e v.toNat).feStep e = _ := feStep_nop ⟨feFields_state.trans hhalt, by rw [hf.engine]; exact hstl⟩ (by rw [feFields_pc, feFields_imem]; exact hw) hop
  rw [bv32_mod, writeFeCtrl_step (s := s.setFio fio) hhalt ⟨(bit_or_of_false (by decide)).trans hbit, bit_or_true (by decide)⟩, feFields_or (by decide), hgo] at ew
  have hfs := feFields_setFio (s := s) fio e v.toNat
  have hnow : ((s.setFio fio).feFields e v.toNat).now = s.now := by rw [hf.only]; rfl
  generalize s.feFields e v.toNat = m1 at *
  generalize (s.setFio fio).feFields e v.toNat = m at *
  have hb := ((hf.wr (R.FE_STAT_STATE e) 2).mod h.2 fun x => { x with stepping := false })
  have hlen : e.val < (m.wr (R.FE_STAT_STATE e) 2).fes.length := (hf.wr (R.FE_STAT_STATE e) 2).len ▸ h.2
  rw [feNop_stepping hlen, (hf.wr (R.FE_STAT_STATE e) 2).engine] at ew
  obtain ⟨hd, -, hr, ho⟩ := hb.done (w := w) (inj := false) (pc := none) (st := fifeAdd (fifeAdd m.now 1) 2) (n := fifeAdd (fifeAdd m.now 1) ((1 + fePause w) * (s.fe e).div)) (next := s.now + 1 + (1 + fePause w) * (s.fe e).div) (stamp := s.now + 3)
    h.2 rfl (by simp) (fun f => feCtrl_apart) (by rw [fifeAdd_fifeAdd, hnow]) (by rw [fifeAdd_fifeAdd, hnow, Nat.mod_mod])
  have hq := (feDone_stamped (w := w) (inj := false) (pc := none) (st := fifeAdd (fifeAdd m.now 1) 2) (n := fifeAdd (fifeAdd m.now 1) ((1 + fePause w) * (s.fe e).div)) (hb.len ▸ h.2) (by rw [hb.engine])).len.trans hb.len
  have hm1 : RegsBut [R.FE_STAT_STATE e] m ((m.wr (R.FE_STAT_STATE e) 2).feMod e fun x => { x with stepping := false }) := (regsBut_wr_self m _ 2).of_regs rfl
  change ((s.setFio fio).writeReg c _ _ = State.answers (State.feHaltWith (State.feDone (State.feStamp _ e w (fifeAdd (fifeAdd m.now 1) 2)) e false none (fifeAdd (fifeAdd m.now 1) ((1 + fePause w) * (s.fe e).div))) e 1) .ok 0 []) at ew
  generalize (((m.wr (R.FE_STAT_STATE e) 2).feMod e fun x => { x with stepping := false }).feStamp e w (fifeAdd (fifeAdd m.now 1) 2)).feDone e false none (fifeAdd (fifeAdd m.now 1) ((1 + fePause w) * (s.fe e).div)) = u at *
  obtain ⟨hh, h1, h2, h3⟩ := feHaltWith_command (m := u) (e := e) (hq ▸ h.2)
  generalize u.feHaltWith e 1 = r at *
  subst hfs
  refine .intro rfl ew ⟨h1, h2, (hd.halted (hh.mono (by simp [feHaltFlds])) h3).1, ?_, ?_⟩
  · exact (((hm1.mono (by simp)).trans (hr.mono (by simp [feFlds, feEndFlds]))).trans (hh.regs.mono (by simp [feFlds]))).of_regs rfl
  · rw [ho.trans hh.only]
    rfl

theorem leads_feStep_illegal {fio : BitVec 128} (h : State.takes (s.setFio fio) c (0x180000 + 0x200 * e) (v ||| 4).toNat = true ∧ e.val < s.fes.length) (hs1 : s1 = s.feFields e v.toNat)
    (hst : s.feState e = 1 ∧ bit v.toNat 0 = true ∧ (s.fe e).stalled = none) (hl : feLegal (s.feImem e (s.rd (R.FE_PC_PC e))) = false) :
    Leads s (.feStep c e v fio) fun t => t.feState e = 1 ∧ t.rd (R.FE_STAT_CAUSE e) = 3 ∧ t.on (R.FE_STAT_ENC_ERR e) = true ∧ t.on (R.FE_STAT_ERR_SEEN e) = true ∧ t.rd (R.FE_PC_PC e) = s.rd (R.FE_PC_PC e) ∧
    RegsBut [R.FE_STAT_STATE e, R.FE_STAT_CAUSE e, R.FE_STAT_ENC_ERR e, R.FE_STAT_ERR_SEEN e, R.FE_STAT_STALL e] s1 t ∧ t = { s with regs := t.regs, fes := t.fes, fioLv := fio.toNat, answer := t.answer } := by
  subst hs1
  obtain ⟨hhalt, hbit, hstl⟩ := hst
  have ew := writeReg_FE_CTRL e h.1
  have hf := feFields_body (s.setFio fio) e v.toNat
  have hgo := feStep_illegal (m := (s.setFio fio).feFields e v.toNat) (e := e) ⟨feFields_state.trans hhalt, by rw [hf.engine]; exact hstl⟩ (by rw [feFields_pc, feFields_imem]; exact hl)
  rw [bv32_mod, writeFeCtrl_step (s := s.setFio fio) hhalt ⟨(bit_or_of_false (by decide)).trans hbit, bit_or_true (by decide)⟩, feFields_or (by decide), hgo] at ew
  have hfs := feFields_setFio (s := s) fio e v.toNat
  have hpc : ((s.setFio fio).feFields e v.toNat).rd (R.FE_PC_PC e) = s.rd (R.FE_PC_PC e) := feFields_pc
  generalize s.feFields e v.toNat = m1 at *
  generalize (s.setFio fio).feFields e v.toNat = m at *
  obtain ⟨hb, h1, h2, h3, h4, -⟩ := feHaltWith_error (m := m) (e := e) (cause := 3) (hf.len ▸ h.2) (by decide)
  generalize m.feHaltWith e 3 = r at *
  have hkeep : r.rd (R.FE_PC_PC e) = m.rd (R.FE_PC_PC e) := hb.regs.rd (by
    simp only [feHaltFlds, List.map_cons, List.map_nil, List.mem_cons, List.not_mem_nil, or_false, R.FE_STAT_STATE, R.FE_STAT_CAUSE, R.FE_STAT_ENC_ERR, R.FE_STAT_ERR_SEEN, R.FE_STAT_STALL, R.FE_PC_PC]; omega)
  subst hfs
  refine .intro rfl ew ⟨h1, h2, h3, h4, hkeep.trans hpc, hb.regs.of_regs rfl, ?_⟩
  rw [hf.only.trans hb.only]
  rfl

end

/-! ### GO and CLKRST (R435) -/

/-- GO at one engine. -/
def State.feGoOne (s : State) (mask e : Nat) : State :=
  if bit mask e && s.feState e == 1 then (s.wr (R.FE_STAT_STATE e) 2).feMod e fun x => { x with div := max 2 (s.rd (R.FE_CLK_DIV e)), nextAt := fifeAdd s.now 1, stepping := false }
  else s

theorem feGo_eq (s : State) (mask : Nat) : s.feGo mask = (List.range 32).foldl (fun t e => t.feGoOne mask e) s := rfl

/-- The next engine cycle begins when the whole cycles of a PAUSE that remain have passed. -/
def feCutTo (now : Nat) (x : FeSt) : FeSt :=
  { x with nextAt := fifeAdd now (1 + (if 0 < (x.nextAt + 2 ^ 48 - now) % 2 ^ 48 ∧ (x.nextAt + 2 ^ 48 - now) % 2 ^ 48 < 2 ^ 47 then ((x.nextAt + 2 ^ 48 - now) % 2 ^ 48 - 1) / x.div * x.div else 0)) }

/-- CLKRST at one engine. -/
def State.feClkrstOne (s : State) (mask e : Nat) : State := if bit mask e && s.feState e == 2 then s.feMod e (feCutTo s.now) else s

theorem feClkrst_eq (s : State) (mask : Nat) : s.feClkrst mask = (List.range 32).foldl (fun t e => t.feClkrstOne mask e) s := rfl

/-- The engines below m are as X gives them, those from m on as they were. -/
structure FeSwept (fs : List Fld) (X : Nat → FeSt) (S : Nat → Nat) (s : State) (m : Nat) (t : State) : Prop where
  below : ∀ e < m, t.fe e = X e ∧ t.feState e = S e
  above : ∀ e, m ≤ e → t.fe e = s.fe e ∧ t.feState e = s.feState e
  len : t.fes.length = s.fes.length
  regs : RegsBut fs s t
  only : FeOnly s t

theorem FeSwept.step {fs gs : List Fld} {X : Nat → FeSt} {S : Nat → Nat} {k : Nat} {u : State} (h : FeSwept fs X S s k t) (hb : FeBody k (X k) gs t u) (hst : u.feState k = S k) (hgs : ∀ f ∈ gs, f ∈ fs ∧ f = R.FE_STAT_STATE k) : FeSwept fs X S s (k + 1) u := by
  have hkeep (y : Nat) (hy : y ≠ k) : u.feState y = t.feState y := hb.regs.rd fun hm => by
    obtain ⟨f, hf, he⟩ := List.mem_map.mp hm
    rw [(hgs f hf).2] at he
    simp only [R.FE_STAT_STATE] at he
    omega
  refine ⟨fun y hy => ?_, fun y hy => ?_, hb.len.trans h.len, h.regs.trans (hb.regs.mono fun f hf => (hgs f hf).1), h.only.trans hb.only⟩
  · by_cases hk : y = k
    · subst hk
      exact ⟨hb.engine, hst⟩
    · have hlo := h.below y (by omega)
      exact ⟨(hb.others y hk).trans hlo.1, (hkeep y hk).trans hlo.2⟩
  · have hhi := h.above y (by omega)
    exact ⟨(hb.others y (by omega)).trans hhi.1, (hkeep y (by omega)).trans hhi.2⟩

/-- The engine that GO starts. -/
def State.feGoes (s : State) (mask e : Nat) : FeSt :=
  if bit mask e = true ∧ s.feState e = 1 then { s.fe e with div := max 2 (s.rd (R.FE_CLK_DIV e)), nextAt := (s.now + 1) % 2 ^ 48, stepping := false } else s.fe e

theorem feGo_swept (hlen : 32 ≤ s.fes.length) (mask : Nat) :
    FeSwept ((List.range 32).map R.FE_STAT_STATE) (s.feGoes mask) (fun e => if bit mask e = true ∧ s.feState e = 1 then 2 else s.feState e) s 32 (s.feGo mask) := by
  rw [feGo_eq]
  refine foldl_range_ind _ (FeSwept ((List.range 32).map R.FE_STAT_STATE) (s.feGoes mask) (fun e => if bit mask e = true ∧ s.feState e = 1 then 2 else s.feState e) s) (fun t k hk h => ?_)
    ⟨fun e he => absurd he (Nat.not_lt_zero e), fun _ _ => ⟨rfl, rfl⟩, rfl, RegsBut.refl _ _, .refl _⟩
  obtain ⟨hfe, hst⟩ := h.above k (Nat.le_refl k)
  have hdiv : t.rd (R.FE_CLK_DIV k) = s.rd (R.FE_CLK_DIV k) := h.regs.rd fun hm => by
    simp only [List.map_map, List.mem_map, List.mem_range, Function.comp, R.FE_STAT_STATE, R.FE_CLK_DIV] at hm
    omega
  have hnow : t.now = s.now := by rw [h.only]
  by_cases hc : bit mask k = true ∧ s.feState k = 1
  · have hx : s.feGoes mask k = { t.fe k with div := max 2 (t.rd (R.FE_CLK_DIV k)), nextAt := fifeAdd t.now 1, stepping := false } := by rw [State.feGoes, if_pos hc, hfe, hdiv, hnow, fifeAdd]
    rw [State.feGoOne, if_pos (by rw [hst]; simp [hc])]
    have hb := ((FeBody.refl t k).wr (R.FE_STAT_STATE k) 2).mod (by rw [h.len]; omega) fun x => { x with div := max 2 (t.rd (R.FE_CLK_DIV k)), nextAt := fifeAdd t.now 1, stepping := false }
    rw [← hx] at hb
    exact h.step hb ((State.rd_wr_same t (R.FE_STAT_STATE k) 2).trans (if_pos hc).symm) (by simpa using ⟨k, hk, rfl⟩)
  · rw [State.feGoOne, if_neg (by rw [hst]; simpa using hc)]
    have hb := FeBody.refl t k
    rw [hfe, ← (if_neg hc : s.feGoes mask k = s.fe k)] at hb
    exact h.step hb (hst.trans (if_neg hc).symm) (by simp)

/-- The engine whose cycle CLKRST cuts short. -/
def State.feCut (s : State) (mask e : Nat) : FeSt := if bit mask e = true ∧ s.feState e = 2 then feCutTo s.now (s.fe e) else s.fe e

theorem feClkrst_swept (hlen : 32 ≤ s.fes.length) (mask : Nat) : FeSwept [] (s.feCut mask) s.feState s 32 (s.feClkrst mask) := by
  rw [feClkrst_eq]
  refine foldl_range_ind _ (FeSwept [] (s.feCut mask) s.feState s) (fun t k hk h => ?_) ⟨fun e he => absurd he (Nat.not_lt_zero e), fun _ _ => ⟨rfl, rfl⟩, rfl, RegsBut.refl _ _, .refl _⟩
  obtain ⟨hfe, hst⟩ := h.above k (Nat.le_refl k)
  have hnow : t.now = s.now := by rw [h.only]
  by_cases hc : bit mask k = true ∧ s.feState k = 2
  · have hb := (FeBody.refl t k).mod (by rw [h.len]; omega) (feCutTo t.now)
    have hx : s.feCut mask k = feCutTo t.now (t.fe k) := by rw [State.feCut, if_pos hc, hfe, hnow]
    rw [← hx] at hb
    rw [State.feClkrstOne, if_pos (by rw [hst]; simp [hc])]
    exact h.step hb hst (by simp)
  · have hb := FeBody.refl t k
    rw [hfe, ← (if_neg hc : s.feCut mask k = s.fe k)] at hb
    rw [State.feClkrstOne, if_neg (by rw [hst]; simpa using hc)]
    exact h.step hb hst (by simp)

/-- CLKRST writes no register. -/
theorem feClkrst_regs (s : State) (mask : Nat) : (s.feClkrst mask).regs = s.regs := by
  rw [feClkrst_eq]
  refine foldl_keep (fun t : State => t.regs = s.regs) _ _ (fun t k _ h => ?_) rfl
  rw [State.feClkrstOne]
  split <;> exact h

/-- The cycles of a PAUSE that remain are kept, from the next control cycle on. -/
theorem feCut_nextAt {mask k : Nat} (h : bit mask k = true ∧ s.feState k = 2 ∧ s.now < (s.fe k).nextAt ∧ (s.fe k).nextAt < 2 ^ 46) :
    s.feCut mask k = { s.fe k with nextAt := (s.now + 1 + ((s.fe k).nextAt - s.now - 1) / (s.fe k).div * (s.fe k).div) % 2 ^ 48 } := by
  obtain ⟨hbit, hst, hlt, hmax⟩ := h
  have hr : ((s.fe k).nextAt + 2 ^ 48 - s.now) % 2 ^ 48 = (s.fe k).nextAt - s.now := by omega
  rw [State.feCut, if_pos ⟨hbit, hst⟩, feCutTo, hr, if_pos (by omega), fifeAdd, Nat.add_assoc]

section
variable {c : Who} {v : BitVec 32}

theorem leads_fifeGo (h : s.takes c 0x184000 v.toNat = true ∧ 32 ≤ s.fes.length) :
    Leads s (.fifeGo c v) fun t => (∀ e < 32, t.fe e = (if bit v.toNat e = true ∧ s.feState e = 1 then { s.fe e with div := max 2 (s.rd (R.FE_CLK_DIV e)), nextAt := (s.now + 1) % 2 ^ 48, stepping := false } else s.fe e) ∧
      t.feState e = (if bit v.toNat e = true ∧ s.feState e = 1 then 2 else s.feState e)) ∧
    RegsBut ((List.range 32).map R.FE_STAT_STATE) s t ∧ t = { s with regs := t.regs, fes := t.fes, answer := t.answer } := by
  have ew := writeReg_FIFE_GO h.1
  have hs := feGo_swept h.2 v.toNat
  rw [bv32_mod] at ew
  generalize s.feGo v.toNat = r at *
  refine .intro rfl ew ⟨hs.below, hs.regs.of_regs rfl, ?_⟩
  rw [hs.only]
  rfl

theorem leads_fifeClkrst (h : s.takes c 0x184004 v.toNat = true ∧ 32 ≤ s.fes.length) :
    Leads s (.fifeClkrst c v) fun t => (∀ e < 32, bit v.toNat e = false ∨ s.feState e ≠ 2 → t.fe e = s.fe e) ∧ (∀ e < 32, bit v.toNat e = true ∧ s.feState e = 2 ∧ s.now < (s.fe e).nextAt ∧ (s.fe e).nextAt < 2 ^ 46 →
      t.fe e = { s.fe e with nextAt := (s.now + 1 + ((s.fe e).nextAt - s.now - 1) / (s.fe e).div * (s.fe e).div) % 2 ^ 48 }) ∧
    t = { s with fes := t.fes, answer := t.answer } := by
  have ew := writeReg_FIFE_CLKRST h.1
  have hs := feClkrst_swept h.2 v.toNat
  have hregs := feClkrst_regs s v.toNat
  rw [bv32_mod] at ew
  generalize s.feClkrst v.toNat = r at *
  refine .intro rfl ew ⟨fun e he hno => (hs.below e he).1.trans (if_neg ?_), fun e he hcut => (hs.below e he).1.trans (feCut_nextAt hcut), ?_⟩
  · rintro ⟨hbit, hst⟩
    exact hno.elim (fun hb => Bool.false_ne_true (hb.symm.trans hbit)) fun hne => hne hst
  · rw [hs.only, hregs]
    rfl

/-! ### Injection (R436) -/

variable {fio : BitVec 128}

theorem leads_feInj_running (h : State.takes (s.setFio fio) c (0x180028 + 0x200 * e) v.toNat = true ∧ e.val < s.fes.length) (hrun : s.feState e = 2 ∧ (s.fe e).inj = none ∧ s.on (R.FE_CTRL_INJ_FORCE e) = false) :
    Leads s (.feInj c e v fio) fun t => t.on (R.FE_STAT_INJ_PEND e) = true ∧ t.fe e = { s.fe e with inj := some v.toNat } ∧ (∀ y, y ≠ e.val → t.fe y = s.fe y) ∧ RegsBut [R.FE_STAT_INJ_PEND e] s t ∧
    t = { s with regs := t.regs, fes := t.fes, fioLv := fio.toNat, answer := t.answer } := by
  have ew := writeReg_FE_INJ e h.1
  have hu (b : State) (hb : b.feState e = 2 ∧ (b.fe e).inj = none ∧ b.on (R.FE_CTRL_INJ_FORCE e) = false) : b.feInject e v.toNat = (b.wr (R.FE_STAT_INJ_PEND e) 1).feMod e fun x => { x with inj := some v.toNat } := by
    obtain ⟨h1, h2, h3⟩ := hb
    simp [State.feInject, h1, h2, h3]
  rw [bv32_mod, hu (s.setFio fio) hrun] at ew
  have hb := ((FeBody.refl (s.setFio fio) e).wr (R.FE_STAT_INJ_PEND e) 1).mod h.2 fun x => { x with inj := some v.toNat }
  have hv : (((s.setFio fio).wr (R.FE_STAT_INJ_PEND e) 1).feMod e fun x => { x with inj := some v.toNat }).on (R.FE_STAT_INJ_PEND e) = true := State.on_wr_same (s.setFio fio) (R.FE_STAT_INJ_PEND e) 1
  generalize ((s.setFio fio).wr (R.FE_STAT_INJ_PEND e) 1).feMod e (fun x => { x with inj := some v.toNat }) = r at *
  refine .intro rfl ew ⟨hv, hb.engine, hb.others, hb.regs.of_regs rfl, ?_⟩
  rw [hb.only]
  rfl

/-- A legal word injected into a HALTED engine executes, whatever INJ_FORCE says. -/
theorem feInject_halted {b : State} (hst : b.feState e = 1 ∧ (b.fe e).inj = none ∧ (b.fe e).stalled = none) (hl : feLegal w = true) : b.feInject e w = b.feExec e w true (fifeAdd b.now 1) := by
  obtain ⟨h1, h2, h3⟩ := hst
  have ha : b.feAbandon e = b := by simp only [State.feAbandon, h3]
  simp [State.feInject, h1, h2, h3, ha, hl]

theorem leads_feInj_halted (h : State.takes (s.setFio fio) c (0x180028 + 0x200 * e) v.toNat = true ∧ e.val < s.fes.length) (hst : s.feState e = 1 ∧ (s.fe e).inj = none ∧ (s.fe e).stalled = none ∧ (s.fe e).stepping = false)
    (hop : w = v.toNat ∧ feLegal w = true ∧ isSig 1 w = true) :
    Leads s (.feInj c e v fio) fun t => t.on (R.FE_STAT_IRQ e) = true ∧ FeDone e w true none (s.now + 1 + (1 + fePause w) * (s.fe e).div) (s.now + 3) (s.fe e) s t ∧
    RegsBut (R.FE_STAT_IRQ e :: feFlds e) s t ∧ t = { s with regs := t.regs, fes := t.fes, fioLv := fio.toNat, answer := t.answer } := by
  obtain ⟨rfl, hl, hsig⟩ := hop
  obtain ⟨hhalt, hinj, hstl, hstep⟩ := hst
  have ew := writeReg_FE_INJ e h.1
  rw [bv32_mod, feInject_halted (b := s.setFio fio) ⟨hhalt, hinj, hstl⟩ hl, feExec_sigIrq hsig, State.feSigIrq, State.feEnd] at ew
  have hb := (FeBody.refl (s.setFio fio) e).wr (R.FE_STAT_IRQ e) 1
  have hir : ((s.setFio fio).wr (R.FE_STAT_IRQ e) 1).on (R.FE_STAT_IRQ e) = true := State.on_wr_same (s.setFio fio) (R.FE_STAT_IRQ e) 1
  rw [(feStamp_body _ e _ _).engine, hb.engine] at ew
  generalize (s.setFio fio).wr (R.FE_STAT_IRQ e) 1 = m at *
  obtain ⟨hd, hr, hm, ho⟩ := hb.done (w := v.toNat) (inj := true) (pc := none) (st := fifeAdd (fifeAdd (s.setFio fio).now 1) 2) (n := fifeAdd (fifeAdd (s.setFio fio).now 1) ((1 + fePause v.toNat) * ((s.setFio fio).fe e).div))
    (next := s.now + 1 + (1 + fePause v.toNat) * (s.fe e).div) (stamp := s.now + 3) h.2 hstep (by simp)
    (by simp only [List.mem_singleton, forall_eq, R.FE_STAT_IRQ, R.FE_PC_PC, R.FE_STAMP_LO_STAMP, R.FE_STAMP_HI_STAMP]; omega) (fifeAdd_fifeAdd _ _ _) (by rw [fifeAdd_fifeAdd, Nat.mod_mod]; rfl)
  generalize (m.feStamp e v.toNat (fifeAdd (fifeAdd (s.setFio fio).now 1) 2)).feDone e true none (fifeAdd (fifeAdd (s.setFio fio).now 1) ((1 + fePause v.toNat) * ((s.setFio fio).fe e).div)) = r at *
  refine .intro rfl ew ⟨(hm.on ?_).trans hir, hd, (hr.mono (by simp [feFlds, feEndFlds])).of_regs rfl, ?_⟩
  · simp only [feEndFlds, List.map_cons, List.map_nil, List.mem_cons, List.not_mem_nil, or_false, R.FE_STAT_IRQ, R.FE_PC_PC, R.FE_STAMP_LO_STAMP, R.FE_STAMP_HI_STAMP, R.FE_STAT_STALL]
    omega
  · rw [ho]
    rfl

theorem leads_feInj_lost (h : State.takes (s.setFio fio) c (0x180028 + 0x200 * e) v.toNat = true) (hinj : (s.fe e).inj ≠ none) :
    Leads s (.feInj c e v fio) fun t => t.on (R.FE_STAT_INJ_OVF e) = true ∧ RegsBut [R.FE_STAT_INJ_OVF e] s t ∧ t = { s with regs := t.regs, fioLv := fio.toNat, answer := t.answer } := by
  have ew := writeReg_FE_INJ e h
  have hu : (s.setFio fio).feInject e v.toNat = (s.setFio fio).wr (R.FE_STAT_INJ_OVF e) 1 := if_pos (Option.isSome_iff_ne_none.mpr hinj)
  rw [bv32_mod, hu] at ew
  exact .intro rfl ew ⟨State.on_wr_same (s.setFio fio) (R.FE_STAT_INJ_OVF e) 1, (regsBut_wr_self (s.setFio fio) (R.FE_STAT_INJ_OVF e) 1).of_regs rfl, rfl⟩

/-! ### TX and RX (R438) -/

theorem leads_feTx (h : s.takes c (0x180020 + 0x200 * e) v.toNat = true ∧ e.val < s.fes.length) (hroom : (s.fe e).tx.length < 8) :
    Leads s (.feTx c e v) fun t => t.rd (R.FE_STAT_TX_LVL e) = (s.fe e).tx.length + 1 ∧ t.fe e = { s.fe e with tx := (s.fe e).tx ++ [(v.toNat, s.now)] } ∧ (∀ y, y ≠ e.val → t.fe y = s.fe y) ∧
    RegsBut [R.FE_STAT_TX_LVL e] s t ∧ t = { s with regs := t.regs, fes := t.fes, answer := t.answer } := by
  have ew := writeReg_FE_TX e h.1
  have hu : s.feTxWrite e v.toNat = (s.feMod e fun x => { x with tx := (s.fe e).tx ++ [(v.toNat, s.now)] }).wr (R.FE_STAT_TX_LVL e) ((s.fe e).tx.length + 1) := by
    rw [State.feTxWrite, if_neg (by omega), bv32_mod]
    rfl
  rw [bv32_mod, hu] at ew
  have hb := ((FeBody.refl s e).mod h.2 fun x => { x with tx := (s.fe e).tx ++ [(v.toNat, s.now)] }).wr (R.FE_STAT_TX_LVL e) ((s.fe e).tx.length + 1)
  have hv := (State.rd_wr_same (s.feMod e fun x => { x with tx := (s.fe e).tx ++ [(v.toNat, s.now)] }) (R.FE_STAT_TX_LVL e) ((s.fe e).tx.length + 1)).trans (Nat.mod_eq_of_lt (show _ < 2 ^ 4 by omega))
  generalize (s.feMod e fun x => { x with tx := (s.fe e).tx ++ [(v.toNat, s.now)] }).wr (R.FE_STAT_TX_LVL e) ((s.fe e).tx.length + 1) = r at *
  refine .intro rfl ew ⟨hv, hb.engine, hb.others, hb.regs.of_regs rfl, ?_⟩
  rw [hb.only]
  rfl

theorem leads_feTx_full (h : s.takes c (0x180020 + 0x200 * e) v.toNat = true) (hfull : 8 ≤ (s.fe e).tx.length) :
    Leads s (.feTx c e v) fun t => t.on (R.FE_STAT_TX_OVF e) = true ∧ RegsBut [R.FE_STAT_TX_OVF e] s t ∧ t = { s with regs := t.regs, answer := t.answer } := by
  have ew := writeReg_FE_TX e h
  have hu : s.feTxWrite e v.toNat = s.wr (R.FE_STAT_TX_OVF e) 1 := if_pos hfull
  rw [bv32_mod, hu] at ew
  exact .intro rfl ew ⟨State.on_wr_same s (R.FE_STAT_TX_OVF e) 1, (regsBut_wr_self s (R.FE_STAT_TX_OVF e) 1).of_regs rfl, rfl⟩

set_option Elab.async false in
theorem found_FE_RX : ∀ e : Fin 32, hitAt (0x180024 + 0x200 * e) = some (0x180024, [e.val], none) := by decide +kernel

theorem readReg_FE_RX (h : s.gives c (0x180024 + 0x200 * e) = true) : s.readReg c (0x180024 + 0x200 * e) = (s.feRxRead e).2.answers .ok ((s.feRxRead e).1 % 2 ^ 32) [] :=
  readReg_pop h (found_FE_RX e) fun hit hb hx hu => by simp [State.popRead, hb, hu, RegHit.i, hx]

theorem leads_feRxRead {a : Nat} {l : List Nat} (h : s.gives c (0x180024 + 0x200 * e) = true ∧ e.val < s.fes.length) (hrx : (s.fe e).rx = a :: l ∧ a < 2 ^ 32 ∧ l.length < 8) :
    Leads s (.feRxRead c e) fun t => t.answer.st = .ok ∧ t.answer.value = a ∧ t.rd (R.FE_STAT_RX_LVL e) = l.length ∧ t.fe e = { s.fe e with rx := l, rxRead := if l.length = 7 then s.now else (s.fe e).rxRead } ∧ (∀ y, y ≠ e.val → t.fe y = s.fe y) ∧
    RegsBut [R.FE_STAT_RX_LVL e] s t ∧ t = { s with regs := t.regs, fes := t.fes, answer := t.answer } := by
  obtain ⟨hrx, ha, hl⟩ := hrx
  have ew := readReg_FE_RX h.1
  have hu : s.feRxRead e = (a, (s.feMod e fun x => { x with rx := l, rxRead := if l.length = 7 then s.now else x.rxRead }).wr (R.FE_STAT_RX_LVL e) l.length) := by
    simp only [State.feRxRead, hrx, List.length_cons, Nat.reduceEqDiff]
    rfl
  rw [hu, Nat.mod_eq_of_lt ha] at ew
  have hb := ((FeBody.refl s e).mod h.2 fun x => { x with rx := l, rxRead := if l.length = 7 then s.now else x.rxRead }).wr (R.FE_STAT_RX_LVL e) l.length
  have hv := (State.rd_wr_same (s.feMod e fun x => { x with rx := l, rxRead := if l.length = 7 then s.now else x.rxRead }) (R.FE_STAT_RX_LVL e) l.length).trans (Nat.mod_eq_of_lt (show _ < 2 ^ 4 by omega))
  generalize (s.feMod e fun x => { x with rx := l, rxRead := if l.length = 7 then s.now else x.rxRead }).wr (R.FE_STAT_RX_LVL e) l.length = r at *
  refine .intro rfl ew ⟨rfl, rfl, hv, hb.engine, hb.others, hb.regs.of_regs rfl, ?_⟩
  rw [hb.only]
  rfl

theorem leads_feRxRead_empty (h : s.gives c (0x180024 + 0x200 * e) = true) (hrx : (s.fe e).rx = []) :
    Leads s (.feRxRead c e) fun t => t.answer.st = .ok ∧ t.answer.value = 0 ∧ t.on (R.FE_STAT_RX_UF e) = true ∧ RegsBut [R.FE_STAT_RX_UF e] s t ∧ t = { s with regs := t.regs, answer := t.answer } := by
  have ew := readReg_FE_RX h
  have hu : s.feRxRead e = (0, s.wr (R.FE_STAT_RX_UF e) 1) := by simp only [State.feRxRead, hrx]
  rw [hu] at ew
  exact .intro rfl ew ⟨rfl, rfl, State.on_wr_same s (R.FE_STAT_RX_UF e) 1, (regsBut_wr_self s (R.FE_STAT_RX_UF e) 1).of_regs rfl, rfl⟩

/-! ### Instruction memory and Fife time (R437, R448) -/

/-- The words of an engine that are known, one more among them. -/
def feKnow (i : Nat) (x : FeSt) : FeSt := { x with known := if x.known.contains i then x.known else i :: x.known }

theorem feKnow_same (i : Nat) (x : FeSt) : (feKnow i x).known.contains i = true := by
  by_cases h : x.known.contains i = true
  · rw [feKnow, if_pos h, h]
  · rw [feKnow, if_neg h, List.contains_cons, beq_self_eq_true, Bool.true_or]

theorem feKnow_ne {i j : Nat} (h : j ≠ i) (x : FeSt) : (feKnow i x).known.contains j = x.known.contains j := by
  by_cases hk : x.known.contains i = true
  · rw [feKnow, if_pos hk]
  · rw [feKnow, if_neg hk, List.contains_cons, beq_false_of_ne h, Bool.false_or]

theorem leads_instructionMemoryWrite {i : Fin 32} (h : s.takes c (0x180100 + 0x200 * e + 4 * i) v.toNat = true ∧ e.val < s.fes.length) :
    Leads s (.instructionMemoryWrite c e i v) fun t => t.feImem e i = v.toNat ∧ t.rd (R.FE_IMEM_WORD e i) = v.toNat ∧ (∀ y, y ≠ e.val → t.fe y = s.fe y) ∧ t.fe e = { s.fe e with known := (t.fe e).known } ∧
    (∀ j < 32, j ≠ i.val → t.feImem e j = s.feImem e j) ∧ RegsBut [R.FE_IMEM_WORD e i] s t ∧ t = { s with regs := t.regs, fes := t.fes, answer := t.answer } := by
  have ew := writeReg_FE_IMEM e i h.1
  have hu : s.writeFeImem e i v.toNat = (s.wr (R.FE_IMEM_WORD e i) v.toNat).feMod e (feKnow i) := rfl
  rw [bv32_mod, hu] at ew
  have hb := ((FeBody.refl s e).wr (R.FE_IMEM_WORD e i) v.toNat).mod h.2 (feKnow i)
  have hv : ((s.wr (R.FE_IMEM_WORD e i) v.toNat).feMod e (feKnow i)).rd (R.FE_IMEM_WORD e i) = v.toNat := (State.rd_wr_same s (R.FE_IMEM_WORD e i) v.toNat).trans (bv32_mod v)
  generalize (s.wr (R.FE_IMEM_WORD e i) v.toNat).feMod e (feKnow i) = r at *
  have hrd (j : Nat) (hj : j ≠ i.val) : r.rd (R.FE_IMEM_WORD e j) = s.rd (R.FE_IMEM_WORD e j) := hb.regs.rd (by simp only [List.map_cons, List.map_nil, List.mem_singleton, R.FE_IMEM_WORD]; omega)
  have hsame : r.feImem e i = v.toNat := by rw [State.feImem, hb.engine, if_pos (feKnow_same i _), hv]
  have hother (j : Nat) (hj : j ≠ i.val) : r.feImem e j = s.feImem e j := by rw [State.feImem, State.feImem, hb.engine, feKnow_ne hj, hrd j hj]
  refine .intro rfl ew ⟨hsame, hv, hb.others, ?_, fun j _ hj => hother j hj, hb.regs.of_regs rfl, ?_⟩
  · change r.fe e = { s.fe e with known := (r.fe e).known }
    rw [hb.engine]
    rfl
  · rw [hb.only]
    rfl

set_option Elab.async false in
theorem found_FIFE_NOW : hitAt 0x184008 = some (0x184008, [], none) := by decide +kernel

theorem leads_fifeNowRead (h : s.gives c 0x184008 = true) :
    Leads s (.fifeNowRead c) fun t => t.answer.st = .ok ∧ t.answer.value = s.now % 2 ^ 32 ∧ t.rd R.FIFE_NOW_HI_NOW = s.now / 2 ^ 32 % 2 ^ 16 ∧ t.rd R.FIFE_NOW_LO_NOW = s.now % 2 ^ 32 ∧
    RegsBut [R.FIFE_NOW_LO_NOW, R.FIFE_NOW_HI_NOW] s t ∧ t = { s with regs := t.regs, answer := t.answer } := by
  have ew : s.readReg c 0x184008 = s.feNowRead.2.answers .ok (s.feNowRead.1 % 2 ^ 32) [] := readReg_pop h found_FIFE_NOW fun hit hb hx hu => by simp [State.popRead, hb, hu]
  have hu : s.feNowRead = (s.now % 2 ^ 32, (s.wr R.FIFE_NOW_LO_NOW s.now).wr R.FIFE_NOW_HI_NOW (s.now / 2 ^ 32)) := rfl
  rw [hu, Nat.mod_mod] at ew
  have hhi := State.rd_wr_same (s.wr R.FIFE_NOW_LO_NOW s.now) R.FIFE_NOW_HI_NOW (s.now / 2 ^ 32)
  have hlo := (State.rd_wr_ne (f := R.FIFE_NOW_HI_NOW) (g := R.FIFE_NOW_LO_NOW) (s.wr R.FIFE_NOW_LO_NOW s.now) (s.now / 2 ^ 32) (by decide)).trans (State.rd_wr_same s R.FIFE_NOW_LO_NOW s.now)
  have hr := (regsBut_wr (f := R.FIFE_NOW_HI_NOW) (v := s.now / 2 ^ 32) (List.mem_cons_of_mem _ List.mem_cons_self)).mpr ((regsBut_wr_self s R.FIFE_NOW_LO_NOW s.now).mono (gs := [R.FIFE_NOW_LO_NOW, R.FIFE_NOW_HI_NOW]) (by simp))
  exact .intro rfl ew ⟨rfl, rfl, hhi, hlo, hr.of_regs rfl, rfl⟩

end

/-- Settles O42: each write is the engine's own change, with what it leaves of the other engines and of the registers. -/
theorem fifeCommands : Obligations.FifeCommands := by
  unfold Obligations.FifeCommands
  refine ⟨?enable, ?disable, ?halt, ?stepNop, ?stepIllegal, ?go, ?clkrst, ?injRunning, ?injHalted, ?injLost, ?tx, ?txFull, ?rx, ?rxEmpty, ?imem, ?now⟩
  case enable => exact fun s s1 q e v l h hs1 hen hl => leads_feEn h hs1 hen hl
  case disable => exact fun s s1 q e v h hs1 hoff => leads_feEn_off h hs1 hoff
  case halt => exact fun s s1 q e v h hs1 hrun => leads_feHalt h hs1 hrun
  case stepNop => exact fun s s1 q e v fio w h hs1 hst hw hop => leads_feStep_nop h hs1 hst hw hop
  case stepIllegal => exact fun s s1 q e v fio h hs1 hst hl => leads_feStep_illegal h hs1 hst hl
  case go => exact fun s q v h => leads_fifeGo h
  case clkrst => exact fun s q v h => leads_fifeClkrst h
  case injRunning => exact fun s q e v fio h hrun => leads_feInj_running h hrun
  case injHalted => exact fun s q e v fio w h hst hop => leads_feInj_halted h hst hop
  case injLost => exact fun s q e v fio h hinj => leads_feInj_lost h hinj
  case tx => exact fun s q e v h hroom => leads_feTx h hroom
  case txFull => exact fun s q e v h hfull => leads_feTx_full h hfull
  case rx => exact fun s q e a l h hrx => leads_feRxRead h hrx
  case rxEmpty => exact fun s q e h hrx => leads_feRxRead_empty h hrx
  case imem => exact fun s q e i v h => leads_instructionMemoryWrite h
  case now => exact fun s q h => leads_fifeNowRead h

end Sys2Proof.Machine
end
